-- ==== Sys2Proof/Word.lean ====
section
/-! DEFINITION. The word types of the CTP-4 model and their plainest arithmetic (Table SCO-3, Table HXS-1). -/
namespace Sys2Proof

/-- One byte of memory. -/
abbrev Byte := BitVec 8
/-- A 16-bit value (a core EPOCH, an immediate, an event code). -/
abbrev W16 := BitVec 16
/-- A device register (R5). -/
abbrev W32 := BitVec 32
/-- A core register, DEVTIME, TICK (Table HXS-1). -/
abbrev W64 := BitVec 64

end Sys2Proof
end

