-- ==== Sys2Proof/Config.lean ====
section
/-! DEFINITION. What one device fixes and the spec leaves open: the free values.  Each is a constant without
a body, so that no proof can see what it is.  A step applies it to State.free, a counter it then advances. -/
namespace Sys2Proof

/-- A carrier (Table SCO-5): A or B, never 0 and 1. -/
inductive Carrier | A | B
deriving DecidableEq, Repr

/-- A Plelis control core (Table HXS-1). -/
inductive CoreId | A | B
deriving DecidableEq, Repr

/-- The orderable parts (Table SCO-1), fixed by fuses at manufacture (R2). -/
inductive Part | ctp4s | ctp4n | ctp2s
deriving DecidableEq, Repr

/-- The part code of Table SCO-1. -/
def Part.code : Part → Nat
  | .ctp4s => 1
  | .ctp4n => 2
  | .ctp2s => 3

/-- The other core. -/
def CoreId.other : CoreId → CoreId
  | .A => .B
  | .B => .A

/-- The block ID of a core (Table ARC-1), which is also its CORE_ID. -/
def CoreId.block : CoreId → Nat
  | .A => 0x18
  | .B => 0x19

/-- 0 for A, 1 for B: the code of a carrier in registers and event data (R502). -/
def Carrier.code : Carrier → Nat
  | .A => 0
  | .B => 1

/-- 0 for A, 1 for B. -/
def CoreId.code : CoreId → Nat
  | .A => 0
  | .B => 1

/-- How the training symbols at the equaliser's outputs compare with the two training sequences (R162): each its own, exchanged,
or anything else. -/
inductive PolMatch | own | exchanged | other
deriving DecidableEq, Repr

/-- A complex integer: re and im. -/
abbrev Cplx := Int × Int

/-- A column of a position of an NFEC chain: bit z is v[z] (R181). -/
abbrev FecCol := BitVec 256

/-- Hard decisions over some groups of eight blocks (R188): by chain, the columns of its positions in their order. -/
abbrev FecHard := List (List (List FecCol))

/-- A blind measurement of the IQ imbalance, gain and phase of X and Y, in the units of Table RXF-3 (R138). -/
structure RxIq where
  gainX : BitVec 9
  phaseX : BitVec 11
  gainY : BitVec 9
  phaseY : BitVec 11
deriving DecidableEq, Repr

/-- A pilot as received and the data symbols that follow it, after the equaliser and with the frequency term removed, ahead of phase recovery; the pilot
amplitude a of R90 is 4,096 (R170, R171, R178). -/
structure RxGroup where
  pilot : Cplx
  data : List Cplx
deriving DecidableEq, Repr

/-- What the receiver has of one superframe, which only the line decides: the IQ measurement (R138), how the training symbols compare (R162), the correlation
of the frequency estimate in 1/256 of the normalised peak and the offset estimated or tracked in 100 kHz units (R170), the symbols of X and Y, how many data
symbols an erasure that began within it took (R155). -/
structure RxMeas where
  iq : RxIq
  train : PolMatch
  corr : Nat
  offset : BitVec 18
  groupsX : List RxGroup
  groupsY : List RxGroup
  erased : Nat
deriving DecidableEq, Repr

/-- What a monitor window of REF found of one source (R371, R375): its number, whether edges are present, its mean offset in ppt, signed. -/
structure RefMeas where
  src : Nat
  edges : Bool
  offset : W32
deriving DecidableEq, Repr

/-- What an event says of a wake source (Table PWR-4): a GPIO ball reaches a level, or signal detect rises on a lane of host-lane group g.  The other
sources are effects of other commands: an accepted engine command, PW_WAKE, a timer's compare event. -/
inductive WakeSource
  | gpio (ball : Fin 16) (level : Bool)
  | signal (group : Fin 4)
deriving DecidableEq, Repr

/-- A port of the host side (R279): an Ethernet client, or a FlexE group. -/
inductive HostPort
  | client (c : Fin 128)
  | group (g : Fin 8)
deriving DecidableEq, Repr

/-- What the annealer measured of one element of a converter (R422, R425): its residual error after trimming; the trims that it calls for, signed, in the
units of Table ANL-4, which may lie beyond the trim range; the offset of each comparator in 1/64 code. -/
structure AnlMeas where
  err : Nat
  trim0 : BitVec 16
  trim1 : BitVec 16
  trim2 : BitVec 16
  comp0 : BitVec 16
  comp1 : BitVec 16
deriving DecidableEq, Repr

/-- Who makes a register access over the device bus (R6): the host over PCIe, or a program on a core. -/
inductive Requester
  | host
  | core (k : CoreId)
deriving DecidableEq, Repr

/-- A value the spec leaves open at the moment it is drawn: the Detail word of a FAULT event (R502), bytes of the
enclave's random generator (R323), a lane power-up artefact.  Applied to the draw number State.free. -/
opaque Config.freeWord : Nat → W64

/-- The trims that Enyako recorded at test for an element of a converter (R428), by 72v + element: three 16-bit trims, the first lowest. -/
opaque Config.anlTrim : Nat → W64

/-! ### Real functions.  The spec gives their formulas and no rounding; their values are free values. -/

/-- log2(1 + exp(−x)) for x in units of 2^-16, in units of 2^-16 (R176, R202). -/
opaque Config.softplus : (x : Int) → Nat

/-- A level on a symbol grid whose squared step is num / den of the unit mean energy, in units of 2^-20 (R114, R118). -/
opaque Config.symFix : (level : Int) → (num den : Nat) → Int

/-- (1 − cos(π · num/den)) / 2, in units of 2^-89 (R206). -/
opaque Config.ramp : (num den : Nat) → Int

/-- Sample n of the root-raised-cosine shaping of roll-off roll / 100, truncated at ±32 symbols, and resampling of symbols at rs8 / 8 GBd to 288 GS/s
(R117). -/
opaque Config.shaped : (roll rs8 : Nat) → (syms : Int → Int × Int) → (n : Nat) → Int × Int

/-- A complex sample of X or Y after the IQ and XY trims given (R121), from those of both. -/
opaque Config.trimmed : (trims : List Int) → (y : Bool) → (x y : Int × Int) → Int × Int

/-- Sample n of a lane delayed by skew × 0.1 ps (R123). -/
opaque Config.skewed : (skew : Int) → (lane : Nat → Int) → (n : Nat) → Int

/-- Sample n of a lane in DAC codes, its signal scaled to an RMS of rms codes (R125). -/
opaque Config.scaled : (rms : Nat) → (lane : Nat → Int) → (n : Nat) → Int

/-- The argument of a complex number, and a number turned back by a phase, in units of π / 2^16 (R171). -/
opaque Config.arg : Cplx → Int
opaque Config.rotated : (phase : Int) → Cplx → Cplx

/-- level · √(2 · num / den) · 4,096: a level on the scale of R171 where the pilot amplitude is 4,096 (R114). -/
opaque Config.point : (level : Int) → (num den : Nat) → Int

/-- ln Σ w · exp(−d / s2) over pairs (w, d), in units of 2^-16 nat (R172). -/
opaque Config.lnSum : (s2 : Nat) → List (Nat × Nat) → Int

/-- The Stokes-space rotation rate between two values of J, their angles θ, φ, ψ in units of 2^-30 rad, 16 symbols at rs8 / 8 GBd apart, in krad/s
(R159). -/
opaque Config.sopRate : (rs8 : Nat) → (old new : Int × Int × Int) → Nat

/-- The DGD that taps imply, in 0.1 ps (EQZ_DGD_STATUS_x). -/
opaque Config.dgdOf : List (BitVec 16) → Nat

/-- What the decoder of an interoperable agreement makes of a code block (R198), by family, iop_mode and its symbols: bit 0 uncorrectable, bits 5 to 1 the
iterations less 1, then 20 bits each: bits compared and in error, X and Y. -/
opaque Config.iopBlock : (family mode : Nat) → List (Cplx × Cplx) → BitVec 128

/-! ### The enclave's primitives and fuses.  The algorithms of Table SEC-7 other than SHA-384, HMAC and HKDF are taken as functions whose values
the model does not compute; keys and identities are what one device was given at manufacture. -/

/-- Both signatures of a hybrid signature verify (R61, R325, R331, R332, R343): the context (0 manifest, 1 identity, 2 key agreement, 3 endorsement, 4
token), the two public keys, the message, the two signatures with their padding. -/
opaque Config.verify : (context : Nat) → (keys msg sig : List Byte) → Bool

/-- The 3,408 signature bytes that the identity keys make of a message in the key-agreement context (R330). -/
opaque Config.sign : (msg : List Byte) → BitVec 27264

/-- The P-384 public key of an ephemeral private value, and the shared secret with a peer's key (R330). -/
opaque Config.ecdhPub : (priv : List Byte) → BitVec 776
opaque Config.ecdh : (priv peer : List Byte) → BitVec 384

/-- ML-KEM-1024: the encapsulation key of a seed, the ciphertext and shared secret of an encapsulation, decapsulation (R330). -/
opaque Config.kemPub : (seed : List Byte) → BitVec 12544
opaque Config.kemCt : (ek rand : List Byte) → BitVec 12544
opaque Config.kemShared : (ek rand : List Byte) → BitVec 256
opaque Config.kemDecap : (seed ct : List Byte) → BitVec 256

/-- The identity public keys (97 and 1,952 bytes), the serial number, the issuer key ID and the certificate's signatures (Table SEC-2). -/
opaque Config.idKeys : BitVec 16392
opaque Config.serial : W64
opaque Config.issuer : BitVec 128
opaque Config.idSig : BitVec 27240

/-- The fingerprints held in the enclave's ROM: Enyako's manifest anchor (R61) and its provisioning root (R325); its version. -/
opaque Config.romAnchor : BitVec 384
opaque Config.romRoot : BitVec 384
opaque Config.romVer : Byte

/-- The logbook authentication key (Table SEC-1). -/
opaque Config.lbk : BitVec 256

end Sys2Proof
end

