-- ==== Sys2Proof/Syntax.lean ====
section
/-! DEFINITION. The commands the device takes: one constructor for each row of the table of operations and events, with
the operands the spec gives it.  What only the outside world or a physical measurement decides (a received frame's
content, a verdict of a check over data outside the device, an estimate) is an operand of its event. -/
namespace Sys2Proof

/-- A command: an operation of a program, an engine command, or an event. -/
inductive Instr where
  /-- ADD: rd, ra and rb of format R on core k -/
  | add (k : CoreId) (rd ra rb : BitVec 5)
  /-- SUB: as ADD -/
  | sub (k : CoreId) (rd ra rb : BitVec 5)
  /-- AND: as ADD -/
  | and (k : CoreId) (rd ra rb : BitVec 5)
  /-- OR: as ADD -/
  | or (k : CoreId) (rd ra rb : BitVec 5)
  /-- XOR: as ADD -/
  | xor (k : CoreId) (rd ra rb : BitVec 5)
  /-- SHL: as ADD -/
  | shl (k : CoreId) (rd ra rb : BitVec 5)
  /-- SHR: as ADD -/
  | shr (k : CoreId) (rd ra rb : BitVec 5)
  /-- SAR: as ADD -/
  | sar (k : CoreId) (rd ra rb : BitVec 5)
  /-- MUL: as ADD -/
  | mul (k : CoreId) (rd ra rb : BitVec 5)
  /-- MULH: as ADD -/
  | mulh (k : CoreId) (rd ra rb : BitVec 5)
  /-- CLZ: as ADD; rb is unused and must be 0 -/
  | clz (k : CoreId) (rd ra rb : BitVec 5)
  /-- MADDQ: as ADD -/
  | maddq (k : CoreId) (rd ra rb : BitVec 5)
  /-- ADDI: rd, ra and imm16 of format I -/
  | addi (k : CoreId) (rd ra : BitVec 5) (imm : BitVec 16)
  /-- LUI: as ADDI; ra is unused and must be 0 -/
  | lui (k : CoreId) (rd ra : BitVec 5) (imm : BitVec 16)
  /-- BEQ: ra, rb and off16 of format B -/
  | beq (k : CoreId) (ra rb : BitVec 5) (off : BitVec 16)
  /-- BNE: as BEQ -/
  | bne (k : CoreId) (ra rb : BitVec 5) (off : BitVec 16)
  /-- BLT: as BEQ -/
  | blt (k : CoreId) (ra rb : BitVec 5) (off : BitVec 16)
  /-- BGE: as BEQ -/
  | bge (k : CoreId) (ra rb : BitVec 5) (off : BitVec 16)
  /-- BLTU: as BEQ -/
  | bltu (k : CoreId) (ra rb : BitVec 5) (off : BitVec 16)
  /-- JAL: rd and off21 of format J -/
  | jal (k : CoreId) (rd : BitVec 5) (off : BitVec 21)
  /-- JR: as ADDI -/
  | jr (k : CoreId) (rd ra : BitVec 5) (imm : BitVec 16)
  /-- LD_B: as ADDI -/
  | ldB (k : CoreId) (rd ra : BitVec 5) (imm : BitVec 16)
  /-- LD_H: as ADDI -/
  | ldH (k : CoreId) (rd ra : BitVec 5) (imm : BitVec 16)
  /-- LD_W: as ADDI -/
  | ldW (k : CoreId) (rd ra : BitVec 5) (imm : BitVec 16)
  /-- LD_D: as ADDI -/
  | ldD (k : CoreId) (rd ra : BitVec 5) (imm : BitVec 16)
  /-- ST_B: rs, ra and imm16 of format S -/
  | stB (k : CoreId) (rs ra : BitVec 5) (imm : BitVec 16)
  /-- ST_H: as ST_B -/
  | stH (k : CoreId) (rs ra : BitVec 5) (imm : BitVec 16)
  /-- ST_W: as ST_B -/
  | stW (k : CoreId) (rs ra : BitVec 5) (imm : BitVec 16)
  /-- ST_D: as ST_B -/
  | stD (k : CoreId) (rs ra : BitVec 5) (imm : BitVec 16)
  /-- LDX: as ADDI -/
  | ldx (k : CoreId) (rd ra : BitVec 5) (imm : BitVec 16)
  /-- STX: as ST_B -/
  | stx (k : CoreId) (rs ra : BitVec 5) (imm : BitVec 16)
  /-- SEND: as ADD -/
  | send (k : CoreId) (rd ra rb : BitVec 5)
  /-- WAITT: as ADDI -/
  | waitt (k : CoreId) (rd ra : BitVec 5) (imm : BitVec 16)
  /-- POLLT: as ADD; rb is unused and must be 0 -/
  | pollt (k : CoreId) (rd ra rb : BitVec 5)
  /-- FENCE_R: the register fields must be 0 -/
  | fenceR (k : CoreId) (rd ra rb : BitVec 5)
  /-- FENCE_Q: the register fields must be 0 -/
  | fenceQ (k : CoreId) (rd ra rb : BitVec 5)
  /-- FENCE_A: the register fields must be 0 -/
  | fenceA (k : CoreId) (rd ra rb : BitVec 5)
  /-- COMMIT: the register fields must be 0 -/
  | commit (k : CoreId) (rd ra rb : BitVec 5)
  /-- CLAIM: as ADDI; imm16[14:4] must be 0 -/
  | claim (k : CoreId) (rd ra : BitVec 5) (imm : BitVec 16)
  /-- RELEASE: as ADDI; rd must be 0 and imm16 0 or 0x8000 -/
  | release (k : CoreId) (rd ra : BitVec 5) (imm : BitVec 16)
  /-- MFS: as ADDI; ra and imm16[15:12] must be 0 -/
  | mfs (k : CoreId) (rd ra : BitVec 5) (imm : BitVec 16)
  /-- MTS: as ST_B; ra and imm16[15:12] must be 0 -/
  | mts (k : CoreId) (rs ra : BitVec 5) (imm : BitVec 16)
  /-- TRAP: as ADDI; rd and ra must be 0 -/
  | trap (k : CoreId) (rd ra : BitVec 5) (imm : BitVec 16)
  /-- ERET: the register fields must be 0 -/
  | eret (k : CoreId) (rd ra rb : BitVec 5)
  /-- WFE: rd of format R; ra and rb must be 0 -/
  | wfe (k : CoreId) (rd ra rb : BitVec 5)
  /-- WFE_WAKE: core k's WFE is judged -/
  | wfeWake (k : CoreId)
  /-- WAITT_TIMEOUT: core k's WAITT is judged at a commit point -/
  | waittTimeout (k : CoreId)
  /-- WAITT_TICKET_DONE: core k's WAITT is judged against its ticket -/
  | waittTicketDone (k : CoreId)
  /-- OBSERVATION_INTERRUPT: core k is at an instruction boundary -/
  | observationInterrupt (k : CoreId)
  /-- TIDE_BOUNDARY: the boundary of the grid is reached -/
  | tideBoundary
  /-- COMMIT_POINT: the commit point of the tide is reached -/
  | commitPoint
  /-- QUEUE_DEPTH_APPLY: a COMMIT boundary judges the pending depth set -/
  | queueDepthApply
  /-- SNAPSHOT_WRITE_COMPLETE: the gatherer's write ends -/
  | snapshotWriteComplete
  /-- PILOT_MISSED_HB_DECLARE: the pilot judges the count of missed heartbeats -/
  | pilotMissedHbDeclare
  /-- CORE_FAULT_SIGNAL: core k signals a fault: a double fault, or an uncorrectable ECC error in its local memory -/
  | coreFaultSignal (k : CoreId) (doubleFault : Bool)
  /-- WATCHDOG_EXPIRY: the watchdog of core k fires -/
  | watchdogExpiry (k : CoreId)
  /-- HAWSER_FRAME_RECEIVED: a frame reached the standby; whether its CRC-32C check passed -/
  | hawserFrameReceived (checkOk : Bool)
  /-- HAWSER_COPY_COMPLETE: every frame of the copy has reached the standby -/
  | hawserCopyComplete
  /-- CORE_RESTART_HOLD_END: the 1 ms in reset of core k ends -/
  | coreRestartHoldEnd (k : CoreId)
  /-- CORE_SELFTEST_DONE: the restart self-test of core k ends: none on a pass, the test that failed otherwise -/
  | coreSelftestDone (k : CoreId) (failTest : Option Byte)
  /-- CORE_RELOAD_DONE: the enclave finishes reloading core k -/
  | coreReloadDone (k : CoreId)
  /-- WAIT_TO_RESTORE_EXPIRY: core A has been in sync for PLT_CFG.wtr seconds -/
  | waitToRestoreExpiry
  /-- REVERT_START: the copy of boundary k is whole at core A -/
  | revertStart
  /-- COLD_RESUME_RELEASE: the boundary at which a resyncing core is released -/
  | coldResumeRelease
  /-- PILOT_FAULT: the pilot's two computations differ -/
  | pilotFault
  /-- FORCE_BALL_QUALIFIED: which of FORCE_A_N and FORCE_B_N have a qualified falling edge, and which are qualified low now -/
  | forceBallQualified (edgeA edgeB lowA lowB : Bool)
  /-- FORCED_TAKEOVER: the boundary at which a qualified force acts -/
  | forcedTakeover
  /-- PORESET_N_ASSERT: PORESET_N goes low -/
  | poresetNAssert
  /-- PORESET_N_RELEASE: PORESET_N goes high; the level of TEST_EN then -/
  | poresetNRelease (testEn : Bool)
  /-- RESET_N_ASSERT: RESET_N has been low for 100 ns -/
  | resetNAssert
  /-- RESET_N_RELEASE: RESET_N goes high -/
  | resetNRelease
  /-- HIF_SWRESET: a program writes 1 to HIF_SWRESET -/
  | hifSwreset
  /-- PERST_N: the PCIe fundamental reset; whether the link comes up, lanes - 1, speed - 1; MSI-X enable and function mask as then configured -/
  | perstN (up : Bool) (lanes : Fin 2) (speed : Fin 4) (msix fnMask : Bool)
  /-- ROOT_PLL_LOSS: REF declares loss of root lock -/
  | rootPllLoss
  /-- ROOT_RELOCK_RETRY: AON retries lock, and whether it succeeds -/
  | rootRelockRetry (locked : Bool)
  /-- ROOT_PLL_LOCKED: the root PLL locks after PORESET_N -/
  | rootPllLocked
  /-- ENCLAVE_BOOT: the enclave's boot ends: the code of Table SEC-14 of the step that failed or 0, and the cipher units that failed their test -/
  | enclaveBoot (code : Byte) (units : List (Fin 26))
  /-- HARBOUR_MANIFEST_LOAD: the enclave has fetched the harbour manifest -/
  | harbourManifestLoad
  /-- CRYSTAL_LOSS: no crystal edge for 1 µs -/
  | crystalLoss
  /-- TX_SET_STATE: TXP_x starts the TX_SET_STATE at the head of its queue -/
  | txSetState (c : Carrier)
  /-- TX_DAC_SETTLED: the DACs of carrier c have settled -/
  | txDacSettled (c : Carrier)
  /-- TX_MUTE: TXP_x starts the TX_MUTE at the head of its queue -/
  | txMute (c : Carrier)
  /-- TX_LOAD_FIR: TXP_x executes the TX_LOAD_FIR at the head of its queue -/
  | txLoadFir (c : Carrier)
  /-- TX_LOAD_NLC: TXP_x executes the TX_LOAD_NLC at the head of its queue -/
  | txLoadNlc (c : Carrier)
  /-- TX_CAPTURE: TXP_x starts the TX_CAPTURE at the head of its queue -/
  | txCapture (c : Carrier)
  /-- TX_SUPERFRAME_BOUNDARY: a transmit superframe of carrier c begins; samples limited and perturbations limited in the one before -/
  | txSuperframeBoundary (c : Carrier) (clips : Nat) (nlcSat : Bool)
  /-- TX_UNDERRUN: FEC_x has not delivered a block in time -/
  | txUnderrun (c : Carrier)
  /-- TXP_ENGINE_FAULT: an engine fault of TXP_x -/
  | txpEngineFault (c : Carrier)
  /-- RX_SET_STATE: RXF_x starts the RX_SET_STATE at the head of its queue -/
  | rxSetState (c : Carrier)
  /-- RX_ADC_SETTLED: the ADC bias of carrier c has settled -/
  | rxAdcSettled (c : Carrier)
  /-- RX_REACQUIRE: RXF_x executes the RX_REACQUIRE at the head of its queue -/
  | rxReacquire (c : Carrier)
  /-- RX_CAPTURE: RXF_x starts the RX_CAPTURE at the head of its queue -/
  | rxCapture (c : Carrier)
  /-- RX_LOS_WINDOW_END: a 1.024 µs window ends with these lane RMS values, Q8.8 codes, samples at the ends of the ADC range, and blind IQ measurement -/
  | rxLosWindowEnd (c : Carrier) (r0 r1 r2 r3 : BitVec 16) (clips : Nat) (iq : RxIq)
  /-- HAIL_CD_DWELL_EXPIRY: the dwell of the present hypothesis ends -/
  | hailCdDwellExpiry (c : Carrier)
  /-- CD_SCAN_COMPLETE: a fine scan ends: the numbers of the best steps of pass 1 and of pass 2 -/
  | cdScanComplete (c : Carrier) (k1 k2 : Nat)
  /-- TR_LOCK_DECLARED: the timing estimate has been steady for 10 µs: the offset, signed, 1 ppb units -/
  | trLockDeclared (c : Carrier) (offset : BitVec 20)
  /-- TR_LOCK_LOST: the timing phase error has exceeded a quarter symbol for 1 µs -/
  | trLockLost (c : Carrier)
  /-- TR_RANGE_TIMEOUT: 1 ms of timing recovery has passed with an offset beyond the pull-in range -/
  | trRangeTimeout (c : Carrier)
  /-- SF_PEAK_DETECTED: a candidate with metric Λ in 1/256, its start that many symbols after the previous peak's -/
  | sfPeakDetected (c : Carrier) (metric : Nat) (spacing : Nat)
  /-- SF_LOCK_LOST: four consecutive expected positions passed without a peak -/
  | sfLockLost (c : Carrier)
  /-- REACQ_TIMEOUT: 20 ms passed without sf_lock -/
  | reacqTimeout (c : Carrier)
  /-- RXF_ENGINE_FAULT: an engine fault of RXF_x -/
  | rxfEngineFault (c : Carrier)
  /-- RX_SUPERFRAME_BOUNDARY: a receive superframe boundary is marked; what was measured over the superframe that ended -/
  | rxSuperframeBoundary (c : Carrier) (m : RxMeas)
  /-- SNR_BELOW_THRESHOLD: CRR_x judges the run of superframes below the threshold -/
  | snrBelowThreshold (c : Carrier)
  /-- EQ_TAP_UPDATE: 64 symbols have passed: the summed gradient of each tap in Q1.14, and the four gradients of θ, φ and ψ in 2^-30 rad -/
  | eqTapUpdate (c : Carrier) (grad : List Int) (sop : List (Int × Int × Int))
  /-- EQ_HOLD: EQZ_x executes the EQ_HOLD at the head of its queue -/
  | eqHold (c : Carrier)
  /-- EQ_RECONVERGE: EQZ_x starts the EQ_RECONVERGE at the head of its queue -/
  | eqReconverge (c : Carrier)
  /-- EQ_READ_TAPS: EQZ_x executes the EQ_READ_TAPS at the head of its queue -/
  | eqReadTaps (c : Carrier)
  /-- EQ_SLICE_RETEST: EQZ_x starts the EQ_SLICE_RETEST at the head of its queue -/
  | eqSliceRetest (c : Carrier)
  /-- EQZ_SHADOW_COPY_COMPLETE: the idle slices hold the whole of the copy in transfer -/
  | eqzShadowCopyComplete (c : Carrier)
  /-- SLICE_FAILURE_DECLARED: slice declared failed: 0 residue, 1 ECC, 2 excess error, by the mean squared pilot errors of the slices over one whole superframe -/
  | sliceFailureDeclared (c : Carrier) (slice : Fin 9) (cause : Fin 3) (errs : List Nat)
  /-- SLICE_SWAP: the superframe boundary after a declaration -/
  | sliceSwap (c : Carrier)
  /-- EQZ_CRR_ENGINE_FAULT: a mismatch in the common logic of EQZ_x, or in CRR_x -/
  | eqzCrrEngineFault (c : Carrier) (crr : Bool)
  /-- CR_REACQUIRE: CRR_x starts the CR_REACQUIRE at the head of its queue -/
  | crReacquire (c : Carrier)
  /-- CR_FREQ_SEED: CRR_x executes the CR_FREQ_SEED at the head of its queue -/
  | crFreqSeed (c : Carrier)
  /-- CR_CAPTURE: CRR_x starts the CR_CAPTURE at the head of its queue -/
  | crCapture (c : Carrier)
  /-- FEC_BLOCK_LOCK_SEARCH: four groups have passed: the hard decisions of each candidate, in lock those of the locked one -/
  | fecBlockLockSearch (c : Carrier) (hard : List FecHard)
  /-- FEC_BLOCK_RELEASE: the next block has arrived: its recovered data symbols, X and Y, where the pilot amplitude a is 4,096 -/
  | fecBlockRelease (c : Carrier) (syms : List (Cplx × Cplx))
  /-- FEC_SEED_FAIL: a chain has not been seeded within 64 of its blocks -/
  | fecSeedFail (c : Carrier) (chain : Fin 8)
  /-- FEC_ENGINE_FAILED: decoder engine declared failed: 0 residue, 1 ECC, 2 excess -/
  | fecEngineFailed (c : Carrier) (engine : Fin 9) (cause : Fin 3)
  /-- FEC_ENGINE_SWAP: the superframe boundary after a declaration -/
  | fecEngineSwap (c : Carrier)
  /-- FEC_ENCODER_FAULT: the encoder's two results differ for a block -/
  | fecEncoderFault (c : Carrier) (block : BitVec 32)
  /-- FEC_RELOCK: FEC_x executes the FEC_RELOCK at the head of its queue -/
  | fecRelock (c : Carrier)
  /-- FEC_RETEST: FEC_x starts the FEC_RETEST at the head of its queue -/
  | fecRetest (c : Carrier)
  /-- FEC_CAPTURE: FEC_x starts the FEC_CAPTURE at the head of its queue -/
  | fecCapture (c : Carrier)
  /-- HL_SEND: HAIL_x starts the HL_SEND at the head of its queue -/
  | hlSend (c : Carrier)
  /-- HL_RECV: HAIL_x executes the HL_RECV at the head of its queue -/
  | hlRecv (c : Carrier)
  /-- HAIL_BURST_START: the transmit scheduler of HAIL_x chooses a burst -/
  | hailBurstStart (c : Carrier)
  /-- HAIL_BURST_SENT: the last symbol of the burst is sent -/
  | hailBurstSent (c : Carrier)
  /-- HAIL_DETECTION: a correlation peak in the continuous condition: Λ in 1/256, the offset estimate, signed, 1 MHz units, the AGC gain, 0.25 dB units -/
  | hailDetection (c : Carrier) (metric : Nat) (offset : BitVec 14) (gain : Byte)
  /-- HAIL_WINDOW_DETECT: a hail window ends: its energy in 1/256 of nominal, the preamble's Λ from its start in 1/256, the AGC gain -/
  | hailWindowDetect (c : Carrier) (energy metric : Nat) (gain : Byte)
  /-- HAIL_HEADER_DECODED: the 64 header bits as decoded -/
  | hailHeaderDecoded (c : Carrier) (header : W64)
  /-- HAIL_BURST_RECEIVED: the payload as decoded and the CRC-32 that came with it -/
  | hailBurstReceived (c : Carrier) (payload : List Byte) (crc : W32)
  /-- HAIL_RECEPTION_LOST: the energy of the reception has been low for the time of R220 -/
  | hailReceptionLost (c : Carrier)
  /-- HAIL_LOSS: loss_ms have passed since the last header pass -/
  | hailLoss (c : Carrier)
  /-- HAIL_ENGINE_FAULT: an engine fault of HAIL_x -/
  | hailEngineFault (c : Carrier)
  /-- FR_ELW_START: FRM_x starts the FR_ELW_START at the head of its queue -/
  | frElwStart (c : Carrier)
  /-- FR_ELW_ANSWER: FRM_x starts the FR_ELW_ANSWER at the head of its queue -/
  | frElwAnswer (c : Carrier)
  /-- FR_CAPTURE_OH: FRM_x starts the FR_CAPTURE_OH at the head of its queue -/
  | frCaptureOh (c : Carrier)
  /-- ELW_PROPOSE_RECEIVED: the responder looks at PROPOSE, as last received in the overhead or as a hail burst -/
  | elwProposeReceived (c : Carrier) (hail : Bool)
  /-- ELW_ANSWER_RECEIVED: the initiator looks at the answer, from the overhead or a hail burst -/
  | elwAnswerReceived (c : Carrier) (hail : Bool)
  /-- ELW_COMMIT_DEADLINE: the first frame of multiframe T − 1 at the initiator -/
  | elwCommitDeadline (c : Carrier)
  /-- ELW_COMMIT_RECEIVED: the responder looks at COMMIT, from the overhead or a hail burst -/
  | elwCommitReceived (c : Carrier) (hail : Bool)
  /-- ELW_SWITCH: frame 0 of multiframe T at the initiator -/
  | elwSwitch (c : Carrier)
  /-- ELW_ENTROPY_SWITCH_BLOCK: the first FEC block after frame 0 of T at the initiator -/
  | elwEntropySwitchBlock (c : Carrier)
  /-- ELW_RESPONDER_SWITCH: multiframe T at the responder -/
  | elwResponderSwitch (c : Carrier)
  /-- FRM_TX_FRAME: FRM_x forms a transmit frame -/
  | frmTxFrame (c : Carrier)
  /-- FRM_FAS_SEARCH_MATCH: out of frame, the bit position modulo the frame and whether the FAS stands there -/
  | frmFasSearchMatch (c : Carrier) (pos : Nat) (isMatch : Bool)
  /-- FRM_RX_FRAME: a receive frame period: the overhead and the payload bytes of the frame, descrambled, payload bytes not given being 0; the payload words of which FEC_x flagged a byte -/
  | frmRxFrame (c : Carrier) (oh payload : List Byte) (marked : List (Fin 16256))
  /-- FRM_LOF_TIMER: 3 ms of OOF or IF, or with lom of OOM or IM -/
  | frmLofTimer (c : Carrier) (lom : Bool)
  /-- FRM_ENGINE_FAULT: an engine fault of FRM_x -/
  | frmEngineFault (c : Carrier)
  /-- OSP_WINDOW: a port's window of 65 clocks: the valid flag and the 8 bytes sampled on OSP_RXD -/
  | ospWindow (port : Fin 8) (valid : Bool) (data : List Byte)
  /-- CL_SET_MAP: CLM executes the CL_SET_MAP at the head of Q16 -/
  | clSetMap
  /-- CL_READ_MAP: CLM executes the CL_READ_MAP at the head of Q16 -/
  | clReadMap
  /-- CL_SET_FLEXE_CAL: CLM executes the CL_SET_FLEXE_CAL at the head of Q16 -/
  | clSetFlexeCal
  /-- FLEXE_CALENDAR_SWITCH: the calendar handshake of group g ends -/
  | flexeCalendarSwitch (g : Fin 8)
  /-- CLM_INGRESS_UNIT: a 64b/66b block of a client at its ingress: control or data, its 64 bits with the block type in the low byte -/
  | clmIngressUnit (client : Fin 128) (ctl : Bool) (body : W64)
  /-- CLM_EGRESS_UNIT: the egress of a client takes the next 257-bit block of its received berth, or finds none when the host output needs a unit -/
  | clmEgressUnit (client : Fin 128)
  /-- BRT_INGRESS_FRAME: a whole frame of a packet-berth client, destination address to FCS -/
  | brtIngressFrame (client : Fin 128) (frame : List Byte)
  /-- BRT_SHAPER_RELEASE: the head frame of context p is due -/
  | brtShaperRelease (p : Fin 64)
  /-- BRT_EGRESS_HEADER: the egress of context p looks at the unit that stands where it expects or seeks a header -/
  | brtEgressHeader (p : Fin 64)
  /-- BRT_GUARD_BAND_START: the guard band before a resize of context p begins -/
  | brtGuardBandStart (p : Fin 64)
  /-- BRT_GATE_CLOSE: the first payload word of frame 0 of T for context p -/
  | brtGateClose (p : Fin 64)
  /-- BR_RESET_TOKENS: BRT executes the BR_RESET_TOKENS at the head of Q17 -/
  | brResetTokens
  /-- BR_FLUSH: BRT executes the BR_FLUSH at the head of Q17 -/
  | brFlush
  /-- CLM_BRT_ENGINE_FAULT: an engine fault of CLM, or of BRT -/
  | clmBrtEngineFault (brt : Bool)
  /-- HL_SET_POWER: the command at the head of Q18 -/
  | hlSetPower
  /-- HL_READAPT: the command at the head of Q18 -/
  | hlReadapt
  /-- QL_SET_POWER: the command at the head of Q19 -/
  | qlSetPower
  /-- QL_READAPT: the command at the head of Q19 -/
  | qlReadapt
  /-- QL_SET_MAP: the command at the head of Q19 -/
  | qlSetMap
  /-- QL_READ_MAP: the command at the head of Q19 -/
  | qlReadMap
  /-- LANE_RX_READY: a host or Quay lane has adapted, with its eye SNR -/
  | laneRxReady (quay : Bool) (lane : Fin 24) (snr : BitVec 10)
  /-- LANE_L1_EXIT_TIMEOUT: a lane is not ready 2 µs after leaving L1 -/
  | laneL1ExitTimeout (quay : Bool) (lane : Fin 24)
  /-- LANE_LOS_DECLARED: input below 60 mVppd for 1 µs -/
  | laneLosDeclared (quay : Bool) (lane : Fin 24)
  /-- LANE_LOS_CLEARED: input at or above 90 mVppd for 10 µs -/
  | laneLosCleared (quay : Bool) (lane : Fin 24)
  /-- QUAY_BLOCK_RECEIVED: a block's time on a Quay lane: the level indices of its 2,048 symbols as received -/
  | quayBlockReceived (lane : Fin 8) (syms : List (Fin 4))
  /-- QUAY_ROW: eight blocks are at hand -/
  | quayRow
  /-- QUAY_MAP_APPLY: container 0 of a superrow is sent or received -/
  | quayMapApply (rx : Bool) (superrow : BitVec 22)
  /-- LANE_FAULT: a lane's logic fails -/
  | laneFault (quay : Bool) (lane : Fin 24)
  /-- CPH_TX_RECORD: the transmit record of a client in the last frame that carrier c formed; the most transmit blocks issued and not released meanwhile -/
  | cphTxRecord (c : Carrier) (client : Fin 128) (peak : Fin 8193)
  /-- CPH_RX_RECORD: the record of a client in the frame received before the last one, whose tags the last one brought; the most receive blocks issued and not released meanwhile -/
  | cphRxRecord (c : Carrier) (client : Fin 128) (peak : Fin 8193)
  /-- CPH_UNIT_MISMATCH: a compare mismatch on a side of a unit; the clients whose transmit records had operations in flight on it -/
  | cphUnitMismatch (unit : Fin 26) (rxSide : Bool) (inFlight : List (Fin 128))
  /-- CPH_ENGINE_FAULT: the scheduler's or the context store's two computations differ -/
  | cphEngineFault
  /-- CP_UNIT_RETEST: CPH starts the CP_UNIT_RETEST at the head of Q20 -/
  | cpUnitRetest
  /-- CP_READ_CONTEXT: CPH executes the CP_READ_CONTEXT at the head of Q20 -/
  | cpReadContext
  /-- GET_STATUS: the enclave executes the request in a channel -/
  | getStatus (ch : Fin 2)
  /-- GET_IDENTITY: the enclave executes the request in a channel -/
  | getIdentity (ch : Fin 2)
  /-- GET_CHALLENGE: the enclave executes the request in a channel -/
  | getChallenge (ch : Fin 2)
  /-- ZEROIZE: the enclave executes the request in a channel -/
  | zeroize (ch : Fin 2)
  /-- SELF_TEST: the enclave executes the request in a channel; the code of Table SEC-14 of the first test that fails, or 0 -/
  | selfTest (ch : Fin 2) (code : Byte)
  /-- LOAD_ENDORSEMENT: the enclave executes the request in a channel -/
  | loadEndorsement (ch : Fin 2)
  /-- SET_POLICY: the enclave executes the request in a channel -/
  | setPolicy (ch : Fin 2)
  /-- START_AGREEMENT: the enclave executes the request in a channel -/
  | startAgreement (ch : Fin 2)
  /-- REKEY_NOW: the enclave executes the request in a channel -/
  | rekeyNow (ch : Fin 2)
  /-- END_SESSION: the enclave executes the request in a channel -/
  | endSession (ch : Fin 2)
  /-- LOAD_BERTH_MANIFEST: the enclave executes the request in a channel -/
  | loadBerthManifest (ch : Fin 2)
  /-- PROGRAM_ANCHOR: the enclave executes the request in a channel; whether the fuse write reads back right -/
  | programAnchor (ch : Fin 2) (writeOk : Bool)
  /-- REVOKE_ANCHOR: the enclave executes the request in a channel; whether the fuse write reads back right -/
  | revokeAnchor (ch : Fin 2) (writeOk : Bool)
  /-- DEBUG_UNLOCK: the enclave executes the request in a channel -/
  | debugUnlock (ch : Fin 2)
  /-- SET_TIMERS: the enclave executes the request in a channel -/
  | setTimers (ch : Fin 2)
  /-- CHALLENGE_EXPIRY: 60 s have passed since a channel's challenge was issued -/
  | challengeExpiry (ch : Fin 2)
  /-- ZEROIZE_N_QUALIFIED: ZEROIZE_N has been low for 25 hk cycles -/
  | zeroizeNQualified
  /-- ZEROISE_COMPLETE: the erase is done and ZEROIZE_N is high; whether the identity passes its checks -/
  | zeroiseComplete (identityOk : Bool)
  /-- SEC_ERROR_ENTRY: a self-test, a compare of the enclave or the integrity of a cipher program fails, with its code of Table SEC-14 -/
  | secErrorEntry (code : Byte)
  /-- KA_HELLO: a whole KA_HELLO has arrived; whether the ephemeral key pair generated to answer it passes its test -/
  | kaHello (c : Carrier) (pctOk : Bool)
  /-- KA_RESP: a whole KA_RESP has arrived -/
  | kaResp (c : Carrier)
  /-- KA_FINISH: a whole KA_FINISH has arrived -/
  | kaFinish (c : Carrier)
  /-- KA_CONFIRM: a whole KA_CONFIRM has arrived -/
  | kaConfirm (c : Carrier)
  /-- KA_ABORT: a whole KA_ABORT has arrived -/
  | kaAbort (c : Carrier)
  /-- KA_TIMEOUT: ka_timeout has passed without the peer's message -/
  | kaTimeout (c : Carrier)
  /-- KA_COLLISION_RETRY: the delay after a collision ends -/
  | kaCollisionRetry (c : Carrier)
  /-- KA_RETRY_TIMER: 60 s after an exchange in service aborted -/
  | kaRetryTimer (c : Carrier)
  /-- FULL_PERIOD_EXPIRY: the session's age reaches full_period -/
  | fullPeriodExpiry (c : Carrier)
  /-- EPOCH_ACTIVATION: an activation is called for -/
  | epochActivation (c : Carrier)
  /-- REKEY_AGE_EXPIRY: the active transmit epoch's age reaches rekey_age -/
  | rekeyAgeExpiry (c : Carrier)
  /-- KEY_ACTIVATE: a KEY_ACTIVATE has arrived -/
  | keyActivate (c : Carrier)
  /-- KEY_ACK: a KEY_ACK has arrived -/
  | keyAck (c : Carrier)
  /-- KEY_ACK_TIMEOUT: 2 × act_lead have passed without a KEY_ACK -/
  | keyAckTimeout (c : Carrier)
  /-- REF_SOURCE_DISQUALIFY: a condition of R371 holds for a source: 1 no edge, 2 mean offset beyond the limit, 3 source condition false -/
  | refSourceDisqualify (src : Fin 32) (reason : Nat)
  /-- REF_SOURCE_WTR_EXPIRY: a source has been clear of every condition for wtr seconds -/
  | refSourceWtrExpiry (src : Fin 32)
  /-- REF_MONITOR_WINDOW_END: a 1 s window ends: the sources whose windows end with it, the root offset, the DPLL's word and what closing
  a phase step adds to it, signed ppt -/
  | refMonitorWindowEnd (meas : List RefMeas) (rootOffset dpllWord closing : W32)
  /-- REF_SOURCE_SWITCH: the choice of R374 changes: the phase of a new source, signed ps -/
  | refSourceSwitch (step : BitVec 48)
  /-- REF_LOCK_DECLARED: enough windows in a row are in tolerance -/
  | refLockDeclared
  /-- REF_HOLDOVER_OOS: the predicted error exceeds hold_limit -/
  | refHoldoverOos
  /-- PPS_INPUT_EDGE: a rising edge on PPS_INn, after the last crystal edge by that many units of 0.1 ns -/
  | ppsInputEdge (n : Fin 3) (after : Byte)
  /-- REF_ALIGN_PULSE: a pulse of the aligning input -/
  | refAlignPulse
  /-- REF_PULSE_OUTPUT: output k reaches a generator second plus its offset, or its superframe boundary -/
  | refPulseOutput (k : Fin 4)
  /-- RF_REALIGN: the command at the head of Q24 -/
  | rfRealign
  /-- RF_MEASURE: the command at the head of Q24 -/
  | rfMeasure
  /-- REF_LOGIC_FAULT: REF's two computations differ -/
  | refLogicFault
  /-- PWR_IDLE_TIMER_EXPIRY: the idle timer of domain 3 + dom reaches idle_us: the lowest block of the domain that a register access reached in the last 256 hk cycles, and whether the enclave has work in progress for it -/
  | pwrIdleTimerExpiry (dom : Fin 7) (recent : Option Byte) (enclave : Bool)
  /-- PWR_ENTRY_COMPLETE: the entry of domain 3 + dom has lasted its hk cycles -/
  | pwrEntryComplete (dom : Fin 7)
  /-- PWR_WAKE_EVENT: a wake source acts -/
  | pwrWakeEvent (src : WakeSource)
  /-- PWR_WAKE_COMPLETE: domain 3 + dom is back in Run, hk cycles after its wake began -/
  | pwrWakeComplete (dom : Fin 7) (hk : BitVec 32)
  /-- PW_WAKE: the command at the head of Q25 -/
  | pwWake
  /-- PW_PARK: the command at the head of Q25, with what PWR_IDLE_TIMER_EXPIRY gives -/
  | pwPark (recent : Option Byte) (enclave : Bool)
  /-- AVS_POLL: PWR reads the regulator: whether it answered with a good CRC, and what it read -/
  | avsPoll (ok : Bool) (volt : BitVec 10) (curr status : BitVec 16)
  /-- AVS_RETRY: 10 µs later PWR tries again -/
  | avsRetry (ok : Bool) (volt : BitVec 10) (curr status : BitVec 16)
  /-- PWR_LOGIC_FAULT: PWR's two computations differ -/
  | pwrLogicFault
  /-- MON_TEMP_READOUT: the eight sensors are read, in 0.0625 °C, signed -/
  | monTempReadout (temps : Vector (BitVec 16) 8)
  /-- MON_REGULAR_TRIGGER: a trigger of modulator k's regular pass arrives -/
  | monRegularTrigger (k : Fin 4)
  /-- MON_TRIGGER_DELAY_EXPIRY: the delay of a regular or an injected trigger ends -/
  | monTriggerDelayExpiry (k : Fin 4) (injected : Bool)
  /-- MON_INJECTED_TRIGGER: an injected trigger arrives: an urgent event, which has no delay, or another -/
  | monInjectedTrigger (k : Fin 4) (urgent : Bool)
  /-- MON_ENTRY_END: the entry in progress ends: its decimated results, whether one was limited, whether an injected pass starts on the same edge -/
  | monEntryEnd (k : Fin 4) (results : List (BitVec 24)) (limited inject : Bool)
  /-- SW_REG: a write of 1 to sw_reg -/
  | swReg (k : Fin 4)
  /-- SW_INJ: a write of 1 to sw_inj -/
  | swInj (k : Fin 4)
  /-- MON_SYNC_EDGE: a qualified rising edge on MON_SYNC -/
  | monSyncEdge
  /-- MN_SYNC: the command at the head of Q26 -/
  | mnSync
  /-- MN_LOAD_FIR: the command at the head of Q26 -/
  | mnLoadFir
  /-- MN_CAPTURE: the command at the head of Q26 -/
  | mnCapture
  /-- TMR_COMPARE: the count of timer n equals cmp -/
  | tmrCompare (n : Fin 8)
  /-- TMR_PERIOD: the count of timer n wraps to 0 -/
  | tmrPeriod (n : Fin 8)
  /-- MON_ENGINE_FAULT: MON's two computations differ -/
  | monEngineFault
  /-- ANL_RUN_START: a measurement unit (A ADC, A DAC, B ADC, B DAC) begins its next run -/
  | anlRunStart (u : Fin 4)
  /-- ANL_WINDOW_END: the window of a unit's run is over -/
  | anlWindowEnd (u : Fin 4)
  /-- ANL_RUN_END: the choice phase of a unit's run is over: what it measured of the 72 elements -/
  | anlRunEnd (u : Fin 4) (meas : List AnlMeas)
  /-- ANL_PAUSE_TIMEOUT: the window of a unit's run has paused for more than 10 s -/
  | anlPauseTimeout (u : Fin 4)
  /-- ANL_ELEMENT_FAILED: a comparison finds an element in use outside the limits -/
  | anlElementFailed (v : Fin 16) (elem : Fin 72) (cause : Byte)
  /-- AN_RUN: the command at the head of Q27 -/
  | anRun
  /-- AN_HOLD: the command at the head of Q27 -/
  | anHold
  /-- AN_CLEAR_FAIL: the command at the head of Q27 -/
  | anClearFail
  /-- AN_READ_TABLE: the command at the head of Q27 -/
  | anReadTable
  /-- ANL_ENGINE_FAULT: ANL's two computations differ -/
  | anlEngineFault
  /-- MM_SCRUB: the command at the head of Q28 -/
  | mmScrub
  /-- MM_READ_REPAIR: the command at the head of Q28 -/
  | mmReadRepair
  /-- SC_SCAN: the command at the head of Q29 -/
  | scScan
  /-- MEM_SCU_ENGINE_FAULT: MEM or SCU finds a mismatch -/
  | memScuEngineFault (scu : Bool)
  /-- OB_READ_CAT: the command at the head of Q30 -/
  | obReadCat
  /-- OB_READ_SAMPLES: the command at the head of Q30 -/
  | obReadSamples
  /-- OBS_SNAP_HOLD: a write of 1 to OBS_SNAP_CTRL.hold -/
  | obsSnapHold
  /-- OBS_SNAP_RELEASE: a write of 1 to OBS_SNAP_CTRL.release -/
  | obsSnapRelease
  /-- SAMPLER_TAG: a tagged instruction of the active core retires: its address, TICK at issue, encoding, ticks from issue to retire, issue slot -/
  | samplerTag (addr tick : W64) (encoding : W32) (ticks : BitVec 16) (slot : Bool)
  /-- LOG_HOURLY_SUMMARY: an hour of DEVTIME has passed -/
  | logHourlySummary
  /-- LOG_EVENT_ENTRY_TIMER: one second after the first event of a partial event entry -/
  | logEventEntryTimer
  /-- LOG_ENTRY_WRITE: LOG writes the next staged entry, and its read-back compares or does not -/
  | logEntryWrite (readBackOk : Bool)
  /-- LOG_RECOVERY: LOG has read its region -/
  | logRecovery
  /-- LG_FLUSH: the command at the head of Q31 -/
  | lgFlush
  /-- LG_READ: the command at the head of Q31 -/
  | lgRead
  /-- LG_NOTE: the command at the head of Q31 -/
  | lgNote
  /-- OBS_LOG_ENGINE_FAULT: OBS or LOG finds a mismatch -/
  | obsLogEngineFault (log : Bool)
  /-- MBX_POST: a host write of the post word of a request slot, by PCIe or I2C -/
  | mbxPost (i2c : Bool) (slot : Fin 64) (word : W32)
  /-- MBX_TAKE: a program write of HIF_MBX_TAKE -/
  | mbxTake (slot : Fin 64)
  /-- MBX_DONE: a program write of HIF_MBX_DONE -/
  | mbxDone (slot : Fin 64) (result : Byte)
  /-- MBX_DEADLINE_EXPIRY: the response deadline of a busy slot passes -/
  | mbxDeadlineExpiry (slot : Fin 64)
  /-- PING: the harbour firmware serves the request in a mailbox slot -/
  | ping (slot : Fin 64)
  /-- CFG_WRITE: as PING; allowed: the harbour policy's windows hold the address -/
  | cfgWrite (slot : Fin 64) (allowed : Bool)
  /-- ENGINE_CMD: as PING -/
  | engineCmd (slot : Fin 64)
  /-- CMD_STATUS: as PING -/
  | cmdStatus (slot : Fin 64)
  /-- LOAD_BERTH: as PING -/
  | loadBerth (slot : Fin 64)
  /-- FLASH_WRITE: as PING -/
  | flashWrite (slot : Fin 64)
  /-- FLASH_ERASE: as PING -/
  | flashErase (slot : Fin 64)
  /-- SET_BOOT_SLOT: as PING -/
  | setBootSlot (slot : Fin 64)
  /-- SNAP_HOLD: as PING -/
  | snapHold (slot : Fin 64)
  /-- SNAP_RELEASE: as PING -/
  | snapRelease (slot : Fin 64)
  /-- LOG_FLUSH: as PING -/
  | logFlush (slot : Fin 64)
  /-- LOG_READ: as PING; buffer: where in the shared pool the firmware puts the entries -/
  | logRead (slot : Fin 64) (buffer : W32)
  /-- RESET_DEVICE: as PING -/
  | resetDevice (slot : Fin 64)
  /-- LEDGER_EVENT_WRITE: HIF writes the next waiting event -/
  | ledgerEventWrite
  /-- SW_IRQ_RAISE: a program write of HIF_SW_IRQ -/
  | swIrqRaise (bits : W32)
  /-- HF_FLASH_READ: the command at the head of Q32 -/
  | hfFlashRead
  /-- HF_FLASH_PROGRAM: the command at the head of Q32 -/
  | hfFlashProgram
  /-- HF_FLASH_ERASE: the command at the head of Q32 -/
  | hfFlashErase
  /-- HF_LOG_EVENT: the command at the head of Q32 -/
  | hfLogEvent
  /-- FLASH_RECOVERY_READ: the host writes HIF_FLASH_CMD with op 1 and go -/
  | flashRecoveryRead
  /-- FLASH_RECOVERY_PROGRAM: the host writes HIF_FLASH_CMD with op 2 and go -/
  | flashRecoveryProgram
  /-- FLASH_RECOVERY_ERASE: the host writes HIF_FLASH_CMD with op 3 and go -/
  | flashRecoveryErase
  /-- I2C_WRITE_TRANSACTION: an I2C write: the target address, then the bytes that follow it -/
  | i2cWriteTransaction (target : BitVec 7) (bytes : List Byte)
  /-- I2C_READ_TRANSACTION: an I2C read of words from an address -/
  | i2cReadTransaction (target : BitVec 7) (addr : W32) (words : Nat)
  /-- HIF_ENGINE_FAULT: HIF's two computations differ -/
  | hifEngineFault
  /-- REGISTER_WRITE: a write of a device address; whole: all four bytes are enabled -/
  | registerWrite (who : Requester) (addr : BitVec 29) (value : W32) (whole : Bool)
  /-- HOST_REGISTER_READ: a PCIe memory read of one word; whole: all four bytes are enabled -/
  | hostRegisterRead (addr : BitVec 29) (whole : Bool)
  /-- COMMAND_COMPLETION: the started command with a ticket ends; failed: its self-test or its engine failed; r0, r1: what the engine measured -/
  | commandCompletion (ticket : W32) (failed : Bool) (r0 r1 : W64)
  /-- SEC_MAILBOX_RESPONSE_READY: the enclave writes the response to a channel's request -/
  | secMailboxResponseReady (ch : Fin 2)
  /-- CRYSTAL_RETURN: crystal edges resume -/
  | crystalReturn
  /-- HOST_PCS_LOCK: a host port's PCS, FEC or group gains or loses lock; the RS symbols corrected on each of its lanes and its uncorrectable codewords since the last such event -/
  | hostPcsLock (port : HostPort) (locked : Bool) (corr : List Nat) (uncorr : Nat)
deriving DecidableEq, Repr

end Sys2Proof
end

