-- ==== Sys2Proof/WellFormed.lean ====
section
/-! DEFINITION. Which commands are well formed: operands within the ranges that the spec's numbering and the length
of its messages give, where the operand's type does not already say so.  exec gives every command its meaning all the same:
this is what a sender may be expected to send. -/
namespace Sys2Proof

/-- The checks on a command's operands, one line for each command that has any. -/
def Instr.wellFormed (i : Instr) : Bool :=
  match i with
  | .add _ _ _ _ => true
  | .sub _ _ _ _ => true
  | .and _ _ _ _ => true
  | .or _ _ _ _ => true
  | .xor _ _ _ _ => true
  | .shl _ _ _ _ => true
  | .shr _ _ _ _ => true
  | .sar _ _ _ _ => true
  | .mul _ _ _ _ => true
  | .mulh _ _ _ _ => true
  | .clz _ _ _ rb => rb == 0
  | .maddq _ _ _ _ => true
  | .addi _ _ _ _ => true
  | .lui _ _ ra _ => ra == 0
  | .beq _ _ _ _ => true
  | .bne _ _ _ _ => true
  | .blt _ _ _ _ => true
  | .bge _ _ _ _ => true
  | .bltu _ _ _ _ => true
  | .jal _ _ _ => true
  | .jr _ _ _ _ => true
  | .ldB _ _ _ _ => true
  | .ldH _ _ _ _ => true
  | .ldW _ _ _ _ => true
  | .ldD _ _ _ _ => true
  | .stB _ _ _ _ => true
  | .stH _ _ _ _ => true
  | .stW _ _ _ _ => true
  | .stD _ _ _ _ => true
  | .ldx _ _ _ _ => true
  | .stx _ _ _ _ => true
  | .send _ _ _ _ => true
  | .waitt _ _ _ _ => true
  | .pollt _ _ _ rb => rb == 0
  | .fenceR _ rd ra rb => rd == 0 && ra == 0 && rb == 0
  | .fenceQ _ rd ra rb => rd == 0 && ra == 0 && rb == 0
  | .fenceA _ rd ra rb => rd == 0 && ra == 0 && rb == 0
  | .commit _ rd ra rb => rd == 0 && ra == 0 && rb == 0
  | .claim _ _ _ imm => imm &&& 0x7FF0 == 0
  | .release _ rd _ imm => rd == 0 && imm &&& 0x7FFF == 0
  | .mfs _ _ ra imm => ra == 0 && imm &&& 0xF000 == 0
  | .mts _ _ ra imm => ra == 0 && imm &&& 0xF000 == 0
  | .trap _ rd ra _ => rd == 0 && ra == 0
  | .eret _ rd ra rb => rd == 0 && ra == 0 && rb == 0
  | .wfe _ _ ra rb => ra == 0 && rb == 0
  | .wfeWake _ => true
  | .waittTimeout _ => true
  | .waittTicketDone _ => true
  | .observationInterrupt _ => true
  | .tideBoundary => true
  | .commitPoint => true
  | .queueDepthApply => true
  | .snapshotWriteComplete => true
  | .pilotMissedHbDeclare => true
  | .coreFaultSignal _ _ => true
  | .watchdogExpiry _ => true
  | .hawserFrameReceived _ => true
  | .hawserCopyComplete => true
  | .coreRestartHoldEnd _ => true
  | .coreSelftestDone _ _ => true
  | .coreReloadDone _ => true
  | .waitToRestoreExpiry => true
  | .revertStart => true
  | .coldResumeRelease => true
  | .pilotFault => true
  | .forceBallQualified _ _ _ _ => true
  | .forcedTakeover => true
  | .poresetNAssert => true
  | .poresetNRelease _ => true
  | .resetNAssert => true
  | .resetNRelease => true
  | .hifSwreset => true
  | .perstN _ _ _ _ _ => true
  | .rootPllLoss => true
  | .rootRelockRetry _ => true
  | .rootPllLocked => true
  | .enclaveBoot code _ => code == 0 || (0x10 ≤ code.toNat && code.toNat ≤ 0x1A) || code == 0x1D || code == 0x1E || code == 0x40
  | .harbourManifestLoad => true
  | .crystalLoss => true
  | .txSetState _ => true
  | .txDacSettled _ => true
  | .txMute _ => true
  | .txLoadFir _ => true
  | .txLoadNlc _ => true
  | .txCapture _ => true
  | .txSuperframeBoundary _ _ _ => true
  | .txUnderrun _ => true
  | .txpEngineFault _ => true
  | .rxSetState _ => true
  | .rxAdcSettled _ => true
  | .rxReacquire _ => true
  | .rxCapture _ => true
  | .rxLosWindowEnd _ _ _ _ _ _ _ => true
  | .hailCdDwellExpiry _ => true
  | .cdScanComplete _ _ _ => true
  | .trLockDeclared _ _ => true
  | .trLockLost _ => true
  | .trRangeTimeout _ => true
  | .sfPeakDetected _ _ _ => true
  | .sfLockLost _ => true
  | .reacqTimeout _ => true
  | .rxfEngineFault _ => true
  | .rxSuperframeBoundary _ _ => true
  | .snrBelowThreshold _ => true
  | .eqTapUpdate _ grad sop => grad.length = 384 && sop.length = 4
  | .eqHold _ => true
  | .eqReconverge _ => true
  | .eqReadTaps _ => true
  | .eqSliceRetest _ => true
  | .eqzShadowCopyComplete _ => true
  | .sliceFailureDeclared _ _ _ _ => true
  | .sliceSwap _ => true
  | .eqzCrrEngineFault _ _ => true
  | .crReacquire _ => true
  | .crFreqSeed _ => true
  | .crCapture _ => true
  | .fecBlockLockSearch _ _ => true
  | .fecBlockRelease _ _ => true
  | .fecSeedFail _ _ => true
  | .fecEngineFailed _ _ _ => true
  | .fecEngineSwap _ => true
  | .fecEncoderFault _ _ => true
  | .fecRelock _ => true
  | .fecRetest _ => true
  | .fecCapture _ => true
  | .hlSend _ => true
  | .hlRecv _ => true
  | .hailBurstStart _ => true
  | .hailBurstSent _ => true
  | .hailDetection _ _ _ _ => true
  | .hailWindowDetect _ _ _ _ => true
  | .hailHeaderDecoded _ _ => true
  | .hailBurstReceived _ payload _ => payload.length ≤ 2048
  | .hailReceptionLost _ => true
  | .hailLoss _ => true
  | .hailEngineFault _ => true
  | .frElwStart _ => true
  | .frElwAnswer _ => true
  | .frCaptureOh _ => true
  | .elwProposeReceived _ _ => true
  | .elwAnswerReceived _ _ => true
  | .elwCommitDeadline _ => true
  | .elwCommitReceived _ _ => true
  | .elwSwitch _ => true
  | .elwEntropySwitchBlock _ => true
  | .elwResponderSwitch _ => true
  | .frmTxFrame _ => true
  | .frmFasSearchMatch _ pos _ => decide (pos < 4194304)
  | .frmRxFrame _ oh payload _ => oh.length = 4096 && payload.length ≤ 520192
  | .frmLofTimer _ _ => true
  | .frmEngineFault _ => true
  | .ospWindow _ _ data => data.length = 8
  | .clSetMap => true
  | .clReadMap => true
  | .clSetFlexeCal => true
  | .flexeCalendarSwitch _ => true
  | .clmIngressUnit _ _ _ => true
  | .clmEgressUnit _ => true
  | .brtIngressFrame _ frame => frame.length ≤ 65535
  | .brtShaperRelease _ => true
  | .brtEgressHeader _ => true
  | .brtGuardBandStart _ => true
  | .brtGateClose _ => true
  | .brResetTokens => true
  | .brFlush => true
  | .clmBrtEngineFault _ => true
  | .hlSetPower => true
  | .hlReadapt => true
  | .qlSetPower => true
  | .qlReadapt => true
  | .qlSetMap => true
  | .qlReadMap => true
  | .laneRxReady quay lane _ => !quay || decide (lane.val < 8)
  | .laneL1ExitTimeout quay lane => !quay || decide (lane.val < 8)
  | .laneLosDeclared quay lane => !quay || decide (lane.val < 8)
  | .laneLosCleared quay lane => !quay || decide (lane.val < 8)
  | .quayBlockReceived _ syms => syms.length = 2048
  | .quayRow => true
  | .quayMapApply _ _ => true
  | .laneFault quay lane => !quay || decide (lane.val < 8)
  | .cphTxRecord _ _ _ => true
  | .cphRxRecord _ _ _ => true
  | .cphUnitMismatch _ _ _ => true
  | .cphEngineFault => true
  | .cpUnitRetest => true
  | .cpReadContext => true
  | .getStatus _ => true
  | .getIdentity _ => true
  | .getChallenge _ => true
  | .zeroize _ => true
  | .selfTest _ code => code == 0 || (0x11 ≤ code.toNat && code.toNat ≤ 0x19) || (0x20 ≤ code.toNat && code.toNat ≤ 0x39)
  | .loadEndorsement _ => true
  | .setPolicy _ => true
  | .startAgreement _ => true
  | .rekeyNow _ => true
  | .endSession _ => true
  | .loadBerthManifest _ => true
  | .programAnchor _ _ => true
  | .revokeAnchor _ _ => true
  | .debugUnlock _ => true
  | .setTimers _ => true
  | .challengeExpiry _ => true
  | .zeroizeNQualified => true
  | .zeroiseComplete _ => true
  | .secErrorEntry code => (0x10 ≤ code.toNat && code.toNat ≤ 0x1E)
  | .kaHello _ _ => true
  | .kaResp _ => true
  | .kaFinish _ => true
  | .kaConfirm _ => true
  | .kaAbort _ => true
  | .kaTimeout _ => true
  | .kaCollisionRetry _ => true
  | .kaRetryTimer _ => true
  | .fullPeriodExpiry _ => true
  | .epochActivation _ => true
  | .rekeyAgeExpiry _ => true
  | .keyActivate _ => true
  | .keyAck _ => true
  | .keyAckTimeout _ => true
  | .refSourceDisqualify _ reason => reason == 1 || reason == 2 || reason == 3
  | .refSourceWtrExpiry _ => true
  | .refMonitorWindowEnd _ _ _ _ => true
  | .refSourceSwitch _ => true
  | .refLockDeclared => true
  | .refHoldoverOos => true
  | .ppsInputEdge _ _ => true
  | .refAlignPulse => true
  | .refPulseOutput _ => true
  | .rfRealign => true
  | .rfMeasure => true
  | .refLogicFault => true
  | .pwrIdleTimerExpiry _ _ _ => true
  | .pwrEntryComplete _ => true
  | .pwrWakeEvent _ => true
  | .pwrWakeComplete _ _ => true
  | .pwWake => true
  | .pwPark _ _ => true
  | .avsPoll _ _ _ _ => true
  | .avsRetry _ _ _ _ => true
  | .pwrLogicFault => true
  | .monTempReadout _ => true
  | .monRegularTrigger _ => true
  | .monTriggerDelayExpiry _ _ => true
  | .monInjectedTrigger _ _ => true
  | .monEntryEnd _ results _ _ => !results.isEmpty && decide (results.length ≤ 256)
  | .swReg _ => true
  | .swInj _ => true
  | .monSyncEdge => true
  | .mnSync => true
  | .mnLoadFir => true
  | .mnCapture => true
  | .tmrCompare _ => true
  | .tmrPeriod _ => true
  | .monEngineFault => true
  | .anlRunStart _ => true
  | .anlWindowEnd _ => true
  | .anlRunEnd _ meas => meas.length == 72
  | .anlPauseTimeout _ => true
  | .anlElementFailed _ _ _ => true
  | .anRun => true
  | .anHold => true
  | .anClearFail => true
  | .anReadTable => true
  | .anlEngineFault => true
  | .mmScrub => true
  | .mmReadRepair => true
  | .scScan => true
  | .memScuEngineFault _ => true
  | .obReadCat => true
  | .obReadSamples => true
  | .obsSnapHold => true
  | .obsSnapRelease => true
  | .samplerTag _ _ _ _ _ => true
  | .logHourlySummary => true
  | .logEventEntryTimer => true
  | .logEntryWrite _ => true
  | .logRecovery => true
  | .lgFlush => true
  | .lgRead => true
  | .lgNote => true
  | .obsLogEngineFault _ => true
  | .mbxPost _ _ _ => true
  | .mbxTake _ => true
  | .mbxDone _ _ => true
  | .mbxDeadlineExpiry _ => true
  | .ping _ => true
  | .cfgWrite _ _ => true
  | .engineCmd _ => true
  | .cmdStatus _ => true
  | .loadBerth _ => true
  | .flashWrite _ => true
  | .flashErase _ => true
  | .setBootSlot _ => true
  | .snapHold _ => true
  | .snapRelease _ => true
  | .logFlush _ => true
  | .logRead _ _ => true
  | .resetDevice _ => true
  | .ledgerEventWrite => true
  | .swIrqRaise _ => true
  | .hfFlashRead => true
  | .hfFlashProgram => true
  | .hfFlashErase => true
  | .hfLogEvent => true
  | .flashRecoveryRead => true
  | .flashRecoveryProgram => true
  | .flashRecoveryErase => true
  | .i2cWriteTransaction _ _ => true
  | .i2cReadTransaction _ _ _ => true
  | .hifEngineFault => true
  | .registerWrite _ _ _ _ => true
  | .hostRegisterRead _ _ => true
  | .commandCompletion _ _ _ _ => true
  | .secMailboxResponseReady _ => true
  | .crystalReturn => true
  | .hostPcsLock _ _ _ _ => true

end Sys2Proof
end

