-- ==== Sys2Proof/Decode.lean ====
section
/-! DEFINITION. Words.  The rows of the command table give no bits; a Hexso instruction is a 32-bit word of the formats of Table HXS-6 and the encodings of Table
HXS-7 (R44), read here and written back. -/
namespace Sys2Proof

/-- The fields of a word (Table HXS-6). -/
def wordOp (w : BitVec 32) : Nat := (w.extractLsb' 26 6).toNat
def wordA (w : BitVec 32) : BitVec 5 := w.extractLsb' 21 5
def wordB (w : BitVec 32) : BitVec 5 := w.extractLsb' 16 5
def wordC (w : BitVec 32) : BitVec 5 := w.extractLsb' 11 5
def wordFunc (w : BitVec 32) : Nat := (w.extractLsb' 0 11).toNat
def wordImm (w : BitVec 32) : BitVec 16 := w.extractLsb' 0 16
def wordOff (w : BitVec 32) : BitVec 21 := w.extractLsb' 0 21

/-- A word of each format from its fields. -/
def packR (op : BitVec 6) (a b c : BitVec 5) (func : BitVec 11) : BitVec 32 := op ++ a ++ b ++ c ++ func
def packI (op : BitVec 6) (a b : BitVec 5) (imm : BitVec 16) : BitVec 32 := op ++ a ++ b ++ imm
def packJ (op : BitVec 6) (a : BitVec 5) (off : BitVec 21) : BitVec 32 := op ++ a ++ off

/-- The instruction of format R that op and func name (Table HXS-7). -/
def decodeR (k : CoreId) (op func : Nat) (a b c : BitVec 5) : Option Instr :=
  match op, func with
  | 0x00, 0x000 => some (.add k a b c)
  | 0x00, 0x001 => some (.sub k a b c)
  | 0x00, 0x002 => some (.and k a b c)
  | 0x00, 0x003 => some (.or k a b c)
  | 0x00, 0x004 => some (.xor k a b c)
  | 0x00, 0x005 => some (.shl k a b c)
  | 0x00, 0x006 => some (.shr k a b c)
  | 0x00, 0x007 => some (.sar k a b c)
  | 0x00, 0x008 => some (.mul k a b c)
  | 0x00, 0x009 => some (.mulh k a b c)
  | 0x00, 0x00A => some (.clz k a b c)
  | 0x00, 0x00B => some (.maddq k a b c)
  | 0x20, 0x000 => some (.send k a b c)
  | 0x22, 0x000 => some (.pollt k a b c)
  | 0x24, 0x001 => some (.fenceR k a b c)
  | 0x24, 0x002 => some (.fenceQ k a b c)
  | 0x24, 0x003 => some (.fenceA k a b c)
  | 0x24, 0x010 => some (.commit k a b c)
  | 0x39, 0x000 => some (.eret k a b c)
  | 0x3A, 0x000 => some (.wfe k a b c)
  | _, _ => none

/-- The instruction that a word spells on core k by op, func and the formats' fields (R44), whatever stands in the fields it does not use. -/
def decodeFields (k : CoreId) (w : BitVec 32) : Option Instr :=
  match wordOp w with
  | 0x01 => some (.addi k (wordA w) (wordB w) (wordImm w))
  | 0x02 => some (.lui k (wordA w) (wordB w) (wordImm w))
  | 0x08 => some (.beq k (wordA w) (wordB w) (wordImm w))
  | 0x09 => some (.bne k (wordA w) (wordB w) (wordImm w))
  | 0x0A => some (.blt k (wordA w) (wordB w) (wordImm w))
  | 0x0B => some (.bge k (wordA w) (wordB w) (wordImm w))
  | 0x0C => some (.bltu k (wordA w) (wordB w) (wordImm w))
  | 0x0D => some (.jal k (wordA w) (wordOff w))
  | 0x0E => some (.jr k (wordA w) (wordB w) (wordImm w))
  | 0x10 => some (.ldB k (wordA w) (wordB w) (wordImm w))
  | 0x11 => some (.ldH k (wordA w) (wordB w) (wordImm w))
  | 0x12 => some (.ldW k (wordA w) (wordB w) (wordImm w))
  | 0x13 => some (.ldD k (wordA w) (wordB w) (wordImm w))
  | 0x14 => some (.stB k (wordA w) (wordB w) (wordImm w))
  | 0x15 => some (.stH k (wordA w) (wordB w) (wordImm w))
  | 0x16 => some (.stW k (wordA w) (wordB w) (wordImm w))
  | 0x17 => some (.stD k (wordA w) (wordB w) (wordImm w))
  | 0x18 => some (.ldx k (wordA w) (wordB w) (wordImm w))
  | 0x19 => some (.stx k (wordA w) (wordB w) (wordImm w))
  | 0x21 => some (.waitt k (wordA w) (wordB w) (wordImm w))
  | 0x28 => some (.claim k (wordA w) (wordB w) (wordImm w))
  | 0x29 => some (.release k (wordA w) (wordB w) (wordImm w))
  | 0x30 => some (.mfs k (wordA w) (wordB w) (wordImm w))
  | 0x31 => some (.mts k (wordA w) (wordB w) (wordImm w))
  | 0x38 => some (.trap k (wordA w) (wordB w) (wordImm w))
  | op => decodeR k op (wordFunc w) (wordA w) (wordB w) (wordC w)

/-- The instruction that a word spells on core k (R44): none for an encoding that Table HXS-7 does not list, or with a field that the instruction does not
use not 0. -/
def decodeHexso (k : CoreId) (w : BitVec 32) : Option Instr := (decodeFields k w).filter Instr.wellFormed

/-- A word whose encoding is legal (R44). -/
def legalWord (w : BitVec 32) : Bool := (decodeHexso .A w).isSome

/-- The word of an instruction (Tables HXS-6, HXS-7); none for a command that is not one. -/
def encodeHexso (i : Instr) : Option (BitVec 32) :=
  match i with
  | .add _ a b c => some (packR 0x00 a b c 0x000)
  | .sub _ a b c => some (packR 0x00 a b c 0x001)
  | .and _ a b c => some (packR 0x00 a b c 0x002)
  | .or _ a b c => some (packR 0x00 a b c 0x003)
  | .xor _ a b c => some (packR 0x00 a b c 0x004)
  | .shl _ a b c => some (packR 0x00 a b c 0x005)
  | .shr _ a b c => some (packR 0x00 a b c 0x006)
  | .sar _ a b c => some (packR 0x00 a b c 0x007)
  | .mul _ a b c => some (packR 0x00 a b c 0x008)
  | .mulh _ a b c => some (packR 0x00 a b c 0x009)
  | .clz _ a b c => some (packR 0x00 a b c 0x00A)
  | .maddq _ a b c => some (packR 0x00 a b c 0x00B)
  | .send _ a b c => some (packR 0x20 a b c 0x000)
  | .pollt _ a b c => some (packR 0x22 a b c 0x000)
  | .fenceR _ a b c => some (packR 0x24 a b c 0x001)
  | .fenceQ _ a b c => some (packR 0x24 a b c 0x002)
  | .fenceA _ a b c => some (packR 0x24 a b c 0x003)
  | .commit _ a b c => some (packR 0x24 a b c 0x010)
  | .eret _ a b c => some (packR 0x39 a b c 0x000)
  | .wfe _ a b c => some (packR 0x3A a b c 0x000)
  | .addi _ a b imm => some (packI 0x01 a b imm)
  | .lui _ a b imm => some (packI 0x02 a b imm)
  | .jr _ a b imm => some (packI 0x0E a b imm)
  | .ldB _ a b imm => some (packI 0x10 a b imm)
  | .ldH _ a b imm => some (packI 0x11 a b imm)
  | .ldW _ a b imm => some (packI 0x12 a b imm)
  | .ldD _ a b imm => some (packI 0x13 a b imm)
  | .ldx _ a b imm => some (packI 0x18 a b imm)
  | .waitt _ a b imm => some (packI 0x21 a b imm)
  | .claim _ a b imm => some (packI 0x28 a b imm)
  | .release _ a b imm => some (packI 0x29 a b imm)
  | .mfs _ a b imm => some (packI 0x30 a b imm)
  | .trap _ a b imm => some (packI 0x38 a b imm)
  | .stB _ a b imm => some (packI 0x14 a b imm)
  | .stH _ a b imm => some (packI 0x15 a b imm)
  | .stW _ a b imm => some (packI 0x16 a b imm)
  | .stD _ a b imm => some (packI 0x17 a b imm)
  | .stx _ a b imm => some (packI 0x19 a b imm)
  | .mts _ a b imm => some (packI 0x31 a b imm)
  | .beq _ a b imm => some (packI 0x08 a b imm)
  | .bne _ a b imm => some (packI 0x09 a b imm)
  | .blt _ a b imm => some (packI 0x0A a b imm)
  | .bge _ a b imm => some (packI 0x0B a b imm)
  | .bltu _ a b imm => some (packI 0x0C a b imm)
  | .jal _ a off => some (packJ 0x0D a off)
  | _ => none

/-- The command that a word spells: the table gives its rows no bits; a 32-bit word spells the Hexso instruction of that encoding, issued by core A. -/
def decodeTableWord (nbits w : Nat) : Option Instr := if nbits = 32 then decodeHexso .A (BitVec.ofNat 32 w) else none

end Sys2Proof
end

