-- ==== Sys2Proof/Machine/RegMap.lean ====
section
/-! DEFINITION. The register map: every register of the chapters' tables, with its fields, types, reset values
(R8, R9, R10), the ranges its fields are limited to, the boundary its staged fields wait for (R54), and the
claimable resource it belongs to (Table HXS-10).  F.<register>_<field> names a field, R.<register> an address. -/
namespace Sys2Proof.Machine

/-- The field types of Table SCO-4.  ST and HX are properties a field carries beside its type (R9). -/
inductive FTy | rw | ro | w1c | w1s | rc | wo
deriving DecidableEq, Repr

/-- How a written value outside the field's range is limited: not at all; to lo..hi; a signed value to -m..m;
codes lo..hi read as 0. -/
inductive Lim | free | clamp (lo hi : Nat) | sym (m : Nat) | hole (lo hi : Nat)
deriving DecidableEq, Repr

/-- The boundary at which a committed value becomes effective (R54), or the check its group must pass first. -/
inductive Bnd | commit | txSf | rxSf | fecBlk | frmTx | tmrWrap | carMode | depth | clmCfg | refCfg
deriving DecidableEq, Repr

/-- One field of a register table.  isIdx: the reset value is the register's index.  limBit: the bit of the block's
status register that a limiting sets. -/
structure Fld where
  lsb : Nat
  width : Nat
  ty : FTy := .ro
  st : Bool := false
  hx : Bool := false
  reset : Nat := 0
  isIdx : Bool := false
  lim : Lim := .free
  limBit : Nat := 0
deriving DecidableEq, Repr

/-- A register, or count registers stride apart.  car: it exists once per carrier, carrier B's copy 0x0100_0000
higher (R11).  cnt: it is the low word of a 48-bit counter (R6); mirror: a counter not registered with the gatherer.
claim: the claimable resource of the first register and the registers per resource. -/
structure RegFam where
  base : Nat
  stride : Nat
  count : Nat
  car : Bool := false
  cnt : Bool := false
  mirror : Bool := false
  bnd : Bnd := .commit
  claim : Option (Nat × Nat) := none
  flds : List Fld := []
deriving DecidableEq, Repr

/-- Carrier B's registers lie 0x0100_0000 above carrier A's (Table ARC-7). -/
def carOff : Carrier → Nat
  | .A => 0
  | .B => 0x01000000

abbrev F.QCT_DEPTH_depth : Fld := { lsb := 0, width := 17, ty := .rw, st := true, hx := true }
abbrev R.QCT_DEPTH (n : Nat) : Nat := 0x1B080000 + 4 * n
abbrev F.QCT_DEPTH_depth_assigned : Fld := { lsb := 0, width := 17, ty := .rw, st := true, hx := true, reset := 2048 }
abbrev F.QCT_FILL_occupied : Fld := { lsb := 0, width := 17 }
abbrev F.QCT_FILL_waking : Fld := { lsb := 17, width := 1 }
abbrev F.QCT_FILL_ordered_wait : Fld := { lsb := 18, width := 1 }
abbrev R.QCT_FILL (n : Nat) : Nat := 0x1B080100 + 4 * n
abbrev F.QCT_STATUS_depth_pending : Fld := { lsb := 0, width := 1 }
abbrev F.QCT_STATUS_depth_err : Fld := { lsb := 1, width := 1, ty := .w1c }
abbrev F.QCT_STATUS_stale_drop : Fld := { lsb := 2, width := 1, ty := .w1c }
abbrev F.QCT_STATUS_dual_active : Fld := { lsb := 3, width := 1 }
abbrev F.QCT_STATUS_live_epoch : Fld := { lsb := 16, width := 16, reset := 1 }
abbrev R.QCT_STATUS : Nat := 0x1B080200
abbrev R.QCT_STALE_DROPS : Nat := 0x1B080208
abbrev F.CAR_MODE_rs8 : Fld := { lsb := 0, width := 12, ty := .rw, st := true, hx := true, reset := 2048 }
abbrev F.CAR_MODE_base : Fld := { lsb := 12, width := 2, ty := .rw, st := true, hx := true, reset := 2 }
abbrev F.CAR_MODE_rate : Fld := { lsb := 14, width := 2, ty := .rw, st := true, hx := true, reset := 2 }
abbrev F.CAR_MODE_h64 : Fld := { lsb := 16, width := 9, ty := .rw, st := true, hx := true, reset := 316 }
abbrev F.CAR_MODE_roll : Fld := { lsb := 25, width := 5, ty := .rw, st := true, hx := true, reset := 5 }
abbrev F.CAR_MODE_family : Fld := { lsb := 30, width := 2, ty := .rw, st := true, hx := true }
abbrev R.CAR_MODE (c : Carrier) : Nat := 0x10000100 + carOff c
abbrev F.CAR_MODE_STATUS_mode_err : Fld := { lsb := 0, width := 4 }
abbrev F.CAR_MODE_STATUS_staged_diff : Fld := { lsb := 4, width := 1 }
abbrev F.CAR_MODE_STATUS_capacity : Fld := { lsb := 8, width := 9, reset := 400 }
abbrev R.CAR_MODE_STATUS (c : Carrier) : Nat := 0x10000104 + carOff c
abbrev F.FRM_ELW_CFG_snr_margin : Fld := { lsb := 0, width := 8, ty := .rw, st := true, hx := true, reset := 20 }
abbrev F.FRM_ELW_CFG_auto_accept : Fld := { lsb := 8, width := 1, ty := .rw, st := true, hx := true, reset := 1 }
abbrev R.FRM_ELW_CFG (c : Carrier) : Nat := 0x10500800 + carOff c
abbrev F.FRM_ELW_STATUS_tx_state : Fld := { lsb := 0, width := 2 }
abbrev F.FRM_ELW_STATUS_rx_state : Fld := { lsb := 2, width := 2 }
abbrev F.FRM_ELW_STATUS_last_id : Fld := { lsb := 4, width := 8 }
abbrev F.FRM_ELW_STATUS_reason : Fld := { lsb := 12, width := 4 }
abbrev F.FRM_ELW_STATUS_done : Fld := { lsb := 16, width := 1, ty := .w1c }
abbrev F.FRM_ELW_STATUS_abandoned : Fld := { lsb := 17, width := 1, ty := .w1c }
abbrev F.FRM_ELW_STATUS_rejected : Fld := { lsb := 18, width := 1, ty := .w1c }
abbrev F.FRM_ELW_STATUS_missed_commit : Fld := { lsb := 19, width := 1, ty := .w1c }
abbrev R.FRM_ELW_STATUS (c : Carrier) : Nat := 0x10500804 + carOff c
abbrev F.FRM_MF_COUNT_tx_mf : Fld := { lsb := 0, width := 16 }
abbrev F.FRM_MF_COUNT_rx_mf : Fld := { lsb := 16, width := 16 }
abbrev R.FRM_MF_COUNT (c : Carrier) : Nat := 0x10500808 + carOff c
abbrev F.TXP_STATE_state : Fld := { lsb := 0, width := 3 }
abbrev F.TXP_STATE_muted : Fld := { lsb := 3, width := 1, reset := 1 }
abbrev F.TXP_STATE_unmute_pending : Fld := { lsb := 4, width := 1 }
abbrev F.TXP_STATE_nlc_active : Fld := { lsb := 5, width := 1 }
abbrev F.TXP_STATE_nlc_bank : Fld := { lsb := 6, width := 1 }
abbrev F.TXP_STATE_fir_bank : Fld := { lsb := 7, width := 1 }
abbrev R.TXP_STATE (c : Carrier) : Nat := 0x10000200 + carOff c
abbrev F.TXP_CTRL_nlc_en : Fld := { lsb := 0, width := 1, ty := .rw, st := true, hx := true }
abbrev F.TXP_CTRL_nlc_bank : Fld := { lsb := 1, width := 1, ty := .rw, st := true, hx := true }
abbrev F.TXP_CTRL_fir_bank : Fld := { lsb := 2, width := 1, ty := .rw, st := true, hx := true }
abbrev F.TXP_CTRL_test_sel : Fld := { lsb := 3, width := 3, ty := .rw, st := true, hx := true }
abbrev R.TXP_CTRL (c : Carrier) : Nat := 0x10000204 + carOff c
abbrev F.TXP_SKEW_skew : Fld := { lsb := 0, width := 11, ty := .rw, st := true, hx := true, lim := .sym 500 }
abbrev R.TXP_SKEW (c : Carrier) (n : Nat) : Nat := 0x10000210 + carOff c + 4 * n
abbrev F.TXP_IQ_TRIM_X_iq_gain : Fld := { lsb := 0, width := 10, ty := .rw, st := true, hx := true, lim := .sym 150 }
abbrev F.TXP_IQ_TRIM_X_iq_phase : Fld := { lsb := 16, width := 11, ty := .rw, st := true, hx := true, lim := .sym 500 }
abbrev R.TXP_IQ_TRIM_X (c : Carrier) : Nat := 0x10000220 + carOff c
abbrev F.TXP_IQ_TRIM_Y_iq_gain : Fld := { lsb := 0, width := 10, ty := .rw, st := true, hx := true, lim := .sym 150 }
abbrev F.TXP_IQ_TRIM_Y_iq_phase : Fld := { lsb := 16, width := 11, ty := .rw, st := true, hx := true, lim := .sym 500 }
abbrev R.TXP_IQ_TRIM_Y (c : Carrier) : Nat := 0x10000224 + carOff c
abbrev F.TXP_XY_TRIM_xy_gain : Fld := { lsb := 0, width := 10, ty := .rw, st := true, hx := true, lim := .sym 300 }
abbrev F.TXP_XY_TRIM_xy_phase : Fld := { lsb := 16, width := 12, ty := .rw, st := true, hx := true, lim := .sym 1800 }
abbrev R.TXP_XY_TRIM (c : Carrier) : Nat := 0x10000228 + carOff c
abbrev F.TXP_DAC_CFG_swing : Fld := { lsb := 0, width := 5, ty := .rw, st := true, hx := true, reset := 30, lim := .clamp 0 30 }
abbrev F.TXP_DAC_CFG_rms_code : Fld := { lsb := 8, width := 7, ty := .rw, st := true, hx := true, reset := 42, lim := .clamp 16 96 }
abbrev R.TXP_DAC_CFG (c : Carrier) (n : Nat) : Nat := 0x10000230 + carOff c + 4 * n
abbrev F.TXP_NLC_CFG_scale : Fld := { lsb := 0, width := 16, ty := .rw, st := true, hx := true, reset := 0x8000 }
abbrev R.TXP_NLC_CFG (c : Carrier) : Nat := 0x10000240 + carOff c
abbrev F.TXP_NLC_STATUS_count0 : Fld := { lsb := 0, width := 13 }
abbrev F.TXP_NLC_STATUS_count1 : Fld := { lsb := 16, width := 13 }
abbrev R.TXP_NLC_STATUS (c : Carrier) : Nat := 0x10000244 + carOff c
abbrev F.TXP_STATUS_trim_lim : Fld := { lsb := 0, width := 1, ty := .w1c }
abbrev F.TXP_STATUS_underrun : Fld := { lsb := 1, width := 1, ty := .w1c }
abbrev F.TXP_STATUS_clip : Fld := { lsb := 2, width := 1, ty := .w1c }
abbrev F.TXP_STATUS_nlc_sat : Fld := { lsb := 3, width := 1, ty := .w1c }
abbrev F.TXP_STATUS_engine_fault : Fld := { lsb := 4, width := 1, ty := .w1c }
abbrev R.TXP_STATUS (c : Carrier) : Nat := 0x10000250 + carOff c
abbrev R.TXP_CLIP_CNT (c : Carrier) : Nat := 0x10000260 + carOff c
abbrev R.TXP_UNDERRUN_CNT (c : Carrier) : Nat := 0x10000268 + carOff c
abbrev R.TXP_SF_CNT (c : Carrier) : Nat := 0x10000270 + carOff c
abbrev F.RXF_STATE_state : Fld := { lsb := 0, width := 3 }
abbrev F.RXF_STATE_acq : Fld := { lsb := 3, width := 3 }
abbrev F.RXF_STATE_los : Fld := { lsb := 6, width := 1 }
abbrev F.RXF_STATE_tr_lock : Fld := { lsb := 7, width := 1 }
abbrev F.RXF_STATE_sf_lock : Fld := { lsb := 8, width := 1 }
abbrev F.RXF_STATE_hail_cd_found : Fld := { lsb := 9, width := 1 }
abbrev F.RXF_STATE_hyp : Fld := { lsb := 10, width := 4 }
abbrev R.RXF_STATE (c : Carrier) : Nat := 0x10100200 + carOff c
abbrev F.RXF_CTRL_iq_auto : Fld := { lsb := 0, width := 1, ty := .rw, st := true, hx := true, reset := 1 }
abbrev F.RXF_CTRL_auto_reacq : Fld := { lsb := 1, width := 1, ty := .rw, st := true, hx := true, reset := 1 }
abbrev R.RXF_CTRL (c : Carrier) : Nat := 0x10100204 + carOff c
abbrev F.RXF_CD_CFG_cd_set : Fld := { lsb := 0, width := 16, ty := .rw, st := true, hx := true, lim := .sym 10000, limBit := 4 }
abbrev F.RXF_CD_CFG_cd_mode : Fld := { lsb := 16, width := 2, ty := .rw, st := true, hx := true, reset := 1 }
abbrev R.RXF_CD_CFG (c : Carrier) : Nat := 0x10100210 + carOff c
abbrev F.RXF_CD_STATUS_cd_est : Fld := { lsb := 0, width := 16 }
abbrev F.RXF_CD_STATUS_cd_hail : Fld := { lsb := 16, width := 16 }
abbrev R.RXF_CD_STATUS (c : Carrier) : Nat := 0x10100214 + carOff c
abbrev F.RXF_HAIL_SCAN_dwell : Fld := { lsb := 0, width := 9, ty := .rw, st := true, hx := true, reset := 100, lim := .clamp 1 400, limBit := 4 }
abbrev R.RXF_HAIL_SCAN (c : Carrier) : Nat := 0x10100218 + carOff c
abbrev F.RXF_TR_CFG_tr_bw : Fld := { lsb := 0, width := 2, ty := .rw, st := true, hx := true, reset := 2 }
abbrev R.RXF_TR_CFG (c : Carrier) : Nat := 0x10100220 + carOff c
abbrev F.RXF_TR_STATUS_offset : Fld := { lsb := 0, width := 20 }
abbrev R.RXF_TR_STATUS (c : Carrier) : Nat := 0x10100224 + carOff c
abbrev F.RXF_SF_CFG_sf_thresh : Fld := { lsb := 0, width := 8, ty := .rw, st := true, hx := true, reset := 64, lim := .clamp 1 255 }
abbrev R.RXF_SF_CFG (c : Carrier) : Nat := 0x10100228 + carOff c
abbrev F.RXF_IQ_CFG_X_skew : Fld := { lsb := 0, width := 9, ty := .rw, st := true, hx := true, lim := .sym 250 }
abbrev F.RXF_IQ_CFG_X_gain : Fld := { lsb := 9, width := 9, ty := .rw, st := true, hx := true, lim := .sym 200 }
abbrev F.RXF_IQ_CFG_X_phase : Fld := { lsb := 18, width := 11, ty := .rw, st := true, hx := true, lim := .sym 750 }
abbrev R.RXF_IQ_CFG_X (c : Carrier) : Nat := 0x10100230 + carOff c
abbrev F.RXF_IQ_CFG_Y_skew : Fld := { lsb := 0, width := 9, ty := .rw, st := true, hx := true, lim := .sym 250 }
abbrev F.RXF_IQ_CFG_Y_gain : Fld := { lsb := 9, width := 9, ty := .rw, st := true, hx := true, lim := .sym 200 }
abbrev F.RXF_IQ_CFG_Y_phase : Fld := { lsb := 18, width := 11, ty := .rw, st := true, hx := true, lim := .sym 750 }
abbrev R.RXF_IQ_CFG_Y (c : Carrier) : Nat := 0x10100234 + carOff c
abbrev F.RXF_IQ_EST_X_gain : Fld := { lsb := 9, width := 9 }
abbrev F.RXF_IQ_EST_X_phase : Fld := { lsb := 18, width := 11 }
abbrev R.RXF_IQ_EST_X (c : Carrier) : Nat := 0x10100238 + carOff c
abbrev F.RXF_IQ_EST_Y_gain : Fld := { lsb := 9, width := 9 }
abbrev F.RXF_IQ_EST_Y_phase : Fld := { lsb := 18, width := 11 }
abbrev R.RXF_IQ_EST_Y (c : Carrier) : Nat := 0x1010023C + carOff c
abbrev F.RXF_LOS_CFG_los_thr : Fld := { lsb := 0, width := 7, ty := .rw, st := true, hx := true, reset := 8, lim := .clamp 1 64 }
abbrev F.RXF_LOS_CFG_hyst : Fld := { lsb := 8, width := 4, ty := .rw, st := true, hx := true, reset := 2 }
abbrev R.RXF_LOS_CFG (c : Carrier) : Nat := 0x10100240 + carOff c
abbrev F.RXF_LANE_RMS_rms : Fld := { lsb := 0, width := 16 }
abbrev R.RXF_LANE_RMS (c : Carrier) (n : Nat) : Nat := 0x10100250 + carOff c + 4 * n
abbrev F.RXF_SUBADC_W0_in_use : Fld := { lsb := 0, width := 32, reset := 0xffffffff }
abbrev R.RXF_SUBADC_W0 (c : Carrier) (n : Nat) : Nat := 0x10100280 + carOff c + 16 * n
abbrev F.RXF_SUBADC_W1_in_use : Fld := { lsb := 0, width := 32, reset := 0xffffffff }
abbrev R.RXF_SUBADC_W1 (c : Carrier) (n : Nat) : Nat := 0x10100284 + carOff c + 16 * n
abbrev F.RXF_SUBADC_W2_in_use : Fld := { lsb := 0, width := 8 }
abbrev F.RXF_SUBADC_W2_used : Fld := { lsb := 8, width := 7, reset := 64 }
abbrev F.RXF_SUBADC_W2_failed : Fld := { lsb := 16, width := 7 }
abbrev R.RXF_SUBADC_W2 (c : Carrier) (n : Nat) : Nat := 0x10100288 + carOff c + 16 * n
abbrev F.RXF_STATUS_iq_lim : Fld := { lsb := 0, width := 1, ty := .w1c }
abbrev F.RXF_STATUS_clip : Fld := { lsb := 1, width := 1, ty := .w1c }
abbrev F.RXF_STATUS_los_seen : Fld := { lsb := 2, width := 1, ty := .w1c }
abbrev F.RXF_STATUS_sf_loss : Fld := { lsb := 3, width := 1, ty := .w1c }
abbrev F.RXF_STATUS_cd_edge : Fld := { lsb := 4, width := 1, ty := .w1c }
abbrev F.RXF_STATUS_subadc_short : Fld := { lsb := 5, width := 1, ty := .w1c }
abbrev F.RXF_STATUS_engine_fault : Fld := { lsb := 6, width := 1, ty := .w1c }
abbrev F.RXF_STATUS_acq_fail : Fld := { lsb := 7, width := 1, ty := .w1c }
abbrev F.RXF_STATUS_tr_range : Fld := { lsb := 8, width := 1, ty := .w1c }
abbrev R.RXF_STATUS (c : Carrier) : Nat := 0x101002C0 + carOff c
abbrev R.RXF_CLIP_CNT (c : Carrier) : Nat := 0x10100300 + carOff c
abbrev R.RXF_LOS_CNT (c : Carrier) : Nat := 0x10100308 + carOff c
abbrev R.RXF_SF_LOSS_CNT (c : Carrier) : Nat := 0x10100310 + carOff c
abbrev R.RXF_SF_CNT (c : Carrier) : Nat := 0x10100318 + carOff c
abbrev F.EQZ_STATE_eq_state : Fld := { lsb := 0, width := 2 }
abbrev F.EQZ_STATE_pol_swap : Fld := { lsb := 2, width := 1 }
abbrev F.EQZ_STATE_needed : Fld := { lsb := 3, width := 4, reset := 8 }
abbrev F.EQZ_STATE_spares : Fld := { lsb := 7, width := 4, reset := 1 }
abbrev R.EQZ_STATE (c : Carrier) : Nat := 0x10200200 + carOff c
abbrev F.EQZ_CTRL_ntaps : Fld := { lsb := 0, width := 3, ty := .rw, st := true, hx := true, reset := 5, lim := .clamp 0 5 }
abbrev F.EQZ_CTRL_sop_en : Fld := { lsb := 3, width := 1, ty := .rw, st := true, hx := true, reset := 1 }
abbrev F.EQZ_CTRL_mu_eq : Fld := { lsb := 4, width := 4, ty := .rw, st := true, hx := true, reset := 6 }
abbrev F.EQZ_CTRL_mu_sop : Fld := { lsb := 8, width := 4, ty := .rw, st := true, hx := true, reset := 5 }
abbrev F.EQZ_CTRL_dd_en : Fld := { lsb := 12, width := 1, ty := .rw, st := true, hx := true, reset := 1 }
abbrev F.EQZ_CTRL_slice_thr : Fld := { lsb := 14, width := 4, ty := .rw, st := true, hx := true, reset := 6, lim := .clamp 1 15 }
abbrev R.EQZ_CTRL (c : Carrier) : Nat := 0x10200204 + carOff c
abbrev F.EQZ_SLICE_MAP_roles : Fld := { lsb := 0, width := 18, reset := 0x10000 }
abbrev R.EQZ_SLICE_MAP (c : Carrier) : Nat := 0x10200210 + carOff c
abbrev F.EQZ_SHADOW_STATUS_shadow_age : Fld := { lsb := 0, width := 8, reset := 255 }
abbrev F.EQZ_SHADOW_STATUS_shadow_valid : Fld := { lsb := 8, width := 1 }
abbrev R.EQZ_SHADOW_STATUS (c : Carrier) : Nat := 0x10200214 + carOff c
abbrev F.EQZ_SOP_STATUS_sop_rate : Fld := { lsb := 0, width := 16 }
abbrev F.EQZ_SOP_STATUS_sop_peak : Fld := { lsb := 16, width := 16, ty := .rc }
abbrev R.EQZ_SOP_STATUS (c : Carrier) : Nat := 0x10200220 + carOff c
abbrev F.EQZ_DGD_STATUS_dgd : Fld := { lsb := 0, width := 12 }
abbrev R.EQZ_DGD_STATUS (c : Carrier) : Nat := 0x10200224 + carOff c
abbrev F.EQZ_STATUS_cfg_lim : Fld := { lsb := 0, width := 1, ty := .w1c }
abbrev F.EQZ_STATUS_slice_fault : Fld := { lsb := 1, width := 1, ty := .w1c }
abbrev F.EQZ_STATUS_no_spare : Fld := { lsb := 2, width := 1, ty := .w1c }
abbrev F.EQZ_STATUS_shadow_stale : Fld := { lsb := 3, width := 1, ty := .w1c }
abbrev F.EQZ_STATUS_sop_over : Fld := { lsb := 4, width := 1, ty := .w1c }
abbrev F.EQZ_STATUS_diverge : Fld := { lsb := 5, width := 1, ty := .w1c }
abbrev F.EQZ_STATUS_engine_fault : Fld := { lsb := 6, width := 1, ty := .w1c }
abbrev R.EQZ_STATUS (c : Carrier) : Nat := 0x102002C0 + carOff c
abbrev F.CRR_STATE_cr_state : Fld := { lsb := 0, width := 2 }
abbrev F.CRR_STATE_llr_valid : Fld := { lsb := 2, width := 1 }
abbrev R.CRR_STATE (c : Carrier) : Nat := 0x10300200 + carOff c
abbrev F.CRR_CTRL_bps_en : Fld := { lsb := 0, width := 1, ty := .rw, st := true, hx := true, reset := 1 }
abbrev F.CRR_CTRL_pilot_avg : Fld := { lsb := 1, width := 3, ty := .rw, st := true, hx := true, reset := 3 }
abbrev F.CRR_CTRL_bps_half : Fld := { lsb := 4, width := 5, ty := .rw, st := true, hx := true, reset := 16, lim := .clamp 4 31 }
abbrev F.CRR_CTRL_freq_bw : Fld := { lsb := 9, width := 2, ty := .rw, st := true, hx := true, reset := 1 }
abbrev F.CRR_CTRL_llr_scale : Fld := { lsb := 11, width := 5, ty := .rw, st := true, hx := true, reset := 8, lim := .clamp 1 31 }
abbrev R.CRR_CTRL (c : Carrier) : Nat := 0x10300204 + carOff c
abbrev F.CRR_FREQ_STATUS_offset : Fld := { lsb := 0, width := 18 }
abbrev R.CRR_FREQ_STATUS (c : Carrier) : Nat := 0x10300210 + carOff c
abbrev F.CRR_SNR_snr_x : Fld := { lsb := 0, width := 12 }
abbrev F.CRR_SNR_snr_y : Fld := { lsb := 16, width := 12 }
abbrev R.CRR_SNR (c : Carrier) : Nat := 0x10300220 + carOff c
abbrev F.CRR_SNR_AVG_snr_avg16 : Fld := { lsb := 0, width := 12 }
abbrev F.CRR_SNR_AVG_count : Fld := { lsb := 12, width := 5 }
abbrev R.CRR_SNR_AVG (c : Carrier) : Nat := 0x10300224 + carOff c
abbrev F.CRR_GMI_gmi_x : Fld := { lsb := 0, width := 13 }
abbrev F.CRR_GMI_gmi_y : Fld := { lsb := 16, width := 13 }
abbrev R.CRR_GMI (c : Carrier) : Nat := 0x10300228 + carOff c
abbrev F.CRR_STATUS_cfg_lim : Fld := { lsb := 0, width := 1, ty := .w1c }
abbrev F.CRR_STATUS_freq_range : Fld := { lsb := 1, width := 1, ty := .w1c }
abbrev F.CRR_STATUS_lock_loss : Fld := { lsb := 2, width := 1, ty := .w1c }
abbrev F.CRR_STATUS_slip : Fld := { lsb := 3, width := 1, ty := .w1c }
abbrev F.CRR_STATUS_engine_fault : Fld := { lsb := 4, width := 1, ty := .w1c }
abbrev F.CRR_STATUS_below_thr : Fld := { lsb := 5, width := 1, ty := .w1c }
abbrev R.CRR_STATUS (c : Carrier) : Nat := 0x103002C0 + carOff c
abbrev F.FEC_STATE_enc_run : Fld := { lsb := 0, width := 1 }
abbrev F.FEC_STATE_blk_lock : Fld := { lsb := 1, width := 1 }
abbrev F.FEC_STATE_lock_phase : Fld := { lsb := 2, width := 6 }
abbrev F.FEC_STATE_seeded : Fld := { lsb := 8, width := 8 }
abbrev F.FEC_STATE_spares : Fld := { lsb := 16, width := 4, reset := 1 }
abbrev R.FEC_STATE (c : Carrier) : Nat := 0x10400200 + carOff c
abbrev F.FEC_CTRL_iter_max : Fld := { lsb := 0, width := 5, ty := .rw, st := true, hx := true, reset := 18, lim := .clamp 1 18 }
abbrev F.FEC_CTRL_et_en : Fld := { lsb := 5, width := 1, ty := .rw, st := true, hx := true, reset := 1 }
abbrev F.FEC_CTRL_excess_thr : Fld := { lsb := 6, width := 4, ty := .rw, st := true, hx := true, reset := 4, lim := .clamp 2 15 }
abbrev R.FEC_CTRL (c : Carrier) : Nat := 0x10400204 + carOff c
abbrev F.FEC_ENGINE_MAP_roles : Fld := { lsb := 0, width := 18, reset := 0x10000 }
abbrev R.FEC_ENGINE_MAP (c : Carrier) : Nat := 0x10400210 + carOff c
abbrev F.FEC_CHAIN_MAP_engines : Fld := { lsb := 0, width := 32, reset := 0x76543210 }
abbrev R.FEC_CHAIN_MAP (c : Carrier) : Nat := 0x10400214 + carOff c
abbrev F.FEC_GMI_gmi_x : Fld := { lsb := 0, width := 13 }
abbrev F.FEC_GMI_gmi_y : Fld := { lsb := 16, width := 13 }
abbrev R.FEC_GMI (c : Carrier) : Nat := 0x10400220 + carOff c
abbrev F.FEC_IOP_CFG_iop_mode : Fld := { lsb := 0, width := 2, ty := .rw, st := true, hx := true }
abbrev R.FEC_IOP_CFG (c : Carrier) : Nat := 0x10400230 + carOff c
abbrev F.FEC_STATUS_cfg_lim : Fld := { lsb := 0, width := 1, ty := .w1c }
abbrev F.FEC_STATUS_dec_fault : Fld := { lsb := 1, width := 1, ty := .w1c }
abbrev F.FEC_STATUS_no_spare : Fld := { lsb := 2, width := 1, ty := .w1c }
abbrev F.FEC_STATUS_enc_fault : Fld := { lsb := 3, width := 1, ty := .w1c }
abbrev F.FEC_STATUS_lock_loss : Fld := { lsb := 4, width := 1, ty := .w1c }
abbrev F.FEC_STATUS_seed_fail : Fld := { lsb := 5, width := 1, ty := .w1c }
abbrev F.FEC_STATUS_dm_invalid : Fld := { lsb := 6, width := 1, ty := .w1c }
abbrev F.FEC_STATUS_uncorr : Fld := { lsb := 7, width := 1, ty := .w1c }
abbrev R.FEC_STATUS (c : Carrier) : Nat := 0x104002C0 + carOff c
abbrev F.HAIL_STATE_tx_cond : Fld := { lsb := 0, width := 2 }
abbrev F.HAIL_STATE_rx_cond : Fld := { lsb := 2, width := 2 }
abbrev F.HAIL_STATE_rx_state : Fld := { lsb := 4, width := 2 }
abbrev F.HAIL_STATE_tx_fifo : Fld := { lsb := 6, width := 5 }
abbrev F.HAIL_STATE_rx_pending : Fld := { lsb := 11, width := 7 }
abbrev R.HAIL_STATE (c : Carrier) : Nat := 0x10600200 + carOff c
abbrev F.HAIL_CFG_corr_thr : Fld := { lsb := 0, width := 8, ty := .rw, st := true, hx := true, reset := 80, lim := .clamp 1 255 }
abbrev F.HAIL_CFG_win_thr : Fld := { lsb := 8, width := 8, ty := .rw, st := true, hx := true, reset := 64, lim := .clamp 1 255 }
abbrev F.HAIL_CFG_loss_ms : Fld := { lsb := 16, width := 8, ty := .rw, st := true, hx := true, reset := 10, lim := .clamp 1 255 }
abbrev R.HAIL_CFG (c : Carrier) : Nat := 0x10600204 + carOff c
abbrev F.HAIL_RX_STATUS_offset : Fld := { lsb := 0, width := 14 }
abbrev F.HAIL_RX_STATUS_lock_metric : Fld := { lsb := 16, width := 8 }
abbrev F.HAIL_RX_STATUS_agc_gain : Fld := { lsb := 24, width := 8 }
abbrev R.HAIL_RX_STATUS (c : Carrier) : Nat := 0x10600210 + carOff c
abbrev F.HAIL_SEQ_tx_seq : Fld := { lsb := 0, width := 8 }
abbrev F.HAIL_SEQ_rx_seq : Fld := { lsb := 8, width := 8 }
abbrev R.HAIL_SEQ (c : Carrier) : Nat := 0x10600214 + carOff c
abbrev F.HAIL_STATUS_cfg_lim : Fld := { lsb := 0, width := 1, ty := .w1c }
abbrev F.HAIL_STATUS_false_start : Fld := { lsb := 1, width := 1, ty := .w1c }
abbrev F.HAIL_STATUS_capture : Fld := { lsb := 2, width := 1, ty := .w1c }
abbrev F.HAIL_STATUS_hdr_invalid : Fld := { lsb := 3, width := 1, ty := .w1c }
abbrev F.HAIL_STATUS_crc32_fail : Fld := { lsb := 4, width := 1, ty := .w1c }
abbrev F.HAIL_STATUS_burst_lost : Fld := { lsb := 5, width := 1, ty := .w1c }
abbrev F.HAIL_STATUS_hail_loss : Fld := { lsb := 6, width := 1, ty := .w1c }
abbrev F.HAIL_STATUS_rx_overflow : Fld := { lsb := 7, width := 1, ty := .w1c }
abbrev F.HAIL_STATUS_seq_gap : Fld := { lsb := 8, width := 1, ty := .w1c }
abbrev F.HAIL_STATUS_tx_cut : Fld := { lsb := 9, width := 1, ty := .w1c }
abbrev F.HAIL_STATUS_engine_fault : Fld := { lsb := 10, width := 1, ty := .w1c }
abbrev R.HAIL_STATUS (c : Carrier) : Nat := 0x106002C0 + carOff c
abbrev F.OSP_CFG_div : Fld := { lsb := 0, width := 8, ty := .rw, hx := true, reset := 5, lim := .clamp 5 255 }
abbrev F.OSP_CFG_fill : Fld := { lsb := 8, width := 8, ty := .rw, hx := true, reset := 126 }
abbrev F.OSP_CFG_enable : Fld := { lsb := 16, width := 1, ty := .rw, hx := true }
abbrev R.OSP_CFG (n : Nat) : Nat := 0x1C004000 + 4 * n
abbrev F.OSP_STATUS_rx_ovf : Fld := { lsb := 0, width := 1, ty := .w1c }
abbrev F.OSP_STATUS_ins_ovf : Fld := { lsb := 1, width := 1, ty := .w1c }
abbrev F.OSP_STATUS_rx_fill : Fld := { lsb := 2, width := 3 }
abbrev F.OSP_STATUS_ins_fill : Fld := { lsb := 5, width := 3 }
abbrev R.OSP_STATUS (n : Nat) : Nat := 0x1C004020 + 4 * n
abbrev F.FRM_STATE_in_frame : Fld := { lsb := 0, width := 1 }
abbrev F.FRM_STATE_in_mf : Fld := { lsb := 1, width := 1 }
abbrev F.FRM_STATE_candidates : Fld := { lsb := 2, width := 3 }
abbrev F.FRM_STATE_cal_run : Fld := { lsb := 5, width := 1 }
abbrev F.FRM_STATE_map_sel_rx : Fld := { lsb := 6, width := 1 }
abbrev R.FRM_STATE (c : Carrier) : Nat := 0x10500200 + carOff c
abbrev F.FRM_DEFECT_los : Fld := { lsb := 0, width := 1 }
abbrev F.FRM_DEFECT_oof : Fld := { lsb := 1, width := 1, reset := 1 }
abbrev F.FRM_DEFECT_lof : Fld := { lsb := 2, width := 1 }
abbrev F.FRM_DEFECT_oom : Fld := { lsb := 3, width := 1, reset := 1 }
abbrev F.FRM_DEFECT_lom : Fld := { lsb := 4, width := 1 }
abbrev F.FRM_DEFECT_deg : Fld := { lsb := 5, width := 1 }
abbrev F.FRM_DEFECT_cph : Fld := { lsb := 6, width := 1 }
abbrev F.FRM_DEFECT_bdi_far : Fld := { lsb := 7, width := 1 }
abbrev F.FRM_DEFECT_bsd_far : Fld := { lsb := 8, width := 1 }
abbrev F.FRM_DEFECT_bdi_tx : Fld := { lsb := 9, width := 1 }
abbrev F.FRM_DEFECT_repl : Fld := { lsb := 10, width := 1 }
abbrev R.FRM_DEFECT (c : Carrier) : Nat := 0x10500204 + carOff c
abbrev F.FRM_CFG_deg_thr : Fld := { lsb := 0, width := 8, ty := .rw, st := true, hx := true, reset := 16, lim := .clamp 1 255 }
abbrev F.FRM_CFG_deg_m : Fld := { lsb := 8, width := 6, ty := .rw, st := true, hx := true, reset := 8, lim := .clamp 2 63 }
abbrev R.FRM_CFG (c : Carrier) : Nat := 0x10500208 + carOff c
abbrev F.FRM_CA_CFG_bdi_en : Fld := { lsb := 0, width := 8, ty := .rw, st := true, hx := true, reset := 255 }
abbrev F.FRM_CA_CFG_repl_en : Fld := { lsb := 8, width := 8, ty := .rw, st := true, hx := true, reset := 255 }
abbrev R.FRM_CA_CFG (c : Carrier) : Nat := 0x1050020C + carOff c
abbrev F.FRM_STATUS_cfg_lim : Fld := { lsb := 0, width := 1, ty := .w1c }
abbrev F.FRM_STATUS_lof_seen : Fld := { lsb := 1, width := 1, ty := .w1c }
abbrev F.FRM_STATUS_lom_seen : Fld := { lsb := 2, width := 1, ty := .w1c }
abbrev F.FRM_STATUS_deg_seen : Fld := { lsb := 3, width := 1, ty := .w1c }
abbrev F.FRM_STATUS_bdi_seen : Fld := { lsb := 4, width := 1, ty := .w1c }
abbrev F.FRM_STATUS_rp_err : Fld := { lsb := 5, width := 1, ty := .w1c }
abbrev F.FRM_STATUS_cal_err : Fld := { lsb := 6, width := 1, ty := .w1c }
abbrev F.FRM_STATUS_engine_fault : Fld := { lsb := 7, width := 1, ty := .w1c }
abbrev R.FRM_STATUS (c : Carrier) : Nat := 0x105002C0 + carOff c
abbrev F.CLM_CLIENT_CFG_enable : Fld := { lsb := 0, width := 1, ty := .rw, st := true, hx := true }
abbrev F.CLM_CLIENT_CFG_carrier : Fld := { lsb := 1, width := 1, ty := .rw, st := true, hx := true }
abbrev F.CLM_CLIENT_CFG_kind : Fld := { lsb := 2, width := 1, ty := .rw, st := true, hx := true }
abbrev F.CLM_CLIENT_CFG_src_type : Fld := { lsb := 3, width := 3, ty := .rw, st := true, hx := true }
abbrev F.CLM_CLIENT_CFG_src_index : Fld := { lsb := 6, width := 7, ty := .rw, st := true, hx := true }
abbrev F.CLM_CLIENT_CFG_eth_type : Fld := { lsb := 13, width := 3, ty := .rw, st := true, hx := true }
abbrev F.CLM_CLIENT_CFG_lane_rate : Fld := { lsb := 16, width := 2, ty := .rw, st := true, hx := true }
abbrev F.CLM_CLIENT_CFG_rx_trib : Fld := { lsb := 18, width := 7, ty := .rw, st := true, hx := true, isIdx := true }
abbrev F.CLM_CLIENT_CFG_pb : Fld := { lsb := 25, width := 6, ty := .rw, st := true, hx := true }
abbrev R.CLM_CLIENT_CFG (n : Nat) : Nat := 0x12001000 + 8 * n
abbrev F.CLM_CLIENT_STATUS_tx_slots : Fld := { lsb := 0, width := 9 }
abbrev F.CLM_CLIENT_STATUS_rx_slots : Fld := { lsb := 9, width := 9 }
abbrev F.CLM_CLIENT_STATUS_repl : Fld := { lsb := 18, width := 1 }
abbrev F.CLM_CLIENT_STATUS_host_fail : Fld := { lsb := 19, width := 1 }
abbrev F.CLM_CLIENT_STATUS_below_bound : Fld := { lsb := 20, width := 1 }
abbrev R.CLM_CLIENT_STATUS (n : Nat) : Nat := 0x12001004 + 8 * n
abbrev F.CLM_FLEXE_GRP_enable : Fld := { lsb := 0, width := 1, ty := .rw, st := true, hx := true }
abbrev F.CLM_FLEXE_GRP_phy_type : Fld := { lsb := 1, width := 2, ty := .rw, st := true, hx := true }
abbrev F.CLM_FLEXE_GRP_first_lane : Fld := { lsb := 3, width := 5, ty := .rw, st := true, hx := true }
abbrev F.CLM_FLEXE_GRP_phys : Fld := { lsb := 8, width := 4, ty := .rw, st := true, hx := true, reset := 1, lim := .free }
abbrev F.CLM_FLEXE_GRP_lane_rate : Fld := { lsb := 12, width := 2, ty := .rw, st := true, hx := true }
abbrev F.CLM_FLEXE_GRP_cal_sel : Fld := { lsb := 14, width := 1, ty := .rw, st := true, hx := true }
abbrev F.CLM_FLEXE_GRP_cal_act : Fld := { lsb := 15, width := 1 }
abbrev R.CLM_FLEXE_GRP (n : Nat) : Nat := 0x12000400 + 8 * n
abbrev F.CLM_CFG_STATUS_cfg_err : Fld := { lsb := 0, width := 4 }
abbrev F.CLM_CFG_STATUS_staged_diff : Fld := { lsb := 4, width := 1 }
abbrev F.CLM_CFG_STATUS_err_client : Fld := { lsb := 8, width := 7 }
abbrev R.CLM_CFG_STATUS : Nat := 0x12000200
abbrev F.CLM_STATUS_cfg_lim : Fld := { lsb := 0, width := 1, ty := .w1c }
abbrev F.CLM_STATUS_overrun : Fld := { lsb := 1, width := 1, ty := .w1c }
abbrev F.CLM_STATUS_underrun : Fld := { lsb := 2, width := 1, ty := .w1c }
abbrev F.CLM_STATUS_engine_fault : Fld := { lsb := 3, width := 1, ty := .w1c }
abbrev R.CLM_STATUS : Nat := 0x120002C0
abbrev F.BRT_PB_00_pol_en : Fld := { lsb := 0, width := 1, ty := .rw, st := true, hx := true }
abbrev F.BRT_PB_00_shp_en : Fld := { lsb := 1, width := 1, ty := .rw, st := true, hx := true, reset := 1 }
abbrev F.BRT_PB_00_pol_fill : Fld := { lsb := 2, width := 1, ty := .rw, st := true, hx := true, reset := 1 }
abbrev F.BRT_PB_00_shp_fill : Fld := { lsb := 3, width := 1, ty := .rw, st := true, hx := true }
abbrev F.BRT_PB_00_overhead : Fld := { lsb := 4, width := 6, ty := .rw, st := true, hx := true, reset := 20 }
abbrev F.BRT_PB_00_max_frame : Fld := { lsb := 10, width := 14, ty := .rw, st := true, hx := true, reset := 0x2400, lim := .clamp 64 16000 }
abbrev R.BRT_PB_00 (n : Nat) : Nat := 0x12101000 + 32 * n
abbrev F.BRT_PB_04_cir : Fld := { lsb := 0, width := 21, ty := .rw, st := true, hx := true, lim := .clamp 0 2000000 }
abbrev R.BRT_PB_04 (n : Nat) : Nat := 0x12101004 + 32 * n
abbrev F.BRT_PB_08_pir : Fld := { lsb := 0, width := 21, ty := .rw, st := true, hx := true, lim := .clamp 0 2000000 }
abbrev R.BRT_PB_08 (n : Nat) : Nat := 0x12101008 + 32 * n
abbrev F.BRT_PB_0C_cbs : Fld := { lsb := 0, width := 24, ty := .rw, st := true, hx := true, reset := 0x4000 }
abbrev R.BRT_PB_0C (n : Nat) : Nat := 0x1210100C + 32 * n
abbrev F.BRT_PB_10_pbs : Fld := { lsb := 0, width := 24, ty := .rw, st := true, hx := true, reset := 0x4000 }
abbrev R.BRT_PB_10 (n : Nat) : Nat := 0x12101010 + 32 * n
abbrev F.BRT_PB_14_shp_rate : Fld := { lsb := 0, width := 21, ty := .rw, st := true, hx := true, lim := .clamp 0 2000000 }
abbrev R.BRT_PB_14 (n : Nat) : Nat := 0x12101014 + 32 * n
abbrev F.BRT_PB_18_shp_burst : Fld := { lsb := 0, width := 24, ty := .rw, st := true, hx := true, reset := 0x4000 }
abbrev R.BRT_PB_18 (n : Nat) : Nat := 0x12101018 + 32 * n
abbrev F.BRT_PB_1C_buf_max : Fld := { lsb := 0, width := 15, ty := .rw, st := true, hx := true, reset := 384, lim := .clamp 0 24576 }
abbrev F.BRT_PB_1C_yel_thr : Fld := { lsb := 16, width := 15, ty := .rw, st := true, hx := true, reset := 192, lim := .clamp 0 24576 }
abbrev R.BRT_PB_1C (n : Nat) : Nat := 0x1210101C + 32 * n
abbrev F.BRT_PB_STATUS_occupancy : Fld := { lsb := 0, width := 15 }
abbrev F.BRT_PB_STATUS_gate : Fld := { lsb := 15, width := 2 }
abbrev F.BRT_PB_STATUS_sync : Fld := { lsb := 17, width := 1 }
abbrev F.BRT_PB_STATUS_slots : Fld := { lsb := 18, width := 9 }
abbrev R.BRT_PB_STATUS (n : Nat) : Nat := 0x12101800 + 4 * n
abbrev F.BRT_STATUS_cfg_lim : Fld := { lsb := 0, width := 1, ty := .w1c }
abbrev F.BRT_STATUS_pool_full : Fld := { lsb := 1, width := 1, ty := .w1c }
abbrev F.BRT_STATUS_hunt : Fld := { lsb := 2, width := 1, ty := .w1c }
abbrev F.BRT_STATUS_engine_fault : Fld := { lsb := 3, width := 1, ty := .w1c }
abbrev F.BRT_STATUS_free_cells : Fld := { lsb := 4, width := 15, reset := 0x6000 }
abbrev R.BRT_STATUS : Nat := 0x121002C0
abbrev F.HLN_LANE_CFG_tx_precode : Fld := { lsb := 0, width := 1, ty := .rw, st := true, hx := true }
abbrev F.HLN_LANE_CFG_rx_precode : Fld := { lsb := 1, width := 1, ty := .rw, st := true, hx := true }
abbrev F.HLN_LANE_CFG_tx_inv : Fld := { lsb := 2, width := 1, ty := .rw, st := true, hx := true }
abbrev F.HLN_LANE_CFG_rx_inv : Fld := { lsb := 3, width := 1, ty := .rw, st := true, hx := true }
abbrev F.HLN_LANE_CFG_preset : Fld := { lsb := 4, width := 3, ty := .rw, st := true, hx := true, lim := .clamp 0 4 }
abbrev R.HLN_LANE_CFG (n : Nat) : Nat := 0x13001000 + 16 * n
abbrev F.HLN_LANE_STATUS_pstate : Fld := { lsb := 0, width := 2, reset := 2 }
abbrev F.HLN_LANE_STATUS_los : Fld := { lsb := 2, width := 1 }
abbrev F.HLN_LANE_STATUS_cdr_lock : Fld := { lsb := 3, width := 1 }
abbrev F.HLN_LANE_STATUS_rx_ready : Fld := { lsb := 4, width := 1 }
abbrev F.HLN_LANE_STATUS_rate : Fld := { lsb := 5, width := 2 }
abbrev F.HLN_LANE_STATUS_snr : Fld := { lsb := 8, width := 10 }
abbrev R.HLN_LANE_STATUS (n : Nat) : Nat := 0x13001004 + 16 * n
abbrev F.HLN_GRP_CFG_ref_sel : Fld := { lsb := 0, width := 1, ty := .rw, st := true, hx := true }
abbrev R.HLN_GRP_CFG (n : Nat) : Nat := 0x13000100 + 4 * n
abbrev F.QLK_CTRL_enable : Fld := { lsb := 0, width := 1, ty := .rw, st := true, hx := true }
abbrev R.QLK_CTRL : Nat := 0x13100200
abbrev F.QLK_STATE_locked : Fld := { lsb := 0, width := 8 }
abbrev F.QLK_STATE_deskewed : Fld := { lsb := 8, width := 1 }
abbrev F.QLK_STATE_link_up : Fld := { lsb := 9, width := 1 }
abbrev F.QLK_STATE_tx_map_sel : Fld := { lsb := 10, width := 1 }
abbrev F.QLK_STATE_rx_map_sel : Fld := { lsb := 11, width := 1 }
abbrev R.QLK_STATE : Nat := 0x13100204
abbrev F.QLK_SEQ_TX_seq : Fld := { lsb := 0, width := 32 }
abbrev R.QLK_SEQ_TX : Nat := 0x13100208
abbrev F.QLK_SEQ_RX_seq : Fld := { lsb := 0, width := 32 }
abbrev R.QLK_SEQ_RX : Nat := 0x1310020C
abbrev F.HLN_STATUS_cfg_lim : Fld := { lsb := 0, width := 1, ty := .w1c }
abbrev F.HLN_STATUS_los_seen : Fld := { lsb := 1, width := 1, ty := .w1c }
abbrev F.HLN_STATUS_lane_fault : Fld := { lsb := 2, width := 1, ty := .w1c }
abbrev F.HLN_STATUS_mis_wire : Fld := { lsb := 3, width := 1, ty := .w1c }
abbrev F.HLN_STATUS_deskew_err : Fld := { lsb := 4, width := 1, ty := .w1c }
abbrev F.HLN_STATUS_link_down : Fld := { lsb := 5, width := 1, ty := .w1c }
abbrev R.HLN_STATUS : Nat := 0x130002C0
abbrev F.QLK_STATUS_cfg_lim : Fld := { lsb := 0, width := 1, ty := .w1c }
abbrev F.QLK_STATUS_los_seen : Fld := { lsb := 1, width := 1, ty := .w1c }
abbrev F.QLK_STATUS_lane_fault : Fld := { lsb := 2, width := 1, ty := .w1c }
abbrev F.QLK_STATUS_mis_wire : Fld := { lsb := 3, width := 1, ty := .w1c }
abbrev F.QLK_STATUS_deskew_err : Fld := { lsb := 4, width := 1, ty := .w1c }
abbrev F.QLK_STATUS_link_down : Fld := { lsb := 5, width := 1, ty := .w1c }
abbrev R.QLK_STATUS : Nat := 0x131002C0
abbrev F.CPH_STATE_healthy : Fld := { lsb := 0, width := 5, reset := 26 }
abbrev F.CPH_STATE_needed : Fld := { lsb := 5, width := 5 }
abbrev F.CPH_STATE_spares : Fld := { lsb := 10, width := 5, reset := 26 }
abbrev F.CPH_STATE_prog_ok : Fld := { lsb := 15, width := 1 }
abbrev F.CPH_STATE_shedding : Fld := { lsb := 16, width := 1 }
abbrev F.CPH_STATE_unrec_a : Fld := { lsb := 17, width := 1 }
abbrev F.CPH_STATE_unrec_b : Fld := { lsb := 18, width := 1 }
abbrev F.CPH_STATE_prog_ver : Fld := { lsb := 24, width := 8 }
abbrev R.CPH_STATE : Nat := 0x14000200
abbrev F.CPH_UNIT_MAP0_roles : Fld := { lsb := 0, width := 32, reset := 0x55555555 }
abbrev R.CPH_UNIT_MAP0 : Nat := 0x14000210
abbrev F.CPH_UNIT_MAP1_roles : Fld := { lsb := 0, width := 20, reset := 0x55555 }
abbrev R.CPH_UNIT_MAP1 : Nat := 0x14000214
abbrev F.CPH_CLIENT_STATUS_tx_mode : Fld := { lsb := 0, width := 2 }
abbrev F.CPH_CLIENT_STATUS_rx_mode : Fld := { lsb := 2, width := 2 }
abbrev F.CPH_CLIENT_STATUS_tx_slot : Fld := { lsb := 4, width := 2 }
abbrev F.CPH_CLIENT_STATUS_rx_slot : Fld := { lsb := 6, width := 2 }
abbrev F.CPH_CLIENT_STATUS_tx_active : Fld := { lsb := 8, width := 1 }
abbrev F.CPH_CLIENT_STATUS_rx_active : Fld := { lsb := 9, width := 1 }
abbrev F.CPH_CLIENT_STATUS_tx_squelch : Fld := { lsb := 10, width := 1 }
abbrev F.CPH_CLIENT_STATUS_rx_squelch : Fld := { lsb := 11, width := 1 }
abbrev F.CPH_CLIENT_STATUS_rx_fail : Fld := { lsb := 12, width := 1 }
abbrev F.CPH_CLIENT_STATUS_shed : Fld := { lsb := 13, width := 1 }
abbrev F.CPH_CLIENT_STATUS_tx_next : Fld := { lsb := 14, width := 1 }
abbrev F.CPH_CLIENT_STATUS_rx_next : Fld := { lsb := 15, width := 1 }
abbrev F.CPH_CLIENT_STATUS_tx_age : Fld := { lsb := 16, width := 10 }
abbrev R.CPH_CLIENT_STATUS (n : Nat) : Nat := 0x14001000 + 4 * n
abbrev F.CPH_STATUS_mismatch : Fld := { lsb := 0, width := 1, ty := .w1c }
abbrev F.CPH_STATUS_abandon : Fld := { lsb := 1, width := 1, ty := .w1c }
abbrev F.CPH_STATUS_squelch : Fld := { lsb := 2, width := 1, ty := .w1c }
abbrev F.CPH_STATUS_auth_fail : Fld := { lsb := 3, width := 1, ty := .w1c }
abbrev F.CPH_STATUS_rx_fail : Fld := { lsb := 4, width := 1, ty := .w1c }
abbrev F.CPH_STATUS_shed : Fld := { lsb := 5, width := 1, ty := .w1c }
abbrev F.CPH_STATUS_engine_fault : Fld := { lsb := 6, width := 1, ty := .w1c }
abbrev F.CPH_STATUS_win_stall : Fld := { lsb := 7, width := 1, ty := .w1c }
abbrev F.CPH_STATUS_zeroised : Fld := { lsb := 8, width := 1, ty := .w1c }
abbrev R.CPH_STATUS : Nat := 0x140002C0
abbrev F.SEC_STATE_state : Fld := { lsb := 0, width := 3 }
abbrev F.SEC_STATE_debug_open : Fld := { lsb := 3, width := 1 }
abbrev F.SEC_STATE_zeroize_held : Fld := { lsb := 4, width := 1 }
abbrev F.SEC_STATE_cipher_absent : Fld := { lsb := 5, width := 1 }
abbrev F.SEC_STATE_fail_code : Fld := { lsb := 8, width := 8 }
abbrev F.SEC_STATE_anchor_state : Fld := { lsb := 16, width := 8 }
abbrev F.SEC_STATE_rom_ver : Fld := { lsb := 24, width := 8 }
abbrev R.SEC_STATE : Nat := 0x1F000000
abbrev F.SEC_SESS_A_sess_state : Fld := { lsb := 0, width := 3 }
abbrev F.SEC_SESS_A_role : Fld := { lsb := 3, width := 1 }
abbrev F.SEC_SESS_A_act_pending_tx : Fld := { lsb := 4, width := 1 }
abbrev F.SEC_SESS_A_act_pending_rx : Fld := { lsb := 5, width := 1 }
abbrev F.SEC_SESS_A_last_abort : Fld := { lsb := 8, width := 8 }
abbrev R.SEC_SESS_A : Nat := 0x1F000200
abbrev F.SEC_SESS_B_sess_state : Fld := { lsb := 0, width := 3 }
abbrev F.SEC_SESS_B_role : Fld := { lsb := 3, width := 1 }
abbrev F.SEC_SESS_B_act_pending_tx : Fld := { lsb := 4, width := 1 }
abbrev F.SEC_SESS_B_act_pending_rx : Fld := { lsb := 5, width := 1 }
abbrev F.SEC_SESS_B_last_abort : Fld := { lsb := 8, width := 8 }
abbrev R.SEC_SESS_B : Nat := 0x1F000300
abbrev F.SEC_CH_CTRL_go : Fld := { lsb := 0, width := 1, ty := .w1s }
abbrev R.SEC_CH_CTRL (n : Nat) : Nat := 0x1F000800 + 16 * n
abbrev F.SEC_CH_STATUS_busy : Fld := { lsb := 0, width := 1 }
abbrev F.SEC_CH_STATUS_done : Fld := { lsb := 1, width := 1, ty := .w1c }
abbrev F.SEC_CH_STATUS_refused : Fld := { lsb := 2, width := 1, ty := .w1c }
abbrev F.SEC_CH_STATUS_result : Fld := { lsb := 8, width := 8 }
abbrev F.SEC_CH_STATUS_length : Fld := { lsb := 16, width := 14 }
abbrev R.SEC_CH_STATUS (n : Nat) : Nat := 0x1F000804 + 16 * n
abbrev F.PLT_CFG_wtr : Fld := { lsb := 0, width := 12, ty := .rw, st := true, hx := true, reset := 10, lim := .clamp 1 3600 }
abbrev F.PLT_CFG_revert_en : Fld := { lsb := 12, width := 1, ty := .rw, st := true, hx := true, reset := 1 }
abbrev F.PLT_CFG_wdog : Fld := { lsb := 14, width := 6, ty := .rw, st := true, hx := true, reset := 36, lim := .clamp 8 63 }
abbrev R.PLT_CFG : Nat := 0x1B000200
abbrev F.PLT_STATUS_active : Fld := { lsb := 0, width := 2 }
abbrev F.PLT_STATUS_role_a : Fld := { lsb := 2, width := 2 }
abbrev F.PLT_STATUS_role_b : Fld := { lsb := 4, width := 2, reset := 2 }
abbrev F.PLT_STATUS_pilot_ok : Fld := { lsb := 6, width := 1, reset := 1 }
abbrev F.PLT_STATUS_dual_active : Fld := { lsb := 7, width := 1 }
abbrev F.PLT_STATUS_wtr_run : Fld := { lsb := 8, width := 1 }
abbrev F.PLT_STATUS_force_a : Fld := { lsb := 9, width := 1 }
abbrev F.PLT_STATUS_force_b : Fld := { lsb := 10, width := 1 }
abbrev F.PLT_STATUS_selftest : Fld := { lsb := 11, width := 1 }
abbrev R.PLT_STATUS : Nat := 0x1B000204
abbrev F.PLT_WTR_REMAIN_remain : Fld := { lsb := 0, width := 12 }
abbrev R.PLT_WTR_REMAIN : Nat := 0x1B000208
abbrev F.PLT_LAST_cause : Fld := { lsb := 0, width := 4 }
abbrev F.PLT_LAST_from : Fld := { lsb := 8, width := 8 }
abbrev F.PLT_LAST_old_epoch : Fld := { lsb := 16, width := 16 }
abbrev R.PLT_LAST : Nat := 0x1B000210
abbrev F.PLT_STATUS_EV_cfg_lim : Fld := { lsb := 0, width := 1, ty := .w1c }
abbrev F.PLT_STATUS_EV_failover : Fld := { lsb := 1, width := 1, ty := .w1c }
abbrev F.PLT_STATUS_EV_revert : Fld := { lsb := 2, width := 1, ty := .w1c }
abbrev F.PLT_STATUS_EV_pilot_fail : Fld := { lsb := 3, width := 1, ty := .w1c }
abbrev F.PLT_STATUS_EV_forced : Fld := { lsb := 4, width := 1, ty := .w1c }
abbrev F.PLT_STATUS_EV_force_refused : Fld := { lsb := 5, width := 1, ty := .w1c }
abbrev F.PLT_STATUS_EV_force_conflict : Fld := { lsb := 6, width := 1, ty := .w1c }
abbrev F.PLT_STATUS_EV_selftest_fail : Fld := { lsb := 7, width := 1, ty := .w1c }
abbrev F.PLT_STATUS_EV_cold_resume : Fld := { lsb := 8, width := 1, ty := .w1c }
abbrev R.PLT_STATUS_EV : Nat := 0x1B0002C0
abbrev F.HWS_STATE_sync : Fld := { lsb := 0, width := 2, reset := 1 }
abbrev F.HWS_STATE_pending : Fld := { lsb := 3, width := 16 }
abbrev F.HWS_STATE_ext : Fld := { lsb := 19, width := 9 }
abbrev R.HWS_STATE : Nat := 0x1B100200
abbrev F.HWS_STATUS_overrun : Fld := { lsb := 0, width := 1, ty := .w1c }
abbrev F.HWS_STATUS_frame_err : Fld := { lsb := 1, width := 1, ty := .w1c }
abbrev F.HWS_STATUS_resync : Fld := { lsb := 2, width := 1, ty := .w1c }
abbrev R.HWS_STATUS : Nat := 0x1B1002C0
abbrev F.REF_STATE_dpll_state : Fld := { lsb := 0, width := 2 }
abbrev F.REF_STATE_st_code : Fld := { lsb := 2, width := 2 }
abbrev F.REF_STATE_sel_src : Fld := { lsb := 4, width := 5 }
abbrev F.REF_STATE_sel_valid : Fld := { lsb := 9, width := 1 }
abbrev F.REF_STATE_xtal_ok : Fld := { lsb := 10, width := 1, reset := 1 }
abbrev F.REF_STATE_tie_alarm : Fld := { lsb := 11, width := 1 }
abbrev F.REF_STATE_hold_oos : Fld := { lsb := 12, width := 1 }
abbrev F.REF_STATE_cfg_err : Fld := { lsb := 16, width := 4 }
abbrev R.REF_STATE : Nat := 0x16000200
abbrev F.REF_CFG_bw : Fld := { lsb := 0, width := 3, ty := .rw, st := true, hx := true, reset := 2, lim := .clamp 0 6 }
abbrev F.REF_CFG_force_en : Fld := { lsb := 3, width := 1, ty := .rw, st := true, hx := true }
abbrev F.REF_CFG_force_src : Fld := { lsb := 4, width := 5, ty := .rw, st := true, hx := true }
abbrev F.REF_CFG_tie_thr : Fld := { lsb := 12, width := 16, ty := .rw, st := true, hx := true, reset := 20, lim := .clamp 1 65535 }
abbrev R.REF_CFG : Nat := 0x16000204
abbrev F.REF_SLEW_slew_lim : Fld := { lsb := 0, width := 17, ty := .rw, st := true, hx := true, reset := 0x2710, lim := .clamp 10 100000 }
abbrev R.REF_SLEW : Nat := 0x16000208
abbrev F.REF_HOLD_CFG_hold_class : Fld := { lsb := 0, width := 3, ty := .rw, st := true, hx := true, lim := .hole 4 6 }
abbrev F.REF_HOLD_CFG_hold_avg : Fld := { lsb := 3, width := 12, ty := .rw, st := true, hx := true, reset := 60, lim := .clamp 1 3600 }
abbrev R.REF_HOLD_CFG : Nat := 0x1600020C
abbrev F.REF_STEER_steer : Fld := { lsb := 0, width := 32, ty := .rw, st := true, hx := true, lim := .sym 200000000 }
abbrev R.REF_STEER : Nat := 0x16000220
abbrev F.REF_DEVTIME_LO_devtime : Fld := { lsb := 0, width := 32 }
abbrev R.REF_DEVTIME_LO : Nat := 0x16000100
abbrev F.REF_DEVTIME_HI_devtime : Fld := { lsb := 0, width := 32 }
abbrev R.REF_DEVTIME_HI : Nat := 0x16000104
abbrev F.REF_DEVTIME_INC_inc : Fld := { lsb := 0, width := 32, ty := .rw, st := true, hx := true, reset := 0xc800000, lim := .clamp 0x0BE00000 0x0D200000 }
abbrev R.REF_DEVTIME_INC : Nat := 0x16000108
abbrev F.REF_SRC_CFG_enable : Fld := { lsb := 0, width := 1, ty := .rw, st := true, hx := true }
abbrev F.REF_SRC_CFG_rank : Fld := { lsb := 1, width := 3, ty := .rw, st := true, hx := true, reset := 7 }
abbrev F.REF_SRC_CFG_freq : Fld := { lsb := 4, width := 3, ty := .rw, st := true, hx := true, reset := 4 }
abbrev F.REF_SRC_CFG_lockout : Fld := { lsb := 7, width := 1, ty := .rw, st := true, hx := true }
abbrev F.REF_SRC_CFG_disq_ppm : Fld := { lsb := 8, width := 8, ty := .rw, st := true, hx := true, reset := 12, lim := .clamp 1 100 }
abbrev F.REF_SRC_CFG_wtr : Fld := { lsb := 16, width := 12, ty := .rw, st := true, hx := true, reset := 10, lim := .clamp 0 3600 }
abbrev R.REF_SRC_CFG (n : Nat) : Nat := 0x16001000 + 8 * n
abbrev F.REF_SRC_STATUS_qualified : Fld := { lsb := 0, width := 1 }
abbrev F.REF_SRC_STATUS_active : Fld := { lsb := 1, width := 1 }
abbrev F.REF_SRC_STATUS_reason : Fld := { lsb := 2, width := 3 }
abbrev R.REF_SRC_STATUS (n : Nat) : Nat := 0x16001004 + 8 * n
abbrev F.REF_PULSE_CFG_align_src : Fld := { lsb := 0, width := 3, ty := .rw, st := true, hx := true, lim := .hole 5 7 }
abbrev F.REF_PULSE_CFG_align_thr : Fld := { lsb := 8, width := 8, ty := .rw, st := true, hx := true, reset := 9, lim := .clamp 1 255 }
abbrev R.REF_PULSE_CFG : Nat := 0x16000300
abbrev F.REF_OUT_CFG_mode : Fld := { lsb := 0, width := 2, ty := .rw, st := true, hx := true }
abbrev F.REF_OUT_CFG_mode_pps : Fld := { lsb := 0, width := 2, ty := .rw, st := true, hx := true, lim := .clamp 0 1 }
abbrev F.REF_OUT_CFG_mode_sf : Fld := { lsb := 0, width := 2, ty := .rw, st := true, hx := true, lim := .clamp 0 2 }
abbrev R.REF_STEP : Nat := 0x16000240
abbrev R.REF_ALIGN_STEP : Nat := 0x16000248
abbrev F.REF_OUT_CFG_width : Fld := { lsb := 2, width := 16, ty := .rw, st := true, hx := true, lim := .clamp 1 65535 }
abbrev R.REF_OUT_CFG (n : Nat) : Nat := 0x16000310 + 4 * n
abbrev F.REF_OUT_CFG_width_pps : Fld := { lsb := 2, width := 16, ty := .rw, st := true, hx := true, reset := 25000, lim := .clamp 1 65535 }
abbrev F.REF_OUT_CFG_width_sf : Fld := { lsb := 2, width := 16, ty := .rw, st := true, hx := true, reset := 64, lim := .clamp 1 65535 }
abbrev F.REF_ROOT_LOSS_lost : Fld := { lsb := 0, width := 1, ty := .w1c }
abbrev R.REF_ROOT_LOSS : Nat := 0x16000250
abbrev F.REF_STATUS_cfg_lim : Fld := { lsb := 0, width := 1, ty := .w1c }
abbrev F.REF_STATUS_switch : Fld := { lsb := 1, width := 1, ty := .w1c }
abbrev F.REF_STATUS_tie : Fld := { lsb := 2, width := 1, ty := .w1c }
abbrev F.REF_STATUS_hold_entered : Fld := { lsb := 3, width := 1, ty := .w1c }
abbrev F.REF_STATUS_hold_oos : Fld := { lsb := 4, width := 1, ty := .w1c }
abbrev F.REF_STATUS_xtal_loss : Fld := { lsb := 5, width := 1, ty := .w1c }
abbrev F.REF_STATUS_realign : Fld := { lsb := 6, width := 1, ty := .w1c }
abbrev F.REF_STATUS_engine_fault : Fld := { lsb := 7, width := 1, ty := .w1c }
abbrev R.REF_STATUS : Nat := 0x160002C0
abbrev F.PWR_DOM_CFG_park_mode : Fld := { lsb := 0, width := 2, ty := .rw, st := true, hx := true, lim := .clamp 0 2 }
abbrev F.PWR_DOM_CFG_idle_us : Fld := { lsb := 3, width := 24, ty := .rw, st := true, hx := true, reset := 1000, lim := .clamp 1 10000000 }
abbrev R.PWR_DOM_CFG (n : Nat) : Nat := 0x17001000 + 16 * n
abbrev F.PWR_DOM_WAKE_gpio_lvl_en : Fld := { lsb := 0, width := 1, ty := .rw, st := true, hx := true }
abbrev F.PWR_DOM_WAKE_gpio_edge_en : Fld := { lsb := 1, width := 1, ty := .rw, st := true, hx := true }
abbrev F.PWR_DOM_WAKE_tmr_en : Fld := { lsb := 2, width := 1, ty := .rw, st := true, hx := true }
abbrev F.PWR_DOM_WAKE_sd_en : Fld := { lsb := 3, width := 1, ty := .rw, st := true, hx := true }
abbrev F.PWR_DOM_WAKE_gpio : Fld := { lsb := 4, width := 4, ty := .rw, st := true, hx := true }
abbrev F.PWR_DOM_WAKE_gpio_pol : Fld := { lsb := 8, width := 1, ty := .rw, st := true, hx := true, reset := 1 }
abbrev F.PWR_DOM_WAKE_tmr : Fld := { lsb := 9, width := 3, ty := .rw, st := true, hx := true }
abbrev R.PWR_DOM_WAKE (n : Nat) : Nat := 0x17001004 + 16 * n
abbrev F.PWR_DOM_STATE_state : Fld := { lsb := 0, width := 2 }
abbrev F.PWR_DOM_STATE_phase : Fld := { lsb := 2, width := 3 }
abbrev R.PWR_DOM_STATE (n : Nat) : Nat := 0x17001008 + 16 * n
abbrev F.PWR_DOM_REFUSE_block : Fld := { lsb := 0, width := 8 }
abbrev F.PWR_DOM_REFUSE_reason : Fld := { lsb := 8, width := 8 }
abbrev R.PWR_DOM_REFUSE (n : Nat) : Nat := 0x1700100C + 16 * n
abbrev F.PWR_AVS_CFG_target_mv : Fld := { lsb := 0, width := 10, ty := .rw, st := true, hx := true, reset := 720, lim := .clamp 650 800 }
abbrev F.PWR_AVS_CFG_avs_div : Fld := { lsb := 10, width := 8, ty := .rw, st := true, hx := true, reset := 10, lim := .clamp 5 250 }
abbrev R.PWR_AVS_CFG : Nat := 0x17000200
abbrev F.PWR_AVS_VOLT_volt : Fld := { lsb := 0, width := 10 }
abbrev R.PWR_AVS_VOLT : Nat := 0x17000204
abbrev F.PWR_AVS_CURR_curr : Fld := { lsb := 0, width := 16 }
abbrev F.PWR_AVS_CURR_avs_status : Fld := { lsb := 16, width := 16 }
abbrev R.PWR_AVS_CURR : Nat := 0x17000208
abbrev F.PWR_PARKED_ACCESS_flag_d : Fld := { lsb := 3, width := 7, ty := .w1c }
abbrev F.PWR_PARKED_ACCESS_last_block : Fld := { lsb := 10, width := 8 }
abbrev F.PWR_PARKED_ACCESS_requester : Fld := { lsb := 18, width := 2 }
abbrev F.PWR_PARKED_ACCESS_last_write : Fld := { lsb := 20, width := 1 }
abbrev R.PWR_PARKED_ACCESS : Nat := 0x17000210
abbrev F.PWR_STATUS_cfg_lim : Fld := { lsb := 0, width := 1, ty := .w1c }
abbrev F.PWR_STATUS_refuse : Fld := { lsb := 1, width := 1, ty := .w1c }
abbrev F.PWR_STATUS_abort : Fld := { lsb := 2, width := 1, ty := .w1c }
abbrev F.PWR_STATUS_avs_err : Fld := { lsb := 3, width := 1, ty := .w1c }
abbrev F.PWR_STATUS_avs_dev : Fld := { lsb := 4, width := 1, ty := .w1c }
abbrev F.PWR_STATUS_engine_fault : Fld := { lsb := 5, width := 1, ty := .w1c }
abbrev R.PWR_STATUS : Nat := 0x170002C0
abbrev F.MON_CFG_ratio : Fld := { lsb := 0, width := 3, ty := .rw, st := true, hx := true, lim := .clamp 0 6 }
abbrev F.MON_CFG_reg_len : Fld := { lsb := 3, width := 6, ty := .rw, st := true, hx := true, lim := .clamp 0 32 }
abbrev F.MON_CFG_inj_len : Fld := { lsb := 9, width := 3, ty := .rw, st := true, hx := true, lim := .clamp 0 4 }
abbrev F.MON_CFG_reg_trig : Fld := { lsb := 12, width := 2, ty := .rw, st := true, hx := true }
abbrev F.MON_CFG_reg_tmr : Fld := { lsb := 14, width := 3, ty := .rw, st := true, hx := true }
abbrev F.MON_CFG_fir_en : Fld := { lsb := 17, width := 1, ty := .rw, st := true, hx := true }
abbrev R.MON_CFG (n : Nat) : Nat := 0x18000010 + 4 * n
abbrev F.MON_TRIG_delay : Fld := { lsb := 0, width := 16, ty := .rw, st := true, hx := true }
abbrev F.MON_TRIG_inj_tmr : Fld := { lsb := 16, width := 3, ty := .rw, st := true, hx := true }
abbrev F.MON_TRIG_inj_tmr_en : Fld := { lsb := 19, width := 1, ty := .rw, st := true, hx := true }
abbrev F.MON_TRIG_urgent_mask : Fld := { lsb := 20, width := 4, ty := .rw, st := true, hx := true }
abbrev F.MON_TRIG_sw_reg : Fld := { lsb := 24, width := 1, ty := .w1s, hx := true }
abbrev F.MON_TRIG_sw_inj : Fld := { lsb := 25, width := 1, ty := .w1s, hx := true }
abbrev R.MON_TRIG (n : Nat) : Nat := 0x18000020 + 4 * n
abbrev F.MON_RES_M_result : Fld := { lsb := 0, width := 24 }
abbrev R.MON_RES_M (n : Nat) : Nat := 0x18000100 + 4 * n
abbrev F.MON_RES_INFO_M_channel : Fld := { lsb := 0, width := 6 }
abbrev F.MON_RES_INFO_M_entry : Fld := { lsb := 6, width := 5 }
abbrev F.MON_RES_INFO_M_injected : Fld := { lsb := 11, width := 1 }
abbrev F.MON_RES_INFO_M_busy : Fld := { lsb := 12, width := 1 }
abbrev F.MON_RES_INFO_M_fresh : Fld := { lsb := 13, width := 1, ty := .rc }
abbrev R.MON_RES_INFO_M (n : Nat) : Nat := 0x18000110 + 4 * n
abbrev F.MON_STATUS_cfg_lim : Fld := { lsb := 0, width := 1, ty := .w1c }
abbrev F.MON_STATUS_range : Fld := { lsb := 1, width := 1, ty := .w1c }
abbrev F.MON_STATUS_overrun : Fld := { lsb := 2, width := 1, ty := .w1c }
abbrev F.MON_STATUS_abandon : Fld := { lsb := 3, width := 1, ty := .w1c }
abbrev F.MON_STATUS_fir_off : Fld := { lsb := 4, width := 1 }
abbrev F.MON_STATUS_engine_fault : Fld := { lsb := 5, width := 1, ty := .w1c }
abbrev R.MON_STATUS : Nat := 0x180002C0
abbrev F.ANL_CFG_temp_thr : Fld := { lsb := 0, width := 8, ty := .rw, st := true, hx := true, reset := 30, lim := .clamp 5 200 }
abbrev F.ANL_CFG_auto_en : Fld := { lsb := 8, width := 1, ty := .rw, st := true, hx := true, reset := 1 }
abbrev R.ANL_CFG : Nat := 0x18100200
abbrev F.ANL_STATE_busy_a_adc : Fld := { lsb := 0, width := 1 }
abbrev F.ANL_STATE_busy_a_dac : Fld := { lsb := 1, width := 1 }
abbrev F.ANL_STATE_busy_b_adc : Fld := { lsb := 2, width := 1 }
abbrev F.ANL_STATE_busy_b_dac : Fld := { lsb := 3, width := 1 }
abbrev F.ANL_STATE_held : Fld := { lsb := 4, width := 1 }
abbrev F.ANL_STATE_pending : Fld := { lsb := 16, width := 16 }
abbrev R.ANL_STATE : Nat := 0x18100204
abbrev F.ANL_CONV_TEMP_temp_last : Fld := { lsb := 0, width := 16 }
abbrev R.ANL_CONV_TEMP (n : Nat) : Nat := 0x18101000 + 16 * n
abbrev F.ANL_CONV_STAT_used : Fld := { lsb := 0, width := 7 }
abbrev F.ANL_CONV_STAT_failed : Fld := { lsb := 7, width := 7 }
abbrev F.ANL_CONV_STAT_result : Fld := { lsb := 14, width := 2 }
abbrev R.ANL_CONV_STAT (n : Nat) : Nat := 0x1810100C + 16 * n
abbrev F.ANL_CONV_STAT_used_adc : Fld := { lsb := 0, width := 7, reset := 64 }
abbrev F.ANL_CONV_STAT_used_dac : Fld := { lsb := 0, width := 7, reset := 63 }
abbrev F.ANL_STATUS_cfg_lim : Fld := { lsb := 0, width := 1, ty := .w1c }
abbrev F.ANL_STATUS_elem_fail : Fld := { lsb := 1, width := 1, ty := .w1c }
abbrev F.ANL_STATUS_dac_short : Fld := { lsb := 2, width := 1, ty := .w1c }
abbrev F.ANL_STATUS_abandon : Fld := { lsb := 3, width := 1, ty := .w1c }
abbrev F.ANL_STATUS_engine_fault : Fld := { lsb := 4, width := 1, ty := .w1c }
abbrev R.ANL_STATUS : Nat := 0x181002C0
abbrev F.MEM_CFG_rpt_thr : Fld := { lsb := 0, width := 8, ty := .rw, st := true, hx := true, reset := 8, lim := .clamp 1 255 }
abbrev R.MEM_CFG : Nat := 0x19000200
abbrev F.MEM_RPT_region : Fld := { lsb := 0, width := 4 }
abbrev F.MEM_RPT_valid : Fld := { lsb := 4, width := 1 }
abbrev F.MEM_RPT_written_back : Fld := { lsb := 5, width := 1 }
abbrev F.MEM_RPT_count : Fld := { lsb := 8, width := 8 }
abbrev R.MEM_RPT (n : Nat) : Nat := 0x19001000 + 8 * n
abbrev F.MEM_RPT_WORD_word : Fld := { lsb := 0, width := 32 }
abbrev R.MEM_RPT_WORD (n : Nat) : Nat := 0x19001004 + 8 * n
abbrev F.MEM_LAST_UNCORR_region : Fld := { lsb := 0, width := 4 }
abbrev R.MEM_LAST_UNCORR : Nat := 0x19000210
abbrev F.MEM_LAST_UNCORR_WORD_word : Fld := { lsb := 0, width := 32 }
abbrev R.MEM_LAST_UNCORR_WORD : Nat := 0x19000214
abbrev F.MEM_REPAIR_SUM_rows_factory : Fld := { lsb := 0, width := 10 }
abbrev F.MEM_REPAIR_SUM_rows_field : Fld := { lsb := 10, width := 10 }
abbrev F.MEM_REPAIR_SUM_cols : Fld := { lsb := 20, width := 6 }
abbrev F.MEM_REPAIR_SUM_unrepaired : Fld := { lsb := 26, width := 6 }
abbrev R.MEM_REPAIR_SUM : Nat := 0x19000220
abbrev F.MEM_STATUS_cfg_lim : Fld := { lsb := 0, width := 1, ty := .w1c }
abbrev F.MEM_STATUS_persist : Fld := { lsb := 1, width := 1, ty := .w1c }
abbrev F.MEM_STATUS_uncorr : Fld := { lsb := 2, width := 1, ty := .w1c }
abbrev F.MEM_STATUS_hard : Fld := { lsb := 3, width := 1, ty := .w1c }
abbrev F.MEM_STATUS_repair_short : Fld := { lsb := 4, width := 1, ty := .w1c }
abbrev F.MEM_STATUS_engine_fault : Fld := { lsb := 5, width := 1, ty := .w1c }
abbrev F.MEM_STATUS_scrub_busy : Fld := { lsb := 6, width := 1 }
abbrev R.MEM_STATUS : Nat := 0x190002C0
abbrev F.SCU_EXPECT_value : Fld := { lsb := 0, width := 32, ty := .rw, hx := true }
abbrev R.SCU_EXPECT : Nat := 0x19100200
abbrev F.SCU_RESULT_value : Fld := { lsb := 0, width := 32 }
abbrev R.SCU_RESULT : Nat := 0x19100204
abbrev F.SCU_STATUS_mismatch : Fld := { lsb := 0, width := 1, ty := .w1c }
abbrev F.SCU_STATUS_uncorr : Fld := { lsb := 1, width := 1, ty := .w1c }
abbrev F.SCU_STATUS_engine_fault : Fld := { lsb := 2, width := 1, ty := .w1c }
abbrev F.SCU_STATUS_busy : Fld := { lsb := 3, width := 1 }
abbrev R.SCU_STATUS : Nat := 0x191002C0
abbrev F.OBS_SNAP_STATUS_latest : Fld := { lsb := 0, width := 1 }
abbrev F.OBS_SNAP_STATUS_writing : Fld := { lsb := 1, width := 1 }
abbrev F.OBS_SNAP_STATUS_held : Fld := { lsb := 2, width := 1 }
abbrev F.OBS_SNAP_STATUS_held_buf : Fld := { lsb := 3, width := 1 }
abbrev F.OBS_SNAP_STATUS_seq : Fld := { lsb := 16, width := 16 }
abbrev R.OBS_SNAP_STATUS : Nat := 0x1A000200
abbrev F.OBS_SNAP_CTRL_hold : Fld := { lsb := 0, width := 1, ty := .w1s }
abbrev F.OBS_SNAP_CTRL_release : Fld := { lsb := 1, width := 1, ty := .w1s }
abbrev R.OBS_SNAP_CTRL : Nat := 0x1A000204
abbrev F.OBS_OVF_ovf : Fld := { lsb := 0, width := 32, ty := .w1c }
abbrev R.OBS_OVF (n : Nat) : Nat := 0x1A001000 + 4 * n
abbrev F.OBS_SMP_CFG_enable : Fld := { lsb := 0, width := 1, ty := .rw, st := true, hx := true }
abbrev F.OBS_SMP_CFG_wrap : Fld := { lsb := 1, width := 1, ty := .rw, st := true, hx := true }
abbrev F.OBS_SMP_CFG_jitter : Fld := { lsb := 2, width := 1, ty := .rw, st := true, hx := true, reset := 1 }
abbrev F.OBS_SMP_CFG_smp_log : Fld := { lsb := 3, width := 5, ty := .rw, st := true, hx := true, reset := 12, lim := .clamp 4 24 }
abbrev F.OBS_SMP_CFG_irq_fill : Fld := { lsb := 8, width := 12, ty := .rw, st := true, hx := true, reset := 3072 }
abbrev R.OBS_SMP_CFG : Nat := 0x1A000210
abbrev F.OBS_SMP_STATUS_fill : Fld := { lsb := 0, width := 13 }
abbrev R.OBS_SMP_STATUS : Nat := 0x1A000214
abbrev F.OBS_STATUS_cfg_lim : Fld := { lsb := 0, width := 1, ty := .w1c }
abbrev F.OBS_STATUS_ovf_any : Fld := { lsb := 1, width := 1, ty := .w1c }
abbrev F.OBS_STATUS_smp_full : Fld := { lsb := 2, width := 1, ty := .w1c }
abbrev F.OBS_STATUS_engine_fault : Fld := { lsb := 3, width := 1, ty := .w1c }
abbrev R.OBS_STATUS : Nat := 0x1A0002C0
abbrev F.LOG_REGION_base : Fld := { lsb := 0, width := 16, ty := .rw, st := true, hx := true }
abbrev F.LOG_REGION_length : Fld := { lsb := 16, width := 16, ty := .rw, st := true, hx := true, reset := 640, lim := .clamp 640 65535 }
abbrev R.LOG_REGION : Nat := 0x1A100200
abbrev F.LOG_CFG_enable : Fld := { lsb := 0, width := 1, ty := .rw, st := true, hx := true }
abbrev F.LOG_CFG_log_sev : Fld := { lsb := 1, width := 2, ty := .rw, st := true, hx := true, reset := 1 }
abbrev R.LOG_CFG : Nat := 0x1A100204
abbrev F.LOG_STATE_state : Fld := { lsb := 0, width := 2 }
abbrev F.LOG_STATE_staged : Fld := { lsb := 2, width := 12 }
abbrev F.LOG_STATE_sec_wait : Fld := { lsb := 14, width := 1 }
abbrev R.LOG_STATE : Nat := 0x1A100208
abbrev F.LOG_STATUS_cfg_lim : Fld := { lsb := 0, width := 1, ty := .w1c }
abbrev F.LOG_STATUS_drop : Fld := { lsb := 1, width := 1, ty := .w1c }
abbrev F.LOG_STATUS_write_err : Fld := { lsb := 2, width := 1, ty := .w1c }
abbrev F.LOG_STATUS_totals_lost : Fld := { lsb := 3, width := 1, ty := .w1c }
abbrev F.LOG_STATUS_engine_fault : Fld := { lsb := 4, width := 1, ty := .w1c }
abbrev R.LOG_STATUS : Nat := 0x1A1002C0
abbrev F.HIF_DEVICE_ID_part_code : Fld := { lsb := 0, width := 8 }
abbrev F.HIF_DEVICE_ID_die_rev : Fld := { lsb := 8, width := 8 }
abbrev F.HIF_DEVICE_ID_family : Fld := { lsb := 16, width := 16, reset := 0xc740 }
abbrev R.HIF_DEVICE_ID : Nat := 0x1C000000
abbrev F.HIF_BOOT_hw_stage : Fld := { lsb := 0, width := 4 }
abbrev F.HIF_BOOT_stage_a : Fld := { lsb := 4, width := 4, ty := .rw, hx := true }
abbrev F.HIF_BOOT_stage_b : Fld := { lsb := 8, width := 4, ty := .rw, hx := true }
abbrev R.HIF_BOOT : Nat := 0x1C00000C
abbrev F.HIF_CFG_i2c_addr : Fld := { lsb := 0, width := 7, ty := .rw, st := true, hx := true, reset := 92 }
abbrev F.HIF_CFG_int_sev : Fld := { lsb := 8, width := 2, ty := .rw, st := true, hx := true, reset := 2 }
abbrev F.HIF_CFG_alarm_sev : Fld := { lsb := 10, width := 2, ty := .rw, st := true, hx := true, reset := 2 }
abbrev F.HIF_CFG_mbx_ms : Fld := { lsb := 12, width := 16, ty := .rw, st := true, hx := true, reset := 1000, lim := .clamp 1 65535 }
abbrev R.HIF_CFG : Nat := 0x1C000204
abbrev F.HIF_ERR_hx : Fld := { lsb := 0, width := 1, ty := .w1c }
abbrev F.HIF_ERR_unmapped : Fld := { lsb := 1, width := 1, ty := .w1c }
abbrev F.HIF_ERR_width : Fld := { lsb := 2, width := 1, ty := .w1c }
abbrev F.HIF_ERR_region : Fld := { lsb := 3, width := 1, ty := .w1c }
abbrev F.HIF_ERR_mbx_busy : Fld := { lsb := 4, width := 1, ty := .w1c }
abbrev F.HIF_ERR_mbx_tag : Fld := { lsb := 5, width := 1, ty := .w1c }
abbrev F.HIF_ERR_mbx_port : Fld := { lsb := 6, width := 1, ty := .w1c }
abbrev F.HIF_ERR_i2c_range : Fld := { lsb := 7, width := 1, ty := .w1c }
abbrev F.HIF_ERR_i2c_partial : Fld := { lsb := 8, width := 1, ty := .w1c }
abbrev F.HIF_ERR_uncorr : Fld := { lsb := 9, width := 1, ty := .w1c }
abbrev R.HIF_ERR : Nat := 0x1C000210
abbrev F.HIF_STATUS_cfg_lim : Fld := { lsb := 0, width := 1, ty := .w1c }
abbrev F.HIF_STATUS_mbx_timeout : Fld := { lsb := 1, width := 1, ty := .w1c }
abbrev F.HIF_STATUS_ledger_drop : Fld := { lsb := 2, width := 1, ty := .w1c }
abbrev F.HIF_STATUS_link_up : Fld := { lsb := 3, width := 1 }
abbrev F.HIF_STATUS_link_width : Fld := { lsb := 4, width := 2 }
abbrev F.HIF_STATUS_link_speed : Fld := { lsb := 6, width := 3 }
abbrev F.HIF_STATUS_engine_fault : Fld := { lsb := 9, width := 1, ty := .w1c }
abbrev R.HIF_STATUS : Nat := 0x1C0002C0
abbrev F.GPIO_CTL_oe : Fld := { lsb := 0, width := 1, ty := .rw, hx := true }
abbrev F.GPIO_CTL_out : Fld := { lsb := 1, width := 1, ty := .rw, hx := true }
abbrev F.GPIO_CTL_od : Fld := { lsb := 2, width := 1, ty := .rw, hx := true }
abbrev F.GPIO_CTL_pull : Fld := { lsb := 3, width := 2, ty := .rw, hx := true, reset := 1, lim := .clamp 0 2 }
abbrev F.GPIO_CTL_in : Fld := { lsb := 5, width := 1 }
abbrev F.GPIO_CTL_held : Fld := { lsb := 6, width := 1 }
abbrev F.GPIO_CTL_func : Fld := { lsb := 7, width := 3 }
abbrev R.GPIO_CTL (n : Nat) : Nat := 0x1C004100 + 4 * n
abbrev F.CLM_FLEXE_NUM_num : Fld := { lsb := 0, width := 20, ty := .rw, st := true, hx := true, reset := 1 }
abbrev R.CLM_FLEXE_NUM (n : Nat) : Nat := 0x12000404 + 8 * n
abbrev F.QLK_LANE_CFG_tx_precode : Fld := { lsb := 0, width := 1, ty := .rw, st := true, hx := true }
abbrev F.QLK_LANE_CFG_rx_precode : Fld := { lsb := 1, width := 1, ty := .rw, st := true, hx := true }
abbrev F.QLK_LANE_CFG_tx_inv : Fld := { lsb := 2, width := 1, ty := .rw, st := true, hx := true }
abbrev F.QLK_LANE_CFG_rx_inv : Fld := { lsb := 3, width := 1, ty := .rw, st := true, hx := true }
abbrev F.QLK_LANE_CFG_preset : Fld := { lsb := 4, width := 3, ty := .rw, st := true, hx := true, reset := 4, lim := .clamp 0 4 }
abbrev R.QLK_LANE_CFG (n : Nat) : Nat := 0x13101000 + 16 * n
abbrev F.QLK_LANE_STATUS_pstate : Fld := { lsb := 0, width := 2, reset := 2 }
abbrev F.QLK_LANE_STATUS_los : Fld := { lsb := 2, width := 1 }
abbrev F.QLK_LANE_STATUS_cdr_lock : Fld := { lsb := 3, width := 1 }
abbrev F.QLK_LANE_STATUS_rx_ready : Fld := { lsb := 4, width := 1 }
abbrev F.QLK_LANE_STATUS_snr : Fld := { lsb := 8, width := 10 }
abbrev F.QLK_LANE_STATUS_block_lock : Fld := { lsb := 18, width := 1 }
abbrev F.QLK_LANE_STATUS_mis_wire : Fld := { lsb := 19, width := 1 }
abbrev R.QLK_LANE_STATUS (n : Nat) : Nat := 0x13101004 + 16 * n
abbrev F.SEC_FP_fp : Fld := { lsb := 0, width := 32 }
abbrev R.SEC_FP (n : Nat) : Nat := 0x1F000010 + 4 * n
abbrev F.SEC_ANCHOR_0_hash : Fld := { lsb := 0, width := 32 }
/-- Word w of the hash of anchor slot s. -/
abbrev R.SEC_ANCHOR (s w : Nat) : Nat := 0x1F000100 + 0x40 * s + 4 * w
abbrev F.SEC_ANCHOR_1_hash : Fld := { lsb := 0, width := 32 }
abbrev F.SEC_ANCHOR_2_hash : Fld := { lsb := 0, width := 32 }
abbrev F.SEC_ANCHOR_3_hash : Fld := { lsb := 0, width := 32 }
abbrev F.SEC_TX_EPOCH_n : Fld := { lsb := 0, width := 32 }
abbrev R.SEC_TX_EPOCH (n : Nat) : Nat := 0x1F000204 + 256 * n
abbrev F.SEC_RX_EPOCH_n : Fld := { lsb := 0, width := 32 }
abbrev R.SEC_RX_EPOCH (n : Nat) : Nat := 0x1F000208 + 256 * n
abbrev F.SEC_SESS_AGE_n : Fld := { lsb := 0, width := 32 }
abbrev R.SEC_SESS_AGE (n : Nat) : Nat := 0x1F00020C + 256 * n
abbrev F.SEC_PEER_FP_A_fp : Fld := { lsb := 0, width := 32 }
abbrev R.SEC_PEER_FP_A (n : Nat) : Nat := 0x1F000210 + 4 * n
abbrev F.SEC_PEER_FP_B_fp : Fld := { lsb := 0, width := 32 }
abbrev R.SEC_PEER_FP_B (n : Nat) : Nat := 0x1F000310 + 4 * n
abbrev F.SEC_TIMER_REKEY_AGE_v : Fld := { lsb := 0, width := 32, reset := 600 }
abbrev R.SEC_TIMER_REKEY_AGE : Nat := 0x1F000400
abbrev F.SEC_TIMER_FULL_PERIOD_v : Fld := { lsb := 0, width := 32, reset := 0x15180 }
abbrev R.SEC_TIMER_FULL_PERIOD : Nat := 0x1F000404
abbrev F.SEC_TIMER_ACT_LEAD_v : Fld := { lsb := 0, width := 32, reset := 50 }
abbrev R.SEC_TIMER_ACT_LEAD : Nat := 0x1F000408
abbrev F.SEC_TIMER_KA_TIMEOUT_v : Fld := { lsb := 0, width := 32, reset := 2000 }
abbrev R.SEC_TIMER_KA_TIMEOUT : Nat := 0x1F00040C
abbrev F.PLT_LAST_TIME_LO_value : Fld := { lsb := 0, width := 32 }
abbrev R.PLT_LAST_TIME_LO : Nat := 0x1B000218
abbrev F.PLT_LAST_TIME_HI_value : Fld := { lsb := 0, width := 32 }
abbrev R.PLT_LAST_TIME_HI : Nat := 0x1B00021C
abbrev F.REF_HOLD_LIMIT_hold_limit : Fld := { lsb := 0, width := 17, ty := .rw, st := true, hx := true, reset := 0x11f8, lim := .clamp 1 100000 }
abbrev R.REF_HOLD_LIMIT : Nat := 0x16000210
abbrev F.REF_HOLD_DRIFT_drift : Fld := { lsb := 0, width := 24, ty := .rw, st := true, hx := true, reset := 0x2710 }
abbrev R.REF_HOLD_DRIFT : Nat := 0x16000214
abbrev F.REF_HOLD_WORD_value : Fld := { lsb := 0, width := 32 }
abbrev R.REF_HOLD_WORD : Nat := 0x16000230
abbrev F.REF_HOLD_U0_value : Fld := { lsb := 0, width := 32 }
abbrev R.REF_HOLD_U0 : Nat := 0x16000234
abbrev F.REF_HOLD_REMAIN_value : Fld := { lsb := 0, width := 32 }
abbrev R.REF_HOLD_REMAIN : Nat := 0x16000238
abbrev F.REF_ROOT_OFFSET_value : Fld := { lsb := 0, width := 32 }
abbrev R.REF_ROOT_OFFSET : Nat := 0x16000224
abbrev F.REF_DPLL_WORD_value : Fld := { lsb := 0, width := 32 }
abbrev R.REF_DPLL_WORD : Nat := 0x16000228
abbrev F.REF_SRC_OFFSET_value : Fld := { lsb := 0, width := 32 }
abbrev R.REF_SRC_OFFSET (n : Nat) : Nat := 0x16001100 + 4 * n
abbrev F.REF_OUT_OFS_LO_ofs : Fld := { lsb := 0, width := 32, ty := .rw, st := true, hx := true }
abbrev R.REF_OUT_OFS_LO (n : Nat) : Nat := 0x16000320 + 8 * n
abbrev F.REF_OUT_OFS_HI_ofs : Fld := { lsb := 0, width := 32, ty := .rw, st := true, hx := true }
abbrev R.REF_OUT_OFS_HI (n : Nat) : Nat := 0x16000324 + 8 * n
abbrev F.REF_PPS_TS_LO_ts : Fld := { lsb := 0, width := 32 }
abbrev R.REF_PPS_TS_LO (n : Nat) : Nat := 0x16000400 + 8 * n
abbrev F.REF_PPS_TS_HI_ts : Fld := { lsb := 0, width := 32 }
abbrev R.REF_PPS_TS_HI (n : Nat) : Nat := 0x16000404 + 8 * n
abbrev F.REF_SF_MARK_A_LO_ts : Fld := { lsb := 0, width := 32 }
abbrev R.REF_SF_MARK_A_LO : Nat := 0x16000420
abbrev F.REF_SF_MARK_A_HI_ts : Fld := { lsb := 0, width := 32 }
abbrev R.REF_SF_MARK_A_HI : Nat := 0x16000424
abbrev F.REF_SF_MARK_B_LO_ts : Fld := { lsb := 0, width := 32 }
abbrev R.REF_SF_MARK_B_LO : Nat := 0x16000428
abbrev F.REF_SF_MARK_B_HI_ts : Fld := { lsb := 0, width := 32 }
abbrev R.REF_SF_MARK_B_HI : Nat := 0x1600042C
abbrev F.MON_SEQ_channel : Fld := { lsb := 0, width := 6, ty := .rw, st := true, hx := true, lim := .hole 39 63 }
abbrev F.MON_SEQ_n1 : Fld := { lsb := 6, width := 8, ty := .rw, st := true, hx := true }
abbrev R.MON_SEQ (n : Nat) : Nat := 0x18000300 + 4 * n
abbrev F.MON_INJ_channel : Fld := { lsb := 0, width := 6, ty := .rw, st := true, hx := true, lim := .hole 39 63 }
abbrev F.MON_INJ_n1 : Fld := { lsb := 6, width := 8, ty := .rw, st := true, hx := true }
abbrev R.MON_INJ (n : Nat) : Nat := 0x18000500 + 4 * n
abbrev F.MON_ENT_RES_result : Fld := { lsb := 0, width := 24 }
abbrev R.MON_ENT_RES (n : Nat) : Nat := 0x18000600 + 4 * n
abbrev F.MON_INJ_RES_result : Fld := { lsb := 0, width := 24 }
abbrev R.MON_INJ_RES (n : Nat) : Nat := 0x18000800 + 4 * n
abbrev F.MON_TEMP_temp : Fld := { lsb := 0, width := 16 }
abbrev R.MON_TEMP (n : Nat) : Nat := 0x18000180 + 4 * n
abbrev F.TMR_DUTY_duty : Fld := { lsb := 0, width := 16, ty := .rw, st := true, hx := true }
abbrev R.TMR_DUTY (n : Nat) : Nat := 0x18000A10 + 4 * n
abbrev F.TMR_CFG_enable : Fld := { lsb := 0, width := 1, ty := .rw, st := true, hx := true }
abbrev F.TMR_CFG_pwm_en : Fld := { lsb := 1, width := 1, ty := .rw, st := true, hx := true }
abbrev F.TMR_CFG_pol : Fld := { lsb := 2, width := 1, ty := .rw, st := true, hx := true }
abbrev R.TMR_CFG (n : Nat) : Nat := 0x18000A40 + 4 * n
abbrev F.TMR_PERIOD_period : Fld := { lsb := 0, width := 32, ty := .rw, st := true, hx := true, reset := 0xffffffff }
abbrev R.TMR_PERIOD (n : Nat) : Nat := 0x18000A60 + 4 * n
abbrev F.TMR_CMP_cmp : Fld := { lsb := 0, width := 32, ty := .rw, st := true, hx := true }
abbrev R.TMR_CMP (n : Nat) : Nat := 0x18000A80 + 4 * n
abbrev F.TMR_COUNT_count : Fld := { lsb := 0, width := 32 }
abbrev R.TMR_COUNT (n : Nat) : Nat := 0x18000AA0 + 4 * n
abbrev F.ANL_CONV_TIME_LO_time : Fld := { lsb := 0, width := 32 }
abbrev R.ANL_CONV_TIME_LO (n : Nat) : Nat := 0x18101004 + 16 * n
abbrev F.ANL_CONV_TIME_HI_time : Fld := { lsb := 0, width := 32 }
abbrev R.ANL_CONV_TIME_HI (n : Nat) : Nat := 0x18101008 + 16 * n
abbrev F.LOG_NEXT_SEQ_LO_seq : Fld := { lsb := 0, width := 32 }
abbrev R.LOG_NEXT_SEQ_LO : Nat := 0x1A100210
abbrev F.LOG_NEXT_SEQ_HI_seq : Fld := { lsb := 0, width := 32 }
abbrev R.LOG_NEXT_SEQ_HI : Nat := 0x1A100214
abbrev F.HIF_PCI_ID_vendor : Fld := { lsb := 0, width := 16, reset := 0x1f3a }
abbrev F.HIF_PCI_ID_device : Fld := { lsb := 16, width := 16, reset := 0xc741 }
abbrev R.HIF_PCI_ID : Nat := 0x1C000004
abbrev F.HIF_STATUS_BOOT_fail_code : Fld := { lsb := 0, width := 8 }
abbrev R.HIF_STATUS_BOOT : Nat := 0x1C000008
abbrev F.HIF_ERR_ADDR_addr : Fld := { lsb := 0, width := 32 }
abbrev R.HIF_ERR_ADDR : Nat := 0x1C000214
abbrev F.HIF_ERR_PORT_port : Fld := { lsb := 0, width := 1 }
abbrev R.HIF_ERR_PORT : Nat := 0x1C000218
abbrev F.HIF_MBX_BUSY_busy : Fld := { lsb := 0, width := 32 }
abbrev R.HIF_MBX_BUSY (n : Nat) : Nat := 0x1C000300 + 4 * n
abbrev F.HIF_MBX_PEND_pend : Fld := { lsb := 0, width := 32 }
abbrev R.HIF_MBX_PEND (n : Nat) : Nat := 0x1C000308 + 4 * n
abbrev F.HIF_MBX_TAKE_slot : Fld := { lsb := 0, width := 6, ty := .wo, hx := true }
abbrev R.HIF_MBX_TAKE : Nat := 0x1C000310
abbrev F.HIF_MBX_DONE_slot : Fld := { lsb := 0, width := 6, ty := .wo, hx := true }
abbrev F.HIF_MBX_DONE_result : Fld := { lsb := 8, width := 8, ty := .wo, hx := true }
abbrev R.HIF_MBX_DONE : Nat := 0x1C000314
abbrev F.HIF_LEDGER_WR_count : Fld := { lsb := 0, width := 32 }
abbrev R.HIF_LEDGER_WR : Nat := 0x1C000320
abbrev F.HIF_ALARM_pending : Fld := { lsb := 0, width := 1, ty := .w1c }
abbrev R.HIF_ALARM : Nat := 0x1C000330
abbrev F.HIF_IRQ_PEND_pend : Fld := { lsb := 0, width := 32, ty := .w1c }
abbrev R.HIF_IRQ_PEND : Nat := 0x1C000340
abbrev F.HIF_IRQ_MASK_mask : Fld := { lsb := 0, width := 32, ty := .rw, reset := 0xffffffff }
abbrev R.HIF_IRQ_MASK : Nat := 0x1C000344
abbrev F.HIF_SW_IRQ_raise : Fld := { lsb := 8, width := 24, ty := .w1s, hx := true }
abbrev R.HIF_SW_IRQ : Nat := 0x1C000348
abbrev F.HIF_SWRESET_reset : Fld := { lsb := 0, width := 1, ty := .wo, hx := true }
abbrev R.HIF_SWRESET : Nat := 0x1C000350
abbrev F.HIF_FLASH_CMD_op : Fld := { lsb := 0, width := 2, ty := .rw }
abbrev F.HIF_FLASH_CMD_go : Fld := { lsb := 31, width := 1, ty := .rw }
abbrev R.HIF_FLASH_CMD : Nat := 0x1C000400
abbrev F.HIF_FLASH_ADDR_offset : Fld := { lsb := 0, width := 32, ty := .rw }
abbrev R.HIF_FLASH_ADDR : Nat := 0x1C000404
abbrev F.HIF_FLASH_STATUS_done : Fld := { lsb := 0, width := 1, ty := .w1c }
abbrev F.HIF_FLASH_STATUS_refused : Fld := { lsb := 1, width := 1, ty := .w1c }
abbrev R.HIF_FLASH_STATUS : Nat := 0x1C000408
abbrev F.HIF_FLASH_DATA_data : Fld := { lsb := 0, width := 32, ty := .rw }
abbrev R.HIF_FLASH_DATA (n : Nat) : Nat := 0x1C000500 + 4 * n
abbrev R.EQZ_SWAP_CNT (c : Carrier) : Nat := 0x10200300 + carOff c
abbrev R.EQZ_SOP_OVER_CNT (c : Carrier) : Nat := 0x10200308 + carOff c
abbrev R.EQZ_DIVERGE_CNT (c : Carrier) : Nat := 0x10200310 + carOff c
abbrev R.CRR_SLIP_CNT (c : Carrier) : Nat := 0x10300300 + carOff c
abbrev R.CRR_LOCK_LOSS_CNT (c : Carrier) : Nat := 0x10300308 + carOff c
abbrev R.CRR_ERASED_CNT (c : Carrier) : Nat := 0x10300310 + carOff c
abbrev R.FEC_BLOCK_CNT (c : Carrier) : Nat := 0x10400300 + carOff c
abbrev R.FEC_UNCORR_CNT (c : Carrier) : Nat := 0x10400308 + carOff c
abbrev R.FEC_BCH_CORR_CNT (c : Carrier) : Nat := 0x10400310 + carOff c
abbrev R.FEC_PRE_BITS_X (c : Carrier) : Nat := 0x10400318 + carOff c
abbrev R.FEC_PRE_BITS_Y (c : Carrier) : Nat := 0x10400320 + carOff c
abbrev R.FEC_PRE_ERR_X (c : Carrier) : Nat := 0x10400328 + carOff c
abbrev R.FEC_PRE_ERR_Y (c : Carrier) : Nat := 0x10400330 + carOff c
abbrev R.FEC_LOST_CNT (c : Carrier) : Nat := 0x10400338 + carOff c
abbrev R.FEC_SWAP_CNT (c : Carrier) : Nat := 0x10400340 + carOff c
abbrev R.FEC_ITER (c : Carrier) (n : Nat) : Nat := 0x10400400 + carOff c + 8 * n
abbrev R.HAIL_TX_CNT (c : Carrier) : Nat := 0x10600300 + carOff c
abbrev R.HAIL_RX_CNT (c : Carrier) : Nat := 0x10600308 + carOff c
abbrev R.HAIL_FALSE_START_CNT (c : Carrier) : Nat := 0x10600310 + carOff c
abbrev R.HAIL_CAPTURE_CNT (c : Carrier) : Nat := 0x10600318 + carOff c
abbrev R.HAIL_CRC32_FAIL_CNT (c : Carrier) : Nat := 0x10600320 + carOff c
abbrev R.HAIL_LOST_CNT (c : Carrier) : Nat := 0x10600328 + carOff c
abbrev R.HAIL_DROP_CNT (c : Carrier) : Nat := 0x10600330 + carOff c
abbrev R.FRM_FRAME_CNT (c : Carrier) : Nat := 0x10500300 + carOff c
abbrev R.FRM_BIP_CNT (c : Carrier) : Nat := 0x10500308 + carOff c
abbrev R.FRM_BEI_CNT (c : Carrier) : Nat := 0x10500310 + carOff c
abbrev R.FRM_OOF_CNT (c : Carrier) : Nat := 0x10500318 + carOff c
abbrev R.FRM_RP_ERR_CNT (c : Carrier) : Nat := 0x10500320 + carOff c
abbrev R.FRM_CAL_ERR_CNT (c : Carrier) : Nat := 0x10500328 + carOff c
abbrev R.FRM_CAND_FULL_CNT (c : Carrier) : Nat := 0x10500330 + carOff c
abbrev R.FRM_REPL_FRAME_CNT (c : Carrier) : Nat := 0x10500338 + carOff c
abbrev R.CLM_DEL_CNT (n : Nat) : Nat := 0x12004000 + 32 * n
abbrev R.CLM_OVR_CNT (n : Nat) : Nat := 0x12004008 + 32 * n
abbrev R.CLM_ERRBLK_CNT (n : Nat) : Nat := 0x12004010 + 32 * n
abbrev R.CLM_UNR_CNT (n : Nat) : Nat := 0x12004018 + 32 * n
abbrev R.BRT_GREEN_CNT (n : Nat) : Nat := 0x12102000 + 64 * n
abbrev R.BRT_YELLOW_CNT (n : Nat) : Nat := 0x12102008 + 64 * n
abbrev R.BRT_RED_CNT (n : Nat) : Nat := 0x12102010 + 64 * n
abbrev R.BRT_BUFDROP_CNT (n : Nat) : Nat := 0x12102018 + 64 * n
abbrev R.BRT_OVERSIZE_CNT (n : Nat) : Nat := 0x12102020 + 64 * n
abbrev R.BRT_TXFRM_CNT (n : Nat) : Nat := 0x12102028 + 64 * n
abbrev R.BRT_RXERR_CNT (n : Nat) : Nat := 0x12102030 + 64 * n
abbrev R.BRT_HUNT_CNT (n : Nat) : Nat := 0x12102038 + 64 * n
abbrev R.HLN_LOS_CNT (n : Nat) : Nat := 0x13002000 + 32 * n
abbrev R.HLN_FEC_CORR_CNT (n : Nat) : Nat := 0x13002008 + 32 * n
abbrev R.HLN_FEC_UNCORR_CNT (n : Nat) : Nat := 0x13002010 + 32 * n
abbrev R.QLK_CRC_CNT (n : Nat) : Nat := 0x13102000 + 32 * n
abbrev R.QLK_LOCK_LOSS_CNT (n : Nat) : Nat := 0x13102008 + 32 * n
abbrev R.QLK_ROW_CNT : Nat := 0x13102400
abbrev R.QLK_LINK_DOWN_CNT : Nat := 0x13102408
abbrev R.CPH_TX_BLOCK_CNT : Nat := 0x14000300
abbrev R.CPH_RX_BLOCK_CNT : Nat := 0x14000308
abbrev R.CPH_MISMATCH_CNT : Nat := 0x14000310
abbrev R.CPH_SHED_CNT : Nat := 0x14000318
abbrev R.CPH_TX_REC_CNT (n : Nat) : Nat := 0x14004000 + 64 * n
abbrev R.CPH_RX_OK_CNT (n : Nat) : Nat := 0x14004008 + 64 * n
abbrev R.CPH_AUTH_FAIL_CNT (n : Nat) : Nat := 0x14004010 + 64 * n
abbrev R.CPH_ABANDON_CNT (n : Nat) : Nat := 0x14004018 + 64 * n
abbrev R.CPH_TX_HOLD_CNT (n : Nat) : Nat := 0x14004020 + 64 * n
abbrev R.CPH_RX_ABSENT_CNT (n : Nat) : Nat := 0x14004028 + 64 * n
abbrev R.SEC_KA_DONE_CNT : Nat := 0x1F000A00
abbrev R.SEC_KA_ABORT_CNT : Nat := 0x1F000A08
abbrev R.SEC_RATCHET_CNT : Nat := 0x1F000A10
abbrev R.SEC_LATE_ACT_CNT : Nat := 0x1F000A18
abbrev R.SEC_ACT_DISCARD_CNT : Nat := 0x1F000A20
abbrev R.SEC_ZEROIZE_CNT : Nat := 0x1F000A28
abbrev R.PLT_FAILOVER_CNT : Nat := 0x1B000300
abbrev R.PLT_REVERT_CNT : Nat := 0x1B000308
abbrev R.PLT_MISSED_HB_CNT : Nat := 0x1B000310
abbrev R.PLT_DUAL_CMD_CNT : Nat := 0x1B000318
abbrev R.HWS_OVERRUN_CNT : Nat := 0x1B100300
abbrev R.HWS_EXT_CNT : Nat := 0x1B100308
abbrev R.HWS_FRAME_ERR_CNT : Nat := 0x1B100310
abbrev R.HWS_RESYNC_CNT : Nat := 0x1B100318
abbrev R.REF_SWITCH_CNT : Nat := 0x16000500
abbrev R.REF_HOLD_CNT : Nat := 0x16000508
abbrev R.REF_REALIGN_CNT : Nat := 0x16000510
abbrev R.REF_TIE_CNT : Nat := 0x16000518
abbrev R.PWR_REFUSE_CNT (n : Nat) : Nat := 0x17002000 + 32 * n
abbrev R.PWR_MOOR_CNT (n : Nat) : Nat := 0x17002008 + 32 * n
abbrev R.PWR_LAYUP_CNT (n : Nat) : Nat := 0x17002010 + 32 * n
abbrev R.PWR_ELAPSED (n : Nat) : Nat := 0x17002018 + 32 * n
abbrev R.PWR_PARKED_ACC_CNT : Nat := 0x17002400
abbrev R.MON_CONV_CNT (n : Nat) : Nat := 0x18000C00 + 32 * n
abbrev R.MON_ABANDON_CNT (n : Nat) : Nat := 0x18000C08 + 32 * n
abbrev R.MON_OVERRUN_CNT (n : Nat) : Nat := 0x18000C10 + 32 * n
abbrev R.ANL_RUN_CNT : Nat := 0x18100300
abbrev R.ANL_ABANDON_CNT : Nat := 0x18100308
abbrev R.ANL_FAIL_MARK_CNT : Nat := 0x18100310
abbrev R.MEM_CORR_CNT : Nat := 0x19000300
abbrev R.MEM_UNCORR_CNT : Nat := 0x19000308
abbrev R.MEM_PERSIST_CNT : Nat := 0x19000310
abbrev R.MEM_HARD_CNT : Nat := 0x19000318
abbrev R.MEM_SCRUB_WB_CNT : Nat := 0x19000320
abbrev R.SCU_SCAN_CNT : Nat := 0x19100300
abbrev R.SCU_MISMATCH_CNT : Nat := 0x19100308
abbrev R.OBS_TD_RET (n : Nat) : Nat := 0x1A000300 + 64 * n
abbrev R.OBS_TD_WASTE (n : Nat) : Nat := 0x1A000308 + 64 * n
abbrev R.OBS_TD_FRONT (n : Nat) : Nat := 0x1A000310 + 64 * n
abbrev R.OBS_TD_BACK (n : Nat) : Nat := 0x1A000318 + 64 * n
abbrev R.OBS_TD_BQF (n : Nat) : Nat := 0x1A000320 + 64 * n
abbrev R.OBS_TD_BMEM (n : Nat) : Nat := 0x1A000328 + 64 * n
abbrev R.OBS_TD_BFENCE (n : Nat) : Nat := 0x1A000330 + 64 * n
abbrev R.OBS_TD_BHWS (n : Nat) : Nat := 0x1A000338 + 64 * n
abbrev R.OBS_PMC_A (n : Nat) : Nat := 0x1A000400 + 8 * n
abbrev R.OBS_PMC_B (n : Nat) : Nat := 0x1A000440 + 8 * n
abbrev R.OBS_SMP_LOST_CNT : Nat := 0x1A000380
abbrev R.LOG_ENTRY_CNT : Nat := 0x1A100300
abbrev R.LOG_DROP_CNT : Nat := 0x1A100308
abbrev R.LOG_WRITE_ERR_CNT : Nat := 0x1A100310
abbrev R.LOG_ERASE_CNT : Nat := 0x1A100318
abbrev F.HIF_MSIX_addr : Fld := { lsb := 0, width := 32, ty := .rw }
abbrev F.HIF_MSIX_CTRL_mask : Fld := { lsb := 0, width := 1, ty := .rw, reset := 1 }
abbrev F.HIF_MSIX_PBA_pending : Fld := { lsb := 0, width := 32 }
abbrev R.HIF_MSIX_ADDR_LO (v : Nat) : Nat := 0x1C008000 + 16 * v
abbrev R.HIF_MSIX_ADDR_HI (v : Nat) : Nat := 0x1C008004 + 16 * v
abbrev R.HIF_MSIX_DATA (v : Nat) : Nat := 0x1C008008 + 16 * v
abbrev R.HIF_MSIX_CTRL (v : Nat) : Nat := 0x1C00800C + 16 * v
abbrev R.HIF_MSIX_PBA : Nat := 0x1C009000
abbrev R.HIF_MBX_REQ_CNT : Nat := 0x1C000600
abbrev R.HIF_MBX_TIMEOUT_CNT : Nat := 0x1C000608
abbrev R.HIF_MBX_STRAY_CNT : Nat := 0x1C000610
abbrev R.HIF_LEDGER_DROP_CNT : Nat := 0x1C000618
abbrev R.HIF_ERR_CNT : Nat := 0x1C000620

/-- The register map, part 1. -/
def regFams1 : List RegFam := [
  { base := 0x1B080000, stride := 4, count := 7, bnd := .depth, flds := [F.QCT_DEPTH_depth_assigned] },
  { base := 0x1B08001C, stride := 4, count := 1, bnd := .depth, flds := [F.QCT_DEPTH_depth] },
  { base := 0x1B080020, stride := 4, count := 7, bnd := .depth, flds := [F.QCT_DEPTH_depth_assigned] },
  { base := 0x1B08003C, stride := 4, count := 1, bnd := .depth, flds := [F.QCT_DEPTH_depth] },
  { base := 0x1B080040, stride := 4, count := 5, bnd := .depth, flds := [F.QCT_DEPTH_depth_assigned] },
  { base := 0x1B080054, stride := 4, count := 3, bnd := .depth, flds := [F.QCT_DEPTH_depth] },
  { base := 0x1B080060, stride := 4, count := 9, bnd := .depth, flds := [F.QCT_DEPTH_depth_assigned] },
  { base := 0x1B080084, stride := 4, count := 31, bnd := .depth, flds := [F.QCT_DEPTH_depth] },
  { base := 0x1B080100, stride := 4, count := 64, flds := [F.QCT_FILL_occupied, F.QCT_FILL_waking, F.QCT_FILL_ordered_wait] },
  { base := 0x1B080200, stride := 0, count := 1, flds := [F.QCT_STATUS_depth_pending, F.QCT_STATUS_depth_err, F.QCT_STATUS_stale_drop, F.QCT_STATUS_dual_active, F.QCT_STATUS_live_epoch] },
  { base := 0x1B080208, stride := 0, count := 1, cnt := true },
  { base := 0x10000100, stride := 0, count := 1, car := true, bnd := .carMode, flds := [F.CAR_MODE_rs8, F.CAR_MODE_base, F.CAR_MODE_rate, F.CAR_MODE_h64, F.CAR_MODE_roll, F.CAR_MODE_family] },
  { base := 0x10000104, stride := 0, count := 1, car := true, flds := [F.CAR_MODE_STATUS_mode_err, F.CAR_MODE_STATUS_staged_diff, F.CAR_MODE_STATUS_capacity] },
  { base := 0x10500800, stride := 0, count := 1, car := true, bnd := .frmTx, flds := [F.FRM_ELW_CFG_snr_margin, F.FRM_ELW_CFG_auto_accept] },
  { base := 0x10500804, stride := 0, count := 1, car := true, flds := [F.FRM_ELW_STATUS_tx_state, F.FRM_ELW_STATUS_rx_state, F.FRM_ELW_STATUS_last_id, F.FRM_ELW_STATUS_reason, F.FRM_ELW_STATUS_done, F.FRM_ELW_STATUS_abandoned, F.FRM_ELW_STATUS_rejected, F.FRM_ELW_STATUS_missed_commit] },
  { base := 0x10500808, stride := 0, count := 1, car := true, flds := [F.FRM_MF_COUNT_tx_mf, F.FRM_MF_COUNT_rx_mf] },
  { base := 0x10000200, stride := 0, count := 1, car := true, flds := [F.TXP_STATE_state, F.TXP_STATE_muted, F.TXP_STATE_unmute_pending, F.TXP_STATE_nlc_active, F.TXP_STATE_nlc_bank, F.TXP_STATE_fir_bank] },
  { base := 0x10000204, stride := 0, count := 1, car := true, bnd := .txSf, flds := [F.TXP_CTRL_nlc_en, F.TXP_CTRL_nlc_bank, F.TXP_CTRL_fir_bank, F.TXP_CTRL_test_sel] },
  { base := 0x10000210, stride := 4, count := 4, car := true, bnd := .txSf, flds := [F.TXP_SKEW_skew] },
  { base := 0x10000220, stride := 0, count := 1, car := true, bnd := .txSf, flds := [F.TXP_IQ_TRIM_X_iq_gain, F.TXP_IQ_TRIM_X_iq_phase] },
  { base := 0x10000224, stride := 0, count := 1, car := true, bnd := .txSf, flds := [F.TXP_IQ_TRIM_Y_iq_gain, F.TXP_IQ_TRIM_Y_iq_phase] },
  { base := 0x10000228, stride := 0, count := 1, car := true, bnd := .txSf, flds := [F.TXP_XY_TRIM_xy_gain, F.TXP_XY_TRIM_xy_phase] },
  { base := 0x10000230, stride := 4, count := 4, car := true, bnd := .txSf, flds := [F.TXP_DAC_CFG_swing, F.TXP_DAC_CFG_rms_code] },
  { base := 0x10000240, stride := 0, count := 1, car := true, bnd := .txSf, flds := [F.TXP_NLC_CFG_scale] }]

/-- The register map, part 2. -/
def regFams2 : List RegFam := [
  { base := 0x10000244, stride := 0, count := 1, car := true, flds := [F.TXP_NLC_STATUS_count0, F.TXP_NLC_STATUS_count1] },
  { base := 0x10000250, stride := 0, count := 1, car := true, flds := [F.TXP_STATUS_trim_lim, F.TXP_STATUS_underrun, F.TXP_STATUS_clip, F.TXP_STATUS_nlc_sat, F.TXP_STATUS_engine_fault] },
  { base := 0x10000260, stride := 0, count := 1, car := true, cnt := true },
  { base := 0x10000268, stride := 0, count := 1, car := true, cnt := true },
  { base := 0x10000270, stride := 0, count := 1, car := true, cnt := true },
  { base := 0x10100200, stride := 0, count := 1, car := true, flds := [F.RXF_STATE_state, F.RXF_STATE_acq, F.RXF_STATE_los, F.RXF_STATE_tr_lock, F.RXF_STATE_sf_lock, F.RXF_STATE_hail_cd_found, F.RXF_STATE_hyp] },
  { base := 0x10100204, stride := 0, count := 1, car := true, bnd := .rxSf, flds := [F.RXF_CTRL_iq_auto, F.RXF_CTRL_auto_reacq] },
  { base := 0x10100210, stride := 0, count := 1, car := true, bnd := .rxSf, flds := [F.RXF_CD_CFG_cd_set, F.RXF_CD_CFG_cd_mode] },
  { base := 0x10100214, stride := 0, count := 1, car := true, flds := [F.RXF_CD_STATUS_cd_est, F.RXF_CD_STATUS_cd_hail] },
  { base := 0x10100218, stride := 0, count := 1, car := true, bnd := .rxSf, flds := [F.RXF_HAIL_SCAN_dwell] },
  { base := 0x10100220, stride := 0, count := 1, car := true, bnd := .rxSf, flds := [F.RXF_TR_CFG_tr_bw] },
  { base := 0x10100224, stride := 0, count := 1, car := true, flds := [F.RXF_TR_STATUS_offset] },
  { base := 0x10100228, stride := 0, count := 1, car := true, bnd := .rxSf, flds := [F.RXF_SF_CFG_sf_thresh] },
  { base := 0x10100230, stride := 0, count := 1, car := true, bnd := .rxSf, flds := [F.RXF_IQ_CFG_X_skew, F.RXF_IQ_CFG_X_gain, F.RXF_IQ_CFG_X_phase] },
  { base := 0x10100234, stride := 0, count := 1, car := true, bnd := .rxSf, flds := [F.RXF_IQ_CFG_Y_skew, F.RXF_IQ_CFG_Y_gain, F.RXF_IQ_CFG_Y_phase] },
  { base := 0x10100238, stride := 0, count := 1, car := true, flds := [F.RXF_IQ_EST_X_gain, F.RXF_IQ_EST_X_phase] },
  { base := 0x1010023C, stride := 0, count := 1, car := true, flds := [F.RXF_IQ_EST_Y_gain, F.RXF_IQ_EST_Y_phase] },
  { base := 0x10100240, stride := 0, count := 1, car := true, bnd := .rxSf, flds := [F.RXF_LOS_CFG_los_thr, F.RXF_LOS_CFG_hyst] },
  { base := 0x10100250, stride := 4, count := 4, car := true, flds := [F.RXF_LANE_RMS_rms] },
  { base := 0x10100280, stride := 16, count := 4, car := true, flds := [F.RXF_SUBADC_W0_in_use] },
  { base := 0x10100284, stride := 16, count := 4, car := true, flds := [F.RXF_SUBADC_W1_in_use] },
  { base := 0x10100288, stride := 16, count := 4, car := true, flds := [F.RXF_SUBADC_W2_in_use, F.RXF_SUBADC_W2_used, F.RXF_SUBADC_W2_failed] },
  { base := 0x101002C0, stride := 0, count := 1, car := true, flds := [F.RXF_STATUS_iq_lim, F.RXF_STATUS_clip, F.RXF_STATUS_los_seen, F.RXF_STATUS_sf_loss, F.RXF_STATUS_cd_edge, F.RXF_STATUS_subadc_short, F.RXF_STATUS_engine_fault, F.RXF_STATUS_acq_fail, F.RXF_STATUS_tr_range] },
  { base := 0x10100300, stride := 0, count := 1, car := true, cnt := true }]

/-- The register map, part 3. -/
def regFams3 : List RegFam := [
  { base := 0x10100308, stride := 0, count := 1, car := true, cnt := true },
  { base := 0x10100310, stride := 0, count := 1, car := true, cnt := true },
  { base := 0x10100318, stride := 0, count := 1, car := true, cnt := true },
  { base := 0x10200200, stride := 0, count := 1, car := true, flds := [F.EQZ_STATE_eq_state, F.EQZ_STATE_pol_swap, F.EQZ_STATE_needed, F.EQZ_STATE_spares] },
  { base := 0x10200204, stride := 0, count := 1, car := true, bnd := .rxSf, flds := [F.EQZ_CTRL_ntaps, F.EQZ_CTRL_sop_en, F.EQZ_CTRL_mu_eq, F.EQZ_CTRL_mu_sop, F.EQZ_CTRL_dd_en, F.EQZ_CTRL_slice_thr] },
  { base := 0x10200210, stride := 0, count := 1, car := true, flds := [F.EQZ_SLICE_MAP_roles] },
  { base := 0x10200214, stride := 0, count := 1, car := true, flds := [F.EQZ_SHADOW_STATUS_shadow_age, F.EQZ_SHADOW_STATUS_shadow_valid] },
  { base := 0x10200220, stride := 0, count := 1, car := true, flds := [F.EQZ_SOP_STATUS_sop_rate, F.EQZ_SOP_STATUS_sop_peak] },
  { base := 0x10200224, stride := 0, count := 1, car := true, flds := [F.EQZ_DGD_STATUS_dgd] },
  { base := 0x102002C0, stride := 0, count := 1, car := true, flds := [F.EQZ_STATUS_cfg_lim, F.EQZ_STATUS_slice_fault, F.EQZ_STATUS_no_spare, F.EQZ_STATUS_shadow_stale, F.EQZ_STATUS_sop_over, F.EQZ_STATUS_diverge, F.EQZ_STATUS_engine_fault] },
  { base := 0x10300200, stride := 0, count := 1, car := true, flds := [F.CRR_STATE_cr_state, F.CRR_STATE_llr_valid] },
  { base := 0x10300204, stride := 0, count := 1, car := true, bnd := .rxSf, flds := [F.CRR_CTRL_bps_en, F.CRR_CTRL_pilot_avg, F.CRR_CTRL_bps_half, F.CRR_CTRL_freq_bw, F.CRR_CTRL_llr_scale] },
  { base := 0x10300210, stride := 0, count := 1, car := true, flds := [F.CRR_FREQ_STATUS_offset] },
  { base := 0x10300220, stride := 0, count := 1, car := true, flds := [F.CRR_SNR_snr_x, F.CRR_SNR_snr_y] },
  { base := 0x10300224, stride := 0, count := 1, car := true, flds := [F.CRR_SNR_AVG_snr_avg16, F.CRR_SNR_AVG_count] },
  { base := 0x10300228, stride := 0, count := 1, car := true, flds := [F.CRR_GMI_gmi_x, F.CRR_GMI_gmi_y] },
  { base := 0x103002C0, stride := 0, count := 1, car := true, flds := [F.CRR_STATUS_cfg_lim, F.CRR_STATUS_freq_range, F.CRR_STATUS_lock_loss, F.CRR_STATUS_slip, F.CRR_STATUS_engine_fault, F.CRR_STATUS_below_thr] },
  { base := 0x10400200, stride := 0, count := 1, car := true, flds := [F.FEC_STATE_enc_run, F.FEC_STATE_blk_lock, F.FEC_STATE_lock_phase, F.FEC_STATE_seeded, F.FEC_STATE_spares] },
  { base := 0x10400204, stride := 0, count := 1, car := true, bnd := .fecBlk, flds := [F.FEC_CTRL_iter_max, F.FEC_CTRL_et_en, F.FEC_CTRL_excess_thr] },
  { base := 0x10400210, stride := 0, count := 1, car := true, flds := [F.FEC_ENGINE_MAP_roles] },
  { base := 0x10400214, stride := 0, count := 1, car := true, flds := [F.FEC_CHAIN_MAP_engines] },
  { base := 0x10400220, stride := 0, count := 1, car := true, flds := [F.FEC_GMI_gmi_x, F.FEC_GMI_gmi_y] },
  { base := 0x10400230, stride := 0, count := 1, car := true, bnd := .fecBlk, flds := [F.FEC_IOP_CFG_iop_mode] },
  { base := 0x104002C0, stride := 0, count := 1, car := true, flds := [F.FEC_STATUS_cfg_lim, F.FEC_STATUS_dec_fault, F.FEC_STATUS_no_spare, F.FEC_STATUS_enc_fault, F.FEC_STATUS_lock_loss, F.FEC_STATUS_seed_fail, F.FEC_STATUS_dm_invalid, F.FEC_STATUS_uncorr] }]

/-- The register map, part 4. -/
def regFams4 : List RegFam := [
  { base := 0x10600200, stride := 0, count := 1, car := true, flds := [F.HAIL_STATE_tx_cond, F.HAIL_STATE_rx_cond, F.HAIL_STATE_rx_state, F.HAIL_STATE_tx_fifo, F.HAIL_STATE_rx_pending] },
  { base := 0x10600204, stride := 0, count := 1, car := true, flds := [F.HAIL_CFG_corr_thr, F.HAIL_CFG_win_thr, F.HAIL_CFG_loss_ms] },
  { base := 0x10600210, stride := 0, count := 1, car := true, flds := [F.HAIL_RX_STATUS_offset, F.HAIL_RX_STATUS_lock_metric, F.HAIL_RX_STATUS_agc_gain] },
  { base := 0x10600214, stride := 0, count := 1, car := true, flds := [F.HAIL_SEQ_tx_seq, F.HAIL_SEQ_rx_seq] },
  { base := 0x106002C0, stride := 0, count := 1, car := true, flds := [F.HAIL_STATUS_cfg_lim, F.HAIL_STATUS_false_start, F.HAIL_STATUS_capture, F.HAIL_STATUS_hdr_invalid, F.HAIL_STATUS_crc32_fail, F.HAIL_STATUS_burst_lost, F.HAIL_STATUS_hail_loss, F.HAIL_STATUS_rx_overflow, F.HAIL_STATUS_seq_gap, F.HAIL_STATUS_tx_cut, F.HAIL_STATUS_engine_fault] },
  { base := 0x1C004000, stride := 4, count := 8, claim := some (0x18, 1), flds := [F.OSP_CFG_div, F.OSP_CFG_fill, F.OSP_CFG_enable] },
  { base := 0x1C004020, stride := 4, count := 8, claim := some (0x18, 1), flds := [F.OSP_STATUS_rx_ovf, F.OSP_STATUS_ins_ovf, F.OSP_STATUS_rx_fill, F.OSP_STATUS_ins_fill] },
  { base := 0x10500200, stride := 0, count := 1, car := true, flds := [F.FRM_STATE_in_frame, F.FRM_STATE_in_mf, F.FRM_STATE_candidates, F.FRM_STATE_cal_run, F.FRM_STATE_map_sel_rx] },
  { base := 0x10500204, stride := 0, count := 1, car := true, flds := [F.FRM_DEFECT_los, F.FRM_DEFECT_oof, F.FRM_DEFECT_lof, F.FRM_DEFECT_oom, F.FRM_DEFECT_lom, F.FRM_DEFECT_deg, F.FRM_DEFECT_cph, F.FRM_DEFECT_bdi_far, F.FRM_DEFECT_bsd_far, F.FRM_DEFECT_bdi_tx, F.FRM_DEFECT_repl] },
  { base := 0x10500208, stride := 0, count := 1, car := true, bnd := .frmTx, flds := [F.FRM_CFG_deg_thr, F.FRM_CFG_deg_m] },
  { base := 0x1050020C, stride := 0, count := 1, car := true, bnd := .frmTx, flds := [F.FRM_CA_CFG_bdi_en, F.FRM_CA_CFG_repl_en] },
  { base := 0x105002C0, stride := 0, count := 1, car := true, flds := [F.FRM_STATUS_cfg_lim, F.FRM_STATUS_lof_seen, F.FRM_STATUS_lom_seen, F.FRM_STATUS_deg_seen, F.FRM_STATUS_bdi_seen, F.FRM_STATUS_rp_err, F.FRM_STATUS_cal_err, F.FRM_STATUS_engine_fault] },
  { base := 0x12001000, stride := 8, count := 128, bnd := .clmCfg, flds := [F.CLM_CLIENT_CFG_enable, F.CLM_CLIENT_CFG_carrier, F.CLM_CLIENT_CFG_kind, F.CLM_CLIENT_CFG_src_type, F.CLM_CLIENT_CFG_src_index, F.CLM_CLIENT_CFG_eth_type, F.CLM_CLIENT_CFG_lane_rate, F.CLM_CLIENT_CFG_rx_trib, F.CLM_CLIENT_CFG_pb] },
  { base := 0x12001004, stride := 8, count := 128, flds := [F.CLM_CLIENT_STATUS_tx_slots, F.CLM_CLIENT_STATUS_rx_slots, F.CLM_CLIENT_STATUS_repl, F.CLM_CLIENT_STATUS_host_fail, F.CLM_CLIENT_STATUS_below_bound] },
  { base := 0x12000400, stride := 8, count := 8, bnd := .clmCfg, flds := [F.CLM_FLEXE_GRP_enable, F.CLM_FLEXE_GRP_phy_type, F.CLM_FLEXE_GRP_first_lane, F.CLM_FLEXE_GRP_phys, F.CLM_FLEXE_GRP_lane_rate, F.CLM_FLEXE_GRP_cal_sel, F.CLM_FLEXE_GRP_cal_act] },
  { base := 0x12000200, stride := 0, count := 1, flds := [F.CLM_CFG_STATUS_cfg_err, F.CLM_CFG_STATUS_staged_diff, F.CLM_CFG_STATUS_err_client] },
  { base := 0x120002C0, stride := 0, count := 1, flds := [F.CLM_STATUS_cfg_lim, F.CLM_STATUS_overrun, F.CLM_STATUS_underrun, F.CLM_STATUS_engine_fault] },
  { base := 0x12101000, stride := 32, count := 64, flds := [F.BRT_PB_00_pol_en, F.BRT_PB_00_shp_en, F.BRT_PB_00_pol_fill, F.BRT_PB_00_shp_fill, F.BRT_PB_00_overhead, F.BRT_PB_00_max_frame] },
  { base := 0x12101004, stride := 32, count := 64, flds := [F.BRT_PB_04_cir] },
  { base := 0x12101008, stride := 32, count := 64, flds := [F.BRT_PB_08_pir] },
  { base := 0x1210100C, stride := 32, count := 64, flds := [F.BRT_PB_0C_cbs] },
  { base := 0x12101010, stride := 32, count := 64, flds := [F.BRT_PB_10_pbs] },
  { base := 0x12101014, stride := 32, count := 64, flds := [F.BRT_PB_14_shp_rate] },
  { base := 0x12101018, stride := 32, count := 64, flds := [F.BRT_PB_18_shp_burst] }]

/-- The register map, part 5. -/
def regFams5 : List RegFam := [
  { base := 0x1210101C, stride := 32, count := 64, flds := [F.BRT_PB_1C_buf_max, F.BRT_PB_1C_yel_thr] },
  { base := 0x12101800, stride := 4, count := 64, flds := [F.BRT_PB_STATUS_occupancy, F.BRT_PB_STATUS_gate, F.BRT_PB_STATUS_sync, F.BRT_PB_STATUS_slots] },
  { base := 0x121002C0, stride := 0, count := 1, flds := [F.BRT_STATUS_cfg_lim, F.BRT_STATUS_pool_full, F.BRT_STATUS_hunt, F.BRT_STATUS_engine_fault, F.BRT_STATUS_free_cells] },
  { base := 0x13001000, stride := 16, count := 24, flds := [F.HLN_LANE_CFG_tx_precode, F.HLN_LANE_CFG_rx_precode, F.HLN_LANE_CFG_tx_inv, F.HLN_LANE_CFG_rx_inv, F.HLN_LANE_CFG_preset] },
  { base := 0x13001004, stride := 16, count := 24, flds := [F.HLN_LANE_STATUS_pstate, F.HLN_LANE_STATUS_los, F.HLN_LANE_STATUS_cdr_lock, F.HLN_LANE_STATUS_rx_ready, F.HLN_LANE_STATUS_rate, F.HLN_LANE_STATUS_snr] },
  { base := 0x13000100, stride := 4, count := 4, flds := [F.HLN_GRP_CFG_ref_sel] },
  { base := 0x13100200, stride := 0, count := 1, flds := [F.QLK_CTRL_enable] },
  { base := 0x13100204, stride := 0, count := 1, flds := [F.QLK_STATE_locked, F.QLK_STATE_deskewed, F.QLK_STATE_link_up, F.QLK_STATE_tx_map_sel, F.QLK_STATE_rx_map_sel] },
  { base := 0x13100208, stride := 0, count := 1, flds := [F.QLK_SEQ_TX_seq] },
  { base := 0x1310020C, stride := 0, count := 1, flds := [F.QLK_SEQ_RX_seq] },
  { base := 0x130002C0, stride := 0, count := 1, flds := [F.HLN_STATUS_cfg_lim, F.HLN_STATUS_los_seen, F.HLN_STATUS_lane_fault, F.HLN_STATUS_mis_wire, F.HLN_STATUS_deskew_err, F.HLN_STATUS_link_down] },
  { base := 0x131002C0, stride := 0, count := 1, flds := [F.QLK_STATUS_cfg_lim, F.QLK_STATUS_los_seen, F.QLK_STATUS_lane_fault, F.QLK_STATUS_mis_wire, F.QLK_STATUS_deskew_err, F.QLK_STATUS_link_down] },
  { base := 0x14000200, stride := 0, count := 1, flds := [F.CPH_STATE_healthy, F.CPH_STATE_needed, F.CPH_STATE_spares, F.CPH_STATE_prog_ok, F.CPH_STATE_shedding, F.CPH_STATE_unrec_a, F.CPH_STATE_unrec_b, F.CPH_STATE_prog_ver] },
  { base := 0x14000210, stride := 0, count := 1, flds := [F.CPH_UNIT_MAP0_roles] },
  { base := 0x14000214, stride := 0, count := 1, flds := [F.CPH_UNIT_MAP1_roles] },
  { base := 0x14001000, stride := 4, count := 128, flds := [F.CPH_CLIENT_STATUS_tx_mode, F.CPH_CLIENT_STATUS_rx_mode, F.CPH_CLIENT_STATUS_tx_slot, F.CPH_CLIENT_STATUS_rx_slot, F.CPH_CLIENT_STATUS_tx_active, F.CPH_CLIENT_STATUS_rx_active, F.CPH_CLIENT_STATUS_tx_squelch, F.CPH_CLIENT_STATUS_rx_squelch, F.CPH_CLIENT_STATUS_rx_fail, F.CPH_CLIENT_STATUS_shed, F.CPH_CLIENT_STATUS_tx_next, F.CPH_CLIENT_STATUS_rx_next, F.CPH_CLIENT_STATUS_tx_age] },
  { base := 0x140002C0, stride := 0, count := 1, flds := [F.CPH_STATUS_mismatch, F.CPH_STATUS_abandon, F.CPH_STATUS_squelch, F.CPH_STATUS_auth_fail, F.CPH_STATUS_rx_fail, F.CPH_STATUS_shed, F.CPH_STATUS_engine_fault, F.CPH_STATUS_win_stall, F.CPH_STATUS_zeroised] },
  { base := 0x1F000000, stride := 0, count := 1, flds := [F.SEC_STATE_state, F.SEC_STATE_debug_open, F.SEC_STATE_zeroize_held, F.SEC_STATE_cipher_absent, F.SEC_STATE_fail_code, F.SEC_STATE_anchor_state, F.SEC_STATE_rom_ver] },
  { base := 0x1F000200, stride := 0, count := 1, flds := [F.SEC_SESS_A_sess_state, F.SEC_SESS_A_role, F.SEC_SESS_A_act_pending_tx, F.SEC_SESS_A_act_pending_rx, F.SEC_SESS_A_last_abort] },
  { base := 0x1F000300, stride := 0, count := 1, flds := [F.SEC_SESS_B_sess_state, F.SEC_SESS_B_role, F.SEC_SESS_B_act_pending_tx, F.SEC_SESS_B_act_pending_rx, F.SEC_SESS_B_last_abort] },
  { base := 0x1F000800, stride := 16, count := 2, flds := [F.SEC_CH_CTRL_go] },
  { base := 0x1F000804, stride := 16, count := 2, flds := [F.SEC_CH_STATUS_busy, F.SEC_CH_STATUS_done, F.SEC_CH_STATUS_refused, F.SEC_CH_STATUS_result, F.SEC_CH_STATUS_length] },
  { base := 0x1B000200, stride := 0, count := 1, flds := [F.PLT_CFG_wtr, F.PLT_CFG_revert_en, F.PLT_CFG_wdog] },
  { base := 0x1B000204, stride := 0, count := 1, flds := [F.PLT_STATUS_active, F.PLT_STATUS_role_a, F.PLT_STATUS_role_b, F.PLT_STATUS_pilot_ok, F.PLT_STATUS_dual_active, F.PLT_STATUS_wtr_run, F.PLT_STATUS_force_a, F.PLT_STATUS_force_b, F.PLT_STATUS_selftest] }]

/-- The register map, part 6. -/
def regFams6 : List RegFam := [
  { base := 0x1B000208, stride := 0, count := 1, flds := [F.PLT_WTR_REMAIN_remain] },
  { base := 0x1B000210, stride := 0, count := 1, flds := [F.PLT_LAST_cause, F.PLT_LAST_from, F.PLT_LAST_old_epoch] },
  { base := 0x1B0002C0, stride := 0, count := 1, flds := [F.PLT_STATUS_EV_cfg_lim, F.PLT_STATUS_EV_failover, F.PLT_STATUS_EV_revert, F.PLT_STATUS_EV_pilot_fail, F.PLT_STATUS_EV_forced, F.PLT_STATUS_EV_force_refused, F.PLT_STATUS_EV_force_conflict, F.PLT_STATUS_EV_selftest_fail, F.PLT_STATUS_EV_cold_resume] },
  { base := 0x1B100200, stride := 0, count := 1, flds := [F.HWS_STATE_sync, F.HWS_STATE_pending, F.HWS_STATE_ext] },
  { base := 0x1B1002C0, stride := 0, count := 1, flds := [F.HWS_STATUS_overrun, F.HWS_STATUS_frame_err, F.HWS_STATUS_resync] },
  { base := 0x16000200, stride := 0, count := 1, flds := [F.REF_STATE_dpll_state, F.REF_STATE_st_code, F.REF_STATE_sel_src, F.REF_STATE_sel_valid, F.REF_STATE_xtal_ok, F.REF_STATE_tie_alarm, F.REF_STATE_hold_oos, F.REF_STATE_cfg_err] },
  { base := 0x16000204, stride := 0, count := 1, bnd := .refCfg, flds := [F.REF_CFG_bw, F.REF_CFG_force_en, F.REF_CFG_force_src, F.REF_CFG_tie_thr] },
  { base := 0x16000208, stride := 0, count := 1, bnd := .refCfg, flds := [F.REF_SLEW_slew_lim] },
  { base := 0x1600020C, stride := 0, count := 1, bnd := .refCfg, flds := [F.REF_HOLD_CFG_hold_class, F.REF_HOLD_CFG_hold_avg] },
  { base := 0x16000220, stride := 0, count := 1, bnd := .refCfg, flds := [F.REF_STEER_steer] },
  { base := 0x16000100, stride := 0, count := 1, flds := [F.REF_DEVTIME_LO_devtime] },
  { base := 0x16000104, stride := 0, count := 1, flds := [F.REF_DEVTIME_HI_devtime] },
  { base := 0x16000108, stride := 0, count := 1, bnd := .refCfg, flds := [F.REF_DEVTIME_INC_inc] },
  { base := 0x16001000, stride := 8, count := 32, bnd := .refCfg, flds := [F.REF_SRC_CFG_enable, F.REF_SRC_CFG_rank, F.REF_SRC_CFG_freq, F.REF_SRC_CFG_lockout, F.REF_SRC_CFG_disq_ppm, F.REF_SRC_CFG_wtr] },
  { base := 0x16001004, stride := 8, count := 32, flds := [F.REF_SRC_STATUS_qualified, F.REF_SRC_STATUS_active, F.REF_SRC_STATUS_reason] },
  { base := 0x16000300, stride := 0, count := 1, bnd := .refCfg, flds := [F.REF_PULSE_CFG_align_src, F.REF_PULSE_CFG_align_thr] },
  { base := 0x16000310, stride := 4, count := 2, bnd := .refCfg, flds := [F.REF_OUT_CFG_mode_pps, F.REF_OUT_CFG_width_pps] },
  { base := 0x16000318, stride := 4, count := 2, bnd := .refCfg, flds := [F.REF_OUT_CFG_mode_sf, F.REF_OUT_CFG_width_sf] },
  { base := 0x16000250, stride := 0, count := 1, flds := [F.REF_ROOT_LOSS_lost] },
  { base := 0x160002C0, stride := 0, count := 1, flds := [F.REF_STATUS_cfg_lim, F.REF_STATUS_switch, F.REF_STATUS_tie, F.REF_STATUS_hold_entered, F.REF_STATUS_hold_oos, F.REF_STATUS_xtal_loss, F.REF_STATUS_realign, F.REF_STATUS_engine_fault] },
  { base := 0x17001030, stride := 16, count := 7, flds := [F.PWR_DOM_CFG_park_mode, F.PWR_DOM_CFG_idle_us] },
  { base := 0x17001034, stride := 16, count := 7, flds := [F.PWR_DOM_WAKE_gpio_lvl_en, F.PWR_DOM_WAKE_gpio_edge_en, F.PWR_DOM_WAKE_tmr_en, F.PWR_DOM_WAKE_sd_en, F.PWR_DOM_WAKE_gpio, F.PWR_DOM_WAKE_gpio_pol, F.PWR_DOM_WAKE_tmr] },
  { base := 0x17001038, stride := 16, count := 7, flds := [F.PWR_DOM_STATE_state, F.PWR_DOM_STATE_phase] },
  { base := 0x1700103C, stride := 16, count := 7, flds := [F.PWR_DOM_REFUSE_block, F.PWR_DOM_REFUSE_reason] }]

/-- The register map, part 7. -/
def regFams7 : List RegFam := [
  { base := 0x17000200, stride := 0, count := 1, flds := [F.PWR_AVS_CFG_target_mv, F.PWR_AVS_CFG_avs_div] },
  { base := 0x17000204, stride := 0, count := 1, flds := [F.PWR_AVS_VOLT_volt] },
  { base := 0x17000208, stride := 0, count := 1, flds := [F.PWR_AVS_CURR_curr, F.PWR_AVS_CURR_avs_status] },
  { base := 0x17000210, stride := 0, count := 1, flds := [F.PWR_PARKED_ACCESS_flag_d, F.PWR_PARKED_ACCESS_last_block, F.PWR_PARKED_ACCESS_requester, F.PWR_PARKED_ACCESS_last_write] },
  { base := 0x170002C0, stride := 0, count := 1, flds := [F.PWR_STATUS_cfg_lim, F.PWR_STATUS_refuse, F.PWR_STATUS_abort, F.PWR_STATUS_avs_err, F.PWR_STATUS_avs_dev, F.PWR_STATUS_engine_fault] },
  { base := 0x18000010, stride := 4, count := 4, claim := some (0x20, 1), flds := [F.MON_CFG_ratio, F.MON_CFG_reg_len, F.MON_CFG_inj_len, F.MON_CFG_reg_trig, F.MON_CFG_reg_tmr, F.MON_CFG_fir_en] },
  { base := 0x18000020, stride := 4, count := 4, claim := some (0x20, 1), flds := [F.MON_TRIG_delay, F.MON_TRIG_inj_tmr, F.MON_TRIG_inj_tmr_en, F.MON_TRIG_urgent_mask, F.MON_TRIG_sw_reg, F.MON_TRIG_sw_inj] },
  { base := 0x18000100, stride := 4, count := 4, flds := [F.MON_RES_M_result] },
  { base := 0x18000110, stride := 4, count := 4, flds := [F.MON_RES_INFO_M_channel, F.MON_RES_INFO_M_entry, F.MON_RES_INFO_M_injected, F.MON_RES_INFO_M_busy, F.MON_RES_INFO_M_fresh] },
  { base := 0x180002C0, stride := 0, count := 1, flds := [F.MON_STATUS_cfg_lim, F.MON_STATUS_range, F.MON_STATUS_overrun, F.MON_STATUS_abandon, F.MON_STATUS_fir_off, F.MON_STATUS_engine_fault] },
  { base := 0x18100200, stride := 0, count := 1, flds := [F.ANL_CFG_temp_thr, F.ANL_CFG_auto_en] },
  { base := 0x18100204, stride := 0, count := 1, flds := [F.ANL_STATE_busy_a_adc, F.ANL_STATE_busy_a_dac, F.ANL_STATE_busy_b_adc, F.ANL_STATE_busy_b_dac, F.ANL_STATE_held, F.ANL_STATE_pending] },
  { base := 0x18101000, stride := 16, count := 16, flds := [F.ANL_CONV_TEMP_temp_last] },
  { base := 0x1810100C, stride := 16, count := 8, flds := [F.ANL_CONV_STAT_used_adc, F.ANL_CONV_STAT_failed, F.ANL_CONV_STAT_result] },
  { base := 0x1810108C, stride := 16, count := 8, flds := [F.ANL_CONV_STAT_used_dac, F.ANL_CONV_STAT_failed, F.ANL_CONV_STAT_result] },
  { base := 0x181002C0, stride := 0, count := 1, flds := [F.ANL_STATUS_cfg_lim, F.ANL_STATUS_elem_fail, F.ANL_STATUS_dac_short, F.ANL_STATUS_abandon, F.ANL_STATUS_engine_fault] },
  { base := 0x19000200, stride := 0, count := 1, flds := [F.MEM_CFG_rpt_thr] },
  { base := 0x19001000, stride := 8, count := 16, flds := [F.MEM_RPT_region, F.MEM_RPT_valid, F.MEM_RPT_written_back, F.MEM_RPT_count] },
  { base := 0x19001004, stride := 8, count := 16, flds := [F.MEM_RPT_WORD_word] },
  { base := 0x19000210, stride := 0, count := 1, flds := [F.MEM_LAST_UNCORR_region] },
  { base := 0x19000214, stride := 0, count := 1, flds := [F.MEM_LAST_UNCORR_WORD_word] },
  { base := 0x19000220, stride := 0, count := 1, flds := [F.MEM_REPAIR_SUM_rows_factory, F.MEM_REPAIR_SUM_rows_field, F.MEM_REPAIR_SUM_cols, F.MEM_REPAIR_SUM_unrepaired] },
  { base := 0x190002C0, stride := 0, count := 1, flds := [F.MEM_STATUS_cfg_lim, F.MEM_STATUS_persist, F.MEM_STATUS_uncorr, F.MEM_STATUS_hard, F.MEM_STATUS_repair_short, F.MEM_STATUS_engine_fault, F.MEM_STATUS_scrub_busy] },
  { base := 0x19100200, stride := 0, count := 1, flds := [F.SCU_EXPECT_value] }]

/-- The register map, part 8. -/
def regFams8 : List RegFam := [
  { base := 0x19100204, stride := 0, count := 1, flds := [F.SCU_RESULT_value] },
  { base := 0x191002C0, stride := 0, count := 1, flds := [F.SCU_STATUS_mismatch, F.SCU_STATUS_uncorr, F.SCU_STATUS_engine_fault, F.SCU_STATUS_busy] },
  { base := 0x1A000200, stride := 0, count := 1, flds := [F.OBS_SNAP_STATUS_latest, F.OBS_SNAP_STATUS_writing, F.OBS_SNAP_STATUS_held, F.OBS_SNAP_STATUS_held_buf, F.OBS_SNAP_STATUS_seq] },
  { base := 0x1A000204, stride := 0, count := 1, flds := [F.OBS_SNAP_CTRL_hold, F.OBS_SNAP_CTRL_release] },
  { base := 0x1A001000, stride := 4, count := 256, flds := [F.OBS_OVF_ovf] },
  { base := 0x1A000210, stride := 0, count := 1, flds := [F.OBS_SMP_CFG_enable, F.OBS_SMP_CFG_wrap, F.OBS_SMP_CFG_jitter, F.OBS_SMP_CFG_smp_log, F.OBS_SMP_CFG_irq_fill] },
  { base := 0x1A000214, stride := 0, count := 1, flds := [F.OBS_SMP_STATUS_fill] },
  { base := 0x1A0002C0, stride := 0, count := 1, flds := [F.OBS_STATUS_cfg_lim, F.OBS_STATUS_ovf_any, F.OBS_STATUS_smp_full, F.OBS_STATUS_engine_fault] },
  { base := 0x1A100200, stride := 0, count := 1, flds := [F.LOG_REGION_base, F.LOG_REGION_length] },
  { base := 0x1A100204, stride := 0, count := 1, flds := [F.LOG_CFG_enable, F.LOG_CFG_log_sev] },
  { base := 0x1A100208, stride := 0, count := 1, flds := [F.LOG_STATE_state, F.LOG_STATE_staged, F.LOG_STATE_sec_wait] },
  { base := 0x1A1002C0, stride := 0, count := 1, flds := [F.LOG_STATUS_cfg_lim, F.LOG_STATUS_drop, F.LOG_STATUS_write_err, F.LOG_STATUS_totals_lost, F.LOG_STATUS_engine_fault] },
  { base := 0x1C000000, stride := 0, count := 1, flds := [F.HIF_DEVICE_ID_part_code, F.HIF_DEVICE_ID_die_rev, F.HIF_DEVICE_ID_family] },
  { base := 0x1C00000C, stride := 0, count := 1, flds := [F.HIF_BOOT_hw_stage, F.HIF_BOOT_stage_a, F.HIF_BOOT_stage_b] },
  { base := 0x1C000204, stride := 0, count := 1, flds := [F.HIF_CFG_i2c_addr, F.HIF_CFG_int_sev, F.HIF_CFG_alarm_sev, F.HIF_CFG_mbx_ms] },
  { base := 0x1C000210, stride := 0, count := 1, flds := [F.HIF_ERR_hx, F.HIF_ERR_unmapped, F.HIF_ERR_width, F.HIF_ERR_region, F.HIF_ERR_mbx_busy, F.HIF_ERR_mbx_tag, F.HIF_ERR_mbx_port, F.HIF_ERR_i2c_range, F.HIF_ERR_i2c_partial, F.HIF_ERR_uncorr] },
  { base := 0x1C0002C0, stride := 0, count := 1, flds := [F.HIF_STATUS_cfg_lim, F.HIF_STATUS_mbx_timeout, F.HIF_STATUS_ledger_drop, F.HIF_STATUS_link_up, F.HIF_STATUS_link_width, F.HIF_STATUS_link_speed, F.HIF_STATUS_engine_fault] },
  { base := 0x1C004100, stride := 4, count := 16, claim := some (0x00, 1), flds := [F.GPIO_CTL_oe, F.GPIO_CTL_out, F.GPIO_CTL_od, F.GPIO_CTL_pull, F.GPIO_CTL_in, F.GPIO_CTL_held, F.GPIO_CTL_func] },
  { base := 0x12000404, stride := 8, count := 8, bnd := .clmCfg, flds := [F.CLM_FLEXE_NUM_num] },
  { base := 0x13101000, stride := 16, count := 8, flds := [F.QLK_LANE_CFG_tx_precode, F.QLK_LANE_CFG_rx_precode, F.QLK_LANE_CFG_tx_inv, F.QLK_LANE_CFG_rx_inv, F.QLK_LANE_CFG_preset] },
  { base := 0x13101004, stride := 16, count := 8, flds := [F.QLK_LANE_STATUS_pstate, F.QLK_LANE_STATUS_los, F.QLK_LANE_STATUS_cdr_lock, F.QLK_LANE_STATUS_rx_ready, F.QLK_LANE_STATUS_snr, F.QLK_LANE_STATUS_block_lock, F.QLK_LANE_STATUS_mis_wire] },
  { base := 0x1F000010, stride := 4, count := 12, flds := [F.SEC_FP_fp] },
  { base := 0x1F000100, stride := 4, count := 12, flds := [F.SEC_ANCHOR_0_hash] },
  { base := 0x1F000140, stride := 4, count := 12, flds := [F.SEC_ANCHOR_1_hash] }]

/-- The register map, part 9. -/
def regFams9 : List RegFam := [
  { base := 0x1F000180, stride := 4, count := 12, flds := [F.SEC_ANCHOR_2_hash] },
  { base := 0x1F0001C0, stride := 4, count := 12, flds := [F.SEC_ANCHOR_3_hash] },
  { base := 0x1F000204, stride := 256, count := 2, flds := [F.SEC_TX_EPOCH_n] },
  { base := 0x1F000208, stride := 256, count := 2, flds := [F.SEC_RX_EPOCH_n] },
  { base := 0x1F00020C, stride := 256, count := 2, flds := [F.SEC_SESS_AGE_n] },
  { base := 0x1F000210, stride := 4, count := 12, flds := [F.SEC_PEER_FP_A_fp] },
  { base := 0x1F000310, stride := 4, count := 12, flds := [F.SEC_PEER_FP_B_fp] },
  { base := 0x1F000400, stride := 0, count := 1, flds := [F.SEC_TIMER_REKEY_AGE_v] },
  { base := 0x1F000404, stride := 0, count := 1, flds := [F.SEC_TIMER_FULL_PERIOD_v] },
  { base := 0x1F000408, stride := 0, count := 1, flds := [F.SEC_TIMER_ACT_LEAD_v] },
  { base := 0x1F00040C, stride := 0, count := 1, flds := [F.SEC_TIMER_KA_TIMEOUT_v] },
  { base := 0x1B000218, stride := 0, count := 1, flds := [F.PLT_LAST_TIME_LO_value] },
  { base := 0x1B00021C, stride := 0, count := 1, flds := [F.PLT_LAST_TIME_HI_value] },
  { base := 0x16000210, stride := 0, count := 1, bnd := .refCfg, flds := [F.REF_HOLD_LIMIT_hold_limit] },
  { base := 0x16000214, stride := 0, count := 1, bnd := .refCfg, flds := [F.REF_HOLD_DRIFT_drift] },
  { base := 0x16000230, stride := 0, count := 1, flds := [F.REF_HOLD_WORD_value] },
  { base := 0x16000234, stride := 0, count := 1, flds := [F.REF_HOLD_U0_value] },
  { base := 0x16000238, stride := 0, count := 1, flds := [F.REF_HOLD_REMAIN_value] },
  { base := 0x16000224, stride := 0, count := 1, flds := [F.REF_ROOT_OFFSET_value] },
  { base := 0x16000228, stride := 0, count := 1, flds := [F.REF_DPLL_WORD_value] },
  { base := 0x16001100, stride := 4, count := 32, flds := [F.REF_SRC_OFFSET_value] },
  { base := 0x16000320, stride := 8, count := 4, bnd := .refCfg, flds := [F.REF_OUT_OFS_LO_ofs] },
  { base := 0x16000324, stride := 8, count := 4, bnd := .refCfg, flds := [F.REF_OUT_OFS_HI_ofs] },
  { base := 0x16000400, stride := 8, count := 3, flds := [F.REF_PPS_TS_LO_ts] }]

/-- The register map, part 10. -/
def regFams10 : List RegFam := [
  { base := 0x16000404, stride := 8, count := 3, flds := [F.REF_PPS_TS_HI_ts] },
  { base := 0x16000420, stride := 0, count := 1, flds := [F.REF_SF_MARK_A_LO_ts] },
  { base := 0x16000424, stride := 0, count := 1, flds := [F.REF_SF_MARK_A_HI_ts] },
  { base := 0x16000428, stride := 0, count := 1, flds := [F.REF_SF_MARK_B_LO_ts] },
  { base := 0x1600042C, stride := 0, count := 1, flds := [F.REF_SF_MARK_B_HI_ts] },
  { base := 0x18000300, stride := 4, count := 128, claim := some (0x20, 32), flds := [F.MON_SEQ_channel, F.MON_SEQ_n1] },
  { base := 0x18000500, stride := 4, count := 16, claim := some (0x20, 4), flds := [F.MON_INJ_channel, F.MON_INJ_n1] },
  { base := 0x18000600, stride := 4, count := 128, flds := [F.MON_ENT_RES_result] },
  { base := 0x18000800, stride := 4, count := 16, flds := [F.MON_INJ_RES_result] },
  { base := 0x18000180, stride := 4, count := 8, flds := [F.MON_TEMP_temp] },
  { base := 0x18000A10, stride := 4, count := 8, bnd := .tmrWrap, claim := some (0x10, 1), flds := [F.TMR_DUTY_duty] },
  { base := 0x18000A40, stride := 4, count := 8, claim := some (0x10, 1), flds := [F.TMR_CFG_enable, F.TMR_CFG_pwm_en, F.TMR_CFG_pol] },
  { base := 0x18000A60, stride := 4, count := 8, bnd := .tmrWrap, claim := some (0x10, 1), flds := [F.TMR_PERIOD_period] },
  { base := 0x18000A80, stride := 4, count := 8, bnd := .tmrWrap, claim := some (0x10, 1), flds := [F.TMR_CMP_cmp] },
  { base := 0x18000AA0, stride := 4, count := 8, claim := some (0x10, 1), flds := [F.TMR_COUNT_count] },
  { base := 0x18101004, stride := 16, count := 16, flds := [F.ANL_CONV_TIME_LO_time] },
  { base := 0x18101008, stride := 16, count := 16, flds := [F.ANL_CONV_TIME_HI_time] },
  { base := 0x1A100210, stride := 0, count := 1, flds := [F.LOG_NEXT_SEQ_LO_seq] },
  { base := 0x1A100214, stride := 0, count := 1, flds := [F.LOG_NEXT_SEQ_HI_seq] },
  { base := 0x1C000004, stride := 0, count := 1, flds := [F.HIF_PCI_ID_vendor, F.HIF_PCI_ID_device] },
  { base := 0x1C000008, stride := 0, count := 1, flds := [F.HIF_STATUS_BOOT_fail_code] },
  { base := 0x1C000214, stride := 0, count := 1, flds := [F.HIF_ERR_ADDR_addr] },
  { base := 0x1C000218, stride := 0, count := 1, flds := [F.HIF_ERR_PORT_port] },
  { base := 0x1C000300, stride := 4, count := 2, flds := [F.HIF_MBX_BUSY_busy] }]

/-- The register map, part 11. -/
def regFams11 : List RegFam := [
  { base := 0x1C000308, stride := 4, count := 2, flds := [F.HIF_MBX_PEND_pend] },
  { base := 0x1C000310, stride := 0, count := 1, flds := [F.HIF_MBX_TAKE_slot] },
  { base := 0x1C000314, stride := 0, count := 1, flds := [F.HIF_MBX_DONE_slot, F.HIF_MBX_DONE_result] },
  { base := 0x1C000320, stride := 0, count := 1, flds := [F.HIF_LEDGER_WR_count] },
  { base := 0x1C000330, stride := 0, count := 1, flds := [F.HIF_ALARM_pending] },
  { base := 0x1C000340, stride := 0, count := 1, flds := [F.HIF_IRQ_PEND_pend] },
  { base := 0x1C000344, stride := 0, count := 1, flds := [F.HIF_IRQ_MASK_mask] },
  { base := 0x1C000348, stride := 0, count := 1, flds := [F.HIF_SW_IRQ_raise] },
  { base := 0x1C000350, stride := 0, count := 1, flds := [F.HIF_SWRESET_reset] },
  { base := 0x1C000400, stride := 0, count := 1, flds := [F.HIF_FLASH_CMD_op, F.HIF_FLASH_CMD_go] },
  { base := 0x1C000404, stride := 0, count := 1, flds := [F.HIF_FLASH_ADDR_offset] },
  { base := 0x1C000408, stride := 0, count := 1, flds := [F.HIF_FLASH_STATUS_done, F.HIF_FLASH_STATUS_refused] },
  { base := 0x1C000500, stride := 4, count := 64, flds := [F.HIF_FLASH_DATA_data] },
  { base := 0x1C008000, stride := 16, count := 32, flds := [F.HIF_MSIX_addr] },
  { base := 0x1C008004, stride := 16, count := 32, flds := [F.HIF_MSIX_addr] },
  { base := 0x1C008008, stride := 16, count := 32, flds := [F.HIF_MSIX_addr] },
  { base := 0x1C00800C, stride := 16, count := 32, flds := [F.HIF_MSIX_CTRL_mask] },
  { base := 0x1C009000, stride := 0, count := 1, flds := [F.HIF_MSIX_PBA_pending] },
  { base := 0x10200300, stride := 0, count := 1, car := true, cnt := true },
  { base := 0x10200308, stride := 0, count := 1, car := true, cnt := true },
  { base := 0x10200310, stride := 0, count := 1, car := true, cnt := true },
  { base := 0x10300300, stride := 0, count := 1, car := true, cnt := true },
  { base := 0x10300308, stride := 0, count := 1, car := true, cnt := true },
  { base := 0x10300310, stride := 0, count := 1, car := true, cnt := true },
  { base := 0x10400300, stride := 0, count := 1, car := true, cnt := true },
  { base := 0x10400308, stride := 0, count := 1, car := true, cnt := true },
  { base := 0x10400310, stride := 0, count := 1, car := true, cnt := true },
  { base := 0x10400318, stride := 0, count := 1, car := true, cnt := true },
  { base := 0x10400320, stride := 0, count := 1, car := true, cnt := true }]

/-- The register map, part 12. -/
def regFams12 : List RegFam := [
  { base := 0x10400328, stride := 0, count := 1, car := true, cnt := true },
  { base := 0x10400330, stride := 0, count := 1, car := true, cnt := true },
  { base := 0x10400338, stride := 0, count := 1, car := true, cnt := true },
  { base := 0x10400340, stride := 0, count := 1, car := true, cnt := true },
  { base := 0x10400400, stride := 8, count := 18, car := true, cnt := true },
  { base := 0x10600300, stride := 0, count := 1, car := true, cnt := true },
  { base := 0x10600308, stride := 0, count := 1, car := true, cnt := true },
  { base := 0x10600310, stride := 0, count := 1, car := true, cnt := true },
  { base := 0x10600318, stride := 0, count := 1, car := true, cnt := true },
  { base := 0x10600320, stride := 0, count := 1, car := true, cnt := true },
  { base := 0x10600328, stride := 0, count := 1, car := true, cnt := true },
  { base := 0x10600330, stride := 0, count := 1, car := true, cnt := true },
  { base := 0x10500300, stride := 0, count := 1, car := true, cnt := true },
  { base := 0x10500308, stride := 0, count := 1, car := true, cnt := true },
  { base := 0x10500310, stride := 0, count := 1, car := true, cnt := true },
  { base := 0x10500318, stride := 0, count := 1, car := true, cnt := true },
  { base := 0x10500320, stride := 0, count := 1, car := true, cnt := true },
  { base := 0x10500328, stride := 0, count := 1, car := true, cnt := true },
  { base := 0x10500330, stride := 0, count := 1, car := true, cnt := true },
  { base := 0x10500338, stride := 0, count := 1, car := true, cnt := true },
  { base := 0x12004000, stride := 32, count := 128, cnt := true },
  { base := 0x12004008, stride := 32, count := 128, cnt := true },
  { base := 0x12004010, stride := 32, count := 128, cnt := true },
  { base := 0x12004018, stride := 32, count := 128, cnt := true }]

/-- The register map, part 13. -/
def regFams13 : List RegFam := [
  { base := 0x12102000, stride := 64, count := 64, cnt := true },
  { base := 0x12102008, stride := 64, count := 64, cnt := true },
  { base := 0x12102010, stride := 64, count := 64, cnt := true },
  { base := 0x12102018, stride := 64, count := 64, cnt := true },
  { base := 0x12102020, stride := 64, count := 64, cnt := true },
  { base := 0x12102028, stride := 64, count := 64, cnt := true },
  { base := 0x12102030, stride := 64, count := 64, cnt := true },
  { base := 0x12102038, stride := 64, count := 64, cnt := true },
  { base := 0x13002000, stride := 32, count := 24, cnt := true },
  { base := 0x13002008, stride := 32, count := 24, cnt := true },
  { base := 0x13002010, stride := 32, count := 24, cnt := true },
  { base := 0x13102000, stride := 32, count := 8, cnt := true },
  { base := 0x13102008, stride := 32, count := 8, cnt := true },
  { base := 0x13102400, stride := 0, count := 1, cnt := true },
  { base := 0x13102408, stride := 0, count := 1, cnt := true },
  { base := 0x14000300, stride := 0, count := 1, cnt := true },
  { base := 0x14000308, stride := 0, count := 1, cnt := true },
  { base := 0x14000310, stride := 0, count := 1, cnt := true },
  { base := 0x14000318, stride := 0, count := 1, cnt := true },
  { base := 0x14004000, stride := 64, count := 128, cnt := true },
  { base := 0x14004008, stride := 64, count := 128, cnt := true },
  { base := 0x14004010, stride := 64, count := 128, cnt := true },
  { base := 0x14004018, stride := 64, count := 128, cnt := true },
  { base := 0x14004020, stride := 64, count := 128, cnt := true }]

/-- The register map, part 14. -/
def regFams14 : List RegFam := [
  { base := 0x14004028, stride := 64, count := 128, cnt := true },
  { base := 0x1F000A00, stride := 0, count := 1, cnt := true },
  { base := 0x1F000A08, stride := 0, count := 1, cnt := true },
  { base := 0x1F000A10, stride := 0, count := 1, cnt := true },
  { base := 0x1F000A18, stride := 0, count := 1, cnt := true },
  { base := 0x1F000A20, stride := 0, count := 1, cnt := true },
  { base := 0x1F000A28, stride := 0, count := 1, cnt := true },
  { base := 0x1B000300, stride := 0, count := 1, cnt := true },
  { base := 0x1B000308, stride := 0, count := 1, cnt := true },
  { base := 0x1B000310, stride := 0, count := 1, cnt := true },
  { base := 0x1B000318, stride := 0, count := 1, cnt := true },
  { base := 0x1B100300, stride := 0, count := 1, cnt := true },
  { base := 0x1B100308, stride := 0, count := 1, cnt := true },
  { base := 0x1B100310, stride := 0, count := 1, cnt := true },
  { base := 0x1B100318, stride := 0, count := 1, cnt := true },
  { base := 0x16000500, stride := 0, count := 1, cnt := true },
  { base := 0x16000508, stride := 0, count := 1, cnt := true },
  { base := 0x16000510, stride := 0, count := 1, cnt := true },
  { base := 0x16000518, stride := 0, count := 1, cnt := true },
  { base := 0x17002060, stride := 32, count := 7, cnt := true },
  { base := 0x17002068, stride := 32, count := 7, cnt := true },
  { base := 0x17002070, stride := 32, count := 7, cnt := true },
  { base := 0x17002078, stride := 32, count := 7, cnt := true },
  { base := 0x17002400, stride := 0, count := 1, cnt := true }]

/-- The register map, part 15. -/
def regFams15 : List RegFam := [
  { base := 0x18000C00, stride := 32, count := 4, cnt := true },
  { base := 0x18000C08, stride := 32, count := 4, cnt := true },
  { base := 0x18000C10, stride := 32, count := 4, cnt := true },
  { base := 0x18100300, stride := 0, count := 1, cnt := true },
  { base := 0x18100308, stride := 0, count := 1, cnt := true },
  { base := 0x18100310, stride := 0, count := 1, cnt := true },
  { base := 0x19000300, stride := 0, count := 1, cnt := true },
  { base := 0x19000308, stride := 0, count := 1, cnt := true },
  { base := 0x19000310, stride := 0, count := 1, cnt := true },
  { base := 0x19000318, stride := 0, count := 1, cnt := true },
  { base := 0x19000320, stride := 0, count := 1, cnt := true },
  { base := 0x19100300, stride := 0, count := 1, cnt := true },
  { base := 0x19100308, stride := 0, count := 1, cnt := true },
  { base := 0x1A000300, stride := 64, count := 2, cnt := true },
  { base := 0x1A000308, stride := 64, count := 2, cnt := true },
  { base := 0x1A000310, stride := 64, count := 2, cnt := true },
  { base := 0x1A000318, stride := 64, count := 2, cnt := true },
  { base := 0x1A000320, stride := 64, count := 2, cnt := true },
  { base := 0x1A000328, stride := 64, count := 2, cnt := true },
  { base := 0x1A000330, stride := 64, count := 2, cnt := true },
  { base := 0x1A000338, stride := 64, count := 2, cnt := true },
  { base := 0x1A000400, stride := 8, count := 6, cnt := true, mirror := true },
  { base := 0x1A000440, stride := 8, count := 6, cnt := true, mirror := true },
  { base := 0x1A000380, stride := 0, count := 1, cnt := true }]

/-- The register map, part 16. -/
def regFams16 : List RegFam := [
  { base := 0x1A100300, stride := 0, count := 1, cnt := true },
  { base := 0x1A100308, stride := 0, count := 1, cnt := true },
  { base := 0x1A100310, stride := 0, count := 1, cnt := true },
  { base := 0x1A100318, stride := 0, count := 1, cnt := true },
  { base := 0x16000240, stride := 8, count := 2, cnt := true, mirror := true },
  { base := 0x1C000600, stride := 0, count := 1, cnt := true },
  { base := 0x1C000608, stride := 0, count := 1, cnt := true },
  { base := 0x1C000610, stride := 0, count := 1, cnt := true },
  { base := 0x1C000618, stride := 0, count := 1, cnt := true },
  { base := 0x1C000620, stride := 0, count := 1, cnt := true }]

/-- The register map, whole. -/
def regFams : List RegFam :=
  regFams1 ++ regFams2 ++ regFams3 ++ regFams4 ++ regFams5 ++ regFams6 ++ regFams7 ++ regFams8 ++ regFams9 ++ regFams10 ++ regFams11 ++ regFams12 ++ regFams13 ++ regFams14 ++ regFams15 ++ regFams16

/-- The place of address a among a family's registers, if it is one of them (a counter's high word not counted). -/
def RegFam.indexOf (f : RegFam) (a : Nat) : Option Nat :=
  let a := if f.car && 0x11000000 ≤ a && a < 0x12000000 then a - 0x01000000 else a
  if a < f.base then none
  else if f.stride = 0 then (if a = f.base then some 0 else none)
  else if (a - f.base) % f.stride = 0 && (a - f.base) / f.stride < f.count then some ((a - f.base) / f.stride) else none

/-- The first family of a list that holds address a, with the register's index. -/
def findFam : List RegFam → Nat → Option (RegFam × Nat)
  | [], _ => none
  | f :: l, a => match f.indexOf a with
    | some i => some (f, i)
    | none => findFam l a

/-- The families whose window of 1 MiB holds address a (carrier B's addresses are those of carrier A). -/
def famOf (a : Nat) : Option (RegFam × Nat) := findFam regFams a

/-- Address a is the high word of a 48-bit counter (R6). -/
def isCntHigh (a : Nat) : Bool :=
  4 ≤ a && match famOf (a - 4) with
    | some (f, _) => f.cnt
    | none => false

/-- The reset word of a list of fields, for the register at index i (R10). -/
def fieldsReset (i : Nat) : List Fld → Nat
  | [] => 0
  | f :: l => ((if f.isIdx then i else f.reset) % 2 ^ f.width) * 2 ^ f.lsb + fieldsReset i l

/-- The value of every register after PORESET_N is released (R10); 0 at an address that holds no register. -/
def regReset (a : Nat) : W32 :=
  match famOf a with
  | some (f, i) => BitVec.ofNat 32 (fieldsReset i f.flds)
  | none => 0

/-- How many registered counters of one family have a low word below address a (R446). -/
def RegFam.cntBelow (f : RegFam) (a : Nat) : Nat :=
  if !f.cnt || f.mirror then 0
  else
    let below := fun (b : Nat) => if a ≤ b then 0 else if f.stride = 0 then 1 else min f.count ((a - b + f.stride - 1) / f.stride)
    below f.base + (if f.car then below (f.base + 0x01000000) else 0)

/-- The gatherer slot of the registered counter with low word at a: 4 plus the registered counters below it (R446). -/
def cntSlot (a : Nat) : Nat := 4 + (regFams.map (fun f => f.cntBelow a)).sum

/-- All registered counters, by the address of the low word (R446), in the order of the table. -/
def registeredCounters : List Nat :=
  (regFams.filter (fun f => f.cnt && !f.mirror)).flatMap (fun f =>
    let one := (List.range f.count).map (fun i => f.base + f.stride * i)
    if f.car then one ++ one.map (· + 0x01000000) else one)

end Sys2Proof.Machine
end

