-- ==== Sys2Proof/Machine/Sparse.lean ====
section
/-! DEFINITION. Sparse maps in one canonical form: a list of key and value pairs, keys strictly rising, no entry
equal to what an unlisted key reads as.  Memory, flash and the register file are held so. -/
namespace Sys2Proof.Machine

variable {α : Type}

/-- What key k reads as: the first entry listed for it, else the default d k. -/
def sparseGet (d : Nat → α) : List (Nat × α) → Nat → α
  | [], k => d k
  | (k', v) :: l, k => if k' = k then v else sparseGet d l k

/-- Every entry but those of key k. -/
def sparseDrop (k : Nat) : List (Nat × α) → List (Nat × α)
  | [] => []
  | (k', v) :: l => if k' = k then sparseDrop k l else (k', v) :: sparseDrop k l

/-- Put the pair (k, v) before the first greater key. -/
def sparseInsert (k : Nat) (v : α) : List (Nat × α) → List (Nat × α)
  | [] => [(k, v)]
  | (k', v') :: l => if k' < k then (k', v') :: sparseInsert k v l else (k, v) :: (k', v') :: l

/-- Write v at key k: writing the default removes the entry. -/
def sparsePut [DecidableEq α] (d : Nat → α) (k : Nat) (v : α) (l : List (Nat × α)) : List (Nat × α) :=
  if v = d k then sparseDrop k l else sparseInsert k v (sparseDrop k l)

/-- The canonical form: keys strictly rising, no entry equal to its default. -/
def sparseWf [DecidableEq α] (d : Nat → α) : List (Nat × α) → Bool
  | [] => true
  | (k, v) :: l => decide (v ≠ d k) && l.all (fun e => decide (k < e.1)) && sparseWf d l

end Sys2Proof.Machine
end

