-- ==== Sys2Proof/Machine/State.lean ====
section
/-! DEFINITION. The machine's state, plain data: every register (a sparse map over the register map's reset
values), memory and flash, the two Plelis cores, the command queues, the claims, and what each block keeps
beside its registers; the queue of the commands that wait (pending); and the state right after reset. -/
namespace Sys2Proof.Machine

/-- Why a step stops with no next state. -/
inductive Fault where
  /-- Raised by ROOT_PLL_LOCKED alone, where start-up would begin in a device that sampled TEST_EN high (R489, R13): the spec says that
  the behaviour is then not specified and gives no effect.  Safe: the model stops where the device would go on in some way.
  rule names the numbered rule that was broken. -/
  | unspecified (rule : Nat)
deriving DecidableEq, Repr

/-- Why a command has no meaning. -/
inductive Refusal where
  /-- Raised by exec alone, for a row of the table that has no meaning yet.  Safe: the model stops. -/
  | notModelled (mnemonic : String)
deriving DecidableEq, Repr

/-- What a core does between commands (R347, R55, R62). -/
inductive CoreRun where
  /-- Held in reset, failed, or not yet started. -/
  | held
  /-- Executing. -/
  | running
  /-- Halted as the standby core (R347). -/
  | standby
  /-- Halted by a double fault (R55). -/
  | halted
deriving DecidableEq, Repr

/-- The descriptor of Table ENG-2, as SEND copied and stamped it. -/
structure Desc where
  opcode : Nat
  flags : Nat
  unit : Nat
  epoch : Nat
  level : Nat
  rsvd : Nat
  arg0 : Nat
  arg1 : Nat
  resultAddr : Nat
  arg2 : Nat
deriving DecidableEq, Repr

/-- What an issuing core waits for (R50, R51, R53, Table ENG-7, WFE of Table HXS-7). -/
inductive CoreWait where
  | none
  /-- WFE: (EVENT & evmask) ≠ 0, then rd ← EVENT. -/
  | wfe (rd : BitVec 5)
  /-- WAITT: the ticket, and how many commit points are left before 1 is returned. -/
  | ticket (rd : BitVec 5) (t : W32) (left : Nat)
  /-- COMMIT: the tide boundary. -/
  | commit
  /-- FENCE.Q: completion of every earlier SEND of the core. -/
  | fenceQ
  /-- SEND to a full queue: the descriptor copied at issue, the queue, rd. -/
  | send (rd : BitVec 5) (q : Nat) (d : Desc)
deriving DecidableEq, Repr

/-- One Plelis core: general and special registers (Tables HXS-1, HXS-3, OBS-2), PC, its two views of EVENT (R504), instructions retired and
discarded whose issue slots no control tick has counted yet (R452), control ticks since it last retired an instruction or waited (R350). -/
structure PlelisCore where
  h : Vector W64 32
  pc : W64
  epoch : W16
  fault : W32
  faddr : W64
  epc : W64
  pstate : W32
  tvec : W64
  scratch : Vector W64 16
  eventH : Byte
  eventB : Byte
  pmc : Vector W64 6
  pmcSel : Vector W64 6
  pmcOvf : W64
  obsIrq : Bool
  run : CoreRun
  wait : CoreWait
  retired : Nat
  wasted : Nat
  quiet : Nat
deriving DecidableEq, Repr

/-- The core state the hawser copies (R353). -/
structure CoreSnap where
  h : Vector W64 32
  pc : W64
  pstate : W32
  tvec : W64
  epc : W64
  faddr : W64
  fault : W32
  eventH : Byte
  eventB : Byte
  scratch : Vector W64 16
  bank : Bool
deriving DecidableEq, Repr

/-- A holder of a claimable resource (R58): harbour 0x01, berth 0x02, the enclave 0x15. -/
inductive Holder | harbour | berth | enclave
deriving DecidableEq, Repr

/-- A claim: the holder and the function it was granted for (R58). -/
structure Claim where
  holder : Holder
  func : Nat
deriving DecidableEq, Repr

/-- The permissions of a loaded berth manifest (R43, Table HXS-11); stxWindow: base and length pairs. -/
structure BerthPerm where
  queueMask : W64
  claimMask : W64
  stxWindow : List (Nat × Nat)
deriving DecidableEq, Repr

/-- The berth banks (R39, R62): active bank (false 0, true 1), what is loaded in each, whether a swap was asked for. -/
structure BerthState where
  active : Bool
  loaded0 : Option BerthPerm
  loaded1 : Option BerthPerm
  swapReq : Bool
deriving DecidableEq, Repr

/-- An entry of a command queue (R63-R77): the descriptor and what the queue controller keeps about it. -/
structure QEntry where
  desc : Desc
  ticket : W32
  /-- How many tickets of the queue had been issued, this one included (R68). -/
  no : Nat
  core : CoreId
  /-- Status found by checks 1 to 4 of R501 at acceptance. -/
  bad : Option Nat
  /-- Whether a completion record may be written (R67). -/
  recordOk : Bool
  started : Bool
  sealed : Bool
  /-- cflags bit 0: accepted in a dual-active window (R359). -/
  dual : Bool
  /-- cflags bit 1: stale epoch, already started (R76). -/
  stale : Bool
  /-- cflags bit 2: waited for a wake of the engine's domain (R77). -/
  waited : Bool
  /-- Its engine's own boundary was reached while an ATBOUND entry waited at the head (Table ENG-3). -/
  armed : Bool
deriving DecidableEq, Repr

/-- One command queue: depth, next sequence number, the entries oldest first, how many tickets it has issued, and
the outcomes of completed tickets that are still known (R68): ticket, issue number, status, result0. -/
structure Queue where
  depth : Nat
  seq : Nat
  entries : List QEntry
  issued : Nat
  done : List (W32 × Nat × Nat × Nat)
deriving DecidableEq, Repr

/-- The queue controller: the 64 queues, the live epochs (R75), the pending depth set (R64). -/
structure QueueCtl where
  qs : Vector Queue 64
  live : List W16
  pendDepth : Option (List Nat)
  atCommit : Bool
deriving DecidableEq, Repr

/-- The register file (R8, R54): effective values, values as of the last acting COMMIT, staged values; each a sparse
map that reads the reset value where nothing is listed. -/
structure RegFile where
  eff : List (Nat × W32)
  com : List (Nat × W32)
  stg : List (Nat × W32)
deriving DecidableEq, Repr

/-- A holding register (R6, R387): the low-word address of the pair it was loaded from, and the held high word. -/
structure Holding where
  pair : Option Nat
  high : W32
deriving DecidableEq, Repr

/-- The requesters of R6, each with its own holding register. -/
structure Holdings where
  host : Holding
  coreA : Holding
  coreB : Holding
deriving DecidableEq, Repr

/-- The grid counters of Table HXS-3 and the crystal timebase: frac is the hidden 20-bit fraction of R386, ext the hk
cycles by which the hawser extends the present tide (R354), whether the root PLL is locked, steerRem and rootRem what the steering word and the
clock tree leave over of a crystal cycle (R23): root cycles in units of 10^-12, and root cycles modulo 36, the DEVTIME at which it lost lock while it is out of lock after that (R36). -/
structure TimeState where
  tide : W64
  tick : W64
  phase : Nat
  ext : Nat
  devtime : W64
  frac : Nat
  commitPoint : Bool
  xtalStopped : Bool
  rootLocked : Bool
  steerRem : Nat
  rootRem : Nat
  rootLoss : Option W64
deriving DecidableEq, Repr

/-- The pilot (R347-R362), beside its registers: the last EPOCH given, consecutive missed heartbeats, the balls PILOT_OK and
CORE_B_ACTIVE, a FORCE that waits for a tide boundary and the TIDE at its edge, a revert that waits for its copy to be whole, the
dual-active window, the core to be released by a cold resume and the TIDE since which it is due, the DEVTIME at which core A became
in sync, whether its wait to restore is over, and how far each core's restart has come: 0 none, 1 held in reset, 2 self-test, 3 reload,
4 self-test failed. -/
structure PilotState where
  lastEpoch : W16
  missed : Nat
  ok : Bool
  coreBActive : Bool
  pendForce : Option (CoreId × W64)
  handover : Bool
  dual : Bool
  pendCold : Option (CoreId × W64)
  wtrSince : W64
  wtrDone : Bool
  restA : Nat
  restB : Nat
deriving DecidableEq, Repr

/-- A hawser copy in progress (R353-R355): the core state of the boundary, the frozen lines, the contents of frozen
lines a program stored to before they were copied, and how the copy stands. -/
structure HawserCopy where
  snap : CoreSnap
  lines : List Nat
  saved : List (Nat × List (Nat × Byte))
  isWhole : Bool
  incomplete : Bool
  isVoid : Bool
deriving DecidableEq, Repr

/-- What the enclave loaded at start-up and for the berths, for the reload of a core (R357, R360): the harbour entry address and the
flash offsets of the harbour manifest and of the manifests in berth banks 0 and 1. -/
structure BootState where
  entry : W64
  harbour : Option Nat
  bank0 : Option Nat
  bank1 : Option Nat
deriving DecidableEq, Repr

/-- The hawser: pending DMEM lines (listed, and every line from pendFrom on), the copy in progress, the standby's last
whole snapshot, consecutive void copies, tides since resyncing began, frames of the copy seen. -/
structure HawserState where
  pend : List Nat
  pendFrom : Nat
  copy : Option HawserCopy
  snap : Option CoreSnap
  voids : Nat
  tides : Nat
deriving DecidableEq, Repr

/-- An event on its way to the ledger (R481, Table HIF-6). -/
structure LedgerEvent where
  time : W64
  block : Nat
  sev : Nat
  code : Nat
  data : List Byte
deriving DecidableEq, Repr

/-- HIF beside its registers: events waiting for the ledger, oldest first (R481), drops not yet reported and the DEVTIME
of the first of them, slots expired (R475), the vectors of the MSI-X messages sent, newest first (R482), MSI-X enabled and its function mask (R468),
whether HIF has stopped (R486), what the last read on either port returned (R469, R471). -/
structure HifState where
  waiting : List LedgerEvent
  drops : Nat
  firstDrop : W64
  expired : List Nat
  msix : List Nat
  msixOn : Bool
  msixMask : Bool
  stopped : Bool
  reply : List W32
deriving DecidableEq, Repr

/-- The input balls with an effect (Table SIG-2), the GPIO levels as driven from outside, and ALARM_N held by AON (R36). -/
structure Pins where
  poresetN : Bool
  resetN : Bool
  zeroizeN : Bool
  forceAN : Bool
  forceBN : Bool
  testEn : Bool
  gpio : W16
  aonAlarm : Bool
deriving DecidableEq, Repr

/-- An entry into Moor (1) or Lay-up (2) in progress (R395, R396): hk cycles left, and the PW_PARK command it serves. -/
structure PwrEntry where
  target : Nat
  left : Nat
  ticket : Option W32
deriving DecidableEq, Repr

/-- One parkable domain beside its registers: the entry in progress, the DEVTIME at which the last entry completed and
the remainder below 10 µs in DEVTIME units (R401), started PW_WAKE commands that wait for Run, and whether a wake must begin once
the entry completes (R396). -/
structure PwrDom where
  entry : Option PwrEntry
  entered : W64
  remainder : Nat
  wakeTickets : List W32
  lateWake : Bool
deriving DecidableEq, Repr

/-- PWR: domains 3 to 9; the AVSBus target last written, whether a transaction is in progress and a newer target waits for
it (R402), retries of the transaction (R403), consecutive polls off target; the second of DEVTIME in which the last
parked-access event was logged (Table PWR-7); the logic fault latch (R406). -/
structure PwrState where
  doms : Vector PwrDom 7
  avsSent : Nat
  avsBusy : Bool
  avsNext : Option Nat
  avsRetry : Nat
  avsOff : Nat
  lastParkedSec : Option Nat
  fault : Bool
deriving DecidableEq, Repr

/-- A serial lane beside its registers: it has left L1 and is not adapted yet (R292), it has faulted (R293). -/
structure LaneRt where
  fromL1 : Bool
  fault : Bool
deriving DecidableEq, Repr

/-- A received Quay block (R281, R284, R287): its seq, whether its check passed, its 488 payload bytes. -/
structure QuayHeld where
  seq : W32
  ok : Bool
  payload : List Byte
deriving DecidableEq, Repr

/-- The framing of a Quay lane: found commas in a row that name the lane, errored commas in a row (R285), the blocks held, oldest first (R286), the descrambler's
last 58 bits, the newest in bit 0, the scrambler's (R283), the level indices of the block that is sent now, none in electrical idle (R281). -/
structure QuayLane where
  found : Nat
  errored : Nat
  held : List QuayHeld
  scr : BitVec 58
  txScr : BitVec 58
  out : List Nat
deriving DecidableEq, Repr

/-- HLN and QLK beside their registers: the lanes, the framing of the Quay lanes, the two Quay map buffers of each direction (an empty list is 320
zeros) and the superrow at which a pending one applies (R289), rows in a row whose checks all passed (R286), symbols sent towards the next
row, in 1/2,048 row. -/
structure LaneState where
  host : Vector LaneRt 24
  quay : Vector LaneRt 8
  framing : Vector QuayLane 8
  tx0 : List Byte
  tx1 : List Byte
  rx0 : List Byte
  rx1 : List Byte
  txAt : Option Nat
  rxAt : Option Nat
  good : Nat
  sym : Nat
deriving DecidableEq, Repr

/-- An epoch slot of a key context (R306): state 1 ready or 2 active (an empty slot is not listed), the mode, the epoch number
n, F_e, key material, the DEVTIME of the first record and the records under this epoch (Table CPH-6). -/
structure CphSlot where
  act : Bool
  mode : Nat
  n : Nat
  fe : Nat
  key : BitVec 256
  salt : W32
  hkey : BitVec 128
  first : W64
  records : Nat
deriving DecidableEq, Repr

/-- A received slot word (R259): its 32 bytes; whether FEC_x flagged a byte of it or the tag of its record failed (R243, R310); whether its record was absent
(R309); whether it is its berth's first of a multiframe. -/
structure RxWord where
  bytes : List Byte
  bad : Bool
  absent : Bool
  first : Bool
deriving DecidableEq, Repr

/-- What CPH keeps of one carrier: F_tx and F_rx (R303), whether F_rx is set, whether transmit is in its first frame,
consecutive frames in which every record failed its tag (R312) with the present frame's records that passed and failed, and
the conditions of R312 that hold (bit 0 enclave, bit 1 engine fault, bit 2 tags); F_rx and the DEVTIME of the last frame in IM, and whether the
last frame was in IM (R303); the tags of the last transmit records by tributary, which the next frame carries (R302); the slot words of the last received frame, each with its
tributary, the capacity in force for its payload (R305), whether it began a multiframe; those of the frame before it likewise with its F, and the tag area that came for them
(R302). -/
structure CphCarrier where
  ftx : Nat
  frx : Nat
  frxSet : Bool
  failFrames : Nat
  okNow : Nat
  badNow : Nat
  unrec : Nat
  imF : Nat
  imAt : W64
  wasIm : Bool
  tags : List (Nat × BitVec 128)
  rxCap : Nat
  rxMf : Bool
  rxRec : List (Nat × RxWord)
  due : List (Nat × RxWord)
  dueCap : Nat
  dueMf : Bool
  dueF : Nat
  dueTags : List Byte
deriving DecidableEq, Repr

/-- CPH beside its registers: the listed slots by context number 8c + 4d + e (R306), the carriers, clients shed by direction
(R298), clients whose transmit record is abandoned for this frame (R315), consecutive tag failures by client (R311),
whether an engine fault holds (R319). -/
structure CphState where
  slots : List (Nat × CphSlot)
  carA : CphCarrier
  carB : CphCarrier
  shedTx : List Nat
  shedRx : List Nat
  abandoned : List Nat
  failRun : List (Nat × Nat)
  fault : Bool
deriving DecidableEq, Repr

/-- A pre-compensation coefficient entry (Table TXP-5): m, n and the two parts of C. -/
structure NlcEntry where
  m : Byte
  n : Byte
  re : W16
  im : W16
deriving DecidableEq, Repr

/-- A symbol of one polarisation: re + j im on a grid whose squared step is num / den of the mean energy of a reference symbol (R90, R114). -/
structure Sym where
  re : Int
  im : Int
  num : Nat
  den : Nat
deriving DecidableEq, Repr

/-- No position before the first: all its bits are 0 (R181). -/
def fecNone : List FecCol := List.replicate 30 0

/-- A UZF frame as the framer formed it, before scrambling (R226, R234): the overhead up to the tag area, without its BIP-8, and the tags by tributary; the
calendar's D, N and capacity, its accumulator and slot at the first payload word; the map in force; the client content of its slot words in their
order. -/
structure TxFrame where
  oh : List Byte
  tags : List (Nat × BitVec 128)
  d : Nat
  n : Nat
  cap : Nat
  acc : Nat
  slot : Nat
  map : List Byte
  client : List Byte
deriving DecidableEq, Repr

/-- The line that TXP_x sends in SERVICE, by what decides it: the frames formed since SERVICE began, newest first (R92); superframes begun (R89); the entropies,
newest first, each with the stream position from which it holds (R99); blocks that the encoder withheld and TXP_x has not yet missed (R197); blocks
replaced by zeros (R127).  Every bit, block and symbol of the line follows from these. -/
structure TxLine where
  frames : List TxFrame
  sfs : Nat
  entropy : List (Nat × Nat)
  withheld : List Nat
  replaced : List Nat
deriving DecidableEq, Repr

/-- The entropy of a block that begins at a stream position (R99): the newest that holds from there or before. -/
def TxLine.entropyAt (x : TxLine) (p : Nat) : Nat := ((x.entropy.find? (fun e => e.1 ≤ p)).map (·.2)).getD 0

/-- TXP_x beside its registers: the FIR banks (lane n, bank b at 2n + b), the two pre-compensation banks, whether the DACs are
settling on the way out of OFF (R104), whether a fault holds the carrier muted (R128), the line in SERVICE, whether the superframe in progress began unmuted
(R108, R125). -/
structure TxState where
  fir : Vector (List W16) 8
  nlc0 : List NlcEntry
  nlc1 : List NlcEntry
  settling : Bool
  fault : Bool
  line : TxLine
  sounding : Bool
deriving DecidableEq, Repr

/-- RXF_x beside its registers: whether the ADC bias settles (R146), consecutive windows counted for and against LOS (R149), the
DEVTIME of the LOS, the acquisition step that LOS stopped (R151), the phase of the acquisition (0 under cd_mode, 1 the first
20 ms of a reacquisition or of the acquisition after a failed one, 2 its guided scan and the second 20 ms), whether a training peak is held (R145), whether an engine fault holds (R152), the window of the
fine scan in progress, its ends in 10 ps/nm (R142), windows since the last revision of the IQ estimates without a superframe lock (R138). -/
structure RxState where
  settling : Bool
  below : Nat
  above : Nat
  losAt : W64
  stopped : Nat
  phase : Nat
  peak : Bool
  fault : Bool
  scanLo : Int
  scanHi : Int
  iqWins : Nat
deriving DecidableEq, Repr

/-- EQZ_x beside its registers: the taps of XX, XY, YX, YY, 48 each, I then Q (R160, R178), the tap count in use, tap updates, the
last whole shadow copy and the one in transfer, each with its count of tap updates (R165), the hold (R161), superframes spent in state 1, an exchange of outputs due at
the next boundary (R162), whether the next restart is rotated, restarts so far, slices declared failed and not yet replaced
(R166), a restart after an engine fault due at the next boundary (R177), the second of the last sop_over event, the angles θ, φ and ψ of the SOP tracker in units of 2^-30 rad (R158), the largest
SOP rate of the superframe so far (R159). -/
structure EqState where
  taps : List W16
  ntaps : Nat
  updates : Nat
  shadow : Option (List W16 × Nat)
  copy : Option (List W16 × Nat)
  held : Bool
  sfCount : Nat
  swapDue : Bool
  rotated : Bool
  restarts : Nat
  pendFail : List Nat
  restartDue : Bool
  overSec : Option Nat
  theta : Int
  phi : Int
  psi : Int
  sopMax : Nat
deriving DecidableEq, Repr

/-- CRR_x beside its registers: the frequency seed (R170), superframes in a row below and not below the threshold, whether that was
logged (R175), a return to state 0 due at the next boundary (R177), the mean squared pilot errors of the last superframe, X and Y, where the pilot amplitude a
is 4,096 (R172, R174), the larger of the two in the last 16 superframes in state 3, newest first, whether LLRs were valid at the last boundary (R155), the phase of
the last pilot on X and Y while the phase loop runs (R171), captures under way with their superframe counts (R178), erased symbols not yet counted, in
1/64 (R155). -/
structure CrState where
  seed : Option (BitVec 18)
  belowRun : Nat
  aboveRun : Nat
  logged : Bool
  restartDue : Bool
  noiseX : Nat
  noiseY : Nat
  errs : List Nat
  vouched : Bool
  phX : Option Int
  phY : Option Int
  caps : List (W32 × Nat)
  erasedRem : Nat
deriving DecidableEq, Repr

/-- A decoder's window: posteriors and messages, in half steps of the LLR step (R190). -/
structure Lattice where
  post : Array Int
  msg : Array Int
deriving DecidableEq, Repr

/-- The two decided positions before the window, the later first; none is an erasure (R189). -/
abbrev FecBound := Option (List FecCol) × Option (List FecCol)

/-- What is kept of a chain (R190, R195): the received LLRs of the positions in the window, oldest first, as the LLR buffer holds them; the engine's lattice;
the boundary store; the entropy of the block in the window (R192). -/
structure ChainDec where
  llr : List (List Int)
  lat : Lattice
  bound : FecBound
  h64 : Nat
deriving DecidableEq, Repr

/-- Nothing admitted: a cold start (R189). -/
def ChainDec.cold : ChainDec := { llr := [], lat := { post := #[], msg := #[] }, bound := (none, none), h64 := 0 }

/-- FEC_x beside its registers: groups in a row with the locked candidate's F below 0.505 (R188), blocks of each chain released since the lock or the last
seed_fail (R189), uncorrectable blocks of a chain in a row with none of another chain between (R195), engines declared failed and not yet replaced, blocks lost
since the declaration, blocks that have arrived since the lock (R180), the chains, blocks flagged to FRM_x since its last frame (R191, R195), the entropy in
the demapper and the inverse matcher and the one of a hitless change that waits for its block (R192), the sums of R202 for X and Y and the data symbols in
them. -/
structure FecState where
  lowRun : Nat
  tries : Vector Nat 8
  uncRun : Vector Nat 8
  pendFail : List Nat
  lostSince : Vector Nat 8
  arrived : Nat
  chains : Vector ChainDec 8
  flagged : Nat
  h64 : Nat
  next : Option Nat
  gmiX : Nat
  gmiY : Nat
  gmiN : Nat
deriving DecidableEq, Repr

/-- A burst of the hail channel before its sequence number is known (Table HAIL-2): its type, fragment indices, message and payload;
the HL_SEND it serves. -/
structure HailBurst where
  typ : Nat
  fragIdx : Nat
  fragLast : Nat
  msgId : Nat
  payload : List Byte
  ticket : Option W32
deriving DecidableEq, Repr

/-- The burst being sent: its seq, the DEVTIME of its first symbol, whether it is windowed and the windows sent so far (R211, R212). -/
structure HailCur where
  burst : HailBurst
  seq : Nat
  start : W64
  windowed : Bool
  windows : Nat
deriving DecidableEq, Repr

/-- A received burst: its header, the DEVTIME of its detection, its payload (R222, R224). -/
structure HailRxBurst where
  header : W64
  time : W64
  payload : List Byte
deriving DecidableEq, Repr

/-- A preamble peak (R215, R217, R218): its metric in 1/256, the DEVTIME of its detection, the frequency offset and the gain that go with it. -/
structure HailPeak where
  metric : Nat
  time : W64
  offset : Int
  gain : Byte
deriving DecidableEq, Repr

/-- The reception in progress (R218): the metric it locked to, in 1/256, and the DEVTIME of detection; the kept candidate; the header
once it has passed. -/
structure HailRecv where
  metric : Nat
  time : W64
  cand : Option HailPeak
  header : Option W64
deriving DecidableEq, Repr

/-- HAIL_x beside its registers: the program FIFO, the waiting enclave bursts and FRM messages (R211), the burst being sent, the ring of
received bursts (R222), the reception in progress, the DEVTIME of the last header pass while loss of hail is judged from it (R221),
whether the next header pass is a first one (Table HAIL-9), the fault latch (R225), bursts handed to the enclave and to FRM_x, the last symbol's bit of the burst sent before in the
continuous condition (R206, R211). -/
structure HailState where
  fifo : List HailBurst
  encl : List HailBurst
  frmq : List HailBurst
  cur : Option HailCur
  ring : List HailRxBurst
  recv : Option HailRecv
  lastPass : Option W64
  firstDue : Bool
  fault : Bool
  toSec : List HailRxBurst
  toFrm : List HailRxBurst
  tail : Option Bool
deriving DecidableEq, Repr

/-- A change message (Table FRM-4). -/
structure ElwMsg where
  typ : Nat
  id : Nat
  h64 : Nat
  target : Nat
  reason : Nat
  buf : Nat
  mapCrc : Nat
deriving DecidableEq, Repr

/-- A hitless change as its initiator keeps it (R96 to R99): its message PROPOSE, the mf_count in which that was first sent, whether ACCEPT
has come, whether the new map is in force, the FR_ELW_START it serves. -/
structure ElwChange where
  msg : ElwMsg
  first : Nat
  accepted : Bool
  mapDone : Bool
  ticket : W32
deriving DecidableEq, Repr

/-- FRM_x beside its registers.  Transmit: whether a frame has been formed since TXP_x entered SERVICE, the two berth map buffers (slot bytes
of R230, an empty list standing for 400 zeros), the one in force, acc and cal_slot at the next frame's first payload word (R234), the
entropy in force, the change as initiator, resp_msg and the FR_ELW_ANSWER that waits for it to be carried.  Receive: open candidates
(position, count: R236), consecutive errored FAS, the MFAS of the last frame, consecutive correct and unexpected MFAS (R238), the two map
buffers, the calendar, the entropy, another entropy that the next acquisition tries (R100), the PROPOSE being answered, the messages last
received in the overhead, whether the last frame had a calendar mismatch, runs of BDI and BSD (R242), BIP violations and bad blocks of the
multiframe and whether all of it was in IM, runs of degraded and clean multiframes (R241), frame periods since the last IF, the DEVTIME of LOF.
fault: R244.  Also: BEI to send (R227), the parity of the last received frame's payload (Table FRM-2), the overhead last formed (R244), the ID of a PROPOSE that
the responder broke off and that is still received (R101), commits missed (R100). -/
structure FrmState where
  txStarted : Bool
  txMap0 : List Byte
  txMap1 : List Byte
  txSel : Bool
  txAcc : Nat
  txSlot : Nat
  txH64 : Nat
  change : Option ElwChange
  resp : ElwMsg
  answer : Option W32
  cands : List (Nat × Nat)
  badFas : Nat
  rxMfas : Option Nat
  goodMf : Nat
  badMf : Nat
  rxMap0 : List Byte
  rxMap1 : List Byte
  rxAcc : Nat
  rxSlot : Nat
  rxH64 : Nat
  rxTry : Option Nat
  prop : Option ElwMsg
  initMsg : ElwMsg
  respMsg : ElwMsg
  calMis : Bool
  bdiRun : Nat
  bdiClr : Nat
  bsdRun : Nat
  bsdClr : Nat
  bipSum : Nat
  badBlocks : Nat
  mfWhole : Bool
  degRun : Nat
  cleanRun : Nat
  oofFrames : Nat
  lofAt : W64
  fault : Bool
  bei : Nat
  rxPar : Option Byte
  lastOh : List Byte
  gone : Option Nat
  missed : Nat
deriving DecidableEq, Repr

/-- An overhead serial port (R247, R248): received blocks and blocks to insert, oldest first, and the window last sent on OSP_TXD: its
valid flag and 8 bytes. -/
structure OspPort where
  rxq : List (List Byte)
  insq : List (List Byte)
  txd : Option (Bool × List Byte)
deriving DecidableEq, Repr

/-- A 64b/66b block of a client: whether it is a control block, and its 64 bits, the block type in the low byte (Table CLM-4). -/
structure Unit66 where
  ctl : Bool
  body : W64
deriving DecidableEq, Repr

/-- CLM's state for one client: the ingress elastic buffer (R261), oldest first; whether the rest of a frame is discarded there and an error block is
due; the bits of the 257-bit block begun that its berth stream has not sent, the bytes of its slot words in the frame formed last; the second of the last
overrun event; the received words of its berth, oldest first, and the bits of the first one that the egress has used, none where it must find the next multiframe first (R259); the egress units held back (R262),
whether a frame is being sent, whether it is discarded up to its terminate block (R264), whether the last carried unit was a data or start unit, what
the last step sent toward the host, the bytes of gap since the last frame that count toward the mean (R262); the units that wait for containers of the Quay link,
and whether its ingress discards data units after an errored container (R287, R290). -/
structure ClientRt where
  ing : List Unit66
  cut : Bool
  errDue : Bool
  berth : List Bool
  plain : List Byte
  overSec : Option Nat
  rx : List RxWord
  rxPos : Option Nat
  egBuf : List Unit66
  egSend : Bool
  egSkip : Bool
  egMid : Bool
  egOut : List Unit66
  gap : Nat
  quay : List Unit66
  inSkip : Bool
deriving DecidableEq, Repr

/-- CLM beside its registers: its clients, the FlexE calendars (group g: A at 2g, B at 2g + 1; R254), the fault latch (R273). -/
structure ClmState where
  clients : Vector ClientRt 128
  cals : Vector (List Byte) 16
  fault : Bool
deriving DecidableEq, Repr

/-- A packet-berth context (R265 to R271): queued frames, oldest first; committed, peak and shaper tokens in 1/80,000 byte, the DEVTIME to which
they are accrued; whether the far client's input failed; the bytes released that the berth has not carried yet; the bytes of the frame that stands before
the next header at the egress (R266); the frame last sent to the host, and whether it ended in error. -/
structure BrtCtx where
  frames : List (List Byte)
  tc : Nat
  tp : Nat
  ts : Nat
  at_ : W64
  farFail : Bool
  sent : List Byte
  need : Nat
  out : List Byte
  outErr : Bool
deriving DecidableEq, Repr

/-- BRT beside its registers. -/
structure BrtState where
  ctx : Vector BrtCtx 64
  fault : Bool
deriving DecidableEq, Repr

/-- A modulator of MON beside its registers: the entry of the regular and of the injected pass in progress (R411, R413), delays of a regular and
an injected trigger that run (R412), the coefficient set loaded, tap 0 first, the supplied set it is (0: a
buffer's), and whether it is linear-phase (R414), the decimated outputs since the last restart, newest first, how many there were, results that a
capture has recorded and the DEVTIME of the first. -/
structure MonMod where
  reg : Option Nat
  inj : Option Nat
  regDelay : Bool
  injDelay : Bool
  fir : List (BitVec 24)
  firSet : Nat
  linear : Bool
  filled : Nat
  hist : List (BitVec 24)
  captured : List (BitVec 24)
  capTime : W64
deriving DecidableEq, Repr

/-- MON beside its registers: the modulators, the second of the last overrun event, the fault latch (R419). -/
structure MonState where
  mods : Vector MonMod 4
  overSec : Option Nat
  fault : Bool
deriving DecidableEq, Repr

/-- An element's record in a converter's calibration table (Table ANL-4), with its residual error when it was measured last (R424, R425). -/
structure AnlElem where
  inUse : Bool
  failed : Bool
  comp1 : Bool
  comp0Fail : Bool
  comp1Fail : Bool
  phase : Nat
  trim0 : W16
  trim1 : W16
  trim2 : W16
  err : Nat
deriving DecidableEq, Repr

/-- A run of a measurement unit (R423, R426): its converter, its phase (0 window, 1 choice, 2 waiting for a superframe boundary), the temperature and
time taken at the end of its window, whether its block was in IDLE when the window began, the records it will apply. -/
structure AnlRun where
  v : Nat
  phase : Nat
  temp : Nat
  time : W64
  idle : Bool
  recs : List (Nat × AnlElem)
deriving DecidableEq, Repr

/-- ANL beside its registers: the measurement units (A ADC, A DAC, B ADC, B DAC), table records that differ from the production selection
(R428), by 72v + element, converters whose start-up run has been triggered, AN_RUN commands that wait, each with the converters whose runs have not
ended, the fault latch (R429), substitutions that wait for a boundary: converter, element out, element in (R424). -/
structure AnlState where
  units : Vector (Option AnlRun) 4
  table : List (Nat × AnlElem)
  started : List Nat
  waits : List (W32 × List Nat)
  fault : Bool
  subs : List (Nat × Nat × Nat)
deriving DecidableEq, Repr

/-- A logbook entry before it is tagged (Table LOG-2). -/
structure LogEntry where
  kind : Nat
  time : W64
  poh : Nat
  payload : List Byte
deriving DecidableEq, Repr

/-- LOG beside its registers: the totals record, by byte offset of Table LOG-4; the generation of the last set of totals parts formed; the slot (false A, true
B) that holds the newest valid totals, the slot being written and its next page; hours since PORESET_N release; the present hour's accumulators;
the registers and totals of its start; the last second sampled and the registers of its start; the registers of the last capture; staged
entries in the order formed; ledger entries waiting to form an event entry; the next page of the summary ring, of the event ring, of the repair
area; consecutive write failures; the second of the last drop event; the reset cause to log and whether the boot entry is formed; the fault
latch (R466). -/
structure LogState where
  tot : List (Nat × Nat)
  gen : Nat
  slot : Option Bool
  writing : Bool
  totPage : Nat
  hour : Nat
  acc : List (Nat × Nat)
  base : List (Nat × W32)
  totBase : List (Nat × Nat)
  second : Nat
  secBase : List (Nat × W32)
  last : List (Nat × W32)
  staged : List LogEntry
  forming : List (List Byte)
  sumPage : Nat
  evPage : Nat
  repPage : Nat
  fails : Nat
  dropSec : Option Nat
  cause : Nat
  bootDone : Bool
  fault : Bool
deriving DecidableEq, Repr

/-- A capture of the gatherer that is being written (R447, R448): its sequence number, its buffer, the registers, TIDE, DEVTIME and slot 3. -/
structure ObsCapture where
  seq : Nat
  buf : Nat
  regs : List (Nat × W32)
  tide : W64
  devtime : W64
  flags : Nat
deriving DecidableEq, Repr

/-- OBS beside its registers (R447, R453): the snapshot sequence number of the next capture, the capture being written, sample records held,
oldest first, the instructions that had retired at the last tag, the fault latch (R466). -/
structure ObsState where
  seq : Nat
  capture : Option ObsCapture
  samples : List (List Byte)
  tagAt : Nat
  fault : Bool
deriving DecidableEq, Repr

/-- What is wrong with a stored SRAM word (R431, R436): one upset bit, one damaged cell, or more than the code corrects. -/
inductive EccKind | soft | hard | uncorr
deriving DecidableEq, Repr

/-- A word that holds an error: its region of Table MEM-2 and word index, and the macro, row and bit column of its cell.  No row of the table
makes one (R433): it is the physical condition of the array. -/
structure EccMark where
  region : Nat
  word : Nat
  kind : EccKind
  macroNo : Nat
  row : Nat
  col : Nat
deriving DecidableEq, Repr

/-- An entry of the field repair list (R439); bit is the failing bit column of a row entry. -/
structure RepairEntry where
  macroNo : Nat
  isCol : Bool
  index : Nat
  bit : Nat
  time : W64
deriving DecidableEq, Repr

/-- MEM and SCU beside their registers: the words in error, the factory fuse map (macro, and whether a column; R438), repeat-table entries in
use, the least recently updated first (R434), the field repair list, oldest first (R439), SCU_EXPECT at the start of the scan that
runs (R441), the fault latches (R444). -/
structure EccState where
  marks : List EccMark
  factory : List (Nat × Bool)
  order : List Nat
  repairs : List RepairEntry
  expect : W32
  fault : Bool
  scuFault : Bool
deriving DecidableEq, Repr

/-- REF beside its registers: whether ACQUIRE was entered from HOLDOVER (Table REF-1), the DEVTIME of LOCKED and of the entry into HOLDOVER, windows in
a row without a disagreement (R375), windows of ACQUIRE in a row within 10 ppb (R369), the DPLL words of the windows of LOCKED, the newest first (R379), the pulse generator's count of root cycles and the
generator seconds begun (R383), the pulses that each output has sent or let pass (R385), the superframes that SF_OUT_A and SF_OUT_B have answered, the DEVTIME at which each output's last pulse began, the
fault latch (R389). -/
structure RefState where
  acqHold : Bool
  lockedAt : W64
  holdAt : W64
  tieClear : Nat
  lockRun : Nat
  words : List Int
  gen : Nat
  sec : Nat
  sent : Vector Nat 4
  sfSent : Vector Nat 4
  pulseAt : Vector (Option W64) 4
  fault : Bool
deriving DecidableEq, Repr

/-- An owner anchor slot of the fuses (R326): whether its programmed and revoked bits are blown, its hash. -/
structure AnchorSlot where
  programmed : Bool
  revoked : Bool
  hash : BitVec 384
deriving DecidableEq, Repr

/-- A session of a carrier (R330, R333, R336, R337): its sid, whether this end is the responder, the DEVTIME at which it was established, the peer's
fingerprint, policy table and endorsement floor, the own ones as sent, the epoch secrets of the next epoch to derive and the activation keys by
direction, the next n to activate and the last n accepted. -/
structure SecSession where
  sid : List Byte
  responder : Bool
  since : W64
  peerFp : List Byte
  peerPolicy : List Byte
  peerFloor : Nat
  policy : List Byte
  floor : Nat
  esTx : List Byte
  esRx : List Byte
  kaTx : List Byte
  kaRx : List Byte
  nTx : Nat
  nRx : Option Nat
deriving DecidableEq, Repr

/-- A key exchange in progress (R330, R331): its sid, the last message sent (0x10, 0x11 or 0x12), the own nonce, ephemeral values, the KA_HELLO
payload, the first 1,848 bytes of KA_RESP, PRK, the transcript hash so far, what the peer has shown of itself, the own policy and floor sent,
whether an endorsement was rejected, whether it runs while a session is in force, the mailbox channel that waits for it. -/
structure KaExchange where
  sid : List Byte
  sent : Nat
  ecdhPriv : List Byte
  kemSeed : List Byte
  hello : List Byte
  resp : List Byte
  prk : List Byte
  th : List Byte
  peerFp : List Byte
  peerPolicy : List Byte
  peerFloor : Nat
  policy : List Byte
  floor : Nat
  inService : Bool
  channel : Option Nat
deriving DecidableEq, Repr

/-- The enclave's state for a carrier: the local policy table (R333), the session in force and the one that replaces it (R339), the exchange, the
endorsement that is sent next (R332), whether a KA_HELLO waits after a collision (R335), whether a retry is due (R339), the epochs active in each
direction (n and F_e). -/
structure SecCarrier where
  policy : List Byte
  cur : Option SecSession
  nxt : Option SecSession
  ka : Option KaExchange
  endIdx : Nat
  collide : Bool
  retry : Bool
  actTx : Option (Nat × Nat)
  actRx : Option (Nat × Nat)
deriving DecidableEq, Repr

/-- A mailbox channel of the enclave (R341, R343): the challenge last issued and its DEVTIME; the result and data of a request that has been executed
and whose response is not yet written. -/
structure SecChannel where
  challenge : Option (List Byte × W64)
  answer : Option (Nat × List Byte)
deriving DecidableEq, Repr

/-- The enclave beside its registers: the anchor slots, the rollback rows of the six counters (harbour, then berth by signer; R329), whether the identity
is unwrapped, whether debug access is open, the endorsements held, the channels, the carriers, whether a heartbeat reached it at the last tide
boundary (R363). -/
structure SecState where
  anchors : Vector AnchorSlot 4
  rollback : Vector (List Nat) 6
  unwrapped : Bool
  endorse : List (List Byte)
  ch : Vector SecChannel 2
  carA : SecCarrier
  carB : SecCarrier
  heartbeat : Bool
deriving DecidableEq, Repr

/-- The state of the device. -/
structure State where
  /-- The orderable part, fixed by fuses (R2). -/
  part : Part
  /-- The die revision that HIF_DEVICE_ID shows. -/
  dieRev : Nat
  /-- The commands that wait, first in first out. -/
  pending : List Instr
  /-- The register file (R8, R54). -/
  regs : RegFile
  /-- The SRAM that has device addresses, by device address (Table ARC-7); an unlisted byte reads 0. -/
  mem : List Host.Cell
  /-- The boot flash, by offset (R477); an unlisted byte reads 0xFF, erased. -/
  flash : List Host.Cell
  /-- Core A. -/
  coreA : PlelisCore
  /-- Core B. -/
  coreB : PlelisCore
  /-- The queue controller. -/
  qc : QueueCtl
  /-- The claim table (R56 to R60): resource ID and claim. -/
  claims : List (Nat × Claim)
  /-- The berth banks. -/
  berth : BerthState
  /-- The grid counters and the crystal timebase. -/
  time : TimeState
  /-- The requesters' holding registers (R6). -/
  hold : Holdings
  /-- The pilot. -/
  pilot : PilotState
  /-- What the enclave loaded, for the reload of a core. -/
  boot : BootState
  /-- The hawser. -/
  hws : HawserState
  /-- The host interface. -/
  hif : HifState
  /-- The input balls with an effect. -/
  pins : Pins
  /-- The power manager. -/
  pwr : PwrState
  /-- How many open values have been drawn: the argument of Config.freeWord, the model's own field (DESIGN CHOICE: notes/assumptions/11.md). -/
  free : Nat
  /-- The cipher complex. -/
  cph : CphState
  /-- TXP_A. -/
  txA : TxState
  /-- TXP_B. -/
  txB : TxState
  /-- RXF_A. -/
  rxA : RxState
  /-- RXF_B. -/
  rxB : RxState
  /-- EQZ_A. -/
  eqA : EqState
  /-- EQZ_B. -/
  eqB : EqState
  /-- CRR_A. -/
  crA : CrState
  /-- CRR_B. -/
  crB : CrState
  /-- FEC_A. -/
  fecA : FecState
  /-- FEC_B. -/
  fecB : FecState
  /-- HAIL_A. -/
  hailA : HailState
  /-- HAIL_B. -/
  hailB : HailState
  /-- FRM_A. -/
  frmA : FrmState
  /-- FRM_B. -/
  frmB : FrmState
  /-- The overhead serial ports. -/
  osp : Vector OspPort 8
  /-- The client mapper. -/
  clm : ClmState
  /-- The packet berths. -/
  brt : BrtState
  /-- The host lanes and the Quay link. -/
  lanes : LaneState
  /-- The monitor converter. -/
  mon : MonState
  /-- The annealer. -/
  anl : AnlState
  /-- The logbook. -/
  log : LogState
  /-- The gatherer and the sampler. -/
  obs : ObsState
  /-- The SRAM arrays, MEM and SCU. -/
  ecc : EccState
  /-- Timing and references. -/
  ref : RefState
  /-- The enclave. -/
  sec : SecState
deriving DecidableEq, Repr

/-- PSTATE at reset (Table HXS-4): lvl 1, plvl 1, evmask 0xFF. -/
def pstateReset : W32 := 0xFF03

/-- A core held in reset: its registers' reset values (Tables HXS-3, HXS-4, OBS-2; where they give none, zero: DESIGN CHOICE, notes/assumptions/6.md). -/
def coreReset : PlelisCore where
  h := Vector.replicate 32 0
  pc := 0
  epoch := 1
  fault := 0
  faddr := 0
  epc := 0
  pstate := pstateReset
  tvec := 0
  scratch := Vector.replicate 16 0
  eventH := 0
  eventB := 0
  pmc := Vector.replicate 6 0
  pmcSel := Vector.replicate 6 0
  pmcOvf := 0
  retired := 0
  wasted := 0
  quiet := 0
  obsIrq := false
  run := .held
  wait := .none

/-- The queues that Table ENG-1 assigns to an engine. -/
def queueAssigned (n : Nat) : Bool :=
  n ≤ 6 || (8 ≤ n && n ≤ 14) || (16 ≤ n && n ≤ 20) || (24 ≤ n && n ≤ 32)

/-- The depths of Table ENG-1 after reset. -/
def queueResetDepth (n : Nat) : Nat := if queueAssigned n then 2048 else 0

/-- A carrier's cipher counts after reset. -/
def cphCarReset : CphCarrier := {
  ftx := 0, frx := 0, frxSet := false, failFrames := 0, okNow := 0, badNow := 0, unrec := 0, imF := 0,
  imAt := 0, wasIm := false, tags := [], rxCap := 0, rxMf := false, rxRec := [], due := [], dueCap := 0
  dueMf := false, dueF := 0, dueTags := [] }

/-- A FIR bank at reset: 1.0 (Q2.13) at tap 8, 0 elsewhere (R122). -/
def firReset : List W16 := (List.range 64).map (fun i => if i = 8 then 0x2000 else 0)

/-- TXP_x after reset. -/
def lineReset : TxLine := { frames := [], sfs := 0, entropy := [], withheld := [], replaced := [] }
def txReset : TxState := {
  fir := Vector.replicate 8 firReset, nlc0 := [], nlc1 := [], settling := false, fault := false, line := lineReset
  sounding := false }

/-- RXF_x after reset. -/
def rxReset : RxState := {
  settling := false, below := 0, above := 0, losAt := 0, stopped := 0, phase := 0, peak := false, fault := false, scanLo := 0, scanHi := 0,
  iqWins := 0 }

/-- The taps with c at the centre tap of XX and YY, d at that of YX and its negative at that of XY, for n taps: the centre-spike taps
of R160, and those rotated by 45 degrees (R162).  The centre tap of an even count n is taken as tap n/2, counted from 0, and
the rotation's sense as counter-clockwise (DESIGN CHOICE: notes/assumptions/27.md). -/
def spikeTaps (n : Nat) (c d : W16) : List W16 :=
  (List.range 384).map (fun i =>
    if i % 2 = 0 ∧ (i / 2) % 48 = n / 2 then
      match i / 96 with
      | 0 => c
      | 1 => -d
      | 2 => d
      | _ => c
    else 0)

/-- EQZ_x after reset. -/
def eqReset : EqState := {
  taps := spikeTaps 48 0x4000 0, ntaps := 48, updates := 0, shadow := none, copy := none, held := false,
  sfCount := 0, swapDue := false, rotated := false, restarts := 0, pendFail := [], restartDue := false, overSec := none, theta := 0, phi := 0,
  psi := 0, sopMax := 0 }

/-- CRR_x after reset. -/
def crReset : CrState := {
  seed := none, belowRun := 0, aboveRun := 0, logged := false, restartDue := false, noiseX := 0, noiseY := 0, errs := [], vouched := false
  phX := none, phY := none, caps := [], erasedRem := 0 }

/-- FEC_x after reset. -/
def fecReset : FecState := {
  lowRun := 0, tries := Vector.replicate 8 0, uncRun := Vector.replicate 8 0, pendFail := [],
  lostSince := Vector.replicate 8 0, arrived := 0, chains := Vector.replicate 8 ChainDec.cold, flagged := 0, h64 := 0, next := none, gmiX := 0,
  gmiY := 0, gmiN := 0 }

/-- HAIL_x after reset. -/
def hailReset : HailState := {
  fifo := [], encl := [], frmq := [], cur := none, ring := [], recv := none, lastPass := none, firstDue := true,
  fault := false, toSec := [], toFrm := [], tail := none }

/-- The change message IDLE. -/
def elwIdle : ElwMsg := { typ := 0, id := 0, h64 := 0, target := 0, reason := 0, buf := 0, mapCrc := 0 }

/-- FRM_x after reset: the entropy in force is that of CAR_MODE_x. -/
def frmReset : FrmState := {
  txStarted := false, txMap0 := [], txMap1 := [], txSel := false, txAcc := 0, txSlot := 0, txH64 := 316, change := none,
  resp := elwIdle, answer := none, cands := [], badFas := 0, rxMfas := none, goodMf := 0, badMf := 0, rxMap0 := [], rxMap1 := [], rxAcc := 0,
  rxSlot := 0, rxH64 := 316, rxTry := none, prop := none, initMsg := elwIdle, respMsg := elwIdle, calMis := false, bdiRun := 0, bdiClr := 0,
  bsdRun := 0, bsdClr := 0, bipSum := 0, badBlocks := 0, mfWhole := false, degRun := 0, cleanRun := 0, oofFrames := 0, lofAt := 0, fault := false
  bei := 0, rxPar := none, lastOh := [], gone := none, missed := 0 }

/-- A client of CLM after reset. -/
def clientReset : ClientRt := {
  ing := [], cut := false, errDue := false, berth := [], plain := [], overSec := none, rx := [], rxPos := none, egBuf := [], egSend := false
  egSkip := false, egMid := false, egOut := [], gap := 12, quay := [], inSkip := false }

/-- A packet-berth context after reset: policer buckets full, shaper bucket empty (R270), in 1/80,000 byte. -/
def brtReset : BrtCtx := {
  frames := [], tc := 16384 * 80000, tp := 16384 * 80000, ts := 0, at_ := 0, farFail := false, sent := [], need := 0, out := [], outErr := false }

/-- A modulator after reset. -/
def monReset : MonMod := {
  reg := none, inj := none, regDelay := false, injDelay := false, fir := [], firSet := 0, linear := false, filled := 0,
  hist := [], captured := [], capTime := 0 }

/-- LOG after reset. -/
def logReset : LogState := {
  tot := [(4, 1)], gen := 0, slot := none, writing := false, totPage := 0, hour := 0, acc := [], base := [], totBase := [], second := 0, secBase := []
  last := [], staged := [], forming := [], sumPage := 0, evPage := 0, repPage := 0, fails := 0, dropSec := none, cause := 0, bootDone := false
  fault := false }

/-- The enclave's state of a carrier after reset. -/
def secCarReset : SecCarrier := {
  policy := List.replicate 128 0, cur := none, nxt := none, ka := none, endIdx := 0, collide := false, retry := false, actTx := none, actRx := none }

/-- HLN and QLK after reset. -/
def laneReset : LaneState := {
  host := Vector.replicate 24 { fromL1 := false, fault := false }, quay := Vector.replicate 8 { fromL1 := false, fault := false }
  framing := Vector.replicate 8 { found := 0, errored := 0, held := [], scr := 0, txScr := 0, out := [] }, tx0 := [], tx1 := [], rx0 := [], rx1 := [], txAt := none, rxAt := none
  good := 0, sym := 0 }

/-- The device right after PORESET_N is released, at step 1 of Table HIF-10: every register at its Reset value (R10), memory
empty, no core released.  The part is a CTP-4S with die revision 0 (DESIGN CHOICE: notes/assumptions/7.md). -/
def State.reset : State where
  part := .ctp4s
  dieRev := 0
  pending := []
  regs := { eff := [], com := [], stg := [] }
  mem := []
  flash := []
  coreA := coreReset
  coreB := coreReset
  qc := { qs := Vector.ofFn (fun n => { depth := queueResetDepth n, seq := 1, entries := [], issued := 0, done := [] }), live := [1], pendDepth := none, atCommit := false }
  claims := []
  berth := { active := false, loaded0 := none, loaded1 := none, swapReq := false }
  time := { tide := 0, tick := 0, phase := 0, ext := 0, devtime := 0, frac := 0, commitPoint := false, xtalStopped := false, rootLocked := false, steerRem := 0, rootRem := 0, rootLoss := none }
  hold := { host := { pair := none, high := 0 }, coreA := { pair := none, high := 0 }, coreB := { pair := none, high := 0 } }
  pilot := { lastEpoch := 1, missed := 0, ok := false, coreBActive := false, pendForce := none, handover := false, dual := false, pendCold := none, wtrSince := 0, wtrDone := false, restA := 0, restB := 0 }
  boot := { entry := 0, harbour := none, bank0 := none, bank1 := none }
  hws := { pend := [], pendFrom := 0, copy := none, snap := none, voids := 0, tides := 0 }
  hif := { waiting := [], drops := 0, firstDrop := 0, expired := [], msix := [], msixOn := false, msixMask := false, stopped := false, reply := [] }
  pins := { poresetN := true, resetN := true, zeroizeN := true, forceAN := true, forceBN := true, testEn := false, gpio := 0, aonAlarm := false }
  pwr := { doms := Vector.replicate 7 { entry := none, entered := 0, remainder := 0, wakeTickets := [], lateWake := false }, avsSent := 720, avsBusy := false, avsNext := none, avsRetry := 0, avsOff := 0, lastParkedSec := none, fault := false }
  free := 0
  cph := { slots := [], carA := cphCarReset, carB := cphCarReset, shedTx := [], shedRx := [], abandoned := [], failRun := [], fault := false }
  txA := txReset
  txB := txReset
  rxA := rxReset
  rxB := rxReset
  eqA := eqReset
  eqB := eqReset
  crA := crReset
  crB := crReset
  fecA := fecReset
  fecB := fecReset
  hailA := hailReset
  hailB := hailReset
  frmA := frmReset
  frmB := frmReset
  osp := Vector.replicate 8 { rxq := [], insq := [], txd := none }
  clm := { clients := Vector.replicate 128 clientReset, cals := Vector.replicate 16 [], fault := false }
  brt := { ctx := Vector.replicate 64 brtReset, fault := false }
  lanes := laneReset
  mon := { mods := Vector.replicate 4 monReset, overSec := none, fault := false }
  anl := { units := Vector.replicate 4 none, table := [], started := [], waits := [], fault := false, subs := [] }
  log := logReset
  obs := { seq := 1, capture := none, samples := [], tagAt := 0, fault := false }
  ecc := { marks := [], factory := [], order := [], repairs := [], expect := 0, fault := false, scuFault := false }
  ref := { acqHold := false, lockedAt := 0, holdAt := 0, tieClear := 0, lockRun := 0, words := [], gen := 0, sec := 0, sent := Vector.replicate 4 0, sfSent := Vector.replicate 4 0, pulseAt := Vector.replicate 4 none, fault := false }
  sec := { anchors := Vector.replicate 4 { programmed := false, revoked := false, hash := 0 }, rollback := Vector.replicate 6 [], unwrapped := false, endorse := [], ch := Vector.replicate 2 { challenge := none, answer := none }, carA := secCarReset, carB := secCarReset, heartbeat := false }

end Sys2Proof.Machine
end

