-- ==== Sys2Proof/Machine/Ops.lean ====
section
/-! DEFINITION. The named operations that every meaning is built from: registers and their fields, counters, memory,
the cores, events for the ledger, claims, interrupt vectors, power states, open values, taking and leaving a fault. -/
namespace Sys2Proof.Machine

/-- What a command's meaning answers. -/
abbrev Out := Host.Outcome State Fault Refusal

/-! ### Small arithmetic -/

/-- The two's complement reading of a w-bit field. -/
def signed (w v : Nat) : Int := if v % 2 ^ w < 2 ^ (w - 1) then (v % 2 ^ w : Nat) else ((v % 2 ^ w : Nat) : Int) - (2 ^ w : Nat)

/-- The w-bit code of an integer. -/
def unsigned (w : Nat) (i : Int) : Nat := (i % (2 ^ w : Nat)).toNat

/-- v limited to the range lo to hi. -/
def clampN (lo hi v : Nat) : Nat := if v < lo then lo else if hi < v then hi else v

/-- v limited to the range lo to hi. -/
def clampI (lo hi v : Int) : Int := if v < lo then lo else if hi < v then hi else v

/-- 1 for true. -/
def b2n (b : Bool) : Nat := if b then 1 else 0

/-- n bytes of v, least significant first (little-endian, Table SCO-3). -/
def leBytes : Nat → Nat → List Byte
  | 0, _ => []
  | n + 1, v => BitVec.ofNat 8 v :: leBytes n (v / 256)

/-- The number that little-endian bytes spell. -/
def leNat : List Byte → Nat
  | [] => 0
  | b :: l => b.toNat + 256 * leNat l

/-- l with element i set to v, if there is one. -/
def listSet {α : Type} (l : List α) (i : Nat) (v : α) : List α := l.set i v

/-- f applied for each number below n, in order. -/
def forN (n : Nat) (f : Nat → State → State) (s : State) : State := (List.range n).foldl (fun s i => f i s) s

/-! ### Registers -/

/-- The bits of a field. -/
def Fld.mask (f : Fld) : W32 := BitVec.ofNat 32 (2 ^ f.width - 1) <<< f.lsb

/-- A field of a register word. -/
def getBits (f : Fld) (w : W32) : Nat := (w >>> f.lsb).toNat % 2 ^ f.width

/-- A register word with a field replaced. -/
def putBits (f : Fld) (v : Nat) (w : W32) : W32 := (w &&& ~~~f.mask) ||| ((BitVec.ofNat 32 v <<< f.lsb) &&& f.mask)

/-- The value the hardware uses: the effective value of the register at address a. -/
def State.reg (s : State) (a : Nat) : W32 := sparseGet regReset s.regs.eff a

/-- Set the effective value of the register at address a. -/
def State.setReg (a : Nat) (v : W32) (s : State) : State :=
  { s with regs := { s.regs with eff := sparsePut regReset a v s.regs.eff } }

/-- A field's effective value. -/
def State.fld (s : State) (a : Nat) (f : Fld) : Nat := getBits f (s.reg a)

/-- A one-bit field's effective value. -/
def State.flag (s : State) (a : Nat) (f : Fld) : Bool := s.fld a f == 1

/-- A signed field's effective value. -/
def State.fldS (s : State) (a : Nat) (f : Fld) : Int := signed f.width (s.fld a f)

/-- Set a field by hardware. -/
def State.setFld (a : Nat) (f : Fld) (v : Nat) (s : State) : State := s.setReg a (putBits f v (s.reg a))

/-- Set a one-bit field by hardware. -/
def State.setFlag (a : Nat) (f : Fld) (b : Bool) (s : State) : State := s.setFld a f (b2n b)

/-- Set a signed field by hardware. -/
def State.setFldS (a : Nat) (f : Fld) (v : Int) (s : State) : State := s.setFld a f (unsigned f.width v)

/-- A value held in two registers, low word first. -/
def State.reg64 (s : State) (lo : Nat) : Nat := (s.reg lo).toNat + (s.reg (lo + 4)).toNat * 2 ^ 32

/-- Set a value held in two registers, low word first. -/
def State.setReg64 (lo v : Nat) (s : State) : State :=
  (s.setReg lo (BitVec.ofNat 32 v)).setReg (lo + 4) (BitVec.ofNat 32 (v / 2 ^ 32))

/-- A field's staged value (R54). -/
def State.staged (s : State) (a : Nat) : W32 := sparseGet regReset s.regs.stg a

/-- A register's values as of the last COMMIT that acted (R54). -/
def State.committed (s : State) (a : Nat) : W32 := sparseGet regReset s.regs.com a

/-- Set effective, committed and staged value of a register alike. -/
def State.forceReg (a : Nat) (v : W32) (s : State) : State :=
  { s with regs := { eff := sparsePut regReset a v s.regs.eff, com := sparsePut regReset a v s.regs.com,
                     stg := sparsePut regReset a v s.regs.stg } }

/-! ### The cores -/

/-- The state of a core. -/
def State.core (s : State) : CoreId → PlelisCore
  | .A => s.coreA
  | .B => s.coreB

/-- Replace the state of a core. -/
def State.setCore (k : CoreId) (c : PlelisCore) (s : State) : State :=
  match k with
  | .A => { s with coreA := c }
  | .B => { s with coreB := c }

/-- Change the state of a core. -/
def State.modCore (k : CoreId) (f : PlelisCore → PlelisCore) (s : State) : State := s.setCore k (f (s.core k))

/-- The active core (R347), none while no core is active (R360). -/
def State.active (s : State) : Option CoreId :=
  match s.fld R.PLT_STATUS F.PLT_STATUS_active with
  | 0 => some .A
  | 1 => some .B
  | _ => none

/-- PSTATE.oie of a core (Table HXS-4). -/
def PlelisCore.oie (c : PlelisCore) : Bool := c.pstate.getLsbD 4

/-- PSTATE.lvl of a core: harbour level. -/
def PlelisCore.harbour (c : PlelisCore) : Bool := c.pstate.getLsbD 0

/-- Raise an observation interrupt on the active core if its oie is 1 (R450, R451, R453). -/
def State.raiseObs (s : State) : State :=
  match s.active with
  | some k => if (s.core k).oie then s.modCore k (fun c => { c with obsIrq := true }) else s
  | none => s

/-- Set a bit in both views of a core's EVENT (R504). -/
def State.eventBoth (k : CoreId) (b : Nat) (s : State) : State :=
  s.modCore k (fun c => { c with eventH := c.eventH ||| BitVec.ofNat 8 (2 ^ b), eventB := c.eventB ||| BitVec.ofNat 8 (2 ^ b) })

/-- Set a bit in the harbour view (true) or the berth view (false) of a core's EVENT (R504). -/
def State.eventAt (k : CoreId) (harbour : Bool) (b : Nat) (s : State) : State :=
  if harbour then s.modCore k (fun c => { c with eventH := c.eventH ||| BitVec.ofNat 8 (2 ^ b) })
  else s.modCore k (fun c => { c with eventB := c.eventB ||| BitVec.ofNat 8 (2 ^ b) })

/-- Set a bit in both views of both cores' EVENT: an event that names no core. -/
def State.eventAll (b : Nat) (s : State) : State := (s.eventBoth .A b).eventBoth .B b

/-! ### Counters -/

/-- The value of the 48-bit counter with low word at a (R6). -/
def State.cnt (s : State) (a : Nat) : Nat := (s.reg a).toNat + (s.reg (a + 4)).toNat % 65536 * 2 ^ 32

/-- Set the OBS_OVF bit of the registered counter at a (R446, R450) and raise the observation interrupt. -/
def State.setOvf (a : Nat) (s : State) : State :=
  let slot := cntSlot a
  let r := R.OBS_OVF (slot / 32)
  ((s.setReg r (s.reg r ||| BitVec.ofNat 32 (2 ^ (slot % 32)))).setFlag R.OBS_STATUS F.OBS_STATUS_ovf_any true).raiseObs

/-- Add n to the 48-bit counter with low word at a: it wraps and sets its OBS_OVF bit (R450). -/
def State.addCnt (a n : Nat) (s : State) : State :=
  let v := s.cnt a + n
  let s := (s.setReg a (BitVec.ofNat 32 v)).setReg (a + 4) (BitVec.ofNat 32 (v / 2 ^ 32 % 65536))
  if v < 2 ^ 48 then s else s.setOvf a

/-! ### Memory -/

/-- What an unlisted byte of SRAM reads as: 0 (DESIGN CHOICE: notes/assumptions/9.md). -/
def memDefault (_ : Nat) : Byte := 0

/-- What an unlisted byte of flash reads as: 0xFF, erased (R44 names it the erased-flash value). -/
def flashDefault (_ : Nat) : Byte := 0xFF

/-- The canonical form of the memory. -/
abbrev Memory.wf (m : List Host.Cell) : Bool := sparseWf memDefault m

/-- One byte of SRAM at a device address. -/
def State.byte (s : State) (a : Nat) : Byte := sparseGet memDefault s.mem a

/-- Write one byte of SRAM. -/
def State.setByte (a : Nat) (v : Byte) (s : State) : State := { s with mem := sparsePut memDefault a v s.mem }

/-- n bytes of SRAM from a, in address order. -/
def State.bytes (s : State) (a n : Nat) : List Byte := (List.range n).map (fun i => s.byte (a + i))

/-- The repeat-table entry of a location (R434): the lowest number of an entry in use that holds it. -/
def State.rptFind (s : State) (region word : Nat) : Option Nat :=
  s.ecc.order.find? (fun n => s.fld (R.MEM_RPT n) F.MEM_RPT_region == region && (s.reg (R.MEM_RPT_WORD n)).toNat == word)

/-- Free a repeat-table entry. -/
def State.rptFree (n : Nat) (s : State) : State :=
  ({ s with ecc := { s.ecc with order := s.ecc.order.filter (· != n) } }).setFlag (R.MEM_RPT n) F.MEM_RPT_valid false

/-- A requester writes a word: an upset of it is gone, and its repeat-table entry is freed (R434).  A damaged cell stays damaged. -/
def State.eccWrite (region word : Nat) (s : State) : State :=
  let s := { s with ecc := { s.ecc with marks := s.ecc.marks.filter (fun (m : EccMark) => m.region != region || m.word != word || m.kind == EccKind.hard) } }
  match s.rptFind region word with
  | some n => if s.ecc.fault then s else s.rptFree n
  | none => s

/-- A requester writes n bytes of SRAM at a device address, as far as the error-correcting code is concerned. -/
def State.eccTouch (a n : Nat) (s : State) : State :=
  if s.ecc.marks.isEmpty && s.ecc.order.isEmpty then s
  else (List.range ((a + n + 7) / 8 - a / 8)).foldl (fun s i => s.eccWrite 0 (a / 8 + i)) s

/-- Put bytes of SRAM from a on. -/
def State.putBytes (a : Nat) (l : List Byte) (s : State) : State :=
  match l with
  | [] => s
  | b :: l => (s.setByte a b).putBytes (a + 1) l

/-- Write bytes of SRAM from a on. -/
def State.setBytes (a : Nat) (l : List Byte) (s : State) : State := (s.putBytes a l).eccTouch a l.length

/-- n bytes at a as a little-endian number. -/
def State.load (s : State) (a n : Nat) : Nat := leNat (s.bytes a n)

/-- Store the low n bytes of v at a, little-endian. -/
def State.store (a n v : Nat) (s : State) : State := s.setBytes a (leBytes n v)

/-- Every byte of lo to hi - 1 becomes 0. -/
def State.zeroMem (lo hi : Nat) (s : State) : State :=
  { s with mem := s.mem.filter (fun e => !(lo ≤ e.1 && e.1 < hi)) }

/-- One byte of the flash. -/
def State.flashByte (s : State) (a : Nat) : Byte := sparseGet flashDefault s.flash a

/-- n bytes of the flash from a. -/
def State.flashBytes (s : State) (a n : Nat) : List Byte := (List.range n).map (fun i => s.flashByte (a + i))

/-- A little-endian number in the flash. -/
def State.flashNat (s : State) (a n : Nat) : Nat := leNat (s.flashBytes a n)

/-- Program bytes of the flash: programming clears bits and sets none (a property of NOR flash: PRESUMED: notes/assumptions/71.md). -/
def State.flashProgram (a : Nat) (l : List Byte) (s : State) : State :=
  match l with
  | [] => s
  | b :: l => ({ s with flash := sparsePut flashDefault a (s.flashByte a &&& b) s.flash }).flashProgram (a + 1) l

/-- Erase the flash from lo to hi - 1. -/
def State.flashErase (lo hi : Nat) (s : State) : State :=
  { s with flash := s.flash.filter (fun e => !(lo ≤ e.1 && e.1 < hi)) }

/-- The device address that a core reaches at a core-relative address (R38). -/
def coreAddr (k : CoreId) (a : Nat) : Nat := if k = .B ∧ a < 0x400000 then a + 0x400000 else a

/-! ### Open values -/

/-- The next open value (Config.freeWord), and the state with the draw counted. -/
def State.draw (s : State) : W64 × State := (Config.freeWord s.free, { s with free := s.free + 1 })

/-- n open bytes: each draw gives eight. -/
def State.drawBytes (s : State) (n : Nat) : List Byte × State :=
  (((List.range ((n + 7) / 8)).flatMap (fun i => leBytes 8 (Config.freeWord (s.free + i)).toNat)).take n,
   { s with free := s.free + (n + 7) / 8 })

/-! ### Events -/

/-- The data of an event, each item at its width in bytes (R502). -/
def evData : List (Nat × Nat) → List Byte
  | [] => []
  | (w, v) :: l => leBytes w v ++ evData l

/-- Raise an event (R481): it waits for the ledger, or is dropped when 64 are waiting.  While the root is lost the ledger is not written (R36). -/
def State.logEvent (blk sev code : Nat) (data : List Byte) (s : State) : State :=
  if s.hif.stopped || s.time.rootLoss.isSome then s
  else if s.hif.waiting.length < 64 then
    { s with hif := { s.hif with waiting := s.hif.waiting ++ [{ time := s.time.devtime, block := blk, sev, code, data }] } }
  else
    (({ s with hif := { s.hif with drops := s.hif.drops + 1,
                                   firstDrop := if s.hif.drops = 0 then s.time.devtime else s.hif.firstDrop } }).addCnt
      R.HIF_LEDGER_DROP_CNT 1).setFlag R.HIF_STATUS F.HIF_STATUS_ledger_drop true

/-- Raise a FAULT event, whose Detail the manual does not define (R502): a free value. -/
def State.logFault (blk code : Nat) (pre : List Byte) (s : State) : State :=
  let (d, s) := s.draw
  s.logEvent blk 3 code (pre ++ leBytes 4 d.toNat)

/-- Severities of Table HIF-6. -/
abbrev sevInfo : Nat := 0
abbrev sevWarn : Nat := 1
abbrev sevAlarm : Nat := 2
abbrev sevFault : Nat := 3

/-- Send the MSI-X message of vector v, or keep it pending while it is masked (R482; the rules of the PCIe specification: PRESUMED: notes/assumptions/76.md). -/
def State.msixSend (v : Nat) (s : State) : State :=
  if s.hif.msixOn = false ∨ s.hif.stopped then s
  else if s.hif.msixMask ∨ s.flag (R.HIF_MSIX_CTRL v) F.HIF_MSIX_CTRL_mask ∨ s.flag R.HIF_STATUS F.HIF_STATUS_link_up = false then
    s.setReg R.HIF_MSIX_PBA (s.reg R.HIF_MSIX_PBA ||| BitVec.ofNat 32 (2 ^ v))
  else { s with hif := { s.hif with msix := v :: s.hif.msix } }

/-- Set interrupt vector v pending (R482): on a change from 0 to 1 an MSI-X message is sent. -/
def State.raiseIrq (v : Nat) (s : State) : State :=
  let p := s.reg R.HIF_IRQ_PEND
  let s := s.setReg R.HIF_IRQ_PEND (p ||| BitVec.ofNat 32 (2 ^ v))
  if p.getLsbD v then s else s.msixSend v

/-! ### Claims -/

/-- The claim on a resource. -/
def State.claimOf (s : State) (r : Nat) : Option Claim := s.claims.lookup r

/-- Whether a level holds a resource. -/
def State.holds (s : State) (h : Holder) (r : Nat) : Bool :=
  match s.claimOf r with
  | some c => c.holder == h
  | none => false

/-- Whether a GPIO ball is claimed for a function (Table HXS-10). -/
def State.ballAs (s : State) (n f : Nat) : Bool :=
  match s.claimOf n with
  | some c => c.func == f
  | none => false

/-- A timer event: bit 3 in the view of the level that holds the timer (R504), on the active core. -/
def State.timerEvent (n : Nat) (s : State) : State :=
  match s.active, s.claimOf (0x10 + n) with
  | some k, some c => s.eventAt k (c.holder == .harbour) 3
  | _, _ => s

/-! ### Blocks and power domains -/

/-- Block IDs of Table ARC-1 for the engines of a carrier: e counts TXP, RXF, EQZ, CRR, FEC, FRM, HAIL from 0. -/
def carBlock (c : Carrier) (e : Nat) : Nat := 1 + 2 * e + c.code

/-- The block of Table ARC-1 whose window holds a device address; none outside every window of Table ARC-7. -/
def blockOfAddr (a : Nat) : Option Nat :=
  let w := a / 0x100000
  if 0x100 ≤ w ∧ w ≤ 0x106 then some (1 + 2 * (w - 0x100))
  else if 0x110 ≤ w ∧ w ≤ 0x116 then some (2 + 2 * (w - 0x110))
  else match w with
    | 0x120 => some 0x10 | 0x121 => some 0x11 | 0x130 => some 0x12 | 0x131 => some 0x13 | 0x140 => some 0x14
    | 0x1F0 => some 0x15 | 0x1B0 => some 0x1A | 0x1B1 => some 0x1B | 0x160 => some 0x1C | 0x170 => some 0x1D
    | 0x180 => some 0x1E | 0x181 => some 0x1F | 0x190 => some 0x20 | 0x191 => some 0x21 | 0x1A0 => some 0x22
    | 0x1A1 => some 0x23 | 0x1C0 => some 0x24 | _ => none

/-- The power domain of a block (Table PWR-1).  A host-lane block lies in three domains: its whole window is taken with the
domain of the lanes it names (domainOfAddr). -/
def domainOfBlock (b : Nat) : Nat :=
  if 1 ≤ b ∧ b ≤ 0x0E then (if b % 2 = 1 then 4 else 5)
  else match b with
    | 0x10 => 3 | 0x11 => 3 | 0x14 => 3 | 0x12 => 6 | 0x13 => 9 | 0x15 => 2 | 0x1C => 0 | 0x1D => 0 | _ => 1

/-- The state of a power domain: 0 Run, 1 Moor, 2 Lay-up, 3 absent (PWR_DOM_STATE_d). -/
def State.domState (s : State) (d : Nat) : Nat :=
  if d < 3 ∨ 9 < d then 0
  else if d = 5 ∧ s.part = .ctp2s then 3
  else s.fld (R.PWR_DOM_STATE d) F.PWR_DOM_STATE_state

/-- The phase of a power domain (PWR_DOM_STATE_d.phase). -/
def State.domPhase (s : State) (d : Nat) : Nat := s.fld (R.PWR_DOM_STATE d) F.PWR_DOM_STATE_phase

/-- Whether carrier c exists on this part (R4). -/
def State.hasCarrier (s : State) : Carrier → Bool
  | .A => true
  | .B => s.part != .ctp2s

/-- Whether cipher and key agreement exist on this part (R3). -/
def State.hasCipher (s : State) : Bool := s.part != .ctp4n

/-- The engine of a queue, by block ID (Table ENG-1); none for a reserved queue. -/
def queueBlock (q : Nat) : Option Nat :=
  if q ≤ 6 then some (1 + 2 * q)
  else if 8 ≤ q ∧ q ≤ 14 then some (2 + 2 * (q - 8))
  else match q with
    | 16 => some 0x10 | 17 => some 0x11 | 18 => some 0x12 | 19 => some 0x13 | 20 => some 0x14
    | 24 => some 0x1C | 25 => some 0x1D | 26 => some 0x1E | 27 => some 0x1F | 28 => some 0x20 | 29 => some 0x21
    | 30 => some 0x22 | 31 => some 0x23 | 32 => some 0x24 | _ => none

/-- The queue of a carrier engine: e counts TXP, RXF, EQZ, CRR, FEC, FRM, HAIL from 0 (Table ENG-1). -/
def carQueue (c : Carrier) (e : Nat) : Fin 64 := Fin.ofNat 64 (e + 8 * c.code)

/-! ### Faults of a core (R55) -/

/-- Fault causes of Table HXS-9. -/
abbrev causeIllegal : Nat := 0x01
abbrev causePrivilege : Nat := 0x02
abbrev causeAlign : Nat := 0x03
abbrev causeAccess : Nat := 0x04
abbrev causeParked : Nat := 0x05
abbrev causeClaim : Nat := 0x06
abbrev causeQueue : Nat := 0x07
abbrev causeTrap : Nat := 0x08
abbrev causeObs : Nat := 0x0C

/-- Add n to the PMCs of a core that select an event code (R451); only the active core counts. -/
def State.pmcCount (k : CoreId) (code n : Nat) (s : State) : State :=
  if s.active = some k then
    let c := s.core k
    let hit := fun (i : Fin 6) => (c.pmcSel[i].toNat % 256 == code)
    let wraps := fun (i : Fin 6) => hit i && decide (2 ^ 48 ≤ c.pmc[i].toNat + n)
    let c' := { c with
      pmc := Vector.ofFn (fun i : Fin 6 => if hit i then BitVec.ofNat 64 ((c.pmc[i].toNat + n) % 2 ^ 48) else c.pmc[i])
      pmcOvf := (List.finRange 6).foldl (fun o i => if wraps i then o ||| BitVec.ofNat 64 (2 ^ i.val) else o) c.pmcOvf
      obsIrq := c.obsIrq || (c.oie && (List.finRange 6).any wraps) }
    s.setCore k c'
  else s

/-- n issue slots of core k fall into a class (R452): its counter and its PMC event. -/
def State.slotClass (k : CoreId) (a code n : Nat) (s : State) : State := if n = 0 then s else (s.addCnt a n).pmcCount k code n

/-- The issue slots of d control ticks, two to a tick (R452): those of instructions that retired or were discarded, then, while the core waits, back-starved ones
by what it waits for, else front-starved ones, since no instruction came (DESIGN CHOICE: notes/assumptions/17.md). -/
def State.slotTicks (k : CoreId) (d : Nat) (s : State) : State :=
  let c := s.core k
  let ret := min c.retired (2 * d)
  let waste := min c.wasted (2 * d - ret)
  let rest := 2 * d - ret - waste
  let s := s.setCore k { c with retired := c.retired - ret, wasted := c.wasted - waste }
  let s := if ret = 0 then s else s.addCnt (R.OBS_TD_RET k.code) ret
  let s := s.slotClass k (R.OBS_TD_WASTE k.code) 7 waste
  match c.wait with
  | .none => s.slotClass k (R.OBS_TD_FRONT k.code) 8 rest
  | .send .. => (s.slotClass k (R.OBS_TD_BACK k.code) 9 rest).slotClass k (R.OBS_TD_BQF k.code) 10 rest
  | _ => (s.slotClass k (R.OBS_TD_BACK k.code) 9 rest).slotClass k (R.OBS_TD_BFENCE k.code) 12 rest

/-- d control ticks of the watchdogs (R350): a running core that waits for nothing counts them; waiting restarts the count. -/
def State.quietTicks (d : Nat) (s : State) : State :=
  let tick := fun (c : PlelisCore) => { c with quiet := if c.run = .running ∧ c.wait = .none then c.quiet + d else 0 }
  (s.setCore .A (tick s.coreA)).setCore .B (tick s.coreB)

/-- PSTATE after fault entry: plvl takes lvl, lvl and fh become 1 (R55). -/
def pstateEnter (p : W32) : W32 := (p &&& ~~~(0x7 : W32)) ||| ((p &&& 1) <<< 1) ||| 0x5

/-- PSTATE after ERET: lvl takes plvl, fh becomes 0 (Table HXS-7). -/
def pstateLeave (p : W32) : W32 := (p &&& ~~~(0x5 : W32)) ||| ((p >>> 1) &&& 1)

/-- TAKE A FAULT (R55): EPC, FAULT and FADDR are written, the level is raised, the core jumps to TVEC.  While fh = 1 it is a
double fault: the core halts and the caller signals it to the pilot. -/
def PlelisCore.takeFault (cause block detail : Nat) (faddr : W64) (c : PlelisCore) : PlelisCore :=
  { c with
    epc := c.pc
    fault := BitVec.ofNat 32 (cause + 0x100 * block + 0x10000 * (detail % 65536))
    faddr
    pstate := pstateEnter c.pstate
    pc := c.tvec
    wait := .none }

/-- RETURN FROM A FAULT (ERET, Table HXS-7): PC takes EPC, lvl takes plvl, fh becomes 0. -/
def PlelisCore.leaveFault (c : PlelisCore) : PlelisCore := { c with pc := c.epc, pstate := pstateLeave c.pstate }

/-- PSTATE.fh of a core. -/
def PlelisCore.fh (c : PlelisCore) : Bool := c.pstate.getLsbD 2

end Sys2Proof.Machine
end

