-- ==== Sys2Proof/Machine/Operands.lean ====
section
/-! DEFINITION. The operand forms: what a read of a register's fields gives, what a write of a word does to each field by
its type (R7, R8, R9), how a value outside its range is limited, and how staged values become effective (R54).  And the
operand forms of a core: general registers and sign-extended immediates (R44, R45). -/
namespace Sys2Proof.Machine

/-! ### A core's operands -/

/-- A general register as an operand: h0 reads 0 (Table HXS-1). -/
def PlelisCore.gpr (c : PlelisCore) (r : BitVec 5) : W64 := if r = 0 then 0 else c.h[r.toFin]

/-- Write a general register: a write to h0 is discarded (Table HXS-1). -/
def PlelisCore.setGpr (r : BitVec 5) (v : W64) (c : PlelisCore) : PlelisCore :=
  if r = 0 then c else { c with h := c.h.set r.toNat v }

/-- A sign-extended 16-bit immediate (R44). -/
def sext16 (i : BitVec 16) : W64 := i.signExtend 64

/-- The address operand ra + sext(imm16) of a load, a store, LDX, STX and JR. -/
def PlelisCore.ea (c : PlelisCore) (ra : BitVec 5) (imm : BitVec 16) : W64 := c.gpr ra + sext16 imm

/-! ### Fields -/

/-- The bits of the staged fields of a register. -/
def stMask (fl : List Fld) : W32 := fl.foldl (fun m f => if f.st then m ||| f.mask else m) 0

/-- The bits that a write-only field hides from a read. -/
def woMask (fl : List Fld) : W32 := fl.foldl (fun m f => if f.ty == .wo then m ||| f.mask else m) 0

/-- The bits of the fields that clear on a read. -/
def rcMask (fl : List Fld) : W32 := fl.foldl (fun m f => if f.ty == .rc then m ||| f.mask else m) 0

/-- The fields of the register at a. -/
def fieldsAt (a : Nat) : List Fld :=
  match famOf a with
  | some (f, _) => f.flds
  | none => []

/-- A value after limiting, and whether it was limited. -/
def Fld.limit (f : Fld) (v : Nat) : Nat × Bool :=
  match f.lim with
  | .free => (v, false)
  | .clamp lo hi => (clampN lo hi v, decide (v < lo ∨ hi < v))
  | .sym m => (unsigned f.width (clampI (-(m : Int)) m (signed f.width v)),
      decide (signed f.width v < -(m : Int) ∨ (m : Int) < signed f.width v))
  | .hole lo hi => if lo ≤ v ∧ v ≤ hi then (0, true) else (v, false)

/-- The register that holds the cfg_lim bit of the block whose window holds a: the TXP status register, else the block's
register at 0x2C0. -/
def limStatus (a : Nat) : Nat :=
  let w := a / 0x100000
  w * 0x100000 + (if w = 0x100 ∨ w = 0x110 then 0x250 else 0x2C0)

/-- Set the status bit that records a limiting. -/
def State.noteLimit (a bit : Nat) (s : State) : State :=
  s.setReg (limStatus a) (s.reg (limStatus a) ||| BitVec.ofNat 32 (2 ^ bit))

/-- Write one field of the register at a from the word v, by the field's type.  A write-only field and a W1S field hold nothing: every W1S field of the
manual starts something, and what it reads as is stated with it. -/
def State.writeFld (a : Nat) (v : W32) (s : State) (f : Fld) : State :=
  match f.ty with
  | .rw =>
    let (x, lim) := f.limit (getBits f v)
    let s := if f.st then { s with regs := { s.regs with stg := sparsePut regReset a (putBits f x (s.staged a)) s.regs.stg } }
             else s.setFld a f x
    if lim then s.noteLimit a f.limBit else s
  | .w1c => s.setReg a (s.reg a &&& ~~~(v &&& f.mask))
  | .w1s | .ro | .rc | .wo => s

/-- Write the register at a: each field by its type; a reserved bit is ignored (R7). -/
def State.writeFields (a : Nat) (v : W32) (fl : List Fld) (s : State) : State := fl.foldl (State.writeFld a v) s

/-- The stored word of a register as software reads it: a staged field shows its staged value (R54), a write-only field 0. -/
def State.stored (s : State) (a : Nat) : W32 :=
  let fl := fieldsAt a
  ((s.reg a &&& ~~~stMask fl) ||| (s.staged a &&& stMask fl)) &&& ~~~woMask fl

/-- Whether some staged field of the register at a differs from its effective value (Table PWR-3, reason 0x03). -/
def State.stagedDiff (s : State) (a : Nat) : Bool := (s.staged a ^^^ s.reg a) &&& stMask (fieldsAt a) != 0

/-! ### Staged values becoming effective -/

/-- The register's word with its staged fields taken from the committed values. -/
def State.merged (s : State) (a : Nat) (fl : List Fld) : W32 := (s.reg a &&& ~~~stMask fl) ||| (s.committed a &&& stMask fl)

/-- Every register at which an effective, committed or staged value is listed. -/
def RegFile.keys (r : RegFile) : List Nat := (r.com.map (·.1)) ++ (r.eff.map (·.1))

/-- Take over the committed values of the registers of a list that a set selects. -/
def State.applyKeys (sel : Nat → RegFam → Bool) : List Nat → State → State
  | [], s => s
  | a :: l, s =>
    match famOf a with
    | some (f, _) => if sel a f then (s.setReg a (s.merged a f.flds)).applyKeys sel l else s.applyKeys sel l
    | none => s.applyKeys sel l

/-- The committed values of the registers that sel selects become effective (R54). -/
def State.applySet (sel : Nat → RegFam → Bool) (s : State) : State := s.applyKeys sel s.regs.keys

/-- Whether a device address lies in a carrier's region (Table ARC-7). -/
def inCarrier (c : Carrier) (a : Nat) : Bool :=
  match c with
  | .A => 0x10000000 ≤ a && a < 0x11000000
  | .B => 0x11000000 ≤ a && a < 0x12000000

/-- An engine of a carrier reaches a boundary of its own: the pending set of the registers that wait for it applies (R54). -/
def State.applyBoundary (b : Bnd) (c : Carrier) (s : State) : State :=
  s.applySet (fun a f => f.bnd == b && inCarrier c a)

/-- The staged values are committed (R51): they wait for the boundaries of their engines. -/
def State.commitStaged (s : State) : State := { s with regs := { s.regs with com := s.regs.stg } }

/-- Staged values written since the last COMMIT that acted are given up (R351). -/
def State.revertStaged (s : State) : State := { s with regs := { s.regs with stg := s.regs.com } }

end Sys2Proof.Machine
end

