-- ==== Sys2Proof/Machine/Flags.lean ====
section
/-! DEFINITION. Flags of a core: the fields of PSTATE (Table HXS-4) and the writes of EVENT (R504). -/
namespace Sys2Proof.Machine

/-- The sticky saturation flag is set (R46). -/
def pstateSat (p : W32) : W32 := p ||| 0x20

/-- The RW bits of PSTATE: lvl, plvl, fh, pae, oie, evmask. -/
def pstateRw : W32 := 0xFF1F

/-- MTS to PSTATE: the RW bits take the value, sat is cleared by a 1, the reserved bits stay 0 (Table HXS-4). -/
def pstateWrite (p : W32) (v : W64) : W32 :=
  (v.truncate 32 &&& pstateRw) ||| ((p &&& 0x20) &&& ~~~(v.truncate 32))

/-- PSTATE.pae. -/
def PlelisCore.pae (c : PlelisCore) : Bool := c.pstate.getLsbD 3

/-- PSTATE.evmask. -/
def PlelisCore.evmask (c : PlelisCore) : Byte := (c.pstate >>> 8).truncate 8

/-- The view of EVENT that the core's level uses (R504). -/
def PlelisCore.event (c : PlelisCore) : Byte := if c.harbour then c.eventH else c.eventB

/-- MTS to EVENT (R504): ones clear bits 0 to 7 of the writer's view; bit 7 is set in the other level's view. -/
def PlelisCore.writeEvent (v : Byte) (c : PlelisCore) : PlelisCore :=
  if c.harbour then { c with eventH := c.eventH &&& ~~~v, eventB := c.eventB ||| (v &&& 0x80) }
  else { c with eventB := c.eventB &&& ~~~v, eventH := c.eventH ||| (v &&& 0x80) }

/-- A fixed-point sum limited to 32 bits, and whether it was limited (R46). -/
def satQ31 (x : Int) : Int × Bool :=
  if x < -(2 ^ 31) then (-(2 ^ 31), true) else if 2 ^ 31 - 1 < x then (2 ^ 31 - 1, true) else (x, false)

/-- The multiply-add of R46 over the low 32 bits of three registers: the new rd and whether it saturated. -/
def maddq (d a b : W64) : W64 × Bool :=
  let p := (a.truncate 32 : W32).toInt * (b.truncate 32 : W32).toInt
  let (r, sat) := satQ31 ((d.truncate 32 : W32).toInt + p / 2 ^ 31)
  (BitVec.ofInt 64 r, sat)

/-- Leading zeros of a 64-bit value, 0 to 64. -/
def clz64 (a : W64) : Nat := if a = 0 then 64 else 63 - Nat.log2 a.toNat

end Sys2Proof.Machine
end

