-- ==== Sys2Proof/Machine/Codes.lean ====
section
/-! DEFINITION. Codes and formulas that several blocks share: the CRCs (R208, R442), the capacity and entropy formulas (R84, R85), the
guaranteed SNR threshold (R87), the payload calendar in closed form (R234). -/
namespace Sys2Proof.Machine

/-! ### CRCs -/

/-- One bit of a CRC of width w, most significant bit first. -/
def crcBit {w : Nat} (poly : BitVec w) (r : BitVec w) (b : Bool) : BitVec w :=
  if r.msb != b then (r <<< 1) ^^^ poly else r <<< 1

/-- The bits of a byte, bit 7 first. -/
def byteBits (x : Byte) : List Bool := (List.range 8).map (fun i => x.getLsbD (7 - i))

/-- A CRC over bytes, bit 7 of each first. -/
def crcOver {w : Nat} (poly init : BitVec w) (l : List Byte) : BitVec w :=
  l.foldl (fun r x => (byteBits x).foldl (crcBit poly) r) init

/-- crc16 of R208. -/
def crc16 (l : List Byte) : BitVec 16 := crcOver 0x1021 0xFFFF l

/-- CRC-32 of R208. -/
def crc32 (l : List Byte) : W32 := ~~~(crcOver 0x04C11DB7 0xFFFFFFFF l)

/-- A byte with its bits in the other order. -/
def revByte (x : Byte) : Byte := x.reverse

/-- CRC-32C, reflected: polynomial 0x1EDC_6F41, initial value and final inversion all ones. -/
def crc32c (l : List Byte) : W32 := (~~~(crcOver (0x1EDC6F41 : W32) 0xFFFFFFFF (l.map revByte))).reverse

/-- Big-endian bytes as a number. -/
def beNat (l : List Byte) : Nat := l.foldl (fun n b => n * 256 + b.toNat) 0

/-- n bytes of v, most significant first. -/
def beBytes (n v : Nat) : List Byte := (leBytes n v).reverse

/-! ### The line mode -/

/-- Bits per symbol of a base constellation (Table LFR-1). -/
def baseBits (base : Nat) : Nat := 2 * (base + 1)

/-- The code rate as a fraction (CAR_MODE_x.rate). -/
def rateFrac (rate : Nat) : Nat × Nat :=
  match rate with
  | 0 => (4, 5)
  | 1 => (5, 6)
  | 2 => (13, 15)
  | _ => (9, 10)

/-- H lies in the range of its base (R85). -/
def entropyOk (base h64 : Nat) : Bool :=
  match base with
  | 0 => h64 == 128
  | 1 => 160 ≤ h64 && h64 ≤ 256
  | 2 => 224 ≤ h64 && h64 ≤ 384
  | _ => false

/-- h64·b − 64·(b − a)·m: the net information per symbol times 64·b (R84). -/
def netInfo (base rate h64 : Nat) : Nat :=
  h64 * (rateFrac rate).2 - 64 * ((rateFrac rate).2 - (rateFrac rate).1) * baseBits base

/-- D and N of the calendar (R234) for S slots. -/
def calD (rate cap : Nat) : Nat := 5242880 * (rateFrac rate).2 * cap
def calN (rs8 base rate h64 : Nat) : Nat := 3937 * rs8 * netInfo base rate h64

/-- The capacity in slots (R84). -/
def capacityOf (rs8 base rate h64 : Nat) : Nat := min 400 (calN rs8 base rate h64 / (5242880 * (rateFrac rate).2))

/-- The calendar over the 16,256 payload words of a frame (R234): slot words in it, and acc after it. -/
def calFrame (d n acc : Nat) : Nat × Nat := if n = 0 then (0, acc) else ((acc + 16256 * d) / n, (acc + 16256 * d) % n)

/-! ### The guaranteed threshold -/

/-- 2^(2^-i) for i from 1, in units of 2^-60. -/
def roots2 : List Nat := [
  1630477228166597776, 1371062456318104877, 1257269815929830108, 1203965700457697122, 1178167198179750970,
  1165475996665667822, 1159181754367685997, 1156047391917129430, 1154483390303177194, 1153702183144312517,
  1153311777820267002, 1153116624702523243, 1153019060527275926, 1152970281535252809, 1152945892813103188,
  1152933698645489088, 1152927601610046618, 1152924553104416454, 1152923028854624131, 1152922266730483657] ++ [
  1152921885668602342, 1152921695137708915, 1152921599872274010, 1152921552239559509, 1152921528423202996,
  1152921516515024924, 1152921510560935935, 1152921507583891451, 1152921506095369212, 1152921505351108094,
  1152921504978977535, 1152921504792912255, 1152921504699879615, 1152921504653363295, 1152921504630105135,
  1152921504618476055, 1152921504612661515, 1152921504609754245, 1152921504608300610, 1152921504607573793]

/-- 2^(fr/den) for fr below den, in units of 2^-60, by the binary digits of fr/den. -/
def pow2Frac (den : Nat) : List Nat → Nat → Nat → Nat
  | [], _, y => y
  | k :: l, fr, y => if den ≤ 2 * fr then pow2Frac den l (2 * fr - den) (y * k / 2 ^ 60) else pow2Frac den l (2 * fr) y

/-- Binary digits of log2 of x, between 1 and 2 in units of 2^-60. -/
def log2Frac : Nat → Nat → Nat → Nat
  | 0, _, r => r
  | n + 1, x, r =>
    let y := x * x / 2 ^ 60
    if 2 ^ 61 ≤ y then log2Frac n (y / 2) (2 * r + 1) else log2Frac n y (2 * r)

/-- log2 of x, given in units of 2^-60 and at least 1, in units of 2^-40. -/
def log2Fix (x : Nat) : Nat := let e := Nat.log2 x - 60; e * 2 ^ 40 + log2Frac 40 (x / 2 ^ e) 0

/-- The guaranteed threshold of a native mode in 0.01 dB: 2^r − 1 in dB, rounded to 0.01 dB, plus 0.60 dB (R87). -/
def nativeThr (base rate h64 : Nat) : Nat :=
  let num := netInfo base rate h64
  let den := 64 * (rateFrac rate).2
  let p := pow2Frac den roots2 (num % den) (2 ^ 60) * 2 ^ (num / den)
  (log2Fix (p - 2 ^ 60) * 3010299956639812 + 10 ^ 13 * 2 ^ 39) / (10 ^ 13 * 2 ^ 40) + 60

/-- The guaranteed required SNR of an interoperable mode in 0.01 dB (Table FEC-5). -/
def iopThr (family mode : Nat) : Nat :=
  match family, mode with
  | 1, 0 => 1360
  | 1, _ => 700
  | 2, _ => 1450
  | _, _ => 1400

end Sys2Proof.Machine
end

