-- ==== Sys2Proof/Machine/Line.lean ====
section
/-! DEFINITION. The line format as data: bits, the reference-symbol generators (R90), the superframe's layout (R89, R115), the frame scrambler
(R233), the hail waveform and its burst coding (R205 to R210). -/
namespace Sys2Proof.Machine

/-! ### Bits -/

/-- Bits as a number, the first most significant. -/
def bitsNat (l : List Bool) : Nat := l.foldl (fun n b => 2 * n + b2n b) 0

/-- The n bits of v, most significant first. -/
def natBits : Nat → Nat → List Bool
  | 0, _ => []
  | n + 1, v => v.testBit n :: natBits n v

/-- The bits of bytes, bit 7 of each first (R226, R208). -/
def bytesBits (l : List Byte) : List Bool := l.flatMap byteBits

/-- Whole bytes of bits, bit 7 of each first. -/
def bitsBytes (n : Nat) (l : List Bool) : List Byte :=
  (List.range n).map (fun i => BitVec.ofNat 8 (bitsNat ((l.drop (8 * i)).take 8)))

/-- Bits as bytes, bit 0 of each byte first (R203). -/
def bitsBytesLow (n : Nat) (l : List Bool) : List Byte :=
  (List.range n).map (fun i => BitVec.ofNat 8 (bitsNat ((l.drop (8 * i)).take 8).reverse))

/-- Take n of a list, missing ones standing as d. -/
def takePad {α : Type} (n : Nat) (d : α) (l : List α) : List α := l.take n ++ List.replicate (n - l.length) d

/-! ### Shift registers -/

/-- One step of a generator x^a + x^b + 1 with a register of a bits, newest in bit 0: its output, the oldest bit, and the register after it. -/
def lfsrStep (a b st : Nat) : Bool × Nat :=
  let out := st.testBit (a - 1)
  (out, (2 * st + b2n (out != st.testBit (b - 1))) % 2 ^ a)

/-- n output bits, and the register after them. -/
def lfsrRun (a b : Nat) : Nat → Nat → List Bool × Nat
  | 0, st => ([], st)
  | n + 1, st =>
    let (o, st) := lfsrStep a b st
    let (l, st) := lfsrRun a b n st
    (o :: l, st)

/-- The PRBS15 of R90, seeded with 0x7FFF for X and 0x2AAA for Y.  Its seed's place in the register and its output bit are the model's
(DESIGN CHOICE: notes/assumptions/90.md). -/
def refSeed (y : Bool) : Nat := if y then 0x2AAA else 0x7FFF
def refBits (y : Bool) (n : Nat) : List Bool := (lfsrRun 15 14 n (refSeed y)).1

/-! ### Symbols -/

/-- Zero amplitude (R89, R115). -/
def zeroSym : Sym := { re := 0, im := 0, num := 0, den := 1 }

/-- A bit's sign: 0 is +, 1 is −. -/
def bitSign (b : Bool) : Int := if b then -1 else 1

/-- A reference symbol ±a ± ja, with 2a² the mean energy (R90): the first bit gives the sign of I. -/
def refSym (i q : Bool) : Sym := { re := bitSign i, im := bitSign q, num := 1, den := 2 }

/-- Symbols of two bits each. -/
def refSyms : List Bool → List Sym
  | i :: q :: l => refSym i q :: refSyms l
  | _ => []

/-- The training symbols and the pilots of one polarisation (R90). -/
def refAll (y : Bool) : List Sym := refSyms (refBits y 18432)
def training (y : Bool) : List Sym := (refAll y).take 1024
def pilots (y : Bool) : List Sym := (refAll y).drop 1024

/-- Symbols of a superframe, and its data symbols, per polarisation (R89). -/
def sfLen : Nat := 524288
def sfData : Nat := 507904

/-- What stands at symbol n of a superframe (Table LFR-3): the k-th training symbol, pilot or data symbol, a guard or the hail window. -/
inductive SfPlace
  | train (k : Nat)
  | guard
  | hail (k : Nat)
  | pilot (k : Nat)
  | data (k : Nat)
deriving DecidableEq, Repr

def sfPlace (n : Nat) : SfPlace :=
  if n < 1024 then .train n
  else if n < 1536 then .guard
  else if n < 7680 then .hail (n - 1536)
  else if n < 8192 then .guard
  else if (n - 8192) % 63 = 0 then .pilot ((n - 8192) / 63)
  else .data ((n - 8192) / 63 * 62 + (n - 8192) % 63 - 1)

/-- The body of a superframe: each pilot and the 62 data symbols after it. -/
def sfBody : List Sym → List Sym → List Sym
  | [], _ => []
  | p :: ps, ds => p :: (takePad 62 zeroSym ds ++ sfBody ps (ds.drop 62))

/-- A superframe of one polarisation from its data symbols (R89, R90, R115); guards and hail window have zero amplitude. -/
def superframe (y : Bool) (ds : List Sym) : List Sym :=
  training y ++ List.replicate 7168 zeroSym ++ sfBody (pilots y) ds

/-! ### The frame scrambler -/

/-- The bits that the scrambler x^31 + x^28 + 1 adds, from all ones (R233). -/
def scramBits (n : Nat) : List Bool := (lfsrRun 31 28 n (2 ^ 31 - 1)).1

/-- The bytes that the scrambler adds. -/
def scramBytes (n : Nat) : List Byte := bitsBytes n (scramBits (8 * n))

/-- A frame scrambled, or descrambled: every byte after the FAS (R233). -/
def scramble (frame : List Byte) : List Byte := frame.take 6 ++ ((frame.drop 6).zip (scramBytes (frame.length - 6))).map (fun p => p.1 ^^^ p.2)

/-- Even parity, bit by bit (Table FRM-2). -/
def bip8 (l : List Byte) : Byte := l.foldl (· ^^^ ·) 0

/-! ### Hail bursts -/

/-- The next bits of the PRBS8 of R207, from the last eight, the newest first. -/
def prbs8 : Nat → List Bool → List Bool
  | 0, _ => []
  | n + 1, l =>
    let b := ((l.getD 1 false != l.getD 2 false) != l.getD 3 false) != l.getD 7 false
    b :: prbs8 n (b :: l.take 7)

/-- The preamble p[0] to p[255] (R207). -/
def preamble : List Bool := List.replicate 8 true ++ prbs8 247 (List.replicate 8 true) ++ [false]

/-- The next bits of c of R209, from the last nine, the newest first. -/
def hailSeq : Nat → List Bool → List Bool
  | 0, _ => []
  | n + 1, l => let b := l.getD 4 false != l.getD 8 false; b :: hailSeq n (b :: l.take 8)

/-- c[0] to c[n − 1] (R209). -/
def hailScram (n : Nat) : List Bool := (List.replicate 9 true ++ hailSeq n (List.replicate 9 true)).take n

/-- The convolutional encoder of R210, its last six input bits the newest first: g1 then g2 for each bit. -/
def convRun : List Bool → List Bool → List Bool
  | _, [] => []
  | h, u :: l =>
    let d := fun k => h.getD (k - 1) false
    let g1 := (((u != d 1) != d 2) != d 3) != d 6
    let g2 := (((u != d 2) != d 3) != d 5) != d 6
    g1 :: g2 :: convRun (u :: h.take 5) l

/-- A codeword: from the zero state, with 6 zero tail bits (R210). -/
def convCode (l : List Bool) : List Bool := convRun [] (l ++ List.replicate 6 false)

/-- The header word of Table HAIL-2 without its CRC, and with it. -/
def hailHeader (typ seq len fragIdx fragLast msgId : Nat) : W64 :=
  let hi := 0x1000000000000000 + typ % 256 * 2 ^ 52 + seq % 256 * 2 ^ 44 + len % 4096 * 2 ^ 32 + fragIdx % 16 * 2 ^ 28 + fragLast % 16 * 2 ^ 24
    + msgId % 256 * 2 ^ 16
  BitVec.ofNat 64 (hi + (crc16 ((beBytes 8 hi).take 6)).toNat)

/-- The coded bits of a burst: the header codeword, and the payload codeword where there is a payload, both scrambled before encoding
(R208 to R210). -/
def hailCoded (header : W64) (payload : List Byte) : List Bool :=
  let h := natBits 64 header.toNat
  let p := if payload.isEmpty then [] else bytesBits payload ++ natBits 32 (crc32 payload).toNat
  let x := ((h ++ p).zip (hailScram (64 + p.length))).map (fun b => b.1 != b.2)
  convCode (x.take 64) ++ if payload.isEmpty then [] else convCode (x.drop 64)

/-- The symbol bits of a burst on X and Y (R205, R207, Table HAIL-1): the preamble, then the coded bits, on both polarisations alike or, windowed, the
even-numbered on X and the odd-numbered on Y. -/
def hailBits (windowed : Bool) (header : W64) (payload : List Byte) : List (Bool × Bool) :=
  let c := hailCoded header payload
  let pre := (preamble.zip (List.range 256)).map (fun p => (p.1, if windowed then p.1 != (p.2 % 2 == 1) else p.1))
  let rec pairs : List Bool → List (Bool × Bool)
    | x :: y :: l => (x, y) :: pairs l
    | [x] => [(x, false)]
    | [] => []
  pre ++ if windowed then pairs c else c.map (fun b => (b, b))

/-- A hail symbol: BPSK of amplitude A on I, A² the mean energy of a reference symbol (R205). -/
def hailSym (b : Bool) : Sym := { re := bitSign b, im := 0, num := 1, den := 1 }

/-- The windows of a windowed burst: 48 symbols each, the positions that carry no symbol being silent (R206, R211). -/
def hailWindows (l : List (Bool × Bool)) : List (List (Option (Bool × Bool))) :=
  (List.range ((l.length + 47) / 48)).map (fun w => takePad 48 none (((l.drop (48 * w)).take 48).map some))

/-- The level of a hail waveform (R206): a + (b − a)·(1 − cos(π·num/den))/2, a constant level where a = b. -/
structure HailLevel where
  a : Int
  b : Int
  num : Nat
  den : Nat
deriving DecidableEq, Repr

/-- The level t/d of a symbol after the start of symbol i of a waveform (R206): raised-cosine ramps a quarter symbol wide are centred on the
boundaries; the first symbol rises from 0 over its first eighth, the last falls to 0 over its last. -/
def hailLevel (l : List Int) (i t d : Nat) : HailLevel :=
  let here := l.getD i 0
  let prev := if i = 0 then 0 else l.getD (i - 1) 0
  let next := l.getD (i + 1) 0
  if i = 0 ∧ 8 * t < d then { a := 0, b := here, num := 8 * t, den := d }
  else if 8 * t < d then { a := prev, b := here, num := d + 8 * t, den := 2 * d }
  else if l.length ≤ i + 1 ∧ 7 * d < 8 * t then { a := here, b := 0, num := 8 * t - 7 * d, den := d }
  else if 7 * d < 8 * t then { a := here, b := next, num := 8 * t - 7 * d, den := 2 * d }
  else { a := here, b := here, num := 0, den := 1 }

end Sys2Proof.Machine
end

