-- ==== Sys2Proof/Machine/Berth.lean ====
section
/-! DEFINITION. Client units and berth streams as data: the blocks of Table CLM-4, the 256b/257b transcoding and the packing of its blocks (R259 to R261), the
header units of a packet berth (R265), the words of a received berth (R262, R266). -/
namespace Sys2Proof.Machine

/-! ### Units -/

/-- The block type of a control block. -/
def Unit66.typ (u : Unit66) : Nat := u.body.toNat % 256

/-- A start block, its standard form, a terminate block (Table CLM-4), and the byte of it at which the frame ends. -/
def Unit66.isStart (u : Unit66) : Bool := u.ctl && u.typ == 0x78
def startBlock : Unit66 := { ctl := true, body := 0xD555555555555578 }
def termTypes : List Nat := [0x87, 0x99, 0xAA, 0xB4, 0xCC, 0xD2, 0xE1, 0xFF]
def Unit66.isTerm (u : Unit66) : Bool := u.ctl && termTypes.contains u.typ
def Unit66.termAt (u : Unit66) : Nat := termTypes.idxOf u.typ

/-- All eight characters idle; all eight characters error. -/
def idleBlock : Unit66 := { ctl := true, body := 0x1E }
def errorBlock : Unit66 := { ctl := true, body := 0x3C78F1E3C78F1E1E }

/-- The local-fault ordered set, and the berth fill of Table CLM-4. -/
def localFault : Unit66 := { ctl := true, body := 0x000000000100004B }
def berthFill : Unit66 := { ctl := true, body := 0x0000000F0000004B }

/-- A unit that R260 does not carry. -/
def Unit66.dropped (u : Unit66) : Bool := u == startBlock || u == idleBlock

/-! ### Transcoding

The 256b/257b transcoding of IEEE 802.3 clause 91 (R261), whose text the manual does not hold (PRESUMED: notes/assumptions/104.md): a leading 1 and the four payloads
where all units are data; else a leading 0, a bit for each unit that says whether it is data, and the payloads without the second nibble of the first control
block's type; the first five bits are scrambled with bits 8 to 12. -/

/-- The 64 bits of a unit, bit 0 first. -/
def Unit66.bits (u : Unit66) : List Bool := (List.range 64).map (fun i => u.body.getLsbD i)

/-- A unit from its bits. -/
def unitOf (ctl : Bool) (l : List Bool) : Unit66 := { ctl, body := BitVec.ofNat 64 (bitsNat l.reverse) }

/-- The payloads of units, the second nibble of the first control block's type left out. -/
def xcodeBody : List Unit66 → List Bool
  | [] => []
  | u :: l => if u.ctl then u.bits.take 4 ++ u.bits.drop 8 ++ l.flatMap Unit66.bits else u.bits ++ xcodeBody l

/-- The first five bits scrambled; the operation is its own inverse. -/
def xcodeHead (l : List Bool) : List Bool := ((l.take 5).zip ((l.drop 8).take 5)).map (fun p => p.1 != p.2) ++ l.drop 5

/-- The 257 bits of four units. -/
def xcode (l : List Unit66) : List Bool :=
  xcodeHead (if l.all (fun u => !u.ctl) then true :: l.flatMap Unit66.bits else false :: (l.map (fun u => !u.ctl) ++ xcodeBody l))

/-- The block types, told apart by their first nibble. -/
def blockTypes : List Nat := [0x1E, 0x2D, 0x33, 0x4B, 0x55, 0x66, 0x78, 0x87, 0x99, 0xAA, 0xB4, 0xCC, 0xD2, 0xE1, 0xFF]

/-- Units from flags (data or not) and payload bits. -/
def unitsOf : List Bool → List Bool → List Unit66
  | [], _ => []
  | d :: fs, l => unitOf (!d) (l.take 64) :: unitsOf fs (l.drop 64)

/-- The four units of 257 bits; none where no four units give them. -/
def xdecode (b : List Bool) : Option (List Unit66) :=
  let l := xcodeHead b
  if l.headD false then some (unitsOf [true, true, true, true] (l.drop 1))
  else
    let fs := (l.drop 1).take 4
    let p := l.drop 5
    match fs.idxOf? false with
    | none => none
    | some c =>
      match blockTypes.find? (fun t => t % 16 == bitsNat ((p.drop (64 * c)).take 4).reverse) with
      | none => none
      | some t => some (unitsOf fs (p.take (64 * c + 4) ++ (natBits 4 (t / 16)).reverse ++ p.drop (64 * c + 4)))

/-! ### Berth streams sent -/

/-- k blocks of a berth from the units that wait, fill standing for those that are missing; the units left. -/
def berthBlocks (fill : Unit66) : Nat → List Unit66 → List Bool × List Unit66
  | 0, l => ([], l)
  | k + 1, l =>
    let (b, r) := berthBlocks fill k (l.drop 4)
    (xcode (takePad 4 fill l) ++ b, r)

/-- The bits that a frame takes of a berth stream (R261): left is what remains of the block begun, last says that the multiframe ends with the frame; then only whole
blocks are sent, and berth fills make up the rest.  The bits, what remains of the last block begun, the units left. -/
def berthBits (fill : Unit66) (bits : Nat) (last : Bool) (left : List Bool) (units : List Unit66) : List Bool × List Bool × List Unit66 :=
  let need := bits - left.length
  let (b, rest) := berthBlocks fill (if last then need / 257 else (need + 256) / 257) units
  let all := left ++ b ++ (if last then xcode (List.replicate 4 berthFill) else [])
  (all.take bits, if last then [] else all.drop bits, rest)

/-- The header unit of a frame (Table CLM-5). -/
def brtHeader (len : Nat) (failed : Bool) : List Byte :=
  let h := leBytes 2 len ++ [if failed then 1 else 0, 0, 0, 0]
  h ++ leBytes 2 (crc16 h).toNat

/-- n bytes of a packet berth from those released, filler headers following (R265). -/
def packetBytes (n : Nat) (failed : Bool) (sent : List Byte) : List Byte :=
  sent.take n ++ (List.replicate ((n - sent.length) / 8) (brtHeader 0 failed)).flatten

/-! ### Berth streams received -/

/-- The slot words of a received payload, each with its tributary (R234, R259): n words from word i on, with the calendar at the first; marked are those of which
FEC_x flagged a byte. -/
def payloadOf (d n cap : Nat) (map : List Byte) (marked : List (Fin 16256)) : Nat → Nat → Nat → Nat → List Byte → List (Nat × RxWord)
  | 0, _, _, _, _ => []
  | k + 1, i, acc, slot, l =>
    if n ≤ acc + d then
      let b := (map.getD slot 0).toNat
      let rest := payloadOf d n cap map marked k (i + 1) (acc + d - n) (if cap = 0 then 0 else (slot + 1) % cap) (l.drop 32)
      if 128 ≤ b then (b - 128, { bytes := takePad 32 0 l, bad := marked.any (fun m => m.val == i), absent := false, first := false }) :: rest else rest
    else payloadOf d n cap map marked k (i + 1) (acc + d) slot (l.drop 32)

/-- The words of a tributary; the first of them begins a multiframe if the frame does. -/
def tribWords (mf : Bool) (t : Nat) (l : List (Nat × RxWord)) : List RxWord :=
  ((l.filter (fun p => p.1 == t)).map (·.2)).modifyHead (fun w => { w with first := mf })

/-- A 257-bit block of a received berth: its bits, whether a byte of it is marked errored, whether a word of it belongs to an absent record. -/
structure BerthBlock where
  bits : List Bool
  bad : Bool
  absent : Bool
deriving DecidableEq, Repr

/-- A receiver that does not know the block boundaries finds them at the next multiframe (R259). -/
def berthAlign (pos : Option Nat) (l : List RxWord) : Option Nat × List RxWord :=
  match pos with
  | some p => (some p, l)
  | none =>
    let r := l.dropWhile (fun w => !w.first)
    (if r.isEmpty then none else some 0, r)

/-- The words before the next multiframe. -/
def mfRun (l : List RxWord) : Nat :=
  match l with
  | [] => 0
  | _ :: r => 1 + (r.takeWhile (fun w => !w.first)).length

/-- The bits after the last whole block of a multiframe are discarded (R262). -/
def berthSkip (pos : Nat) (l : List RxWord) : Nat × List RxWord :=
  if 256 * mfRun l < pos + 257 ∧ mfRun l < l.length then (0, l.drop (mfRun l)) else (pos, l)

/-- n bits from bit pos of the first word on, if they are there, and the words and the position after them. -/
def berthTakeBits (n pos : Nat) (l : List RxWord) : Option (BerthBlock × Nat × List RxWord) :=
  if 256 * l.length < pos + n then none
  else
    let ws := l.take ((pos + n + 255) / 256)
    some ({ bits := ((bytesBits (ws.flatMap (·.bytes))).drop pos).take n, bad := ws.any (·.bad), absent := ws.any (·.absent) },
      (pos + n) % 256, l.drop ((pos + n) / 256))

/-- The next block of a block berth. -/
def berthNext (pos : Nat) (l : List RxWord) : Option (BerthBlock × Nat × List RxWord) :=
  let (p, r) := berthSkip pos l
  if 256 * mfRun r < p + 257 then none else berthTakeBits 257 p r

/-- n bytes of a packet berth from bit pos of the first word on, whether one of them is marked errored or absent, and what follows them. -/
def berthBytes (n pos : Nat) (l : List RxWord) : Option (List Byte × Bool × Nat × List RxWord) :=
  (berthTakeBits (8 * n) pos l).map (fun r => (bitsBytes n r.1.bits, r.1.bad || r.1.absent, r.2.1, r.2.2))

end Sys2Proof.Machine
end

