-- ==== Sys2Proof/Machine/Gcm.lean ====
section
/-! DEFINITION. The cipher arithmetic as data: AES-256 (FIPS 197) and the multiplication of NIST SP 800-38D, which R299 names, the raw operation (R299, Table
CPH-1), the cipher programs over it (R300, Table CPH-2) and what they take of a record (R304, R305). -/
namespace Sys2Proof.Machine

/-! ### AES-256.  The spec names the standard and does not repeat it (PRESUMED: notes/assumptions/101.md). -/

/-- Products in GF(2^8), polynomial x^8 + x^4 + x^3 + x + 1, and the inverse, x^254. -/
def aesTimes (x : Nat) : Nat := if 128 ≤ x then (2 * x) ^^^ 0x11B else 2 * x
def aesMul (x y : Nat) : Nat :=
  ((List.range 8).foldl (fun p i => (if y.testBit i then p.1 ^^^ p.2 else p.1, aesTimes p.2)) (0, x)).1
def aesInv (x : Nat) : Nat := ((List.range 7).foldl (fun p _ => let sq := aesMul p.2 p.2; (aesMul p.1 sq, sq)) (1, x)).1

/-- The S-box. -/
def aesSub (x : Byte) : Byte :=
  let v : Byte := BitVec.ofNat 8 (aesInv x.toNat)
  ((((v ^^^ v.rotateLeft 1) ^^^ v.rotateLeft 2) ^^^ v.rotateLeft 3) ^^^ v.rotateLeft 4) ^^^ 0x63

/-- Bytes added bit by bit. -/
def xorBytes (a b : List Byte) : List Byte := (a.zip b).map (fun p => p.1 ^^^ p.2)

/-- The round constant of key word 8i. -/
def aesRcon : Nat → Nat
  | 0 => 0x8D
  | i + 1 => aesTimes (aesRcon i)

/-- Key words from word i on, n of them; l holds those before, the newest first. -/
def aesExpand : Nat → Nat → List (List Byte) → List (List Byte)
  | 0, _, l => l
  | n + 1, i, l =>
    let prev := l.headD []
    let t := if i % 8 = 0 then xorBytes (((prev.drop 1) ++ prev.take 1).map aesSub) [BitVec.ofNat 8 (aesRcon (i / 8)), 0, 0, 0]
      else if i % 8 = 4 then prev.map aesSub else prev
    aesExpand n (i + 1) (xorBytes (l.getD 7 []) t :: l)

/-- The fifteen round keys. -/
def aesKeys (key : BitVec 256) : List (List Byte) :=
  let k := beBytes 32 key.toNat
  let w := (aesExpand 52 8 ((List.range 8).map (fun i => (k.drop (4 * i)).take 4)).reverse).reverse
  (List.range 15).map (fun r => ((w.drop (4 * r)).take 4).flatten)

/-- SubBytes and ShiftRows; MixColumns. -/
def aesShift (b : List Byte) : List Byte := (List.range 16).map (fun i => aesSub (b.getD ((i + 4 * (i % 4)) % 16) 0))
def aesMix (b : List Byte) : List Byte :=
  (List.range 16).map (fun i =>
    let a := fun r => (b.getD (i / 4 * 4 + (i + r) % 4) 0).toNat
    BitVec.ofNat 8 (((aesMul 2 (a 0) ^^^ aesMul 3 (a 1)) ^^^ a 2) ^^^ a 3))

/-- AES-256 of a block. -/
def aesBlock (key : BitVec 256) (x : BitVec 128) : BitVec 128 :=
  let k := aesKeys key
  let s := xorBytes (beBytes 16 x.toNat) (k.getD 0 [])
  let s := (List.range 13).foldl (fun s r => xorBytes (aesMix (aesShift s)) (k.getD (r + 1) [])) s
  BitVec.ofNat 128 (beNat (xorBytes (aesShift s) (k.getD 14 [])))

/-- X · Y in GF(2^128), with the polynomial and bit order of NIST SP 800-38D (R299). -/
def ghashMul (x y : BitVec 128) : BitVec 128 :=
  ((List.range 128).foldl (fun (p : BitVec 128 × BitVec 128) i =>
    (if x.getLsbD (127 - i) then p.1 ^^^ p.2 else p.1, if p.2.getLsbD 0 then (p.2 >>> 1) ^^^ (0xE1#128 <<< 120) else p.2 >>> 1)) (0, y)).1

/-! ### The raw operation -/

/-- The three functions of R299: E encrypts under a context's key, M accumulates with its H, X adds. -/
inductive RawFn | E | M | X
deriving DecidableEq, Repr

/-- Bytes beyond a length set to 0. -/
def cutBlock (len : Nat) (x : BitVec 128) : BitVec 128 := (x >>> (8 * (16 - len))) <<< (8 * (16 - len))

/-- The raw operation (R299, Table CPH-1) on a context's key and H, an accumulator and an input of len bytes; pad mode 0 refuses a partial block. -/
def rawOp (f : RawFn) (key : BitVec 256) (h acc x : BitVec 128) (len pad : Nat) : Option (BitVec 128) :=
  if len = 0 ∨ 16 < len ∨ 2 < pad ∨ (pad = 0 ∧ len ≠ 16) then none
  else
    let x := if pad = 1 then cutBlock len x else x
    let y := match f with
      | .E => aesBlock key x
      | .M => ghashMul (acc ^^^ x) h
      | .X => acc ^^^ x
    some (if pad = 2 then cutBlock len y else y)

/-- The raw operation on a whole block. -/
def rawWhole (f : RawFn) (key : BitVec 256) (h acc x : BitVec 128) : BitVec 128 := (rawOp f key h acc x 16 0).getD 0

/-- KEY-INIT: H = E(K, 0^128) (Table CPH-2). -/
def keyInit (key : BitVec 256) : BitVec 128 := rawWhole .E key 0 0 0

/-! ### Records -/

/-- J0 of a record: salt || rc || 1; the counter block i (R304). -/
def gcmJ0 (salt : W32) (rc : Nat) : BitVec 128 := BitVec.ofNat 128 (salt.toNat * 2 ^ 96 + rc % 2 ^ 64 * 2 ^ 32 + 1)
def gcmInc (j0 : BitVec 128) (i : Nat) : BitVec 128 := BitVec.ofNat 128 (j0.toNat / 2 ^ 32 * 2 ^ 32 + (j0.toNat + i) % 2 ^ 32)

/-- The AAD of a record (Table CPH-3), and its length block (R305). -/
def recordAad (trib epoch mode words cap f : Nat) : BitVec 128 :=
  BitVec.ofNat 128 (beNat ([0x55, BitVec.ofNat 8 trib, BitVec.ofNat 8 epoch, BitVec.ofNat 8 mode] ++ beBytes 2 words ++ beBytes 2 cap ++ beBytes 8 f))
def recordLen (words : Nat) : BitVec 128 := BitVec.ofNat 128 (128 * 2 ^ 64 + 256 * words)

/-- What a record is ciphered under: key, H, J0 and AAD. -/
structure RecordCtx where
  key : BitVec 256
  h : BitVec 128
  j0 : BitVec 128
  aad : BitVec 128
deriving DecidableEq, Repr

/-- The blocks of bytes. -/
def blocksOf (l : List Byte) : List (BitVec 128) :=
  (List.range (l.length / 16)).map (fun i => BitVec.ofNat 128 (beNat ((l.drop (16 * i)).take 16)))

/-- A block as bytes. -/
def blockBytes (x : BitVec 128) : List Byte := beBytes 16 x.toNat

/-- Bytes under the counter blocks of a record: GCM-ENC and GCM-DEC alike (R300). -/
def gcmCrypt (r : RecordCtx) (l : List Byte) : List Byte :=
  let b := blocksOf l
  (b.zip (List.range b.length)).flatMap (fun p =>
    blockBytes (rawWhole .X r.key r.h p.1 (rawWhole .E r.key r.h 0 (gcmInc r.j0 (p.2 + 1)))))

/-- The tag over the text of a record as it is on the line (R300): ciphertext in GCM, plaintext in GMAC. -/
def gcmTag (r : RecordCtx) (text : List Byte) : BitVec 128 :=
  let m := rawWhole .M r.key r.h
  let s := (blocksOf text).foldl m (m 0 r.aad)
  rawWhole .X r.key r.h (m s (recordLen (text.length / 32))) (rawWhole .E r.key r.h 0 r.j0)

/-- A record as sent and its tag: mode 1 enciphers, mode 2 sends in clear (R300). -/
def gcmSeal (mode : Nat) (r : RecordCtx) (plain : List Byte) : List Byte × BitVec 128 :=
  let text := if mode = 1 then gcmCrypt r plain else plain
  (text, gcmTag r text)

/-- The plaintext of a record (R300). -/
def gcmOpen (mode : Nat) (r : RecordCtx) (text : List Byte) : List Byte := if mode = 1 then gcmCrypt r text else text

/-- The cipher-hold filler of a client with that many slot words (R309). -/
def holdFill (words : Nat) : List Byte := List.replicate (32 * words) 0xA5

end Sys2Proof.Machine
end

