-- ==== Sys2Proof/Machine/LogNotes.lean ====
section
/-! DEFINITION. What other blocks leave with the logbook: additions to the totals (R460, R461) and entries for staging (R463). -/
namespace Sys2Proof.Machine

/-- The total at a byte offset of Table LOG-4. -/
def State.total (s : State) (off : Nat) : Nat := sparseGet (fun _ => 0) s.log.tot off

/-- Add n to the total at a byte offset of Table LOG-4. -/
def State.noteTotal (off n : Nat) (s : State) : State :=
  { s with log := { s.log with tot := sparsePut (fun _ => 0) off (s.total off + n) s.log.tot } }

/-- A spare of block blk is used up (Table LOG-4). -/
def State.spareUsed (blk : Nat) (s : State) : State := s.noteTotal (56 + 4 * (blk - 1)) 1

/-- LOG_STATE.staged follows the staging. -/
def State.logShow (s : State) : State := s.setFld R.LOG_STATE F.LOG_STATE_staged (min 2048 s.log.staged.length)

/-- Remove the first staged event entry. -/
def dropEvent : List LogEntry → List LogEntry
  | [] => []
  | e :: l => if e.kind = 2 then l else e :: dropEvent l

/-- A formed entry goes to staging; with staging full the oldest staged event entry is dropped, and no other kind ever is (R463). -/
def State.logStage (kind : Nat) (payload : List Byte) (s : State) : State :=
  if s.log.fault then s
  else
    let l := s.log.staged ++ [{ kind, time := s.time.devtime, poh := s.total 0, payload }]
    if l.length ≤ 2048 ∨ l.all (fun e => e.kind != 2) then ({ s with log := { s.log with staged := l } }).logShow
    else
      let s := ({ s with log := { s.log with staged := dropEvent l } }).logShow
      let s := ((s.addCnt R.LOG_DROP_CNT 1).setFlag R.LOG_STATUS F.LOG_STATUS_drop true).noteTotal 52 1
      let sec := s.time.devtime.toNat / 10000000000
      if s.log.dropSec = some sec then s
      else ({ s with log := { s.log with dropSec := some sec } }).logEvent 0x23 sevWarn 0x0001 (evData [(4, s.log.staged.length)])

end Sys2Proof.Machine
end

