-- ==== Sys2Proof/Machine/Ecc.lean ====
section
/-! DEFINITION. The error-correcting code as its readers meet it (R431, R432), the repeat table (R434), hard classings and the field
repair list (R436, R439), and the repair at boot (R438). -/
namespace Sys2Proof.Machine

/-- The error that a word holds. -/
def State.eccKind (s : State) (region word : Nat) : Option EccKind :=
  (s.ecc.marks.find? (fun m => m.region == region && m.word == word)).map (·.kind)

/-- An uncorrectable error is met (R432). -/
def State.eccUncorr (region word : Nat) (s : State) : State :=
  let s := (s.addCnt R.MEM_UNCORR_CNT 1).setFld R.MEM_LAST_UNCORR F.MEM_LAST_UNCORR_region region
  let s := (s.setReg R.MEM_LAST_UNCORR_WORD (BitVec.ofNat 32 word)).setFlag R.MEM_STATUS F.MEM_STATUS_uncorr true
  s.logFault 0x20 0x0002 []

/-- An entry is already listed, or is a row of a listed column (R439). -/
def repairListed (l : List RepairEntry) (m : EccMark) : Bool :=
  l.any (fun e => e.macroNo == m.macroNo && (if e.isCol then e.index == m.col else e.index == m.row))

/-- The entry that a hard classing appends to the field repair list: the column once cells of three rows of a macro fail on it, else the row;
none when it is listed or the list is full (R439, R457). -/
def State.repairEntry (s : State) (m : EccMark) : Option RepairEntry :=
  let l := s.ecc.repairs
  let rows := (l.filter (fun e => e.macroNo == m.macroNo && !e.isCol && e.bit == m.col)).map (·.index)
  if repairListed l m ∨ 1024 ≤ l.length then none
  else if 2 ≤ (rows.filter (· != m.row)).length then
    some { macroNo := m.macroNo, isCol := true, index := m.col, bit := m.col, time := s.time.devtime }
  else some { macroNo := m.macroNo, isCol := false, index := m.row, bit := m.col, time := s.time.devtime }

/-- A hard word is repaired at the next start-up where a spare remains: the repair is held and staged for the log. -/
def State.eccRepair (region word : Nat) (s : State) : State :=
  match s.ecc.marks.find? (fun m => m.region == region && m.word == word) with
  | none => s
  | some m =>
    match s.repairEntry m with
    | none => s
    | some e =>
      let s := { s with ecc := { s.ecc with repairs := s.ecc.repairs ++ [e] } }
      let (l, s) := s.drawBytes 216
      s.logStage 0x04 l

/-- A word is classed hard (R436): counted, logged, and its row joins the field repair list, which the logbook keeps as repair entries (R439,
R463); the payload's layout is not given: free bytes. -/
def State.eccHard (region word : Nat) (s : State) : State :=
  let s := ((s.addCnt R.MEM_HARD_CNT 1).setFlag R.MEM_STATUS F.MEM_STATUS_hard true).logEvent 0x20 sevWarn 0x0003 []
  (s.noteTotal 48 1).eccRepair region word

/-- A repeat-table entry is updated: it is now the most recently updated. -/
def State.rptTouch (n : Nat) (s : State) : State := { s with ecc := { s.ecc with order := s.ecc.order.filter (· != n) ++ [n] } }

/-- A repeat-table entry for a new location (R434): a free one, else that of lowest count, the least recently updated of equals. -/
def State.rptNew (region word count : Nat) (s : State) : Nat × State :=
  let cnt := fun n => s.fld (R.MEM_RPT n) F.MEM_RPT_count
  let low := s.ecc.order.foldl (fun b n => match b with
    | none => some n
    | some m => if cnt n < cnt m then some n else some m) (none : Option Nat)
  let n := ((List.range 16).find? (fun n => !s.ecc.order.contains n)).getD (low.getD 0)
  let s := ((s.setReg (R.MEM_RPT n) 0).setFld (R.MEM_RPT n) F.MEM_RPT_region region).setFlag (R.MEM_RPT n) F.MEM_RPT_valid true
  (n, ((s.setFld (R.MEM_RPT n) F.MEM_RPT_count count).setReg (R.MEM_RPT_WORD n) (BitVec.ofNat 32 word)).rptTouch n)

/-- A count reaches rpt_thr (R434). -/
def State.rptPersist (old new : Nat) (s : State) : State :=
  let thr := s.fld R.MEM_CFG F.MEM_CFG_rpt_thr
  if old < thr ∧ thr ≤ new then
    ((s.setFlag R.MEM_STATUS F.MEM_STATUS_persist true).addCnt R.MEM_PERSIST_CNT 1).logEvent 0x20 sevWarn 0x0001 []
  else s

/-- A corrected read by a requester other than a scrub or a scan (R432, R434, R436). -/
def State.eccCorrected (region word : Nat) (s : State) : State :=
  let s := s.addCnt R.MEM_CORR_CNT 1
  if s.ecc.fault then s
  else match s.rptFind region word with
  | some n =>
    let old := s.fld (R.MEM_RPT n) F.MEM_RPT_count
    let s := (s.setFld (R.MEM_RPT n) F.MEM_RPT_count (min 255 (old + 1))).rptTouch n
    let s := s.rptPersist old (min 255 (old + 1))
    if s.flag (R.MEM_RPT n) F.MEM_RPT_written_back then s.eccHard region word else s
  | none => ((s.rptNew region word 1).2).rptPersist 0 1

/-- A requester reads the n bytes at a device address (R431): whether every word can be read, and the state after the counts. -/
def State.eccRead (a n : Nat) (s : State) : Bool × State :=
  if s.ecc.marks.isEmpty then (true, s)
  else (List.range ((a + n + 7) / 8 - a / 8)).foldl (fun (r : Bool × State) i =>
    match r.2.eccKind 0 (a / 8 + i) with
    | none => r
    | some .uncorr => (false, r.2.eccUncorr 0 (a / 8 + i))
    | some _ => (r.1, r.2.eccCorrected 0 (a / 8 + i))) (true, s)

/-- Spares used up so far in one macro: rows and columns. -/
def spareUse (used : List (Nat × Bool)) (m : Nat) (col : Bool) : Nat := (used.filter (fun e => e.1 == m && e.2 == col)).length

/-- A macro has a spare of the kind left (R438): 4 rows, 2 columns. -/
def spareLeft (used : List (Nat × Bool)) (m : Nat) (col : Bool) : Bool := spareUse used m col < (if col then 2 else 4)

/-- Apply the entries of the field repair list in order: the entries applied, and those left for want of a spare.  A row of a listed column
needs no spare (R439). -/
def applyRepairs (cols : List RepairEntry) : List RepairEntry → List (Nat × Bool) → List RepairEntry × Nat
  | [], _ => ([], 0)
  | e :: l, used =>
    if !e.isCol && cols.any (fun c => c.macroNo == e.macroNo && c.index == e.bit) then applyRepairs cols l used
    else if spareLeft used e.macroNo e.isCol then
      let (done, left) := applyRepairs cols l ((e.macroNo, e.isCol) :: used)
      (e :: done, left)
    else
      let (done, left) := applyRepairs cols l used
      (done, left + 1)

/-- A spare stands in for the cell of a mark. -/
def repaired (done : List RepairEntry) (m : EccMark) : Bool :=
  done.any (fun e => e.macroNo == m.macroNo && (if e.isCol then e.index == m.col else e.index == m.row))

/-- MEM applies repairs at PORESET_N or RESET_N release (R438): the fuse map first, then the field repair list. -/
def State.bootRepair (s : State) : State :=
  let used := s.ecc.factory.foldl (fun u e => if spareLeft u e.1 e.2 then e :: u else u) []
  let lost := s.ecc.factory.length - used.length
  let (done, left) := applyRepairs (s.ecc.repairs.filter (·.isCol)) s.ecc.repairs used
  let a := R.MEM_REPAIR_SUM
  let s := s.setFld a F.MEM_REPAIR_SUM_rows_factory (used.filter (fun e => !e.2)).length
  let s := s.setFld a F.MEM_REPAIR_SUM_rows_field (done.filter (fun e => !e.isCol)).length
  let s := s.setFld a F.MEM_REPAIR_SUM_cols ((used.filter (·.2)).length + (done.filter (·.isCol)).length)
  let s := s.setFld a F.MEM_REPAIR_SUM_unrepaired (min 63 (left + lost))
  let s := { s with ecc := { s.ecc with marks := s.ecc.marks.filter (fun (m : EccMark) => !repaired done m) } }
  if left + lost = 0 then s else (s.setFlag R.MEM_STATUS F.MEM_STATUS_repair_short true).logEvent 0x20 sevWarn 0x0004 []

/-- The restart self-test of a core applies the list to that core's memories only (R357, R438), and its march test rewrites every word. -/
def State.coreRepair (k : CoreId) (s : State) : State :=
  let own := fun (m : EccMark) => m.region == 0 && decide (coreAddr k 0 / 8 ≤ m.word ∧ m.word < coreAddr k 0 / 8 + 0x80000)
  let used := s.ecc.factory.foldl (fun u e => if spareLeft u e.1 e.2 then e :: u else u) []
  let done := (applyRepairs (s.ecc.repairs.filter (·.isCol)) s.ecc.repairs used).1
  { s with ecc := { s.ecc with marks := s.ecc.marks.filter (fun (m : EccMark) => !(own m && (m.kind != EccKind.hard || repaired done m))) } }

end Sys2Proof.Machine
end

