-- ==== Sys2Proof/Machine/Queue.lean ====
section
/-! DEFINITION. The queue controller: tickets and their states (R68, R69), which entry may start (R72), completion records and
NOTIFY (R66, R67), entries that complete by themselves (R501, NOP), what waits for completions (R50, R73). -/
namespace Sys2Proof.Machine

/-! ### Hawser lines (R353): what a write to DMEM does to them -/

/-- The DMEM line of a core-relative address. -/
def lineOf (a : Nat) : Nat := (a - 0x200000) / 64

/-- Insert into an ascending list without repeats. -/
def insertAsc (x : Nat) : List Nat → List Nat
  | [] => [x]
  | y :: l => if x < y then x :: y :: l else if x = y then y :: l else y :: insertAsc x l

/-- The listed bytes of a DMEM line of a core. -/
def State.lineCells (s : State) (k : CoreId) (line : Nat) : List Host.Cell :=
  s.mem.filter (fun e => decide (coreAddr k (0x200000 + 64 * line) ≤ e.1 ∧ e.1 < coreAddr k (0x200000 + 64 * line) + 64))

/-- A write is about to reach a DMEM line of core k: while k is active the line becomes pending, and a frozen line that is not yet
copied is copied first (R353), so its content of the boundary is saved. -/
def State.touchLine (k : CoreId) (line : Nat) (s : State) : State :=
  if s.active = some k then
    let copy := s.hws.copy.map (fun c =>
      if c.lines.contains line && (c.saved.lookup line).isNone then { c with saved := (line, s.lineCells k line) :: c.saved } else c)
    let pend := if line < s.hws.pendFrom then insertAsc line s.hws.pend else s.hws.pend
    { s with hws := { s.hws with copy, pend } }
  else s

/-- Write n bytes at a core-relative address of core k, in DMEM or the shared pool. -/
def State.coreStore (k : CoreId) (a n v : Nat) (s : State) : State :=
  if 0x200000 ≤ a ∧ a < 0x400000 then
    ((s.touchLine k (lineOf a)).touchLine k (lineOf (a + n - 1))).store (coreAddr k a) n v
  else s.store a n v

/-! ### Queues and tickets -/

/-- A queue. -/
def State.queue (s : State) (q : Fin 64) : Queue := s.qc.qs[q]

/-- Replace a queue. -/
def State.setQueue (q : Fin 64) (x : Queue) (s : State) : State := { s with qc := { s.qc with qs := s.qc.qs.set q x } }

/-- The descriptor's flags (Table ENG-3). -/
def Desc.ordered (d : Desc) : Bool := d.flags % 2 == 1
def Desc.notify (d : Desc) : Bool := d.flags / 2 % 2 == 1
def Desc.nowake (d : Desc) : Bool := d.flags / 4 % 2 == 1
def Desc.atbound (d : Desc) : Bool := d.flags / 8 % 2 == 1

/-- The queue number of a ticket (R68). -/
def ticketQueue (t : W32) : Fin 64 := Fin.ofNat 64 t.toNat

/-- A ticket (R68): sequence number, EPOCH[7:0], queue number. -/
def mkTicket (seq : Nat) (epoch : W16) (q : Fin 64) : W32 :=
  BitVec.ofNat 32 (seq * 2 ^ 16 + epoch.toNat % 256 * 2 ^ 8 + q.val)

/-- The sequence number after seq: 65,535 is followed by 1 (R68). -/
def nextSeq (seq : Nat) : Nat := if seq = 65535 then 1 else seq + 1

/-- The state of a ticket (Table ENG-5) and its status, 0xFF while there is none (R69). -/
def State.ticketState (s : State) (t : W32) : Nat × Nat :=
  let q := s.queue (ticketQueue t)
  match q.entries.find? (fun e => e.ticket == t) with
  | some e => (if e.started then 2 else 1, 0xFF)
  | none =>
    match q.done.find? (fun d => d.1 == t && decide (q.issued - d.2.1 < 4096)) with
    | some d => (if d.2.2.1 = 0 then 3 else 4, d.2.2.1)
    | none => (0, 0xFF)

/-- The word POLLT writes (R69). -/
def State.polltWord (s : State) (t : W32) : Nat :=
  let (st, code) := s.ticketState t
  let blk := if t = 0 then 0 else (queueBlock (ticketQueue t).val).getD 0
  st + 0x100 * code + 0x10000 * blk

/-- What WAITT returns once a ticket is finished or unknown: 0 done, 2 in error or unknown (R53); none while it is unfinished. -/
def State.waitResult (s : State) (t : W32) : Option Nat :=
  match (s.ticketState t).1 with
  | 3 => some 0
  | 4 => some 2
  | 0 => some 2
  | _ => none

/-- The opcodes an engine defines beside NOP: 0x0100 and on, as many as its catalogue lists (Table ENG-1). -/
def queueOpcodes (q : Nat) : Nat :=
  let e := if 8 ≤ q ∧ q ≤ 14 then q - 8 else q
  match e with
  | 0 => 5 | 1 => 3 | 2 => 4 | 3 => 3 | 4 => 3 | 5 => 3 | 6 => 2
  | 16 => 3 | 17 => 2 | 18 => 2 | 19 => 4 | 20 => 2 | 24 => 2 | 25 => 2 | 26 => 3 | 27 => 4 | 28 => 2 | 29 => 1
  | 30 => 2 | 31 => 3 | 32 => 4 | _ => 0

/-- Whether an engine has a boundary of its own (R54): the superframe, the FEC block, the UZF frame. -/
def hasBoundary (q : Fin 64) : Bool := (queueBlock q.val).getD 0 ≤ 0x0C && (queueBlock q.val).isSome

/-- The power domain whose state governs an entry: that of the engine; for HLN, of the lane group its unit names; a unit that names no lane
goes to HLG0 (DESIGN CHOICE: notes/assumptions/89.md). -/
def entryDomain (q : Fin 64) (d : Desc) : Nat :=
  if q = 18 then (if d.unit < 24 then 6 + d.unit / 8 else 6) else domainOfBlock ((queueBlock q.val).getD 0x18)

/-- The entry in progress of a parkable domain. -/
def State.domEntry (s : State) (d : Nat) : Option PwrEntry :=
  if 3 ≤ d ∧ d ≤ 9 then (s.pwr.doms[Fin.ofNat 7 (d - 3)]).entry else none

/-- A domain in which a command may start: in Run, no entry in progress. -/
def State.domReady (s : State) (d : Nat) : Bool := s.domState d == 0 && (s.domEntry d).isNone

/-- Whether ORDERED lets the entry behind the started entries `before` start (Table ENG-3). -/
def orderOk (before : List QEntry) (e : QEntry) : Bool :=
  !(e.desc.ordered && !before.isEmpty) && before.all (fun b => !b.desc.ordered)

/-- The first entry that has not started. -/
def Queue.firstWaiting (q : Queue) : Option QEntry := q.entries.find? (fun e => !e.started)

/-- The entries before it: those that have started. -/
def Queue.startedEntries (q : Queue) : List QEntry := q.entries.filter (fun e => e.started)

/-- Replace the entry that holds a ticket. -/
def Queue.modEntry (t : W32) (f : QEntry → QEntry) (q : Queue) : Queue :=
  { q with entries := q.entries.map (fun e => if e.ticket == t then f e else e) }

/-- The bytes of a completion record (Table ENG-4). -/
def recordBytes (t : W32) (status block cflags : Nat) (time : W64) (r0 r1 : Nat) : List Byte :=
  leBytes 4 t.toNat ++ [BitVec.ofNat 8 status, BitVec.ofNat 8 block, BitVec.ofNat 8 cflags, 0] ++
  leBytes 8 time.toNat ++ leBytes 8 r0 ++ leBytes 8 r1

/-- cflags of Table ENG-4. -/
def QEntry.cflags (e : QEntry) : Nat := b2n e.dual + 2 * b2n e.stale + 4 * b2n e.waited

/-- Write a completion record to the DMEM of the issuing core or to the shared pool (R67). -/
def State.writeRecord (q : Fin 64) (e : QEntry) (status r0 r1 : Nat) (s : State) : State :=
  if e.desc.resultAddr = 0 || !e.recordOk then s
  else
    let l := recordBytes e.ticket status ((queueBlock q.val).getD 0) e.cflags s.time.devtime r0 r1
    s.coreStore e.core e.desc.resultAddr 32 (leNat l)

/-- An entry completes (R66, R67, R69): its record is written, NOTIFY sets event bit 1 in the issuing level's view of the issuing
core, it leaves the queue and its ticket keeps its status while it is known (R68). -/
def State.completeRaw (q : Fin 64) (e : QEntry) (status r0 r1 : Nat) (s : State) : State :=
  let s := s.writeRecord q e status r0 r1
  let s := if e.desc.notify then s.eventAt e.core (e.desc.level == 1) 1 else s
  let x := s.queue q
  s.setQueue q { x with entries := x.entries.filter (fun y => !(y.ticket == e.ticket))
                        done := (e.ticket, e.no, status, r0) :: x.done.filter (fun d => !(d.1 == e.ticket)) }

/-- The word of the queue window that holds an entry (R64): queue q begins after the depths of the queues before it, and its entries take
its places in turn (DESIGN CHOICE: notes/assumptions/21.md). -/
def State.descWord (s : State) (q : Fin 64) (e : QEntry) : Nat :=
  let before := ((List.finRange 64).filter (fun p => p.val < q.val)).foldl (fun n p => n + (s.queue p).depth) 0
  0x02000000 / 8 + 4 * (before + (e.no - 1) % max 1 (s.queue q).depth)

/-- The first uncorrectable word of an entry's descriptor (Table MEM-1). -/
def State.descBad (s : State) (q : Fin 64) (e : QEntry) : Option Nat :=
  if s.ecc.marks.isEmpty then none
  else (List.range 4).map (s.descWord q e + ·) |>.find? (fun w => s.eccKind 0 w == some EccKind.uncorr)

/-- One entry that completes by itself: one that failed at acceptance, a NOWAKE entry of a laid-up domain, a NOP (R501, R66), one whose descriptor
cannot be read (Table MEM-1). -/
def State.settleOnce (q : Fin 64) (s : State) : Option State :=
  let x := s.queue q
  match x.firstWaiting with
  | none => none
  | some e =>
    if !orderOk x.startedEntries e then none
    else match e.bad with
    | some st => some (s.completeRaw q e st 0 0)
    | none =>
      match s.descBad q e with
      | some w => some ((s.eccUncorr 0 w).completeRaw q e 0x05 0 0)
      | none =>
      let d := entryDomain q e.desc
      if e.desc.nowake && s.domState d == 2 then some (s.completeRaw q { e with waited := false } 0x07 0 0)
      else if e.desc.opcode = 0 ∧ s.domReady d ∧ (!(e.desc.atbound && hasBoundary q) || e.armed)
        then some (s.completeRaw q e 0x00 0 0)
      else none

/-- Complete every entry at the head that completes by itself. -/
def State.settleFuel (q : Fin 64) : Nat → State → State
  | 0, s => s
  | n + 1, s => match s.settleOnce q with
    | some s' => s'.settleFuel q n
    | none => s

/-- Complete every entry at the head that completes by itself. -/
def State.settle (q : Fin 64) (s : State) : State := s.settleFuel q (s.queue q).entries.length

/-- Entries of a core that are not complete. -/
def State.outstanding (s : State) (k : CoreId) : Bool :=
  (List.finRange 64).any (fun q => (s.queue q).entries.any (fun e => e.core == k))

/-- An instruction retires (R451, R452): the next instruction is at pc, the counters of retired instructions advance, its issue slot is one that retires; the
watchdog's count starts again (R350). -/
def State.retireAt (k : CoreId) (pc : W64) (s : State) : State :=
  (s.modCore k (fun c => { c with pc, wait := .none, retired := c.retired + 1, quiet := 0 })).pmcCount k 2 1

/-- An instruction retires and the next one follows it. -/
def State.retire (k : CoreId) (s : State) : State := s.retireAt k ((s.core k).pc + 4)

/-- A core in FENCE.Q goes on once every earlier SEND of it is complete (Table ENG-7). -/
def State.releaseFence (k : CoreId) (s : State) : State :=
  if (s.core k).wait = .fenceQ ∧ s.outstanding k = false then s.retire k else s

/-- Mark the entry with a ticket as started (R72). -/
def State.startEntry (t : W32) (s : State) : State :=
  let q := ticketQueue t
  s.setQueue q ((s.queue q).modEntry t (fun e => { e with started := true }))

/-- The entry with a ticket. -/
def State.entryOf (s : State) (t : W32) : Option QEntry := (s.queue (ticketQueue t)).entries.find? (fun e => e.ticket == t)

/-- A started entry of a queue with an opcode: the first such. -/
def State.startedOp (s : State) (q : Fin 64) (op : Nat) : Option QEntry :=
  (s.queue q).entries.find? (fun e => e.started && e.desc.opcode == op)

/-- The entry of a queue that may start now with an opcode (R72, R501 checks 1 to 5, R77). -/
def State.startable (s : State) (q : Fin 64) (op : Nat) : Option QEntry :=
  let x := s.queue q
  match x.firstWaiting with
  | none => none
  | some e =>
    if e.desc.opcode = op ∧ e.bad = none ∧ s.descBad q e = none ∧ orderOk x.startedEntries e ∧ s.domReady (entryDomain q e.desc)
       ∧ (!(e.desc.atbound && hasBoundary q) || e.armed)
    then some e else none

/-- A boundary of an engine is reached while an ATBOUND entry is at the head and ORDERED does not hold it there: it may start (Table ENG-3). -/
def State.armBoundary (q : Fin 64) (s : State) : State :=
  let x := s.queue q
  match x.firstWaiting with
  | some e => if e.desc.atbound && orderOk x.startedEntries e then (s.setQueue q (x.modEntry e.ticket (fun e => { e with armed := true }))).settle q else s
  | none => s

/-- A buffer address under R129: in the shared pool, aligned to 8 bytes, the whole buffer inside the pool. -/
def bufferOk (a len : Nat) : Bool := 0x01000000 ≤ a && a % 8 == 0 && a + len ≤ 0x01C00000

end Sys2Proof.Machine
end

