-- ==== Sys2Proof/Machine/Power.lean ====
section
/-! DEFINITION. Power domains as other blocks meet them: whether a domain is idle (R394), wakes and aborted entries (R396,
R398), the domain of an address (R294), parked accesses (R400), and the acceptance of a command by its queue (R68, R77, R501). -/
namespace Sys2Proof.Machine

/-- The domain whose state governs an access to a device address (R294): lane registers of HLN by lane, its other registers
in CTL. -/
def domainOfAddr (a : Nat) : Nat :=
  match blockOfAddr a with
  | some 0x12 =>
    if 0x13001000 ≤ a ∧ a < 0x13001180 then 6 + (a - 0x13001000) / 128
    else if 0x13002000 ≤ a ∧ a < 0x13002300 then 6 + (a - 0x13002000) / 256
    else 1
  | some b => domainOfBlock b
  | none => 1

/-- A parkable domain's record. -/
def State.dom (s : State) (d : Nat) : PwrDom := s.pwr.doms[Fin.ofNat 7 (d - 3)]

/-- Change a parkable domain's record. -/
def State.modDom (d : Nat) (f : PwrDom → PwrDom) (s : State) : State :=
  { s with pwr := { s.pwr with doms := s.pwr.doms.set (Fin.ofNat 7 (d - 3)) (f (s.dom d)) } }

/-- The lane states of a host-lane group are all L2 (R293); for HLG3 QLK is also disabled (R394). -/
def State.lanesOff (s : State) (d : Nat) : Bool :=
  if d = 9 then (List.range 8).all (fun n => s.fld (R.QLK_LANE_STATUS n) F.QLK_LANE_STATUS_pstate == 2)
    && !s.flag R.QLK_CTRL F.QLK_CTRL_enable
  else (List.range 8).all (fun i => s.fld (R.HLN_LANE_STATUS (8 * (d - 6) + i)) F.HLN_LANE_STATUS_pstate == 2)

/-- No client and no FlexE group is enabled (R394). -/
def State.clientsOff (s : State) : Bool :=
  (List.range 128).all (fun c => !s.flag (R.CLM_CLIENT_CFG c) F.CLM_CLIENT_CFG_enable)
  && (List.range 8).all (fun g => !s.flag (R.CLM_FLEXE_GRP g) F.CLM_FLEXE_GRP_enable)

/-- Whether a block of a parkable domain has left its stopped state (R394, Table PWR-3 reason 0x02). -/
def State.blockActive (s : State) (b : Nat) : Bool :=
  match b with
  | 0x10 => !s.clientsOff
  | 0x14 => !s.cph.slots.isEmpty
  | 0x01 => s.fld (R.TXP_STATE .A) F.TXP_STATE_state != 0
  | 0x02 => s.fld (R.TXP_STATE .B) F.TXP_STATE_state != 0
  | 0x03 => s.fld (R.RXF_STATE .A) F.RXF_STATE_state != 0
  | 0x04 => s.fld (R.RXF_STATE .B) F.RXF_STATE_state != 0
  | _ => false

/-- The blocks of a parkable domain, ascending (Table PWR-1). -/
def domBlocks (d : Nat) : List Nat :=
  match d with
  | 3 => [0x10, 0x11, 0x14]
  | 4 => [0x01, 0x03, 0x05, 0x07, 0x09, 0x0B, 0x0D]
  | 5 => [0x02, 0x04, 0x06, 0x08, 0x0A, 0x0C, 0x0E]
  | 9 => [0x13]
  | _ => [0x12]

/-- Whether an incomplete entry waits in the queue of a block, for a domain (R394). -/
def State.blockQueued (s : State) (d b : Nat) : Bool :=
  (List.finRange 64).any (fun q => queueBlock q.val == some b && (s.queue q).entries.any (fun e => entryDomain q e.desc == d))

/-- Whether a staged field of a block holds a value that differs from its effective value, in a domain (R394). -/
def State.blockStaged (s : State) (d b : Nat) : Bool :=
  ((s.regs.stg.map (·.1)) ++ (s.regs.eff.map (·.1))).any (fun a =>
    blockOfAddr a == some b && domainOfAddr a == d && s.stagedDiff a)

/-- A GPIO level wake of the domain is asserted: enabled, its ball claimed with function 0 and at gpio_pol (Table PWR-4). -/
def State.levelWake (s : State) (d : Nat) : Bool :=
  let w := R.PWR_DOM_WAKE d
  let g := s.fld w F.PWR_DOM_WAKE_gpio
  s.flag w F.PWR_DOM_WAKE_gpio_lvl_en && s.ballAs g 0 && (s.pins.gpio.getLsbD g == s.flag w F.PWR_DOM_WAKE_gpio_pol)

/-- park_mode of a domain; 0 after a logic fault (R406). -/
def State.parkMode (s : State) (d : Nat) : Nat :=
  if s.pwr.fault then 0 else s.fld (R.PWR_DOM_CFG d) F.PWR_DOM_CFG_park_mode

/-- The domain is idle and its timer runs (R394). -/
def State.domIdle (s : State) (d : Nat) : Bool :=
  s.parkMode d != 0 && s.domState d == 0 && (s.domEntry d).isNone && !s.levelWake d
  && (domBlocks d).all (fun b => !s.blockActive b && !s.blockQueued d b && !s.blockStaged d b)
  && (d < 6 || s.lanesOff d)

/-- Record a refused entry (R395). -/
def State.noteRefuse (d blk reason : Nat) (s : State) : State :=
  ((((s.setFld (R.PWR_DOM_REFUSE d) F.PWR_DOM_REFUSE_block blk).setFld (R.PWR_DOM_REFUSE d) F.PWR_DOM_REFUSE_reason reason).addCnt
    (R.PWR_REFUSE_CNT d) 1).noteTotal 32 1).setFlag R.PWR_STATUS F.PWR_STATUS_refuse true

/-- Abort an entry in progress before its lost-edge window (R396): the domain is back in Run, the abort is recorded, a PW_PARK command
that it served completes with status 0x06 (R397). -/
def State.abortEntry (d blk reason : Nat) (s : State) : State :=
  match s.domEntry d with
  | none => s
  | some e =>
    let s := s.modDom d (fun x => { x with entry := none })
    let s := s.setFld (R.PWR_DOM_STATE d) F.PWR_DOM_STATE_phase 0
    let s := ((s.setFld (R.PWR_DOM_REFUSE d) F.PWR_DOM_REFUSE_block blk).setFld (R.PWR_DOM_REFUSE d) F.PWR_DOM_REFUSE_reason reason)
    let s := ((s.addCnt (R.PWR_REFUSE_CNT d) 1).noteTotal 32 1).setFlag R.PWR_STATUS F.PWR_STATUS_abort true
    match e.ticket.bind s.entryOf with
    | some x => (s.completeRaw 25 x 0x06 (blk + 0x100 * reason) 0).settle 25
    | none => s

/-- Whether a wake of an earlier domain in the fixed order is in progress (R398). -/
def State.earlierWaking (s : State) (d : Nat) : Bool := (List.range d).any (fun d' => 3 ≤ d' && s.domPhase d' == 3)

/-- Begin the wake of a parked domain, or let it wait for an earlier domain's, or merge it into its own (R398). -/
def State.startWake (d : Nat) (s : State) : State :=
  if (s.domState d = 1 ∨ s.domState d = 2) ∧ s.domPhase d ≠ 3 then
    s.setFld (R.PWR_DOM_STATE d) F.PWR_DOM_STATE_phase (if s.earlierWaking d then 4 else 3)
  else s

/-- A wake event, register access or accepted command meets the domain (R396, R398).  Before the lost-edge window of an entry it
aborts the entry; in the window a level wake is kept for the completed state and anything else is lost. -/
def State.wakeEvent (d : Nat) (level : Bool) (blk reason : Nat) (s : State) : State :=
  match s.domEntry d with
  | some e =>
    if 8 < e.left then s.abortEntry d blk reason
    else if level then s.modDom d (fun x => { x with lateWake := true }) else s
  | none => s.startWake d

/-- A register access to a block of a domain in Run aborts an entry in progress, before the lost-edge window (R396). -/
def State.accessTouch (d blk : Nat) (s : State) : State :=
  match s.domEntry d with
  | some e => if 8 < e.left then s.abortEntry d blk 0x08 else s
  | none => s

/-- An access finds its block laid up (R400): Lay-up itself, or the lost-edge window of an entry into it (R396). -/
def State.laidUp (s : State) (d : Nat) : Bool :=
  s.domState d == 2 || (match s.domEntry d with
    | some e => e.target == 2 && e.left ≤ 8
    | none => false)

/-- Who makes a register access (PWR_PARKED_ACCESS.requester). -/
def requesterCode : Option CoreId → Nat
  | none => 0
  | some .A => 1
  | some .B => 2

/-- Count and record a parked access (R400); the first in a second of DEVTIME is an INFO event (Table PWR-7). -/
def State.parkedAccess (d blk : Nat) (who : Option CoreId) (write : Bool) (s : State) : State :=
  let s := s.addCnt R.PWR_PARKED_ACC_CNT 1
  let a := R.PWR_PARKED_ACCESS
  let s := s.setFld a F.PWR_PARKED_ACCESS_flag_d (s.fld a F.PWR_PARKED_ACCESS_flag_d ||| 2 ^ (d - 3))
  let s := ((s.setFld a F.PWR_PARKED_ACCESS_last_block blk).setFld a F.PWR_PARKED_ACCESS_requester (requesterCode who)).setFlag a
    F.PWR_PARKED_ACCESS_last_write write
  let sec := s.time.devtime.toNat / 10000000000
  if s.pwr.lastParkedSec = some sec then s
  else ({ s with pwr := { s.pwr with lastParkedSec := some sec } }).logEvent 0x1D sevInfo 0x0004
    (evData [(1, blk), (1, requesterCode who), (1, b2n write)])

/-! ### Acceptance of a command -/

/-- Whether a result address may hold a completion record (R67): none, or 32-byte aligned in DMEM or the shared pool. -/
def resultAddrOk (a : Nat) : Bool :=
  a == 0 || (a % 32 == 0 && ((0x200000 ≤ a && a + 32 ≤ 0x400000) || (0x01000000 ≤ a && a + 32 ≤ 0x01C00000)))

/-- The function of a command is absent on this part (R3, R4, R65, R274, R321, R407, R430): a carrier B engine, a map of carrier B, domain CARB
or a run or table of a carrier B converter on the CTP-2S, a CPH command on the CTP-4N. -/
def State.absentFn (s : State) (q : Fin 64) (d : Desc) : Bool :=
  (s.part == .ctp2s && ((8 ≤ q.val && q.val ≤ 14)
    || (q.val == 16 && (d.opcode == 0x100 || d.opcode == 0x101) && d.arg1 % 2 == 1)
    || (q.val == 25 && d.opcode != 0 && d.unit == 5)
    || (q.val == 27 && (d.opcode == 0x100 || d.opcode == 0x103) && 8 ≤ d.unit && d.unit < 16)))
  || (s.part == .ctp4n && q.val == 20 && d.opcode != 0)

/-- Checks 1 to 4 of R501, made when the SEND is accepted. -/
def State.acceptCheck (s : State) (q : Fin 64) (d : Desc) : Option Nat :=
  if 16 ≤ d.flags ∨ d.rsvd ≠ 0 then some 0x02
  else if !resultAddrOk d.resultAddr then some 0x02
  else if !(d.opcode == 0 || (0x100 ≤ d.opcode && d.opcode < 0x100 + queueOpcodes q.val))
    then some 0x01
  else if s.absentFn q d then some 0x03
  else none

/-- A queue accepts a descriptor from a core (R50, R68, R77): the ticket is made, the acceptance checks are taken, a parked domain
gets a level wake, and an idle domain's timer restarts, which counts as a refusal. -/
def State.accept (k : CoreId) (q : Fin 64) (d : Desc) (s : State) : W32 × State :=
  let x := s.queue q
  let t := mkTicket x.seq (s.core k).epoch q
  let bad := s.acceptCheck q d
  let dual := s.pilot.dual
  let dom := entryDomain q d
  let blk := (queueBlock q.val).getD 0
  let idle := s.domIdle dom
  let inWindow := match s.domEntry dom with
    | some e => decide (e.left ≤ 8)
    | none => false
  let targetLay := match s.domEntry dom with
    | some e => e.target == 2 && e.left ≤ 8
    | none => s.domState dom == 2
  let parked := (s.domState dom == 1 || s.domState dom == 2) || inWindow
  let wakes := bad.isNone && !(d.nowake && targetLay)
  let e : QEntry := { desc := { d with epoch := (s.core k).epoch.toNat, level := if (s.core k).harbour then 1 else 2 }
                      ticket := t, no := x.issued + 1, core := k, bad
                      recordOk := resultAddrOk d.resultAddr
                      started := false, sealed := false, dual, stale := false
                      waited := bad.isNone && parked && (wakes || x.firstWaiting.isSome), armed := false }
  let s := s.setQueue q { x with seq := nextSeq x.seq, issued := x.issued + 1, entries := x.entries ++ [e]
                                 done := x.done.filter (fun r => decide (x.issued + 1 - r.2.1 < 4096)) }
  let s := if dual then s.addCnt R.PLT_DUAL_CMD_CNT 1 else s
  let s := if idle then s.noteRefuse dom blk 0x01 else s
  let s := if wakes then s.wakeEvent dom true blk 0x08 else s
  (t, s.settle q)

/-- A stalled SEND goes on once its queue has a free entry (R50). -/
def State.releaseSend (k : CoreId) (s : State) : State :=
  match (s.core k).wait with
  | .send rd q d =>
    let qf := Fin.ofNat 64 q
    if (s.queue qf).entries.length < (s.queue qf).depth then
      let (t, s) := s.accept k qf d
      ((s.modCore k (fun c => c.setGpr rd (t.zeroExtend 64))).retire k).pmcCount k 3 1
    else s
  | _ => s

/-- Everything that waits for completions or free entries is looked at again (R50, Table ENG-7). -/
def State.releaseWaiters (s : State) : State := (((s.releaseSend .A).releaseSend .B).releaseFence .A).releaseFence .B

/-- A started or startable entry completes, and what waited for it goes on (R67, R72). -/
def State.complete (e : QEntry) (status r0 r1 : Nat) (s : State) : State :=
  let q := ticketQueue e.ticket
  ((s.completeRaw q e status r0 r1).settle q).releaseWaiters

/-- The entry with a ticket completes, if it is still in its queue. -/
def State.endTicket (t : W32) (status r0 r1 : Nat) (s : State) : State :=
  match s.entryOf t with
  | some e => s.complete e status r0 r1
  | none => s

/-- The first started entry of a queue with an opcode completes, if there is one. -/
def State.completeOp (q : Fin 64) (op status r0 r1 : Nat) (s : State) : State :=
  match s.startedOp q op with
  | some e => s.complete e status r0 r1
  | none => s

/-- An engine runs the command with an opcode at the head of its queue (R72): nothing when none may start.  run answers none where
the command goes on after it has started (its entry is then marked), or the status and results at once. -/
def State.runCommand (q : Fin 64) (op : Nat) (run : Desc → State → Option (Nat × Nat × Nat) × State) (s : State) : State :=
  match s.startable q op with
  | none => s
  | some e =>
    match run e.desc (s.startEntry e.ticket) with
    | (none, s') => (s'.settle q).releaseWaiters
    | (some (st, r0, r1), s') => s'.complete e st r0 r1

end Sys2Proof.Machine
end

