-- ==== Sys2Proof/Machine/Matcher.lean ====
section
/-! DEFINITION. The distribution matcher and the labeller as data (R109 to R114). -/
namespace Sys2Proof.Machine

/-! ### Sizes -/

/-- Coded bits of an FEC block (R179). -/
def fecN : Nat := 92160

/-- N_s, the data symbols of a block in each polarisation, and n_A, its amplitudes in each (Table FEC-2). -/
def fecNs (base : Nat) : Nat := fecN / (2 * baseBits base)
def nAmp (base : Nat) : Nat := 2 * fecNs base

/-- H = m: uniform signalling, the matcher bypassed (R112). -/
def uniform (base h64 : Nat) : Bool := h64 == 64 * baseBits base

/-- k_A, the information bits of an amplitude word (R109). -/
def kAmp (base h64 : Nat) : Nat := nAmp base * h64 / 128 - nAmp base

/-- The amplitudes of a base constellation (R110, R112). -/
def alphabet (base : Nat) : List Nat :=
  match base with
  | 1 => [1, 3]
  | 2 => [1, 3, 5, 7]
  | _ => [1]

/-! ### Compositions -/

def factorial : Nat → Nat
  | 0 => 1
  | n + 1 => (n + 1) * factorial n

/-- The words of a composition: n! / Π c_a!. -/
def wordCount (c : List Nat) : Nat := factorial (c.foldl (· + ·) 0) / (c.map factorial).foldl (· * ·) 1

/-- Every composition of n into k counts, the lexicographically largest first. -/
def compositions : Nat → Nat → List (List Nat)
  | 0, _ => []
  | 1, n => [[n]]
  | k + 2, n => (List.range (n + 1)).reverse.flatMap (fun c => (compositions (k + 1) (n - c)).map (c :: ·))

/-- Σ c_a · a². -/
def compEnergy (alpha c : List Nat) : Nat := ((alpha.zip c).map (fun p => p.2 * p.1 * p.1)).foldl (· + ·) 0

/-- The composition for words of n amplitudes with at least k bits of words: least energy, then lexicographically largest (R110). -/
def composition (alpha : List Nat) (n k : Nat) : Option (List Nat) :=
  (compositions alpha.length n).foldl (fun best c =>
    if 2 ^ k ≤ wordCount c then
      match best with
      | some b => if compEnergy alpha c < compEnergy alpha b then some c else best
      | none => some c
    else best) none

/-- The composition of a mode (R110): uniform signalling has the amplitudes of each kind in equal number on average. -/
def modeComp (base h64 : Nat) : List Nat :=
  if uniform base h64 then (alphabet base).map (fun _ => nAmp base / (alphabet base).length)
  else (composition (alphabet base) (nAmp base) (kAmp base h64)).getD []

/-! ### Words -/

/-- One fewer of the j-th amplitude. -/
def lessOne (c : List Nat) (j : Nat) : List Nat := c.set j (c.getD j 0 - 1)

/-- Where the search for the next amplitude of a word of index i starts at the j-th kind: the kind, and the index left within its words. -/
def pickKind (c : List Nat) : List Nat → Nat → Nat × Nat
  | [], i => (0, i)
  | j :: l, i =>
    let w := if c.getD j 0 = 0 then 0 else wordCount (lessOne c j)
    if i < w then (j, i) else pickKind c l (i - w)

/-- The word of index i among those of composition c, in lexicographic order, as kinds of amplitude (R111). -/
def wordOf : Nat → List Nat → Nat → List Nat
  | 0, _, _ => []
  | n + 1, c, i =>
    let (j, r) := pickKind c (List.range c.length) i
    j :: wordOf n (lessOne c j) r

/-- The index of a word among those of composition c (R111). -/
def wordIndex : List Nat → List Nat → Nat
  | _, [] => 0
  | c, j :: l =>
    ((List.range j).map (fun i => if c.getD i 0 = 0 then 0 else wordCount (lessOne c i))).foldl (· + ·) 0 + wordIndex (lessOne c j) l

/-- The composition of a word over k kinds. -/
def compOf (k : Nat) (l : List Nat) : List Nat := (List.range k).map (fun j => l.count j)

/-- The amplitude word of information bits (R109, R111), as kinds. -/
def matchWord (c : List Nat) (bits : List Bool) : List Nat := wordOf (c.foldl (· + ·) 0) c (bitsNat bits)

/-- The k information bits of a received word (R191): none where its composition differs or its index is too large. -/
def unmatchWord (c : List Nat) (k : Nat) (w : List Nat) : Option (List Bool) :=
  if compOf c.length w = c ∧ wordIndex c w < 2 ^ k then some (natBits k (wordIndex c w)) else none

/-! ### Labels -/

/-- The amplitude label of a kind (R113). -/
def ampLabel (base kind : Nat) : List Bool :=
  match base with
  | 1 => [kind == 1]
  | 2 => [2 ≤ kind, kind == 1 || kind == 2]
  | _ => []

/-- The kind of an amplitude label. -/
def labelKind (base : Nat) (l : List Bool) : Nat :=
  match base with
  | 1 => b2n (l.getD 0 false)
  | 2 => match l.getD 0 false, l.getD 1 false with
    | false, false => 0
    | false, true => 1
    | true, true => 2
    | true, false => 3
  | _ => 0

/-- The level of a real dimension: its sign bit and its kind (R113). -/
def levelOf (base : Nat) (sign : Bool) (kind : Nat) : Int := bitSign sign * ((alphabet base).getD kind 1 : Nat)

/-- A data symbol of levels re and im, scaled so that the mean energy over composition c is that of a reference symbol (R114): the squared scale is
n_A / (2 Σ c_a a²), two dimensions to a symbol. -/
def dataSym (base : Nat) (c : List Nat) (re im : Int) : Sym :=
  { re, im, num := c.foldl (· + ·) 0, den := 2 * compEnergy (alphabet base) c }

end Sys2Proof.Machine
end

