-- ==== Sys2Proof/Machine/Nfec.lean ====
section
/-! DEFINITION. The NFEC code as data: the block (R179, R180, Tables FEC-1, FEC-2), the outer code (R184, R185), the inner code (R181 to R183), the order
of bits to the mapper (R186, R187). -/
namespace Sys2Proof.Machine

/-! ### The block -/

/-- M_p, the parity rows of a position (Table FEC-1). -/
def fecMp (rate : Nat) : Nat :=
  match rate with
  | 0 => 5
  | 1 => 4
  | 2 => 3
  | _ => 2

/-- I = Rc · N information bits, K_L inner information bits, L_B bits of an outer codeword (R179, Table FEC-1). -/
def fecI (rate : Nat) : Nat := fecN * (rateFrac rate).1 / (rateFrac rate).2
def fecKL (rate : Nat) : Nat := 12 * 256 * (30 - fecMp rate)
def fecLB (rate : Nat) : Nat := fecI rate / 96 + 30

/-- A, the amplitude slots of a block (R186). -/
def ampSlots (base : Nat) : Nat := fecN * (baseBits base - 2) / baseBits base

/-- Post-FEC bits that a block carries: 2 k_A and the payload bits in sign positions, or I where the matcher is bypassed (R187). -/
def fecPayload (base rate h64 : Nat) : Nat :=
  if uniform base h64 then fecI rate else 2 * kAmp base h64 + (fecI rate - ampSlots base)

/-- The chain of block b, and its number within the chain (R180). -/
def fecChain (b : Nat) : Nat := b % 8

/-! ### The outer code eBCH(1024, 994) -/

/-- A field element of GF(2^10) times α (R184): the primitive polynomial is x^10 + x^3 + 1. -/
def gfAlpha (x : Nat) : Nat := if 512 ≤ x then (2 * x) ^^^ 0x409 else 2 * x

/-- The product of two field elements. -/
def gfMul (x y : Nat) : Nat :=
  ((List.range 10).foldl (fun p i => (if y.testBit i then p.1 ^^^ p.2 else p.1, gfAlpha p.2)) (0, x)).1

/-- The inverse of a field element, x^1022. -/
def gfInv (x : Nat) : Nat := ((List.range 9).foldl (fun p _ => let sq := gfMul p.2 p.2; (gfMul p.1 sq, sq)) (1, x)).1

/-- β_0 = 0 and β_l = α^(l−1): the support, in order (R184). -/
def gfPowers : Nat → Nat → List Nat
  | 0, _ => []
  | n + 1, x => x :: gfPowers n (gfAlpha x)
def support : List Nat := 0 :: gfPowers 1023 1

/-- The 30 parity checks of a position: 1/g(β), β/g(β) and β²/g(β) over the basis, g(x) = x³ + x + 1 (R184). -/
def bchCol (b : Nat) : Nat :=
  let i := gfInv ((gfMul (gfMul b b) b ^^^ b) ^^^ 1)
  i + gfMul b i * 2 ^ 10 + gfMul (gfMul b b) i * 2 ^ 20
def bchCols : List Nat := support.map bchCol

/-- A reduced combination of columns: its value, and which parity positions it takes. -/
structure BchRow where
  val : Nat
  take : List Nat
deriving DecidableEq, Repr

/-- A value reduced by the rows so far, in their order: each clears its leading bit. -/
def bchReduce (rows : List BchRow) (r : BchRow) : BchRow :=
  rows.foldl (fun r b => if r.val.testBit b.val.log2 then { val := r.val ^^^ b.val, take := b.take ++ r.take } else r) r

/-- The rows of the Gaussian elimination, taking pivots from position 1023 downward (R184). -/
def bchElim : List (Nat × Nat) → List BchRow → List BchRow
  | [], rows => rows
  | (l, v) :: rest, rows =>
    let r := bchReduce rows { val := v, take := [l] }
    bchElim rest (if r.val = 0 then rows else rows ++ [r])
def bchRows : List BchRow := bchElim (((List.range 1024).zip bchCols).reverse) []

/-- The pivots of the elimination: the parity positions, in increasing order (R184). -/
def bchPivots : List (Nat × Nat) → List BchRow → List Nat
  | [], _ => []
  | (l, v) :: rest, rows =>
    let r := bchReduce rows { val := v, take := [l] }
    if r.val = 0 then bchPivots rest rows else l :: bchPivots rest (rows ++ [r])
def bchParity : List Nat := (bchPivots (((List.range 1024).zip bchCols).reverse) []).reverse

/-- The information positions that carry n bits: the highest-numbered ones, in increasing order (R185). -/
def bchInfo (n : Nat) : List Nat := ((List.range 1024).filter (fun l => !bchParity.contains l)).drop (994 - n)

/-- The positions of a shortened codeword in its order of transmission (R185). -/
def bchSent (n : Nat) : List Nat := bchInfo n ++ bchParity

/-- The syndrome of bits at positions. -/
def bchSyndrome (pos : List Nat) (bits : List Bool) : Nat :=
  (pos.zip bits).foldl (fun s p => if p.2 then s ^^^ bchCols.getD p.1 0 else s) 0

/-- The 30 parity bits of n information bits, in increasing position (R184, R185): the parity positions that bring the syndrome to 0. -/
def bchEncode (bits : List Bool) : List Bool :=
  let r := bchReduce bchRows { val := bchSyndrome (bchInfo bits.length) bits, take := [] }
  bchParity.map (fun l => r.take.count l % 2 == 1)

/-- The at most 3 positions of pos whose columns add to syndrome s: the errors of the nearest codeword (R191). -/
def bchErrors (pos : List Nat) (s : Nat) : Option (List Nat) :=
  let col := fun l => bchCols.getD l 0
  if s = 0 then some []
  else match pos.find? (fun i => col i == s) with
  | some i => some [i]
  | none =>
    match pos.findSome? (fun i => (pos.find? (fun j => i < j && col j == (s ^^^ col i))).map (fun j => [i, j])) with
    | some l => some l
    | none => pos.findSome? (fun i => pos.findSome? (fun j => if i < j then
        (pos.find? (fun k => j < k && col k == ((s ^^^ col i) ^^^ col j))).map (fun k => [i, j, k]) else none))

/-! ### The inner code -/

/-- s(i, r, c) of Table FEC-3. -/
def fecShift (i r c : Nat) : Nat := (c * (2 * r + 1) * (2 * i + 3) + 37 * i + 13 * r) % 256

/-- What a column enters a row's checks as: bit z of it is v[(z + s) mod 256] (R181). -/
def fecTurn (v : FecCol) (s : Nat) : FecCol := v.rotateRight s

/-- The sum over z of component i of row r, over the columns that the rule of Table FEC-3 puts into the row. -/
def fecPart (mp i r : Nat) (cols : List FecCol) : FecCol :=
  (cols.zip (List.range cols.length)).foldl (fun x p =>
    if (p.2 + i) % mp = r then x ^^^ fecTurn p.1 (fecShift i r p.2) else x) 0

/-- S_r of R182: every term of row r but the parity columns of the position itself. -/
def fecSum (mp r : Nat) (info prev1 prev2 : List FecCol) : FecCol := (fecPart mp 0 r info ^^^ fecPart mp 1 r prev1) ^^^ fecPart mp 2 r prev2

/-- The parity columns from row r on, n of them, p the one before (R182). -/
def fecParityFrom (mp : Nat) (info prev1 prev2 : List FecCol) : Nat → Nat → FecCol → List FecCol
  | 0, _, _ => []
  | n + 1, r, p =>
    let q := fecSum mp r info prev1 prev2 ^^^ p
    q :: fecParityFrom mp info prev1 prev2 n (r + 1) q

/-- The 30 columns of a position (R182). -/
def fecPosition (mp : Nat) (info prev1 prev2 : List FecCol) : List FecCol := info ++ fecParityFrom mp info prev1 prev2 mp 0 0

/-- The 256 checks of row r of a position: a bit that is 0 is a check satisfied (R181). -/
def fecCheck (mp r : Nat) (cur prev1 prev2 : List FecCol) : FecCol :=
  let k := 30 - mp
  let par := fun j => cur.getD (k + j) 0
  ((fecSum mp r (cur.take k) prev1 prev2) ^^^ par r) ^^^ (if r = 0 then 0 else par (r - 1))

/-- A column of bits, bit 0 first; the bits of a column. -/
def colOf (l : List Bool) : FecCol := BitVec.ofNat 256 (bitsNat l.reverse)
def colBits (v : FecCol) : List Bool := (List.range 256).map (fun z => v.getLsbD z)

/-- Bits in columns of 256. -/
def colsOf (n : Nat) (l : List Bool) : List FecCol := (List.range n).map (fun c => colOf ((l.drop (256 * c)).take 256))

/-- The positions of a block and the last two of its chain after it (R181 to R183): info holds the inner information bits yet to be placed. -/
def fecPositions (mp : Nat) : Nat → List Bool → List FecCol → List FecCol → List (List FecCol)
  | 0, _, _, _ => []
  | n + 1, info, p1, p2 =>
    let k := 256 * (30 - mp)
    let cur := fecPosition mp (colsOf (30 - mp) info) p1 p2
    cur :: fecPositions mp n (info.drop k) cur p1

/-- The fraction of satisfied checks over consecutive positions, with the two before them: satisfied, and all (R188). -/
def fecSatisfied (mp : Nat) : List (List FecCol) → List FecCol → List FecCol → Nat × Nat
  | [], _, _ => (0, 0)
  | cur :: l, p1, p2 =>
    let ok := ((List.range mp).map (fun r => (colBits (fecCheck mp r cur p1 p2)).count false)).foldl (· + ·) 0
    let (a, b) := fecSatisfied mp l cur p1
    (a + ok, b + 256 * mp)

/-! ### Information bits and slots -/

/-- Outer codeword w of a block's information bits: its information bits (R185). -/
def outerInfo (x : List Bool) (w : Nat) : List Bool := (List.range (x.length / 96)).map (fun i => x.getD (96 * i + w) false)

/-- The inner information bits of a block (R183): the information bits, the outer parity interleaved over the codewords, the pad. -/
def innerInfo (x : List Bool) : List Bool :=
  let par := (List.range 96).map (fun w => bchEncode (outerInfo x w))
  x ++ (List.range 2880).map (fun u => (par.getD (u % 96) []).getD (u / 96) false) ++ (List.range 192).map (fun k => k % 2 == 1)

/-- Two amplitude words as the information bits of the amplitude slots: for each j, X then Y, the label bits (R186, R187). -/
def ampBits (base : Nat) : List Nat → List Nat → List Bool
  | a :: l, b :: r => ampLabel base a ++ ampLabel base b ++ ampBits base l r
  | _, _ => []

/-- The information bits x_i of a block from its payload bits (R187). -/
def blockInfo (base h64 : Nat) (pay : List Bool) : List Bool :=
  if uniform base h64 then pay
  else
    let c := modeComp base h64
    let k := kAmp base h64
    ampBits base (matchWord c (pay.take k)) (matchWord c ((pay.drop k).take k)) ++ pay.drop (2 * k)

/-- The label slots of a block (R187): its inner information bits, then the inner parity bits by position, parity column and bit. -/
def slotBits (mp : Nat) (info : List Bool) (pos : List (List FecCol)) : List Bool :=
  info ++ pos.flatMap (fun p => (p.drop (30 - mp)).flatMap colBits)

/-- The data symbols of a block, X and Y, from its label slots (R113, R186): amplitude slots by j, X then Y, then the sign slots likewise. -/
def slotSyms (base : Nat) (c : List Nat) (slots : List Bool) : List (Sym × Sym) :=
  let w := baseBits base / 2 - 1
  let amp := slots.take (ampSlots base)
  let sign := slots.drop (ampSlots base)
  let level := fun (j pol : Nat) =>
    levelOf base (sign.getD (2 * j + pol) false) (labelKind base ((amp.drop ((2 * j + pol) * w)).take w))
  (List.range (fecNs base)).map (fun k =>
    let sym := fun pol => dataSym base c (level (2 * k) pol) (level (2 * k + 1) pol)
    (sym 0, sym 1))

/-- A block encoded from its information bits (R179 to R187): its data symbols, and the last two positions of its chain after it. -/
def encodeBits (base rate h64 : Nat) (x : List Bool) (p1 p2 : List FecCol) : List (Sym × Sym) × List FecCol × List FecCol :=
  let mp := fecMp rate
  let info := innerInfo x
  let pos := fecPositions mp 12 info p1 p2
  (slotSyms base (modeComp base h64) (slotBits mp info pos), pos.getD 11 fecNone, pos.getD 10 fecNone)

end Sys2Proof.Machine
end

