-- ==== Sys2Proof/Machine/Decoder.lean ====
section
/-! DEFINITION. The receive side of NFEC as data: the LLR quantiser (R173), the order of LLRs into the decoder (R186, R187), the layered offset min-sum
decoder over its window (R190), the outer decoder and the inverse matcher (R191), the counts of a released block (R200, R202). -/
namespace Sys2Proof.Machine

/-! ### LLRs -/

/-- An LLR in units of 2^-16 nat as the 6-bit value of R173: L / s rounded, halves away from zero, limited to ±31, s = scale / 32 nat. -/
def quantLlr (scale : Nat) (l : Int) : Int :=
  let q := (2 * l.natAbs * 32 + scale * 65536) / (2 * scale * 65536)
  (if l < 0 then -1 else 1) * (min 31 q : Nat)

/-- Slot q of a block, in the decoder's numbering position · 7,680 + column · 256 + bit (R183, R187). -/
def slotPlace (rate q : Nat) : Nat :=
  let mp := fecMp rate
  let k := 256 * (30 - mp)
  if q < fecKL rate then q / k * 7680 + q % k
  else
    let u := q - fecKL rate
    u / (256 * mp) * 7680 + k + u % (256 * mp)

/-- The slot of a place, its inverse. -/
def placeSlot (rate n : Nat) : Nat :=
  let mp := fecMp rate
  let k := 256 * (30 - mp)
  let i := n % 7680
  if i < k then n / 7680 * k + i else fecKL rate + n / 7680 * (256 * mp) + (i - k)

/-- The polarisation of a slot: 0 X, 1 Y (R186). -/
def slotPol (base q : Nat) : Nat :=
  let w := baseBits base / 2 - 1
  if q < ampSlots base then q / w % 2 else (q - ampSlots base) % 2

/-- Slot q is a pad bit (R183). -/
def slotPad (rate q : Nat) : Bool := fecI rate + 2880 ≤ q && q < fecKL rate

/-- The LLRs of a block in the decoder's order, by position. -/
def blockLlrs (rate : Nat) (slots : Array Int) : List (List Int) :=
  (List.range 12).map (fun p => (List.range 7680).map (fun i => slots.getD (placeSlot rate (7680 * p + i)) 0))

/-- A known bit (R189) in the decoder: a likelihood that no message outweighs. -/
def knownBit : Int := 2 ^ 40

/-- What position p of a block enters the decoder as, in half steps: its LLRs, and its pad bits as known values (R189). -/
def entering (rate p : Nat) (l : List Int) : List Int :=
  (l.zip (List.range l.length)).map (fun x =>
    let q := placeSlot rate (7680 * p + x.2)
    if slotPad rate q then bitSign ((q - fecI rate - 2880) % 2 == 1) * knownBit else 2 * x.1)

/-! ### The window -/

/-- The terms of row r: component, column, shift (Table FEC-3). -/
def rowEdges (mp r : Nat) : List (Nat × Nat × Nat) :=
  let k := 30 - mp
  ((List.range k).filter (fun c => c % mp == r)).map (fun c => (0, c, fecShift 0 r c))
  ++ (if 0 < r then [(0, k + r - 1, 0)] else []) ++ [(0, k + r, 0)]
  ++ ((List.range 30).filter (fun c => (c + 1) % mp == r)).map (fun c => (1, c, fecShift 1 r c))
  ++ ((List.range 30).filter (fun c => (c + 2) % mp == r)).map (fun c => (2, c, fecShift 2 r c))

/-- The decided bit that a term of a row of window position p takes from before the window, if it does. -/
def boundBit (b : FecBound) (p z : Nat) (e : Nat × Nat × Nat) : Option (Option Bool) :=
  if e.1 ≤ p then none
  else
    let cols := if e.1 - p = 1 then b.1 else b.2
    some (cols.map (fun l => (l.getD e.2.1 0).getLsbD ((z + e.2.2) % 256)))

/-- The sum of the terms of a check from before the window: none where one of them is an erasure. -/
def boundSum (b : FecBound) (p z : Nat) (edges : List (Nat × Nat × Nat)) : Option Bool :=
  (edges.filterMap (boundBit b p z)).foldl (fun x y => match x, y with
    | some u, some v => some (u != v)
    | _, _ => none) (some false)

/-- The places in the window of a check's terms. -/
def edgePlaces (p z : Nat) (edges : List (Nat × Nat × Nat)) : List Nat :=
  (edges.filter (fun e => e.1 ≤ p)).map (fun e => ((p - e.1) * 30 + e.2.1) * 256 + (z + e.2.2) % 256)

/-- Offset min-sum at one check (R190): what it tells each of its variables, whose other messages are qs; known is the sum of its terms outside, an
erasure silencing it. -/
def minSum (known : Option Bool) (qs : List Int) : List Int :=
  match known with
  | none => qs.map (fun _ => 0)
  | some s0 =>
    (List.range qs.length).map (fun i =>
      let others := (qs.zip (List.range qs.length)).filterMap (fun p => if p.2 = i then none else some p.1)
      let neg := others.foldl (fun b x => b != decide (x < 0)) s0
      let mag := others.foldl (fun m x => match m with
        | none => some x.natAbs
        | some k => some (min k x.natAbs)) (none : Option Nat)
      bitSign neg * ((mag.getD 1) - 1 : Nat))

/-- One check of a layer: its variables' posteriors and its messages are renewed at once; n is the place of its first message. -/
def checkStep (known : Option Bool) (places : List Nat) (n : Nat) (w : Lattice) : Lattice :=
  let old := (List.range places.length).map (fun i => w.msg.getD (n + i) 0)
  let qs := (places.zip old).map (fun p => w.post.getD p.1 0 - p.2)
  let new := minSum known qs
  let post := (places.zip (qs.zip new)).foldl (fun (a : Array Int) p => a.setIfInBounds p.1 (p.2.1 + p.2.2)) w.post
  let msg := (new.zip (List.range new.length)).foldl (fun (a : Array Int) p => a.setIfInBounds (n + p.2) p.1) w.msg
  { post, msg }

/-- The checks of a window in the order of the schedule: rows of the oldest position first (R190): position, row, bit. -/
def windowChecks (mp : Nat) : List (Nat × Nat × Nat) :=
  (List.range 12).flatMap (fun p => (List.range mp).flatMap (fun r => (List.range 256).map (fun z => (p, r, z))))

/-- Messages are kept 64 to a check; no row has more terms. -/
def msgPlace (mp : Nat) (k : Nat × Nat × Nat) : Nat := ((k.1 * mp + k.2.1) * 256 + k.2.2) * 64

/-- One iteration over the window. -/
def iterate (mp : Nat) (b : FecBound) (w : Lattice) : Lattice :=
  (windowChecks mp).foldl (fun w k =>
    let e := rowEdges mp k.2.1
    checkStep (boundSum b k.1 k.2.2 e) (edgePlaces k.1 k.2.2 e) (msgPlace mp k) w) w

/-- Every check of the window is satisfied by the hard decisions; one that an erasure before the window enters is not judged. -/
def windowOk (mp : Nat) (b : FecBound) (w : Lattice) : Bool :=
  (windowChecks mp).all (fun k =>
    let e := rowEdges mp k.2.1
    match boundSum b k.1 k.2.2 e with
    | none => true
    | some x => (edgePlaces k.1 k.2.2 e).foldl (fun x i => x != decide (w.post.getD i 0 < 0)) x == false)

/-- Iterations of a window step (R190): until every check is satisfied, where early termination is on, or left have run; how many ran. -/
def windowRun (mp : Nat) (et : Bool) (b : FecBound) : Nat → Nat → Lattice → Nat × Lattice
  | 0, n, w => (n, w)
  | left + 1, n, w =>
    let w := iterate mp b w
    if et && windowOk mp b w then (n + 1, w) else windowRun mp et b left (n + 1) w

/-- The decided columns of the oldest position: a negative likelihood decides 1. -/
def decided (w : Lattice) : List FecCol :=
  (List.range 30).map (fun c => colOf ((List.range 256).map (fun z => decide (w.post.getD (256 * c + z) 0 < 0))))

/-- The lattice of LLRs alone: what an engine that takes over decodes afresh (R195). -/
def freshLattice (rate : Nat) (llr : List (List Int)) : Lattice :=
  let mp := fecMp rate
  { post := ((llr.zip (List.range llr.length)).flatMap (fun p => entering rate p.2 p.1)).toArray, msg := Array.replicate (12 * mp * 256 * 64) 0 }

/-- More than half of a position's LLRs are erased (R189). -/
def halfErased (l : List Int) : Bool := l.length < 2 * l.count 0

/-- A step of the window (R190): it decodes, releases the oldest position to the boundary store and admits the next, position p of its block.  After a
position more than half erased the next is a cold start (R189).  The released columns, the iterations, the chain after it. -/
def windowStep (rate : Nat) (et : Bool) (imax p : Nat) (next : List Int) (x : ChainDec) : List FecCol × Nat × ChainDec :=
  let mp := fecMp rate
  let (n, w) := windowRun mp et x.bound imax 0 x.lat
  let out := decided w
  let per := mp * 256 * 64
  let lat : Lattice := { post := w.post.extract 7680 w.post.size ++ (entering rate p next).toArray
                         msg := w.msg.extract per w.msg.size ++ Array.replicate per 0 }
  let bound : FecBound := if halfErased (x.llr.headD []) then (none, none) else (some out, x.bound.1)
  (out, n, { x with llr := x.llr.drop 1 ++ [next], lat, bound })

/-- The twelve steps of a block (R190), from position p of the block that is admitted: the positions released, the iterations of each step, the chain after
them. -/
def blockSteps (rate : Nat) (et : Bool) (imax : Nat) : Nat → List (List Int) → ChainDec → List (List FecCol) × List Nat × ChainDec
  | _, [], x => ([], [], x)
  | p, q :: l, x =>
    let (out, n, x) := windowStep rate et imax p q x
    let (o, k, x) := blockSteps rate et imax (p + 1) l x
    (out :: o, n :: k, x)

/-- The first block of a chain enters its window, of which nothing is released yet. -/
def ChainDec.fill (rate : Nat) (llr : List (List Int)) (x : ChainDec) : ChainDec := { x with llr, lat := freshLattice rate llr }

/-! ### After the inner decoder -/

/-- The inner information bits of decided positions (R183). -/
def decidedInfo (mp : Nat) (pos : List (List FecCol)) : List Bool := pos.flatMap (fun p => (p.take (30 - mp)).flatMap colBits)

/-- An outer codeword decoded (R191): its bits as corrected and how many were, or as received where it is uncorrectable. -/
def outerDecode (n : Nat) (word : List Bool) : List Bool × Option Nat :=
  let pos := bchSent n
  match bchErrors pos (bchSyndrome pos word) with
  | some e => ((pos.zip word).map (fun p => p.2 != e.contains p.1), some e.length)
  | none => (word, none)

/-- Codeword w of a block's inner information bits, in its order of transmission (R183, R185). -/
def outerWord (rate : Nat) (info : List Bool) (w : Nat) : List Bool :=
  let i := fecI rate
  (List.range (i / 96)).map (fun k => info.getD (96 * k + w) false) ++ (List.range 30).map (fun k => info.getD (i + 96 * k + w) false)

/-- A block after the outer decoder: its information bits, bits corrected, codewords beyond correction. -/
def outerBlock (rate : Nat) (info : List Bool) : List Bool × Nat × Nat :=
  let n := fecI rate / 96
  let r := (List.range 96).map (fun w => outerDecode n (outerWord rate info w))
  let x := (List.range (fecI rate)).map (fun i => ((r.getD (i % 96) ([], none)).1).getD (i / 96) false)
  (x, (r.filterMap (·.2)).foldl (· + ·) 0, (r.filter (fun p => p.2.isNone)).length)

/-- The amplitude word of polarisation pol in a block's information bits (R186). -/
def ampWord (base pol : Nat) (x : List Bool) : List Nat :=
  let w := baseBits base / 2 - 1
  (List.range (nAmp base)).map (fun j => labelKind base ((x.drop ((2 * j + pol) * w)).take w))

/-- The payload bits of a block (R187, R191): the inverse matcher gives k_A bits of each word, zeros for an invalid one; whether one was invalid. -/
def blockPayload (base h64 : Nat) (x : List Bool) : List Bool × Bool :=
  if uniform base h64 then (x, false)
  else
    let c := modeComp base h64
    let k := kAmp base h64
    let f := fun pol => unmatchWord c k (ampWord base pol x)
    let bits := fun pol => (f pol).getD (List.replicate k false)
    (bits 0 ++ bits 1 ++ x.drop (ampSlots base), (f 0).isNone || (f 1).isNone)

/-- What a released block's decoding comes to (R190, R191, R200): its payload and decided bits in slot order, codewords beyond correction, whether an
amplitude word was invalid, bits that the outer decoder corrected, the iterations of its twelve steps, its received LLRs in slot order. -/
structure BlockOut where
  payload : List Bool
  slots : List Bool
  llrs : List Int
  uncorr : Nat
  dmInvalid : Bool
  fixed : Nat
  iters : List Nat
  erased : Bool
deriving DecidableEq, Repr

/-- The decided bits of a block in slot order: the information bits as the outer decoder leaves them, the rest as the inner one decided. -/
def decidedSlots (rate : Nat) (x : List Bool) (pos : List (List FecCol)) : List Bool :=
  let mp := fecMp rate
  x ++ (decidedInfo mp pos).drop (fecI rate) ++ pos.flatMap (fun p => (p.drop (30 - mp)).flatMap colBits)

/-- The block in a chain's window is decoded while the next is admitted (R190, R191). -/
def releaseBlock (base rate h64 : Nat) (et : Bool) (imax : Nat) (next : List (List Int)) (x : ChainDec) : BlockOut × ChainDec :=
  let mp := fecMp rate
  let held := x.llr.flatten.toArray
  let (pos, n, y) := blockSteps rate et imax 0 next x
  let (info, fixed, uncorr) := outerBlock rate (decidedInfo mp pos)
  let (payload, inv) := blockPayload base h64 info
  ({ payload, slots := decidedSlots rate info pos
     llrs := (List.range fecN).map (fun q => held.getD (slotPlace rate q) 0)
     uncorr, dmInvalid := inv, fixed, iters := n, erased := x.llr.any halfErased }, y)

/-- Bits compared and in error of a polarisation (R200): each unerased LLR that is no pad bit, against the decided bit. -/
def preFec (base rate pol : Nat) (b : BlockOut) : Nat × Nat :=
  ((b.slots.zip b.llrs).zip (List.range fecN)).foldl (fun n p =>
    if p.1.2 = 0 ∨ slotPad rate p.2 = true ∨ slotPol base p.2 ≠ pol then n
    else (n.1 + 1, n.2 + b2n (decide (p.1.2 < 0) != p.1.1))) (0, 0)

/-- Σ log2(1 + exp(−(1 − 2b) · q · s)) over the label bits of a polarisation, in units of 2^-16 (R202): the function itself is real, a free value. -/
def gmiSum (base scale pol : Nat) (b : BlockOut) : Nat :=
  ((b.slots.zip b.llrs).zip (List.range fecN)).foldl (fun n p =>
    if slotPol base p.2 ≠ pol then n else n + Config.softplus (bitSign p.1.1 * p.1.2 * scale * 2048)) 0

/-- H less the mean loss per symbol, in 1/1,024 bit (R176, R202): the sum is over n symbols, in units of 2^-16. -/
def gmiOf (h64 sum n : Nat) : Nat := min 8191 ((h64 * 1024 * n - sum) / (64 * n))

end Sys2Proof.Machine
end

