-- ==== Sys2Proof/Machine/TxPath.lean ====
section
/-! DEFINITION. The transmit path as data (R92, R103, R114 to R125, R180, R226, R233, R234): what TxLine says of the line in SERVICE, bit by bit, block by
block and symbol by symbol, and the stages from symbols to DAC codes.  The arithmetic that the spec gives is exact; filters, trims and scalings of
which it gives no number format are functions without a body (DESIGN CHOICE: notes/assumptions/91.md). -/
namespace Sys2Proof.Machine

/-! ### The post-FEC stream -/

/-- Bits of a UZF frame (R226). -/
def frameBits : Nat := 4194304

/-- The payload words of a frame (R234): each slot word of an assigned slot takes the next 32 bytes of its client content, every other word is zeros. -/
def payloadWords (d n cap : Nat) (map : List Byte) : Nat → Nat → Nat → List Byte → List Byte
  | 0, _, _, _ => []
  | k + 1, acc, slot, cl =>
    if n ≤ acc + d then
      let used := 128 ≤ (map.getD slot 0).toNat
      (if used then takePad 32 0 cl else List.replicate 32 0)
        ++ payloadWords d n cap map k (acc + d - n) (if cap = 0 then 0 else (slot + 1) % cap) (if used then cl.drop 32 else cl)
    else List.replicate 32 0 ++ payloadWords d n cap map k (acc + d) slot cl

/-- The tag area (R232): position i holds the tag of tributary i's record, every other position zeros. -/
def tagArea (tags : List (Nat × BitVec 128)) : List Byte :=
  (List.range 186).flatMap (fun i => beBytes 16 (if i < 128 then ((tags.lookup i).getD 0).toNat else 0))

/-- The overhead of a frame (R227), the BIP-8 of the one before given. -/
def TxFrame.overhead (f : TxFrame) (bip : Byte) : List Byte :=
  (takePad 0x460 0 f.oh).set 0x12 bip ++ tagArea f.tags

/-- The bytes of a frame as sent (R226, R233). -/
def TxFrame.bytes (f : TxFrame) (bip : Byte) : List Byte :=
  scramble (f.overhead bip ++ payloadWords f.d f.n f.cap f.map 16256 f.acc f.slot f.client)

/-- The BIP-8 of a frame as sent, for the next one to carry (Table FRM-2): it does not depend on the frame's own BIP-8. -/
def TxFrame.bip (f : TxFrame) : Byte := bip8 ((f.bytes 0).drop 4096)

/-- Frame k since TXP_x entered SERVICE, if it has been formed. -/
def TxLine.frame (x : TxLine) (k : Nat) : Option TxFrame := if k < x.frames.length then x.frames[x.frames.length - 1 - k]? else none

/-- The bytes of frame k: the first frame carries a BIP-8 of 0 (DESIGN CHOICE: notes/assumptions/92.md). -/
def TxLine.frameBytes (x : TxLine) (k : Nat) : List Byte :=
  match x.frame k with
  | some f => f.bytes (if k = 0 then 0 else ((x.frame (k - 1)).map TxFrame.bip).getD 0)
  | none => []

/-- Bit i of the post-FEC stream since SERVICE began (R92, R226); a bit that no frame gives is 0 (DESIGN CHOICE: notes/assumptions/92.md). -/
def TxLine.bit (x : TxLine) (i : Nat) : Bool := (bytesBits (x.frameBytes (i / frameBits))).getD (i % frameBits) false

/-- The tributaries of the slot words of assigned slots, k slot words from a slot on (R234). -/
def wordTribs (map : List Byte) (cap : Nat) : Nat → Nat → List Nat
  | 0, _ => []
  | k + 1, slot =>
    let b := (map.getD slot 0).toNat
    let l := wordTribs map cap k (if cap = 0 then 0 else (slot + 1) % cap)
    if 128 ≤ b then (b - 128) :: l else l

/-- Those of a frame's payload, in order; how many are a tributary's: the words of its record (R302). -/
def TxFrame.tribs (f : TxFrame) : List Nat := wordTribs f.map f.cap (calFrame f.d f.n f.acc).1 f.slot
def TxFrame.words (f : TxFrame) (n : Nat) : Nat := f.tribs.count n

/-- Client content with the words of tributary n replaced by b. -/
def putWords (n : Nat) : List Nat → List Byte → List Byte → List Byte
  | [], _, _ => []
  | t :: l, cl, b =>
    if t = n then takePad 32 0 b ++ putWords n l (cl.drop 32) (b.drop 32) else takePad 32 0 cl ++ putWords n l (cl.drop 32) b
def TxFrame.put (f : TxFrame) (n : Nat) (b : List Byte) : TxFrame := { f with client := putWords n f.tribs f.client b }

/-! ### Blocks -/

/-- Where block b begins in the stream, and its entropy: from the first block at or after a hitless change's frame the new one (R92, R99, R192). -/
def TxLine.blockStart (base rate : Nat) (x : TxLine) : Nat → Nat × Nat
  | 0 => (0, x.entropyAt 0)
  | b + 1 =>
    let (p, h) := x.blockStart base rate b
    let p' := p + fecPayload base rate h
    (p', x.entropyAt p')

/-- The information bits x_i of block b (R187); a block that the encoder withheld or that came late is replaced by one of zeros (R127). -/
def TxLine.blockBits (base rate : Nat) (x : TxLine) (b : Nat) : List Bool :=
  if x.replaced.contains b then List.replicate (fecI rate) false
  else
    let (p, h) := x.blockStart base rate b
    blockInfo base h ((List.range (fecPayload base rate h)).map (fun i => x.bit (p + i)))

/-- The last two positions of a chain after its block k, and that block's positions (R180 to R182): chains start from zeros. -/
def TxLine.chainBlock (base rate : Nat) (x : TxLine) (chain : Nat) : Nat → List (List FecCol)
  | 0 => fecPositions (fecMp rate) 12 (innerInfo (x.blockBits base rate chain)) fecNone fecNone
  | k + 1 =>
    let prev := x.chainBlock base rate chain k
    fecPositions (fecMp rate) 12 (innerInfo (x.blockBits base rate (8 * (k + 1) + chain))) (prev.getD 11 fecNone) (prev.getD 10 fecNone)

/-- The data symbols of block b, X and Y (R180, R186, R187). -/
def TxLine.blockSyms (base rate : Nat) (x : TxLine) (b : Nat) : List (Sym × Sym) :=
  slotSyms base (modeComp base (x.blockStart base rate b).2)
    (slotBits (fecMp rate) (innerInfo (x.blockBits base rate b)) (x.chainBlock base rate (fecChain b) (b / 8)))

/-- Data symbol i since SERVICE began (R180). -/
def TxLine.dataSym (base rate : Nat) (x : TxLine) (i : Nat) : Sym × Sym :=
  (x.blockSyms base rate (i / fecNs base)).getD (i % fecNs base) (zeroSym, zeroSym)

/-! ### Superframes -/

/-- Symbol n of superframe f of polarisation X or Y (R89, R90, R115). -/
def TxLine.sfSym (base rate : Nat) (x : TxLine) (y : Bool) (f n : Nat) : Sym :=
  match sfPlace n with
  | .train k => (training y).getD k zeroSym
  | .pilot k => (pilots y).getD k zeroSym
  | .data k => let d := x.dataSym base rate (f * sfData + k); if y then d.2 else d.1
  | .guard => zeroSym
  | .hail _ => zeroSym

/-- Symbol i since SERVICE began, indices running on across superframes; before it nothing was sent. -/
def TxLine.sym (base rate : Nat) (x : TxLine) (y : Bool) (i : Int) : Sym :=
  if i < 0 then zeroSym else x.sfSym base rate y (i.toNat / sfLen) (i.toNat % sfLen)

/-! ### Nonlinear pre-compensation -/

/-- Products, conjugates and sums of complex integers. -/
def cmul (a b : Cplx) : Cplx := (a.1 * b.1 - a.2 * b.2, a.1 * b.2 + a.2 * b.1)
def conj (a : Cplx) : Cplx := (a.1, -a.2)
def cadd (a b : Cplx) : Cplx := (a.1 + b.1, a.2 + b.2)

/-- A symbol in units of 2^-20, normalised to unit mean energy: a zero is exactly zero. -/
def Sym.fix (x : Sym) : Cplx := if x.re = 0 ∧ x.im = 0 then (0, 0) else (Config.symFix x.re x.num x.den, Config.symFix x.im x.num x.den)

/-- Δ of R118 for symbol k of polarisation x, y being the other, in units of 2^-89. -/
def nlcDelta (bank : List NlcEntry) (scale : Nat) (x y : Int → Cplx) (k : Int) : Cplx :=
  let sum := bank.foldl (fun (s : Cplx) e =>
    let m := e.m.toInt
    let n := e.n.toInt
    let pair := fun (a : Int → Cplx) => cmul (a (k + m)) (conj (a (k + m + n)))
    cadd s (cmul (e.re.toInt, e.im.toInt) (cmul (cadd (pair x) (pair y)) (x (k + n))))) (0, 0)
  (-sum.2 * scale, sum.1 * scale)

/-- A component limited to ±0.5 (R118). -/
def nlcLimit (v : Int) : Int := max (-(2 ^ 88)) (min (2 ^ 88) v)

/-- Symbol k after pre-compensation, in units of 2^-89 (R118): guards and hail window are never modified. -/
def nlcStage (bank : List NlcEntry) (scale : Nat) (x y : Int → Cplx) (k : Int) : Cplx :=
  let v := ((x k).1 * 2 ^ 69, (x k).2 * 2 ^ 69)
  if k < 0 then v
  else match sfPlace (k.toNat % sfLen) with
  | .guard => v
  | .hail _ => v
  | _ => let d := nlcDelta bank scale x y k; cadd v (nlcLimit d.1, nlcLimit d.2)

/-! ### Samples -/

/-- What the transmit stages are set to: pre-compensation (none: off), roll-off, symbol rate, trims, and per lane FIR taps, skew and target RMS. -/
structure TxStages where
  nlc : Option (List NlcEntry × Nat)
  roll : Nat
  rs8 : Nat
  trims : List Int
  fir : Nat → List W16
  skew : Nat → Int
  rms : Nat → Nat

/-- Sample n of a hail waveform of levels l, from 0 to 0, whose symbols last p/q samples, in units of 2^-89 (R206). -/
def hailSample (l : List Int) (p q n : Nat) : Int :=
  let i := n * q / p
  if l.length ≤ i then 0
  else
    let v := hailLevel l i (n * q % p) p
    v.a * 2 ^ 89 + if v.a = v.b then 0 else (v.b - v.a) * Config.ramp v.num v.den

/-- Sample n, from the first sample of a superframe, of a hail burst's window of levels l (R115): it begins with line symbol 1,536, 2,304 / rs8 samples to a
line symbol, 128 line symbols to a hail symbol. -/
def windowSample (rs8 : Nat) (l : List Int) (n : Nat) : Int :=
  let first := (1536 * 2304 + rs8 - 1) / rs8
  if n < first then 0 else hailSample l (128 * 2304) rs8 (n - first)

/-- The complex samples of a polarisation ahead of the trims, counted from symbol at_ (R103, R115, R117): symbols, pre-compensated if it is on, shaped, with
the hail waveform added. -/
def shapeStage (k : TxStages) (at_ : Nat) (x y : Int → Cplx) (hail : Nat → Int) (n : Nat) : Cplx :=
  let sym := fun (i : Int) => match k.nlc with
    | some (bank, scale) => nlcStage bank scale x y (at_ + i)
    | none => ((x (at_ + i)).1 * 2 ^ 69, (x (at_ + i)).2 * 2 ^ 69)
  cadd (Config.shaped k.roll k.rs8 sym n) (hail n, 0)

/-- A lane's samples ahead of the limiter from the complex samples of X and Y (R103, R121 to R125): trims, which change nothing where all are 0, the FIR of 64
taps, in units of 2^-13 of its input's, the skew, which delays nothing at 0, and the scaling to the target RMS.  Lanes 0 and 1 are X, odd lanes Q. -/
def laneStage (k : TxStages) (x y : Nat → Cplx) (lane n : Nat) : Int :=
  let pol := fun i =>
    let v := if lane < 2 then x i else y i
    if k.trims.all (· == 0) then v else Config.trimmed k.trims (decide (2 ≤ lane)) (x i) (y i)
  let comp := fun i => if lane % 2 = 1 then (pol i).2 else (pol i).1
  let taps := k.fir lane
  let fir := fun i => (taps.zip (List.range taps.length)).foldl (fun s p => if i < p.2 then s else s + p.1.toInt * comp (i - p.2)) 0
  let sk := fun i => if k.skew lane = 0 then fir i else Config.skewed (k.skew lane) fir i
  Config.scaled (k.rms lane) sk n

/-- The limiter at a DAC input (R125): -128 is never driven. -/
def dacLimit (v : Int) : Int := max (-127) (min 127 v)

/-- A code as a byte. -/
def codeByte (v : Int) : Byte := BitVec.ofInt 8 (dacLimit v)

/-! ### Test patterns -/

/-- Seed of the PRBS7 of a lane (Table TXP-4). -/
def testSeed (lane : Nat) : Nat :=
  match lane with
  | 0 => 0x01
  | 1 => 0x13
  | 2 => 0x2B
  | _ => 0x4D

/-- Codes of test pattern 2: the bits of a PRBS7 x^7 + x^6 + 1, eight to a code, the first most significant; -128 is not driven (R125). -/
def prbs7Codes (lane n : Nat) : List Byte :=
  (bitsBytes n (lfsrRun 7 6 (8 * n) (testSeed lane)).1).map (fun b => codeByte b.toInt)

/-- Symbol i of test patterns 0 and 1 of a polarisation (Table TXP-4): the reference symbols without reseeding, which recur after 32,767, or a tone at Rs/4
whose Q lags by 90°. -/
def testSym (sel : Nat) (y : Bool) (i : Nat) : Sym :=
  if sel = 1 then
    { re := [1, 0, -1, 0].getD (i % 4) 0, im := [0, 1, 0, -1].getD (i % 4) 0, num := 1, den := 1 }
  else (refSyms (refBits y 65534)).getD (i % 32767) zeroSym

end Sys2Proof.Machine
end

