-- ==== Sys2Proof/Machine/Recover.lean ====
section
/-! DEFINITION. Carrier recovery, demapping and estimation as data (R158 to R161, R170 to R176): what follows from the symbols of a superframe.  Real functions
of which the spec gives no number format are functions without a body (DESIGN CHOICE: notes/assumptions/93.md). -/
namespace Sys2Proof.Machine

/-! ### The equaliser -/

/-- A tap after an update (R161): the summed gradient times 2^-(mu + 4), in units of Q1.14, rounded down and limited to 16 bits; an unused tap is 0 (R160). -/
def tapStep (mu ntaps : Nat) (taps : List W16) (grad : List Int) : List W16 :=
  (List.range 384).map (fun i =>
    if i / 2 % 48 < ntaps then
      BitVec.ofInt 16 (clampI (-32768) 32767 ((taps.getD i 0).toInt + grad.getD i 0 / (2 : Int) ^ (mu + 4)))
    else 0)

/-- Taps of which those past ntaps are 0 (R160, R178). -/
def tapsWithin (ntaps : Nat) (taps : List W16) : List W16 := tapStep 0 ntaps taps []

/-- The angles θ, φ and ψ of the tracker (R158). -/
abbrev Angles := Int × Int × Int

/-- A step of the tracker of size 2^-(mu + 2), angles and gradients in units of 2^-30 rad (R158). -/
def sopStep (mu : Nat) (a g : Angles) : Angles :=
  let k : Int := (2 : Int) ^ (mu + 2)
  (a.1 + g.1 / k, a.2.1 + g.2.1 / k, a.2.2 + g.2.2 / k)

/-- The tracker's steps over an interval, one every 16 symbols, and the largest rotation rate of them and peak (R158, R159); a step that changes nothing has
rate 0. -/
def sopRun (mu rs8 : Nat) : List Angles → Angles × Nat → Angles × Nat
  | [], x => x
  | g :: l, (a, peak) =>
    let a' := sopStep mu a g
    sopRun mu rs8 l (a', if a' = a then peak else max peak (Config.sopRate rs8 a a'))

/-! ### Pilots -/

/-- The pilots of a polarisation where their amplitude a is 4,096 (R90). -/
def pilotList (y : Bool) : List Cplx := (pilots y).map (fun p => (4096 * p.re, 4096 * p.im))

/-- The energy of a pilot: 2a². -/
def pilotEnergy : Nat := 2 * 4096 ^ 2

/-- |z|². -/
def energy (z : Cplx) : Nat := (z.1 * z.1 + z.2 * z.2).toNat

/-- Arguments and rotations: exact where there is nothing to turn. -/
def argOf (z : Cplx) : Int := if z.2 = 0 ∧ 0 < z.1 then 0 else Config.arg z
def turnBack (phase : Int) (z : Cplx) : Cplx := if phase % 131072 = 0 then z else Config.rotated phase z

/-- A phase difference between −π and π. -/
def wrapPhase (d : Int) : Int := (d + 65536) % 131072 - 65536

/-- Pilot i and its neighbours, k to each side as far as the superframe has them (R171). -/
def pilotSum (k : Nat) (zs : List Cplx) (i : Nat) : Cplx := ((zs.drop (i - k)).take (i + k + 1 - (i - k))).foldl cadd (0, 0)

/-- The phase of every pilot (R171). -/
def pilotPhases (k : Nat) (known : List Cplx) (l : List RxGroup) : List Int :=
  let zs := (l.zip known).map (fun p => cmul p.1.pilot (conj p.2))
  (List.range zs.length).map (fun i => argOf (pilotSum k zs i))

/-- Jumps of more than π/4 between consecutive pilots (R171). -/
def slipsFrom : Option Int → List Int → Nat
  | _, [] => 0
  | none, p :: l => slipsFrom (some p) l
  | some q, p :: l => b2n (decide (16384 < (wrapPhase (p - q)).natAbs)) + slipsFrom (some p) l

/-- The pilots after phase recovery. -/
def recoveredPilots (phases : List Int) (l : List RxGroup) : List Cplx := (l.zip phases).map (fun p => turnBack p.2 p.1.pilot)

/-- E|y − p|² (R174), rounded down; without a pilot, that of a received 0. -/
def pilotNoise (rec known : List Cplx) : Nat :=
  let e := (rec.zip known).map (fun p => energy (cadd p.1 (-p.2.1, -p.2.2)))
  if e.isEmpty then pilotEnergy else e.foldl (· + ·) 0 / e.length

/-! ### Data symbols -/

/-- Data symbols with the phases that the pilots about them give: interpolated linearly over the 62 between two pilots, and after the last pilot its own
(R171; the end: DESIGN CHOICE, notes/assumptions/95.md). -/
def dataPhases : List RxGroup → List Int → List (Cplx × Int)
  | g :: l, p :: ps =>
    let d := (ps.head?.map (fun q => wrapPhase (q - p))).getD 0
    (g.data.zip (List.range g.data.length)).map (fun x => (x.1, p + d * (x.2 + 1) / 63)) ++ dataPhases l ps
  | _, _ => []

/-- A level on the scale where a is 4,096, the squared scale being num / den of the pilots' energy: exact where the two are alike (R114). -/
def pointOf (level : Int) (num den : Nat) : Int := if 2 * num = den then 4096 * level else Config.point level num den

/-- The points of a real dimension with composition c: label (sign bit, then amplitude bits), count of the composition, place (R113, R114, R172). -/
def dimPoints (base : Nat) (c : List Nat) : List (List Bool × Nat × Int) :=
  let n := c.foldl (· + ·) 0
  let e := 2 * compEnergy (alphabet base) c
  (List.range (alphabet base).length).flatMap (fun k =>
    [false, true].map (fun sign => (sign :: ampLabel base k, c.getD k 0, pointOf (levelOf base sign k) n e)))

/-- The squared distance of a value to the nearest point of a dimension. -/
def nearSq (pts : List (List Bool × Nat × Int)) (v : Int) : Nat :=
  (pts.foldl (fun m p => let d := (v - p.2.2).natAbs ^ 2; match m with
    | none => some d
    | some k => some (min k d)) (none : Option Nat)).getD 0

/-- The test phases of the blind search in order of preference: the nearest to 0 first, of two equally near the negative one (R171). -/
def blindTests : List Int := 0 :: ((List.range 15).flatMap (fun (i : Nat) => [-1024 * ((i : Int) + 1), 1024 * ((i : Int) + 1)]) ++ [-16384])

/-- The distance of symbol x with a test phase to the nearest point. -/
def blindDist (pts : List (List Bool × Nat × Int)) (t : Int) (x : Cplx × Int) : Nat :=
  let z := turnBack (x.2 + t) x.1
  nearSq pts z.1 + nearSq pts z.2

/-- The offset with the smallest sum over a window (R171): the first in order of preference. -/
def blindBest (pts : List (List Bool × Nat × Int)) (win : List (Cplx × Int)) : Int :=
  (blindTests.foldl (fun (m : Option (Int × Nat)) t =>
    let d := (win.map (blindDist pts t)).foldl (· + ·) 0
    match m with
    | none => some (t, d)
    | some b => if d < b.2 then some (t, d) else some b) none).elim 0 (·.1)

/-- The data symbols after phase recovery (R171): the blind search, where it is on, looks w symbols to each side, as far as there are any. -/
def recoveredData (pts : List (List Bool × Nat × Int)) (bps : Bool) (w : Nat) (l : List (Cplx × Int)) : List Cplx :=
  (l.zip (List.range l.length)).map (fun x =>
    let off := if bps then blindBest pts ((l.drop (x.2 - w)).take (x.2 + w + 1 - (x.2 - w))) else 0
    turnBack (x.1.2 + off) x.1.1)

/-! ### The demapper -/

/-- The LLR of label bit i for a value (R172), in units of 2^-16 nat, s2 the noise variance of the polarisation, twice that of a dimension. -/
def bitLlr (pts : List (List Bool × Nat × Int)) (s2 : Nat) (v : Int) (i : Nat) : Int :=
  let terms := fun b => (pts.filter (fun p => p.1.getD i false == b)).map (fun p => (p.2.1, 2 * (v - p.2.2).natAbs ^ 2))
  Config.lnSum s2 (terms false) - Config.lnSum s2 (terms true)

/-- The LLRs of a value's amplitude label and its sign bit. -/
def ampLlrs (base : Nat) (pts : List (List Bool × Nat × Int)) (s2 : Nat) (v : Int) : List Int :=
  (List.range (baseBits base / 2 - 1)).map (fun i => bitLlr pts s2 v (i + 1))
def signLlr (pts : List (List Bool × Nat × Int)) (s2 : Nat) (v : Int) : Int := bitLlr pts s2 v 0

/-- The LLRs of a block's data symbols in the order of its label slots (R172, R186): amplitude slots for each I then Q, X then Y, then sign slots. -/
def demapBlock (base : Nat) (c : List Nat) (s2x s2y : Nat) (syms : List (Cplx × Cplx)) : List Int :=
  let pts := dimPoints base c
  let dims := syms.flatMap (fun p => [(s2x, p.1.1), (s2y, p.2.1), (s2x, p.1.2), (s2y, p.2.2)])
  dims.flatMap (fun d => ampLlrs base pts d.1 d.2) ++ dims.map (fun d => signLlr pts d.1 d.2)

/-- Σ log2(1 + exp(−|L|)) over the label bits of data symbols, in units of 2^-16: the loss of R176, each bit decided by its own LLR. -/
def gmiLoss (base : Nat) (c : List Nat) (s2 : Nat) (syms : List Cplx) : Nat :=
  let pts := dimPoints base c
  (syms.flatMap (fun z => [z.1, z.2].flatMap (fun v => signLlr pts s2 v :: ampLlrs base pts s2 v))).foldl
    (fun n l => n + Config.softplus l.natAbs) 0

/-! ### Estimates -/

/-- 10^(2^k), by squaring. -/
def tenPow : Nat → Nat
  | 0 => 10
  | k + 1 => tenPow k * tenPow k

/-- x^1000. -/
def pow1000 (x : Nat) : Nat := ((x ^ 10) ^ 10) ^ 10

/-- 10 · log10(num / den) in 0.01 dB, rounded down, between 0 and 40.95 dB (DESIGN CHOICE: notes/assumptions/95.md): the greatest n with 10^n · den^1000 ≤
num^1000. -/
def centiDb (num den : Nat) : Nat :=
  let hi := pow1000 num
  ((List.range 12).reverse.foldl (fun (p : Nat × Nat) k =>
    let next := p.2 * tenPow k
    if next ≤ hi then (p.1 + 2 ^ k, next) else p) (0, pow1000 den)).1

/-- The SNR of a mean squared pilot error (R174). -/
def snrOf (noise : Nat) : Nat := if noise = 0 then 4095 else centiDb pilotEnergy noise

/-- 10 · log10 of the mean of the SNRs of these mean squared pilot errors (R174). -/
def snrMean (errs : List Nat) : Nat :=
  let l := errs.map (max 1)
  let prod := l.foldl (· * ·) 1
  centiDb (pilotEnergy * (l.map (prod / ·)).foldl (· + ·) 0) (l.length * prod)

/-- A slice's mean squared pilot error exceeds the mean of the others in use by thr dB or more (R166): errs are those in use, its own being e. -/
def sliceExcess (thr e : Nat) (errs : List Nat) : Bool :=
  let others := errs.foldl (· + ·) 0 - e
  2 ≤ errs.length && decide (10 ^ thr * others ^ 10 ≤ (e * (errs.length - 1)) ^ 10)

end Sys2Proof.Machine
end

