-- ==== Sys2Proof/Machine/RxOps.lean ====
section
/-! DEFINITION. What the blocks of a carrier's receive chain do to each other: the stream that RXF_x delivers becoming valid or
invalid (R155), the equaliser starting an acquisition (R160, R164), the decoder losing its lock (R188). -/
namespace Sys2Proof.Machine

def State.rx (s : State) : Carrier → RxState
  | .A => s.rxA
  | .B => s.rxB

def State.setRx (c : Carrier) (x : RxState) (s : State) : State :=
  match c with
  | .A => { s with rxA := x }
  | .B => { s with rxB := x }

def State.tx (s : State) : Carrier → TxState
  | .A => s.txA
  | .B => s.txB

def State.setTx (c : Carrier) (x : TxState) (s : State) : State :=
  match c with
  | .A => { s with txA := x }
  | .B => { s with txB := x }

def State.eq (s : State) : Carrier → EqState
  | .A => s.eqA
  | .B => s.eqB

def State.setEq (c : Carrier) (x : EqState) (s : State) : State :=
  match c with
  | .A => { s with eqA := x }
  | .B => { s with eqB := x }

def State.cr (s : State) : Carrier → CrState
  | .A => s.crA
  | .B => s.crB

def State.setCr (c : Carrier) (x : CrState) (s : State) : State :=
  match c with
  | .A => { s with crA := x }
  | .B => { s with crB := x }

def State.fec (s : State) : Carrier → FecState
  | .A => s.fecA
  | .B => s.fecB

def State.setFec (c : Carrier) (x : FecState) (s : State) : State :=
  match c with
  | .A => { s with fecA := x }
  | .B => { s with fecB := x }

/-- Block IDs and queues of the receive chain (Tables ARC-1, ENG-1). -/
def rxfId (c : Carrier) : Nat := carBlock c 1
def eqzId (c : Carrier) : Nat := carBlock c 2
def crrId (c : Carrier) : Nat := carBlock c 3
def fecId (c : Carrier) : Nat := carBlock c 4
def rxfQ (c : Carrier) : Fin 64 := carQueue c 1
def eqzQ (c : Carrier) : Fin 64 := carQueue c 2
def crrQ (c : Carrier) : Fin 64 := carQueue c 3
def fecQ (c : Carrier) : Fin 64 := carQueue c 4

/-- An event whose code no event table gives: a free value; a FAULT event also carries its Detail. -/
def State.logOpen (blk sev : Nat) (s : State) : State :=
  let (w, s) := s.draw
  s.logEvent blk sev (w.toNat % 65536) (if sev = 3 then leBytes 4 (w.toNat / 65536) else [])

/-- The two-bit role of unit i in a role register: 0 in use, 1 idle, 2 failed or quarantined, 3 under retest. -/
def State.roleAt (s : State) (a i : Nat) : Nat := (s.reg a).toNat / 4 ^ i % 4

/-- Set the role of unit i in a role register. -/
def State.setRole (a i r : Nat) (s : State) : State :=
  s.setReg a (BitVec.ofNat 32 ((s.reg a).toNat - s.roleAt a i * 4 ^ i + r * 4 ^ i))

/-- The lowest unit below n with a role in a role register. -/
def State.lowestRole (s : State) (a n r : Nat) : Option Nat := (List.range n).find? (fun i => s.roleAt a i == r)

/-- How many units below n have a role in a role register. -/
def State.countRole (s : State) (a n r : Nat) : Nat := ((List.range n).filter (fun i => s.roleAt a i == r)).length

/-- needed and spares of EQZ_STATE_x follow the slice map (R164). -/
def State.eqCount (c : Carrier) (s : State) : State :=
  s.setFld (R.EQZ_STATE c) F.EQZ_STATE_spares (s.countRole (R.EQZ_SLICE_MAP c) 9 1)

/-- spares of FEC_STATE_x follows the engine map. -/
def State.fecCount (c : Carrier) (s : State) : State :=
  s.setFld (R.FEC_STATE c) F.FEC_STATE_spares (s.countRole (R.FEC_ENGINE_MAP c) 9 1)

def State.hail (s : State) : Carrier → HailState
  | .A => s.hailA
  | .B => s.hailB

def State.setHail (c : Carrier) (x : HailState) (s : State) : State :=
  match c with
  | .A => { s with hailA := x }
  | .B => { s with hailB := x }

def State.frm (s : State) : Carrier → FrmState
  | .A => s.frmA
  | .B => s.frmB

def State.setFrm (c : Carrier) (x : FrmState) (s : State) : State :=
  match c with
  | .A => { s with frmA := x }
  | .B => { s with frmB := x }

/-- The mode fields of CAR_MODE_x in force. -/
def State.carBase (s : State) (c : Carrier) : Nat := s.fld (R.CAR_MODE c) F.CAR_MODE_base
def State.carRate (s : State) (c : Carrier) : Nat := s.fld (R.CAR_MODE c) F.CAR_MODE_rate
def State.carRs8 (s : State) (c : Carrier) : Nat := s.fld (R.CAR_MODE c) F.CAR_MODE_rs8
def State.carFamily (s : State) (c : Carrier) : Nat := s.fld (R.CAR_MODE c) F.CAR_MODE_family

/-- The symbol rate of an interoperable agreement in 1/8 GBd, rounded up: the agreements give it, not the spec (PRESUMED: notes/assumptions/96.md). -/
def iopRs8 (family : Nat) : Nat := if family = 1 then 482 else if family = 2 then 479 else 946

/-- The symbol rate in force in 1/8 GBd: an agreement's own where family is not 0 (R198). -/
def State.symRs8 (s : State) (c : Carrier) : Nat := if s.carFamily c = 0 then s.carRs8 c else iopRs8 (s.carFamily c)

/-- The guaranteed threshold of carrier c with entropy h64, 0.01 dB (R87, Table FEC-5). -/
def State.thrAt (s : State) (c : Carrier) (h64 : Nat) : Nat :=
  if s.carFamily c = 0 then nativeThr (s.carBase c) (s.carRate c) h64
  else iopThr (s.carFamily c) (s.fld (R.FEC_IOP_CFG c) F.FEC_IOP_CFG_iop_mode)

/-- The guaranteed threshold of the receive mode in force (R175). -/
def State.guarThr (s : State) (c : Carrier) : Nat := s.thrAt c (s.frm c).rxH64

/-- The receive condition of the hail modem (R204). -/
def State.hailRxNow (s : State) (c : Carrier) : Nat :=
  let st := s.fld (R.RXF_STATE c) F.RXF_STATE_state
  if st = 2 then 1
  else if st = 3 ∧ s.carFamily c = 0 ∧ s.flag (R.RXF_STATE c) F.RXF_STATE_sf_lock ∧ s.fld (R.EQZ_STATE c) F.EQZ_STATE_eq_state ≠ 0
  then 2 else 0

/-- Abandon the reception in progress (R204, R218). -/
def State.hailAbandon (c : Carrier) (s : State) : State :=
  (s.setHail c { s.hail c with recv := none }).setFld (R.HAIL_STATE c) F.HAIL_STATE_rx_state 0

/-- The receive condition follows RXF_x and EQZ_x; a change abandons the reception in progress, and entry to the continuous condition
makes the next header pass a first one (R204, R221). -/
def State.hailRxCond (c : Carrier) (s : State) : State :=
  let n := s.hailRxNow c
  if s.fld (R.HAIL_STATE c) F.HAIL_STATE_rx_cond = n then s
  else
    let s := (s.hailAbandon c).setFld (R.HAIL_STATE c) F.HAIL_STATE_rx_cond n
    s.setHail c { s.hail c with lastPass := none, firstDue := (s.hail c).firstDue || n == 1 }

/-- The tap count chosen by EQZ_CTRL_x.ntaps (R160). -/
def State.eqTapCount (s : State) (c : Carrier) : Nat := 8 * (s.fld (R.EQZ_CTRL c) F.EQZ_CTRL_ntaps + 1)

/-- Centre-spike taps of n taps are loaded (R160). -/
def State.eqLoadSpike (c : Carrier) (n : Nat) (s : State) : State :=
  s.setEq c { s.eq c with taps := spikeTaps n 0x4000 0, ntaps := n, rotated := false, sfCount := 0 }

/-- Centre-spike taps are loaded and the tap count takes effect (R160). -/
def State.eqSpike (c : Carrier) (s : State) : State := s.eqLoadSpike c (s.eqTapCount c)

/-- Slices the symbol rate needs: ceil(Rs / 32 GBd) (R164, R198). -/
def State.slicesNeeded (s : State) (c : Carrier) : Nat := (s.symRs8 c + 255) / 256

/-- The healthy slices in ascending number: those in use first up to the needed count, the others idle (R164). -/
def State.assignSlices (c : Carrier) : List Nat → Nat → State → State
  | [], _, s => s
  | i :: l, need, s =>
    let r := s.roleAt (R.EQZ_SLICE_MAP c) i
    if 2 ≤ r then s.assignSlices c l need
    else if 0 < need then (s.setRole (R.EQZ_SLICE_MAP c) i 0).assignSlices c l (need - 1)
    else (s.setRole (R.EQZ_SLICE_MAP c) i 1).assignSlices c l 0

/-- The slices whose places no healthy slice fills (R168): as many of those failed or under retest as are missing. -/
def State.slicesMissing (s : State) (c : Carrier) (need : Nat) : List Nat :=
  ((List.range 9).filter (fun i => 2 ≤ s.roleAt (R.EQZ_SLICE_MAP c) i)).take (need - s.countRole (R.EQZ_SLICE_MAP c) 9 0)

/-- EQZ_x at the start of an acquisition (R160, R164, R168): centre-spike taps, the tap count in force, the slices chosen; the carrier stays erased where too few
are healthy. -/
def State.eqAcquire (c : Carrier) (s : State) : State :=
  let s := s.eqSpike c
  let need := s.slicesNeeded c
  let s := (s.assignSlices c (List.range 9) need).setFld (R.EQZ_STATE c) F.EQZ_STATE_needed need
  let s := s.setEq c { s.eq c with pendFail := s.slicesMissing c need, swapDue := false }
  (s.setFld (R.EQZ_STATE c) F.EQZ_STATE_pol_swap 0).eqCount c

/-- FEC_x begins anew on its chains (R180, R188, R189): no block has arrived, none is seeded. -/
def State.fecRestart (c : Carrier) (s : State) : State :=
  (s.setFec c { s.fec c with lowRun := 0, tries := Vector.replicate 8 0, uncRun := Vector.replicate 8 0, arrived := 0
                             chains := Vector.replicate 8 ChainDec.cold }).setFld (R.FEC_STATE c) F.FEC_STATE_seeded 0

/-- FEC_x loses its block lock (R188): the search restarts; no event table gives the cause's codes, a free value. -/
def State.fecUnlock (c : Carrier) (s : State) : State :=
  if s.flag (R.FEC_STATE c) F.FEC_STATE_blk_lock then
    let s := ((s.setFlag (R.FEC_STATE c) F.FEC_STATE_blk_lock false).fecRestart c).setFlag (R.FEC_STATUS c) F.FEC_STATUS_lock_loss true
    let (w, s) := s.draw
    s.logEvent (fecId c) sevWarn 0x0005 (evData [(1, w.toNat)])
  else s

/-- CRR_x goes to a state other than 3 (R155, R161, R171, R175): no LLR is valid, what counted superframes in a row counts anew, EQZ_x leaves decision-directed
adaptation. -/
def State.crLeave (c : Carrier) (n : Nat) (s : State) : State :=
  let s := (s.setFld (R.CRR_STATE c) F.CRR_STATE_cr_state n).setFlag (R.CRR_STATE c) F.CRR_STATE_llr_valid false
  let s := s.setCr c { s.cr c with belowRun := 0, aboveRun := 0, phX := none, phY := none }
  if s.fld (R.EQZ_STATE c) F.EQZ_STATE_eq_state = 2 then s.setFld (R.EQZ_STATE c) F.EQZ_STATE_eq_state 1 else s

/-- The stream from RXF_x becomes invalid (R146, R150, R152, R155): EQZ_x and CRR_x wait and hold, no LLR is valid. -/
def State.rxStreamInvalid (c : Carrier) (s : State) : State :=
  ((s.crLeave c 0).setFld (R.EQZ_STATE c) F.EQZ_STATE_eq_state 0).hailRxCond c

/-- Set the acquisition step; leaving step 4 costs the decoder its lock (R151, R188). -/
def State.setAcq (c : Carrier) (n : Nat) (s : State) : State :=
  let s := if s.fld (R.RXF_STATE c) F.RXF_STATE_acq = 4 ∧ n ≠ 4 then s.fecUnlock c else s
  s.setFld (R.RXF_STATE c) F.RXF_STATE_acq n

/-- The stream from RXF_x becomes valid (R155, R161, R170): EQZ_x adapts pilot-aided, or stays held; CRR_x acquires the frequency. -/
def State.rxStreamValid (c : Carrier) (s : State) : State :=
  let s := s.setFld (R.EQZ_STATE c) F.EQZ_STATE_eq_state (if (s.eq c).held then 3 else 1)
  let s := s.setEq c { s.eq c with sfCount := 0 }
  (s.setFld (R.CRR_STATE c) F.CRR_STATE_cr_state 1).hailRxCond c

/-- Whether the stream into EQZ_x is valid (R155). -/
def State.rxValid (s : State) (c : Carrier) : Bool :=
  s.fld (R.RXF_STATE c) F.RXF_STATE_acq == 4 && !s.flag (R.RXF_STATE c) F.RXF_STATE_los && !(s.rx c).fault

end Sys2Proof.Machine
end

