-- ==== Sys2Proof/Machine/Blocks.lean ====
section
/-! DEFINITION. What blocks do to blocks of other chapters: TXP_x and RXF_x entering and leaving SERVICE (R101, R107, R307), consequent actions of FRM_x
(R243, Table FRM-6), the replacement of client data (R264), an abandoned hitless change (R98, R101), urgent events of MON (R413), the
annealer's converters (R426, R428), the logbook's totals (R461), the hail modem's conditions (R204, R212). -/
namespace Sys2Proof.Machine

/-! ### The logbook's totals -/

/-- The lower edges of bins 1 to 15 of the SOP-rate histogram, in krad/s: 10^(1 + (i-1)/4), rounded up to the whole krad/s from which a
value lies in the bin (Table LOG-5). -/
def sopEdges : List Nat := [10, 18, 32, 57, 100, 178, 317, 563, 1000, 1779, 3163, 5624, 10000, 17783, 31623]

/-- The bin of a SOP rate in krad/s. -/
def sopBin (rate : Nat) : Nat := (sopEdges.filter (fun e => e ≤ rate)).length

/-- A superframe's sop_rate enters the SOP histogram (Table LOG-5). -/
def State.noteSopRate (c : Carrier) (rate : Nat) (s : State) : State := s.noteTotal (1448 + 128 * c.code + 8 * sopBin rate) 1

/-! ### MON -/

/-- The modulator k. -/
def State.monMod (s : State) (k : Fin 4) : MonMod := s.mon.mods[k]

/-- Replace modulator k. -/
def State.setMonMod (k : Fin 4) (m : MonMod) (s : State) : State := { s with mon := { s.mon with mods := s.mon.mods.set k m } }

/-- A trigger is ignored and counted (R412, R413); the first in a second of DEVTIME is a WARN event (Table MON-6): kind 0 regular, 1 injected. -/
def State.monOverrun (k : Fin 4) (kind : Nat) (s : State) : State :=
  let s := (s.addCnt (R.MON_OVERRUN_CNT k.val) 1).setFlag R.MON_STATUS F.MON_STATUS_overrun true
  let sec := s.time.devtime.toNat / 10000000000
  if s.mon.overSec = some sec then s
  else ({ s with mon := { s.mon with overSec := some sec } }).logEvent 0x1E sevWarn 0x0002 (evData [(1, k.val), (1, kind)])

/-- A modulator is stopped: reg_len is 0, or MON has faulted (R411, R419). -/
def State.monStopped (s : State) (k : Fin 4) : Bool := s.mon.fault || s.fld (R.MON_CFG k.val) F.MON_CFG_reg_len == 0

/-- An injected pass starts (R413): it pre-empts the regular entry in progress, or is ignored while one runs. -/
def State.monInject (k : Fin 4) (s : State) : State :=
  if s.fld (R.MON_CFG k.val) F.MON_CFG_inj_len = 0 ∨ s.monStopped k then s
  else if (s.monMod k).inj.isSome then s.monOverrun k 1
  else
    let s := if (s.monMod k).reg.isSome then
        (s.addCnt (R.MON_ABANDON_CNT k.val) 1).setFlag R.MON_STATUS F.MON_STATUS_abandon true
      else s
    (s.setMonMod k { s.monMod k with inj := some 0, filled := 0, hist := [] }).setFlag (R.MON_RES_INFO_M k.val) F.MON_RES_INFO_M_busy true

/-- An urgent event: bit 0 or 1 LOS, 2 or 3 LOF of carrier A or B (R413). -/
def State.monUrgentBit (b : Nat) (s : State) : State :=
  (List.finRange 4).foldl (fun s k =>
    if s.fld (R.MON_TRIG k.val) F.MON_TRIG_urgent_mask / 2 ^ b % 2 = 1 then s.monInject k else s) s

/-- LOS of a carrier is an urgent event (R150). -/
def State.monUrgent (c : Carrier) (s : State) : State := s.monUrgentBit c.code

/-! ### The annealer -/

/-- The carrier of a converter, and whether it is a DAC (Table ANL-1). -/
def convCarrier (v : Nat) : Carrier := if v / 4 % 2 = 0 then .A else .B
def convTx (v : Nat) : Bool := 8 ≤ v

/-- The measurement unit of a converter: A ADC, A DAC, B ADC, B DAC. -/
def convUnit (v : Nat) : Fin 4 := Fin.ofNat 4 (2 * (convCarrier v).code + b2n (convTx v))

/-- The converters of a carrier's ADCs or DACs. -/
def convsOf (tx : Bool) (c : Carrier) : List Nat := (List.range 4).map (fun i => 8 * b2n tx + 4 * c.code + i)

/-- A converter exists on this part (R421). -/
def State.convPresent (s : State) (v : Nat) : Bool := s.hasCarrier (convCarrier v)

/-- A run of converter v becomes pending, or merges into the one that is (R426). -/
def State.anlPend (v : Nat) (s : State) : State :=
  if s.convPresent v then
    s.setFld R.ANL_STATE F.ANL_STATE_pending (s.fld R.ANL_STATE F.ANL_STATE_pending ||| 2 ^ v)
  else s

/-- A block leaves OFF: the start-up runs of its converters become pending the first time after PORESET_N release (R426). -/
def State.anlLeaveOff (tx : Bool) (c : Carrier) (s : State) : State :=
  (convsOf tx c).foldl (fun s v =>
    if s.anl.started.contains v then s
    else ({ s with anl := { s.anl with started := v :: s.anl.started } }).anlPend v) s

/-- The production record of an element (R428): the first 64 sub-ADCs with comparator 0 and phases in ascending number, or the first 63 DAC
cells, in use; the trims recorded at Enyako's test are a free value. -/
def anlProduction (k : Nat) : AnlElem :=
  let e := k % 72
  let adc := decide (k / 72 < 8)
  let w := Config.anlTrim k
  { inUse := e < (if adc then 64 else 63), failed := false, comp1 := false, comp0Fail := false, comp1Fail := false
    phase := if adc then (if e < 64 then e else 0xFF) else 0
    trim0 := w.truncate 16, trim1 := if adc then (w >>> 16).truncate 16 else 0, trim2 := if adc then (w >>> 32).truncate 16 else 0, err := 0 }

/-- An element's record. -/
def State.anlElem (s : State) (v e : Nat) : AnlElem := (s.anl.table.lookup (72 * v + e)).getD (anlProduction (72 * v + e))

/-- Set an element's record. -/
def State.setAnlElem (v e : Nat) (x : AnlElem) (s : State) : State :=
  { s with anl := { s.anl with table := (72 * v + e, x) :: s.anl.table.filter (fun p => p.1 != 72 * v + e) } }

/-- How many elements of a converter have a property. -/
def State.anlCount (s : State) (v : Nat) (p : AnlElem → Bool) : Nat := ((List.range 72).filter (fun e => p (s.anlElem v e))).length

/-- ANL_CONV_STAT_v and the in-use map of an ADC lane follow the table (R133, R422). -/
def State.anlShow (v : Nat) (s : State) : State :=
  let s := (s.setFld (R.ANL_CONV_STAT v) F.ANL_CONV_STAT_used (s.anlCount v (·.inUse))).setFld (R.ANL_CONV_STAT v) F.ANL_CONV_STAT_failed
    (s.anlCount v (·.failed))
  if convTx v then s
  else
    let word := fun (lo : Nat) => BitVec.ofNat 32 (((List.range 32).map (fun i =>
      if lo + i < 72 && (s.anlElem v (lo + i)).inUse then 2 ^ i else 0)).foldl (· + ·) 0)
    let c := convCarrier v
    let n := v % 4
    let s := (s.setReg (R.RXF_SUBADC_W0 c n) (word 0)).setReg (R.RXF_SUBADC_W1 c n) (word 32)
    let s := s.setFld (R.RXF_SUBADC_W2 c n) F.RXF_SUBADC_W2_in_use (word 64).toNat
    let s := s.setFld (R.RXF_SUBADC_W2 c n) F.RXF_SUBADC_W2_used (s.anlCount v (·.inUse))
    s.setFld (R.RXF_SUBADC_W2 c n) F.RXF_SUBADC_W2_failed (s.anlCount v (·.failed))

/-- The run of converter v has ended: AN_RUN commands that waited for it may complete (Table ANL-3). -/
def State.anlTell (v how : Nat) (s : State) : State :=
  let w := s.anl.waits.map (fun p => (p.1, p.2.filter (· != v)))
  let s := { s with anl := { s.anl with waits := w.filter (fun p => !p.2.isEmpty) } }
  (w.filter (fun p => p.2.isEmpty)).foldl (fun s p => s.endTicket p.1 0 how 0) s

/-- The busy bit of a unit is cleared and the unit is free. -/
def State.anlFree (u : Fin 4) (s : State) : State :=
  ({ s with anl := { s.anl with units := s.anl.units.set u none } }).setReg R.ANL_STATE (s.reg R.ANL_STATE &&& ~~~(BitVec.ofNat 32 (2 ^ u.val)))

/-- A run is abandoned (R426): it changes nothing and stays pending.  The cause has no code in the spec: a free value. -/
def State.anlAbandon (u : Fin 4) (s : State) : State :=
  match s.anl.units[u] with
  | none => s
  | some r =>
    let (w, s) := s.draw
    let s := (((s.anlFree u).addCnt R.ANL_ABANDON_CNT 1).setFlag R.ANL_STATUS F.ANL_STATUS_abandon true).setFld (R.ANL_CONV_STAT r.v)
      F.ANL_CONV_STAT_result 3
    (s.logEvent 0x1F sevWarn 0x0004 (evData [(1, r.v), (1, w.toNat)])).anlTell r.v 3

/-- A run of a unit ends as applied (1) or stored (2): the records enter the table, ANL_CONV_v is updated, an AN_RUN that waited for it
may complete (R426). -/
def State.anlFinish (u : Fin 4) (r : AnlRun) (how : Nat) (s : State) : State :=
  let changed := r.recs.any (fun p => p.2.inUse != (s.anlElem r.v p.1).inUse)
  let s := r.recs.foldl (fun s p => s.setAnlElem r.v p.1 { p.2 with failed := p.2.failed || (s.anlElem r.v p.1).failed }) s
  let s := s.anlFree u
  let s := s.setFld R.ANL_STATE F.ANL_STATE_pending (s.fld R.ANL_STATE F.ANL_STATE_pending &&& (65535 - 2 ^ r.v))
  let s := (s.setFld (R.ANL_CONV_TEMP r.v) F.ANL_CONV_TEMP_temp_last r.temp).setReg64 (R.ANL_CONV_TIME_LO r.v) r.time.toNat
  let s := ((s.setFld (R.ANL_CONV_STAT r.v) F.ANL_CONV_STAT_result how).anlShow r.v).addCnt R.ANL_RUN_CNT 1
  (s.logEvent 0x1F sevInfo 0x0001 (evData [(1, r.v), (2, r.temp), (1, b2n changed)])).anlTell r.v how

/-- The phases of a set: the sub-ADCs in ascending number (R425). -/
def phaseIn (tx : Bool) (used : List Nat) (e : Nat) : Nat :=
  if tx then 0 else if used.contains e then (used.filter (· < e)).length else 0xFF

/-- An element that failed in use gives way to an idle unfailed one with its own last trims (R424), if both are so still. -/
def State.anlSubst (p : Nat × Nat × Nat) (s : State) : State :=
  let x := s.anlElem p.1 p.2.1
  let y := s.anlElem p.1 p.2.2
  if x.inUse = false ∨ x.failed = false ∨ y.inUse ∨ y.failed then s
  else
    let s := (s.setAnlElem p.1 p.2.1 { x with inUse := false }).setAnlElem p.1 p.2.2 { y with inUse := true }
    let used := (List.range 72).filter (fun e => (s.anlElem p.1 e).inUse)
    ((List.range 72).foldl (fun s e => s.setAnlElem p.1 e { s.anlElem p.1 e with phase := phaseIn (convTx p.1) used e }) s).anlShow p.1

/-- The substitutions that wait at a carrier's DACs (tx) or ADCs take effect (R124, R137); after an engine fault none does (R429). -/
def State.anlSubsNow (tx : Bool) (c : Carrier) (s : State) : State :=
  let mine := fun (p : Nat × Nat × Nat) => convTx p.1 == tx && decide (convCarrier p.1 = c)
  let due := s.anl.subs.filter mine
  let s := { s with anl := { s.anl with subs := s.anl.subs.filter (fun p => !mine p) } }
  if s.anl.fault then s else due.foldl (fun s p => s.anlSubst p) s

/-- What the annealer keeps when every block goes to OFF: no substitution waits. -/
def State.anlStored (s : State) : AnlState := ((((s.anlSubsNow true .A).anlSubsNow true .B).anlSubsNow false .A).anlSubsNow false .B).anl

/-- The block of a unit has changed state: st is its state now, atBoundary says that a new selection waits for a superframe boundary in it (R124, R137).
A measurement in OFF is abandoned; a selection or a substitution that need not wait takes effect, or is stored in OFF (R426). -/
def State.anlMoved (tx : Bool) (c : Carrier) (st : Nat) (atBoundary : Bool) (s : State) : State :=
  let u := Fin.ofNat 4 (2 * c.code + b2n tx)
  let s := match s.anl.units[u] with
  | none => s
  | some r =>
    if r.phase = 0 ∧ st = 0 then s.anlAbandon u
    else if r.phase = 2 ∧ atBoundary = false ∧ s.anl.fault = false then s.anlFinish u r (if st = 0 then 2 else 1)
    else s
  if atBoundary then s else s.anlSubsNow tx c

/-- A superframe boundary of a carrier's transmitter (tx) or receiver: a selection and substitutions that wait for it are applied (R124, R137). -/
def State.anlBoundary (tx : Bool) (c : Carrier) (s : State) : State :=
  let u := Fin.ofNat 4 (2 * c.code + b2n tx)
  (match s.anl.units[u] with
  | some r => if r.phase = 2 ∧ s.anl.fault = false then s.anlFinish u r 1 else s
  | none => s).anlSubsNow tx c

/-! ### Client data and consequent actions -/

/-- The slot bytes of a berth map: an empty list stands for 400 zeros. -/
def mapSlots (m : List Byte) (trib : Nat) : Nat := (m.filter (fun b => b.toNat == 128 + trib)).length

/-- The transmit map in force, and the received one (R230, R258). -/
def State.txMap (s : State) (c : Carrier) : List Byte := if (s.frm c).txSel then (s.frm c).txMap1 else (s.frm c).txMap0
def State.rxMap (s : State) (c : Carrier) : List Byte :=
  if s.flag (R.FRM_STATE c) F.FRM_STATE_map_sel_rx then (s.frm c).rxMap1 else (s.frm c).rxMap0

/-- A client of CLM. -/
def State.client (s : State) (n : Nat) : ClientRt := s.clm.clients[Fin.ofNat 128 n]
def State.setClient (n : Nat) (x : ClientRt) (s : State) : State :=
  { s with clm := { s.clm with clients := s.clm.clients.set (Fin.ofNat 128 n) x } }

/-- A client's configuration in force. -/
def State.cliOn (s : State) (n : Nat) : Bool := s.flag (R.CLM_CLIENT_CFG n) F.CLM_CLIENT_CFG_enable
def State.cliCar (s : State) (n : Nat) : Carrier := if s.flag (R.CLM_CLIENT_CFG n) F.CLM_CLIENT_CFG_carrier then .B else .A
def State.cliPacket (s : State) (n : Nat) : Bool := s.flag (R.CLM_CLIENT_CFG n) F.CLM_CLIENT_CFG_kind
def State.cliPb (s : State) (n : Nat) : Nat := s.fld (R.CLM_CLIENT_CFG n) F.CLM_CLIENT_CFG_pb

/-- The slots of a client in the transmit map in force and in its receive berth (R257, R258). -/
def State.txSlots (s : State) (n : Nat) : Nat := mapSlots (s.txMap (s.cliCar n)) n
def State.rxSlots (s : State) (n : Nat) : Nat :=
  mapSlots (s.rxMap (s.cliCar n)) (s.fld (R.CLM_CLIENT_CFG n) F.CLM_CLIENT_CFG_rx_trib)

/-- The receive context of a client is squelched, shed or failing its tags (R298, R308, R311). -/
def State.rxSquelched (s : State) (n : Nat) : Bool :=
  s.flag (R.CPH_CLIENT_STATUS n) F.CPH_CLIENT_STATUS_rx_squelch || s.flag (R.CPH_CLIENT_STATUS n) F.CPH_CLIENT_STATUS_rx_fail
    || s.cph.shedRx.contains n

/-- The egress of a client sends local fault (R264, R266, R273). -/
def State.cliRepl (s : State) (n : Nat) : Bool :=
  let c := s.cliCar n
  s.clm.fault || s.brt.fault || s.flag (R.FRM_DEFECT c) F.FRM_DEFECT_repl || s.rxSquelched n
  || (s.carFamily c == 0 && s.rxSlots n == 0)
  || (s.cliPacket n && (s.brt.ctx[Fin.ofNat 64 (s.cliPb n)]).farFail)

/-- CLM_CLIENT_STATUS_c of one client follows the maps and the replacement. -/
def State.cliShow (n : Nat) (s : State) : State :=
  let a := R.CLM_CLIENT_STATUS n
  if s.cliOn n then
    ((s.setFld a F.CLM_CLIENT_STATUS_tx_slots (s.txSlots n)).setFld a F.CLM_CLIENT_STATUS_rx_slots (s.rxSlots n)).setFlag a
      F.CLM_CLIENT_STATUS_repl (s.cliRepl n)
  else ((s.setFld a F.CLM_CLIENT_STATUS_tx_slots 0).setFld a F.CLM_CLIENT_STATUS_rx_slots 0).setFlag a F.CLM_CLIENT_STATUS_repl false

/-- CLM_CLIENT_STATUS of every client follows the maps and the replacement. -/
def State.cliShowAll (s : State) : State := forN 128 State.cliShow s

/-- The conditions of Table FRM-6 that hold, in its order. -/
def State.frmConds (s : State) (c : Carrier) : List Bool :=
  let d := R.FRM_DEFECT c
  [s.flag d F.FRM_DEFECT_los, s.flag d F.FRM_DEFECT_oof, s.flag d F.FRM_DEFECT_lof, s.flag d F.FRM_DEFECT_oom || (s.frm c).calMis,
   s.flag d F.FRM_DEFECT_lom, s.flag d F.FRM_DEFECT_deg, s.flag d F.FRM_DEFECT_cph, (s.frm c).fault]

/-- Whether an action of Table FRM-6 is called for: some condition holds whose row says yes and whose enable bit is set. -/
def actionDue (conds yes : List Bool) (en : Nat) : Bool :=
  (conds.zip (yes.zip (List.range 8))).any (fun x => x.1 && x.2.1 && en / 2 ^ x.2.2 % 2 == 1)

/-- BDI is to be sent (Table FRM-6). -/
def State.bdiDue (s : State) (c : Carrier) : Bool :=
  s.fld (R.RXF_STATE c) F.RXF_STATE_state == 3
    && actionDue (s.frmConds c) [true, false, true, false, true, true, true, true] (s.fld (R.FRM_CA_CFG c) F.FRM_CA_CFG_bdi_en)

/-- The replacement toward the host is called for (Table FRM-6). -/
def State.replDue (s : State) (c : Carrier) : Bool :=
  s.fld (R.RXF_STATE c) F.RXF_STATE_state == 3
    && actionDue (s.frmConds c) [true, true, true, true, true, false, true, true] (s.fld (R.FRM_CA_CFG c) F.FRM_CA_CFG_repl_en)

/-- The replacement starts with its condition and ends at a frame boundary at which none holds (R243). -/
def State.frmActs (c : Carrier) (boundary : Bool) (s : State) : State :=
  let was := s.flag (R.FRM_DEFECT c) F.FRM_DEFECT_repl
  let now := s.replDue c || (was && !boundary)
  if now = was then s else (s.setFlag (R.FRM_DEFECT c) F.FRM_DEFECT_repl now).cliShowAll

/-! ### Hitless changes -/

/-- The hitless change writes the effective entropy itself (R94); a staged value that did not differ from it follows (DEDUCED: notes/assumptions/50.md). -/
def State.setEntropy (c : Carrier) (h64 : Nat) (s : State) : State :=
  let a := R.CAR_MODE c
  let same := fun (w : W32) => getBits F.CAR_MODE_h64 w == s.fld a F.CAR_MODE_h64
  let put := fun (l : List (Nat × W32)) (w : W32) => if same w then sparsePut regReset a (putBits F.CAR_MODE_h64 h64 w) l else l
  let s' := s.setFld a F.CAR_MODE_h64 h64
  { s' with regs := { s'.regs with com := put s.regs.com (s.committed a), stg := put s.regs.stg (s.staged a) } }

/-- A change as initiator ends without being done (R98, R101): how is 1 abandoned or 2 rejected. -/
def State.elwEnd (c : Carrier) (how reason : Nat) (s : State) : State :=
  match (s.frm c).change with
  | none => s
  | some x =>
    let a := R.FRM_ELW_STATUS c
    let s := s.setFrm c { s.frm c with change := none }
    let s := (s.setFld a F.FRM_ELW_STATUS_tx_state 0).setFlag a F.FRM_ELW_STATUS_abandoned true
    let s := if how = 2 then (s.setFlag a F.FRM_ELW_STATUS_rejected true).setFld a F.FRM_ELW_STATUS_reason reason else s
    let s := s.logEvent (carBlock c 5) sevWarn 0x0007 (evData [(1, x.msg.id), (1, reason)])
    s.endTicket x.ticket 0 (how + 16 * reason) x.first

/-- The responder disarms and returns to idle (R100). -/
def State.elwRxEnd (c : Carrier) (s : State) : State :=
  (s.setFld (R.FRM_ELW_STATUS c) F.FRM_ELW_STATUS_rx_state 0).setFrm c { s.frm c with prop := none, resp := elwIdle }

/-- A loss of signal, a loss of frame or a restart abandons a change before its commit phase, at either end (R101); the responder does not take up the PROPOSE
that it broke off. -/
def State.elwBreak (c : Carrier) (s : State) : State :=
  let a := R.FRM_ELW_STATUS c
  let s := if s.fld a F.FRM_ELW_STATUS_tx_state = 1 then s.elwEnd c 1 0 else s
  let rx := s.fld a F.FRM_ELW_STATUS_rx_state
  if rx = 1 ∨ rx = 2 then
    let id := (s.frm c).prop.map (·.id)
    let s := s.elwRxEnd c
    s.setFrm c { s.frm c with gone := id }
  else s

/-- RXF_x signals LOS or an engine fault to FRM_x, or the end of LOS (R150, R152). -/
def State.frmSignal (c : Carrier) (s : State) : State :=
  let los := s.flag (R.RXF_STATE c) F.RXF_STATE_los || (s.rx c).fault
  let s := s.setFlag (R.FRM_DEFECT c) F.FRM_DEFECT_los los
  let s := if los then s.elwBreak c else s
  s.frmActs c false

/-! ### The hail modem -/

/-- An enclave burst becomes ready (R211). -/
def State.hailEnclave (c : Carrier) (typ : Nat) (payload : List Byte) (s : State) : State :=
  s.setHail c { s.hail c with encl := (s.hail c).encl ++ [{ typ, fragIdx := 0, fragLast := 0, msgId := 0, payload, ticket := none }] }

/-- A change message of FRM_x becomes ready as a hail burst (R95, R229). -/
def State.hailFrm (c : Carrier) (typ : Nat) (payload : List Byte) (s : State) : State :=
  s.setHail c { s.hail c with frmq := (s.hail c).frmq ++ [{ typ, fragIdx := 0, fragLast := 0, msgId := 0, payload, ticket := none }] }

/-- The transmit condition (R204). -/
def State.hailTxNow (s : State) (c : Carrier) : Nat :=
  let st := s.fld (R.TXP_STATE c) F.TXP_STATE_state
  if st = 2 then 1 else if st = 3 ∧ s.carFamily c = 0 then 2 else 0

/-- A burst is being sent. -/
def State.hailBursting (s : State) (c : Carrier) : Bool := (s.hail c).cur.isSome

/-- The burst being sent is cut (R212). -/
def State.hailCut (c : Carrier) (s : State) : State :=
  match (s.hail c).cur with
  | none => s
  | some x =>
    let s := (s.setHail c { s.hail c with cur := none }).setFlag (R.HAIL_STATUS c) F.HAIL_STATUS_tx_cut true
    let s := s.logEvent (carBlock c 6) sevWarn 0x0004 (evData [(4, x.seq), (4, x.windows)])
    match x.burst.ticket.bind s.entryOf with
    | some e => s.complete e 0x06 0 0
    | none => s

/-- The transmit condition follows TXP_x; a windowed burst ends with SERVICE (R204, R212). -/
def State.hailTxCond (c : Carrier) (s : State) : State :=
  let n := s.hailTxNow c
  let s := if n ≠ 2 ∧ ((s.hail c).cur.any (·.windowed)) then s.hailCut c else s
  let s := if n = 1 then s else s.setHail c { s.hail c with tail := none }
  s.setFld (R.HAIL_STATE c) F.HAIL_STATE_tx_cond n

/-- A window of the hail channel has carried symbols of the burst being sent. -/
def State.hailWindow (c : Carrier) (s : State) : State :=
  s.setHail c { s.hail c with cur := (s.hail c).cur.map (fun x => { x with windows := x.windows + b2n x.windowed }) }

/-- LOS abandons a reception without counting it as lost (R220). -/
def State.hailSignalLost (c : Carrier) (s : State) : State := s.hailAbandon c

/-- The dispersion search moves to its next hypothesis (R141); after the last comes the first. -/
def State.hailNextHyp (c : Carrier) (s : State) : State :=
  let h := s.fld (R.RXF_STATE c) F.RXF_STATE_hyp
  (s.setFld (R.RXF_STATE c) F.RXF_STATE_hyp (if 10 ≤ h then 0 else h + 1)).setFlag (R.RXF_STATE c) F.RXF_STATE_hail_cd_found false

/-! ### SERVICE of a carrier -/

/-- What CPH keeps of a carrier. -/
def State.cphCar (s : State) : Carrier → CphCarrier
  | .A => s.cph.carA
  | .B => s.cph.carB

/-- Replace it. -/
def State.setCphCar (c : Carrier) (x : CphCarrier) (s : State) : State :=
  match c with
  | .A => { s with cph := { s.cph with carA := x } }
  | .B => { s with cph := { s.cph with carB := x } }

/-- A key slot by client, direction (0 transmit, 1 receive) and epoch parity: the context number 8c + 4d + e (R306, R502). -/
def ctxNo (client dir e : Nat) : Nat := 8 * client + 4 * dir + e

/-- The active slot of a client and direction, with its context number. -/
def State.activeSlot (s : State) (n dir : Nat) : Option (Nat × CphSlot) :=
  s.cph.slots.find? (fun p => p.1 / 4 == 2 * n + dir && p.2.act)

/-- CPH_CLIENT_STATUS_c shows a client's active slots and whether ready ones exist. -/
def State.cphShow (n : Nat) (s : State) : State :=
  let a := R.CPH_CLIENT_STATUS n
  let ready := fun d => s.cph.slots.any (fun p => p.1 / 4 == 2 * n + d && !p.2.act)
  let one := fun d slot act next (s : State) =>
    let s := match s.activeSlot n d with
      | some (k, _) => (s.setFld a slot (k % 4)).setFlag a act true
      | none => (s.setFld a slot 0).setFlag a act false
    s.setFlag a next (ready d)
  one 1 F.CPH_CLIENT_STATUS_rx_slot F.CPH_CLIENT_STATUS_rx_active F.CPH_CLIENT_STATUS_rx_next
    (one 0 F.CPH_CLIENT_STATUS_tx_slot F.CPH_CLIENT_STATUS_tx_active F.CPH_CLIENT_STATUS_tx_next s)

/-- Every context of a direction of a carrier's clients is erased (R307). -/
def State.cphErase (c : Carrier) (dir : Nat) (s : State) : State :=
  let gone := fun (p : Nat × CphSlot) => p.1 / 4 % 2 == dir && decide (s.cliCar (p.1 / 8) = c)
  let hit := (s.cph.slots.filter gone).map (fun p => p.1 / 8)
  let s := { s with cph := { s.cph with slots := s.cph.slots.filter (fun p => !gone p) } }
  hit.foldl (fun s n => s.cphShow n) s

/-- Root cycles in a generator second (R383). -/
def genSecond : Nat := 9000000000

/-- The carrier of a superframe output, and superframes that it has begun in this SERVICE. -/
def outCarrier (k : Fin 4) : Carrier := if k.val = 2 then .A else .B
def sfOut (c : Carrier) : Fin 4 := if c = .A then 2 else 3
def State.outSfs (s : State) (k : Fin 4) : Nat := (s.tx (outCarrier k)).line.sfs

/-- Generator seconds plus o_k that have come (R384), the one at count 0 being the first. -/
def State.secondsDue (s : State) (k : Fin 4) : Nat :=
  (((s.ref.sec + 1) * genSecond + s.ref.gen : Nat) - signed 64 (s.reg64 (R.REF_OUT_OFS_LO k.val))).toNat / genSecond

/-- An output comes on: pulses that lie behind are not sent. -/
def State.outStart (k : Fin 4) (s : State) : State :=
  { s with ref := { s.ref with sent := s.ref.sent.set k (s.secondsDue k), sfSent := s.ref.sfSent.set k (s.outSfs k) } }

/-- A superframe begins (R384): in mode 2 the output owes a pulse for it only if a second plus o_k has come that it has not answered. -/
def State.outSuperframe (k : Fin 4) (s : State) : State :=
  if s.fld (R.REF_OUT_CFG k.val) F.REF_OUT_CFG_mode = 2 ∧ s.secondsDue k ≤ s.ref.sent[k] then
    { s with ref := { s.ref with sfSent := s.ref.sfSent.set k (s.outSfs k) } }
  else s

/-- TXP_x enters SERVICE (R92, R105, R226, R234, R303): the line, the framer, the calendar and F_tx start anew, the encoder runs. -/
def State.txServiceStart (c : Carrier) (s : State) : State :=
  let h := s.fld (R.CAR_MODE c) F.CAR_MODE_h64
  let s := s.setTx c { s.tx c with line := { lineReset with entropy := [(0, h)] } }
  let s := s.setFrm c { s.frm c with txStarted := false, txAcc := 0, txSlot := 0, txH64 := h }
  let s := s.setFld (R.FRM_MF_COUNT c) F.FRM_MF_COUNT_tx_mf 0
  let s := s.setCphCar c { s.cphCar c with ftx := 0, tags := [] }
  let s := s.outStart (sfOut c)
  (s.setFlag (R.FEC_STATE c) F.FEC_STATE_enc_run true).elwBreak c

/-- TXP_x leaves SERVICE (R101, R307); a change in its commit phase is abandoned (DESIGN CHOICE: notes/assumptions/13.md). -/
def State.txServiceEnd (c : Carrier) (s : State) : State :=
  let s := (s.setFlag (R.FEC_STATE c) F.FEC_STATE_enc_run false).elwBreak c
  let s := if s.fld (R.FRM_ELW_STATUS c) F.FRM_ELW_STATUS_tx_state = 2 then s.elwEnd c 1 0 else s
  s.cphErase c 0

/-- The deframer starts anew (R236, R238): out of frame, nothing received. -/
def State.frmRxRestart (c : Carrier) (s : State) : State :=
  let s := s.setFrm c { s.frm c with
    cands := [], badFas := 0, rxMfas := none, goodMf := 0, badMf := 0, rxMap0 := [], rxMap1 := [], rxAcc := 0, rxSlot := 0, prop := none,
    initMsg := elwIdle, respMsg := elwIdle, calMis := false, bdiRun := 0, bdiClr := 0, bsdRun := 0, bsdClr := 0, bipSum := 0, badBlocks := 0,
    mfWhole := false, degRun := 0, cleanRun := 0, oofFrames := 0, bei := 0, rxPar := none }
  let s := s.setReg (R.FRM_STATE c) 0
  let s := s.setFld (R.FRM_MF_COUNT c) F.FRM_MF_COUNT_rx_mf 0
  let keep := s.reg (R.FRM_DEFECT c) &&& F.FRM_DEFECT_bdi_tx.mask
  s.setReg (R.FRM_DEFECT c) (keep ||| F.FRM_DEFECT_oof.mask ||| F.FRM_DEFECT_oom.mask)

/-- RXF_x enters SERVICE. -/
def State.rxServiceStart (c : Carrier) (s : State) : State :=
  let s := (s.elwBreak c).frmRxRestart c
  let h := s.fld (R.CAR_MODE c) F.CAR_MODE_h64
  let s := (s.setFrm c { s.frm c with rxH64 := h }).setFec c { s.fec c with h64 := h, next := none }
  let s := s.setCphCar c { s.cphCar c with frx := 0, frxSet := false, failFrames := 0, okNow := 0, badNow := 0 }
  (s.frmSignal c).cliShowAll

/-- RXF_x leaves SERVICE (R101, R307); an armed responder returns to idle (DESIGN CHOICE: notes/assumptions/13.md). -/
def State.rxServiceEnd (c : Carrier) (s : State) : State :=
  let s := ((s.elwBreak c).frmRxRestart c).cphErase c 1
  let s := if s.fld (R.FRM_ELW_STATUS c) F.FRM_ELW_STATUS_rx_state = 3 then s.setFld (R.FRM_ELW_STATUS c) F.FRM_ELW_STATUS_rx_state 0 else s
  s.cliShowAll

end Sys2Proof.Machine
end

