-- ==== Sys2Proof/Machine/Tx.lean ====
section
/-! DEFINITION. The transmit path (TXP_x): states and muting (R104 to R108), coefficient banks (R119, R120, R122), captures,
superframe boundaries (R89, R121), underrun and faults (R127, R128). -/
namespace Sys2Proof.Machine

/-- The transmit state of Table TXP-3. -/
def State.txState (s : State) (c : Carrier) : Nat := s.fld (R.TXP_STATE c) F.TXP_STATE_state

/-- The block ID of TXP_x. -/
def txpId (c : Carrier) : Nat := carBlock c 0

/-- The queue of TXP_x. -/
def txpQ (c : Carrier) : Fin 64 := carQueue c 0

/-- The effective nlc_en, nlc_bank and fir_bank are shown in TXP_STATE_x. -/
def State.txMirror (c : Carrier) (s : State) : State :=
  ((s.setFld (R.TXP_STATE c) F.TXP_STATE_nlc_active (s.fld (R.TXP_CTRL c) F.TXP_CTRL_nlc_en)).setFld (R.TXP_STATE c)
    F.TXP_STATE_nlc_bank (s.fld (R.TXP_CTRL c) F.TXP_CTRL_nlc_bank)).setFld (R.TXP_STATE c)
    F.TXP_STATE_fir_bank (s.fld (R.TXP_CTRL c) F.TXP_CTRL_fir_bank)

/-- Every started entry of a queue with an opcode completes with status 0, at most n. -/
def State.completeOps (q : Fin 64) (op : Nat) : Nat → State → State
  | 0, s => s
  | n + 1, s => (s.completeOp q op 0 0 0).completeOps q op n

/-- The unmutes that waited take effect (R108, R129).  One that a mute or an engine fault overtook completes here too, the carrier staying muted (DESIGN
CHOICE: notes/assumptions/94.md). -/
def State.txUnmute (c : Carrier) (s : State) : State :=
  let a := R.TXP_STATE c
  let s := if s.flag a F.TXP_STATE_unmute_pending then
      ((s.setFlag a F.TXP_STATE_unmute_pending false).setFlag a F.TXP_STATE_muted (s.tx c).fault)
    else s
  s.completeOps (txpQ c) 0x101 (s.queue (txpQ c)).entries.length

/-- A transmit state takes effect (R104, R107): its consequences for the framer, the cipher and the hail modem follow; an unmute
that waited for a boundary takes effect where there are no superframes (R108). -/
def State.txEnter (c : Carrier) (t : Nat) (s : State) : State :=
  let old := s.txState c
  let s := s.setFld (R.TXP_STATE c) F.TXP_STATE_state t
  let s := if old = 3 ∧ t ≠ 3 then s.txServiceEnd c else s
  let s := if old ≠ 3 ∧ t = 3 then s.txServiceStart c else s
  let s := (s.hailTxCond c).anlMoved true c t (t == 3)
  if t = 3 then s else s.txUnmute c

/-- The status that a TX_SET_STATE to t ends with at once (Table TXP-8, R105, R116). -/
def State.txStateCheck (s : State) (c : Carrier) (d : Desc) : Option Nat :=
  let t := d.arg0 % 8
  if d.unit ≠ 0xFF ∨ 5 ≤ t then some 0x02
  else if t = 4 ∧ 4 ≤ s.fld (R.TXP_CTRL c) F.TXP_CTRL_test_sel then some 0x02
  else if t = 3 ∧ (s.fld (R.CAR_MODE_STATUS c) F.CAR_MODE_STATUS_mode_err ≠ 0 ∨ s.stagedDiff (R.CAR_MODE c)) then some 0x06
  else none

/-- TX_SET_STATE (R104): refused, in effect at once, or started and waiting for the DACs, the superframe or the burst.  It waits
while an earlier one is still to take effect (DEDUCED from R72: notes/assumptions/23.md). -/
def execTxSetState (c : Carrier) (s : State) : Out :=
  .next (if (s.startedOp (txpQ c) 0x100).isSome then s else s.runCommand (txpQ c) 0x100 (fun d s =>
    match s.txStateCheck c d with
    | some st => (some (st, 0, 0), s)
    | none =>
      let t := d.arg0 % 8
      let old := s.txState c
      if old = 0 ∧ t ≠ 0 then
        (none, (((s.setFld (R.TXP_STATE c) F.TXP_STATE_state 1).setTx c { s.tx c with settling := true }).anlLeaveOff true c))
      else if old = 3 ∧ t ≠ 3 then (none, s)
      else if old = 2 ∧ t ≠ 2 ∧ s.hailBursting c then (none, s)
      else (some (0, t, s.time.devtime.toNat), s.txEnter c t)))

/-- The waiting TX_SET_STATE takes effect and completes. -/
def State.txStateDone (c : Carrier) (s : State) : State :=
  match s.startedOp (txpQ c) 0x100 with
  | some e => (s.txEnter c (e.desc.arg0 % 8)).complete e 0 (e.desc.arg0 % 8) s.time.devtime.toNat
  | none => s

/-- The DACs have settled and the target state is entered (R104). -/
def execTxDacSettled (c : Carrier) (s : State) : Out :=
  .next (if (s.tx c).settling then (s.setTx c { s.tx c with settling := false }).txStateDone c else s)

/-- TX_MUTE (R108): muting acts at once; unmuting waits for the next superframe in SERVICE.  An engine fault keeps the carrier
muted (R128), and an unmute then ends with status 0x05. -/
def execTxMute (c : Carrier) (s : State) : Out :=
  .next (s.runCommand (txpQ c) 0x101 (fun d s =>
    let a := R.TXP_STATE c
    if d.unit ≠ 0xFF then (some (0x02, 0, 0), s)
    else if d.arg0 % 2 = 1 then
      (some (0, 0, 0), (s.setFlag a F.TXP_STATE_muted true).setFlag a F.TXP_STATE_unmute_pending false)
    else if (s.tx c).fault then (some (0x05, 0, 0), s)
    else if s.txState c = 3 ∧ s.flag a F.TXP_STATE_muted then (none, s.setFlag a F.TXP_STATE_unmute_pending true)
    else (some (0, 0, 0), s.setFlag a F.TXP_STATE_muted false)))

/-- The 16-bit words of a buffer. -/
def State.words16 (s : State) (a n : Nat) : List W16 := (List.range n).map (fun i => BitVec.ofNat 16 (s.load (a + 2 * i) 2))

/-- TX_LOAD_FIR (R122): 64 coefficients for one lane or for all four, into a bank that is not active. -/
def execTxLoadFir (c : Carrier) (s : State) : Out :=
  .next (s.runCommand (txpQ c) 0x102 (fun d s =>
    let bank := d.arg1 % 2
    let lanes := if d.unit = 0xFF then [0, 1, 2, 3] else [d.unit]
    if (4 ≤ d.unit ∧ d.unit ≠ 0xFF) ∨ bufferOk d.arg0 (128 * lanes.length) = false then (some (0x02, 0, 0), s)
    else if s.fld (R.TXP_STATE c) F.TXP_STATE_fir_bank = bank then (some (0x06, 0, 0), s)
    else
      let put := fun (f : Vector (List W16) 8) (p : Nat × Nat) => f.set (Fin.ofNat 8 (2 * p.1 + bank)) (s.words16 (d.arg0 + 128 * p.2) 64)
      (some (0, 0, 0), s.setTx c { s.tx c with fir := (lanes.zip (List.range 4)).foldl put (s.tx c).fir })))

/-- The pre-compensation entries of a buffer (Table TXP-5). -/
def State.nlcEntries (s : State) (a n : Nat) : List NlcEntry :=
  (List.range n).map (fun i => { m := s.byte (a + 8 * i), n := s.byte (a + 8 * i + 1)
                                 re := BitVec.ofNat 16 (s.load (a + 8 * i + 4) 2), im := BitVec.ofNat 16 (s.load (a + 8 * i + 6) 2) })

/-- An entry's indices lie from -63 to +63 (R119). -/
def NlcEntry.ok (e : NlcEntry) : Bool := -63 ≤ e.m.toInt && e.m.toInt ≤ 63 && -63 ≤ e.n.toInt && e.n.toInt ≤ 63

/-- TX_LOAD_NLC (R119, R120): a whole bank is replaced, or nothing is. -/
def execTxLoadNlc (c : Carrier) (s : State) : Out :=
  .next (s.runCommand (txpQ c) 0x103 (fun d s =>
    let n := d.arg1 % 8192
    let bank := d.arg1 / 65536 % 2
    let es := s.nlcEntries d.arg0 n
    if d.unit ≠ 0xFF ∨ n = 0 ∨ 4096 < n ∨ bufferOk d.arg0 (8 * n) = false ∨ es.all NlcEntry.ok = false then (some (0x02, 0, 0), s)
    else if s.fld (R.TXP_STATE c) F.TXP_STATE_nlc_bank = bank then (some (0x06, 0, 0), s)
    else if bank = 0 then
      (some (0, n, 0), (s.setTx c { s.tx c with nlc0 := es }).setFld (R.TXP_NLC_STATUS c) F.TXP_NLC_STATUS_count0 n)
    else (some (0, n, 0), (s.setTx c { s.tx c with nlc1 := es }).setFld (R.TXP_NLC_STATUS c) F.TXP_NLC_STATUS_count1 n)))

/-- The input of the DACs is 0: muted, IDLE, or test pattern 3 (Tables TXP-3, TXP-4, R108). -/
def State.txSilent (s : State) (c : Carrier) : Bool :=
  s.flag (R.TXP_STATE c) F.TXP_STATE_muted || s.txState c == 1
    || (s.txState c == 4 && s.fld (R.TXP_CTRL c) F.TXP_CTRL_test_sel == 3)

/-- The active pre-compensation bank (R118, R120). -/
def State.nlcBank (s : State) (c : Carrier) : List NlcEntry :=
  if s.flag (R.TXP_CTRL c) F.TXP_CTRL_nlc_bank then (s.tx c).nlc1 else (s.tx c).nlc0

/-- What the transmit stages are set to (R103). -/
def State.txStages (s : State) (c : Carrier) : TxStages where
  nlc := if s.flag (R.TXP_CTRL c) F.TXP_CTRL_nlc_en then some (s.nlcBank c, s.fld (R.TXP_NLC_CFG c) F.TXP_NLC_CFG_scale) else none
  roll := s.fld (R.CAR_MODE c) F.CAR_MODE_roll
  rs8 := s.carRs8 c
  trims := [s.fldS (R.TXP_IQ_TRIM_X c) F.TXP_IQ_TRIM_X_iq_gain, s.fldS (R.TXP_IQ_TRIM_X c) F.TXP_IQ_TRIM_X_iq_phase,
    s.fldS (R.TXP_IQ_TRIM_Y c) F.TXP_IQ_TRIM_Y_iq_gain, s.fldS (R.TXP_IQ_TRIM_Y c) F.TXP_IQ_TRIM_Y_iq_phase,
    s.fldS (R.TXP_XY_TRIM c) F.TXP_XY_TRIM_xy_gain, s.fldS (R.TXP_XY_TRIM c) F.TXP_XY_TRIM_xy_phase]
  fir := fun lane => (s.tx c).fir[Fin.ofNat 8 (2 * lane + s.fld (R.TXP_CTRL c) F.TXP_CTRL_fir_bank)]
  skew := fun lane => s.fldS (R.TXP_SKEW c lane) F.TXP_SKEW_skew
  rms := fun lane => s.fld (R.TXP_DAC_CFG c lane) F.TXP_DAC_CFG_rms_code

/-- The burst that the hail channel sends, or begins next: the first ready source of R211, IDLE in the continuous condition. -/
def State.hailSending (s : State) (c : Carrier) : Option HailCur :=
  let h := s.hail c
  let cond := s.hailTxNow c
  if h.cur.isSome then h.cur
  else if h.fault ∨ cond = 0 then none
  else
    let idle : List HailBurst := if cond = 1 then [{ typ := 0, fragIdx := 0, fragLast := 0, msgId := 0, payload := [], ticket := none }] else []
    (h.encl ++ h.frmq ++ h.fifo ++ idle).head?.map (fun b =>
      let seq := s.fld (R.HAIL_SEQ c) F.HAIL_SEQ_tx_seq
      { burst := b, seq := if b.typ = 0 then seq else (seq + 1) % 256, start := s.time.devtime, windowed := cond == 2, windows := 0 })

/-- The symbol bits of a burst on X and Y: its header and payload coded (R205 to R210). -/
def HailCur.bits (x : HailCur) : List (Bool × Bool) :=
  let b := x.burst
  hailBits x.windowed (hailHeader b.typ x.seq b.payload.length b.fragIdx b.fragLast b.msgId) b.payload

/-- The levels of symbols on X or Y (R205). -/
def hailLevels (y : Bool) (l : List (Bool × Bool)) : List Int := l.map (fun b => bitSign (if y then b.2 else b.1))

/-- Sample n of the continuous hail waveform, on X and Y alike (R205, R206, R211), from now on: bursts follow one another with no gap, each beginning with a
preamble bit 1; the last symbol of the burst before stands ahead of the present one's. -/
def State.hailAir (s : State) (c : Carrier) (n : Nat) : Int :=
  match s.hailSending c with
  | none => 0
  | some x =>
    let past := ((s.time.devtime - x.start).toNat * 288 + 9) / 10
    let before := ((s.hail c).tail.map bitSign).toList
    let after := if (s.startedOp (txpQ c) 0x100).isSome then [] else [bitSign true]
    hailSample (before ++ hailLevels false x.bits ++ after) 144 1 (144 * before.length + past + n)

/-- Sample n of the hail window of the superframe that begins (R115, R206): the next window of a windowed burst. -/
def State.hailInWindow (s : State) (c : Carrier) (y : Bool) (n : Nat) : Int :=
  match s.hailSending c with
  | some x => if x.windowed then windowSample (s.carRs8 c) (hailLevels y (((hailWindows x.bits).getD x.windows []).filterMap id)) n else 0
  | none => 0

/-- n codes at the input of a lane's DAC (R116, R121 to R125): zeros where that is 0; the superframe that begins, in SERVICE; the hail waveform; a test pattern,
whose phase is a free value.  The line of an interoperable family has no layout in the spec: its codes are free values. -/
def State.dacCodes (s : State) (c : Carrier) (lane n : Nat) : List Byte × State :=
  let k := s.txStages c
  let pass := fun (x y : Nat → Cplx) => (List.range n).map (fun i => codeByte (laneStage k x y lane i))
  let sel := s.fld (R.TXP_CTRL c) F.TXP_CTRL_test_sel
  if s.txSilent c then (List.replicate n 0, s)
  else if s.txState c = 2 then (pass (fun i => (s.hailAir c i, 0)) (fun i => (s.hailAir c i, 0)), s)
  else if s.txState c = 3 then
    if s.carFamily c = 0 then
      let at_ := (s.tx c).line.sfs * sfLen
      let sym := fun y (i : Int) => ((s.tx c).line.sym (s.carBase c) (s.carRate c) y i).fix
      (pass (shapeStage k at_ (sym false) (sym true) (s.hailInWindow c false)) (shapeStage k at_ (sym true) (sym false) (s.hailInWindow c true)), s)
    else
      let (l, s) := s.drawBytes n
      (l.map (fun b => codeByte b.toInt), s)
  else
    let (w, s) := s.draw
    if sel = 2 then ((prbs7Codes lane (w.toNat % 127 + n)).drop (w.toNat % 127), s)
    else
      let sym := fun y (i : Int) => (testSym sel y i.toNat).fix
      (pass (shapeStage k w.toNat (sym false) (sym true) (fun _ => 0)) (shapeStage k w.toNat (sym true) (sym false) (fun _ => 0)), s)

/-- Write n captured codes of a lane to a buffer (Table TXP-8). -/
def State.txCapture (c : Carrier) (lane a n : Nat) (s : State) : State :=
  let (l, s) := s.dacCodes c lane n
  s.setBytes a l

/-- TX_CAPTURE (Table TXP-8): at once, or from the next superframe in SERVICE, this one or a later one if it is left first (DESIGN CHOICE:
notes/assumptions/94.md). -/
def execTxCapture (c : Carrier) (s : State) : Out :=
  .next (s.runCommand (txpQ c) 0x104 (fun d s =>
    let n := d.arg1 % 16384
    if 4 ≤ d.unit ∨ n = 0 ∨ 8192 < n ∨ bufferOk d.arg0 n = false then (some (0x02, 0, 0), s)
    else if s.txState c = 0 then (some (0x06, 0, 0), s)
    else if s.txState c = 3 then (none, s)
    else (some (0, s.cnt (R.TXP_SF_CNT c), 0), s.txCapture c d.unit d.arg0 n)))

/-- The captures that waited for a superframe record it and complete. -/
def State.txCapturesDue (c : Carrier) : Nat → State → State
  | 0, s => s
  | n + 1, s =>
    match s.startedOp (txpQ c) 0x104 with
    | some e => ((s.txCapture c e.desc.unit e.desc.arg0 (e.desc.arg1 % 16384)).complete e 0 (s.cnt (R.TXP_SF_CNT c)) 0).txCapturesDue c n
    | none => s

/-- Samples and perturbations that were limited (R118, R125): none is where the DAC input is 0 all along, or where nothing is added to the symbols. -/
def State.txLimited (c : Carrier) (clips : Nat) (nlcSat : Bool) (s : State) : State :=
  let s := if clips = 0 ∨ (s.tx c).sounding = false then s
    else (s.addCnt (R.TXP_CLIP_CNT c) clips).setFlag (R.TXP_STATUS c) F.TXP_STATUS_clip true
  if nlcSat ∧ s.flag (R.TXP_CTRL c) F.TXP_CTRL_nlc_en ∧ s.nlcBank c ≠ [] then s.setFlag (R.TXP_STATUS c) F.TXP_STATUS_nlc_sat true else s

/-- A superframe begins (R89, R129): captures record it, it is counted, and the superframe output may owe a pulse for it (R384). -/
def State.txSuperframe (c : Carrier) (s : State) : State :=
  let s := s.addCnt (R.TXP_SF_CNT c) 1
  let s := s.txCapturesDue c (s.queue (txpQ c)).entries.length
  let x := (s.tx c).line
  let s := s.setTx c { s.tx c with line := { x with sfs := x.sfs + 1 }, sounding := !s.flag (R.TXP_STATE c) F.TXP_STATE_muted }
  s.outSuperframe (sfOut c)

/-- A transmit superframe boundary in SERVICE (R89, R104, R108, R121): the annealer's selection and then the staged set apply (R124); a state change that
waited takes effect, or an unmute does, the superframe is counted, captures record it, and ATBOUND commands may start. -/
def execTxSuperframeBoundary (c : Carrier) (clips : Nat) (nlcSat : Bool) (s : State) : Out :=
  if s.txState c ≠ 3 then .next s
  else
    let s := (s.txLimited c clips nlcSat).hailWindow c
    let s := ((s.anlBoundary true c).applyBoundary .txSf c).txMirror c
    if (s.startedOp (txpQ c) 0x100).isSome then .next (s.txStateDone c)
    else .next ((((s.txUnmute c).txSuperframe c).armBoundary (txpQ c)).releaseWaiters)

/-- Samples limited where there are no superframes, in HAIL and TEST, in one crystal cycle: a free number of the 4 times 5,760 that the lanes pass
(R125). -/
def State.txIdleClips (c : Carrier) (s : State) : State :=
  if (s.txState c = 2 ∨ s.txState c = 4) ∧ s.txSilent c = false then
    let (w, s) := s.draw
    let n := w.toNat % 23041
    if n = 0 then s else (s.addCnt (R.TXP_CLIP_CNT c) n).setFlag (R.TXP_STATUS c) F.TXP_STATUS_clip true
  else s

/-- The block that is missing when one comes late (R127, R197): the oldest that the encoder withheld, else the first that begins after the superframes begun
(DESIGN CHOICE: notes/assumptions/94.md). -/
def State.lateBlock (s : State) (c : Carrier) : Nat :=
  let x := (s.tx c).line
  let n := fecNs (s.carBase c)
  x.withheld.getD 0 (max ((x.sfs * sfData + n - 1) / n) ((x.replaced.map (· + 1)).foldl max 0))

/-- A block came late and a block of zeros with valid parity is sent in its place (R127): TxLine.blockBits takes it so.  No event table gives the WARN event's
code: a free value. -/
def execTxUnderrun (c : Carrier) (s : State) : Out :=
  if s.txState c ≠ 3 then .next s
  else
    let x := (s.tx c).line
    let s := s.setTx c { s.tx c with line := { x with withheld := x.withheld.drop 1, replaced := s.lateBlock c :: x.replaced } }
    let s := (s.addCnt (R.TXP_UNDERRUN_CNT c) 1).setFlag (R.TXP_STATUS c) F.TXP_STATUS_underrun true
    .next (s.logOpen (txpId c) sevWarn)

/-- A TXP engine fault (R128): the carrier is muted, its state is left (R107).  No event table gives the event's code: a free value. -/
def execTxpEngineFault (c : Carrier) (s : State) : Out :=
  let s := s.setTx c { s.tx c with fault := true }
  let s := (s.setFlag (R.TXP_STATUS c) F.TXP_STATUS_engine_fault true).setFlag (R.TXP_STATE c) F.TXP_STATE_muted true
  .next (s.logOpen (txpId c) sevFault)

end Sys2Proof.Machine
end

