-- ==== Sys2Proof/Machine/Rx.lean ====
section
/-! DEFINITION. The receive front end (RXF_x): states (R146 to R148), dispersion search and scan (R139 to R142), timing and
superframe locks (R144, R145), loss of signal and reacquisition (R149 to R151), faults (R152). -/
namespace Sys2Proof.Machine

/-- CD_max of R139 in units of 10 ps/nm, rounded down: 20,000 × (256/Rs)² ps/nm, at most 100,000. -/
def State.cdMax (s : State) (c : Carrier) : Nat :=
  let rs8 := s.symRs8 c
  if rs8 = 0 then 10000 else min 10000 (2000 * 2048 * 2048 / (rs8 * rs8))

/-- The receive acquisition step of R151. -/
def State.rxAcq (s : State) (c : Carrier) : Nat := s.fld (R.RXF_STATE c) F.RXF_STATE_acq

/-- LOS in effect. -/
def State.rxLos (s : State) (c : Carrier) : Bool := s.flag (R.RXF_STATE c) F.RXF_STATE_los

/-- Drop both locks of the receiver. -/
def State.rxUnlock (c : Carrier) (s : State) : State :=
  let s := ((s.setFlag (R.RXF_STATE c) F.RXF_STATE_tr_lock false).setFlag (R.RXF_STATE c) F.RXF_STATE_sf_lock false).setRx c
    { s.rx c with peak := false }
  s.anlMoved false c (s.fld (R.RXF_STATE c) F.RXF_STATE_state) false

/-- A fine scan begins (R142): about a start value its window is ±20,000 ps/nm, else all of ±CD_max; it is clipped to that. -/
def State.cdScan (c : Carrier) (about : Option Int) (s : State) : State :=
  let m : Int := s.cdMax c
  let w := match about with
    | some v => (clampI (-m) m (v - 2000), clampI (-m) m (v + 2000))
    | none => (-m, m)
  (s.setRx c { s.rx c with scanLo := w.1, scanHi := w.2 }).setAcq c 1

/-- The CD scan of an acquisition begins (R140): mode 2 uses cd_set without a scan and goes on to timing recovery. -/
def State.cdStart (c : Carrier) (s : State) : State :=
  let mode := s.fld (R.RXF_CD_CFG c) F.RXF_CD_CFG_cd_mode
  let set := s.fldS (R.RXF_CD_CFG c) F.RXF_CD_CFG_cd_set
  let m : Int := s.cdMax c
  let lim := clampI (-m) m set
  let s := if (mode = 2 ∨ mode = 3) ∧ lim ≠ set then s.setFlag (R.RXF_STATUS c) F.RXF_STATUS_cd_edge true else s
  match mode with
  | 0 => s.cdScan c none
  | 1 => s.cdScan c (if s.flag (R.RXF_STATE c) F.RXF_STATE_hail_cd_found then some (s.fldS (R.RXF_CD_STATUS c) F.RXF_CD_STATUS_cd_hail) else none)
  | 2 => (s.setFldS (R.RXF_CD_STATUS c) F.RXF_CD_STATUS_cd_est lim).setAcq c 2
  | _ => s.cdScan c (some lim)

/-- After a missed COMMIT the acquisition tries the accepted entropy first, then the old one, in turn (R100). -/
def State.rxTryNext (c : Carrier) (s : State) : State :=
  match (s.frm c).rxTry with
  | some h => (s.setFrm c { s.frm c with rxTry := some (s.frm c).rxH64, rxH64 := h }).setFec c { s.fec c with h64 := h, next := none }
  | none => s

/-- An acquisition starts (R151): step 1 under cd_mode; the equaliser starts from centre-spike taps (R160, R164). -/
def State.acqStart (c : Carrier) (s : State) : State :=
  let s := s.rxStreamInvalid c
  let s := s.rxUnlock c
  let s := s.setRx c { s.rx c with phase := 0, stopped := 0, peak := false }
  let s := ((s.eqAcquire c).rxTryNext c).cdStart c
  if s.rxLos c then s.setRx c { s.rx c with stopped := s.rxAcq c } else s

/-- A receive state takes effect (R146).  The dispersion search of HAIL starts at its first hypothesis, with nothing found (DESIGN CHOICE:
notes/assumptions/98.md). -/
def State.rxEnter (c : Carrier) (t : Nat) (s : State) : State :=
  let old := s.fld (R.RXF_STATE c) F.RXF_STATE_state
  let s := s.setFld (R.RXF_STATE c) F.RXF_STATE_state t
  let s := if old = 3 ∧ t ≠ 3 then (((s.rxStreamInvalid c).rxUnlock c).setAcq c 0).rxServiceEnd c else s
  let s := if t = 2 ∧ old ≠ 2 then
      (s.setFlag (R.RXF_STATE c) F.RXF_STATE_hail_cd_found false).setFld (R.RXF_STATE c) F.RXF_STATE_hyp 0
    else s
  let s := if t = 0 then
      (s.setFlag (R.RXF_STATE c) F.RXF_STATE_los false).setRx c { s.rx c with below := 0, above := 0 }
    else s
  let s := (s.hailRxCond c).anlMoved false c t (s.flag (R.RXF_STATE c) F.RXF_STATE_sf_lock)
  if t = 3 ∧ old ≠ 3 then (s.rxServiceStart c).acqStart c else s

/-- The status that an RX_SET_STATE ends with at once (Table RXF-7, R148). -/
def State.rxStateCheck (s : State) (c : Carrier) (d : Desc) : Option Nat :=
  let t := d.arg0 % 8
  if d.unit ≠ 0xFF ∨ 5 ≤ t then some 0x02
  else if t = 3 ∧ (s.fld (R.CAR_MODE_STATUS c) F.CAR_MODE_STATUS_mode_err ≠ 0 ∨ s.stagedDiff (R.CAR_MODE c)) then some 0x06
  else none

/-- RX_SET_STATE (R146): refused, in effect at once, or started and waiting for the ADCs on the way out of OFF. -/
def execRxSetState (c : Carrier) (s : State) : Out :=
  .next (if (s.startedOp (rxfQ c) 0x100).isSome then s else s.runCommand (rxfQ c) 0x100 (fun d s =>
    match s.rxStateCheck c d with
    | some st => (some (st, 0, 0), s)
    | none =>
      let t := d.arg0 % 8
      if s.fld (R.RXF_STATE c) F.RXF_STATE_state = 0 ∧ t ≠ 0 then
        (none, (s.rxEnter c 1).setRx c { (s.rxEnter c 1).rx c with settling := true } |>.anlLeaveOff false c)
      else (some (0, t, s.time.devtime.toNat), s.rxEnter c t)))

/-- The ADC bias has settled and the target state is entered (R146). -/
def execRxAdcSettled (c : Carrier) (s : State) : Out :=
  .next (if (s.rx c).settling then
      let s := s.setRx c { s.rx c with settling := false }
      match s.startedOp (rxfQ c) 0x100 with
      | some e => (s.rxEnter c (e.desc.arg0 % 8)).complete e 0 (e.desc.arg0 % 8) s.time.devtime.toNat
      | none => s
    else s)

/-- RX_REACQUIRE (R151): an acquisition starts from step 1. -/
def execRxReacquire (c : Carrier) (s : State) : Out :=
  .next (s.runCommand (rxfQ c) 0x101 (fun d s =>
    if d.unit ≠ 0xFF then (some (0x02, 0, 0), s)
    else if s.fld (R.RXF_STATE c) F.RXF_STATE_state ≠ 3 then (some (0x06, 0, 0), s)
    else (some (0, 0, 0), s.acqStart c)))

/-- How many bytes a receive capture writes: one per sample, four at point 2. -/
def rxCaptureBytes (d : Desc) : Nat := d.arg1 % 16384 * (if d.arg1 / 65536 % 4 = 2 then 4 else 1)

/-- Write captured samples: open bytes, since only the line decides them. -/
def State.capture (a n : Nat) (s : State) : State := let (l, s) := s.drawBytes n; s.setBytes a l

/-- RX_CAPTURE (Table RXF-7): from the next superframe boundary while sf_lock holds, at once otherwise. -/
def execRxCapture (c : Carrier) (s : State) : Out :=
  .next (s.runCommand (rxfQ c) 0x102 (fun d s =>
    let n := d.arg1 % 16384
    let point := d.arg1 / 65536 % 4
    let st := s.fld (R.RXF_STATE c) F.RXF_STATE_state
    if 4 ≤ d.unit ∨ n = 0 ∨ 8192 < n ∨ point = 3 ∨ (point = 2 ∧ d.unit % 2 = 1) ∨ bufferOk d.arg0 (rxCaptureBytes d) = false
      then (some (0x02, 0, 0), s)
    else if st = 0 ∨ (point = 2 ∧ st ≠ 2 ∧ st ≠ 3) then (some (0x06, 0, 0), s)
    else if s.flag (R.RXF_STATE c) F.RXF_STATE_sf_lock then (none, s)
    else (some (0, s.cnt (R.RXF_SF_CNT c), 0), s.capture d.arg0 (rxCaptureBytes d))))

/-- The captures that waited for a superframe boundary complete. -/
def State.rxCapturesDue (c : Carrier) : Nat → State → State
  | 0, s => s
  | n + 1, s =>
    match s.startedOp (rxfQ c) 0x102 with
    | some e => ((s.capture e.desc.arg0 (rxCaptureBytes e.desc)).complete e 0 (s.cnt (R.RXF_SF_CNT c)) 0).rxCapturesDue c n
    | none => s

/-- LOS is declared (R150). -/
def State.losDeclare (c : Carrier) (s : State) : State :=
  let s := (s.setFlag (R.RXF_STATE c) F.RXF_STATE_los true).setFlag (R.RXF_STATUS c) F.RXF_STATUS_los_seen true
  let s := s.addCnt (R.RXF_LOS_CNT c) 1
  let s := s.rxStreamInvalid c
  let acq := s.rxAcq c
  let s := s.setRx c { s.rx c with stopped := acq, losAt := s.time.devtime, peak := false }
  let s := if acq = 4 then (s.rxUnlock c).setAcq c 0 else s
  let s := s.frmSignal c
  let s := s.monUrgent c
  let s := s.hailSignalLost c
  s.logEvent (rxfId c) sevAlarm 0x0001 (evData ((List.range 4).map (fun n => (2, s.fld (R.RXF_LANE_RMS c n) F.RXF_LANE_RMS_rms))))

/-- LOS clears (R151): an acquisition step that LOS stopped begins anew; after a lock, timing and superframe are reacquired with
cd_est held if auto_reacq is 1, else the receiver stays at acq 0. -/
def State.losClear (c : Carrier) (s : State) : State :=
  let dur := s.time.devtime - (s.rx c).losAt
  let s := s.setFlag (R.RXF_STATE c) F.RXF_STATE_los false
  let s := s.logEvent (rxfId c) sevInfo 0x0002 (evData [(8, dur.toNat)])
  let s := s.frmSignal c
  let st := (s.rx c).stopped
  let s := s.setRx c { s.rx c with stopped := 0 }
  if s.fld (R.RXF_STATE c) F.RXF_STATE_state ≠ 3 ∨ (s.rx c).fault then s
  else if st = 4 ∧ s.flag (R.RXF_CTRL c) F.RXF_CTRL_auto_reacq then
    let s := (s.rxTryNext c).setAcq c 2
    s.setRx c { s.rx c with phase := 1 }
  else s

/-- The correction of a quantity, manual value and estimate, has left its range ±m (R138). -/
def State.iqBeyond (s : State) (m : Int) (manual : Nat) (mf : Fld) (est : Nat) (ef : Fld) : Bool :=
  decide (m < (s.fldS manual mf + s.fldS est ef).natAbs)

/-- A sum of manual value and estimate outside Table RXF-3 is limited and sets iq_lim (R138): without the blind estimate the manual value stands alone. -/
def State.iqCheck (c : Carrier) (s : State) : State :=
  if s.flag (R.RXF_CTRL c) F.RXF_CTRL_iq_auto
      ∧ (s.iqBeyond 200 (R.RXF_IQ_CFG_X c) F.RXF_IQ_CFG_X_gain (R.RXF_IQ_EST_X c) F.RXF_IQ_EST_X_gain
        ∨ s.iqBeyond 750 (R.RXF_IQ_CFG_X c) F.RXF_IQ_CFG_X_phase (R.RXF_IQ_EST_X c) F.RXF_IQ_EST_X_phase
        ∨ s.iqBeyond 200 (R.RXF_IQ_CFG_Y c) F.RXF_IQ_CFG_Y_gain (R.RXF_IQ_EST_Y c) F.RXF_IQ_EST_Y_gain
        ∨ s.iqBeyond 750 (R.RXF_IQ_CFG_Y c) F.RXF_IQ_CFG_Y_phase (R.RXF_IQ_EST_Y c) F.RXF_IQ_EST_Y_phase) then
    s.setFlag (R.RXF_STATUS c) F.RXF_STATUS_iq_lim true
  else s

/-- One revision of a blind estimate (R138): towards the measured value by at most 5 units, 0.05 dB or 0.1°, within its range ±m. -/
def iqRevise (m old meas : Int) : Int := clampI (-m) m (old + clampI (-5) 5 (meas - old))

/-- A blind estimate is revised. -/
def State.iqOne (c : Carrier) (m : Int) (est : Carrier → Nat) (ef : Fld) (meas : Int) (s : State) : State :=
  s.setFldS (est c) ef (iqRevise m (s.fldS (est c) ef) meas)

/-- The blind estimates of both polarisations are revised (R138). -/
def State.iqUpdate (c : Carrier) (m : RxIq) (s : State) : State :=
  if s.flag (R.RXF_CTRL c) F.RXF_CTRL_iq_auto then
    let s := s.iqOne c 200 R.RXF_IQ_EST_X F.RXF_IQ_EST_X_gain m.gainX.toInt
    let s := s.iqOne c 750 R.RXF_IQ_EST_X F.RXF_IQ_EST_X_phase m.phaseX.toInt
    let s := s.iqOne c 200 R.RXF_IQ_EST_Y F.RXF_IQ_EST_Y_gain m.gainY.toInt
    (s.iqOne c 750 R.RXF_IQ_EST_Y F.RXF_IQ_EST_Y_phase m.phaseY.toInt).iqCheck c
  else s

/-- A window of 1,024 DSP cycles for the blind estimator (R138, R150): without a superframe lock every eighth revises; under LOS it is frozen. -/
def State.iqWindow (c : Carrier) (m : RxIq) (s : State) : State :=
  if s.rxLos c ∨ s.flag (R.RXF_STATE c) F.RXF_STATE_sf_lock then s
  else if 7 ≤ (s.rx c).iqWins then (s.setRx c { s.rx c with iqWins := 0 }).iqUpdate c m
  else s.setRx c { s.rx c with iqWins := (s.rx c).iqWins + 1 }

/-- Samples at −128 or +127 are counted (R133). -/
def State.rxClips (c : Carrier) (n : Nat) (s : State) : State :=
  if n = 0 then s else (s.addCnt (R.RXF_CLIP_CNT c) n).setFlag (R.RXF_STATUS c) F.RXF_STATUS_clip true

/-- A measuring window of 1,024 DSP cycles ends (R149): the lane meters show it, its samples at the ends of the range are counted (R133), the blind estimator runs
(R138), and LOS is judged on the combined RMS, the root of the mean of the lanes' squares (DEDUCED: notes/assumptions/28.md). -/
def execRxLosWindowEnd (c : Carrier) (r0 r1 r2 r3 : BitVec 16) (clips : Nat) (iq : RxIq) (s : State) : Out :=
  if s.fld (R.RXF_STATE c) F.RXF_STATE_state = 0 then .next s
  else
    let s := (s.rxClips c clips).iqWindow c iq
    let rms := fun (n : Nat) (r : BitVec 16) (s : State) => s.setFld (R.RXF_LANE_RMS c n) F.RXF_LANE_RMS_rms r.toNat
    let s := rms 3 r3 (rms 2 r2 (rms 1 r1 (rms 0 r0 s)))
    let sum := r0.toNat ^ 2 + r1.toNat ^ 2 + r2.toNat ^ 2 + r3.toNat ^ 2
    let thr := s.fld (R.RXF_LOS_CFG c) F.RXF_LOS_CFG_los_thr
    let clr := thr + s.fld (R.RXF_LOS_CFG c) F.RXF_LOS_CFG_hyst
    let low := decide (sum < 4 * (256 * thr) ^ 2)
    let high := decide (4 * (256 * clr) ^ 2 ≤ sum)
    let x := s.rx c
    if s.rxLos c then
      let n := if high then x.above + 1 else 0
      if 100 ≤ n then .next ((s.setRx c { x with above := 0, below := 0 }).losClear c)
      else .next (s.setRx c { x with above := n })
    else
      let n := if low then x.below + 1 else 0
      if 10 ≤ n then .next ((s.setRx c { x with above := 0, below := 0 }).losDeclare c)
      else .next (s.setRx c { x with below := n })

/-- The dwell of a hypothesis ends (R141): the search moves to the next one, unless it has stopped or LOS pauses it. -/
def execHailCdDwellExpiry (c : Carrier) (s : State) : Out :=
  if s.fld (R.RXF_STATE c) F.RXF_STATE_state = 2 ∧ s.flag (R.RXF_STATE c) F.RXF_STATE_hail_cd_found = false ∧ s.rxLos c = false
  then .next (s.hailNextHyp c) else .next s

/-- A step size of R142, k × 10 × (256/Rs)² ps/nm, in units of 10 ps/nm, rounded to the nearest and at least 1. -/
def State.cdUnit (s : State) (c : Carrier) (k : Nat) : Nat :=
  let d := max 1 (s.symRs8 c * s.symRs8 c)
  max 1 ((2 * k * 2048 * 2048 + d) / (2 * d))

/-- Step k of a pass: from the lower end of its window, the last one at its upper end (DESIGN CHOICE: notes/assumptions/97.md). -/
def cdStep (lo hi : Int) (unit k : Nat) : Int := min hi (lo + unit * k)

/-- A fine scan ends (R142): the best step of pass 1 and, in the window about it, of pass 2, by their numbers.  That of pass 2 becomes cd_est, and timing recovery
begins; a best step at ±CD_max sets cd_edge. -/
def execCdScanComplete (c : Carrier) (k1 k2 : Nat) (s : State) : Out :=
  if s.fld (R.RXF_STATE c) F.RXF_STATE_state = 3 ∧ s.rxAcq c = 1 ∧ s.rxLos c = false then
    let m : Int := s.cdMax c
    let u : Int := s.cdUnit c 50
    let b1 := cdStep (s.rx c).scanLo (s.rx c).scanHi (s.cdUnit c 50) k1
    let b2 := cdStep (clampI (-m) m (b1 - u)) (clampI (-m) m (b1 + u)) (s.cdUnit c 1) k2
    let s := (s.setFldS (R.RXF_CD_STATUS c) F.RXF_CD_STATUS_cd_est b2).setAcq c 2
    .next (if b1 = m ∨ b1 = -m ∨ b2 = m ∨ b2 = -m then s.setFlag (R.RXF_STATUS c) F.RXF_STATUS_cd_edge true else s)
  else .next s

/-- tr_lock is declared (R144), never with an offset beyond ±500 ppm. -/
def execTrLockDeclared (c : Carrier) (offset : BitVec 20) (s : State) : Out :=
  if s.fld (R.RXF_STATE c) F.RXF_STATE_state = 3 ∧ 2 ≤ s.rxAcq c ∧ s.rxLos c = false ∧ -500000 ≤ offset.toInt ∧ offset.toInt ≤ 500000 then
    let s := (s.setFld (R.RXF_TR_STATUS c) F.RXF_TR_STATUS_offset offset.toNat).setFlag (R.RXF_STATE c) F.RXF_STATE_tr_lock true
    .next (if s.rxAcq c = 2 then s.setAcq c 3 else s)
  else .next s

/-- tr_lock is lost (R144): REF treats the recovered clock as disqualified; a search for the superframe goes back to timing
recovery. -/
def execTrLockLost (c : Carrier) (s : State) : Out :=
  let s := s.setFlag (R.RXF_STATE c) F.RXF_STATE_tr_lock false
  .next (if s.rxAcq c = 3 then s.setAcq c 2 else s)

/-- 1 ms of timing recovery beyond the pull-in range sets tr_range (R144): while it runs, unlocked and not frozen by LOS (R150). -/
def execTrRangeTimeout (c : Carrier) (s : State) : Out :=
  .next (if s.fld (R.RXF_STATE c) F.RXF_STATE_state = 3 ∧ 2 ≤ s.rxAcq c ∧ s.rxLos c = false ∧ s.flag (R.RXF_STATE c) F.RXF_STATE_tr_lock = false then
      s.setFlag (R.RXF_STATUS c) F.RXF_STATUS_tr_range true
    else s)

/-- A candidate is judged (R145): a peak reaches sf_thresh; the second of two peaks 524,288 ±2 symbols apart declares sf_lock, and
a later one realigns symbol 0. -/
def execSfPeakDetected (c : Carrier) (metric spacing : Nat) (s : State) : Out :=
  let ok := decide (s.fld (R.RXF_SF_CFG c) F.RXF_SF_CFG_sf_thresh ≤ metric)
  let near := decide (524286 ≤ spacing ∧ spacing ≤ 524290)
  if s.fld (R.RXF_STATE c) F.RXF_STATE_state = 3 ∧ s.rxAcq c = 3 ∧ s.rxLos c = false ∧ ok then
    if (s.rx c).peak ∧ near then
      let s := (s.setAcq c 4).setFlag (R.RXF_STATE c) F.RXF_STATE_sf_lock true
      let s := s.setRx c { s.rx c with phase := 0 }
      let s := s.logEvent (rxfId c) sevInfo 0x0003
        (evData [(2, s.fld (R.RXF_CD_STATUS c) F.RXF_CD_STATUS_cd_est), (4, unsigned 32 (s.fldS (R.RXF_TR_STATUS c) F.RXF_TR_STATUS_offset))])
      .next (if (s.rx c).fault then s else s.rxStreamValid c)
    else .next (s.setRx c { s.rx c with peak := true })
  else .next s

/-- sf_lock is lost (R145, R151): with auto_reacq the search restarts, keeping timing if tr_lock holds. -/
def execSfLockLost (c : Carrier) (s : State) : Out :=
  if s.flag (R.RXF_STATE c) F.RXF_STATE_sf_lock then
    let s := (s.setFlag (R.RXF_STATE c) F.RXF_STATE_sf_lock false).setFlag (R.RXF_STATUS c) F.RXF_STATUS_sf_loss true
    let s := s.addCnt (R.RXF_SF_LOSS_CNT c) 1
    let s := s.logEvent (rxfId c) sevWarn 0x0004 (evData [(4, 4)])
    let s := ((s.rxStreamInvalid c).setRx c { s.rx c with peak := false, phase := 1 }).anlMoved false c (s.fld (R.RXF_STATE c) F.RXF_STATE_state) false
    .next (if s.flag (R.RXF_CTRL c) F.RXF_CTRL_auto_reacq then
        (s.rxTryNext c).setAcq c (if s.flag (R.RXF_STATE c) F.RXF_STATE_tr_lock then 3 else 2)
      else s.setAcq c 0)
  else .next s

/-- 20 ms without sf_lock (R151): in the first phase of a reacquisition a fine scan about the held cd_est follows; after that scan
acq_fail is set and a new acquisition starts under cd_mode, of which the two 20 ms stages repeat (DEDUCED: notes/assumptions/88.md). -/
def execReacqTimeout (c : Carrier) (s : State) : Out :=
  if s.fld (R.RXF_STATE c) F.RXF_STATE_state ≠ 3 ∨ s.flag (R.RXF_STATE c) F.RXF_STATE_sf_lock ∨ s.rxLos c ∨ s.rxAcq c = 0 then .next s
  else match (s.rx c).phase with
    | 0 => .next s
    | 1 => .next ((s.setRx c { s.rx c with phase := 2, peak := false }).cdScan c (some (s.fldS (R.RXF_CD_STATUS c) F.RXF_CD_STATUS_cd_est)))
    | _ =>
      let step := s.rxAcq c
      let s := s.setFlag (R.RXF_STATUS c) F.RXF_STATUS_acq_fail true
      let s := (s.logEvent (rxfId c) sevWarn 0x0005 (evData [(1, step)])).acqStart c
      .next (s.setRx c { s.rx c with phase := 1 })

/-- An RXF engine fault (R152): the output is invalid and FRM_x is told as for LOS. -/
def execRxfEngineFault (c : Carrier) (s : State) : Out :=
  let s := s.setRx c { s.rx c with fault := true }
  let s := s.setFlag (R.RXF_STATUS c) F.RXF_STATUS_engine_fault true
  .next (((s.rxStreamInvalid c).frmSignal c).logFault (rxfId c) 0x0007 [])

/-- What RXF_x does at a superframe boundary (R137, R138): the annealer's change, then the staged set; the boundary is counted, the
estimates revised, captures written. -/
def State.rxfBoundary (c : Carrier) (m : RxMeas) (s : State) : State :=
  let s := ((s.anlBoundary false c).applyBoundary .rxSf c).iqCheck c
  let s := s.addCnt (R.RXF_SF_CNT c) 1
  let s := if s.rxLos c then s else s.iqUpdate c m.iq
  s.rxCapturesDue c (s.queue (rxfQ c)).entries.length

end Sys2Proof.Machine
end

