-- ==== Sys2Proof/Machine/Eqz.lean ====
section
/-! DEFINITION. The equaliser and carrier recovery (EQZ_x, CRR_x): adaptation (R161, R162), slices and sparing (R164 to R169), carrier
recovery (R170), estimators (R174 to R176), faults (R177), commands (R178), and the receive superframe boundary of all of them. -/
namespace Sys2Proof.Machine

/-- The state of CRR_x (R170). -/
def State.crState (s : State) (c : Carrier) : Nat := s.fld (R.CRR_STATE c) F.CRR_STATE_cr_state

/-- Whether the carrier is erased by slices that failed and are not replaced (R166, R168). -/
def State.eqErased (s : State) (c : Carrier) : Bool := !(s.eq c).pendFail.isEmpty

/-- CRR_x loses lock (R170): back to state 1, and the equaliser leaves decision-directed adaptation (R161).  The event's cause has no
codes in the spec: a free value. -/
def State.crLockLost (c : Carrier) (s : State) : State :=
  let s := ((s.crLeave c 1).setFlag (R.CRR_STATUS c) F.CRR_STATUS_lock_loss true).addCnt (R.CRR_LOCK_LOSS_CNT c) 1
  let (w, s) := s.draw
  s.logEvent (crrId c) sevWarn 0x0002 (evData [(1, w.toNat)])

/-- The tracker's four steps of an update interval (R158, R159): with sop_en = 0, J is the identity. -/
def State.sopUpdate (c : Carrier) (sop : List Angles) (s : State) : State :=
  let x := s.eq c
  if s.flag (R.EQZ_CTRL c) F.EQZ_CTRL_sop_en then
    let r := sopRun (s.fld (R.EQZ_CTRL c) F.EQZ_CTRL_mu_sop) (s.symRs8 c) sop ((x.theta, x.phi, x.psi), x.sopMax)
    s.setEq c { x with theta := r.1.1, phi := r.1.2.1, psi := r.1.2.2, sopMax := r.2 }
  else s.setEq c { x with theta := 0, phi := 0, psi := 0 }

/-- The update after 64 symbols (R158, R161), from the gradients of the errors: the tracker steps, and the taps in use in every slice, unless they are held; not
while the input is invalid (R155). -/
def execEqTapUpdate (c : Carrier) (grad : List Int) (sop : List Angles) (s : State) : Out :=
  let st := s.fld (R.EQZ_STATE c) F.EQZ_STATE_eq_state
  .next (if st = 0 then s
    else
      let s := s.sopUpdate c sop
      if st = 3 then s
      else
        let x := s.eq c
        s.setEq c { x with taps := tapStep (s.fld (R.EQZ_CTRL c) F.EQZ_CTRL_mu_eq) x.ntaps x.taps grad, updates := x.updates + 1 })

/-- EQ_HOLD (R161): the taps freeze, or adapt again. -/
def execEqHold (c : Carrier) (s : State) : Out :=
  .next (s.runCommand (eqzQ c) 0x100 (fun d s =>
    if d.unit ≠ 0xFF then (some (0x02, 0, 0), s)
    else
      let hold := d.arg0 % 2 == 1
      let s := s.setEq c { s.eq c with held := hold }
      (some (0, 0, 0), if s.rxValid c then
        s.setFld (R.EQZ_STATE c) F.EQZ_STATE_eq_state (if hold then 3
          else if s.flag (R.EQZ_CTRL c) F.EQZ_CTRL_dd_en ∧ s.crState c = 3 then 2 else 1) else s)))

/-- EQ_RECONVERGE (R160, Table EQC-4): centre-spike taps at the next superframe boundary. -/
def execEqReconverge (c : Carrier) (s : State) : Out :=
  .next (s.runCommand (eqzQ c) 0x101 (fun d s =>
    if d.unit ≠ 0xFF then (some (0x02, 0, 0), s)
    else if s.rxValid c then (none, s) else (some (0x06, 0, 0), s)))

/-- EQ_READ_TAPS (Table EQC-4): 768 bytes of taps; result0 the superframe count. -/
def execEqReadTaps (c : Carrier) (s : State) : Out :=
  .next (s.runCommand (eqzQ c) 0x102 (fun d s =>
    if d.unit ≠ 0xFF ∨ bufferOk d.arg0 768 = false then (some (0x02, 0, 0), s)
    else (some (0, s.cnt (R.RXF_SF_CNT c), 0), s.setBytes d.arg0 ((s.eq c).taps.flatMap (fun w => leBytes 2 w.toNat)))))

/-- EQ_SLICE_RETEST (R169) starts on a failed or idle slice; COMMAND_COMPLETION ends it. -/
def execEqSliceRetest (c : Carrier) (s : State) : Out :=
  .next (s.runCommand (eqzQ c) 0x103 (fun d s =>
    if 9 ≤ d.unit then (some (0x02, 0, 0), s)
    else if s.roleAt (R.EQZ_SLICE_MAP c) d.unit = 0 ∨ s.roleAt (R.EQZ_SLICE_MAP c) d.unit = 3 then (some (0x06, 0, 0), s)
    else (none, (s.setRole (R.EQZ_SLICE_MAP c) d.unit 3).eqCount c)))

/-- A slice retest ends (R169): a slice that passes is idle, one that fails is failed. -/
def State.eqRetestDone (c : Carrier) (slice : Nat) (pass : Bool) (s : State) : State :=
  ((s.setRole (R.EQZ_SLICE_MAP c) slice (if pass then 1 else 2)).eqCount c).logEvent (eqzId c) sevInfo 0x0007
    (evData [(1, slice), (1, b2n (!pass))])

/-- A whole copy of the taps has reached the idle slices (R165). -/
def execEqzShadowCopyComplete (c : Carrier) (s : State) : Out :=
  match (s.eq c).copy with
  | none => .next s
  | some t =>
    let s := s.setEq c { s.eq c with shadow := some t, copy := none }
    .next ((s.setFld (R.EQZ_SHADOW_STATUS c) F.EQZ_SHADOW_STATUS_shadow_age 0).setFlag (R.EQZ_SHADOW_STATUS c)
      F.EQZ_SHADOW_STATUS_shadow_valid true)

/-- A COMMIT starts the copy of the taps and the tap-update count to the idle slices (R165), where the carrier's domain is not laid up. -/
def State.eqCopyStart (c : Carrier) (s : State) : State :=
  if s.domState (4 + c.code) = 2 then s else s.setEq c { s.eq c with copy := some ((s.eq c).taps, (s.eq c).updates) }

/-- The age of the shadow copies grows by a tide (R165). -/
def State.eqAge (c : Carrier) (s : State) : State :=
  s.setFld (R.EQZ_SHADOW_STATUS c) F.EQZ_SHADOW_STATUS_shadow_age (min 255 (s.fld (R.EQZ_SHADOW_STATUS c) F.EQZ_SHADOW_STATUS_shadow_age + 1))

/-- The mean squared pilot errors of the slices in use. -/
def State.sliceErrs (s : State) (c : Carrier) (errs : List Nat) : List Nat :=
  ((List.range 9).filter (fun i => s.roleAt (R.EQZ_SLICE_MAP c) i == 0)).map (fun i => errs.getD i 0)

/-- Whether a declaration holds (R155, R166, R168): while the stream is valid, of a slice not failed before; an excess error only of one of several slices in use,
by its pilot errors over a whole superframe in state 3. -/
def State.sliceFails (s : State) (c : Carrier) (slice cause : Nat) (errs : List Nat) : Bool :=
  s.rxValid c && s.roleAt (R.EQZ_SLICE_MAP c) slice != 2
  && (cause != 2 || (s.crState c == 3 && s.roleAt (R.EQZ_SLICE_MAP c) slice == 0
    && sliceExcess (s.fld (R.EQZ_CTRL c) F.EQZ_CTRL_slice_thr) (errs.getD slice 0) (s.sliceErrs c errs)))

/-- A slice is declared failed (R166): one in use erases the carrier until it is replaced. -/
def execSliceFailureDeclared (c : Carrier) (slice : Fin 9) (cause : Fin 3) (errs : List Nat) (s : State) : Out :=
  if s.sliceFails c slice.val cause.val errs = false then .next s
  else
    let r := s.roleAt (R.EQZ_SLICE_MAP c) slice.val
    let s := (s.setRole (R.EQZ_SLICE_MAP c) slice.val 2).eqCount c
    let s := s.setFlag (R.EQZ_STATUS c) F.EQZ_STATUS_slice_fault true
    let s := s.logEvent (eqzId c) sevFault 0x0001 (evData [(1, slice.val), (1, cause.val)])
    .next (if r = 0 then
        (s.setEq c { s.eq c with pendFail := (s.eq c).pendFail ++ [slice.val] }).setFlag (R.CRR_STATE c) F.CRR_STATE_llr_valid false
      else s)

/-- Replace failed slices by the lowest idle ones (R166 to R168); a slice for which none is idle stays unreplaced. -/
def State.swapSlices (c : Carrier) : List Nat → State → List Nat × State
  | [], s => ([], s)
  | f :: l, s =>
    match s.lowestRole (R.EQZ_SLICE_MAP c) 9 1 with
    | none =>
      let s := (s.setFlag (R.EQZ_STATUS c) F.EQZ_STATUS_no_spare true).logEvent (eqzId c) sevAlarm 0x0003 (evData [(1, f)])
      let (r, s) := s.swapSlices c l
      (f :: r, s)
    | some i =>
      let age := s.fld (R.EQZ_SHADOW_STATUS c) F.EQZ_SHADOW_STATUS_shadow_age
      let s := ((s.setRole (R.EQZ_SLICE_MAP c) i 0).eqCount c).addCnt (R.EQZ_SWAP_CNT c) 1
      let s := if 16 < age then s.setFlag (R.EQZ_STATUS c) F.EQZ_STATUS_shadow_stale true else s
      let s := s.logEvent (eqzId c) sevWarn 0x0002 (evData [(1, f), (1, i), (1, age)])
      (s.spareUsed (eqzId c)).swapSlices c l

/-- The superframe boundary after a declaration (R166): every failed slice that can be replaced is, the equaliser goes on from the
shadow taps, and CRR_x relocks. -/
def execSliceSwap (c : Carrier) (s : State) : Out :=
  match (s.eq c).pendFail with
  | [] => .next s
  | l =>
    let n := l.length
    let (rest, s) := s.swapSlices c l
    let s := s.setEq c { s.eq c with pendFail := rest
                                     taps := if rest.length < n then
                                         tapsWithin (s.eq c).ntaps (((s.eq c).shadow.map (·.1)).getD (s.eq c).taps)
                                       else (s.eq c).taps }
    .next (if rest.isEmpty ∧ s.rxValid c ∧ s.crState c = 3 then s.crLeave c 2 else s)

/-- A mismatch in the common logic (R177): the carrier is erased, and at the next superframe boundary the block starts again from
state 0. -/
def execEqzCrrEngineFault (c : Carrier) (crr : Bool) (s : State) : Out :=
  let s := s.setFlag (R.CRR_STATE c) F.CRR_STATE_llr_valid false
  .next (if crr then
      ((s.setFlag (R.CRR_STATUS c) F.CRR_STATUS_engine_fault true).setCr c { s.cr c with restartDue := true }).logFault (crrId c) 0x0005 []
    else
      ((s.setFlag (R.EQZ_STATUS c) F.EQZ_STATUS_engine_fault true).setEq c { s.eq c with restartDue := true }).logFault (eqzId c) 0x0006 [])

/-- CR_REACQUIRE (Table EQC-4): state 1 at the next superframe boundary. -/
def execCrReacquire (c : Carrier) (s : State) : Out :=
  .next (s.runCommand (crrQ c) 0x100 (fun d s =>
    if d.unit ≠ 0xFF then (some (0x02, 0, 0), s)
    else if s.crState c = 0 then (some (0x06, 0, 0), s) else (none, s)))

/-- CR_FREQ_SEED (R170): the seed for the next state 1, within ±5.0 GHz. -/
def execCrFreqSeed (c : Carrier) (s : State) : Out :=
  .next (s.runCommand (crrQ c) 0x101 (fun d s =>
    let v := BitVec.ofNat 18 d.arg0
    if d.unit ≠ 0xFF ∨ v.toInt < -50000 ∨ 50000 < v.toInt then (some (0x02, 0, 0), s)
    else (some (0, 0, 0), s.setCr c { s.cr c with seed := some v })))

/-- CR_CAPTURE (Table EQC-4): from the next superframe boundary. -/
def execCrCapture (c : Carrier) (s : State) : Out :=
  .next (s.runCommand (crrQ c) 0x102 (fun d s =>
    let n := d.arg1 % 16384
    if 2 ≤ d.unit ∨ n = 0 ∨ 8192 < n ∨ bufferOk d.arg0 (4 * n) = false then (some (0x02, 0, 0), s)
    else if s.crState c ≠ 3 then (some (0x06, 0, 0), s) else (none, s)))

/-- What the symbols of a superframe come to in one polarisation (R171): the pilots' phases, the recovered pilots' mean squared error, the recovered data. -/
structure PolOut where
  phases : List Int
  noise : Nat
  data : List Cplx
deriving DecidableEq, Repr

/-- Phase recovery of a polarisation over a superframe (R171, R174). -/
def State.recoverPol (s : State) (c : Carrier) (y : Bool) (l : List RxGroup) : PolOut :=
  let ctl := s.fld (R.CRR_CTRL c)
  let known := pilotList y
  let ph := pilotPhases (ctl F.CRR_CTRL_pilot_avg) known l
  let pts := dimPoints (s.carBase c) (modeComp (s.carBase c) (s.fec c).h64)
  { phases := ph
    noise := pilotNoise (recoveredPilots ph l) known
    data := recoveredData pts (ctl F.CRR_CTRL_bps_en == 1) (ctl F.CRR_CTRL_bps_half) (dataPhases l ph) }

/-- A symbol as CR_CAPTURE writes it (R178). -/
def captureBytes (z : Cplx) : List Byte :=
  leBytes 2 (unsigned 16 (clampI (-32768) 32767 z.1)) ++ leBytes 2 (unsigned 16 (clampI (-32768) 32767 z.2))

/-- A capture ends with the superframe in which it began (R178): n recovered symbols of a polarisation, missing ones 0, and the count of that superframe. -/
def State.crCaptureEnd (x y : PolOut) (w : W32 × Nat) (s : State) : State :=
  match s.entryOf w.1 with
  | some e =>
    let l := if e.desc.unit = 0 then x.data else y.data
    (s.setBytes e.desc.arg0 ((takePad (e.desc.arg1 % 16384) (0, 0) l).flatMap captureBytes)).complete e 0 w.2 0
  | none => s

/-- Captures of CRR_x over a boundary (R178): those under way end with the symbols of the superframe that ended, those that waited begin. -/
def State.crCaptures (c : Carrier) (x y : PolOut) (s : State) : State :=
  let due := (s.cr c).caps
  let started := ((s.queue (crrQ c)).entries.filter (fun e => e.started && e.desc.opcode == 0x102)).map (·.ticket)
  let new := (started.filter (fun t => !(due.map (·.1)).contains t)).map (fun t => (t, s.cnt (R.RXF_SF_CNT c)))
  due.foldl (fun s w => s.crCaptureEnd x y w) (s.setCr c { s.cr c with caps := new })

/-- The SOP rate and the DGD of the superframe are reported (R159). -/
def State.sopReport (c : Carrier) (s : State) : State :=
  let a := R.EQZ_SOP_STATUS c
  let rate := min 65535 (s.eq c).sopMax
  let s := s.setEq c { s.eq c with sopMax := 0 }
  let s := s.setFld a F.EQZ_SOP_STATUS_sop_rate rate
  let s := s.setFld a F.EQZ_SOP_STATUS_sop_peak (max (s.fld a F.EQZ_SOP_STATUS_sop_peak) rate)
  let s := s.setFld (R.EQZ_DGD_STATUS c) F.EQZ_DGD_STATUS_dgd (min 4095 (Config.dgdOf (s.eq c).taps))
  let s := s.noteSopRate c rate
  if rate ≤ 10000 then s
  else
    let s := (s.addCnt (R.EQZ_SOP_OVER_CNT c) 1).setFlag (R.EQZ_STATUS c) F.EQZ_STATUS_sop_over true
    let sec := s.time.devtime.toNat / 10000000000
    if (s.eq c).overSec = some sec then s
    else (s.setEq c { s.eq c with overSec := some sec }).logEvent (eqzId c) sevInfo 0x0005 (evData [(2, rate)])

/-- The training check of R162, in every superframe in states 1 and 2 once state 1 has lasted 4 superframes: outputs to be exchanged
at the boundary, or a divergence restart from the other starting point, which costs CRR_x its lock (R170). -/
def State.polCheck (c : Carrier) (m : RxMeas) (s : State) : State :=
  let x := s.eq c
  let st := s.fld (R.EQZ_STATE c) F.EQZ_STATE_eq_state
  if st ≠ 1 ∧ st ≠ 2 then s
  else
    let s := s.setEq c { x with sfCount := x.sfCount + 1 }
    if x.sfCount + 1 < 4 then s
    else match m.train with
      | .own => s
      | .exchanged => s.setEq c { s.eq c with swapDue := true }
      | .other =>
        let s := (s.addCnt (R.EQZ_DIVERGE_CNT c) 1).setFlag (R.EQZ_STATUS c) F.EQZ_STATUS_diverge true
        let s := s.setEq c { s.eq c with
          taps := if x.rotated then spikeTaps x.ntaps 0x4000 0 else spikeTaps x.ntaps 0x2D41 0x2D41
          rotated := !x.rotated, restarts := x.restarts + 1, sfCount := 0 }
        let s := s.setFld (R.EQZ_STATE c) F.EQZ_STATE_eq_state 1
        let s := s.logEvent (eqzId c) sevWarn 0x0004 (evData [(4, x.restarts + 1)])
        if 2 ≤ s.crState c then s.crLockLost c else s

/-- The outputs are exchanged at the boundary at which they were found exchanged (R162). -/
def State.polSwap (c : Carrier) (s : State) : State :=
  if (s.eq c).swapDue then
    (s.setEq c { s.eq c with swapDue := false }).setFld (R.EQZ_STATE c) F.EQZ_STATE_pol_swap
      (1 - s.fld (R.EQZ_STATE c) F.EQZ_STATE_pol_swap)
  else s

/-- The mean squared pilot error of the carrier, normalised to pilot energy, against num/den (R170). -/
def PolOut.errBelow (x y : PolOut) (num den : Nat) : Bool := decide ((x.noise + y.noise) * den < 2 * pilotEnergy * num)
def PolOut.errAbove (x y : PolOut) (num den : Nat) : Bool := decide (2 * pilotEnergy * num < (x.noise + y.noise) * den)

/-- The window of the frequency search: ±3.5 GHz about the seed, clipped to ±5.0 GHz (R170). -/
def State.freqFound (s : State) (c : Carrier) (m : RxMeas) : Bool :=
  let seed := (((s.cr c).seed).map BitVec.toInt).getD 0
  128 ≤ m.corr && decide (max (-50000) (seed - 35000) ≤ m.offset.toInt ∧ m.offset.toInt ≤ min 50000 (seed + 35000))

/-- EQZ_x adapts decision-directed while that is allowed and CRR_x is in state 3 (R161). -/
def State.eqMode (c : Carrier) (s : State) : State :=
  let st := s.fld (R.EQZ_STATE c) F.EQZ_STATE_eq_state
  if st = 1 ∨ st = 2 then
    s.setFld (R.EQZ_STATE c) F.EQZ_STATE_eq_state (if s.flag (R.EQZ_CTRL c) F.EQZ_CTRL_dd_en ∧ s.crState c = 3 then 2 else 1)
  else s

/-- The states of CRR_x over one superframe (R170). -/
def State.crStep (c : Carrier) (m : RxMeas) (x y : PolOut) (s : State) : State :=
  match s.crState c with
  | 1 =>
    if s.freqFound c m then
      (s.setFld (R.CRR_STATE c) F.CRR_STATE_cr_state 2).setFld (R.CRR_FREQ_STATUS c) F.CRR_FREQ_STATUS_offset m.offset.toNat
    else
      (s.setFlag (R.CRR_STATUS c) F.CRR_STATUS_freq_range true).logEvent (crrId c) sevWarn 0x0003
        (evData [(4, unsigned 32 m.offset.toInt)])
  | 2 =>
    let s := s.setFld (R.CRR_FREQ_STATUS c) F.CRR_FREQ_STATUS_offset m.offset.toNat
    if x.errBelow y 1 4 ∧ s.eqErased c = false then
      let s := (s.setFld (R.CRR_STATE c) F.CRR_STATE_cr_state 3).setFlag (R.CRR_STATE c) F.CRR_STATE_llr_valid true
      s.logEvent (crrId c) sevInfo 0x0001 (evData [(4, unsigned 32 m.offset.toInt), (2, snrOf (max x.noise y.noise))])
    else s
  | 3 =>
    let s := s.setFld (R.CRR_FREQ_STATUS c) F.CRR_FREQ_STATUS_offset m.offset.toNat
    if x.errAbove y 1 2 ∨ m.offset.toInt < -50000 ∨ 50000 < m.offset.toInt then s.crLockLost c else s
  | _ => s

/-- SNR of a superframe with CRR_x in state 3 (R174), and the run below the threshold (R175). -/
def State.crSnr (c : Carrier) (x y : PolOut) (s : State) : State :=
  if s.crState c ≠ 3 then s
  else
    let snrX := snrOf x.noise
    let snrY := snrOf y.noise
    let errs := (max x.noise y.noise :: (s.cr c).errs).take 16
    let s := (s.setFld (R.CRR_SNR c) F.CRR_SNR_snr_x snrX).setFld (R.CRR_SNR c) F.CRR_SNR_snr_y snrY
    let s := (s.setFld (R.CRR_SNR_AVG c) F.CRR_SNR_AVG_snr_avg16 (snrMean errs)).setFld (R.CRR_SNR_AVG c) F.CRR_SNR_AVG_count errs.length
    let z := s.cr c
    let low := decide (min snrX snrY < s.guarThr c)
    let below := if low then z.belowRun + 1 else 0
    let above := if low then 0 else z.aboveRun + 1
    s.setCr c { z with errs, belowRun := below, aboveRun := above, logged := z.logged && decide (above < 16) }

/-- The GMI of a superframe by hard decisions (R176), with the noise of the one before (R172); held where there is no data symbol. -/
def State.crGmi (c : Carrier) (x y : PolOut) (s : State) : State :=
  let h := (s.fec c).h64
  let one := fun (f : Fld) (s2 : Nat) (l : List Cplx) (s : State) =>
    if l.isEmpty then s else s.setFld (R.CRR_GMI c) f (gmiOf h (gmiLoss (s.carBase c) (modeComp (s.carBase c) h) s2 l) l.length)
  one F.CRR_GMI_gmi_y (s.cr c).noiseY y.data (one F.CRR_GMI_gmi_x (s.cr c).noiseX x.data s)

/-- Cycle slips of a superframe (R171), and the last pilots' phases, while the phase loop runs. -/
def State.crSlips (c : Carrier) (x y : PolOut) (s : State) : State :=
  if s.crState c < 2 then s
  else
    let n := slipsFrom (s.cr c).phX x.phases + slipsFrom (s.cr c).phY y.phases
    let z := s.cr c
    let s := s.setCr c { z with phX := x.phases.getLast?.or z.phX, phY := y.phases.getLast?.or z.phY }
    if n = 0 then s else (s.addCnt (R.CRR_SLIP_CNT c) n).setFlag (R.CRR_STATUS c) F.CRR_STATUS_slip true

/-- Data symbols of a superframe that were delivered erased (R155): none while LLRs are valid, which they become at a boundary only; all that were not valid at the
boundary before; else those from the cause on.  A symbol of both polarisations counts once (DESIGN
CHOICE: notes/assumptions/95.md). -/
def State.crErased (c : Carrier) (m : RxMeas) (s : State) : State :=
  if s.flag (R.CRR_STATE c) F.CRR_STATE_llr_valid then s
  else s.addCnt (R.CRR_ERASED_CNT c) (if (s.cr c).vouched then min sfData m.erased else sfData)

/-- The estimates that the next superframe goes by: noise (R172), whether LLRs are valid. -/
def State.crKeep (c : Carrier) (x y : PolOut) (s : State) : State :=
  s.setCr c { s.cr c with noiseX := x.noise, noiseY := y.noise, vouched := s.flag (R.CRR_STATE c) F.CRR_STATE_llr_valid }

/-- The blocks rejoin a valid stream from state 0 (R155, R161, R170): EQZ_x adapts pilot-aided, or stays held; CRR_x acquires the frequency. -/
def State.rxRejoin (c : Carrier) (s : State) : State :=
  let s := if s.fld (R.EQZ_STATE c) F.EQZ_STATE_eq_state = 0 then
      (s.setFld (R.EQZ_STATE c) F.EQZ_STATE_eq_state (if (s.eq c).held then 3 else 1)).setEq c { s.eq c with sfCount := 0 }
    else s
  if s.crState c = 0 then s.setFld (R.CRR_STATE c) F.CRR_STATE_cr_state 1 else s

/-- A fault restart that was due acts (R177): state 0, from which the block reacquires at the next boundary; EQZ_x with centre-spike taps of the count in use, CRR_x
with it, whose input it was. -/
def State.faultRestart (c : Carrier) (s : State) : State :=
  let eq := (s.eq c).restartDue
  let s := if eq then
      let s := (s.eqLoadSpike c (s.eq c).ntaps).setFld (R.EQZ_STATE c) F.EQZ_STATE_eq_state 0
      s.setEq c { s.eq c with restartDue := false }
    else s
  if eq ∨ (s.cr c).restartDue then (s.setCr c { s.cr c with restartDue := false }).crLeave c 0 else s

/-- The commands that waited for the boundary take effect: EQ_RECONVERGE, CR_REACQUIRE (Table EQC-4). -/
def State.eqCommandsDue (c : Carrier) (s : State) : State :=
  let s := match s.startedOp (eqzQ c) 0x101 with
    | some e => (s.eqSpike c).complete e 0 0 0
    | none => s
  match s.startedOp (crrQ c) 0x100 with
  | some e => (s.crLeave c (if s.crState c = 0 then 0 else 1)).complete e 0 0 0
  | none => s

/-- FEC_x shows the decoded-bit GMI of a superframe, or holds it where no block without an uncorrectable codeword was released in it (R202). -/
def State.gmiShow (c : Carrier) (s : State) : State :=
  let x := s.fec c
  if x.gmiN = 0 then s
  else
    let s := (s.setFld (R.FEC_GMI c) F.FEC_GMI_gmi_x (gmiOf x.h64 x.gmiX x.gmiN)).setFld (R.FEC_GMI c) F.FEC_GMI_gmi_y (gmiOf x.h64 x.gmiY x.gmiN)
    s.setFec c { x with gmiX := 0, gmiY := 0, gmiN := 0 }

/-- What EQZ_x and CRR_x make of a superframe of a valid stream (R155 to R177): what passed is reported and estimated in the state in which it passed; then the
states move on. -/
def State.rxSuperframe (c : Carrier) (m : RxMeas) (x y : PolOut) (s : State) : State :=
  let s := (((s.crErased c m).sopReport c).crGmi c x y).crSlips c x y
  let s := ((s.crSnr c x y).crStep c m x y).rxRejoin c
  let s := (((s.polCheck c m).polSwap c).eqMode c).faultRestart c
  s.crKeep c x y

/-- A receive superframe boundary (R145): RXF_x applies what waited for it, EQZ_x and CRR_x report, check and move on, FEC_x reports
its GMI, and ATBOUND commands may start. -/
def execRxSuperframeBoundary (c : Carrier) (m : RxMeas) (s : State) : Out :=
  if s.flag (R.RXF_STATE c) F.RXF_STATE_sf_lock = false then .next s
  else
    let x := s.recoverPol c false m.groupsX
    let y := s.recoverPol c true m.groupsY
    let s := s.rxfBoundary c m
    let s := if s.rxValid c then s.rxSuperframe c m x y else s.faultRestart c
    let s := ((s.gmiShow c).eqCommandsDue c).crCaptures c x y
    .next (((s.armBoundary (rxfQ c)).armBoundary (eqzQ c)).armBoundary (crrQ c)).releaseWaiters

/-- Symbols delivered erased while no superframe is marked valid, in one crystal cycle (R155): the symbol rate's 31/32 that carry data (R89). -/
def State.crErasedTick (c : Carrier) (s : State) : State :=
  if s.fld (R.RXF_STATE c) F.RXF_STATE_state = 3 ∧ s.rxValid c = false then
    let n := (s.cr c).erasedRem + s.symRs8 c * 155
    (s.addCnt (R.CRR_ERASED_CNT c) (n / 64)).setCr c { s.cr c with erasedRem := n % 64 }
  else s

/-- Sixteen superframes in a row below the threshold (R175): below_thr, and one WARN event until sixteen in a row are not. -/
def execSnrBelowThreshold (c : Carrier) (s : State) : Out :=
  if (s.cr c).belowRun < 16 then .next s
  else
    let s := s.setFlag (R.CRR_STATUS c) F.CRR_STATUS_below_thr true
    .next (if (s.cr c).logged then s
      else (s.setCr c { s.cr c with logged := true }).logEvent (crrId c) sevWarn 0x0004
        (evData [(2, s.fld (R.CRR_SNR_AVG c) F.CRR_SNR_AVG_snr_avg16)]))

end Sys2Proof.Machine
end

