-- ==== Sys2Proof/Machine/Fec.lean ====
section
/-! DEFINITION. Soft-decision coding (FEC_x): block lock (R188), seeding (R189), released blocks and their counts (R191, R200, R201), engines
and sparing (R194 to R196), the encoder's fault (R197), commands (R203). -/
namespace Sys2Proof.Machine

/-- The engine that carries a chain (FEC_CHAIN_MAP_x). -/
def State.chainEngine (s : State) (c : Carrier) (chain : Nat) : Nat := (s.reg (R.FEC_CHAIN_MAP c)).toNat / 16 ^ chain % 16

/-- The chain that an engine carries. -/
def State.engineChain (s : State) (c : Carrier) (e : Nat) : Option Nat := (List.range 8).find? (fun k => s.chainEngine c k == e)

/-- Give a chain to an engine. -/
def State.setChainEngine (c : Carrier) (chain e : Nat) (s : State) : State :=
  let a := R.FEC_CHAIN_MAP c
  s.setReg a (BitVec.ofNat 32 ((s.reg a).toNat - s.chainEngine c chain * 16 ^ chain + e * 16 ^ chain))

/-! ### Block lock -/

/-- The grid of the candidates in data symbols, and how many there are (R188): candidate k is the phase at an offset of k · g. -/
def fecGrid (base : Nat) : Nat := if base = 1 then 2048 else 4096
def fecCands (base : Nat) : Nat := 8 * fecNs base / fecGrid base

/-- A fraction of satisfied checks: satisfied, and all. -/
abbrev CheckFrac := Nat × Nat

/-- F over n positions of every chain from position p on (R188). -/
def checkFrac (mp p n : Nat) (h : FecHard) : CheckFrac :=
  h.foldl (fun f ch =>
    let x := fecSatisfied mp ((ch.drop p).take n) (ch.getD (p - 1) []) (ch.getD (p - 2) [])
    (f.1 + x.1, f.2 + x.2)) (0, 0)

/-- F of a candidate over 4 groups: the first two positions of a chain have no predecessors to be checked with (DEDUCED: notes/assumptions/99.md). -/
def candFrac (mp : Nat) (h : FecHard) : CheckFrac := checkFrac mp 2 46 h

/-- F of each of 4 groups. -/
def groupFracs (mp : Nat) (h : FecHard) : List CheckFrac :=
  [checkFrac mp 2 10 h, checkFrac mp 12 12 h, checkFrac mp 24 12 h, checkFrac mp 36 12 h]

/-- F is below num / 1,000; F exceeds F' by num / 1,000 at least. -/
def CheckFrac.below (num : Nat) (f : CheckFrac) : Bool := decide (f.1 * 1000 < num * f.2)
def CheckFrac.leads (num : Nat) (f g : CheckFrac) : Bool := decide (num * f.2 * g.2 + 1000 * g.1 * f.2 ≤ 1000 * f.1 * g.2)

/-- The run of groups in which F of the locked candidate was below 0.505 (R188): it reaches 8, or where it stands after the groups. -/
def lowGroups : Nat → List CheckFrac → Nat
  | n, [] => n
  | n, f :: l => if 8 ≤ n then n else if f.below 505 then lowGroups (n + 1) l else lowGroups 0 l

/-- The candidate that block lock is declared at (R188): the one with F ≥ 0.510 that exceeds every other by 0.005. -/
def lockCand (fs : List CheckFrac) : Option (Nat × CheckFrac) :=
  let l := (List.range fs.length).zip fs
  l.find? (fun p => decide (0 < p.2.2) && !p.2.below 510 && l.all (fun q => q.1 == p.1 || p.2.leads 5 q.2))

/-- Four groups have passed (R188): block lock is declared at the best candidate with F ≥ 0.510 and a lead of 0.005, or lost after eight groups in a row below
0.505.  A lock ends the trial of an accepted entropy with CAR_MODE.h64 as it stands (R100; DESIGN CHOICE: notes/assumptions/13.md). -/
def execFecBlockLockSearch (c : Carrier) (hard : List FecHard) (s : State) : Out :=
  let mp := fecMp (s.carRate c)
  if s.flag (R.CRR_STATE c) F.CRR_STATE_llr_valid = false ∨ s.carFamily c ≠ 0 then .next s
  else if s.flag (R.FEC_STATE c) F.FEC_STATE_blk_lock then
    let n := lowGroups (s.fec c).lowRun ((groupFracs mp (hard.headD [])).filter (fun f => decide (0 < f.2)))
    .next (if 8 ≤ n then s.fecUnlock c else s.setFec c { s.fec c with lowRun := n })
  else match lockCand ((hard.take (fecCands (s.carBase c))).map (candFrac mp)) with
    | none => .next s
    | some (k, f) =>
      let s := (s.fecRestart c).setFlag (R.FEC_STATE c) F.FEC_STATE_blk_lock true
      let s := s.setFld (R.FEC_STATE c) F.FEC_STATE_lock_phase k
      let s := s.setFrm c { s.frm c with rxTry := none }
      .next (s.logEvent (fecId c) sevInfo 0x0004 (evData [(1, k), (4, f.1 * 65536 / f.2)]))

/-! ### Blocks -/

/-- Whether a chain is seeded (R189). -/
def State.seeded (s : State) (c : Carrier) (chain : Nat) : Bool := s.fld (R.FEC_STATE c) F.FEC_STATE_seeded / 2 ^ chain % 2 == 1

/-- Mark a chain seeded or not. -/
def State.setSeeded (c : Carrier) (chain : Nat) (b : Bool) (s : State) : State :=
  let v := s.fld (R.FEC_STATE c) F.FEC_STATE_seeded
  s.setFld (R.FEC_STATE c) F.FEC_STATE_seeded (v - b2n (s.seeded c chain) * 2 ^ chain + b2n b * 2 ^ chain)

/-- The LLRs of a block's data symbols by position (R155, R172, R173, R186): erasures while CRR_x vouches for none. -/
def State.fecLlrs (s : State) (c : Carrier) (syms : List (Cplx × Cplx)) : List (List Int) :=
  let base := s.carBase c
  let raw := demapBlock base (modeComp base (s.fec c).h64) (s.cr c).noiseX (s.cr c).noiseY syms
  let q := raw.map (quantLlr (s.fld (R.CRR_CTRL c) F.CRR_CTRL_llr_scale))
  blockLlrs (s.carRate c) (if s.flag (R.CRR_STATE c) F.CRR_STATE_llr_valid then q.toArray else #[])

/-- A captured block's bytes (R203): its LLRs, or its decided bits packed, in the order position, column, bit. -/
def llrBytes (llr : List (List Int)) : List Byte := llr.flatten.map (BitVec.ofInt 8)
def decidedBytes (rate : Nat) (slots : Array Bool) : List Byte :=
  bitsBytesLow 11520 ((List.range fecN).map (fun n => slots.getD (placeSlot rate n) false))

/-- The captures of a chain that waited for its next block complete (R203): llr as received, the bits as decided; a block that no engine decoded has no decided
bits, free bytes stand for them. -/
def State.fecCaptureDue (c : Carrier) (chain : Nat) (llr : List (List Int)) (bits : Option (Array Bool)) (s : State) : State :=
  let due := (s.queue (fecQ c)).entries.filter (fun e => e.started && e.desc.opcode == 0x102 && e.desc.unit == chain)
  due.foldl (fun s e =>
    let s := if e.desc.arg1 % 2 = 0 then s.setBytes e.desc.arg0 (llrBytes llr)
      else match bits with
        | some b => s.setBytes e.desc.arg0 (decidedBytes (s.carRate c) b)
        | none => s.capture e.desc.arg0 11520
    s.complete e 0 (s.cnt (R.FEC_BLOCK_CNT c)) 0) s

/-- The runs of uncorrectable blocks that count towards a failed engine (R195): one more of this chain, and none of any other; a good block ends its own. -/
def uncRuns (v : Vector Nat 8) (chain : Fin 8) (bad : Bool) : Vector Nat 8 :=
  if bad then (Vector.replicate 8 0).set chain (v[chain] + 1) else v.set chain 0

/-- A block is released (R191, R195, R202): it is counted; an uncorrectable one also sets uncorr and is flagged to FRM_x. -/
def State.fecReleased (c : Carrier) (chain : Fin 8) (bad : Bool) (s : State) : State :=
  let s := s.addCnt (R.FEC_BLOCK_CNT c) 1
  let x := s.fec c
  let s := s.setFec c { x with uncRun := uncRuns x.uncRun chain bad, tries := x.tries.set chain (x.tries[chain] + 1), flagged := x.flagged + b2n bad }
  if bad then (s.addCnt (R.FEC_UNCORR_CNT c) 1).setFlag (R.FEC_STATUS c) F.FEC_STATUS_uncorr true else s

/-- The pre-FEC counts of a block without an uncorrectable codeword (R200): bits and errors, X and Y. -/
def State.fecPre (c : Carrier) (x y : Nat × Nat) (s : State) : State :=
  (((s.addCnt (R.FEC_PRE_BITS_X c) x.1).addCnt (R.FEC_PRE_BITS_Y c) y.1).addCnt (R.FEC_PRE_ERR_X c) x.2).addCnt (R.FEC_PRE_ERR_Y c) y.2

/-- A block of a chain whose engine is failed and not replaced is released as lost (R195). -/
def State.fecLost (c : Carrier) (chain : Fin 8) (s : State) : State :=
  let x := s.fec c
  let s := s.setFec c { x with lostSince := x.lostSince.set chain (x.lostSince[chain] + 1) }
  (s.addCnt (R.FEC_LOST_CNT c) 1).fecReleased c chain true

/-- The counts and flags of a decoded block (R189, R191, R200 to R202). -/
def State.fecDecoded (c : Carrier) (chain : Fin 8) (b : BlockOut) (s : State) : State :=
  let base := s.carBase c
  let rate := s.carRate c
  let scale := s.fld (R.CRR_CTRL c) F.CRR_CTRL_llr_scale
  let s := b.iters.foldl (fun s n => s.addCnt (R.FEC_ITER c (n - 1)) 1) s
  let s := (s.addCnt (R.FEC_BCH_CORR_CNT c) b.fixed).fecReleased c chain (b.uncorr ≠ 0 || b.dmInvalid)
  let s := if b.dmInvalid then s.setFlag (R.FEC_STATUS c) F.FEC_STATUS_dm_invalid true else s
  if b.uncorr ≠ 0 then s
  else
    let x := s.fec c
    let s := s.setFec c { x with
      gmiX := x.gmiX + gmiSum base scale 0 b, gmiY := x.gmiY + gmiSum base scale 1 b, gmiN := x.gmiN + fecNs base }
    let s := if b.dmInvalid then s else s.fecPre c (preFec base rate 0 b) (preFec base rate 1 b)
    s.setSeeded c chain.val true

/-- An entropy that waits for its block takes effect with the block that arrives (R99, R192). -/
def State.fecEntropy (c : Carrier) (s : State) : State :=
  match (s.fec c).next with
  | some h => (s.setFec c { s.fec c with h64 := h, next := none }).setEntropy c h
  | none => s

/-- The chain's engine is failed and not replaced (R195). -/
def State.chainLost (s : State) (c : Carrier) (chain : Nat) : Bool := (s.fec c).pendFail.contains (s.chainEngine c chain)

/-- The next block of a chain is admitted (R190): the one in the window is decoded and released, or released as lost; a chain with an empty window only fills it. -/
def State.fecAdmit (c : Carrier) (chain : Fin 8) (rows : List (List Int)) (s : State) : State :=
  let rate := s.carRate c
  let x := (s.fec c).chains[chain]
  let put := fun (y : ChainDec) (s : State) => s.setFec c { s.fec c with chains := (s.fec c).chains.set chain { y with h64 := (s.fec c).h64 } }
  if x.llr.isEmpty then put (x.fill rate rows) s
  else if s.chainLost c chain.val then
    ((put (ChainDec.cold.fill rate rows) s).fecLost c chain).fecCaptureDue c chain.val x.llr none
  else
    let (b, y) := releaseBlock (s.carBase c) rate x.h64 (s.flag (R.FEC_CTRL c) F.FEC_CTRL_et_en) (s.fld (R.FEC_CTRL c) F.FEC_CTRL_iter_max) rows x
    ((put y s).fecDecoded c chain b).fecCaptureDue c chain.val x.llr (some b.slots.toArray)

/-- A code block of an agreement is released (R198): what its decoder makes of it; the iteration histogram does not count CFEC. -/
def State.fecAgreement (c : Carrier) (chain : Fin 8) (syms : List (Cplx × Cplx)) (s : State) : State :=
  let w := (Config.iopBlock (s.carFamily c) (s.fld (R.FEC_IOP_CFG c) F.FEC_IOP_CFG_iop_mode) syms).toNat
  let f := fun k => w / 2 ^ (6 + 20 * k) % 2 ^ 20
  if s.chainLost c chain.val then s.fecLost c chain
  else
    let s := if s.carFamily c = 2 then s else s.addCnt (R.FEC_ITER c (min 17 (w / 2 % 32))) 1
    let s := s.fecReleased c chain (w % 2 == 1)
    if w % 2 = 1 then s else s.fecPre c (f 0, f 1) (f 2, f 3)

/-- A block has arrived (R180): the block boundary applies the pending set (R54) and lets ATBOUND commands start; its chain admits it. -/
def State.fecArrive (c : Carrier) (f : Fin 8 → State → State) (s : State) : State :=
  let s := (s.applyBoundary .fecBlk c).fecEntropy c
  let b := (s.fec c).arrived
  let s := f (Fin.ofNat 8 b) (s.setFec c { s.fec c with arrived := b + 1 })
  (s.armBoundary (fecQ c)).releaseWaiters

/-- The next block's symbols have arrived (R180, R190, R198): blocks of NFEC under block lock, of an agreement while the stream is valid. -/
def execFecBlockRelease (c : Carrier) (syms : List (Cplx × Cplx)) (s : State) : Out :=
  if s.carFamily c ≠ 0 then .next (if s.rxValid c then s.fecArrive c (fun k s => s.fecAgreement c k syms) else s)
  else if s.flag (R.FEC_STATE c) F.FEC_STATE_blk_lock = false ∨ syms.length ≠ fecNs (s.carBase c) then .next s
  else .next (s.fecArrive c (fun k s => s.fecAdmit c k (s.fecLlrs c syms)))

/-- A chain is not seeded within 64 of its blocks (R189); it keeps trying. -/
def execFecSeedFail (c : Carrier) (chain : Fin 8) (s : State) : Out :=
  let x := s.fec c
  if s.carFamily c ≠ 0 ∨ s.flag (R.FEC_STATE c) F.FEC_STATE_blk_lock = false ∨ s.seeded c chain.val ∨ x.tries[chain] < 64 then .next s
  else
    let s := (s.setFec c { x with tries := x.tries.set chain 0 }).setFlag (R.FEC_STATUS c) F.FEC_STATUS_seed_fail true
    .next (s.logEvent (fecId c) sevWarn 0x0006 (evData [(1, chain.val)]))

/-! ### Engines -/

/-- A cause of a failure can be judged (R195, R196): none while LLRs are erased, and excess_thr uncorrectable blocks in a row of a chain, with none of another
between, only of an engine in use under block lock with every chain seeded. -/
def State.fecCause (s : State) (c : Carrier) (engine cause : Nat) : Bool :=
  s.flag (R.CRR_STATE c) F.CRR_STATE_llr_valid && (cause ≠ 2 ||
    (s.flag (R.FEC_STATE c) F.FEC_STATE_blk_lock && s.fld (R.FEC_STATE c) F.FEC_STATE_seeded == 0xFF && s.carFamily c == 0 &&
      (match s.engineChain c engine with
        | some k => decide (s.fld (R.FEC_CTRL c) F.FEC_CTRL_excess_thr ≤ (s.fec c).uncRun[Fin.ofNat 8 k])
        | none => false)))

/-- A decoder engine is declared failed (R195). -/
def execFecEngineFailed (c : Carrier) (engine : Fin 9) (cause : Fin 3) (s : State) : Out :=
  if s.roleAt (R.FEC_ENGINE_MAP c) engine.val = 2 ∨ s.fecCause c engine.val cause.val = false then .next s
  else
    let inUse := s.roleAt (R.FEC_ENGINE_MAP c) engine.val = 0
    let ch := (s.engineChain c engine.val).getD 0
    let s := (s.setRole (R.FEC_ENGINE_MAP c) engine.val 2).fecCount c
    let s := s.setFlag (R.FEC_STATUS c) F.FEC_STATUS_dec_fault true
    let s := if inUse then s.setFec c { s.fec c with pendFail := (s.fec c).pendFail ++ [engine.val] } else s
    .next (s.logEvent (fecId c) sevFault 0x0001 (evData [(1, engine.val), (1, ch), (1, cause.val)]))

/-- An engine that takes a chain over decodes its window afresh from the LLR buffer and the boundary store (R195). -/
def State.fecRefill (c : Carrier) (chain : Fin 8) (s : State) : State :=
  let x := (s.fec c).chains[chain]
  if x.llr.isEmpty then s
  else s.setFec c { s.fec c with chains := (s.fec c).chains.set chain { x with lat := freshLattice (s.carRate c) x.llr } }

/-- Replace failed engines by the lowest idle ones (R195, R196). -/
def State.swapEngines (c : Carrier) : List Nat → State → List Nat × State
  | [], s => ([], s)
  | e :: l, s =>
    let ch := (s.engineChain c e).getD 0
    match s.lowestRole (R.FEC_ENGINE_MAP c) 9 1 with
    | none =>
      let s := (s.setFlag (R.FEC_STATUS c) F.FEC_STATUS_no_spare true).logEvent (fecId c) sevAlarm 0x0003 (evData [(1, ch)])
      let (r, s) := s.swapEngines c l
      (e :: r, s)
    | some i =>
      let lost := (s.fec c).lostSince[Fin.ofNat 8 ch]
      let s := ((s.setRole (R.FEC_ENGINE_MAP c) i 0).setChainEngine c ch i).fecCount c
      let s := (s.setFec c { s.fec c with lostSince := (s.fec c).lostSince.set (Fin.ofNat 8 ch) 0 }).addCnt (R.FEC_SWAP_CNT c) 1
      let s := s.fecRefill c (Fin.ofNat 8 ch)
      let s := s.logEvent (fecId c) sevWarn 0x0002 (evData [(1, e), (1, i), (4, lost)])
      (s.spareUsed (fecId c)).swapEngines c l

/-- The superframe boundary after a declaration (R195): the lowest idle engine takes the chain. -/
def execFecEngineSwap (c : Carrier) (s : State) : Out :=
  let (rest, s') := s.swapEngines c (s.fec c).pendFail
  .next (s'.setFec c { s'.fec c with pendFail := rest })

/-- The encoder's two results differ for a block (R197): it is not delivered to TXP_x, which acts under R127. -/
def execFecEncoderFault (c : Carrier) (block : BitVec 32) (s : State) : Out :=
  if s.flag (R.FEC_STATE c) F.FEC_STATE_enc_run = false then .next s
  else
  let x := s.tx c
  let s := s.setTx c { x with line := { x.line with withheld := x.line.withheld ++ [block.toNat] } }
  let s := s.setFlag (R.FEC_STATUS c) F.FEC_STATUS_enc_fault true
  .next (s.logEvent (fecId c) sevFault 0x0007 (evData [(4, block.toNat)]))

/-- FEC_RELOCK (R203): the search restarts. -/
def execFecRelock (c : Carrier) (s : State) : Out :=
  .next (s.runCommand (fecQ c) 0x100 (fun d s =>
    if d.unit ≠ 0xFF then (some (0x02, 0, 0), s)
    else if s.fld (R.RXF_STATE c) F.RXF_STATE_acq ≠ 4 then (some (0x06, 0, 0), s)
    else (some (0, 0, 0), s.fecUnlock c)))

/-- FEC_RETEST (R203) starts on an engine not in use; COMMAND_COMPLETION ends it. -/
def execFecRetest (c : Carrier) (s : State) : Out :=
  .next (s.runCommand (fecQ c) 0x101 (fun d s =>
    if 9 ≤ d.unit then (some (0x02, 0, 0), s)
    else if s.roleAt (R.FEC_ENGINE_MAP c) d.unit = 0 ∨ s.roleAt (R.FEC_ENGINE_MAP c) d.unit = 3 then (some (0x06, 0, 0), s)
    else (none, (s.setRole (R.FEC_ENGINE_MAP c) d.unit 3).fecCount c)))

/-- An engine retest ends (R196): an engine that passes is idle, one that fails is failed. -/
def State.fecRetestDone (c : Carrier) (engine : Nat) (pass : Bool) (s : State) : State :=
  ((s.setRole (R.FEC_ENGINE_MAP c) engine (if pass then 1 else 2)).fecCount c).logEvent (fecId c) sevInfo 0x0008
    (evData [(1, engine), (1, b2n (!pass))])

/-- FEC_CAPTURE (R203): the next block of the chain. -/
def execFecCapture (c : Carrier) (s : State) : Out :=
  .next (s.runCommand (fecQ c) 0x102 (fun d s =>
    if 8 ≤ d.unit ∨ bufferOk d.arg0 (if d.arg1 % 2 = 0 then 92160 else 11520) = false then (some (0x02, 0, 0), s)
    else if s.flag (R.FEC_STATE c) F.FEC_STATE_blk_lock = false then (some (0x06, 0, 0), s) else (none, s)))

end Sys2Proof.Machine
end

