-- ==== Sys2Proof/Machine/Hail.lean ====
section
/-! DEFINITION. The hail channel (HAIL_x): sending (R211 to R214), receiving (R215 to R222), loss of hail (R221), commands (R224), the modem's
fault (R225). -/
namespace Sys2Proof.Machine

/-- The block and the queue of HAIL_x (Tables ARC-1, ENG-1). -/
def hailId (c : Carrier) : Nat := carBlock c 6
def hailQ (c : Carrier) : Fin 64 := carQueue c 6

/-- tx_fifo and rx_pending show the fills. -/
def State.hailShow (c : Carrier) (s : State) : State :=
  (s.setFld (R.HAIL_STATE c) F.HAIL_STATE_tx_fifo (s.hail c).fifo.length).setFld (R.HAIL_STATE c) F.HAIL_STATE_rx_pending
    (s.hail c).ring.length

/-- Types that a program may send, and those that go to the ring (Table HAIL-6). -/
def hailProgType (t : Nat) : Bool := (1 ≤ t && t ≤ 0x0F) || (0x30 ≤ t && t ≤ 0x7F)

/-- The level of a descriptor as a holder of claims (Table ENG-2). -/
def Desc.holder (d : Desc) : Holder := if d.level = 1 then .harbour else .berth

/-- The HL_SEND at the head of the queue starts if it may (R213): refused, left waiting while the FIFO is full, or entered into the FIFO, its
payload read (R129). -/
def State.hlSend (c : Carrier) (s : State) : State :=
  match s.startable (hailQ c) 0x100 with
  | none => s
  | some e =>
    let d := e.desc
    let len := d.arg1 % 4096
    let typ := d.arg1 / 2 ^ 16 % 256
    let fi := d.arg1 / 2 ^ 24 % 16
    let fl := d.arg1 / 2 ^ 28 % 16
    if d.unit ≠ 0xFF ∨ 2048 < len ∨ hailProgType typ = false ∨ fl < fi ∨ (len ≠ 0 ∧ bufferOk d.arg0 len = false) then s.complete e 0x02 0 0
    else if s.holds d.holder (0x24 + c.code) = false ∨ s.hailTxNow c = 0 then s.complete e 0x06 0 0
    else if (s.hail c).fault then s.complete e 0x05 0 0
    else if 16 ≤ (s.hail c).fifo.length then s
    else
      let b : HailBurst := { typ, fragIdx := fi, fragLast := fl, msgId := d.arg2 % 256, payload := s.bytes d.arg0 len, ticket := some e.ticket }
      ((((s.startEntry e.ticket).setHail c { s.hail c with fifo := (s.hail c).fifo ++ [b] }).hailShow c).settle (hailQ c)).releaseWaiters

/-- HL_SEND (R213, Table HAIL-7). -/
def execHlSend (c : Carrier) (s : State) : Out := .next (s.hlSend c)

/-- HL_RECV (Table HAIL-7): the oldest burst of the ring goes to the buffer, or result0 is 0. -/
def execHlRecv (c : Carrier) (s : State) : Out :=
  .next (s.runCommand (hailQ c) 0x101 (fun d s =>
    if d.unit ≠ 0xFF ∨ bufferOk d.arg0 2064 = false then (some (0x02, 0, 0), s)
    else match (s.hail c).ring with
      | [] => (some (0, 0, 0), s)
      | b :: l =>
        let s := (s.setHail c { s.hail c with ring := l }).hailShow c
        (some (0, b.header.toNat, 0), s.setBytes d.arg0 (leBytes 8 b.header.toNat ++ leBytes 8 b.time.toNat ++ b.payload))))

/-- A burst of a source begins. -/
def State.hailBegin (c : Carrier) (b : HailBurst) (s : State) : State :=
  let seq := s.fld (R.HAIL_SEQ c) F.HAIL_SEQ_tx_seq
  let seq := if b.typ = 0 then seq else (seq + 1) % 256
  let s := s.setFld (R.HAIL_SEQ c) F.HAIL_SEQ_tx_seq seq
  s.setHail c { s.hail c with cur := some { burst := b, seq, start := s.time.devtime, windowed := s.hailTxNow c == 2, windows := 0 } }

/-- The scheduler begins the first ready burst (R211): enclave, FRM_x, program FIFO, and IDLE in the continuous condition.  A program
burst leaves the FIFO, and an HL_SEND that waited for a place enters it (R213). -/
def execHailBurstStart (c : Carrier) (s : State) : Out :=
  let h := s.hail c
  if h.fault ∨ h.cur.isSome ∨ s.hailTxNow c = 0 then .next s
  else match h.encl, h.frmq, h.fifo with
    | b :: l, _, _ => .next ((s.setHail c { h with encl := l }).hailBegin c b)
    | [], b :: l, _ => .next ((s.setHail c { h with frmq := l }).hailBegin c b)
    | [], [], b :: l => .next ((((s.setHail c { h with fifo := l }).hailBegin c b).hailShow c).hlSend c)
    | [], [], [] =>
      .next (if s.hailTxNow c = 1 then
          s.hailBegin c { typ := 0, fragIdx := 0, fragLast := 0, msgId := 0, payload := [], ticket := none }
        else s)

/-- A change of transmit state out of HAIL that waited for the end of a burst takes effect (R104). -/
def State.hailRelease (c : Carrier) (s : State) : State :=
  if s.txState c = 2 ∧ (s.startedOp (txpQ c) 0x100).isSome then s.txStateDone c else s

/-- A burst's last symbol is sent (R212): it is counted, its HL_SEND completes, and a change out of HAIL that waited for it takes
effect (R104). -/
def execHailBurstSent (c : Carrier) (s : State) : Out :=
  match (s.hail c).cur with
  | none => .next s
  | some x =>
    let last := if x.windowed then none else x.bits.getLast?.map (·.1)
    let s := (s.setHail c { s.hail c with cur := none, tail := last }).addCnt (R.HAIL_TX_CNT c) 1
    let s := match x.burst.ticket.bind s.entryOf with
      | some e => s.complete e 0 x.seq x.start.toNat
      | none => s
    .next (s.hailRelease c)

/-! ### Receiving -/

/-- A reception begins on a peak (R215, R217): its offset and its gain, frozen, are shown. -/
def State.hailRecvStart (c : Carrier) (p : HailPeak) (s : State) : State :=
  let s := s.setHail c { s.hail c with recv := some { metric := p.metric, time := p.time, cand := none, header := none } }
  let s := s.setFldS (R.HAIL_RX_STATUS c) F.HAIL_RX_STATUS_offset p.offset
  (s.setFld (R.HAIL_RX_STATUS c) F.HAIL_RX_STATUS_agc_gain p.gain.toNat).setFld (R.HAIL_STATE c) F.HAIL_STATE_rx_state 1

/-- A false start is counted (R218). -/
def State.hailFalseStart (c : Carrier) (s : State) : State :=
  (s.addCnt (R.HAIL_FALSE_START_CNT c) 1).setFlag (R.HAIL_STATUS c) F.HAIL_STATUS_false_start true

/-- A peak at or above corr_thr (R218): it starts a reception, captures the one in progress at 6 dB above its metric, or is kept as the
candidate if it is the largest so far; after the header has passed it is ignored. -/
def State.hailPeak (c : Carrier) (p : HailPeak) (s : State) : State :=
  match (s.hail c).recv with
  | none => s.hailRecvStart c p
  | some r =>
    if r.header.isSome then s
    else if 398 * r.metric ≤ 100 * p.metric then
      (((s.hailFalseStart c).addCnt (R.HAIL_CAPTURE_CNT c) 1).setFlag (R.HAIL_STATUS c) F.HAIL_STATUS_capture true).hailRecvStart c p
    else if r.cand.all (fun o => decide (o.metric < p.metric)) then
      s.setHail c { s.hail c with recv := some { r with cand := some p } }
    else s

/-- Whether HAIL_x receives. -/
def State.hailListens (s : State) (c : Carrier) (cond : Nat) : Bool :=
  s.hailRxNow c == cond && !(s.hail c).fault && !s.flag (R.RXF_STATE c) F.RXF_STATE_los

/-- A preamble peak in the continuous condition (R215, R218), with its offset estimate and gain. -/
def execHailDetection (c : Carrier) (metric : Nat) (offset : BitVec 14) (gain : Byte) (s : State) : Out :=
  .next (if s.hailListens c 1 = false ∨ metric < s.fld (R.HAIL_CFG c) F.HAIL_CFG_corr_thr then s
    else s.hailPeak c { metric, time := s.time.devtime, offset := clampI (-5000) 5000 offset.toInt, gain })

/-- A peak of the windowed condition: the carrier's offset is CRR_x's there, and HAIL_x's estimate stays. -/
def State.hailWinPeak (s : State) (c : Carrier) (metric : Nat) (gain : Byte) : HailPeak :=
  { metric, time := s.time.devtime, offset := s.fldS (R.HAIL_RX_STATUS c) F.HAIL_RX_STATUS_offset, gain }

/-- A window ends in the windowed condition (R216, R218): its energy against win_thr starts a reception whose lock metric is the preamble's
correlation; during a reception a preamble at corr_thr or above is judged as a peak. -/
def execHailWindowDetect (c : Carrier) (energy metric : Nat) (gain : Byte) (s : State) : Out :=
  if s.hailListens c 2 = false then .next s
  else match (s.hail c).recv with
    | none =>
      .next (if s.fld (R.HAIL_CFG c) F.HAIL_CFG_win_thr ≤ energy then s.hailRecvStart c (s.hailWinPeak c metric gain) else s)
    | some _ => .next (if s.fld (R.HAIL_CFG c) F.HAIL_CFG_corr_thr ≤ metric then s.hailPeak c (s.hailWinPeak c metric gain) else s)

/-- The header's fields (Table HAIL-2). -/
def hdrVersion (h : W64) : Nat := h.toNat / 2 ^ 60
def hdrType (h : W64) : Nat := h.toNat / 2 ^ 52 % 256
def hdrSeq (h : W64) : Nat := h.toNat / 2 ^ 44 % 256
def hdrLength (h : W64) : Nat := h.toNat / 2 ^ 32 % 4096
def hdrFragIdx (h : W64) : Nat := h.toNat / 2 ^ 28 % 16
def hdrFragLast (h : W64) : Nat := h.toNat / 2 ^ 24 % 16

/-- The header passes its crc16 (R208). -/
def hdrCrcOk (h : W64) : Bool := crc16 (beBytes 6 (h.toNat / 2 ^ 16)) == h.truncate 16

/-- A burst that passed its CRCs goes to the sink of its type (R222). -/
def State.hailDeliver (c : Carrier) (b : HailRxBurst) (s : State) : State :=
  let t := hdrType b.header
  let s := s.addCnt (R.HAIL_RX_CNT c) 1
  if t = 0 then s
  else
    let seq := hdrSeq b.header
    let s := if seq = (s.fld (R.HAIL_SEQ c) F.HAIL_SEQ_rx_seq + 1) % 256 then s else s.setFlag (R.HAIL_STATUS c) F.HAIL_STATUS_seq_gap true
    let s := s.setFld (R.HAIL_SEQ c) F.HAIL_SEQ_rx_seq seq
    let drop := fun (s : State) => s.addCnt (R.HAIL_DROP_CNT c) 1
    if hailProgType t then
      if 64 ≤ (s.hail c).ring.length then
        ((drop s).setFlag (R.HAIL_STATUS c) F.HAIL_STATUS_rx_overflow true).logEvent (hailId c) sevWarn 0x0003 (evData [(1, t)])
      else (s.setHail c { s.hail c with ring := (s.hail c).ring ++ [b] }).hailShow c
    else if 0x10 ≤ t ∧ t ≤ 0x1F then
      if s.hasCipher then s.setHail c { s.hail c with toSec := (s.hail c).toSec ++ [b] } else drop s
    else if 0x20 ≤ t ∧ t ≤ 0x23 then s.setHail c { s.hail c with toFrm := (s.hail c).toFrm ++ [b] }
    else drop s

/-- A hypothesis of R141, in units of 10 ps/nm. -/
def cdHyp (h : Nat) : Int := if h % 2 = 1 then 1000 * (h + 1) else -1000 * h

/-- The dispersion search stops at its hypothesis, which is recorded (R141). -/
def State.hailCdFound (c : Carrier) (s : State) : State :=
  if s.flag (R.RXF_STATE c) F.RXF_STATE_hail_cd_found then s
  else
    let s := (s.setFlag (R.RXF_STATE c) F.RXF_STATE_hail_cd_found true).setFldS (R.RXF_CD_STATUS c) F.RXF_CD_STATUS_cd_hail
      (cdHyp (s.fld (R.RXF_STATE c) F.RXF_STATE_hyp))
    s.logEvent (rxfId c) sevInfo 0x0008 (evData [(2, s.fld (R.RXF_CD_STATUS c) F.RXF_CD_STATUS_cd_hail)])

/-- The header is decoded (R218, R219): a failed CRC is a false start, and the receiver restarts on the kept candidate or returns to search; a
passed one stops the dispersion search (R141), clears a loss of hail (R221) and, if valid, lets the payload follow. -/
def execHailHeaderDecoded (c : Carrier) (header : W64) (s : State) : Out :=
  match (s.hail c).recv with
  | none => .next s
  | some r =>
    if r.header.isSome then .next s
    else if hdrCrcOk header = false then
      let s := s.hailFalseStart c
      match r.cand with
      | some p => .next (s.hailRecvStart c p)
      | none => .next (s.hailAbandon c)
    else
      let s := s.setFld (R.HAIL_RX_STATUS c) F.HAIL_RX_STATUS_lock_metric (min 255 r.metric)
      let cont := s.hailRxNow c == 1
      let s := if cont then s.hailCdFound c else s
      let s := if cont && (s.hail c).firstDue then
          s.logEvent (hailId c) sevInfo 0x0001 (evData [(2, unsigned 16 (s.fldS (R.HAIL_RX_STATUS c) F.HAIL_RX_STATUS_offset)),
            (1, min 255 r.metric)])
        else s
      let s := if cont then s.setHail c { s.hail c with lastPass := some s.time.devtime, firstDue := false } else s
      if hdrVersion header ≠ 1 ∨ 2048 < hdrLength header ∨ hdrFragLast header < hdrFragIdx header then
        .next ((s.hailAbandon c).setFlag (R.HAIL_STATUS c) F.HAIL_STATUS_hdr_invalid true)
      else if hdrLength header = 0 then
        .next ((s.hailAbandon c).hailDeliver c { header, time := r.time, payload := [] })
      else
        .next ((s.setHail c { s.hail c with recv := some { r with header := some header, cand := none } }).setFld (R.HAIL_STATE c)
          F.HAIL_STATE_rx_state 2)

/-- The payload of a reception is decoded (R219, R222): a failed CRC-32 discards and counts it. -/
def execHailBurstReceived (c : Carrier) (payload : List Byte) (crc : W32) (s : State) : Out :=
  match (s.hail c).recv with
  | none => .next s
  | some r =>
    match r.header with
    | none => .next s
    | some h =>
      if payload.length ≠ hdrLength h then .next s
      else
        let s := s.hailAbandon c
        if crc32 payload = crc then .next (s.hailDeliver c { header := h, time := r.time, payload })
        else .next ((s.addCnt (R.HAIL_CRC32_FAIL_CNT c) 1).setFlag (R.HAIL_STATUS c) F.HAIL_STATUS_crc32_fail true)

/-- Low energy after the header abandons the reception as lost (R220). -/
def execHailReceptionLost (c : Carrier) (s : State) : Out :=
  if (s.hail c).recv.any (fun r => r.header.isSome) then
    .next (((s.hailAbandon c).addCnt (R.HAIL_LOST_CNT c) 1).setFlag (R.HAIL_STATUS c) F.HAIL_STATUS_burst_lost true)
  else .next s

/-- loss_ms have passed with no header pass (R221): once after each pass, in the continuous condition.  Under LOS the dispersion search resumes with the
hypothesis in progress (R150). -/
def execHailLoss (c : Carrier) (s : State) : Out :=
  match (s.hail c).lastPass with
  | none => .next s
  | some t =>
    if s.hailRxNow c ≠ 1 then .next s
    else
      let s := s.setFlag (R.HAIL_STATUS c) F.HAIL_STATUS_hail_loss true
      let s := s.setHail c { s.hail c with lastPass := none, firstDue := true }
      let s := s.logEvent (hailId c) sevWarn 0x0002 (evData [(4, (s.time.devtime - t).toNat / 10000000)])
      .next (if s.rxLos c then s.setFlag (R.RXF_STATE c) F.RXF_STATE_hail_cd_found false else s.hailNextHyp c)

/-- A mismatch of the modem's logic (R225): it stops sending and receiving until a reset; commands it holds end with status 0x05; with its burst gone, a change
of transmit state that waited for that takes effect (R104). -/
def execHailEngineFault (c : Carrier) (s : State) : Out :=
  let held := ((s.hail c).cur.toList.filterMap (·.burst.ticket)) ++ (s.hail c).fifo.filterMap (·.ticket)
  let s := s.setHail c { s.hail c with fault := true, cur := none, fifo := [], tail := none }
  let s := ((s.hailAbandon c).hailShow c).setFlag (R.HAIL_STATUS c) F.HAIL_STATUS_engine_fault true
  let s := s.logFault (hailId c) 0x0005 []
  .next ((held.foldl (fun s t => s.endTicket t 0x05 0 0) s).hailRelease c)

end Sys2Proof.Machine
end

