-- ==== Sys2Proof/Machine/Cph.lean ====
section
/-! DEFINITION. The cipher engine (CPH): units and sparing (R296 to R298, R314 to R316), records and epochs (R302 to R312), erasure (R307, R318), the
engine fault (R319), commands (R321). -/
namespace Sys2Proof.Machine

/-! ### Units -/

/-- The role of unit u: 0 in use, 1 idle, 2 quarantined, 3 under retest. -/
def State.unitRole (s : State) (u : Nat) : Nat := if u < 16 then s.roleAt R.CPH_UNIT_MAP0 u else s.roleAt R.CPH_UNIT_MAP1 (u - 16)

/-- Set the role of unit u. -/
def State.setUnit (u r : Nat) (s : State) : State :=
  if u < 16 then s.setRole R.CPH_UNIT_MAP0 u r else s.setRole R.CPH_UNIT_MAP1 (u - 16) r

/-- The healthy units, ascending. -/
def State.healthyUnits (s : State) : List Nat := (List.range 26).filter (fun u => s.unitRole u ≤ 1)

/-- The protection mode of a client in a direction (R301). -/
def State.protMode (s : State) (n dir : Nat) : Nat :=
  s.fld (R.CPH_CLIENT_STATUS n) (if dir = 0 then F.CPH_CLIENT_STATUS_tx_mode else F.CPH_CLIENT_STATUS_rx_mode)

/-- The slots of a client in a direction. -/
def State.dirSlots (s : State) (n dir : Nat) : Nat := if dir = 0 then s.txSlots n else s.rxSlots n

/-- The enabled clients whose mode in a direction is not clear, ascending (R297). -/
def State.cipherClients (s : State) (dir : Nat) : List Nat := (List.range 128).filter (fun n => s.cliOn n && s.protMode n dir != 0)

/-- The ciphered load of a direction (R297). -/
def State.cipherLoad (s : State) (dir : Nat) : Nat := (s.cipherClients dir).foldl (fun a n => a + s.dirSlots n dir) 0

/-- The units needed (R297). -/
def State.unitsNeeded (s : State) : Nat := max ((s.cipherLoad 0 + 33) / 34) ((s.cipherLoad 1 + 33) / 34)

/-- CPH_STATE follows the unit map. -/
def State.unitCount (s : State) : State :=
  let h := s.healthyUnits
  (s.setFld R.CPH_STATE F.CPH_STATE_healthy h.length).setFld R.CPH_STATE F.CPH_STATE_spares (h.filter (fun u => s.unitRole u == 1)).length

/-- The needed units are taken from the healthy ones in ascending number (R297). -/
def State.assignUnits (s : State) : State :=
  let need := s.unitsNeeded
  let s := s.setFld R.CPH_STATE F.CPH_STATE_needed (min need 31)
  let h := s.healthyUnits
  ((h.zip (List.range h.length)).foldl (fun s p => s.setUnit p.1 (if p.2 < need then 0 else 1)) s).unitCount

/-- The clients shed in a direction (R298): descending, until what remains is at most 34 times the healthy units. -/
def State.shedFrom (s : State) (dir room : Nat) : List Nat → Nat → List Nat
  | [], _ => []
  | n :: l, load => if load ≤ room then [] else n :: s.shedFrom dir room l (load - s.dirSlots n dir)

/-- A frame boundary of a carrier: CPH recomputes its units, and sheds clients of that carrier or ends their shedding (R297, R298). -/
def State.cphFrameBoundary (c : Carrier) (s : State) : State :=
  if s.hasCipher = false then s
  else
    let s := s.assignUnits
    let h := s.healthyUnits.length
    let want := fun dir => if h < s.unitsNeeded then
        (s.shedFrom dir (34 * h) (s.cipherClients dir).reverse (s.cipherLoad dir)).filter (fun n => decide (s.cliCar n = c))
      else []
    let others := fun (l : List Nat) => l.filter (fun n => decide (s.cliCar n ≠ c))
    let tx := want 0
    let rx := want 1
    let fresh := (tx.filter (fun n => !s.cph.shedTx.contains n)).length + (rx.filter (fun n => !s.cph.shedRx.contains n)).length
    let was := !(s.cph.shedTx.isEmpty && s.cph.shedRx.isEmpty)
    let old := s.cph.shedTx ++ s.cph.shedRx
    let s := { s with cph := { s.cph with shedTx := others s.cph.shedTx ++ tx, shedRx := others s.cph.shedRx ++ rx } }
    let now := !(s.cph.shedTx.isEmpty && s.cph.shedRx.isEmpty)
    if !was && !now then s
    else
      let s := s.setFlag R.CPH_STATE F.CPH_STATE_shedding now
      let s := (old ++ tx ++ rx).foldl (fun s n =>
        (s.setFlag (R.CPH_CLIENT_STATUS n) F.CPH_CLIENT_STATUS_shed (s.cph.shedTx.contains n || s.cph.shedRx.contains n)).cliShow n) s
      let s := if fresh = 0 then s else s.addCnt R.CPH_SHED_CNT fresh
      if !was && now then
        (s.setFlag R.CPH_STATUS F.CPH_STATUS_shed true).logEvent 0x14 sevAlarm 0x0002
          (evData [(4, h), (4, s.unitsNeeded), (1, (tx ++ rx).foldl max 0)])
      else s

/-! ### Unrecoverable receive cipher (R312) -/

/-- A condition of R312 begins or ends on a carrier: bit 0 enclave, 1 engine fault, 2 tags. -/
def State.cphUnrec (c : Carrier) (b : Nat) (on : Bool) (s : State) : State :=
  let x := s.cphCar c
  let has := x.unrec / 2 ^ b % 2 == 1
  if has = on then s
  else
    let v := if on then x.unrec + 2 ^ b else x.unrec - 2 ^ b
    let s := s.setCphCar c { x with unrec := v }
    let f := match c with
      | .A => F.CPH_STATE_unrec_a
      | .B => F.CPH_STATE_unrec_b
    let s := (s.setFlag R.CPH_STATE f (v != 0)).setFlag (R.FRM_DEFECT c) F.FRM_DEFECT_cph (v != 0)
    let s := if x.unrec = 0 then s.logEvent 0x14 sevAlarm 0x0005 (evData [(1, c.code), (1, b)]) else s
    s.frmActs c false

/-- A carrier has an enabled client with a receive mode other than 0. -/
def State.cphRxUsed (s : State) (c : Carrier) : Bool := (s.cipherClients 1).any (fun n => decide (s.cliCar n = c))

/-! ### Epochs and records -/

/-- The enclave's state of a carrier. -/
def State.secCar (s : State) : Carrier → SecCarrier
  | .A => s.sec.carA
  | .B => s.sec.carB

/-- Replace it. -/
def State.setSecCar (c : Carrier) (x : SecCarrier) (s : State) : State :=
  match c with
  | .A => { s with sec := { s.sec with carA := x } }
  | .B => { s with sec := { s.sec with carB := x } }

/-- SEC_SESS_x. -/
abbrev R.SEC_SESS (c : Carrier) : Nat := 0x1F000200 + 0x100 * c.code

/-- An epoch becomes active in a direction of a carrier (R336, Table SEC-13): the first record under it, of whichever client. -/
def State.secEpoch (c : Carrier) (dir n fe : Nat) (s : State) : State :=
  let x := s.secCar c
  if (if dir = 0 then x.actTx else x.actRx) = some (n, fe) then s
  else
    let s := s.setSecCar c (if dir = 0 then { x with actTx := some (n, fe) } else { x with actRx := some (n, fe) })
    let s := if dir = 0 then s.setReg (R.SEC_TX_EPOCH c.code) (BitVec.ofNat 32 n)
      else (s.setReg (R.SEC_RX_EPOCH c.code) (BitVec.ofNat 32 n)).setFlag (R.SEC_SESS c) F.SEC_SESS_A_act_pending_rx false
    let s := if s.fld (R.SEC_SESS c) F.SEC_SESS_A_sess_state = 2 then s.setFld (R.SEC_SESS c) F.SEC_SESS_A_sess_state 3 else s
    ((s.addCnt R.SEC_RATCHET_CNT 1).noteTotal 20 1).logEvent 0x15 sevInfo 0x0003 (evData [(1, c.code), (1, dir), (4, n), (8, fe)])

/-- The slot that record F activates (R304, R306): of those with F_e ≤ F, the largest F_e; the others of them are erased. -/
def State.epochActivate (n dir f : Nat) (s : State) : State :=
  let mine := s.cph.slots.filter (fun p => p.1 / 4 == 2 * n + dir && decide (p.2.fe ≤ f))
  match mine.foldl (fun b p => match b with
      | none => some p
      | some q => if q.2.fe < p.2.fe then some p else some q) none with
  | none => s
  | some (k, x) =>
    if x.act then s
    else
      let rest := s.cph.slots.filter (fun p => !(p.1 / 4 == 2 * n + dir && decide (p.2.fe ≤ f)))
      let s := { s with cph := { s.cph with slots := (k, { x with act := true, first := s.time.devtime, records := 0 }) :: rest } }
      let s := s.setFlag (R.CPH_CLIENT_STATUS n)
        (if dir = 0 then F.CPH_CLIENT_STATUS_tx_squelch else F.CPH_CLIENT_STATUS_rx_squelch) false
      ((s.cphShow n).secEpoch (s.cliCar n) dir x.n x.fe).cliShow n

/-- A client and direction is squelched (R308): cause 0 rc, 1 time, 2 no epoch. -/
def State.squelch (n dir cause : Nat) (s : State) : State :=
  let f := if dir = 0 then F.CPH_CLIENT_STATUS_tx_squelch else F.CPH_CLIENT_STATUS_rx_squelch
  if s.flag (R.CPH_CLIENT_STATUS n) f then s
  else
    let s := (s.setFlag (R.CPH_CLIENT_STATUS n) f true).setFlag R.CPH_STATUS F.CPH_STATUS_squelch true
    ((s.logEvent 0x14 sevWarn 0x0003 (evData [(1, n), (1, dir), (1, cause)])).noteTotal 28 1).cliShow n

/-- Why record F of a client has no usable epoch (R308): none when it has one. -/
def State.epochLimit (s : State) (n dir f : Nat) : Option Nat :=
  match s.activeSlot n dir with
  | none => some 2
  | some (_, x) =>
    if 2 ^ 32 ≤ f - x.fe then some 0
    else if 9000000000000 ≤ (s.time.devtime - x.first).toNat then some 1
    else none

/-- Record f of a client is judged: without a usable epoch its direction is squelched (R308). -/
def State.epochJudge (n dir f : Nat) (s : State) : State :=
  match s.epochLimit n dir f with
  | some cause => s.squelch n dir cause
  | none => s

/-- One more record under the active epoch (Table CPH-6). -/
def State.countRecord (n dir : Nat) (s : State) : State :=
  { s with cph := { s.cph with slots := s.cph.slots.map (fun p =>
    if p.1 / 4 == 2 * n + dir && p.2.act then (p.1, { p.2 with records := p.2.records + 1 }) else p) } }

/-- The most blocks of a direction that were issued and not released, which the row of a record brings, reached the window of 8,192 (R317): issue stalled
(DESIGN CHOICE: notes/assumptions/100.md). -/
def State.cphWindow (peak : Fin 8193) (s : State) : State := if peak.val = 8192 then s.setFlag R.CPH_STATUS F.CPH_STATUS_win_stall true else s

/-- What record f of a tributary is ciphered under (R304 to R306): its active slot, its words and the capacity in force for its payload. -/
def recordCtx (x : CphSlot) (trib words cap f : Nat) : RecordCtx :=
  { key := x.key, h := x.hkey, j0 := gcmJ0 x.salt (f - x.fe), aad := recordAad trib x.n x.mode words cap f }

/-- The frame that carrier c formed last. -/
def State.lastFrame (s : State) (c : Carrier) : Option TxFrame := (s.tx c).line.frames.head?

/-- The record of client n in that frame is sent as text, and the next frame carries its tag (R302). -/
def State.putRecord (c : Carrier) (n : Nat) (text : List Byte) (tag : Option (BitVec 128)) (s : State) : State :=
  let l := (s.tx c).line
  let s := s.setTx c { s.tx c with line := { l with frames := l.frames.modifyHead (fun f => f.put n text) } }
  let x := s.cphCar c
  s.setCphCar c { x with tags := (tag.map (fun t => (n, t))).toList ++ x.tags.filter (fun p => p.1 != n) }

/-- The record of a frame that completes (R300, R302): ciphered under its active epoch. -/
def State.sealRecord (c : Carrier) (n words : Nat) (f : TxFrame) (plain : List Byte) (s : State) : State :=
  match s.activeSlot n 0 with
  | none => s
  | some (_, x) =>
    let (text, tag) := gcmSeal x.mode (recordCtx x n words f.cap (s.cphCar c).ftx) (takePad (32 * words) 0 plain)
    s.putRecord c n text (some tag)

/-- An abandoned record (R315): the blocks already released stay sent, how many is a free number; filler follows, and no tag (notes/assumptions/100.md). -/
def State.cutRecord (c : Carrier) (n words : Nat) (f : TxFrame) (plain : List Byte) (s : State) : State :=
  match s.activeSlot n 0 with
  | none => s
  | some (_, x) =>
    let (w, s) := s.draw
    let sent := 16 * (w.toNat % (2 * words + 1))
    let text := (gcmSeal x.mode (recordCtx x n words f.cap (s.cphCar c).ftx) (takePad (32 * words) 0 plain)).1
    s.putRecord c n (text.take sent ++ (holdFill words).drop sent) none

/-- A transmit record (R304, R308, R309, R315): its epoch may activate; a squelched, shed or abandoned context, or one after an engine fault, sends
cipher-hold filler, which the frame was formed with; any other record is ciphered and completed. -/
def execCphTxRecord (c : Carrier) (client : Fin 128) (peak : Fin 8193) (s : State) : Out :=
  let n := client.val
  let plain := (s.client n).plain
  match s.lastFrame c with
  | none => .next s
  | some fr =>
  let words := fr.words n
  if s.hasCipher = false ∨ s.cliOn n = false ∨ s.cliCar n ≠ c ∨ words = 0 ∨ s.protMode n 0 = 0 then .next s
  else
    let s := s.cphWindow peak
    let f := (s.cphCar c).ftx
    let s := (s.epochActivate n 0 f).epochJudge n 0 f
    let aband := s.cph.abandoned.contains n
    let hold := s.flag (R.CPH_CLIENT_STATUS n) F.CPH_CLIENT_STATUS_tx_squelch || s.cph.shedTx.contains n || s.cph.fault
    let s := { s with cph := { s.cph with abandoned := s.cph.abandoned.filter (· != n) } }
    let s := s.countRecord n 0
    .next (if hold then s.addCnt (R.CPH_TX_HOLD_CNT n) 1
      else if aband then (s.cutRecord c n words fr plain).addCnt (R.CPH_TX_HOLD_CNT n) 1
      else ((s.sealRecord c n words fr plain).addCnt (R.CPH_TX_REC_CNT n) 1).addCnt R.CPH_TX_BLOCK_CNT (2 * words))

/-- Consecutive tag failures of a client (R311). -/
def State.failRun (s : State) (n : Nat) : Nat := (s.cph.failRun.lookup n).getD 0
def State.setFailRun (n v : Nat) (s : State) : State :=
  { s with cph := { s.cph with failRun := if v = 0 then s.cph.failRun.filter (fun p => p.1 != n)
                                          else (n, v) :: s.cph.failRun.filter (fun p => p.1 != n) } }

/-- What the record of a client that is due was ciphered under (R304 to R306); the tributary is that of the client's receive berth. -/
def State.dueCtx (s : State) (c : Carrier) (trib words : Nat) (x : CphSlot) : RecordCtx := recordCtx x trib words (s.cphCar c).dueCap (s.cphCar c).dueF

/-- A record's text gives its tag under the active receive epoch (R300, R310). -/
def State.tagMatches (s : State) (c : Carrier) (n trib : Nat) (text : List Byte) (tag : BitVec 128) : Bool :=
  match s.activeSlot n 1 with
  | none => false
  | some (_, x) => gcmTag (s.dueCtx c trib (text.length / 32) x) text == tag

/-- Words with other bytes, 32 to a word. -/
def wordsFrom : List Byte → List RxWord → List RxWord
  | _, [] => []
  | l, w :: r => { w with bytes := takePad 32 0 l } :: wordsFrom (l.drop 32) r

/-- Words reach CLM (R310). -/
def State.clmGive (n : Nat) (l : List RxWord) (s : State) : State := s.setClient n { s.client n with rx := (s.client n).rx ++ l }

/-- The words of a record whose tag is right, as plaintext. -/
def State.openRecord (s : State) (c : Carrier) (n trib : Nat) (l : List RxWord) : List RxWord :=
  match s.activeSlot n 1 with
  | none => l
  | some (_, x) => wordsFrom (gcmOpen x.mode (s.dueCtx c trib l.length x) (l.flatMap (·.bytes))) l

/-- A record has been taken to be judged. -/
def State.dueTaken (c : Carrier) (trib : Nat) (s : State) : State :=
  let x := s.cphCar c
  s.setCphCar c { x with due := x.due.filter (fun p => p.1 != trib) }

/-- A received record is judged (R308 to R312): absent, squelched, passed or failed.  It is the record of the frame before the last one, and its tag stands at its
position in the last one (R302).  CLM gets its plaintext, or its words marked errored, or as absent. -/
def execCphRxRecord (c : Carrier) (client : Fin 128) (peak : Fin 8193) (s : State) : Out :=
  let n := client.val
  let trib := s.fld (R.CLM_CLIENT_CFG n) F.CLM_CLIENT_CFG_rx_trib
  let ws := tribWords (s.cphCar c).dueMf trib (s.cphCar c).due
  let text := ws.flatMap (·.bytes)
  let tag := BitVec.ofNat 128 (beNat (((s.cphCar c).dueTags.drop (16 * trib)).take 16))
  if s.hasCipher = false ∨ s.cliOn n = false ∨ s.cliCar n ≠ c ∨ ws = [] ∨ s.protMode n 1 = 0 then .next s
  else
    let s := (s.cphWindow peak).dueTaken c trib
    let x := s.cphCar c
    let s := (if x.frxSet then s.epochActivate n 1 x.dueF else s).epochJudge n 1 x.dueF
    if tag = 0 then .next (((s.countRecord n 1).addCnt (R.CPH_RX_ABSENT_CNT n) 1).clmGive n (ws.map (fun w => { w with absent := true })))
    else if s.flag (R.CPH_CLIENT_STATUS n) F.CPH_CLIENT_STATUS_rx_squelch ∨ s.cph.fault then .next s
    else
      let s := s.countRecord n 1
      let x := s.cphCar c
      if s.tagMatches c n trib text tag then
        let s := ((s.addCnt (R.CPH_RX_OK_CNT n) 1).addCnt R.CPH_RX_BLOCK_CNT (2 * ws.length)).clmGive n (s.openRecord c n trib ws)
        let s := (s.setFailRun n 0).setCphCar c { x with okNow := x.okNow + 1, failFrames := 0 }
        let s := if s.flag (R.CPH_CLIENT_STATUS n) F.CPH_CLIENT_STATUS_rx_fail then
            (s.setFlag (R.CPH_CLIENT_STATUS n) F.CPH_CLIENT_STATUS_rx_fail false).cliShow n
          else s
        .next (s.cphUnrec c 2 false)
      else
        let s := ((s.addCnt (R.CPH_AUTH_FAIL_CNT n) 1).setFlag R.CPH_STATUS F.CPH_STATUS_auth_fail true).clmGive n
          (ws.map (fun w => { w with bad := true }))
        let s := (s.setFailRun n (s.failRun n + 1)).setCphCar c { x with badNow := x.badNow + 1 }
        .next (if 8 ≤ s.failRun n ∧ s.flag (R.CPH_CLIENT_STATUS n) F.CPH_CLIENT_STATUS_rx_fail = false then
            let s := (s.setFlag (R.CPH_CLIENT_STATUS n) F.CPH_CLIENT_STATUS_rx_fail true).setFlag R.CPH_STATUS F.CPH_STATUS_rx_fail true
            (s.logEvent 0x14 sevWarn 0x0004 (evData [(1, n)])).cliShow n
          else s)

/-- The records of the frame before the last one are due, with the tags that the last one brought; the last one's are kept (R302, R310).  F is that of the frame
before, so this comes ahead of F_rx. -/
def State.cphRecords (c : Carrier) (tags : List Byte) (l : List (Nat × RxWord)) (cap : Nat) (mf : Bool) (s : State) : State :=
  let x := s.cphCar c
  s.setCphCar c { x with due := x.rxRec, dueCap := x.rxCap, dueMf := x.rxMf, dueF := x.frx, dueTags := tags, rxRec := l, rxCap := cap, rxMf := mf }

/-- The words of the clients that are not ciphered reach CLM at once. -/
def State.clearWords (c : Carrier) (l : List (Nat × RxWord)) (mf : Bool) (s : State) : State :=
  ((List.range 128).filter (fun n => s.cliOn n && decide (s.cliCar n = c) && s.protMode n 1 == 0)).foldl (fun s n =>
    let ws := tribWords mf (s.fld (R.CLM_CLIENT_CFG n) F.CLM_CLIENT_CFG_rx_trib) l
    if ws.isEmpty then s else s.clmGive n ws) s

/-- A receive frame of a carrier ends (R312): a frame whose records with an active epoch all failed counts toward the third condition. -/
def State.cphRxFrameEnd (c : Carrier) (s : State) : State :=
  let x := s.cphCar c
  let run := if 0 < x.badNow ∧ x.okNow = 0 then x.failFrames + 1 else 0
  let s := s.setCphCar c { x with failFrames := run, okNow := 0, badNow := 0 }
  if 8 ≤ run then s.cphUnrec c 2 true else s

/-- Frames of carrier c in a time given in DEVTIME units, at the nominal rate (R303). -/
def State.framesIn (s : State) (c : Carrier) (dt : Nat) : Nat :=
  dt * s.carRs8 c * 31 * netInfo (s.carBase c) (s.carRate c) (s.frm c).rxH64 / (80 * 16 * 64 * (rateFrac (s.carRate c)).2 * 4194304)

/-- The number nearest to p whose low 24 bits are v (R303). -/
def nearest24 (p v : Nat) : Nat :=
  let b := p / 2 ^ 24 * 2 ^ 24 + v
  if b + 2 ^ 23 < p then b + 2 ^ 24 else if p + 2 ^ 23 < b ∧ 2 ^ 24 ≤ b then b - 2 ^ 24 else b

/-- F_rx advances with a received frame; in IM its low 24 bits are those received (R303). -/
def State.frxAdvance (c : Carrier) (im : Bool) (low : Nat) (s : State) : State :=
  let x := s.cphCar c
  if x.frxSet = false then s
  else if im then
    let p := if x.wasIm then x.frx + 1 else x.imF + s.framesIn c (s.time.devtime - x.imAt).toNat
    let f := nearest24 p low
    s.setCphCar c { x with frx := f, imF := f, imAt := s.time.devtime, wasIm := true }
  else s.setCphCar c { x with frx := x.frx + 1, wasIm := false }

/-! ### Faults, erasure -/

/-- The unit that takes over comes into use (R314). -/
def State.unitIn (idle : Option Nat) (s : State) : State :=
  match idle with
  | some i => s.setUnit i 0
  | none => s

/-- A mismatch on a unit (R314 to R316): it is quarantined, the lowest idle unit takes its work, transmit records in flight on it are abandoned. -/
def execCphUnitMismatch (unit : Fin 26) (rxSide : Bool) (inFlight : List (Fin 128)) (s : State) : Out :=
  let u := unit.val
  if s.hasCipher = false ∨ 2 ≤ s.unitRole u then .next s
  else
    let inUse := s.unitRole u == 0
    let s := ((s.setUnit u 2).addCnt R.CPH_MISMATCH_CNT 1).setFlag R.CPH_STATUS F.CPH_STATUS_mismatch true
    let idle := if inUse then (List.range 26).find? (fun i => s.unitRole i == 1) else none
    let (w, s) := s.draw
    let s := ((s.unitIn idle).unitCount).logEvent 0x14 sevFault 0x0001 (evData [(1, u), (1, b2n rxSide), (1, idle.getD (w.toNat % 256))])
    let s := s.spareUsed 0x14
    .next (inFlight.foldl (fun s n =>
      if s.protMode n.val 0 = 0 ∨ s.cph.abandoned.contains n.val then s
      else (({ s with cph := { s.cph with abandoned := n.val :: s.cph.abandoned } }).addCnt (R.CPH_ABANDON_CNT n.val) 1).setFlag
        R.CPH_STATUS F.CPH_STATUS_abandon true) s)

/-- Every context is erased (R318, R319): records in progress are abandoned. -/
def State.cphEraseAll (s : State) : State :=
  let busy := (List.range 128).filter (fun n => s.cliOn n && s.protMode n 0 != 0 && (s.activeSlot n 0).isSome && !s.cph.abandoned.contains n)
  let s := busy.foldl (fun s n => (s.addCnt (R.CPH_ABANDON_CNT n) 1).setFlag R.CPH_STATUS F.CPH_STATUS_abandon true) s
  let hit := s.cph.slots.map (fun p => p.1 / 8)
  let s := { s with cph := { s.cph with slots := [], abandoned := s.cph.abandoned ++ busy } }
  hit.foldl (fun s n => s.cphShow n) s

/-- CPH's own logic mismatches (R319): every context is erased, every ciphered client held, both receivers unrecoverable. -/
def execCphEngineFault (s : State) : Out :=
  let s := ({ s with cph := { s.cph with fault := true } }).setFlag R.CPH_STATUS F.CPH_STATUS_engine_fault true
  let s := (s.cphEraseAll).logFault 0x14 0x0007 []
  .next ((s.cphUnrec .A 1 true).cphUnrec .B 1 true)

/-- Contexts are erased by zeroisation (cause 0) or the enclave's error (cause 1) (R318). -/
def State.cphSecErase (cause : Nat) (s : State) : State :=
  if s.hasCipher then
    let s := (s.cphEraseAll).setFlag R.CPH_STATUS F.CPH_STATUS_zeroised true
    let s := s.logEvent 0x14 sevAlarm 0x0006 (evData [(1, cause)])
    let one := fun (c : Carrier) (s : State) => if s.cphRxUsed c then s.cphUnrec c 0 true else s
    one .B (one .A s)
  else s

/-! ### Commands -/

/-- CP_UNIT_RETEST (Table CPH-5): an idle or quarantined unit goes under retest; the test's end is a command completion. -/
def execCpUnitRetest (s : State) : Out :=
  .next (s.runCommand 20 0x100 (fun d s =>
    if 25 < d.unit then (some (0x02, 0, 0), s)
    else if s.unitRole d.unit = 0 ∨ s.unitRole d.unit = 3 then (some (0x06, 0, 0), s)
    else if s.cph.fault then (some (0x05, 0, 0), s)
    else (none, (s.setUnit d.unit 3).unitCount)))

/-- The retest of a unit ends (R321). -/
def State.cpRetestDone (d : Desc) (failed : Bool) (s : State) : State :=
  if s.unitRole d.unit = 3 then
    ((s.setUnit d.unit (if failed then 2 else 1)).unitCount).logEvent 0x14 sevInfo 0x0008 (evData [(1, d.unit), (1, b2n failed)])
  else s

/-- An epoch record (Table CPH-6). -/
def epochRecord : Option CphSlot → List Byte
  | none => List.replicate 32 0
  | some x =>
    [if x.act then 2 else 1, BitVec.ofNat 8 x.mode, BitVec.ofNat 8 x.n] ++ List.replicate 5 0 ++ leBytes 8 x.fe ++
    leBytes 8 (if x.act then x.first.toNat else 0) ++ leBytes 8 x.records

/-- CP_READ_CONTEXT (Table CPH-5): the four epoch records of a client and direction, no key material. -/
def execCpReadContext (s : State) : Out :=
  .next (s.runCommand 20 0x101 (fun d s =>
    let n := d.arg0 % 128
    let dir := d.arg0 / 256 % 2
    if d.unit ≠ 0xFF ∨ d.arg0 / 128 % 2 = 1 ∨ 512 ≤ d.arg0 ∨ bufferOk d.arg1 128 = false then (some (0x02, 0, 0), s)
    else
      (some (0, 0, 0), s.setBytes d.arg1 ((List.range 4).flatMap (fun e => epochRecord (s.cph.slots.lookup (ctxNo n dir e)))))))

end Sys2Proof.Machine
end

