-- ==== Sys2Proof/Machine/Clm.lean ====
section
/-! DEFINITION. Client mapping and berths (CLM, BRT): the configuration check (R256), berth maps (R257, R258), block berths (R260 to R264), packet berths
(R265 to R271), commands (R274), faults (R273). -/
namespace Sys2Proof.Machine

/-! ### Configuration -/

/-- A client's configuration word (CLM_CLIENT_CFG_c). -/
structure CliCfg where
  on : Bool
  car : Nat
  packet : Bool
  typ : Nat
  idx : Nat
  eth : Nat
  rate : Nat
  trib : Nat
  pb : Nat
deriving DecidableEq, Repr

/-- The fields of a client's word. -/
def cliCfgOf (w : W32) : CliCfg :=
  { on := getBits F.CLM_CLIENT_CFG_enable w == 1, car := getBits F.CLM_CLIENT_CFG_carrier w, packet := getBits F.CLM_CLIENT_CFG_kind w == 1
    typ := getBits F.CLM_CLIENT_CFG_src_type w, idx := getBits F.CLM_CLIENT_CFG_src_index w, eth := getBits F.CLM_CLIENT_CFG_eth_type w
    rate := getBits F.CLM_CLIENT_CFG_lane_rate w, trib := getBits F.CLM_CLIENT_CFG_rx_trib w, pb := getBits F.CLM_CLIENT_CFG_pb w }

/-- The configuration in force and the one a COMMIT would apply. -/
def State.cliCfg (s : State) (n : Nat) : CliCfg := cliCfgOf (s.reg (R.CLM_CLIENT_CFG n))
def State.cliWant (s : State) (n : Nat) : CliCfg := cliCfgOf (s.merged (R.CLM_CLIENT_CFG n) (fieldsAt (R.CLM_CLIENT_CFG n)))

/-- A FlexE group's configuration (CLM_FLEXE_GRP_g). -/
structure GrpCfg where
  on : Bool
  phy : Nat
  first : Nat
  phys : Nat
  rate : Nat
deriving DecidableEq, Repr

/-- The fields of a group's word. -/
def grpCfgOf (w : W32) : GrpCfg :=
  { on := getBits F.CLM_FLEXE_GRP_enable w == 1, phy := getBits F.CLM_FLEXE_GRP_phy_type w, first := getBits F.CLM_FLEXE_GRP_first_lane w
    phys := getBits F.CLM_FLEXE_GRP_phys w, rate := getBits F.CLM_FLEXE_GRP_lane_rate w }

def State.grpCfg (s : State) (g : Nat) : GrpCfg := grpCfgOf (s.reg (R.CLM_FLEXE_GRP g))
def State.grpWant (s : State) (g : Nat) : GrpCfg := grpCfgOf (s.merged (R.CLM_FLEXE_GRP g) (fieldsAt (R.CLM_FLEXE_GRP g)))

/-- The lanes of a PHY type at a lane rate (Table CLM-2). -/
def laneCount (eth rate : Nat) : Option Nat :=
  match eth, rate with
  | 0, 1 => some 1 | 0, 2 => some 2 | 0, 3 => some 4
  | 1, 0 => some 1 | 1, 1 => some 2 | 1, 2 => some 4
  | 2, 0 => some 2 | 2, 1 => some 4 | 2, 2 => some 8
  | 3, 0 => some 4 | 3, 1 => some 8
  | 4, 0 => some 8
  | _, _ => none

/-- Lanes first to first + total - 1, with PHYs of per lanes each, obey R253. -/
def lanesOk (first per total : Nat) : Bool :=
  per != 0 && total != 0 && first % per == 0 && first / 8 == (first + total - 1) / 8 && first + total ≤ 24

/-- The lanes of an Ethernet client and of a group; none when Table CLM-2 or R253 does not allow them. -/
def CliCfg.lanes (x : CliCfg) : Option (List Nat) :=
  match laneCount x.eth x.rate with
  | some k => if lanesOk x.idx k k then some ((List.range k).map (x.idx + ·)) else none
  | none => none
def GrpCfg.lanes (x : GrpCfg) : Option (List Nat) :=
  match laneCount x.phy x.rate with
  | some k => if x.phy ≤ 2 && x.phys ≤ 8 && lanesOk x.first k (k * x.phys) then some ((List.range (k * x.phys)).map (x.first + ·)) else none
  | none => none

/-- The slots of a FlexE group's calendar: 5 Gb/s each (R254). -/
def GrpCfg.calLen (x : GrpCfg) : Nat := 20 * 2 ^ x.phy * x.phys

/-- The calendars of a group, and the one in use. -/
def State.flexCal (s : State) (g b : Nat) : List Byte := s.clm.cals[Fin.ofNat 16 (2 * g + b)]
def State.calInUse (s : State) (g : Nat) : List Byte := s.flexCal g (s.fld (R.CLM_FLEXE_GRP g) F.CLM_FLEXE_GRP_cal_act)

/-- The nominal slot count N of a client (R252). -/
def State.nominal (s : State) (n : Nat) (x : CliCfg) : Nat :=
  if x.typ = 2 then mapSlots (s.calInUse x.idx) n else if x.typ = 0 then 0 else 20 * 2 ^ x.eth

/-- The first of a list with a property. -/
def firstThat (l : List Nat) (p : Nat → Bool) : Option Nat := l.find? p

/-- A map of either carrier, in force or pending, names the client (R256 code 4). -/
def State.mapNames (s : State) (n : Nat) : Bool :=
  [Carrier.A, Carrier.B].any (fun c =>
    decide (0 < mapSlots (s.txMap c) n)
    || ((s.frm c).change.isSome && decide (0 < mapSlots (if (s.frm c).txSel then (s.frm c).txMap0 else (s.frm c).txMap1) n)))

/-- The first failure of Table CLM-3 over the configuration that a COMMIT would apply: its code and the client or group.  Numbers out of range (R12) fail in
disabled clients and groups too. -/
def State.clmCheck (s : State) : Option (Nat × Nat) :=
  let on := (List.range 128).filter (fun n => (s.cliWant n).on)
  let w := s.cliWant
  let grps := (List.range 8).filter (fun g => (s.grpWant g).on)
  let gl := grps.flatMap (fun g => ((s.grpWant g).lanes.getD []).map (fun l => (g, l)))
  let el := (on.filter (fun n => (w n).typ == 1)).flatMap (fun n => ((w n).lanes.getD []).map (fun l => (n, l)))
  let maxIdx := fun t => if t = 1 then 24 else if t = 2 then 8 else if t = 4 then 64 else 128
  let c1 := firstThat (List.range 128) (fun n => decide (5 ≤ (w n).typ) || decide (5 ≤ (w n).eth) || decide (maxIdx (w n).typ ≤ (w n).idx))
  let c2 := firstThat on (fun n => on.any (fun m => m != n &&
      (((w m).typ == (w n).typ && (w n).typ != 0 && (w n).typ != 2 && (w m).idx == (w n).idx)
       || ((w m).packet && (w n).packet && (w m).pb == (w n).pb)))
    || el.any (fun p => p.1 == n && el.any (fun q => q.1 != n && q.2 == p.2)))
  let c2g := firstThat grps (fun g => gl.any (fun p => p.1 == g && gl.any (fun q => q.1 != g && q.2 == p.2)))
  let c3 := firstThat on (fun n => (w n).typ == 1 && ((w n).lanes.isNone || el.any (fun p => p.1 == n && gl.any (fun q => q.2 == p.2))))
  let c3g := firstThat (List.range 8) (fun g => decide (24 ≤ (s.grpWant g).first) || ((s.grpWant g).on && (s.grpWant g).lanes.isNone))
  let c4 := firstThat (List.range 128) (fun n => s.cliCfg n != w n && s.mapNames n &&
    ((s.cliCfg n).on != (w n).on || (s.cliCfg n).car != (w n).car || (s.cliCfg n).packet != (w n).packet || (s.cliCfg n).typ != (w n).typ
     || (s.cliCfg n).idx != (w n).idx || (s.cliCfg n).eth != (w n).eth))
  let c5 := firstThat on (fun n => (w n).packet && (w n).typ != 1 && (w n).typ != 2)
  let c6 := firstThat on (fun n => (w n).typ == 3 &&
    !((w (w n).idx).on && (w (w n).idx).typ == 3 && (w (w n).idx).idx == n && (w (w n).idx).car != (w n).car
      && (w (w n).idx).packet == (w n).packet && (w (w n).idx).eth == (w n).eth))
  let c7 := firstThat grps (fun g => (s.flexCal g 0 ++ s.flexCal g 1).any (fun b =>
    decide (128 ≤ b.toNat) && !((w (b.toNat - 128)).typ == 2 && (w (b.toNat - 128)).idx == g)))
  let c8 := firstThat on (fun n => (w n).car == 1 && s.part == .ctp2s)
  let c9 := firstThat on (fun n => on.any (fun m => m != n && (w m).car == (w n).car && (w m).trib == (w n).trib))
  ([(1, c1), (2, c2.orElse (fun _ => c2g)), (3, c3.orElse (fun _ => c3g)), (4, c4), (5, c5), (6, c6), (7, c7), (8, c8), (9, c9)].findSome?
    (fun p => p.2.map (fun n => (p.1, n))))

/-! ### Packet-berth contexts -/

/-- A packet-berth context (R265). -/
def State.brtCtx (s : State) (p : Nat) : BrtCtx := s.brt.ctx[Fin.ofNat 64 p]
def State.setBrtCtx (p : Nat) (x : BrtCtx) (s : State) : State := { s with brt := { s.brt with ctx := s.brt.ctx.set (Fin.ofNat 64 p) x } }

/-- The enabled packet client of a context. -/
def State.brtClient (s : State) (p : Nat) : Option Nat :=
  (List.range 128).find? (fun n => s.cliOn n && s.cliPacket n && s.cliPb n == p)

/-- The slots of a context's berth in the transmit map in force. -/
def State.brtSlotsNow (s : State) (p : Nat) : Nat :=
  match s.brtClient p with
  | some n => s.txSlots n
  | none => 0

/-- Parameters of a context. -/
def State.brtMaxFrame (s : State) (p : Nat) : Nat := s.fld (R.BRT_PB_00 p) F.BRT_PB_00_max_frame
def State.brtOverhead (s : State) (p : Nat) : Nat := s.fld (R.BRT_PB_00 p) F.BRT_PB_00_overhead
def State.brtCir (s : State) (p : Nat) : Nat := s.fld (R.BRT_PB_04 p) F.BRT_PB_04_cir
def State.brtPir (s : State) (p : Nat) : Nat := max (s.brtCir p) (s.fld (R.BRT_PB_08 p) F.BRT_PB_08_pir)
def State.brtCbs (s : State) (p : Nat) : Nat := s.fld (R.BRT_PB_0C p) F.BRT_PB_0C_cbs
def State.brtPbs (s : State) (p : Nat) : Nat := s.fld (R.BRT_PB_10 p) F.BRT_PB_10_pbs
def State.brtBurst (s : State) (p : Nat) : Nat := s.fld (R.BRT_PB_18 p) F.BRT_PB_18_shp_burst

/-- The shaper's rate in Mb/s (R268): 0 means the berth rate. -/
def State.brtShpRate (s : State) (p : Nat) : Nat :=
  let r := s.fld (R.BRT_PB_14 p) F.BRT_PB_14_shp_rate
  if r = 0 then 5000 * s.fld (R.BRT_PB_STATUS p) F.BRT_PB_STATUS_slots else r

/-- Tokens accrue up to now (R267, R268): a rate in Mb/s gives that many 1/80,000 bytes in one DEVTIME unit. -/
def State.brtAccrue (p : Nat) (s : State) : State :=
  let x := s.brtCtx p
  let dt := (s.time.devtime - x.at_).toNat
  s.setBrtCtx p { x with tc := min (80000 * s.brtCbs p) (x.tc + s.brtCir p * dt)
                         tp := min (80000 * s.brtPbs p) (x.tp + s.brtPir p * dt)
                         ts := min (80000 * s.brtBurst p) (x.ts + s.brtShpRate p * dt), at_ := s.time.devtime }

/-- The buckets of a context are reset with the given fills (R270). -/
def State.brtReset (p : Nat) (pol shp : Bool) (s : State) : State :=
  let x := s.brtCtx p
  s.setBrtCtx p { x with tc := if pol then 80000 * s.brtCbs p else 0, tp := if pol then 80000 * s.brtPbs p else 0
                         ts := if shp then 80000 * s.brtBurst p else 0, at_ := s.time.devtime }

/-- The buckets are reset with the configured fills. -/
def State.brtResetCfg (p : Nat) (s : State) : State :=
  s.brtReset p (s.flag (R.BRT_PB_00 p) F.BRT_PB_00_pol_fill) (s.flag (R.BRT_PB_00 p) F.BRT_PB_00_shp_fill)

/-- The slot count of a context follows the map in force; a change resets its buckets (R270). -/
def State.brtShow (p : Nat) (s : State) : State :=
  let n := s.brtSlotsNow p
  if s.fld (R.BRT_PB_STATUS p) F.BRT_PB_STATUS_slots = n then s
  else ((s.setFld (R.BRT_PB_STATUS p) F.BRT_PB_STATUS_slots n).setFld (R.BRT_PB_STATUS p) F.BRT_PB_STATUS_gate 0).brtResetCfg p

/-- Cells of a frame (R269). -/
def cellsOf (len : Nat) : Nat := (len + 255) / 256

/-- Give or take cells of a context. -/
def State.brtCells (p : Nat) (d : Int) (s : State) : State :=
  let o : Int := s.fld (R.BRT_PB_STATUS p) F.BRT_PB_STATUS_occupancy
  let f : Int := s.fld R.BRT_STATUS F.BRT_STATUS_free_cells
  (s.setFld (R.BRT_PB_STATUS p) F.BRT_PB_STATUS_occupancy (o + d).toNat).setFld R.BRT_STATUS F.BRT_STATUS_free_cells (f - d).toNat

/-- CLM and BRT at a COMMIT (R256, R270): the client and group configuration is applied whole, or the first failure is recorded; contexts of BRT whose
fields changed have their buckets reset.  changed: those contexts, found before the values took effect. -/
def State.clmCommit (changed : List Nat) (s : State) : State :=
  let s := match s.clmCheck with
    | some (code, n) =>
      let s := (s.setFld R.CLM_CFG_STATUS F.CLM_CFG_STATUS_cfg_err code).setFld R.CLM_CFG_STATUS F.CLM_CFG_STATUS_err_client n
      s.logEvent 0x10 sevWarn 0x0002 (evData [(1, code), (1, n)])
    | none =>
      let s := (s.setFld R.CLM_CFG_STATUS F.CLM_CFG_STATUS_cfg_err 0).setFld R.CLM_CFG_STATUS F.CLM_CFG_STATUS_err_client 0
      let diff := (List.range 128).any (fun n => s.stagedDiff (R.CLM_CLIENT_CFG n)) || (List.range 8).any (fun g =>
        s.stagedDiff (R.CLM_FLEXE_GRP g))
      let s := s.applySet (fun _ f => f.bnd == .clmCfg)
      if diff then forN 64 State.brtShow s.cliShowAll else s
  changed.foldl (fun s p => s.brtResetCfg p) s

/-- The contexts of BRT whose committed fields differ from those in force. -/
def State.brtChanged (s : State) : List Nat :=
  (List.range 64).filter (fun p => (List.range 8).any (fun i => s.stagedDiff (R.BRT_PB_00 p + 4 * i)))

/-! ### Berth maps -/

/-- The 400 slot bytes of a map buffer: an unassigned slot is 0x00 (R230). -/
def normMap (l : List Byte) : List Byte := l.map (fun b => if b.getLsbD 7 then b else 0)

/-- A transmit map is admitted for carrier c (R257). -/
def State.mapOk (s : State) (c : Carrier) (m : List Byte) : Bool :=
  (List.range 128).all (fun n =>
    let k := mapSlots m n
    k == 0 || (let x := s.cliCfg n
      x.on && decide (s.cliCar n = c) && (x.packet || decide (s.nominal n x ≤ k))
      && !(x.typ == 3 && (s.cliCfg x.idx).eth != x.eth)))

/-- No slot at or above a capacity is assigned. -/
def mapWithin (m : List Byte) (cap : Nat) : Bool := (m.drop cap).all (· == 0)

/-- The carrier a command names by a bit. -/
def carOf (b : Nat) : Carrier := if b = 0 then .A else .B

/-- CL_SET_MAP (R257, Table CLM-6). -/
def execClSetMap (s : State) : Out :=
  .next (s.runCommand 16 0x100 (fun d s =>
    let c := carOf (d.arg1 % 2)
    let m := normMap (s.bytes d.arg0 400)
    if d.unit ≠ 0xFF ∨ bufferOk d.arg0 400 = false then (some (0x02, 0, 0), s)
    else if s.hasCarrier c = false then (some (0x03, 0, 0), s)
    else if s.mapOk c m = false then (some (0x02, 0, 0), s)
    else if s.txState c = 3 then (some (0x06, 0, 0), s)
    else
      let x := s.frm c
      let s := s.setFrm c (if x.txSel then { x with txMap1 := m } else { x with txMap0 := m })
      (some (0, 0, 0), forN 64 State.brtShow s.cliShowAll)))

/-- A map as 400 bytes. -/
def mapBytes (m : List Byte) : List Byte := m.take 400 ++ List.replicate (400 - m.length) 0

/-- CL_READ_MAP (Table CLM-6): the transmit map in force, the pending one, or the received one in force. -/
def execClReadMap (s : State) : Out :=
  .next (s.runCommand 16 0x101 (fun d s =>
    let c := carOf (d.arg1 % 2)
    let which := d.arg1 / 256 % 4
    if d.unit ≠ 0xFF ∨ which = 3 ∨ bufferOk d.arg0 400 = false then (some (0x02, 0, 0), s)
    else if s.hasCarrier c = false then (some (0x03, 0, 0), s)
    else
      let x := s.frm c
      let m := if which = 0 then s.txMap c else if which = 1 then (if x.txSel then x.txMap0 else x.txMap1) else s.rxMap c
      (some (0, 0, 0), s.setBytes d.arg0 (mapBytes m))))

/-- CL_SET_FLEXE_CAL (R254, Table CLM-6): the calendar that is not in use is loaded. -/
def execClSetFlexeCal (s : State) : Out :=
  .next (s.runCommand 16 0x102 (fun d s =>
    let g := d.unit
    let n := d.arg1 % 1024
    if 7 < g ∨ n = 0 ∨ 640 < n ∨ bufferOk d.arg0 n = false then (some (0x02, 0, 0), s)
    else if n ≠ (s.grpCfg g).calLen then (some (0x02, 0, 0), s)
    else if (s.grpCfg g).on = false then (some (0x06, 0, 0), s)
    else
      let b := 1 - s.fld (R.CLM_FLEXE_GRP g) F.CLM_FLEXE_GRP_cal_act
      (some (0, 0, 0), { s with clm := { s.clm with cals := s.clm.cals.set (Fin.ofNat 16 (2 * g + b)) (normMap (s.bytes d.arg0 n)) } })))

/-- The calendar handshake of a group ends (R254): the requested calendar is in use. -/
def execFlexeCalendarSwitch (g : Fin 8) (s : State) : Out :=
  if (s.grpCfg g.val).on = false then .next s
  else .next (s.setFld (R.CLM_FLEXE_GRP g.val) F.CLM_FLEXE_GRP_cal_act (s.fld (R.CLM_FLEXE_GRP g.val) F.CLM_FLEXE_GRP_cal_sel))

/-! ### Block berths -/

/-- The room of a client's ingress buffer (R261). -/
def State.ingRoom (s : State) (n : Nat) : Nat := 256 * s.nominal n (s.cliCfg n)

/-- below_bound: the buffer is more than half full. -/
def State.boundShow (n : Nat) (s : State) : State :=
  s.setFlag (R.CLM_CLIENT_STATUS n) F.CLM_CLIENT_STATUS_below_bound (decide (s.ingRoom n < 2 * (s.client n).ing.length))

/-- A client unit at the ingress of a block berth (R257, R260, R261). -/
def State.clmIngress (n : Nat) (u : Unit66) (s : State) : State :=
  let x := s.client n
  if s.cliOn n = false ∨ s.cliPacket n ∨ s.txSlots n = 0 ∨ s.clm.fault ∨ s.flag (R.CLM_CLIENT_STATUS n) F.CLM_CLIENT_STATUS_host_fail
  then s
  else if x.cut then s.setClient n { x with cut := !u.isTerm }
  else if u.dropped then s.addCnt (R.CLM_DEL_CNT n) 1
  else if x.ing.length < s.ingRoom n then (s.setClient n { x with ing := x.ing ++ [u] }).boundShow n
  else
    let s := (s.setClient n { x with cut := !u.isTerm, errDue := true }).addCnt (R.CLM_OVR_CNT n) 1
    let s := s.setFlag R.CLM_STATUS F.CLM_STATUS_overrun true
    let sec := s.time.devtime.toNat / 10000000000
    if x.overSec = some sec then s
    else (s.setClient n { s.client n with overSec := some sec }).logEvent 0x10 sevWarn 0x0001 (evData [(1, n)])

/-- A unit comes from a client's source; a tied client has none but its partner (R255). -/
def execClmIngressUnit (client : Fin 128) (ctl : Bool) (body : W64) (s : State) : Out :=
  .next (if (s.cliCfg client.val).typ = 3 then s else s.clmIngress client.val { ctl, body })

/-- A transmit frame takes its bits from a client's block berth (R261, R264, R273): a host input that has failed gives local fault once the buffer is empty, CLM after a
fault gives fills; the error block that stands for lost units is written once space frees. -/
def State.clmDrain (n words : Nat) (first last : Bool) (s : State) : List Byte × State :=
  let x := s.client n
  let fill := if s.flag (R.CLM_CLIENT_STATUS n) F.CLM_CLIENT_STATUS_host_fail && !s.clm.fault then localFault else berthFill
  let r := berthBits fill (256 * words) last (if first then [] else x.berth) (if s.clm.fault then [] else x.ing)
  let ing := if s.clm.fault then x.ing else r.2.2
  let due := x.errDue && decide (ing.length < s.ingRoom n)
  (bitsBytes (32 * words) r.1,
   (s.setClient n { x with ing := if due then ing ++ [errorBlock] else ing, errDue := x.errDue && !due, berth := r.2.1 }).boundShow n)

/-- A transmit frame takes its bytes from a packet berth (R265, R273): what has been released, then filler headers. -/
def State.brtDrain (n words : Nat) (s : State) : List Byte × State :=
  let p := s.cliPb n
  let x := s.brtCtx p
  let failed := s.flag (R.CLM_CLIENT_STATUS n) F.CLM_CLIENT_STATUS_host_fail
  let sent := if s.brt.fault then [] else x.sent
  (packetBytes (32 * words) failed sent, if s.brt.fault then s else s.setBrtCtx p { x with sent := x.sent.drop (32 * words) })

/-- The bytes of a client's slot words in a frame; those of a client that is off are 0. -/
def State.berthTake (n words : Nat) (first last : Bool) (s : State) : List Byte × State :=
  if s.cliOn n = false then (List.replicate (32 * words) 0, s)
  else if s.cliPacket n then s.brtDrain n words
  else s.clmDrain n words first last

/-- The clients that a map names, ascending. -/
def mapClients (m : List Byte) : List Nat := (List.range 128).filter (fun n => decide (0 < mapSlots m n))

/-- A client's slot words enter a frame (R259): as they are, or as cipher-hold filler until CPH has its record (R309). -/
def State.putClient (n : Nat) (first last : Bool) (fr : TxFrame) (s : State) : TxFrame × State :=
  let words := fr.words n
  let (plain, s) := s.berthTake n words first last
  (fr.put n (if s.protMode n 0 = 0 then plain else holdFill words), s.setClient n { s.client n with plain })

/-- The client content of a frame of carrier c (R234, R259): first and last say that it begins or ends a multiframe. -/
def State.fillFrame (first last : Bool) (fr : TxFrame) (s : State) : TxFrame × State :=
  (mapClients fr.map).foldl (fun r n => State.putClient n first last r.1 r.2) (fr, s)

/-! ### Egress of a block berth -/

/-- A unit is sent toward the host (R262).  Ahead of a frame idle blocks bring the gap to a mean of 12 bytes or more, of which up to 7 beyond are kept as credit; a Quay
tributary has none (R290).  The terminate block's bytes from the end of the frame on, and control blocks between frames, are gap. -/
def ClientRt.send (regen : Bool) (x : ClientRt) (u : Unit66) : ClientRt :=
  if u.isStart then
    let k := (12 - x.gap + 7) / 8
    { x with egOut := x.egOut ++ (if regen then List.replicate k idleBlock else []) ++ [u], gap := min 7 (x.gap + 8 * k - 12) }
  else if u.isTerm then { x with egOut := x.egOut ++ [u], gap := x.gap + 8 - u.termAt }
  else if u.ctl then { x with egOut := x.egOut ++ [u], gap := min 12 (x.gap + 8) }
  else { x with egOut := x.egOut ++ [u] }

/-- Units on their way to the host (R262): a start block is regenerated before the first data unit of a frame, but not toward a Quay tributary (R290); a frame begins
once 32 of its units are held or its terminate block has come. -/
def ClientRt.push (regen : Bool) (x : ClientRt) (u : Unit66) : ClientRt :=
  let l := if regen && !u.ctl && !x.egMid then [startBlock, u] else [u]
  let mid := !u.ctl || u.isStart
  if x.egSend then l.foldl (ClientRt.send regen) { x with egSend := !u.isTerm, egMid := mid }
  else if !mid || u.isTerm then (x.egBuf ++ l).foldl (ClientRt.send regen) { x with egBuf := [], egMid := false }
  else
    let buf := x.egBuf ++ l
    if 32 ≤ buf.length then buf.foldl (ClientRt.send regen) { x with egBuf := [], egSend := true, egMid := true }
    else { x with egBuf := buf, egMid := mid }

/-- A unit of the berth at the egress (R262, R264): fills are discarded, and so are the data units after an errored block up to the next terminate block. -/
def ClientRt.unit (regen : Bool) (x : ClientRt) (u : Unit66) : ClientRt :=
  if u = berthFill then x
  else if x.egSkip then
    if u.isTerm then { x with egSkip := false, egMid := false }
    else if u.ctl then ClientRt.push regen { x with egSkip := !u.isStart } u
    else x
  else x.push regen u

/-- A block that cannot be used becomes four error blocks (R264). -/
def ClientRt.error (x : ClientRt) : ClientRt :=
  { x with egBuf := [], egSend := false, egSkip := true, egMid := false, egOut := [errorBlock, errorBlock, errorBlock, errorBlock] }

/-- Local fault goes to the host; what the berth holds of the frame is dropped. -/
def ClientRt.lost (x : ClientRt) : ClientRt := { x with egBuf := [], egSend := false, egSkip := false, egMid := false, egOut := [localFault] }

/-- The next block of a client's berth goes toward the host (R262, R264, R309, R310): an errored one, or one that decodes to no units, is replaced; one of an absent
record is local fault; running out cuts the frame being sent, and between frames an idle block is sent. -/
def State.egress (n : Nat) (s : State) : State :=
  let regen := decide ((s.cliCfg n).typ ≠ 4)
  let (p, l) := berthAlign (s.client n).rxPos (s.client n).rx
  let x := { s.client n with rxPos := p, rx := l, egOut := [] }
  match p.bind (fun p => berthNext p l) with
  | some (b, p', l') =>
    let x := { x with rxPos := some p', rx := l' }
    if b.absent then s.setClient n x.lost
    else match if b.bad then none else xdecode b.bits with
      | none => (s.setClient n x.error).addCnt (R.CLM_ERRBLK_CNT n) 1
      | some us => s.setClient n (us.foldl (ClientRt.unit regen) x)
  | none =>
    if x.egSend then
      ((s.setClient n { x with egSend := false, egSkip := true, egMid := false, egOut := [errorBlock] }).addCnt (R.CLM_UNR_CNT n) 1).setFlag
        R.CLM_STATUS F.CLM_STATUS_underrun true
    else if regen ∧ x.egBuf = [] then s.setClient n (x.send regen idleBlock)
    else s.setClient n x

/-- What the egress of a client without host lanes sends: a tied client's enters its partner's berth (R255), a Quay tributary's waits for containers of the link while
its framing runs (R290). -/
def State.tieOver (n : Nat) (s : State) : State :=
  let x := s.client n
  if (s.cliCfg n).typ = 3 then x.egOut.foldl (fun s u => s.clmIngress (s.cliCfg n).idx u) s
  else if (s.cliCfg n).typ = 4 then s.setClient n { x with quay := if s.flag R.QLK_CTRL F.QLK_CTRL_enable then x.quay ++ x.egOut else [] }
  else s

/-- The egress of a block berth takes a step (R262, R264, R255); under replacement the host gets local fault and the berth's words are dropped. -/
def execClmEgressUnit (client : Fin 128) (s : State) : Out :=
  let n := client.val
  if s.cliOn n = false ∨ s.cliPacket n then .next s
  else if s.flag (R.CLM_CLIENT_STATUS n) F.CLM_CLIENT_STATUS_repl then
    .next ((s.setClient n { (s.client n).lost with rx := [], rxPos := none }).tieOver n)
  else .next ((s.egress n).tieOver n)

/-! ### Packet berths -/

/-- The colour of a frame of b token units (R267, RFC 2698 in color-blind mode): 0 green, 1 yellow, 2 red, and the buckets after it. -/
def meter (tc tp b : Nat) : Nat × Nat × Nat :=
  if tp < b then (2, tc, tp) else if tc < b then (1, tc, tp - b) else (0, tc - b, tp - b)

/-- A frame of a context is metered (R267): its colour, 0 green, 1 yellow, 2 red; the buckets are charged and the colour is counted. -/
def State.brtMeter (p len : Nat) (s : State) : Nat × State :=
  let s := s.brtAccrue p
  let x := s.brtCtx p
  let (col, tc, tp) := if s.flag (R.BRT_PB_00 p) F.BRT_PB_00_pol_en then meter x.tc x.tp (80000 * (len + s.brtOverhead p)) else (0, x.tc, x.tp)
  (col, (s.setBrtCtx p { x with tc, tp }).addCnt (if col = 0 then R.BRT_GREEN_CNT p else if col = 1 then R.BRT_YELLOW_CNT p else R.BRT_RED_CNT p) 1)

/-- A frame at the ingress of a packet berth (R265, R267, R269). -/
def execBrtIngressFrame (client : Fin 128) (frame : List Byte) (s : State) : Out :=
  let n := client.val
  let len := frame.length
  let p := s.cliPb n
  if s.cliOn n = false ∨ s.cliPacket n = false ∨ s.txSlots n = 0 ∨ s.brt.fault then .next s
  else if s.brtMaxFrame p < len ∨ len < 64 then .next (s.addCnt (R.BRT_OVERSIZE_CNT p) 1)
  else
    let (col, s) := s.brtMeter p len
    let occ := s.fld (R.BRT_PB_STATUS p) F.BRT_PB_STATUS_occupancy
    let bufMax := s.fld (R.BRT_PB_1C p) F.BRT_PB_1C_buf_max
    let yel := min bufMax (s.fld (R.BRT_PB_1C p) F.BRT_PB_1C_yel_thr)
    let free := s.fld R.BRT_STATUS F.BRT_STATUS_free_cells
    if col = 2 ∨ (col = 1 ∧ yel ≤ occ) then .next s
    else if bufMax < occ + cellsOf len then .next (s.addCnt (R.BRT_BUFDROP_CNT p) 1)
    else if free < cellsOf len then
      .next (((s.addCnt (R.BRT_BUFDROP_CNT p) 1).setFlag R.BRT_STATUS F.BRT_STATUS_pool_full true).logEvent 0x11 sevWarn 0x0001
        (evData [(2, free), (1, p)]))
    else .next ((s.setBrtCtx p { s.brtCtx p with frames := (s.brtCtx p).frames ++ [frame] }).brtCells p (cellsOf len))

/-- The head frame of a context is released into its berth (R265, R268, R271): with tokens for its length, and the gate open. -/
def execBrtShaperRelease (p : Fin 64) (s : State) : Out :=
  let s := s.brtAccrue p.val
  let x := s.brtCtx p.val
  if s.brt.fault ∨ s.fld (R.BRT_PB_STATUS p.val) F.BRT_PB_STATUS_gate ≠ 0 ∨ s.fld (R.BRT_PB_STATUS p.val) F.BRT_PB_STATUS_slots = 0 then .next s
  else match x.frames with
    | [] => .next s
    | f :: l =>
      let need := 80000 * (f.length + s.brtOverhead p.val)
      let shp := s.flag (R.BRT_PB_00 p.val) F.BRT_PB_00_shp_en
      if shp ∧ x.ts < need then .next s
      else
        let pad := List.replicate ((8 - f.length % 8) % 8) (0 : Byte)
        let failed := (s.brtClient p.val).any (fun n => s.flag (R.CLM_CLIENT_STATUS n) F.CLM_CLIENT_STATUS_host_fail)
        let s := s.setBrtCtx p.val { x with frames := l, ts := if shp then x.ts - need else x.ts
                                            sent := x.sent ++ brtHeader f.length failed ++ f ++ pad }
        .next ((s.brtCells p.val (-(cellsOf f.length : Int))).addCnt (R.BRT_TXFRM_CNT p.val) 1)

/-- The status of the client of a packet-berth context follows, if it has one. -/
def State.brtCliShow (p : Nat) (s : State) : State :=
  match s.brtClient p with
  | some n => s.cliShow n
  | none => s

/-- The length that a header unit gives, if it passes (R266). -/
def headerLen (b : List Byte) : Option Nat :=
  let len := leNat (b.take 2)
  if leBytes 2 (crc16 (b.take 6)).toNat == b.drop 6 && (len == 0 || (64 ≤ len && len ≤ 16000)) then some len else none

/-- Bytes that stand between a header unit and the next (R265): the frame, padded to whole units. -/
def frameSpan (len : Nat) : Nat := (len + 7) / 8 * 8

/-- The received words of a context's client from here on. -/
def State.brtWords (n pos : Nat) (l : List RxWord) (s : State) : State := s.setClient n { s.client n with rx := l, rxPos := some pos }

/-- In sync (R266): the frame that the last header announced goes to the host, with an error block at its end if a byte of it is marked errored; the unit after it
is the predicted header, and sync is lost if it fails. -/
def State.brtInSync (p n pos : Nat) (l : List RxWord) (s : State) : State :=
  let x := s.brtCtx p
  let span := frameSpan x.need
  match berthBytes (span + 8) pos l, berthBytes span pos l with
  | some (b, _, pos', l'), some (f, bad, _, _) =>
    let s := s.brtWords n pos' l'
    let s := if x.need = 0 then s else s.setBrtCtx p { x with out := f.take x.need, outErr := bad }
    let s := if bad then s.addCnt (R.BRT_RXERR_CNT p) 1 else s
    let h := b.drop span
    match headerLen h with
    | some len => (s.setBrtCtx p { s.brtCtx p with need := len, farFail := (h.getD 2 0).getLsbD 0 }).brtCliShow p
    | none =>
      let s := (s.setFlag (R.BRT_PB_STATUS p) F.BRT_PB_STATUS_sync false).setBrtCtx p { s.brtCtx p with need := 0 }
      ((s.addCnt (R.BRT_HUNT_CNT p) 1).setFlag R.BRT_STATUS F.BRT_STATUS_hunt true).logEvent 0x11 sevWarn 0x0002 (evData [(1, p)])
  | _, _ => s

/-- Hunting (R266): the unit at hand is discarded, unless it is a header that passes and so does the unit where its length predicts the next; then sync is declared. -/
def State.brtHunt (p n pos : Nat) (l : List RxWord) (s : State) : State :=
  match berthBytes 8 pos l with
  | none => s
  | some (h, _, pos', l') =>
    match headerLen h with
    | none => s.brtWords n pos' l'
    | some len =>
      match berthBytes (frameSpan len + 8) pos' l' with
      | none => s
      | some (b, _, _, _) =>
        if (headerLen (b.drop (frameSpan len))).isNone then s.brtWords n pos' l'
        else
          let s := ((s.brtWords n pos' l').setFlag (R.BRT_PB_STATUS p) F.BRT_PB_STATUS_sync true).setBrtCtx p
            { s.brtCtx p with need := len, farFail := (h.getD 2 0).getLsbD 0 }
          s.brtCliShow p

/-- The egress of a packet berth looks at the unit where it expects or seeks a header (R266). -/
def execBrtEgressHeader (p : Fin 64) (s : State) : Out :=
  match s.brtClient p.val with
  | none => .next s
  | some n =>
    let x := s.client n
    let pos := x.rxPos.getD 0
    .next (if s.flag (R.BRT_PB_STATUS p.val) F.BRT_PB_STATUS_sync then s.brtInSync p.val n pos x.rx else s.brtHunt p.val n pos x.rx)

/-- Whether the change in its commit phase alters the slot count of a context's berth (R271). -/
def State.brtResized (s : State) (p : Nat) : Bool :=
  match s.brtClient p with
  | none => false
  | some n =>
    let c := s.cliCar n
    (s.frm c).change.isSome && s.fld (R.FRM_ELW_STATUS c) F.FRM_ELW_STATUS_tx_state == 2
    && mapSlots (if (s.frm c).txSel then (s.frm c).txMap0 else (s.frm c).txMap1) n != mapSlots (s.txMap c) n

/-- The guard band of a resized packet berth begins (R271): no frame starts into the berth. -/
def execBrtGuardBandStart (p : Fin 64) (s : State) : Out :=
  .next (if s.brtResized p.val then s.setFld (R.BRT_PB_STATUS p.val) F.BRT_PB_STATUS_gate 1 else s)

/-- At the first payload word of frame 0 of T the gate closes and reopens on the new slots, and the buckets are reset (R270, R271). -/
def execBrtGateClose (p : Fin 64) (s : State) : Out :=
  .next ((s.setFld (R.BRT_PB_STATUS p.val) F.BRT_PB_STATUS_gate 0).brtShow p.val)

/-- BR_RESET_TOKENS (R270, Table CLM-6). -/
def execBrResetTokens (s : State) : Out :=
  .next (s.runCommand 17 0x100 (fun d s =>
    if 63 < d.unit then (some (0x02, 0, 0), s)
    else if (s.brtClient d.unit).isNone then (some (0x06, 0, 0), s)
    else (some (0, 0, 0), s.brtReset d.unit (d.arg0 % 2 == 1) (d.arg0 / 2 % 2 == 1))))

/-- BR_FLUSH (Table CLM-6): every queued frame of a context is discarded and counted as a buffer drop. -/
def execBrFlush (s : State) : Out :=
  .next (s.runCommand 17 0x101 (fun d s =>
    if 63 < d.unit then (some (0x02, 0, 0), s)
    else if (s.brtClient d.unit).isNone then (some (0x06, 0, 0), s)
    else
      let x := s.brtCtx d.unit
      let cells := x.frames.foldl (fun a f => a + cellsOf f.length) 0
      (some (0, 0, 0), ((s.setBrtCtx d.unit { x with frames := [] }).brtCells d.unit (-(cells : Int))).addCnt (R.BRT_BUFDROP_CNT d.unit)
        x.frames.length)))

/-- CLM or BRT mismatches (R273): local fault to every client until a reset. -/
def execClmBrtEngineFault (brt : Bool) (s : State) : Out :=
  let s := if brt then ({ s with brt := { s.brt with fault := true } }).setFlag R.BRT_STATUS F.BRT_STATUS_engine_fault true
           else ({ s with clm := { s.clm with fault := true } }).setFlag R.CLM_STATUS F.CLM_STATUS_engine_fault true
  .next ((s.logFault (if brt then 0x11 else 0x10) 0x0003 []).cliShowAll)

end Sys2Proof.Machine
end

