-- ==== Sys2Proof/Machine/PowerRows.lean ====
section
/-! DEFINITION. Power management (PWR): grants, refusals and entries (R395 to R397, Table PWR-3), state across Lay-up (Table PWR-2), wakes (R398, Table
PWR-4), elapsed time (R401), AVSBus (R402, R403), the logic fault (R406), commands (R407). -/
namespace Sys2Proof.Machine

/-! ### State that is lost (Table PWR-2) -/

/-- Every field of a listed register that is neither RW nor a counter goes back to its Reset value: Lay-up keeps the effective values of RW
and ST fields and the counters (Table PWR-2); what the rest reads at exit, unless the table says, is its Reset value (DESIGN CHOICE: notes/assumptions/51.md). -/
def rwMask (fl : List Fld) : W32 := fl.foldl (fun m f => if f.ty == .rw then m ||| f.mask else m) 0

/-- A register of a domain that Lay-up leaves alone: a counter; CAR_MODE_STATUS_x, which follows from CAR_MODE_x; the maps of slices, engines and chains, in which
a failed one stays failed until a reset or a retest (R168, R196); the selection that the calibration tables hold (R134, R428). -/
def layKeeps (a : Nat) : Bool :=
  isCntHigh a || (match famOf a with
    | some (f, _) => f.cnt
    | none => true) || a == R.CAR_MODE_STATUS .A || a == R.CAR_MODE_STATUS .B ||
  [Carrier.A, Carrier.B].any (fun c => a == R.EQZ_SLICE_MAP c || a == R.FEC_ENGINE_MAP c || a == R.FEC_CHAIN_MAP c ||
    (List.range 4).any (fun n => a == R.RXF_SUBADC_W0 c n || a == R.RXF_SUBADC_W1 c n || a == R.RXF_SUBADC_W2 c n))

/-- The registers of domain d after Lay-up. -/
def State.layRegs (d : Nat) (s : State) : State :=
  (s.regs.eff.map (·.1)).foldl (fun s a =>
    if domainOfAddr a == d && !layKeeps a then
      let m := rwMask (fieldsAt a)
      s.setReg a ((s.reg a &&& m) ||| (regReset a &&& ~~~m))
    else s) s

/-- The carrier's blocks after Lay-up (R104, R146, R155): stopped, nothing learned.  A fault that lasts until a reset stays. -/
def State.layCarrier (c : Carrier) (s : State) : State :=
  let s := s.setTx c { txReset with fault := (s.tx c).fault }
  let s := s.setRx c { rxReset with fault := (s.rx c).fault }
  let s := (((s.setEq c eqReset).setCr c crReset).setFec c { fecReset with pendFail := (s.fec c).pendFail }).eqCount c
  let s := s.fecCount c
  let s := s.setHail c { hailReset with fault := (s.hail c).fault }
  let s := s.setFrm c { frmReset with txH64 := s.fld (R.CAR_MODE c) F.CAR_MODE_h64, rxH64 := s.fld (R.CAR_MODE c) F.CAR_MODE_h64
                                      fault := (s.frm c).fault }
  s.txMirror c

/-- The client and cipher complex after Lay-up: buffers empty, no contexts. -/
def State.layCph (s : State) : State :=
  let s := { s with clm := { clients := Vector.replicate 128 clientReset, cals := Vector.replicate 16 [], fault := s.clm.fault }
                    brt := { ctx := Vector.replicate 64 Sys2Proof.Machine.brtReset, fault := s.brt.fault }
                    cph := { s.cph with slots := [], shedTx := [], shedRx := [], abandoned := [], failRun := [] } }
  (forN 64 State.brtResetCfg s).cliShowAll

/-- Lay-up of domain d is complete: what it loses (Table PWR-2). -/
def State.layLose (d : Nat) (s : State) : State :=
  let s := s.layRegs d
  match d with
  | 3 => s.layCph
  | 4 => s.layCarrier .A
  | 5 => s.layCarrier .B
  | 9 => { s with lanes := { laneReset with host := s.lanes.host, quay := s.lanes.quay } }
  | _ => s

/-! ### Grants and entries -/

/-- The reasons of Table PWR-3 for which a block of domain d refuses, lowest first. -/
def State.blockRefuses (s : State) (d : Nat) (recent : Option Byte) (b : Nat) : Option Nat :=
  if s.blockQueued d b then some 1
  else if s.blockActive b || (6 ≤ d && !s.lanesOff d) then some 2
  else if s.blockStaged d b then some 3
  else if recent.map (·.toNat) = some b then some 4
  else none

/-- An annealer run is in progress on a converter of the domain (Table PWR-3, reason 0x05). -/
def State.anlBusy (s : State) (d : Nat) : Bool :=
  (d == 4 || d == 5) && ([0, 1].any (fun t => (s.anl.units[Fin.ofNat 4 (2 * (d - 4) + t)]).isSome))

/-- The refusal that is recorded: the lowest block ID that refuses, with its lowest reason (R395). -/
def State.grantRefusal (s : State) (d : Nat) (recent : Option Byte) (enclave : Bool) : Option (Nat × Nat) :=
  ((domBlocks d).findSome? (fun b => (s.blockRefuses d recent b).map (fun r => (b, r)))).orElse (fun _ =>
    if enclave then some (0x15, 6) else if s.anlBusy d then some (0x1F, 5) else none)

/-- An entry begins (R395): 32 hk cycles into Moor, 512 into Lay-up. -/
def State.beginEntry (d target : Nat) (ticket : Option W32) (s : State) : State :=
  (s.modDom d (fun x => { x with entry := some { target, left := if target = 1 then 32 else 512, ticket }, lateWake := false })).setFld
    (R.PWR_DOM_STATE d) F.PWR_DOM_STATE_phase 2

/-- PWR_IDLE_TIMER_EXPIRY (R394, R395). -/
def execPwrIdleTimerExpiry (dom : Fin 7) (recent : Option Byte) (enclave : Bool) (s : State) : Out :=
  let d := dom.val + 3
  if s.parkMode d = 0 ∨ s.domState d ≠ 0 ∨ (s.domEntry d).isSome ∨ s.levelWake d then .next s
  else match s.grantRefusal d recent enclave with
    | some (b, r) => .next (s.noteRefuse d b r)
    | none => .next (s.beginEntry d (min 2 (s.parkMode d)) none)

/-- PWR_ENTRY_COMPLETE (R396, R401): the domain is parked; a level wake or command that came in the lost-edge window begins its wake. -/
def execPwrEntryComplete (dom : Fin 7) (s : State) : Out :=
  let d := dom.val + 3
  match s.domEntry d with
  | none => .next s
  | some e =>
    let late := (s.dom d).lateWake
    let s := s.modDom d (fun x => { x with entry := none, lateWake := false, entered := s.time.devtime })
    let s := (s.setFld (R.PWR_DOM_STATE d) F.PWR_DOM_STATE_state e.target).setFld (R.PWR_DOM_STATE d) F.PWR_DOM_STATE_phase 0
    let s := s.addCnt (if e.target = 1 then R.PWR_MOOR_CNT d else R.PWR_LAYUP_CNT d) 1
    let s := if e.target = 2 then s.layLose d else s
    let s := match e.ticket.bind s.entryOf with
      | some x => s.complete x 0 0 0
      | none => s
    let s := (List.finRange 64).foldl (fun s q => s.settle q) s
    .next ((if late then s.startWake d else s).releaseWaiters)

/-- PWR_WAKE_EVENT (R396, R398, Table PWR-4): a ball acts on every domain that names it, in the fixed order, while it is claimed with function
0. -/
def execPwrWakeEvent (src : WakeSource) (s : State) : Out :=
  match src with
  | .gpio ball level =>
    let edge := s.pins.gpio.getLsbD ball.val != level
    let bit := BitVec.ofNat 16 (2 ^ ball.val)
    let s := { s with pins := { s.pins with gpio := if level then s.pins.gpio ||| bit else s.pins.gpio &&& ~~~bit } }
    .next ([3, 4, 5, 6, 7, 8, 9].foldl (fun s d =>
      let w := R.PWR_DOM_WAKE d
      if s.fld w F.PWR_DOM_WAKE_gpio = ball.val ∧ s.ballAs ball.val 0 ∧ s.flag w F.PWR_DOM_WAKE_gpio_pol = level then
        if s.flag w F.PWR_DOM_WAKE_gpio_lvl_en then s.wakeEvent d true 0x1D 7
        else if s.flag w F.PWR_DOM_WAKE_gpio_edge_en ∧ edge then s.wakeEvent d false 0x1D 7
        else s
      else s) s)
  | .signal g =>
    let d := 6 + g.val
    .next (if s.flag (R.PWR_DOM_WAKE d) F.PWR_DOM_WAKE_sd_en then s.wakeEvent d false (if d = 9 then 0x13 else 0x12) 7 else s)

/-- The compare event of a timer as a wake source (Table PWR-4). -/
def State.timerWake (n : Nat) (s : State) : State :=
  [3, 4, 5, 6, 7, 8, 9].foldl (fun s d =>
    let w := R.PWR_DOM_WAKE d
    if s.flag w F.PWR_DOM_WAKE_tmr_en ∧ s.fld w F.PWR_DOM_WAKE_tmr = n then s.wakeEvent d false 0x1E 7 else s) s

/-- Domains that waited for an earlier wake begin theirs when no earlier one is left (R398). -/
def State.nextWakes (s : State) : State :=
  [3, 4, 5, 6, 7, 8, 9].foldl (fun s d =>
    if s.domPhase d = 4 ∧ !s.earlierWaking d then s.setFld (R.PWR_DOM_STATE d) F.PWR_DOM_STATE_phase 3 else s) s

/-- A domain is in Run again (R398, R401): the parked interval enters PWR_ELAPSED_d, the wakes that waited for it complete, commands that waited for it
may start. -/
def State.domRun (d hk : Nat) (s : State) : State :=
  let was := s.domState d
  let x := s.dom d
  let sum := (s.time.devtime - x.entered).toNat + x.remainder
  let s := (s.setFld (R.PWR_DOM_STATE d) F.PWR_DOM_STATE_state 0).setFld (R.PWR_DOM_STATE d) F.PWR_DOM_STATE_phase 0
  let s := (s.addCnt (R.PWR_ELAPSED d) (sum / 100000)).modDom d (fun x => { x with remainder := sum % 100000, wakeTickets := [] })
  let s := if d = 3 ∧ was = 2 ∧ s.hasCipher then s.setFlag R.CPH_STATE F.CPH_STATE_prog_ok true else s
  let s := x.wakeTickets.foldl (fun s t => s.endTicket t 0 hk 0) s
  let s := (List.finRange 64).foldl (fun s q => s.settle q) s
  s.nextWakes.releaseWaiters

/-- PWR_WAKE_COMPLETE (R398, R401). -/
def execPwrWakeComplete (dom : Fin 7) (hk : BitVec 32) (s : State) : Out :=
  .next (if s.domPhase (dom.val + 3) = 3 then s.domRun (dom.val + 3) hk.toNat else s)

/-! ### Commands (Table PWR-5) -/

/-- PW_WAKE (R407). -/
def execPwWake (s : State) : Out :=
  match s.startable 25 0x100 with
  | none => .next s
  | some e => .next (s.runCommand 25 0x100 (fun x s =>
    let d := x.unit
    if s.domState d = 3 then (some (0x03, 0, 0), s)
    else if d < 3 ∨ 9 < d then (some (0x02, 0, 0), s)
    else
      let s := s.wakeEvent d true 0x1D 7
      if s.domState d = 0 ∧ (s.domEntry d).isNone then (some (0, 0, 0), s)
      else (none, s.modDom d (fun y => { y with wakeTickets := y.wakeTickets ++ [e.ticket] }))))

/-- PW_PARK (R397, R406, R407): as if the timer had expired; a GPIO level wake that is asserted aborts the entry at once. -/
def execPwPark (recent : Option Byte) (enclave : Bool) (s : State) : Out :=
  match s.startable 25 0x101 with
  | none => .next s
  | some e => .next (s.runCommand 25 0x101 (fun x s =>
    let d := x.unit
    let m := x.arg0 % 4
    if s.domState d = 3 then (some (0x03, 0, 0), s)
    else if d < 3 ∨ 9 < d ∨ m = 0 ∨ m = 3 then (some (0x02, 0, 0), s)
    else if s.pwr.fault ∨ s.domState d ≠ 0 ∨ (s.domEntry d).isSome then (some (0x06, 0, 0), s)
    else match s.grantRefusal d recent enclave with
      | some (b, r) => (some (0x06, b + 0x100 * r, 0), s.noteRefuse d b r)
      | none =>
        let s := s.beginEntry d m (some e.ticket)
        (none, if s.levelWake d then s.wakeEvent d true 0x1D 7 else s)))

/-! ### AVSBus (R402, R403) -/

/-- The effective target changed at a COMMIT (R402): it is written, or waits for the transaction in progress. -/
def State.avsTarget (s : State) : State :=
  let t := s.fld R.PWR_AVS_CFG F.PWR_AVS_CFG_target_mv
  if s.pwr.fault ∨ t = s.pwr.avsNext.getD s.pwr.avsSent then s
  else if s.pwr.avsBusy then { s with pwr := { s.pwr with avsNext := some t } }
  else { s with pwr := { s.pwr with avsSent := t } }

/-- A transaction has ended: a newer target that waited is written. -/
def State.avsIdle (s : State) : State :=
  { s with pwr := { s.pwr with avsBusy := false, avsRetry := 0, avsNext := none
                               avsSent := if s.pwr.fault then s.pwr.avsSent else s.pwr.avsNext.getD s.pwr.avsSent } }

/-- The regulator answered (R403): the read-backs are shown; three polls in a row more than 25 mV off are a WARN event. -/
def State.avsRead (volt curr status : Nat) (s : State) : State :=
  let s := ((s.setFld R.PWR_AVS_VOLT F.PWR_AVS_VOLT_volt volt).setFld R.PWR_AVS_CURR F.PWR_AVS_CURR_curr curr).setFld R.PWR_AVS_CURR
    F.PWR_AVS_CURR_avs_status status
  let t := s.pwr.avsSent
  let off := decide (t + 25 < volt ∨ volt + 25 < t)
  let n := if off then min 4 (s.pwr.avsOff + 1) else 0
  let s := { s with pwr := { s.pwr with avsOff := n } }
  let s := if n = 3 then (s.setFlag R.PWR_STATUS F.PWR_STATUS_avs_dev true).logEvent 0x1D sevWarn 0x0002 (evData [(2, t), (2, volt)]) else s
  s.avsIdle

/-- AVS_POLL (R403). -/
def execAvsPoll (ok : Bool) (volt : BitVec 10) (curr status : BitVec 16) (s : State) : Out :=
  if s.pwr.avsBusy then .next s
  else if ok then .next (s.avsRead volt.toNat curr.toNat status.toNat)
  else .next { s with pwr := { s.pwr with avsBusy := true, avsRetry := 0, avsOff := 0 } }

/-- AVS_RETRY (R403): after the third retry fails, avs_err and an ALARM event with the command (a code the spec does not give) and the
target. -/
def execAvsRetry (ok : Bool) (volt : BitVec 10) (curr status : BitVec 16) (s : State) : Out :=
  if s.pwr.avsBusy = false then .next s
  else if ok then .next (s.avsRead volt.toNat curr.toNat status.toNat)
  else if s.pwr.avsRetry < 2 then .next { s with pwr := { s.pwr with avsRetry := s.pwr.avsRetry + 1 } }
  else
    let (w, s) := s.draw
    .next (((s.setFlag R.PWR_STATUS F.PWR_STATUS_avs_err true).logEvent 0x1D sevAlarm 0x0001
      (evData [(1, w.toNat), (2, s.pwr.avsSent)])).avsIdle)

/-- PWR_LOGIC_FAULT (R406). -/
def execPwrLogicFault (s : State) : Out :=
  let s := ({ s with pwr := { s.pwr with fault := true, avsNext := none } }).setFlag R.PWR_STATUS F.PWR_STATUS_engine_fault true
  let s := s.logFault 0x1D 0x0003 []
  .next ([3, 4, 5, 6, 7, 8, 9].foldl (fun s d => s.wakeEvent d true 0x1D 7) s)

end Sys2Proof.Machine
end

