-- ==== Sys2Proof/Machine/Monitor.lean ====
section
/-! DEFINITION. The monitor converter (MON): temperature sensors (R409), passes and entries (R411), triggers (R412, R413), the FIR (R414), synchronising
(R415), timers (R416), commands (R420), faults (R419). -/
namespace Sys2Proof.Machine

/-- MON_TEMP_READOUT (R409), and the annealer's temperature trigger (R426). -/
def State.tempTrigger (v : Nat) (s : State) : State :=
  let t := signed 16 (s.fld (R.MON_TEMP (convCarrier v).code) F.MON_TEMP_temp)
  let last := signed 16 (s.fld (R.ANL_CONV_TEMP v) F.ANL_CONV_TEMP_temp_last)
  if s.flag R.ANL_CFG F.ANL_CFG_auto_en ∧ 16 * s.fld R.ANL_CFG F.ANL_CFG_temp_thr < 10 * (t - last).natAbs then s.anlPend v else s

def execMonTempReadout (temps : Vector (BitVec 16) 8) (s : State) : Out :=
  let s := (List.finRange 8).foldl (fun s (i : Fin 8) => s.setFld (R.MON_TEMP i.val) F.MON_TEMP_temp temps[i].toNat) s
  .next (forN 16 State.tempTrigger s)

/-! ### Passes -/

/-- Which trigger starts modulator k's regular pass (R412). -/
def State.monTrig (s : State) (k : Fin 4) : Nat := s.fld (R.MON_CFG k.val) F.MON_CFG_reg_trig

/-- busy of modulator k: a pass is running. -/
def State.monBusy (k : Fin 4) (s : State) : State :=
  s.setFlag (R.MON_RES_INFO_M k.val) F.MON_RES_INFO_M_busy ((s.monMod k).reg.isSome || (s.monMod k).inj.isSome)

/-- The FIR of modulator k acts (R414). -/
def State.firActs (s : State) (k : Fin 4) : Bool :=
  s.flag (R.MON_CFG k.val) F.MON_CFG_fir_en && s.fld (R.MON_CFG k.val) F.MON_CFG_reg_len == 1 && s.monTrig k == 0 && !(s.monMod k).fir.isEmpty

/-- fir_off: some modulator with fir_en = 1 bypasses its FIR. -/
def State.firShow (s : State) : State :=
  s.setFlag R.MON_STATUS F.MON_STATUS_fir_off
    ((List.finRange 4).any (fun k => s.flag (R.MON_CFG k.val) F.MON_CFG_fir_en && !s.firActs k))

/-- A decimator restarts: the FIR's history is cleared (R414). -/
def State.decRestart (k : Fin 4) (s : State) : State := s.setMonMod k { s.monMod k with hist := [], filled := 0 }

/-- A regular pass starts. -/
def State.regStart (k : Fin 4) (s : State) : State :=
  ((s.setMonMod k { s.monMod k with reg := some 0, regDelay := false }).decRestart k).monBusy k

/-- A trigger of the regular pass: ignored while a pass runs or a delay is pending (R412). -/
def State.regTrigger (k : Fin 4) (s : State) : State :=
  let x := s.monMod k
  if s.monStopped k then s
  else if x.reg.isSome || x.inj.isSome || x.regDelay then s.monOverrun k 0
  else if s.fld (R.MON_TRIG k.val) F.MON_TRIG_delay = 0 then s.regStart k
  else s.setMonMod k { x with regDelay := true }

/-- A trigger of the injected pass other than an urgent event: after the same delay (R413). -/
def State.injTrigger (k : Fin 4) (s : State) : State :=
  let x := s.monMod k
  if s.monStopped k ∨ s.fld (R.MON_CFG k.val) F.MON_CFG_inj_len = 0 then s
  else if x.inj.isSome || x.injDelay then s.monOverrun k 1
  else if s.fld (R.MON_TRIG k.val) F.MON_TRIG_delay = 0 then s.monInject k
  else s.setMonMod k { x with injDelay := true }

/-- MON_REGULAR_TRIGGER (R412): a timer's event, which a continuous sequence and one that software starts do not take. -/
def execMonRegularTrigger (k : Fin 4) (s : State) : Out := .next (if s.monTrig k = 1 ∨ s.monTrig k = 2 then s.regTrigger k else s)

/-- An urgent event that modulator k has enabled is in effect (R413): LOS of carrier A or B, LOF of carrier A or B. -/
def State.urgentDue (s : State) (k : Fin 4) : Bool :=
  let m := s.fld (R.MON_TRIG k.val) F.MON_TRIG_urgent_mask
  let on := [s.flag (R.RXF_STATE .A) F.RXF_STATE_los, s.flag (R.RXF_STATE .B) F.RXF_STATE_los, s.flag (R.FRM_DEFECT .A) F.FRM_DEFECT_lof,
    s.flag (R.FRM_DEFECT .B) F.FRM_DEFECT_lof]
  (on.zip (List.range 4)).any (fun p => p.1 && m.testBit p.2)

/-- MON_INJECTED_TRIGGER (R413): an enabled urgent event, or the compare event of the timer that may inject. -/
def execMonInjectedTrigger (k : Fin 4) (urgent : Bool) (s : State) : Out :=
  .next (if urgent then (if s.urgentDue k then s.monInject k else s)
    else if s.flag (R.MON_TRIG k.val) F.MON_TRIG_inj_tmr_en then s.injTrigger k else s)

/-- MON_TRIGGER_DELAY_EXPIRY (R412, R413). -/
def execMonTriggerDelayExpiry (k : Fin 4) (injected : Bool) (s : State) : Out :=
  let x := s.monMod k
  if injected then
    .next (if x.injDelay then (s.setMonMod k { x with injDelay := false }).monInject k else s)
  else .next (if x.regDelay ∧ s.monStopped k = false then s.regStart k else s)

/-- A write of 1 to sw_reg or sw_inj (R412, R413). -/
def State.swReg (k : Fin 4) (s : State) : State := if s.monTrig k = 3 then s.regTrigger k else s
def execSwReg (k : Fin 4) (s : State) : Out := .next (s.swReg k)
def execSwInj (k : Fin 4) (s : State) : Out := .next (s.injTrigger k)

/-- The settings of MON changed at a COMMIT (R411, R412): a stopped modulator is idle, a continuous one runs. -/
def State.monShow (s : State) : State :=
  ((List.finRange 4).foldl (fun s k =>
    let x := s.monMod k
    if s.monStopped k then
      if x.reg.isSome || x.inj.isSome || x.regDelay || x.injDelay then
        (s.setMonMod k { x with reg := none, inj := none, regDelay := false, injDelay := false, hist := [], filled := 0 }).monBusy k
      else s
    else if s.monTrig k = 0 ∧ x.reg.isNone then s.regStart k
    else s) s).firShow

/-! ### Results -/

/-- A published result joins the capture that MN_CAPTURE started, which completes with its last result. -/
def State.monCapture (k : Fin 4) (v : BitVec 24) (s : State) : State :=
  match (s.queue 26).entries.find? (fun e => e.started && e.desc.opcode == 0x102 && e.desc.unit == k.val) with
  | none => s
  | some e =>
    let x := s.monMod k
    let l := x.captured ++ [v]
    let t := if x.captured.isEmpty then s.time.devtime else x.capTime
    if l.length < e.desc.arg1 % 8192 then s.setMonMod k { x with captured := l, capTime := t }
    else ((s.setMonMod k { x with captured := [], capTime := 0 }).setBytes e.desc.arg0 (l.flatMap (fun w => leBytes 4 w.toNat))).complete e 0
      t.toNat 0

/-- A result of modulator k is published (R411): shown with its channel and entry, counted, recorded by a capture (R420). -/
def State.monPublish (k : Fin 4) (channel entry : Nat) (injected : Bool) (v : BitVec 24) (s : State) : State :=
  let i := R.MON_RES_INFO_M k.val
  let s := s.setFld (R.MON_RES_M k.val) F.MON_RES_M_result v.toNat
  let s := (((s.setFld i F.MON_RES_INFO_M_channel channel).setFld i F.MON_RES_INFO_M_entry entry).setFlag i F.MON_RES_INFO_M_injected
    injected).setFlag i F.MON_RES_INFO_M_fresh true
  (s.addCnt (R.MON_CONV_CNT k.val) 1).monCapture k v

/-- The FIR's output over the decimated outputs, newest first (R414): the sum of products of Q1.22 coefficients and 24-bit codes, limited as R408 limits a
result.  How the fraction is rounded the spec does not say: up or down, by a free value. -/
def firOut (coef hist : List (BitVec 24)) (up : Bool) : BitVec 24 × Bool :=
  let sum : Int := (coef.zip hist).foldl (fun a p => a + p.1.toInt * (p.2.toNat : Int)) 0
  let v := sum / 4194304 + (if up ∧ sum % 4194304 ≠ 0 then 1 else 0)
  (BitVec.ofInt 24 (clampI 0 16777215 v), decide (v < 0 ∨ 16777215 < v))

/-- One decimated output enters the FIR (R414). -/
def State.firStep (k : Fin 4) (channel : Nat) (s : State) (r : BitVec 24) : State :=
  let x := s.monMod k
  let x := { x with hist := (r :: x.hist).take 255, filled := min 255 (x.filled + 1) }
  let s := s.setMonMod k x
  if x.filled < x.fir.length then s
  else
    let (w, s) := s.draw
    let (v, lim) := firOut x.fir x.hist (w.getLsbD 0)
    (if lim then s.setFlag R.MON_STATUS F.MON_STATUS_range true else s).monPublish k channel 0 false v

/-- The mean of an entry's results, rounded down (R411). -/
def meanOf (l : List (BitVec 24)) : BitVec 24 :=
  if l.isEmpty then 0 else BitVec.ofNat 24 ((l.foldl (fun a r => a + r.toNat) 0) / l.length)

/-- The results of the entry in progress (R411): n of it. -/
def State.entryCount (s : State) (k : Fin 4) : Nat :=
  match (s.monMod k).inj, (s.monMod k).reg with
  | some j, _ => s.fld (R.MON_INJ (4 * k.val + j)) F.MON_INJ_n1 + 1
  | none, some e => s.fld (R.MON_SEQ (32 * k.val + e)) F.MON_SEQ_n1 + 1
  | none, none => 0

/-- MON_ENTRY_END (R411, R413, R414): with its n results, the entry's mean is published, or the FIR's outputs; the sequence goes on.  An injected pass that starts on
the same edge abandons nothing. -/
def execMonEntryEnd (k : Fin 4) (results : List (BitVec 24)) (limited inject : Bool) (s : State) : Out :=
  let x := s.monMod k
  let m := meanOf results
  if s.monStopped k ∨ results.length ≠ s.entryCount k then .next s
  else
    let s' := if limited then s.setFlag R.MON_STATUS F.MON_STATUS_range true else s
    match x.inj, x.reg with
    | some j, _ =>
      let i := 4 * k.val + j
      let s := (s'.setFld (R.MON_INJ_RES i) F.MON_INJ_RES_result m.toNat).monPublish k (s.fld (R.MON_INJ i) F.MON_INJ_channel) j true m
      let next := if j + 1 < s.fld (R.MON_CFG k.val) F.MON_CFG_inj_len then some (j + 1) else none
      .next (((s.setMonMod k { s.monMod k with inj := next }).decRestart k).monBusy k)
    | none, some e =>
      let i := 32 * k.val + e
      let ch := s.fld (R.MON_SEQ i) F.MON_SEQ_channel
      let s := s'.setFld (R.MON_ENT_RES i) F.MON_ENT_RES_result m.toNat
      let s := if s.firActs k then results.foldl (State.firStep k ch) s else s.monPublish k ch e false m
      let len := s.fld (R.MON_CFG k.val) F.MON_CFG_reg_len
      let next := if e + 1 < len then some (e + 1) else if s.monTrig k = 0 then some 0 else none
      let s := s.setMonMod k { s.monMod k with reg := next }
      let s := if len = 1 ∧ s.monTrig k = 0 then s else s.decRestart k
      let s := if inject ∧ s.fld (R.MON_CFG k.val) F.MON_CFG_inj_len ≠ 0 then
          (s.setMonMod k { s.monMod k with inj := some 0, injDelay := false }).decRestart k
        else s
      .next (s.monBusy k)
    | none, none => .next s

/-! ### Synchronising -/

/-- All decimators and FIR histories are reset (R415); entries restart, nothing is counted. -/
def State.monSync (s : State) : State := (List.finRange 4).foldl (fun s k => if s.monStopped k then s else s.decRestart k) s

/-- MON_SYNC_EDGE (R415): only while GPIO15 is held with function 3. -/
def execMonSyncEdge (s : State) : Out := .next (if s.ballAs 15 3 then s.monSync else s)

/-- MN_SYNC (R415). -/
def execMnSync (s : State) : Out :=
  .next (s.runCommand 26 0x100 (fun d s => if d.unit ≠ 0xFF then (some (0x02, 0, 0), s) else (some (0, 0, 0), s.monSync)))

/-! ### Commands -/

/-- The command's level holds modulator k (R418). -/
def State.monHeld (s : State) (d : Desc) : Bool := s.holds (if d.level = 1 then .harbour else .berth) (0x20 + d.unit)

/-- Taps of the supplied sets, and whether they are linear-phase (Table MON-4). -/
def suppliedTaps (n : Nat) : Nat × Bool :=
  match n with
  | 1 => (31, true)
  | 2 => (127, true)
  | 3 => (63, false)
  | _ => (255, false)

/-- The coefficients of a buffer: bits [23:0] of each word. -/
def State.coefs (s : State) (a n : Nat) : List (BitVec 24) := (List.range n).map (fun i => BitVec.ofNat 24 (s.load (a + 4 * i) 4))

/-- The coefficients of a supplied set, which the spec does not give: free values. -/
def State.drawCoefs (n : Nat) (s : State) : List (BitVec 24) × State :=
  ((List.range n).map (fun i => (Config.freeWord (s.free + i)).truncate 24), { s with free := s.free + n })

/-- MN_LOAD_FIR (R414, R418, Table MON-5). -/
def execMnLoadFir (s : State) : Out :=
  .next (s.runCommand 26 0x101 (fun d s =>
    let n := d.arg1 % 256
    let lin := d.arg1 / 256 % 2 = 0
    let set := d.arg1 / 4096 % 8
    let coef := s.coefs d.arg0 n
    if 3 < d.unit ∨ 4 < set ∨ (set = 0 ∧ (n = 0 ∨ bufferOk d.arg0 (4 * n) = false ∨ (lin ∧ coef.reverse ≠ coef))) then (some (0x02, 0, 0), s)
    else
      let k := Fin.ofNat 4 d.unit
      if s.monHeld d = false ∨ s.firActs k then (some (0x06, 0, 0), s)
      else
        let (l, linear, s) := if set = 0 then (coef, decide lin, s)
          else let (l, s) := s.drawCoefs (suppliedTaps set).1; (l, (suppliedTaps set).2, s)
        (some (0, 0, 0), (s.setMonMod k { s.monMod k with fir := l, firSet := set, linear, hist := [], filled := 0 }).firShow)))

/-- MN_CAPTURE (R420): records results as they are published. -/
def execMnCapture (s : State) : Out :=
  .next (s.runCommand 26 0x102 (fun d s =>
    let n := d.arg1 % 8192
    if 3 < d.unit ∨ n = 0 ∨ 4096 < n ∨ bufferOk d.arg0 (4 * n) = false then (some (0x02, 0, 0), s)
    else if s.monHeld d = false ∨ s.monStopped (Fin.ofNat 4 d.unit) then (some (0x06, 0, 0), s)
    else (none, s)))

/-! ### Timers -/

/-- Timer n counts. -/
def State.tmrOn (s : State) (n : Nat) : Bool := s.flag (R.TMR_CFG n) F.TMR_CFG_enable

/-- A timer's event triggers the modulators that name it: kind 1 compare, 2 period (R412, R413). -/
def State.tmrTriggers (n kind : Nat) (s : State) : State :=
  (List.finRange 4).foldl (fun s k =>
    let s := if s.monTrig k = kind ∧ s.fld (R.MON_CFG k.val) F.MON_CFG_reg_tmr = n then s.regTrigger k else s
    if kind = 1 ∧ s.flag (R.MON_TRIG k.val) F.MON_TRIG_inj_tmr_en ∧ s.fld (R.MON_TRIG k.val) F.MON_TRIG_inj_tmr = n then s.injTrigger k else s) s

/-- TMR_COMPARE (R416): event bit 3 for the holder's level, a wake source, triggers.  cmp beyond the last count is never equal. -/
def execTmrCompare (n : Fin 8) (s : State) : Out :=
  if s.tmrOn n.val = false ∨ (s.reg (R.TMR_PERIOD n.val)).toNat < (s.reg (R.TMR_CMP n.val)).toNat then .next s
  else .next ((((s.setReg (R.TMR_COUNT n.val) (s.reg (R.TMR_CMP n.val))).timerEvent n.val).timerWake n.val).tmrTriggers n.val 1)

/-- The committed period, cmp and duty of timer n become effective (R416). -/
def State.tmrApply (n : Nat) (s : State) : State :=
  s.applySet (fun a _ => a == R.TMR_DUTY n || a == R.TMR_PERIOD n || a == R.TMR_CMP n)

/-- TMR_PERIOD (R416): the count wraps, and what waited for the wrap applies. -/
def execTmrPeriod (n : Fin 8) (s : State) : Out :=
  if s.tmrOn n.val = false then .next s
  else .next (((s.setReg (R.TMR_COUNT n.val) 0).tmrApply n.val).tmrTriggers n.val 2)

/-- One crystal cycle: the count advances by 5 hk cycles, up to its last value, where it waits for TMR_PERIOD. -/
def State.tmrTick (hk n : Nat) (s : State) : State :=
  if s.tmrOn n then
    let c := (s.reg (R.TMR_COUNT n)).toNat
    let p := (s.reg (R.TMR_PERIOD n)).toNat
    s.setReg (R.TMR_COUNT n) (BitVec.ofNat 32 (max c (min (c + hk) p)))
  else s

/-- The PWM level of ball n (R417): active for the first floor(duty × period / 65,536) hk cycles, inverted by pol; the inactive level where the ball and the
timer have not the same holder, or pwm_en is 0, or MON has faulted (R419). -/
def State.pwmLevel (s : State) (n : Nat) : Bool :=
  let pol := s.flag (R.TMR_CFG n) F.TMR_CFG_pol
  let same := match s.claimOf n, s.claimOf (0x10 + n) with
    | some a, some b => a.holder == b.holder
    | _, _ => false
  let on := same && s.flag (R.TMR_CFG n) F.TMR_CFG_pwm_en && !s.mon.fault
    && decide ((s.reg (R.TMR_COUNT n)).toNat < s.fld (R.TMR_DUTY n) F.TMR_DUTY_duty * ((s.reg (R.TMR_PERIOD n)).toNat + 1) / 65536)
  on != pol

/-- MON_ENGINE_FAULT (R419). -/
def execMonEngineFault (s : State) : Out :=
  let s := ({ s with mon := { s.mon with fault := true } }).setFlag R.MON_STATUS F.MON_STATUS_engine_fault true
  .next (s.monShow.logFault 0x1E 0x0001 [])

end Sys2Proof.Machine
end

