-- ==== Sys2Proof/Machine/Ref.lean ====
section
/-! DEFINITION. Timing, references and holdover (REF): qualification (R371), selection (R374, R375), the DPLL's states (R367, R376, R379 to R381),
pulses (R382 to R385), the COMMIT check (R372), faults (R389), commands (R391).  What the DPLL and the monitors measure is an operand. -/
namespace Sys2Proof.Machine

/-- A source of Table REF-2. -/
def refSource (n : Nat) : Bool := n < 6 || (8 ≤ n && n < 32)

/-- Fields of a source. -/
def State.refCfg (s : State) (n : Nat) (f : Fld) : Nat := s.fld (R.REF_SRC_CFG n) f
def State.refOn (s : State) (n : Nat) : Bool := refSource n && s.refCfg n F.REF_SRC_CFG_enable == 1
def State.refQual (s : State) (n : Nat) : Bool := s.flag (R.REF_SRC_STATUS n) F.REF_SRC_STATUS_qualified

/-- A source is a 1 PPS source. -/
def State.refIsPps (s : State) (n : Nat) : Bool := n < 4 && s.refCfg n F.REF_SRC_CFG_freq == 0

/-- The source condition of Table REF-2. -/
def State.refCond (s : State) (n : Nat) : Bool :=
  let car := fun (c : Carrier) => s.hasCarrier c && s.flag (R.RXF_STATE c) F.RXF_STATE_tr_lock && s.flag (R.RXF_STATE c) F.RXF_STATE_sf_lock
  if n < 4 then true
  else if n = 4 then car .A
  else if n = 5 then car .B
  else if n < 8 then false
  else s.flag (R.HLN_LANE_STATUS (n - 8)) F.HLN_LANE_STATUS_rx_ready && s.fld (R.HLN_GRP_CFG ((n - 8) / 8)) F.HLN_GRP_CFG_ref_sel == 0

/-- A source is a candidate of R374. -/
def State.refCand (s : State) (n : Nat) : Bool := s.refOn n && s.refQual n && s.refCfg n F.REF_SRC_CFG_lockout == 0

/-- The selected source. -/
def State.refSel (s : State) : Option Nat :=
  if s.flag R.REF_STATE F.REF_STATE_sel_valid then some (s.fld R.REF_STATE F.REF_STATE_sel_src) else none

/-- The source that R374 chooses now. -/
def State.refChoice (s : State) : Option Nat :=
  if s.flag R.REF_CFG F.REF_CFG_force_en then
    let n := s.fld R.REF_CFG F.REF_CFG_force_src
    if s.refOn n && s.refQual n then some n else none
  else
    let cs := (List.range 32).filter s.refCand
    match cs.map (fun n => s.refCfg n F.REF_SRC_CFG_rank) with
    | [] => none
    | r :: rs =>
      let best := rs.foldl min r
      let top := cs.filter (fun n => s.refCfg n F.REF_SRC_CFG_rank == best)
      match s.refSel with
      | some n => if top.contains n then some n else top.head?
      | none => top.head?

/-- The qualified candidates of the selected source's rank (R375). -/
def State.refPeers (s : State) : List Nat :=
  match s.refSel with
  | none => []
  | some k => (List.range 32).filter (fun n => s.refCand n && s.refCfg n F.REF_SRC_CFG_rank == s.refCfg k F.REF_SRC_CFG_rank)

/-- The state of the DPLL (Table REF-1). -/
def State.dpll (s : State) : Nat := s.fld R.REF_STATE F.REF_STATE_dpll_state

/-- The code on REF_ST1 and REF_ST0 (Table REF-1, R380, R381, R389). -/
def State.refCode (s : State) : Nat :=
  let oos := s.flag R.REF_STATE F.REF_STATE_hold_oos
  let lost := !s.flag R.REF_STATE F.REF_STATE_xtal_ok
  if s.ref.fault then 3
  else match s.dpll with
    | 0 => if lost then 3 else 0
    | 1 => if s.ref.acqHold then (if oos then 3 else 2) else 0
    | 2 => 1
    | _ => if oos || lost then 3 else 2

/-- REF_STATE follows: the code, and tie_alarm, which ends at once with fewer than two peers (R375). -/
def State.refShow (s : State) : State :=
  let s := s.setFld R.REF_STATE F.REF_STATE_st_code s.refCode
  if s.refPeers.length < 2 then s.setFlag R.REF_STATE F.REF_STATE_tie_alarm false else s

/-- A source's reason while it is enabled and no condition holds: locked out, or none. -/
def State.refClearReason (s : State) (n : Nat) : Nat := if s.refCfg n F.REF_SRC_CFG_lockout = 1 then 6 else 0

/-- A source is qualified (R371). -/
def State.refQualify (n : Nat) (s : State) : State :=
  let a := R.REF_SRC_STATUS n
  ((s.setFlag a F.REF_SRC_STATUS_qualified true).setFlag a F.REF_SRC_STATUS_active true).setFld a F.REF_SRC_STATUS_reason (s.refClearReason n)

/-- A condition holds for a source (R371): it is disqualified, which is a WARN event if it was qualified. -/
def State.refDisqualify (n reason : Nat) (s : State) : State :=
  let a := R.REF_SRC_STATUS n
  let was := s.refQual n
  let s := (s.setFlag a F.REF_SRC_STATUS_qualified false).setFld a F.REF_SRC_STATUS_reason reason
  let s := if reason = 1 then s.setFlag a F.REF_SRC_STATUS_active false else s
  let s := if was then s.logEvent 0x1C sevWarn 0x0004 (evData [(1, n), (1, reason)]) else s
  s.refShow

/-- REF_SOURCE_DISQUALIFY. -/
def execRefSourceDisqualify (src : Fin 32) (reason : Nat) (s : State) : Out :=
  let n := src.val
  if s.refOn n = false ∨ s.ref.fault ∨ ¬(reason = 1 ∨ reason = 2 ∨ (reason = 3 ∧ s.refCond n = false)) then .next s
  else .next (s.refDisqualify n reason)

/-- REF_SOURCE_WTR_EXPIRY: of a source that waits for its wtr (R371). -/
def execRefSourceWtrExpiry (src : Fin 32) (s : State) : Out :=
  let n := src.val
  if s.refOn n ∧ s.refQual n = false ∧ s.fld (R.REF_SRC_STATUS n) F.REF_SRC_STATUS_reason = 4 ∧ s.refCond n ∧ s.ref.fault = false then .next (s.refQualify n).refShow else .next s

/-- The window of one source ends: its offset is shown, a frequency beyond the limit disqualifies it; clear of every condition it waits for wtr, and
with wtr = 0 it is qualified at once (R371). -/
def State.refMeasure (m : RefMeas) (s : State) : State :=
  let n := m.src
  if s.refOn n = false then s
  else
    let s := s.setReg (R.REF_SRC_OFFSET n) m.offset
    let s := s.setFlag (R.REF_SRC_STATUS n) F.REF_SRC_STATUS_active m.edges
    if m.edges = false then s.refDisqualify n 1
    else if s.refCfg n F.REF_SRC_CFG_disq_ppm * 1000000 < m.offset.toInt.natAbs then s.refDisqualify n 2
    else if s.refCond n = false then s.refDisqualify n 3
    else if s.refQual n then s
    else if s.refCfg n F.REF_SRC_CFG_wtr = 0 then s.refQualify n
    else s.setFld (R.REF_SRC_STATUS n) F.REF_SRC_STATUS_reason 4

/-- The pairs of peers whose offsets differ by more than tie_thr (R375). -/
def State.refPairs (s : State) : List (Nat × Nat) :=
  let ps := s.refPeers
  let off := fun n => (s.reg (R.REF_SRC_OFFSET n)).toInt
  ps.flatMap (fun i => (ps.filter (fun j => decide (i < j ∧ s.fld R.REF_CFG F.REF_CFG_tie_thr * 1000 < (off i - off j).natAbs))).map (fun j => (i, j)))

/-- The rank-tie alarm is judged (R375).  With several such pairs the event names an open one of them. -/
def State.refTie (s : State) : State :=
  let pairs := s.refPairs
  let alarm := s.flag R.REF_STATE F.REF_STATE_tie_alarm
  match pairs with
  | [] =>
    let n := s.ref.tieClear + 1
    let s := { s with ref := { s.ref with tieClear := n } }
    if alarm ∧ 10 ≤ n then s.setFlag R.REF_STATE F.REF_STATE_tie_alarm false else s
  | _ :: _ =>
    let s := { s with ref := { s.ref with tieClear := 0 } }
    if alarm then s
    else
      let (w, s) := if pairs.length = 1 then (0, s) else s.draw
      let (i, j) := pairs.getD (w.toNat % pairs.length) (0, 0)
      let s := (s.setFlag R.REF_STATE F.REF_STATE_tie_alarm true).setFlag R.REF_STATUS F.REF_STATUS_tie true
      let s := s.addCnt R.REF_TIE_CNT 1
      s.logEvent 0x1C sevAlarm 0x0007 (evData [(1, s.refCfg i F.REF_SRC_CFG_rank), (1, i), (1, j), (4, (s.reg (R.REF_SRC_OFFSET i)).toNat),
        (4, (s.reg (R.REF_SRC_OFFSET j)).toNat)])

/-- The DPLL's word at the end of a window (R366, R377): what closing a phase step adds is limited to slew_lim, the sum to 100 ppm. -/
def State.dpllWord (s : State) (word closing : W32) : Int :=
  let lim : Int := 1000 * s.fld R.REF_SLEW F.REF_SLEW_slew_lim
  clampI (-100000000) 100000000 (word.toInt + clampI (-lim) lim closing.toInt)

/-- A window of the DPLL on source n ends with word w (R369, R379): in ACQUIRE windows within 10 ppb of the reference are counted, in LOCKED the words are
kept for the holdover word.  The error is judged against the reference times 1 + w_steer, which the root is to follow (R378). -/
def State.refWindow (n : Nat) (w : Int) (s : State) : State :=
  let s := s.setReg R.REF_DPLL_WORD (BitVec.ofInt 32 w)
  let near := decide (((s.reg (R.REF_SRC_OFFSET n)).toInt - w).natAbs ≤ 10000)
  let lockRun := if s.dpll = 1 ∧ near then s.ref.lockRun + 1 else 0
  { s with ref := { s.ref with lockRun, words := if s.dpll = 2 then (w :: s.ref.words).take 3601 else s.ref.words } }

/-- REF_MONITOR_WINDOW_END: a 1 s window ends (R369, R371, R375). -/
def execRefMonitorWindowEnd (meas : List RefMeas) (rootOffset dpllWord closing : W32) (s : State) : Out :=
  let s := s.setReg R.REF_ROOT_OFFSET rootOffset
  if s.ref.fault then .next s
  else
    let s := meas.foldl (fun s m => s.refMeasure m) s
    .next ((match s.refSel with
      | some n => s.refWindow n (s.dpllWord dpllWord closing)
      | none => s).refTie.refShow)

/-- HOLDOVER is entered (R376). -/
def State.refHold (s : State) : State :=
  ((s.setFld R.REF_STATE F.REF_STATE_dpll_state 3).addCnt R.REF_HOLD_CNT 1).setFlag R.REF_STATUS F.REF_STATUS_hold_entered true

/-- The words that the holdover word is the mean of (R379): those of hold_avg seconds, the last second left out.  The seconds are the windows (DESIGN CHOICE:
notes/assumptions/110.md). -/
def State.holdWords (s : State) : List Int := (s.ref.words.drop 1).take (s.fld R.REF_HOLD_CFG F.REF_HOLD_CFG_hold_avg)

/-- A mean, and half the spread of a list, rounded down. -/
def meanInt (l : List Int) : Int := l.foldl (· + ·) 0 / (l.length : Int)
def halfSpread (l : List Int) : Int := (l.foldl max (l.headD 0) - l.foldl min (l.headD 0)) / 2

/-- No source is selected any more (R376, R379): the history is complete after hold_avg + 1 seconds of LOCKED. -/
def State.refLost (s : State) : State :=
  let locked := (s.time.devtime - s.ref.lockedAt).toNat
  let holdWord := BitVec.ofInt 32 (meanInt s.holdWords)
  let u0 := BitVec.ofInt 32 (halfSpread s.holdWords)
  let full := decide (s.fld R.REF_HOLD_CFG F.REF_HOLD_CFG_hold_avg < s.ref.words.length)
  let s := { s with ref := { s.ref with words := [] } }
  if s.dpll = 2 then
    if full then
      let s := ((s.setReg R.REF_HOLD_WORD holdWord).setReg R.REF_HOLD_U0 u0).setReg R.REF_DPLL_WORD holdWord
      let s := ({ s with ref := { s.ref with holdAt := s.time.devtime } }).setFlag R.REF_STATE F.REF_STATE_hold_oos false
      s.refHold.logEvent 0x1C sevWarn 0x0005 (evData [(4, holdWord.toNat), (4, u0.toNat)])
    else
      ((s.setFld R.REF_STATE F.REF_STATE_dpll_state 0).setReg R.REF_DPLL_WORD 0).logEvent 0x1C sevWarn 0x0009
        (evData [(4, locked / 10000000000)])
  else if s.dpll = 1 then
    if s.ref.acqHold then
      let s := (s.setReg R.REF_DPLL_WORD (s.reg R.REF_HOLD_WORD)).refHold
      s.logEvent 0x1C sevWarn 0x0005 (evData [(4, (s.reg R.REF_HOLD_WORD).toNat), (4, (s.reg R.REF_HOLD_U0).toNat)])
    else (s.setFld R.REF_STATE F.REF_STATE_dpll_state 0).setReg R.REF_DPLL_WORD 0
  else s

/-- REF_SOURCE_SWITCH (R374, R376, R377).  A change from no source names no code of Table REF-2: an open byte. -/
def execRefSourceSwitch (step : BitVec 48) (s : State) : Out :=
  let cur := s.refSel
  let want := s.refChoice
  if s.ref.fault ∨ want = cur then .next s
  else match want with
    | none => .next ((s.setFlag R.REF_STATE F.REF_STATE_sel_valid false).refLost).refShow
    | some n =>
      let (src, s) := match cur with
        | some k => (k, s)
        | none => let (w, s) := s.draw; (w.toNat % 256, s)
      let s := (s.setFlag R.REF_STATE F.REF_STATE_sel_valid true).setFld R.REF_STATE F.REF_STATE_sel_src n
      let s := (s.setReg64 R.REF_STEP step.toNat).addCnt R.REF_SWITCH_CNT 1
      let s := (s.setFlag R.REF_STATUS F.REF_STATUS_switch true).logEvent 0x1C sevInfo 0x0003
        (evData [(1, src), (1, n), (8, unsigned 64 step.toInt)])
      let s := if s.dpll = 0 ∨ s.dpll = 3 then
          ({ s with ref := { s.ref with acqHold := s.dpll == 3, lockRun := 0 } }).setFld R.REF_STATE F.REF_STATE_dpll_state 1
        else s
      .next s.refShow

/-- The windows within 10 ppb that LOCKED asks for (R368, R369): 4 over the bandwidth in use, rounded up, and at least 2; a 1 PPS source has 0.1 Hz. -/
def State.lockWindows (s : State) : Nat :=
  if s.refSel.any s.refIsPps then 40
  else match s.fld R.REF_CFG F.REF_CFG_bw with
    | 0 => 40
    | 1 => 14
    | 2 => 4
    | _ => 2

/-- LOCKED may be declared (R369). -/
def State.lockDue (s : State) : Bool := s.dpll == 1 && !s.ref.fault && decide (s.lockWindows ≤ s.ref.lockRun)

/-- REF_LOCK_DECLARED (R369). -/
def execRefLockDeclared (s : State) : Out :=
  if s.lockDue then
    let s := (s.setFld R.REF_STATE F.REF_STATE_dpll_state 2).setFlag R.REF_STATE F.REF_STATE_hold_oos false
    let s := { s with ref := { s.ref with lockedAt := s.time.devtime, acqHold := false, words := [] } }
    .next (s.refShow.logEvent 0x1C sevInfo 0x0008 (evData [(1, s.fld R.REF_STATE F.REF_STATE_sel_src)]))
  else .next s

/-- The drift of the oscillator's class in ppt/s (Table REF-3). -/
def State.refDrift (s : State) : Nat :=
  match s.fld R.REF_HOLD_CFG F.REF_HOLD_CFG_hold_class with
  | 1 => 1000
  | 2 => 10
  | 3 => 1
  | 7 => s.fld R.REF_HOLD_DRIFT F.REF_HOLD_DRIFT_drift
  | _ => 10000

/-- The predicted frequency error of holdover exceeds hold_limit (R380): E(t) = u0 + d t, in ppt. -/
def State.holdBeyond (s : State) : Bool :=
  decide (s.fld R.REF_HOLD_LIMIT F.REF_HOLD_LIMIT_hold_limit * 1000 * 10000000000 <
    (s.reg R.REF_HOLD_U0).toNat * 10000000000 + s.refDrift * (s.time.devtime - s.ref.holdAt).toNat)

/-- REF_HOLDOVER_OOS (R380). -/
def execRefHoldoverOos (s : State) : Out :=
  if s.dpll = 3 ∧ s.flag R.REF_STATE F.REF_STATE_hold_oos = false ∧ s.ref.fault = false ∧ s.holdBeyond then
    let s := (s.setFlag R.REF_STATE F.REF_STATE_hold_oos true).setFlag R.REF_STATUS F.REF_STATUS_hold_oos true
    .next (s.refShow.logEvent 0x1C sevAlarm 0x0006 (evData [(8, (s.time.devtime - s.ref.holdAt).toNat)]))
  else .next s

/-- Seconds of holdover left before the limit, saturating (R380); 0 outside HOLDOVER. -/
def State.refRemain (s : State) : Nat :=
  if s.dpll ≠ 3 ∨ s.flag R.REF_STATE F.REF_STATE_hold_oos then 0
  else
    let room := s.fld R.REF_HOLD_LIMIT F.REF_HOLD_LIMIT_hold_limit * 1000 - (s.reg R.REF_HOLD_U0).toNat
    if s.refDrift = 0 then 0xFFFFFFFF
    else min 0xFFFFFFFF (room / s.refDrift - (s.time.devtime - s.ref.holdAt).toNat / 10000000000)

/-! ### Pulses -/

/-- A pulse input can be used: PPS_IN1 only while GPIO15 is held with function 2 (R373). -/
def State.ppsIn (s : State) (n : Nat) : Bool := n != 1 || s.ballAs 15 2

/-- PPS_INPUT_EDGE (R382). -/
def execPpsInputEdge (n : Fin 3) (after : Byte) (s : State) : Out :=
  if s.ppsIn n.val then .next (s.setReg64 (R.REF_PPS_TS_LO n.val) (s.time.devtime + after.zeroExtend 64).toNat) else .next s

/-- The aligning input exists now (R383). -/
def State.alignOk (s : State) : Bool :=
  match s.fld R.REF_PULSE_CFG F.REF_PULSE_CFG_align_src with
  | 1 => s.ppsIn 0
  | 2 => s.ppsIn 1
  | 3 => s.ppsIn 2
  | 4 => match s.refSel with
    | some n => s.refIsPps n
    | none => false
  | _ => false


/-- The generator's nearest second boundary minus the time of a pulse now, in root cycles (R383). -/
def State.genError (s : State) : Int := if 2 * s.ref.gen < genSecond then -(s.ref.gen : Int) else ((genSecond - s.ref.gen : Nat) : Int)

/-- REF_ALIGN_PULSE (R383), from which the generator's nearest second boundary lies at the pulse: pulses of the old phase not yet sent move with it (R385); a
started RF_REALIGN re-phases whatever align_thr holds (Table REF-4). -/
def execRefAlignPulse (s : State) : Out :=
  if s.alignOk = false then .next s
  else
    let e := s.genError
    let cmd := s.startedOp 24 0x100
    if cmd.isSome ∨ s.fld R.REF_PULSE_CFG F.REF_PULSE_CFG_align_thr ≤ e.natAbs then
      let s := { s with ref := { s.ref with gen := 0, sec := if 2 * s.ref.gen < genSecond then s.ref.sec else s.ref.sec + 1 } }
      let s := (s.setReg64 R.REF_ALIGN_STEP (unsigned 48 (-e))).addCnt R.REF_REALIGN_CNT 1
      let s := (s.setFlag R.REF_STATUS F.REF_STATUS_realign true).logEvent 0x1C sevInfo 0x000A (evData [(8, unsigned 64 (-e))])
      .next (match cmd with
        | some x => s.complete x 0 (unsigned 64 (-e)) 0
        | none => s)
    else .next s

/-- An output sends a pulse now. -/
def State.sendPulse (k : Fin 4) (s : State) : State :=
  { s with ref := { s.ref with pulseAt := s.ref.pulseAt.set k (some s.time.devtime) } }

/-- An output is to send a pulse (R384, R385): a generator second plus o_k that it has not answered has come; a superframe output answers superframes, in mode 2
those that follow such a second. -/
def State.pulseDue (s : State) (k : Fin 4) (mode : Nat) : Bool :=
  let second := decide (s.ref.sent[k] < s.secondsDue k)
  if k.val < 2 then second else decide (s.ref.sfSent[k] < s.outSfs k) && (mode == 1 || second)

/-- The pulse is counted as sent, and with it the superframe; in mode 2 it answers every superframe up to now. -/
def State.pulseSent (k : Fin 4) (mode : Nat) (s : State) : State :=
  { s with ref := { s.ref with sent := s.ref.sent.set k (s.ref.sent[k] + 1)
                               sfSent := s.ref.sfSent.set k (if mode = 2 then s.outSfs k else s.ref.sfSent[k] + 1) } }

/-- REF_PULSE_OUTPUT (R384, R385): an output that is off, or a superframe output whose carrier is not in SERVICE, stays low; exactly one pulse is sent for each
second, or superframe. -/
def execRefPulseOutput (k : Fin 4) (s : State) : Out :=
  let mode := s.fld (R.REF_OUT_CFG k.val) F.REF_OUT_CFG_mode
  if mode = 0 ∨ (2 ≤ k.val ∧ s.fld (R.TXP_STATE (outCarrier k)) F.TXP_STATE_state ≠ 3) ∨ s.pulseDue k mode = false then .next s
  else
    let s := (s.pulseSent k mode).sendPulse k
    let a := if k.val = 2 then R.REF_SF_MARK_A_LO else R.REF_SF_MARK_B_LO
    .next (if 2 ≤ k.val ∧ mode = 2 then s.setReg64 a s.time.devtime.toNat else s)

/-! ### The COMMIT check -/

/-- The first failure of R372 in the staged configuration; 0 with none. -/
def State.refCfgErr (s : State) : Nat :=
  let on := fun n => refSource n && getBits F.REF_SRC_CFG_enable (s.staged (R.REF_SRC_CFG n)) == 1
  let force := getBits F.REF_CFG_force_src (s.staged R.REF_CFG)
  if (List.range 4).any (fun n => on n && 6 ≤ getBits F.REF_SRC_CFG_freq (s.staged (R.REF_SRC_CFG n))) then 1
  else if (List.range 24).any (fun n => on (n + 8) && getBits F.HLN_GRP_CFG_ref_sel (s.staged (R.HLN_GRP_CFG (n / 8))) == 1) then 2
  else if getBits F.REF_CFG_force_en (s.staged R.REF_CFG) = 1 ∧ on force = false then 3
  else 0

/-- A source's status follows a change of its configuration. -/
def State.refRenew (was : Bool) (n : Nat) (s : State) : State :=
  let a := R.REF_SRC_STATUS n
  let now := s.refOn n
  if was && !now then s.setReg a (BitVec.ofNat 32 (7 * 4))
  else if now && !was then s.setReg a (BitVec.ofNat 32 (1 * 4))
  else if now && s.refQual n then s.setFld a F.REF_SRC_STATUS_reason (s.refClearReason n)
  else s

/-- A width of more than half its output's period is limited (R384). -/
def State.refWidth (k : Nat) (s : State) : State :=
  let a := R.REF_OUT_CFG k
  let half := 524288 / max 1 (s.carRs8 (if k = 2 then .A else .B))
  if s.fld a F.REF_OUT_CFG_mode = 1 ∧ half < s.fld a F.REF_OUT_CFG_width then
    (s.setFld a F.REF_OUT_CFG_width half).setFlag R.REF_STATUS F.REF_STATUS_cfg_lim true
  else s

/-- An output's offset is limited to half a second (R384). -/
def State.refOffset (k : Nat) (s : State) : State :=
  let v := signed 64 (s.reg64 (R.REF_OUT_OFS_LO k))
  let x := clampI (-4500000000) 4500000000 v
  if x = v then s else (s.setReg64 (R.REF_OUT_OFS_LO k) (unsigned 64 x)).setFlag R.REF_STATUS F.REF_STATUS_cfg_lim true

/-- A COMMIT acts on REF (R372): a set that fails a check is not applied. -/
def State.refCommit (s : State) : State :=
  let err := s.refCfgErr
  let s := s.setFld R.REF_STATE F.REF_STATE_cfg_err err
  if err ≠ 0 then s
  else
    let was := (List.range 32).map s.refOn
    let off := (List.finRange 4).filter (fun k => s.fld (R.REF_OUT_CFG k.val) F.REF_OUT_CFG_mode == 0)
    let s := s.applySet (fun _ f => f.bnd == .refCfg)
    let s := off.foldl (fun s k => s.outStart k) s
    let s := forN 32 (fun n s => s.refRenew (was.getD n false) n) s
    (forN 4 State.refOffset ((s.refWidth 2).refWidth 3)).refShow

/-! ### Commands, faults, the crystal -/

/-- RF_REALIGN starts (Table REF-4); the next aligning pulse completes it. -/
def execRfRealign (s : State) : Out :=
  .next (s.runCommand 24 0x100 (fun d s =>
    if d.unit ≠ 0xFF then (some (0x02, 0, 0), s)
    else if s.fld R.REF_PULSE_CFG F.REF_PULSE_CFG_align_src = 0 then (some (0x06, 0, 0), s)
    else (none, s)))

/-- RF_MEASURE starts (Table REF-4); COMMAND_COMPLETION brings the measured mean offset. -/
def execRfMeasure (s : State) : Out :=
  .next (s.runCommand 24 0x101 (fun d s =>
    let n := d.arg0 % 1024
    if refSource d.unit = false ∨ n = 0 ∨ 1000 < n then (some (0x02, 0, 0), s)
    else if s.refOn d.unit = false then (some (0x06, 0, 0), s)
    else (none, s)))

/-- REF_LOGIC_FAULT (R389). -/
def execRefLogicFault (s : State) : Out :=
  let s := ({ s with ref := { s.ref with fault := true } }).setFlag R.REF_STATUS F.REF_STATUS_engine_fault true
  .next ((s.setFld R.REF_STATE F.REF_STATE_dpll_state 3).refShow.logFault 0x1C 0x000B [])

/-- CRYSTAL_LOSS (R27, R381): DEVTIME holds. -/
def execCrystalLoss (s : State) : Out :=
  if s.time.xtalStopped then .next s
  else
    let s := { s with time := { s.time with xtalStopped := true } }
    let s := (s.setFlag R.REF_STATE F.REF_STATE_xtal_ok false).setFlag R.REF_STATUS F.REF_STATUS_xtal_loss true
    .next (s.refShow.logEvent 0x1C sevFault 0x0002 [])

/-- CRYSTAL_RETURN (R381): DEVTIME advances again from the value it held. -/
def execCrystalReturn (s : State) : Out :=
  let s := { s with time := { s.time with xtalStopped := false } }
  .next (s.setFlag R.REF_STATE F.REF_STATE_xtal_ok true).refShow

end Sys2Proof.Machine
end

