-- ==== Sys2Proof/Machine/Annealer.lean ====
section
/-! DEFINITION. The annealer (ANL): runs (R423, R426), failed elements (R422, R424), the choice of elements (R425), commands (R430), faults (R429). -/
namespace Sys2Proof.Machine

/-- The state of a converter's block: that of TXP_x or RXF_x. -/
def State.convState (s : State) (v : Nat) : Nat :=
  if convTx v then s.txState (convCarrier v) else s.fld (R.RXF_STATE (convCarrier v)) F.RXF_STATE_state

/-- A new selection of a converter waits for a superframe boundary (R124, R137). -/
def State.convWaits (s : State) (v : Nat) : Bool :=
  if convTx v then s.txState (convCarrier v) == 3 else s.flag (R.RXF_STATE (convCarrier v)) F.RXF_STATE_sf_lock

/-- A measured converter is an ADC in the foreground form: RXF_x in IDLE (Table ANL-2). -/
def State.convIdle (s : State) (v : Nat) : Bool := !convTx v && s.convState v == 1

/-- The next pending converter of a unit, in ascending number. -/
def State.anlNext (s : State) (u : Fin 4) : Option Nat :=
  (List.range 16).find? (fun v => convUnit v == u && s.fld R.ANL_STATE F.ANL_STATE_pending / 2 ^ v % 2 == 1)

/-- Replace a unit's run. -/
def State.setAnlUnit (u : Fin 4) (r : AnlRun) (s : State) : State := { s with anl := { s.anl with units := s.anl.units.set u (some r) } }

/-- ANL_RUN_START (R426): none while held, in OFF, or after a fault. -/
def execAnlRunStart (u : Fin 4) (s : State) : Out :=
  match s.anlNext u with
  | none => .next s
  | some v =>
    if s.anl.fault ∨ s.flag R.ANL_STATE F.ANL_STATE_held ∨ (s.anl.units[u]).isSome ∨ s.convState v = 0 then .next s
    else .next ((s.setAnlUnit u { v, phase := 0, temp := 0, time := 0, idle := s.convIdle v, recs := [] }).setReg R.ANL_STATE
      (s.reg R.ANL_STATE ||| BitVec.ofNat 32 (2 ^ u.val)))

/-- The window of a background ADC run counts (R423): with no LOS, and 16 codes of RMS or more on its lane. -/
def State.windowCounts (s : State) (v : Nat) : Bool :=
  let c := convCarrier v
  !s.flag (R.RXF_STATE c) F.RXF_STATE_los && decide (4096 ≤ s.fld (R.RXF_LANE_RMS c (v % 4)) F.RXF_LANE_RMS_rms)

/-- ANL_WINDOW_END (R423): a window restarts where its ADC changed between IDLE and another state, and pauses under LOS or with too little signal. -/
def execAnlWindowEnd (u : Fin 4) (s : State) : Out :=
  match s.anl.units[u] with
  | none => .next s
  | some r =>
    if r.phase ≠ 0 then .next s
    else if r.idle ≠ s.convIdle r.v then .next (s.setAnlUnit u { r with idle := s.convIdle r.v })
    else if convTx r.v = false ∧ r.idle = false ∧ s.windowCounts r.v = false then .next s
    else .next (s.setAnlUnit u { r with phase := 1, temp := s.fld (R.MON_TEMP (convCarrier r.v).code) F.MON_TEMP_temp, time := s.time.devtime })

/-- Sorted by error, the lower element first between equals. -/
def insertErr (err : Nat → Nat) (e : Nat) : List Nat → List Nat
  | [] => [e]
  | x :: l => if err e < err x then e :: x :: l else x :: insertErr err e l
def sortErr (err : Nat → Nat) (l : List Nat) : List Nat := l.foldl (fun a e => insertErr err e a) []

/-- The elements in use of a converter when its choice phase ends (R422, R425): the present set, unless it holds a failed element while an unfailed one is idle, or its
worst error exceeds that of the best idle unfailed element by 25 % or more; then the best, completed by failed elements of smallest error, as where it holds a
failed element and none unfailed is idle (R134). -/
def chooseSet (n : Nat) (now : Nat → Bool) (failed : Nat → Bool) (err : Nat → Nat) : List Nat :=
  let good := sortErr err ((List.range 72).filter (fun e => !failed e))
  let bad := sortErr err ((List.range 72).filter failed)
  let cur := (List.range 72).filter now
  let worst := (cur.map err).foldl max 0
  let keep := cur.length == n && (match good.find? (fun e => !now e) with
    | none => !cur.any failed
    | some b => !cur.any failed && decide (4 * worst < 5 * err b))
  if keep then cur else (good ++ bad).take n

/-- A value lies beyond ± m; the nearest value within. -/
def beyond (m : Nat) (v : W16) : Bool := m < v.toInt.natAbs
def within (m : Nat) (v : W16) : W16 := BitVec.ofInt 16 (clampI (-m) m v.toInt)

/-- The record of an element after a measurement, its marks included (R422): failed where a trim that it calls for lies beyond the range of Table ANL-1, or where both
comparators are failed, each by an offset beyond 8 codes. -/
def measured (tx : Bool) (x : AnlElem) (m : AnlMeas) : AnlElem :=
  let c0 := x.comp0Fail || beyond 512 m.comp0
  let c1 := x.comp1Fail || beyond 512 m.comp1
  if tx then { x with failed := x.failed || beyond 250 m.trim0, trim0 := within 250 m.trim0, err := m.err }
  else { x with failed := x.failed || beyond 1024 m.trim0 || beyond 1000 m.trim1 || beyond 300 m.trim2 || (c0 && c1), comp0Fail := c0, comp1Fail := c1
                comp1 := if x.comp1 then !(c1 && !c0) else c0 && !c1
                trim0 := within 1024 m.trim0, trim1 := within 1000 m.trim1, trim2 := within 300 m.trim2, err := m.err }

/-- An element has been marked failed (R422).  The cause has no code in the spec: c. -/
def State.anlMark (v e c : Nat) (s : State) : State :=
  let s := ((s.addCnt R.ANL_FAIL_MARK_CNT 1).setFlag R.ANL_STATUS F.ANL_STATUS_elem_fail true).logEvent 0x1F sevWarn 0x0002
    (evData [(1, v), (1, e), (1, c)])
  s.spareUsed (carBlock (convCarrier v) (if convTx v then 0 else 1))

/-- Too few unfailed elements remain (R134, R422). -/
def State.anlShort (v : Nat) (s : State) : State :=
  let f := s.anlCount v (·.failed)
  if convTx v then
    if 9 < f then (s.setFlag R.ANL_STATUS F.ANL_STATUS_dac_short true).logEvent 0x1F sevFault 0x0003 (evData [(1, v), (4, f)]) else s
  else if 8 < f then
    (s.setFlag (R.RXF_STATUS (convCarrier v)) F.RXF_STATUS_subadc_short true).logEvent (rxfId (convCarrier v)) sevFault 0x0006
      (evData [(1, v % 4), (4, f)])
  else s

/-- The record of element e of converter v after the measurements of a run: an element without one keeps its record. -/
def State.anlRec (s : State) (v : Nat) (meas : List AnlMeas) (e : Nat) : AnlElem :=
  match meas[e]? with
  | some m => measured (convTx v) (s.anlElem v e) m
  | none => s.anlElem v e
/-- A newly failed element is marked; the cause is a drawn byte. -/
def State.anlMarkDrawn (v e : Nat) (s : State) : State :=
  let (w, s) := s.draw
  s.anlMark v e w.toNat

/-- ANL_RUN_END (R422, R425, R426): the choice is made; it is stored in OFF, waits for a superframe boundary, or is applied at once. -/
def execAnlRunEnd (u : Fin 4) (meas : List AnlMeas) (s : State) : Out :=
  match s.anl.units[u] with
  | none => .next s
  | some r =>
    if r.phase ≠ 1 ∨ s.anl.fault then .next s
    else
      let tx := convTx r.v
      let rec_ := s.anlRec r.v meas
      let used := chooseSet (if tx then 63 else 64) (fun e => (s.anlElem r.v e).inUse) (fun e => (rec_ e).failed) (fun e => (rec_ e).err)
      let recs := (List.range 72).map (fun e => (e, { rec_ e with inUse := used.contains e, phase := phaseIn tx used e }))
      let newly := (List.range 72).filter (fun e => (rec_ e).failed && !(s.anlElem r.v e).failed)
      let s' := newly.foldl (fun s e => s.anlMarkDrawn r.v e) s
      let s' := newly.foldl (fun s e => s.setAnlElem r.v e { s.anlElem r.v e with failed := true }) s'
      let s' := (if newly.isEmpty then s' else s'.anlShort r.v).anlShow r.v
      let r' := { r with phase := 2, recs }
      let s' := s'.setAnlUnit u r'
      .next (if s.convState r.v = 0 then s'.anlFinish u r' 2
        else if s.convWaits r.v then s' else s'.anlFinish u r' 1)

/-- ANL_PAUSE_TIMEOUT (R423, R426). -/
def execAnlPauseTimeout (u : Fin 4) (s : State) : Out :=
  match s.anl.units[u] with
  | some r => .next (if r.phase = 0 ∧ convTx r.v = false ∧ r.idle = false then s.anlAbandon u else s)
  | none => .next s

/-- The best idle unfailed element of a converter (R424): the one of smallest error when measured last, the lowest of equals. -/
def State.anlBest (s : State) (v : Nat) : Option Nat :=
  (sortErr (fun e => (s.anlElem v e).err) ((List.range 72).filter (fun e => !(s.anlElem v e).inUse && !(s.anlElem v e).failed))).head?

/-- That element is to take the place of element e. -/
def State.anlReplace (v e : Nat) (s : State) : State :=
  match s.anlBest v with
  | some b => { s with anl := { s.anl with subs := s.anl.subs ++ [(v, e, b)] } }
  | none => s

/-- ANL_ELEMENT_FAILED (R424): the element is marked at once, and the best idle unfailed one takes its place with its own last trims, at a superframe boundary
where R124 or R137 says so. -/
def execAnlElementFailed (v : Fin 16) (elem : Fin 72) (cause : Byte) (s : State) : Out :=
  let x := s.anlElem v.val elem.val
  if s.convPresent v.val = false ∨ s.anl.fault ∨ x.inUse = false ∨ x.failed then .next s
  else
    let s := (s.setAnlElem v.val elem.val { x with failed := true }).anlMark v.val elem.val cause.toNat
    let s := ((s.anlReplace v.val elem.val).anlShort v.val).anlShow v.val
    .next (if s.convWaits v.val then s else s.anlSubsNow (convTx v.val) (convCarrier v.val))

/-! ### Commands (Table ANL-3) -/

/-- AN_RUN: the runs become pending or merge; the command waits until they end. -/
def execAnRun (s : State) : Out :=
  match s.startable 27 0x100 with
  | none => .next s
  | some e => .next (s.runCommand 27 0x100 (fun d s =>
    let l := if d.unit = 0xFF then (List.range 16).filter s.convPresent else [d.unit]
    if 16 ≤ d.unit ∧ d.unit ≠ 0xFF then (some (0x02, 0, 0), s)
    else if d.unit < 16 ∧ s.convPresent d.unit = false then (some (0x03, 0, 0), s)
    else if s.flag R.ANL_STATE F.ANL_STATE_held then (some (0x06, 0, 0), s)
    else
      let s := l.foldl (fun s v => s.anlPend v) s
      (none, { s with anl := { s.anl with waits := s.anl.waits ++ [(e.ticket, l)] } })))

/-- AN_HOLD: runs in progress are abandoned. -/
def execAnHold (s : State) : Out :=
  .next (s.runCommand 27 0x101 (fun d s =>
    if d.unit ≠ 0xFF then (some (0x02, 0, 0), s)
    else
      let on := d.arg0 % 2 == 1
      let s := s.setFlag R.ANL_STATE F.ANL_STATE_held on
      (some (0, 0, 0), if on then (List.finRange 4).foldl (fun s u => s.anlAbandon u) s else s)))

/-- AN_CLEAR_FAIL. -/
def execAnClearFail (s : State) : Out :=
  .next (s.runCommand 27 0x102 (fun d s =>
    let e := d.arg0 % 128
    if 71 < e ∨ 15 < d.unit then (some (0x02, 0, 0), s)
    else if (s.anl.units[convUnit d.unit]).map (·.v) = some d.unit then (some (0x06, 0, 0), s)
    else
      let x := s.anlElem d.unit e
      (some (0, 0, 0), if s.convPresent d.unit then
        (s.setAnlElem d.unit e { x with failed := false, comp0Fail := false, comp1Fail := false }).anlShow d.unit else s)))

/-- A table record (Table ANL-4). -/
def elemBytes (tx : Bool) (x : AnlElem) : List Byte :=
  [BitVec.ofNat 8 (b2n x.inUse + 2 * b2n x.failed + (if tx then 0 else 4 * b2n x.comp1 + 8 * b2n x.comp0Fail + 16 * b2n x.comp1Fail)),
   BitVec.ofNat 8 (if tx then 0 else x.phase)] ++ leBytes 2 x.trim0.toNat ++ leBytes 2 (if tx then 0 else x.trim1.toNat)
   ++ leBytes 2 (if tx then 0 else x.trim2.toNat)

/-- AN_READ_TABLE. -/
def execAnReadTable (s : State) : Out :=
  .next (s.runCommand 27 0x103 (fun d s =>
    if d.unit < 16 ∧ s.convPresent d.unit = false then (some (0x03, 0, 0), s)
    else if 15 < d.unit ∨ bufferOk d.arg0 576 = false then (some (0x02, 0, 0), s)
    else (some (0, 0, 0), s.setBytes d.arg0 ((List.range 72).flatMap (fun e => elemBytes (convTx d.unit) (s.anlElem d.unit e))))))

/-- A run is dropped without being counted. -/
def State.anlDrop (u : Fin 4) (s : State) : State :=
  match s.anl.units[u] with
  | some r => (s.anlFree u).anlTell r.v 3
  | none => s

/-- ANL_ENGINE_FAULT (R429): runs are abandoned without being counted, and no further selection is applied. -/
def execAnlEngineFault (s : State) : Out :=
  let s := { s with anl := { s.anl with fault := true } }
  let s := (s.setFlag R.ANL_STATUS F.ANL_STATUS_engine_fault true).logFault 0x1F 0x0005 []
  .next ((List.finRange 4).foldl (fun s u => s.anlDrop u) s)

end Sys2Proof.Machine
end

