-- ==== Sys2Proof/Machine/Observ.lean ====
section
/-! DEFINITION. The gatherer (R446 to R449), the sampler (R453), and OBS's commands (R467). -/
namespace Sys2Proof.Machine

/-- A 48-bit counter in a list of register values. -/
def cntIn (l : List (Nat × W32)) (a : Nat) : Nat :=
  (sparseGet regReset l a).toNat + (sparseGet regReset l (a + 4)).toNat % 65536 * 2 ^ 32

/-- A field in a list of register values. -/
def fldIn (l : List (Nat × W32)) (a : Nat) (f : Fld) : Nat := getBits f (sparseGet regReset l a)

/-- The address of a snapshot buffer (R448). -/
def snapBase (b : Nat) : Nat := 0x01010000 + 0x10000 * b

/-- The counter of a gatherer slot: its low-word address; none for an unused slot (R446). -/
def catAddr (slot : Nat) : Option Nat := registeredCounters.find? (fun a => cntSlot a == slot)

/-- The buffer of the next capture: the one that is not held, else the one that latest does not name (R448, R449). -/
def State.snapNext (s : State) : Nat :=
  if s.flag R.OBS_SNAP_STATUS F.OBS_SNAP_STATUS_held then 1 - s.fld R.OBS_SNAP_STATUS F.OBS_SNAP_STATUS_held_buf
  else 1 - s.fld R.OBS_SNAP_STATUS F.OBS_SNAP_STATUS_latest

/-- Slot 3 of Table OBS-1: the tide was extended; the domains in Lay-up. -/
def State.snapFlags (s : State) (extended : Bool) : Nat :=
  b2n extended + (([3, 4, 5, 6, 7, 8, 9].filter (fun d => s.domState d == 2)).map (fun d => 2 ^ d)).sum

/-- The gatherer captures every registered counter at a tide boundary (R447); nothing after a fault (R466). -/
def State.capSnap (extended : Bool) (s : State) : State :=
  if s.obs.fault then s
  else ({ s with obs := { s.obs with
          seq := s.obs.seq + 1
          capture := some { seq := s.obs.seq, buf := s.snapNext, regs := s.regs.eff, tide := s.time.tide, devtime := s.time.devtime
                            flags := s.snapFlags extended } } }).setFlag R.OBS_SNAP_STATUS F.OBS_SNAP_STATUS_writing true

/-- The registered counters that a list of register values lists, by low-word address. -/
def listedCounters (l : List (Nat × W32)) : List Nat :=
  ((l.map (fun p => if isCntHigh p.1 then p.1 - 4 else p.1)).filter (fun a => match famOf a with
    | some (f, _) => f.cnt && !f.mirror
    | none => false)).eraseDups

/-- SNAPSHOT_WRITE_COMPLETE (R448, Table OBS-1): a counter that is not listed is 0. -/
def execSnapshotWriteComplete (s : State) : Out :=
  match s.obs.capture with
  | none => .next s
  | some c =>
    let b := snapBase c.buf
    let s := { s with obs := { s.obs with capture := none } }
    let s := (s.zeroMem b (b + 0x10000)).eccTouch b 0x10000
    let s := s.setBytes b (leBytes 8 c.seq ++ leBytes 8 c.tide.toNat ++ leBytes 8 c.devtime.toNat ++ leBytes 8 c.flags)
    let s := (listedCounters c.regs).foldl (fun s a => s.setBytes (b + 8 * cntSlot a) (leBytes 8 (cntIn c.regs a))) s
    let s := s.setBytes (b + 8 * 8191) (leBytes 8 c.seq)
    let a := R.OBS_SNAP_STATUS
    .next (((s.setFlag a F.OBS_SNAP_STATUS_writing false).setFld a F.OBS_SNAP_STATUS_latest c.buf).setFld a F.OBS_SNAP_STATUS_seq c.seq)

/-- Hold the buffer that latest names (R449). -/
def State.snapHold (s : State) : State :=
  let a := R.OBS_SNAP_STATUS
  if s.flag a F.OBS_SNAP_STATUS_held then s
  else (s.setFlag a F.OBS_SNAP_STATUS_held true).setFld a F.OBS_SNAP_STATUS_held_buf (s.fld a F.OBS_SNAP_STATUS_latest)

/-- Release the hold (R449). -/
def State.snapRelease (s : State) : State := s.setFlag R.OBS_SNAP_STATUS F.OBS_SNAP_STATUS_held false

def execObsSnapHold (s : State) : Out := .next s.snapHold
def execObsSnapRelease (s : State) : Out := .next s.snapRelease

/-- OB_READ_CAT (R446, Table OBS-5). -/
def execObReadCat (s : State) : Out :=
  .next (s.runCommand 30 0x100 (fun d s =>
    let first := d.arg1 % 8192
    let n := d.arg1 / 65536 % 16384
    if d.unit ≠ 0xFF ∨ first < 4 ∨ n = 0 ∨ 4096 < n ∨ 8190 < first + n - 1 ∨ bufferOk d.arg0 (4 * n) = false then (some (0x02, 0, 0), s)
    else (some (0, 0, 0), s.setBytes d.arg0 ((List.range n).flatMap (fun i => leBytes 4 ((catAddr (first + i)).getD 0))))))

/-- OBS_SMP_STATUS.fill follows the records held. -/
def State.smpShow (s : State) : State := s.setFld R.OBS_SMP_STATUS F.OBS_SMP_STATUS_fill s.obs.samples.length

/-- OB_READ_SAMPLES (R453, Table OBS-5). -/
def execObReadSamples (s : State) : Out :=
  .next (s.runCommand 30 0x101 (fun d s =>
    let n := d.arg1 % 8192
    if d.unit ≠ 0xFF ∨ n = 0 ∨ 4096 < n ∨ bufferOk d.arg0 (32 * n) = false then (some (0x02, 0, 0), s)
    else
      let l := s.obs.samples.take n
      (some (0, l.length, 0), (({ s with obs := { s.obs with samples := s.obs.samples.drop n } }).setBytes d.arg0 l.flatten).smpShow)))

/-- Instructions that have retired: only the active core retires any (R453). -/
def State.retiredAll (s : State) : Nat :=
  [CoreId.A, CoreId.B].foldl (fun n k => n + s.cnt (R.OBS_TD_RET k.code) + (s.core k).retired) 0

/-- The sampler's interval since the last tag is over (R453): N instructions, with jitter N − r for an r from 0 to N/8 − 1, which the row's coming chooses. -/
def State.tagDue (s : State) : Bool :=
  let n := 2 ^ s.fld R.OBS_SMP_CFG F.OBS_SMP_CFG_smp_log
  decide ((if s.flag R.OBS_SMP_CFG F.OBS_SMP_CFG_jitter then n - (n / 8 - 1) else n) ≤ s.retiredAll - s.obs.tagAt)

/-- SAMPLER_TAG (R453, Table OBS-4). -/
def execSamplerTag (addr tick : W64) (encoding : W32) (ticks : BitVec 16) (slot : Bool) (s : State) : Out :=
  match s.active with
  | none => .next s
  | some k =>
    if s.flag R.OBS_SMP_CFG F.OBS_SMP_CFG_enable = false ∨ s.tagDue = false then .next s
    else
      let s := { s with obs := { s.obs with tagAt := s.retiredAll } }
      let c := s.core k
      let r := leBytes 8 addr.toNat ++ leBytes 4 encoding.toNat ++ leBytes 2 ticks.toNat
        ++ [BitVec.ofNat 8 (k.code + 2 * b2n c.harbour + 4 * b2n slot), 0] ++ leBytes 8 tick.toNat ++ leBytes 2 c.epoch.toNat
        ++ [0, 0, 0, 0, 0, 0]
      let l := s.obs.samples
      if 4096 ≤ l.length ∧ s.flag R.OBS_SMP_CFG F.OBS_SMP_CFG_wrap = false then
        .next ((s.setFlag R.OBS_STATUS F.OBS_STATUS_smp_full true).addCnt R.OBS_SMP_LOST_CNT 1)
      else
        let l' := l.drop (l.length + 1 - 4096) ++ [r]
        let s := ({ s with obs := { s.obs with samples := l' } }).smpShow
        let f := s.fld R.OBS_SMP_CFG F.OBS_SMP_CFG_irq_fill
        .next (if f ≠ 0 ∧ l.length < f ∧ f ≤ l'.length then s.raiseObs else s)

end Sys2Proof.Machine
end

