-- ==== Sys2Proof/Machine/Claims.lean ====
section
/-! DEFINITION. Resource claims (R57 to R60, R246, R491): the result word, the order of the checks, releases and what they do. -/
namespace Sys2Proof.Machine

/-- The code of a holder (R58). -/
def Holder.code : Holder → Nat
  | .harbour => 0x01
  | .berth => 0x02
  | .enclave => 0x15

/-- A resource and function of Table HXS-10, valid on this part (R57). -/
def State.claimValid (s : State) (r f : Nat) : Bool :=
  if r < 16 then f == 0 || (f == 1 && r < 8) || ((f == 2 || f == 3) && r == 15)
  else if r < 0x18 then f == 0
  else if r < 0x20 then f < 4 || (f < 8 && s.hasCarrier .B)
  else if r < 0x25 then f == 0
  else r == 0x25 && f == 0 && s.hasCarrier .B

/-- Another port carries the channel that a claim on an OSP names (R246). -/
def State.channelTaken (s : State) (r f : Nat) : Bool :=
  0x18 ≤ r && r < 0x20 && s.claims.any (fun p => p.1 != r && decide (0x18 ≤ p.1 ∧ p.1 < 0x20) && p.2.func == f)

/-- The block whose registers a resource's lie in. -/
def claimBlock (r : Nat) : Nat :=
  if r < 16 ∨ (0x18 ≤ r ∧ r < 0x20) then 0x24 else if r < 0x24 then 0x1E else if r = 0x24 then 0x0D else if r = 0x25 then 0x0E else 0

/-- The permissions of the berth manifest in the active bank (R62). -/
def State.berthPerm (s : State) : Option BerthPerm := if s.berth.active then s.berth.loaded1 else s.berth.loaded0

/-- The bit of claim_mask for a resource (R43, R58). -/
def State.claimMask (s : State) (r : Nat) : Bool :=
  match s.berthPerm with
  | some p => p.claimMask.getLsbD r
  | none => false

/-- A ball's GPIO_CTL shows its claim; a release resets oe, out and od and keeps the pull (R491). -/
def State.gpioShow (r : Nat) (s : State) : State :=
  if 16 ≤ r then s
  else
    let a := R.GPIO_CTL r
    match s.claimOf r with
    | some c => (s.setFlag a F.GPIO_CTL_held true).setFld a F.GPIO_CTL_func c.func
    | none => s.setReg a (s.reg a &&& (F.GPIO_CTL_pull.mask ||| F.GPIO_CTL_in.mask))

/-- A claim is granted. -/
def State.grantClaim (r : Nat) (c : Claim) (s : State) : State := ({ s with claims := (r, c) :: s.claims }).gpioShow r

/-- A claim is released (R59): event bit 4 in both views of both cores. -/
def State.releaseClaim (r : Nat) (s : State) : State :=
  (({ s with claims := s.claims.filter (fun p => p.1 != r) }).gpioShow r).eventAll 4

/-- Every claim of a holder is released. -/
def State.releaseHolder (h : Holder) (s : State) : State :=
  ((s.claims.filter (fun p => p.2.holder == h)).map (·.1)).foldl (fun s r => s.releaseClaim r) s

/-- The result word of a CLAIM (R58). -/
def claimWord (r status : Nat) (c : Option Claim) : Nat :=
  match c with
  | some c => status + 0x100 * c.holder.code + 0x10000 * (c.func % 16) + 0x1000000 * r
  | none => status + 0x1000000 * r

/-- The outcomes of R58's judging order: a fault cause, or a result word and whether the claim is granted. -/
inductive ClaimRes where
  | fault (cause : Nat)
  | word (w : Nat) (grant : Option Claim)
deriving DecidableEq, Repr

/-- CLAIM judges a request (R58): ra, imm16, the caller's level. -/
def State.judgeClaim (s : State) (harbour : Bool) (ra : W64) (imm : BitVec 16) : ClaimRes :=
  let behalf := imm.getLsbD 15
  let r := ra.toNat % 256
  let f := imm.toNat % 16
  let holder : Holder := if harbour && !behalf then .harbour else .berth
  if !harbour && behalf then .fault causePrivilege
  else if 256 ≤ ra.toNat ∨ s.claimValid r f = false ∨ s.channelTaken r f then .word (claimWord r 2 none) none
  else if holder = .berth ∧ s.claimMask r = false then
    if harbour then .word (claimWord r 3 none) none else .fault causeAccess
  else match s.claimOf r with
    | none => .word (claimWord r 0 (some { holder, func := f })) (some { holder, func := f })
    | some c => .word (claimWord r (if c.holder = holder ∧ c.func = f then 0 else 1) (some c)) none

/-- RELEASE is judged (R45, R58, R59): the fault cause, none when the claim is released. -/
def State.judgeRelease (s : State) (harbour : Bool) (ra : W64) (imm : BitVec 16) : Option Nat :=
  let behalf := imm.getLsbD 15
  let holder : Holder := if harbour && !behalf then .harbour else .berth
  if !harbour && behalf then some causePrivilege
  else if 256 ≤ ra.toNat ∨ s.holds holder (ra.toNat % 256) = false then some causeClaim
  else none

end Sys2Proof.Machine
end

