-- ==== Sys2Proof/Machine/Sec.lean ====
section
/-! DEFINITION. The enclave as other blocks meet it: its public registers (R326, SEC_STATE), anchors and rollback counters (R326, R329), protection modes
(R301, R333, R334), bursts (Table SEC-3), erasure and errors (R344, R345). -/
namespace Sys2Proof.Machine

/-! ### Identity, anchors, state -/

/-- The fingerprint of a hybrid public key, given as 97 and 1,952 bytes (R324). -/
def fingerprint (keys : List Byte) : List Byte := sha384 keys

/-- The identity public keys. -/
def idKeys : List Byte := leBytes 2049 Config.idKeys.toNat

/-- id_fp (R324). -/
def idFp : List Byte := fingerprint idKeys

/-- A hybrid key in the layout that pads the ECDSA key to 104 bytes. -/
def padKeys (keys : List Byte) : List Byte := keys.take 97 ++ List.replicate 7 0 ++ keys.drop 97

/-- The keys of a field of 104 and 1,952 bytes. -/
def unpadKeys (l : List Byte) : List Byte := l.take 97 ++ (l.drop 104).take 1952

/-- The identity certificate (Table SEC-2). -/
def State.idc (s : State) : List Byte :=
  let sig := leBytes 3405 Config.idSig.toNat
  leBytes 4 0x49505443 ++ leBytes 2 2 ++ [BitVec.ofNat 8 s.part.code, 0] ++ leBytes 8 Config.serial.toNat ++ padKeys idKeys ++
    leBytes 16 Config.issuer.toNat ++ sig ++ List.replicate 3 0

/-- The state of an anchor slot (R326). -/
def AnchorSlot.state (a : AnchorSlot) : Nat :=
  if a.programmed then (if a.revoked then 2 else 1) else if a.revoked then 2 else if a.hash = 0 then 0 else 3

/-- The live slots that hold a fingerprint (R326). -/
def State.anchorLive (s : State) (fp : List Byte) : Bool :=
  (List.finRange 4).any (fun i => (s.sec.anchors[i]).state == 1 && (s.sec.anchors[i]).hash == hashBits fp)

/-- How many slots are live. -/
def State.liveSlots (s : State) : Nat := ((List.finRange 4).filter (fun i => (s.sec.anchors[i]).state == 1)).length

/-- The state code of the enclave (Table SEC-10). -/
def State.secStateCode (s : State) : Nat := s.fld R.SEC_STATE F.SEC_STATE_state

/-- Debug access is open (R323). -/
def State.debugOpen (s : State) : Bool := s.flag R.SEC_STATE F.SEC_STATE_debug_open

/-- SEC_STATE as it reads: the slots' states, the part and the ROM version come from fuses and ROM. -/
def State.secStateWord (s : State) : W32 :=
  let w := putBits F.SEC_STATE_cipher_absent (b2n (!s.hasCipher)) (s.reg R.SEC_STATE)
  let st := (List.finRange 4).foldl (fun v i => v + (s.sec.anchors[i]).state * 4 ^ i.val) 0
  putBits F.SEC_STATE_rom_ver Config.romVer.toNat (putBits F.SEC_STATE_anchor_state st w)

/-- The counter of a kind and signer (R329). -/
def rollbackNo (kind signer : Nat) : Fin 6 := if kind = 1 then 0 else Fin.ofNat 6 (1 + signer % 5)

/-- The recorded minimum (R329). -/
def State.rollbackMin (s : State) (kind signer : Nat) : Nat := (s.sec.rollback[rollbackNo kind signer]).getLastD 0

/-- Raise the recorded minimum (R61, R329): the next row is programmed; with 16 rows used up it is not recorded. -/
def State.rollbackRaise (kind signer v : Nat) (s : State) : State :=
  if v ≤ s.rollbackMin kind signer then s
  else
    let i := rollbackNo kind signer
    let rows := s.sec.rollback[i]
    if 16 ≤ rows.length then s.logEvent 0x15 sevWarn 0x0008 (evData [(1, kind), (1, signer)])
    else { s with sec := { s.sec with rollback := s.sec.rollback.set i (rows ++ [v]) } }

/-! ### Modes -/

/-- The strength of a mode (R334): clear, GMAC, GCM; and the mode of a strength. -/
def modeStrength (m : Nat) : Nat := if m = 1 then 2 else if m = 2 then 1 else 0
def strengthMode (x : Nat) : Nat := if x = 2 then 1 else if x = 1 then 2 else 0

/-- The requests of a policy byte (R333). -/
def sendReq (b : Byte) : Nat := b.toNat % 4
def recvReq (b : Byte) : Nat := b.toNat / 4 % 4

/-- A policy table is well formed (R333): reserved bits 0, no reserved mode. -/
def policyOk (l : List Byte) : Bool := l.length == 128 && l.all (fun b => b.toNat < 16 && sendReq b != 3 && recvReq b != 3)

/-- The agreed mode of a tributary (R334): sent by this end (own send request, peer's receive request) or received (the other two); the floors of an
endorsement are strengths. -/
def agreedMode (sess : SecSession) (tx : Bool) (t : Nat) : Nat :=
  let own := sess.policy.getD t 0
  let peer := sess.peerPolicy.getD t 0
  let req := if tx then max (modeStrength (sendReq own)) (modeStrength (recvReq peer))
    else max (modeStrength (recvReq own)) (modeStrength (sendReq peer))
  strengthMode (max req (max sess.floor sess.peerFloor))

/-- The strongest floor of the endorsements held. -/
def State.localFloor (s : State) : Nat := (s.sec.endorse.map (fun l => (l.getD 6 0).toNat)).foldl max 0

/-- The session that rules a direction of a carrier (R339): the new one once it has an epoch there. -/
def SecCarrier.ruling (x : SecCarrier) (tx : Bool) : Option SecSession :=
  match x.nxt with
  | some n => if (if tx then decide (0 < n.nTx) else n.nRx.isSome) then some n else x.cur
  | none => x.cur

/-- The receive tributary of a client. -/
def State.cliTrib (s : State) (n : Nat) : Nat := s.fld (R.CLM_CLIENT_CFG n) F.CLM_CLIENT_CFG_rx_trib

/-- The mode that a client is to have in a direction (R301, R334, R249): clear without the cipher, in families other than native, and while not enabled. -/
def State.wantMode (s : State) (n : Nat) (tx : Bool) : Nat :=
  let c := s.cliCar n
  if s.hasCipher = false ∨ s.cliOn n = false ∨ s.carFamily c ≠ 0 then 0
  else
    let t := if tx then n else s.cliTrib n
    match (s.secCar c).ruling tx with
    | some sess => agreedMode sess tx t
    | none =>
      let b := (s.secCar c).policy.getD t 0
      strengthMode (max (modeStrength (if tx then sendReq b else recvReq b)) s.localFloor)

/-- The modes of a client follow the policy (R301); a clear direction is not squelched. -/
def State.refreshMode (n : Nat) (s : State) : State :=
  let a := R.CPH_CLIENT_STATUS n
  let tx := s.wantMode n true
  let rx := s.wantMode n false
  let s := (s.setFld a F.CPH_CLIENT_STATUS_tx_mode tx).setFld a F.CPH_CLIENT_STATUS_rx_mode rx
  let s := if tx = 0 then s.setFlag a F.CPH_CLIENT_STATUS_tx_squelch false else s
  if rx = 0 then s.setFlag a F.CPH_CLIENT_STATUS_rx_squelch false else s

/-- The modes of every client follow. -/
def State.refreshModes (s : State) : State := (forN 128 State.refreshMode s).cliShowAll

/-! ### Bursts -/

/-- Fragments of 2,048 bytes, as many as n. -/
def chunks : Nat → List Byte → List (List Byte)
  | 0, _ => []
  | n + 1, l => l.take 2048 :: chunks n (l.drop 2048)

/-- The enclave sends a message as hail bursts (Table SEC-3, R208, R344); the message number of its fragments is the enclave's own: an open byte. -/
def State.secSend (c : Carrier) (typ : Nat) (payload : List Byte) (s : State) : State :=
  if s.secStateCode = 3 then s
  else
    let parts := chunks ((payload.length + 2047) / 2048) payload
    let (w, s) := s.draw
    let bs : List HailBurst := (parts.zip (List.range parts.length)).map (fun p =>
      { typ, fragIdx := p.2, fragLast := parts.length - 1, msgId := w.toNat % 256, payload := p.1, ticket := none })
    s.setHail c { s.hail c with encl := (s.hail c).encl ++ bs }

/-- A burst's message number (Table HAIL-2). -/
def hdrMsg (b : HailRxBurst) : Nat := b.header.toNat / 2 ^ 16 % 256

/-- The fragments of one message among the bursts handed over, in order; none while one is missing. -/
def gather (l : List HailRxBurst) (typ msg : Nat) : Nat → Option (List Byte)
  | 0 => some []
  | n + 1 => match gather l typ msg n, l.find? (fun b => hdrType b.header == typ && hdrMsg b == msg && hdrFragIdx b.header == n) with
    | some p, some b => some (p ++ b.payload)
    | _, _ => none

/-- Take the oldest whole message of a type that the hail modem handed over. -/
def State.secTake (c : Carrier) (typ : Nat) (s : State) : Option (List Byte × State) :=
  let l := (s.hail c).toSec
  match l.find? (fun b => hdrType b.header == typ && (gather l typ (hdrMsg b) (hdrFragLast b.header + 1)).isSome) with
  | none => none
  | some b =>
    let rest := l.filter (fun x => !(hdrType x.header == typ && hdrMsg x == hdrMsg b))
    (gather l typ (hdrMsg b) (hdrFragLast b.header + 1)).map (fun p => (p, s.setHail c { s.hail c with toSec := rest }))

/-! ### Sessions shown -/

/-- A carrier's session words when it has no session. -/
def State.sessClear (c : Carrier) (state : Nat) (s : State) : State :=
  let a := R.SEC_SESS c
  let s := s.setReg a (s.reg a &&& F.SEC_SESS_A_last_abort.mask)
  let s := s.setFld a F.SEC_SESS_A_sess_state state
  let s := (s.setReg (a + 4) 0).setReg (a + 8) 0
  forN 12 (fun w s => s.setReg (a + 16 + 4 * w) 0) s

/-- An answer of the enclave to the request in a channel, not yet written. -/
def State.secAnswer (ch : Fin 2) (result : Nat) (data : List Byte) (s : State) : State :=
  { s with sec := { s.sec with ch := s.sec.ch.set ch { s.sec.ch[ch] with answer := some (result, data) } } }

/-- An exchange ends: a START_AGREEMENT that waits for it is answered with the session state (Table SEC-8). -/
def State.kaAnswer (c : Carrier) (x : KaExchange) (s : State) : State :=
  match x.channel with
  | some ch => s.secAnswer (Fin.ofNat 2 ch) 0 [BitVec.ofNat 8 (s.fld (R.SEC_SESS c) F.SEC_SESS_A_sess_state)]
  | none => s

/-- Every session, exchange and epoch of a carrier is given up. -/
def State.sessDrop (c : Carrier) (s : State) : State :=
  let x := s.secCar c
  let s := s.setSecCar c { x with cur := none, nxt := none, ka := none, collide := false, retry := false, actTx := none, actRx := none }
  let s := s.sessClear c 0
  match x.ka with
  | some k => s.kaAnswer c k
  | none => s

/-! ### Erasure -/

/-- Unstarted entries of a queue complete with status 0x08 (R82). -/
def State.flushQueue (q : Fin 64) (s : State) : State :=
  let l := (s.queue q).entries.filter (fun e => !e.started)
  l.foldl (fun s e => s.complete e 0x08 0 0) s

/-- A zeroised carrier scheduler claim is released whatever its holder; the former holder is named by an event to which no table gives a code, severity
or layout (R59): an INFO event of the enclave with a free code, whose data are the holder's code (R58) and the resource (DESIGN CHOICE:
notes/assumptions/13.md). -/
def State.releaseHail (r : Nat) (s : State) : State :=
  match s.claimOf r with
  | none => s
  | some c =>
    let (w, s) := (s.releaseClaim r).draw
    s.logEvent 0x15 sevInfo (w.toNat % 65536) (evData [(1, c.holder.code), (1, r)])

/-- ZEROISE (R345, R82, R318): cause 0 the ball, 1 the service, 2 debug unlock.  In ERROR the state stays ERROR (R344). -/
def State.secZeroise (cause : Nat) (s : State) : State :=
  let s := if s.secStateCode = 3 then s else s.setFld R.SEC_STATE F.SEC_STATE_state 2
  let s := s.cphSecErase 0
  let s := (s.sessDrop .A).sessDrop .B
  let void := fun (x : SecChannel) => { x with challenge := none }
  let s := { s with sec := { s.sec with unwrapped := false, ch := s.sec.ch.map void } }
  let s := (s.releaseHail 0x24).releaseHail 0x25
  let s := ((s.flushQueue 6).flushQueue 14).flushQueue 20
  let s := s.setHail .A { s.hailA with encl := [], toSec := [] }
  let s := s.setHail .B { s.hailB with encl := [], toSec := [] }
  let s := ((s.addCnt R.SEC_ZEROIZE_CNT 1).noteTotal 44 1).refreshModes
  s.logEvent 0x15 sevAlarm 0x0006 (evData [(1, cause)])

/-- ERROR is entered (R344). -/
def State.secError (code : Nat) (s : State) : State :=
  if s.secStateCode = 3 then s
  else
    let s := (s.setFld R.SEC_STATE F.SEC_STATE_state 3).setFld R.SEC_STATE F.SEC_STATE_fail_code code
    let s := (s.cphSecErase 1).logEvent 0x15 sevAlarm 0x0005 (evData [(1, code)])
    let s := (s.sessDrop .A).sessDrop .B
    let s := { s with sec := { s.sec with unwrapped := false } }
    let s := s.setHail .A { s.hailA with encl := [], toSec := [] }
    (s.setHail .B { s.hailB with encl := [], toSec := [] }).refreshModes

end Sys2Proof.Machine
end

