-- ==== Sys2Proof/Machine/Ka.lean ====
section
/-! DEFINITION. Peer key agreement (R330 to R335, R339) and epochs (R336 to R338): the messages of Table SEC-3 are built and checked byte by byte, the
key schedule of Table SEC-4 is computed; signatures, ECDH and ML-KEM are the primitives of Config. -/
namespace Sys2Proof.Machine

/-- A span of a message. -/
def span (l : List Byte) (at_ n : Nat) : List Byte := (l.drop at_).take n

/-- The letter of an end in the labels of Table SEC-4. -/
def endLetter (responder : Bool) : String := if responder then "R" else "I"

/-- Whether the enclave may start a full exchange on a carrier (R323, R332, R363). -/
def State.kaMay (s : State) (c : Carrier) : Bool :=
  s.hasCipher && s.hasCarrier c && s.secStateCode == 1 && !s.debugOpen && s.sec.heartbeat && !s.sec.endorse.isEmpty && (s.secCar c).ka.isNone

/-- The endorsement that is sent next (R332). -/
def State.ownEnd (s : State) (c : Carrier) : List Byte := s.sec.endorse.getD ((s.secCar c).endIdx) (s.sec.endorse.headD [])

/-- A carrier's exchange is replaced. -/
def State.setKa (c : Carrier) (k : Option KaExchange) (s : State) : State := s.setSecCar c { s.secCar c with ka := k }

/-- A new full exchange starts with KA_HELLO (R330): nonces and ephemeral keys come from the DRBG. -/
def State.kaStart (c : Carrier) (channel : Option Nat) (s : State) : State :=
  let (sid, s) := s.drawBytes 16
  let (nonce, s) := s.drawBytes 32
  let (priv, s) := s.drawBytes 48
  let (seed, s) := s.drawBytes 64
  let x := s.secCar c
  let e := leBytes 97 (Config.ecdhPub priv).toNat ++ List.replicate 7 0
  let hello := sid ++ nonce ++ e ++ leBytes 1568 (Config.kemPub seed).toNat ++ x.policy
  let k : KaExchange := {
    sid, sent := 0x10, ecdhPriv := priv, kemSeed := seed, hello, resp := [], prk := [], th := [], peerFp := [], peerPolicy := [], peerFloor := 0,
    policy := x.policy, floor := ((s.ownEnd c).getD 6 0).toNat, inService := x.cur.isSome, channel }
  let s := s.setSecCar c { x with ka := some k, collide := false }
  let s := if x.cur.isNone then
      (s.setFld (R.SEC_SESS c) F.SEC_SESS_A_sess_state 1).setFld (R.SEC_SESS c) F.SEC_SESS_A_role 0
    else s
  s.secSend c 0x10 hello

/-- An exchange aborts (R331, R339), by a KA_ABORT sent or received: counted and logged; a session in force stays, and its initiator is to retry. -/
def State.kaFail (c : Carrier) (k : KaExchange) (reason : Nat) (sent : Bool) (s : State) : State :=
  let s := if sent then s.secSend c 0x14 (k.sid ++ [BitVec.ofNat 8 reason, 0, 0, 0]) else s
  let s := (s.addCnt R.SEC_KA_ABORT_CNT 1).logEvent 0x15 sevWarn 0x0002 (evData [(1, c.code), (1, reason), (1, b2n (!sent))])
  let s := s.setFld (R.SEC_SESS c) F.SEC_SESS_A_last_abort reason
  let x := s.secCar c
  let again := match x.cur with
    | some u => k.inService && !u.responder
    | none => false
  let s := s.setSecCar c { x with ka := none, retry := x.retry || again }
  let s := if x.cur.isNone then s.setFld (R.SEC_SESS c) F.SEC_SESS_A_sess_state 4 else s
  s.kaAnswer c k

/-- An abort for a message that belongs to no exchange of this end. -/
def State.kaReject (c : Carrier) (sid : List Byte) (reason : Nat) (s : State) : State :=
  let s := s.secSend c 0x14 (sid ++ [BitVec.ofNat 8 reason, 0, 0, 0])
  let s := (s.addCnt R.SEC_KA_ABORT_CNT 1).logEvent 0x15 sevWarn 0x0002 (evData [(1, c.code), (1, reason), (1, 0)])
  s.setFld (R.SEC_SESS c) F.SEC_SESS_A_last_abort reason

/-! ### The key schedule (Table SEC-4) -/

/-- TH_a. -/
def thA (k : KaExchange) : List Byte := sha384 (k.hello ++ k.resp)

/-- km_I or km_R. -/
def kmOf (k : KaExchange) (responder : Bool) : List Byte :=
  hkdfExpand k.prk (if responder then "ctp mac R" else "ctp mac I") (thA k) 48

/-- HKDF-Extract over the nonces and the two shared secrets. -/
def prkOf (hello resp kem z : List Byte) : List Byte := hmac384 (span hello 16 32 ++ span resp 16 32) (kem ++ z)

/-- An identity certificate verifies (R325, R331 check 2). -/
def idcOk (idc : List Byte) : Bool :=
  leNat (span idc 0 4) == 0x49505443 && leNat (span idc 4 2) == 2 &&
    Config.verify 1 (leBytes 48 Config.romRoot.toNat) (span idc 0 0x828) (span idc 0x828 3408)

/-- The keys of a certificate. -/
def idcKeys (idc : List Byte) : List Byte := unpadKeys (span idc 0x10 2056)

/-- An endorsement is valid for a device at this one (R332): subject, live slot of its owner keys, signatures, floor. -/
def State.endorseOk (s : State) (e subject : List Byte) : Bool :=
  leNat (span e 0 4) == 0x45505443 && leNat (span e 4 2) == 2 && leNat (span e 6 1) ≤ 2 && leNat (span e 7 1) == 0 && span e 8 48 == subject &&
    s.anchorLive (fingerprint (unpadKeys (span e 0x48 2056))) && Config.verify 3 (unpadKeys (span e 0x48 2056)) (span e 0 0x850) (span e 0x850 3408)

/-- Checks 2 to 5 of R331 on a peer's certificate, endorsement, signature and MAC over a transcript hash: the abort reason, none when all pass. -/
def State.peerFault (s : State) (idc e th sig mac km : List Byte) : Option Nat :=
  if idcOk idc = false then some 0x03
  else if s.endorseOk e (fingerprint (idcKeys idc)) = false then some 0x04
  else if Config.verify 2 (idcKeys idc) th sig = false then some 0x05
  else if hmac384 km (th ++ sig) ≠ mac then some 0x05
  else none

/-! ### Establishing -/

/-- A carrier shows its session in force. -/
def State.sessShow (c : Carrier) (u : SecSession) (s : State) : State :=
  let a := R.SEC_SESS c
  let s := s.setFlag a F.SEC_SESS_A_role u.responder
  forN 12 (fun w s => s.setReg (a + 16 + 4 * w) (BitVec.ofNat 32 (leNat (span u.peerFp (4 * w) 4)))) s

/-- The new session replaces the old one once its epoch 0 has been activated here and installed for the peer's direction (R339). -/
def State.sessPromote (c : Carrier) (s : State) : State :=
  let x := s.secCar c
  match x.nxt with
  | some u => if 0 < u.nTx ∧ u.nRx.isSome then (s.setSecCar c { x with cur := some u, nxt := none }).sessShow c u else s
  | none => s

/-- A session is established (R331) over the transcript TH. -/
def State.establish (c : Carrier) (k : KaExchange) (responder : Bool) (th : List Byte) (s : State) : State :=
  let me := endLetter responder
  let you := endLetter (!responder)
  let u : SecSession := {
    sid := k.sid, responder, since := s.time.devtime, peerFp := k.peerFp, peerPolicy := k.peerPolicy, peerFloor := k.peerFloor, policy := k.policy,
    floor := k.floor, esTx := hkdfExpand k.prk ("ctp epoch " ++ me) th 48, esRx := hkdfExpand k.prk ("ctp epoch " ++ you) th 48,
    kaTx := hkdfExpand k.prk ("ctp act " ++ me) th 48, kaRx := hkdfExpand k.prk ("ctp act " ++ you) th 48, nTx := 0, nRx := none }
  let x := s.secCar c
  let s := match x.cur with
    | none => ((s.setSecCar c { x with cur := some u, ka := none, retry := false }).setFld (R.SEC_SESS c) F.SEC_SESS_A_sess_state 2).sessShow c u
    | some _ => s.setSecCar c { x with nxt := some u, ka := none, retry := false }
  let s := (s.addCnt R.SEC_KA_DONE_CNT 1).logEvent 0x15 sevInfo 0x0001 (evData [(1, c.code), (1, b2n responder)] ++ k.peerFp.take 16)
  (s.kaAnswer c k).refreshModes

/-! ### Messages of an exchange -/

/-- This end answers KA_HELLO as responder (R330). -/
def State.kaRespond (c : Carrier) (hello : List Byte) (channel : Option Nat) (s : State) : State :=
  let x := s.secCar c
  let (nonce, s) := s.drawBytes 32
  let (priv, s) := s.drawBytes 48
  let (rand, s) := s.drawBytes 32
  let ek := span hello 152 1568
  let resp := hello.take 16 ++ nonce ++ leBytes 97 (Config.ecdhPub priv).toNat ++ List.replicate 7 0 ++ leBytes 1568 (Config.kemCt ek rand).toNat ++ x.policy
  let prk := prkOf hello resp (leBytes 32 (Config.kemShared ek rand).toNat) (leBytes 48 (Config.ecdh priv (span hello 48 97)).toNat)
  let e := s.ownEnd c
  let k : KaExchange := {
    sid := hello.take 16, sent := 0x11, ecdhPriv := priv, kemSeed := [], hello, resp, prk, th := [], peerFp := [], peerPolicy := span hello 1720 128,
    peerFloor := 0, policy := x.policy, floor := (e.getD 6 0).toNat, inService := x.cur.isSome, channel }
  let th := sha384 (thA k ++ s.idc ++ e)
  let sig := leBytes 3408 (Config.sign th).toNat
  let mac := hmac384 (kmOf k true) (th ++ sig)
  let s := s.setSecCar c { x with ka := some { k with th := th ++ sig ++ mac }, collide := false }
  let s := if x.cur.isNone then
      (s.setFld (R.SEC_SESS c) F.SEC_SESS_A_sess_state 1).setFld (R.SEC_SESS c) F.SEC_SESS_A_role 1
    else s
  s.secSend c 0x11 (resp ++ s.idc ++ e ++ sig ++ mac)

/-- KA_HELLO is judged and answered (R331, R335).  Without an endorsement there is nothing to answer with: the abort's reason is open. -/
def State.kaHello (c : Carrier) (m : List Byte) (pctOk : Bool) (channel : Option Nat) (s : State) : State :=
  if s.secStateCode ≠ 1 ∨ s.debugOpen then s.kaReject c (m.take 16) 0x06
  else if m.length ≠ 1848 ∨ policyOk (span m 1720 128) = false then s.kaReject c (m.take 16) 0x02
  else if s.sec.endorse.isEmpty then
    let (w, s) := s.draw
    s.kaReject c (m.take 16) (w.toNat % 256)
  else if pctOk = false then s.kaReject c (m.take 16) 0x06
  else s.kaRespond c m channel

/-- KA_HELLO (R331, R335): an own unanswered KA_HELLO is resolved by the nonces; one that comes later in an exchange is discarded. -/
def execKaHello (c : Carrier) (pctOk : Bool) (s : State) : Out :=
  match s.secTake c 0x10 with
  | none => .next s
  | some (m, s) =>
    if s.secStateCode = 3 then .next s
    else match (s.secCar c).ka with
      | none => .next (s.kaHello c m pctOk none)
      | some k =>
        if k.sent = 0 then .next ((s.setKa c none).kaHello c m pctOk k.channel)
        else if k.sent ≠ 0x10 then .next s
        else
          let own := beNat (span k.hello 16 32)
          let other := beNat (span m 16 32)
          if other < own then .next s
          else
            let s := s.kaFail c { k with channel := none } 0x07 true
            if own < other then .next (s.kaHello c m pctOk k.channel)
            else .next (s.setSecCar c { s.secCar c with ka := some { k with sent := 0 }, collide := true })

/-- KA_COLLISION_RETRY (R335): the delay is over; a new KA_HELLO is sent. -/
def execKaCollisionRetry (c : Carrier) (s : State) : Out :=
  let x := s.secCar c
  match x.ka with
  | some k =>
    if x.collide ∧ k.sent = 0 then
      let s := s.setSecCar c { x with ka := none, collide := false }
      if s.kaMay c then .next (s.kaStart c k.channel) else .next (s.kaAnswer c k)
    else .next s
  | none => .next s

/-- KA_RESP (R331): the initiator checks it and sends KA_FINISH, or KA_ABORT. -/
def execKaResp (c : Carrier) (s : State) : Out :=
  match s.secTake c 0x11, (s.secCar c).ka with
  | some (m, s), some k =>
    if k.sent ≠ 0x10 then .next s
    else if m.length ≠ 16336 ∨ m.take 16 ≠ k.sid ∨ policyOk (span m 1720 128) = false then .next (s.kaFail c k 0x02 true)
    else
      let resp := m.take 1848
      let kem := leBytes 32 (Config.kemDecap k.kemSeed (span m 152 1568)).toNat
      let z := leBytes 48 (Config.ecdh k.ecdhPriv (span m 48 97)).toNat
      let k := { k with resp, prk := prkOf k.hello resp kem z, peerPolicy := span m 1720 128 }
      let idc := span m 1848 5496
      let e := span m 7344 5536
      let sig := span m 12880 3408
      let mac := span m 16288 48
      let th := sha384 (thA k ++ idc ++ e)
      match s.peerFault idc e th sig mac (kmOf k true) with
      | some reason => .next (s.kaFail c k reason true)
      | none =>
        let own := s.ownEnd c
        let thc := sha384 (th ++ sig ++ mac ++ s.idc ++ own)
        let sigI := leBytes 3408 (Config.sign thc).toNat
        let macI := hmac384 (kmOf k false) (thc ++ sigI)
        let k := { k with sent := 0x12, th := sha384 (thc ++ sigI ++ macI), peerFp := fingerprint (idcKeys idc), peerFloor := leNat (span e 6 1),
                          floor := leNat (span own 6 1) }
        .next ((s.setKa c (some k)).secSend c 0x12 (k.sid ++ s.idc ++ own ++ sigI ++ macI))
  | some (_, s), none => .next s
  | none, _ => .next s

/-- KA_FINISH (R331): the responder checks it, establishes the session and sends KA_CONFIRM, or KA_ABORT. -/
def execKaFinish (c : Carrier) (s : State) : Out :=
  match s.secTake c 0x12, (s.secCar c).ka with
  | some (m, s), some k =>
    if k.sent ≠ 0x11 then .next s
    else if m.length ≠ 14504 ∨ m.take 16 ≠ k.sid then .next (s.kaFail c k 0x02 true)
    else
      let idc := span m 16 5496
      let e := span m 5512 5536
      let sig := span m 11048 3408
      let mac := span m 14456 48
      let thc := sha384 (k.th ++ idc ++ e)
      match s.peerFault idc e thc sig mac (kmOf k false) with
      | some reason => .next (s.kaFail c k reason true)
      | none =>
        let th := sha384 (thc ++ sig ++ mac)
        let k := { k with peerFp := fingerprint (idcKeys idc), peerFloor := leNat (span e 6 1) }
        let s := s.secSend c 0x13 (k.sid ++ hmac384 (kmOf k true) (th ++ ascii "confirm"))
        .next (s.establish c k true th)
  | some (_, s), none => .next s
  | none, _ => .next s

/-- KA_CONFIRM (R331): the initiator checks mac_C and establishes the session. -/
def execKaConfirm (c : Carrier) (s : State) : Out :=
  match s.secTake c 0x13, (s.secCar c).ka with
  | some (m, s), some k =>
    if k.sent ≠ 0x12 then .next s
    else if m.length ≠ 64 ∨ m.take 16 ≠ k.sid then .next (s.kaFail c k 0x02 true)
    else if span m 16 48 ≠ hmac384 (kmOf k true) (k.th ++ ascii "confirm") then .next (s.kaFail c k 0x05 true)
    else .next (s.establish c k false k.th)
  | some (_, s), none => .next s
  | none, _ => .next s

/-- KA_ABORT (R332, R339): the exchange it names ends; an endorsement that the peer rejected is followed by the next one held, which the initiator
tries at once. -/
def execKaAbort (c : Carrier) (s : State) : Out :=
  match s.secTake c 0x14, (s.secCar c).ka with
  | some (m, s), some k =>
    if m.length ≠ 20 ∨ m.take 16 ≠ k.sid then .next s
    else
      let reason := leNat (span m 16 1)
      let x := s.secCar c
      let more := reason == 0x04 && decide (x.endIdx + 1 < s.sec.endorse.length)
      let i := if reason = 0x04 then (if more then x.endIdx + 1 else 0) else x.endIdx
      let retry := more && k.sent == 0x12
      let s := s.kaFail c (if retry then { k with channel := none } else k) reason false
      let s := s.setSecCar c { s.secCar c with endIdx := i }
      if retry then
        if s.kaMay c then .next (s.kaStart c k.channel) else .next (s.kaAnswer c k)
      else .next s
  | some (_, s), none => .next s
  | none, _ => .next s

/-- The message type that an exchange waits for. -/
def kaAwaits (sent : Nat) : Nat := sent + 1

/-- KA_TIMEOUT (R331): no message came; one that is whole by now is on time (R74). -/
def execKaTimeout (c : Carrier) (s : State) : Out :=
  match (s.secCar c).ka with
  | none => .next s
  | some k =>
    if k.sent = 0 ∨ (s.secTake c (kaAwaits k.sent)).isSome then .next s else .next (s.kaFail c k 0x01 true)

/-- KA_RETRY_TIMER (R339): the initiator of the session in force tries again. -/
def execKaRetryTimer (c : Carrier) (s : State) : Out :=
  .next (if (s.secCar c).retry ∧ s.kaMay c then s.kaStart c none else s)

/-- FULL_PERIOD_EXPIRY (R339): the initiator of the session in force starts a full exchange. -/
def execFullPeriodExpiry (c : Carrier) (s : State) : Out :=
  match (s.secCar c).cur with
  | some u => .next (if u.responder = false ∧ s.kaMay c then s.kaStart c none else s)
  | none => .next s

/-! ### Epochs -/

/-- Frames in a time of DEVTIME at the transmit mode in force, rounded up (R336). -/
def State.framesUp (s : State) (c : Carrier) (dt : Nat) : Nat :=
  let den := 80 * 16 * 64 * (rateFrac (s.carRate c)).2 * 4194304
  (dt * s.carRs8 c * 31 * netInfo (s.carBase c) (s.carRate c) (s.frm c).txH64 + den - 1) / den

/-- K and salt of a tributary under an epoch secret (Table SEC-4). -/
def epochKey (es : List Byte) (t : Nat) : BitVec 256 := BitVec.ofNat 256 (beNat (hkdfExpand es "ctp key" [BitVec.ofNat 8 t] 32))
def epochSalt (es : List Byte) (t : Nat) : W32 := BitVec.ofNat 32 (beNat (hkdfExpand es "ctp salt" [BitVec.ofNat 8 t] 4))

/-- The next epoch secret. -/
def ratchet (es : List Byte) : List Byte := hkdfExpand es "ctp ratchet" [] 48

/-- mac_A (Table SEC-4). -/
def macA (ka m : List Byte) : List Byte := (hmac384 ka m).take 16

/-- A slot is installed in the lowest empty slot of a client and direction (R306, R336): ready. -/
def State.installSlot (n dir mode no fe t : Nat) (es : List Byte) (s : State) : State :=
  match (List.range 4).find? (fun e => (s.cph.slots.lookup (ctxNo n dir e)).isNone) with
  | none => s
  | some e =>
    let key := epochKey es t
    let x : CphSlot := { act := false, mode, n := no, fe, key, salt := epochSalt es t, hkey := keyInit key, first := 0, records := 0 }
    ({ s with cph := { s.cph with slots := s.cph.slots ++ [(ctxNo n dir e, x)] } }).cphShow n

/-- The enabled clients of a carrier. -/
def State.carClients (s : State) (c : Carrier) : List Nat := (List.range 128).filter (fun n => s.cliOn n && decide (s.cliCar n = c))

/-- A carrier's transmit slots that are ready (R336). -/
def State.txReady (s : State) (c : Carrier) : Bool :=
  s.cph.slots.any (fun p => p.1 / 4 % 2 == 0 && !p.2.act && decide (s.cliCar (p.1 / 8) = c))

/-- Both directions of a carrier are in SERVICE. -/
def State.inService (s : State) (c : Carrier) : Bool :=
  s.fld (R.TXP_STATE c) F.TXP_STATE_state == 3 && s.fld (R.RXF_STATE c) F.RXF_STATE_state == 3

/-- The session whose next transmit epoch is to be activated: a new one first (R339). -/
def SecCarrier.txNext (x : SecCarrier) : Option SecSession :=
  match x.nxt with
  | some u => some u
  | none => x.cur

/-- Activate the next epoch of the transmit direction (R336, R338); none where R307, R336, R338 or R363 forbids it. -/
def State.activate (c : Carrier) (s : State) : Option State :=
  let x := s.secCar c
  match x.txNext with
  | none => none
  | some u =>
    let now := (s.cphCar c).ftx
    let fe := now + s.framesUp c ((s.reg R.SEC_TIMER_ACT_LEAD).toNat * 10000000)
    if s.hasCipher = false ∨ s.secStateCode ≠ 1 ∨ s.sec.heartbeat = false ∨ s.inService c = false ∨ s.carFamily c ≠ 0 ∨ s.txReady c ∨ fe < now + 2 then none
    else
      let s := (s.carClients c).foldl (fun s t =>
        let m := agreedMode u true t
        if m = 0 then s else s.installSlot t 0 m u.nTx fe t u.esTx) s
      let u' := { u with nTx := u.nTx + 1, esTx := ratchet u.esTx }
      let x := s.secCar c
      let s := s.setSecCar c (if x.nxt.isSome then { x with nxt := some u' } else { x with cur := some u' })
      let m := u.sid ++ beBytes 4 u.nTx ++ beBytes 8 fe ++ beBytes 8 now
      let s := (s.secSend c 0x15 (m ++ macA u.kaTx m)).setFlag (R.SEC_SESS c) F.SEC_SESS_A_act_pending_tx true
      some (s.sessPromote c).refreshModes

/-- An activation is called for (R338, R339): epoch 0 of a session, or a ciphered client of the carrier that has no slot. -/
def State.activateDue (s : State) (c : Carrier) : Bool :=
  match (s.secCar c).txNext with
  | none => false
  | some u => u.nTx == 0 || (s.carClients c).any (fun n => s.protMode n 0 != 0 && !s.cph.slots.any (fun p => p.1 / 4 == 2 * n))

/-- EPOCH_ACTIVATION (R336, R338). -/
def execEpochActivation (c : Carrier) (s : State) : Out := .next (if s.activateDue c then (s.activate c).getD s else s)

/-- REKEY_AGE_EXPIRY (R338). -/
def execRekeyAgeExpiry (c : Carrier) (s : State) : Out :=
  .next (if (s.secCar c).actTx.isSome then (s.activate c).getD s else s)

/-- The session of a carrier with a sid. -/
def SecCarrier.bySid (x : SecCarrier) (sid : List Byte) : Option SecSession :=
  match x.nxt, x.cur with
  | some u, v => if u.sid = sid then some u else v.filter (fun w => w.sid == sid)
  | none, v => v.filter (fun w => w.sid == sid)

/-- Replace the session with its sid. -/
def SecCarrier.put (x : SecCarrier) (u : SecSession) : SecCarrier :=
  if x.nxt.any (fun w => w.sid == u.sid) then { x with nxt := some u } else { x with cur := some u }

/-- KEY_ACK is sent (Table SEC-3); without a session of that sid its MAC has no key: open bytes. -/
def State.sendAck (c : Carrier) (u : Option SecSession) (m : List Byte) (status : Nat) (s : State) : State :=
  let body := span m 0 20 ++ [BitVec.ofNat 8 status, 0, 0, 0]
  match u with
  | some u => s.secSend c 0x16 (body ++ macA u.kaTx body)
  | none =>
    let (l, s) := s.drawBytes 16
    s.secSend c 0x16 (body ++ l)

/-- F_rx is supplied with the first receive key after RXF_x entered SERVICE (R303, R337). -/
def State.supplyFrx (c : Carrier) (fnow : Nat) (s : State) : State :=
  let x := s.cphCar c
  if x.frxSet then s
  else
    let low := s.fld (R.FRM_MF_COUNT c) F.FRM_MF_COUNT_rx_mf * 256 + (s.frm c).rxMfas.getD 0
    s.setCphCar c { x with frx := nearest24 fnow low, frxSet := true, imF := nearest24 fnow low, imAt := s.time.devtime, wasIm := true }

/-- n is 1 to 4 above the last accepted n, or 0 for a new session (R337). -/
def nOk (last : Option Nat) (n : Nat) : Bool :=
  match last with
  | none => n == 0
  | some k => k < n && n ≤ k + 4

/-- Ratchet a secret forward by n steps. -/
def ratchets : Nat → List Byte → List Byte
  | 0, es => es
  | n + 1, es => ratchets n (ratchet es)

/-- KEY_ACTIVATE (R337). -/
def execKeyActivate (c : Carrier) (s : State) : Out :=
  match s.secTake c 0x15 with
  | none => .next s
  | some (m, s) =>
    if s.secStateCode = 3 then .next s
    else
      let u := (s.secCar c).bySid (m.take 16)
      let n := beNat (span m 16 4)
      let fe := beNat (span m 20 8)
      let good := match u with
        | some u => m.length == 52 && macA u.kaRx (m.take 36) == span m 36 16 && nOk u.nRx n && s.secStateCode == 1
        | none => false
      match good, u with
      | true, some u =>
        let steps := match u.nRx with
          | some k => n - k - 1
          | none => 0
        let es := ratchets steps u.esRx
        let s := s.supplyFrx c (beNat (span m 28 8))
        let s := (s.carClients c).foldl (fun s p =>
          let t := s.cliTrib p
          let mode := agreedMode u false t
          if mode = 0 then s else s.installSlot p 1 mode n fe t es) s
        let s := s.setSecCar c ((s.secCar c).put { u with nRx := some n, esRx := ratchet es })
        let s := (s.setFlag (R.SEC_SESS c) F.SEC_SESS_A_act_pending_rx true).sessPromote c
        let late := decide (fe ≤ (s.cphCar c).frx)
        let s := if late then
            (s.addCnt R.SEC_LATE_ACT_CNT 1).logEvent 0x15 sevWarn 0x0004 (evData [(1, c.code), (1, 1), (4, n)])
          else s
        .next ((s.refreshModes).sendAck c (some u) m (b2n late))
      | _, _ => .next ((s.addCnt R.SEC_ACT_DISCARD_CNT 1).sendAck c u m 2)

/-- KEY_ACK (R337): the activation it names is no longer outstanding. -/
def execKeyAck (c : Carrier) (s : State) : Out :=
  match s.secTake c 0x16 with
  | none => .next s
  | some (m, s) =>
    match (s.secCar c).bySid (m.take 16) with
    | some u =>
      if m.length = 40 ∧ macA u.kaRx (m.take 24) = span m 24 16 ∧ beNat (span m 16 4) + 1 = u.nTx then
        .next (s.setFlag (R.SEC_SESS c) F.SEC_SESS_A_act_pending_tx false)
      else .next s
    | none => .next s

/-- KEY_ACK_TIMEOUT (R337): logged, nothing else changes. -/
def execKeyAckTimeout (c : Carrier) (s : State) : Out :=
  match (s.secCar c).txNext, (s.secCar c).cur with
  | some u, _ =>
    if s.flag (R.SEC_SESS c) F.SEC_SESS_A_act_pending_tx then
      .next (s.logEvent 0x15 sevWarn 0x0004 (evData [(1, c.code), (1, 0), (4, u.nTx - 1)]))
    else .next s
  | none, _ => .next s

end Sys2Proof.Machine
end

