-- ==== Sys2Proof/Machine/Manifest.lean ====
section
/-! DEFINITION. The flash directory (R478, Table HIF-5), manifests and their checks (R61, Tables HXS-11 to HXS-14), signature blocks (Table HXS-13),
and the loading of a manifest into local memory (R61, R62). -/
namespace Sys2Proof.Machine

/-! ### The directory -/

/-- The directory copy at a flash offset passes its magic, format and CRC (R478). -/
def State.dirOk (s : State) (o : Nat) : Bool :=
  s.flashNat o 4 == 0x44505443 && s.flashNat (o + 4) 2 == 1 && s.flashNat (o + 0x3C) 4 == (crc32 (s.flashBytes o 0x3C)).toNat

/-- The generation of a copy. -/
def State.dirGen (s : State) (o : Nat) : Nat := s.flashNat (o + 0x20) 4

/-- The copy in use (R478): the valid one of higher generation. -/
def State.dirCopy (s : State) : Option Nat :=
  match s.dirOk 0, s.dirOk 0x1000 with
  | true, true => some (if s.dirGen 0 < s.dirGen 0x1000 then 0x1000 else 0)
  | true, false => some 0
  | false, true => some 0x1000
  | false, false => none

/-- The harbour slot that a directory copy names as boot_slot; a slot is 4 MiB (Table HIF-4). -/
def State.bootOffset (s : State) (dir : Nat) : Nat := s.flashNat (dir + 8 + 4 * (s.flashNat (dir + 6) 1 % 2)) 4
def harbourSlotSize : Nat := 0x400000

/-- The logbook region and the berth area of a directory copy: base and length. -/
def State.dirLog (s : State) (dir : Nat) : Nat × Nat := (s.flashNat (dir + 0x10) 4, s.flashNat (dir + 0x14) 4)
def State.dirBerth (s : State) (dir : Nat) : Nat × Nat := (s.flashNat (dir + 0x18) 4, s.flashNat (dir + 0x1C) 4)

/-! ### Signature blocks -/

/-- A signature block (Table HXS-13) is well formed. -/
def blockOk (b : List Byte) : Bool :=
  b.length == 5472 && leNat (span b 0 4) == 0x47535848 && leNat (span b 4 2) == 3 && leNat (span b 6 2) == 0
    && (span b 105 7).all (· == 0) && (span b 5469 3).all (· == 0)

/-- The keys and the signatures of a block. -/
def blockKeys (b : List Byte) : List Byte := unpadKeys (span b 8 2056)
def blockSig (b : List Byte) : List Byte := span b 0x810 3408

/-! ### Manifests -/

/-- A section (Table HXS-12). -/
structure MfSection where
  target : Nat
  zero : Bool
  load : Nat
  length : Nat
  file : Nat
deriving DecidableEq, Repr

/-- The section that an entry of the table spells. -/
def sectionOf (b : List Byte) : MfSection := {
  target := leNat (span b 0 1), zero := leNat (span b 1 1) == 1, load := leNat (span b 4 4), length := leNat (span b 8 4), file := leNat (span b 12 4) }

/-- The sections of a table. -/
def sectionsOf (n : Nat) (t : List Byte) : List MfSection := (List.range n).map (fun i => sectionOf (span t (32 * i) 32))

/-- The reserved bytes and bits of a section table are 0. -/
def tableClean (n : Nat) (t : List Byte) : Bool :=
  (List.range n).all (fun i => decide (leNat (span t (32 * i + 1) 1) < 2) && leNat (span t (32 * i + 2) 2) == 0 && leNat (span t (32 * i + 16) 16) == 0)

/-- One section lies inside the target area, its data inside the section data of a manifest of a total length (Table HXS-14 check 5). -/
def sectionIn (area total n : Nat) (x : MfSection) : Bool :=
  x.target < 2 && x.load % 8 == 0 && x.length % 8 == 0 && x.load + x.length ≤ area
    && (if x.zero then x.file == 0 else decide (256 + 32 * n ≤ x.file ∧ x.file + x.length ≤ total - 5472))

/-- Two sections do not overlap. -/
def sectionsApart (x y : MfSection) : Bool := x.target != y.target || decide (x.load + x.length ≤ y.load ∨ y.load + y.length ≤ x.load)

/-- No two sections of a list overlap. -/
def allApart : List MfSection → Bool
  | [] => true
  | x :: l => l.all (sectionsApart x) && allApart l

/-- A header field of the manifest at a flash offset. -/
def State.mf (s : State) (o at_ n : Nat) : Nat := s.flashNat (o + at_) n

/-- The sections of the manifest at a flash offset. -/
def State.mfSections (s : State) (o : Nat) : List MfSection := sectionsOf (s.mf o 0x0A 2) (s.flashBytes (o + 256) (32 * s.mf o 0x0A 2))

/-- The size of the target area of a kind. -/
def areaSize (kind : Nat) : Nat := if kind = 1 then 0x100000 else 0x80000

/-- Check 1 of Table HXS-14. -/
def State.mfFormed (s : State) (o : Nat) : Bool :=
  let n := s.mf o 0x0A 2
  s.mf o 0 4 == 0x464D5848 && s.mf o 4 2 == 1 && s.mf o 6 2 == 256 && s.mf o 0x19 7 == 0 && s.mf o 0xA0 96 == 0
    && decide (1 ≤ n ∧ n ≤ 16) && (s.mf o 8 1 == 1 || s.mf o 8 1 == 2) && decide (s.mf o 9 1 ≤ 4) && tableClean n (s.flashBytes (o + 256) (32 * n))

/-- The anchor of a signer matches (check 7): Enyako's is in ROM, an owner's in the live slot that it names. -/
def State.mfAnchor (s : State) (signer : Nat) (fp : List Byte) : Bool :=
  if signer = 0 then fp == leBytes 48 Config.romAnchor.toNat
  else
    let a := s.sec.anchors[Fin.ofNat 4 (signer - 1)]
    a.state == 1 && a.hash == hashBits fp

/-- The result code of Table HXS-14 for the manifest at a flash offset, whose area is lo to lo + len - 1; 0 when every check passes.  A total length too
short for header, section table and signature block fails check 2, a malformed signature block check 8 (DESIGN CHOICE: notes/assumptions/39.md). -/
def State.mfCheck (s : State) (o lo len : Nat) (startup : Bool) : Nat :=
  let n := s.mf o 0x0A 2
  let kind := s.mf o 8 1
  let signer := s.mf o 9 1
  let total := s.mf o 0x10 4
  let secs := s.mfSections o
  let block := s.flashBytes (o + total - 5472) 5472
  if s.mfFormed o = false then 0x01
  else if ¬(lo ≤ o ∧ o < lo + len) ∨ 0x202000 < total ∨ lo + len < o + total ∨ total < 256 + 32 * n + 5472 then 0x09
  else if s.mf o 0x18 1 / 2 ^ (s.part.code - 1) % 2 = 0 then 0x02
  else if (kind = 1 ∧ signer ≠ 0) ∨ kind ≠ (if startup then 1 else 2) then 0x08
  else if secs.all (sectionIn (areaSize kind) total n) = false ∨ allApart secs = false
      ∨ secs.any (fun x => x.target == 0 && decide (x.load ≤ s.mf o 0x14 4 ∧ s.mf o 0x14 4 < x.load + x.length)) = false then 0x03
  else if sha384 (s.flashBytes (o + 256) (total - 5472 - 256)) ≠ s.flashBytes (o + 0x70) 48 then 0x04
  else if s.mfAnchor signer (fingerprint (blockKeys block)) = false then 0x05
  else if blockOk block = false ∨ Config.verify 0 (blockKeys block) (s.flashBytes o (total - 5472)) (blockSig block) = false then 0x06
  else if s.mf o 0x0C 4 < s.rollbackMin kind signer then 0x07
  else 0

/-! ### Loading -/

/-- Fill a span with zeros: the words are written, so that upsets of them are gone. -/
def State.wipe (lo hi : Nat) (s : State) : State :=
  let s := s.zeroMem lo hi
  { s with ecc := { s.ecc with marks := s.ecc.marks.filter (fun (m : EccMark) =>
    !(m.region == 0 && m.kind != EccKind.hard && decide (lo ≤ 8 * m.word ∧ 8 * m.word < hi))) } }

/-- Fill the IMEM and the DMEM area of size n at a core-relative base of one core with zeros. -/
def State.wipeArea (k : CoreId) (base n : Nat) (s : State) : State :=
  (s.wipe (coreAddr k base) (coreAddr k base + n)).wipe (coreAddr k (0x200000 + base)) (coreAddr k (0x200000 + base) + n)

/-- Write the sections of the manifest at a flash offset into the areas at a base of one core. -/
def State.placeSections (k : CoreId) (o base : Nat) (s : State) : State :=
  (s.mfSections o).foldl (fun s x =>
    if x.zero then s else s.setBytes (coreAddr k (0x200000 * x.target + base + x.load)) (s.flashBytes (o + x.file) x.length)) s

/-- Load harbour firmware into a core (R61, R62): the rest of the harbour areas is zero. -/
def State.loadHarbour (k : CoreId) (o : Nat) (s : State) : State := (s.wipeArea k 0 0x100000).placeSections k o 0

/-- Load a berth program into a bank of a core (R61): the rest of the bank is zero. -/
def State.loadBank (k : CoreId) (bank : Bool) (o : Nat) (s : State) : State :=
  let base := 0x100000 + 0x80000 * b2n bank
  (s.wipeArea k base 0x80000).placeSections k o base

/-- The permissions in a manifest's header (Table HXS-11). -/
def State.mfPerm (s : State) (o : Nat) : BerthPerm := {
  queueMask := BitVec.ofNat 64 (s.mf o 0x20 8), claimMask := BitVec.ofNat 64 (s.mf o 0x28 8)
  stxWindow := ((List.range 8).map (fun i => (s.mf o (0x30 + 8 * i) 4, s.mf o (0x34 + 8 * i) 4))).filter (fun p => p.2 != 0) }

/-- LOAD_BERTH_MANIFEST's checks and load (R61, R62): the code, and the state with the manifest in the inactive bank of both cores. -/
def State.loadBerth (o : Nat) (s : State) : Nat × State :=
  let (lo, len) := match s.dirCopy with
    | some d => s.dirBerth d
    | none => (0, 0)
  let code := s.mfCheck o lo len false
  if code ≠ 0 then (code, s)
  else
    let bank := !s.berth.active
    let s := (s.loadBank .A bank o).loadBank .B bank o
    let p := some (s.mfPerm o)
    let s := { s with berth := if bank then { s.berth with loaded1 := p } else { s.berth with loaded0 := p }
                      boot := if bank then { s.boot with bank1 := some o } else { s.boot with bank0 := some o } }
    (0, s.rollbackRaise 2 (s.mf o 9 1) (s.mf o 0x0C 4))

end Sys2Proof.Machine
end

