-- ==== Sys2Proof/Machine/SecSvc.lean ====
section
/-! DEFINITION. The enclave's services (Table SEC-8, R340 to R343, R503), its boot (R328), zeroisation and errors (R344, R345), the response of a mailbox
channel (R341). -/
namespace Sys2Proof.Machine

/-! ### Requests -/

/-- The request and response areas of a channel. -/
def secReq (ch : Fin 2) : Nat := 0x1F004000 + 0x4000 * ch.val
def secResp (ch : Fin 2) : Nat := 0x1F006000 + 0x4000 * ch.val

/-- The service code and the arguments in a channel's request area. -/
def State.svcCode (s : State) (ch : Fin 2) : Nat := s.load (secReq ch) 2
def State.svcArgs (s : State) (ch : Fin 2) : List Byte := s.bytes (secReq ch + 16) (min 8176 (s.load (secReq ch + 4) 4))

/-- The header of a request has zeros where R341 requires them, and its arguments lie in the area. -/
def State.svcHeader (s : State) (ch : Fin 2) : Bool :=
  s.load (secReq ch + 2) 2 == 0 && s.load (secReq ch + 8) 8 == 0 && decide (s.load (secReq ch + 4) 4 ≤ 8176)

/-- A service of Table SEC-8 on a channel. -/
def svcListed (ch : Fin 2) (code : Nat) : Bool :=
  (1 ≤ code && code ≤ 5) || code == 0x10 || (0x11 ≤ code && code ≤ 0x15 && ch == 1) || (0x20 ≤ code && code ≤ 0x23)

/-- A request is submitted and not yet answered: one that waits for a key exchange is being executed. -/
def State.svcDue (s : State) (ch : Fin 2) : Bool :=
  s.flag (R.SEC_CH_STATUS ch.val) F.SEC_CH_STATUS_busy && (s.sec.ch[ch]).answer.isNone
    && !((s.sec.carA.ka.any (fun k => k.channel == some ch.val)) || (s.sec.carB.ka.any (fun k => k.channel == some ch.val)))

/-- The states in which a service is accepted (Table SEC-10). -/
def svcAccepted (state code : Nat) : Bool :=
  match state with
  | 1 => true
  | 2 => code == 1 || code == 2 || code == 4
  | 3 => code == 1 || code == 4
  | _ => code == 1

/-- A service is executed (R342): form, part, state, then its own rules.  The body answers. -/
def State.service (ch : Fin 2) (code : Nat) (form part : List Byte → Bool) (body : List Byte → State → State) (s : State) : State :=
  if s.svcDue ch = false ∨ s.svcCode ch ≠ code then s
  else
    let args := s.svcArgs ch
    if s.svcHeader ch = false ∨ form args = false then s.secAnswer ch 0x01 []
    else if part args = false then s.secAnswer ch 0x03 []
    else if svcAccepted s.secStateCode code = false then s.secAnswer ch 0x02 []
    else body args s

/-- A carrier argument. -/
def carArg (l : List Byte) : Carrier := if (l.getD 0 0).toNat = 1 then .B else .A
def carArgOk (l : List Byte) : Bool := (l.getD 0 0).toNat < 2

/-- The services of traffic keys are on this part, and the carrier they name (R3, R4). -/
def State.svcPart (s : State) (l : List Byte) : Bool := s.hasCipher && s.hasCarrier (carArg l)

/-! ### Unauthenticated services -/

/-- GET_STATUS. -/
def execGetStatus (ch : Fin 2) (s : State) : Out :=
  .next (s.service ch 0x01 (fun l => l.isEmpty) (fun _ => true) (fun _ s =>
    s.secAnswer ch 0 (leBytes 4 s.secStateWord.toNat ++ leBytes 4 (s.reg (R.SEC_SESS .A)).toNat ++ leBytes 4 (s.reg (R.SEC_SESS .B)).toNat)))

/-- GET_IDENTITY (R325). -/
def execGetIdentity (ch : Fin 2) (s : State) : Out :=
  .next (s.service ch 0x02 (fun l => l.isEmpty) (fun _ => true) (fun _ s => s.secAnswer ch 0 s.idc))

/-- Set a channel's challenge. -/
def State.setChallenge (ch : Fin 2) (x : Option (List Byte × W64)) (s : State) : State :=
  { s with sec := { s.sec with ch := s.sec.ch.set ch { s.sec.ch[ch] with challenge := x } } }

/-- GET_CHALLENGE (R343). -/
def execGetChallenge (ch : Fin 2) (s : State) : Out :=
  .next (s.service ch 0x03 (fun l => l.isEmpty) (fun _ => true) (fun _ s =>
    let (l, s) := s.drawBytes 32
    (s.setChallenge ch (some (l, s.time.devtime))).secAnswer ch 0 l))

/-- CHALLENGE_EXPIRY (R343). -/
def execChallengeExpiry (ch : Fin 2) (s : State) : Out := .next (s.setChallenge ch none)

/-- ZEROIZE (R345). -/
def execZeroize (ch : Fin 2) (s : State) : Out :=
  .next (s.service ch 0x04 (fun l => l.isEmpty) (fun _ => true) (fun _ s => (s.secZeroise 1).secAnswer ch 0 []))

/-- A cipher unit fails its known-answer test and is quarantined (Table SEC-9, R314); the unit brought in and the side of the event: open, none is. -/
def State.unitKatFail (u : Nat) (s : State) : State :=
  let (w, s) := s.draw
  (((s.setUnit u 2).unitCount).logEvent 0x14 sevFault 0x0001 (evData [(1, u), (1, w.toNat), (1, w.toNat / 256)])).spareUsed 0x14

/-- SELF_TEST (R503): code is that of the first failing test, 0 with none.  Only idle units are tested. -/
def execSelfTest (ch : Fin 2) (code : Byte) (s : State) : Out :=
  let n := code.toNat
  .next (s.service ch 0x05 (fun l => l.isEmpty) (fun _ => true) (fun _ s =>
    if n = 0 then s.secAnswer ch 0 [0]
    else if 0x20 ≤ n then
      if s.hasCipher ∧ s.unitRole (n - 0x20) = 1 then (s.unitKatFail (n - 0x20)).secAnswer ch 0 [code] else s.secAnswer ch 0 [0]
    else (s.secError n).secAnswer ch 0 [code]))

/-- LOAD_ENDORSEMENT (R332). -/
def execLoadEndorsement (ch : Fin 2) (s : State) : Out :=
  .next (s.service ch 0x10 (fun l => l.length == 5536) (fun _ => true) (fun l s =>
    let n := s.sec.endorse.length
    if 4 ≤ n then s.secAnswer ch 0x02 []
    else if s.endorseOk l idFp = false then s.secAnswer ch 0x04 []
    else (({ s with sec := { s.sec with endorse := s.sec.endorse ++ [l] } }).refreshModes).secAnswer ch 0 [BitVec.ofNat 8 n]))

/-! ### User services -/

/-- SET_POLICY (R333, R323). -/
def execSetPolicy (ch : Fin 2) (s : State) : Out :=
  .next (s.service ch 0x11 (fun l => l.length == 129 && carArgOk l && policyOk (l.drop 1)) s.svcPart (fun l s =>
    let c := carArg l
    if s.debugOpen then s.secAnswer ch 0x02 []
    else ((s.setSecCar c { s.secCar c with policy := l.drop 1 }).refreshModes).secAnswer ch 0 []))

/-- START_AGREEMENT (R331, R332): the answer comes with the end of the exchange. -/
def execStartAgreement (ch : Fin 2) (s : State) : Out :=
  .next (s.service ch 0x12 (fun l => l.length == 1 && carArgOk l) s.svcPart (fun l s =>
    let c := carArg l
    if s.kaMay c then s.kaStart c (some ch.val) else s.secAnswer ch 0x02 []))

/-- REKEY_NOW (R338, R339): 0 ratchet, 1 full. -/
def execRekeyNow (ch : Fin 2) (s : State) : Out :=
  .next (s.service ch 0x13 (fun l => l.length == 2 && carArgOk l && decide ((l.getD 1 0).toNat < 2)) s.svcPart (fun l s =>
    let c := carArg l
    if (l.getD 1 0).toNat = 1 then
      if s.kaMay c then (s.kaStart c none).secAnswer ch 0 [] else s.secAnswer ch 0x02 []
    else match s.activate c with
      | some s => s.secAnswer ch 0 []
      | none => s.secAnswer ch 0x02 []))

/-- END_SESSION (Table SEC-8, R323). -/
def execEndSession (ch : Fin 2) (s : State) : Out :=
  .next (s.service ch 0x14 (fun l => l.length == 1 && carArgOk l) s.svcPart (fun l s =>
    let c := carArg l
    if s.debugOpen then s.secAnswer ch 0x02 []
    else ((((s.sessDrop c).cphErase c 0).cphErase c 1).refreshModes).secAnswer ch 0 []))

/-- LOAD_BERTH_MANIFEST (R61, R62, R342). -/
def execLoadBerthManifest (ch : Fin 2) (s : State) : Out :=
  .next (s.service ch 0x15 (fun l => l.length == 4) (fun _ => true) (fun l s =>
    let (code, s) := s.loadBerth (leNat l)
    s.secAnswer ch 0 [BitVec.ofNat 8 code]))

/-! ### Crypto Officer services -/

/-- The signature block that ends a request, and what it covers (R343). -/
def tokenOf (l : List Byte) : List Byte := l.drop (l.length - 5472)
def tokenMsg (l : List Byte) : List Byte := l.take (l.length - 5472)

/-- The fingerprint of a token's keys. -/
def tokenFp (l : List Byte) : List Byte := fingerprint (blockKeys (tokenOf l))

/-- A token's signatures and challenge hold (R343); whose keys they are is judged apart. -/
def State.tokenSigned (s : State) (ch : Fin 2) (l : List Byte) : Bool :=
  (match (s.sec.ch[ch]).challenge with
    | some (x, t) => l.take 32 == x && decide ((s.time.devtime - t).toNat ≤ 600000000000)
    | none => false)
    && blockOk (tokenOf l) && Config.verify 4 (blockKeys (tokenOf l)) (tokenMsg l) (blockSig (tokenOf l))

/-- A token verifies against a live slot (R326, R343). -/
def State.tokenOk (s : State) (ch : Fin 2) (l : List Byte) : Bool := s.tokenSigned ch l && s.anchorLive (tokenFp l)

/-- Set an anchor slot. -/
def State.setAnchor (i : Fin 4) (a : AnchorSlot) (s : State) : State := { s with sec := { s.sec with anchors := s.sec.anchors.set i a } }

/-- A fuse write is logged (Table SEC-13). -/
def State.anchorNote (i : Fin 4) (s : State) : State :=
  s.logEvent 0x15 sevInfo 0x0007 (evData [(1, i.val), (1, (s.sec.anchors[i]).state)])

/-- A fuse write that reads back wrong leaves the slot damaged (R327): a hash that is not zero, the programmed bit not blown; which hash is open. -/
def State.anchorSpoil (i : Fin 4) (s : State) : State :=
  let (l, s) := s.drawBytes 48
  s.setAnchor i { programmed := false, revoked := false, hash := if hashBits l = 0 then 1 else hashBits l }

/-- R327's rule for PROGRAM_ANCHOR, besides an empty target. -/
def State.programRule (s : State) (i : Fin 4) (hash fp : List Byte) : Bool :=
  if 0 < s.liveSlots then s.anchorLive fp
  else i == 0 && fp == hash && (List.finRange 4).all (fun j => (s.sec.anchors[j]).state != 2)

/-- PROGRAM_ANCHOR (R327). -/
def execProgramAnchor (ch : Fin 2) (writeOk : Bool) (s : State) : Out :=
  .next (s.service ch 0x20 (fun l => l.length == 5553 && decide ((l.getD 32 0).toNat < 4)) (fun _ => true) (fun l s =>
    let i := Fin.ofNat 4 (l.getD 32 0).toNat
    let hash := span l 33 48
    let signed := s.tokenSigned ch l && (s.liveSlots == 0 || s.anchorLive (tokenFp l))
    let s := s.setChallenge ch none
    if signed = false then s.secAnswer ch 0x04 []
    else if (s.sec.anchors[i]).state ≠ 0 ∨ s.programRule i hash (tokenFp l) = false then s.secAnswer ch 0x05 []
    else if writeOk then ((s.setAnchor i { programmed := true, revoked := false, hash := hashBits hash }).anchorNote i).secAnswer ch 0 []
    else ((s.anchorSpoil i).anchorNote i).secAnswer ch 0x06 []))

/-- REVOKE_ANCHOR (R327). -/
def execRevokeAnchor (ch : Fin 2) (writeOk : Bool) (s : State) : Out :=
  .next (s.service ch 0x21 (fun l => l.length == 5505 && decide ((l.getD 32 0).toNat < 4)) (fun _ => true) (fun l s =>
    let i := Fin.ofNat 4 (l.getD 32 0).toNat
    let ok := s.tokenOk ch l
    let s := s.setChallenge ch none
    let st := (s.sec.anchors[i]).state
    if ok = false then s.secAnswer ch 0x04 []
    else if (st ≠ 1 ∧ st ≠ 3) ∨ s.liveSlots = b2n (st == 1) then s.secAnswer ch 0x05 []
    else if writeOk then ((s.setAnchor i { s.sec.anchors[i] with revoked := true }).anchorNote i).secAnswer ch 0 []
    else ((s.anchorSpoil i).anchorNote i).secAnswer ch 0x06 []))

/-- DEBUG_UNLOCK (R323). -/
def execDebugUnlock (ch : Fin 2) (s : State) : Out :=
  .next (s.service ch 0x22 (fun l => l.length == 5504) (fun _ => true) (fun l s =>
    let ok := s.tokenOk ch l
    let s := s.setChallenge ch none
    if ok then ((s.secZeroise 2).setFlag R.SEC_STATE F.SEC_STATE_debug_open true).secAnswer ch 0 [] else s.secAnswer ch 0x04 []))

/-- The timers in a request, and their ranges (Table SEC-11). -/
def timersOk (l : List Byte) : Bool :=
  let v := fun i => leNat (span l (32 + 4 * i) 4)
  decide ((60 ≤ v 0 ∧ v 0 ≤ 840) ∧ (3600 ≤ v 1 ∧ v 1 ≤ 604800) ∧ (5 ≤ v 2 ∧ v 2 ≤ 1000) ∧ (500 ≤ v 3 ∧ v 3 ≤ 10000))

/-- SET_TIMERS (Table SEC-11). -/
def execSetTimers (ch : Fin 2) (s : State) : Out :=
  .next (s.service ch 0x23 (fun l => l.length == 5520 && timersOk l) (fun _ => true) (fun l s =>
    let ok := s.tokenOk ch l
    let s := s.setChallenge ch none
    if ok then
      (forN 4 (fun i s => s.setReg (R.SEC_TIMER_REKEY_AGE + 4 * i) (BitVec.ofNat 32 (leNat (span l (32 + 4 * i) 4)))) s).secAnswer ch 0 []
    else s.secAnswer ch 0x04 []))

/-! ### Go, and the response -/

/-- A go is written (R341, R342): while the channel is busy it is ignored; a code that the channel does not list is malformed. -/
def State.secGo (ch : Fin 2) (s : State) : State :=
  let a := R.SEC_CH_STATUS ch.val
  if s.flag a F.SEC_CH_STATUS_busy then s.setFlag a F.SEC_CH_STATUS_refused true
  else
    let s := (s.setFlag a F.SEC_CH_STATUS_busy true).setFlag (R.SEC_CH_CTRL ch.val) F.SEC_CH_CTRL_go true
    if svcListed ch (s.svcCode ch) then s else s.secAnswer ch 0x01 []

/-- SEC_MAILBOX_RESPONSE_READY (R341, Table SEC-10). -/
def execSecMailboxResponseReady (ch : Fin 2) (s : State) : Out :=
  let a := R.SEC_CH_STATUS ch.val
  match s.flag a F.SEC_CH_STATUS_busy, (s.sec.ch[ch]).answer with
  | true, some (result, data) =>
    let s := s.setBytes (secResp ch) ([BitVec.ofNat 8 result, 0, 0, 0] ++ leBytes 4 data.length ++ leBytes 8 s.time.devtime.toNat ++ data)
    let s := { s with sec := { s.sec with ch := s.sec.ch.set ch { s.sec.ch[ch] with answer := none } } }
    let s := (s.setFlag a F.SEC_CH_STATUS_busy false).setFlag (R.SEC_CH_CTRL ch.val) F.SEC_CH_CTRL_go false
    let s := ((s.setFlag a F.SEC_CH_STATUS_done true).setFld a F.SEC_CH_STATUS_result result).setFld a F.SEC_CH_STATUS_length (16 + data.length)
    .next (if ch = 1 then match s.active with
        | some k => s.eventBoth k 5
        | none => s
      else s.raiseIrq 2)
  | _, _ => .next s

/-! ### Boot, zeroisation, errors -/

/-- Start-up halts with a code (Table HIF-10). -/
def State.bootHalt (code : Nat) (s : State) : State :=
  (s.setFld R.SEC_STATE F.SEC_STATE_fail_code code).setFld R.HIF_BOOT F.HIF_BOOT_hw_stage 15

/-- A code of Table SEC-14 whose failure at boot enters ERROR (R328). -/
def bootError (code : Nat) : Bool := 0x10 ≤ code && code ≤ 0x1E

/-- ENCLAVE_BOOT (R328, R477, R478): code is that of the step or test that failed, 0 with none; units are those that failed their known-answer
test.  While ZEROIZE_N is low the identity is not unwrapped.  The version of the cipher programs (R300) is a free value. -/
def execEnclaveBoot (code : Byte) (units : List (Fin 26)) (s : State) : Out :=
  let n := code.toNat
  let held := !s.pins.zeroizeN
  if s.fld R.HIF_BOOT F.HIF_BOOT_hw_stage ≠ 2 ∨ (held ∧ n = 0x1D) then .next s
  else if n = 0x40 then .next (s.bootHalt 0x40)
  else if bootError n then .next ((s.secError n).bootHalt n)
  else
    let s := if s.hasCipher then units.foldl (fun s u => if s.unitRole u.val < 2 then s.unitKatFail u.val else s) s else s
    let s := (s.setFld R.SEC_STATE F.SEC_STATE_state (if held then 2 else 1)).setFlag R.SEC_STATE F.SEC_STATE_zeroize_held held
    let s := ({ s with sec := { s.sec with unwrapped := !held } }).setFld R.HIF_BOOT F.HIF_BOOT_hw_stage 3
    let (ver, s) := s.draw
    let s := if s.hasCipher then (s.setFlag R.CPH_STATE F.CPH_STATE_prog_ok true).setFld R.CPH_STATE F.CPH_STATE_prog_ver ver.toNat else s
    .next (if s.dirCopy.isNone then s.bootHalt 0x41 else s)

/-- ZEROIZE_N_QUALIFIED (R345, R490). -/
def execZeroizeNQualified (s : State) : Out :=
  let s := { s with pins := { s.pins with zeroizeN := false } }
  .next ((s.setFlag R.SEC_STATE F.SEC_STATE_zeroize_held true).secZeroise 0)

/-- ZEROISE_COMPLETE (R345, R328): the ball is high; the identity is unwrapped and checked, and the first condition of R312 ends. -/
def execZeroiseComplete (identityOk : Bool) (s : State) : Out :=
  if s.secStateCode ≠ 2 then .next s
  else
    let s := ({ s with pins := { s.pins with zeroizeN := true } }).setFlag R.SEC_STATE F.SEC_STATE_zeroize_held false
    .next (if identityOk then
        let s := ({ s with sec := { s.sec with unwrapped := true } }).setFld R.SEC_STATE F.SEC_STATE_state 1
        (s.cphUnrec .A 0 false).cphUnrec .B 0 false
      else s.secError 0x1D)

/-- SEC_ERROR_ENTRY (R344). -/
def execSecErrorEntry (code : Byte) (s : State) : Out := .next (s.secError code.toNat)

end Sys2Proof.Machine
end

