-- ==== Sys2Proof/Machine/Logbook.lean ====
section
/-! DEFINITION. The logbook (LOG): the region and its entries (R454 to R457), summaries, totals and histograms (R459 to R461), event and boot entries
(R462), staging and writing (R456, R458, R463), recovery (R464), commands (R467), faults (R466). -/
namespace Sys2Proof.Machine

/-! ### The region (R454, Table LOG-1) -/

/-- The flash offset of the region. -/
def State.logBase (s : State) : Nat := 65536 * s.fld R.LOG_REGION F.LOG_REGION_base

/-- Sectors of the event ring. -/
def State.evSectors (s : State) : Nat := 16 * s.fld R.LOG_REGION F.LOG_REGION_length - 8234

/-- Pages of an area: 0 totals, 1 repair, 2 summary, 3 events; its first sector. -/
def State.areaPages (s : State) (area : Nat) : Nat :=
  match area with
  | 0 => 32
  | 1 => 128
  | 2 => 131584
  | _ => 16 * s.evSectors
def areaSector (area : Nat) : Nat :=
  match area with
  | 0 => 0
  | 1 => 2
  | 2 => 10
  | _ => 8234

/-- The flash offset of a page of an area. -/
def State.pageAt (s : State) (area page : Nat) : Nat := s.logBase + 4096 * areaSector area + 256 * page

/-- Erase a sector (R454): counted. -/
def State.logErase (off : Nat) (s : State) : State := (s.flashErase off (off + 4096)).addCnt R.LOG_ERASE_CNT 1

/-- An entry's 255 bytes after state, without the tag (Table LOG-2). -/
def entryBody (e : LogEntry) (seq : Nat) : List Byte :=
  [BitVec.ofNat 8 e.kind] ++ leBytes 2 1 ++ leBytes 8 seq ++ leBytes 8 e.time.toNat ++ leBytes 4 e.poh ++ e.payload.take 216
    ++ List.replicate (216 - e.payload.length) 0

/-- The tag of entry bytes 1 to 239 (R455). -/
def entryTag (body : List Byte) : List Byte := (hmac384 (leBytes 32 Config.lbk.toNat) (leBytes 8 Config.serial.toNat ++ body)).take 16

/-- A page's tag verifies. -/
def pageVerifies (p : List Byte) : Bool := entryTag ((p.drop 1).take 239) == (p.drop 240).take 16

/-- The pages of an area whose state byte is one of a list, by flash offset and seq, in ascending seq. -/
def insertSeq (x : Nat × Nat) : List (Nat × Nat) → List (Nat × Nat)
  | [] => [x]
  | y :: l => if x.2 < y.2 then x :: y :: l else y :: insertSeq x l
def State.areaEntries (s : State) (area : Nat) (states : List Byte) : List (Nat × Nat) :=
  let lo := s.pageAt area 0
  let hi := s.pageAt area (s.areaPages area)
  let l := s.flash.filter (fun c => decide (lo ≤ c.1 ∧ c.1 < hi ∧ (c.1 - lo) % 256 = 0) && states.contains c.2)
  (l.map (fun c => (c.1, s.flashNat (c.1 + 4) 8))).foldl (fun a x => insertSeq x a) []

/-! ### Totals (R460, Table LOG-4) -/

/-- The offsets of the totals record and the widths of its values. -/
def totFields : List (Nat × Nat) :=
  [(0, 4), (4, 4), (8, 4), (12, 4), (16, 4), (20, 8), (28, 4), (32, 8), (40, 4), (44, 4), (48, 4), (52, 4)]
  ++ (List.range 276).map (fun i => (56 + 4 * i, 4)) ++ (List.range 68).map (fun i => (1160 + 8 * i, 8))

/-- The record. -/
def State.totRecord (s : State) : List Byte := totFields.flatMap (fun p => leBytes p.2 (min (2 ^ (8 * p.2) - 1) (s.total p.1))) ++ List.replicate 296 0

/-- The values of a record are added to the totals. -/
def State.totAdd (r : List Byte) (s : State) : State :=
  totFields.foldl (fun s p => s.noteTotal p.1 (leNat ((r.drop p.1).take p.2))) s

/-- Ten totals parts are formed with the next generation (R460). -/
def State.formTotals (s : State) : State :=
  let r := s.totRecord
  let g := s.log.gen + 1
  let s := { s with log := { s.log with gen := g } }
  forN 10 (fun i s => s.logStage 3 (BitVec.ofNat 8 i :: (List.replicate 7 0 ++ leBytes 8 g ++ (r.drop (200 * i)).take 200))) s

/-! ### Hourly accumulators

Keys: 0 to 3 temperature minimum, maximum, sum, count (offset by 32,768); 4 to 7 voltage likewise; for carrier c at 16 + 16c: 0 SERVICE at some capture, 1
not at every one, 2 seconds of LOS, 3 of LOF, 4 lowest snr_avg16 plus 1, 5 largest sop_peak, 6 LOS in this second, 7 LOF, 8 no blk_lock at some
capture of it; at 64 + 32c + bin seconds in a BER bin; 128 to 130 events at WARN, ALARM, FAULT. -/

/-- An accumulator. -/
def State.acc (s : State) (k : Nat) : Nat := sparseGet (fun _ => 0) s.log.acc k
def State.setAcc (k v : Nat) (s : State) : State := { s with log := { s.log with acc := sparsePut (fun _ => 0) k v s.log.acc } }
def State.addAcc (k v : Nat) (s : State) : State := s.setAcc k (s.acc k + v)

/-- The bin of a pre-FEC BER (Table LOG-5): the first i with Δerrors / Δbits ≥ 10^(-(5 + i)/4); no error counts in bin 27. -/
def berBin (err bits : Nat) : Nat :=
  if err = 0 then 27 else ((List.range 27).find? (fun i => bits ^ 4 ≤ err ^ 4 * 10 ^ (5 + i))).getD 27

/-- The hottest sensor, signed, plus 32,768. -/
def State.hottest (s : State) : Nat :=
  ((List.range 8).map (fun t => (signed 16 (s.fld (R.MON_TEMP t) F.MON_TEMP_temp) + 32768).toNat)).foldl max 0

/-- A minimum, a maximum, a sum and a count take a sample; count 0 says that there was none before. -/
def State.accStat (k v : Nat) (s : State) : State :=
  let first := s.acc (k + 3) == 0
  (((s.setAcc k (if first then v else min (s.acc k) v)).setAcc (k + 1) (if first then v else max (s.acc (k + 1)) v)).addAcc (k + 2) v).addAcc (k + 3) 1

/-- How far a counter advanced between two lists of register values. -/
def cntDiff (new old : List (Nat × W32)) (a : Nat) : Nat := (cntIn new a + 281474976710656 - cntIn old a) % 281474976710656

/-- The seconds' bit errors of one polarisation enter the histograms (R461). -/
def State.berSecond (c : Carrier) (pol bits errs : Nat) (s : State) : State :=
  if bits = 0 then s
  else (s.noteTotal (712 + 4 * (56 * c.code + 28 * pol + berBin errs bits)) 1).addAcc (64 + 32 * c.code + berBin errs bits) 1

/-- The samples of one second of a carrier (R459, R461). -/
def State.secondCarrier (c : Carrier) (s : State) : State :=
  let k := 16 + 16 * c.code
  let los := s.acc (k + 6) == 1 || cntIn s.log.secBase (R.RXF_LOS_CNT c) != cntIn s.log.last (R.RXF_LOS_CNT c)
  let s := if los then s.addAcc (k + 2) 1 else s
  let s := if s.acc (k + 7) == 1 then s.addAcc (k + 3) 1 else s
  let s := if s.acc (k + 8) == 1 then s
    else
      let d := cntDiff s.log.last s.log.secBase
      (s.berSecond c 0 (d (R.FEC_PRE_BITS_X c)) (d (R.FEC_PRE_ERR_X c))).berSecond c 1 (d (R.FEC_PRE_BITS_Y c)) (d (R.FEC_PRE_ERR_Y c))
  ((s.setAcc (k + 6) 0).setAcc (k + 7) 0).setAcc (k + 8) 0

/-- The samples of one second (R459, R461). -/
def State.secondSamples (s : State) : State :=
  let t := s.hottest
  let v := s.fld R.PWR_AVS_VOLT F.PWR_AVS_VOLT_volt
  let s := (s.noteTotal (200 + 4 * (min 63 ((t + 160 - 32768) / 32))) 1).accStat 0 t
  let s := if s.flag R.PWR_STATUS F.PWR_STATUS_avs_err then s else s.noteTotal (456 + 4 * (min 63 ((v - 656) / 2))) 1
  let s := s.accStat 4 v
  let s := (s.secondCarrier .A).secondCarrier .B
  { s with log := { s.log with secBase := s.log.last } }

/-- What a capture shows of a carrier. -/
def State.capCarrier (c : Carrier) (s : State) : State :=
  let k := 16 + 16 * c.code
  let l := s.log.last
  let s := if fldIn l (R.TXP_STATE c) F.TXP_STATE_state = 3 then s.setAcc k 1 else s.setAcc (k + 1) 1
  let s := if fldIn l (R.RXF_STATE c) F.RXF_STATE_los = 1 then s.setAcc (k + 6) 1 else s
  let s := if fldIn l (R.FRM_DEFECT c) F.FRM_DEFECT_lof = 1 then s.setAcc (k + 7) 1 else s
  let s := if fldIn l (R.FEC_STATE c) F.FEC_STATE_blk_lock = 0 then s.setAcc (k + 8) 1 else s
  let snr := fldIn l (R.CRR_SNR_AVG c) F.CRR_SNR_AVG_snr_avg16 + 1
  let s := if s.acc (k + 4) = 0 ∨ snr < s.acc (k + 4) then s.setAcc (k + 4) snr else s
  s.setAcc (k + 5) (max (s.acc (k + 5)) (fldIn l (R.EQZ_SOP_STATUS c) F.EQZ_SOP_STATUS_sop_peak))

/-- The second of DEVTIME. -/
def State.nowSecond (s : State) : Nat := s.time.devtime.toNat / 10000000000

/-- The first capture at or after a second of DEVTIME takes that second's samples. -/
def State.secondDue (s : State) : State :=
  if s.log.second < s.nowSecond then ({ s with log := { s.log with second := s.nowSecond } }).secondSamples else s

/-- LOG takes what the gatherer captured (R459, R461); nothing once OBS or LOG has faulted (R466). -/
def State.logCapture (s : State) : State :=
  if s.obs.fault || s.log.fault then s
  else ((({ s with log := { s.log with last := s.regs.eff } }).capCarrier .A).capCarrier .B).secondDue

/-! ### The hourly summary (R459, Table LOG-3) -/

/-- v at n bytes, saturating. -/
def satBytes (n v : Nat) : List Byte := leBytes n (min (2 ^ (8 * n) - 1) v)

/-- A mean, rounded down or up by a free value: the spec does not say how. -/
def meanFree (up : Bool) (sum n : Nat) : Nat := if n = 0 then 0 else if up && sum % n != 0 then sum / n + 1 else sum / n

/-- The hour's increase of a counter between captures. -/
def State.hourCnt (s : State) (a : Nat) : Nat := cntDiff s.log.last s.log.base a

/-- The hour's increase of a total. -/
def State.hourTot (s : State) (off : Nat) : Nat := s.total off - sparseGet (fun _ => 0) s.log.totBase off

/-- Minimum, maximum and mean of a statistic, off subtracted; free values where there was no sample. -/
def State.statBytes (s : State) (k off : Nat) (w : W64) : List Byte :=
  if s.acc (k + 3) = 0 then leBytes 6 w.toNat
  else [s.acc k, s.acc (k + 1), meanFree (w.getLsbD 0) (s.acc (k + 2)) (s.acc (k + 3))].flatMap (fun v => leBytes 2 (v + 65536 - off))

/-- The BER bins that had a second of the hour: the worst and the most frequent, the worse of equals (DESIGN CHOICE: notes/assumptions/63.md); free bytes where none had. -/
def State.berBytes (s : State) (c : Carrier) (w : W64) : List Byte :=
  let n := fun b => s.acc (64 + 32 * c.code + b)
  match (List.range 28).find? (fun b => n b != 0) with
  | none => leBytes 2 w.toNat
  | some b => [BitVec.ofNat 8 b, BitVec.ofNat 8 ((List.range 28).foldl (fun m i => if n m < n i then i else m) b)]

/-- The 48 bytes of a carrier. -/
def State.carSummary (s : State) (c : Carrier) (w : W64) : List Byte :=
  let k := 16 + 16 * c.code
  let iters := (List.range 18).map (fun i => s.hourCnt (R.FEC_ITER c i))
  let blocks := iters.sum
  let weighted := ((List.range 18).map (fun i => (i + 1) * 256 * s.hourCnt (R.FEC_ITER c i))).sum
  let cl := (List.range 128).filter (fun n => decide (s.cliCar n = c))
  let some_ := s.acc k == 1
  [BitVec.ofNat 8 (b2n (some_ && s.acc (k + 1) == 0) + 2 * b2n some_), 0] ++ satBytes 2 (s.acc (k + 2)) ++ satBytes 2 (s.acc (k + 3))
  ++ (if s.acc (k + 4) = 0 then leBytes 2 w.toNat else leBytes 2 (s.acc (k + 4) - 1)) ++ leBytes 2 (s.acc (k + 5)) ++ [0, 0]
  ++ satBytes 4 (s.hourCnt (R.FEC_UNCORR_CNT c)) ++ satBytes 4 (s.hourCnt (R.FEC_LOST_CNT c)) ++ s.berBytes c w
  ++ (if blocks = 0 then leBytes 2 (w.toNat / 65536) else satBytes 2 (meanFree (w.getLsbD 1) weighted blocks))
  ++ satBytes 4 (s.hourCnt (R.CRR_SLIP_CNT c)) ++ satBytes 4 (s.hourCnt (R.CRR_LOCK_LOSS_CNT c))
  ++ satBytes 2 (s.hourCnt (R.EQZ_SWAP_CNT c) + s.hourCnt (R.FEC_SWAP_CNT c)) ++ [0, 0]
  ++ satBytes 4 ((cl.map (fun n => s.hourCnt (R.CPH_AUTH_FAIL_CNT n))).sum) ++ satBytes 4 ((cl.map (fun n => s.hourCnt (R.CPH_TX_HOLD_CNT n))).sum)
  ++ [0, 0, 0, 0]

/-- The 30 bytes of the device. -/
def State.devSummary (s : State) : List Byte :=
  satBytes 2 (s.hourCnt R.PLT_FAILOVER_CNT) ++ satBytes 2 (s.hourCnt R.HWS_OVERRUN_CNT) ++ satBytes 2 (s.hourTot 20) ++ satBytes 2 (s.hourTot 28)
  ++ satBytes 4 (([3, 4, 5, 6, 7, 8, 9].map (fun d => s.hourCnt (R.PWR_REFUSE_CNT d))).sum) ++ satBytes 4 (s.hourCnt R.MEM_CORR_CNT)
  ++ satBytes 2 (s.hourCnt R.MEM_UNCORR_CNT) ++ satBytes 2 (s.hourCnt R.MEM_HARD_CNT) ++ satBytes 2 (s.hourCnt R.CPH_MISMATCH_CNT)
  ++ satBytes 2 (s.acc 128) ++ satBytes 2 (s.acc 129) ++ satBytes 2 (s.acc 130) ++ satBytes 2 (s.hourCnt R.LOG_DROP_CNT)

/-- The iteration histograms take the hour's increase (R461). -/
def State.iterTotals (c : Carrier) (s : State) : State :=
  forN 18 (fun i s => s.noteTotal (1160 + 144 * c.code + 8 * i) (s.hourCnt (R.FEC_ITER c i))) s

/-- LOG_HOURLY_SUMMARY (R459 to R461): the summary is formed, the power-on hours and the iteration histograms advance, the totals are
rewritten. -/
def execLogHourlySummary (s : State) : Out :=
  if s.log.fault then .next s
  else
    let (w, s) := s.draw
    let p := leBytes 4 s.log.hour ++ s.statBytes 0 32768 w ++ s.statBytes 4 0 (w >>> 8) ++ s.carSummary .A (w >>> 16) ++ s.carSummary .B (w >>> 24)
      ++ s.devSummary ++ [BitVec.ofNat 8 (b2n s.obs.fault)]
    let s := s.logStage 1 p
    let s := if s.obs.fault then s else (s.iterTotals .A).iterTotals .B
    let s := s.noteTotal 0 1
    let s := { s with log := { s.log with hour := s.log.hour + 1, acc := [], base := s.log.last, totBase := s.log.tot } }
    .next s.formTotals

/-! ### Event entries (R462) -/

/-- The ledger entries at hand form an event entry. -/
def State.formEvents (s : State) : State :=
  if s.log.forming.isEmpty then s
  else
    let l := s.log.forming.take 6
    let s := { s with log := { s.log with forming := s.log.forming.drop 6 } }
    s.logStage 2 (BitVec.ofNat 8 l.length :: (List.replicate 7 0 ++ l.flatten))

/-- An event written to the ledger is copied when its severity is at or above log_sev; six form an entry (R462). -/
def State.logLedger (sev : Nat) (entry : List Byte) (s : State) : State :=
  if s.log.fault then s
  else
    let s := if 1 ≤ sev then s.addAcc (127 + sev) 1 else s
    if sev < s.fld R.LOG_CFG F.LOG_CFG_log_sev then s
    else
      let s := { s with log := { s.log with forming := s.log.forming ++ [entry] } }
      if 6 ≤ s.log.forming.length then s.formEvents else s

/-- LOG_EVENT_ENTRY_TIMER (R462). -/
def execLogEventEntryTimer (s : State) : Out := .next (if s.log.fault then s else s.formEvents)

/-! ### Writing (R456 to R458, R463) -/

/-- The rank of a kind in the order of R463: repair list, boot, summary, totals, then events and notes. -/
def kindRank (k : Nat) : Nat :=
  match k with
  | 4 => 0
  | 5 => 1
  | 1 => 2
  | 3 => 3
  | _ => 4

/-- The entry that is written next, and the rest. -/
def nextStaged (l : List LogEntry) : Option (LogEntry × List LogEntry) :=
  match (List.range 5).findSome? (fun r => l.findIdx? (fun e => kindRank e.kind == r)) with
  | none => none
  | some i => (l[i]?).map (fun e => (e, l.eraseIdx i))

/-- LOAD_BERTH_MANIFEST waits in a channel of the enclave (R458). -/
def State.berthLoadDue (s : State) : Bool := [0, 1].any (fun ch => s.svcDue ch && s.svcCode ch == 0x15)

/-- LOG may write (R458, R463). -/
def State.logRuns (s : State) : Bool :=
  s.fld R.LOG_STATE F.LOG_STATE_state == 2 && s.flag R.LOG_CFG F.LOG_CFG_enable && s.secStateCode == 1 && !s.log.fault && !s.berthLoadDue

/-- The area of a kind of entry. -/
def kindArea (k : Nat) : Nat :=
  match k with
  | 3 => 0
  | 4 => 1
  | 1 => 2
  | _ => 3

/-- The page at which an entry is written, with what is erased before it: a totals slot before its first part (R460). -/
def State.logPlace (e : LogEntry) (s : State) : Nat × State :=
  match kindArea e.kind with
  | 0 =>
    if e.payload.head? = some 0 ∧ s.log.fails = 0 then
      let w := match s.log.slot with
        | some b => !b
        | none => false
      let s := { s with log := { s.log with writing := w, totPage := 0 } }
      (s.pageAt 0 (16 * b2n w), s.logErase (s.pageAt 0 (16 * b2n w)))
    else (s.pageAt 0 (16 * b2n s.log.writing + s.log.totPage % 16), s)
  | 1 => (s.pageAt 1 (s.log.repPage % 128), s)
  | 2 => (s.pageAt 2 s.log.sumPage, s)
  | _ => (s.pageAt 3 s.log.evPage, s)

/-- A page of an area is used: a ring whose head enters its erased sector erases the next one (R457). -/
def State.logAdvance (area : Nat) (s : State) : State :=
  match area with
  | 0 => { s with log := { s.log with totPage := s.log.totPage + 1 } }
  | 1 => { s with log := { s.log with repPage := s.log.repPage + 1 } }
  | 2 =>
    let p := (s.log.sumPage + 1) % 131584
    let s := { s with log := { s.log with sumPage := p } }
    if p % 16 = 0 then s.logErase (s.pageAt 2 ((p + 16) % 131584)) else s
  | _ =>
    let n := 16 * s.evSectors
    let p := (s.log.evPage + 1) % max 1 n
    let s := { s with log := { s.log with evPage := p } }
    if p % 16 = 0 then s.logErase (s.pageAt 3 ((p + 16) % max 1 n)) else s

/-- LG_FLUSH commands complete once nothing is staged (Table OBS-5). -/
def State.flushDone (s : State) : State := if s.log.staged.isEmpty then s.completeOp 31 0x100 0 0 0 else s

/-- The last piece of the totals is committed: the slot that was written is the newest (R458). -/
def State.logSlot (e : LogEntry) (s : State) : State :=
  if e.kind = 3 ∧ e.payload.head? = some 9 then { s with log := { s.log with slot := some s.log.writing } } else s

/-- LOG_ENTRY_WRITE (R455, R456): tagged, programmed, read back, committed; or the page is left uncommitted, holding what it happens to hold, and
the entry goes to the next page. -/
def execLogEntryWrite (readBackOk : Bool) (s : State) : Out :=
  match nextStaged s.log.staged with
  | none => .next s
  | some (e, rest) =>
    if s.logRuns = false then .next s
    else
      let seq := (s.reg R.LOG_NEXT_SEQ_LO).toNat + 2 ^ 32 * (s.reg R.LOG_NEXT_SEQ_HI).toNat
      let (off, s) := s.logPlace e
      let body := entryBody e seq
      let page := body ++ entryTag body
      let s := s.setReg64 R.LOG_NEXT_SEQ_LO (seq + 1)
      if readBackOk then
        let s := (s.flashProgram (off + 1) page).flashProgram off [0x3F]
        let s := ({ s with log := { s.log with staged := rest, fails := 0 } }).logShow
        let s := (s.addCnt R.LOG_ENTRY_CNT 1).logAdvance (kindArea e.kind)
        .next (s.logSlot e).flushDone
      else
        let (x, s) := s.drawBytes 255
        let s := s.flashProgram (off + 1) ((page.zip x).map (fun p => p.1 ||| p.2))
        let s := ((s.addCnt R.LOG_WRITE_ERR_CNT 1).setFlag R.LOG_STATUS F.LOG_STATUS_write_err true).logAdvance (kindArea e.kind)
        let n := s.log.fails + 1
        let s := { s with log := { s.log with fails := n } }
        .next (if n < 8 then s
          else (s.setFld R.LOG_STATE F.LOG_STATE_state 3).logEvent 0x23 sevAlarm 0x0002 (evData [(4, off)]))

/-! ### Recovery (R464) -/

/-- The totals record of a slot with its generation: ten committed parts of one generation that verify (R460). -/
def State.slotTotals (s : State) (b : Bool) : Option (Nat × List Byte) :=
  let lo := s.pageAt 0 (16 * b2n b)
  let pages := (((s.areaEntries 0 [0x3F]).filter (fun p => decide (lo ≤ p.1 ∧ p.1 < lo + 4096))).map (fun p => s.flashBytes p.1 256)).filter
    (fun p => p.getD 1 0 == 3 && pageVerifies p)
  match pages.getLast? with
  | none => none
  | some p =>
    let g := leNat ((p.drop 32).take 8)
    let part := fun i => pages.find? (fun q => q.getD 24 0 == BitVec.ofNat 8 i && leNat ((q.drop 32).take 8) == g)
    if (List.range 10).all (fun i => (part i).isSome) then
      some (g, (List.range 10).flatMap (fun i => (((part i).getD []).drop 40).take 200))
    else none

/-- The page after the newest entry of a ring; page 0 of an empty one. -/
def State.ringHead (s : State) (area : Nat) : Nat :=
  match (s.areaEntries area [0x3F, 0x7F]).getLast? with
  | none => 0
  | some p => ((p.1 - s.pageAt area 0) / 256 + 1) % max 1 (s.areaPages area)

/-- The newest totals that flash holds: their slot, generation and bytes (R458, R464). -/
def State.bestTotals (s : State) : Option (Bool × Nat × List Byte) :=
  match s.slotTotals false, s.slotTotals true with
  | some (ga, ra), some (gb, rb) => if gb < ga then some (false, ga, ra) else some (true, gb, rb)
  | some (ga, ra), none => some (false, ga, ra)
  | none, some (gb, rb) => some (true, gb, rb)
  | none, none => none

/-- The totals go on from those in flash; with none they are lost (R464). -/
def State.resumeTotals (best : Option (Bool × Nat × List Byte)) (s : State) : State :=
  match best with
  | some (b, g, r) => ({ s with log := { s.log with slot := some b, gen := g } }).totAdd r
  | none => (s.setFlag R.LOG_STATUS F.LOG_STATUS_totals_lost true).logEvent 0x23 sevWarn 0x0003 []

/-- The boot entry is staged once (R462); its layout is not given: free bytes. -/
def State.bootEntry (s : State) : State :=
  if s.log.bootDone then s
  else
    let (l, s) := s.drawBytes 216
    ({ s with log := { s.log with bootDone := true } }).logStage 5 l

/-- LOG_RECOVERY (R464): the ring heads, the next seq, the totals, and the boot entry. -/
def execLogRecovery (s : State) : Out :=
  if s.fld R.LOG_STATE F.LOG_STATE_state ≠ 1 ∨ s.log.fault then .next s
  else
    let seqs := ([0, 1, 2, 3].flatMap (fun a => s.areaEntries a [0x3F, 0x7F])).map (·.2)
    let next := if seqs.isEmpty then 0 else seqs.foldl max 0 + 1
    let best := s.bestTotals
    let s := { s with log := { s.log with sumPage := s.ringHead 2, evPage := s.ringHead 3, repPage := s.ringHead 1, fails := 0 } }
    let s := (s.setReg64 R.LOG_NEXT_SEQ_LO next).setFld R.LOG_STATE F.LOG_STATE_state 2
    let s := s.resumeTotals best
    .next ({ s with log := { s.log with totBase := s.log.tot } }).bootEntry

/-- LOG_CFG.enable changed at a COMMIT: recovery begins, or LOG is off (R464). -/
def State.logEnable (s : State) : State :=
  let on := s.flag R.LOG_CFG F.LOG_CFG_enable
  let st := s.fld R.LOG_STATE F.LOG_STATE_state
  if on ∧ st = 0 then s.setFld R.LOG_STATE F.LOG_STATE_state 1
  else if on = false ∧ st ≠ 0 then s.setFld R.LOG_STATE F.LOG_STATE_state 0
  else s

/-! ### Commands (Table OBS-5) -/

/-- LG_FLUSH: the totals and every staged entry are written; LOG_ENTRY_WRITE completes it. -/
def execLgFlush (s : State) : Out :=
  .next (s.runCommand 31 0x100 (fun d s =>
    if d.unit ≠ 0xFF then (some (0x02, 0, 0), s)
    else if s.fld R.LOG_STATE F.LOG_STATE_state ≠ 2 then (some (0x06, 0, 0), s)
    else (none, s.formEvents.formTotals)))

/-- LG_READ with its arguments (R465): status and results. -/
def State.lgRead (unit arg0 arg1 arg2 : Nat) (s : State) : (Nat × Nat × Nat) × State :=
  let n := arg1 / 256 % 65536
  if unit ≠ 0xFF ∨ n = 0 ∨ 64 < n ∨ bufferOk arg0 16384 = false then ((0x02, 0, 0), s)
  else if s.secStateCode ≠ 1 ∨ s.fld R.LOG_STATE F.LOG_STATE_state ≠ 2 then ((0x06, 0, 0), s)
  else
    let l := ((s.areaEntries (arg1 % 4) [0x3F]).drop arg2).take n
    let pages := l.map (fun p => s.flashBytes p.1 256)
    let bad := ((List.range pages.length).filter (fun i => !pageVerifies (pages.getD i []))).map (fun i => 2 ^ i)
    ((0, pages.length, bad.sum), s.setBytes arg0 pages.flatten)

/-- LG_READ (R465). -/
def execLgRead (s : State) : Out :=
  .next (s.runCommand 31 0x101 (fun d s =>
    let (r, s) := s.lgRead d.unit d.arg0 d.arg1 d.arg2
    (some r, s)))

/-- LG_NOTE (R462). -/
def execLgNote (s : State) : Out :=
  .next (s.runCommand 31 0x102 (fun d s =>
    if d.unit ≠ 0xFF ∨ bufferOk d.arg0 216 = false then (some (0x02, 0, 0), s)
    else if s.flag R.LOG_CFG F.LOG_CFG_enable = false then (some (0x06, 0, 0), s)
    else (some (0, 0, 0), s.logStage 6 (s.bytes d.arg0 216))))

/-- OBS_LOG_ENGINE_FAULT (R466). -/
def execObsLogEngineFault (log : Bool) (s : State) : Out :=
  if log then
    .next ((({ s with log := { s.log with fault := true } }).setFlag R.LOG_STATUS F.LOG_STATUS_engine_fault true).logFault 0x23 0x0004 [])
  else
    .next ((({ s with obs := { s.obs with fault := true } }).setFlag R.OBS_STATUS F.OBS_STATUS_engine_fault true).logFault 0x22 0x0001 [])

end Sys2Proof.Machine
end

