-- ==== Sys2Proof/Machine/Hif.lean ====
section
/-! DEFINITION. The host interface beside its register accesses: refused accesses (HIF_ERR), the output balls INT_N and ALARM_N (R482), the event ledger
(R481, R502), the mailbox (R473 to R475), the boot flash (R477 to R480) and HIF's commands (R483), its engine fault (R486). -/
namespace Sys2Proof.Machine

/-! ### Refused accesses, balls -/

/-- A bit of HIF_ERR. -/
abbrev errHx : Nat := 0
abbrev errUnmapped : Nat := 1
abbrev errWidth : Nat := 2
abbrev errRegion : Nat := 3
abbrev errMbxBusy : Nat := 4
abbrev errMbxTag : Nat := 5
abbrev errMbxPort : Nat := 6
abbrev errI2cRange : Nat := 7
abbrev errI2cPartial : Nat := 8
abbrev errUncorr : Nat := 9

/-- An access is flagged in HIF_ERR: the first since all its bits were 0 leaves its address and port. -/
def State.hifErr (bit addr : Nat) (i2c : Bool) (s : State) : State :=
  let e := s.reg R.HIF_ERR
  let s := if e = 0 then (s.setReg R.HIF_ERR_ADDR (BitVec.ofNat 32 addr)).setReg R.HIF_ERR_PORT (BitVec.ofNat 32 (b2n i2c)) else s
  ((s.setReg R.HIF_ERR (e ||| BitVec.ofNat 32 (2 ^ bit))).addCnt R.HIF_ERR_CNT 1).raiseIrq 5

/-- HIF serves host accesses: it is out of reset, which needs a locked root (R36, Table HIF-10 step 2), and has not stopped (R486). -/
def State.hifServes (s : State) : Bool := s.pins.poresetN && s.pins.resetN && s.time.rootLocked && !s.hif.stopped

/-- INT_N is low (R482). -/
def State.intLow (s : State) : Bool := s.reg R.HIF_IRQ_PEND &&& ~~~(s.reg R.HIF_IRQ_MASK) != 0

/-- ALARM_N is low (R482, R36, R486). -/
def State.alarmLow (s : State) : Bool := s.flag R.HIF_ALARM F.HIF_ALARM_pending || s.pins.aonAlarm || s.hif.stopped

/-! ### The event ledger -/

/-- The 32 bytes of a ledger entry (Table HIF-6). -/
def LedgerEvent.bytes (e : LedgerEvent) : List Byte :=
  leBytes 8 e.time.toNat ++ [BitVec.ofNat 8 e.block, BitVec.ofNat 8 e.sev] ++ leBytes 2 e.code ++ (e.data ++ List.replicate 20 0).take 20

/-- HIF writes an entry (R481, R482): the ring, the count, the logbook's copy, the alarm and the interrupts that its severity raises. -/
def State.ledgerPut (e : LedgerEvent) (s : State) : State :=
  let c := (s.reg R.HIF_LEDGER_WR).toNat
  let s := (s.setBytes (0x01000000 + 32 * (c % 2048)) e.bytes).setReg R.HIF_LEDGER_WR (BitVec.ofNat 32 (c + 1))
  let s := s.logLedger e.sev e.bytes
  let s := if s.fld R.HIF_CFG F.HIF_CFG_alarm_sev ≤ e.sev then (s.setFlag R.HIF_ALARM F.HIF_ALARM_pending true).raiseIrq 4 else s
  if s.fld R.HIF_CFG F.HIF_CFG_int_sev ≤ e.sev then s.raiseIrq 1 else s

/-- Of the events raised at the time of the oldest, the first of the lowest block (R481). -/
def ledgerNext : List LedgerEvent → Option LedgerEvent
  | [] => none
  | e :: l => some ((l.filter (fun x => x.time == e.time)).foldl (fun b x => if x.block < b.block then x else b) e)

/-- The next entry that HIF writes (R481): a report of drops goes first. -/
def State.ledgerTake (s : State) : Option (LedgerEvent × State) :=
  if s.hif.drops ≠ 0 then
    some ({ time := s.hif.firstDrop, block := 0x24, sev := sevWarn, code := 0x0001, data := evData [(4, s.hif.drops)] },
      { s with hif := { s.hif with drops := 0 } })
  else match ledgerNext s.hif.waiting with
    | some e => some (e, { s with hif := { s.hif with waiting := s.hif.waiting.erase e } })
    | none => none

/-- LEDGER_EVENT_WRITE (R481). -/
def execLedgerEventWrite (s : State) : Out :=
  if s.hifServes = false then .next s
  else match s.ledgerTake with
    | some (e, s) => .next (s.ledgerPut e)
    | none => .next s

/-- HIF_ENGINE_FAULT (R486): the fault event is the last entry of the ledger. -/
def execHifEngineFault (s : State) : Out :=
  if s.hif.stopped then .next s
  else if s.time.rootLoss.isSome then
    let s := s.setFlag R.HIF_STATUS F.HIF_STATUS_engine_fault true
    .next { s with hif := { s.hif with waiting := [], drops := 0, stopped := true } }
  else
    let (d, s) := (s.setFlag R.HIF_STATUS F.HIF_STATUS_engine_fault true).draw
    let e : LedgerEvent := { time := s.time.devtime, block := 0x24, sev := sevFault, code := 0x0003, data := evData [(4, d.toNat)] }
    let s := { s with hif := { s.hif with waiting := [], drops := 0 } }
    let s := s.ledgerPut e
    .next { s with hif := { s.hif with stopped := true } }

/-- A program sets vectors 8 to 31 (R482). -/
def State.swIrq (v : W32) (s : State) : State :=
  (List.range 32).foldl (fun s n => if 8 ≤ n ∧ v.getLsbD n then s.raiseIrq n else s) s

/-- SW_IRQ_RAISE. -/
def execSwIrqRaise (bits : W32) (s : State) : Out := .next (s.swIrq bits)

/-! ### The mailbox -/

/-- The request and response slot n (Table ARC-6, Table HIF-2). -/
def mbxReq (n : Nat) : Nat := 0x01030000 + 64 * n
def mbxResp (n : Nat) : Nat := 0x01031000 + 64 * n

/-- Slot n's bit in HIF_MBX_BUSY or HIF_MBX_PEND. -/
def State.mbxBit (s : State) (r : Nat → Nat) (n : Nat) : Bool := (s.reg (r (n / 32))).getLsbD (n % 32)
def State.setMbxBit (r : Nat → Nat) (n : Nat) (b : Bool) (s : State) : State :=
  let m := BitVec.ofNat 32 (2 ^ (n % 32))
  s.setReg (r (n / 32)) (if b then s.reg (r (n / 32)) ||| m else s.reg (r (n / 32)) &&& ~~~m)

/-- Slot n is busy or expired; posted and not taken; expired. -/
def State.mbxBusy (s : State) (n : Nat) : Bool := s.mbxBit R.HIF_MBX_BUSY n
def State.mbxPend (s : State) (n : Nat) : Bool := s.mbxBit R.HIF_MBX_PEND n
def State.mbxExpired (s : State) (n : Nat) : Bool := s.hif.expired.contains n

/-- A slot is posted (R473). -/
def State.mbxPost (n : Nat) (s : State) : State :=
  let s := (s.setMbxBit R.HIF_MBX_BUSY n true).setMbxBit R.HIF_MBX_PEND n true
  let s := match s.active with
    | some k => s.eventBoth k 2
    | none => s
  let d := mbxResp n + 0x3C
  (s.store d 4 (s.load d 4 % 2 ^ 31)).addCnt R.HIF_MBX_REQ_CNT 1

/-- A host write of one word at an address of the request slots (R472, R473): refused on the other port's slots, on a busy slot and for a post with tag 0. -/
def State.mbxWrite (i2c : Bool) (a : Nat) (v : W32) (s : State) : State :=
  let n := (a - mbxReq 0) / 64
  let post := a % 64 == 0x3C && v.getLsbD 31
  if decide (56 ≤ n) ≠ i2c then s.hifErr errMbxPort a i2c
  else if s.mbxBusy n then s.hifErr errMbxBusy a i2c
  else if post ∧ v.toNat % 65536 = 0 then s.hifErr errMbxTag a i2c
  else
    let s := s.store a 4 v.toNat
    if post then s.mbxPost n else s

/-- MBX_POST (R473): a host write of a slot's post word. -/
def execMbxPost (i2c : Bool) (slot : Fin 64) (word : W32) (s : State) : Out :=
  .next (if s.hifServes then s.mbxWrite i2c (mbxReq slot.val + 0x3C) word else s)

/-- The program takes a request (R474). -/
def State.mbxTake (n : Nat) (s : State) : State := s.setMbxBit R.HIF_MBX_PEND n false

/-- MBX_TAKE. -/
def execMbxTake (slot : Fin 64) (s : State) : Out := .next (s.mbxTake slot.val)

/-- HIF writes the done word of a slot and sets vector 0 pending (R474, Table HIF-7). -/
def State.mbxDoneWord (n result : Nat) (s : State) : State :=
  (s.store (mbxResp n + 0x3C) 4 (s.load (mbxReq n + 0x3C) 2 + result % 256 * 65536 + 2 ^ 31)).raiseIrq 0

/-- The program answers a request (R474, R475): a late answer only frees the slot. -/
def State.mbxDone (n result : Nat) (s : State) : State :=
  if s.mbxBusy n = false then s.addCnt R.HIF_MBX_STRAY_CNT 1
  else
    let s := if s.mbxExpired n then s else s.mbxDoneWord n result
    let s := { s with hif := { s.hif with expired := s.hif.expired.filter (· != n) } }
    (s.setMbxBit R.HIF_MBX_BUSY n false).setMbxBit R.HIF_MBX_PEND n false

/-- MBX_DONE. -/
def execMbxDone (slot : Fin 64) (result : Byte) (s : State) : Out := .next (s.mbxDone slot.val result.toNat)

/-- MBX_DEADLINE_EXPIRY (R475): the response data becomes open. -/
def execMbxDeadlineExpiry (slot : Fin 64) (s : State) : Out :=
  let n := slot.val
  if s.hifServes = false ∨ s.mbxBusy n = false ∨ s.mbxExpired n then .next s
  else
    let s := s.mbxDoneWord n 0xFE
    let (l, s) := s.drawBytes 56
    let s := s.setBytes (mbxResp n + 4) l
    let s := { s with hif := { s.hif with expired := n :: s.hif.expired } }
    let s := (s.addCnt R.HIF_MBX_TIMEOUT_CNT 1).setFlag R.HIF_STATUS F.HIF_STATUS_mbx_timeout true
    .next (s.logEvent 0x24 sevWarn 0x0002 (evData [(1, n), (2, s.load (mbxReq n) 2), (2, s.load (mbxReq n + 0x3C) 2)]))

/-! ### The boot flash -/

/-- The size of the flash: R477 requires at least 64 MiB (DESIGN CHOICE: just that; notes/assumptions/69.md). -/
abbrev flashSize : Nat := 0x4000000

/-- A span of the flash meets the area from lo of length len. -/
def meets (o n lo len : Nat) : Bool := o < lo + len && lo < o + n

/-- The logbook regions that flash requests keep off (R479): that of the valid directory, else that of Table HIF-4, and that of LOG_REGION. -/
def State.meetsLog (s : State) (o n : Nat) : Bool :=
  let d := match s.dirCopy with
    | some d => s.dirLog d
    | none => (0x1800000, 0x2800000)
  meets o n d.1 d.2 || (s.flag R.LOG_CFG F.LOG_CFG_enable
    && meets o n (65536 * s.fld R.LOG_REGION F.LOG_REGION_base) (65536 * s.fld R.LOG_REGION F.LOG_REGION_length))

/-- What the recovery path refuses (R480): the identity area and the logbook region. -/
def State.recoveryProtected (s : State) (o n : Nat) : Bool := meets o n 0x2000 0xE000 || s.meetsLog o n

/-- What flash requests and commands refuse (R479): those, the boot slot and the directory. -/
def State.flashProtected (s : State) (o n : Nat) : Bool :=
  s.recoveryProtected o n || meets o n 0 0x2000 || (match s.dirCopy with
    | some d => meets o n (s.bootOffset d) harbourSlotSize
    | none => false)

/-- A directory copy with another boot slot and generation (R478, Table HIF-5). -/
def State.dirBytes (s : State) (dir slot gen : Nat) : List Byte :=
  let l := s.flashBytes dir 6 ++ [BitVec.ofNat 8 slot] ++ s.flashBytes (dir + 7) 0x19 ++ leBytes 4 gen ++ s.flashBytes (dir + 0x24) 0x18
  l ++ leBytes 4 (crc32 l).toNat

/-- The boot slot changes (R478): the copy not in use is erased and written; the new generation, none without a valid copy. -/
def State.setBootSlot (slot : Nat) (s : State) : Option (Nat × State) :=
  match s.dirCopy with
  | none => none
  | some d =>
    let gen := (s.dirGen d + 1) % 2 ^ 32
    let o := 0x1000 - d
    some (gen, (s.flashErase o (o + 0x1000)).flashProgram o (s.dirBytes d slot gen))

/-! ### Commands (Table HIF-8) -/

/-- HF_FLASH_READ. -/
def execHfFlashRead (s : State) : Out :=
  .next (s.runCommand 32 0x100 (fun d s =>
    let n := d.arg1 % 131072
    if d.unit ≠ 0xFF ∨ n = 0 ∨ 65536 < n ∨ bufferOk d.arg2 n = false ∨ flashSize < d.arg0 + n then (some (0x02, 0, 0), s)
    else (some (0, 0, 0), s.setBytes d.arg2 (s.flashBytes d.arg0 n))))

/-- HF_FLASH_PROGRAM: result0 tells of a mismatch on reading back. -/
def execHfFlashProgram (s : State) : Out :=
  .next (s.runCommand 32 0x101 (fun d s =>
    if d.unit ≠ 0xFF ∨ d.arg0 % 256 ≠ 0 ∨ bufferOk d.arg2 256 = false ∨ flashSize < d.arg0 + 256 ∨ s.flashProtected d.arg0 256
    then (some (0x02, 0, 0), s)
    else
      let l := s.bytes d.arg2 256
      let s := s.flashProgram d.arg0 l
      (some (0, b2n (s.flashBytes d.arg0 256 != l), 0), s)))

/-- HF_FLASH_ERASE. -/
def execHfFlashErase (s : State) : Out :=
  .next (s.runCommand 32 0x102 (fun d s =>
    if d.unit ≠ 0xFF ∨ d.arg0 % 4096 ≠ 0 ∨ flashSize < d.arg0 + 4096 ∨ s.flashProtected d.arg0 4096 then (some (0x02, 0, 0), s)
    else (some (0, 0, 0), s.flashErase d.arg0 (d.arg0 + 4096))))

/-- HF_LOG_EVENT: it waits while the ledger queue is full. -/
def execHfLogEvent (s : State) : Out :=
  .next (if 64 ≤ s.hif.waiting.length then s else s.runCommand 32 0x103 (fun d s =>
    let code := d.arg0 % 65536
    if d.unit ≠ 0xFF ∨ code < 0x8000 then (some (0x02, 0, 0), s)
    else (some (0, 0, 0), s.logEvent 0x24 (d.arg0 / 65536 % 4) code (evData [(8, d.arg1), (4, d.arg2)]))))

/-! ### Flash recovery (R480) -/

/-- A recovery operation ends: go reads 0, done is set. -/
def State.recoveryDone (refused : Bool) (s : State) : State :=
  let s := (s.setFlag R.HIF_FLASH_CMD F.HIF_FLASH_CMD_go false).setFlag R.HIF_FLASH_STATUS F.HIF_FLASH_STATUS_done true
  if refused then s.setFlag R.HIF_FLASH_STATUS F.HIF_FLASH_STATUS_refused true else s

/-- The recovery operation op (1 read, 2 program, 3 erase) at HIF_FLASH_ADDR: the page or sector that holds the offset. -/
def State.recoveryRun (op : Nat) (s : State) : State :=
  let s := s.setFld R.HIF_FLASH_CMD F.HIF_FLASH_CMD_op op
  let o := (s.reg R.HIF_FLASH_ADDR).toNat
  let page := o / 256 * 256
  let sector := o / 4096 * 4096
  if flashSize ≤ o then s.recoveryDone true
  else match op with
    | 1 => (forN 64 (fun w s => s.setReg (R.HIF_FLASH_DATA w) (BitVec.ofNat 32 (s.flashNat (page + 4 * w) 4))) s).recoveryDone false
    | 2 =>
      if s.recoveryProtected page 256 then s.recoveryDone true
      else (s.flashProgram page ((List.range 64).flatMap (fun w => leBytes 4 (s.reg (R.HIF_FLASH_DATA w)).toNat))).recoveryDone false
    | 3 => if s.recoveryProtected sector 4096 then s.recoveryDone true else (s.flashErase sector (sector + 4096)).recoveryDone false
    | _ => s.recoveryDone true

/-- Start-up is halted, so that the host may reach the flash (R480). -/
def State.recoveryOpen (s : State) : Bool := s.fld R.HIF_BOOT F.HIF_BOOT_hw_stage == 15

/-- A recovery row: the host's write of HIF_FLASH_CMD with go. -/
def State.recoveryRow (op : Nat) (s : State) : State :=
  if s.hifServes = false then s else if s.recoveryOpen then s.recoveryRun op else s.hifErr errRegion R.HIF_FLASH_CMD false

def execFlashRecoveryRead (s : State) : Out := .next (s.recoveryRow 1)
def execFlashRecoveryProgram (s : State) : Out := .next (s.recoveryRow 2)
def execFlashRecoveryErase (s : State) : Out := .next (s.recoveryRow 3)

end Sys2Proof.Machine
end

