-- ==== Sys2Proof/Machine/Pilot.lean ====
section
/-! DEFINITION. The pilot (R347 to R352, R357 to R362), stale epochs (R76), and the standby's side of the hawser (R353, R355). -/
namespace Sys2Proof.Machine

/-! ### Roles, epochs -/

/-- The role of a core (R347): 0 active, 1 standby in sync, 2 standby resyncing, 3 failed. -/
def State.roleOf (s : State) : CoreId → Nat
  | .A => s.fld R.PLT_STATUS F.PLT_STATUS_role_a
  | .B => s.fld R.PLT_STATUS F.PLT_STATUS_role_b

/-- HWS_STATE.sync follows the standby's role. -/
def State.hwsShow (s : State) : State :=
  let has := fun r => s.roleOf .A == r || s.roleOf .B == r
  s.setFld R.HWS_STATE F.HWS_STATE_sync (if has 1 then 2 else if has 2 then 1 else 0)

/-- Core A's wait to restore does not run (R358). -/
def State.wtrStop (s : State) : State :=
  ({ s with pilot := { s.pilot with wtrDone := false } }).setFlag R.PLT_STATUS F.PLT_STATUS_wtr_run false

/-- Give a core a role; core A's wait to restore runs only in sync (R358). -/
def State.setRoleOf (k : CoreId) (r : Nat) (s : State) : State :=
  let s := match k with
    | .A => (if r = 1 then s else s.wtrStop).setFld R.PLT_STATUS F.PLT_STATUS_role_a r
    | .B => s.setFld R.PLT_STATUS F.PLT_STATUS_role_b r
  s.hwsShow

/-- The active core is shown (PLT_STATUS.active). -/
def State.setActive (k : Option CoreId) (s : State) : State :=
  s.setFld R.PLT_STATUS F.PLT_STATUS_active (match k with
    | some k => k.code
    | none => 2)

/-- How far a core's restart has come (R357). -/
def State.restOf (s : State) : CoreId → Nat
  | .A => s.pilot.restA
  | .B => s.pilot.restB

/-- A core's restart moves on. -/
def State.setRest (k : CoreId) (n : Nat) (s : State) : State :=
  let s := match k with
    | .A => { s with pilot := { s.pilot with restA := n } }
    | .B => { s with pilot := { s.pilot with restB := n } }
  s.setFlag R.PLT_STATUS F.PLT_STATUS_selftest (s.pilot.restA == 2 || s.pilot.restB == 2)

/-- The EPOCH after one (R348): 0 is skipped. -/
def nextEpoch (e : W16) : W16 := if e + 1 = 0 then 1 else e + 1

/-- The live epochs (R75), the incoming core's first; QCT_STATUS shows them. -/
def State.setLive (l : List W16) (s : State) : State :=
  let s := { s with qc := { s.qc with live := l } }
  (s.setFld R.QCT_STATUS F.QCT_STATUS_live_epoch ((l.headD 0).toNat)).setFlag R.QCT_STATUS F.QCT_STATUS_dual_active (l.length == 2)

/-- A dual-active window begins or ends (R358). -/
def State.setDual (b : Bool) (s : State) : State :=
  ({ s with pilot := { s.pilot with dual := b } }).setFlag R.PLT_STATUS F.PLT_STATUS_dual_active b

/-- The unsealed entries of an epoch. -/
def State.unsealed (s : State) (epoch : W16) : List QEntry :=
  (List.finRange 64).flatMap (fun q => (s.queue q).entries.filter (fun e => e.desc.epoch == epoch.toNat && !e.sealed))

/-- An epoch stops being live (R76): unsealed entries that have not started are dropped, those that have run on as stale. -/
def State.endEpoch (old new : W16) (s : State) : State :=
  let l := s.unsealed old
  let gone := l.filter (fun e => !e.started)
  let s := (l.filter (·.started)).foldl (fun s e =>
    s.setQueue (ticketQueue e.ticket) ((s.queue (ticketQueue e.ticket)).modEntry e.ticket (fun x => { x with stale := true }))) s
  let s := gone.foldl (fun s e => s.complete e 0x04 0 0) s
  if gone.isEmpty then s
  else
    let s := (s.addCnt R.QCT_STALE_DROPS gone.length).setFlag R.QCT_STATUS F.QCT_STATUS_stale_drop true
    s.logEvent 0x1A sevWarn 0x0006 (evData [(4, gone.length), (2, old.toNat), (2, new.toNat)])

/-- The last change of the active core (PLT_LAST). -/
def State.pltLast (cause block : Nat) (old : W16) (s : State) : State :=
  let s := ((s.setFld R.PLT_LAST F.PLT_LAST_cause cause).setFld R.PLT_LAST F.PLT_LAST_from block).setFld R.PLT_LAST F.PLT_LAST_old_epoch old.toNat
  s.setReg64 R.PLT_LAST_TIME_LO s.time.devtime.toNat

/-! ### Starting and stopping cores -/

/-- A core stops and loses its registers; its EPOCH stays until it is given another. -/
def State.dropCore (k : CoreId) (s : State) : State := s.setCore k { coreReset with epoch := (s.core k).epoch }

/-- A core becomes standby, resyncing (R355): every DMEM line is pending. -/
def State.enterResync (k : CoreId) (cause : Nat) (s : State) : State :=
  let s := s.setRoleOf k 2
  let s := { s with hws := { pend := [], pendFrom := 0, copy := none, snap := none, voids := 0, tides := 0 },
                    pilot := { s.pilot with handover := false } }
  let s := s.modCore k (fun c => { c with run := .standby, wait := .none })
  let s := (s.addCnt R.HWS_RESYNC_CNT 1).setFlag R.HWS_STATUS F.HWS_STATUS_resync true
  s.logEvent 0x1B sevWarn 0x0002 (evData [(1, cause)])

/-- A core starts from a snapshot (R351, R352). -/
def State.startSnap (k : CoreId) (x : CoreSnap) (epoch : W16) (s : State) : State :=
  let s := s.modCore k (fun c => { c with
    h := x.h, pc := x.pc, pstate := x.pstate, tvec := x.tvec, epc := x.epc, faddr := x.faddr, fault := x.fault, eventH := x.eventH,
    eventB := x.eventB, scratch := x.scratch, epoch, run := .running, wait := .none, obsIrq := false, quiet := 0 })
  { s with berth := { s.berth with active := x.bank }, pilot := { s.pilot with lastEpoch := epoch } }

/-- A core starts at the harbour entry (R62, R360); no check refuses an entry that is no multiple of 4, and the core starts there
(DESIGN CHOICE: notes/assumptions/103.md). -/
def State.startEntryCore (k : CoreId) (epoch : W16) (cold : Bool) (s : State) : State :=
  let c : PlelisCore := { coreReset with pc := s.boot.entry, epoch, run := .running, scratch := coreReset.scratch.set 0 (if cold then 1 else 0) }
  let s := s.setCore k c
  { s with pilot := { s.pilot with lastEpoch := epoch } }

/-- The standby's snapshot, if it is in sync. -/
def State.standbySnap (s : State) (k : CoreId) : Option CoreSnap := if s.roleOf k = 1 then s.hws.snap else none

/-- A core takes the active role alone, with the only live epoch. -/
def State.soleActive (k : CoreId) (epoch : W16) (s : State) : State :=
  let s := (s.setActive (some k)).setRoleOf k 0
  ({ s with pilot := { s.pilot with missed := 0, pendCold := none } }).setLive [epoch]

/-! ### Failures -/

/-- The active core k is declared failed (R349, R351, R360). -/
def State.declareFailed (k : CoreId) (cause : Nat) (s : State) : State :=
  let j := k.other
  let old := (s.core k).epoch
  let snap := s.standbySnap j
  let s := (((s.dropCore k).setRoleOf k 3).setRest k 1).revertStaged
  let s := { s with hws := { s.hws with copy := none }, pilot := { s.pilot with missed := 0, handover := false } }
  let (new, s) := match snap with
    | some x =>
      let e := nextEpoch s.pilot.lastEpoch
      (e, ((s.startSnap j x e).soleActive j e).endEpoch old e)
    | none =>
      let s := ((s.setActive none).setLive []).endEpoch old 0
      (0, { s with pilot := { s.pilot with pendCold := if s.roleOf j = 2 then some (j, s.time.tide) else none } })
  let s := ((s.addCnt R.PLT_FAILOVER_CNT 1).setFlag R.PLT_STATUS_EV F.PLT_STATUS_EV_failover true).noteTotal 12 1
  (s.pltLast cause k.block old).logEvent 0x1A sevAlarm 0x0001 (evData [(1, cause), (2, old.toNat), (2, new.toNat)])

/-- A core faults in the dual-active window (R359). -/
def State.dualFault (k : CoreId) (cause : Nat) (s : State) : State :=
  let a := s.coreA.epoch
  let b := s.coreB.epoch
  let s := (((s.dropCore k).setRoleOf k 3).setRest k 1).setDual false
  match k with
  | .A => ({ s with pilot := { s.pilot with lastEpoch := b } }.setLive [b]).endEpoch a b
  | .B =>
    let s := (s.soleActive .A a).endEpoch b a
    let s := { s with hws := { s.hws with copy := none } }
    let s := ((s.addCnt R.PLT_FAILOVER_CNT 1).setFlag R.PLT_STATUS_EV F.PLT_STATUS_EV_failover true).noteTotal 12 1
    (s.pltLast cause 0x19 b).logEvent 0x1A sevAlarm 0x0001 (evData [(1, cause), (2, b.toNat), (2, a.toNat)])

/-- A standby core fails (R349): it is in the failed role, and nothing is offered for takeover. -/
def State.standbyFault (k : CoreId) (cause : Nat) (s : State) : State :=
  let s := ((s.dropCore k).setRoleOf k 3).setRest k 1
  let s := { s with hws := { s.hws with copy := none, snap := none },
                    pilot := { s.pilot with handover := false, pendCold := s.pilot.pendCold.filter (fun p => p.1 != k) } }
  s.logEvent 0x1A sevWarn 0x0008 (evData [(1, k.block), (1, cause)])

/-- A core fault reaches the pilot (R349, R359, R361). -/
def State.coreFailed (k : CoreId) (cause : Nat) (s : State) : State :=
  if s.pilot.ok = false ∨ s.roleOf k = 3 then s
  else if s.pilot.dual then s.dualFault k cause
  else if s.active = some k then s.declareFailed k cause
  else s.standbyFault k cause

/-- PILOT_MISSED_HB_DECLARE (R349). -/
def execPilotMissedHbDeclare (s : State) : Out :=
  match s.active with
  | some k => .next (if 2 ≤ s.pilot.missed ∧ s.pilot.ok then s.declareFailed k 1 else s)
  | none => .next s

/-- A word of a core's local memory cannot be corrected. -/
def State.localUncorr (s : State) (k : CoreId) : Bool :=
  s.ecc.marks.any (fun (m : EccMark) => m.region == 0 && m.kind == EccKind.uncorr
    && decide (coreAddr k 0 / 8 ≤ m.word ∧ m.word < coreAddr k 0 / 8 + 0x80000))

/-- CORE_FAULT_SIGNAL (R55, R349, R432): a core that halted, or whose memory holds an uncorrectable word. -/
def execCoreFaultSignal (k : CoreId) (doubleFault : Bool) (s : State) : Out :=
  if (s.core k).run = .halted ∨ (doubleFault = false ∧ s.localUncorr k) then .next (s.coreFailed k (if doubleFault then 4 else 2)) else .next s

/-- The watchdog's count has reached PLT_CFG.wdog (R350); it does not run for a core that waits. -/
def State.wdogDue (s : State) (k : CoreId) : Bool :=
  let c := s.core k
  c.run == .running && c.wait == .none && decide (64 * s.fld R.PLT_CFG F.PLT_CFG_wdog ≤ c.quiet)

/-- WATCHDOG_EXPIRY (R350). -/
def execWatchdogExpiry (k : CoreId) (s : State) : Out := .next (if s.wdogDue k then s.coreFailed k 3 else s)

/-! ### The copy at the standby -/

/-- The frozen lines of a copy that ends without being adopted stay pending (R354, R355). -/
def mergePend (lines pend : List Nat) : List Nat := lines.foldl (fun l x => insertAsc x l) pend

/-- The copy of this tide ends unused: its lines stay pending, a handover that waits for it is cancelled (R355, R358). -/
def State.copyVoid (s : State) : State :=
  match s.hws.copy with
  | none => s
  | some c => { s with hws := { s.hws with copy := none, pend := mergePend c.lines s.hws.pend }, pilot := { s.pilot with handover := false } }

/-- The standby, if there is one. -/
def State.standby (s : State) : Option CoreId :=
  if s.roleOf .A = 1 ∨ s.roleOf .A = 2 then some .A else if s.roleOf .B = 1 ∨ s.roleOf .B = 2 then some .B else none

/-- HAWSER_FRAME_RECEIVED (R355). -/
def execHawserFrameReceived (checkOk : Bool) (s : State) : Out :=
  match s.hws.copy with
  | none => .next s
  | some c =>
    if checkOk then .next s
    else
      let s := (s.addCnt R.HWS_FRAME_ERR_CNT 1).setFlag R.HWS_STATUS F.HWS_STATUS_frame_err true
      if c.isVoid then .next s
      else
        let n := s.hws.voids + 1
        let s := { s with hws := { s.hws with copy := some { c with isVoid := true }, voids := n }, pilot := { s.pilot with handover := false } }
        .next (match s.standby with
          | some j => if s.roleOf j = 1 ∧ 4 ≤ n then s.enterResync j 2 else s
          | none => s)

/-- Write a line of the active core's copy into the standby's DMEM: its content at the boundary (R353). -/
def State.adoptLine (j : CoreId) (c : HawserCopy) (s : State) (line : Nat) : State :=
  let cells := (c.saved.lookup line).getD (s.lineCells j.other line)
  let src := coreAddr j.other (0x200000 + 64 * line)
  let dst := coreAddr j (0x200000 + 64 * line)
  cells.foldl (fun s (p : Host.Cell) => s.setByte (dst + (p.1 - src)) p.2) ((s.zeroMem dst (dst + 64)).eccTouch dst 64)

/-- The standby comes in sync (R355); core A's wait to restore starts (R358). -/
def State.inSync (j : CoreId) (s : State) : State :=
  let s := (s.setRoleOf j 1).logEvent 0x1B sevInfo 0x0003 (evData [(4, s.hws.tides)])
  match j with
  | .A => ({ s with pilot := { s.pilot with wtrSince := s.time.devtime, wtrDone := false } }).setFlag R.PLT_STATUS F.PLT_STATUS_wtr_run true
  | .B => s

/-- HAWSER_COPY_COMPLETE (R355): a copy that is neither void nor incomplete is adopted. -/
def execHawserCopyComplete (s : State) : Out :=
  match s.hws.copy, s.standby with
  | some c, some j =>
    if c.incomplete then .next s
    else if c.isVoid then .next s.copyVoid
    else
      let s := c.lines.foldl (State.adoptLine j c) s
      let s := { s with hws := { s.hws with copy := none, snap := some c.snap, voids := 0 } }
      .next (if s.roleOf j = 2 ∧ c.isWhole then s.inSync j else s)
  | _, _ => .next s

/-! ### Return of a failed core (R357) -/

/-- CORE_RESTART_HOLD_END. -/
def execCoreRestartHoldEnd (k : CoreId) (s : State) : Out := .next (if s.restOf k = 1 then s.setRest k 2 else s)

/-- CORE_SELFTEST_DONE: the march test leaves the core's memories empty. -/
def execCoreSelftestDone (k : CoreId) (failTest : Option Byte) (s : State) : Out :=
  if s.restOf k ≠ 2 then .next s
  else match failTest with
    | none => .next (((s.coreRepair k).zeroMem (coreAddr k 0) (coreAddr k 0 + 0x400000)).setRest k 3)
    | some t =>
      let s := (s.setRest k 4).setFlag R.PLT_STATUS_EV F.PLT_STATUS_EV_selftest_fail true
      .next (s.logEvent 0x1A sevWarn 0x0005 (evData [(1, k.block), (1, t.toNat)]))

/-- A berth manifest in force is loaded again into a bank of core k, if its checks pass (R61). -/
def State.reloadBank (k : CoreId) (bank : Bool) (s : State) : State :=
  match if bank then s.boot.bank1 else s.boot.bank0, s.dirCopy with
  | some o, some d => if s.mfCheck o (s.dirBerth d).1 (s.dirBerth d).2 false = 0 then s.loadBank k bank o else s
  | _, _ => s

/-- CORE_RELOAD_DONE: the harbour firmware and the berth manifests in force are loaded under R61; a manifest that no longer passes is not loaded, and
without harbour firmware the core stays failed. -/
def execCoreReloadDone (k : CoreId) (s : State) : Out :=
  match s.boot.harbour with
  | none => .next s
  | some o =>
    if s.restOf k ≠ 3 then .next s
    else if s.mfCheck o o harbourSlotSize true ≠ 0 then .next (s.setRest k 4)
    else
      let s := ((s.loadHarbour k o).reloadBank k false).reloadBank k true
      let s := (s.setRest k 0).enterResync k 0
      .next (if s.active.isNone ∧ s.pilot.pendCold.isNone then { s with pilot := { s.pilot with pendCold := some (k, s.time.tide) } } else s)

/-! ### Revert, cold resume -/

/-- WAIT_TO_RESTORE_EXPIRY (R358). -/
def execWaitToRestoreExpiry (s : State) : Out :=
  if s.roleOf .A = 1 then
    .next (({ s with pilot := { s.pilot with wtrDone := true } }).setFlag R.PLT_STATUS F.PLT_STATUS_wtr_run false)
  else .next s

/-- REVERT_START (R358): the copy of boundary k is whole at core A. -/
def execRevertStart (s : State) : Out :=
  match s.standbySnap .A with
  | none => .next s
  | some x =>
    if s.pilot.handover = false ∨ s.hws.copy.isSome ∨ s.active ≠ some .B ∨ s.pilot.ok = false then .next s
    else
      let old := s.coreB.epoch
      let new := nextEpoch s.pilot.lastEpoch
      let s := { s with pilot := { s.pilot with handover := false } }
      let s := (((s.startSnap .A x new).setRoleOf .A 0).setDual true).setLive [new, old]
      let s := ((s.addCnt R.PLT_REVERT_CNT 1).setFlag R.PLT_STATUS_EV F.PLT_STATUS_EV_revert true).noteTotal 16 1
      .next ((s.pltLast 6 0x19 old).logEvent 0x1A sevInfo 0x0002 (evData [(2, old.toNat), (2, new.toNat)]))

/-- The dual-active window ends (R358, R359): core B halts, its epoch ends, core A is the active core. -/
def State.endDual (s : State) : State :=
  let a := s.coreA.epoch
  let b := s.coreB.epoch
  let s := ((s.dropCore .B).setDual false).enterResync .B 0
  (s.soleActive .A a).endEpoch b a

/-- A resyncing core is released at the harbour entry (R360). -/
def State.coldResume (k : CoreId) (from_ : Nat) (s : State) : State :=
  let old := s.pilot.lastEpoch
  let new := nextEpoch old
  let s := (s.startEntryCore k new true).soleActive k new
  let s := { s with hws := { s.hws with copy := none, snap := none } }
  let s := (s.pltLast 7 from_ old).setFlag R.PLT_STATUS_EV F.PLT_STATUS_EV_cold_resume true
  s.logEvent 0x1A sevWarn 0x0004 (evData [(1, k.block)])

/-- COLD_RESUME_RELEASE (R360). -/
def execColdResumeRelease (s : State) : Out :=
  match s.pilot.pendCold with
  | some (k, t) => .next (if s.active.isNone ∧ s.time.tide ≠ t ∧ s.roleOf k = 2 then s.coldResume k 0 else s)
  | none => .next s

/-! ### The pilot's failure, FORCE -/

/-- PILOT_FAULT (R361). -/
def execPilotFault (s : State) : Out :=
  let s := { s with pilot := { s.pilot with ok := false, handover := false } }
  let s := (s.setFlag R.PLT_STATUS F.PLT_STATUS_pilot_ok false).setFlag R.PLT_STATUS_EV F.PLT_STATUS_EV_pilot_fail true
  .next (s.logFault 0x1A 0x0003 [])

/-- FORCE_BALL_QUALIFIED (R362, R490): the balls with a qualified falling edge, and their levels.  They are ignored until PILOT_OK has been high. -/
def execForceBallQualified (edgeA edgeB lowA lowB : Bool) (s : State) : Out :=
  if s.pilot.ok = false ∧ s.flag R.PLT_STATUS F.PLT_STATUS_pilot_ok then .next s
  else
    let s := { s with pins := { s.pins with forceAN := !lowA, forceBN := !lowB } }
    let s := (s.setFlag R.PLT_STATUS F.PLT_STATUS_force_a lowA).setFlag R.PLT_STATUS F.PLT_STATUS_force_b lowB
    if edgeA && edgeB then
      .next ((s.setFlag R.PLT_STATUS_EV F.PLT_STATUS_EV_force_conflict true).logEvent 0x1A sevWarn 0x0007 [])
    else if !edgeA && !edgeB then .next s
    else
      let k : CoreId := if edgeA then .A else .B
      match s.roleOf k with
      | 0 => .next s
      | 3 => .next (s.setFlag R.PLT_STATUS_EV F.PLT_STATUS_EV_force_refused true)
      | _ => .next { s with pilot := { s.pilot with pendForce := some (k, s.time.tide) } }

/-- The outgoing core of a forced takeover halts and becomes standby, resyncing (R362): its epoch ends. -/
def State.forceOut (k : CoreId) (new : W16) (s : State) : State :=
  let old := (s.core k).epoch
  ((s.dropCore k).enterResync k 0).endEpoch old new

/-- FORCED_TAKEOVER (R362), at the tide boundary after the edge, by the role that the named core has then. -/
def execForcedTakeover (s : State) : Out :=
  match s.pilot.pendForce with
  | none => .next s
  | some (k, t) =>
    if s.time.tide = t ∨ s.pilot.dual then .next s
    else
      let out := s.active
      let from_ := match out with
        | some j => j.block
        | none => 0
      let old := s.pilot.lastEpoch
      let new := nextEpoch old
      let s := { s with pilot := { s.pilot with pendForce := none } }
      match s.roleOf k, s.standbySnap k with
      | 1, some x =>
        let s := ((s.revertStaged).startSnap k x new).soleActive k new
        let s := match out with
          | some j => s.forceOut j new
          | none => s
        let s := (s.addCnt R.PLT_FAILOVER_CNT 1).noteTotal 12 1
        let s := (s.setFlag R.PLT_STATUS_EV F.PLT_STATUS_EV_forced true).pltLast 5 from_ old
        .next (s.logEvent 0x1A sevWarn 0x0004 (evData [(1, k.block)]))
      | 2, _ =>
        let s := (s.revertStaged).coldResume k from_
        let s := match out with
          | some j => ((s.forceOut j new).addCnt R.PLT_FAILOVER_CNT 1).noteTotal 12 1
          | none => s
        .next (s.setFlag R.PLT_STATUS_EV F.PLT_STATUS_EV_forced true)
      | _, _ => .next s

end Sys2Proof.Machine
end

