-- ==== Sys2Proof/Machine/Startup.lean ====
section
/-! DEFINITION. Resets (Table HIF-9, R79, R390, R405, R484), loss and return of the root (R36), start-up (R485): root lock, memory repair, the load of the
harbour manifest and the release of core A (R61, R62, R347). -/
namespace Sys2Proof.Machine

/-! ### What a reset keeps -/

/-- A register of the AON domain, REF or PWR (Table ARC-7). -/
def inAon (a : Nat) : Bool := a / 0x100000 == 0x160 || a / 0x100000 == 0x170

/-- A word of a registered counter. -/
def isCounter (a : Nat) : Bool :=
  isCntHigh a || (match famOf a with
    | some (f, _) => f.cnt
    | none => false)

/-- A register that keeps its effective value through RESET_N (R390, R405): those of AON but the counters. -/
def keepsReset (a : Nat) : Bool := inAon a && (!isCounter a || a == R.REF_STEP || a == R.REF_STEP + 4 || a == R.REF_ALIGN_STEP || a == R.REF_ALIGN_STEP + 4)

/-- The bits of the W1C fields of a register. -/
def w1cMask (fl : List Fld) : W32 := fl.foldl (fun m f => if f.ty == .w1c then m ||| f.mask else m) 0

/-- Clear the W1C bits of a register. -/
def State.clearW1c (a : Nat) (s : State) : State := s.setReg a (s.reg a &&& ~~~w1cMask (fieldsAt a))

/-- The register file after a reset of every domain but AON: staged values not committed are discarded there too (R390, R405). -/
def State.regsKept (s : State) : RegFile :=
  let l := s.regs.eff.filter (fun p => keepsReset p.1)
  { eff := l, com := l, stg := l }

/-- A parkable domain as a reset finds it: an entry in progress is over. -/
def PwrDom.afterReset (d : PwrDom) : PwrDom := { d with entry := none, wakeTickets := [], lateWake := false }

/-- Every domain but AON is reset and held (R22, R25, R79, R390, R405, R464, Table HIF-9): what lies in AON, in fuses, in the flash and in the SRAM stays, the
grid counts on, parked domains begin to wake.  cause is what the logbook's boot entry will say. -/
def State.holdReset (cause : Nat) (s : State) : State :=
  let r : State := State.reset
  let t : State := { r with
    part := s.part, dieRev := s.dieRev, pending := s.pending, regs := s.regsKept, mem := s.mem, flash := s.flash, time := s.time, pins := s.pins
    pwr := { s.pwr with doms := s.pwr.doms.map PwrDom.afterReset }, free := s.free, ref := s.ref
    ecc := { r.ecc with marks := s.ecc.marks, factory := s.ecc.factory, repairs := s.ecc.repairs }
    anl := { r.anl with table := s.anlStored.table, started := s.anl.started }
    log := { r.log with hour := s.log.hour, second := s.log.second, cause, tot := [] }
    sec := { r.sec with anchors := s.sec.anchors, rollback := s.sec.rollback } }
  let t := t.setFlag R.SEC_STATE F.SEC_STATE_debug_open s.debugOpen
  let t := ((t.clearW1c R.REF_STATUS).clearW1c R.PWR_STATUS).clearW1c R.PWR_PARKED_ACCESS
  let t := (List.range 16).foldl (fun t v => if t.convPresent v then t.anlShow v else t) t
  [3, 4, 5, 6, 7, 8, 9].foldl (fun t d => (if t.domPhase d = 2 then t.setFld (R.PWR_DOM_STATE d) F.PWR_DOM_STATE_phase 0 else t).startWake d) t

/-- Start-up runs from enclave boot (R485, R36). -/
def State.bootAgain (s : State) : State := (s.noteTotal 4 1).setFld R.HIF_BOOT F.HIF_BOOT_hw_stage 2

/-- Start-up after RESET_N: memory repair (R438), then from enclave boot. -/
def State.startUp (s : State) : State := s.bootRepair.bootAgain

/-! ### PORESET_N -/

/-- The whole device reset (R10): the part, fuses and flash, the arrays' physical condition and the levels at the balls stay. -/
def State.powerReset (poresetN : Bool) (s : State) : State :=
  let r : State := State.reset
  let t : State := { r with
    part := s.part, dieRev := s.dieRev, pending := s.pending, flash := s.flash, free := s.free
    ecc := { r.ecc with marks := s.ecc.marks, factory := s.ecc.factory, repairs := s.ecc.repairs }
    pins := { s.pins with poresetN, aonAlarm := false, testEn := false }
    sec := { r.sec with anchors := s.sec.anchors, rollback := s.sec.rollback } }
  t

/-- PORESET_N_ASSERT. -/
def execPoresetNAssert (s : State) : Out := .next (s.powerReset false)

/-- PORESET_N_RELEASE (R22, R485): the grid and the start-up begin.  TEST_EN is sampled here alone (R489): the key store is erased in
either case, and with TEST_EN high start-up never comes, see execRootPllLocked. -/
def execPoresetNRelease (testEn : Bool) (s : State) : Out :=
  if s.pins.poresetN then .next s
  else
    let t := s.powerReset true
    .next ((List.range 16).foldl (fun t v => if t.convPresent v then t.anlShow v else t) { t with pins := { t.pins with testEn } })

/-- ROOT_PLL_LOCKED (R485 steps 2 and 3): CTL and SEC go to Run, memory repair is done.  A device that sampled TEST_EN high never starts up;
what it does in place of that the manual does not specify (R489). -/
def execRootPllLocked (s : State) : Out :=
  if s.pins.poresetN = false ∨ s.time.rootLocked ∨ s.time.rootLoss.isSome then .next s
  else if s.pins.testEn then .fault (.unspecified 489)
  else
    let s := { s with time := { s.time with rootLocked := true } }
    .next (if s.pins.resetN then (s.bootRepair).setFld R.HIF_BOOT F.HIF_BOOT_hw_stage 2 else s)

/-! ### RESET_N, HIF_SWRESET, PERST_N -/

/-- RESET_N_ASSERT (R79, Table HIF-9). -/
def execResetNAssert (s : State) : Out :=
  if s.pins.poresetN = false then .next s
  else
    let s := s.holdReset 1
    .next { s with pins := { s.pins with resetN := false } }

/-- RESET_N_RELEASE (R485): start-up from enclave boot, once the root is locked. -/
def execResetNRelease (s : State) : Out :=
  if s.pins.poresetN = false ∨ s.pins.resetN then .next s
  else
    let s := { s with pins := { s.pins with resetN := true } }
    .next (if s.time.rootLocked then s.startUp else s)

/-- A program resets the device (Table HIF-9): as RESET_N, asserted and released. -/
def State.swReset (s : State) : State :=
  if s.pins.poresetN && s.pins.resetN && s.time.rootLocked then (s.holdReset 1).startUp else s

/-- HIF_SWRESET. -/
def execHifSwreset (s : State) : Out := .next s.swReset

/-- The MSI-X table and the pending bits after a reset of the endpoint. -/
def State.msixReset (s : State) : State :=
  let s := forN 32 (fun v s => (((s.setReg (R.HIF_MSIX_ADDR_LO v) 0).setReg (R.HIF_MSIX_ADDR_HI v) 0).setReg (R.HIF_MSIX_DATA v) 0).setReg
    (R.HIF_MSIX_CTRL v) 1) s
  s.setReg R.HIF_MSIX_PBA 0

/-- PERST_N (Table HIF-9, R468): the endpoint alone is reset and trained again, on 1 or 2 lanes at a speed of 1 to 4, or stays down; msix and fnMask are what
host software then sets in its configuration space. -/
def execPerstN (up : Bool) (lanes : Fin 2) (speed : Fin 4) (msix fnMask : Bool) (s : State) : Out :=
  if s.hifServes = false then .next s
  else
    let s := s.msixReset
    let s := { s with hif := { s.hif with msixOn := up && msix, msixMask := fnMask } }
    let a := R.HIF_STATUS
    .next (((s.setFlag a F.HIF_STATUS_link_up up).setFld a F.HIF_STATUS_link_width (if up then lanes.val + 1 else 0)).setFld a
      F.HIF_STATUS_link_speed (if up then speed.val + 1 else 0))

/-! ### The root -/

/-- ROOT_PLL_LOSS (R36). -/
def execRootPllLoss (s : State) : Out :=
  if s.pins.poresetN = false ∨ s.time.rootLocked = false then .next s
  else
    let s := s.holdReset 2
    let s := { s with time := { s.time with rootLocked := false, rootLoss := some s.time.devtime }, pins := { s.pins with aonAlarm := true } }
    .next (s.setFlag R.REF_ROOT_LOSS F.REF_ROOT_LOSS_lost true)

/-- ROOT_RELOCK_RETRY (R36): a retry fails, or start-up runs from enclave boot; the loss is the first entry of the ledger. -/
def execRootRelockRetry (locked : Bool) (s : State) : Out :=
  match s.time.rootLoss with
  | none => .next s
  | some t =>
    if locked = false ∨ s.pins.poresetN = false then .next s
    else
      let s := { s with time := { s.time with rootLocked := true, rootLoss := none }, pins := { s.pins with aonAlarm := false } }
      let s := (s.noteTotal 8 1).logEvent 0x1C sevFault 0x0001 (evData [(8, t.toNat)])
      .next (if s.pins.resetN then s.bootAgain else s)

/-! ### The harbour manifest -/

/-- Core A starts at the harbour entry, core B becomes standby, resyncing (R62, R347, R348). -/
def State.releaseCores (s : State) : State :=
  let s := (s.startEntryCore .A 1 false).soleActive .A 1
  let s := { s with pilot := { s.pilot with ok := true } }
  (s.setFld R.HIF_BOOT F.HIF_BOOT_hw_stage 4).enterResync .B 0

/-- HARBOUR_MANIFEST_LOAD (R61, R62, R478, R485 step 5): the manifest that the directory's boot slot holds is checked and loaded into both cores, or start-up
halts with the code of Table HXS-14. -/
def execHarbourManifestLoad (s : State) : Out :=
  if s.fld R.HIF_BOOT F.HIF_BOOT_hw_stage ≠ 3 then .next s
  else match s.dirCopy with
    | none => .next (s.bootHalt 0x41)
    | some d =>
      let o := s.bootOffset d
      let code := s.mfCheck o o harbourSlotSize true
      if code ≠ 0 then .next ((s.bootHalt code).logEvent 0x15 sevFault 0x0009 (evData [(1, code)]))
      else
        let s := s.zeroMem 0 0x800000
        let s := ((s.loadHarbour .A o).loadHarbour .B o).rollbackRaise 1 0 (s.mf o 0x0C 4)
        let s := { s with boot := { entry := BitVec.ofNat 64 (s.mf o 0x14 4), harbour := some o, bank0 := none, bank1 := none }
                          berth := { active := false, loaded0 := none, loaded1 := none, swapReq := false } }
        .next s.releaseCores

end Sys2Proof.Machine
end

