-- ==== Sys2Proof/Machine/Plelis.lean ====
section
/-! DEFINITION. How a Plelis core executes one instruction (R38 to R55): when a core row runs at all, fetch, encoding and level checks, retirement,
faults and double faults; the regions a core's accesses reach; the operands of a memory access.  A row brings the instruction decoded: the word in
IMEM is fetched (and can fail, or be an illegal encoding); for the rest the instruction is the row's (DESIGN CHOICE: notes/assumptions/8.md). -/
namespace Sys2Proof.Machine

/-- What an instruction does: it retires and goes on or jumps, waits, raises a fault, raises a parked-access fault after the access has been counted (R400), or
meets an uncorrectable word. -/
inductive CoreRes where
  | next (s : State)
  | jump (target : W64) (s : State)
  | stall (w : CoreWait) (s : State)
  | fault (cause block detail : Nat) (faddr : W64)
  | parked (block : Nat) (faddr : W64) (s : State)
  | ecc (s : State)

/-- A fault of core k is taken (R55); while fh = 1 it is a double fault: the core halts, and CORE_FAULT_SIGNAL follows.  The issue slot of
the instruction that it discards is wasted (R452). -/
def State.coreFault (k : CoreId) (cause block detail : Nat) (faddr : W64) (s : State) : State :=
  if (s.core k).fh then s.modCore k (fun c => { c with run := .halted, wait := .none, wasted := c.wasted + 1 })
  else (s.modCore k (fun c => { c.takeFault cause block detail faddr with wasted := c.wasted + 1 })).pmcCount k 5 1

/-- An access fault at an address: FAULT[15:8] names the block whose window holds it (Table HXS-9). -/
def accessFault (a : W64) : CoreRes := .fault causeAccess ((blockOfAddr a.toNat).getD 0) 0 a

/-! ### Where a core's accesses go -/

/-- An address lies in the berth bank b of IMEM or DMEM, core-relative (Table HXS-2). -/
def inBank (b : Bool) (a : Nat) : Bool :=
  let lo := 0x100000 + 0x80000 * b2n b
  (lo ≤ a && a < lo + 0x80000) || (lo + 0x200000 ≤ a && a < lo + 0x280000)

/-- A core at a level may fetch from an address (R40, R62). -/
def State.fetchOk (s : State) (harbour : Bool) (a : Nat) : Bool := a < 0x200000 && (harbour || inBank s.berth.active a)

/-- A core at a level may load from an address (R38, R43, R48, R62). -/
def State.loadOk (s : State) (harbour : Bool) (a : Nat) : Bool :=
  if a < 0x400000 then
    harbour || (!(0x200000 ≤ a && a < 0x300000) && !inBank (!s.berth.active) a)
  else 0x01000000 ≤ a && a < 0x01C00000

/-- A core at a level may store to an address (R40). -/
def State.storeOk (s : State) (harbour : Bool) (a : Nat) : Bool := 0x200000 ≤ a && s.loadOk harbour a

/-- How many words of a span of a core's own local memory a read corrects (PMC event 14). -/
def State.correctable (s : State) (a n : Nat) : Nat :=
  (s.ecc.marks.filter (fun (m : EccMark) => m.region == 0 && m.kind != EccKind.uncorr && decide (a / 8 ≤ m.word ∧ m.word < (a + n + 7) / 8))).length

/-- A core reads n bytes at a core-relative address: whether they can be read, the bytes as a number, the state after the counts. -/
def State.coreRead (k : CoreId) (a n : Nat) (s : State) : Bool × Nat × State :=
  let d := coreAddr k a
  let fix := if a < 0x400000 then s.correctable d n else 0
  let (ok, s') := s.eccRead d n
  (ok, s.load d n, if fix = 0 then s' else s'.pmcCount k 14 fix)

/-! ### One instruction -/

/-- An instruction of core k (R44, R55): it does nothing unless the core runs and does not wait; the fetch, the encoding, then its body.  It retires,
waits, or raises the first fault found, which leaves no other effect. -/
def State.coreStep (k : CoreId) (wf : Bool) (body : PlelisCore → State → CoreRes) (s : State) : State :=
  let c := s.core k
  if c.run ≠ .running ∨ c.wait ≠ .none then s
  else if s.fetchOk c.harbour c.pc.toNat = false then s.coreFault k causeAccess ((blockOfAddr c.pc.toNat).getD 0) 0 c.pc
  else
    let (ok, w, s) := s.coreRead k c.pc.toNat 4
    if ok = false then s.modCore k (fun c => { c with run := .halted })
    else if (wf && legalWord (BitVec.ofNat 32 w)) = false then s.coreFault k causeIllegal 0 0 0
    else match body (s.core k) s with
      | .next s => s.retire k
      | .jump t s => (s.retireAt k t).pmcCount k 6 1
      | .stall w s => s.modCore k (fun c => { c with wait := w })
      | .fault cause block detail faddr => s.coreFault k cause block detail faddr
      | .parked block faddr s => s.coreFault k causeParked block 0 faddr
      | .ecc s => s.modCore k (fun c => { c with run := .halted })

/-- An instruction that computes rd from registers and retires. -/
def State.coreAlu (k : CoreId) (wf : Bool) (rd : BitVec 5) (f : PlelisCore → W64) (s : State) : State :=
  s.coreStep k wf (fun c s => .next (s.modCore k (fun c' => c'.setGpr rd (f c))))

/-- A branch (R47): a taken branch goes to a target relative to its own address. -/
def State.coreBranch (k : CoreId) (off : BitVec 16) (taken : PlelisCore → Bool) (s : State) : State :=
  s.coreStep k true (fun c s => if taken c then .jump (c.pc + (sext16 off <<< 2)) s else .next s)

/-- A load of n bytes, zero-extended (R47, R48). -/
def State.coreLoad (k : CoreId) (n : Nat) (rd ra : BitVec 5) (imm : BitVec 16) (s : State) : State :=
  s.coreStep k true (fun c s =>
    let a := c.ea ra imm
    if a.toNat % n ≠ 0 then .fault causeAlign 0 0 a
    else if s.loadOk c.harbour a.toNat = false then accessFault a
    else
      let (ok, v, s) := s.coreRead k a.toNat n
      if ok then .next (s.modCore k (fun c => c.setGpr rd (BitVec.ofNat 64 v))) else .ecc s)

/-- A store of the low n bytes (R40, R47, R48). -/
def State.coreSave (k : CoreId) (n : Nat) (rs ra : BitVec 5) (imm : BitVec 16) (s : State) : State :=
  s.coreStep k true (fun c s =>
    let a := c.ea ra imm
    if a.toNat % n ≠ 0 then .fault causeAlign 0 0 a
    else if s.storeOk c.harbour a.toNat = false then accessFault a
    else .next (s.coreStore k a.toNat n (c.gpr rs).toNat))

end Sys2Proof.Machine
end

