-- ==== Sys2Proof/Machine/System.lean ====
section
/-! DEFINITION. The system instructions of a core: SEND and tickets (R45, R50, R53, R69), fences (R73), COMMIT (R51), claims (R58, R59), special registers
(R41, R42, R504), TRAP, ERET, WFE, and the events that end a wait. -/
namespace Sys2Proof.Machine

/-! ### Commands and tickets -/

/-- The descriptor that 32 bytes spell (Table ENG-2). -/
def descOf (l : List Byte) : Desc := {
  opcode := leNat (l.take 2), flags := leNat ((l.drop 2).take 1), unit := leNat ((l.drop 3).take 1), epoch := leNat ((l.drop 4).take 2),
  level := leNat ((l.drop 6).take 1), rsvd := leNat ((l.drop 7).take 1), arg0 := leNat ((l.drop 8).take 8), arg1 := leNat ((l.drop 16).take 8),
  resultAddr := leNat ((l.drop 24).take 4), arg2 := leNat ((l.drop 28).take 4) }

/-- A queue's bit in queue_mask (R43, R80). -/
def State.queueMask (s : State) (q : Nat) : Bool :=
  match s.berthPerm with
  | some p => p.queueMask.getLsbD q
  | none => false

/-- The checks of a SEND in R50's order: the fault, none when the descriptor is posted. -/
def State.sendFault (s : State) (harbour : Bool) (q b : W64) : Option CoreRes :=
  if 64 ≤ q.toNat then some (.fault causeQueue 0 (q.toNat % 65536) 0)
  else if harbour = false ∧ s.queueMask q.toNat = false then some (.fault causeAccess 0 0 0)
  else if b.toNat % 32 ≠ 0 then some (.fault causeAlign 0 0 b)
  else if ¬(0x200000 ≤ b.toNat ∧ b.toNat < 0x400000) ∨ s.loadOk harbour b.toNat = false then some (accessFault b)
  else if (s.queue (Fin.ofNat 64 q.toNat)).depth = 0 then some (.fault causeQueue 0 q.toNat 0)
  else none

/-- SEND (R50): the descriptor is copied now; with no free entry it stalls. -/
def execSend (k : CoreId) (rd ra rb : BitVec 5) (s : State) : Out :=
  .next (s.coreStep k true (fun c s =>
    match s.sendFault c.harbour (c.gpr ra) (c.gpr rb) with
    | some f => f
    | none =>
      let q := Fin.ofNat 64 (c.gpr ra).toNat
      let a := (c.gpr rb).toNat
      let (ok, _, s) := s.coreRead k a 32
      if ok = false then .ecc s
      else
        let d := descOf (s.bytes (coreAddr k a) 32)
        if (s.queue q).entries.length < (s.queue q).depth then
          let (t, s) := s.accept k q d
          .next ((s.modCore k (fun c => c.setGpr rd (t.zeroExtend 64))).pmcCount k 3 1)
        else .stall (.send rd q.val d) s))

/-- WAITT (R45, R53). -/
def execWaitt (k : CoreId) (rd ra : BitVec 5) (imm : BitVec 16) (s : State) : Out :=
  .next (s.coreStep k true (fun c s =>
    let t : W32 := (c.gpr ra).truncate 32
    match s.waitResult t with
    | some r => .next (s.modCore k (fun c => c.setGpr rd (BitVec.ofNat 64 r)))
    | none =>
      if imm = 0 then .next (s.modCore k (fun c => c.setGpr rd 1))
      else .stall (.ticket rd t imm.toNat) s))

/-- WAITT_TICKET_DONE (R53): the ticket of a waiting WAITT has finished. -/
def execWaittTicketDone (k : CoreId) (s : State) : Out :=
  match (s.core k).wait with
  | .ticket rd t _ =>
    match s.waitResult t with
    | some r => .next ((s.modCore k (fun c => c.setGpr rd (BitVec.ofNat 64 r))).retire k)
    | none => .next s
  | _ => .next s

/-- WAITT_TIMEOUT (R53): the n-th commit point has come; a ticket that finished in the same cycle wins (R74). -/
def execWaittTimeout (k : CoreId) (s : State) : Out :=
  match (s.core k).wait with
  | .ticket rd t 0 => .next ((s.modCore k (fun c => c.setGpr rd (BitVec.ofNat 64 ((s.waitResult t).getD 1)))).retire k)
  | _ => .next s

/-- POLLT (R69): rb must be 0 (R44). -/
def execPollt (k : CoreId) (rd ra rb : BitVec 5) (s : State) : Out :=
  .next (s.coreAlu k (rb == 0) rd (fun c => BitVec.ofNat 64 (s.polltWord ((c.gpr ra).truncate 32))))

/-! ### Fences, COMMIT -/

/-- The register fields of FENCE.x, COMMIT and ERET must be 0 (Table HXS-7). -/
def noRegs (rd ra rb : BitVec 5) : Bool := rd == 0 && ra == 0 && rb == 0

/-- FENCE.R (R73): earlier LDX and STX of this core are complete, since it executes in order. -/
def execFenceR (k : CoreId) (rd ra rb : BitVec 5) (s : State) : Out := .next (s.coreStep k (noRegs rd ra rb) (fun _ s => .next s))

/-- FENCE.Q (R73): every earlier SEND of this core is complete, or it waits for that. -/
def execFenceQ (k : CoreId) (rd ra rb : BitVec 5) (s : State) : Out :=
  .next (s.coreStep k (noRegs rd ra rb) (fun _ s => if s.outstanding k then .stall .fenceQ s else .next s))

/-- FENCE.A (R73): as FENCE.R; earlier SENDs have been accepted, since a stalled one holds the core. -/
def execFenceA (k : CoreId) (rd ra rb : BitVec 5) (s : State) : Out := .next (s.coreStep k (noRegs rd ra rb) (fun _ s => .next s))

/-- COMMIT (R43, R51): FENCE.A, then the wait for the tide boundary at which it acts. -/
def execCommit (k : CoreId) (rd ra rb : BitVec 5) (s : State) : Out :=
  .next (s.coreStep k (noRegs rd ra rb) (fun c s => if c.harbour then .stall .commit s else .fault causePrivilege 0 0 0))

/-! ### Claims -/

/-- CLAIM (R58). -/
def execClaim (k : CoreId) (rd ra : BitVec 5) (imm : BitVec 16) (s : State) : Out :=
  .next (s.coreStep k (imm &&& 0x7FF0 == 0) (fun c s =>
    match s.judgeClaim c.harbour (c.gpr ra) imm with
    | .fault cause => .fault cause 0 0 0
    | .word w none => .next (s.modCore k (fun c => c.setGpr rd (BitVec.ofNat 64 w)))
    | .word w (some g) =>
      .next ((s.modCore k (fun c' => c'.setGpr rd (BitVec.ofNat 64 w))).grantClaim ((c.gpr ra).toNat % 256) g)))

/-- RELEASE (R58, R59). -/
def execRelease (k : CoreId) (rd ra : BitVec 5) (imm : BitVec 16) (s : State) : Out :=
  .next (s.coreStep k (rd == 0 && imm &&& 0x7FFF == 0) (fun c s =>
    let r := (c.gpr ra).toNat % 256
    match s.judgeRelease c.harbour (c.gpr ra) imm with
    | some cause => if cause = causeClaim then .fault cause (claimBlock r) r 0 else .fault cause 0 0 0
    | none => .next (s.releaseClaim r)))

/-! ### Special registers -/

/-- A number of Table HXS-3 or OBS-2 (R42). -/
def specialListed (n : Nat) : Bool := n ≤ 0x0B || (0x10 ≤ n && n ≤ 0x1F) || (0x20 ≤ n && n ≤ 0x25) || (0x28 ≤ n && n ≤ 0x2D) || n == 0x2F

/-- Special registers of type RO. -/
def specialRo (n : Nat) : Bool := n ≤ 3 || n == 9 || n == 10

/-- Special registers that berth level may not read (R41). -/
def specialPriv (n : Nat) : Bool := (4 ≤ n && n ≤ 6) || n == 8 || (0x10 ≤ n && n ≤ 0x1F)

/-- The value of a listed special register (Tables HXS-3, OBS-2). -/
def State.specialGet (s : State) (k : CoreId) (n : Nat) : W64 :=
  let c := s.core k
  if n < 0x10 then
    match n with
    | 0 => s.time.tide
    | 1 => s.time.tick
    | 2 => s.time.devtime
    | 3 => c.epoch.zeroExtend 64
    | 4 => c.fault.zeroExtend 64
    | 5 => c.faddr
    | 6 => c.epc
    | 7 => c.pstate.zeroExtend 64
    | 8 => c.tvec
    | 9 => BitVec.ofNat 64 k.block
    | 10 => BitVec.ofNat 64 (s.time.phase % 65536)
    | _ => c.event.zeroExtend 64
  else if n < 0x20 then c.scratch[Fin.ofNat 16 n]
  else if n < 0x28 then c.pmc[Fin.ofNat 6 (n - 0x20)]
  else if n = 0x2F then c.pmcOvf
  else c.pmcSel[Fin.ofNat 6 (n - 0x28)]

/-- Write a listed special register that is not RO (Tables HXS-3, HXS-4, OBS-2, R47, R504). -/
def PlelisCore.specialPut (n : Nat) (v : W64) (c : PlelisCore) : PlelisCore :=
  if n < 0x10 then
    match n with
    | 4 => { c with fault := v.truncate 32 }
    | 5 => { c with faddr := v }
    | 6 => { c with epc := v &&& ~~~3 }
    | 7 => { c with pstate := pstateWrite c.pstate v }
    | 8 => { c with tvec := v &&& ~~~63 }
    | 11 => c.writeEvent (v.truncate 8)
    | _ => c
  else if n < 0x20 then { c with scratch := c.scratch.set (Fin.ofNat 16 n) v }
  else if n < 0x28 then { c with pmc := c.pmc.set (Fin.ofNat 6 (n - 0x20)) (v &&& 0xFFFFFFFFFFFF) }
  else if n = 0x2F then { c with pmcOvf := c.pmcOvf &&& ~~~v }
  else { c with pmcSel := c.pmcSel.set (Fin.ofNat 6 (n - 0x28)) (v &&& 0xFF) }

/-- MFS (R41, R42). -/
def execMfs (k : CoreId) (rd ra : BitVec 5) (imm : BitVec 16) (s : State) : Out :=
  .next (s.coreStep k (ra == 0 && imm &&& 0xF000 == 0) (fun c s =>
    let n := imm.toNat
    if specialListed n = false then .fault causeIllegal 0 0 0
    else if c.harbour = false ∧ specialPriv n then .fault causePrivilege 0 0 0
    else .next (s.modCore k (fun c' => c'.setGpr rd (s.specialGet k n)))))

/-- MTS (R41, R42). -/
def execMts (k : CoreId) (rs ra : BitVec 5) (imm : BitVec 16) (s : State) : Out :=
  .next (s.coreStep k (ra == 0 && imm &&& 0xF000 == 0) (fun c s =>
    let n := imm.toNat
    if specialListed n = false ∨ specialRo n then .fault causeIllegal 0 0 0
    else if c.harbour = false ∧ n ≠ 0x0B then .fault causePrivilege 0 0 0
    else .next (s.modCore k (fun c' => c'.specialPut n (c.gpr rs)))))

/-! ### Faults and waiting -/

/-- TRAP (R55). -/
def execTrap (k : CoreId) (rd ra : BitVec 5) (imm : BitVec 16) (s : State) : Out :=
  .next (s.coreStep k (rd == 0 && ra == 0) (fun _ _ => .fault causeTrap 0 0 (imm.zeroExtend 64)))

/-- ERET (R43, Table HXS-7). -/
def execEret (k : CoreId) (rd ra rb : BitVec 5) (s : State) : Out :=
  .next (s.coreStep k (noRegs rd ra rb) (fun c s =>
    if c.harbour then .jump c.epc (s.modCore k (fun c => c.leaveFault)) else .fault causePrivilege 0 0 0))

/-- WFE (Table HXS-7, R504): with an enabled event set it goes on at once. -/
def execWfe (k : CoreId) (rd ra rb : BitVec 5) (s : State) : Out :=
  .next (s.coreStep k (ra == 0 && rb == 0) (fun c s =>
    if c.event &&& c.evmask = 0 then .stall (.wfe rd) s
    else .next (s.modCore k (fun c' => c'.setGpr rd (c.event.zeroExtend 64)))))

/-- WFE_WAKE (R504). -/
def execWfeWake (k : CoreId) (s : State) : Out :=
  let c := s.core k
  match c.wait with
  | .wfe rd =>
    if c.event &&& c.evmask = 0 then .next s
    else .next ((s.modCore k (fun c' => c'.setGpr rd (c.event.zeroExtend 64))).retire k)
  | _ => .next s

/-- OBSERVATION_INTERRUPT (R450, R451): taken between instructions; EPC holds the resume address. -/
def execObservationInterrupt (k : CoreId) (s : State) : Out :=
  let c := s.core k
  if c.obsIrq ∧ c.oie ∧ c.run = .running ∧ c.wait = .none then
    .next ((s.modCore k (fun c => { c with obsIrq := false })).coreFault k causeObs 0 0 0)
  else .next s

/-! ### The commit point -/

/-- Control ticks pass until TIDE_PHASE is p. -/
def State.advancePhase (p : Nat) (s : State) : State :=
  let d := p - s.time.phase
  let s := ({ s with time := { s.time with tick := s.time.tick + BitVec.ofNat 64 d, phase := s.time.phase + d } }).quietTicks d
  match s.active with
  | some k => (s.pmcCount k 1 d).slotTicks k d
  | none => s

/-- One more commit point has passed for a waiting WAITT. -/
def CoreWait.pass : CoreWait → CoreWait
  | .ticket rd t (n + 1) => .ticket rd t n
  | w => w

/-- COMMIT_POINT (R53, Table HXS-8): once in each tide, 4,352 ticks after its start and later by the tide's extension. -/
def execCommitPoint (s : State) : Out :=
  if s.time.commitPoint then .next s
  else
    let s := s.advancePhase (4352 + 9 * s.time.ext)
    let s := { s with time := { s.time with commitPoint := true } }
    let s := (s.modCore .A (fun c => { c with wait := c.wait.pass })).modCore .B (fun c => { c with wait := c.wait.pass })
    .next (s.eventAll 0)

end Sys2Proof.Machine
end

