-- ==== Sys2Proof/Machine/Access.lean ====
section
/-! DEFINITION. Register accesses: what a register reads as, holding registers (R6, R387), reads and writes by programs (R48, R49, R54, R341, R418, R491) and by
the host over PCIe and I2C (R5, R30, R31, R470 to R472), parked accesses (R400). -/
namespace Sys2Proof.Machine

/-! ### What a register reads as -/

/-- Whole seconds of a duration in DEVTIME units. -/
def secondsOf (d : W64) : Nat := d.toNat / 10000000000

/-- QCT_FILL_n. -/
def State.fillWord (s : State) (q : Fin 64) : W32 :=
  let x := s.queue q
  let e := x.firstWaiting
  let waking := match e with
    | some h => h.bad.isNone && (s.domState (entryDomain q h.desc) == 1 || s.domState (entryDomain q h.desc) == 2)
    | none => false
  let ordered := match e with
    | some e => e.desc.ordered && !x.startedEntries.isEmpty
    | none => false
  putBits F.QCT_FILL_ordered_wait (b2n ordered) (putBits F.QCT_FILL_waking (b2n waking) (BitVec.ofNat 32 x.entries.length))

/-- The level of GPIO ball n (R417, R491): driven by its function, else from outside. -/
def State.gpioLevel (s : State) (n : Nat) : Bool :=
  let a := R.GPIO_CTL n
  let outside := s.pins.gpio.getLsbD n
  match s.claimOf n with
  | none => outside
  | some c =>
    if c.func = 1 then s.pwmLevel n
    else if c.func = 0 ∧ s.flag a F.GPIO_CTL_oe then
      if s.flag a F.GPIO_CTL_out then (if s.flag a F.GPIO_CTL_od then outside else true) else false
    else outside

/-- PWR_DOM_STATE_d (Table PWR-1). -/
def State.domWord (s : State) (d : Nat) : W32 :=
  let p := if s.domState d = 3 then 0 else if s.domIdle d then 1 else s.domPhase d
  putBits F.PWR_DOM_STATE_phase p (putBits F.PWR_DOM_STATE_state (s.domState d) 0)

/-- Seconds since the first record of a client's active transmit epoch (CPH_CLIENT_STATUS_c.tx_age). -/
def State.txAge (s : State) (n : Nat) : Nat :=
  match s.activeSlot n 0 with
  | some (_, x) => if x.records = 0 then 0 else min 1023 (secondsOf (s.time.devtime - x.first))
  | none => 0

/-- A word of a mirror of a core's PMCs (Table OBS-6): offset 8n low, 8n + 4 high. -/
def PlelisCore.pmcWord (c : PlelisCore) (o : Nat) : W32 :=
  BitVec.ofNat 32 ((c.pmc[Fin.ofNat 6 (o / 8)]).toNat / 2 ^ (if o % 8 = 4 then 32 else 0))

/-- Seconds left of core A's wait to restore (PLT_WTR_REMAIN). -/
def State.wtrRemain (s : State) : Nat :=
  if s.flag R.PLT_STATUS F.PLT_STATUS_wtr_run then s.fld R.PLT_CFG F.PLT_CFG_wtr - secondsOf (s.time.devtime - s.pilot.wtrSince) else 0

/-- Some staged client or FlexE group configuration differs (CLM_CFG_STATUS.staged_diff). -/
def State.clmDiff (s : State) : Bool :=
  (List.range 128).any (fun n => s.stagedDiff (R.CLM_CLIENT_CFG n)) || (List.range 8).any (fun g => s.stagedDiff (R.CLM_FLEXE_GRP g))

/-- Seconds since a carrier's session was established (SEC_SESS_AGE_x). -/
def State.sessAge (s : State) (c : Carrier) : Nat :=
  match (s.secCar c).cur with
  | some x => secondsOf (s.time.devtime - x.since) % 2 ^ 32
  | none => 0

/-- Words that follow from other state in the windows of REF, PWR, MON, ANL and OBS. -/
def State.viewAon (s : State) (a : Nat) : Option W32 :=
  if a = R.REF_DEVTIME_LO then some (s.time.devtime.truncate 32)
  else if a = R.REF_DEVTIME_HI then some ((s.time.devtime >>> 32).truncate 32)
  else if a = R.REF_HOLD_REMAIN then some (BitVec.ofNat 32 s.refRemain)
  else if R.PWR_DOM_STATE 3 ≤ a ∧ a ≤ R.PWR_DOM_STATE 9 ∧ (a - R.PWR_DOM_STATE 0) % 16 = 0 then some (s.domWord ((a - R.PWR_DOM_STATE 0) / 16))
  else if a = R.MON_STATUS then some (s.firShow.stored a)
  else if R.ANL_CONV_TEMP 0 ≤ a ∧ a < R.ANL_CONV_TEMP 16 ∧ s.convPresent ((a - R.ANL_CONV_TEMP 0) / 16) = false then some 0
  else if a = R.OBS_SNAP_CTRL then some (BitVec.ofNat 32 (s.fld R.OBS_SNAP_STATUS F.OBS_SNAP_STATUS_held))
  else if R.OBS_PMC_A 0 ≤ a ∧ a < R.OBS_PMC_A 6 then some (s.coreA.pmcWord (a - R.OBS_PMC_A 0))
  else if R.OBS_PMC_B 0 ≤ a ∧ a < R.OBS_PMC_B 6 then some (s.coreB.pmcWord (a - R.OBS_PMC_B 0))
  else if a = R.LOG_STATE then some (putBits F.LOG_STATE_sec_wait (b2n (!s.log.staged.isEmpty && s.secStateCode != 1)) (s.stored a))
  else none

/-- Words that follow from other state in the windows of HIF and SEC. -/
def State.viewHif (s : State) (a : Nat) : Option W32 :=
  if a = R.HIF_DEVICE_ID then
    some (putBits F.HIF_DEVICE_ID_die_rev s.dieRev (putBits F.HIF_DEVICE_ID_part_code s.part.code (s.stored a)))
  else if a = R.HIF_PCI_ID then some (putBits F.HIF_PCI_ID_device (0xC740 + s.part.code) (s.stored a))
  else if a = R.HIF_STATUS_BOOT then some (BitVec.ofNat 32 (s.fld R.SEC_STATE F.SEC_STATE_fail_code))
  else if R.GPIO_CTL 0 ≤ a ∧ a < R.GPIO_CTL 16 then some (putBits F.GPIO_CTL_in (b2n (s.gpioLevel ((a - R.GPIO_CTL 0) / 4))) (s.stored a))
  else if a = R.SEC_STATE then some s.secStateWord
  else if R.SEC_FP 0 ≤ a ∧ a < R.SEC_FP 12 then some (BitVec.ofNat 32 (leNat ((idFp.drop (a - R.SEC_FP 0)).take 4)))
  else if R.SEC_ANCHOR 0 0 ≤ a ∧ a < R.SEC_ANCHOR 4 0 ∧ (a - R.SEC_ANCHOR 0 0) % 64 < 48 then
    some (BitVec.ofNat 32 ((s.sec.anchors[Fin.ofNat 4 ((a - R.SEC_ANCHOR 0 0) / 64)]).hash.toNat / 2 ^ (8 * ((a - R.SEC_ANCHOR 0 0) % 64))))
  else if a = R.SEC_SESS_AGE 0 then some (BitVec.ofNat 32 (s.sessAge .A))
  else if a = R.SEC_SESS_AGE 1 then some (BitVec.ofNat 32 (s.sessAge .B))
  else none

/-- Words that follow from other state in the remaining windows. -/
def State.viewOther (s : State) (a : Nat) : Option W32 :=
  if R.QCT_FILL 0 ≤ a ∧ a < R.QCT_FILL 64 then some (s.fillWord (Fin.ofNat 64 ((a - R.QCT_FILL 0) / 4)))
  else if a = R.PLT_WTR_REMAIN then some (BitVec.ofNat 32 s.wtrRemain)
  else if R.CPH_CLIENT_STATUS 0 ≤ a ∧ a < R.CPH_CLIENT_STATUS 128 then
    some (putBits F.CPH_CLIENT_STATUS_tx_age (s.txAge ((a - R.CPH_CLIENT_STATUS 0) / 4)) (s.stored a))
  else if a = R.CLM_CFG_STATUS then some (putBits F.CLM_CFG_STATUS_staged_diff (b2n s.clmDiff) (s.stored a))
  else if a = R.CAR_MODE_STATUS .A then some (putBits F.CAR_MODE_STATUS_staged_diff (b2n (s.stagedDiff (R.CAR_MODE .A))) (s.stored a))
  else if a = R.CAR_MODE_STATUS .B then some (putBits F.CAR_MODE_STATUS_staged_diff (b2n (s.stagedDiff (R.CAR_MODE .B))) (s.stored a))
  else none

/-- The word that the register at a shows, before any effect of reading it. -/
def State.view (s : State) (a : Nat) : W32 :=
  match if a < 0x16000000 ∨ 0x1B000000 ≤ a ∧ a < 0x1C000000 then s.viewOther a else if a < 0x1B000000 then s.viewAon a else s.viewHif a with
  | some v => v
  | none => s.stored a

/-- An address holds a register. -/
def isReg (a : Nat) : Bool := (famOf a).isSome || isCntHigh a

/-- The low word of a pair that a holding register serves: a 48-bit counter (R6), or a DEVTIME value or a seq read as DEVTIME is (R387). -/
def isPairLow (a : Nat) : Bool :=
  (match famOf a with
    | some (f, _) => f.cnt
    | none => false)
  || a == R.REF_DEVTIME_LO || a == R.PLT_LAST_TIME_LO || a == R.REF_PPS_TS_LO 0 || a == R.REF_PPS_TS_LO 1 || a == R.REF_PPS_TS_LO 2
  || a == R.REF_SF_MARK_A_LO || a == R.REF_SF_MARK_B_LO || a == R.REF_STEP || a == R.REF_ALIGN_STEP || a == R.LOG_NEXT_SEQ_LO
  || (decide (R.ANL_CONV_TIME_LO 0 ≤ a ∧ a < R.ANL_CONV_TIME_LO 16) && (a - R.ANL_CONV_TIME_LO 0) % 16 == 0)

/-- A requester's holding register. -/
def State.holding (s : State) : Requester → Holding
  | .host => s.hold.host
  | .core .A => s.hold.coreA
  | .core .B => s.hold.coreB

/-- Load a requester's holding register. -/
def State.setHolding (who : Requester) (h : Holding) (s : State) : State :=
  match who with
  | .host => { s with hold := { s.hold with host := h } }
  | .core .A => { s with hold := { s.hold with coreA := h } }
  | .core .B => { s with hold := { s.hold with coreB := h } }

/-- A register is read (R6, R8, R387): the word, and the state after the read's effects. -/
def State.readReg (who : Requester) (a : Nat) (s : State) : W32 × State :=
  if isPairLow a then (s.view a, s.setHolding who { pair := some a, high := s.view (a + 4) })
  else if 4 ≤ a ∧ isPairLow (a - 4) then
    (if (s.holding who).pair = some (a - 4) then (s.holding who).high else s.view a, s)
  else
    let m := rcMask (fieldsAt a)
    (s.view a, if m = 0 then s else s.setReg a (s.reg a &&& ~~~m))

/-- An absent carrier's region (R4). -/
def State.absentAt (s : State) (a : Nat) : Bool := !s.hasCarrier .B && inCarrier .B a

/-- The request and response areas of the enclave's mailbox (Table SEC-10). -/
def inSecMem (a : Nat) : Bool := 0x1F004000 ≤ a && a < 0x1F00C000

/-- What a channel's writer may write in the SEC window (R341): its request area, its CTRL, the W1C bits of its STATUS. -/
def secWritable (ch : Fin 2) (a : Nat) : Bool :=
  (secReq ch ≤ a && a < secReq ch + 0x2000) || a == R.SEC_CH_CTRL ch.val || a == R.SEC_CH_STATUS ch.val

/-! ### Writes that take effect -/

/-- The message of a vector that is no longer masked is sent (R482). -/
def State.msixFlush (v : Nat) (s : State) : State :=
  let p := s.reg R.HIF_MSIX_PBA
  if p.getLsbD v then (s.setReg R.HIF_MSIX_PBA (p &&& ~~~(BitVec.ofNat 32 (2 ^ v)))).msixSend v else s

/-- A word is written to a register that starts something; none where it is an ordinary one. -/
def State.writeSpecial (a : Nat) (v : W32) (s : State) : Option State :=
  if a = R.HIF_MBX_TAKE then some (s.mbxTake (v.toNat % 64))
  else if a = R.HIF_MBX_DONE then some (s.mbxDone (v.toNat % 64) (v.toNat / 256 % 256))
  else if a = R.HIF_SW_IRQ then some (s.swIrq v)
  else if a = R.HIF_SWRESET then some (if v.getLsbD 0 then s.swReset else s)
  else if R.HIF_FLASH_CMD ≤ a ∧ a < R.HIF_FLASH_DATA 64 ∧ a ≠ R.HIF_FLASH_STATUS then
    some (if s.recoveryOpen = false then s
          else if a = R.HIF_FLASH_CMD then
            let s := s.writeFields a (v &&& 3) (fieldsAt a)
            if v.getLsbD 31 then s.recoveryRun (v.toNat % 4) else s
          else s.writeFields a v (fieldsAt a))
  else if R.HIF_MSIX_ADDR_LO 0 ≤ a ∧ a < R.HIF_MSIX_ADDR_LO 32 then some ((s.writeFields a v (fieldsAt a)).msixFlush ((a - R.HIF_MSIX_ADDR_LO 0) / 16))
  else if R.MON_TRIG 0 ≤ a ∧ a < R.MON_TRIG 4 then
    let k := Fin.ofNat 4 ((a - R.MON_TRIG 0) / 4)
    let s := s.writeFields a v (fieldsAt a)
    let s := if v.getLsbD 24 then s.swReg k else s
    some (if v.getLsbD 25 then s.injTrigger k else s)
  else if a = R.OBS_SNAP_CTRL then
    let s := if v.getLsbD 0 then s.snapHold else s
    some (if v.getLsbD 1 then s.snapRelease else s)
  else if a = R.SEC_CH_CTRL 0 then some (if v.getLsbD 0 then s.secGo 0 else s)
  else if a = R.SEC_CH_CTRL 1 then some (if v.getLsbD 0 then s.secGo 1 else s)
  else if inSecMem a then some (s.store a 4 v.toNat)
  else none

/-- A word is written to the register at a: by field type (R7, R8), or it starts what the register starts. -/
def State.writeReg (a : Nat) (v : W32) (s : State) : State :=
  match s.writeSpecial a v with
  | some s => s
  | none => if isCntHigh a then s else s.writeFields a v (fieldsAt a)

/-- Only the W1C bits of a register are written (R470, R472). -/
def State.writeW1c (a : Nat) (v : W32) (s : State) : State := s.writeFields a v ((fieldsAt a).filter (fun f => f.ty == .w1c))

/-! ### Programs -/

/-- The level's holder in the claim table. -/
def levelHolder (harbour : Bool) : Holder := if harbour then .harbour else .berth

/-- The resource whose claim an STX to the register at a needs (R246, R418, R491). -/
def claimNeeded (a : Nat) : Option Nat :=
  match famOf a with
  | some (f, i) => f.claim.map (fun c => c.1 + i / c.2)
  | none => none

/-- An address lies in a berth's stx_window (R43). -/
def State.inStxWindow (s : State) (a : Nat) : Bool :=
  match s.berthPerm with
  | some p => p.stxWindow.any (fun w => decide (w.1 ≤ a ∧ a + 4 ≤ w.1 + w.2))
  | none => false

/-- The fault that a program's write meets before the power state is looked at (R5, R30, R43, R48, R341, R418); where it breaks two rules, R55 does not say
which cause it takes (DESIGN CHOICE: notes/assumptions/15.md). -/
def State.writeFault (s : State) (harbour : Bool) (a : W64) : Option CoreRes :=
  let n := a.toNat
  if n % 4 ≠ 0 then some (.fault causeAlign 0 0 a)
  else if s.absentAt n then none
  else match blockOfAddr n with
    | none => some (accessFault a)
    | some blk =>
      if blk = 0x15 ∧ (harbour = false ∨ secWritable 1 n = false) then some (accessFault a)
      else if blk ≠ 0x15 ∧ harbour = false ∧ s.inStxWindow n = false then some (accessFault a)
      else match claimNeeded n with
        | some r => if s.holds (levelHolder harbour) r then none else some (.fault causeClaim blk r a)
        | none => if isReg n || inSecMem n then none else some (accessFault a)

/-- A program's write that meets no fault (R4, R49, R400): the new state, or the parked-access fault. -/
def State.programWrite (k : CoreId) (a : W64) (v : W32) (s : State) : CoreRes :=
  let n := a.toNat
  let blk := (blockOfAddr n).getD 0
  let d := domainOfAddr n
  if s.absentAt n then .next s
  else if s.laidUp d then
    let t := s.parkedAccess d blk (some k) true
    if (s.core k).pae then .parked blk a t else .next t
  else .next ((s.accessTouch d blk).writeReg n v)

/-- STX (R48, R49, R54). -/
def execStx (k : CoreId) (rs ra : BitVec 5) (imm : BitVec 16) (s : State) : Out :=
  .next (s.coreStep k true (fun c s =>
    let a := c.ea ra imm
    match s.writeFault c.harbour a with
    | some f => f
    | none => match s.programWrite k a ((c.gpr rs).truncate 32) with
      | .next s => .next (s.pmcCount k 4 1)
      | r => r))

/-- The fault that a program's read meets (R5, R30, R48). -/
def State.readFault (s : State) (a : W64) : Option CoreRes :=
  let n := a.toNat
  if n % 4 ≠ 0 then some (.fault causeAlign 0 0 a)
  else if s.absentAt n then none
  else if (blockOfAddr n).isNone || !(isReg n || inSecMem n) then some (accessFault a)
  else none

/-- A read that meets no fault (R4, R49, R399, R400): the word, whether the block is laid up, the state. -/
def State.readWord (who : Requester) (a : Nat) (s : State) : W32 × Bool × State :=
  let blk := (blockOfAddr a).getD 0
  let d := domainOfAddr a
  let core := match who with
    | .host => none
    | .core k => some k
  if s.absentAt a then (0, false, s)
  else if inSecMem a then (BitVec.ofNat 32 (s.load a 4), false, s)
  else if s.laidUp d then (BitVec.ofNat 32 (0xBAD00000 + blk), true, s.parkedAccess d blk core false)
  else
    let (v, s) := (s.accessTouch d blk).readReg who a
    (v, false, s)

/-- LDX (R48, R49): the low 32 bits of rd. -/
def execLdx (k : CoreId) (rd ra : BitVec 5) (imm : BitVec 16) (s : State) : Out :=
  .next (s.coreStep k true (fun c s =>
    let a := c.ea ra imm
    match s.readFault a with
    | some f => f
    | none =>
      let (v, laid, s) := s.readWord (.core k) a.toNat
      if laid ∧ c.pae then .parked ((blockOfAddr a.toNat).getD 0) a s
      else .next ((s.modCore k (fun c => c.setGpr rd (v.zeroExtend 64))).pmcCount k 4 1)))

/-! ### The host -/

/-- A host read of one word over PCIe or I2C (R30, R31, R400, Table MEM-1): the word and the state. -/
def State.hostRead (i2c : Bool) (a : Nat) (s : State) : W32 × State :=
  if s.absentAt a then (0, s)
  else if a < 0x800000 ∨ (0x01000000 ≤ a ∧ a < 0x01C00000) then
    let (ok, t) := s.eccRead a 4
    if ok then (BitVec.ofNat 32 (s.load a 4), t) else (0xFFFFFFFF, t.hifErr errUncorr a i2c)
  else if 0x02000000 ≤ a ∧ a < 0x02200000 then (0, s.hifErr errRegion a i2c)
  else if (blockOfAddr a).isNone || !(isReg a || inSecMem a) then (0, s.hifErr errUnmapped a i2c)
  else
    let (v, _, t) := s.readWord .host a
    (v, t)

/-- A host write of one word over PCIe (R4, R30, R31, R341, R400, R470, R480). -/
def State.hostWrite (a : Nat) (v : W32) (s : State) : State :=
  if s.absentAt a then s
  else if mbxReq 0 ≤ a ∧ a < mbxReq 64 then s.mbxWrite false a v
  else if a < 0x800000 ∨ (0x01000000 ≤ a ∧ a < 0x01C00000) ∨ (0x02000000 ≤ a ∧ a < 0x02200000) then s.hifErr errRegion a false
  else match blockOfAddr a with
    | none => s.hifErr errUnmapped a false
    | some blk =>
      if blk = 0x15 then (if secWritable 0 a then s.writeReg a v else s.hifErr errRegion a false)
      else if isReg a = false then s.hifErr errUnmapped a false
      else if s.laidUp (domainOfAddr a) then s.parkedAccess (domainOfAddr a) blk none true
      else if R.HIF_FLASH_CMD ≤ a ∧ a < R.HIF_FLASH_DATA 64 ∧ s.recoveryOpen = false ∧ a ≠ R.HIF_FLASH_STATUS then s.hifErr errRegion a false
      else
        let s := s.accessTouch (domainOfAddr a) blk
        let fl := fieldsAt a
        if fl.any (·.hx) then
          let t := s.writeW1c a v
          if v ≠ 0 ∧ v &&& ~~~w1cMask fl = 0 then t else t.hifErr errHx a false
        else s.writeReg a v

/-- REGISTER_WRITE (R8, R469): by the host, one word with all its bytes or not, or by a program outside an STX of its own row. -/
def execRegisterWrite (who : Requester) (addr : BitVec 29) (value : W32) (whole : Bool) (s : State) : Out :=
  let a := addr.toNat
  match who with
  | .host =>
    .next (if s.hifServes = false then s
           else if a % 4 ≠ 0 ∨ whole = false then s.hifErr errWidth a false
           else s.hostWrite a value)
  | .core k =>
    let c := s.core k
    let w : W64 := addr.zeroExtend 64
    if c.run ≠ .running ∨ c.wait ≠ .none then .next s
    else .next (match (match s.writeFault c.harbour w with
        | some f => f
        | none => s.programWrite k w value) with
      | .next s => s
      | .fault cause block detail faddr => s.coreFault k cause block detail faddr
      | .parked block faddr s => s.coreFault k causeParked block 0 faddr
      | _ => s)

/-- HOST_REGISTER_READ (R5, R6, R30, R31, R469): one word over PCIe, with all its bytes or not; hif.reply is what it returns, nothing where HIF has stopped (R486). -/
def execHostRegisterRead (addr : BitVec 29) (whole : Bool) (s : State) : Out :=
  let a := addr.toNat
  if s.hifServes = false then .next { s with hif := { s.hif with reply := [] } }
  else
    let (v, s) := if a % 4 ≠ 0 ∨ whole = false then ((0xFFFFFFFF : W32), s.hifErr errWidth a false) else s.hostRead false a
    .next { s with hif := { s.hif with reply := [v] } }

/-! ### I2C (R471, R472) -/

/-- Table HIF-1. -/
def i2cReads (a : Nat) : Bool :=
  (0x01000000 ≤ a && a < 0x01010000) || (mbxReq 56 ≤ a && a < mbxReq 64) || (mbxResp 56 ≤ a && a < mbxResp 64)
    || (0x1C000000 ≤ a && a < 0x1C000010) || a == 0x1C000304 || a == 0x1C000320 || a == 0x1C000330 || a == 0x1C000340 || a == 0x1F000000

/-- The registers of Table HIF-1 whose W1C bits I2C may write. -/
def i2cW1c (a : Nat) : Bool := a == 0x1C000304 || a == 0x1C000320 || a == 0x1C000330 || a == 0x1C000340

/-- One word is written over I2C. -/
def State.i2cWrite (a : Nat) (v : W32) (s : State) : State :=
  if a % 4 ≠ 0 then s.hifErr errWidth a true
  else if mbxReq 0 ≤ a ∧ a < mbxReq 56 then
    let s := s.hifErr errI2cRange a true
    s.setReg R.HIF_ERR (s.reg R.HIF_ERR ||| BitVec.ofNat 32 (2 ^ errMbxPort))
  else if mbxReq 56 ≤ a ∧ a < mbxReq 64 then s.mbxWrite true a v
  else if i2cW1c a then s.writeW1c a v
  else s.hifErr errI2cRange a true

/-- The words of a write transaction, from an address on. -/
def State.i2cWords (a : Nat) (l : List Byte) (s : State) : State :=
  match l with
  | b0 :: b1 :: b2 :: b3 :: l => (s.i2cWrite a (BitVec.ofNat 32 (leNat [b0, b1, b2, b3]))).i2cWords (a + 4) l
  | [] => s
  | _ => s.hifErr errI2cPartial a true

/-- The device answers at a target address (R471, R486). -/
def State.i2cAcks (target : BitVec 7) (s : State) : Bool := s.hifServes && target.toNat == s.fld R.HIF_CFG F.HIF_CFG_i2c_addr

/-- I2C_WRITE_TRANSACTION (R471): the bytes after the target address, the 4-byte address first. -/
def execI2cWriteTransaction (target : BitVec 7) (bytes : List Byte) (s : State) : Out :=
  if s.i2cAcks target = false ∨ bytes.length < 4 then .next s
  else .next (s.i2cWords (beNat (bytes.take 4)) (bytes.drop 4))

/-- One word is read over I2C. -/
def State.i2cRead (a : Nat) (s : State) : W32 × State :=
  if a % 4 ≠ 0 then (0xFFFFFFFF, s.hifErr errWidth a true)
  else if i2cReads a then s.hostRead true a
  else (0, s.hifErr errI2cRange a true)

/-- n words from an address on. -/
def State.i2cReadWords : Nat → Nat → State → List W32 × State
  | 0, _, s => ([], s)
  | n + 1, a, s =>
    let (v, s) := s.i2cRead a
    let (l, s) := s.i2cReadWords n (a + 4)
    (v :: l, s)

/-- I2C_READ_TRANSACTION (R471, R472): hif.reply is what is returned, nothing where the device does not answer. -/
def execI2cReadTransaction (target : BitVec 7) (addr : W32) (words : Nat) (s : State) : Out :=
  if s.i2cAcks target = false then .next { s with hif := { s.hif with reply := [] } }
  else
    let (l, s) := s.i2cReadWords words addr.toNat
    .next { s with hif := { s.hif with reply := l } }

end Sys2Proof.Machine
end

