-- ==== Sys2Proof/Machine/Alu.lean ====
section
/-! DEFINITION. Arithmetic, logic, branches and jumps of a core (Table HXS-7, R44 to R47). -/
namespace Sys2Proof.Machine

/-- ADD. -/
def execAdd (k : CoreId) (rd ra rb : BitVec 5) (s : State) : Out := .next (s.coreAlu k true rd (fun c => c.gpr ra + c.gpr rb))
/-- SUB. -/
def execSub (k : CoreId) (rd ra rb : BitVec 5) (s : State) : Out := .next (s.coreAlu k true rd (fun c => c.gpr ra - c.gpr rb))
/-- AND. -/
def execAnd (k : CoreId) (rd ra rb : BitVec 5) (s : State) : Out := .next (s.coreAlu k true rd (fun c => c.gpr ra &&& c.gpr rb))
/-- OR. -/
def execOr (k : CoreId) (rd ra rb : BitVec 5) (s : State) : Out := .next (s.coreAlu k true rd (fun c => c.gpr ra ||| c.gpr rb))
/-- XOR. -/
def execXor (k : CoreId) (rd ra rb : BitVec 5) (s : State) : Out := .next (s.coreAlu k true rd (fun c => c.gpr ra ^^^ c.gpr rb))
/-- SHL: the shift count is rb[5:0]. -/
def execShl (k : CoreId) (rd ra rb : BitVec 5) (s : State) : Out :=
  .next (s.coreAlu k true rd (fun c => c.gpr ra <<< ((c.gpr rb).toNat % 64)))
/-- SHR: zero fill. -/
def execShr (k : CoreId) (rd ra rb : BitVec 5) (s : State) : Out :=
  .next (s.coreAlu k true rd (fun c => c.gpr ra >>> ((c.gpr rb).toNat % 64)))
/-- SAR: sign fill. -/
def execSar (k : CoreId) (rd ra rb : BitVec 5) (s : State) : Out :=
  .next (s.coreAlu k true rd (fun c => (c.gpr ra).sshiftRight ((c.gpr rb).toNat % 64)))
/-- MUL: the low 64 bits. -/
def execMul (k : CoreId) (rd ra rb : BitVec 5) (s : State) : Out := .next (s.coreAlu k true rd (fun c => c.gpr ra * c.gpr rb))
/-- MULH: the high 64 bits of the signed product. -/
def execMulh (k : CoreId) (rd ra rb : BitVec 5) (s : State) : Out :=
  .next (s.coreAlu k true rd (fun c => BitVec.ofInt 64 ((c.gpr ra).toInt * (c.gpr rb).toInt / 2 ^ 64)))
/-- CLZ: rb must be 0 (R44). -/
def execClz (k : CoreId) (rd ra rb : BitVec 5) (s : State) : Out :=
  .next (s.coreAlu k (rb == 0) rd (fun c => BitVec.ofNat 64 (clz64 (c.gpr ra))))
/-- MADDQ (R46): a limited sum sets the sticky sat. -/
def execMaddq (k : CoreId) (rd ra rb : BitVec 5) (s : State) : Out :=
  .next (s.coreStep k true (fun c s =>
    let r := maddq (c.gpr rd) (c.gpr ra) (c.gpr rb)
    .next (s.modCore k (fun c => ({ c with pstate := if r.2 then pstateSat c.pstate else c.pstate } : PlelisCore).setGpr rd r.1))))
/-- ADDI. -/
def execAddi (k : CoreId) (rd ra : BitVec 5) (imm : BitVec 16) (s : State) : Out :=
  .next (s.coreAlu k true rd (fun c => c.gpr ra + sext16 imm))
/-- LUI: ra must be 0 (R44). -/
def execLui (k : CoreId) (rd ra : BitVec 5) (imm : BitVec 16) (s : State) : Out :=
  .next (s.coreAlu k (ra == 0) rd (fun _ => sext16 imm <<< 16))

/-- BEQ. -/
def execBeq (k : CoreId) (ra rb : BitVec 5) (off : BitVec 16) (s : State) : Out :=
  .next (s.coreBranch k off (fun c => c.gpr ra == c.gpr rb))
/-- BNE. -/
def execBne (k : CoreId) (ra rb : BitVec 5) (off : BitVec 16) (s : State) : Out :=
  .next (s.coreBranch k off (fun c => c.gpr ra != c.gpr rb))
/-- BLT: signed. -/
def execBlt (k : CoreId) (ra rb : BitVec 5) (off : BitVec 16) (s : State) : Out :=
  .next (s.coreBranch k off (fun c => (c.gpr ra).slt (c.gpr rb)))
/-- BGE: signed. -/
def execBge (k : CoreId) (ra rb : BitVec 5) (off : BitVec 16) (s : State) : Out :=
  .next (s.coreBranch k off (fun c => !(c.gpr ra).slt (c.gpr rb)))
/-- BLTU: unsigned. -/
def execBltu (k : CoreId) (ra rb : BitVec 5) (off : BitVec 16) (s : State) : Out :=
  .next (s.coreBranch k off (fun c => (c.gpr ra).ult (c.gpr rb)))

/-- JAL: rd takes the return address. -/
def execJal (k : CoreId) (rd : BitVec 5) (off : BitVec 21) (s : State) : Out :=
  .next (s.coreStep k true (fun c s => .jump (c.pc + (off.signExtend 64 <<< 2)) (s.modCore k (fun c' => c'.setGpr rd (c.pc + 4)))))
/-- JR (R47): a misaligned target is an alignment fault at the jump, and rd is not written. -/
def execJr (k : CoreId) (rd ra : BitVec 5) (imm : BitVec 16) (s : State) : Out :=
  .next (s.coreStep k true (fun c s =>
    let t := c.ea ra imm
    if t.toNat % 4 ≠ 0 then .fault causeAlign 0 0 t else .jump t (s.modCore k (fun c' => c'.setGpr rd (c.pc + 4)))))

/-- LD.B. -/
def execLdB (k : CoreId) (rd ra : BitVec 5) (imm : BitVec 16) (s : State) : Out := .next (s.coreLoad k 1 rd ra imm)
/-- LD.H. -/
def execLdH (k : CoreId) (rd ra : BitVec 5) (imm : BitVec 16) (s : State) : Out := .next (s.coreLoad k 2 rd ra imm)
/-- LD.W. -/
def execLdW (k : CoreId) (rd ra : BitVec 5) (imm : BitVec 16) (s : State) : Out := .next (s.coreLoad k 4 rd ra imm)
/-- LD.D. -/
def execLdD (k : CoreId) (rd ra : BitVec 5) (imm : BitVec 16) (s : State) : Out := .next (s.coreLoad k 8 rd ra imm)
/-- ST.B. -/
def execStB (k : CoreId) (rs ra : BitVec 5) (imm : BitVec 16) (s : State) : Out := .next (s.coreSave k 1 rs ra imm)
/-- ST.H. -/
def execStH (k : CoreId) (rs ra : BitVec 5) (imm : BitVec 16) (s : State) : Out := .next (s.coreSave k 2 rs ra imm)
/-- ST.W. -/
def execStW (k : CoreId) (rs ra : BitVec 5) (imm : BitVec 16) (s : State) : Out := .next (s.coreSave k 4 rs ra imm)
/-- ST.D. -/
def execStD (k : CoreId) (rs ra : BitVec 5) (imm : BitVec 16) (s : State) : Out := .next (s.coreSave k 8 rs ra imm)

end Sys2Proof.Machine
end

