-- ==== Sys2Proof/Machine/Frm.lean ====
section
/-! DEFINITION. Line framing (FRM_x): transmit frames (R226 to R235), alignment (R236 to R239), received frames, defects and consequent actions (R241 to
R244), hitless changes (R95 to R101), overhead serial ports (R246 to R248), commands (R251). -/
namespace Sys2Proof.Machine

/-- The block and the queue of FRM_x (Tables ARC-1, ENG-1). -/
def frmId (c : Carrier) : Nat := carBlock c 5
def frmQ (c : Carrier) : Fin 64 := carQueue c 5

/-! ### Change messages -/

/-- The 16 bytes of a change message (Table FRM-4), most significant byte of a field first. -/
def ElwMsg.bytes (m : ElwMsg) : List Byte :=
  [BitVec.ofNat 8 m.typ, BitVec.ofNat 8 m.id] ++ beBytes 2 m.h64 ++ beBytes 2 m.target ++ [BitVec.ofNat 8 m.reason, BitVec.ofNat 8 m.buf] ++
  beBytes 4 m.mapCrc ++ [0, 0, 0, 0]

/-- A change message from its bytes; a reserved type reads as IDLE. -/
def elwOf (l : List Byte) : ElwMsg :=
  let f := fun (i n : Nat) => beNat ((l.drop i).take n)
  { typ := if f 0 1 ≤ 4 then f 0 1 else 0, id := f 1 1, h64 := f 2 2 % 512, target := f 4 2, reason := f 6 1 % 16, buf := f 7 1 % 2
    mapCrc := f 8 4 }

/-- Multiframe t is ahead of m, by how much (R93). -/
def mfAhead (t m : Nat) : Nat := (t + 65536 - m % 65536) % 65536

/-- The message of the initiator as it stands: PROPOSE, COMMIT or IDLE (R229). -/
def State.initOut (s : State) (c : Carrier) : ElwMsg :=
  match (s.frm c).change with
  | none => elwIdle
  | some x => if s.fld (R.FRM_ELW_STATUS c) F.FRM_ELW_STATUS_tx_state = 2 then { elwIdle with typ := 4, id := x.msg.id, target := x.msg.target } else x.msg

/-- The message of an answer: ACCEPT or REJECT. -/
def elwAnswer (id : Nat) (reason : Option Nat) : ElwMsg :=
  match reason with
  | none => { elwIdle with typ := 2, id }
  | some r => { elwIdle with typ := 3, id, reason := r }

/-- The responder answers (R97): ACCEPT, or REJECT with its reason; the answer goes into resp_msg and once as a hail burst (R95). -/
def State.elwRespond (c : Carrier) (m : ElwMsg) (reason : Option Nat) (s : State) : State :=
  let a := R.FRM_ELW_STATUS c
  let out := elwAnswer m.id reason
  let armed := s.fld a F.FRM_ELW_STATUS_rx_state == 3
  let s := (s.setFrm c { s.frm c with resp := out, prop := if armed then (s.frm c).prop else if reason.isNone then some m else none }).setFld a
    F.FRM_ELW_STATUS_last_id m.id
  let s := s.hailFrm c (if reason.isNone then 0x21 else 0x22) out.bytes
  match reason with
  | none => s.setFld a F.FRM_ELW_STATUS_rx_state 2
  | some r =>
    let s := if armed then s else s.setFld a F.FRM_ELW_STATUS_rx_state 0
    let s := (s.setFlag a F.FRM_ELW_STATUS_rejected true).setFld a F.FRM_ELW_STATUS_reason r
    s.logEvent (frmId c) sevWarn 0x0007 (evData [(1, m.id), (1, r)])

/-- The received copy of a map buffer (R230). -/
def State.rxBuf (s : State) (c : Carrier) (b : Nat) : List Byte := if b = 1 then (s.frm c).rxMap1 else (s.frm c).rxMap0

/-- The capacity with an entropy on the present symbol rate, base and code rate (R84). -/
def State.capAt (s : State) (c : Carrier) (h64 : Nat) : Nat := capacityOf (s.carRs8 c) (s.carBase c) (s.carRate c) h64

/-- The first check of Table LFR-7 that a PROPOSE fails.  Out of multiframe rx_mf reads 0, and reason 0x5 is judged against that (DESIGN CHOICE:
notes/assumptions/13.md). -/
def State.elwCheck (s : State) (c : Carrier) (m : ElwMsg) : Option Nat :=
  let cap := s.capAt c m.h64
  let ahead := mfAhead m.target (s.fld (R.FRM_MF_COUNT c) F.FRM_MF_COUNT_rx_mf)
  if entropyOk (s.carBase c) m.h64 = false ∨ cap = 0 then some 1
  else if s.fld (R.CRR_SNR_AVG c) F.CRR_SNR_AVG_snr_avg16 < s.thrAt c m.h64 + 5 * s.fld (R.FRM_ELW_CFG c) F.FRM_ELW_CFG_snr_margin then some 2
  else if mapWithin (mapBytes (s.rxBuf c m.buf)) cap = false then some 3
  else if s.fld (R.FRM_ELW_STATUS c) F.FRM_ELW_STATUS_rx_state = 3 then some 4
  else if ahead < 2 ∨ 32767 < ahead then some 5
  else none

/-- The message that a row of a hitless change acts on (R95): from the overhead, as last received, or the oldest hail burst of its types; a hail copy
that disagrees with the overhead on the change ID is not used. -/
def State.elwTake (s : State) (c : Carrier) (hail : Bool) (types : List Nat) (carried : ElwMsg) : Option (ElwMsg × List Byte) × State :=
  if hail then
    match (s.hail c).toFrm.find? (fun b => types.contains (hdrType b.header)) with
    | none => (none, s)
    | some b =>
      let s := s.setHail c { s.hail c with toFrm := (s.hail c).toFrm.erase b }
      let m := elwOf (b.payload.take 16)
      if carried.typ ≠ 0 ∧ carried.id ≠ m.id then (none, s) else (some (m, b.payload.drop 16), s)
  else (some (carried, []), s)

/-- A PROPOSE that the responder has answered, is judging or has broken off (R97, R101). -/
def State.elwKnown (s : State) (c : Carrier) (id : Nat) : Bool :=
  let x := s.frm c
  x.gone == some id || (x.resp.typ != 0 && x.resp.id == id) || x.prop.any (fun m => m.id == id)

/-- PROPOSE is received (R97, R231): a new one ends what the responder had before; once the map that it announces is held, the responder answers from
Table LFR-7 or awaits the program.  No event table gives the code of the event that asks the program: a free value. -/
def execElwProposeReceived (c : Carrier) (hail : Bool) (s : State) : Out :=
  let (r, s) := s.elwTake c hail [0x20] (s.frm c).initMsg
  match r with
  | none => .next s
  | some (m, copy) =>
    let s := if copy.length = 400 then
        s.setFrm c (if m.buf = 1 then { s.frm c with rxMap1 := normMap copy } else { s.frm c with rxMap0 := normMap copy })
      else s
    if m.typ ≠ 1 ∨ s.elwKnown c m.id then .next s
    else
    let s := if s.fld (R.FRM_ELW_STATUS c) F.FRM_ELW_STATUS_rx_state = 3 then s else s.elwRxEnd c
    if (crc32 (mapBytes (s.rxBuf c m.buf))).toNat ≠ m.mapCrc then .next s
    else match s.elwCheck c m with
      | some k => .next (s.elwRespond c m (some k))
      | none =>
        if s.flag (R.FRM_ELW_CFG c) F.FRM_ELW_CFG_auto_accept then .next (s.elwRespond c m none)
        else
          let a := R.FRM_ELW_STATUS c
          let s := (s.setFld a F.FRM_ELW_STATUS_rx_state 1).setFld a F.FRM_ELW_STATUS_last_id m.id
          .next ((s.setFrm c { s.frm c with prop := some m }).logOpen (frmId c) sevInfo)

/-- ACCEPT or REJECT of the current change is received by its initiator (R98). -/
def execElwAnswerReceived (c : Carrier) (hail : Bool) (s : State) : Out :=
  let (r, s) := s.elwTake c hail [0x21, 0x22] (s.frm c).respMsg
  match r, (s.frm c).change with
  | some (m, _), some x =>
    if s.fld (R.FRM_ELW_STATUS c) F.FRM_ELW_STATUS_tx_state ≠ 1 ∨ m.id ≠ x.msg.id then .next s
    else if m.typ = 2 then .next (s.setFrm c { s.frm c with change := some { x with accepted := true } })
    else if m.typ = 3 then .next (s.elwEnd c 2 m.reason)
    else .next s
  | _, _ => .next s

/-- The first frame of multiframe T − 1 (R98): the initiator enters the commit phase, or abandons. -/
def execElwCommitDeadline (c : Carrier) (s : State) : Out :=
  match (s.frm c).change with
  | none => .next s
  | some x =>
    let mf := s.fld (R.FRM_MF_COUNT c) F.FRM_MF_COUNT_tx_mf
    if s.fld (R.FRM_ELW_STATUS c) F.FRM_ELW_STATUS_tx_state ≠ 1 ∨ mfAhead x.msg.target mf ≠ 1 then .next s
    else if x.accepted then
      let s := s.setFld (R.FRM_ELW_STATUS c) F.FRM_ELW_STATUS_tx_state 2
      .next (s.hailFrm c 0x23 (s.initOut c).bytes)
    else .next (s.elwEnd c 1 0)

/-- COMMIT is received in multiframe T − 1 (R100): a responder that has accepted this change arms. -/
def execElwCommitReceived (c : Carrier) (hail : Bool) (s : State) : Out :=
  let (r, s) := s.elwTake c hail [0x23] (s.frm c).initMsg
  match r, (s.frm c).prop with
  | some (m, _), some p =>
    .next (if m.typ = 4 ∧ m.id = p.id ∧ m.target = p.target ∧ mfAhead p.target (s.fld (R.FRM_MF_COUNT c) F.FRM_MF_COUNT_rx_mf) = 1 ∧ s.fld (R.FRM_ELW_STATUS c) F.FRM_ELW_STATUS_rx_state = 2
      then s.setFld (R.FRM_ELW_STATUS c) F.FRM_ELW_STATUS_rx_state 3 else s)
  | _, _ => .next s

/-- The mf_count and MFAS of the next frame to be formed (R93, R303). -/
def State.nextFrame (s : State) (c : Carrier) : Nat := if (s.frm c).txStarted then (s.cphCar c).ftx + 1 else 0

/-- The framer is about to form frame 0 of multiframe T at the initiator (R99, R234): the new map is in force, the calendar restarts with the new entropy's D
and N, and every block that begins at or after this frame's first bit has the new entropy. -/
def execElwSwitch (c : Carrier) (s : State) : Out :=
  match (s.frm c).change with
  | none => .next s
  | some x =>
    if s.fld (R.FRM_ELW_STATUS c) F.FRM_ELW_STATUS_tx_state ≠ 2 ∨ x.mapDone ∨ s.nextFrame c % 256 ≠ 0 ∨
        s.nextFrame c / 256 % 65536 ≠ x.msg.target then .next s
    else
      let l := (s.tx c).line
      let s := s.setTx c { s.tx c with line := { l with entropy := (l.frames.length * frameBits, x.msg.h64) :: l.entropy } }
      let s := s.setFrm c { s.frm c with txSel := !(s.frm c).txSel, txAcc := 0, txSlot := 0, txH64 := x.msg.h64
                                         change := some { x with mapDone := true } }
      .next (s.setFld (R.CAR_MODE_STATUS c) F.CAR_MODE_STATUS_capacity (s.capAt c x.msg.h64)).cliShowAll

/-- The first FEC block that begins at or after the first bit of frame 0 of T at the initiator, which TxLine.blockStart finds, once that frame has been formed
(R99): the new entropy is in force, and the change is done. -/
def execElwEntropySwitchBlock (c : Carrier) (s : State) : Out :=
  match (s.frm c).change with
  | none => .next s
  | some x =>
    if x.mapDone = false ∨ ((s.tx c).line.entropy.head?.any (fun e => (s.tx c).line.frames.length * frameBits ≤ e.1)) then .next s
    else
      let a := R.FRM_ELW_STATUS c
      let s := (s.setEntropy c x.msg.h64).setFrm c { s.frm c with change := none }
      let s := (s.setFld a F.FRM_ELW_STATUS_tx_state 0).setFlag a F.FRM_ELW_STATUS_done true
      let s := s.logEvent (frmId c) sevInfo 0x0006 (evData [(1, x.msg.id), (1, 0), (2, x.msg.h64), (4, x.msg.target)])
      .next (s.endTicket x.ticket 0 0 x.first)

/-- Multiframe T at the responder (R100): an armed one switches its map and calendar, and its demapper and inverse matcher with the next block that reaches them
(R192; DESIGN CHOICE: notes/assumptions/13.md); one that accepted but is not armed keeps its configuration, sets missed_commit, counts the event, and
tries the accepted entropy first in the acquisition that follows. -/
def execElwResponderSwitch (c : Carrier) (s : State) : Out :=
  let a := R.FRM_ELW_STATUS c
  let st := s.fld a F.FRM_ELW_STATUS_rx_state
  match (s.frm c).prop with
  | none => .next s
  | some p =>
    if s.flag (R.FRM_STATE c) F.FRM_STATE_in_mf ∧ s.fld (R.FRM_MF_COUNT c) F.FRM_MF_COUNT_rx_mf ≠ p.target then .next s
    else if st = 3 then
      let s := (s.setFec c { s.fec c with next := some p.h64 }).setFrm c { s.frm c with rxH64 := p.h64, rxAcc := 0, rxSlot := 0, prop := none, resp := elwIdle }
      let s := (s.setFld a F.FRM_ELW_STATUS_rx_state 0).setFlag a F.FRM_ELW_STATUS_done true
      let s := (s.setFld (R.FRM_STATE c) F.FRM_STATE_map_sel_rx p.buf).setFld (R.CAR_MODE_STATUS c) F.CAR_MODE_STATUS_capacity (s.capAt c p.h64)
      .next ((s.logEvent (frmId c) sevInfo 0x0006 (evData [(1, p.id), (1, 1), (2, p.h64), (4, p.target)])).cliShowAll)
    else if st = 2 then
      let s := (s.setFld a F.FRM_ELW_STATUS_rx_state 0).setFlag a F.FRM_ELW_STATUS_missed_commit true
      .next (s.setFrm c { s.frm c with rxTry := some p.h64, prop := none, resp := elwIdle, missed := (s.frm c).missed + 1 })
    else .next s

/-! ### Commands -/

/-- FR_ELW_START (R96, R249, R501, Table FRM-9): refused, or PROPOSE is sent until the change is done or abandoned.  While TXP_x is not in SERVICE there is
no direction to change: 0x06 (DESIGN CHOICE: notes/assumptions/13.md). -/
def execFrElwStart (c : Carrier) (s : State) : Out :=
  .next (s.runCommand (frmQ c) 0x100 (fun d s =>
    let h64 := d.arg1 % 512
    let id := d.arg1 / 2 ^ 16 % 256
    let t := d.arg1 / 2 ^ 32 % 65536
    let m := normMap (s.bytes d.arg0 400)
    let mf := s.nextFrame c / 256 % 65536
    let a := R.FRM_ELW_STATUS c
    if d.unit ≠ 0xFF ∨ bufferOk d.arg0 400 = false then (some (0x02, 0, 0), s)
    else if entropyOk (s.carBase c) h64 = false ∨ s.capAt c h64 = 0 ∨ mapWithin m (s.capAt c h64) = false ∨ s.mapOk c m = false then
      (some (0x02, 0, 0), s)
    else if s.carFamily c ≠ 0 ∨ s.txState c ≠ 3 ∨ (s.frm c).change.isSome ∨ mfAhead t mf < 2 ∨ 32767 < mfAhead t mf then (some (0x06, 0, 0), s)
    else
      match s.startedOp (frmQ c) 0x100 with
      | none => (some (0x06, 0, 0), s)
      | some e =>
        let sel := (s.frm c).txSel
        let msg : ElwMsg := { typ := 1, id, h64, target := t, reason := 0, buf := if sel then 0 else 1, mapCrc := (crc32 (mapBytes m)).toNat }
        let x : ElwChange := { msg, first := mf, accepted := false, mapDone := false, ticket := e.ticket }
        let s := s.setFrm c (if sel then { s.frm c with change := some x, txMap0 := m } else { s.frm c with change := some x, txMap1 := m })
        let s := (s.setFld a F.FRM_ELW_STATUS_tx_state 1).setFld a F.FRM_ELW_STATUS_last_id id
        (none, s.hailFrm c 0x20 (msg.bytes ++ mapBytes m))))

/-- FR_ELW_ANSWER (Table FRM-9): it completes when resp_msg carries the answer, in the next transmit frame. -/
def execFrElwAnswer (c : Carrier) (s : State) : Out :=
  .next (s.runCommand (frmQ c) 0x101 (fun d s =>
    if d.unit ≠ 0xFF then (some (0x02, 0, 0), s)
    else match (s.frm c).prop with
    | some m =>
      if s.fld (R.FRM_ELW_STATUS c) F.FRM_ELW_STATUS_rx_state ≠ 1 ∨ m.id ≠ d.arg0 % 256 then (some (0x06, 0, 0), s)
      else (none, s.elwRespond c m (if d.arg0 / 256 % 2 = 1 then some 4 else none))
    | none => (some (0x06, 0, 0), s)))

/-- FR_CAPTURE_OH (Table FRM-9): the overhead of the next frame received in frame. -/
def execFrCaptureOh (c : Carrier) (s : State) : Out :=
  .next (s.runCommand (frmQ c) 0x102 (fun d s =>
    if d.unit ≠ 0xFF ∨ bufferOk d.arg0 4096 = false then (some (0x02, 0, 0), s)
    else if s.flag (R.FRM_DEFECT c) F.FRM_DEFECT_oof then (some (0x06, 0, 0), s)
    else (none, s)))

/-! ### Overhead serial ports -/

/-- A port. -/
def State.ospPort (s : State) (n : Nat) : OspPort := s.osp[Fin.ofNat 8 n]
def State.setOsp (n : Nat) (x : OspPort) (s : State) : State :=
  let s := { s with osp := s.osp.set (Fin.ofNat 8 n) x }
  (s.setFld (R.OSP_STATUS n) F.OSP_STATUS_rx_fill x.rxq.length).setFld (R.OSP_STATUS n) F.OSP_STATUS_ins_fill x.insq.length

/-- The channel a port carries: its claim's function, 0–3 MDC0–MDC3 of carrier A, 4–7 of carrier B (R57, R246). -/
def State.ospChan (s : State) (n : Nat) : Option Nat := (s.claimOf (0x18 + n)).map (·.func)

/-- The port that carries a channel. -/
def State.chanPort (s : State) (ch : Nat) : Option Nat := (List.range 8).find? (fun n => s.ospChan n == some ch)

/-- The carrier of a channel. -/
def chanCar (ch : Nat) : Carrier := if ch < 4 then .A else .B

/-- A window of a port (R247): the oldest received block goes out on OSP_TXD, a valid block on OSP_RXD enters the insertion queue or is dropped.  In an
interoperable family only valid = 0 passes (R249).  A port without a claim or not enabled holds its balls low (R246). -/
def execOspWindow (port : Fin 8) (valid : Bool) (data : List Byte) (s : State) : Out :=
  let n := port.val
  let x := s.ospPort n
  match s.ospChan n with
  | none => .next (s.setOsp n { x with txd := none })
  | some ch =>
    if s.flag (R.OSP_CFG n) F.OSP_CFG_enable = false then .next (s.setOsp n { x with txd := none })
    else
      let c := chanCar ch
      let none_ : Bool × List Byte := (false, List.replicate 8 0)
      if s.carFamily c ≠ 0 then .next (s.setOsp n { x with txd := some none_ })
      else
        let (out, rest) := match x.rxq with
          | [] => (none_, [])
          | b :: l => ((true, b), l)
        let full := decide (4 ≤ x.insq.length)
        let s := s.setOsp n { rxq := rest, insq := if valid && !full then x.insq ++ [data] else x.insq, txd := some out }
        .next (if valid && full then
            (s.setFlag (R.OSP_STATUS n) F.OSP_STATUS_ins_ovf true).logEvent (frmId c) sevWarn 0x0008 (evData [(1, n), (1, 1)])
          else s)

/-- The MDC bytes of a channel in the next transmit frame (R246, R248): the head block of its port's insertion queue, fill bytes, or 0x7E without a port. -/
def State.mdcOut (s : State) (ch : Nat) : List Byte :=
  match s.chanPort ch with
  | none => List.replicate 8 0x7E
  | some n => ((s.ospPort n).insq.head?).getD (List.replicate 8 (BitVec.ofNat 8 (s.fld (R.OSP_CFG n) F.OSP_CFG_fill)))

/-- A transmit frame takes the head block of each port's insertion queue (R248): its 32 MDC bytes. -/
def State.ospTake (c : Carrier) (s : State) : List Byte × State :=
  ((List.range 4).flatMap (fun i => s.mdcOut (4 * c.code + i)),
   (List.range 4).foldl (fun s i =>
    match s.chanPort (4 * c.code + i) with
    | some n => let x := s.ospPort n; if x.insq.isEmpty then s else s.setOsp n { x with insq := x.insq.drop 1 }
    | none => s) s)

/-- A received frame's MDC bytes enter the receive queues of the ports that carry the channels (R248). -/
def State.ospGive (c : Carrier) (mdc : List Byte) (s : State) : State :=
  (List.range 4).foldl (fun s i =>
    match s.chanPort (4 * c.code + i) with
    | some n =>
      let x := s.ospPort n
      if x.rxq.length < 4 then s.setOsp n { x with rxq := x.rxq ++ [(mdc.drop (8 * i)).take 8] }
      else (s.setFlag (R.OSP_STATUS n) F.OSP_STATUS_rx_ovf true).logEvent (frmId c) sevWarn 0x0008 (evData [(1, n), (1, 0)])
    | none => s) s

/-! ### Transmit frames -/

/-- The FAS of Table FRM-1. -/
def fasBytes : List Byte := [0xE5, 0x2B, 0x74, 0x9C, 0x1D, 0xF3]

/-- Bytes with their CRC-32 after them. -/
def withCrc (l : List Byte) : List Byte := l ++ beBytes 4 (crc32 l).toNat

/-- Page p of a berth map buffer (R230). -/
def mapPage (m : List Byte) (p : Nat) : List Byte := withCrc (((mapBytes m).drop (200 * p)).take 200 ++ List.replicate 20 0)

/-- A map with every slot at or above a capacity unassigned (R230). -/
def mapUpTo (cap : Nat) (m : List Byte) : List Byte := m.take cap

/-- The rate pointer of frame f (Table FRM-3), with the calendar at its first payload word. -/
def State.ratePointer (s : State) (c : Carrier) (f cap acc slot : Nat) : List Byte :=
  let x := s.frm c
  withCrc (beBytes 2 (f / 256 % 65536) ++ [BitVec.ofNat 8 (b2n x.txSel), 0] ++ beBytes 2 x.txH64 ++ beBytes 2 cap ++ beBytes 6 acc ++ beBytes 2 slot ++
    (s.initOut c).bytes ++ x.resp.bytes ++ List.replicate 12 0)

/-- The status bytes (Table FRM-2); BIP-8 enters as the frame is sent (TxFrame.overhead). -/
def State.statusBytes (s : State) (c : Carrier) : List Byte :=
  let d := R.FRM_DEFECT c
  [BitVec.ofNat 8 (128 * b2n (s.flag d F.FRM_DEFECT_bdi_tx) + 64 * b2n (s.flag d F.FRM_DEFECT_deg)), BitVec.ofNat 8 (s.frm c).bei] ++ List.replicate 46 0

/-- The overhead of frame f up to the reserved bytes (Table FRM-1).  A buffer that awaits its change is sent up to the capacity of the change. -/
def State.formOverhead (s : State) (c : Carrier) (f cap acc slot : Nat) (mdc : List Byte) : List Byte :=
  let x := s.frm c
  let capOf := fun (sel : Bool) => if x.txSel = sel then cap else match x.change with
    | some y => s.capAt c y.msg.h64
    | none => cap
  fasBytes ++ [BitVec.ofNat 8 f] ++ List.replicate 9 0 ++ s.statusBytes c ++ s.ratePointer c f cap acc slot ++
    mapPage (mapUpTo (capOf false) x.txMap0) (f % 2) ++ mapPage (mapUpTo (capOf true) x.txMap1) (f % 2) ++ mdc

/-- A frame of an interoperable family (R249): the agreement's framing has no UZF overhead, calendar, map or tags; the committed set and BDI act as in any frame. -/
def State.iopTxFrame (c : Carrier) (s : State) : State :=
  let s := s.applyBoundary .frmTx c
  ((s.setFlag (R.FRM_DEFECT c) F.FRM_DEFECT_bdi_tx (s.bdiDue c)).armBoundary (frmQ c)).releaseWaiters

/-- A transmit frame is formed (R93, R226, R234, R243, R248, R297): the frame is numbered, FRM_x's pending set applies at it (R54), BDI follows the
conditions, MDC bytes and client units are taken, an FR_ELW_ANSWER whose answer it carries completes; after an engine fault the overhead sent is the last
good one (R244).  The frame joins the line (R92) with the tags of the records before it (R232, R302); the words of ciphered clients carry filler until CPH has
their records (R309). -/
def execFrmTxFrame (c : Carrier) (s : State) : Out :=
  if s.txState c ≠ 3 then .next s
  else if s.carFamily c ≠ 0 then .next (s.iopTxFrame c)
  else
    let s := s.applyBoundary .frmTx c
    let f := s.nextFrame c
    let x := s.frm c
    let s := (s.setFrm c { x with txStarted := true }).setCphCar c { s.cphCar c with ftx := f }
    let s := s.setFld (R.FRM_MF_COUNT c) F.FRM_MF_COUNT_tx_mf (f / 256 % 65536)
    let cap := s.capAt c x.txH64
    let d := calD (s.carRate c) cap
    let n := calN (s.carRs8 c) (s.carBase c) (s.carRate c) x.txH64
    let (k, acc) := calFrame d n x.txAcc
    let s := s.setFrm c { s.frm c with txAcc := acc, txSlot := if cap = 0 then 0 else (x.txSlot + k) % cap, answer := none }
    let (mdc, s) := (s.setFlag (R.FRM_DEFECT c) F.FRM_DEFECT_bdi_tx (s.bdiDue c)).ospTake c
    let oh := if x.fault then x.lastOh else s.formOverhead c f cap x.txAcc x.txSlot mdc
    let frame : TxFrame := { oh, tags := (s.cphCar c).tags, d, n, cap, acc := x.txAcc, slot := x.txSlot, map := s.txMap c, client := [] }
    let (frame, s) := s.fillFrame (f % 256 == 0) (f % 256 == 255) frame
    let s := s.setCphCar c { s.cphCar c with tags := [] }
    let l := (s.tx c).line
    let s := (s.setFrm c { s.frm c with lastOh := oh }).setTx c { s.tx c with line := { l with frames := frame :: l.frames } }
    let s := s.cphFrameBoundary c
    let s := s.completeOp (frmQ c) 0x101 0 0 0
    .next ((s.armBoundary (frmQ c)).releaseWaiters)

/-! ### Receive alignment -/

/-- The deframer is in service: RXF_x in SERVICE, no engine fault. -/
def State.frmLive (s : State) (c : Carrier) : Bool := s.fld (R.RXF_STATE c) F.RXF_STATE_state == 3 && !(s.frm c).fault

/-- The open candidates are shown. -/
def State.setCands (c : Carrier) (l : List (Nat × Nat)) (s : State) : State :=
  (s.setFrm c { s.frm c with cands := l }).setFld (R.FRM_STATE c) F.FRM_STATE_candidates l.length

/-- In frame is declared (R236). -/
def State.frmIf (c : Carrier) (s : State) : State :=
  let s := (s.setCands c []).setFlag (R.FRM_STATE c) F.FRM_STATE_in_frame true
  let s := s.setFlag (R.FRM_DEFECT c) F.FRM_DEFECT_oof false
  let s := s.setFrm c { s.frm c with badFas := 0, rxMfas := none, goodMf := 0, badMf := 0, oofFrames := 0, mfWhole := false, bipSum := 0, badBlocks := 0, rxPar := none }
  s.frmActs c true

/-- What the berths of a carrier received is lost: records that await their tags, words on their way to the egress; block boundaries are found again at a multiframe
(R259). -/
def State.rxLost (c : Carrier) (s : State) : State :=
  let s := s.setCphCar c { s.cphCar c with rxRec := [], due := [] }
  ((List.range 128).filter (fun n => decide (s.cliCar n = c))).foldl (fun s n => s.setClient n { s.client n with rx := [], rxPos := none }) s

/-- Out of multiframe is declared (R238): rx_mf reads 0, the calendar stops. -/
def State.frmOom (c : Carrier) (s : State) : State :=
  let s := s.rxLost c
  let s := (s.setFlag (R.FRM_STATE c) F.FRM_STATE_in_mf false).setFlag (R.FRM_STATE c) F.FRM_STATE_cal_run false
  let s := (s.setFlag (R.FRM_DEFECT c) F.FRM_DEFECT_oom true).setFld (R.FRM_MF_COUNT c) F.FRM_MF_COUNT_rx_mf 0
  (s.setFrm c { s.frm c with goodMf := 0, badMf := 0, mfWhole := false, calMis := false }).frmActs c false

/-- Out of frame is declared, and with it out of multiframe (R237, R238). -/
def State.frmOof (c : Carrier) (s : State) : State :=
  let s := (s.setFlag (R.FRM_STATE c) F.FRM_STATE_in_frame false).setFlag (R.FRM_DEFECT c) F.FRM_DEFECT_oof true
  let s := (s.addCnt (R.FRM_OOF_CNT c) 1).setFrm c { s.frm c with badFas := 0, cands := [], oofFrames := 0, bei := 0, rxPar := none }
  s.frmOom c

/-- Out of frame, the position pos of the bit stream, modulo the frame, does or does not match the FAS (R236). -/
def execFrmFasSearchMatch (c : Carrier) (pos : Nat) (isMatch : Bool) (s : State) : Out :=
  if s.frmLive c = false ∨ s.carFamily c ≠ 0 ∨ s.flag (R.FRM_STATE c) F.FRM_STATE_in_frame then .next s
  else
    let l := (s.frm c).cands
    match l.lookup pos with
    | some n =>
      if isMatch = false then .next (s.setCands c (l.filter (fun p => p.1 != pos)))
      else if 3 ≤ n + 1 then .next (s.frmIf c)
      else .next (s.setCands c (l.map (fun p => if p.1 == pos then (pos, n + 1) else p)))
    | none =>
      if isMatch = false then .next s
      else if l.length < 4 then .next (s.setCands c (l ++ [(pos, 1)]))
      else .next (s.addCnt (R.FRM_CAND_FULL_CNT c) 1)

/-! ### Received frames -/

/-- A field of the overhead, most significant byte first. -/
def ohField (oh : List Byte) (i n : Nat) : Nat := beNat ((oh.drop i).take n)

/-- The MFAS of an in-frame frame (R238): two increments in a row declare IM, five unexpected values in a row end it. -/
def State.frmMfas (c : Carrier) (mfas : Nat) (s : State) : State :=
  let x := s.frm c
  match x.rxMfas with
  | none => s.setFrm c { x with rxMfas := some mfas }
  | some m =>
    let expect := (m + 1) % 256
    if s.flag (R.FRM_STATE c) F.FRM_STATE_in_mf then
      if mfas = expect then s.setFrm c { x with rxMfas := some mfas, badMf := 0 }
      else if 5 ≤ x.badMf + 1 then (s.setFrm c { x with rxMfas := some mfas }).frmOom c
      else s.setFrm c { x with rxMfas := some expect, badMf := x.badMf + 1 }
    else if mfas = expect then
      let s := s.setFrm c { x with rxMfas := some mfas, goodMf := x.goodMf + 1, badMf := 0 }
      if 2 ≤ x.goodMf + 1 then
        ((s.setFlag (R.FRM_STATE c) F.FRM_STATE_in_mf true).setFlag (R.FRM_DEFECT c) F.FRM_DEFECT_oom false).frmActs c true
      else s
    else s.setFrm c { x with rxMfas := some mfas, goodMf := 0 }

/-- The berth map pages of a frame (R230): a page whose CRC passes replaces the copy of its half of its buffer. -/
def putPage (old page : List Byte) (p : Nat) : List Byte :=
  if crc32 (page.take 220) = BitVec.ofNat 32 (beNat (page.drop 220)) then
    let o := mapBytes old
    if p = 0 then page.take 200 ++ o.drop 200 else o.take 200 ++ page.take 200
  else old

/-- The rate pointer of a frame (R228, R235): one that fails its CRC is counted; a good one gives mf_count, the map in force, the change messages and
the calendar, and a disagreement with the local calendar is adopted and counted. -/
def State.frmRatePtr (c : Carrier) (oh : List Byte) (s : State) : State :=
  let rp := (oh.drop 0x40).take 60
  let x := s.frm c
  let s := s.setFrm c { x with calMis := false }
  if crc32 rp ≠ BitVec.ofNat 32 (ohField oh 0x7C 4) then
    (s.addCnt (R.FRM_RP_ERR_CNT c) 1).setFlag (R.FRM_STATUS c) F.FRM_STATUS_rp_err true
  else
    let acc := ohField oh 0x48 6
    let slot := ohField oh 0x4E 2
    let im := s.flag (R.FRM_STATE c) F.FRM_STATE_in_mf
    let run := s.flag (R.FRM_STATE c) F.FRM_STATE_cal_run
    let mis := run && (acc != x.rxAcc || slot != x.rxSlot)
    let sel := ohField oh 0x42 1 % 2
    let moved := decide (s.fld (R.FRM_STATE c) F.FRM_STATE_map_sel_rx ≠ sel)
    let s := (s.setFld (R.FRM_STATE c) F.FRM_STATE_map_sel_rx sel).setFld (R.FRM_MF_COUNT c) F.FRM_MF_COUNT_rx_mf
      (if im then ohField oh 0x40 2 else 0)
    let s := s.setFrm c { s.frm c with rxAcc := acc, rxSlot := slot, calMis := mis, initMsg := elwOf ((oh.drop 0x50).take 16)
                                       respMsg := elwOf ((oh.drop 0x60).take 16) }
    let s := if im then s.setFlag (R.FRM_STATE c) F.FRM_STATE_cal_run true else s
    let s := if mis then (s.addCnt (R.FRM_CAL_ERR_CNT c) 1).setFlag (R.FRM_STATUS c) F.FRM_STATUS_cal_err true else s
    let st := s.fld (R.FRM_ELW_STATUS c) F.FRM_ELW_STATUS_rx_state
    let m := (s.frm c).initMsg
    let ended := x.initMsg.typ ≠ 0 ∧ (m.typ = 0 ∨ (m.typ = 1 ∧ m.id ≠ x.initMsg.id))
    let s := if ended ∧ st ≠ 3 then s.elwRxEnd c else s
    let s := if (s.frm c).gone = some m.id ∧ m.typ ≠ 0 then s else s.setFrm c { s.frm c with gone := none }
    if moved then s.cliShowAll else s

/-- The local calendar moves to the next frame's first payload word (R235). -/
def State.frmRxCal (c : Carrier) (s : State) : State :=
  let x := s.frm c
  let cap := s.capAt c x.rxH64
  let (k, acc) := calFrame (calD (s.carRate c) cap) (calN (s.carRs8 c) (s.carBase c) (s.carRate c) x.rxH64) x.rxAcc
  s.setFrm c { x with rxAcc := acc, rxSlot := if cap = 0 then 0 else (x.rxSlot + k) % cap }

/-- BDI, BSD and BEI of a frame (R242). -/
def State.frmStatusBytes (c : Carrier) (oh : List Byte) (s : State) : State :=
  let b := ohField oh 0x10 1
  let bei := ohField oh 0x11 1 % 16
  let x := s.frm c
  let up := fun (on : Bool) (n : Nat) => if on then n + 1 else 0
  let bdi := 128 ≤ b
  let bsd := b / 64 % 2 == 1
  let x' := { x with bdiRun := up bdi x.bdiRun, bdiClr := up (!bdi) x.bdiClr, bsdRun := up bsd x.bsdRun, bsdClr := up (!bsd) x.bsdClr }
  let s := s.setFrm c x'
  let s := if bei = 0 ∨ 8 < bei then s else s.addCnt (R.FRM_BEI_CNT c) bei
  let a := R.FRM_DEFECT c
  let s := if 5 ≤ x'.bdiRun ∧ s.flag a F.FRM_DEFECT_bdi_far = false then
      ((s.setFlag a F.FRM_DEFECT_bdi_far true).setFlag (R.FRM_STATUS c) F.FRM_STATUS_bdi_seen true).logEvent (frmId c) sevWarn 0x0005 []
    else if 5 ≤ x'.bdiClr then s.setFlag a F.FRM_DEFECT_bdi_far false else s
  if 5 ≤ x'.bsdRun then s.setFlag a F.FRM_DEFECT_bsd_far true
  else if 5 ≤ x'.bsdClr then s.setFlag a F.FRM_DEFECT_bsd_far false else s

/-- A multiframe ends (R241): wholly in IM, it counts as degraded or clean, and dDEG is judged. -/
def State.frmDegrade (c : Carrier) (s : State) : State :=
  let x := s.frm c
  let degraded := decide (0 < x.badBlocks) || decide (s.fld (R.FRM_CFG c) F.FRM_CFG_deg_thr ≤ x.bipSum)
  let m := s.fld (R.FRM_CFG c) F.FRM_CFG_deg_m
  let a := R.FRM_DEFECT c
  let deg := if degraded then x.degRun + 1 else 0
  let clean := if degraded then 0 else x.cleanRun + 1
  let s := s.setFrm c { x with degRun := deg, cleanRun := clean }
  if m ≤ deg ∧ s.flag a F.FRM_DEFECT_deg = false then
    let s := (s.setFlag a F.FRM_DEFECT_deg true).setFlag (R.FRM_STATUS c) F.FRM_STATUS_deg_seen true
    (s.logEvent (frmId c) sevWarn 0x0004 (evData [(4, x.bipSum), (4, x.badBlocks)])).frmActs c false
  else if m ≤ clean ∧ s.flag a F.FRM_DEFECT_deg then (s.setFlag a F.FRM_DEFECT_deg false).frmActs c true
  else s

/-- A frame's errors enter its multiframe (R241): a multiframe counts only when every frame of it, from MFAS 0 to 255, was in IM. -/
def State.frmErrors (c : Carrier) (mfas bip bad : Nat) (s : State) : State :=
  let im := s.flag (R.FRM_STATE c) F.FRM_STATE_in_mf
  let x := s.frm c
  let s := s.setFrm c (if mfas = 0 then { x with mfWhole := im, bipSum := bip, badBlocks := bad }
    else { x with mfWhole := x.mfWhole && im, bipSum := x.bipSum + bip, badBlocks := x.badBlocks + bad })
  if mfas = 255 ∧ (s.frm c).mfWhole then s.frmDegrade c else s

/-- The captures of the overhead that waited for a frame complete (Table FRM-9).  How result0 packs mf_count and MFAS is not said: a free value. -/
def State.frmCapturesDue (c : Carrier) (oh : List Byte) : Nat → State → State
  | 0, s => s
  | n + 1, s =>
    match s.startedOp (frmQ c) 0x102 with
    | some e =>
      let (w, s) := s.draw
      ((s.setBytes e.desc.arg0 oh).complete e 0 w.toNat 0).frmCapturesDue c oh n
    | none => s

/-- Its FAS has failed, if it has, for fewer than five frames in a row: how many. -/
def State.frmFasRun (s : State) (c : Carrier) (oh : List Byte) : Nat := if oh.take 6 != fasBytes then (s.frm c).badFas + 1 else 0

/-- The slot words of a received payload (R234, R235, R258): by the calendar as adopted and the received map in force, once the calendar runs. -/
def State.rxPayload (s : State) (c : Carrier) (payload : List Byte) (marked : List (Fin 16256)) : List (Nat × RxWord) :=
  let x := s.frm c
  let cap := s.capAt c x.rxH64
  if s.flag (R.FRM_STATE c) F.FRM_STATE_cal_run then
    payloadOf (calD (s.carRate c) cap) (calN (s.carRs8 c) (s.carBase c) (s.carRate c) x.rxH64) cap (s.rxMap c) marked 16256 0 x.rxAcc x.rxSlot payload
  else []

/-- The client content of a received frame: words of clients in clear go to CLM, records wait for their tags, which the next frame brings (R232, R302, R310). -/
def State.frmClients (c : Carrier) (oh payload : List Byte) (marked : List (Fin 16256)) (mf : Bool) (s : State) : State :=
  let l := s.rxPayload c payload marked
  (s.cphRecords c (oh.drop 0x460) l (s.capAt c (s.frm c).rxH64) mf).clearWords c l mf

/-- A frame received in frame (R237 to R243): it is counted, its overhead, descrambled, is used: MFAS, rate pointer, berth-map pages, status bytes, MDC
bytes; the cipher, the client content, the error counts, the calendar and the consequent actions follow. -/
def State.frmFrameIn (c : Carrier) (oh payload : List Byte) (marked : List (Fin 16256)) (bip bad : Nat) (s : State) : State :=
  let s := (s.setFrm c { s.frm c with badFas := s.frmFasRun c oh }).addCnt (R.FRM_FRAME_CNT c) 1
  let mfas := ohField oh 6 1
  let s := s.frmMfas c mfas
  let s := if bip = 0 then s else s.addCnt (R.FRM_BIP_CNT c) bip
  let s := s.frmRatePtr c oh
  let x := s.frm c
  let p := mfas % 2
  let s := s.setFrm c { x with rxMap0 := putPage x.rxMap0 ((oh.drop 0x80).take 224) p, rxMap1 := putPage x.rxMap1 ((oh.drop 0x160).take 224) p }
  let s := if (s.frm c).rxMap0 = x.rxMap0 ∧ (s.frm c).rxMap1 = x.rxMap1 then s else s.cliShowAll
  let s := (s.frmStatusBytes c oh).ospGive c ((oh.drop 0x240).take 32)
  let im := s.flag (R.FRM_STATE c) F.FRM_STATE_in_mf
  let s := (s.cphRxFrameEnd c).frmClients c oh payload marked (mfas == 0)
  let s := s.frxAdvance c im (s.fld (R.FRM_MF_COUNT c) F.FRM_MF_COUNT_rx_mf * 256 + mfas)
  let s := ((s.frmErrors c mfas bip bad).frmRxCal c).frmActs c true
  s.frmCapturesDue c oh (s.queue (frmQ c)).entries.length

/-- BIP-8 violations: how the BIP-8 that a frame carries differs from the payload of the one before (Table FRM-2); none without one before (DESIGN CHOICE:
notes/assumptions/92.md). -/
def bipErrors (oh : List Byte) (par : Option Byte) : Nat :=
  match par with
  | some p => (byteBits (p ^^^ oh.getD 0x12 0)).count true
  | none => 0

/-- The parity, bit by bit, that the scrambler adds to the payload of a frame (R233). -/
def scramParity : Byte := bip8 ((scramBytes 524288).drop 4096)

/-- In frame or not, and in multiframe or not, as an agreement's own alignment has it (R249). -/
def State.iopAlign (c : Carrier) (inFrame inMf : Bool) (s : State) : State :=
  let s := if inFrame = s.flag (R.FRM_STATE c) F.FRM_STATE_in_frame then s else if inFrame then s.frmIf c else s.frmOof c
  if (inFrame && inMf) = s.flag (R.FRM_STATE c) F.FRM_STATE_in_mf then s
  else if inFrame && inMf then (s.setFlag (R.FRM_STATE c) F.FRM_STATE_in_mf true).setFlag (R.FRM_DEFECT c) F.FRM_DEFECT_oom false
  else s.frmOom c

/-- A receive frame period of an interoperable family (R249): the agreement's thresholds are not the manual's, so whether it is aligned and what far defects it finds are
free values (notes/assumptions/105.md); counts and consequent actions are those of any frame. -/
def State.iopRxFrame (c : Carrier) (bad : Nat) (s : State) : State :=
  let (w, s) := s.draw
  let s := s.iopAlign c (w.getLsbD 0) (w.getLsbD 1)
  let s := (s.setFlag (R.FRM_DEFECT c) F.FRM_DEFECT_bdi_far (w.getLsbD 2)).setFlag (R.FRM_DEFECT c) F.FRM_DEFECT_bsd_far (w.getLsbD 3)
  let s := if s.flag (R.FRM_STATE c) F.FRM_STATE_in_frame then s.addCnt (R.FRM_FRAME_CNT c) 1
    else s.setFrm c { s.frm c with oofFrames := (s.frm c).oofFrames + 1 }
  (s.setFrm c { s.frm c with badBlocks := (s.frm c).badBlocks + bad }).frmActs c true

/-- A receive frame period (R237 to R243): out of frame it is counted, in frame its FAS is judged, its BIP-8 compared with the payload of the frame before as
received; the blocks that FEC_x flagged since the frame before are its bad ones (R191, R195, R241). -/
def execFrmRxFrame (c : Carrier) (oh payload : List Byte) (marked : List (Fin 16256)) (s : State) : Out :=
  if s.frmLive c = false then .next s
  else
    let bad := (s.fec c).flagged
    let s := s.setFec c { s.fec c with flagged := 0 }
    let s := if s.flag (R.FRM_DEFECT c) F.FRM_DEFECT_repl then s.addCnt (R.FRM_REPL_FRAME_CNT c) 1 else s
    if s.carFamily c ≠ 0 then .next (s.iopRxFrame c bad)
    else if s.flag (R.FRM_STATE c) F.FRM_STATE_in_frame = false then .next (s.setFrm c { s.frm c with oofFrames := (s.frm c).oofFrames + 1 })
    else if 5 ≤ s.frmFasRun c oh then .next (s.frmOof c)
    else
      let bip := bipErrors oh (s.frm c).rxPar
      .next ((s.setFrm c { s.frm c with rxPar := some (bip8 payload ^^^ scramParity), bei := bip }).frmFrameIn c oh payload marked bip bad)

/-- 3 ms of OOF or IF, or of OOM or IM (R239): LOF or LOM is declared or cleared; the replacement ends at a frame boundary (R243). -/
def execFrmLofTimer (c : Carrier) (lom : Bool) (s : State) : Out :=
  let a := R.FRM_DEFECT c
  if s.frmLive c = false then .next s
  else if lom then
    let oom := s.flag a F.FRM_DEFECT_oom
    if oom = s.flag a F.FRM_DEFECT_lom then .next s
    else if oom then
      let s := (s.setFlag a F.FRM_DEFECT_lom true).setFlag (R.FRM_STATUS c) F.FRM_STATUS_lom_seen true
      .next ((s.logEvent (frmId c) sevAlarm 0x0003 []).frmActs c false)
    else .next (s.setFlag a F.FRM_DEFECT_lom false)
  else
    let oof := s.flag a F.FRM_DEFECT_oof
    if oof = s.flag a F.FRM_DEFECT_lof then .next s
    else if oof then
      let s := (s.setFlag a F.FRM_DEFECT_lof true).setFlag (R.FRM_STATUS c) F.FRM_STATUS_lof_seen true
      let s := s.setFrm c { s.frm c with lofAt := s.time.devtime }
      let s := s.logEvent (frmId c) sevAlarm 0x0001 (evData [(4, (s.frm c).oofFrames)])
      .next (((s.elwBreak c).monUrgentBit (2 + c.code)).frmActs c false)
    else
      let s := s.setFlag a F.FRM_DEFECT_lof false
      .next (s.logEvent (frmId c) sevInfo 0x0002 (evData [(8, (s.time.devtime - (s.frm c).lofAt).toNat)]))

/-- A mismatch of the framer or deframer (R244): the deframer behaves as in LOF, which also breaks a change off (R101), the framer keeps its last good
overhead values. -/
def execFrmEngineFault (c : Carrier) (s : State) : Out :=
  let s := s.setFlag (R.FRM_STATUS c) F.FRM_STATUS_engine_fault true
  let s := s.logFault (frmId c) 0x0009 []
  let s := (s.setFlag (R.FRM_STATE c) F.FRM_STATE_in_frame false).setFlag (R.FRM_DEFECT c) F.FRM_DEFECT_oof true
  let s := (s.setFlag (R.FRM_DEFECT c) F.FRM_DEFECT_lof true).frmOom c
  let s := s.elwBreak c
  let s := s.setFrm c { s.frm c with fault := true, cands := [] }
  .next ((s.setFlag (R.FRM_DEFECT c) F.FRM_DEFECT_bdi_tx (s.bdiDue c)).frmActs c false)

end Sys2Proof.Machine
end

