-- ==== Sys2Proof/Machine/MemScu.lean ====
section
/-! DEFINITION. MEM and SCU: scrubs (R435 to R437), the field repair list (R439, R445), scans (R440 to R443), faults (R444). -/
namespace Sys2Proof.Machine

/-- The size of a scrub region in bytes (Table MEM-2). -/
def scrubSize (region : Nat) : Nat :=
  match region with
  | 0 => 0x02200000
  | 1 => 4718592
  | 2 => 4194304
  | 3 => 6291456
  | 4 => 1048576
  | 5 => 1048576
  | _ => 524288

/-- MM_SCRUB starts (R435, Table MEM-4); COMMAND_COMPLETION ends it, and an earlier scrub ends first. -/
def execMmScrub (s : State) : Out :=
  .next (if (s.startedOp 28 0x100).isSome then s else s.runCommand 28 0x100 (fun d s =>
    let len := d.arg1 % 2 ^ 25
    if 9 ≤ d.unit ∨ d.arg0 % 8 ≠ 0 ∨ len % 8 ≠ 0 ∨ len < 8 ∨ 2 ^ 24 < len ∨ scrubSize d.unit < d.arg0 + len ∨ bufferOk d.arg2 32 = false
      then (some (0x02, 0, 0), s)
    else if s.ecc.fault then (some (0x05, 0, 0), s)
    else (none, s.setFlag R.MEM_STATUS F.MEM_STATUS_scrub_busy true)))

/-- The scrub corrects a word and writes it back (R435, R436): the entry of its location is marked, or made with count 0; a word whose cell is
damaged, or whose entry was already marked, is classed hard.  The answer says whether it was. -/
def State.scrubWord (m : EccMark) (s : State) : Bool × State :=
  let s := s.addCnt R.MEM_SCRUB_WB_CNT 1
  let s := if m.kind = .hard then s else { s with ecc := { s.ecc with marks := s.ecc.marks.filter (· != m) } }
  let (n, s) := match s.rptFind m.region m.word with
    | some n => (n, s)
    | none => s.rptNew m.region m.word 0
  let again := s.flag (R.MEM_RPT n) F.MEM_RPT_written_back
  let s := s.setFlag (R.MEM_RPT n) F.MEM_RPT_written_back true
  if m.kind = .hard ∨ again then (true, s.eccHard m.region m.word) else (false, s)

/-- What a scrub counts: corrected, uncorrectable, written back, hard. -/
structure ScrubSum where
  corrected : Nat
  uncorr : Nat
  back : Nat
  hard : Nat
deriving DecidableEq, Repr

/-- Scrub the words of a list of marks. -/
def State.scrubMarks : List EccMark → ScrubSum → State → ScrubSum × State
  | [], c, s => (c, s)
  | m :: l, c, s =>
    if m.kind = .uncorr then (s.eccUncorr m.region m.word).scrubMarks l { c with uncorr := c.uncorr + 1 }
    else
      let (hard, s) := s.scrubWord m
      s.scrubMarks l { c with corrected := c.corrected + 1, back := c.back + 1, hard := c.hard + b2n hard }

/-- A scrub of a span ends (R437): its summary, and results 0 and 1. -/
def State.scrubDone (d : Desc) (s : State) : (Nat × Nat × Nat) × State :=
  let s := s.setFlag R.MEM_STATUS F.MEM_STATUS_scrub_busy false
  if s.ecc.fault then ((0x05, 0, 0), s)
  else
    let lo := d.arg0 / 8
    let hit := s.ecc.marks.filter (fun m => m.region == d.unit && decide (lo ≤ m.word ∧ m.word < lo + d.arg1 % 2 ^ 25 / 8))
    let (c, s) := s.scrubMarks hit { corrected := 0, uncorr := 0, back := 0, hard := 0 }
    let words := hit.map (·.word)
    let none8 := 2 ^ 64 - 1
    let first := words.foldl (fun a w => min a (8 * w)) none8
    let last := if words.isEmpty then none8 else words.foldl (fun a w => max a (8 * w)) 0
    let s := s.setBytes d.arg2 (leBytes 4 c.corrected ++ leBytes 4 c.uncorr ++ leBytes 4 c.back ++ leBytes 4 c.hard
      ++ leBytes 8 first ++ leBytes 8 last)
    ((0, c.corrected, c.uncorr), s)

/-- MM_READ_REPAIR (Table MEM-4): the list's entries, oldest first, 16 bytes each; their layout is not given: free bytes.  The count is
arg1[9:0], so 1,024 cannot be asked for. -/
def execMmReadRepair (s : State) : Out :=
  .next (s.runCommand 28 0x101 (fun d s =>
    let n := d.arg1 % 1024
    if d.unit ≠ 0xFF ∨ n = 0 ∨ bufferOk d.arg0 (16 * n) = false then (some (0x02, 0, 0), s)
    else
      let (l, s) := s.drawBytes (16 * min n s.ecc.repairs.length)
      (some (0, s.ecc.repairs.length, 0), s.setBytes d.arg0 l)))

/-- A span lies in the local memories or in the shared pool (R441). -/
def scanSpan (a len : Nat) : Bool := a + len ≤ 0x800000 || (0x01000000 ≤ a && a + len ≤ 0x01C00000)

/-- SC_SCAN starts (R441): the value to compare with is that of SCU_EXPECT now; scans run one at a time. -/
def execScScan (s : State) : Out :=
  .next (if (s.startedOp 29 0x100).isSome then s else s.runCommand 29 0x100 (fun d s =>
    let len := d.arg1 % 2 ^ 25
    if d.unit ≠ 0xFF ∨ d.arg0 % 8 ≠ 0 ∨ len % 8 ≠ 0 ∨ len < 8 ∨ 2 ^ 24 < len ∨ scanSpan d.arg0 len = false then (some (0x02, 0, 0), s)
    else if s.ecc.scuFault then (some (0x05, 0, 0), s)
    else (none, ({ s with ecc := { s.ecc with expect := s.reg R.SCU_EXPECT } }).setFlag R.SCU_STATUS F.SCU_STATUS_busy true)))

/-- The bytes that a scan feeds to the CRC (R440): in memory mode each word's address before it, in link mode the sequence number once. -/
def State.scanBytes (s : State) (a len : Nat) (link : Bool) (seq : Nat) : List Byte :=
  if link then leBytes 4 seq ++ s.bytes a len
  else (List.range (len / 8)).flatMap (fun i => leBytes 4 (a / 8 + i) ++ s.bytes (a + 8 * i) 8)

/-- A scan ends (R442, R443).  A word that cannot be corrected enters as raw data that the model does not hold: the value is then free and the
comparison fails. -/
def State.scanDone (d : Desc) (s : State) : (Nat × Nat × Nat) × State :=
  let s := s.setFlag R.SCU_STATUS F.SCU_STATUS_busy false
  if s.ecc.scuFault then ((0x05, 0, 0), s)
  else
    let len := d.arg1 % 2 ^ 25
    let bad := s.ecc.marks.filter (fun m => m.region == 0 && m.kind == EccKind.uncorr
      && decide (d.arg0 / 8 ≤ m.word ∧ m.word < (d.arg0 + len) / 8))
    let s := bad.foldl (fun s m => s.eccUncorr 0 m.word) s
    let crc := (crc32c (s.scanBytes d.arg0 len (d.arg1 / 2 ^ 33 % 2 == 1) d.arg2)).toNat
    let (v, s) := if bad.isEmpty then (crc, s)
      else let (w, s) := s.draw; (w.toNat % 2 ^ 32, s.setFlag R.SCU_STATUS F.SCU_STATUS_uncorr true)
    let s := (s.setReg R.SCU_RESULT (BitVec.ofNat 32 v)).addCnt R.SCU_SCAN_CNT 1
    if d.arg1 / 2 ^ 32 % 2 = 1 ∧ (v ≠ s.ecc.expect.toNat ∨ bad.isEmpty = false) then
      let s := (s.setFlag R.SCU_STATUS F.SCU_STATUS_mismatch true).addCnt R.SCU_MISMATCH_CNT 1
      ((0, v, 1), (s.logEvent 0x21 sevAlarm 0x0001 []).raiseIrq 3)
    else ((0, v, 0), s)

/-- MEM's or SCU's two computations differ (R444). -/
def execMemScuEngineFault (scu : Bool) (s : State) : Out :=
  .next (if scu then (({ s with ecc := { s.ecc with scuFault := true } }).setFlag R.SCU_STATUS F.SCU_STATUS_engine_fault true).logFault
      0x21 0x0005 []
    else (({ s with ecc := { s.ecc with fault := true } }).setFlag R.MEM_STATUS F.MEM_STATUS_engine_fault true).logFault 0x20 0x0005 [])

end Sys2Proof.Machine
end

