-- ==== Sys2Proof/Machine/Quay.lean ====
section
/-! DEFINITION. The Quay block as data (R276, R277, R281 to R284, R288): the comma, precoding and Gray mapping, the scrambler, the check, the calendar. -/
namespace Sys2Proof.Machine

/-! ### Symbols -/

/-- The level index of two bits, and the two bits of a level index (R276). -/
def pamLevel (a b : Bool) : Nat := if a then (if b then 2 else 3) else (if b then 1 else 0)
def pamBits (g : Nat) : List Bool := [decide (2 ≤ g), g == 1 || g == 2]

/-- Bits as level indices. -/
def pamLevels : List Bool → List Nat
  | a :: b :: l => pamLevel a b :: pamLevels l
  | _ => []

/-- Precoding and its inverse, p the symbol before (R276). -/
def precode : Nat → List Nat → List Nat
  | _, [] => []
  | p, g :: l => let q := (g + 4 - p % 4) % 4; q :: precode q l
def unprecode : Nat → List Nat → List Nat
  | _, [] => []
  | p, q :: l => (q + p) % 4 :: unprecode q l

/-- A pair whose polarity is inverted (R276): the levels stand upside down. -/
def invertLevels (inv : Bool) (l : List Nat) : List Nat := if inv then l.map (3 - ·) else l

/-! ### The comma -/

/-- The comma of lane n (Table LNK-4). -/
def quayComma (n : Nat) : List Nat :=
  List.replicate 24 3 ++ List.replicate 24 0 ++ [3, 0, 3, 0, 3, 0, 3, 0] ++
    [2, 1, 0].flatMap (fun i => let v := if n.testBit i then 3 else 0; [v, v]) ++ [2, 1]

/-- A comma is found when at least 54 of symbols 0 to 55 match (R282). -/
def commaFound (l : List Nat) : Bool := 54 ≤ (((l.take 56).zip (quayComma 0)).filter (fun p => p.1 == p.2)).length

/-- The bit that two equal symbols of a comma read as. -/
def commaPair (a b : Nat) : Option Nat := if a = b then (if a = 3 then some 1 else if a = 0 then some 0 else none) else none

/-- The lane that a comma names (R282): symbols 56 to 61 form three equal pairs. -/
def commaLane (l : List Nat) : Option (Fin 8) :=
  match (l.drop 56).take 6 with
  | [a, b, c, d, e, f] =>
    match commaPair a b, commaPair c d, commaPair e f with
    | some x, some y, some z => some (Fin.ofNat 8 (4 * x + 2 * y + z))
    | _, _, _ => none
  | _ => none

/-! ### The scrambler -/

/-- The scrambler x^58 + x^39 + 1 (R283), its last 58 scrambled bits the newest in bit 0: the bits sent, and the state after them. -/
def quayScramble : BitVec 58 → List Bool → List Bool × BitVec 58
  | st, [] => ([], st)
  | st, b :: l =>
    let o := (b != st.getLsbD 38) != st.getLsbD 57
    let (r, st) := quayScramble ((st <<< 1) ||| BitVec.ofNat 58 (b2n o)) l
    (o :: r, st)

/-- Its inverse, from the bits received. -/
def quayDescramble : BitVec 58 → List Bool → List Bool × BitVec 58
  | st, [] => ([], st)
  | st, o :: l =>
    let b := (o != st.getLsbD 38) != st.getLsbD 57
    let (r, st) := quayDescramble ((st <<< 1) ||| BitVec.ofNat 58 (b2n o)) l
    (b :: r, st)

/-! ### The block -/

/-- The check of a block: the CRC-32C of link mode over seq and the payload (R284, R440). -/
def quayCheck (seq : W32) (payload : List Byte) : W32 := crc32c (leBytes 4 seq.toNat ++ payload)

/-- Bytes 0 to 495 of a block (Table LNK-3). -/
def quayBytes (seq : W32) (payload : List Byte) : List Byte :=
  beBytes 4 seq.toNat ++ takePad 488 0 payload ++ beBytes 4 (quayCheck seq (takePad 488 0 payload)).toNat

/-- A block as lane n sends it (R281 to R284), and its scrambler's state after it. -/
def quayBlock (n : Nat) (pre inv : Bool) (seq : W32) (payload : List Byte) (st : BitVec 58) : List Nat × BitVec 58 :=
  let (bits, st) := quayScramble st (bytesBits (quayBytes seq payload))
  let body := pamLevels bits
  (invertLevels inv (quayComma n ++ if pre then precode 0 body else body), st)

/-- A received block: its seq, its payload, whether its check passes, the descrambler's state after it. -/
structure QuayRead where
  seq : W32
  payload : List Byte
  ok : Bool
  scr : BitVec 58
deriving DecidableEq, Repr

/-- The symbols of a block after the comma as received (R281 to R284). -/
def quayRead (pre : Bool) (st : BitVec 58) (body : List Nat) : QuayRead :=
  let (bits, scr) := quayDescramble st ((if pre then unprecode 0 body else body).flatMap pamBits)
  let l := bitsBytes 496 bits
  let seq := BitVec.ofNat 32 (beNat (l.take 4))
  let payload := (l.drop 4).take 488
  { seq, payload, ok := quayCheck seq payload == BitVec.ofNat 32 (beNat (l.drop 492)), scr }

/-! ### The slot calendar (R288) -/

/-- One container of the calendar: the Quay slot it goes to, none for filler, and acc and cal_slot after it. -/
def quayCalStep (acc slot : Nat) : Option Nat × Nat × Nat :=
  if 13216225 ≤ acc + 13107200 then (some slot, acc + 13107200 - 13216225, (slot + 1) % 320) else (none, acc + 13107200, slot)

/-- The next n containers. -/
def quayCal : Nat → Nat → Nat → List (Option Nat) × Nat × Nat
  | 0, acc, slot => ([], acc, slot)
  | n + 1, acc, slot =>
    let x := quayCalStep acc slot
    let r := quayCal n x.2.1 x.2.2
    (x.1 :: r.1, r.2)

/-- acc and cal_slot after k containers from 0, which quayCal gives too (Laws.quayCal_at). -/
def quayCalAt (k : Nat) : Nat × Nat := (13107200 * k % 13216225, 13107200 * k / 13216225 % 320)

/-- Where the 121 containers of row seq go: the calendar restarts at every row whose seq[9:0] = 0. -/
def quayRowSlots (seq : W32) : List (Option Nat) :=
  let p := quayCalAt (121 * (seq.toNat % 1024))
  (quayCal 121 p.1 p.2).1

/-- The payload bytes of a lane's block from the bits of its row's containers (R288): the 3,904 bits of QL0 come first, and 135 zero bits follow the containers. -/
def quayLanePayload (bits : List Bool) (lane : Nat) : List Byte := bitsBytes 488 (takePad 3904 false (bits.drop (3904 * lane)))

/-- The tributary that a Quay map gives a slot to (R289). -/
def quayTrib (map : List Byte) (slot : Nat) : Option Nat :=
  let b := (map.getD slot 0).toNat
  if 128 ≤ b then some (b % 64) else none

/-! ### The transmit FIR (R277) -/

/-- The taps c−3 to c1 of a preset in hundredths of the peak swing (Table LNK-2); a reserved preset is limited to 4. -/
def firPreset : Nat → List Int
  | 0 => [0, 0, 0, 100, 0]
  | 1 => [0, 0, -10, 90, 0]
  | 2 => [0, 5, -20, 75, 0]
  | 3 => [0, 5, -25, 65, -5]
  | _ => [-2, 8, -30, 55, -5]

end Sys2Proof.Machine
end

