-- ==== Sys2Proof/Machine/Lanes.lean ====
section
/-! DEFINITION. Host lanes and the Quay link (HLN, QLK): power states and adaptation (R278, R292), loss of signal, host ports (R264, R279), Quay lock,
deskew and link (R285 to R287), Quay maps (R289, R290), lane faults (R293), commands (R295). -/
namespace Sys2Proof.Machine

/-! ### Lanes -/

/-- The status register of a host or Quay lane; the two have the same fields. -/
def laneReg (quay : Bool) (n : Nat) : Nat := if quay then R.QLK_LANE_STATUS n else R.HLN_LANE_STATUS n

/-- A lane's record. -/
def State.lane (s : State) (quay : Bool) (n : Nat) : LaneRt := if quay then s.lanes.quay[Fin.ofNat 8 n] else s.lanes.host[Fin.ofNat 24 n]

/-- Replace a lane's record. -/
def State.setLane (quay : Bool) (n : Nat) (x : LaneRt) (s : State) : State :=
  if quay then { s with lanes := { s.lanes with quay := s.lanes.quay.set (Fin.ofNat 8 n) x } }
  else { s with lanes := { s.lanes with host := s.lanes.host.set (Fin.ofNat 24 n) x } }

/-- pstate, rx_ready and los of a lane. -/
def State.lanePstate (s : State) (quay : Bool) (n : Nat) : Nat := s.fld (laneReg quay n) F.HLN_LANE_STATUS_pstate
def State.laneReady (s : State) (quay : Bool) (n : Nat) : Bool := s.flag (laneReg quay n) F.HLN_LANE_STATUS_rx_ready
def State.laneLos (s : State) (quay : Bool) (n : Nat) : Bool := s.flag (laneReg quay n) F.HLN_LANE_STATUS_los

/-- The rate of host lane n: lane_rate of the enabled client or FlexE group that uses it; none where none does (R275). -/
def State.laneRate (s : State) (n : Nat) : Option Nat :=
  let cl := (List.range 128).find? (fun c => (s.cliCfg c).on && (s.cliCfg c).typ == 1 && ((s.cliCfg c).lanes.getD []).contains n)
  let gr := (List.range 8).find? (fun g => (s.grpCfg g).on && ((s.grpCfg g).lanes.getD []).contains n)
  match cl, gr with
  | some c, _ => some (s.cliCfg c).rate
  | none, some g => some (s.grpCfg g).rate
  | none, none => none

/-- The clients whose host input uses lane n. -/
def State.laneClients (s : State) (n : Nat) : List Nat :=
  (List.range 128).filter (fun c => (s.cliCfg c).on &&
    (((s.cliCfg c).typ == 1 && ((s.cliCfg c).lanes.getD []).contains n)
     || ((s.cliCfg c).typ == 2 && ((s.grpCfg (s.cliCfg c).idx).lanes.getD []).contains n)))

/-- The host input of some clients fails or recovers (R264). -/
def State.hostFail (l : List Nat) (b : Bool) (s : State) : State :=
  l.foldl (fun s c => s.setFlag (R.CLM_CLIENT_STATUS c) F.CLM_CLIENT_STATUS_host_fail b) s

/-- Adaptation starts again: not locked, not ready. -/
def State.laneAdapt (quay : Bool) (n : Nat) (s : State) : State :=
  let a := laneReg quay n
  ((s.setFlag a F.HLN_LANE_STATUS_cdr_lock false).setFlag a F.HLN_LANE_STATUS_rx_ready false).setLane quay n
    { s.lane quay n with fromL1 := false }

/-- A lane enters a power state (Table LNK-5): in L1 the CDR's phase is held; in L1 and L2 no LOS is declared. -/
def State.lanePower (quay : Bool) (n code : Nat) (s : State) : State :=
  let a := laneReg quay n
  let old := s.lanePstate quay n
  if code = old then s
  else
    let s := s.setFld a F.HLN_LANE_STATUS_pstate code
    match code with
    | 0 => if old = 1 then s.setLane quay n { s.lane quay n with fromL1 := true } else s.laneAdapt quay n
    | 1 => (s.setFlag a F.HLN_LANE_STATUS_rx_ready false).setFlag a F.HLN_LANE_STATUS_los false
    | _ => (s.laneAdapt quay n).setFlag a F.HLN_LANE_STATUS_los false

/-- A power command of the lane has started and is not complete: the lane is changing state (R292). -/
def State.laneChanging (s : State) (quay : Bool) (n : Nat) : Bool :=
  (s.queue (if quay then 19 else 18)).entries.any (fun e => e.started && e.desc.opcode == 0x100 &&
    (e.desc.unit == n || (quay && (e.desc.unit == 0xFF || n == 0xFF))))

/-- The lanes a unit names. -/
def unitLanes (quay : Bool) (u : Nat) : List Nat := if quay && u == 0xFF then List.range 8 else [u]

/-- A unit names lanes of the block. -/
def unitOk (quay : Bool) (u : Nat) : Bool := if quay then u < 8 || u == 0xFF else u < 24

/-- Every lane that a unit names is ready. -/
def State.unitReady (s : State) (quay : Bool) (u : Nat) : Bool := (unitLanes quay u).all (s.laneReady quay)

/-- HL_SET_POWER and QL_SET_POWER (R292, Table LNK-6). -/
def State.setPower (quay : Bool) (s : State) : State :=
  let q : Fin 64 := if quay then 19 else 18
  match s.startable q 0x100 with
  | none => s
  | some e =>
    if s.laneChanging quay e.desc.unit then s
    else s.runCommand q 0x100 (fun d s =>
      let code := d.arg0 % 4
      if unitOk quay d.unit = false ∨ code = 3 then (some (0x02, 0, 0), s)
      else if code ≠ 0 ∧ (if quay then s.flag R.QLK_CTRL F.QLK_CTRL_enable else (s.laneRate d.unit).isSome) then (some (0x06, 0, 0), s)
      else
        let s := (unitLanes quay d.unit).foldl (fun s n => s.lanePower quay n code) s
        if code = 0 ∧ s.unitReady quay d.unit = false then (none, s) else (some (0, b2n (s.unitReady quay d.unit), 0), s))

/-- HL_READAPT and QL_READAPT (R278, Table LNK-6). -/
def State.readapt (quay : Bool) (s : State) : State :=
  s.runCommand (if quay then 19 else 18) 0x101 (fun d s =>
    if d.unit ≥ (if quay then 8 else 24) then (some (0x02, 0, 0), s)
    else if s.lanePstate quay d.unit ≠ 0 then (some (0x06, 0, 0), s)
    else (some (0, 0, 0), s.laneAdapt quay d.unit))

def execHlSetPower (s : State) : Out := .next (s.setPower false)
def execQlSetPower (s : State) : Out := .next (s.setPower true)
def execHlReadapt (s : State) : Out := .next (s.readapt false)
def execQlReadapt (s : State) : Out := .next (s.readapt true)

/-- Power commands whose lanes are all ready complete (Table LNK-6). -/
def State.powerDone (quay : Bool) (s : State) : State :=
  let q : Fin 64 := if quay then 19 else 18
  ((s.queue q).entries.filter (fun e => e.started && e.desc.opcode == 0x100 && s.unitReady quay e.desc.unit)).foldl
    (fun s e => s.complete e 0 1 0) s

/-- LANE_RX_READY (R275, R278, R292): only a lane in L0 with signal; a host lane only where a client or group uses it. -/
def execLaneRxReady (quay : Bool) (lane : Fin 24) (snr : BitVec 10) (s : State) : Out :=
  let n := lane.val
  if (quay ∧ 8 ≤ n) ∨ s.lanePstate quay n ≠ 0 ∨ s.laneLos quay n ∨ (s.lane quay n).fault ∨ (quay = false ∧ (s.laneRate n).isNone) then .next s
  else
    let a := laneReg quay n
    let s := ((s.setFlag a F.HLN_LANE_STATUS_cdr_lock true).setFlag a F.HLN_LANE_STATUS_rx_ready true).setFld a F.HLN_LANE_STATUS_snr snr.toNat
    .next ((s.setLane quay n { s.lane quay n with fromL1 := false }).powerDone quay)

/-- LANE_L1_EXIT_TIMEOUT (R292). -/
def execLaneL1ExitTimeout (quay : Bool) (lane : Fin 24) (s : State) : Out :=
  .next (if (s.lane quay lane.val).fromL1 ∧ ¬(quay ∧ 8 ≤ lane.val) then s.laneAdapt quay lane.val else s)

/-- LANE_LOS_DECLARED (R264, R278): not in L1 or L2 (R292). -/
def execLaneLosDeclared (quay : Bool) (lane : Fin 24) (s : State) : Out :=
  let n := lane.val
  if (quay ∧ 8 ≤ n) ∨ s.lanePstate quay n ≠ 0 ∨ s.laneLos quay n then .next s
  else
    let a := laneReg quay n
    let s := (s.setFlag a F.HLN_LANE_STATUS_los true).setFlag a F.HLN_LANE_STATUS_rx_ready false
    if quay then .next (s.setFlag R.QLK_STATUS F.QLK_STATUS_los_seen true)
    else .next ((((s.setFlag R.HLN_STATUS F.HLN_STATUS_los_seen true).addCnt (R.HLN_LOS_CNT n) 1).hostFail (s.laneClients n) true).logEvent
      0x12 sevWarn 0x0001 (evData [(1, n)]))

/-- LANE_LOS_CLEARED (R278). -/
def execLaneLosCleared (quay : Bool) (lane : Fin 24) (s : State) : Out :=
  let n := lane.val
  if (quay ∧ 8 ≤ n) ∨ s.laneLos quay n = false then .next s
  else .next ((s.setFlag (laneReg quay n) F.HLN_LANE_STATUS_los false).laneAdapt quay n)

/-! ### Host ports -/

/-- HOST_PCS_LOCK (R264, R279): the host input of an Ethernet client, or of the clients of a FlexE group, recovers when its lanes are ready
too. -/
def execHostPcsLock (port : HostPort) (locked : Bool) (corr : List Nat) (uncorr : Nat) (s : State) : Out :=
  let lanes := match port with
    | .client c => if (s.cliCfg c.val).on && (s.cliCfg c.val).typ == 1 then (s.cliCfg c.val).lanes.getD [] else []
    | .group g => if (s.grpCfg g.val).on then (s.grpCfg g.val).lanes.getD [] else []
  let clients := match port with
    | .client c => if (s.cliCfg c.val).on && (s.cliCfg c.val).typ == 1 then [c.val] else []
    | .group g => (List.range 128).filter (fun c => (s.cliCfg c).on && (s.cliCfg c).typ == 2 && (s.cliCfg c).idx == g.val)
  let s := (lanes.zip corr).foldl (fun s p => s.addCnt (R.HLN_FEC_CORR_CNT p.1) p.2) s
  let s := match lanes.head? with
    | some n => s.addCnt (R.HLN_FEC_UNCORR_CNT n) uncorr
    | none => s
  .next (s.hostFail clients (!(locked && lanes.all (s.laneReady false))))

/-- After a COMMIT changed the clients and groups in force (R264, R275): the rate of each host lane, lanes that came into use or changed rate adapt, lanes out of
use are not ready; a client whose configuration changed has a failed host input until its port locks. -/
def State.hostShow (changed : List Nat) (s : State) : State :=
  let s := forN 24 (fun n s =>
    let a := R.HLN_LANE_STATUS n
    match s.laneRate n with
    | none => if s.laneReady false n ∨ s.fld a F.HLN_LANE_STATUS_rate ≠ 0 then (s.laneAdapt false n).setFld a F.HLN_LANE_STATUS_rate 0 else s
    | some r => if s.fld a F.HLN_LANE_STATUS_rate = r then s else (s.laneAdapt false n).setFld a F.HLN_LANE_STATUS_rate r) s
  changed.foldl (fun s c =>
    let x := s.cliCfg c
    s.hostFail [c] (x.on && (x.typ == 1 || x.typ == 2 || (x.typ == 4 && !s.flag R.QLK_STATE F.QLK_STATE_link_up)))) s

/-! ### Quay maps -/

/-- The Quay map in force of a direction, and the buffer not in force. -/
def State.quayMap (s : State) (rx inForce : Bool) : List Byte :=
  let sel := if rx then s.flag R.QLK_STATE F.QLK_STATE_rx_map_sel else s.flag R.QLK_STATE F.QLK_STATE_tx_map_sel
  match rx, sel == inForce with
  | false, false => s.lanes.tx0
  | false, true => s.lanes.tx1
  | true, false => s.lanes.rx0
  | true, true => s.lanes.rx1

/-- Write a map into the buffer not in force. -/
def State.putQuayMap (rx : Bool) (m : List Byte) (s : State) : State :=
  if rx then (if s.flag R.QLK_STATE F.QLK_STATE_rx_map_sel then { s with lanes := { s.lanes with rx0 := m } }
              else { s with lanes := { s.lanes with rx1 := m } })
  else (if s.flag R.QLK_STATE F.QLK_STATE_tx_map_sel then { s with lanes := { s.lanes with tx0 := m } }
        else { s with lanes := { s.lanes with tx1 := m } })

/-- The superrow at which a pending map of a direction applies. -/
def State.quayAt (s : State) (rx : Bool) : Option Nat := if rx then s.lanes.rxAt else s.lanes.txAt

/-- Set it. -/
def State.setQuayAt (rx : Bool) (x : Option Nat) (s : State) : State :=
  if rx then { s with lanes := { s.lanes with rxAt := x } } else { s with lanes := { s.lanes with txAt := x } }

/-- A pending map comes into force. -/
def State.quaySwitch (rx : Bool) (s : State) : State :=
  let s := s.setQuayAt rx none
  if rx then s.setFlag R.QLK_STATE F.QLK_STATE_rx_map_sel (!s.flag R.QLK_STATE F.QLK_STATE_rx_map_sel)
  else s.setFlag R.QLK_STATE F.QLK_STATE_tx_map_sel (!s.flag R.QLK_STATE F.QLK_STATE_tx_map_sel)

/-- The present superrow of a direction. -/
def State.superrow (s : State) (rx : Bool) : Nat := (s.reg (if rx then R.QLK_SEQ_RX else R.QLK_SEQ_TX)).toNat / 1024

/-- A transmit map gives every tributary that an enabled client takes from the line its N slots (R290). -/
def State.quayMapOk (s : State) (rx : Bool) (m : List Byte) : Bool :=
  rx || (List.range 128).all (fun c =>
    let x := s.cliCfg c
    !(x.on && x.typ == 4) || decide (s.nominal c x ≤ mapSlots m x.idx))

/-- QL_SET_MAP (R289, R290). -/
def execQlSetMap (s : State) : Out :=
  .next (s.runCommand 19 0x102 (fun d s =>
    let rx := d.arg1 % 2 = 1
    let t := d.arg1 / 2 ^ 32 % 2 ^ 22
    let m := (s.bytes d.arg0 320).map (fun b => if b.getLsbD 7 then b &&& 0xBF else 0)
    if d.unit ≠ 0xFF ∨ bufferOk d.arg0 320 = false ∨ s.quayMapOk rx m = false then (some (0x02, 0, 0), s)
    else if s.flag R.QLK_STATE F.QLK_STATE_link_up = false then
      (some (0, s.superrow rx, 0), (s.putQuayMap rx m).quaySwitch rx)
    else
      let ahead := (t + 2 ^ 22 - s.superrow rx) % 2 ^ 22
      if ahead = 0 ∨ 2 ^ 21 ≤ ahead then (some (0x06, 0, 0), s)
      else (some (0, t, 0), (s.putQuayMap rx m).setQuayAt rx (some t))))

/-- QL_READ_MAP (Table LNK-6). -/
def execQlReadMap (s : State) : Out :=
  .next (s.runCommand 19 0x103 (fun d s =>
    if d.unit ≠ 0xFF ∨ bufferOk d.arg0 320 = false then (some (0x02, 0, 0), s)
    else
      let m := s.quayMap (d.arg1 % 2 = 1) (d.arg1 / 256 % 2 = 0)
      (some (0, 0, 0), s.setBytes d.arg0 (m ++ List.replicate (320 - m.length) 0))))

/-- QUAY_MAP_APPLY (R289): container 0 of superrow T. -/
def execQuayMapApply (rx : Bool) (superrow : BitVec 22) (s : State) : Out :=
  .next (if s.quayAt rx = some superrow.toNat then s.quaySwitch rx else s)

/-! ### Quay lock and link -/

/-- The clients sourced from the Quay link. -/
def State.quayClients (s : State) : List Nat := (List.range 128).filter (fun c => (s.cliCfg c).on && (s.cliCfg c).typ == 4)

/-- Deskew starts again; an up link goes down (R286): its clients' host input fails (R290), pending maps apply at once (R289). -/
def State.quayDown (cause : Nat) (s : State) : State :=
  let up := s.flag R.QLK_STATE F.QLK_STATE_link_up
  let s := (s.setFlag R.QLK_STATE F.QLK_STATE_deskewed false).setReg R.QLK_SEQ_RX 0
  let s := { s with lanes := { s.lanes with good := 0 } }
  if up then
    let s := (((s.setFlag R.QLK_STATE F.QLK_STATE_link_up false).setFlag R.QLK_STATUS F.QLK_STATUS_link_down true).addCnt R.QLK_LINK_DOWN_CNT
      1).logEvent 0x13 sevAlarm 0x0002 (evData [(1, cause)])
    let s := s.hostFail s.quayClients true
    let s := if s.lanes.txAt.isSome then s.quaySwitch false else s
    if s.lanes.rxAt.isSome then s.quaySwitch true else s
  else s

/-- The framing of a Quay lane. -/
def State.quayLane (s : State) (n : Nat) : QuayLane := s.lanes.framing[Fin.ofNat 8 n]
def State.setQuayLane (n : Nat) (x : QuayLane) (s : State) : State :=
  { s with lanes := { s.lanes with framing := s.lanes.framing.set (Fin.ofNat 8 n) x } }

/-- Block lock of a Quay lane. -/
def State.quayLocked (s : State) (n : Nat) : Bool := s.flag (R.QLK_LANE_STATUS n) F.QLK_LANE_STATUS_block_lock
def State.setQuayLock (n : Nat) (b : Bool) (s : State) : State :=
  let s := s.setFlag (R.QLK_LANE_STATUS n) F.QLK_LANE_STATUS_block_lock b
  let l := s.fld R.QLK_STATE F.QLK_STATE_locked
  s.setFld R.QLK_STATE F.QLK_STATE_locked (if b then l ||| 2 ^ n else l &&& (255 - 2 ^ n))

/-- A Quay lane loses lock (R285, R286). -/
def State.quayUnlock (n : Nat) (s : State) : State :=
  if s.quayLocked n then
    (((s.setQuayLock n false).addCnt (R.QLK_LOCK_LOSS_CNT n) 1).setQuayLane n { s.quayLane n with found := 0, errored := 0, held := [] }).quayDown 0
  else s.setQuayLane n { s.quayLane n with found := 0, errored := 0, held := [] }

/-- A comma of a Quay lane is judged (R285). -/
def State.quayComma (n : Nat) (found : Bool) (named : Option (Fin 8)) (s : State) : State :=
  let x := s.quayLane n
  let a := R.QLK_LANE_STATUS n
  if !found then
    if x.errored + 1 < 8 then s.setQuayLane n { x with found := 0, errored := x.errored + 1 } else s.quayUnlock n
  else match named with
    | none => s.setQuayLane n { x with found := 0, errored := 0 }
    | some m =>
      if m.val = n then
        let s := (s.setFlag a F.QLK_LANE_STATUS_mis_wire false).setQuayLane n { x with found := min 4 (x.found + 1), errored := 0 }
        if x.found + 1 < 4 then s else s.setQuayLock n true
      else
        let was := s.flag a F.QLK_LANE_STATUS_mis_wire
        let s := ((s.setFlag a F.QLK_LANE_STATUS_mis_wire true).setFlag R.QLK_STATUS F.QLK_STATUS_mis_wire true).setQuayLane n
          { x with found := 0, errored := 0 }
        if was then s else s.logEvent 0x13 sevWarn 0x0003 (evData [(1, n), (1, m.val)])

/-- What a lane takes of a block (R285 to R287): a lane holds nine blocks; the oldest goes when a tenth comes. -/
def State.quayTake (n : Nat) (found : Bool) (named : Option (Fin 8)) (r : QuayRead) (s : State) : State :=
  let s := (s.setQuayLane n { s.quayLane n with scr := r.scr }).quayComma n found named
  if s.quayLocked n then
    let x := s.quayLane n
    let h := x.held ++ [{ seq := r.seq, ok := r.ok, payload := r.payload }]
    let s := s.setQuayLane n { x with held := h.drop (h.length - 9) }
    if r.ok then s else s.addCnt (R.QLK_CRC_CNT n) 1
  else s

/-- QUAY_BLOCK_RECEIVED (R281 to R287): a block's symbols are read, and the lane takes what they say. -/
def execQuayBlockReceived (lane : Fin 8) (syms : List (Fin 4)) (s : State) : Out :=
  let n := lane.val
  if s.flag R.QLK_CTRL F.QLK_CTRL_enable = false ∨ s.lanePstate true n ≠ 0 ∨ (s.lane true n).fault then .next s
  else
    let cfg := s.flag (R.QLK_LANE_CFG n)
    let l := invertLevels (cfg F.QLK_LANE_CFG_rx_inv) (syms.map (·.val))
    let r := quayRead (cfg F.QLK_LANE_CFG_rx_precode) (s.quayLane n).scr (l.drop 64)
    .next (s.quayTake n (commaFound l) (commaLane l) r)

/-- A seq that every lane carries in a block whose check passes: the first such, in QL0's order (R286). -/
def State.quayCommon (s : State) : Option W32 :=
  ((s.quayLane 0).held.find? (fun p => p.ok && (List.range 8).all (fun n => (s.quayLane n).held.any (fun q => q.ok && q.seq == p.seq)))).map (·.seq)

/-- The blocks of a lane from the one with a seq on. -/
def heldFrom (seq : W32) : List QuayHeld → List QuayHeld
  | [] => []
  | p :: l => if p.seq = seq ∧ p.ok then p :: l else heldFrom seq l

/-- The client of a Quay tributary (R290): the enabled one whose source it is. -/
def State.quayClient (s : State) (t : Nat) : Option Nat :=
  (List.range 128).find? (fun n => (s.cliCfg n).on && (s.cliCfg n).typ == 4 && (s.cliCfg n).idx == t)

/-- A unit from the Quay link reaches its client's ingress (R290): berth fills are no units of the client; after an errored container data units are discarded up
to the next terminate block (R264, R287). -/
def State.quayUnit (n : Nat) (s : State) (u : Unit66) : State :=
  let x := s.client n
  if u = berthFill then s
  else if x.inSkip ∧ (u.isTerm ∨ u.ctl = false) then s.setClient n { x with inSkip := !u.isTerm }
  else (s.setClient n { x with inSkip := x.inSkip && !u.isStart }).clmIngress n u

/-- A container of a client's tributary arrives: its four units; an errored one, or one that gives no four units, is an errored block (R264, R287). -/
def State.quayContainer (n : Nat) (good : Bool) (bits : List Bool) (s : State) : State :=
  match if good then xdecode bits else none with
  | some us => us.foldl (fun s u => s.quayUnit n u) s
  | none =>
    let s := forN 4 (fun _ s => s.clmIngress n errorBlock) s
    s.setClient n { s.client n with inSkip := true }

/-- The containers of a received row go to the clients of their tributaries (R287 to R290); ok: which lanes' checks passed. -/
def State.quayGive (seq : W32) (ok : List Bool) (bits : List Bool) (s : State) : State :=
  let map := s.quayMap true true
  forN 121 (fun i s =>
    match (((quayRowSlots seq).getD i none).bind (quayTrib map)).bind s.quayClient with
    | none => s
    | some n => s.quayContainer n (ok.getD (257 * i / 3904) false && ok.getD ((257 * i + 256) / 3904) false) ((bits.drop (257 * i)).take 257)) s

/-- A pending map of a direction applies from container 0 of its superrow on (R289). -/
def State.quayTurn (rx : Bool) (seq : W32) (s : State) : State :=
  if seq.toNat % 1024 = 0 ∧ s.quayAt rx = some (seq.toNat / 1024) then s.quaySwitch rx else s

/-- A row is formed from the oldest blocks of the eight lanes (R286, R287); while the link is up its containers reach the clients. -/
def State.quayRow (seq : W32) (s : State) : State :=
  let heads := (List.range 8).filterMap (fun n => (s.quayLane n).held.head?)
  let whole := heads.all (·.ok)
  let wrong := heads.any (fun p => p.ok && p.seq != seq)
  let s := forN 8 (fun n s => s.setQuayLane n { s.quayLane n with held := (s.quayLane n).held.drop 1 }) s
  if wrong then s.quayDown 1
  else
    let up := s.flag R.QLK_STATE F.QLK_STATE_link_up
    let s := ((s.setFlag R.QLK_STATE F.QLK_STATE_deskewed true).setReg R.QLK_SEQ_RX seq).quayTurn true seq
    let s := { s with lanes := { s.lanes with good := if whole then min 2 (s.lanes.good + 1) else 0 } }
    if up then (s.addCnt R.QLK_ROW_CNT 1).quayGive seq (heads.map (·.ok)) (bytesBits (heads.flatMap (·.payload)))
    else if s.lanes.good < 2 then s
    else
      let s := (s.setFlag R.QLK_STATE F.QLK_STATE_link_up true).logEvent 0x13 sevInfo 0x0001 (evData [(4, seq.toNat)])
      s.hostFail s.quayClients false

/-- QUAY_ROW (R286): a deskewed link takes the next row; else the search for a common seq runs over the blocks held, and fails when the skew is larger
than nine blocks can hold. -/
def execQuayRow (s : State) : Out :=
  if s.fld R.QLK_STATE F.QLK_STATE_locked ≠ 255 then .next s
  else if s.flag R.QLK_STATE F.QLK_STATE_deskewed then
    if (List.range 8).all (fun n => !(s.quayLane n).held.isEmpty) then .next (s.quayRow (s.reg R.QLK_SEQ_RX + 1)) else .next s
  else match s.quayCommon with
    | some seq =>
      .next ((forN 8 (fun n s => s.setQuayLane n { s.quayLane n with held := heldFrom seq (s.quayLane n).held }) s).quayRow seq)
    | none =>
      if (List.range 8).all (fun n => (s.quayLane n).held.length == 9) then
        .next (s.setFlag R.QLK_STATUS F.QLK_STATUS_deskew_err true)
      else .next s

/-- The container of a Quay slot (R288, R290): the next four units of its tributary's client, berth fills for those that are missing; zero for filler, for an
unassigned slot and without a client. -/
def State.quayFill (slot : Option Nat) (s : State) : List Bool × State :=
  match (slot.bind (quayTrib (s.quayMap false true))).bind s.quayClient with
  | none => (List.replicate 257 false, s)
  | some n => (xcode (takePad 4 berthFill (s.client n).quay), s.setClient n { s.client n with quay := (s.client n).quay.drop 4 })

/-- The containers of some slots, in their order. -/
def State.quayForm (l : List (Option Nat)) (s : State) : List Bool × State :=
  match l with
  | [] => ([], s)
  | x :: l =>
    let b := s.quayFill x
    let r := State.quayForm l b.2
    (b.1 ++ r.1, r.2)

/-- A Quay lane begins a block of a row (R276, R281 to R284); outside L0 and after a fault it is in electrical idle (R292, R293). -/
def State.quaySend (seq : W32) (bits : List Bool) (n : Nat) (s : State) : State :=
  let x := s.quayLane n
  if s.lanePstate true n ≠ 0 ∨ (s.lane true n).fault then s.setQuayLane n { x with out := [] }
  else
    let cfg := s.flag (R.QLK_LANE_CFG n)
    let b := quayBlock n (cfg F.QLK_LANE_CFG_tx_precode) (cfg F.QLK_LANE_CFG_tx_inv) seq (quayLanePayload bits n) x.txScr
    s.setQuayLane n { x with out := b.1, txScr := b.2 }

/-- A row begins on the eight lanes (R281, R284, R288, R289). -/
def State.quaySendRow (s : State) : State :=
  let seq := s.reg R.QLK_SEQ_TX
  let r := State.quayForm (quayRowSlots seq) (s.quayTurn false seq)
  forN 8 (fun n s => s.quaySend seq r.1 n) r.2

/-- QLK_CTRL.enable changed at a COMMIT: framing starts with row 0 (R284), or stops. -/
def State.quayEnable (on : Bool) (s : State) : State :=
  let s := (s.setReg R.QLK_SEQ_TX 0)
  let s := { s with lanes := { s.lanes with sym := 0 } }
  if on then s.quaySendRow
  else (forN 8 (fun n s => (s.setQuayLock n false).setQuayLane n { s.quayLane n with found := 0, errored := 0, held := [], out := [] }) s).quayDown 0

/-- One crystal cycle of Quay transmission: 2,125 symbols, 2,048 to a row (R281, R284). -/
def State.quayTick (hk : Nat) (s : State) : State :=
  if s.flag R.QLK_CTRL F.QLK_CTRL_enable ∧ s.domState 9 = 0 then
    let n := s.lanes.sym + 425 * hk
    let s := { s with lanes := { s.lanes with sym := n % 2048 } }
    forN (n / 2048) (fun _ s => (s.setReg R.QLK_SEQ_TX (s.reg R.QLK_SEQ_TX + 1)).quaySendRow) s
  else s

/-- A Quay lane drops to electrical idle. -/
def State.quayIdle (n : Nat) (s : State) : State := s.setQuayLane n { s.quayLane n with out := [] }

/-- LANE_FAULT (R293): the lane drops to electrical idle; its clients, or the whole Quay link, feel it. -/
def execLaneFault (quay : Bool) (lane : Fin 24) (s : State) : Out :=
  let n := lane.val
  if quay ∧ 8 ≤ n then .next s
  else
    let s := (s.setLane quay n { fromL1 := false, fault := true }).laneAdapt quay n
    if quay then
      .next ((((s.setFlag R.QLK_STATUS F.QLK_STATUS_lane_fault true).logEvent 0x13 sevFault 0x0004 (evData [(1, n)])).quayUnlock n).quayIdle n)
    else
      .next (((s.setFlag R.HLN_STATUS F.HLN_STATUS_lane_fault true).logEvent 0x12 sevFault 0x0002 (evData [(1, n)])).hostFail
        (s.laneClients n) true)

end Sys2Proof.Machine
end

