-- ==== Sys2Proof/Machine/Tide.lean ====
section
/-! DEFINITION. The tide boundary (R22, R51, R52): COMMITs act, staged values become effective or are checked (R54, R64, R94), entries are sealed (R75), the
berth banks swap (R62), the pilot judges the heartbeat (R349), the hawser copy starts (R353 to R355), the gatherer captures (R447). -/
namespace Sys2Proof.Machine

/-! ### Staged values at an acting COMMIT -/

/-- A word whose staged fields are as staged. -/
def State.stagedFld (s : State) (a : Nat) (f : Fld) : Nat := getBits f (s.staged a)

/-- The highest slot of a map that is assigned, counted from 1. -/
def topSlot : List Byte → Nat
  | [] => 0
  | b :: l => let n := topSlot l; if n = 0 then b2n (b.getLsbD 7) else n + 1

/-- Carrier c is in service in some direction. -/
def State.carServing (s : State) (c : Carrier) : Bool :=
  s.fld (R.TXP_STATE c) F.TXP_STATE_state == 3 || s.fld (R.RXF_STATE c) F.RXF_STATE_state == 3

/-- The result code of R94 for the staged CAR_MODE_x. -/
def State.modeErr (s : State) (c : Carrier) : Nat :=
  let g := s.stagedFld (R.CAR_MODE c)
  let rs8 := g F.CAR_MODE_rs8
  let base := g F.CAR_MODE_base
  let rate := g F.CAR_MODE_rate
  let h64 := g F.CAR_MODE_h64
  let roll := g F.CAR_MODE_roll
  let fam := g F.CAR_MODE_family
  let iop := s.stagedFld (R.FEC_IOP_CFG c) F.FEC_IOP_CFG_iop_mode
  if rs8 < 512 ∨ 2048 < rs8 then 1
  else if 230400 < (100 + roll) * rs8 then 2
  else if base < 3 ∧ entropyOk base h64 = false then 3
  else if base = 3 ∨ roll < 2 ∨ 20 < roll ∨ (fam = 1 ∧ 1 < iop) ∨ (1 < fam ∧ 0 < iop) then 4
  else if capacityOf rs8 base rate h64 < topSlot (s.txMap c) then 5
  else if s.carServing c ∧ s.stagedDiff (R.CAR_MODE c) then 6
  else 0

/-- The check of CAR_MODE_x at a COMMIT (R94): a valid value applies to a stopped carrier, whose capacity follows. -/
def State.carCommit (c : Carrier) (s : State) : State :=
  let e := s.modeErr c
  let s' := s.setFld (R.CAR_MODE_STATUS c) F.CAR_MODE_STATUS_mode_err e
  if e ≠ 0 ∨ s.stagedDiff (R.CAR_MODE c) = false then s'
  else
    let s := s'.applySet (fun a _ => a == R.CAR_MODE c)
    s.setFld (R.CAR_MODE_STATUS c) F.CAR_MODE_STATUS_capacity
      (capacityOf (s.carRs8 c) (s.carBase c) (s.carRate c) (s.fld (R.CAR_MODE c) F.CAR_MODE_h64))

/-- A staged queue depth. -/
def State.stagedDepth (s : State) (n : Nat) : Nat := s.stagedFld (R.QCT_DEPTH n) F.QCT_DEPTH_depth

/-- The staged depths keep R64's conditions. -/
def State.depthsOk (s : State) : Bool :=
  (List.range 64).all (fun n =>
    let d := s.stagedDepth n
    (d == 0 || (d % 16 == 0 && 16 ≤ d && d ≤ 65536)) && (queueAssigned n || d == 0))
  && decide (((List.range 64).map s.stagedDepth).sum ≤ 65536)

/-- The queue depths at a COMMIT (R64): a set that passes replaces the pending set; one that fails is kept staged. -/
def State.depthCommit (s : State) : State :=
  if s.depthsOk = false then s.setFlag R.QCT_STATUS F.QCT_STATUS_depth_err true
  else
    let l := (List.range 64).map s.stagedDepth
    if l = ((List.finRange 64).map (fun q => (s.queue q).depth)) then
      ({ s with qc := { s.qc with pendDepth := none } }).setFlag R.QCT_STATUS F.QCT_STATUS_depth_pending false
    else ({ s with qc := { s.qc with pendDepth := some l } }).setFlag R.QCT_STATUS F.QCT_STATUS_depth_pending true

/-- The pending depth set applies whole at a COMMIT boundary at which every queue that changes holds no entry (R64). -/
def State.depthApply (s : State) : State :=
  match s.qc.pendDepth with
  | none => s
  | some l =>
    if (List.finRange 64).all (fun q => (s.queue q).depth == l.getD q.val 0 || (s.queue q).entries.isEmpty) then
      let s := (List.finRange 64).foldl (fun (s : State) (q : Fin 64) =>
        let d := l.getD q.val 0
        (s.setQueue q { s.queue q with depth := d }).setFld (R.QCT_DEPTH q.val) F.QCT_DEPTH_depth d) s
      ({ s with qc := { s.qc with pendDepth := none } }).setFlag R.QCT_STATUS F.QCT_STATUS_depth_pending false
    else s

/-- QUEUE_DEPTH_APPLY (R64): the pending set is judged at the COMMIT boundary that the grid stands at; at any other moment it waits on. -/
def execQueueDepthApply (s : State) : Out :=
  if s.qc.atCommit && s.time.phase == 0 then .next s.depthApply.releaseWaiters else .next s

/-- A register's staged values take effect at the COMMIT itself (R54): those without a boundary of their own, and those whose engine does not run, so that it
has no boundary to wait for (DESIGN CHOICE: notes/assumptions/48.md). -/
def State.actsNow (s : State) (a : Nat) (f : RegFam) : Bool :=
  let c : Carrier := if inCarrier .B a then .B else .A
  match f.bnd with
  | .commit => true
  | .txSf | .frmTx => s.fld (R.TXP_STATE c) F.TXP_STATE_state != 3
  | .rxSf => !s.flag (R.RXF_STATE c) F.RXF_STATE_sf_lock
  | .fecBlk => !s.flag (R.FEC_STATE c) F.FEC_STATE_enc_run && s.fld (R.FEC_STATE c) F.FEC_STATE_blk_lock == 0
  | .tmrWrap | .carMode | .depth | .clmCfg | .refCfg => false

/-- Every staged value of the COMMITs that act takes effect, waits for its engine's boundary, or is checked (R51, R54). -/
def State.commitAct (s : State) : State :=
  let s := s.commitStaged
  let brt := s.brtChanged
  let hosts := (List.range 128).filter (fun n => s.stagedDiff (R.CLM_CLIENT_CFG n))
  let quay := s.flag R.QLK_CTRL F.QLK_CTRL_enable
  let idle := (List.range 8).filter (fun n => s.tmrOn n = false)
  let s := s.depthCommit.depthApply
  let s := s.carCommit .A
  let s := if s.hasCarrier .B then s.carCommit .B else s
  let s := ((s.applySet s.actsNow).iqCheck .A).iqCheck .B
  let s := idle.foldl (fun s n => s.tmrApply n) s
  let s := (s.clmCommit brt).refCommit
  let s := if s.fld (R.TXP_STATE .A) F.TXP_STATE_state ≠ 3 then s.txMirror .A else s
  let s := if s.hasCarrier .B ∧ s.fld (R.TXP_STATE .B) F.TXP_STATE_state ≠ 3 then s.txMirror .B else s
  let s := s.hostShow hosts
  let on := s.flag R.QLK_CTRL F.QLK_CTRL_enable
  let s := if on = quay then s else s.quayEnable on
  s.monShow.logEnable.avsTarget.refreshModes

/-! ### COMMIT acts -/

/-- A core whose COMMIT acts at this boundary. -/
def State.commits (s : State) (k : CoreId) : Bool := (s.core k).run == .running && (s.core k).wait == .commit

/-- Every entry of a core's epoch becomes sealed (R75). -/
def State.sealEntries (epoch : W16) (s : State) : State :=
  (List.finRange 64).foldl (fun (s : State) (q : Fin 64) =>
    let x := s.queue q
    if x.entries.any (fun e => e.desc.epoch == epoch.toNat && !e.sealed) then
      s.setQueue q { x with entries := x.entries.map (fun e => if e.desc.epoch = epoch.toNat then { e with sealed := true } else e) }
    else s) s

/-- The berth banks swap where that was asked for (R62): every berth-level claim is released. -/
def State.bankSwap (s : State) : State :=
  if s.berth.swapReq then
    ({ s with berth := { s.berth with active := !s.berth.active, swapReq := false } }).releaseHolder .berth
  else s

/-- The COMMIT of a core retires after the boundary. -/
def State.commitRetire (k : CoreId) (s : State) : State := (s.retire k).pmcCount k 15 1

/-- The COMMITs that wait act as one (R51, R359). -/
def State.commitAll (s : State) : State :=
  let a := s.commits .A
  let b := s.commits .B
  let s := s.commitAct
  let s := if a then s.sealEntries s.coreA.epoch else s
  let s := if b then s.sealEntries s.coreB.epoch else s
  let s := s.bankSwap
  let s := if a then s.commitRetire .A else s
  if b then s.commitRetire .B else s

/-! ### The pilot and the hawser at the boundary -/

/-- No heartbeat at this boundary (R349, R52). -/
def State.missHeartbeat (s : State) : State :=
  if s.pilot.ok ∧ s.active.isSome then
    ({ s with pilot := { s.pilot with missed := s.pilot.missed + 1 } }).addCnt R.PLT_MISSED_HB_CNT 1
  else s

/-- The copy of the tide that ends is over (R354, R355): one that is not whole by now leaves its lines pending, and a standby in sync is resyncing. -/
def State.copyEnd (s : State) : State :=
  match s.hws.copy, s.standby with
  | some c, some j =>
    let s := s.copyVoid
    if c.isVoid = false ∧ s.roleOf j = 1 then s.enterResync j 1 else s
  | some _, none => s.copyVoid
  | none, _ => s

/-- Every pending line (R353). -/
def State.pendAll (s : State) : List Nat := s.hws.pend ++ (List.range (32768 - s.hws.pendFrom)).map (s.hws.pendFrom + ·)

/-- The state of a core that the hawser carries (R353). -/
def State.snapOf (s : State) (k : CoreId) : CoreSnap :=
  let c := s.core k
  { h := c.h, pc := c.pc, pstate := c.pstate, tvec := c.tvec, epc := c.epc, faddr := c.faddr, fault := c.fault, eventH := c.eventH
    eventB := c.eventB, scratch := c.scratch, bank := s.berth.active }

/-- The budget of a tide, and the most that an extended tide carries, in bytes (R354). -/
abbrev hwsBudget : Nat := 49152
abbrev hwsMost : Nat := 114688

/-- A hawser overrun extends the tide that begins (R354). -/
def State.hwsOverrun (bytes ext : Nat) (s : State) : State :=
  let s := ({ s with time := { s.time with ext } }).addCnt R.HWS_OVERRUN_CNT 1
  let s := ((s.addCnt R.HWS_EXT_CNT ext).setFlag R.HWS_STATUS F.HWS_STATUS_overrun true).noteTotal 40 1
  s.logEvent 0x1B sevWarn 0x0001 (evData [(4, bytes), (4, ext)])

/-- The copy of core k's state of this boundary starts toward the standby j (R353 to R355). -/
def State.copyStart (k j : CoreId) (s : State) : State :=
  let all := s.pendAll
  let resync := s.roleOf j = 2
  let lines := if resync then all.take 760 else all
  let rest := all.drop lines.length
  let bytes := 512 + 64 * lines.length
  let copy : HawserCopy := { snap := s.snapOf k, lines, saved := [], isWhole := lines.length == all.length
                             incomplete := decide (hwsMost < bytes), isVoid := false }
  let from_ := if rest.isEmpty then 32768 else max s.hws.pendFrom (lines.getLastD 0 + 1)
  let s := { s with hws := { s.hws with copy := some copy, pend := rest.filter (· < from_), pendFrom := from_ } }
  if bytes ≤ hwsBudget then s else s.hwsOverrun bytes (min 512 ((bytes - hwsBudget + 127) / 128))

/-- The conditions of a revert hold at this boundary (R358). -/
def State.revertDue (s : State) : Bool :=
  s.active == some .B && s.roleOf .A == 1 && s.pilot.wtrDone && s.flag R.PLT_CFG F.PLT_CFG_revert_en && s.pilot.ok
    && !s.flag R.PLT_STATUS F.PLT_STATUS_force_b && !s.pilot.dual

/-- After a tide with no COMMIT, a standby in sync is resyncing if the pending set exceeds the budget (R355). -/
def State.missedTide (s : State) : State :=
  match s.standby with
  | some j => if s.roleOf j = 1 ∧ 760 < s.pendAll.length then s.enterResync j 3 else s
  | none => s

/-- The hawser at a boundary: the copy starts where a COMMIT of the active core acted and there is a standby; acted: it did. -/
def State.hwsBoundary (acted : Bool) (s : State) : State :=
  let s := s.setFld R.HWS_STATE F.HWS_STATE_pending (min 32768 s.pendAll.length)
  match acted, s.active, s.standby with
  | true, some k, some j =>
    let due := s.revertDue
    let s := { s with pilot := { s.pilot with handover := due } }
    s.copyStart k j
  | true, _, _ => { s with pilot := { s.pilot with handover := false } }
  | false, _, _ => ({ s with pilot := { s.pilot with handover := false } }).missedTide

/-- TIDE counts on, the new tide begins (R22, R354). -/
def State.tideStep (s : State) : State :=
  let old := s.time.ext
  let s := s.advancePhase (4608 + 9 * old)
  ({ s with time := { s.time with tide := s.time.tide + 1, phase := 0, ext := 0, commitPoint := false } }).setFld R.HWS_STATE F.HWS_STATE_ext old

/-- The core whose COMMIT gives the heartbeat (R51, R358). -/
def State.beater (s : State) : Option CoreId := if s.pilot.dual then some .A else s.active

/-- The boundary has, or lacks, the heartbeat of the beating core (R51, R358). -/
def State.tideBeat (beat : Bool) (s : State) : State :=
  let s := if beat then { s with pilot := { s.pilot with missed := 0 } } else s.missHeartbeat
  { s with sec := { s.sec with heartbeat := beat } }

/-- The active core is shown (R347), and a resynchronising standby's boundaries are counted (R354). -/
def State.tideRoles (s : State) : State :=
  let s := if s.pilot.ok then { s with pilot := { s.pilot with coreBActive := s.active == some .B } } else s
  match s.standby with
  | some j => if s.roleOf j = 2 then { s with hws := { s.hws with tides := s.hws.tides + 1 } } else s
  | none => s

/-- A COMMIT sends the taps of both carriers to their idle slices, standby core or not (R165). -/
def State.tapCopies (s : State) : State :=
  let s := s.eqCopyStart .A
  if s.hasCarrier .B then s.eqCopyStart .B else s

/-- The shadow copies of both carriers age by the tide (R165). -/
def State.tideAges (s : State) : State :=
  let s := s.eqAge .A
  if s.hasCarrier .B then s.eqAge .B else s

/-- TIDE_BOUNDARY (R22, R51, R52, R349, R353 to R359, R447). -/
def execTideBoundary (s : State) : Out :=
  let extended := s.time.ext != 0
  let s := s.tideStep
  let beat := s.beater.any s.commits
  let dual := s.pilot.dual
  let acts := s.commits .A || s.commits .B
  let s := if acts then s.commitAll.tapCopies else s
  let s := { s with qc := { s.qc with atCommit := acts } }
  let s := (s.tideBeat beat).copyEnd
  let s := if dual then s.endDual else s
  let s := s.tideRoles.tideAges.hwsBoundary beat
  .next ((s.capSnap extended).logCapture).releaseWaiters

end Sys2Proof.Machine
end

