-- ==== Sys2Proof/Machine/Harbour.lean ====
section
/-! DEFINITION. The harbour firmware's mailbox services (R476, Table HIF-3) and the end of engine commands that took time (R67, R70). -/
namespace Sys2Proof.Machine

/-! ### Harbour mailbox requests -/

/-- The firmware of the active core serves slot n: it runs at the harbour level, and the slot holds an untaken request with a code. -/
def State.servable (s : State) (n code : Nat) : Bool :=
  s.hifServes && s.mbxPend n && s.load (mbxReq n) 2 == code && (match s.active with
    | some k => (s.core k).run == .running && (s.core k).wait == .none && (s.core k).harbour
    | none => false)

/-- An answer: result and response data. -/
structure Answer where
  result : Nat
  data : List Byte
deriving DecidableEq, Repr

/-- The request is taken, its service runs on the active core and the 56 argument bytes, and it is answered (R474, Table HIF-2). -/
def State.serve (slot : Fin 64) (code : Nat) (f : CoreId → List Byte → State → Answer × State) (s : State) : State :=
  let n := slot.val
  match s.servable n code, s.active with
  | true, some k =>
    let (r, s) := f k (s.bytes (mbxReq n + 4) 56) (s.mbxTake n)
    (s.setBytes (mbxResp n) (leBytes 2 code ++ [0, 0] ++ r.data)).mbxDone n r.result
  | _, _ => s

/-- n bytes of a request's arguments from byte o. -/
def argNat (l : List Byte) (o n : Nat) : Nat := leNat ((l.drop o).take n)

/-- PING: the harbour's security_version (Table SEC-4) and the firmware's build, which is open. -/
def execPing (slot : Fin 64) (s : State) : Out :=
  .next (s.serve slot 0x0001 (fun _ _ s =>
    let (b, s) := s.draw
    (⟨0, leBytes 4 (match s.boot.harbour with
      | some o => s.mf o 0x0C 4
      | none => 0) ++ leBytes 4 b.toNat⟩, s)))

/-- CFG_WRITE: the bits of mask take value, by a program write at the harbour level; allowed: the harbour policy's windows hold the address. -/
def execCfgWrite (slot : Fin 64) (allowed : Bool) (s : State) : Out :=
  .next (s.serve slot 0x0010 (fun k l s =>
    let a := argNat l 0 4
    let w := BitVec.ofNat 64 a
    if allowed = false then (⟨0x04, []⟩, s)
    else if s.absentAt a then (⟨0x03, []⟩, s)
    else if (s.writeFault true w).isSome then (⟨0x02, []⟩, s)
    else if s.laidUp (domainOfAddr a) then (⟨0x06, [0x05]⟩, s)
    else
      let m := BitVec.ofNat 32 (argNat l 8 4)
      let v := (s.view a &&& ~~~m &&& ~~~(w1cMask (fieldsAt a))) ||| (BitVec.ofNat 32 (argNat l 4 4) &&& m)
      match s.programWrite k w v with
      | .next s => (⟨0, []⟩, s)
      | _ => (⟨0x06, [0x05]⟩, s)))

/-- ENGINE_CMD: a SEND of the host's descriptor. -/
def execEngineCmd (slot : Fin 64) (s : State) : Out :=
  .next (s.serve slot 0x0011 (fun k l s =>
    let q := argNat l 0 1
    let x := s.queue (Fin.ofNat 64 q)
    if 64 ≤ q ∨ argNat l 1 3 ≠ 0 ∨ x.depth = 0 then (⟨0x02, []⟩, s)
    else if x.depth ≤ x.entries.length then (⟨0x05, []⟩, s)
    else
      let (t, s) := s.accept k (Fin.ofNat 64 q) (descOf ((l.drop 4).take 32))
      (⟨0, leBytes 4 t.toNat⟩, s)))

/-- Result 0 of a ticket in state 3 (Table ENG-4). -/
def State.ticketResult (s : State) (t : W32) : Nat :=
  match (s.queue (ticketQueue t)).done.find? (fun d => d.1 == t) with
  | some d => d.2.2.2
  | none => 0

/-- CMD_STATUS: the word that POLLT writes, and result0 once the command is done. -/
def execCmdStatus (slot : Fin 64) (s : State) : Out :=
  .next (s.serve slot 0x0012 (fun _ l s =>
    let t := BitVec.ofNat 32 (argNat l 0 4)
    (⟨0, leBytes 4 (s.polltWord t) ++ (if (s.ticketState t).1 = 3 then leBytes 8 (s.ticketResult t) else [])⟩, s)))

/-- LOAD_BERTH: the code of Table HXS-14; with swap 1 the bank swap is taken at the next COMMIT (R62). -/
def execLoadBerth (slot : Fin 64) (s : State) : Out :=
  .next (s.serve slot 0x0020 (fun _ l s =>
    let swap := argNat l 4 1
    if 1 < swap then (⟨0x02, []⟩, s)
    else if s.secStateCode ≠ 1 then (⟨0x06, [0x02]⟩, s)
    else
      let (code, s) := s.loadBerth (argNat l 0 4)
      if code ≠ 0 then (⟨0x06, [BitVec.ofNat 8 code]⟩, s)
      else (⟨0, [0]⟩, if swap = 1 then { s with berth := { s.berth with swapReq := true } } else s)))

/-- FLASH_WRITE (R479). -/
def execFlashWrite (slot : Fin 64) (s : State) : Out :=
  .next (s.serve slot 0x0021 (fun _ l s =>
    let o := argNat l 0 4
    let n := argNat l 4 1
    if n = 0 ∨ 48 < n ∨ argNat l 5 3 ≠ 0 ∨ flashSize < o + n then (⟨0x02, []⟩, s)
    else if s.flashProtected o n then (⟨0x04, []⟩, s)
    else (⟨0, []⟩, s.flashProgram o ((l.drop 8).take n))))

/-- FLASH_ERASE (R479): one sector. -/
def execFlashErase (slot : Fin 64) (s : State) : Out :=
  .next (s.serve slot 0x0022 (fun _ l s =>
    let o := argNat l 0 4
    if o % 4096 ≠ 0 ∨ flashSize < o + 4096 then (⟨0x02, []⟩, s)
    else if s.flashProtected o 4096 then (⟨0x04, []⟩, s)
    else (⟨0, []⟩, s.flashErase o (o + 4096))))

/-- SET_BOOT_SLOT (R478): with no valid directory copy there is none to take the next generation from. -/
def execSetBootSlot (slot : Fin 64) (s : State) : Out :=
  .next (s.serve slot 0x0023 (fun _ l s =>
    let b := argNat l 0 1
    if 1 < b then (⟨0x02, []⟩, s)
    else match s.setBootSlot b with
      | some (gen, s) => (⟨0, leBytes 4 gen⟩, s)
      | none => (⟨0x06, [0x41]⟩, s)))

/-- SNAP_HOLD (R449): the data says the held buffer and its s; how they are laid out is open. -/
def execSnapHold (slot : Fin 64) (s : State) : Out :=
  .next (s.serve slot 0x0030 (fun _ _ s =>
    let (l, s) := s.snapHold.drawBytes 56
    (⟨0, l⟩, s)))

/-- SNAP_RELEASE (R449). -/
def execSnapRelease (slot : Fin 64) (s : State) : Out := .next (s.serve slot 0x0031 (fun _ _ s => (⟨0, []⟩, s.snapRelease)))

/-- LOG_FLUSH: the firmware sends LG_FLUSH to LOG; it answers when that has completed (MBX_DONE). -/
def execLogFlush (slot : Fin 64) (s : State) : Out :=
  .next (match s.servable slot.val 0x0032, s.active with
    | true, some k =>
      let s := s.mbxTake slot.val
      let x := s.queue 31
      if x.depth ≤ x.entries.length then s.mbxDone slot.val 0x05
      else (s.accept k 31 { opcode := 0x100, flags := 0, unit := 0xFF, epoch := 0, level := 0, rsvd := 0, arg0 := 0, arg1 := 0,
                            resultAddr := 0, arg2 := 0 }).2
    | _, _ => s)

/-- LOG_READ: arguments 1 and 2 of LG_READ; buffer is the firmware's place for the entries in the shared pool. -/
def execLogRead (slot : Fin 64) (buffer : W32) (s : State) : Out :=
  .next (if bufferOk buffer.toNat 16384 = false then s else s.serve slot 0x0033 (fun _ l s =>
    let ((st, _, bits), s) := s.lgRead 0xFF buffer.toNat (argNat l 0 8) (argNat l 8 4)
    if st = 0x06 then (⟨0x06, [0x06]⟩, s)
    else if st ≠ 0 then (⟨st, []⟩, s)
    else (⟨0, leBytes 4 buffer.toNat ++ leBytes 8 bits⟩, s)))

/-- RESET_DEVICE: the answer; HIF_SWRESET follows 1 ms later as a row of its own. -/
def execResetDevice (slot : Fin 64) (s : State) : Out := .next (s.serve slot 0x0040 (fun _ _ s => (⟨0, []⟩, s)))

/-! ### Commands that took time -/

/-- How a started command ends (the engine chapters' command tables): its status and results, and the state with its effects; none where another row
ends it.  r0, r1 and failed are what the engine found. -/
def State.commandEnd (e : QEntry) (failed : Bool) (r0 r1 : Nat) (s : State) : Option ((Nat × Nat × Nat) × State) :=
  let q := (ticketQueue e.ticket).val
  let d := e.desc
  let car : Carrier → Option ((Nat × Nat × Nat) × State) := fun c =>
    if q = (eqzQ c).val ∧ d.opcode = 0x103 then some ((0, b2n failed, 0), s.eqRetestDone c d.unit (!failed))
    else if q = (fecQ c).val ∧ d.opcode = 0x101 then some ((0, b2n failed, 0), s.fecRetestDone c d.unit (!failed))
    else none
  match car .A, car .B with
  | some r, _ => some r
  | none, some r => some r
  | none, none =>
    if q = 20 ∧ d.opcode = 0x100 then some ((0, b2n failed, 0), s.cpRetestDone d failed)
    else if q = 28 ∧ d.opcode = 0x100 then some (s.scrubDone d)
    else if q = 29 ∧ d.opcode = 0x100 then some (s.scanDone d)
    else if failed then some ((0x05, r0, r1), s)
    else if q = 24 ∧ d.opcode = 0x101 then some ((0, r0, 0), s)
    else if q = 18 ∧ d.opcode = 0x100 then some ((0, b2n (s.unitReady false d.unit), 0), s)
    else if q = 19 ∧ d.opcode = 0x100 then some ((0, b2n (s.unitReady true d.unit), 0), s)
    else none

/-- COMMAND_COMPLETION (R67, R68, R70): the started command with a ticket ends; failed: its self-test failed, or its engine failed while
executing it; r0 and r1 are what the engine measured. -/
def execCommandCompletion (ticket : W32) (failed : Bool) (r0 r1 : W64) (s : State) : Out :=
  .next (match s.entryOf ticket with
    | none => s
    | some e =>
      if e.started = false then s
      else match s.commandEnd e failed r0.toNat r1.toNat with
        | none => s
        | some ((st, a, b), s) => s.complete e st a b)

end Sys2Proof.Machine
end

