-- ==== Sys2Proof/Machine/Dispatch.lean ====
section
/-! DEFINITION. The meaning of every command: one arm per constructor of Instr, one direct call of its meaning. -/
namespace Sys2Proof.Machine

def exec (i : Instr) (s : State) : Host.Outcome State Fault Refusal :=
  match i with
  | .add k rd ra rb => Sys2Proof.Machine.execAdd k rd ra rb s
  | .sub k rd ra rb => Sys2Proof.Machine.execSub k rd ra rb s
  | .and k rd ra rb => Sys2Proof.Machine.execAnd k rd ra rb s
  | .or k rd ra rb => Sys2Proof.Machine.execOr k rd ra rb s
  | .xor k rd ra rb => Sys2Proof.Machine.execXor k rd ra rb s
  | .shl k rd ra rb => Sys2Proof.Machine.execShl k rd ra rb s
  | .shr k rd ra rb => Sys2Proof.Machine.execShr k rd ra rb s
  | .sar k rd ra rb => Sys2Proof.Machine.execSar k rd ra rb s
  | .mul k rd ra rb => Sys2Proof.Machine.execMul k rd ra rb s
  | .mulh k rd ra rb => Sys2Proof.Machine.execMulh k rd ra rb s
  | .clz k rd ra rb => Sys2Proof.Machine.execClz k rd ra rb s
  | .maddq k rd ra rb => Sys2Proof.Machine.execMaddq k rd ra rb s
  | .addi k rd ra imm => Sys2Proof.Machine.execAddi k rd ra imm s
  | .lui k rd ra imm => Sys2Proof.Machine.execLui k rd ra imm s
  | .beq k ra rb off => Sys2Proof.Machine.execBeq k ra rb off s
  | .bne k ra rb off => Sys2Proof.Machine.execBne k ra rb off s
  | .blt k ra rb off => Sys2Proof.Machine.execBlt k ra rb off s
  | .bge k ra rb off => Sys2Proof.Machine.execBge k ra rb off s
  | .bltu k ra rb off => Sys2Proof.Machine.execBltu k ra rb off s
  | .jal k rd off => Sys2Proof.Machine.execJal k rd off s
  | .jr k rd ra imm => Sys2Proof.Machine.execJr k rd ra imm s
  | .ldB k rd ra imm => Sys2Proof.Machine.execLdB k rd ra imm s
  | .ldH k rd ra imm => Sys2Proof.Machine.execLdH k rd ra imm s
  | .ldW k rd ra imm => Sys2Proof.Machine.execLdW k rd ra imm s
  | .ldD k rd ra imm => Sys2Proof.Machine.execLdD k rd ra imm s
  | .stB k rs ra imm => Sys2Proof.Machine.execStB k rs ra imm s
  | .stH k rs ra imm => Sys2Proof.Machine.execStH k rs ra imm s
  | .stW k rs ra imm => Sys2Proof.Machine.execStW k rs ra imm s
  | .stD k rs ra imm => Sys2Proof.Machine.execStD k rs ra imm s
  | .ldx k rd ra imm => Sys2Proof.Machine.execLdx k rd ra imm s
  | .stx k rs ra imm => Sys2Proof.Machine.execStx k rs ra imm s
  | .send k rd ra rb => Sys2Proof.Machine.execSend k rd ra rb s
  | .waitt k rd ra imm => Sys2Proof.Machine.execWaitt k rd ra imm s
  | .pollt k rd ra rb => Sys2Proof.Machine.execPollt k rd ra rb s
  | .fenceR k rd ra rb => Sys2Proof.Machine.execFenceR k rd ra rb s
  | .fenceQ k rd ra rb => Sys2Proof.Machine.execFenceQ k rd ra rb s
  | .fenceA k rd ra rb => Sys2Proof.Machine.execFenceA k rd ra rb s
  | .commit k rd ra rb => Sys2Proof.Machine.execCommit k rd ra rb s
  | .claim k rd ra imm => Sys2Proof.Machine.execClaim k rd ra imm s
  | .release k rd ra imm => Sys2Proof.Machine.execRelease k rd ra imm s
  | .mfs k rd ra imm => Sys2Proof.Machine.execMfs k rd ra imm s
  | .mts k rs ra imm => Sys2Proof.Machine.execMts k rs ra imm s
  | .trap k rd ra imm => Sys2Proof.Machine.execTrap k rd ra imm s
  | .eret k rd ra rb => Sys2Proof.Machine.execEret k rd ra rb s
  | .wfe k rd ra rb => Sys2Proof.Machine.execWfe k rd ra rb s
  | .wfeWake k => Sys2Proof.Machine.execWfeWake k s
  | .waittTimeout k => Sys2Proof.Machine.execWaittTimeout k s
  | .waittTicketDone k => Sys2Proof.Machine.execWaittTicketDone k s
  | .observationInterrupt k => Sys2Proof.Machine.execObservationInterrupt k s
  | .tideBoundary => Sys2Proof.Machine.execTideBoundary s
  | .commitPoint => Sys2Proof.Machine.execCommitPoint s
  | .queueDepthApply => Sys2Proof.Machine.execQueueDepthApply s
  | .snapshotWriteComplete => Sys2Proof.Machine.execSnapshotWriteComplete s
  | .pilotMissedHbDeclare => Sys2Proof.Machine.execPilotMissedHbDeclare s
  | .coreFaultSignal k doubleFault => Sys2Proof.Machine.execCoreFaultSignal k doubleFault s
  | .watchdogExpiry k => Sys2Proof.Machine.execWatchdogExpiry k s
  | .hawserFrameReceived checkOk => Sys2Proof.Machine.execHawserFrameReceived checkOk s
  | .hawserCopyComplete => Sys2Proof.Machine.execHawserCopyComplete s
  | .coreRestartHoldEnd k => Sys2Proof.Machine.execCoreRestartHoldEnd k s
  | .coreSelftestDone k failTest => Sys2Proof.Machine.execCoreSelftestDone k failTest s
  | .coreReloadDone k => Sys2Proof.Machine.execCoreReloadDone k s
  | .waitToRestoreExpiry => Sys2Proof.Machine.execWaitToRestoreExpiry s
  | .revertStart => Sys2Proof.Machine.execRevertStart s
  | .coldResumeRelease => Sys2Proof.Machine.execColdResumeRelease s
  | .pilotFault => Sys2Proof.Machine.execPilotFault s
  | .forceBallQualified edgeA edgeB lowA lowB => Sys2Proof.Machine.execForceBallQualified edgeA edgeB lowA lowB s
  | .forcedTakeover => Sys2Proof.Machine.execForcedTakeover s
  | .poresetNAssert => Sys2Proof.Machine.execPoresetNAssert s
  | .poresetNRelease testEn => Sys2Proof.Machine.execPoresetNRelease testEn s
  | .resetNAssert => Sys2Proof.Machine.execResetNAssert s
  | .resetNRelease => Sys2Proof.Machine.execResetNRelease s
  | .hifSwreset => Sys2Proof.Machine.execHifSwreset s
  | .perstN up lanes speed msix fnMask => Sys2Proof.Machine.execPerstN up lanes speed msix fnMask s
  | .rootPllLoss => Sys2Proof.Machine.execRootPllLoss s
  | .rootRelockRetry locked => Sys2Proof.Machine.execRootRelockRetry locked s
  | .rootPllLocked => Sys2Proof.Machine.execRootPllLocked s
  | .enclaveBoot code units => Sys2Proof.Machine.execEnclaveBoot code units s
  | .harbourManifestLoad => Sys2Proof.Machine.execHarbourManifestLoad s
  | .crystalLoss => Sys2Proof.Machine.execCrystalLoss s
  | .txSetState c => Sys2Proof.Machine.execTxSetState c s
  | .txDacSettled c => Sys2Proof.Machine.execTxDacSettled c s
  | .txMute c => Sys2Proof.Machine.execTxMute c s
  | .txLoadFir c => Sys2Proof.Machine.execTxLoadFir c s
  | .txLoadNlc c => Sys2Proof.Machine.execTxLoadNlc c s
  | .txCapture c => Sys2Proof.Machine.execTxCapture c s
  | .txSuperframeBoundary c clips nlcSat => Sys2Proof.Machine.execTxSuperframeBoundary c clips nlcSat s
  | .txUnderrun c => Sys2Proof.Machine.execTxUnderrun c s
  | .txpEngineFault c => Sys2Proof.Machine.execTxpEngineFault c s
  | .rxSetState c => Sys2Proof.Machine.execRxSetState c s
  | .rxAdcSettled c => Sys2Proof.Machine.execRxAdcSettled c s
  | .rxReacquire c => Sys2Proof.Machine.execRxReacquire c s
  | .rxCapture c => Sys2Proof.Machine.execRxCapture c s
  | .rxLosWindowEnd c r0 r1 r2 r3 clips iq => Sys2Proof.Machine.execRxLosWindowEnd c r0 r1 r2 r3 clips iq s
  | .hailCdDwellExpiry c => Sys2Proof.Machine.execHailCdDwellExpiry c s
  | .cdScanComplete c k1 k2 => Sys2Proof.Machine.execCdScanComplete c k1 k2 s
  | .trLockDeclared c offset => Sys2Proof.Machine.execTrLockDeclared c offset s
  | .trLockLost c => Sys2Proof.Machine.execTrLockLost c s
  | .trRangeTimeout c => Sys2Proof.Machine.execTrRangeTimeout c s
  | .sfPeakDetected c metric spacing => Sys2Proof.Machine.execSfPeakDetected c metric spacing s
  | .sfLockLost c => Sys2Proof.Machine.execSfLockLost c s
  | .reacqTimeout c => Sys2Proof.Machine.execReacqTimeout c s
  | .rxfEngineFault c => Sys2Proof.Machine.execRxfEngineFault c s
  | .rxSuperframeBoundary c m => Sys2Proof.Machine.execRxSuperframeBoundary c m s
  | .snrBelowThreshold c => Sys2Proof.Machine.execSnrBelowThreshold c s
  | .eqTapUpdate c grad sop => Sys2Proof.Machine.execEqTapUpdate c grad sop s
  | .eqHold c => Sys2Proof.Machine.execEqHold c s
  | .eqReconverge c => Sys2Proof.Machine.execEqReconverge c s
  | .eqReadTaps c => Sys2Proof.Machine.execEqReadTaps c s
  | .eqSliceRetest c => Sys2Proof.Machine.execEqSliceRetest c s
  | .eqzShadowCopyComplete c => Sys2Proof.Machine.execEqzShadowCopyComplete c s
  | .sliceFailureDeclared c slice cause errs => Sys2Proof.Machine.execSliceFailureDeclared c slice cause errs s
  | .sliceSwap c => Sys2Proof.Machine.execSliceSwap c s
  | .eqzCrrEngineFault c crr => Sys2Proof.Machine.execEqzCrrEngineFault c crr s
  | .crReacquire c => Sys2Proof.Machine.execCrReacquire c s
  | .crFreqSeed c => Sys2Proof.Machine.execCrFreqSeed c s
  | .crCapture c => Sys2Proof.Machine.execCrCapture c s
  | .fecBlockLockSearch c hard => Sys2Proof.Machine.execFecBlockLockSearch c hard s
  | .fecBlockRelease c syms => Sys2Proof.Machine.execFecBlockRelease c syms s
  | .fecSeedFail c chain => Sys2Proof.Machine.execFecSeedFail c chain s
  | .fecEngineFailed c engine cause => Sys2Proof.Machine.execFecEngineFailed c engine cause s
  | .fecEngineSwap c => Sys2Proof.Machine.execFecEngineSwap c s
  | .fecEncoderFault c block => Sys2Proof.Machine.execFecEncoderFault c block s
  | .fecRelock c => Sys2Proof.Machine.execFecRelock c s
  | .fecRetest c => Sys2Proof.Machine.execFecRetest c s
  | .fecCapture c => Sys2Proof.Machine.execFecCapture c s
  | .hlSend c => Sys2Proof.Machine.execHlSend c s
  | .hlRecv c => Sys2Proof.Machine.execHlRecv c s
  | .hailBurstStart c => Sys2Proof.Machine.execHailBurstStart c s
  | .hailBurstSent c => Sys2Proof.Machine.execHailBurstSent c s
  | .hailDetection c metric offset gain => Sys2Proof.Machine.execHailDetection c metric offset gain s
  | .hailWindowDetect c energy metric gain => Sys2Proof.Machine.execHailWindowDetect c energy metric gain s
  | .hailHeaderDecoded c header => Sys2Proof.Machine.execHailHeaderDecoded c header s
  | .hailBurstReceived c payload crc => Sys2Proof.Machine.execHailBurstReceived c payload crc s
  | .hailReceptionLost c => Sys2Proof.Machine.execHailReceptionLost c s
  | .hailLoss c => Sys2Proof.Machine.execHailLoss c s
  | .hailEngineFault c => Sys2Proof.Machine.execHailEngineFault c s
  | .frElwStart c => Sys2Proof.Machine.execFrElwStart c s
  | .frElwAnswer c => Sys2Proof.Machine.execFrElwAnswer c s
  | .frCaptureOh c => Sys2Proof.Machine.execFrCaptureOh c s
  | .elwProposeReceived c hail => Sys2Proof.Machine.execElwProposeReceived c hail s
  | .elwAnswerReceived c hail => Sys2Proof.Machine.execElwAnswerReceived c hail s
  | .elwCommitDeadline c => Sys2Proof.Machine.execElwCommitDeadline c s
  | .elwCommitReceived c hail => Sys2Proof.Machine.execElwCommitReceived c hail s
  | .elwSwitch c => Sys2Proof.Machine.execElwSwitch c s
  | .elwEntropySwitchBlock c => Sys2Proof.Machine.execElwEntropySwitchBlock c s
  | .elwResponderSwitch c => Sys2Proof.Machine.execElwResponderSwitch c s
  | .frmTxFrame c => Sys2Proof.Machine.execFrmTxFrame c s
  | .frmFasSearchMatch c pos isMatch => Sys2Proof.Machine.execFrmFasSearchMatch c pos isMatch s
  | .frmRxFrame c oh payload marked => Sys2Proof.Machine.execFrmRxFrame c oh payload marked s
  | .frmLofTimer c lom => Sys2Proof.Machine.execFrmLofTimer c lom s
  | .frmEngineFault c => Sys2Proof.Machine.execFrmEngineFault c s
  | .ospWindow port valid data => Sys2Proof.Machine.execOspWindow port valid data s
  | .clSetMap => Sys2Proof.Machine.execClSetMap s
  | .clReadMap => Sys2Proof.Machine.execClReadMap s
  | .clSetFlexeCal => Sys2Proof.Machine.execClSetFlexeCal s
  | .flexeCalendarSwitch g => Sys2Proof.Machine.execFlexeCalendarSwitch g s
  | .clmIngressUnit client ctl body => Sys2Proof.Machine.execClmIngressUnit client ctl body s
  | .clmEgressUnit client => Sys2Proof.Machine.execClmEgressUnit client s
  | .brtIngressFrame client frame => Sys2Proof.Machine.execBrtIngressFrame client frame s
  | .brtShaperRelease p => Sys2Proof.Machine.execBrtShaperRelease p s
  | .brtEgressHeader p => Sys2Proof.Machine.execBrtEgressHeader p s
  | .brtGuardBandStart p => Sys2Proof.Machine.execBrtGuardBandStart p s
  | .brtGateClose p => Sys2Proof.Machine.execBrtGateClose p s
  | .brResetTokens => Sys2Proof.Machine.execBrResetTokens s
  | .brFlush => Sys2Proof.Machine.execBrFlush s
  | .clmBrtEngineFault brt => Sys2Proof.Machine.execClmBrtEngineFault brt s
  | .hlSetPower => Sys2Proof.Machine.execHlSetPower s
  | .hlReadapt => Sys2Proof.Machine.execHlReadapt s
  | .qlSetPower => Sys2Proof.Machine.execQlSetPower s
  | .qlReadapt => Sys2Proof.Machine.execQlReadapt s
  | .qlSetMap => Sys2Proof.Machine.execQlSetMap s
  | .qlReadMap => Sys2Proof.Machine.execQlReadMap s
  | .laneRxReady quay lane snr => Sys2Proof.Machine.execLaneRxReady quay lane snr s
  | .laneL1ExitTimeout quay lane => Sys2Proof.Machine.execLaneL1ExitTimeout quay lane s
  | .laneLosDeclared quay lane => Sys2Proof.Machine.execLaneLosDeclared quay lane s
  | .laneLosCleared quay lane => Sys2Proof.Machine.execLaneLosCleared quay lane s
  | .quayBlockReceived lane syms => Sys2Proof.Machine.execQuayBlockReceived lane syms s
  | .quayRow => Sys2Proof.Machine.execQuayRow s
  | .quayMapApply rx superrow => Sys2Proof.Machine.execQuayMapApply rx superrow s
  | .laneFault quay lane => Sys2Proof.Machine.execLaneFault quay lane s
  | .cphTxRecord c client peak => Sys2Proof.Machine.execCphTxRecord c client peak s
  | .cphRxRecord c client peak => Sys2Proof.Machine.execCphRxRecord c client peak s
  | .cphUnitMismatch unit rxSide inFlight => Sys2Proof.Machine.execCphUnitMismatch unit rxSide inFlight s
  | .cphEngineFault => Sys2Proof.Machine.execCphEngineFault s
  | .cpUnitRetest => Sys2Proof.Machine.execCpUnitRetest s
  | .cpReadContext => Sys2Proof.Machine.execCpReadContext s
  | .getStatus ch => Sys2Proof.Machine.execGetStatus ch s
  | .getIdentity ch => Sys2Proof.Machine.execGetIdentity ch s
  | .getChallenge ch => Sys2Proof.Machine.execGetChallenge ch s
  | .zeroize ch => Sys2Proof.Machine.execZeroize ch s
  | .selfTest ch code => Sys2Proof.Machine.execSelfTest ch code s
  | .loadEndorsement ch => Sys2Proof.Machine.execLoadEndorsement ch s
  | .setPolicy ch => Sys2Proof.Machine.execSetPolicy ch s
  | .startAgreement ch => Sys2Proof.Machine.execStartAgreement ch s
  | .rekeyNow ch => Sys2Proof.Machine.execRekeyNow ch s
  | .endSession ch => Sys2Proof.Machine.execEndSession ch s
  | .loadBerthManifest ch => Sys2Proof.Machine.execLoadBerthManifest ch s
  | .programAnchor ch writeOk => Sys2Proof.Machine.execProgramAnchor ch writeOk s
  | .revokeAnchor ch writeOk => Sys2Proof.Machine.execRevokeAnchor ch writeOk s
  | .debugUnlock ch => Sys2Proof.Machine.execDebugUnlock ch s
  | .setTimers ch => Sys2Proof.Machine.execSetTimers ch s
  | .challengeExpiry ch => Sys2Proof.Machine.execChallengeExpiry ch s
  | .zeroizeNQualified => Sys2Proof.Machine.execZeroizeNQualified s
  | .zeroiseComplete identityOk => Sys2Proof.Machine.execZeroiseComplete identityOk s
  | .secErrorEntry code => Sys2Proof.Machine.execSecErrorEntry code s
  | .kaHello c pctOk => Sys2Proof.Machine.execKaHello c pctOk s
  | .kaResp c => Sys2Proof.Machine.execKaResp c s
  | .kaFinish c => Sys2Proof.Machine.execKaFinish c s
  | .kaConfirm c => Sys2Proof.Machine.execKaConfirm c s
  | .kaAbort c => Sys2Proof.Machine.execKaAbort c s
  | .kaTimeout c => Sys2Proof.Machine.execKaTimeout c s
  | .kaCollisionRetry c => Sys2Proof.Machine.execKaCollisionRetry c s
  | .kaRetryTimer c => Sys2Proof.Machine.execKaRetryTimer c s
  | .fullPeriodExpiry c => Sys2Proof.Machine.execFullPeriodExpiry c s
  | .epochActivation c => Sys2Proof.Machine.execEpochActivation c s
  | .rekeyAgeExpiry c => Sys2Proof.Machine.execRekeyAgeExpiry c s
  | .keyActivate c => Sys2Proof.Machine.execKeyActivate c s
  | .keyAck c => Sys2Proof.Machine.execKeyAck c s
  | .keyAckTimeout c => Sys2Proof.Machine.execKeyAckTimeout c s
  | .refSourceDisqualify src reason => Sys2Proof.Machine.execRefSourceDisqualify src reason s
  | .refSourceWtrExpiry src => Sys2Proof.Machine.execRefSourceWtrExpiry src s
  | .refMonitorWindowEnd meas rootOffset dpllWord closing => Sys2Proof.Machine.execRefMonitorWindowEnd meas rootOffset dpllWord closing s
  | .refSourceSwitch step => Sys2Proof.Machine.execRefSourceSwitch step s
  | .refLockDeclared => Sys2Proof.Machine.execRefLockDeclared s
  | .refHoldoverOos => Sys2Proof.Machine.execRefHoldoverOos s
  | .ppsInputEdge n after => Sys2Proof.Machine.execPpsInputEdge n after s
  | .refAlignPulse => Sys2Proof.Machine.execRefAlignPulse s
  | .refPulseOutput k => Sys2Proof.Machine.execRefPulseOutput k s
  | .rfRealign => Sys2Proof.Machine.execRfRealign s
  | .rfMeasure => Sys2Proof.Machine.execRfMeasure s
  | .refLogicFault => Sys2Proof.Machine.execRefLogicFault s
  | .pwrIdleTimerExpiry dom recent enclave => Sys2Proof.Machine.execPwrIdleTimerExpiry dom recent enclave s
  | .pwrEntryComplete dom => Sys2Proof.Machine.execPwrEntryComplete dom s
  | .pwrWakeEvent src => Sys2Proof.Machine.execPwrWakeEvent src s
  | .pwrWakeComplete dom hk => Sys2Proof.Machine.execPwrWakeComplete dom hk s
  | .pwWake => Sys2Proof.Machine.execPwWake s
  | .pwPark recent enclave => Sys2Proof.Machine.execPwPark recent enclave s
  | .avsPoll ok volt curr status => Sys2Proof.Machine.execAvsPoll ok volt curr status s
  | .avsRetry ok volt curr status => Sys2Proof.Machine.execAvsRetry ok volt curr status s
  | .pwrLogicFault => Sys2Proof.Machine.execPwrLogicFault s
  | .monTempReadout temps => Sys2Proof.Machine.execMonTempReadout temps s
  | .monRegularTrigger k => Sys2Proof.Machine.execMonRegularTrigger k s
  | .monTriggerDelayExpiry k injected => Sys2Proof.Machine.execMonTriggerDelayExpiry k injected s
  | .monInjectedTrigger k urgent => Sys2Proof.Machine.execMonInjectedTrigger k urgent s
  | .monEntryEnd k results limited inject => Sys2Proof.Machine.execMonEntryEnd k results limited inject s
  | .swReg k => Sys2Proof.Machine.execSwReg k s
  | .swInj k => Sys2Proof.Machine.execSwInj k s
  | .monSyncEdge => Sys2Proof.Machine.execMonSyncEdge s
  | .mnSync => Sys2Proof.Machine.execMnSync s
  | .mnLoadFir => Sys2Proof.Machine.execMnLoadFir s
  | .mnCapture => Sys2Proof.Machine.execMnCapture s
  | .tmrCompare n => Sys2Proof.Machine.execTmrCompare n s
  | .tmrPeriod n => Sys2Proof.Machine.execTmrPeriod n s
  | .monEngineFault => Sys2Proof.Machine.execMonEngineFault s
  | .anlRunStart u => Sys2Proof.Machine.execAnlRunStart u s
  | .anlWindowEnd u => Sys2Proof.Machine.execAnlWindowEnd u s
  | .anlRunEnd u meas => Sys2Proof.Machine.execAnlRunEnd u meas s
  | .anlPauseTimeout u => Sys2Proof.Machine.execAnlPauseTimeout u s
  | .anlElementFailed v elem cause => Sys2Proof.Machine.execAnlElementFailed v elem cause s
  | .anRun => Sys2Proof.Machine.execAnRun s
  | .anHold => Sys2Proof.Machine.execAnHold s
  | .anClearFail => Sys2Proof.Machine.execAnClearFail s
  | .anReadTable => Sys2Proof.Machine.execAnReadTable s
  | .anlEngineFault => Sys2Proof.Machine.execAnlEngineFault s
  | .mmScrub => Sys2Proof.Machine.execMmScrub s
  | .mmReadRepair => Sys2Proof.Machine.execMmReadRepair s
  | .scScan => Sys2Proof.Machine.execScScan s
  | .memScuEngineFault scu => Sys2Proof.Machine.execMemScuEngineFault scu s
  | .obReadCat => Sys2Proof.Machine.execObReadCat s
  | .obReadSamples => Sys2Proof.Machine.execObReadSamples s
  | .obsSnapHold => Sys2Proof.Machine.execObsSnapHold s
  | .obsSnapRelease => Sys2Proof.Machine.execObsSnapRelease s
  | .samplerTag addr tick encoding ticks slot => Sys2Proof.Machine.execSamplerTag addr tick encoding ticks slot s
  | .logHourlySummary => Sys2Proof.Machine.execLogHourlySummary s
  | .logEventEntryTimer => Sys2Proof.Machine.execLogEventEntryTimer s
  | .logEntryWrite readBackOk => Sys2Proof.Machine.execLogEntryWrite readBackOk s
  | .logRecovery => Sys2Proof.Machine.execLogRecovery s
  | .lgFlush => Sys2Proof.Machine.execLgFlush s
  | .lgRead => Sys2Proof.Machine.execLgRead s
  | .lgNote => Sys2Proof.Machine.execLgNote s
  | .obsLogEngineFault log => Sys2Proof.Machine.execObsLogEngineFault log s
  | .mbxPost i2c slot word => Sys2Proof.Machine.execMbxPost i2c slot word s
  | .mbxTake slot => Sys2Proof.Machine.execMbxTake slot s
  | .mbxDone slot result => Sys2Proof.Machine.execMbxDone slot result s
  | .mbxDeadlineExpiry slot => Sys2Proof.Machine.execMbxDeadlineExpiry slot s
  | .ping slot => Sys2Proof.Machine.execPing slot s
  | .cfgWrite slot allowed => Sys2Proof.Machine.execCfgWrite slot allowed s
  | .engineCmd slot => Sys2Proof.Machine.execEngineCmd slot s
  | .cmdStatus slot => Sys2Proof.Machine.execCmdStatus slot s
  | .loadBerth slot => Sys2Proof.Machine.execLoadBerth slot s
  | .flashWrite slot => Sys2Proof.Machine.execFlashWrite slot s
  | .flashErase slot => Sys2Proof.Machine.execFlashErase slot s
  | .setBootSlot slot => Sys2Proof.Machine.execSetBootSlot slot s
  | .snapHold slot => Sys2Proof.Machine.execSnapHold slot s
  | .snapRelease slot => Sys2Proof.Machine.execSnapRelease slot s
  | .logFlush slot => Sys2Proof.Machine.execLogFlush slot s
  | .logRead slot buffer => Sys2Proof.Machine.execLogRead slot buffer s
  | .resetDevice slot => Sys2Proof.Machine.execResetDevice slot s
  | .ledgerEventWrite => Sys2Proof.Machine.execLedgerEventWrite s
  | .swIrqRaise bits => Sys2Proof.Machine.execSwIrqRaise bits s
  | .hfFlashRead => Sys2Proof.Machine.execHfFlashRead s
  | .hfFlashProgram => Sys2Proof.Machine.execHfFlashProgram s
  | .hfFlashErase => Sys2Proof.Machine.execHfFlashErase s
  | .hfLogEvent => Sys2Proof.Machine.execHfLogEvent s
  | .flashRecoveryRead => Sys2Proof.Machine.execFlashRecoveryRead s
  | .flashRecoveryProgram => Sys2Proof.Machine.execFlashRecoveryProgram s
  | .flashRecoveryErase => Sys2Proof.Machine.execFlashRecoveryErase s
  | .i2cWriteTransaction target bytes => Sys2Proof.Machine.execI2cWriteTransaction target bytes s
  | .i2cReadTransaction target addr words => Sys2Proof.Machine.execI2cReadTransaction target addr words s
  | .hifEngineFault => Sys2Proof.Machine.execHifEngineFault s
  | .registerWrite who addr value whole => Sys2Proof.Machine.execRegisterWrite who addr value whole s
  | .hostRegisterRead addr whole => Sys2Proof.Machine.execHostRegisterRead addr whole s
  | .commandCompletion ticket failed r0 r1 => Sys2Proof.Machine.execCommandCompletion ticket failed r0 r1 s
  | .secMailboxResponseReady ch => Sys2Proof.Machine.execSecMailboxResponseReady ch s
  | .crystalReturn => Sys2Proof.Machine.execCrystalReturn s
  | .hostPcsLock port locked corr uncorr => Sys2Proof.Machine.execHostPcsLock port locked corr uncorr s

end Sys2Proof.Machine
end

