-- ==== Sys2Proof/Machine/Idle.lean ====
section
/-! DEFINITION. What passes with time alone: one crystal cycle, 20 ns at the nominal frequency, which is what a step on an empty queue is.  In it DEVTIME
advances (R386), and the counts of the root's clocks: 45 control ticks, 5 hk cycles, 180 root cycles (R22, R24) at no offset, more or fewer as the root
is steered (R23). -/
namespace Sys2Proof.Machine

/-- DEVTIME advances by the increment; the 20 fraction bits stay in the hidden register (R386). -/
def State.devtimeTick (s : State) : State :=
  let sum := s.time.frac + (s.reg R.REF_DEVTIME_INC).toNat
  { s with time := { s.time with devtime := s.time.devtime + BitVec.ofNat 64 (sum / 2 ^ 20), frac := sum % 2 ^ 20 } }

/-- A domain in Run gains the DEVTIME that passed, in units of 10 µs (R401). -/
def State.elapsedTick (d passed : Nat) (s : State) : State :=
  if s.domState d = 0 then
    let sum := (s.dom d).remainder + passed
    (s.addCnt (R.PWR_ELAPSED d) (sum / 100000)).modDom d (fun x => { x with remainder := sum % 100000 })
  else s

/-- The time-driven counts of the crystal's domain. -/
def State.crystalTick (s : State) : State :=
  let t := s.devtimeTick
  let passed := (t.time.devtime - s.time.devtime).toNat
  [3, 4, 5, 6, 7, 8, 9].foldl (fun s d => s.elapsedTick d passed) t

/-- hk cycles of an entry in progress pass (R395); its end is a row. -/
def State.entryTick (hk d : Nat) (s : State) : State :=
  s.modDom d (fun x => { x with entry := x.entry.map (fun e => { e with left := e.left - hk }) })

/-- The root's offset from 180 times the crystal, in ppt (R366): the DPLL's word and the steering word. -/
def State.rootPpt (s : State) : Int := (s.reg R.REF_DPLL_WORD).toInt + (s.reg R.REF_STEER).toInt

/-- Root cycles in one crystal cycle, in units of 10^-12, with what was left over (R23, R366). -/
def State.rootSpan (s : State) : Nat := s.time.steerRem + (180 * (1000000000000 + s.rootPpt)).toNat

/-- The counts of the root's clocks in one crystal cycle (R22 to R24): control ticks of 4 root cycles, up to the tide's last, where the phase waits for the
boundary; hk cycles of 36; the generator. -/
def State.rootTick (s : State) : State :=
  let n := s.rootSpan / 1000000000000
  let at_ := s.time.rootRem + n
  let ticks := at_ / 4 - s.time.rootRem / 4
  let hk := at_ / 36
  let s := { s with time := { s.time with steerRem := s.rootSpan % 1000000000000, rootRem := at_ % 36 } }
  let s := s.advancePhase (max s.time.phase (min (s.time.phase + ticks) (4607 + 9 * s.time.ext)))
  let s := { s with ref := { s.ref with gen := (s.ref.gen + n) % genSecond, sec := s.ref.sec + (s.ref.gen + n) / genSecond } }
  let s := forN 8 (State.tmrTick hk) s
  let s := [3, 4, 5, 6, 7, 8, 9].foldl (fun s d => s.entryTick hk d) s
  s.quayTick hk

/-- What the carriers count by time alone: samples limited where there is no superframe (R125), symbols erased (R155). -/
def State.lineTick (s : State) : State := (((s.txIdleClips .A).txIdleClips .B).crErasedTick .A).crErasedTick .B

/-- One crystal cycle with no command: nothing passes in PORESET_N; DEVTIME holds while the crystal has stopped (R27); the grid counts from PORESET_N release
(R22), but not while the root has lost its lock (R36); then whatever waited for completions, free entries or tickets is looked at. -/
def State.idle (s : State) : State :=
  if s.pins.poresetN = false then s
  else
    let s := if s.time.xtalStopped then s else s.crystalTick
    let s := if s.time.rootLoss.isNone then s.rootTick.lineTick else s
    s.releaseWaiters

end Sys2Proof.Machine
end

