-- ==== Sys2Proof/Safety.lean ====
section
/-! DEFINITION. What counts as a safe state and a safe step, in the terms the statements use. -/
namespace Sys2Proof.Safety

open Sys2Proof.Machine

/-- The SRAM is in its canonical form: addresses strictly rising, no entry that holds what an unlisted byte reads as. -/
def MemOk (s : State) : Prop := Memory.wf s.mem = true

/-- The flash is in its canonical form. -/
def FlashOk (s : State) : Prop := sparseWf flashDefault s.flash = true

/-- The pieces of the state, one per field of State. -/
inductive Piece
  | part
  | dieRev
  | pending
  | regs
  | mem
  | flash
  | coreA
  | coreB
  | qc
  | claims
  | berth
  | time
  | hold
  | pilot
  | boot
  | hws
  | hif
  | pins
  | pwr
  | free
  | cph
  | txA
  | txB
  | rxA
  | rxB
  | eqA
  | eqB
  | crA
  | crB
  | fecA
  | fecB
  | hailA
  | hailB
  | frmA
  | frmB
  | osp
  | clm
  | brt
  | lanes
  | mon
  | anl
  | log
  | obs
  | ecc
  | ref
  | sec
deriving DecidableEq, Repr

/-- A piece is the same in two states. -/
def Piece.same (p : Piece) (s t : State) : Prop :=
  match p with
  | .part => t.part = s.part
  | .dieRev => t.dieRev = s.dieRev
  | .pending => t.pending = s.pending
  | .regs => t.regs = s.regs
  | .mem => t.mem = s.mem
  | .flash => t.flash = s.flash
  | .coreA => t.coreA = s.coreA
  | .coreB => t.coreB = s.coreB
  | .qc => t.qc = s.qc
  | .claims => t.claims = s.claims
  | .berth => t.berth = s.berth
  | .time => t.time = s.time
  | .hold => t.hold = s.hold
  | .pilot => t.pilot = s.pilot
  | .boot => t.boot = s.boot
  | .hws => t.hws = s.hws
  | .hif => t.hif = s.hif
  | .pins => t.pins = s.pins
  | .pwr => t.pwr = s.pwr
  | .free => t.free = s.free
  | .cph => t.cph = s.cph
  | .txA => t.txA = s.txA
  | .txB => t.txB = s.txB
  | .rxA => t.rxA = s.rxA
  | .rxB => t.rxB = s.rxB
  | .eqA => t.eqA = s.eqA
  | .eqB => t.eqB = s.eqB
  | .crA => t.crA = s.crA
  | .crB => t.crB = s.crB
  | .fecA => t.fecA = s.fecA
  | .fecB => t.fecB = s.fecB
  | .hailA => t.hailA = s.hailA
  | .hailB => t.hailB = s.hailB
  | .frmA => t.frmA = s.frmA
  | .frmB => t.frmB = s.frmB
  | .osp => t.osp = s.osp
  | .clm => t.clm = s.clm
  | .brt => t.brt = s.brt
  | .lanes => t.lanes = s.lanes
  | .mon => t.mon = s.mon
  | .anl => t.anl = s.anl
  | .log => t.log = s.log
  | .obs => t.obs = s.obs
  | .ecc => t.ecc = s.ecc
  | .ref => t.ref = s.ref
  | .sec => t.sec = s.sec

/-- Every piece of the first list is in the second. -/
def sub (a b : List Piece) : Bool := a.all b.contains

/-- What becomes of a state within a scope: the memories keep their canonical form, and every piece outside the scope is the same. -/
def Within (scope : List Piece) (s t : State) : Prop :=
  (MemOk s → MemOk t) ∧ (FlashOk s → FlashOk t) ∧ ∀ p, scope.contains p = false → p.same s t

/-! ### What a command may change -/

/-- The pieces that a command may change. -/
def scopeOf : Instr → List Piece
  | .hailCdDwellExpiry _ | .trRangeTimeout _ | .flexeCalendarSwitch _ | .brtGuardBandStart _ | .refSourceWtrExpiry _ | .ppsInputEdge _ _
  | .monTempReadout _ | .obsSnapHold | .obsSnapRelease | .mbxTake _ =>
    [.regs]
  | .getStatus _ | .getIdentity _ | .challengeExpiry _ =>
    [.sec]
  | .monSyncEdge =>
    [.mon]
  | .wfeWake _ | .waittTimeout _ | .waittTicketDone _ | .observationInterrupt _ =>
    [.coreA, .coreB]
  | .coreRestartHoldEnd _ | .waitToRestoreExpiry =>
    [.regs, .pilot]
  | .perstN _ _ _ _ _ | .swIrqRaise _ =>
    [.regs, .hif]
  | .eqTapUpdate _ _ _ =>
    [.eqA, .eqB]
  | .brtGateClose _ =>
    [.regs, .brt]
  | .laneL1ExitTimeout _ _ | .laneLosCleared _ _ | .quayMapApply _ _ =>
    [.regs, .lanes]
  | .getChallenge _ =>
    [.free, .sec]
  | .loadEndorsement _ | .setPolicy _ | .setTimers _ =>
    [.regs, .sec]
  | .refPulseOutput _ =>
    [.regs, .ref]
  | .anlRunStart _ =>
    [.regs, .anl]
  | .crystalReturn =>
    [.regs, .time]
  | .eqzShadowCopyComplete _ =>
    [.regs, .eqA, .eqB]
  | .elwCommitReceived _ _ | .keyAck _ =>
    [.regs, .hailA, .hailB]
  | .endSession _ =>
    [.regs, .cph, .sec]
  | .hostPcsLock _ _ _ _ =>
    [.regs, .coreA, .coreB]
  | .commitPoint =>
    [.regs, .coreA, .coreB, .time]
  | .brtShaperRelease _ =>
    [.regs, .coreA, .coreB, .brt]
  | .laneLosDeclared _ _ | .keyAckTimeout _ | .refSourceDisqualify _ _ | .refHoldoverOos =>
    [.regs, .coreA, .coreB, .hif]
  | .samplerTag _ _ _ _ _ =>
    [.regs, .coreA, .coreB, .obs]
  | .snapshotWriteComplete =>
    [.regs, .mem, .free, .obs, .ecc]
  | .crystalLoss =>
    [.regs, .coreA, .coreB, .time, .hif]
  | .hailDetection _ _ _ _ | .hailWindowDetect _ _ _ _ | .hailReceptionLost _ =>
    [.regs, .coreA, .coreB, .hailA, .hailB]
  | .elwSwitch _ =>
    [.regs, .txA, .txB, .frmA, .frmB]
  | .frmFasSearchMatch _ _ _ =>
    [.regs, .coreA, .coreB, .frmA, .frmB]
  | .ospWindow _ _ _ =>
    [.regs, .coreA, .coreB, .hif, .osp]
  | .clmIngressUnit _ _ _ | .clmEgressUnit _ =>
    [.regs, .coreA, .coreB, .hif, .clm]
  | .brtIngressFrame _ _ =>
    [.regs, .coreA, .coreB, .hif, .brt]
  | .quayBlockReceived _ _ | .laneFault _ _ =>
    [.regs, .coreA, .coreB, .hif, .lanes]
  | .startAgreement _ | .kaCollisionRetry _ | .kaRetryTimer _ | .fullPeriodExpiry _ =>
    [.regs, .free, .hailA, .hailB, .sec]
  | .refLockDeclared =>
    [.regs, .coreA, .coreB, .hif, .ref]
  | .pwrIdleTimerExpiry _ _ _ =>
    [.regs, .coreA, .coreB, .pwr, .log]
  | .avsPoll _ _ _ _ =>
    [.regs, .coreA, .coreB, .hif, .pwr]
  | .monRegularTrigger _ | .monTriggerDelayExpiry _ _ | .monInjectedTrigger _ _ | .swReg _ | .swInj _ | .tmrPeriod _ =>
    [.regs, .coreA, .coreB, .hif, .mon]
  | .logEventEntryTimer =>
    [.regs, .coreA, .coreB, .hif, .log]
  | .flashRecoveryRead | .flashRecoveryProgram | .flashRecoveryErase =>
    [.regs, .flash, .coreA, .coreB, .hif]
  | .hawserFrameReceived _ =>
    [.regs, .coreA, .coreB, .pilot, .hws, .hif]
  | .pilotFault =>
    [.regs, .coreA, .coreB, .pilot, .hif, .free]
  | .forceBallQualified _ _ _ _ =>
    [.regs, .coreA, .coreB, .pilot, .hif, .pins]
  | .rootPllLocked =>
    [.regs, .coreA, .coreB, .time, .hif, .ecc]
  | .snrBelowThreshold _ =>
    [.regs, .coreA, .coreB, .hif, .crA, .crB]
  | .sliceFailureDeclared _ _ _ _ =>
    [.regs, .coreA, .coreB, .hif, .eqA, .eqB]
  | .fecSeedFail _ _ | .fecEngineFailed _ _ _ =>
    [.regs, .coreA, .coreB, .hif, .fecA, .fecB]
  | .fecEncoderFault _ _ =>
    [.regs, .coreA, .coreB, .hif, .txA, .txB]
  | .hailHeaderDecoded _ _ | .hailBurstReceived _ _ _ | .hailLoss _ =>
    [.regs, .coreA, .coreB, .hif, .hailA, .hailB]
  | .brtEgressHeader _ =>
    [.regs, .coreA, .coreB, .hif, .clm, .brt]
  | .quayRow =>
    [.regs, .coreA, .coreB, .hif, .clm, .lanes]
  | .cphEngineFault =>
    [.regs, .coreA, .coreB, .hif, .free, .cph]
  | .rekeyNow _ | .epochActivation _ | .rekeyAgeExpiry _ =>
    [.regs, .free, .cph, .hailA, .hailB, .sec]
  | .programAnchor _ _ | .revokeAnchor _ _ =>
    [.regs, .coreA, .coreB, .hif, .free, .sec]
  | .refMonitorWindowEnd _ _ _ _ | .refSourceSwitch _ | .refLogicFault =>
    [.regs, .coreA, .coreB, .hif, .free, .ref]
  | .avsRetry _ _ _ _ =>
    [.regs, .coreA, .coreB, .hif, .pwr, .free]
  | .monEngineFault =>
    [.regs, .coreA, .coreB, .hif, .free, .mon]
  | .anlElementFailed _ _ _ =>
    [.regs, .coreA, .coreB, .hif, .anl, .log]
  | .memScuEngineFault _ =>
    [.regs, .coreA, .coreB, .hif, .free, .ecc]
  | .logHourlySummary | .logRecovery =>
    [.regs, .coreA, .coreB, .hif, .free, .log]
  | .mbxPost _ _ _ | .mbxDone _ _ | .cmdStatus _ | .snapRelease _ | .logRead _ _ | .resetDevice _ | .i2cWriteTransaction _ _ =>
    [.regs, .mem, .coreA, .coreB, .hif, .ecc]
  | .add _ _ _ _ | .sub _ _ _ _ | .and _ _ _ _ | .or _ _ _ _ | .xor _ _ _ _ | .shl _ _ _ _ | .shr _ _ _ _ | .sar _ _ _ _ | .mul _ _ _ _
  | .mulh _ _ _ _ | .clz _ _ _ _ | .maddq _ _ _ _ | .addi _ _ _ _ | .lui _ _ _ _ | .beq _ _ _ _ | .bne _ _ _ _ | .blt _ _ _ _ | .bge _ _ _ _
  | .bltu _ _ _ _ | .jal _ _ _ | .jr _ _ _ _ | .ldB _ _ _ _ | .ldH _ _ _ _ | .ldW _ _ _ _ | .ldD _ _ _ _ | .waitt _ _ _ _ | .pollt _ _ _ _
  | .fenceR _ _ _ _ | .fenceQ _ _ _ _ | .fenceA _ _ _ _ | .commit _ _ _ _ | .mfs _ _ _ _ | .mts _ _ _ _ | .trap _ _ _ _ | .eret _ _ _ _
  | .wfe _ _ _ _ =>
    [.regs, .coreA, .coreB, .hif, .free, .log, .ecc]
  | .coreSelftestDone _ _ =>
    [.regs, .mem, .coreA, .coreB, .pilot, .hif, .ecc]
  | .coldResumeRelease =>
    [.regs, .coreA, .coreB, .qc, .pilot, .hws, .hif]
  | .resetNRelease =>
    [.regs, .coreA, .coreB, .hif, .pins, .log, .ecc]
  | .rootRelockRetry _ =>
    [.regs, .coreA, .coreB, .time, .hif, .pins, .log]
  | .txUnderrun _ | .txpEngineFault _ =>
    [.regs, .coreA, .coreB, .hif, .free, .txA, .txB]
  | .cdScanComplete _ _ _ | .trLockDeclared _ _ | .trLockLost _ =>
    [.regs, .coreA, .coreB, .hif, .free, .fecA, .fecB]
  | .fecEngineSwap _ =>
    [.regs, .coreA, .coreB, .hif, .fecA, .fecB, .log]
  | .clmBrtEngineFault _ =>
    [.regs, .coreA, .coreB, .hif, .free, .clm, .brt]
  | .cphUnitMismatch _ _ _ =>
    [.regs, .coreA, .coreB, .hif, .free, .cph, .log]
  | .obsLogEngineFault _ =>
    [.regs, .coreA, .coreB, .hif, .free, .log, .obs]
  | .mbxDeadlineExpiry _ | .ping _ | .snapHold _ =>
    [.regs, .mem, .coreA, .coreB, .hif, .free, .ecc]
  | .flashWrite _ | .flashErase _ | .setBootSlot _ =>
    [.regs, .mem, .flash, .coreA, .coreB, .hif, .ecc]
  | .ledgerEventWrite =>
    [.regs, .mem, .coreA, .coreB, .hif, .log, .ecc]
  | .secMailboxResponseReady _ =>
    [.regs, .mem, .coreA, .coreB, .hif, .ecc, .sec]
  | .claim _ _ _ _ | .release _ _ _ _ =>
    [.regs, .coreA, .coreB, .claims, .hif, .free, .log, .ecc]
  | .hawserCopyComplete | .coreReloadDone _ =>
    [.regs, .mem, .coreA, .coreB, .pilot, .hws, .hif, .ecc]
  | .revertStart =>
    [.regs, .coreA, .coreB, .qc, .berth, .pilot, .hif, .log]
  | .elwResponderSwitch _ =>
    [.regs, .coreA, .coreB, .hif, .fecA, .fecB, .frmA, .frmB]
  | .cphRxRecord _ _ _ =>
    [.regs, .coreA, .coreB, .hif, .cph, .clm, .log, .sec]
  | .secErrorEntry _ =>
    [.regs, .coreA, .coreB, .hif, .cph, .hailA, .hailB, .sec]
  | .kaHello _ _ | .kaResp _ | .kaFinish _ | .kaConfirm _ | .kaAbort _ | .kaTimeout _ =>
    [.regs, .coreA, .coreB, .hif, .free, .hailA, .hailB, .sec]
  | .hifEngineFault =>
    [.regs, .mem, .coreA, .coreB, .hif, .free, .log, .ecc]
  | .stB _ _ _ _ | .stH _ _ _ _ | .stW _ _ _ _ | .stD _ _ _ _ =>
    [.regs, .mem, .coreA, .coreB, .hws, .hif, .free, .log, .ecc]
  | .sliceSwap _ =>
    [.regs, .coreA, .coreB, .hif, .eqA, .eqB, .crA, .crB, .log]
  | .eqzCrrEngineFault _ _ =>
    [.regs, .coreA, .coreB, .hif, .free, .eqA, .eqB, .crA, .crB]
  | .fecBlockLockSearch _ _ =>
    [.regs, .coreA, .coreB, .hif, .free, .fecA, .fecB, .frmA, .frmB]
  | .elwProposeReceived _ _ =>
    [.regs, .coreA, .coreB, .hif, .free, .hailA, .hailB, .frmA, .frmB]
  | .loadBerthManifest _ | .loadBerth _ =>
    [.regs, .mem, .coreA, .coreB, .berth, .boot, .hif, .ecc, .sec]
  | .zeroiseComplete _ =>
    [.regs, .coreA, .coreB, .hif, .pins, .cph, .hailA, .hailB, .sec]
  | .keyActivate _ =>
    [.regs, .coreA, .coreB, .hif, .free, .cph, .hailA, .hailB, .sec]
  | .enclaveBoot _ _ | .selfTest _ _ =>
    [.regs, .coreA, .coreB, .hif, .free, .cph, .hailA, .hailB, .log, .sec]
  | .cphTxRecord _ _ _ =>
    [.regs, .coreA, .coreB, .hif, .free, .cph, .txA, .txB, .log, .sec]
  | .send _ _ _ _ | .queueDepthApply | .txMute _ | .txCapture _ | .rxCapture _ | .eqReconverge _ | .eqReadTaps _ | .eqSliceRetest _ | .crReacquire _
  | .crCapture _ | .fecRetest _ | .fecCapture _ | .frCaptureOh _ | .clReadMap | .qlReadMap | .cpUnitRetest | .cpReadContext | .rfRealign | .rfMeasure
  | .pwrWakeComplete _ _ | .pwWake | .pwPark _ _ | .pwrLogicFault | .mnCapture | .anReadTable | .mmScrub | .mmReadRepair | .scScan | .obReadCat
  | .lgFlush | .lgRead | .lgNote | .engineCmd _ | .logFlush _ | .hfFlashRead | .hfLogEvent | .commandCompletion _ _ _ _ =>
    [.regs, .mem, .coreA, .coreB, .qc, .hws, .hif, .pwr, .free, .log, .ecc]
  | .ldx _ _ _ _ | .i2cReadTransaction _ _ _ | .hostRegisterRead _ _ =>
    [.regs, .mem, .coreA, .coreB, .qc, .hold, .hws, .hif, .pwr, .free, .log, .ecc]
  | .harbourManifestLoad =>
    [.regs, .mem, .coreA, .coreB, .qc, .berth, .pilot, .boot, .hws, .hif, .ecc, .sec]
  | .clSetFlexeCal =>
    [.regs, .mem, .coreA, .coreB, .qc, .hws, .hif, .pwr, .free, .clm, .log, .ecc]
  | .brResetTokens | .brFlush =>
    [.regs, .mem, .coreA, .coreB, .qc, .hws, .hif, .pwr, .free, .brt, .log, .ecc]
  | .hlSetPower | .hlReadapt | .qlSetPower | .qlReadapt | .qlSetMap | .laneRxReady _ _ _ =>
    [.regs, .mem, .coreA, .coreB, .qc, .hws, .hif, .pwr, .free, .lanes, .log, .ecc]
  | .refAlignPulse =>
    [.regs, .mem, .coreA, .coreB, .qc, .hws, .hif, .pwr, .free, .log, .ecc, .ref]
  | .pwrWakeEvent _ =>
    [.regs, .mem, .coreA, .coreB, .qc, .hws, .hif, .pins, .pwr, .free, .log, .ecc]
  | .monEntryEnd _ _ _ _ | .mnSync | .mnLoadFir | .tmrCompare _ =>
    [.regs, .mem, .coreA, .coreB, .qc, .hws, .hif, .pwr, .free, .mon, .log, .ecc]
  | .anlRunEnd _ _ | .anRun | .anHold | .anClearFail | .anlEngineFault =>
    [.regs, .mem, .coreA, .coreB, .qc, .hws, .hif, .pwr, .free, .anl, .log, .ecc]
  | .obReadSamples =>
    [.regs, .mem, .coreA, .coreB, .qc, .hws, .hif, .pwr, .free, .log, .obs, .ecc]
  | .logEntryWrite _ | .hfFlashProgram | .hfFlashErase =>
    [.regs, .mem, .flash, .coreA, .coreB, .qc, .hws, .hif, .pwr, .free, .log, .ecc]
  | .pilotMissedHbDeclare | .coreFaultSignal _ _ | .watchdogExpiry _ | .forcedTakeover =>
    [.regs, .mem, .coreA, .coreB, .qc, .berth, .pilot, .hws, .hif, .pwr, .free, .log, .ecc]
  | .txLoadFir _ | .txLoadNlc _ =>
    [.regs, .mem, .coreA, .coreB, .qc, .hws, .hif, .pwr, .free, .txA, .txB, .log, .ecc]
  | .sfPeakDetected _ _ _ =>
    [.regs, .coreA, .coreB, .hif, .free, .rxA, .rxB, .eqA, .eqB, .fecA, .fecB, .hailA, .hailB]
  | .eqHold _ =>
    [.regs, .mem, .coreA, .coreB, .qc, .hws, .hif, .pwr, .free, .eqA, .eqB, .log, .ecc]
  | .crFreqSeed _ =>
    [.regs, .mem, .coreA, .coreB, .qc, .hws, .hif, .pwr, .free, .crA, .crB, .log, .ecc]
  | .fecBlockRelease _ _ | .fecRelock _ =>
    [.regs, .mem, .coreA, .coreB, .qc, .hws, .hif, .pwr, .free, .fecA, .fecB, .log, .ecc]
  | .hlSend _ | .hlRecv _ | .hailBurstStart _ =>
    [.regs, .mem, .coreA, .coreB, .qc, .hws, .hif, .pwr, .free, .hailA, .hailB, .log, .ecc]
  | .elwEntropySwitchBlock _ =>
    [.regs, .mem, .coreA, .coreB, .qc, .hws, .hif, .pwr, .free, .frmA, .frmB, .log, .ecc]
  | .frmLofTimer _ _ =>
    [.regs, .mem, .coreA, .coreB, .qc, .hws, .hif, .pwr, .free, .frmA, .frmB, .mon, .log, .ecc]
  | .clSetMap =>
    [.regs, .mem, .coreA, .coreB, .qc, .hws, .hif, .pwr, .free, .frmA, .frmB, .brt, .log, .ecc]
  | .frElwStart _ | .frElwAnswer _ | .elwAnswerReceived _ _ | .elwCommitDeadline _ =>
    [.regs, .mem, .coreA, .coreB, .qc, .hws, .hif, .pwr, .free, .hailA, .hailB, .frmA, .frmB, .log, .ecc]
  | .frmEngineFault _ =>
    [.regs, .mem, .coreA, .coreB, .qc, .hws, .hif, .pwr, .free, .cph, .frmA, .frmB, .clm, .log, .ecc]
  | .zeroize _ | .debugUnlock _ =>
    [.regs, .mem, .coreA, .coreB, .qc, .claims, .hws, .hif, .pwr, .free, .cph, .hailA, .hailB, .log, .ecc, .sec]
  | .zeroizeNQualified =>
    [.regs, .mem, .coreA, .coreB, .qc, .claims, .hws, .hif, .pins, .pwr, .free, .cph, .hailA, .hailB, .log, .ecc, .sec]
  | .rxSuperframeBoundary _ _ =>
    [.regs, .mem, .coreA, .coreB, .qc, .hws, .hif, .pwr, .free, .eqA, .eqB, .crA, .crB, .fecA, .fecB, .anl, .log, .ecc]
  | .frmRxFrame _ _ _ _ =>
    [.regs, .mem, .coreA, .coreB, .qc, .hws, .hif, .pwr, .free, .cph, .fecA, .fecB, .frmA, .frmB, .osp, .clm, .log, .ecc]
  | .anlWindowEnd _ | .anlPauseTimeout _ =>
    [.regs, .mem, .coreA, .coreB, .qc, .time, .hws, .hif, .pwr, .free, .crA, .crB, .clm, .lanes, .anl, .log, .ecc, .ref]
  | .rxfEngineFault _ =>
    [.regs, .mem, .coreA, .coreB, .qc, .hws, .hif, .pwr, .free, .rxA, .rxB, .crA, .crB, .hailA, .hailB, .frmA, .frmB, .log, .ecc]
  | .txSetState _ | .txDacSettled _ | .txSuperframeBoundary _ _ _ | .hailBurstSent _ | .hailEngineFault _ =>
    [.regs, .mem, .coreA, .coreB, .qc, .hws, .hif, .pwr, .free, .cph, .txA, .txB, .hailA, .hailB, .frmA, .frmB, .anl, .log, .ecc, .ref]
  | .frmTxFrame _ =>
    [.regs, .mem, .coreA, .coreB, .qc, .berth, .hws, .hif, .pwr, .free, .cph, .txA, .txB, .frmA, .frmB, .osp, .clm, .brt, .log, .ecc]
  | .sfLockLost _ =>
    [.regs, .mem, .coreA, .coreB, .qc, .hws, .hif, .pwr, .free, .rxA, .rxB, .crA, .crB, .fecA, .fecB, .hailA, .hailB, .frmA, .frmB, .anl, .log, .ecc]
  | .rxLosWindowEnd _ _ _ _ _ _ _ =>
    [.regs, .mem, .coreA, .coreB, .qc, .hws, .hif, .pwr, .free, .rxA, .rxB, .crA, .crB, .fecA, .fecB, .hailA, .hailB, .frmA, .frmB, .mon, .anl, .log,
    .ecc]
  | .tideBoundary =>
    [.regs, .mem, .coreA, .coreB, .qc, .claims, .berth, .time, .pilot, .hws, .hif, .pwr, .free, .eqA, .eqB, .clm, .brt, .lanes, .mon, .log, .obs,
    .ecc, .ref, .sec]
  | .rxReacquire _ | .reacqTimeout _ =>
    [.regs, .mem, .coreA, .coreB, .qc, .hws, .hif, .pwr, .free, .rxA, .rxB, .eqA, .eqB, .crA, .crB, .fecA, .fecB, .hailA, .hailB, .frmA, .frmB, .anl,
    .log, .ecc]
  | .rxSetState _ | .rxAdcSettled _ =>
    [.regs, .mem, .coreA, .coreB, .qc, .hws, .hif, .pwr, .free, .cph, .rxA, .rxB, .eqA, .eqB, .crA, .crB, .fecA, .fecB, .hailA, .hailB, .frmA, .frmB,
    .anl, .log, .ecc]
  | .pwrEntryComplete _ =>
    [.regs, .mem, .coreA, .coreB, .qc, .hws, .hif, .pwr, .free, .cph, .txA, .txB, .rxA, .rxB, .eqA, .eqB, .crA, .crB, .fecA, .fecB, .hailA, .hailB,
    .frmA, .frmB, .clm, .brt, .lanes, .log, .ecc]
  | .hifSwreset =>
    [.regs, .coreA, .coreB, .qc, .claims, .berth, .hold, .pilot, .boot, .hws, .hif, .pwr, .cph, .txA, .txB, .rxA, .rxB, .eqA, .eqB, .crA, .crB, .fecA,
    .fecB, .hailA, .hailB, .frmA, .frmB, .osp, .clm, .brt, .lanes, .mon, .anl, .log, .obs, .ecc, .sec]
  | .resetNAssert =>
    [.regs, .coreA, .coreB, .qc, .claims, .berth, .hold, .pilot, .boot, .hws, .hif, .pins, .pwr, .cph, .txA, .txB, .rxA, .rxB, .eqA, .eqB, .crA, .crB,
    .fecA, .fecB, .hailA, .hailB, .frmA, .frmB, .osp, .clm, .brt, .lanes, .mon, .anl, .log, .obs, .ecc, .sec]
  | .rootPllLoss =>
    [.regs, .coreA, .coreB, .qc, .claims, .berth, .time, .hold, .pilot, .boot, .hws, .hif, .pins, .pwr, .cph, .txA, .txB, .rxA, .rxB, .eqA, .eqB,
    .crA, .crB, .fecA, .fecB, .hailA, .hailB, .frmA, .frmB, .osp, .clm, .brt, .lanes, .mon, .anl, .log, .obs, .ecc, .sec]
  | .stx _ _ _ _ | .cfgWrite _ _ | .registerWrite _ _ _ _ =>
    [.regs, .mem, .flash, .coreA, .coreB, .qc, .claims, .berth, .hold, .pilot, .boot, .hws, .hif, .pwr, .free, .cph, .txA, .txB, .rxA, .rxB, .eqA,
    .eqB, .crA, .crB, .fecA, .fecB, .hailA, .hailB, .frmA, .frmB, .osp, .clm, .brt, .lanes, .mon, .anl, .log, .obs, .ecc, .sec]
  | .poresetNAssert | .poresetNRelease _ =>
    [.regs, .mem, .coreA, .coreB, .qc, .claims, .berth, .time, .hold, .pilot, .boot, .hws, .hif, .pins, .pwr, .cph, .txA, .txB, .rxA, .rxB, .eqA,
    .eqB, .crA, .crB, .fecA, .fecB, .hailA, .hailB, .frmA, .frmB, .osp, .clm, .brt, .lanes, .mon, .anl, .log, .obs, .ecc, .ref, .sec]

/-! ### What a command answers -/

/-- A command answers a state. -/
def Does (c : Instr) (s t : State) : Prop := exec c s = .next t

/-- A command answers a next state of which p holds. -/
def Answers (c : Instr) (s : State) (p : State → Prop) : Prop := ∃ t, exec c s = .next t ∧ p t

/-- A step answers a next state of which p holds. -/
def Steps (s : State) (p : State → Prop) : Prop := ∃ t, step s = .next t ∧ p t

/-- The entry e of queue q may start with opcode op (R72, R501); u is the state in which it has started. -/
def Started (q : Fin 64) (op : Nat) (s : State) (e : QEntry) (u : State) : Prop := s.startable q op = some e ∧ u = s.startEntry e.ticket

/-- A command of a queue ends: with the effect that leads to v, entry e completes with a status and two results (R66). -/
def Finishes (c : Instr) (s v : State) (e : QEntry) (status r0 r1 : Nat) : Prop := Does c s (v.complete e status r0 r1)

/-- A command of queue q has started, with the effect that leads to v, and ends later. -/
def GoesOn (c : Instr) (s v : State) (q : Fin 64) : Prop := Does c s ((v.settle q).releaseWaiters)

/-- A request for service svc waits on a channel of the enclave, well formed, with arguments l; the part has the service and the enclave's state
accepts it (R341, R342).  What is left to hold are the form of the arguments and the presence of the service. -/
structure Asked (s : State) (ch : Fin 2) (svc : Nat) (l : List Byte) (form present : Bool) : Prop where
  due : s.svcDue ch = true
  code : s.svcCode ch = svc
  args : s.svcArgs ch = l
  header : s.svcHeader ch = true
  formed : form = true
  offered : present = true
  accepted : svcAccepted s.secStateCode svc = true

/-- The harbour firmware on the active core k serves the request with a code in a mailbox slot, with argument bytes l; u is the state in which it
has been taken (R474, R476). -/
structure Served (s : State) (slot : Fin 64) (code : Nat) (k : CoreId) (l : List Byte) (u : State) : Prop where
  due : s.servable slot.val code = true
  core : s.active = some k
  args : l = s.bytes (mbxReq slot.val + 4) 56
  taken : u = s.mbxTake slot.val

/-- A mailbox request is answered: with the effect that leads to v, the response is written and the slot done with a result (Table HIF-2). -/
def Replies (c : Instr) (s v : State) (slot : Fin 64) (code result : Nat) (data : List Byte) : Prop :=
  Does c s ((v.setBytes (mbxResp slot.val) (leBytes 2 code ++ [0, 0] ++ data)).mbxDone slot.val result)

/-! ### The cores -/

/-- The piece that holds a core. -/
def corePiece : CoreId → Piece
  | .A => .coreA
  | .B => .coreB

/-- No error mark lies on the n bytes of SRAM at a. -/
def Unmarked (s : State) (a n : Nat) : Prop := ∀ m ∈ s.ecc.marks, m.region = 0 → m.word < a / 8 ∨ (a + n + 7) / 8 ≤ m.word

/-- Core k takes an instruction now: it runs, waits for nothing, may fetch at its PC, and the word there carries no error and is one that
Tables HXS-6 and HXS-7 give. -/
structure Fetches (s : State) (k : CoreId) : Prop where
  running : (s.core k).run = .running
  free : (s.core k).wait = .none
  mayFetch : s.fetchOk (s.core k).harbour (s.core k).pc.toNat = true
  clean : Unmarked s (coreAddr k (s.core k).pc.toNat) 4
  legal : legalWord (BitVec.ofNat 32 (s.load (coreAddr k (s.core k).pc.toNat) 4)) = true

/-- A core holds what d holds, apart from its performance and slot counters, the watchdog's count and the observation interrupt (R350,
R451, R452). -/
def CoreIs (c d : PlelisCore) : Prop :=
  { c with pmc := d.pmc, pmcOvf := d.pmcOvf, obsIrq := d.obsIrq, retired := d.retired, wasted := d.wasted, quiet := d.quiet } = d

/-- The instruction leaves core k as d, and changes nothing else. -/
def Leaves (c : Instr) (s : State) (k : CoreId) (d : PlelisCore) : Prop :=
  Answers c s (fun t => CoreIs (t.core k) d ∧ Within [corePiece k] s t)

/-- The core after an instruction that writes v to rd and goes on at pc. -/
def wrote (c : PlelisCore) (rd : BitVec 5) (v pc : W64) : PlelisCore := { c.setGpr rd v with pc }

/-- The core after a fault (R55): the fault is taken, or the core halts on a double fault. -/
def faulted (c : PlelisCore) (cause block detail : Nat) (faddr : W64) : PlelisCore :=
  if c.fh then { c with run := .halted, wait := .none } else c.takeFault cause block detail faddr

end Sys2Proof.Safety
end

