-- ==== Sys2Proof/Certificates/Slice0/Obligations.lean ====
section
/-! DEFINITION. The statements of this model for the provers: one closed proposition each, in the vocabulary of Sys2Proof.Safety
(Leaves, Does, Answers, Finishes, GoesOn, Started, Within).  They follow the numbered rules of spec/; a clause that rests on a value or a
reading of the model's own names its entry of notes/assumptions. -/

open Sys2Proof Sys2Proof.Machine Sys2Proof.Safety

/-- A step takes the command at the front of the queue (the queue is the model's own, notes/assumptions/1.md); on an empty queue one crystal cycle passes. -/
def Obligations.StepTakesFront : Prop :=
  (∀ (c : Instr) (rest : List Instr) (s : State), step { s with pending := c :: rest } = exec c { s with pending := rest })
    ∧ (∀ s : State, s.pending = [] → ∃ t, step s = .next t ∧ t.pending = [])

/-- The canonical forms of the memory (MemOk) and of the flash (FlashOk) are kept by every step: by every command and by the passing of time. What of it is the model's choice or reading: notes/assumptions/9 and 71. -/
def Obligations.MemoriesKept : Prop :=
  ∀ s t : State, step s = .next t → (MemOk s → MemOk t) ∧ (FlashOk s → FlashOk t)

/-- The frame of every command: what lies outside its scope (scopeOf) is unchanged. What of it is the model's choice or reading: notes/assumptions/11. -/
def Obligations.ScopesKept : Prop :=
  ∀ (c : Instr) (s t : State), exec c s = .next t → Within (scopeOf c) s t

/-- What PORESET_N leaves (R10, R22, R25, R68, R348, R386); that unwritten SRAM reads 0 is the model's choice (notes/assumptions/9.md). What of it is the model's choice or reading: notes/assumptions/6, 7 and 14. -/
def Obligations.ResetState : Prop :=
  MemOk State.reset ∧ FlashOk State.reset ∧ (∀ a, State.reset.byte a = 0) ∧ State.reset.time.tide = 0 ∧ State.reset.time.tick = 0
    ∧ State.reset.time.phase = 0 ∧ State.reset.time.devtime = 0 ∧ (∀ a, State.reset.reg a = regReset a)
    ∧ (∀ q : Fin 64, (State.reset.queue q).entries = [] ∧ (State.reset.queue q).seq = 1) ∧ State.reset.qc.live = [1]
    ∧ (∀ k, (State.reset.core k).run = .held) ∧ State.reset.claims = [] ∧ State.reset.reg R.REF_DEVTIME_INC = 0x0C800000
    ∧ State.reset.pending = []

/-- DEVTIME in a crystal cycle (R386, R26) and while the crystal has stopped (R27); that an idle step is one crystal cycle is the model's choice (notes/assumptions/2.md). -/
def Obligations.DevtimeAdvances : Prop :=
  ∀ s : State, s.pending = [] → s.pins.poresetN = true → s.time.frac < 2 ^ 20 →
    (s.time.xtalStopped = false → Steps s (fun t => t.time.frac < 2 ^ 20 ∧
      t.time.devtime.toNat * 2 ^ 20 + t.time.frac = (s.time.devtime.toNat * 2 ^ 20 + s.time.frac + (s.reg R.REF_DEVTIME_INC).toNat) % 2 ^ 84))
    ∧ (s.time.xtalStopped = true → Steps s (fun t => t.time.devtime = s.time.devtime ∧ t.time.frac = s.time.frac))

/-- The results of Table HXS-7 (R44, R47); SHL, SHR and SAR take the count from rb[5:0] (R45). What of it is the model's choice or reading: notes/assumptions/17. -/
def Obligations.ArithmeticWritesRd : Prop :=
  ∀ (k : CoreId) (s : State) (rd ra rb : BitVec 5) (imm : BitVec 16), Fetches s k →
    let c := s.core k
    let a := c.gpr ra
    let b := c.gpr rb
    let next := c.pc + 4
    Leaves (.add k rd ra rb) s k (wrote c rd (a + b) next) ∧ Leaves (.sub k rd ra rb) s k (wrote c rd (a - b) next)
    ∧ Leaves (.and k rd ra rb) s k (wrote c rd (a &&& b) next) ∧ Leaves (.or k rd ra rb) s k (wrote c rd (a ||| b) next)
    ∧ Leaves (.xor k rd ra rb) s k (wrote c rd (a ^^^ b) next) ∧ Leaves (.shl k rd ra rb) s k (wrote c rd (a <<< (b.toNat % 64)) next)
    ∧ Leaves (.shr k rd ra rb) s k (wrote c rd (a >>> (b.toNat % 64)) next)
    ∧ Leaves (.sar k rd ra rb) s k (wrote c rd (a.sshiftRight (b.toNat % 64)) next)
    ∧ Leaves (.mul k rd ra rb) s k (wrote c rd (a * b) next)
    ∧ Leaves (.mulh k rd ra rb) s k (wrote c rd (BitVec.ofInt 64 (a.toInt * b.toInt / 2 ^ 64)) next)
    ∧ Leaves (.addi k rd ra imm) s k (wrote c rd (a + imm.signExtend 64) next)
    ∧ Leaves (.lui k rd 0 imm) s k (wrote c rd (imm.signExtend 64 <<< 16) next)
    ∧ Leaves (.clz k rd ra 0) s k (wrote c rd (BitVec.ofNat 64 (if a = 0 then 64 else 63 - Nat.log2 a.toNat)) next)

/-- R46, whole: rounding toward minus infinity, the limits, sat. -/
def Obligations.MaddqLimits : Prop :=
  ∀ (k : CoreId) (s : State) (rd ra rb : BitVec 5), Fetches s k →
    let c := s.core k
    let q31 := fun (r : BitVec 5) => ((c.gpr r).truncate 32 : W32).toInt
    let x : Int := q31 rd + q31 ra * q31 rb / 2 ^ 31
    Leaves (.maddq k rd ra rb) s k
      (wrote { c with pstate := if x < -(2 ^ 31) ∨ 2 ^ 31 - 1 < x then c.pstate ||| 0x20 else c.pstate } rd
        (BitVec.ofInt 64 (max (-(2 ^ 31)) (min (2 ^ 31 - 1) x))) (c.pc + 4))

/-- Control flow of Table HXS-7 (R44, R47); PC advances by 4 otherwise. -/
def Obligations.BranchesJump : Prop :=
  ∀ (k : CoreId) (s : State) (rd ra rb : BitVec 5) (off : BitVec 16) (far : BitVec 21), Fetches s k →
    let c := s.core k
    let a := c.gpr ra
    let b := c.gpr rb
    let dest := fun (p : Bool) => { c with pc := if p then c.pc + (off.signExtend 64 <<< 2) else c.pc + 4 }
    Leaves (.beq k ra rb off) s k (dest (a == b)) ∧ Leaves (.bne k ra rb off) s k (dest (a != b))
    ∧ Leaves (.blt k ra rb off) s k (dest (decide (a.toInt < b.toInt))) ∧ Leaves (.bge k ra rb off) s k (dest (decide (b.toInt ≤ a.toInt)))
    ∧ Leaves (.bltu k ra rb off) s k (dest (decide (a.toNat < b.toNat)))
    ∧ Leaves (.jal k rd far) s k (wrote c rd (c.pc + 4) (c.pc + (far.signExtend 64 <<< 2)))
    ∧ ((a + off.signExtend 64).toNat % 4 = 0 → Leaves (.jr k rd ra off) s k (wrote c rd (c.pc + 4) (a + off.signExtend 64)))

/-- Loads (R38, R47, R48). What of it is the model's choice or reading: notes/assumptions/9 and 18. -/
def Obligations.LoadsReadMemory : Prop :=
  ∀ (k : CoreId) (s : State) (rd ra : BitVec 5) (imm : BitVec 16), Fetches s k →
    let c := s.core k
    let a := (c.gpr ra + imm.signExtend 64).toNat
    let loads := fun (n : Nat) (i : Instr) => a % n = 0 → s.loadOk c.harbour a = true → Unmarked s (coreAddr k a) n →
      Leaves i s k (wrote c rd (BitVec.ofNat 64 (leNat ((List.range n).map (fun i => s.byte (coreAddr k a + i))))) (c.pc + 4))
    loads 1 (.ldB k rd ra imm) ∧ loads 2 (.ldH k rd ra imm) ∧ loads 4 (.ldW k rd ra imm) ∧ loads 8 (.ldD k rd ra imm)

/-- Stores (R38, R40, R47, R48). What of it is the model's choice or reading: notes/assumptions/9. -/
def Obligations.StoresWriteMemory : Prop :=
  ∀ (k : CoreId) (s : State) (rs ra : BitVec 5) (imm : BitVec 16), Fetches s k →
    let c := s.core k
    let a := (c.gpr ra + imm.signExtend 64).toNat
    let stores := fun (n : Nat) (i : Instr) => a % n = 0 → s.storeOk c.harbour a = true →
      Answers i s (fun t => (∀ j < n, t.byte (coreAddr k a + j) = BitVec.ofNat 8 ((c.gpr rs).toNat / 256 ^ j))
        ∧ (∀ x, (x < coreAddr k a ∨ coreAddr k a + n ≤ x) → t.byte x = s.byte x)
        ∧ CoreIs (t.core k) { c with pc := c.pc + 4 } ∧ Within [corePiece k, .mem, .hws, .ecc, .regs] s t)
    stores 1 (.stB k rs ra imm) ∧ stores 2 (.stH k rs ra imm) ∧ stores 4 (.stW k rs ra imm) ∧ stores 8 (.stD k rs ra imm)

/-- R41 and R42: which numbers MFS and MTS accept at which level, and that they complete there; what the registers are is Tables HXS-3 and OBS-2 (specialGet, specialPut, spelled out in the completions). -/
def Obligations.SpecialRegistersChecked : Prop :=
  ∀ (k : CoreId) (s : State) (rd rs ra : BitVec 5) (imm : BitVec 16), Fetches s k →
    let c := s.core k
    let n := imm.toNat
    let listed := n ≤ 0x0B ∨ (0x10 ≤ n ∧ n ≤ 0x1F) ∨ (0x20 ≤ n ∧ n ≤ 0x25) ∨ (0x28 ≤ n ∧ n ≤ 0x2D) ∨ n = 0x2F
    let readOnly := n ≤ 3 ∨ n = 9 ∨ n = 10
    let guarded := n = 4 ∨ n = 5 ∨ n = 6 ∨ n = 8 ∨ (0x10 ≤ n ∧ n ≤ 0x1F)
    let v := c.gpr rs
    let low : W32 := v.truncate 32
    let byte : Byte := v.truncate 8
    let special : W64 := if n = 0 then s.time.tide else if n = 1 then s.time.tick else if n = 2 then s.time.devtime else if n = 3 then c.epoch.zeroExtend 64
      else if n = 4 then c.fault.zeroExtend 64 else if n = 5 then c.faddr else if n = 6 then c.epc else if n = 7 then c.pstate.zeroExtend 64
      else if n = 8 then c.tvec else if n = 9 then (if k = .A then 0x18 else 0x19) else if n = 10 then BitVec.ofNat 64 (s.time.phase % 65536)
      else if n = 11 then (if c.harbour then c.eventH else c.eventB).zeroExtend 64 else if n ≤ 0x1F then c.scratch[Fin.ofNat 16 (n - 0x10)]
      else if n ≤ 0x25 then c.pmc[Fin.ofNat 6 (n - 0x20)] else if n ≤ 0x2D then c.pmcSel[Fin.ofNat 6 (n - 0x28)] else c.pmcOvf
    (listed → (c.harbour = true ∨ ¬ guarded) → Leaves (.mfs k rd 0 imm) s k (wrote c rd (s.specialGet k n) (c.pc + 4)))
    ∧ (listed → c.harbour = false → guarded → Leaves (.mfs k rd 0 imm) s k (faulted c 0x02 0 0 0))
    ∧ (listed → ¬ readOnly → (c.harbour = true ∨ n = 0x0B) →
        Leaves (.mts k rs 0 imm) s k { c.specialPut n (c.gpr rs) with pc := c.pc + 4 })
    ∧ (listed → ¬ readOnly → c.harbour = false → n ≠ 0x0B → Leaves (.mts k rs 0 imm) s k (faulted c 0x02 0 0 0))
    ∧ ((¬ listed ∨ readOnly) → Leaves (.mts k rs 0 imm) s k (faulted c 0x01 0 0 0))
    ∧ (¬ listed → Leaves (.mfs k rd 0 imm) s k (faulted c 0x01 0 0 0))
    ∧ (ra ≠ 0 → Leaves (.mfs k rd ra imm) s k (faulted c 0x01 0 0 0) ∧ Leaves (.mts k rs ra imm) s k (faulted c 0x01 0 0 0))
    ∧ (listed → (c.harbour = true ∨ ¬ guarded) →
        ∃ t, exec (.mfs k rd 0 imm) s = .next t ∧ (t.core k).pc = c.pc + 4 ∧ (t.core k).h = (c.setGpr rd special).h)
    ∧ (listed → ¬ readOnly → (c.harbour = true ∨ n = 0x0B) →
        ∃ t, exec (.mts k rs 0 imm) s = .next t ∧ (t.core k).pc = c.pc + 4 ∧ (t.core k).h = c.h
          ∧ (t.core k).fault = (if n = 4 then low else c.fault) ∧ (t.core k).faddr = (if n = 5 then v else c.faddr)
          ∧ (t.core k).epc = (if n = 6 then v &&& ~~~(3 : W64) else c.epc)
          ∧ (t.core k).pstate = (if n = 7 then (low &&& 0xFF1F) ||| (c.pstate &&& 0x20 &&& ~~~low) else c.pstate)
          ∧ (t.core k).tvec = (if n = 8 then v &&& ~~~(63 : W64) else c.tvec)
          ∧ (t.core k).eventH = (if n = 11 then (if c.harbour then c.eventH &&& ~~~byte else c.eventH ||| (byte &&& 0x80)) else c.eventH)
          ∧ (t.core k).eventB = (if n = 11 then (if c.harbour then c.eventB ||| (byte &&& 0x80) else c.eventB &&& ~~~byte) else c.eventB)
          ∧ (∀ i : Fin 16, (t.core k).scratch[i] = if n = 0x10 + i.val then v else c.scratch[i])
          ∧ (∀ i : Fin 6, (t.core k).pmcSel[i] = if n = 0x28 + i.val then v &&& 0xFF else c.pmcSel[i])
          ∧ (∀ i : Fin 6, (t.core k).pmcSel[i].toNat % 256 ≠ 2 → (t.core k).pmc[i] = if n = 0x20 + i.val then v &&& 0xFFFFFFFFFFFF else c.pmc[i])
          ∧ ((∀ i : Fin 6, (t.core k).pmcSel[i].toNat % 256 ≠ 2) → (t.core k).pmcOvf = if n = 0x2F then c.pmcOvf &&& ~~~v else c.pmcOvf))

/-- R55 and ERET of Table HXS-7: what taking a fault writes and what returning restores; the fields of FAULT are those of Table HXS-9. What of it is the model's choice or reading: notes/assumptions/19. -/
def Obligations.FaultEntrySaves : Prop :=
  ∀ (c : PlelisCore) (cause block detail : Nat) (a : W64), cause < 256 → block < 256 → detail < 65536 →
    (c.fh = false →
      let d := faulted c cause block detail a
      d.epc = c.pc ∧ d.fault.toNat % 256 = cause ∧ d.fault.toNat / 256 % 256 = block ∧ d.fault.toNat / 65536 = detail ∧ d.faddr = a ∧ d.pc = c.tvec
      ∧ d.pstate.getLsbD 0 = true ∧ d.pstate.getLsbD 2 = true ∧ d.pstate.getLsbD 1 = c.pstate.getLsbD 0
      ∧ (∀ i, 2 < i → d.pstate.getLsbD i = c.pstate.getLsbD i)
      ∧ d.h = c.h ∧ d.tvec = c.tvec ∧ d.scratch = c.scratch ∧ d.eventH = c.eventH ∧ d.eventB = c.eventB ∧ d.epoch = c.epoch)
    ∧ (c.fh = true → faulted c cause block detail a = { c with run := .halted, wait := .none })
    ∧ (let e := c.leaveFault
      e.pc = c.epc ∧ e.pstate.getLsbD 0 = c.pstate.getLsbD 1 ∧ e.pstate.getLsbD 2 = false
      ∧ (∀ i, i ≠ 0 → i ≠ 2 → e.pstate.getLsbD i = c.pstate.getLsbD i) ∧ e.h = c.h ∧ e.epc = c.epc ∧ e.tvec = c.tvec)

/-- The faults of Table HXS-9 (R38, R40, R43, R44, R47, R48, R55), TRAP and ERET, and the encodings of Table HXS-7. What of it is the model's choice or reading: notes/assumptions/8, 15, 16, 18 and 85. -/
def Obligations.FaultingInstructions : Prop :=
  (∀ (k : CoreId) (s : State) (rd rs ra rb : BitVec 5) (imm : BitVec 16), Fetches s k →
      let c := s.core k
      let a := c.gpr ra + imm.signExtend 64
      let block := (blockOfAddr a.toNat).getD 0
      Leaves (.trap k 0 0 imm) s k (faulted c 0x08 0 0 (imm.zeroExtend 64))
      ∧ (c.harbour = true → Leaves (.eret k 0 0 0) s k c.leaveFault)
      ∧ (c.harbour = false → Leaves (.eret k 0 0 0) s k (faulted c 0x02 0 0 0) ∧ Leaves (.commit k 0 0 0) s k (faulted c 0x02 0 0 0))
      ∧ (a.toNat % 4 ≠ 0 → Leaves (.jr k rd ra imm) s k (faulted c 0x03 0 0 a))
      ∧ (a.toNat % 2 ≠ 0 → Leaves (.ldH k rd ra imm) s k (faulted c 0x03 0 0 a) ∧ Leaves (.stH k rs ra imm) s k (faulted c 0x03 0 0 a))
      ∧ (a.toNat % 4 ≠ 0 → Leaves (.ldW k rd ra imm) s k (faulted c 0x03 0 0 a) ∧ Leaves (.stW k rs ra imm) s k (faulted c 0x03 0 0 a))
      ∧ (a.toNat % 8 ≠ 0 → Leaves (.ldD k rd ra imm) s k (faulted c 0x03 0 0 a) ∧ Leaves (.stD k rs ra imm) s k (faulted c 0x03 0 0 a))
      ∧ (s.loadOk c.harbour a.toNat = false → Leaves (.ldB k rd ra imm) s k (faulted c 0x04 block 0 a))
      ∧ ((a.toNat < 0x200000 ∨ s.loadOk c.harbour a.toNat = false) → Leaves (.stB k rs ra imm) s k (faulted c 0x04 block 0 a))
      ∧ (rb ≠ 0 → Leaves (.clz k rd ra rb) s k (faulted c 0x01 0 0 0) ∧ Leaves (.pollt k rd ra rb) s k (faulted c 0x01 0 0 0))
      ∧ (ra ≠ 0 → Leaves (.lui k rd ra imm) s k (faulted c 0x01 0 0 0))
      ∧ ((ra ≠ 0 ∨ rb ≠ 0) → Leaves (.wfe k rd ra rb) s k (faulted c 0x01 0 0 0))
      ∧ ((rd ≠ 0 ∨ ra ≠ 0) → Leaves (.trap k rd ra imm) s k (faulted c 0x01 0 0 0))
      ∧ ((rd ≠ 0 ∨ ra ≠ 0 ∨ rb ≠ 0) → Leaves (.fenceR k rd ra rb) s k (faulted c 0x01 0 0 0) ∧ Leaves (.fenceQ k rd ra rb) s k (faulted c 0x01 0 0 0)
          ∧ Leaves (.fenceA k rd ra rb) s k (faulted c 0x01 0 0 0) ∧ Leaves (.commit k rd ra rb) s k (faulted c 0x01 0 0 0)
          ∧ Leaves (.eret k rd ra rb) s k (faulted c 0x01 0 0 0))
      ∧ (c.fh = false → ∃ t, exec (.trap k 0 0 imm) s = .next t ∧ (t.core k).epc = c.pc ∧ (t.core k).fault = 0x08
          ∧ (t.core k).faddr = imm.zeroExtend 64 ∧ (t.core k).pc = c.tvec ∧ (t.core k).h = c.h
          ∧ (t.core k).pstate = (c.pstate &&& ~~~(7 : W32)) ||| ((c.pstate &&& 1) <<< 1) ||| 5)
      ∧ (c.harbour = true → ∃ t, exec (.eret k 0 0 0) s = .next t ∧ (t.core k).pc = c.epc ∧ (t.core k).h = c.h
          ∧ (t.core k).pstate = (c.pstate &&& ~~~(5 : W32)) ||| ((c.pstate >>> 1) &&& 1)))
    ∧ (∀ (k : CoreId) (s : State) (rd ra rb : BitVec 5), (s.core k).run = .running → (s.core k).wait = .none →
        s.fetchOk (s.core k).harbour (s.core k).pc.toNat = false →
        Leaves (.add k rd ra rb) s k (faulted (s.core k) 0x04 ((blockOfAddr (s.core k).pc.toNat).getD 0) 0 (s.core k).pc))
    ∧ (∀ (k : CoreId) (s : State) (rd ra rb : BitVec 5), (s.core k).run = .running → (s.core k).wait = .none →
        s.fetchOk (s.core k).harbour (s.core k).pc.toNat = true → Unmarked s (coreAddr k (s.core k).pc.toNat) 4 →
        legalWord (BitVec.ofNat 32 (s.load (coreAddr k (s.core k).pc.toNat) 4)) = false →
        Leaves (.add k rd ra rb) s k (faulted (s.core k) 0x01 0 0 0))
    ∧ (∀ (k : CoreId) (w : W32) (i : Instr), decodeHexso k w = some i → i.wellFormed = true ∧ encodeHexso i = some w)
    ∧ (∀ (w : W32) (i : Instr), i.wellFormed = true → encodeHexso i = some w → ∃ k, decodeHexso k w = some i)
    ∧ (decodeTableWord 32 0 = some (.add .A 0 0 0) ∧ decodeTableWord 32 0xFFFFFFFF = none ∧ decodeTableWord 32 0x08A01800 = some (.lui .A 5 0 0x1800)
      ∧ decodeTableWord 32 0x60C50100 = some (.ldx .A 6 5 0x0100))

/-- R51, R53, R69, R73 (Table ENG-7), R504, Table ENG-5. What of it is the model's choice or reading: notes/assumptions/3. -/
def Obligations.WaitsBegin : Prop :=
  ∀ (k : CoreId) (s : State) (rd ra : BitVec 5) (imm : BitVec 16), Fetches s k →
    let c := s.core k
    let ticket : W32 := (c.gpr ra).truncate 32
    let goesOn := { c with pc := c.pc + 4 }
    Leaves (.pollt k rd ra 0) s k (wrote c rd (BitVec.ofNat 64 (s.polltWord ticket)) (c.pc + 4))
    ∧ ((s.ticketState ticket).1 = 3 → Leaves (.waitt k rd ra imm) s k (wrote c rd 0 (c.pc + 4)))
    ∧ (((s.ticketState ticket).1 = 4 ∨ (s.ticketState ticket).1 = 0) → Leaves (.waitt k rd ra imm) s k (wrote c rd 2 (c.pc + 4)))
    ∧ (((s.ticketState ticket).1 = 1 ∨ (s.ticketState ticket).1 = 2) → imm = 0 → Leaves (.waitt k rd ra imm) s k (wrote c rd 1 (c.pc + 4)))
    ∧ (((s.ticketState ticket).1 = 1 ∨ (s.ticketState ticket).1 = 2) → imm ≠ 0 →
        Leaves (.waitt k rd ra imm) s k { c with wait := .ticket rd ticket imm.toNat })
    ∧ (c.event &&& c.evmask ≠ 0 → Leaves (.wfe k rd 0 0) s k (wrote c rd (c.event.zeroExtend 64) (c.pc + 4)))
    ∧ (c.event &&& c.evmask = 0 → Leaves (.wfe k rd 0 0) s k { c with wait := .wfe rd })
    ∧ Leaves (.fenceR k 0 0 0) s k goesOn ∧ Leaves (.fenceA k 0 0 0) s k goesOn
    ∧ (s.outstanding k = false → Leaves (.fenceQ k 0 0 0) s k goesOn)
    ∧ (s.outstanding k = true → Leaves (.fenceQ k 0 0 0) s k { c with wait := .fenceQ })
    ∧ (c.harbour = true → Leaves (.commit k 0 0 0) s k { c with wait := .commit })

/-- R53, R74, R450, R451, R504. What of it is the model's choice or reading: notes/assumptions/3 and 19. -/
def Obligations.WaitsEnd : Prop :=
  ∀ (k : CoreId) (s : State) (rd : BitVec 5) (ticket : W32) (left : Nat),
    let c := s.core k
    let goesOn := fun (v : W64) => { wrote c rd v (c.pc + 4) with wait := .none }
    (c.wait = .wfe rd → c.event &&& c.evmask ≠ 0 → Leaves (.wfeWake k) s k (goesOn (c.event.zeroExtend 64)))
    ∧ (c.wait = .ticket rd ticket left → (s.ticketState ticket).1 = 3 → Leaves (.waittTicketDone k) s k (goesOn 0))
    ∧ (c.wait = .ticket rd ticket left → ((s.ticketState ticket).1 = 4 ∨ (s.ticketState ticket).1 = 0) → Leaves (.waittTicketDone k) s k (goesOn 2))
    ∧ (c.wait = .ticket rd ticket 0 → ((s.ticketState ticket).1 = 1 ∨ (s.ticketState ticket).1 = 2) → Leaves (.waittTimeout k) s k (goesOn 1))
    ∧ (c.wait = .ticket rd ticket 0 → (s.ticketState ticket).1 = 3 → Leaves (.waittTimeout k) s k (goesOn 0))
    ∧ (c.obsIrq = true → c.oie = true → c.run = .running → c.wait = .none → Leaves (.observationInterrupt k) s k (faulted c 0x0C 0 0 0))
    ∧ ((∀ r, c.wait ≠ .wfe r) → Does (.wfeWake k) s s)
    ∧ ((∀ r x n, c.wait ≠ .ticket r x n) → Does (.waittTicketDone k) s s ∧ Does (.waittTimeout k) s s)
    ∧ ((c.obsIrq = false ∨ c.oie = false) → Does (.observationInterrupt k) s s)
    ∧ (c.wait = .wfe rd → c.event &&& c.evmask ≠ 0 → ∃ t, exec (.wfeWake k) s = .next t ∧ (t.core k).h = (c.setGpr rd (c.event.zeroExtend 64)).h
        ∧ (t.core k).pc = c.pc + 4 ∧ (t.core k).wait = .none)
    ∧ (c.wait = .ticket rd ticket left → ∀ r : Nat, r = (if (s.ticketState ticket).1 = 3 then 0 else 2) → ((s.ticketState ticket).1 = 3 ∨ (s.ticketState ticket).1 = 4 ∨ (s.ticketState ticket).1 = 0) →
        ∃ t, exec (.waittTicketDone k) s = .next t ∧ (t.core k).h = (c.setGpr rd (BitVec.ofNat 64 r)).h ∧ (t.core k).pc = c.pc + 4 ∧ (t.core k).wait = .none)
    ∧ (c.wait = .ticket rd ticket 0 → ((s.ticketState ticket).1 = 1 ∨ (s.ticketState ticket).1 = 2) →
        ∃ t, exec (.waittTimeout k) s = .next t ∧ (t.core k).h = (c.setGpr rd 1).h ∧ (t.core k).pc = c.pc + 4 ∧ (t.core k).wait = .none)
    ∧ (c.obsIrq = true → c.oie = true → c.run = .running → c.wait = .none → c.fh = false →
        ∃ t, exec (.observationInterrupt k) s = .next t ∧ (t.core k).epc = c.pc ∧ (t.core k).fault = 0x0C ∧ (t.core k).faddr = 0
          ∧ (t.core k).pc = c.tvec ∧ (t.core k).h = c.h ∧ (t.core k).pstate = (c.pstate &&& ~~~(7 : W32)) ||| ((c.pstate &&& 1) <<< 1) ||| 5)

/-- R53, R504, Table HXS-5, Table HXS-8; the phase moves to the commit point because the row is that moment (notes/assumptions/3.md). -/
def Obligations.CommitPointPasses : Prop :=
  ∀ s : State,
    (s.time.commitPoint = true → Does .commitPoint s s)
    ∧ (s.time.commitPoint = false → Answers .commitPoint s (fun t =>
      t.time.commitPoint = true ∧ t.time.tide = s.time.tide ∧ t.time.phase = max s.time.phase (4352 + 9 * s.time.ext)
      ∧ t.time.tick = s.time.tick + BitVec.ofNat 64 (t.time.phase - s.time.phase) ∧ t.time.devtime = s.time.devtime
      ∧ (∀ k, (t.core k).wait = (s.core k).wait.pass ∧ (t.core k).eventH = (s.core k).eventH ||| 1 ∧ (t.core k).eventB = (s.core k).eventB ||| 1
          ∧ (t.core k).h = (s.core k).h ∧ (t.core k).pc = (s.core k).pc)
      ∧ (∀ a, (a < 0x1A000000 ∨ 0x1B000000 ≤ a) → t.reg a = s.reg a)
      ∧ Within [.regs, .coreA, .coreB, .time] s t))

/-- R57 to R59 at harbour level; the claim fault names the block of the resource's registers (notes/assumptions/30.md). -/
def Obligations.ClaimsJudged : Prop :=
  ∀ (k : CoreId) (s : State) (rd ra : BitVec 5) (imm : BitVec 16), Fetches s k → (s.core k).harbour = true → imm.toNat < 16 → ((s.core k).gpr ra).toNat < 256 →
    let c := s.core k
    let r := (c.gpr ra).toNat
    let f := imm.toNat
    let word := fun (status holder func : Nat) => BitVec.ofNat 64 (status + 0x100 * holder + 0x10000 * func + 0x1000000 * r)
    (s.claimValid r f = true → s.channelTaken r f = false → s.claimOf r = none →
      Answers (.claim k rd ra imm) s (fun t => t.claimOf r = some ⟨.harbour, f⟩ ∧ (∀ x, x ≠ r → t.claimOf x = s.claimOf x)
        ∧ CoreIs (t.core k) (wrote c rd (word 0 1 f) (c.pc + 4)) ∧ Within [corePiece k, .claims, .regs] s t))
    ∧ (∀ held, s.claimValid r f = true → s.channelTaken r f = false → s.claimOf r = some held →
      Leaves (.claim k rd ra imm) s k (wrote c rd (word (if held.holder = .harbour ∧ held.func = f then 0 else 1) held.holder.code (held.func % 16)) (c.pc + 4)))
    ∧ ((s.claimValid r f = false ∨ s.channelTaken r f = true) → Leaves (.claim k rd ra imm) s k (wrote c rd (word 2 0 0) (c.pc + 4)))
    ∧ (s.holds .harbour r = true → Answers (.release k 0 ra 0) s (fun t => t.claimOf r = none ∧ (∀ x, x ≠ r → t.claimOf x = s.claimOf x)
        ∧ (∀ j, (t.core j).eventH.getLsbD 4 = true ∧ (t.core j).eventB.getLsbD 4 = true) ∧ (t.core k).pc = c.pc + 4
        ∧ (t.core k).h = c.h ∧ Within [.coreA, .coreB, .claims, .regs] s t))
    ∧ (s.holds .harbour r = false → Leaves (.release k 0 ra 0) s k (faulted c 0x06 (claimBlock r) r 0))

/-- R50, R68; FAULT[31:16] of a queue fault holds the low 16 bits of the queue operand (log entries below). What of it is the model's choice or reading: notes/assumptions/20. -/
def Obligations.SendPosts : Prop :=
  ∀ (k : CoreId) (s : State) (rd ra rb : BitVec 5), Fetches s k →
    let c := s.core k
    let q := Fin.ofNat 64 (c.gpr ra).toNat
    let b := (c.gpr rb).toNat
    let d := descOf (s.bytes (coreAddr k b) 32)
    (s.sendFault c.harbour (c.gpr ra) (c.gpr rb) = none → Unmarked s (coreAddr k b) 32 →
      ((s.queue q).entries.length < (s.queue q).depth →
        (s.accept k q d).1 = BitVec.ofNat 32 ((s.queue q).seq * 2 ^ 16 + c.epoch.toNat % 256 * 2 ^ 8 + q.val)
        ∧ Does (.send k rd ra rb) s
          ((((s.accept k q d).2.modCore k (fun x => x.setGpr rd ((s.accept k q d).1.zeroExtend 64))).pmcCount k 3 1).retire k))
      ∧ ((s.queue q).depth ≤ (s.queue q).entries.length → Leaves (.send k rd ra rb) s k { c with wait := .send rd q.val d }))
    ∧ (64 ≤ (c.gpr ra).toNat → Leaves (.send k rd ra rb) s k (faulted c 0x07 0 ((c.gpr ra).toNat % 65536) 0))
    ∧ ((c.gpr ra).toNat < 64 → c.harbour = true → b % 32 ≠ 0 → Leaves (.send k rd ra rb) s k (faulted c 0x03 0 0 (c.gpr rb)))

/-- The TXP commands of Table TXP-8 (R104 to R108, R119, R120, R122, R129). What of it is the model's choice or reading: notes/assumptions/23, 26, 91 and 94. -/
def Obligations.TransmitCommands : Prop :=
  ∀ (c : Carrier) (s u : State) (e : QEntry),
    let d := e.desc
    let a := R.TXP_STATE c
    let bank := d.arg1 % 2
    let lanes := if d.unit = 0xFF then [0, 1, 2, 3] else [d.unit]
    let n := d.arg1 % 8192
    let nlc := u.nlcEntries d.arg0 n
    let nlcBank := d.arg1 / 65536 % 2
    let m := d.arg1 % 16384
    ((s.startedOp (txpQ c) 0x100).isSome → Does (.txSetState c) s s)
    ∧ (s.startedOp (txpQ c) 0x100 = none → Started (txpQ c) 0x100 s e u →
      (∀ code, u.txStateCheck c d = some code → Finishes (.txSetState c) s u e code 0 0)
      ∧ (u.txStateCheck c d = none → u.txState c = 0 → d.arg0 % 8 ≠ 0 →
          GoesOn (.txSetState c) s (((u.setFld a F.TXP_STATE_state 1).setTx c { u.tx c with settling := true }).anlLeaveOff true c) (txpQ c))
      ∧ (u.txStateCheck c d = none → u.txState c = 3 → d.arg0 % 8 ≠ 3 → GoesOn (.txSetState c) s u (txpQ c))
      ∧ (u.txStateCheck c d = none → u.txState c = 2 → d.arg0 % 8 ≠ 2 → u.hailBursting c = true → GoesOn (.txSetState c) s u (txpQ c))
      ∧ (u.txStateCheck c d = none → (u.txState c = 0 → d.arg0 % 8 = 0) → (u.txState c = 3 → d.arg0 % 8 = 3) →
          (u.txState c = 2 → u.hailBursting c = true → d.arg0 % 8 = 2) →
          Finishes (.txSetState c) s (u.txEnter c (d.arg0 % 8)) e 0 (d.arg0 % 8) u.time.devtime.toNat))
    ∧ (Started (txpQ c) 0x101 s e u →
      (d.unit ≠ 0xFF → Finishes (.txMute c) s u e 0x02 0 0)
      ∧ (d.unit = 0xFF → d.arg0 % 2 = 1 →
          Finishes (.txMute c) s ((u.setFlag a F.TXP_STATE_muted true).setFlag a F.TXP_STATE_unmute_pending false) e 0 0 0)
      ∧ (d.unit = 0xFF → d.arg0 % 2 = 0 → (u.tx c).fault = true → Finishes (.txMute c) s u e 0x05 0 0)
      ∧ (d.unit = 0xFF → d.arg0 % 2 = 0 → (u.tx c).fault = false → u.txState c = 3 → u.flag a F.TXP_STATE_muted = true →
          GoesOn (.txMute c) s (u.setFlag a F.TXP_STATE_unmute_pending true) (txpQ c))
      ∧ (d.unit = 0xFF → d.arg0 % 2 = 0 → (u.tx c).fault = false → (u.txState c = 3 → u.flag a F.TXP_STATE_muted = false) →
          Finishes (.txMute c) s (u.setFlag a F.TXP_STATE_muted false) e 0 0 0))
    ∧ (Started (txpQ c) 0x102 s e u →
      (((4 ≤ d.unit ∧ d.unit ≠ 0xFF) ∨ bufferOk d.arg0 (128 * lanes.length) = false) → Finishes (.txLoadFir c) s u e 0x02 0 0)
      ∧ ((d.unit < 4 ∨ d.unit = 0xFF) → bufferOk d.arg0 (128 * lanes.length) = true → u.fld a F.TXP_STATE_fir_bank = bank →
          Finishes (.txLoadFir c) s u e 0x06 0 0)
      ∧ ((d.unit < 4 ∨ d.unit = 0xFF) → bufferOk d.arg0 (128 * lanes.length) = true → u.fld a F.TXP_STATE_fir_bank ≠ bank →
          Finishes (.txLoadFir c) s (u.setTx c { u.tx c with fir := (lanes.zip (List.range 4)).foldl (fun (f : Vector (List W16) 8) p => f.set (Fin.ofNat 8 (2 * p.1 + bank)) (u.words16 (d.arg0 + 128 * p.2) 64)) (u.tx c).fir }) e 0 0 0))
    ∧ (Started (txpQ c) 0x103 s e u →
      ((d.unit ≠ 0xFF ∨ n = 0 ∨ 4096 < n ∨ bufferOk d.arg0 (8 * n) = false ∨ nlc.all NlcEntry.ok = false) → Finishes (.txLoadNlc c) s u e 0x02 0 0)
      ∧ (d.unit = 0xFF → n ≠ 0 → n ≤ 4096 → bufferOk d.arg0 (8 * n) = true → nlc.all NlcEntry.ok = true →
          (u.fld a F.TXP_STATE_nlc_bank = nlcBank → Finishes (.txLoadNlc c) s u e 0x06 0 0)
          ∧ (u.fld a F.TXP_STATE_nlc_bank ≠ nlcBank → nlcBank = 0 → Finishes (.txLoadNlc c) s
              ((u.setTx c { u.tx c with nlc0 := nlc }).setFld (R.TXP_NLC_STATUS c) F.TXP_NLC_STATUS_count0 n) e 0 n 0)
          ∧ (u.fld a F.TXP_STATE_nlc_bank ≠ nlcBank → nlcBank = 1 → Finishes (.txLoadNlc c) s
              ((u.setTx c { u.tx c with nlc1 := nlc }).setFld (R.TXP_NLC_STATUS c) F.TXP_NLC_STATUS_count1 n) e 0 n 0)))
    ∧ (Started (txpQ c) 0x104 s e u →
      ((4 ≤ d.unit ∨ m = 0 ∨ 8192 < m ∨ bufferOk d.arg0 m = false) → Finishes (.txCapture c) s u e 0x02 0 0)
      ∧ (d.unit < 4 → m ≠ 0 → m ≤ 8192 → bufferOk d.arg0 m = true →
          (u.txState c = 0 → Finishes (.txCapture c) s u e 0x06 0 0) ∧ (u.txState c = 3 → GoesOn (.txCapture c) s u (txpQ c))
          ∧ (u.txState c ≠ 0 → u.txState c ≠ 3 → Finishes (.txCapture c) s (u.txCapture c d.unit d.arg0 m) e 0 (u.cnt (R.TXP_SF_CNT c)) 0)))

/-- The TXP events (R54, R89, R104, R108, R121, R124, R127, R128). What of it is the model's choice or reading: notes/assumptions/3, 13, 91 and 94. -/
def Obligations.TransmitEvents : Prop :=
  ∀ (c : Carrier) (s : State) (e : QEntry) (clips : Nat) (sat : Bool),
    let a := R.TXP_STATE c
    let settled := s.setTx c { s.tx c with settling := false }
    let clipped := if clips = 0 ∨ (s.tx c).sounding = false then s
      else (s.addCnt (R.TXP_CLIP_CNT c) clips).setFlag (R.TXP_STATUS c) F.TXP_STATUS_clip true
    let shown := (if sat ∧ clipped.flag (R.TXP_CTRL c) F.TXP_CTRL_nlc_en ∧ clipped.nlcBank c ≠ [] then
        clipped.setFlag (R.TXP_STATUS c) F.TXP_STATUS_nlc_sat true else clipped).hailWindow c
    let applied := ((shown.anlBoundary true c).applyBoundary .txSf c).txMirror c
    let unmuted := if applied.flag a F.TXP_STATE_unmute_pending then
        (applied.setFlag a F.TXP_STATE_unmute_pending false).setFlag a F.TXP_STATE_muted (applied.tx c).fault
      else applied
    let counted := (unmuted.completeOps (txpQ c) 0x101 (unmuted.queue (txpQ c)).entries.length).addCnt (R.TXP_SF_CNT c) 1
    let taken := counted.txCapturesDue c (counted.queue (txpQ c)).entries.length
    let begun := taken.setTx c { taken.tx c with line := { (taken.tx c).line with sfs := (taken.tx c).line.sfs + 1 }, sounding := !taken.flag a F.TXP_STATE_muted }
    let x := (s.tx c).line
    let noted := s.setTx c { s.tx c with line := { x with withheld := x.withheld.drop 1, replaced := s.lateBlock c :: x.replaced } }
    ((s.tx c).settling = false → Does (.txDacSettled c) s s)
    ∧ ((s.tx c).settling = true → settled.startedOp (txpQ c) 0x100 = some e →
        Does (.txDacSettled c) s ((settled.txEnter c (e.desc.arg0 % 8)).complete e 0 (e.desc.arg0 % 8) settled.time.devtime.toNat))
    ∧ ((s.tx c).settling = true → settled.startedOp (txpQ c) 0x100 = none → Does (.txDacSettled c) s settled)
    ∧ (s.txState c ≠ 3 → Does (.txSuperframeBoundary c clips sat) s s)
    ∧ (s.txState c = 3 → applied.startedOp (txpQ c) 0x100 = some e → Does (.txSuperframeBoundary c clips sat) s
        ((applied.txEnter c (e.desc.arg0 % 8)).complete e 0 (e.desc.arg0 % 8) applied.time.devtime.toNat))
    ∧ (s.txState c = 3 → applied.startedOp (txpQ c) 0x100 = none → Does (.txSuperframeBoundary c clips sat) s
        (((begun.outSuperframe (sfOut c)).armBoundary (txpQ c)).releaseWaiters))
    ∧ (s.txState c ≠ 3 → Does (.txUnderrun c) s s)
    ∧ (s.txState c = 3 → Does (.txUnderrun c) s
        (((noted.addCnt (R.TXP_UNDERRUN_CNT c) 1).setFlag (R.TXP_STATUS c) F.TXP_STATUS_underrun true).logOpen (txpId c) sevWarn))
    ∧ Does (.txpEngineFault c) s
        ((((s.setTx c { s.tx c with fault := true }).setFlag (R.TXP_STATUS c) F.TXP_STATUS_engine_fault true).setFlag a
          F.TXP_STATE_muted true).logOpen (txpId c) sevFault)

/-- The RXF commands of Table RXF-7 (R146, R151, R153). What of it is the model's choice or reading: notes/assumptions/23 and 26. -/
def Obligations.ReceiveCommands : Prop :=
  ∀ (c : Carrier) (s u : State) (e : QEntry),
    let d := e.desc
    let a := R.RXF_STATE c
    let n := d.arg1 % 16384
    let point := d.arg1 / 65536 % 4
    let bad := 4 ≤ d.unit ∨ n = 0 ∨ 8192 < n ∨ point = 3 ∨ (point = 2 ∧ d.unit % 2 = 1) ∨ bufferOk d.arg0 (rxCaptureBytes d) = false
    let dark := u.fld a F.RXF_STATE_state = 0 ∨ (point = 2 ∧ u.fld a F.RXF_STATE_state ≠ 2 ∧ u.fld a F.RXF_STATE_state ≠ 3)
    ((s.startedOp (rxfQ c) 0x100).isSome → Does (.rxSetState c) s s)
    ∧ (s.startedOp (rxfQ c) 0x100 = none → Started (rxfQ c) 0x100 s e u →
      (∀ code, u.rxStateCheck c d = some code → Finishes (.rxSetState c) s u e code 0 0)
      ∧ (u.rxStateCheck c d = none → u.fld a F.RXF_STATE_state = 0 → d.arg0 % 8 ≠ 0 → GoesOn (.rxSetState c) s
          (((u.rxEnter c 1).setRx c { (u.rxEnter c 1).rx c with settling := true }).anlLeaveOff false c) (rxfQ c))
      ∧ (u.rxStateCheck c d = none → (u.fld a F.RXF_STATE_state = 0 → d.arg0 % 8 = 0) →
          Finishes (.rxSetState c) s (u.rxEnter c (d.arg0 % 8)) e 0 (d.arg0 % 8) u.time.devtime.toNat))
    ∧ (Started (rxfQ c) 0x101 s e u →
      (d.unit ≠ 0xFF → Finishes (.rxReacquire c) s u e 0x02 0 0)
      ∧ (d.unit = 0xFF → u.fld a F.RXF_STATE_state ≠ 3 → Finishes (.rxReacquire c) s u e 0x06 0 0)
      ∧ (d.unit = 0xFF → u.fld a F.RXF_STATE_state = 3 → Finishes (.rxReacquire c) s (u.acqStart c) e 0 0 0))
    ∧ (Started (rxfQ c) 0x102 s e u →
      (bad → Finishes (.rxCapture c) s u e 0x02 0 0) ∧ (¬ bad → dark → Finishes (.rxCapture c) s u e 0x06 0 0)
      ∧ (¬ bad → ¬ dark → u.flag a F.RXF_STATE_sf_lock = true → GoesOn (.rxCapture c) s u (rxfQ c))
      ∧ (¬ bad → ¬ dark → u.flag a F.RXF_STATE_sf_lock = false →
          Finishes (.rxCapture c) s (u.capture d.arg0 (rxCaptureBytes d)) e 0 (u.cnt (R.RXF_SF_CNT c)) 0))

/-- The RXF events (R141, R142, R144 to R146, R149, R151, R152). What of it is the model's choice or reading: notes/assumptions/3, 28, 88, 97 and 98. -/
def Obligations.ReceiveEvents : Prop :=
  ∀ (c : Carrier) (s : State) (e : QEntry) (r0 r1 r2 r3 : BitVec 16) (clips k1 k2 : Nat) (iq : RxIq) (off : BitVec 20) (metric spacing : Nat),
    let a := R.RXF_STATE c
    let st := s.fld a F.RXF_STATE_state
    let settled := s.setRx c { s.rx c with settling := false }
    let rms := fun (n : Nat) (r : BitVec 16) (s : State) => s.setFld (R.RXF_LANE_RMS c n) F.RXF_LANE_RMS_rms r.toNat
    let met := rms 3 r3 (rms 2 r2 (rms 1 r1 (rms 0 r0 ((s.rxClips c clips).iqWindow c iq))))
    let sum := r0.toNat ^ 2 + r1.toNat ^ 2 + r2.toNat ^ 2 + r3.toNat ^ 2
    let thr := met.fld (R.RXF_LOS_CFG c) F.RXF_LOS_CFG_los_thr
    let clr := thr + met.fld (R.RXF_LOS_CFG c) F.RXF_LOS_CFG_hyst
    let x := met.rx c
    let below := if sum < 4 * (256 * thr) ^ 2 then x.below + 1 else 0
    let above := if 4 * (256 * clr) ^ 2 ≤ sum then x.above + 1 else 0
    let m : Int := s.cdMax c
    let coarse : Int := s.cdUnit c 50
    let b1 := min (s.rx c).scanHi ((s.rx c).scanLo + coarse * k1)
    let b2 := min (clampI (-m) m (b1 + coarse)) (clampI (-m) m (b1 - coarse) + s.cdUnit c 1 * k2)
    let scanned := (s.setFldS (R.RXF_CD_STATUS c) F.RXF_CD_STATUS_cd_est b2).setAcq c 2
    let lockable := st = 3 ∧ 2 ≤ s.rxAcq c ∧ s.rxLos c = false ∧ -500000 ≤ off.toInt ∧ off.toInt ≤ 500000
    let timed := (s.setFld (R.RXF_TR_STATUS c) F.RXF_TR_STATUS_offset off.toNat).setFlag a F.RXF_STATE_tr_lock true
    let lost := s.setFlag a F.RXF_STATE_tr_lock false
    let peak := st = 3 ∧ s.rxAcq c = 3 ∧ s.rxLos c = false ∧ s.fld (R.RXF_SF_CFG c) F.RXF_SF_CFG_sf_thresh ≤ metric
    let second := (s.rx c).peak = true ∧ 524286 ≤ spacing ∧ spacing ≤ 524290
    let locked := (s.setAcq c 4).setFlag a F.RXF_STATE_sf_lock true
    let logged := (locked.setRx c { locked.rx c with phase := 0 }).logEvent (rxfId c) sevInfo 0x0003
      (evData [(2, (locked.setRx c { locked.rx c with phase := 0 }).fld (R.RXF_CD_STATUS c) F.RXF_CD_STATUS_cd_est),
        (4, unsigned 32 ((locked.setRx c { locked.rx c with phase := 0 }).fldS (R.RXF_TR_STATUS c) F.RXF_TR_STATUS_offset))])
    let unlocked := (((s.setFlag a F.RXF_STATE_sf_lock false).setFlag (R.RXF_STATUS c) F.RXF_STATUS_sf_loss true).addCnt (R.RXF_SF_LOSS_CNT c) 1).logEvent
      (rxfId c) sevWarn 0x0004 (evData [(4, 4)])
    let dropped := ((unlocked.rxStreamInvalid c).setRx c { unlocked.rx c with peak := false, phase := 1 }).anlMoved false c (unlocked.fld a F.RXF_STATE_state) false
    let late := st = 3 ∧ s.flag a F.RXF_STATE_sf_lock = false ∧ s.rxLos c = false ∧ s.rxAcq c ≠ 0
    let failed := s.setFlag (R.RXF_STATUS c) F.RXF_STATUS_acq_fail true
    let again := (failed.logEvent (rxfId c) sevWarn 0x0005 (evData [(1, s.rxAcq c)])).acqStart c
    let broken := (s.setRx c { s.rx c with fault := true }).setFlag (R.RXF_STATUS c) F.RXF_STATUS_engine_fault true
    ((s.rx c).settling = false → Does (.rxAdcSettled c) s s)
    ∧ ((s.rx c).settling = true → settled.startedOp (rxfQ c) 0x100 = some e →
        Does (.rxAdcSettled c) s ((settled.rxEnter c (e.desc.arg0 % 8)).complete e 0 (e.desc.arg0 % 8) settled.time.devtime.toNat))
    ∧ ((s.rx c).settling = true → settled.startedOp (rxfQ c) 0x100 = none → Does (.rxAdcSettled c) s settled)
    ∧ (st = 0 → Does (.rxLosWindowEnd c r0 r1 r2 r3 clips iq) s s)
    ∧ (st ≠ 0 → met.rxLos c = false → 10 ≤ below →
        Does (.rxLosWindowEnd c r0 r1 r2 r3 clips iq) s ((met.setRx c { x with above := 0, below := 0 }).losDeclare c))
    ∧ (st ≠ 0 → met.rxLos c = false → below < 10 → Does (.rxLosWindowEnd c r0 r1 r2 r3 clips iq) s (met.setRx c { x with below := below }))
    ∧ (st ≠ 0 → met.rxLos c = true → 100 ≤ above →
        Does (.rxLosWindowEnd c r0 r1 r2 r3 clips iq) s ((met.setRx c { x with above := 0, below := 0 }).losClear c))
    ∧ (st ≠ 0 → met.rxLos c = true → above < 100 → Does (.rxLosWindowEnd c r0 r1 r2 r3 clips iq) s (met.setRx c { x with above := above }))
    ∧ Does (.hailCdDwellExpiry c) s (if st = 2 ∧ s.flag a F.RXF_STATE_hail_cd_found = false ∧ s.rxLos c = false then s.hailNextHyp c else s)
    ∧ (¬ (st = 3 ∧ s.rxAcq c = 1 ∧ s.rxLos c = false) → Does (.cdScanComplete c k1 k2) s s)
    ∧ (st = 3 ∧ s.rxAcq c = 1 ∧ s.rxLos c = false → Does (.cdScanComplete c k1 k2) s
        (if b1 = m ∨ b1 = -m ∨ b2 = m ∨ b2 = -m then scanned.setFlag (R.RXF_STATUS c) F.RXF_STATUS_cd_edge true else scanned))
    ∧ (¬ lockable → Does (.trLockDeclared c off) s s)
    ∧ (lockable → Does (.trLockDeclared c off) s (if timed.rxAcq c = 2 then timed.setAcq c 3 else timed))
    ∧ Does (.trLockLost c) s (if lost.rxAcq c = 3 then lost.setAcq c 2 else lost)
    ∧ Does (.trRangeTimeout c) s (if st = 3 ∧ 2 ≤ s.rxAcq c ∧ s.rxLos c = false ∧ s.flag a F.RXF_STATE_tr_lock = false then s.setFlag (R.RXF_STATUS c) F.RXF_STATUS_tr_range true else s)
    ∧ (¬ peak → Does (.sfPeakDetected c metric spacing) s s)
    ∧ (peak → ¬ second → Does (.sfPeakDetected c metric spacing) s (s.setRx c { s.rx c with peak := true }))
    ∧ (peak → second → Does (.sfPeakDetected c metric spacing) s (if (logged.rx c).fault then logged else logged.rxStreamValid c))
    ∧ (s.flag a F.RXF_STATE_sf_lock = false → Does (.sfLockLost c) s s)
    ∧ (s.flag a F.RXF_STATE_sf_lock = true → Does (.sfLockLost c) s
        (if dropped.flag (R.RXF_CTRL c) F.RXF_CTRL_auto_reacq then (dropped.rxTryNext c).setAcq c (if dropped.flag a F.RXF_STATE_tr_lock then 3 else 2)
         else dropped.setAcq c 0))
    ∧ ((¬ late ∨ (s.rx c).phase = 0) → Does (.reacqTimeout c) s s)
    ∧ (late → (s.rx c).phase = 1 → Does (.reacqTimeout c) s ((s.setRx c { s.rx c with phase := 2, peak := false }).cdScan c
        (some (s.fldS (R.RXF_CD_STATUS c) F.RXF_CD_STATUS_cd_est))))
    ∧ (late → 2 ≤ (s.rx c).phase → Does (.reacqTimeout c) s
        (again.setRx c { again.rx c with phase := 1 }))
    ∧ Does (.rxfEngineFault c) s (((broken.rxStreamInvalid c).frmSignal c).logFault (rxfId c) 0x0007 [])

/-- EQZ (R155, R158, R160, R161, R165, R166, R169, R177, R178). What of it is the model's choice or reading: notes/assumptions/3, 27 and 93. -/
def Obligations.EqualiserRows : Prop :=
  ∀ (c : Carrier) (s u : State) (e : QEntry) (grad : List Int) (sop : List Angles) (errs : List Nat) (slice : Fin 9) (cause : Fin 3) (copy : List W16 × Nat),
    let d := e.desc
    let a := R.EQZ_STATE c
    let st := s.fld a F.EQZ_STATE_eq_state
    let hold := d.arg0 % 2 == 1
    let held := u.setEq c { u.eq c with held := hold }
    let map := R.EQZ_SLICE_MAP c
    let shadowed := s.setEq c { s.eq c with shadow := some copy, copy := none }
    let failed := (((s.setRole map slice.val 2).eqCount c).setFlag (R.EQZ_STATUS c) F.EQZ_STATUS_slice_fault true).logEvent (eqzId c) sevFault 0x0001
      (evData [(1, slice.val), (1, cause.val)])
    let swap := s.swapSlices c (s.eq c).pendFail
    let fresh := if swap.1.length < (s.eq c).pendFail.length then
        tapsWithin (swap.2.eq c).ntaps (((swap.2.eq c).shadow.map (·.1)).getD (swap.2.eq c).taps) else (swap.2.eq c).taps
    let swapped := swap.2.setEq c { swap.2.eq c with pendFail := swap.1, taps := fresh }
    let erased := s.setFlag (R.CRR_STATE c) F.CRR_STATE_llr_valid false
    let tracked := s.sopUpdate c sop
    let y := tracked.eq c
    let fails := s.rxValid c = true ∧ s.roleAt map slice.val ≠ 2 ∧ (cause.val ≠ 2 ∨ (s.crState c = 3 ∧ s.roleAt map slice.val = 0
      ∧ sliceExcess (s.fld (R.EQZ_CTRL c) F.EQZ_CTRL_slice_thr) (errs.getD slice.val 0) (s.sliceErrs c errs) = true))
    Does (.eqTapUpdate c grad sop) s (if st = 0 then s else if st = 3 then tracked
      else tracked.setEq c { y with taps := tapStep (tracked.fld (R.EQZ_CTRL c) F.EQZ_CTRL_mu_eq) y.ntaps y.taps grad, updates := y.updates + 1 })
    ∧ (Started (eqzQ c) 0x100 s e u →
      (d.unit ≠ 0xFF → Finishes (.eqHold c) s u e 0x02 0 0)
      ∧ (d.unit = 0xFF → held.rxValid c = false → Finishes (.eqHold c) s held e 0 0 0)
      ∧ (d.unit = 0xFF → held.rxValid c = true → Finishes (.eqHold c) s (held.setFld a F.EQZ_STATE_eq_state (if hold then 3
          else if held.flag (R.EQZ_CTRL c) F.EQZ_CTRL_dd_en ∧ held.crState c = 3 then 2 else 1)) e 0 0 0))
    ∧ (Started (eqzQ c) 0x101 s e u →
      (d.unit ≠ 0xFF → Finishes (.eqReconverge c) s u e 0x02 0 0)
      ∧ (d.unit = 0xFF → u.rxValid c = false → Finishes (.eqReconverge c) s u e 0x06 0 0)
      ∧ (d.unit = 0xFF → u.rxValid c = true → GoesOn (.eqReconverge c) s u (eqzQ c)))
    ∧ (Started (eqzQ c) 0x102 s e u →
      ((d.unit ≠ 0xFF ∨ bufferOk d.arg0 768 = false) → Finishes (.eqReadTaps c) s u e 0x02 0 0)
      ∧ (d.unit = 0xFF → bufferOk d.arg0 768 = true → Finishes (.eqReadTaps c) s
          (u.setBytes d.arg0 ((u.eq c).taps.flatMap (fun w => leBytes 2 w.toNat))) e 0 (u.cnt (R.RXF_SF_CNT c)) 0))
    ∧ (Started (eqzQ c) 0x103 s e u →
      (9 ≤ d.unit → Finishes (.eqSliceRetest c) s u e 0x02 0 0)
      ∧ (d.unit < 9 → (u.roleAt map d.unit = 0 ∨ u.roleAt map d.unit = 3) → Finishes (.eqSliceRetest c) s u e 0x06 0 0)
      ∧ (d.unit < 9 → u.roleAt map d.unit ≠ 0 → u.roleAt map d.unit ≠ 3 →
          GoesOn (.eqSliceRetest c) s ((u.setRole map d.unit 3).eqCount c) (eqzQ c)))
    ∧ ((s.eq c).copy = none → Does (.eqzShadowCopyComplete c) s s)
    ∧ ((s.eq c).copy = some copy → Does (.eqzShadowCopyComplete c) s
        ((shadowed.setFld (R.EQZ_SHADOW_STATUS c) F.EQZ_SHADOW_STATUS_shadow_age 0).setFlag (R.EQZ_SHADOW_STATUS c) F.EQZ_SHADOW_STATUS_shadow_valid true))
    ∧ (¬ fails → Does (.sliceFailureDeclared c slice cause errs) s s)
    ∧ (fails → s.roleAt map slice.val ≠ 0 → Does (.sliceFailureDeclared c slice cause errs) s failed)
    ∧ (fails → s.roleAt map slice.val = 0 → Does (.sliceFailureDeclared c slice cause errs) s
        ((failed.setEq c { failed.eq c with pendFail := (failed.eq c).pendFail ++ [slice.val] }).setFlag (R.CRR_STATE c) F.CRR_STATE_llr_valid false))
    ∧ ((s.eq c).pendFail = [] → Does (.sliceSwap c) s s)
    ∧ ((s.eq c).pendFail ≠ [] → Does (.sliceSwap c) s
        (if swap.1.isEmpty ∧ swapped.rxValid c ∧ swapped.crState c = 3 then swapped.crLeave c 2 else swapped))
    ∧ Does (.eqzCrrEngineFault c false) s
        (((erased.setFlag (R.EQZ_STATUS c) F.EQZ_STATUS_engine_fault true).setEq c { erased.eq c with restartDue := true }).logFault (eqzId c) 0x0006 [])
    ∧ Does (.eqzCrrEngineFault c true) s
        (((erased.setFlag (R.CRR_STATUS c) F.CRR_STATUS_engine_fault true).setCr c { erased.cr c with restartDue := true }).logFault (crrId c) 0x0005 [])

/-- CRR (R170, R175, R178) and the receive superframe boundary (R54, R145). What of it is the model's choice or reading: notes/assumptions/3, 26, 93 and 95. -/
def Obligations.CarrierRecoveryRows : Prop :=
  ∀ (c : Carrier) (s u : State) (e : QEntry) (m : RxMeas),
    let d := e.desc
    let seed := BitVec.ofNat 18 d.arg0
    let n := d.arg1 % 16384
    let bad := 2 ≤ d.unit ∨ n = 0 ∨ 8192 < n ∨ bufferOk d.arg0 (4 * n) = false
    let x := s.recoverPol c false m.groupsX
    let y := s.recoverPol c true m.groupsY
    let begun := s.rxfBoundary c m
    let told := (((begun.crErased c m).sopReport c).crGmi c x y).crSlips c x y
    let moved := ((told.crSnr c x y).crStep c m x y).rxRejoin c
    let passed := if begun.rxValid c then ((((moved.polCheck c m).polSwap c).eqMode c).faultRestart c).crKeep c x y else begun.faultRestart c
    let captured := ((passed.gmiShow c).eqCommandsDue c).crCaptures c x y
    let low := s.setFlag (R.CRR_STATUS c) F.CRR_STATUS_below_thr true
    (Started (crrQ c) 0x100 s e u →
      (d.unit ≠ 0xFF → Finishes (.crReacquire c) s u e 0x02 0 0)
      ∧ (d.unit = 0xFF → u.crState c = 0 → Finishes (.crReacquire c) s u e 0x06 0 0)
      ∧ (d.unit = 0xFF → u.crState c ≠ 0 → GoesOn (.crReacquire c) s u (crrQ c)))
    ∧ (Started (crrQ c) 0x101 s e u →
      ((d.unit ≠ 0xFF ∨ seed.toInt < -50000 ∨ 50000 < seed.toInt) → Finishes (.crFreqSeed c) s u e 0x02 0 0)
      ∧ (d.unit = 0xFF → -50000 ≤ seed.toInt → seed.toInt ≤ 50000 → Finishes (.crFreqSeed c) s (u.setCr c { u.cr c with seed := some seed }) e 0 0 0))
    ∧ (Started (crrQ c) 0x102 s e u →
      (bad → Finishes (.crCapture c) s u e 0x02 0 0) ∧ (¬ bad → u.crState c ≠ 3 → Finishes (.crCapture c) s u e 0x06 0 0)
      ∧ (¬ bad → u.crState c = 3 → GoesOn (.crCapture c) s u (crrQ c)))
    ∧ (s.flag (R.RXF_STATE c) F.RXF_STATE_sf_lock = false → Does (.rxSuperframeBoundary c m) s s)
    ∧ (s.flag (R.RXF_STATE c) F.RXF_STATE_sf_lock = true → Does (.rxSuperframeBoundary c m) s
        (((captured.armBoundary (rxfQ c)).armBoundary (eqzQ c)).armBoundary (crrQ c)).releaseWaiters)
    ∧ ((s.cr c).belowRun < 16 → Does (.snrBelowThreshold c) s s)
    ∧ (16 ≤ (s.cr c).belowRun → (low.cr c).logged = true → Does (.snrBelowThreshold c) s low)
    ∧ (16 ≤ (s.cr c).belowRun → (low.cr c).logged = false → Does (.snrBelowThreshold c) s
        ((low.setCr c { low.cr c with logged := true }).logEvent (crrId c) sevWarn 0x0004 (evData [(2, low.fld (R.CRR_SNR_AVG c) F.CRR_SNR_AVG_snr_avg16)])))

/-- FEC (R188, R189, R191, R195, R197, R200, R201, R203). What of it is the model's choice or reading: notes/assumptions/3, 13, 26, 96 and 99. -/
def Obligations.FecRows : Prop :=
  (∀ (l : List CheckFrac) (k : Nat) (f : CheckFrac),
      let best := l[k]? = some f ∧ 0 < f.2 ∧ 510 * f.2 ≤ f.1 * 1000 ∧ ∀ (j : Nat) (g : CheckFrac), l[j]? = some g → j ≠ k → 5 * f.2 * g.2 + 1000 * g.1 * f.2 ≤ 1000 * f.1 * g.2
      (lockCand l = some (k, f) → best) ∧ (lockCand l = none → ¬ best))
    ∧ ∀ (c : Carrier) (s u : State) (e : QEntry) (hard : List FecHard) (syms : List (Cplx × Cplx)) (chain : Fin 8) (engine : Fin 9) (cause : Fin 3) (block : BitVec 32)
      (k : Nat) (f : CheckFrac),
    let d := e.desc
    let a := R.FEC_STATE c
    let base := s.carBase c
    let mp := fecMp (s.carRate c)
    let judged := s.flag (R.CRR_STATE c) F.CRR_STATE_llr_valid = true ∧ s.carFamily c = 0
    let locked := s.flag a F.FEC_STATE_blk_lock = true
    let run := lowGroups (s.fec c).lowRun ((groupFracs mp (hard.headD [])).filter (fun f => decide (0 < f.2)))
    let cand := lockCand ((hard.take (fecCands base)).map (candFrac mp))
    let found := ((s.fecRestart c).setFlag a F.FEC_STATE_blk_lock true).setFld a F.FEC_STATE_lock_phase k
    let search := Instr.fecBlockLockSearch c hard
    let begun := (s.applyBoundary .fecBlk c).fecEntropy c
    let n := (begun.fec c).arrived
    let ch : Fin 8 := Fin.ofNat 8 n
    let came := begun.setFec c { begun.fec c with arrived := n + 1 }
    let rate := came.carRate c
    let x := (came.fec c).chains[ch]
    let rows := came.fecLlrs c syms
    let put := fun (y : ChainDec) => came.setFec c { came.fec c with chains := (came.fec c).chains.set ch { y with h64 := (came.fec c).h64 } }
    let out := releaseBlock (came.carBase c) rate x.h64 (came.flag (R.FEC_CTRL c) F.FEC_CTRL_et_en) (came.fld (R.FEC_CTRL c) F.FEC_CTRL_iter_max) rows x
    let counted := fun (t : State) (ch : Fin 8) (bad : Bool) =>
      let t := t.addCnt (R.FEC_BLOCK_CNT c) 1
      let y := t.fec c
      let t := t.setFec c { y with uncRun := uncRuns y.uncRun ch bad, tries := y.tries.set ch (y.tries[ch] + 1), flagged := y.flagged + b2n bad }
      if bad then (t.addCnt (R.FEC_UNCORR_CNT c) 1).setFlag (R.FEC_STATUS c) F.FEC_STATUS_uncorr true else t
    let lost := fun (t : State) => counted ((t.setFec c { t.fec c with lostSince := (t.fec c).lostSince.set ch ((t.fec c).lostSince[ch] + 1) }).addCnt (R.FEC_LOST_CNT c) 1) ch true
    let dead := (came.fec c).pendFail.contains (came.chainEngine c ch.val) = true
    let row := Instr.fecBlockRelease c syms
    let ends := fun (t : State) => Does row s (t.armBoundary (fecQ c)).releaseWaiters
    let whole := locked ∧ syms.length = fecNs base
    let w := (Config.iopBlock (came.carFamily c) (came.fld (R.FEC_IOP_CFG c) F.FEC_IOP_CFG_iop_mode) syms).toNat
    let iter := if came.carFamily c = 2 then came else came.addCnt (R.FEC_ITER c (min 17 (w / 2 % 32))) 1
    let part := fun (k : Nat) => w / 2 ^ (6 + 20 * k) % 2 ^ 20
    let untried := s.carFamily c ≠ 0 ∨ ¬ locked ∨ s.seeded c chain.val = true ∨ (s.fec c).tries[chain] < 64
    let map := R.FEC_ENGINE_MAP c
    let inUse := s.roleAt map engine.val = 0
    let failed := ((s.setRole map engine.val 2).fecCount c).setFlag (R.FEC_STATUS c) F.FEC_STATUS_dec_fault true
    let swap := s.swapEngines c (s.fec c).pendFail
    let held := s.setTx c { s.tx c with line := { (s.tx c).line with withheld := (s.tx c).line.withheld ++ [block.toNat] } }
    (¬ judged → Does search s s)
    ∧ (judged → locked → 8 ≤ run → Does search s (s.fecUnlock c))
    ∧ (judged → locked → run < 8 → Does search s (s.setFec c { s.fec c with lowRun := run }))
    ∧ (judged → ¬ locked → cand = none → Does search s s)
    ∧ (judged → ¬ locked → cand = some (k, f) → Does search s
        ((found.setFrm c { found.frm c with rxTry := none }).logEvent (fecId c) sevInfo 0x0004 (evData [(1, k), (4, f.1 * 65536 / f.2)])))
    ∧ (s.carFamily c = 0 → ¬ whole → Does row s s)
    ∧ (s.carFamily c = 0 → whole → x.llr = [] → ends (put (x.fill rate rows)))
    ∧ (s.carFamily c = 0 → whole → x.llr ≠ [] → dead → ends ((lost (put (ChainDec.cold.fill rate rows))).fecCaptureDue c ch.val x.llr none))
    ∧ (s.carFamily c = 0 → whole → x.llr ≠ [] → ¬ dead → ends (((put out.2).fecDecoded c ch out.1).fecCaptureDue c ch.val x.llr (some out.1.slots.toArray)))
    ∧ (s.carFamily c ≠ 0 → s.rxValid c = false → Does row s s)
    ∧ (s.carFamily c ≠ 0 → s.rxValid c = true → dead → ends (lost came))
    ∧ (s.carFamily c ≠ 0 → s.rxValid c = true → ¬ dead → w % 2 = 1 → ends (counted iter ch true))
    ∧ (s.carFamily c ≠ 0 → s.rxValid c = true → ¬ dead → w % 2 ≠ 1 → ends ((counted iter ch false).fecPre c (part 0, part 1) (part 2, part 3)))
    ∧ (untried → Does (.fecSeedFail c chain) s s)
    ∧ (¬ untried → Does (.fecSeedFail c chain) s
        (((s.setFec c { s.fec c with tries := (s.fec c).tries.set chain 0 }).setFlag (R.FEC_STATUS c) F.FEC_STATUS_seed_fail true).logEvent (fecId c) sevWarn 0x0006 (evData [(1, chain.val)])))
    ∧ ((s.roleAt map engine.val = 2 ∨ s.fecCause c engine.val cause.val = false) → Does (.fecEngineFailed c engine cause) s s)
    ∧ (s.roleAt map engine.val ≠ 2 → s.fecCause c engine.val cause.val = true → Does (.fecEngineFailed c engine cause) s
        ((if inUse then failed.setFec c { failed.fec c with pendFail := (failed.fec c).pendFail ++ [engine.val] } else failed).logEvent (fecId c) sevFault 0x0001
          (evData [(1, engine.val), (1, (s.engineChain c engine.val).getD 0), (1, cause.val)])))
    ∧ Does (.fecEngineSwap c) s (swap.2.setFec c { swap.2.fec c with pendFail := swap.1 })
    ∧ (s.flag a F.FEC_STATE_enc_run = false → Does (.fecEncoderFault c block) s s)
    ∧ (s.flag a F.FEC_STATE_enc_run = true → Does (.fecEncoderFault c block) s
        ((held.setFlag (R.FEC_STATUS c) F.FEC_STATUS_enc_fault true).logEvent (fecId c) sevFault 0x0007 (evData [(4, block.toNat)])))
    ∧ (Started (fecQ c) 0x100 s e u →
      (d.unit ≠ 0xFF → Finishes (.fecRelock c) s u e 0x02 0 0)
      ∧ (d.unit = 0xFF → u.fld (R.RXF_STATE c) F.RXF_STATE_acq ≠ 4 → Finishes (.fecRelock c) s u e 0x06 0 0)
      ∧ (d.unit = 0xFF → u.fld (R.RXF_STATE c) F.RXF_STATE_acq = 4 → Finishes (.fecRelock c) s (u.fecUnlock c) e 0 0 0))
    ∧ (Started (fecQ c) 0x101 s e u →
      (9 ≤ d.unit → Finishes (.fecRetest c) s u e 0x02 0 0)
      ∧ (d.unit < 9 → (u.roleAt map d.unit = 0 ∨ u.roleAt map d.unit = 3) → Finishes (.fecRetest c) s u e 0x06 0 0)
      ∧ (d.unit < 9 → u.roleAt map d.unit ≠ 0 → u.roleAt map d.unit ≠ 3 → GoesOn (.fecRetest c) s ((u.setRole map d.unit 3).fecCount c) (fecQ c)))
    ∧ (Started (fecQ c) 0x102 s e u →
      ((8 ≤ d.unit ∨ bufferOk d.arg0 (if d.arg1 % 2 = 0 then 92160 else 11520) = false) → Finishes (.fecCapture c) s u e 0x02 0 0)
      ∧ (d.unit < 8 → bufferOk d.arg0 (if d.arg1 % 2 = 0 then 92160 else 11520) = true →
          (u.flag a F.FEC_STATE_blk_lock = false → Finishes (.fecCapture c) s u e 0x06 0 0)
          ∧ (u.flag a F.FEC_STATE_blk_lock = true → GoesOn (.fecCapture c) s u (fecQ c))))

/-- Hail sending (R211 to R213), the commands of Table HAIL-7 (R224) and the fault (R225). What of it is the model's choice or reading: notes/assumptions/3 and 90. -/
def Obligations.HailSendingRows : Prop :=
  ∀ (c : Carrier) (s u : State) (e : QEntry) (b : HailBurst) (l : List HailBurst) (r : HailRxBurst) (m : List HailRxBurst) (x : HailCur),
    let d := e.desc
    let len := d.arg1 % 4096
    let typ := d.arg1 / 2 ^ 16 % 256
    let fi := d.arg1 / 2 ^ 24 % 16
    let fl := d.arg1 / 2 ^ 28 % 16
    let bad := d.unit ≠ 0xFF ∨ 2048 < len ∨ hailProgType typ = false ∨ fl < fi ∨ (len ≠ 0 ∧ bufferOk d.arg0 len = false)
    let barred := s.holds d.holder (0x24 + c.code) = false ∨ s.hailTxNow c = 0
    let mine : HailBurst := { typ, fragIdx := fi, fragLast := fl, msgId := d.arg2 % 256, payload := s.bytes d.arg0 len, ticket := some e.ticket }
    let taken := (u.setHail c { u.hail c with ring := m }).hailShow c
    let h := s.hail c
    let ready := h.fault = false ∧ h.cur = none ∧ s.hailTxNow c ≠ 0
    let sent := (s.setHail c { h with cur := none, tail := if x.windowed then none else x.bits.getLast?.map (·.1) }).addCnt (R.HAIL_TX_CNT c) 1
    let after := fun (t : State) => if t.txState c = 2 ∧ (t.startedOp (txpQ c) 0x100).isSome then t.txStateDone c else t
    let stopped := (((s.setHail c { h with fault := true, cur := none, fifo := [], tail := none }).hailAbandon c).hailShow c).setFlag (R.HAIL_STATUS c) F.HAIL_STATUS_engine_fault true
    (Started (hailQ c) 0x100 s e u →
      (bad → Does (.hlSend c) s (s.complete e 0x02 0 0)) ∧ (¬ bad → barred → Does (.hlSend c) s (s.complete e 0x06 0 0))
      ∧ (¬ bad → ¬ barred → h.fault = true → Does (.hlSend c) s (s.complete e 0x05 0 0))
      ∧ (¬ bad → ¬ barred → h.fault = false → 16 ≤ h.fifo.length → Does (.hlSend c) s s)
      ∧ (¬ bad → ¬ barred → h.fault = false → h.fifo.length < 16 →
          GoesOn (.hlSend c) s ((u.setHail c { h with fifo := h.fifo ++ [mine] }).hailShow c) (hailQ c)))
    ∧ (Started (hailQ c) 0x101 s e u →
      ((d.unit ≠ 0xFF ∨ bufferOk d.arg0 2064 = false) → Finishes (.hlRecv c) s u e 0x02 0 0)
      ∧ (d.unit = 0xFF → bufferOk d.arg0 2064 = true → (u.hail c).ring = [] → Finishes (.hlRecv c) s u e 0 0 0)
      ∧ (d.unit = 0xFF → bufferOk d.arg0 2064 = true → (u.hail c).ring = r :: m → Finishes (.hlRecv c) s
          (taken.setBytes d.arg0 (leBytes 8 r.header.toNat ++ leBytes 8 r.time.toNat ++ r.payload)) e 0 r.header.toNat 0))
    ∧ (¬ ready → Does (.hailBurstStart c) s s)
    ∧ (ready → h.encl = b :: l → Does (.hailBurstStart c) s ((s.setHail c { h with encl := l }).hailBegin c b))
    ∧ (ready → h.encl = [] → h.frmq = b :: l → Does (.hailBurstStart c) s ((s.setHail c { h with frmq := l }).hailBegin c b))
    ∧ (ready → h.encl = [] → h.frmq = [] → h.fifo = b :: l →
        Does (.hailBurstStart c) s ((((s.setHail c { h with fifo := l }).hailBegin c b).hailShow c).hlSend c))
    ∧ (ready → h.encl = [] → h.frmq = [] → h.fifo = [] → Does (.hailBurstStart c) s (if s.hailTxNow c = 1 then
        s.hailBegin c { typ := 0, fragIdx := 0, fragLast := 0, msgId := 0, payload := [], ticket := none } else s))
    ∧ (h.cur = none → Does (.hailBurstSent c) s s)
    ∧ (h.cur = some x → x.burst.ticket.bind sent.entryOf = some e → Does (.hailBurstSent c) s (after (sent.complete e 0 x.seq x.start.toNat)))
    ∧ (h.cur = some x → x.burst.ticket.bind sent.entryOf = none → Does (.hailBurstSent c) s (after sent))
    ∧ Does (.hailEngineFault c) s (after (((h.cur.toList.filterMap (·.burst.ticket)) ++ h.fifo.filterMap (·.ticket)).foldl (fun s t => s.endTicket t 0x05 0 0)
        (stopped.logFault (hailId c) 0x0005 [])))

/-- Hail receiving (R141, R150, R215 to R222). What of it is the model's choice or reading: notes/assumptions/3 and 4. -/
def Obligations.HailReceivingRows : Prop :=
  ∀ (c : Carrier) (s : State) (metric energy : Nat) (off : BitVec 14) (gain : Byte) (hdr h : W64) (r : HailRecv) (payload : List Byte) (crc : W32) (t : W64) (o : HailPeak),
    let a := R.HAIL_STATUS c
    let x := s.hail c
    let thr := s.fld (R.HAIL_CFG c) F.HAIL_CFG_corr_thr
    let start := fun (v : State) (p : HailPeak) =>
      (((v.setHail c { v.hail c with recv := some { metric := p.metric, time := p.time, cand := none, header := none } }).setFldS
        (R.HAIL_RX_STATUS c) F.HAIL_RX_STATUS_offset p.offset).setFld (R.HAIL_RX_STATUS c) F.HAIL_RX_STATUS_agc_gain p.gain.toNat).setFld
        (R.HAIL_STATE c) F.HAIL_STATE_rx_state 1
    let near : HailPeak := { metric, time := s.time.devtime, offset := clampI (-5000) 5000 off.toInt, gain }
    let wind : HailPeak := { metric, time := s.time.devtime, offset := s.fldS (R.HAIL_RX_STATUS c) F.HAIL_RX_STATUS_offset, gain }
    let false_ := s.hailFalseStart c
    let caught := (false_.addCnt (R.HAIL_CAPTURE_CNT c) 1).setFlag a F.HAIL_STATUS_capture true
    let judged := fun (p : HailPeak) (w : Instr) =>
      (x.recv = some r → r.header.isSome → Does w s s)
      ∧ (x.recv = some r → r.header = none → 398 * r.metric ≤ 100 * p.metric → Does w s (start caught p))
      ∧ (x.recv = some r → r.header = none → 100 * p.metric < 398 * r.metric → Does w s
          (if r.cand.all (fun o => decide (o.metric < p.metric)) then s.setHail c { x with recv := some { r with cand := some p } } else s))
    let met := s.setFld (R.HAIL_RX_STATUS c) F.HAIL_RX_STATUS_lock_metric (min 255 r.metric)
    let spread := (met.setFlag (R.RXF_STATE c) F.RXF_STATE_hail_cd_found true).setFldS (R.RXF_CD_STATUS c) F.RXF_CD_STATUS_cd_hail
      (cdHyp (met.fld (R.RXF_STATE c) F.RXF_STATE_hyp))
    let found := if met.flag (R.RXF_STATE c) F.RXF_STATE_hail_cd_found then met
      else spread.logEvent (rxfId c) sevInfo 0x0008 (evData [(2, spread.fld (R.RXF_CD_STATUS c) F.RXF_CD_STATUS_cd_hail)])
    let noted := if (found.hail c).firstDue then found.logEvent (hailId c) sevInfo 0x0001
        (evData [(2, unsigned 16 (found.fldS (R.HAIL_RX_STATUS c) F.HAIL_RX_STATUS_offset)), (1, min 255 r.metric)]) else found
    let passed := if met.hailRxNow c = 1 then noted.setHail c { noted.hail c with lastPass := some noted.time.devtime, firstDue := false } else met
    let invalid := hdrVersion hdr ≠ 1 ∨ 2048 < hdrLength hdr ∨ hdrFragLast hdr < hdrFragIdx hdr
    let lossSet := s.setFlag a F.HAIL_STATUS_hail_loss true
    let lossLog := (lossSet.setHail c { lossSet.hail c with lastPass := none, firstDue := true }).logEvent (hailId c) sevWarn 0x0002
      (evData [(4, (s.time.devtime - t).toNat / 10000000)])
    ((s.hailListens c 1 = false ∨ metric < thr) → Does (.hailDetection c metric off gain) s s)
    ∧ (s.hailListens c 1 = true → thr ≤ metric →
      (x.recv = none → Does (.hailDetection c metric off gain) s (start s near)) ∧ judged near (.hailDetection c metric off gain))
    ∧ (s.hailListens c 2 = false → Does (.hailWindowDetect c energy metric gain) s s)
    ∧ (s.hailListens c 2 = true → x.recv = none → Does (.hailWindowDetect c energy metric gain) s
        (if s.fld (R.HAIL_CFG c) F.HAIL_CFG_win_thr ≤ energy then start s wind else s))
    ∧ (s.hailListens c 2 = true → x.recv ≠ none → metric < thr → Does (.hailWindowDetect c energy metric gain) s s)
    ∧ (s.hailListens c 2 = true → thr ≤ metric → judged wind (.hailWindowDetect c energy metric gain))
    ∧ (x.recv = none → Does (.hailHeaderDecoded c hdr) s s)
    ∧ (x.recv = some r → r.header.isSome → Does (.hailHeaderDecoded c hdr) s s)
    ∧ (x.recv = some r → r.header = none → hdrCrcOk hdr = false → r.cand = none → Does (.hailHeaderDecoded c hdr) s (false_.hailAbandon c))
    ∧ (x.recv = some r → r.header = none → hdrCrcOk hdr = false → r.cand = some o → Does (.hailHeaderDecoded c hdr) s (start false_ o))
    ∧ (x.recv = some r → r.header = none → hdrCrcOk hdr = true →
      (invalid → Does (.hailHeaderDecoded c hdr) s ((passed.hailAbandon c).setFlag a F.HAIL_STATUS_hdr_invalid true))
      ∧ (¬ invalid → hdrLength hdr = 0 → Does (.hailHeaderDecoded c hdr) s ((passed.hailAbandon c).hailDeliver c { header := hdr, time := r.time, payload := [] }))
      ∧ (¬ invalid → hdrLength hdr ≠ 0 → Does (.hailHeaderDecoded c hdr) s
          ((passed.setHail c { passed.hail c with recv := some { r with header := some hdr, cand := none } }).setFld (R.HAIL_STATE c) F.HAIL_STATE_rx_state 2)))
    ∧ (x.recv = none → Does (.hailBurstReceived c payload crc) s s)
    ∧ (x.recv = some r → r.header = none → Does (.hailBurstReceived c payload crc) s s)
    ∧ (x.recv = some r → r.header = some h → payload.length ≠ hdrLength h → Does (.hailBurstReceived c payload crc) s s)
    ∧ (x.recv = some r → r.header = some h → payload.length = hdrLength h → crc32 payload = crc →
        Does (.hailBurstReceived c payload crc) s ((s.hailAbandon c).hailDeliver c { header := h, time := r.time, payload }))
    ∧ (x.recv = some r → r.header = some h → payload.length = hdrLength h → crc32 payload ≠ crc →
        Does (.hailBurstReceived c payload crc) s (((s.hailAbandon c).addCnt (R.HAIL_CRC32_FAIL_CNT c) 1).setFlag a F.HAIL_STATUS_crc32_fail true))
    ∧ Does (.hailReceptionLost c) s (if x.recv.any (fun r => r.header.isSome) then
        ((s.hailAbandon c).addCnt (R.HAIL_LOST_CNT c) 1).setFlag a F.HAIL_STATUS_burst_lost true else s)
    ∧ ((x.lastPass = none ∨ s.hailRxNow c ≠ 1) → Does (.hailLoss c) s s)
    ∧ (x.lastPass = some t → s.hailRxNow c = 1 → Does (.hailLoss c) s
        (if lossLog.rxLos c then lossLog.setFlag (R.RXF_STATE c) F.RXF_STATE_hail_cd_found false else lossLog.hailNextHyp c))

/-- The commands of Table FRM-9 (R95 to R97, R249, R251). What of it is the model's choice or reading: notes/assumptions/13 and 25. -/
def Obligations.HitlessChangeCommands : Prop :=
  ∀ (c : Carrier) (s u : State) (e y : QEntry) (m : ElwMsg),
    let d := e.desc
    let a := R.FRM_ELW_STATUS c
    let h64 := d.arg1 % 512
    let id := d.arg1 / 2 ^ 16 % 256
    let target := d.arg1 / 2 ^ 32 % 65536
    let map := normMap (u.bytes d.arg0 400)
    let mf := u.nextFrame c / 256 % 65536
    let bad := entropyOk (u.carBase c) h64 = false ∨ u.capAt c h64 = 0 ∨ mapWithin map (u.capAt c h64) = false ∨ u.mapOk c map = false
    let busy := u.txState c ≠ 3 ∨ (u.frm c).change.isSome ∨ mfAhead target mf < 2 ∨ 32767 < mfAhead target mf
    let sel := (u.frm c).txSel
    let msg : ElwMsg := { typ := 1, id, h64, target, reason := 0, buf := if sel then 0 else 1, mapCrc := (crc32 (mapBytes map)).toNat }
    let x : ElwChange := { msg, first := mf, accepted := false, mapDone := false, ticket := y.ticket }
    let kept := u.setFrm c (if sel then { u.frm c with change := some x, txMap0 := map } else { u.frm c with change := some x, txMap1 := map })
    (Started (frmQ c) 0x100 s e u → u.startedOp (frmQ c) 0x100 = some y →
      ((d.unit ≠ 0xFF ∨ bufferOk d.arg0 400 = false) → Finishes (.frElwStart c) s u e 0x02 0 0)
      ∧ (d.unit = 0xFF → bufferOk d.arg0 400 = true →
        (bad → Finishes (.frElwStart c) s u e 0x02 0 0)
        ∧ (¬ bad → (u.carFamily c ≠ 0 ∨ busy) → Finishes (.frElwStart c) s u e 0x06 0 0)
        ∧ (¬ bad → u.carFamily c = 0 → ¬ busy → GoesOn (.frElwStart c) s
            (((kept.setFld a F.FRM_ELW_STATUS_tx_state 1).setFld a F.FRM_ELW_STATUS_last_id id).hailFrm c 0x20 (msg.bytes ++ mapBytes map)) (frmQ c))))
    ∧ (Started (frmQ c) 0x101 s e u →
      (d.unit ≠ 0xFF → Finishes (.frElwAnswer c) s u e 0x02 0 0)
      ∧ (d.unit = 0xFF → (u.frm c).prop = none → Finishes (.frElwAnswer c) s u e 0x06 0 0)
      ∧ (d.unit = 0xFF → (u.frm c).prop = some m → (u.fld a F.FRM_ELW_STATUS_rx_state ≠ 1 ∨ m.id ≠ d.arg0 % 256) →
          Finishes (.frElwAnswer c) s u e 0x06 0 0)
      ∧ (d.unit = 0xFF → (u.frm c).prop = some m → u.fld a F.FRM_ELW_STATUS_rx_state = 1 → m.id = d.arg0 % 256 →
          GoesOn (.frElwAnswer c) s (u.elwRespond c m (if d.arg0 / 256 % 2 = 1 then some 4 else none)) (frmQ c)))
    ∧ (Started (frmQ c) 0x102 s e u →
      ((d.unit ≠ 0xFF ∨ bufferOk d.arg0 4096 = false) → Finishes (.frCaptureOh c) s u e 0x02 0 0)
      ∧ (d.unit = 0xFF → bufferOk d.arg0 4096 = true → u.flag (R.FRM_DEFECT c) F.FRM_DEFECT_oof = true → Finishes (.frCaptureOh c) s u e 0x06 0 0)
      ∧ (d.unit = 0xFF → bufferOk d.arg0 4096 = true → u.flag (R.FRM_DEFECT c) F.FRM_DEFECT_oof = false → GoesOn (.frCaptureOh c) s u (frmQ c)))

/-- Hitless changes (R95, R97 to R100, R230, R234). What of it is the model's choice or reading: notes/assumptions/3, 13 and 50. -/
def Obligations.HitlessChangeRows : Prop :=
  ∀ (c : Carrier) (hail : Bool) (s : State) (m p : ElwMsg) (copy : List Byte) (x : ElwChange) (k : Nat),
    let a := R.FRM_ELW_STATUS c
    let prop := s.elwTake c hail [0x20] (s.frm c).initMsg
    let held := if copy.length = 400 then prop.2.setFrm c (if m.buf = 1 then { prop.2.frm c with rxMap1 := normMap copy }
        else { prop.2.frm c with rxMap0 := normMap copy }) else prop.2
    let old := m.typ ≠ 1 ∨ held.elwKnown c m.id = true
    let freed := if held.fld a F.FRM_ELW_STATUS_rx_state = 3 then held
      else (held.setFld a F.FRM_ELW_STATUS_rx_state 0).setFrm c { held.frm c with prop := none, resp := elwIdle }
    let damaged := (crc32 (mapBytes (freed.rxBuf c m.buf))).toNat ≠ m.mapCrc
    let asked := (freed.setFld a F.FRM_ELW_STATUS_rx_state 1).setFld a F.FRM_ELW_STATUS_last_id m.id
    let ans := s.elwTake c hail [0x21, 0x22] (s.frm c).respMsg
    let commit := s.elwTake c hail [0x23] (s.frm c).initMsg
    let st := s.fld a F.FRM_ELW_STATUS_tx_state
    let ahead := mfAhead x.msg.target (s.fld (R.FRM_MF_COUNT c) F.FRM_MF_COUNT_tx_mf)
    let second := s.setFld a F.FRM_ELW_STATUS_tx_state 2
    let line := (s.tx c).line
    let begun := s.setTx c { s.tx c with line := { line with entropy := (line.frames.length * frameBits, x.msg.h64) :: line.entropy } }
    let mapped := begun.setFrm c { begun.frm c with txSel := !(begun.frm c).txSel, txAcc := 0, txSlot := 0, txH64 := x.msg.h64, change := some { x with mapDone := true } }
    let frame := s.nextFrame c
    let atT := st = 2 ∧ x.mapDone = false ∧ frame % 256 = 0 ∧ frame / 256 % 65536 = x.msg.target
    let formed := x.mapDone = true ∧ line.entropy.head?.any (fun e => line.frames.length * frameBits ≤ e.1) = false
    let news := (((s.setEntropy c x.msg.h64).setFrm c { s.frm c with change := none }).setFld a F.FRM_ELW_STATUS_tx_state 0).setFlag a F.FRM_ELW_STATUS_done true
    let rst := s.fld a F.FRM_ELW_STATUS_rx_state
    let early := s.flag (R.FRM_STATE c) F.FRM_STATE_in_mf = true ∧ s.fld (R.FRM_MF_COUNT c) F.FRM_MF_COUNT_rx_mf ≠ p.target
    let next := s.setFec c { s.fec c with next := some p.h64 }
    let rnew := ((next.setFrm c { s.frm c with rxH64 := p.h64, rxAcc := 0, rxSlot := 0, prop := none, resp := elwIdle }).setFld
      a F.FRM_ELW_STATUS_rx_state 0).setFlag a F.FRM_ELW_STATUS_done true
    let rcap := (rnew.setFld (R.FRM_STATE c) F.FRM_STATE_map_sel_rx p.buf).setFld (R.CAR_MODE_STATUS c) F.CAR_MODE_STATUS_capacity (rnew.capAt c p.h64)
    let missed := (s.setFld a F.FRM_ELW_STATUS_rx_state 0).setFlag a F.FRM_ELW_STATUS_missed_commit true
    (prop.1 = none → Does (.elwProposeReceived c hail) s prop.2)
    ∧ (prop.1 = some (m, copy) → old → Does (.elwProposeReceived c hail) s held)
    ∧ (prop.1 = some (m, copy) → ¬ old → damaged → Does (.elwProposeReceived c hail) s freed)
    ∧ (prop.1 = some (m, copy) → ¬ old → ¬ damaged → freed.elwCheck c m = some k → Does (.elwProposeReceived c hail) s (freed.elwRespond c m (some k)))
    ∧ (prop.1 = some (m, copy) → ¬ old → ¬ damaged → freed.elwCheck c m = none → freed.flag (R.FRM_ELW_CFG c) F.FRM_ELW_CFG_auto_accept = true →
        Does (.elwProposeReceived c hail) s (freed.elwRespond c m none))
    ∧ (prop.1 = some (m, copy) → ¬ old → ¬ damaged → freed.elwCheck c m = none → freed.flag (R.FRM_ELW_CFG c) F.FRM_ELW_CFG_auto_accept = false →
        Does (.elwProposeReceived c hail) s ((asked.setFrm c { asked.frm c with prop := some m }).logOpen (frmId c) sevInfo))
    ∧ (ans.1 = none → Does (.elwAnswerReceived c hail) s ans.2)
    ∧ (ans.1 = some (m, copy) → (ans.2.frm c).change = none → Does (.elwAnswerReceived c hail) s ans.2)
    ∧ (ans.1 = some (m, copy) → (ans.2.frm c).change = some x → ans.2.fld a F.FRM_ELW_STATUS_tx_state = 1 → m.id = x.msg.id →
      (m.typ = 2 → Does (.elwAnswerReceived c hail) s (ans.2.setFrm c { ans.2.frm c with change := some { x with accepted := true } }))
      ∧ (m.typ = 3 → Does (.elwAnswerReceived c hail) s (ans.2.elwEnd c 2 m.reason))
      ∧ (m.typ ≠ 2 → m.typ ≠ 3 → Does (.elwAnswerReceived c hail) s ans.2))
    ∧ (ans.1 = some (m, copy) → (ans.2.frm c).change = some x → (ans.2.fld a F.FRM_ELW_STATUS_tx_state ≠ 1 ∨ m.id ≠ x.msg.id) →
        Does (.elwAnswerReceived c hail) s ans.2)
    ∧ ((s.frm c).change = none → Does (.elwCommitDeadline c) s s ∧ Does (.elwSwitch c) s s ∧ Does (.elwEntropySwitchBlock c) s s)
    ∧ ((s.frm c).change = some x →
      ((st ≠ 1 ∨ ahead ≠ 1) → Does (.elwCommitDeadline c) s s)
      ∧ (st = 1 → ahead = 1 → x.accepted = true → Does (.elwCommitDeadline c) s (second.hailFrm c 0x23 (second.initOut c).bytes))
      ∧ (st = 1 → ahead = 1 → x.accepted = false → Does (.elwCommitDeadline c) s (s.elwEnd c 1 0))
      ∧ (¬ atT → Does (.elwSwitch c) s s)
      ∧ (atT → Does (.elwSwitch c) s
          (mapped.setFld (R.CAR_MODE_STATUS c) F.CAR_MODE_STATUS_capacity (mapped.capAt c x.msg.h64)).cliShowAll)
      ∧ (¬ formed → Does (.elwEntropySwitchBlock c) s s)
      ∧ (formed → Does (.elwEntropySwitchBlock c) s ((news.logEvent (frmId c) sevInfo 0x0006
          (evData [(1, x.msg.id), (1, 0), (2, x.msg.h64), (4, x.msg.target)])).endTicket x.ticket 0 0 x.first)))
    ∧ ((commit.1 = none ∨ (commit.2.frm c).prop = none) → Does (.elwCommitReceived c hail) s commit.2)
    ∧ (commit.1 = some (m, copy) → (commit.2.frm c).prop = some p → Does (.elwCommitReceived c hail) s
        (if m.typ = 4 ∧ m.id = p.id ∧ m.target = p.target ∧ mfAhead p.target (commit.2.fld (R.FRM_MF_COUNT c) F.FRM_MF_COUNT_rx_mf) = 1
           ∧ commit.2.fld a F.FRM_ELW_STATUS_rx_state = 2
         then commit.2.setFld a F.FRM_ELW_STATUS_rx_state 3 else commit.2))
    ∧ (((s.frm c).prop = none ∨ (rst ≠ 2 ∧ rst ≠ 3) ∨ ((s.frm c).prop = some p ∧ early)) → Does (.elwResponderSwitch c) s s)
    ∧ ((s.frm c).prop = some p → ¬ early → rst = 3 → Does (.elwResponderSwitch c) s
        ((rcap.logEvent (frmId c) sevInfo 0x0006 (evData [(1, p.id), (1, 1), (2, p.h64), (4, p.target)])).cliShowAll))
    ∧ ((s.frm c).prop = some p → ¬ early → rst = 2 → Does (.elwResponderSwitch c) s
        (missed.setFrm c { missed.frm c with rxTry := some p.h64, prop := none, resp := elwIdle, missed := (missed.frm c).missed + 1 }))

/-- FRM and OSP (R54, R92, R93, R226, R232, R234, R236, R237, R239, R243, R244, R247, R249). What of it is the model's choice or reading: notes/assumptions/3, 4, 13, 92, 105 and 108. -/
def Obligations.FramingRows : Prop :=
  ∀ (c : Carrier) (s : State) (pos n : Nat) (hit lom valid : Bool) (oh payload : List Byte) (marked : List (Fin 16256)) (port : Fin 8) (data b : List Byte) (l : List (List Byte)) (ch : Nat),
    let serving := s.txState c = 3
    let applied := s.applyBoundary .frmTx c
    let x := applied.frm c
    let f := applied.nextFrame c
    let started := applied.setFrm c { x with txStarted := true }
    let numbered := (started.setCphCar c { applied.cphCar c with ftx := f }).setFld (R.FRM_MF_COUNT c) F.FRM_MF_COUNT_tx_mf (f / 256 % 65536)
    let cap := numbered.capAt c x.txH64
    let cal := calFrame (calD (numbered.carRate c) cap) (calN (numbered.carRs8 c) (numbered.carBase c) (numbered.carRate c) x.txH64) x.txAcc
    let moved := numbered.setFrm c { numbered.frm c with txAcc := cal.2, txSlot := if cap = 0 then 0 else (x.txSlot + cal.1) % cap, answer := none }
    let told := moved.setFlag (R.FRM_DEFECT c) F.FRM_DEFECT_bdi_tx (moved.bdiDue c)
    let mdc := told.ospTake c
    let head := if x.fault then x.lastOh else mdc.2.formOverhead c f cap x.txAcc x.txSlot mdc.1
    let plain : TxFrame := { oh := head, tags := (mdc.2.cphCar c).tags, d := calD (numbered.carRate c) cap, n := calN (numbered.carRs8 c) (numbered.carBase c) (numbered.carRate c) x.txH64
                             cap, acc := x.txAcc, slot := x.txSlot, map := mdc.2.txMap c, client := [] }
    let filled := mdc.2.fillFrame (f % 256 == 0) (f % 256 == 255) plain
    let untagged := filled.2.setCphCar c { filled.2.cphCar c with tags := [] }
    let joined := (untagged.setFrm c { untagged.frm c with lastOh := head }).setTx c
      { untagged.tx c with line := { (untagged.tx c).line with frames := filled.1 :: (untagged.tx c).line.frames } }
    let sent := (joined.cphFrameBoundary c).completeOp (frmQ c) 0x101 0 0 0
    let cands := (s.frm c).cands
    let search := s.frmLive c = true ∧ s.carFamily c = 0 ∧ s.flag (R.FRM_STATE c) F.FRM_STATE_in_frame = false
    let bad := (s.fec c).flagged
    let base := s.setFec c { s.fec c with flagged := 0 }
    let repl := if base.flag (R.FRM_DEFECT c) F.FRM_DEFECT_repl then base.addCnt (R.FRM_REPL_FRAME_CNT c) 1 else base
    let bip := bipErrors oh (repl.frm c).rxPar
    let inFrame := repl.flag (R.FRM_STATE c) F.FRM_STATE_in_frame
    let a := R.FRM_DEFECT c
    let lomNow := s.flag a F.FRM_DEFECT_lom
    let lofNow := s.flag a F.FRM_DEFECT_lof
    let lofSet := (s.setFlag a F.FRM_DEFECT_lof true).setFlag (R.FRM_STATUS c) F.FRM_STATUS_lof_seen true
    let lofAt := lofSet.setFrm c { lofSet.frm c with lofAt := s.time.devtime }
    let lofClr := s.setFlag a F.FRM_DEFECT_lof false
    let out := ((((((s.setFlag (R.FRM_STATUS c) F.FRM_STATUS_engine_fault true).logFault (frmId c) 0x0009 []).setFlag (R.FRM_STATE c) F.FRM_STATE_in_frame false).setFlag
      a F.FRM_DEFECT_oof true).setFlag a F.FRM_DEFECT_lof true).frmOom c)
    let off := out.elwBreak c
    let broken := off.setFrm c { off.frm c with fault := true, cands := [] }
    let y := s.ospPort port.val
    let silent : Bool × List Byte := (false, List.replicate 8 0)
    let ported := fun (o : Bool × List Byte) (rest : List (List Byte)) =>
      s.setOsp port.val { rxq := rest, insq := if valid && !decide (4 ≤ y.insq.length) then y.insq ++ [data] else y.insq, txd := some o }
    let ends := fun (t : State) => if valid && decide (4 ≤ y.insq.length) then
      (t.setFlag (R.OSP_STATUS port.val) F.OSP_STATUS_ins_ovf true).logEvent (frmId (chanCar ch)) sevWarn 0x0008 (evData [(1, port.val), (1, 1)]) else t
    let foreign := applied.setFlag (R.FRM_DEFECT c) F.FRM_DEFECT_bdi_tx (applied.bdiDue c)
    (¬ serving → Does (.frmTxFrame c) s s)
    ∧ (serving → s.carFamily c ≠ 0 → Does (.frmTxFrame c) s (foreign.armBoundary (frmQ c)).releaseWaiters)
    ∧ (serving → s.carFamily c = 0 → Does (.frmTxFrame c) s (sent.armBoundary (frmQ c)).releaseWaiters)
    ∧ (¬ search → Does (.frmFasSearchMatch c pos hit) s s)
    ∧ (search → cands.lookup pos = some n → hit = false → Does (.frmFasSearchMatch c pos hit) s (s.setCands c (cands.filter (fun p => p.1 != pos))))
    ∧ (search → cands.lookup pos = some n → hit = true → 2 ≤ n → Does (.frmFasSearchMatch c pos hit) s (s.frmIf c))
    ∧ (search → cands.lookup pos = some n → hit = true → n < 2 → Does (.frmFasSearchMatch c pos hit) s
        (s.setCands c (cands.map (fun p => if p.1 == pos then (pos, n + 1) else p))))
    ∧ (search → cands.lookup pos = none → hit = false → Does (.frmFasSearchMatch c pos hit) s s)
    ∧ (search → cands.lookup pos = none → hit = true → cands.length < 4 → Does (.frmFasSearchMatch c pos hit) s (s.setCands c (cands ++ [(pos, 1)])))
    ∧ (search → cands.lookup pos = none → hit = true → 4 ≤ cands.length → Does (.frmFasSearchMatch c pos hit) s (s.addCnt (R.FRM_CAND_FULL_CNT c) 1))
    ∧ (s.frmLive c = false → Does (.frmRxFrame c oh payload marked) s s)
    ∧ (s.frmLive c = true → repl.carFamily c ≠ 0 → Does (.frmRxFrame c oh payload marked) s (repl.iopRxFrame c bad))
    ∧ (s.frmLive c = true → repl.carFamily c = 0 → inFrame = false → Does (.frmRxFrame c oh payload marked) s
        (repl.setFrm c { repl.frm c with oofFrames := (repl.frm c).oofFrames + 1 }))
    ∧ (s.frmLive c = true → repl.carFamily c = 0 → inFrame = true → oh.take 6 ≠ fasBytes → 4 ≤ (repl.frm c).badFas →
        Does (.frmRxFrame c oh payload marked) s (repl.frmOof c))
    ∧ (s.frmLive c = true → repl.carFamily c = 0 → inFrame = true → (oh.take 6 = fasBytes ∨ (repl.frm c).badFas < 4) →
        Does (.frmRxFrame c oh payload marked) s ((repl.setFrm c { repl.frm c with rxPar := some (bip8 payload ^^^ scramParity), bei := bip }).frmFrameIn c oh payload marked bip bad))
    ∧ (s.frmLive c = false → Does (.frmLofTimer c lom) s s)
    ∧ (s.frmLive c = true → s.flag a F.FRM_DEFECT_oom = lomNow → Does (.frmLofTimer c true) s s)
    ∧ (s.frmLive c = true → s.flag a F.FRM_DEFECT_oom = true → lomNow = false → Does (.frmLofTimer c true) s
        ((((s.setFlag a F.FRM_DEFECT_lom true).setFlag (R.FRM_STATUS c) F.FRM_STATUS_lom_seen true).logEvent (frmId c) sevAlarm 0x0003 []).frmActs c false))
    ∧ (s.frmLive c = true → s.flag a F.FRM_DEFECT_oom = false → lomNow = true → Does (.frmLofTimer c true) s (s.setFlag a F.FRM_DEFECT_lom false))
    ∧ (s.frmLive c = true → s.flag a F.FRM_DEFECT_oof = lofNow → Does (.frmLofTimer c false) s s)
    ∧ (s.frmLive c = true → s.flag a F.FRM_DEFECT_oof = true → lofNow = false → Does (.frmLofTimer c false) s
        ((((lofAt.logEvent (frmId c) sevAlarm 0x0001 (evData [(4, (lofAt.frm c).oofFrames)])).elwBreak c).monUrgentBit (2 + c.code)).frmActs c false))
    ∧ (s.frmLive c = true → s.flag a F.FRM_DEFECT_oof = false → lofNow = true → Does (.frmLofTimer c false) s
        (lofClr.logEvent (frmId c) sevInfo 0x0002 (evData [(8, (s.time.devtime - (lofClr.frm c).lofAt).toNat)])))
    ∧ Does (.frmEngineFault c) s ((broken.setFlag a F.FRM_DEFECT_bdi_tx (broken.bdiDue c)).frmActs c false)
    ∧ (s.ospChan port.val = none → Does (.ospWindow port valid data) s (s.setOsp port.val { y with txd := none }))
    ∧ (s.ospChan port.val = some ch →
      (s.flag (R.OSP_CFG port.val) F.OSP_CFG_enable = false →
          Does (.ospWindow port valid data) s (s.setOsp port.val { y with txd := none }))
      ∧ (s.flag (R.OSP_CFG port.val) F.OSP_CFG_enable = true → s.carFamily (chanCar ch) ≠ 0 →
          Does (.ospWindow port valid data) s (s.setOsp port.val { y with txd := some silent }))
      ∧ (s.flag (R.OSP_CFG port.val) F.OSP_CFG_enable = true → s.carFamily (chanCar ch) = 0 → y.rxq = [] →
          Does (.ospWindow port valid data) s (ends (ported silent [])))
      ∧ (s.flag (R.OSP_CFG port.val) F.OSP_CFG_enable = true → s.carFamily (chanCar ch) = 0 → y.rxq = b :: l →
          Does (.ospWindow port valid data) s (ends (ported (true, b) l))))

/-- CLM (R254, R257, R260 to R262, R264, R273, Table CLM-6). What of it is the model's choice or reading: notes/assumptions/3, 4, 58, 104 and 108. -/
def Obligations.ClientMapperRows : Prop :=
  ∀ (s u : State) (e : QEntry) (g : Fin 8) (client : Fin 128) (ctl : Bool) (body : W64) (b : BerthBlock) (pos : Nat) (rest : List RxWord) (us : List Unit66),
    let d := e.desc
    let c := carOf (d.arg1 % 2)
    let map := normMap (u.bytes d.arg0 400)
    let x := u.frm c
    let bad := d.unit ≠ 0xFF ∨ bufferOk d.arg0 400 = false
    let loaded := u.setFrm c (if x.txSel then { x with txMap1 := map } else { x with txMap0 := map })
    let which := d.arg1 / 256 % 4
    let asked := if which = 0 then u.txMap c else if which = 1 then (if x.txSel then x.txMap0 else x.txMap1) else u.rxMap c
    let n := d.arg1 % 1024
    let badCal := 7 < d.unit ∨ n = 0 ∨ 640 < n ∨ bufferOk d.arg0 n = false
    let buf := 1 - u.fld (R.CLM_FLEXE_GRP d.unit) F.CLM_FLEXE_GRP_cal_act
    let k := client.val
    let y := s.client k
    let unit : Unit66 := { ctl, body }
    let shut := (s.cliCfg k).typ = 3 ∨ s.cliOn k = false ∨ s.cliPacket k = true ∨ s.txSlots k = 0 ∨ s.clm.fault = true ∨ s.flag (R.CLM_CLIENT_STATUS k) F.CLM_CLIENT_STATUS_host_fail = true
    let past := ((s.setClient k { y with cut := !unit.isTerm, errDue := true }).addCnt (R.CLM_OVR_CNT k) 1).setFlag R.CLM_STATUS F.CLM_STATUS_overrun true
    let sec := s.time.devtime.toNat / 10000000000
    let open_ := s.cliOn k = true ∧ s.cliPacket k = false ∧ s.flag (R.CLM_CLIENT_STATUS k) F.CLM_CLIENT_STATUS_repl = false
    let regen := decide ((s.cliCfg k).typ ≠ 4)
    let words := berthAlign y.rxPos y.rx
    let found := words.1.bind (fun p => berthNext p words.2)
    let at_ : ClientRt := { y with rxPos := words.1, rx := words.2, egOut := [] }
    let beyond : ClientRt := { at_ with rxPos := some pos, rx := rest }
    let useless := b.bad = true ∨ xdecode b.bits = none
    (Started 16 0x100 s e u →
      (bad → Finishes .clSetMap s u e 0x02 0 0)
      ∧ (¬ bad → u.hasCarrier c = false → Finishes .clSetMap s u e 0x03 0 0)
      ∧ (¬ bad → u.hasCarrier c = true → u.mapOk c map = false → Finishes .clSetMap s u e 0x02 0 0)
      ∧ (¬ bad → u.hasCarrier c = true → u.mapOk c map = true → u.txState c = 3 → Finishes .clSetMap s u e 0x06 0 0)
      ∧ (¬ bad → u.hasCarrier c = true → u.txState c ≠ 3 → u.mapOk c map = true →
          Finishes .clSetMap s (forN 64 State.brtShow loaded.cliShowAll) e 0 0 0))
    ∧ (Started 16 0x101 s e u →
      ((bad ∨ which = 3) → Finishes .clReadMap s u e 0x02 0 0)
      ∧ (¬ bad → which ≠ 3 → u.hasCarrier c = false → Finishes .clReadMap s u e 0x03 0 0)
      ∧ (¬ bad → which ≠ 3 → u.hasCarrier c = true → Finishes .clReadMap s (u.setBytes d.arg0 (mapBytes asked)) e 0 0 0))
    ∧ (Started 16 0x102 s e u →
      (badCal → Finishes .clSetFlexeCal s u e 0x02 0 0)
      ∧ (¬ badCal → n ≠ (u.grpCfg d.unit).calLen → Finishes .clSetFlexeCal s u e 0x02 0 0)
      ∧ (¬ badCal → n = (u.grpCfg d.unit).calLen → (u.grpCfg d.unit).on = false → Finishes .clSetFlexeCal s u e 0x06 0 0)
      ∧ (¬ badCal → (u.grpCfg d.unit).on = true → n = (u.grpCfg d.unit).calLen → Finishes .clSetFlexeCal s
          { u with clm := { u.clm with cals := u.clm.cals.set (Fin.ofNat 16 (2 * d.unit + buf)) (normMap (u.bytes d.arg0 n)) } } e 0 0 0))
    ∧ Does (.flexeCalendarSwitch g) s (if (s.grpCfg g.val).on = false then s
        else s.setFld (R.CLM_FLEXE_GRP g.val) F.CLM_FLEXE_GRP_cal_act (s.fld (R.CLM_FLEXE_GRP g.val) F.CLM_FLEXE_GRP_cal_sel))
    ∧ (shut → Does (.clmIngressUnit client ctl body) s s)
    ∧ (¬ shut → y.cut = true → Does (.clmIngressUnit client ctl body) s (s.setClient k { y with cut := !unit.isTerm }))
    ∧ (¬ shut → y.cut = false → unit.dropped = true → Does (.clmIngressUnit client ctl body) s (s.addCnt (R.CLM_DEL_CNT k) 1))
    ∧ (¬ shut → y.cut = false → unit.dropped = false → y.ing.length < s.ingRoom k →
        Does (.clmIngressUnit client ctl body) s ((s.setClient k { y with ing := y.ing ++ [unit] }).boundShow k))
    ∧ (¬ shut → y.cut = false → unit.dropped = false → s.ingRoom k ≤ y.ing.length → y.overSec = some sec → Does (.clmIngressUnit client ctl body) s past)
    ∧ (¬ shut → y.cut = false → unit.dropped = false → s.ingRoom k ≤ y.ing.length → y.overSec ≠ some sec → Does (.clmIngressUnit client ctl body) s
        ((past.setClient k { past.client k with overSec := some sec }).logEvent 0x10 sevWarn 0x0001 (evData [(1, k)])))
    ∧ ((s.cliOn k = false ∨ s.cliPacket k = true) → Does (.clmEgressUnit client) s s)
    ∧ (s.cliOn k = true → s.cliPacket k = false → s.flag (R.CLM_CLIENT_STATUS k) F.CLM_CLIENT_STATUS_repl = true → Does (.clmEgressUnit client) s
        ((s.setClient k { y with egBuf := [], egSend := false, egSkip := false, egMid := false, egOut := [localFault], rx := [], rxPos := none }).tieOver k))
    ∧ (open_ → found = some (b, pos, rest) →
      (b.absent = true → Does (.clmEgressUnit client) s
        ((s.setClient k { beyond with egBuf := [], egSend := false, egSkip := false, egMid := false, egOut := [localFault] }).tieOver k))
      ∧ (b.absent = false → useless → Does (.clmEgressUnit client) s
        (((s.setClient k { beyond with egBuf := [], egSend := false, egSkip := true, egMid := false, egOut := [errorBlock, errorBlock, errorBlock, errorBlock] }).addCnt
          (R.CLM_ERRBLK_CNT k) 1).tieOver k))
      ∧ (b.absent = false → b.bad = false → xdecode b.bits = some us → Does (.clmEgressUnit client) s
        ((s.setClient k (us.foldl (ClientRt.unit regen) beyond)).tieOver k)))
    ∧ (open_ → found = none →
      (y.egSend = true → Does (.clmEgressUnit client) s
        ((((s.setClient k { at_ with egSend := false, egSkip := true, egMid := false, egOut := [errorBlock] }).addCnt (R.CLM_UNR_CNT k) 1).setFlag
          R.CLM_STATUS F.CLM_STATUS_underrun true).tieOver k))
      ∧ (y.egSend = false → regen = true → y.egBuf = [] → Does (.clmEgressUnit client) s ((s.setClient k (ClientRt.send regen at_ idleBlock)).tieOver k))
      ∧ (y.egSend = false → (regen = false ∨ y.egBuf ≠ []) → Does (.clmEgressUnit client) s ((s.setClient k at_).tieOver k)))
    ∧ Does (.clmBrtEngineFault false) s (((({ s with clm := { s.clm with fault := true } }).setFlag R.CLM_STATUS F.CLM_STATUS_engine_fault true).logFault 0x10 0x0003 []).cliShowAll)
    ∧ Does (.clmBrtEngineFault true) s (((({ s with brt := { s.brt with fault := true } }).setFlag R.BRT_STATUS F.BRT_STATUS_engine_fault true).logFault 0x11 0x0003 []).cliShowAll)

/-- Packet berths (R265 to R271, Table CLM-6). What of it is the model's choice or reading: notes/assumptions/3 and 108. -/
def Obligations.PacketBerthRows : Prop :=
  ∀ (s u : State) (e : QEntry) (client : Fin 128) (frame f : List Byte) (l : List (List Byte)) (p : Fin 64) (j len2 pos at0 at1 at2 at3 : Nat) (h g got : List Byte) (l0 l1 l2 : List RxWord) (e0 e1 e2 : Bool),
    let k := client.val
    let q := s.cliPb k
    let len := frame.length
    let shut := s.cliOn k = false ∨ s.cliPacket k = false ∨ s.txSlots k = 0 ∨ s.brt.fault = true
    let mt := s.brtMeter q len
    let met := mt.2
    let occ := met.fld (R.BRT_PB_STATUS q) F.BRT_PB_STATUS_occupancy
    let bufMax := met.fld (R.BRT_PB_1C q) F.BRT_PB_1C_buf_max
    let yel := min bufMax (met.fld (R.BRT_PB_1C q) F.BRT_PB_1C_yel_thr)
    let free := met.fld R.BRT_STATUS F.BRT_STATUS_free_cells
    let sized := 64 ≤ len ∧ len ≤ s.brtMaxFrame q
    let coloured := mt.1 = 2 ∨ (mt.1 = 1 ∧ yel ≤ occ)
    let n := p.val
    let v := s.brtAccrue n
    let y := v.brtCtx n
    let closed := v.brt.fault = true ∨ v.fld (R.BRT_PB_STATUS n) F.BRT_PB_STATUS_gate ≠ 0 ∨ v.fld (R.BRT_PB_STATUS n) F.BRT_PB_STATUS_slots = 0
    let need := 80000 * (f.length + v.brtOverhead n)
    let shaped := v.flag (R.BRT_PB_00 n) F.BRT_PB_00_shp_en
    let failed := (v.brtClient n).any (fun i => v.flag (R.CLM_CLIENT_STATUS i) F.CLM_CLIENT_STATUS_host_fail)
    let gone := v.setBrtCtx n { y with frames := l, ts := if shaped then y.ts - need else y.ts, sent := y.sent ++ brtHeader f.length failed ++ f ++ List.replicate ((8 - f.length % 8) % 8) (0 : Byte) }
    let a := R.BRT_PB_STATUS n
    let z := s.brtCtx n
    let sync := s.flag a F.BRT_PB_STATUS_sync
    let rt := s.client j
    let span := frameSpan z.need
    let moved := s.setClient j { rt with rx := l1, rxPos := some at1 }
    let given := if z.need = 0 then moved else moved.setBrtCtx n { z with out := g.take z.need, outErr := e1 }
    let erred := if e1 then given.addCnt (R.BRT_RXERR_CNT n) 1 else given
    let lost := (erred.setFlag a F.BRT_PB_STATUS_sync false).setBrtCtx n { erred.brtCtx n with need := 0 }
    let synced := moved.setFlag a F.BRT_PB_STATUS_sync true
    let d := e.desc
    let w := u.brtCtx d.unit
    (shut → Does (.brtIngressFrame client frame) s s)
    ∧ (¬ shut → ¬ sized → Does (.brtIngressFrame client frame) s (s.addCnt (R.BRT_OVERSIZE_CNT q) 1))
    ∧ (¬ shut → sized → coloured → Does (.brtIngressFrame client frame) s met)
    ∧ (¬ shut → sized → ¬ coloured → bufMax < occ + cellsOf len → Does (.brtIngressFrame client frame) s (met.addCnt (R.BRT_BUFDROP_CNT q) 1))
    ∧ (¬ shut → sized → ¬ coloured → occ + cellsOf len ≤ bufMax → free < cellsOf len → Does (.brtIngressFrame client frame) s
        (((met.addCnt (R.BRT_BUFDROP_CNT q) 1).setFlag R.BRT_STATUS F.BRT_STATUS_pool_full true).logEvent 0x11 sevWarn 0x0001 (evData [(2, free), (1, q)])))
    ∧ (¬ shut → sized → ¬ coloured → occ + cellsOf len ≤ bufMax → cellsOf len ≤ free → Does (.brtIngressFrame client frame) s
        ((met.setBrtCtx q { met.brtCtx q with frames := (met.brtCtx q).frames ++ [frame] }).brtCells q (cellsOf len)))
    ∧ ((closed ∨ y.frames = []) → Does (.brtShaperRelease p) s v)
    ∧ (¬ closed → y.frames = f :: l → shaped = true → y.ts < need → Does (.brtShaperRelease p) s v)
    ∧ (¬ closed → y.frames = f :: l → (shaped = true → need ≤ y.ts) → Does (.brtShaperRelease p) s
        ((gone.brtCells n (-(cellsOf f.length : Int))).addCnt (R.BRT_TXFRM_CNT n) 1))
    ∧ (headerLen h = some len2 ↔ leNat (h.take 2) = len2 ∧ leBytes 2 (crc16 (h.take 6)).toNat = h.drop 6 ∧ (len2 = 0 ∨ (64 ≤ len2 ∧ len2 ≤ 16000)))
    ∧ (s.brtClient n = none → Does (.brtEgressHeader p) s s)
    ∧ (s.brtClient n = some j → rt.rxPos.getD 0 = pos → sync = true →
      ((berthBytes (span + 8) pos rt.rx = none ∨ berthBytes span pos rt.rx = none) → Does (.brtEgressHeader p) s s)
      ∧ (berthBytes (span + 8) pos rt.rx = some (got, e0, at1, l1) → berthBytes span pos rt.rx = some (g, e1, at0, l0) →
        (headerLen (got.drop span) = some len2 → Does (.brtEgressHeader p) s
          ((erred.setBrtCtx n { erred.brtCtx n with need := len2, farFail := ((got.drop span).getD 2 0).getLsbD 0 }).brtCliShow n))
        ∧ (headerLen (got.drop span) = none → Does (.brtEgressHeader p) s
          (((lost.addCnt (R.BRT_HUNT_CNT n) 1).setFlag R.BRT_STATUS F.BRT_STATUS_hunt true).logEvent 0x11 sevWarn 0x0002 (evData [(1, n)])))))
    ∧ (s.brtClient n = some j → rt.rxPos.getD 0 = pos → sync = false →
      (berthBytes 8 pos rt.rx = none → Does (.brtEgressHeader p) s s)
      ∧ (berthBytes 8 pos rt.rx = some (h, e0, at1, l1) → headerLen h = none → Does (.brtEgressHeader p) s moved)
      ∧ (berthBytes 8 pos rt.rx = some (h, e0, at1, l1) → headerLen h = some len2 →
        (berthBytes (frameSpan len2 + 8) at1 l1 = none → Does (.brtEgressHeader p) s s)
        ∧ (berthBytes (frameSpan len2 + 8) at1 l1 = some (got, e2, at2, l2) → headerLen (got.drop (frameSpan len2)) = none → Does (.brtEgressHeader p) s moved)
        ∧ (berthBytes (frameSpan len2 + 8) at1 l1 = some (got, e2, at2, l2) → headerLen (got.drop (frameSpan len2)) = some at3 →
            Does (.brtEgressHeader p) s ((synced.setBrtCtx n { z with need := len2, farFail := (h.getD 2 0).getLsbD 0 }).brtCliShow n))))
    ∧ Does (.brtGuardBandStart p) s (if s.brtResized n then s.setFld a F.BRT_PB_STATUS_gate 1 else s)
    ∧ Does (.brtGateClose p) s ((s.setFld a F.BRT_PB_STATUS_gate 0).brtShow n)
    ∧ (Started 17 0x100 s e u →
      (63 < d.unit → Finishes .brResetTokens s u e 0x02 0 0)
      ∧ (d.unit ≤ 63 → (u.brtClient d.unit).isNone = true → Finishes .brResetTokens s u e 0x06 0 0)
      ∧ (d.unit ≤ 63 → (u.brtClient d.unit).isNone = false → Finishes .brResetTokens s (u.brtReset d.unit (d.arg0 % 2 == 1) (d.arg0 / 2 % 2 == 1)) e 0 0 0))
    ∧ (Started 17 0x101 s e u →
      (63 < d.unit → Finishes .brFlush s u e 0x02 0 0)
      ∧ (d.unit ≤ 63 → (u.brtClient d.unit).isNone = true → Finishes .brFlush s u e 0x06 0 0)
      ∧ (d.unit ≤ 63 → (u.brtClient d.unit).isNone = false → Finishes .brFlush s (((u.setBrtCtx d.unit { w with frames := [] }).brtCells d.unit
          (-((w.frames.foldl (fun i f => i + cellsOf f.length) 0 : Nat) : Int))).addCnt (R.BRT_BUFDROP_CNT d.unit) w.frames.length) e 0 0 0))

/-- Lanes (R264, R275, R278, R279, R292, R293, Table LNK-6). What of it is the model's choice or reading: notes/assumptions/3, 4 and 58. -/
def Obligations.LaneRows : Prop :=
  ∀ (s u : State) (e : QEntry) (quay : Bool) (lane : Fin 24) (snr : BitVec 10) (port : HostPort) (locked : Bool) (corr : List Nat) (uncorr : Nat),
    let d := e.desc
    let q : Fin 64 := if quay then 19 else 18
    let power := if quay then Instr.qlSetPower else Instr.hlSetPower
    let readapt := if quay then Instr.qlReadapt else Instr.hlReadapt
    let code := d.arg0 % 4
    let inUse := (if quay then u.flag R.QLK_CTRL F.QLK_CTRL_enable else (u.laneRate d.unit).isSome) = true
    let moved := (unitLanes quay d.unit).foldl (fun s n => s.lanePower quay n code) u
    let n := lane.val
    let a := laneReg quay n
    let absent := quay = true ∧ 8 ≤ n
    let deaf := absent ∨ s.lanePstate quay n ≠ 0 ∨ s.laneLos quay n = true ∨ (s.lane quay n).fault = true ∨ (quay = false ∧ (s.laneRate n).isNone = true)
    let ready := ((s.setFlag a F.HLN_LANE_STATUS_cdr_lock true).setFlag a F.HLN_LANE_STATUS_rx_ready true).setFld a F.HLN_LANE_STATUS_snr snr.toNat
    let silent := (s.setFlag a F.HLN_LANE_STATUS_los true).setFlag a F.HLN_LANE_STATUS_rx_ready false
    let down := (s.setLane quay n { fromL1 := false, fault := true }).laneAdapt quay n
    let cli := fun (c : Fin 128) => (s.cliCfg c.val).on && (s.cliCfg c.val).typ == 1
    let lanes := match port with
      | .client c => if cli c then (s.cliCfg c.val).lanes.getD [] else []
      | .group g => if (s.grpCfg g.val).on then (s.grpCfg g.val).lanes.getD [] else []
    let clients := match port with
      | .client c => if cli c then [c.val] else []
      | .group g => (List.range 128).filter (fun c => (s.cliCfg c).on && (s.cliCfg c).typ == 2 && (s.cliCfg c).idx == g.val)
    let fixed := (lanes.zip corr).foldl (fun s p => s.addCnt (R.HLN_FEC_CORR_CNT p.1) p.2) s
    (Started q 0x100 s e u →
      (s.laneChanging quay d.unit = true → Does power s s)
      ∧ (s.laneChanging quay d.unit = false →
        ((unitOk quay d.unit = false ∨ code = 3) → Finishes power s u e 0x02 0 0)
        ∧ (unitOk quay d.unit = true → code ≠ 3 → code ≠ 0 → inUse → Finishes power s u e 0x06 0 0)
        ∧ (unitOk quay d.unit = true → code ≠ 3 → (code ≠ 0 → ¬ inUse) → (code = 0 → moved.unitReady quay d.unit = true) →
            Finishes power s moved e 0 (b2n (moved.unitReady quay d.unit)) 0)
        ∧ (unitOk quay d.unit = true → code = 0 → moved.unitReady quay d.unit = false → GoesOn power s moved q)))
    ∧ (Started q 0x101 s e u →
      ((if quay then 8 else 24) ≤ d.unit → Finishes readapt s u e 0x02 0 0)
      ∧ (d.unit < (if quay then 8 else 24) → u.lanePstate quay d.unit ≠ 0 → Finishes readapt s u e 0x06 0 0)
      ∧ (d.unit < (if quay then 8 else 24) → u.lanePstate quay d.unit = 0 → Finishes readapt s (u.laneAdapt quay d.unit) e 0 0 0))
    ∧ (deaf → Does (.laneRxReady quay lane snr) s s)
    ∧ (¬ deaf → Does (.laneRxReady quay lane snr) s ((ready.setLane quay n { ready.lane quay n with fromL1 := false }).powerDone quay))
    ∧ Does (.laneL1ExitTimeout quay lane) s (if (s.lane quay n).fromL1 = true ∧ ¬ absent then s.laneAdapt quay n else s)
    ∧ ((absent ∨ s.lanePstate quay n ≠ 0 ∨ s.laneLos quay n = true) → Does (.laneLosDeclared quay lane) s s)
    ∧ (¬ (absent ∨ s.lanePstate quay n ≠ 0 ∨ s.laneLos quay n = true) → quay = true →
        Does (.laneLosDeclared quay lane) s (silent.setFlag R.QLK_STATUS F.QLK_STATUS_los_seen true))
    ∧ (¬ (absent ∨ s.lanePstate quay n ≠ 0 ∨ s.laneLos quay n = true) → quay = false → Does (.laneLosDeclared quay lane) s
        ((((silent.setFlag R.HLN_STATUS F.HLN_STATUS_los_seen true).addCnt (R.HLN_LOS_CNT n) 1).hostFail (silent.laneClients n) true).logEvent
          0x12 sevWarn 0x0001 (evData [(1, n)])))
    ∧ Does (.laneLosCleared quay lane) s (if absent ∨ s.laneLos quay n = false then s else (s.setFlag a F.HLN_LANE_STATUS_los false).laneAdapt quay n)
    ∧ (absent → Does (.laneFault quay lane) s s)
    ∧ (¬ absent → quay = true → Does (.laneFault quay lane) s
        ((((down.setFlag R.QLK_STATUS F.QLK_STATUS_lane_fault true).logEvent 0x13 sevFault 0x0004 (evData [(1, n)])).quayUnlock n).quayIdle n))
    ∧ (quay = false → Does (.laneFault quay lane) s
        (((down.setFlag R.HLN_STATUS F.HLN_STATUS_lane_fault true).logEvent 0x12 sevFault 0x0002 (evData [(1, n)])).hostFail (down.laneClients n) true))
    ∧ Does (.hostPcsLock port locked corr uncorr) s
        ((match lanes.head? with | some n => fixed.addCnt (R.HLN_FEC_UNCORR_CNT n) uncorr | none => fixed).hostFail clients
          (!(locked && lanes.all ((match lanes.head? with | some n => fixed.addCnt (R.HLN_FEC_UNCORR_CNT n) uncorr | none => fixed).laneReady false))))

/-- The Quay link (R282, R283, R285 to R287, R289, R290, Table LNK-6). What of it is the model's choice or reading: notes/assumptions/3, 56, 57 and 102. -/
def Obligations.QuayLinkRows : Prop :=
  ∀ (s u : State) (e : QEntry) (rx : Bool) (superrow : BitVec 22) (lane : Fin 8) (syms : List (Fin 4)) (seq : BitVec 32),
    let d := e.desc
    let dest := d.arg1 % 2 = 1
    let t := d.arg1 / 2 ^ 32 % 2 ^ 22
    let map := (u.bytes d.arg0 320).map (fun b => if b.getLsbD 7 then b &&& 0xBF else 0)
    let bad := d.unit ≠ 0xFF ∨ bufferOk d.arg0 320 = false
    let up := u.flag R.QLK_STATE F.QLK_STATE_link_up
    let ahead := (t + 2 ^ 22 - u.superrow dest) % 2 ^ 22
    let asked := u.quayMap (d.arg1 % 2 = 1) (d.arg1 / 256 % 2 = 0)
    let n := lane.val
    let idle := s.flag R.QLK_CTRL F.QLK_CTRL_enable = false ∨ s.lanePstate true n ≠ 0 ∨ (s.lane true n).fault = true
    let levels := invertLevels (s.flag (R.QLK_LANE_CFG n) F.QLK_LANE_CFG_rx_inv) (syms.map (·.val))
    let block := quayRead (s.flag (R.QLK_LANE_CFG n) F.QLK_LANE_CFG_rx_precode) (s.quayLane n).scr (levels.drop 64)
    let v := (s.setQuayLane n { s.quayLane n with scr := block.scr }).quayComma n (commaFound levels) (commaLane levels)
    let held := (v.quayLane n).held ++ [{ seq := block.seq, ok := block.ok, payload := block.payload }]
    let kept := v.setQuayLane n { v.quayLane n with held := held.drop (held.length - 9) }
    let locked := s.fld R.QLK_STATE F.QLK_STATE_locked = 255
    let deskewed := s.flag R.QLK_STATE F.QLK_STATE_deskewed
    (Started 19 0x102 s e u →
      ((bad ∨ u.quayMapOk dest map = false) → Finishes .qlSetMap s u e 0x02 0 0)
      ∧ (¬ bad → u.quayMapOk dest map = true → up = false →
          Finishes .qlSetMap s ((u.putQuayMap dest map).quaySwitch dest) e 0 (u.superrow dest) 0)
      ∧ (¬ bad → u.quayMapOk dest map = true → up = true → (ahead = 0 ∨ 2 ^ 21 ≤ ahead) → Finishes .qlSetMap s u e 0x06 0 0)
      ∧ (¬ bad → u.quayMapOk dest map = true → up = true → 0 < ahead → ahead < 2 ^ 21 →
          Finishes .qlSetMap s ((u.putQuayMap dest map).setQuayAt dest (some t)) e 0 t 0))
    ∧ (Started 19 0x103 s e u →
      (bad → Finishes .qlReadMap s u e 0x02 0 0)
      ∧ (¬ bad → Finishes .qlReadMap s (u.setBytes d.arg0 (asked ++ List.replicate (320 - asked.length) (0 : Byte))) e 0 0 0))
    ∧ (s.quayAt rx = some superrow.toNat → Does (.quayMapApply rx superrow) s (s.quaySwitch rx))
    ∧ (s.quayAt rx ≠ some superrow.toNat → Does (.quayMapApply rx superrow) s s)
    ∧ (idle → Does (.quayBlockReceived lane syms) s s)
    ∧ (¬ idle → v.quayLocked n = false → Does (.quayBlockReceived lane syms) s v)
    ∧ (¬ idle → v.quayLocked n = true → Does (.quayBlockReceived lane syms) s (if block.ok then kept else kept.addCnt (R.QLK_CRC_CNT n) 1))
    ∧ (¬ locked → Does .quayRow s s)
    ∧ (locked → deskewed = true → Does .quayRow s (if (List.range 8).all (fun n => !(s.quayLane n).held.isEmpty) then s.quayRow (s.reg R.QLK_SEQ_RX + 1) else s))
    ∧ (locked → deskewed = false → s.quayCommon = some seq → Does .quayRow s
        ((forN 8 (fun n s => s.setQuayLane n { s.quayLane n with held := heldFrom seq (s.quayLane n).held }) s).quayRow seq))
    ∧ (locked → deskewed = false → s.quayCommon = none → Does .quayRow s
        (if (List.range 8).all (fun n => (s.quayLane n).held.length == 9) then s.setFlag R.QLK_STATUS F.QLK_STATUS_deskew_err true else s))

/-- The cipher engine (R304, R308 to R312, R314 to R316, R319, R321). What of it is the model's choice or reading: notes/assumptions/3, 38, 100, 101 and 109. -/
def Obligations.CipherRows : Prop :=
  ∀ (s u : State) (e : QEntry) (c : Carrier) (client : Fin 128) (peak : Fin 8193) (fr : TxFrame) (unit : Fin 26) (rxSide : Bool) (inFlight : List (Fin 128)),
    let n := client.val
    let off := fun (words : Nat) => s.hasCipher = false ∨ s.cliOn n = false ∨ s.cliCar n ≠ c ∨ words = 0 ∨ s.protMode n 0 = 0
    let shown := if peak.val = 8192 then s.setFlag R.CPH_STATUS F.CPH_STATUS_win_stall true else s
    let txWords := fr.words n
    let f := (shown.cphCar c).ftx
    let w := (shown.epochActivate n 0 f).epochJudge n 0 f
    let holds := (w.flag (R.CPH_CLIENT_STATUS n) F.CPH_CLIENT_STATUS_tx_squelch || w.cph.shedTx.contains n || w.cph.fault) = true
    let cut := w.cph.abandoned.contains n = true
    let t := ({ w with cph := { w.cph with abandoned := w.cph.abandoned.filter (· != n) } }).countRecord n 0
    let plain := (s.client n).plain
    let trib := s.fld (R.CLM_CLIENT_CFG n) F.CLM_CLIENT_CFG_rx_trib
    let ws := tribWords (s.cphCar c).dueMf trib (s.cphCar c).due
    let text := ws.flatMap (·.bytes)
    let tag := BitVec.ofNat 128 (beNat (((s.cphCar c).dueTags.drop (16 * trib)).take 16))
    let idle := s.hasCipher = false ∨ s.cliOn n = false ∨ s.cliCar n ≠ c ∨ ws = [] ∨ s.protMode n 1 = 0
    let ready := shown.dueTaken c trib
    let rx := ready.cphCar c
    let b := (if rx.frxSet then ready.epochActivate n 1 rx.dueF else ready).epochJudge n 1 rx.dueF
    let dead := b.flag (R.CPH_CLIENT_STATUS n) F.CPH_CLIENT_STATUS_rx_squelch = true ∨ b.cph.fault = true
    let g := b.countRecord n 1
    let y := g.cphCar c
    let good := g.tagMatches c n trib text tag = true
    let passed := ((((g.addCnt (R.CPH_RX_OK_CNT n) 1).addCnt R.CPH_RX_BLOCK_CNT (2 * ws.length)).clmGive n (g.openRecord c n trib ws)).setFailRun n 0).setCphCar c { y with okNow := y.okNow + 1, failFrames := 0 }
    let counted := ((g.addCnt (R.CPH_AUTH_FAIL_CNT n) 1).setFlag R.CPH_STATUS F.CPH_STATUS_auth_fail true).clmGive n (ws.map (fun w => { w with bad := true }))
    let wrong := (counted.setFailRun n (counted.failRun n + 1)).setCphCar c { y with badNow := y.badNow + 1 }
    let failing := 8 ≤ wrong.failRun n ∧ wrong.flag (R.CPH_CLIENT_STATUS n) F.CPH_CLIENT_STATUS_rx_fail = false
    let k := unit.val
    let out := ((s.setUnit k 2).addCnt R.CPH_MISMATCH_CNT 1).setFlag R.CPH_STATUS F.CPH_STATUS_mismatch true
    let spare := if s.unitRole k = 0 then (List.range 26).find? (fun i => out.unitRole i == 1) else none
    let drawn := out.draw
    let logged := (((drawn.2.unitIn spare).unitCount).logEvent 0x14 sevFault 0x0001 (evData [(1, k), (1, b2n rxSide), (1, spare.getD (drawn.1.toNat % 256))])).spareUsed 0x14
    let broken := (((({ s with cph := { s.cph with fault := true } }).setFlag R.CPH_STATUS F.CPH_STATUS_engine_fault true).cphEraseAll).logFault 0x14 0x0007 [])
    let d := e.desc
    let m := d.arg0 % 128
    let dir := d.arg0 / 256 % 2
    let bad := d.unit ≠ 0xFF ∨ d.arg0 / 128 % 2 = 1 ∨ 512 ≤ d.arg0 ∨ bufferOk d.arg1 128 = false
    (s.lastFrame c = none → Does (.cphTxRecord c client peak) s s)
    ∧ (s.lastFrame c = some fr → off txWords → Does (.cphTxRecord c client peak) s s)
    ∧ (s.lastFrame c = some fr → ¬ off txWords → holds → Does (.cphTxRecord c client peak) s (t.addCnt (R.CPH_TX_HOLD_CNT n) 1))
    ∧ (s.lastFrame c = some fr → ¬ off txWords → ¬ holds → cut → Does (.cphTxRecord c client peak) s
        ((t.cutRecord c n txWords fr plain).addCnt (R.CPH_TX_HOLD_CNT n) 1))
    ∧ (s.lastFrame c = some fr → ¬ off txWords → ¬ holds → ¬ cut → Does (.cphTxRecord c client peak) s
        (((t.sealRecord c n txWords fr plain).addCnt (R.CPH_TX_REC_CNT n) 1).addCnt R.CPH_TX_BLOCK_CNT (2 * txWords)))
    ∧ (idle → Does (.cphRxRecord c client peak) s s)
    ∧ (¬ idle → tag = 0 → Does (.cphRxRecord c client peak) s ((g.addCnt (R.CPH_RX_ABSENT_CNT n) 1).clmGive n (ws.map (fun w => { w with absent := true }))))
    ∧ (¬ idle → tag ≠ 0 → dead → Does (.cphRxRecord c client peak) s b)
    ∧ (¬ idle → tag ≠ 0 → ¬ dead → good → Does (.cphRxRecord c client peak) s
        ((if passed.flag (R.CPH_CLIENT_STATUS n) F.CPH_CLIENT_STATUS_rx_fail then (passed.setFlag (R.CPH_CLIENT_STATUS n) F.CPH_CLIENT_STATUS_rx_fail false).cliShow n
          else passed).cphUnrec c 2 false))
    ∧ (¬ idle → tag ≠ 0 → ¬ dead → ¬ good → failing → Does (.cphRxRecord c client peak) s
        ((((wrong.setFlag (R.CPH_CLIENT_STATUS n) F.CPH_CLIENT_STATUS_rx_fail true).setFlag R.CPH_STATUS F.CPH_STATUS_rx_fail true).logEvent 0x14 sevWarn 0x0004
          (evData [(1, n)])).cliShow n))
    ∧ (¬ idle → tag ≠ 0 → ¬ dead → ¬ good → ¬ failing → Does (.cphRxRecord c client peak) s wrong)
    ∧ ((s.hasCipher = false ∨ 2 ≤ s.unitRole k) → Does (.cphUnitMismatch unit rxSide inFlight) s s)
    ∧ (s.hasCipher = true → s.unitRole k < 2 → Does (.cphUnitMismatch unit rxSide inFlight) s (inFlight.foldl (fun s n =>
        if s.protMode n.val 0 = 0 ∨ s.cph.abandoned.contains n.val then s
        else (({ s with cph := { s.cph with abandoned := n.val :: s.cph.abandoned } }).addCnt (R.CPH_ABANDON_CNT n.val) 1).setFlag
          R.CPH_STATUS F.CPH_STATUS_abandon true) logged))
    ∧ Does .cphEngineFault s ((broken.cphUnrec .A 1 true).cphUnrec .B 1 true)
    ∧ (Started 20 0x100 s e u →
      (25 < d.unit → Finishes .cpUnitRetest s u e 0x02 0 0)
      ∧ (d.unit ≤ 25 → (u.unitRole d.unit = 0 ∨ u.unitRole d.unit = 3) → Finishes .cpUnitRetest s u e 0x06 0 0)
      ∧ (d.unit ≤ 25 → u.unitRole d.unit ≠ 0 → u.unitRole d.unit ≠ 3 → u.cph.fault = true → Finishes .cpUnitRetest s u e 0x05 0 0)
      ∧ (d.unit ≤ 25 → u.unitRole d.unit ≠ 0 → u.unitRole d.unit ≠ 3 → u.cph.fault = false → GoesOn .cpUnitRetest s (u.setUnit d.unit 3).unitCount 20))
    ∧ (Started 20 0x101 s e u →
      (bad → Finishes .cpReadContext s u e 0x02 0 0)
      ∧ (¬ bad → Finishes .cpReadContext s
          (u.setBytes d.arg1 ((List.range 4).flatMap (fun i => epochRecord (u.cph.slots.lookup (ctxNo m dir i))))) e 0 0 0))

/-- Enclave services: what is judged first (R341, R342, Table SEC-10). What of it is the model's choice or reading: notes/assumptions/35 and 37. -/
def Obligations.EnclaveRequests : Prop :=
  ∀ (s : State) (ch : Fin 2) (code : Byte) (writeOk : Bool),
    let any := fun (_ : List Byte) => true
    let token := fun (n : Nat) (l : List Byte) => l.length == n && decide ((l.getD 32 0).toNat < 4)
    let table : List (Instr × Nat × (List Byte → Bool) × (List Byte → Bool)) :=
      [(.getStatus ch, 0x01, fun l => l.isEmpty, any), (.getIdentity ch, 0x02, fun l => l.isEmpty, any), (.getChallenge ch, 0x03, fun l => l.isEmpty, any),
       (.zeroize ch, 0x04, fun l => l.isEmpty, any), (.selfTest ch code, 0x05, fun l => l.isEmpty, any),
       (.loadEndorsement ch, 0x10, fun l => l.length == 5536, any),
       (.setPolicy ch, 0x11, fun l => l.length == 129 && carArgOk l && policyOk (l.drop 1), s.svcPart),
       (.startAgreement ch, 0x12, fun l => l.length == 1 && carArgOk l, s.svcPart),
       (.rekeyNow ch, 0x13, fun l => l.length == 2 && carArgOk l && decide ((l.getD 1 0).toNat < 2), s.svcPart),
       (.endSession ch, 0x14, fun l => l.length == 1 && carArgOk l, s.svcPart), (.loadBerthManifest ch, 0x15, fun l => l.length == 4, any),
       (.programAnchor ch writeOk, 0x20, token 5553, any), (.revokeAnchor ch writeOk, 0x21, token 5505, any),
       (.debugUnlock ch, 0x22, fun l => l.length == 5504, any), (.setTimers ch, 0x23, fun l => l.length == 5520 && timersOk l, any)]
    ∀ x ∈ table,
      let due := s.svcDue ch = true ∧ s.svcCode ch = x.2.1
      let formed := s.svcHeader ch = true ∧ x.2.2.1 (s.svcArgs ch) = true
      let present := x.2.2.2 (s.svcArgs ch) = true
      (¬ due → Does x.1 s s)
      ∧ (due → ¬ formed → Does x.1 s (s.secAnswer ch 0x01 []))
      ∧ (due → formed → ¬ present → Does x.1 s (s.secAnswer ch 0x03 []))
      ∧ (due → formed → present → svcAccepted s.secStateCode x.2.1 = false → Does x.1 s (s.secAnswer ch 0x02 []))

/-- The services without a token (R331 to R333, R338, R342 to R345, R503, Table SEC-8). What of it is the model's choice or reading: notes/assumptions/12, 34, 37 and 106. -/
def Obligations.EnclaveServicesOpen : Prop :=
  ∀ (s : State) (ch : Fin 2) (code : Byte) (l : List Byte),
    let c := carArg l
    let drawn := s.drawBytes 32
    let n := code.toNat
    let held := s.sec.endorse.length
    let two := l.length == 2 && carArgOk l && decide ((l.getD 1 0).toNat < 2)
    let fullKey := (l.getD 1 0).toNat = 1
    (Asked s ch 0x01 l l.isEmpty true → Does (.getStatus ch) s
        (s.secAnswer ch 0 (leBytes 4 s.secStateWord.toNat ++ leBytes 4 (s.reg (R.SEC_SESS .A)).toNat ++ leBytes 4 (s.reg (R.SEC_SESS .B)).toNat)))
    ∧ (Asked s ch 0x02 l l.isEmpty true → Does (.getIdentity ch) s (s.secAnswer ch 0 s.idc))
    ∧ (Asked s ch 0x03 l l.isEmpty true → Does (.getChallenge ch) s ((drawn.2.setChallenge ch (some (drawn.1, drawn.2.time.devtime))).secAnswer ch 0 drawn.1))
    ∧ Does (.challengeExpiry ch) s (s.setChallenge ch none)
    ∧ (Asked s ch 0x04 l l.isEmpty true → Does (.zeroize ch) s ((s.secZeroise 1).secAnswer ch 0 []))
    ∧ (Asked s ch 0x05 l l.isEmpty true →
      (n = 0 → Does (.selfTest ch code) s (s.secAnswer ch 0 [0]))
      ∧ (0 < n → n < 0x20 → Does (.selfTest ch code) s ((s.secError n).secAnswer ch 0 [code]))
      ∧ (0x20 ≤ n → s.hasCipher = true → s.unitRole (n - 0x20) = 1 → Does (.selfTest ch code) s ((s.unitKatFail (n - 0x20)).secAnswer ch 0 [code]))
      ∧ (0x20 ≤ n → (s.hasCipher = false ∨ s.unitRole (n - 0x20) ≠ 1) → Does (.selfTest ch code) s (s.secAnswer ch 0 [0])))
    ∧ (Asked s ch 0x10 l (l.length == 5536) true →
      (4 ≤ held → Does (.loadEndorsement ch) s (s.secAnswer ch 0x02 []))
      ∧ (held < 4 → s.endorseOk l idFp = false → Does (.loadEndorsement ch) s (s.secAnswer ch 0x04 []))
      ∧ (held < 4 → s.endorseOk l idFp = true → Does (.loadEndorsement ch) s
          ((({ s with sec := { s.sec with endorse := s.sec.endorse ++ [l] } }).refreshModes).secAnswer ch 0 [BitVec.ofNat 8 held])))
    ∧ (Asked s ch 0x11 l (l.length == 129 && carArgOk l && policyOk (l.drop 1)) (s.svcPart l) → Does (.setPolicy ch) s
        (if s.debugOpen then s.secAnswer ch 0x02 [] else ((s.setSecCar c { s.secCar c with policy := l.drop 1 }).refreshModes).secAnswer ch 0 []))
    ∧ (Asked s ch 0x12 l (l.length == 1 && carArgOk l) (s.svcPart l) → Does (.startAgreement ch) s (if s.kaMay c then s.kaStart c (some ch.val) else s.secAnswer ch 0x02 []))
    ∧ (Asked s ch 0x13 l two (s.svcPart l) → fullKey → Does (.rekeyNow ch) s (if s.kaMay c then (s.kaStart c none).secAnswer ch 0 [] else s.secAnswer ch 0x02 []))
    ∧ (Asked s ch 0x13 l two (s.svcPart l) → ¬ fullKey → Does (.rekeyNow ch) s (((s.activate c).map (fun t => t.secAnswer ch 0 [])).getD (s.secAnswer ch 0x02 [])))
    ∧ (Asked s ch 0x14 l (l.length == 1 && carArgOk l) (s.svcPart l) → Does (.endSession ch) s
        (if s.debugOpen then s.secAnswer ch 0x02 [] else ((((s.sessDrop c).cphErase c 0).cphErase c 1).refreshModes).secAnswer ch 0 []))
    ∧ (Asked s ch 0x15 l (l.length == 4) true → Does (.loadBerthManifest ch) s
        ((s.loadBerth (leNat l)).2.secAnswer ch 0 [BitVec.ofNat 8 (s.loadBerth (leNat l)).1]))

/-- The services with a token (R323, R326, R327, R343, Table SEC-8, Table SEC-11). What of it is the model's choice or reading: notes/assumptions/12, 35 and 36. -/
def Obligations.EnclaveServicesOfficer : Prop :=
  ∀ (s : State) (ch : Fin 2) (writeOk : Bool) (l : List Byte),
    let i := Fin.ofNat 4 (l.getD 32 0).toNat
    let hash := span l 33 48
    let u := s.setChallenge ch none
    let signed := (s.tokenSigned ch l && (s.liveSlots == 0 || s.anchorLive (tokenFp l))) = true
    let may := (u.sec.anchors[i]).state = 0 ∧ u.programRule i hash (tokenFp l) = true
    let ok := s.tokenOk ch l = true
    let st := (u.sec.anchors[i]).state
    let must := (st = 1 ∨ st = 3) ∧ u.liveSlots ≠ b2n (st == 1)
    let written := (u.setAnchor i { programmed := true, revoked := false, hash := hashBits hash }).anchorNote i
    let revoked := (u.setAnchor i { u.sec.anchors[i] with revoked := true }).anchorNote i
    let spoilt := ((u.anchorSpoil i).anchorNote i).secAnswer ch 0x06 []
    let slot := decide ((l.getD 32 0).toNat < 4)
    (Asked s ch 0x20 l (l.length == 5553 && slot) true →
      (¬ signed → Does (.programAnchor ch writeOk) s (u.secAnswer ch 0x04 []))
      ∧ (signed → ¬ may → Does (.programAnchor ch writeOk) s (u.secAnswer ch 0x05 []))
      ∧ (signed → may → Does (.programAnchor ch writeOk) s (if writeOk then written.secAnswer ch 0 [] else spoilt)))
    ∧ (Asked s ch 0x21 l (l.length == 5505 && slot) true →
      (¬ ok → Does (.revokeAnchor ch writeOk) s (u.secAnswer ch 0x04 []))
      ∧ (ok → ¬ must → Does (.revokeAnchor ch writeOk) s (u.secAnswer ch 0x05 []))
      ∧ (ok → must → Does (.revokeAnchor ch writeOk) s (if writeOk then revoked.secAnswer ch 0 [] else spoilt)))
    ∧ (Asked s ch 0x22 l (l.length == 5504) true → Does (.debugUnlock ch) s
        (if s.tokenOk ch l then ((u.secZeroise 2).setFlag R.SEC_STATE F.SEC_STATE_debug_open true).secAnswer ch 0 [] else u.secAnswer ch 0x04 []))
    ∧ (Asked s ch 0x23 l (l.length == 5520 && timersOk l) true → Does (.setTimers ch) s
        (if s.tokenOk ch l then (forN 4 (fun i s => s.setReg (R.SEC_TIMER_REKEY_AGE + 4 * i) (BitVec.ofNat 32 (leNat (span l (32 + 4 * i) 4)))) u).secAnswer ch 0 []
         else u.secAnswer ch 0x04 []))

/-- Peer key agreement (R330 to R332, R335, R339, Table SEC-3, Table SEC-4). What of it is the model's choice or reading: notes/assumptions/12, 31, 32, 33, 34 and 106. -/
def Obligations.KeyExchangeRows : Prop :=
  ∀ (s u : State) (c : Carrier) (pctOk : Bool) (m : List Byte) (k : KaExchange) (g : SecSession),
    let x := s.secCar c
    let awaits := fun (type : Nat) => s.secTake c type = some (m, u) ∧ x.ka = some k
    let own := beNat (span k.hello 16 32)
    let other := beNat (span m 16 32)
    let drop := u.kaFail c { k with channel := none } 0x07 true
    let kr : KaExchange := { k with resp := m.take 1848, prk := prkOf k.hello (m.take 1848) (leBytes 32 (Config.kemDecap k.kemSeed (span m 152 1568)).toNat) (leBytes 48 (Config.ecdh k.ecdhPriv (span m 48 97)).toNat), peerPolicy := span m 1720 128 }
    let idcR := span m 1848 5496
    let eR := span m 7344 5536
    let sigR := span m 12880 3408
    let macR := span m 16288 48
    let thR := sha384 (thA kr ++ idcR ++ eR)
    let thc := sha384 (thR ++ sigR ++ macR ++ u.idc ++ u.ownEnd c)
    let sigI := leBytes 3408 (Config.sign thc).toNat
    let macI := hmac384 (kmOf kr false) (thc ++ sigI)
    let kf : KaExchange := { kr with sent := 0x12, th := sha384 (thc ++ sigI ++ macI), peerFp := fingerprint (idcKeys idcR), peerFloor := leNat (span eR 6 1), floor := leNat (span (u.ownEnd c) 6 1) }
    let idcF := span m 16 5496
    let eF := span m 5512 5536
    let thF := sha384 (k.th ++ idcF ++ eF)
    let thEnd := sha384 (thF ++ span m 11048 3408 ++ span m 14456 48)
    let ke : KaExchange := { k with peerFp := fingerprint (idcKeys idcF), peerFloor := leNat (span eF 6 1) }
    let reason := leNat (span m 16 1)
    let y := u.secCar c
    let more := reason == 0x04 && decide (y.endIdx + 1 < u.sec.endorse.length)
    let retry := more && k.sent == 0x12
    let ended := u.kaFail c (if retry then { k with channel := none } else k) reason false
    let next := ended.setSecCar c { ended.secCar c with endIdx := if reason = 0x04 then (if more then y.endIdx + 1 else 0) else y.endIdx }
    let mine := fun (type len : Nat) => m.take 16 = k.sid ∧ k.sent = type ∧ m.length = len
    let cleared := s.setSecCar c { x with ka := none, collide := false }
    (s.secTake c 0x10 = none → Does (.kaHello c pctOk) s s) ∧ (s.secTake c 0x11 = none → Does (.kaResp c) s s) ∧ (s.secTake c 0x12 = none → Does (.kaFinish c) s s)
    ∧ (s.secTake c 0x13 = none → Does (.kaConfirm c) s s) ∧ (s.secTake c 0x14 = none → Does (.kaAbort c) s s)
    ∧ (s.secTake c 0x11 = some (m, u) → x.ka = none → Does (.kaResp c) s u) ∧ (s.secTake c 0x12 = some (m, u) → x.ka = none → Does (.kaFinish c) s u)
    ∧ (s.secTake c 0x13 = some (m, u) → x.ka = none → Does (.kaConfirm c) s u) ∧ (s.secTake c 0x14 = some (m, u) → x.ka = none → Does (.kaAbort c) s u)
    ∧ (s.secTake c 0x10 = some (m, u) → u.secStateCode = 3 → Does (.kaHello c pctOk) s u)
    ∧ (s.secTake c 0x10 = some (m, u) → u.secStateCode ≠ 3 →
      (y.ka = none → Does (.kaHello c pctOk) s (u.kaHello c m pctOk none))
      ∧ (y.ka = some k → k.sent = 0 → Does (.kaHello c pctOk) s ((u.setKa c none).kaHello c m pctOk k.channel))
      ∧ (y.ka = some k → k.sent ≠ 0 → k.sent ≠ 0x10 → Does (.kaHello c pctOk) s u)
      ∧ (y.ka = some k → k.sent = 0x10 → other < own → Does (.kaHello c pctOk) s u)
      ∧ (y.ka = some k → k.sent = 0x10 → own < other → Does (.kaHello c pctOk) s (drop.kaHello c m pctOk k.channel))
      ∧ (y.ka = some k → k.sent = 0x10 → own = other → Does (.kaHello c pctOk) s
          (drop.setSecCar c { drop.secCar c with ka := some { k with sent := 0 }, collide := true })))
    ∧ (awaits 0x11 →
      (k.sent ≠ 0x10 → Does (.kaResp c) s u)
      ∧ (k.sent = 0x10 → (m.length ≠ 16336 ∨ m.take 16 ≠ k.sid ∨ policyOk (span m 1720 128) = false) → Does (.kaResp c) s (u.kaFail c k 0x02 true))
      ∧ (mine 0x10 16336 → policyOk (span m 1720 128) = true → ∀ why, u.peerFault idcR eR thR sigR macR (kmOf kr true) = some why →
          Does (.kaResp c) s (u.kaFail c kr why true))
      ∧ (mine 0x10 16336 → policyOk (span m 1720 128) = true → u.peerFault idcR eR thR sigR macR (kmOf kr true) = none →
          Does (.kaResp c) s ((u.setKa c (some kf)).secSend c 0x12 (kr.sid ++ u.idc ++ u.ownEnd c ++ sigI ++ macI))))
    ∧ (awaits 0x12 →
      (k.sent ≠ 0x11 → Does (.kaFinish c) s u)
      ∧ (k.sent = 0x11 → (m.length ≠ 14504 ∨ m.take 16 ≠ k.sid) → Does (.kaFinish c) s (u.kaFail c k 0x02 true))
      ∧ (mine 0x11 14504 → ∀ why, u.peerFault idcF eF thF (span m 11048 3408) (span m 14456 48) (kmOf k false) = some why →
          Does (.kaFinish c) s (u.kaFail c k why true))
      ∧ (mine 0x11 14504 → u.peerFault idcF eF thF (span m 11048 3408) (span m 14456 48) (kmOf k false) = none →
          Does (.kaFinish c) s ((u.secSend c 0x13 (ke.sid ++ hmac384 (kmOf ke true) (thEnd ++ ascii "confirm"))).establish c ke true thEnd)))
    ∧ (awaits 0x13 →
      (k.sent ≠ 0x12 → Does (.kaConfirm c) s u)
      ∧ (k.sent = 0x12 → (m.length ≠ 64 ∨ m.take 16 ≠ k.sid) → Does (.kaConfirm c) s (u.kaFail c k 0x02 true))
      ∧ (mine 0x12 64 → span m 16 48 ≠ hmac384 (kmOf k true) (k.th ++ ascii "confirm") → Does (.kaConfirm c) s (u.kaFail c k 0x05 true))
      ∧ (mine 0x12 64 → span m 16 48 = hmac384 (kmOf k true) (k.th ++ ascii "confirm") → Does (.kaConfirm c) s (u.establish c k false k.th)))
    ∧ (awaits 0x14 →
      ((m.length ≠ 20 ∨ m.take 16 ≠ k.sid) → Does (.kaAbort c) s u)
      ∧ (m.length = 20 → m.take 16 = k.sid → Does (.kaAbort c) s
          (if retry then (if next.kaMay c then next.kaStart c k.channel else next.kaAnswer c k) else next)))
    ∧ (x.ka = none → Does (.kaTimeout c) s s ∧ Does (.kaCollisionRetry c) s s)
    ∧ (x.ka = some k → Does (.kaTimeout c) s (if k.sent = 0 ∨ (s.secTake c (kaAwaits k.sent)).isSome then s else s.kaFail c k 0x01 true))
    ∧ (x.ka = some k → Does (.kaCollisionRetry c) s (if x.collide = true ∧ k.sent = 0 then
          (if cleared.kaMay c then cleared.kaStart c k.channel else cleared.kaAnswer c k) else s))
    ∧ Does (.kaRetryTimer c) s (if x.retry = true ∧ s.kaMay c = true then s.kaStart c none else s)
    ∧ (x.cur = none → Does (.fullPeriodExpiry c) s s)
    ∧ (x.cur = some g → Does (.fullPeriodExpiry c) s (if g.responder = false ∧ s.kaMay c = true then s.kaStart c none else s))

/-- Epochs of the traffic keys (R303, R336 to R338). What of it is the model's choice or reading: notes/assumptions/3 and 34. -/
def Obligations.EpochRows : Prop :=
  ∀ (s u : State) (c : Carrier) (m : List Byte) (g : SecSession),
    let x := s.secCar c
    let y := u.secCar c
    let n := beNat (span m 16 4)
    let fe := beNat (span m 20 8)
    let good := m.length = 52 ∧ macA g.kaRx (m.take 36) = span m 36 16 ∧ nOk g.nRx n = true ∧ u.secStateCode = 1
    let es := ratchets (match g.nRx with | some k => n - k - 1 | none => 0) g.esRx
    let fed := u.supplyFrx c (beNat (span m 28 8))
    let installed := (fed.carClients c).foldl (fun s p =>
      if agreedMode g false (s.cliTrib p) = 0 then s else s.installSlot p 1 (agreedMode g false (s.cliTrib p)) n fe (s.cliTrib p) es) fed
    let kept := ((installed.setSecCar c ((installed.secCar c).put { g with nRx := some n, esRx := ratchet es })).setFlag (R.SEC_SESS c) F.SEC_SESS_A_act_pending_rx true).sessPromote c
    let late := decide (fe ≤ (kept.cphCar c).frx)
    let shown := if late then (kept.addCnt R.SEC_LATE_ACT_CNT 1).logEvent 0x15 sevWarn 0x0004 (evData [(1, c.code), (1, 1), (4, n)]) else kept
    let acked := m.length = 40 ∧ macA g.kaRx (m.take 24) = span m 24 16 ∧ beNat (span m 16 4) + 1 = g.nTx
    Does (.epochActivation c) s (if s.activateDue c then (s.activate c).getD s else s)
    ∧ Does (.rekeyAgeExpiry c) s (if x.actTx.isSome then (s.activate c).getD s else s)
    ∧ (s.secTake c 0x15 = none → Does (.keyActivate c) s s)
    ∧ (s.secTake c 0x15 = some (m, u) → u.secStateCode = 3 → Does (.keyActivate c) s u)
    ∧ (s.secTake c 0x15 = some (m, u) → u.secStateCode ≠ 3 →
      (y.bySid (m.take 16) = none → Does (.keyActivate c) s ((u.addCnt R.SEC_ACT_DISCARD_CNT 1).sendAck c none m 2))
      ∧ (y.bySid (m.take 16) = some g → ¬ good → Does (.keyActivate c) s ((u.addCnt R.SEC_ACT_DISCARD_CNT 1).sendAck c (some g) m 2))
      ∧ (y.bySid (m.take 16) = some g → good → Does (.keyActivate c) s ((shown.refreshModes).sendAck c (some g) m (b2n late))))
    ∧ (s.secTake c 0x16 = none → Does (.keyAck c) s s)
    ∧ (s.secTake c 0x16 = some (m, u) → y.bySid (m.take 16) = none → Does (.keyAck c) s u)
    ∧ (s.secTake c 0x16 = some (m, u) → y.bySid (m.take 16) = some g → Does (.keyAck c) s
        (if acked then u.setFlag (R.SEC_SESS c) F.SEC_SESS_A_act_pending_tx false else u))
    ∧ (x.txNext = none → Does (.keyAckTimeout c) s s)
    ∧ (x.txNext = some g → Does (.keyAckTimeout c) s (if s.flag (R.SEC_SESS c) F.SEC_SESS_A_act_pending_tx then
          s.logEvent 0x15 sevWarn 0x0004 (evData [(1, c.code), (1, 0), (4, g.nTx - 1)]) else s))

/-- Timing references (R27, R369, R374 to R385, R388, R389, Table REF-4). What of it is the model's choice or reading: notes/assumptions/3, 4, 80, 81 and 82. -/
def Obligations.ReferenceRows : Prop :=
  ∀ (s u : State) (e : QEntry) (src : Fin 32) (reason : Nat) (meas : List RefMeas) (rootOffset dpllWord closing : W32) (step : BitVec 48) (i : Fin 3) (after : Byte) (k : Fin 4) (x : QEntry),
    let n := src.val
    let may := s.refOn n = true ∧ s.ref.fault = false ∧ (reason = 1 ∨ reason = 2 ∨ (reason = 3 ∧ s.refCond n = false))
    let v := s.setReg R.REF_ROOT_OFFSET rootOffset
    let measured := meas.foldl (fun s m => s.refMeasure m) v
    let lim : Int := 1000 * measured.fld R.REF_SLEW F.REF_SLEW_slew_lim
    let word := clampI (-100000000) 100000000 (dpllWord.toInt + clampI (-lim) lim closing.toInt)
    let worded := match measured.refSel with
      | some j => measured.refWindow j word
      | none => measured
    let switched := fun (from_ dest : Nat) (s : State) =>
      let s := (s.setFlag R.REF_STATE F.REF_STATE_sel_valid true).setFld R.REF_STATE F.REF_STATE_sel_src dest
      let s := (s.setReg64 R.REF_STEP step.toNat).addCnt R.REF_SWITCH_CNT 1
      let s := (s.setFlag R.REF_STATUS F.REF_STATUS_switch true).logEvent 0x1C sevInfo 0x0003 (evData [(1, from_), (1, dest), (8, unsigned 64 step.toInt)])
      (if s.dpll = 0 ∨ s.dpll = 3 then ({ s with ref := { s.ref with acqHold := s.dpll == 3, lockRun := 0 } }).setFld R.REF_STATE F.REF_STATE_dpll_state 1 else s).refShow
    let locked := (s.setFld R.REF_STATE F.REF_STATE_dpll_state 2).setFlag R.REF_STATE F.REF_STATE_hold_oos false
    let locking := { locked with ref := { locked.ref with lockedAt := locked.time.devtime, acqHold := false, words := [] } }
    let aged := (s.setFlag R.REF_STATE F.REF_STATE_hold_oos true).setFlag R.REF_STATUS F.REF_STATUS_hold_oos true
    let outside := s.fld R.REF_HOLD_LIMIT F.REF_HOLD_LIMIT_hold_limit * 1000 * 10000000000 <
      (s.reg R.REF_HOLD_U0).toNat * 10000000000 + s.refDrift * (s.time.devtime - s.ref.holdAt).toNat
    let err := s.genError
    let zero := { s with ref := { s.ref with gen := 0, sec := if 2 * s.ref.gen < genSecond then s.ref.sec else s.ref.sec + 1 } }
    let aligned := (((zero.setReg64 R.REF_ALIGN_STEP (unsigned 48 (-err))).addCnt R.REF_REALIGN_CNT 1).setFlag R.REF_STATUS F.REF_STATUS_realign true).logEvent
      0x1C sevInfo 0x000A (evData [(8, unsigned 64 (-err))])
    let mode := s.fld (R.REF_OUT_CFG k.val) F.REF_OUT_CFG_mode
    let c : Carrier := if k.val = 2 then .A else .B
    let second := s.ref.sent[k] < s.secondsDue k
    let due := if k.val < 2 then second else s.ref.sfSent[k] < s.outSfs k ∧ (mode = 1 ∨ second)
    let quiet := mode = 0 ∨ (2 ≤ k.val ∧ s.fld (R.TXP_STATE c) F.TXP_STATE_state ≠ 3) ∨ ¬ due
    let sfs := s.ref.sfSent.set k (if mode = 2 then s.outSfs k else s.ref.sfSent[k] + 1)
    let answered := { s with ref := { s.ref with sent := s.ref.sent.set k (s.ref.sent[k] + 1), sfSent := sfs } }
    let sent := answered.sendPulse k
    let d := e.desc
    let w := d.arg0 % 1024
    let broken := ({ s with ref := { s.ref with fault := true } }).setFlag R.REF_STATUS F.REF_STATUS_engine_fault true
    let stopped := (({ s with time := { s.time with xtalStopped := true } }).setFlag R.REF_STATE F.REF_STATE_xtal_ok false).setFlag R.REF_STATUS F.REF_STATUS_xtal_loss true
    (may → Does (.refSourceDisqualify src reason) s (s.refDisqualify n reason)) ∧ (¬ may → Does (.refSourceDisqualify src reason) s s)
    ∧ Does (.refSourceWtrExpiry src) s (if s.refOn n = true ∧ s.refQual n = false ∧ s.fld (R.REF_SRC_STATUS n) F.REF_SRC_STATUS_reason = 4 ∧ s.refCond n = true ∧ s.ref.fault = false then (s.refQualify n).refShow else s)
    ∧ (v.ref.fault = true → Does (.refMonitorWindowEnd meas rootOffset dpllWord closing) s v)
    ∧ (v.ref.fault = false → Does (.refMonitorWindowEnd meas rootOffset dpllWord closing) s worded.refTie.refShow)
    ∧ ((s.ref.fault = true ∨ s.refChoice = s.refSel) → Does (.refSourceSwitch step) s s)
    ∧ (s.ref.fault = false → s.refChoice ≠ s.refSel →
      (s.refChoice = none → Does (.refSourceSwitch step) s (((s.setFlag R.REF_STATE F.REF_STATE_sel_valid false).refLost).refShow))
      ∧ (∀ from_ dest, s.refChoice = some dest → s.refSel = some from_ → Does (.refSourceSwitch step) s (switched from_ dest s))
      ∧ (∀ dest, s.refChoice = some dest → s.refSel = none → Does (.refSourceSwitch step) s (switched (s.draw.1.toNat % 256) dest s.draw.2)))
    ∧ (s.dpll = 1 → s.ref.fault = false → s.lockWindows ≤ s.ref.lockRun → Does .refLockDeclared s (locking.refShow.logEvent 0x1C sevInfo 0x0008 (evData [(1, locking.fld R.REF_STATE F.REF_STATE_sel_src)])))
    ∧ ((s.dpll ≠ 1 ∨ s.ref.fault = true ∨ s.ref.lockRun < s.lockWindows) → Does .refLockDeclared s s)
    ∧ Does .refHoldoverOos s (if s.dpll = 3 ∧ s.flag R.REF_STATE F.REF_STATE_hold_oos = false ∧ s.ref.fault = false ∧ outside then
        aged.refShow.logEvent 0x1C sevAlarm 0x0006 (evData [(8, (aged.time.devtime - aged.ref.holdAt).toNat)]) else s)
    ∧ Does (.ppsInputEdge i after) s (if s.ppsIn i.val then s.setReg64 (R.REF_PPS_TS_LO i.val) (s.time.devtime + after.zeroExtend 64).toNat else s)
    ∧ (s.alignOk = false → Does .refAlignPulse s s)
    ∧ (s.alignOk = true → s.startedOp 24 0x100 = some x → Does .refAlignPulse s (aligned.complete x 0 (unsigned 64 (-err)) 0))
    ∧ (s.alignOk = true → s.startedOp 24 0x100 = none → Does .refAlignPulse s (if s.fld R.REF_PULSE_CFG F.REF_PULSE_CFG_align_thr ≤ err.natAbs then aligned else s))
    ∧ (quiet → Does (.refPulseOutput k) s s)
    ∧ (¬ quiet → Does (.refPulseOutput k) s (if 2 ≤ k.val ∧ mode = 2 then
        sent.setReg64 (if k.val = 2 then R.REF_SF_MARK_A_LO else R.REF_SF_MARK_B_LO) sent.time.devtime.toNat else sent))
    ∧ (Started 24 0x100 s e u →
      (d.unit ≠ 0xFF → Finishes .rfRealign s u e 0x02 0 0)
      ∧ (d.unit = 0xFF → u.fld R.REF_PULSE_CFG F.REF_PULSE_CFG_align_src = 0 → Finishes .rfRealign s u e 0x06 0 0)
      ∧ (d.unit = 0xFF → u.fld R.REF_PULSE_CFG F.REF_PULSE_CFG_align_src ≠ 0 → GoesOn .rfRealign s u 24))
    ∧ (Started 24 0x101 s e u →
      ((refSource d.unit = false ∨ w = 0 ∨ 1000 < w) → Finishes .rfMeasure s u e 0x02 0 0)
      ∧ (¬ (refSource d.unit = false ∨ w = 0 ∨ 1000 < w) → u.refOn d.unit = false → Finishes .rfMeasure s u e 0x06 0 0)
      ∧ (¬ (refSource d.unit = false ∨ w = 0 ∨ 1000 < w) → u.refOn d.unit = true → GoesOn .rfMeasure s u 24))
    ∧ Does .refLogicFault s ((broken.setFld R.REF_STATE F.REF_STATE_dpll_state 3).refShow.logFault 0x1C 0x000B [])
    ∧ Does .crystalLoss s (if s.time.xtalStopped then s else stopped.refShow.logEvent 0x1C sevFault 0x0002 [])
    ∧ Does .crystalReturn s ((({ s with time := { s.time with xtalStopped := false } }).setFlag R.REF_STATE F.REF_STATE_xtal_ok true).refShow)

/-- Power (R394 to R398, R401 to R403, R406, R407). What of it is the model's choice or reading: notes/assumptions/3, 51, 52, 53, 54, 55, 89 and 107. -/
def Obligations.PowerRows : Prop :=
  ∀ (s u : State) (e x : QEntry) (dom : Fin 7) (recent : Option Byte) (enclave ok level : Bool) (ball : Fin 16) (g : Fin 4) (hk : BitVec 32) (volt : BitVec 10) (curr status : BitVec 16) (b r : Nat) (en : PwrEntry),
    let n := dom.val + 3
    let stays := s.parkMode n = 0 ∨ s.domState n ≠ 0 ∨ (s.domEntry n).isSome = true ∨ s.levelWake n = true
    let parked := (((s.modDom n (fun x => { x with entry := none, lateWake := false, entered := s.time.devtime })).setFld (R.PWR_DOM_STATE n) F.PWR_DOM_STATE_state en.target).setFld
      (R.PWR_DOM_STATE n) F.PWR_DOM_STATE_phase 0).addCnt (if en.target = 1 then R.PWR_MOOR_CNT n else R.PWR_LAYUP_CNT n) 1
    let lost := if en.target = 2 then parked.layLose n else parked
    let late := fun (t : State) =>
      let t := (List.finRange 64).foldl (fun s q => s.settle q) t
      (if (s.dom n).lateWake then t.startWake n else t).releaseWaiters
    let edge := s.pins.gpio.getLsbD ball.val != level
    let bit := BitVec.ofNat 16 (2 ^ ball.val)
    let pin := { s with pins := { s.pins with gpio := if level then s.pins.gpio ||| bit else s.pins.gpio &&& ~~~bit } }
    let m := 6 + g.val
    let d := e.desc.unit
    let dest := e.desc.arg0 % 4
    let woken := u.wakeEvent d true 0x1D 7
    let unparkable := d < 3 ∨ 9 < d ∨ dest = 0 ∨ dest = 3
    let held := u.pwr.fault = true ∨ u.domState d ≠ 0 ∨ (u.domEntry d).isSome = true
    let begun := u.beginEntry d dest (some e.ticket)
    let broken := (({ s with pwr := { s.pwr with fault := true, avsNext := none } }).setFlag R.PWR_STATUS F.PWR_STATUS_engine_fault true).logFault 0x1D 0x0003 []
    (stays → Does (.pwrIdleTimerExpiry dom recent enclave) s s)
    ∧ (¬ stays → s.grantRefusal n recent enclave = some (b, r) → Does (.pwrIdleTimerExpiry dom recent enclave) s (s.noteRefuse n b r))
    ∧ (¬ stays → s.grantRefusal n recent enclave = none → Does (.pwrIdleTimerExpiry dom recent enclave) s (s.beginEntry n (min 2 (s.parkMode n)) none))
    ∧ (s.domEntry n = none → Does (.pwrEntryComplete dom) s s)
    ∧ (s.domEntry n = some en → en.ticket.bind lost.entryOf = none → Does (.pwrEntryComplete dom) s (late lost))
    ∧ (s.domEntry n = some en → en.ticket.bind lost.entryOf = some x → Does (.pwrEntryComplete dom) s (late (lost.complete x 0 0 0)))
    ∧ Does (.pwrWakeEvent (.gpio ball level)) s ([3, 4, 5, 6, 7, 8, 9].foldl (fun s d =>
        let w := R.PWR_DOM_WAKE d
        if s.fld w F.PWR_DOM_WAKE_gpio = ball.val ∧ s.ballAs ball.val 0 = true ∧ s.flag w F.PWR_DOM_WAKE_gpio_pol = level then
          if s.flag w F.PWR_DOM_WAKE_gpio_lvl_en then s.wakeEvent d true 0x1D 7
          else if s.flag w F.PWR_DOM_WAKE_gpio_edge_en = true ∧ edge = true then s.wakeEvent d false 0x1D 7
          else s
        else s) pin)
    ∧ Does (.pwrWakeEvent (.signal g)) s (if s.flag (R.PWR_DOM_WAKE m) F.PWR_DOM_WAKE_sd_en then s.wakeEvent m false (if m = 9 then 0x13 else 0x12) 7 else s)
    ∧ Does (.pwrWakeComplete dom hk) s (if s.domPhase n = 3 then s.domRun n hk.toNat else s)
    ∧ (Started 25 0x100 s e u →
      (u.domState d = 3 → Finishes .pwWake s u e 0x03 0 0)
      ∧ (u.domState d ≠ 3 → (d < 3 ∨ 9 < d) → Finishes .pwWake s u e 0x02 0 0)
      ∧ (u.domState d ≠ 3 → 3 ≤ d → d ≤ 9 → woken.domState d = 0 → (woken.domEntry d).isNone = true → Finishes .pwWake s woken e 0 0 0)
      ∧ (u.domState d ≠ 3 → 3 ≤ d → d ≤ 9 → (woken.domState d ≠ 0 ∨ (woken.domEntry d).isNone = false) →
          GoesOn .pwWake s (woken.modDom d (fun y => { y with wakeTickets := y.wakeTickets ++ [e.ticket] })) 25))
    ∧ (Started 25 0x101 s e u →
      (u.domState d = 3 → Finishes (.pwPark recent enclave) s u e 0x03 0 0)
      ∧ (u.domState d ≠ 3 → unparkable → Finishes (.pwPark recent enclave) s u e 0x02 0 0)
      ∧ (u.domState d ≠ 3 → ¬ unparkable → held → Finishes (.pwPark recent enclave) s u e 0x06 0 0)
      ∧ (u.domState d ≠ 3 → ¬ unparkable → ¬ held → u.grantRefusal d recent enclave = some (b, r) →
          Finishes (.pwPark recent enclave) s (u.noteRefuse d b r) e 0x06 (b + 0x100 * r) 0)
      ∧ (u.domState d ≠ 3 → ¬ unparkable → ¬ held → u.grantRefusal d recent enclave = none →
          GoesOn (.pwPark recent enclave) s (if begun.levelWake d then begun.wakeEvent d true 0x1D 7 else begun) 25))
    ∧ (s.pwr.avsBusy = true → Does (.avsPoll ok volt curr status) s s)
    ∧ (s.pwr.avsBusy = false → Does (.avsPoll ok volt curr status) s (if ok then s.avsRead volt.toNat curr.toNat status.toNat
        else { s with pwr := { s.pwr with avsBusy := true, avsRetry := 0, avsOff := 0 } }))
    ∧ (s.pwr.avsBusy = false → Does (.avsRetry ok volt curr status) s s)
    ∧ (s.pwr.avsBusy = true → Does (.avsRetry true volt curr status) s (s.avsRead volt.toNat curr.toNat status.toNat))
    ∧ (s.pwr.avsBusy = true → s.pwr.avsRetry < 2 → Does (.avsRetry false volt curr status) s { s with pwr := { s.pwr with avsRetry := s.pwr.avsRetry + 1 } })
    ∧ (s.pwr.avsBusy = true → 2 ≤ s.pwr.avsRetry → Does (.avsRetry false volt curr status) s
        (((s.draw.2.setFlag R.PWR_STATUS F.PWR_STATUS_avs_err true).logEvent 0x1D sevAlarm 0x0001 (evData [(1, s.draw.1.toNat), (2, s.draw.2.pwr.avsSent)])).avsIdle))
    ∧ Does .pwrLogicFault s ([3, 4, 5, 6, 7, 8, 9].foldl (fun s d => s.wakeEvent d true 0x1D 7) broken)

/-- The monitor and its timers (R409, R411 to R416, R418 to R420). What of it is the model's choice or reading: notes/assumptions/3, 4, 59, 60 and 107. -/
def Obligations.MonitorRows : Prop :=
  ∀ (s u : State) (e : QEntry) (k : Fin 4) (n : Fin 8) (temps : Vector (BitVec 16) 8) (injected limited inject : Bool) (results : List (BitVec 24)) (j : Nat),
    let x := s.monMod k
    let delay := s.fld (R.MON_TRIG k.val) F.MON_TRIG_delay
    let stopped := s.monStopped k
    let busy := (x.reg.isSome || x.inj.isSome || x.regDelay) = true
    let timed := s.flag (R.MON_TRIG k.val) F.MON_TRIG_inj_tmr_en
    let noInj := stopped = true ∨ s.fld (R.MON_CFG k.val) F.MON_CFG_inj_len = 0
    let m := meanOf results
    let v := if limited then s.setFlag R.MON_STATUS F.MON_STATUS_range true else s
    let ij := 4 * k.val + j
    let put := v.setFld (R.MON_INJ_RES ij) F.MON_INJ_RES_result m.toNat
    let injPub := put.monPublish k (s.fld (R.MON_INJ ij) F.MON_INJ_channel) j true m
    let rj := 32 * k.val + j
    let ch := s.fld (R.MON_SEQ rj) F.MON_SEQ_channel
    let shown := v.setFld (R.MON_ENT_RES rj) F.MON_ENT_RES_result m.toNat
    let pub := if shown.firActs k then results.foldl (State.firStep k ch) shown else shown.monPublish k ch j false m
    let len := pub.fld (R.MON_CFG k.val) F.MON_CFG_reg_len
    let went := pub.setMonMod k { pub.monMod k with reg := if j + 1 < len then some (j + 1) else if pub.monTrig k = 0 then some 0 else none }
    let dec := if len = 1 ∧ went.monTrig k = 0 then went else went.decRestart k
    let d := e.desc
    let nf := d.arg1 % 256
    let lin := d.arg1 / 256 % 2 = 0
    let set := d.arg1 / 4096 % 8
    let coef := u.coefs d.arg0 nf
    let f := Fin.ofNat 4 d.unit
    let badFir := 3 < d.unit ∨ 4 < set ∨ (set = 0 ∧ (nf = 0 ∨ bufferOk d.arg0 (4 * nf) = false ∨ (lin ∧ coef.reverse ≠ coef)))
    let nc := d.arg1 % 8192
    let badCap := 3 < d.unit ∨ nc = 0 ∨ 4096 < nc ∨ bufferOk d.arg0 (4 * nc) = false
    let loaded := fun (l : List (BitVec 24)) (linear : Bool) (t : State) =>
      (t.setMonMod f { t.monMod f with fir := l, firSet := set, linear, hist := [], filled := 0 }).firShow
    let given := u.drawCoefs (suppliedTaps set).1
    let broken := ({ s with mon := { s.mon with fault := true } }).setFlag R.MON_STATUS F.MON_STATUS_engine_fault true
    Does (.monTempReadout temps) s (forN 16 State.tempTrigger
        ((List.finRange 8).foldl (fun s (i : Fin 8) => s.setFld (R.MON_TEMP i.val) F.MON_TEMP_temp temps[i].toNat) s))
    ∧ (((s.monTrig k ≠ 1 ∧ s.monTrig k ≠ 2) ∨ stopped = true) → Does (.monRegularTrigger k) s s)
    ∧ ((s.monTrig k = 1 ∨ s.monTrig k = 2) → stopped = false → busy → Does (.monRegularTrigger k) s (s.monOverrun k 0))
    ∧ ((s.monTrig k = 1 ∨ s.monTrig k = 2) → stopped = false → ¬ busy → Does (.monRegularTrigger k) s (if delay = 0 then s.regStart k else s.setMonMod k { x with regDelay := true }))
    ∧ ((s.monTrig k ≠ 3 ∨ stopped = true) → Does (.swReg k) s s)
    ∧ (s.monTrig k = 3 → stopped = false → Does (.swReg k) s
        (if busy then s.monOverrun k 0 else if delay = 0 then s.regStart k else s.setMonMod k { x with regDelay := true }))
    ∧ Does (.monInjectedTrigger k true) s (if s.urgentDue k then s.monInject k else s)
    ∧ (timed = false → Does (.monInjectedTrigger k false) s s)
    ∧ (noInj → (timed = true → Does (.monInjectedTrigger k false) s s) ∧ Does (.swInj k) s s)
    ∧ (¬ noInj → (x.inj.isSome || x.injDelay) = true → (timed = true → Does (.monInjectedTrigger k false) s (s.monOverrun k 1)) ∧ Does (.swInj k) s (s.monOverrun k 1))
    ∧ (¬ noInj → (x.inj.isSome || x.injDelay) = false →
        (timed = true → Does (.monInjectedTrigger k false) s (if delay = 0 then s.monInject k else s.setMonMod k { x with injDelay := true }))
        ∧ Does (.swInj k) s (if delay = 0 then s.monInject k else s.setMonMod k { x with injDelay := true }))
    ∧ Does (.monTriggerDelayExpiry k true) s (if x.injDelay then (s.setMonMod k { x with injDelay := false }).monInject k else s)
    ∧ Does (.monTriggerDelayExpiry k false) s (if x.regDelay = true ∧ stopped = false then s.regStart k else s)
    ∧ ((stopped = true ∨ results.length ≠ s.entryCount k) → Does (.monEntryEnd k results limited inject) s s)
    ∧ (stopped = false → results.length = s.entryCount k → x.inj = some j → Does (.monEntryEnd k results limited inject) s
        (((injPub.setMonMod k { injPub.monMod k with inj := if j + 1 < injPub.fld (R.MON_CFG k.val) F.MON_CFG_inj_len then some (j + 1) else none }).decRestart k).monBusy k))
    ∧ (stopped = false → results.length = s.entryCount k → x.inj = none → x.reg = some j → Does (.monEntryEnd k results limited inject) s
        ((if inject = true ∧ dec.fld (R.MON_CFG k.val) F.MON_CFG_inj_len ≠ 0 then
            (dec.setMonMod k { dec.monMod k with inj := some 0, injDelay := false }).decRestart k else dec).monBusy k))
    ∧ (x.inj = none → x.reg = none → Does (.monEntryEnd k results limited inject) s s)
    ∧ Does .monSyncEdge s (if s.ballAs 15 3 then s.monSync else s)
    ∧ (Started 26 0x100 s e u → (d.unit ≠ 0xFF → Finishes .mnSync s u e 0x02 0 0) ∧ (d.unit = 0xFF → Finishes .mnSync s u.monSync e 0 0 0))
    ∧ (Started 26 0x101 s e u →
      (badFir → Finishes .mnLoadFir s u e 0x02 0 0)
      ∧ (¬ badFir → (u.monHeld d = false ∨ u.firActs f = true) → Finishes .mnLoadFir s u e 0x06 0 0)
      ∧ (¬ badFir → u.monHeld d = true → u.firActs f = false → set = 0 → Finishes .mnLoadFir s (loaded coef (decide lin) u) e 0 0 0)
      ∧ (¬ badFir → u.monHeld d = true → u.firActs f = false → set ≠ 0 → Finishes .mnLoadFir s (loaded given.1 (suppliedTaps set).2 given.2) e 0 0 0))
    ∧ (Started 26 0x102 s e u →
      (badCap → Finishes .mnCapture s u e 0x02 0 0)
      ∧ (¬ badCap → (u.monHeld d = false ∨ u.monStopped f = true) → Finishes .mnCapture s u e 0x06 0 0)
      ∧ (¬ badCap → u.monHeld d = true → u.monStopped f = false → GoesOn .mnCapture s u 26))
    ∧ Does (.tmrCompare n) s (if s.tmrOn n.val = false ∨ (s.reg (R.TMR_PERIOD n.val)).toNat < (s.reg (R.TMR_CMP n.val)).toNat then s
        else (((s.setReg (R.TMR_COUNT n.val) (s.reg (R.TMR_CMP n.val))).timerEvent n.val).timerWake n.val).tmrTriggers n.val 1)
    ∧ Does (.tmrPeriod n) s (if s.tmrOn n.val = false then s else ((s.setReg (R.TMR_COUNT n.val) 0).tmrApply n.val).tmrTriggers n.val 2)
    ∧ Does .monEngineFault s (broken.monShow.logFault 0x1E 0x0001 [])

/-- The annealer (R422 to R426, R429, R430). What of it is the model's choice or reading: notes/assumptions/3, 4, 61 and 107. -/
def Obligations.AnnealerRows : Prop :=
  ∀ (s u : State) (e : QEntry) (w : Fin 4) (v : Fin 16) (elem : Fin 72) (cause : Byte) (meas : List AnlMeas) (n : Nat) (r : AnlRun),
    let idle := s.anl.fault = true ∨ s.flag R.ANL_STATE F.ANL_STATE_held = true ∨ (s.anl.units[w]).isSome = true ∨ s.convState n = 0
    let run := s.anl.units[w] = some r
    let tx := convTx r.v
    let weak := s.flag (R.RXF_STATE (convCarrier r.v)) F.RXF_STATE_los = true ∨ s.fld (R.RXF_LANE_RMS (convCarrier r.v) (r.v % 4)) F.RXF_LANE_RMS_rms < 4096
    let rec_ := s.anlRec r.v meas
    let used := chooseSet (if tx then 63 else 64) (fun e => (s.anlElem r.v e).inUse) (fun e => (rec_ e).failed) (fun e => (rec_ e).err)
    let recs := (List.range 72).map (fun e => (e, { rec_ e with inUse := used.contains e, phase := phaseIn tx used e }))
    let newly := (List.range 72).filter (fun e => (rec_ e).failed && !(s.anlElem r.v e).failed)
    let marked := newly.foldl (fun s e => s.anlMarkDrawn r.v e) s
    let failed := newly.foldl (fun s e => s.setAnlElem r.v e { s.anlElem r.v e with failed := true }) marked
    let done := { r with phase := 2, recs }
    let chosen := ((if newly.isEmpty then failed else failed.anlShort r.v).anlShow r.v).setAnlUnit w done
    let x := s.anlElem v.val elem.val
    let sound := s.convPresent v.val = false ∨ s.anl.fault = true ∨ x.inUse = false ∨ x.failed = true
    let lost := (s.setAnlElem v.val elem.val { x with failed := true }).anlMark v.val elem.val cause.toNat
    let noted := (lost.anlBest v.val).elim lost (fun best => { lost with anl := { lost.anl with subs := lost.anl.subs ++ [(v.val, elem.val, best)] } })
    let told := (noted.anlShort v.val).anlShow v.val
    let d := e.desc
    let l := if d.unit = 0xFF then (List.range 16).filter u.convPresent else [d.unit]
    let asked := l.foldl (fun s v => s.anlPend v) u
    let on := d.arg0 % 2 == 1
    let held := u.setFlag R.ANL_STATE F.ANL_STATE_held on
    let el := d.arg0 % 128
    let z := u.anlElem d.unit el
    let broken := (({ s with anl := { s.anl with fault := true } }).setFlag R.ANL_STATUS F.ANL_STATUS_engine_fault true).logFault 0x1F 0x0005 []
    (s.anlNext w = none → Does (.anlRunStart w) s s)
    ∧ (s.anlNext w = some n → idle → Does (.anlRunStart w) s s)
    ∧ (s.anlNext w = some n → ¬ idle → Does (.anlRunStart w) s ((s.setAnlUnit w { v := n, phase := 0, temp := 0, time := 0, idle := s.convIdle n, recs := [] }).setReg R.ANL_STATE
        (s.reg R.ANL_STATE ||| BitVec.ofNat 32 (2 ^ w.val))))
    ∧ (s.anl.units[w] = none → Does (.anlWindowEnd w) s s ∧ Does (.anlRunEnd w meas) s s ∧ Does (.anlPauseTimeout w) s s)
    ∧ (run → r.phase ≠ 0 → Does (.anlWindowEnd w) s s)
    ∧ (run → r.phase = 0 → r.idle ≠ s.convIdle r.v → Does (.anlWindowEnd w) s (s.setAnlUnit w { r with idle := s.convIdle r.v }))
    ∧ (run → r.phase = 0 → r.idle = s.convIdle r.v → tx = false → r.idle = false → weak →
        Does (.anlWindowEnd w) s s)
    ∧ (run → r.phase = 0 → r.idle = s.convIdle r.v → (tx = true ∨ r.idle = true ∨ ¬ weak) →
        Does (.anlWindowEnd w) s (s.setAnlUnit w { r with phase := 1, temp := s.fld (R.MON_TEMP (convCarrier r.v).code) F.MON_TEMP_temp, time := s.time.devtime }))
    ∧ (run → (r.phase ≠ 1 ∨ s.anl.fault = true) → Does (.anlRunEnd w meas) s s)
    ∧ (run → r.phase = 1 → s.anl.fault = false → Does (.anlRunEnd w meas) s
        (if s.convState r.v = 0 then chosen.anlFinish w done 2 else if s.convWaits r.v then chosen else chosen.anlFinish w done 1))
    ∧ (run → Does (.anlPauseTimeout w) s (if r.phase = 0 ∧ tx = false ∧ r.idle = false then s.anlAbandon w else s))
    ∧ (sound → Does (.anlElementFailed v elem cause) s s)
    ∧ (¬ sound → Does (.anlElementFailed v elem cause) s (if told.convWaits v.val then told else told.anlSubsNow (convTx v.val) (convCarrier v.val)))
    ∧ (Started 27 0x100 s e u →
      (16 ≤ d.unit → d.unit ≠ 0xFF → Finishes .anRun s u e 0x02 0 0)
      ∧ (d.unit < 16 → u.convPresent d.unit = false → Finishes .anRun s u e 0x03 0 0)
      ∧ ((d.unit = 0xFF ∨ (d.unit < 16 ∧ u.convPresent d.unit = true)) → u.flag R.ANL_STATE F.ANL_STATE_held = true → Finishes .anRun s u e 0x06 0 0)
      ∧ ((d.unit = 0xFF ∨ (d.unit < 16 ∧ u.convPresent d.unit = true)) → u.flag R.ANL_STATE F.ANL_STATE_held = false →
          GoesOn .anRun s { asked with anl := { asked.anl with waits := asked.anl.waits ++ [(e.ticket, l)] } } 27))
    ∧ (Started 27 0x101 s e u →
      (d.unit ≠ 0xFF → Finishes .anHold s u e 0x02 0 0)
      ∧ (d.unit = 0xFF → Finishes .anHold s (if on then (List.finRange 4).foldl (fun s u => s.anlAbandon u) held else held) e 0 0 0))
    ∧ (Started 27 0x102 s e u →
      ((71 < el ∨ 15 < d.unit) → Finishes .anClearFail s u e 0x02 0 0)
      ∧ (el ≤ 71 → d.unit ≤ 15 → (u.anl.units[convUnit d.unit]).map (·.v) = some d.unit → Finishes .anClearFail s u e 0x06 0 0)
      ∧ (el ≤ 71 → d.unit ≤ 15 → (u.anl.units[convUnit d.unit]).map (·.v) ≠ some d.unit → Finishes .anClearFail s
          (if u.convPresent d.unit then (u.setAnlElem d.unit el { z with failed := false, comp0Fail := false, comp1Fail := false }).anlShow d.unit else u) e 0 0 0))
    ∧ (Started 27 0x103 s e u →
      (d.unit < 16 → u.convPresent d.unit = false → Finishes .anReadTable s u e 0x03 0 0)
      ∧ ((d.unit < 16 → u.convPresent d.unit = true) → (15 < d.unit ∨ bufferOk d.arg0 576 = false) → Finishes .anReadTable s u e 0x02 0 0)
      ∧ (d.unit < 16 → u.convPresent d.unit = true → bufferOk d.arg0 576 = true →
          Finishes .anReadTable s (u.setBytes d.arg0 ((List.range 72).flatMap (fun e => elemBytes (convTx d.unit) (u.anlElem d.unit e)))) e 0 0 0))
    ∧ Does .anlEngineFault s ((List.finRange 4).foldl (fun s w => s.anlDrop w) broken)

/-- Memory integrity and check values (R435, R441, R442, R444, Table MEM-4). What of it is the model's choice or reading: notes/assumptions/79. -/
def Obligations.IntegrityRows : Prop :=
  ∀ (s u : State) (e : QEntry),
    let d := e.desc
    let len := d.arg1 % 2 ^ 25
    let span := d.arg0 % 8 ≠ 0 ∨ len % 8 ≠ 0 ∨ len < 8 ∨ 2 ^ 24 < len
    let badScrub := 9 ≤ d.unit ∨ span ∨ scrubSize d.unit < d.arg0 + len ∨ bufferOk d.arg2 32 = false
    let badScan := d.unit ≠ 0xFF ∨ span ∨ scanSpan d.arg0 len = false
    let n := d.arg1 % 1024
    let badRead := d.unit ≠ 0xFF ∨ n = 0 ∨ bufferOk d.arg0 (16 * n) = false
    let drawn := u.drawBytes (16 * min n u.ecc.repairs.length)
    ((s.startedOp 28 0x100).isSome = true → Does .mmScrub s s)
    ∧ ((s.startedOp 28 0x100).isSome = false → Started 28 0x100 s e u →
      (badScrub → Finishes .mmScrub s u e 0x02 0 0)
      ∧ (¬ badScrub → u.ecc.fault = true → Finishes .mmScrub s u e 0x05 0 0)
      ∧ (¬ badScrub → u.ecc.fault = false → GoesOn .mmScrub s (u.setFlag R.MEM_STATUS F.MEM_STATUS_scrub_busy true) 28))
    ∧ (Started 28 0x101 s e u →
      (badRead → Finishes .mmReadRepair s u e 0x02 0 0)
      ∧ (¬ badRead → Finishes .mmReadRepair s (drawn.2.setBytes d.arg0 drawn.1) e 0 drawn.2.ecc.repairs.length 0))
    ∧ ((s.startedOp 29 0x100).isSome = true → Does .scScan s s)
    ∧ ((s.startedOp 29 0x100).isSome = false → Started 29 0x100 s e u →
      (badScan → Finishes .scScan s u e 0x02 0 0)
      ∧ (¬ badScan → u.ecc.scuFault = true → Finishes .scScan s u e 0x05 0 0)
      ∧ (¬ badScan → u.ecc.scuFault = false → GoesOn .scScan s
          (({ u with ecc := { u.ecc with expect := u.reg R.SCU_EXPECT } }).setFlag R.SCU_STATUS F.SCU_STATUS_busy true) 29))
    ∧ Does (.memScuEngineFault true) s ((({ s with ecc := { s.ecc with scuFault := true } }).setFlag R.SCU_STATUS F.SCU_STATUS_engine_fault true).logFault 0x21 0x0005 [])
    ∧ Does (.memScuEngineFault false) s ((({ s with ecc := { s.ecc with fault := true } }).setFlag R.MEM_STATUS F.MEM_STATUS_engine_fault true).logFault 0x20 0x0005 [])

/-- Observation (R446 to R449, R453, R467, Table OBS-1, Table OBS-4, Table OBS-5). What of it is the model's choice or reading: notes/assumptions/3, 62 and 107. -/
def Obligations.ObservationRows : Prop :=
  ∀ (s u : State) (e : QEntry) (k : CoreId) (c : ObsCapture) (addr tick : W64) (encoding : W32) (ticks : BitVec 16) (slot : Bool),
    let b := snapBase c.buf
    let st := R.OBS_SNAP_STATUS
    let cleared := (({ s with obs := { s.obs with capture := none } }).zeroMem b (b + 0x10000)).eccTouch b 0x10000
    let headed := cleared.setBytes b (leBytes 8 c.seq ++ leBytes 8 c.tide.toNat ++ leBytes 8 c.devtime.toNat ++ leBytes 8 c.flags)
    let written := ((listedCounters c.regs).foldl (fun s a => s.setBytes (b + 8 * cntSlot a) (leBytes 8 (cntIn c.regs a))) headed).setBytes (b + 8 * 8191) (leBytes 8 c.seq)
    let every := 2 ^ s.fld R.OBS_SMP_CFG F.OBS_SMP_CFG_smp_log
    let on := s.flag R.OBS_SMP_CFG F.OBS_SMP_CFG_enable = true
    let shortest := if s.flag R.OBS_SMP_CFG F.OBS_SMP_CFG_jitter then every - (every / 8 - 1) else every
    let due := on ∧ s.tagDue = true
    let tagged : State := { s with obs := { s.obs with tagAt := s.retiredAll } }
    let lost := 4096 ≤ s.obs.samples.length ∧ tagged.flag R.OBS_SMP_CFG F.OBS_SMP_CFG_wrap = false
    let rec_ := leBytes 8 addr.toNat ++ leBytes 4 encoding.toNat ++ leBytes 2 ticks.toNat ++ [BitVec.ofNat 8 (k.code + 2 * b2n (tagged.core k).harbour + 4 * b2n slot), 0] ++ leBytes 8 tick.toNat ++ leBytes 2 (tagged.core k).epoch.toNat ++ [0, 0, 0, 0, 0, 0]
    let kept := s.obs.samples.drop (s.obs.samples.length + 1 - 4096) ++ [rec_]
    let sampled := ({ tagged with obs := { tagged.obs with samples := kept } }).smpShow
    let fill := sampled.fld R.OBS_SMP_CFG F.OBS_SMP_CFG_irq_fill
    let d := e.desc
    let first := d.arg1 % 8192
    let n := d.arg1 / 65536 % 16384
    let badCat := d.unit ≠ 0xFF ∨ first < 4 ∨ n = 0 ∨ 4096 < n ∨ 8190 < first + n - 1 ∨ bufferOk d.arg0 (4 * n) = false
    let badSmp := d.unit ≠ 0xFF ∨ first = 0 ∨ 4096 < first ∨ bufferOk d.arg0 (32 * first) = false
    let taken := u.obs.samples.take first
    (s.obs.capture = none → Does .snapshotWriteComplete s s)
    ∧ (s.obs.capture = some c → Does .snapshotWriteComplete s (((written.setFlag st F.OBS_SNAP_STATUS_writing false).setFld st F.OBS_SNAP_STATUS_latest c.buf).setFld st F.OBS_SNAP_STATUS_seq c.seq))
    ∧ Does .obsSnapHold s (if s.flag st F.OBS_SNAP_STATUS_held then s
        else (s.setFlag st F.OBS_SNAP_STATUS_held true).setFld st F.OBS_SNAP_STATUS_held_buf (s.fld st F.OBS_SNAP_STATUS_latest))
    ∧ Does .obsSnapRelease s (s.setFlag st F.OBS_SNAP_STATUS_held false)
    ∧ (s.tagDue = true ↔ shortest ≤ s.retiredAll - s.obs.tagAt)
    ∧ (s.active = none → Does (.samplerTag addr tick encoding ticks slot) s s)
    ∧ (s.active = some k → ¬ due → Does (.samplerTag addr tick encoding ticks slot) s s)
    ∧ (s.active = some k → due → lost → Does (.samplerTag addr tick encoding ticks slot) s ((tagged.setFlag R.OBS_STATUS F.OBS_STATUS_smp_full true).addCnt R.OBS_SMP_LOST_CNT 1))
    ∧ (s.active = some k → due → ¬ lost → Does (.samplerTag addr tick encoding ticks slot) s
        (if fill ≠ 0 ∧ s.obs.samples.length < fill ∧ fill ≤ kept.length then sampled.raiseObs else sampled))
    ∧ (Started 30 0x100 s e u →
      (badCat → Finishes .obReadCat s u e 0x02 0 0)
      ∧ (¬ badCat → Finishes .obReadCat s (u.setBytes d.arg0 ((List.range n).flatMap (fun i => leBytes 4 ((catAddr (first + i)).getD 0)))) e 0 0 0))
    ∧ (Started 30 0x101 s e u →
      (badSmp → Finishes .obReadSamples s u e 0x02 0 0)
      ∧ (¬ badSmp → Finishes .obReadSamples s ((({ u with obs := { u.obs with samples := u.obs.samples.drop first } }).setBytes d.arg0 taken.flatten).smpShow) e 0 taken.length 0))

/-- The logbook (R455 to R466, Table LOG-2, Table LOG-3). What of it is the model's choice or reading: notes/assumptions/3, 63, 64 and 65. -/
def Obligations.LogbookRows : Prop :=
  ∀ (s u : State) (e : QEntry) (x : LogEntry) (rest : List LogEntry),
    let w := s.draw.1
    let p := leBytes 4 s.draw.2.log.hour ++ s.draw.2.statBytes 0 32768 w ++ s.draw.2.statBytes 4 0 (w >>> 8) ++ s.draw.2.carSummary .A (w >>> 16)
      ++ s.draw.2.carSummary .B (w >>> 24) ++ s.draw.2.devSummary ++ [BitVec.ofNat 8 (b2n s.draw.2.obs.fault)]
    let staged := s.draw.2.logStage 1 p
    let hour := (if staged.obs.fault then staged else (staged.iterTotals .A).iterTotals .B).noteTotal 0 1
    let seq := (s.reg R.LOG_NEXT_SEQ_LO).toNat + 2 ^ 32 * (s.reg R.LOG_NEXT_SEQ_HI).toNat
    let off := (s.logPlace x).1
    let page := entryBody x seq ++ entryTag (entryBody x seq)
    let next := (s.logPlace x).2.setReg64 R.LOG_NEXT_SEQ_LO (seq + 1)
    let put := (next.flashProgram (off + 1) page).flashProgram off [0x3F]
    let good := ((({ put with log := { put.log with staged := rest, fails := 0 } }).logShow).addCnt R.LOG_ENTRY_CNT 1).logAdvance (kindArea x.kind)
    let drawn := next.drawBytes 255
    let spoilt := drawn.2.flashProgram (off + 1) ((page.zip drawn.1).map (fun p => p.1 ||| p.2))
    let bad := ((spoilt.addCnt R.LOG_WRITE_ERR_CNT 1).setFlag R.LOG_STATUS F.LOG_STATUS_write_err true).logAdvance (kindArea x.kind)
    let fails := bad.log.fails + 1
    let failed : State := { bad with log := { bad.log with fails := fails } }
    let recovering := s.fld R.LOG_STATE F.LOG_STATE_state = 1 ∧ s.log.fault = false
    let seqs := ([0, 1, 2, 3].flatMap (fun a => s.areaEntries a [0x3F, 0x7F])).map (·.2)
    let heads : State := { s with log := { s.log with sumPage := s.ringHead 2, evPage := s.ringHead 3, repPage := s.ringHead 1, fails := 0 } }
    let ready := (heads.setReg64 R.LOG_NEXT_SEQ_LO (if seqs.isEmpty then 0 else seqs.foldl max 0 + 1)).setFld R.LOG_STATE F.LOG_STATE_state 2
    let resumed := ready.resumeTotals s.bestTotals
    let d := e.desc
    let read := u.lgRead d.unit d.arg0 d.arg1 d.arg2
    (s.log.fault = true → Does .logHourlySummary s s ∧ Does .logEventEntryTimer s s)
    ∧ (s.log.fault = false → Does .logHourlySummary s
        ({ hour with log := { hour.log with hour := hour.log.hour + 1, acc := [], base := hour.log.last, totBase := hour.log.tot } }).formTotals)
    ∧ (s.log.fault = false → Does .logEventEntryTimer s s.formEvents)
    ∧ (nextStaged s.log.staged = none → ∀ ok, Does (.logEntryWrite ok) s s)
    ∧ (nextStaged s.log.staged = some (x, rest) → s.logRuns = false → ∀ ok, Does (.logEntryWrite ok) s s)
    ∧ (nextStaged s.log.staged = some (x, rest) → s.logRuns = true → Does (.logEntryWrite true) s
        (good.logSlot x).flushDone)
    ∧ (nextStaged s.log.staged = some (x, rest) → s.logRuns = true → Does (.logEntryWrite false) s
        (if fails < 8 then failed else (failed.setFld R.LOG_STATE F.LOG_STATE_state 3).logEvent 0x23 sevAlarm 0x0002 (evData [(4, off)])))
    ∧ (¬ recovering → Does .logRecovery s s)
    ∧ (recovering → Does .logRecovery s ({ resumed with log := { resumed.log with totBase := resumed.log.tot } }).bootEntry)
    ∧ (Started 31 0x100 s e u →
      (d.unit ≠ 0xFF → Finishes .lgFlush s u e 0x02 0 0)
      ∧ (d.unit = 0xFF → u.fld R.LOG_STATE F.LOG_STATE_state ≠ 2 → Finishes .lgFlush s u e 0x06 0 0)
      ∧ (d.unit = 0xFF → u.fld R.LOG_STATE F.LOG_STATE_state = 2 → GoesOn .lgFlush s u.formEvents.formTotals 31))
    ∧ (Started 31 0x101 s e u → Finishes .lgRead s read.2 e read.1.1 read.1.2.1 read.1.2.2)
    ∧ (Started 31 0x102 s e u →
      ((d.unit ≠ 0xFF ∨ bufferOk d.arg0 216 = false) → Finishes .lgNote s u e 0x02 0 0)
      ∧ (d.unit = 0xFF → bufferOk d.arg0 216 = true → u.flag R.LOG_CFG F.LOG_CFG_enable = false → Finishes .lgNote s u e 0x06 0 0)
      ∧ (d.unit = 0xFF → bufferOk d.arg0 216 = true → u.flag R.LOG_CFG F.LOG_CFG_enable = true →
          Finishes .lgNote s (u.logStage 6 (u.bytes d.arg0 216)) e 0 0 0))
    ∧ Does (.obsLogEngineFault true) s ((({ s with log := { s.log with fault := true } }).setFlag R.LOG_STATUS F.LOG_STATUS_engine_fault true).logFault 0x23 0x0004 [])
    ∧ Does (.obsLogEngineFault false) s ((({ s with obs := { s.obs with fault := true } }).setFlag R.OBS_STATUS F.OBS_STATUS_engine_fault true).logFault 0x22 0x0001 [])

/-- The harbour firmware (R474, R476, R478, R479, Table HIF-3). What of it is the model's choice or reading: notes/assumptions/62, 66, 67 and 68. -/
def Obligations.HarbourFirmwareRows : Prop :=
  ∀ (s u : State) (slot : Fin 64) (k : CoreId) (l : List Byte) (buffer : W32) (ok : Bool),
    let table : List (Instr × Nat) := [(.ping slot, 0x01), (.cfgWrite slot ok, 0x10), (.engineCmd slot, 0x11), (.cmdStatus slot, 0x12), (.loadBerth slot, 0x20),
      (.flashWrite slot, 0x21), (.flashErase slot, 0x22), (.setBootSlot slot, 0x23), (.snapHold slot, 0x30), (.snapRelease slot, 0x31), (.logFlush slot, 0x32),
      (.logRead slot buffer, 0x33), (.resetDevice slot, 0x40)]
    let a := argNat l 0 4
    let q := argNat l 0 1
    let z := u.queue (Fin.ofNat 64 q)
    let post := u.accept k (Fin.ofNat 64 q) (descOf ((l.drop 4).take 32))
    let t := BitVec.ofNat 32 a
    let swap := argNat l 4 1
    let loaded := u.loadBerth a
    let n := argNat l 4 1
    let badWrite := n = 0 ∨ 48 < n ∨ argNat l 5 3 ≠ 0 ∨ flashSize < a + n
    let badErase := a % 4096 ≠ 0 ∨ flashSize < a + 4096
    let mask := BitVec.ofNat 32 (argNat l 8 4)
    let value := (u.view a &&& ~~~mask &&& ~~~(w1cMask (fieldsAt a))) ||| (BitVec.ofNat 32 (argNat l 4 4) &&& mask)
    let fault := (u.writeFault true (BitVec.ofNat 64 a)).isSome
    let held := u.snapHold.drawBytes 56
    let read := u.lgRead 0xFF buffer.toNat (argNat l 0 8) (argNat l 8 4)
    let flush : Desc := { opcode := 0x100, flags := 0, unit := 0xFF, epoch := 0, level := 0, rsvd := 0, arg0 := 0, arg1 := 0, resultAddr := 0, arg2 := 0 }
    let version := (u.draw.2.boot.harbour.map (fun o => u.draw.2.mf o 0x0C 4)).getD 0
    (∀ x ∈ table, s.servable slot.val x.2 = false → Does x.1 s s)
    ∧ (Served s slot 0x01 k l u → Replies (.ping slot) s u.draw.2 slot 0x01 0 (leBytes 4 version ++ leBytes 4 u.draw.1.toNat))
    ∧ (Served s slot 0x10 k l u →
      (ok = false → Replies (.cfgWrite slot ok) s u slot 0x10 0x04 [])
      ∧ (ok = true → u.absentAt a = true → Replies (.cfgWrite slot ok) s u slot 0x10 0x03 [])
      ∧ (ok = true → u.absentAt a = false → fault = true → Replies (.cfgWrite slot ok) s u slot 0x10 0x02 [])
      ∧ (ok = true → u.absentAt a = false → fault = false → u.laidUp (domainOfAddr a) = true → Replies (.cfgWrite slot ok) s u slot 0x10 0x06 [0x05])
      ∧ (ok = true → u.absentAt a = false → fault = false → u.laidUp (domainOfAddr a) = false →
          ∀ v, u.programWrite k (BitVec.ofNat 64 a) value = .next v → Replies (.cfgWrite slot ok) s v slot 0x10 0 []))
    ∧ (Served s slot 0x11 k l u →
      ((64 ≤ q ∨ argNat l 1 3 ≠ 0 ∨ z.depth = 0) → Replies (.engineCmd slot) s u slot 0x11 0x02 [])
      ∧ (q < 64 → argNat l 1 3 = 0 → z.depth ≠ 0 → z.depth ≤ z.entries.length → Replies (.engineCmd slot) s u slot 0x11 0x05 [])
      ∧ (q < 64 → argNat l 1 3 = 0 → z.depth ≠ 0 → z.entries.length < z.depth → Replies (.engineCmd slot) s post.2 slot 0x11 0 (leBytes 4 post.1.toNat)))
    ∧ (Served s slot 0x12 k l u → Replies (.cmdStatus slot) s u slot 0x12 0
        (leBytes 4 (u.polltWord t) ++ (if (u.ticketState t).1 = 3 then leBytes 8 (u.ticketResult t) else [])))
    ∧ (Served s slot 0x20 k l u →
      (1 < swap → Replies (.loadBerth slot) s u slot 0x20 0x02 [])
      ∧ (swap ≤ 1 → u.secStateCode ≠ 1 → Replies (.loadBerth slot) s u slot 0x20 0x06 [0x02])
      ∧ (swap ≤ 1 → u.secStateCode = 1 → loaded.1 ≠ 0 → Replies (.loadBerth slot) s loaded.2 slot 0x20 0x06 [BitVec.ofNat 8 loaded.1])
      ∧ (swap ≤ 1 → u.secStateCode = 1 → loaded.1 = 0 → Replies (.loadBerth slot) s
          (if swap = 1 then { loaded.2 with berth := { loaded.2.berth with swapReq := true } } else loaded.2) slot 0x20 0 [0]))
    ∧ (Served s slot 0x21 k l u →
      (badWrite → Replies (.flashWrite slot) s u slot 0x21 0x02 [])
      ∧ (¬ badWrite → u.flashProtected a n = true → Replies (.flashWrite slot) s u slot 0x21 0x04 [])
      ∧ (¬ badWrite → u.flashProtected a n = false → Replies (.flashWrite slot) s (u.flashProgram a ((l.drop 8).take n)) slot 0x21 0 []))
    ∧ (Served s slot 0x22 k l u →
      (badErase → Replies (.flashErase slot) s u slot 0x22 0x02 [])
      ∧ (¬ badErase → u.flashProtected a 4096 = true → Replies (.flashErase slot) s u slot 0x22 0x04 [])
      ∧ (¬ badErase → u.flashProtected a 4096 = false → Replies (.flashErase slot) s (u.flashErase a (a + 4096)) slot 0x22 0 []))
    ∧ (Served s slot 0x23 k l u →
      (1 < q → Replies (.setBootSlot slot) s u slot 0x23 0x02 [])
      ∧ (q ≤ 1 → u.setBootSlot q = none → Replies (.setBootSlot slot) s u slot 0x23 0x06 [0x41])
      ∧ (q ≤ 1 → ∀ g v, u.setBootSlot q = some (g, v) → Replies (.setBootSlot slot) s v slot 0x23 0 (leBytes 4 g)))
    ∧ (Served s slot 0x30 k l u → Replies (.snapHold slot) s held.2 slot 0x30 0 held.1)
    ∧ (Served s slot 0x31 k l u → Replies (.snapRelease slot) s u.snapRelease slot 0x31 0 [])
    ∧ (Served s slot 0x32 k l u → Does (.logFlush slot) s
        (if (u.queue 31).depth ≤ (u.queue 31).entries.length then u.mbxDone slot.val 0x05 else (u.accept k 31 flush).2))
    ∧ (Served s slot 0x33 k l u → bufferOk buffer.toNat 16384 = true →
      (read.1.1 = 0x06 → Replies (.logRead slot buffer) s read.2 slot 0x33 0x06 [0x06])
      ∧ (read.1.1 ≠ 0x06 → read.1.1 ≠ 0 → Replies (.logRead slot buffer) s read.2 slot 0x33 read.1.1 [])
      ∧ (read.1.1 = 0 → Replies (.logRead slot buffer) s read.2 slot 0x33 0 (leBytes 4 buffer.toNat ++ leBytes 8 read.1.2.2)))
    ∧ (bufferOk buffer.toNat 16384 = false → Does (.logRead slot buffer) s s)
    ∧ (Served s slot 0x40 k l u → Replies (.resetDevice slot) s u slot 0x40 0 [])

/-- LDX and STX (R4, R5, R48, R49, R400) and REGISTER_WRITE by a core, which takes STX's faults (log entries below). What of it is the model's choice or reading: notes/assumptions/15, 78 and 83. -/
def Obligations.RegisterAccessByPrograms : Prop :=
  ∀ (k : CoreId) (s t : State) (rd rs ra : BitVec 5) (imm : BitVec 16) (cause block detail : Nat) (at_ : W64) (addr : BitVec 29) (value : W32) (whole : Bool),
    let c := s.core k
    let a := c.gpr ra + imm.signExtend 64
    let w : W64 := addr.zeroExtend 64
    let r := s.readWord (.core k) a.toNat
    let v : W32 := (c.gpr rs).truncate 32
    let busy := c.run ≠ .running ∨ c.wait ≠ .none
    (Fetches s k →
      (a.toNat % 4 ≠ 0 → Leaves (.stx k rs ra imm) s k (faulted c 0x03 0 0 a) ∧ Leaves (.ldx k rd ra imm) s k (faulted c 0x03 0 0 a))
      ∧ (s.writeFault c.harbour a = some (.fault cause block detail at_) → Leaves (.stx k rs ra imm) s k (faulted c cause block detail at_))
      ∧ (s.writeFault c.harbour a = none → s.programWrite k a v = .next t → Does (.stx k rs ra imm) s ((t.pmcCount k 4 1).retire k))
      ∧ (s.writeFault c.harbour a = none → s.programWrite k a v = .parked block a t → Does (.stx k rs ra imm) s (t.coreFault k 0x05 block 0 a))
      ∧ (s.readFault a = some (.fault cause block detail at_) → Leaves (.ldx k rd ra imm) s k (faulted c cause block detail at_))
      ∧ (s.readFault a = none → (r.2.1 = false ∨ c.pae = false) → Does (.ldx k rd ra imm) s
          (((r.2.2.modCore k (fun c => c.setGpr rd (r.1.zeroExtend 64))).pmcCount k 4 1).retire k))
      ∧ (s.readFault a = none → r.2.1 = true → c.pae = true → Does (.ldx k rd ra imm) s (r.2.2.coreFault k 0x05 ((blockOfAddr a.toNat).getD 0) 0 a)))
    ∧ (busy → Does (.registerWrite (.core k) addr value whole) s s)
    ∧ (¬ busy →
      (s.writeFault c.harbour w = some (.fault cause block detail at_) → Does (.registerWrite (.core k) addr value whole) s (s.coreFault k cause block detail at_))
      ∧ (s.writeFault c.harbour w = none → s.programWrite k w value = .next t → Does (.registerWrite (.core k) addr value whole) s t)
      ∧ (s.writeFault c.harbour w = none → s.programWrite k w value = .parked block at_ t →
          Does (.registerWrite (.core k) addr value whole) s (t.coreFault k 0x05 block 0 at_)))

/-- Host accesses (R5, R30, R31, R400, R469 to R472). What of it is the model's choice or reading: notes/assumptions/5, 74 and 83. -/
def Obligations.HostAccessRows : Prop :=
  ∀ (s : State) (addr : BitVec 29) (value waddr : W32) (target : BitVec 7) (bytes : List Byte) (words : Nat),
    let a := addr.toNat
    let served := s.hifServes = true
    let aligned := a % 4 = 0
    let put := fun (whole : Bool) => Instr.registerWrite .host addr value whole
    let said := fun (t : State) (l : List W32) => { t with hif := { t.hif with reply := l } }
    let bad := s.hifErr errWidth a false
    let blk := blockOfAddr a
    let dom := domainOfAddr a
    let mailbox := 0x01030000 ≤ a ∧ a < 0x01031000
    let memory := a < 0x800000 ∨ (0x01000000 ≤ a ∧ a < 0x01C00000) ∨ (0x02000000 ≤ a ∧ a < 0x02200000)
    let plain := s.absentAt a = false ∧ ¬ mailbox ∧ ¬ memory
    let flash := R.HIF_FLASH_CMD ≤ a ∧ a < R.HIF_FLASH_DATA 64 ∧ s.recoveryOpen = false ∧ a ≠ R.HIF_FLASH_STATUS
    let touched := s.accessTouch dom (blk.getD 0)
    let cleared := touched.writeW1c a value
    let engine := plain ∧ blk ≠ none ∧ blk ≠ some 0x15 ∧ isReg a = true ∧ s.laidUp dom = false ∧ ¬ flash
    (¬ served → (∀ whole, Does (put whole) s s) ∧ (∀ whole, Does (.hostRegisterRead addr whole) s (said s [])))
    ∧ (served → Does (put false) s bad ∧ Does (.hostRegisterRead addr false) s (said bad [0xFFFFFFFF]))
    ∧ (served → ¬ aligned → ∀ whole, Does (put whole) s bad ∧ Does (.hostRegisterRead addr whole) s (said bad [0xFFFFFFFF]))
    ∧ (served → aligned →
      Does (.hostRegisterRead addr true) s (said (s.hostRead false a).2 [(s.hostRead false a).1])
      ∧ (s.absentAt a = true → Does (put true) s s)
      ∧ (s.absentAt a = false → mailbox → Does (put true) s (s.mbxWrite false a value))
      ∧ (s.absentAt a = false → ¬ mailbox → memory → Does (put true) s (s.hifErr errRegion a false))
      ∧ (plain → blk = none → Does (put true) s (s.hifErr errUnmapped a false))
      ∧ (plain → blk = some 0x15 → Does (put true) s (if secWritable 0 a then s.writeReg a value else s.hifErr errRegion a false))
      ∧ (plain → blk ≠ none → blk ≠ some 0x15 → isReg a = false → Does (put true) s (s.hifErr errUnmapped a false))
      ∧ (plain → blk ≠ none → blk ≠ some 0x15 → isReg a = true → s.laidUp dom = true → Does (put true) s (s.parkedAccess dom (blk.getD 0) none true))
      ∧ (plain → blk ≠ none → blk ≠ some 0x15 → isReg a = true → s.laidUp dom = false → flash → Does (put true) s (s.hifErr errRegion a false))
      ∧ (engine → (fieldsAt a).any (·.hx) = true → Does (put true) s
          (if value ≠ 0 ∧ value &&& ~~~w1cMask (fieldsAt a) = 0 then cleared else cleared.hifErr errHx a false))
      ∧ (engine → (fieldsAt a).any (·.hx) = false → Does (put true) s (touched.writeReg a value)))
    ∧ ((s.i2cAcks target = false ∨ bytes.length < 4) → Does (.i2cWriteTransaction target bytes) s s)
    ∧ (s.i2cAcks target = true → 4 ≤ bytes.length → Does (.i2cWriteTransaction target bytes) s (s.i2cWords (beNat (bytes.take 4)) (bytes.drop 4)))
    ∧ (s.i2cAcks target = false → Does (.i2cReadTransaction target waddr words) s (said s []))
    ∧ (s.i2cAcks target = true → Does (.i2cReadTransaction target waddr words) s (said (s.i2cReadWords words waddr.toNat).2 (s.i2cReadWords words waddr.toNat).1))

/-- The mailbox and the ledger (R473 to R475, R481, R482, R486, Table HIF-2). What of it is the model's choice or reading: notes/assumptions/73, 75 and 76. -/
def Obligations.MailboxRows : Prop :=
  ∀ (s t : State) (i2c : Bool) (slot : Fin 64) (word bits : W32) (result : Byte) (en : LedgerEvent),
    let n := slot.val
    let a := mbxReq n + 0x3C
    let post := Instr.mbxPost i2c slot word
    let foreign := decide (56 ≤ n) ≠ i2c
    let stored := s.store a 4 word.toNat
    let freed := fun (v : State) => (({ v with hif := { v.hif with expired := v.hif.expired.filter (· != n) } }).setMbxBit R.HIF_MBX_BUSY n false).setMbxBit R.HIF_MBX_PEND n false
    let worded := (s.store (mbxResp n + 0x3C) 4 (s.load (mbxReq n + 0x3C) 2 + result.toNat % 256 * 65536 + 2 ^ 31)).raiseIrq 0
    let late := (s.mbxDoneWord n 0xFE).drawBytes 56
    let put := late.2.setBytes (mbxResp n + 4) late.1
    let marked := (({ put with hif := { put.hif with expired := n :: put.hif.expired } }).addCnt R.HIF_MBX_TIMEOUT_CNT 1).setFlag R.HIF_STATUS F.HIF_STATUS_mbx_timeout true
    let lostRoot := s.setFlag R.HIF_STATUS F.HIF_STATUS_engine_fault true
    let drawn := (s.setFlag R.HIF_STATUS F.HIF_STATUS_engine_fault true).draw
    let emptied := { drawn.2 with hif := { drawn.2.hif with waiting := [], drops := 0 } }
    let last := emptied.ledgerPut { time := drawn.2.time.devtime, block := 0x24, sev := sevFault, code := 0x0003, data := evData [(4, drawn.1.toNat)] }
    (s.hifServes = false → Does post s s ∧ Does .ledgerEventWrite s s)
    ∧ (s.hifServes = true →
      (foreign → Does post s (s.hifErr errMbxPort a i2c))
      ∧ (¬ foreign → s.mbxBusy n = true → Does post s (s.hifErr errMbxBusy a i2c))
      ∧ (¬ foreign → s.mbxBusy n = false → word.getLsbD 31 = true → word.toNat % 65536 = 0 → Does post s (s.hifErr errMbxTag a i2c))
      ∧ (¬ foreign → s.mbxBusy n = false → word.getLsbD 31 = true → word.toNat % 65536 ≠ 0 → Does post s (stored.mbxPost n))
      ∧ (¬ foreign → s.mbxBusy n = false → word.getLsbD 31 = false → Does post s stored))
    ∧ Does (.mbxTake slot) s (s.setMbxBit R.HIF_MBX_PEND n false)
    ∧ (s.mbxBusy n = false → Does (.mbxDone slot result) s (s.addCnt R.HIF_MBX_STRAY_CNT 1))
    ∧ (s.mbxBusy n = true → s.mbxExpired n = true → Does (.mbxDone slot result) s (freed s))
    ∧ (s.mbxBusy n = true → s.mbxExpired n = false → Does (.mbxDone slot result) s (freed worded))
    ∧ ((s.hifServes = false ∨ s.mbxBusy n = false ∨ s.mbxExpired n = true) → Does (.mbxDeadlineExpiry slot) s s)
    ∧ (¬ (s.hifServes = false ∨ s.mbxBusy n = false ∨ s.mbxExpired n = true) → Does (.mbxDeadlineExpiry slot) s
        (marked.logEvent 0x24 sevWarn 0x0002 (evData [(1, n), (2, marked.load (mbxReq n) 2), (2, marked.load (mbxReq n + 0x3C) 2)])))
    ∧ (s.hifServes = true → s.ledgerTake = none → Does .ledgerEventWrite s s)
    ∧ (s.hifServes = true → s.ledgerTake = some (en, t) → Does .ledgerEventWrite s (t.ledgerPut en))
    ∧ Does (.swIrqRaise bits) s ((List.range 32).foldl (fun s n => if 8 ≤ n ∧ bits.getLsbD n = true then s.raiseIrq n else s) s)
    ∧ (s.hif.stopped = true → Does .hifEngineFault s s)
    ∧ (s.hif.stopped = false → s.time.rootLoss.isSome = true → Does .hifEngineFault s { lostRoot with hif := { lostRoot.hif with waiting := [], drops := 0, stopped := true } })
    ∧ (s.hif.stopped = false → s.time.rootLoss.isSome = false → Does .hifEngineFault s { last with hif := { last.hif with stopped := true } })

/-- The boot flash (R479, R480, R483, Table HIF-8). What of it is the model's choice or reading: notes/assumptions/69, 70, 71 and 72. -/
def Obligations.FlashRows : Prop :=
  ∀ (s u : State) (e : QEntry),
    let d := e.desc
    let n := d.arg1 % 131072
    let badRead := d.unit ≠ 0xFF ∨ n = 0 ∨ 65536 < n ∨ bufferOk d.arg2 n = false ∨ flashSize < d.arg0 + n
    let badProg := d.unit ≠ 0xFF ∨ d.arg0 % 256 ≠ 0 ∨ bufferOk d.arg2 256 = false ∨ flashSize < d.arg0 + 256 ∨ u.flashProtected d.arg0 256 = true
    let put := u.flashProgram d.arg0 (u.bytes d.arg2 256)
    let badErase := d.unit ≠ 0xFF ∨ d.arg0 % 4096 ≠ 0 ∨ flashSize < d.arg0 + 4096 ∨ u.flashProtected d.arg0 4096 = true
    let code := d.arg0 % 65536
    let asked := fun (op : Nat) => s.setFld R.HIF_FLASH_CMD F.HIF_FLASH_CMD_op op
    let o := fun (op : Nat) => ((asked op).reg R.HIF_FLASH_ADDR).toNat
    let page := fun (op : Nat) => o op / 256 * 256
    let sector := fun (op : Nat) => o op / 4096 * 4096
    let ended := fun (t : State) => (t.setFlag R.HIF_FLASH_CMD F.HIF_FLASH_CMD_go false).setFlag R.HIF_FLASH_STATUS F.HIF_FLASH_STATUS_done true
    let refused := fun (t : State) => (ended t).setFlag R.HIF_FLASH_STATUS F.HIF_FLASH_STATUS_refused true
    let opened := s.hifServes = true ∧ s.recoveryOpen = true
    let per := fun (c : Instr) (op : Nat) => (s.hifServes = false → Does c s s)
      ∧ (s.hifServes = true → s.recoveryOpen = false → Does c s (s.hifErr errRegion R.HIF_FLASH_CMD false))
      ∧ (opened → flashSize ≤ o op → Does c s (refused (asked op)))
    (Started 32 0x100 s e u →
      (badRead → Finishes .hfFlashRead s u e 0x02 0 0) ∧ (¬ badRead → Finishes .hfFlashRead s (u.setBytes d.arg2 (u.flashBytes d.arg0 n)) e 0 0 0))
    ∧ (Started 32 0x101 s e u →
      (badProg → Finishes .hfFlashProgram s u e 0x02 0 0)
      ∧ (¬ badProg → Finishes .hfFlashProgram s put e 0 (b2n (put.flashBytes d.arg0 256 != u.bytes d.arg2 256)) 0))
    ∧ (Started 32 0x102 s e u →
      (badErase → Finishes .hfFlashErase s u e 0x02 0 0) ∧ (¬ badErase → Finishes .hfFlashErase s (u.flashErase d.arg0 (d.arg0 + 4096)) e 0 0 0))
    ∧ (64 ≤ s.hif.waiting.length → Does .hfLogEvent s s)
    ∧ (s.hif.waiting.length < 64 → Started 32 0x103 s e u →
      ((d.unit ≠ 0xFF ∨ code < 0x8000) → Finishes .hfLogEvent s u e 0x02 0 0)
      ∧ (d.unit = 0xFF → 0x8000 ≤ code → Finishes .hfLogEvent s (u.logEvent 0x24 (d.arg0 / 65536 % 4) code (evData [(8, d.arg1), (4, d.arg2)])) e 0 0 0))
    ∧ per .flashRecoveryRead 1 ∧ per .flashRecoveryProgram 2 ∧ per .flashRecoveryErase 3
    ∧ (opened → o 1 < flashSize → Does .flashRecoveryRead s
        (ended (forN 64 (fun w s => s.setReg (R.HIF_FLASH_DATA w) (BitVec.ofNat 32 (s.flashNat (page 1 + 4 * w) 4))) (asked 1))))
    ∧ (opened → o 2 < flashSize → Does .flashRecoveryProgram s
        (if (asked 2).recoveryProtected (page 2) 256 then refused (asked 2)
         else ended ((asked 2).flashProgram (page 2) ((List.range 64).flatMap (fun w => leBytes 4 ((asked 2).reg (R.HIF_FLASH_DATA w)).toNat)))))
    ∧ (opened → o 3 < flashSize → Does .flashRecoveryErase s
        (if (asked 3).recoveryProtected (sector 3) 4096 then refused (asked 3) else ended ((asked 3).flashErase (sector 3) (sector 3 + 4096))))

/-- Resets (Table HIF-9, R10, R22, R36, R79, R390, R405, R468, R484, R485, R489). What of it is the model's choice or reading: notes/assumptions/5, 7, 10, 77 and 86. -/
def Obligations.ResetRows : Prop :=
  ∀ (s : State) (up msix fnMask : Bool) (lanes : Fin 2) (speed : Fin 4) (lost : W64),
    let r := State.reset
    let fresh := fun (t : State) => t.coreA = r.coreA ∧ t.coreB = r.coreB ∧ t.qc = r.qc ∧ t.claims = [] ∧ t.berth = r.berth ∧ t.hold = r.hold ∧ t.pilot = r.pilot
      ∧ t.boot = r.boot ∧ t.hws = r.hws ∧ t.hif = r.hif ∧ t.cph = r.cph ∧ t.txA = r.txA ∧ t.txB = r.txB ∧ t.rxA = r.rxA ∧ t.rxB = r.rxB ∧ t.osp = r.osp
      ∧ t.clm = r.clm ∧ t.brt = r.brt ∧ t.lanes = r.lanes ∧ t.mon = r.mon ∧ t.obs = r.obs ∧ t.flash = s.flash
      ∧ t.sec.anchors = s.sec.anchors ∧ t.sec.rollback = s.sec.rollback
    let whole := s.pins.poresetN = true
    let locked : State := { s with time := { s.time with rootLocked := true } }
    let let_go : State := { s with pins := { s.pins with resetN := true } }
    let back : State := { s with time := { s.time with rootLocked := true, rootLoss := none }, pins := { s.pins with aonAlarm := false } }
    let told := (back.noteTotal 8 1).logEvent 0x1C sevFault 0x0001 (evData [(8, lost.toNat)])
    let p := R.HIF_STATUS
    let cleared := s.msixReset
    let set : State := { cleared with hif := { cleared.hif with msixOn := up && msix, msixMask := fnMask } }
    Answers .poresetNAssert s (fun t => fresh t ∧ t.regs = r.regs ∧ t.mem = [] ∧ t.time = r.time ∧ t.ref = r.ref ∧ t.pins.poresetN = false)
    ∧ (whole → ∀ testEn, Does (.poresetNRelease testEn) s s)
    ∧ (¬ whole → ∀ testEn, Answers (.poresetNRelease testEn) s (fun t => fresh t ∧ t.mem = [] ∧ t.time = r.time ∧ t.ref = r.ref
        ∧ t.pins = { s.pins with poresetN := true, aonAlarm := false, testEn }))
    ∧ (¬ whole → Does .resetNAssert s s ∧ Does .resetNRelease s s ∧ Does .hifSwreset s s ∧ Does .rootPllLoss s s ∧ Does .rootPllLocked s s)
    ∧ (whole → Answers .resetNAssert s (fun t => fresh t ∧ t.mem = s.mem ∧ t.time = s.time ∧ t.ref = s.ref ∧ t.pins = { s.pins with resetN := false } ∧ t.log.cause = 1))
    ∧ (whole → s.pins.resetN = false → Does .resetNRelease s (if s.time.rootLocked then let_go.startUp else let_go))
    ∧ (s.pins.resetN = true → Does .resetNRelease s s)
    ∧ (whole → s.pins.resetN = true → s.time.rootLocked = true → Does .hifSwreset s ((s.holdReset 1).startUp))
    ∧ ((s.pins.resetN = false ∨ s.time.rootLocked = false) → Does .hifSwreset s s)
    ∧ (s.time.rootLocked = false → Does .rootPllLoss s s)
    ∧ (whole → s.time.rootLocked = true → Does .rootPllLocked s s ∧ Answers .rootPllLoss s (fun t => fresh t ∧ t.mem = s.mem ∧ t.ref = s.ref ∧ t.log.cause = 2
        ∧ t.time = { s.time with rootLocked := false, rootLoss := some s.time.devtime } ∧ t.pins = { s.pins with aonAlarm := true } ∧ t.flag R.REF_ROOT_LOSS F.REF_ROOT_LOSS_lost = true))
    ∧ (whole → s.time.rootLocked = false → s.time.rootLoss = none → s.pins.testEn = true → exec .rootPllLocked s = .fault (.unspecified 489))
    ∧ (whole → s.time.rootLocked = false → s.time.rootLoss = none → s.pins.testEn = false → Does .rootPllLocked s
        (if s.pins.resetN then locked.bootRepair.setFld R.HIF_BOOT F.HIF_BOOT_hw_stage 2 else locked))
    ∧ (s.time.rootLoss = some lost → Does .rootPllLocked s s ∧ Does (.rootRelockRetry false) s s)
    ∧ (s.time.rootLoss = none → ∀ ok, Does (.rootRelockRetry ok) s s)
    ∧ (whole → s.time.rootLoss = some lost → Does (.rootRelockRetry true) s (if told.pins.resetN then told.bootAgain else told))
    ∧ (s.hifServes = false → Does (.perstN up lanes speed msix fnMask) s s)
    ∧ (s.hifServes = true → Does (.perstN up lanes speed msix fnMask) s (((set.setFlag p F.HIF_STATUS_link_up up).setFld p F.HIF_STATUS_link_width (if up then lanes.val + 1 else 0)).setFld p
        F.HIF_STATUS_link_speed (if up then speed.val + 1 else 0)))

/-- Start-up and the enclave's events (R61, R62, R328, R341, R344, R345, R477, R478, R485). What of it is the model's choice or reading: notes/assumptions/12, 38, 39, 103 and 106. -/
def Obligations.StartupAndEnclaveRows : Prop :=
  ∀ (s : State) (code : Byte) (units : List (Fin 26)) (ch : Fin 2) (d : Nat) (result : Nat) (data : List Byte),
    let stage := s.fld R.HIF_BOOT F.HIF_BOOT_hw_stage
    let n := code.toNat
    let held := !s.pins.zeroizeN
    let tried : State := if s.hasCipher then units.foldl (fun s u => if s.unitRole u.val < 2 then s.unitKatFail u.val else s) s else s
    let shown := (tried.setFld R.SEC_STATE F.SEC_STATE_state (if held then 2 else 1)).setFlag R.SEC_STATE F.SEC_STATE_zeroize_held held
    let up := ({ shown with sec := { shown.sec with unwrapped := !held } } : State).setFld R.HIF_BOOT F.HIF_BOOT_hw_stage 3
    let progs := up.draw.2
    let booted := if progs.hasCipher then (progs.setFlag R.CPH_STATE F.CPH_STATE_prog_ok true).setFld R.CPH_STATE F.CPH_STATE_prog_ver up.draw.1.toNat else progs
    let o := s.bootOffset d
    let fails := s.mfCheck o o harbourSlotSize true
    let clean := s.zeroMem 0 0x800000
    let both := ((clean.loadHarbour .A o).loadHarbour .B o)
    let loaded := both.rollbackRaise 1 0 (clean.mf o 0x0C 4)
    let a := R.SEC_CH_STATUS ch.val
    let put := s.setBytes (secResp ch) ([BitVec.ofNat 8 result, 0, 0, 0] ++ leBytes 4 data.length ++ leBytes 8 s.time.devtime.toNat ++ data)
    let taken : State := { put with sec := { put.sec with ch := put.sec.ch.set ch { put.sec.ch[ch] with answer := none } } }
    let idle := (taken.setFlag a F.SEC_CH_STATUS_busy false).setFlag (R.SEC_CH_CTRL ch.val) F.SEC_CH_CTRL_go false
    let said := ((idle.setFlag a F.SEC_CH_STATUS_done true).setFld a F.SEC_CH_STATUS_result result).setFld a F.SEC_CH_STATUS_length (16 + data.length)
    let low : State := { s with pins := { s.pins with zeroizeN := false } }
    let high := ({ s with pins := { s.pins with zeroizeN := true } } : State).setFlag R.SEC_STATE F.SEC_STATE_zeroize_held false
    let open_ : State := { high with sec := { high.sec with unwrapped := true } }
    let err := (s.setFld R.SEC_STATE F.SEC_STATE_state 3).setFld R.SEC_STATE F.SEC_STATE_fail_code n
    let gone := (((err.cphSecErase 1).logEvent 0x15 sevAlarm 0x0005 (evData [(1, n)])).sessDrop .A).sessDrop .B
    let shut : State := { gone with sec := { gone.sec with unwrapped := false } }
    let noA := shut.setHail .A { shut.hailA with encl := [], toSec := [] }
    ((stage ≠ 2 ∨ (held = true ∧ n = 0x1D)) → Does (.enclaveBoot code units) s s)
    ∧ (stage = 2 → n = 0x40 → Does (.enclaveBoot code units) s (s.bootHalt 0x40))
    ∧ (stage = 2 → 0x10 ≤ n → n ≤ 0x1E → ¬ (held = true ∧ n = 0x1D) → Does (.enclaveBoot code units) s ((s.secError n).bootHalt n))
    ∧ (stage = 2 → n ≠ 0x40 → (n < 0x10 ∨ 0x1E < n) → Does (.enclaveBoot code units) s (if booted.dirCopy.isNone then booted.bootHalt 0x41 else booted))
    ∧ (stage ≠ 3 → Does .harbourManifestLoad s s)
    ∧ (stage = 3 → s.dirCopy = none → Does .harbourManifestLoad s (s.bootHalt 0x41))
    ∧ (stage = 3 → s.dirCopy = some d → fails ≠ 0 → Does .harbourManifestLoad s ((s.bootHalt fails).logEvent 0x15 sevFault 0x0009 (evData [(1, fails)])))
    ∧ (stage = 3 → s.dirCopy = some d → fails = 0 → Does .harbourManifestLoad s
        (State.releaseCores { loaded with boot := { entry := BitVec.ofNat 64 (loaded.mf o 0x14 4), harbour := some o, bank0 := none, bank1 := none }, berth := { active := false, loaded0 := none, loaded1 := none, swapReq := false } }))
    ∧ ((s.flag a F.SEC_CH_STATUS_busy = false ∨ (s.sec.ch[ch]).answer = none) → Does (.secMailboxResponseReady ch) s s)
    ∧ (s.flag a F.SEC_CH_STATUS_busy = true → (s.sec.ch[ch]).answer = some (result, data) →
        (ch = 0 → Does (.secMailboxResponseReady ch) s (said.raiseIrq 2))
        ∧ (ch = 1 → said.active = none → Does (.secMailboxResponseReady ch) s said)
        ∧ (ch = 1 → ∀ k, said.active = some k → Does (.secMailboxResponseReady ch) s (said.eventBoth k 5)))
    ∧ Does .zeroizeNQualified s ((low.setFlag R.SEC_STATE F.SEC_STATE_zeroize_held true).secZeroise 0)
    ∧ (s.secStateCode ≠ 2 → ∀ ok, Does (.zeroiseComplete ok) s s)
    ∧ (s.secStateCode = 2 → Does (.zeroiseComplete true) s
        (((open_.setFld R.SEC_STATE F.SEC_STATE_state 1).cphUnrec .A 0 false).cphUnrec .B 0 false) ∧ Does (.zeroiseComplete false) s (high.secError 0x1D))
    ∧ (s.secStateCode = 3 → Does (.secErrorEntry code) s s)
    ∧ (s.secStateCode ≠ 3 → Does (.secErrorEntry code) s ((noA.setHail .B { noA.hailB with encl := [], toSec := [] }).refreshModes))

/-- Failures of cores (R55, R76, R348 to R351, R359, R360, R432). What of it is the model's choice or reading: notes/assumptions/3 and 45. -/
def Obligations.PilotFailureRows : Prop :=
  ∀ (s : State) (k : CoreId) (x : CoreSnap),
    let j := k.other
    let c := s.core k
    let old := c.epoch
    let active := s.active = some k
    let able := s.pilot.ok = true ∧ s.roleOf k ≠ 3
    let stopped := ((s.dropCore k).setRoleOf k 3).setRest k 1
    let rev := stopped.revertStaged
    let down : State := { rev with hws := { rev.hws with copy := none }, pilot := { rev.pilot with missed := 0, handover := false } }
    let new := nextEpoch down.pilot.lastEpoch
    let past := ((down.startSnap j x new).soleActive j new).endEpoch old new
    let left := ((down.setActive none).setLive []).endEpoch old 0
    let alone : State := { left with pilot := { left.pilot with pendCold := if left.roleOf j = 2 then some (j, left.time.tide) else none } }
    let told := fun (cause block : Nat) (old new : W16) (t : State) => ((((t.addCnt R.PLT_FAILOVER_CNT 1).setFlag R.PLT_STATUS_EV F.PLT_STATUS_EV_failover true).noteTotal 12 1).pltLast cause block old).logEvent 0x1A sevAlarm 0x0001
      (evData [(1, cause), (2, old.toNat), (2, new.toNat)])
    let fails := fun (i : Instr) (cause : Nat) =>
      (s.standbySnap j = some x → Does i s (told cause k.block old new past)) ∧ (s.standbySnap j = none → Does i s (told cause k.block old 0 alone))
    let single := stopped.setDual false
    let onlyB := ({ single with pilot := { single.pilot with lastEpoch := s.coreB.epoch } } : State).setLive [s.coreB.epoch]
    let onlyA := (single.soleActive .A s.coreA.epoch).endEpoch s.coreB.epoch s.coreA.epoch
    let noCopy : State := { onlyA with hws := { onlyA.hws with copy := none } }
    let out : State := { stopped with hws := { stopped.hws with copy := none, snap := none }, pilot := { stopped.pilot with handover := false, pendCold := stopped.pilot.pendCold.filter (fun p => p.1 != k) } }
    let signal := fun (i : Instr) (cause : Nat) => (¬ able → Does i s s)
      ∧ (able → s.pilot.dual = false → active → fails i cause)
      ∧ (able → s.pilot.dual = true → k = .A → Does i s (onlyB.endEpoch s.coreA.epoch s.coreB.epoch))
      ∧ (able → s.pilot.dual = true → k = .B → Does i s (told cause 0x19 s.coreB.epoch s.coreA.epoch noCopy))
      ∧ (able → s.pilot.dual = false → ¬ active → Does i s (out.logEvent 0x1A sevWarn 0x0008 (evData [(1, k.block), (1, cause)])))
    (s.active = none → Does .pilotMissedHbDeclare s s)
    ∧ (active → (s.pilot.missed < 2 ∨ s.pilot.ok = false) → Does .pilotMissedHbDeclare s s)
    ∧ (active → 2 ≤ s.pilot.missed → s.pilot.ok = true → fails .pilotMissedHbDeclare 1)
    ∧ (c.run = .halted → signal (.coreFaultSignal k true) 4)
    ∧ ((c.run = .halted ∨ s.localUncorr k = true) → signal (.coreFaultSignal k false) 2)
    ∧ (c.run ≠ .halted → Does (.coreFaultSignal k true) s s)
    ∧ (c.run ≠ .halted → s.localUncorr k = false → Does (.coreFaultSignal k false) s s)
    ∧ (c.run = .running → c.wait = .none → 64 * s.fld R.PLT_CFG F.PLT_CFG_wdog ≤ c.quiet → signal (.watchdogExpiry k) 3)
    ∧ ((c.run ≠ .running ∨ c.wait ≠ .none ∨ c.quiet < 64 * s.fld R.PLT_CFG F.PLT_CFG_wdog) → Does (.watchdogExpiry k) s s)

/-- Takeovers that are no failures (R348, R352, R358, R360 to R362, R490). What of it is the model's choice or reading: notes/assumptions/3, 40, 41 and 42. -/
def Obligations.PilotTakeoverRows : Prop :=
  ∀ (s : State) (k j : CoreId) (x : CoreSnap) (t : W64) (edgeA edgeB lowA lowB : Bool),
    let waited : State := { s with pilot := { s.pilot with wtrDone := true } }
    let due := s.pilot.handover = true ∧ s.hws.copy = none ∧ s.active = some .B ∧ s.pilot.ok = true
    let new := nextEpoch s.pilot.lastEpoch
    let calm : State := { s with pilot := { s.pilot with handover := false } }
    let both := (((calm.startSnap .A x new).setRoleOf .A 0).setDual true).setLive [new, s.coreB.epoch]
    let shown := ((both.addCnt R.PLT_REVERT_CNT 1).setFlag R.PLT_STATUS_EV F.PLT_STATUS_EV_revert true).noteTotal 16 1
    let cold := (s.startEntryCore k new true).soleActive k new
    let clean : State := { cold with hws := { cold.hws with copy := none, snap := none } }
    let gone : State := { s with pilot := { s.pilot with ok := false, handover := false } }
    let levels : State := { s with pins := { s.pins with forceAN := !lowA, forceBN := !lowB } }
    let seen := (levels.setFlag R.PLT_STATUS F.PLT_STATUS_force_a lowA).setFlag R.PLT_STATUS F.PLT_STATUS_force_b lowB
    let heard := s.pilot.ok = true ∨ s.flag R.PLT_STATUS F.PLT_STATUS_pilot_ok = false
    let named : CoreId := if edgeA then .A else .B
    let force := Instr.forceBallQualified edgeA edgeB lowA lowB
    let taken : State := { s with pilot := { s.pilot with pendForce := none } }
    let later := s.pilot.pendForce = some (k, t) ∧ s.time.tide ≠ t ∧ s.pilot.dual = false
    let from_ := (s.active.map CoreId.block).getD 0
    let counted := fun (u : State) => (u.addCnt R.PLT_FAILOVER_CNT 1).noteTotal 12 1
    let forced := fun (u : State) => u.setFlag R.PLT_STATUS_EV F.PLT_STATUS_EV_forced true
    let swapped := ((taken.revertStaged).startSnap k x new).soleActive k new
    let ended := fun (u : State) => ((forced (counted u)).pltLast 5 from_ s.pilot.lastEpoch).logEvent 0x1A sevWarn 0x0004 (evData [(1, k.block)])
    let entered := taken.revertStaged.coldResume k from_
    (s.roleOf .A ≠ 1 → Does .waitToRestoreExpiry s s)
    ∧ (s.roleOf .A = 1 → Does .waitToRestoreExpiry s (waited.setFlag R.PLT_STATUS F.PLT_STATUS_wtr_run false))
    ∧ ((s.standbySnap .A = none ∨ ¬ due) → Does .revertStart s s)
    ∧ (s.standbySnap .A = some x → due → Does .revertStart s ((shown.pltLast 6 0x19 s.coreB.epoch).logEvent 0x1A sevInfo 0x0002 (evData [(2, s.coreB.epoch.toNat), (2, new.toNat)])))
    ∧ (s.pilot.pendCold = none → Does .coldResumeRelease s s)
    ∧ (s.pilot.pendCold = some (k, t) → (s.active ≠ none ∨ s.time.tide = t ∨ s.roleOf k ≠ 2) → Does .coldResumeRelease s s)
    ∧ (s.pilot.pendCold = some (k, t) → s.active = none → s.time.tide ≠ t → s.roleOf k = 2 → Does .coldResumeRelease s (s.coldResume k 0))
    ∧ (∀ f : Nat, s.coldResume k f = ((clean.pltLast 7 f s.pilot.lastEpoch).setFlag R.PLT_STATUS_EV F.PLT_STATUS_EV_cold_resume true).logEvent 0x1A sevWarn 0x0004 (evData [(1, k.block)]))
    ∧ Does .pilotFault s (((gone.setFlag R.PLT_STATUS F.PLT_STATUS_pilot_ok false).setFlag R.PLT_STATUS_EV F.PLT_STATUS_EV_pilot_fail true).logFault 0x1A 0x0003 [])
    ∧ (¬ heard → Does force s s)
    ∧ (heard → edgeA = true → edgeB = true → Does force s ((seen.setFlag R.PLT_STATUS_EV F.PLT_STATUS_EV_force_conflict true).logEvent 0x1A sevWarn 0x0007 []))
    ∧ (heard → edgeA = false → edgeB = false → Does force s seen)
    ∧ (heard → edgeA ≠ edgeB → seen.roleOf named = 0 → Does force s seen)
    ∧ (heard → edgeA ≠ edgeB → seen.roleOf named = 3 → Does force s (seen.setFlag R.PLT_STATUS_EV F.PLT_STATUS_EV_force_refused true))
    ∧ (heard → edgeA ≠ edgeB → (seen.roleOf named = 1 ∨ seen.roleOf named = 2) → Does force s { seen with pilot := { seen.pilot with pendForce := some (named, seen.time.tide) } })
    ∧ (s.pilot.pendForce = none → Does .forcedTakeover s s)
    ∧ (s.pilot.pendForce = some (k, t) → (s.time.tide = t ∨ s.pilot.dual = true) → Does .forcedTakeover s s)
    ∧ (later → s.roleOf k = 1 → s.standbySnap k = some x → (s.active = none → Does .forcedTakeover s (ended swapped)) ∧ (s.active = some j → Does .forcedTakeover s (ended (swapped.forceOut j new))))
    ∧ (later → s.roleOf k = 2 → s.active = none → Does .forcedTakeover s (forced entered))
    ∧ (later → s.roleOf k = 2 → s.active = some j → Does .forcedTakeover s (forced (counted (entered.forceOut j new))))
    ∧ (later → (s.roleOf k = 0 ∨ s.roleOf k = 3 ∨ (s.roleOf k = 1 ∧ s.standbySnap k = none)) → Does .forcedTakeover s taken)

/-- The hawser and the return of a failed core (R61, R353 to R355, R357, R358). What of it is the model's choice or reading: notes/assumptions/3, 43 and 44. -/
def Obligations.CoreReturnAndHawserRows : Prop :=
  ∀ (s : State) (k j : CoreId) (copy : HawserCopy) (test : Byte) (o : Nat),
    let bad := (s.addCnt R.HWS_FRAME_ERR_CNT 1).setFlag R.HWS_STATUS F.HWS_STATUS_frame_err true
    let n := bad.hws.voids + 1
    let void : State := { bad with hws := { bad.hws with copy := some { copy with isVoid := true }, voids := n }, pilot := { bad.pilot with handover := false } }
    let put := copy.lines.foldl (State.adoptLine j copy) s
    let kept : State := { put with hws := { put.hws with copy := none, snap := some copy.snap, voids := 0 } }
    let stays := (s.setRest k 4).setFlag R.PLT_STATUS_EV F.PLT_STATUS_EV_selftest_fail true
    let loaded := ((s.loadHarbour k o).reloadBank k false).reloadBank k true
    let back := (loaded.setRest k 0).enterResync k 0
    let fit := s.mfCheck o o harbourSlotSize true = 0
    (s.hws.copy = none → (∀ ok, Does (.hawserFrameReceived ok) s s) ∧ Does .hawserCopyComplete s s)
    ∧ (s.hws.copy = some copy → Does (.hawserFrameReceived true) s s)
    ∧ (s.hws.copy = some copy → copy.isVoid = true → Does (.hawserFrameReceived false) s bad)
    ∧ (s.hws.copy = some copy → copy.isVoid = false → void.standby = none → Does (.hawserFrameReceived false) s void)
    ∧ (s.hws.copy = some copy → copy.isVoid = false → void.standby = some j → (void.roleOf j ≠ 1 ∨ n < 4) → Does (.hawserFrameReceived false) s void)
    ∧ (s.hws.copy = some copy → copy.isVoid = false → void.standby = some j → void.roleOf j = 1 → 4 ≤ n → Does (.hawserFrameReceived false) s (void.enterResync j 2))
    ∧ (s.standby = none → Does .hawserCopyComplete s s)
    ∧ (s.hws.copy = some copy → s.standby = some j →
      (copy.incomplete = true → Does .hawserCopyComplete s s)
      ∧ (copy.incomplete = false → copy.isVoid = true → Does .hawserCopyComplete s s.copyVoid)
      ∧ (copy.incomplete = false → copy.isVoid = false → (kept.roleOf j ≠ 2 ∨ copy.isWhole = false) → Does .hawserCopyComplete s kept)
      ∧ (copy.incomplete = false → copy.isVoid = false → kept.roleOf j = 2 → copy.isWhole = true → Does .hawserCopyComplete s (kept.inSync j)))
    ∧ (s.restOf k = 1 → Does (.coreRestartHoldEnd k) s (s.setRest k 2))
    ∧ (s.restOf k ≠ 1 → Does (.coreRestartHoldEnd k) s s)
    ∧ (s.restOf k ≠ 2 → ∀ r, Does (.coreSelftestDone k r) s s)
    ∧ (s.restOf k = 2 → Does (.coreSelftestDone k none) s (((s.coreRepair k).zeroMem (coreAddr k 0) (coreAddr k 0 + 0x400000)).setRest k 3)
        ∧ Does (.coreSelftestDone k (some test)) s (stays.logEvent 0x1A sevWarn 0x0005 (evData [(1, k.block), (1, test.toNat)])))
    ∧ ((s.boot.harbour = none ∨ s.restOf k ≠ 3) → Does (.coreReloadDone k) s s)
    ∧ (s.boot.harbour = some o → s.restOf k = 3 → ¬ fit → Does (.coreReloadDone k) s (s.setRest k 4))
    ∧ (s.boot.harbour = some o → s.restOf k = 3 → fit → (back.active ≠ none ∨ back.pilot.pendCold ≠ none) → Does (.coreReloadDone k) s back)
    ∧ (s.boot.harbour = some o → s.restOf k = 3 → fit → back.active = none → back.pilot.pendCold = none →
        Does (.coreReloadDone k) s { back with pilot := { back.pilot with pendCold := some (k, back.time.tide) } })

/-- The tide boundary (R22, R51 to R53, R62, R64, R75, R349, R354, R359, R447). What of it is the model's choice or reading: notes/assumptions/3, 17, 29, 46, 48 and 49. -/
def Obligations.TideRows : Prop :=
  ∀ (s : State) (k : CoreId) (l : List Nat),
    let begun := s.tideStep
    let beat := begun.beater.any begun.commits
    let acts := begun.commits .A || begun.commits .B
    let acted := if acts then begun.commitAll.tapCopies else begun
    let marked : State := { acted with qc := { acted.qc with atCommit := acts } }
    let beaten := (marked.tideBeat beat).copyEnd
    let ended := if begun.pilot.dual then beaten.endDual else beaten
    let after := (s.commitAct.sealEntries (s.commitAct.core k).epoch).bankSwap
    let missed : State := { s with pilot := { s.pilot with missed := s.pilot.missed + 1 } }
    let came : State := { s with pilot := { s.pilot with missed := 0 } }
    let heard := fun (b : Bool) (u : State) => ({ u with sec := { u.sec with heartbeat := b } } : State)
    let fits := ∀ q : Fin 64, (s.queue q).depth = l.getD q.val 0 ∨ (s.queue q).entries = []
    let resized := (List.finRange 64).foldl (fun (s : State) (q : Fin 64) => (s.setQueue q { s.queue q with depth := l.getD q.val 0 }).setFld (R.QCT_DEPTH q.val) F.QCT_DEPTH_depth (l.getD q.val 0)) s
    let done : State := { resized with qc := { resized.qc with pendDepth := none } }
    Answers .tideBoundary s (fun t => t.time.tide = s.time.tide + 1 ∧ t.time.phase = 0 ∧ t.time.commitPoint = false ∧ t.time.devtime = s.time.devtime
      ∧ t.time.tick = s.time.tick + BitVec.ofNat 64 (4608 + 9 * s.time.ext - s.time.phase))
    ∧ Does .tideBoundary s (((ended.tideRoles.tideAges.hwsBoundary beat).capSnap (s.time.ext != 0)).logCapture).releaseWaiters
    ∧ (s.commits k = true → s.commits k.other = false → s.commitAll = (after.retire k).pmcCount k 15 1)
    ∧ (s.tideBeat true = heard true came)
    ∧ (s.pilot.ok = true → s.active ≠ none → s.tideBeat false = heard false (missed.addCnt R.PLT_MISSED_HB_CNT 1))
    ∧ ((s.pilot.ok = false ∨ s.active = none) → s.tideBeat false = heard false s)
    ∧ ((s.qc.atCommit = false ∨ s.time.phase ≠ 0) → Does .queueDepthApply s s)
    ∧ (s.qc.atCommit = true → s.time.phase = 0 → (s.qc.pendDepth = none ∨ (s.qc.pendDepth = some l ∧ ¬ fits)) → Does .queueDepthApply s s.releaseWaiters)
    ∧ (s.qc.atCommit = true → s.time.phase = 0 → s.qc.pendDepth = some l → fits → Does .queueDepthApply s ((done.setFlag R.QCT_STATUS F.QCT_STATUS_depth_pending false).releaseWaiters))

/-- Completion (R66 to R70, Table ENG-4). What of it is the model's choice or reading: notes/assumptions/3, 24 and 25. -/
def Obligations.CompletionRows : Prop :=
  (∀ (s : State) (ticket : W32) (e : QEntry) (failed : Bool) (r0 r1 : W64) (c : Carrier),
      let q := ticketQueue e.ticket
      let d := e.desc
      let row := fun (failed : Bool) => Instr.commandCompletion ticket failed r0 r1
      let ends := fun (failed : Bool) (v : State) (st a b : Nat) => Does (row failed) s (v.complete e st a b)
      let is := fun (n : Fin 64) (op : Nat) => q = n ∧ d.opcode = op
      let own := is (eqzQ .A) 0x103 ∨ is (eqzQ .B) 0x103 ∨ is (fecQ .A) 0x101 ∨ is (fecQ .B) 0x101 ∨ is 20 0x100 ∨ is 28 0x100 ∨ is 29 0x100
      let power := is 24 0x101 ∨ is 18 0x100 ∨ is 19 0x100
      (s.entryOf ticket = none → Does (row failed) s s)
      ∧ (s.entryOf ticket = some e → e.started = false → Does (row failed) s s)
      ∧ (s.entryOf ticket = some e → e.started = true →
        (is (eqzQ c) 0x103 → ends failed (s.eqRetestDone c d.unit (!failed)) 0 (b2n failed) 0)
        ∧ (is (fecQ c) 0x101 → ends failed (s.fecRetestDone c d.unit (!failed)) 0 (b2n failed) 0)
        ∧ (is 20 0x100 → ends failed (s.cpRetestDone d failed) 0 (b2n failed) 0)
        ∧ (is 28 0x100 → ends failed (s.scrubDone d).2 (s.scrubDone d).1.1 (s.scrubDone d).1.2.1 (s.scrubDone d).1.2.2)
        ∧ (is 29 0x100 → ends failed (s.scanDone d).2 (s.scanDone d).1.1 (s.scanDone d).1.2.1 (s.scanDone d).1.2.2)
        ∧ (¬ own → ends true s 0x05 r0.toNat r1.toNat)
        ∧ (is 24 0x101 → ends false s 0 r0.toNat 0)
        ∧ (is 18 0x100 → ends false s 0 (b2n (s.unitReady false d.unit)) 0)
        ∧ (is 19 0x100 → ends false s 0 (b2n (s.unitReady true d.unit)) 0)
        ∧ (¬ own → ¬ power → Does (row false) s s)))
    ∧ (∀ (s : State) (q : Fin 64) (e : QEntry) (status r0 r1 : Nat),
      let a := coreAddr e.core e.desc.resultAddr
      let rec_ := recordBytes e.ticket status ((queueBlock q.val).getD 0) e.cflags s.time.devtime r0 r1
      let v := s.completeRaw q e status r0 r1
      let ev := v.core e.core
      (e.desc.resultAddr ≠ 0 → e.recordOk = true → 0x200000 ≤ e.desc.resultAddr →
        (∀ i < 32, v.byte (a + i) = rec_.getD i 0) ∧ (∀ x, (x < a ∨ a + 32 ≤ x) → v.byte x = s.byte x))
      ∧ ((e.desc.resultAddr = 0 ∨ e.recordOk = false) → ∀ x, v.byte x = s.byte x)
      ∧ (v.queue q).entries = (s.queue q).entries.filter (fun y => !(y.ticket == e.ticket))
      ∧ (e.desc.notify = true → if e.desc.level = 1 then ev.eventH.getLsbD 1 = true else ev.eventB.getLsbD 1 = true)
      ∧ (ticketQueue e.ticket = q → (s.queue q).issued - e.no < 4096 → v.ticketState e.ticket = (if status = 0 then 3 else 4, status)))

/-- Field types (R7, R8, Table SCO-4) and staging (R54). What of it is the model's choice or reading: notes/assumptions/48. -/
def Obligations.RegisterFieldTypes : Prop :=
  ∀ (s : State) (a : Nat) (v : W32) (f g : Fld), f.lsb + f.width ≤ 32 →
    let t := s.writeFld a v f
    let x := (f.limit (getBits f v)).1
    let limited := (f.limit (getBits f v)).2
    let outside := fun (i : Nat) => i < f.lsb ∨ f.lsb + f.width ≤ i
    (f.ty = .rw → f.st = false → limited = false → t.fld a f = x % 2 ^ f.width ∧ (f.lim = .free → t.fld a f = getBits f v))
    ∧ (f.ty = .rw → f.st = false → limited = true → a ≠ limStatus a → t.fld a f = x % 2 ^ f.width ∧ (f.limBit < 32 → (t.reg (limStatus a)).getLsbD f.limBit = true))
    ∧ (f.ty = .rw → f.st = true → limited = false → (∀ b, t.reg b = s.reg b) ∧ getBits f (t.staged a) = x % 2 ^ f.width ∧ (∀ b, b ≠ a → t.staged b = s.staged b))
    ∧ (f.ty = .w1c → ∀ i, (t.reg a).getLsbD i = ((s.reg a).getLsbD i && !(v.getLsbD i && decide (¬ outside i))))
    ∧ ((f.ty = .ro ∨ f.ty = .rc ∨ f.ty = .wo ∨ f.ty = .w1s) → t = s)
    ∧ (limited = false → (∀ b, b ≠ a → t.reg b = s.reg b) ∧ (∀ i, outside i → (t.reg a).getLsbD i = (s.reg a).getLsbD i))
    ∧ (limited = false → (f.lsb + f.width ≤ g.lsb ∨ g.lsb + g.width ≤ f.lsb) → t.fld a g = s.fld a g)
end

