-- ==== Sys2Proof/Laws/Sparse.lean ====
section
/-! SUPPORT. Laws of the sparse maps: a write keeps the canonical form, the key written reads as written, every other key as before. -/
namespace Sys2Proof.Laws
open Sys2Proof.Machine

variable {α : Type}

theorem sparseWf_cons [DecidableEq α] {d : Nat → α} {e : Nat × α} {l : List (Nat × α)} :
    sparseWf d (e :: l) = true ↔ e.2 ≠ d e.1 ∧ (∀ x ∈ l, e.1 < x.1) ∧ sparseWf d l = true := by
  simp [sparseWf, List.all_eq_true, and_assoc]

theorem mem_sparseDrop {k : Nat} {l : List (Nat × α)} {e : Nat × α} : e ∈ sparseDrop k l ↔ e ∈ l ∧ e.1 ≠ k := by
  induction l with
  | nil => simp [sparseDrop]
  | cons p l ih =>
    simp only [sparseDrop]
    split <;> rename_i h
    · rw [ih]
      constructor
      · rintro ⟨a, b⟩
        exact ⟨List.mem_cons_of_mem _ a, b⟩
      · rintro ⟨a, b⟩
        rcases List.mem_cons.1 a with rfl | a
        · exact absurd h b
        · exact ⟨a, b⟩
    · rw [List.mem_cons, List.mem_cons, ih]
      constructor
      · rintro (rfl | ⟨a, b⟩)
        · exact ⟨.inl rfl, h⟩
        · exact ⟨.inr a, b⟩
      · rintro ⟨rfl | a, b⟩
        · exact .inl rfl
        · exact .inr ⟨a, b⟩

theorem mem_sparseInsert {k : Nat} {v : α} {l : List (Nat × α)} {e : Nat × α} : e ∈ sparseInsert k v l ↔ e = (k, v) ∨ e ∈ l := by
  induction l with
  | nil => simp [sparseInsert]
  | cons p l ih =>
    simp only [sparseInsert]
    split
    · rw [List.mem_cons, ih, List.mem_cons]
      constructor
      · rintro (h | h | h)
        · exact .inr (.inl h)
        · exact .inl h
        · exact .inr (.inr h)
      · rintro (h | h | h)
        · exact .inr (.inl h)
        · exact .inl h
        · exact .inr (.inr h)
    · rw [List.mem_cons]

theorem sparseDrop_wf [DecidableEq α] {d : Nat → α} (k : Nat) {l : List (Nat × α)} (h : sparseWf d l = true) : sparseWf d (sparseDrop k l) = true := by
  induction l with
  | nil => exact h
  | cons p l ih =>
    rw [sparseWf_cons] at h
    simp only [sparseDrop]
    split
    · exact ih h.2.2
    · exact sparseWf_cons.2 ⟨h.1, fun x hx => h.2.1 x (mem_sparseDrop.1 hx).1, ih h.2.2⟩

theorem sparseInsert_wf [DecidableEq α] {d : Nat → α} {k : Nat} {v : α} {l : List (Nat × α)} (hv : v ≠ d k) (hk : ∀ e ∈ l, e.1 ≠ k)
    (h : sparseWf d l = true) : sparseWf d (sparseInsert k v l) = true := by
  induction l with
  | nil => exact sparseWf_cons.2 ⟨hv, (fun _ hx => nomatch hx), h⟩
  | cons p l ih =>
    have hp := sparseWf_cons.1 h
    simp only [sparseInsert]
    split <;> rename_i hlt
    · refine sparseWf_cons.2 ⟨hp.1, fun x hx => ?_, ih (fun e he => hk e (List.mem_cons_of_mem _ he)) hp.2.2⟩
      rcases mem_sparseInsert.1 hx with rfl | hx
      · exact hlt
      · exact hp.2.1 x hx
    · have hne : p.1 ≠ k := hk p List.mem_cons_self
      have hkp : k < p.1 := Nat.lt_of_le_of_ne (Nat.not_lt.1 hlt) (Ne.symm hne)
      refine sparseWf_cons.2 ⟨hv, fun x hx => ?_, h⟩
      rcases List.mem_cons.1 hx with rfl | hx
      · exact hkp
      · exact Nat.lt_trans hkp (hp.2.1 x hx)

/-- A write keeps the canonical form. -/
theorem sparsePut_wf [DecidableEq α] {d : Nat → α} (k : Nat) (v : α) {l : List (Nat × α)} (h : sparseWf d l = true) :
    sparseWf d (sparsePut d k v l) = true := by
  unfold sparsePut
  split
  · exact sparseDrop_wf k h
  · exact sparseInsert_wf (by assumption) (fun e he => (mem_sparseDrop.1 he).2) (sparseDrop_wf k h)

/-- Leaving entries out keeps the canonical form. -/
theorem sparseFilter_wf [DecidableEq α] {d : Nat → α} (f : Nat × α → Bool) {l : List (Nat × α)} (h : sparseWf d l = true) :
    sparseWf d (l.filter f) = true := by
  induction l with
  | nil => exact h
  | cons p l ih =>
    rw [sparseWf_cons] at h
    rw [List.filter_cons]
    split
    · exact sparseWf_cons.2 ⟨h.1, fun x hx => h.2.1 x (List.mem_filter.1 hx).1, ih h.2.2⟩
    · exact ih h.2.2

theorem sparseGet_drop_self (d : Nat → α) (k : Nat) (l : List (Nat × α)) : sparseGet d (sparseDrop k l) k = d k := by
  induction l with
  | nil => rfl
  | cons p l ih =>
    simp only [sparseDrop]
    split
    · exact ih
    · simp only [sparseGet, if_false, *]

theorem sparseGet_drop_ne (d : Nat → α) {k a : Nat} (h : a ≠ k) (l : List (Nat × α)) : sparseGet d (sparseDrop k l) a = sparseGet d l a := by
  induction l with
  | nil => rfl
  | cons p l ih =>
    simp only [sparseDrop]
    split <;> rename_i hk
    · rw [ih]; simp only [sparseGet]; rw [if_neg]; rw [hk]; exact Ne.symm h
    · simp only [sparseGet, ih]

theorem sparseGet_insert_self (d : Nat → α) (k : Nat) (v : α) {l : List (Nat × α)} (hk : ∀ e ∈ l, e.1 ≠ k) :
    sparseGet d (sparseInsert k v l) k = v := by
  induction l with
  | nil => simp [sparseInsert, sparseGet]
  | cons p l ih =>
    simp only [sparseInsert]
    split
    · simp only [sparseGet]; rw [if_neg (hk p List.mem_cons_self)]; exact ih (fun e he => hk e (List.mem_cons_of_mem _ he))
    · simp [sparseGet]

theorem sparseGet_insert_ne (d : Nat → α) {k a : Nat} (h : a ≠ k) (v : α) (l : List (Nat × α)) :
    sparseGet d (sparseInsert k v l) a = sparseGet d l a := by
  induction l with
  | nil => simp only [sparseInsert, sparseGet]; rw [if_neg (Ne.symm h)]
  | cons p l ih =>
    simp only [sparseInsert]
    split
    · simp only [sparseGet, ih]
    · simp only [sparseGet]; rw [if_neg (Ne.symm h)]

/-- The key written reads as written. -/
theorem sparseGet_put_self [DecidableEq α] (d : Nat → α) (k : Nat) (v : α) (l : List (Nat × α)) : sparseGet d (sparsePut d k v l) k = v := by
  unfold sparsePut
  split
  · rw [sparseGet_drop_self]; exact Eq.symm (by assumption)
  · exact sparseGet_insert_self d k v (fun e he => (mem_sparseDrop.1 he).2)

/-- Every other key reads as before. -/
theorem sparseGet_put_ne [DecidableEq α] (d : Nat → α) {k a : Nat} (h : a ≠ k) (v : α) (l : List (Nat × α)) :
    sparseGet d (sparsePut d k v l) a = sparseGet d l a := by
  unfold sparsePut
  split
  · exact sparseGet_drop_ne d h l
  · rw [sparseGet_insert_ne d h, sparseGet_drop_ne d h]

/-- Entries left out read as their default; the others as before, in canonical form or not. -/
theorem sparseGet_filter (d : Nat → α) (f : Nat → Bool) (l : List (Nat × α)) (a : Nat) :
    sparseGet d (l.filter (fun e => f e.1)) a = if f a then sparseGet d l a else d a := by
  induction l with
  | nil => simp [sparseGet]
  | cons p l ih =>
    rw [List.filter_cons]
    by_cases hf : f p.1 = true
    · rw [if_pos hf]; simp only [sparseGet, ih]
      by_cases hp : p.1 = a
      · rw [if_pos hp, if_pos hp, if_pos (hp ▸ hf)]
      · rw [if_neg hp, if_neg hp]
    · rw [if_neg hf, ih]; simp only [sparseGet]
      by_cases hp : p.1 = a
      · rw [hp] at hf; rw [if_neg hf, if_neg hf]
      · rw [if_neg hp]

end Sys2Proof.Laws
end

