-- ==== Sys2Proof/Laws/Scope.lean ====
section
/-! SUPPORT. What the scope of an operation is: how scopes combine, and the scopes of the plain updates of State. -/
namespace Sys2Proof.Laws
open Sys2Proof.Machine Sys2Proof.Safety

theorem sub_trans {a b c : List Piece} (h : sub a b = true) (g : sub b c = true) : sub a c = true := by
  simp only [sub, List.all_eq_true, List.contains_eq_mem, decide_eq_true_eq] at *
  exact fun x hx => g x (h x hx)

theorem sub_contains {p : Piece} {l : List Piece} (h : sub [p] l = true) : l.contains p = true := by
  simpa [sub] using h

/-- A state is within every scope of itself. -/
theorem Within.refl (l : List Piece) (s : State) : Within l s s := ⟨id, id, fun p _ => by cases p <;> rfl⟩

theorem Within.trans {l : List Piece} {r s t : State} (h : Within l r s) (g : Within l s t) : Within l r t :=
  ⟨g.1 ∘ h.1, g.2.1 ∘ h.2.1, fun p hp => by
    have a := h.2.2 p hp
    have b := g.2.2 p hp
    cases p <;> exact Eq.trans b a⟩

/-- A step from s to t that keeps every piece but those of a list stays within a scope that holds them. -/
theorem Within.upd {l ps : List Piece} {r s t : State} (hs : sub ps l = true) (h : Within l r s) (hm : MemOk s → MemOk t)
    (hf : FlashOk s → FlashOk t) (hq : ∀ p, ps.contains p = false → p.same s t) : Within l r t := by
  refine ⟨hm ∘ h.1, hf ∘ h.2.1, fun p hp => ?_⟩
  have hn : ps.contains p = false := by
    cases hc : ps.contains p with
    | false => rfl
    | true =>
      rw [sub, List.all_eq_true] at hs
      have := hs p (by simpa using hc)
      rw [this] at hp
      cases hp
  have a := h.2.2 p hp
  have b := hq p hn
  cases p <;> exact Eq.trans b a

theorem within_ite {l r} {c : Prop} [Decidable c] {a b : State} (hb : Within l r b) (ha : Within l r b → Within l r a) :
    Within l r (if c then a else b) := by
  split
  · exact ha hb
  · exact hb

theorem within_opt_ite {l r t} {c : Prop} [Decidable c] {a b : Option State} (he : (if c then a else b) = some t) (ha : a = some t → Within l r t)
    (hb : b = some t → Within l r t) : Within l r t := by
  split at he
  · exact ha he
  · exact hb he

theorem within_opt_some {l r s t} (he : some s = some t) (h : Within l r s) : Within l r t := by
  cases he
  exact h

theorem within_opt_ite_pair {α : Type} {l r t} {x : α} {c : Prop} [Decidable c] {a b : Option (α × State)} (he : (if c then a else b) = some (x, t))
    (ha : a = some (x, t) → Within l r t) (hb : b = some (x, t) → Within l r t) : Within l r t := by
  split at he
  · exact ha he
  · exact hb he

theorem within_opt_pair {α : Type} {l r t} {x : α} {p : α × State} (he : some p = some (x, t)) (h : Within l r p.2) : Within l r t := by
  cases he
  exact h

theorem within_ite_snd {α : Type} {l r} {c : Prop} [Decidable c] {a b : α × State} (hb : Within l r b.2) (ha : Within l r b.2 → Within l r a.2) :
    Within l r (if c then a else b).2 := by
  split
  · exact ha hb
  · exact hb

theorem within_foldl {α : Type} {l r} {f : State → α → State} {xs : List α} {s : State} (hf : ∀ s x, Within l r s → Within l r (f s x))
    (h : Within l r s) : Within l r (xs.foldl f s) := by
  induction xs generalizing s with
  | nil => exact h
  | cons x xs ih => exact ih (hf s x h)

theorem within_foldl_snd {α β : Type} {l r} {f : β × State → α → β × State} {xs : List α} {s : β × State}
    (hf : ∀ s x, Within l r s.2 → Within l r (f s x).2) (h : Within l r s.2) : Within l r (xs.foldl f s).2 := by
  induction xs generalizing s with
  | nil => exact h
  | cons x xs ih => exact ih (hf s x h)

theorem forN_within {l r} {n : Nat} {f : Nat → State → State} {s : State} (hf : ∀ i s, Within l r s → Within l r (f i s)) (h : Within l r s) :
    Within l r (forN n f s) := within_foldl (fun s i hs => hf i s hs) h

/-! ### Outcomes -/

/-- Every next state that a meaning answers is within a scope. -/
def OutWithin (l : List Piece) (r : State) (o : Out) : Prop := ∀ t, o = .next t → Within l r t

theorem outWithin_next {l r t} (h : Within l r t) : OutWithin l r (.next t) := fun u hu => by cases hu; exact h
theorem outWithin_fault {l r} (f : Fault) : OutWithin l r (.fault f) := fun _ hu => nomatch hu
theorem outWithin_ite {l r} {c : Prop} [Decidable c] {a b : Out} (ha : OutWithin l r a) (hb : OutWithin l r b) : OutWithin l r (if c then a else b) := by
  split
  · exact ha
  · exact hb

/-- The state that the result of an instruction carries is within a scope. -/
def ResWithin (l : List Piece) (r : State) : CoreRes → Prop
  | .next s => Within l r s
  | .jump _ s => Within l r s
  | .stall _ s => Within l r s
  | .fault _ _ _ _ => True
  | .parked _ _ s => Within l r s
  | .ecc s => Within l r s

theorem resWithin_next {l r s} (h : Within l r s) : ResWithin l r (.next s) := h
theorem resWithin_jump {l r s} (a) (h : Within l r s) : ResWithin l r (.jump a s) := h
theorem resWithin_stall {l r s} (a) (h : Within l r s) : ResWithin l r (.stall a s) := h
theorem resWithin_parked {l r s} (a b) (h : Within l r s) : ResWithin l r (.parked a b s) := h
theorem resWithin_ecc {l r s} (h : Within l r s) : ResWithin l r (.ecc s) := h
theorem resWithin_of {l r x s} (h : ResWithin l r x) (e : x = .next s) : Within l r s := by rw [e] at h; exact h
theorem resWithin_of_parked {l r x a b s} (h : ResWithin l r x) (e : x = .parked a b s) : Within l r s := by rw [e] at h; exact h
theorem resWithin_fault {l r} (a b c d) : ResWithin l r (.fault a b c d) := trivial
theorem resWithin_ite {l r} {c : Prop} [Decidable c] {a b : CoreRes} (ha : ResWithin l r a) (hb : ResWithin l r b) :
    ResWithin l r (if c then a else b) := by
  split
  · exact ha
  · exact hb

/-! ### The plain updates -/

theorem Within.set_regs {l r s x} (hs : sub [.regs] l = true) (h : Within l r s) : Within l r { s with regs := x } :=
    Within.upd hs h id id (fun p hp => by cases p <;> first | rfl | cases hp)
theorem Within.set_coreA {l r s x} (hs : sub [.coreA] l = true) (h : Within l r s) : Within l r { s with coreA := x } :=
    Within.upd hs h id id (fun p hp => by cases p <;> first | rfl | cases hp)
theorem Within.set_coreB {l r s x} (hs : sub [.coreB] l = true) (h : Within l r s) : Within l r { s with coreB := x } :=
    Within.upd hs h id id (fun p hp => by cases p <;> first | rfl | cases hp)
theorem Within.set_qc {l r s x} (hs : sub [.qc] l = true) (h : Within l r s) : Within l r { s with qc := x } :=
    Within.upd hs h id id (fun p hp => by cases p <;> first | rfl | cases hp)
theorem Within.set_claims {l r s x} (hs : sub [.claims] l = true) (h : Within l r s) : Within l r { s with claims := x } :=
    Within.upd hs h id id (fun p hp => by cases p <;> first | rfl | cases hp)
theorem Within.set_berth {l r s x} (hs : sub [.berth] l = true) (h : Within l r s) : Within l r { s with berth := x } :=
    Within.upd hs h id id (fun p hp => by cases p <;> first | rfl | cases hp)
theorem Within.set_time {l r s x} (hs : sub [.time] l = true) (h : Within l r s) : Within l r { s with time := x } :=
    Within.upd hs h id id (fun p hp => by cases p <;> first | rfl | cases hp)
theorem Within.set_hold {l r s x} (hs : sub [.hold] l = true) (h : Within l r s) : Within l r { s with hold := x } :=
    Within.upd hs h id id (fun p hp => by cases p <;> first | rfl | cases hp)
theorem Within.set_pilot {l r s x} (hs : sub [.pilot] l = true) (h : Within l r s) : Within l r { s with pilot := x } :=
    Within.upd hs h id id (fun p hp => by cases p <;> first | rfl | cases hp)
theorem Within.set_boot {l r s x} (hs : sub [.boot] l = true) (h : Within l r s) : Within l r { s with boot := x } :=
    Within.upd hs h id id (fun p hp => by cases p <;> first | rfl | cases hp)
theorem Within.set_hws {l r s x} (hs : sub [.hws] l = true) (h : Within l r s) : Within l r { s with hws := x } :=
    Within.upd hs h id id (fun p hp => by cases p <;> first | rfl | cases hp)
theorem Within.set_hif {l r s x} (hs : sub [.hif] l = true) (h : Within l r s) : Within l r { s with hif := x } :=
    Within.upd hs h id id (fun p hp => by cases p <;> first | rfl | cases hp)
theorem Within.set_pins {l r s x} (hs : sub [.pins] l = true) (h : Within l r s) : Within l r { s with pins := x } :=
    Within.upd hs h id id (fun p hp => by cases p <;> first | rfl | cases hp)
theorem Within.set_pwr {l r s x} (hs : sub [.pwr] l = true) (h : Within l r s) : Within l r { s with pwr := x } :=
    Within.upd hs h id id (fun p hp => by cases p <;> first | rfl | cases hp)
theorem Within.set_free {l r s x} (hs : sub [.free] l = true) (h : Within l r s) : Within l r { s with free := x } :=
    Within.upd hs h id id (fun p hp => by cases p <;> first | rfl | cases hp)
theorem Within.set_cph {l r s x} (hs : sub [.cph] l = true) (h : Within l r s) : Within l r { s with cph := x } :=
    Within.upd hs h id id (fun p hp => by cases p <;> first | rfl | cases hp)
theorem Within.set_txA {l r s x} (hs : sub [.txA] l = true) (h : Within l r s) : Within l r { s with txA := x } :=
    Within.upd hs h id id (fun p hp => by cases p <;> first | rfl | cases hp)
theorem Within.set_txB {l r s x} (hs : sub [.txB] l = true) (h : Within l r s) : Within l r { s with txB := x } :=
    Within.upd hs h id id (fun p hp => by cases p <;> first | rfl | cases hp)
theorem Within.set_rxA {l r s x} (hs : sub [.rxA] l = true) (h : Within l r s) : Within l r { s with rxA := x } :=
    Within.upd hs h id id (fun p hp => by cases p <;> first | rfl | cases hp)
theorem Within.set_rxB {l r s x} (hs : sub [.rxB] l = true) (h : Within l r s) : Within l r { s with rxB := x } :=
    Within.upd hs h id id (fun p hp => by cases p <;> first | rfl | cases hp)
theorem Within.set_eqA {l r s x} (hs : sub [.eqA] l = true) (h : Within l r s) : Within l r { s with eqA := x } :=
    Within.upd hs h id id (fun p hp => by cases p <;> first | rfl | cases hp)
theorem Within.set_eqB {l r s x} (hs : sub [.eqB] l = true) (h : Within l r s) : Within l r { s with eqB := x } :=
    Within.upd hs h id id (fun p hp => by cases p <;> first | rfl | cases hp)
theorem Within.set_crA {l r s x} (hs : sub [.crA] l = true) (h : Within l r s) : Within l r { s with crA := x } :=
    Within.upd hs h id id (fun p hp => by cases p <;> first | rfl | cases hp)
theorem Within.set_crB {l r s x} (hs : sub [.crB] l = true) (h : Within l r s) : Within l r { s with crB := x } :=
    Within.upd hs h id id (fun p hp => by cases p <;> first | rfl | cases hp)
theorem Within.set_fecA {l r s x} (hs : sub [.fecA] l = true) (h : Within l r s) : Within l r { s with fecA := x } :=
    Within.upd hs h id id (fun p hp => by cases p <;> first | rfl | cases hp)
theorem Within.set_fecB {l r s x} (hs : sub [.fecB] l = true) (h : Within l r s) : Within l r { s with fecB := x } :=
    Within.upd hs h id id (fun p hp => by cases p <;> first | rfl | cases hp)
theorem Within.set_hailA {l r s x} (hs : sub [.hailA] l = true) (h : Within l r s) : Within l r { s with hailA := x } :=
    Within.upd hs h id id (fun p hp => by cases p <;> first | rfl | cases hp)
theorem Within.set_hailB {l r s x} (hs : sub [.hailB] l = true) (h : Within l r s) : Within l r { s with hailB := x } :=
    Within.upd hs h id id (fun p hp => by cases p <;> first | rfl | cases hp)
theorem Within.set_frmA {l r s x} (hs : sub [.frmA] l = true) (h : Within l r s) : Within l r { s with frmA := x } :=
    Within.upd hs h id id (fun p hp => by cases p <;> first | rfl | cases hp)
theorem Within.set_frmB {l r s x} (hs : sub [.frmB] l = true) (h : Within l r s) : Within l r { s with frmB := x } :=
    Within.upd hs h id id (fun p hp => by cases p <;> first | rfl | cases hp)
theorem Within.set_osp {l r s x} (hs : sub [.osp] l = true) (h : Within l r s) : Within l r { s with osp := x } :=
    Within.upd hs h id id (fun p hp => by cases p <;> first | rfl | cases hp)
theorem Within.set_clm {l r s x} (hs : sub [.clm] l = true) (h : Within l r s) : Within l r { s with clm := x } :=
    Within.upd hs h id id (fun p hp => by cases p <;> first | rfl | cases hp)
theorem Within.set_brt {l r s x} (hs : sub [.brt] l = true) (h : Within l r s) : Within l r { s with brt := x } :=
    Within.upd hs h id id (fun p hp => by cases p <;> first | rfl | cases hp)
theorem Within.set_lanes {l r s x} (hs : sub [.lanes] l = true) (h : Within l r s) : Within l r { s with lanes := x } :=
    Within.upd hs h id id (fun p hp => by cases p <;> first | rfl | cases hp)
theorem Within.set_mon {l r s x} (hs : sub [.mon] l = true) (h : Within l r s) : Within l r { s with mon := x } :=
    Within.upd hs h id id (fun p hp => by cases p <;> first | rfl | cases hp)
theorem Within.set_anl {l r s x} (hs : sub [.anl] l = true) (h : Within l r s) : Within l r { s with anl := x } :=
    Within.upd hs h id id (fun p hp => by cases p <;> first | rfl | cases hp)
theorem Within.set_log {l r s x} (hs : sub [.log] l = true) (h : Within l r s) : Within l r { s with log := x } :=
    Within.upd hs h id id (fun p hp => by cases p <;> first | rfl | cases hp)
theorem Within.set_obs {l r s x} (hs : sub [.obs] l = true) (h : Within l r s) : Within l r { s with obs := x } :=
    Within.upd hs h id id (fun p hp => by cases p <;> first | rfl | cases hp)
theorem Within.set_ecc {l r s x} (hs : sub [.ecc] l = true) (h : Within l r s) : Within l r { s with ecc := x } :=
    Within.upd hs h id id (fun p hp => by cases p <;> first | rfl | cases hp)
theorem Within.set_ref {l r s x} (hs : sub [.ref] l = true) (h : Within l r s) : Within l r { s with ref := x } :=
    Within.upd hs h id id (fun p hp => by cases p <;> first | rfl | cases hp)
theorem Within.set_sec {l r s x} (hs : sub [.sec] l = true) (h : Within l r s) : Within l r { s with sec := x } :=
    Within.upd hs h id id (fun p hp => by cases p <;> first | rfl | cases hp)
theorem Within.set_berth_boot {l r s x_berth x_boot} (hs : sub [.berth, .boot] l = true) (h : Within l r s) :
    Within l r { s with berth := x_berth, boot := x_boot } :=
    Within.upd hs h id id (fun p hp => by cases p <;> first | rfl | cases hp)
theorem Within.set_berth_pilot {l r s x_berth x_pilot} (hs : sub [.berth, .pilot] l = true) (h : Within l r s) :
    Within l r { s with berth := x_berth, pilot := x_pilot } :=
    Within.upd hs h id id (fun p hp => by cases p <;> first | rfl | cases hp)
theorem Within.set_cph_clm_brt {l r s x_cph x_clm x_brt} (hs : sub [.cph, .clm, .brt] l = true) (h : Within l r s) :
    Within l r { s with cph := x_cph, clm := x_clm, brt := x_brt } :=
    Within.upd hs h id id (fun p hp => by cases p <;> first | rfl | cases hp)
theorem Within.set_pilot_hws {l r s x_pilot x_hws} (hs : sub [.pilot, .hws] l = true) (h : Within l r s) :
    Within l r { s with pilot := x_pilot, hws := x_hws } :=
    Within.upd hs h id id (fun p hp => by cases p <;> first | rfl | cases hp)
theorem Within.set_time_pins {l r s x_time x_pins} (hs : sub [.time, .pins] l = true) (h : Within l r s) :
    Within l r { s with time := x_time, pins := x_pins } :=
    Within.upd hs h id id (fun p hp => by cases p <;> first | rfl | cases hp)

theorem State.setByte_within {l r s} (a : Nat) (v : Byte) (hs : sub [.mem] l = true) (h : Within l r s) : Within l r (State.setByte a v s) :=
  Within.upd hs h (fun m => sparsePut_wf _ _ m) id (fun p hp => by cases p <;> first | rfl | cases hp)

theorem State.putBytes_within {l r s} (a : Nat) (b : List Byte) (hs : sub [.mem] l = true) (h : Within l r s) : Within l r (State.putBytes a b s) := by
  induction b generalizing a s with
  | nil => exact h
  | cons x b ih => exact ih (a + 1) (State.setByte_within a x hs h)

theorem State.zeroMem_within {l r s} (lo hi : Nat) (hs : sub [.mem] l = true) (h : Within l r s) : Within l r (State.zeroMem lo hi s) :=
  Within.upd hs h (fun m => sparseFilter_wf _ m) id (fun p hp => by cases p <;> first | rfl | cases hp)

theorem State.flashProgram_within {l r s} (a : Nat) (b : List Byte) (hs : sub [.flash] l = true) (h : Within l r s) :
    Within l r (State.flashProgram a b s) := by
  induction b generalizing a s with
  | nil => exact h
  | cons x b ih =>
    exact ih (a + 1) (Within.upd hs h id (fun m => sparsePut_wf _ _ m) (fun p hp => by cases p <;> first | rfl | cases hp))

theorem State.flashErase_within {l r s} (lo hi : Nat) (hs : sub [.flash] l = true) (h : Within l r s) : Within l r (State.flashErase lo hi s) :=
  Within.upd hs h id (fun m => sparseFilter_wf _ m) (fun p hp => by cases p <;> first | rfl | cases hp)

theorem State.setCore_within {l r s} (k : CoreId) (c : PlelisCore) (hs : sub [.coreA, .coreB] l = true) (h : Within l r s) :
    Within l r (State.setCore k c s) := by
  cases k <;> exact Within.upd hs h id id (fun p hp => by cases p <;> first | rfl | cases hp)

end Sys2Proof.Laws
end

