-- ==== Sys2Proof/Laws/Ops.lean ====
section
/-! SUPPORT. The scope of each operation of Sys2Proof/Machine/Ops.lean. -/
namespace Sys2Proof.Laws
open Sys2Proof.Machine Sys2Proof.Safety

theorem State.setReg_within {sc r₀ s₀} (a : Nat) (v : W32) (hs : sub [.regs] sc = true) (h₀ : Within sc r₀ s₀) :
    Within sc r₀ (State.setReg a v s₀) := by
  unfold State.setReg
  repeat' first
    | with_reducible assumption
    | ((with_reducible refine sub_trans ?_ hs); exact rfl)
    | with_reducible exact trivial
    | with_reducible refine within_ite ?_ (fun _ => ?_)
    | split
    | with_reducible refine Within.set_regs ?_ ?_
    | (dsimp only)

theorem State.setFld_within {sc r₀ s₀} (a : Nat) (f : Fld) (v : Nat) (hs : sub [.regs] sc = true) (h₀ : Within sc r₀ s₀) :
    Within sc r₀ (State.setFld a f v s₀) := by
  unfold State.setFld
  repeat' first
    | with_reducible assumption
    | ((with_reducible refine sub_trans ?_ hs); exact rfl)
    | with_reducible exact trivial
    | with_reducible refine within_ite ?_ (fun _ => ?_)
    | with_reducible refine State.setReg_within _ _ ?_ ?_
    | split
    | (dsimp only)

theorem State.setFlag_within {sc r₀ s₀} (a : Nat) (f : Fld) (b : Bool) (hs : sub [.regs] sc = true) (h₀ : Within sc r₀ s₀) :
    Within sc r₀ (State.setFlag a f b s₀) := by
  unfold State.setFlag
  repeat' first
    | with_reducible assumption
    | ((with_reducible refine sub_trans ?_ hs); exact rfl)
    | with_reducible exact trivial
    | with_reducible refine within_ite ?_ (fun _ => ?_)
    | with_reducible refine State.setFld_within _ _ _ ?_ ?_
    | split
    | (dsimp only)

theorem State.setFldS_within {sc r₀ s₀} (a : Nat) (f : Fld) (v : Int) (hs : sub [.regs] sc = true) (h₀ : Within sc r₀ s₀) :
    Within sc r₀ (State.setFldS a f v s₀) := by
  unfold State.setFldS
  repeat' first
    | with_reducible assumption
    | ((with_reducible refine sub_trans ?_ hs); exact rfl)
    | with_reducible exact trivial
    | with_reducible refine within_ite ?_ (fun _ => ?_)
    | with_reducible refine State.setFld_within _ _ _ ?_ ?_
    | split
    | (dsimp only)

theorem State.setReg64_within {sc r₀ s₀} (lo : Nat) (v : Nat) (hs : sub [.regs] sc = true) (h₀ : Within sc r₀ s₀) :
    Within sc r₀ (State.setReg64 lo v s₀) := by
  unfold State.setReg64
  repeat' first
    | with_reducible assumption
    | ((with_reducible refine sub_trans ?_ hs); exact rfl)
    | with_reducible exact trivial
    | with_reducible refine within_ite ?_ (fun _ => ?_)
    | with_reducible refine State.setReg_within _ _ ?_ ?_
    | split
    | (dsimp only)

theorem State.forceReg_within {sc r₀ s₀} (a : Nat) (v : W32) (hs : sub [.regs] sc = true) (h₀ : Within sc r₀ s₀) :
    Within sc r₀ (State.forceReg a v s₀) := by
  unfold State.forceReg
  repeat' first
    | with_reducible assumption
    | ((with_reducible refine sub_trans ?_ hs); exact rfl)
    | with_reducible exact trivial
    | with_reducible refine within_ite ?_ (fun _ => ?_)
    | split
    | with_reducible refine Within.set_regs ?_ ?_
    | (dsimp only)

theorem State.modCore_within {sc r₀ s₀} (k : CoreId) (f : PlelisCore → PlelisCore) (hs : sub [.coreA, .coreB] sc = true) (h₀ : Within sc r₀ s₀) :
    Within sc r₀ (State.modCore k f s₀) := by
  unfold State.modCore
  repeat' first
    | with_reducible assumption
    | ((with_reducible refine sub_trans ?_ hs); exact rfl)
    | with_reducible exact trivial
    | with_reducible refine within_ite ?_ (fun _ => ?_)
    | with_reducible refine State.setCore_within _ _ ?_ ?_
    | split
    | (dsimp only)

theorem State.raiseObs_within {sc r₀ s₀}  (hs : sub [.coreA, .coreB] sc = true) (h₀ : Within sc r₀ s₀) :
    Within sc r₀ (State.raiseObs s₀) := by
  unfold State.raiseObs
  repeat' first
    | with_reducible assumption
    | ((with_reducible refine sub_trans ?_ hs); exact rfl)
    | with_reducible exact trivial
    | with_reducible refine within_ite ?_ (fun _ => ?_)
    | with_reducible refine State.modCore_within _ _ ?_ ?_
    | split
    | (dsimp only)

theorem State.eventBoth_within {sc r₀ s₀} (k : CoreId) (b : Nat) (hs : sub [.coreA, .coreB] sc = true) (h₀ : Within sc r₀ s₀) :
    Within sc r₀ (State.eventBoth k b s₀) := by
  unfold State.eventBoth
  repeat' first
    | with_reducible assumption
    | ((with_reducible refine sub_trans ?_ hs); exact rfl)
    | with_reducible exact trivial
    | with_reducible refine within_ite ?_ (fun _ => ?_)
    | with_reducible refine State.modCore_within _ _ ?_ ?_
    | split
    | (dsimp only)

theorem State.eventAt_within {sc r₀ s₀} (k : CoreId) (harbour : Bool) (b : Nat) (hs : sub [.coreA, .coreB] sc = true) (h₀ : Within sc r₀ s₀) :
    Within sc r₀ (State.eventAt k harbour b s₀) := by
  unfold State.eventAt
  repeat' first
    | with_reducible assumption
    | ((with_reducible refine sub_trans ?_ hs); exact rfl)
    | with_reducible exact trivial
    | with_reducible refine within_ite ?_ (fun _ => ?_)
    | with_reducible refine State.modCore_within _ _ ?_ ?_
    | split
    | (dsimp only)

theorem State.eventAll_within {sc r₀ s₀} (b : Nat) (hs : sub [.coreA, .coreB] sc = true) (h₀ : Within sc r₀ s₀) :
    Within sc r₀ (State.eventAll b s₀) := by
  unfold State.eventAll
  repeat' first
    | with_reducible assumption
    | ((with_reducible refine sub_trans ?_ hs); exact rfl)
    | with_reducible exact trivial
    | with_reducible refine within_ite ?_ (fun _ => ?_)
    | with_reducible refine State.eventBoth_within _ _ ?_ ?_
    | split
    | (dsimp only)

theorem State.setOvf_within {sc r₀ s₀} (a : Nat) (hs : sub [.regs, .coreA, .coreB] sc = true) (h₀ : Within sc r₀ s₀) :
    Within sc r₀ (State.setOvf a s₀) := by
  unfold State.setOvf
  repeat' first
    | with_reducible assumption
    | ((with_reducible refine sub_trans ?_ hs); exact rfl)
    | with_reducible exact trivial
    | with_reducible refine within_ite ?_ (fun _ => ?_)
    | with_reducible refine State.raiseObs_within ?_ ?_
    | with_reducible refine State.setFlag_within _ _ _ ?_ ?_
    | with_reducible refine State.setReg_within _ _ ?_ ?_
    | split
    | (dsimp only)

theorem State.addCnt_within {sc r₀ s₀} (a : Nat) (n : Nat) (hs : sub [.regs, .coreA, .coreB] sc = true) (h₀ : Within sc r₀ s₀) :
    Within sc r₀ (State.addCnt a n s₀) := by
  unfold State.addCnt
  repeat' first
    | with_reducible assumption
    | ((with_reducible refine sub_trans ?_ hs); exact rfl)
    | with_reducible exact trivial
    | with_reducible refine within_ite ?_ (fun _ => ?_)
    | with_reducible refine State.setOvf_within _ ?_ ?_
    | with_reducible refine State.setReg_within _ _ ?_ ?_
    | split
    | (dsimp only)

theorem State.rptFree_within {sc r₀ s₀} (n : Nat) (hs : sub [.regs, .ecc] sc = true) (h₀ : Within sc r₀ s₀) :
    Within sc r₀ (State.rptFree n s₀) := by
  unfold State.rptFree
  repeat' first
    | with_reducible assumption
    | ((with_reducible refine sub_trans ?_ hs); exact rfl)
    | with_reducible exact trivial
    | with_reducible refine within_ite ?_ (fun _ => ?_)
    | with_reducible refine State.setFlag_within _ _ _ ?_ ?_
    | split
    | with_reducible refine Within.set_ecc ?_ ?_
    | (dsimp only)

theorem State.eccWrite_within {sc r₀ s₀} (region : Nat) (word : Nat) (hs : sub [.regs, .ecc] sc = true) (h₀ : Within sc r₀ s₀) :
    Within sc r₀ (State.eccWrite region word s₀) := by
  unfold State.eccWrite
  repeat' first
    | with_reducible assumption
    | ((with_reducible refine sub_trans ?_ hs); exact rfl)
    | with_reducible exact trivial
    | with_reducible refine within_ite ?_ (fun _ => ?_)
    | with_reducible refine State.rptFree_within _ ?_ ?_
    | split
    | with_reducible refine Within.set_ecc ?_ ?_
    | (dsimp only)

theorem State.eccTouch_within {sc r₀ s₀} (a : Nat) (n : Nat) (hs : sub [.regs, .ecc] sc = true) (h₀ : Within sc r₀ s₀) :
    Within sc r₀ (State.eccTouch a n s₀) := by
  unfold State.eccTouch
  repeat' first
    | with_reducible assumption
    | ((with_reducible refine sub_trans ?_ hs); exact rfl)
    | with_reducible exact trivial
    | with_reducible refine within_ite ?_ (fun _ => ?_)
    | with_reducible refine State.eccWrite_within _ _ ?_ ?_
    | with_reducible refine within_foldl (fun _ _ _ => ?_) ?_
    | with_reducible refine within_foldl_snd (fun _ _ _ => ?_) ?_
    | split
    | (dsimp only)

theorem State.setBytes_within {sc r₀ s₀} (a : Nat) (l : List Byte) (hs : sub [.regs, .mem, .ecc] sc = true) (h₀ : Within sc r₀ s₀) :
    Within sc r₀ (State.setBytes a l s₀) := by
  unfold State.setBytes
  repeat' first
    | with_reducible assumption
    | ((with_reducible refine sub_trans ?_ hs); exact rfl)
    | with_reducible exact trivial
    | with_reducible refine within_ite ?_ (fun _ => ?_)
    | with_reducible refine State.putBytes_within _ _ ?_ ?_
    | with_reducible refine State.eccTouch_within _ _ ?_ ?_
    | split
    | (dsimp only)

theorem State.store_within {sc r₀ s₀} (a : Nat) (n : Nat) (v : Nat) (hs : sub [.regs, .mem, .ecc] sc = true) (h₀ : Within sc r₀ s₀) :
    Within sc r₀ (State.store a n v s₀) := by
  unfold State.store
  repeat' first
    | with_reducible assumption
    | ((with_reducible refine sub_trans ?_ hs); exact rfl)
    | with_reducible exact trivial
    | with_reducible refine within_ite ?_ (fun _ => ?_)
    | with_reducible refine State.setBytes_within _ _ ?_ ?_
    | split
    | (dsimp only)

theorem State.draw_within {sc r₀ s₀}  (hs : sub [.free] sc = true) (h₀ : Within sc r₀ s₀) :
    Within sc r₀ (State.draw s₀).2 := by
  unfold State.draw
  repeat' first
    | with_reducible assumption
    | ((with_reducible refine sub_trans ?_ hs); exact rfl)
    | with_reducible exact trivial
    | with_reducible refine within_ite ?_ (fun _ => ?_)
    | with_reducible refine within_ite_snd ?_ (fun _ => ?_)
    | split
    | with_reducible refine Within.set_free ?_ ?_
    | (dsimp only)
theorem State.draw_within' {sc r₀ s₀ t} {x0}  (he : State.draw s₀ = (x0, t)) (hs : sub [.free] sc = true) (h₀ : Within sc r₀ s₀) : Within sc r₀ t := by
  have h := State.draw_within  hs h₀
  rw [he] at h
  exact h

theorem State.drawBytes_within {sc r₀ s₀} (n : Nat) (hs : sub [.free] sc = true) (h₀ : Within sc r₀ s₀) :
    Within sc r₀ (State.drawBytes s₀ n).2 := by
  unfold State.drawBytes
  repeat' first
    | with_reducible assumption
    | ((with_reducible refine sub_trans ?_ hs); exact rfl)
    | with_reducible exact trivial
    | with_reducible refine within_ite ?_ (fun _ => ?_)
    | with_reducible refine within_ite_snd ?_ (fun _ => ?_)
    | split
    | with_reducible refine Within.set_free ?_ ?_
    | (dsimp only)
theorem State.drawBytes_within' {sc r₀ s₀ t} {x0} (n : Nat) (he : State.drawBytes s₀ n = (x0, t)) (hs : sub [.free] sc = true) (h₀ : Within sc r₀ s₀) : Within sc r₀ t := by
  have h := State.drawBytes_within n hs h₀
  rw [he] at h
  exact h

theorem State.logEvent_within {sc r₀ s₀} (blk : Nat) (sev : Nat) (code : Nat) (data : List Byte) (hs : sub [.regs, .coreA, .coreB, .hif] sc = true) (h₀ : Within sc r₀ s₀) :
    Within sc r₀ (State.logEvent blk sev code data s₀) := by
  unfold State.logEvent
  repeat' first
    | with_reducible assumption
    | ((with_reducible refine sub_trans ?_ hs); exact rfl)
    | with_reducible exact trivial
    | with_reducible refine within_ite ?_ (fun _ => ?_)
    | with_reducible refine State.addCnt_within _ _ ?_ ?_
    | with_reducible refine State.setFlag_within _ _ _ ?_ ?_
    | split
    | with_reducible refine Within.set_hif ?_ ?_
    | (dsimp only)

theorem State.logFault_within {sc r₀ s₀} (blk : Nat) (code : Nat) (pre : List Byte) (hs : sub [.regs, .coreA, .coreB, .hif, .free] sc = true) (h₀ : Within sc r₀ s₀) :
    Within sc r₀ (State.logFault blk code pre s₀) := by
  unfold State.logFault
  repeat' first
    | with_reducible assumption
    | ((with_reducible refine sub_trans ?_ hs); exact rfl)
    | with_reducible exact trivial
    | with_reducible refine within_ite ?_ (fun _ => ?_)
    | with_reducible refine State.logEvent_within _ _ _ _ ?_ ?_
    | with_reducible refine State.draw_within'  ‹_› ?_ ?_
    | with_reducible refine State.draw_within ?_ ?_
    | split
    | (dsimp only)

theorem State.msixSend_within {sc r₀ s₀} (v : Nat) (hs : sub [.regs, .hif] sc = true) (h₀ : Within sc r₀ s₀) :
    Within sc r₀ (State.msixSend v s₀) := by
  unfold State.msixSend
  repeat' first
    | with_reducible assumption
    | ((with_reducible refine sub_trans ?_ hs); exact rfl)
    | with_reducible exact trivial
    | with_reducible refine within_ite ?_ (fun _ => ?_)
    | with_reducible refine State.setReg_within _ _ ?_ ?_
    | split
    | with_reducible refine Within.set_hif ?_ ?_
    | (dsimp only)

theorem State.raiseIrq_within {sc r₀ s₀} (v : Nat) (hs : sub [.regs, .hif] sc = true) (h₀ : Within sc r₀ s₀) :
    Within sc r₀ (State.raiseIrq v s₀) := by
  unfold State.raiseIrq
  repeat' first
    | with_reducible assumption
    | ((with_reducible refine sub_trans ?_ hs); exact rfl)
    | with_reducible exact trivial
    | with_reducible refine within_ite ?_ (fun _ => ?_)
    | with_reducible refine State.msixSend_within _ ?_ ?_
    | with_reducible refine State.setReg_within _ _ ?_ ?_
    | split
    | (dsimp only)

theorem State.timerEvent_within {sc r₀ s₀} (n : Nat) (hs : sub [.coreA, .coreB] sc = true) (h₀ : Within sc r₀ s₀) :
    Within sc r₀ (State.timerEvent n s₀) := by
  unfold State.timerEvent
  repeat' first
    | with_reducible assumption
    | ((with_reducible refine sub_trans ?_ hs); exact rfl)
    | with_reducible exact trivial
    | with_reducible refine within_ite ?_ (fun _ => ?_)
    | with_reducible refine State.eventAt_within _ _ _ ?_ ?_
    | split
    | (dsimp only)

theorem State.pmcCount_within {sc r₀ s₀} (k : CoreId) (code : Nat) (n : Nat) (hs : sub [.coreA, .coreB] sc = true) (h₀ : Within sc r₀ s₀) :
    Within sc r₀ (State.pmcCount k code n s₀) := by
  unfold State.pmcCount
  repeat' first
    | with_reducible assumption
    | ((with_reducible refine sub_trans ?_ hs); exact rfl)
    | with_reducible exact trivial
    | with_reducible refine within_ite ?_ (fun _ => ?_)
    | with_reducible refine State.setCore_within _ _ ?_ ?_
    | with_reducible refine within_foldl (fun _ _ _ => ?_) ?_
    | with_reducible refine within_foldl_snd (fun _ _ _ => ?_) ?_
    | split
    | (dsimp only)

theorem State.slotClass_within {sc r₀ s₀} (k : CoreId) (a : Nat) (code : Nat) (n : Nat) (hs : sub [.regs, .coreA, .coreB] sc = true) (h₀ : Within sc r₀ s₀) :
    Within sc r₀ (State.slotClass k a code n s₀) := by
  unfold State.slotClass
  repeat' first
    | with_reducible assumption
    | ((with_reducible refine sub_trans ?_ hs); exact rfl)
    | with_reducible exact trivial
    | with_reducible refine within_ite ?_ (fun _ => ?_)
    | with_reducible refine State.pmcCount_within _ _ _ ?_ ?_
    | with_reducible refine State.addCnt_within _ _ ?_ ?_
    | split
    | (dsimp only)

theorem State.slotTicks_within {sc r₀ s₀} (k : CoreId) (d : Nat) (hs : sub [.regs, .coreA, .coreB] sc = true) (h₀ : Within sc r₀ s₀) :
    Within sc r₀ (State.slotTicks k d s₀) := by
  unfold State.slotTicks
  repeat' first
    | with_reducible assumption
    | ((with_reducible refine sub_trans ?_ hs); exact rfl)
    | with_reducible exact trivial
    | with_reducible refine within_ite ?_ (fun _ => ?_)
    | with_reducible refine State.slotClass_within _ _ _ _ ?_ ?_
    | with_reducible refine State.addCnt_within _ _ ?_ ?_
    | with_reducible refine State.setCore_within _ _ ?_ ?_
    | split
    | (dsimp only)

theorem State.quietTicks_within {sc r₀ s₀} (d : Nat) (hs : sub [.coreA, .coreB] sc = true) (h₀ : Within sc r₀ s₀) :
    Within sc r₀ (State.quietTicks d s₀) := by
  unfold State.quietTicks
  repeat' first
    | with_reducible assumption
    | ((with_reducible refine sub_trans ?_ hs); exact rfl)
    | with_reducible exact trivial
    | with_reducible refine within_ite ?_ (fun _ => ?_)
    | with_reducible refine State.setCore_within _ _ ?_ ?_
    | split
    | (dsimp only)

end Sys2Proof.Laws
end

