-- ==== Sys2Proof/Laws/Operands.lean ====
section
/-! SUPPORT. The scope of each operation of Sys2Proof/Machine/Operands.lean. -/
namespace Sys2Proof.Laws
open Sys2Proof.Machine Sys2Proof.Safety

theorem State.noteLimit_within {sc r₀ s₀} (a : Nat) (bit : Nat) (hs : sub [.regs] sc = true) (h₀ : Within sc r₀ s₀) :
    Within sc r₀ (State.noteLimit a bit s₀) := by
  unfold State.noteLimit
  repeat' first
    | with_reducible assumption
    | ((with_reducible refine sub_trans ?_ hs); exact rfl)
    | with_reducible exact trivial
    | with_reducible refine within_ite ?_ (fun _ => ?_)
    | with_reducible refine State.setReg_within _ _ ?_ ?_
    | split
    | (dsimp only)

theorem State.writeFld_within {sc r₀ s₀} (a : Nat) (v : W32) (f : Fld) (hs : sub [.regs] sc = true) (h₀ : Within sc r₀ s₀) :
    Within sc r₀ (State.writeFld a v s₀ f) := by
  unfold State.writeFld
  repeat' first
    | with_reducible assumption
    | ((with_reducible refine sub_trans ?_ hs); exact rfl)
    | with_reducible exact trivial
    | with_reducible refine within_ite ?_ (fun _ => ?_)
    | with_reducible refine State.noteLimit_within _ _ ?_ ?_
    | with_reducible refine State.setFld_within _ _ _ ?_ ?_
    | with_reducible refine State.setReg_within _ _ ?_ ?_
    | split
    | with_reducible refine Within.set_regs ?_ ?_
    | (dsimp only)

theorem State.writeFields_within {sc r₀ s₀} (a : Nat) (v : W32) (fl : List Fld) (hs : sub [.regs] sc = true) (h₀ : Within sc r₀ s₀) :
    Within sc r₀ (State.writeFields a v fl s₀) := by
  unfold State.writeFields
  repeat' first
    | with_reducible assumption
    | ((with_reducible refine sub_trans ?_ hs); exact rfl)
    | with_reducible exact trivial
    | with_reducible refine within_ite ?_ (fun _ => ?_)
    | with_reducible refine State.writeFld_within _ _ _ ?_ ?_
    | with_reducible refine within_foldl (fun _ _ _ => ?_) ?_
    | with_reducible refine within_foldl_snd (fun _ _ _ => ?_) ?_
    | split
    | (dsimp only)

theorem State.applyKeys_within {sc r₀ s₀} (sel : Nat → RegFam → Bool) (l : List Nat) (hs : sub [.regs] sc = true) (h₀ : Within sc r₀ s₀) :
    Within sc r₀ (State.applyKeys sel l s₀) := by
  induction l generalizing s₀ with
  | nil => exact h₀
  | cons a l ih =>
    unfold State.applyKeys
    split
    · split
      · exact ih (State.setReg_within _ _ hs h₀)
      · exact ih h₀
    · exact ih h₀

theorem State.applySet_within {sc r₀ s₀} (sel : Nat → RegFam → Bool) (hs : sub [.regs] sc = true) (h₀ : Within sc r₀ s₀) :
    Within sc r₀ (State.applySet sel s₀) := by
  unfold State.applySet
  repeat' first
    | with_reducible assumption
    | ((with_reducible refine sub_trans ?_ hs); exact rfl)
    | with_reducible exact trivial
    | with_reducible refine within_ite ?_ (fun _ => ?_)
    | with_reducible refine State.applyKeys_within _ _ ?_ ?_
    | split
    | (dsimp only)

theorem State.applyBoundary_within {sc r₀ s₀} (b : Bnd) (c : Carrier) (hs : sub [.regs] sc = true) (h₀ : Within sc r₀ s₀) :
    Within sc r₀ (State.applyBoundary b c s₀) := by
  unfold State.applyBoundary
  repeat' first
    | with_reducible assumption
    | ((with_reducible refine sub_trans ?_ hs); exact rfl)
    | with_reducible exact trivial
    | with_reducible refine within_ite ?_ (fun _ => ?_)
    | with_reducible refine State.applySet_within _ ?_ ?_
    | split
    | (dsimp only)

theorem State.commitStaged_within {sc r₀ s₀}  (hs : sub [.regs] sc = true) (h₀ : Within sc r₀ s₀) :
    Within sc r₀ (State.commitStaged s₀) := by
  unfold State.commitStaged
  repeat' first
    | with_reducible assumption
    | ((with_reducible refine sub_trans ?_ hs); exact rfl)
    | with_reducible exact trivial
    | with_reducible refine within_ite ?_ (fun _ => ?_)
    | split
    | with_reducible refine Within.set_regs ?_ ?_
    | (dsimp only)

theorem State.revertStaged_within {sc r₀ s₀}  (hs : sub [.regs] sc = true) (h₀ : Within sc r₀ s₀) :
    Within sc r₀ (State.revertStaged s₀) := by
  unfold State.revertStaged
  repeat' first
    | with_reducible assumption
    | ((with_reducible refine sub_trans ?_ hs); exact rfl)
    | with_reducible exact trivial
    | with_reducible refine within_ite ?_ (fun _ => ?_)
    | split
    | with_reducible refine Within.set_regs ?_ ?_
    | (dsimp only)

end Sys2Proof.Laws
end

