-- ==== Sys2Proof/Laws/LogNotes.lean ====
section
/-! SUPPORT. The scope of each operation of Sys2Proof/Machine/LogNotes.lean. -/
namespace Sys2Proof.Laws
open Sys2Proof.Machine Sys2Proof.Safety

theorem State.noteTotal_within {sc r₀ s₀} (off : Nat) (n : Nat) (hs : sub [.log] sc = true) (h₀ : Within sc r₀ s₀) :
    Within sc r₀ (State.noteTotal off n s₀) := by
  unfold State.noteTotal
  repeat' first
    | with_reducible assumption
    | ((with_reducible refine sub_trans ?_ hs); exact rfl)
    | with_reducible exact trivial
    | with_reducible refine within_ite ?_ (fun _ => ?_)
    | split
    | with_reducible refine Within.set_log ?_ ?_
    | (dsimp only)

theorem State.spareUsed_within {sc r₀ s₀} (blk : Nat) (hs : sub [.log] sc = true) (h₀ : Within sc r₀ s₀) :
    Within sc r₀ (State.spareUsed blk s₀) := by
  unfold State.spareUsed
  repeat' first
    | with_reducible assumption
    | ((with_reducible refine sub_trans ?_ hs); exact rfl)
    | with_reducible exact trivial
    | with_reducible refine within_ite ?_ (fun _ => ?_)
    | with_reducible refine State.noteTotal_within _ _ ?_ ?_
    | split
    | (dsimp only)

theorem State.logShow_within {sc r₀ s₀}  (hs : sub [.regs] sc = true) (h₀ : Within sc r₀ s₀) :
    Within sc r₀ (State.logShow s₀) := by
  unfold State.logShow
  repeat' first
    | with_reducible assumption
    | ((with_reducible refine sub_trans ?_ hs); exact rfl)
    | with_reducible exact trivial
    | with_reducible refine within_ite ?_ (fun _ => ?_)
    | with_reducible refine State.setFld_within _ _ _ ?_ ?_
    | split
    | (dsimp only)

theorem State.logStage_within {sc r₀ s₀} (kind : Nat) (payload : List Byte) (hs : sub [.regs, .coreA, .coreB, .hif, .log] sc = true) (h₀ : Within sc r₀ s₀) :
    Within sc r₀ (State.logStage kind payload s₀) := by
  unfold State.logStage
  repeat' first
    | with_reducible assumption
    | ((with_reducible refine sub_trans ?_ hs); exact rfl)
    | with_reducible exact trivial
    | with_reducible refine within_ite ?_ (fun _ => ?_)
    | with_reducible refine State.logShow_within ?_ ?_
    | with_reducible refine State.noteTotal_within _ _ ?_ ?_
    | with_reducible refine State.logEvent_within _ _ _ _ ?_ ?_
    | with_reducible refine State.addCnt_within _ _ ?_ ?_
    | with_reducible refine State.setFlag_within _ _ _ ?_ ?_
    | split
    | with_reducible refine Within.set_log ?_ ?_
    | (dsimp only)

end Sys2Proof.Laws
end

