-- ==== Sys2Proof/Laws/Ecc.lean ====
section
/-! SUPPORT. The scope of each operation of Sys2Proof/Machine/Ecc.lean. -/
namespace Sys2Proof.Laws
open Sys2Proof.Machine Sys2Proof.Safety

theorem State.eccUncorr_within {sc r₀ s₀} (region : Nat) (word : Nat) (hs : sub [.regs, .coreA, .coreB, .hif, .free] sc = true) (h₀ : Within sc r₀ s₀) :
    Within sc r₀ (State.eccUncorr region word s₀) := by
  unfold State.eccUncorr
  repeat' first
    | with_reducible assumption
    | ((with_reducible refine sub_trans ?_ hs); exact rfl)
    | with_reducible exact trivial
    | with_reducible refine within_ite ?_ (fun _ => ?_)
    | with_reducible refine State.logFault_within _ _ _ ?_ ?_
    | with_reducible refine State.addCnt_within _ _ ?_ ?_
    | with_reducible refine State.setFlag_within _ _ _ ?_ ?_
    | with_reducible refine State.setFld_within _ _ _ ?_ ?_
    | with_reducible refine State.setReg_within _ _ ?_ ?_
    | split
    | (dsimp only)

theorem State.eccRepair_within {sc r₀ s₀} (region : Nat) (word : Nat) (hs : sub [.regs, .coreA, .coreB, .hif, .free, .log, .ecc] sc = true) (h₀ : Within sc r₀ s₀) :
    Within sc r₀ (State.eccRepair region word s₀) := by
  unfold State.eccRepair
  repeat' first
    | with_reducible assumption
    | ((with_reducible refine sub_trans ?_ hs); exact rfl)
    | with_reducible exact trivial
    | with_reducible refine within_ite ?_ (fun _ => ?_)
    | with_reducible refine State.logStage_within _ _ ?_ ?_
    | with_reducible refine State.drawBytes_within' _  ‹_› ?_ ?_
    | with_reducible refine State.drawBytes_within _ ?_ ?_
    | split
    | with_reducible refine Within.set_ecc ?_ ?_
    | (dsimp only)

theorem State.eccHard_within {sc r₀ s₀} (region : Nat) (word : Nat) (hs : sub [.regs, .coreA, .coreB, .hif, .free, .log, .ecc] sc = true) (h₀ : Within sc r₀ s₀) :
    Within sc r₀ (State.eccHard region word s₀) := by
  unfold State.eccHard
  repeat' first
    | with_reducible assumption
    | ((with_reducible refine sub_trans ?_ hs); exact rfl)
    | with_reducible exact trivial
    | with_reducible refine within_ite ?_ (fun _ => ?_)
    | with_reducible refine State.eccRepair_within _ _ ?_ ?_
    | with_reducible refine State.noteTotal_within _ _ ?_ ?_
    | with_reducible refine State.logEvent_within _ _ _ _ ?_ ?_
    | with_reducible refine State.addCnt_within _ _ ?_ ?_
    | with_reducible refine State.setFlag_within _ _ _ ?_ ?_
    | split
    | (dsimp only)

theorem State.rptTouch_within {sc r₀ s₀} (n : Nat) (hs : sub [.ecc] sc = true) (h₀ : Within sc r₀ s₀) :
    Within sc r₀ (State.rptTouch n s₀) := by
  unfold State.rptTouch
  repeat' first
    | with_reducible assumption
    | ((with_reducible refine sub_trans ?_ hs); exact rfl)
    | with_reducible exact trivial
    | with_reducible refine within_ite ?_ (fun _ => ?_)
    | split
    | with_reducible refine Within.set_ecc ?_ ?_
    | (dsimp only)

theorem State.rptNew_within {sc r₀ s₀} (region : Nat) (word : Nat) (count : Nat) (hs : sub [.regs, .ecc] sc = true) (h₀ : Within sc r₀ s₀) :
    Within sc r₀ (State.rptNew region word count s₀).2 := by
  unfold State.rptNew
  repeat' first
    | with_reducible assumption
    | ((with_reducible refine sub_trans ?_ hs); exact rfl)
    | with_reducible exact trivial
    | with_reducible refine within_ite ?_ (fun _ => ?_)
    | with_reducible refine within_ite_snd ?_ (fun _ => ?_)
    | with_reducible refine State.rptTouch_within _ ?_ ?_
    | with_reducible refine State.setFlag_within _ _ _ ?_ ?_
    | with_reducible refine State.setFld_within _ _ _ ?_ ?_
    | with_reducible refine State.setReg_within _ _ ?_ ?_
    | with_reducible refine within_foldl (fun _ _ _ => ?_) ?_
    | with_reducible refine within_foldl_snd (fun _ _ _ => ?_) ?_
    | split
    | (dsimp only)
theorem State.rptNew_within' {sc r₀ s₀ t} {x0} (region : Nat) (word : Nat) (count : Nat) (he : State.rptNew region word count s₀ = (x0, t)) (hs : sub [.regs, .ecc] sc = true) (h₀ : Within sc r₀ s₀) : Within sc r₀ t := by
  have h := State.rptNew_within region word count hs h₀
  rw [he] at h
  exact h

theorem State.rptPersist_within {sc r₀ s₀} (old : Nat) (new : Nat) (hs : sub [.regs, .coreA, .coreB, .hif] sc = true) (h₀ : Within sc r₀ s₀) :
    Within sc r₀ (State.rptPersist old new s₀) := by
  unfold State.rptPersist
  repeat' first
    | with_reducible assumption
    | ((with_reducible refine sub_trans ?_ hs); exact rfl)
    | with_reducible exact trivial
    | with_reducible refine within_ite ?_ (fun _ => ?_)
    | with_reducible refine State.logEvent_within _ _ _ _ ?_ ?_
    | with_reducible refine State.addCnt_within _ _ ?_ ?_
    | with_reducible refine State.setFlag_within _ _ _ ?_ ?_
    | split
    | (dsimp only)

theorem State.eccCorrected_within {sc r₀ s₀} (region : Nat) (word : Nat) (hs : sub [.regs, .coreA, .coreB, .hif, .free, .log, .ecc] sc = true) (h₀ : Within sc r₀ s₀) :
    Within sc r₀ (State.eccCorrected region word s₀) := by
  unfold State.eccCorrected
  repeat' first
    | with_reducible assumption
    | ((with_reducible refine sub_trans ?_ hs); exact rfl)
    | with_reducible exact trivial
    | with_reducible refine within_ite ?_ (fun _ => ?_)
    | with_reducible refine State.rptPersist_within _ _ ?_ ?_
    | with_reducible refine State.rptNew_within' _ _ _  ‹_› ?_ ?_
    | with_reducible refine State.rptNew_within _ _ _ ?_ ?_
    | with_reducible refine State.rptTouch_within _ ?_ ?_
    | with_reducible refine State.eccHard_within _ _ ?_ ?_
    | with_reducible refine State.addCnt_within _ _ ?_ ?_
    | with_reducible refine State.setFld_within _ _ _ ?_ ?_
    | split
    | (dsimp only)

theorem State.eccRead_within {sc r₀ s₀} (a : Nat) (n : Nat) (hs : sub [.regs, .coreA, .coreB, .hif, .free, .log, .ecc] sc = true) (h₀ : Within sc r₀ s₀) :
    Within sc r₀ (State.eccRead a n s₀).2 := by
  unfold State.eccRead
  repeat' first
    | with_reducible assumption
    | ((with_reducible refine sub_trans ?_ hs); exact rfl)
    | with_reducible exact trivial
    | with_reducible refine within_ite ?_ (fun _ => ?_)
    | with_reducible refine within_ite_snd ?_ (fun _ => ?_)
    | with_reducible refine State.eccCorrected_within _ _ ?_ ?_
    | with_reducible refine State.eccUncorr_within _ _ ?_ ?_
    | with_reducible refine within_foldl (fun _ _ _ => ?_) ?_
    | with_reducible refine within_foldl_snd (fun _ _ _ => ?_) ?_
    | split
    | (dsimp only)
theorem State.eccRead_within' {sc r₀ s₀ t} {x0} (a : Nat) (n : Nat) (he : State.eccRead a n s₀ = (x0, t)) (hs : sub [.regs, .coreA, .coreB, .hif, .free, .log, .ecc] sc = true) (h₀ : Within sc r₀ s₀) : Within sc r₀ t := by
  have h := State.eccRead_within a n hs h₀
  rw [he] at h
  exact h

theorem State.bootRepair_within {sc r₀ s₀}  (hs : sub [.regs, .coreA, .coreB, .hif, .ecc] sc = true) (h₀ : Within sc r₀ s₀) :
    Within sc r₀ (State.bootRepair s₀) := by
  unfold State.bootRepair
  repeat' first
    | with_reducible assumption
    | ((with_reducible refine sub_trans ?_ hs); exact rfl)
    | with_reducible exact trivial
    | with_reducible refine within_ite ?_ (fun _ => ?_)
    | with_reducible refine State.logEvent_within _ _ _ _ ?_ ?_
    | with_reducible refine State.setFlag_within _ _ _ ?_ ?_
    | with_reducible refine State.setFld_within _ _ _ ?_ ?_
    | with_reducible refine within_foldl (fun _ _ _ => ?_) ?_
    | with_reducible refine within_foldl_snd (fun _ _ _ => ?_) ?_
    | split
    | with_reducible refine Within.set_ecc ?_ ?_
    | (dsimp only)

theorem State.coreRepair_within {sc r₀ s₀} (k : CoreId) (hs : sub [.ecc] sc = true) (h₀ : Within sc r₀ s₀) :
    Within sc r₀ (State.coreRepair k s₀) := by
  unfold State.coreRepair
  repeat' first
    | with_reducible assumption
    | ((with_reducible refine sub_trans ?_ hs); exact rfl)
    | with_reducible exact trivial
    | with_reducible refine within_ite ?_ (fun _ => ?_)
    | with_reducible refine within_foldl (fun _ _ _ => ?_) ?_
    | with_reducible refine within_foldl_snd (fun _ _ _ => ?_) ?_
    | split
    | with_reducible refine Within.set_ecc ?_ ?_
    | (dsimp only)

end Sys2Proof.Laws
end

