-- ==== Sys2Proof/Laws/Queue.lean ====
section
/-! SUPPORT. The scope of each operation of Sys2Proof/Machine/Queue.lean. -/
namespace Sys2Proof.Laws
open Sys2Proof.Machine Sys2Proof.Safety

theorem State.touchLine_within {sc r₀ s₀} (k : CoreId) (line : Nat) (hs : sub [.hws] sc = true) (h₀ : Within sc r₀ s₀) :
    Within sc r₀ (State.touchLine k line s₀) := by
  unfold State.touchLine
  repeat' first
    | with_reducible assumption
    | ((with_reducible refine sub_trans ?_ hs); exact rfl)
    | with_reducible exact trivial
    | with_reducible refine within_ite ?_ (fun _ => ?_)
    | split
    | with_reducible refine Within.set_hws ?_ ?_
    | (dsimp only)

theorem State.coreStore_within {sc r₀ s₀} (k : CoreId) (a : Nat) (n : Nat) (v : Nat) (hs : sub [.regs, .mem, .hws, .ecc] sc = true) (h₀ : Within sc r₀ s₀) :
    Within sc r₀ (State.coreStore k a n v s₀) := by
  unfold State.coreStore
  repeat' first
    | with_reducible assumption
    | ((with_reducible refine sub_trans ?_ hs); exact rfl)
    | with_reducible exact trivial
    | with_reducible refine within_ite ?_ (fun _ => ?_)
    | with_reducible refine State.touchLine_within _ _ ?_ ?_
    | with_reducible refine State.store_within _ _ _ ?_ ?_
    | split
    | (dsimp only)

theorem State.setQueue_within {sc r₀ s₀} (q : Fin 64) (x : Queue) (hs : sub [.qc] sc = true) (h₀ : Within sc r₀ s₀) :
    Within sc r₀ (State.setQueue q x s₀) := by
  unfold State.setQueue
  repeat' first
    | with_reducible assumption
    | ((with_reducible refine sub_trans ?_ hs); exact rfl)
    | with_reducible exact trivial
    | with_reducible refine within_ite ?_ (fun _ => ?_)
    | split
    | with_reducible refine Within.set_qc ?_ ?_
    | (dsimp only)

theorem State.writeRecord_within {sc r₀ s₀} (q : Fin 64) (e : QEntry) (status : Nat) (r0 : Nat) (r1 : Nat) (hs : sub [.regs, .mem, .hws, .ecc] sc = true) (h₀ : Within sc r₀ s₀) :
    Within sc r₀ (State.writeRecord q e status r0 r1 s₀) := by
  unfold State.writeRecord
  repeat' first
    | with_reducible assumption
    | ((with_reducible refine sub_trans ?_ hs); exact rfl)
    | with_reducible exact trivial
    | with_reducible refine within_ite ?_ (fun _ => ?_)
    | with_reducible refine State.coreStore_within _ _ _ _ ?_ ?_
    | split
    | (dsimp only)

theorem State.completeRaw_within {sc r₀ s₀} (q : Fin 64) (e : QEntry) (status : Nat) (r0 : Nat) (r1 : Nat) (hs : sub [.regs, .mem, .coreA, .coreB, .qc, .hws, .ecc] sc = true) (h₀ : Within sc r₀ s₀) :
    Within sc r₀ (State.completeRaw q e status r0 r1 s₀) := by
  unfold State.completeRaw
  repeat' first
    | with_reducible assumption
    | ((with_reducible refine sub_trans ?_ hs); exact rfl)
    | with_reducible exact trivial
    | with_reducible refine within_ite ?_ (fun _ => ?_)
    | with_reducible refine State.writeRecord_within _ _ _ _ _ ?_ ?_
    | with_reducible refine State.setQueue_within _ _ ?_ ?_
    | with_reducible refine State.eventAt_within _ _ _ ?_ ?_
    | split
    | (dsimp only)

theorem State.settleOnce_within' {sc r₀ s₀ t}  (q : Fin 64) (he : State.settleOnce q s₀ = some t) (hs : sub [.regs, .mem, .coreA, .coreB, .qc, .hws, .hif, .free, .ecc] sc = true) (h₀ : Within sc r₀ s₀) : Within sc r₀ t := by
  unfold State.settleOnce at he
  try dsimp only at he
  repeat' first
    | with_reducible assumption
    | ((with_reducible refine sub_trans ?_ hs); exact rfl)
    | (cases he)
    | split at he
    | with_reducible refine within_ite ?_ (fun _ => ?_)
    | with_reducible refine State.completeRaw_within _ _ _ _ _ ?_ ?_
    | with_reducible refine State.eccUncorr_within _ _ ?_ ?_
    | split

theorem State.settleFuel_within {sc r₀ s₀} (q : Fin 64) (n : Nat) (hs : sub [.regs, .mem, .coreA, .coreB, .qc, .hws, .hif, .free, .ecc] sc = true) (h₀ : Within sc r₀ s₀) :
    Within sc r₀ (State.settleFuel q n s₀) := by
  induction n generalizing s₀ with
  | zero => exact h₀
  | succ n ih =>
    unfold State.settleFuel
    split
    · exact ih (State.settleOnce_within' _ ‹_› hs h₀)
    · exact h₀

theorem State.settle_within {sc r₀ s₀} (q : Fin 64) (hs : sub [.regs, .mem, .coreA, .coreB, .qc, .hws, .hif, .free, .ecc] sc = true) (h₀ : Within sc r₀ s₀) :
    Within sc r₀ (State.settle q s₀) := by
  unfold State.settle
  repeat' first
    | with_reducible assumption
    | ((with_reducible refine sub_trans ?_ hs); exact rfl)
    | with_reducible exact trivial
    | with_reducible refine within_ite ?_ (fun _ => ?_)
    | with_reducible refine State.settleFuel_within _ _ ?_ ?_
    | split
    | (dsimp only)

theorem State.retireAt_within {sc r₀ s₀} (k : CoreId) (pc : W64) (hs : sub [.coreA, .coreB] sc = true) (h₀ : Within sc r₀ s₀) :
    Within sc r₀ (State.retireAt k pc s₀) := by
  unfold State.retireAt
  repeat' first
    | with_reducible assumption
    | ((with_reducible refine sub_trans ?_ hs); exact rfl)
    | with_reducible exact trivial
    | with_reducible refine within_ite ?_ (fun _ => ?_)
    | with_reducible refine State.pmcCount_within _ _ _ ?_ ?_
    | with_reducible refine State.modCore_within _ _ ?_ ?_
    | split
    | (dsimp only)

theorem State.retire_within {sc r₀ s₀} (k : CoreId) (hs : sub [.coreA, .coreB] sc = true) (h₀ : Within sc r₀ s₀) :
    Within sc r₀ (State.retire k s₀) := by
  unfold State.retire
  repeat' first
    | with_reducible assumption
    | ((with_reducible refine sub_trans ?_ hs); exact rfl)
    | with_reducible exact trivial
    | with_reducible refine within_ite ?_ (fun _ => ?_)
    | with_reducible refine State.retireAt_within _ _ ?_ ?_
    | split
    | (dsimp only)

theorem State.releaseFence_within {sc r₀ s₀} (k : CoreId) (hs : sub [.coreA, .coreB] sc = true) (h₀ : Within sc r₀ s₀) :
    Within sc r₀ (State.releaseFence k s₀) := by
  unfold State.releaseFence
  repeat' first
    | with_reducible assumption
    | ((with_reducible refine sub_trans ?_ hs); exact rfl)
    | with_reducible exact trivial
    | with_reducible refine within_ite ?_ (fun _ => ?_)
    | with_reducible refine State.retire_within _ ?_ ?_
    | split
    | (dsimp only)

theorem State.startEntry_within {sc r₀ s₀} (t : W32) (hs : sub [.qc] sc = true) (h₀ : Within sc r₀ s₀) :
    Within sc r₀ (State.startEntry t s₀) := by
  unfold State.startEntry
  repeat' first
    | with_reducible assumption
    | ((with_reducible refine sub_trans ?_ hs); exact rfl)
    | with_reducible exact trivial
    | with_reducible refine within_ite ?_ (fun _ => ?_)
    | with_reducible refine State.setQueue_within _ _ ?_ ?_
    | split
    | (dsimp only)

theorem State.armBoundary_within {sc r₀ s₀} (q : Fin 64) (hs : sub [.regs, .mem, .coreA, .coreB, .qc, .hws, .hif, .free, .ecc] sc = true) (h₀ : Within sc r₀ s₀) :
    Within sc r₀ (State.armBoundary q s₀) := by
  unfold State.armBoundary
  repeat' first
    | with_reducible assumption
    | ((with_reducible refine sub_trans ?_ hs); exact rfl)
    | with_reducible exact trivial
    | with_reducible refine within_ite ?_ (fun _ => ?_)
    | with_reducible refine State.settle_within _ ?_ ?_
    | with_reducible refine State.setQueue_within _ _ ?_ ?_
    | split
    | (dsimp only)

end Sys2Proof.Laws
end

