-- ==== Sys2Proof/Laws/Power.lean ====
section
/-! SUPPORT. The scope of each operation of Sys2Proof/Machine/Power.lean. -/
namespace Sys2Proof.Laws
open Sys2Proof.Machine Sys2Proof.Safety

theorem State.modDom_within {sc r₀ s₀} (d : Nat) (f : PwrDom → PwrDom) (hs : sub [.pwr] sc = true) (h₀ : Within sc r₀ s₀) :
    Within sc r₀ (State.modDom d f s₀) := by
  unfold State.modDom
  repeat' first
    | with_reducible assumption
    | ((with_reducible refine sub_trans ?_ hs); exact rfl)
    | with_reducible exact trivial
    | with_reducible refine within_ite ?_ (fun _ => ?_)
    | split
    | with_reducible refine Within.set_pwr ?_ ?_
    | (dsimp only)

theorem State.noteRefuse_within {sc r₀ s₀} (d : Nat) (blk : Nat) (reason : Nat) (hs : sub [.regs, .coreA, .coreB, .log] sc = true) (h₀ : Within sc r₀ s₀) :
    Within sc r₀ (State.noteRefuse d blk reason s₀) := by
  unfold State.noteRefuse
  repeat' first
    | with_reducible assumption
    | ((with_reducible refine sub_trans ?_ hs); exact rfl)
    | with_reducible exact trivial
    | with_reducible refine within_ite ?_ (fun _ => ?_)
    | with_reducible refine State.noteTotal_within _ _ ?_ ?_
    | with_reducible refine State.addCnt_within _ _ ?_ ?_
    | with_reducible refine State.setFlag_within _ _ _ ?_ ?_
    | with_reducible refine State.setFld_within _ _ _ ?_ ?_
    | split
    | (dsimp only)

theorem State.abortEntry_within {sc r₀ s₀} (d : Nat) (blk : Nat) (reason : Nat) (hs : sub [.regs, .mem, .coreA, .coreB, .qc, .hws, .hif, .pwr, .free, .log, .ecc] sc = true) (h₀ : Within sc r₀ s₀) :
    Within sc r₀ (State.abortEntry d blk reason s₀) := by
  unfold State.abortEntry
  repeat' first
    | with_reducible assumption
    | ((with_reducible refine sub_trans ?_ hs); exact rfl)
    | with_reducible exact trivial
    | with_reducible refine within_ite ?_ (fun _ => ?_)
    | with_reducible refine State.modDom_within _ _ ?_ ?_
    | with_reducible refine State.settle_within _ ?_ ?_
    | with_reducible refine State.completeRaw_within _ _ _ _ _ ?_ ?_
    | with_reducible refine State.noteTotal_within _ _ ?_ ?_
    | with_reducible refine State.addCnt_within _ _ ?_ ?_
    | with_reducible refine State.setFlag_within _ _ _ ?_ ?_
    | with_reducible refine State.setFld_within _ _ _ ?_ ?_
    | split
    | (dsimp only)

theorem State.startWake_within {sc r₀ s₀} (d : Nat) (hs : sub [.regs] sc = true) (h₀ : Within sc r₀ s₀) :
    Within sc r₀ (State.startWake d s₀) := by
  unfold State.startWake
  repeat' first
    | with_reducible assumption
    | ((with_reducible refine sub_trans ?_ hs); exact rfl)
    | with_reducible exact trivial
    | with_reducible refine within_ite ?_ (fun _ => ?_)
    | with_reducible refine State.setFld_within _ _ _ ?_ ?_
    | split
    | (dsimp only)

theorem State.wakeEvent_within {sc r₀ s₀} (d : Nat) (level : Bool) (blk : Nat) (reason : Nat) (hs : sub [.regs, .mem, .coreA, .coreB, .qc, .hws, .hif, .pwr, .free, .log, .ecc] sc = true) (h₀ : Within sc r₀ s₀) :
    Within sc r₀ (State.wakeEvent d level blk reason s₀) := by
  unfold State.wakeEvent
  repeat' first
    | with_reducible assumption
    | ((with_reducible refine sub_trans ?_ hs); exact rfl)
    | with_reducible exact trivial
    | with_reducible refine within_ite ?_ (fun _ => ?_)
    | with_reducible refine State.startWake_within _ ?_ ?_
    | with_reducible refine State.abortEntry_within _ _ _ ?_ ?_
    | with_reducible refine State.modDom_within _ _ ?_ ?_
    | split
    | (dsimp only)

theorem State.accessTouch_within {sc r₀ s₀} (d : Nat) (blk : Nat) (hs : sub [.regs, .mem, .coreA, .coreB, .qc, .hws, .hif, .pwr, .free, .log, .ecc] sc = true) (h₀ : Within sc r₀ s₀) :
    Within sc r₀ (State.accessTouch d blk s₀) := by
  unfold State.accessTouch
  repeat' first
    | with_reducible assumption
    | ((with_reducible refine sub_trans ?_ hs); exact rfl)
    | with_reducible exact trivial
    | with_reducible refine within_ite ?_ (fun _ => ?_)
    | with_reducible refine State.abortEntry_within _ _ _ ?_ ?_
    | split
    | (dsimp only)

theorem State.parkedAccess_within {sc r₀ s₀} (d : Nat) (blk : Nat) (who : Option CoreId) (write : Bool) (hs : sub [.regs, .coreA, .coreB, .hif, .pwr] sc = true) (h₀ : Within sc r₀ s₀) :
    Within sc r₀ (State.parkedAccess d blk who write s₀) := by
  unfold State.parkedAccess
  repeat' first
    | with_reducible assumption
    | ((with_reducible refine sub_trans ?_ hs); exact rfl)
    | with_reducible exact trivial
    | with_reducible refine within_ite ?_ (fun _ => ?_)
    | with_reducible refine State.logEvent_within _ _ _ _ ?_ ?_
    | with_reducible refine State.addCnt_within _ _ ?_ ?_
    | with_reducible refine State.setFlag_within _ _ _ ?_ ?_
    | with_reducible refine State.setFld_within _ _ _ ?_ ?_
    | split
    | with_reducible refine Within.set_pwr ?_ ?_
    | (dsimp only)

theorem State.accept_within {sc r₀ s₀} (k : CoreId) (q : Fin 64) (d : Desc) (hs : sub [.regs, .mem, .coreA, .coreB, .qc, .hws, .hif, .pwr, .free, .log, .ecc] sc = true) (h₀ : Within sc r₀ s₀) :
    Within sc r₀ (State.accept k q d s₀).2 := by
  unfold State.accept
  repeat' first
    | with_reducible assumption
    | ((with_reducible refine sub_trans ?_ hs); exact rfl)
    | with_reducible exact trivial
    | with_reducible refine within_ite ?_ (fun _ => ?_)
    | with_reducible refine within_ite_snd ?_ (fun _ => ?_)
    | with_reducible refine State.wakeEvent_within _ _ _ _ ?_ ?_
    | with_reducible refine State.noteRefuse_within _ _ _ ?_ ?_
    | with_reducible refine State.settle_within _ ?_ ?_
    | with_reducible refine State.setQueue_within _ _ ?_ ?_
    | with_reducible refine State.addCnt_within _ _ ?_ ?_
    | split
    | (dsimp only)
theorem State.accept_within' {sc r₀ s₀ t} {x0} (k : CoreId) (q : Fin 64) (d : Desc) (he : State.accept k q d s₀ = (x0, t)) (hs : sub [.regs, .mem, .coreA, .coreB, .qc, .hws, .hif, .pwr, .free, .log, .ecc] sc = true) (h₀ : Within sc r₀ s₀) : Within sc r₀ t := by
  have h := State.accept_within k q d hs h₀
  rw [he] at h
  exact h

theorem State.releaseSend_within {sc r₀ s₀} (k : CoreId) (hs : sub [.regs, .mem, .coreA, .coreB, .qc, .hws, .hif, .pwr, .free, .log, .ecc] sc = true) (h₀ : Within sc r₀ s₀) :
    Within sc r₀ (State.releaseSend k s₀) := by
  unfold State.releaseSend
  repeat' first
    | with_reducible assumption
    | ((with_reducible refine sub_trans ?_ hs); exact rfl)
    | with_reducible exact trivial
    | with_reducible refine within_ite ?_ (fun _ => ?_)
    | with_reducible refine State.accept_within' _ _ _  ‹_› ?_ ?_
    | with_reducible refine State.accept_within _ _ _ ?_ ?_
    | with_reducible refine State.retire_within _ ?_ ?_
    | with_reducible refine State.pmcCount_within _ _ _ ?_ ?_
    | with_reducible refine State.modCore_within _ _ ?_ ?_
    | split
    | (dsimp only)

theorem State.releaseWaiters_within {sc r₀ s₀}  (hs : sub [.regs, .mem, .coreA, .coreB, .qc, .hws, .hif, .pwr, .free, .log, .ecc] sc = true) (h₀ : Within sc r₀ s₀) :
    Within sc r₀ (State.releaseWaiters s₀) := by
  unfold State.releaseWaiters
  repeat' first
    | with_reducible assumption
    | ((with_reducible refine sub_trans ?_ hs); exact rfl)
    | with_reducible exact trivial
    | with_reducible refine within_ite ?_ (fun _ => ?_)
    | with_reducible refine State.releaseSend_within _ ?_ ?_
    | with_reducible refine State.releaseFence_within _ ?_ ?_
    | split
    | (dsimp only)

theorem State.complete_within {sc r₀ s₀} (e : QEntry) (status : Nat) (r0 : Nat) (r1 : Nat) (hs : sub [.regs, .mem, .coreA, .coreB, .qc, .hws, .hif, .pwr, .free, .log, .ecc] sc = true) (h₀ : Within sc r₀ s₀) :
    Within sc r₀ (State.complete e status r0 r1 s₀) := by
  unfold State.complete
  repeat' first
    | with_reducible assumption
    | ((with_reducible refine sub_trans ?_ hs); exact rfl)
    | with_reducible exact trivial
    | with_reducible refine within_ite ?_ (fun _ => ?_)
    | with_reducible refine State.releaseWaiters_within ?_ ?_
    | with_reducible refine State.settle_within _ ?_ ?_
    | with_reducible refine State.completeRaw_within _ _ _ _ _ ?_ ?_
    | split
    | (dsimp only)

theorem State.endTicket_within {sc r₀ s₀} (t : W32) (status : Nat) (r0 : Nat) (r1 : Nat) (hs : sub [.regs, .mem, .coreA, .coreB, .qc, .hws, .hif, .pwr, .free, .log, .ecc] sc = true) (h₀ : Within sc r₀ s₀) :
    Within sc r₀ (State.endTicket t status r0 r1 s₀) := by
  unfold State.endTicket
  repeat' first
    | with_reducible assumption
    | ((with_reducible refine sub_trans ?_ hs); exact rfl)
    | with_reducible exact trivial
    | with_reducible refine within_ite ?_ (fun _ => ?_)
    | with_reducible refine State.complete_within _ _ _ _ ?_ ?_
    | split
    | (dsimp only)

theorem State.completeOp_within {sc r₀ s₀} (q : Fin 64) (op : Nat) (status : Nat) (r0 : Nat) (r1 : Nat) (hs : sub [.regs, .mem, .coreA, .coreB, .qc, .hws, .hif, .pwr, .free, .log, .ecc] sc = true) (h₀ : Within sc r₀ s₀) :
    Within sc r₀ (State.completeOp q op status r0 r1 s₀) := by
  unfold State.completeOp
  repeat' first
    | with_reducible assumption
    | ((with_reducible refine sub_trans ?_ hs); exact rfl)
    | with_reducible exact trivial
    | with_reducible refine within_ite ?_ (fun _ => ?_)
    | with_reducible refine State.complete_within _ _ _ _ ?_ ?_
    | split
    | (dsimp only)

theorem State.runCommand_within {sc r₀ s₀} (q : Fin 64) (op : Nat) (run : Desc → State → Option (Nat × Nat × Nat) × State)
    (hr : ∀ d s, Within sc r₀ s → Within sc r₀ (run d s).2) (hs : sub [.regs, .mem, .coreA, .coreB, .qc, .hws, .hif, .pwr, .free, .log, .ecc] sc = true) (h₀ : Within sc r₀ s₀) :
    Within sc r₀ (State.runCommand q op run s₀) := by
  unfold State.runCommand
  split
  · exact h₀
  · rename_i e he
    have h := hr e.desc _ (State.startEntry_within e.ticket (sub_trans rfl hs) h₀)
    split <;> rename_i heq <;> rw [heq] at h
    · exact State.releaseWaiters_within (sub_trans rfl hs) (State.settle_within _ (sub_trans rfl hs) h)
    · exact State.complete_within _ _ _ _ (sub_trans rfl hs) h

end Sys2Proof.Laws
end

