-- ==== Sys2Proof/Laws/RxOps.lean ====
section
/-! SUPPORT. The scope of each operation of Sys2Proof/Machine/RxOps.lean. -/
namespace Sys2Proof.Laws
open Sys2Proof.Machine Sys2Proof.Safety

theorem State.setRx_within {sc r₀ s₀} (c : Carrier) (x : RxState) (hs : sub [.rxA, .rxB] sc = true) (h₀ : Within sc r₀ s₀) :
    Within sc r₀ (State.setRx c x s₀) := by
  unfold State.setRx
  repeat' first
    | with_reducible assumption
    | ((with_reducible refine sub_trans ?_ hs); exact rfl)
    | with_reducible exact trivial
    | with_reducible refine within_ite ?_ (fun _ => ?_)
    | split
    | with_reducible refine Within.set_rxA ?_ ?_
    | with_reducible refine Within.set_rxB ?_ ?_
    | (dsimp only)

theorem State.setTx_within {sc r₀ s₀} (c : Carrier) (x : TxState) (hs : sub [.txA, .txB] sc = true) (h₀ : Within sc r₀ s₀) :
    Within sc r₀ (State.setTx c x s₀) := by
  unfold State.setTx
  repeat' first
    | with_reducible assumption
    | ((with_reducible refine sub_trans ?_ hs); exact rfl)
    | with_reducible exact trivial
    | with_reducible refine within_ite ?_ (fun _ => ?_)
    | split
    | with_reducible refine Within.set_txA ?_ ?_
    | with_reducible refine Within.set_txB ?_ ?_
    | (dsimp only)

theorem State.setEq_within {sc r₀ s₀} (c : Carrier) (x : EqState) (hs : sub [.eqA, .eqB] sc = true) (h₀ : Within sc r₀ s₀) :
    Within sc r₀ (State.setEq c x s₀) := by
  unfold State.setEq
  repeat' first
    | with_reducible assumption
    | ((with_reducible refine sub_trans ?_ hs); exact rfl)
    | with_reducible exact trivial
    | with_reducible refine within_ite ?_ (fun _ => ?_)
    | split
    | with_reducible refine Within.set_eqA ?_ ?_
    | with_reducible refine Within.set_eqB ?_ ?_
    | (dsimp only)

theorem State.setCr_within {sc r₀ s₀} (c : Carrier) (x : CrState) (hs : sub [.crA, .crB] sc = true) (h₀ : Within sc r₀ s₀) :
    Within sc r₀ (State.setCr c x s₀) := by
  unfold State.setCr
  repeat' first
    | with_reducible assumption
    | ((with_reducible refine sub_trans ?_ hs); exact rfl)
    | with_reducible exact trivial
    | with_reducible refine within_ite ?_ (fun _ => ?_)
    | split
    | with_reducible refine Within.set_crA ?_ ?_
    | with_reducible refine Within.set_crB ?_ ?_
    | (dsimp only)

theorem State.setFec_within {sc r₀ s₀} (c : Carrier) (x : FecState) (hs : sub [.fecA, .fecB] sc = true) (h₀ : Within sc r₀ s₀) :
    Within sc r₀ (State.setFec c x s₀) := by
  unfold State.setFec
  repeat' first
    | with_reducible assumption
    | ((with_reducible refine sub_trans ?_ hs); exact rfl)
    | with_reducible exact trivial
    | with_reducible refine within_ite ?_ (fun _ => ?_)
    | split
    | with_reducible refine Within.set_fecA ?_ ?_
    | with_reducible refine Within.set_fecB ?_ ?_
    | (dsimp only)

theorem State.logOpen_within {sc r₀ s₀} (blk : Nat) (sev : Nat) (hs : sub [.regs, .coreA, .coreB, .hif, .free] sc = true) (h₀ : Within sc r₀ s₀) :
    Within sc r₀ (State.logOpen blk sev s₀) := by
  unfold State.logOpen
  repeat' first
    | with_reducible assumption
    | ((with_reducible refine sub_trans ?_ hs); exact rfl)
    | with_reducible exact trivial
    | with_reducible refine within_ite ?_ (fun _ => ?_)
    | with_reducible refine State.logEvent_within _ _ _ _ ?_ ?_
    | with_reducible refine State.draw_within'  ‹_› ?_ ?_
    | with_reducible refine State.draw_within ?_ ?_
    | split
    | (dsimp only)

theorem State.setRole_within {sc r₀ s₀} (a : Nat) (i : Nat) (r : Nat) (hs : sub [.regs] sc = true) (h₀ : Within sc r₀ s₀) :
    Within sc r₀ (State.setRole a i r s₀) := by
  unfold State.setRole
  repeat' first
    | with_reducible assumption
    | ((with_reducible refine sub_trans ?_ hs); exact rfl)
    | with_reducible exact trivial
    | with_reducible refine within_ite ?_ (fun _ => ?_)
    | with_reducible refine State.setReg_within _ _ ?_ ?_
    | split
    | (dsimp only)

theorem State.eqCount_within {sc r₀ s₀} (c : Carrier) (hs : sub [.regs] sc = true) (h₀ : Within sc r₀ s₀) :
    Within sc r₀ (State.eqCount c s₀) := by
  unfold State.eqCount
  repeat' first
    | with_reducible assumption
    | ((with_reducible refine sub_trans ?_ hs); exact rfl)
    | with_reducible exact trivial
    | with_reducible refine within_ite ?_ (fun _ => ?_)
    | with_reducible refine State.setFld_within _ _ _ ?_ ?_
    | split
    | (dsimp only)

theorem State.fecCount_within {sc r₀ s₀} (c : Carrier) (hs : sub [.regs] sc = true) (h₀ : Within sc r₀ s₀) :
    Within sc r₀ (State.fecCount c s₀) := by
  unfold State.fecCount
  repeat' first
    | with_reducible assumption
    | ((with_reducible refine sub_trans ?_ hs); exact rfl)
    | with_reducible exact trivial
    | with_reducible refine within_ite ?_ (fun _ => ?_)
    | with_reducible refine State.setFld_within _ _ _ ?_ ?_
    | split
    | (dsimp only)

theorem State.setHail_within {sc r₀ s₀} (c : Carrier) (x : HailState) (hs : sub [.hailA, .hailB] sc = true) (h₀ : Within sc r₀ s₀) :
    Within sc r₀ (State.setHail c x s₀) := by
  unfold State.setHail
  repeat' first
    | with_reducible assumption
    | ((with_reducible refine sub_trans ?_ hs); exact rfl)
    | with_reducible exact trivial
    | with_reducible refine within_ite ?_ (fun _ => ?_)
    | split
    | with_reducible refine Within.set_hailA ?_ ?_
    | with_reducible refine Within.set_hailB ?_ ?_
    | (dsimp only)

theorem State.setFrm_within {sc r₀ s₀} (c : Carrier) (x : FrmState) (hs : sub [.frmA, .frmB] sc = true) (h₀ : Within sc r₀ s₀) :
    Within sc r₀ (State.setFrm c x s₀) := by
  unfold State.setFrm
  repeat' first
    | with_reducible assumption
    | ((with_reducible refine sub_trans ?_ hs); exact rfl)
    | with_reducible exact trivial
    | with_reducible refine within_ite ?_ (fun _ => ?_)
    | split
    | with_reducible refine Within.set_frmA ?_ ?_
    | with_reducible refine Within.set_frmB ?_ ?_
    | (dsimp only)

theorem State.hailAbandon_within {sc r₀ s₀} (c : Carrier) (hs : sub [.regs, .hailA, .hailB] sc = true) (h₀ : Within sc r₀ s₀) :
    Within sc r₀ (State.hailAbandon c s₀) := by
  unfold State.hailAbandon
  repeat' first
    | with_reducible assumption
    | ((with_reducible refine sub_trans ?_ hs); exact rfl)
    | with_reducible exact trivial
    | with_reducible refine within_ite ?_ (fun _ => ?_)
    | with_reducible refine State.setHail_within _ _ ?_ ?_
    | with_reducible refine State.setFld_within _ _ _ ?_ ?_
    | split
    | (dsimp only)

theorem State.hailRxCond_within {sc r₀ s₀} (c : Carrier) (hs : sub [.regs, .hailA, .hailB] sc = true) (h₀ : Within sc r₀ s₀) :
    Within sc r₀ (State.hailRxCond c s₀) := by
  unfold State.hailRxCond
  repeat' first
    | with_reducible assumption
    | ((with_reducible refine sub_trans ?_ hs); exact rfl)
    | with_reducible exact trivial
    | with_reducible refine within_ite ?_ (fun _ => ?_)
    | with_reducible refine State.hailAbandon_within _ ?_ ?_
    | with_reducible refine State.setHail_within _ _ ?_ ?_
    | with_reducible refine State.setFld_within _ _ _ ?_ ?_
    | split
    | (dsimp only)

theorem State.eqLoadSpike_within {sc r₀ s₀} (c : Carrier) (n : Nat) (hs : sub [.eqA, .eqB] sc = true) (h₀ : Within sc r₀ s₀) :
    Within sc r₀ (State.eqLoadSpike c n s₀) := by
  unfold State.eqLoadSpike
  repeat' first
    | with_reducible assumption
    | ((with_reducible refine sub_trans ?_ hs); exact rfl)
    | with_reducible exact trivial
    | with_reducible refine within_ite ?_ (fun _ => ?_)
    | with_reducible refine State.setEq_within _ _ ?_ ?_
    | split
    | (dsimp only)

theorem State.eqSpike_within {sc r₀ s₀} (c : Carrier) (hs : sub [.eqA, .eqB] sc = true) (h₀ : Within sc r₀ s₀) :
    Within sc r₀ (State.eqSpike c s₀) := by
  unfold State.eqSpike
  repeat' first
    | with_reducible assumption
    | ((with_reducible refine sub_trans ?_ hs); exact rfl)
    | with_reducible exact trivial
    | with_reducible refine within_ite ?_ (fun _ => ?_)
    | with_reducible refine State.eqLoadSpike_within _ _ ?_ ?_
    | split
    | (dsimp only)

theorem State.assignSlices_within {sc r₀ s₀} (c : Carrier) (l : List Nat) (n : Nat) (hs : sub [.regs] sc = true) (h₀ : Within sc r₀ s₀) :
    Within sc r₀ (State.assignSlices c l n s₀) := by
  induction l generalizing s₀ n with
  | nil => exact h₀
  | cons i l ih =>
    unfold State.assignSlices
    dsimp only
    split
    · exact ih _ h₀
    · split
      · exact ih _ (State.setRole_within _ _ _ (sub_trans rfl hs) h₀)
      · exact ih _ (State.setRole_within _ _ _ (sub_trans rfl hs) h₀)

theorem State.eqAcquire_within {sc r₀ s₀} (c : Carrier) (hs : sub [.regs, .eqA, .eqB] sc = true) (h₀ : Within sc r₀ s₀) :
    Within sc r₀ (State.eqAcquire c s₀) := by
  unfold State.eqAcquire
  repeat' first
    | with_reducible assumption
    | ((with_reducible refine sub_trans ?_ hs); exact rfl)
    | with_reducible exact trivial
    | with_reducible refine within_ite ?_ (fun _ => ?_)
    | with_reducible refine State.assignSlices_within _ _ _ ?_ ?_
    | with_reducible refine State.eqSpike_within _ ?_ ?_
    | with_reducible refine State.eqCount_within _ ?_ ?_
    | with_reducible refine State.setEq_within _ _ ?_ ?_
    | with_reducible refine State.setFld_within _ _ _ ?_ ?_
    | split
    | (dsimp only)

theorem State.fecRestart_within {sc r₀ s₀} (c : Carrier) (hs : sub [.regs, .fecA, .fecB] sc = true) (h₀ : Within sc r₀ s₀) :
    Within sc r₀ (State.fecRestart c s₀) := by
  unfold State.fecRestart
  repeat' first
    | with_reducible assumption
    | ((with_reducible refine sub_trans ?_ hs); exact rfl)
    | with_reducible exact trivial
    | with_reducible refine within_ite ?_ (fun _ => ?_)
    | with_reducible refine State.setFec_within _ _ ?_ ?_
    | with_reducible refine State.setFld_within _ _ _ ?_ ?_
    | split
    | (dsimp only)

theorem State.fecUnlock_within {sc r₀ s₀} (c : Carrier) (hs : sub [.regs, .coreA, .coreB, .hif, .free, .fecA, .fecB] sc = true) (h₀ : Within sc r₀ s₀) :
    Within sc r₀ (State.fecUnlock c s₀) := by
  unfold State.fecUnlock
  repeat' first
    | with_reducible assumption
    | ((with_reducible refine sub_trans ?_ hs); exact rfl)
    | with_reducible exact trivial
    | with_reducible refine within_ite ?_ (fun _ => ?_)
    | with_reducible refine State.fecRestart_within _ ?_ ?_
    | with_reducible refine State.logEvent_within _ _ _ _ ?_ ?_
    | with_reducible refine State.draw_within'  ‹_› ?_ ?_
    | with_reducible refine State.draw_within ?_ ?_
    | with_reducible refine State.setFlag_within _ _ _ ?_ ?_
    | split
    | (dsimp only)

theorem State.crLeave_within {sc r₀ s₀} (c : Carrier) (n : Nat) (hs : sub [.regs, .crA, .crB] sc = true) (h₀ : Within sc r₀ s₀) :
    Within sc r₀ (State.crLeave c n s₀) := by
  unfold State.crLeave
  repeat' first
    | with_reducible assumption
    | ((with_reducible refine sub_trans ?_ hs); exact rfl)
    | with_reducible exact trivial
    | with_reducible refine within_ite ?_ (fun _ => ?_)
    | with_reducible refine State.setCr_within _ _ ?_ ?_
    | with_reducible refine State.setFlag_within _ _ _ ?_ ?_
    | with_reducible refine State.setFld_within _ _ _ ?_ ?_
    | split
    | (dsimp only)

theorem State.rxStreamInvalid_within {sc r₀ s₀} (c : Carrier) (hs : sub [.regs, .crA, .crB, .hailA, .hailB] sc = true) (h₀ : Within sc r₀ s₀) :
    Within sc r₀ (State.rxStreamInvalid c s₀) := by
  unfold State.rxStreamInvalid
  repeat' first
    | with_reducible assumption
    | ((with_reducible refine sub_trans ?_ hs); exact rfl)
    | with_reducible exact trivial
    | with_reducible refine within_ite ?_ (fun _ => ?_)
    | with_reducible refine State.crLeave_within _ _ ?_ ?_
    | with_reducible refine State.hailRxCond_within _ ?_ ?_
    | with_reducible refine State.setFld_within _ _ _ ?_ ?_
    | split
    | (dsimp only)

theorem State.setAcq_within {sc r₀ s₀} (c : Carrier) (n : Nat) (hs : sub [.regs, .coreA, .coreB, .hif, .free, .fecA, .fecB] sc = true) (h₀ : Within sc r₀ s₀) :
    Within sc r₀ (State.setAcq c n s₀) := by
  unfold State.setAcq
  repeat' first
    | with_reducible assumption
    | ((with_reducible refine sub_trans ?_ hs); exact rfl)
    | with_reducible exact trivial
    | with_reducible refine within_ite ?_ (fun _ => ?_)
    | with_reducible refine State.fecUnlock_within _ ?_ ?_
    | with_reducible refine State.setFld_within _ _ _ ?_ ?_
    | split
    | (dsimp only)

theorem State.rxStreamValid_within {sc r₀ s₀} (c : Carrier) (hs : sub [.regs, .eqA, .eqB, .hailA, .hailB] sc = true) (h₀ : Within sc r₀ s₀) :
    Within sc r₀ (State.rxStreamValid c s₀) := by
  unfold State.rxStreamValid
  repeat' first
    | with_reducible assumption
    | ((with_reducible refine sub_trans ?_ hs); exact rfl)
    | with_reducible exact trivial
    | with_reducible refine within_ite ?_ (fun _ => ?_)
    | with_reducible refine State.hailRxCond_within _ ?_ ?_
    | with_reducible refine State.setEq_within _ _ ?_ ?_
    | with_reducible refine State.setFld_within _ _ _ ?_ ?_
    | split
    | (dsimp only)

end Sys2Proof.Laws
end

