-- ==== Sys2Proof/Laws/Blocks.lean ====
section
/-! SUPPORT. The scope of each operation of Sys2Proof/Machine/Blocks.lean. -/
namespace Sys2Proof.Laws
open Sys2Proof.Machine Sys2Proof.Safety

theorem State.noteSopRate_within {sc r₀ s₀} (c : Carrier) (rate : Nat) (hs : sub [.log] sc = true) (h₀ : Within sc r₀ s₀) :
    Within sc r₀ (State.noteSopRate c rate s₀) := by
  unfold State.noteSopRate
  repeat' first
    | with_reducible assumption
    | ((with_reducible refine sub_trans ?_ hs); exact rfl)
    | with_reducible exact trivial
    | with_reducible refine within_ite ?_ (fun _ => ?_)
    | with_reducible refine State.noteTotal_within _ _ ?_ ?_
    | split
    | (dsimp only)

theorem State.setMonMod_within {sc r₀ s₀} (k : Fin 4) (m : MonMod) (hs : sub [.mon] sc = true) (h₀ : Within sc r₀ s₀) :
    Within sc r₀ (State.setMonMod k m s₀) := by
  unfold State.setMonMod
  repeat' first
    | with_reducible assumption
    | ((with_reducible refine sub_trans ?_ hs); exact rfl)
    | with_reducible exact trivial
    | with_reducible refine within_ite ?_ (fun _ => ?_)
    | split
    | with_reducible refine Within.set_mon ?_ ?_
    | (dsimp only)

theorem State.monOverrun_within {sc r₀ s₀} (k : Fin 4) (kind : Nat) (hs : sub [.regs, .coreA, .coreB, .hif, .mon] sc = true) (h₀ : Within sc r₀ s₀) :
    Within sc r₀ (State.monOverrun k kind s₀) := by
  unfold State.monOverrun
  repeat' first
    | with_reducible assumption
    | ((with_reducible refine sub_trans ?_ hs); exact rfl)
    | with_reducible exact trivial
    | with_reducible refine within_ite ?_ (fun _ => ?_)
    | with_reducible refine State.logEvent_within _ _ _ _ ?_ ?_
    | with_reducible refine State.addCnt_within _ _ ?_ ?_
    | with_reducible refine State.setFlag_within _ _ _ ?_ ?_
    | split
    | with_reducible refine Within.set_mon ?_ ?_
    | (dsimp only)

theorem State.monInject_within {sc r₀ s₀} (k : Fin 4) (hs : sub [.regs, .coreA, .coreB, .hif, .mon] sc = true) (h₀ : Within sc r₀ s₀) :
    Within sc r₀ (State.monInject k s₀) := by
  unfold State.monInject
  repeat' first
    | with_reducible assumption
    | ((with_reducible refine sub_trans ?_ hs); exact rfl)
    | with_reducible exact trivial
    | with_reducible refine within_ite ?_ (fun _ => ?_)
    | with_reducible refine State.monOverrun_within _ _ ?_ ?_
    | with_reducible refine State.setMonMod_within _ _ ?_ ?_
    | with_reducible refine State.addCnt_within _ _ ?_ ?_
    | with_reducible refine State.setFlag_within _ _ _ ?_ ?_
    | split
    | (dsimp only)

theorem State.monUrgentBit_within {sc r₀ s₀} (b : Nat) (hs : sub [.regs, .coreA, .coreB, .hif, .mon] sc = true) (h₀ : Within sc r₀ s₀) :
    Within sc r₀ (State.monUrgentBit b s₀) := by
  unfold State.monUrgentBit
  repeat' first
    | with_reducible assumption
    | ((with_reducible refine sub_trans ?_ hs); exact rfl)
    | with_reducible exact trivial
    | with_reducible refine within_ite ?_ (fun _ => ?_)
    | with_reducible refine State.monInject_within _ ?_ ?_
    | with_reducible refine within_foldl (fun _ _ _ => ?_) ?_
    | with_reducible refine within_foldl_snd (fun _ _ _ => ?_) ?_
    | split
    | (dsimp only)

theorem State.monUrgent_within {sc r₀ s₀} (c : Carrier) (hs : sub [.regs, .coreA, .coreB, .hif, .mon] sc = true) (h₀ : Within sc r₀ s₀) :
    Within sc r₀ (State.monUrgent c s₀) := by
  unfold State.monUrgent
  repeat' first
    | with_reducible assumption
    | ((with_reducible refine sub_trans ?_ hs); exact rfl)
    | with_reducible exact trivial
    | with_reducible refine within_ite ?_ (fun _ => ?_)
    | with_reducible refine State.monUrgentBit_within _ ?_ ?_
    | split
    | (dsimp only)

theorem State.anlPend_within {sc r₀ s₀} (v : Nat) (hs : sub [.regs] sc = true) (h₀ : Within sc r₀ s₀) :
    Within sc r₀ (State.anlPend v s₀) := by
  unfold State.anlPend
  repeat' first
    | with_reducible assumption
    | ((with_reducible refine sub_trans ?_ hs); exact rfl)
    | with_reducible exact trivial
    | with_reducible refine within_ite ?_ (fun _ => ?_)
    | with_reducible refine State.setFld_within _ _ _ ?_ ?_
    | split
    | (dsimp only)

theorem State.anlLeaveOff_within {sc r₀ s₀} (tx : Bool) (c : Carrier) (hs : sub [.regs, .anl] sc = true) (h₀ : Within sc r₀ s₀) :
    Within sc r₀ (State.anlLeaveOff tx c s₀) := by
  unfold State.anlLeaveOff
  repeat' first
    | with_reducible assumption
    | ((with_reducible refine sub_trans ?_ hs); exact rfl)
    | with_reducible exact trivial
    | with_reducible refine within_ite ?_ (fun _ => ?_)
    | with_reducible refine State.anlPend_within _ ?_ ?_
    | with_reducible refine within_foldl (fun _ _ _ => ?_) ?_
    | with_reducible refine within_foldl_snd (fun _ _ _ => ?_) ?_
    | split
    | with_reducible refine Within.set_anl ?_ ?_
    | (dsimp only)

theorem State.setAnlElem_within {sc r₀ s₀} (v : Nat) (e : Nat) (x : AnlElem) (hs : sub [.anl] sc = true) (h₀ : Within sc r₀ s₀) :
    Within sc r₀ (State.setAnlElem v e x s₀) := by
  unfold State.setAnlElem
  repeat' first
    | with_reducible assumption
    | ((with_reducible refine sub_trans ?_ hs); exact rfl)
    | with_reducible exact trivial
    | with_reducible refine within_ite ?_ (fun _ => ?_)
    | split
    | with_reducible refine Within.set_anl ?_ ?_
    | (dsimp only)

theorem State.anlShow_within {sc r₀ s₀} (v : Nat) (hs : sub [.regs] sc = true) (h₀ : Within sc r₀ s₀) :
    Within sc r₀ (State.anlShow v s₀) := by
  unfold State.anlShow
  repeat' first
    | with_reducible assumption
    | ((with_reducible refine sub_trans ?_ hs); exact rfl)
    | with_reducible exact trivial
    | with_reducible refine within_ite ?_ (fun _ => ?_)
    | with_reducible refine State.setFld_within _ _ _ ?_ ?_
    | with_reducible refine State.setReg_within _ _ ?_ ?_
    | with_reducible refine within_foldl (fun _ _ _ => ?_) ?_
    | with_reducible refine within_foldl_snd (fun _ _ _ => ?_) ?_
    | split
    | (dsimp only)

theorem State.anlTell_within {sc r₀ s₀} (v : Nat) (how : Nat) (hs : sub [.regs, .mem, .coreA, .coreB, .qc, .hws, .hif, .pwr, .free, .anl, .log, .ecc] sc = true) (h₀ : Within sc r₀ s₀) :
    Within sc r₀ (State.anlTell v how s₀) := by
  unfold State.anlTell
  repeat' first
    | with_reducible assumption
    | ((with_reducible refine sub_trans ?_ hs); exact rfl)
    | with_reducible exact trivial
    | with_reducible refine within_ite ?_ (fun _ => ?_)
    | with_reducible refine State.endTicket_within _ _ _ _ ?_ ?_
    | with_reducible refine within_foldl (fun _ _ _ => ?_) ?_
    | with_reducible refine within_foldl_snd (fun _ _ _ => ?_) ?_
    | split
    | with_reducible refine Within.set_anl ?_ ?_
    | (dsimp only)

theorem State.anlFree_within {sc r₀ s₀} (u : Fin 4) (hs : sub [.regs, .anl] sc = true) (h₀ : Within sc r₀ s₀) :
    Within sc r₀ (State.anlFree u s₀) := by
  unfold State.anlFree
  repeat' first
    | with_reducible assumption
    | ((with_reducible refine sub_trans ?_ hs); exact rfl)
    | with_reducible exact trivial
    | with_reducible refine within_ite ?_ (fun _ => ?_)
    | with_reducible refine State.setReg_within _ _ ?_ ?_
    | split
    | with_reducible refine Within.set_anl ?_ ?_
    | (dsimp only)

theorem State.anlAbandon_within {sc r₀ s₀} (u : Fin 4) (hs : sub [.regs, .mem, .coreA, .coreB, .qc, .hws, .hif, .pwr, .free, .anl, .log, .ecc] sc = true) (h₀ : Within sc r₀ s₀) :
    Within sc r₀ (State.anlAbandon u s₀) := by
  unfold State.anlAbandon
  repeat' first
    | with_reducible assumption
    | ((with_reducible refine sub_trans ?_ hs); exact rfl)
    | with_reducible exact trivial
    | with_reducible refine within_ite ?_ (fun _ => ?_)
    | with_reducible refine State.anlFree_within _ ?_ ?_
    | with_reducible refine State.anlTell_within _ _ ?_ ?_
    | with_reducible refine State.logEvent_within _ _ _ _ ?_ ?_
    | with_reducible refine State.draw_within'  ‹_› ?_ ?_
    | with_reducible refine State.draw_within ?_ ?_
    | with_reducible refine State.addCnt_within _ _ ?_ ?_
    | with_reducible refine State.setFlag_within _ _ _ ?_ ?_
    | with_reducible refine State.setFld_within _ _ _ ?_ ?_
    | split
    | (dsimp only)

theorem State.anlFinish_within {sc r₀ s₀} (u : Fin 4) (r : AnlRun) (how : Nat) (hs : sub [.regs, .mem, .coreA, .coreB, .qc, .hws, .hif, .pwr, .free, .anl, .log, .ecc] sc = true) (h₀ : Within sc r₀ s₀) :
    Within sc r₀ (State.anlFinish u r how s₀) := by
  unfold State.anlFinish
  repeat' first
    | with_reducible assumption
    | ((with_reducible refine sub_trans ?_ hs); exact rfl)
    | with_reducible exact trivial
    | with_reducible refine within_ite ?_ (fun _ => ?_)
    | with_reducible refine State.anlFree_within _ ?_ ?_
    | with_reducible refine State.anlTell_within _ _ ?_ ?_
    | with_reducible refine State.anlShow_within _ ?_ ?_
    | with_reducible refine State.setAnlElem_within _ _ _ ?_ ?_
    | with_reducible refine State.logEvent_within _ _ _ _ ?_ ?_
    | with_reducible refine State.addCnt_within _ _ ?_ ?_
    | with_reducible refine State.setReg64_within _ _ ?_ ?_
    | with_reducible refine State.setFld_within _ _ _ ?_ ?_
    | with_reducible refine within_foldl (fun _ _ _ => ?_) ?_
    | with_reducible refine within_foldl_snd (fun _ _ _ => ?_) ?_
    | split
    | (dsimp only)

theorem State.anlSubst_within {sc r₀ s₀} (p : Nat × Nat × Nat) (hs : sub [.regs, .anl] sc = true) (h₀ : Within sc r₀ s₀) :
    Within sc r₀ (State.anlSubst p s₀) := by
  unfold State.anlSubst
  repeat' first
    | with_reducible assumption
    | ((with_reducible refine sub_trans ?_ hs); exact rfl)
    | with_reducible exact trivial
    | with_reducible refine within_ite ?_ (fun _ => ?_)
    | with_reducible refine State.anlShow_within _ ?_ ?_
    | with_reducible refine State.setAnlElem_within _ _ _ ?_ ?_
    | with_reducible refine within_foldl (fun _ _ _ => ?_) ?_
    | with_reducible refine within_foldl_snd (fun _ _ _ => ?_) ?_
    | split
    | (dsimp only)

theorem State.anlSubsNow_within {sc r₀ s₀} (tx : Bool) (c : Carrier) (hs : sub [.regs, .anl] sc = true) (h₀ : Within sc r₀ s₀) :
    Within sc r₀ (State.anlSubsNow tx c s₀) := by
  unfold State.anlSubsNow
  repeat' first
    | with_reducible assumption
    | ((with_reducible refine sub_trans ?_ hs); exact rfl)
    | with_reducible exact trivial
    | with_reducible refine within_ite ?_ (fun _ => ?_)
    | with_reducible refine State.anlSubst_within _ ?_ ?_
    | with_reducible refine within_foldl (fun _ _ _ => ?_) ?_
    | with_reducible refine within_foldl_snd (fun _ _ _ => ?_) ?_
    | split
    | with_reducible refine Within.set_anl ?_ ?_
    | (dsimp only)

theorem State.anlMoved_within {sc r₀ s₀} (tx : Bool) (c : Carrier) (st : Nat) (atBoundary : Bool) (hs : sub [.regs, .mem, .coreA, .coreB, .qc, .hws, .hif, .pwr, .free, .anl, .log, .ecc] sc = true) (h₀ : Within sc r₀ s₀) :
    Within sc r₀ (State.anlMoved tx c st atBoundary s₀) := by
  unfold State.anlMoved
  repeat' first
    | with_reducible assumption
    | ((with_reducible refine sub_trans ?_ hs); exact rfl)
    | with_reducible exact trivial
    | with_reducible refine within_ite ?_ (fun _ => ?_)
    | with_reducible refine State.anlSubsNow_within _ _ ?_ ?_
    | with_reducible refine State.anlFinish_within _ _ _ ?_ ?_
    | with_reducible refine State.anlAbandon_within _ ?_ ?_
    | split
    | (dsimp only)

theorem State.anlBoundary_within {sc r₀ s₀} (tx : Bool) (c : Carrier) (hs : sub [.regs, .mem, .coreA, .coreB, .qc, .hws, .hif, .pwr, .free, .anl, .log, .ecc] sc = true) (h₀ : Within sc r₀ s₀) :
    Within sc r₀ (State.anlBoundary tx c s₀) := by
  unfold State.anlBoundary
  repeat' first
    | with_reducible assumption
    | ((with_reducible refine sub_trans ?_ hs); exact rfl)
    | with_reducible exact trivial
    | with_reducible refine within_ite ?_ (fun _ => ?_)
    | with_reducible refine State.anlSubsNow_within _ _ ?_ ?_
    | with_reducible refine State.anlFinish_within _ _ _ ?_ ?_
    | split
    | (dsimp only)

theorem State.setClient_within {sc r₀ s₀} (n : Nat) (x : ClientRt) (hs : sub [.clm] sc = true) (h₀ : Within sc r₀ s₀) :
    Within sc r₀ (State.setClient n x s₀) := by
  unfold State.setClient
  repeat' first
    | with_reducible assumption
    | ((with_reducible refine sub_trans ?_ hs); exact rfl)
    | with_reducible exact trivial
    | with_reducible refine within_ite ?_ (fun _ => ?_)
    | split
    | with_reducible refine Within.set_clm ?_ ?_
    | (dsimp only)

theorem State.cliShow_within {sc r₀ s₀} (n : Nat) (hs : sub [.regs] sc = true) (h₀ : Within sc r₀ s₀) :
    Within sc r₀ (State.cliShow n s₀) := by
  unfold State.cliShow
  repeat' first
    | with_reducible assumption
    | ((with_reducible refine sub_trans ?_ hs); exact rfl)
    | with_reducible exact trivial
    | with_reducible refine within_ite ?_ (fun _ => ?_)
    | with_reducible refine State.setFlag_within _ _ _ ?_ ?_
    | with_reducible refine State.setFld_within _ _ _ ?_ ?_
    | split
    | (dsimp only)

theorem State.cliShowAll_within {sc r₀ s₀}  (hs : sub [.regs] sc = true) (h₀ : Within sc r₀ s₀) :
    Within sc r₀ (State.cliShowAll s₀) := by
  unfold State.cliShowAll
  repeat' first
    | with_reducible assumption
    | ((with_reducible refine sub_trans ?_ hs); exact rfl)
    | with_reducible exact trivial
    | with_reducible refine within_ite ?_ (fun _ => ?_)
    | with_reducible refine State.cliShow_within _ ?_ ?_
    | with_reducible refine forN_within _ _ ?_ ?_
    | with_reducible refine forN_within (fun _ _ _ => ?_) ?_
    | split
    | (dsimp only)

theorem State.frmActs_within {sc r₀ s₀} (c : Carrier) (boundary : Bool) (hs : sub [.regs] sc = true) (h₀ : Within sc r₀ s₀) :
    Within sc r₀ (State.frmActs c boundary s₀) := by
  unfold State.frmActs
  repeat' first
    | with_reducible assumption
    | ((with_reducible refine sub_trans ?_ hs); exact rfl)
    | with_reducible exact trivial
    | with_reducible refine within_ite ?_ (fun _ => ?_)
    | with_reducible refine State.cliShowAll_within ?_ ?_
    | with_reducible refine State.setFlag_within _ _ _ ?_ ?_
    | split
    | (dsimp only)

theorem State.setEntropy_within {sc r₀ s₀} (c : Carrier) (h64 : Nat) (hs : sub [.regs] sc = true) (h₀ : Within sc r₀ s₀) :
    Within sc r₀ (State.setEntropy c h64 s₀) := by
  unfold State.setEntropy
  repeat' first
    | with_reducible assumption
    | ((with_reducible refine sub_trans ?_ hs); exact rfl)
    | with_reducible exact trivial
    | with_reducible refine within_ite ?_ (fun _ => ?_)
    | with_reducible refine State.setFld_within _ _ _ ?_ ?_
    | split
    | with_reducible refine Within.set_regs ?_ ?_
    | (dsimp only)

theorem State.elwEnd_within {sc r₀ s₀} (c : Carrier) (how : Nat) (reason : Nat) (hs : sub [.regs, .mem, .coreA, .coreB, .qc, .hws, .hif, .pwr, .free, .frmA, .frmB, .log, .ecc] sc = true) (h₀ : Within sc r₀ s₀) :
    Within sc r₀ (State.elwEnd c how reason s₀) := by
  unfold State.elwEnd
  repeat' first
    | with_reducible assumption
    | ((with_reducible refine sub_trans ?_ hs); exact rfl)
    | with_reducible exact trivial
    | with_reducible refine within_ite ?_ (fun _ => ?_)
    | with_reducible refine State.setFrm_within _ _ ?_ ?_
    | with_reducible refine State.endTicket_within _ _ _ _ ?_ ?_
    | with_reducible refine State.logEvent_within _ _ _ _ ?_ ?_
    | with_reducible refine State.setFlag_within _ _ _ ?_ ?_
    | with_reducible refine State.setFld_within _ _ _ ?_ ?_
    | split
    | (dsimp only)

theorem State.elwRxEnd_within {sc r₀ s₀} (c : Carrier) (hs : sub [.regs, .frmA, .frmB] sc = true) (h₀ : Within sc r₀ s₀) :
    Within sc r₀ (State.elwRxEnd c s₀) := by
  unfold State.elwRxEnd
  repeat' first
    | with_reducible assumption
    | ((with_reducible refine sub_trans ?_ hs); exact rfl)
    | with_reducible exact trivial
    | with_reducible refine within_ite ?_ (fun _ => ?_)
    | with_reducible refine State.setFrm_within _ _ ?_ ?_
    | with_reducible refine State.setFld_within _ _ _ ?_ ?_
    | split
    | (dsimp only)

theorem State.elwBreak_within {sc r₀ s₀} (c : Carrier) (hs : sub [.regs, .mem, .coreA, .coreB, .qc, .hws, .hif, .pwr, .free, .frmA, .frmB, .log, .ecc] sc = true) (h₀ : Within sc r₀ s₀) :
    Within sc r₀ (State.elwBreak c s₀) := by
  unfold State.elwBreak
  repeat' first
    | with_reducible assumption
    | ((with_reducible refine sub_trans ?_ hs); exact rfl)
    | with_reducible exact trivial
    | with_reducible refine within_ite ?_ (fun _ => ?_)
    | with_reducible refine State.elwRxEnd_within _ ?_ ?_
    | with_reducible refine State.elwEnd_within _ _ _ ?_ ?_
    | with_reducible refine State.setFrm_within _ _ ?_ ?_
    | split
    | (dsimp only)

theorem State.frmSignal_within {sc r₀ s₀} (c : Carrier) (hs : sub [.regs, .mem, .coreA, .coreB, .qc, .hws, .hif, .pwr, .free, .frmA, .frmB, .log, .ecc] sc = true) (h₀ : Within sc r₀ s₀) :
    Within sc r₀ (State.frmSignal c s₀) := by
  unfold State.frmSignal
  repeat' first
    | with_reducible assumption
    | ((with_reducible refine sub_trans ?_ hs); exact rfl)
    | with_reducible exact trivial
    | with_reducible refine within_ite ?_ (fun _ => ?_)
    | with_reducible refine State.elwBreak_within _ ?_ ?_
    | with_reducible refine State.frmActs_within _ _ ?_ ?_
    | with_reducible refine State.setFlag_within _ _ _ ?_ ?_
    | split
    | (dsimp only)

theorem State.hailEnclave_within {sc r₀ s₀} (c : Carrier) (typ : Nat) (payload : List Byte) (hs : sub [.hailA, .hailB] sc = true) (h₀ : Within sc r₀ s₀) :
    Within sc r₀ (State.hailEnclave c typ payload s₀) := by
  unfold State.hailEnclave
  repeat' first
    | with_reducible assumption
    | ((with_reducible refine sub_trans ?_ hs); exact rfl)
    | with_reducible exact trivial
    | with_reducible refine within_ite ?_ (fun _ => ?_)
    | with_reducible refine State.setHail_within _ _ ?_ ?_
    | split
    | (dsimp only)

theorem State.hailFrm_within {sc r₀ s₀} (c : Carrier) (typ : Nat) (payload : List Byte) (hs : sub [.hailA, .hailB] sc = true) (h₀ : Within sc r₀ s₀) :
    Within sc r₀ (State.hailFrm c typ payload s₀) := by
  unfold State.hailFrm
  repeat' first
    | with_reducible assumption
    | ((with_reducible refine sub_trans ?_ hs); exact rfl)
    | with_reducible exact trivial
    | with_reducible refine within_ite ?_ (fun _ => ?_)
    | with_reducible refine State.setHail_within _ _ ?_ ?_
    | split
    | (dsimp only)

theorem State.hailCut_within {sc r₀ s₀} (c : Carrier) (hs : sub [.regs, .mem, .coreA, .coreB, .qc, .hws, .hif, .pwr, .free, .hailA, .hailB, .log, .ecc] sc = true) (h₀ : Within sc r₀ s₀) :
    Within sc r₀ (State.hailCut c s₀) := by
  unfold State.hailCut
  repeat' first
    | with_reducible assumption
    | ((with_reducible refine sub_trans ?_ hs); exact rfl)
    | with_reducible exact trivial
    | with_reducible refine within_ite ?_ (fun _ => ?_)
    | with_reducible refine State.setHail_within _ _ ?_ ?_
    | with_reducible refine State.complete_within _ _ _ _ ?_ ?_
    | with_reducible refine State.logEvent_within _ _ _ _ ?_ ?_
    | with_reducible refine State.setFlag_within _ _ _ ?_ ?_
    | split
    | (dsimp only)

theorem State.hailTxCond_within {sc r₀ s₀} (c : Carrier) (hs : sub [.regs, .mem, .coreA, .coreB, .qc, .hws, .hif, .pwr, .free, .hailA, .hailB, .log, .ecc] sc = true) (h₀ : Within sc r₀ s₀) :
    Within sc r₀ (State.hailTxCond c s₀) := by
  unfold State.hailTxCond
  repeat' first
    | with_reducible assumption
    | ((with_reducible refine sub_trans ?_ hs); exact rfl)
    | with_reducible exact trivial
    | with_reducible refine within_ite ?_ (fun _ => ?_)
    | with_reducible refine State.hailCut_within _ ?_ ?_
    | with_reducible refine State.setHail_within _ _ ?_ ?_
    | with_reducible refine State.setFld_within _ _ _ ?_ ?_
    | split
    | (dsimp only)

theorem State.hailWindow_within {sc r₀ s₀} (c : Carrier) (hs : sub [.hailA, .hailB] sc = true) (h₀ : Within sc r₀ s₀) :
    Within sc r₀ (State.hailWindow c s₀) := by
  unfold State.hailWindow
  repeat' first
    | with_reducible assumption
    | ((with_reducible refine sub_trans ?_ hs); exact rfl)
    | with_reducible exact trivial
    | with_reducible refine within_ite ?_ (fun _ => ?_)
    | with_reducible refine State.setHail_within _ _ ?_ ?_
    | split
    | (dsimp only)

theorem State.hailSignalLost_within {sc r₀ s₀} (c : Carrier) (hs : sub [.regs, .hailA, .hailB] sc = true) (h₀ : Within sc r₀ s₀) :
    Within sc r₀ (State.hailSignalLost c s₀) := by
  unfold State.hailSignalLost
  repeat' first
    | with_reducible assumption
    | ((with_reducible refine sub_trans ?_ hs); exact rfl)
    | with_reducible exact trivial
    | with_reducible refine within_ite ?_ (fun _ => ?_)
    | with_reducible refine State.hailAbandon_within _ ?_ ?_
    | split
    | (dsimp only)

theorem State.hailNextHyp_within {sc r₀ s₀} (c : Carrier) (hs : sub [.regs] sc = true) (h₀ : Within sc r₀ s₀) :
    Within sc r₀ (State.hailNextHyp c s₀) := by
  unfold State.hailNextHyp
  repeat' first
    | with_reducible assumption
    | ((with_reducible refine sub_trans ?_ hs); exact rfl)
    | with_reducible exact trivial
    | with_reducible refine within_ite ?_ (fun _ => ?_)
    | with_reducible refine State.setFlag_within _ _ _ ?_ ?_
    | with_reducible refine State.setFld_within _ _ _ ?_ ?_
    | split
    | (dsimp only)

theorem State.setCphCar_within {sc r₀ s₀} (c : Carrier) (x : CphCarrier) (hs : sub [.cph] sc = true) (h₀ : Within sc r₀ s₀) :
    Within sc r₀ (State.setCphCar c x s₀) := by
  unfold State.setCphCar
  repeat' first
    | with_reducible assumption
    | ((with_reducible refine sub_trans ?_ hs); exact rfl)
    | with_reducible exact trivial
    | with_reducible refine within_ite ?_ (fun _ => ?_)
    | split
    | with_reducible refine Within.set_cph ?_ ?_
    | (dsimp only)

theorem State.cphShow_within {sc r₀ s₀} (n : Nat) (hs : sub [.regs] sc = true) (h₀ : Within sc r₀ s₀) :
    Within sc r₀ (State.cphShow n s₀) := by
  unfold State.cphShow
  repeat' first
    | with_reducible assumption
    | ((with_reducible refine sub_trans ?_ hs); exact rfl)
    | with_reducible exact trivial
    | with_reducible refine within_ite ?_ (fun _ => ?_)
    | with_reducible refine State.setFlag_within _ _ _ ?_ ?_
    | with_reducible refine State.setFld_within _ _ _ ?_ ?_
    | split
    | (dsimp only)

theorem State.cphErase_within {sc r₀ s₀} (c : Carrier) (dir : Nat) (hs : sub [.regs, .cph] sc = true) (h₀ : Within sc r₀ s₀) :
    Within sc r₀ (State.cphErase c dir s₀) := by
  unfold State.cphErase
  repeat' first
    | with_reducible assumption
    | ((with_reducible refine sub_trans ?_ hs); exact rfl)
    | with_reducible exact trivial
    | with_reducible refine within_ite ?_ (fun _ => ?_)
    | with_reducible refine State.cphShow_within _ ?_ ?_
    | with_reducible refine within_foldl (fun _ _ _ => ?_) ?_
    | with_reducible refine within_foldl_snd (fun _ _ _ => ?_) ?_
    | split
    | with_reducible refine Within.set_cph ?_ ?_
    | (dsimp only)

theorem State.outStart_within {sc r₀ s₀} (k : Fin 4) (hs : sub [.ref] sc = true) (h₀ : Within sc r₀ s₀) :
    Within sc r₀ (State.outStart k s₀) := by
  unfold State.outStart
  repeat' first
    | with_reducible assumption
    | ((with_reducible refine sub_trans ?_ hs); exact rfl)
    | with_reducible exact trivial
    | with_reducible refine within_ite ?_ (fun _ => ?_)
    | split
    | with_reducible refine Within.set_ref ?_ ?_
    | (dsimp only)

theorem State.outSuperframe_within {sc r₀ s₀} (k : Fin 4) (hs : sub [.ref] sc = true) (h₀ : Within sc r₀ s₀) :
    Within sc r₀ (State.outSuperframe k s₀) := by
  unfold State.outSuperframe
  repeat' first
    | with_reducible assumption
    | ((with_reducible refine sub_trans ?_ hs); exact rfl)
    | with_reducible exact trivial
    | with_reducible refine within_ite ?_ (fun _ => ?_)
    | split
    | with_reducible refine Within.set_ref ?_ ?_
    | (dsimp only)

theorem State.txServiceStart_within {sc r₀ s₀} (c : Carrier) (hs : sub [.regs, .mem, .coreA, .coreB, .qc, .hws, .hif, .pwr, .free, .cph, .txA, .txB, .frmA, .frmB, .log, .ecc, .ref] sc = true) (h₀ : Within sc r₀ s₀) :
    Within sc r₀ (State.txServiceStart c s₀) := by
  unfold State.txServiceStart
  repeat' first
    | with_reducible assumption
    | ((with_reducible refine sub_trans ?_ hs); exact rfl)
    | with_reducible exact trivial
    | with_reducible refine within_ite ?_ (fun _ => ?_)
    | with_reducible refine State.outStart_within _ ?_ ?_
    | with_reducible refine State.setCphCar_within _ _ ?_ ?_
    | with_reducible refine State.elwBreak_within _ ?_ ?_
    | with_reducible refine State.setFrm_within _ _ ?_ ?_
    | with_reducible refine State.setTx_within _ _ ?_ ?_
    | with_reducible refine State.setFlag_within _ _ _ ?_ ?_
    | with_reducible refine State.setFld_within _ _ _ ?_ ?_
    | split
    | (dsimp only)

theorem State.txServiceEnd_within {sc r₀ s₀} (c : Carrier) (hs : sub [.regs, .mem, .coreA, .coreB, .qc, .hws, .hif, .pwr, .free, .cph, .frmA, .frmB, .log, .ecc] sc = true) (h₀ : Within sc r₀ s₀) :
    Within sc r₀ (State.txServiceEnd c s₀) := by
  unfold State.txServiceEnd
  repeat' first
    | with_reducible assumption
    | ((with_reducible refine sub_trans ?_ hs); exact rfl)
    | with_reducible exact trivial
    | with_reducible refine within_ite ?_ (fun _ => ?_)
    | with_reducible refine State.cphErase_within _ _ ?_ ?_
    | with_reducible refine State.elwBreak_within _ ?_ ?_
    | with_reducible refine State.elwEnd_within _ _ _ ?_ ?_
    | with_reducible refine State.setFlag_within _ _ _ ?_ ?_
    | split
    | (dsimp only)

theorem State.frmRxRestart_within {sc r₀ s₀} (c : Carrier) (hs : sub [.regs, .frmA, .frmB] sc = true) (h₀ : Within sc r₀ s₀) :
    Within sc r₀ (State.frmRxRestart c s₀) := by
  unfold State.frmRxRestart
  repeat' first
    | with_reducible assumption
    | ((with_reducible refine sub_trans ?_ hs); exact rfl)
    | with_reducible exact trivial
    | with_reducible refine within_ite ?_ (fun _ => ?_)
    | with_reducible refine State.setFrm_within _ _ ?_ ?_
    | with_reducible refine State.setFld_within _ _ _ ?_ ?_
    | with_reducible refine State.setReg_within _ _ ?_ ?_
    | split
    | (dsimp only)

theorem State.rxServiceStart_within {sc r₀ s₀} (c : Carrier) (hs : sub [.regs, .mem, .coreA, .coreB, .qc, .hws, .hif, .pwr, .free, .cph, .fecA, .fecB, .frmA, .frmB, .log, .ecc] sc = true) (h₀ : Within sc r₀ s₀) :
    Within sc r₀ (State.rxServiceStart c s₀) := by
  unfold State.rxServiceStart
  repeat' first
    | with_reducible assumption
    | ((with_reducible refine sub_trans ?_ hs); exact rfl)
    | with_reducible exact trivial
    | with_reducible refine within_ite ?_ (fun _ => ?_)
    | with_reducible refine State.frmRxRestart_within _ ?_ ?_
    | with_reducible refine State.setCphCar_within _ _ ?_ ?_
    | with_reducible refine State.frmSignal_within _ ?_ ?_
    | with_reducible refine State.elwBreak_within _ ?_ ?_
    | with_reducible refine State.cliShowAll_within ?_ ?_
    | with_reducible refine State.setFrm_within _ _ ?_ ?_
    | with_reducible refine State.setFec_within _ _ ?_ ?_
    | split
    | (dsimp only)

theorem State.rxServiceEnd_within {sc r₀ s₀} (c : Carrier) (hs : sub [.regs, .mem, .coreA, .coreB, .qc, .hws, .hif, .pwr, .free, .cph, .frmA, .frmB, .log, .ecc] sc = true) (h₀ : Within sc r₀ s₀) :
    Within sc r₀ (State.rxServiceEnd c s₀) := by
  unfold State.rxServiceEnd
  repeat' first
    | with_reducible assumption
    | ((with_reducible refine sub_trans ?_ hs); exact rfl)
    | with_reducible exact trivial
    | with_reducible refine within_ite ?_ (fun _ => ?_)
    | with_reducible refine State.frmRxRestart_within _ ?_ ?_
    | with_reducible refine State.cphErase_within _ _ ?_ ?_
    | with_reducible refine State.elwBreak_within _ ?_ ?_
    | with_reducible refine State.cliShowAll_within ?_ ?_
    | with_reducible refine State.setFld_within _ _ _ ?_ ?_
    | split
    | (dsimp only)

end Sys2Proof.Laws
end

