-- ==== Sys2Proof/Laws/Tx.lean ====
section
/-! SUPPORT. The scope of each operation of Sys2Proof/Machine/Tx.lean. -/
namespace Sys2Proof.Laws
open Sys2Proof.Machine Sys2Proof.Safety

theorem State.txMirror_within {sc r₀ s₀} (c : Carrier) (hs : sub [.regs] sc = true) (h₀ : Within sc r₀ s₀) :
    Within sc r₀ (State.txMirror c s₀) := by
  unfold State.txMirror
  repeat' first
    | with_reducible assumption
    | ((with_reducible refine sub_trans ?_ hs); exact rfl)
    | with_reducible exact trivial
    | with_reducible refine within_ite ?_ (fun _ => ?_)
    | with_reducible refine State.setFld_within _ _ _ ?_ ?_
    | split
    | (dsimp only)

theorem State.completeOps_within {sc r₀ s₀} (q : Fin 64) (op n : Nat) (hs : sub [.regs, .mem, .coreA, .coreB, .qc, .hws, .hif, .pwr, .free, .log, .ecc] sc = true) (h₀ : Within sc r₀ s₀) :
    Within sc r₀ (State.completeOps q op n s₀) := by
  induction n generalizing s₀ with
  | zero => exact h₀
  | succ n ih => exact ih (State.completeOp_within _ _ _ _ _ (sub_trans rfl hs) h₀)

theorem State.txUnmute_within {sc r₀ s₀} (c : Carrier) (hs : sub [.regs, .mem, .coreA, .coreB, .qc, .hws, .hif, .pwr, .free, .log, .ecc] sc = true) (h₀ : Within sc r₀ s₀) :
    Within sc r₀ (State.txUnmute c s₀) := by
  unfold State.txUnmute
  repeat' first
    | with_reducible assumption
    | ((with_reducible refine sub_trans ?_ hs); exact rfl)
    | with_reducible exact trivial
    | with_reducible refine within_ite ?_ (fun _ => ?_)
    | with_reducible refine State.completeOps_within _ _ _ ?_ ?_
    | with_reducible refine State.setFlag_within _ _ _ ?_ ?_
    | split
    | (dsimp only)

theorem State.txEnter_within {sc r₀ s₀} (c : Carrier) (t : Nat) (hs : sub [.regs, .mem, .coreA, .coreB, .qc, .hws, .hif, .pwr, .free, .cph, .txA, .txB, .hailA, .hailB, .frmA, .frmB, .anl, .log, .ecc, .ref] sc = true) (h₀ : Within sc r₀ s₀) :
    Within sc r₀ (State.txEnter c t s₀) := by
  unfold State.txEnter
  repeat' first
    | with_reducible assumption
    | ((with_reducible refine sub_trans ?_ hs); exact rfl)
    | with_reducible exact trivial
    | with_reducible refine within_ite ?_ (fun _ => ?_)
    | with_reducible refine State.txUnmute_within _ ?_ ?_
    | with_reducible refine State.txServiceEnd_within _ ?_ ?_
    | with_reducible refine State.txServiceStart_within _ ?_ ?_
    | with_reducible refine State.hailTxCond_within _ ?_ ?_
    | with_reducible refine State.anlMoved_within _ _ _ _ ?_ ?_
    | with_reducible refine State.setFld_within _ _ _ ?_ ?_
    | split
    | (dsimp only)

theorem execTxSetState_within {sc r₀ s₀} (c : Carrier) (hs : sub [.regs, .mem, .coreA, .coreB, .qc, .hws, .hif, .pwr, .free, .cph, .txA, .txB, .hailA, .hailB, .frmA, .frmB, .anl, .log, .ecc, .ref] sc = true) (h₀ : Within sc r₀ s₀) :
    OutWithin sc r₀ (execTxSetState c s₀) := by
  unfold execTxSetState
  repeat' first
    | with_reducible assumption
    | ((with_reducible refine sub_trans ?_ hs); exact rfl)
    | with_reducible exact trivial
    | with_reducible refine within_ite ?_ (fun _ => ?_)
    | with_reducible refine within_ite_snd ?_ (fun _ => ?_)
    | with_reducible refine outWithin_next ?_
    | with_reducible refine outWithin_ite ?_ ?_
    | with_reducible exact outWithin_fault _
    | with_reducible refine State.txEnter_within _ _ ?_ ?_
    | with_reducible refine State.anlLeaveOff_within _ _ ?_ ?_
    | with_reducible refine State.setTx_within _ _ ?_ ?_
    | with_reducible refine State.setFld_within _ _ _ ?_ ?_
    | with_reducible refine State.runCommand_within _ _ _ (fun _ _ _ => ?_) ?_ ?_
    | split
    | (dsimp only)

theorem State.txStateDone_within {sc r₀ s₀} (c : Carrier) (hs : sub [.regs, .mem, .coreA, .coreB, .qc, .hws, .hif, .pwr, .free, .cph, .txA, .txB, .hailA, .hailB, .frmA, .frmB, .anl, .log, .ecc, .ref] sc = true) (h₀ : Within sc r₀ s₀) :
    Within sc r₀ (State.txStateDone c s₀) := by
  unfold State.txStateDone
  repeat' first
    | with_reducible assumption
    | ((with_reducible refine sub_trans ?_ hs); exact rfl)
    | with_reducible exact trivial
    | with_reducible refine within_ite ?_ (fun _ => ?_)
    | with_reducible refine State.txEnter_within _ _ ?_ ?_
    | with_reducible refine State.complete_within _ _ _ _ ?_ ?_
    | split
    | (dsimp only)

theorem execTxDacSettled_within {sc r₀ s₀} (c : Carrier) (hs : sub [.regs, .mem, .coreA, .coreB, .qc, .hws, .hif, .pwr, .free, .cph, .txA, .txB, .hailA, .hailB, .frmA, .frmB, .anl, .log, .ecc, .ref] sc = true) (h₀ : Within sc r₀ s₀) :
    OutWithin sc r₀ (execTxDacSettled c s₀) := by
  unfold execTxDacSettled
  repeat' first
    | with_reducible assumption
    | ((with_reducible refine sub_trans ?_ hs); exact rfl)
    | with_reducible exact trivial
    | with_reducible refine within_ite ?_ (fun _ => ?_)
    | with_reducible refine outWithin_next ?_
    | with_reducible refine outWithin_ite ?_ ?_
    | with_reducible exact outWithin_fault _
    | with_reducible refine State.txStateDone_within _ ?_ ?_
    | with_reducible refine State.setTx_within _ _ ?_ ?_
    | split
    | (dsimp only)

theorem execTxMute_within {sc r₀ s₀} (c : Carrier) (hs : sub [.regs, .mem, .coreA, .coreB, .qc, .hws, .hif, .pwr, .free, .log, .ecc] sc = true) (h₀ : Within sc r₀ s₀) :
    OutWithin sc r₀ (execTxMute c s₀) := by
  unfold execTxMute
  repeat' first
    | with_reducible assumption
    | ((with_reducible refine sub_trans ?_ hs); exact rfl)
    | with_reducible exact trivial
    | with_reducible refine within_ite ?_ (fun _ => ?_)
    | with_reducible refine within_ite_snd ?_ (fun _ => ?_)
    | with_reducible refine outWithin_next ?_
    | with_reducible refine outWithin_ite ?_ ?_
    | with_reducible exact outWithin_fault _
    | with_reducible refine State.setFlag_within _ _ _ ?_ ?_
    | with_reducible refine State.runCommand_within _ _ _ (fun _ _ _ => ?_) ?_ ?_
    | split
    | (dsimp only)

theorem execTxLoadFir_within {sc r₀ s₀} (c : Carrier) (hs : sub [.regs, .mem, .coreA, .coreB, .qc, .hws, .hif, .pwr, .free, .txA, .txB, .log, .ecc] sc = true) (h₀ : Within sc r₀ s₀) :
    OutWithin sc r₀ (execTxLoadFir c s₀) := by
  unfold execTxLoadFir
  repeat' first
    | with_reducible assumption
    | ((with_reducible refine sub_trans ?_ hs); exact rfl)
    | with_reducible exact trivial
    | with_reducible refine within_ite ?_ (fun _ => ?_)
    | with_reducible refine within_ite_snd ?_ (fun _ => ?_)
    | with_reducible refine outWithin_next ?_
    | with_reducible refine outWithin_ite ?_ ?_
    | with_reducible exact outWithin_fault _
    | with_reducible refine State.setTx_within _ _ ?_ ?_
    | with_reducible refine State.runCommand_within _ _ _ (fun _ _ _ => ?_) ?_ ?_
    | with_reducible refine within_foldl (fun _ _ _ => ?_) ?_
    | with_reducible refine within_foldl_snd (fun _ _ _ => ?_) ?_
    | split
    | (dsimp only)

theorem execTxLoadNlc_within {sc r₀ s₀} (c : Carrier) (hs : sub [.regs, .mem, .coreA, .coreB, .qc, .hws, .hif, .pwr, .free, .txA, .txB, .log, .ecc] sc = true) (h₀ : Within sc r₀ s₀) :
    OutWithin sc r₀ (execTxLoadNlc c s₀) := by
  unfold execTxLoadNlc
  repeat' first
    | with_reducible assumption
    | ((with_reducible refine sub_trans ?_ hs); exact rfl)
    | with_reducible exact trivial
    | with_reducible refine within_ite ?_ (fun _ => ?_)
    | with_reducible refine within_ite_snd ?_ (fun _ => ?_)
    | with_reducible refine outWithin_next ?_
    | with_reducible refine outWithin_ite ?_ ?_
    | with_reducible exact outWithin_fault _
    | with_reducible refine State.setTx_within _ _ ?_ ?_
    | with_reducible refine State.setFld_within _ _ _ ?_ ?_
    | with_reducible refine State.runCommand_within _ _ _ (fun _ _ _ => ?_) ?_ ?_
    | split
    | (dsimp only)

theorem State.dacCodes_within {sc r₀ s₀} (c : Carrier) (lane : Nat) (n : Nat) (hs : sub [.free] sc = true) (h₀ : Within sc r₀ s₀) :
    Within sc r₀ (State.dacCodes s₀ c lane n).2 := by
  unfold State.dacCodes
  repeat' first
    | with_reducible assumption
    | ((with_reducible refine sub_trans ?_ hs); exact rfl)
    | with_reducible exact trivial
    | with_reducible refine within_ite ?_ (fun _ => ?_)
    | with_reducible refine within_ite_snd ?_ (fun _ => ?_)
    | with_reducible refine State.drawBytes_within' _  ‹_› ?_ ?_
    | with_reducible refine State.drawBytes_within _ ?_ ?_
    | with_reducible refine State.draw_within'  ‹_› ?_ ?_
    | with_reducible refine State.draw_within ?_ ?_
    | split
    | (dsimp only)
theorem State.dacCodes_within' {sc r₀ s₀ t} {x0} (c : Carrier) (lane : Nat) (n : Nat) (he : State.dacCodes s₀ c lane n = (x0, t)) (hs : sub [.free] sc = true) (h₀ : Within sc r₀ s₀) : Within sc r₀ t := by
  have h := State.dacCodes_within c lane n hs h₀
  rw [he] at h
  exact h

theorem State.txCapture_within {sc r₀ s₀} (c : Carrier) (lane : Nat) (a : Nat) (n : Nat) (hs : sub [.regs, .mem, .free, .ecc] sc = true) (h₀ : Within sc r₀ s₀) :
    Within sc r₀ (State.txCapture c lane a n s₀) := by
  unfold State.txCapture
  repeat' first
    | with_reducible assumption
    | ((with_reducible refine sub_trans ?_ hs); exact rfl)
    | with_reducible exact trivial
    | with_reducible refine within_ite ?_ (fun _ => ?_)
    | with_reducible refine State.dacCodes_within' _ _ _  ‹_› ?_ ?_
    | with_reducible refine State.dacCodes_within _ _ _ ?_ ?_
    | with_reducible refine State.setBytes_within _ _ ?_ ?_
    | split
    | (dsimp only)

theorem execTxCapture_within {sc r₀ s₀} (c : Carrier) (hs : sub [.regs, .mem, .coreA, .coreB, .qc, .hws, .hif, .pwr, .free, .log, .ecc] sc = true) (h₀ : Within sc r₀ s₀) :
    OutWithin sc r₀ (execTxCapture c s₀) := by
  unfold execTxCapture
  repeat' first
    | with_reducible assumption
    | ((with_reducible refine sub_trans ?_ hs); exact rfl)
    | with_reducible exact trivial
    | with_reducible refine within_ite ?_ (fun _ => ?_)
    | with_reducible refine within_ite_snd ?_ (fun _ => ?_)
    | with_reducible refine outWithin_next ?_
    | with_reducible refine outWithin_ite ?_ ?_
    | with_reducible exact outWithin_fault _
    | with_reducible refine State.txCapture_within _ _ _ _ ?_ ?_
    | with_reducible refine State.runCommand_within _ _ _ (fun _ _ _ => ?_) ?_ ?_
    | split
    | (dsimp only)

theorem State.txCapturesDue_within {sc r₀ s₀} (c : Carrier) (n : Nat) (hs : sub [.regs, .mem, .coreA, .coreB, .qc, .hws, .hif, .pwr, .free, .log, .ecc] sc = true) (h₀ : Within sc r₀ s₀) :
    Within sc r₀ (State.txCapturesDue c n s₀) := by
  induction n generalizing s₀ with
  | zero => exact h₀
  | succ n ih =>
    unfold State.txCapturesDue
    split
    · exact ih (State.complete_within _ _ _ _ (sub_trans rfl hs) (State.txCapture_within _ _ _ _ (sub_trans rfl hs) h₀))
    · exact h₀

theorem State.txLimited_within {sc r₀ s₀} (c : Carrier) (clips : Nat) (nlcSat : Bool) (hs : sub [.regs, .coreA, .coreB] sc = true) (h₀ : Within sc r₀ s₀) :
    Within sc r₀ (State.txLimited c clips nlcSat s₀) := by
  unfold State.txLimited
  repeat' first
    | with_reducible assumption
    | ((with_reducible refine sub_trans ?_ hs); exact rfl)
    | with_reducible exact trivial
    | with_reducible refine within_ite ?_ (fun _ => ?_)
    | with_reducible refine State.addCnt_within _ _ ?_ ?_
    | with_reducible refine State.setFlag_within _ _ _ ?_ ?_
    | split
    | (dsimp only)

theorem State.txSuperframe_within {sc r₀ s₀} (c : Carrier) (hs : sub [.regs, .mem, .coreA, .coreB, .qc, .hws, .hif, .pwr, .free, .txA, .txB, .log, .ecc, .ref] sc = true) (h₀ : Within sc r₀ s₀) :
    Within sc r₀ (State.txSuperframe c s₀) := by
  unfold State.txSuperframe
  repeat' first
    | with_reducible assumption
    | ((with_reducible refine sub_trans ?_ hs); exact rfl)
    | with_reducible exact trivial
    | with_reducible refine within_ite ?_ (fun _ => ?_)
    | with_reducible refine State.txCapturesDue_within _ _ ?_ ?_
    | with_reducible refine State.outSuperframe_within _ ?_ ?_
    | with_reducible refine State.setTx_within _ _ ?_ ?_
    | with_reducible refine State.addCnt_within _ _ ?_ ?_
    | split
    | (dsimp only)

theorem execTxSuperframeBoundary_within {sc r₀ s₀} (c : Carrier) (clips : Nat) (nlcSat : Bool) (hs : sub [.regs, .mem, .coreA, .coreB, .qc, .hws, .hif, .pwr, .free, .cph, .txA, .txB, .hailA, .hailB, .frmA, .frmB, .anl, .log, .ecc, .ref] sc = true) (h₀ : Within sc r₀ s₀) :
    OutWithin sc r₀ (execTxSuperframeBoundary c clips nlcSat s₀) := by
  unfold execTxSuperframeBoundary
  repeat' first
    | with_reducible assumption
    | ((with_reducible refine sub_trans ?_ hs); exact rfl)
    | with_reducible exact trivial
    | with_reducible refine within_ite ?_ (fun _ => ?_)
    | with_reducible refine outWithin_next ?_
    | with_reducible refine outWithin_ite ?_ ?_
    | with_reducible exact outWithin_fault _
    | with_reducible refine State.txSuperframe_within _ ?_ ?_
    | with_reducible refine State.txLimited_within _ _ _ ?_ ?_
    | with_reducible refine State.txStateDone_within _ ?_ ?_
    | with_reducible refine State.txUnmute_within _ ?_ ?_
    | with_reducible refine State.txMirror_within _ ?_ ?_
    | with_reducible refine State.hailWindow_within _ ?_ ?_
    | with_reducible refine State.anlBoundary_within _ _ ?_ ?_
    | with_reducible refine State.releaseWaiters_within ?_ ?_
    | with_reducible refine State.armBoundary_within _ ?_ ?_
    | with_reducible refine State.applyBoundary_within _ _ ?_ ?_
    | split
    | (dsimp only)

theorem State.txIdleClips_within {sc r₀ s₀} (c : Carrier) (hs : sub [.regs, .coreA, .coreB, .free] sc = true) (h₀ : Within sc r₀ s₀) :
    Within sc r₀ (State.txIdleClips c s₀) := by
  unfold State.txIdleClips
  repeat' first
    | with_reducible assumption
    | ((with_reducible refine sub_trans ?_ hs); exact rfl)
    | with_reducible exact trivial
    | with_reducible refine within_ite ?_ (fun _ => ?_)
    | with_reducible refine State.draw_within'  ‹_› ?_ ?_
    | with_reducible refine State.draw_within ?_ ?_
    | with_reducible refine State.addCnt_within _ _ ?_ ?_
    | with_reducible refine State.setFlag_within _ _ _ ?_ ?_
    | split
    | (dsimp only)

theorem execTxUnderrun_within {sc r₀ s₀} (c : Carrier) (hs : sub [.regs, .coreA, .coreB, .hif, .free, .txA, .txB] sc = true) (h₀ : Within sc r₀ s₀) :
    OutWithin sc r₀ (execTxUnderrun c s₀) := by
  unfold execTxUnderrun
  repeat' first
    | with_reducible assumption
    | ((with_reducible refine sub_trans ?_ hs); exact rfl)
    | with_reducible exact trivial
    | with_reducible refine within_ite ?_ (fun _ => ?_)
    | with_reducible refine outWithin_next ?_
    | with_reducible refine outWithin_ite ?_ ?_
    | with_reducible exact outWithin_fault _
    | with_reducible refine State.logOpen_within _ _ ?_ ?_
    | with_reducible refine State.setTx_within _ _ ?_ ?_
    | with_reducible refine State.addCnt_within _ _ ?_ ?_
    | with_reducible refine State.setFlag_within _ _ _ ?_ ?_
    | split
    | (dsimp only)

theorem execTxpEngineFault_within {sc r₀ s₀} (c : Carrier) (hs : sub [.regs, .coreA, .coreB, .hif, .free, .txA, .txB] sc = true) (h₀ : Within sc r₀ s₀) :
    OutWithin sc r₀ (execTxpEngineFault c s₀) := by
  unfold execTxpEngineFault
  repeat' first
    | with_reducible assumption
    | ((with_reducible refine sub_trans ?_ hs); exact rfl)
    | with_reducible exact trivial
    | with_reducible refine within_ite ?_ (fun _ => ?_)
    | with_reducible refine outWithin_next ?_
    | with_reducible refine outWithin_ite ?_ ?_
    | with_reducible exact outWithin_fault _
    | with_reducible refine State.logOpen_within _ _ ?_ ?_
    | with_reducible refine State.setTx_within _ _ ?_ ?_
    | with_reducible refine State.setFlag_within _ _ _ ?_ ?_
    | split
    | (dsimp only)

end Sys2Proof.Laws
end

