-- ==== Sys2Proof/Laws/Rx.lean ====
section
/-! SUPPORT. The scope of each operation of Sys2Proof/Machine/Rx.lean. -/
namespace Sys2Proof.Laws
open Sys2Proof.Machine Sys2Proof.Safety

theorem State.rxUnlock_within {sc r₀ s₀} (c : Carrier) (hs : sub [.regs, .mem, .coreA, .coreB, .qc, .hws, .hif, .pwr, .free, .rxA, .rxB, .anl, .log, .ecc] sc = true) (h₀ : Within sc r₀ s₀) :
    Within sc r₀ (State.rxUnlock c s₀) := by
  unfold State.rxUnlock
  repeat' first
    | with_reducible assumption
    | ((with_reducible refine sub_trans ?_ hs); exact rfl)
    | with_reducible exact trivial
    | with_reducible refine within_ite ?_ (fun _ => ?_)
    | with_reducible refine State.anlMoved_within _ _ _ _ ?_ ?_
    | with_reducible refine State.setRx_within _ _ ?_ ?_
    | with_reducible refine State.setFlag_within _ _ _ ?_ ?_
    | split
    | (dsimp only)

theorem State.cdScan_within {sc r₀ s₀} (c : Carrier) (about : Option Int) (hs : sub [.regs, .coreA, .coreB, .hif, .free, .rxA, .rxB, .fecA, .fecB] sc = true) (h₀ : Within sc r₀ s₀) :
    Within sc r₀ (State.cdScan c about s₀) := by
  unfold State.cdScan
  repeat' first
    | with_reducible assumption
    | ((with_reducible refine sub_trans ?_ hs); exact rfl)
    | with_reducible exact trivial
    | with_reducible refine within_ite ?_ (fun _ => ?_)
    | with_reducible refine State.setAcq_within _ _ ?_ ?_
    | with_reducible refine State.setRx_within _ _ ?_ ?_
    | split
    | (dsimp only)

theorem State.cdStart_within {sc r₀ s₀} (c : Carrier) (hs : sub [.regs, .coreA, .coreB, .hif, .free, .rxA, .rxB, .fecA, .fecB] sc = true) (h₀ : Within sc r₀ s₀) :
    Within sc r₀ (State.cdStart c s₀) := by
  unfold State.cdStart
  repeat' first
    | with_reducible assumption
    | ((with_reducible refine sub_trans ?_ hs); exact rfl)
    | with_reducible exact trivial
    | with_reducible refine within_ite ?_ (fun _ => ?_)
    | with_reducible refine State.cdScan_within _ _ ?_ ?_
    | with_reducible refine State.setAcq_within _ _ ?_ ?_
    | with_reducible refine State.setFldS_within _ _ _ ?_ ?_
    | with_reducible refine State.setFlag_within _ _ _ ?_ ?_
    | split
    | (dsimp only)

theorem State.rxTryNext_within {sc r₀ s₀} (c : Carrier) (hs : sub [.fecA, .fecB, .frmA, .frmB] sc = true) (h₀ : Within sc r₀ s₀) :
    Within sc r₀ (State.rxTryNext c s₀) := by
  unfold State.rxTryNext
  repeat' first
    | with_reducible assumption
    | ((with_reducible refine sub_trans ?_ hs); exact rfl)
    | with_reducible exact trivial
    | with_reducible refine within_ite ?_ (fun _ => ?_)
    | with_reducible refine State.setFrm_within _ _ ?_ ?_
    | with_reducible refine State.setFec_within _ _ ?_ ?_
    | split
    | (dsimp only)

theorem State.acqStart_within {sc r₀ s₀} (c : Carrier) (hs : sub [.regs, .mem, .coreA, .coreB, .qc, .hws, .hif, .pwr, .free, .rxA, .rxB, .eqA, .eqB, .crA, .crB, .fecA, .fecB, .hailA, .hailB, .frmA, .frmB, .anl, .log, .ecc] sc = true) (h₀ : Within sc r₀ s₀) :
    Within sc r₀ (State.acqStart c s₀) := by
  unfold State.acqStart
  repeat' first
    | with_reducible assumption
    | ((with_reducible refine sub_trans ?_ hs); exact rfl)
    | with_reducible exact trivial
    | with_reducible refine within_ite ?_ (fun _ => ?_)
    | with_reducible refine State.rxTryNext_within _ ?_ ?_
    | with_reducible refine State.cdStart_within _ ?_ ?_
    | with_reducible refine State.rxUnlock_within _ ?_ ?_
    | with_reducible refine State.rxStreamInvalid_within _ ?_ ?_
    | with_reducible refine State.eqAcquire_within _ ?_ ?_
    | with_reducible refine State.setRx_within _ _ ?_ ?_
    | split
    | (dsimp only)

theorem State.rxEnter_within {sc r₀ s₀} (c : Carrier) (t : Nat) (hs : sub [.regs, .mem, .coreA, .coreB, .qc, .hws, .hif, .pwr, .free, .cph, .rxA, .rxB, .eqA, .eqB, .crA, .crB, .fecA, .fecB, .hailA, .hailB, .frmA, .frmB, .anl, .log, .ecc] sc = true) (h₀ : Within sc r₀ s₀) :
    Within sc r₀ (State.rxEnter c t s₀) := by
  unfold State.rxEnter
  repeat' first
    | with_reducible assumption
    | ((with_reducible refine sub_trans ?_ hs); exact rfl)
    | with_reducible exact trivial
    | with_reducible refine within_ite ?_ (fun _ => ?_)
    | with_reducible refine State.acqStart_within _ ?_ ?_
    | with_reducible refine State.rxUnlock_within _ ?_ ?_
    | with_reducible refine State.rxServiceEnd_within _ ?_ ?_
    | with_reducible refine State.rxServiceStart_within _ ?_ ?_
    | with_reducible refine State.anlMoved_within _ _ _ _ ?_ ?_
    | with_reducible refine State.setAcq_within _ _ ?_ ?_
    | with_reducible refine State.rxStreamInvalid_within _ ?_ ?_
    | with_reducible refine State.hailRxCond_within _ ?_ ?_
    | with_reducible refine State.setRx_within _ _ ?_ ?_
    | with_reducible refine State.setFlag_within _ _ _ ?_ ?_
    | with_reducible refine State.setFld_within _ _ _ ?_ ?_
    | split
    | (dsimp only)

theorem execRxSetState_within {sc r₀ s₀} (c : Carrier) (hs : sub [.regs, .mem, .coreA, .coreB, .qc, .hws, .hif, .pwr, .free, .cph, .rxA, .rxB, .eqA, .eqB, .crA, .crB, .fecA, .fecB, .hailA, .hailB, .frmA, .frmB, .anl, .log, .ecc] sc = true) (h₀ : Within sc r₀ s₀) :
    OutWithin sc r₀ (execRxSetState c s₀) := by
  unfold execRxSetState
  repeat' first
    | with_reducible assumption
    | ((with_reducible refine sub_trans ?_ hs); exact rfl)
    | with_reducible exact trivial
    | with_reducible refine within_ite ?_ (fun _ => ?_)
    | with_reducible refine within_ite_snd ?_ (fun _ => ?_)
    | with_reducible refine outWithin_next ?_
    | with_reducible refine outWithin_ite ?_ ?_
    | with_reducible exact outWithin_fault _
    | with_reducible refine State.rxEnter_within _ _ ?_ ?_
    | with_reducible refine State.anlLeaveOff_within _ _ ?_ ?_
    | with_reducible refine State.setRx_within _ _ ?_ ?_
    | with_reducible refine State.runCommand_within _ _ _ (fun _ _ _ => ?_) ?_ ?_
    | split
    | (dsimp only)

theorem execRxAdcSettled_within {sc r₀ s₀} (c : Carrier) (hs : sub [.regs, .mem, .coreA, .coreB, .qc, .hws, .hif, .pwr, .free, .cph, .rxA, .rxB, .eqA, .eqB, .crA, .crB, .fecA, .fecB, .hailA, .hailB, .frmA, .frmB, .anl, .log, .ecc] sc = true) (h₀ : Within sc r₀ s₀) :
    OutWithin sc r₀ (execRxAdcSettled c s₀) := by
  unfold execRxAdcSettled
  repeat' first
    | with_reducible assumption
    | ((with_reducible refine sub_trans ?_ hs); exact rfl)
    | with_reducible exact trivial
    | with_reducible refine within_ite ?_ (fun _ => ?_)
    | with_reducible refine outWithin_next ?_
    | with_reducible refine outWithin_ite ?_ ?_
    | with_reducible exact outWithin_fault _
    | with_reducible refine State.rxEnter_within _ _ ?_ ?_
    | with_reducible refine State.setRx_within _ _ ?_ ?_
    | with_reducible refine State.complete_within _ _ _ _ ?_ ?_
    | split
    | (dsimp only)

theorem execRxReacquire_within {sc r₀ s₀} (c : Carrier) (hs : sub [.regs, .mem, .coreA, .coreB, .qc, .hws, .hif, .pwr, .free, .rxA, .rxB, .eqA, .eqB, .crA, .crB, .fecA, .fecB, .hailA, .hailB, .frmA, .frmB, .anl, .log, .ecc] sc = true) (h₀ : Within sc r₀ s₀) :
    OutWithin sc r₀ (execRxReacquire c s₀) := by
  unfold execRxReacquire
  repeat' first
    | with_reducible assumption
    | ((with_reducible refine sub_trans ?_ hs); exact rfl)
    | with_reducible exact trivial
    | with_reducible refine within_ite ?_ (fun _ => ?_)
    | with_reducible refine within_ite_snd ?_ (fun _ => ?_)
    | with_reducible refine outWithin_next ?_
    | with_reducible refine outWithin_ite ?_ ?_
    | with_reducible exact outWithin_fault _
    | with_reducible refine State.acqStart_within _ ?_ ?_
    | with_reducible refine State.runCommand_within _ _ _ (fun _ _ _ => ?_) ?_ ?_
    | split
    | (dsimp only)

theorem State.capture_within {sc r₀ s₀} (a : Nat) (n : Nat) (hs : sub [.regs, .mem, .free, .ecc] sc = true) (h₀ : Within sc r₀ s₀) :
    Within sc r₀ (State.capture a n s₀) := by
  unfold State.capture
  repeat' first
    | with_reducible assumption
    | ((with_reducible refine sub_trans ?_ hs); exact rfl)
    | with_reducible exact trivial
    | with_reducible refine within_ite ?_ (fun _ => ?_)
    | with_reducible refine State.drawBytes_within' _  ‹_› ?_ ?_
    | with_reducible refine State.drawBytes_within _ ?_ ?_
    | with_reducible refine State.setBytes_within _ _ ?_ ?_
    | split
    | (dsimp only)

theorem execRxCapture_within {sc r₀ s₀} (c : Carrier) (hs : sub [.regs, .mem, .coreA, .coreB, .qc, .hws, .hif, .pwr, .free, .log, .ecc] sc = true) (h₀ : Within sc r₀ s₀) :
    OutWithin sc r₀ (execRxCapture c s₀) := by
  unfold execRxCapture
  repeat' first
    | with_reducible assumption
    | ((with_reducible refine sub_trans ?_ hs); exact rfl)
    | with_reducible exact trivial
    | with_reducible refine within_ite ?_ (fun _ => ?_)
    | with_reducible refine within_ite_snd ?_ (fun _ => ?_)
    | with_reducible refine outWithin_next ?_
    | with_reducible refine outWithin_ite ?_ ?_
    | with_reducible exact outWithin_fault _
    | with_reducible refine State.capture_within _ _ ?_ ?_
    | with_reducible refine State.runCommand_within _ _ _ (fun _ _ _ => ?_) ?_ ?_
    | split
    | (dsimp only)

theorem State.rxCapturesDue_within {sc r₀ s₀} (c : Carrier) (n : Nat) (hs : sub [.regs, .mem, .coreA, .coreB, .qc, .hws, .hif, .pwr, .free, .log, .ecc] sc = true) (h₀ : Within sc r₀ s₀) :
    Within sc r₀ (State.rxCapturesDue c n s₀) := by
  induction n generalizing s₀ with
  | zero => exact h₀
  | succ n ih =>
    unfold State.rxCapturesDue
    split
    · exact ih (State.complete_within _ _ _ _ (sub_trans rfl hs) (State.capture_within _ _ (sub_trans rfl hs) h₀))
    · exact h₀

theorem State.losDeclare_within {sc r₀ s₀} (c : Carrier) (hs : sub [.regs, .mem, .coreA, .coreB, .qc, .hws, .hif, .pwr, .free, .rxA, .rxB, .crA, .crB, .fecA, .fecB, .hailA, .hailB, .frmA, .frmB, .mon, .anl, .log, .ecc] sc = true) (h₀ : Within sc r₀ s₀) :
    Within sc r₀ (State.losDeclare c s₀) := by
  unfold State.losDeclare
  repeat' first
    | with_reducible assumption
    | ((with_reducible refine sub_trans ?_ hs); exact rfl)
    | with_reducible exact trivial
    | with_reducible refine within_ite ?_ (fun _ => ?_)
    | with_reducible refine State.rxUnlock_within _ ?_ ?_
    | with_reducible refine State.hailSignalLost_within _ ?_ ?_
    | with_reducible refine State.frmSignal_within _ ?_ ?_
    | with_reducible refine State.monUrgent_within _ ?_ ?_
    | with_reducible refine State.setAcq_within _ _ ?_ ?_
    | with_reducible refine State.rxStreamInvalid_within _ ?_ ?_
    | with_reducible refine State.setRx_within _ _ ?_ ?_
    | with_reducible refine State.logEvent_within _ _ _ _ ?_ ?_
    | with_reducible refine State.addCnt_within _ _ ?_ ?_
    | with_reducible refine State.setFlag_within _ _ _ ?_ ?_
    | split
    | (dsimp only)

theorem State.losClear_within {sc r₀ s₀} (c : Carrier) (hs : sub [.regs, .mem, .coreA, .coreB, .qc, .hws, .hif, .pwr, .free, .rxA, .rxB, .fecA, .fecB, .frmA, .frmB, .log, .ecc] sc = true) (h₀ : Within sc r₀ s₀) :
    Within sc r₀ (State.losClear c s₀) := by
  unfold State.losClear
  repeat' first
    | with_reducible assumption
    | ((with_reducible refine sub_trans ?_ hs); exact rfl)
    | with_reducible exact trivial
    | with_reducible refine within_ite ?_ (fun _ => ?_)
    | with_reducible refine State.rxTryNext_within _ ?_ ?_
    | with_reducible refine State.frmSignal_within _ ?_ ?_
    | with_reducible refine State.setAcq_within _ _ ?_ ?_
    | with_reducible refine State.setRx_within _ _ ?_ ?_
    | with_reducible refine State.logEvent_within _ _ _ _ ?_ ?_
    | with_reducible refine State.setFlag_within _ _ _ ?_ ?_
    | split
    | (dsimp only)

theorem State.iqCheck_within {sc r₀ s₀} (c : Carrier) (hs : sub [.regs] sc = true) (h₀ : Within sc r₀ s₀) :
    Within sc r₀ (State.iqCheck c s₀) := by
  unfold State.iqCheck
  repeat' first
    | with_reducible assumption
    | ((with_reducible refine sub_trans ?_ hs); exact rfl)
    | with_reducible exact trivial
    | with_reducible refine within_ite ?_ (fun _ => ?_)
    | with_reducible refine State.setFlag_within _ _ _ ?_ ?_
    | split
    | (dsimp only)

theorem State.iqOne_within {sc r₀ s₀} (c : Carrier) (m : Int) (est : Carrier → Nat) (ef : Fld) (meas : Int) (hs : sub [.regs] sc = true) (h₀ : Within sc r₀ s₀) :
    Within sc r₀ (State.iqOne c m est ef meas s₀) := by
  unfold State.iqOne
  repeat' first
    | with_reducible assumption
    | ((with_reducible refine sub_trans ?_ hs); exact rfl)
    | with_reducible exact trivial
    | with_reducible refine within_ite ?_ (fun _ => ?_)
    | with_reducible refine State.setFldS_within _ _ _ ?_ ?_
    | split
    | (dsimp only)

theorem State.iqUpdate_within {sc r₀ s₀} (c : Carrier) (m : RxIq) (hs : sub [.regs] sc = true) (h₀ : Within sc r₀ s₀) :
    Within sc r₀ (State.iqUpdate c m s₀) := by
  unfold State.iqUpdate
  repeat' first
    | with_reducible assumption
    | ((with_reducible refine sub_trans ?_ hs); exact rfl)
    | with_reducible exact trivial
    | with_reducible refine within_ite ?_ (fun _ => ?_)
    | with_reducible refine State.iqOne_within _ _ _ _ _ ?_ ?_
    | with_reducible refine State.iqCheck_within _ ?_ ?_
    | split
    | (dsimp only)

theorem State.iqWindow_within {sc r₀ s₀} (c : Carrier) (m : RxIq) (hs : sub [.regs, .rxA, .rxB] sc = true) (h₀ : Within sc r₀ s₀) :
    Within sc r₀ (State.iqWindow c m s₀) := by
  unfold State.iqWindow
  repeat' first
    | with_reducible assumption
    | ((with_reducible refine sub_trans ?_ hs); exact rfl)
    | with_reducible exact trivial
    | with_reducible refine within_ite ?_ (fun _ => ?_)
    | with_reducible refine State.iqUpdate_within _ _ ?_ ?_
    | with_reducible refine State.setRx_within _ _ ?_ ?_
    | split
    | (dsimp only)

theorem State.rxClips_within {sc r₀ s₀} (c : Carrier) (n : Nat) (hs : sub [.regs, .coreA, .coreB] sc = true) (h₀ : Within sc r₀ s₀) :
    Within sc r₀ (State.rxClips c n s₀) := by
  unfold State.rxClips
  repeat' first
    | with_reducible assumption
    | ((with_reducible refine sub_trans ?_ hs); exact rfl)
    | with_reducible exact trivial
    | with_reducible refine within_ite ?_ (fun _ => ?_)
    | with_reducible refine State.addCnt_within _ _ ?_ ?_
    | with_reducible refine State.setFlag_within _ _ _ ?_ ?_
    | split
    | (dsimp only)

theorem execRxLosWindowEnd_within {sc r₀ s₀} (c : Carrier) (r0 : BitVec 16) (r1 : BitVec 16) (r2 : BitVec 16) (r3 : BitVec 16) (clips : Nat) (iq : RxIq) (hs : sub [.regs, .mem, .coreA, .coreB, .qc, .hws, .hif, .pwr, .free, .rxA, .rxB, .crA, .crB, .fecA, .fecB, .hailA, .hailB, .frmA, .frmB, .mon, .anl, .log, .ecc] sc = true) (h₀ : Within sc r₀ s₀) :
    OutWithin sc r₀ (execRxLosWindowEnd c r0 r1 r2 r3 clips iq s₀) := by
  unfold execRxLosWindowEnd
  repeat' first
    | with_reducible assumption
    | ((with_reducible refine sub_trans ?_ hs); exact rfl)
    | with_reducible exact trivial
    | with_reducible refine within_ite ?_ (fun _ => ?_)
    | with_reducible refine outWithin_next ?_
    | with_reducible refine outWithin_ite ?_ ?_
    | with_reducible exact outWithin_fault _
    | with_reducible refine State.rxClips_within _ _ ?_ ?_
    | with_reducible refine State.iqWindow_within _ _ ?_ ?_
    | with_reducible refine State.losClear_within _ ?_ ?_
    | with_reducible refine State.losDeclare_within _ ?_ ?_
    | with_reducible refine State.setRx_within _ _ ?_ ?_
    | with_reducible refine State.setFld_within _ _ _ ?_ ?_
    | split
    | (dsimp only)

theorem execHailCdDwellExpiry_within {sc r₀ s₀} (c : Carrier) (hs : sub [.regs] sc = true) (h₀ : Within sc r₀ s₀) :
    OutWithin sc r₀ (execHailCdDwellExpiry c s₀) := by
  unfold execHailCdDwellExpiry
  repeat' first
    | with_reducible assumption
    | ((with_reducible refine sub_trans ?_ hs); exact rfl)
    | with_reducible exact trivial
    | with_reducible refine within_ite ?_ (fun _ => ?_)
    | with_reducible refine outWithin_next ?_
    | with_reducible refine outWithin_ite ?_ ?_
    | with_reducible exact outWithin_fault _
    | with_reducible refine State.hailNextHyp_within _ ?_ ?_
    | split
    | (dsimp only)

theorem execCdScanComplete_within {sc r₀ s₀} (c : Carrier) (k1 : Nat) (k2 : Nat) (hs : sub [.regs, .coreA, .coreB, .hif, .free, .fecA, .fecB] sc = true) (h₀ : Within sc r₀ s₀) :
    OutWithin sc r₀ (execCdScanComplete c k1 k2 s₀) := by
  unfold execCdScanComplete
  repeat' first
    | with_reducible assumption
    | ((with_reducible refine sub_trans ?_ hs); exact rfl)
    | with_reducible exact trivial
    | with_reducible refine within_ite ?_ (fun _ => ?_)
    | with_reducible refine outWithin_next ?_
    | with_reducible refine outWithin_ite ?_ ?_
    | with_reducible exact outWithin_fault _
    | with_reducible refine State.setAcq_within _ _ ?_ ?_
    | with_reducible refine State.setFldS_within _ _ _ ?_ ?_
    | with_reducible refine State.setFlag_within _ _ _ ?_ ?_
    | split
    | (dsimp only)

theorem execTrLockDeclared_within {sc r₀ s₀} (c : Carrier) (offset : BitVec 20) (hs : sub [.regs, .coreA, .coreB, .hif, .free, .fecA, .fecB] sc = true) (h₀ : Within sc r₀ s₀) :
    OutWithin sc r₀ (execTrLockDeclared c offset s₀) := by
  unfold execTrLockDeclared
  repeat' first
    | with_reducible assumption
    | ((with_reducible refine sub_trans ?_ hs); exact rfl)
    | with_reducible exact trivial
    | with_reducible refine within_ite ?_ (fun _ => ?_)
    | with_reducible refine outWithin_next ?_
    | with_reducible refine outWithin_ite ?_ ?_
    | with_reducible exact outWithin_fault _
    | with_reducible refine State.setAcq_within _ _ ?_ ?_
    | with_reducible refine State.setFlag_within _ _ _ ?_ ?_
    | with_reducible refine State.setFld_within _ _ _ ?_ ?_
    | split
    | (dsimp only)

theorem execTrLockLost_within {sc r₀ s₀} (c : Carrier) (hs : sub [.regs, .coreA, .coreB, .hif, .free, .fecA, .fecB] sc = true) (h₀ : Within sc r₀ s₀) :
    OutWithin sc r₀ (execTrLockLost c s₀) := by
  unfold execTrLockLost
  repeat' first
    | with_reducible assumption
    | ((with_reducible refine sub_trans ?_ hs); exact rfl)
    | with_reducible exact trivial
    | with_reducible refine within_ite ?_ (fun _ => ?_)
    | with_reducible refine outWithin_next ?_
    | with_reducible refine outWithin_ite ?_ ?_
    | with_reducible exact outWithin_fault _
    | with_reducible refine State.setAcq_within _ _ ?_ ?_
    | with_reducible refine State.setFlag_within _ _ _ ?_ ?_
    | split
    | (dsimp only)

theorem execTrRangeTimeout_within {sc r₀ s₀} (c : Carrier) (hs : sub [.regs] sc = true) (h₀ : Within sc r₀ s₀) :
    OutWithin sc r₀ (execTrRangeTimeout c s₀) := by
  unfold execTrRangeTimeout
  repeat' first
    | with_reducible assumption
    | ((with_reducible refine sub_trans ?_ hs); exact rfl)
    | with_reducible exact trivial
    | with_reducible refine within_ite ?_ (fun _ => ?_)
    | with_reducible refine outWithin_next ?_
    | with_reducible refine outWithin_ite ?_ ?_
    | with_reducible exact outWithin_fault _
    | with_reducible refine State.setFlag_within _ _ _ ?_ ?_
    | split
    | (dsimp only)

theorem execSfPeakDetected_within {sc r₀ s₀} (c : Carrier) (metric : Nat) (spacing : Nat) (hs : sub [.regs, .coreA, .coreB, .hif, .free, .rxA, .rxB, .eqA, .eqB, .fecA, .fecB, .hailA, .hailB] sc = true) (h₀ : Within sc r₀ s₀) :
    OutWithin sc r₀ (execSfPeakDetected c metric spacing s₀) := by
  unfold execSfPeakDetected
  repeat' first
    | with_reducible assumption
    | ((with_reducible refine sub_trans ?_ hs); exact rfl)
    | with_reducible exact trivial
    | with_reducible refine within_ite ?_ (fun _ => ?_)
    | with_reducible refine outWithin_next ?_
    | with_reducible refine outWithin_ite ?_ ?_
    | with_reducible exact outWithin_fault _
    | with_reducible refine State.rxStreamValid_within _ ?_ ?_
    | with_reducible refine State.setAcq_within _ _ ?_ ?_
    | with_reducible refine State.setRx_within _ _ ?_ ?_
    | with_reducible refine State.logEvent_within _ _ _ _ ?_ ?_
    | with_reducible refine State.setFlag_within _ _ _ ?_ ?_
    | split
    | (dsimp only)

theorem execSfLockLost_within {sc r₀ s₀} (c : Carrier) (hs : sub [.regs, .mem, .coreA, .coreB, .qc, .hws, .hif, .pwr, .free, .rxA, .rxB, .crA, .crB, .fecA, .fecB, .hailA, .hailB, .frmA, .frmB, .anl, .log, .ecc] sc = true) (h₀ : Within sc r₀ s₀) :
    OutWithin sc r₀ (execSfLockLost c s₀) := by
  unfold execSfLockLost
  repeat' first
    | with_reducible assumption
    | ((with_reducible refine sub_trans ?_ hs); exact rfl)
    | with_reducible exact trivial
    | with_reducible refine within_ite ?_ (fun _ => ?_)
    | with_reducible refine outWithin_next ?_
    | with_reducible refine outWithin_ite ?_ ?_
    | with_reducible exact outWithin_fault _
    | with_reducible refine State.rxTryNext_within _ ?_ ?_
    | with_reducible refine State.anlMoved_within _ _ _ _ ?_ ?_
    | with_reducible refine State.setAcq_within _ _ ?_ ?_
    | with_reducible refine State.rxStreamInvalid_within _ ?_ ?_
    | with_reducible refine State.setRx_within _ _ ?_ ?_
    | with_reducible refine State.logEvent_within _ _ _ _ ?_ ?_
    | with_reducible refine State.addCnt_within _ _ ?_ ?_
    | with_reducible refine State.setFlag_within _ _ _ ?_ ?_
    | split
    | (dsimp only)

theorem execReacqTimeout_within {sc r₀ s₀} (c : Carrier) (hs : sub [.regs, .mem, .coreA, .coreB, .qc, .hws, .hif, .pwr, .free, .rxA, .rxB, .eqA, .eqB, .crA, .crB, .fecA, .fecB, .hailA, .hailB, .frmA, .frmB, .anl, .log, .ecc] sc = true) (h₀ : Within sc r₀ s₀) :
    OutWithin sc r₀ (execReacqTimeout c s₀) := by
  unfold execReacqTimeout
  repeat' first
    | with_reducible assumption
    | ((with_reducible refine sub_trans ?_ hs); exact rfl)
    | with_reducible exact trivial
    | with_reducible refine within_ite ?_ (fun _ => ?_)
    | with_reducible refine outWithin_next ?_
    | with_reducible refine outWithin_ite ?_ ?_
    | with_reducible exact outWithin_fault _
    | with_reducible refine State.acqStart_within _ ?_ ?_
    | with_reducible refine State.cdScan_within _ _ ?_ ?_
    | with_reducible refine State.setRx_within _ _ ?_ ?_
    | with_reducible refine State.logEvent_within _ _ _ _ ?_ ?_
    | with_reducible refine State.setFlag_within _ _ _ ?_ ?_
    | split
    | (dsimp only)

theorem execRxfEngineFault_within {sc r₀ s₀} (c : Carrier) (hs : sub [.regs, .mem, .coreA, .coreB, .qc, .hws, .hif, .pwr, .free, .rxA, .rxB, .crA, .crB, .hailA, .hailB, .frmA, .frmB, .log, .ecc] sc = true) (h₀ : Within sc r₀ s₀) :
    OutWithin sc r₀ (execRxfEngineFault c s₀) := by
  unfold execRxfEngineFault
  repeat' first
    | with_reducible assumption
    | ((with_reducible refine sub_trans ?_ hs); exact rfl)
    | with_reducible exact trivial
    | with_reducible refine within_ite ?_ (fun _ => ?_)
    | with_reducible refine outWithin_next ?_
    | with_reducible refine outWithin_ite ?_ ?_
    | with_reducible exact outWithin_fault _
    | with_reducible refine State.frmSignal_within _ ?_ ?_
    | with_reducible refine State.rxStreamInvalid_within _ ?_ ?_
    | with_reducible refine State.setRx_within _ _ ?_ ?_
    | with_reducible refine State.logFault_within _ _ _ ?_ ?_
    | with_reducible refine State.setFlag_within _ _ _ ?_ ?_
    | split
    | (dsimp only)

theorem State.rxfBoundary_within {sc r₀ s₀} (c : Carrier) (m : RxMeas) (hs : sub [.regs, .mem, .coreA, .coreB, .qc, .hws, .hif, .pwr, .free, .anl, .log, .ecc] sc = true) (h₀ : Within sc r₀ s₀) :
    Within sc r₀ (State.rxfBoundary c m s₀) := by
  unfold State.rxfBoundary
  repeat' first
    | with_reducible assumption
    | ((with_reducible refine sub_trans ?_ hs); exact rfl)
    | with_reducible exact trivial
    | with_reducible refine within_ite ?_ (fun _ => ?_)
    | with_reducible refine State.iqUpdate_within _ _ ?_ ?_
    | with_reducible refine State.iqCheck_within _ ?_ ?_
    | with_reducible refine State.rxCapturesDue_within _ _ ?_ ?_
    | with_reducible refine State.anlBoundary_within _ _ ?_ ?_
    | with_reducible refine State.applyBoundary_within _ _ ?_ ?_
    | with_reducible refine State.addCnt_within _ _ ?_ ?_
    | split
    | (dsimp only)

end Sys2Proof.Laws
end

