-- ==== Sys2Proof/Laws/Eqz.lean ====
section
/-! SUPPORT. The scope of each operation of Sys2Proof/Machine/Eqz.lean. -/
namespace Sys2Proof.Laws
open Sys2Proof.Machine Sys2Proof.Safety

theorem State.crLockLost_within {sc r₀ s₀} (c : Carrier) (hs : sub [.regs, .coreA, .coreB, .hif, .free, .crA, .crB] sc = true) (h₀ : Within sc r₀ s₀) :
    Within sc r₀ (State.crLockLost c s₀) := by
  unfold State.crLockLost
  repeat' first
    | with_reducible assumption
    | ((with_reducible refine sub_trans ?_ hs); exact rfl)
    | with_reducible exact trivial
    | with_reducible refine within_ite ?_ (fun _ => ?_)
    | with_reducible refine State.crLeave_within _ _ ?_ ?_
    | with_reducible refine State.logEvent_within _ _ _ _ ?_ ?_
    | with_reducible refine State.draw_within'  ‹_› ?_ ?_
    | with_reducible refine State.draw_within ?_ ?_
    | with_reducible refine State.addCnt_within _ _ ?_ ?_
    | with_reducible refine State.setFlag_within _ _ _ ?_ ?_
    | split
    | (dsimp only)

theorem State.sopUpdate_within {sc r₀ s₀} (c : Carrier) (sop : List Angles) (hs : sub [.eqA, .eqB] sc = true) (h₀ : Within sc r₀ s₀) :
    Within sc r₀ (State.sopUpdate c sop s₀) := by
  unfold State.sopUpdate
  repeat' first
    | with_reducible assumption
    | ((with_reducible refine sub_trans ?_ hs); exact rfl)
    | with_reducible exact trivial
    | with_reducible refine within_ite ?_ (fun _ => ?_)
    | with_reducible refine State.setEq_within _ _ ?_ ?_
    | split
    | (dsimp only)

theorem execEqTapUpdate_within {sc r₀ s₀} (c : Carrier) (grad : List Int) (sop : List Angles) (hs : sub [.eqA, .eqB] sc = true) (h₀ : Within sc r₀ s₀) :
    OutWithin sc r₀ (execEqTapUpdate c grad sop s₀) := by
  unfold execEqTapUpdate
  repeat' first
    | with_reducible assumption
    | ((with_reducible refine sub_trans ?_ hs); exact rfl)
    | with_reducible exact trivial
    | with_reducible refine within_ite ?_ (fun _ => ?_)
    | with_reducible refine outWithin_next ?_
    | with_reducible refine outWithin_ite ?_ ?_
    | with_reducible exact outWithin_fault _
    | with_reducible refine State.sopUpdate_within _ _ ?_ ?_
    | with_reducible refine State.setEq_within _ _ ?_ ?_
    | split
    | (dsimp only)

theorem execEqHold_within {sc r₀ s₀} (c : Carrier) (hs : sub [.regs, .mem, .coreA, .coreB, .qc, .hws, .hif, .pwr, .free, .eqA, .eqB, .log, .ecc] sc = true) (h₀ : Within sc r₀ s₀) :
    OutWithin sc r₀ (execEqHold c s₀) := by
  unfold execEqHold
  repeat' first
    | with_reducible assumption
    | ((with_reducible refine sub_trans ?_ hs); exact rfl)
    | with_reducible exact trivial
    | with_reducible refine within_ite ?_ (fun _ => ?_)
    | with_reducible refine within_ite_snd ?_ (fun _ => ?_)
    | with_reducible refine outWithin_next ?_
    | with_reducible refine outWithin_ite ?_ ?_
    | with_reducible exact outWithin_fault _
    | with_reducible refine State.setEq_within _ _ ?_ ?_
    | with_reducible refine State.setFld_within _ _ _ ?_ ?_
    | with_reducible refine State.runCommand_within _ _ _ (fun _ _ _ => ?_) ?_ ?_
    | split
    | (dsimp only)

theorem execEqReconverge_within {sc r₀ s₀} (c : Carrier) (hs : sub [.regs, .mem, .coreA, .coreB, .qc, .hws, .hif, .pwr, .free, .log, .ecc] sc = true) (h₀ : Within sc r₀ s₀) :
    OutWithin sc r₀ (execEqReconverge c s₀) := by
  unfold execEqReconverge
  repeat' first
    | with_reducible assumption
    | ((with_reducible refine sub_trans ?_ hs); exact rfl)
    | with_reducible exact trivial
    | with_reducible refine within_ite ?_ (fun _ => ?_)
    | with_reducible refine within_ite_snd ?_ (fun _ => ?_)
    | with_reducible refine outWithin_next ?_
    | with_reducible refine outWithin_ite ?_ ?_
    | with_reducible exact outWithin_fault _
    | with_reducible refine State.runCommand_within _ _ _ (fun _ _ _ => ?_) ?_ ?_
    | split
    | (dsimp only)

theorem execEqReadTaps_within {sc r₀ s₀} (c : Carrier) (hs : sub [.regs, .mem, .coreA, .coreB, .qc, .hws, .hif, .pwr, .free, .log, .ecc] sc = true) (h₀ : Within sc r₀ s₀) :
    OutWithin sc r₀ (execEqReadTaps c s₀) := by
  unfold execEqReadTaps
  repeat' first
    | with_reducible assumption
    | ((with_reducible refine sub_trans ?_ hs); exact rfl)
    | with_reducible exact trivial
    | with_reducible refine within_ite ?_ (fun _ => ?_)
    | with_reducible refine within_ite_snd ?_ (fun _ => ?_)
    | with_reducible refine outWithin_next ?_
    | with_reducible refine outWithin_ite ?_ ?_
    | with_reducible exact outWithin_fault _
    | with_reducible refine State.setBytes_within _ _ ?_ ?_
    | with_reducible refine State.runCommand_within _ _ _ (fun _ _ _ => ?_) ?_ ?_
    | split
    | (dsimp only)

theorem execEqSliceRetest_within {sc r₀ s₀} (c : Carrier) (hs : sub [.regs, .mem, .coreA, .coreB, .qc, .hws, .hif, .pwr, .free, .log, .ecc] sc = true) (h₀ : Within sc r₀ s₀) :
    OutWithin sc r₀ (execEqSliceRetest c s₀) := by
  unfold execEqSliceRetest
  repeat' first
    | with_reducible assumption
    | ((with_reducible refine sub_trans ?_ hs); exact rfl)
    | with_reducible exact trivial
    | with_reducible refine within_ite ?_ (fun _ => ?_)
    | with_reducible refine within_ite_snd ?_ (fun _ => ?_)
    | with_reducible refine outWithin_next ?_
    | with_reducible refine outWithin_ite ?_ ?_
    | with_reducible exact outWithin_fault _
    | with_reducible refine State.eqCount_within _ ?_ ?_
    | with_reducible refine State.setRole_within _ _ _ ?_ ?_
    | with_reducible refine State.runCommand_within _ _ _ (fun _ _ _ => ?_) ?_ ?_
    | split
    | (dsimp only)

theorem State.eqRetestDone_within {sc r₀ s₀} (c : Carrier) (slice : Nat) (pass : Bool) (hs : sub [.regs, .coreA, .coreB, .hif] sc = true) (h₀ : Within sc r₀ s₀) :
    Within sc r₀ (State.eqRetestDone c slice pass s₀) := by
  unfold State.eqRetestDone
  repeat' first
    | with_reducible assumption
    | ((with_reducible refine sub_trans ?_ hs); exact rfl)
    | with_reducible exact trivial
    | with_reducible refine within_ite ?_ (fun _ => ?_)
    | with_reducible refine State.eqCount_within _ ?_ ?_
    | with_reducible refine State.setRole_within _ _ _ ?_ ?_
    | with_reducible refine State.logEvent_within _ _ _ _ ?_ ?_
    | split
    | (dsimp only)

theorem execEqzShadowCopyComplete_within {sc r₀ s₀} (c : Carrier) (hs : sub [.regs, .eqA, .eqB] sc = true) (h₀ : Within sc r₀ s₀) :
    OutWithin sc r₀ (execEqzShadowCopyComplete c s₀) := by
  unfold execEqzShadowCopyComplete
  repeat' first
    | with_reducible assumption
    | ((with_reducible refine sub_trans ?_ hs); exact rfl)
    | with_reducible exact trivial
    | with_reducible refine within_ite ?_ (fun _ => ?_)
    | with_reducible refine outWithin_next ?_
    | with_reducible refine outWithin_ite ?_ ?_
    | with_reducible exact outWithin_fault _
    | with_reducible refine State.setEq_within _ _ ?_ ?_
    | with_reducible refine State.setFlag_within _ _ _ ?_ ?_
    | with_reducible refine State.setFld_within _ _ _ ?_ ?_
    | split
    | (dsimp only)

theorem State.eqCopyStart_within {sc r₀ s₀} (c : Carrier) (hs : sub [.eqA, .eqB] sc = true) (h₀ : Within sc r₀ s₀) :
    Within sc r₀ (State.eqCopyStart c s₀) := by
  unfold State.eqCopyStart
  repeat' first
    | with_reducible assumption
    | ((with_reducible refine sub_trans ?_ hs); exact rfl)
    | with_reducible exact trivial
    | with_reducible refine within_ite ?_ (fun _ => ?_)
    | with_reducible refine State.setEq_within _ _ ?_ ?_
    | split
    | (dsimp only)

theorem State.eqAge_within {sc r₀ s₀} (c : Carrier) (hs : sub [.regs] sc = true) (h₀ : Within sc r₀ s₀) :
    Within sc r₀ (State.eqAge c s₀) := by
  unfold State.eqAge
  repeat' first
    | with_reducible assumption
    | ((with_reducible refine sub_trans ?_ hs); exact rfl)
    | with_reducible exact trivial
    | with_reducible refine within_ite ?_ (fun _ => ?_)
    | with_reducible refine State.setFld_within _ _ _ ?_ ?_
    | split
    | (dsimp only)

theorem execSliceFailureDeclared_within {sc r₀ s₀} (c : Carrier) (slice : Fin 9) (cause : Fin 3) (errs : List Nat) (hs : sub [.regs, .coreA, .coreB, .hif, .eqA, .eqB] sc = true) (h₀ : Within sc r₀ s₀) :
    OutWithin sc r₀ (execSliceFailureDeclared c slice cause errs s₀) := by
  unfold execSliceFailureDeclared
  repeat' first
    | with_reducible assumption
    | ((with_reducible refine sub_trans ?_ hs); exact rfl)
    | with_reducible exact trivial
    | with_reducible refine within_ite ?_ (fun _ => ?_)
    | with_reducible refine outWithin_next ?_
    | with_reducible refine outWithin_ite ?_ ?_
    | with_reducible exact outWithin_fault _
    | with_reducible refine State.eqCount_within _ ?_ ?_
    | with_reducible refine State.setRole_within _ _ _ ?_ ?_
    | with_reducible refine State.setEq_within _ _ ?_ ?_
    | with_reducible refine State.logEvent_within _ _ _ _ ?_ ?_
    | with_reducible refine State.setFlag_within _ _ _ ?_ ?_
    | split
    | (dsimp only)

theorem State.swapSlices_within {sc r₀ s₀} (c : Carrier) (l : List Nat) (hs : sub [.regs, .coreA, .coreB, .hif, .log] sc = true) (h₀ : Within sc r₀ s₀) :
    Within sc r₀ (State.swapSlices c l s₀).2 := by
  induction l generalizing s₀ with
  | nil => exact h₀
  | cons i l ih =>
    unfold State.swapSlices
    dsimp only
    repeat' first
      | with_reducible assumption
      | ((with_reducible refine sub_trans ?_ hs); exact rfl)
      | with_reducible refine ih ?_
      | with_reducible refine State.eqCount_within _ ?_ ?_
      | with_reducible refine State.setRole_within _ _ _ ?_ ?_
      | with_reducible refine State.spareUsed_within _ ?_ ?_
      | with_reducible refine State.logEvent_within _ _ _ _ ?_ ?_
      | with_reducible refine State.addCnt_within _ _ ?_ ?_
      | with_reducible refine State.setFlag_within _ _ _ ?_ ?_
      | split
      | split

theorem State.swapSlices_within' {sc r₀ s₀ t x0} (c : Carrier) (l : List Nat) (e : State.swapSlices c l s₀ = (x0, t)) (hs : sub [.regs, .coreA, .coreB, .hif, .log] sc = true)
    (h₀ : Within sc r₀ s₀) : Within sc r₀ t := by
  have h := State.swapSlices_within c l hs h₀
  rw [e] at h
  exact h

theorem execSliceSwap_within {sc r₀ s₀} (c : Carrier) (hs : sub [.regs, .coreA, .coreB, .hif, .eqA, .eqB, .crA, .crB, .log] sc = true) (h₀ : Within sc r₀ s₀) :
    OutWithin sc r₀ (execSliceSwap c s₀) := by
  unfold execSliceSwap
  repeat' first
    | with_reducible assumption
    | ((with_reducible refine sub_trans ?_ hs); exact rfl)
    | with_reducible exact trivial
    | with_reducible refine within_ite ?_ (fun _ => ?_)
    | with_reducible refine outWithin_next ?_
    | with_reducible refine outWithin_ite ?_ ?_
    | with_reducible exact outWithin_fault _
    | with_reducible refine State.swapSlices_within' _ _  ‹_› ?_ ?_
    | with_reducible refine State.swapSlices_within _ _ ?_ ?_
    | with_reducible refine State.crLeave_within _ _ ?_ ?_
    | with_reducible refine State.setEq_within _ _ ?_ ?_
    | split
    | (dsimp only)

theorem execEqzCrrEngineFault_within {sc r₀ s₀} (c : Carrier) (crr : Bool) (hs : sub [.regs, .coreA, .coreB, .hif, .free, .eqA, .eqB, .crA, .crB] sc = true) (h₀ : Within sc r₀ s₀) :
    OutWithin sc r₀ (execEqzCrrEngineFault c crr s₀) := by
  unfold execEqzCrrEngineFault
  repeat' first
    | with_reducible assumption
    | ((with_reducible refine sub_trans ?_ hs); exact rfl)
    | with_reducible exact trivial
    | with_reducible refine within_ite ?_ (fun _ => ?_)
    | with_reducible refine outWithin_next ?_
    | with_reducible refine outWithin_ite ?_ ?_
    | with_reducible exact outWithin_fault _
    | with_reducible refine State.setCr_within _ _ ?_ ?_
    | with_reducible refine State.setEq_within _ _ ?_ ?_
    | with_reducible refine State.logFault_within _ _ _ ?_ ?_
    | with_reducible refine State.setFlag_within _ _ _ ?_ ?_
    | split
    | (dsimp only)

theorem execCrReacquire_within {sc r₀ s₀} (c : Carrier) (hs : sub [.regs, .mem, .coreA, .coreB, .qc, .hws, .hif, .pwr, .free, .log, .ecc] sc = true) (h₀ : Within sc r₀ s₀) :
    OutWithin sc r₀ (execCrReacquire c s₀) := by
  unfold execCrReacquire
  repeat' first
    | with_reducible assumption
    | ((with_reducible refine sub_trans ?_ hs); exact rfl)
    | with_reducible exact trivial
    | with_reducible refine within_ite ?_ (fun _ => ?_)
    | with_reducible refine within_ite_snd ?_ (fun _ => ?_)
    | with_reducible refine outWithin_next ?_
    | with_reducible refine outWithin_ite ?_ ?_
    | with_reducible exact outWithin_fault _
    | with_reducible refine State.runCommand_within _ _ _ (fun _ _ _ => ?_) ?_ ?_
    | split
    | (dsimp only)

theorem execCrFreqSeed_within {sc r₀ s₀} (c : Carrier) (hs : sub [.regs, .mem, .coreA, .coreB, .qc, .hws, .hif, .pwr, .free, .crA, .crB, .log, .ecc] sc = true) (h₀ : Within sc r₀ s₀) :
    OutWithin sc r₀ (execCrFreqSeed c s₀) := by
  unfold execCrFreqSeed
  repeat' first
    | with_reducible assumption
    | ((with_reducible refine sub_trans ?_ hs); exact rfl)
    | with_reducible exact trivial
    | with_reducible refine within_ite ?_ (fun _ => ?_)
    | with_reducible refine within_ite_snd ?_ (fun _ => ?_)
    | with_reducible refine outWithin_next ?_
    | with_reducible refine outWithin_ite ?_ ?_
    | with_reducible exact outWithin_fault _
    | with_reducible refine State.setCr_within _ _ ?_ ?_
    | with_reducible refine State.runCommand_within _ _ _ (fun _ _ _ => ?_) ?_ ?_
    | split
    | (dsimp only)

theorem execCrCapture_within {sc r₀ s₀} (c : Carrier) (hs : sub [.regs, .mem, .coreA, .coreB, .qc, .hws, .hif, .pwr, .free, .log, .ecc] sc = true) (h₀ : Within sc r₀ s₀) :
    OutWithin sc r₀ (execCrCapture c s₀) := by
  unfold execCrCapture
  repeat' first
    | with_reducible assumption
    | ((with_reducible refine sub_trans ?_ hs); exact rfl)
    | with_reducible exact trivial
    | with_reducible refine within_ite ?_ (fun _ => ?_)
    | with_reducible refine within_ite_snd ?_ (fun _ => ?_)
    | with_reducible refine outWithin_next ?_
    | with_reducible refine outWithin_ite ?_ ?_
    | with_reducible exact outWithin_fault _
    | with_reducible refine State.runCommand_within _ _ _ (fun _ _ _ => ?_) ?_ ?_
    | split
    | (dsimp only)

theorem State.crCaptureEnd_within {sc r₀ s₀} (x : PolOut) (y : PolOut) (w : W32 × Nat) (hs : sub [.regs, .mem, .coreA, .coreB, .qc, .hws, .hif, .pwr, .free, .log, .ecc] sc = true) (h₀ : Within sc r₀ s₀) :
    Within sc r₀ (State.crCaptureEnd x y w s₀) := by
  unfold State.crCaptureEnd
  repeat' first
    | with_reducible assumption
    | ((with_reducible refine sub_trans ?_ hs); exact rfl)
    | with_reducible exact trivial
    | with_reducible refine within_ite ?_ (fun _ => ?_)
    | with_reducible refine State.complete_within _ _ _ _ ?_ ?_
    | with_reducible refine State.setBytes_within _ _ ?_ ?_
    | split
    | (dsimp only)

theorem State.crCaptures_within {sc r₀ s₀} (c : Carrier) (x : PolOut) (y : PolOut) (hs : sub [.regs, .mem, .coreA, .coreB, .qc, .hws, .hif, .pwr, .free, .crA, .crB, .log, .ecc] sc = true) (h₀ : Within sc r₀ s₀) :
    Within sc r₀ (State.crCaptures c x y s₀) := by
  unfold State.crCaptures
  repeat' first
    | with_reducible assumption
    | ((with_reducible refine sub_trans ?_ hs); exact rfl)
    | with_reducible exact trivial
    | with_reducible refine within_ite ?_ (fun _ => ?_)
    | with_reducible refine State.crCaptureEnd_within _ _ _ ?_ ?_
    | with_reducible refine State.setCr_within _ _ ?_ ?_
    | with_reducible refine within_foldl (fun _ _ _ => ?_) ?_
    | with_reducible refine within_foldl_snd (fun _ _ _ => ?_) ?_
    | split
    | (dsimp only)

theorem State.sopReport_within {sc r₀ s₀} (c : Carrier) (hs : sub [.regs, .coreA, .coreB, .hif, .eqA, .eqB, .log] sc = true) (h₀ : Within sc r₀ s₀) :
    Within sc r₀ (State.sopReport c s₀) := by
  unfold State.sopReport
  repeat' first
    | with_reducible assumption
    | ((with_reducible refine sub_trans ?_ hs); exact rfl)
    | with_reducible exact trivial
    | with_reducible refine within_ite ?_ (fun _ => ?_)
    | with_reducible refine State.noteSopRate_within _ _ ?_ ?_
    | with_reducible refine State.setEq_within _ _ ?_ ?_
    | with_reducible refine State.logEvent_within _ _ _ _ ?_ ?_
    | with_reducible refine State.addCnt_within _ _ ?_ ?_
    | with_reducible refine State.setFlag_within _ _ _ ?_ ?_
    | with_reducible refine State.setFld_within _ _ _ ?_ ?_
    | split
    | (dsimp only)

theorem State.polCheck_within {sc r₀ s₀} (c : Carrier) (m : RxMeas) (hs : sub [.regs, .coreA, .coreB, .hif, .free, .eqA, .eqB, .crA, .crB] sc = true) (h₀ : Within sc r₀ s₀) :
    Within sc r₀ (State.polCheck c m s₀) := by
  unfold State.polCheck
  repeat' first
    | with_reducible assumption
    | ((with_reducible refine sub_trans ?_ hs); exact rfl)
    | with_reducible exact trivial
    | with_reducible refine within_ite ?_ (fun _ => ?_)
    | with_reducible refine State.crLockLost_within _ ?_ ?_
    | with_reducible refine State.setEq_within _ _ ?_ ?_
    | with_reducible refine State.logEvent_within _ _ _ _ ?_ ?_
    | with_reducible refine State.addCnt_within _ _ ?_ ?_
    | with_reducible refine State.setFlag_within _ _ _ ?_ ?_
    | with_reducible refine State.setFld_within _ _ _ ?_ ?_
    | split
    | (dsimp only)

theorem State.polSwap_within {sc r₀ s₀} (c : Carrier) (hs : sub [.regs, .eqA, .eqB] sc = true) (h₀ : Within sc r₀ s₀) :
    Within sc r₀ (State.polSwap c s₀) := by
  unfold State.polSwap
  repeat' first
    | with_reducible assumption
    | ((with_reducible refine sub_trans ?_ hs); exact rfl)
    | with_reducible exact trivial
    | with_reducible refine within_ite ?_ (fun _ => ?_)
    | with_reducible refine State.setEq_within _ _ ?_ ?_
    | with_reducible refine State.setFld_within _ _ _ ?_ ?_
    | split
    | (dsimp only)

theorem State.eqMode_within {sc r₀ s₀} (c : Carrier) (hs : sub [.regs] sc = true) (h₀ : Within sc r₀ s₀) :
    Within sc r₀ (State.eqMode c s₀) := by
  unfold State.eqMode
  repeat' first
    | with_reducible assumption
    | ((with_reducible refine sub_trans ?_ hs); exact rfl)
    | with_reducible exact trivial
    | with_reducible refine within_ite ?_ (fun _ => ?_)
    | with_reducible refine State.setFld_within _ _ _ ?_ ?_
    | split
    | (dsimp only)

theorem State.crStep_within {sc r₀ s₀} (c : Carrier) (m : RxMeas) (x : PolOut) (y : PolOut) (hs : sub [.regs, .coreA, .coreB, .hif, .free, .crA, .crB] sc = true) (h₀ : Within sc r₀ s₀) :
    Within sc r₀ (State.crStep c m x y s₀) := by
  unfold State.crStep
  repeat' first
    | with_reducible assumption
    | ((with_reducible refine sub_trans ?_ hs); exact rfl)
    | with_reducible exact trivial
    | with_reducible refine within_ite ?_ (fun _ => ?_)
    | with_reducible refine State.crLockLost_within _ ?_ ?_
    | with_reducible refine State.logEvent_within _ _ _ _ ?_ ?_
    | with_reducible refine State.setFlag_within _ _ _ ?_ ?_
    | with_reducible refine State.setFld_within _ _ _ ?_ ?_
    | split
    | (dsimp only)

theorem State.crSnr_within {sc r₀ s₀} (c : Carrier) (x : PolOut) (y : PolOut) (hs : sub [.regs, .crA, .crB] sc = true) (h₀ : Within sc r₀ s₀) :
    Within sc r₀ (State.crSnr c x y s₀) := by
  unfold State.crSnr
  repeat' first
    | with_reducible assumption
    | ((with_reducible refine sub_trans ?_ hs); exact rfl)
    | with_reducible exact trivial
    | with_reducible refine within_ite ?_ (fun _ => ?_)
    | with_reducible refine State.setCr_within _ _ ?_ ?_
    | with_reducible refine State.setFld_within _ _ _ ?_ ?_
    | split
    | (dsimp only)

theorem State.crGmi_within {sc r₀ s₀} (c : Carrier) (x : PolOut) (y : PolOut) (hs : sub [.regs] sc = true) (h₀ : Within sc r₀ s₀) :
    Within sc r₀ (State.crGmi c x y s₀) := by
  unfold State.crGmi
  repeat' first
    | with_reducible assumption
    | ((with_reducible refine sub_trans ?_ hs); exact rfl)
    | with_reducible exact trivial
    | with_reducible refine within_ite ?_ (fun _ => ?_)
    | with_reducible refine State.setFld_within _ _ _ ?_ ?_
    | split
    | (dsimp only)

theorem State.crSlips_within {sc r₀ s₀} (c : Carrier) (x : PolOut) (y : PolOut) (hs : sub [.regs, .coreA, .coreB, .crA, .crB] sc = true) (h₀ : Within sc r₀ s₀) :
    Within sc r₀ (State.crSlips c x y s₀) := by
  unfold State.crSlips
  repeat' first
    | with_reducible assumption
    | ((with_reducible refine sub_trans ?_ hs); exact rfl)
    | with_reducible exact trivial
    | with_reducible refine within_ite ?_ (fun _ => ?_)
    | with_reducible refine State.setCr_within _ _ ?_ ?_
    | with_reducible refine State.addCnt_within _ _ ?_ ?_
    | with_reducible refine State.setFlag_within _ _ _ ?_ ?_
    | split
    | (dsimp only)

theorem State.crErased_within {sc r₀ s₀} (c : Carrier) (m : RxMeas) (hs : sub [.regs, .coreA, .coreB] sc = true) (h₀ : Within sc r₀ s₀) :
    Within sc r₀ (State.crErased c m s₀) := by
  unfold State.crErased
  repeat' first
    | with_reducible assumption
    | ((with_reducible refine sub_trans ?_ hs); exact rfl)
    | with_reducible exact trivial
    | with_reducible refine within_ite ?_ (fun _ => ?_)
    | with_reducible refine State.addCnt_within _ _ ?_ ?_
    | split
    | (dsimp only)

theorem State.crKeep_within {sc r₀ s₀} (c : Carrier) (x : PolOut) (y : PolOut) (hs : sub [.crA, .crB] sc = true) (h₀ : Within sc r₀ s₀) :
    Within sc r₀ (State.crKeep c x y s₀) := by
  unfold State.crKeep
  repeat' first
    | with_reducible assumption
    | ((with_reducible refine sub_trans ?_ hs); exact rfl)
    | with_reducible exact trivial
    | with_reducible refine within_ite ?_ (fun _ => ?_)
    | with_reducible refine State.setCr_within _ _ ?_ ?_
    | split
    | (dsimp only)

theorem State.rxRejoin_within {sc r₀ s₀} (c : Carrier) (hs : sub [.regs, .eqA, .eqB] sc = true) (h₀ : Within sc r₀ s₀) :
    Within sc r₀ (State.rxRejoin c s₀) := by
  unfold State.rxRejoin
  repeat' first
    | with_reducible assumption
    | ((with_reducible refine sub_trans ?_ hs); exact rfl)
    | with_reducible exact trivial
    | with_reducible refine within_ite ?_ (fun _ => ?_)
    | with_reducible refine State.setEq_within _ _ ?_ ?_
    | with_reducible refine State.setFld_within _ _ _ ?_ ?_
    | split
    | (dsimp only)

theorem State.faultRestart_within {sc r₀ s₀} (c : Carrier) (hs : sub [.regs, .eqA, .eqB, .crA, .crB] sc = true) (h₀ : Within sc r₀ s₀) :
    Within sc r₀ (State.faultRestart c s₀) := by
  unfold State.faultRestart
  repeat' first
    | with_reducible assumption
    | ((with_reducible refine sub_trans ?_ hs); exact rfl)
    | with_reducible exact trivial
    | with_reducible refine within_ite ?_ (fun _ => ?_)
    | with_reducible refine State.crLeave_within _ _ ?_ ?_
    | with_reducible refine State.eqLoadSpike_within _ _ ?_ ?_
    | with_reducible refine State.setCr_within _ _ ?_ ?_
    | with_reducible refine State.setEq_within _ _ ?_ ?_
    | with_reducible refine State.setFld_within _ _ _ ?_ ?_
    | split
    | (dsimp only)

theorem State.eqCommandsDue_within {sc r₀ s₀} (c : Carrier) (hs : sub [.regs, .mem, .coreA, .coreB, .qc, .hws, .hif, .pwr, .free, .eqA, .eqB, .crA, .crB, .log, .ecc] sc = true) (h₀ : Within sc r₀ s₀) :
    Within sc r₀ (State.eqCommandsDue c s₀) := by
  unfold State.eqCommandsDue
  repeat' first
    | with_reducible assumption
    | ((with_reducible refine sub_trans ?_ hs); exact rfl)
    | with_reducible exact trivial
    | with_reducible refine within_ite ?_ (fun _ => ?_)
    | with_reducible refine State.crLeave_within _ _ ?_ ?_
    | with_reducible refine State.eqSpike_within _ ?_ ?_
    | with_reducible refine State.complete_within _ _ _ _ ?_ ?_
    | split
    | (dsimp only)

theorem State.gmiShow_within {sc r₀ s₀} (c : Carrier) (hs : sub [.regs, .fecA, .fecB] sc = true) (h₀ : Within sc r₀ s₀) :
    Within sc r₀ (State.gmiShow c s₀) := by
  unfold State.gmiShow
  repeat' first
    | with_reducible assumption
    | ((with_reducible refine sub_trans ?_ hs); exact rfl)
    | with_reducible exact trivial
    | with_reducible refine within_ite ?_ (fun _ => ?_)
    | with_reducible refine State.setFec_within _ _ ?_ ?_
    | with_reducible refine State.setFld_within _ _ _ ?_ ?_
    | split
    | (dsimp only)

theorem State.rxSuperframe_within {sc r₀ s₀} (c : Carrier) (m : RxMeas) (x : PolOut) (y : PolOut) (hs : sub [.regs, .coreA, .coreB, .hif, .free, .eqA, .eqB, .crA, .crB, .log] sc = true) (h₀ : Within sc r₀ s₀) :
    Within sc r₀ (State.rxSuperframe c m x y s₀) := by
  unfold State.rxSuperframe
  repeat' first
    | with_reducible assumption
    | ((with_reducible refine sub_trans ?_ hs); exact rfl)
    | with_reducible exact trivial
    | with_reducible refine within_ite ?_ (fun _ => ?_)
    | with_reducible refine State.faultRestart_within _ ?_ ?_
    | with_reducible refine State.rxRejoin_within _ ?_ ?_
    | with_reducible refine State.crKeep_within _ _ _ ?_ ?_
    | with_reducible refine State.crErased_within _ _ ?_ ?_
    | with_reducible refine State.crSlips_within _ _ _ ?_ ?_
    | with_reducible refine State.crGmi_within _ _ _ ?_ ?_
    | with_reducible refine State.crSnr_within _ _ _ ?_ ?_
    | with_reducible refine State.crStep_within _ _ _ _ ?_ ?_
    | with_reducible refine State.eqMode_within _ ?_ ?_
    | with_reducible refine State.polSwap_within _ ?_ ?_
    | with_reducible refine State.polCheck_within _ _ ?_ ?_
    | with_reducible refine State.sopReport_within _ ?_ ?_
    | split
    | (dsimp only)

theorem execRxSuperframeBoundary_within {sc r₀ s₀} (c : Carrier) (m : RxMeas) (hs : sub [.regs, .mem, .coreA, .coreB, .qc, .hws, .hif, .pwr, .free, .eqA, .eqB, .crA, .crB, .fecA, .fecB, .anl, .log, .ecc] sc = true) (h₀ : Within sc r₀ s₀) :
    OutWithin sc r₀ (execRxSuperframeBoundary c m s₀) := by
  unfold execRxSuperframeBoundary
  repeat' first
    | with_reducible assumption
    | ((with_reducible refine sub_trans ?_ hs); exact rfl)
    | with_reducible exact trivial
    | with_reducible refine within_ite ?_ (fun _ => ?_)
    | with_reducible refine outWithin_next ?_
    | with_reducible refine outWithin_ite ?_ ?_
    | with_reducible exact outWithin_fault _
    | with_reducible refine State.rxSuperframe_within _ _ _ _ ?_ ?_
    | with_reducible refine State.gmiShow_within _ ?_ ?_
    | with_reducible refine State.eqCommandsDue_within _ ?_ ?_
    | with_reducible refine State.faultRestart_within _ ?_ ?_
    | with_reducible refine State.crCaptures_within _ _ _ ?_ ?_
    | with_reducible refine State.rxfBoundary_within _ _ ?_ ?_
    | with_reducible refine State.releaseWaiters_within ?_ ?_
    | with_reducible refine State.armBoundary_within _ ?_ ?_
    | split
    | (dsimp only)

theorem State.crErasedTick_within {sc r₀ s₀} (c : Carrier) (hs : sub [.regs, .coreA, .coreB, .crA, .crB] sc = true) (h₀ : Within sc r₀ s₀) :
    Within sc r₀ (State.crErasedTick c s₀) := by
  unfold State.crErasedTick
  repeat' first
    | with_reducible assumption
    | ((with_reducible refine sub_trans ?_ hs); exact rfl)
    | with_reducible exact trivial
    | with_reducible refine within_ite ?_ (fun _ => ?_)
    | with_reducible refine State.setCr_within _ _ ?_ ?_
    | with_reducible refine State.addCnt_within _ _ ?_ ?_
    | split
    | (dsimp only)

theorem execSnrBelowThreshold_within {sc r₀ s₀} (c : Carrier) (hs : sub [.regs, .coreA, .coreB, .hif, .crA, .crB] sc = true) (h₀ : Within sc r₀ s₀) :
    OutWithin sc r₀ (execSnrBelowThreshold c s₀) := by
  unfold execSnrBelowThreshold
  repeat' first
    | with_reducible assumption
    | ((with_reducible refine sub_trans ?_ hs); exact rfl)
    | with_reducible exact trivial
    | with_reducible refine within_ite ?_ (fun _ => ?_)
    | with_reducible refine outWithin_next ?_
    | with_reducible refine outWithin_ite ?_ ?_
    | with_reducible exact outWithin_fault _
    | with_reducible refine State.setCr_within _ _ ?_ ?_
    | with_reducible refine State.logEvent_within _ _ _ _ ?_ ?_
    | with_reducible refine State.setFlag_within _ _ _ ?_ ?_
    | split
    | (dsimp only)

end Sys2Proof.Laws
end

