-- ==== Sys2Proof/Laws/Fec.lean ====
section
/-! SUPPORT. The scope of each operation of Sys2Proof/Machine/Fec.lean. -/
namespace Sys2Proof.Laws
open Sys2Proof.Machine Sys2Proof.Safety

theorem State.setChainEngine_within {sc r₀ s₀} (c : Carrier) (chain : Nat) (e : Nat) (hs : sub [.regs] sc = true) (h₀ : Within sc r₀ s₀) :
    Within sc r₀ (State.setChainEngine c chain e s₀) := by
  unfold State.setChainEngine
  repeat' first
    | with_reducible assumption
    | ((with_reducible refine sub_trans ?_ hs); exact rfl)
    | with_reducible exact trivial
    | with_reducible refine within_ite ?_ (fun _ => ?_)
    | with_reducible refine State.setReg_within _ _ ?_ ?_
    | split
    | (dsimp only)

theorem execFecBlockLockSearch_within {sc r₀ s₀} (c : Carrier) (hard : List FecHard) (hs : sub [.regs, .coreA, .coreB, .hif, .free, .fecA, .fecB, .frmA, .frmB] sc = true) (h₀ : Within sc r₀ s₀) :
    OutWithin sc r₀ (execFecBlockLockSearch c hard s₀) := by
  unfold execFecBlockLockSearch
  repeat' first
    | with_reducible assumption
    | ((with_reducible refine sub_trans ?_ hs); exact rfl)
    | with_reducible exact trivial
    | with_reducible refine within_ite ?_ (fun _ => ?_)
    | with_reducible refine outWithin_next ?_
    | with_reducible refine outWithin_ite ?_ ?_
    | with_reducible exact outWithin_fault _
    | with_reducible refine State.fecUnlock_within _ ?_ ?_
    | with_reducible refine State.fecRestart_within _ ?_ ?_
    | with_reducible refine State.setFrm_within _ _ ?_ ?_
    | with_reducible refine State.setFec_within _ _ ?_ ?_
    | with_reducible refine State.logEvent_within _ _ _ _ ?_ ?_
    | with_reducible refine State.setFlag_within _ _ _ ?_ ?_
    | with_reducible refine State.setFld_within _ _ _ ?_ ?_
    | split
    | (dsimp only)

theorem State.setSeeded_within {sc r₀ s₀} (c : Carrier) (chain : Nat) (b : Bool) (hs : sub [.regs] sc = true) (h₀ : Within sc r₀ s₀) :
    Within sc r₀ (State.setSeeded c chain b s₀) := by
  unfold State.setSeeded
  repeat' first
    | with_reducible assumption
    | ((with_reducible refine sub_trans ?_ hs); exact rfl)
    | with_reducible exact trivial
    | with_reducible refine within_ite ?_ (fun _ => ?_)
    | with_reducible refine State.setFld_within _ _ _ ?_ ?_
    | split
    | (dsimp only)

theorem State.fecCaptureDue_within {sc r₀ s₀} (c : Carrier) (chain : Nat) (llr : List (List Int)) (bits : Option (Array Bool)) (hs : sub [.regs, .mem, .coreA, .coreB, .qc, .hws, .hif, .pwr, .free, .log, .ecc] sc = true) (h₀ : Within sc r₀ s₀) :
    Within sc r₀ (State.fecCaptureDue c chain llr bits s₀) := by
  unfold State.fecCaptureDue
  repeat' first
    | with_reducible assumption
    | ((with_reducible refine sub_trans ?_ hs); exact rfl)
    | with_reducible exact trivial
    | with_reducible refine within_ite ?_ (fun _ => ?_)
    | with_reducible refine State.capture_within _ _ ?_ ?_
    | with_reducible refine State.complete_within _ _ _ _ ?_ ?_
    | with_reducible refine State.setBytes_within _ _ ?_ ?_
    | with_reducible refine within_foldl (fun _ _ _ => ?_) ?_
    | with_reducible refine within_foldl_snd (fun _ _ _ => ?_) ?_
    | split
    | (dsimp only)

theorem State.fecReleased_within {sc r₀ s₀} (c : Carrier) (chain : Fin 8) (bad : Bool) (hs : sub [.regs, .coreA, .coreB, .fecA, .fecB] sc = true) (h₀ : Within sc r₀ s₀) :
    Within sc r₀ (State.fecReleased c chain bad s₀) := by
  unfold State.fecReleased
  repeat' first
    | with_reducible assumption
    | ((with_reducible refine sub_trans ?_ hs); exact rfl)
    | with_reducible exact trivial
    | with_reducible refine within_ite ?_ (fun _ => ?_)
    | with_reducible refine State.setFec_within _ _ ?_ ?_
    | with_reducible refine State.addCnt_within _ _ ?_ ?_
    | with_reducible refine State.setFlag_within _ _ _ ?_ ?_
    | split
    | (dsimp only)

theorem State.fecPre_within {sc r₀ s₀} (c : Carrier) (x : Nat × Nat) (y : Nat × Nat) (hs : sub [.regs, .coreA, .coreB] sc = true) (h₀ : Within sc r₀ s₀) :
    Within sc r₀ (State.fecPre c x y s₀) := by
  unfold State.fecPre
  repeat' first
    | with_reducible assumption
    | ((with_reducible refine sub_trans ?_ hs); exact rfl)
    | with_reducible exact trivial
    | with_reducible refine within_ite ?_ (fun _ => ?_)
    | with_reducible refine State.addCnt_within _ _ ?_ ?_
    | split
    | (dsimp only)

theorem State.fecLost_within {sc r₀ s₀} (c : Carrier) (chain : Fin 8) (hs : sub [.regs, .coreA, .coreB, .fecA, .fecB] sc = true) (h₀ : Within sc r₀ s₀) :
    Within sc r₀ (State.fecLost c chain s₀) := by
  unfold State.fecLost
  repeat' first
    | with_reducible assumption
    | ((with_reducible refine sub_trans ?_ hs); exact rfl)
    | with_reducible exact trivial
    | with_reducible refine within_ite ?_ (fun _ => ?_)
    | with_reducible refine State.fecReleased_within _ _ _ ?_ ?_
    | with_reducible refine State.setFec_within _ _ ?_ ?_
    | with_reducible refine State.addCnt_within _ _ ?_ ?_
    | split
    | (dsimp only)

theorem State.fecDecoded_within {sc r₀ s₀} (c : Carrier) (chain : Fin 8) (b : BlockOut) (hs : sub [.regs, .coreA, .coreB, .fecA, .fecB] sc = true) (h₀ : Within sc r₀ s₀) :
    Within sc r₀ (State.fecDecoded c chain b s₀) := by
  unfold State.fecDecoded
  repeat' first
    | with_reducible assumption
    | ((with_reducible refine sub_trans ?_ hs); exact rfl)
    | with_reducible exact trivial
    | with_reducible refine within_ite ?_ (fun _ => ?_)
    | with_reducible refine State.fecPre_within _ _ _ ?_ ?_
    | with_reducible refine State.fecReleased_within _ _ _ ?_ ?_
    | with_reducible refine State.setSeeded_within _ _ _ ?_ ?_
    | with_reducible refine State.setFec_within _ _ ?_ ?_
    | with_reducible refine State.addCnt_within _ _ ?_ ?_
    | with_reducible refine State.setFlag_within _ _ _ ?_ ?_
    | with_reducible refine within_foldl (fun _ _ _ => ?_) ?_
    | with_reducible refine within_foldl_snd (fun _ _ _ => ?_) ?_
    | split
    | (dsimp only)

theorem State.fecEntropy_within {sc r₀ s₀} (c : Carrier) (hs : sub [.regs, .fecA, .fecB] sc = true) (h₀ : Within sc r₀ s₀) :
    Within sc r₀ (State.fecEntropy c s₀) := by
  unfold State.fecEntropy
  repeat' first
    | with_reducible assumption
    | ((with_reducible refine sub_trans ?_ hs); exact rfl)
    | with_reducible exact trivial
    | with_reducible refine within_ite ?_ (fun _ => ?_)
    | with_reducible refine State.setEntropy_within _ _ ?_ ?_
    | with_reducible refine State.setFec_within _ _ ?_ ?_
    | split
    | (dsimp only)

theorem State.fecAdmit_within {sc r₀ s₀} (c : Carrier) (chain : Fin 8) (rows : List (List Int)) (hs : sub [.regs, .mem, .coreA, .coreB, .qc, .hws, .hif, .pwr, .free, .fecA, .fecB, .log, .ecc] sc = true) (h₀ : Within sc r₀ s₀) :
    Within sc r₀ (State.fecAdmit c chain rows s₀) := by
  unfold State.fecAdmit
  repeat' first
    | with_reducible assumption
    | ((with_reducible refine sub_trans ?_ hs); exact rfl)
    | with_reducible exact trivial
    | with_reducible refine within_ite ?_ (fun _ => ?_)
    | with_reducible refine State.fecDecoded_within _ _ _ ?_ ?_
    | with_reducible refine State.fecLost_within _ _ ?_ ?_
    | with_reducible refine State.fecCaptureDue_within _ _ _ _ ?_ ?_
    | with_reducible refine State.setFec_within _ _ ?_ ?_
    | split
    | (dsimp only)

theorem State.fecAgreement_within {sc r₀ s₀} (c : Carrier) (chain : Fin 8) (syms : List (Cplx × Cplx)) (hs : sub [.regs, .coreA, .coreB, .fecA, .fecB] sc = true) (h₀ : Within sc r₀ s₀) :
    Within sc r₀ (State.fecAgreement c chain syms s₀) := by
  unfold State.fecAgreement
  repeat' first
    | with_reducible assumption
    | ((with_reducible refine sub_trans ?_ hs); exact rfl)
    | with_reducible exact trivial
    | with_reducible refine within_ite ?_ (fun _ => ?_)
    | with_reducible refine State.fecLost_within _ _ ?_ ?_
    | with_reducible refine State.fecPre_within _ _ _ ?_ ?_
    | with_reducible refine State.fecReleased_within _ _ _ ?_ ?_
    | with_reducible refine State.addCnt_within _ _ ?_ ?_
    | split
    | (dsimp only)

theorem State.fecArrive_within {sc r₀ s₀} (c : Carrier) (f : Fin 8 → State → State) (hf : ∀ k s, Within sc r₀ s → Within sc r₀ (f k s))
    (hs : sub [.regs, .mem, .coreA, .coreB, .qc, .hws, .hif, .pwr, .free, .fecA, .fecB, .log, .ecc] sc = true) (h₀ : Within sc r₀ s₀) : Within sc r₀ (State.fecArrive c f s₀) :=
  State.releaseWaiters_within (sub_trans rfl hs) (State.armBoundary_within _ (sub_trans rfl hs) (hf _ _ (State.setFec_within _ _ (sub_trans rfl hs)
    (State.fecEntropy_within _ (sub_trans rfl hs) (State.applyBoundary_within _ _ (sub_trans rfl hs) h₀)))))

theorem execFecBlockRelease_within {sc r₀ s₀} (c : Carrier) (syms : List (Cplx × Cplx)) (hs : sub [.regs, .mem, .coreA, .coreB, .qc, .hws, .hif, .pwr, .free, .fecA, .fecB, .log, .ecc] sc = true) (h₀ : Within sc r₀ s₀) :
    OutWithin sc r₀ (execFecBlockRelease c syms s₀) := by
  unfold execFecBlockRelease
  repeat' first
    | with_reducible assumption
    | ((with_reducible refine sub_trans ?_ hs); exact rfl)
    | with_reducible exact trivial
    | with_reducible refine within_ite ?_ (fun _ => ?_)
    | with_reducible refine within_ite_snd ?_ (fun _ => ?_)
    | with_reducible refine outWithin_next ?_
    | with_reducible refine outWithin_ite ?_ ?_
    | with_reducible exact outWithin_fault _
    | with_reducible refine State.fecAgreement_within _ _ _ ?_ ?_
    | with_reducible refine State.fecAdmit_within _ _ _ ?_ ?_
    | with_reducible refine State.fecArrive_within _ _ (fun _ _ _ => ?_) ?_ ?_
    | split
    | (dsimp only)

theorem execFecSeedFail_within {sc r₀ s₀} (c : Carrier) (chain : Fin 8) (hs : sub [.regs, .coreA, .coreB, .hif, .fecA, .fecB] sc = true) (h₀ : Within sc r₀ s₀) :
    OutWithin sc r₀ (execFecSeedFail c chain s₀) := by
  unfold execFecSeedFail
  repeat' first
    | with_reducible assumption
    | ((with_reducible refine sub_trans ?_ hs); exact rfl)
    | with_reducible exact trivial
    | with_reducible refine within_ite ?_ (fun _ => ?_)
    | with_reducible refine outWithin_next ?_
    | with_reducible refine outWithin_ite ?_ ?_
    | with_reducible exact outWithin_fault _
    | with_reducible refine State.setFec_within _ _ ?_ ?_
    | with_reducible refine State.logEvent_within _ _ _ _ ?_ ?_
    | with_reducible refine State.setFlag_within _ _ _ ?_ ?_
    | split
    | (dsimp only)

theorem execFecEngineFailed_within {sc r₀ s₀} (c : Carrier) (engine : Fin 9) (cause : Fin 3) (hs : sub [.regs, .coreA, .coreB, .hif, .fecA, .fecB] sc = true) (h₀ : Within sc r₀ s₀) :
    OutWithin sc r₀ (execFecEngineFailed c engine cause s₀) := by
  unfold execFecEngineFailed
  repeat' first
    | with_reducible assumption
    | ((with_reducible refine sub_trans ?_ hs); exact rfl)
    | with_reducible exact trivial
    | with_reducible refine within_ite ?_ (fun _ => ?_)
    | with_reducible refine outWithin_next ?_
    | with_reducible refine outWithin_ite ?_ ?_
    | with_reducible exact outWithin_fault _
    | with_reducible refine State.fecCount_within _ ?_ ?_
    | with_reducible refine State.setRole_within _ _ _ ?_ ?_
    | with_reducible refine State.setFec_within _ _ ?_ ?_
    | with_reducible refine State.logEvent_within _ _ _ _ ?_ ?_
    | with_reducible refine State.setFlag_within _ _ _ ?_ ?_
    | split
    | (dsimp only)

theorem State.fecRefill_within {sc r₀ s₀} (c : Carrier) (chain : Fin 8) (hs : sub [.fecA, .fecB] sc = true) (h₀ : Within sc r₀ s₀) :
    Within sc r₀ (State.fecRefill c chain s₀) := by
  unfold State.fecRefill
  repeat' first
    | with_reducible assumption
    | ((with_reducible refine sub_trans ?_ hs); exact rfl)
    | with_reducible exact trivial
    | with_reducible refine within_ite ?_ (fun _ => ?_)
    | with_reducible refine State.setFec_within _ _ ?_ ?_
    | split
    | (dsimp only)

theorem State.swapEngines_within {sc r₀ s₀} (c : Carrier) (l : List Nat) (hs : sub [.regs, .coreA, .coreB, .hif, .fecA, .fecB, .log] sc = true) (h₀ : Within sc r₀ s₀) :
    Within sc r₀ (State.swapEngines c l s₀).2 := by
  induction l generalizing s₀ with
  | nil => exact h₀
  | cons i l ih =>
    unfold State.swapEngines
    dsimp only
    repeat' first
      | with_reducible assumption
      | ((with_reducible refine sub_trans ?_ hs); exact rfl)
      | with_reducible refine ih ?_
      | with_reducible refine State.fecRefill_within _ _ ?_ ?_
      | with_reducible refine State.setChainEngine_within _ _ _ ?_ ?_
      | with_reducible refine State.fecCount_within _ ?_ ?_
      | with_reducible refine State.setRole_within _ _ _ ?_ ?_
      | with_reducible refine State.setFec_within _ _ ?_ ?_
      | with_reducible refine State.spareUsed_within _ ?_ ?_
      | with_reducible refine State.logEvent_within _ _ _ _ ?_ ?_
      | with_reducible refine State.addCnt_within _ _ ?_ ?_
      | with_reducible refine State.setFlag_within _ _ _ ?_ ?_
      | split
      | split

theorem State.swapEngines_within' {sc r₀ s₀ t x0} (c : Carrier) (l : List Nat) (e : State.swapEngines c l s₀ = (x0, t)) (hs : sub [.regs, .coreA, .coreB, .hif, .fecA, .fecB, .log] sc = true)
    (h₀ : Within sc r₀ s₀) : Within sc r₀ t := by
  have h := State.swapEngines_within c l hs h₀
  rw [e] at h
  exact h

theorem execFecEngineSwap_within {sc r₀ s₀} (c : Carrier) (hs : sub [.regs, .coreA, .coreB, .hif, .fecA, .fecB, .log] sc = true) (h₀ : Within sc r₀ s₀) :
    OutWithin sc r₀ (execFecEngineSwap c s₀) := by
  unfold execFecEngineSwap
  repeat' first
    | with_reducible assumption
    | ((with_reducible refine sub_trans ?_ hs); exact rfl)
    | with_reducible exact trivial
    | with_reducible refine within_ite ?_ (fun _ => ?_)
    | with_reducible refine outWithin_next ?_
    | with_reducible refine outWithin_ite ?_ ?_
    | with_reducible exact outWithin_fault _
    | with_reducible refine State.swapEngines_within' _ _  ‹_› ?_ ?_
    | with_reducible refine State.swapEngines_within _ _ ?_ ?_
    | with_reducible refine State.setFec_within _ _ ?_ ?_
    | split
    | (dsimp only)

theorem execFecEncoderFault_within {sc r₀ s₀} (c : Carrier) (block : BitVec 32) (hs : sub [.regs, .coreA, .coreB, .hif, .txA, .txB] sc = true) (h₀ : Within sc r₀ s₀) :
    OutWithin sc r₀ (execFecEncoderFault c block s₀) := by
  unfold execFecEncoderFault
  repeat' first
    | with_reducible assumption
    | ((with_reducible refine sub_trans ?_ hs); exact rfl)
    | with_reducible exact trivial
    | with_reducible refine within_ite ?_ (fun _ => ?_)
    | with_reducible refine outWithin_next ?_
    | with_reducible refine outWithin_ite ?_ ?_
    | with_reducible exact outWithin_fault _
    | with_reducible refine State.setTx_within _ _ ?_ ?_
    | with_reducible refine State.logEvent_within _ _ _ _ ?_ ?_
    | with_reducible refine State.setFlag_within _ _ _ ?_ ?_
    | split
    | (dsimp only)

theorem execFecRelock_within {sc r₀ s₀} (c : Carrier) (hs : sub [.regs, .mem, .coreA, .coreB, .qc, .hws, .hif, .pwr, .free, .fecA, .fecB, .log, .ecc] sc = true) (h₀ : Within sc r₀ s₀) :
    OutWithin sc r₀ (execFecRelock c s₀) := by
  unfold execFecRelock
  repeat' first
    | with_reducible assumption
    | ((with_reducible refine sub_trans ?_ hs); exact rfl)
    | with_reducible exact trivial
    | with_reducible refine within_ite ?_ (fun _ => ?_)
    | with_reducible refine within_ite_snd ?_ (fun _ => ?_)
    | with_reducible refine outWithin_next ?_
    | with_reducible refine outWithin_ite ?_ ?_
    | with_reducible exact outWithin_fault _
    | with_reducible refine State.fecUnlock_within _ ?_ ?_
    | with_reducible refine State.runCommand_within _ _ _ (fun _ _ _ => ?_) ?_ ?_
    | split
    | (dsimp only)

theorem execFecRetest_within {sc r₀ s₀} (c : Carrier) (hs : sub [.regs, .mem, .coreA, .coreB, .qc, .hws, .hif, .pwr, .free, .log, .ecc] sc = true) (h₀ : Within sc r₀ s₀) :
    OutWithin sc r₀ (execFecRetest c s₀) := by
  unfold execFecRetest
  repeat' first
    | with_reducible assumption
    | ((with_reducible refine sub_trans ?_ hs); exact rfl)
    | with_reducible exact trivial
    | with_reducible refine within_ite ?_ (fun _ => ?_)
    | with_reducible refine within_ite_snd ?_ (fun _ => ?_)
    | with_reducible refine outWithin_next ?_
    | with_reducible refine outWithin_ite ?_ ?_
    | with_reducible exact outWithin_fault _
    | with_reducible refine State.fecCount_within _ ?_ ?_
    | with_reducible refine State.setRole_within _ _ _ ?_ ?_
    | with_reducible refine State.runCommand_within _ _ _ (fun _ _ _ => ?_) ?_ ?_
    | split
    | (dsimp only)

theorem State.fecRetestDone_within {sc r₀ s₀} (c : Carrier) (engine : Nat) (pass : Bool) (hs : sub [.regs, .coreA, .coreB, .hif] sc = true) (h₀ : Within sc r₀ s₀) :
    Within sc r₀ (State.fecRetestDone c engine pass s₀) := by
  unfold State.fecRetestDone
  repeat' first
    | with_reducible assumption
    | ((with_reducible refine sub_trans ?_ hs); exact rfl)
    | with_reducible exact trivial
    | with_reducible refine within_ite ?_ (fun _ => ?_)
    | with_reducible refine State.fecCount_within _ ?_ ?_
    | with_reducible refine State.setRole_within _ _ _ ?_ ?_
    | with_reducible refine State.logEvent_within _ _ _ _ ?_ ?_
    | split
    | (dsimp only)

theorem execFecCapture_within {sc r₀ s₀} (c : Carrier) (hs : sub [.regs, .mem, .coreA, .coreB, .qc, .hws, .hif, .pwr, .free, .log, .ecc] sc = true) (h₀ : Within sc r₀ s₀) :
    OutWithin sc r₀ (execFecCapture c s₀) := by
  unfold execFecCapture
  repeat' first
    | with_reducible assumption
    | ((with_reducible refine sub_trans ?_ hs); exact rfl)
    | with_reducible exact trivial
    | with_reducible refine within_ite ?_ (fun _ => ?_)
    | with_reducible refine within_ite_snd ?_ (fun _ => ?_)
    | with_reducible refine outWithin_next ?_
    | with_reducible refine outWithin_ite ?_ ?_
    | with_reducible exact outWithin_fault _
    | with_reducible refine State.runCommand_within _ _ _ (fun _ _ _ => ?_) ?_ ?_
    | split
    | (dsimp only)

end Sys2Proof.Laws
end

