-- ==== Sys2Proof/Laws/Hail.lean ====
section
/-! SUPPORT. The scope of each operation of Sys2Proof/Machine/Hail.lean. -/
namespace Sys2Proof.Laws
open Sys2Proof.Machine Sys2Proof.Safety

theorem State.hailShow_within {sc r₀ s₀} (c : Carrier) (hs : sub [.regs] sc = true) (h₀ : Within sc r₀ s₀) :
    Within sc r₀ (State.hailShow c s₀) := by
  unfold State.hailShow
  repeat' first
    | with_reducible assumption
    | ((with_reducible refine sub_trans ?_ hs); exact rfl)
    | with_reducible exact trivial
    | with_reducible refine within_ite ?_ (fun _ => ?_)
    | with_reducible refine State.setFld_within _ _ _ ?_ ?_
    | split
    | (dsimp only)

theorem State.hlSend_within {sc r₀ s₀} (c : Carrier) (hs : sub [.regs, .mem, .coreA, .coreB, .qc, .hws, .hif, .pwr, .free, .hailA, .hailB, .log, .ecc] sc = true) (h₀ : Within sc r₀ s₀) :
    Within sc r₀ (State.hlSend c s₀) := by
  unfold State.hlSend
  repeat' first
    | with_reducible assumption
    | ((with_reducible refine sub_trans ?_ hs); exact rfl)
    | with_reducible exact trivial
    | with_reducible refine within_ite ?_ (fun _ => ?_)
    | with_reducible refine State.hailShow_within _ ?_ ?_
    | with_reducible refine State.setHail_within _ _ ?_ ?_
    | with_reducible refine State.complete_within _ _ _ _ ?_ ?_
    | with_reducible refine State.releaseWaiters_within ?_ ?_
    | with_reducible refine State.startEntry_within _ ?_ ?_
    | with_reducible refine State.settle_within _ ?_ ?_
    | split
    | (dsimp only)

theorem execHlSend_within {sc r₀ s₀} (c : Carrier) (hs : sub [.regs, .mem, .coreA, .coreB, .qc, .hws, .hif, .pwr, .free, .hailA, .hailB, .log, .ecc] sc = true) (h₀ : Within sc r₀ s₀) :
    OutWithin sc r₀ (execHlSend c s₀) := by
  unfold execHlSend
  repeat' first
    | with_reducible assumption
    | ((with_reducible refine sub_trans ?_ hs); exact rfl)
    | with_reducible exact trivial
    | with_reducible refine within_ite ?_ (fun _ => ?_)
    | with_reducible refine outWithin_next ?_
    | with_reducible refine outWithin_ite ?_ ?_
    | with_reducible exact outWithin_fault _
    | with_reducible refine State.hlSend_within _ ?_ ?_
    | split
    | (dsimp only)

theorem execHlRecv_within {sc r₀ s₀} (c : Carrier) (hs : sub [.regs, .mem, .coreA, .coreB, .qc, .hws, .hif, .pwr, .free, .hailA, .hailB, .log, .ecc] sc = true) (h₀ : Within sc r₀ s₀) :
    OutWithin sc r₀ (execHlRecv c s₀) := by
  unfold execHlRecv
  repeat' first
    | with_reducible assumption
    | ((with_reducible refine sub_trans ?_ hs); exact rfl)
    | with_reducible exact trivial
    | with_reducible refine within_ite ?_ (fun _ => ?_)
    | with_reducible refine within_ite_snd ?_ (fun _ => ?_)
    | with_reducible refine outWithin_next ?_
    | with_reducible refine outWithin_ite ?_ ?_
    | with_reducible exact outWithin_fault _
    | with_reducible refine State.hailShow_within _ ?_ ?_
    | with_reducible refine State.setHail_within _ _ ?_ ?_
    | with_reducible refine State.setBytes_within _ _ ?_ ?_
    | with_reducible refine State.runCommand_within _ _ _ (fun _ _ _ => ?_) ?_ ?_
    | split
    | (dsimp only)

theorem State.hailBegin_within {sc r₀ s₀} (c : Carrier) (b : HailBurst) (hs : sub [.regs, .hailA, .hailB] sc = true) (h₀ : Within sc r₀ s₀) :
    Within sc r₀ (State.hailBegin c b s₀) := by
  unfold State.hailBegin
  repeat' first
    | with_reducible assumption
    | ((with_reducible refine sub_trans ?_ hs); exact rfl)
    | with_reducible exact trivial
    | with_reducible refine within_ite ?_ (fun _ => ?_)
    | with_reducible refine State.setHail_within _ _ ?_ ?_
    | with_reducible refine State.setFld_within _ _ _ ?_ ?_
    | split
    | (dsimp only)

theorem execHailBurstStart_within {sc r₀ s₀} (c : Carrier) (hs : sub [.regs, .mem, .coreA, .coreB, .qc, .hws, .hif, .pwr, .free, .hailA, .hailB, .log, .ecc] sc = true) (h₀ : Within sc r₀ s₀) :
    OutWithin sc r₀ (execHailBurstStart c s₀) := by
  unfold execHailBurstStart
  repeat' first
    | with_reducible assumption
    | ((with_reducible refine sub_trans ?_ hs); exact rfl)
    | with_reducible exact trivial
    | with_reducible refine within_ite ?_ (fun _ => ?_)
    | with_reducible refine outWithin_next ?_
    | with_reducible refine outWithin_ite ?_ ?_
    | with_reducible exact outWithin_fault _
    | with_reducible refine State.hailBegin_within _ _ ?_ ?_
    | with_reducible refine State.hlSend_within _ ?_ ?_
    | with_reducible refine State.hailShow_within _ ?_ ?_
    | with_reducible refine State.setHail_within _ _ ?_ ?_
    | split
    | (dsimp only)

theorem State.hailRelease_within {sc r₀ s₀} (c : Carrier) (hs : sub [.regs, .mem, .coreA, .coreB, .qc, .hws, .hif, .pwr, .free, .cph, .txA, .txB, .hailA, .hailB, .frmA, .frmB, .anl, .log, .ecc, .ref] sc = true) (h₀ : Within sc r₀ s₀) :
    Within sc r₀ (State.hailRelease c s₀) := by
  unfold State.hailRelease
  repeat' first
    | with_reducible assumption
    | ((with_reducible refine sub_trans ?_ hs); exact rfl)
    | with_reducible exact trivial
    | with_reducible refine within_ite ?_ (fun _ => ?_)
    | with_reducible refine State.txStateDone_within _ ?_ ?_
    | split
    | (dsimp only)

theorem execHailBurstSent_within {sc r₀ s₀} (c : Carrier) (hs : sub [.regs, .mem, .coreA, .coreB, .qc, .hws, .hif, .pwr, .free, .cph, .txA, .txB, .hailA, .hailB, .frmA, .frmB, .anl, .log, .ecc, .ref] sc = true) (h₀ : Within sc r₀ s₀) :
    OutWithin sc r₀ (execHailBurstSent c s₀) := by
  unfold execHailBurstSent
  repeat' first
    | with_reducible assumption
    | ((with_reducible refine sub_trans ?_ hs); exact rfl)
    | with_reducible exact trivial
    | with_reducible refine within_ite ?_ (fun _ => ?_)
    | with_reducible refine outWithin_next ?_
    | with_reducible refine outWithin_ite ?_ ?_
    | with_reducible exact outWithin_fault _
    | with_reducible refine State.hailRelease_within _ ?_ ?_
    | with_reducible refine State.setHail_within _ _ ?_ ?_
    | with_reducible refine State.complete_within _ _ _ _ ?_ ?_
    | with_reducible refine State.addCnt_within _ _ ?_ ?_
    | split
    | (dsimp only)

theorem State.hailRecvStart_within {sc r₀ s₀} (c : Carrier) (p : HailPeak) (hs : sub [.regs, .hailA, .hailB] sc = true) (h₀ : Within sc r₀ s₀) :
    Within sc r₀ (State.hailRecvStart c p s₀) := by
  unfold State.hailRecvStart
  repeat' first
    | with_reducible assumption
    | ((with_reducible refine sub_trans ?_ hs); exact rfl)
    | with_reducible exact trivial
    | with_reducible refine within_ite ?_ (fun _ => ?_)
    | with_reducible refine State.setHail_within _ _ ?_ ?_
    | with_reducible refine State.setFldS_within _ _ _ ?_ ?_
    | with_reducible refine State.setFld_within _ _ _ ?_ ?_
    | split
    | (dsimp only)

theorem State.hailFalseStart_within {sc r₀ s₀} (c : Carrier) (hs : sub [.regs, .coreA, .coreB] sc = true) (h₀ : Within sc r₀ s₀) :
    Within sc r₀ (State.hailFalseStart c s₀) := by
  unfold State.hailFalseStart
  repeat' first
    | with_reducible assumption
    | ((with_reducible refine sub_trans ?_ hs); exact rfl)
    | with_reducible exact trivial
    | with_reducible refine within_ite ?_ (fun _ => ?_)
    | with_reducible refine State.addCnt_within _ _ ?_ ?_
    | with_reducible refine State.setFlag_within _ _ _ ?_ ?_
    | split
    | (dsimp only)

theorem State.hailPeak_within {sc r₀ s₀} (c : Carrier) (p : HailPeak) (hs : sub [.regs, .coreA, .coreB, .hailA, .hailB] sc = true) (h₀ : Within sc r₀ s₀) :
    Within sc r₀ (State.hailPeak c p s₀) := by
  unfold State.hailPeak
  repeat' first
    | with_reducible assumption
    | ((with_reducible refine sub_trans ?_ hs); exact rfl)
    | with_reducible exact trivial
    | with_reducible refine within_ite ?_ (fun _ => ?_)
    | with_reducible refine State.hailFalseStart_within _ ?_ ?_
    | with_reducible refine State.hailRecvStart_within _ _ ?_ ?_
    | with_reducible refine State.setHail_within _ _ ?_ ?_
    | with_reducible refine State.addCnt_within _ _ ?_ ?_
    | with_reducible refine State.setFlag_within _ _ _ ?_ ?_
    | split
    | (dsimp only)

theorem execHailDetection_within {sc r₀ s₀} (c : Carrier) (metric : Nat) (offset : BitVec 14) (gain : Byte) (hs : sub [.regs, .coreA, .coreB, .hailA, .hailB] sc = true) (h₀ : Within sc r₀ s₀) :
    OutWithin sc r₀ (execHailDetection c metric offset gain s₀) := by
  unfold execHailDetection
  repeat' first
    | with_reducible assumption
    | ((with_reducible refine sub_trans ?_ hs); exact rfl)
    | with_reducible exact trivial
    | with_reducible refine within_ite ?_ (fun _ => ?_)
    | with_reducible refine outWithin_next ?_
    | with_reducible refine outWithin_ite ?_ ?_
    | with_reducible exact outWithin_fault _
    | with_reducible refine State.hailPeak_within _ _ ?_ ?_
    | split
    | (dsimp only)

theorem execHailWindowDetect_within {sc r₀ s₀} (c : Carrier) (energy : Nat) (metric : Nat) (gain : Byte) (hs : sub [.regs, .coreA, .coreB, .hailA, .hailB] sc = true) (h₀ : Within sc r₀ s₀) :
    OutWithin sc r₀ (execHailWindowDetect c energy metric gain s₀) := by
  unfold execHailWindowDetect
  repeat' first
    | with_reducible assumption
    | ((with_reducible refine sub_trans ?_ hs); exact rfl)
    | with_reducible exact trivial
    | with_reducible refine within_ite ?_ (fun _ => ?_)
    | with_reducible refine outWithin_next ?_
    | with_reducible refine outWithin_ite ?_ ?_
    | with_reducible exact outWithin_fault _
    | with_reducible refine State.hailPeak_within _ _ ?_ ?_
    | with_reducible refine State.hailRecvStart_within _ _ ?_ ?_
    | split
    | (dsimp only)

theorem State.hailDeliver_within {sc r₀ s₀} (c : Carrier) (b : HailRxBurst) (hs : sub [.regs, .coreA, .coreB, .hif, .hailA, .hailB] sc = true) (h₀ : Within sc r₀ s₀) :
    Within sc r₀ (State.hailDeliver c b s₀) := by
  unfold State.hailDeliver
  repeat' first
    | with_reducible assumption
    | ((with_reducible refine sub_trans ?_ hs); exact rfl)
    | with_reducible exact trivial
    | with_reducible refine within_ite ?_ (fun _ => ?_)
    | with_reducible refine State.hailShow_within _ ?_ ?_
    | with_reducible refine State.setHail_within _ _ ?_ ?_
    | with_reducible refine State.logEvent_within _ _ _ _ ?_ ?_
    | with_reducible refine State.addCnt_within _ _ ?_ ?_
    | with_reducible refine State.setFlag_within _ _ _ ?_ ?_
    | with_reducible refine State.setFld_within _ _ _ ?_ ?_
    | split
    | (dsimp only)

theorem State.hailCdFound_within {sc r₀ s₀} (c : Carrier) (hs : sub [.regs, .coreA, .coreB, .hif] sc = true) (h₀ : Within sc r₀ s₀) :
    Within sc r₀ (State.hailCdFound c s₀) := by
  unfold State.hailCdFound
  repeat' first
    | with_reducible assumption
    | ((with_reducible refine sub_trans ?_ hs); exact rfl)
    | with_reducible exact trivial
    | with_reducible refine within_ite ?_ (fun _ => ?_)
    | with_reducible refine State.logEvent_within _ _ _ _ ?_ ?_
    | with_reducible refine State.setFldS_within _ _ _ ?_ ?_
    | with_reducible refine State.setFlag_within _ _ _ ?_ ?_
    | split
    | (dsimp only)

theorem execHailHeaderDecoded_within {sc r₀ s₀} (c : Carrier) (header : W64) (hs : sub [.regs, .coreA, .coreB, .hif, .hailA, .hailB] sc = true) (h₀ : Within sc r₀ s₀) :
    OutWithin sc r₀ (execHailHeaderDecoded c header s₀) := by
  unfold execHailHeaderDecoded
  repeat' first
    | with_reducible assumption
    | ((with_reducible refine sub_trans ?_ hs); exact rfl)
    | with_reducible exact trivial
    | with_reducible refine within_ite ?_ (fun _ => ?_)
    | with_reducible refine outWithin_next ?_
    | with_reducible refine outWithin_ite ?_ ?_
    | with_reducible exact outWithin_fault _
    | with_reducible refine State.hailCdFound_within _ ?_ ?_
    | with_reducible refine State.hailDeliver_within _ _ ?_ ?_
    | with_reducible refine State.hailFalseStart_within _ ?_ ?_
    | with_reducible refine State.hailRecvStart_within _ _ ?_ ?_
    | with_reducible refine State.hailAbandon_within _ ?_ ?_
    | with_reducible refine State.setHail_within _ _ ?_ ?_
    | with_reducible refine State.logEvent_within _ _ _ _ ?_ ?_
    | with_reducible refine State.setFlag_within _ _ _ ?_ ?_
    | with_reducible refine State.setFld_within _ _ _ ?_ ?_
    | split
    | (dsimp only)

theorem execHailBurstReceived_within {sc r₀ s₀} (c : Carrier) (payload : List Byte) (crc : W32) (hs : sub [.regs, .coreA, .coreB, .hif, .hailA, .hailB] sc = true) (h₀ : Within sc r₀ s₀) :
    OutWithin sc r₀ (execHailBurstReceived c payload crc s₀) := by
  unfold execHailBurstReceived
  repeat' first
    | with_reducible assumption
    | ((with_reducible refine sub_trans ?_ hs); exact rfl)
    | with_reducible exact trivial
    | with_reducible refine within_ite ?_ (fun _ => ?_)
    | with_reducible refine outWithin_next ?_
    | with_reducible refine outWithin_ite ?_ ?_
    | with_reducible exact outWithin_fault _
    | with_reducible refine State.hailDeliver_within _ _ ?_ ?_
    | with_reducible refine State.hailAbandon_within _ ?_ ?_
    | with_reducible refine State.addCnt_within _ _ ?_ ?_
    | with_reducible refine State.setFlag_within _ _ _ ?_ ?_
    | split
    | (dsimp only)

theorem execHailReceptionLost_within {sc r₀ s₀} (c : Carrier) (hs : sub [.regs, .coreA, .coreB, .hailA, .hailB] sc = true) (h₀ : Within sc r₀ s₀) :
    OutWithin sc r₀ (execHailReceptionLost c s₀) := by
  unfold execHailReceptionLost
  repeat' first
    | with_reducible assumption
    | ((with_reducible refine sub_trans ?_ hs); exact rfl)
    | with_reducible exact trivial
    | with_reducible refine within_ite ?_ (fun _ => ?_)
    | with_reducible refine outWithin_next ?_
    | with_reducible refine outWithin_ite ?_ ?_
    | with_reducible exact outWithin_fault _
    | with_reducible refine State.hailAbandon_within _ ?_ ?_
    | with_reducible refine State.addCnt_within _ _ ?_ ?_
    | with_reducible refine State.setFlag_within _ _ _ ?_ ?_
    | split
    | (dsimp only)

theorem execHailLoss_within {sc r₀ s₀} (c : Carrier) (hs : sub [.regs, .coreA, .coreB, .hif, .hailA, .hailB] sc = true) (h₀ : Within sc r₀ s₀) :
    OutWithin sc r₀ (execHailLoss c s₀) := by
  unfold execHailLoss
  repeat' first
    | with_reducible assumption
    | ((with_reducible refine sub_trans ?_ hs); exact rfl)
    | with_reducible exact trivial
    | with_reducible refine within_ite ?_ (fun _ => ?_)
    | with_reducible refine outWithin_next ?_
    | with_reducible refine outWithin_ite ?_ ?_
    | with_reducible exact outWithin_fault _
    | with_reducible refine State.hailNextHyp_within _ ?_ ?_
    | with_reducible refine State.setHail_within _ _ ?_ ?_
    | with_reducible refine State.logEvent_within _ _ _ _ ?_ ?_
    | with_reducible refine State.setFlag_within _ _ _ ?_ ?_
    | split
    | (dsimp only)

theorem execHailEngineFault_within {sc r₀ s₀} (c : Carrier) (hs : sub [.regs, .mem, .coreA, .coreB, .qc, .hws, .hif, .pwr, .free, .cph, .txA, .txB, .hailA, .hailB, .frmA, .frmB, .anl, .log, .ecc, .ref] sc = true) (h₀ : Within sc r₀ s₀) :
    OutWithin sc r₀ (execHailEngineFault c s₀) := by
  unfold execHailEngineFault
  repeat' first
    | with_reducible assumption
    | ((with_reducible refine sub_trans ?_ hs); exact rfl)
    | with_reducible exact trivial
    | with_reducible refine within_ite ?_ (fun _ => ?_)
    | with_reducible refine outWithin_next ?_
    | with_reducible refine outWithin_ite ?_ ?_
    | with_reducible exact outWithin_fault _
    | with_reducible refine State.hailRelease_within _ ?_ ?_
    | with_reducible refine State.hailShow_within _ ?_ ?_
    | with_reducible refine State.hailAbandon_within _ ?_ ?_
    | with_reducible refine State.setHail_within _ _ ?_ ?_
    | with_reducible refine State.endTicket_within _ _ _ _ ?_ ?_
    | with_reducible refine State.logFault_within _ _ _ ?_ ?_
    | with_reducible refine State.setFlag_within _ _ _ ?_ ?_
    | with_reducible refine within_foldl (fun _ _ _ => ?_) ?_
    | with_reducible refine within_foldl_snd (fun _ _ _ => ?_) ?_
    | split
    | (dsimp only)

end Sys2Proof.Laws
end

