-- ==== Sys2Proof/Laws/Cph.lean ====
section
/-! SUPPORT. The scope of each operation of Sys2Proof/Machine/Cph.lean. -/
namespace Sys2Proof.Laws
open Sys2Proof.Machine Sys2Proof.Safety

theorem State.setUnit_within {sc r₀ s₀} (u : Nat) (r : Nat) (hs : sub [.regs] sc = true) (h₀ : Within sc r₀ s₀) :
    Within sc r₀ (State.setUnit u r s₀) := by
  unfold State.setUnit
  repeat' first
    | with_reducible assumption
    | ((with_reducible refine sub_trans ?_ hs); exact rfl)
    | with_reducible exact trivial
    | with_reducible refine within_ite ?_ (fun _ => ?_)
    | with_reducible refine State.setRole_within _ _ _ ?_ ?_
    | split
    | (dsimp only)

theorem State.unitCount_within {sc r₀ s₀}  (hs : sub [.regs] sc = true) (h₀ : Within sc r₀ s₀) :
    Within sc r₀ (State.unitCount s₀) := by
  unfold State.unitCount
  repeat' first
    | with_reducible assumption
    | ((with_reducible refine sub_trans ?_ hs); exact rfl)
    | with_reducible exact trivial
    | with_reducible refine within_ite ?_ (fun _ => ?_)
    | with_reducible refine State.setFld_within _ _ _ ?_ ?_
    | split
    | (dsimp only)

theorem State.assignUnits_within {sc r₀ s₀}  (hs : sub [.regs] sc = true) (h₀ : Within sc r₀ s₀) :
    Within sc r₀ (State.assignUnits s₀) := by
  unfold State.assignUnits
  repeat' first
    | with_reducible assumption
    | ((with_reducible refine sub_trans ?_ hs); exact rfl)
    | with_reducible exact trivial
    | with_reducible refine within_ite ?_ (fun _ => ?_)
    | with_reducible refine State.unitCount_within ?_ ?_
    | with_reducible refine State.setUnit_within _ _ ?_ ?_
    | with_reducible refine State.setFld_within _ _ _ ?_ ?_
    | with_reducible refine within_foldl (fun _ _ _ => ?_) ?_
    | with_reducible refine within_foldl_snd (fun _ _ _ => ?_) ?_
    | split
    | (dsimp only)

theorem State.cphFrameBoundary_within {sc r₀ s₀} (c : Carrier) (hs : sub [.regs, .coreA, .coreB, .hif, .cph] sc = true) (h₀ : Within sc r₀ s₀) :
    Within sc r₀ (State.cphFrameBoundary c s₀) := by
  unfold State.cphFrameBoundary
  repeat' first
    | with_reducible assumption
    | ((with_reducible refine sub_trans ?_ hs); exact rfl)
    | with_reducible exact trivial
    | with_reducible refine within_ite ?_ (fun _ => ?_)
    | with_reducible refine State.assignUnits_within ?_ ?_
    | with_reducible refine State.cliShow_within _ ?_ ?_
    | with_reducible refine State.logEvent_within _ _ _ _ ?_ ?_
    | with_reducible refine State.addCnt_within _ _ ?_ ?_
    | with_reducible refine State.setFlag_within _ _ _ ?_ ?_
    | with_reducible refine within_foldl (fun _ _ _ => ?_) ?_
    | with_reducible refine within_foldl_snd (fun _ _ _ => ?_) ?_
    | split
    | with_reducible refine Within.set_cph ?_ ?_
    | (dsimp only)

theorem State.cphUnrec_within {sc r₀ s₀} (c : Carrier) (b : Nat) (on : Bool) (hs : sub [.regs, .coreA, .coreB, .hif, .cph] sc = true) (h₀ : Within sc r₀ s₀) :
    Within sc r₀ (State.cphUnrec c b on s₀) := by
  unfold State.cphUnrec
  repeat' first
    | with_reducible assumption
    | ((with_reducible refine sub_trans ?_ hs); exact rfl)
    | with_reducible exact trivial
    | with_reducible refine within_ite ?_ (fun _ => ?_)
    | with_reducible refine State.setCphCar_within _ _ ?_ ?_
    | with_reducible refine State.frmActs_within _ _ ?_ ?_
    | with_reducible refine State.logEvent_within _ _ _ _ ?_ ?_
    | with_reducible refine State.setFlag_within _ _ _ ?_ ?_
    | split
    | (dsimp only)

theorem State.setSecCar_within {sc r₀ s₀} (c : Carrier) (x : SecCarrier) (hs : sub [.sec] sc = true) (h₀ : Within sc r₀ s₀) :
    Within sc r₀ (State.setSecCar c x s₀) := by
  unfold State.setSecCar
  repeat' first
    | with_reducible assumption
    | ((with_reducible refine sub_trans ?_ hs); exact rfl)
    | with_reducible exact trivial
    | with_reducible refine within_ite ?_ (fun _ => ?_)
    | split
    | with_reducible refine Within.set_sec ?_ ?_
    | (dsimp only)

theorem State.secEpoch_within {sc r₀ s₀} (c : Carrier) (dir : Nat) (n : Nat) (fe : Nat) (hs : sub [.regs, .coreA, .coreB, .hif, .log, .sec] sc = true) (h₀ : Within sc r₀ s₀) :
    Within sc r₀ (State.secEpoch c dir n fe s₀) := by
  unfold State.secEpoch
  repeat' first
    | with_reducible assumption
    | ((with_reducible refine sub_trans ?_ hs); exact rfl)
    | with_reducible exact trivial
    | with_reducible refine within_ite ?_ (fun _ => ?_)
    | with_reducible refine State.setSecCar_within _ _ ?_ ?_
    | with_reducible refine State.noteTotal_within _ _ ?_ ?_
    | with_reducible refine State.logEvent_within _ _ _ _ ?_ ?_
    | with_reducible refine State.addCnt_within _ _ ?_ ?_
    | with_reducible refine State.setFlag_within _ _ _ ?_ ?_
    | with_reducible refine State.setFld_within _ _ _ ?_ ?_
    | with_reducible refine State.setReg_within _ _ ?_ ?_
    | split
    | (dsimp only)

theorem State.epochActivate_within {sc r₀ s₀} (n : Nat) (dir : Nat) (f : Nat) (hs : sub [.regs, .coreA, .coreB, .hif, .cph, .log, .sec] sc = true) (h₀ : Within sc r₀ s₀) :
    Within sc r₀ (State.epochActivate n dir f s₀) := by
  unfold State.epochActivate
  repeat' first
    | with_reducible assumption
    | ((with_reducible refine sub_trans ?_ hs); exact rfl)
    | with_reducible exact trivial
    | with_reducible refine within_ite ?_ (fun _ => ?_)
    | with_reducible refine State.secEpoch_within _ _ _ _ ?_ ?_
    | with_reducible refine State.cphShow_within _ ?_ ?_
    | with_reducible refine State.cliShow_within _ ?_ ?_
    | with_reducible refine State.setFlag_within _ _ _ ?_ ?_
    | with_reducible refine within_foldl (fun _ _ _ => ?_) ?_
    | with_reducible refine within_foldl_snd (fun _ _ _ => ?_) ?_
    | split
    | with_reducible refine Within.set_cph ?_ ?_
    | (dsimp only)

theorem State.squelch_within {sc r₀ s₀} (n : Nat) (dir : Nat) (cause : Nat) (hs : sub [.regs, .coreA, .coreB, .hif, .log] sc = true) (h₀ : Within sc r₀ s₀) :
    Within sc r₀ (State.squelch n dir cause s₀) := by
  unfold State.squelch
  repeat' first
    | with_reducible assumption
    | ((with_reducible refine sub_trans ?_ hs); exact rfl)
    | with_reducible exact trivial
    | with_reducible refine within_ite ?_ (fun _ => ?_)
    | with_reducible refine State.cliShow_within _ ?_ ?_
    | with_reducible refine State.noteTotal_within _ _ ?_ ?_
    | with_reducible refine State.logEvent_within _ _ _ _ ?_ ?_
    | with_reducible refine State.setFlag_within _ _ _ ?_ ?_
    | split
    | (dsimp only)

theorem State.epochJudge_within {sc r₀ s₀} (n : Nat) (dir : Nat) (f : Nat) (hs : sub [.regs, .coreA, .coreB, .hif, .log] sc = true) (h₀ : Within sc r₀ s₀) :
    Within sc r₀ (State.epochJudge n dir f s₀) := by
  unfold State.epochJudge
  repeat' first
    | with_reducible assumption
    | ((with_reducible refine sub_trans ?_ hs); exact rfl)
    | with_reducible exact trivial
    | with_reducible refine within_ite ?_ (fun _ => ?_)
    | with_reducible refine State.squelch_within _ _ _ ?_ ?_
    | split
    | (dsimp only)

theorem State.countRecord_within {sc r₀ s₀} (n : Nat) (dir : Nat) (hs : sub [.cph] sc = true) (h₀ : Within sc r₀ s₀) :
    Within sc r₀ (State.countRecord n dir s₀) := by
  unfold State.countRecord
  repeat' first
    | with_reducible assumption
    | ((with_reducible refine sub_trans ?_ hs); exact rfl)
    | with_reducible exact trivial
    | with_reducible refine within_ite ?_ (fun _ => ?_)
    | split
    | with_reducible refine Within.set_cph ?_ ?_
    | (dsimp only)

theorem State.cphWindow_within {sc r₀ s₀} (peak : Fin 8193) (hs : sub [.regs] sc = true) (h₀ : Within sc r₀ s₀) :
    Within sc r₀ (State.cphWindow peak s₀) := by
  unfold State.cphWindow
  repeat' first
    | with_reducible assumption
    | ((with_reducible refine sub_trans ?_ hs); exact rfl)
    | with_reducible exact trivial
    | with_reducible refine within_ite ?_ (fun _ => ?_)
    | with_reducible refine State.setFlag_within _ _ _ ?_ ?_
    | split
    | (dsimp only)

theorem State.putRecord_within {sc r₀ s₀} (c : Carrier) (n : Nat) (text : List Byte) (tag : Option (BitVec 128)) (hs : sub [.cph, .txA, .txB] sc = true) (h₀ : Within sc r₀ s₀) :
    Within sc r₀ (State.putRecord c n text tag s₀) := by
  unfold State.putRecord
  repeat' first
    | with_reducible assumption
    | ((with_reducible refine sub_trans ?_ hs); exact rfl)
    | with_reducible exact trivial
    | with_reducible refine within_ite ?_ (fun _ => ?_)
    | with_reducible refine State.setCphCar_within _ _ ?_ ?_
    | with_reducible refine State.setTx_within _ _ ?_ ?_
    | split
    | (dsimp only)

theorem State.sealRecord_within {sc r₀ s₀} (c : Carrier) (n : Nat) (words : Nat) (f : TxFrame) (plain : List Byte) (hs : sub [.cph, .txA, .txB] sc = true) (h₀ : Within sc r₀ s₀) :
    Within sc r₀ (State.sealRecord c n words f plain s₀) := by
  unfold State.sealRecord
  repeat' first
    | with_reducible assumption
    | ((with_reducible refine sub_trans ?_ hs); exact rfl)
    | with_reducible exact trivial
    | with_reducible refine within_ite ?_ (fun _ => ?_)
    | with_reducible refine State.putRecord_within _ _ _ _ ?_ ?_
    | split
    | (dsimp only)

theorem State.cutRecord_within {sc r₀ s₀} (c : Carrier) (n : Nat) (words : Nat) (f : TxFrame) (plain : List Byte) (hs : sub [.free, .cph, .txA, .txB] sc = true) (h₀ : Within sc r₀ s₀) :
    Within sc r₀ (State.cutRecord c n words f plain s₀) := by
  unfold State.cutRecord
  repeat' first
    | with_reducible assumption
    | ((with_reducible refine sub_trans ?_ hs); exact rfl)
    | with_reducible exact trivial
    | with_reducible refine within_ite ?_ (fun _ => ?_)
    | with_reducible refine State.putRecord_within _ _ _ _ ?_ ?_
    | with_reducible refine State.draw_within'  ‹_› ?_ ?_
    | with_reducible refine State.draw_within ?_ ?_
    | split
    | (dsimp only)

theorem execCphTxRecord_within {sc r₀ s₀} (c : Carrier) (client : Fin 128) (peak : Fin 8193) (hs : sub [.regs, .coreA, .coreB, .hif, .free, .cph, .txA, .txB, .log, .sec] sc = true) (h₀ : Within sc r₀ s₀) :
    OutWithin sc r₀ (execCphTxRecord c client peak s₀) := by
  unfold execCphTxRecord
  repeat' first
    | with_reducible assumption
    | ((with_reducible refine sub_trans ?_ hs); exact rfl)
    | with_reducible exact trivial
    | with_reducible refine within_ite ?_ (fun _ => ?_)
    | with_reducible refine outWithin_next ?_
    | with_reducible refine outWithin_ite ?_ ?_
    | with_reducible exact outWithin_fault _
    | with_reducible refine State.cutRecord_within _ _ _ _ _ ?_ ?_
    | with_reducible refine State.sealRecord_within _ _ _ _ _ ?_ ?_
    | with_reducible refine State.cphWindow_within _ ?_ ?_
    | with_reducible refine State.countRecord_within _ _ ?_ ?_
    | with_reducible refine State.epochJudge_within _ _ _ ?_ ?_
    | with_reducible refine State.epochActivate_within _ _ _ ?_ ?_
    | with_reducible refine State.addCnt_within _ _ ?_ ?_
    | split
    | with_reducible refine Within.set_cph ?_ ?_
    | (dsimp only)

theorem State.setFailRun_within {sc r₀ s₀} (n : Nat) (v : Nat) (hs : sub [.cph] sc = true) (h₀ : Within sc r₀ s₀) :
    Within sc r₀ (State.setFailRun n v s₀) := by
  unfold State.setFailRun
  repeat' first
    | with_reducible assumption
    | ((with_reducible refine sub_trans ?_ hs); exact rfl)
    | with_reducible exact trivial
    | with_reducible refine within_ite ?_ (fun _ => ?_)
    | split
    | with_reducible refine Within.set_cph ?_ ?_
    | (dsimp only)

theorem State.clmGive_within {sc r₀ s₀} (n : Nat) (l : List RxWord) (hs : sub [.clm] sc = true) (h₀ : Within sc r₀ s₀) :
    Within sc r₀ (State.clmGive n l s₀) := by
  unfold State.clmGive
  repeat' first
    | with_reducible assumption
    | ((with_reducible refine sub_trans ?_ hs); exact rfl)
    | with_reducible exact trivial
    | with_reducible refine within_ite ?_ (fun _ => ?_)
    | with_reducible refine State.setClient_within _ _ ?_ ?_
    | split
    | (dsimp only)

theorem State.dueTaken_within {sc r₀ s₀} (c : Carrier) (trib : Nat) (hs : sub [.cph] sc = true) (h₀ : Within sc r₀ s₀) :
    Within sc r₀ (State.dueTaken c trib s₀) := by
  unfold State.dueTaken
  repeat' first
    | with_reducible assumption
    | ((with_reducible refine sub_trans ?_ hs); exact rfl)
    | with_reducible exact trivial
    | with_reducible refine within_ite ?_ (fun _ => ?_)
    | with_reducible refine State.setCphCar_within _ _ ?_ ?_
    | split
    | (dsimp only)

theorem execCphRxRecord_within {sc r₀ s₀} (c : Carrier) (client : Fin 128) (peak : Fin 8193) (hs : sub [.regs, .coreA, .coreB, .hif, .cph, .clm, .log, .sec] sc = true) (h₀ : Within sc r₀ s₀) :
    OutWithin sc r₀ (execCphRxRecord c client peak s₀) := by
  unfold execCphRxRecord
  repeat' first
    | with_reducible assumption
    | ((with_reducible refine sub_trans ?_ hs); exact rfl)
    | with_reducible exact trivial
    | with_reducible refine within_ite ?_ (fun _ => ?_)
    | with_reducible refine outWithin_next ?_
    | with_reducible refine outWithin_ite ?_ ?_
    | with_reducible exact outWithin_fault _
    | with_reducible refine State.dueTaken_within _ _ ?_ ?_
    | with_reducible refine State.clmGive_within _ _ ?_ ?_
    | with_reducible refine State.setFailRun_within _ _ ?_ ?_
    | with_reducible refine State.cphWindow_within _ ?_ ?_
    | with_reducible refine State.countRecord_within _ _ ?_ ?_
    | with_reducible refine State.epochJudge_within _ _ _ ?_ ?_
    | with_reducible refine State.epochActivate_within _ _ _ ?_ ?_
    | with_reducible refine State.cphUnrec_within _ _ _ ?_ ?_
    | with_reducible refine State.setCphCar_within _ _ ?_ ?_
    | with_reducible refine State.cliShow_within _ ?_ ?_
    | with_reducible refine State.logEvent_within _ _ _ _ ?_ ?_
    | with_reducible refine State.addCnt_within _ _ ?_ ?_
    | with_reducible refine State.setFlag_within _ _ _ ?_ ?_
    | split
    | (dsimp only)

theorem State.cphRecords_within {sc r₀ s₀} (c : Carrier) (tags : List Byte) (l : List (Nat × RxWord)) (cap : Nat) (mf : Bool) (hs : sub [.cph] sc = true) (h₀ : Within sc r₀ s₀) :
    Within sc r₀ (State.cphRecords c tags l cap mf s₀) := by
  unfold State.cphRecords
  repeat' first
    | with_reducible assumption
    | ((with_reducible refine sub_trans ?_ hs); exact rfl)
    | with_reducible exact trivial
    | with_reducible refine within_ite ?_ (fun _ => ?_)
    | with_reducible refine State.setCphCar_within _ _ ?_ ?_
    | split
    | (dsimp only)

theorem State.clearWords_within {sc r₀ s₀} (c : Carrier) (l : List (Nat × RxWord)) (mf : Bool) (hs : sub [.clm] sc = true) (h₀ : Within sc r₀ s₀) :
    Within sc r₀ (State.clearWords c l mf s₀) := by
  unfold State.clearWords
  repeat' first
    | with_reducible assumption
    | ((with_reducible refine sub_trans ?_ hs); exact rfl)
    | with_reducible exact trivial
    | with_reducible refine within_ite ?_ (fun _ => ?_)
    | with_reducible refine State.clmGive_within _ _ ?_ ?_
    | with_reducible refine within_foldl (fun _ _ _ => ?_) ?_
    | with_reducible refine within_foldl_snd (fun _ _ _ => ?_) ?_
    | split
    | (dsimp only)

theorem State.cphRxFrameEnd_within {sc r₀ s₀} (c : Carrier) (hs : sub [.regs, .coreA, .coreB, .hif, .cph] sc = true) (h₀ : Within sc r₀ s₀) :
    Within sc r₀ (State.cphRxFrameEnd c s₀) := by
  unfold State.cphRxFrameEnd
  repeat' first
    | with_reducible assumption
    | ((with_reducible refine sub_trans ?_ hs); exact rfl)
    | with_reducible exact trivial
    | with_reducible refine within_ite ?_ (fun _ => ?_)
    | with_reducible refine State.cphUnrec_within _ _ _ ?_ ?_
    | with_reducible refine State.setCphCar_within _ _ ?_ ?_
    | split
    | (dsimp only)

theorem State.frxAdvance_within {sc r₀ s₀} (c : Carrier) (im : Bool) (low : Nat) (hs : sub [.cph] sc = true) (h₀ : Within sc r₀ s₀) :
    Within sc r₀ (State.frxAdvance c im low s₀) := by
  unfold State.frxAdvance
  repeat' first
    | with_reducible assumption
    | ((with_reducible refine sub_trans ?_ hs); exact rfl)
    | with_reducible exact trivial
    | with_reducible refine within_ite ?_ (fun _ => ?_)
    | with_reducible refine State.setCphCar_within _ _ ?_ ?_
    | split
    | (dsimp only)

theorem State.unitIn_within {sc r₀ s₀} (idle : Option Nat) (hs : sub [.regs] sc = true) (h₀ : Within sc r₀ s₀) :
    Within sc r₀ (State.unitIn idle s₀) := by
  unfold State.unitIn
  repeat' first
    | with_reducible assumption
    | ((with_reducible refine sub_trans ?_ hs); exact rfl)
    | with_reducible exact trivial
    | with_reducible refine within_ite ?_ (fun _ => ?_)
    | with_reducible refine State.setUnit_within _ _ ?_ ?_
    | split
    | (dsimp only)

theorem execCphUnitMismatch_within {sc r₀ s₀} (unit : Fin 26) (rxSide : Bool) (inFlight : List (Fin 128)) (hs : sub [.regs, .coreA, .coreB, .hif, .free, .cph, .log] sc = true) (h₀ : Within sc r₀ s₀) :
    OutWithin sc r₀ (execCphUnitMismatch unit rxSide inFlight s₀) := by
  unfold execCphUnitMismatch
  repeat' first
    | with_reducible assumption
    | ((with_reducible refine sub_trans ?_ hs); exact rfl)
    | with_reducible exact trivial
    | with_reducible refine within_ite ?_ (fun _ => ?_)
    | with_reducible refine outWithin_next ?_
    | with_reducible refine outWithin_ite ?_ ?_
    | with_reducible exact outWithin_fault _
    | with_reducible refine State.unitIn_within _ ?_ ?_
    | with_reducible refine State.unitCount_within ?_ ?_
    | with_reducible refine State.setUnit_within _ _ ?_ ?_
    | with_reducible refine State.spareUsed_within _ ?_ ?_
    | with_reducible refine State.logEvent_within _ _ _ _ ?_ ?_
    | with_reducible refine State.draw_within'  ‹_› ?_ ?_
    | with_reducible refine State.draw_within ?_ ?_
    | with_reducible refine State.addCnt_within _ _ ?_ ?_
    | with_reducible refine State.setFlag_within _ _ _ ?_ ?_
    | with_reducible refine within_foldl (fun _ _ _ => ?_) ?_
    | with_reducible refine within_foldl_snd (fun _ _ _ => ?_) ?_
    | split
    | with_reducible refine Within.set_cph ?_ ?_
    | (dsimp only)

theorem State.cphEraseAll_within {sc r₀ s₀}  (hs : sub [.regs, .coreA, .coreB, .cph] sc = true) (h₀ : Within sc r₀ s₀) :
    Within sc r₀ (State.cphEraseAll s₀) := by
  unfold State.cphEraseAll
  repeat' first
    | with_reducible assumption
    | ((with_reducible refine sub_trans ?_ hs); exact rfl)
    | with_reducible exact trivial
    | with_reducible refine within_ite ?_ (fun _ => ?_)
    | with_reducible refine State.cphShow_within _ ?_ ?_
    | with_reducible refine State.addCnt_within _ _ ?_ ?_
    | with_reducible refine State.setFlag_within _ _ _ ?_ ?_
    | with_reducible refine within_foldl (fun _ _ _ => ?_) ?_
    | with_reducible refine within_foldl_snd (fun _ _ _ => ?_) ?_
    | split
    | with_reducible refine Within.set_cph ?_ ?_
    | (dsimp only)

theorem execCphEngineFault_within {sc r₀ s₀}  (hs : sub [.regs, .coreA, .coreB, .hif, .free, .cph] sc = true) (h₀ : Within sc r₀ s₀) :
    OutWithin sc r₀ (execCphEngineFault s₀) := by
  unfold execCphEngineFault
  repeat' first
    | with_reducible assumption
    | ((with_reducible refine sub_trans ?_ hs); exact rfl)
    | with_reducible exact trivial
    | with_reducible refine within_ite ?_ (fun _ => ?_)
    | with_reducible refine outWithin_next ?_
    | with_reducible refine outWithin_ite ?_ ?_
    | with_reducible exact outWithin_fault _
    | with_reducible refine State.cphEraseAll_within ?_ ?_
    | with_reducible refine State.cphUnrec_within _ _ _ ?_ ?_
    | with_reducible refine State.logFault_within _ _ _ ?_ ?_
    | with_reducible refine State.setFlag_within _ _ _ ?_ ?_
    | split
    | with_reducible refine Within.set_cph ?_ ?_
    | (dsimp only)

theorem State.cphSecErase_within {sc r₀ s₀} (cause : Nat) (hs : sub [.regs, .coreA, .coreB, .hif, .cph] sc = true) (h₀ : Within sc r₀ s₀) :
    Within sc r₀ (State.cphSecErase cause s₀) := by
  unfold State.cphSecErase
  repeat' first
    | with_reducible assumption
    | ((with_reducible refine sub_trans ?_ hs); exact rfl)
    | with_reducible exact trivial
    | with_reducible refine within_ite ?_ (fun _ => ?_)
    | with_reducible refine State.cphEraseAll_within ?_ ?_
    | with_reducible refine State.cphUnrec_within _ _ _ ?_ ?_
    | with_reducible refine State.logEvent_within _ _ _ _ ?_ ?_
    | with_reducible refine State.setFlag_within _ _ _ ?_ ?_
    | split
    | (dsimp only)

theorem execCpUnitRetest_within {sc r₀ s₀}  (hs : sub [.regs, .mem, .coreA, .coreB, .qc, .hws, .hif, .pwr, .free, .log, .ecc] sc = true) (h₀ : Within sc r₀ s₀) :
    OutWithin sc r₀ (execCpUnitRetest s₀) := by
  unfold execCpUnitRetest
  repeat' first
    | with_reducible assumption
    | ((with_reducible refine sub_trans ?_ hs); exact rfl)
    | with_reducible exact trivial
    | with_reducible refine within_ite ?_ (fun _ => ?_)
    | with_reducible refine within_ite_snd ?_ (fun _ => ?_)
    | with_reducible refine outWithin_next ?_
    | with_reducible refine outWithin_ite ?_ ?_
    | with_reducible exact outWithin_fault _
    | with_reducible refine State.unitCount_within ?_ ?_
    | with_reducible refine State.setUnit_within _ _ ?_ ?_
    | with_reducible refine State.runCommand_within _ _ _ (fun _ _ _ => ?_) ?_ ?_
    | split
    | (dsimp only)

theorem State.cpRetestDone_within {sc r₀ s₀} (d : Desc) (failed : Bool) (hs : sub [.regs, .coreA, .coreB, .hif] sc = true) (h₀ : Within sc r₀ s₀) :
    Within sc r₀ (State.cpRetestDone d failed s₀) := by
  unfold State.cpRetestDone
  repeat' first
    | with_reducible assumption
    | ((with_reducible refine sub_trans ?_ hs); exact rfl)
    | with_reducible exact trivial
    | with_reducible refine within_ite ?_ (fun _ => ?_)
    | with_reducible refine State.unitCount_within ?_ ?_
    | with_reducible refine State.setUnit_within _ _ ?_ ?_
    | with_reducible refine State.logEvent_within _ _ _ _ ?_ ?_
    | split
    | (dsimp only)

theorem execCpReadContext_within {sc r₀ s₀}  (hs : sub [.regs, .mem, .coreA, .coreB, .qc, .hws, .hif, .pwr, .free, .log, .ecc] sc = true) (h₀ : Within sc r₀ s₀) :
    OutWithin sc r₀ (execCpReadContext s₀) := by
  unfold execCpReadContext
  repeat' first
    | with_reducible assumption
    | ((with_reducible refine sub_trans ?_ hs); exact rfl)
    | with_reducible exact trivial
    | with_reducible refine within_ite ?_ (fun _ => ?_)
    | with_reducible refine within_ite_snd ?_ (fun _ => ?_)
    | with_reducible refine outWithin_next ?_
    | with_reducible refine outWithin_ite ?_ ?_
    | with_reducible exact outWithin_fault _
    | with_reducible refine State.setBytes_within _ _ ?_ ?_
    | with_reducible refine State.runCommand_within _ _ _ (fun _ _ _ => ?_) ?_ ?_
    | split
    | (dsimp only)

end Sys2Proof.Laws
end

