-- ==== Sys2Proof/Laws/Clm.lean ====
section
/-! SUPPORT. The scope of each operation of Sys2Proof/Machine/Clm.lean. -/
namespace Sys2Proof.Laws
open Sys2Proof.Machine Sys2Proof.Safety

theorem State.setBrtCtx_within {sc r₀ s₀} (p : Nat) (x : BrtCtx) (hs : sub [.brt] sc = true) (h₀ : Within sc r₀ s₀) :
    Within sc r₀ (State.setBrtCtx p x s₀) := by
  unfold State.setBrtCtx
  repeat' first
    | with_reducible assumption
    | ((with_reducible refine sub_trans ?_ hs); exact rfl)
    | with_reducible exact trivial
    | with_reducible refine within_ite ?_ (fun _ => ?_)
    | split
    | with_reducible refine Within.set_brt ?_ ?_
    | (dsimp only)

theorem State.brtAccrue_within {sc r₀ s₀} (p : Nat) (hs : sub [.brt] sc = true) (h₀ : Within sc r₀ s₀) :
    Within sc r₀ (State.brtAccrue p s₀) := by
  unfold State.brtAccrue
  repeat' first
    | with_reducible assumption
    | ((with_reducible refine sub_trans ?_ hs); exact rfl)
    | with_reducible exact trivial
    | with_reducible refine within_ite ?_ (fun _ => ?_)
    | with_reducible refine State.setBrtCtx_within _ _ ?_ ?_
    | split
    | (dsimp only)

theorem State.brtReset_within {sc r₀ s₀} (p : Nat) (pol : Bool) (shp : Bool) (hs : sub [.brt] sc = true) (h₀ : Within sc r₀ s₀) :
    Within sc r₀ (State.brtReset p pol shp s₀) := by
  unfold State.brtReset
  repeat' first
    | with_reducible assumption
    | ((with_reducible refine sub_trans ?_ hs); exact rfl)
    | with_reducible exact trivial
    | with_reducible refine within_ite ?_ (fun _ => ?_)
    | with_reducible refine State.setBrtCtx_within _ _ ?_ ?_
    | split
    | (dsimp only)

theorem State.brtResetCfg_within {sc r₀ s₀} (p : Nat) (hs : sub [.brt] sc = true) (h₀ : Within sc r₀ s₀) :
    Within sc r₀ (State.brtResetCfg p s₀) := by
  unfold State.brtResetCfg
  repeat' first
    | with_reducible assumption
    | ((with_reducible refine sub_trans ?_ hs); exact rfl)
    | with_reducible exact trivial
    | with_reducible refine within_ite ?_ (fun _ => ?_)
    | with_reducible refine State.brtReset_within _ _ _ ?_ ?_
    | split
    | (dsimp only)

theorem State.brtShow_within {sc r₀ s₀} (p : Nat) (hs : sub [.regs, .brt] sc = true) (h₀ : Within sc r₀ s₀) :
    Within sc r₀ (State.brtShow p s₀) := by
  unfold State.brtShow
  repeat' first
    | with_reducible assumption
    | ((with_reducible refine sub_trans ?_ hs); exact rfl)
    | with_reducible exact trivial
    | with_reducible refine within_ite ?_ (fun _ => ?_)
    | with_reducible refine State.brtResetCfg_within _ ?_ ?_
    | with_reducible refine State.setFld_within _ _ _ ?_ ?_
    | split
    | (dsimp only)

theorem State.brtCells_within {sc r₀ s₀} (p : Nat) (d : Int) (hs : sub [.regs] sc = true) (h₀ : Within sc r₀ s₀) :
    Within sc r₀ (State.brtCells p d s₀) := by
  unfold State.brtCells
  repeat' first
    | with_reducible assumption
    | ((with_reducible refine sub_trans ?_ hs); exact rfl)
    | with_reducible exact trivial
    | with_reducible refine within_ite ?_ (fun _ => ?_)
    | with_reducible refine State.setFld_within _ _ _ ?_ ?_
    | split
    | (dsimp only)

theorem State.clmCommit_within {sc r₀ s₀} (changed : List Nat) (hs : sub [.regs, .coreA, .coreB, .hif, .brt] sc = true) (h₀ : Within sc r₀ s₀) :
    Within sc r₀ (State.clmCommit changed s₀) := by
  unfold State.clmCommit
  repeat' first
    | with_reducible assumption
    | ((with_reducible refine sub_trans ?_ hs); exact rfl)
    | with_reducible exact trivial
    | with_reducible refine within_ite ?_ (fun _ => ?_)
    | with_reducible refine State.brtShow_within _ ?_ ?_
    | with_reducible refine State.brtResetCfg_within _ ?_ ?_
    | with_reducible refine State.cliShowAll_within ?_ ?_
    | with_reducible refine State.applySet_within _ ?_ ?_
    | with_reducible refine State.logEvent_within _ _ _ _ ?_ ?_
    | with_reducible refine State.setFld_within _ _ _ ?_ ?_
    | with_reducible refine forN_within _ _ ?_ ?_
    | with_reducible refine within_foldl (fun _ _ _ => ?_) ?_
    | with_reducible refine within_foldl_snd (fun _ _ _ => ?_) ?_
    | with_reducible refine forN_within (fun _ _ _ => ?_) ?_
    | split
    | (dsimp only)

theorem execClSetMap_within {sc r₀ s₀}  (hs : sub [.regs, .mem, .coreA, .coreB, .qc, .hws, .hif, .pwr, .free, .frmA, .frmB, .brt, .log, .ecc] sc = true) (h₀ : Within sc r₀ s₀) :
    OutWithin sc r₀ (execClSetMap s₀) := by
  unfold execClSetMap
  repeat' first
    | with_reducible assumption
    | ((with_reducible refine sub_trans ?_ hs); exact rfl)
    | with_reducible exact trivial
    | with_reducible refine within_ite ?_ (fun _ => ?_)
    | with_reducible refine within_ite_snd ?_ (fun _ => ?_)
    | with_reducible refine outWithin_next ?_
    | with_reducible refine outWithin_ite ?_ ?_
    | with_reducible exact outWithin_fault _
    | with_reducible refine State.brtShow_within _ ?_ ?_
    | with_reducible refine State.cliShowAll_within ?_ ?_
    | with_reducible refine State.setFrm_within _ _ ?_ ?_
    | with_reducible refine forN_within _ _ ?_ ?_
    | with_reducible refine State.runCommand_within _ _ _ (fun _ _ _ => ?_) ?_ ?_
    | with_reducible refine forN_within (fun _ _ _ => ?_) ?_
    | split
    | (dsimp only)

theorem execClReadMap_within {sc r₀ s₀}  (hs : sub [.regs, .mem, .coreA, .coreB, .qc, .hws, .hif, .pwr, .free, .log, .ecc] sc = true) (h₀ : Within sc r₀ s₀) :
    OutWithin sc r₀ (execClReadMap s₀) := by
  unfold execClReadMap
  repeat' first
    | with_reducible assumption
    | ((with_reducible refine sub_trans ?_ hs); exact rfl)
    | with_reducible exact trivial
    | with_reducible refine within_ite ?_ (fun _ => ?_)
    | with_reducible refine within_ite_snd ?_ (fun _ => ?_)
    | with_reducible refine outWithin_next ?_
    | with_reducible refine outWithin_ite ?_ ?_
    | with_reducible exact outWithin_fault _
    | with_reducible refine State.setBytes_within _ _ ?_ ?_
    | with_reducible refine State.runCommand_within _ _ _ (fun _ _ _ => ?_) ?_ ?_
    | split
    | (dsimp only)

theorem execClSetFlexeCal_within {sc r₀ s₀}  (hs : sub [.regs, .mem, .coreA, .coreB, .qc, .hws, .hif, .pwr, .free, .clm, .log, .ecc] sc = true) (h₀ : Within sc r₀ s₀) :
    OutWithin sc r₀ (execClSetFlexeCal s₀) := by
  unfold execClSetFlexeCal
  repeat' first
    | with_reducible assumption
    | ((with_reducible refine sub_trans ?_ hs); exact rfl)
    | with_reducible exact trivial
    | with_reducible refine within_ite ?_ (fun _ => ?_)
    | with_reducible refine within_ite_snd ?_ (fun _ => ?_)
    | with_reducible refine outWithin_next ?_
    | with_reducible refine outWithin_ite ?_ ?_
    | with_reducible exact outWithin_fault _
    | with_reducible refine State.runCommand_within _ _ _ (fun _ _ _ => ?_) ?_ ?_
    | split
    | with_reducible refine Within.set_clm ?_ ?_
    | (dsimp only)

theorem execFlexeCalendarSwitch_within {sc r₀ s₀} (g : Fin 8) (hs : sub [.regs] sc = true) (h₀ : Within sc r₀ s₀) :
    OutWithin sc r₀ (execFlexeCalendarSwitch g s₀) := by
  unfold execFlexeCalendarSwitch
  repeat' first
    | with_reducible assumption
    | ((with_reducible refine sub_trans ?_ hs); exact rfl)
    | with_reducible exact trivial
    | with_reducible refine within_ite ?_ (fun _ => ?_)
    | with_reducible refine outWithin_next ?_
    | with_reducible refine outWithin_ite ?_ ?_
    | with_reducible exact outWithin_fault _
    | with_reducible refine State.setFld_within _ _ _ ?_ ?_
    | split
    | (dsimp only)

theorem State.boundShow_within {sc r₀ s₀} (n : Nat) (hs : sub [.regs] sc = true) (h₀ : Within sc r₀ s₀) :
    Within sc r₀ (State.boundShow n s₀) := by
  unfold State.boundShow
  repeat' first
    | with_reducible assumption
    | ((with_reducible refine sub_trans ?_ hs); exact rfl)
    | with_reducible exact trivial
    | with_reducible refine within_ite ?_ (fun _ => ?_)
    | with_reducible refine State.setFlag_within _ _ _ ?_ ?_
    | split
    | (dsimp only)

theorem State.clmIngress_within {sc r₀ s₀} (n : Nat) (u : Unit66) (hs : sub [.regs, .coreA, .coreB, .hif, .clm] sc = true) (h₀ : Within sc r₀ s₀) :
    Within sc r₀ (State.clmIngress n u s₀) := by
  unfold State.clmIngress
  repeat' first
    | with_reducible assumption
    | ((with_reducible refine sub_trans ?_ hs); exact rfl)
    | with_reducible exact trivial
    | with_reducible refine within_ite ?_ (fun _ => ?_)
    | with_reducible refine State.boundShow_within _ ?_ ?_
    | with_reducible refine State.setClient_within _ _ ?_ ?_
    | with_reducible refine State.logEvent_within _ _ _ _ ?_ ?_
    | with_reducible refine State.addCnt_within _ _ ?_ ?_
    | with_reducible refine State.setFlag_within _ _ _ ?_ ?_
    | split
    | (dsimp only)

theorem execClmIngressUnit_within {sc r₀ s₀} (client : Fin 128) (ctl : Bool) (body : W64) (hs : sub [.regs, .coreA, .coreB, .hif, .clm] sc = true) (h₀ : Within sc r₀ s₀) :
    OutWithin sc r₀ (execClmIngressUnit client ctl body s₀) := by
  unfold execClmIngressUnit
  repeat' first
    | with_reducible assumption
    | ((with_reducible refine sub_trans ?_ hs); exact rfl)
    | with_reducible exact trivial
    | with_reducible refine within_ite ?_ (fun _ => ?_)
    | with_reducible refine outWithin_next ?_
    | with_reducible refine outWithin_ite ?_ ?_
    | with_reducible exact outWithin_fault _
    | with_reducible refine State.clmIngress_within _ _ ?_ ?_
    | split
    | (dsimp only)

theorem State.clmDrain_within {sc r₀ s₀} (n : Nat) (words : Nat) (first : Bool) (last : Bool) (hs : sub [.regs, .berth, .clm] sc = true) (h₀ : Within sc r₀ s₀) :
    Within sc r₀ (State.clmDrain n words first last s₀).2 := by
  unfold State.clmDrain
  repeat' first
    | with_reducible assumption
    | ((with_reducible refine sub_trans ?_ hs); exact rfl)
    | with_reducible exact trivial
    | with_reducible refine within_ite ?_ (fun _ => ?_)
    | with_reducible refine within_ite_snd ?_ (fun _ => ?_)
    | with_reducible refine State.boundShow_within _ ?_ ?_
    | with_reducible refine State.setClient_within _ _ ?_ ?_
    | split
    | with_reducible refine Within.set_berth ?_ ?_
    | (dsimp only)
theorem State.clmDrain_within' {sc r₀ s₀ t} {x0} (n : Nat) (words : Nat) (first : Bool) (last : Bool) (he : State.clmDrain n words first last s₀ = (x0, t)) (hs : sub [.regs, .berth, .clm] sc = true) (h₀ : Within sc r₀ s₀) : Within sc r₀ t := by
  have h := State.clmDrain_within n words first last hs h₀
  rw [he] at h
  exact h

theorem State.brtDrain_within {sc r₀ s₀} (n : Nat) (words : Nat) (hs : sub [.brt] sc = true) (h₀ : Within sc r₀ s₀) :
    Within sc r₀ (State.brtDrain n words s₀).2 := by
  unfold State.brtDrain
  repeat' first
    | with_reducible assumption
    | ((with_reducible refine sub_trans ?_ hs); exact rfl)
    | with_reducible exact trivial
    | with_reducible refine within_ite ?_ (fun _ => ?_)
    | with_reducible refine within_ite_snd ?_ (fun _ => ?_)
    | with_reducible refine State.setBrtCtx_within _ _ ?_ ?_
    | split
    | (dsimp only)
theorem State.brtDrain_within' {sc r₀ s₀ t} {x0} (n : Nat) (words : Nat) (he : State.brtDrain n words s₀ = (x0, t)) (hs : sub [.brt] sc = true) (h₀ : Within sc r₀ s₀) : Within sc r₀ t := by
  have h := State.brtDrain_within n words hs h₀
  rw [he] at h
  exact h

theorem State.berthTake_within {sc r₀ s₀} (n : Nat) (words : Nat) (first : Bool) (last : Bool) (hs : sub [.regs, .berth, .clm, .brt] sc = true) (h₀ : Within sc r₀ s₀) :
    Within sc r₀ (State.berthTake n words first last s₀).2 := by
  unfold State.berthTake
  repeat' first
    | with_reducible assumption
    | ((with_reducible refine sub_trans ?_ hs); exact rfl)
    | with_reducible exact trivial
    | with_reducible refine within_ite ?_ (fun _ => ?_)
    | with_reducible refine within_ite_snd ?_ (fun _ => ?_)
    | with_reducible refine State.brtDrain_within' _ _  ‹_› ?_ ?_
    | with_reducible refine State.brtDrain_within _ _ ?_ ?_
    | with_reducible refine State.clmDrain_within' _ _ _ _  ‹_› ?_ ?_
    | with_reducible refine State.clmDrain_within _ _ _ _ ?_ ?_
    | split
    | (dsimp only)
theorem State.berthTake_within' {sc r₀ s₀ t} {x0} (n : Nat) (words : Nat) (first : Bool) (last : Bool) (he : State.berthTake n words first last s₀ = (x0, t)) (hs : sub [.regs, .berth, .clm, .brt] sc = true) (h₀ : Within sc r₀ s₀) : Within sc r₀ t := by
  have h := State.berthTake_within n words first last hs h₀
  rw [he] at h
  exact h

theorem State.putClient_within {sc r₀ s₀} (n : Nat) (first : Bool) (last : Bool) (fr : TxFrame) (hs : sub [.regs, .berth, .clm, .brt] sc = true) (h₀ : Within sc r₀ s₀) :
    Within sc r₀ (State.putClient n first last fr s₀).2 := by
  unfold State.putClient
  repeat' first
    | with_reducible assumption
    | ((with_reducible refine sub_trans ?_ hs); exact rfl)
    | with_reducible exact trivial
    | with_reducible refine within_ite ?_ (fun _ => ?_)
    | with_reducible refine within_ite_snd ?_ (fun _ => ?_)
    | with_reducible refine State.berthTake_within' _ _ _ _  ‹_› ?_ ?_
    | with_reducible refine State.berthTake_within _ _ _ _ ?_ ?_
    | with_reducible refine State.setClient_within _ _ ?_ ?_
    | split
    | (dsimp only)
theorem State.putClient_within' {sc r₀ s₀ t} {x0} (n : Nat) (first : Bool) (last : Bool) (fr : TxFrame) (he : State.putClient n first last fr s₀ = (x0, t)) (hs : sub [.regs, .berth, .clm, .brt] sc = true) (h₀ : Within sc r₀ s₀) : Within sc r₀ t := by
  have h := State.putClient_within n first last fr hs h₀
  rw [he] at h
  exact h

theorem State.fillFrame_within {sc r₀ s₀} (first : Bool) (last : Bool) (fr : TxFrame) (hs : sub [.regs, .berth, .clm, .brt] sc = true) (h₀ : Within sc r₀ s₀) :
    Within sc r₀ (State.fillFrame first last fr s₀).2 := by
  unfold State.fillFrame
  repeat' first
    | with_reducible assumption
    | ((with_reducible refine sub_trans ?_ hs); exact rfl)
    | with_reducible exact trivial
    | with_reducible refine within_ite ?_ (fun _ => ?_)
    | with_reducible refine within_ite_snd ?_ (fun _ => ?_)
    | with_reducible refine State.putClient_within' _ _ _ _  ‹_› ?_ ?_
    | with_reducible refine State.putClient_within _ _ _ _ ?_ ?_
    | with_reducible refine within_foldl (fun _ _ _ => ?_) ?_
    | with_reducible refine within_foldl_snd (fun _ _ _ => ?_) ?_
    | split
    | (dsimp only)
theorem State.fillFrame_within' {sc r₀ s₀ t} {x0} (first : Bool) (last : Bool) (fr : TxFrame) (he : State.fillFrame first last fr s₀ = (x0, t)) (hs : sub [.regs, .berth, .clm, .brt] sc = true) (h₀ : Within sc r₀ s₀) : Within sc r₀ t := by
  have h := State.fillFrame_within first last fr hs h₀
  rw [he] at h
  exact h

theorem State.egress_within {sc r₀ s₀} (n : Nat) (hs : sub [.regs, .coreA, .coreB, .clm] sc = true) (h₀ : Within sc r₀ s₀) :
    Within sc r₀ (State.egress n s₀) := by
  unfold State.egress
  repeat' first
    | with_reducible assumption
    | ((with_reducible refine sub_trans ?_ hs); exact rfl)
    | with_reducible exact trivial
    | with_reducible refine within_ite ?_ (fun _ => ?_)
    | with_reducible refine State.setClient_within _ _ ?_ ?_
    | with_reducible refine State.addCnt_within _ _ ?_ ?_
    | with_reducible refine State.setFlag_within _ _ _ ?_ ?_
    | with_reducible refine within_foldl (fun _ _ _ => ?_) ?_
    | with_reducible refine within_foldl_snd (fun _ _ _ => ?_) ?_
    | split
    | (dsimp only)

theorem State.tieOver_within {sc r₀ s₀} (n : Nat) (hs : sub [.regs, .coreA, .coreB, .hif, .clm] sc = true) (h₀ : Within sc r₀ s₀) :
    Within sc r₀ (State.tieOver n s₀) := by
  unfold State.tieOver
  repeat' first
    | with_reducible assumption
    | ((with_reducible refine sub_trans ?_ hs); exact rfl)
    | with_reducible exact trivial
    | with_reducible refine within_ite ?_ (fun _ => ?_)
    | with_reducible refine State.clmIngress_within _ _ ?_ ?_
    | with_reducible refine State.setClient_within _ _ ?_ ?_
    | with_reducible refine within_foldl (fun _ _ _ => ?_) ?_
    | with_reducible refine within_foldl_snd (fun _ _ _ => ?_) ?_
    | split
    | (dsimp only)

theorem execClmEgressUnit_within {sc r₀ s₀} (client : Fin 128) (hs : sub [.regs, .coreA, .coreB, .hif, .clm] sc = true) (h₀ : Within sc r₀ s₀) :
    OutWithin sc r₀ (execClmEgressUnit client s₀) := by
  unfold execClmEgressUnit
  repeat' first
    | with_reducible assumption
    | ((with_reducible refine sub_trans ?_ hs); exact rfl)
    | with_reducible exact trivial
    | with_reducible refine within_ite ?_ (fun _ => ?_)
    | with_reducible refine outWithin_next ?_
    | with_reducible refine outWithin_ite ?_ ?_
    | with_reducible exact outWithin_fault _
    | with_reducible refine State.tieOver_within _ ?_ ?_
    | with_reducible refine State.egress_within _ ?_ ?_
    | with_reducible refine State.setClient_within _ _ ?_ ?_
    | split
    | (dsimp only)

theorem State.brtMeter_within {sc r₀ s₀} (p : Nat) (len : Nat) (hs : sub [.regs, .coreA, .coreB, .brt] sc = true) (h₀ : Within sc r₀ s₀) :
    Within sc r₀ (State.brtMeter p len s₀).2 := by
  unfold State.brtMeter
  repeat' first
    | with_reducible assumption
    | ((with_reducible refine sub_trans ?_ hs); exact rfl)
    | with_reducible exact trivial
    | with_reducible refine within_ite ?_ (fun _ => ?_)
    | with_reducible refine within_ite_snd ?_ (fun _ => ?_)
    | with_reducible refine State.brtAccrue_within _ ?_ ?_
    | with_reducible refine State.setBrtCtx_within _ _ ?_ ?_
    | with_reducible refine State.addCnt_within _ _ ?_ ?_
    | split
    | (dsimp only)
theorem State.brtMeter_within' {sc r₀ s₀ t} {x0} (p : Nat) (len : Nat) (he : State.brtMeter p len s₀ = (x0, t)) (hs : sub [.regs, .coreA, .coreB, .brt] sc = true) (h₀ : Within sc r₀ s₀) : Within sc r₀ t := by
  have h := State.brtMeter_within p len hs h₀
  rw [he] at h
  exact h

theorem execBrtIngressFrame_within {sc r₀ s₀} (client : Fin 128) (frame : List Byte) (hs : sub [.regs, .coreA, .coreB, .hif, .brt] sc = true) (h₀ : Within sc r₀ s₀) :
    OutWithin sc r₀ (execBrtIngressFrame client frame s₀) := by
  unfold execBrtIngressFrame
  repeat' first
    | with_reducible assumption
    | ((with_reducible refine sub_trans ?_ hs); exact rfl)
    | with_reducible exact trivial
    | with_reducible refine within_ite ?_ (fun _ => ?_)
    | with_reducible refine outWithin_next ?_
    | with_reducible refine outWithin_ite ?_ ?_
    | with_reducible exact outWithin_fault _
    | with_reducible refine State.brtMeter_within' _ _  ‹_› ?_ ?_
    | with_reducible refine State.brtMeter_within _ _ ?_ ?_
    | with_reducible refine State.brtCells_within _ _ ?_ ?_
    | with_reducible refine State.setBrtCtx_within _ _ ?_ ?_
    | with_reducible refine State.logEvent_within _ _ _ _ ?_ ?_
    | with_reducible refine State.addCnt_within _ _ ?_ ?_
    | with_reducible refine State.setFlag_within _ _ _ ?_ ?_
    | split
    | (dsimp only)

theorem execBrtShaperRelease_within {sc r₀ s₀} (p : Fin 64) (hs : sub [.regs, .coreA, .coreB, .brt] sc = true) (h₀ : Within sc r₀ s₀) :
    OutWithin sc r₀ (execBrtShaperRelease p s₀) := by
  unfold execBrtShaperRelease
  repeat' first
    | with_reducible assumption
    | ((with_reducible refine sub_trans ?_ hs); exact rfl)
    | with_reducible exact trivial
    | with_reducible refine within_ite ?_ (fun _ => ?_)
    | with_reducible refine outWithin_next ?_
    | with_reducible refine outWithin_ite ?_ ?_
    | with_reducible exact outWithin_fault _
    | with_reducible refine State.brtCells_within _ _ ?_ ?_
    | with_reducible refine State.brtAccrue_within _ ?_ ?_
    | with_reducible refine State.setBrtCtx_within _ _ ?_ ?_
    | with_reducible refine State.addCnt_within _ _ ?_ ?_
    | split
    | (dsimp only)

theorem State.brtCliShow_within {sc r₀ s₀} (p : Nat) (hs : sub [.regs] sc = true) (h₀ : Within sc r₀ s₀) :
    Within sc r₀ (State.brtCliShow p s₀) := by
  unfold State.brtCliShow
  repeat' first
    | with_reducible assumption
    | ((with_reducible refine sub_trans ?_ hs); exact rfl)
    | with_reducible exact trivial
    | with_reducible refine within_ite ?_ (fun _ => ?_)
    | with_reducible refine State.cliShow_within _ ?_ ?_
    | split
    | (dsimp only)

theorem State.brtWords_within {sc r₀ s₀} (n : Nat) (pos : Nat) (l : List RxWord) (hs : sub [.clm] sc = true) (h₀ : Within sc r₀ s₀) :
    Within sc r₀ (State.brtWords n pos l s₀) := by
  unfold State.brtWords
  repeat' first
    | with_reducible assumption
    | ((with_reducible refine sub_trans ?_ hs); exact rfl)
    | with_reducible exact trivial
    | with_reducible refine within_ite ?_ (fun _ => ?_)
    | with_reducible refine State.setClient_within _ _ ?_ ?_
    | split
    | (dsimp only)

theorem State.brtInSync_within {sc r₀ s₀} (p : Nat) (n : Nat) (pos : Nat) (l : List RxWord) (hs : sub [.regs, .coreA, .coreB, .hif, .clm, .brt] sc = true) (h₀ : Within sc r₀ s₀) :
    Within sc r₀ (State.brtInSync p n pos l s₀) := by
  unfold State.brtInSync
  repeat' first
    | with_reducible assumption
    | ((with_reducible refine sub_trans ?_ hs); exact rfl)
    | with_reducible exact trivial
    | with_reducible refine within_ite ?_ (fun _ => ?_)
    | with_reducible refine State.brtWords_within _ _ _ ?_ ?_
    | with_reducible refine State.brtCliShow_within _ ?_ ?_
    | with_reducible refine State.setBrtCtx_within _ _ ?_ ?_
    | with_reducible refine State.logEvent_within _ _ _ _ ?_ ?_
    | with_reducible refine State.addCnt_within _ _ ?_ ?_
    | with_reducible refine State.setFlag_within _ _ _ ?_ ?_
    | split
    | (dsimp only)

theorem State.brtHunt_within {sc r₀ s₀} (p : Nat) (n : Nat) (pos : Nat) (l : List RxWord) (hs : sub [.regs, .clm, .brt] sc = true) (h₀ : Within sc r₀ s₀) :
    Within sc r₀ (State.brtHunt p n pos l s₀) := by
  unfold State.brtHunt
  repeat' first
    | with_reducible assumption
    | ((with_reducible refine sub_trans ?_ hs); exact rfl)
    | with_reducible exact trivial
    | with_reducible refine within_ite ?_ (fun _ => ?_)
    | with_reducible refine State.brtWords_within _ _ _ ?_ ?_
    | with_reducible refine State.brtCliShow_within _ ?_ ?_
    | with_reducible refine State.setBrtCtx_within _ _ ?_ ?_
    | with_reducible refine State.setFlag_within _ _ _ ?_ ?_
    | split
    | (dsimp only)

theorem execBrtEgressHeader_within {sc r₀ s₀} (p : Fin 64) (hs : sub [.regs, .coreA, .coreB, .hif, .clm, .brt] sc = true) (h₀ : Within sc r₀ s₀) :
    OutWithin sc r₀ (execBrtEgressHeader p s₀) := by
  unfold execBrtEgressHeader
  repeat' first
    | with_reducible assumption
    | ((with_reducible refine sub_trans ?_ hs); exact rfl)
    | with_reducible exact trivial
    | with_reducible refine within_ite ?_ (fun _ => ?_)
    | with_reducible refine outWithin_next ?_
    | with_reducible refine outWithin_ite ?_ ?_
    | with_reducible exact outWithin_fault _
    | with_reducible refine State.brtHunt_within _ _ _ _ ?_ ?_
    | with_reducible refine State.brtInSync_within _ _ _ _ ?_ ?_
    | split
    | (dsimp only)

theorem execBrtGuardBandStart_within {sc r₀ s₀} (p : Fin 64) (hs : sub [.regs] sc = true) (h₀ : Within sc r₀ s₀) :
    OutWithin sc r₀ (execBrtGuardBandStart p s₀) := by
  unfold execBrtGuardBandStart
  repeat' first
    | with_reducible assumption
    | ((with_reducible refine sub_trans ?_ hs); exact rfl)
    | with_reducible exact trivial
    | with_reducible refine within_ite ?_ (fun _ => ?_)
    | with_reducible refine outWithin_next ?_
    | with_reducible refine outWithin_ite ?_ ?_
    | with_reducible exact outWithin_fault _
    | with_reducible refine State.setFld_within _ _ _ ?_ ?_
    | split
    | (dsimp only)

theorem execBrtGateClose_within {sc r₀ s₀} (p : Fin 64) (hs : sub [.regs, .brt] sc = true) (h₀ : Within sc r₀ s₀) :
    OutWithin sc r₀ (execBrtGateClose p s₀) := by
  unfold execBrtGateClose
  repeat' first
    | with_reducible assumption
    | ((with_reducible refine sub_trans ?_ hs); exact rfl)
    | with_reducible exact trivial
    | with_reducible refine within_ite ?_ (fun _ => ?_)
    | with_reducible refine outWithin_next ?_
    | with_reducible refine outWithin_ite ?_ ?_
    | with_reducible exact outWithin_fault _
    | with_reducible refine State.brtShow_within _ ?_ ?_
    | with_reducible refine State.setFld_within _ _ _ ?_ ?_
    | split
    | (dsimp only)

theorem execBrResetTokens_within {sc r₀ s₀}  (hs : sub [.regs, .mem, .coreA, .coreB, .qc, .hws, .hif, .pwr, .free, .brt, .log, .ecc] sc = true) (h₀ : Within sc r₀ s₀) :
    OutWithin sc r₀ (execBrResetTokens s₀) := by
  unfold execBrResetTokens
  repeat' first
    | with_reducible assumption
    | ((with_reducible refine sub_trans ?_ hs); exact rfl)
    | with_reducible exact trivial
    | with_reducible refine within_ite ?_ (fun _ => ?_)
    | with_reducible refine within_ite_snd ?_ (fun _ => ?_)
    | with_reducible refine outWithin_next ?_
    | with_reducible refine outWithin_ite ?_ ?_
    | with_reducible exact outWithin_fault _
    | with_reducible refine State.brtReset_within _ _ _ ?_ ?_
    | with_reducible refine State.runCommand_within _ _ _ (fun _ _ _ => ?_) ?_ ?_
    | split
    | (dsimp only)

theorem execBrFlush_within {sc r₀ s₀}  (hs : sub [.regs, .mem, .coreA, .coreB, .qc, .hws, .hif, .pwr, .free, .brt, .log, .ecc] sc = true) (h₀ : Within sc r₀ s₀) :
    OutWithin sc r₀ (execBrFlush s₀) := by
  unfold execBrFlush
  repeat' first
    | with_reducible assumption
    | ((with_reducible refine sub_trans ?_ hs); exact rfl)
    | with_reducible exact trivial
    | with_reducible refine within_ite ?_ (fun _ => ?_)
    | with_reducible refine within_ite_snd ?_ (fun _ => ?_)
    | with_reducible refine outWithin_next ?_
    | with_reducible refine outWithin_ite ?_ ?_
    | with_reducible exact outWithin_fault _
    | with_reducible refine State.brtCells_within _ _ ?_ ?_
    | with_reducible refine State.setBrtCtx_within _ _ ?_ ?_
    | with_reducible refine State.addCnt_within _ _ ?_ ?_
    | with_reducible refine State.runCommand_within _ _ _ (fun _ _ _ => ?_) ?_ ?_
    | with_reducible refine within_foldl (fun _ _ _ => ?_) ?_
    | with_reducible refine within_foldl_snd (fun _ _ _ => ?_) ?_
    | split
    | (dsimp only)

theorem execClmBrtEngineFault_within {sc r₀ s₀} (brt : Bool) (hs : sub [.regs, .coreA, .coreB, .hif, .free, .clm, .brt] sc = true) (h₀ : Within sc r₀ s₀) :
    OutWithin sc r₀ (execClmBrtEngineFault brt s₀) := by
  unfold execClmBrtEngineFault
  repeat' first
    | with_reducible assumption
    | ((with_reducible refine sub_trans ?_ hs); exact rfl)
    | with_reducible exact trivial
    | with_reducible refine within_ite ?_ (fun _ => ?_)
    | with_reducible refine outWithin_next ?_
    | with_reducible refine outWithin_ite ?_ ?_
    | with_reducible exact outWithin_fault _
    | with_reducible refine State.cliShowAll_within ?_ ?_
    | with_reducible refine State.logFault_within _ _ _ ?_ ?_
    | with_reducible refine State.setFlag_within _ _ _ ?_ ?_
    | split
    | with_reducible refine Within.set_brt ?_ ?_
    | with_reducible refine Within.set_clm ?_ ?_
    | (dsimp only)

end Sys2Proof.Laws
end

