-- ==== Sys2Proof/Laws/PowerRows.lean ====
section
/-! SUPPORT. The scope of each operation of Sys2Proof/Machine/PowerRows.lean. -/
namespace Sys2Proof.Laws
open Sys2Proof.Machine Sys2Proof.Safety

theorem State.layRegs_within {sc r₀ s₀} (d : Nat) (hs : sub [.regs] sc = true) (h₀ : Within sc r₀ s₀) :
    Within sc r₀ (State.layRegs d s₀) := by
  unfold State.layRegs
  repeat' first
    | with_reducible assumption
    | ((with_reducible refine sub_trans ?_ hs); exact rfl)
    | with_reducible exact trivial
    | with_reducible refine within_ite ?_ (fun _ => ?_)
    | with_reducible refine State.setReg_within _ _ ?_ ?_
    | with_reducible refine within_foldl (fun _ _ _ => ?_) ?_
    | with_reducible refine within_foldl_snd (fun _ _ _ => ?_) ?_
    | split
    | (dsimp only)

theorem State.layCarrier_within {sc r₀ s₀} (c : Carrier) (hs : sub [.regs, .txA, .txB, .rxA, .rxB, .eqA, .eqB, .crA, .crB, .fecA, .fecB, .hailA, .hailB, .frmA, .frmB] sc = true) (h₀ : Within sc r₀ s₀) :
    Within sc r₀ (State.layCarrier c s₀) := by
  unfold State.layCarrier
  repeat' first
    | with_reducible assumption
    | ((with_reducible refine sub_trans ?_ hs); exact rfl)
    | with_reducible exact trivial
    | with_reducible refine within_ite ?_ (fun _ => ?_)
    | with_reducible refine State.txMirror_within _ ?_ ?_
    | with_reducible refine State.setFrm_within _ _ ?_ ?_
    | with_reducible refine State.setHail_within _ _ ?_ ?_
    | with_reducible refine State.fecCount_within _ ?_ ?_
    | with_reducible refine State.eqCount_within _ ?_ ?_
    | with_reducible refine State.setFec_within _ _ ?_ ?_
    | with_reducible refine State.setCr_within _ _ ?_ ?_
    | with_reducible refine State.setEq_within _ _ ?_ ?_
    | with_reducible refine State.setTx_within _ _ ?_ ?_
    | with_reducible refine State.setRx_within _ _ ?_ ?_
    | split
    | (dsimp only)

theorem State.layCph_within {sc r₀ s₀}  (hs : sub [.regs, .cph, .clm, .brt] sc = true) (h₀ : Within sc r₀ s₀) :
    Within sc r₀ (State.layCph s₀) := by
  unfold State.layCph
  repeat' first
    | with_reducible assumption
    | ((with_reducible refine sub_trans ?_ hs); exact rfl)
    | with_reducible exact trivial
    | with_reducible refine within_ite ?_ (fun _ => ?_)
    | with_reducible refine State.brtResetCfg_within _ ?_ ?_
    | with_reducible refine State.brtReset_within _ _ _ ?_ ?_
    | with_reducible refine State.cliShowAll_within ?_ ?_
    | with_reducible refine forN_within _ _ ?_ ?_
    | with_reducible refine forN_within (fun _ _ _ => ?_) ?_
    | split
    | with_reducible refine Within.set_brt ?_ ?_
    | with_reducible refine Within.set_clm ?_ ?_
    | with_reducible refine Within.set_cph ?_ ?_
    | with_reducible refine Within.set_cph_clm_brt ?_ ?_
    | (dsimp only)

theorem State.layLose_within {sc r₀ s₀} (d : Nat) (hs : sub [.regs, .cph, .txA, .txB, .rxA, .rxB, .eqA, .eqB, .crA, .crB, .fecA, .fecB, .hailA, .hailB, .frmA, .frmB, .clm, .brt, .lanes] sc = true) (h₀ : Within sc r₀ s₀) :
    Within sc r₀ (State.layLose d s₀) := by
  unfold State.layLose
  repeat' first
    | with_reducible assumption
    | ((with_reducible refine sub_trans ?_ hs); exact rfl)
    | with_reducible exact trivial
    | with_reducible refine within_ite ?_ (fun _ => ?_)
    | with_reducible refine State.layCph_within ?_ ?_
    | with_reducible refine State.layCarrier_within _ ?_ ?_
    | with_reducible refine State.layRegs_within _ ?_ ?_
    | split
    | with_reducible refine Within.set_lanes ?_ ?_
    | (dsimp only)

theorem State.beginEntry_within {sc r₀ s₀} (d : Nat) (target : Nat) (ticket : Option W32) (hs : sub [.regs, .pwr] sc = true) (h₀ : Within sc r₀ s₀) :
    Within sc r₀ (State.beginEntry d target ticket s₀) := by
  unfold State.beginEntry
  repeat' first
    | with_reducible assumption
    | ((with_reducible refine sub_trans ?_ hs); exact rfl)
    | with_reducible exact trivial
    | with_reducible refine within_ite ?_ (fun _ => ?_)
    | with_reducible refine State.modDom_within _ _ ?_ ?_
    | with_reducible refine State.setFld_within _ _ _ ?_ ?_
    | split
    | (dsimp only)

theorem execPwrIdleTimerExpiry_within {sc r₀ s₀} (dom : Fin 7) (recent : Option Byte) (enclave : Bool) (hs : sub [.regs, .coreA, .coreB, .pwr, .log] sc = true) (h₀ : Within sc r₀ s₀) :
    OutWithin sc r₀ (execPwrIdleTimerExpiry dom recent enclave s₀) := by
  unfold execPwrIdleTimerExpiry
  repeat' first
    | with_reducible assumption
    | ((with_reducible refine sub_trans ?_ hs); exact rfl)
    | with_reducible exact trivial
    | with_reducible refine within_ite ?_ (fun _ => ?_)
    | with_reducible refine outWithin_next ?_
    | with_reducible refine outWithin_ite ?_ ?_
    | with_reducible exact outWithin_fault _
    | with_reducible refine State.beginEntry_within _ _ _ ?_ ?_
    | with_reducible refine State.noteRefuse_within _ _ _ ?_ ?_
    | split
    | (dsimp only)

theorem execPwrEntryComplete_within {sc r₀ s₀} (dom : Fin 7) (hs : sub [.regs, .mem, .coreA, .coreB, .qc, .hws, .hif, .pwr, .free, .cph, .txA, .txB, .rxA, .rxB, .eqA, .eqB, .crA, .crB, .fecA, .fecB, .hailA, .hailB, .frmA, .frmB, .clm, .brt, .lanes, .log, .ecc] sc = true) (h₀ : Within sc r₀ s₀) :
    OutWithin sc r₀ (execPwrEntryComplete dom s₀) := by
  unfold execPwrEntryComplete
  repeat' first
    | with_reducible assumption
    | ((with_reducible refine sub_trans ?_ hs); exact rfl)
    | with_reducible exact trivial
    | with_reducible refine within_ite ?_ (fun _ => ?_)
    | with_reducible refine outWithin_next ?_
    | with_reducible refine outWithin_ite ?_ ?_
    | with_reducible exact outWithin_fault _
    | with_reducible refine State.layLose_within _ ?_ ?_
    | with_reducible refine State.complete_within _ _ _ _ ?_ ?_
    | with_reducible refine State.releaseWaiters_within ?_ ?_
    | with_reducible refine State.startWake_within _ ?_ ?_
    | with_reducible refine State.modDom_within _ _ ?_ ?_
    | with_reducible refine State.settle_within _ ?_ ?_
    | with_reducible refine State.addCnt_within _ _ ?_ ?_
    | with_reducible refine State.setFld_within _ _ _ ?_ ?_
    | with_reducible refine within_foldl (fun _ _ _ => ?_) ?_
    | with_reducible refine within_foldl_snd (fun _ _ _ => ?_) ?_
    | split
    | (dsimp only)

theorem execPwrWakeEvent_within {sc r₀ s₀} (src : WakeSource) (hs : sub [.regs, .mem, .coreA, .coreB, .qc, .hws, .hif, .pins, .pwr, .free, .log, .ecc] sc = true) (h₀ : Within sc r₀ s₀) :
    OutWithin sc r₀ (execPwrWakeEvent src s₀) := by
  unfold execPwrWakeEvent
  repeat' first
    | with_reducible assumption
    | ((with_reducible refine sub_trans ?_ hs); exact rfl)
    | with_reducible exact trivial
    | with_reducible refine within_ite ?_ (fun _ => ?_)
    | with_reducible refine outWithin_next ?_
    | with_reducible refine outWithin_ite ?_ ?_
    | with_reducible exact outWithin_fault _
    | with_reducible refine State.wakeEvent_within _ _ _ _ ?_ ?_
    | with_reducible refine within_foldl (fun _ _ _ => ?_) ?_
    | with_reducible refine within_foldl_snd (fun _ _ _ => ?_) ?_
    | split
    | with_reducible refine Within.set_pins ?_ ?_
    | (dsimp only)

theorem State.timerWake_within {sc r₀ s₀} (n : Nat) (hs : sub [.regs, .mem, .coreA, .coreB, .qc, .hws, .hif, .pwr, .free, .log, .ecc] sc = true) (h₀ : Within sc r₀ s₀) :
    Within sc r₀ (State.timerWake n s₀) := by
  unfold State.timerWake
  repeat' first
    | with_reducible assumption
    | ((with_reducible refine sub_trans ?_ hs); exact rfl)
    | with_reducible exact trivial
    | with_reducible refine within_ite ?_ (fun _ => ?_)
    | with_reducible refine State.wakeEvent_within _ _ _ _ ?_ ?_
    | with_reducible refine within_foldl (fun _ _ _ => ?_) ?_
    | with_reducible refine within_foldl_snd (fun _ _ _ => ?_) ?_
    | split
    | (dsimp only)

theorem State.nextWakes_within {sc r₀ s₀}  (hs : sub [.regs] sc = true) (h₀ : Within sc r₀ s₀) :
    Within sc r₀ (State.nextWakes s₀) := by
  unfold State.nextWakes
  repeat' first
    | with_reducible assumption
    | ((with_reducible refine sub_trans ?_ hs); exact rfl)
    | with_reducible exact trivial
    | with_reducible refine within_ite ?_ (fun _ => ?_)
    | with_reducible refine State.setFld_within _ _ _ ?_ ?_
    | with_reducible refine within_foldl (fun _ _ _ => ?_) ?_
    | with_reducible refine within_foldl_snd (fun _ _ _ => ?_) ?_
    | split
    | (dsimp only)

theorem State.domRun_within {sc r₀ s₀} (d : Nat) (hk : Nat) (hs : sub [.regs, .mem, .coreA, .coreB, .qc, .hws, .hif, .pwr, .free, .log, .ecc] sc = true) (h₀ : Within sc r₀ s₀) :
    Within sc r₀ (State.domRun d hk s₀) := by
  unfold State.domRun
  repeat' first
    | with_reducible assumption
    | ((with_reducible refine sub_trans ?_ hs); exact rfl)
    | with_reducible exact trivial
    | with_reducible refine within_ite ?_ (fun _ => ?_)
    | with_reducible refine State.nextWakes_within ?_ ?_
    | with_reducible refine State.endTicket_within _ _ _ _ ?_ ?_
    | with_reducible refine State.releaseWaiters_within ?_ ?_
    | with_reducible refine State.modDom_within _ _ ?_ ?_
    | with_reducible refine State.settle_within _ ?_ ?_
    | with_reducible refine State.addCnt_within _ _ ?_ ?_
    | with_reducible refine State.setFlag_within _ _ _ ?_ ?_
    | with_reducible refine State.setFld_within _ _ _ ?_ ?_
    | with_reducible refine within_foldl (fun _ _ _ => ?_) ?_
    | with_reducible refine within_foldl_snd (fun _ _ _ => ?_) ?_
    | split
    | (dsimp only)

theorem execPwrWakeComplete_within {sc r₀ s₀} (dom : Fin 7) (hk : BitVec 32) (hs : sub [.regs, .mem, .coreA, .coreB, .qc, .hws, .hif, .pwr, .free, .log, .ecc] sc = true) (h₀ : Within sc r₀ s₀) :
    OutWithin sc r₀ (execPwrWakeComplete dom hk s₀) := by
  unfold execPwrWakeComplete
  repeat' first
    | with_reducible assumption
    | ((with_reducible refine sub_trans ?_ hs); exact rfl)
    | with_reducible exact trivial
    | with_reducible refine within_ite ?_ (fun _ => ?_)
    | with_reducible refine outWithin_next ?_
    | with_reducible refine outWithin_ite ?_ ?_
    | with_reducible exact outWithin_fault _
    | with_reducible refine State.domRun_within _ _ ?_ ?_
    | split
    | (dsimp only)

theorem execPwWake_within {sc r₀ s₀}  (hs : sub [.regs, .mem, .coreA, .coreB, .qc, .hws, .hif, .pwr, .free, .log, .ecc] sc = true) (h₀ : Within sc r₀ s₀) :
    OutWithin sc r₀ (execPwWake s₀) := by
  unfold execPwWake
  repeat' first
    | with_reducible assumption
    | ((with_reducible refine sub_trans ?_ hs); exact rfl)
    | with_reducible exact trivial
    | with_reducible refine within_ite ?_ (fun _ => ?_)
    | with_reducible refine within_ite_snd ?_ (fun _ => ?_)
    | with_reducible refine outWithin_next ?_
    | with_reducible refine outWithin_ite ?_ ?_
    | with_reducible exact outWithin_fault _
    | with_reducible refine State.wakeEvent_within _ _ _ _ ?_ ?_
    | with_reducible refine State.modDom_within _ _ ?_ ?_
    | with_reducible refine State.runCommand_within _ _ _ (fun _ _ _ => ?_) ?_ ?_
    | split
    | (dsimp only)

theorem execPwPark_within {sc r₀ s₀} (recent : Option Byte) (enclave : Bool) (hs : sub [.regs, .mem, .coreA, .coreB, .qc, .hws, .hif, .pwr, .free, .log, .ecc] sc = true) (h₀ : Within sc r₀ s₀) :
    OutWithin sc r₀ (execPwPark recent enclave s₀) := by
  unfold execPwPark
  repeat' first
    | with_reducible assumption
    | ((with_reducible refine sub_trans ?_ hs); exact rfl)
    | with_reducible exact trivial
    | with_reducible refine within_ite ?_ (fun _ => ?_)
    | with_reducible refine within_ite_snd ?_ (fun _ => ?_)
    | with_reducible refine outWithin_next ?_
    | with_reducible refine outWithin_ite ?_ ?_
    | with_reducible exact outWithin_fault _
    | with_reducible refine State.beginEntry_within _ _ _ ?_ ?_
    | with_reducible refine State.wakeEvent_within _ _ _ _ ?_ ?_
    | with_reducible refine State.noteRefuse_within _ _ _ ?_ ?_
    | with_reducible refine State.runCommand_within _ _ _ (fun _ _ _ => ?_) ?_ ?_
    | split
    | (dsimp only)

theorem State.avsTarget_within {sc r₀ s₀}  (hs : sub [.pwr] sc = true) (h₀ : Within sc r₀ s₀) :
    Within sc r₀ (State.avsTarget s₀) := by
  unfold State.avsTarget
  repeat' first
    | with_reducible assumption
    | ((with_reducible refine sub_trans ?_ hs); exact rfl)
    | with_reducible exact trivial
    | with_reducible refine within_ite ?_ (fun _ => ?_)
    | split
    | with_reducible refine Within.set_pwr ?_ ?_
    | (dsimp only)

theorem State.avsIdle_within {sc r₀ s₀}  (hs : sub [.pwr] sc = true) (h₀ : Within sc r₀ s₀) :
    Within sc r₀ (State.avsIdle s₀) := by
  unfold State.avsIdle
  repeat' first
    | with_reducible assumption
    | ((with_reducible refine sub_trans ?_ hs); exact rfl)
    | with_reducible exact trivial
    | with_reducible refine within_ite ?_ (fun _ => ?_)
    | split
    | with_reducible refine Within.set_pwr ?_ ?_
    | (dsimp only)

theorem State.avsRead_within {sc r₀ s₀} (volt : Nat) (curr : Nat) (status : Nat) (hs : sub [.regs, .coreA, .coreB, .hif, .pwr] sc = true) (h₀ : Within sc r₀ s₀) :
    Within sc r₀ (State.avsRead volt curr status s₀) := by
  unfold State.avsRead
  repeat' first
    | with_reducible assumption
    | ((with_reducible refine sub_trans ?_ hs); exact rfl)
    | with_reducible exact trivial
    | with_reducible refine within_ite ?_ (fun _ => ?_)
    | with_reducible refine State.avsIdle_within ?_ ?_
    | with_reducible refine State.logEvent_within _ _ _ _ ?_ ?_
    | with_reducible refine State.setFlag_within _ _ _ ?_ ?_
    | with_reducible refine State.setFld_within _ _ _ ?_ ?_
    | split
    | with_reducible refine Within.set_pwr ?_ ?_
    | (dsimp only)

theorem execAvsPoll_within {sc r₀ s₀} (ok : Bool) (volt : BitVec 10) (curr : BitVec 16) (status : BitVec 16) (hs : sub [.regs, .coreA, .coreB, .hif, .pwr] sc = true) (h₀ : Within sc r₀ s₀) :
    OutWithin sc r₀ (execAvsPoll ok volt curr status s₀) := by
  unfold execAvsPoll
  repeat' first
    | with_reducible assumption
    | ((with_reducible refine sub_trans ?_ hs); exact rfl)
    | with_reducible exact trivial
    | with_reducible refine within_ite ?_ (fun _ => ?_)
    | with_reducible refine outWithin_next ?_
    | with_reducible refine outWithin_ite ?_ ?_
    | with_reducible exact outWithin_fault _
    | with_reducible refine State.avsRead_within _ _ _ ?_ ?_
    | split
    | with_reducible refine Within.set_pwr ?_ ?_
    | (dsimp only)

theorem execAvsRetry_within {sc r₀ s₀} (ok : Bool) (volt : BitVec 10) (curr : BitVec 16) (status : BitVec 16) (hs : sub [.regs, .coreA, .coreB, .hif, .pwr, .free] sc = true) (h₀ : Within sc r₀ s₀) :
    OutWithin sc r₀ (execAvsRetry ok volt curr status s₀) := by
  unfold execAvsRetry
  repeat' first
    | with_reducible assumption
    | ((with_reducible refine sub_trans ?_ hs); exact rfl)
    | with_reducible exact trivial
    | with_reducible refine within_ite ?_ (fun _ => ?_)
    | with_reducible refine outWithin_next ?_
    | with_reducible refine outWithin_ite ?_ ?_
    | with_reducible exact outWithin_fault _
    | with_reducible refine State.avsRead_within _ _ _ ?_ ?_
    | with_reducible refine State.avsIdle_within ?_ ?_
    | with_reducible refine State.logEvent_within _ _ _ _ ?_ ?_
    | with_reducible refine State.draw_within'  ‹_› ?_ ?_
    | with_reducible refine State.draw_within ?_ ?_
    | with_reducible refine State.setFlag_within _ _ _ ?_ ?_
    | split
    | with_reducible refine Within.set_pwr ?_ ?_
    | (dsimp only)

theorem execPwrLogicFault_within {sc r₀ s₀}  (hs : sub [.regs, .mem, .coreA, .coreB, .qc, .hws, .hif, .pwr, .free, .log, .ecc] sc = true) (h₀ : Within sc r₀ s₀) :
    OutWithin sc r₀ (execPwrLogicFault s₀) := by
  unfold execPwrLogicFault
  repeat' first
    | with_reducible assumption
    | ((with_reducible refine sub_trans ?_ hs); exact rfl)
    | with_reducible exact trivial
    | with_reducible refine within_ite ?_ (fun _ => ?_)
    | with_reducible refine outWithin_next ?_
    | with_reducible refine outWithin_ite ?_ ?_
    | with_reducible exact outWithin_fault _
    | with_reducible refine State.wakeEvent_within _ _ _ _ ?_ ?_
    | with_reducible refine State.logFault_within _ _ _ ?_ ?_
    | with_reducible refine State.setFlag_within _ _ _ ?_ ?_
    | with_reducible refine within_foldl (fun _ _ _ => ?_) ?_
    | with_reducible refine within_foldl_snd (fun _ _ _ => ?_) ?_
    | split
    | with_reducible refine Within.set_pwr ?_ ?_
    | (dsimp only)

end Sys2Proof.Laws
end

