-- ==== Sys2Proof/Laws/Monitor.lean ====
section
/-! SUPPORT. The scope of each operation of Sys2Proof/Machine/Monitor.lean. -/
namespace Sys2Proof.Laws
open Sys2Proof.Machine Sys2Proof.Safety

theorem State.tempTrigger_within {sc r₀ s₀} (v : Nat) (hs : sub [.regs] sc = true) (h₀ : Within sc r₀ s₀) :
    Within sc r₀ (State.tempTrigger v s₀) := by
  unfold State.tempTrigger
  repeat' first
    | with_reducible assumption
    | ((with_reducible refine sub_trans ?_ hs); exact rfl)
    | with_reducible exact trivial
    | with_reducible refine within_ite ?_ (fun _ => ?_)
    | with_reducible refine State.anlPend_within _ ?_ ?_
    | split
    | (dsimp only)

theorem execMonTempReadout_within {sc r₀ s₀} (temps : Vector (BitVec 16) 8) (hs : sub [.regs] sc = true) (h₀ : Within sc r₀ s₀) :
    OutWithin sc r₀ (execMonTempReadout temps s₀) := by
  unfold execMonTempReadout
  repeat' first
    | with_reducible assumption
    | ((with_reducible refine sub_trans ?_ hs); exact rfl)
    | with_reducible exact trivial
    | with_reducible refine within_ite ?_ (fun _ => ?_)
    | with_reducible refine outWithin_next ?_
    | with_reducible refine outWithin_ite ?_ ?_
    | with_reducible exact outWithin_fault _
    | with_reducible refine State.tempTrigger_within _ ?_ ?_
    | with_reducible refine State.setFld_within _ _ _ ?_ ?_
    | with_reducible refine forN_within _ _ ?_ ?_
    | with_reducible refine within_foldl (fun _ _ _ => ?_) ?_
    | with_reducible refine within_foldl_snd (fun _ _ _ => ?_) ?_
    | with_reducible refine forN_within (fun _ _ _ => ?_) ?_
    | split
    | (dsimp only)

theorem State.monBusy_within {sc r₀ s₀} (k : Fin 4) (hs : sub [.regs] sc = true) (h₀ : Within sc r₀ s₀) :
    Within sc r₀ (State.monBusy k s₀) := by
  unfold State.monBusy
  repeat' first
    | with_reducible assumption
    | ((with_reducible refine sub_trans ?_ hs); exact rfl)
    | with_reducible exact trivial
    | with_reducible refine within_ite ?_ (fun _ => ?_)
    | with_reducible refine State.setFlag_within _ _ _ ?_ ?_
    | split
    | (dsimp only)

theorem State.firShow_within {sc r₀ s₀}  (hs : sub [.regs] sc = true) (h₀ : Within sc r₀ s₀) :
    Within sc r₀ (State.firShow s₀) := by
  unfold State.firShow
  repeat' first
    | with_reducible assumption
    | ((with_reducible refine sub_trans ?_ hs); exact rfl)
    | with_reducible exact trivial
    | with_reducible refine within_ite ?_ (fun _ => ?_)
    | with_reducible refine State.setFlag_within _ _ _ ?_ ?_
    | split
    | (dsimp only)

theorem State.decRestart_within {sc r₀ s₀} (k : Fin 4) (hs : sub [.mon] sc = true) (h₀ : Within sc r₀ s₀) :
    Within sc r₀ (State.decRestart k s₀) := by
  unfold State.decRestart
  repeat' first
    | with_reducible assumption
    | ((with_reducible refine sub_trans ?_ hs); exact rfl)
    | with_reducible exact trivial
    | with_reducible refine within_ite ?_ (fun _ => ?_)
    | with_reducible refine State.setMonMod_within _ _ ?_ ?_
    | split
    | (dsimp only)

theorem State.regStart_within {sc r₀ s₀} (k : Fin 4) (hs : sub [.regs, .mon] sc = true) (h₀ : Within sc r₀ s₀) :
    Within sc r₀ (State.regStart k s₀) := by
  unfold State.regStart
  repeat' first
    | with_reducible assumption
    | ((with_reducible refine sub_trans ?_ hs); exact rfl)
    | with_reducible exact trivial
    | with_reducible refine within_ite ?_ (fun _ => ?_)
    | with_reducible refine State.decRestart_within _ ?_ ?_
    | with_reducible refine State.monBusy_within _ ?_ ?_
    | with_reducible refine State.setMonMod_within _ _ ?_ ?_
    | split
    | (dsimp only)

theorem State.regTrigger_within {sc r₀ s₀} (k : Fin 4) (hs : sub [.regs, .coreA, .coreB, .hif, .mon] sc = true) (h₀ : Within sc r₀ s₀) :
    Within sc r₀ (State.regTrigger k s₀) := by
  unfold State.regTrigger
  repeat' first
    | with_reducible assumption
    | ((with_reducible refine sub_trans ?_ hs); exact rfl)
    | with_reducible exact trivial
    | with_reducible refine within_ite ?_ (fun _ => ?_)
    | with_reducible refine State.regStart_within _ ?_ ?_
    | with_reducible refine State.monOverrun_within _ _ ?_ ?_
    | with_reducible refine State.setMonMod_within _ _ ?_ ?_
    | split
    | (dsimp only)

theorem State.injTrigger_within {sc r₀ s₀} (k : Fin 4) (hs : sub [.regs, .coreA, .coreB, .hif, .mon] sc = true) (h₀ : Within sc r₀ s₀) :
    Within sc r₀ (State.injTrigger k s₀) := by
  unfold State.injTrigger
  repeat' first
    | with_reducible assumption
    | ((with_reducible refine sub_trans ?_ hs); exact rfl)
    | with_reducible exact trivial
    | with_reducible refine within_ite ?_ (fun _ => ?_)
    | with_reducible refine State.monInject_within _ ?_ ?_
    | with_reducible refine State.monOverrun_within _ _ ?_ ?_
    | with_reducible refine State.setMonMod_within _ _ ?_ ?_
    | split
    | (dsimp only)

theorem execMonRegularTrigger_within {sc r₀ s₀} (k : Fin 4) (hs : sub [.regs, .coreA, .coreB, .hif, .mon] sc = true) (h₀ : Within sc r₀ s₀) :
    OutWithin sc r₀ (execMonRegularTrigger k s₀) := by
  unfold execMonRegularTrigger
  repeat' first
    | with_reducible assumption
    | ((with_reducible refine sub_trans ?_ hs); exact rfl)
    | with_reducible exact trivial
    | with_reducible refine within_ite ?_ (fun _ => ?_)
    | with_reducible refine outWithin_next ?_
    | with_reducible refine outWithin_ite ?_ ?_
    | with_reducible exact outWithin_fault _
    | with_reducible refine State.regTrigger_within _ ?_ ?_
    | split
    | (dsimp only)

theorem execMonInjectedTrigger_within {sc r₀ s₀} (k : Fin 4) (urgent : Bool) (hs : sub [.regs, .coreA, .coreB, .hif, .mon] sc = true) (h₀ : Within sc r₀ s₀) :
    OutWithin sc r₀ (execMonInjectedTrigger k urgent s₀) := by
  unfold execMonInjectedTrigger
  repeat' first
    | with_reducible assumption
    | ((with_reducible refine sub_trans ?_ hs); exact rfl)
    | with_reducible exact trivial
    | with_reducible refine within_ite ?_ (fun _ => ?_)
    | with_reducible refine outWithin_next ?_
    | with_reducible refine outWithin_ite ?_ ?_
    | with_reducible exact outWithin_fault _
    | with_reducible refine State.injTrigger_within _ ?_ ?_
    | with_reducible refine State.monInject_within _ ?_ ?_
    | split
    | (dsimp only)

theorem execMonTriggerDelayExpiry_within {sc r₀ s₀} (k : Fin 4) (injected : Bool) (hs : sub [.regs, .coreA, .coreB, .hif, .mon] sc = true) (h₀ : Within sc r₀ s₀) :
    OutWithin sc r₀ (execMonTriggerDelayExpiry k injected s₀) := by
  unfold execMonTriggerDelayExpiry
  repeat' first
    | with_reducible assumption
    | ((with_reducible refine sub_trans ?_ hs); exact rfl)
    | with_reducible exact trivial
    | with_reducible refine within_ite ?_ (fun _ => ?_)
    | with_reducible refine outWithin_next ?_
    | with_reducible refine outWithin_ite ?_ ?_
    | with_reducible exact outWithin_fault _
    | with_reducible refine State.regStart_within _ ?_ ?_
    | with_reducible refine State.monInject_within _ ?_ ?_
    | with_reducible refine State.setMonMod_within _ _ ?_ ?_
    | split
    | (dsimp only)

theorem State.swReg_within {sc r₀ s₀} (k : Fin 4) (hs : sub [.regs, .coreA, .coreB, .hif, .mon] sc = true) (h₀ : Within sc r₀ s₀) :
    Within sc r₀ (State.swReg k s₀) := by
  unfold State.swReg
  repeat' first
    | with_reducible assumption
    | ((with_reducible refine sub_trans ?_ hs); exact rfl)
    | with_reducible exact trivial
    | with_reducible refine within_ite ?_ (fun _ => ?_)
    | with_reducible refine State.regTrigger_within _ ?_ ?_
    | split
    | (dsimp only)

theorem execSwReg_within {sc r₀ s₀} (k : Fin 4) (hs : sub [.regs, .coreA, .coreB, .hif, .mon] sc = true) (h₀ : Within sc r₀ s₀) :
    OutWithin sc r₀ (execSwReg k s₀) := by
  unfold execSwReg
  repeat' first
    | with_reducible assumption
    | ((with_reducible refine sub_trans ?_ hs); exact rfl)
    | with_reducible exact trivial
    | with_reducible refine within_ite ?_ (fun _ => ?_)
    | with_reducible refine outWithin_next ?_
    | with_reducible refine outWithin_ite ?_ ?_
    | with_reducible exact outWithin_fault _
    | with_reducible refine State.swReg_within _ ?_ ?_
    | split
    | (dsimp only)

theorem execSwInj_within {sc r₀ s₀} (k : Fin 4) (hs : sub [.regs, .coreA, .coreB, .hif, .mon] sc = true) (h₀ : Within sc r₀ s₀) :
    OutWithin sc r₀ (execSwInj k s₀) := by
  unfold execSwInj
  repeat' first
    | with_reducible assumption
    | ((with_reducible refine sub_trans ?_ hs); exact rfl)
    | with_reducible exact trivial
    | with_reducible refine within_ite ?_ (fun _ => ?_)
    | with_reducible refine outWithin_next ?_
    | with_reducible refine outWithin_ite ?_ ?_
    | with_reducible exact outWithin_fault _
    | with_reducible refine State.injTrigger_within _ ?_ ?_
    | split
    | (dsimp only)

theorem State.monShow_within {sc r₀ s₀}  (hs : sub [.regs, .mon] sc = true) (h₀ : Within sc r₀ s₀) :
    Within sc r₀ (State.monShow s₀) := by
  unfold State.monShow
  repeat' first
    | with_reducible assumption
    | ((with_reducible refine sub_trans ?_ hs); exact rfl)
    | with_reducible exact trivial
    | with_reducible refine within_ite ?_ (fun _ => ?_)
    | with_reducible refine State.regStart_within _ ?_ ?_
    | with_reducible refine State.firShow_within ?_ ?_
    | with_reducible refine State.monBusy_within _ ?_ ?_
    | with_reducible refine State.setMonMod_within _ _ ?_ ?_
    | with_reducible refine within_foldl (fun _ _ _ => ?_) ?_
    | with_reducible refine within_foldl_snd (fun _ _ _ => ?_) ?_
    | split
    | (dsimp only)

theorem State.monCapture_within {sc r₀ s₀} (k : Fin 4) (v : BitVec 24) (hs : sub [.regs, .mem, .coreA, .coreB, .qc, .hws, .hif, .pwr, .free, .mon, .log, .ecc] sc = true) (h₀ : Within sc r₀ s₀) :
    Within sc r₀ (State.monCapture k v s₀) := by
  unfold State.monCapture
  repeat' first
    | with_reducible assumption
    | ((with_reducible refine sub_trans ?_ hs); exact rfl)
    | with_reducible exact trivial
    | with_reducible refine within_ite ?_ (fun _ => ?_)
    | with_reducible refine State.setMonMod_within _ _ ?_ ?_
    | with_reducible refine State.complete_within _ _ _ _ ?_ ?_
    | with_reducible refine State.setBytes_within _ _ ?_ ?_
    | split
    | (dsimp only)

theorem State.monPublish_within {sc r₀ s₀} (k : Fin 4) (channel : Nat) (entry : Nat) (injected : Bool) (v : BitVec 24) (hs : sub [.regs, .mem, .coreA, .coreB, .qc, .hws, .hif, .pwr, .free, .mon, .log, .ecc] sc = true) (h₀ : Within sc r₀ s₀) :
    Within sc r₀ (State.monPublish k channel entry injected v s₀) := by
  unfold State.monPublish
  repeat' first
    | with_reducible assumption
    | ((with_reducible refine sub_trans ?_ hs); exact rfl)
    | with_reducible exact trivial
    | with_reducible refine within_ite ?_ (fun _ => ?_)
    | with_reducible refine State.monCapture_within _ _ ?_ ?_
    | with_reducible refine State.addCnt_within _ _ ?_ ?_
    | with_reducible refine State.setFlag_within _ _ _ ?_ ?_
    | with_reducible refine State.setFld_within _ _ _ ?_ ?_
    | split
    | (dsimp only)

theorem State.firStep_within {sc r₀ s₀} (k : Fin 4) (channel : Nat) (r : BitVec 24) (hs : sub [.regs, .mem, .coreA, .coreB, .qc, .hws, .hif, .pwr, .free, .mon, .log, .ecc] sc = true) (h₀ : Within sc r₀ s₀) :
    Within sc r₀ (State.firStep k channel s₀ r) := by
  unfold State.firStep
  repeat' first
    | with_reducible assumption
    | ((with_reducible refine sub_trans ?_ hs); exact rfl)
    | with_reducible exact trivial
    | with_reducible refine within_ite ?_ (fun _ => ?_)
    | with_reducible refine State.monPublish_within _ _ _ _ _ ?_ ?_
    | with_reducible refine State.setMonMod_within _ _ ?_ ?_
    | with_reducible refine State.draw_within'  ‹_› ?_ ?_
    | with_reducible refine State.draw_within ?_ ?_
    | with_reducible refine State.setFlag_within _ _ _ ?_ ?_
    | split
    | (dsimp only)

theorem execMonEntryEnd_within {sc r₀ s₀} (k : Fin 4) (results : List (BitVec 24)) (limited : Bool) (inject : Bool) (hs : sub [.regs, .mem, .coreA, .coreB, .qc, .hws, .hif, .pwr, .free, .mon, .log, .ecc] sc = true) (h₀ : Within sc r₀ s₀) :
    OutWithin sc r₀ (execMonEntryEnd k results limited inject s₀) := by
  unfold execMonEntryEnd
  repeat' first
    | with_reducible assumption
    | ((with_reducible refine sub_trans ?_ hs); exact rfl)
    | with_reducible exact trivial
    | with_reducible refine within_ite ?_ (fun _ => ?_)
    | with_reducible refine outWithin_next ?_
    | with_reducible refine outWithin_ite ?_ ?_
    | with_reducible exact outWithin_fault _
    | with_reducible refine State.firStep_within _ _ _ ?_ ?_
    | with_reducible refine State.monPublish_within _ _ _ _ _ ?_ ?_
    | with_reducible refine State.decRestart_within _ ?_ ?_
    | with_reducible refine State.monBusy_within _ ?_ ?_
    | with_reducible refine State.setMonMod_within _ _ ?_ ?_
    | with_reducible refine State.setFlag_within _ _ _ ?_ ?_
    | with_reducible refine State.setFld_within _ _ _ ?_ ?_
    | with_reducible refine within_foldl (fun _ _ _ => ?_) ?_
    | with_reducible refine within_foldl_snd (fun _ _ _ => ?_) ?_
    | split
    | (dsimp only)

theorem State.monSync_within {sc r₀ s₀}  (hs : sub [.mon] sc = true) (h₀ : Within sc r₀ s₀) :
    Within sc r₀ (State.monSync s₀) := by
  unfold State.monSync
  repeat' first
    | with_reducible assumption
    | ((with_reducible refine sub_trans ?_ hs); exact rfl)
    | with_reducible exact trivial
    | with_reducible refine within_ite ?_ (fun _ => ?_)
    | with_reducible refine State.decRestart_within _ ?_ ?_
    | with_reducible refine within_foldl (fun _ _ _ => ?_) ?_
    | with_reducible refine within_foldl_snd (fun _ _ _ => ?_) ?_
    | split
    | (dsimp only)

theorem execMonSyncEdge_within {sc r₀ s₀}  (hs : sub [.mon] sc = true) (h₀ : Within sc r₀ s₀) :
    OutWithin sc r₀ (execMonSyncEdge s₀) := by
  unfold execMonSyncEdge
  repeat' first
    | with_reducible assumption
    | ((with_reducible refine sub_trans ?_ hs); exact rfl)
    | with_reducible exact trivial
    | with_reducible refine within_ite ?_ (fun _ => ?_)
    | with_reducible refine outWithin_next ?_
    | with_reducible refine outWithin_ite ?_ ?_
    | with_reducible exact outWithin_fault _
    | with_reducible refine State.monSync_within ?_ ?_
    | split
    | (dsimp only)

theorem execMnSync_within {sc r₀ s₀}  (hs : sub [.regs, .mem, .coreA, .coreB, .qc, .hws, .hif, .pwr, .free, .mon, .log, .ecc] sc = true) (h₀ : Within sc r₀ s₀) :
    OutWithin sc r₀ (execMnSync s₀) := by
  unfold execMnSync
  repeat' first
    | with_reducible assumption
    | ((with_reducible refine sub_trans ?_ hs); exact rfl)
    | with_reducible exact trivial
    | with_reducible refine within_ite ?_ (fun _ => ?_)
    | with_reducible refine within_ite_snd ?_ (fun _ => ?_)
    | with_reducible refine outWithin_next ?_
    | with_reducible refine outWithin_ite ?_ ?_
    | with_reducible exact outWithin_fault _
    | with_reducible refine State.monSync_within ?_ ?_
    | with_reducible refine State.runCommand_within _ _ _ (fun _ _ _ => ?_) ?_ ?_
    | split
    | (dsimp only)

theorem State.drawCoefs_within {sc r₀ s₀} (n : Nat) (hs : sub [.free] sc = true) (h₀ : Within sc r₀ s₀) :
    Within sc r₀ (State.drawCoefs n s₀).2 := by
  unfold State.drawCoefs
  repeat' first
    | with_reducible assumption
    | ((with_reducible refine sub_trans ?_ hs); exact rfl)
    | with_reducible exact trivial
    | with_reducible refine within_ite ?_ (fun _ => ?_)
    | with_reducible refine within_ite_snd ?_ (fun _ => ?_)
    | split
    | with_reducible refine Within.set_free ?_ ?_
    | (dsimp only)
theorem State.drawCoefs_within' {sc r₀ s₀ t} {x0} (n : Nat) (he : State.drawCoefs n s₀ = (x0, t)) (hs : sub [.free] sc = true) (h₀ : Within sc r₀ s₀) : Within sc r₀ t := by
  have h := State.drawCoefs_within n hs h₀
  rw [he] at h
  exact h

theorem execMnLoadFir_within {sc r₀ s₀}  (hs : sub [.regs, .mem, .coreA, .coreB, .qc, .hws, .hif, .pwr, .free, .mon, .log, .ecc] sc = true) (h₀ : Within sc r₀ s₀) :
    OutWithin sc r₀ (execMnLoadFir s₀) := by
  unfold execMnLoadFir
  repeat' first
    | with_reducible assumption
    | ((with_reducible refine sub_trans ?_ hs); exact rfl)
    | with_reducible exact trivial
    | with_reducible refine within_ite ?_ (fun _ => ?_)
    | with_reducible refine within_ite_snd ?_ (fun _ => ?_)
    | with_reducible refine outWithin_next ?_
    | with_reducible refine outWithin_ite ?_ ?_
    | with_reducible exact outWithin_fault _
    | with_reducible refine State.drawCoefs_within' _  ‹_› ?_ ?_
    | with_reducible refine State.drawCoefs_within _ ?_ ?_
    | with_reducible refine State.firShow_within ?_ ?_
    | with_reducible refine State.setMonMod_within _ _ ?_ ?_
    | with_reducible refine State.runCommand_within _ _ _ (fun _ _ _ => ?_) ?_ ?_
    | split
    | (dsimp only)

theorem execMnCapture_within {sc r₀ s₀}  (hs : sub [.regs, .mem, .coreA, .coreB, .qc, .hws, .hif, .pwr, .free, .log, .ecc] sc = true) (h₀ : Within sc r₀ s₀) :
    OutWithin sc r₀ (execMnCapture s₀) := by
  unfold execMnCapture
  repeat' first
    | with_reducible assumption
    | ((with_reducible refine sub_trans ?_ hs); exact rfl)
    | with_reducible exact trivial
    | with_reducible refine within_ite ?_ (fun _ => ?_)
    | with_reducible refine within_ite_snd ?_ (fun _ => ?_)
    | with_reducible refine outWithin_next ?_
    | with_reducible refine outWithin_ite ?_ ?_
    | with_reducible exact outWithin_fault _
    | with_reducible refine State.runCommand_within _ _ _ (fun _ _ _ => ?_) ?_ ?_
    | split
    | (dsimp only)

theorem State.tmrTriggers_within {sc r₀ s₀} (n : Nat) (kind : Nat) (hs : sub [.regs, .coreA, .coreB, .hif, .mon] sc = true) (h₀ : Within sc r₀ s₀) :
    Within sc r₀ (State.tmrTriggers n kind s₀) := by
  unfold State.tmrTriggers
  repeat' first
    | with_reducible assumption
    | ((with_reducible refine sub_trans ?_ hs); exact rfl)
    | with_reducible exact trivial
    | with_reducible refine within_ite ?_ (fun _ => ?_)
    | with_reducible refine State.injTrigger_within _ ?_ ?_
    | with_reducible refine State.regTrigger_within _ ?_ ?_
    | with_reducible refine within_foldl (fun _ _ _ => ?_) ?_
    | with_reducible refine within_foldl_snd (fun _ _ _ => ?_) ?_
    | split
    | (dsimp only)

theorem execTmrCompare_within {sc r₀ s₀} (n : Fin 8) (hs : sub [.regs, .mem, .coreA, .coreB, .qc, .hws, .hif, .pwr, .free, .mon, .log, .ecc] sc = true) (h₀ : Within sc r₀ s₀) :
    OutWithin sc r₀ (execTmrCompare n s₀) := by
  unfold execTmrCompare
  repeat' first
    | with_reducible assumption
    | ((with_reducible refine sub_trans ?_ hs); exact rfl)
    | with_reducible exact trivial
    | with_reducible refine within_ite ?_ (fun _ => ?_)
    | with_reducible refine outWithin_next ?_
    | with_reducible refine outWithin_ite ?_ ?_
    | with_reducible exact outWithin_fault _
    | with_reducible refine State.tmrTriggers_within _ _ ?_ ?_
    | with_reducible refine State.timerWake_within _ ?_ ?_
    | with_reducible refine State.timerEvent_within _ ?_ ?_
    | with_reducible refine State.setReg_within _ _ ?_ ?_
    | split
    | (dsimp only)

theorem State.tmrApply_within {sc r₀ s₀} (n : Nat) (hs : sub [.regs] sc = true) (h₀ : Within sc r₀ s₀) :
    Within sc r₀ (State.tmrApply n s₀) := by
  unfold State.tmrApply
  repeat' first
    | with_reducible assumption
    | ((with_reducible refine sub_trans ?_ hs); exact rfl)
    | with_reducible exact trivial
    | with_reducible refine within_ite ?_ (fun _ => ?_)
    | with_reducible refine State.applySet_within _ ?_ ?_
    | split
    | (dsimp only)

theorem execTmrPeriod_within {sc r₀ s₀} (n : Fin 8) (hs : sub [.regs, .coreA, .coreB, .hif, .mon] sc = true) (h₀ : Within sc r₀ s₀) :
    OutWithin sc r₀ (execTmrPeriod n s₀) := by
  unfold execTmrPeriod
  repeat' first
    | with_reducible assumption
    | ((with_reducible refine sub_trans ?_ hs); exact rfl)
    | with_reducible exact trivial
    | with_reducible refine within_ite ?_ (fun _ => ?_)
    | with_reducible refine outWithin_next ?_
    | with_reducible refine outWithin_ite ?_ ?_
    | with_reducible exact outWithin_fault _
    | with_reducible refine State.tmrApply_within _ ?_ ?_
    | with_reducible refine State.tmrTriggers_within _ _ ?_ ?_
    | with_reducible refine State.setReg_within _ _ ?_ ?_
    | split
    | (dsimp only)

theorem State.tmrTick_within {sc r₀ s₀} (hk : Nat) (n : Nat) (hs : sub [.regs] sc = true) (h₀ : Within sc r₀ s₀) :
    Within sc r₀ (State.tmrTick hk n s₀) := by
  unfold State.tmrTick
  repeat' first
    | with_reducible assumption
    | ((with_reducible refine sub_trans ?_ hs); exact rfl)
    | with_reducible exact trivial
    | with_reducible refine within_ite ?_ (fun _ => ?_)
    | with_reducible refine State.setReg_within _ _ ?_ ?_
    | split
    | (dsimp only)

theorem execMonEngineFault_within {sc r₀ s₀}  (hs : sub [.regs, .coreA, .coreB, .hif, .free, .mon] sc = true) (h₀ : Within sc r₀ s₀) :
    OutWithin sc r₀ (execMonEngineFault s₀) := by
  unfold execMonEngineFault
  repeat' first
    | with_reducible assumption
    | ((with_reducible refine sub_trans ?_ hs); exact rfl)
    | with_reducible exact trivial
    | with_reducible refine within_ite ?_ (fun _ => ?_)
    | with_reducible refine outWithin_next ?_
    | with_reducible refine outWithin_ite ?_ ?_
    | with_reducible exact outWithin_fault _
    | with_reducible refine State.monShow_within ?_ ?_
    | with_reducible refine State.logFault_within _ _ _ ?_ ?_
    | with_reducible refine State.setFlag_within _ _ _ ?_ ?_
    | split
    | with_reducible refine Within.set_mon ?_ ?_
    | (dsimp only)

end Sys2Proof.Laws
end

