-- ==== Sys2Proof/Laws/Ref.lean ====
section
/-! SUPPORT. The scope of each operation of Sys2Proof/Machine/Ref.lean. -/
namespace Sys2Proof.Laws
open Sys2Proof.Machine Sys2Proof.Safety

theorem State.refShow_within {sc r₀ s₀}  (hs : sub [.regs] sc = true) (h₀ : Within sc r₀ s₀) :
    Within sc r₀ (State.refShow s₀) := by
  unfold State.refShow
  repeat' first
    | with_reducible assumption
    | ((with_reducible refine sub_trans ?_ hs); exact rfl)
    | with_reducible exact trivial
    | with_reducible refine within_ite ?_ (fun _ => ?_)
    | with_reducible refine State.setFlag_within _ _ _ ?_ ?_
    | with_reducible refine State.setFld_within _ _ _ ?_ ?_
    | split
    | (dsimp only)

theorem State.refQualify_within {sc r₀ s₀} (n : Nat) (hs : sub [.regs] sc = true) (h₀ : Within sc r₀ s₀) :
    Within sc r₀ (State.refQualify n s₀) := by
  unfold State.refQualify
  repeat' first
    | with_reducible assumption
    | ((with_reducible refine sub_trans ?_ hs); exact rfl)
    | with_reducible exact trivial
    | with_reducible refine within_ite ?_ (fun _ => ?_)
    | with_reducible refine State.setFlag_within _ _ _ ?_ ?_
    | with_reducible refine State.setFld_within _ _ _ ?_ ?_
    | split
    | (dsimp only)

theorem State.refDisqualify_within {sc r₀ s₀} (n : Nat) (reason : Nat) (hs : sub [.regs, .coreA, .coreB, .hif] sc = true) (h₀ : Within sc r₀ s₀) :
    Within sc r₀ (State.refDisqualify n reason s₀) := by
  unfold State.refDisqualify
  repeat' first
    | with_reducible assumption
    | ((with_reducible refine sub_trans ?_ hs); exact rfl)
    | with_reducible exact trivial
    | with_reducible refine within_ite ?_ (fun _ => ?_)
    | with_reducible refine State.refShow_within ?_ ?_
    | with_reducible refine State.logEvent_within _ _ _ _ ?_ ?_
    | with_reducible refine State.setFlag_within _ _ _ ?_ ?_
    | with_reducible refine State.setFld_within _ _ _ ?_ ?_
    | split
    | (dsimp only)

theorem execRefSourceDisqualify_within {sc r₀ s₀} (src : Fin 32) (reason : Nat) (hs : sub [.regs, .coreA, .coreB, .hif] sc = true) (h₀ : Within sc r₀ s₀) :
    OutWithin sc r₀ (execRefSourceDisqualify src reason s₀) := by
  unfold execRefSourceDisqualify
  repeat' first
    | with_reducible assumption
    | ((with_reducible refine sub_trans ?_ hs); exact rfl)
    | with_reducible exact trivial
    | with_reducible refine within_ite ?_ (fun _ => ?_)
    | with_reducible refine outWithin_next ?_
    | with_reducible refine outWithin_ite ?_ ?_
    | with_reducible exact outWithin_fault _
    | with_reducible refine State.refDisqualify_within _ _ ?_ ?_
    | split
    | (dsimp only)

theorem execRefSourceWtrExpiry_within {sc r₀ s₀} (src : Fin 32) (hs : sub [.regs] sc = true) (h₀ : Within sc r₀ s₀) :
    OutWithin sc r₀ (execRefSourceWtrExpiry src s₀) := by
  unfold execRefSourceWtrExpiry
  repeat' first
    | with_reducible assumption
    | ((with_reducible refine sub_trans ?_ hs); exact rfl)
    | with_reducible exact trivial
    | with_reducible refine within_ite ?_ (fun _ => ?_)
    | with_reducible refine outWithin_next ?_
    | with_reducible refine outWithin_ite ?_ ?_
    | with_reducible exact outWithin_fault _
    | with_reducible refine State.refQualify_within _ ?_ ?_
    | with_reducible refine State.refShow_within ?_ ?_
    | split
    | (dsimp only)

theorem State.refMeasure_within {sc r₀ s₀} (m : RefMeas) (hs : sub [.regs, .coreA, .coreB, .hif] sc = true) (h₀ : Within sc r₀ s₀) :
    Within sc r₀ (State.refMeasure m s₀) := by
  unfold State.refMeasure
  repeat' first
    | with_reducible assumption
    | ((with_reducible refine sub_trans ?_ hs); exact rfl)
    | with_reducible exact trivial
    | with_reducible refine within_ite ?_ (fun _ => ?_)
    | with_reducible refine State.refDisqualify_within _ _ ?_ ?_
    | with_reducible refine State.refQualify_within _ ?_ ?_
    | with_reducible refine State.setFlag_within _ _ _ ?_ ?_
    | with_reducible refine State.setFld_within _ _ _ ?_ ?_
    | with_reducible refine State.setReg_within _ _ ?_ ?_
    | split
    | (dsimp only)

theorem State.refTie_within {sc r₀ s₀}  (hs : sub [.regs, .coreA, .coreB, .hif, .free, .ref] sc = true) (h₀ : Within sc r₀ s₀) :
    Within sc r₀ (State.refTie s₀) := by
  unfold State.refTie
  repeat' first
    | with_reducible assumption
    | ((with_reducible refine sub_trans ?_ hs); exact rfl)
    | with_reducible exact trivial
    | with_reducible refine within_ite ?_ (fun _ => ?_)
    | with_reducible refine State.logEvent_within _ _ _ _ ?_ ?_
    | with_reducible refine State.draw_within'  ‹_› ?_ ?_
    | with_reducible refine State.draw_within ?_ ?_
    | with_reducible refine State.addCnt_within _ _ ?_ ?_
    | with_reducible refine State.setFlag_within _ _ _ ?_ ?_
    | split
    | with_reducible refine Within.set_ref ?_ ?_
    | (dsimp only)

theorem State.refWindow_within {sc r₀ s₀} (n : Nat) (w : Int) (hs : sub [.regs, .ref] sc = true) (h₀ : Within sc r₀ s₀) :
    Within sc r₀ (State.refWindow n w s₀) := by
  unfold State.refWindow
  repeat' first
    | with_reducible assumption
    | ((with_reducible refine sub_trans ?_ hs); exact rfl)
    | with_reducible exact trivial
    | with_reducible refine within_ite ?_ (fun _ => ?_)
    | with_reducible refine State.setReg_within _ _ ?_ ?_
    | split
    | with_reducible refine Within.set_ref ?_ ?_
    | (dsimp only)

theorem execRefMonitorWindowEnd_within {sc r₀ s₀} (meas : List RefMeas) (rootOffset : W32) (dpllWord : W32) (closing : W32) (hs : sub [.regs, .coreA, .coreB, .hif, .free, .ref] sc = true) (h₀ : Within sc r₀ s₀) :
    OutWithin sc r₀ (execRefMonitorWindowEnd meas rootOffset dpllWord closing s₀) := by
  unfold execRefMonitorWindowEnd
  repeat' first
    | with_reducible assumption
    | ((with_reducible refine sub_trans ?_ hs); exact rfl)
    | with_reducible exact trivial
    | with_reducible refine within_ite ?_ (fun _ => ?_)
    | with_reducible refine outWithin_next ?_
    | with_reducible refine outWithin_ite ?_ ?_
    | with_reducible exact outWithin_fault _
    | with_reducible refine State.refWindow_within _ _ ?_ ?_
    | with_reducible refine State.refTie_within ?_ ?_
    | with_reducible refine State.refMeasure_within _ ?_ ?_
    | with_reducible refine State.refShow_within ?_ ?_
    | with_reducible refine State.setReg_within _ _ ?_ ?_
    | with_reducible refine within_foldl (fun _ _ _ => ?_) ?_
    | with_reducible refine within_foldl_snd (fun _ _ _ => ?_) ?_
    | split
    | (dsimp only)

theorem State.refHold_within {sc r₀ s₀}  (hs : sub [.regs, .coreA, .coreB] sc = true) (h₀ : Within sc r₀ s₀) :
    Within sc r₀ (State.refHold s₀) := by
  unfold State.refHold
  repeat' first
    | with_reducible assumption
    | ((with_reducible refine sub_trans ?_ hs); exact rfl)
    | with_reducible exact trivial
    | with_reducible refine within_ite ?_ (fun _ => ?_)
    | with_reducible refine State.addCnt_within _ _ ?_ ?_
    | with_reducible refine State.setFlag_within _ _ _ ?_ ?_
    | with_reducible refine State.setFld_within _ _ _ ?_ ?_
    | split
    | (dsimp only)

theorem State.refLost_within {sc r₀ s₀}  (hs : sub [.regs, .coreA, .coreB, .hif, .ref] sc = true) (h₀ : Within sc r₀ s₀) :
    Within sc r₀ (State.refLost s₀) := by
  unfold State.refLost
  repeat' first
    | with_reducible assumption
    | ((with_reducible refine sub_trans ?_ hs); exact rfl)
    | with_reducible exact trivial
    | with_reducible refine within_ite ?_ (fun _ => ?_)
    | with_reducible refine State.refHold_within ?_ ?_
    | with_reducible refine State.logEvent_within _ _ _ _ ?_ ?_
    | with_reducible refine State.setFlag_within _ _ _ ?_ ?_
    | with_reducible refine State.setFld_within _ _ _ ?_ ?_
    | with_reducible refine State.setReg_within _ _ ?_ ?_
    | split
    | with_reducible refine Within.set_ref ?_ ?_
    | (dsimp only)

theorem execRefSourceSwitch_within {sc r₀ s₀} (step : BitVec 48) (hs : sub [.regs, .coreA, .coreB, .hif, .free, .ref] sc = true) (h₀ : Within sc r₀ s₀) :
    OutWithin sc r₀ (execRefSourceSwitch step s₀) := by
  unfold execRefSourceSwitch
  repeat' first
    | with_reducible assumption
    | ((with_reducible refine sub_trans ?_ hs); exact rfl)
    | with_reducible exact trivial
    | with_reducible refine within_ite ?_ (fun _ => ?_)
    | with_reducible refine outWithin_next ?_
    | with_reducible refine outWithin_ite ?_ ?_
    | with_reducible exact outWithin_fault _
    | with_reducible refine State.refLost_within ?_ ?_
    | with_reducible refine State.refShow_within ?_ ?_
    | with_reducible refine State.logEvent_within _ _ _ _ ?_ ?_
    | with_reducible refine State.draw_within'  ‹_› ?_ ?_
    | with_reducible refine State.draw_within ?_ ?_
    | with_reducible refine State.addCnt_within _ _ ?_ ?_
    | with_reducible refine State.setReg64_within _ _ ?_ ?_
    | with_reducible refine State.setFlag_within _ _ _ ?_ ?_
    | with_reducible refine State.setFld_within _ _ _ ?_ ?_
    | split
    | with_reducible refine Within.set_ref ?_ ?_
    | (dsimp only)

theorem execRefLockDeclared_within {sc r₀ s₀}  (hs : sub [.regs, .coreA, .coreB, .hif, .ref] sc = true) (h₀ : Within sc r₀ s₀) :
    OutWithin sc r₀ (execRefLockDeclared s₀) := by
  unfold execRefLockDeclared
  repeat' first
    | with_reducible assumption
    | ((with_reducible refine sub_trans ?_ hs); exact rfl)
    | with_reducible exact trivial
    | with_reducible refine within_ite ?_ (fun _ => ?_)
    | with_reducible refine outWithin_next ?_
    | with_reducible refine outWithin_ite ?_ ?_
    | with_reducible exact outWithin_fault _
    | with_reducible refine State.refShow_within ?_ ?_
    | with_reducible refine State.logEvent_within _ _ _ _ ?_ ?_
    | with_reducible refine State.setFlag_within _ _ _ ?_ ?_
    | with_reducible refine State.setFld_within _ _ _ ?_ ?_
    | split
    | with_reducible refine Within.set_ref ?_ ?_
    | (dsimp only)

theorem execRefHoldoverOos_within {sc r₀ s₀}  (hs : sub [.regs, .coreA, .coreB, .hif] sc = true) (h₀ : Within sc r₀ s₀) :
    OutWithin sc r₀ (execRefHoldoverOos s₀) := by
  unfold execRefHoldoverOos
  repeat' first
    | with_reducible assumption
    | ((with_reducible refine sub_trans ?_ hs); exact rfl)
    | with_reducible exact trivial
    | with_reducible refine within_ite ?_ (fun _ => ?_)
    | with_reducible refine outWithin_next ?_
    | with_reducible refine outWithin_ite ?_ ?_
    | with_reducible exact outWithin_fault _
    | with_reducible refine State.refShow_within ?_ ?_
    | with_reducible refine State.logEvent_within _ _ _ _ ?_ ?_
    | with_reducible refine State.setFlag_within _ _ _ ?_ ?_
    | split
    | (dsimp only)

theorem execPpsInputEdge_within {sc r₀ s₀} (n : Fin 3) (after : Byte) (hs : sub [.regs] sc = true) (h₀ : Within sc r₀ s₀) :
    OutWithin sc r₀ (execPpsInputEdge n after s₀) := by
  unfold execPpsInputEdge
  repeat' first
    | with_reducible assumption
    | ((with_reducible refine sub_trans ?_ hs); exact rfl)
    | with_reducible exact trivial
    | with_reducible refine within_ite ?_ (fun _ => ?_)
    | with_reducible refine outWithin_next ?_
    | with_reducible refine outWithin_ite ?_ ?_
    | with_reducible exact outWithin_fault _
    | with_reducible refine State.setReg64_within _ _ ?_ ?_
    | split
    | (dsimp only)

theorem execRefAlignPulse_within {sc r₀ s₀}  (hs : sub [.regs, .mem, .coreA, .coreB, .qc, .hws, .hif, .pwr, .free, .log, .ecc, .ref] sc = true) (h₀ : Within sc r₀ s₀) :
    OutWithin sc r₀ (execRefAlignPulse s₀) := by
  unfold execRefAlignPulse
  repeat' first
    | with_reducible assumption
    | ((with_reducible refine sub_trans ?_ hs); exact rfl)
    | with_reducible exact trivial
    | with_reducible refine within_ite ?_ (fun _ => ?_)
    | with_reducible refine outWithin_next ?_
    | with_reducible refine outWithin_ite ?_ ?_
    | with_reducible exact outWithin_fault _
    | with_reducible refine State.complete_within _ _ _ _ ?_ ?_
    | with_reducible refine State.logEvent_within _ _ _ _ ?_ ?_
    | with_reducible refine State.addCnt_within _ _ ?_ ?_
    | with_reducible refine State.setReg64_within _ _ ?_ ?_
    | with_reducible refine State.setFlag_within _ _ _ ?_ ?_
    | split
    | with_reducible refine Within.set_ref ?_ ?_
    | (dsimp only)

theorem State.sendPulse_within {sc r₀ s₀} (k : Fin 4) (hs : sub [.ref] sc = true) (h₀ : Within sc r₀ s₀) :
    Within sc r₀ (State.sendPulse k s₀) := by
  unfold State.sendPulse
  repeat' first
    | with_reducible assumption
    | ((with_reducible refine sub_trans ?_ hs); exact rfl)
    | with_reducible exact trivial
    | with_reducible refine within_ite ?_ (fun _ => ?_)
    | split
    | with_reducible refine Within.set_ref ?_ ?_
    | (dsimp only)

theorem State.pulseSent_within {sc r₀ s₀} (k : Fin 4) (mode : Nat) (hs : sub [.ref] sc = true) (h₀ : Within sc r₀ s₀) :
    Within sc r₀ (State.pulseSent k mode s₀) := by
  unfold State.pulseSent
  repeat' first
    | with_reducible assumption
    | ((with_reducible refine sub_trans ?_ hs); exact rfl)
    | with_reducible exact trivial
    | with_reducible refine within_ite ?_ (fun _ => ?_)
    | split
    | with_reducible refine Within.set_ref ?_ ?_
    | (dsimp only)

theorem execRefPulseOutput_within {sc r₀ s₀} (k : Fin 4) (hs : sub [.regs, .ref] sc = true) (h₀ : Within sc r₀ s₀) :
    OutWithin sc r₀ (execRefPulseOutput k s₀) := by
  unfold execRefPulseOutput
  repeat' first
    | with_reducible assumption
    | ((with_reducible refine sub_trans ?_ hs); exact rfl)
    | with_reducible exact trivial
    | with_reducible refine within_ite ?_ (fun _ => ?_)
    | with_reducible refine outWithin_next ?_
    | with_reducible refine outWithin_ite ?_ ?_
    | with_reducible exact outWithin_fault _
    | with_reducible refine State.pulseSent_within _ _ ?_ ?_
    | with_reducible refine State.sendPulse_within _ ?_ ?_
    | with_reducible refine State.setReg64_within _ _ ?_ ?_
    | split
    | (dsimp only)

theorem State.refRenew_within {sc r₀ s₀} (was : Bool) (n : Nat) (hs : sub [.regs] sc = true) (h₀ : Within sc r₀ s₀) :
    Within sc r₀ (State.refRenew was n s₀) := by
  unfold State.refRenew
  repeat' first
    | with_reducible assumption
    | ((with_reducible refine sub_trans ?_ hs); exact rfl)
    | with_reducible exact trivial
    | with_reducible refine within_ite ?_ (fun _ => ?_)
    | with_reducible refine State.setFld_within _ _ _ ?_ ?_
    | with_reducible refine State.setReg_within _ _ ?_ ?_
    | split
    | (dsimp only)

theorem State.refWidth_within {sc r₀ s₀} (k : Nat) (hs : sub [.regs] sc = true) (h₀ : Within sc r₀ s₀) :
    Within sc r₀ (State.refWidth k s₀) := by
  unfold State.refWidth
  repeat' first
    | with_reducible assumption
    | ((with_reducible refine sub_trans ?_ hs); exact rfl)
    | with_reducible exact trivial
    | with_reducible refine within_ite ?_ (fun _ => ?_)
    | with_reducible refine State.setFlag_within _ _ _ ?_ ?_
    | with_reducible refine State.setFld_within _ _ _ ?_ ?_
    | split
    | (dsimp only)

theorem State.refOffset_within {sc r₀ s₀} (k : Nat) (hs : sub [.regs] sc = true) (h₀ : Within sc r₀ s₀) :
    Within sc r₀ (State.refOffset k s₀) := by
  unfold State.refOffset
  repeat' first
    | with_reducible assumption
    | ((with_reducible refine sub_trans ?_ hs); exact rfl)
    | with_reducible exact trivial
    | with_reducible refine within_ite ?_ (fun _ => ?_)
    | with_reducible refine State.setReg64_within _ _ ?_ ?_
    | with_reducible refine State.setFlag_within _ _ _ ?_ ?_
    | split
    | (dsimp only)

theorem State.refCommit_within {sc r₀ s₀}  (hs : sub [.regs, .ref] sc = true) (h₀ : Within sc r₀ s₀) :
    Within sc r₀ (State.refCommit s₀) := by
  unfold State.refCommit
  repeat' first
    | with_reducible assumption
    | ((with_reducible refine sub_trans ?_ hs); exact rfl)
    | with_reducible exact trivial
    | with_reducible refine within_ite ?_ (fun _ => ?_)
    | with_reducible refine State.refOffset_within _ ?_ ?_
    | with_reducible refine State.refWidth_within _ ?_ ?_
    | with_reducible refine State.refRenew_within _ _ ?_ ?_
    | with_reducible refine State.refShow_within ?_ ?_
    | with_reducible refine State.outStart_within _ ?_ ?_
    | with_reducible refine State.applySet_within _ ?_ ?_
    | with_reducible refine State.setFld_within _ _ _ ?_ ?_
    | with_reducible refine forN_within _ _ ?_ ?_
    | with_reducible refine within_foldl (fun _ _ _ => ?_) ?_
    | with_reducible refine within_foldl_snd (fun _ _ _ => ?_) ?_
    | with_reducible refine forN_within (fun _ _ _ => ?_) ?_
    | split
    | (dsimp only)

theorem execRfRealign_within {sc r₀ s₀}  (hs : sub [.regs, .mem, .coreA, .coreB, .qc, .hws, .hif, .pwr, .free, .log, .ecc] sc = true) (h₀ : Within sc r₀ s₀) :
    OutWithin sc r₀ (execRfRealign s₀) := by
  unfold execRfRealign
  repeat' first
    | with_reducible assumption
    | ((with_reducible refine sub_trans ?_ hs); exact rfl)
    | with_reducible exact trivial
    | with_reducible refine within_ite ?_ (fun _ => ?_)
    | with_reducible refine within_ite_snd ?_ (fun _ => ?_)
    | with_reducible refine outWithin_next ?_
    | with_reducible refine outWithin_ite ?_ ?_
    | with_reducible exact outWithin_fault _
    | with_reducible refine State.runCommand_within _ _ _ (fun _ _ _ => ?_) ?_ ?_
    | split
    | (dsimp only)

theorem execRfMeasure_within {sc r₀ s₀}  (hs : sub [.regs, .mem, .coreA, .coreB, .qc, .hws, .hif, .pwr, .free, .log, .ecc] sc = true) (h₀ : Within sc r₀ s₀) :
    OutWithin sc r₀ (execRfMeasure s₀) := by
  unfold execRfMeasure
  repeat' first
    | with_reducible assumption
    | ((with_reducible refine sub_trans ?_ hs); exact rfl)
    | with_reducible exact trivial
    | with_reducible refine within_ite ?_ (fun _ => ?_)
    | with_reducible refine within_ite_snd ?_ (fun _ => ?_)
    | with_reducible refine outWithin_next ?_
    | with_reducible refine outWithin_ite ?_ ?_
    | with_reducible exact outWithin_fault _
    | with_reducible refine State.runCommand_within _ _ _ (fun _ _ _ => ?_) ?_ ?_
    | split
    | (dsimp only)

theorem execRefLogicFault_within {sc r₀ s₀}  (hs : sub [.regs, .coreA, .coreB, .hif, .free, .ref] sc = true) (h₀ : Within sc r₀ s₀) :
    OutWithin sc r₀ (execRefLogicFault s₀) := by
  unfold execRefLogicFault
  repeat' first
    | with_reducible assumption
    | ((with_reducible refine sub_trans ?_ hs); exact rfl)
    | with_reducible exact trivial
    | with_reducible refine within_ite ?_ (fun _ => ?_)
    | with_reducible refine outWithin_next ?_
    | with_reducible refine outWithin_ite ?_ ?_
    | with_reducible exact outWithin_fault _
    | with_reducible refine State.refShow_within ?_ ?_
    | with_reducible refine State.logFault_within _ _ _ ?_ ?_
    | with_reducible refine State.setFlag_within _ _ _ ?_ ?_
    | with_reducible refine State.setFld_within _ _ _ ?_ ?_
    | split
    | with_reducible refine Within.set_ref ?_ ?_
    | (dsimp only)

theorem execCrystalLoss_within {sc r₀ s₀}  (hs : sub [.regs, .coreA, .coreB, .time, .hif] sc = true) (h₀ : Within sc r₀ s₀) :
    OutWithin sc r₀ (execCrystalLoss s₀) := by
  unfold execCrystalLoss
  repeat' first
    | with_reducible assumption
    | ((with_reducible refine sub_trans ?_ hs); exact rfl)
    | with_reducible exact trivial
    | with_reducible refine within_ite ?_ (fun _ => ?_)
    | with_reducible refine outWithin_next ?_
    | with_reducible refine outWithin_ite ?_ ?_
    | with_reducible exact outWithin_fault _
    | with_reducible refine State.refShow_within ?_ ?_
    | with_reducible refine State.logEvent_within _ _ _ _ ?_ ?_
    | with_reducible refine State.setFlag_within _ _ _ ?_ ?_
    | split
    | with_reducible refine Within.set_time ?_ ?_
    | (dsimp only)

theorem execCrystalReturn_within {sc r₀ s₀}  (hs : sub [.regs, .time] sc = true) (h₀ : Within sc r₀ s₀) :
    OutWithin sc r₀ (execCrystalReturn s₀) := by
  unfold execCrystalReturn
  repeat' first
    | with_reducible assumption
    | ((with_reducible refine sub_trans ?_ hs); exact rfl)
    | with_reducible exact trivial
    | with_reducible refine within_ite ?_ (fun _ => ?_)
    | with_reducible refine outWithin_next ?_
    | with_reducible refine outWithin_ite ?_ ?_
    | with_reducible exact outWithin_fault _
    | with_reducible refine State.refShow_within ?_ ?_
    | with_reducible refine State.setFlag_within _ _ _ ?_ ?_
    | split
    | with_reducible refine Within.set_time ?_ ?_
    | (dsimp only)

end Sys2Proof.Laws
end

