-- ==== Sys2Proof/Laws/Annealer.lean ====
section
/-! SUPPORT. The scope of each operation of Sys2Proof/Machine/Annealer.lean. -/
namespace Sys2Proof.Laws
open Sys2Proof.Machine Sys2Proof.Safety

theorem State.setAnlUnit_within {sc r₀ s₀} (u : Fin 4) (r : AnlRun) (hs : sub [.anl] sc = true) (h₀ : Within sc r₀ s₀) :
    Within sc r₀ (State.setAnlUnit u r s₀) := by
  unfold State.setAnlUnit
  repeat' first
    | with_reducible assumption
    | ((with_reducible refine sub_trans ?_ hs); exact rfl)
    | with_reducible exact trivial
    | with_reducible refine within_ite ?_ (fun _ => ?_)
    | split
    | with_reducible refine Within.set_anl ?_ ?_
    | (dsimp only)

theorem execAnlRunStart_within {sc r₀ s₀} (u : Fin 4) (hs : sub [.regs, .anl] sc = true) (h₀ : Within sc r₀ s₀) :
    OutWithin sc r₀ (execAnlRunStart u s₀) := by
  unfold execAnlRunStart
  repeat' first
    | with_reducible assumption
    | ((with_reducible refine sub_trans ?_ hs); exact rfl)
    | with_reducible exact trivial
    | with_reducible refine within_ite ?_ (fun _ => ?_)
    | with_reducible refine outWithin_next ?_
    | with_reducible refine outWithin_ite ?_ ?_
    | with_reducible exact outWithin_fault _
    | with_reducible refine State.setAnlUnit_within _ _ ?_ ?_
    | with_reducible refine State.setReg_within _ _ ?_ ?_
    | split
    | (dsimp only)

theorem execAnlWindowEnd_within {sc r₀ s₀} (u : Fin 4) (hs : sub [.regs, .mem, .coreA, .coreB, .qc, .time, .hws, .hif, .pwr, .free, .crA, .crB, .clm, .lanes, .anl, .log, .ecc, .ref] sc = true) (h₀ : Within sc r₀ s₀) :
    OutWithin sc r₀ (execAnlWindowEnd u s₀) := by
  unfold execAnlWindowEnd
  repeat' first
    | with_reducible assumption
    | ((with_reducible refine sub_trans ?_ hs); exact rfl)
    | with_reducible exact trivial
    | with_reducible refine within_ite ?_ (fun _ => ?_)
    | with_reducible refine outWithin_next ?_
    | with_reducible refine outWithin_ite ?_ ?_
    | with_reducible exact outWithin_fault _
    | with_reducible refine State.idle_within ?_ ?_
    | with_reducible refine State.setAnlUnit_within _ _ ?_ ?_
    | split
    | with_reducible refine Within.set_time ?_ ?_
    | (dsimp only)

theorem State.anlMark_within {sc r₀ s₀} (v : Nat) (e : Nat) (c : Nat) (hs : sub [.regs, .coreA, .coreB, .hif, .log] sc = true) (h₀ : Within sc r₀ s₀) :
    Within sc r₀ (State.anlMark v e c s₀) := by
  unfold State.anlMark
  repeat' first
    | with_reducible assumption
    | ((with_reducible refine sub_trans ?_ hs); exact rfl)
    | with_reducible exact trivial
    | with_reducible refine within_ite ?_ (fun _ => ?_)
    | with_reducible refine State.spareUsed_within _ ?_ ?_
    | with_reducible refine State.logEvent_within _ _ _ _ ?_ ?_
    | with_reducible refine State.addCnt_within _ _ ?_ ?_
    | with_reducible refine State.setFlag_within _ _ _ ?_ ?_
    | split
    | (dsimp only)

theorem State.anlShort_within {sc r₀ s₀} (v : Nat) (hs : sub [.regs, .coreA, .coreB, .hif] sc = true) (h₀ : Within sc r₀ s₀) :
    Within sc r₀ (State.anlShort v s₀) := by
  unfold State.anlShort
  repeat' first
    | with_reducible assumption
    | ((with_reducible refine sub_trans ?_ hs); exact rfl)
    | with_reducible exact trivial
    | with_reducible refine within_ite ?_ (fun _ => ?_)
    | with_reducible refine State.logEvent_within _ _ _ _ ?_ ?_
    | with_reducible refine State.setFlag_within _ _ _ ?_ ?_
    | split
    | (dsimp only)

theorem State.anlMarkDrawn_within {sc r₀ s₀} (v : Nat) (e : Nat) (hs : sub [.regs, .coreA, .coreB, .hif, .free, .log] sc = true) (h₀ : Within sc r₀ s₀) :
    Within sc r₀ (State.anlMarkDrawn v e s₀) := by
  unfold State.anlMarkDrawn
  repeat' first
    | with_reducible assumption
    | ((with_reducible refine sub_trans ?_ hs); exact rfl)
    | with_reducible exact trivial
    | with_reducible refine within_ite ?_ (fun _ => ?_)
    | with_reducible refine State.anlMark_within _ _ _ ?_ ?_
    | with_reducible refine State.draw_within'  ‹_› ?_ ?_
    | with_reducible refine State.draw_within ?_ ?_
    | split
    | (dsimp only)

theorem execAnlRunEnd_within {sc r₀ s₀} (u : Fin 4) (meas : List AnlMeas) (hs : sub [.regs, .mem, .coreA, .coreB, .qc, .hws, .hif, .pwr, .free, .anl, .log, .ecc] sc = true) (h₀ : Within sc r₀ s₀) :
    OutWithin sc r₀ (execAnlRunEnd u meas s₀) := by
  unfold execAnlRunEnd
  repeat' first
    | with_reducible assumption
    | ((with_reducible refine sub_trans ?_ hs); exact rfl)
    | with_reducible exact trivial
    | with_reducible refine within_ite ?_ (fun _ => ?_)
    | with_reducible refine outWithin_next ?_
    | with_reducible refine outWithin_ite ?_ ?_
    | with_reducible exact outWithin_fault _
    | with_reducible refine State.anlMarkDrawn_within _ _ ?_ ?_
    | with_reducible refine State.anlShort_within _ ?_ ?_
    | with_reducible refine State.setAnlUnit_within _ _ ?_ ?_
    | with_reducible refine State.anlFinish_within _ _ _ ?_ ?_
    | with_reducible refine State.anlShow_within _ ?_ ?_
    | with_reducible refine State.setAnlElem_within _ _ _ ?_ ?_
    | with_reducible refine within_foldl (fun _ _ _ => ?_) ?_
    | with_reducible refine within_foldl_snd (fun _ _ _ => ?_) ?_
    | split
    | (dsimp only)

theorem execAnlPauseTimeout_within {sc r₀ s₀} (u : Fin 4) (hs : sub [.regs, .mem, .coreA, .coreB, .qc, .time, .hws, .hif, .pwr, .free, .crA, .crB, .clm, .lanes, .anl, .log, .ecc, .ref] sc = true) (h₀ : Within sc r₀ s₀) :
    OutWithin sc r₀ (execAnlPauseTimeout u s₀) := by
  unfold execAnlPauseTimeout
  repeat' first
    | with_reducible assumption
    | ((with_reducible refine sub_trans ?_ hs); exact rfl)
    | with_reducible exact trivial
    | with_reducible refine within_ite ?_ (fun _ => ?_)
    | with_reducible refine outWithin_next ?_
    | with_reducible refine outWithin_ite ?_ ?_
    | with_reducible exact outWithin_fault _
    | with_reducible refine State.idle_within ?_ ?_
    | with_reducible refine State.anlAbandon_within _ ?_ ?_
    | split
    | (dsimp only)

theorem State.anlReplace_within {sc r₀ s₀} (v : Nat) (e : Nat) (hs : sub [.anl] sc = true) (h₀ : Within sc r₀ s₀) :
    Within sc r₀ (State.anlReplace v e s₀) := by
  unfold State.anlReplace
  repeat' first
    | with_reducible assumption
    | ((with_reducible refine sub_trans ?_ hs); exact rfl)
    | with_reducible exact trivial
    | with_reducible refine within_ite ?_ (fun _ => ?_)
    | split
    | with_reducible refine Within.set_anl ?_ ?_
    | (dsimp only)

theorem execAnlElementFailed_within {sc r₀ s₀} (v : Fin 16) (elem : Fin 72) (cause : Byte) (hs : sub [.regs, .coreA, .coreB, .hif, .anl, .log] sc = true) (h₀ : Within sc r₀ s₀) :
    OutWithin sc r₀ (execAnlElementFailed v elem cause s₀) := by
  unfold execAnlElementFailed
  repeat' first
    | with_reducible assumption
    | ((with_reducible refine sub_trans ?_ hs); exact rfl)
    | with_reducible exact trivial
    | with_reducible refine within_ite ?_ (fun _ => ?_)
    | with_reducible refine outWithin_next ?_
    | with_reducible refine outWithin_ite ?_ ?_
    | with_reducible exact outWithin_fault _
    | with_reducible refine State.anlReplace_within _ _ ?_ ?_
    | with_reducible refine State.anlShort_within _ ?_ ?_
    | with_reducible refine State.anlMark_within _ _ _ ?_ ?_
    | with_reducible refine State.anlSubsNow_within _ _ ?_ ?_
    | with_reducible refine State.anlShow_within _ ?_ ?_
    | with_reducible refine State.setAnlElem_within _ _ _ ?_ ?_
    | split
    | (dsimp only)

theorem execAnRun_within {sc r₀ s₀}  (hs : sub [.regs, .mem, .coreA, .coreB, .qc, .hws, .hif, .pwr, .free, .anl, .log, .ecc] sc = true) (h₀ : Within sc r₀ s₀) :
    OutWithin sc r₀ (execAnRun s₀) := by
  unfold execAnRun
  repeat' first
    | with_reducible assumption
    | ((with_reducible refine sub_trans ?_ hs); exact rfl)
    | with_reducible exact trivial
    | with_reducible refine within_ite ?_ (fun _ => ?_)
    | with_reducible refine within_ite_snd ?_ (fun _ => ?_)
    | with_reducible refine outWithin_next ?_
    | with_reducible refine outWithin_ite ?_ ?_
    | with_reducible exact outWithin_fault _
    | with_reducible refine State.anlPend_within _ ?_ ?_
    | with_reducible refine State.runCommand_within _ _ _ (fun _ _ _ => ?_) ?_ ?_
    | with_reducible refine within_foldl (fun _ _ _ => ?_) ?_
    | with_reducible refine within_foldl_snd (fun _ _ _ => ?_) ?_
    | split
    | with_reducible refine Within.set_anl ?_ ?_
    | (dsimp only)

theorem execAnHold_within {sc r₀ s₀}  (hs : sub [.regs, .mem, .coreA, .coreB, .qc, .hws, .hif, .pwr, .free, .anl, .log, .ecc] sc = true) (h₀ : Within sc r₀ s₀) :
    OutWithin sc r₀ (execAnHold s₀) := by
  unfold execAnHold
  repeat' first
    | with_reducible assumption
    | ((with_reducible refine sub_trans ?_ hs); exact rfl)
    | with_reducible exact trivial
    | with_reducible refine within_ite ?_ (fun _ => ?_)
    | with_reducible refine within_ite_snd ?_ (fun _ => ?_)
    | with_reducible refine outWithin_next ?_
    | with_reducible refine outWithin_ite ?_ ?_
    | with_reducible exact outWithin_fault _
    | with_reducible refine State.anlAbandon_within _ ?_ ?_
    | with_reducible refine State.setFlag_within _ _ _ ?_ ?_
    | with_reducible refine State.runCommand_within _ _ _ (fun _ _ _ => ?_) ?_ ?_
    | with_reducible refine within_foldl (fun _ _ _ => ?_) ?_
    | with_reducible refine within_foldl_snd (fun _ _ _ => ?_) ?_
    | split
    | (dsimp only)

theorem execAnClearFail_within {sc r₀ s₀}  (hs : sub [.regs, .mem, .coreA, .coreB, .qc, .hws, .hif, .pwr, .free, .anl, .log, .ecc] sc = true) (h₀ : Within sc r₀ s₀) :
    OutWithin sc r₀ (execAnClearFail s₀) := by
  unfold execAnClearFail
  repeat' first
    | with_reducible assumption
    | ((with_reducible refine sub_trans ?_ hs); exact rfl)
    | with_reducible exact trivial
    | with_reducible refine within_ite ?_ (fun _ => ?_)
    | with_reducible refine within_ite_snd ?_ (fun _ => ?_)
    | with_reducible refine outWithin_next ?_
    | with_reducible refine outWithin_ite ?_ ?_
    | with_reducible exact outWithin_fault _
    | with_reducible refine State.anlShow_within _ ?_ ?_
    | with_reducible refine State.setAnlElem_within _ _ _ ?_ ?_
    | with_reducible refine State.runCommand_within _ _ _ (fun _ _ _ => ?_) ?_ ?_
    | split
    | (dsimp only)

theorem execAnReadTable_within {sc r₀ s₀}  (hs : sub [.regs, .mem, .coreA, .coreB, .qc, .hws, .hif, .pwr, .free, .log, .ecc] sc = true) (h₀ : Within sc r₀ s₀) :
    OutWithin sc r₀ (execAnReadTable s₀) := by
  unfold execAnReadTable
  repeat' first
    | with_reducible assumption
    | ((with_reducible refine sub_trans ?_ hs); exact rfl)
    | with_reducible exact trivial
    | with_reducible refine within_ite ?_ (fun _ => ?_)
    | with_reducible refine within_ite_snd ?_ (fun _ => ?_)
    | with_reducible refine outWithin_next ?_
    | with_reducible refine outWithin_ite ?_ ?_
    | with_reducible exact outWithin_fault _
    | with_reducible refine State.setBytes_within _ _ ?_ ?_
    | with_reducible refine State.runCommand_within _ _ _ (fun _ _ _ => ?_) ?_ ?_
    | split
    | (dsimp only)

theorem State.anlDrop_within {sc r₀ s₀} (u : Fin 4) (hs : sub [.regs, .mem, .coreA, .coreB, .qc, .hws, .hif, .pwr, .free, .anl, .log, .ecc] sc = true) (h₀ : Within sc r₀ s₀) :
    Within sc r₀ (State.anlDrop u s₀) := by
  unfold State.anlDrop
  repeat' first
    | with_reducible assumption
    | ((with_reducible refine sub_trans ?_ hs); exact rfl)
    | with_reducible exact trivial
    | with_reducible refine within_ite ?_ (fun _ => ?_)
    | with_reducible refine State.anlFree_within _ ?_ ?_
    | with_reducible refine State.anlTell_within _ _ ?_ ?_
    | split
    | (dsimp only)

theorem execAnlEngineFault_within {sc r₀ s₀}  (hs : sub [.regs, .mem, .coreA, .coreB, .qc, .hws, .hif, .pwr, .free, .anl, .log, .ecc] sc = true) (h₀ : Within sc r₀ s₀) :
    OutWithin sc r₀ (execAnlEngineFault s₀) := by
  unfold execAnlEngineFault
  repeat' first
    | with_reducible assumption
    | ((with_reducible refine sub_trans ?_ hs); exact rfl)
    | with_reducible exact trivial
    | with_reducible refine within_ite ?_ (fun _ => ?_)
    | with_reducible refine outWithin_next ?_
    | with_reducible refine outWithin_ite ?_ ?_
    | with_reducible exact outWithin_fault _
    | with_reducible refine State.anlDrop_within _ ?_ ?_
    | with_reducible refine State.logFault_within _ _ _ ?_ ?_
    | with_reducible refine State.setFlag_within _ _ _ ?_ ?_
    | with_reducible refine within_foldl (fun _ _ _ => ?_) ?_
    | with_reducible refine within_foldl_snd (fun _ _ _ => ?_) ?_
    | split
    | with_reducible refine Within.set_anl ?_ ?_
    | (dsimp only)

end Sys2Proof.Laws
end

