-- ==== Sys2Proof/Laws/Claims.lean ====
section
/-! SUPPORT. The scope of each operation of Sys2Proof/Machine/Claims.lean. -/
namespace Sys2Proof.Laws
open Sys2Proof.Machine Sys2Proof.Safety

theorem State.gpioShow_within {sc r₀ s₀} (r : Nat) (hs : sub [.regs] sc = true) (h₀ : Within sc r₀ s₀) :
    Within sc r₀ (State.gpioShow r s₀) := by
  unfold State.gpioShow
  repeat' first
    | with_reducible assumption
    | ((with_reducible refine sub_trans ?_ hs); exact rfl)
    | with_reducible exact trivial
    | with_reducible refine within_ite ?_ (fun _ => ?_)
    | with_reducible refine State.setFlag_within _ _ _ ?_ ?_
    | with_reducible refine State.setFld_within _ _ _ ?_ ?_
    | with_reducible refine State.setReg_within _ _ ?_ ?_
    | split
    | (dsimp only)

theorem State.grantClaim_within {sc r₀ s₀} (r : Nat) (c : Claim) (hs : sub [.regs, .claims] sc = true) (h₀ : Within sc r₀ s₀) :
    Within sc r₀ (State.grantClaim r c s₀) := by
  unfold State.grantClaim
  repeat' first
    | with_reducible assumption
    | ((with_reducible refine sub_trans ?_ hs); exact rfl)
    | with_reducible exact trivial
    | with_reducible refine within_ite ?_ (fun _ => ?_)
    | with_reducible refine State.gpioShow_within _ ?_ ?_
    | split
    | with_reducible refine Within.set_claims ?_ ?_
    | (dsimp only)

theorem State.releaseClaim_within {sc r₀ s₀} (r : Nat) (hs : sub [.regs, .coreA, .coreB, .claims] sc = true) (h₀ : Within sc r₀ s₀) :
    Within sc r₀ (State.releaseClaim r s₀) := by
  unfold State.releaseClaim
  repeat' first
    | with_reducible assumption
    | ((with_reducible refine sub_trans ?_ hs); exact rfl)
    | with_reducible exact trivial
    | with_reducible refine within_ite ?_ (fun _ => ?_)
    | with_reducible refine State.gpioShow_within _ ?_ ?_
    | with_reducible refine State.eventAll_within _ ?_ ?_
    | split
    | with_reducible refine Within.set_claims ?_ ?_
    | (dsimp only)

theorem State.releaseHolder_within {sc r₀ s₀} (h : Holder) (hs : sub [.regs, .coreA, .coreB, .claims] sc = true) (h₀ : Within sc r₀ s₀) :
    Within sc r₀ (State.releaseHolder h s₀) := by
  unfold State.releaseHolder
  repeat' first
    | with_reducible assumption
    | ((with_reducible refine sub_trans ?_ hs); exact rfl)
    | with_reducible exact trivial
    | with_reducible refine within_ite ?_ (fun _ => ?_)
    | with_reducible refine State.releaseClaim_within _ ?_ ?_
    | with_reducible refine within_foldl (fun _ _ _ => ?_) ?_
    | with_reducible refine within_foldl_snd (fun _ _ _ => ?_) ?_
    | split
    | (dsimp only)

end Sys2Proof.Laws
end

