-- ==== Sys2Proof/Laws/Sec.lean ====
section
/-! SUPPORT. The scope of each operation of Sys2Proof/Machine/Sec.lean. -/
namespace Sys2Proof.Laws
open Sys2Proof.Machine Sys2Proof.Safety

theorem State.rollbackRaise_within {sc r₀ s₀} (kind : Nat) (signer : Nat) (v : Nat) (hs : sub [.regs, .coreA, .coreB, .hif, .sec] sc = true) (h₀ : Within sc r₀ s₀) :
    Within sc r₀ (State.rollbackRaise kind signer v s₀) := by
  unfold State.rollbackRaise
  repeat' first
    | with_reducible assumption
    | ((with_reducible refine sub_trans ?_ hs); exact rfl)
    | with_reducible exact trivial
    | with_reducible refine within_ite ?_ (fun _ => ?_)
    | with_reducible refine State.logEvent_within _ _ _ _ ?_ ?_
    | split
    | with_reducible refine Within.set_sec ?_ ?_
    | (dsimp only)

theorem State.refreshMode_within {sc r₀ s₀} (n : Nat) (hs : sub [.regs] sc = true) (h₀ : Within sc r₀ s₀) :
    Within sc r₀ (State.refreshMode n s₀) := by
  unfold State.refreshMode
  repeat' first
    | with_reducible assumption
    | ((with_reducible refine sub_trans ?_ hs); exact rfl)
    | with_reducible exact trivial
    | with_reducible refine within_ite ?_ (fun _ => ?_)
    | with_reducible refine State.setFlag_within _ _ _ ?_ ?_
    | with_reducible refine State.setFld_within _ _ _ ?_ ?_
    | split
    | (dsimp only)

theorem State.refreshModes_within {sc r₀ s₀}  (hs : sub [.regs] sc = true) (h₀ : Within sc r₀ s₀) :
    Within sc r₀ (State.refreshModes s₀) := by
  unfold State.refreshModes
  repeat' first
    | with_reducible assumption
    | ((with_reducible refine sub_trans ?_ hs); exact rfl)
    | with_reducible exact trivial
    | with_reducible refine within_ite ?_ (fun _ => ?_)
    | with_reducible refine State.refreshMode_within _ ?_ ?_
    | with_reducible refine State.cliShowAll_within ?_ ?_
    | with_reducible refine forN_within _ _ ?_ ?_
    | with_reducible refine forN_within (fun _ _ _ => ?_) ?_
    | split
    | (dsimp only)

theorem State.secSend_within {sc r₀ s₀} (c : Carrier) (typ : Nat) (payload : List Byte) (hs : sub [.free, .hailA, .hailB] sc = true) (h₀ : Within sc r₀ s₀) :
    Within sc r₀ (State.secSend c typ payload s₀) := by
  unfold State.secSend
  repeat' first
    | with_reducible assumption
    | ((with_reducible refine sub_trans ?_ hs); exact rfl)
    | with_reducible exact trivial
    | with_reducible refine within_ite ?_ (fun _ => ?_)
    | with_reducible refine State.setHail_within _ _ ?_ ?_
    | with_reducible refine State.draw_within'  ‹_› ?_ ?_
    | with_reducible refine State.draw_within ?_ ?_
    | split
    | (dsimp only)

theorem State.secTake_within' {sc r₀ s₀ t x0} (c : Carrier) (typ : Nat) (he : State.secTake c typ s₀ = some (x0, t)) (hs : sub [.hailA, .hailB] sc = true)
    (h₀ : Within sc r₀ s₀) : Within sc r₀ t := by
  unfold State.secTake at he
  dsimp only at he
  split at he
  · cases he
  · rw [Option.map_eq_some_iff] at he
    obtain ⟨p, -, hp⟩ := he
    cases hp
    exact State.setHail_within _ _ (sub_trans rfl hs) h₀

theorem State.sessClear_within {sc r₀ s₀} (c : Carrier) (state : Nat) (hs : sub [.regs] sc = true) (h₀ : Within sc r₀ s₀) :
    Within sc r₀ (State.sessClear c state s₀) := by
  unfold State.sessClear
  repeat' first
    | with_reducible assumption
    | ((with_reducible refine sub_trans ?_ hs); exact rfl)
    | with_reducible exact trivial
    | with_reducible refine within_ite ?_ (fun _ => ?_)
    | with_reducible refine State.setFld_within _ _ _ ?_ ?_
    | with_reducible refine State.setReg_within _ _ ?_ ?_
    | with_reducible refine forN_within _ _ ?_ ?_
    | with_reducible refine forN_within (fun _ _ _ => ?_) ?_
    | split
    | (dsimp only)

theorem State.secAnswer_within {sc r₀ s₀} (ch : Fin 2) (result : Nat) (data : List Byte) (hs : sub [.sec] sc = true) (h₀ : Within sc r₀ s₀) :
    Within sc r₀ (State.secAnswer ch result data s₀) := by
  unfold State.secAnswer
  repeat' first
    | with_reducible assumption
    | ((with_reducible refine sub_trans ?_ hs); exact rfl)
    | with_reducible exact trivial
    | with_reducible refine within_ite ?_ (fun _ => ?_)
    | split
    | with_reducible refine Within.set_sec ?_ ?_
    | (dsimp only)

theorem State.kaAnswer_within {sc r₀ s₀} (c : Carrier) (x : KaExchange) (hs : sub [.sec] sc = true) (h₀ : Within sc r₀ s₀) :
    Within sc r₀ (State.kaAnswer c x s₀) := by
  unfold State.kaAnswer
  repeat' first
    | with_reducible assumption
    | ((with_reducible refine sub_trans ?_ hs); exact rfl)
    | with_reducible exact trivial
    | with_reducible refine within_ite ?_ (fun _ => ?_)
    | with_reducible refine State.secAnswer_within _ _ _ ?_ ?_
    | split
    | (dsimp only)

theorem State.sessDrop_within {sc r₀ s₀} (c : Carrier) (hs : sub [.regs, .sec] sc = true) (h₀ : Within sc r₀ s₀) :
    Within sc r₀ (State.sessDrop c s₀) := by
  unfold State.sessDrop
  repeat' first
    | with_reducible assumption
    | ((with_reducible refine sub_trans ?_ hs); exact rfl)
    | with_reducible exact trivial
    | with_reducible refine within_ite ?_ (fun _ => ?_)
    | with_reducible refine State.kaAnswer_within _ _ ?_ ?_
    | with_reducible refine State.sessClear_within _ _ ?_ ?_
    | with_reducible refine State.setSecCar_within _ _ ?_ ?_
    | split
    | (dsimp only)

theorem State.flushQueue_within {sc r₀ s₀} (q : Fin 64) (hs : sub [.regs, .mem, .coreA, .coreB, .qc, .hws, .hif, .pwr, .free, .log, .ecc] sc = true) (h₀ : Within sc r₀ s₀) :
    Within sc r₀ (State.flushQueue q s₀) := by
  unfold State.flushQueue
  repeat' first
    | with_reducible assumption
    | ((with_reducible refine sub_trans ?_ hs); exact rfl)
    | with_reducible exact trivial
    | with_reducible refine within_ite ?_ (fun _ => ?_)
    | with_reducible refine State.complete_within _ _ _ _ ?_ ?_
    | with_reducible refine within_foldl (fun _ _ _ => ?_) ?_
    | with_reducible refine within_foldl_snd (fun _ _ _ => ?_) ?_
    | split
    | (dsimp only)

theorem State.releaseHail_within {sc r₀ s₀} (r : Nat) (hs : sub [.regs, .coreA, .coreB, .claims, .hif, .free] sc = true) (h₀ : Within sc r₀ s₀) :
    Within sc r₀ (State.releaseHail r s₀) := by
  unfold State.releaseHail
  repeat' first
    | with_reducible assumption
    | ((with_reducible refine sub_trans ?_ hs); exact rfl)
    | with_reducible exact trivial
    | with_reducible refine within_ite ?_ (fun _ => ?_)
    | with_reducible refine State.releaseClaim_within _ ?_ ?_
    | with_reducible refine State.logEvent_within _ _ _ _ ?_ ?_
    | with_reducible refine State.draw_within'  ‹_› ?_ ?_
    | with_reducible refine State.draw_within ?_ ?_
    | split
    | (dsimp only)

theorem State.secZeroise_within {sc r₀ s₀} (cause : Nat) (hs : sub [.regs, .mem, .coreA, .coreB, .qc, .claims, .hws, .hif, .pwr, .free, .cph, .hailA, .hailB, .log, .ecc, .sec] sc = true) (h₀ : Within sc r₀ s₀) :
    Within sc r₀ (State.secZeroise cause s₀) := by
  unfold State.secZeroise
  repeat' first
    | with_reducible assumption
    | ((with_reducible refine sub_trans ?_ hs); exact rfl)
    | with_reducible exact trivial
    | with_reducible refine within_ite ?_ (fun _ => ?_)
    | with_reducible refine State.releaseHail_within _ ?_ ?_
    | with_reducible refine State.flushQueue_within _ ?_ ?_
    | with_reducible refine State.sessDrop_within _ ?_ ?_
    | with_reducible refine State.refreshModes_within ?_ ?_
    | with_reducible refine State.cphSecErase_within _ ?_ ?_
    | with_reducible refine State.setHail_within _ _ ?_ ?_
    | with_reducible refine State.noteTotal_within _ _ ?_ ?_
    | with_reducible refine State.logEvent_within _ _ _ _ ?_ ?_
    | with_reducible refine State.addCnt_within _ _ ?_ ?_
    | with_reducible refine State.setFld_within _ _ _ ?_ ?_
    | split
    | with_reducible refine Within.set_sec ?_ ?_
    | (dsimp only)

theorem State.secError_within {sc r₀ s₀} (code : Nat) (hs : sub [.regs, .coreA, .coreB, .hif, .cph, .hailA, .hailB, .sec] sc = true) (h₀ : Within sc r₀ s₀) :
    Within sc r₀ (State.secError code s₀) := by
  unfold State.secError
  repeat' first
    | with_reducible assumption
    | ((with_reducible refine sub_trans ?_ hs); exact rfl)
    | with_reducible exact trivial
    | with_reducible refine within_ite ?_ (fun _ => ?_)
    | with_reducible refine State.sessDrop_within _ ?_ ?_
    | with_reducible refine State.refreshModes_within ?_ ?_
    | with_reducible refine State.cphSecErase_within _ ?_ ?_
    | with_reducible refine State.setHail_within _ _ ?_ ?_
    | with_reducible refine State.logEvent_within _ _ _ _ ?_ ?_
    | with_reducible refine State.setFld_within _ _ _ ?_ ?_
    | split
    | with_reducible refine Within.set_sec ?_ ?_
    | (dsimp only)

end Sys2Proof.Laws
end

