-- ==== Sys2Proof/Laws/Ka.lean ====
section
/-! SUPPORT. The scope of each operation of Sys2Proof/Machine/Ka.lean. -/
namespace Sys2Proof.Laws
open Sys2Proof.Machine Sys2Proof.Safety

theorem State.setKa_within {sc r₀ s₀} (c : Carrier) (k : Option KaExchange) (hs : sub [.sec] sc = true) (h₀ : Within sc r₀ s₀) :
    Within sc r₀ (State.setKa c k s₀) := by
  unfold State.setKa
  repeat' first
    | with_reducible assumption
    | ((with_reducible refine sub_trans ?_ hs); exact rfl)
    | with_reducible exact trivial
    | with_reducible refine within_ite ?_ (fun _ => ?_)
    | with_reducible refine State.setSecCar_within _ _ ?_ ?_
    | split
    | (dsimp only)

theorem State.kaStart_within {sc r₀ s₀} (c : Carrier) (channel : Option Nat) (hs : sub [.regs, .free, .hailA, .hailB, .sec] sc = true) (h₀ : Within sc r₀ s₀) :
    Within sc r₀ (State.kaStart c channel s₀) := by
  unfold State.kaStart
  repeat' first
    | with_reducible assumption
    | ((with_reducible refine sub_trans ?_ hs); exact rfl)
    | with_reducible exact trivial
    | with_reducible refine within_ite ?_ (fun _ => ?_)
    | with_reducible refine State.secSend_within _ _ _ ?_ ?_
    | with_reducible refine State.setSecCar_within _ _ ?_ ?_
    | with_reducible refine State.drawBytes_within' _  ‹_› ?_ ?_
    | with_reducible refine State.drawBytes_within _ ?_ ?_
    | with_reducible refine State.setFld_within _ _ _ ?_ ?_
    | split
    | (dsimp only)

theorem State.kaFail_within {sc r₀ s₀} (c : Carrier) (k : KaExchange) (reason : Nat) (sent : Bool) (hs : sub [.regs, .coreA, .coreB, .hif, .free, .hailA, .hailB, .sec] sc = true) (h₀ : Within sc r₀ s₀) :
    Within sc r₀ (State.kaFail c k reason sent s₀) := by
  unfold State.kaFail
  repeat' first
    | with_reducible assumption
    | ((with_reducible refine sub_trans ?_ hs); exact rfl)
    | with_reducible exact trivial
    | with_reducible refine within_ite ?_ (fun _ => ?_)
    | with_reducible refine State.kaAnswer_within _ _ ?_ ?_
    | with_reducible refine State.secSend_within _ _ _ ?_ ?_
    | with_reducible refine State.setSecCar_within _ _ ?_ ?_
    | with_reducible refine State.logEvent_within _ _ _ _ ?_ ?_
    | with_reducible refine State.addCnt_within _ _ ?_ ?_
    | with_reducible refine State.setFld_within _ _ _ ?_ ?_
    | split
    | (dsimp only)

theorem State.kaReject_within {sc r₀ s₀} (c : Carrier) (sid : List Byte) (reason : Nat) (hs : sub [.regs, .coreA, .coreB, .hif, .free, .hailA, .hailB] sc = true) (h₀ : Within sc r₀ s₀) :
    Within sc r₀ (State.kaReject c sid reason s₀) := by
  unfold State.kaReject
  repeat' first
    | with_reducible assumption
    | ((with_reducible refine sub_trans ?_ hs); exact rfl)
    | with_reducible exact trivial
    | with_reducible refine within_ite ?_ (fun _ => ?_)
    | with_reducible refine State.secSend_within _ _ _ ?_ ?_
    | with_reducible refine State.logEvent_within _ _ _ _ ?_ ?_
    | with_reducible refine State.addCnt_within _ _ ?_ ?_
    | with_reducible refine State.setFld_within _ _ _ ?_ ?_
    | split
    | (dsimp only)

theorem State.sessShow_within {sc r₀ s₀} (c : Carrier) (u : SecSession) (hs : sub [.regs] sc = true) (h₀ : Within sc r₀ s₀) :
    Within sc r₀ (State.sessShow c u s₀) := by
  unfold State.sessShow
  repeat' first
    | with_reducible assumption
    | ((with_reducible refine sub_trans ?_ hs); exact rfl)
    | with_reducible exact trivial
    | with_reducible refine within_ite ?_ (fun _ => ?_)
    | with_reducible refine State.setFlag_within _ _ _ ?_ ?_
    | with_reducible refine State.setReg_within _ _ ?_ ?_
    | with_reducible refine forN_within _ _ ?_ ?_
    | with_reducible refine forN_within (fun _ _ _ => ?_) ?_
    | split
    | (dsimp only)

theorem State.sessPromote_within {sc r₀ s₀} (c : Carrier) (hs : sub [.regs, .sec] sc = true) (h₀ : Within sc r₀ s₀) :
    Within sc r₀ (State.sessPromote c s₀) := by
  unfold State.sessPromote
  repeat' first
    | with_reducible assumption
    | ((with_reducible refine sub_trans ?_ hs); exact rfl)
    | with_reducible exact trivial
    | with_reducible refine within_ite ?_ (fun _ => ?_)
    | with_reducible refine State.sessShow_within _ _ ?_ ?_
    | with_reducible refine State.setSecCar_within _ _ ?_ ?_
    | split
    | (dsimp only)

theorem State.establish_within {sc r₀ s₀} (c : Carrier) (k : KaExchange) (responder : Bool) (th : List Byte) (hs : sub [.regs, .coreA, .coreB, .hif, .sec] sc = true) (h₀ : Within sc r₀ s₀) :
    Within sc r₀ (State.establish c k responder th s₀) := by
  unfold State.establish
  repeat' first
    | with_reducible assumption
    | ((with_reducible refine sub_trans ?_ hs); exact rfl)
    | with_reducible exact trivial
    | with_reducible refine within_ite ?_ (fun _ => ?_)
    | with_reducible refine State.sessShow_within _ _ ?_ ?_
    | with_reducible refine State.kaAnswer_within _ _ ?_ ?_
    | with_reducible refine State.refreshModes_within ?_ ?_
    | with_reducible refine State.setSecCar_within _ _ ?_ ?_
    | with_reducible refine State.logEvent_within _ _ _ _ ?_ ?_
    | with_reducible refine State.addCnt_within _ _ ?_ ?_
    | with_reducible refine State.setFld_within _ _ _ ?_ ?_
    | split
    | (dsimp only)

theorem State.kaRespond_within {sc r₀ s₀} (c : Carrier) (hello : List Byte) (channel : Option Nat) (hs : sub [.regs, .free, .hailA, .hailB, .sec] sc = true) (h₀ : Within sc r₀ s₀) :
    Within sc r₀ (State.kaRespond c hello channel s₀) := by
  unfold State.kaRespond
  repeat' first
    | with_reducible assumption
    | ((with_reducible refine sub_trans ?_ hs); exact rfl)
    | with_reducible exact trivial
    | with_reducible refine within_ite ?_ (fun _ => ?_)
    | with_reducible refine State.secSend_within _ _ _ ?_ ?_
    | with_reducible refine State.setSecCar_within _ _ ?_ ?_
    | with_reducible refine State.drawBytes_within' _  ‹_› ?_ ?_
    | with_reducible refine State.drawBytes_within _ ?_ ?_
    | with_reducible refine State.setFld_within _ _ _ ?_ ?_
    | split
    | (dsimp only)

theorem State.kaHello_within {sc r₀ s₀} (c : Carrier) (m : List Byte) (pctOk : Bool) (channel : Option Nat) (hs : sub [.regs, .coreA, .coreB, .hif, .free, .hailA, .hailB, .sec] sc = true) (h₀ : Within sc r₀ s₀) :
    Within sc r₀ (State.kaHello c m pctOk channel s₀) := by
  unfold State.kaHello
  repeat' first
    | with_reducible assumption
    | ((with_reducible refine sub_trans ?_ hs); exact rfl)
    | with_reducible exact trivial
    | with_reducible refine within_ite ?_ (fun _ => ?_)
    | with_reducible refine State.kaRespond_within _ _ _ ?_ ?_
    | with_reducible refine State.kaReject_within _ _ _ ?_ ?_
    | with_reducible refine State.draw_within'  ‹_› ?_ ?_
    | with_reducible refine State.draw_within ?_ ?_
    | split
    | (dsimp only)

theorem execKaHello_within {sc r₀ s₀} (c : Carrier) (pctOk : Bool) (hs : sub [.regs, .coreA, .coreB, .hif, .free, .hailA, .hailB, .sec] sc = true) (h₀ : Within sc r₀ s₀) :
    OutWithin sc r₀ (execKaHello c pctOk s₀) := by
  unfold execKaHello
  repeat' first
    | with_reducible assumption
    | ((with_reducible refine sub_trans ?_ hs); exact rfl)
    | with_reducible exact trivial
    | with_reducible refine within_ite ?_ (fun _ => ?_)
    | with_reducible refine outWithin_next ?_
    | with_reducible refine outWithin_ite ?_ ?_
    | with_reducible exact outWithin_fault _
    | with_reducible refine State.kaHello_within _ _ _ _ ?_ ?_
    | with_reducible refine State.kaFail_within _ _ _ _ ?_ ?_
    | with_reducible refine State.setKa_within _ _ ?_ ?_
    | with_reducible refine State.secTake_within' _ _  ‹_› ?_ ?_
    | with_reducible refine State.setSecCar_within _ _ ?_ ?_
    | split
    | (dsimp only)

theorem execKaCollisionRetry_within {sc r₀ s₀} (c : Carrier) (hs : sub [.regs, .free, .hailA, .hailB, .sec] sc = true) (h₀ : Within sc r₀ s₀) :
    OutWithin sc r₀ (execKaCollisionRetry c s₀) := by
  unfold execKaCollisionRetry
  repeat' first
    | with_reducible assumption
    | ((with_reducible refine sub_trans ?_ hs); exact rfl)
    | with_reducible exact trivial
    | with_reducible refine within_ite ?_ (fun _ => ?_)
    | with_reducible refine outWithin_next ?_
    | with_reducible refine outWithin_ite ?_ ?_
    | with_reducible exact outWithin_fault _
    | with_reducible refine State.kaStart_within _ _ ?_ ?_
    | with_reducible refine State.kaAnswer_within _ _ ?_ ?_
    | with_reducible refine State.setSecCar_within _ _ ?_ ?_
    | split
    | (dsimp only)

theorem execKaResp_within {sc r₀ s₀} (c : Carrier) (hs : sub [.regs, .coreA, .coreB, .hif, .free, .hailA, .hailB, .sec] sc = true) (h₀ : Within sc r₀ s₀) :
    OutWithin sc r₀ (execKaResp c s₀) := by
  unfold execKaResp
  repeat' first
    | with_reducible assumption
    | ((with_reducible refine sub_trans ?_ hs); exact rfl)
    | with_reducible exact trivial
    | with_reducible refine within_ite ?_ (fun _ => ?_)
    | with_reducible refine outWithin_next ?_
    | with_reducible refine outWithin_ite ?_ ?_
    | with_reducible exact outWithin_fault _
    | with_reducible refine State.kaFail_within _ _ _ _ ?_ ?_
    | with_reducible refine State.setKa_within _ _ ?_ ?_
    | with_reducible refine State.secTake_within' _ _  ‹_› ?_ ?_
    | with_reducible refine State.secSend_within _ _ _ ?_ ?_
    | split
    | (dsimp only)

theorem execKaFinish_within {sc r₀ s₀} (c : Carrier) (hs : sub [.regs, .coreA, .coreB, .hif, .free, .hailA, .hailB, .sec] sc = true) (h₀ : Within sc r₀ s₀) :
    OutWithin sc r₀ (execKaFinish c s₀) := by
  unfold execKaFinish
  repeat' first
    | with_reducible assumption
    | ((with_reducible refine sub_trans ?_ hs); exact rfl)
    | with_reducible exact trivial
    | with_reducible refine within_ite ?_ (fun _ => ?_)
    | with_reducible refine outWithin_next ?_
    | with_reducible refine outWithin_ite ?_ ?_
    | with_reducible exact outWithin_fault _
    | with_reducible refine State.establish_within _ _ _ _ ?_ ?_
    | with_reducible refine State.kaFail_within _ _ _ _ ?_ ?_
    | with_reducible refine State.secTake_within' _ _  ‹_› ?_ ?_
    | with_reducible refine State.secSend_within _ _ _ ?_ ?_
    | split
    | (dsimp only)

theorem execKaConfirm_within {sc r₀ s₀} (c : Carrier) (hs : sub [.regs, .coreA, .coreB, .hif, .free, .hailA, .hailB, .sec] sc = true) (h₀ : Within sc r₀ s₀) :
    OutWithin sc r₀ (execKaConfirm c s₀) := by
  unfold execKaConfirm
  repeat' first
    | with_reducible assumption
    | ((with_reducible refine sub_trans ?_ hs); exact rfl)
    | with_reducible exact trivial
    | with_reducible refine within_ite ?_ (fun _ => ?_)
    | with_reducible refine outWithin_next ?_
    | with_reducible refine outWithin_ite ?_ ?_
    | with_reducible exact outWithin_fault _
    | with_reducible refine State.establish_within _ _ _ _ ?_ ?_
    | with_reducible refine State.kaFail_within _ _ _ _ ?_ ?_
    | with_reducible refine State.secTake_within' _ _  ‹_› ?_ ?_
    | split
    | (dsimp only)

theorem execKaAbort_within {sc r₀ s₀} (c : Carrier) (hs : sub [.regs, .coreA, .coreB, .hif, .free, .hailA, .hailB, .sec] sc = true) (h₀ : Within sc r₀ s₀) :
    OutWithin sc r₀ (execKaAbort c s₀) := by
  unfold execKaAbort
  repeat' first
    | with_reducible assumption
    | ((with_reducible refine sub_trans ?_ hs); exact rfl)
    | with_reducible exact trivial
    | with_reducible refine within_ite ?_ (fun _ => ?_)
    | with_reducible refine outWithin_next ?_
    | with_reducible refine outWithin_ite ?_ ?_
    | with_reducible exact outWithin_fault _
    | with_reducible refine State.kaFail_within _ _ _ _ ?_ ?_
    | with_reducible refine State.kaStart_within _ _ ?_ ?_
    | with_reducible refine State.kaAnswer_within _ _ ?_ ?_
    | with_reducible refine State.secTake_within' _ _  ‹_› ?_ ?_
    | with_reducible refine State.setSecCar_within _ _ ?_ ?_
    | split
    | (dsimp only)

theorem execKaTimeout_within {sc r₀ s₀} (c : Carrier) (hs : sub [.regs, .coreA, .coreB, .hif, .free, .hailA, .hailB, .sec] sc = true) (h₀ : Within sc r₀ s₀) :
    OutWithin sc r₀ (execKaTimeout c s₀) := by
  unfold execKaTimeout
  repeat' first
    | with_reducible assumption
    | ((with_reducible refine sub_trans ?_ hs); exact rfl)
    | with_reducible exact trivial
    | with_reducible refine within_ite ?_ (fun _ => ?_)
    | with_reducible refine outWithin_next ?_
    | with_reducible refine outWithin_ite ?_ ?_
    | with_reducible exact outWithin_fault _
    | with_reducible refine State.kaFail_within _ _ _ _ ?_ ?_
    | with_reducible refine State.secTake_within' _ _  ‹_› ?_ ?_
    | split
    | (dsimp only)

theorem execKaRetryTimer_within {sc r₀ s₀} (c : Carrier) (hs : sub [.regs, .free, .hailA, .hailB, .sec] sc = true) (h₀ : Within sc r₀ s₀) :
    OutWithin sc r₀ (execKaRetryTimer c s₀) := by
  unfold execKaRetryTimer
  repeat' first
    | with_reducible assumption
    | ((with_reducible refine sub_trans ?_ hs); exact rfl)
    | with_reducible exact trivial
    | with_reducible refine within_ite ?_ (fun _ => ?_)
    | with_reducible refine outWithin_next ?_
    | with_reducible refine outWithin_ite ?_ ?_
    | with_reducible exact outWithin_fault _
    | with_reducible refine State.kaStart_within _ _ ?_ ?_
    | split
    | (dsimp only)

theorem execFullPeriodExpiry_within {sc r₀ s₀} (c : Carrier) (hs : sub [.regs, .free, .hailA, .hailB, .sec] sc = true) (h₀ : Within sc r₀ s₀) :
    OutWithin sc r₀ (execFullPeriodExpiry c s₀) := by
  unfold execFullPeriodExpiry
  repeat' first
    | with_reducible assumption
    | ((with_reducible refine sub_trans ?_ hs); exact rfl)
    | with_reducible exact trivial
    | with_reducible refine within_ite ?_ (fun _ => ?_)
    | with_reducible refine outWithin_next ?_
    | with_reducible refine outWithin_ite ?_ ?_
    | with_reducible exact outWithin_fault _
    | with_reducible refine State.kaStart_within _ _ ?_ ?_
    | split
    | (dsimp only)

theorem State.installSlot_within {sc r₀ s₀} (n : Nat) (dir : Nat) (mode : Nat) (no : Nat) (fe : Nat) (t : Nat) (es : List Byte) (hs : sub [.regs, .cph] sc = true) (h₀ : Within sc r₀ s₀) :
    Within sc r₀ (State.installSlot n dir mode no fe t es s₀) := by
  unfold State.installSlot
  repeat' first
    | with_reducible assumption
    | ((with_reducible refine sub_trans ?_ hs); exact rfl)
    | with_reducible exact trivial
    | with_reducible refine within_ite ?_ (fun _ => ?_)
    | with_reducible refine State.cphShow_within _ ?_ ?_
    | split
    | with_reducible refine Within.set_cph ?_ ?_
    | (dsimp only)

theorem State.activate_within' {sc r₀ s₀ t} (c : Carrier) (he : State.activate c s₀ = some t) (hs : sub [.regs, .free, .cph, .hailA, .hailB, .sec] sc = true)
    (h₀ : Within sc r₀ s₀) : Within sc r₀ t := by
  unfold State.activate at he
  dsimp only at he
  split at he
  · cases he
  · split at he
    · cases he
    · injection he with he
      rw [← he]
      refine State.refreshModes_within (sub_trans rfl hs) (State.sessPromote_within _ (sub_trans rfl hs) (State.setFlag_within _ _ _ (sub_trans rfl hs)
        (State.secSend_within _ _ _ (sub_trans rfl hs) (State.setSecCar_within _ _ (sub_trans rfl hs) (within_foldl (fun _ _ hf => ?_) h₀)))))
      exact within_ite (State.installSlot_within _ _ _ _ _ _ _ (sub_trans rfl hs) hf) (fun _ => hf)

theorem State.activate_getD_within {sc r₀ s₀} (c : Carrier) (hs : sub [.regs, .free, .cph, .hailA, .hailB, .sec] sc = true) (h₀ : Within sc r₀ s₀) :
    Within sc r₀ ((State.activate c s₀).getD s₀) := by
  cases h : State.activate c s₀ with
  | none => exact h₀
  | some t => exact State.activate_within' c h hs h₀

theorem execEpochActivation_within {sc r₀ s₀} (c : Carrier) (hs : sub [.regs, .free, .cph, .hailA, .hailB, .sec] sc = true) (h₀ : Within sc r₀ s₀) :
    OutWithin sc r₀ (execEpochActivation c s₀) := by
  unfold execEpochActivation
  repeat' first
    | with_reducible assumption
    | ((with_reducible refine sub_trans ?_ hs); exact rfl)
    | with_reducible exact trivial
    | with_reducible refine within_ite ?_ (fun _ => ?_)
    | with_reducible refine outWithin_next ?_
    | with_reducible refine outWithin_ite ?_ ?_
    | with_reducible exact outWithin_fault _
    | with_reducible refine State.activate_within' _  ‹_› ?_ ?_
    | with_reducible refine State.activate_getD_within _ ?_ ?_
    | with_reducible refine State.activate_getD_within _ ?_ ?_
    | split
    | (dsimp only)

theorem execRekeyAgeExpiry_within {sc r₀ s₀} (c : Carrier) (hs : sub [.regs, .free, .cph, .hailA, .hailB, .sec] sc = true) (h₀ : Within sc r₀ s₀) :
    OutWithin sc r₀ (execRekeyAgeExpiry c s₀) := by
  unfold execRekeyAgeExpiry
  repeat' first
    | with_reducible assumption
    | ((with_reducible refine sub_trans ?_ hs); exact rfl)
    | with_reducible exact trivial
    | with_reducible refine within_ite ?_ (fun _ => ?_)
    | with_reducible refine outWithin_next ?_
    | with_reducible refine outWithin_ite ?_ ?_
    | with_reducible exact outWithin_fault _
    | with_reducible refine State.activate_within' _  ‹_› ?_ ?_
    | with_reducible refine State.activate_getD_within _ ?_ ?_
    | with_reducible refine State.activate_getD_within _ ?_ ?_
    | split
    | (dsimp only)

theorem State.sendAck_within {sc r₀ s₀} (c : Carrier) (u : Option SecSession) (m : List Byte) (status : Nat) (hs : sub [.free, .hailA, .hailB] sc = true) (h₀ : Within sc r₀ s₀) :
    Within sc r₀ (State.sendAck c u m status s₀) := by
  unfold State.sendAck
  repeat' first
    | with_reducible assumption
    | ((with_reducible refine sub_trans ?_ hs); exact rfl)
    | with_reducible exact trivial
    | with_reducible refine within_ite ?_ (fun _ => ?_)
    | with_reducible refine State.secSend_within _ _ _ ?_ ?_
    | with_reducible refine State.drawBytes_within' _  ‹_› ?_ ?_
    | with_reducible refine State.drawBytes_within _ ?_ ?_
    | split
    | (dsimp only)

theorem State.supplyFrx_within {sc r₀ s₀} (c : Carrier) (fnow : Nat) (hs : sub [.cph] sc = true) (h₀ : Within sc r₀ s₀) :
    Within sc r₀ (State.supplyFrx c fnow s₀) := by
  unfold State.supplyFrx
  repeat' first
    | with_reducible assumption
    | ((with_reducible refine sub_trans ?_ hs); exact rfl)
    | with_reducible exact trivial
    | with_reducible refine within_ite ?_ (fun _ => ?_)
    | with_reducible refine State.setCphCar_within _ _ ?_ ?_
    | split
    | (dsimp only)

theorem execKeyActivate_within {sc r₀ s₀} (c : Carrier) (hs : sub [.regs, .coreA, .coreB, .hif, .free, .cph, .hailA, .hailB, .sec] sc = true) (h₀ : Within sc r₀ s₀) :
    OutWithin sc r₀ (execKeyActivate c s₀) := by
  unfold execKeyActivate
  repeat' first
    | with_reducible assumption
    | ((with_reducible refine sub_trans ?_ hs); exact rfl)
    | with_reducible exact trivial
    | with_reducible refine within_ite ?_ (fun _ => ?_)
    | with_reducible refine outWithin_next ?_
    | with_reducible refine outWithin_ite ?_ ?_
    | with_reducible exact outWithin_fault _
    | with_reducible refine State.supplyFrx_within _ _ ?_ ?_
    | with_reducible refine State.sendAck_within _ _ _ _ ?_ ?_
    | with_reducible refine State.installSlot_within _ _ _ _ _ _ _ ?_ ?_
    | with_reducible refine State.sessPromote_within _ ?_ ?_
    | with_reducible refine State.secTake_within' _ _  ‹_› ?_ ?_
    | with_reducible refine State.refreshModes_within ?_ ?_
    | with_reducible refine State.setSecCar_within _ _ ?_ ?_
    | with_reducible refine State.logEvent_within _ _ _ _ ?_ ?_
    | with_reducible refine State.addCnt_within _ _ ?_ ?_
    | with_reducible refine State.setFlag_within _ _ _ ?_ ?_
    | with_reducible refine within_foldl (fun _ _ _ => ?_) ?_
    | with_reducible refine within_foldl_snd (fun _ _ _ => ?_) ?_
    | split
    | (dsimp only)

theorem execKeyAck_within {sc r₀ s₀} (c : Carrier) (hs : sub [.regs, .hailA, .hailB] sc = true) (h₀ : Within sc r₀ s₀) :
    OutWithin sc r₀ (execKeyAck c s₀) := by
  unfold execKeyAck
  repeat' first
    | with_reducible assumption
    | ((with_reducible refine sub_trans ?_ hs); exact rfl)
    | with_reducible exact trivial
    | with_reducible refine within_ite ?_ (fun _ => ?_)
    | with_reducible refine outWithin_next ?_
    | with_reducible refine outWithin_ite ?_ ?_
    | with_reducible exact outWithin_fault _
    | with_reducible refine State.secTake_within' _ _  ‹_› ?_ ?_
    | with_reducible refine State.setFlag_within _ _ _ ?_ ?_
    | split
    | (dsimp only)

theorem execKeyAckTimeout_within {sc r₀ s₀} (c : Carrier) (hs : sub [.regs, .coreA, .coreB, .hif] sc = true) (h₀ : Within sc r₀ s₀) :
    OutWithin sc r₀ (execKeyAckTimeout c s₀) := by
  unfold execKeyAckTimeout
  repeat' first
    | with_reducible assumption
    | ((with_reducible refine sub_trans ?_ hs); exact rfl)
    | with_reducible exact trivial
    | with_reducible refine within_ite ?_ (fun _ => ?_)
    | with_reducible refine outWithin_next ?_
    | with_reducible refine outWithin_ite ?_ ?_
    | with_reducible exact outWithin_fault _
    | with_reducible refine State.logEvent_within _ _ _ _ ?_ ?_
    | split
    | (dsimp only)

end Sys2Proof.Laws
end

