-- ==== Sys2Proof/Laws/Manifest.lean ====
section
/-! SUPPORT. The scope of each operation of Sys2Proof/Machine/Manifest.lean. -/
namespace Sys2Proof.Laws
open Sys2Proof.Machine Sys2Proof.Safety

theorem State.wipe_within {sc r₀ s₀} (lo : Nat) (hi : Nat) (hs : sub [.mem, .ecc] sc = true) (h₀ : Within sc r₀ s₀) :
    Within sc r₀ (State.wipe lo hi s₀) := by
  unfold State.wipe
  repeat' first
    | with_reducible assumption
    | ((with_reducible refine sub_trans ?_ hs); exact rfl)
    | with_reducible exact trivial
    | with_reducible refine within_ite ?_ (fun _ => ?_)
    | with_reducible refine State.zeroMem_within _ _ ?_ ?_
    | split
    | with_reducible refine Within.set_ecc ?_ ?_
    | (dsimp only)

theorem State.wipeArea_within {sc r₀ s₀} (k : CoreId) (base : Nat) (n : Nat) (hs : sub [.mem, .ecc] sc = true) (h₀ : Within sc r₀ s₀) :
    Within sc r₀ (State.wipeArea k base n s₀) := by
  unfold State.wipeArea
  repeat' first
    | with_reducible assumption
    | ((with_reducible refine sub_trans ?_ hs); exact rfl)
    | with_reducible exact trivial
    | with_reducible refine within_ite ?_ (fun _ => ?_)
    | with_reducible refine State.wipe_within _ _ ?_ ?_
    | split
    | (dsimp only)

theorem State.placeSections_within {sc r₀ s₀} (k : CoreId) (o : Nat) (base : Nat) (hs : sub [.regs, .mem, .ecc] sc = true) (h₀ : Within sc r₀ s₀) :
    Within sc r₀ (State.placeSections k o base s₀) := by
  unfold State.placeSections
  repeat' first
    | with_reducible assumption
    | ((with_reducible refine sub_trans ?_ hs); exact rfl)
    | with_reducible exact trivial
    | with_reducible refine within_ite ?_ (fun _ => ?_)
    | with_reducible refine State.setBytes_within _ _ ?_ ?_
    | with_reducible refine within_foldl (fun _ _ _ => ?_) ?_
    | with_reducible refine within_foldl_snd (fun _ _ _ => ?_) ?_
    | split
    | (dsimp only)

theorem State.loadHarbour_within {sc r₀ s₀} (k : CoreId) (o : Nat) (hs : sub [.regs, .mem, .ecc] sc = true) (h₀ : Within sc r₀ s₀) :
    Within sc r₀ (State.loadHarbour k o s₀) := by
  unfold State.loadHarbour
  repeat' first
    | with_reducible assumption
    | ((with_reducible refine sub_trans ?_ hs); exact rfl)
    | with_reducible exact trivial
    | with_reducible refine within_ite ?_ (fun _ => ?_)
    | with_reducible refine State.placeSections_within _ _ _ ?_ ?_
    | with_reducible refine State.wipeArea_within _ _ _ ?_ ?_
    | split
    | (dsimp only)

theorem State.loadBank_within {sc r₀ s₀} (k : CoreId) (bank : Bool) (o : Nat) (hs : sub [.regs, .mem, .ecc] sc = true) (h₀ : Within sc r₀ s₀) :
    Within sc r₀ (State.loadBank k bank o s₀) := by
  unfold State.loadBank
  repeat' first
    | with_reducible assumption
    | ((with_reducible refine sub_trans ?_ hs); exact rfl)
    | with_reducible exact trivial
    | with_reducible refine within_ite ?_ (fun _ => ?_)
    | with_reducible refine State.placeSections_within _ _ _ ?_ ?_
    | with_reducible refine State.wipeArea_within _ _ _ ?_ ?_
    | split
    | (dsimp only)

theorem State.loadBerth_within {sc r₀ s₀} (o : Nat) (hs : sub [.regs, .mem, .coreA, .coreB, .berth, .boot, .hif, .ecc, .sec] sc = true) (h₀ : Within sc r₀ s₀) :
    Within sc r₀ (State.loadBerth o s₀).2 := by
  unfold State.loadBerth
  repeat' first
    | with_reducible assumption
    | ((with_reducible refine sub_trans ?_ hs); exact rfl)
    | with_reducible exact trivial
    | with_reducible refine within_ite ?_ (fun _ => ?_)
    | with_reducible refine within_ite_snd ?_ (fun _ => ?_)
    | with_reducible refine State.loadBank_within _ _ _ ?_ ?_
    | with_reducible refine State.rollbackRaise_within _ _ _ ?_ ?_
    | split
    | with_reducible refine Within.set_berth ?_ ?_
    | with_reducible refine Within.set_boot ?_ ?_
    | with_reducible refine Within.set_berth_boot ?_ ?_
    | (dsimp only)
theorem State.loadBerth_within' {sc r₀ s₀ t} {x0} (o : Nat) (he : State.loadBerth o s₀ = (x0, t)) (hs : sub [.regs, .mem, .coreA, .coreB, .berth, .boot, .hif, .ecc, .sec] sc = true) (h₀ : Within sc r₀ s₀) : Within sc r₀ t := by
  have h := State.loadBerth_within o hs h₀
  rw [he] at h
  exact h

end Sys2Proof.Laws
end

