-- ==== Sys2Proof/Laws/SecSvc.lean ====
section
/-! SUPPORT. The scope of each operation of Sys2Proof/Machine/SecSvc.lean. -/
namespace Sys2Proof.Laws
open Sys2Proof.Machine Sys2Proof.Safety

theorem State.service_within {sc r₀ s₀} (ch : Fin 2) (code : Nat) (form part : List Byte → Bool) (body : List Byte → State → State)
    (hb : ∀ l s, Within sc r₀ s → Within sc r₀ (body l s)) (hs : sub [.sec] sc = true) (h₀ : Within sc r₀ s₀) :
    Within sc r₀ (State.service ch code form part body s₀) := by
  unfold State.service
  dsimp only
  split
  · exact h₀
  · split
    · exact State.secAnswer_within _ _ _ (sub_trans rfl hs) h₀
    · split
      · exact State.secAnswer_within _ _ _ (sub_trans rfl hs) h₀
      · split
        · exact State.secAnswer_within _ _ _ (sub_trans rfl hs) h₀
        · exact hb _ _ h₀

theorem execGetStatus_within {sc r₀ s₀} (ch : Fin 2) (hs : sub [.sec] sc = true) (h₀ : Within sc r₀ s₀) :
    OutWithin sc r₀ (execGetStatus ch s₀) := by
  unfold execGetStatus
  repeat' first
    | with_reducible assumption
    | ((with_reducible refine sub_trans ?_ hs); exact rfl)
    | with_reducible exact trivial
    | with_reducible refine within_ite ?_ (fun _ => ?_)
    | with_reducible refine within_ite_snd ?_ (fun _ => ?_)
    | with_reducible refine outWithin_next ?_
    | with_reducible refine outWithin_ite ?_ ?_
    | with_reducible exact outWithin_fault _
    | with_reducible refine State.secAnswer_within _ _ _ ?_ ?_
    | with_reducible refine State.service_within _ _ _ _ _ (fun _ _ _ => ?_) ?_ ?_
    | split
    | (dsimp only)

theorem execGetIdentity_within {sc r₀ s₀} (ch : Fin 2) (hs : sub [.sec] sc = true) (h₀ : Within sc r₀ s₀) :
    OutWithin sc r₀ (execGetIdentity ch s₀) := by
  unfold execGetIdentity
  repeat' first
    | with_reducible assumption
    | ((with_reducible refine sub_trans ?_ hs); exact rfl)
    | with_reducible exact trivial
    | with_reducible refine within_ite ?_ (fun _ => ?_)
    | with_reducible refine within_ite_snd ?_ (fun _ => ?_)
    | with_reducible refine outWithin_next ?_
    | with_reducible refine outWithin_ite ?_ ?_
    | with_reducible exact outWithin_fault _
    | with_reducible refine State.secAnswer_within _ _ _ ?_ ?_
    | with_reducible refine State.service_within _ _ _ _ _ (fun _ _ _ => ?_) ?_ ?_
    | split
    | (dsimp only)

theorem State.setChallenge_within {sc r₀ s₀} (ch : Fin 2) (x : Option (List Byte × W64)) (hs : sub [.sec] sc = true) (h₀ : Within sc r₀ s₀) :
    Within sc r₀ (State.setChallenge ch x s₀) := by
  unfold State.setChallenge
  repeat' first
    | with_reducible assumption
    | ((with_reducible refine sub_trans ?_ hs); exact rfl)
    | with_reducible exact trivial
    | with_reducible refine within_ite ?_ (fun _ => ?_)
    | split
    | with_reducible refine Within.set_sec ?_ ?_
    | (dsimp only)

theorem execGetChallenge_within {sc r₀ s₀} (ch : Fin 2) (hs : sub [.free, .sec] sc = true) (h₀ : Within sc r₀ s₀) :
    OutWithin sc r₀ (execGetChallenge ch s₀) := by
  unfold execGetChallenge
  repeat' first
    | with_reducible assumption
    | ((with_reducible refine sub_trans ?_ hs); exact rfl)
    | with_reducible exact trivial
    | with_reducible refine within_ite ?_ (fun _ => ?_)
    | with_reducible refine within_ite_snd ?_ (fun _ => ?_)
    | with_reducible refine outWithin_next ?_
    | with_reducible refine outWithin_ite ?_ ?_
    | with_reducible exact outWithin_fault _
    | with_reducible refine State.setChallenge_within _ _ ?_ ?_
    | with_reducible refine State.secAnswer_within _ _ _ ?_ ?_
    | with_reducible refine State.drawBytes_within' _  ‹_› ?_ ?_
    | with_reducible refine State.drawBytes_within _ ?_ ?_
    | with_reducible refine State.service_within _ _ _ _ _ (fun _ _ _ => ?_) ?_ ?_
    | split
    | (dsimp only)

theorem execChallengeExpiry_within {sc r₀ s₀} (ch : Fin 2) (hs : sub [.sec] sc = true) (h₀ : Within sc r₀ s₀) :
    OutWithin sc r₀ (execChallengeExpiry ch s₀) := by
  unfold execChallengeExpiry
  repeat' first
    | with_reducible assumption
    | ((with_reducible refine sub_trans ?_ hs); exact rfl)
    | with_reducible exact trivial
    | with_reducible refine within_ite ?_ (fun _ => ?_)
    | with_reducible refine outWithin_next ?_
    | with_reducible refine outWithin_ite ?_ ?_
    | with_reducible exact outWithin_fault _
    | with_reducible refine State.setChallenge_within _ _ ?_ ?_
    | split
    | (dsimp only)

theorem execZeroize_within {sc r₀ s₀} (ch : Fin 2) (hs : sub [.regs, .mem, .coreA, .coreB, .qc, .claims, .hws, .hif, .pwr, .free, .cph, .hailA, .hailB, .log, .ecc, .sec] sc = true) (h₀ : Within sc r₀ s₀) :
    OutWithin sc r₀ (execZeroize ch s₀) := by
  unfold execZeroize
  repeat' first
    | with_reducible assumption
    | ((with_reducible refine sub_trans ?_ hs); exact rfl)
    | with_reducible exact trivial
    | with_reducible refine within_ite ?_ (fun _ => ?_)
    | with_reducible refine within_ite_snd ?_ (fun _ => ?_)
    | with_reducible refine outWithin_next ?_
    | with_reducible refine outWithin_ite ?_ ?_
    | with_reducible exact outWithin_fault _
    | with_reducible refine State.secZeroise_within _ ?_ ?_
    | with_reducible refine State.secAnswer_within _ _ _ ?_ ?_
    | with_reducible refine State.service_within _ _ _ _ _ (fun _ _ _ => ?_) ?_ ?_
    | split
    | (dsimp only)

theorem State.unitKatFail_within {sc r₀ s₀} (u : Nat) (hs : sub [.regs, .coreA, .coreB, .hif, .free, .log] sc = true) (h₀ : Within sc r₀ s₀) :
    Within sc r₀ (State.unitKatFail u s₀) := by
  unfold State.unitKatFail
  repeat' first
    | with_reducible assumption
    | ((with_reducible refine sub_trans ?_ hs); exact rfl)
    | with_reducible exact trivial
    | with_reducible refine within_ite ?_ (fun _ => ?_)
    | with_reducible refine State.unitCount_within ?_ ?_
    | with_reducible refine State.setUnit_within _ _ ?_ ?_
    | with_reducible refine State.spareUsed_within _ ?_ ?_
    | with_reducible refine State.logEvent_within _ _ _ _ ?_ ?_
    | with_reducible refine State.draw_within'  ‹_› ?_ ?_
    | with_reducible refine State.draw_within ?_ ?_
    | split
    | (dsimp only)

theorem execSelfTest_within {sc r₀ s₀} (ch : Fin 2) (code : Byte) (hs : sub [.regs, .coreA, .coreB, .hif, .free, .cph, .hailA, .hailB, .log, .sec] sc = true) (h₀ : Within sc r₀ s₀) :
    OutWithin sc r₀ (execSelfTest ch code s₀) := by
  unfold execSelfTest
  repeat' first
    | with_reducible assumption
    | ((with_reducible refine sub_trans ?_ hs); exact rfl)
    | with_reducible exact trivial
    | with_reducible refine within_ite ?_ (fun _ => ?_)
    | with_reducible refine within_ite_snd ?_ (fun _ => ?_)
    | with_reducible refine outWithin_next ?_
    | with_reducible refine outWithin_ite ?_ ?_
    | with_reducible exact outWithin_fault _
    | with_reducible refine State.unitKatFail_within _ ?_ ?_
    | with_reducible refine State.secError_within _ ?_ ?_
    | with_reducible refine State.secAnswer_within _ _ _ ?_ ?_
    | with_reducible refine State.service_within _ _ _ _ _ (fun _ _ _ => ?_) ?_ ?_
    | split
    | (dsimp only)

theorem execLoadEndorsement_within {sc r₀ s₀} (ch : Fin 2) (hs : sub [.regs, .sec] sc = true) (h₀ : Within sc r₀ s₀) :
    OutWithin sc r₀ (execLoadEndorsement ch s₀) := by
  unfold execLoadEndorsement
  repeat' first
    | with_reducible assumption
    | ((with_reducible refine sub_trans ?_ hs); exact rfl)
    | with_reducible exact trivial
    | with_reducible refine within_ite ?_ (fun _ => ?_)
    | with_reducible refine within_ite_snd ?_ (fun _ => ?_)
    | with_reducible refine outWithin_next ?_
    | with_reducible refine outWithin_ite ?_ ?_
    | with_reducible exact outWithin_fault _
    | with_reducible refine State.secAnswer_within _ _ _ ?_ ?_
    | with_reducible refine State.refreshModes_within ?_ ?_
    | with_reducible refine State.service_within _ _ _ _ _ (fun _ _ _ => ?_) ?_ ?_
    | split
    | with_reducible refine Within.set_sec ?_ ?_
    | (dsimp only)

theorem execSetPolicy_within {sc r₀ s₀} (ch : Fin 2) (hs : sub [.regs, .sec] sc = true) (h₀ : Within sc r₀ s₀) :
    OutWithin sc r₀ (execSetPolicy ch s₀) := by
  unfold execSetPolicy
  repeat' first
    | with_reducible assumption
    | ((with_reducible refine sub_trans ?_ hs); exact rfl)
    | with_reducible exact trivial
    | with_reducible refine within_ite ?_ (fun _ => ?_)
    | with_reducible refine within_ite_snd ?_ (fun _ => ?_)
    | with_reducible refine outWithin_next ?_
    | with_reducible refine outWithin_ite ?_ ?_
    | with_reducible exact outWithin_fault _
    | with_reducible refine State.secAnswer_within _ _ _ ?_ ?_
    | with_reducible refine State.refreshModes_within ?_ ?_
    | with_reducible refine State.setSecCar_within _ _ ?_ ?_
    | with_reducible refine State.service_within _ _ _ _ _ (fun _ _ _ => ?_) ?_ ?_
    | split
    | (dsimp only)

theorem execStartAgreement_within {sc r₀ s₀} (ch : Fin 2) (hs : sub [.regs, .free, .hailA, .hailB, .sec] sc = true) (h₀ : Within sc r₀ s₀) :
    OutWithin sc r₀ (execStartAgreement ch s₀) := by
  unfold execStartAgreement
  repeat' first
    | with_reducible assumption
    | ((with_reducible refine sub_trans ?_ hs); exact rfl)
    | with_reducible exact trivial
    | with_reducible refine within_ite ?_ (fun _ => ?_)
    | with_reducible refine within_ite_snd ?_ (fun _ => ?_)
    | with_reducible refine outWithin_next ?_
    | with_reducible refine outWithin_ite ?_ ?_
    | with_reducible exact outWithin_fault _
    | with_reducible refine State.kaStart_within _ _ ?_ ?_
    | with_reducible refine State.secAnswer_within _ _ _ ?_ ?_
    | with_reducible refine State.service_within _ _ _ _ _ (fun _ _ _ => ?_) ?_ ?_
    | split
    | (dsimp only)

theorem execRekeyNow_within {sc r₀ s₀} (ch : Fin 2) (hs : sub [.regs, .free, .cph, .hailA, .hailB, .sec] sc = true) (h₀ : Within sc r₀ s₀) :
    OutWithin sc r₀ (execRekeyNow ch s₀) := by
  unfold execRekeyNow
  repeat' first
    | with_reducible assumption
    | ((with_reducible refine sub_trans ?_ hs); exact rfl)
    | with_reducible exact trivial
    | with_reducible refine within_ite ?_ (fun _ => ?_)
    | with_reducible refine within_ite_snd ?_ (fun _ => ?_)
    | with_reducible refine outWithin_next ?_
    | with_reducible refine outWithin_ite ?_ ?_
    | with_reducible exact outWithin_fault _
    | with_reducible refine State.activate_within' _  ‹_› ?_ ?_
    | with_reducible refine State.kaStart_within _ _ ?_ ?_
    | with_reducible refine State.secAnswer_within _ _ _ ?_ ?_
    | with_reducible refine State.service_within _ _ _ _ _ (fun _ _ _ => ?_) ?_ ?_
    | split
    | (dsimp only)

theorem execEndSession_within {sc r₀ s₀} (ch : Fin 2) (hs : sub [.regs, .cph, .sec] sc = true) (h₀ : Within sc r₀ s₀) :
    OutWithin sc r₀ (execEndSession ch s₀) := by
  unfold execEndSession
  repeat' first
    | with_reducible assumption
    | ((with_reducible refine sub_trans ?_ hs); exact rfl)
    | with_reducible exact trivial
    | with_reducible refine within_ite ?_ (fun _ => ?_)
    | with_reducible refine within_ite_snd ?_ (fun _ => ?_)
    | with_reducible refine outWithin_next ?_
    | with_reducible refine outWithin_ite ?_ ?_
    | with_reducible exact outWithin_fault _
    | with_reducible refine State.sessDrop_within _ ?_ ?_
    | with_reducible refine State.secAnswer_within _ _ _ ?_ ?_
    | with_reducible refine State.refreshModes_within ?_ ?_
    | with_reducible refine State.cphErase_within _ _ ?_ ?_
    | with_reducible refine State.service_within _ _ _ _ _ (fun _ _ _ => ?_) ?_ ?_
    | split
    | (dsimp only)

theorem execLoadBerthManifest_within {sc r₀ s₀} (ch : Fin 2) (hs : sub [.regs, .mem, .coreA, .coreB, .berth, .boot, .hif, .ecc, .sec] sc = true) (h₀ : Within sc r₀ s₀) :
    OutWithin sc r₀ (execLoadBerthManifest ch s₀) := by
  unfold execLoadBerthManifest
  repeat' first
    | with_reducible assumption
    | ((with_reducible refine sub_trans ?_ hs); exact rfl)
    | with_reducible exact trivial
    | with_reducible refine within_ite ?_ (fun _ => ?_)
    | with_reducible refine within_ite_snd ?_ (fun _ => ?_)
    | with_reducible refine outWithin_next ?_
    | with_reducible refine outWithin_ite ?_ ?_
    | with_reducible exact outWithin_fault _
    | with_reducible refine State.loadBerth_within' _  ‹_› ?_ ?_
    | with_reducible refine State.loadBerth_within _ ?_ ?_
    | with_reducible refine State.secAnswer_within _ _ _ ?_ ?_
    | with_reducible refine State.service_within _ _ _ _ _ (fun _ _ _ => ?_) ?_ ?_
    | split
    | (dsimp only)

theorem State.setAnchor_within {sc r₀ s₀} (i : Fin 4) (a : AnchorSlot) (hs : sub [.sec] sc = true) (h₀ : Within sc r₀ s₀) :
    Within sc r₀ (State.setAnchor i a s₀) := by
  unfold State.setAnchor
  repeat' first
    | with_reducible assumption
    | ((with_reducible refine sub_trans ?_ hs); exact rfl)
    | with_reducible exact trivial
    | with_reducible refine within_ite ?_ (fun _ => ?_)
    | split
    | with_reducible refine Within.set_sec ?_ ?_
    | (dsimp only)

theorem State.anchorNote_within {sc r₀ s₀} (i : Fin 4) (hs : sub [.regs, .coreA, .coreB, .hif] sc = true) (h₀ : Within sc r₀ s₀) :
    Within sc r₀ (State.anchorNote i s₀) := by
  unfold State.anchorNote
  repeat' first
    | with_reducible assumption
    | ((with_reducible refine sub_trans ?_ hs); exact rfl)
    | with_reducible exact trivial
    | with_reducible refine within_ite ?_ (fun _ => ?_)
    | with_reducible refine State.logEvent_within _ _ _ _ ?_ ?_
    | split
    | (dsimp only)

theorem State.anchorSpoil_within {sc r₀ s₀} (i : Fin 4) (hs : sub [.free, .sec] sc = true) (h₀ : Within sc r₀ s₀) :
    Within sc r₀ (State.anchorSpoil i s₀) := by
  unfold State.anchorSpoil
  repeat' first
    | with_reducible assumption
    | ((with_reducible refine sub_trans ?_ hs); exact rfl)
    | with_reducible exact trivial
    | with_reducible refine within_ite ?_ (fun _ => ?_)
    | with_reducible refine State.setAnchor_within _ _ ?_ ?_
    | with_reducible refine State.drawBytes_within' _  ‹_› ?_ ?_
    | with_reducible refine State.drawBytes_within _ ?_ ?_
    | split
    | (dsimp only)

theorem execProgramAnchor_within {sc r₀ s₀} (ch : Fin 2) (writeOk : Bool) (hs : sub [.regs, .coreA, .coreB, .hif, .free, .sec] sc = true) (h₀ : Within sc r₀ s₀) :
    OutWithin sc r₀ (execProgramAnchor ch writeOk s₀) := by
  unfold execProgramAnchor
  repeat' first
    | with_reducible assumption
    | ((with_reducible refine sub_trans ?_ hs); exact rfl)
    | with_reducible exact trivial
    | with_reducible refine within_ite ?_ (fun _ => ?_)
    | with_reducible refine within_ite_snd ?_ (fun _ => ?_)
    | with_reducible refine outWithin_next ?_
    | with_reducible refine outWithin_ite ?_ ?_
    | with_reducible exact outWithin_fault _
    | with_reducible refine State.anchorSpoil_within _ ?_ ?_
    | with_reducible refine State.anchorNote_within _ ?_ ?_
    | with_reducible refine State.setAnchor_within _ _ ?_ ?_
    | with_reducible refine State.setChallenge_within _ _ ?_ ?_
    | with_reducible refine State.secAnswer_within _ _ _ ?_ ?_
    | with_reducible refine State.service_within _ _ _ _ _ (fun _ _ _ => ?_) ?_ ?_
    | split
    | (dsimp only)

theorem execRevokeAnchor_within {sc r₀ s₀} (ch : Fin 2) (writeOk : Bool) (hs : sub [.regs, .coreA, .coreB, .hif, .free, .sec] sc = true) (h₀ : Within sc r₀ s₀) :
    OutWithin sc r₀ (execRevokeAnchor ch writeOk s₀) := by
  unfold execRevokeAnchor
  repeat' first
    | with_reducible assumption
    | ((with_reducible refine sub_trans ?_ hs); exact rfl)
    | with_reducible exact trivial
    | with_reducible refine within_ite ?_ (fun _ => ?_)
    | with_reducible refine within_ite_snd ?_ (fun _ => ?_)
    | with_reducible refine outWithin_next ?_
    | with_reducible refine outWithin_ite ?_ ?_
    | with_reducible exact outWithin_fault _
    | with_reducible refine State.anchorSpoil_within _ ?_ ?_
    | with_reducible refine State.anchorNote_within _ ?_ ?_
    | with_reducible refine State.setAnchor_within _ _ ?_ ?_
    | with_reducible refine State.setChallenge_within _ _ ?_ ?_
    | with_reducible refine State.secAnswer_within _ _ _ ?_ ?_
    | with_reducible refine State.service_within _ _ _ _ _ (fun _ _ _ => ?_) ?_ ?_
    | split
    | (dsimp only)

theorem execDebugUnlock_within {sc r₀ s₀} (ch : Fin 2) (hs : sub [.regs, .mem, .coreA, .coreB, .qc, .claims, .hws, .hif, .pwr, .free, .cph, .hailA, .hailB, .log, .ecc, .sec] sc = true) (h₀ : Within sc r₀ s₀) :
    OutWithin sc r₀ (execDebugUnlock ch s₀) := by
  unfold execDebugUnlock
  repeat' first
    | with_reducible assumption
    | ((with_reducible refine sub_trans ?_ hs); exact rfl)
    | with_reducible exact trivial
    | with_reducible refine within_ite ?_ (fun _ => ?_)
    | with_reducible refine within_ite_snd ?_ (fun _ => ?_)
    | with_reducible refine outWithin_next ?_
    | with_reducible refine outWithin_ite ?_ ?_
    | with_reducible exact outWithin_fault _
    | with_reducible refine State.setChallenge_within _ _ ?_ ?_
    | with_reducible refine State.secZeroise_within _ ?_ ?_
    | with_reducible refine State.secAnswer_within _ _ _ ?_ ?_
    | with_reducible refine State.setFlag_within _ _ _ ?_ ?_
    | with_reducible refine State.service_within _ _ _ _ _ (fun _ _ _ => ?_) ?_ ?_
    | split
    | (dsimp only)

theorem execSetTimers_within {sc r₀ s₀} (ch : Fin 2) (hs : sub [.regs, .sec] sc = true) (h₀ : Within sc r₀ s₀) :
    OutWithin sc r₀ (execSetTimers ch s₀) := by
  unfold execSetTimers
  repeat' first
    | with_reducible assumption
    | ((with_reducible refine sub_trans ?_ hs); exact rfl)
    | with_reducible exact trivial
    | with_reducible refine within_ite ?_ (fun _ => ?_)
    | with_reducible refine within_ite_snd ?_ (fun _ => ?_)
    | with_reducible refine outWithin_next ?_
    | with_reducible refine outWithin_ite ?_ ?_
    | with_reducible exact outWithin_fault _
    | with_reducible refine State.setChallenge_within _ _ ?_ ?_
    | with_reducible refine State.secAnswer_within _ _ _ ?_ ?_
    | with_reducible refine State.setReg_within _ _ ?_ ?_
    | with_reducible refine forN_within _ _ ?_ ?_
    | with_reducible refine State.service_within _ _ _ _ _ (fun _ _ _ => ?_) ?_ ?_
    | with_reducible refine forN_within (fun _ _ _ => ?_) ?_
    | split
    | (dsimp only)

theorem State.secGo_within {sc r₀ s₀} (ch : Fin 2) (hs : sub [.regs, .sec] sc = true) (h₀ : Within sc r₀ s₀) :
    Within sc r₀ (State.secGo ch s₀) := by
  unfold State.secGo
  repeat' first
    | with_reducible assumption
    | ((with_reducible refine sub_trans ?_ hs); exact rfl)
    | with_reducible exact trivial
    | with_reducible refine within_ite ?_ (fun _ => ?_)
    | with_reducible refine State.secAnswer_within _ _ _ ?_ ?_
    | with_reducible refine State.setFlag_within _ _ _ ?_ ?_
    | split
    | (dsimp only)

theorem execSecMailboxResponseReady_within {sc r₀ s₀} (ch : Fin 2) (hs : sub [.regs, .mem, .coreA, .coreB, .hif, .ecc, .sec] sc = true) (h₀ : Within sc r₀ s₀) :
    OutWithin sc r₀ (execSecMailboxResponseReady ch s₀) := by
  unfold execSecMailboxResponseReady
  repeat' first
    | with_reducible assumption
    | ((with_reducible refine sub_trans ?_ hs); exact rfl)
    | with_reducible exact trivial
    | with_reducible refine within_ite ?_ (fun _ => ?_)
    | with_reducible refine outWithin_next ?_
    | with_reducible refine outWithin_ite ?_ ?_
    | with_reducible exact outWithin_fault _
    | with_reducible refine State.raiseIrq_within _ ?_ ?_
    | with_reducible refine State.setBytes_within _ _ ?_ ?_
    | with_reducible refine State.eventBoth_within _ _ ?_ ?_
    | with_reducible refine State.setFlag_within _ _ _ ?_ ?_
    | with_reducible refine State.setFld_within _ _ _ ?_ ?_
    | split
    | with_reducible refine Within.set_sec ?_ ?_
    | (dsimp only)

theorem State.bootHalt_within {sc r₀ s₀} (code : Nat) (hs : sub [.regs] sc = true) (h₀ : Within sc r₀ s₀) :
    Within sc r₀ (State.bootHalt code s₀) := by
  unfold State.bootHalt
  repeat' first
    | with_reducible assumption
    | ((with_reducible refine sub_trans ?_ hs); exact rfl)
    | with_reducible exact trivial
    | with_reducible refine within_ite ?_ (fun _ => ?_)
    | with_reducible refine State.setFld_within _ _ _ ?_ ?_
    | split
    | (dsimp only)

theorem execEnclaveBoot_within {sc r₀ s₀} (code : Byte) (units : List (Fin 26)) (hs : sub [.regs, .coreA, .coreB, .hif, .free, .cph, .hailA, .hailB, .log, .sec] sc = true) (h₀ : Within sc r₀ s₀) :
    OutWithin sc r₀ (execEnclaveBoot code units s₀) := by
  unfold execEnclaveBoot
  repeat' first
    | with_reducible assumption
    | ((with_reducible refine sub_trans ?_ hs); exact rfl)
    | with_reducible exact trivial
    | with_reducible refine within_ite ?_ (fun _ => ?_)
    | with_reducible refine outWithin_next ?_
    | with_reducible refine outWithin_ite ?_ ?_
    | with_reducible exact outWithin_fault _
    | with_reducible refine State.bootHalt_within _ ?_ ?_
    | with_reducible refine State.unitKatFail_within _ ?_ ?_
    | with_reducible refine State.secError_within _ ?_ ?_
    | with_reducible refine State.draw_within'  ‹_› ?_ ?_
    | with_reducible refine State.draw_within ?_ ?_
    | with_reducible refine State.setFlag_within _ _ _ ?_ ?_
    | with_reducible refine State.setFld_within _ _ _ ?_ ?_
    | with_reducible refine within_foldl (fun _ _ _ => ?_) ?_
    | with_reducible refine within_foldl_snd (fun _ _ _ => ?_) ?_
    | split
    | with_reducible refine Within.set_sec ?_ ?_
    | (dsimp only)

theorem execZeroizeNQualified_within {sc r₀ s₀}  (hs : sub [.regs, .mem, .coreA, .coreB, .qc, .claims, .hws, .hif, .pins, .pwr, .free, .cph, .hailA, .hailB, .log, .ecc, .sec] sc = true) (h₀ : Within sc r₀ s₀) :
    OutWithin sc r₀ (execZeroizeNQualified s₀) := by
  unfold execZeroizeNQualified
  repeat' first
    | with_reducible assumption
    | ((with_reducible refine sub_trans ?_ hs); exact rfl)
    | with_reducible exact trivial
    | with_reducible refine within_ite ?_ (fun _ => ?_)
    | with_reducible refine outWithin_next ?_
    | with_reducible refine outWithin_ite ?_ ?_
    | with_reducible exact outWithin_fault _
    | with_reducible refine State.secZeroise_within _ ?_ ?_
    | with_reducible refine State.setFlag_within _ _ _ ?_ ?_
    | split
    | with_reducible refine Within.set_pins ?_ ?_
    | (dsimp only)

theorem execZeroiseComplete_within {sc r₀ s₀} (identityOk : Bool) (hs : sub [.regs, .coreA, .coreB, .hif, .pins, .cph, .hailA, .hailB, .sec] sc = true) (h₀ : Within sc r₀ s₀) :
    OutWithin sc r₀ (execZeroiseComplete identityOk s₀) := by
  unfold execZeroiseComplete
  repeat' first
    | with_reducible assumption
    | ((with_reducible refine sub_trans ?_ hs); exact rfl)
    | with_reducible exact trivial
    | with_reducible refine within_ite ?_ (fun _ => ?_)
    | with_reducible refine outWithin_next ?_
    | with_reducible refine outWithin_ite ?_ ?_
    | with_reducible exact outWithin_fault _
    | with_reducible refine State.secError_within _ ?_ ?_
    | with_reducible refine State.cphUnrec_within _ _ _ ?_ ?_
    | with_reducible refine State.setFlag_within _ _ _ ?_ ?_
    | with_reducible refine State.setFld_within _ _ _ ?_ ?_
    | split
    | with_reducible refine Within.set_pins ?_ ?_
    | with_reducible refine Within.set_sec ?_ ?_
    | (dsimp only)

theorem execSecErrorEntry_within {sc r₀ s₀} (code : Byte) (hs : sub [.regs, .coreA, .coreB, .hif, .cph, .hailA, .hailB, .sec] sc = true) (h₀ : Within sc r₀ s₀) :
    OutWithin sc r₀ (execSecErrorEntry code s₀) := by
  unfold execSecErrorEntry
  repeat' first
    | with_reducible assumption
    | ((with_reducible refine sub_trans ?_ hs); exact rfl)
    | with_reducible exact trivial
    | with_reducible refine within_ite ?_ (fun _ => ?_)
    | with_reducible refine outWithin_next ?_
    | with_reducible refine outWithin_ite ?_ ?_
    | with_reducible exact outWithin_fault _
    | with_reducible refine State.secError_within _ ?_ ?_
    | split
    | (dsimp only)

end Sys2Proof.Laws
end

