-- ==== Sys2Proof/Laws/Logbook.lean ====
section
/-! SUPPORT. The scope of each operation of Sys2Proof/Machine/Logbook.lean. -/
namespace Sys2Proof.Laws
open Sys2Proof.Machine Sys2Proof.Safety

theorem State.logErase_within {sc r₀ s₀} (off : Nat) (hs : sub [.regs, .flash, .coreA, .coreB] sc = true) (h₀ : Within sc r₀ s₀) :
    Within sc r₀ (State.logErase off s₀) := by
  unfold State.logErase
  repeat' first
    | with_reducible assumption
    | ((with_reducible refine sub_trans ?_ hs); exact rfl)
    | with_reducible exact trivial
    | with_reducible refine within_ite ?_ (fun _ => ?_)
    | with_reducible refine State.flashErase_within _ _ ?_ ?_
    | with_reducible refine State.addCnt_within _ _ ?_ ?_
    | split
    | (dsimp only)

theorem State.totAdd_within {sc r₀ s₀} (r : List Byte) (hs : sub [.log] sc = true) (h₀ : Within sc r₀ s₀) :
    Within sc r₀ (State.totAdd r s₀) := by
  unfold State.totAdd
  repeat' first
    | with_reducible assumption
    | ((with_reducible refine sub_trans ?_ hs); exact rfl)
    | with_reducible exact trivial
    | with_reducible refine within_ite ?_ (fun _ => ?_)
    | with_reducible refine State.noteTotal_within _ _ ?_ ?_
    | with_reducible refine within_foldl (fun _ _ _ => ?_) ?_
    | with_reducible refine within_foldl_snd (fun _ _ _ => ?_) ?_
    | split
    | (dsimp only)

theorem State.formTotals_within {sc r₀ s₀}  (hs : sub [.regs, .coreA, .coreB, .hif, .log] sc = true) (h₀ : Within sc r₀ s₀) :
    Within sc r₀ (State.formTotals s₀) := by
  unfold State.formTotals
  repeat' first
    | with_reducible assumption
    | ((with_reducible refine sub_trans ?_ hs); exact rfl)
    | with_reducible exact trivial
    | with_reducible refine within_ite ?_ (fun _ => ?_)
    | with_reducible refine State.logStage_within _ _ ?_ ?_
    | with_reducible refine forN_within _ _ ?_ ?_
    | with_reducible refine forN_within (fun _ _ _ => ?_) ?_
    | split
    | with_reducible refine Within.set_log ?_ ?_
    | (dsimp only)

theorem State.setAcc_within {sc r₀ s₀} (k : Nat) (v : Nat) (hs : sub [.log] sc = true) (h₀ : Within sc r₀ s₀) :
    Within sc r₀ (State.setAcc k v s₀) := by
  unfold State.setAcc
  repeat' first
    | with_reducible assumption
    | ((with_reducible refine sub_trans ?_ hs); exact rfl)
    | with_reducible exact trivial
    | with_reducible refine within_ite ?_ (fun _ => ?_)
    | split
    | with_reducible refine Within.set_log ?_ ?_
    | (dsimp only)

theorem State.addAcc_within {sc r₀ s₀} (k : Nat) (v : Nat) (hs : sub [.log] sc = true) (h₀ : Within sc r₀ s₀) :
    Within sc r₀ (State.addAcc k v s₀) := by
  unfold State.addAcc
  repeat' first
    | with_reducible assumption
    | ((with_reducible refine sub_trans ?_ hs); exact rfl)
    | with_reducible exact trivial
    | with_reducible refine within_ite ?_ (fun _ => ?_)
    | with_reducible refine State.setAcc_within _ _ ?_ ?_
    | split
    | (dsimp only)

theorem State.accStat_within {sc r₀ s₀} (k : Nat) (v : Nat) (hs : sub [.log] sc = true) (h₀ : Within sc r₀ s₀) :
    Within sc r₀ (State.accStat k v s₀) := by
  unfold State.accStat
  repeat' first
    | with_reducible assumption
    | ((with_reducible refine sub_trans ?_ hs); exact rfl)
    | with_reducible exact trivial
    | with_reducible refine within_ite ?_ (fun _ => ?_)
    | with_reducible refine State.addAcc_within _ _ ?_ ?_
    | with_reducible refine State.setAcc_within _ _ ?_ ?_
    | split
    | (dsimp only)

theorem State.berSecond_within {sc r₀ s₀} (c : Carrier) (pol : Nat) (bits : Nat) (errs : Nat) (hs : sub [.log] sc = true) (h₀ : Within sc r₀ s₀) :
    Within sc r₀ (State.berSecond c pol bits errs s₀) := by
  unfold State.berSecond
  repeat' first
    | with_reducible assumption
    | ((with_reducible refine sub_trans ?_ hs); exact rfl)
    | with_reducible exact trivial
    | with_reducible refine within_ite ?_ (fun _ => ?_)
    | with_reducible refine State.addAcc_within _ _ ?_ ?_
    | with_reducible refine State.noteTotal_within _ _ ?_ ?_
    | split
    | (dsimp only)

theorem State.secondCarrier_within {sc r₀ s₀} (c : Carrier) (hs : sub [.log] sc = true) (h₀ : Within sc r₀ s₀) :
    Within sc r₀ (State.secondCarrier c s₀) := by
  unfold State.secondCarrier
  repeat' first
    | with_reducible assumption
    | ((with_reducible refine sub_trans ?_ hs); exact rfl)
    | with_reducible exact trivial
    | with_reducible refine within_ite ?_ (fun _ => ?_)
    | with_reducible refine State.berSecond_within _ _ _ _ ?_ ?_
    | with_reducible refine State.addAcc_within _ _ ?_ ?_
    | with_reducible refine State.setAcc_within _ _ ?_ ?_
    | split
    | (dsimp only)

theorem State.secondSamples_within {sc r₀ s₀}  (hs : sub [.log] sc = true) (h₀ : Within sc r₀ s₀) :
    Within sc r₀ (State.secondSamples s₀) := by
  unfold State.secondSamples
  repeat' first
    | with_reducible assumption
    | ((with_reducible refine sub_trans ?_ hs); exact rfl)
    | with_reducible exact trivial
    | with_reducible refine within_ite ?_ (fun _ => ?_)
    | with_reducible refine State.secondCarrier_within _ ?_ ?_
    | with_reducible refine State.accStat_within _ _ ?_ ?_
    | with_reducible refine State.noteTotal_within _ _ ?_ ?_
    | split
    | with_reducible refine Within.set_log ?_ ?_
    | (dsimp only)

theorem State.capCarrier_within {sc r₀ s₀} (c : Carrier) (hs : sub [.log] sc = true) (h₀ : Within sc r₀ s₀) :
    Within sc r₀ (State.capCarrier c s₀) := by
  unfold State.capCarrier
  repeat' first
    | with_reducible assumption
    | ((with_reducible refine sub_trans ?_ hs); exact rfl)
    | with_reducible exact trivial
    | with_reducible refine within_ite ?_ (fun _ => ?_)
    | with_reducible refine State.setAcc_within _ _ ?_ ?_
    | split
    | (dsimp only)

theorem State.secondDue_within {sc r₀ s₀}  (hs : sub [.log] sc = true) (h₀ : Within sc r₀ s₀) :
    Within sc r₀ (State.secondDue s₀) := by
  unfold State.secondDue
  repeat' first
    | with_reducible assumption
    | ((with_reducible refine sub_trans ?_ hs); exact rfl)
    | with_reducible exact trivial
    | with_reducible refine within_ite ?_ (fun _ => ?_)
    | with_reducible refine State.secondSamples_within ?_ ?_
    | split
    | with_reducible refine Within.set_log ?_ ?_
    | (dsimp only)

theorem State.logCapture_within {sc r₀ s₀}  (hs : sub [.log] sc = true) (h₀ : Within sc r₀ s₀) :
    Within sc r₀ (State.logCapture s₀) := by
  unfold State.logCapture
  repeat' first
    | with_reducible assumption
    | ((with_reducible refine sub_trans ?_ hs); exact rfl)
    | with_reducible exact trivial
    | with_reducible refine within_ite ?_ (fun _ => ?_)
    | with_reducible refine State.secondDue_within ?_ ?_
    | with_reducible refine State.capCarrier_within _ ?_ ?_
    | split
    | with_reducible refine Within.set_log ?_ ?_
    | (dsimp only)

theorem State.iterTotals_within {sc r₀ s₀} (c : Carrier) (hs : sub [.log] sc = true) (h₀ : Within sc r₀ s₀) :
    Within sc r₀ (State.iterTotals c s₀) := by
  unfold State.iterTotals
  repeat' first
    | with_reducible assumption
    | ((with_reducible refine sub_trans ?_ hs); exact rfl)
    | with_reducible exact trivial
    | with_reducible refine within_ite ?_ (fun _ => ?_)
    | with_reducible refine State.noteTotal_within _ _ ?_ ?_
    | with_reducible refine forN_within _ _ ?_ ?_
    | with_reducible refine forN_within (fun _ _ _ => ?_) ?_
    | split
    | (dsimp only)

theorem execLogHourlySummary_within {sc r₀ s₀}  (hs : sub [.regs, .coreA, .coreB, .hif, .free, .log] sc = true) (h₀ : Within sc r₀ s₀) :
    OutWithin sc r₀ (execLogHourlySummary s₀) := by
  unfold execLogHourlySummary
  repeat' first
    | with_reducible assumption
    | ((with_reducible refine sub_trans ?_ hs); exact rfl)
    | with_reducible exact trivial
    | with_reducible refine within_ite ?_ (fun _ => ?_)
    | with_reducible refine outWithin_next ?_
    | with_reducible refine outWithin_ite ?_ ?_
    | with_reducible exact outWithin_fault _
    | with_reducible refine State.iterTotals_within _ ?_ ?_
    | with_reducible refine State.formTotals_within ?_ ?_
    | with_reducible refine State.logStage_within _ _ ?_ ?_
    | with_reducible refine State.noteTotal_within _ _ ?_ ?_
    | with_reducible refine State.draw_within'  ‹_› ?_ ?_
    | with_reducible refine State.draw_within ?_ ?_
    | split
    | with_reducible refine Within.set_log ?_ ?_
    | (dsimp only)

theorem State.formEvents_within {sc r₀ s₀}  (hs : sub [.regs, .coreA, .coreB, .hif, .log] sc = true) (h₀ : Within sc r₀ s₀) :
    Within sc r₀ (State.formEvents s₀) := by
  unfold State.formEvents
  repeat' first
    | with_reducible assumption
    | ((with_reducible refine sub_trans ?_ hs); exact rfl)
    | with_reducible exact trivial
    | with_reducible refine within_ite ?_ (fun _ => ?_)
    | with_reducible refine State.logStage_within _ _ ?_ ?_
    | split
    | with_reducible refine Within.set_log ?_ ?_
    | (dsimp only)

theorem State.logLedger_within {sc r₀ s₀} (sev : Nat) (entry : List Byte) (hs : sub [.regs, .coreA, .coreB, .hif, .log] sc = true) (h₀ : Within sc r₀ s₀) :
    Within sc r₀ (State.logLedger sev entry s₀) := by
  unfold State.logLedger
  repeat' first
    | with_reducible assumption
    | ((with_reducible refine sub_trans ?_ hs); exact rfl)
    | with_reducible exact trivial
    | with_reducible refine within_ite ?_ (fun _ => ?_)
    | with_reducible refine State.formEvents_within ?_ ?_
    | with_reducible refine State.addAcc_within _ _ ?_ ?_
    | split
    | with_reducible refine Within.set_log ?_ ?_
    | (dsimp only)

theorem execLogEventEntryTimer_within {sc r₀ s₀}  (hs : sub [.regs, .coreA, .coreB, .hif, .log] sc = true) (h₀ : Within sc r₀ s₀) :
    OutWithin sc r₀ (execLogEventEntryTimer s₀) := by
  unfold execLogEventEntryTimer
  repeat' first
    | with_reducible assumption
    | ((with_reducible refine sub_trans ?_ hs); exact rfl)
    | with_reducible exact trivial
    | with_reducible refine within_ite ?_ (fun _ => ?_)
    | with_reducible refine outWithin_next ?_
    | with_reducible refine outWithin_ite ?_ ?_
    | with_reducible exact outWithin_fault _
    | with_reducible refine State.formEvents_within ?_ ?_
    | split
    | (dsimp only)

theorem State.logPlace_within {sc r₀ s₀} (e : LogEntry) (hs : sub [.regs, .flash, .coreA, .coreB, .log] sc = true) (h₀ : Within sc r₀ s₀) :
    Within sc r₀ (State.logPlace e s₀).2 := by
  unfold State.logPlace
  repeat' first
    | with_reducible assumption
    | ((with_reducible refine sub_trans ?_ hs); exact rfl)
    | with_reducible exact trivial
    | with_reducible refine within_ite ?_ (fun _ => ?_)
    | with_reducible refine within_ite_snd ?_ (fun _ => ?_)
    | with_reducible refine State.logErase_within _ ?_ ?_
    | split
    | with_reducible refine Within.set_log ?_ ?_
    | (dsimp only)
theorem State.logPlace_within' {sc r₀ s₀ t} {x0} (e : LogEntry) (he : State.logPlace e s₀ = (x0, t)) (hs : sub [.regs, .flash, .coreA, .coreB, .log] sc = true) (h₀ : Within sc r₀ s₀) : Within sc r₀ t := by
  have h := State.logPlace_within e hs h₀
  rw [he] at h
  exact h

theorem State.logAdvance_within {sc r₀ s₀} (area : Nat) (hs : sub [.regs, .flash, .coreA, .coreB, .log] sc = true) (h₀ : Within sc r₀ s₀) :
    Within sc r₀ (State.logAdvance area s₀) := by
  unfold State.logAdvance
  repeat' first
    | with_reducible assumption
    | ((with_reducible refine sub_trans ?_ hs); exact rfl)
    | with_reducible exact trivial
    | with_reducible refine within_ite ?_ (fun _ => ?_)
    | with_reducible refine State.logErase_within _ ?_ ?_
    | split
    | with_reducible refine Within.set_log ?_ ?_
    | (dsimp only)

theorem State.flushDone_within {sc r₀ s₀}  (hs : sub [.regs, .mem, .coreA, .coreB, .qc, .hws, .hif, .pwr, .free, .log, .ecc] sc = true) (h₀ : Within sc r₀ s₀) :
    Within sc r₀ (State.flushDone s₀) := by
  unfold State.flushDone
  repeat' first
    | with_reducible assumption
    | ((with_reducible refine sub_trans ?_ hs); exact rfl)
    | with_reducible exact trivial
    | with_reducible refine within_ite ?_ (fun _ => ?_)
    | with_reducible refine State.completeOp_within _ _ _ _ _ ?_ ?_
    | split
    | (dsimp only)

theorem State.logSlot_within {sc r₀ s₀} (e : LogEntry) (hs : sub [.log] sc = true) (h₀ : Within sc r₀ s₀) :
    Within sc r₀ (State.logSlot e s₀) := by
  unfold State.logSlot
  repeat' first
    | with_reducible assumption
    | ((with_reducible refine sub_trans ?_ hs); exact rfl)
    | with_reducible exact trivial
    | with_reducible refine within_ite ?_ (fun _ => ?_)
    | split
    | with_reducible refine Within.set_log ?_ ?_
    | (dsimp only)

theorem execLogEntryWrite_within {sc r₀ s₀} (readBackOk : Bool) (hs : sub [.regs, .mem, .flash, .coreA, .coreB, .qc, .hws, .hif, .pwr, .free, .log, .ecc] sc = true) (h₀ : Within sc r₀ s₀) :
    OutWithin sc r₀ (execLogEntryWrite readBackOk s₀) := by
  unfold execLogEntryWrite
  repeat' first
    | with_reducible assumption
    | ((with_reducible refine sub_trans ?_ hs); exact rfl)
    | with_reducible exact trivial
    | with_reducible refine within_ite ?_ (fun _ => ?_)
    | with_reducible refine outWithin_next ?_
    | with_reducible refine outWithin_ite ?_ ?_
    | with_reducible exact outWithin_fault _
    | with_reducible refine State.logSlot_within _ ?_ ?_
    | with_reducible refine State.flushDone_within ?_ ?_
    | with_reducible refine State.logAdvance_within _ ?_ ?_
    | with_reducible refine State.logPlace_within' _  ‹_› ?_ ?_
    | with_reducible refine State.logPlace_within _ ?_ ?_
    | with_reducible refine State.logShow_within ?_ ?_
    | with_reducible refine State.logEvent_within _ _ _ _ ?_ ?_
    | with_reducible refine State.drawBytes_within' _  ‹_› ?_ ?_
    | with_reducible refine State.drawBytes_within _ ?_ ?_
    | with_reducible refine State.flashProgram_within _ _ ?_ ?_
    | with_reducible refine State.addCnt_within _ _ ?_ ?_
    | with_reducible refine State.setReg64_within _ _ ?_ ?_
    | with_reducible refine State.setFlag_within _ _ _ ?_ ?_
    | with_reducible refine State.setFld_within _ _ _ ?_ ?_
    | split
    | with_reducible refine Within.set_log ?_ ?_
    | (dsimp only)

theorem State.resumeTotals_within {sc r₀ s₀} (best : Option (Bool × Nat × List Byte)) (hs : sub [.regs, .coreA, .coreB, .hif, .log] sc = true) (h₀ : Within sc r₀ s₀) :
    Within sc r₀ (State.resumeTotals best s₀) := by
  unfold State.resumeTotals
  repeat' first
    | with_reducible assumption
    | ((with_reducible refine sub_trans ?_ hs); exact rfl)
    | with_reducible exact trivial
    | with_reducible refine within_ite ?_ (fun _ => ?_)
    | with_reducible refine State.totAdd_within _ ?_ ?_
    | with_reducible refine State.logEvent_within _ _ _ _ ?_ ?_
    | with_reducible refine State.setFlag_within _ _ _ ?_ ?_
    | split
    | with_reducible refine Within.set_log ?_ ?_
    | (dsimp only)

theorem State.bootEntry_within {sc r₀ s₀}  (hs : sub [.regs, .coreA, .coreB, .hif, .free, .log] sc = true) (h₀ : Within sc r₀ s₀) :
    Within sc r₀ (State.bootEntry s₀) := by
  unfold State.bootEntry
  repeat' first
    | with_reducible assumption
    | ((with_reducible refine sub_trans ?_ hs); exact rfl)
    | with_reducible exact trivial
    | with_reducible refine within_ite ?_ (fun _ => ?_)
    | with_reducible refine State.logStage_within _ _ ?_ ?_
    | with_reducible refine State.drawBytes_within' _  ‹_› ?_ ?_
    | with_reducible refine State.drawBytes_within _ ?_ ?_
    | split
    | with_reducible refine Within.set_log ?_ ?_
    | (dsimp only)

theorem execLogRecovery_within {sc r₀ s₀}  (hs : sub [.regs, .coreA, .coreB, .hif, .free, .log] sc = true) (h₀ : Within sc r₀ s₀) :
    OutWithin sc r₀ (execLogRecovery s₀) := by
  unfold execLogRecovery
  repeat' first
    | with_reducible assumption
    | ((with_reducible refine sub_trans ?_ hs); exact rfl)
    | with_reducible exact trivial
    | with_reducible refine within_ite ?_ (fun _ => ?_)
    | with_reducible refine outWithin_next ?_
    | with_reducible refine outWithin_ite ?_ ?_
    | with_reducible exact outWithin_fault _
    | with_reducible refine State.bootEntry_within ?_ ?_
    | with_reducible refine State.resumeTotals_within _ ?_ ?_
    | with_reducible refine State.setReg64_within _ _ ?_ ?_
    | with_reducible refine State.setFld_within _ _ _ ?_ ?_
    | with_reducible refine within_foldl (fun _ _ _ => ?_) ?_
    | with_reducible refine within_foldl_snd (fun _ _ _ => ?_) ?_
    | split
    | with_reducible refine Within.set_log ?_ ?_
    | (dsimp only)

theorem State.logEnable_within {sc r₀ s₀}  (hs : sub [.regs] sc = true) (h₀ : Within sc r₀ s₀) :
    Within sc r₀ (State.logEnable s₀) := by
  unfold State.logEnable
  repeat' first
    | with_reducible assumption
    | ((with_reducible refine sub_trans ?_ hs); exact rfl)
    | with_reducible exact trivial
    | with_reducible refine within_ite ?_ (fun _ => ?_)
    | with_reducible refine State.setFld_within _ _ _ ?_ ?_
    | split
    | (dsimp only)

theorem execLgFlush_within {sc r₀ s₀}  (hs : sub [.regs, .mem, .coreA, .coreB, .qc, .hws, .hif, .pwr, .free, .log, .ecc] sc = true) (h₀ : Within sc r₀ s₀) :
    OutWithin sc r₀ (execLgFlush s₀) := by
  unfold execLgFlush
  repeat' first
    | with_reducible assumption
    | ((with_reducible refine sub_trans ?_ hs); exact rfl)
    | with_reducible exact trivial
    | with_reducible refine within_ite ?_ (fun _ => ?_)
    | with_reducible refine within_ite_snd ?_ (fun _ => ?_)
    | with_reducible refine outWithin_next ?_
    | with_reducible refine outWithin_ite ?_ ?_
    | with_reducible exact outWithin_fault _
    | with_reducible refine State.formEvents_within ?_ ?_
    | with_reducible refine State.formTotals_within ?_ ?_
    | with_reducible refine State.runCommand_within _ _ _ (fun _ _ _ => ?_) ?_ ?_
    | split
    | (dsimp only)

theorem State.lgRead_within {sc r₀ s₀} (unit : Nat) (arg0 : Nat) (arg1 : Nat) (arg2 : Nat) (hs : sub [.regs, .mem, .ecc] sc = true) (h₀ : Within sc r₀ s₀) :
    Within sc r₀ (State.lgRead unit arg0 arg1 arg2 s₀).2 := by
  unfold State.lgRead
  repeat' first
    | with_reducible assumption
    | ((with_reducible refine sub_trans ?_ hs); exact rfl)
    | with_reducible exact trivial
    | with_reducible refine within_ite ?_ (fun _ => ?_)
    | with_reducible refine within_ite_snd ?_ (fun _ => ?_)
    | with_reducible refine State.setBytes_within _ _ ?_ ?_
    | split
    | (dsimp only)
theorem State.lgRead_within' {sc r₀ s₀ t} {x0} (unit : Nat) (arg0 : Nat) (arg1 : Nat) (arg2 : Nat) (he : State.lgRead unit arg0 arg1 arg2 s₀ = (x0, t)) (hs : sub [.regs, .mem, .ecc] sc = true) (h₀ : Within sc r₀ s₀) : Within sc r₀ t := by
  have h := State.lgRead_within unit arg0 arg1 arg2 hs h₀
  rw [he] at h
  exact h

theorem execLgRead_within {sc r₀ s₀}  (hs : sub [.regs, .mem, .coreA, .coreB, .qc, .hws, .hif, .pwr, .free, .log, .ecc] sc = true) (h₀ : Within sc r₀ s₀) :
    OutWithin sc r₀ (execLgRead s₀) := by
  unfold execLgRead
  repeat' first
    | with_reducible assumption
    | ((with_reducible refine sub_trans ?_ hs); exact rfl)
    | with_reducible exact trivial
    | with_reducible refine within_ite ?_ (fun _ => ?_)
    | with_reducible refine within_ite_snd ?_ (fun _ => ?_)
    | with_reducible refine outWithin_next ?_
    | with_reducible refine outWithin_ite ?_ ?_
    | with_reducible exact outWithin_fault _
    | with_reducible refine State.lgRead_within' _ _ _ _  ‹_› ?_ ?_
    | with_reducible refine State.lgRead_within _ _ _ _ ?_ ?_
    | with_reducible refine State.runCommand_within _ _ _ (fun _ _ _ => ?_) ?_ ?_
    | split
    | (dsimp only)

theorem execLgNote_within {sc r₀ s₀}  (hs : sub [.regs, .mem, .coreA, .coreB, .qc, .hws, .hif, .pwr, .free, .log, .ecc] sc = true) (h₀ : Within sc r₀ s₀) :
    OutWithin sc r₀ (execLgNote s₀) := by
  unfold execLgNote
  repeat' first
    | with_reducible assumption
    | ((with_reducible refine sub_trans ?_ hs); exact rfl)
    | with_reducible exact trivial
    | with_reducible refine within_ite ?_ (fun _ => ?_)
    | with_reducible refine within_ite_snd ?_ (fun _ => ?_)
    | with_reducible refine outWithin_next ?_
    | with_reducible refine outWithin_ite ?_ ?_
    | with_reducible exact outWithin_fault _
    | with_reducible refine State.logStage_within _ _ ?_ ?_
    | with_reducible refine State.runCommand_within _ _ _ (fun _ _ _ => ?_) ?_ ?_
    | split
    | (dsimp only)

theorem execObsLogEngineFault_within {sc r₀ s₀} (log : Bool) (hs : sub [.regs, .coreA, .coreB, .hif, .free, .log, .obs] sc = true) (h₀ : Within sc r₀ s₀) :
    OutWithin sc r₀ (execObsLogEngineFault log s₀) := by
  unfold execObsLogEngineFault
  repeat' first
    | with_reducible assumption
    | ((with_reducible refine sub_trans ?_ hs); exact rfl)
    | with_reducible exact trivial
    | with_reducible refine within_ite ?_ (fun _ => ?_)
    | with_reducible refine outWithin_next ?_
    | with_reducible refine outWithin_ite ?_ ?_
    | with_reducible exact outWithin_fault _
    | with_reducible refine State.logFault_within _ _ _ ?_ ?_
    | with_reducible refine State.setFlag_within _ _ _ ?_ ?_
    | split
    | with_reducible refine Within.set_log ?_ ?_
    | with_reducible refine Within.set_obs ?_ ?_
    | (dsimp only)

end Sys2Proof.Laws
end

