-- ==== Sys2Proof/Laws/Hif.lean ====
section
/-! SUPPORT. The scope of each operation of Sys2Proof/Machine/Hif.lean. -/
namespace Sys2Proof.Laws
open Sys2Proof.Machine Sys2Proof.Safety

theorem State.hifErr_within {sc r₀ s₀} (bit : Nat) (addr : Nat) (i2c : Bool) (hs : sub [.regs, .coreA, .coreB, .hif] sc = true) (h₀ : Within sc r₀ s₀) :
    Within sc r₀ (State.hifErr bit addr i2c s₀) := by
  unfold State.hifErr
  repeat' first
    | with_reducible assumption
    | ((with_reducible refine sub_trans ?_ hs); exact rfl)
    | with_reducible exact trivial
    | with_reducible refine within_ite ?_ (fun _ => ?_)
    | with_reducible refine State.raiseIrq_within _ ?_ ?_
    | with_reducible refine State.addCnt_within _ _ ?_ ?_
    | with_reducible refine State.setReg_within _ _ ?_ ?_
    | split
    | (dsimp only)

theorem State.ledgerPut_within {sc r₀ s₀} (e : LedgerEvent) (hs : sub [.regs, .mem, .coreA, .coreB, .hif, .log, .ecc] sc = true) (h₀ : Within sc r₀ s₀) :
    Within sc r₀ (State.ledgerPut e s₀) := by
  unfold State.ledgerPut
  repeat' first
    | with_reducible assumption
    | ((with_reducible refine sub_trans ?_ hs); exact rfl)
    | with_reducible exact trivial
    | with_reducible refine within_ite ?_ (fun _ => ?_)
    | with_reducible refine State.logLedger_within _ _ ?_ ?_
    | with_reducible refine State.raiseIrq_within _ ?_ ?_
    | with_reducible refine State.setBytes_within _ _ ?_ ?_
    | with_reducible refine State.setFlag_within _ _ _ ?_ ?_
    | with_reducible refine State.setReg_within _ _ ?_ ?_
    | split
    | (dsimp only)

theorem State.ledgerTake_within' {sc r₀ s₀ t} {x0}  (he : State.ledgerTake s₀ = some (x0, t)) (hs : sub [.hif] sc = true) (h₀ : Within sc r₀ s₀) : Within sc r₀ t := by
  unfold State.ledgerTake at he
  try dsimp only at he
  repeat' first
    | with_reducible assumption
    | ((with_reducible refine sub_trans ?_ hs); exact rfl)
    | (cases he)
    | split at he
    | with_reducible refine within_ite ?_ (fun _ => ?_)
    | split
    | with_reducible refine Within.set_hif ?_ ?_

theorem execLedgerEventWrite_within {sc r₀ s₀}  (hs : sub [.regs, .mem, .coreA, .coreB, .hif, .log, .ecc] sc = true) (h₀ : Within sc r₀ s₀) :
    OutWithin sc r₀ (execLedgerEventWrite s₀) := by
  unfold execLedgerEventWrite
  repeat' first
    | with_reducible assumption
    | ((with_reducible refine sub_trans ?_ hs); exact rfl)
    | with_reducible exact trivial
    | with_reducible refine within_ite ?_ (fun _ => ?_)
    | with_reducible refine outWithin_next ?_
    | with_reducible refine outWithin_ite ?_ ?_
    | with_reducible exact outWithin_fault _
    | with_reducible refine State.ledgerTake_within'  ‹_› ?_ ?_
    | with_reducible refine State.ledgerPut_within _ ?_ ?_
    | split
    | (dsimp only)

theorem execHifEngineFault_within {sc r₀ s₀}  (hs : sub [.regs, .mem, .coreA, .coreB, .hif, .free, .log, .ecc] sc = true) (h₀ : Within sc r₀ s₀) :
    OutWithin sc r₀ (execHifEngineFault s₀) := by
  unfold execHifEngineFault
  repeat' first
    | with_reducible assumption
    | ((with_reducible refine sub_trans ?_ hs); exact rfl)
    | with_reducible exact trivial
    | with_reducible refine within_ite ?_ (fun _ => ?_)
    | with_reducible refine outWithin_next ?_
    | with_reducible refine outWithin_ite ?_ ?_
    | with_reducible exact outWithin_fault _
    | with_reducible refine State.ledgerPut_within _ ?_ ?_
    | with_reducible refine State.draw_within'  ‹_› ?_ ?_
    | with_reducible refine State.draw_within ?_ ?_
    | with_reducible refine State.setFlag_within _ _ _ ?_ ?_
    | split
    | with_reducible refine Within.set_hif ?_ ?_
    | (dsimp only)

theorem State.swIrq_within {sc r₀ s₀} (v : W32) (hs : sub [.regs, .hif] sc = true) (h₀ : Within sc r₀ s₀) :
    Within sc r₀ (State.swIrq v s₀) := by
  unfold State.swIrq
  repeat' first
    | with_reducible assumption
    | ((with_reducible refine sub_trans ?_ hs); exact rfl)
    | with_reducible exact trivial
    | with_reducible refine within_ite ?_ (fun _ => ?_)
    | with_reducible refine State.raiseIrq_within _ ?_ ?_
    | with_reducible refine within_foldl (fun _ _ _ => ?_) ?_
    | with_reducible refine within_foldl_snd (fun _ _ _ => ?_) ?_
    | split
    | (dsimp only)

theorem execSwIrqRaise_within {sc r₀ s₀} (bits : W32) (hs : sub [.regs, .hif] sc = true) (h₀ : Within sc r₀ s₀) :
    OutWithin sc r₀ (execSwIrqRaise bits s₀) := by
  unfold execSwIrqRaise
  repeat' first
    | with_reducible assumption
    | ((with_reducible refine sub_trans ?_ hs); exact rfl)
    | with_reducible exact trivial
    | with_reducible refine within_ite ?_ (fun _ => ?_)
    | with_reducible refine outWithin_next ?_
    | with_reducible refine outWithin_ite ?_ ?_
    | with_reducible exact outWithin_fault _
    | with_reducible refine State.swIrq_within _ ?_ ?_
    | split
    | (dsimp only)

theorem State.setMbxBit_within {sc r₀ s₀} (r : Nat → Nat) (n : Nat) (b : Bool) (hs : sub [.regs] sc = true) (h₀ : Within sc r₀ s₀) :
    Within sc r₀ (State.setMbxBit r n b s₀) := by
  unfold State.setMbxBit
  repeat' first
    | with_reducible assumption
    | ((with_reducible refine sub_trans ?_ hs); exact rfl)
    | with_reducible exact trivial
    | with_reducible refine within_ite ?_ (fun _ => ?_)
    | with_reducible refine State.setReg_within _ _ ?_ ?_
    | split
    | (dsimp only)

theorem State.mbxPost_within {sc r₀ s₀} (n : Nat) (hs : sub [.regs, .mem, .coreA, .coreB, .ecc] sc = true) (h₀ : Within sc r₀ s₀) :
    Within sc r₀ (State.mbxPost n s₀) := by
  unfold State.mbxPost
  repeat' first
    | with_reducible assumption
    | ((with_reducible refine sub_trans ?_ hs); exact rfl)
    | with_reducible exact trivial
    | with_reducible refine within_ite ?_ (fun _ => ?_)
    | with_reducible refine State.setMbxBit_within _ _ _ ?_ ?_
    | with_reducible refine State.store_within _ _ _ ?_ ?_
    | with_reducible refine State.addCnt_within _ _ ?_ ?_
    | with_reducible refine State.eventBoth_within _ _ ?_ ?_
    | split
    | (dsimp only)

theorem State.mbxWrite_within {sc r₀ s₀} (i2c : Bool) (a : Nat) (v : W32) (hs : sub [.regs, .mem, .coreA, .coreB, .hif, .ecc] sc = true) (h₀ : Within sc r₀ s₀) :
    Within sc r₀ (State.mbxWrite i2c a v s₀) := by
  unfold State.mbxWrite
  repeat' first
    | with_reducible assumption
    | ((with_reducible refine sub_trans ?_ hs); exact rfl)
    | with_reducible exact trivial
    | with_reducible refine within_ite ?_ (fun _ => ?_)
    | with_reducible refine State.mbxPost_within _ ?_ ?_
    | with_reducible refine State.hifErr_within _ _ _ ?_ ?_
    | with_reducible refine State.store_within _ _ _ ?_ ?_
    | split
    | (dsimp only)

theorem execMbxPost_within {sc r₀ s₀} (i2c : Bool) (slot : Fin 64) (word : W32) (hs : sub [.regs, .mem, .coreA, .coreB, .hif, .ecc] sc = true) (h₀ : Within sc r₀ s₀) :
    OutWithin sc r₀ (execMbxPost i2c slot word s₀) := by
  unfold execMbxPost
  repeat' first
    | with_reducible assumption
    | ((with_reducible refine sub_trans ?_ hs); exact rfl)
    | with_reducible exact trivial
    | with_reducible refine within_ite ?_ (fun _ => ?_)
    | with_reducible refine outWithin_next ?_
    | with_reducible refine outWithin_ite ?_ ?_
    | with_reducible exact outWithin_fault _
    | with_reducible refine State.mbxWrite_within _ _ _ ?_ ?_
    | split
    | (dsimp only)

theorem State.mbxTake_within {sc r₀ s₀} (n : Nat) (hs : sub [.regs] sc = true) (h₀ : Within sc r₀ s₀) :
    Within sc r₀ (State.mbxTake n s₀) := by
  unfold State.mbxTake
  repeat' first
    | with_reducible assumption
    | ((with_reducible refine sub_trans ?_ hs); exact rfl)
    | with_reducible exact trivial
    | with_reducible refine within_ite ?_ (fun _ => ?_)
    | with_reducible refine State.setMbxBit_within _ _ _ ?_ ?_
    | split
    | (dsimp only)

theorem execMbxTake_within {sc r₀ s₀} (slot : Fin 64) (hs : sub [.regs] sc = true) (h₀ : Within sc r₀ s₀) :
    OutWithin sc r₀ (execMbxTake slot s₀) := by
  unfold execMbxTake
  repeat' first
    | with_reducible assumption
    | ((with_reducible refine sub_trans ?_ hs); exact rfl)
    | with_reducible exact trivial
    | with_reducible refine within_ite ?_ (fun _ => ?_)
    | with_reducible refine outWithin_next ?_
    | with_reducible refine outWithin_ite ?_ ?_
    | with_reducible exact outWithin_fault _
    | with_reducible refine State.mbxTake_within _ ?_ ?_
    | split
    | (dsimp only)

theorem State.mbxDoneWord_within {sc r₀ s₀} (n : Nat) (result : Nat) (hs : sub [.regs, .mem, .hif, .ecc] sc = true) (h₀ : Within sc r₀ s₀) :
    Within sc r₀ (State.mbxDoneWord n result s₀) := by
  unfold State.mbxDoneWord
  repeat' first
    | with_reducible assumption
    | ((with_reducible refine sub_trans ?_ hs); exact rfl)
    | with_reducible exact trivial
    | with_reducible refine within_ite ?_ (fun _ => ?_)
    | with_reducible refine State.raiseIrq_within _ ?_ ?_
    | with_reducible refine State.store_within _ _ _ ?_ ?_
    | split
    | (dsimp only)

theorem State.mbxDone_within {sc r₀ s₀} (n : Nat) (result : Nat) (hs : sub [.regs, .mem, .coreA, .coreB, .hif, .ecc] sc = true) (h₀ : Within sc r₀ s₀) :
    Within sc r₀ (State.mbxDone n result s₀) := by
  unfold State.mbxDone
  repeat' first
    | with_reducible assumption
    | ((with_reducible refine sub_trans ?_ hs); exact rfl)
    | with_reducible exact trivial
    | with_reducible refine within_ite ?_ (fun _ => ?_)
    | with_reducible refine State.mbxDoneWord_within _ _ ?_ ?_
    | with_reducible refine State.setMbxBit_within _ _ _ ?_ ?_
    | with_reducible refine State.addCnt_within _ _ ?_ ?_
    | split
    | with_reducible refine Within.set_hif ?_ ?_
    | (dsimp only)

theorem execMbxDone_within {sc r₀ s₀} (slot : Fin 64) (result : Byte) (hs : sub [.regs, .mem, .coreA, .coreB, .hif, .ecc] sc = true) (h₀ : Within sc r₀ s₀) :
    OutWithin sc r₀ (execMbxDone slot result s₀) := by
  unfold execMbxDone
  repeat' first
    | with_reducible assumption
    | ((with_reducible refine sub_trans ?_ hs); exact rfl)
    | with_reducible exact trivial
    | with_reducible refine within_ite ?_ (fun _ => ?_)
    | with_reducible refine outWithin_next ?_
    | with_reducible refine outWithin_ite ?_ ?_
    | with_reducible exact outWithin_fault _
    | with_reducible refine State.mbxDone_within _ _ ?_ ?_
    | split
    | (dsimp only)

theorem execMbxDeadlineExpiry_within {sc r₀ s₀} (slot : Fin 64) (hs : sub [.regs, .mem, .coreA, .coreB, .hif, .free, .ecc] sc = true) (h₀ : Within sc r₀ s₀) :
    OutWithin sc r₀ (execMbxDeadlineExpiry slot s₀) := by
  unfold execMbxDeadlineExpiry
  repeat' first
    | with_reducible assumption
    | ((with_reducible refine sub_trans ?_ hs); exact rfl)
    | with_reducible exact trivial
    | with_reducible refine within_ite ?_ (fun _ => ?_)
    | with_reducible refine outWithin_next ?_
    | with_reducible refine outWithin_ite ?_ ?_
    | with_reducible exact outWithin_fault _
    | with_reducible refine State.mbxDoneWord_within _ _ ?_ ?_
    | with_reducible refine State.logEvent_within _ _ _ _ ?_ ?_
    | with_reducible refine State.drawBytes_within' _  ‹_› ?_ ?_
    | with_reducible refine State.drawBytes_within _ ?_ ?_
    | with_reducible refine State.setBytes_within _ _ ?_ ?_
    | with_reducible refine State.addCnt_within _ _ ?_ ?_
    | with_reducible refine State.setFlag_within _ _ _ ?_ ?_
    | split
    | with_reducible refine Within.set_hif ?_ ?_
    | (dsimp only)

theorem State.setBootSlot_within' {sc r₀ s₀ t} {x0} (slot : Nat) (he : State.setBootSlot slot s₀ = some (x0, t)) (hs : sub [.flash] sc = true) (h₀ : Within sc r₀ s₀) : Within sc r₀ t := by
  unfold State.setBootSlot at he
  try dsimp only at he
  repeat' first
    | with_reducible assumption
    | ((with_reducible refine sub_trans ?_ hs); exact rfl)
    | (cases he)
    | split at he
    | with_reducible refine within_ite ?_ (fun _ => ?_)
    | with_reducible refine State.flashErase_within _ _ ?_ ?_
    | with_reducible refine State.flashProgram_within _ _ ?_ ?_
    | split

theorem execHfFlashRead_within {sc r₀ s₀}  (hs : sub [.regs, .mem, .coreA, .coreB, .qc, .hws, .hif, .pwr, .free, .log, .ecc] sc = true) (h₀ : Within sc r₀ s₀) :
    OutWithin sc r₀ (execHfFlashRead s₀) := by
  unfold execHfFlashRead
  repeat' first
    | with_reducible assumption
    | ((with_reducible refine sub_trans ?_ hs); exact rfl)
    | with_reducible exact trivial
    | with_reducible refine within_ite ?_ (fun _ => ?_)
    | with_reducible refine within_ite_snd ?_ (fun _ => ?_)
    | with_reducible refine outWithin_next ?_
    | with_reducible refine outWithin_ite ?_ ?_
    | with_reducible exact outWithin_fault _
    | with_reducible refine State.setBytes_within _ _ ?_ ?_
    | with_reducible refine State.runCommand_within _ _ _ (fun _ _ _ => ?_) ?_ ?_
    | split
    | (dsimp only)

theorem execHfFlashProgram_within {sc r₀ s₀}  (hs : sub [.regs, .mem, .flash, .coreA, .coreB, .qc, .hws, .hif, .pwr, .free, .log, .ecc] sc = true) (h₀ : Within sc r₀ s₀) :
    OutWithin sc r₀ (execHfFlashProgram s₀) := by
  unfold execHfFlashProgram
  repeat' first
    | with_reducible assumption
    | ((with_reducible refine sub_trans ?_ hs); exact rfl)
    | with_reducible exact trivial
    | with_reducible refine within_ite ?_ (fun _ => ?_)
    | with_reducible refine within_ite_snd ?_ (fun _ => ?_)
    | with_reducible refine outWithin_next ?_
    | with_reducible refine outWithin_ite ?_ ?_
    | with_reducible exact outWithin_fault _
    | with_reducible refine State.flashProgram_within _ _ ?_ ?_
    | with_reducible refine State.runCommand_within _ _ _ (fun _ _ _ => ?_) ?_ ?_
    | split
    | (dsimp only)

theorem execHfFlashErase_within {sc r₀ s₀}  (hs : sub [.regs, .mem, .flash, .coreA, .coreB, .qc, .hws, .hif, .pwr, .free, .log, .ecc] sc = true) (h₀ : Within sc r₀ s₀) :
    OutWithin sc r₀ (execHfFlashErase s₀) := by
  unfold execHfFlashErase
  repeat' first
    | with_reducible assumption
    | ((with_reducible refine sub_trans ?_ hs); exact rfl)
    | with_reducible exact trivial
    | with_reducible refine within_ite ?_ (fun _ => ?_)
    | with_reducible refine within_ite_snd ?_ (fun _ => ?_)
    | with_reducible refine outWithin_next ?_
    | with_reducible refine outWithin_ite ?_ ?_
    | with_reducible exact outWithin_fault _
    | with_reducible refine State.flashErase_within _ _ ?_ ?_
    | with_reducible refine State.runCommand_within _ _ _ (fun _ _ _ => ?_) ?_ ?_
    | split
    | (dsimp only)

theorem execHfLogEvent_within {sc r₀ s₀}  (hs : sub [.regs, .mem, .coreA, .coreB, .qc, .hws, .hif, .pwr, .free, .log, .ecc] sc = true) (h₀ : Within sc r₀ s₀) :
    OutWithin sc r₀ (execHfLogEvent s₀) := by
  unfold execHfLogEvent
  repeat' first
    | with_reducible assumption
    | ((with_reducible refine sub_trans ?_ hs); exact rfl)
    | with_reducible exact trivial
    | with_reducible refine within_ite ?_ (fun _ => ?_)
    | with_reducible refine within_ite_snd ?_ (fun _ => ?_)
    | with_reducible refine outWithin_next ?_
    | with_reducible refine outWithin_ite ?_ ?_
    | with_reducible exact outWithin_fault _
    | with_reducible refine State.logEvent_within _ _ _ _ ?_ ?_
    | with_reducible refine State.runCommand_within _ _ _ (fun _ _ _ => ?_) ?_ ?_
    | split
    | (dsimp only)

theorem State.recoveryDone_within {sc r₀ s₀} (refused : Bool) (hs : sub [.regs] sc = true) (h₀ : Within sc r₀ s₀) :
    Within sc r₀ (State.recoveryDone refused s₀) := by
  unfold State.recoveryDone
  repeat' first
    | with_reducible assumption
    | ((with_reducible refine sub_trans ?_ hs); exact rfl)
    | with_reducible exact trivial
    | with_reducible refine within_ite ?_ (fun _ => ?_)
    | with_reducible refine State.setFlag_within _ _ _ ?_ ?_
    | split
    | (dsimp only)

theorem State.recoveryRun_within {sc r₀ s₀} (op : Nat) (hs : sub [.regs, .flash] sc = true) (h₀ : Within sc r₀ s₀) :
    Within sc r₀ (State.recoveryRun op s₀) := by
  unfold State.recoveryRun
  repeat' first
    | with_reducible assumption
    | ((with_reducible refine sub_trans ?_ hs); exact rfl)
    | with_reducible exact trivial
    | with_reducible refine within_ite ?_ (fun _ => ?_)
    | with_reducible refine State.recoveryDone_within _ ?_ ?_
    | with_reducible refine State.flashErase_within _ _ ?_ ?_
    | with_reducible refine State.flashProgram_within _ _ ?_ ?_
    | with_reducible refine State.setFld_within _ _ _ ?_ ?_
    | with_reducible refine State.setReg_within _ _ ?_ ?_
    | with_reducible refine forN_within _ _ ?_ ?_
    | with_reducible refine forN_within (fun _ _ _ => ?_) ?_
    | split
    | (dsimp only)

theorem State.recoveryRow_within {sc r₀ s₀} (op : Nat) (hs : sub [.regs, .flash, .coreA, .coreB, .hif] sc = true) (h₀ : Within sc r₀ s₀) :
    Within sc r₀ (State.recoveryRow op s₀) := by
  unfold State.recoveryRow
  repeat' first
    | with_reducible assumption
    | ((with_reducible refine sub_trans ?_ hs); exact rfl)
    | with_reducible exact trivial
    | with_reducible refine within_ite ?_ (fun _ => ?_)
    | with_reducible refine State.recoveryRun_within _ ?_ ?_
    | with_reducible refine State.hifErr_within _ _ _ ?_ ?_
    | split
    | (dsimp only)

theorem execFlashRecoveryRead_within {sc r₀ s₀}  (hs : sub [.regs, .flash, .coreA, .coreB, .hif] sc = true) (h₀ : Within sc r₀ s₀) :
    OutWithin sc r₀ (execFlashRecoveryRead s₀) := by
  unfold execFlashRecoveryRead
  repeat' first
    | with_reducible assumption
    | ((with_reducible refine sub_trans ?_ hs); exact rfl)
    | with_reducible exact trivial
    | with_reducible refine within_ite ?_ (fun _ => ?_)
    | with_reducible refine outWithin_next ?_
    | with_reducible refine outWithin_ite ?_ ?_
    | with_reducible exact outWithin_fault _
    | with_reducible refine State.recoveryRow_within _ ?_ ?_
    | split
    | (dsimp only)

theorem execFlashRecoveryProgram_within {sc r₀ s₀}  (hs : sub [.regs, .flash, .coreA, .coreB, .hif] sc = true) (h₀ : Within sc r₀ s₀) :
    OutWithin sc r₀ (execFlashRecoveryProgram s₀) := by
  unfold execFlashRecoveryProgram
  repeat' first
    | with_reducible assumption
    | ((with_reducible refine sub_trans ?_ hs); exact rfl)
    | with_reducible exact trivial
    | with_reducible refine within_ite ?_ (fun _ => ?_)
    | with_reducible refine outWithin_next ?_
    | with_reducible refine outWithin_ite ?_ ?_
    | with_reducible exact outWithin_fault _
    | with_reducible refine State.recoveryRow_within _ ?_ ?_
    | split
    | (dsimp only)

theorem execFlashRecoveryErase_within {sc r₀ s₀}  (hs : sub [.regs, .flash, .coreA, .coreB, .hif] sc = true) (h₀ : Within sc r₀ s₀) :
    OutWithin sc r₀ (execFlashRecoveryErase s₀) := by
  unfold execFlashRecoveryErase
  repeat' first
    | with_reducible assumption
    | ((with_reducible refine sub_trans ?_ hs); exact rfl)
    | with_reducible exact trivial
    | with_reducible refine within_ite ?_ (fun _ => ?_)
    | with_reducible refine outWithin_next ?_
    | with_reducible refine outWithin_ite ?_ ?_
    | with_reducible exact outWithin_fault _
    | with_reducible refine State.recoveryRow_within _ ?_ ?_
    | split
    | (dsimp only)

end Sys2Proof.Laws
end

