-- ==== Sys2Proof/Laws/Pilot.lean ====
section
/-! SUPPORT. The scope of each operation of Sys2Proof/Machine/Pilot.lean. -/
namespace Sys2Proof.Laws
open Sys2Proof.Machine Sys2Proof.Safety

theorem State.hwsShow_within {sc r₀ s₀}  (hs : sub [.regs] sc = true) (h₀ : Within sc r₀ s₀) :
    Within sc r₀ (State.hwsShow s₀) := by
  unfold State.hwsShow
  repeat' first
    | with_reducible assumption
    | ((with_reducible refine sub_trans ?_ hs); exact rfl)
    | with_reducible exact trivial
    | with_reducible refine within_ite ?_ (fun _ => ?_)
    | with_reducible refine State.setFld_within _ _ _ ?_ ?_
    | split
    | (dsimp only)

theorem State.wtrStop_within {sc r₀ s₀}  (hs : sub [.regs, .pilot] sc = true) (h₀ : Within sc r₀ s₀) :
    Within sc r₀ (State.wtrStop s₀) := by
  unfold State.wtrStop
  repeat' first
    | with_reducible assumption
    | ((with_reducible refine sub_trans ?_ hs); exact rfl)
    | with_reducible exact trivial
    | with_reducible refine within_ite ?_ (fun _ => ?_)
    | with_reducible refine State.setFlag_within _ _ _ ?_ ?_
    | split
    | with_reducible refine Within.set_pilot ?_ ?_
    | (dsimp only)

theorem State.setRoleOf_within {sc r₀ s₀} (k : CoreId) (r : Nat) (hs : sub [.regs, .pilot] sc = true) (h₀ : Within sc r₀ s₀) :
    Within sc r₀ (State.setRoleOf k r s₀) := by
  unfold State.setRoleOf
  repeat' first
    | with_reducible assumption
    | ((with_reducible refine sub_trans ?_ hs); exact rfl)
    | with_reducible exact trivial
    | with_reducible refine within_ite ?_ (fun _ => ?_)
    | with_reducible refine State.wtrStop_within ?_ ?_
    | with_reducible refine State.hwsShow_within ?_ ?_
    | with_reducible refine State.setFld_within _ _ _ ?_ ?_
    | split
    | (dsimp only)

theorem State.setActive_within {sc r₀ s₀} (k : Option CoreId) (hs : sub [.regs] sc = true) (h₀ : Within sc r₀ s₀) :
    Within sc r₀ (State.setActive k s₀) := by
  unfold State.setActive
  repeat' first
    | with_reducible assumption
    | ((with_reducible refine sub_trans ?_ hs); exact rfl)
    | with_reducible exact trivial
    | with_reducible refine within_ite ?_ (fun _ => ?_)
    | with_reducible refine State.setFld_within _ _ _ ?_ ?_
    | split
    | (dsimp only)

theorem State.setRest_within {sc r₀ s₀} (k : CoreId) (n : Nat) (hs : sub [.regs, .pilot] sc = true) (h₀ : Within sc r₀ s₀) :
    Within sc r₀ (State.setRest k n s₀) := by
  unfold State.setRest
  repeat' first
    | with_reducible assumption
    | ((with_reducible refine sub_trans ?_ hs); exact rfl)
    | with_reducible exact trivial
    | with_reducible refine within_ite ?_ (fun _ => ?_)
    | with_reducible refine State.setFlag_within _ _ _ ?_ ?_
    | split
    | with_reducible refine Within.set_pilot ?_ ?_
    | (dsimp only)

theorem State.setLive_within {sc r₀ s₀} (l : List W16) (hs : sub [.regs, .qc] sc = true) (h₀ : Within sc r₀ s₀) :
    Within sc r₀ (State.setLive l s₀) := by
  unfold State.setLive
  repeat' first
    | with_reducible assumption
    | ((with_reducible refine sub_trans ?_ hs); exact rfl)
    | with_reducible exact trivial
    | with_reducible refine within_ite ?_ (fun _ => ?_)
    | with_reducible refine State.setFlag_within _ _ _ ?_ ?_
    | with_reducible refine State.setFld_within _ _ _ ?_ ?_
    | split
    | with_reducible refine Within.set_qc ?_ ?_
    | (dsimp only)

theorem State.setDual_within {sc r₀ s₀} (b : Bool) (hs : sub [.regs, .pilot] sc = true) (h₀ : Within sc r₀ s₀) :
    Within sc r₀ (State.setDual b s₀) := by
  unfold State.setDual
  repeat' first
    | with_reducible assumption
    | ((with_reducible refine sub_trans ?_ hs); exact rfl)
    | with_reducible exact trivial
    | with_reducible refine within_ite ?_ (fun _ => ?_)
    | with_reducible refine State.setFlag_within _ _ _ ?_ ?_
    | split
    | with_reducible refine Within.set_pilot ?_ ?_
    | (dsimp only)

theorem State.endEpoch_within {sc r₀ s₀} (old : W16) (new : W16) (hs : sub [.regs, .mem, .coreA, .coreB, .qc, .hws, .hif, .pwr, .free, .log, .ecc] sc = true) (h₀ : Within sc r₀ s₀) :
    Within sc r₀ (State.endEpoch old new s₀) := by
  unfold State.endEpoch
  repeat' first
    | with_reducible assumption
    | ((with_reducible refine sub_trans ?_ hs); exact rfl)
    | with_reducible exact trivial
    | with_reducible refine within_ite ?_ (fun _ => ?_)
    | with_reducible refine State.complete_within _ _ _ _ ?_ ?_
    | with_reducible refine State.setQueue_within _ _ ?_ ?_
    | with_reducible refine State.logEvent_within _ _ _ _ ?_ ?_
    | with_reducible refine State.addCnt_within _ _ ?_ ?_
    | with_reducible refine State.setFlag_within _ _ _ ?_ ?_
    | with_reducible refine within_foldl (fun _ _ _ => ?_) ?_
    | with_reducible refine within_foldl_snd (fun _ _ _ => ?_) ?_
    | split
    | (dsimp only)

theorem State.pltLast_within {sc r₀ s₀} (cause : Nat) (block : Nat) (old : W16) (hs : sub [.regs] sc = true) (h₀ : Within sc r₀ s₀) :
    Within sc r₀ (State.pltLast cause block old s₀) := by
  unfold State.pltLast
  repeat' first
    | with_reducible assumption
    | ((with_reducible refine sub_trans ?_ hs); exact rfl)
    | with_reducible exact trivial
    | with_reducible refine within_ite ?_ (fun _ => ?_)
    | with_reducible refine State.setReg64_within _ _ ?_ ?_
    | with_reducible refine State.setFld_within _ _ _ ?_ ?_
    | split
    | (dsimp only)

theorem State.dropCore_within {sc r₀ s₀} (k : CoreId) (hs : sub [.coreA, .coreB] sc = true) (h₀ : Within sc r₀ s₀) :
    Within sc r₀ (State.dropCore k s₀) := by
  unfold State.dropCore
  repeat' first
    | with_reducible assumption
    | ((with_reducible refine sub_trans ?_ hs); exact rfl)
    | with_reducible exact trivial
    | with_reducible refine within_ite ?_ (fun _ => ?_)
    | with_reducible refine State.setCore_within _ _ ?_ ?_
    | split
    | (dsimp only)

theorem State.enterResync_within {sc r₀ s₀} (k : CoreId) (cause : Nat) (hs : sub [.regs, .coreA, .coreB, .pilot, .hws, .hif] sc = true) (h₀ : Within sc r₀ s₀) :
    Within sc r₀ (State.enterResync k cause s₀) := by
  unfold State.enterResync
  repeat' first
    | with_reducible assumption
    | ((with_reducible refine sub_trans ?_ hs); exact rfl)
    | with_reducible exact trivial
    | with_reducible refine within_ite ?_ (fun _ => ?_)
    | with_reducible refine State.setRoleOf_within _ _ ?_ ?_
    | with_reducible refine State.logEvent_within _ _ _ _ ?_ ?_
    | with_reducible refine State.addCnt_within _ _ ?_ ?_
    | with_reducible refine State.modCore_within _ _ ?_ ?_
    | with_reducible refine State.setFlag_within _ _ _ ?_ ?_
    | split
    | with_reducible refine Within.set_hws ?_ ?_
    | with_reducible refine Within.set_pilot ?_ ?_
    | with_reducible refine Within.set_pilot_hws ?_ ?_
    | (dsimp only)

theorem State.startSnap_within {sc r₀ s₀} (k : CoreId) (x : CoreSnap) (epoch : W16) (hs : sub [.coreA, .coreB, .berth, .pilot] sc = true) (h₀ : Within sc r₀ s₀) :
    Within sc r₀ (State.startSnap k x epoch s₀) := by
  unfold State.startSnap
  repeat' first
    | with_reducible assumption
    | ((with_reducible refine sub_trans ?_ hs); exact rfl)
    | with_reducible exact trivial
    | with_reducible refine within_ite ?_ (fun _ => ?_)
    | with_reducible refine State.modCore_within _ _ ?_ ?_
    | split
    | with_reducible refine Within.set_berth ?_ ?_
    | with_reducible refine Within.set_pilot ?_ ?_
    | with_reducible refine Within.set_berth_pilot ?_ ?_
    | (dsimp only)

theorem State.startEntryCore_within {sc r₀ s₀} (k : CoreId) (epoch : W16) (cold : Bool) (hs : sub [.coreA, .coreB, .pilot] sc = true) (h₀ : Within sc r₀ s₀) :
    Within sc r₀ (State.startEntryCore k epoch cold s₀) := by
  unfold State.startEntryCore
  repeat' first
    | with_reducible assumption
    | ((with_reducible refine sub_trans ?_ hs); exact rfl)
    | with_reducible exact trivial
    | with_reducible refine within_ite ?_ (fun _ => ?_)
    | with_reducible refine State.setCore_within _ _ ?_ ?_
    | split
    | with_reducible refine Within.set_pilot ?_ ?_
    | (dsimp only)

theorem State.soleActive_within {sc r₀ s₀} (k : CoreId) (epoch : W16) (hs : sub [.regs, .qc, .pilot] sc = true) (h₀ : Within sc r₀ s₀) :
    Within sc r₀ (State.soleActive k epoch s₀) := by
  unfold State.soleActive
  repeat' first
    | with_reducible assumption
    | ((with_reducible refine sub_trans ?_ hs); exact rfl)
    | with_reducible exact trivial
    | with_reducible refine within_ite ?_ (fun _ => ?_)
    | with_reducible refine State.setLive_within _ ?_ ?_
    | with_reducible refine State.setActive_within _ ?_ ?_
    | with_reducible refine State.setRoleOf_within _ _ ?_ ?_
    | split
    | with_reducible refine Within.set_pilot ?_ ?_
    | (dsimp only)

theorem State.declareFailed_within {sc r₀ s₀} (k : CoreId) (cause : Nat) (hs : sub [.regs, .mem, .coreA, .coreB, .qc, .berth, .pilot, .hws, .hif, .pwr, .free, .log, .ecc] sc = true) (h₀ : Within sc r₀ s₀) :
    Within sc r₀ (State.declareFailed k cause s₀) := by
  unfold State.declareFailed
  repeat' first
    | with_reducible assumption
    | ((with_reducible refine sub_trans ?_ hs); exact rfl)
    | with_reducible exact trivial
    | with_reducible refine within_ite ?_ (fun _ => ?_)
    | with_reducible refine State.soleActive_within _ _ ?_ ?_
    | with_reducible refine State.startSnap_within _ _ _ ?_ ?_
    | with_reducible refine State.dropCore_within _ ?_ ?_
    | with_reducible refine State.pltLast_within _ _ _ ?_ ?_
    | with_reducible refine State.endEpoch_within _ _ ?_ ?_
    | with_reducible refine State.setLive_within _ ?_ ?_
    | with_reducible refine State.setRest_within _ _ ?_ ?_
    | with_reducible refine State.setActive_within _ ?_ ?_
    | with_reducible refine State.setRoleOf_within _ _ ?_ ?_
    | with_reducible refine State.noteTotal_within _ _ ?_ ?_
    | with_reducible refine State.revertStaged_within ?_ ?_
    | with_reducible refine State.logEvent_within _ _ _ _ ?_ ?_
    | with_reducible refine State.addCnt_within _ _ ?_ ?_
    | with_reducible refine State.setFlag_within _ _ _ ?_ ?_
    | split
    | with_reducible refine Within.set_hws ?_ ?_
    | with_reducible refine Within.set_pilot ?_ ?_
    | with_reducible refine Within.set_pilot_hws ?_ ?_
    | (dsimp only)

theorem State.dualFault_within {sc r₀ s₀} (k : CoreId) (cause : Nat) (hs : sub [.regs, .mem, .coreA, .coreB, .qc, .pilot, .hws, .hif, .pwr, .free, .log, .ecc] sc = true) (h₀ : Within sc r₀ s₀) :
    Within sc r₀ (State.dualFault k cause s₀) := by
  unfold State.dualFault
  repeat' first
    | with_reducible assumption
    | ((with_reducible refine sub_trans ?_ hs); exact rfl)
    | with_reducible exact trivial
    | with_reducible refine within_ite ?_ (fun _ => ?_)
    | with_reducible refine State.soleActive_within _ _ ?_ ?_
    | with_reducible refine State.dropCore_within _ ?_ ?_
    | with_reducible refine State.pltLast_within _ _ _ ?_ ?_
    | with_reducible refine State.endEpoch_within _ _ ?_ ?_
    | with_reducible refine State.setDual_within _ ?_ ?_
    | with_reducible refine State.setLive_within _ ?_ ?_
    | with_reducible refine State.setRest_within _ _ ?_ ?_
    | with_reducible refine State.setRoleOf_within _ _ ?_ ?_
    | with_reducible refine State.noteTotal_within _ _ ?_ ?_
    | with_reducible refine State.logEvent_within _ _ _ _ ?_ ?_
    | with_reducible refine State.addCnt_within _ _ ?_ ?_
    | with_reducible refine State.setFlag_within _ _ _ ?_ ?_
    | split
    | with_reducible refine Within.set_hws ?_ ?_
    | with_reducible refine Within.set_pilot ?_ ?_
    | (dsimp only)

theorem State.standbyFault_within {sc r₀ s₀} (k : CoreId) (cause : Nat) (hs : sub [.regs, .coreA, .coreB, .pilot, .hws, .hif] sc = true) (h₀ : Within sc r₀ s₀) :
    Within sc r₀ (State.standbyFault k cause s₀) := by
  unfold State.standbyFault
  repeat' first
    | with_reducible assumption
    | ((with_reducible refine sub_trans ?_ hs); exact rfl)
    | with_reducible exact trivial
    | with_reducible refine within_ite ?_ (fun _ => ?_)
    | with_reducible refine State.dropCore_within _ ?_ ?_
    | with_reducible refine State.setRest_within _ _ ?_ ?_
    | with_reducible refine State.setRoleOf_within _ _ ?_ ?_
    | with_reducible refine State.logEvent_within _ _ _ _ ?_ ?_
    | split
    | with_reducible refine Within.set_hws ?_ ?_
    | with_reducible refine Within.set_pilot ?_ ?_
    | with_reducible refine Within.set_pilot_hws ?_ ?_
    | (dsimp only)

theorem State.coreFailed_within {sc r₀ s₀} (k : CoreId) (cause : Nat) (hs : sub [.regs, .mem, .coreA, .coreB, .qc, .berth, .pilot, .hws, .hif, .pwr, .free, .log, .ecc] sc = true) (h₀ : Within sc r₀ s₀) :
    Within sc r₀ (State.coreFailed k cause s₀) := by
  unfold State.coreFailed
  repeat' first
    | with_reducible assumption
    | ((with_reducible refine sub_trans ?_ hs); exact rfl)
    | with_reducible exact trivial
    | with_reducible refine within_ite ?_ (fun _ => ?_)
    | with_reducible refine State.standbyFault_within _ _ ?_ ?_
    | with_reducible refine State.dualFault_within _ _ ?_ ?_
    | with_reducible refine State.declareFailed_within _ _ ?_ ?_
    | split
    | (dsimp only)

theorem execPilotMissedHbDeclare_within {sc r₀ s₀}  (hs : sub [.regs, .mem, .coreA, .coreB, .qc, .berth, .pilot, .hws, .hif, .pwr, .free, .log, .ecc] sc = true) (h₀ : Within sc r₀ s₀) :
    OutWithin sc r₀ (execPilotMissedHbDeclare s₀) := by
  unfold execPilotMissedHbDeclare
  repeat' first
    | with_reducible assumption
    | ((with_reducible refine sub_trans ?_ hs); exact rfl)
    | with_reducible exact trivial
    | with_reducible refine within_ite ?_ (fun _ => ?_)
    | with_reducible refine outWithin_next ?_
    | with_reducible refine outWithin_ite ?_ ?_
    | with_reducible exact outWithin_fault _
    | with_reducible refine State.declareFailed_within _ _ ?_ ?_
    | split
    | (dsimp only)

theorem execCoreFaultSignal_within {sc r₀ s₀} (k : CoreId) (doubleFault : Bool) (hs : sub [.regs, .mem, .coreA, .coreB, .qc, .berth, .pilot, .hws, .hif, .pwr, .free, .log, .ecc] sc = true) (h₀ : Within sc r₀ s₀) :
    OutWithin sc r₀ (execCoreFaultSignal k doubleFault s₀) := by
  unfold execCoreFaultSignal
  repeat' first
    | with_reducible assumption
    | ((with_reducible refine sub_trans ?_ hs); exact rfl)
    | with_reducible exact trivial
    | with_reducible refine within_ite ?_ (fun _ => ?_)
    | with_reducible refine outWithin_next ?_
    | with_reducible refine outWithin_ite ?_ ?_
    | with_reducible exact outWithin_fault _
    | with_reducible refine State.coreFailed_within _ _ ?_ ?_
    | split
    | (dsimp only)

theorem execWatchdogExpiry_within {sc r₀ s₀} (k : CoreId) (hs : sub [.regs, .mem, .coreA, .coreB, .qc, .berth, .pilot, .hws, .hif, .pwr, .free, .log, .ecc] sc = true) (h₀ : Within sc r₀ s₀) :
    OutWithin sc r₀ (execWatchdogExpiry k s₀) := by
  unfold execWatchdogExpiry
  repeat' first
    | with_reducible assumption
    | ((with_reducible refine sub_trans ?_ hs); exact rfl)
    | with_reducible exact trivial
    | with_reducible refine within_ite ?_ (fun _ => ?_)
    | with_reducible refine outWithin_next ?_
    | with_reducible refine outWithin_ite ?_ ?_
    | with_reducible exact outWithin_fault _
    | with_reducible refine State.coreFailed_within _ _ ?_ ?_
    | split
    | (dsimp only)

theorem State.copyVoid_within {sc r₀ s₀}  (hs : sub [.pilot, .hws] sc = true) (h₀ : Within sc r₀ s₀) :
    Within sc r₀ (State.copyVoid s₀) := by
  unfold State.copyVoid
  repeat' first
    | with_reducible assumption
    | ((with_reducible refine sub_trans ?_ hs); exact rfl)
    | with_reducible exact trivial
    | with_reducible refine within_ite ?_ (fun _ => ?_)
    | split
    | with_reducible refine Within.set_hws ?_ ?_
    | with_reducible refine Within.set_pilot ?_ ?_
    | with_reducible refine Within.set_pilot_hws ?_ ?_
    | (dsimp only)

theorem execHawserFrameReceived_within {sc r₀ s₀} (checkOk : Bool) (hs : sub [.regs, .coreA, .coreB, .pilot, .hws, .hif] sc = true) (h₀ : Within sc r₀ s₀) :
    OutWithin sc r₀ (execHawserFrameReceived checkOk s₀) := by
  unfold execHawserFrameReceived
  repeat' first
    | with_reducible assumption
    | ((with_reducible refine sub_trans ?_ hs); exact rfl)
    | with_reducible exact trivial
    | with_reducible refine within_ite ?_ (fun _ => ?_)
    | with_reducible refine outWithin_next ?_
    | with_reducible refine outWithin_ite ?_ ?_
    | with_reducible exact outWithin_fault _
    | with_reducible refine State.enterResync_within _ _ ?_ ?_
    | with_reducible refine State.addCnt_within _ _ ?_ ?_
    | with_reducible refine State.setFlag_within _ _ _ ?_ ?_
    | split
    | with_reducible refine Within.set_hws ?_ ?_
    | with_reducible refine Within.set_pilot ?_ ?_
    | with_reducible refine Within.set_pilot_hws ?_ ?_
    | (dsimp only)

theorem State.adoptLine_within {sc r₀ s₀} (j : CoreId) (c : HawserCopy) (line : Nat) (hs : sub [.regs, .mem, .ecc] sc = true) (h₀ : Within sc r₀ s₀) :
    Within sc r₀ (State.adoptLine j c s₀ line) := by
  unfold State.adoptLine
  repeat' first
    | with_reducible assumption
    | ((with_reducible refine sub_trans ?_ hs); exact rfl)
    | with_reducible exact trivial
    | with_reducible refine within_ite ?_ (fun _ => ?_)
    | with_reducible refine State.zeroMem_within _ _ ?_ ?_
    | with_reducible refine State.eccTouch_within _ _ ?_ ?_
    | with_reducible refine State.setByte_within _ _ ?_ ?_
    | with_reducible refine within_foldl (fun _ _ _ => ?_) ?_
    | with_reducible refine within_foldl_snd (fun _ _ _ => ?_) ?_
    | split
    | (dsimp only)

theorem State.inSync_within {sc r₀ s₀} (j : CoreId) (hs : sub [.regs, .coreA, .coreB, .pilot, .hif] sc = true) (h₀ : Within sc r₀ s₀) :
    Within sc r₀ (State.inSync j s₀) := by
  unfold State.inSync
  repeat' first
    | with_reducible assumption
    | ((with_reducible refine sub_trans ?_ hs); exact rfl)
    | with_reducible exact trivial
    | with_reducible refine within_ite ?_ (fun _ => ?_)
    | with_reducible refine State.setRoleOf_within _ _ ?_ ?_
    | with_reducible refine State.logEvent_within _ _ _ _ ?_ ?_
    | with_reducible refine State.setFlag_within _ _ _ ?_ ?_
    | split
    | with_reducible refine Within.set_pilot ?_ ?_
    | (dsimp only)

theorem execHawserCopyComplete_within {sc r₀ s₀}  (hs : sub [.regs, .mem, .coreA, .coreB, .pilot, .hws, .hif, .ecc] sc = true) (h₀ : Within sc r₀ s₀) :
    OutWithin sc r₀ (execHawserCopyComplete s₀) := by
  unfold execHawserCopyComplete
  repeat' first
    | with_reducible assumption
    | ((with_reducible refine sub_trans ?_ hs); exact rfl)
    | with_reducible exact trivial
    | with_reducible refine within_ite ?_ (fun _ => ?_)
    | with_reducible refine outWithin_next ?_
    | with_reducible refine outWithin_ite ?_ ?_
    | with_reducible exact outWithin_fault _
    | with_reducible refine State.inSync_within _ ?_ ?_
    | with_reducible refine State.adoptLine_within _ _ _ ?_ ?_
    | with_reducible refine State.copyVoid_within ?_ ?_
    | with_reducible refine within_foldl (fun _ _ _ => ?_) ?_
    | with_reducible refine within_foldl_snd (fun _ _ _ => ?_) ?_
    | split
    | with_reducible refine Within.set_hws ?_ ?_
    | (dsimp only)

theorem execCoreRestartHoldEnd_within {sc r₀ s₀} (k : CoreId) (hs : sub [.regs, .pilot] sc = true) (h₀ : Within sc r₀ s₀) :
    OutWithin sc r₀ (execCoreRestartHoldEnd k s₀) := by
  unfold execCoreRestartHoldEnd
  repeat' first
    | with_reducible assumption
    | ((with_reducible refine sub_trans ?_ hs); exact rfl)
    | with_reducible exact trivial
    | with_reducible refine within_ite ?_ (fun _ => ?_)
    | with_reducible refine outWithin_next ?_
    | with_reducible refine outWithin_ite ?_ ?_
    | with_reducible exact outWithin_fault _
    | with_reducible refine State.setRest_within _ _ ?_ ?_
    | split
    | (dsimp only)

theorem execCoreSelftestDone_within {sc r₀ s₀} (k : CoreId) (failTest : Option Byte) (hs : sub [.regs, .mem, .coreA, .coreB, .pilot, .hif, .ecc] sc = true) (h₀ : Within sc r₀ s₀) :
    OutWithin sc r₀ (execCoreSelftestDone k failTest s₀) := by
  unfold execCoreSelftestDone
  repeat' first
    | with_reducible assumption
    | ((with_reducible refine sub_trans ?_ hs); exact rfl)
    | with_reducible exact trivial
    | with_reducible refine within_ite ?_ (fun _ => ?_)
    | with_reducible refine outWithin_next ?_
    | with_reducible refine outWithin_ite ?_ ?_
    | with_reducible exact outWithin_fault _
    | with_reducible refine State.setRest_within _ _ ?_ ?_
    | with_reducible refine State.coreRepair_within _ ?_ ?_
    | with_reducible refine State.logEvent_within _ _ _ _ ?_ ?_
    | with_reducible refine State.zeroMem_within _ _ ?_ ?_
    | with_reducible refine State.setFlag_within _ _ _ ?_ ?_
    | split
    | (dsimp only)

theorem State.reloadBank_within {sc r₀ s₀} (k : CoreId) (bank : Bool) (hs : sub [.regs, .mem, .ecc] sc = true) (h₀ : Within sc r₀ s₀) :
    Within sc r₀ (State.reloadBank k bank s₀) := by
  unfold State.reloadBank
  repeat' first
    | with_reducible assumption
    | ((with_reducible refine sub_trans ?_ hs); exact rfl)
    | with_reducible exact trivial
    | with_reducible refine within_ite ?_ (fun _ => ?_)
    | with_reducible refine State.loadBank_within _ _ _ ?_ ?_
    | split
    | (dsimp only)

theorem execCoreReloadDone_within {sc r₀ s₀} (k : CoreId) (hs : sub [.regs, .mem, .coreA, .coreB, .pilot, .hws, .hif, .ecc] sc = true) (h₀ : Within sc r₀ s₀) :
    OutWithin sc r₀ (execCoreReloadDone k s₀) := by
  unfold execCoreReloadDone
  repeat' first
    | with_reducible assumption
    | ((with_reducible refine sub_trans ?_ hs); exact rfl)
    | with_reducible exact trivial
    | with_reducible refine within_ite ?_ (fun _ => ?_)
    | with_reducible refine outWithin_next ?_
    | with_reducible refine outWithin_ite ?_ ?_
    | with_reducible exact outWithin_fault _
    | with_reducible refine State.reloadBank_within _ _ ?_ ?_
    | with_reducible refine State.enterResync_within _ _ ?_ ?_
    | with_reducible refine State.setRest_within _ _ ?_ ?_
    | with_reducible refine State.loadHarbour_within _ _ ?_ ?_
    | split
    | with_reducible refine Within.set_pilot ?_ ?_
    | (dsimp only)

theorem execWaitToRestoreExpiry_within {sc r₀ s₀}  (hs : sub [.regs, .pilot] sc = true) (h₀ : Within sc r₀ s₀) :
    OutWithin sc r₀ (execWaitToRestoreExpiry s₀) := by
  unfold execWaitToRestoreExpiry
  repeat' first
    | with_reducible assumption
    | ((with_reducible refine sub_trans ?_ hs); exact rfl)
    | with_reducible exact trivial
    | with_reducible refine within_ite ?_ (fun _ => ?_)
    | with_reducible refine outWithin_next ?_
    | with_reducible refine outWithin_ite ?_ ?_
    | with_reducible exact outWithin_fault _
    | with_reducible refine State.setFlag_within _ _ _ ?_ ?_
    | split
    | with_reducible refine Within.set_pilot ?_ ?_
    | (dsimp only)

theorem execRevertStart_within {sc r₀ s₀}  (hs : sub [.regs, .coreA, .coreB, .qc, .berth, .pilot, .hif, .log] sc = true) (h₀ : Within sc r₀ s₀) :
    OutWithin sc r₀ (execRevertStart s₀) := by
  unfold execRevertStart
  repeat' first
    | with_reducible assumption
    | ((with_reducible refine sub_trans ?_ hs); exact rfl)
    | with_reducible exact trivial
    | with_reducible refine within_ite ?_ (fun _ => ?_)
    | with_reducible refine outWithin_next ?_
    | with_reducible refine outWithin_ite ?_ ?_
    | with_reducible exact outWithin_fault _
    | with_reducible refine State.startSnap_within _ _ _ ?_ ?_
    | with_reducible refine State.pltLast_within _ _ _ ?_ ?_
    | with_reducible refine State.setDual_within _ ?_ ?_
    | with_reducible refine State.setLive_within _ ?_ ?_
    | with_reducible refine State.setRoleOf_within _ _ ?_ ?_
    | with_reducible refine State.noteTotal_within _ _ ?_ ?_
    | with_reducible refine State.logEvent_within _ _ _ _ ?_ ?_
    | with_reducible refine State.addCnt_within _ _ ?_ ?_
    | with_reducible refine State.setFlag_within _ _ _ ?_ ?_
    | split
    | with_reducible refine Within.set_pilot ?_ ?_
    | (dsimp only)

theorem State.endDual_within {sc r₀ s₀}  (hs : sub [.regs, .mem, .coreA, .coreB, .qc, .pilot, .hws, .hif, .pwr, .free, .log, .ecc] sc = true) (h₀ : Within sc r₀ s₀) :
    Within sc r₀ (State.endDual s₀) := by
  unfold State.endDual
  repeat' first
    | with_reducible assumption
    | ((with_reducible refine sub_trans ?_ hs); exact rfl)
    | with_reducible exact trivial
    | with_reducible refine within_ite ?_ (fun _ => ?_)
    | with_reducible refine State.soleActive_within _ _ ?_ ?_
    | with_reducible refine State.enterResync_within _ _ ?_ ?_
    | with_reducible refine State.dropCore_within _ ?_ ?_
    | with_reducible refine State.endEpoch_within _ _ ?_ ?_
    | with_reducible refine State.setDual_within _ ?_ ?_
    | split
    | (dsimp only)

theorem State.coldResume_within {sc r₀ s₀} (k : CoreId) (from_ : Nat) (hs : sub [.regs, .coreA, .coreB, .qc, .pilot, .hws, .hif] sc = true) (h₀ : Within sc r₀ s₀) :
    Within sc r₀ (State.coldResume k from_ s₀) := by
  unfold State.coldResume
  repeat' first
    | with_reducible assumption
    | ((with_reducible refine sub_trans ?_ hs); exact rfl)
    | with_reducible exact trivial
    | with_reducible refine within_ite ?_ (fun _ => ?_)
    | with_reducible refine State.soleActive_within _ _ ?_ ?_
    | with_reducible refine State.startEntryCore_within _ _ _ ?_ ?_
    | with_reducible refine State.pltLast_within _ _ _ ?_ ?_
    | with_reducible refine State.logEvent_within _ _ _ _ ?_ ?_
    | with_reducible refine State.setFlag_within _ _ _ ?_ ?_
    | split
    | with_reducible refine Within.set_hws ?_ ?_
    | (dsimp only)

theorem execColdResumeRelease_within {sc r₀ s₀}  (hs : sub [.regs, .coreA, .coreB, .qc, .pilot, .hws, .hif] sc = true) (h₀ : Within sc r₀ s₀) :
    OutWithin sc r₀ (execColdResumeRelease s₀) := by
  unfold execColdResumeRelease
  repeat' first
    | with_reducible assumption
    | ((with_reducible refine sub_trans ?_ hs); exact rfl)
    | with_reducible exact trivial
    | with_reducible refine within_ite ?_ (fun _ => ?_)
    | with_reducible refine outWithin_next ?_
    | with_reducible refine outWithin_ite ?_ ?_
    | with_reducible exact outWithin_fault _
    | with_reducible refine State.coldResume_within _ _ ?_ ?_
    | split
    | (dsimp only)

theorem execPilotFault_within {sc r₀ s₀}  (hs : sub [.regs, .coreA, .coreB, .pilot, .hif, .free] sc = true) (h₀ : Within sc r₀ s₀) :
    OutWithin sc r₀ (execPilotFault s₀) := by
  unfold execPilotFault
  repeat' first
    | with_reducible assumption
    | ((with_reducible refine sub_trans ?_ hs); exact rfl)
    | with_reducible exact trivial
    | with_reducible refine within_ite ?_ (fun _ => ?_)
    | with_reducible refine outWithin_next ?_
    | with_reducible refine outWithin_ite ?_ ?_
    | with_reducible exact outWithin_fault _
    | with_reducible refine State.logFault_within _ _ _ ?_ ?_
    | with_reducible refine State.setFlag_within _ _ _ ?_ ?_
    | split
    | with_reducible refine Within.set_pilot ?_ ?_
    | (dsimp only)

theorem execForceBallQualified_within {sc r₀ s₀} (edgeA : Bool) (edgeB : Bool) (lowA : Bool) (lowB : Bool) (hs : sub [.regs, .coreA, .coreB, .pilot, .hif, .pins] sc = true) (h₀ : Within sc r₀ s₀) :
    OutWithin sc r₀ (execForceBallQualified edgeA edgeB lowA lowB s₀) := by
  unfold execForceBallQualified
  repeat' first
    | with_reducible assumption
    | ((with_reducible refine sub_trans ?_ hs); exact rfl)
    | with_reducible exact trivial
    | with_reducible refine within_ite ?_ (fun _ => ?_)
    | with_reducible refine outWithin_next ?_
    | with_reducible refine outWithin_ite ?_ ?_
    | with_reducible exact outWithin_fault _
    | with_reducible refine State.logEvent_within _ _ _ _ ?_ ?_
    | with_reducible refine State.setFlag_within _ _ _ ?_ ?_
    | split
    | with_reducible refine Within.set_pilot ?_ ?_
    | with_reducible refine Within.set_pins ?_ ?_
    | (dsimp only)

theorem State.forceOut_within {sc r₀ s₀} (k : CoreId) (new : W16) (hs : sub [.regs, .mem, .coreA, .coreB, .qc, .pilot, .hws, .hif, .pwr, .free, .log, .ecc] sc = true) (h₀ : Within sc r₀ s₀) :
    Within sc r₀ (State.forceOut k new s₀) := by
  unfold State.forceOut
  repeat' first
    | with_reducible assumption
    | ((with_reducible refine sub_trans ?_ hs); exact rfl)
    | with_reducible exact trivial
    | with_reducible refine within_ite ?_ (fun _ => ?_)
    | with_reducible refine State.enterResync_within _ _ ?_ ?_
    | with_reducible refine State.dropCore_within _ ?_ ?_
    | with_reducible refine State.endEpoch_within _ _ ?_ ?_
    | split
    | (dsimp only)

theorem execForcedTakeover_within {sc r₀ s₀}  (hs : sub [.regs, .mem, .coreA, .coreB, .qc, .berth, .pilot, .hws, .hif, .pwr, .free, .log, .ecc] sc = true) (h₀ : Within sc r₀ s₀) :
    OutWithin sc r₀ (execForcedTakeover s₀) := by
  unfold execForcedTakeover
  repeat' first
    | with_reducible assumption
    | ((with_reducible refine sub_trans ?_ hs); exact rfl)
    | with_reducible exact trivial
    | with_reducible refine within_ite ?_ (fun _ => ?_)
    | with_reducible refine outWithin_next ?_
    | with_reducible refine outWithin_ite ?_ ?_
    | with_reducible exact outWithin_fault _
    | with_reducible refine State.forceOut_within _ _ ?_ ?_
    | with_reducible refine State.coldResume_within _ _ ?_ ?_
    | with_reducible refine State.soleActive_within _ _ ?_ ?_
    | with_reducible refine State.startSnap_within _ _ _ ?_ ?_
    | with_reducible refine State.pltLast_within _ _ _ ?_ ?_
    | with_reducible refine State.noteTotal_within _ _ ?_ ?_
    | with_reducible refine State.revertStaged_within ?_ ?_
    | with_reducible refine State.logEvent_within _ _ _ _ ?_ ?_
    | with_reducible refine State.addCnt_within _ _ ?_ ?_
    | with_reducible refine State.setFlag_within _ _ _ ?_ ?_
    | split
    | with_reducible refine Within.set_pilot ?_ ?_
    | (dsimp only)

end Sys2Proof.Laws
end

