-- ==== Sys2Proof/Laws/Startup.lean ====
section
/-! SUPPORT. The scope of each operation of Sys2Proof/Machine/Startup.lean. -/
namespace Sys2Proof.Laws
open Sys2Proof.Machine Sys2Proof.Safety

theorem State.clearW1c_within {sc r₀ s₀} (a : Nat) (hs : sub [.regs] sc = true) (h₀ : Within sc r₀ s₀) :
    Within sc r₀ (State.clearW1c a s₀) := by
  unfold State.clearW1c
  repeat' first
    | with_reducible assumption
    | ((with_reducible refine sub_trans ?_ hs); exact rfl)
    | with_reducible exact trivial
    | with_reducible refine within_ite ?_ (fun _ => ?_)
    | with_reducible refine State.setReg_within _ _ ?_ ?_
    | split
    | (dsimp only)

theorem State.holdReset_within {sc r₀ s₀} (cause : Nat) (hs : sub [.regs, .coreA, .coreB, .qc, .claims, .berth, .hold, .pilot, .boot, .hws, .hif, .pwr, .cph, .txA, .txB, .rxA, .rxB, .eqA, .eqB, .crA, .crB, .fecA, .fecB, .hailA, .hailB, .frmA, .frmB, .osp, .clm, .brt, .lanes, .mon, .anl, .log, .obs, .ecc, .sec] sc = true) (h₀ : Within sc r₀ s₀) :
    Within sc r₀ (State.holdReset cause s₀) := by
  unfold State.holdReset
  dsimp only
  refine within_foldl (fun _ _ _ => ?_) (within_foldl (fun _ _ _ => ?_) ?_)
  · refine State.startWake_within _ (sub_trans rfl hs) ?_
    split
    · exact State.setFld_within _ _ _ (sub_trans rfl hs) ‹_›
    · assumption
  · split
    · exact State.anlShow_within _ (sub_trans rfl hs) ‹_›
    · assumption
  · refine State.clearW1c_within _ (sub_trans rfl hs) (State.clearW1c_within _ (sub_trans rfl hs) (State.clearW1c_within _ (sub_trans rfl hs)
      (State.setFlag_within _ _ _ (sub_trans rfl hs) ?_)))
    exact Within.upd hs h₀ id id (fun p hp => by cases p <;> first | rfl | cases hp)

theorem State.bootAgain_within {sc r₀ s₀}  (hs : sub [.regs, .log] sc = true) (h₀ : Within sc r₀ s₀) :
    Within sc r₀ (State.bootAgain s₀) := by
  unfold State.bootAgain
  repeat' first
    | with_reducible assumption
    | ((with_reducible refine sub_trans ?_ hs); exact rfl)
    | with_reducible exact trivial
    | with_reducible refine within_ite ?_ (fun _ => ?_)
    | with_reducible refine State.noteTotal_within _ _ ?_ ?_
    | with_reducible refine State.setFld_within _ _ _ ?_ ?_
    | split
    | (dsimp only)

theorem State.startUp_within {sc r₀ s₀}  (hs : sub [.regs, .coreA, .coreB, .hif, .log, .ecc] sc = true) (h₀ : Within sc r₀ s₀) :
    Within sc r₀ (State.startUp s₀) := by
  unfold State.startUp
  repeat' first
    | with_reducible assumption
    | ((with_reducible refine sub_trans ?_ hs); exact rfl)
    | with_reducible exact trivial
    | with_reducible refine within_ite ?_ (fun _ => ?_)
    | with_reducible refine State.bootAgain_within ?_ ?_
    | with_reducible refine State.bootRepair_within ?_ ?_
    | split
    | (dsimp only)

theorem State.powerReset_within {sc r₀ s₀} (poresetN : Bool) (hs : sub [.regs, .mem, .coreA, .coreB, .qc, .claims, .berth, .time, .hold, .pilot, .boot, .hws, .hif, .pins, .pwr, .cph, .txA, .txB, .rxA, .rxB, .eqA, .eqB, .crA, .crB, .fecA, .fecB, .hailA, .hailB, .frmA, .frmB, .osp, .clm, .brt, .lanes, .mon, .anl, .log, .obs, .ecc, .ref, .sec] sc = true) (h₀ : Within sc r₀ s₀) :
    Within sc r₀ (State.powerReset poresetN s₀) :=
  Within.upd hs h₀ (fun _ => rfl) id (fun p hp => by cases p <;> first | rfl | cases hp)

theorem execPoresetNAssert_within {sc r₀ s₀}  (hs : sub [.regs, .mem, .coreA, .coreB, .qc, .claims, .berth, .time, .hold, .pilot, .boot, .hws, .hif, .pins, .pwr, .cph, .txA, .txB, .rxA, .rxB, .eqA, .eqB, .crA, .crB, .fecA, .fecB, .hailA, .hailB, .frmA, .frmB, .osp, .clm, .brt, .lanes, .mon, .anl, .log, .obs, .ecc, .ref, .sec] sc = true) (h₀ : Within sc r₀ s₀) :
    OutWithin sc r₀ (execPoresetNAssert s₀) := by
  unfold execPoresetNAssert
  repeat' first
    | with_reducible assumption
    | ((with_reducible refine sub_trans ?_ hs); exact rfl)
    | with_reducible exact trivial
    | with_reducible refine within_ite ?_ (fun _ => ?_)
    | with_reducible refine outWithin_next ?_
    | with_reducible refine outWithin_ite ?_ ?_
    | with_reducible exact outWithin_fault _
    | with_reducible refine State.powerReset_within _ ?_ ?_
    | split
    | (dsimp only)

theorem execPoresetNRelease_within {sc r₀ s₀} (testEn : Bool) (hs : sub [.regs, .mem, .coreA, .coreB, .qc, .claims, .berth, .time, .hold, .pilot, .boot, .hws, .hif, .pins, .pwr, .cph, .txA, .txB, .rxA, .rxB, .eqA, .eqB, .crA, .crB, .fecA, .fecB, .hailA, .hailB, .frmA, .frmB, .osp, .clm, .brt, .lanes, .mon, .anl, .log, .obs, .ecc, .ref, .sec] sc = true) (h₀ : Within sc r₀ s₀) :
    OutWithin sc r₀ (execPoresetNRelease testEn s₀) := by
  unfold execPoresetNRelease
  repeat' first
    | with_reducible assumption
    | ((with_reducible refine sub_trans ?_ hs); exact rfl)
    | with_reducible exact trivial
    | with_reducible refine within_ite ?_ (fun _ => ?_)
    | with_reducible refine outWithin_next ?_
    | with_reducible refine outWithin_ite ?_ ?_
    | with_reducible exact outWithin_fault _
    | with_reducible refine State.powerReset_within _ ?_ ?_
    | with_reducible refine State.anlShow_within _ ?_ ?_
    | with_reducible refine within_foldl (fun _ _ _ => ?_) ?_
    | with_reducible refine within_foldl_snd (fun _ _ _ => ?_) ?_
    | split
    | with_reducible refine Within.set_pins ?_ ?_
    | (dsimp only)

theorem execRootPllLocked_within {sc r₀ s₀}  (hs : sub [.regs, .coreA, .coreB, .time, .hif, .ecc] sc = true) (h₀ : Within sc r₀ s₀) :
    OutWithin sc r₀ (execRootPllLocked s₀) := by
  unfold execRootPllLocked
  repeat' first
    | with_reducible assumption
    | ((with_reducible refine sub_trans ?_ hs); exact rfl)
    | with_reducible exact trivial
    | with_reducible refine within_ite ?_ (fun _ => ?_)
    | with_reducible refine outWithin_next ?_
    | with_reducible refine outWithin_ite ?_ ?_
    | with_reducible exact outWithin_fault _
    | with_reducible refine State.bootRepair_within ?_ ?_
    | with_reducible refine State.setFld_within _ _ _ ?_ ?_
    | split
    | with_reducible refine Within.set_time ?_ ?_
    | (dsimp only)

theorem execResetNAssert_within {sc r₀ s₀}  (hs : sub [.regs, .coreA, .coreB, .qc, .claims, .berth, .hold, .pilot, .boot, .hws, .hif, .pins, .pwr, .cph, .txA, .txB, .rxA, .rxB, .eqA, .eqB, .crA, .crB, .fecA, .fecB, .hailA, .hailB, .frmA, .frmB, .osp, .clm, .brt, .lanes, .mon, .anl, .log, .obs, .ecc, .sec] sc = true) (h₀ : Within sc r₀ s₀) :
    OutWithin sc r₀ (execResetNAssert s₀) := by
  unfold execResetNAssert
  repeat' first
    | with_reducible assumption
    | ((with_reducible refine sub_trans ?_ hs); exact rfl)
    | with_reducible exact trivial
    | with_reducible refine within_ite ?_ (fun _ => ?_)
    | with_reducible refine outWithin_next ?_
    | with_reducible refine outWithin_ite ?_ ?_
    | with_reducible exact outWithin_fault _
    | with_reducible refine State.holdReset_within _ ?_ ?_
    | split
    | with_reducible refine Within.set_pins ?_ ?_
    | (dsimp only)

theorem execResetNRelease_within {sc r₀ s₀}  (hs : sub [.regs, .coreA, .coreB, .hif, .pins, .log, .ecc] sc = true) (h₀ : Within sc r₀ s₀) :
    OutWithin sc r₀ (execResetNRelease s₀) := by
  unfold execResetNRelease
  repeat' first
    | with_reducible assumption
    | ((with_reducible refine sub_trans ?_ hs); exact rfl)
    | with_reducible exact trivial
    | with_reducible refine within_ite ?_ (fun _ => ?_)
    | with_reducible refine outWithin_next ?_
    | with_reducible refine outWithin_ite ?_ ?_
    | with_reducible exact outWithin_fault _
    | with_reducible refine State.startUp_within ?_ ?_
    | split
    | with_reducible refine Within.set_pins ?_ ?_
    | (dsimp only)

theorem State.swReset_within {sc r₀ s₀}  (hs : sub [.regs, .coreA, .coreB, .qc, .claims, .berth, .hold, .pilot, .boot, .hws, .hif, .pwr, .cph, .txA, .txB, .rxA, .rxB, .eqA, .eqB, .crA, .crB, .fecA, .fecB, .hailA, .hailB, .frmA, .frmB, .osp, .clm, .brt, .lanes, .mon, .anl, .log, .obs, .ecc, .sec] sc = true) (h₀ : Within sc r₀ s₀) :
    Within sc r₀ (State.swReset s₀) := by
  unfold State.swReset
  repeat' first
    | with_reducible assumption
    | ((with_reducible refine sub_trans ?_ hs); exact rfl)
    | with_reducible exact trivial
    | with_reducible refine within_ite ?_ (fun _ => ?_)
    | with_reducible refine State.startUp_within ?_ ?_
    | with_reducible refine State.holdReset_within _ ?_ ?_
    | split
    | (dsimp only)

theorem execHifSwreset_within {sc r₀ s₀}  (hs : sub [.regs, .coreA, .coreB, .qc, .claims, .berth, .hold, .pilot, .boot, .hws, .hif, .pwr, .cph, .txA, .txB, .rxA, .rxB, .eqA, .eqB, .crA, .crB, .fecA, .fecB, .hailA, .hailB, .frmA, .frmB, .osp, .clm, .brt, .lanes, .mon, .anl, .log, .obs, .ecc, .sec] sc = true) (h₀ : Within sc r₀ s₀) :
    OutWithin sc r₀ (execHifSwreset s₀) := by
  unfold execHifSwreset
  repeat' first
    | with_reducible assumption
    | ((with_reducible refine sub_trans ?_ hs); exact rfl)
    | with_reducible exact trivial
    | with_reducible refine within_ite ?_ (fun _ => ?_)
    | with_reducible refine outWithin_next ?_
    | with_reducible refine outWithin_ite ?_ ?_
    | with_reducible exact outWithin_fault _
    | with_reducible refine State.swReset_within ?_ ?_
    | split
    | (dsimp only)

theorem State.msixReset_within {sc r₀ s₀}  (hs : sub [.regs] sc = true) (h₀ : Within sc r₀ s₀) :
    Within sc r₀ (State.msixReset s₀) := by
  unfold State.msixReset
  repeat' first
    | with_reducible assumption
    | ((with_reducible refine sub_trans ?_ hs); exact rfl)
    | with_reducible exact trivial
    | with_reducible refine within_ite ?_ (fun _ => ?_)
    | with_reducible refine State.setReg_within _ _ ?_ ?_
    | with_reducible refine forN_within _ _ ?_ ?_
    | with_reducible refine forN_within (fun _ _ _ => ?_) ?_
    | split
    | (dsimp only)

theorem execPerstN_within {sc r₀ s₀} (up : Bool) (lanes : Fin 2) (speed : Fin 4) (msix : Bool) (fnMask : Bool) (hs : sub [.regs, .hif] sc = true) (h₀ : Within sc r₀ s₀) :
    OutWithin sc r₀ (execPerstN up lanes speed msix fnMask s₀) := by
  unfold execPerstN
  repeat' first
    | with_reducible assumption
    | ((with_reducible refine sub_trans ?_ hs); exact rfl)
    | with_reducible exact trivial
    | with_reducible refine within_ite ?_ (fun _ => ?_)
    | with_reducible refine outWithin_next ?_
    | with_reducible refine outWithin_ite ?_ ?_
    | with_reducible exact outWithin_fault _
    | with_reducible refine State.msixReset_within ?_ ?_
    | with_reducible refine State.setFlag_within _ _ _ ?_ ?_
    | with_reducible refine State.setFld_within _ _ _ ?_ ?_
    | split
    | with_reducible refine Within.set_hif ?_ ?_
    | (dsimp only)

theorem execRootPllLoss_within {sc r₀ s₀}  (hs : sub [.regs, .coreA, .coreB, .qc, .claims, .berth, .time, .hold, .pilot, .boot, .hws, .hif, .pins, .pwr, .cph, .txA, .txB, .rxA, .rxB, .eqA, .eqB, .crA, .crB, .fecA, .fecB, .hailA, .hailB, .frmA, .frmB, .osp, .clm, .brt, .lanes, .mon, .anl, .log, .obs, .ecc, .sec] sc = true) (h₀ : Within sc r₀ s₀) :
    OutWithin sc r₀ (execRootPllLoss s₀) := by
  unfold execRootPllLoss
  repeat' first
    | with_reducible assumption
    | ((with_reducible refine sub_trans ?_ hs); exact rfl)
    | with_reducible exact trivial
    | with_reducible refine within_ite ?_ (fun _ => ?_)
    | with_reducible refine outWithin_next ?_
    | with_reducible refine outWithin_ite ?_ ?_
    | with_reducible exact outWithin_fault _
    | with_reducible refine State.holdReset_within _ ?_ ?_
    | with_reducible refine State.setFlag_within _ _ _ ?_ ?_
    | split
    | with_reducible refine Within.set_pins ?_ ?_
    | with_reducible refine Within.set_time ?_ ?_
    | with_reducible refine Within.set_time_pins ?_ ?_
    | (dsimp only)

theorem execRootRelockRetry_within {sc r₀ s₀} (locked : Bool) (hs : sub [.regs, .coreA, .coreB, .time, .hif, .pins, .log] sc = true) (h₀ : Within sc r₀ s₀) :
    OutWithin sc r₀ (execRootRelockRetry locked s₀) := by
  unfold execRootRelockRetry
  repeat' first
    | with_reducible assumption
    | ((with_reducible refine sub_trans ?_ hs); exact rfl)
    | with_reducible exact trivial
    | with_reducible refine within_ite ?_ (fun _ => ?_)
    | with_reducible refine outWithin_next ?_
    | with_reducible refine outWithin_ite ?_ ?_
    | with_reducible exact outWithin_fault _
    | with_reducible refine State.bootAgain_within ?_ ?_
    | with_reducible refine State.noteTotal_within _ _ ?_ ?_
    | with_reducible refine State.logEvent_within _ _ _ _ ?_ ?_
    | split
    | with_reducible refine Within.set_pins ?_ ?_
    | with_reducible refine Within.set_time ?_ ?_
    | with_reducible refine Within.set_time_pins ?_ ?_
    | (dsimp only)

theorem State.releaseCores_within {sc r₀ s₀}  (hs : sub [.regs, .coreA, .coreB, .qc, .pilot, .hws, .hif] sc = true) (h₀ : Within sc r₀ s₀) :
    Within sc r₀ (State.releaseCores s₀) := by
  unfold State.releaseCores
  repeat' first
    | with_reducible assumption
    | ((with_reducible refine sub_trans ?_ hs); exact rfl)
    | with_reducible exact trivial
    | with_reducible refine within_ite ?_ (fun _ => ?_)
    | with_reducible refine State.soleActive_within _ _ ?_ ?_
    | with_reducible refine State.startEntryCore_within _ _ _ ?_ ?_
    | with_reducible refine State.enterResync_within _ _ ?_ ?_
    | with_reducible refine State.setFld_within _ _ _ ?_ ?_
    | split
    | with_reducible refine Within.set_pilot ?_ ?_
    | (dsimp only)

theorem execHarbourManifestLoad_within {sc r₀ s₀}  (hs : sub [.regs, .mem, .coreA, .coreB, .qc, .berth, .pilot, .boot, .hws, .hif, .ecc, .sec] sc = true) (h₀ : Within sc r₀ s₀) :
    OutWithin sc r₀ (execHarbourManifestLoad s₀) := by
  unfold execHarbourManifestLoad
  repeat' first
    | with_reducible assumption
    | ((with_reducible refine sub_trans ?_ hs); exact rfl)
    | with_reducible exact trivial
    | with_reducible refine within_ite ?_ (fun _ => ?_)
    | with_reducible refine outWithin_next ?_
    | with_reducible refine outWithin_ite ?_ ?_
    | with_reducible exact outWithin_fault _
    | with_reducible refine State.releaseCores_within ?_ ?_
    | with_reducible refine State.bootHalt_within _ ?_ ?_
    | with_reducible refine State.loadHarbour_within _ _ ?_ ?_
    | with_reducible refine State.rollbackRaise_within _ _ _ ?_ ?_
    | with_reducible refine State.logEvent_within _ _ _ _ ?_ ?_
    | with_reducible refine State.zeroMem_within _ _ ?_ ?_
    | split
    | with_reducible refine Within.set_berth ?_ ?_
    | with_reducible refine Within.set_boot ?_ ?_
    | with_reducible refine Within.set_berth_boot ?_ ?_
    | (dsimp only)

end Sys2Proof.Laws
end

