-- ==== Sys2Proof/Laws/Plelis.lean ====
section
/-! SUPPORT. The scope of each operation of Sys2Proof/Machine/Plelis.lean. -/
namespace Sys2Proof.Laws
open Sys2Proof.Machine Sys2Proof.Safety

theorem State.coreFault_within {sc r₀ s₀} (k : CoreId) (cause : Nat) (block : Nat) (detail : Nat) (faddr : W64) (hs : sub [.coreA, .coreB] sc = true) (h₀ : Within sc r₀ s₀) :
    Within sc r₀ (State.coreFault k cause block detail faddr s₀) := by
  unfold State.coreFault
  repeat' first
    | with_reducible assumption
    | ((with_reducible refine sub_trans ?_ hs); exact rfl)
    | with_reducible exact trivial
    | with_reducible refine within_ite ?_ (fun _ => ?_)
    | with_reducible refine State.pmcCount_within _ _ _ ?_ ?_
    | with_reducible refine State.modCore_within _ _ ?_ ?_
    | split
    | (dsimp only)

theorem accessFault_within {sc r₀} (a : W64) : ResWithin sc r₀ (accessFault a) := trivial

theorem State.coreRead_within {sc r₀ s₀} (k : CoreId) (a : Nat) (n : Nat) (hs : sub [.regs, .coreA, .coreB, .hif, .free, .log, .ecc] sc = true) (h₀ : Within sc r₀ s₀) :
    Within sc r₀ (State.coreRead k a n s₀).2.2 := by
  unfold State.coreRead
  repeat' first
    | with_reducible assumption
    | ((with_reducible refine sub_trans ?_ hs); exact rfl)
    | with_reducible exact trivial
    | with_reducible refine within_ite ?_ (fun _ => ?_)
    | with_reducible refine within_ite_snd ?_ (fun _ => ?_)
    | with_reducible refine State.eccRead_within' _ _  ‹_› ?_ ?_
    | with_reducible refine State.eccRead_within _ _ ?_ ?_
    | with_reducible refine State.pmcCount_within _ _ _ ?_ ?_
    | split
    | (dsimp only)
theorem State.coreRead_within' {sc r₀ s₀ t} {x0 x1} (k : CoreId) (a : Nat) (n : Nat) (he : State.coreRead k a n s₀ = (x0, x1, t)) (hs : sub [.regs, .coreA, .coreB, .hif, .free, .log, .ecc] sc = true) (h₀ : Within sc r₀ s₀) : Within sc r₀ t := by
  have h := State.coreRead_within k a n hs h₀
  rw [he] at h
  exact h

theorem State.coreStep_within {sc r₀ s₀} (k : CoreId) (wf : Bool) (body : PlelisCore → State → CoreRes)
    (hb : ∀ c s, Within sc r₀ s → ResWithin sc r₀ (body c s)) (hs : sub [.regs, .coreA, .coreB, .hif, .free, .log, .ecc] sc = true) (h₀ : Within sc r₀ s₀) :
    Within sc r₀ (State.coreStep k wf body s₀) := by
  unfold State.coreStep
  dsimp only
  split
  · exact h₀
  · split
    · exact State.coreFault_within _ _ _ _ _ (sub_trans rfl hs) h₀
    · have ht := State.coreRead_within k (s₀.core k).pc.toNat 4 (sub_trans rfl hs) h₀
      generalize State.coreRead k (s₀.core k).pc.toNat 4 s₀ = p at ht ⊢
      obtain ⟨ok, x, t⟩ := p
      dsimp only at ht ⊢
      split
      · exact State.modCore_within _ _ (sub_trans rfl hs) ht
      · split
        · exact State.coreFault_within _ _ _ _ _ (sub_trans rfl hs) ht
        · have hr := hb (t.core k) t ht
          split <;> rename_i hx <;> rw [hx] at hr
          · exact State.retire_within _ (sub_trans rfl hs) hr
          · exact State.pmcCount_within _ _ _ (sub_trans rfl hs) (State.retireAt_within _ _ (sub_trans rfl hs) hr)
          · exact State.modCore_within _ _ (sub_trans rfl hs) hr
          · exact State.coreFault_within _ _ _ _ _ (sub_trans rfl hs) ht
          · exact State.coreFault_within _ _ _ _ _ (sub_trans rfl hs) hr
          · exact State.modCore_within _ _ (sub_trans rfl hs) hr

theorem State.coreAlu_within {sc r₀ s₀} (k : CoreId) (wf : Bool) (rd : BitVec 5) (f : PlelisCore → W64) (hs : sub [.regs, .coreA, .coreB, .hif, .free, .log, .ecc] sc = true) (h₀ : Within sc r₀ s₀) :
    Within sc r₀ (State.coreAlu k wf rd f s₀) := by
  unfold State.coreAlu
  repeat' first
    | with_reducible assumption
    | ((with_reducible refine sub_trans ?_ hs); exact rfl)
    | with_reducible exact trivial
    | with_reducible refine within_ite ?_ (fun _ => ?_)
    | with_reducible refine within_ite_snd ?_ (fun _ => ?_)
    | with_reducible refine resWithin_next ?_
    | with_reducible refine resWithin_jump _ ?_
    | with_reducible refine resWithin_stall _ ?_
    | with_reducible refine resWithin_parked _ _ ?_
    | with_reducible refine resWithin_ecc ?_
    | with_reducible exact resWithin_fault _ _ _ _
    | with_reducible refine resWithin_ite ?_ ?_
    | with_reducible refine State.modCore_within _ _ ?_ ?_
    | with_reducible refine State.coreStep_within _ _ _ (fun _ _ _ => ?_) ?_ ?_
    | split
    | (dsimp only)

theorem State.coreBranch_within {sc r₀ s₀} (k : CoreId) (off : BitVec 16) (taken : PlelisCore → Bool) (hs : sub [.regs, .coreA, .coreB, .hif, .free, .log, .ecc] sc = true) (h₀ : Within sc r₀ s₀) :
    Within sc r₀ (State.coreBranch k off taken s₀) := by
  unfold State.coreBranch
  repeat' first
    | with_reducible assumption
    | ((with_reducible refine sub_trans ?_ hs); exact rfl)
    | with_reducible exact trivial
    | with_reducible refine within_ite ?_ (fun _ => ?_)
    | with_reducible refine within_ite_snd ?_ (fun _ => ?_)
    | with_reducible refine resWithin_next ?_
    | with_reducible refine resWithin_jump _ ?_
    | with_reducible refine resWithin_stall _ ?_
    | with_reducible refine resWithin_parked _ _ ?_
    | with_reducible refine resWithin_ecc ?_
    | with_reducible exact resWithin_fault _ _ _ _
    | with_reducible refine resWithin_ite ?_ ?_
    | with_reducible refine State.coreStep_within _ _ _ (fun _ _ _ => ?_) ?_ ?_
    | split
    | (dsimp only)

theorem State.coreLoad_within {sc r₀ s₀} (k : CoreId) (n : Nat) (rd : BitVec 5) (ra : BitVec 5) (imm : BitVec 16) (hs : sub [.regs, .coreA, .coreB, .hif, .free, .log, .ecc] sc = true) (h₀ : Within sc r₀ s₀) :
    Within sc r₀ (State.coreLoad k n rd ra imm s₀) := by
  unfold State.coreLoad
  repeat' first
    | with_reducible assumption
    | ((with_reducible refine sub_trans ?_ hs); exact rfl)
    | with_reducible exact trivial
    | with_reducible refine within_ite ?_ (fun _ => ?_)
    | with_reducible refine within_ite_snd ?_ (fun _ => ?_)
    | with_reducible refine resWithin_next ?_
    | with_reducible refine resWithin_jump _ ?_
    | with_reducible refine resWithin_stall _ ?_
    | with_reducible refine resWithin_parked _ _ ?_
    | with_reducible refine resWithin_ecc ?_
    | with_reducible exact resWithin_fault _ _ _ _
    | with_reducible refine resWithin_ite ?_ ?_
    | with_reducible refine State.coreRead_within' _ _ _  ‹_› ?_ ?_
    | with_reducible refine State.coreRead_within _ _ _ ?_ ?_
    | with_reducible refine accessFault_within _ ?_ ?_
    | with_reducible refine State.modCore_within _ _ ?_ ?_
    | with_reducible refine State.coreStep_within _ _ _ (fun _ _ _ => ?_) ?_ ?_
    | exact accessFault_within _
    | split
    | (dsimp only)

theorem State.coreSave_within {sc r₀ s₀} (k : CoreId) (n : Nat) (rs : BitVec 5) (ra : BitVec 5) (imm : BitVec 16) (hs : sub [.regs, .mem, .coreA, .coreB, .hws, .hif, .free, .log, .ecc] sc = true) (h₀ : Within sc r₀ s₀) :
    Within sc r₀ (State.coreSave k n rs ra imm s₀) := by
  unfold State.coreSave
  repeat' first
    | with_reducible assumption
    | ((with_reducible refine sub_trans ?_ hs); exact rfl)
    | with_reducible exact trivial
    | with_reducible refine within_ite ?_ (fun _ => ?_)
    | with_reducible refine within_ite_snd ?_ (fun _ => ?_)
    | with_reducible refine resWithin_next ?_
    | with_reducible refine resWithin_jump _ ?_
    | with_reducible refine resWithin_stall _ ?_
    | with_reducible refine resWithin_parked _ _ ?_
    | with_reducible refine resWithin_ecc ?_
    | with_reducible exact resWithin_fault _ _ _ _
    | with_reducible refine resWithin_ite ?_ ?_
    | with_reducible refine accessFault_within _ ?_ ?_
    | with_reducible refine State.coreStore_within _ _ _ _ ?_ ?_
    | with_reducible refine State.coreStep_within _ _ _ (fun _ _ _ => ?_) ?_ ?_
    | exact accessFault_within _
    | split
    | (dsimp only)

end Sys2Proof.Laws
end

