-- ==== Sys2Proof/Laws/System.lean ====
section
/-! SUPPORT. The scope of each operation of Sys2Proof/Machine/System.lean. -/
namespace Sys2Proof.Laws
open Sys2Proof.Machine Sys2Proof.Safety

theorem State.sendFault_within {sc r₀ s₀ f} (harbour : Bool) (q b : W64) (e : State.sendFault s₀ harbour q b = some f) : ResWithin sc r₀ f := by
  unfold State.sendFault at e
  try dsimp only at e
  repeat' first
    | (cases e; done)
    | (cases e; exact trivial)
    | split at e

theorem execSend_within {sc r₀ s₀} (k : CoreId) (rd : BitVec 5) (ra : BitVec 5) (rb : BitVec 5) (hs : sub [.regs, .mem, .coreA, .coreB, .qc, .hws, .hif, .pwr, .free, .log, .ecc] sc = true) (h₀ : Within sc r₀ s₀) :
    OutWithin sc r₀ (execSend k rd ra rb s₀) := by
  unfold execSend
  repeat' first
    | with_reducible assumption
    | ((with_reducible refine sub_trans ?_ hs); exact rfl)
    | with_reducible exact trivial
    | with_reducible refine within_ite ?_ (fun _ => ?_)
    | with_reducible refine within_ite_snd ?_ (fun _ => ?_)
    | with_reducible refine outWithin_next ?_
    | with_reducible refine outWithin_ite ?_ ?_
    | with_reducible exact outWithin_fault _
    | with_reducible refine resWithin_next ?_
    | with_reducible refine resWithin_jump _ ?_
    | with_reducible refine resWithin_stall _ ?_
    | with_reducible refine resWithin_parked _ _ ?_
    | with_reducible refine resWithin_ecc ?_
    | with_reducible exact resWithin_fault _ _ _ _
    | with_reducible refine resWithin_ite ?_ ?_
    | with_reducible refine State.coreRead_within' _ _ _  ‹_› ?_ ?_
    | with_reducible refine State.coreRead_within _ _ _ ?_ ?_
    | with_reducible refine State.accept_within' _ _ _  ‹_› ?_ ?_
    | with_reducible refine State.accept_within _ _ _ ?_ ?_
    | with_reducible refine State.pmcCount_within _ _ _ ?_ ?_
    | with_reducible refine State.modCore_within _ _ ?_ ?_
    | with_reducible refine State.coreStep_within _ _ _ (fun _ _ _ => ?_) ?_ ?_
    | exact State.sendFault_within _ _ _  ‹_›
    | split
    | (dsimp only)

theorem execWaitt_within {sc r₀ s₀} (k : CoreId) (rd : BitVec 5) (ra : BitVec 5) (imm : BitVec 16) (hs : sub [.regs, .coreA, .coreB, .hif, .free, .log, .ecc] sc = true) (h₀ : Within sc r₀ s₀) :
    OutWithin sc r₀ (execWaitt k rd ra imm s₀) := by
  unfold execWaitt
  repeat' first
    | with_reducible assumption
    | ((with_reducible refine sub_trans ?_ hs); exact rfl)
    | with_reducible exact trivial
    | with_reducible refine within_ite ?_ (fun _ => ?_)
    | with_reducible refine within_ite_snd ?_ (fun _ => ?_)
    | with_reducible refine outWithin_next ?_
    | with_reducible refine outWithin_ite ?_ ?_
    | with_reducible exact outWithin_fault _
    | with_reducible refine resWithin_next ?_
    | with_reducible refine resWithin_jump _ ?_
    | with_reducible refine resWithin_stall _ ?_
    | with_reducible refine resWithin_parked _ _ ?_
    | with_reducible refine resWithin_ecc ?_
    | with_reducible exact resWithin_fault _ _ _ _
    | with_reducible refine resWithin_ite ?_ ?_
    | with_reducible refine State.modCore_within _ _ ?_ ?_
    | with_reducible refine State.coreStep_within _ _ _ (fun _ _ _ => ?_) ?_ ?_
    | split
    | (dsimp only)

theorem execWaittTicketDone_within {sc r₀ s₀} (k : CoreId) (hs : sub [.coreA, .coreB] sc = true) (h₀ : Within sc r₀ s₀) :
    OutWithin sc r₀ (execWaittTicketDone k s₀) := by
  unfold execWaittTicketDone
  repeat' first
    | with_reducible assumption
    | ((with_reducible refine sub_trans ?_ hs); exact rfl)
    | with_reducible exact trivial
    | with_reducible refine within_ite ?_ (fun _ => ?_)
    | with_reducible refine outWithin_next ?_
    | with_reducible refine outWithin_ite ?_ ?_
    | with_reducible exact outWithin_fault _
    | with_reducible refine State.retire_within _ ?_ ?_
    | with_reducible refine State.modCore_within _ _ ?_ ?_
    | split
    | (dsimp only)

theorem execWaittTimeout_within {sc r₀ s₀} (k : CoreId) (hs : sub [.coreA, .coreB] sc = true) (h₀ : Within sc r₀ s₀) :
    OutWithin sc r₀ (execWaittTimeout k s₀) := by
  unfold execWaittTimeout
  repeat' first
    | with_reducible assumption
    | ((with_reducible refine sub_trans ?_ hs); exact rfl)
    | with_reducible exact trivial
    | with_reducible refine within_ite ?_ (fun _ => ?_)
    | with_reducible refine outWithin_next ?_
    | with_reducible refine outWithin_ite ?_ ?_
    | with_reducible exact outWithin_fault _
    | with_reducible refine State.retire_within _ ?_ ?_
    | with_reducible refine State.modCore_within _ _ ?_ ?_
    | split
    | (dsimp only)

theorem execPollt_within {sc r₀ s₀} (k : CoreId) (rd : BitVec 5) (ra : BitVec 5) (rb : BitVec 5) (hs : sub [.regs, .coreA, .coreB, .hif, .free, .log, .ecc] sc = true) (h₀ : Within sc r₀ s₀) :
    OutWithin sc r₀ (execPollt k rd ra rb s₀) := by
  unfold execPollt
  repeat' first
    | with_reducible assumption
    | ((with_reducible refine sub_trans ?_ hs); exact rfl)
    | with_reducible exact trivial
    | with_reducible refine within_ite ?_ (fun _ => ?_)
    | with_reducible refine outWithin_next ?_
    | with_reducible refine outWithin_ite ?_ ?_
    | with_reducible exact outWithin_fault _
    | with_reducible refine State.coreAlu_within _ _ _ _ ?_ ?_
    | split
    | (dsimp only)

theorem execFenceR_within {sc r₀ s₀} (k : CoreId) (rd : BitVec 5) (ra : BitVec 5) (rb : BitVec 5) (hs : sub [.regs, .coreA, .coreB, .hif, .free, .log, .ecc] sc = true) (h₀ : Within sc r₀ s₀) :
    OutWithin sc r₀ (execFenceR k rd ra rb s₀) := by
  unfold execFenceR
  repeat' first
    | with_reducible assumption
    | ((with_reducible refine sub_trans ?_ hs); exact rfl)
    | with_reducible exact trivial
    | with_reducible refine within_ite ?_ (fun _ => ?_)
    | with_reducible refine within_ite_snd ?_ (fun _ => ?_)
    | with_reducible refine outWithin_next ?_
    | with_reducible refine outWithin_ite ?_ ?_
    | with_reducible exact outWithin_fault _
    | with_reducible refine resWithin_next ?_
    | with_reducible refine resWithin_jump _ ?_
    | with_reducible refine resWithin_stall _ ?_
    | with_reducible refine resWithin_parked _ _ ?_
    | with_reducible refine resWithin_ecc ?_
    | with_reducible exact resWithin_fault _ _ _ _
    | with_reducible refine resWithin_ite ?_ ?_
    | with_reducible refine State.coreStep_within _ _ _ (fun _ _ _ => ?_) ?_ ?_
    | split
    | (dsimp only)

theorem execFenceQ_within {sc r₀ s₀} (k : CoreId) (rd : BitVec 5) (ra : BitVec 5) (rb : BitVec 5) (hs : sub [.regs, .coreA, .coreB, .hif, .free, .log, .ecc] sc = true) (h₀ : Within sc r₀ s₀) :
    OutWithin sc r₀ (execFenceQ k rd ra rb s₀) := by
  unfold execFenceQ
  repeat' first
    | with_reducible assumption
    | ((with_reducible refine sub_trans ?_ hs); exact rfl)
    | with_reducible exact trivial
    | with_reducible refine within_ite ?_ (fun _ => ?_)
    | with_reducible refine within_ite_snd ?_ (fun _ => ?_)
    | with_reducible refine outWithin_next ?_
    | with_reducible refine outWithin_ite ?_ ?_
    | with_reducible exact outWithin_fault _
    | with_reducible refine resWithin_next ?_
    | with_reducible refine resWithin_jump _ ?_
    | with_reducible refine resWithin_stall _ ?_
    | with_reducible refine resWithin_parked _ _ ?_
    | with_reducible refine resWithin_ecc ?_
    | with_reducible exact resWithin_fault _ _ _ _
    | with_reducible refine resWithin_ite ?_ ?_
    | with_reducible refine State.coreStep_within _ _ _ (fun _ _ _ => ?_) ?_ ?_
    | split
    | (dsimp only)

theorem execFenceA_within {sc r₀ s₀} (k : CoreId) (rd : BitVec 5) (ra : BitVec 5) (rb : BitVec 5) (hs : sub [.regs, .coreA, .coreB, .hif, .free, .log, .ecc] sc = true) (h₀ : Within sc r₀ s₀) :
    OutWithin sc r₀ (execFenceA k rd ra rb s₀) := by
  unfold execFenceA
  repeat' first
    | with_reducible assumption
    | ((with_reducible refine sub_trans ?_ hs); exact rfl)
    | with_reducible exact trivial
    | with_reducible refine within_ite ?_ (fun _ => ?_)
    | with_reducible refine within_ite_snd ?_ (fun _ => ?_)
    | with_reducible refine outWithin_next ?_
    | with_reducible refine outWithin_ite ?_ ?_
    | with_reducible exact outWithin_fault _
    | with_reducible refine resWithin_next ?_
    | with_reducible refine resWithin_jump _ ?_
    | with_reducible refine resWithin_stall _ ?_
    | with_reducible refine resWithin_parked _ _ ?_
    | with_reducible refine resWithin_ecc ?_
    | with_reducible exact resWithin_fault _ _ _ _
    | with_reducible refine resWithin_ite ?_ ?_
    | with_reducible refine State.coreStep_within _ _ _ (fun _ _ _ => ?_) ?_ ?_
    | split
    | (dsimp only)

theorem execCommit_within {sc r₀ s₀} (k : CoreId) (rd : BitVec 5) (ra : BitVec 5) (rb : BitVec 5) (hs : sub [.regs, .coreA, .coreB, .hif, .free, .log, .ecc] sc = true) (h₀ : Within sc r₀ s₀) :
    OutWithin sc r₀ (execCommit k rd ra rb s₀) := by
  unfold execCommit
  repeat' first
    | with_reducible assumption
    | ((with_reducible refine sub_trans ?_ hs); exact rfl)
    | with_reducible exact trivial
    | with_reducible refine within_ite ?_ (fun _ => ?_)
    | with_reducible refine within_ite_snd ?_ (fun _ => ?_)
    | with_reducible refine outWithin_next ?_
    | with_reducible refine outWithin_ite ?_ ?_
    | with_reducible exact outWithin_fault _
    | with_reducible refine resWithin_next ?_
    | with_reducible refine resWithin_jump _ ?_
    | with_reducible refine resWithin_stall _ ?_
    | with_reducible refine resWithin_parked _ _ ?_
    | with_reducible refine resWithin_ecc ?_
    | with_reducible exact resWithin_fault _ _ _ _
    | with_reducible refine resWithin_ite ?_ ?_
    | with_reducible refine State.coreStep_within _ _ _ (fun _ _ _ => ?_) ?_ ?_
    | split
    | (dsimp only)

theorem execClaim_within {sc r₀ s₀} (k : CoreId) (rd : BitVec 5) (ra : BitVec 5) (imm : BitVec 16) (hs : sub [.regs, .coreA, .coreB, .claims, .hif, .free, .log, .ecc] sc = true) (h₀ : Within sc r₀ s₀) :
    OutWithin sc r₀ (execClaim k rd ra imm s₀) := by
  unfold execClaim
  repeat' first
    | with_reducible assumption
    | ((with_reducible refine sub_trans ?_ hs); exact rfl)
    | with_reducible exact trivial
    | with_reducible refine within_ite ?_ (fun _ => ?_)
    | with_reducible refine within_ite_snd ?_ (fun _ => ?_)
    | with_reducible refine outWithin_next ?_
    | with_reducible refine outWithin_ite ?_ ?_
    | with_reducible exact outWithin_fault _
    | with_reducible refine resWithin_next ?_
    | with_reducible refine resWithin_jump _ ?_
    | with_reducible refine resWithin_stall _ ?_
    | with_reducible refine resWithin_parked _ _ ?_
    | with_reducible refine resWithin_ecc ?_
    | with_reducible exact resWithin_fault _ _ _ _
    | with_reducible refine resWithin_ite ?_ ?_
    | with_reducible refine State.grantClaim_within _ _ ?_ ?_
    | with_reducible refine State.modCore_within _ _ ?_ ?_
    | with_reducible refine State.coreStep_within _ _ _ (fun _ _ _ => ?_) ?_ ?_
    | split
    | (dsimp only)

theorem execRelease_within {sc r₀ s₀} (k : CoreId) (rd : BitVec 5) (ra : BitVec 5) (imm : BitVec 16) (hs : sub [.regs, .coreA, .coreB, .claims, .hif, .free, .log, .ecc] sc = true) (h₀ : Within sc r₀ s₀) :
    OutWithin sc r₀ (execRelease k rd ra imm s₀) := by
  unfold execRelease
  repeat' first
    | with_reducible assumption
    | ((with_reducible refine sub_trans ?_ hs); exact rfl)
    | with_reducible exact trivial
    | with_reducible refine within_ite ?_ (fun _ => ?_)
    | with_reducible refine within_ite_snd ?_ (fun _ => ?_)
    | with_reducible refine outWithin_next ?_
    | with_reducible refine outWithin_ite ?_ ?_
    | with_reducible exact outWithin_fault _
    | with_reducible refine resWithin_next ?_
    | with_reducible refine resWithin_jump _ ?_
    | with_reducible refine resWithin_stall _ ?_
    | with_reducible refine resWithin_parked _ _ ?_
    | with_reducible refine resWithin_ecc ?_
    | with_reducible exact resWithin_fault _ _ _ _
    | with_reducible refine resWithin_ite ?_ ?_
    | with_reducible refine State.releaseClaim_within _ ?_ ?_
    | with_reducible refine State.coreStep_within _ _ _ (fun _ _ _ => ?_) ?_ ?_
    | split
    | (dsimp only)

theorem execMfs_within {sc r₀ s₀} (k : CoreId) (rd : BitVec 5) (ra : BitVec 5) (imm : BitVec 16) (hs : sub [.regs, .coreA, .coreB, .hif, .free, .log, .ecc] sc = true) (h₀ : Within sc r₀ s₀) :
    OutWithin sc r₀ (execMfs k rd ra imm s₀) := by
  unfold execMfs
  repeat' first
    | with_reducible assumption
    | ((with_reducible refine sub_trans ?_ hs); exact rfl)
    | with_reducible exact trivial
    | with_reducible refine within_ite ?_ (fun _ => ?_)
    | with_reducible refine within_ite_snd ?_ (fun _ => ?_)
    | with_reducible refine outWithin_next ?_
    | with_reducible refine outWithin_ite ?_ ?_
    | with_reducible exact outWithin_fault _
    | with_reducible refine resWithin_next ?_
    | with_reducible refine resWithin_jump _ ?_
    | with_reducible refine resWithin_stall _ ?_
    | with_reducible refine resWithin_parked _ _ ?_
    | with_reducible refine resWithin_ecc ?_
    | with_reducible exact resWithin_fault _ _ _ _
    | with_reducible refine resWithin_ite ?_ ?_
    | with_reducible refine State.modCore_within _ _ ?_ ?_
    | with_reducible refine State.coreStep_within _ _ _ (fun _ _ _ => ?_) ?_ ?_
    | split
    | (dsimp only)

theorem execMts_within {sc r₀ s₀} (k : CoreId) (rs : BitVec 5) (ra : BitVec 5) (imm : BitVec 16) (hs : sub [.regs, .coreA, .coreB, .hif, .free, .log, .ecc] sc = true) (h₀ : Within sc r₀ s₀) :
    OutWithin sc r₀ (execMts k rs ra imm s₀) := by
  unfold execMts
  repeat' first
    | with_reducible assumption
    | ((with_reducible refine sub_trans ?_ hs); exact rfl)
    | with_reducible exact trivial
    | with_reducible refine within_ite ?_ (fun _ => ?_)
    | with_reducible refine within_ite_snd ?_ (fun _ => ?_)
    | with_reducible refine outWithin_next ?_
    | with_reducible refine outWithin_ite ?_ ?_
    | with_reducible exact outWithin_fault _
    | with_reducible refine resWithin_next ?_
    | with_reducible refine resWithin_jump _ ?_
    | with_reducible refine resWithin_stall _ ?_
    | with_reducible refine resWithin_parked _ _ ?_
    | with_reducible refine resWithin_ecc ?_
    | with_reducible exact resWithin_fault _ _ _ _
    | with_reducible refine resWithin_ite ?_ ?_
    | with_reducible refine State.modCore_within _ _ ?_ ?_
    | with_reducible refine State.coreStep_within _ _ _ (fun _ _ _ => ?_) ?_ ?_
    | split
    | (dsimp only)

theorem execTrap_within {sc r₀ s₀} (k : CoreId) (rd : BitVec 5) (ra : BitVec 5) (imm : BitVec 16) (hs : sub [.regs, .coreA, .coreB, .hif, .free, .log, .ecc] sc = true) (h₀ : Within sc r₀ s₀) :
    OutWithin sc r₀ (execTrap k rd ra imm s₀) := by
  unfold execTrap
  repeat' first
    | with_reducible assumption
    | ((with_reducible refine sub_trans ?_ hs); exact rfl)
    | with_reducible exact trivial
    | with_reducible refine within_ite ?_ (fun _ => ?_)
    | with_reducible refine within_ite_snd ?_ (fun _ => ?_)
    | with_reducible refine outWithin_next ?_
    | with_reducible refine outWithin_ite ?_ ?_
    | with_reducible exact outWithin_fault _
    | with_reducible refine resWithin_next ?_
    | with_reducible refine resWithin_jump _ ?_
    | with_reducible refine resWithin_stall _ ?_
    | with_reducible refine resWithin_parked _ _ ?_
    | with_reducible refine resWithin_ecc ?_
    | with_reducible exact resWithin_fault _ _ _ _
    | with_reducible refine resWithin_ite ?_ ?_
    | with_reducible refine State.coreStep_within _ _ _ (fun _ _ _ => ?_) ?_ ?_
    | split
    | (dsimp only)

theorem execEret_within {sc r₀ s₀} (k : CoreId) (rd : BitVec 5) (ra : BitVec 5) (rb : BitVec 5) (hs : sub [.regs, .coreA, .coreB, .hif, .free, .log, .ecc] sc = true) (h₀ : Within sc r₀ s₀) :
    OutWithin sc r₀ (execEret k rd ra rb s₀) := by
  unfold execEret
  repeat' first
    | with_reducible assumption
    | ((with_reducible refine sub_trans ?_ hs); exact rfl)
    | with_reducible exact trivial
    | with_reducible refine within_ite ?_ (fun _ => ?_)
    | with_reducible refine within_ite_snd ?_ (fun _ => ?_)
    | with_reducible refine outWithin_next ?_
    | with_reducible refine outWithin_ite ?_ ?_
    | with_reducible exact outWithin_fault _
    | with_reducible refine resWithin_next ?_
    | with_reducible refine resWithin_jump _ ?_
    | with_reducible refine resWithin_stall _ ?_
    | with_reducible refine resWithin_parked _ _ ?_
    | with_reducible refine resWithin_ecc ?_
    | with_reducible exact resWithin_fault _ _ _ _
    | with_reducible refine resWithin_ite ?_ ?_
    | with_reducible refine State.modCore_within _ _ ?_ ?_
    | with_reducible refine State.coreStep_within _ _ _ (fun _ _ _ => ?_) ?_ ?_
    | split
    | (dsimp only)

theorem execWfe_within {sc r₀ s₀} (k : CoreId) (rd : BitVec 5) (ra : BitVec 5) (rb : BitVec 5) (hs : sub [.regs, .coreA, .coreB, .hif, .free, .log, .ecc] sc = true) (h₀ : Within sc r₀ s₀) :
    OutWithin sc r₀ (execWfe k rd ra rb s₀) := by
  unfold execWfe
  repeat' first
    | with_reducible assumption
    | ((with_reducible refine sub_trans ?_ hs); exact rfl)
    | with_reducible exact trivial
    | with_reducible refine within_ite ?_ (fun _ => ?_)
    | with_reducible refine within_ite_snd ?_ (fun _ => ?_)
    | with_reducible refine outWithin_next ?_
    | with_reducible refine outWithin_ite ?_ ?_
    | with_reducible exact outWithin_fault _
    | with_reducible refine resWithin_next ?_
    | with_reducible refine resWithin_jump _ ?_
    | with_reducible refine resWithin_stall _ ?_
    | with_reducible refine resWithin_parked _ _ ?_
    | with_reducible refine resWithin_ecc ?_
    | with_reducible exact resWithin_fault _ _ _ _
    | with_reducible refine resWithin_ite ?_ ?_
    | with_reducible refine State.modCore_within _ _ ?_ ?_
    | with_reducible refine State.coreStep_within _ _ _ (fun _ _ _ => ?_) ?_ ?_
    | split
    | (dsimp only)

theorem execWfeWake_within {sc r₀ s₀} (k : CoreId) (hs : sub [.coreA, .coreB] sc = true) (h₀ : Within sc r₀ s₀) :
    OutWithin sc r₀ (execWfeWake k s₀) := by
  unfold execWfeWake
  repeat' first
    | with_reducible assumption
    | ((with_reducible refine sub_trans ?_ hs); exact rfl)
    | with_reducible exact trivial
    | with_reducible refine within_ite ?_ (fun _ => ?_)
    | with_reducible refine outWithin_next ?_
    | with_reducible refine outWithin_ite ?_ ?_
    | with_reducible exact outWithin_fault _
    | with_reducible refine State.retire_within _ ?_ ?_
    | with_reducible refine State.modCore_within _ _ ?_ ?_
    | split
    | (dsimp only)

theorem execObservationInterrupt_within {sc r₀ s₀} (k : CoreId) (hs : sub [.coreA, .coreB] sc = true) (h₀ : Within sc r₀ s₀) :
    OutWithin sc r₀ (execObservationInterrupt k s₀) := by
  unfold execObservationInterrupt
  repeat' first
    | with_reducible assumption
    | ((with_reducible refine sub_trans ?_ hs); exact rfl)
    | with_reducible exact trivial
    | with_reducible refine within_ite ?_ (fun _ => ?_)
    | with_reducible refine outWithin_next ?_
    | with_reducible refine outWithin_ite ?_ ?_
    | with_reducible exact outWithin_fault _
    | with_reducible refine State.coreFault_within _ _ _ _ _ ?_ ?_
    | with_reducible refine State.modCore_within _ _ ?_ ?_
    | split
    | (dsimp only)

theorem State.advancePhase_within {sc r₀ s₀} (p : Nat) (hs : sub [.regs, .coreA, .coreB, .time] sc = true) (h₀ : Within sc r₀ s₀) :
    Within sc r₀ (State.advancePhase p s₀) := by
  unfold State.advancePhase
  repeat' first
    | with_reducible assumption
    | ((with_reducible refine sub_trans ?_ hs); exact rfl)
    | with_reducible exact trivial
    | with_reducible refine within_ite ?_ (fun _ => ?_)
    | with_reducible refine State.quietTicks_within _ ?_ ?_
    | with_reducible refine State.slotTicks_within _ _ ?_ ?_
    | with_reducible refine State.pmcCount_within _ _ _ ?_ ?_
    | split
    | with_reducible refine Within.set_time ?_ ?_
    | (dsimp only)

theorem execCommitPoint_within {sc r₀ s₀}  (hs : sub [.regs, .coreA, .coreB, .time] sc = true) (h₀ : Within sc r₀ s₀) :
    OutWithin sc r₀ (execCommitPoint s₀) := by
  unfold execCommitPoint
  repeat' first
    | with_reducible assumption
    | ((with_reducible refine sub_trans ?_ hs); exact rfl)
    | with_reducible exact trivial
    | with_reducible refine within_ite ?_ (fun _ => ?_)
    | with_reducible refine outWithin_next ?_
    | with_reducible refine outWithin_ite ?_ ?_
    | with_reducible exact outWithin_fault _
    | with_reducible refine State.advancePhase_within _ ?_ ?_
    | with_reducible refine State.eventAll_within _ ?_ ?_
    | with_reducible refine State.modCore_within _ _ ?_ ?_
    | split
    | with_reducible refine Within.set_time ?_ ?_
    | (dsimp only)

end Sys2Proof.Laws
end

