-- ==== Sys2Proof/Laws/Access.lean ====
section
/-! SUPPORT. The scope of each operation of Sys2Proof/Machine/Access.lean. -/
namespace Sys2Proof.Laws
open Sys2Proof.Machine Sys2Proof.Safety

theorem State.setHolding_within {sc r₀ s₀} (who : Requester) (h : Holding) (hs : sub [.hold] sc = true) (h₀ : Within sc r₀ s₀) :
    Within sc r₀ (State.setHolding who h s₀) := by
  unfold State.setHolding
  repeat' first
    | with_reducible assumption
    | ((with_reducible refine sub_trans ?_ hs); exact rfl)
    | with_reducible exact trivial
    | with_reducible refine within_ite ?_ (fun _ => ?_)
    | split
    | with_reducible refine Within.set_hold ?_ ?_
    | (dsimp only)

theorem State.readReg_within {sc r₀ s₀} (who : Requester) (a : Nat) (hs : sub [.regs, .hold] sc = true) (h₀ : Within sc r₀ s₀) :
    Within sc r₀ (State.readReg who a s₀).2 := by
  unfold State.readReg
  repeat' first
    | with_reducible assumption
    | ((with_reducible refine sub_trans ?_ hs); exact rfl)
    | with_reducible exact trivial
    | with_reducible refine within_ite ?_ (fun _ => ?_)
    | with_reducible refine within_ite_snd ?_ (fun _ => ?_)
    | with_reducible refine State.setHolding_within _ _ ?_ ?_
    | with_reducible refine State.setReg_within _ _ ?_ ?_
    | split
    | (dsimp only)
theorem State.readReg_within' {sc r₀ s₀ t} {x0} (who : Requester) (a : Nat) (he : State.readReg who a s₀ = (x0, t)) (hs : sub [.regs, .hold] sc = true) (h₀ : Within sc r₀ s₀) : Within sc r₀ t := by
  have h := State.readReg_within who a hs h₀
  rw [he] at h
  exact h

theorem State.msixFlush_within {sc r₀ s₀} (v : Nat) (hs : sub [.regs, .hif] sc = true) (h₀ : Within sc r₀ s₀) :
    Within sc r₀ (State.msixFlush v s₀) := by
  unfold State.msixFlush
  repeat' first
    | with_reducible assumption
    | ((with_reducible refine sub_trans ?_ hs); exact rfl)
    | with_reducible exact trivial
    | with_reducible refine within_ite ?_ (fun _ => ?_)
    | with_reducible refine State.msixSend_within _ ?_ ?_
    | with_reducible refine State.setReg_within _ _ ?_ ?_
    | split
    | (dsimp only)

theorem State.writeSpecial_within' {sc r₀ s₀ t} (a : Nat) (v : W32) (he : State.writeSpecial a v s₀ = some t) (hs : sub [.regs, .mem, .flash, .coreA, .coreB, .qc, .claims, .berth, .hold, .pilot, .boot, .hws, .hif, .pwr, .cph, .txA, .txB, .rxA, .rxB, .eqA, .eqB, .crA, .crB, .fecA, .fecB, .hailA, .hailB, .frmA, .frmB, .osp, .clm, .brt, .lanes, .mon, .anl, .log, .obs, .ecc, .sec] sc = true)
    (h₀ : Within sc r₀ s₀) : Within sc r₀ t := by
  have ss : ∀ {l : List Piece}, sub l [.regs, .mem, .flash, .coreA, .coreB, .qc, .claims, .berth, .hold, .pilot, .boot, .hws, .hif, .pwr, .cph, .txA, .txB, .rxA, .rxB, .eqA, .eqB, .crA, .crB, .fecA, .fecB, .hailA, .hailB, .frmA, .frmB, .osp, .clm, .brt, .lanes, .mon, .anl, .log, .obs, .ecc, .sec] = true → sub l sc = true := fun h => sub_trans h hs
  have hw := State.writeFields_within a v (fieldsAt a) (ss rfl) h₀
  unfold State.writeSpecial at he
  dsimp only at he
  refine within_opt_ite he (fun he => within_opt_some he (State.mbxTake_within _ (ss rfl) h₀)) (fun he => ?_)
  refine within_opt_ite he (fun he => within_opt_some he (State.mbxDone_within _ _ (ss rfl) h₀)) (fun he => ?_)
  refine within_opt_ite he (fun he => within_opt_some he (State.swIrq_within _ (ss rfl) h₀)) (fun he => ?_)
  refine within_opt_ite he (fun he => within_opt_some he (within_ite h₀ (fun _ => State.swReset_within (ss rfl) h₀))) (fun he => ?_)
  refine within_opt_ite he (fun he => within_opt_some he (within_ite (within_ite hw (fun _ => ?_)) (fun _ => h₀))) (fun he => ?_)
  · have hf := State.writeFields_within a (v &&& 3) (fieldsAt a) (ss rfl) h₀
    exact within_ite hf (fun _ => State.recoveryRun_within _ (ss rfl) hf)
  refine within_opt_ite he (fun he => within_opt_some he (State.msixFlush_within _ (ss rfl) hw)) (fun he => ?_)
  refine within_opt_ite he (fun he => within_opt_some he ?_) (fun he => ?_)
  · have h1 := within_ite (c := v.getLsbD 24 = true) hw (fun _ => State.swReg_within (Fin.ofNat 4 ((a - R.MON_TRIG 0) / 4)) (ss rfl) hw)
    exact within_ite h1 (fun _ => State.injTrigger_within _ (ss rfl) h1)
  refine within_opt_ite he (fun he => within_opt_some he ?_) (fun he => ?_)
  · have h1 := within_ite (c := v.getLsbD 0 = true) h₀ (fun _ => State.snapHold_within (ss rfl) h₀)
    exact within_ite h1 (fun _ => State.snapRelease_within (ss rfl) h1)
  refine within_opt_ite he (fun he => within_opt_some he (within_ite h₀ (fun _ => State.secGo_within _ (ss rfl) h₀))) (fun he => ?_)
  refine within_opt_ite he (fun he => within_opt_some he (within_ite h₀ (fun _ => State.secGo_within _ (ss rfl) h₀))) (fun he => ?_)
  exact within_opt_ite he (fun he => within_opt_some he (State.store_within _ _ _ (ss rfl) h₀)) (fun he => nomatch he)

theorem State.writeReg_within {sc r₀ s₀} (a : Nat) (v : W32) (hs : sub [.regs, .mem, .flash, .coreA, .coreB, .qc, .claims, .berth, .hold, .pilot, .boot, .hws, .hif, .pwr, .cph, .txA, .txB, .rxA, .rxB, .eqA, .eqB, .crA, .crB, .fecA, .fecB, .hailA, .hailB, .frmA, .frmB, .osp, .clm, .brt, .lanes, .mon, .anl, .log, .obs, .ecc, .sec] sc = true) (h₀ : Within sc r₀ s₀) :
    Within sc r₀ (State.writeReg a v s₀) := by
  unfold State.writeReg
  repeat' first
    | with_reducible assumption
    | ((with_reducible refine sub_trans ?_ hs); exact rfl)
    | with_reducible exact trivial
    | with_reducible refine within_ite ?_ (fun _ => ?_)
    | with_reducible refine State.writeSpecial_within' _ _  ‹_› ?_ ?_
    | with_reducible refine State.writeFields_within _ _ _ ?_ ?_
    | split
    | (dsimp only)

theorem State.writeW1c_within {sc r₀ s₀} (a : Nat) (v : W32) (hs : sub [.regs] sc = true) (h₀ : Within sc r₀ s₀) :
    Within sc r₀ (State.writeW1c a v s₀) := by
  unfold State.writeW1c
  repeat' first
    | with_reducible assumption
    | ((with_reducible refine sub_trans ?_ hs); exact rfl)
    | with_reducible exact trivial
    | with_reducible refine within_ite ?_ (fun _ => ?_)
    | with_reducible refine State.writeFields_within _ _ _ ?_ ?_
    | split
    | (dsimp only)

theorem State.writeFault_within {sc r₀ s₀ f} (harbour : Bool) (a : W64) (e : State.writeFault s₀ harbour a = some f) : ResWithin sc r₀ f := by
  unfold State.writeFault at e
  try dsimp only at e
  repeat' first
    | (cases e; done)
    | (cases e; exact trivial)
    | split at e

theorem State.programWrite_within {sc r₀ s₀} (k : CoreId) (a : W64) (v : W32) (hs : sub [.regs, .mem, .flash, .coreA, .coreB, .qc, .claims, .berth, .hold, .pilot, .boot, .hws, .hif, .pwr, .free, .cph, .txA, .txB, .rxA, .rxB, .eqA, .eqB, .crA, .crB, .fecA, .fecB, .hailA, .hailB, .frmA, .frmB, .osp, .clm, .brt, .lanes, .mon, .anl, .log, .obs, .ecc, .sec] sc = true) (h₀ : Within sc r₀ s₀) :
    ResWithin sc r₀ (State.programWrite k a v s₀) := by
  unfold State.programWrite
  repeat' first
    | with_reducible assumption
    | ((with_reducible refine sub_trans ?_ hs); exact rfl)
    | with_reducible exact trivial
    | with_reducible refine within_ite ?_ (fun _ => ?_)
    | with_reducible refine resWithin_ite ?_ ?_
    | with_reducible refine resWithin_next ?_
    | with_reducible refine resWithin_jump _ ?_
    | with_reducible refine resWithin_stall _ ?_
    | with_reducible refine resWithin_parked _ _ ?_
    | with_reducible refine resWithin_ecc ?_
    | with_reducible exact resWithin_fault _ _ _ _
    | with_reducible refine resWithin_ite ?_ ?_
    | with_reducible refine State.writeReg_within _ _ ?_ ?_
    | with_reducible refine State.parkedAccess_within _ _ _ _ ?_ ?_
    | with_reducible refine State.accessTouch_within _ _ ?_ ?_
    | split
    | (dsimp only)

theorem execStx_within {sc r₀ s₀} (k : CoreId) (rs ra : BitVec 5) (imm : BitVec 16) (hs : sub [.regs, .mem, .flash, .coreA, .coreB, .qc, .claims, .berth, .hold, .pilot, .boot, .hws, .hif, .pwr, .free, .cph, .txA, .txB, .rxA, .rxB, .eqA, .eqB, .crA, .crB, .fecA, .fecB, .hailA, .hailB, .frmA, .frmB, .osp, .clm, .brt, .lanes, .mon, .anl, .log, .obs, .ecc, .sec] sc = true) (h₀ : Within sc r₀ s₀) :
    OutWithin sc r₀ (execStx k rs ra imm s₀) := by
  refine outWithin_next (State.coreStep_within _ _ _ (fun c s h => ?_) (sub_trans rfl hs) h₀)
  dsimp only
  split
  · exact State.writeFault_within _ _ ‹_›
  · have hp := State.programWrite_within k (c.ea ra imm) ((c.gpr rs).truncate 32) (sub_trans rfl hs) h
    split <;> rename_i hx
    · exact State.pmcCount_within _ _ _ (sub_trans rfl hs) (resWithin_of hp hx)
    · exact hp

theorem State.readFault_within {sc r₀ s₀ f} (a : W64) (e : State.readFault s₀ a = some f) : ResWithin sc r₀ f := by
  unfold State.readFault at e
  try dsimp only at e
  repeat' first
    | (cases e; done)
    | (cases e; exact trivial)
    | split at e

theorem State.readWord_within {sc r₀ s₀} (who : Requester) (a : Nat) (hs : sub [.regs, .mem, .coreA, .coreB, .qc, .hold, .hws, .hif, .pwr, .free, .log, .ecc] sc = true) (h₀ : Within sc r₀ s₀) :
    Within sc r₀ (State.readWord who a s₀).2.2 := by
  unfold State.readWord
  repeat' first
    | with_reducible assumption
    | ((with_reducible refine sub_trans ?_ hs); exact rfl)
    | with_reducible exact trivial
    | with_reducible refine within_ite ?_ (fun _ => ?_)
    | with_reducible refine within_ite_snd ?_ (fun _ => ?_)
    | with_reducible refine State.readReg_within' _ _  ‹_› ?_ ?_
    | with_reducible refine State.readReg_within _ _ ?_ ?_
    | with_reducible refine State.parkedAccess_within _ _ _ _ ?_ ?_
    | with_reducible refine State.accessTouch_within _ _ ?_ ?_
    | split
    | (dsimp only)
theorem State.readWord_within' {sc r₀ s₀ t} {x0 x1} (who : Requester) (a : Nat) (he : State.readWord who a s₀ = (x0, x1, t)) (hs : sub [.regs, .mem, .coreA, .coreB, .qc, .hold, .hws, .hif, .pwr, .free, .log, .ecc] sc = true) (h₀ : Within sc r₀ s₀) : Within sc r₀ t := by
  have h := State.readWord_within who a hs h₀
  rw [he] at h
  exact h

theorem execLdx_within {sc r₀ s₀} (k : CoreId) (rd : BitVec 5) (ra : BitVec 5) (imm : BitVec 16) (hs : sub [.regs, .mem, .coreA, .coreB, .qc, .hold, .hws, .hif, .pwr, .free, .log, .ecc] sc = true) (h₀ : Within sc r₀ s₀) :
    OutWithin sc r₀ (execLdx k rd ra imm s₀) := by
  unfold execLdx
  repeat' first
    | with_reducible assumption
    | ((with_reducible refine sub_trans ?_ hs); exact rfl)
    | with_reducible exact trivial
    | with_reducible refine within_ite ?_ (fun _ => ?_)
    | with_reducible refine within_ite_snd ?_ (fun _ => ?_)
    | with_reducible refine outWithin_next ?_
    | with_reducible refine outWithin_ite ?_ ?_
    | with_reducible exact outWithin_fault _
    | with_reducible refine resWithin_next ?_
    | with_reducible refine resWithin_jump _ ?_
    | with_reducible refine resWithin_stall _ ?_
    | with_reducible refine resWithin_parked _ _ ?_
    | with_reducible refine resWithin_ecc ?_
    | with_reducible exact resWithin_fault _ _ _ _
    | with_reducible refine resWithin_ite ?_ ?_
    | with_reducible refine State.readWord_within' _ _  ‹_› ?_ ?_
    | with_reducible refine State.readWord_within _ _ ?_ ?_
    | with_reducible refine State.pmcCount_within _ _ _ ?_ ?_
    | with_reducible refine State.modCore_within _ _ ?_ ?_
    | with_reducible refine State.coreStep_within _ _ _ (fun _ _ _ => ?_) ?_ ?_
    | exact State.readFault_within _  ‹_›
    | split
    | (dsimp only)

theorem State.hostRead_within {sc r₀ s₀} (i2c : Bool) (a : Nat) (hs : sub [.regs, .mem, .coreA, .coreB, .qc, .hold, .hws, .hif, .pwr, .free, .log, .ecc] sc = true) (h₀ : Within sc r₀ s₀) :
    Within sc r₀ (State.hostRead i2c a s₀).2 := by
  unfold State.hostRead
  repeat' first
    | with_reducible assumption
    | ((with_reducible refine sub_trans ?_ hs); exact rfl)
    | with_reducible exact trivial
    | with_reducible refine within_ite ?_ (fun _ => ?_)
    | with_reducible refine within_ite_snd ?_ (fun _ => ?_)
    | with_reducible refine State.readWord_within' _ _  ‹_› ?_ ?_
    | with_reducible refine State.readWord_within _ _ ?_ ?_
    | with_reducible refine State.hifErr_within _ _ _ ?_ ?_
    | with_reducible refine State.eccRead_within' _ _  ‹_› ?_ ?_
    | with_reducible refine State.eccRead_within _ _ ?_ ?_
    | split
    | (dsimp only)
theorem State.hostRead_within' {sc r₀ s₀ t} {x0} (i2c : Bool) (a : Nat) (he : State.hostRead i2c a s₀ = (x0, t)) (hs : sub [.regs, .mem, .coreA, .coreB, .qc, .hold, .hws, .hif, .pwr, .free, .log, .ecc] sc = true) (h₀ : Within sc r₀ s₀) : Within sc r₀ t := by
  have h := State.hostRead_within i2c a hs h₀
  rw [he] at h
  exact h

theorem State.hostWrite_within {sc r₀ s₀} (a : Nat) (v : W32) (hs : sub [.regs, .mem, .flash, .coreA, .coreB, .qc, .claims, .berth, .hold, .pilot, .boot, .hws, .hif, .pwr, .free, .cph, .txA, .txB, .rxA, .rxB, .eqA, .eqB, .crA, .crB, .fecA, .fecB, .hailA, .hailB, .frmA, .frmB, .osp, .clm, .brt, .lanes, .mon, .anl, .log, .obs, .ecc, .sec] sc = true) (h₀ : Within sc r₀ s₀) :
    Within sc r₀ (State.hostWrite a v s₀) := by
  unfold State.hostWrite
  repeat' first
    | with_reducible assumption
    | ((with_reducible refine sub_trans ?_ hs); exact rfl)
    | with_reducible exact trivial
    | with_reducible refine within_ite ?_ (fun _ => ?_)
    | with_reducible refine State.writeW1c_within _ _ ?_ ?_
    | with_reducible refine State.writeReg_within _ _ ?_ ?_
    | with_reducible refine State.mbxWrite_within _ _ _ ?_ ?_
    | with_reducible refine State.hifErr_within _ _ _ ?_ ?_
    | with_reducible refine State.parkedAccess_within _ _ _ _ ?_ ?_
    | with_reducible refine State.accessTouch_within _ _ ?_ ?_
    | split
    | (dsimp only)

theorem execRegisterWrite_within {sc r₀ s₀} (who : Requester) (addr : BitVec 29) (value : W32) (whole : Bool) (hs : sub [.regs, .mem, .flash, .coreA, .coreB, .qc, .claims, .berth, .hold, .pilot, .boot, .hws, .hif, .pwr, .free, .cph, .txA, .txB, .rxA, .rxB, .eqA, .eqB, .crA, .crB, .fecA, .fecB, .hailA, .hailB, .frmA, .frmB, .osp, .clm, .brt, .lanes, .mon, .anl, .log, .obs, .ecc, .sec] sc = true)
    (h₀ : Within sc r₀ s₀) : OutWithin sc r₀ (execRegisterWrite who addr value whole s₀) := by
  unfold execRegisterWrite
  dsimp only
  split
  · exact outWithin_next (within_ite (within_ite (State.hostWrite_within _ _ (sub_trans rfl hs) h₀)
      (fun _ => State.hifErr_within _ _ _ (sub_trans rfl hs) h₀)) (fun _ => h₀))
  · rename_i k
    refine outWithin_ite (outWithin_next h₀) (outWithin_next ?_)
    have hr : ResWithin sc r₀ (match s₀.writeFault (s₀.core k).harbour (addr.zeroExtend 64) with
        | some f => f
        | none => s₀.programWrite k (addr.zeroExtend 64) value) := by
      split
      · exact State.writeFault_within _ _ ‹_›
      · exact State.programWrite_within _ _ _ (sub_trans rfl hs) h₀
    split <;> rename_i hx
    · exact resWithin_of hr hx
    · exact State.coreFault_within _ _ _ _ _ (sub_trans rfl hs) h₀
    · exact State.coreFault_within _ _ _ _ _ (sub_trans rfl hs) (resWithin_of_parked hr hx)
    · exact h₀

theorem execHostRegisterRead_within {sc r₀ s₀} (addr : BitVec 29) (whole : Bool) (hs : sub [.regs, .mem, .coreA, .coreB, .qc, .hold, .hws, .hif, .pwr, .free, .log, .ecc] sc = true) (h₀ : Within sc r₀ s₀) :
    OutWithin sc r₀ (execHostRegisterRead addr whole s₀) := by
  unfold execHostRegisterRead
  repeat' first
    | with_reducible assumption
    | ((with_reducible refine sub_trans ?_ hs); exact rfl)
    | with_reducible exact trivial
    | with_reducible refine within_ite ?_ (fun _ => ?_)
    | with_reducible refine outWithin_next ?_
    | with_reducible refine outWithin_ite ?_ ?_
    | with_reducible exact outWithin_fault _
    | with_reducible refine State.hostRead_within' _ _  ‹_› ?_ ?_
    | with_reducible refine State.hostRead_within _ _ ?_ ?_
    | with_reducible refine State.hifErr_within _ _ _ ?_ ?_
    | split
    | with_reducible refine Within.set_hif ?_ ?_
    | (dsimp only)

theorem State.i2cWrite_within {sc r₀ s₀} (a : Nat) (v : W32) (hs : sub [.regs, .mem, .coreA, .coreB, .hif, .ecc] sc = true) (h₀ : Within sc r₀ s₀) :
    Within sc r₀ (State.i2cWrite a v s₀) := by
  unfold State.i2cWrite
  repeat' first
    | with_reducible assumption
    | ((with_reducible refine sub_trans ?_ hs); exact rfl)
    | with_reducible exact trivial
    | with_reducible refine within_ite ?_ (fun _ => ?_)
    | with_reducible refine State.writeW1c_within _ _ ?_ ?_
    | with_reducible refine State.mbxWrite_within _ _ _ ?_ ?_
    | with_reducible refine State.hifErr_within _ _ _ ?_ ?_
    | with_reducible refine State.setReg_within _ _ ?_ ?_
    | split
    | (dsimp only)

theorem State.i2cWords_within {sc r₀ s₀} (a : Nat) (l : List Byte) (hs : sub [.regs, .mem, .coreA, .coreB, .hif, .ecc] sc = true) (h₀ : Within sc r₀ s₀) :
    Within sc r₀ (State.i2cWords a l s₀) := by
  induction a, l, s₀ using State.i2cWords.induct with
  | case1 a s b0 b1 b2 b3 l ih =>
    unfold State.i2cWords
    exact ih (State.i2cWrite_within _ _ (sub_trans rfl hs) h₀)
  | case2 a s => exact h₀
  | case3 a s l h1 h2 =>
    unfold State.i2cWords
    split
    · exact absurd rfl (h1 _ _ _ _ _)
    · exact absurd rfl h2
    · exact State.hifErr_within _ _ _ (sub_trans rfl hs) h₀

theorem execI2cWriteTransaction_within {sc r₀ s₀} (target : BitVec 7) (bytes : List Byte) (hs : sub [.regs, .mem, .coreA, .coreB, .hif, .ecc] sc = true) (h₀ : Within sc r₀ s₀) :
    OutWithin sc r₀ (execI2cWriteTransaction target bytes s₀) := by
  unfold execI2cWriteTransaction
  repeat' first
    | with_reducible assumption
    | ((with_reducible refine sub_trans ?_ hs); exact rfl)
    | with_reducible exact trivial
    | with_reducible refine within_ite ?_ (fun _ => ?_)
    | with_reducible refine outWithin_next ?_
    | with_reducible refine outWithin_ite ?_ ?_
    | with_reducible exact outWithin_fault _
    | with_reducible refine State.i2cWords_within _ _ ?_ ?_
    | split
    | (dsimp only)

theorem State.i2cRead_within {sc r₀ s₀} (a : Nat) (hs : sub [.regs, .mem, .coreA, .coreB, .qc, .hold, .hws, .hif, .pwr, .free, .log, .ecc] sc = true) (h₀ : Within sc r₀ s₀) :
    Within sc r₀ (State.i2cRead a s₀).2 := by
  unfold State.i2cRead
  repeat' first
    | with_reducible assumption
    | ((with_reducible refine sub_trans ?_ hs); exact rfl)
    | with_reducible exact trivial
    | with_reducible refine within_ite ?_ (fun _ => ?_)
    | with_reducible refine within_ite_snd ?_ (fun _ => ?_)
    | with_reducible refine State.hostRead_within' _ _  ‹_› ?_ ?_
    | with_reducible refine State.hostRead_within _ _ ?_ ?_
    | with_reducible refine State.hifErr_within _ _ _ ?_ ?_
    | split
    | (dsimp only)
theorem State.i2cRead_within' {sc r₀ s₀ t} {x0} (a : Nat) (he : State.i2cRead a s₀ = (x0, t)) (hs : sub [.regs, .mem, .coreA, .coreB, .qc, .hold, .hws, .hif, .pwr, .free, .log, .ecc] sc = true) (h₀ : Within sc r₀ s₀) : Within sc r₀ t := by
  have h := State.i2cRead_within a hs h₀
  rw [he] at h
  exact h

theorem State.i2cReadWords_within {sc r₀ s₀} (n a : Nat) (hs : sub [.regs, .mem, .coreA, .coreB, .qc, .hold, .hws, .hif, .pwr, .free, .log, .ecc] sc = true) (h₀ : Within sc r₀ s₀) :
    Within sc r₀ (State.i2cReadWords n a s₀).2 := by
  induction n generalizing s₀ a with
  | zero => exact h₀
  | succ n ih => exact ih (a + 4) (State.i2cRead_within a (sub_trans rfl hs) h₀)

theorem State.i2cReadWords_within' {sc r₀ s₀ t x0} (n a : Nat) (e : State.i2cReadWords n a s₀ = (x0, t)) (hs : sub [.regs, .mem, .coreA, .coreB, .qc, .hold, .hws, .hif, .pwr, .free, .log, .ecc] sc = true)
    (h₀ : Within sc r₀ s₀) : Within sc r₀ t := by
  have h := State.i2cReadWords_within n a hs h₀
  rw [e] at h
  exact h

theorem execI2cReadTransaction_within {sc r₀ s₀} (target : BitVec 7) (addr : W32) (words : Nat) (hs : sub [.regs, .mem, .coreA, .coreB, .qc, .hold, .hws, .hif, .pwr, .free, .log, .ecc] sc = true) (h₀ : Within sc r₀ s₀) :
    OutWithin sc r₀ (execI2cReadTransaction target addr words s₀) := by
  unfold execI2cReadTransaction
  repeat' first
    | with_reducible assumption
    | ((with_reducible refine sub_trans ?_ hs); exact rfl)
    | with_reducible exact trivial
    | with_reducible refine within_ite ?_ (fun _ => ?_)
    | with_reducible refine outWithin_next ?_
    | with_reducible refine outWithin_ite ?_ ?_
    | with_reducible exact outWithin_fault _
    | with_reducible refine State.i2cReadWords_within' _ _  ‹_› ?_ ?_
    | with_reducible refine State.i2cReadWords_within _ _ ?_ ?_
    | split
    | with_reducible refine Within.set_hif ?_ ?_
    | (dsimp only)

end Sys2Proof.Laws
end

