-- ==== Sys2Proof/Laws/Alu.lean ====
section
/-! SUPPORT. The scope of each operation of Sys2Proof/Machine/Alu.lean. -/
namespace Sys2Proof.Laws
open Sys2Proof.Machine Sys2Proof.Safety

theorem execAdd_within {sc r₀ s₀} (k : CoreId) (rd : BitVec 5) (ra : BitVec 5) (rb : BitVec 5) (hs : sub [.regs, .coreA, .coreB, .hif, .free, .log, .ecc] sc = true) (h₀ : Within sc r₀ s₀) :
    OutWithin sc r₀ (execAdd k rd ra rb s₀) := by
  unfold execAdd
  repeat' first
    | with_reducible assumption
    | ((with_reducible refine sub_trans ?_ hs); exact rfl)
    | with_reducible exact trivial
    | with_reducible refine within_ite ?_ (fun _ => ?_)
    | with_reducible refine outWithin_next ?_
    | with_reducible refine outWithin_ite ?_ ?_
    | with_reducible exact outWithin_fault _
    | with_reducible refine State.coreAlu_within _ _ _ _ ?_ ?_
    | split
    | (dsimp only)

theorem execSub_within {sc r₀ s₀} (k : CoreId) (rd : BitVec 5) (ra : BitVec 5) (rb : BitVec 5) (hs : sub [.regs, .coreA, .coreB, .hif, .free, .log, .ecc] sc = true) (h₀ : Within sc r₀ s₀) :
    OutWithin sc r₀ (execSub k rd ra rb s₀) := by
  unfold execSub
  repeat' first
    | with_reducible assumption
    | ((with_reducible refine sub_trans ?_ hs); exact rfl)
    | with_reducible exact trivial
    | with_reducible refine within_ite ?_ (fun _ => ?_)
    | with_reducible refine outWithin_next ?_
    | with_reducible refine outWithin_ite ?_ ?_
    | with_reducible exact outWithin_fault _
    | with_reducible refine State.coreAlu_within _ _ _ _ ?_ ?_
    | split
    | (dsimp only)

theorem execAnd_within {sc r₀ s₀} (k : CoreId) (rd : BitVec 5) (ra : BitVec 5) (rb : BitVec 5) (hs : sub [.regs, .coreA, .coreB, .hif, .free, .log, .ecc] sc = true) (h₀ : Within sc r₀ s₀) :
    OutWithin sc r₀ (execAnd k rd ra rb s₀) := by
  unfold execAnd
  repeat' first
    | with_reducible assumption
    | ((with_reducible refine sub_trans ?_ hs); exact rfl)
    | with_reducible exact trivial
    | with_reducible refine within_ite ?_ (fun _ => ?_)
    | with_reducible refine outWithin_next ?_
    | with_reducible refine outWithin_ite ?_ ?_
    | with_reducible exact outWithin_fault _
    | with_reducible refine State.coreAlu_within _ _ _ _ ?_ ?_
    | split
    | (dsimp only)

theorem execOr_within {sc r₀ s₀} (k : CoreId) (rd : BitVec 5) (ra : BitVec 5) (rb : BitVec 5) (hs : sub [.regs, .coreA, .coreB, .hif, .free, .log, .ecc] sc = true) (h₀ : Within sc r₀ s₀) :
    OutWithin sc r₀ (execOr k rd ra rb s₀) := by
  unfold execOr
  repeat' first
    | with_reducible assumption
    | ((with_reducible refine sub_trans ?_ hs); exact rfl)
    | with_reducible exact trivial
    | with_reducible refine within_ite ?_ (fun _ => ?_)
    | with_reducible refine outWithin_next ?_
    | with_reducible refine outWithin_ite ?_ ?_
    | with_reducible exact outWithin_fault _
    | with_reducible refine State.coreAlu_within _ _ _ _ ?_ ?_
    | split
    | (dsimp only)

theorem execXor_within {sc r₀ s₀} (k : CoreId) (rd : BitVec 5) (ra : BitVec 5) (rb : BitVec 5) (hs : sub [.regs, .coreA, .coreB, .hif, .free, .log, .ecc] sc = true) (h₀ : Within sc r₀ s₀) :
    OutWithin sc r₀ (execXor k rd ra rb s₀) := by
  unfold execXor
  repeat' first
    | with_reducible assumption
    | ((with_reducible refine sub_trans ?_ hs); exact rfl)
    | with_reducible exact trivial
    | with_reducible refine within_ite ?_ (fun _ => ?_)
    | with_reducible refine outWithin_next ?_
    | with_reducible refine outWithin_ite ?_ ?_
    | with_reducible exact outWithin_fault _
    | with_reducible refine State.coreAlu_within _ _ _ _ ?_ ?_
    | split
    | (dsimp only)

theorem execShl_within {sc r₀ s₀} (k : CoreId) (rd : BitVec 5) (ra : BitVec 5) (rb : BitVec 5) (hs : sub [.regs, .coreA, .coreB, .hif, .free, .log, .ecc] sc = true) (h₀ : Within sc r₀ s₀) :
    OutWithin sc r₀ (execShl k rd ra rb s₀) := by
  unfold execShl
  repeat' first
    | with_reducible assumption
    | ((with_reducible refine sub_trans ?_ hs); exact rfl)
    | with_reducible exact trivial
    | with_reducible refine within_ite ?_ (fun _ => ?_)
    | with_reducible refine outWithin_next ?_
    | with_reducible refine outWithin_ite ?_ ?_
    | with_reducible exact outWithin_fault _
    | with_reducible refine State.coreAlu_within _ _ _ _ ?_ ?_
    | split
    | (dsimp only)

theorem execShr_within {sc r₀ s₀} (k : CoreId) (rd : BitVec 5) (ra : BitVec 5) (rb : BitVec 5) (hs : sub [.regs, .coreA, .coreB, .hif, .free, .log, .ecc] sc = true) (h₀ : Within sc r₀ s₀) :
    OutWithin sc r₀ (execShr k rd ra rb s₀) := by
  unfold execShr
  repeat' first
    | with_reducible assumption
    | ((with_reducible refine sub_trans ?_ hs); exact rfl)
    | with_reducible exact trivial
    | with_reducible refine within_ite ?_ (fun _ => ?_)
    | with_reducible refine outWithin_next ?_
    | with_reducible refine outWithin_ite ?_ ?_
    | with_reducible exact outWithin_fault _
    | with_reducible refine State.coreAlu_within _ _ _ _ ?_ ?_
    | split
    | (dsimp only)

theorem execSar_within {sc r₀ s₀} (k : CoreId) (rd : BitVec 5) (ra : BitVec 5) (rb : BitVec 5) (hs : sub [.regs, .coreA, .coreB, .hif, .free, .log, .ecc] sc = true) (h₀ : Within sc r₀ s₀) :
    OutWithin sc r₀ (execSar k rd ra rb s₀) := by
  unfold execSar
  repeat' first
    | with_reducible assumption
    | ((with_reducible refine sub_trans ?_ hs); exact rfl)
    | with_reducible exact trivial
    | with_reducible refine within_ite ?_ (fun _ => ?_)
    | with_reducible refine outWithin_next ?_
    | with_reducible refine outWithin_ite ?_ ?_
    | with_reducible exact outWithin_fault _
    | with_reducible refine State.coreAlu_within _ _ _ _ ?_ ?_
    | split
    | (dsimp only)

theorem execMul_within {sc r₀ s₀} (k : CoreId) (rd : BitVec 5) (ra : BitVec 5) (rb : BitVec 5) (hs : sub [.regs, .coreA, .coreB, .hif, .free, .log, .ecc] sc = true) (h₀ : Within sc r₀ s₀) :
    OutWithin sc r₀ (execMul k rd ra rb s₀) := by
  unfold execMul
  repeat' first
    | with_reducible assumption
    | ((with_reducible refine sub_trans ?_ hs); exact rfl)
    | with_reducible exact trivial
    | with_reducible refine within_ite ?_ (fun _ => ?_)
    | with_reducible refine outWithin_next ?_
    | with_reducible refine outWithin_ite ?_ ?_
    | with_reducible exact outWithin_fault _
    | with_reducible refine State.coreAlu_within _ _ _ _ ?_ ?_
    | split
    | (dsimp only)

theorem execMulh_within {sc r₀ s₀} (k : CoreId) (rd : BitVec 5) (ra : BitVec 5) (rb : BitVec 5) (hs : sub [.regs, .coreA, .coreB, .hif, .free, .log, .ecc] sc = true) (h₀ : Within sc r₀ s₀) :
    OutWithin sc r₀ (execMulh k rd ra rb s₀) := by
  unfold execMulh
  repeat' first
    | with_reducible assumption
    | ((with_reducible refine sub_trans ?_ hs); exact rfl)
    | with_reducible exact trivial
    | with_reducible refine within_ite ?_ (fun _ => ?_)
    | with_reducible refine outWithin_next ?_
    | with_reducible refine outWithin_ite ?_ ?_
    | with_reducible exact outWithin_fault _
    | with_reducible refine State.coreAlu_within _ _ _ _ ?_ ?_
    | split
    | (dsimp only)

theorem execClz_within {sc r₀ s₀} (k : CoreId) (rd : BitVec 5) (ra : BitVec 5) (rb : BitVec 5) (hs : sub [.regs, .coreA, .coreB, .hif, .free, .log, .ecc] sc = true) (h₀ : Within sc r₀ s₀) :
    OutWithin sc r₀ (execClz k rd ra rb s₀) := by
  unfold execClz
  repeat' first
    | with_reducible assumption
    | ((with_reducible refine sub_trans ?_ hs); exact rfl)
    | with_reducible exact trivial
    | with_reducible refine within_ite ?_ (fun _ => ?_)
    | with_reducible refine outWithin_next ?_
    | with_reducible refine outWithin_ite ?_ ?_
    | with_reducible exact outWithin_fault _
    | with_reducible refine State.coreAlu_within _ _ _ _ ?_ ?_
    | split
    | (dsimp only)

theorem execMaddq_within {sc r₀ s₀} (k : CoreId) (rd : BitVec 5) (ra : BitVec 5) (rb : BitVec 5) (hs : sub [.regs, .coreA, .coreB, .hif, .free, .log, .ecc] sc = true) (h₀ : Within sc r₀ s₀) :
    OutWithin sc r₀ (execMaddq k rd ra rb s₀) := by
  unfold execMaddq
  repeat' first
    | with_reducible assumption
    | ((with_reducible refine sub_trans ?_ hs); exact rfl)
    | with_reducible exact trivial
    | with_reducible refine within_ite ?_ (fun _ => ?_)
    | with_reducible refine within_ite_snd ?_ (fun _ => ?_)
    | with_reducible refine outWithin_next ?_
    | with_reducible refine outWithin_ite ?_ ?_
    | with_reducible exact outWithin_fault _
    | with_reducible refine resWithin_next ?_
    | with_reducible refine resWithin_jump _ ?_
    | with_reducible refine resWithin_stall _ ?_
    | with_reducible refine resWithin_parked _ _ ?_
    | with_reducible refine resWithin_ecc ?_
    | with_reducible exact resWithin_fault _ _ _ _
    | with_reducible refine resWithin_ite ?_ ?_
    | with_reducible refine State.modCore_within _ _ ?_ ?_
    | with_reducible refine State.coreStep_within _ _ _ (fun _ _ _ => ?_) ?_ ?_
    | split
    | (dsimp only)

theorem execAddi_within {sc r₀ s₀} (k : CoreId) (rd : BitVec 5) (ra : BitVec 5) (imm : BitVec 16) (hs : sub [.regs, .coreA, .coreB, .hif, .free, .log, .ecc] sc = true) (h₀ : Within sc r₀ s₀) :
    OutWithin sc r₀ (execAddi k rd ra imm s₀) := by
  unfold execAddi
  repeat' first
    | with_reducible assumption
    | ((with_reducible refine sub_trans ?_ hs); exact rfl)
    | with_reducible exact trivial
    | with_reducible refine within_ite ?_ (fun _ => ?_)
    | with_reducible refine outWithin_next ?_
    | with_reducible refine outWithin_ite ?_ ?_
    | with_reducible exact outWithin_fault _
    | with_reducible refine State.coreAlu_within _ _ _ _ ?_ ?_
    | split
    | (dsimp only)

theorem execLui_within {sc r₀ s₀} (k : CoreId) (rd : BitVec 5) (ra : BitVec 5) (imm : BitVec 16) (hs : sub [.regs, .coreA, .coreB, .hif, .free, .log, .ecc] sc = true) (h₀ : Within sc r₀ s₀) :
    OutWithin sc r₀ (execLui k rd ra imm s₀) := by
  unfold execLui
  repeat' first
    | with_reducible assumption
    | ((with_reducible refine sub_trans ?_ hs); exact rfl)
    | with_reducible exact trivial
    | with_reducible refine within_ite ?_ (fun _ => ?_)
    | with_reducible refine outWithin_next ?_
    | with_reducible refine outWithin_ite ?_ ?_
    | with_reducible exact outWithin_fault _
    | with_reducible refine State.coreAlu_within _ _ _ _ ?_ ?_
    | split
    | (dsimp only)

theorem execBeq_within {sc r₀ s₀} (k : CoreId) (ra : BitVec 5) (rb : BitVec 5) (off : BitVec 16) (hs : sub [.regs, .coreA, .coreB, .hif, .free, .log, .ecc] sc = true) (h₀ : Within sc r₀ s₀) :
    OutWithin sc r₀ (execBeq k ra rb off s₀) := by
  unfold execBeq
  repeat' first
    | with_reducible assumption
    | ((with_reducible refine sub_trans ?_ hs); exact rfl)
    | with_reducible exact trivial
    | with_reducible refine within_ite ?_ (fun _ => ?_)
    | with_reducible refine outWithin_next ?_
    | with_reducible refine outWithin_ite ?_ ?_
    | with_reducible exact outWithin_fault _
    | with_reducible refine State.coreBranch_within _ _ _ ?_ ?_
    | split
    | (dsimp only)

theorem execBne_within {sc r₀ s₀} (k : CoreId) (ra : BitVec 5) (rb : BitVec 5) (off : BitVec 16) (hs : sub [.regs, .coreA, .coreB, .hif, .free, .log, .ecc] sc = true) (h₀ : Within sc r₀ s₀) :
    OutWithin sc r₀ (execBne k ra rb off s₀) := by
  unfold execBne
  repeat' first
    | with_reducible assumption
    | ((with_reducible refine sub_trans ?_ hs); exact rfl)
    | with_reducible exact trivial
    | with_reducible refine within_ite ?_ (fun _ => ?_)
    | with_reducible refine outWithin_next ?_
    | with_reducible refine outWithin_ite ?_ ?_
    | with_reducible exact outWithin_fault _
    | with_reducible refine State.coreBranch_within _ _ _ ?_ ?_
    | split
    | (dsimp only)

theorem execBlt_within {sc r₀ s₀} (k : CoreId) (ra : BitVec 5) (rb : BitVec 5) (off : BitVec 16) (hs : sub [.regs, .coreA, .coreB, .hif, .free, .log, .ecc] sc = true) (h₀ : Within sc r₀ s₀) :
    OutWithin sc r₀ (execBlt k ra rb off s₀) := by
  unfold execBlt
  repeat' first
    | with_reducible assumption
    | ((with_reducible refine sub_trans ?_ hs); exact rfl)
    | with_reducible exact trivial
    | with_reducible refine within_ite ?_ (fun _ => ?_)
    | with_reducible refine outWithin_next ?_
    | with_reducible refine outWithin_ite ?_ ?_
    | with_reducible exact outWithin_fault _
    | with_reducible refine State.coreBranch_within _ _ _ ?_ ?_
    | split
    | (dsimp only)

theorem execBge_within {sc r₀ s₀} (k : CoreId) (ra : BitVec 5) (rb : BitVec 5) (off : BitVec 16) (hs : sub [.regs, .coreA, .coreB, .hif, .free, .log, .ecc] sc = true) (h₀ : Within sc r₀ s₀) :
    OutWithin sc r₀ (execBge k ra rb off s₀) := by
  unfold execBge
  repeat' first
    | with_reducible assumption
    | ((with_reducible refine sub_trans ?_ hs); exact rfl)
    | with_reducible exact trivial
    | with_reducible refine within_ite ?_ (fun _ => ?_)
    | with_reducible refine outWithin_next ?_
    | with_reducible refine outWithin_ite ?_ ?_
    | with_reducible exact outWithin_fault _
    | with_reducible refine State.coreBranch_within _ _ _ ?_ ?_
    | split
    | (dsimp only)

theorem execBltu_within {sc r₀ s₀} (k : CoreId) (ra : BitVec 5) (rb : BitVec 5) (off : BitVec 16) (hs : sub [.regs, .coreA, .coreB, .hif, .free, .log, .ecc] sc = true) (h₀ : Within sc r₀ s₀) :
    OutWithin sc r₀ (execBltu k ra rb off s₀) := by
  unfold execBltu
  repeat' first
    | with_reducible assumption
    | ((with_reducible refine sub_trans ?_ hs); exact rfl)
    | with_reducible exact trivial
    | with_reducible refine within_ite ?_ (fun _ => ?_)
    | with_reducible refine outWithin_next ?_
    | with_reducible refine outWithin_ite ?_ ?_
    | with_reducible exact outWithin_fault _
    | with_reducible refine State.coreBranch_within _ _ _ ?_ ?_
    | split
    | (dsimp only)

theorem execJal_within {sc r₀ s₀} (k : CoreId) (rd : BitVec 5) (off : BitVec 21) (hs : sub [.regs, .coreA, .coreB, .hif, .free, .log, .ecc] sc = true) (h₀ : Within sc r₀ s₀) :
    OutWithin sc r₀ (execJal k rd off s₀) := by
  unfold execJal
  repeat' first
    | with_reducible assumption
    | ((with_reducible refine sub_trans ?_ hs); exact rfl)
    | with_reducible exact trivial
    | with_reducible refine within_ite ?_ (fun _ => ?_)
    | with_reducible refine within_ite_snd ?_ (fun _ => ?_)
    | with_reducible refine outWithin_next ?_
    | with_reducible refine outWithin_ite ?_ ?_
    | with_reducible exact outWithin_fault _
    | with_reducible refine resWithin_next ?_
    | with_reducible refine resWithin_jump _ ?_
    | with_reducible refine resWithin_stall _ ?_
    | with_reducible refine resWithin_parked _ _ ?_
    | with_reducible refine resWithin_ecc ?_
    | with_reducible exact resWithin_fault _ _ _ _
    | with_reducible refine resWithin_ite ?_ ?_
    | with_reducible refine State.modCore_within _ _ ?_ ?_
    | with_reducible refine State.coreStep_within _ _ _ (fun _ _ _ => ?_) ?_ ?_
    | split
    | (dsimp only)

theorem execJr_within {sc r₀ s₀} (k : CoreId) (rd : BitVec 5) (ra : BitVec 5) (imm : BitVec 16) (hs : sub [.regs, .coreA, .coreB, .hif, .free, .log, .ecc] sc = true) (h₀ : Within sc r₀ s₀) :
    OutWithin sc r₀ (execJr k rd ra imm s₀) := by
  unfold execJr
  repeat' first
    | with_reducible assumption
    | ((with_reducible refine sub_trans ?_ hs); exact rfl)
    | with_reducible exact trivial
    | with_reducible refine within_ite ?_ (fun _ => ?_)
    | with_reducible refine within_ite_snd ?_ (fun _ => ?_)
    | with_reducible refine outWithin_next ?_
    | with_reducible refine outWithin_ite ?_ ?_
    | with_reducible exact outWithin_fault _
    | with_reducible refine resWithin_next ?_
    | with_reducible refine resWithin_jump _ ?_
    | with_reducible refine resWithin_stall _ ?_
    | with_reducible refine resWithin_parked _ _ ?_
    | with_reducible refine resWithin_ecc ?_
    | with_reducible exact resWithin_fault _ _ _ _
    | with_reducible refine resWithin_ite ?_ ?_
    | with_reducible refine State.modCore_within _ _ ?_ ?_
    | with_reducible refine State.coreStep_within _ _ _ (fun _ _ _ => ?_) ?_ ?_
    | split
    | (dsimp only)

theorem execLdB_within {sc r₀ s₀} (k : CoreId) (rd : BitVec 5) (ra : BitVec 5) (imm : BitVec 16) (hs : sub [.regs, .coreA, .coreB, .hif, .free, .log, .ecc] sc = true) (h₀ : Within sc r₀ s₀) :
    OutWithin sc r₀ (execLdB k rd ra imm s₀) := by
  unfold execLdB
  repeat' first
    | with_reducible assumption
    | ((with_reducible refine sub_trans ?_ hs); exact rfl)
    | with_reducible exact trivial
    | with_reducible refine within_ite ?_ (fun _ => ?_)
    | with_reducible refine outWithin_next ?_
    | with_reducible refine outWithin_ite ?_ ?_
    | with_reducible exact outWithin_fault _
    | with_reducible refine State.coreLoad_within _ _ _ _ _ ?_ ?_
    | split
    | (dsimp only)

theorem execLdH_within {sc r₀ s₀} (k : CoreId) (rd : BitVec 5) (ra : BitVec 5) (imm : BitVec 16) (hs : sub [.regs, .coreA, .coreB, .hif, .free, .log, .ecc] sc = true) (h₀ : Within sc r₀ s₀) :
    OutWithin sc r₀ (execLdH k rd ra imm s₀) := by
  unfold execLdH
  repeat' first
    | with_reducible assumption
    | ((with_reducible refine sub_trans ?_ hs); exact rfl)
    | with_reducible exact trivial
    | with_reducible refine within_ite ?_ (fun _ => ?_)
    | with_reducible refine outWithin_next ?_
    | with_reducible refine outWithin_ite ?_ ?_
    | with_reducible exact outWithin_fault _
    | with_reducible refine State.coreLoad_within _ _ _ _ _ ?_ ?_
    | split
    | (dsimp only)

theorem execLdW_within {sc r₀ s₀} (k : CoreId) (rd : BitVec 5) (ra : BitVec 5) (imm : BitVec 16) (hs : sub [.regs, .coreA, .coreB, .hif, .free, .log, .ecc] sc = true) (h₀ : Within sc r₀ s₀) :
    OutWithin sc r₀ (execLdW k rd ra imm s₀) := by
  unfold execLdW
  repeat' first
    | with_reducible assumption
    | ((with_reducible refine sub_trans ?_ hs); exact rfl)
    | with_reducible exact trivial
    | with_reducible refine within_ite ?_ (fun _ => ?_)
    | with_reducible refine outWithin_next ?_
    | with_reducible refine outWithin_ite ?_ ?_
    | with_reducible exact outWithin_fault _
    | with_reducible refine State.coreLoad_within _ _ _ _ _ ?_ ?_
    | split
    | (dsimp only)

theorem execLdD_within {sc r₀ s₀} (k : CoreId) (rd : BitVec 5) (ra : BitVec 5) (imm : BitVec 16) (hs : sub [.regs, .coreA, .coreB, .hif, .free, .log, .ecc] sc = true) (h₀ : Within sc r₀ s₀) :
    OutWithin sc r₀ (execLdD k rd ra imm s₀) := by
  unfold execLdD
  repeat' first
    | with_reducible assumption
    | ((with_reducible refine sub_trans ?_ hs); exact rfl)
    | with_reducible exact trivial
    | with_reducible refine within_ite ?_ (fun _ => ?_)
    | with_reducible refine outWithin_next ?_
    | with_reducible refine outWithin_ite ?_ ?_
    | with_reducible exact outWithin_fault _
    | with_reducible refine State.coreLoad_within _ _ _ _ _ ?_ ?_
    | split
    | (dsimp only)

theorem execStB_within {sc r₀ s₀} (k : CoreId) (rs : BitVec 5) (ra : BitVec 5) (imm : BitVec 16) (hs : sub [.regs, .mem, .coreA, .coreB, .hws, .hif, .free, .log, .ecc] sc = true) (h₀ : Within sc r₀ s₀) :
    OutWithin sc r₀ (execStB k rs ra imm s₀) := by
  unfold execStB
  repeat' first
    | with_reducible assumption
    | ((with_reducible refine sub_trans ?_ hs); exact rfl)
    | with_reducible exact trivial
    | with_reducible refine within_ite ?_ (fun _ => ?_)
    | with_reducible refine outWithin_next ?_
    | with_reducible refine outWithin_ite ?_ ?_
    | with_reducible exact outWithin_fault _
    | with_reducible refine State.coreSave_within _ _ _ _ _ ?_ ?_
    | split
    | (dsimp only)

theorem execStH_within {sc r₀ s₀} (k : CoreId) (rs : BitVec 5) (ra : BitVec 5) (imm : BitVec 16) (hs : sub [.regs, .mem, .coreA, .coreB, .hws, .hif, .free, .log, .ecc] sc = true) (h₀ : Within sc r₀ s₀) :
    OutWithin sc r₀ (execStH k rs ra imm s₀) := by
  unfold execStH
  repeat' first
    | with_reducible assumption
    | ((with_reducible refine sub_trans ?_ hs); exact rfl)
    | with_reducible exact trivial
    | with_reducible refine within_ite ?_ (fun _ => ?_)
    | with_reducible refine outWithin_next ?_
    | with_reducible refine outWithin_ite ?_ ?_
    | with_reducible exact outWithin_fault _
    | with_reducible refine State.coreSave_within _ _ _ _ _ ?_ ?_
    | split
    | (dsimp only)

theorem execStW_within {sc r₀ s₀} (k : CoreId) (rs : BitVec 5) (ra : BitVec 5) (imm : BitVec 16) (hs : sub [.regs, .mem, .coreA, .coreB, .hws, .hif, .free, .log, .ecc] sc = true) (h₀ : Within sc r₀ s₀) :
    OutWithin sc r₀ (execStW k rs ra imm s₀) := by
  unfold execStW
  repeat' first
    | with_reducible assumption
    | ((with_reducible refine sub_trans ?_ hs); exact rfl)
    | with_reducible exact trivial
    | with_reducible refine within_ite ?_ (fun _ => ?_)
    | with_reducible refine outWithin_next ?_
    | with_reducible refine outWithin_ite ?_ ?_
    | with_reducible exact outWithin_fault _
    | with_reducible refine State.coreSave_within _ _ _ _ _ ?_ ?_
    | split
    | (dsimp only)

theorem execStD_within {sc r₀ s₀} (k : CoreId) (rs : BitVec 5) (ra : BitVec 5) (imm : BitVec 16) (hs : sub [.regs, .mem, .coreA, .coreB, .hws, .hif, .free, .log, .ecc] sc = true) (h₀ : Within sc r₀ s₀) :
    OutWithin sc r₀ (execStD k rs ra imm s₀) := by
  unfold execStD
  repeat' first
    | with_reducible assumption
    | ((with_reducible refine sub_trans ?_ hs); exact rfl)
    | with_reducible exact trivial
    | with_reducible refine within_ite ?_ (fun _ => ?_)
    | with_reducible refine outWithin_next ?_
    | with_reducible refine outWithin_ite ?_ ?_
    | with_reducible exact outWithin_fault _
    | with_reducible refine State.coreSave_within _ _ _ _ _ ?_ ?_
    | split
    | (dsimp only)

end Sys2Proof.Laws
end

