-- ==== Sys2Proof/Laws/Frm.lean ====
section
/-! SUPPORT. The scope of each operation of Sys2Proof/Machine/Frm.lean. -/
namespace Sys2Proof.Laws
open Sys2Proof.Machine Sys2Proof.Safety

theorem State.elwRespond_within {sc r₀ s₀} (c : Carrier) (m : ElwMsg) (reason : Option Nat) (hs : sub [.regs, .coreA, .coreB, .hif, .hailA, .hailB, .frmA, .frmB] sc = true) (h₀ : Within sc r₀ s₀) :
    Within sc r₀ (State.elwRespond c m reason s₀) := by
  unfold State.elwRespond
  repeat' first
    | with_reducible assumption
    | ((with_reducible refine sub_trans ?_ hs); exact rfl)
    | with_reducible exact trivial
    | with_reducible refine within_ite ?_ (fun _ => ?_)
    | with_reducible refine State.hailFrm_within _ _ _ ?_ ?_
    | with_reducible refine State.setFrm_within _ _ ?_ ?_
    | with_reducible refine State.logEvent_within _ _ _ _ ?_ ?_
    | with_reducible refine State.setFlag_within _ _ _ ?_ ?_
    | with_reducible refine State.setFld_within _ _ _ ?_ ?_
    | split
    | (dsimp only)

theorem State.elwTake_within {sc r₀ s₀} (c : Carrier) (hail : Bool) (types : List Nat) (carried : ElwMsg) (hs : sub [.hailA, .hailB] sc = true) (h₀ : Within sc r₀ s₀) :
    Within sc r₀ (State.elwTake s₀ c hail types carried).2 := by
  unfold State.elwTake
  repeat' first
    | with_reducible assumption
    | ((with_reducible refine sub_trans ?_ hs); exact rfl)
    | with_reducible exact trivial
    | with_reducible refine within_ite ?_ (fun _ => ?_)
    | with_reducible refine within_ite_snd ?_ (fun _ => ?_)
    | with_reducible refine State.setHail_within _ _ ?_ ?_
    | split
    | (dsimp only)
theorem State.elwTake_within' {sc r₀ s₀ t} {x0} (c : Carrier) (hail : Bool) (types : List Nat) (carried : ElwMsg) (he : State.elwTake s₀ c hail types carried = (x0, t)) (hs : sub [.hailA, .hailB] sc = true) (h₀ : Within sc r₀ s₀) : Within sc r₀ t := by
  have h := State.elwTake_within c hail types carried hs h₀
  rw [he] at h
  exact h

theorem execElwProposeReceived_within {sc r₀ s₀} (c : Carrier) (hail : Bool) (hs : sub [.regs, .coreA, .coreB, .hif, .free, .hailA, .hailB, .frmA, .frmB] sc = true) (h₀ : Within sc r₀ s₀) :
    OutWithin sc r₀ (execElwProposeReceived c hail s₀) := by
  unfold execElwProposeReceived
  repeat' first
    | with_reducible assumption
    | ((with_reducible refine sub_trans ?_ hs); exact rfl)
    | with_reducible exact trivial
    | with_reducible refine within_ite ?_ (fun _ => ?_)
    | with_reducible refine outWithin_next ?_
    | with_reducible refine outWithin_ite ?_ ?_
    | with_reducible exact outWithin_fault _
    | with_reducible refine State.elwTake_within' _ _ _ _  ‹_› ?_ ?_
    | with_reducible refine State.elwTake_within _ _ _ _ ?_ ?_
    | with_reducible refine State.elwRespond_within _ _ _ ?_ ?_
    | with_reducible refine State.elwRxEnd_within _ ?_ ?_
    | with_reducible refine State.setFrm_within _ _ ?_ ?_
    | with_reducible refine State.logOpen_within _ _ ?_ ?_
    | with_reducible refine State.setFld_within _ _ _ ?_ ?_
    | split
    | (dsimp only)

theorem execElwAnswerReceived_within {sc r₀ s₀} (c : Carrier) (hail : Bool) (hs : sub [.regs, .mem, .coreA, .coreB, .qc, .hws, .hif, .pwr, .free, .hailA, .hailB, .frmA, .frmB, .log, .ecc] sc = true) (h₀ : Within sc r₀ s₀) :
    OutWithin sc r₀ (execElwAnswerReceived c hail s₀) := by
  unfold execElwAnswerReceived
  repeat' first
    | with_reducible assumption
    | ((with_reducible refine sub_trans ?_ hs); exact rfl)
    | with_reducible exact trivial
    | with_reducible refine within_ite ?_ (fun _ => ?_)
    | with_reducible refine outWithin_next ?_
    | with_reducible refine outWithin_ite ?_ ?_
    | with_reducible exact outWithin_fault _
    | with_reducible refine State.elwTake_within' _ _ _ _  ‹_› ?_ ?_
    | with_reducible refine State.elwTake_within _ _ _ _ ?_ ?_
    | with_reducible refine State.elwEnd_within _ _ _ ?_ ?_
    | with_reducible refine State.setFrm_within _ _ ?_ ?_
    | split
    | (dsimp only)

theorem execElwCommitDeadline_within {sc r₀ s₀} (c : Carrier) (hs : sub [.regs, .mem, .coreA, .coreB, .qc, .hws, .hif, .pwr, .free, .hailA, .hailB, .frmA, .frmB, .log, .ecc] sc = true) (h₀ : Within sc r₀ s₀) :
    OutWithin sc r₀ (execElwCommitDeadline c s₀) := by
  unfold execElwCommitDeadline
  repeat' first
    | with_reducible assumption
    | ((with_reducible refine sub_trans ?_ hs); exact rfl)
    | with_reducible exact trivial
    | with_reducible refine within_ite ?_ (fun _ => ?_)
    | with_reducible refine outWithin_next ?_
    | with_reducible refine outWithin_ite ?_ ?_
    | with_reducible exact outWithin_fault _
    | with_reducible refine State.hailFrm_within _ _ _ ?_ ?_
    | with_reducible refine State.elwEnd_within _ _ _ ?_ ?_
    | with_reducible refine State.setFld_within _ _ _ ?_ ?_
    | split
    | (dsimp only)

theorem execElwCommitReceived_within {sc r₀ s₀} (c : Carrier) (hail : Bool) (hs : sub [.regs, .hailA, .hailB] sc = true) (h₀ : Within sc r₀ s₀) :
    OutWithin sc r₀ (execElwCommitReceived c hail s₀) := by
  unfold execElwCommitReceived
  repeat' first
    | with_reducible assumption
    | ((with_reducible refine sub_trans ?_ hs); exact rfl)
    | with_reducible exact trivial
    | with_reducible refine within_ite ?_ (fun _ => ?_)
    | with_reducible refine outWithin_next ?_
    | with_reducible refine outWithin_ite ?_ ?_
    | with_reducible exact outWithin_fault _
    | with_reducible refine State.elwTake_within' _ _ _ _  ‹_› ?_ ?_
    | with_reducible refine State.elwTake_within _ _ _ _ ?_ ?_
    | with_reducible refine State.setFld_within _ _ _ ?_ ?_
    | split
    | (dsimp only)

theorem execElwSwitch_within {sc r₀ s₀} (c : Carrier) (hs : sub [.regs, .txA, .txB, .frmA, .frmB] sc = true) (h₀ : Within sc r₀ s₀) :
    OutWithin sc r₀ (execElwSwitch c s₀) := by
  unfold execElwSwitch
  repeat' first
    | with_reducible assumption
    | ((with_reducible refine sub_trans ?_ hs); exact rfl)
    | with_reducible exact trivial
    | with_reducible refine within_ite ?_ (fun _ => ?_)
    | with_reducible refine outWithin_next ?_
    | with_reducible refine outWithin_ite ?_ ?_
    | with_reducible exact outWithin_fault _
    | with_reducible refine State.cliShowAll_within ?_ ?_
    | with_reducible refine State.setFrm_within _ _ ?_ ?_
    | with_reducible refine State.setTx_within _ _ ?_ ?_
    | with_reducible refine State.setFld_within _ _ _ ?_ ?_
    | split
    | (dsimp only)

theorem execElwEntropySwitchBlock_within {sc r₀ s₀} (c : Carrier) (hs : sub [.regs, .mem, .coreA, .coreB, .qc, .hws, .hif, .pwr, .free, .frmA, .frmB, .log, .ecc] sc = true) (h₀ : Within sc r₀ s₀) :
    OutWithin sc r₀ (execElwEntropySwitchBlock c s₀) := by
  unfold execElwEntropySwitchBlock
  repeat' first
    | with_reducible assumption
    | ((with_reducible refine sub_trans ?_ hs); exact rfl)
    | with_reducible exact trivial
    | with_reducible refine within_ite ?_ (fun _ => ?_)
    | with_reducible refine outWithin_next ?_
    | with_reducible refine outWithin_ite ?_ ?_
    | with_reducible exact outWithin_fault _
    | with_reducible refine State.setEntropy_within _ _ ?_ ?_
    | with_reducible refine State.setFrm_within _ _ ?_ ?_
    | with_reducible refine State.endTicket_within _ _ _ _ ?_ ?_
    | with_reducible refine State.logEvent_within _ _ _ _ ?_ ?_
    | with_reducible refine State.setFlag_within _ _ _ ?_ ?_
    | with_reducible refine State.setFld_within _ _ _ ?_ ?_
    | split
    | (dsimp only)

theorem execElwResponderSwitch_within {sc r₀ s₀} (c : Carrier) (hs : sub [.regs, .coreA, .coreB, .hif, .fecA, .fecB, .frmA, .frmB] sc = true) (h₀ : Within sc r₀ s₀) :
    OutWithin sc r₀ (execElwResponderSwitch c s₀) := by
  unfold execElwResponderSwitch
  repeat' first
    | with_reducible assumption
    | ((with_reducible refine sub_trans ?_ hs); exact rfl)
    | with_reducible exact trivial
    | with_reducible refine within_ite ?_ (fun _ => ?_)
    | with_reducible refine outWithin_next ?_
    | with_reducible refine outWithin_ite ?_ ?_
    | with_reducible exact outWithin_fault _
    | with_reducible refine State.cliShowAll_within ?_ ?_
    | with_reducible refine State.setFrm_within _ _ ?_ ?_
    | with_reducible refine State.setFec_within _ _ ?_ ?_
    | with_reducible refine State.logEvent_within _ _ _ _ ?_ ?_
    | with_reducible refine State.setFlag_within _ _ _ ?_ ?_
    | with_reducible refine State.setFld_within _ _ _ ?_ ?_
    | split
    | (dsimp only)

theorem execFrElwStart_within {sc r₀ s₀} (c : Carrier) (hs : sub [.regs, .mem, .coreA, .coreB, .qc, .hws, .hif, .pwr, .free, .hailA, .hailB, .frmA, .frmB, .log, .ecc] sc = true) (h₀ : Within sc r₀ s₀) :
    OutWithin sc r₀ (execFrElwStart c s₀) := by
  unfold execFrElwStart
  repeat' first
    | with_reducible assumption
    | ((with_reducible refine sub_trans ?_ hs); exact rfl)
    | with_reducible exact trivial
    | with_reducible refine within_ite ?_ (fun _ => ?_)
    | with_reducible refine within_ite_snd ?_ (fun _ => ?_)
    | with_reducible refine outWithin_next ?_
    | with_reducible refine outWithin_ite ?_ ?_
    | with_reducible exact outWithin_fault _
    | with_reducible refine State.hailFrm_within _ _ _ ?_ ?_
    | with_reducible refine State.setFrm_within _ _ ?_ ?_
    | with_reducible refine State.setFld_within _ _ _ ?_ ?_
    | with_reducible refine State.runCommand_within _ _ _ (fun _ _ _ => ?_) ?_ ?_
    | split
    | (dsimp only)

theorem execFrElwAnswer_within {sc r₀ s₀} (c : Carrier) (hs : sub [.regs, .mem, .coreA, .coreB, .qc, .hws, .hif, .pwr, .free, .hailA, .hailB, .frmA, .frmB, .log, .ecc] sc = true) (h₀ : Within sc r₀ s₀) :
    OutWithin sc r₀ (execFrElwAnswer c s₀) := by
  unfold execFrElwAnswer
  repeat' first
    | with_reducible assumption
    | ((with_reducible refine sub_trans ?_ hs); exact rfl)
    | with_reducible exact trivial
    | with_reducible refine within_ite ?_ (fun _ => ?_)
    | with_reducible refine within_ite_snd ?_ (fun _ => ?_)
    | with_reducible refine outWithin_next ?_
    | with_reducible refine outWithin_ite ?_ ?_
    | with_reducible exact outWithin_fault _
    | with_reducible refine State.elwRespond_within _ _ _ ?_ ?_
    | with_reducible refine State.runCommand_within _ _ _ (fun _ _ _ => ?_) ?_ ?_
    | split
    | (dsimp only)

theorem execFrCaptureOh_within {sc r₀ s₀} (c : Carrier) (hs : sub [.regs, .mem, .coreA, .coreB, .qc, .hws, .hif, .pwr, .free, .log, .ecc] sc = true) (h₀ : Within sc r₀ s₀) :
    OutWithin sc r₀ (execFrCaptureOh c s₀) := by
  unfold execFrCaptureOh
  repeat' first
    | with_reducible assumption
    | ((with_reducible refine sub_trans ?_ hs); exact rfl)
    | with_reducible exact trivial
    | with_reducible refine within_ite ?_ (fun _ => ?_)
    | with_reducible refine within_ite_snd ?_ (fun _ => ?_)
    | with_reducible refine outWithin_next ?_
    | with_reducible refine outWithin_ite ?_ ?_
    | with_reducible exact outWithin_fault _
    | with_reducible refine State.runCommand_within _ _ _ (fun _ _ _ => ?_) ?_ ?_
    | split
    | (dsimp only)

theorem State.setOsp_within {sc r₀ s₀} (n : Nat) (x : OspPort) (hs : sub [.regs, .osp] sc = true) (h₀ : Within sc r₀ s₀) :
    Within sc r₀ (State.setOsp n x s₀) := by
  unfold State.setOsp
  repeat' first
    | with_reducible assumption
    | ((with_reducible refine sub_trans ?_ hs); exact rfl)
    | with_reducible exact trivial
    | with_reducible refine within_ite ?_ (fun _ => ?_)
    | with_reducible refine State.setFld_within _ _ _ ?_ ?_
    | split
    | with_reducible refine Within.set_osp ?_ ?_
    | (dsimp only)

theorem execOspWindow_within {sc r₀ s₀} (port : Fin 8) (valid : Bool) (data : List Byte) (hs : sub [.regs, .coreA, .coreB, .hif, .osp] sc = true) (h₀ : Within sc r₀ s₀) :
    OutWithin sc r₀ (execOspWindow port valid data s₀) := by
  unfold execOspWindow
  repeat' first
    | with_reducible assumption
    | ((with_reducible refine sub_trans ?_ hs); exact rfl)
    | with_reducible exact trivial
    | with_reducible refine within_ite ?_ (fun _ => ?_)
    | with_reducible refine outWithin_next ?_
    | with_reducible refine outWithin_ite ?_ ?_
    | with_reducible exact outWithin_fault _
    | with_reducible refine State.setOsp_within _ _ ?_ ?_
    | with_reducible refine State.logEvent_within _ _ _ _ ?_ ?_
    | with_reducible refine State.setFlag_within _ _ _ ?_ ?_
    | split
    | (dsimp only)

theorem State.ospTake_within {sc r₀ s₀} (c : Carrier) (hs : sub [.regs, .osp] sc = true) (h₀ : Within sc r₀ s₀) :
    Within sc r₀ (State.ospTake c s₀).2 := by
  unfold State.ospTake
  repeat' first
    | with_reducible assumption
    | ((with_reducible refine sub_trans ?_ hs); exact rfl)
    | with_reducible exact trivial
    | with_reducible refine within_ite ?_ (fun _ => ?_)
    | with_reducible refine within_ite_snd ?_ (fun _ => ?_)
    | with_reducible refine State.setOsp_within _ _ ?_ ?_
    | with_reducible refine within_foldl (fun _ _ _ => ?_) ?_
    | with_reducible refine within_foldl_snd (fun _ _ _ => ?_) ?_
    | split
    | (dsimp only)
theorem State.ospTake_within' {sc r₀ s₀ t} {x0} (c : Carrier) (he : State.ospTake c s₀ = (x0, t)) (hs : sub [.regs, .osp] sc = true) (h₀ : Within sc r₀ s₀) : Within sc r₀ t := by
  have h := State.ospTake_within c hs h₀
  rw [he] at h
  exact h

theorem State.ospGive_within {sc r₀ s₀} (c : Carrier) (mdc : List Byte) (hs : sub [.regs, .coreA, .coreB, .hif, .osp] sc = true) (h₀ : Within sc r₀ s₀) :
    Within sc r₀ (State.ospGive c mdc s₀) := by
  unfold State.ospGive
  repeat' first
    | with_reducible assumption
    | ((with_reducible refine sub_trans ?_ hs); exact rfl)
    | with_reducible exact trivial
    | with_reducible refine within_ite ?_ (fun _ => ?_)
    | with_reducible refine State.setOsp_within _ _ ?_ ?_
    | with_reducible refine State.logEvent_within _ _ _ _ ?_ ?_
    | with_reducible refine State.setFlag_within _ _ _ ?_ ?_
    | with_reducible refine within_foldl (fun _ _ _ => ?_) ?_
    | with_reducible refine within_foldl_snd (fun _ _ _ => ?_) ?_
    | split
    | (dsimp only)

theorem State.iopTxFrame_within {sc r₀ s₀} (c : Carrier) (hs : sub [.regs, .mem, .coreA, .coreB, .qc, .hws, .hif, .pwr, .free, .log, .ecc] sc = true) (h₀ : Within sc r₀ s₀) :
    Within sc r₀ (State.iopTxFrame c s₀) := by
  unfold State.iopTxFrame
  repeat' first
    | with_reducible assumption
    | ((with_reducible refine sub_trans ?_ hs); exact rfl)
    | with_reducible exact trivial
    | with_reducible refine within_ite ?_ (fun _ => ?_)
    | with_reducible refine State.releaseWaiters_within ?_ ?_
    | with_reducible refine State.armBoundary_within _ ?_ ?_
    | with_reducible refine State.applyBoundary_within _ _ ?_ ?_
    | with_reducible refine State.setFlag_within _ _ _ ?_ ?_
    | split
    | (dsimp only)

theorem execFrmTxFrame_within {sc r₀ s₀} (c : Carrier) (hs : sub [.regs, .mem, .coreA, .coreB, .qc, .berth, .hws, .hif, .pwr, .free, .cph, .txA, .txB, .frmA, .frmB, .osp, .clm, .brt, .log, .ecc] sc = true) (h₀ : Within sc r₀ s₀) :
    OutWithin sc r₀ (execFrmTxFrame c s₀) := by
  unfold execFrmTxFrame
  repeat' first
    | with_reducible assumption
    | ((with_reducible refine sub_trans ?_ hs); exact rfl)
    | with_reducible exact trivial
    | with_reducible refine within_ite ?_ (fun _ => ?_)
    | with_reducible refine outWithin_next ?_
    | with_reducible refine outWithin_ite ?_ ?_
    | with_reducible exact outWithin_fault _
    | with_reducible refine State.iopTxFrame_within _ ?_ ?_
    | with_reducible refine State.ospTake_within' _  ‹_› ?_ ?_
    | with_reducible refine State.ospTake_within _ ?_ ?_
    | with_reducible refine State.fillFrame_within' _ _ _  ‹_› ?_ ?_
    | with_reducible refine State.fillFrame_within _ _ _ ?_ ?_
    | with_reducible refine State.cphFrameBoundary_within _ ?_ ?_
    | with_reducible refine State.setCphCar_within _ _ ?_ ?_
    | with_reducible refine State.setFrm_within _ _ ?_ ?_
    | with_reducible refine State.setTx_within _ _ ?_ ?_
    | with_reducible refine State.completeOp_within _ _ _ _ _ ?_ ?_
    | with_reducible refine State.releaseWaiters_within ?_ ?_
    | with_reducible refine State.armBoundary_within _ ?_ ?_
    | with_reducible refine State.applyBoundary_within _ _ ?_ ?_
    | with_reducible refine State.setFlag_within _ _ _ ?_ ?_
    | with_reducible refine State.setFld_within _ _ _ ?_ ?_
    | split
    | (dsimp only)

theorem State.setCands_within {sc r₀ s₀} (c : Carrier) (l : List (Nat × Nat)) (hs : sub [.regs, .frmA, .frmB] sc = true) (h₀ : Within sc r₀ s₀) :
    Within sc r₀ (State.setCands c l s₀) := by
  unfold State.setCands
  repeat' first
    | with_reducible assumption
    | ((with_reducible refine sub_trans ?_ hs); exact rfl)
    | with_reducible exact trivial
    | with_reducible refine within_ite ?_ (fun _ => ?_)
    | with_reducible refine State.setFrm_within _ _ ?_ ?_
    | with_reducible refine State.setFld_within _ _ _ ?_ ?_
    | split
    | (dsimp only)

theorem State.frmIf_within {sc r₀ s₀} (c : Carrier) (hs : sub [.regs, .frmA, .frmB] sc = true) (h₀ : Within sc r₀ s₀) :
    Within sc r₀ (State.frmIf c s₀) := by
  unfold State.frmIf
  repeat' first
    | with_reducible assumption
    | ((with_reducible refine sub_trans ?_ hs); exact rfl)
    | with_reducible exact trivial
    | with_reducible refine within_ite ?_ (fun _ => ?_)
    | with_reducible refine State.setCands_within _ _ ?_ ?_
    | with_reducible refine State.frmActs_within _ _ ?_ ?_
    | with_reducible refine State.setFrm_within _ _ ?_ ?_
    | with_reducible refine State.setFlag_within _ _ _ ?_ ?_
    | split
    | (dsimp only)

theorem State.rxLost_within {sc r₀ s₀} (c : Carrier) (hs : sub [.cph, .clm] sc = true) (h₀ : Within sc r₀ s₀) :
    Within sc r₀ (State.rxLost c s₀) := by
  unfold State.rxLost
  repeat' first
    | with_reducible assumption
    | ((with_reducible refine sub_trans ?_ hs); exact rfl)
    | with_reducible exact trivial
    | with_reducible refine within_ite ?_ (fun _ => ?_)
    | with_reducible refine State.setCphCar_within _ _ ?_ ?_
    | with_reducible refine State.setClient_within _ _ ?_ ?_
    | with_reducible refine within_foldl (fun _ _ _ => ?_) ?_
    | with_reducible refine within_foldl_snd (fun _ _ _ => ?_) ?_
    | split
    | (dsimp only)

theorem State.frmOom_within {sc r₀ s₀} (c : Carrier) (hs : sub [.regs, .cph, .frmA, .frmB, .clm] sc = true) (h₀ : Within sc r₀ s₀) :
    Within sc r₀ (State.frmOom c s₀) := by
  unfold State.frmOom
  repeat' first
    | with_reducible assumption
    | ((with_reducible refine sub_trans ?_ hs); exact rfl)
    | with_reducible exact trivial
    | with_reducible refine within_ite ?_ (fun _ => ?_)
    | with_reducible refine State.rxLost_within _ ?_ ?_
    | with_reducible refine State.frmActs_within _ _ ?_ ?_
    | with_reducible refine State.setFrm_within _ _ ?_ ?_
    | with_reducible refine State.setFlag_within _ _ _ ?_ ?_
    | with_reducible refine State.setFld_within _ _ _ ?_ ?_
    | split
    | (dsimp only)

theorem State.frmOof_within {sc r₀ s₀} (c : Carrier) (hs : sub [.regs, .coreA, .coreB, .cph, .frmA, .frmB, .clm] sc = true) (h₀ : Within sc r₀ s₀) :
    Within sc r₀ (State.frmOof c s₀) := by
  unfold State.frmOof
  repeat' first
    | with_reducible assumption
    | ((with_reducible refine sub_trans ?_ hs); exact rfl)
    | with_reducible exact trivial
    | with_reducible refine within_ite ?_ (fun _ => ?_)
    | with_reducible refine State.frmOom_within _ ?_ ?_
    | with_reducible refine State.setFrm_within _ _ ?_ ?_
    | with_reducible refine State.addCnt_within _ _ ?_ ?_
    | with_reducible refine State.setFlag_within _ _ _ ?_ ?_
    | split
    | (dsimp only)

theorem execFrmFasSearchMatch_within {sc r₀ s₀} (c : Carrier) (pos : Nat) (isMatch : Bool) (hs : sub [.regs, .coreA, .coreB, .frmA, .frmB] sc = true) (h₀ : Within sc r₀ s₀) :
    OutWithin sc r₀ (execFrmFasSearchMatch c pos isMatch s₀) := by
  unfold execFrmFasSearchMatch
  repeat' first
    | with_reducible assumption
    | ((with_reducible refine sub_trans ?_ hs); exact rfl)
    | with_reducible exact trivial
    | with_reducible refine within_ite ?_ (fun _ => ?_)
    | with_reducible refine outWithin_next ?_
    | with_reducible refine outWithin_ite ?_ ?_
    | with_reducible exact outWithin_fault _
    | with_reducible refine State.frmIf_within _ ?_ ?_
    | with_reducible refine State.setCands_within _ _ ?_ ?_
    | with_reducible refine State.addCnt_within _ _ ?_ ?_
    | split
    | (dsimp only)

theorem State.frmMfas_within {sc r₀ s₀} (c : Carrier) (mfas : Nat) (hs : sub [.regs, .cph, .frmA, .frmB, .clm] sc = true) (h₀ : Within sc r₀ s₀) :
    Within sc r₀ (State.frmMfas c mfas s₀) := by
  unfold State.frmMfas
  repeat' first
    | with_reducible assumption
    | ((with_reducible refine sub_trans ?_ hs); exact rfl)
    | with_reducible exact trivial
    | with_reducible refine within_ite ?_ (fun _ => ?_)
    | with_reducible refine State.frmOom_within _ ?_ ?_
    | with_reducible refine State.frmActs_within _ _ ?_ ?_
    | with_reducible refine State.setFrm_within _ _ ?_ ?_
    | with_reducible refine State.setFlag_within _ _ _ ?_ ?_
    | split
    | (dsimp only)

theorem State.frmRatePtr_within {sc r₀ s₀} (c : Carrier) (oh : List Byte) (hs : sub [.regs, .coreA, .coreB, .frmA, .frmB] sc = true) (h₀ : Within sc r₀ s₀) :
    Within sc r₀ (State.frmRatePtr c oh s₀) := by
  unfold State.frmRatePtr
  repeat' first
    | with_reducible assumption
    | ((with_reducible refine sub_trans ?_ hs); exact rfl)
    | with_reducible exact trivial
    | with_reducible refine within_ite ?_ (fun _ => ?_)
    | with_reducible refine State.elwRxEnd_within _ ?_ ?_
    | with_reducible refine State.cliShowAll_within ?_ ?_
    | with_reducible refine State.setFrm_within _ _ ?_ ?_
    | with_reducible refine State.addCnt_within _ _ ?_ ?_
    | with_reducible refine State.setFlag_within _ _ _ ?_ ?_
    | with_reducible refine State.setFld_within _ _ _ ?_ ?_
    | split
    | (dsimp only)

theorem State.frmRxCal_within {sc r₀ s₀} (c : Carrier) (hs : sub [.frmA, .frmB] sc = true) (h₀ : Within sc r₀ s₀) :
    Within sc r₀ (State.frmRxCal c s₀) := by
  unfold State.frmRxCal
  repeat' first
    | with_reducible assumption
    | ((with_reducible refine sub_trans ?_ hs); exact rfl)
    | with_reducible exact trivial
    | with_reducible refine within_ite ?_ (fun _ => ?_)
    | with_reducible refine State.setFrm_within _ _ ?_ ?_
    | split
    | (dsimp only)

theorem State.frmStatusBytes_within {sc r₀ s₀} (c : Carrier) (oh : List Byte) (hs : sub [.regs, .coreA, .coreB, .hif, .frmA, .frmB] sc = true) (h₀ : Within sc r₀ s₀) :
    Within sc r₀ (State.frmStatusBytes c oh s₀) := by
  unfold State.frmStatusBytes
  repeat' first
    | with_reducible assumption
    | ((with_reducible refine sub_trans ?_ hs); exact rfl)
    | with_reducible exact trivial
    | with_reducible refine within_ite ?_ (fun _ => ?_)
    | with_reducible refine State.setFrm_within _ _ ?_ ?_
    | with_reducible refine State.logEvent_within _ _ _ _ ?_ ?_
    | with_reducible refine State.addCnt_within _ _ ?_ ?_
    | with_reducible refine State.setFlag_within _ _ _ ?_ ?_
    | split
    | (dsimp only)

theorem State.frmDegrade_within {sc r₀ s₀} (c : Carrier) (hs : sub [.regs, .coreA, .coreB, .hif, .frmA, .frmB] sc = true) (h₀ : Within sc r₀ s₀) :
    Within sc r₀ (State.frmDegrade c s₀) := by
  unfold State.frmDegrade
  repeat' first
    | with_reducible assumption
    | ((with_reducible refine sub_trans ?_ hs); exact rfl)
    | with_reducible exact trivial
    | with_reducible refine within_ite ?_ (fun _ => ?_)
    | with_reducible refine State.frmActs_within _ _ ?_ ?_
    | with_reducible refine State.setFrm_within _ _ ?_ ?_
    | with_reducible refine State.logEvent_within _ _ _ _ ?_ ?_
    | with_reducible refine State.setFlag_within _ _ _ ?_ ?_
    | split
    | (dsimp only)

theorem State.frmErrors_within {sc r₀ s₀} (c : Carrier) (mfas : Nat) (bip : Nat) (bad : Nat) (hs : sub [.regs, .coreA, .coreB, .hif, .frmA, .frmB] sc = true) (h₀ : Within sc r₀ s₀) :
    Within sc r₀ (State.frmErrors c mfas bip bad s₀) := by
  unfold State.frmErrors
  repeat' first
    | with_reducible assumption
    | ((with_reducible refine sub_trans ?_ hs); exact rfl)
    | with_reducible exact trivial
    | with_reducible refine within_ite ?_ (fun _ => ?_)
    | with_reducible refine State.frmDegrade_within _ ?_ ?_
    | with_reducible refine State.setFrm_within _ _ ?_ ?_
    | split
    | (dsimp only)

theorem State.frmCapturesDue_within {sc r₀ s₀} (c : Carrier) (oh : List Byte) (n : Nat) (hs : sub [.regs, .mem, .coreA, .coreB, .qc, .hws, .hif, .pwr, .free, .log, .ecc] sc = true) (h₀ : Within sc r₀ s₀) :
    Within sc r₀ (State.frmCapturesDue c oh n s₀) := by
  induction n generalizing s₀ with
  | zero => exact h₀
  | succ n ih =>
    unfold State.frmCapturesDue
    split
    · exact ih (State.complete_within _ _ _ _ (sub_trans rfl hs) (State.setBytes_within _ _ (sub_trans rfl hs)
        (State.draw_within (sub_trans rfl hs) h₀)))
    · exact h₀

theorem State.frmClients_within {sc r₀ s₀} (c : Carrier) (oh : List Byte) (payload : List Byte) (marked : List (Fin 16256)) (mf : Bool) (hs : sub [.cph, .clm] sc = true) (h₀ : Within sc r₀ s₀) :
    Within sc r₀ (State.frmClients c oh payload marked mf s₀) := by
  unfold State.frmClients
  repeat' first
    | with_reducible assumption
    | ((with_reducible refine sub_trans ?_ hs); exact rfl)
    | with_reducible exact trivial
    | with_reducible refine within_ite ?_ (fun _ => ?_)
    | with_reducible refine State.clearWords_within _ _ _ ?_ ?_
    | with_reducible refine State.cphRecords_within _ _ _ _ _ ?_ ?_
    | split
    | (dsimp only)

theorem State.frmFrameIn_within {sc r₀ s₀} (c : Carrier) (oh : List Byte) (payload : List Byte) (marked : List (Fin 16256)) (bip : Nat) (bad : Nat) (hs : sub [.regs, .mem, .coreA, .coreB, .qc, .hws, .hif, .pwr, .free, .cph, .frmA, .frmB, .osp, .clm, .log, .ecc] sc = true) (h₀ : Within sc r₀ s₀) :
    Within sc r₀ (State.frmFrameIn c oh payload marked bip bad s₀) := by
  unfold State.frmFrameIn
  repeat' first
    | with_reducible assumption
    | ((with_reducible refine sub_trans ?_ hs); exact rfl)
    | with_reducible exact trivial
    | with_reducible refine within_ite ?_ (fun _ => ?_)
    | with_reducible refine State.frmClients_within _ _ _ _ _ ?_ ?_
    | with_reducible refine State.frmCapturesDue_within _ _ _ ?_ ?_
    | with_reducible refine State.frmErrors_within _ _ _ _ ?_ ?_
    | with_reducible refine State.frmStatusBytes_within _ _ ?_ ?_
    | with_reducible refine State.frmRxCal_within _ ?_ ?_
    | with_reducible refine State.frmRatePtr_within _ _ ?_ ?_
    | with_reducible refine State.frmMfas_within _ _ ?_ ?_
    | with_reducible refine State.ospGive_within _ _ ?_ ?_
    | with_reducible refine State.frxAdvance_within _ _ _ ?_ ?_
    | with_reducible refine State.cphRxFrameEnd_within _ ?_ ?_
    | with_reducible refine State.frmActs_within _ _ ?_ ?_
    | with_reducible refine State.cliShowAll_within ?_ ?_
    | with_reducible refine State.setFrm_within _ _ ?_ ?_
    | with_reducible refine State.addCnt_within _ _ ?_ ?_
    | split
    | (dsimp only)

theorem State.iopAlign_within {sc r₀ s₀} (c : Carrier) (inFrame : Bool) (inMf : Bool) (hs : sub [.regs, .coreA, .coreB, .cph, .frmA, .frmB, .clm] sc = true) (h₀ : Within sc r₀ s₀) :
    Within sc r₀ (State.iopAlign c inFrame inMf s₀) := by
  unfold State.iopAlign
  repeat' first
    | with_reducible assumption
    | ((with_reducible refine sub_trans ?_ hs); exact rfl)
    | with_reducible exact trivial
    | with_reducible refine within_ite ?_ (fun _ => ?_)
    | with_reducible refine State.frmOof_within _ ?_ ?_
    | with_reducible refine State.frmOom_within _ ?_ ?_
    | with_reducible refine State.frmIf_within _ ?_ ?_
    | with_reducible refine State.setFlag_within _ _ _ ?_ ?_
    | split
    | (dsimp only)

theorem State.iopRxFrame_within {sc r₀ s₀} (c : Carrier) (bad : Nat) (hs : sub [.regs, .coreA, .coreB, .free, .cph, .frmA, .frmB, .clm] sc = true) (h₀ : Within sc r₀ s₀) :
    Within sc r₀ (State.iopRxFrame c bad s₀) := by
  unfold State.iopRxFrame
  repeat' first
    | with_reducible assumption
    | ((with_reducible refine sub_trans ?_ hs); exact rfl)
    | with_reducible exact trivial
    | with_reducible refine within_ite ?_ (fun _ => ?_)
    | with_reducible refine State.iopAlign_within _ _ _ ?_ ?_
    | with_reducible refine State.frmActs_within _ _ ?_ ?_
    | with_reducible refine State.setFrm_within _ _ ?_ ?_
    | with_reducible refine State.draw_within'  ‹_› ?_ ?_
    | with_reducible refine State.draw_within ?_ ?_
    | with_reducible refine State.addCnt_within _ _ ?_ ?_
    | with_reducible refine State.setFlag_within _ _ _ ?_ ?_
    | split
    | (dsimp only)

theorem execFrmRxFrame_within {sc r₀ s₀} (c : Carrier) (oh : List Byte) (payload : List Byte) (marked : List (Fin 16256)) (hs : sub [.regs, .mem, .coreA, .coreB, .qc, .hws, .hif, .pwr, .free, .cph, .fecA, .fecB, .frmA, .frmB, .osp, .clm, .log, .ecc] sc = true) (h₀ : Within sc r₀ s₀) :
    OutWithin sc r₀ (execFrmRxFrame c oh payload marked s₀) := by
  unfold execFrmRxFrame
  repeat' first
    | with_reducible assumption
    | ((with_reducible refine sub_trans ?_ hs); exact rfl)
    | with_reducible exact trivial
    | with_reducible refine within_ite ?_ (fun _ => ?_)
    | with_reducible refine outWithin_next ?_
    | with_reducible refine outWithin_ite ?_ ?_
    | with_reducible exact outWithin_fault _
    | with_reducible refine State.iopRxFrame_within _ _ ?_ ?_
    | with_reducible refine State.frmFrameIn_within _ _ _ _ _ _ ?_ ?_
    | with_reducible refine State.frmOof_within _ ?_ ?_
    | with_reducible refine State.setFrm_within _ _ ?_ ?_
    | with_reducible refine State.setFec_within _ _ ?_ ?_
    | with_reducible refine State.addCnt_within _ _ ?_ ?_
    | split
    | (dsimp only)

theorem execFrmLofTimer_within {sc r₀ s₀} (c : Carrier) (lom : Bool) (hs : sub [.regs, .mem, .coreA, .coreB, .qc, .hws, .hif, .pwr, .free, .frmA, .frmB, .mon, .log, .ecc] sc = true) (h₀ : Within sc r₀ s₀) :
    OutWithin sc r₀ (execFrmLofTimer c lom s₀) := by
  unfold execFrmLofTimer
  repeat' first
    | with_reducible assumption
    | ((with_reducible refine sub_trans ?_ hs); exact rfl)
    | with_reducible exact trivial
    | with_reducible refine within_ite ?_ (fun _ => ?_)
    | with_reducible refine outWithin_next ?_
    | with_reducible refine outWithin_ite ?_ ?_
    | with_reducible exact outWithin_fault _
    | with_reducible refine State.elwBreak_within _ ?_ ?_
    | with_reducible refine State.frmActs_within _ _ ?_ ?_
    | with_reducible refine State.monUrgentBit_within _ ?_ ?_
    | with_reducible refine State.setFrm_within _ _ ?_ ?_
    | with_reducible refine State.logEvent_within _ _ _ _ ?_ ?_
    | with_reducible refine State.setFlag_within _ _ _ ?_ ?_
    | split
    | (dsimp only)

theorem execFrmEngineFault_within {sc r₀ s₀} (c : Carrier) (hs : sub [.regs, .mem, .coreA, .coreB, .qc, .hws, .hif, .pwr, .free, .cph, .frmA, .frmB, .clm, .log, .ecc] sc = true) (h₀ : Within sc r₀ s₀) :
    OutWithin sc r₀ (execFrmEngineFault c s₀) := by
  unfold execFrmEngineFault
  repeat' first
    | with_reducible assumption
    | ((with_reducible refine sub_trans ?_ hs); exact rfl)
    | with_reducible exact trivial
    | with_reducible refine within_ite ?_ (fun _ => ?_)
    | with_reducible refine outWithin_next ?_
    | with_reducible refine outWithin_ite ?_ ?_
    | with_reducible exact outWithin_fault _
    | with_reducible refine State.frmOom_within _ ?_ ?_
    | with_reducible refine State.elwBreak_within _ ?_ ?_
    | with_reducible refine State.frmActs_within _ _ ?_ ?_
    | with_reducible refine State.setFrm_within _ _ ?_ ?_
    | with_reducible refine State.logFault_within _ _ _ ?_ ?_
    | with_reducible refine State.setFlag_within _ _ _ ?_ ?_
    | split
    | (dsimp only)

end Sys2Proof.Laws
end

