-- ==== Sys2Proof/Laws/MemScu.lean ====
section
/-! SUPPORT. The scope of each operation of Sys2Proof/Machine/MemScu.lean. -/
namespace Sys2Proof.Laws
open Sys2Proof.Machine Sys2Proof.Safety

theorem execMmScrub_within {sc r₀ s₀}  (hs : sub [.regs, .mem, .coreA, .coreB, .qc, .hws, .hif, .pwr, .free, .log, .ecc] sc = true) (h₀ : Within sc r₀ s₀) :
    OutWithin sc r₀ (execMmScrub s₀) := by
  unfold execMmScrub
  repeat' first
    | with_reducible assumption
    | ((with_reducible refine sub_trans ?_ hs); exact rfl)
    | with_reducible exact trivial
    | with_reducible refine within_ite ?_ (fun _ => ?_)
    | with_reducible refine within_ite_snd ?_ (fun _ => ?_)
    | with_reducible refine outWithin_next ?_
    | with_reducible refine outWithin_ite ?_ ?_
    | with_reducible exact outWithin_fault _
    | with_reducible refine State.setFlag_within _ _ _ ?_ ?_
    | with_reducible refine State.runCommand_within _ _ _ (fun _ _ _ => ?_) ?_ ?_
    | split
    | (dsimp only)

theorem State.scrubWord_within {sc r₀ s₀} (m : EccMark) (hs : sub [.regs, .coreA, .coreB, .hif, .free, .log, .ecc] sc = true) (h₀ : Within sc r₀ s₀) :
    Within sc r₀ (State.scrubWord m s₀).2 := by
  unfold State.scrubWord
  repeat' first
    | with_reducible assumption
    | ((with_reducible refine sub_trans ?_ hs); exact rfl)
    | with_reducible exact trivial
    | with_reducible refine within_ite ?_ (fun _ => ?_)
    | with_reducible refine within_ite_snd ?_ (fun _ => ?_)
    | with_reducible refine State.rptNew_within' _ _ _  ‹_› ?_ ?_
    | with_reducible refine State.rptNew_within _ _ _ ?_ ?_
    | with_reducible refine State.eccHard_within _ _ ?_ ?_
    | with_reducible refine State.addCnt_within _ _ ?_ ?_
    | with_reducible refine State.setFlag_within _ _ _ ?_ ?_
    | split
    | with_reducible refine Within.set_ecc ?_ ?_
    | (dsimp only)
theorem State.scrubWord_within' {sc r₀ s₀ t} {x0} (m : EccMark) (he : State.scrubWord m s₀ = (x0, t)) (hs : sub [.regs, .coreA, .coreB, .hif, .free, .log, .ecc] sc = true) (h₀ : Within sc r₀ s₀) : Within sc r₀ t := by
  have h := State.scrubWord_within m hs h₀
  rw [he] at h
  exact h

theorem State.scrubMarks_within {sc r₀ s₀} (l : List EccMark) (c : ScrubSum) (hs : sub [.regs, .coreA, .coreB, .hif, .free, .log, .ecc] sc = true) (h₀ : Within sc r₀ s₀) :
    Within sc r₀ (State.scrubMarks l c s₀).2 := by
  induction l generalizing s₀ c with
  | nil => exact h₀
  | cons m l ih =>
    unfold State.scrubMarks
    split
    · exact ih _ (State.eccUncorr_within _ _ (sub_trans rfl hs) h₀)
    · exact ih _ (State.scrubWord_within _ (sub_trans rfl hs) h₀)

theorem State.scrubMarks_within' {sc r₀ s₀ t x0} (l : List EccMark) (c : ScrubSum) (e : State.scrubMarks l c s₀ = (x0, t))
    (hs : sub [.regs, .coreA, .coreB, .hif, .free, .log, .ecc] sc = true) (h₀ : Within sc r₀ s₀) : Within sc r₀ t := by
  have h := State.scrubMarks_within l c hs h₀
  rw [e] at h
  exact h

theorem State.scrubDone_within {sc r₀ s₀} (d : Desc) (hs : sub [.regs, .mem, .coreA, .coreB, .hif, .free, .log, .ecc] sc = true) (h₀ : Within sc r₀ s₀) :
    Within sc r₀ (State.scrubDone d s₀).2 := by
  unfold State.scrubDone
  repeat' first
    | with_reducible assumption
    | ((with_reducible refine sub_trans ?_ hs); exact rfl)
    | with_reducible exact trivial
    | with_reducible refine within_ite ?_ (fun _ => ?_)
    | with_reducible refine within_ite_snd ?_ (fun _ => ?_)
    | with_reducible refine State.scrubMarks_within' _ _  ‹_› ?_ ?_
    | with_reducible refine State.scrubMarks_within _ _ ?_ ?_
    | with_reducible refine State.setBytes_within _ _ ?_ ?_
    | with_reducible refine State.setFlag_within _ _ _ ?_ ?_
    | with_reducible refine within_foldl (fun _ _ _ => ?_) ?_
    | with_reducible refine within_foldl_snd (fun _ _ _ => ?_) ?_
    | split
    | (dsimp only)
theorem State.scrubDone_within' {sc r₀ s₀ t} {x0} (d : Desc) (he : State.scrubDone d s₀ = (x0, t)) (hs : sub [.regs, .mem, .coreA, .coreB, .hif, .free, .log, .ecc] sc = true) (h₀ : Within sc r₀ s₀) : Within sc r₀ t := by
  have h := State.scrubDone_within d hs h₀
  rw [he] at h
  exact h

theorem execMmReadRepair_within {sc r₀ s₀}  (hs : sub [.regs, .mem, .coreA, .coreB, .qc, .hws, .hif, .pwr, .free, .log, .ecc] sc = true) (h₀ : Within sc r₀ s₀) :
    OutWithin sc r₀ (execMmReadRepair s₀) := by
  unfold execMmReadRepair
  repeat' first
    | with_reducible assumption
    | ((with_reducible refine sub_trans ?_ hs); exact rfl)
    | with_reducible exact trivial
    | with_reducible refine within_ite ?_ (fun _ => ?_)
    | with_reducible refine within_ite_snd ?_ (fun _ => ?_)
    | with_reducible refine outWithin_next ?_
    | with_reducible refine outWithin_ite ?_ ?_
    | with_reducible exact outWithin_fault _
    | with_reducible refine State.drawBytes_within' _  ‹_› ?_ ?_
    | with_reducible refine State.drawBytes_within _ ?_ ?_
    | with_reducible refine State.setBytes_within _ _ ?_ ?_
    | with_reducible refine State.runCommand_within _ _ _ (fun _ _ _ => ?_) ?_ ?_
    | split
    | (dsimp only)

theorem execScScan_within {sc r₀ s₀}  (hs : sub [.regs, .mem, .coreA, .coreB, .qc, .hws, .hif, .pwr, .free, .log, .ecc] sc = true) (h₀ : Within sc r₀ s₀) :
    OutWithin sc r₀ (execScScan s₀) := by
  unfold execScScan
  repeat' first
    | with_reducible assumption
    | ((with_reducible refine sub_trans ?_ hs); exact rfl)
    | with_reducible exact trivial
    | with_reducible refine within_ite ?_ (fun _ => ?_)
    | with_reducible refine within_ite_snd ?_ (fun _ => ?_)
    | with_reducible refine outWithin_next ?_
    | with_reducible refine outWithin_ite ?_ ?_
    | with_reducible exact outWithin_fault _
    | with_reducible refine State.setFlag_within _ _ _ ?_ ?_
    | with_reducible refine State.runCommand_within _ _ _ (fun _ _ _ => ?_) ?_ ?_
    | split
    | with_reducible refine Within.set_ecc ?_ ?_
    | (dsimp only)

theorem State.scanDone_within {sc r₀ s₀} (d : Desc) (hs : sub [.regs, .coreA, .coreB, .hif, .free] sc = true) (h₀ : Within sc r₀ s₀) :
    Within sc r₀ (State.scanDone d s₀).2 := by
  unfold State.scanDone
  repeat' first
    | with_reducible assumption
    | ((with_reducible refine sub_trans ?_ hs); exact rfl)
    | with_reducible exact trivial
    | with_reducible refine within_ite ?_ (fun _ => ?_)
    | with_reducible refine within_ite_snd ?_ (fun _ => ?_)
    | with_reducible refine State.eccUncorr_within _ _ ?_ ?_
    | with_reducible refine State.raiseIrq_within _ ?_ ?_
    | with_reducible refine State.logEvent_within _ _ _ _ ?_ ?_
    | with_reducible refine State.draw_within'  ‹_› ?_ ?_
    | with_reducible refine State.draw_within ?_ ?_
    | with_reducible refine State.addCnt_within _ _ ?_ ?_
    | with_reducible refine State.setFlag_within _ _ _ ?_ ?_
    | with_reducible refine State.setReg_within _ _ ?_ ?_
    | with_reducible refine within_foldl (fun _ _ _ => ?_) ?_
    | with_reducible refine within_foldl_snd (fun _ _ _ => ?_) ?_
    | split
    | (dsimp only)
theorem State.scanDone_within' {sc r₀ s₀ t} {x0} (d : Desc) (he : State.scanDone d s₀ = (x0, t)) (hs : sub [.regs, .coreA, .coreB, .hif, .free] sc = true) (h₀ : Within sc r₀ s₀) : Within sc r₀ t := by
  have h := State.scanDone_within d hs h₀
  rw [he] at h
  exact h

theorem execMemScuEngineFault_within {sc r₀ s₀} (scu : Bool) (hs : sub [.regs, .coreA, .coreB, .hif, .free, .ecc] sc = true) (h₀ : Within sc r₀ s₀) :
    OutWithin sc r₀ (execMemScuEngineFault scu s₀) := by
  unfold execMemScuEngineFault
  repeat' first
    | with_reducible assumption
    | ((with_reducible refine sub_trans ?_ hs); exact rfl)
    | with_reducible exact trivial
    | with_reducible refine within_ite ?_ (fun _ => ?_)
    | with_reducible refine outWithin_next ?_
    | with_reducible refine outWithin_ite ?_ ?_
    | with_reducible exact outWithin_fault _
    | with_reducible refine State.logFault_within _ _ _ ?_ ?_
    | with_reducible refine State.setFlag_within _ _ _ ?_ ?_
    | split
    | with_reducible refine Within.set_ecc ?_ ?_
    | (dsimp only)

end Sys2Proof.Laws
end

