-- ==== Sys2Proof/Laws/Lanes.lean ====
section
/-! SUPPORT. The scope of each operation of Sys2Proof/Machine/Lanes.lean. -/
namespace Sys2Proof.Laws
open Sys2Proof.Machine Sys2Proof.Safety

theorem State.setLane_within {sc r₀ s₀} (quay : Bool) (n : Nat) (x : LaneRt) (hs : sub [.lanes] sc = true) (h₀ : Within sc r₀ s₀) :
    Within sc r₀ (State.setLane quay n x s₀) := by
  unfold State.setLane
  repeat' first
    | with_reducible assumption
    | ((with_reducible refine sub_trans ?_ hs); exact rfl)
    | with_reducible exact trivial
    | with_reducible refine within_ite ?_ (fun _ => ?_)
    | split
    | with_reducible refine Within.set_lanes ?_ ?_
    | (dsimp only)

theorem State.hostFail_within {sc r₀ s₀} (l : List Nat) (b : Bool) (hs : sub [.regs] sc = true) (h₀ : Within sc r₀ s₀) :
    Within sc r₀ (State.hostFail l b s₀) := by
  unfold State.hostFail
  repeat' first
    | with_reducible assumption
    | ((with_reducible refine sub_trans ?_ hs); exact rfl)
    | with_reducible exact trivial
    | with_reducible refine within_ite ?_ (fun _ => ?_)
    | with_reducible refine State.setFlag_within _ _ _ ?_ ?_
    | with_reducible refine within_foldl (fun _ _ _ => ?_) ?_
    | with_reducible refine within_foldl_snd (fun _ _ _ => ?_) ?_
    | split
    | (dsimp only)

theorem State.laneAdapt_within {sc r₀ s₀} (quay : Bool) (n : Nat) (hs : sub [.regs, .lanes] sc = true) (h₀ : Within sc r₀ s₀) :
    Within sc r₀ (State.laneAdapt quay n s₀) := by
  unfold State.laneAdapt
  repeat' first
    | with_reducible assumption
    | ((with_reducible refine sub_trans ?_ hs); exact rfl)
    | with_reducible exact trivial
    | with_reducible refine within_ite ?_ (fun _ => ?_)
    | with_reducible refine State.setLane_within _ _ _ ?_ ?_
    | with_reducible refine State.setFlag_within _ _ _ ?_ ?_
    | split
    | (dsimp only)

theorem State.lanePower_within {sc r₀ s₀} (quay : Bool) (n : Nat) (code : Nat) (hs : sub [.regs, .lanes] sc = true) (h₀ : Within sc r₀ s₀) :
    Within sc r₀ (State.lanePower quay n code s₀) := by
  unfold State.lanePower
  repeat' first
    | with_reducible assumption
    | ((with_reducible refine sub_trans ?_ hs); exact rfl)
    | with_reducible exact trivial
    | with_reducible refine within_ite ?_ (fun _ => ?_)
    | with_reducible refine State.laneAdapt_within _ _ ?_ ?_
    | with_reducible refine State.setLane_within _ _ _ ?_ ?_
    | with_reducible refine State.setFlag_within _ _ _ ?_ ?_
    | with_reducible refine State.setFld_within _ _ _ ?_ ?_
    | split
    | (dsimp only)

theorem State.setPower_within {sc r₀ s₀} (quay : Bool) (hs : sub [.regs, .mem, .coreA, .coreB, .qc, .hws, .hif, .pwr, .free, .lanes, .log, .ecc] sc = true) (h₀ : Within sc r₀ s₀) :
    Within sc r₀ (State.setPower quay s₀) := by
  unfold State.setPower
  repeat' first
    | with_reducible assumption
    | ((with_reducible refine sub_trans ?_ hs); exact rfl)
    | with_reducible exact trivial
    | with_reducible refine within_ite ?_ (fun _ => ?_)
    | with_reducible refine within_ite_snd ?_ (fun _ => ?_)
    | with_reducible refine State.lanePower_within _ _ _ ?_ ?_
    | with_reducible refine State.runCommand_within _ _ _ (fun _ _ _ => ?_) ?_ ?_
    | with_reducible refine within_foldl (fun _ _ _ => ?_) ?_
    | with_reducible refine within_foldl_snd (fun _ _ _ => ?_) ?_
    | split
    | (dsimp only)

theorem State.readapt_within {sc r₀ s₀} (quay : Bool) (hs : sub [.regs, .mem, .coreA, .coreB, .qc, .hws, .hif, .pwr, .free, .lanes, .log, .ecc] sc = true) (h₀ : Within sc r₀ s₀) :
    Within sc r₀ (State.readapt quay s₀) := by
  unfold State.readapt
  repeat' first
    | with_reducible assumption
    | ((with_reducible refine sub_trans ?_ hs); exact rfl)
    | with_reducible exact trivial
    | with_reducible refine within_ite ?_ (fun _ => ?_)
    | with_reducible refine within_ite_snd ?_ (fun _ => ?_)
    | with_reducible refine State.laneAdapt_within _ _ ?_ ?_
    | with_reducible refine State.runCommand_within _ _ _ (fun _ _ _ => ?_) ?_ ?_
    | split
    | (dsimp only)

theorem execHlSetPower_within {sc r₀ s₀}  (hs : sub [.regs, .mem, .coreA, .coreB, .qc, .hws, .hif, .pwr, .free, .lanes, .log, .ecc] sc = true) (h₀ : Within sc r₀ s₀) :
    OutWithin sc r₀ (execHlSetPower s₀) := by
  unfold execHlSetPower
  repeat' first
    | with_reducible assumption
    | ((with_reducible refine sub_trans ?_ hs); exact rfl)
    | with_reducible exact trivial
    | with_reducible refine within_ite ?_ (fun _ => ?_)
    | with_reducible refine outWithin_next ?_
    | with_reducible refine outWithin_ite ?_ ?_
    | with_reducible exact outWithin_fault _
    | with_reducible refine State.setPower_within _ ?_ ?_
    | split
    | (dsimp only)

theorem execQlSetPower_within {sc r₀ s₀}  (hs : sub [.regs, .mem, .coreA, .coreB, .qc, .hws, .hif, .pwr, .free, .lanes, .log, .ecc] sc = true) (h₀ : Within sc r₀ s₀) :
    OutWithin sc r₀ (execQlSetPower s₀) := by
  unfold execQlSetPower
  repeat' first
    | with_reducible assumption
    | ((with_reducible refine sub_trans ?_ hs); exact rfl)
    | with_reducible exact trivial
    | with_reducible refine within_ite ?_ (fun _ => ?_)
    | with_reducible refine outWithin_next ?_
    | with_reducible refine outWithin_ite ?_ ?_
    | with_reducible exact outWithin_fault _
    | with_reducible refine State.setPower_within _ ?_ ?_
    | split
    | (dsimp only)

theorem execHlReadapt_within {sc r₀ s₀}  (hs : sub [.regs, .mem, .coreA, .coreB, .qc, .hws, .hif, .pwr, .free, .lanes, .log, .ecc] sc = true) (h₀ : Within sc r₀ s₀) :
    OutWithin sc r₀ (execHlReadapt s₀) := by
  unfold execHlReadapt
  repeat' first
    | with_reducible assumption
    | ((with_reducible refine sub_trans ?_ hs); exact rfl)
    | with_reducible exact trivial
    | with_reducible refine within_ite ?_ (fun _ => ?_)
    | with_reducible refine outWithin_next ?_
    | with_reducible refine outWithin_ite ?_ ?_
    | with_reducible exact outWithin_fault _
    | with_reducible refine State.readapt_within _ ?_ ?_
    | split
    | (dsimp only)

theorem execQlReadapt_within {sc r₀ s₀}  (hs : sub [.regs, .mem, .coreA, .coreB, .qc, .hws, .hif, .pwr, .free, .lanes, .log, .ecc] sc = true) (h₀ : Within sc r₀ s₀) :
    OutWithin sc r₀ (execQlReadapt s₀) := by
  unfold execQlReadapt
  repeat' first
    | with_reducible assumption
    | ((with_reducible refine sub_trans ?_ hs); exact rfl)
    | with_reducible exact trivial
    | with_reducible refine within_ite ?_ (fun _ => ?_)
    | with_reducible refine outWithin_next ?_
    | with_reducible refine outWithin_ite ?_ ?_
    | with_reducible exact outWithin_fault _
    | with_reducible refine State.readapt_within _ ?_ ?_
    | split
    | (dsimp only)

theorem State.powerDone_within {sc r₀ s₀} (quay : Bool) (hs : sub [.regs, .mem, .coreA, .coreB, .qc, .hws, .hif, .pwr, .free, .log, .ecc] sc = true) (h₀ : Within sc r₀ s₀) :
    Within sc r₀ (State.powerDone quay s₀) := by
  unfold State.powerDone
  repeat' first
    | with_reducible assumption
    | ((with_reducible refine sub_trans ?_ hs); exact rfl)
    | with_reducible exact trivial
    | with_reducible refine within_ite ?_ (fun _ => ?_)
    | with_reducible refine State.complete_within _ _ _ _ ?_ ?_
    | with_reducible refine within_foldl (fun _ _ _ => ?_) ?_
    | with_reducible refine within_foldl_snd (fun _ _ _ => ?_) ?_
    | split
    | (dsimp only)

theorem execLaneRxReady_within {sc r₀ s₀} (quay : Bool) (lane : Fin 24) (snr : BitVec 10) (hs : sub [.regs, .mem, .coreA, .coreB, .qc, .hws, .hif, .pwr, .free, .lanes, .log, .ecc] sc = true) (h₀ : Within sc r₀ s₀) :
    OutWithin sc r₀ (execLaneRxReady quay lane snr s₀) := by
  unfold execLaneRxReady
  repeat' first
    | with_reducible assumption
    | ((with_reducible refine sub_trans ?_ hs); exact rfl)
    | with_reducible exact trivial
    | with_reducible refine within_ite ?_ (fun _ => ?_)
    | with_reducible refine outWithin_next ?_
    | with_reducible refine outWithin_ite ?_ ?_
    | with_reducible exact outWithin_fault _
    | with_reducible refine State.powerDone_within _ ?_ ?_
    | with_reducible refine State.setLane_within _ _ _ ?_ ?_
    | with_reducible refine State.setFlag_within _ _ _ ?_ ?_
    | with_reducible refine State.setFld_within _ _ _ ?_ ?_
    | split
    | (dsimp only)

theorem execLaneL1ExitTimeout_within {sc r₀ s₀} (quay : Bool) (lane : Fin 24) (hs : sub [.regs, .lanes] sc = true) (h₀ : Within sc r₀ s₀) :
    OutWithin sc r₀ (execLaneL1ExitTimeout quay lane s₀) := by
  unfold execLaneL1ExitTimeout
  repeat' first
    | with_reducible assumption
    | ((with_reducible refine sub_trans ?_ hs); exact rfl)
    | with_reducible exact trivial
    | with_reducible refine within_ite ?_ (fun _ => ?_)
    | with_reducible refine outWithin_next ?_
    | with_reducible refine outWithin_ite ?_ ?_
    | with_reducible exact outWithin_fault _
    | with_reducible refine State.laneAdapt_within _ _ ?_ ?_
    | split
    | (dsimp only)

theorem execLaneLosDeclared_within {sc r₀ s₀} (quay : Bool) (lane : Fin 24) (hs : sub [.regs, .coreA, .coreB, .hif] sc = true) (h₀ : Within sc r₀ s₀) :
    OutWithin sc r₀ (execLaneLosDeclared quay lane s₀) := by
  unfold execLaneLosDeclared
  repeat' first
    | with_reducible assumption
    | ((with_reducible refine sub_trans ?_ hs); exact rfl)
    | with_reducible exact trivial
    | with_reducible refine within_ite ?_ (fun _ => ?_)
    | with_reducible refine outWithin_next ?_
    | with_reducible refine outWithin_ite ?_ ?_
    | with_reducible exact outWithin_fault _
    | with_reducible refine State.hostFail_within _ _ ?_ ?_
    | with_reducible refine State.logEvent_within _ _ _ _ ?_ ?_
    | with_reducible refine State.addCnt_within _ _ ?_ ?_
    | with_reducible refine State.setFlag_within _ _ _ ?_ ?_
    | split
    | (dsimp only)

theorem execLaneLosCleared_within {sc r₀ s₀} (quay : Bool) (lane : Fin 24) (hs : sub [.regs, .lanes] sc = true) (h₀ : Within sc r₀ s₀) :
    OutWithin sc r₀ (execLaneLosCleared quay lane s₀) := by
  unfold execLaneLosCleared
  repeat' first
    | with_reducible assumption
    | ((with_reducible refine sub_trans ?_ hs); exact rfl)
    | with_reducible exact trivial
    | with_reducible refine within_ite ?_ (fun _ => ?_)
    | with_reducible refine outWithin_next ?_
    | with_reducible refine outWithin_ite ?_ ?_
    | with_reducible exact outWithin_fault _
    | with_reducible refine State.laneAdapt_within _ _ ?_ ?_
    | with_reducible refine State.setFlag_within _ _ _ ?_ ?_
    | split
    | (dsimp only)

theorem execHostPcsLock_within {sc r₀ s₀} (port : HostPort) (locked : Bool) (corr : List Nat) (uncorr : Nat) (hs : sub [.regs, .coreA, .coreB] sc = true) (h₀ : Within sc r₀ s₀) :
    OutWithin sc r₀ (execHostPcsLock port locked corr uncorr s₀) := by
  unfold execHostPcsLock
  repeat' first
    | with_reducible assumption
    | ((with_reducible refine sub_trans ?_ hs); exact rfl)
    | with_reducible exact trivial
    | with_reducible refine within_ite ?_ (fun _ => ?_)
    | with_reducible refine outWithin_next ?_
    | with_reducible refine outWithin_ite ?_ ?_
    | with_reducible exact outWithin_fault _
    | with_reducible refine State.hostFail_within _ _ ?_ ?_
    | with_reducible refine State.addCnt_within _ _ ?_ ?_
    | with_reducible refine within_foldl (fun _ _ _ => ?_) ?_
    | with_reducible refine within_foldl_snd (fun _ _ _ => ?_) ?_
    | split
    | (dsimp only)

theorem State.hostShow_within {sc r₀ s₀} (changed : List Nat) (hs : sub [.regs, .lanes] sc = true) (h₀ : Within sc r₀ s₀) :
    Within sc r₀ (State.hostShow changed s₀) := by
  unfold State.hostShow
  repeat' first
    | with_reducible assumption
    | ((with_reducible refine sub_trans ?_ hs); exact rfl)
    | with_reducible exact trivial
    | with_reducible refine within_ite ?_ (fun _ => ?_)
    | with_reducible refine State.laneAdapt_within _ _ ?_ ?_
    | with_reducible refine State.hostFail_within _ _ ?_ ?_
    | with_reducible refine State.setFld_within _ _ _ ?_ ?_
    | with_reducible refine forN_within _ _ ?_ ?_
    | with_reducible refine within_foldl (fun _ _ _ => ?_) ?_
    | with_reducible refine within_foldl_snd (fun _ _ _ => ?_) ?_
    | with_reducible refine forN_within (fun _ _ _ => ?_) ?_
    | split
    | (dsimp only)

theorem State.putQuayMap_within {sc r₀ s₀} (rx : Bool) (m : List Byte) (hs : sub [.lanes] sc = true) (h₀ : Within sc r₀ s₀) :
    Within sc r₀ (State.putQuayMap rx m s₀) := by
  unfold State.putQuayMap
  repeat' first
    | with_reducible assumption
    | ((with_reducible refine sub_trans ?_ hs); exact rfl)
    | with_reducible exact trivial
    | with_reducible refine within_ite ?_ (fun _ => ?_)
    | split
    | with_reducible refine Within.set_lanes ?_ ?_
    | (dsimp only)

theorem State.setQuayAt_within {sc r₀ s₀} (rx : Bool) (x : Option Nat) (hs : sub [.lanes] sc = true) (h₀ : Within sc r₀ s₀) :
    Within sc r₀ (State.setQuayAt rx x s₀) := by
  unfold State.setQuayAt
  repeat' first
    | with_reducible assumption
    | ((with_reducible refine sub_trans ?_ hs); exact rfl)
    | with_reducible exact trivial
    | with_reducible refine within_ite ?_ (fun _ => ?_)
    | split
    | with_reducible refine Within.set_lanes ?_ ?_
    | (dsimp only)

theorem State.quaySwitch_within {sc r₀ s₀} (rx : Bool) (hs : sub [.regs, .lanes] sc = true) (h₀ : Within sc r₀ s₀) :
    Within sc r₀ (State.quaySwitch rx s₀) := by
  unfold State.quaySwitch
  repeat' first
    | with_reducible assumption
    | ((with_reducible refine sub_trans ?_ hs); exact rfl)
    | with_reducible exact trivial
    | with_reducible refine within_ite ?_ (fun _ => ?_)
    | with_reducible refine State.setQuayAt_within _ _ ?_ ?_
    | with_reducible refine State.setFlag_within _ _ _ ?_ ?_
    | split
    | (dsimp only)

theorem execQlSetMap_within {sc r₀ s₀}  (hs : sub [.regs, .mem, .coreA, .coreB, .qc, .hws, .hif, .pwr, .free, .lanes, .log, .ecc] sc = true) (h₀ : Within sc r₀ s₀) :
    OutWithin sc r₀ (execQlSetMap s₀) := by
  unfold execQlSetMap
  repeat' first
    | with_reducible assumption
    | ((with_reducible refine sub_trans ?_ hs); exact rfl)
    | with_reducible exact trivial
    | with_reducible refine within_ite ?_ (fun _ => ?_)
    | with_reducible refine outWithin_next ?_
    | with_reducible refine outWithin_ite ?_ ?_
    | with_reducible exact outWithin_fault _
    | with_reducible refine State.quaySwitch_within _ ?_ ?_
    | with_reducible refine State.setQuayAt_within _ _ ?_ ?_
    | with_reducible refine State.putQuayMap_within _ _ ?_ ?_
    | with_reducible refine State.runCommand_within _ _ _ (fun _ _ _ => ?_) ?_ ?_
    | split
    | (dsimp only)

theorem execQlReadMap_within {sc r₀ s₀}  (hs : sub [.regs, .mem, .coreA, .coreB, .qc, .hws, .hif, .pwr, .free, .log, .ecc] sc = true) (h₀ : Within sc r₀ s₀) :
    OutWithin sc r₀ (execQlReadMap s₀) := by
  unfold execQlReadMap
  repeat' first
    | with_reducible assumption
    | ((with_reducible refine sub_trans ?_ hs); exact rfl)
    | with_reducible exact trivial
    | with_reducible refine within_ite ?_ (fun _ => ?_)
    | with_reducible refine within_ite_snd ?_ (fun _ => ?_)
    | with_reducible refine outWithin_next ?_
    | with_reducible refine outWithin_ite ?_ ?_
    | with_reducible exact outWithin_fault _
    | with_reducible refine State.setBytes_within _ _ ?_ ?_
    | with_reducible refine State.runCommand_within _ _ _ (fun _ _ _ => ?_) ?_ ?_
    | split
    | (dsimp only)

theorem execQuayMapApply_within {sc r₀ s₀} (rx : Bool) (superrow : BitVec 22) (hs : sub [.regs, .lanes] sc = true) (h₀ : Within sc r₀ s₀) :
    OutWithin sc r₀ (execQuayMapApply rx superrow s₀) := by
  unfold execQuayMapApply
  repeat' first
    | with_reducible assumption
    | ((with_reducible refine sub_trans ?_ hs); exact rfl)
    | with_reducible exact trivial
    | with_reducible refine within_ite ?_ (fun _ => ?_)
    | with_reducible refine outWithin_next ?_
    | with_reducible refine outWithin_ite ?_ ?_
    | with_reducible exact outWithin_fault _
    | with_reducible refine State.quaySwitch_within _ ?_ ?_
    | split
    | (dsimp only)

theorem State.quayDown_within {sc r₀ s₀} (cause : Nat) (hs : sub [.regs, .coreA, .coreB, .hif, .lanes] sc = true) (h₀ : Within sc r₀ s₀) :
    Within sc r₀ (State.quayDown cause s₀) := by
  unfold State.quayDown
  repeat' first
    | with_reducible assumption
    | ((with_reducible refine sub_trans ?_ hs); exact rfl)
    | with_reducible exact trivial
    | with_reducible refine within_ite ?_ (fun _ => ?_)
    | with_reducible refine State.quaySwitch_within _ ?_ ?_
    | with_reducible refine State.hostFail_within _ _ ?_ ?_
    | with_reducible refine State.logEvent_within _ _ _ _ ?_ ?_
    | with_reducible refine State.addCnt_within _ _ ?_ ?_
    | with_reducible refine State.setFlag_within _ _ _ ?_ ?_
    | with_reducible refine State.setReg_within _ _ ?_ ?_
    | split
    | with_reducible refine Within.set_lanes ?_ ?_
    | (dsimp only)

theorem State.setQuayLane_within {sc r₀ s₀} (n : Nat) (x : QuayLane) (hs : sub [.lanes] sc = true) (h₀ : Within sc r₀ s₀) :
    Within sc r₀ (State.setQuayLane n x s₀) := by
  unfold State.setQuayLane
  repeat' first
    | with_reducible assumption
    | ((with_reducible refine sub_trans ?_ hs); exact rfl)
    | with_reducible exact trivial
    | with_reducible refine within_ite ?_ (fun _ => ?_)
    | split
    | with_reducible refine Within.set_lanes ?_ ?_
    | (dsimp only)

theorem State.setQuayLock_within {sc r₀ s₀} (n : Nat) (b : Bool) (hs : sub [.regs] sc = true) (h₀ : Within sc r₀ s₀) :
    Within sc r₀ (State.setQuayLock n b s₀) := by
  unfold State.setQuayLock
  repeat' first
    | with_reducible assumption
    | ((with_reducible refine sub_trans ?_ hs); exact rfl)
    | with_reducible exact trivial
    | with_reducible refine within_ite ?_ (fun _ => ?_)
    | with_reducible refine State.setFlag_within _ _ _ ?_ ?_
    | with_reducible refine State.setFld_within _ _ _ ?_ ?_
    | split
    | (dsimp only)

theorem State.quayUnlock_within {sc r₀ s₀} (n : Nat) (hs : sub [.regs, .coreA, .coreB, .hif, .lanes] sc = true) (h₀ : Within sc r₀ s₀) :
    Within sc r₀ (State.quayUnlock n s₀) := by
  unfold State.quayUnlock
  repeat' first
    | with_reducible assumption
    | ((with_reducible refine sub_trans ?_ hs); exact rfl)
    | with_reducible exact trivial
    | with_reducible refine within_ite ?_ (fun _ => ?_)
    | with_reducible refine State.setQuayLock_within _ _ ?_ ?_
    | with_reducible refine State.setQuayLane_within _ _ ?_ ?_
    | with_reducible refine State.quayDown_within _ ?_ ?_
    | with_reducible refine State.addCnt_within _ _ ?_ ?_
    | split
    | (dsimp only)

theorem State.quayComma_within {sc r₀ s₀} (n : Nat) (found : Bool) (named : Option (Fin 8)) (hs : sub [.regs, .coreA, .coreB, .hif, .lanes] sc = true) (h₀ : Within sc r₀ s₀) :
    Within sc r₀ (State.quayComma n found named s₀) := by
  unfold State.quayComma
  repeat' first
    | with_reducible assumption
    | ((with_reducible refine sub_trans ?_ hs); exact rfl)
    | with_reducible exact trivial
    | with_reducible refine within_ite ?_ (fun _ => ?_)
    | with_reducible refine State.quayUnlock_within _ ?_ ?_
    | with_reducible refine State.setQuayLock_within _ _ ?_ ?_
    | with_reducible refine State.setQuayLane_within _ _ ?_ ?_
    | with_reducible refine State.logEvent_within _ _ _ _ ?_ ?_
    | with_reducible refine State.setFlag_within _ _ _ ?_ ?_
    | split
    | (dsimp only)

theorem State.quayTake_within {sc r₀ s₀} (n : Nat) (found : Bool) (named : Option (Fin 8)) (r : QuayRead) (hs : sub [.regs, .coreA, .coreB, .hif, .lanes] sc = true) (h₀ : Within sc r₀ s₀) :
    Within sc r₀ (State.quayTake n found named r s₀) := by
  unfold State.quayTake
  repeat' first
    | with_reducible assumption
    | ((with_reducible refine sub_trans ?_ hs); exact rfl)
    | with_reducible exact trivial
    | with_reducible refine within_ite ?_ (fun _ => ?_)
    | with_reducible refine State.quayComma_within _ _ _ ?_ ?_
    | with_reducible refine State.setQuayLane_within _ _ ?_ ?_
    | with_reducible refine State.addCnt_within _ _ ?_ ?_
    | split
    | (dsimp only)

theorem execQuayBlockReceived_within {sc r₀ s₀} (lane : Fin 8) (syms : List (Fin 4)) (hs : sub [.regs, .coreA, .coreB, .hif, .lanes] sc = true) (h₀ : Within sc r₀ s₀) :
    OutWithin sc r₀ (execQuayBlockReceived lane syms s₀) := by
  unfold execQuayBlockReceived
  repeat' first
    | with_reducible assumption
    | ((with_reducible refine sub_trans ?_ hs); exact rfl)
    | with_reducible exact trivial
    | with_reducible refine within_ite ?_ (fun _ => ?_)
    | with_reducible refine outWithin_next ?_
    | with_reducible refine outWithin_ite ?_ ?_
    | with_reducible exact outWithin_fault _
    | with_reducible refine State.quayTake_within _ _ _ _ ?_ ?_
    | split
    | (dsimp only)

theorem State.quayUnit_within {sc r₀ s₀} (n : Nat) (u : Unit66) (hs : sub [.regs, .coreA, .coreB, .hif, .clm] sc = true) (h₀ : Within sc r₀ s₀) :
    Within sc r₀ (State.quayUnit n s₀ u) := by
  unfold State.quayUnit
  repeat' first
    | with_reducible assumption
    | ((with_reducible refine sub_trans ?_ hs); exact rfl)
    | with_reducible exact trivial
    | with_reducible refine within_ite ?_ (fun _ => ?_)
    | with_reducible refine State.clmIngress_within _ _ ?_ ?_
    | with_reducible refine State.setClient_within _ _ ?_ ?_
    | split
    | (dsimp only)

theorem State.quayContainer_within {sc r₀ s₀} (n : Nat) (good : Bool) (bits : List Bool) (hs : sub [.regs, .coreA, .coreB, .hif, .clm] sc = true) (h₀ : Within sc r₀ s₀) :
    Within sc r₀ (State.quayContainer n good bits s₀) := by
  unfold State.quayContainer
  repeat' first
    | with_reducible assumption
    | ((with_reducible refine sub_trans ?_ hs); exact rfl)
    | with_reducible exact trivial
    | with_reducible refine within_ite ?_ (fun _ => ?_)
    | with_reducible refine State.quayUnit_within _ _ ?_ ?_
    | with_reducible refine State.clmIngress_within _ _ ?_ ?_
    | with_reducible refine State.setClient_within _ _ ?_ ?_
    | with_reducible refine forN_within _ _ ?_ ?_
    | with_reducible refine within_foldl (fun _ _ _ => ?_) ?_
    | with_reducible refine within_foldl_snd (fun _ _ _ => ?_) ?_
    | with_reducible refine forN_within (fun _ _ _ => ?_) ?_
    | split
    | (dsimp only)

theorem State.quayGive_within {sc r₀ s₀} (seq : W32) (ok : List Bool) (bits : List Bool) (hs : sub [.regs, .coreA, .coreB, .hif, .clm] sc = true) (h₀ : Within sc r₀ s₀) :
    Within sc r₀ (State.quayGive seq ok bits s₀) := by
  unfold State.quayGive
  repeat' first
    | with_reducible assumption
    | ((with_reducible refine sub_trans ?_ hs); exact rfl)
    | with_reducible exact trivial
    | with_reducible refine within_ite ?_ (fun _ => ?_)
    | with_reducible refine State.quayContainer_within _ _ _ ?_ ?_
    | with_reducible refine forN_within _ _ ?_ ?_
    | with_reducible refine forN_within (fun _ _ _ => ?_) ?_
    | split
    | (dsimp only)

theorem State.quayTurn_within {sc r₀ s₀} (rx : Bool) (seq : W32) (hs : sub [.regs, .lanes] sc = true) (h₀ : Within sc r₀ s₀) :
    Within sc r₀ (State.quayTurn rx seq s₀) := by
  unfold State.quayTurn
  repeat' first
    | with_reducible assumption
    | ((with_reducible refine sub_trans ?_ hs); exact rfl)
    | with_reducible exact trivial
    | with_reducible refine within_ite ?_ (fun _ => ?_)
    | with_reducible refine State.quaySwitch_within _ ?_ ?_
    | split
    | (dsimp only)

theorem State.quayRow_within {sc r₀ s₀} (seq : W32) (hs : sub [.regs, .coreA, .coreB, .hif, .clm, .lanes] sc = true) (h₀ : Within sc r₀ s₀) :
    Within sc r₀ (State.quayRow seq s₀) := by
  unfold State.quayRow
  repeat' first
    | with_reducible assumption
    | ((with_reducible refine sub_trans ?_ hs); exact rfl)
    | with_reducible exact trivial
    | with_reducible refine within_ite ?_ (fun _ => ?_)
    | with_reducible refine State.quayTurn_within _ _ ?_ ?_
    | with_reducible refine State.quayGive_within _ _ _ ?_ ?_
    | with_reducible refine State.setQuayLane_within _ _ ?_ ?_
    | with_reducible refine State.quayDown_within _ ?_ ?_
    | with_reducible refine State.hostFail_within _ _ ?_ ?_
    | with_reducible refine State.logEvent_within _ _ _ _ ?_ ?_
    | with_reducible refine State.addCnt_within _ _ ?_ ?_
    | with_reducible refine State.setFlag_within _ _ _ ?_ ?_
    | with_reducible refine State.setReg_within _ _ ?_ ?_
    | with_reducible refine forN_within _ _ ?_ ?_
    | with_reducible refine forN_within (fun _ _ _ => ?_) ?_
    | split
    | with_reducible refine Within.set_lanes ?_ ?_
    | (dsimp only)

theorem execQuayRow_within {sc r₀ s₀}  (hs : sub [.regs, .coreA, .coreB, .hif, .clm, .lanes] sc = true) (h₀ : Within sc r₀ s₀) :
    OutWithin sc r₀ (execQuayRow s₀) := by
  unfold execQuayRow
  repeat' first
    | with_reducible assumption
    | ((with_reducible refine sub_trans ?_ hs); exact rfl)
    | with_reducible exact trivial
    | with_reducible refine within_ite ?_ (fun _ => ?_)
    | with_reducible refine outWithin_next ?_
    | with_reducible refine outWithin_ite ?_ ?_
    | with_reducible exact outWithin_fault _
    | with_reducible refine State.quayRow_within _ ?_ ?_
    | with_reducible refine State.setQuayLane_within _ _ ?_ ?_
    | with_reducible refine State.setFlag_within _ _ _ ?_ ?_
    | with_reducible refine forN_within _ _ ?_ ?_
    | with_reducible refine forN_within (fun _ _ _ => ?_) ?_
    | split
    | (dsimp only)

theorem State.quayFill_within {sc r₀ s₀} (slot : Option Nat) (hs : sub [.clm] sc = true) (h₀ : Within sc r₀ s₀) :
    Within sc r₀ (State.quayFill slot s₀).2 := by
  unfold State.quayFill
  repeat' first
    | with_reducible assumption
    | ((with_reducible refine sub_trans ?_ hs); exact rfl)
    | with_reducible exact trivial
    | with_reducible refine within_ite ?_ (fun _ => ?_)
    | with_reducible refine within_ite_snd ?_ (fun _ => ?_)
    | with_reducible refine State.setClient_within _ _ ?_ ?_
    | split
    | (dsimp only)
theorem State.quayFill_within' {sc r₀ s₀ t} {x0} (slot : Option Nat) (he : State.quayFill slot s₀ = (x0, t)) (hs : sub [.clm] sc = true) (h₀ : Within sc r₀ s₀) : Within sc r₀ t := by
  have h := State.quayFill_within slot hs h₀
  rw [he] at h
  exact h

theorem State.quayForm_within {sc r₀ s₀} (l : List (Option Nat)) (hs : sub [.clm] sc = true) (h₀ : Within sc r₀ s₀) :
    Within sc r₀ (State.quayForm l s₀).2 := by
  induction l generalizing s₀ with
  | nil => exact h₀
  | cons x l ih => exact ih (State.quayFill_within _ hs h₀)

theorem State.quaySend_within {sc r₀ s₀} (seq : W32) (bits : List Bool) (n : Nat) (hs : sub [.lanes] sc = true) (h₀ : Within sc r₀ s₀) :
    Within sc r₀ (State.quaySend seq bits n s₀) := by
  unfold State.quaySend
  repeat' first
    | with_reducible assumption
    | ((with_reducible refine sub_trans ?_ hs); exact rfl)
    | with_reducible exact trivial
    | with_reducible refine within_ite ?_ (fun _ => ?_)
    | with_reducible refine State.setQuayLane_within _ _ ?_ ?_
    | split
    | (dsimp only)

theorem State.quaySendRow_within {sc r₀ s₀}  (hs : sub [.regs, .clm, .lanes] sc = true) (h₀ : Within sc r₀ s₀) :
    Within sc r₀ (State.quaySendRow s₀) := by
  unfold State.quaySendRow
  repeat' first
    | with_reducible assumption
    | ((with_reducible refine sub_trans ?_ hs); exact rfl)
    | with_reducible exact trivial
    | with_reducible refine within_ite ?_ (fun _ => ?_)
    | with_reducible refine State.quaySend_within _ _ _ ?_ ?_
    | with_reducible refine State.quayForm_within' _  ‹_› ?_ ?_
    | with_reducible refine State.quayForm_within _ ?_ ?_
    | with_reducible refine State.quayTurn_within _ _ ?_ ?_
    | with_reducible refine forN_within _ _ ?_ ?_
    | with_reducible refine forN_within (fun _ _ _ => ?_) ?_
    | split
    | (dsimp only)

theorem State.quayEnable_within {sc r₀ s₀} (on : Bool) (hs : sub [.regs, .coreA, .coreB, .hif, .clm, .lanes] sc = true) (h₀ : Within sc r₀ s₀) :
    Within sc r₀ (State.quayEnable on s₀) := by
  unfold State.quayEnable
  repeat' first
    | with_reducible assumption
    | ((with_reducible refine sub_trans ?_ hs); exact rfl)
    | with_reducible exact trivial
    | with_reducible refine within_ite ?_ (fun _ => ?_)
    | with_reducible refine State.quaySendRow_within ?_ ?_
    | with_reducible refine State.setQuayLock_within _ _ ?_ ?_
    | with_reducible refine State.setQuayLane_within _ _ ?_ ?_
    | with_reducible refine State.quayDown_within _ ?_ ?_
    | with_reducible refine State.setReg_within _ _ ?_ ?_
    | with_reducible refine forN_within _ _ ?_ ?_
    | with_reducible refine forN_within (fun _ _ _ => ?_) ?_
    | split
    | with_reducible refine Within.set_lanes ?_ ?_
    | (dsimp only)

theorem State.quayTick_within {sc r₀ s₀} (hk : Nat) (hs : sub [.regs, .clm, .lanes] sc = true) (h₀ : Within sc r₀ s₀) :
    Within sc r₀ (State.quayTick hk s₀) := by
  unfold State.quayTick
  repeat' first
    | with_reducible assumption
    | ((with_reducible refine sub_trans ?_ hs); exact rfl)
    | with_reducible exact trivial
    | with_reducible refine within_ite ?_ (fun _ => ?_)
    | with_reducible refine State.quaySendRow_within ?_ ?_
    | with_reducible refine State.setReg_within _ _ ?_ ?_
    | with_reducible refine forN_within _ _ ?_ ?_
    | with_reducible refine forN_within (fun _ _ _ => ?_) ?_
    | split
    | with_reducible refine Within.set_lanes ?_ ?_
    | (dsimp only)

theorem State.quayIdle_within {sc r₀ s₀} (n : Nat) (hs : sub [.lanes] sc = true) (h₀ : Within sc r₀ s₀) :
    Within sc r₀ (State.quayIdle n s₀) := by
  unfold State.quayIdle
  repeat' first
    | with_reducible assumption
    | ((with_reducible refine sub_trans ?_ hs); exact rfl)
    | with_reducible exact trivial
    | with_reducible refine within_ite ?_ (fun _ => ?_)
    | with_reducible refine State.setQuayLane_within _ _ ?_ ?_
    | split
    | (dsimp only)

theorem execLaneFault_within {sc r₀ s₀} (quay : Bool) (lane : Fin 24) (hs : sub [.regs, .coreA, .coreB, .hif, .lanes] sc = true) (h₀ : Within sc r₀ s₀) :
    OutWithin sc r₀ (execLaneFault quay lane s₀) := by
  unfold execLaneFault
  repeat' first
    | with_reducible assumption
    | ((with_reducible refine sub_trans ?_ hs); exact rfl)
    | with_reducible exact trivial
    | with_reducible refine within_ite ?_ (fun _ => ?_)
    | with_reducible refine outWithin_next ?_
    | with_reducible refine outWithin_ite ?_ ?_
    | with_reducible exact outWithin_fault _
    | with_reducible refine State.quayIdle_within _ ?_ ?_
    | with_reducible refine State.quayUnlock_within _ ?_ ?_
    | with_reducible refine State.laneAdapt_within _ _ ?_ ?_
    | with_reducible refine State.hostFail_within _ _ ?_ ?_
    | with_reducible refine State.setLane_within _ _ _ ?_ ?_
    | with_reducible refine State.logEvent_within _ _ _ _ ?_ ?_
    | with_reducible refine State.setFlag_within _ _ _ ?_ ?_
    | split
    | (dsimp only)

end Sys2Proof.Laws
end

