-- ==== Sys2Proof/Laws/Tide.lean ====
section
/-! SUPPORT. The scope of each operation of Sys2Proof/Machine/Tide.lean. -/
namespace Sys2Proof.Laws
open Sys2Proof.Machine Sys2Proof.Safety

theorem State.carCommit_within {sc r₀ s₀} (c : Carrier) (hs : sub [.regs] sc = true) (h₀ : Within sc r₀ s₀) :
    Within sc r₀ (State.carCommit c s₀) := by
  unfold State.carCommit
  repeat' first
    | with_reducible assumption
    | ((with_reducible refine sub_trans ?_ hs); exact rfl)
    | with_reducible exact trivial
    | with_reducible refine within_ite ?_ (fun _ => ?_)
    | with_reducible refine State.applySet_within _ ?_ ?_
    | with_reducible refine State.setFld_within _ _ _ ?_ ?_
    | split
    | (dsimp only)

theorem State.depthCommit_within {sc r₀ s₀}  (hs : sub [.regs, .qc] sc = true) (h₀ : Within sc r₀ s₀) :
    Within sc r₀ (State.depthCommit s₀) := by
  unfold State.depthCommit
  repeat' first
    | with_reducible assumption
    | ((with_reducible refine sub_trans ?_ hs); exact rfl)
    | with_reducible exact trivial
    | with_reducible refine within_ite ?_ (fun _ => ?_)
    | with_reducible refine State.setFlag_within _ _ _ ?_ ?_
    | split
    | with_reducible refine Within.set_qc ?_ ?_
    | (dsimp only)

theorem State.depthApply_within {sc r₀ s₀}  (hs : sub [.regs, .qc] sc = true) (h₀ : Within sc r₀ s₀) :
    Within sc r₀ (State.depthApply s₀) := by
  unfold State.depthApply
  repeat' first
    | with_reducible assumption
    | ((with_reducible refine sub_trans ?_ hs); exact rfl)
    | with_reducible exact trivial
    | with_reducible refine within_ite ?_ (fun _ => ?_)
    | with_reducible refine State.setQueue_within _ _ ?_ ?_
    | with_reducible refine State.setFlag_within _ _ _ ?_ ?_
    | with_reducible refine State.setFld_within _ _ _ ?_ ?_
    | with_reducible refine within_foldl (fun _ _ _ => ?_) ?_
    | with_reducible refine within_foldl_snd (fun _ _ _ => ?_) ?_
    | split
    | with_reducible refine Within.set_qc ?_ ?_
    | (dsimp only)

theorem execQueueDepthApply_within {sc r₀ s₀}  (hs : sub [.regs, .mem, .coreA, .coreB, .qc, .hws, .hif, .pwr, .free, .log, .ecc] sc = true) (h₀ : Within sc r₀ s₀) :
    OutWithin sc r₀ (execQueueDepthApply s₀) := by
  unfold execQueueDepthApply
  repeat' first
    | with_reducible assumption
    | ((with_reducible refine sub_trans ?_ hs); exact rfl)
    | with_reducible exact trivial
    | with_reducible refine within_ite ?_ (fun _ => ?_)
    | with_reducible refine outWithin_next ?_
    | with_reducible refine outWithin_ite ?_ ?_
    | with_reducible exact outWithin_fault _
    | with_reducible refine State.depthApply_within ?_ ?_
    | with_reducible refine State.releaseWaiters_within ?_ ?_
    | split
    | (dsimp only)

theorem State.commitAct_within {sc r₀ s₀}  (hs : sub [.regs, .coreA, .coreB, .qc, .hif, .pwr, .clm, .brt, .lanes, .mon, .ref] sc = true) (h₀ : Within sc r₀ s₀) :
    Within sc r₀ (State.commitAct s₀) := by
  unfold State.commitAct
  repeat' first
    | with_reducible assumption
    | ((with_reducible refine sub_trans ?_ hs); exact rfl)
    | with_reducible exact trivial
    | with_reducible refine within_ite ?_ (fun _ => ?_)
    | with_reducible refine State.depthApply_within ?_ ?_
    | with_reducible refine State.depthCommit_within ?_ ?_
    | with_reducible refine State.carCommit_within _ ?_ ?_
    | with_reducible refine State.quayEnable_within _ ?_ ?_
    | with_reducible refine State.hostShow_within _ ?_ ?_
    | with_reducible refine State.logEnable_within ?_ ?_
    | with_reducible refine State.refreshModes_within ?_ ?_
    | with_reducible refine State.refCommit_within ?_ ?_
    | with_reducible refine State.tmrApply_within _ ?_ ?_
    | with_reducible refine State.monShow_within ?_ ?_
    | with_reducible refine State.avsTarget_within ?_ ?_
    | with_reducible refine State.clmCommit_within _ ?_ ?_
    | with_reducible refine State.iqCheck_within _ ?_ ?_
    | with_reducible refine State.txMirror_within _ ?_ ?_
    | with_reducible refine State.commitStaged_within ?_ ?_
    | with_reducible refine State.applySet_within _ ?_ ?_
    | with_reducible refine within_foldl (fun _ _ _ => ?_) ?_
    | with_reducible refine within_foldl_snd (fun _ _ _ => ?_) ?_
    | split
    | (dsimp only)

theorem State.sealEntries_within {sc r₀ s₀} (epoch : W16) (hs : sub [.qc] sc = true) (h₀ : Within sc r₀ s₀) :
    Within sc r₀ (State.sealEntries epoch s₀) := by
  unfold State.sealEntries
  repeat' first
    | with_reducible assumption
    | ((with_reducible refine sub_trans ?_ hs); exact rfl)
    | with_reducible exact trivial
    | with_reducible refine within_ite ?_ (fun _ => ?_)
    | with_reducible refine State.setQueue_within _ _ ?_ ?_
    | with_reducible refine within_foldl (fun _ _ _ => ?_) ?_
    | with_reducible refine within_foldl_snd (fun _ _ _ => ?_) ?_
    | split
    | (dsimp only)

theorem State.bankSwap_within {sc r₀ s₀}  (hs : sub [.regs, .coreA, .coreB, .claims, .berth] sc = true) (h₀ : Within sc r₀ s₀) :
    Within sc r₀ (State.bankSwap s₀) := by
  unfold State.bankSwap
  repeat' first
    | with_reducible assumption
    | ((with_reducible refine sub_trans ?_ hs); exact rfl)
    | with_reducible exact trivial
    | with_reducible refine within_ite ?_ (fun _ => ?_)
    | with_reducible refine State.releaseHolder_within _ ?_ ?_
    | split
    | with_reducible refine Within.set_berth ?_ ?_
    | (dsimp only)

theorem State.commitRetire_within {sc r₀ s₀} (k : CoreId) (hs : sub [.coreA, .coreB] sc = true) (h₀ : Within sc r₀ s₀) :
    Within sc r₀ (State.commitRetire k s₀) := by
  unfold State.commitRetire
  repeat' first
    | with_reducible assumption
    | ((with_reducible refine sub_trans ?_ hs); exact rfl)
    | with_reducible exact trivial
    | with_reducible refine within_ite ?_ (fun _ => ?_)
    | with_reducible refine State.retire_within _ ?_ ?_
    | with_reducible refine State.pmcCount_within _ _ _ ?_ ?_
    | split
    | (dsimp only)

theorem State.commitAll_within {sc r₀ s₀}  (hs : sub [.regs, .coreA, .coreB, .qc, .claims, .berth, .hif, .pwr, .clm, .brt, .lanes, .mon, .ref] sc = true) (h₀ : Within sc r₀ s₀) :
    Within sc r₀ (State.commitAll s₀) := by
  unfold State.commitAll
  repeat' first
    | with_reducible assumption
    | ((with_reducible refine sub_trans ?_ hs); exact rfl)
    | with_reducible exact trivial
    | with_reducible refine within_ite ?_ (fun _ => ?_)
    | with_reducible refine State.commitRetire_within _ ?_ ?_
    | with_reducible refine State.bankSwap_within ?_ ?_
    | with_reducible refine State.sealEntries_within _ ?_ ?_
    | with_reducible refine State.commitAct_within ?_ ?_
    | split
    | (dsimp only)

theorem State.missHeartbeat_within {sc r₀ s₀}  (hs : sub [.regs, .coreA, .coreB, .pilot] sc = true) (h₀ : Within sc r₀ s₀) :
    Within sc r₀ (State.missHeartbeat s₀) := by
  unfold State.missHeartbeat
  repeat' first
    | with_reducible assumption
    | ((with_reducible refine sub_trans ?_ hs); exact rfl)
    | with_reducible exact trivial
    | with_reducible refine within_ite ?_ (fun _ => ?_)
    | with_reducible refine State.addCnt_within _ _ ?_ ?_
    | split
    | with_reducible refine Within.set_pilot ?_ ?_
    | (dsimp only)

theorem State.copyEnd_within {sc r₀ s₀}  (hs : sub [.regs, .coreA, .coreB, .pilot, .hws, .hif] sc = true) (h₀ : Within sc r₀ s₀) :
    Within sc r₀ (State.copyEnd s₀) := by
  unfold State.copyEnd
  repeat' first
    | with_reducible assumption
    | ((with_reducible refine sub_trans ?_ hs); exact rfl)
    | with_reducible exact trivial
    | with_reducible refine within_ite ?_ (fun _ => ?_)
    | with_reducible refine State.copyVoid_within ?_ ?_
    | with_reducible refine State.enterResync_within _ _ ?_ ?_
    | split
    | (dsimp only)

theorem State.hwsOverrun_within {sc r₀ s₀} (bytes : Nat) (ext : Nat) (hs : sub [.regs, .coreA, .coreB, .time, .hif, .log] sc = true) (h₀ : Within sc r₀ s₀) :
    Within sc r₀ (State.hwsOverrun bytes ext s₀) := by
  unfold State.hwsOverrun
  repeat' first
    | with_reducible assumption
    | ((with_reducible refine sub_trans ?_ hs); exact rfl)
    | with_reducible exact trivial
    | with_reducible refine within_ite ?_ (fun _ => ?_)
    | with_reducible refine State.noteTotal_within _ _ ?_ ?_
    | with_reducible refine State.logEvent_within _ _ _ _ ?_ ?_
    | with_reducible refine State.addCnt_within _ _ ?_ ?_
    | with_reducible refine State.setFlag_within _ _ _ ?_ ?_
    | split
    | with_reducible refine Within.set_time ?_ ?_
    | (dsimp only)

theorem State.copyStart_within {sc r₀ s₀} (k : CoreId) (j : CoreId) (hs : sub [.regs, .coreA, .coreB, .time, .hws, .hif, .log] sc = true) (h₀ : Within sc r₀ s₀) :
    Within sc r₀ (State.copyStart k j s₀) := by
  unfold State.copyStart
  repeat' first
    | with_reducible assumption
    | ((with_reducible refine sub_trans ?_ hs); exact rfl)
    | with_reducible exact trivial
    | with_reducible refine within_ite ?_ (fun _ => ?_)
    | with_reducible refine State.hwsOverrun_within _ _ ?_ ?_
    | split
    | with_reducible refine Within.set_hws ?_ ?_
    | (dsimp only)

theorem State.missedTide_within {sc r₀ s₀}  (hs : sub [.regs, .coreA, .coreB, .pilot, .hws, .hif] sc = true) (h₀ : Within sc r₀ s₀) :
    Within sc r₀ (State.missedTide s₀) := by
  unfold State.missedTide
  repeat' first
    | with_reducible assumption
    | ((with_reducible refine sub_trans ?_ hs); exact rfl)
    | with_reducible exact trivial
    | with_reducible refine within_ite ?_ (fun _ => ?_)
    | with_reducible refine State.enterResync_within _ _ ?_ ?_
    | split
    | (dsimp only)

theorem State.hwsBoundary_within {sc r₀ s₀} (acted : Bool) (hs : sub [.regs, .coreA, .coreB, .time, .pilot, .hws, .hif, .log] sc = true) (h₀ : Within sc r₀ s₀) :
    Within sc r₀ (State.hwsBoundary acted s₀) := by
  unfold State.hwsBoundary
  repeat' first
    | with_reducible assumption
    | ((with_reducible refine sub_trans ?_ hs); exact rfl)
    | with_reducible exact trivial
    | with_reducible refine within_ite ?_ (fun _ => ?_)
    | with_reducible refine State.missedTide_within ?_ ?_
    | with_reducible refine State.copyStart_within _ _ ?_ ?_
    | with_reducible refine State.setFld_within _ _ _ ?_ ?_
    | split
    | with_reducible refine Within.set_pilot ?_ ?_
    | (dsimp only)

theorem State.tideStep_within {sc r₀ s₀}  (hs : sub [.regs, .coreA, .coreB, .time] sc = true) (h₀ : Within sc r₀ s₀) :
    Within sc r₀ (State.tideStep s₀) := by
  unfold State.tideStep
  repeat' first
    | with_reducible assumption
    | ((with_reducible refine sub_trans ?_ hs); exact rfl)
    | with_reducible exact trivial
    | with_reducible refine within_ite ?_ (fun _ => ?_)
    | with_reducible refine State.advancePhase_within _ ?_ ?_
    | with_reducible refine State.setFld_within _ _ _ ?_ ?_
    | split
    | with_reducible refine Within.set_time ?_ ?_
    | (dsimp only)

theorem State.tideBeat_within {sc r₀ s₀} (beat : Bool) (hs : sub [.regs, .coreA, .coreB, .pilot, .sec] sc = true) (h₀ : Within sc r₀ s₀) :
    Within sc r₀ (State.tideBeat beat s₀) := by
  unfold State.tideBeat
  repeat' first
    | with_reducible assumption
    | ((with_reducible refine sub_trans ?_ hs); exact rfl)
    | with_reducible exact trivial
    | with_reducible refine within_ite ?_ (fun _ => ?_)
    | with_reducible refine State.missHeartbeat_within ?_ ?_
    | split
    | with_reducible refine Within.set_pilot ?_ ?_
    | with_reducible refine Within.set_sec ?_ ?_
    | (dsimp only)

theorem State.tideRoles_within {sc r₀ s₀}  (hs : sub [.pilot, .hws] sc = true) (h₀ : Within sc r₀ s₀) :
    Within sc r₀ (State.tideRoles s₀) := by
  unfold State.tideRoles
  repeat' first
    | with_reducible assumption
    | ((with_reducible refine sub_trans ?_ hs); exact rfl)
    | with_reducible exact trivial
    | with_reducible refine within_ite ?_ (fun _ => ?_)
    | split
    | with_reducible refine Within.set_hws ?_ ?_
    | with_reducible refine Within.set_pilot ?_ ?_
    | (dsimp only)

theorem State.tapCopies_within {sc r₀ s₀}  (hs : sub [.eqA, .eqB] sc = true) (h₀ : Within sc r₀ s₀) :
    Within sc r₀ (State.tapCopies s₀) := by
  unfold State.tapCopies
  repeat' first
    | with_reducible assumption
    | ((with_reducible refine sub_trans ?_ hs); exact rfl)
    | with_reducible exact trivial
    | with_reducible refine within_ite ?_ (fun _ => ?_)
    | with_reducible refine State.eqCopyStart_within _ ?_ ?_
    | split
    | (dsimp only)

theorem State.tideAges_within {sc r₀ s₀}  (hs : sub [.regs] sc = true) (h₀ : Within sc r₀ s₀) :
    Within sc r₀ (State.tideAges s₀) := by
  unfold State.tideAges
  repeat' first
    | with_reducible assumption
    | ((with_reducible refine sub_trans ?_ hs); exact rfl)
    | with_reducible exact trivial
    | with_reducible refine within_ite ?_ (fun _ => ?_)
    | with_reducible refine State.eqAge_within _ ?_ ?_
    | split
    | (dsimp only)

theorem execTideBoundary_within {sc r₀ s₀}  (hs : sub [.regs, .mem, .coreA, .coreB, .qc, .claims, .berth, .time, .pilot, .hws, .hif, .pwr, .free, .eqA, .eqB, .clm, .brt, .lanes, .mon, .log, .obs, .ecc, .ref, .sec] sc = true) (h₀ : Within sc r₀ s₀) :
    OutWithin sc r₀ (execTideBoundary s₀) := by
  unfold execTideBoundary
  repeat' first
    | with_reducible assumption
    | ((with_reducible refine sub_trans ?_ hs); exact rfl)
    | with_reducible exact trivial
    | with_reducible refine within_ite ?_ (fun _ => ?_)
    | with_reducible refine outWithin_next ?_
    | with_reducible refine outWithin_ite ?_ ?_
    | with_reducible exact outWithin_fault _
    | with_reducible refine State.tideAges_within ?_ ?_
    | with_reducible refine State.tapCopies_within ?_ ?_
    | with_reducible refine State.tideRoles_within ?_ ?_
    | with_reducible refine State.tideBeat_within _ ?_ ?_
    | with_reducible refine State.tideStep_within ?_ ?_
    | with_reducible refine State.hwsBoundary_within _ ?_ ?_
    | with_reducible refine State.copyEnd_within ?_ ?_
    | with_reducible refine State.commitAll_within ?_ ?_
    | with_reducible refine State.endDual_within ?_ ?_
    | with_reducible refine State.logCapture_within ?_ ?_
    | with_reducible refine State.capSnap_within _ ?_ ?_
    | with_reducible refine State.releaseWaiters_within ?_ ?_
    | split
    | with_reducible refine Within.set_qc ?_ ?_
    | (dsimp only)

end Sys2Proof.Laws
end

