-- ==== Sys2Proof/Laws/Harbour.lean ====
section
/-! SUPPORT. The scope of each operation of Sys2Proof/Machine/Harbour.lean. -/
namespace Sys2Proof.Laws
open Sys2Proof.Machine Sys2Proof.Safety

theorem State.serve_within {sc r₀ s₀} (slot : Fin 64) (code : Nat) (f : CoreId → List Byte → State → Answer × State)
    (hf : ∀ k l s, Within sc r₀ s → Within sc r₀ (f k l s).2) (hs : sub [.regs, .mem, .coreA, .coreB, .hif, .ecc] sc = true) (h₀ : Within sc r₀ s₀) :
    Within sc r₀ (State.serve slot code f s₀) := by
  unfold State.serve
  dsimp only
  split
  · rename_i k h1 h2
    have h := hf k (s₀.bytes (mbxReq slot.val + 4) 56) _ (State.mbxTake_within slot.val (sub_trans rfl hs) h₀)
    exact State.mbxDone_within _ _ (sub_trans rfl hs) (State.setBytes_within _ _ (sub_trans rfl hs) h)
  · exact h₀

theorem execPing_within {sc r₀ s₀} (slot : Fin 64) (hs : sub [.regs, .mem, .coreA, .coreB, .hif, .free, .ecc] sc = true) (h₀ : Within sc r₀ s₀) :
    OutWithin sc r₀ (execPing slot s₀) := by
  unfold execPing
  repeat' first
    | with_reducible assumption
    | ((with_reducible refine sub_trans ?_ hs); exact rfl)
    | with_reducible exact trivial
    | with_reducible refine within_ite ?_ (fun _ => ?_)
    | with_reducible refine within_ite_snd ?_ (fun _ => ?_)
    | with_reducible refine outWithin_next ?_
    | with_reducible refine outWithin_ite ?_ ?_
    | with_reducible exact outWithin_fault _
    | with_reducible refine State.draw_within'  ‹_› ?_ ?_
    | with_reducible refine State.draw_within ?_ ?_
    | with_reducible refine State.serve_within _ _ _ (fun _ _ _ _ => ?_) ?_ ?_
    | split
    | (dsimp only)

theorem execCfgWrite_within {sc r₀ s₀} (slot : Fin 64) (allowed : Bool) (hs : sub [.regs, .mem, .flash, .coreA, .coreB, .qc, .claims, .berth, .hold, .pilot, .boot, .hws, .hif, .pwr, .free, .cph, .txA, .txB, .rxA, .rxB, .eqA, .eqB, .crA, .crB, .fecA, .fecB, .hailA, .hailB, .frmA, .frmB, .osp, .clm, .brt, .lanes, .mon, .anl, .log, .obs, .ecc, .sec] sc = true) (h₀ : Within sc r₀ s₀) :
    OutWithin sc r₀ (execCfgWrite slot allowed s₀) := by
  refine outWithin_next (State.serve_within _ _ _ (fun k l s h => ?_) (sub_trans rfl hs) h₀)
  dsimp only
  refine within_ite_snd (within_ite_snd (within_ite_snd (within_ite_snd ?_ (fun _ => h)) (fun _ => h)) (fun _ => h)) (fun _ => h)
  have hp := State.programWrite_within k (BitVec.ofNat 64 (argNat l 0 4)) ((s.view (argNat l 0 4) &&& ~~~(BitVec.ofNat 32 (argNat l 8 4))
    &&& ~~~(w1cMask (fieldsAt (argNat l 0 4)))) ||| (BitVec.ofNat 32 (argNat l 4 4) &&& BitVec.ofNat 32 (argNat l 8 4))) (sub_trans rfl hs) h
  split <;> rename_i hx
  · exact resWithin_of hp hx
  · exact h

theorem execEngineCmd_within {sc r₀ s₀} (slot : Fin 64) (hs : sub [.regs, .mem, .coreA, .coreB, .qc, .hws, .hif, .pwr, .free, .log, .ecc] sc = true) (h₀ : Within sc r₀ s₀) :
    OutWithin sc r₀ (execEngineCmd slot s₀) := by
  unfold execEngineCmd
  repeat' first
    | with_reducible assumption
    | ((with_reducible refine sub_trans ?_ hs); exact rfl)
    | with_reducible exact trivial
    | with_reducible refine within_ite ?_ (fun _ => ?_)
    | with_reducible refine within_ite_snd ?_ (fun _ => ?_)
    | with_reducible refine outWithin_next ?_
    | with_reducible refine outWithin_ite ?_ ?_
    | with_reducible exact outWithin_fault _
    | with_reducible refine State.accept_within' _ _ _  ‹_› ?_ ?_
    | with_reducible refine State.accept_within _ _ _ ?_ ?_
    | with_reducible refine State.serve_within _ _ _ (fun _ _ _ _ => ?_) ?_ ?_
    | split
    | (dsimp only)

theorem execCmdStatus_within {sc r₀ s₀} (slot : Fin 64) (hs : sub [.regs, .mem, .coreA, .coreB, .hif, .ecc] sc = true) (h₀ : Within sc r₀ s₀) :
    OutWithin sc r₀ (execCmdStatus slot s₀) := by
  unfold execCmdStatus
  repeat' first
    | with_reducible assumption
    | ((with_reducible refine sub_trans ?_ hs); exact rfl)
    | with_reducible exact trivial
    | with_reducible refine within_ite ?_ (fun _ => ?_)
    | with_reducible refine within_ite_snd ?_ (fun _ => ?_)
    | with_reducible refine outWithin_next ?_
    | with_reducible refine outWithin_ite ?_ ?_
    | with_reducible exact outWithin_fault _
    | with_reducible refine State.serve_within _ _ _ (fun _ _ _ _ => ?_) ?_ ?_
    | split
    | (dsimp only)

theorem execLoadBerth_within {sc r₀ s₀} (slot : Fin 64) (hs : sub [.regs, .mem, .coreA, .coreB, .berth, .boot, .hif, .ecc, .sec] sc = true) (h₀ : Within sc r₀ s₀) :
    OutWithin sc r₀ (execLoadBerth slot s₀) := by
  unfold execLoadBerth
  repeat' first
    | with_reducible assumption
    | ((with_reducible refine sub_trans ?_ hs); exact rfl)
    | with_reducible exact trivial
    | with_reducible refine within_ite ?_ (fun _ => ?_)
    | with_reducible refine within_ite_snd ?_ (fun _ => ?_)
    | with_reducible refine outWithin_next ?_
    | with_reducible refine outWithin_ite ?_ ?_
    | with_reducible exact outWithin_fault _
    | with_reducible refine State.loadBerth_within' _  ‹_› ?_ ?_
    | with_reducible refine State.loadBerth_within _ ?_ ?_
    | with_reducible refine State.serve_within _ _ _ (fun _ _ _ _ => ?_) ?_ ?_
    | split
    | with_reducible refine Within.set_berth ?_ ?_
    | (dsimp only)

theorem execFlashWrite_within {sc r₀ s₀} (slot : Fin 64) (hs : sub [.regs, .mem, .flash, .coreA, .coreB, .hif, .ecc] sc = true) (h₀ : Within sc r₀ s₀) :
    OutWithin sc r₀ (execFlashWrite slot s₀) := by
  unfold execFlashWrite
  repeat' first
    | with_reducible assumption
    | ((with_reducible refine sub_trans ?_ hs); exact rfl)
    | with_reducible exact trivial
    | with_reducible refine within_ite ?_ (fun _ => ?_)
    | with_reducible refine within_ite_snd ?_ (fun _ => ?_)
    | with_reducible refine outWithin_next ?_
    | with_reducible refine outWithin_ite ?_ ?_
    | with_reducible exact outWithin_fault _
    | with_reducible refine State.flashProgram_within _ _ ?_ ?_
    | with_reducible refine State.serve_within _ _ _ (fun _ _ _ _ => ?_) ?_ ?_
    | split
    | (dsimp only)

theorem execFlashErase_within {sc r₀ s₀} (slot : Fin 64) (hs : sub [.regs, .mem, .flash, .coreA, .coreB, .hif, .ecc] sc = true) (h₀ : Within sc r₀ s₀) :
    OutWithin sc r₀ (execFlashErase slot s₀) := by
  unfold execFlashErase
  repeat' first
    | with_reducible assumption
    | ((with_reducible refine sub_trans ?_ hs); exact rfl)
    | with_reducible exact trivial
    | with_reducible refine within_ite ?_ (fun _ => ?_)
    | with_reducible refine within_ite_snd ?_ (fun _ => ?_)
    | with_reducible refine outWithin_next ?_
    | with_reducible refine outWithin_ite ?_ ?_
    | with_reducible exact outWithin_fault _
    | with_reducible refine State.flashErase_within _ _ ?_ ?_
    | with_reducible refine State.serve_within _ _ _ (fun _ _ _ _ => ?_) ?_ ?_
    | split
    | (dsimp only)

theorem execSetBootSlot_within {sc r₀ s₀} (slot : Fin 64) (hs : sub [.regs, .mem, .flash, .coreA, .coreB, .hif, .ecc] sc = true) (h₀ : Within sc r₀ s₀) :
    OutWithin sc r₀ (execSetBootSlot slot s₀) := by
  unfold execSetBootSlot
  repeat' first
    | with_reducible assumption
    | ((with_reducible refine sub_trans ?_ hs); exact rfl)
    | with_reducible exact trivial
    | with_reducible refine within_ite ?_ (fun _ => ?_)
    | with_reducible refine within_ite_snd ?_ (fun _ => ?_)
    | with_reducible refine outWithin_next ?_
    | with_reducible refine outWithin_ite ?_ ?_
    | with_reducible exact outWithin_fault _
    | with_reducible refine State.setBootSlot_within' _  ‹_› ?_ ?_
    | with_reducible refine State.serve_within _ _ _ (fun _ _ _ _ => ?_) ?_ ?_
    | split
    | (dsimp only)

theorem execSnapHold_within {sc r₀ s₀} (slot : Fin 64) (hs : sub [.regs, .mem, .coreA, .coreB, .hif, .free, .ecc] sc = true) (h₀ : Within sc r₀ s₀) :
    OutWithin sc r₀ (execSnapHold slot s₀) := by
  unfold execSnapHold
  repeat' first
    | with_reducible assumption
    | ((with_reducible refine sub_trans ?_ hs); exact rfl)
    | with_reducible exact trivial
    | with_reducible refine within_ite ?_ (fun _ => ?_)
    | with_reducible refine within_ite_snd ?_ (fun _ => ?_)
    | with_reducible refine outWithin_next ?_
    | with_reducible refine outWithin_ite ?_ ?_
    | with_reducible exact outWithin_fault _
    | with_reducible refine State.snapHold_within ?_ ?_
    | with_reducible refine State.drawBytes_within' _  ‹_› ?_ ?_
    | with_reducible refine State.drawBytes_within _ ?_ ?_
    | with_reducible refine State.serve_within _ _ _ (fun _ _ _ _ => ?_) ?_ ?_
    | split
    | (dsimp only)

theorem execSnapRelease_within {sc r₀ s₀} (slot : Fin 64) (hs : sub [.regs, .mem, .coreA, .coreB, .hif, .ecc] sc = true) (h₀ : Within sc r₀ s₀) :
    OutWithin sc r₀ (execSnapRelease slot s₀) := by
  unfold execSnapRelease
  repeat' first
    | with_reducible assumption
    | ((with_reducible refine sub_trans ?_ hs); exact rfl)
    | with_reducible exact trivial
    | with_reducible refine within_ite ?_ (fun _ => ?_)
    | with_reducible refine within_ite_snd ?_ (fun _ => ?_)
    | with_reducible refine outWithin_next ?_
    | with_reducible refine outWithin_ite ?_ ?_
    | with_reducible exact outWithin_fault _
    | with_reducible refine State.snapRelease_within ?_ ?_
    | with_reducible refine State.serve_within _ _ _ (fun _ _ _ _ => ?_) ?_ ?_
    | split
    | (dsimp only)

theorem execLogFlush_within {sc r₀ s₀} (slot : Fin 64) (hs : sub [.regs, .mem, .coreA, .coreB, .qc, .hws, .hif, .pwr, .free, .log, .ecc] sc = true) (h₀ : Within sc r₀ s₀) :
    OutWithin sc r₀ (execLogFlush slot s₀) := by
  unfold execLogFlush
  repeat' first
    | with_reducible assumption
    | ((with_reducible refine sub_trans ?_ hs); exact rfl)
    | with_reducible exact trivial
    | with_reducible refine within_ite ?_ (fun _ => ?_)
    | with_reducible refine outWithin_next ?_
    | with_reducible refine outWithin_ite ?_ ?_
    | with_reducible exact outWithin_fault _
    | with_reducible refine State.mbxDone_within _ _ ?_ ?_
    | with_reducible refine State.mbxTake_within _ ?_ ?_
    | with_reducible refine State.accept_within' _ _ _  ‹_› ?_ ?_
    | with_reducible refine State.accept_within _ _ _ ?_ ?_
    | split
    | (dsimp only)

theorem execLogRead_within {sc r₀ s₀} (slot : Fin 64) (buffer : W32) (hs : sub [.regs, .mem, .coreA, .coreB, .hif, .ecc] sc = true) (h₀ : Within sc r₀ s₀) :
    OutWithin sc r₀ (execLogRead slot buffer s₀) := by
  unfold execLogRead
  repeat' first
    | with_reducible assumption
    | ((with_reducible refine sub_trans ?_ hs); exact rfl)
    | with_reducible exact trivial
    | with_reducible refine within_ite ?_ (fun _ => ?_)
    | with_reducible refine within_ite_snd ?_ (fun _ => ?_)
    | with_reducible refine outWithin_next ?_
    | with_reducible refine outWithin_ite ?_ ?_
    | with_reducible exact outWithin_fault _
    | with_reducible refine State.lgRead_within' _ _ _ _  ‹_› ?_ ?_
    | with_reducible refine State.lgRead_within _ _ _ _ ?_ ?_
    | with_reducible refine State.serve_within _ _ _ (fun _ _ _ _ => ?_) ?_ ?_
    | split
    | (dsimp only)

theorem execResetDevice_within {sc r₀ s₀} (slot : Fin 64) (hs : sub [.regs, .mem, .coreA, .coreB, .hif, .ecc] sc = true) (h₀ : Within sc r₀ s₀) :
    OutWithin sc r₀ (execResetDevice slot s₀) := by
  unfold execResetDevice
  repeat' first
    | with_reducible assumption
    | ((with_reducible refine sub_trans ?_ hs); exact rfl)
    | with_reducible exact trivial
    | with_reducible refine within_ite ?_ (fun _ => ?_)
    | with_reducible refine within_ite_snd ?_ (fun _ => ?_)
    | with_reducible refine outWithin_next ?_
    | with_reducible refine outWithin_ite ?_ ?_
    | with_reducible exact outWithin_fault _
    | with_reducible refine State.serve_within _ _ _ (fun _ _ _ _ => ?_) ?_ ?_
    | split
    | (dsimp only)

theorem State.commandEnd_within' {sc r₀ s₀ t x0} (e : QEntry) (failed : Bool) (r0 r1 : Nat) (he : State.commandEnd e failed r0 r1 s₀ = some (x0, t))
    (hs : sub [.regs, .mem, .coreA, .coreB, .hif, .free, .log, .ecc] sc = true) (h₀ : Within sc r₀ s₀) : Within sc r₀ t := by
  have ss : ∀ {l : List Piece}, sub l [.regs, .mem, .coreA, .coreB, .hif, .free, .log, .ecc] = true → sub l sc = true := fun h => sub_trans h hs
  unfold State.commandEnd at he
  dsimp only at he
  split at he
  · rename_i p hp
    injection he with he
    rw [he] at hp
    exact within_opt_ite_pair hp (fun he => within_opt_pair he (State.eqRetestDone_within _ _ _ (ss rfl) h₀)) (fun he =>
      within_opt_ite_pair he (fun he => within_opt_pair he (State.fecRetestDone_within _ _ _ (ss rfl) h₀)) (fun he => nomatch he))
  · rename_i p hp
    injection he with he
    rw [he] at hp
    exact within_opt_ite_pair hp (fun he => within_opt_pair he (State.eqRetestDone_within _ _ _ (ss rfl) h₀)) (fun he =>
      within_opt_ite_pair he (fun he => within_opt_pair he (State.fecRetestDone_within _ _ _ (ss rfl) h₀)) (fun he => nomatch he))
  · refine within_opt_ite_pair he (fun he => within_opt_pair he (State.cpRetestDone_within _ _ (ss rfl) h₀)) (fun he => ?_)
    refine within_opt_ite_pair he (fun he => within_opt_pair he (State.scrubDone_within _ (ss rfl) h₀)) (fun he => ?_)
    refine within_opt_ite_pair he (fun he => within_opt_pair he (State.scanDone_within _ (ss rfl) h₀)) (fun he => ?_)
    refine within_opt_ite_pair he (fun he => within_opt_pair he h₀) (fun he => ?_)
    refine within_opt_ite_pair he (fun he => within_opt_pair he h₀) (fun he => ?_)
    refine within_opt_ite_pair he (fun he => within_opt_pair he h₀) (fun he => ?_)
    exact within_opt_ite_pair he (fun he => within_opt_pair he h₀) (fun he => nomatch he)

theorem execCommandCompletion_within {sc r₀ s₀} (ticket : W32) (failed : Bool) (r0 : W64) (r1 : W64) (hs : sub [.regs, .mem, .coreA, .coreB, .qc, .hws, .hif, .pwr, .free, .log, .ecc] sc = true) (h₀ : Within sc r₀ s₀) :
    OutWithin sc r₀ (execCommandCompletion ticket failed r0 r1 s₀) := by
  unfold execCommandCompletion
  repeat' first
    | with_reducible assumption
    | ((with_reducible refine sub_trans ?_ hs); exact rfl)
    | with_reducible exact trivial
    | with_reducible refine within_ite ?_ (fun _ => ?_)
    | with_reducible refine outWithin_next ?_
    | with_reducible refine outWithin_ite ?_ ?_
    | with_reducible exact outWithin_fault _
    | with_reducible refine State.commandEnd_within' _ _ _ _  ‹_› ?_ ?_
    | with_reducible refine State.complete_within _ _ _ _ ?_ ?_
    | split
    | (dsimp only)

end Sys2Proof.Laws
end

