-- ==== Sys2Proof/Laws/Idle.lean ====
section
/-! SUPPORT. The scope of each operation of Sys2Proof/Machine/Idle.lean. -/
namespace Sys2Proof.Laws
open Sys2Proof.Machine Sys2Proof.Safety

theorem State.devtimeTick_within {sc r₀ s₀}  (hs : sub [.time] sc = true) (h₀ : Within sc r₀ s₀) :
    Within sc r₀ (State.devtimeTick s₀) := by
  unfold State.devtimeTick
  repeat' first
    | with_reducible assumption
    | ((with_reducible refine sub_trans ?_ hs); exact rfl)
    | with_reducible exact trivial
    | with_reducible refine within_ite ?_ (fun _ => ?_)
    | split
    | with_reducible refine Within.set_time ?_ ?_
    | (dsimp only)

theorem State.elapsedTick_within {sc r₀ s₀} (d : Nat) (passed : Nat) (hs : sub [.regs, .coreA, .coreB, .pwr] sc = true) (h₀ : Within sc r₀ s₀) :
    Within sc r₀ (State.elapsedTick d passed s₀) := by
  unfold State.elapsedTick
  repeat' first
    | with_reducible assumption
    | ((with_reducible refine sub_trans ?_ hs); exact rfl)
    | with_reducible exact trivial
    | with_reducible refine within_ite ?_ (fun _ => ?_)
    | with_reducible refine State.modDom_within _ _ ?_ ?_
    | with_reducible refine State.addCnt_within _ _ ?_ ?_
    | split
    | (dsimp only)

theorem State.crystalTick_within {sc r₀ s₀}  (hs : sub [.regs, .coreA, .coreB, .time, .pwr] sc = true) (h₀ : Within sc r₀ s₀) :
    Within sc r₀ (State.crystalTick s₀) := by
  unfold State.crystalTick
  repeat' first
    | with_reducible assumption
    | ((with_reducible refine sub_trans ?_ hs); exact rfl)
    | with_reducible exact trivial
    | with_reducible refine within_ite ?_ (fun _ => ?_)
    | with_reducible refine State.elapsedTick_within _ _ ?_ ?_
    | with_reducible refine State.devtimeTick_within ?_ ?_
    | with_reducible refine within_foldl (fun _ _ _ => ?_) ?_
    | with_reducible refine within_foldl_snd (fun _ _ _ => ?_) ?_
    | split
    | (dsimp only)

theorem State.entryTick_within {sc r₀ s₀} (hk : Nat) (d : Nat) (hs : sub [.pwr] sc = true) (h₀ : Within sc r₀ s₀) :
    Within sc r₀ (State.entryTick hk d s₀) := by
  unfold State.entryTick
  repeat' first
    | with_reducible assumption
    | ((with_reducible refine sub_trans ?_ hs); exact rfl)
    | with_reducible exact trivial
    | with_reducible refine within_ite ?_ (fun _ => ?_)
    | with_reducible refine State.modDom_within _ _ ?_ ?_
    | split
    | (dsimp only)

theorem State.rootTick_within {sc r₀ s₀}  (hs : sub [.regs, .coreA, .coreB, .time, .pwr, .clm, .lanes, .ref] sc = true) (h₀ : Within sc r₀ s₀) :
    Within sc r₀ (State.rootTick s₀) := by
  unfold State.rootTick
  repeat' first
    | with_reducible assumption
    | ((with_reducible refine sub_trans ?_ hs); exact rfl)
    | with_reducible exact trivial
    | with_reducible refine within_ite ?_ (fun _ => ?_)
    | with_reducible refine State.entryTick_within _ _ ?_ ?_
    | with_reducible refine State.quayTick_within _ ?_ ?_
    | with_reducible refine State.advancePhase_within _ ?_ ?_
    | with_reducible refine State.tmrTick_within _ _ ?_ ?_
    | with_reducible refine forN_within _ _ ?_ ?_
    | with_reducible refine within_foldl (fun _ _ _ => ?_) ?_
    | with_reducible refine within_foldl_snd (fun _ _ _ => ?_) ?_
    | with_reducible refine forN_within (fun _ _ _ => ?_) ?_
    | split
    | with_reducible refine Within.set_ref ?_ ?_
    | with_reducible refine Within.set_time ?_ ?_
    | (dsimp only)

theorem State.lineTick_within {sc r₀ s₀}  (hs : sub [.regs, .coreA, .coreB, .free, .crA, .crB] sc = true) (h₀ : Within sc r₀ s₀) :
    Within sc r₀ (State.lineTick s₀) := by
  unfold State.lineTick
  repeat' first
    | with_reducible assumption
    | ((with_reducible refine sub_trans ?_ hs); exact rfl)
    | with_reducible exact trivial
    | with_reducible refine within_ite ?_ (fun _ => ?_)
    | with_reducible refine State.crErasedTick_within _ ?_ ?_
    | with_reducible refine State.txIdleClips_within _ ?_ ?_
    | split
    | (dsimp only)

theorem State.idle_within {sc r₀ s₀}  (hs : sub [.regs, .mem, .coreA, .coreB, .qc, .time, .hws, .hif, .pwr, .free, .crA, .crB, .clm, .lanes, .log, .ecc, .ref] sc = true) (h₀ : Within sc r₀ s₀) :
    Within sc r₀ (State.idle s₀) := by
  unfold State.idle
  repeat' first
    | with_reducible assumption
    | ((with_reducible refine sub_trans ?_ hs); exact rfl)
    | with_reducible exact trivial
    | with_reducible refine within_ite ?_ (fun _ => ?_)
    | with_reducible refine State.lineTick_within ?_ ?_
    | with_reducible refine State.rootTick_within ?_ ?_
    | with_reducible refine State.crystalTick_within ?_ ?_
    | with_reducible refine State.releaseWaiters_within ?_ ?_
    | split
    | (dsimp only)

end Sys2Proof.Laws
end

