-- ==== Sys2Proof/Laws/Cores.lean ====
section
/-! SUPPORT. What one instruction of a core does: the fetch, the retirement and its counts, a fault, said once for every instruction row. -/
namespace Sys2Proof.Laws
open Sys2Proof.Machine Sys2Proof.Safety

theorem coreIs_refl (c : PlelisCore) : CoreIs c c := rfl

theorem coreIs_trans {a b c : PlelisCore} (h : CoreIs a b) (g : CoreIs b c) : CoreIs a c := by
  cases a; cases b; cases c
  simp_all [CoreIs]

/-- What a core that holds what another holds has in common with it: every register but the counters. -/
theorem coreIs_fields {a b : PlelisCore} (h : CoreIs a b) : a.h = b.h ∧ a.pc = b.pc ∧ a.fault = b.fault ∧ a.faddr = b.faddr ∧ a.epc = b.epc ∧ a.pstate = b.pstate
    ∧ a.tvec = b.tvec ∧ a.scratch = b.scratch ∧ a.eventH = b.eventH ∧ a.eventB = b.eventB ∧ a.pmcSel = b.pmcSel ∧ a.wait = b.wait := by
  unfold CoreIs at h
  rw [← h]
  exact ⟨rfl, rfl, rfl, rfl, rfl, rfl, rfl, rfl, rfl, rfl, rfl, rfl⟩

/-! ### The cores of a state -/

@[simp] theorem core_setCore (k : CoreId) (c : PlelisCore) (s : State) : (s.setCore k c).core k = c := by cases k <;> rfl

theorem core_setCore_ne {k j : CoreId} (h : j ≠ k) (c : PlelisCore) (s : State) : (s.setCore k c).core j = s.core j := by
  cases k <;> cases j <;> first | rfl | exact absurd rfl h

@[simp] theorem core_modCore (k : CoreId) (f : PlelisCore → PlelisCore) (s : State) : (s.modCore k f).core k = f (s.core k) := core_setCore _ _ _

theorem Within.setCore {l r s} (k : CoreId) (c : PlelisCore) (hs : sub [corePiece k] l = true) (h : Within l r s) : Within l r (s.setCore k c) := by
  cases k
  · exact Within.upd hs h id id (fun p hp => by cases p <;> first | rfl | cases hp)
  · exact Within.upd hs h id id (fun p hp => by cases p <;> first | rfl | cases hp)

theorem Within.modCore {l r s} (k : CoreId) (f : PlelisCore → PlelisCore) (hs : sub [corePiece k] l = true) (h : Within l r s) :
    Within l r (s.modCore k f) := Within.setCore k _ hs h

theorem Within.pmcCount {l r s} (k : CoreId) (code n : Nat) (hs : sub [corePiece k] l = true) (h : Within l r s) : Within l r (s.pmcCount k code n) := by
  unfold State.pmcCount
  split
  · exact Within.setCore k _ hs h
  · exact h

theorem Within.retireAt {l r s} (k : CoreId) (pc : W64) (hs : sub [corePiece k] l = true) (h : Within l r s) : Within l r (s.retireAt k pc) :=
  Within.pmcCount k 2 1 hs (Within.modCore k _ hs h)

theorem pmcCount_core (k : CoreId) (code n : Nat) (s : State) : CoreIs ((s.pmcCount k code n).core k) (s.core k) := by
  unfold State.pmcCount
  split
  · rw [core_setCore]
    rfl
  · rfl

theorem retireAt_core (k : CoreId) (pc : W64) (s : State) : CoreIs ((s.retireAt k pc).core k) { s.core k with pc, wait := .none } :=
  coreIs_trans (pmcCount_core k 2 1 (s.modCore k (fun c => { c with pc, wait := .none, retired := c.retired + 1, quiet := 0 }))) (by rw [core_modCore]; rfl)

theorem coreFault_core (k : CoreId) (cause block detail : Nat) (faddr : W64) (s : State) :
    CoreIs ((s.coreFault k cause block detail faddr).core k) (faulted (s.core k) cause block detail faddr) := by
  unfold State.coreFault faulted
  split
  · rw [core_modCore]
    rfl
  · exact coreIs_trans (pmcCount_core k 5 1 (s.modCore k (fun c => { c.takeFault cause block detail faddr with wasted := c.wasted + 1 }))) (by rw [core_modCore]; rfl)

theorem Within.coreFault {l r s} (k : CoreId) (cause block detail : Nat) (faddr : W64) (hs : sub [corePiece k] l = true) (h : Within l r s) :
    Within l r (s.coreFault k cause block detail faddr) := by
  unfold State.coreFault
  split
  · exact Within.modCore k _ hs h
  · exact Within.pmcCount k 5 1 hs (Within.modCore k _ hs h)

/-! ### Reading memory that holds no error -/

theorem eccKind_none {s : State} {w : Nat} (h : ∀ m ∈ s.ecc.marks, m.region = 0 → m.word ≠ w) : s.eccKind 0 w = none := by
  unfold State.eccKind
  rw [Option.map_eq_none_iff, List.find?_eq_none]
  intro m hm hc
  simp only [Bool.and_eq_true, beq_iff_eq] at hc
  exact h m hm hc.1 hc.2

theorem eccRead_unmarked {s : State} {a n : Nat} (h : Unmarked s a n) : s.eccRead a n = (true, s) := by
  unfold State.eccRead
  split
  · rfl
  · have key : ∀ l : List Nat, (∀ i ∈ l, i < (a + n + 7) / 8 - a / 8) → l.foldl (fun (r : Bool × State) i =>
        match r.2.eccKind 0 (a / 8 + i) with
        | none => r
        | some .uncorr => (false, r.2.eccUncorr 0 (a / 8 + i))
        | some _ => (r.1, r.2.eccCorrected 0 (a / 8 + i))) (true, s) = (true, s) := by
      intro l
      induction l with
      | nil => intro _; rfl
      | cons i l ih =>
        intro hl
        have hi := hl i List.mem_cons_self
        have hn : s.eccKind 0 (a / 8 + i) = none := eccKind_none (fun m hm h0 => by
          rcases h m hm h0 with h1 | h1 <;> omega)
        rw [List.foldl_cons]
        simp only [hn]
        exact ih (fun j hj => hl j (List.mem_cons_of_mem _ hj))
    exact key _ (fun i hi => List.mem_range.mp hi)

theorem correctable_unmarked {s : State} {a n : Nat} (h : Unmarked s a n) : s.correctable a n = 0 := by
  unfold State.correctable
  rw [List.length_eq_zero_iff, List.filter_eq_nil_iff]
  intro m hm hc
  simp only [Bool.and_eq_true, beq_iff_eq, decide_eq_true_eq] at hc
  rcases h m hm hc.1.1 with h1 | h1 <;> omega

/-- A read of unmarked memory gives the bytes and leaves the state. -/
theorem coreRead_unmarked {s : State} {k : CoreId} {a n : Nat} (h : Unmarked s (coreAddr k a) n) :
    s.coreRead k a n = (true, s.load (coreAddr k a) n, s) := by
  simp only [State.coreRead, eccRead_unmarked h, correctable_unmarked h, ite_self, if_pos]

/-! ### One instruction -/

/-- A core that takes an instruction of a legal encoding does what its body says. -/
theorem coreStep_fetches {s : State} {k : CoreId} (h : Fetches s k) (body : PlelisCore → State → CoreRes) :
    s.coreStep k true body = match body (s.core k) s with
      | .next s => s.retire k
      | .jump t s => (s.retireAt k t).pmcCount k 6 1
      | .stall w s => s.modCore k (fun c => { c with wait := w })
      | .fault cause block detail faddr => s.coreFault k cause block detail faddr
      | .parked block faddr s => s.coreFault k causeParked block 0 faddr
      | .ecc s => s.modCore k (fun c => { c with run := .halted }) := by
  simp only [State.coreStep, h.running, h.free, h.mayFetch, coreRead_unmarked h.clean, h.legal, Bool.and_true, ne_eq, not_true_eq_false, or_self, if_false, reduceCtorEq] <;> rfl

/-- A core that takes an instruction of an illegal encoding faults. -/
theorem coreStep_illegal {s : State} {k : CoreId} (h : Fetches s k) (body : PlelisCore → State → CoreRes) :
    s.coreStep k false body = s.coreFault k causeIllegal 0 0 0 := by
  simp [State.coreStep, h.running, h.free, h.mayFetch, coreRead_unmarked h.clean]

/-- A body that goes on in a state of its own. -/
theorem does_step {c : Instr} {s t : State} {k : CoreId} {body : PlelisCore → State → CoreRes} (h : Fetches s k)
    (he : exec c s = .next (s.coreStep k true body)) (hb : body (s.core k) s = .next t) : Does c s (t.retire k) := by
  unfold Does
  rw [he, coreStep_fetches h, hb]

/-- A body that meets a laid-up block. -/
theorem does_parked {c : Instr} {s t : State} {k : CoreId} {body : PlelisCore → State → CoreRes} (h : Fetches s k) {block : Nat} {a : W64}
    (he : exec c s = .next (s.coreStep k true body)) (hb : body (s.core k) s = .parked block a t) : Does c s (t.coreFault k 0x05 block 0 a) := by
  unfold Does
  rw [he, coreStep_fetches h, hb]

/-- A body that changes the core alone and retires. -/
theorem leaves_next {c : Instr} {s : State} {k : CoreId} {body : PlelisCore → State → CoreRes} (h : Fetches s k)
    (he : exec c s = .next (s.coreStep k true body)) (f : PlelisCore → PlelisCore) (hb : body (s.core k) s = .next (s.modCore k f))
    (hp : (f (s.core k)).pc = (s.core k).pc) (hw : (f (s.core k)).wait = .none) :
    Leaves c s k { f (s.core k) with pc := (s.core k).pc + 4 } := by
  refine ⟨_, he, ?_, ?_⟩
  · rw [coreStep_fetches h, hb]
    dsimp only [State.retire]
    refine coreIs_trans (retireAt_core k _ _) ?_
    rw [core_modCore, hp]
    have : ({ f (s.core k) with pc := (s.core k).pc + 4 } : PlelisCore) = { f (s.core k) with pc := (s.core k).pc + 4, wait := .none } := by
      rw [← hw]
    rw [this]
    rfl
  · rw [coreStep_fetches h, hb]
    cases k <;> exact Within.retireAt _ _ rfl (Within.modCore _ _ rfl (Within.refl _ _))

/-- A body that changes the core alone and jumps. -/
theorem leaves_jump {c : Instr} {s : State} {k : CoreId} {body : PlelisCore → State → CoreRes} (h : Fetches s k)
    (he : exec c s = .next (s.coreStep k true body)) (f : PlelisCore → PlelisCore) (t : W64) (hb : body (s.core k) s = .jump t (s.modCore k f))
    (hw : (f (s.core k)).wait = .none) : Leaves c s k { f (s.core k) with pc := t } := by
  refine ⟨_, he, ?_, ?_⟩
  · rw [coreStep_fetches h, hb]
    refine coreIs_trans (pmcCount_core k 6 1 _) (coreIs_trans (retireAt_core k _ _) ?_)
    rw [core_modCore]
    have : ({ f (s.core k) with pc := t } : PlelisCore) = { f (s.core k) with pc := t, wait := .none } := by
      rw [← hw]
    rw [this]
    rfl
  · rw [coreStep_fetches h, hb]
    cases k <;> exact Within.pmcCount _ _ _ rfl (Within.retireAt _ _ rfl (Within.modCore _ _ rfl (Within.refl _ _)))

/-- A body that faults. -/
theorem leaves_fault {c : Instr} {s : State} {k : CoreId} {body : PlelisCore → State → CoreRes} (h : Fetches s k)
    (he : exec c s = .next (s.coreStep k true body)) {cause block detail : Nat} {a : W64} (hb : body (s.core k) s = .fault cause block detail a) :
    Leaves c s k (faulted (s.core k) cause block detail a) := by
  refine ⟨_, he, ?_, ?_⟩
  · rw [coreStep_fetches h, hb]
    exact coreFault_core k _ _ _ _ s
  · rw [coreStep_fetches h, hb]
    cases k <;> exact Within.coreFault _ _ _ _ _ rfl (Within.refl _ _)

/-- A body that waits. -/
theorem leaves_stall {c : Instr} {s : State} {k : CoreId} {body : PlelisCore → State → CoreRes} (h : Fetches s k)
    (he : exec c s = .next (s.coreStep k true body)) {w : CoreWait} (hb : body (s.core k) s = .stall w s) :
    Leaves c s k { s.core k with wait := w } := by
  refine ⟨_, he, ?_, ?_⟩
  · rw [coreStep_fetches h, hb]
    dsimp only
    rw [core_modCore]
    rfl
  · rw [coreStep_fetches h, hb]
    cases k <;> exact Within.modCore _ _ rfl (Within.refl _ _)

/-- An encoding that is not legal. -/
theorem leaves_illegal {c : Instr} {s : State} {k : CoreId} {body : PlelisCore → State → CoreRes} (h : Fetches s k)
    (he : exec c s = .next (s.coreStep k false body)) : Leaves c s k (faulted (s.core k) causeIllegal 0 0 0) := by
  refine ⟨_, he, ?_, ?_⟩
  · rw [coreStep_illegal h]
    exact coreFault_core k _ _ _ _ s
  · rw [coreStep_illegal h]
    cases k <;> exact Within.coreFault _ _ _ _ _ rfl (Within.refl _ _)

/-! ### General registers -/

theorem setGpr_pc (c : PlelisCore) (r : BitVec 5) (v : W64) : (c.setGpr r v).pc = c.pc := by
  unfold PlelisCore.setGpr
  split <;> rfl

theorem setGpr_wait (c : PlelisCore) (r : BitVec 5) (v : W64) : (c.setGpr r v).wait = c.wait := by
  unfold PlelisCore.setGpr
  split <;> rfl

/-- An instruction that computes rd from registers and retires. -/
theorem leaves_alu {c : Instr} {s : State} {k : CoreId} {rd : BitVec 5} {f : PlelisCore → W64} (h : Fetches s k)
    (he : exec c s = .next (s.coreAlu k true rd f)) : Leaves c s k (wrote (s.core k) rd (f (s.core k)) ((s.core k).pc + 4)) :=
  leaves_next h he (fun c => c.setGpr rd (f (s.core k))) rfl (setGpr_pc _ _ _) ((setGpr_wait _ _ _).trans h.free)

end Sys2Proof.Laws
end

