-- ==== Sys2Proof/Laws/Memory.lean ====
section
/-! SUPPORT. Reads and writes of SRAM bytes: a byte just written reads back, every other byte reads as before. -/
namespace Sys2Proof.Laws
open Sys2Proof.Machine Sys2Proof.Safety

theorem leBytes_length (n v : Nat) : (leBytes n v).length = n := by
  induction n generalizing v with
  | zero => rfl
  | succ n ih => simp [leBytes, ih]

theorem leBytes_get (n v j : Nat) (h : j < (leBytes n v).length) : (leBytes n v)[j] = BitVec.ofNat 8 (v / 256 ^ j) := by
  induction n generalizing v j with
  | zero => simp [leBytes] at h
  | succ n ih =>
    cases j with
    | zero => simp [leBytes]
    | succ j =>
      simp only [leBytes, List.getElem_cons_succ, ih]
      rw [Nat.div_div_eq_div_mul, Nat.pow_succ, Nat.mul_comm]

/-- What each byte reads as after bytes have been put from a on. -/
theorem putBytes_byte (l : List Byte) (a x : Nat) (s : State) :
    (s.putBytes a l).byte x = if h : a ≤ x ∧ x < a + l.length then l[x - a]'(by omega) else s.byte x := by
  induction l generalizing a s with
  | nil =>
    have : ¬ (a ≤ x ∧ x < a + ([] : List Byte).length) := by simp
    rw [dif_neg this]
    rfl
  | cons b l ih =>
    show (State.putBytes (a + 1) l (s.setByte a b)).byte x = _
    rw [ih]
    by_cases hx : x = a
    · subst hx
      have : ¬ (x + 1 ≤ x ∧ x < x + 1 + l.length) := by omega
      simp [this, State.byte, State.setByte, sparseGet_put_self]
    · by_cases h2 : a ≤ x ∧ x < a + (b :: l).length
      · have h3 : a + 1 ≤ x ∧ x < a + 1 + l.length := by simp at h2; omega
        rw [dif_pos h2, dif_pos h3]
        have : x - a = (x - (a + 1)) + 1 := by omega
        simp only [this, List.getElem_cons_succ]
      · have h3 : ¬ (a + 1 ≤ x ∧ x < a + 1 + l.length) := by simp at h2; omega
        rw [dif_neg h2, dif_neg h3]
        exact sparseGet_put_ne _ hx _ _

theorem eccTouch_byte (a n x : Nat) (s : State) : (s.eccTouch a n).byte x = s.byte x := by
  have h : (s.eccTouch a n).mem = s.mem := (State.eccTouch_within (sc := [.regs, .ecc]) (r₀ := s) a n rfl (Within.refl _ s)).2.2 .mem rfl
  unfold State.byte
  rw [h]

theorem touchLine_byte (k : CoreId) (line x : Nat) (s : State) : (s.touchLine k line).byte x = s.byte x := by
  have h : (s.touchLine k line).mem = s.mem := (State.touchLine_within (sc := [.hws]) (r₀ := s) k line rfl (Within.refl _ s)).2.2 .mem rfl
  unfold State.byte
  rw [h]

/-- A store writes its bytes, little-endian, and no other byte. -/
theorem store_byte (a n v x : Nat) (s : State) :
    (s.store a n v).byte x = if a ≤ x ∧ x < a + n then BitVec.ofNat 8 (v / 256 ^ (x - a)) else s.byte x := by
  unfold State.store State.setBytes
  rw [eccTouch_byte, putBytes_byte]
  simp only [leBytes_length, leBytes_get]
  split <;> rfl

/-- A core's store writes its bytes in that core's view of memory, and no other byte. -/
theorem coreStore_byte (k : CoreId) {a : Nat} (ha : 0x200000 ≤ a) (n v x : Nat) (s : State) :
    (s.coreStore k a n v).byte x = if coreAddr k a ≤ x ∧ x < coreAddr k a + n then BitVec.ofNat 8 (v / 256 ^ (x - coreAddr k a)) else s.byte x := by
  unfold State.coreStore
  split
  · rw [store_byte, touchLine_byte, touchLine_byte]
  · have : coreAddr k a = a := by
      unfold coreAddr
      rw [if_neg (by omega)]
    rw [store_byte, this]

/-- A store changes the memory, the hawser's lines and the error bookkeeping alone. -/
theorem coreStore_within {l r s} (k : CoreId) (a n v : Nat) (hs : sub [.mem, .hws, .ecc, .regs] l = true) (h : Within l r s) :
    Within l r (s.coreStore k a n v) := by
  have st : ∀ {s} (a n v : Nat), Within l r s → Within l r (s.store a n v) := fun a n v h => by
    unfold State.store State.setBytes
    exact State.eccTouch_within _ _ (sub_trans rfl hs) (State.putBytes_within _ _ (sub_trans rfl hs) h)
  unfold State.coreStore
  split
  · exact st _ _ _ (State.touchLine_within _ _ (sub_trans rfl hs) (State.touchLine_within _ _ (sub_trans rfl hs) h))
  · exact st _ _ _ h

end Sys2Proof.Laws
end

