-- ==== Sys2Proof/Laws/QuayLink.lean ====
section
/-! SUPPORT. The Quay link as data: the slot calendar in closed form; scrambling and precoding undo each other (R276, R283, R288). -/
namespace Sys2Proof.Laws
open Sys2Proof.Machine

/-- A step of the slot calendar goes from acc and cal_slot after j containers to those after j + 1. -/
theorem quayCalStep_at (j : Nat) : (quayCalStep (quayCalAt j).1 (quayCalAt j).2).2 = quayCalAt (j + 1) := by
  unfold quayCalStep quayCalAt
  rw [Nat.mul_add, Nat.mul_one]
  generalize 13107200 * j = x
  dsimp only
  split <;> rename_i h
  · have hq : (x + 13107200) / 13216225 = x / 13216225 + 1 := by omega
    rw [Prod.mk.injEq, hq]
    generalize x / 13216225 = q at *
    constructor <;> omega
  · have hq : (x + 13107200) / 13216225 = x / 13216225 := by omega
    rw [Prod.mk.injEq, hq]
    constructor <;> omega

theorem quayCal_succ (n acc slot : Nat) :
    (quayCal (n + 1) acc slot).2 = (quayCal n (quayCalStep acc slot).2.1 (quayCalStep acc slot).2.2).2 := by
  rw [quayCal]

/-- acc and cal_slot after k containers more than j. -/
theorem quayCal_from (k j : Nat) : (quayCal k (quayCalAt j).1 (quayCalAt j).2).2 = quayCalAt (j + k) := by
  induction k generalizing j with
  | zero => rfl
  | succ k ih =>
    rw [quayCal_succ, quayCalStep_at]
    exact (ih (j + 1)).trans (congrArg _ (by omega))

/-- acc and cal_slot after k containers from the calendar's start. -/
theorem quayCal_at (k : Nat) : (quayCal k 0 0).2 = quayCalAt k := by
  have h := quayCal_from k 0
  rw [Nat.zero_add, show quayCalAt 0 = (0, 0) by decide] at h
  exact h

/-- Descrambling from the state that the scrambler had gives the bits and the state that it was left in. -/
theorem quayDescramble_scramble (l : List Bool) (st : BitVec 58) : quayDescramble st (quayScramble st l).1 = (l, (quayScramble st l).2) := by
  induction l generalizing st with
  | nil => rfl
  | cons b l ih =>
    simp only [quayScramble, quayDescramble, ih]
    cases b <;> cases st.getLsbD 38 <;> cases st.getLsbD 57 <;> rfl

/-- Undoing the precoder from the symbol before gives the level indices. -/
theorem unprecode_precode (l : List Nat) (p : Nat) (h : ∀ g ∈ l, g < 4) : unprecode p (precode p l) = l := by
  induction l generalizing p with
  | nil => rfl
  | cons g l ih =>
    have hg := h g List.mem_cons_self
    simp only [precode, unprecode, ih _ (fun x hx => h x (List.mem_cons_of_mem _ hx)), List.cons.injEq, and_true]
    omega

/-- Two bits survive the Gray mapping. -/
theorem pamBits_pamLevel (a b : Bool) : pamBits (pamLevel a b) = [a, b] := by cases a <;> cases b <;> rfl

end Sys2Proof.Laws
end

