-- ==== Sys2Proof/Laws/State.lean ====
section
/-! SUPPORT. What each named update leaves as it is: one lemma per field of State, true by rfl; and what it sets reads back. -/
namespace Sys2Proof.Laws
open Sys2Proof.Machine

@[simp] theorem State.setReg_part (a : Nat) (v : W32) (s : State) : (s.setReg a v).part = s.part := rfl
@[simp] theorem State.setReg_dieRev (a : Nat) (v : W32) (s : State) : (s.setReg a v).dieRev = s.dieRev := rfl
@[simp] theorem State.setReg_pending (a : Nat) (v : W32) (s : State) : (s.setReg a v).pending = s.pending := rfl
@[simp] theorem State.setReg_mem (a : Nat) (v : W32) (s : State) : (s.setReg a v).mem = s.mem := rfl
@[simp] theorem State.setReg_flash (a : Nat) (v : W32) (s : State) : (s.setReg a v).flash = s.flash := rfl
@[simp] theorem State.setReg_coreA (a : Nat) (v : W32) (s : State) : (s.setReg a v).coreA = s.coreA := rfl
@[simp] theorem State.setReg_coreB (a : Nat) (v : W32) (s : State) : (s.setReg a v).coreB = s.coreB := rfl
@[simp] theorem State.setReg_qc (a : Nat) (v : W32) (s : State) : (s.setReg a v).qc = s.qc := rfl
@[simp] theorem State.setReg_claims (a : Nat) (v : W32) (s : State) : (s.setReg a v).claims = s.claims := rfl
@[simp] theorem State.setReg_berth (a : Nat) (v : W32) (s : State) : (s.setReg a v).berth = s.berth := rfl
@[simp] theorem State.setReg_time (a : Nat) (v : W32) (s : State) : (s.setReg a v).time = s.time := rfl
@[simp] theorem State.setReg_hold (a : Nat) (v : W32) (s : State) : (s.setReg a v).hold = s.hold := rfl
@[simp] theorem State.setReg_pilot (a : Nat) (v : W32) (s : State) : (s.setReg a v).pilot = s.pilot := rfl
@[simp] theorem State.setReg_boot (a : Nat) (v : W32) (s : State) : (s.setReg a v).boot = s.boot := rfl
@[simp] theorem State.setReg_hws (a : Nat) (v : W32) (s : State) : (s.setReg a v).hws = s.hws := rfl
@[simp] theorem State.setReg_hif (a : Nat) (v : W32) (s : State) : (s.setReg a v).hif = s.hif := rfl
@[simp] theorem State.setReg_pins (a : Nat) (v : W32) (s : State) : (s.setReg a v).pins = s.pins := rfl
@[simp] theorem State.setReg_pwr (a : Nat) (v : W32) (s : State) : (s.setReg a v).pwr = s.pwr := rfl
@[simp] theorem State.setReg_free (a : Nat) (v : W32) (s : State) : (s.setReg a v).free = s.free := rfl
@[simp] theorem State.setReg_cph (a : Nat) (v : W32) (s : State) : (s.setReg a v).cph = s.cph := rfl
@[simp] theorem State.setReg_txA (a : Nat) (v : W32) (s : State) : (s.setReg a v).txA = s.txA := rfl
@[simp] theorem State.setReg_txB (a : Nat) (v : W32) (s : State) : (s.setReg a v).txB = s.txB := rfl
@[simp] theorem State.setReg_rxA (a : Nat) (v : W32) (s : State) : (s.setReg a v).rxA = s.rxA := rfl
@[simp] theorem State.setReg_rxB (a : Nat) (v : W32) (s : State) : (s.setReg a v).rxB = s.rxB := rfl
@[simp] theorem State.setReg_eqA (a : Nat) (v : W32) (s : State) : (s.setReg a v).eqA = s.eqA := rfl
@[simp] theorem State.setReg_eqB (a : Nat) (v : W32) (s : State) : (s.setReg a v).eqB = s.eqB := rfl
@[simp] theorem State.setReg_crA (a : Nat) (v : W32) (s : State) : (s.setReg a v).crA = s.crA := rfl
@[simp] theorem State.setReg_crB (a : Nat) (v : W32) (s : State) : (s.setReg a v).crB = s.crB := rfl
@[simp] theorem State.setReg_fecA (a : Nat) (v : W32) (s : State) : (s.setReg a v).fecA = s.fecA := rfl
@[simp] theorem State.setReg_fecB (a : Nat) (v : W32) (s : State) : (s.setReg a v).fecB = s.fecB := rfl
@[simp] theorem State.setReg_hailA (a : Nat) (v : W32) (s : State) : (s.setReg a v).hailA = s.hailA := rfl
@[simp] theorem State.setReg_hailB (a : Nat) (v : W32) (s : State) : (s.setReg a v).hailB = s.hailB := rfl
@[simp] theorem State.setReg_frmA (a : Nat) (v : W32) (s : State) : (s.setReg a v).frmA = s.frmA := rfl
@[simp] theorem State.setReg_frmB (a : Nat) (v : W32) (s : State) : (s.setReg a v).frmB = s.frmB := rfl
@[simp] theorem State.setReg_osp (a : Nat) (v : W32) (s : State) : (s.setReg a v).osp = s.osp := rfl
@[simp] theorem State.setReg_clm (a : Nat) (v : W32) (s : State) : (s.setReg a v).clm = s.clm := rfl
@[simp] theorem State.setReg_brt (a : Nat) (v : W32) (s : State) : (s.setReg a v).brt = s.brt := rfl
@[simp] theorem State.setReg_lanes (a : Nat) (v : W32) (s : State) : (s.setReg a v).lanes = s.lanes := rfl
@[simp] theorem State.setReg_mon (a : Nat) (v : W32) (s : State) : (s.setReg a v).mon = s.mon := rfl
@[simp] theorem State.setReg_anl (a : Nat) (v : W32) (s : State) : (s.setReg a v).anl = s.anl := rfl
@[simp] theorem State.setReg_log (a : Nat) (v : W32) (s : State) : (s.setReg a v).log = s.log := rfl
@[simp] theorem State.setReg_obs (a : Nat) (v : W32) (s : State) : (s.setReg a v).obs = s.obs := rfl
@[simp] theorem State.setReg_ecc (a : Nat) (v : W32) (s : State) : (s.setReg a v).ecc = s.ecc := rfl
@[simp] theorem State.setReg_ref (a : Nat) (v : W32) (s : State) : (s.setReg a v).ref = s.ref := rfl
@[simp] theorem State.setReg_sec (a : Nat) (v : W32) (s : State) : (s.setReg a v).sec = s.sec := rfl

@[simp] theorem State.setFld_part (a : Nat) (f : Fld) (v : Nat) (s : State) : (s.setFld a f v).part = s.part := rfl
@[simp] theorem State.setFld_dieRev (a : Nat) (f : Fld) (v : Nat) (s : State) : (s.setFld a f v).dieRev = s.dieRev := rfl
@[simp] theorem State.setFld_pending (a : Nat) (f : Fld) (v : Nat) (s : State) : (s.setFld a f v).pending = s.pending := rfl
@[simp] theorem State.setFld_mem (a : Nat) (f : Fld) (v : Nat) (s : State) : (s.setFld a f v).mem = s.mem := rfl
@[simp] theorem State.setFld_flash (a : Nat) (f : Fld) (v : Nat) (s : State) : (s.setFld a f v).flash = s.flash := rfl
@[simp] theorem State.setFld_coreA (a : Nat) (f : Fld) (v : Nat) (s : State) : (s.setFld a f v).coreA = s.coreA := rfl
@[simp] theorem State.setFld_coreB (a : Nat) (f : Fld) (v : Nat) (s : State) : (s.setFld a f v).coreB = s.coreB := rfl
@[simp] theorem State.setFld_qc (a : Nat) (f : Fld) (v : Nat) (s : State) : (s.setFld a f v).qc = s.qc := rfl
@[simp] theorem State.setFld_claims (a : Nat) (f : Fld) (v : Nat) (s : State) : (s.setFld a f v).claims = s.claims := rfl
@[simp] theorem State.setFld_berth (a : Nat) (f : Fld) (v : Nat) (s : State) : (s.setFld a f v).berth = s.berth := rfl
@[simp] theorem State.setFld_time (a : Nat) (f : Fld) (v : Nat) (s : State) : (s.setFld a f v).time = s.time := rfl
@[simp] theorem State.setFld_hold (a : Nat) (f : Fld) (v : Nat) (s : State) : (s.setFld a f v).hold = s.hold := rfl
@[simp] theorem State.setFld_pilot (a : Nat) (f : Fld) (v : Nat) (s : State) : (s.setFld a f v).pilot = s.pilot := rfl
@[simp] theorem State.setFld_boot (a : Nat) (f : Fld) (v : Nat) (s : State) : (s.setFld a f v).boot = s.boot := rfl
@[simp] theorem State.setFld_hws (a : Nat) (f : Fld) (v : Nat) (s : State) : (s.setFld a f v).hws = s.hws := rfl
@[simp] theorem State.setFld_hif (a : Nat) (f : Fld) (v : Nat) (s : State) : (s.setFld a f v).hif = s.hif := rfl
@[simp] theorem State.setFld_pins (a : Nat) (f : Fld) (v : Nat) (s : State) : (s.setFld a f v).pins = s.pins := rfl
@[simp] theorem State.setFld_pwr (a : Nat) (f : Fld) (v : Nat) (s : State) : (s.setFld a f v).pwr = s.pwr := rfl
@[simp] theorem State.setFld_free (a : Nat) (f : Fld) (v : Nat) (s : State) : (s.setFld a f v).free = s.free := rfl
@[simp] theorem State.setFld_cph (a : Nat) (f : Fld) (v : Nat) (s : State) : (s.setFld a f v).cph = s.cph := rfl
@[simp] theorem State.setFld_txA (a : Nat) (f : Fld) (v : Nat) (s : State) : (s.setFld a f v).txA = s.txA := rfl
@[simp] theorem State.setFld_txB (a : Nat) (f : Fld) (v : Nat) (s : State) : (s.setFld a f v).txB = s.txB := rfl
@[simp] theorem State.setFld_rxA (a : Nat) (f : Fld) (v : Nat) (s : State) : (s.setFld a f v).rxA = s.rxA := rfl
@[simp] theorem State.setFld_rxB (a : Nat) (f : Fld) (v : Nat) (s : State) : (s.setFld a f v).rxB = s.rxB := rfl
@[simp] theorem State.setFld_eqA (a : Nat) (f : Fld) (v : Nat) (s : State) : (s.setFld a f v).eqA = s.eqA := rfl
@[simp] theorem State.setFld_eqB (a : Nat) (f : Fld) (v : Nat) (s : State) : (s.setFld a f v).eqB = s.eqB := rfl
@[simp] theorem State.setFld_crA (a : Nat) (f : Fld) (v : Nat) (s : State) : (s.setFld a f v).crA = s.crA := rfl
@[simp] theorem State.setFld_crB (a : Nat) (f : Fld) (v : Nat) (s : State) : (s.setFld a f v).crB = s.crB := rfl
@[simp] theorem State.setFld_fecA (a : Nat) (f : Fld) (v : Nat) (s : State) : (s.setFld a f v).fecA = s.fecA := rfl
@[simp] theorem State.setFld_fecB (a : Nat) (f : Fld) (v : Nat) (s : State) : (s.setFld a f v).fecB = s.fecB := rfl
@[simp] theorem State.setFld_hailA (a : Nat) (f : Fld) (v : Nat) (s : State) : (s.setFld a f v).hailA = s.hailA := rfl
@[simp] theorem State.setFld_hailB (a : Nat) (f : Fld) (v : Nat) (s : State) : (s.setFld a f v).hailB = s.hailB := rfl
@[simp] theorem State.setFld_frmA (a : Nat) (f : Fld) (v : Nat) (s : State) : (s.setFld a f v).frmA = s.frmA := rfl
@[simp] theorem State.setFld_frmB (a : Nat) (f : Fld) (v : Nat) (s : State) : (s.setFld a f v).frmB = s.frmB := rfl
@[simp] theorem State.setFld_osp (a : Nat) (f : Fld) (v : Nat) (s : State) : (s.setFld a f v).osp = s.osp := rfl
@[simp] theorem State.setFld_clm (a : Nat) (f : Fld) (v : Nat) (s : State) : (s.setFld a f v).clm = s.clm := rfl
@[simp] theorem State.setFld_brt (a : Nat) (f : Fld) (v : Nat) (s : State) : (s.setFld a f v).brt = s.brt := rfl
@[simp] theorem State.setFld_lanes (a : Nat) (f : Fld) (v : Nat) (s : State) : (s.setFld a f v).lanes = s.lanes := rfl
@[simp] theorem State.setFld_mon (a : Nat) (f : Fld) (v : Nat) (s : State) : (s.setFld a f v).mon = s.mon := rfl
@[simp] theorem State.setFld_anl (a : Nat) (f : Fld) (v : Nat) (s : State) : (s.setFld a f v).anl = s.anl := rfl
@[simp] theorem State.setFld_log (a : Nat) (f : Fld) (v : Nat) (s : State) : (s.setFld a f v).log = s.log := rfl
@[simp] theorem State.setFld_obs (a : Nat) (f : Fld) (v : Nat) (s : State) : (s.setFld a f v).obs = s.obs := rfl
@[simp] theorem State.setFld_ecc (a : Nat) (f : Fld) (v : Nat) (s : State) : (s.setFld a f v).ecc = s.ecc := rfl
@[simp] theorem State.setFld_ref (a : Nat) (f : Fld) (v : Nat) (s : State) : (s.setFld a f v).ref = s.ref := rfl
@[simp] theorem State.setFld_sec (a : Nat) (f : Fld) (v : Nat) (s : State) : (s.setFld a f v).sec = s.sec := rfl

@[simp] theorem State.setFlag_part (a : Nat) (f : Fld) (b : Bool) (s : State) : (s.setFlag a f b).part = s.part := rfl
@[simp] theorem State.setFlag_dieRev (a : Nat) (f : Fld) (b : Bool) (s : State) : (s.setFlag a f b).dieRev = s.dieRev := rfl
@[simp] theorem State.setFlag_pending (a : Nat) (f : Fld) (b : Bool) (s : State) : (s.setFlag a f b).pending = s.pending := rfl
@[simp] theorem State.setFlag_mem (a : Nat) (f : Fld) (b : Bool) (s : State) : (s.setFlag a f b).mem = s.mem := rfl
@[simp] theorem State.setFlag_flash (a : Nat) (f : Fld) (b : Bool) (s : State) : (s.setFlag a f b).flash = s.flash := rfl
@[simp] theorem State.setFlag_coreA (a : Nat) (f : Fld) (b : Bool) (s : State) : (s.setFlag a f b).coreA = s.coreA := rfl
@[simp] theorem State.setFlag_coreB (a : Nat) (f : Fld) (b : Bool) (s : State) : (s.setFlag a f b).coreB = s.coreB := rfl
@[simp] theorem State.setFlag_qc (a : Nat) (f : Fld) (b : Bool) (s : State) : (s.setFlag a f b).qc = s.qc := rfl
@[simp] theorem State.setFlag_claims (a : Nat) (f : Fld) (b : Bool) (s : State) : (s.setFlag a f b).claims = s.claims := rfl
@[simp] theorem State.setFlag_berth (a : Nat) (f : Fld) (b : Bool) (s : State) : (s.setFlag a f b).berth = s.berth := rfl
@[simp] theorem State.setFlag_time (a : Nat) (f : Fld) (b : Bool) (s : State) : (s.setFlag a f b).time = s.time := rfl
@[simp] theorem State.setFlag_hold (a : Nat) (f : Fld) (b : Bool) (s : State) : (s.setFlag a f b).hold = s.hold := rfl
@[simp] theorem State.setFlag_pilot (a : Nat) (f : Fld) (b : Bool) (s : State) : (s.setFlag a f b).pilot = s.pilot := rfl
@[simp] theorem State.setFlag_boot (a : Nat) (f : Fld) (b : Bool) (s : State) : (s.setFlag a f b).boot = s.boot := rfl
@[simp] theorem State.setFlag_hws (a : Nat) (f : Fld) (b : Bool) (s : State) : (s.setFlag a f b).hws = s.hws := rfl
@[simp] theorem State.setFlag_hif (a : Nat) (f : Fld) (b : Bool) (s : State) : (s.setFlag a f b).hif = s.hif := rfl
@[simp] theorem State.setFlag_pins (a : Nat) (f : Fld) (b : Bool) (s : State) : (s.setFlag a f b).pins = s.pins := rfl
@[simp] theorem State.setFlag_pwr (a : Nat) (f : Fld) (b : Bool) (s : State) : (s.setFlag a f b).pwr = s.pwr := rfl
@[simp] theorem State.setFlag_free (a : Nat) (f : Fld) (b : Bool) (s : State) : (s.setFlag a f b).free = s.free := rfl
@[simp] theorem State.setFlag_cph (a : Nat) (f : Fld) (b : Bool) (s : State) : (s.setFlag a f b).cph = s.cph := rfl
@[simp] theorem State.setFlag_txA (a : Nat) (f : Fld) (b : Bool) (s : State) : (s.setFlag a f b).txA = s.txA := rfl
@[simp] theorem State.setFlag_txB (a : Nat) (f : Fld) (b : Bool) (s : State) : (s.setFlag a f b).txB = s.txB := rfl
@[simp] theorem State.setFlag_rxA (a : Nat) (f : Fld) (b : Bool) (s : State) : (s.setFlag a f b).rxA = s.rxA := rfl
@[simp] theorem State.setFlag_rxB (a : Nat) (f : Fld) (b : Bool) (s : State) : (s.setFlag a f b).rxB = s.rxB := rfl
@[simp] theorem State.setFlag_eqA (a : Nat) (f : Fld) (b : Bool) (s : State) : (s.setFlag a f b).eqA = s.eqA := rfl
@[simp] theorem State.setFlag_eqB (a : Nat) (f : Fld) (b : Bool) (s : State) : (s.setFlag a f b).eqB = s.eqB := rfl
@[simp] theorem State.setFlag_crA (a : Nat) (f : Fld) (b : Bool) (s : State) : (s.setFlag a f b).crA = s.crA := rfl
@[simp] theorem State.setFlag_crB (a : Nat) (f : Fld) (b : Bool) (s : State) : (s.setFlag a f b).crB = s.crB := rfl
@[simp] theorem State.setFlag_fecA (a : Nat) (f : Fld) (b : Bool) (s : State) : (s.setFlag a f b).fecA = s.fecA := rfl
@[simp] theorem State.setFlag_fecB (a : Nat) (f : Fld) (b : Bool) (s : State) : (s.setFlag a f b).fecB = s.fecB := rfl
@[simp] theorem State.setFlag_hailA (a : Nat) (f : Fld) (b : Bool) (s : State) : (s.setFlag a f b).hailA = s.hailA := rfl
@[simp] theorem State.setFlag_hailB (a : Nat) (f : Fld) (b : Bool) (s : State) : (s.setFlag a f b).hailB = s.hailB := rfl
@[simp] theorem State.setFlag_frmA (a : Nat) (f : Fld) (b : Bool) (s : State) : (s.setFlag a f b).frmA = s.frmA := rfl
@[simp] theorem State.setFlag_frmB (a : Nat) (f : Fld) (b : Bool) (s : State) : (s.setFlag a f b).frmB = s.frmB := rfl
@[simp] theorem State.setFlag_osp (a : Nat) (f : Fld) (b : Bool) (s : State) : (s.setFlag a f b).osp = s.osp := rfl
@[simp] theorem State.setFlag_clm (a : Nat) (f : Fld) (b : Bool) (s : State) : (s.setFlag a f b).clm = s.clm := rfl
@[simp] theorem State.setFlag_brt (a : Nat) (f : Fld) (b : Bool) (s : State) : (s.setFlag a f b).brt = s.brt := rfl
@[simp] theorem State.setFlag_lanes (a : Nat) (f : Fld) (b : Bool) (s : State) : (s.setFlag a f b).lanes = s.lanes := rfl
@[simp] theorem State.setFlag_mon (a : Nat) (f : Fld) (b : Bool) (s : State) : (s.setFlag a f b).mon = s.mon := rfl
@[simp] theorem State.setFlag_anl (a : Nat) (f : Fld) (b : Bool) (s : State) : (s.setFlag a f b).anl = s.anl := rfl
@[simp] theorem State.setFlag_log (a : Nat) (f : Fld) (b : Bool) (s : State) : (s.setFlag a f b).log = s.log := rfl
@[simp] theorem State.setFlag_obs (a : Nat) (f : Fld) (b : Bool) (s : State) : (s.setFlag a f b).obs = s.obs := rfl
@[simp] theorem State.setFlag_ecc (a : Nat) (f : Fld) (b : Bool) (s : State) : (s.setFlag a f b).ecc = s.ecc := rfl
@[simp] theorem State.setFlag_ref (a : Nat) (f : Fld) (b : Bool) (s : State) : (s.setFlag a f b).ref = s.ref := rfl
@[simp] theorem State.setFlag_sec (a : Nat) (f : Fld) (b : Bool) (s : State) : (s.setFlag a f b).sec = s.sec := rfl

@[simp] theorem State.setFldS_part (a : Nat) (f : Fld) (v : Int) (s : State) : (s.setFldS a f v).part = s.part := rfl
@[simp] theorem State.setFldS_dieRev (a : Nat) (f : Fld) (v : Int) (s : State) : (s.setFldS a f v).dieRev = s.dieRev := rfl
@[simp] theorem State.setFldS_pending (a : Nat) (f : Fld) (v : Int) (s : State) : (s.setFldS a f v).pending = s.pending := rfl
@[simp] theorem State.setFldS_mem (a : Nat) (f : Fld) (v : Int) (s : State) : (s.setFldS a f v).mem = s.mem := rfl
@[simp] theorem State.setFldS_flash (a : Nat) (f : Fld) (v : Int) (s : State) : (s.setFldS a f v).flash = s.flash := rfl
@[simp] theorem State.setFldS_coreA (a : Nat) (f : Fld) (v : Int) (s : State) : (s.setFldS a f v).coreA = s.coreA := rfl
@[simp] theorem State.setFldS_coreB (a : Nat) (f : Fld) (v : Int) (s : State) : (s.setFldS a f v).coreB = s.coreB := rfl
@[simp] theorem State.setFldS_qc (a : Nat) (f : Fld) (v : Int) (s : State) : (s.setFldS a f v).qc = s.qc := rfl
@[simp] theorem State.setFldS_claims (a : Nat) (f : Fld) (v : Int) (s : State) : (s.setFldS a f v).claims = s.claims := rfl
@[simp] theorem State.setFldS_berth (a : Nat) (f : Fld) (v : Int) (s : State) : (s.setFldS a f v).berth = s.berth := rfl
@[simp] theorem State.setFldS_time (a : Nat) (f : Fld) (v : Int) (s : State) : (s.setFldS a f v).time = s.time := rfl
@[simp] theorem State.setFldS_hold (a : Nat) (f : Fld) (v : Int) (s : State) : (s.setFldS a f v).hold = s.hold := rfl
@[simp] theorem State.setFldS_pilot (a : Nat) (f : Fld) (v : Int) (s : State) : (s.setFldS a f v).pilot = s.pilot := rfl
@[simp] theorem State.setFldS_boot (a : Nat) (f : Fld) (v : Int) (s : State) : (s.setFldS a f v).boot = s.boot := rfl
@[simp] theorem State.setFldS_hws (a : Nat) (f : Fld) (v : Int) (s : State) : (s.setFldS a f v).hws = s.hws := rfl
@[simp] theorem State.setFldS_hif (a : Nat) (f : Fld) (v : Int) (s : State) : (s.setFldS a f v).hif = s.hif := rfl
@[simp] theorem State.setFldS_pins (a : Nat) (f : Fld) (v : Int) (s : State) : (s.setFldS a f v).pins = s.pins := rfl
@[simp] theorem State.setFldS_pwr (a : Nat) (f : Fld) (v : Int) (s : State) : (s.setFldS a f v).pwr = s.pwr := rfl
@[simp] theorem State.setFldS_free (a : Nat) (f : Fld) (v : Int) (s : State) : (s.setFldS a f v).free = s.free := rfl
@[simp] theorem State.setFldS_cph (a : Nat) (f : Fld) (v : Int) (s : State) : (s.setFldS a f v).cph = s.cph := rfl
@[simp] theorem State.setFldS_txA (a : Nat) (f : Fld) (v : Int) (s : State) : (s.setFldS a f v).txA = s.txA := rfl
@[simp] theorem State.setFldS_txB (a : Nat) (f : Fld) (v : Int) (s : State) : (s.setFldS a f v).txB = s.txB := rfl
@[simp] theorem State.setFldS_rxA (a : Nat) (f : Fld) (v : Int) (s : State) : (s.setFldS a f v).rxA = s.rxA := rfl
@[simp] theorem State.setFldS_rxB (a : Nat) (f : Fld) (v : Int) (s : State) : (s.setFldS a f v).rxB = s.rxB := rfl
@[simp] theorem State.setFldS_eqA (a : Nat) (f : Fld) (v : Int) (s : State) : (s.setFldS a f v).eqA = s.eqA := rfl
@[simp] theorem State.setFldS_eqB (a : Nat) (f : Fld) (v : Int) (s : State) : (s.setFldS a f v).eqB = s.eqB := rfl
@[simp] theorem State.setFldS_crA (a : Nat) (f : Fld) (v : Int) (s : State) : (s.setFldS a f v).crA = s.crA := rfl
@[simp] theorem State.setFldS_crB (a : Nat) (f : Fld) (v : Int) (s : State) : (s.setFldS a f v).crB = s.crB := rfl
@[simp] theorem State.setFldS_fecA (a : Nat) (f : Fld) (v : Int) (s : State) : (s.setFldS a f v).fecA = s.fecA := rfl
@[simp] theorem State.setFldS_fecB (a : Nat) (f : Fld) (v : Int) (s : State) : (s.setFldS a f v).fecB = s.fecB := rfl
@[simp] theorem State.setFldS_hailA (a : Nat) (f : Fld) (v : Int) (s : State) : (s.setFldS a f v).hailA = s.hailA := rfl
@[simp] theorem State.setFldS_hailB (a : Nat) (f : Fld) (v : Int) (s : State) : (s.setFldS a f v).hailB = s.hailB := rfl
@[simp] theorem State.setFldS_frmA (a : Nat) (f : Fld) (v : Int) (s : State) : (s.setFldS a f v).frmA = s.frmA := rfl
@[simp] theorem State.setFldS_frmB (a : Nat) (f : Fld) (v : Int) (s : State) : (s.setFldS a f v).frmB = s.frmB := rfl
@[simp] theorem State.setFldS_osp (a : Nat) (f : Fld) (v : Int) (s : State) : (s.setFldS a f v).osp = s.osp := rfl
@[simp] theorem State.setFldS_clm (a : Nat) (f : Fld) (v : Int) (s : State) : (s.setFldS a f v).clm = s.clm := rfl
@[simp] theorem State.setFldS_brt (a : Nat) (f : Fld) (v : Int) (s : State) : (s.setFldS a f v).brt = s.brt := rfl
@[simp] theorem State.setFldS_lanes (a : Nat) (f : Fld) (v : Int) (s : State) : (s.setFldS a f v).lanes = s.lanes := rfl
@[simp] theorem State.setFldS_mon (a : Nat) (f : Fld) (v : Int) (s : State) : (s.setFldS a f v).mon = s.mon := rfl
@[simp] theorem State.setFldS_anl (a : Nat) (f : Fld) (v : Int) (s : State) : (s.setFldS a f v).anl = s.anl := rfl
@[simp] theorem State.setFldS_log (a : Nat) (f : Fld) (v : Int) (s : State) : (s.setFldS a f v).log = s.log := rfl
@[simp] theorem State.setFldS_obs (a : Nat) (f : Fld) (v : Int) (s : State) : (s.setFldS a f v).obs = s.obs := rfl
@[simp] theorem State.setFldS_ecc (a : Nat) (f : Fld) (v : Int) (s : State) : (s.setFldS a f v).ecc = s.ecc := rfl
@[simp] theorem State.setFldS_ref (a : Nat) (f : Fld) (v : Int) (s : State) : (s.setFldS a f v).ref = s.ref := rfl
@[simp] theorem State.setFldS_sec (a : Nat) (f : Fld) (v : Int) (s : State) : (s.setFldS a f v).sec = s.sec := rfl

@[simp] theorem State.setReg64_part (a v : Nat) (s : State) : (s.setReg64 a v).part = s.part := rfl
@[simp] theorem State.setReg64_dieRev (a v : Nat) (s : State) : (s.setReg64 a v).dieRev = s.dieRev := rfl
@[simp] theorem State.setReg64_pending (a v : Nat) (s : State) : (s.setReg64 a v).pending = s.pending := rfl
@[simp] theorem State.setReg64_mem (a v : Nat) (s : State) : (s.setReg64 a v).mem = s.mem := rfl
@[simp] theorem State.setReg64_flash (a v : Nat) (s : State) : (s.setReg64 a v).flash = s.flash := rfl
@[simp] theorem State.setReg64_coreA (a v : Nat) (s : State) : (s.setReg64 a v).coreA = s.coreA := rfl
@[simp] theorem State.setReg64_coreB (a v : Nat) (s : State) : (s.setReg64 a v).coreB = s.coreB := rfl
@[simp] theorem State.setReg64_qc (a v : Nat) (s : State) : (s.setReg64 a v).qc = s.qc := rfl
@[simp] theorem State.setReg64_claims (a v : Nat) (s : State) : (s.setReg64 a v).claims = s.claims := rfl
@[simp] theorem State.setReg64_berth (a v : Nat) (s : State) : (s.setReg64 a v).berth = s.berth := rfl
@[simp] theorem State.setReg64_time (a v : Nat) (s : State) : (s.setReg64 a v).time = s.time := rfl
@[simp] theorem State.setReg64_hold (a v : Nat) (s : State) : (s.setReg64 a v).hold = s.hold := rfl
@[simp] theorem State.setReg64_pilot (a v : Nat) (s : State) : (s.setReg64 a v).pilot = s.pilot := rfl
@[simp] theorem State.setReg64_boot (a v : Nat) (s : State) : (s.setReg64 a v).boot = s.boot := rfl
@[simp] theorem State.setReg64_hws (a v : Nat) (s : State) : (s.setReg64 a v).hws = s.hws := rfl
@[simp] theorem State.setReg64_hif (a v : Nat) (s : State) : (s.setReg64 a v).hif = s.hif := rfl
@[simp] theorem State.setReg64_pins (a v : Nat) (s : State) : (s.setReg64 a v).pins = s.pins := rfl
@[simp] theorem State.setReg64_pwr (a v : Nat) (s : State) : (s.setReg64 a v).pwr = s.pwr := rfl
@[simp] theorem State.setReg64_free (a v : Nat) (s : State) : (s.setReg64 a v).free = s.free := rfl
@[simp] theorem State.setReg64_cph (a v : Nat) (s : State) : (s.setReg64 a v).cph = s.cph := rfl
@[simp] theorem State.setReg64_txA (a v : Nat) (s : State) : (s.setReg64 a v).txA = s.txA := rfl
@[simp] theorem State.setReg64_txB (a v : Nat) (s : State) : (s.setReg64 a v).txB = s.txB := rfl
@[simp] theorem State.setReg64_rxA (a v : Nat) (s : State) : (s.setReg64 a v).rxA = s.rxA := rfl
@[simp] theorem State.setReg64_rxB (a v : Nat) (s : State) : (s.setReg64 a v).rxB = s.rxB := rfl
@[simp] theorem State.setReg64_eqA (a v : Nat) (s : State) : (s.setReg64 a v).eqA = s.eqA := rfl
@[simp] theorem State.setReg64_eqB (a v : Nat) (s : State) : (s.setReg64 a v).eqB = s.eqB := rfl
@[simp] theorem State.setReg64_crA (a v : Nat) (s : State) : (s.setReg64 a v).crA = s.crA := rfl
@[simp] theorem State.setReg64_crB (a v : Nat) (s : State) : (s.setReg64 a v).crB = s.crB := rfl
@[simp] theorem State.setReg64_fecA (a v : Nat) (s : State) : (s.setReg64 a v).fecA = s.fecA := rfl
@[simp] theorem State.setReg64_fecB (a v : Nat) (s : State) : (s.setReg64 a v).fecB = s.fecB := rfl
@[simp] theorem State.setReg64_hailA (a v : Nat) (s : State) : (s.setReg64 a v).hailA = s.hailA := rfl
@[simp] theorem State.setReg64_hailB (a v : Nat) (s : State) : (s.setReg64 a v).hailB = s.hailB := rfl
@[simp] theorem State.setReg64_frmA (a v : Nat) (s : State) : (s.setReg64 a v).frmA = s.frmA := rfl
@[simp] theorem State.setReg64_frmB (a v : Nat) (s : State) : (s.setReg64 a v).frmB = s.frmB := rfl
@[simp] theorem State.setReg64_osp (a v : Nat) (s : State) : (s.setReg64 a v).osp = s.osp := rfl
@[simp] theorem State.setReg64_clm (a v : Nat) (s : State) : (s.setReg64 a v).clm = s.clm := rfl
@[simp] theorem State.setReg64_brt (a v : Nat) (s : State) : (s.setReg64 a v).brt = s.brt := rfl
@[simp] theorem State.setReg64_lanes (a v : Nat) (s : State) : (s.setReg64 a v).lanes = s.lanes := rfl
@[simp] theorem State.setReg64_mon (a v : Nat) (s : State) : (s.setReg64 a v).mon = s.mon := rfl
@[simp] theorem State.setReg64_anl (a v : Nat) (s : State) : (s.setReg64 a v).anl = s.anl := rfl
@[simp] theorem State.setReg64_log (a v : Nat) (s : State) : (s.setReg64 a v).log = s.log := rfl
@[simp] theorem State.setReg64_obs (a v : Nat) (s : State) : (s.setReg64 a v).obs = s.obs := rfl
@[simp] theorem State.setReg64_ecc (a v : Nat) (s : State) : (s.setReg64 a v).ecc = s.ecc := rfl
@[simp] theorem State.setReg64_ref (a v : Nat) (s : State) : (s.setReg64 a v).ref = s.ref := rfl
@[simp] theorem State.setReg64_sec (a v : Nat) (s : State) : (s.setReg64 a v).sec = s.sec := rfl

@[simp] theorem State.setByte_part (a : Nat) (v : Byte) (s : State) : (s.setByte a v).part = s.part := rfl
@[simp] theorem State.setByte_dieRev (a : Nat) (v : Byte) (s : State) : (s.setByte a v).dieRev = s.dieRev := rfl
@[simp] theorem State.setByte_pending (a : Nat) (v : Byte) (s : State) : (s.setByte a v).pending = s.pending := rfl
@[simp] theorem State.setByte_regs (a : Nat) (v : Byte) (s : State) : (s.setByte a v).regs = s.regs := rfl
@[simp] theorem State.setByte_flash (a : Nat) (v : Byte) (s : State) : (s.setByte a v).flash = s.flash := rfl
@[simp] theorem State.setByte_coreA (a : Nat) (v : Byte) (s : State) : (s.setByte a v).coreA = s.coreA := rfl
@[simp] theorem State.setByte_coreB (a : Nat) (v : Byte) (s : State) : (s.setByte a v).coreB = s.coreB := rfl
@[simp] theorem State.setByte_qc (a : Nat) (v : Byte) (s : State) : (s.setByte a v).qc = s.qc := rfl
@[simp] theorem State.setByte_claims (a : Nat) (v : Byte) (s : State) : (s.setByte a v).claims = s.claims := rfl
@[simp] theorem State.setByte_berth (a : Nat) (v : Byte) (s : State) : (s.setByte a v).berth = s.berth := rfl
@[simp] theorem State.setByte_time (a : Nat) (v : Byte) (s : State) : (s.setByte a v).time = s.time := rfl
@[simp] theorem State.setByte_hold (a : Nat) (v : Byte) (s : State) : (s.setByte a v).hold = s.hold := rfl
@[simp] theorem State.setByte_pilot (a : Nat) (v : Byte) (s : State) : (s.setByte a v).pilot = s.pilot := rfl
@[simp] theorem State.setByte_boot (a : Nat) (v : Byte) (s : State) : (s.setByte a v).boot = s.boot := rfl
@[simp] theorem State.setByte_hws (a : Nat) (v : Byte) (s : State) : (s.setByte a v).hws = s.hws := rfl
@[simp] theorem State.setByte_hif (a : Nat) (v : Byte) (s : State) : (s.setByte a v).hif = s.hif := rfl
@[simp] theorem State.setByte_pins (a : Nat) (v : Byte) (s : State) : (s.setByte a v).pins = s.pins := rfl
@[simp] theorem State.setByte_pwr (a : Nat) (v : Byte) (s : State) : (s.setByte a v).pwr = s.pwr := rfl
@[simp] theorem State.setByte_free (a : Nat) (v : Byte) (s : State) : (s.setByte a v).free = s.free := rfl
@[simp] theorem State.setByte_cph (a : Nat) (v : Byte) (s : State) : (s.setByte a v).cph = s.cph := rfl
@[simp] theorem State.setByte_txA (a : Nat) (v : Byte) (s : State) : (s.setByte a v).txA = s.txA := rfl
@[simp] theorem State.setByte_txB (a : Nat) (v : Byte) (s : State) : (s.setByte a v).txB = s.txB := rfl
@[simp] theorem State.setByte_rxA (a : Nat) (v : Byte) (s : State) : (s.setByte a v).rxA = s.rxA := rfl
@[simp] theorem State.setByte_rxB (a : Nat) (v : Byte) (s : State) : (s.setByte a v).rxB = s.rxB := rfl
@[simp] theorem State.setByte_eqA (a : Nat) (v : Byte) (s : State) : (s.setByte a v).eqA = s.eqA := rfl
@[simp] theorem State.setByte_eqB (a : Nat) (v : Byte) (s : State) : (s.setByte a v).eqB = s.eqB := rfl
@[simp] theorem State.setByte_crA (a : Nat) (v : Byte) (s : State) : (s.setByte a v).crA = s.crA := rfl
@[simp] theorem State.setByte_crB (a : Nat) (v : Byte) (s : State) : (s.setByte a v).crB = s.crB := rfl
@[simp] theorem State.setByte_fecA (a : Nat) (v : Byte) (s : State) : (s.setByte a v).fecA = s.fecA := rfl
@[simp] theorem State.setByte_fecB (a : Nat) (v : Byte) (s : State) : (s.setByte a v).fecB = s.fecB := rfl
@[simp] theorem State.setByte_hailA (a : Nat) (v : Byte) (s : State) : (s.setByte a v).hailA = s.hailA := rfl
@[simp] theorem State.setByte_hailB (a : Nat) (v : Byte) (s : State) : (s.setByte a v).hailB = s.hailB := rfl
@[simp] theorem State.setByte_frmA (a : Nat) (v : Byte) (s : State) : (s.setByte a v).frmA = s.frmA := rfl
@[simp] theorem State.setByte_frmB (a : Nat) (v : Byte) (s : State) : (s.setByte a v).frmB = s.frmB := rfl
@[simp] theorem State.setByte_osp (a : Nat) (v : Byte) (s : State) : (s.setByte a v).osp = s.osp := rfl
@[simp] theorem State.setByte_clm (a : Nat) (v : Byte) (s : State) : (s.setByte a v).clm = s.clm := rfl
@[simp] theorem State.setByte_brt (a : Nat) (v : Byte) (s : State) : (s.setByte a v).brt = s.brt := rfl
@[simp] theorem State.setByte_lanes (a : Nat) (v : Byte) (s : State) : (s.setByte a v).lanes = s.lanes := rfl
@[simp] theorem State.setByte_mon (a : Nat) (v : Byte) (s : State) : (s.setByte a v).mon = s.mon := rfl
@[simp] theorem State.setByte_anl (a : Nat) (v : Byte) (s : State) : (s.setByte a v).anl = s.anl := rfl
@[simp] theorem State.setByte_log (a : Nat) (v : Byte) (s : State) : (s.setByte a v).log = s.log := rfl
@[simp] theorem State.setByte_obs (a : Nat) (v : Byte) (s : State) : (s.setByte a v).obs = s.obs := rfl
@[simp] theorem State.setByte_ecc (a : Nat) (v : Byte) (s : State) : (s.setByte a v).ecc = s.ecc := rfl
@[simp] theorem State.setByte_ref (a : Nat) (v : Byte) (s : State) : (s.setByte a v).ref = s.ref := rfl
@[simp] theorem State.setByte_sec (a : Nat) (v : Byte) (s : State) : (s.setByte a v).sec = s.sec := rfl

@[simp] theorem State.setCore_part (k : CoreId) (c : PlelisCore) (s : State) : (s.setCore k c).part = s.part := by cases k <;> rfl
@[simp] theorem State.setCore_dieRev (k : CoreId) (c : PlelisCore) (s : State) : (s.setCore k c).dieRev = s.dieRev := by cases k <;> rfl
@[simp] theorem State.setCore_pending (k : CoreId) (c : PlelisCore) (s : State) : (s.setCore k c).pending = s.pending := by cases k <;> rfl
@[simp] theorem State.setCore_regs (k : CoreId) (c : PlelisCore) (s : State) : (s.setCore k c).regs = s.regs := by cases k <;> rfl
@[simp] theorem State.setCore_mem (k : CoreId) (c : PlelisCore) (s : State) : (s.setCore k c).mem = s.mem := by cases k <;> rfl
@[simp] theorem State.setCore_flash (k : CoreId) (c : PlelisCore) (s : State) : (s.setCore k c).flash = s.flash := by cases k <;> rfl
@[simp] theorem State.setCore_qc (k : CoreId) (c : PlelisCore) (s : State) : (s.setCore k c).qc = s.qc := by cases k <;> rfl
@[simp] theorem State.setCore_claims (k : CoreId) (c : PlelisCore) (s : State) : (s.setCore k c).claims = s.claims := by cases k <;> rfl
@[simp] theorem State.setCore_berth (k : CoreId) (c : PlelisCore) (s : State) : (s.setCore k c).berth = s.berth := by cases k <;> rfl
@[simp] theorem State.setCore_time (k : CoreId) (c : PlelisCore) (s : State) : (s.setCore k c).time = s.time := by cases k <;> rfl
@[simp] theorem State.setCore_hold (k : CoreId) (c : PlelisCore) (s : State) : (s.setCore k c).hold = s.hold := by cases k <;> rfl
@[simp] theorem State.setCore_pilot (k : CoreId) (c : PlelisCore) (s : State) : (s.setCore k c).pilot = s.pilot := by cases k <;> rfl
@[simp] theorem State.setCore_boot (k : CoreId) (c : PlelisCore) (s : State) : (s.setCore k c).boot = s.boot := by cases k <;> rfl
@[simp] theorem State.setCore_hws (k : CoreId) (c : PlelisCore) (s : State) : (s.setCore k c).hws = s.hws := by cases k <;> rfl
@[simp] theorem State.setCore_hif (k : CoreId) (c : PlelisCore) (s : State) : (s.setCore k c).hif = s.hif := by cases k <;> rfl
@[simp] theorem State.setCore_pins (k : CoreId) (c : PlelisCore) (s : State) : (s.setCore k c).pins = s.pins := by cases k <;> rfl
@[simp] theorem State.setCore_pwr (k : CoreId) (c : PlelisCore) (s : State) : (s.setCore k c).pwr = s.pwr := by cases k <;> rfl
@[simp] theorem State.setCore_free (k : CoreId) (c : PlelisCore) (s : State) : (s.setCore k c).free = s.free := by cases k <;> rfl
@[simp] theorem State.setCore_cph (k : CoreId) (c : PlelisCore) (s : State) : (s.setCore k c).cph = s.cph := by cases k <;> rfl
@[simp] theorem State.setCore_txA (k : CoreId) (c : PlelisCore) (s : State) : (s.setCore k c).txA = s.txA := by cases k <;> rfl
@[simp] theorem State.setCore_txB (k : CoreId) (c : PlelisCore) (s : State) : (s.setCore k c).txB = s.txB := by cases k <;> rfl
@[simp] theorem State.setCore_rxA (k : CoreId) (c : PlelisCore) (s : State) : (s.setCore k c).rxA = s.rxA := by cases k <;> rfl
@[simp] theorem State.setCore_rxB (k : CoreId) (c : PlelisCore) (s : State) : (s.setCore k c).rxB = s.rxB := by cases k <;> rfl
@[simp] theorem State.setCore_eqA (k : CoreId) (c : PlelisCore) (s : State) : (s.setCore k c).eqA = s.eqA := by cases k <;> rfl
@[simp] theorem State.setCore_eqB (k : CoreId) (c : PlelisCore) (s : State) : (s.setCore k c).eqB = s.eqB := by cases k <;> rfl
@[simp] theorem State.setCore_crA (k : CoreId) (c : PlelisCore) (s : State) : (s.setCore k c).crA = s.crA := by cases k <;> rfl
@[simp] theorem State.setCore_crB (k : CoreId) (c : PlelisCore) (s : State) : (s.setCore k c).crB = s.crB := by cases k <;> rfl
@[simp] theorem State.setCore_fecA (k : CoreId) (c : PlelisCore) (s : State) : (s.setCore k c).fecA = s.fecA := by cases k <;> rfl
@[simp] theorem State.setCore_fecB (k : CoreId) (c : PlelisCore) (s : State) : (s.setCore k c).fecB = s.fecB := by cases k <;> rfl
@[simp] theorem State.setCore_hailA (k : CoreId) (c : PlelisCore) (s : State) : (s.setCore k c).hailA = s.hailA := by cases k <;> rfl
@[simp] theorem State.setCore_hailB (k : CoreId) (c : PlelisCore) (s : State) : (s.setCore k c).hailB = s.hailB := by cases k <;> rfl
@[simp] theorem State.setCore_frmA (k : CoreId) (c : PlelisCore) (s : State) : (s.setCore k c).frmA = s.frmA := by cases k <;> rfl
@[simp] theorem State.setCore_frmB (k : CoreId) (c : PlelisCore) (s : State) : (s.setCore k c).frmB = s.frmB := by cases k <;> rfl
@[simp] theorem State.setCore_osp (k : CoreId) (c : PlelisCore) (s : State) : (s.setCore k c).osp = s.osp := by cases k <;> rfl
@[simp] theorem State.setCore_clm (k : CoreId) (c : PlelisCore) (s : State) : (s.setCore k c).clm = s.clm := by cases k <;> rfl
@[simp] theorem State.setCore_brt (k : CoreId) (c : PlelisCore) (s : State) : (s.setCore k c).brt = s.brt := by cases k <;> rfl
@[simp] theorem State.setCore_lanes (k : CoreId) (c : PlelisCore) (s : State) : (s.setCore k c).lanes = s.lanes := by cases k <;> rfl
@[simp] theorem State.setCore_mon (k : CoreId) (c : PlelisCore) (s : State) : (s.setCore k c).mon = s.mon := by cases k <;> rfl
@[simp] theorem State.setCore_anl (k : CoreId) (c : PlelisCore) (s : State) : (s.setCore k c).anl = s.anl := by cases k <;> rfl
@[simp] theorem State.setCore_log (k : CoreId) (c : PlelisCore) (s : State) : (s.setCore k c).log = s.log := by cases k <;> rfl
@[simp] theorem State.setCore_obs (k : CoreId) (c : PlelisCore) (s : State) : (s.setCore k c).obs = s.obs := by cases k <;> rfl
@[simp] theorem State.setCore_ecc (k : CoreId) (c : PlelisCore) (s : State) : (s.setCore k c).ecc = s.ecc := by cases k <;> rfl
@[simp] theorem State.setCore_ref (k : CoreId) (c : PlelisCore) (s : State) : (s.setCore k c).ref = s.ref := by cases k <;> rfl
@[simp] theorem State.setCore_sec (k : CoreId) (c : PlelisCore) (s : State) : (s.setCore k c).sec = s.sec := by cases k <;> rfl

@[simp] theorem State.modCore_part (k : CoreId) (f : PlelisCore → PlelisCore) (s : State) : (s.modCore k f).part = s.part := by cases k <;> rfl
@[simp] theorem State.modCore_dieRev (k : CoreId) (f : PlelisCore → PlelisCore) (s : State) : (s.modCore k f).dieRev = s.dieRev := by cases k <;> rfl
@[simp] theorem State.modCore_pending (k : CoreId) (f : PlelisCore → PlelisCore) (s : State) : (s.modCore k f).pending = s.pending := by cases k <;> rfl
@[simp] theorem State.modCore_regs (k : CoreId) (f : PlelisCore → PlelisCore) (s : State) : (s.modCore k f).regs = s.regs := by cases k <;> rfl
@[simp] theorem State.modCore_mem (k : CoreId) (f : PlelisCore → PlelisCore) (s : State) : (s.modCore k f).mem = s.mem := by cases k <;> rfl
@[simp] theorem State.modCore_flash (k : CoreId) (f : PlelisCore → PlelisCore) (s : State) : (s.modCore k f).flash = s.flash := by cases k <;> rfl
@[simp] theorem State.modCore_qc (k : CoreId) (f : PlelisCore → PlelisCore) (s : State) : (s.modCore k f).qc = s.qc := by cases k <;> rfl
@[simp] theorem State.modCore_claims (k : CoreId) (f : PlelisCore → PlelisCore) (s : State) : (s.modCore k f).claims = s.claims := by cases k <;> rfl
@[simp] theorem State.modCore_berth (k : CoreId) (f : PlelisCore → PlelisCore) (s : State) : (s.modCore k f).berth = s.berth := by cases k <;> rfl
@[simp] theorem State.modCore_time (k : CoreId) (f : PlelisCore → PlelisCore) (s : State) : (s.modCore k f).time = s.time := by cases k <;> rfl
@[simp] theorem State.modCore_hold (k : CoreId) (f : PlelisCore → PlelisCore) (s : State) : (s.modCore k f).hold = s.hold := by cases k <;> rfl
@[simp] theorem State.modCore_pilot (k : CoreId) (f : PlelisCore → PlelisCore) (s : State) : (s.modCore k f).pilot = s.pilot := by cases k <;> rfl
@[simp] theorem State.modCore_boot (k : CoreId) (f : PlelisCore → PlelisCore) (s : State) : (s.modCore k f).boot = s.boot := by cases k <;> rfl
@[simp] theorem State.modCore_hws (k : CoreId) (f : PlelisCore → PlelisCore) (s : State) : (s.modCore k f).hws = s.hws := by cases k <;> rfl
@[simp] theorem State.modCore_hif (k : CoreId) (f : PlelisCore → PlelisCore) (s : State) : (s.modCore k f).hif = s.hif := by cases k <;> rfl
@[simp] theorem State.modCore_pins (k : CoreId) (f : PlelisCore → PlelisCore) (s : State) : (s.modCore k f).pins = s.pins := by cases k <;> rfl
@[simp] theorem State.modCore_pwr (k : CoreId) (f : PlelisCore → PlelisCore) (s : State) : (s.modCore k f).pwr = s.pwr := by cases k <;> rfl
@[simp] theorem State.modCore_free (k : CoreId) (f : PlelisCore → PlelisCore) (s : State) : (s.modCore k f).free = s.free := by cases k <;> rfl
@[simp] theorem State.modCore_cph (k : CoreId) (f : PlelisCore → PlelisCore) (s : State) : (s.modCore k f).cph = s.cph := by cases k <;> rfl
@[simp] theorem State.modCore_txA (k : CoreId) (f : PlelisCore → PlelisCore) (s : State) : (s.modCore k f).txA = s.txA := by cases k <;> rfl
@[simp] theorem State.modCore_txB (k : CoreId) (f : PlelisCore → PlelisCore) (s : State) : (s.modCore k f).txB = s.txB := by cases k <;> rfl
@[simp] theorem State.modCore_rxA (k : CoreId) (f : PlelisCore → PlelisCore) (s : State) : (s.modCore k f).rxA = s.rxA := by cases k <;> rfl
@[simp] theorem State.modCore_rxB (k : CoreId) (f : PlelisCore → PlelisCore) (s : State) : (s.modCore k f).rxB = s.rxB := by cases k <;> rfl
@[simp] theorem State.modCore_eqA (k : CoreId) (f : PlelisCore → PlelisCore) (s : State) : (s.modCore k f).eqA = s.eqA := by cases k <;> rfl
@[simp] theorem State.modCore_eqB (k : CoreId) (f : PlelisCore → PlelisCore) (s : State) : (s.modCore k f).eqB = s.eqB := by cases k <;> rfl
@[simp] theorem State.modCore_crA (k : CoreId) (f : PlelisCore → PlelisCore) (s : State) : (s.modCore k f).crA = s.crA := by cases k <;> rfl
@[simp] theorem State.modCore_crB (k : CoreId) (f : PlelisCore → PlelisCore) (s : State) : (s.modCore k f).crB = s.crB := by cases k <;> rfl
@[simp] theorem State.modCore_fecA (k : CoreId) (f : PlelisCore → PlelisCore) (s : State) : (s.modCore k f).fecA = s.fecA := by cases k <;> rfl
@[simp] theorem State.modCore_fecB (k : CoreId) (f : PlelisCore → PlelisCore) (s : State) : (s.modCore k f).fecB = s.fecB := by cases k <;> rfl
@[simp] theorem State.modCore_hailA (k : CoreId) (f : PlelisCore → PlelisCore) (s : State) : (s.modCore k f).hailA = s.hailA := by cases k <;> rfl
@[simp] theorem State.modCore_hailB (k : CoreId) (f : PlelisCore → PlelisCore) (s : State) : (s.modCore k f).hailB = s.hailB := by cases k <;> rfl
@[simp] theorem State.modCore_frmA (k : CoreId) (f : PlelisCore → PlelisCore) (s : State) : (s.modCore k f).frmA = s.frmA := by cases k <;> rfl
@[simp] theorem State.modCore_frmB (k : CoreId) (f : PlelisCore → PlelisCore) (s : State) : (s.modCore k f).frmB = s.frmB := by cases k <;> rfl
@[simp] theorem State.modCore_osp (k : CoreId) (f : PlelisCore → PlelisCore) (s : State) : (s.modCore k f).osp = s.osp := by cases k <;> rfl
@[simp] theorem State.modCore_clm (k : CoreId) (f : PlelisCore → PlelisCore) (s : State) : (s.modCore k f).clm = s.clm := by cases k <;> rfl
@[simp] theorem State.modCore_brt (k : CoreId) (f : PlelisCore → PlelisCore) (s : State) : (s.modCore k f).brt = s.brt := by cases k <;> rfl
@[simp] theorem State.modCore_lanes (k : CoreId) (f : PlelisCore → PlelisCore) (s : State) : (s.modCore k f).lanes = s.lanes := by cases k <;> rfl
@[simp] theorem State.modCore_mon (k : CoreId) (f : PlelisCore → PlelisCore) (s : State) : (s.modCore k f).mon = s.mon := by cases k <;> rfl
@[simp] theorem State.modCore_anl (k : CoreId) (f : PlelisCore → PlelisCore) (s : State) : (s.modCore k f).anl = s.anl := by cases k <;> rfl
@[simp] theorem State.modCore_log (k : CoreId) (f : PlelisCore → PlelisCore) (s : State) : (s.modCore k f).log = s.log := by cases k <;> rfl
@[simp] theorem State.modCore_obs (k : CoreId) (f : PlelisCore → PlelisCore) (s : State) : (s.modCore k f).obs = s.obs := by cases k <;> rfl
@[simp] theorem State.modCore_ecc (k : CoreId) (f : PlelisCore → PlelisCore) (s : State) : (s.modCore k f).ecc = s.ecc := by cases k <;> rfl
@[simp] theorem State.modCore_ref (k : CoreId) (f : PlelisCore → PlelisCore) (s : State) : (s.modCore k f).ref = s.ref := by cases k <;> rfl
@[simp] theorem State.modCore_sec (k : CoreId) (f : PlelisCore → PlelisCore) (s : State) : (s.modCore k f).sec = s.sec := by cases k <;> rfl

@[simp] theorem State.eventBoth_part (k : CoreId) (b : Nat) (s : State) : (s.eventBoth k b).part = s.part := by cases k <;> rfl
@[simp] theorem State.eventBoth_dieRev (k : CoreId) (b : Nat) (s : State) : (s.eventBoth k b).dieRev = s.dieRev := by cases k <;> rfl
@[simp] theorem State.eventBoth_pending (k : CoreId) (b : Nat) (s : State) : (s.eventBoth k b).pending = s.pending := by cases k <;> rfl
@[simp] theorem State.eventBoth_regs (k : CoreId) (b : Nat) (s : State) : (s.eventBoth k b).regs = s.regs := by cases k <;> rfl
@[simp] theorem State.eventBoth_mem (k : CoreId) (b : Nat) (s : State) : (s.eventBoth k b).mem = s.mem := by cases k <;> rfl
@[simp] theorem State.eventBoth_flash (k : CoreId) (b : Nat) (s : State) : (s.eventBoth k b).flash = s.flash := by cases k <;> rfl
@[simp] theorem State.eventBoth_qc (k : CoreId) (b : Nat) (s : State) : (s.eventBoth k b).qc = s.qc := by cases k <;> rfl
@[simp] theorem State.eventBoth_claims (k : CoreId) (b : Nat) (s : State) : (s.eventBoth k b).claims = s.claims := by cases k <;> rfl
@[simp] theorem State.eventBoth_berth (k : CoreId) (b : Nat) (s : State) : (s.eventBoth k b).berth = s.berth := by cases k <;> rfl
@[simp] theorem State.eventBoth_time (k : CoreId) (b : Nat) (s : State) : (s.eventBoth k b).time = s.time := by cases k <;> rfl
@[simp] theorem State.eventBoth_hold (k : CoreId) (b : Nat) (s : State) : (s.eventBoth k b).hold = s.hold := by cases k <;> rfl
@[simp] theorem State.eventBoth_pilot (k : CoreId) (b : Nat) (s : State) : (s.eventBoth k b).pilot = s.pilot := by cases k <;> rfl
@[simp] theorem State.eventBoth_boot (k : CoreId) (b : Nat) (s : State) : (s.eventBoth k b).boot = s.boot := by cases k <;> rfl
@[simp] theorem State.eventBoth_hws (k : CoreId) (b : Nat) (s : State) : (s.eventBoth k b).hws = s.hws := by cases k <;> rfl
@[simp] theorem State.eventBoth_hif (k : CoreId) (b : Nat) (s : State) : (s.eventBoth k b).hif = s.hif := by cases k <;> rfl
@[simp] theorem State.eventBoth_pins (k : CoreId) (b : Nat) (s : State) : (s.eventBoth k b).pins = s.pins := by cases k <;> rfl
@[simp] theorem State.eventBoth_pwr (k : CoreId) (b : Nat) (s : State) : (s.eventBoth k b).pwr = s.pwr := by cases k <;> rfl
@[simp] theorem State.eventBoth_free (k : CoreId) (b : Nat) (s : State) : (s.eventBoth k b).free = s.free := by cases k <;> rfl
@[simp] theorem State.eventBoth_cph (k : CoreId) (b : Nat) (s : State) : (s.eventBoth k b).cph = s.cph := by cases k <;> rfl
@[simp] theorem State.eventBoth_txA (k : CoreId) (b : Nat) (s : State) : (s.eventBoth k b).txA = s.txA := by cases k <;> rfl
@[simp] theorem State.eventBoth_txB (k : CoreId) (b : Nat) (s : State) : (s.eventBoth k b).txB = s.txB := by cases k <;> rfl
@[simp] theorem State.eventBoth_rxA (k : CoreId) (b : Nat) (s : State) : (s.eventBoth k b).rxA = s.rxA := by cases k <;> rfl
@[simp] theorem State.eventBoth_rxB (k : CoreId) (b : Nat) (s : State) : (s.eventBoth k b).rxB = s.rxB := by cases k <;> rfl
@[simp] theorem State.eventBoth_eqA (k : CoreId) (b : Nat) (s : State) : (s.eventBoth k b).eqA = s.eqA := by cases k <;> rfl
@[simp] theorem State.eventBoth_eqB (k : CoreId) (b : Nat) (s : State) : (s.eventBoth k b).eqB = s.eqB := by cases k <;> rfl
@[simp] theorem State.eventBoth_crA (k : CoreId) (b : Nat) (s : State) : (s.eventBoth k b).crA = s.crA := by cases k <;> rfl
@[simp] theorem State.eventBoth_crB (k : CoreId) (b : Nat) (s : State) : (s.eventBoth k b).crB = s.crB := by cases k <;> rfl
@[simp] theorem State.eventBoth_fecA (k : CoreId) (b : Nat) (s : State) : (s.eventBoth k b).fecA = s.fecA := by cases k <;> rfl
@[simp] theorem State.eventBoth_fecB (k : CoreId) (b : Nat) (s : State) : (s.eventBoth k b).fecB = s.fecB := by cases k <;> rfl
@[simp] theorem State.eventBoth_hailA (k : CoreId) (b : Nat) (s : State) : (s.eventBoth k b).hailA = s.hailA := by cases k <;> rfl
@[simp] theorem State.eventBoth_hailB (k : CoreId) (b : Nat) (s : State) : (s.eventBoth k b).hailB = s.hailB := by cases k <;> rfl
@[simp] theorem State.eventBoth_frmA (k : CoreId) (b : Nat) (s : State) : (s.eventBoth k b).frmA = s.frmA := by cases k <;> rfl
@[simp] theorem State.eventBoth_frmB (k : CoreId) (b : Nat) (s : State) : (s.eventBoth k b).frmB = s.frmB := by cases k <;> rfl
@[simp] theorem State.eventBoth_osp (k : CoreId) (b : Nat) (s : State) : (s.eventBoth k b).osp = s.osp := by cases k <;> rfl
@[simp] theorem State.eventBoth_clm (k : CoreId) (b : Nat) (s : State) : (s.eventBoth k b).clm = s.clm := by cases k <;> rfl
@[simp] theorem State.eventBoth_brt (k : CoreId) (b : Nat) (s : State) : (s.eventBoth k b).brt = s.brt := by cases k <;> rfl
@[simp] theorem State.eventBoth_lanes (k : CoreId) (b : Nat) (s : State) : (s.eventBoth k b).lanes = s.lanes := by cases k <;> rfl
@[simp] theorem State.eventBoth_mon (k : CoreId) (b : Nat) (s : State) : (s.eventBoth k b).mon = s.mon := by cases k <;> rfl
@[simp] theorem State.eventBoth_anl (k : CoreId) (b : Nat) (s : State) : (s.eventBoth k b).anl = s.anl := by cases k <;> rfl
@[simp] theorem State.eventBoth_log (k : CoreId) (b : Nat) (s : State) : (s.eventBoth k b).log = s.log := by cases k <;> rfl
@[simp] theorem State.eventBoth_obs (k : CoreId) (b : Nat) (s : State) : (s.eventBoth k b).obs = s.obs := by cases k <;> rfl
@[simp] theorem State.eventBoth_ecc (k : CoreId) (b : Nat) (s : State) : (s.eventBoth k b).ecc = s.ecc := by cases k <;> rfl
@[simp] theorem State.eventBoth_ref (k : CoreId) (b : Nat) (s : State) : (s.eventBoth k b).ref = s.ref := by cases k <;> rfl
@[simp] theorem State.eventBoth_sec (k : CoreId) (b : Nat) (s : State) : (s.eventBoth k b).sec = s.sec := by cases k <;> rfl

@[simp] theorem State.eventAll_part (b : Nat) (s : State) : (s.eventAll b).part = s.part := rfl
@[simp] theorem State.eventAll_dieRev (b : Nat) (s : State) : (s.eventAll b).dieRev = s.dieRev := rfl
@[simp] theorem State.eventAll_pending (b : Nat) (s : State) : (s.eventAll b).pending = s.pending := rfl
@[simp] theorem State.eventAll_regs (b : Nat) (s : State) : (s.eventAll b).regs = s.regs := rfl
@[simp] theorem State.eventAll_mem (b : Nat) (s : State) : (s.eventAll b).mem = s.mem := rfl
@[simp] theorem State.eventAll_flash (b : Nat) (s : State) : (s.eventAll b).flash = s.flash := rfl
@[simp] theorem State.eventAll_qc (b : Nat) (s : State) : (s.eventAll b).qc = s.qc := rfl
@[simp] theorem State.eventAll_claims (b : Nat) (s : State) : (s.eventAll b).claims = s.claims := rfl
@[simp] theorem State.eventAll_berth (b : Nat) (s : State) : (s.eventAll b).berth = s.berth := rfl
@[simp] theorem State.eventAll_time (b : Nat) (s : State) : (s.eventAll b).time = s.time := rfl
@[simp] theorem State.eventAll_hold (b : Nat) (s : State) : (s.eventAll b).hold = s.hold := rfl
@[simp] theorem State.eventAll_pilot (b : Nat) (s : State) : (s.eventAll b).pilot = s.pilot := rfl
@[simp] theorem State.eventAll_boot (b : Nat) (s : State) : (s.eventAll b).boot = s.boot := rfl
@[simp] theorem State.eventAll_hws (b : Nat) (s : State) : (s.eventAll b).hws = s.hws := rfl
@[simp] theorem State.eventAll_hif (b : Nat) (s : State) : (s.eventAll b).hif = s.hif := rfl
@[simp] theorem State.eventAll_pins (b : Nat) (s : State) : (s.eventAll b).pins = s.pins := rfl
@[simp] theorem State.eventAll_pwr (b : Nat) (s : State) : (s.eventAll b).pwr = s.pwr := rfl
@[simp] theorem State.eventAll_free (b : Nat) (s : State) : (s.eventAll b).free = s.free := rfl
@[simp] theorem State.eventAll_cph (b : Nat) (s : State) : (s.eventAll b).cph = s.cph := rfl
@[simp] theorem State.eventAll_txA (b : Nat) (s : State) : (s.eventAll b).txA = s.txA := rfl
@[simp] theorem State.eventAll_txB (b : Nat) (s : State) : (s.eventAll b).txB = s.txB := rfl
@[simp] theorem State.eventAll_rxA (b : Nat) (s : State) : (s.eventAll b).rxA = s.rxA := rfl
@[simp] theorem State.eventAll_rxB (b : Nat) (s : State) : (s.eventAll b).rxB = s.rxB := rfl
@[simp] theorem State.eventAll_eqA (b : Nat) (s : State) : (s.eventAll b).eqA = s.eqA := rfl
@[simp] theorem State.eventAll_eqB (b : Nat) (s : State) : (s.eventAll b).eqB = s.eqB := rfl
@[simp] theorem State.eventAll_crA (b : Nat) (s : State) : (s.eventAll b).crA = s.crA := rfl
@[simp] theorem State.eventAll_crB (b : Nat) (s : State) : (s.eventAll b).crB = s.crB := rfl
@[simp] theorem State.eventAll_fecA (b : Nat) (s : State) : (s.eventAll b).fecA = s.fecA := rfl
@[simp] theorem State.eventAll_fecB (b : Nat) (s : State) : (s.eventAll b).fecB = s.fecB := rfl
@[simp] theorem State.eventAll_hailA (b : Nat) (s : State) : (s.eventAll b).hailA = s.hailA := rfl
@[simp] theorem State.eventAll_hailB (b : Nat) (s : State) : (s.eventAll b).hailB = s.hailB := rfl
@[simp] theorem State.eventAll_frmA (b : Nat) (s : State) : (s.eventAll b).frmA = s.frmA := rfl
@[simp] theorem State.eventAll_frmB (b : Nat) (s : State) : (s.eventAll b).frmB = s.frmB := rfl
@[simp] theorem State.eventAll_osp (b : Nat) (s : State) : (s.eventAll b).osp = s.osp := rfl
@[simp] theorem State.eventAll_clm (b : Nat) (s : State) : (s.eventAll b).clm = s.clm := rfl
@[simp] theorem State.eventAll_brt (b : Nat) (s : State) : (s.eventAll b).brt = s.brt := rfl
@[simp] theorem State.eventAll_lanes (b : Nat) (s : State) : (s.eventAll b).lanes = s.lanes := rfl
@[simp] theorem State.eventAll_mon (b : Nat) (s : State) : (s.eventAll b).mon = s.mon := rfl
@[simp] theorem State.eventAll_anl (b : Nat) (s : State) : (s.eventAll b).anl = s.anl := rfl
@[simp] theorem State.eventAll_log (b : Nat) (s : State) : (s.eventAll b).log = s.log := rfl
@[simp] theorem State.eventAll_obs (b : Nat) (s : State) : (s.eventAll b).obs = s.obs := rfl
@[simp] theorem State.eventAll_ecc (b : Nat) (s : State) : (s.eventAll b).ecc = s.ecc := rfl
@[simp] theorem State.eventAll_ref (b : Nat) (s : State) : (s.eventAll b).ref = s.ref := rfl
@[simp] theorem State.eventAll_sec (b : Nat) (s : State) : (s.eventAll b).sec = s.sec := rfl

@[simp] theorem State.setQueue_part (q : Fin 64) (x : Queue) (s : State) : (s.setQueue q x).part = s.part := rfl
@[simp] theorem State.setQueue_dieRev (q : Fin 64) (x : Queue) (s : State) : (s.setQueue q x).dieRev = s.dieRev := rfl
@[simp] theorem State.setQueue_pending (q : Fin 64) (x : Queue) (s : State) : (s.setQueue q x).pending = s.pending := rfl
@[simp] theorem State.setQueue_regs (q : Fin 64) (x : Queue) (s : State) : (s.setQueue q x).regs = s.regs := rfl
@[simp] theorem State.setQueue_mem (q : Fin 64) (x : Queue) (s : State) : (s.setQueue q x).mem = s.mem := rfl
@[simp] theorem State.setQueue_flash (q : Fin 64) (x : Queue) (s : State) : (s.setQueue q x).flash = s.flash := rfl
@[simp] theorem State.setQueue_coreA (q : Fin 64) (x : Queue) (s : State) : (s.setQueue q x).coreA = s.coreA := rfl
@[simp] theorem State.setQueue_coreB (q : Fin 64) (x : Queue) (s : State) : (s.setQueue q x).coreB = s.coreB := rfl
@[simp] theorem State.setQueue_claims (q : Fin 64) (x : Queue) (s : State) : (s.setQueue q x).claims = s.claims := rfl
@[simp] theorem State.setQueue_berth (q : Fin 64) (x : Queue) (s : State) : (s.setQueue q x).berth = s.berth := rfl
@[simp] theorem State.setQueue_time (q : Fin 64) (x : Queue) (s : State) : (s.setQueue q x).time = s.time := rfl
@[simp] theorem State.setQueue_hold (q : Fin 64) (x : Queue) (s : State) : (s.setQueue q x).hold = s.hold := rfl
@[simp] theorem State.setQueue_pilot (q : Fin 64) (x : Queue) (s : State) : (s.setQueue q x).pilot = s.pilot := rfl
@[simp] theorem State.setQueue_boot (q : Fin 64) (x : Queue) (s : State) : (s.setQueue q x).boot = s.boot := rfl
@[simp] theorem State.setQueue_hws (q : Fin 64) (x : Queue) (s : State) : (s.setQueue q x).hws = s.hws := rfl
@[simp] theorem State.setQueue_hif (q : Fin 64) (x : Queue) (s : State) : (s.setQueue q x).hif = s.hif := rfl
@[simp] theorem State.setQueue_pins (q : Fin 64) (x : Queue) (s : State) : (s.setQueue q x).pins = s.pins := rfl
@[simp] theorem State.setQueue_pwr (q : Fin 64) (x : Queue) (s : State) : (s.setQueue q x).pwr = s.pwr := rfl
@[simp] theorem State.setQueue_free (q : Fin 64) (x : Queue) (s : State) : (s.setQueue q x).free = s.free := rfl
@[simp] theorem State.setQueue_cph (q : Fin 64) (x : Queue) (s : State) : (s.setQueue q x).cph = s.cph := rfl
@[simp] theorem State.setQueue_txA (q : Fin 64) (x : Queue) (s : State) : (s.setQueue q x).txA = s.txA := rfl
@[simp] theorem State.setQueue_txB (q : Fin 64) (x : Queue) (s : State) : (s.setQueue q x).txB = s.txB := rfl
@[simp] theorem State.setQueue_rxA (q : Fin 64) (x : Queue) (s : State) : (s.setQueue q x).rxA = s.rxA := rfl
@[simp] theorem State.setQueue_rxB (q : Fin 64) (x : Queue) (s : State) : (s.setQueue q x).rxB = s.rxB := rfl
@[simp] theorem State.setQueue_eqA (q : Fin 64) (x : Queue) (s : State) : (s.setQueue q x).eqA = s.eqA := rfl
@[simp] theorem State.setQueue_eqB (q : Fin 64) (x : Queue) (s : State) : (s.setQueue q x).eqB = s.eqB := rfl
@[simp] theorem State.setQueue_crA (q : Fin 64) (x : Queue) (s : State) : (s.setQueue q x).crA = s.crA := rfl
@[simp] theorem State.setQueue_crB (q : Fin 64) (x : Queue) (s : State) : (s.setQueue q x).crB = s.crB := rfl
@[simp] theorem State.setQueue_fecA (q : Fin 64) (x : Queue) (s : State) : (s.setQueue q x).fecA = s.fecA := rfl
@[simp] theorem State.setQueue_fecB (q : Fin 64) (x : Queue) (s : State) : (s.setQueue q x).fecB = s.fecB := rfl
@[simp] theorem State.setQueue_hailA (q : Fin 64) (x : Queue) (s : State) : (s.setQueue q x).hailA = s.hailA := rfl
@[simp] theorem State.setQueue_hailB (q : Fin 64) (x : Queue) (s : State) : (s.setQueue q x).hailB = s.hailB := rfl
@[simp] theorem State.setQueue_frmA (q : Fin 64) (x : Queue) (s : State) : (s.setQueue q x).frmA = s.frmA := rfl
@[simp] theorem State.setQueue_frmB (q : Fin 64) (x : Queue) (s : State) : (s.setQueue q x).frmB = s.frmB := rfl
@[simp] theorem State.setQueue_osp (q : Fin 64) (x : Queue) (s : State) : (s.setQueue q x).osp = s.osp := rfl
@[simp] theorem State.setQueue_clm (q : Fin 64) (x : Queue) (s : State) : (s.setQueue q x).clm = s.clm := rfl
@[simp] theorem State.setQueue_brt (q : Fin 64) (x : Queue) (s : State) : (s.setQueue q x).brt = s.brt := rfl
@[simp] theorem State.setQueue_lanes (q : Fin 64) (x : Queue) (s : State) : (s.setQueue q x).lanes = s.lanes := rfl
@[simp] theorem State.setQueue_mon (q : Fin 64) (x : Queue) (s : State) : (s.setQueue q x).mon = s.mon := rfl
@[simp] theorem State.setQueue_anl (q : Fin 64) (x : Queue) (s : State) : (s.setQueue q x).anl = s.anl := rfl
@[simp] theorem State.setQueue_log (q : Fin 64) (x : Queue) (s : State) : (s.setQueue q x).log = s.log := rfl
@[simp] theorem State.setQueue_obs (q : Fin 64) (x : Queue) (s : State) : (s.setQueue q x).obs = s.obs := rfl
@[simp] theorem State.setQueue_ecc (q : Fin 64) (x : Queue) (s : State) : (s.setQueue q x).ecc = s.ecc := rfl
@[simp] theorem State.setQueue_ref (q : Fin 64) (x : Queue) (s : State) : (s.setQueue q x).ref = s.ref := rfl
@[simp] theorem State.setQueue_sec (q : Fin 64) (x : Queue) (s : State) : (s.setQueue q x).sec = s.sec := rfl

@[simp] theorem State.setTx_part (c : Carrier) (x : TxState) (s : State) : (s.setTx c x).part = s.part := by cases c <;> rfl
@[simp] theorem State.setTx_dieRev (c : Carrier) (x : TxState) (s : State) : (s.setTx c x).dieRev = s.dieRev := by cases c <;> rfl
@[simp] theorem State.setTx_pending (c : Carrier) (x : TxState) (s : State) : (s.setTx c x).pending = s.pending := by cases c <;> rfl
@[simp] theorem State.setTx_regs (c : Carrier) (x : TxState) (s : State) : (s.setTx c x).regs = s.regs := by cases c <;> rfl
@[simp] theorem State.setTx_mem (c : Carrier) (x : TxState) (s : State) : (s.setTx c x).mem = s.mem := by cases c <;> rfl
@[simp] theorem State.setTx_flash (c : Carrier) (x : TxState) (s : State) : (s.setTx c x).flash = s.flash := by cases c <;> rfl
@[simp] theorem State.setTx_coreA (c : Carrier) (x : TxState) (s : State) : (s.setTx c x).coreA = s.coreA := by cases c <;> rfl
@[simp] theorem State.setTx_coreB (c : Carrier) (x : TxState) (s : State) : (s.setTx c x).coreB = s.coreB := by cases c <;> rfl
@[simp] theorem State.setTx_qc (c : Carrier) (x : TxState) (s : State) : (s.setTx c x).qc = s.qc := by cases c <;> rfl
@[simp] theorem State.setTx_claims (c : Carrier) (x : TxState) (s : State) : (s.setTx c x).claims = s.claims := by cases c <;> rfl
@[simp] theorem State.setTx_berth (c : Carrier) (x : TxState) (s : State) : (s.setTx c x).berth = s.berth := by cases c <;> rfl
@[simp] theorem State.setTx_time (c : Carrier) (x : TxState) (s : State) : (s.setTx c x).time = s.time := by cases c <;> rfl
@[simp] theorem State.setTx_hold (c : Carrier) (x : TxState) (s : State) : (s.setTx c x).hold = s.hold := by cases c <;> rfl
@[simp] theorem State.setTx_pilot (c : Carrier) (x : TxState) (s : State) : (s.setTx c x).pilot = s.pilot := by cases c <;> rfl
@[simp] theorem State.setTx_boot (c : Carrier) (x : TxState) (s : State) : (s.setTx c x).boot = s.boot := by cases c <;> rfl
@[simp] theorem State.setTx_hws (c : Carrier) (x : TxState) (s : State) : (s.setTx c x).hws = s.hws := by cases c <;> rfl
@[simp] theorem State.setTx_hif (c : Carrier) (x : TxState) (s : State) : (s.setTx c x).hif = s.hif := by cases c <;> rfl
@[simp] theorem State.setTx_pins (c : Carrier) (x : TxState) (s : State) : (s.setTx c x).pins = s.pins := by cases c <;> rfl
@[simp] theorem State.setTx_pwr (c : Carrier) (x : TxState) (s : State) : (s.setTx c x).pwr = s.pwr := by cases c <;> rfl
@[simp] theorem State.setTx_free (c : Carrier) (x : TxState) (s : State) : (s.setTx c x).free = s.free := by cases c <;> rfl
@[simp] theorem State.setTx_cph (c : Carrier) (x : TxState) (s : State) : (s.setTx c x).cph = s.cph := by cases c <;> rfl
@[simp] theorem State.setTx_rxA (c : Carrier) (x : TxState) (s : State) : (s.setTx c x).rxA = s.rxA := by cases c <;> rfl
@[simp] theorem State.setTx_rxB (c : Carrier) (x : TxState) (s : State) : (s.setTx c x).rxB = s.rxB := by cases c <;> rfl
@[simp] theorem State.setTx_eqA (c : Carrier) (x : TxState) (s : State) : (s.setTx c x).eqA = s.eqA := by cases c <;> rfl
@[simp] theorem State.setTx_eqB (c : Carrier) (x : TxState) (s : State) : (s.setTx c x).eqB = s.eqB := by cases c <;> rfl
@[simp] theorem State.setTx_crA (c : Carrier) (x : TxState) (s : State) : (s.setTx c x).crA = s.crA := by cases c <;> rfl
@[simp] theorem State.setTx_crB (c : Carrier) (x : TxState) (s : State) : (s.setTx c x).crB = s.crB := by cases c <;> rfl
@[simp] theorem State.setTx_fecA (c : Carrier) (x : TxState) (s : State) : (s.setTx c x).fecA = s.fecA := by cases c <;> rfl
@[simp] theorem State.setTx_fecB (c : Carrier) (x : TxState) (s : State) : (s.setTx c x).fecB = s.fecB := by cases c <;> rfl
@[simp] theorem State.setTx_hailA (c : Carrier) (x : TxState) (s : State) : (s.setTx c x).hailA = s.hailA := by cases c <;> rfl
@[simp] theorem State.setTx_hailB (c : Carrier) (x : TxState) (s : State) : (s.setTx c x).hailB = s.hailB := by cases c <;> rfl
@[simp] theorem State.setTx_frmA (c : Carrier) (x : TxState) (s : State) : (s.setTx c x).frmA = s.frmA := by cases c <;> rfl
@[simp] theorem State.setTx_frmB (c : Carrier) (x : TxState) (s : State) : (s.setTx c x).frmB = s.frmB := by cases c <;> rfl
@[simp] theorem State.setTx_osp (c : Carrier) (x : TxState) (s : State) : (s.setTx c x).osp = s.osp := by cases c <;> rfl
@[simp] theorem State.setTx_clm (c : Carrier) (x : TxState) (s : State) : (s.setTx c x).clm = s.clm := by cases c <;> rfl
@[simp] theorem State.setTx_brt (c : Carrier) (x : TxState) (s : State) : (s.setTx c x).brt = s.brt := by cases c <;> rfl
@[simp] theorem State.setTx_lanes (c : Carrier) (x : TxState) (s : State) : (s.setTx c x).lanes = s.lanes := by cases c <;> rfl
@[simp] theorem State.setTx_mon (c : Carrier) (x : TxState) (s : State) : (s.setTx c x).mon = s.mon := by cases c <;> rfl
@[simp] theorem State.setTx_anl (c : Carrier) (x : TxState) (s : State) : (s.setTx c x).anl = s.anl := by cases c <;> rfl
@[simp] theorem State.setTx_log (c : Carrier) (x : TxState) (s : State) : (s.setTx c x).log = s.log := by cases c <;> rfl
@[simp] theorem State.setTx_obs (c : Carrier) (x : TxState) (s : State) : (s.setTx c x).obs = s.obs := by cases c <;> rfl
@[simp] theorem State.setTx_ecc (c : Carrier) (x : TxState) (s : State) : (s.setTx c x).ecc = s.ecc := by cases c <;> rfl
@[simp] theorem State.setTx_ref (c : Carrier) (x : TxState) (s : State) : (s.setTx c x).ref = s.ref := by cases c <;> rfl
@[simp] theorem State.setTx_sec (c : Carrier) (x : TxState) (s : State) : (s.setTx c x).sec = s.sec := by cases c <;> rfl

@[simp] theorem State.setRx_part (c : Carrier) (x : RxState) (s : State) : (s.setRx c x).part = s.part := by cases c <;> rfl
@[simp] theorem State.setRx_dieRev (c : Carrier) (x : RxState) (s : State) : (s.setRx c x).dieRev = s.dieRev := by cases c <;> rfl
@[simp] theorem State.setRx_pending (c : Carrier) (x : RxState) (s : State) : (s.setRx c x).pending = s.pending := by cases c <;> rfl
@[simp] theorem State.setRx_regs (c : Carrier) (x : RxState) (s : State) : (s.setRx c x).regs = s.regs := by cases c <;> rfl
@[simp] theorem State.setRx_mem (c : Carrier) (x : RxState) (s : State) : (s.setRx c x).mem = s.mem := by cases c <;> rfl
@[simp] theorem State.setRx_flash (c : Carrier) (x : RxState) (s : State) : (s.setRx c x).flash = s.flash := by cases c <;> rfl
@[simp] theorem State.setRx_coreA (c : Carrier) (x : RxState) (s : State) : (s.setRx c x).coreA = s.coreA := by cases c <;> rfl
@[simp] theorem State.setRx_coreB (c : Carrier) (x : RxState) (s : State) : (s.setRx c x).coreB = s.coreB := by cases c <;> rfl
@[simp] theorem State.setRx_qc (c : Carrier) (x : RxState) (s : State) : (s.setRx c x).qc = s.qc := by cases c <;> rfl
@[simp] theorem State.setRx_claims (c : Carrier) (x : RxState) (s : State) : (s.setRx c x).claims = s.claims := by cases c <;> rfl
@[simp] theorem State.setRx_berth (c : Carrier) (x : RxState) (s : State) : (s.setRx c x).berth = s.berth := by cases c <;> rfl
@[simp] theorem State.setRx_time (c : Carrier) (x : RxState) (s : State) : (s.setRx c x).time = s.time := by cases c <;> rfl
@[simp] theorem State.setRx_hold (c : Carrier) (x : RxState) (s : State) : (s.setRx c x).hold = s.hold := by cases c <;> rfl
@[simp] theorem State.setRx_pilot (c : Carrier) (x : RxState) (s : State) : (s.setRx c x).pilot = s.pilot := by cases c <;> rfl
@[simp] theorem State.setRx_boot (c : Carrier) (x : RxState) (s : State) : (s.setRx c x).boot = s.boot := by cases c <;> rfl
@[simp] theorem State.setRx_hws (c : Carrier) (x : RxState) (s : State) : (s.setRx c x).hws = s.hws := by cases c <;> rfl
@[simp] theorem State.setRx_hif (c : Carrier) (x : RxState) (s : State) : (s.setRx c x).hif = s.hif := by cases c <;> rfl
@[simp] theorem State.setRx_pins (c : Carrier) (x : RxState) (s : State) : (s.setRx c x).pins = s.pins := by cases c <;> rfl
@[simp] theorem State.setRx_pwr (c : Carrier) (x : RxState) (s : State) : (s.setRx c x).pwr = s.pwr := by cases c <;> rfl
@[simp] theorem State.setRx_free (c : Carrier) (x : RxState) (s : State) : (s.setRx c x).free = s.free := by cases c <;> rfl
@[simp] theorem State.setRx_cph (c : Carrier) (x : RxState) (s : State) : (s.setRx c x).cph = s.cph := by cases c <;> rfl
@[simp] theorem State.setRx_txA (c : Carrier) (x : RxState) (s : State) : (s.setRx c x).txA = s.txA := by cases c <;> rfl
@[simp] theorem State.setRx_txB (c : Carrier) (x : RxState) (s : State) : (s.setRx c x).txB = s.txB := by cases c <;> rfl
@[simp] theorem State.setRx_eqA (c : Carrier) (x : RxState) (s : State) : (s.setRx c x).eqA = s.eqA := by cases c <;> rfl
@[simp] theorem State.setRx_eqB (c : Carrier) (x : RxState) (s : State) : (s.setRx c x).eqB = s.eqB := by cases c <;> rfl
@[simp] theorem State.setRx_crA (c : Carrier) (x : RxState) (s : State) : (s.setRx c x).crA = s.crA := by cases c <;> rfl
@[simp] theorem State.setRx_crB (c : Carrier) (x : RxState) (s : State) : (s.setRx c x).crB = s.crB := by cases c <;> rfl
@[simp] theorem State.setRx_fecA (c : Carrier) (x : RxState) (s : State) : (s.setRx c x).fecA = s.fecA := by cases c <;> rfl
@[simp] theorem State.setRx_fecB (c : Carrier) (x : RxState) (s : State) : (s.setRx c x).fecB = s.fecB := by cases c <;> rfl
@[simp] theorem State.setRx_hailA (c : Carrier) (x : RxState) (s : State) : (s.setRx c x).hailA = s.hailA := by cases c <;> rfl
@[simp] theorem State.setRx_hailB (c : Carrier) (x : RxState) (s : State) : (s.setRx c x).hailB = s.hailB := by cases c <;> rfl
@[simp] theorem State.setRx_frmA (c : Carrier) (x : RxState) (s : State) : (s.setRx c x).frmA = s.frmA := by cases c <;> rfl
@[simp] theorem State.setRx_frmB (c : Carrier) (x : RxState) (s : State) : (s.setRx c x).frmB = s.frmB := by cases c <;> rfl
@[simp] theorem State.setRx_osp (c : Carrier) (x : RxState) (s : State) : (s.setRx c x).osp = s.osp := by cases c <;> rfl
@[simp] theorem State.setRx_clm (c : Carrier) (x : RxState) (s : State) : (s.setRx c x).clm = s.clm := by cases c <;> rfl
@[simp] theorem State.setRx_brt (c : Carrier) (x : RxState) (s : State) : (s.setRx c x).brt = s.brt := by cases c <;> rfl
@[simp] theorem State.setRx_lanes (c : Carrier) (x : RxState) (s : State) : (s.setRx c x).lanes = s.lanes := by cases c <;> rfl
@[simp] theorem State.setRx_mon (c : Carrier) (x : RxState) (s : State) : (s.setRx c x).mon = s.mon := by cases c <;> rfl
@[simp] theorem State.setRx_anl (c : Carrier) (x : RxState) (s : State) : (s.setRx c x).anl = s.anl := by cases c <;> rfl
@[simp] theorem State.setRx_log (c : Carrier) (x : RxState) (s : State) : (s.setRx c x).log = s.log := by cases c <;> rfl
@[simp] theorem State.setRx_obs (c : Carrier) (x : RxState) (s : State) : (s.setRx c x).obs = s.obs := by cases c <;> rfl
@[simp] theorem State.setRx_ecc (c : Carrier) (x : RxState) (s : State) : (s.setRx c x).ecc = s.ecc := by cases c <;> rfl
@[simp] theorem State.setRx_ref (c : Carrier) (x : RxState) (s : State) : (s.setRx c x).ref = s.ref := by cases c <;> rfl
@[simp] theorem State.setRx_sec (c : Carrier) (x : RxState) (s : State) : (s.setRx c x).sec = s.sec := by cases c <;> rfl

@[simp] theorem State.setEq_part (c : Carrier) (x : EqState) (s : State) : (s.setEq c x).part = s.part := by cases c <;> rfl
@[simp] theorem State.setEq_dieRev (c : Carrier) (x : EqState) (s : State) : (s.setEq c x).dieRev = s.dieRev := by cases c <;> rfl
@[simp] theorem State.setEq_pending (c : Carrier) (x : EqState) (s : State) : (s.setEq c x).pending = s.pending := by cases c <;> rfl
@[simp] theorem State.setEq_regs (c : Carrier) (x : EqState) (s : State) : (s.setEq c x).regs = s.regs := by cases c <;> rfl
@[simp] theorem State.setEq_mem (c : Carrier) (x : EqState) (s : State) : (s.setEq c x).mem = s.mem := by cases c <;> rfl
@[simp] theorem State.setEq_flash (c : Carrier) (x : EqState) (s : State) : (s.setEq c x).flash = s.flash := by cases c <;> rfl
@[simp] theorem State.setEq_coreA (c : Carrier) (x : EqState) (s : State) : (s.setEq c x).coreA = s.coreA := by cases c <;> rfl
@[simp] theorem State.setEq_coreB (c : Carrier) (x : EqState) (s : State) : (s.setEq c x).coreB = s.coreB := by cases c <;> rfl
@[simp] theorem State.setEq_qc (c : Carrier) (x : EqState) (s : State) : (s.setEq c x).qc = s.qc := by cases c <;> rfl
@[simp] theorem State.setEq_claims (c : Carrier) (x : EqState) (s : State) : (s.setEq c x).claims = s.claims := by cases c <;> rfl
@[simp] theorem State.setEq_berth (c : Carrier) (x : EqState) (s : State) : (s.setEq c x).berth = s.berth := by cases c <;> rfl
@[simp] theorem State.setEq_time (c : Carrier) (x : EqState) (s : State) : (s.setEq c x).time = s.time := by cases c <;> rfl
@[simp] theorem State.setEq_hold (c : Carrier) (x : EqState) (s : State) : (s.setEq c x).hold = s.hold := by cases c <;> rfl
@[simp] theorem State.setEq_pilot (c : Carrier) (x : EqState) (s : State) : (s.setEq c x).pilot = s.pilot := by cases c <;> rfl
@[simp] theorem State.setEq_boot (c : Carrier) (x : EqState) (s : State) : (s.setEq c x).boot = s.boot := by cases c <;> rfl
@[simp] theorem State.setEq_hws (c : Carrier) (x : EqState) (s : State) : (s.setEq c x).hws = s.hws := by cases c <;> rfl
@[simp] theorem State.setEq_hif (c : Carrier) (x : EqState) (s : State) : (s.setEq c x).hif = s.hif := by cases c <;> rfl
@[simp] theorem State.setEq_pins (c : Carrier) (x : EqState) (s : State) : (s.setEq c x).pins = s.pins := by cases c <;> rfl
@[simp] theorem State.setEq_pwr (c : Carrier) (x : EqState) (s : State) : (s.setEq c x).pwr = s.pwr := by cases c <;> rfl
@[simp] theorem State.setEq_free (c : Carrier) (x : EqState) (s : State) : (s.setEq c x).free = s.free := by cases c <;> rfl
@[simp] theorem State.setEq_cph (c : Carrier) (x : EqState) (s : State) : (s.setEq c x).cph = s.cph := by cases c <;> rfl
@[simp] theorem State.setEq_txA (c : Carrier) (x : EqState) (s : State) : (s.setEq c x).txA = s.txA := by cases c <;> rfl
@[simp] theorem State.setEq_txB (c : Carrier) (x : EqState) (s : State) : (s.setEq c x).txB = s.txB := by cases c <;> rfl
@[simp] theorem State.setEq_rxA (c : Carrier) (x : EqState) (s : State) : (s.setEq c x).rxA = s.rxA := by cases c <;> rfl
@[simp] theorem State.setEq_rxB (c : Carrier) (x : EqState) (s : State) : (s.setEq c x).rxB = s.rxB := by cases c <;> rfl
@[simp] theorem State.setEq_crA (c : Carrier) (x : EqState) (s : State) : (s.setEq c x).crA = s.crA := by cases c <;> rfl
@[simp] theorem State.setEq_crB (c : Carrier) (x : EqState) (s : State) : (s.setEq c x).crB = s.crB := by cases c <;> rfl
@[simp] theorem State.setEq_fecA (c : Carrier) (x : EqState) (s : State) : (s.setEq c x).fecA = s.fecA := by cases c <;> rfl
@[simp] theorem State.setEq_fecB (c : Carrier) (x : EqState) (s : State) : (s.setEq c x).fecB = s.fecB := by cases c <;> rfl
@[simp] theorem State.setEq_hailA (c : Carrier) (x : EqState) (s : State) : (s.setEq c x).hailA = s.hailA := by cases c <;> rfl
@[simp] theorem State.setEq_hailB (c : Carrier) (x : EqState) (s : State) : (s.setEq c x).hailB = s.hailB := by cases c <;> rfl
@[simp] theorem State.setEq_frmA (c : Carrier) (x : EqState) (s : State) : (s.setEq c x).frmA = s.frmA := by cases c <;> rfl
@[simp] theorem State.setEq_frmB (c : Carrier) (x : EqState) (s : State) : (s.setEq c x).frmB = s.frmB := by cases c <;> rfl
@[simp] theorem State.setEq_osp (c : Carrier) (x : EqState) (s : State) : (s.setEq c x).osp = s.osp := by cases c <;> rfl
@[simp] theorem State.setEq_clm (c : Carrier) (x : EqState) (s : State) : (s.setEq c x).clm = s.clm := by cases c <;> rfl
@[simp] theorem State.setEq_brt (c : Carrier) (x : EqState) (s : State) : (s.setEq c x).brt = s.brt := by cases c <;> rfl
@[simp] theorem State.setEq_lanes (c : Carrier) (x : EqState) (s : State) : (s.setEq c x).lanes = s.lanes := by cases c <;> rfl
@[simp] theorem State.setEq_mon (c : Carrier) (x : EqState) (s : State) : (s.setEq c x).mon = s.mon := by cases c <;> rfl
@[simp] theorem State.setEq_anl (c : Carrier) (x : EqState) (s : State) : (s.setEq c x).anl = s.anl := by cases c <;> rfl
@[simp] theorem State.setEq_log (c : Carrier) (x : EqState) (s : State) : (s.setEq c x).log = s.log := by cases c <;> rfl
@[simp] theorem State.setEq_obs (c : Carrier) (x : EqState) (s : State) : (s.setEq c x).obs = s.obs := by cases c <;> rfl
@[simp] theorem State.setEq_ecc (c : Carrier) (x : EqState) (s : State) : (s.setEq c x).ecc = s.ecc := by cases c <;> rfl
@[simp] theorem State.setEq_ref (c : Carrier) (x : EqState) (s : State) : (s.setEq c x).ref = s.ref := by cases c <;> rfl
@[simp] theorem State.setEq_sec (c : Carrier) (x : EqState) (s : State) : (s.setEq c x).sec = s.sec := by cases c <;> rfl

@[simp] theorem State.setCr_part (c : Carrier) (x : CrState) (s : State) : (s.setCr c x).part = s.part := by cases c <;> rfl
@[simp] theorem State.setCr_dieRev (c : Carrier) (x : CrState) (s : State) : (s.setCr c x).dieRev = s.dieRev := by cases c <;> rfl
@[simp] theorem State.setCr_pending (c : Carrier) (x : CrState) (s : State) : (s.setCr c x).pending = s.pending := by cases c <;> rfl
@[simp] theorem State.setCr_regs (c : Carrier) (x : CrState) (s : State) : (s.setCr c x).regs = s.regs := by cases c <;> rfl
@[simp] theorem State.setCr_mem (c : Carrier) (x : CrState) (s : State) : (s.setCr c x).mem = s.mem := by cases c <;> rfl
@[simp] theorem State.setCr_flash (c : Carrier) (x : CrState) (s : State) : (s.setCr c x).flash = s.flash := by cases c <;> rfl
@[simp] theorem State.setCr_coreA (c : Carrier) (x : CrState) (s : State) : (s.setCr c x).coreA = s.coreA := by cases c <;> rfl
@[simp] theorem State.setCr_coreB (c : Carrier) (x : CrState) (s : State) : (s.setCr c x).coreB = s.coreB := by cases c <;> rfl
@[simp] theorem State.setCr_qc (c : Carrier) (x : CrState) (s : State) : (s.setCr c x).qc = s.qc := by cases c <;> rfl
@[simp] theorem State.setCr_claims (c : Carrier) (x : CrState) (s : State) : (s.setCr c x).claims = s.claims := by cases c <;> rfl
@[simp] theorem State.setCr_berth (c : Carrier) (x : CrState) (s : State) : (s.setCr c x).berth = s.berth := by cases c <;> rfl
@[simp] theorem State.setCr_time (c : Carrier) (x : CrState) (s : State) : (s.setCr c x).time = s.time := by cases c <;> rfl
@[simp] theorem State.setCr_hold (c : Carrier) (x : CrState) (s : State) : (s.setCr c x).hold = s.hold := by cases c <;> rfl
@[simp] theorem State.setCr_pilot (c : Carrier) (x : CrState) (s : State) : (s.setCr c x).pilot = s.pilot := by cases c <;> rfl
@[simp] theorem State.setCr_boot (c : Carrier) (x : CrState) (s : State) : (s.setCr c x).boot = s.boot := by cases c <;> rfl
@[simp] theorem State.setCr_hws (c : Carrier) (x : CrState) (s : State) : (s.setCr c x).hws = s.hws := by cases c <;> rfl
@[simp] theorem State.setCr_hif (c : Carrier) (x : CrState) (s : State) : (s.setCr c x).hif = s.hif := by cases c <;> rfl
@[simp] theorem State.setCr_pins (c : Carrier) (x : CrState) (s : State) : (s.setCr c x).pins = s.pins := by cases c <;> rfl
@[simp] theorem State.setCr_pwr (c : Carrier) (x : CrState) (s : State) : (s.setCr c x).pwr = s.pwr := by cases c <;> rfl
@[simp] theorem State.setCr_free (c : Carrier) (x : CrState) (s : State) : (s.setCr c x).free = s.free := by cases c <;> rfl
@[simp] theorem State.setCr_cph (c : Carrier) (x : CrState) (s : State) : (s.setCr c x).cph = s.cph := by cases c <;> rfl
@[simp] theorem State.setCr_txA (c : Carrier) (x : CrState) (s : State) : (s.setCr c x).txA = s.txA := by cases c <;> rfl
@[simp] theorem State.setCr_txB (c : Carrier) (x : CrState) (s : State) : (s.setCr c x).txB = s.txB := by cases c <;> rfl
@[simp] theorem State.setCr_rxA (c : Carrier) (x : CrState) (s : State) : (s.setCr c x).rxA = s.rxA := by cases c <;> rfl
@[simp] theorem State.setCr_rxB (c : Carrier) (x : CrState) (s : State) : (s.setCr c x).rxB = s.rxB := by cases c <;> rfl
@[simp] theorem State.setCr_eqA (c : Carrier) (x : CrState) (s : State) : (s.setCr c x).eqA = s.eqA := by cases c <;> rfl
@[simp] theorem State.setCr_eqB (c : Carrier) (x : CrState) (s : State) : (s.setCr c x).eqB = s.eqB := by cases c <;> rfl
@[simp] theorem State.setCr_fecA (c : Carrier) (x : CrState) (s : State) : (s.setCr c x).fecA = s.fecA := by cases c <;> rfl
@[simp] theorem State.setCr_fecB (c : Carrier) (x : CrState) (s : State) : (s.setCr c x).fecB = s.fecB := by cases c <;> rfl
@[simp] theorem State.setCr_hailA (c : Carrier) (x : CrState) (s : State) : (s.setCr c x).hailA = s.hailA := by cases c <;> rfl
@[simp] theorem State.setCr_hailB (c : Carrier) (x : CrState) (s : State) : (s.setCr c x).hailB = s.hailB := by cases c <;> rfl
@[simp] theorem State.setCr_frmA (c : Carrier) (x : CrState) (s : State) : (s.setCr c x).frmA = s.frmA := by cases c <;> rfl
@[simp] theorem State.setCr_frmB (c : Carrier) (x : CrState) (s : State) : (s.setCr c x).frmB = s.frmB := by cases c <;> rfl
@[simp] theorem State.setCr_osp (c : Carrier) (x : CrState) (s : State) : (s.setCr c x).osp = s.osp := by cases c <;> rfl
@[simp] theorem State.setCr_clm (c : Carrier) (x : CrState) (s : State) : (s.setCr c x).clm = s.clm := by cases c <;> rfl
@[simp] theorem State.setCr_brt (c : Carrier) (x : CrState) (s : State) : (s.setCr c x).brt = s.brt := by cases c <;> rfl
@[simp] theorem State.setCr_lanes (c : Carrier) (x : CrState) (s : State) : (s.setCr c x).lanes = s.lanes := by cases c <;> rfl
@[simp] theorem State.setCr_mon (c : Carrier) (x : CrState) (s : State) : (s.setCr c x).mon = s.mon := by cases c <;> rfl
@[simp] theorem State.setCr_anl (c : Carrier) (x : CrState) (s : State) : (s.setCr c x).anl = s.anl := by cases c <;> rfl
@[simp] theorem State.setCr_log (c : Carrier) (x : CrState) (s : State) : (s.setCr c x).log = s.log := by cases c <;> rfl
@[simp] theorem State.setCr_obs (c : Carrier) (x : CrState) (s : State) : (s.setCr c x).obs = s.obs := by cases c <;> rfl
@[simp] theorem State.setCr_ecc (c : Carrier) (x : CrState) (s : State) : (s.setCr c x).ecc = s.ecc := by cases c <;> rfl
@[simp] theorem State.setCr_ref (c : Carrier) (x : CrState) (s : State) : (s.setCr c x).ref = s.ref := by cases c <;> rfl
@[simp] theorem State.setCr_sec (c : Carrier) (x : CrState) (s : State) : (s.setCr c x).sec = s.sec := by cases c <;> rfl

@[simp] theorem State.setFec_part (c : Carrier) (x : FecState) (s : State) : (s.setFec c x).part = s.part := by cases c <;> rfl
@[simp] theorem State.setFec_dieRev (c : Carrier) (x : FecState) (s : State) : (s.setFec c x).dieRev = s.dieRev := by cases c <;> rfl
@[simp] theorem State.setFec_pending (c : Carrier) (x : FecState) (s : State) : (s.setFec c x).pending = s.pending := by cases c <;> rfl
@[simp] theorem State.setFec_regs (c : Carrier) (x : FecState) (s : State) : (s.setFec c x).regs = s.regs := by cases c <;> rfl
@[simp] theorem State.setFec_mem (c : Carrier) (x : FecState) (s : State) : (s.setFec c x).mem = s.mem := by cases c <;> rfl
@[simp] theorem State.setFec_flash (c : Carrier) (x : FecState) (s : State) : (s.setFec c x).flash = s.flash := by cases c <;> rfl
@[simp] theorem State.setFec_coreA (c : Carrier) (x : FecState) (s : State) : (s.setFec c x).coreA = s.coreA := by cases c <;> rfl
@[simp] theorem State.setFec_coreB (c : Carrier) (x : FecState) (s : State) : (s.setFec c x).coreB = s.coreB := by cases c <;> rfl
@[simp] theorem State.setFec_qc (c : Carrier) (x : FecState) (s : State) : (s.setFec c x).qc = s.qc := by cases c <;> rfl
@[simp] theorem State.setFec_claims (c : Carrier) (x : FecState) (s : State) : (s.setFec c x).claims = s.claims := by cases c <;> rfl
@[simp] theorem State.setFec_berth (c : Carrier) (x : FecState) (s : State) : (s.setFec c x).berth = s.berth := by cases c <;> rfl
@[simp] theorem State.setFec_time (c : Carrier) (x : FecState) (s : State) : (s.setFec c x).time = s.time := by cases c <;> rfl
@[simp] theorem State.setFec_hold (c : Carrier) (x : FecState) (s : State) : (s.setFec c x).hold = s.hold := by cases c <;> rfl
@[simp] theorem State.setFec_pilot (c : Carrier) (x : FecState) (s : State) : (s.setFec c x).pilot = s.pilot := by cases c <;> rfl
@[simp] theorem State.setFec_boot (c : Carrier) (x : FecState) (s : State) : (s.setFec c x).boot = s.boot := by cases c <;> rfl
@[simp] theorem State.setFec_hws (c : Carrier) (x : FecState) (s : State) : (s.setFec c x).hws = s.hws := by cases c <;> rfl
@[simp] theorem State.setFec_hif (c : Carrier) (x : FecState) (s : State) : (s.setFec c x).hif = s.hif := by cases c <;> rfl
@[simp] theorem State.setFec_pins (c : Carrier) (x : FecState) (s : State) : (s.setFec c x).pins = s.pins := by cases c <;> rfl
@[simp] theorem State.setFec_pwr (c : Carrier) (x : FecState) (s : State) : (s.setFec c x).pwr = s.pwr := by cases c <;> rfl
@[simp] theorem State.setFec_free (c : Carrier) (x : FecState) (s : State) : (s.setFec c x).free = s.free := by cases c <;> rfl
@[simp] theorem State.setFec_cph (c : Carrier) (x : FecState) (s : State) : (s.setFec c x).cph = s.cph := by cases c <;> rfl
@[simp] theorem State.setFec_txA (c : Carrier) (x : FecState) (s : State) : (s.setFec c x).txA = s.txA := by cases c <;> rfl
@[simp] theorem State.setFec_txB (c : Carrier) (x : FecState) (s : State) : (s.setFec c x).txB = s.txB := by cases c <;> rfl
@[simp] theorem State.setFec_rxA (c : Carrier) (x : FecState) (s : State) : (s.setFec c x).rxA = s.rxA := by cases c <;> rfl
@[simp] theorem State.setFec_rxB (c : Carrier) (x : FecState) (s : State) : (s.setFec c x).rxB = s.rxB := by cases c <;> rfl
@[simp] theorem State.setFec_eqA (c : Carrier) (x : FecState) (s : State) : (s.setFec c x).eqA = s.eqA := by cases c <;> rfl
@[simp] theorem State.setFec_eqB (c : Carrier) (x : FecState) (s : State) : (s.setFec c x).eqB = s.eqB := by cases c <;> rfl
@[simp] theorem State.setFec_crA (c : Carrier) (x : FecState) (s : State) : (s.setFec c x).crA = s.crA := by cases c <;> rfl
@[simp] theorem State.setFec_crB (c : Carrier) (x : FecState) (s : State) : (s.setFec c x).crB = s.crB := by cases c <;> rfl
@[simp] theorem State.setFec_hailA (c : Carrier) (x : FecState) (s : State) : (s.setFec c x).hailA = s.hailA := by cases c <;> rfl
@[simp] theorem State.setFec_hailB (c : Carrier) (x : FecState) (s : State) : (s.setFec c x).hailB = s.hailB := by cases c <;> rfl
@[simp] theorem State.setFec_frmA (c : Carrier) (x : FecState) (s : State) : (s.setFec c x).frmA = s.frmA := by cases c <;> rfl
@[simp] theorem State.setFec_frmB (c : Carrier) (x : FecState) (s : State) : (s.setFec c x).frmB = s.frmB := by cases c <;> rfl
@[simp] theorem State.setFec_osp (c : Carrier) (x : FecState) (s : State) : (s.setFec c x).osp = s.osp := by cases c <;> rfl
@[simp] theorem State.setFec_clm (c : Carrier) (x : FecState) (s : State) : (s.setFec c x).clm = s.clm := by cases c <;> rfl
@[simp] theorem State.setFec_brt (c : Carrier) (x : FecState) (s : State) : (s.setFec c x).brt = s.brt := by cases c <;> rfl
@[simp] theorem State.setFec_lanes (c : Carrier) (x : FecState) (s : State) : (s.setFec c x).lanes = s.lanes := by cases c <;> rfl
@[simp] theorem State.setFec_mon (c : Carrier) (x : FecState) (s : State) : (s.setFec c x).mon = s.mon := by cases c <;> rfl
@[simp] theorem State.setFec_anl (c : Carrier) (x : FecState) (s : State) : (s.setFec c x).anl = s.anl := by cases c <;> rfl
@[simp] theorem State.setFec_log (c : Carrier) (x : FecState) (s : State) : (s.setFec c x).log = s.log := by cases c <;> rfl
@[simp] theorem State.setFec_obs (c : Carrier) (x : FecState) (s : State) : (s.setFec c x).obs = s.obs := by cases c <;> rfl
@[simp] theorem State.setFec_ecc (c : Carrier) (x : FecState) (s : State) : (s.setFec c x).ecc = s.ecc := by cases c <;> rfl
@[simp] theorem State.setFec_ref (c : Carrier) (x : FecState) (s : State) : (s.setFec c x).ref = s.ref := by cases c <;> rfl
@[simp] theorem State.setFec_sec (c : Carrier) (x : FecState) (s : State) : (s.setFec c x).sec = s.sec := by cases c <;> rfl

@[simp] theorem State.setHail_part (c : Carrier) (x : HailState) (s : State) : (s.setHail c x).part = s.part := by cases c <;> rfl
@[simp] theorem State.setHail_dieRev (c : Carrier) (x : HailState) (s : State) : (s.setHail c x).dieRev = s.dieRev := by cases c <;> rfl
@[simp] theorem State.setHail_pending (c : Carrier) (x : HailState) (s : State) : (s.setHail c x).pending = s.pending := by cases c <;> rfl
@[simp] theorem State.setHail_regs (c : Carrier) (x : HailState) (s : State) : (s.setHail c x).regs = s.regs := by cases c <;> rfl
@[simp] theorem State.setHail_mem (c : Carrier) (x : HailState) (s : State) : (s.setHail c x).mem = s.mem := by cases c <;> rfl
@[simp] theorem State.setHail_flash (c : Carrier) (x : HailState) (s : State) : (s.setHail c x).flash = s.flash := by cases c <;> rfl
@[simp] theorem State.setHail_coreA (c : Carrier) (x : HailState) (s : State) : (s.setHail c x).coreA = s.coreA := by cases c <;> rfl
@[simp] theorem State.setHail_coreB (c : Carrier) (x : HailState) (s : State) : (s.setHail c x).coreB = s.coreB := by cases c <;> rfl
@[simp] theorem State.setHail_qc (c : Carrier) (x : HailState) (s : State) : (s.setHail c x).qc = s.qc := by cases c <;> rfl
@[simp] theorem State.setHail_claims (c : Carrier) (x : HailState) (s : State) : (s.setHail c x).claims = s.claims := by cases c <;> rfl
@[simp] theorem State.setHail_berth (c : Carrier) (x : HailState) (s : State) : (s.setHail c x).berth = s.berth := by cases c <;> rfl
@[simp] theorem State.setHail_time (c : Carrier) (x : HailState) (s : State) : (s.setHail c x).time = s.time := by cases c <;> rfl
@[simp] theorem State.setHail_hold (c : Carrier) (x : HailState) (s : State) : (s.setHail c x).hold = s.hold := by cases c <;> rfl
@[simp] theorem State.setHail_pilot (c : Carrier) (x : HailState) (s : State) : (s.setHail c x).pilot = s.pilot := by cases c <;> rfl
@[simp] theorem State.setHail_boot (c : Carrier) (x : HailState) (s : State) : (s.setHail c x).boot = s.boot := by cases c <;> rfl
@[simp] theorem State.setHail_hws (c : Carrier) (x : HailState) (s : State) : (s.setHail c x).hws = s.hws := by cases c <;> rfl
@[simp] theorem State.setHail_hif (c : Carrier) (x : HailState) (s : State) : (s.setHail c x).hif = s.hif := by cases c <;> rfl
@[simp] theorem State.setHail_pins (c : Carrier) (x : HailState) (s : State) : (s.setHail c x).pins = s.pins := by cases c <;> rfl
@[simp] theorem State.setHail_pwr (c : Carrier) (x : HailState) (s : State) : (s.setHail c x).pwr = s.pwr := by cases c <;> rfl
@[simp] theorem State.setHail_free (c : Carrier) (x : HailState) (s : State) : (s.setHail c x).free = s.free := by cases c <;> rfl
@[simp] theorem State.setHail_cph (c : Carrier) (x : HailState) (s : State) : (s.setHail c x).cph = s.cph := by cases c <;> rfl
@[simp] theorem State.setHail_txA (c : Carrier) (x : HailState) (s : State) : (s.setHail c x).txA = s.txA := by cases c <;> rfl
@[simp] theorem State.setHail_txB (c : Carrier) (x : HailState) (s : State) : (s.setHail c x).txB = s.txB := by cases c <;> rfl
@[simp] theorem State.setHail_rxA (c : Carrier) (x : HailState) (s : State) : (s.setHail c x).rxA = s.rxA := by cases c <;> rfl
@[simp] theorem State.setHail_rxB (c : Carrier) (x : HailState) (s : State) : (s.setHail c x).rxB = s.rxB := by cases c <;> rfl
@[simp] theorem State.setHail_eqA (c : Carrier) (x : HailState) (s : State) : (s.setHail c x).eqA = s.eqA := by cases c <;> rfl
@[simp] theorem State.setHail_eqB (c : Carrier) (x : HailState) (s : State) : (s.setHail c x).eqB = s.eqB := by cases c <;> rfl
@[simp] theorem State.setHail_crA (c : Carrier) (x : HailState) (s : State) : (s.setHail c x).crA = s.crA := by cases c <;> rfl
@[simp] theorem State.setHail_crB (c : Carrier) (x : HailState) (s : State) : (s.setHail c x).crB = s.crB := by cases c <;> rfl
@[simp] theorem State.setHail_fecA (c : Carrier) (x : HailState) (s : State) : (s.setHail c x).fecA = s.fecA := by cases c <;> rfl
@[simp] theorem State.setHail_fecB (c : Carrier) (x : HailState) (s : State) : (s.setHail c x).fecB = s.fecB := by cases c <;> rfl
@[simp] theorem State.setHail_frmA (c : Carrier) (x : HailState) (s : State) : (s.setHail c x).frmA = s.frmA := by cases c <;> rfl
@[simp] theorem State.setHail_frmB (c : Carrier) (x : HailState) (s : State) : (s.setHail c x).frmB = s.frmB := by cases c <;> rfl
@[simp] theorem State.setHail_osp (c : Carrier) (x : HailState) (s : State) : (s.setHail c x).osp = s.osp := by cases c <;> rfl
@[simp] theorem State.setHail_clm (c : Carrier) (x : HailState) (s : State) : (s.setHail c x).clm = s.clm := by cases c <;> rfl
@[simp] theorem State.setHail_brt (c : Carrier) (x : HailState) (s : State) : (s.setHail c x).brt = s.brt := by cases c <;> rfl
@[simp] theorem State.setHail_lanes (c : Carrier) (x : HailState) (s : State) : (s.setHail c x).lanes = s.lanes := by cases c <;> rfl
@[simp] theorem State.setHail_mon (c : Carrier) (x : HailState) (s : State) : (s.setHail c x).mon = s.mon := by cases c <;> rfl
@[simp] theorem State.setHail_anl (c : Carrier) (x : HailState) (s : State) : (s.setHail c x).anl = s.anl := by cases c <;> rfl
@[simp] theorem State.setHail_log (c : Carrier) (x : HailState) (s : State) : (s.setHail c x).log = s.log := by cases c <;> rfl
@[simp] theorem State.setHail_obs (c : Carrier) (x : HailState) (s : State) : (s.setHail c x).obs = s.obs := by cases c <;> rfl
@[simp] theorem State.setHail_ecc (c : Carrier) (x : HailState) (s : State) : (s.setHail c x).ecc = s.ecc := by cases c <;> rfl
@[simp] theorem State.setHail_ref (c : Carrier) (x : HailState) (s : State) : (s.setHail c x).ref = s.ref := by cases c <;> rfl
@[simp] theorem State.setHail_sec (c : Carrier) (x : HailState) (s : State) : (s.setHail c x).sec = s.sec := by cases c <;> rfl

@[simp] theorem State.setFrm_part (c : Carrier) (x : FrmState) (s : State) : (s.setFrm c x).part = s.part := by cases c <;> rfl
@[simp] theorem State.setFrm_dieRev (c : Carrier) (x : FrmState) (s : State) : (s.setFrm c x).dieRev = s.dieRev := by cases c <;> rfl
@[simp] theorem State.setFrm_pending (c : Carrier) (x : FrmState) (s : State) : (s.setFrm c x).pending = s.pending := by cases c <;> rfl
@[simp] theorem State.setFrm_regs (c : Carrier) (x : FrmState) (s : State) : (s.setFrm c x).regs = s.regs := by cases c <;> rfl
@[simp] theorem State.setFrm_mem (c : Carrier) (x : FrmState) (s : State) : (s.setFrm c x).mem = s.mem := by cases c <;> rfl
@[simp] theorem State.setFrm_flash (c : Carrier) (x : FrmState) (s : State) : (s.setFrm c x).flash = s.flash := by cases c <;> rfl
@[simp] theorem State.setFrm_coreA (c : Carrier) (x : FrmState) (s : State) : (s.setFrm c x).coreA = s.coreA := by cases c <;> rfl
@[simp] theorem State.setFrm_coreB (c : Carrier) (x : FrmState) (s : State) : (s.setFrm c x).coreB = s.coreB := by cases c <;> rfl
@[simp] theorem State.setFrm_qc (c : Carrier) (x : FrmState) (s : State) : (s.setFrm c x).qc = s.qc := by cases c <;> rfl
@[simp] theorem State.setFrm_claims (c : Carrier) (x : FrmState) (s : State) : (s.setFrm c x).claims = s.claims := by cases c <;> rfl
@[simp] theorem State.setFrm_berth (c : Carrier) (x : FrmState) (s : State) : (s.setFrm c x).berth = s.berth := by cases c <;> rfl
@[simp] theorem State.setFrm_time (c : Carrier) (x : FrmState) (s : State) : (s.setFrm c x).time = s.time := by cases c <;> rfl
@[simp] theorem State.setFrm_hold (c : Carrier) (x : FrmState) (s : State) : (s.setFrm c x).hold = s.hold := by cases c <;> rfl
@[simp] theorem State.setFrm_pilot (c : Carrier) (x : FrmState) (s : State) : (s.setFrm c x).pilot = s.pilot := by cases c <;> rfl
@[simp] theorem State.setFrm_boot (c : Carrier) (x : FrmState) (s : State) : (s.setFrm c x).boot = s.boot := by cases c <;> rfl
@[simp] theorem State.setFrm_hws (c : Carrier) (x : FrmState) (s : State) : (s.setFrm c x).hws = s.hws := by cases c <;> rfl
@[simp] theorem State.setFrm_hif (c : Carrier) (x : FrmState) (s : State) : (s.setFrm c x).hif = s.hif := by cases c <;> rfl
@[simp] theorem State.setFrm_pins (c : Carrier) (x : FrmState) (s : State) : (s.setFrm c x).pins = s.pins := by cases c <;> rfl
@[simp] theorem State.setFrm_pwr (c : Carrier) (x : FrmState) (s : State) : (s.setFrm c x).pwr = s.pwr := by cases c <;> rfl
@[simp] theorem State.setFrm_free (c : Carrier) (x : FrmState) (s : State) : (s.setFrm c x).free = s.free := by cases c <;> rfl
@[simp] theorem State.setFrm_cph (c : Carrier) (x : FrmState) (s : State) : (s.setFrm c x).cph = s.cph := by cases c <;> rfl
@[simp] theorem State.setFrm_txA (c : Carrier) (x : FrmState) (s : State) : (s.setFrm c x).txA = s.txA := by cases c <;> rfl
@[simp] theorem State.setFrm_txB (c : Carrier) (x : FrmState) (s : State) : (s.setFrm c x).txB = s.txB := by cases c <;> rfl
@[simp] theorem State.setFrm_rxA (c : Carrier) (x : FrmState) (s : State) : (s.setFrm c x).rxA = s.rxA := by cases c <;> rfl
@[simp] theorem State.setFrm_rxB (c : Carrier) (x : FrmState) (s : State) : (s.setFrm c x).rxB = s.rxB := by cases c <;> rfl
@[simp] theorem State.setFrm_eqA (c : Carrier) (x : FrmState) (s : State) : (s.setFrm c x).eqA = s.eqA := by cases c <;> rfl
@[simp] theorem State.setFrm_eqB (c : Carrier) (x : FrmState) (s : State) : (s.setFrm c x).eqB = s.eqB := by cases c <;> rfl
@[simp] theorem State.setFrm_crA (c : Carrier) (x : FrmState) (s : State) : (s.setFrm c x).crA = s.crA := by cases c <;> rfl
@[simp] theorem State.setFrm_crB (c : Carrier) (x : FrmState) (s : State) : (s.setFrm c x).crB = s.crB := by cases c <;> rfl
@[simp] theorem State.setFrm_fecA (c : Carrier) (x : FrmState) (s : State) : (s.setFrm c x).fecA = s.fecA := by cases c <;> rfl
@[simp] theorem State.setFrm_fecB (c : Carrier) (x : FrmState) (s : State) : (s.setFrm c x).fecB = s.fecB := by cases c <;> rfl
@[simp] theorem State.setFrm_hailA (c : Carrier) (x : FrmState) (s : State) : (s.setFrm c x).hailA = s.hailA := by cases c <;> rfl
@[simp] theorem State.setFrm_hailB (c : Carrier) (x : FrmState) (s : State) : (s.setFrm c x).hailB = s.hailB := by cases c <;> rfl
@[simp] theorem State.setFrm_osp (c : Carrier) (x : FrmState) (s : State) : (s.setFrm c x).osp = s.osp := by cases c <;> rfl
@[simp] theorem State.setFrm_clm (c : Carrier) (x : FrmState) (s : State) : (s.setFrm c x).clm = s.clm := by cases c <;> rfl
@[simp] theorem State.setFrm_brt (c : Carrier) (x : FrmState) (s : State) : (s.setFrm c x).brt = s.brt := by cases c <;> rfl
@[simp] theorem State.setFrm_lanes (c : Carrier) (x : FrmState) (s : State) : (s.setFrm c x).lanes = s.lanes := by cases c <;> rfl
@[simp] theorem State.setFrm_mon (c : Carrier) (x : FrmState) (s : State) : (s.setFrm c x).mon = s.mon := by cases c <;> rfl
@[simp] theorem State.setFrm_anl (c : Carrier) (x : FrmState) (s : State) : (s.setFrm c x).anl = s.anl := by cases c <;> rfl
@[simp] theorem State.setFrm_log (c : Carrier) (x : FrmState) (s : State) : (s.setFrm c x).log = s.log := by cases c <;> rfl
@[simp] theorem State.setFrm_obs (c : Carrier) (x : FrmState) (s : State) : (s.setFrm c x).obs = s.obs := by cases c <;> rfl
@[simp] theorem State.setFrm_ecc (c : Carrier) (x : FrmState) (s : State) : (s.setFrm c x).ecc = s.ecc := by cases c <;> rfl
@[simp] theorem State.setFrm_ref (c : Carrier) (x : FrmState) (s : State) : (s.setFrm c x).ref = s.ref := by cases c <;> rfl
@[simp] theorem State.setFrm_sec (c : Carrier) (x : FrmState) (s : State) : (s.setFrm c x).sec = s.sec := by cases c <;> rfl

@[simp] theorem State.setCphCar_part (c : Carrier) (x : CphCarrier) (s : State) : (s.setCphCar c x).part = s.part := by cases c <;> rfl
@[simp] theorem State.setCphCar_dieRev (c : Carrier) (x : CphCarrier) (s : State) : (s.setCphCar c x).dieRev = s.dieRev := by cases c <;> rfl
@[simp] theorem State.setCphCar_pending (c : Carrier) (x : CphCarrier) (s : State) : (s.setCphCar c x).pending = s.pending := by cases c <;> rfl
@[simp] theorem State.setCphCar_regs (c : Carrier) (x : CphCarrier) (s : State) : (s.setCphCar c x).regs = s.regs := by cases c <;> rfl
@[simp] theorem State.setCphCar_mem (c : Carrier) (x : CphCarrier) (s : State) : (s.setCphCar c x).mem = s.mem := by cases c <;> rfl
@[simp] theorem State.setCphCar_flash (c : Carrier) (x : CphCarrier) (s : State) : (s.setCphCar c x).flash = s.flash := by cases c <;> rfl
@[simp] theorem State.setCphCar_coreA (c : Carrier) (x : CphCarrier) (s : State) : (s.setCphCar c x).coreA = s.coreA := by cases c <;> rfl
@[simp] theorem State.setCphCar_coreB (c : Carrier) (x : CphCarrier) (s : State) : (s.setCphCar c x).coreB = s.coreB := by cases c <;> rfl
@[simp] theorem State.setCphCar_qc (c : Carrier) (x : CphCarrier) (s : State) : (s.setCphCar c x).qc = s.qc := by cases c <;> rfl
@[simp] theorem State.setCphCar_claims (c : Carrier) (x : CphCarrier) (s : State) : (s.setCphCar c x).claims = s.claims := by cases c <;> rfl
@[simp] theorem State.setCphCar_berth (c : Carrier) (x : CphCarrier) (s : State) : (s.setCphCar c x).berth = s.berth := by cases c <;> rfl
@[simp] theorem State.setCphCar_time (c : Carrier) (x : CphCarrier) (s : State) : (s.setCphCar c x).time = s.time := by cases c <;> rfl
@[simp] theorem State.setCphCar_hold (c : Carrier) (x : CphCarrier) (s : State) : (s.setCphCar c x).hold = s.hold := by cases c <;> rfl
@[simp] theorem State.setCphCar_pilot (c : Carrier) (x : CphCarrier) (s : State) : (s.setCphCar c x).pilot = s.pilot := by cases c <;> rfl
@[simp] theorem State.setCphCar_boot (c : Carrier) (x : CphCarrier) (s : State) : (s.setCphCar c x).boot = s.boot := by cases c <;> rfl
@[simp] theorem State.setCphCar_hws (c : Carrier) (x : CphCarrier) (s : State) : (s.setCphCar c x).hws = s.hws := by cases c <;> rfl
@[simp] theorem State.setCphCar_hif (c : Carrier) (x : CphCarrier) (s : State) : (s.setCphCar c x).hif = s.hif := by cases c <;> rfl
@[simp] theorem State.setCphCar_pins (c : Carrier) (x : CphCarrier) (s : State) : (s.setCphCar c x).pins = s.pins := by cases c <;> rfl
@[simp] theorem State.setCphCar_pwr (c : Carrier) (x : CphCarrier) (s : State) : (s.setCphCar c x).pwr = s.pwr := by cases c <;> rfl
@[simp] theorem State.setCphCar_free (c : Carrier) (x : CphCarrier) (s : State) : (s.setCphCar c x).free = s.free := by cases c <;> rfl
@[simp] theorem State.setCphCar_txA (c : Carrier) (x : CphCarrier) (s : State) : (s.setCphCar c x).txA = s.txA := by cases c <;> rfl
@[simp] theorem State.setCphCar_txB (c : Carrier) (x : CphCarrier) (s : State) : (s.setCphCar c x).txB = s.txB := by cases c <;> rfl
@[simp] theorem State.setCphCar_rxA (c : Carrier) (x : CphCarrier) (s : State) : (s.setCphCar c x).rxA = s.rxA := by cases c <;> rfl
@[simp] theorem State.setCphCar_rxB (c : Carrier) (x : CphCarrier) (s : State) : (s.setCphCar c x).rxB = s.rxB := by cases c <;> rfl
@[simp] theorem State.setCphCar_eqA (c : Carrier) (x : CphCarrier) (s : State) : (s.setCphCar c x).eqA = s.eqA := by cases c <;> rfl
@[simp] theorem State.setCphCar_eqB (c : Carrier) (x : CphCarrier) (s : State) : (s.setCphCar c x).eqB = s.eqB := by cases c <;> rfl
@[simp] theorem State.setCphCar_crA (c : Carrier) (x : CphCarrier) (s : State) : (s.setCphCar c x).crA = s.crA := by cases c <;> rfl
@[simp] theorem State.setCphCar_crB (c : Carrier) (x : CphCarrier) (s : State) : (s.setCphCar c x).crB = s.crB := by cases c <;> rfl
@[simp] theorem State.setCphCar_fecA (c : Carrier) (x : CphCarrier) (s : State) : (s.setCphCar c x).fecA = s.fecA := by cases c <;> rfl
@[simp] theorem State.setCphCar_fecB (c : Carrier) (x : CphCarrier) (s : State) : (s.setCphCar c x).fecB = s.fecB := by cases c <;> rfl
@[simp] theorem State.setCphCar_hailA (c : Carrier) (x : CphCarrier) (s : State) : (s.setCphCar c x).hailA = s.hailA := by cases c <;> rfl
@[simp] theorem State.setCphCar_hailB (c : Carrier) (x : CphCarrier) (s : State) : (s.setCphCar c x).hailB = s.hailB := by cases c <;> rfl
@[simp] theorem State.setCphCar_frmA (c : Carrier) (x : CphCarrier) (s : State) : (s.setCphCar c x).frmA = s.frmA := by cases c <;> rfl
@[simp] theorem State.setCphCar_frmB (c : Carrier) (x : CphCarrier) (s : State) : (s.setCphCar c x).frmB = s.frmB := by cases c <;> rfl
@[simp] theorem State.setCphCar_osp (c : Carrier) (x : CphCarrier) (s : State) : (s.setCphCar c x).osp = s.osp := by cases c <;> rfl
@[simp] theorem State.setCphCar_clm (c : Carrier) (x : CphCarrier) (s : State) : (s.setCphCar c x).clm = s.clm := by cases c <;> rfl
@[simp] theorem State.setCphCar_brt (c : Carrier) (x : CphCarrier) (s : State) : (s.setCphCar c x).brt = s.brt := by cases c <;> rfl
@[simp] theorem State.setCphCar_lanes (c : Carrier) (x : CphCarrier) (s : State) : (s.setCphCar c x).lanes = s.lanes := by cases c <;> rfl
@[simp] theorem State.setCphCar_mon (c : Carrier) (x : CphCarrier) (s : State) : (s.setCphCar c x).mon = s.mon := by cases c <;> rfl
@[simp] theorem State.setCphCar_anl (c : Carrier) (x : CphCarrier) (s : State) : (s.setCphCar c x).anl = s.anl := by cases c <;> rfl
@[simp] theorem State.setCphCar_log (c : Carrier) (x : CphCarrier) (s : State) : (s.setCphCar c x).log = s.log := by cases c <;> rfl
@[simp] theorem State.setCphCar_obs (c : Carrier) (x : CphCarrier) (s : State) : (s.setCphCar c x).obs = s.obs := by cases c <;> rfl
@[simp] theorem State.setCphCar_ecc (c : Carrier) (x : CphCarrier) (s : State) : (s.setCphCar c x).ecc = s.ecc := by cases c <;> rfl
@[simp] theorem State.setCphCar_ref (c : Carrier) (x : CphCarrier) (s : State) : (s.setCphCar c x).ref = s.ref := by cases c <;> rfl
@[simp] theorem State.setCphCar_sec (c : Carrier) (x : CphCarrier) (s : State) : (s.setCphCar c x).sec = s.sec := by cases c <;> rfl

@[simp] theorem State.setSecCar_part (c : Carrier) (x : SecCarrier) (s : State) : (s.setSecCar c x).part = s.part := by cases c <;> rfl
@[simp] theorem State.setSecCar_dieRev (c : Carrier) (x : SecCarrier) (s : State) : (s.setSecCar c x).dieRev = s.dieRev := by cases c <;> rfl
@[simp] theorem State.setSecCar_pending (c : Carrier) (x : SecCarrier) (s : State) : (s.setSecCar c x).pending = s.pending := by cases c <;> rfl
@[simp] theorem State.setSecCar_regs (c : Carrier) (x : SecCarrier) (s : State) : (s.setSecCar c x).regs = s.regs := by cases c <;> rfl
@[simp] theorem State.setSecCar_mem (c : Carrier) (x : SecCarrier) (s : State) : (s.setSecCar c x).mem = s.mem := by cases c <;> rfl
@[simp] theorem State.setSecCar_flash (c : Carrier) (x : SecCarrier) (s : State) : (s.setSecCar c x).flash = s.flash := by cases c <;> rfl
@[simp] theorem State.setSecCar_coreA (c : Carrier) (x : SecCarrier) (s : State) : (s.setSecCar c x).coreA = s.coreA := by cases c <;> rfl
@[simp] theorem State.setSecCar_coreB (c : Carrier) (x : SecCarrier) (s : State) : (s.setSecCar c x).coreB = s.coreB := by cases c <;> rfl
@[simp] theorem State.setSecCar_qc (c : Carrier) (x : SecCarrier) (s : State) : (s.setSecCar c x).qc = s.qc := by cases c <;> rfl
@[simp] theorem State.setSecCar_claims (c : Carrier) (x : SecCarrier) (s : State) : (s.setSecCar c x).claims = s.claims := by cases c <;> rfl
@[simp] theorem State.setSecCar_berth (c : Carrier) (x : SecCarrier) (s : State) : (s.setSecCar c x).berth = s.berth := by cases c <;> rfl
@[simp] theorem State.setSecCar_time (c : Carrier) (x : SecCarrier) (s : State) : (s.setSecCar c x).time = s.time := by cases c <;> rfl
@[simp] theorem State.setSecCar_hold (c : Carrier) (x : SecCarrier) (s : State) : (s.setSecCar c x).hold = s.hold := by cases c <;> rfl
@[simp] theorem State.setSecCar_pilot (c : Carrier) (x : SecCarrier) (s : State) : (s.setSecCar c x).pilot = s.pilot := by cases c <;> rfl
@[simp] theorem State.setSecCar_boot (c : Carrier) (x : SecCarrier) (s : State) : (s.setSecCar c x).boot = s.boot := by cases c <;> rfl
@[simp] theorem State.setSecCar_hws (c : Carrier) (x : SecCarrier) (s : State) : (s.setSecCar c x).hws = s.hws := by cases c <;> rfl
@[simp] theorem State.setSecCar_hif (c : Carrier) (x : SecCarrier) (s : State) : (s.setSecCar c x).hif = s.hif := by cases c <;> rfl
@[simp] theorem State.setSecCar_pins (c : Carrier) (x : SecCarrier) (s : State) : (s.setSecCar c x).pins = s.pins := by cases c <;> rfl
@[simp] theorem State.setSecCar_pwr (c : Carrier) (x : SecCarrier) (s : State) : (s.setSecCar c x).pwr = s.pwr := by cases c <;> rfl
@[simp] theorem State.setSecCar_free (c : Carrier) (x : SecCarrier) (s : State) : (s.setSecCar c x).free = s.free := by cases c <;> rfl
@[simp] theorem State.setSecCar_cph (c : Carrier) (x : SecCarrier) (s : State) : (s.setSecCar c x).cph = s.cph := by cases c <;> rfl
@[simp] theorem State.setSecCar_txA (c : Carrier) (x : SecCarrier) (s : State) : (s.setSecCar c x).txA = s.txA := by cases c <;> rfl
@[simp] theorem State.setSecCar_txB (c : Carrier) (x : SecCarrier) (s : State) : (s.setSecCar c x).txB = s.txB := by cases c <;> rfl
@[simp] theorem State.setSecCar_rxA (c : Carrier) (x : SecCarrier) (s : State) : (s.setSecCar c x).rxA = s.rxA := by cases c <;> rfl
@[simp] theorem State.setSecCar_rxB (c : Carrier) (x : SecCarrier) (s : State) : (s.setSecCar c x).rxB = s.rxB := by cases c <;> rfl
@[simp] theorem State.setSecCar_eqA (c : Carrier) (x : SecCarrier) (s : State) : (s.setSecCar c x).eqA = s.eqA := by cases c <;> rfl
@[simp] theorem State.setSecCar_eqB (c : Carrier) (x : SecCarrier) (s : State) : (s.setSecCar c x).eqB = s.eqB := by cases c <;> rfl
@[simp] theorem State.setSecCar_crA (c : Carrier) (x : SecCarrier) (s : State) : (s.setSecCar c x).crA = s.crA := by cases c <;> rfl
@[simp] theorem State.setSecCar_crB (c : Carrier) (x : SecCarrier) (s : State) : (s.setSecCar c x).crB = s.crB := by cases c <;> rfl
@[simp] theorem State.setSecCar_fecA (c : Carrier) (x : SecCarrier) (s : State) : (s.setSecCar c x).fecA = s.fecA := by cases c <;> rfl
@[simp] theorem State.setSecCar_fecB (c : Carrier) (x : SecCarrier) (s : State) : (s.setSecCar c x).fecB = s.fecB := by cases c <;> rfl
@[simp] theorem State.setSecCar_hailA (c : Carrier) (x : SecCarrier) (s : State) : (s.setSecCar c x).hailA = s.hailA := by cases c <;> rfl
@[simp] theorem State.setSecCar_hailB (c : Carrier) (x : SecCarrier) (s : State) : (s.setSecCar c x).hailB = s.hailB := by cases c <;> rfl
@[simp] theorem State.setSecCar_frmA (c : Carrier) (x : SecCarrier) (s : State) : (s.setSecCar c x).frmA = s.frmA := by cases c <;> rfl
@[simp] theorem State.setSecCar_frmB (c : Carrier) (x : SecCarrier) (s : State) : (s.setSecCar c x).frmB = s.frmB := by cases c <;> rfl
@[simp] theorem State.setSecCar_osp (c : Carrier) (x : SecCarrier) (s : State) : (s.setSecCar c x).osp = s.osp := by cases c <;> rfl
@[simp] theorem State.setSecCar_clm (c : Carrier) (x : SecCarrier) (s : State) : (s.setSecCar c x).clm = s.clm := by cases c <;> rfl
@[simp] theorem State.setSecCar_brt (c : Carrier) (x : SecCarrier) (s : State) : (s.setSecCar c x).brt = s.brt := by cases c <;> rfl
@[simp] theorem State.setSecCar_lanes (c : Carrier) (x : SecCarrier) (s : State) : (s.setSecCar c x).lanes = s.lanes := by cases c <;> rfl
@[simp] theorem State.setSecCar_mon (c : Carrier) (x : SecCarrier) (s : State) : (s.setSecCar c x).mon = s.mon := by cases c <;> rfl
@[simp] theorem State.setSecCar_anl (c : Carrier) (x : SecCarrier) (s : State) : (s.setSecCar c x).anl = s.anl := by cases c <;> rfl
@[simp] theorem State.setSecCar_log (c : Carrier) (x : SecCarrier) (s : State) : (s.setSecCar c x).log = s.log := by cases c <;> rfl
@[simp] theorem State.setSecCar_obs (c : Carrier) (x : SecCarrier) (s : State) : (s.setSecCar c x).obs = s.obs := by cases c <;> rfl
@[simp] theorem State.setSecCar_ecc (c : Carrier) (x : SecCarrier) (s : State) : (s.setSecCar c x).ecc = s.ecc := by cases c <;> rfl
@[simp] theorem State.setSecCar_ref (c : Carrier) (x : SecCarrier) (s : State) : (s.setSecCar c x).ref = s.ref := by cases c <;> rfl

@[simp] theorem State.setMonMod_part (k : Fin 4) (x : MonMod) (s : State) : (s.setMonMod k x).part = s.part := rfl
@[simp] theorem State.setMonMod_dieRev (k : Fin 4) (x : MonMod) (s : State) : (s.setMonMod k x).dieRev = s.dieRev := rfl
@[simp] theorem State.setMonMod_pending (k : Fin 4) (x : MonMod) (s : State) : (s.setMonMod k x).pending = s.pending := rfl
@[simp] theorem State.setMonMod_regs (k : Fin 4) (x : MonMod) (s : State) : (s.setMonMod k x).regs = s.regs := rfl
@[simp] theorem State.setMonMod_mem (k : Fin 4) (x : MonMod) (s : State) : (s.setMonMod k x).mem = s.mem := rfl
@[simp] theorem State.setMonMod_flash (k : Fin 4) (x : MonMod) (s : State) : (s.setMonMod k x).flash = s.flash := rfl
@[simp] theorem State.setMonMod_coreA (k : Fin 4) (x : MonMod) (s : State) : (s.setMonMod k x).coreA = s.coreA := rfl
@[simp] theorem State.setMonMod_coreB (k : Fin 4) (x : MonMod) (s : State) : (s.setMonMod k x).coreB = s.coreB := rfl
@[simp] theorem State.setMonMod_qc (k : Fin 4) (x : MonMod) (s : State) : (s.setMonMod k x).qc = s.qc := rfl
@[simp] theorem State.setMonMod_claims (k : Fin 4) (x : MonMod) (s : State) : (s.setMonMod k x).claims = s.claims := rfl
@[simp] theorem State.setMonMod_berth (k : Fin 4) (x : MonMod) (s : State) : (s.setMonMod k x).berth = s.berth := rfl
@[simp] theorem State.setMonMod_time (k : Fin 4) (x : MonMod) (s : State) : (s.setMonMod k x).time = s.time := rfl
@[simp] theorem State.setMonMod_hold (k : Fin 4) (x : MonMod) (s : State) : (s.setMonMod k x).hold = s.hold := rfl
@[simp] theorem State.setMonMod_pilot (k : Fin 4) (x : MonMod) (s : State) : (s.setMonMod k x).pilot = s.pilot := rfl
@[simp] theorem State.setMonMod_boot (k : Fin 4) (x : MonMod) (s : State) : (s.setMonMod k x).boot = s.boot := rfl
@[simp] theorem State.setMonMod_hws (k : Fin 4) (x : MonMod) (s : State) : (s.setMonMod k x).hws = s.hws := rfl
@[simp] theorem State.setMonMod_hif (k : Fin 4) (x : MonMod) (s : State) : (s.setMonMod k x).hif = s.hif := rfl
@[simp] theorem State.setMonMod_pins (k : Fin 4) (x : MonMod) (s : State) : (s.setMonMod k x).pins = s.pins := rfl
@[simp] theorem State.setMonMod_pwr (k : Fin 4) (x : MonMod) (s : State) : (s.setMonMod k x).pwr = s.pwr := rfl
@[simp] theorem State.setMonMod_free (k : Fin 4) (x : MonMod) (s : State) : (s.setMonMod k x).free = s.free := rfl
@[simp] theorem State.setMonMod_cph (k : Fin 4) (x : MonMod) (s : State) : (s.setMonMod k x).cph = s.cph := rfl
@[simp] theorem State.setMonMod_txA (k : Fin 4) (x : MonMod) (s : State) : (s.setMonMod k x).txA = s.txA := rfl
@[simp] theorem State.setMonMod_txB (k : Fin 4) (x : MonMod) (s : State) : (s.setMonMod k x).txB = s.txB := rfl
@[simp] theorem State.setMonMod_rxA (k : Fin 4) (x : MonMod) (s : State) : (s.setMonMod k x).rxA = s.rxA := rfl
@[simp] theorem State.setMonMod_rxB (k : Fin 4) (x : MonMod) (s : State) : (s.setMonMod k x).rxB = s.rxB := rfl
@[simp] theorem State.setMonMod_eqA (k : Fin 4) (x : MonMod) (s : State) : (s.setMonMod k x).eqA = s.eqA := rfl
@[simp] theorem State.setMonMod_eqB (k : Fin 4) (x : MonMod) (s : State) : (s.setMonMod k x).eqB = s.eqB := rfl
@[simp] theorem State.setMonMod_crA (k : Fin 4) (x : MonMod) (s : State) : (s.setMonMod k x).crA = s.crA := rfl
@[simp] theorem State.setMonMod_crB (k : Fin 4) (x : MonMod) (s : State) : (s.setMonMod k x).crB = s.crB := rfl
@[simp] theorem State.setMonMod_fecA (k : Fin 4) (x : MonMod) (s : State) : (s.setMonMod k x).fecA = s.fecA := rfl
@[simp] theorem State.setMonMod_fecB (k : Fin 4) (x : MonMod) (s : State) : (s.setMonMod k x).fecB = s.fecB := rfl
@[simp] theorem State.setMonMod_hailA (k : Fin 4) (x : MonMod) (s : State) : (s.setMonMod k x).hailA = s.hailA := rfl
@[simp] theorem State.setMonMod_hailB (k : Fin 4) (x : MonMod) (s : State) : (s.setMonMod k x).hailB = s.hailB := rfl
@[simp] theorem State.setMonMod_frmA (k : Fin 4) (x : MonMod) (s : State) : (s.setMonMod k x).frmA = s.frmA := rfl
@[simp] theorem State.setMonMod_frmB (k : Fin 4) (x : MonMod) (s : State) : (s.setMonMod k x).frmB = s.frmB := rfl
@[simp] theorem State.setMonMod_osp (k : Fin 4) (x : MonMod) (s : State) : (s.setMonMod k x).osp = s.osp := rfl
@[simp] theorem State.setMonMod_clm (k : Fin 4) (x : MonMod) (s : State) : (s.setMonMod k x).clm = s.clm := rfl
@[simp] theorem State.setMonMod_brt (k : Fin 4) (x : MonMod) (s : State) : (s.setMonMod k x).brt = s.brt := rfl
@[simp] theorem State.setMonMod_lanes (k : Fin 4) (x : MonMod) (s : State) : (s.setMonMod k x).lanes = s.lanes := rfl
@[simp] theorem State.setMonMod_anl (k : Fin 4) (x : MonMod) (s : State) : (s.setMonMod k x).anl = s.anl := rfl
@[simp] theorem State.setMonMod_log (k : Fin 4) (x : MonMod) (s : State) : (s.setMonMod k x).log = s.log := rfl
@[simp] theorem State.setMonMod_obs (k : Fin 4) (x : MonMod) (s : State) : (s.setMonMod k x).obs = s.obs := rfl
@[simp] theorem State.setMonMod_ecc (k : Fin 4) (x : MonMod) (s : State) : (s.setMonMod k x).ecc = s.ecc := rfl
@[simp] theorem State.setMonMod_ref (k : Fin 4) (x : MonMod) (s : State) : (s.setMonMod k x).ref = s.ref := rfl
@[simp] theorem State.setMonMod_sec (k : Fin 4) (x : MonMod) (s : State) : (s.setMonMod k x).sec = s.sec := rfl

@[simp] theorem State.setAnlUnit_part (u : Fin 4) (x : AnlRun) (s : State) : (s.setAnlUnit u x).part = s.part := rfl
@[simp] theorem State.setAnlUnit_dieRev (u : Fin 4) (x : AnlRun) (s : State) : (s.setAnlUnit u x).dieRev = s.dieRev := rfl
@[simp] theorem State.setAnlUnit_pending (u : Fin 4) (x : AnlRun) (s : State) : (s.setAnlUnit u x).pending = s.pending := rfl
@[simp] theorem State.setAnlUnit_regs (u : Fin 4) (x : AnlRun) (s : State) : (s.setAnlUnit u x).regs = s.regs := rfl
@[simp] theorem State.setAnlUnit_mem (u : Fin 4) (x : AnlRun) (s : State) : (s.setAnlUnit u x).mem = s.mem := rfl
@[simp] theorem State.setAnlUnit_flash (u : Fin 4) (x : AnlRun) (s : State) : (s.setAnlUnit u x).flash = s.flash := rfl
@[simp] theorem State.setAnlUnit_coreA (u : Fin 4) (x : AnlRun) (s : State) : (s.setAnlUnit u x).coreA = s.coreA := rfl
@[simp] theorem State.setAnlUnit_coreB (u : Fin 4) (x : AnlRun) (s : State) : (s.setAnlUnit u x).coreB = s.coreB := rfl
@[simp] theorem State.setAnlUnit_qc (u : Fin 4) (x : AnlRun) (s : State) : (s.setAnlUnit u x).qc = s.qc := rfl
@[simp] theorem State.setAnlUnit_claims (u : Fin 4) (x : AnlRun) (s : State) : (s.setAnlUnit u x).claims = s.claims := rfl
@[simp] theorem State.setAnlUnit_berth (u : Fin 4) (x : AnlRun) (s : State) : (s.setAnlUnit u x).berth = s.berth := rfl
@[simp] theorem State.setAnlUnit_time (u : Fin 4) (x : AnlRun) (s : State) : (s.setAnlUnit u x).time = s.time := rfl
@[simp] theorem State.setAnlUnit_hold (u : Fin 4) (x : AnlRun) (s : State) : (s.setAnlUnit u x).hold = s.hold := rfl
@[simp] theorem State.setAnlUnit_pilot (u : Fin 4) (x : AnlRun) (s : State) : (s.setAnlUnit u x).pilot = s.pilot := rfl
@[simp] theorem State.setAnlUnit_boot (u : Fin 4) (x : AnlRun) (s : State) : (s.setAnlUnit u x).boot = s.boot := rfl
@[simp] theorem State.setAnlUnit_hws (u : Fin 4) (x : AnlRun) (s : State) : (s.setAnlUnit u x).hws = s.hws := rfl
@[simp] theorem State.setAnlUnit_hif (u : Fin 4) (x : AnlRun) (s : State) : (s.setAnlUnit u x).hif = s.hif := rfl
@[simp] theorem State.setAnlUnit_pins (u : Fin 4) (x : AnlRun) (s : State) : (s.setAnlUnit u x).pins = s.pins := rfl
@[simp] theorem State.setAnlUnit_pwr (u : Fin 4) (x : AnlRun) (s : State) : (s.setAnlUnit u x).pwr = s.pwr := rfl
@[simp] theorem State.setAnlUnit_free (u : Fin 4) (x : AnlRun) (s : State) : (s.setAnlUnit u x).free = s.free := rfl
@[simp] theorem State.setAnlUnit_cph (u : Fin 4) (x : AnlRun) (s : State) : (s.setAnlUnit u x).cph = s.cph := rfl
@[simp] theorem State.setAnlUnit_txA (u : Fin 4) (x : AnlRun) (s : State) : (s.setAnlUnit u x).txA = s.txA := rfl
@[simp] theorem State.setAnlUnit_txB (u : Fin 4) (x : AnlRun) (s : State) : (s.setAnlUnit u x).txB = s.txB := rfl
@[simp] theorem State.setAnlUnit_rxA (u : Fin 4) (x : AnlRun) (s : State) : (s.setAnlUnit u x).rxA = s.rxA := rfl
@[simp] theorem State.setAnlUnit_rxB (u : Fin 4) (x : AnlRun) (s : State) : (s.setAnlUnit u x).rxB = s.rxB := rfl
@[simp] theorem State.setAnlUnit_eqA (u : Fin 4) (x : AnlRun) (s : State) : (s.setAnlUnit u x).eqA = s.eqA := rfl
@[simp] theorem State.setAnlUnit_eqB (u : Fin 4) (x : AnlRun) (s : State) : (s.setAnlUnit u x).eqB = s.eqB := rfl
@[simp] theorem State.setAnlUnit_crA (u : Fin 4) (x : AnlRun) (s : State) : (s.setAnlUnit u x).crA = s.crA := rfl
@[simp] theorem State.setAnlUnit_crB (u : Fin 4) (x : AnlRun) (s : State) : (s.setAnlUnit u x).crB = s.crB := rfl
@[simp] theorem State.setAnlUnit_fecA (u : Fin 4) (x : AnlRun) (s : State) : (s.setAnlUnit u x).fecA = s.fecA := rfl
@[simp] theorem State.setAnlUnit_fecB (u : Fin 4) (x : AnlRun) (s : State) : (s.setAnlUnit u x).fecB = s.fecB := rfl
@[simp] theorem State.setAnlUnit_hailA (u : Fin 4) (x : AnlRun) (s : State) : (s.setAnlUnit u x).hailA = s.hailA := rfl
@[simp] theorem State.setAnlUnit_hailB (u : Fin 4) (x : AnlRun) (s : State) : (s.setAnlUnit u x).hailB = s.hailB := rfl
@[simp] theorem State.setAnlUnit_frmA (u : Fin 4) (x : AnlRun) (s : State) : (s.setAnlUnit u x).frmA = s.frmA := rfl
@[simp] theorem State.setAnlUnit_frmB (u : Fin 4) (x : AnlRun) (s : State) : (s.setAnlUnit u x).frmB = s.frmB := rfl
@[simp] theorem State.setAnlUnit_osp (u : Fin 4) (x : AnlRun) (s : State) : (s.setAnlUnit u x).osp = s.osp := rfl
@[simp] theorem State.setAnlUnit_clm (u : Fin 4) (x : AnlRun) (s : State) : (s.setAnlUnit u x).clm = s.clm := rfl
@[simp] theorem State.setAnlUnit_brt (u : Fin 4) (x : AnlRun) (s : State) : (s.setAnlUnit u x).brt = s.brt := rfl
@[simp] theorem State.setAnlUnit_lanes (u : Fin 4) (x : AnlRun) (s : State) : (s.setAnlUnit u x).lanes = s.lanes := rfl
@[simp] theorem State.setAnlUnit_mon (u : Fin 4) (x : AnlRun) (s : State) : (s.setAnlUnit u x).mon = s.mon := rfl
@[simp] theorem State.setAnlUnit_log (u : Fin 4) (x : AnlRun) (s : State) : (s.setAnlUnit u x).log = s.log := rfl
@[simp] theorem State.setAnlUnit_obs (u : Fin 4) (x : AnlRun) (s : State) : (s.setAnlUnit u x).obs = s.obs := rfl
@[simp] theorem State.setAnlUnit_ecc (u : Fin 4) (x : AnlRun) (s : State) : (s.setAnlUnit u x).ecc = s.ecc := rfl
@[simp] theorem State.setAnlUnit_ref (u : Fin 4) (x : AnlRun) (s : State) : (s.setAnlUnit u x).ref = s.ref := rfl
@[simp] theorem State.setAnlUnit_sec (u : Fin 4) (x : AnlRun) (s : State) : (s.setAnlUnit u x).sec = s.sec := rfl

@[simp] theorem State.setClient_part (n : Nat) (x : ClientRt) (s : State) : (s.setClient n x).part = s.part := rfl
@[simp] theorem State.setClient_dieRev (n : Nat) (x : ClientRt) (s : State) : (s.setClient n x).dieRev = s.dieRev := rfl
@[simp] theorem State.setClient_pending (n : Nat) (x : ClientRt) (s : State) : (s.setClient n x).pending = s.pending := rfl
@[simp] theorem State.setClient_regs (n : Nat) (x : ClientRt) (s : State) : (s.setClient n x).regs = s.regs := rfl
@[simp] theorem State.setClient_mem (n : Nat) (x : ClientRt) (s : State) : (s.setClient n x).mem = s.mem := rfl
@[simp] theorem State.setClient_flash (n : Nat) (x : ClientRt) (s : State) : (s.setClient n x).flash = s.flash := rfl
@[simp] theorem State.setClient_coreA (n : Nat) (x : ClientRt) (s : State) : (s.setClient n x).coreA = s.coreA := rfl
@[simp] theorem State.setClient_coreB (n : Nat) (x : ClientRt) (s : State) : (s.setClient n x).coreB = s.coreB := rfl
@[simp] theorem State.setClient_qc (n : Nat) (x : ClientRt) (s : State) : (s.setClient n x).qc = s.qc := rfl
@[simp] theorem State.setClient_claims (n : Nat) (x : ClientRt) (s : State) : (s.setClient n x).claims = s.claims := rfl
@[simp] theorem State.setClient_berth (n : Nat) (x : ClientRt) (s : State) : (s.setClient n x).berth = s.berth := rfl
@[simp] theorem State.setClient_time (n : Nat) (x : ClientRt) (s : State) : (s.setClient n x).time = s.time := rfl
@[simp] theorem State.setClient_hold (n : Nat) (x : ClientRt) (s : State) : (s.setClient n x).hold = s.hold := rfl
@[simp] theorem State.setClient_pilot (n : Nat) (x : ClientRt) (s : State) : (s.setClient n x).pilot = s.pilot := rfl
@[simp] theorem State.setClient_boot (n : Nat) (x : ClientRt) (s : State) : (s.setClient n x).boot = s.boot := rfl
@[simp] theorem State.setClient_hws (n : Nat) (x : ClientRt) (s : State) : (s.setClient n x).hws = s.hws := rfl
@[simp] theorem State.setClient_hif (n : Nat) (x : ClientRt) (s : State) : (s.setClient n x).hif = s.hif := rfl
@[simp] theorem State.setClient_pins (n : Nat) (x : ClientRt) (s : State) : (s.setClient n x).pins = s.pins := rfl
@[simp] theorem State.setClient_pwr (n : Nat) (x : ClientRt) (s : State) : (s.setClient n x).pwr = s.pwr := rfl
@[simp] theorem State.setClient_free (n : Nat) (x : ClientRt) (s : State) : (s.setClient n x).free = s.free := rfl
@[simp] theorem State.setClient_cph (n : Nat) (x : ClientRt) (s : State) : (s.setClient n x).cph = s.cph := rfl
@[simp] theorem State.setClient_txA (n : Nat) (x : ClientRt) (s : State) : (s.setClient n x).txA = s.txA := rfl
@[simp] theorem State.setClient_txB (n : Nat) (x : ClientRt) (s : State) : (s.setClient n x).txB = s.txB := rfl
@[simp] theorem State.setClient_rxA (n : Nat) (x : ClientRt) (s : State) : (s.setClient n x).rxA = s.rxA := rfl
@[simp] theorem State.setClient_rxB (n : Nat) (x : ClientRt) (s : State) : (s.setClient n x).rxB = s.rxB := rfl
@[simp] theorem State.setClient_eqA (n : Nat) (x : ClientRt) (s : State) : (s.setClient n x).eqA = s.eqA := rfl
@[simp] theorem State.setClient_eqB (n : Nat) (x : ClientRt) (s : State) : (s.setClient n x).eqB = s.eqB := rfl
@[simp] theorem State.setClient_crA (n : Nat) (x : ClientRt) (s : State) : (s.setClient n x).crA = s.crA := rfl
@[simp] theorem State.setClient_crB (n : Nat) (x : ClientRt) (s : State) : (s.setClient n x).crB = s.crB := rfl
@[simp] theorem State.setClient_fecA (n : Nat) (x : ClientRt) (s : State) : (s.setClient n x).fecA = s.fecA := rfl
@[simp] theorem State.setClient_fecB (n : Nat) (x : ClientRt) (s : State) : (s.setClient n x).fecB = s.fecB := rfl
@[simp] theorem State.setClient_hailA (n : Nat) (x : ClientRt) (s : State) : (s.setClient n x).hailA = s.hailA := rfl
@[simp] theorem State.setClient_hailB (n : Nat) (x : ClientRt) (s : State) : (s.setClient n x).hailB = s.hailB := rfl
@[simp] theorem State.setClient_frmA (n : Nat) (x : ClientRt) (s : State) : (s.setClient n x).frmA = s.frmA := rfl
@[simp] theorem State.setClient_frmB (n : Nat) (x : ClientRt) (s : State) : (s.setClient n x).frmB = s.frmB := rfl
@[simp] theorem State.setClient_osp (n : Nat) (x : ClientRt) (s : State) : (s.setClient n x).osp = s.osp := rfl
@[simp] theorem State.setClient_brt (n : Nat) (x : ClientRt) (s : State) : (s.setClient n x).brt = s.brt := rfl
@[simp] theorem State.setClient_lanes (n : Nat) (x : ClientRt) (s : State) : (s.setClient n x).lanes = s.lanes := rfl
@[simp] theorem State.setClient_mon (n : Nat) (x : ClientRt) (s : State) : (s.setClient n x).mon = s.mon := rfl
@[simp] theorem State.setClient_anl (n : Nat) (x : ClientRt) (s : State) : (s.setClient n x).anl = s.anl := rfl
@[simp] theorem State.setClient_log (n : Nat) (x : ClientRt) (s : State) : (s.setClient n x).log = s.log := rfl
@[simp] theorem State.setClient_obs (n : Nat) (x : ClientRt) (s : State) : (s.setClient n x).obs = s.obs := rfl
@[simp] theorem State.setClient_ecc (n : Nat) (x : ClientRt) (s : State) : (s.setClient n x).ecc = s.ecc := rfl
@[simp] theorem State.setClient_ref (n : Nat) (x : ClientRt) (s : State) : (s.setClient n x).ref = s.ref := rfl
@[simp] theorem State.setClient_sec (n : Nat) (x : ClientRt) (s : State) : (s.setClient n x).sec = s.sec := rfl

@[simp] theorem State.setBrtCtx_part (n : Nat) (x : BrtCtx) (s : State) : (s.setBrtCtx n x).part = s.part := rfl
@[simp] theorem State.setBrtCtx_dieRev (n : Nat) (x : BrtCtx) (s : State) : (s.setBrtCtx n x).dieRev = s.dieRev := rfl
@[simp] theorem State.setBrtCtx_pending (n : Nat) (x : BrtCtx) (s : State) : (s.setBrtCtx n x).pending = s.pending := rfl
@[simp] theorem State.setBrtCtx_regs (n : Nat) (x : BrtCtx) (s : State) : (s.setBrtCtx n x).regs = s.regs := rfl
@[simp] theorem State.setBrtCtx_mem (n : Nat) (x : BrtCtx) (s : State) : (s.setBrtCtx n x).mem = s.mem := rfl
@[simp] theorem State.setBrtCtx_flash (n : Nat) (x : BrtCtx) (s : State) : (s.setBrtCtx n x).flash = s.flash := rfl
@[simp] theorem State.setBrtCtx_coreA (n : Nat) (x : BrtCtx) (s : State) : (s.setBrtCtx n x).coreA = s.coreA := rfl
@[simp] theorem State.setBrtCtx_coreB (n : Nat) (x : BrtCtx) (s : State) : (s.setBrtCtx n x).coreB = s.coreB := rfl
@[simp] theorem State.setBrtCtx_qc (n : Nat) (x : BrtCtx) (s : State) : (s.setBrtCtx n x).qc = s.qc := rfl
@[simp] theorem State.setBrtCtx_claims (n : Nat) (x : BrtCtx) (s : State) : (s.setBrtCtx n x).claims = s.claims := rfl
@[simp] theorem State.setBrtCtx_berth (n : Nat) (x : BrtCtx) (s : State) : (s.setBrtCtx n x).berth = s.berth := rfl
@[simp] theorem State.setBrtCtx_time (n : Nat) (x : BrtCtx) (s : State) : (s.setBrtCtx n x).time = s.time := rfl
@[simp] theorem State.setBrtCtx_hold (n : Nat) (x : BrtCtx) (s : State) : (s.setBrtCtx n x).hold = s.hold := rfl
@[simp] theorem State.setBrtCtx_pilot (n : Nat) (x : BrtCtx) (s : State) : (s.setBrtCtx n x).pilot = s.pilot := rfl
@[simp] theorem State.setBrtCtx_boot (n : Nat) (x : BrtCtx) (s : State) : (s.setBrtCtx n x).boot = s.boot := rfl
@[simp] theorem State.setBrtCtx_hws (n : Nat) (x : BrtCtx) (s : State) : (s.setBrtCtx n x).hws = s.hws := rfl
@[simp] theorem State.setBrtCtx_hif (n : Nat) (x : BrtCtx) (s : State) : (s.setBrtCtx n x).hif = s.hif := rfl
@[simp] theorem State.setBrtCtx_pins (n : Nat) (x : BrtCtx) (s : State) : (s.setBrtCtx n x).pins = s.pins := rfl
@[simp] theorem State.setBrtCtx_pwr (n : Nat) (x : BrtCtx) (s : State) : (s.setBrtCtx n x).pwr = s.pwr := rfl
@[simp] theorem State.setBrtCtx_free (n : Nat) (x : BrtCtx) (s : State) : (s.setBrtCtx n x).free = s.free := rfl
@[simp] theorem State.setBrtCtx_cph (n : Nat) (x : BrtCtx) (s : State) : (s.setBrtCtx n x).cph = s.cph := rfl
@[simp] theorem State.setBrtCtx_txA (n : Nat) (x : BrtCtx) (s : State) : (s.setBrtCtx n x).txA = s.txA := rfl
@[simp] theorem State.setBrtCtx_txB (n : Nat) (x : BrtCtx) (s : State) : (s.setBrtCtx n x).txB = s.txB := rfl
@[simp] theorem State.setBrtCtx_rxA (n : Nat) (x : BrtCtx) (s : State) : (s.setBrtCtx n x).rxA = s.rxA := rfl
@[simp] theorem State.setBrtCtx_rxB (n : Nat) (x : BrtCtx) (s : State) : (s.setBrtCtx n x).rxB = s.rxB := rfl
@[simp] theorem State.setBrtCtx_eqA (n : Nat) (x : BrtCtx) (s : State) : (s.setBrtCtx n x).eqA = s.eqA := rfl
@[simp] theorem State.setBrtCtx_eqB (n : Nat) (x : BrtCtx) (s : State) : (s.setBrtCtx n x).eqB = s.eqB := rfl
@[simp] theorem State.setBrtCtx_crA (n : Nat) (x : BrtCtx) (s : State) : (s.setBrtCtx n x).crA = s.crA := rfl
@[simp] theorem State.setBrtCtx_crB (n : Nat) (x : BrtCtx) (s : State) : (s.setBrtCtx n x).crB = s.crB := rfl
@[simp] theorem State.setBrtCtx_fecA (n : Nat) (x : BrtCtx) (s : State) : (s.setBrtCtx n x).fecA = s.fecA := rfl
@[simp] theorem State.setBrtCtx_fecB (n : Nat) (x : BrtCtx) (s : State) : (s.setBrtCtx n x).fecB = s.fecB := rfl
@[simp] theorem State.setBrtCtx_hailA (n : Nat) (x : BrtCtx) (s : State) : (s.setBrtCtx n x).hailA = s.hailA := rfl
@[simp] theorem State.setBrtCtx_hailB (n : Nat) (x : BrtCtx) (s : State) : (s.setBrtCtx n x).hailB = s.hailB := rfl
@[simp] theorem State.setBrtCtx_frmA (n : Nat) (x : BrtCtx) (s : State) : (s.setBrtCtx n x).frmA = s.frmA := rfl
@[simp] theorem State.setBrtCtx_frmB (n : Nat) (x : BrtCtx) (s : State) : (s.setBrtCtx n x).frmB = s.frmB := rfl
@[simp] theorem State.setBrtCtx_osp (n : Nat) (x : BrtCtx) (s : State) : (s.setBrtCtx n x).osp = s.osp := rfl
@[simp] theorem State.setBrtCtx_clm (n : Nat) (x : BrtCtx) (s : State) : (s.setBrtCtx n x).clm = s.clm := rfl
@[simp] theorem State.setBrtCtx_lanes (n : Nat) (x : BrtCtx) (s : State) : (s.setBrtCtx n x).lanes = s.lanes := rfl
@[simp] theorem State.setBrtCtx_mon (n : Nat) (x : BrtCtx) (s : State) : (s.setBrtCtx n x).mon = s.mon := rfl
@[simp] theorem State.setBrtCtx_anl (n : Nat) (x : BrtCtx) (s : State) : (s.setBrtCtx n x).anl = s.anl := rfl
@[simp] theorem State.setBrtCtx_log (n : Nat) (x : BrtCtx) (s : State) : (s.setBrtCtx n x).log = s.log := rfl
@[simp] theorem State.setBrtCtx_obs (n : Nat) (x : BrtCtx) (s : State) : (s.setBrtCtx n x).obs = s.obs := rfl
@[simp] theorem State.setBrtCtx_ecc (n : Nat) (x : BrtCtx) (s : State) : (s.setBrtCtx n x).ecc = s.ecc := rfl
@[simp] theorem State.setBrtCtx_ref (n : Nat) (x : BrtCtx) (s : State) : (s.setBrtCtx n x).ref = s.ref := rfl
@[simp] theorem State.setBrtCtx_sec (n : Nat) (x : BrtCtx) (s : State) : (s.setBrtCtx n x).sec = s.sec := rfl

@[simp] theorem State.setOsp_part (n : Nat) (x : OspPort) (s : State) : (s.setOsp n x).part = s.part := rfl
@[simp] theorem State.setOsp_dieRev (n : Nat) (x : OspPort) (s : State) : (s.setOsp n x).dieRev = s.dieRev := rfl
@[simp] theorem State.setOsp_pending (n : Nat) (x : OspPort) (s : State) : (s.setOsp n x).pending = s.pending := rfl
@[simp] theorem State.setOsp_mem (n : Nat) (x : OspPort) (s : State) : (s.setOsp n x).mem = s.mem := rfl
@[simp] theorem State.setOsp_flash (n : Nat) (x : OspPort) (s : State) : (s.setOsp n x).flash = s.flash := rfl
@[simp] theorem State.setOsp_coreA (n : Nat) (x : OspPort) (s : State) : (s.setOsp n x).coreA = s.coreA := rfl
@[simp] theorem State.setOsp_coreB (n : Nat) (x : OspPort) (s : State) : (s.setOsp n x).coreB = s.coreB := rfl
@[simp] theorem State.setOsp_qc (n : Nat) (x : OspPort) (s : State) : (s.setOsp n x).qc = s.qc := rfl
@[simp] theorem State.setOsp_claims (n : Nat) (x : OspPort) (s : State) : (s.setOsp n x).claims = s.claims := rfl
@[simp] theorem State.setOsp_berth (n : Nat) (x : OspPort) (s : State) : (s.setOsp n x).berth = s.berth := rfl
@[simp] theorem State.setOsp_time (n : Nat) (x : OspPort) (s : State) : (s.setOsp n x).time = s.time := rfl
@[simp] theorem State.setOsp_hold (n : Nat) (x : OspPort) (s : State) : (s.setOsp n x).hold = s.hold := rfl
@[simp] theorem State.setOsp_pilot (n : Nat) (x : OspPort) (s : State) : (s.setOsp n x).pilot = s.pilot := rfl
@[simp] theorem State.setOsp_boot (n : Nat) (x : OspPort) (s : State) : (s.setOsp n x).boot = s.boot := rfl
@[simp] theorem State.setOsp_hws (n : Nat) (x : OspPort) (s : State) : (s.setOsp n x).hws = s.hws := rfl
@[simp] theorem State.setOsp_hif (n : Nat) (x : OspPort) (s : State) : (s.setOsp n x).hif = s.hif := rfl
@[simp] theorem State.setOsp_pins (n : Nat) (x : OspPort) (s : State) : (s.setOsp n x).pins = s.pins := rfl
@[simp] theorem State.setOsp_pwr (n : Nat) (x : OspPort) (s : State) : (s.setOsp n x).pwr = s.pwr := rfl
@[simp] theorem State.setOsp_free (n : Nat) (x : OspPort) (s : State) : (s.setOsp n x).free = s.free := rfl
@[simp] theorem State.setOsp_cph (n : Nat) (x : OspPort) (s : State) : (s.setOsp n x).cph = s.cph := rfl
@[simp] theorem State.setOsp_txA (n : Nat) (x : OspPort) (s : State) : (s.setOsp n x).txA = s.txA := rfl
@[simp] theorem State.setOsp_txB (n : Nat) (x : OspPort) (s : State) : (s.setOsp n x).txB = s.txB := rfl
@[simp] theorem State.setOsp_rxA (n : Nat) (x : OspPort) (s : State) : (s.setOsp n x).rxA = s.rxA := rfl
@[simp] theorem State.setOsp_rxB (n : Nat) (x : OspPort) (s : State) : (s.setOsp n x).rxB = s.rxB := rfl
@[simp] theorem State.setOsp_eqA (n : Nat) (x : OspPort) (s : State) : (s.setOsp n x).eqA = s.eqA := rfl
@[simp] theorem State.setOsp_eqB (n : Nat) (x : OspPort) (s : State) : (s.setOsp n x).eqB = s.eqB := rfl
@[simp] theorem State.setOsp_crA (n : Nat) (x : OspPort) (s : State) : (s.setOsp n x).crA = s.crA := rfl
@[simp] theorem State.setOsp_crB (n : Nat) (x : OspPort) (s : State) : (s.setOsp n x).crB = s.crB := rfl
@[simp] theorem State.setOsp_fecA (n : Nat) (x : OspPort) (s : State) : (s.setOsp n x).fecA = s.fecA := rfl
@[simp] theorem State.setOsp_fecB (n : Nat) (x : OspPort) (s : State) : (s.setOsp n x).fecB = s.fecB := rfl
@[simp] theorem State.setOsp_hailA (n : Nat) (x : OspPort) (s : State) : (s.setOsp n x).hailA = s.hailA := rfl
@[simp] theorem State.setOsp_hailB (n : Nat) (x : OspPort) (s : State) : (s.setOsp n x).hailB = s.hailB := rfl
@[simp] theorem State.setOsp_frmA (n : Nat) (x : OspPort) (s : State) : (s.setOsp n x).frmA = s.frmA := rfl
@[simp] theorem State.setOsp_frmB (n : Nat) (x : OspPort) (s : State) : (s.setOsp n x).frmB = s.frmB := rfl
@[simp] theorem State.setOsp_clm (n : Nat) (x : OspPort) (s : State) : (s.setOsp n x).clm = s.clm := rfl
@[simp] theorem State.setOsp_brt (n : Nat) (x : OspPort) (s : State) : (s.setOsp n x).brt = s.brt := rfl
@[simp] theorem State.setOsp_lanes (n : Nat) (x : OspPort) (s : State) : (s.setOsp n x).lanes = s.lanes := rfl
@[simp] theorem State.setOsp_mon (n : Nat) (x : OspPort) (s : State) : (s.setOsp n x).mon = s.mon := rfl
@[simp] theorem State.setOsp_anl (n : Nat) (x : OspPort) (s : State) : (s.setOsp n x).anl = s.anl := rfl
@[simp] theorem State.setOsp_log (n : Nat) (x : OspPort) (s : State) : (s.setOsp n x).log = s.log := rfl
@[simp] theorem State.setOsp_obs (n : Nat) (x : OspPort) (s : State) : (s.setOsp n x).obs = s.obs := rfl
@[simp] theorem State.setOsp_ecc (n : Nat) (x : OspPort) (s : State) : (s.setOsp n x).ecc = s.ecc := rfl
@[simp] theorem State.setOsp_ref (n : Nat) (x : OspPort) (s : State) : (s.setOsp n x).ref = s.ref := rfl
@[simp] theorem State.setOsp_sec (n : Nat) (x : OspPort) (s : State) : (s.setOsp n x).sec = s.sec := rfl

@[simp] theorem State.tx_setTx (c : Carrier) (x : TxState) (s : State) : (s.setTx c x).tx c = x := by cases c <;> rfl
theorem State.tx_setTx_ne {c d : Carrier} (h : d ≠ c) (x : TxState) (s : State) : (s.setTx c x).tx d = s.tx d := by cases c <;> cases d <;> first | rfl | exact absurd rfl h
@[simp] theorem State.rx_setRx (c : Carrier) (x : RxState) (s : State) : (s.setRx c x).rx c = x := by cases c <;> rfl
theorem State.rx_setRx_ne {c d : Carrier} (h : d ≠ c) (x : RxState) (s : State) : (s.setRx c x).rx d = s.rx d := by cases c <;> cases d <;> first | rfl | exact absurd rfl h
@[simp] theorem State.eq_setEq (c : Carrier) (x : EqState) (s : State) : (s.setEq c x).eq c = x := by cases c <;> rfl
theorem State.eq_setEq_ne {c d : Carrier} (h : d ≠ c) (x : EqState) (s : State) : (s.setEq c x).eq d = s.eq d := by cases c <;> cases d <;> first | rfl | exact absurd rfl h
@[simp] theorem State.cr_setCr (c : Carrier) (x : CrState) (s : State) : (s.setCr c x).cr c = x := by cases c <;> rfl
theorem State.cr_setCr_ne {c d : Carrier} (h : d ≠ c) (x : CrState) (s : State) : (s.setCr c x).cr d = s.cr d := by cases c <;> cases d <;> first | rfl | exact absurd rfl h
@[simp] theorem State.fec_setFec (c : Carrier) (x : FecState) (s : State) : (s.setFec c x).fec c = x := by cases c <;> rfl
theorem State.fec_setFec_ne {c d : Carrier} (h : d ≠ c) (x : FecState) (s : State) : (s.setFec c x).fec d = s.fec d := by cases c <;> cases d <;> first | rfl | exact absurd rfl h
@[simp] theorem State.hail_setHail (c : Carrier) (x : HailState) (s : State) : (s.setHail c x).hail c = x := by cases c <;> rfl
theorem State.hail_setHail_ne {c d : Carrier} (h : d ≠ c) (x : HailState) (s : State) : (s.setHail c x).hail d = s.hail d := by cases c <;> cases d <;> first | rfl | exact absurd rfl h
@[simp] theorem State.frm_setFrm (c : Carrier) (x : FrmState) (s : State) : (s.setFrm c x).frm c = x := by cases c <;> rfl
theorem State.frm_setFrm_ne {c d : Carrier} (h : d ≠ c) (x : FrmState) (s : State) : (s.setFrm c x).frm d = s.frm d := by cases c <;> cases d <;> first | rfl | exact absurd rfl h
@[simp] theorem State.cphCar_setCphCar (c : Carrier) (x : CphCarrier) (s : State) : (s.setCphCar c x).cphCar c = x := by cases c <;> rfl
theorem State.cphCar_setCphCar_ne {c d : Carrier} (h : d ≠ c) (x : CphCarrier) (s : State) : (s.setCphCar c x).cphCar d = s.cphCar d := by cases c <;> cases d <;> first | rfl | exact absurd rfl h
@[simp] theorem State.secCar_setSecCar (c : Carrier) (x : SecCarrier) (s : State) : (s.setSecCar c x).secCar c = x := by cases c <;> rfl
theorem State.secCar_setSecCar_ne {c d : Carrier} (h : d ≠ c) (x : SecCarrier) (s : State) : (s.setSecCar c x).secCar d = s.secCar d := by cases c <;> cases d <;> first | rfl | exact absurd rfl h
@[simp] theorem State.tx_setReg (a : Nat) (v : W32) (c : Carrier) (s : State) : (s.setReg a v).tx c = s.tx c := by cases c <;> rfl
@[simp] theorem State.rx_setReg (a : Nat) (v : W32) (c : Carrier) (s : State) : (s.setReg a v).rx c = s.rx c := by cases c <;> rfl
@[simp] theorem State.eq_setReg (a : Nat) (v : W32) (c : Carrier) (s : State) : (s.setReg a v).eq c = s.eq c := by cases c <;> rfl
@[simp] theorem State.cr_setReg (a : Nat) (v : W32) (c : Carrier) (s : State) : (s.setReg a v).cr c = s.cr c := by cases c <;> rfl
@[simp] theorem State.fec_setReg (a : Nat) (v : W32) (c : Carrier) (s : State) : (s.setReg a v).fec c = s.fec c := by cases c <;> rfl
@[simp] theorem State.hail_setReg (a : Nat) (v : W32) (c : Carrier) (s : State) : (s.setReg a v).hail c = s.hail c := by cases c <;> rfl
@[simp] theorem State.frm_setReg (a : Nat) (v : W32) (c : Carrier) (s : State) : (s.setReg a v).frm c = s.frm c := by cases c <;> rfl
@[simp] theorem State.cphCar_setReg (a : Nat) (v : W32) (c : Carrier) (s : State) : (s.setReg a v).cphCar c = s.cphCar c := by cases c <;> rfl
@[simp] theorem State.secCar_setReg (a : Nat) (v : W32) (c : Carrier) (s : State) : (s.setReg a v).secCar c = s.secCar c := by cases c <;> rfl
@[simp] theorem State.core_setReg (a : Nat) (v : W32) (k : CoreId) (s : State) : (s.setReg a v).core k = s.core k := by cases k <;> rfl
@[simp] theorem State.queue_setReg (a : Nat) (v : W32) (q : Fin 64) (s : State) : (s.setReg a v).queue q = s.queue q := rfl
@[simp] theorem State.tx_setFld (a : Nat) (f : Fld) (v : Nat) (c : Carrier) (s : State) : (s.setFld a f v).tx c = s.tx c := by cases c <;> rfl
@[simp] theorem State.rx_setFld (a : Nat) (f : Fld) (v : Nat) (c : Carrier) (s : State) : (s.setFld a f v).rx c = s.rx c := by cases c <;> rfl
@[simp] theorem State.eq_setFld (a : Nat) (f : Fld) (v : Nat) (c : Carrier) (s : State) : (s.setFld a f v).eq c = s.eq c := by cases c <;> rfl
@[simp] theorem State.cr_setFld (a : Nat) (f : Fld) (v : Nat) (c : Carrier) (s : State) : (s.setFld a f v).cr c = s.cr c := by cases c <;> rfl
@[simp] theorem State.fec_setFld (a : Nat) (f : Fld) (v : Nat) (c : Carrier) (s : State) : (s.setFld a f v).fec c = s.fec c := by cases c <;> rfl
@[simp] theorem State.hail_setFld (a : Nat) (f : Fld) (v : Nat) (c : Carrier) (s : State) : (s.setFld a f v).hail c = s.hail c := by cases c <;> rfl
@[simp] theorem State.frm_setFld (a : Nat) (f : Fld) (v : Nat) (c : Carrier) (s : State) : (s.setFld a f v).frm c = s.frm c := by cases c <;> rfl
@[simp] theorem State.cphCar_setFld (a : Nat) (f : Fld) (v : Nat) (c : Carrier) (s : State) : (s.setFld a f v).cphCar c = s.cphCar c := by cases c <;> rfl
@[simp] theorem State.secCar_setFld (a : Nat) (f : Fld) (v : Nat) (c : Carrier) (s : State) : (s.setFld a f v).secCar c = s.secCar c := by cases c <;> rfl
@[simp] theorem State.core_setFld (a : Nat) (f : Fld) (v : Nat) (k : CoreId) (s : State) : (s.setFld a f v).core k = s.core k := by cases k <;> rfl
@[simp] theorem State.queue_setFld (a : Nat) (f : Fld) (v : Nat) (q : Fin 64) (s : State) : (s.setFld a f v).queue q = s.queue q := rfl
@[simp] theorem State.tx_setFlag (a : Nat) (f : Fld) (b : Bool) (c : Carrier) (s : State) : (s.setFlag a f b).tx c = s.tx c := by cases c <;> rfl
@[simp] theorem State.rx_setFlag (a : Nat) (f : Fld) (b : Bool) (c : Carrier) (s : State) : (s.setFlag a f b).rx c = s.rx c := by cases c <;> rfl
@[simp] theorem State.eq_setFlag (a : Nat) (f : Fld) (b : Bool) (c : Carrier) (s : State) : (s.setFlag a f b).eq c = s.eq c := by cases c <;> rfl
@[simp] theorem State.cr_setFlag (a : Nat) (f : Fld) (b : Bool) (c : Carrier) (s : State) : (s.setFlag a f b).cr c = s.cr c := by cases c <;> rfl
@[simp] theorem State.fec_setFlag (a : Nat) (f : Fld) (b : Bool) (c : Carrier) (s : State) : (s.setFlag a f b).fec c = s.fec c := by cases c <;> rfl
@[simp] theorem State.hail_setFlag (a : Nat) (f : Fld) (b : Bool) (c : Carrier) (s : State) : (s.setFlag a f b).hail c = s.hail c := by cases c <;> rfl
@[simp] theorem State.frm_setFlag (a : Nat) (f : Fld) (b : Bool) (c : Carrier) (s : State) : (s.setFlag a f b).frm c = s.frm c := by cases c <;> rfl
@[simp] theorem State.cphCar_setFlag (a : Nat) (f : Fld) (b : Bool) (c : Carrier) (s : State) : (s.setFlag a f b).cphCar c = s.cphCar c := by cases c <;> rfl
@[simp] theorem State.secCar_setFlag (a : Nat) (f : Fld) (b : Bool) (c : Carrier) (s : State) : (s.setFlag a f b).secCar c = s.secCar c := by cases c <;> rfl
@[simp] theorem State.core_setFlag (a : Nat) (f : Fld) (b : Bool) (k : CoreId) (s : State) : (s.setFlag a f b).core k = s.core k := by cases k <;> rfl
@[simp] theorem State.queue_setFlag (a : Nat) (f : Fld) (b : Bool) (q : Fin 64) (s : State) : (s.setFlag a f b).queue q = s.queue q := rfl
@[simp] theorem State.tx_setFldS (a : Nat) (f : Fld) (v : Int) (c : Carrier) (s : State) : (s.setFldS a f v).tx c = s.tx c := by cases c <;> rfl
@[simp] theorem State.rx_setFldS (a : Nat) (f : Fld) (v : Int) (c : Carrier) (s : State) : (s.setFldS a f v).rx c = s.rx c := by cases c <;> rfl
@[simp] theorem State.eq_setFldS (a : Nat) (f : Fld) (v : Int) (c : Carrier) (s : State) : (s.setFldS a f v).eq c = s.eq c := by cases c <;> rfl
@[simp] theorem State.cr_setFldS (a : Nat) (f : Fld) (v : Int) (c : Carrier) (s : State) : (s.setFldS a f v).cr c = s.cr c := by cases c <;> rfl
@[simp] theorem State.fec_setFldS (a : Nat) (f : Fld) (v : Int) (c : Carrier) (s : State) : (s.setFldS a f v).fec c = s.fec c := by cases c <;> rfl
@[simp] theorem State.hail_setFldS (a : Nat) (f : Fld) (v : Int) (c : Carrier) (s : State) : (s.setFldS a f v).hail c = s.hail c := by cases c <;> rfl
@[simp] theorem State.frm_setFldS (a : Nat) (f : Fld) (v : Int) (c : Carrier) (s : State) : (s.setFldS a f v).frm c = s.frm c := by cases c <;> rfl
@[simp] theorem State.cphCar_setFldS (a : Nat) (f : Fld) (v : Int) (c : Carrier) (s : State) : (s.setFldS a f v).cphCar c = s.cphCar c := by cases c <;> rfl
@[simp] theorem State.secCar_setFldS (a : Nat) (f : Fld) (v : Int) (c : Carrier) (s : State) : (s.setFldS a f v).secCar c = s.secCar c := by cases c <;> rfl
@[simp] theorem State.core_setFldS (a : Nat) (f : Fld) (v : Int) (k : CoreId) (s : State) : (s.setFldS a f v).core k = s.core k := by cases k <;> rfl
@[simp] theorem State.queue_setFldS (a : Nat) (f : Fld) (v : Int) (q : Fin 64) (s : State) : (s.setFldS a f v).queue q = s.queue q := rfl
@[simp] theorem State.tx_setReg64 (a v : Nat) (c : Carrier) (s : State) : (s.setReg64 a v).tx c = s.tx c := by cases c <;> rfl
@[simp] theorem State.rx_setReg64 (a v : Nat) (c : Carrier) (s : State) : (s.setReg64 a v).rx c = s.rx c := by cases c <;> rfl
@[simp] theorem State.eq_setReg64 (a v : Nat) (c : Carrier) (s : State) : (s.setReg64 a v).eq c = s.eq c := by cases c <;> rfl
@[simp] theorem State.cr_setReg64 (a v : Nat) (c : Carrier) (s : State) : (s.setReg64 a v).cr c = s.cr c := by cases c <;> rfl
@[simp] theorem State.fec_setReg64 (a v : Nat) (c : Carrier) (s : State) : (s.setReg64 a v).fec c = s.fec c := by cases c <;> rfl
@[simp] theorem State.hail_setReg64 (a v : Nat) (c : Carrier) (s : State) : (s.setReg64 a v).hail c = s.hail c := by cases c <;> rfl
@[simp] theorem State.frm_setReg64 (a v : Nat) (c : Carrier) (s : State) : (s.setReg64 a v).frm c = s.frm c := by cases c <;> rfl
@[simp] theorem State.cphCar_setReg64 (a v : Nat) (c : Carrier) (s : State) : (s.setReg64 a v).cphCar c = s.cphCar c := by cases c <;> rfl
@[simp] theorem State.secCar_setReg64 (a v : Nat) (c : Carrier) (s : State) : (s.setReg64 a v).secCar c = s.secCar c := by cases c <;> rfl
@[simp] theorem State.core_setReg64 (a v : Nat) (k : CoreId) (s : State) : (s.setReg64 a v).core k = s.core k := by cases k <;> rfl
@[simp] theorem State.queue_setReg64 (a v : Nat) (q : Fin 64) (s : State) : (s.setReg64 a v).queue q = s.queue q := rfl
@[simp] theorem State.reg_setByte (a : Nat) (v : Byte) (r : Nat) (s : State) : (s.setByte a v).reg r = s.reg r := by rfl
@[simp] theorem State.fld_setByte (a : Nat) (v : Byte) (r : Nat) (g : Fld) (s : State) : (s.setByte a v).fld r g = s.fld r g := by rfl
@[simp] theorem State.flag_setByte (a : Nat) (v : Byte) (r : Nat) (g : Fld) (s : State) : (s.setByte a v).flag r g = s.flag r g := by rfl
@[simp] theorem State.reg_setCore (k : CoreId) (c : PlelisCore) (r : Nat) (s : State) : (s.setCore k c).reg r = s.reg r := by cases k <;> rfl
@[simp] theorem State.fld_setCore (k : CoreId) (c : PlelisCore) (r : Nat) (g : Fld) (s : State) : (s.setCore k c).fld r g = s.fld r g := by cases k <;> rfl
@[simp] theorem State.flag_setCore (k : CoreId) (c : PlelisCore) (r : Nat) (g : Fld) (s : State) : (s.setCore k c).flag r g = s.flag r g := by cases k <;> rfl
@[simp] theorem State.reg_modCore (k : CoreId) (f : PlelisCore → PlelisCore) (r : Nat) (s : State) : (s.modCore k f).reg r = s.reg r := by cases k <;> rfl
@[simp] theorem State.fld_modCore (k : CoreId) (f : PlelisCore → PlelisCore) (r : Nat) (g : Fld) (s : State) : (s.modCore k f).fld r g = s.fld r g := by cases k <;> rfl
@[simp] theorem State.flag_modCore (k : CoreId) (f : PlelisCore → PlelisCore) (r : Nat) (g : Fld) (s : State) : (s.modCore k f).flag r g = s.flag r g := by cases k <;> rfl
@[simp] theorem State.reg_eventBoth (k : CoreId) (b : Nat) (r : Nat) (s : State) : (s.eventBoth k b).reg r = s.reg r := by cases k <;> rfl
@[simp] theorem State.fld_eventBoth (k : CoreId) (b : Nat) (r : Nat) (g : Fld) (s : State) : (s.eventBoth k b).fld r g = s.fld r g := by cases k <;> rfl
@[simp] theorem State.flag_eventBoth (k : CoreId) (b : Nat) (r : Nat) (g : Fld) (s : State) : (s.eventBoth k b).flag r g = s.flag r g := by cases k <;> rfl
@[simp] theorem State.reg_eventAll (b : Nat) (r : Nat) (s : State) : (s.eventAll b).reg r = s.reg r := by rfl
@[simp] theorem State.fld_eventAll (b : Nat) (r : Nat) (g : Fld) (s : State) : (s.eventAll b).fld r g = s.fld r g := by rfl
@[simp] theorem State.flag_eventAll (b : Nat) (r : Nat) (g : Fld) (s : State) : (s.eventAll b).flag r g = s.flag r g := by rfl
@[simp] theorem State.reg_setQueue (q : Fin 64) (x : Queue) (r : Nat) (s : State) : (s.setQueue q x).reg r = s.reg r := by rfl
@[simp] theorem State.fld_setQueue (q : Fin 64) (x : Queue) (r : Nat) (g : Fld) (s : State) : (s.setQueue q x).fld r g = s.fld r g := by rfl
@[simp] theorem State.flag_setQueue (q : Fin 64) (x : Queue) (r : Nat) (g : Fld) (s : State) : (s.setQueue q x).flag r g = s.flag r g := by rfl
@[simp] theorem State.reg_setTx (c : Carrier) (x : TxState) (r : Nat) (s : State) : (s.setTx c x).reg r = s.reg r := by cases c <;> rfl
@[simp] theorem State.fld_setTx (c : Carrier) (x : TxState) (r : Nat) (g : Fld) (s : State) : (s.setTx c x).fld r g = s.fld r g := by cases c <;> rfl
@[simp] theorem State.flag_setTx (c : Carrier) (x : TxState) (r : Nat) (g : Fld) (s : State) : (s.setTx c x).flag r g = s.flag r g := by cases c <;> rfl
@[simp] theorem State.reg_setRx (c : Carrier) (x : RxState) (r : Nat) (s : State) : (s.setRx c x).reg r = s.reg r := by cases c <;> rfl
@[simp] theorem State.fld_setRx (c : Carrier) (x : RxState) (r : Nat) (g : Fld) (s : State) : (s.setRx c x).fld r g = s.fld r g := by cases c <;> rfl
@[simp] theorem State.flag_setRx (c : Carrier) (x : RxState) (r : Nat) (g : Fld) (s : State) : (s.setRx c x).flag r g = s.flag r g := by cases c <;> rfl
@[simp] theorem State.reg_setEq (c : Carrier) (x : EqState) (r : Nat) (s : State) : (s.setEq c x).reg r = s.reg r := by cases c <;> rfl
@[simp] theorem State.fld_setEq (c : Carrier) (x : EqState) (r : Nat) (g : Fld) (s : State) : (s.setEq c x).fld r g = s.fld r g := by cases c <;> rfl
@[simp] theorem State.flag_setEq (c : Carrier) (x : EqState) (r : Nat) (g : Fld) (s : State) : (s.setEq c x).flag r g = s.flag r g := by cases c <;> rfl
@[simp] theorem State.reg_setCr (c : Carrier) (x : CrState) (r : Nat) (s : State) : (s.setCr c x).reg r = s.reg r := by cases c <;> rfl
@[simp] theorem State.fld_setCr (c : Carrier) (x : CrState) (r : Nat) (g : Fld) (s : State) : (s.setCr c x).fld r g = s.fld r g := by cases c <;> rfl
@[simp] theorem State.flag_setCr (c : Carrier) (x : CrState) (r : Nat) (g : Fld) (s : State) : (s.setCr c x).flag r g = s.flag r g := by cases c <;> rfl
@[simp] theorem State.reg_setFec (c : Carrier) (x : FecState) (r : Nat) (s : State) : (s.setFec c x).reg r = s.reg r := by cases c <;> rfl
@[simp] theorem State.fld_setFec (c : Carrier) (x : FecState) (r : Nat) (g : Fld) (s : State) : (s.setFec c x).fld r g = s.fld r g := by cases c <;> rfl
@[simp] theorem State.flag_setFec (c : Carrier) (x : FecState) (r : Nat) (g : Fld) (s : State) : (s.setFec c x).flag r g = s.flag r g := by cases c <;> rfl
@[simp] theorem State.reg_setHail (c : Carrier) (x : HailState) (r : Nat) (s : State) : (s.setHail c x).reg r = s.reg r := by cases c <;> rfl
@[simp] theorem State.fld_setHail (c : Carrier) (x : HailState) (r : Nat) (g : Fld) (s : State) : (s.setHail c x).fld r g = s.fld r g := by cases c <;> rfl
@[simp] theorem State.flag_setHail (c : Carrier) (x : HailState) (r : Nat) (g : Fld) (s : State) : (s.setHail c x).flag r g = s.flag r g := by cases c <;> rfl
@[simp] theorem State.reg_setFrm (c : Carrier) (x : FrmState) (r : Nat) (s : State) : (s.setFrm c x).reg r = s.reg r := by cases c <;> rfl
@[simp] theorem State.fld_setFrm (c : Carrier) (x : FrmState) (r : Nat) (g : Fld) (s : State) : (s.setFrm c x).fld r g = s.fld r g := by cases c <;> rfl
@[simp] theorem State.flag_setFrm (c : Carrier) (x : FrmState) (r : Nat) (g : Fld) (s : State) : (s.setFrm c x).flag r g = s.flag r g := by cases c <;> rfl
@[simp] theorem State.reg_setCphCar (c : Carrier) (x : CphCarrier) (r : Nat) (s : State) : (s.setCphCar c x).reg r = s.reg r := by cases c <;> rfl
@[simp] theorem State.fld_setCphCar (c : Carrier) (x : CphCarrier) (r : Nat) (g : Fld) (s : State) : (s.setCphCar c x).fld r g = s.fld r g := by cases c <;> rfl
@[simp] theorem State.flag_setCphCar (c : Carrier) (x : CphCarrier) (r : Nat) (g : Fld) (s : State) : (s.setCphCar c x).flag r g = s.flag r g := by cases c <;> rfl
@[simp] theorem State.reg_setSecCar (c : Carrier) (x : SecCarrier) (r : Nat) (s : State) : (s.setSecCar c x).reg r = s.reg r := by cases c <;> rfl
@[simp] theorem State.fld_setSecCar (c : Carrier) (x : SecCarrier) (r : Nat) (g : Fld) (s : State) : (s.setSecCar c x).fld r g = s.fld r g := by cases c <;> rfl
@[simp] theorem State.flag_setSecCar (c : Carrier) (x : SecCarrier) (r : Nat) (g : Fld) (s : State) : (s.setSecCar c x).flag r g = s.flag r g := by cases c <;> rfl
@[simp] theorem State.reg_setMonMod (k : Fin 4) (x : MonMod) (r : Nat) (s : State) : (s.setMonMod k x).reg r = s.reg r := by rfl
@[simp] theorem State.fld_setMonMod (k : Fin 4) (x : MonMod) (r : Nat) (g : Fld) (s : State) : (s.setMonMod k x).fld r g = s.fld r g := by rfl
@[simp] theorem State.flag_setMonMod (k : Fin 4) (x : MonMod) (r : Nat) (g : Fld) (s : State) : (s.setMonMod k x).flag r g = s.flag r g := by rfl
@[simp] theorem State.reg_setAnlUnit (u : Fin 4) (x : AnlRun) (r : Nat) (s : State) : (s.setAnlUnit u x).reg r = s.reg r := by rfl
@[simp] theorem State.fld_setAnlUnit (u : Fin 4) (x : AnlRun) (r : Nat) (g : Fld) (s : State) : (s.setAnlUnit u x).fld r g = s.fld r g := by rfl
@[simp] theorem State.flag_setAnlUnit (u : Fin 4) (x : AnlRun) (r : Nat) (g : Fld) (s : State) : (s.setAnlUnit u x).flag r g = s.flag r g := by rfl
@[simp] theorem State.reg_setClient (n : Nat) (x : ClientRt) (r : Nat) (s : State) : (s.setClient n x).reg r = s.reg r := by rfl
@[simp] theorem State.fld_setClient (n : Nat) (x : ClientRt) (r : Nat) (g : Fld) (s : State) : (s.setClient n x).fld r g = s.fld r g := by rfl
@[simp] theorem State.flag_setClient (n : Nat) (x : ClientRt) (r : Nat) (g : Fld) (s : State) : (s.setClient n x).flag r g = s.flag r g := by rfl
@[simp] theorem State.reg_setBrtCtx (n : Nat) (x : BrtCtx) (r : Nat) (s : State) : (s.setBrtCtx n x).reg r = s.reg r := by rfl
@[simp] theorem State.fld_setBrtCtx (n : Nat) (x : BrtCtx) (r : Nat) (g : Fld) (s : State) : (s.setBrtCtx n x).fld r g = s.fld r g := by rfl
@[simp] theorem State.flag_setBrtCtx (n : Nat) (x : BrtCtx) (r : Nat) (g : Fld) (s : State) : (s.setBrtCtx n x).flag r g = s.flag r g := by rfl
@[simp] theorem State.queue_setQueue (q : Fin 64) (x : Queue) (s : State) : (s.setQueue q x).queue q = x := by simp [State.queue, State.setQueue]
theorem State.queue_setQueue_ne {q p : Fin 64} (h : p ≠ q) (x : Queue) (s : State) : (s.setQueue q x).queue p = s.queue p := by
  have : q.val ≠ p.val := fun e => h (Fin.ext e.symm)
  simp [State.queue, State.setQueue, this]

end Sys2Proof.Laws
end

