-- ==== Sys2Proof/Laws/Registers.lean ====
section
/-! SUPPORT. Reading registers and their fields after writing them, and the 48-bit counters. -/
namespace Sys2Proof.Laws
open Sys2Proof.Machine

@[simp] theorem reg_setReg (a : Nat) (v : W32) (s : State) : (s.setReg a v).reg a = v := sparseGet_put_self _ _ _ _

theorem reg_setReg_ne {a b : Nat} (h : b ≠ a) (v : W32) (s : State) : (s.setReg a v).reg b = s.reg b := sparseGet_put_ne _ h _ _

/-- A field that fits in its register. -/
def Fits (f : Fld) : Prop := f.lsb + f.width ≤ 32

/-- Two fields with no bit in common. -/
def Apart (f g : Fld) : Prop := f.lsb + f.width ≤ g.lsb ∨ g.lsb + g.width ≤ f.lsb

theorem mask_getLsbD {f : Fld} (h : Fits f) (i : Nat) : f.mask.getLsbD i = decide (f.lsb ≤ i ∧ i < f.lsb + f.width) := by
  have hb : f.lsb + f.width ≤ 32 := h
  simp only [Fld.mask, BitVec.getLsbD_shiftLeft, BitVec.getLsbD_ofNat]
  rw [Bool.eq_iff_iff]
  simp only [Bool.and_eq_true, Bool.not_eq_true', decide_eq_true_eq, decide_eq_false_iff_not, Nat.testBit_two_pow_sub_one]
  omega

theorem putBits_getLsbD {f : Fld} (h : Fits f) (v : Nat) (w : W32) (i : Nat) :
    (putBits f v w).getLsbD i = if f.lsb ≤ i ∧ i < f.lsb + f.width then v.testBit (i - f.lsb) else w.getLsbD i := by
  have hb : f.lsb + f.width ≤ 32 := h
  simp only [putBits, BitVec.getLsbD_or, BitVec.getLsbD_and, BitVec.getLsbD_not, mask_getLsbD h, BitVec.getLsbD_shiftLeft, BitVec.getLsbD_ofNat]
  split
  · rename_i hi
    have h1 : i < 32 := by omega
    have h2 : ¬ i < f.lsb := by omega
    have h3 : i - f.lsb < 32 := by omega
    simp [hi, h1, h2, h3]
  · rename_i hi
    by_cases h1 : i < 32
    · simp [hi, h1]
    · simp [hi, h1, BitVec.getLsbD_of_ge _ _ (Nat.le_of_not_lt h1)]

theorem getBits_testBit (f : Fld) (w : W32) (i : Nat) : (getBits f w).testBit i = (decide (i < f.width) && w.getLsbD (f.lsb + i)) := by
  simp only [getBits, Nat.testBit_mod_two_pow, BitVec.toNat_ushiftRight, Nat.testBit_shiftRight, BitVec.testBit_toNat]

theorem getBits_putBits {f : Fld} (h : Fits f) (v : Nat) (w : W32) : getBits f (putBits f v w) = v % 2 ^ f.width := by
  apply Nat.eq_of_testBit_eq
  intro i
  rw [getBits_testBit, putBits_getLsbD h, Nat.testBit_mod_two_pow]
  by_cases hi : i < f.width
  · have : f.lsb ≤ f.lsb + i ∧ f.lsb + i < f.lsb + f.width := by omega
    simp [hi]
  · simp [hi]

theorem getBits_putBits_apart {f g : Fld} (h : Fits f) (ha : Apart f g) (v : Nat) (w : W32) : getBits g (putBits f v w) = getBits g w := by
  apply Nat.eq_of_testBit_eq
  intro i
  rw [getBits_testBit, getBits_testBit, putBits_getLsbD h]
  by_cases hi : i < g.width
  · have : ¬ (f.lsb ≤ g.lsb + i ∧ g.lsb + i < f.lsb + f.width) := by
      rcases ha with h1 | h1 <;> omega
    simp [this]
  · simp [hi]

theorem fld_setFld {f : Fld} (h : Fits f) (a v : Nat) (s : State) : (s.setFld a f v).fld a f = v % 2 ^ f.width := by
  simp only [State.fld, State.setFld, reg_setReg, getBits_putBits h]

theorem fld_setFld_apart {f g : Fld} (h : Fits f) (ha : Apart f g) (a v : Nat) (s : State) : (s.setFld a f v).fld a g = s.fld a g := by
  simp only [State.fld, State.setFld, reg_setReg, getBits_putBits_apart h ha]

theorem fld_setFld_ne {a b : Nat} (h : b ≠ a) (f g : Fld) (v : Nat) (s : State) : (s.setFld a f v).fld b g = s.fld b g := by
  simp only [State.fld, State.setFld, reg_setReg_ne h]

theorem flag_setFlag {f : Fld} (h : Fits f) (hw : f.width = 1) (a : Nat) (b : Bool) (s : State) : (s.setFlag a f b).flag a f = b := by
  simp only [State.flag, State.setFlag, fld_setFld h, hw]
  cases b <;> rfl

theorem flag_setFlag_ne {a c : Nat} (h : c ≠ a) (f g : Fld) (b : Bool) (s : State) : (s.setFlag a f b).flag c g = s.flag c g := by
  simp only [State.flag, State.setFlag, fld_setFld_ne h]

theorem flag_setFlag_apart {f g : Fld} (h : Fits f) (ha : Apart f g) (a : Nat) (b : Bool) (s : State) : (s.setFlag a f b).flag a g = s.flag a g := by
  simp only [State.flag, State.setFlag, fld_setFld_apart h ha]

end Sys2Proof.Laws
end

