-- ==== Sys2Proof/Laws/Requests.lean ====
section
/-! SUPPORT. What the three shared forms of a command do, case by case: a queue's command (R66, R72) an enclave's service (R342), a mailbox
request (R474). -/
namespace Sys2Proof.Laws
open Sys2Proof.Machine Sys2Proof.Safety

/-! ### A queue's command -/

/-- Nothing may start: nothing happens. -/
theorem runCommand_idle {q : Fin 64} {op : Nat} {f : Desc → State → Option (Nat × Nat × Nat) × State} {s : State} (h : s.startable q op = none) :
    s.runCommand q op f = s := by simp only [State.runCommand, h]

/-- The command ends at once: its entry completes. -/
theorem runCommand_ends {q : Fin 64} {op : Nat} {f : Desc → State → Option (Nat × Nat × Nat) × State} {s u v : State} {e : QEntry} {st r0 r1 : Nat}
    (h : Started q op s e u) (hf : f e.desc u = (some (st, r0, r1), v)) : s.runCommand q op f = v.complete e st r0 r1 := by
  obtain ⟨h, rfl⟩ := h
  simp only [State.runCommand, h, hf]

/-- The command goes on: the queue settles and what waits is released. -/
theorem runCommand_goes_on {q : Fin 64} {op : Nat} {f : Desc → State → Option (Nat × Nat × Nat) × State} {s u v : State} {e : QEntry}
    (h : Started q op s e u) (hf : f e.desc u = (none, v)) : s.runCommand q op f = (v.settle q).releaseWaiters := by
  obtain ⟨h, rfl⟩ := h
  simp only [State.runCommand, h, hf]

/-! ### A service of the enclave -/

variable {ch : Fin 2} {code : Nat} {form part : List Byte → Bool} {body : List Byte → State → State} {s : State}

/-- No such request is due. -/
theorem service_idle (h : ¬(s.svcDue ch = true ∧ s.svcCode ch = code)) : s.service ch code form part body = s := by
  unfold State.service
  refine if_pos ?_
  rcases h' : s.svcDue ch with _ | _
  · exact .inl rfl
  · exact .inr (fun e => h ⟨h', e⟩)

/-- A malformed request. -/
theorem service_malformed (h : s.svcDue ch = true ∧ s.svcCode ch = code) (hf : ¬(s.svcHeader ch = true ∧ form (s.svcArgs ch) = true)) :
    s.service ch code form part body = s.secAnswer ch 0x01 [] := by
  unfold State.service
  refine (if_neg (fun x => ?_)).trans (if_pos ?_)
  · rcases x with x | x
    · rw [h.1] at x; cases x
    · exact x h.2
  · rcases h' : s.svcHeader ch with _ | _
    · exact .inl rfl
    · exact .inr (Bool.eq_false_iff.mpr (fun e => hf ⟨h', e⟩))

/-- A service that the part does not have. -/
theorem service_absent (h : s.svcDue ch = true ∧ s.svcCode ch = code) (hf : s.svcHeader ch = true ∧ form (s.svcArgs ch) = true)
    (hp : part (s.svcArgs ch) = false) : s.service ch code form part body = s.secAnswer ch 0x03 [] := by
  unfold State.service
  refine (if_neg (fun x => ?_)).trans ((if_neg (fun x => ?_)).trans (if_pos hp))
  · rcases x with x | x
    · rw [h.1] at x; cases x
    · exact x h.2
  · rcases x with x | x
    · rw [hf.1] at x; cases x
    · rw [hf.2] at x; cases x

/-- A service that the enclave's state does not accept. -/
theorem service_refused (h : s.svcDue ch = true ∧ s.svcCode ch = code) (hf : s.svcHeader ch = true ∧ form (s.svcArgs ch) = true)
    (hp : part (s.svcArgs ch) = true) (ha : svcAccepted s.secStateCode code = false) :
    s.service ch code form part body = s.secAnswer ch 0x02 [] := by
  unfold State.service
  refine (if_neg (fun x => ?_)).trans ((if_neg (fun x => ?_)).trans ((if_neg (fun x => ?_)).trans (if_pos ha)))
  · rcases x with x | x
    · rw [h.1] at x; cases x
    · exact x h.2
  · rcases x with x | x
    · rw [hf.1] at x; cases x
    · rw [hf.2] at x; cases x
  · rw [hp] at x; cases x

/-- The service itself. -/
theorem service_body (h : s.svcDue ch = true ∧ s.svcCode ch = code) (hf : s.svcHeader ch = true ∧ form (s.svcArgs ch) = true)
    (hp : part (s.svcArgs ch) = true) (ha : svcAccepted s.secStateCode code = true) :
    s.service ch code form part body = body (s.svcArgs ch) s := by
  unfold State.service
  refine (if_neg (fun x => ?_)).trans ((if_neg (fun x => ?_)).trans ((if_neg (fun x => ?_)).trans (if_neg (fun x => ?_))))
  · rcases x with x | x
    · rw [h.1] at x; cases x
    · exact x h.2
  · rcases x with x | x
    · rw [hf.1] at x; cases x
    · rw [hf.2] at x; cases x
  · rw [hp] at x; cases x
  · rw [ha] at x; cases x

/-- The same, for a request that is asked. -/
theorem service_asked {l : List Byte} (h : Asked s ch code l (form l) (part l)) : s.service ch code form part body = body l s := by
  obtain ⟨h1, h2, rfl, h4, h5, h6, h7⟩ := h
  exact service_body ⟨h1, h2⟩ ⟨h4, h5⟩ h6 h7

/-! ### A mailbox request -/

/-- No such request is served. -/
theorem serve_idle {slot : Fin 64} {n : Nat} {f : CoreId → List Byte → State → Answer × State} {s : State}
    (h : s.servable slot.val n = false) : s.serve slot n f = s := by
  simp only [State.serve, h]

/-- A request is served: the answer is written and the slot is done. -/
theorem serve_served {slot : Fin 64} {n : Nat} {f : CoreId → List Byte → State → Answer × State} {s u : State} {k : CoreId} {l : List Byte}
    (h : Served s slot n k l u) :
    s.serve slot n f = (((f k l u).2).setBytes (mbxResp slot.val) (leBytes 2 n ++ [0, 0] ++ (f k l u).1.data)).mbxDone slot.val (f k l u).1.result := by
  obtain ⟨h1, h2, rfl, rfl⟩ := h
  simp only [State.serve, h1, h2]

end Sys2Proof.Laws
end

