-- ==== Sys2Proof/Laws/Words.lean ====
section
/-! SUPPORT. Words of Hexso instructions: packing a word's fields and taking them out again undo each other (Tables HXS-6, HXS-7). -/
namespace Sys2Proof.Laws

/-- The value of two words side by side. -/
theorem app_toNat {m n : Nat} (x : BitVec m) (y : BitVec n) : (x ++ y).toNat = x.toNat * 2 ^ n + y.toNat := by
  rw [BitVec.toNat_append, ← Nat.shiftLeft_add_eq_or_of_lt y.isLt, Nat.shiftLeft_eq]

/-- The value of a word of format R. -/
theorem packR_toNat (o : BitVec 6) (a b c : BitVec 5) (f : BitVec 11) : (packR o a b c f).toNat =
    (((o.toNat * 2 ^ 5 + a.toNat) * 2 ^ 5 + b.toNat) * 2 ^ 5 + c.toNat) * 2 ^ 11 + f.toNat := by
  unfold packR
  simp only [app_toNat]

/-- The value of a word of format I, S or B. -/
theorem packI_toNat (o : BitVec 6) (a b : BitVec 5) (f : BitVec 16) : (packI o a b f).toNat =
    ((o.toNat * 2 ^ 5 + a.toNat) * 2 ^ 5 + b.toNat) * 2 ^ 16 + f.toNat := by
  unfold packI
  simp only [app_toNat]

/-- The value of a word of format J. -/
theorem packJ_toNat (o : BitVec 6) (a : BitVec 5) (f : BitVec 21) : (packJ o a f).toNat =
    (o.toNat * 2 ^ 5 + a.toNat) * 2 ^ 21 + f.toNat := by
  unfold packJ
  simp only [app_toNat]

/-- The value of a field of a word. -/
theorem ext_toNat (s n : Nat) (w : BitVec 32) : (w.extractLsb' s n).toNat = w.toNat / 2 ^ s % 2 ^ n := by
  rw [BitVec.extractLsb'_toNat, Nat.shiftRight_eq_div_pow]

/-- The fields of a word of format R are what it was packed from. -/
theorem fieldsR (o : BitVec 6) (a b c : BitVec 5) (f : BitVec 11):
    wordOp (packR o a b c f) = o.toNat ∧ wordA (packR o a b c f) = a ∧ wordB (packR o a b c f) = b
    ∧ wordC (packR o a b c f) = c ∧ wordFunc (packR o a b c f) = f.toNat := by
  have h1 := o.isLt; have h2 := a.isLt; have h3 := b.isLt; have h4 := c.isLt; have h5 := f.isLt
  simp only [wordOp, wordA, wordB, wordC, wordFunc, ← BitVec.toNat_inj, ext_toNat, packR_toNat]
  omega

/-- The fields of a word of format I, S or B are what it was packed from. -/
theorem fieldsI (o : BitVec 6) (a b : BitVec 5) (f : BitVec 16) : wordOp (packI o a b f) = o.toNat ∧ wordA (packI o a b f) = a ∧ wordB (packI o a b f) = b
    ∧ wordImm (packI o a b f) = f := by
  have h1 := o.isLt; have h2 := a.isLt; have h3 := b.isLt; have h5 := f.isLt
  simp only [wordOp, wordA, wordB, wordImm, ← BitVec.toNat_inj, ext_toNat, packI_toNat]
  omega

/-- The fields of a word of format J are what it was packed from. -/
theorem fieldsJ (o : BitVec 6) (a : BitVec 5) (f : BitVec 21) : wordOp (packJ o a f) = o.toNat ∧ wordA (packJ o a f) = a ∧ wordOff (packJ o a f) = f := by
  have h1 := o.isLt; have h2 := a.isLt; have h5 := f.isLt
  simp only [wordOp, wordA, wordOff, ← BitVec.toNat_inj, ext_toNat, packJ_toNat]
  omega

/-- Packing the fields of a word of format R gives it back. -/
theorem wholeR (w : BitVec 32) (o : BitVec 6) (f : BitVec 11) (h : wordOp w = o.toNat) (h2 : wordFunc w = f.toNat) : packR o (wordA w) (wordB w) (wordC w) f = w := by
  have h1 := w.isLt
  rw [← BitVec.toNat_inj, packR_toNat, ← h, ← h2]
  simp only [wordOp, wordA, wordB, wordC, wordFunc, ext_toNat]
  omega

/-- Packing the fields of a word of format I, S or B gives it back. -/
theorem wholeI (w : BitVec 32) (o : BitVec 6) (h : wordOp w = o.toNat) : packI o (wordA w) (wordB w) (wordImm w) = w := by
  have h1 := w.isLt
  rw [← BitVec.toNat_inj, packI_toNat, ← h]
  simp only [wordOp, wordA, wordB, wordImm, ext_toNat]
  omega

/-- Packing the fields of a word of format J gives it back. -/
theorem wholeJ (w : BitVec 32) (o : BitVec 6) (h : wordOp w = o.toNat) : packJ o (wordA w) (wordOff w) = w := by
  have h1 := w.isLt
  rw [← BitVec.toNat_inj, packJ_toNat, ← h]
  simp only [wordOp, wordA, wordOff, ext_toNat]
  omega

end Sys2Proof.Laws
end

