-- ==== Sys2Proof/Tests/Slice0.lean ====
section
/-! SUPPORT. Tests of the model on small states: one step each, with results from the spec's examples and tables; an ill-formed command for
each check of Instr.wellFormed; and for every statement with hypotheses, states and operands that meet them, clause by clause. -/

open Sys2Proof Sys2Proof.Machine Sys2Proof.Safety

namespace Sys2Proof.Tests

set_option maxRecDepth 20000
set_option Elab.async false

/-! ### Small states -/

/-- Core A runs at harbour level at the start of IMEM, with 0x20_0000 in h1. -/
def running : State := { State.reset with coreA := { coreReset with run := .running, h := coreReset.h.set 1 0x200000 } }

theorem running_fetches : Fetches running .A := ⟨rfl, rfl, by decide, fun _ h => (nomatch h), by decide⟩

/-- Core A runs at berth level, in berth bank 0. -/
def berthRunning : State := { State.reset with coreA := { coreReset with run := .running, pc := 0x100000, pstate := 0 } }

theorem berthRunning_fetches : Fetches berthRunning .A := ⟨rfl, rfl, by decide, fun _ h => (nomatch h), by decide⟩

/-- Core A runs and waits, with event bit 0 set and enabled, and an observation interrupt pending and enabled. -/
def waiting (w : CoreWait) : State :=
  { State.reset with coreA := { coreReset with run := .running, wait := w, eventH := 1, pstate := 0x111, obsIrq := true } }

/-- A descriptor of nothing: a NOP with no record. -/
def noDesc : Desc := { opcode := 0, flags := 0, unit := 0xFF, epoch := 1, level := 1, rsvd := 0, arg0 := 0, arg1 := 0, resultAddr := 0, arg2 := 0 }

/-- An entry that core A posted first to queue q. -/
def entry (q : Fin 64) (d : Desc) : QEntry :=
  { desc := d, ticket := mkTicket 1 1 q, no := 1, core := .A, bad := none, recordOk := true, started := false, sealed := false, dual := false,
    stale := false, waited := false, armed := false }

/-- Queue q holds one entry. -/
def holding (q : Fin 64) (d : Desc) (s : State) : State := s.setQueue q { s.queue q with entries := [entry q d], issued := 1 }

/-- A descriptor with an opcode, a unit and arguments. -/
def desc (opcode unit arg0 arg1 arg2 : Nat) : Desc := { noDesc with opcode, unit, arg0, arg1, arg2 }

/-- The state in which the entry that holding puts into queue q has started. -/
def begun (q : Fin 64) (d : Desc) (s : State) : State := (holding q d s).startEntry (mkTicket 1 1 q)

theorem begun_started {q : Fin 64} {op : Nat} {d : Desc} {s : State} (h : (holding q d s).startable q op = some (entry q d)) :
    Started q op (holding q d s) (entry q d) (begun q d s) := ⟨h, rfl⟩

/-- The part after reset with a field of a register set. -/
def having (l : List (Nat × Fld × Nat)) : State := l.foldl (fun s x => s.setFld x.1 x.2.1 x.2.2) State.reset

/-- A hail burst that is being sent. -/
def someBurst : HailCur := { burst := { typ := 0x10, fragIdx := 0, fragLast := 0, msgId := 0, payload := [], ticket := none }, seq := 0, start := 0, windowed := false, windows := 0 }

/-- A burst to be sent. -/
def plainBurst : HailBurst := { typ := 0x10, fragIdx := 0, fragLast := 0, msgId := 0, payload := [], ticket := none }

/-- A reception whose header is awaited. -/
def hearing : HailRecv := { metric := 25, time := 0, cand := none, header := none }

/-- A burst received with a payload. -/
def got (header : W64) (payload : List Byte) : HailRxBurst := { header, time := 0, payload }

/-- A proposal of the entropy in force with an empty map, for multiframe 2. -/
def proposal : ElwMsg := { elwIdle with typ := 1, id := 1, h64 := 316, target := 2, mapCrc := (crc32 (mapBytes [])).toNat }

/-- The initiator's change with it. -/
def changing : ElwChange := { msg := proposal, first := 0, accepted := false, mapDone := false, ticket := mkTicket 1 1 (frmQ .A) }

/-- The entry that core A posted second to queue q. -/
def nextEntry (q : Fin 64) (d : Desc) : QEntry := { entry q d with ticket := mkTicket 2 1 q, no := 2 }

/-- Queue q holds one entry that has started, and one behind it. -/
def behind (q : Fin 64) (first second : Desc) (s : State) : State :=
  let t := begun q first s
  t.setQueue q { t.queue q with entries := (t.queue q).entries ++ [nextEntry q second], issued := 2 }

/-- A service waits on a channel of the enclave, in state READY, with n bytes of arguments, which are 0. -/
def asking (ch : Fin 2) (code n : Nat) (s : State) : State :=
  (((s.setBytes (secReq ch) (leBytes 2 code ++ [0, 0] ++ leBytes 4 n)).setFlag (R.SEC_CH_STATUS ch.val) F.SEC_CH_STATUS_busy true)).setFld R.SEC_STATE
    F.SEC_STATE_state 1

/-- A message of the enclave has come by hail in one fragment. -/
def hailed (type : Nat) (payload : List Byte) (s : State) : State :=
  { s with hailA := { hailReset with toSec := [got (BitVec.ofNat 64 (type * 2 ^ 52)) payload] } }

/-- A key exchange in which a message of a type has been sent. -/
def agreeing (sent : Nat) : KaExchange :=
  { sid := List.replicate 16 0, sent, ecdhPriv := [], kemSeed := [], hello := [], resp := [], prk := [], th := [], peerFp := [], peerPolicy := [],
    peerFloor := 0, policy := [], floor := 0, inService := false, channel := none }

/-- A session in force. -/
def session : SecSession :=
  { sid := List.replicate 16 0, responder := false, since := 0, peerFp := [], peerPolicy := [], peerFloor := 0, policy := [], floor := 0, esTx := [],
    esRx := [], kaTx := [], kaRx := [], nTx := 0, nRx := none }

/-- What the enclave keeps for carrier A. -/
def secHas (ka : Option KaExchange) (cur : Option SecSession) (s : State) : State :=
  { s with sec := { s.sec with carA := { secCarReset with ka, cur } } }

/-- An epoch in force from the start. -/
def epoch : CphSlot := { act := true, mode := 1, n := 1, fe := 0, key := 0, salt := 0, hkey := 0, first := 0, records := 0 }

/-- A frame whose payload is one slot word, of tributary 0. -/
def someFrame : TxFrame := { oh := [], tags := [], d := 1, n := 16256, cap := 1, acc := 0, slot := 0, map := [128], client := [] }

/-- The tag of a record of 32 zeros under that epoch. -/
def goodTag : BitVec 128 := gcmTag (recordCtx epoch 0 1 0 0) (List.replicate 32 0)

/-- A received slot word of zeros. -/
def someWord : RxWord := { bytes := List.replicate 32 0, bad := false, absent := false, first := false }

/-- A carrier of CPH at which a record of one such word of tributary 0 is due, with its tag. -/
def dueRecord (tag : Nat) : CphCarrier := { cphCarReset with due := [(0, someWord)], dueTags := beBytes 16 tag }

/-- A run of a converter's calibration. -/
def calibration (v phase : Nat) (idle : Bool) : AnlRun := { v, phase, temp := 0, time := 0, idle, recs := [] }

/-- Calibration unit u works on a run. -/
def calibrating (u : Fin 4) (r : AnlRun) (s : State) : State := { s with anl := { s.anl with units := s.anl.units.set u (some r) } }

/-- A monitor in a certain condition. -/
def measuring (m : MonMod) (s : State) : State := { s with mon := { s.mon with mods := s.mon.mods.set 3 m } }

/-- An entry into MOOR under way. -/
def parking : PwrEntry := { target := 1, left := 1, ticket := none }

/-- A capture of the observation registers. -/
def capturing : ObsCapture := { seq := 1, buf := 0, regs := [], tide := 0, devtime := 0, flags := 0 }

/-- Core A takes an instruction, with an address in h2 and a status. -/
def pointing (a : W64) (ps : W32) : State := { running with coreA := { running.coreA with h := running.coreA.h.set 2 a, pstate := ps } }

/-- The same, with carrier A laid up. -/
def pointingParked (a : W64) (ps : W32) : State := (pointing a ps).setFld (R.PWR_DOM_STATE 4) F.PWR_DOM_STATE_state 2

/-- A core takes an instruction, the conditions of Fetches as a computation. -/
def takes (s : State) (k : CoreId) : Bool :=
  (s.core k).run == .running && (s.core k).wait == .none && s.fetchOk (s.core k).harbour (s.core k).pc.toNat && s.ecc.marks.isEmpty
    && legalWord (BitVec.ofNat 32 (s.load (coreAddr k (s.core k).pc.toNat) 4))

theorem takes_fetches {s : State} {k : CoreId} (h : takes s k = true) : Fetches s k := by
  simp only [takes, Bool.and_eq_true, beq_iff_eq, List.isEmpty_iff] at h
  exact ⟨h.1.1.1.1, h.1.1.1.2, h.1.1.2, by simp [Unmarked, h.1.2], h.2⟩

/-- The forms of what an access of a core comes to. -/
def isFault : Option CoreRes → Bool
  | some (.fault _ _ _ _) => true
  | _ => false
def isNext : CoreRes → Bool
  | .next _ => true
  | _ => false
def isParked : CoreRes → Bool
  | .parked _ _ _ => true
  | _ => false

/-- The host interface serves, and core A runs the harbour firmware. -/
def harbourUp : State := { running with time := { running.time with rootLocked := true } }

/-- A request waits in slot 63, with the bytes of its arguments that are not 0 first. -/
def requested (code : Nat) (args : List Byte) (s : State) : State :=
  ((s.setBytes (mbxReq 63) (leBytes 2 code ++ [0, 0] ++ args)).setMbxBit R.HIF_MBX_BUSY 63 true).setMbxBit R.HIF_MBX_PEND 63 true

/-- An entry of the logbook that waits. -/
def staged : LogEntry := { kind := 1, time := 0, poh := 0, payload := [] }

/-- An event that waits for the ledger. -/
def noted : LedgerEvent := { time := 0, block := 0x10, sev := 1, code := 1, data := [] }

/-- A flash whose first directory copy is valid. -/
def withDirectory (s : State) : State :=
  let l := leBytes 4 0x44505443 ++ leBytes 2 1 ++ List.replicate 54 0
  s.flashProgram 0 (l ++ leBytes 4 (crc32 l).toNat)

/-- Core A with an entry of queue 0 that completed with a status. -/
def finished (status : Nat) : State := ((holding 0 noDesc running).startEntry (mkTicket 1 1 0)).complete (entry 0 noDesc) status 0 0

/-- A snapshot of a core. -/
def snapOf : CoreSnap :=
  { h := Vector.replicate 32 0, pc := 0, pstate := 0, tvec := 0, epc := 0, faddr := 0, fault := 0, eventH := 0, eventB := 0, scratch := Vector.replicate 16 0,
    bank := false }

/-- A copy of the hawser. -/
def copying : HawserCopy := { snap := snapOf, lines := [], saved := [], isWhole := true, incomplete := false, isVoid := false }

/-! ### One step each, from the spec's examples and tables -/

/-- The step ends in a next state of which p holds. -/
def after (o : Out) (p : State → Bool) : Bool :=
  match o with
  | .next s => p s
  | _ => false

/-- Core A runs at harbour level with some general registers set. -/
def regsOf (l : List (Fin 32 × Nat)) (s : State) : State :=
  { s with coreA := { s.coreA with run := .running, h := l.foldl (fun v x => v.set x.1 (BitVec.ofNat 64 x.2)) coreReset.h } }

/-- R46's example: -1.0 × -1.0 added to 0 is limited to 0x7FFF_FFFF, and sat is set. -/
theorem test_maddq_limits : after (exec (.maddq .A 3 1 2) (regsOf [(1, 0x80000000), (2, 0x80000000)] State.reset))
    (fun s => s.coreA.gpr 3 == 0x7FFFFFFF && s.coreA.pstate.getLsbD 5) = true := by decide +kernel

/-- The controller example of 02_hexso_programming.md: the integrator 0x3000_0000 grows to 0x3040_0000 and nothing is limited. -/
theorem test_maddq_integrates : after (exec (.maddq .A 22 7 21) (regsOf [(22, 0x30000000), (7, 0x02000000), (21, 0x10000000)] State.reset))
    (fun s => s.coreA.gpr 22 == 0x30400000 && !s.coreA.pstate.getLsbD 5) = true := by decide +kernel

/-- Table HXS-7: LUI sign-extends the immediate and shifts it left by 16. -/
theorem test_lui_extends_sign : after (exec (.lui .A 5 0 0x8000) (regsOf [] State.reset))
    (fun s => s.coreA.gpr 5 == 0xFFFFFFFF80000000) = true := by decide +kernel

/-- Table HXS-7: CLZ of 0 is 64. -/
theorem test_clz_of_zero : after (exec (.clz .A 4 0 0) (regsOf [] State.reset)) (fun s => s.coreA.gpr 4 == 64) = true := by decide +kernel

/-- R47: BLT compares signed, BLTU unsigned: -1 is below 0 for the one only. -/
theorem test_branches_compare : after (exec (.blt .A 1 0 4) (regsOf [(1, 2 ^ 64 - 1)] State.reset)) (fun s => s.coreA.pc == 16) = true
    ∧ after (exec (.bltu .A 1 0 4) (regsOf [(1, 2 ^ 64 - 1)] State.reset)) (fun s => s.coreA.pc == 4) = true := by decide +kernel

/-- R38, R48: a word stored to DMEM is read back by byte, the lowest first. -/
theorem test_store_then_load : after (exec (.stW .A 2 1 0) (regsOf [(1, 0x200000), (2, 0x11223344)] State.reset))
    (fun s => after (exec (.ldB .A 3 1 0) s) (fun t => t.coreA.gpr 3 == 0x44)) = true := by decide +kernel

/-- R47: a misaligned load raises an alignment fault (cause 0x03) and is not performed. -/
theorem test_misaligned_load_faults : after (exec (.ldW .A 3 1 2) (regsOf [(1, 0x200000)] State.reset))
    (fun s => s.coreA.fault == 0x03 && s.coreA.faddr == 0x200002 && s.coreA.fh) = true := by decide +kernel

/-- R58, with the example after R60: harbour level holds ball 0x0F with function 2; its CLAIM with function 3 answers 0x0F02_0101. -/
theorem test_claim_busy_word : after (exec (.claim .A 2 1 2) (regsOf [(1, 0x0F)] State.reset))
    (fun s => after (exec (.claim .A 3 1 3) s) (fun t => t.coreA.gpr 3 == 0x0F020101)) = true := by decide +kernel

/-- R50: SEND to queue 64 raises a queue fault (cause 0x07) with the queue number in FAULT[31:16]. -/
theorem test_send_queue_fault : after (exec (.send .A 3 1 2) (regsOf [(1, 64), (2, 0x200000)] State.reset))
    (fun s => s.coreA.fault == 0x00400007) = true := by decide +kernel

/-- R57, R58: a part of the absent carrier B cannot be claimed on the CTP-2S: status 2. -/
theorem test_claim_absent_carrier : after (exec (.claim .A 3 1 0) (regsOf [(1, 0x25)] { State.reset with part := .ctp2s }))
    (fun s => s.coreA.gpr 3 == 0x25000002) = true := by decide +kernel

/-- Table LFR-2, first row, and the example of R237: the 2.0 Tb/s mode (256 GBd, 64QAM, rate 13/15, h64 = 316) has 400 slots. -/
theorem test_capacity : capacityOf 2048 2 2 316 = 400 := by decide +kernel

/-- The example of R461: 4.760e9 errors in 1.4876e12 bits fall into bin 5; no error into bin 27. -/
theorem test_ber_bin : berBin 4760000000 1487600000000 = 5 ∧ berBin 0 1487600000000 = 27 := by decide +kernel

/-- The example of R354: with 1,000 lines to copy the tide is extended by 120 housekeeping cycles, counted as one overrun. -/
theorem test_hawser_extension :
    (let s : State := State.copyStart .A .B { having [(R.PLT_STATUS, F.PLT_STATUS_role_b, 1)] with hws := { State.reset.hws with pend := List.range 1000, pendFrom := 32768 } }
     s.time.ext == 120 && (s.reg R.HWS_OVERRUN_CNT).toNat == 1) = true := by decide +kernel

/-- R54's example: two COMMITs before an engine's boundary; the boundary applies the union, the later value of each field. -/
theorem test_pending_union :
    (let x : Fld := F.TXP_IQ_TRIM_X_iq_gain
     let y : Fld := F.TXP_IQ_TRIM_X_iq_phase
     let a := R.TXP_IQ_TRIM_X .B
     let on := State.reset.setFld (R.TXP_STATE .B) F.TXP_STATE_state 3
     let one := ((on.writeFld a (putBits y 7 3) x).writeFld a (putBits y 7 3) y).commitStaged
     let two := (one.writeFld a 5 x).commitStaged
     two.fld a x == 0 && after (exec (.txSuperframeBoundary .B 0 false) two) (fun s => s.fld a x == 5 && s.fld a y == 7)) = true := by decide +kernel

/-- The example after R114: the 16QAM word of 128 amplitudes with 96 information bits has 98 of amplitude 1 and 30 of amplitude 3. -/
theorem test_composition : composition [1, 3] 128 96 = some [98, 30] := by decide +kernel

/-- The example after R180: in the 2.0 Tb/s mode a matcher word takes 22,560 bits; that of R237: D, N, and 15,967 slot words in the first frame. -/
theorem test_mode_numbers : kAmp 2 316 = 22560 ∧ calD 2 400 = 31457280000 ∧ calN 2048 2 2 316 = 32026140672
    ∧ (calFrame 31457280000 32026140672 0).1 = 15967 := by decide +kernel

/-- The example of 13_cipher_engine.md: J0, the AAD and the length block of record 1,000,255 of client 5. -/
theorem test_record_blocks : gcmJ0 0x1A2B3C4D 255 = 0x1A2B3C4D00000000000000FF00000001
    ∧ recordAad 5 2 1 3194 400 1000255 = 0x550502010C7A019000000000000F433F
    ∧ recordLen 3194 = 0x000000000000008000000000000C7A00 := by decide +kernel

/-- The AES-256 example of FIPS 197, which the spec names no more than that (notes/assumptions/101.md). -/
theorem test_aes_block : aesBlock 0x000102030405060708090A0B0C0D0E0F101112131415161718191A1B1C1D1E1F 0x00112233445566778899AABBCCDDEEFF
    = 0x8EA2B7CA516745BFEAFC49904B496089 := by decide +kernel

/-- R44 and the example of R45: words written out by the fields of Table HXS-6, one of each format, and the two words that R44 names. -/
theorem test_words_decode :
    decodeTableWord 32 0x08A01800 = some (.lui .A 5 0 0x1800)
    ∧ decodeTableWord 32 0x60C50100 = some (.ldx .A 6 5 0x0100)
    ∧ decodeTableWord 32 0b00000000101001110100100000000001 = some (.sub .A 5 7 9)
    ∧ decodeTableWord 32 0b01011000101001111111111111111100 = some (.stW .A 5 7 0xFFFC)
    ∧ decodeTableWord 32 0b00100100011001000000000000000010 = some (.bne .A 3 4 2)
    ∧ decodeTableWord 32 0b00110100001111111111111111111111 = some (.jal .A 1 0x1FFFFF)
    ∧ decodeTableWord 32 0b10010000000000000000000000010000 = some (.commit .A 0 0 0)
    ∧ decodeTableWord 32 0 = some (.add .A 0 0 0) ∧ decodeTableWord 32 0xFFFFFFFF = none
    ∧ decodeTableWord 32 0b10010000000000000000000000010001 = none ∧ decodeTableWord 32 0b10010000001000000000000000010000 = none := by decide +kernel

/-- R489: with TEST_EN sampled high, start-up never comes: what the device does in its place the spec does not specify. -/
theorem test_test_mode_stops :
    (match exec .rootPllLocked { State.reset with pins := { State.reset.pins with testEn := true } } with
     | .fault (.unspecified n) => n == 489
     | _ => false) = true := by decide +kernel

/-- An empty queue: a step is a crystal cycle, in which DEVTIME advances by 20 ns, 200 units of 100 ps, and no command runs. -/
theorem test_idle_step : after (step State.reset) (fun s => s.pending.isEmpty && s.time.devtime == 200) = true := by decide +kernel

/-! ### Ill-formed commands, which the check refuses -/

/-- One command for each check of Instr.wellFormed, which breaks that check alone. -/
theorem test_ill_formed_refused : ([
    .clz .A 1 1 1, .lui .A 1 1 0, .pollt .A 1 1 1, .fenceR .A 1 0 0, .fenceR .A 0 1 0, .fenceR .A 0 0 1, .fenceQ .A 1 0 0,
    .fenceQ .A 0 1 0, .fenceQ .A 0 0 1, .fenceA .A 1 0 0, .fenceA .A 0 1 0, .fenceA .A 0 0 1, .commit .A 1 0 0, .commit .A 0 1 0,
    .commit .A 0 0 1, .eret .A 1 0 0, .eret .A 0 1 0, .eret .A 0 0 1, .claim .A 1 1 0x0010, .release .A 1 1 0, .release .A 0 1 1,
    .mfs .A 1 1 0, .mfs .A 1 0 0x1000, .mts .A 1 1 0, .mts .A 1 0 0x8000, .trap .A 1 0 0, .trap .A 0 1 0, .wfe .A 1 1 0, .wfe .A 1 0 1,
    .enclaveBoot 0x1B [], .eqTapUpdate .A [] (List.replicate 4 (0, 0, 0)), .eqTapUpdate .A (List.replicate 384 0) [],
    .hailBurstReceived .A (List.replicate 2049 0) 0, .frmFasSearchMatch .A 4194304 true, .frmRxFrame .A [0] [] [], .ospWindow 0 true [0],
    .brtIngressFrame 0 (List.replicate 65536 0), .laneRxReady true 8 0, .laneL1ExitTimeout true 8, .laneLosDeclared true 8, .laneLosCleared true 8,
    .quayBlockReceived 0 [], .laneFault true 8, .selfTest 0 0x10, .secErrorEntry 0x0F,
    .refSourceDisqualify 0 4, .monEntryEnd 0 [] false false, .monEntryEnd 0 (List.replicate 257 0) false false, .anlRunEnd 0 []] : List Instr).all (fun i => !i.wellFormed) = true := by decide +kernel

/-- A payload longer than a frame's 16,256 words is ill formed. -/
theorem test_long_payload_refused : (Instr.frmRxFrame .A (List.replicate 4096 0) (List.replicate 520193 0) []).wellFormed = false := by
  rw [show (Instr.frmRxFrame .A (List.replicate 4096 0) (List.replicate 520193 0) []).wellFormed
    = ((List.replicate 4096 (0 : Byte)).length = 4096 && (List.replicate 520193 (0 : Byte)).length ≤ 520192 : Bool) from rfl, List.length_replicate, List.length_replicate]
  decide

/-! ### What meets the hypotheses of the statements -/

/-- A state and operands that meet the hypotheses of StepTakesFront. -/
theorem witness_StepTakesFront : State.reset.pending = [] := by decide +kernel

/-- A state and operands that meet the hypotheses of MemoriesKept. -/
theorem witness_MemoriesKept : (∃ t, step State.reset = .next t) ∧ MemOk State.reset ∧ FlashOk State.reset := ⟨⟨_, rfl⟩, rfl, rfl⟩

/-- A state and operands that meet the hypotheses of ScopesKept. -/
theorem witness_ScopesKept : ∃ t, exec .resetNRelease State.reset = .next t := ⟨_, rfl⟩

/-- A state and operands that meet the hypotheses of DevtimeAdvances. -/
theorem witness_DevtimeAdvances : State.reset.pending = [] ∧ State.reset.pins.poresetN = true ∧ State.reset.time.frac < 2 ^ 20 ∧ State.reset.time.xtalStopped = false ∧ { State.reset with time := { State.reset.time with xtalStopped := true } }.time.xtalStopped = true := by decide +kernel

/-- A state and operands that meet the hypotheses of ArithmeticWritesRd. -/
theorem witness_ArithmeticWritesRd : Fetches running .A := running_fetches

/-- A state and operands that meet the hypotheses of MaddqLimits. -/
theorem witness_MaddqLimits : Fetches running .A := running_fetches

/-- A state and operands that meet the hypotheses of BranchesJump. -/
theorem witness_BranchesJump : Fetches running .A ∧ ((running.core .A).gpr 0 + (0 : BitVec 16).signExtend 64).toNat % 4 = 0 := ⟨running_fetches, by decide⟩

/-- A state and operands that meet the hypotheses of LoadsReadMemory. -/
theorem witness_LoadsReadMemory : Fetches running .A ∧ (running.core .A).gpr 1 = 0x200000 ∧ running.loadOk (running.core .A).harbour 0x200000 = true ∧ Unmarked running (coreAddr .A 0x200000) 8 := ⟨running_fetches, by decide, by decide, fun _ h => nomatch h⟩

/-- A state and operands that meet the hypotheses of StoresWriteMemory. -/
theorem witness_StoresWriteMemory : Fetches running .A ∧ (running.core .A).gpr 1 = 0x200000 ∧ running.storeOk (running.core .A).harbour 0x200000 = true := ⟨running_fetches, by decide⟩

/-- States and operands that meet the hypotheses of SpecialRegistersChecked, clause by clause in the order of the statement. -/
theorem witness_SpecialRegistersChecked : ([
    (let k : CoreId := .A
     let s : State := running
     let imm : BitVec 16 := 0x2F
     let c := s.core k
     let n := imm.toNat
     decide (((s.core k).run = .running) ∧ ((s.core k).wait = .none) ∧ (s.fetchOk (s.core k).harbour (s.core k).pc.toNat = true) ∧ (s.ecc.marks = [])
         ∧ (legalWord (BitVec.ofNat 32 (s.load (coreAddr k (s.core k).pc.toNat) 4)) = true) ∧ ((n ≤ 0x0B ∨ (0x10 ≤ n ∧ n ≤ 0x1F) ∨ (0x20 ≤ n ∧ n
         ≤ 0x25) ∨ (0x28 ≤ n ∧ n ≤ 0x2D) ∨ n = 0x2F)) ∧ ((c.harbour = true ∨ ¬ (n = 4 ∨ n = 5 ∨ n = 6 ∨ n = 8 ∨ (0x10 ≤ n ∧ n ≤ 0x1F)))))),
    (let k : CoreId := .A
     let s : State := berthRunning
     let imm : BitVec 16 := 0x1F
     let c := s.core k
     let n := imm.toNat
     decide (((s.core k).run = .running) ∧ ((s.core k).wait = .none) ∧ (s.fetchOk (s.core k).harbour (s.core k).pc.toNat = true) ∧ (s.ecc.marks = [])
         ∧ (legalWord (BitVec.ofNat 32 (s.load (coreAddr k (s.core k).pc.toNat) 4)) = true) ∧ ((n ≤ 0x0B ∨ (0x10 ≤ n ∧ n ≤ 0x1F) ∨ (0x20 ≤ n ∧ n
         ≤ 0x25) ∨ (0x28 ≤ n ∧ n ≤ 0x2D) ∨ n = 0x2F)) ∧ (c.harbour = false) ∧ ((n = 4 ∨ n = 5 ∨ n = 6 ∨ n = 8 ∨ (0x10 ≤ n ∧ n ≤ 0x1F))))),
    (let k : CoreId := .A
     let s : State := running
     let imm : BitVec 16 := 0x2F
     let c := s.core k
     let n := imm.toNat
     decide (((s.core k).run = .running) ∧ ((s.core k).wait = .none) ∧ (s.fetchOk (s.core k).harbour (s.core k).pc.toNat = true) ∧ (s.ecc.marks = [])
         ∧ (legalWord (BitVec.ofNat 32 (s.load (coreAddr k (s.core k).pc.toNat) 4)) = true) ∧ ((n ≤ 0x0B ∨ (0x10 ≤ n ∧ n ≤ 0x1F) ∨ (0x20 ≤ n ∧ n
         ≤ 0x25) ∨ (0x28 ≤ n ∧ n ≤ 0x2D) ∨ n = 0x2F)) ∧ (¬ (n ≤ 3 ∨ n = 9 ∨ n = 10)) ∧ ((c.harbour = true ∨ n = 0x0B)))),
    (let k : CoreId := .A
     let s : State := berthRunning
     let imm : BitVec 16 := 0x2F
     let c := s.core k
     let n := imm.toNat
     decide (((s.core k).run = .running) ∧ ((s.core k).wait = .none) ∧ (s.fetchOk (s.core k).harbour (s.core k).pc.toNat = true) ∧ (s.ecc.marks = [])
         ∧ (legalWord (BitVec.ofNat 32 (s.load (coreAddr k (s.core k).pc.toNat) 4)) = true) ∧ ((n ≤ 0x0B ∨ (0x10 ≤ n ∧ n ≤ 0x1F) ∨ (0x20 ≤ n ∧ n
         ≤ 0x25) ∨ (0x28 ≤ n ∧ n ≤ 0x2D) ∨ n = 0x2F)) ∧ (¬ (n ≤ 3 ∨ n = 9 ∨ n = 10)) ∧ (c.harbour = false) ∧ (n ≠ 0x0B))),
    (let k : CoreId := .A
     let s : State := running
     let imm : BitVec 16 := 0x0C
     let n := imm.toNat
     decide (((s.core k).run = .running) ∧ ((s.core k).wait = .none) ∧ (s.fetchOk (s.core k).harbour (s.core k).pc.toNat = true) ∧ (s.ecc.marks = [])
         ∧ (legalWord (BitVec.ofNat 32 (s.load (coreAddr k (s.core k).pc.toNat) 4)) = true) ∧ ((¬ (n ≤ 0x0B ∨ (0x10 ≤ n ∧ n ≤ 0x1F) ∨ (0x20 ≤ n ∧
         n ≤ 0x25) ∨ (0x28 ≤ n ∧ n ≤ 0x2D) ∨ n = 0x2F) ∨ (n ≤ 3 ∨ n = 9 ∨ n = 10))))),
    (let k : CoreId := .A
     let s : State := running
     let imm : BitVec 16 := 0x0C
     let n := imm.toNat
     decide (((s.core k).run = .running) ∧ ((s.core k).wait = .none) ∧ (s.fetchOk (s.core k).harbour (s.core k).pc.toNat = true) ∧ (s.ecc.marks = [])
         ∧ (legalWord (BitVec.ofNat 32 (s.load (coreAddr k (s.core k).pc.toNat) 4)) = true) ∧ (¬ (n ≤ 0x0B ∨ (0x10 ≤ n ∧ n ≤ 0x1F) ∨ (0x20 ≤ n ∧
         n ≤ 0x25) ∨ (0x28 ≤ n ∧ n ≤ 0x2D) ∨ n = 0x2F)))),
    (let k : CoreId := .A
     let s : State := running
     let ra : BitVec 5 := 1
     decide (((s.core k).run = .running) ∧ ((s.core k).wait = .none) ∧ (s.fetchOk (s.core k).harbour (s.core k).pc.toNat = true) ∧ (s.ecc.marks = [])
         ∧ (legalWord (BitVec.ofNat 32 (s.load (coreAddr k (s.core k).pc.toNat) 4)) = true) ∧ (ra ≠ 0))),
    (let k : CoreId := .A
     let s : State := running
     let ra : BitVec 5 := 1
     decide (((s.core k).run = .running) ∧ ((s.core k).wait = .none) ∧ (s.fetchOk (s.core k).harbour (s.core k).pc.toNat = true) ∧ (s.ecc.marks = [])
         ∧ (legalWord (BitVec.ofNat 32 (s.load (coreAddr k (s.core k).pc.toNat) 4)) = true) ∧ (ra ≠ 0))),
    (let k : CoreId := .A
     let s : State := running
     let imm : BitVec 16 := 0x2F
     let c := s.core k
     let n := imm.toNat
     decide (((s.core k).run = .running) ∧ ((s.core k).wait = .none) ∧ (s.fetchOk (s.core k).harbour (s.core k).pc.toNat = true) ∧ (s.ecc.marks = [])
         ∧ (legalWord (BitVec.ofNat 32 (s.load (coreAddr k (s.core k).pc.toNat) 4)) = true) ∧ ((n ≤ 0x0B ∨ (0x10 ≤ n ∧ n ≤ 0x1F) ∨ (0x20 ≤ n ∧ n
         ≤ 0x25) ∨ (0x28 ≤ n ∧ n ≤ 0x2D) ∨ n = 0x2F)) ∧ ((c.harbour = true ∨ ¬ (n = 4 ∨ n = 5 ∨ n = 6 ∨ n = 8 ∨ (0x10 ≤ n ∧ n ≤ 0x1F)))))),
    (let k : CoreId := .A
     let s : State := running
     let imm : BitVec 16 := 0x2F
     let c := s.core k
     let n := imm.toNat
     decide (((s.core k).run = .running) ∧ ((s.core k).wait = .none) ∧ (s.fetchOk (s.core k).harbour (s.core k).pc.toNat = true) ∧ (s.ecc.marks = [])
         ∧ (legalWord (BitVec.ofNat 32 (s.load (coreAddr k (s.core k).pc.toNat) 4)) = true) ∧ ((n ≤ 0x0B ∨ (0x10 ≤ n ∧ n ≤ 0x1F) ∨ (0x20 ≤ n ∧ n
         ≤ 0x25) ∨ (0x28 ≤ n ∧ n ≤ 0x2D) ∨ n = 0x2F)) ∧ (¬ (n ≤ 3 ∨ n = 9 ∨ n = 10)) ∧ ((c.harbour = true ∨ n = 0x0B)))),
    (let k : CoreId := .A
     let s : State := running
     let imm : BitVec 16 := 0x2F
     let c := s.core k
     let n := imm.toNat
     decide (((s.core k).run = .running) ∧ ((s.core k).wait = .none) ∧ (s.fetchOk (s.core k).harbour (s.core k).pc.toNat = true) ∧ (s.ecc.marks = [])
         ∧ (legalWord (BitVec.ofNat 32 (s.load (coreAddr k (s.core k).pc.toNat) 4)) = true) ∧ ((n ≤ 0x0B ∨ (0x10 ≤ n ∧ n ≤ 0x1F) ∨ (0x20 ≤ n ∧ n
         ≤ 0x25) ∨ (0x28 ≤ n ∧ n ≤ 0x2D) ∨ n = 0x2F)) ∧ (¬ (n ≤ 3 ∨ n = 9 ∨ n = 10)) ∧ ((c.harbour = true ∨ n = 0x0B)))),
    (let k : CoreId := .A
     let s : State := running
     let imm : BitVec 16 := 0x2F
     let c := s.core k
     let n := imm.toNat
     decide (((s.core k).run = .running) ∧ ((s.core k).wait = .none) ∧ (s.fetchOk (s.core k).harbour (s.core k).pc.toNat = true) ∧ (s.ecc.marks = [])
         ∧ (legalWord (BitVec.ofNat 32 (s.load (coreAddr k (s.core k).pc.toNat) 4)) = true) ∧ ((n ≤ 0x0B ∨ (0x10 ≤ n ∧ n ≤ 0x1F) ∨ (0x20 ≤ n ∧ n
         ≤ 0x25) ∨ (0x28 ≤ n ∧ n ≤ 0x2D) ∨ n = 0x2F)) ∧ (¬ (n ≤ 3 ∨ n = 9 ∨ n = 10)) ∧ ((c.harbour = true ∨ n = 0x0B)))),
    (let k : CoreId := .A
     let s : State := running
     let imm : BitVec 16 := 0x2F
     let c := s.core k
     let n := imm.toNat
     decide (((s.core k).run = .running) ∧ ((s.core k).wait = .none) ∧ (s.fetchOk (s.core k).harbour (s.core k).pc.toNat = true) ∧ (s.ecc.marks = [])
         ∧ (legalWord (BitVec.ofNat 32 (s.load (coreAddr k (s.core k).pc.toNat) 4)) = true) ∧ ((n ≤ 0x0B ∨ (0x10 ≤ n ∧ n ≤ 0x1F) ∨ (0x20 ≤ n ∧ n
         ≤ 0x25) ∨ (0x28 ≤ n ∧ n ≤ 0x2D) ∨ n = 0x2F)) ∧ (¬ (n ≤ 3 ∨ n = 9 ∨ n = 10)) ∧ ((c.harbour = true ∨ n = 0x0B)))),
    (let k : CoreId := .A
     let s : State := running
     let imm : BitVec 16 := 0x2F
     let c := s.core k
     let n := imm.toNat
     decide (((s.core k).run = .running) ∧ ((s.core k).wait = .none) ∧ (s.fetchOk (s.core k).harbour (s.core k).pc.toNat = true) ∧ (s.ecc.marks = [])
         ∧ (legalWord (BitVec.ofNat 32 (s.load (coreAddr k (s.core k).pc.toNat) 4)) = true) ∧ ((n ≤ 0x0B ∨ (0x10 ≤ n ∧ n ≤ 0x1F) ∨ (0x20 ≤ n ∧ n
         ≤ 0x25) ∨ (0x28 ≤ n ∧ n ≤ 0x2D) ∨ n = 0x2F)) ∧ (¬ (n ≤ 3 ∨ n = 9 ∨ n = 10)) ∧ ((c.harbour = true ∨ n = 0x0B)))),
    (let k : CoreId := .A
     let s : State := running
     let imm : BitVec 16 := 0x2F
     let c := s.core k
     let n := imm.toNat
     decide (((s.core k).run = .running) ∧ ((s.core k).wait = .none) ∧ (s.fetchOk (s.core k).harbour (s.core k).pc.toNat = true) ∧ (s.ecc.marks = [])
         ∧ (legalWord (BitVec.ofNat 32 (s.load (coreAddr k (s.core k).pc.toNat) 4)) = true) ∧ ((n ≤ 0x0B ∨ (0x10 ≤ n ∧ n ≤ 0x1F) ∨ (0x20 ≤ n ∧ n
         ≤ 0x25) ∨ (0x28 ≤ n ∧ n ≤ 0x2D) ∨ n = 0x2F)) ∧ (¬ (n ≤ 3 ∨ n = 9 ∨ n = 10)) ∧ ((c.harbour = true ∨ n = 0x0B)))),
    (let k : CoreId := .A
     let s : State := running
     let imm : BitVec 16 := 0x2F
     let c := s.core k
     let n := imm.toNat
     decide (((s.core k).run = .running) ∧ ((s.core k).wait = .none) ∧ (s.fetchOk (s.core k).harbour (s.core k).pc.toNat = true) ∧ (s.ecc.marks = [])
         ∧ (legalWord (BitVec.ofNat 32 (s.load (coreAddr k (s.core k).pc.toNat) 4)) = true) ∧ ((n ≤ 0x0B ∨ (0x10 ≤ n ∧ n ≤ 0x1F) ∨ (0x20 ≤ n ∧ n
         ≤ 0x25) ∨ (0x28 ≤ n ∧ n ≤ 0x2D) ∨ n = 0x2F)) ∧ (¬ (n ≤ 3 ∨ n = 9 ∨ n = 10)) ∧ ((c.harbour = true ∨ n = 0x0B)))),
    (let k : CoreId := .A
     let s : State := running
     let imm : BitVec 16 := 0x2F
     let c := s.core k
     let n := imm.toNat
     decide (((s.core k).run = .running) ∧ ((s.core k).wait = .none) ∧ (s.fetchOk (s.core k).harbour (s.core k).pc.toNat = true) ∧ (s.ecc.marks = [])
         ∧ (legalWord (BitVec.ofNat 32 (s.load (coreAddr k (s.core k).pc.toNat) 4)) = true) ∧ ((n ≤ 0x0B ∨ (0x10 ≤ n ∧ n ≤ 0x1F) ∨ (0x20 ≤ n ∧ n
         ≤ 0x25) ∨ (0x28 ≤ n ∧ n ≤ 0x2D) ∨ n = 0x2F)) ∧ (¬ (n ≤ 3 ∨ n = 9 ∨ n = 10)) ∧ ((c.harbour = true ∨ n = 0x0B)))),
    (let k : CoreId := .A
     let s : State := running
     let imm : BitVec 16 := 0x2F
     let c := s.core k
     let n := imm.toNat
     decide (((s.core k).run = .running) ∧ ((s.core k).wait = .none) ∧ (s.fetchOk (s.core k).harbour (s.core k).pc.toNat = true) ∧ (s.ecc.marks = [])
         ∧ (legalWord (BitVec.ofNat 32 (s.load (coreAddr k (s.core k).pc.toNat) 4)) = true) ∧ ((n ≤ 0x0B ∨ (0x10 ≤ n ∧ n ≤ 0x1F) ∨ (0x20 ≤ n ∧ n
         ≤ 0x25) ∨ (0x28 ≤ n ∧ n ≤ 0x2D) ∨ n = 0x2F)) ∧ (¬ (n ≤ 3 ∨ n = 9 ∨ n = 10)) ∧ ((c.harbour = true ∨ n = 0x0B)))),
    (let k : CoreId := .A
     let s : State := running
     let imm : BitVec 16 := 0x2F
     let c := s.core k
     let n := imm.toNat
     decide (((s.core k).run = .running) ∧ ((s.core k).wait = .none) ∧ (s.fetchOk (s.core k).harbour (s.core k).pc.toNat = true) ∧ (s.ecc.marks = [])
         ∧ (legalWord (BitVec.ofNat 32 (s.load (coreAddr k (s.core k).pc.toNat) 4)) = true) ∧ ((n ≤ 0x0B ∨ (0x10 ≤ n ∧ n ≤ 0x1F) ∨ (0x20 ≤ n ∧ n
         ≤ 0x25) ∨ (0x28 ≤ n ∧ n ≤ 0x2D) ∨ n = 0x2F)) ∧ (¬ (n ≤ 3 ∨ n = 9 ∨ n = 10)) ∧ ((c.harbour = true ∨ n = 0x0B)))),
    (let k : CoreId := .A
     let s : State := running
     let imm : BitVec 16 := 0x2F
     let c := s.core k
     let n := imm.toNat
     decide (((s.core k).run = .running) ∧ ((s.core k).wait = .none) ∧ (s.fetchOk (s.core k).harbour (s.core k).pc.toNat = true) ∧ (s.ecc.marks = [])
         ∧ (legalWord (BitVec.ofNat 32 (s.load (coreAddr k (s.core k).pc.toNat) 4)) = true) ∧ ((n ≤ 0x0B ∨ (0x10 ≤ n ∧ n ≤ 0x1F) ∨ (0x20 ≤ n ∧ n
         ≤ 0x25) ∨ (0x28 ≤ n ∧ n ≤ 0x2D) ∨ n = 0x2F)) ∧ (¬ (n ≤ 3 ∨ n = 9 ∨ n = 10)) ∧ ((c.harbour = true ∨ n = 0x0B)))),
    (let k : CoreId := .A
     let s : State := running
     let imm : BitVec 16 := 0x2F
     let c := s.core k
     let n := imm.toNat
     decide (((s.core k).run = .running) ∧ ((s.core k).wait = .none) ∧ (s.fetchOk (s.core k).harbour (s.core k).pc.toNat = true) ∧ (s.ecc.marks = [])
         ∧ (legalWord (BitVec.ofNat 32 (s.load (coreAddr k (s.core k).pc.toNat) 4)) = true) ∧ ((n ≤ 0x0B ∨ (0x10 ≤ n ∧ n ≤ 0x1F) ∨ (0x20 ≤ n ∧ n
         ≤ 0x25) ∨ (0x28 ≤ n ∧ n ≤ 0x2D) ∨ n = 0x2F)) ∧ (¬ (n ≤ 3 ∨ n = 9 ∨ n = 10)) ∧ ((c.harbour = true ∨ n = 0x0B)))),
    (takes running .A && (running.core .A).harbour && (List.range 6).all (fun i => ((running.core .A).pmcSel.toList.getD i 0).toNat % 256 != 2))] : List Bool).all id = true := by decide +kernel

/-- States and operands that meet the hypotheses of FaultEntrySaves, clause by clause in the order of the statement. -/
theorem witness_FaultEntrySaves : ([
    (let c : PlelisCore := running.coreA
     let cause : Nat := 255
     let block : Nat := 255
     let detail : Nat := 65535
     decide ((cause < 256) ∧ (block < 256) ∧ (detail < 65536) ∧ (c.fh = false))),
    (let c : PlelisCore := running.coreA
     let cause : Nat := 255
     let block : Nat := 255
     let detail : Nat := 65535
     decide ((cause < 256) ∧ (block < 256) ∧ (detail < 65536) ∧ (c.fh = false))),
    (let c : PlelisCore := running.coreA
     let cause : Nat := 255
     let block : Nat := 255
     let detail : Nat := 65535
     decide ((cause < 256) ∧ (block < 256) ∧ (detail < 65536) ∧ (c.fh = false))),
    (let c : PlelisCore := running.coreA
     let cause : Nat := 255
     let block : Nat := 255
     let detail : Nat := 65535
     decide ((cause < 256) ∧ (block < 256) ∧ (detail < 65536) ∧ (c.fh = false))),
    (let c : PlelisCore := running.coreA
     let cause : Nat := 255
     let block : Nat := 255
     let detail : Nat := 65535
     decide ((cause < 256) ∧ (block < 256) ∧ (detail < 65536) ∧ (c.fh = false))),
    (let c : PlelisCore := running.coreA
     let cause : Nat := 255
     let block : Nat := 255
     let detail : Nat := 65535
     decide ((cause < 256) ∧ (block < 256) ∧ (detail < 65536) ∧ (c.fh = false))),
    (let c : PlelisCore := running.coreA
     let cause : Nat := 255
     let block : Nat := 255
     let detail : Nat := 65535
     decide ((cause < 256) ∧ (block < 256) ∧ (detail < 65536) ∧ (c.fh = false))),
    (let c : PlelisCore := running.coreA
     let cause : Nat := 255
     let block : Nat := 255
     let detail : Nat := 65535
     decide ((cause < 256) ∧ (block < 256) ∧ (detail < 65536) ∧ (c.fh = false))),
    (let c : PlelisCore := running.coreA
     let cause : Nat := 255
     let block : Nat := 255
     let detail : Nat := 65535
     decide ((cause < 256) ∧ (block < 256) ∧ (detail < 65536) ∧ (c.fh = false))),
    (let c : PlelisCore := running.coreA
     let cause : Nat := 255
     let block : Nat := 255
     let detail : Nat := 65535
     let i : Nat := 31
     decide ((cause < 256) ∧ (block < 256) ∧ (detail < 65536) ∧ (c.fh = false) ∧ (2 < i))),
    (let c : PlelisCore := running.coreA
     let cause : Nat := 255
     let block : Nat := 255
     let detail : Nat := 65535
     decide ((cause < 256) ∧ (block < 256) ∧ (detail < 65536) ∧ (c.fh = false))),
    (let c : PlelisCore := running.coreA
     let cause : Nat := 255
     let block : Nat := 255
     let detail : Nat := 65535
     decide ((cause < 256) ∧ (block < 256) ∧ (detail < 65536) ∧ (c.fh = false))),
    (let c : PlelisCore := running.coreA
     let cause : Nat := 255
     let block : Nat := 255
     let detail : Nat := 65535
     decide ((cause < 256) ∧ (block < 256) ∧ (detail < 65536) ∧ (c.fh = false))),
    (let c : PlelisCore := running.coreA
     let cause : Nat := 255
     let block : Nat := 255
     let detail : Nat := 65535
     decide ((cause < 256) ∧ (block < 256) ∧ (detail < 65536) ∧ (c.fh = false))),
    (let c : PlelisCore := running.coreA
     let cause : Nat := 255
     let block : Nat := 255
     let detail : Nat := 65535
     decide ((cause < 256) ∧ (block < 256) ∧ (detail < 65536) ∧ (c.fh = false))),
    (let c : PlelisCore := running.coreA
     let cause : Nat := 255
     let block : Nat := 255
     let detail : Nat := 65535
     decide ((cause < 256) ∧ (block < 256) ∧ (detail < 65536) ∧ (c.fh = false))),
    (let c : PlelisCore := { running.coreA with pstate := 0xFF07 }
     let cause : Nat := 255
     let block : Nat := 255
     let detail : Nat := 65535
     decide ((cause < 256) ∧ (block < 256) ∧ (detail < 65536) ∧ (c.fh = true))),
    (let cause : Nat := 255
     let block : Nat := 255
     let detail : Nat := 65535
     decide ((cause < 256) ∧ (block < 256) ∧ (detail < 65536))),
    (let cause : Nat := 255
     let block : Nat := 255
     let detail : Nat := 65535
     decide ((cause < 256) ∧ (block < 256) ∧ (detail < 65536))),
    (let cause : Nat := 255
     let block : Nat := 255
     let detail : Nat := 65535
     decide ((cause < 256) ∧ (block < 256) ∧ (detail < 65536))),
    (let cause : Nat := 255
     let block : Nat := 255
     let detail : Nat := 65535
     let i : Nat := 1
     decide ((cause < 256) ∧ (block < 256) ∧ (detail < 65536) ∧ (i ≠ 0) ∧ (i ≠ 2))),
    (let cause : Nat := 255
     let block : Nat := 255
     let detail : Nat := 65535
     decide ((cause < 256) ∧ (block < 256) ∧ (detail < 65536))),
    (let cause : Nat := 255
     let block : Nat := 255
     let detail : Nat := 65535
     decide ((cause < 256) ∧ (block < 256) ∧ (detail < 65536))),
    (let cause : Nat := 255
     let block : Nat := 255
     let detail : Nat := 65535
     decide ((cause < 256) ∧ (block < 256) ∧ (detail < 65536)))] : List Bool).all id = true := by decide +kernel

/-- States and operands that meet the hypotheses of FaultingInstructions, clause by clause in the order of the statement. -/
theorem witness_FaultingInstructions : ([
    (let k : CoreId := .A
     let s : State := running
     decide (((s.core k).run = .running) ∧ ((s.core k).wait = .none) ∧ (s.fetchOk (s.core k).harbour (s.core k).pc.toNat = true) ∧ (s.ecc.marks = [])
         ∧ (legalWord (BitVec.ofNat 32 (s.load (coreAddr k (s.core k).pc.toNat) 4)) = true))),
    (let k : CoreId := .A
     let s : State := running
     let c := s.core k
     decide (((s.core k).run = .running) ∧ ((s.core k).wait = .none) ∧ (s.fetchOk (s.core k).harbour (s.core k).pc.toNat = true) ∧ (s.ecc.marks = [])
         ∧ (legalWord (BitVec.ofNat 32 (s.load (coreAddr k (s.core k).pc.toNat) 4)) = true) ∧ (c.harbour = true))),
    (let k : CoreId := .A
     let s : State := berthRunning
     let c := s.core k
     decide (((s.core k).run = .running) ∧ ((s.core k).wait = .none) ∧ (s.fetchOk (s.core k).harbour (s.core k).pc.toNat = true) ∧ (s.ecc.marks = [])
         ∧ (legalWord (BitVec.ofNat 32 (s.load (coreAddr k (s.core k).pc.toNat) 4)) = true) ∧ (c.harbour = false))),
    (let k : CoreId := .A
     let s : State := berthRunning
     let c := s.core k
     decide (((s.core k).run = .running) ∧ ((s.core k).wait = .none) ∧ (s.fetchOk (s.core k).harbour (s.core k).pc.toNat = true) ∧ (s.ecc.marks = [])
         ∧ (legalWord (BitVec.ofNat 32 (s.load (coreAddr k (s.core k).pc.toNat) 4)) = true) ∧ (c.harbour = false))),
    (let k : CoreId := .A
     let s : State := running
     let ra : BitVec 5 := 0
     let imm : BitVec 16 := 1
     let c := s.core k
     let a := c.gpr ra + imm.signExtend 64
     decide (((s.core k).run = .running) ∧ ((s.core k).wait = .none) ∧ (s.fetchOk (s.core k).harbour (s.core k).pc.toNat = true) ∧ (s.ecc.marks = [])
         ∧ (legalWord (BitVec.ofNat 32 (s.load (coreAddr k (s.core k).pc.toNat) 4)) = true) ∧ (a.toNat % 4 ≠ 0))),
    (let k : CoreId := .A
     let s : State := running
     let ra : BitVec 5 := 0
     let imm : BitVec 16 := 1
     let c := s.core k
     let a := c.gpr ra + imm.signExtend 64
     decide (((s.core k).run = .running) ∧ ((s.core k).wait = .none) ∧ (s.fetchOk (s.core k).harbour (s.core k).pc.toNat = true) ∧ (s.ecc.marks = [])
         ∧ (legalWord (BitVec.ofNat 32 (s.load (coreAddr k (s.core k).pc.toNat) 4)) = true) ∧ (a.toNat % 2 ≠ 0))),
    (let k : CoreId := .A
     let s : State := running
     let ra : BitVec 5 := 0
     let imm : BitVec 16 := 1
     let c := s.core k
     let a := c.gpr ra + imm.signExtend 64
     decide (((s.core k).run = .running) ∧ ((s.core k).wait = .none) ∧ (s.fetchOk (s.core k).harbour (s.core k).pc.toNat = true) ∧ (s.ecc.marks = [])
         ∧ (legalWord (BitVec.ofNat 32 (s.load (coreAddr k (s.core k).pc.toNat) 4)) = true) ∧ (a.toNat % 2 ≠ 0))),
    (let k : CoreId := .A
     let s : State := running
     let ra : BitVec 5 := 0
     let imm : BitVec 16 := 1
     let c := s.core k
     let a := c.gpr ra + imm.signExtend 64
     decide (((s.core k).run = .running) ∧ ((s.core k).wait = .none) ∧ (s.fetchOk (s.core k).harbour (s.core k).pc.toNat = true) ∧ (s.ecc.marks = [])
         ∧ (legalWord (BitVec.ofNat 32 (s.load (coreAddr k (s.core k).pc.toNat) 4)) = true) ∧ (a.toNat % 4 ≠ 0))),
    (let k : CoreId := .A
     let s : State := running
     let ra : BitVec 5 := 0
     let imm : BitVec 16 := 1
     let c := s.core k
     let a := c.gpr ra + imm.signExtend 64
     decide (((s.core k).run = .running) ∧ ((s.core k).wait = .none) ∧ (s.fetchOk (s.core k).harbour (s.core k).pc.toNat = true) ∧ (s.ecc.marks = [])
         ∧ (legalWord (BitVec.ofNat 32 (s.load (coreAddr k (s.core k).pc.toNat) 4)) = true) ∧ (a.toNat % 4 ≠ 0))),
    (let k : CoreId := .A
     let s : State := running
     let ra : BitVec 5 := 0
     let imm : BitVec 16 := 1
     let c := s.core k
     let a := c.gpr ra + imm.signExtend 64
     decide (((s.core k).run = .running) ∧ ((s.core k).wait = .none) ∧ (s.fetchOk (s.core k).harbour (s.core k).pc.toNat = true) ∧ (s.ecc.marks = [])
         ∧ (legalWord (BitVec.ofNat 32 (s.load (coreAddr k (s.core k).pc.toNat) 4)) = true) ∧ (a.toNat % 8 ≠ 0))),
    (let k : CoreId := .A
     let s : State := running
     let ra : BitVec 5 := 0
     let imm : BitVec 16 := 1
     let c := s.core k
     let a := c.gpr ra + imm.signExtend 64
     decide (((s.core k).run = .running) ∧ ((s.core k).wait = .none) ∧ (s.fetchOk (s.core k).harbour (s.core k).pc.toNat = true) ∧ (s.ecc.marks = [])
         ∧ (legalWord (BitVec.ofNat 32 (s.load (coreAddr k (s.core k).pc.toNat) 4)) = true) ∧ (a.toNat % 8 ≠ 0))),
    (let k : CoreId := .A
     let s : State := { running with coreA := { (running).coreA with h := running.coreA.h.set 1 0x3FFFFF } }
     let ra : BitVec 5 := 1
     let imm : BitVec 16 := 1
     let c := s.core k
     let a := c.gpr ra + imm.signExtend 64
     decide (((s.core k).run = .running) ∧ ((s.core k).wait = .none) ∧ (s.fetchOk (s.core k).harbour (s.core k).pc.toNat = true) ∧ (s.ecc.marks = [])
         ∧ (legalWord (BitVec.ofNat 32 (s.load (coreAddr k (s.core k).pc.toNat) 4)) = true) ∧ (s.loadOk c.harbour a.toNat = false))),
    (let k : CoreId := .A
     let s : State := running
     let ra : BitVec 5 := 0
     let imm : BitVec 16 := 0
     let c := s.core k
     let a := c.gpr ra + imm.signExtend 64
     decide (((s.core k).run = .running) ∧ ((s.core k).wait = .none) ∧ (s.fetchOk (s.core k).harbour (s.core k).pc.toNat = true) ∧ (s.ecc.marks = [])
         ∧ (legalWord (BitVec.ofNat 32 (s.load (coreAddr k (s.core k).pc.toNat) 4)) = true) ∧ ((a.toNat < 0x200000 ∨ s.loadOk c.harbour a.toNat =
         false)))),
    (let k : CoreId := .A
     let s : State := running
     let rb : BitVec 5 := 31
     decide (((s.core k).run = .running) ∧ ((s.core k).wait = .none) ∧ (s.fetchOk (s.core k).harbour (s.core k).pc.toNat = true) ∧ (s.ecc.marks = [])
         ∧ (legalWord (BitVec.ofNat 32 (s.load (coreAddr k (s.core k).pc.toNat) 4)) = true) ∧ (rb ≠ 0))),
    (let k : CoreId := .A
     let s : State := running
     let rb : BitVec 5 := 31
     decide (((s.core k).run = .running) ∧ ((s.core k).wait = .none) ∧ (s.fetchOk (s.core k).harbour (s.core k).pc.toNat = true) ∧ (s.ecc.marks = [])
         ∧ (legalWord (BitVec.ofNat 32 (s.load (coreAddr k (s.core k).pc.toNat) 4)) = true) ∧ (rb ≠ 0))),
    (let k : CoreId := .A
     let s : State := running
     let ra : BitVec 5 := 1
     decide (((s.core k).run = .running) ∧ ((s.core k).wait = .none) ∧ (s.fetchOk (s.core k).harbour (s.core k).pc.toNat = true) ∧ (s.ecc.marks = [])
         ∧ (legalWord (BitVec.ofNat 32 (s.load (coreAddr k (s.core k).pc.toNat) 4)) = true) ∧ (ra ≠ 0))),
    (let k : CoreId := .A
     let s : State := running
     let ra : BitVec 5 := 0
     let rb : BitVec 5 := 31
     decide (((s.core k).run = .running) ∧ ((s.core k).wait = .none) ∧ (s.fetchOk (s.core k).harbour (s.core k).pc.toNat = true) ∧ (s.ecc.marks = [])
         ∧ (legalWord (BitVec.ofNat 32 (s.load (coreAddr k (s.core k).pc.toNat) 4)) = true) ∧ ((ra ≠ 0 ∨ rb ≠ 0)))),
    (let k : CoreId := .A
     let s : State := running
     let rd : BitVec 5 := 0
     let ra : BitVec 5 := 1
     decide (((s.core k).run = .running) ∧ ((s.core k).wait = .none) ∧ (s.fetchOk (s.core k).harbour (s.core k).pc.toNat = true) ∧ (s.ecc.marks = [])
         ∧ (legalWord (BitVec.ofNat 32 (s.load (coreAddr k (s.core k).pc.toNat) 4)) = true) ∧ ((rd ≠ 0 ∨ ra ≠ 0)))),
    (let k : CoreId := .A
     let s : State := running
     let rd : BitVec 5 := 0
     let ra : BitVec 5 := 0
     let rb : BitVec 5 := 31
     decide (((s.core k).run = .running) ∧ ((s.core k).wait = .none) ∧ (s.fetchOk (s.core k).harbour (s.core k).pc.toNat = true) ∧ (s.ecc.marks = [])
         ∧ (legalWord (BitVec.ofNat 32 (s.load (coreAddr k (s.core k).pc.toNat) 4)) = true) ∧ ((rd ≠ 0 ∨ ra ≠ 0 ∨ rb ≠ 0)))),
    (let k : CoreId := .A
     let s : State := running
     let rd : BitVec 5 := 0
     let ra : BitVec 5 := 0
     let rb : BitVec 5 := 31
     decide (((s.core k).run = .running) ∧ ((s.core k).wait = .none) ∧ (s.fetchOk (s.core k).harbour (s.core k).pc.toNat = true) ∧ (s.ecc.marks = [])
         ∧ (legalWord (BitVec.ofNat 32 (s.load (coreAddr k (s.core k).pc.toNat) 4)) = true) ∧ ((rd ≠ 0 ∨ ra ≠ 0 ∨ rb ≠ 0)))),
    (let k : CoreId := .A
     let s : State := running
     let rd : BitVec 5 := 0
     let ra : BitVec 5 := 0
     let rb : BitVec 5 := 31
     decide (((s.core k).run = .running) ∧ ((s.core k).wait = .none) ∧ (s.fetchOk (s.core k).harbour (s.core k).pc.toNat = true) ∧ (s.ecc.marks = [])
         ∧ (legalWord (BitVec.ofNat 32 (s.load (coreAddr k (s.core k).pc.toNat) 4)) = true) ∧ ((rd ≠ 0 ∨ ra ≠ 0 ∨ rb ≠ 0)))),
    (let k : CoreId := .A
     let s : State := running
     let rd : BitVec 5 := 0
     let ra : BitVec 5 := 0
     let rb : BitVec 5 := 31
     decide (((s.core k).run = .running) ∧ ((s.core k).wait = .none) ∧ (s.fetchOk (s.core k).harbour (s.core k).pc.toNat = true) ∧ (s.ecc.marks = [])
         ∧ (legalWord (BitVec.ofNat 32 (s.load (coreAddr k (s.core k).pc.toNat) 4)) = true) ∧ ((rd ≠ 0 ∨ ra ≠ 0 ∨ rb ≠ 0)))),
    (let k : CoreId := .A
     let s : State := running
     let rd : BitVec 5 := 0
     let ra : BitVec 5 := 0
     let rb : BitVec 5 := 31
     decide (((s.core k).run = .running) ∧ ((s.core k).wait = .none) ∧ (s.fetchOk (s.core k).harbour (s.core k).pc.toNat = true) ∧ (s.ecc.marks = [])
         ∧ (legalWord (BitVec.ofNat 32 (s.load (coreAddr k (s.core k).pc.toNat) 4)) = true) ∧ ((rd ≠ 0 ∨ ra ≠ 0 ∨ rb ≠ 0)))),
    (let k : CoreId := .A
     let s : State := running
     let c := s.core k
     decide (((s.core k).run = .running) ∧ ((s.core k).wait = .none) ∧ (s.fetchOk (s.core k).harbour (s.core k).pc.toNat = true) ∧ (s.ecc.marks = [])
         ∧ (legalWord (BitVec.ofNat 32 (s.load (coreAddr k (s.core k).pc.toNat) 4)) = true) ∧ (c.fh = false))),
    (let k : CoreId := .A
     let s : State := running
     let c := s.core k
     decide (((s.core k).run = .running) ∧ ((s.core k).wait = .none) ∧ (s.fetchOk (s.core k).harbour (s.core k).pc.toNat = true) ∧ (s.ecc.marks = [])
         ∧ (legalWord (BitVec.ofNat 32 (s.load (coreAddr k (s.core k).pc.toNat) 4)) = true) ∧ (c.harbour = true))),
    (let k : CoreId := .A
     let s : State := { running with coreA := { (running).coreA with pc := 0x200000 } }
     decide (((s.core k).run = .running) ∧ ((s.core k).wait = .none) ∧ (s.fetchOk (s.core k).harbour (s.core k).pc.toNat = false))),
    (let k : CoreId := .A
     let s : State := running.setBytes (coreAddr .A running.coreA.pc.toNat) [255, 255, 255, 255]
     decide (((s.core k).run = .running) ∧ ((s.core k).wait = .none) ∧ (s.fetchOk (s.core k).harbour (s.core k).pc.toNat = true) ∧ (s.ecc.marks = [])
         ∧ (legalWord (BitVec.ofNat 32 (s.load (coreAddr k (s.core k).pc.toNat) 4)) = false))),
    (let k : CoreId := .A
     let w : W32 := 0
     let i : Instr := .add .A 0 0 0
     decide ((decodeHexso k w = some i))),
    (let w : W32 := 0
     let i : Instr := .add .A 0 0 0
     decide ((i.wellFormed = true) ∧ (encodeHexso i = some w)))] : List Bool).all id = true := by decide +kernel

/-- States and operands that meet the hypotheses of WaitsBegin, clause by clause in the order of the statement. -/
theorem witness_WaitsBegin : ([
    (let k : CoreId := .A
     let s : State := running
     decide (((s.core k).run = .running) ∧ ((s.core k).wait = .none) ∧ (s.fetchOk (s.core k).harbour (s.core k).pc.toNat = true) ∧ (s.ecc.marks = [])
         ∧ (legalWord (BitVec.ofNat 32 (s.load (coreAddr k (s.core k).pc.toNat) 4)) = true))),
    (let k : CoreId := .A
     let s : State := { finished 0 with coreA := { (finished 0).coreA with h := (finished 0).coreA.h.set 1 ((mkTicket 1 1 0).zeroExtend 64) } }
     let ra : BitVec 5 := 1
     let c := s.core k
     let ticket : W32 := (c.gpr ra).truncate 32
     decide (((s.core k).run = .running) ∧ ((s.core k).wait = .none) ∧ (s.fetchOk (s.core k).harbour (s.core k).pc.toNat = true) ∧ (s.ecc.marks = [])
         ∧ (legalWord (BitVec.ofNat 32 (s.load (coreAddr k (s.core k).pc.toNat) 4)) = true) ∧ ((s.ticketState ticket).1 = 3))),
    (let k : CoreId := .A
     let s : State := running
     let ra : BitVec 5 := 1
     let c := s.core k
     let ticket : W32 := (c.gpr ra).truncate 32
     decide (((s.core k).run = .running) ∧ ((s.core k).wait = .none) ∧ (s.fetchOk (s.core k).harbour (s.core k).pc.toNat = true) ∧ (s.ecc.marks = [])
         ∧ (legalWord (BitVec.ofNat 32 (s.load (coreAddr k (s.core k).pc.toNat) 4)) = true) ∧ (((s.ticketState ticket).1 = 4 ∨ (s.ticketState
         ticket).1 = 0)))),
    (let k : CoreId := .A
     let s : State :=
         { holding 0 noDesc running with coreA := { (holding 0 noDesc running).coreA with h := (holding 0 noDesc running).coreA.h.set 1 ((mkTicket 1 1 0).zeroExtend 64) } }
     let ra : BitVec 5 := 1
     let imm : BitVec 16 := 0
     let c := s.core k
     let ticket : W32 := (c.gpr ra).truncate 32
     decide (((s.core k).run = .running) ∧ ((s.core k).wait = .none) ∧ (s.fetchOk (s.core k).harbour (s.core k).pc.toNat = true) ∧ (s.ecc.marks = [])
         ∧ (legalWord (BitVec.ofNat 32 (s.load (coreAddr k (s.core k).pc.toNat) 4)) = true) ∧ (((s.ticketState ticket).1 = 1 ∨ (s.ticketState
         ticket).1 = 2)) ∧ (imm = 0))),
    (let k : CoreId := .A
     let s : State :=
         { holding 0 noDesc running with coreA := { (holding 0 noDesc running).coreA with h := (holding 0 noDesc running).coreA.h.set 1 ((mkTicket 1 1 0).zeroExtend 64) } }
     let ra : BitVec 5 := 1
     let imm : BitVec 16 := 1
     let c := s.core k
     let ticket : W32 := (c.gpr ra).truncate 32
     decide (((s.core k).run = .running) ∧ ((s.core k).wait = .none) ∧ (s.fetchOk (s.core k).harbour (s.core k).pc.toNat = true) ∧ (s.ecc.marks = [])
         ∧ (legalWord (BitVec.ofNat 32 (s.load (coreAddr k (s.core k).pc.toNat) 4)) = true) ∧ (((s.ticketState ticket).1 = 1 ∨ (s.ticketState
         ticket).1 = 2)) ∧ (imm ≠ 0))),
    (let k : CoreId := .A
     let s : State := { running with coreA := { (running).coreA with eventH := 1, pstate := 0x111 } }
     let c := s.core k
     decide (((s.core k).run = .running) ∧ ((s.core k).wait = .none) ∧ (s.fetchOk (s.core k).harbour (s.core k).pc.toNat = true) ∧ (s.ecc.marks = [])
         ∧ (legalWord (BitVec.ofNat 32 (s.load (coreAddr k (s.core k).pc.toNat) 4)) = true) ∧ (c.event &&& c.evmask ≠ 0))),
    (let k : CoreId := .A
     let s : State := running
     let c := s.core k
     decide (((s.core k).run = .running) ∧ ((s.core k).wait = .none) ∧ (s.fetchOk (s.core k).harbour (s.core k).pc.toNat = true) ∧ (s.ecc.marks = [])
         ∧ (legalWord (BitVec.ofNat 32 (s.load (coreAddr k (s.core k).pc.toNat) 4)) = true) ∧ (c.event &&& c.evmask = 0))),
    (let k : CoreId := .A
     let s : State := running
     decide (((s.core k).run = .running) ∧ ((s.core k).wait = .none) ∧ (s.fetchOk (s.core k).harbour (s.core k).pc.toNat = true) ∧ (s.ecc.marks = [])
         ∧ (legalWord (BitVec.ofNat 32 (s.load (coreAddr k (s.core k).pc.toNat) 4)) = true))),
    (let k : CoreId := .A
     let s : State := running
     decide (((s.core k).run = .running) ∧ ((s.core k).wait = .none) ∧ (s.fetchOk (s.core k).harbour (s.core k).pc.toNat = true) ∧ (s.ecc.marks = [])
         ∧ (legalWord (BitVec.ofNat 32 (s.load (coreAddr k (s.core k).pc.toNat) 4)) = true))),
    (let k : CoreId := .A
     let s : State := running
     decide (((s.core k).run = .running) ∧ ((s.core k).wait = .none) ∧ (s.fetchOk (s.core k).harbour (s.core k).pc.toNat = true) ∧ (s.ecc.marks = [])
         ∧ (legalWord (BitVec.ofNat 32 (s.load (coreAddr k (s.core k).pc.toNat) 4)) = true) ∧ (s.outstanding k = false))),
    (let k : CoreId := .A
     let s : State :=
         { holding 0 noDesc running with coreA := { (holding 0 noDesc running).coreA with h := (holding 0 noDesc running).coreA.h.set 1 ((mkTicket 1 1 0).zeroExtend 64) } }
     decide (((s.core k).run = .running) ∧ ((s.core k).wait = .none) ∧ (s.fetchOk (s.core k).harbour (s.core k).pc.toNat = true) ∧ (s.ecc.marks = [])
         ∧ (legalWord (BitVec.ofNat 32 (s.load (coreAddr k (s.core k).pc.toNat) 4)) = true) ∧ (s.outstanding k = true))),
    (let k : CoreId := .A
     let s : State := running
     let c := s.core k
     decide (((s.core k).run = .running) ∧ ((s.core k).wait = .none) ∧ (s.fetchOk (s.core k).harbour (s.core k).pc.toNat = true) ∧ (s.ecc.marks = [])
         ∧ (legalWord (BitVec.ofNat 32 (s.load (coreAddr k (s.core k).pc.toNat) 4)) = true) ∧ (c.harbour = true)))] : List Bool).all id = true := by decide +kernel

/-- States and operands that meet the hypotheses of WaitsEnd, clause by clause in the order of the statement. -/
theorem witness_WaitsEnd : ([
    (let k : CoreId := .A
     let s : State := waiting (.wfe 1)
     let rd : BitVec 5 := 1
     let c := s.core k
     decide ((c.wait = .wfe rd) ∧ (c.event &&& c.evmask ≠ 0))),
    (let k : CoreId := .A
     let s : State := { finished 0 with coreA := { (finished 0).coreA with wait := .ticket 1 (mkTicket 1 1 0) 3 } }
     let rd : BitVec 5 := 1
     let ticket : W32 := (mkTicket 1 1 0)
     let left : Nat := 3
     let c := s.core k
     decide ((c.wait = .ticket rd ticket left) ∧ ((s.ticketState ticket).1 = 3))),
    (let k : CoreId := .A
     let s : State := { finished 5 with coreA := { (finished 5).coreA with wait := .ticket 1 (mkTicket 1 1 0) 3 } }
     let rd : BitVec 5 := 1
     let ticket : W32 := (mkTicket 1 1 0)
     let left : Nat := 3
     let c := s.core k
     decide ((c.wait = .ticket rd ticket left) ∧ (((s.ticketState ticket).1 = 4 ∨ (s.ticketState ticket).1 = 0)))),
    (let k : CoreId := .A
     let s : State := { holding 0 noDesc running with coreA := { (holding 0 noDesc running).coreA with wait := .ticket 1 (mkTicket 1 1 0) 0 } }
     let rd : BitVec 5 := 1
     let ticket : W32 := (mkTicket 1 1 0)
     let c := s.core k
     decide ((c.wait = .ticket rd ticket 0) ∧ (((s.ticketState ticket).1 = 1 ∨ (s.ticketState ticket).1 = 2)))),
    (let k : CoreId := .A
     let s : State := { finished 0 with coreA := { (finished 0).coreA with wait := .ticket 1 (mkTicket 1 1 0) 0 } }
     let rd : BitVec 5 := 1
     let ticket : W32 := (mkTicket 1 1 0)
     let c := s.core k
     decide ((c.wait = .ticket rd ticket 0) ∧ ((s.ticketState ticket).1 = 3))),
    (let k : CoreId := .A
     let s : State := { running with coreA := { (running).coreA with obsIrq := true, pstate := 0xFF13 } }
     let c := s.core k
     decide ((c.obsIrq = true) ∧ (c.oie = true) ∧ (c.run = .running) ∧ (c.wait = .none))),
    (let k : CoreId := .A
     let s : State := { finished 0 with coreA := { (finished 0).coreA with wait := .ticket 1 (mkTicket 1 1 0) 3 } }
     let c := s.core k
     decide (((∀ r, c.wait ≠ .wfe r)))),
    (let k : CoreId := .A
     let s : State := { finished 0 with coreA := { (finished 0).coreA with wait := .ticket 1 (mkTicket 1 1 0) 3 } }
     let c := s.core k
     decide (((c.obsIrq = false ∨ c.oie = false)))),
    (let k : CoreId := .A
     let s : State := waiting (.wfe 1)
     let rd : BitVec 5 := 1
     let c := s.core k
     decide ((c.wait = .wfe rd) ∧ (c.event &&& c.evmask ≠ 0))),
    (let k : CoreId := .A
     let s : State := { finished 0 with coreA := { (finished 0).coreA with wait := .ticket 1 (mkTicket 1 1 0) 3 } }
     let rd : BitVec 5 := 1
     let ticket : W32 := (mkTicket 1 1 0)
     let left : Nat := 3
     let r : Nat := 0
     let c := s.core k
     decide ((c.wait = .ticket rd ticket left) ∧ (r = (if (s.ticketState ticket).1 = 3 then 0 else 2)) ∧ (((s.ticketState ticket).1 = 3 ∨
         (s.ticketState ticket).1 = 4 ∨ (s.ticketState ticket).1 = 0)))),
    (let k : CoreId := .A
     let s : State := { holding 0 noDesc running with coreA := { (holding 0 noDesc running).coreA with wait := .ticket 1 (mkTicket 1 1 0) 0 } }
     let rd : BitVec 5 := 1
     let ticket : W32 := (mkTicket 1 1 0)
     let c := s.core k
     decide ((c.wait = .ticket rd ticket 0) ∧ (((s.ticketState ticket).1 = 1 ∨ (s.ticketState ticket).1 = 2)))),
    (let k : CoreId := .A
     let s : State := { running with coreA := { (running).coreA with obsIrq := true, pstate := 0xFF13 } }
     let c := s.core k
     decide ((c.obsIrq = true) ∧ (c.oie = true) ∧ (c.run = .running) ∧ (c.wait = .none) ∧ (c.fh = false))),
    decide ((running.core .A).wait = .none)] : List Bool).all id = true := by decide +kernel

/-- States and operands that meet the hypotheses of CommitPointPasses, clause by clause in the order of the statement. -/
theorem witness_CommitPointPasses : ([
    (let s : State := { State.reset with time := { State.reset.time with commitPoint := true } }
     decide ((s.time.commitPoint = true))),
    (let s : State := State.reset
     decide ((s.time.commitPoint = false)))] : List Bool).all id = true := by decide +kernel

/-- States and operands that meet the hypotheses of ClaimsJudged, clause by clause in the order of the statement. -/
theorem witness_ClaimsJudged : ([
    (let k : CoreId := .A
     let s : State := running
     let ra : BitVec 5 := 0
     let imm : BitVec 16 := 0
     let c := s.core k
     let r := (c.gpr ra).toNat
     let f := imm.toNat
     decide (((s.core k).run = .running) ∧ ((s.core k).wait = .none) ∧ (s.fetchOk (s.core k).harbour (s.core k).pc.toNat = true) ∧ (s.ecc.marks = [])
         ∧ (legalWord (BitVec.ofNat 32 (s.load (coreAddr k (s.core k).pc.toNat) 4)) = true) ∧ ((s.core k).harbour = true) ∧ (imm.toNat < 16) ∧
         (((s.core k).gpr ra).toNat < 256) ∧ (s.claimValid r f = true) ∧ (s.channelTaken r f = false) ∧ (s.claimOf r = none))),
    (let k : CoreId := .A
     let s : State := { running with claims := [(0, { holder := .harbour, func := 0 })] }
     let ra : BitVec 5 := 0
     let imm : BitVec 16 := 0
     let c := s.core k
     let r := (c.gpr ra).toNat
     let f := imm.toNat
     let held : Claim := (s.claimOf r).getD { holder := .berth, func := 0 }
     decide (((s.core k).run = .running) ∧ ((s.core k).wait = .none) ∧ (s.fetchOk (s.core k).harbour (s.core k).pc.toNat = true) ∧ (s.ecc.marks = [])
         ∧ (legalWord (BitVec.ofNat 32 (s.load (coreAddr k (s.core k).pc.toNat) 4)) = true) ∧ ((s.core k).harbour = true) ∧ (imm.toNat < 16) ∧
         (((s.core k).gpr ra).toNat < 256) ∧ (s.claimValid r f = true) ∧ (s.channelTaken r f = false) ∧ (s.claimOf r = some held))),
    (let k : CoreId := .A
     let s : State := { running with coreA := { (running).coreA with h := running.coreA.h.set 2 0x26 } }
     let ra : BitVec 5 := 2
     let imm : BitVec 16 := 0
     let c := s.core k
     let r := (c.gpr ra).toNat
     let f := imm.toNat
     decide (((s.core k).run = .running) ∧ ((s.core k).wait = .none) ∧ (s.fetchOk (s.core k).harbour (s.core k).pc.toNat = true) ∧ (s.ecc.marks = [])
         ∧ (legalWord (BitVec.ofNat 32 (s.load (coreAddr k (s.core k).pc.toNat) 4)) = true) ∧ ((s.core k).harbour = true) ∧ (imm.toNat < 16) ∧
         (((s.core k).gpr ra).toNat < 256) ∧ ((s.claimValid r f = false ∨ s.channelTaken r f = true)))),
    (let k : CoreId := .A
     let s : State := { running with claims := [(0, { holder := .harbour, func := 0 })] }
     let ra : BitVec 5 := 0
     let imm : BitVec 16 := 0
     let c := s.core k
     let r := (c.gpr ra).toNat
     decide (((s.core k).run = .running) ∧ ((s.core k).wait = .none) ∧ (s.fetchOk (s.core k).harbour (s.core k).pc.toNat = true) ∧ (s.ecc.marks = [])
         ∧ (legalWord (BitVec.ofNat 32 (s.load (coreAddr k (s.core k).pc.toNat) 4)) = true) ∧ ((s.core k).harbour = true) ∧ (imm.toNat < 16) ∧
         (((s.core k).gpr ra).toNat < 256) ∧ (s.holds .harbour r = true))),
    (let k : CoreId := .A
     let s : State := running
     let ra : BitVec 5 := 0
     let imm : BitVec 16 := 0
     let c := s.core k
     let r := (c.gpr ra).toNat
     decide (((s.core k).run = .running) ∧ ((s.core k).wait = .none) ∧ (s.fetchOk (s.core k).harbour (s.core k).pc.toNat = true) ∧ (s.ecc.marks = [])
         ∧ (legalWord (BitVec.ofNat 32 (s.load (coreAddr k (s.core k).pc.toNat) 4)) = true) ∧ ((s.core k).harbour = true) ∧ (imm.toNat < 16) ∧
         (((s.core k).gpr ra).toNat < 256) ∧ (s.holds .harbour r = false)))] : List Bool).all id = true := by decide +kernel

/-- States and operands that meet the hypotheses of SendPosts, clause by clause in the order of the statement. -/
theorem witness_SendPosts : ([
    (let k : CoreId := .A
     let s : State := { running with coreA := { (running).coreA with h := running.coreA.h.set 2 32 } }
     let ra : BitVec 5 := 2
     let rb : BitVec 5 := 1
     let c := s.core k
     let q := Fin.ofNat 64 (c.gpr ra).toNat
     decide (((s.core k).run = .running) ∧ ((s.core k).wait = .none) ∧ (s.fetchOk (s.core k).harbour (s.core k).pc.toNat = true) ∧ (s.ecc.marks = [])
         ∧ (legalWord (BitVec.ofNat 32 (s.load (coreAddr k (s.core k).pc.toNat) 4)) = true) ∧ (s.sendFault c.harbour (c.gpr ra) (c.gpr rb) =
         none) ∧ (s.ecc.marks = []) ∧ ((s.queue q).entries.length < (s.queue q).depth))),
    (let k : CoreId := .A
     let s : State := { running with coreA := { (running).coreA with h := running.coreA.h.set 2 32 } }
     let ra : BitVec 5 := 2
     let rb : BitVec 5 := 1
     let c := s.core k
     let q := Fin.ofNat 64 (c.gpr ra).toNat
     decide (((s.core k).run = .running) ∧ ((s.core k).wait = .none) ∧ (s.fetchOk (s.core k).harbour (s.core k).pc.toNat = true) ∧ (s.ecc.marks = [])
         ∧ (legalWord (BitVec.ofNat 32 (s.load (coreAddr k (s.core k).pc.toNat) 4)) = true) ∧ (s.sendFault c.harbour (c.gpr ra) (c.gpr rb) =
         none) ∧ (s.ecc.marks = []) ∧ ((s.queue q).entries.length < (s.queue q).depth))),
    (let k : CoreId := .A
     let s : State := ({ running with coreA := { (running).coreA with h := running.coreA.h.set 2 32 } }).setQueue 32
         { (running.queue 32) with depth := 1, entries := [entry 32 noDesc] }
     let ra : BitVec 5 := 2
     let rb : BitVec 5 := 1
     let c := s.core k
     let q := Fin.ofNat 64 (c.gpr ra).toNat
     decide (((s.core k).run = .running) ∧ ((s.core k).wait = .none) ∧ (s.fetchOk (s.core k).harbour (s.core k).pc.toNat = true) ∧ (s.ecc.marks = [])
         ∧ (legalWord (BitVec.ofNat 32 (s.load (coreAddr k (s.core k).pc.toNat) 4)) = true) ∧ (s.sendFault c.harbour (c.gpr ra) (c.gpr rb) =
         none) ∧ (s.ecc.marks = []) ∧ ((s.queue q).depth ≤ (s.queue q).entries.length))),
    (let k : CoreId := .A
     let s : State := { running with coreA := { (running).coreA with h := running.coreA.h.set 2 64 } }
     let ra : BitVec 5 := 2
     let c := s.core k
     decide (((s.core k).run = .running) ∧ ((s.core k).wait = .none) ∧ (s.fetchOk (s.core k).harbour (s.core k).pc.toNat = true) ∧ (s.ecc.marks = [])
         ∧ (legalWord (BitVec.ofNat 32 (s.load (coreAddr k (s.core k).pc.toNat) 4)) = true) ∧ (64 ≤ (c.gpr ra).toNat))),
    (let k : CoreId := .A
     let s : State := { running with coreA := { (running).coreA with h := (running.coreA.h.set 2 32).set 1 0x200001 } }
     let ra : BitVec 5 := 2
     let rb : BitVec 5 := 1
     let c := s.core k
     let b := (c.gpr rb).toNat
     decide (((s.core k).run = .running) ∧ ((s.core k).wait = .none) ∧ (s.fetchOk (s.core k).harbour (s.core k).pc.toNat = true) ∧ (s.ecc.marks = [])
         ∧ (legalWord (BitVec.ofNat 32 (s.load (coreAddr k (s.core k).pc.toNat) 4)) = true) ∧ ((c.gpr ra).toNat < 64) ∧ (c.harbour = true) ∧ (b %
         32 ≠ 0)))] : List Bool).all id = true := by decide +kernel

/-- States and operands that meet the hypotheses of TransmitCommands, clause by clause in the order of the statement. -/
theorem witness_TransmitCommands : ([
    (let c : Carrier := .A
     let s : State := (begun (txpQ .A) (desc 0x100 0xFF 2 0 0) (State.reset))
     decide (((s.startedOp (txpQ c) 0x100).isSome))),
    (let c : Carrier := .A
     let code : Nat := 2
     let b0 : State := State.reset
     let d0 : Desc := desc 0x100 0 0 0 0
     let s : State := holding (txpQ c) d0 b0
     let e : QEntry := entry (txpQ c) d0
     let u : State := begun (txpQ c) d0 b0
     let d := e.desc
     decide ((s.startedOp (txpQ c) 0x100 = none) ∧ s.startable (txpQ c) 0x100 = some e ∧ (u.txStateCheck c d = some code))),
    (let c : Carrier := .A
     let b0 : State := State.reset
     let d0 : Desc := desc 0x100 255 2 0 0
     let s : State := holding (txpQ c) d0 b0
     let e : QEntry := entry (txpQ c) d0
     let u : State := begun (txpQ c) d0 b0
     let d := e.desc
     decide ((s.startedOp (txpQ c) 0x100 = none) ∧ s.startable (txpQ c) 0x100 = some e ∧ (u.txStateCheck c d = none) ∧ (u.txState c = 0) ∧ (d.arg0 % 8
         ≠ 0))),
    (let c : Carrier := .A
     let b0 : State := having [(R.TXP_STATE .A, F.TXP_STATE_state, 3)]
     let d0 : Desc := desc 0x100 255 2 0 0
     let s : State := holding (txpQ c) d0 b0
     let e : QEntry := entry (txpQ c) d0
     let u : State := begun (txpQ c) d0 b0
     let d := e.desc
     decide ((s.startedOp (txpQ c) 0x100 = none) ∧ s.startable (txpQ c) 0x100 = some e ∧ (u.txStateCheck c d = none) ∧ (u.txState c = 3) ∧ (d.arg0 % 8
         ≠ 3))),
    (let c : Carrier := .A
     let b0 : State := { having [(R.TXP_STATE .A, F.TXP_STATE_state, 2)] with hailA := { hailReset with cur := some someBurst } }
     let d0 : Desc := desc 0x100 255 0 0 0
     let s : State := holding (txpQ c) d0 b0
     let e : QEntry := entry (txpQ c) d0
     let u : State := begun (txpQ c) d0 b0
     let d := e.desc
     decide ((s.startedOp (txpQ c) 0x100 = none) ∧ s.startable (txpQ c) 0x100 = some e ∧ (u.txStateCheck c d = none) ∧ (u.txState c = 2) ∧ (d.arg0 % 8
         ≠ 2) ∧ (u.hailBursting c = true))),
    (let c : Carrier := .A
     let b0 : State := State.reset
     let d0 : Desc := desc 0x100 255 0 0 0
     let s : State := holding (txpQ c) d0 b0
     let e : QEntry := entry (txpQ c) d0
     let u : State := begun (txpQ c) d0 b0
     let d := e.desc
     decide ((s.startedOp (txpQ c) 0x100 = none) ∧ s.startable (txpQ c) 0x100 = some e ∧ (u.txStateCheck c d = none) ∧ ((u.txState c = 0 → d.arg0 % 8
         = 0)) ∧ ((u.txState c = 3 → d.arg0 % 8 = 3)) ∧ ((u.txState c = 2 → u.hailBursting c = true → d.arg0 % 8 = 2)))),
    (let c : Carrier := .A
     let b0 : State := State.reset
     let d0 : Desc := desc 0x101 0 0 0 0
     let s : State := holding (txpQ c) d0 b0
     let e : QEntry := entry (txpQ c) d0
     let d := e.desc
     decide (s.startable (txpQ c) 0x101 = some e ∧ (d.unit ≠ 0xFF))),
    (let c : Carrier := .A
     let b0 : State := State.reset
     let d0 : Desc := desc 0x101 255 1 0 0
     let s : State := holding (txpQ c) d0 b0
     let e : QEntry := entry (txpQ c) d0
     let d := e.desc
     decide (s.startable (txpQ c) 0x101 = some e ∧ (d.unit = 0xFF) ∧ (d.arg0 % 2 = 1))),
    (let c : Carrier := .A
     let b0 : State := { State.reset with txA := { txReset with fault := true } }
     let d0 : Desc := desc 0x101 255 2 0 0
     let s : State := holding (txpQ c) d0 b0
     let e : QEntry := entry (txpQ c) d0
     let u : State := begun (txpQ c) d0 b0
     let d := e.desc
     decide (s.startable (txpQ c) 0x101 = some e ∧ (d.unit = 0xFF) ∧ (d.arg0 % 2 = 0) ∧ ((u.tx c).fault = true))),
    (let c : Carrier := .A
     let b0 : State := having [(R.TXP_STATE .A, F.TXP_STATE_state, 3)]
     let d0 : Desc := desc 0x101 255 2 0 0
     let s : State := holding (txpQ c) d0 b0
     let e : QEntry := entry (txpQ c) d0
     let u : State := begun (txpQ c) d0 b0
     let d := e.desc
     let a := R.TXP_STATE c
     decide (s.startable (txpQ c) 0x101 = some e ∧ (d.unit = 0xFF) ∧ (d.arg0 % 2 = 0) ∧ ((u.tx c).fault = false) ∧ (u.txState c = 3) ∧ (u.flag a
         F.TXP_STATE_muted = true))),
    (let c : Carrier := .A
     let b0 : State := State.reset
     let d0 : Desc := desc 0x101 255 2 0 0
     let s : State := holding (txpQ c) d0 b0
     let e : QEntry := entry (txpQ c) d0
     let u : State := begun (txpQ c) d0 b0
     let d := e.desc
     let a := R.TXP_STATE c
     decide (s.startable (txpQ c) 0x101 = some e ∧ (d.unit = 0xFF) ∧ (d.arg0 % 2 = 0) ∧ ((u.tx c).fault = false) ∧ ((u.txState c = 3 → u.flag a
         F.TXP_STATE_muted = false)))),
    (let c : Carrier := .A
     let b0 : State := State.reset
     let d0 : Desc := desc 0x102 0 0 0 0
     let s : State := holding (txpQ c) d0 b0
     let e : QEntry := entry (txpQ c) d0
     let d := e.desc
     let lanes := if d.unit = 0xFF then [0, 1, 2, 3] else [d.unit]
     decide (s.startable (txpQ c) 0x102 = some e ∧ (((4 ≤ d.unit ∧ d.unit ≠ 0xFF) ∨ bufferOk d.arg0 (128 * lanes.length) = false)))),
    (let c : Carrier := .A
     let b0 : State := State.reset
     let d0 : Desc := desc 0x102 3 0x01000000 0 0
     let s : State := holding (txpQ c) d0 b0
     let e : QEntry := entry (txpQ c) d0
     let u : State := begun (txpQ c) d0 b0
     let d := e.desc
     let a := R.TXP_STATE c
     let bank := d.arg1 % 2
     let lanes := if d.unit = 0xFF then [0, 1, 2, 3] else [d.unit]
     decide (s.startable (txpQ c) 0x102 = some e ∧ ((d.unit < 4 ∨ d.unit = 0xFF)) ∧ (bufferOk d.arg0 (128 * lanes.length) = true) ∧ (u.fld a
         F.TXP_STATE_fir_bank = bank))),
    (let c : Carrier := .A
     let b0 : State := State.reset
     let d0 : Desc := desc 0x102 255 0x01000000 1 0
     let s : State := holding (txpQ c) d0 b0
     let e : QEntry := entry (txpQ c) d0
     let u : State := begun (txpQ c) d0 b0
     let d := e.desc
     let a := R.TXP_STATE c
     let bank := d.arg1 % 2
     let lanes := if d.unit = 0xFF then [0, 1, 2, 3] else [d.unit]
     decide (s.startable (txpQ c) 0x102 = some e ∧ ((d.unit < 4 ∨ d.unit = 0xFF)) ∧ (bufferOk d.arg0 (128 * lanes.length) = true) ∧ (u.fld a
         F.TXP_STATE_fir_bank ≠ bank))),
    (let c : Carrier := .A
     let b0 : State := State.reset
     let d0 : Desc := desc 0x103 0 0 0 0
     let s : State := holding (txpQ c) d0 b0
     let e : QEntry := entry (txpQ c) d0
     let u : State := begun (txpQ c) d0 b0
     let d := e.desc
     let n := d.arg1 % 8192
     let nlc := u.nlcEntries d.arg0 n
     decide (s.startable (txpQ c) 0x103 = some e ∧ ((d.unit ≠ 0xFF ∨ n = 0 ∨ 4096 < n ∨ bufferOk d.arg0 (8 * n) = false ∨ nlc.all NlcEntry.ok =
         false)))),
    (let c : Carrier := .A
     let b0 : State := State.reset
     let d0 : Desc := desc 0x103 255 0x01000000 1 0
     let s : State := holding (txpQ c) d0 b0
     let e : QEntry := entry (txpQ c) d0
     let u : State := begun (txpQ c) d0 b0
     let d := e.desc
     let a := R.TXP_STATE c
     let n := d.arg1 % 8192
     let nlc := u.nlcEntries d.arg0 n
     let nlcBank := d.arg1 / 65536 % 2
     decide (s.startable (txpQ c) 0x103 = some e ∧ (d.unit = 0xFF) ∧ (n ≠ 0) ∧ (n ≤ 4096) ∧ (bufferOk d.arg0 (8 * n) = true) ∧ (nlc.all NlcEntry.ok =
         true) ∧ (u.fld a F.TXP_STATE_nlc_bank = nlcBank))),
    (let c : Carrier := .A
     let b0 : State := having [(R.TXP_STATE .A, F.TXP_STATE_nlc_bank, 1)]
     let d0 : Desc := desc 0x103 255 0x01000000 1 0
     let s : State := holding (txpQ c) d0 b0
     let e : QEntry := entry (txpQ c) d0
     let u : State := begun (txpQ c) d0 b0
     let d := e.desc
     let a := R.TXP_STATE c
     let n := d.arg1 % 8192
     let nlc := u.nlcEntries d.arg0 n
     let nlcBank := d.arg1 / 65536 % 2
     decide (s.startable (txpQ c) 0x103 = some e ∧ (d.unit = 0xFF) ∧ (n ≠ 0) ∧ (n ≤ 4096) ∧ (bufferOk d.arg0 (8 * n) = true) ∧ (nlc.all NlcEntry.ok =
         true) ∧ (u.fld a F.TXP_STATE_nlc_bank ≠ nlcBank) ∧ (nlcBank = 0))),
    (let c : Carrier := .A
     let b0 : State := State.reset
     let d0 : Desc := desc 0x103 255 0x01000000 0x11000 0
     let s : State := holding (txpQ c) d0 b0
     let e : QEntry := entry (txpQ c) d0
     let u : State := begun (txpQ c) d0 b0
     let d := e.desc
     let a := R.TXP_STATE c
     let n := d.arg1 % 8192
     let nlc := u.nlcEntries d.arg0 n
     let nlcBank := d.arg1 / 65536 % 2
     decide (s.startable (txpQ c) 0x103 = some e ∧ (d.unit = 0xFF) ∧ (n ≠ 0) ∧ (n ≤ 4096) ∧ (bufferOk d.arg0 (8 * n) = true) ∧ (nlc.all NlcEntry.ok =
         true) ∧ (u.fld a F.TXP_STATE_nlc_bank ≠ nlcBank) ∧ (nlcBank = 1))),
    (let c : Carrier := .A
     let b0 : State := State.reset
     let d0 : Desc := desc 0x104 0 0 0 0
     let s : State := holding (txpQ c) d0 b0
     let e : QEntry := entry (txpQ c) d0
     let d := e.desc
     let m := d.arg1 % 16384
     decide (s.startable (txpQ c) 0x104 = some e ∧ ((4 ≤ d.unit ∨ m = 0 ∨ 8192 < m ∨ bufferOk d.arg0 m = false)))),
    (let c : Carrier := .A
     let b0 : State := State.reset
     let d0 : Desc := desc 0x104 3 0x01000000 8192 0
     let s : State := holding (txpQ c) d0 b0
     let e : QEntry := entry (txpQ c) d0
     let u : State := begun (txpQ c) d0 b0
     let d := e.desc
     let m := d.arg1 % 16384
     decide (s.startable (txpQ c) 0x104 = some e ∧ (d.unit < 4) ∧ (m ≠ 0) ∧ (m ≤ 8192) ∧ (bufferOk d.arg0 m = true) ∧ (u.txState c = 0))),
    (let c : Carrier := .A
     let b0 : State := having [(R.TXP_STATE .A, F.TXP_STATE_state, 3)]
     let d0 : Desc := desc 0x104 3 0x01000000 8192 0
     let s : State := holding (txpQ c) d0 b0
     let e : QEntry := entry (txpQ c) d0
     let u : State := begun (txpQ c) d0 b0
     let d := e.desc
     let m := d.arg1 % 16384
     decide (s.startable (txpQ c) 0x104 = some e ∧ (d.unit < 4) ∧ (m ≠ 0) ∧ (m ≤ 8192) ∧ (bufferOk d.arg0 m = true) ∧ (u.txState c = 3))),
    (let c : Carrier := .A
     let b0 : State := { having [(R.TXP_STATE .A, F.TXP_STATE_state, 2)] with hailA := { hailReset with cur := some someBurst } }
     let d0 : Desc := desc 0x104 3 0x01000000 8192 0
     let s : State := holding (txpQ c) d0 b0
     let e : QEntry := entry (txpQ c) d0
     let u : State := begun (txpQ c) d0 b0
     let d := e.desc
     let m := d.arg1 % 16384
     decide (s.startable (txpQ c) 0x104 = some e ∧ (d.unit < 4) ∧ (m ≠ 0) ∧ (m ≤ 8192) ∧ (bufferOk d.arg0 m = true) ∧ (u.txState c ≠ 0) ∧ (u.txState c
         ≠ 3)))] : List Bool).all id = true := by decide +kernel

/-- States and operands that meet the hypotheses of TransmitEvents, clause by clause in the order of the statement. -/
theorem witness_TransmitEvents : ([
    (let c : Carrier := .A
     let s : State := State.reset
     decide (((s.tx c).settling = false))),
    (let c : Carrier := .A
     let s : State := { (begun (txpQ .A) (desc 0x100 0xFF 2 0 0) (State.reset)) with txA := { txReset with settling := true } }
     let settled := s.setTx c { s.tx c with settling := false }
     let e : QEntry := (settled.startedOp (txpQ c) 0x100).getD (entry 0 noDesc)
     decide (((s.tx c).settling = true) ∧ (settled.startedOp (txpQ c) 0x100 = some e))),
    (let c : Carrier := .A
     let s : State := { State.reset with txA := { txReset with settling := true } }
     let settled := s.setTx c { s.tx c with settling := false }
     decide (((s.tx c).settling = true) ∧ (settled.startedOp (txpQ c) 0x100 = none))),
    (let c : Carrier := .A
     let s : State := State.reset
     decide ((s.txState c ≠ 3))),
    (let c : Carrier := .A
     let s : State := (begun (txpQ .A) (desc 0x100 0xFF 2 0 0) (having [(R.TXP_STATE .A, F.TXP_STATE_state, 3)]))
     let clips : Nat := 0
     let sat : Bool := false
     let clipped := if clips = 0 ∨ (s.tx c).sounding = false then s else (s.addCnt (R.TXP_CLIP_CNT c) clips).setFlag (R.TXP_STATUS c)
         F.TXP_STATUS_clip true
     let shown := (if sat ∧ clipped.flag (R.TXP_CTRL c) F.TXP_CTRL_nlc_en ∧ clipped.nlcBank c ≠ [] then clipped.setFlag (R.TXP_STATUS c)
         F.TXP_STATUS_nlc_sat true else clipped).hailWindow c
     let applied := ((shown.anlBoundary true c).applyBoundary .txSf c).txMirror c
     let e : QEntry := (applied.startedOp (txpQ c) 0x100).getD (entry 0 noDesc)
     decide ((s.txState c = 3) ∧ (applied.startedOp (txpQ c) 0x100 = some e))),
    (let c : Carrier := .A
     let s : State := having [(R.TXP_STATE .A, F.TXP_STATE_state, 3)]
     let clips : Nat := 0
     let sat : Bool := false
     let clipped := if clips = 0 ∨ (s.tx c).sounding = false then s else (s.addCnt (R.TXP_CLIP_CNT c) clips).setFlag (R.TXP_STATUS c)
         F.TXP_STATUS_clip true
     let shown := (if sat ∧ clipped.flag (R.TXP_CTRL c) F.TXP_CTRL_nlc_en ∧ clipped.nlcBank c ≠ [] then clipped.setFlag (R.TXP_STATUS c)
         F.TXP_STATUS_nlc_sat true else clipped).hailWindow c
     let applied := ((shown.anlBoundary true c).applyBoundary .txSf c).txMirror c
     decide ((s.txState c = 3) ∧ (applied.startedOp (txpQ c) 0x100 = none))),
    (let c : Carrier := .A
     let s : State := State.reset
     decide ((s.txState c ≠ 3))),
    (let c : Carrier := .A
     let s : State := (begun (txpQ .A) (desc 0x100 0xFF 2 0 0) (having [(R.TXP_STATE .A, F.TXP_STATE_state, 3)]))
     decide ((s.txState c = 3)))] : List Bool).all id = true := by decide +kernel

/-- States and operands that meet the hypotheses of ReceiveCommands, clause by clause in the order of the statement. -/
theorem witness_ReceiveCommands : ([
    (let c : Carrier := .A
     let s : State := (begun (rxfQ .A) (desc 0x100 0xFF 2 0 0) (State.reset))
     decide (((s.startedOp (rxfQ c) 0x100).isSome))),
    (let c : Carrier := .A
     let b0 : State := State.reset
     let d0 : Desc := desc 0x100 0 0 0 0
     let s : State := holding (rxfQ c) d0 b0
     let e : QEntry := entry (rxfQ c) d0
     let u : State := begun (rxfQ c) d0 b0
     let d := e.desc
     let code : Nat := (u.rxStateCheck c d).getD 0
     decide ((s.startedOp (rxfQ c) 0x100 = none) ∧ s.startable (rxfQ c) 0x100 = some e ∧ (u.rxStateCheck c d = some code))),
    (let c : Carrier := .A
     let b0 : State := State.reset
     let d0 : Desc := desc 0x100 255 3 0 0
     let s : State := holding (rxfQ c) d0 b0
     let e : QEntry := entry (rxfQ c) d0
     let u : State := begun (rxfQ c) d0 b0
     let d := e.desc
     let a := R.RXF_STATE c
     decide ((s.startedOp (rxfQ c) 0x100 = none) ∧ s.startable (rxfQ c) 0x100 = some e ∧ (u.rxStateCheck c d = none) ∧ (u.fld a F.RXF_STATE_state = 0)
         ∧ (d.arg0 % 8 ≠ 0))),
    (let c : Carrier := .A
     let b0 : State := State.reset
     let d0 : Desc := desc 0x100 255 0 0 0
     let s : State := holding (rxfQ c) d0 b0
     let e : QEntry := entry (rxfQ c) d0
     let u : State := begun (rxfQ c) d0 b0
     let d := e.desc
     let a := R.RXF_STATE c
     decide ((s.startedOp (rxfQ c) 0x100 = none) ∧ s.startable (rxfQ c) 0x100 = some e ∧ (u.rxStateCheck c d = none) ∧ ((u.fld a F.RXF_STATE_state = 0
         → d.arg0 % 8 = 0)))),
    (let c : Carrier := .A
     let b0 : State := State.reset
     let d0 : Desc := desc 0x101 0 0 0 0
     let s : State := holding (rxfQ c) d0 b0
     let e : QEntry := entry (rxfQ c) d0
     let d := e.desc
     decide (s.startable (rxfQ c) 0x101 = some e ∧ (d.unit ≠ 0xFF))),
    (let c : Carrier := .A
     let b0 : State := State.reset
     let d0 : Desc := desc 0x101 255 3 0 0
     let s : State := holding (rxfQ c) d0 b0
     let e : QEntry := entry (rxfQ c) d0
     let u : State := begun (rxfQ c) d0 b0
     let d := e.desc
     let a := R.RXF_STATE c
     decide (s.startable (rxfQ c) 0x101 = some e ∧ (d.unit = 0xFF) ∧ (u.fld a F.RXF_STATE_state ≠ 3))),
    (let c : Carrier := .A
     let b0 : State := having [(R.RXF_STATE .A, F.RXF_STATE_state, 3)]
     let d0 : Desc := desc 0x101 255 3 0 0
     let s : State := holding (rxfQ c) d0 b0
     let e : QEntry := entry (rxfQ c) d0
     let u : State := begun (rxfQ c) d0 b0
     let d := e.desc
     let a := R.RXF_STATE c
     decide (s.startable (rxfQ c) 0x101 = some e ∧ (d.unit = 0xFF) ∧ (u.fld a F.RXF_STATE_state = 3))),
    (let c : Carrier := .A
     let b0 : State := State.reset
     let d0 : Desc := desc 0x102 0 0 0 0
     let s : State := holding (rxfQ c) d0 b0
     let e : QEntry := entry (rxfQ c) d0
     let d := e.desc
     let n := d.arg1 % 16384
     let point := d.arg1 / 65536 % 4
     decide (s.startable (rxfQ c) 0x102 = some e ∧ ((4 ≤ d.unit ∨ n = 0 ∨ 8192 < n ∨ point = 3 ∨ (point = 2 ∧ d.unit % 2 = 1) ∨ bufferOk d.arg0
         (rxCaptureBytes d) = false)))),
    (let c : Carrier := .A
     let b0 : State := State.reset
     let d0 : Desc := desc 0x102 3 0x01000000 8192 0
     let s : State := holding (rxfQ c) d0 b0
     let e : QEntry := entry (rxfQ c) d0
     let u : State := begun (rxfQ c) d0 b0
     let d := e.desc
     let a := R.RXF_STATE c
     let n := d.arg1 % 16384
     let point := d.arg1 / 65536 % 4
     decide (s.startable (rxfQ c) 0x102 = some e ∧ (¬ (4 ≤ d.unit ∨ n = 0 ∨ 8192 < n ∨ point = 3 ∨ (point = 2 ∧ d.unit % 2 = 1) ∨ bufferOk d.arg0
         (rxCaptureBytes d) = false)) ∧ ((u.fld a F.RXF_STATE_state = 0 ∨ (point = 2 ∧ u.fld a F.RXF_STATE_state ≠ 2 ∧ u.fld a F.RXF_STATE_state
         ≠ 3))))),
    (let c : Carrier := .A
     let b0 : State := having [(R.RXF_STATE .A, F.RXF_STATE_state, 3), (R.RXF_STATE .A, F.RXF_STATE_acq, 4), (R.RXF_STATE .A, F.RXF_STATE_sf_lock, 1)]
     let d0 : Desc := desc 0x102 3 0x01000000 8192 0
     let s : State := holding (rxfQ c) d0 b0
     let e : QEntry := entry (rxfQ c) d0
     let u : State := begun (rxfQ c) d0 b0
     let d := e.desc
     let a := R.RXF_STATE c
     let n := d.arg1 % 16384
     let point := d.arg1 / 65536 % 4
     decide (s.startable (rxfQ c) 0x102 = some e ∧ (¬ (4 ≤ d.unit ∨ n = 0 ∨ 8192 < n ∨ point = 3 ∨ (point = 2 ∧ d.unit % 2 = 1) ∨ bufferOk d.arg0
         (rxCaptureBytes d) = false)) ∧ (¬ (u.fld a F.RXF_STATE_state = 0 ∨ (point = 2 ∧ u.fld a F.RXF_STATE_state ≠ 2 ∧ u.fld a
         F.RXF_STATE_state ≠ 3))) ∧ (u.flag a F.RXF_STATE_sf_lock = true))),
    (let c : Carrier := .A
     let b0 : State := having [(R.RXF_STATE .A, F.RXF_STATE_state, 3)]
     let d0 : Desc := desc 0x102 3 0x01000000 8192 0
     let s : State := holding (rxfQ c) d0 b0
     let e : QEntry := entry (rxfQ c) d0
     let u : State := begun (rxfQ c) d0 b0
     let d := e.desc
     let a := R.RXF_STATE c
     let n := d.arg1 % 16384
     let point := d.arg1 / 65536 % 4
     decide (s.startable (rxfQ c) 0x102 = some e ∧ (¬ (4 ≤ d.unit ∨ n = 0 ∨ 8192 < n ∨ point = 3 ∨ (point = 2 ∧ d.unit % 2 = 1) ∨ bufferOk d.arg0
         (rxCaptureBytes d) = false)) ∧ (¬ (u.fld a F.RXF_STATE_state = 0 ∨ (point = 2 ∧ u.fld a F.RXF_STATE_state ≠ 2 ∧ u.fld a
         F.RXF_STATE_state ≠ 3))) ∧ (u.flag a F.RXF_STATE_sf_lock = false)))] : List Bool).all id = true := by decide +kernel

/-- States and operands that meet the hypotheses of ReceiveEvents, clause by clause in the order of the statement. -/
theorem witness_ReceiveEvents : ([
    (let c : Carrier := .A
     let s : State := State.reset
     decide (((s.rx c).settling = false))),
    (let c : Carrier := .A
     let s : State := { (begun (rxfQ .A) (desc 0x100 0xFF 2 0 0) (State.reset)) with rxA := { rxReset with settling := true } }
     let settled := s.setRx c { s.rx c with settling := false }
     let e : QEntry := (settled.startedOp (rxfQ c) 0x100).getD (entry 0 noDesc)
     decide (((s.rx c).settling = true) ∧ (settled.startedOp (rxfQ c) 0x100 = some e))),
    (let c : Carrier := .A
     let s : State := { State.reset with rxA := { rxReset with settling := true } }
     let settled := s.setRx c { s.rx c with settling := false }
     decide (((s.rx c).settling = true) ∧ (settled.startedOp (rxfQ c) 0x100 = none))),
    (let c : Carrier := .A
     let s : State := State.reset
     let a := R.RXF_STATE c
     let st := s.fld a F.RXF_STATE_state
     decide ((st = 0))),
    (let c : Carrier := .A
     let s : State := { having [(R.RXF_STATE .A, F.RXF_STATE_state, 3)] with rxA := { rxReset with below := 9 } }
     let r0 : BitVec 16 := 0
     let r1 : BitVec 16 := 0
     let r2 : BitVec 16 := 0
     let r3 : BitVec 16 := 0
     let clips : Nat := 0
     let iq : RxIq := ⟨0, 0, 0, 0⟩
     let a := R.RXF_STATE c
     let st := s.fld a F.RXF_STATE_state
     let rms := fun (n : Nat) (r : BitVec 16) (s : State) => s.setFld (R.RXF_LANE_RMS c n) F.RXF_LANE_RMS_rms r.toNat
     let met := rms 3 r3 (rms 2 r2 (rms 1 r1 (rms 0 r0 ((s.rxClips c clips).iqWindow c iq))))
     let sum := r0.toNat ^ 2 + r1.toNat ^ 2 + r2.toNat ^ 2 + r3.toNat ^ 2
     let thr := met.fld (R.RXF_LOS_CFG c) F.RXF_LOS_CFG_los_thr
     let x := met.rx c
     let below := if sum < 4 * (256 * thr) ^ 2 then x.below + 1 else 0
     decide ((st ≠ 0) ∧ (met.rxLos c = false) ∧ (10 ≤ below))),
    (let c : Carrier := .A
     let s : State := having [(R.RXF_STATE .A, F.RXF_STATE_state, 3)]
     let r0 : BitVec 16 := 0
     let r1 : BitVec 16 := 0
     let r2 : BitVec 16 := 0
     let r3 : BitVec 16 := 0
     let clips : Nat := 0
     let iq : RxIq := ⟨0, 0, 0, 0⟩
     let a := R.RXF_STATE c
     let st := s.fld a F.RXF_STATE_state
     let rms := fun (n : Nat) (r : BitVec 16) (s : State) => s.setFld (R.RXF_LANE_RMS c n) F.RXF_LANE_RMS_rms r.toNat
     let met := rms 3 r3 (rms 2 r2 (rms 1 r1 (rms 0 r0 ((s.rxClips c clips).iqWindow c iq))))
     let sum := r0.toNat ^ 2 + r1.toNat ^ 2 + r2.toNat ^ 2 + r3.toNat ^ 2
     let thr := met.fld (R.RXF_LOS_CFG c) F.RXF_LOS_CFG_los_thr
     let x := met.rx c
     let below := if sum < 4 * (256 * thr) ^ 2 then x.below + 1 else 0
     decide ((st ≠ 0) ∧ (met.rxLos c = false) ∧ (below < 10))),
    (let c : Carrier := .A
     let s : State :=
         { having [(R.RXF_STATE .A, F.RXF_STATE_state, 3), (R.RXF_STATE .A, F.RXF_STATE_los, 1)] with rxA := { rxReset with above := 99 } }
     let r0 : BitVec 16 := 0
     let r1 : BitVec 16 := 0
     let r2 : BitVec 16 := 0
     let r3 : BitVec 16 := 65535
     let clips : Nat := 0
     let iq : RxIq := ⟨0, 0, 0, 0⟩
     let a := R.RXF_STATE c
     let st := s.fld a F.RXF_STATE_state
     let rms := fun (n : Nat) (r : BitVec 16) (s : State) => s.setFld (R.RXF_LANE_RMS c n) F.RXF_LANE_RMS_rms r.toNat
     let met := rms 3 r3 (rms 2 r2 (rms 1 r1 (rms 0 r0 ((s.rxClips c clips).iqWindow c iq))))
     let sum := r0.toNat ^ 2 + r1.toNat ^ 2 + r2.toNat ^ 2 + r3.toNat ^ 2
     let thr := met.fld (R.RXF_LOS_CFG c) F.RXF_LOS_CFG_los_thr
     let clr := thr + met.fld (R.RXF_LOS_CFG c) F.RXF_LOS_CFG_hyst
     let x := met.rx c
     let above := if 4 * (256 * clr) ^ 2 ≤ sum then x.above + 1 else 0
     decide ((st ≠ 0) ∧ (met.rxLos c = true) ∧ (100 ≤ above))),
    (let c : Carrier := .A
     let s : State := having [(R.RXF_STATE .A, F.RXF_STATE_state, 3), (R.RXF_STATE .A, F.RXF_STATE_los, 1)]
     let r0 : BitVec 16 := 0
     let r1 : BitVec 16 := 0
     let r2 : BitVec 16 := 0
     let r3 : BitVec 16 := 0
     let clips : Nat := 0
     let iq : RxIq := ⟨0, 0, 0, 0⟩
     let a := R.RXF_STATE c
     let st := s.fld a F.RXF_STATE_state
     let rms := fun (n : Nat) (r : BitVec 16) (s : State) => s.setFld (R.RXF_LANE_RMS c n) F.RXF_LANE_RMS_rms r.toNat
     let met := rms 3 r3 (rms 2 r2 (rms 1 r1 (rms 0 r0 ((s.rxClips c clips).iqWindow c iq))))
     let sum := r0.toNat ^ 2 + r1.toNat ^ 2 + r2.toNat ^ 2 + r3.toNat ^ 2
     let thr := met.fld (R.RXF_LOS_CFG c) F.RXF_LOS_CFG_los_thr
     let clr := thr + met.fld (R.RXF_LOS_CFG c) F.RXF_LOS_CFG_hyst
     let x := met.rx c
     let above := if 4 * (256 * clr) ^ 2 ≤ sum then x.above + 1 else 0
     decide ((st ≠ 0) ∧ (met.rxLos c = true) ∧ (above < 100))),
    (let c : Carrier := .A
     let s : State := State.reset
     let a := R.RXF_STATE c
     let st := s.fld a F.RXF_STATE_state
     decide ((¬ (st = 3 ∧ s.rxAcq c = 1 ∧ s.rxLos c = false)))),
    (let c : Carrier := .A
     let s : State := having [(R.RXF_STATE .A, F.RXF_STATE_state, 3), (R.RXF_STATE .A, F.RXF_STATE_acq, 1)]
     let a := R.RXF_STATE c
     let st := s.fld a F.RXF_STATE_state
     decide ((st = 3 ∧ s.rxAcq c = 1 ∧ s.rxLos c = false))),
    (let c : Carrier := .A
     let s : State := State.reset
     let off : BitVec 20 := 500000
     let a := R.RXF_STATE c
     let st := s.fld a F.RXF_STATE_state
     decide ((¬ (st = 3 ∧ 2 ≤ s.rxAcq c ∧ s.rxLos c = false ∧ -500000 ≤ off.toInt ∧ off.toInt ≤ 500000)))),
    (let c : Carrier := .A
     let s : State := having [(R.RXF_STATE .A, F.RXF_STATE_state, 3), (R.RXF_STATE .A, F.RXF_STATE_acq, 2)]
     let off : BitVec 20 := 500000
     let a := R.RXF_STATE c
     let st := s.fld a F.RXF_STATE_state
     decide (((st = 3 ∧ 2 ≤ s.rxAcq c ∧ s.rxLos c = false ∧ -500000 ≤ off.toInt ∧ off.toInt ≤ 500000)))),
    (let c : Carrier := .A
     let s : State := State.reset
     let metric : Nat := 0
     let a := R.RXF_STATE c
     let st := s.fld a F.RXF_STATE_state
     decide ((¬ (st = 3 ∧ s.rxAcq c = 3 ∧ s.rxLos c = false ∧ s.fld (R.RXF_SF_CFG c) F.RXF_SF_CFG_sf_thresh ≤ metric)))),
    (let c : Carrier := .A
     let s : State := having [(R.RXF_STATE .A, F.RXF_STATE_state, 3), (R.RXF_STATE .A, F.RXF_STATE_acq, 3)]
     let metric : Nat := 65535
     let spacing : Nat := 524286
     let a := R.RXF_STATE c
     let st := s.fld a F.RXF_STATE_state
     decide (((st = 3 ∧ s.rxAcq c = 3 ∧ s.rxLos c = false ∧ s.fld (R.RXF_SF_CFG c) F.RXF_SF_CFG_sf_thresh ≤ metric)) ∧ (¬ ((s.rx c).peak = true ∧
         524286 ≤ spacing ∧ spacing ≤ 524290)))),
    (let c : Carrier := .A
     let s : State :=
         { having [(R.RXF_STATE .A, F.RXF_STATE_state, 3), (R.RXF_STATE .A, F.RXF_STATE_acq, 3)] with rxA := { rxReset with peak := true } }
     let metric : Nat := 65535
     let spacing : Nat := 524286
     let a := R.RXF_STATE c
     let st := s.fld a F.RXF_STATE_state
     decide (((st = 3 ∧ s.rxAcq c = 3 ∧ s.rxLos c = false ∧ s.fld (R.RXF_SF_CFG c) F.RXF_SF_CFG_sf_thresh ≤ metric)) ∧ (((s.rx c).peak = true ∧ 524286
         ≤ spacing ∧ spacing ≤ 524290)))),
    (let c : Carrier := .A
     let s : State := State.reset
     let a := R.RXF_STATE c
     decide ((s.flag a F.RXF_STATE_sf_lock = false))),
    (let c : Carrier := .A
     let s : State := having [(R.RXF_STATE .A, F.RXF_STATE_state, 3), (R.RXF_STATE .A, F.RXF_STATE_acq, 4), (R.RXF_STATE .A, F.RXF_STATE_sf_lock, 1)]
     let a := R.RXF_STATE c
     decide ((s.flag a F.RXF_STATE_sf_lock = true))),
    (let c : Carrier := .A
     let s : State := State.reset
     let a := R.RXF_STATE c
     let st := s.fld a F.RXF_STATE_state
     decide (((¬ (st = 3 ∧ s.flag a F.RXF_STATE_sf_lock = false ∧ s.rxLos c = false ∧ s.rxAcq c ≠ 0) ∨ (s.rx c).phase = 0)))),
    (let c : Carrier := .A
     let s : State :=
         { having [(R.RXF_STATE .A, F.RXF_STATE_state, 3), (R.RXF_STATE .A, F.RXF_STATE_acq, 1)] with rxA := { rxReset with phase := 1 } }
     let a := R.RXF_STATE c
     let st := s.fld a F.RXF_STATE_state
     decide (((st = 3 ∧ s.flag a F.RXF_STATE_sf_lock = false ∧ s.rxLos c = false ∧ s.rxAcq c ≠ 0)) ∧ ((s.rx c).phase = 1))),
    (let c : Carrier := .A
     let s : State :=
         { having [(R.RXF_STATE .A, F.RXF_STATE_state, 3), (R.RXF_STATE .A, F.RXF_STATE_acq, 1)] with rxA := { rxReset with phase := 2 } }
     let a := R.RXF_STATE c
     let st := s.fld a F.RXF_STATE_state
     decide (((st = 3 ∧ s.flag a F.RXF_STATE_sf_lock = false ∧ s.rxLos c = false ∧ s.rxAcq c ≠ 0)) ∧ (2 ≤ (s.rx c).phase)))] : List Bool).all id = true := by decide +kernel

/-- States and operands that meet the hypotheses of EqualiserRows, clause by clause in the order of the statement. -/
theorem witness_EqualiserRows : ([
    (let c : Carrier := .A
     let b0 : State := State.reset
     let d0 : Desc := desc 0x100 0 0 0 0
     let s : State := holding (eqzQ c) d0 b0
     let e : QEntry := entry (eqzQ c) d0
     let d := e.desc
     decide (s.startable (eqzQ c) 0x100 = some e ∧ (d.unit ≠ 0xFF))),
    (let c : Carrier := .A
     let b0 : State := State.reset
     let d0 : Desc := desc 0x100 255 1 0 0
     let s : State := holding (eqzQ c) d0 b0
     let e : QEntry := entry (eqzQ c) d0
     let u : State := begun (eqzQ c) d0 b0
     let d := e.desc
     let hold := d.arg0 % 2 == 1
     let held := u.setEq c { u.eq c with held := hold }
     decide (s.startable (eqzQ c) 0x100 = some e ∧ (d.unit = 0xFF) ∧ (held.rxValid c = false))),
    (let c : Carrier := .A
     let b0 : State := having [(R.RXF_STATE .A, F.RXF_STATE_state, 3), (R.RXF_STATE .A, F.RXF_STATE_acq, 4), (R.RXF_STATE .A, F.RXF_STATE_sf_lock, 1)]
     let d0 : Desc := desc 0x100 255 1 0 0
     let s : State := holding (eqzQ c) d0 b0
     let e : QEntry := entry (eqzQ c) d0
     let u : State := begun (eqzQ c) d0 b0
     let d := e.desc
     let hold := d.arg0 % 2 == 1
     let held := u.setEq c { u.eq c with held := hold }
     decide (s.startable (eqzQ c) 0x100 = some e ∧ (d.unit = 0xFF) ∧ (held.rxValid c = true))),
    (let c : Carrier := .A
     let b0 : State := State.reset
     let d0 : Desc := desc 0x101 0 0 0 0
     let s : State := holding (eqzQ c) d0 b0
     let e : QEntry := entry (eqzQ c) d0
     let d := e.desc
     decide (s.startable (eqzQ c) 0x101 = some e ∧ (d.unit ≠ 0xFF))),
    (let c : Carrier := .A
     let b0 : State := State.reset
     let d0 : Desc := desc 0x101 255 1 0 0
     let s : State := holding (eqzQ c) d0 b0
     let e : QEntry := entry (eqzQ c) d0
     let u : State := begun (eqzQ c) d0 b0
     let d := e.desc
     decide (s.startable (eqzQ c) 0x101 = some e ∧ (d.unit = 0xFF) ∧ (u.rxValid c = false))),
    (let c : Carrier := .A
     let b0 : State := having [(R.RXF_STATE .A, F.RXF_STATE_state, 3), (R.RXF_STATE .A, F.RXF_STATE_acq, 4), (R.RXF_STATE .A, F.RXF_STATE_sf_lock, 1)]
     let d0 : Desc := desc 0x101 255 1 0 0
     let s : State := holding (eqzQ c) d0 b0
     let e : QEntry := entry (eqzQ c) d0
     let u : State := begun (eqzQ c) d0 b0
     let d := e.desc
     decide (s.startable (eqzQ c) 0x101 = some e ∧ (d.unit = 0xFF) ∧ (u.rxValid c = true))),
    (let c : Carrier := .A
     let b0 : State := State.reset
     let d0 : Desc := desc 0x102 0 0 0 0
     let s : State := holding (eqzQ c) d0 b0
     let e : QEntry := entry (eqzQ c) d0
     let d := e.desc
     decide (s.startable (eqzQ c) 0x102 = some e ∧ ((d.unit ≠ 0xFF ∨ bufferOk d.arg0 768 = false)))),
    (let c : Carrier := .A
     let b0 : State := State.reset
     let d0 : Desc := desc 0x102 255 0x01000000 0 0
     let s : State := holding (eqzQ c) d0 b0
     let e : QEntry := entry (eqzQ c) d0
     let d := e.desc
     decide (s.startable (eqzQ c) 0x102 = some e ∧ (d.unit = 0xFF) ∧ (bufferOk d.arg0 768 = true))),
    (let c : Carrier := .A
     let b0 : State := State.reset
     let d0 : Desc := desc 0x103 255 1 0 0
     let s : State := holding (eqzQ c) d0 b0
     let e : QEntry := entry (eqzQ c) d0
     let d := e.desc
     decide (s.startable (eqzQ c) 0x103 = some e ∧ (9 ≤ d.unit))),
    (let c : Carrier := .A
     let b0 : State := State.reset
     let d0 : Desc := desc 0x103 0 0 0 0
     let s : State := holding (eqzQ c) d0 b0
     let e : QEntry := entry (eqzQ c) d0
     let u : State := begun (eqzQ c) d0 b0
     let d := e.desc
     let map := R.EQZ_SLICE_MAP c
     decide (s.startable (eqzQ c) 0x103 = some e ∧ (d.unit < 9) ∧ ((u.roleAt map d.unit = 0 ∨ u.roleAt map d.unit = 3)))),
    (let c : Carrier := .A
     let b0 : State := State.reset
     let d0 : Desc := desc 0x103 8 0 0 0
     let s : State := holding (eqzQ c) d0 b0
     let e : QEntry := entry (eqzQ c) d0
     let u : State := begun (eqzQ c) d0 b0
     let d := e.desc
     let map := R.EQZ_SLICE_MAP c
     decide (s.startable (eqzQ c) 0x103 = some e ∧ (d.unit < 9) ∧ (u.roleAt map d.unit ≠ 0) ∧ (u.roleAt map d.unit ≠ 3))),
    (let c : Carrier := .A
     let s : State := State.reset
     decide (((s.eq c).copy = none))),
    (let c : Carrier := .A
     let s : State := { State.reset with eqA := { eqReset with copy := some ([1], 0) } }
     let copy : List W16 × Nat := ((s.eq c).copy).getD ([], 0)
     decide (((s.eq c).copy = some copy))),
    (let c : Carrier := .A
     let s : State := State.reset
     let errs : List Nat := []
     let slice : Fin 9 := 0
     let cause : Fin 3 := 0
     let map := R.EQZ_SLICE_MAP c
     decide ((¬ (s.rxValid c = true ∧ s.roleAt map slice.val ≠ 2 ∧ (cause.val ≠ 2 ∨ (s.crState c = 3 ∧ s.roleAt map slice.val = 0 ∧ sliceExcess (s.fld
         (R.EQZ_CTRL c) F.EQZ_CTRL_slice_thr) (errs.getD slice.val 0) (s.sliceErrs c errs) = true)))))),
    (let c : Carrier := .A
     let s : State := having [(R.RXF_STATE .A, F.RXF_STATE_state, 3), (R.RXF_STATE .A, F.RXF_STATE_acq, 4), (R.RXF_STATE .A, F.RXF_STATE_sf_lock, 1)]
     let errs : List Nat := []
     let slice : Fin 9 := 8
     let cause : Fin 3 := 0
     let map := R.EQZ_SLICE_MAP c
     decide (((s.rxValid c = true ∧ s.roleAt map slice.val ≠ 2 ∧ (cause.val ≠ 2 ∨ (s.crState c = 3 ∧ s.roleAt map slice.val = 0 ∧ sliceExcess (s.fld
         (R.EQZ_CTRL c) F.EQZ_CTRL_slice_thr) (errs.getD slice.val 0) (s.sliceErrs c errs) = true)))) ∧ (s.roleAt map slice.val ≠ 0))),
    (let c : Carrier := .A
     let s : State := having [(R.RXF_STATE .A, F.RXF_STATE_state, 3), (R.RXF_STATE .A, F.RXF_STATE_acq, 4), (R.RXF_STATE .A, F.RXF_STATE_sf_lock, 1)]
     let errs : List Nat := []
     let slice : Fin 9 := 0
     let cause : Fin 3 := 0
     let map := R.EQZ_SLICE_MAP c
     decide (((s.rxValid c = true ∧ s.roleAt map slice.val ≠ 2 ∧ (cause.val ≠ 2 ∨ (s.crState c = 3 ∧ s.roleAt map slice.val = 0 ∧ sliceExcess (s.fld
         (R.EQZ_CTRL c) F.EQZ_CTRL_slice_thr) (errs.getD slice.val 0) (s.sliceErrs c errs) = true)))) ∧ (s.roleAt map slice.val = 0))),
    (let c : Carrier := .A
     let s : State := State.reset
     decide (((s.eq c).pendFail = []))),
    (let c : Carrier := .A
     let s : State := { State.reset with eqA := { eqReset with pendFail := [3] } }
     decide (((s.eq c).pendFail ≠ [])))] : List Bool).all id = true := by decide +kernel

/-- States and operands that meet the hypotheses of CarrierRecoveryRows, clause by clause in the order of the statement. -/
theorem witness_CarrierRecoveryRows : ([
    (let c : Carrier := .A
     let b0 : State := State.reset
     let d0 : Desc := desc 0x100 0 0 0 0
     let s : State := holding (crrQ c) d0 b0
     let e : QEntry := entry (crrQ c) d0
     let d := e.desc
     decide (s.startable (crrQ c) 0x100 = some e ∧ (d.unit ≠ 0xFF))),
    (let c : Carrier := .A
     let b0 : State := State.reset
     let d0 : Desc := desc 0x100 255 0 0 0
     let s : State := holding (crrQ c) d0 b0
     let e : QEntry := entry (crrQ c) d0
     let u : State := begun (crrQ c) d0 b0
     let d := e.desc
     decide (s.startable (crrQ c) 0x100 = some e ∧ (d.unit = 0xFF) ∧ (u.crState c = 0))),
    (let c : Carrier := .A
     let b0 : State := having [(R.CRR_STATE .A, F.CRR_STATE_cr_state, 1)]
     let d0 : Desc := desc 0x100 255 0 0 0
     let s : State := holding (crrQ c) d0 b0
     let e : QEntry := entry (crrQ c) d0
     let u : State := begun (crrQ c) d0 b0
     let d := e.desc
     decide (s.startable (crrQ c) 0x100 = some e ∧ (d.unit = 0xFF) ∧ (u.crState c ≠ 0))),
    (let c : Carrier := .A
     let b0 : State := State.reset
     let d0 : Desc := desc 0x101 0 0 0 0
     let s : State := holding (crrQ c) d0 b0
     let e : QEntry := entry (crrQ c) d0
     let d := e.desc
     let seed := BitVec.ofNat 18 d.arg0
     decide (s.startable (crrQ c) 0x101 = some e ∧ ((d.unit ≠ 0xFF ∨ seed.toInt < -50000 ∨ 50000 < seed.toInt)))),
    (let c : Carrier := .A
     let b0 : State := State.reset
     let d0 : Desc := desc 0x101 255 0 0 0
     let s : State := holding (crrQ c) d0 b0
     let e : QEntry := entry (crrQ c) d0
     let d := e.desc
     let seed := BitVec.ofNat 18 d.arg0
     decide (s.startable (crrQ c) 0x101 = some e ∧ (d.unit = 0xFF) ∧ (-50000 ≤ seed.toInt) ∧ (seed.toInt ≤ 50000))),
    (let c : Carrier := .A
     let b0 : State := State.reset
     let d0 : Desc := desc 0x102 0 0 0 0
     let s : State := holding (crrQ c) d0 b0
     let e : QEntry := entry (crrQ c) d0
     let d := e.desc
     let n := d.arg1 % 16384
     decide (s.startable (crrQ c) 0x102 = some e ∧ ((2 ≤ d.unit ∨ n = 0 ∨ 8192 < n ∨ bufferOk d.arg0 (4 * n) = false)))),
    (let c : Carrier := .A
     let b0 : State := State.reset
     let d0 : Desc := desc 0x102 1 0x01000000 8192 0
     let s : State := holding (crrQ c) d0 b0
     let e : QEntry := entry (crrQ c) d0
     let u : State := begun (crrQ c) d0 b0
     let d := e.desc
     let n := d.arg1 % 16384
     decide (s.startable (crrQ c) 0x102 = some e ∧ (¬ (2 ≤ d.unit ∨ n = 0 ∨ 8192 < n ∨ bufferOk d.arg0 (4 * n) = false)) ∧ (u.crState c ≠ 3))),
    (let c : Carrier := .A
     let b0 : State := having [(R.CRR_STATE .A, F.CRR_STATE_cr_state, 3)]
     let d0 : Desc := desc 0x102 1 0x01000000 8192 0
     let s : State := holding (crrQ c) d0 b0
     let e : QEntry := entry (crrQ c) d0
     let u : State := begun (crrQ c) d0 b0
     let d := e.desc
     let n := d.arg1 % 16384
     decide (s.startable (crrQ c) 0x102 = some e ∧ (¬ (2 ≤ d.unit ∨ n = 0 ∨ 8192 < n ∨ bufferOk d.arg0 (4 * n) = false)) ∧ (u.crState c = 3))),
    (let c : Carrier := .A
     let s : State := State.reset
     decide ((s.flag (R.RXF_STATE c) F.RXF_STATE_sf_lock = false))),
    (let c : Carrier := .A
     let s : State := having [(R.RXF_STATE .A, F.RXF_STATE_state, 3), (R.RXF_STATE .A, F.RXF_STATE_acq, 4), (R.RXF_STATE .A, F.RXF_STATE_sf_lock, 1)]
     decide ((s.flag (R.RXF_STATE c) F.RXF_STATE_sf_lock = true))),
    (let c : Carrier := .A
     let s : State := State.reset
     decide (((s.cr c).belowRun < 16))),
    (let c : Carrier := .A
     let s : State := { State.reset with crA := { crReset with belowRun := 16, logged := true } }
     let low := s.setFlag (R.CRR_STATUS c) F.CRR_STATUS_below_thr true
     decide ((16 ≤ (s.cr c).belowRun) ∧ ((low.cr c).logged = true))),
    (let c : Carrier := .A
     let s : State := { State.reset with crA := { crReset with belowRun := 16 } }
     let low := s.setFlag (R.CRR_STATUS c) F.CRR_STATUS_below_thr true
     decide ((16 ≤ (s.cr c).belowRun) ∧ ((low.cr c).logged = false)))] : List Bool).all id = true := by decide +kernel

/-- States and operands that meet the hypotheses of FecRows, clause by clause in the order of the statement; two clauses turn on Config.iopBlock, which has no body: no concrete state shows them. -/
theorem witness_FecRows : ([
    (let l : List CheckFrac := [(1, 1)]
     let k : Nat := 0
     let f : CheckFrac := (1, 1)
     decide ((lockCand l = some (k, f)))),
    (let l : List CheckFrac := []
     decide ((lockCand l = none))),
    (let c : Carrier := .A
     let s : State := State.reset
     decide ((¬ (s.flag (R.CRR_STATE c) F.CRR_STATE_llr_valid = true ∧ s.carFamily c = 0)))),
    (let c : Carrier := .A
     let s : State :=
         { having [(R.CRR_STATE .A, F.CRR_STATE_llr_valid, 1), (R.FEC_STATE .A, F.FEC_STATE_blk_lock, 1)] with fecA := { fecReset with lowRun := 7 } }
     let hard : List FecHard := [[[[], [], List.replicate 3 (BitVec.allOnes 256)]]]
     let a := R.FEC_STATE c
     let mp := fecMp (s.carRate c)
     let run := lowGroups (s.fec c).lowRun ((groupFracs mp (hard.headD [])).filter (fun f => decide (0 < f.2)))
     decide (((s.flag (R.CRR_STATE c) F.CRR_STATE_llr_valid = true ∧ s.carFamily c = 0)) ∧ ((s.flag a F.FEC_STATE_blk_lock = true)) ∧ (8 ≤ run))),
    (let c : Carrier := .A
     let s : State := having [(R.CRR_STATE .A, F.CRR_STATE_llr_valid, 1), (R.FEC_STATE .A, F.FEC_STATE_blk_lock, 1)]
     let hard : List FecHard := []
     let a := R.FEC_STATE c
     let mp := fecMp (s.carRate c)
     let run := lowGroups (s.fec c).lowRun ((groupFracs mp (hard.headD [])).filter (fun f => decide (0 < f.2)))
     decide (((s.flag (R.CRR_STATE c) F.CRR_STATE_llr_valid = true ∧ s.carFamily c = 0)) ∧ ((s.flag a F.FEC_STATE_blk_lock = true)) ∧ (run < 8))),
    (let c : Carrier := .A
     let s : State := having [(R.CRR_STATE .A, F.CRR_STATE_llr_valid, 1)]
     let hard : List FecHard := []
     let a := R.FEC_STATE c
     let base := s.carBase c
     let mp := fecMp (s.carRate c)
     let cand := lockCand ((hard.take (fecCands base)).map (candFrac mp))
     decide (((s.flag (R.CRR_STATE c) F.CRR_STATE_llr_valid = true ∧ s.carFamily c = 0)) ∧ (¬ (s.flag a F.FEC_STATE_blk_lock = true)) ∧ (cand = none))),
    (let c : Carrier := .A
     let s : State := having [(R.CRR_STATE .A, F.CRR_STATE_llr_valid, 1)]
     let hard : List FecHard := [[[[], [], []]]]
     let k : Nat := 0
     let f : CheckFrac := (768, 768)
     let a := R.FEC_STATE c
     let base := s.carBase c
     let mp := fecMp (s.carRate c)
     let cand := lockCand ((hard.take (fecCands base)).map (candFrac mp))
     decide (((s.flag (R.CRR_STATE c) F.CRR_STATE_llr_valid = true ∧ s.carFamily c = 0)) ∧ (¬ (s.flag a F.FEC_STATE_blk_lock = true)) ∧ (cand = some
         (k, f)))),
    (let c : Carrier := .A
     let s : State := State.reset
     let syms : List (Cplx × Cplx) := []
     let a := R.FEC_STATE c
     let base := s.carBase c
     decide ((s.carFamily c = 0) ∧ (¬ ((s.flag a F.FEC_STATE_blk_lock = true) ∧ syms.length = fecNs base)))),
    (let c : Carrier := .A
     let s : State := having [(R.CAR_MODE .A, F.CAR_MODE_family, 1)]
     decide ((s.carFamily c ≠ 0) ∧ (s.rxValid c = false))),
    (let c : Carrier := .A
     let s : State := State.reset
     let chain : Fin 8 := 0
     let a := R.FEC_STATE c
     decide (((s.carFamily c ≠ 0 ∨ ¬ (s.flag a F.FEC_STATE_blk_lock = true) ∨ s.seeded c chain.val = true ∨ (s.fec c).tries[chain] < 64)))),
    (let c : Carrier := .A
     let s : State :=
         { having [(R.CRR_STATE .A, F.CRR_STATE_llr_valid, 1), (R.FEC_STATE .A, F.FEC_STATE_blk_lock, 1)] with fecA := { fecReset with tries := Vector.replicate 8 64 } }
     let chain : Fin 8 := 0
     let a := R.FEC_STATE c
     decide ((¬ (s.carFamily c ≠ 0 ∨ ¬ (s.flag a F.FEC_STATE_blk_lock = true) ∨ s.seeded c chain.val = true ∨ (s.fec c).tries[chain] < 64)))),
    (let c : Carrier := .A
     let s : State := State.reset
     let engine : Fin 9 := 0
     let cause : Fin 3 := 0
     let map := R.FEC_ENGINE_MAP c
     decide (((s.roleAt map engine.val = 2 ∨ s.fecCause c engine.val cause.val = false)))),
    (let c : Carrier := .A
     let s : State := having [(R.CRR_STATE .A, F.CRR_STATE_llr_valid, 1)]
     let engine : Fin 9 := 0
     let cause : Fin 3 := 0
     let map := R.FEC_ENGINE_MAP c
     decide ((s.roleAt map engine.val ≠ 2) ∧ (s.fecCause c engine.val cause.val = true))),
    (let c : Carrier := .A
     let s : State := State.reset
     let a := R.FEC_STATE c
     decide ((s.flag a F.FEC_STATE_enc_run = false))),
    (let c : Carrier := .A
     let s : State := having [(R.FEC_STATE .A, F.FEC_STATE_enc_run, 1)]
     let a := R.FEC_STATE c
     decide ((s.flag a F.FEC_STATE_enc_run = true))),
    (let c : Carrier := .A
     let b0 : State := State.reset
     let d0 : Desc := desc 0x100 0 0 0 0
     let s : State := holding (fecQ c) d0 b0
     let e : QEntry := entry (fecQ c) d0
     let d := e.desc
     decide (s.startable (fecQ c) 0x100 = some e ∧ (d.unit ≠ 0xFF))),
    (let c : Carrier := .A
     let b0 : State := State.reset
     let d0 : Desc := desc 0x100 255 0 0 0
     let s : State := holding (fecQ c) d0 b0
     let e : QEntry := entry (fecQ c) d0
     let u : State := begun (fecQ c) d0 b0
     let d := e.desc
     decide (s.startable (fecQ c) 0x100 = some e ∧ (d.unit = 0xFF) ∧ (u.fld (R.RXF_STATE c) F.RXF_STATE_acq ≠ 4))),
    (let c : Carrier := .A
     let b0 : State := having [(R.RXF_STATE .A, F.RXF_STATE_acq, 4)]
     let d0 : Desc := desc 0x100 255 0 0 0
     let s : State := holding (fecQ c) d0 b0
     let e : QEntry := entry (fecQ c) d0
     let u : State := begun (fecQ c) d0 b0
     let d := e.desc
     decide (s.startable (fecQ c) 0x100 = some e ∧ (d.unit = 0xFF) ∧ (u.fld (R.RXF_STATE c) F.RXF_STATE_acq = 4))),
    (let c : Carrier := .A
     let b0 : State := State.reset
     let d0 : Desc := desc 0x101 255 0 0 0
     let s : State := holding (fecQ c) d0 b0
     let e : QEntry := entry (fecQ c) d0
     let d := e.desc
     decide (s.startable (fecQ c) 0x101 = some e ∧ (9 ≤ d.unit))),
    (let c : Carrier := .A
     let b0 : State := State.reset
     let d0 : Desc := desc 0x101 0 0 0 0
     let s : State := holding (fecQ c) d0 b0
     let e : QEntry := entry (fecQ c) d0
     let u : State := begun (fecQ c) d0 b0
     let d := e.desc
     let map := R.FEC_ENGINE_MAP c
     decide (s.startable (fecQ c) 0x101 = some e ∧ (d.unit < 9) ∧ ((u.roleAt map d.unit = 0 ∨ u.roleAt map d.unit = 3)))),
    (let c : Carrier := .A
     let b0 : State := State.reset
     let d0 : Desc := desc 0x101 8 0 0 0
     let s : State := holding (fecQ c) d0 b0
     let e : QEntry := entry (fecQ c) d0
     let u : State := begun (fecQ c) d0 b0
     let d := e.desc
     let map := R.FEC_ENGINE_MAP c
     decide (s.startable (fecQ c) 0x101 = some e ∧ (d.unit < 9) ∧ (u.roleAt map d.unit ≠ 0) ∧ (u.roleAt map d.unit ≠ 3))),
    (let c : Carrier := .A
     let b0 : State := State.reset
     let d0 : Desc := desc 0x102 0 0 0 0
     let s : State := holding (fecQ c) d0 b0
     let e : QEntry := entry (fecQ c) d0
     let d := e.desc
     decide (s.startable (fecQ c) 0x102 = some e ∧ ((8 ≤ d.unit ∨ bufferOk d.arg0 (if d.arg1 % 2 = 0 then 92160 else 11520) = false)))),
    (let c : Carrier := .A
     let b0 : State := State.reset
     let d0 : Desc := desc 0x102 7 0x01000000 0 0
     let s : State := holding (fecQ c) d0 b0
     let e : QEntry := entry (fecQ c) d0
     let u : State := begun (fecQ c) d0 b0
     let d := e.desc
     let a := R.FEC_STATE c
     decide (s.startable (fecQ c) 0x102 = some e ∧ (d.unit < 8) ∧ (bufferOk d.arg0 (if d.arg1 % 2 = 0 then 92160 else 11520) = true) ∧ (u.flag a
         F.FEC_STATE_blk_lock = false))),
    (let c : Carrier := .A
     let b0 : State := having [(R.CRR_STATE .A, F.CRR_STATE_llr_valid, 1), (R.FEC_STATE .A, F.FEC_STATE_blk_lock, 1)]
     let d0 : Desc := desc 0x102 7 0x01000000 0 0
     let s : State := holding (fecQ c) d0 b0
     let e : QEntry := entry (fecQ c) d0
     let u : State := begun (fecQ c) d0 b0
     let d := e.desc
     let a := R.FEC_STATE c
     decide (s.startable (fecQ c) 0x102 = some e ∧ (d.unit < 8) ∧ (bufferOk d.arg0 (if d.arg1 % 2 = 0 then 92160 else 11520) = true) ∧ (u.flag a
         F.FEC_STATE_blk_lock = true))),
    (let c : Carrier := .A
     let b0 : State := State.reset
     let d0 : Desc := desc 0x102 7 0x01000000 0 0
     let s : State := holding (fecQ c) d0 b0
     let e : QEntry := entry (fecQ c) d0
     let u : State := begun (fecQ c) d0 b0
     let d := e.desc
     let a := R.FEC_STATE c
     decide (s.startable (fecQ c) 0x102 = some e ∧ (d.unit < 8) ∧ (bufferOk d.arg0 (if d.arg1 % 2 = 0 then 92160 else 11520) = true) ∧ (u.flag a
         F.FEC_STATE_blk_lock = false))),
    (let c : Carrier := .A
     let b0 : State := having [(R.CRR_STATE .A, F.CRR_STATE_llr_valid, 1), (R.FEC_STATE .A, F.FEC_STATE_blk_lock, 1)]
     let d0 : Desc := desc 0x102 7 0x01000000 0 0
     let s : State := holding (fecQ c) d0 b0
     let e : QEntry := entry (fecQ c) d0
     let u : State := begun (fecQ c) d0 b0
     let d := e.desc
     let a := R.FEC_STATE c
     decide (s.startable (fecQ c) 0x102 = some e ∧ (d.unit < 8) ∧ (bufferOk d.arg0 (if d.arg1 % 2 = 0 then 92160 else 11520) = true) ∧ (u.flag a
         F.FEC_STATE_blk_lock = true))),
    (let s : State := { having [(R.FEC_STATE .A, F.FEC_STATE_blk_lock, 1)] with fecA := { fecReset with lowRun := 0 } }
     let b := (s.applyBoundary .fecBlk .A).fecEntropy .A
     let n := (b.fec .A).arrived
     let came := b.setFec .A { b.fec .A with arrived := n + 1 }
     let k : Fin 8 := Fin.ofNat 8 n
     let dead := (came.fec .A).pendFail.contains (came.chainEngine .A k.val)
     s.carFamily .A == 0 && s.flag (R.FEC_STATE .A) F.FEC_STATE_blk_lock && (List.replicate 7680 (((0, 0), (0, 0)) : Cplx × Cplx)).length == fecNs (s.carBase .A) && (came.fec .A).chains[k].llr.isEmpty && !dead),
    (let s : State := { having [(R.FEC_STATE .A, F.FEC_STATE_blk_lock, 1)] with fecA := { fecReset with chains := fecReset.chains.set 0 { ChainDec.cold with llr := [[]] }, pendFail := [0] } }
     let b := (s.applyBoundary .fecBlk .A).fecEntropy .A
     let n := (b.fec .A).arrived
     let came := b.setFec .A { b.fec .A with arrived := n + 1 }
     let k : Fin 8 := Fin.ofNat 8 n
     let dead := (came.fec .A).pendFail.contains (came.chainEngine .A k.val)
     s.carFamily .A == 0 && s.flag (R.FEC_STATE .A) F.FEC_STATE_blk_lock && (List.replicate 7680 (((0, 0), (0, 0)) : Cplx × Cplx)).length == fecNs (s.carBase .A) && !(came.fec .A).chains[k].llr.isEmpty && dead),
    (let s : State := { having [(R.FEC_STATE .A, F.FEC_STATE_blk_lock, 1)] with fecA := { fecReset with chains := fecReset.chains.set 0 { ChainDec.cold with llr := [[]] } } }
     let b := (s.applyBoundary .fecBlk .A).fecEntropy .A
     let n := (b.fec .A).arrived
     let came := b.setFec .A { b.fec .A with arrived := n + 1 }
     let k : Fin 8 := Fin.ofNat 8 n
     let dead := (came.fec .A).pendFail.contains (came.chainEngine .A k.val)
     s.carFamily .A == 0 && s.flag (R.FEC_STATE .A) F.FEC_STATE_blk_lock && (List.replicate 7680 (((0, 0), (0, 0)) : Cplx × Cplx)).length == fecNs (s.carBase .A) && !(came.fec .A).chains[k].llr.isEmpty && !dead),
    (let s : State := { having [(R.RXF_STATE .A, F.RXF_STATE_acq, 4), (R.CAR_MODE .A, F.CAR_MODE_family, 1)] with fecA := { fecReset with pendFail := [0] } }
     let n := (((s.applyBoundary .fecBlk .A).fecEntropy .A).fec .A).arrived
     s.carFamily .A != 0 && s.rxValid .A && ((((s.applyBoundary .fecBlk .A).fecEntropy .A).fec .A).pendFail.contains (s.chainEngine .A (n % 8))))] : List Bool).all id = true := by decide +kernel

/-- States and operands that meet the hypotheses of HailSendingRows, clause by clause in the order of the statement. -/
theorem witness_HailSendingRows : ([
    (let c : Carrier := .A
     let b0 : State := State.reset
     let d0 : Desc := desc 0x100 0 0x01000000 3145728 0
     let s : State := holding (hailQ c) d0 b0
     let e : QEntry := entry (hailQ c) d0
     let d := e.desc
     let len := d.arg1 % 4096
     let typ := d.arg1 / 2 ^ 16 % 256
     let fi := d.arg1 / 2 ^ 24 % 16
     let fl := d.arg1 / 2 ^ 28 % 16
     decide (s.startable (hailQ c) 0x100 = some e ∧ ((d.unit ≠ 0xFF ∨ 2048 < len ∨ hailProgType typ = false ∨ fl < fi ∨ (len ≠ 0 ∧ bufferOk d.arg0 len
         = false))))),
    (let c : Carrier := .A
     let b0 : State := State.reset
     let d0 : Desc := desc 0x100 255 0x01000000 3147776 0
     let s : State := holding (hailQ c) d0 b0
     let e : QEntry := entry (hailQ c) d0
     let d := e.desc
     let len := d.arg1 % 4096
     let typ := d.arg1 / 2 ^ 16 % 256
     let fi := d.arg1 / 2 ^ 24 % 16
     let fl := d.arg1 / 2 ^ 28 % 16
     decide (s.startable (hailQ c) 0x100 = some e ∧ (¬ (d.unit ≠ 0xFF ∨ 2048 < len ∨ hailProgType typ = false ∨ fl < fi ∨ (len ≠ 0 ∧ bufferOk d.arg0
         len = false))) ∧ ((s.holds d.holder (0x24 + c.code) = false ∨ s.hailTxNow c = 0)))),
    (let c : Carrier := .A
     let b0 : State :=
         { having [(R.TXP_STATE .A, F.TXP_STATE_state, 2)] with claims := [(0x24, { holder := .harbour, func := 0 })], hailA := { hailReset with fault := true } }
     let d0 : Desc := desc 0x100 255 0x01000000 3147776 0
     let s : State := holding (hailQ c) d0 b0
     let e : QEntry := entry (hailQ c) d0
     let d := e.desc
     let len := d.arg1 % 4096
     let typ := d.arg1 / 2 ^ 16 % 256
     let fi := d.arg1 / 2 ^ 24 % 16
     let fl := d.arg1 / 2 ^ 28 % 16
     let h := s.hail c
     decide (s.startable (hailQ c) 0x100 = some e ∧ (¬ (d.unit ≠ 0xFF ∨ 2048 < len ∨ hailProgType typ = false ∨ fl < fi ∨ (len ≠ 0 ∧ bufferOk d.arg0
         len = false))) ∧ (¬ (s.holds d.holder (0x24 + c.code) = false ∨ s.hailTxNow c = 0)) ∧ (h.fault = true))),
    (let c : Carrier := .A
     let b0 : State :=
         { having [(R.TXP_STATE .A, F.TXP_STATE_state, 2)] with claims := [(0x24, { holder := .harbour, func := 0 })], hailA := { hailReset with fifo := (List.replicate 16 plainBurst) } }
     let d0 : Desc := desc 0x100 255 0x01000000 3147776 0
     let s : State := holding (hailQ c) d0 b0
     let e : QEntry := entry (hailQ c) d0
     let d := e.desc
     let len := d.arg1 % 4096
     let typ := d.arg1 / 2 ^ 16 % 256
     let fi := d.arg1 / 2 ^ 24 % 16
     let fl := d.arg1 / 2 ^ 28 % 16
     let h := s.hail c
     decide (s.startable (hailQ c) 0x100 = some e ∧ (¬ (d.unit ≠ 0xFF ∨ 2048 < len ∨ hailProgType typ = false ∨ fl < fi ∨ (len ≠ 0 ∧ bufferOk d.arg0
         len = false))) ∧ (¬ (s.holds d.holder (0x24 + c.code) = false ∨ s.hailTxNow c = 0)) ∧ (h.fault = false) ∧ (16 ≤ h.fifo.length))),
    (let c : Carrier := .A
     let b0 : State := { having [(R.TXP_STATE .A, F.TXP_STATE_state, 2)] with claims := [(0x24, { holder := .harbour, func := 0 })] }
     let d0 : Desc := desc 0x100 255 0x01000000 3147776 0
     let s : State := holding (hailQ c) d0 b0
     let e : QEntry := entry (hailQ c) d0
     let d := e.desc
     let len := d.arg1 % 4096
     let typ := d.arg1 / 2 ^ 16 % 256
     let fi := d.arg1 / 2 ^ 24 % 16
     let fl := d.arg1 / 2 ^ 28 % 16
     let h := s.hail c
     decide (s.startable (hailQ c) 0x100 = some e ∧ (¬ (d.unit ≠ 0xFF ∨ 2048 < len ∨ hailProgType typ = false ∨ fl < fi ∨ (len ≠ 0 ∧ bufferOk d.arg0
         len = false))) ∧ (¬ (s.holds d.holder (0x24 + c.code) = false ∨ s.hailTxNow c = 0)) ∧ (h.fault = false) ∧ (h.fifo.length < 16))),
    (let c : Carrier := .A
     let b0 : State := State.reset
     let d0 : Desc := desc 0x101 0 0x01000000 3145728 0
     let s : State := holding (hailQ c) d0 b0
     let e : QEntry := entry (hailQ c) d0
     let d := e.desc
     decide (s.startable (hailQ c) 0x101 = some e ∧ ((d.unit ≠ 0xFF ∨ bufferOk d.arg0 2064 = false)))),
    (let c : Carrier := .A
     let b0 : State := State.reset
     let d0 : Desc := desc 0x101 255 0x01000000 3147777 0
     let s : State := holding (hailQ c) d0 b0
     let e : QEntry := entry (hailQ c) d0
     let u : State := begun (hailQ c) d0 b0
     let d := e.desc
     decide (s.startable (hailQ c) 0x101 = some e ∧ (d.unit = 0xFF) ∧ (bufferOk d.arg0 2064 = true) ∧ ((u.hail c).ring = []))),
    (let c : Carrier := .A
     let b0 : State := { State.reset with hailA := { hailReset with ring := [got 0 []] } }
     let d0 : Desc := desc 0x101 255 0x01000000 3147777 0
     let s : State := holding (hailQ c) d0 b0
     let e : QEntry := entry (hailQ c) d0
     let u : State := begun (hailQ c) d0 b0
     let d := e.desc
     let r : HailRxBurst := ((u.hail c).ring).headD (got 0 [])
     let m : List HailRxBurst := ((u.hail c).ring).tail
     decide (s.startable (hailQ c) 0x101 = some e ∧ (d.unit = 0xFF) ∧ (bufferOk d.arg0 2064 = true) ∧ ((u.hail c).ring = r :: m))),
    (let c : Carrier := .A
     let s : State := State.reset
     let h := s.hail c
     decide ((¬ (h.fault = false ∧ h.cur = none ∧ s.hailTxNow c ≠ 0)))),
    (let c : Carrier := .A
     let s : State := { having [(R.TXP_STATE .A, F.TXP_STATE_state, 2)] with hailA := { hailReset with encl := [plainBurst] } }
     let h := s.hail c
     let b : HailBurst := (h.encl).headD plainBurst
     let l : List HailBurst := (h.encl).tail
     decide (((h.fault = false ∧ h.cur = none ∧ s.hailTxNow c ≠ 0)) ∧ (h.encl = b :: l))),
    (let c : Carrier := .A
     let s : State := { having [(R.TXP_STATE .A, F.TXP_STATE_state, 2)] with hailA := { hailReset with frmq := [plainBurst] } }
     let h := s.hail c
     let b : HailBurst := (h.frmq).headD plainBurst
     let l : List HailBurst := (h.frmq).tail
     decide (((h.fault = false ∧ h.cur = none ∧ s.hailTxNow c ≠ 0)) ∧ (h.encl = []) ∧ (h.frmq = b :: l))),
    (let c : Carrier := .A
     let s : State :=
         { having [(R.TXP_STATE .A, F.TXP_STATE_state, 2)] with claims := [(0x24, { holder := .harbour, func := 0 })], hailA := { hailReset with fifo := (List.replicate 16 plainBurst) } }
     let h := s.hail c
     let b : HailBurst := (h.fifo).headD plainBurst
     let l : List HailBurst := (h.fifo).tail
     decide (((h.fault = false ∧ h.cur = none ∧ s.hailTxNow c ≠ 0)) ∧ (h.encl = []) ∧ (h.frmq = []) ∧ (h.fifo = b :: l))),
    (let c : Carrier := .A
     let s : State := { having [(R.TXP_STATE .A, F.TXP_STATE_state, 2)] with claims := [(0x24, { holder := .harbour, func := 0 })] }
     let h := s.hail c
     decide (((h.fault = false ∧ h.cur = none ∧ s.hailTxNow c ≠ 0)) ∧ (h.encl = []) ∧ (h.frmq = []) ∧ (h.fifo = []))),
    (let c : Carrier := .A
     let s : State := State.reset
     let h := s.hail c
     decide ((h.cur = none))),
    (let c : Carrier := .A
     let s : State :=
         { (begun (hailQ .A) (desc 0x100 255 0 0 0) (State.reset)) with hailA := { hailReset with cur := some { someBurst with burst := { plainBurst with ticket := some (mkTicket 1 1 (hailQ .A)) } } } }
     let h := s.hail c
     let x : HailCur := (h.cur).getD someBurst
     let sent := (s.setHail c { h with cur := none, tail := if x.windowed then none else x.bits.getLast?.map (·.1) }).addCnt (R.HAIL_TX_CNT c) 1
     let e : QEntry := (x.burst.ticket.bind sent.entryOf).getD (entry 0 noDesc)
     decide ((h.cur = some x) ∧ (x.burst.ticket.bind sent.entryOf = some e))),
    (let c : Carrier := .A
     let s : State := { State.reset with hailA := { hailReset with cur := some someBurst } }
     let h := s.hail c
     let x : HailCur := (h.cur).getD someBurst
     let sent := (s.setHail c { h with cur := none, tail := if x.windowed then none else x.bits.getLast?.map (·.1) }).addCnt (R.HAIL_TX_CNT c) 1
     decide ((h.cur = some x) ∧ (x.burst.ticket.bind sent.entryOf = none)))] : List Bool).all id = true := by decide +kernel

/-- States and operands that meet the hypotheses of HailReceivingRows, clause by clause in the order of the statement. -/
theorem witness_HailReceivingRows : ([
    (let c : Carrier := .A
     let s : State := State.reset
     let metric : Nat := 100
     let thr := s.fld (R.HAIL_CFG c) F.HAIL_CFG_corr_thr
     decide (((s.hailListens c 1 = false ∨ metric < thr)))),
    (let c : Carrier := .A
     let s : State := having [(R.RXF_STATE .A, F.RXF_STATE_state, 2), (R.HAIL_CFG .A, F.HAIL_CFG_corr_thr, 100)]
     let metric : Nat := 100
     let x := s.hail c
     let thr := s.fld (R.HAIL_CFG c) F.HAIL_CFG_corr_thr
     decide ((s.hailListens c 1 = true) ∧ (thr ≤ metric) ∧ (x.recv = none))),
    (let c : Carrier := .A
     let s : State := having [(R.RXF_STATE .A, F.RXF_STATE_state, 2), (R.HAIL_CFG .A, F.HAIL_CFG_corr_thr, 100)]
     let metric : Nat := 100
     let thr := s.fld (R.HAIL_CFG c) F.HAIL_CFG_corr_thr
     decide ((s.hailListens c 1 = true) ∧ (thr ≤ metric))),
    (let c : Carrier := .A
     let s : State := State.reset
     decide ((s.hailListens c 2 = false))),
    (let c : Carrier := .A
     let s : State := having [(R.RXF_STATE .A, F.RXF_STATE_state, 3), (R.RXF_STATE .A, F.RXF_STATE_sf_lock, 1), (R.EQZ_STATE .A, F.EQZ_STATE_eq_state,
         1)]
     let x := s.hail c
     decide ((s.hailListens c 2 = true) ∧ (x.recv = none))),
    (let c : Carrier := .A
     let s : State :=
         { having [(R.RXF_STATE .A, F.RXF_STATE_state, 3), (R.RXF_STATE .A, F.RXF_STATE_sf_lock, 1), (R.EQZ_STATE .A, F.EQZ_STATE_eq_state, 1), (R.HAIL_CFG .A, F.HAIL_CFG_corr_thr, 100)] with hailA := { hailReset with recv := some { hearing with metric := 25 } } }
     let metric : Nat := 99
     let x := s.hail c
     let thr := s.fld (R.HAIL_CFG c) F.HAIL_CFG_corr_thr
     decide ((s.hailListens c 2 = true) ∧ (x.recv ≠ none) ∧ (metric < thr))),
    (let c : Carrier := .A
     let s : State := having [(R.RXF_STATE .A, F.RXF_STATE_state, 3), (R.RXF_STATE .A, F.RXF_STATE_sf_lock, 1), (R.EQZ_STATE .A, F.EQZ_STATE_eq_state,
         1)]
     let metric : Nat := 100
     let thr := s.fld (R.HAIL_CFG c) F.HAIL_CFG_corr_thr
     decide ((s.hailListens c 2 = true) ∧ (thr ≤ metric))),
    (let c : Carrier := .A
     let s : State := State.reset
     let x := s.hail c
     decide ((x.recv = none))),
    (let c : Carrier := .A
     let s : State :=
         { having [(R.RXF_STATE .A, F.RXF_STATE_state, 2), (R.HAIL_CFG .A, F.HAIL_CFG_corr_thr, 100)] with hailA := { hailReset with recv := some { hearing with header := some 0x100000080000bd35 } } }
     let x := s.hail c
     let r : HailRecv := (x.recv).getD hearing
     decide ((x.recv = some r) ∧ (r.header.isSome))),
    (let c : Carrier := .A
     let s : State :=
         { having [(R.RXF_STATE .A, F.RXF_STATE_state, 2), (R.HAIL_CFG .A, F.HAIL_CFG_corr_thr, 100)] with hailA := { hailReset with recv := some { hearing with metric := 25 } } }
     let hdr : W64 := 0
     let x := s.hail c
     let r : HailRecv := (x.recv).getD hearing
     decide ((x.recv = some r) ∧ (r.header = none) ∧ (hdrCrcOk hdr = false) ∧ (r.cand = none))),
    (let c : Carrier := .A
     let s : State :=
         { State.reset with hailA := { hailReset with recv := some { hearing with cand := some { metric := 30, time := 7, offset := 0, gain := 0 } } } }
     let hdr : W64 := 0
     let x := s.hail c
     let r : HailRecv := (x.recv).getD hearing
     let o : HailPeak := (r.cand).getD { metric := 0, time := 0, offset := 0, gain := 0 }
     decide ((x.recv = some r) ∧ (r.header = none) ∧ (hdrCrcOk hdr = false) ∧ (r.cand = some o))),
    (let c : Carrier := .A
     let s : State :=
         { having [(R.RXF_STATE .A, F.RXF_STATE_state, 2), (R.HAIL_CFG .A, F.HAIL_CFG_corr_thr, 100)] with hailA := { hailReset with recv := some { hearing with metric := 25 } } }
     let hdr : W64 := 0x20000008000092b9
     let x := s.hail c
     let r : HailRecv := (x.recv).getD hearing
     decide ((x.recv = some r) ∧ (r.header = none) ∧ (hdrCrcOk hdr = true) ∧ ((hdrVersion hdr ≠ 1 ∨ 2048 < hdrLength hdr ∨ hdrFragLast hdr <
         hdrFragIdx hdr)))),
    (let c : Carrier := .A
     let s : State :=
         { having [(R.RXF_STATE .A, F.RXF_STATE_state, 2), (R.HAIL_CFG .A, F.HAIL_CFG_corr_thr, 100)] with hailA := { hailReset with recv := some { hearing with metric := 25 } } }
     let hdr : W64 := 0x1000000000001494
     let x := s.hail c
     let r : HailRecv := (x.recv).getD hearing
     decide ((x.recv = some r) ∧ (r.header = none) ∧ (hdrCrcOk hdr = true) ∧ (¬ (hdrVersion hdr ≠ 1 ∨ 2048 < hdrLength hdr ∨ hdrFragLast hdr <
         hdrFragIdx hdr)) ∧ (hdrLength hdr = 0))),
    (let c : Carrier := .A
     let s : State :=
         { having [(R.RXF_STATE .A, F.RXF_STATE_state, 2), (R.HAIL_CFG .A, F.HAIL_CFG_corr_thr, 100)] with hailA := { hailReset with recv := some { hearing with metric := 25 } } }
     let hdr : W64 := 0x1000080000009157
     let x := s.hail c
     let r : HailRecv := (x.recv).getD hearing
     decide ((x.recv = some r) ∧ (r.header = none) ∧ (hdrCrcOk hdr = true) ∧ (¬ (hdrVersion hdr ≠ 1 ∨ 2048 < hdrLength hdr ∨ hdrFragLast hdr <
         hdrFragIdx hdr)) ∧ (hdrLength hdr ≠ 0))),
    (let c : Carrier := .A
     let s : State := State.reset
     let x := s.hail c
     decide ((x.recv = none))),
    (let c : Carrier := .A
     let s : State :=
         { having [(R.RXF_STATE .A, F.RXF_STATE_state, 2), (R.HAIL_CFG .A, F.HAIL_CFG_corr_thr, 100)] with hailA := { hailReset with recv := some { hearing with metric := 25 } } }
     let x := s.hail c
     let r : HailRecv := (x.recv).getD hearing
     decide ((x.recv = some r) ∧ (r.header = none))),
    (let c : Carrier := .A
     let s : State :=
         { having [(R.RXF_STATE .A, F.RXF_STATE_state, 2), (R.HAIL_CFG .A, F.HAIL_CFG_corr_thr, 100)] with hailA := { hailReset with recv := some { hearing with header := some 0x100000080000bd35 } } }
     let payload : List Byte := []
     let x := s.hail c
     let r : HailRecv := (x.recv).getD hearing
     let h : W64 := (r.header).getD 0
     decide ((x.recv = some r) ∧ (r.header = some h) ∧ (payload.length ≠ hdrLength h))),
    (let c : Carrier := .A
     let s : State := { State.reset with hailA := { hailReset with recv := some { hearing with header := some 0x1000000200007af4 } } }
     let payload : List Byte := [1, 2]
     let crc : W32 := crc32 [1, 2]
     let x := s.hail c
     let r : HailRecv := (x.recv).getD hearing
     let h : W64 := (r.header).getD 0
     decide ((x.recv = some r) ∧ (r.header = some h) ∧ (payload.length = hdrLength h) ∧ (crc32 payload = crc))),
    (let c : Carrier := .A
     let s : State := { State.reset with hailA := { hailReset with recv := some { hearing with header := some 0x1000000200007af4 } } }
     let payload : List Byte := [1, 2]
     let crc : W32 := 0
     let x := s.hail c
     let r : HailRecv := (x.recv).getD hearing
     let h : W64 := (r.header).getD 0
     decide ((x.recv = some r) ∧ (r.header = some h) ∧ (payload.length = hdrLength h) ∧ (crc32 payload ≠ crc))),
    (let c : Carrier := .A
     let s : State := State.reset
     let x := s.hail c
     decide (((x.lastPass = none ∨ s.hailRxNow c ≠ 1)))),
    (let c : Carrier := .A
     let s : State :=
         { having [(R.RXF_STATE .A, F.RXF_STATE_state, 2), (R.HAIL_CFG .A, F.HAIL_CFG_corr_thr, 100)] with hailA := { hailReset with lastPass := some 5 } }
     let x := s.hail c
     let t : W64 := (x.lastPass).getD 0
     decide ((x.lastPass = some t) ∧ (s.hailRxNow c = 1))),
    (let s : State := { having [(R.RXF_STATE .A, F.RXF_STATE_state, 2), (R.HAIL_CFG .A, F.HAIL_CFG_corr_thr, 100)] with hailA := { hailReset with recv := some { hearing with header := some 0x100000080000bd35 } } }
     s.hailListens .A 1 && decide (s.fld (R.HAIL_CFG .A) F.HAIL_CFG_corr_thr ≤ 100) && (s.hail .A).recv.any (fun r => r.header.isSome)),
    (let s : State := { having [(R.RXF_STATE .A, F.RXF_STATE_state, 2), (R.HAIL_CFG .A, F.HAIL_CFG_corr_thr, 100)] with hailA := { hailReset with recv := some { hearing with metric := 25 } } }
     s.hailListens .A 1 && decide (s.fld (R.HAIL_CFG .A) F.HAIL_CFG_corr_thr ≤ 100) && (s.hail .A).recv.any (fun r => r.header.isNone && decide (398 * r.metric ≤ 100 * 100))),
    (let s : State := { having [(R.RXF_STATE .A, F.RXF_STATE_state, 2), (R.HAIL_CFG .A, F.HAIL_CFG_corr_thr, 100)] with hailA := { hailReset with recv := some { hearing with metric := 26 } } }
     s.hailListens .A 1 && decide (s.fld (R.HAIL_CFG .A) F.HAIL_CFG_corr_thr ≤ 100) && (s.hail .A).recv.any (fun r => r.header.isNone && decide (100 * 100 < 398 * r.metric))),
    (let s : State := { having [(R.RXF_STATE .A, F.RXF_STATE_state, 3), (R.RXF_STATE .A, F.RXF_STATE_sf_lock, 1), (R.EQZ_STATE .A, F.EQZ_STATE_eq_state, 1), (R.HAIL_CFG .A, F.HAIL_CFG_corr_thr, 100)] with hailA := { hailReset with recv := some { hearing with header := some 0x100000080000bd35 } } }
     s.hailListens .A 2 && decide (s.fld (R.HAIL_CFG .A) F.HAIL_CFG_corr_thr ≤ 100) && (s.hail .A).recv.any (fun r => r.header.isSome)),
    (let s : State := { having [(R.RXF_STATE .A, F.RXF_STATE_state, 3), (R.RXF_STATE .A, F.RXF_STATE_sf_lock, 1), (R.EQZ_STATE .A, F.EQZ_STATE_eq_state, 1), (R.HAIL_CFG .A, F.HAIL_CFG_corr_thr, 100)] with hailA := { hailReset with recv := some { hearing with metric := 25 } } }
     s.hailListens .A 2 && decide (s.fld (R.HAIL_CFG .A) F.HAIL_CFG_corr_thr ≤ 100) && (s.hail .A).recv.any (fun r => r.header.isNone && decide (398 * r.metric ≤ 100 * 100))),
    (let s : State := { having [(R.RXF_STATE .A, F.RXF_STATE_state, 3), (R.RXF_STATE .A, F.RXF_STATE_sf_lock, 1), (R.EQZ_STATE .A, F.EQZ_STATE_eq_state, 1), (R.HAIL_CFG .A, F.HAIL_CFG_corr_thr, 100)] with hailA := { hailReset with recv := some { hearing with metric := 26 } } }
     s.hailListens .A 2 && decide (s.fld (R.HAIL_CFG .A) F.HAIL_CFG_corr_thr ≤ 100) && (s.hail .A).recv.any (fun r => r.header.isNone && decide (100 * 100 < 398 * r.metric)))] : List Bool).all id = true := by decide +kernel

/-- States and operands that meet the hypotheses of HitlessChangeCommands, clause by clause in the order of the statement. -/
theorem witness_HitlessChangeCommands : ([
    (let c : Carrier := .A
     let b0 : State := State.reset
     let d0 : Desc := desc 0x100 0 0x01000000 8590000444 0
     let s : State := holding (frmQ c) d0 b0
     let e : QEntry := entry (frmQ c) d0
     let u : State := begun (frmQ c) d0 b0
     let d := e.desc
     let y : QEntry := (u.startedOp (frmQ c) 0x100).getD (entry 0 noDesc)
     decide (s.startable (frmQ c) 0x100 = some e ∧ (u.startedOp (frmQ c) 0x100 = some y) ∧ ((d.unit ≠ 0xFF ∨ bufferOk d.arg0 400 = false)))),
    (let c : Carrier := .A
     let b0 : State := State.reset
     let d0 : Desc := desc 0x100 255 0x01000000 8590000513 0
     let s : State := holding (frmQ c) d0 b0
     let e : QEntry := entry (frmQ c) d0
     let u : State := begun (frmQ c) d0 b0
     let d := e.desc
     let h64 := d.arg1 % 512
     let map := normMap (u.bytes d.arg0 400)
     let y : QEntry := (u.startedOp (frmQ c) 0x100).getD (entry 0 noDesc)
     decide (s.startable (frmQ c) 0x100 = some e ∧ (u.startedOp (frmQ c) 0x100 = some y) ∧ (d.unit = 0xFF) ∧ (bufferOk d.arg0 400 = true) ∧
         ((entropyOk (u.carBase c) h64 = false ∨ u.capAt c h64 = 0 ∨ mapWithin map (u.capAt c h64) = false ∨ u.mapOk c map = false)))),
    (let c : Carrier := .A
     let b0 : State := State.reset
     let d0 : Desc := desc 0x100 255 0x01000000 8590000443 0
     let s : State := holding (frmQ c) d0 b0
     let e : QEntry := entry (frmQ c) d0
     let u : State := begun (frmQ c) d0 b0
     let d := e.desc
     let h64 := d.arg1 % 512
     let target := d.arg1 / 2 ^ 32 % 65536
     let map := normMap (u.bytes d.arg0 400)
     let mf := u.nextFrame c / 256 % 65536
     let y : QEntry := (u.startedOp (frmQ c) 0x100).getD (entry 0 noDesc)
     decide (s.startable (frmQ c) 0x100 = some e ∧ (u.startedOp (frmQ c) 0x100 = some y) ∧ (d.unit = 0xFF) ∧ (bufferOk d.arg0 400 = true) ∧ (¬
         (entropyOk (u.carBase c) h64 = false ∨ u.capAt c h64 = 0 ∨ mapWithin map (u.capAt c h64) = false ∨ u.mapOk c map = false)) ∧
         ((u.carFamily c ≠ 0 ∨ (u.txState c ≠ 3 ∨ (u.frm c).change.isSome ∨ mfAhead target mf < 2 ∨ 32767 < mfAhead target mf))))),
    (let c : Carrier := .A
     let b0 : State := having [(R.TXP_STATE .A, F.TXP_STATE_state, 3)]
     let d0 : Desc := desc 0x100 255 0x01000000 8590000443 0
     let s : State := holding (frmQ c) d0 b0
     let e : QEntry := entry (frmQ c) d0
     let u : State := begun (frmQ c) d0 b0
     let d := e.desc
     let h64 := d.arg1 % 512
     let target := d.arg1 / 2 ^ 32 % 65536
     let map := normMap (u.bytes d.arg0 400)
     let mf := u.nextFrame c / 256 % 65536
     let y : QEntry := (u.startedOp (frmQ c) 0x100).getD (entry 0 noDesc)
     decide (s.startable (frmQ c) 0x100 = some e ∧ (u.startedOp (frmQ c) 0x100 = some y) ∧ (d.unit = 0xFF) ∧ (bufferOk d.arg0 400 = true) ∧ (¬
         (entropyOk (u.carBase c) h64 = false ∨ u.capAt c h64 = 0 ∨ mapWithin map (u.capAt c h64) = false ∨ u.mapOk c map = false)) ∧
         (u.carFamily c = 0) ∧ (¬ (u.txState c ≠ 3 ∨ (u.frm c).change.isSome ∨ mfAhead target mf < 2 ∨ 32767 < mfAhead target mf)))),
    (let c : Carrier := .A
     let b0 : State := State.reset
     let d0 : Desc := desc 0x101 0 0x01000000 8590000444 0
     let s : State := holding (frmQ c) d0 b0
     let e : QEntry := entry (frmQ c) d0
     let d := e.desc
     decide (s.startable (frmQ c) 0x101 = some e ∧ (d.unit ≠ 0xFF))),
    (let c : Carrier := .A
     let b0 : State := State.reset
     let d0 : Desc := desc 0x101 255 0x01000000 8590000443 0
     let s : State := holding (frmQ c) d0 b0
     let e : QEntry := entry (frmQ c) d0
     let u : State := begun (frmQ c) d0 b0
     let d := e.desc
     decide (s.startable (frmQ c) 0x101 = some e ∧ (d.unit = 0xFF) ∧ ((u.frm c).prop = none))),
    (let c : Carrier := .A
     let b0 : State := { State.reset with frmA := { frmReset with prop := some proposal } }
     let d0 : Desc := desc 0x101 255 0x01000000 8590000443 0
     let s : State := holding (frmQ c) d0 b0
     let e : QEntry := entry (frmQ c) d0
     let u : State := begun (frmQ c) d0 b0
     let d := e.desc
     let a := R.FRM_ELW_STATUS c
     let m : ElwMsg := ((u.frm c).prop).getD elwIdle
     decide (s.startable (frmQ c) 0x101 = some e ∧ (d.unit = 0xFF) ∧ ((u.frm c).prop = some m) ∧ ((u.fld a F.FRM_ELW_STATUS_rx_state ≠ 1 ∨ m.id ≠
         d.arg0 % 256)))),
    (let c : Carrier := .A
     let b0 : State := { having [(R.FRM_ELW_STATUS .A, F.FRM_ELW_STATUS_rx_state, 1)] with frmA := { frmReset with prop := some proposal } }
     let d0 : Desc := desc 0x101 255 1 0 0
     let s : State := holding (frmQ c) d0 b0
     let e : QEntry := entry (frmQ c) d0
     let u : State := begun (frmQ c) d0 b0
     let d := e.desc
     let a := R.FRM_ELW_STATUS c
     let m : ElwMsg := ((u.frm c).prop).getD elwIdle
     decide (s.startable (frmQ c) 0x101 = some e ∧ (d.unit = 0xFF) ∧ ((u.frm c).prop = some m) ∧ (u.fld a F.FRM_ELW_STATUS_rx_state = 1) ∧ (m.id =
         d.arg0 % 256))),
    (let c : Carrier := .A
     let b0 : State := State.reset
     let d0 : Desc := desc 0x102 0 0x01000000 8590000444 0
     let s : State := holding (frmQ c) d0 b0
     let e : QEntry := entry (frmQ c) d0
     let d := e.desc
     decide (s.startable (frmQ c) 0x102 = some e ∧ ((d.unit ≠ 0xFF ∨ bufferOk d.arg0 4096 = false)))),
    (let c : Carrier := .A
     let b0 : State := State.reset
     let d0 : Desc := desc 0x102 255 0x01000000 8590000443 0
     let s : State := holding (frmQ c) d0 b0
     let e : QEntry := entry (frmQ c) d0
     let u : State := begun (frmQ c) d0 b0
     let d := e.desc
     decide (s.startable (frmQ c) 0x102 = some e ∧ (d.unit = 0xFF) ∧ (bufferOk d.arg0 4096 = true) ∧ (u.flag (R.FRM_DEFECT c) F.FRM_DEFECT_oof =
         true))),
    (let c : Carrier := .A
     let b0 : State := having [(R.FRM_DEFECT .A, F.FRM_DEFECT_oof, 0)]
     let d0 : Desc := desc 0x102 255 0x01000000 8590000443 0
     let s : State := holding (frmQ c) d0 b0
     let e : QEntry := entry (frmQ c) d0
     let u : State := begun (frmQ c) d0 b0
     let d := e.desc
     decide (s.startable (frmQ c) 0x102 = some e ∧ (d.unit = 0xFF) ∧ (bufferOk d.arg0 4096 = true) ∧ (u.flag (R.FRM_DEFECT c) F.FRM_DEFECT_oof =
         false)))] : List Bool).all id = true := by decide +kernel

/-- States and operands that meet the hypotheses of HitlessChangeRows, clause by clause in the order of the statement. -/
theorem witness_HitlessChangeRows : ([
    (let c : Carrier := .A
     let hail : Bool := true
     let s : State := State.reset
     let prop := s.elwTake c hail [0x20] (s.frm c).initMsg
     decide ((prop.1 = none))),
    (let c : Carrier := .A
     let hail : Bool := false
     let s : State := State.reset
     let prop := s.elwTake c hail [0x20] (s.frm c).initMsg
     let m : ElwMsg := ((prop.1).getD (elwIdle, [])).1
     let copy : List Byte := ((prop.1).getD (elwIdle, [])).2
     let held := if copy.length = 400 then prop.2.setFrm c (if m.buf = 1 then { prop.2.frm c with rxMap1 := normMap copy } else
         { prop.2.frm c with rxMap0 := normMap copy }) else prop.2
     decide ((prop.1 = some (m, copy)) ∧ ((m.typ ≠ 1 ∨ held.elwKnown c m.id = true)))),
    (let c : Carrier := .A
     let hail : Bool := false
     let s : State := { State.reset with frmA := { frmReset with initMsg := { proposal with mapCrc := 1 } } }
     let a := R.FRM_ELW_STATUS c
     let prop := s.elwTake c hail [0x20] (s.frm c).initMsg
     let m : ElwMsg := ((prop.1).getD (elwIdle, [])).1
     let copy : List Byte := ((prop.1).getD (elwIdle, [])).2
     let held := if copy.length = 400 then prop.2.setFrm c (if m.buf = 1 then { prop.2.frm c with rxMap1 := normMap copy } else
         { prop.2.frm c with rxMap0 := normMap copy }) else prop.2
     let freed := if held.fld a F.FRM_ELW_STATUS_rx_state = 3 then held else (held.setFld a F.FRM_ELW_STATUS_rx_state 0).setFrm c
         { held.frm c with prop := none, resp := elwIdle }
     decide ((prop.1 = some (m, copy)) ∧ (¬ (m.typ ≠ 1 ∨ held.elwKnown c m.id = true)) ∧ (((crc32 (mapBytes (freed.rxBuf c m.buf))).toNat ≠
         m.mapCrc)))),
    (let c : Carrier := .A
     let hail : Bool := false
     let s : State := { State.reset with frmA := { frmReset with initMsg := proposal } }
     let k : Nat := 2
     let a := R.FRM_ELW_STATUS c
     let prop := s.elwTake c hail [0x20] (s.frm c).initMsg
     let m : ElwMsg := ((prop.1).getD (elwIdle, [])).1
     let copy : List Byte := ((prop.1).getD (elwIdle, [])).2
     let held := if copy.length = 400 then prop.2.setFrm c (if m.buf = 1 then { prop.2.frm c with rxMap1 := normMap copy } else
         { prop.2.frm c with rxMap0 := normMap copy }) else prop.2
     let freed := if held.fld a F.FRM_ELW_STATUS_rx_state = 3 then held else (held.setFld a F.FRM_ELW_STATUS_rx_state 0).setFrm c
         { held.frm c with prop := none, resp := elwIdle }
     decide ((prop.1 = some (m, copy)) ∧ (¬ (m.typ ≠ 1 ∨ held.elwKnown c m.id = true)) ∧ (¬ ((crc32 (mapBytes (freed.rxBuf c m.buf))).toNat ≠
         m.mapCrc)) ∧ (freed.elwCheck c m = some k))),
    (let c : Carrier := .A
     let hail : Bool := false
     let s : State := { having [(R.CRR_SNR_AVG .A, F.CRR_SNR_AVG_snr_avg16, 65535)] with frmA := { frmReset with initMsg := proposal } }
     let a := R.FRM_ELW_STATUS c
     let prop := s.elwTake c hail [0x20] (s.frm c).initMsg
     let m : ElwMsg := ((prop.1).getD (elwIdle, [])).1
     let copy : List Byte := ((prop.1).getD (elwIdle, [])).2
     let held := if copy.length = 400 then prop.2.setFrm c (if m.buf = 1 then { prop.2.frm c with rxMap1 := normMap copy } else
         { prop.2.frm c with rxMap0 := normMap copy }) else prop.2
     let freed := if held.fld a F.FRM_ELW_STATUS_rx_state = 3 then held else (held.setFld a F.FRM_ELW_STATUS_rx_state 0).setFrm c
         { held.frm c with prop := none, resp := elwIdle }
     decide ((prop.1 = some (m, copy)) ∧ (¬ (m.typ ≠ 1 ∨ held.elwKnown c m.id = true)) ∧ (¬ ((crc32 (mapBytes (freed.rxBuf c m.buf))).toNat ≠
         m.mapCrc)) ∧ (freed.elwCheck c m = none) ∧ (freed.flag (R.FRM_ELW_CFG c) F.FRM_ELW_CFG_auto_accept = true))),
    (let c : Carrier := .A
     let hail : Bool := false
     let s : State :=
         { having [(R.FRM_ELW_CFG .A, F.FRM_ELW_CFG_auto_accept, 0), (R.CRR_SNR_AVG .A, F.CRR_SNR_AVG_snr_avg16, 65535)] with frmA := { frmReset with initMsg := proposal } }
     let a := R.FRM_ELW_STATUS c
     let prop := s.elwTake c hail [0x20] (s.frm c).initMsg
     let m : ElwMsg := ((prop.1).getD (elwIdle, [])).1
     let copy : List Byte := ((prop.1).getD (elwIdle, [])).2
     let held := if copy.length = 400 then prop.2.setFrm c (if m.buf = 1 then { prop.2.frm c with rxMap1 := normMap copy } else
         { prop.2.frm c with rxMap0 := normMap copy }) else prop.2
     let freed := if held.fld a F.FRM_ELW_STATUS_rx_state = 3 then held else (held.setFld a F.FRM_ELW_STATUS_rx_state 0).setFrm c
         { held.frm c with prop := none, resp := elwIdle }
     decide ((prop.1 = some (m, copy)) ∧ (¬ (m.typ ≠ 1 ∨ held.elwKnown c m.id = true)) ∧ (¬ ((crc32 (mapBytes (freed.rxBuf c m.buf))).toNat ≠
         m.mapCrc)) ∧ (freed.elwCheck c m = none) ∧ (freed.flag (R.FRM_ELW_CFG c) F.FRM_ELW_CFG_auto_accept = false))),
    (let c : Carrier := .A
     let hail : Bool := true
     let s : State := State.reset
     let ans := s.elwTake c hail [0x21, 0x22] (s.frm c).respMsg
     decide ((ans.1 = none))),
    (let c : Carrier := .A
     let hail : Bool := false
     let s : State := State.reset
     let ans := s.elwTake c hail [0x21, 0x22] (s.frm c).respMsg
     let m : ElwMsg := ((ans.1).getD (elwIdle, [])).1
     let copy : List Byte := ((ans.1).getD (elwIdle, [])).2
     decide ((ans.1 = some (m, copy)) ∧ ((ans.2.frm c).change = none))),
    (let c : Carrier := .A
     let hail : Bool := false
     let s : State :=
         { having [(R.FRM_ELW_STATUS .A, F.FRM_ELW_STATUS_tx_state, 1)] with frmA := { frmReset with change := some changing, respMsg := { elwIdle with typ := 2, id := 1 } } }
     let a := R.FRM_ELW_STATUS c
     let ans := s.elwTake c hail [0x21, 0x22] (s.frm c).respMsg
     let m : ElwMsg := ((ans.1).getD (elwIdle, [])).1
     let copy : List Byte := ((ans.1).getD (elwIdle, [])).2
     let x : ElwChange := ((ans.2.frm c).change).getD changing
     decide ((ans.1 = some (m, copy)) ∧ ((ans.2.frm c).change = some x) ∧ (ans.2.fld a F.FRM_ELW_STATUS_tx_state = 1) ∧ (m.id = x.msg.id) ∧ (m.typ =
         2))),
    (let c : Carrier := .A
     let hail : Bool := false
     let s : State :=
         { having [(R.FRM_ELW_STATUS .A, F.FRM_ELW_STATUS_tx_state, 1)] with frmA := { frmReset with change := some changing, respMsg := { elwIdle with typ := 3, id := 1 } } }
     let a := R.FRM_ELW_STATUS c
     let ans := s.elwTake c hail [0x21, 0x22] (s.frm c).respMsg
     let m : ElwMsg := ((ans.1).getD (elwIdle, [])).1
     let copy : List Byte := ((ans.1).getD (elwIdle, [])).2
     let x : ElwChange := ((ans.2.frm c).change).getD changing
     decide ((ans.1 = some (m, copy)) ∧ ((ans.2.frm c).change = some x) ∧ (ans.2.fld a F.FRM_ELW_STATUS_tx_state = 1) ∧ (m.id = x.msg.id) ∧ (m.typ =
         3))),
    (let c : Carrier := .A
     let hail : Bool := false
     let s : State :=
         { having [(R.FRM_ELW_STATUS .A, F.FRM_ELW_STATUS_tx_state, 1)] with frmA := { frmReset with change := some changing, respMsg := { elwIdle with typ := 0, id := 1 } } }
     let a := R.FRM_ELW_STATUS c
     let ans := s.elwTake c hail [0x21, 0x22] (s.frm c).respMsg
     let m : ElwMsg := ((ans.1).getD (elwIdle, [])).1
     let copy : List Byte := ((ans.1).getD (elwIdle, [])).2
     let x : ElwChange := ((ans.2.frm c).change).getD changing
     decide ((ans.1 = some (m, copy)) ∧ ((ans.2.frm c).change = some x) ∧ (ans.2.fld a F.FRM_ELW_STATUS_tx_state = 1) ∧ (m.id = x.msg.id) ∧ (m.typ ≠
         2) ∧ (m.typ ≠ 3))),
    (let c : Carrier := .A
     let hail : Bool := false
     let s : State :=
         { having [(R.FRM_ELW_STATUS .A, F.FRM_ELW_STATUS_tx_state, 1)] with frmA := { frmReset with change := some changing, respMsg := { elwIdle with typ := 2, id := 2 } } }
     let a := R.FRM_ELW_STATUS c
     let ans := s.elwTake c hail [0x21, 0x22] (s.frm c).respMsg
     let m : ElwMsg := ((ans.1).getD (elwIdle, [])).1
     let copy : List Byte := ((ans.1).getD (elwIdle, [])).2
     let x : ElwChange := ((ans.2.frm c).change).getD changing
     decide ((ans.1 = some (m, copy)) ∧ ((ans.2.frm c).change = some x) ∧ ((ans.2.fld a F.FRM_ELW_STATUS_tx_state ≠ 1 ∨ m.id ≠ x.msg.id)))),
    (let c : Carrier := .A
     let s : State := State.reset
     decide (((s.frm c).change = none))),
    (let c : Carrier := .A
     let s : State := State.reset
     decide (((s.frm c).change = none))),
    (let c : Carrier := .A
     let s : State := State.reset
     decide (((s.frm c).change = none))),
    (let c : Carrier := .A
     let s : State :=
         { having [(R.FRM_ELW_STATUS .A, F.FRM_ELW_STATUS_tx_state, 1)] with frmA := { frmReset with change := some changing, respMsg := { elwIdle with typ := 2, id := 1 } } }
     let a := R.FRM_ELW_STATUS c
     let st := s.fld a F.FRM_ELW_STATUS_tx_state
     let x : ElwChange := ((s.frm c).change).getD changing
     let ahead : Nat := mfAhead x.msg.target (s.fld (R.FRM_MF_COUNT c) F.FRM_MF_COUNT_tx_mf)
     decide (((s.frm c).change = some x) ∧ ((st ≠ 1 ∨ ahead ≠ 1)))),
    (let c : Carrier := .A
     let s : State :=
         { having [(R.FRM_MF_COUNT .A, F.FRM_MF_COUNT_tx_mf, 1), (R.FRM_ELW_STATUS .A, F.FRM_ELW_STATUS_tx_state, 1)] with frmA := { frmReset with change := some { changing with accepted := true } } }
     let a := R.FRM_ELW_STATUS c
     let st := s.fld a F.FRM_ELW_STATUS_tx_state
     let x : ElwChange := ((s.frm c).change).getD changing
     let ahead : Nat := mfAhead x.msg.target (s.fld (R.FRM_MF_COUNT c) F.FRM_MF_COUNT_tx_mf)
     decide (((s.frm c).change = some x) ∧ (st = 1) ∧ (ahead = 1) ∧ (x.accepted = true))),
    (let c : Carrier := .A
     let s : State :=
         { having [(R.FRM_MF_COUNT .A, F.FRM_MF_COUNT_tx_mf, 1), (R.FRM_ELW_STATUS .A, F.FRM_ELW_STATUS_tx_state, 1)] with frmA := { frmReset with change := some changing } }
     let a := R.FRM_ELW_STATUS c
     let st := s.fld a F.FRM_ELW_STATUS_tx_state
     let x : ElwChange := ((s.frm c).change).getD changing
     let ahead : Nat := mfAhead x.msg.target (s.fld (R.FRM_MF_COUNT c) F.FRM_MF_COUNT_tx_mf)
     decide (((s.frm c).change = some x) ∧ (st = 1) ∧ (ahead = 1) ∧ (x.accepted = false))),
    (let c : Carrier := .A
     let s : State :=
         { having [(R.FRM_ELW_STATUS .A, F.FRM_ELW_STATUS_tx_state, 1)] with frmA := { frmReset with change := some changing, respMsg := { elwIdle with typ := 2, id := 1 } } }
     let a := R.FRM_ELW_STATUS c
     let st := s.fld a F.FRM_ELW_STATUS_tx_state
     let frame := s.nextFrame c
     let x : ElwChange := ((s.frm c).change).getD changing
     decide (((s.frm c).change = some x) ∧ (¬ (st = 2 ∧ x.mapDone = false ∧ frame % 256 = 0 ∧ frame / 256 % 65536 = x.msg.target)))),
    (let c : Carrier := .A
     let s : State :=
         { having [(R.FRM_ELW_STATUS .A, F.FRM_ELW_STATUS_tx_state, 2)] with frmA := { frmReset with change := some { changing with mapDone := false }, txStarted := true }, cph := { State.reset.cph with carA := { cphCarReset with ftx := 511 } } }
     let a := R.FRM_ELW_STATUS c
     let st := s.fld a F.FRM_ELW_STATUS_tx_state
     let frame := s.nextFrame c
     let x : ElwChange := ((s.frm c).change).getD changing
     decide (((s.frm c).change = some x) ∧ ((st = 2 ∧ x.mapDone = false ∧ frame % 256 = 0 ∧ frame / 256 % 65536 = x.msg.target)))),
    (let c : Carrier := .A
     let s : State :=
         { having [(R.FRM_ELW_STATUS .A, F.FRM_ELW_STATUS_tx_state, 1)] with frmA := { frmReset with change := some changing, respMsg := { elwIdle with typ := 2, id := 1 } } }
     let line := (s.tx c).line
     let x : ElwChange := ((s.frm c).change).getD changing
     decide (((s.frm c).change = some x) ∧ (¬ (x.mapDone = true ∧ line.entropy.head?.any (fun e => line.frames.length * frameBits ≤ e.1) = false)))),
    (let c : Carrier := .A
     let s : State :=
         { having [(R.FRM_ELW_STATUS .A, F.FRM_ELW_STATUS_tx_state, 2)] with frmA := { frmReset with change := some { changing with mapDone := true } } }
     let line := (s.tx c).line
     let x : ElwChange := ((s.frm c).change).getD changing
     decide (((s.frm c).change = some x) ∧ ((x.mapDone = true ∧ line.entropy.head?.any (fun e => line.frames.length * frameBits ≤ e.1) = false)))),
    (let c : Carrier := .A
     let hail : Bool := true
     let s : State := State.reset
     let commit := s.elwTake c hail [0x23] (s.frm c).initMsg
     decide (((commit.1 = none ∨ (commit.2.frm c).prop = none)))),
    (let c : Carrier := .A
     let hail : Bool := false
     let s : State :=
         { having [(R.FRM_ELW_STATUS .A, F.FRM_ELW_STATUS_rx_state, 2)] with frmA := { frmReset with prop := some proposal, initMsg := { proposal with typ := 4 } } }
     let commit := s.elwTake c hail [0x23] (s.frm c).initMsg
     let m : ElwMsg := ((commit.1).getD (elwIdle, [])).1
     let copy : List Byte := ((commit.1).getD (elwIdle, [])).2
     let p : ElwMsg := ((commit.2.frm c).prop).getD proposal
     decide ((commit.1 = some (m, copy)) ∧ ((commit.2.frm c).prop = some p))),
    (let c : Carrier := .A
     let s : State := State.reset
     let p : ElwMsg := proposal
     let a := R.FRM_ELW_STATUS c
     let rst := s.fld a F.FRM_ELW_STATUS_rx_state
     decide ((((s.frm c).prop = none ∨ (rst ≠ 2 ∧ rst ≠ 3) ∨ ((s.frm c).prop = some p ∧ (s.flag (R.FRM_STATE c) F.FRM_STATE_in_mf = true ∧ s.fld
         (R.FRM_MF_COUNT c) F.FRM_MF_COUNT_rx_mf ≠ p.target)))))),
    (let c : Carrier := .A
     let s : State := { having [(R.FRM_ELW_STATUS .A, F.FRM_ELW_STATUS_rx_state, 3)] with frmA := { frmReset with prop := some proposal } }
     let a := R.FRM_ELW_STATUS c
     let rst := s.fld a F.FRM_ELW_STATUS_rx_state
     let p : ElwMsg := ((s.frm c).prop).getD proposal
     decide (((s.frm c).prop = some p) ∧ (¬ (s.flag (R.FRM_STATE c) F.FRM_STATE_in_mf = true ∧ s.fld (R.FRM_MF_COUNT c) F.FRM_MF_COUNT_rx_mf ≠
         p.target)) ∧ (rst = 3))),
    (let c : Carrier := .A
     let s : State :=
         { having [(R.FRM_ELW_STATUS .A, F.FRM_ELW_STATUS_rx_state, 2)] with frmA := { frmReset with prop := some proposal, initMsg := { proposal with typ := 4 } } }
     let a := R.FRM_ELW_STATUS c
     let rst := s.fld a F.FRM_ELW_STATUS_rx_state
     let p : ElwMsg := ((s.frm c).prop).getD proposal
     decide (((s.frm c).prop = some p) ∧ (¬ (s.flag (R.FRM_STATE c) F.FRM_STATE_in_mf = true ∧ s.fld (R.FRM_MF_COUNT c) F.FRM_MF_COUNT_rx_mf ≠
         p.target)) ∧ (rst = 2)))] : List Bool).all id = true := by decide +kernel

/-- States and operands that meet the hypotheses of FramingRows, clause by clause in the order of the statement. -/
theorem witness_FramingRows : ([
    (let c : Carrier := .A
     let s : State := State.reset
     decide ((¬ (s.txState c = 3)))),
    (let c : Carrier := .A
     let s : State := having [(R.TXP_STATE .A, F.TXP_STATE_state, 3), (R.CAR_MODE .A, F.CAR_MODE_family, 1)]
     decide (((s.txState c = 3)) ∧ (s.carFamily c ≠ 0))),
    (let c : Carrier := .A
     let s : State := having [(R.TXP_STATE .A, F.TXP_STATE_state, 3)]
     decide (((s.txState c = 3)) ∧ (s.carFamily c = 0))),
    (let c : Carrier := .A
     let s : State := State.reset
     decide ((¬ (s.frmLive c = true ∧ s.carFamily c = 0 ∧ s.flag (R.FRM_STATE c) F.FRM_STATE_in_frame = false)))),
    (let c : Carrier := .A
     let s : State := { having [(R.RXF_STATE .A, F.RXF_STATE_state, 3)] with frmA := { frmReset with cands := [(7, 1)] } }
     let pos : Nat := 7
     let hit : Bool := false
     let cands := (s.frm c).cands
     let n : Nat := (cands.lookup pos).getD 0
     decide (((s.frmLive c = true ∧ s.carFamily c = 0 ∧ s.flag (R.FRM_STATE c) F.FRM_STATE_in_frame = false)) ∧ (cands.lookup pos = some n) ∧ (hit =
         false))),
    (let c : Carrier := .A
     let s : State := { having [(R.RXF_STATE .A, F.RXF_STATE_state, 3)] with frmA := { frmReset with cands := [(7, 2)] } }
     let pos : Nat := 7
     let hit : Bool := true
     let cands := (s.frm c).cands
     let n : Nat := (cands.lookup pos).getD 0
     decide (((s.frmLive c = true ∧ s.carFamily c = 0 ∧ s.flag (R.FRM_STATE c) F.FRM_STATE_in_frame = false)) ∧ (cands.lookup pos = some n) ∧ (hit =
         true) ∧ (2 ≤ n))),
    (let c : Carrier := .A
     let s : State := { having [(R.RXF_STATE .A, F.RXF_STATE_state, 3)] with frmA := { frmReset with cands := [(7, 1)] } }
     let pos : Nat := 7
     let hit : Bool := true
     let cands := (s.frm c).cands
     let n : Nat := (cands.lookup pos).getD 0
     decide (((s.frmLive c = true ∧ s.carFamily c = 0 ∧ s.flag (R.FRM_STATE c) F.FRM_STATE_in_frame = false)) ∧ (cands.lookup pos = some n) ∧ (hit =
         true) ∧ (n < 2))),
    (let c : Carrier := .A
     let s : State := having [(R.RXF_STATE .A, F.RXF_STATE_state, 3)]
     let pos : Nat := 7
     let hit : Bool := false
     let cands := (s.frm c).cands
     decide (((s.frmLive c = true ∧ s.carFamily c = 0 ∧ s.flag (R.FRM_STATE c) F.FRM_STATE_in_frame = false)) ∧ (cands.lookup pos = none) ∧ (hit =
         false))),
    (let c : Carrier := .A
     let s : State := having [(R.RXF_STATE .A, F.RXF_STATE_state, 3)]
     let pos : Nat := 7
     let hit : Bool := true
     let cands := (s.frm c).cands
     decide (((s.frmLive c = true ∧ s.carFamily c = 0 ∧ s.flag (R.FRM_STATE c) F.FRM_STATE_in_frame = false)) ∧ (cands.lookup pos = none) ∧ (hit =
         true) ∧ (cands.length < 4))),
    (let c : Carrier := .A
     let s : State := { having [(R.RXF_STATE .A, F.RXF_STATE_state, 3)] with frmA := { frmReset with cands := [(1, 1), (2, 1), (3, 1), (4, 1)] } }
     let pos : Nat := 7
     let hit : Bool := true
     let cands := (s.frm c).cands
     decide (((s.frmLive c = true ∧ s.carFamily c = 0 ∧ s.flag (R.FRM_STATE c) F.FRM_STATE_in_frame = false)) ∧ (cands.lookup pos = none) ∧ (hit =
         true) ∧ (4 ≤ cands.length))),
    (let c : Carrier := .A
     let s : State := State.reset
     decide ((s.frmLive c = false))),
    (let c : Carrier := .A
     let s : State := having [(R.RXF_STATE .A, F.RXF_STATE_state, 3), (R.CAR_MODE .A, F.CAR_MODE_family, 1)]
     let base := s.setFec c { s.fec c with flagged := 0 }
     let repl := if base.flag (R.FRM_DEFECT c) F.FRM_DEFECT_repl then base.addCnt (R.FRM_REPL_FRAME_CNT c) 1 else base
     decide ((s.frmLive c = true) ∧ (repl.carFamily c ≠ 0))),
    (let c : Carrier := .A
     let s : State := having [(R.RXF_STATE .A, F.RXF_STATE_state, 3)]
     let base := s.setFec c { s.fec c with flagged := 0 }
     let repl := if base.flag (R.FRM_DEFECT c) F.FRM_DEFECT_repl then base.addCnt (R.FRM_REPL_FRAME_CNT c) 1 else base
     let inFrame := repl.flag (R.FRM_STATE c) F.FRM_STATE_in_frame
     decide ((s.frmLive c = true) ∧ (repl.carFamily c = 0) ∧ (inFrame = false))),
    (let c : Carrier := .A
     let s : State :=
         { having [(R.RXF_STATE .A, F.RXF_STATE_state, 3), (R.FRM_STATE .A, F.FRM_STATE_in_frame, 1)] with frmA := { frmReset with badFas := 4 } }
     let oh : List Byte := []
     let base := s.setFec c { s.fec c with flagged := 0 }
     let repl := if base.flag (R.FRM_DEFECT c) F.FRM_DEFECT_repl then base.addCnt (R.FRM_REPL_FRAME_CNT c) 1 else base
     let inFrame := repl.flag (R.FRM_STATE c) F.FRM_STATE_in_frame
     decide ((s.frmLive c = true) ∧ (repl.carFamily c = 0) ∧ (inFrame = true) ∧ (oh.take 6 ≠ fasBytes) ∧ (4 ≤ (repl.frm c).badFas))),
    (let c : Carrier := .A
     let s : State := having [(R.RXF_STATE .A, F.RXF_STATE_state, 3), (R.FRM_STATE .A, F.FRM_STATE_in_frame, 1)]
     let oh : List Byte := []
     let base := s.setFec c { s.fec c with flagged := 0 }
     let repl := if base.flag (R.FRM_DEFECT c) F.FRM_DEFECT_repl then base.addCnt (R.FRM_REPL_FRAME_CNT c) 1 else base
     let inFrame := repl.flag (R.FRM_STATE c) F.FRM_STATE_in_frame
     decide ((s.frmLive c = true) ∧ (repl.carFamily c = 0) ∧ (inFrame = true) ∧ ((oh.take 6 = fasBytes ∨ (repl.frm c).badFas < 4)))),
    (let c : Carrier := .A
     let s : State := State.reset
     decide ((s.frmLive c = false))),
    (let c : Carrier := .A
     let s : State := having [(R.RXF_STATE .A, F.RXF_STATE_state, 3), (R.FRM_DEFECT .A, F.FRM_DEFECT_oof, 0), (R.FRM_DEFECT .A, F.FRM_DEFECT_lof, 0),
         (R.FRM_DEFECT .A, F.FRM_DEFECT_oom, 0)]
     let a := R.FRM_DEFECT c
     let lomNow := s.flag a F.FRM_DEFECT_lom
     decide ((s.frmLive c = true) ∧ (s.flag a F.FRM_DEFECT_oom = lomNow))),
    (let c : Carrier := .A
     let s : State := having [(R.RXF_STATE .A, F.RXF_STATE_state, 3), (R.CAR_MODE .A, F.CAR_MODE_family, 1)]
     let a := R.FRM_DEFECT c
     let lomNow := s.flag a F.FRM_DEFECT_lom
     decide ((s.frmLive c = true) ∧ (s.flag a F.FRM_DEFECT_oom = true) ∧ (lomNow = false))),
    (let c : Carrier := .A
     let s : State := having [(R.RXF_STATE .A, F.RXF_STATE_state, 3), (R.FRM_DEFECT .A, F.FRM_DEFECT_oom, 0), (R.FRM_DEFECT .A, F.FRM_DEFECT_lom, 1)]
     let a := R.FRM_DEFECT c
     let lomNow := s.flag a F.FRM_DEFECT_lom
     decide ((s.frmLive c = true) ∧ (s.flag a F.FRM_DEFECT_oom = false) ∧ (lomNow = true))),
    (let c : Carrier := .A
     let s : State := having [(R.RXF_STATE .A, F.RXF_STATE_state, 3), (R.FRM_DEFECT .A, F.FRM_DEFECT_oof, 0), (R.FRM_DEFECT .A, F.FRM_DEFECT_lof, 0),
         (R.FRM_DEFECT .A, F.FRM_DEFECT_oom, 0)]
     let a := R.FRM_DEFECT c
     let lofNow := s.flag a F.FRM_DEFECT_lof
     decide ((s.frmLive c = true) ∧ (s.flag a F.FRM_DEFECT_oof = lofNow))),
    (let c : Carrier := .A
     let s : State := having [(R.RXF_STATE .A, F.RXF_STATE_state, 3), (R.CAR_MODE .A, F.CAR_MODE_family, 1)]
     let a := R.FRM_DEFECT c
     let lofNow := s.flag a F.FRM_DEFECT_lof
     decide ((s.frmLive c = true) ∧ (s.flag a F.FRM_DEFECT_oof = true) ∧ (lofNow = false))),
    (let c : Carrier := .A
     let s : State := having [(R.RXF_STATE .A, F.RXF_STATE_state, 3), (R.FRM_DEFECT .A, F.FRM_DEFECT_oof, 0), (R.FRM_DEFECT .A, F.FRM_DEFECT_lof, 1)]
     let a := R.FRM_DEFECT c
     let lofNow := s.flag a F.FRM_DEFECT_lof
     decide ((s.frmLive c = true) ∧ (s.flag a F.FRM_DEFECT_oof = false) ∧ (lofNow = true))),
    (let s : State := State.reset
     let port : Fin 8 := 7
     decide ((s.ospChan port.val = none))),
    (let s : State := { State.reset with claims := [(0x1F, { holder := .harbour, func := 0 })] }
     let port : Fin 8 := 7
     let ch : Nat := (s.ospChan port.val).getD 0
     decide ((s.ospChan port.val = some ch) ∧ (s.flag (R.OSP_CFG port.val) F.OSP_CFG_enable = false))),
    (let s : State :=
         { having [(R.OSP_CFG 7, F.OSP_CFG_enable, 1), (R.CAR_MODE .A, F.CAR_MODE_family, 1)] with claims := [(0x1F, { holder := .harbour, func := 0 })] }
     let port : Fin 8 := 7
     let ch : Nat := (s.ospChan port.val).getD 0
     decide ((s.ospChan port.val = some ch) ∧ (s.flag (R.OSP_CFG port.val) F.OSP_CFG_enable = true) ∧ (s.carFamily (chanCar ch) ≠ 0))),
    (let s : State := { having [(R.OSP_CFG 7, F.OSP_CFG_enable, 1)] with claims := [(0x1F, { holder := .harbour, func := 0 })] }
     let port : Fin 8 := 7
     let y := s.ospPort port.val
     let ch : Nat := (s.ospChan port.val).getD 0
     decide ((s.ospChan port.val = some ch) ∧ (s.flag (R.OSP_CFG port.val) F.OSP_CFG_enable = true) ∧ (s.carFamily (chanCar ch) = 0) ∧ (y.rxq = []))),
    (let s : State :=
         { having [(R.OSP_CFG 7, F.OSP_CFG_enable, 1)] with claims := [(0x1F, { holder := .harbour, func := 0 })], osp := State.reset.osp.set 7 { rxq := [[1]], insq := [], txd := none } }
     let port : Fin 8 := 7
     let y := s.ospPort port.val
     let ch : Nat := (s.ospChan port.val).getD 0
     let b : List Byte := (y.rxq).headD []
     let l : List (List Byte) := (y.rxq).tail
     decide ((s.ospChan port.val = some ch) ∧ (s.flag (R.OSP_CFG port.val) F.OSP_CFG_enable = true) ∧ (s.carFamily (chanCar ch) = 0) ∧ (y.rxq = b ::
         l)))] : List Bool).all id = true := by decide +kernel

/-- States and operands that meet the hypotheses of ClientMapperRows, clause by clause in the order of the statement. -/
theorem witness_ClientMapperRows : ([
    (let b0 : State := State.reset
     let d0 : Desc := desc 0x100 0 0 0 0
     let s : State := holding 16 d0 b0
     let e : QEntry := entry 16 d0
     let d := e.desc
     decide (s.startable 16 0x100 = some e ∧ ((d.unit ≠ 0xFF ∨ bufferOk d.arg0 400 = false)))),
    (let b0 : State := { State.reset with part := .ctp2s }
     let d0 : Desc := desc 0x100 255 0x01000000 1 0
     let s : State := holding 16 d0 b0
     let e : QEntry := entry 16 d0
     let u : State := begun 16 d0 b0
     let d := e.desc
     let c := carOf (d.arg1 % 2)
     decide (s.startable 16 0x100 = some e ∧ (¬ (d.unit ≠ 0xFF ∨ bufferOk d.arg0 400 = false)) ∧ (u.hasCarrier c = false))),
    (let b0 : State := State.reset.setBytes 0x01000000 [128]
     let d0 : Desc := desc 0x100 255 0x01000000 0 0
     let s : State := holding 16 d0 b0
     let e : QEntry := entry 16 d0
     let u : State := begun 16 d0 b0
     let d := e.desc
     let c := carOf (d.arg1 % 2)
     let map := normMap (u.bytes d.arg0 400)
     decide (s.startable 16 0x100 = some e ∧ (¬ (d.unit ≠ 0xFF ∨ bufferOk d.arg0 400 = false)) ∧ (u.hasCarrier c = true) ∧ (u.mapOk c map = false))),
    (let b0 : State := having [(R.TXP_STATE .A, F.TXP_STATE_state, 3)]
     let d0 : Desc := desc 0x100 255 0x01000000 0 0
     let s : State := holding 16 d0 b0
     let e : QEntry := entry 16 d0
     let u : State := begun 16 d0 b0
     let d := e.desc
     let c := carOf (d.arg1 % 2)
     let map := normMap (u.bytes d.arg0 400)
     decide (s.startable 16 0x100 = some e ∧ (¬ (d.unit ≠ 0xFF ∨ bufferOk d.arg0 400 = false)) ∧ (u.hasCarrier c = true) ∧ (u.mapOk c map = true) ∧
         (u.txState c = 3))),
    (let b0 : State := State.reset
     let d0 : Desc := desc 0x100 255 0x01000000 0 0
     let s : State := holding 16 d0 b0
     let e : QEntry := entry 16 d0
     let u : State := begun 16 d0 b0
     let d := e.desc
     let c := carOf (d.arg1 % 2)
     let map := normMap (u.bytes d.arg0 400)
     decide (s.startable 16 0x100 = some e ∧ (¬ (d.unit ≠ 0xFF ∨ bufferOk d.arg0 400 = false)) ∧ (u.hasCarrier c = true) ∧ (u.txState c ≠ 3) ∧
         (u.mapOk c map = true))),
    (let b0 : State := State.reset
     let d0 : Desc := desc 0x101 0 0 0 0
     let s : State := holding 16 d0 b0
     let e : QEntry := entry 16 d0
     let d := e.desc
     let which := d.arg1 / 256 % 4
     decide (s.startable 16 0x101 = some e ∧ (((d.unit ≠ 0xFF ∨ bufferOk d.arg0 400 = false) ∨ which = 3)))),
    (let b0 : State := { State.reset with part := .ctp2s }
     let d0 : Desc := desc 0x101 255 0x01000000 1 0
     let s : State := holding 16 d0 b0
     let e : QEntry := entry 16 d0
     let u : State := begun 16 d0 b0
     let d := e.desc
     let c := carOf (d.arg1 % 2)
     let which := d.arg1 / 256 % 4
     decide (s.startable 16 0x101 = some e ∧ (¬ (d.unit ≠ 0xFF ∨ bufferOk d.arg0 400 = false)) ∧ (which ≠ 3) ∧ (u.hasCarrier c = false))),
    (let b0 : State := State.reset
     let d0 : Desc := desc 0x101 255 0x01000000 0 0
     let s : State := holding 16 d0 b0
     let e : QEntry := entry 16 d0
     let u : State := begun 16 d0 b0
     let d := e.desc
     let c := carOf (d.arg1 % 2)
     let which := d.arg1 / 256 % 4
     decide (s.startable 16 0x101 = some e ∧ (¬ (d.unit ≠ 0xFF ∨ bufferOk d.arg0 400 = false)) ∧ (which ≠ 3) ∧ (u.hasCarrier c = true))),
    (let b0 : State := State.reset
     let d0 : Desc := desc 0x102 0 0 0 0
     let s : State := holding 16 d0 b0
     let e : QEntry := entry 16 d0
     let d := e.desc
     let n := d.arg1 % 1024
     decide (s.startable 16 0x102 = some e ∧ ((7 < d.unit ∨ n = 0 ∨ 640 < n ∨ bufferOk d.arg0 n = false)))),
    (let b0 : State := State.reset
     let d0 : Desc := desc 0x102 7 0x01000000 640 0
     let s : State := holding 16 d0 b0
     let e : QEntry := entry 16 d0
     let u : State := begun 16 d0 b0
     let d := e.desc
     let n := d.arg1 % 1024
     decide (s.startable 16 0x102 = some e ∧ (¬ (7 < d.unit ∨ n = 0 ∨ 640 < n ∨ bufferOk d.arg0 n = false)) ∧ (n ≠ (u.grpCfg d.unit).calLen))),
    (let b0 : State := State.reset
     let d0 : Desc := desc 0x102 7 0x01000000 20 0
     let s : State := holding 16 d0 b0
     let e : QEntry := entry 16 d0
     let u : State := begun 16 d0 b0
     let d := e.desc
     let n := d.arg1 % 1024
     decide (s.startable 16 0x102 = some e ∧ (¬ (7 < d.unit ∨ n = 0 ∨ 640 < n ∨ bufferOk d.arg0 n = false)) ∧ (n = (u.grpCfg d.unit).calLen) ∧
         ((u.grpCfg d.unit).on = false))),
    (let b0 : State := having [(R.CLM_FLEXE_GRP 7, F.CLM_FLEXE_GRP_enable, 1)]
     let d0 : Desc := desc 0x102 7 0x01000000 20 0
     let s : State := holding 16 d0 b0
     let e : QEntry := entry 16 d0
     let u : State := begun 16 d0 b0
     let d := e.desc
     let n := d.arg1 % 1024
     decide (s.startable 16 0x102 = some e ∧ (¬ (7 < d.unit ∨ n = 0 ∨ 640 < n ∨ bufferOk d.arg0 n = false)) ∧ ((u.grpCfg d.unit).on = true) ∧ (n =
         (u.grpCfg d.unit).calLen))),
    (let s : State := State.reset
     let client : Fin 128 := 0
     let k := client.val
     decide ((((s.cliCfg k).typ = 3 ∨ s.cliOn k = false ∨ s.cliPacket k = true ∨ s.txSlots k = 0 ∨ s.clm.fault = true ∨ s.flag (R.CLM_CLIENT_STATUS k)
         F.CLM_CLIENT_STATUS_host_fail = true)))),
    (let s : State :=
         { having [(R.CLM_CLIENT_CFG 0, F.CLM_CLIENT_CFG_enable, 1), (R.CLM_CLIENT_CFG 0, F.CLM_CLIENT_CFG_src_type, 1)] with frmA := { frmReset with txMap0 := [128] }, clm := { State.reset.clm with clients := State.reset.clm.clients.set 0 { clientReset with cut := true } } }
     let client : Fin 128 := 0
     let k := client.val
     let y := s.client k
     decide ((¬ ((s.cliCfg k).typ = 3 ∨ s.cliOn k = false ∨ s.cliPacket k = true ∨ s.txSlots k = 0 ∨ s.clm.fault = true ∨ s.flag (R.CLM_CLIENT_STATUS
         k) F.CLM_CLIENT_STATUS_host_fail = true)) ∧ (y.cut = true))),
    (let s : State :=
         { having [(R.CLM_CLIENT_CFG 0, F.CLM_CLIENT_CFG_enable, 1), (R.CLM_CLIENT_CFG 0, F.CLM_CLIENT_CFG_src_type, 1)] with frmA := { frmReset with txMap0 := [128] } }
     let client : Fin 128 := 0
     let ctl : Bool := true
     let body : W64 := 0x1E
     let k := client.val
     let y := s.client k
     let unit : Unit66 := { ctl, body }
     decide ((¬ ((s.cliCfg k).typ = 3 ∨ s.cliOn k = false ∨ s.cliPacket k = true ∨ s.txSlots k = 0 ∨ s.clm.fault = true ∨ s.flag (R.CLM_CLIENT_STATUS
         k) F.CLM_CLIENT_STATUS_host_fail = true)) ∧ (y.cut = false) ∧ (unit.dropped = true))),
    (let s : State :=
         { having [(R.CLM_CLIENT_CFG 0, F.CLM_CLIENT_CFG_enable, 1), (R.CLM_CLIENT_CFG 0, F.CLM_CLIENT_CFG_src_type, 1)] with frmA := { frmReset with txMap0 := [128] } }
     let client : Fin 128 := 0
     let ctl : Bool := true
     let body : W64 := 0x87
     let k := client.val
     let y := s.client k
     let unit : Unit66 := { ctl, body }
     decide ((¬ ((s.cliCfg k).typ = 3 ∨ s.cliOn k = false ∨ s.cliPacket k = true ∨ s.txSlots k = 0 ∨ s.clm.fault = true ∨ s.flag (R.CLM_CLIENT_STATUS
         k) F.CLM_CLIENT_STATUS_host_fail = true)) ∧ (y.cut = false) ∧ (unit.dropped = false) ∧ (y.ing.length < s.ingRoom k))),
    (let s : State :=
         { having [(R.CLM_CLIENT_CFG 0, F.CLM_CLIENT_CFG_enable, 1)] with frmA := { frmReset with txMap0 := [128] }, clm := { State.reset.clm with clients := State.reset.clm.clients.set 0 { clientReset with overSec := some 0 } } }
     let client : Fin 128 := 0
     let ctl : Bool := true
     let body : W64 := 0x87
     let k := client.val
     let y := s.client k
     let unit : Unit66 := { ctl, body }
     let sec := s.time.devtime.toNat / 10000000000
     decide ((¬ ((s.cliCfg k).typ = 3 ∨ s.cliOn k = false ∨ s.cliPacket k = true ∨ s.txSlots k = 0 ∨ s.clm.fault = true ∨ s.flag (R.CLM_CLIENT_STATUS
         k) F.CLM_CLIENT_STATUS_host_fail = true)) ∧ (y.cut = false) ∧ (unit.dropped = false) ∧ (s.ingRoom k ≤ y.ing.length) ∧ (y.overSec = some
         sec))),
    (let s : State := { having [(R.CLM_CLIENT_CFG 0, F.CLM_CLIENT_CFG_enable, 1)] with frmA := { frmReset with txMap0 := [128] } }
     let client : Fin 128 := 0
     let ctl : Bool := true
     let body : W64 := 0x87
     let k := client.val
     let y := s.client k
     let unit : Unit66 := { ctl, body }
     let sec := s.time.devtime.toNat / 10000000000
     decide ((¬ ((s.cliCfg k).typ = 3 ∨ s.cliOn k = false ∨ s.cliPacket k = true ∨ s.txSlots k = 0 ∨ s.clm.fault = true ∨ s.flag (R.CLM_CLIENT_STATUS
         k) F.CLM_CLIENT_STATUS_host_fail = true)) ∧ (y.cut = false) ∧ (unit.dropped = false) ∧ (s.ingRoom k ≤ y.ing.length) ∧ (y.overSec ≠ some
         sec))),
    (let s : State := State.reset
     let client : Fin 128 := 0
     let k := client.val
     decide (((s.cliOn k = false ∨ s.cliPacket k = true)))),
    (let s : State := having [(R.CLM_CLIENT_CFG 0, F.CLM_CLIENT_CFG_enable, 1), (R.CLM_CLIENT_STATUS 0, F.CLM_CLIENT_STATUS_repl, 1)]
     let client : Fin 128 := 0
     let k := client.val
     decide ((s.cliOn k = true) ∧ (s.cliPacket k = false) ∧ (s.flag (R.CLM_CLIENT_STATUS k) F.CLM_CLIENT_STATUS_repl = true))),
    (let s : State :=
         { having [(R.CLM_CLIENT_CFG 0, F.CLM_CLIENT_CFG_enable, 1)] with clm := { State.reset.clm with clients := State.reset.clm.clients.set 0 { clientReset with rxPos := some 0, rx := [{ someWord with absent := true }, { someWord with absent := true }] } } }
     let client : Fin 128 := 0
     let k := client.val
     let y := s.client k
     let words := berthAlign y.rxPos y.rx
     let found := words.1.bind (fun p => berthNext p words.2)
     let b : BerthBlock := ((found).getD ({ bits := [], bad := false, absent := false }, 0, [])).1
     let pos : Nat := ((found).getD ({ bits := [], bad := false, absent := false }, 0, [])).2.1
     let rest : List RxWord := ((found).getD ({ bits := [], bad := false, absent := false }, 0, [])).2.2
     decide (((s.cliOn k = true ∧ s.cliPacket k = false ∧ s.flag (R.CLM_CLIENT_STATUS k) F.CLM_CLIENT_STATUS_repl = false)) ∧ (found = some (b, pos,
         rest)) ∧ (b.absent = true))),
    (let s : State :=
         { having [(R.CLM_CLIENT_CFG 0, F.CLM_CLIENT_CFG_enable, 1)] with clm := { State.reset.clm with clients := State.reset.clm.clients.set 0 { clientReset with rxPos := some 0, rx := [someWord, someWord] } } }
     let client : Fin 128 := 0
     let k := client.val
     let y := s.client k
     let words := berthAlign y.rxPos y.rx
     let found := words.1.bind (fun p => berthNext p words.2)
     let b : BerthBlock := ((found).getD ({ bits := [], bad := false, absent := false }, 0, [])).1
     let pos : Nat := ((found).getD ({ bits := [], bad := false, absent := false }, 0, [])).2.1
     let rest : List RxWord := ((found).getD ({ bits := [], bad := false, absent := false }, 0, [])).2.2
     decide (((s.cliOn k = true ∧ s.cliPacket k = false ∧ s.flag (R.CLM_CLIENT_STATUS k) F.CLM_CLIENT_STATUS_repl = false)) ∧ (found = some (b, pos,
         rest)) ∧ (b.absent = false) ∧ ((b.bad = true ∨ xdecode b.bits = none)))),
    (let s : State :=
         { having [(R.CLM_CLIENT_CFG 0, F.CLM_CLIENT_CFG_enable, 1)] with clm := { State.reset.clm with clients := State.reset.clm.clients.set 0 { clientReset with rxPos := some 0, rx := [{ someWord with bytes := List.replicate 32 255 }, { someWord with bytes := List.replicate 32 255 }] } } }
     let client : Fin 128 := 0
     let k := client.val
     let y := s.client k
     let words := berthAlign y.rxPos y.rx
     let found := words.1.bind (fun p => berthNext p words.2)
     let b : BerthBlock := ((found).getD ({ bits := [], bad := false, absent := false }, 0, [])).1
     let pos : Nat := ((found).getD ({ bits := [], bad := false, absent := false }, 0, [])).2.1
     let rest : List RxWord := ((found).getD ({ bits := [], bad := false, absent := false }, 0, [])).2.2
     let us : List Unit66 := (xdecode b.bits).getD []
     decide (((s.cliOn k = true ∧ s.cliPacket k = false ∧ s.flag (R.CLM_CLIENT_STATUS k) F.CLM_CLIENT_STATUS_repl = false)) ∧ (found = some (b, pos,
         rest)) ∧ (b.absent = false) ∧ (b.bad = false) ∧ (xdecode b.bits = some us))),
    (let s : State :=
         { having [(R.CLM_CLIENT_CFG 0, F.CLM_CLIENT_CFG_enable, 1)] with clm := { State.reset.clm with clients := State.reset.clm.clients.set 0 { clientReset with egSend := true } } }
     let client : Fin 128 := 0
     let k := client.val
     let y := s.client k
     let words := berthAlign y.rxPos y.rx
     let found := words.1.bind (fun p => berthNext p words.2)
     decide (((s.cliOn k = true ∧ s.cliPacket k = false ∧ s.flag (R.CLM_CLIENT_STATUS k) F.CLM_CLIENT_STATUS_repl = false)) ∧ (found = none) ∧
         (y.egSend = true))),
    (let s : State :=
         { having [(R.CLM_CLIENT_CFG 0, F.CLM_CLIENT_CFG_enable, 1), (R.CLM_CLIENT_CFG 0, F.CLM_CLIENT_CFG_src_type, 1)] with frmA := { frmReset with txMap0 := [128] } }
     let client : Fin 128 := 0
     let k := client.val
     let y := s.client k
     let regen := decide ((s.cliCfg k).typ ≠ 4)
     let words := berthAlign y.rxPos y.rx
     let found := words.1.bind (fun p => berthNext p words.2)
     decide (((s.cliOn k = true ∧ s.cliPacket k = false ∧ s.flag (R.CLM_CLIENT_STATUS k) F.CLM_CLIENT_STATUS_repl = false)) ∧ (found = none) ∧
         (y.egSend = false) ∧ (regen = true) ∧ (y.egBuf = []))),
    (let s : State :=
         { having [(R.CLM_CLIENT_CFG 0, F.CLM_CLIENT_CFG_enable, 1)] with clm := { State.reset.clm with clients := State.reset.clm.clients.set 0 { clientReset with egBuf := [startBlock] } } }
     let client : Fin 128 := 0
     let k := client.val
     let y := s.client k
     let regen := decide ((s.cliCfg k).typ ≠ 4)
     let words := berthAlign y.rxPos y.rx
     let found := words.1.bind (fun p => berthNext p words.2)
     decide (((s.cliOn k = true ∧ s.cliPacket k = false ∧ s.flag (R.CLM_CLIENT_STATUS k) F.CLM_CLIENT_STATUS_repl = false)) ∧ (found = none) ∧
         (y.egSend = false) ∧ ((regen = false ∨ y.egBuf ≠ []))))] : List Bool).all id = true := by decide +kernel

/-- States and operands that meet the hypotheses of PacketBerthRows, clause by clause in the order of the statement. -/
theorem witness_PacketBerthRows : ([
    (let s : State := State.reset
     let client : Fin 128 := 0
     let k := client.val
     decide (((s.cliOn k = false ∨ s.cliPacket k = false ∨ s.txSlots k = 0 ∨ s.brt.fault = true)))),
    (let s : State :=
         { having [(R.CLM_CLIENT_CFG 0, F.CLM_CLIENT_CFG_enable, 1), (R.CLM_CLIENT_CFG 0, F.CLM_CLIENT_CFG_kind, 1)] with frmA := { frmReset with txMap0 := [128] } }
     let client : Fin 128 := 0
     let frame : List Byte := List.replicate 63 0
     let k := client.val
     let q := s.cliPb k
     let len := frame.length
     decide ((¬ (s.cliOn k = false ∨ s.cliPacket k = false ∨ s.txSlots k = 0 ∨ s.brt.fault = true)) ∧ (¬ (64 ≤ len ∧ len ≤ s.brtMaxFrame q)))),
    (let s : State :=
         { having [(R.CLM_CLIENT_CFG 0, F.CLM_CLIENT_CFG_enable, 1), (R.CLM_CLIENT_CFG 0, F.CLM_CLIENT_CFG_kind, 1), (R.BRT_PB_00 0, F.BRT_PB_00_pol_en, 1), (R.BRT_PB_0C 0, F.BRT_PB_0C_cbs, 0), (R.BRT_PB_10 0, F.BRT_PB_10_pbs, 0)] with frmA := { frmReset with txMap0 := [128] } }
     let client : Fin 128 := 0
     let frame : List Byte := List.replicate 64 0
     let k := client.val
     let q := s.cliPb k
     let len := frame.length
     let mt := s.brtMeter q len
     let met := mt.2
     let occ := met.fld (R.BRT_PB_STATUS q) F.BRT_PB_STATUS_occupancy
     let bufMax := met.fld (R.BRT_PB_1C q) F.BRT_PB_1C_buf_max
     let yel := min bufMax (met.fld (R.BRT_PB_1C q) F.BRT_PB_1C_yel_thr)
     decide ((¬ (s.cliOn k = false ∨ s.cliPacket k = false ∨ s.txSlots k = 0 ∨ s.brt.fault = true)) ∧ ((64 ≤ len ∧ len ≤ s.brtMaxFrame q)) ∧ ((mt.1 =
         2 ∨ (mt.1 = 1 ∧ yel ≤ occ))))),
    (let s : State :=
         { having [(R.CLM_CLIENT_CFG 0, F.CLM_CLIENT_CFG_enable, 1), (R.CLM_CLIENT_CFG 0, F.CLM_CLIENT_CFG_kind, 1), (R.BRT_PB_1C 0, F.BRT_PB_1C_buf_max, 0)] with frmA := { frmReset with txMap0 := [128] } }
     let client : Fin 128 := 0
     let frame : List Byte := List.replicate 64 0
     let k := client.val
     let q := s.cliPb k
     let len := frame.length
     let mt := s.brtMeter q len
     let met := mt.2
     let occ := met.fld (R.BRT_PB_STATUS q) F.BRT_PB_STATUS_occupancy
     let bufMax := met.fld (R.BRT_PB_1C q) F.BRT_PB_1C_buf_max
     let yel := min bufMax (met.fld (R.BRT_PB_1C q) F.BRT_PB_1C_yel_thr)
     decide ((¬ (s.cliOn k = false ∨ s.cliPacket k = false ∨ s.txSlots k = 0 ∨ s.brt.fault = true)) ∧ ((64 ≤ len ∧ len ≤ s.brtMaxFrame q)) ∧ (¬ (mt.1
         = 2 ∨ (mt.1 = 1 ∧ yel ≤ occ))) ∧ (bufMax < occ + cellsOf len))),
    (let s : State :=
         { having [(R.CLM_CLIENT_CFG 0, F.CLM_CLIENT_CFG_enable, 1), (R.CLM_CLIENT_CFG 0, F.CLM_CLIENT_CFG_kind, 1), (R.BRT_STATUS, F.BRT_STATUS_free_cells, 0)] with frmA := { frmReset with txMap0 := [128] } }
     let client : Fin 128 := 0
     let frame : List Byte := List.replicate 64 0
     let k := client.val
     let q := s.cliPb k
     let len := frame.length
     let mt := s.brtMeter q len
     let met := mt.2
     let occ := met.fld (R.BRT_PB_STATUS q) F.BRT_PB_STATUS_occupancy
     let bufMax := met.fld (R.BRT_PB_1C q) F.BRT_PB_1C_buf_max
     let yel := min bufMax (met.fld (R.BRT_PB_1C q) F.BRT_PB_1C_yel_thr)
     let free := met.fld R.BRT_STATUS F.BRT_STATUS_free_cells
     decide ((¬ (s.cliOn k = false ∨ s.cliPacket k = false ∨ s.txSlots k = 0 ∨ s.brt.fault = true)) ∧ ((64 ≤ len ∧ len ≤ s.brtMaxFrame q)) ∧ (¬ (mt.1
         = 2 ∨ (mt.1 = 1 ∧ yel ≤ occ))) ∧ (occ + cellsOf len ≤ bufMax) ∧ (free < cellsOf len))),
    (let s : State :=
         { having [(R.CLM_CLIENT_CFG 0, F.CLM_CLIENT_CFG_enable, 1), (R.CLM_CLIENT_CFG 0, F.CLM_CLIENT_CFG_kind, 1)] with frmA := { frmReset with txMap0 := [128] } }
     let client : Fin 128 := 0
     let frame : List Byte := List.replicate 64 0
     let k := client.val
     let q := s.cliPb k
     let len := frame.length
     let mt := s.brtMeter q len
     let met := mt.2
     let occ := met.fld (R.BRT_PB_STATUS q) F.BRT_PB_STATUS_occupancy
     let bufMax := met.fld (R.BRT_PB_1C q) F.BRT_PB_1C_buf_max
     let yel := min bufMax (met.fld (R.BRT_PB_1C q) F.BRT_PB_1C_yel_thr)
     let free := met.fld R.BRT_STATUS F.BRT_STATUS_free_cells
     decide ((¬ (s.cliOn k = false ∨ s.cliPacket k = false ∨ s.txSlots k = 0 ∨ s.brt.fault = true)) ∧ ((64 ≤ len ∧ len ≤ s.brtMaxFrame q)) ∧ (¬ (mt.1
         = 2 ∨ (mt.1 = 1 ∧ yel ≤ occ))) ∧ (occ + cellsOf len ≤ bufMax) ∧ (cellsOf len ≤ free))),
    (let s : State := State.reset
     let p : Fin 64 := 0
     let n := p.val
     let v := s.brtAccrue n
     let y := v.brtCtx n
     decide ((((v.brt.fault = true ∨ v.fld (R.BRT_PB_STATUS n) F.BRT_PB_STATUS_gate ≠ 0 ∨ v.fld (R.BRT_PB_STATUS n) F.BRT_PB_STATUS_slots = 0) ∨
         y.frames = [])))),
    (let s : State :=
         { having [(R.BRT_PB_STATUS 0, F.BRT_PB_STATUS_slots, 1), (R.BRT_PB_18 0, F.BRT_PB_18_shp_burst, 0)] with brt := { State.reset.brt with ctx := State.reset.brt.ctx.set 0 { brtReset with frames := [List.replicate 64 0] } } }
     let p : Fin 64 := 0
     let n := p.val
     let v := s.brtAccrue n
     let y := v.brtCtx n
     let shaped := v.flag (R.BRT_PB_00 n) F.BRT_PB_00_shp_en
     let f : List Byte := (y.frames).headD []
     let need := 80000 * (f.length + v.brtOverhead n)
     let l : List (List Byte) := (y.frames).tail
     decide ((¬ (v.brt.fault = true ∨ v.fld (R.BRT_PB_STATUS n) F.BRT_PB_STATUS_gate ≠ 0 ∨ v.fld (R.BRT_PB_STATUS n) F.BRT_PB_STATUS_slots = 0)) ∧
         (y.frames = f :: l) ∧ (shaped = true) ∧ (y.ts < need))),
    (let s : State :=
         { having [(R.BRT_PB_STATUS 0, F.BRT_PB_STATUS_slots, 1), (R.BRT_PB_18 0, F.BRT_PB_18_shp_burst, 84)] with brt := { State.reset.brt with ctx := State.reset.brt.ctx.set 0 { brtReset with frames := [List.replicate 64 0], ts := 6720000 } } }
     let p : Fin 64 := 0
     let n := p.val
     let v := s.brtAccrue n
     let y := v.brtCtx n
     let shaped := v.flag (R.BRT_PB_00 n) F.BRT_PB_00_shp_en
     let f : List Byte := (y.frames).headD []
     let need := 80000 * (f.length + v.brtOverhead n)
     let l : List (List Byte) := (y.frames).tail
     decide ((¬ (v.brt.fault = true ∨ v.fld (R.BRT_PB_STATUS n) F.BRT_PB_STATUS_gate ≠ 0 ∨ v.fld (R.BRT_PB_STATUS n) F.BRT_PB_STATUS_slots = 0)) ∧
         (y.frames = f :: l) ∧ ((shaped = true → need ≤ y.ts)))),
    (let s : State := State.reset
     let p : Fin 64 := 0
     let n := p.val
     decide ((s.brtClient n = none))),
    (let s : State := having [(R.CLM_CLIENT_CFG 0, F.CLM_CLIENT_CFG_enable, 1), (R.CLM_CLIENT_CFG 0, F.CLM_CLIENT_CFG_kind, 1), (R.BRT_PB_STATUS 0,
         F.BRT_PB_STATUS_sync, 1)]
     let p : Fin 64 := 0
     let pos : Nat := 0
     let n := p.val
     let a := R.BRT_PB_STATUS n
     let z := s.brtCtx n
     let sync := s.flag a F.BRT_PB_STATUS_sync
     let span := frameSpan z.need
     let j : Nat := (s.brtClient n).getD 0
     let rt := s.client j
     decide ((s.brtClient n = some j) ∧ (rt.rxPos.getD 0 = pos) ∧ (sync = true) ∧ ((berthBytes (span + 8) pos rt.rx = none ∨ berthBytes span pos rt.rx
         = none)))),
    (let s : State :=
         { having [(R.CLM_CLIENT_CFG 0, F.CLM_CLIENT_CFG_enable, 1), (R.CLM_CLIENT_CFG 0, F.CLM_CLIENT_CFG_kind, 1), (R.BRT_PB_STATUS 0, F.BRT_PB_STATUS_sync, 1)] with clm := { State.reset.clm with clients := State.reset.clm.clients.set 0 { clientReset with rxPos := some 0, rx := wordsFrom (brtHeader 64 false) [someWord] } } }
     let p : Fin 64 := 0
     let pos : Nat := 0
     let n := p.val
     let a := R.BRT_PB_STATUS n
     let z := s.brtCtx n
     let sync := s.flag a F.BRT_PB_STATUS_sync
     let span := frameSpan z.need
     let j : Nat := (s.brtClient n).getD 0
     let rt := s.client j
     let got : List Byte := ((berthBytes (span + 8) pos rt.rx).getD ([], false, 0, [])).1
     let e0 : Bool := ((berthBytes (span + 8) pos rt.rx).getD ([], false, 0, [])).2.1
     let at1 : Nat := ((berthBytes (span + 8) pos rt.rx).getD ([], false, 0, [])).2.2.1
     let l1 : List RxWord := ((berthBytes (span + 8) pos rt.rx).getD ([], false, 0, [])).2.2.2
     let g : List Byte := ((berthBytes span pos rt.rx).getD ([], false, 0, [])).1
     let e1 : Bool := ((berthBytes span pos rt.rx).getD ([], false, 0, [])).2.1
     let at0 : Nat := ((berthBytes span pos rt.rx).getD ([], false, 0, [])).2.2.1
     let l0 : List RxWord := ((berthBytes span pos rt.rx).getD ([], false, 0, [])).2.2.2
     let len2 : Nat := (headerLen (got.drop span)).getD 0
     decide ((s.brtClient n = some j) ∧ (rt.rxPos.getD 0 = pos) ∧ (sync = true) ∧ (berthBytes (span + 8) pos rt.rx = some (got, e0, at1, l1)) ∧
         (berthBytes span pos rt.rx = some (g, e1, at0, l0)) ∧ (headerLen (got.drop span) = some len2))),
    (let s : State :=
         { having [(R.CLM_CLIENT_CFG 0, F.CLM_CLIENT_CFG_enable, 1), (R.CLM_CLIENT_CFG 0, F.CLM_CLIENT_CFG_kind, 1), (R.BRT_PB_STATUS 0, F.BRT_PB_STATUS_sync, 1)] with clm := { State.reset.clm with clients := State.reset.clm.clients.set 0 { clientReset with rxPos := some 0, rx := wordsFrom ([]) [someWord] } } }
     let p : Fin 64 := 0
     let pos : Nat := 0
     let n := p.val
     let a := R.BRT_PB_STATUS n
     let z := s.brtCtx n
     let sync := s.flag a F.BRT_PB_STATUS_sync
     let span := frameSpan z.need
     let j : Nat := (s.brtClient n).getD 0
     let rt := s.client j
     let got : List Byte := ((berthBytes (span + 8) pos rt.rx).getD ([], false, 0, [])).1
     let e0 : Bool := ((berthBytes (span + 8) pos rt.rx).getD ([], false, 0, [])).2.1
     let at1 : Nat := ((berthBytes (span + 8) pos rt.rx).getD ([], false, 0, [])).2.2.1
     let l1 : List RxWord := ((berthBytes (span + 8) pos rt.rx).getD ([], false, 0, [])).2.2.2
     let g : List Byte := ((berthBytes span pos rt.rx).getD ([], false, 0, [])).1
     let e1 : Bool := ((berthBytes span pos rt.rx).getD ([], false, 0, [])).2.1
     let at0 : Nat := ((berthBytes span pos rt.rx).getD ([], false, 0, [])).2.2.1
     let l0 : List RxWord := ((berthBytes span pos rt.rx).getD ([], false, 0, [])).2.2.2
     decide ((s.brtClient n = some j) ∧ (rt.rxPos.getD 0 = pos) ∧ (sync = true) ∧ (berthBytes (span + 8) pos rt.rx = some (got, e0, at1, l1)) ∧
         (berthBytes span pos rt.rx = some (g, e1, at0, l0)) ∧ (headerLen (got.drop span) = none))),
    (let s : State :=
         { having [(R.CLM_CLIENT_CFG 0, F.CLM_CLIENT_CFG_enable, 1), (R.CLM_CLIENT_CFG 0, F.CLM_CLIENT_CFG_kind, 1)] with frmA := { frmReset with txMap0 := [128] } }
     let p : Fin 64 := 0
     let pos : Nat := 0
     let n := p.val
     let a := R.BRT_PB_STATUS n
     let sync := s.flag a F.BRT_PB_STATUS_sync
     let j : Nat := (s.brtClient n).getD 0
     let rt := s.client j
     decide ((s.brtClient n = some j) ∧ (rt.rxPos.getD 0 = pos) ∧ (sync = false) ∧ (berthBytes 8 pos rt.rx = none))),
    (let s : State :=
         { having [(R.CLM_CLIENT_CFG 0, F.CLM_CLIENT_CFG_enable, 1), (R.CLM_CLIENT_CFG 0, F.CLM_CLIENT_CFG_kind, 1), (R.BRT_PB_STATUS 0, F.BRT_PB_STATUS_sync, 0)] with clm := { State.reset.clm with clients := State.reset.clm.clients.set 0 { clientReset with rxPos := some 0, rx := wordsFrom ([]) [someWord] } } }
     let p : Fin 64 := 0
     let pos : Nat := 0
     let n := p.val
     let a := R.BRT_PB_STATUS n
     let sync := s.flag a F.BRT_PB_STATUS_sync
     let j : Nat := (s.brtClient n).getD 0
     let rt := s.client j
     let h : List Byte := ((berthBytes 8 pos rt.rx).getD ([], false, 0, [])).1
     let e0 : Bool := ((berthBytes 8 pos rt.rx).getD ([], false, 0, [])).2.1
     let at1 : Nat := ((berthBytes 8 pos rt.rx).getD ([], false, 0, [])).2.2.1
     let l1 : List RxWord := ((berthBytes 8 pos rt.rx).getD ([], false, 0, [])).2.2.2
     decide ((s.brtClient n = some j) ∧ (rt.rxPos.getD 0 = pos) ∧ (sync = false) ∧ (berthBytes 8 pos rt.rx = some (h, e0, at1, l1)) ∧ (headerLen h =
         none))),
    (let s : State :=
         { having [(R.CLM_CLIENT_CFG 0, F.CLM_CLIENT_CFG_enable, 1), (R.CLM_CLIENT_CFG 0, F.CLM_CLIENT_CFG_kind, 1), (R.BRT_PB_STATUS 0, F.BRT_PB_STATUS_sync, 0)] with clm := { State.reset.clm with clients := State.reset.clm.clients.set 0 { clientReset with rxPos := some 0, rx := wordsFrom (brtHeader 64 false) [someWord] } } }
     let p : Fin 64 := 0
     let pos : Nat := 0
     let n := p.val
     let a := R.BRT_PB_STATUS n
     let sync := s.flag a F.BRT_PB_STATUS_sync
     let j : Nat := (s.brtClient n).getD 0
     let rt := s.client j
     let h : List Byte := ((berthBytes 8 pos rt.rx).getD ([], false, 0, [])).1
     let e0 : Bool := ((berthBytes 8 pos rt.rx).getD ([], false, 0, [])).2.1
     let at1 : Nat := ((berthBytes 8 pos rt.rx).getD ([], false, 0, [])).2.2.1
     let l1 : List RxWord := ((berthBytes 8 pos rt.rx).getD ([], false, 0, [])).2.2.2
     let len2 : Nat := (headerLen h).getD 0
     decide ((s.brtClient n = some j) ∧ (rt.rxPos.getD 0 = pos) ∧ (sync = false) ∧ (berthBytes 8 pos rt.rx = some (h, e0, at1, l1)) ∧ (headerLen h =
         some len2) ∧ (berthBytes (frameSpan len2 + 8) at1 l1 = none))),
    (let s : State :=
         { having [(R.CLM_CLIENT_CFG 0, F.CLM_CLIENT_CFG_enable, 1), (R.CLM_CLIENT_CFG 0, F.CLM_CLIENT_CFG_kind, 1), (R.BRT_PB_STATUS 0, F.BRT_PB_STATUS_sync, 0)] with clm := { State.reset.clm with clients := State.reset.clm.clients.set 0 { clientReset with rxPos := some 0, rx := wordsFrom (brtHeader 0 false) [someWord] } } }
     let p : Fin 64 := 0
     let pos : Nat := 0
     let n := p.val
     let a := R.BRT_PB_STATUS n
     let sync := s.flag a F.BRT_PB_STATUS_sync
     let j : Nat := (s.brtClient n).getD 0
     let rt := s.client j
     let h : List Byte := ((berthBytes 8 pos rt.rx).getD ([], false, 0, [])).1
     let e0 : Bool := ((berthBytes 8 pos rt.rx).getD ([], false, 0, [])).2.1
     let at1 : Nat := ((berthBytes 8 pos rt.rx).getD ([], false, 0, [])).2.2.1
     let l1 : List RxWord := ((berthBytes 8 pos rt.rx).getD ([], false, 0, [])).2.2.2
     let len2 : Nat := (headerLen h).getD 0
     let got : List Byte := ((berthBytes (frameSpan len2 + 8) at1 l1).getD ([], false, 0, [])).1
     let e2 : Bool := ((berthBytes (frameSpan len2 + 8) at1 l1).getD ([], false, 0, [])).2.1
     let at2 : Nat := ((berthBytes (frameSpan len2 + 8) at1 l1).getD ([], false, 0, [])).2.2.1
     let l2 : List RxWord := ((berthBytes (frameSpan len2 + 8) at1 l1).getD ([], false, 0, [])).2.2.2
     decide ((s.brtClient n = some j) ∧ (rt.rxPos.getD 0 = pos) ∧ (sync = false) ∧ (berthBytes 8 pos rt.rx = some (h, e0, at1, l1)) ∧ (headerLen h =
         some len2) ∧ (berthBytes (frameSpan len2 + 8) at1 l1 = some (got, e2, at2, l2)) ∧ (headerLen (got.drop (frameSpan len2)) = none))),
    (let s : State :=
         { having [(R.CLM_CLIENT_CFG 0, F.CLM_CLIENT_CFG_enable, 1), (R.CLM_CLIENT_CFG 0, F.CLM_CLIENT_CFG_kind, 1), (R.BRT_PB_STATUS 0, F.BRT_PB_STATUS_sync, 0)] with clm := { State.reset.clm with clients := State.reset.clm.clients.set 0 { clientReset with rxPos := some 0, rx := wordsFrom (brtHeader 0 false ++ brtHeader 0 false) [someWord] } } }
     let p : Fin 64 := 0
     let pos : Nat := 0
     let n := p.val
     let a := R.BRT_PB_STATUS n
     let sync := s.flag a F.BRT_PB_STATUS_sync
     let j : Nat := (s.brtClient n).getD 0
     let rt := s.client j
     let h : List Byte := ((berthBytes 8 pos rt.rx).getD ([], false, 0, [])).1
     let e0 : Bool := ((berthBytes 8 pos rt.rx).getD ([], false, 0, [])).2.1
     let at1 : Nat := ((berthBytes 8 pos rt.rx).getD ([], false, 0, [])).2.2.1
     let l1 : List RxWord := ((berthBytes 8 pos rt.rx).getD ([], false, 0, [])).2.2.2
     let len2 : Nat := (headerLen h).getD 0
     let got : List Byte := ((berthBytes (frameSpan len2 + 8) at1 l1).getD ([], false, 0, [])).1
     let e2 : Bool := ((berthBytes (frameSpan len2 + 8) at1 l1).getD ([], false, 0, [])).2.1
     let at2 : Nat := ((berthBytes (frameSpan len2 + 8) at1 l1).getD ([], false, 0, [])).2.2.1
     let l2 : List RxWord := ((berthBytes (frameSpan len2 + 8) at1 l1).getD ([], false, 0, [])).2.2.2
     let at3 : Nat := (headerLen (got.drop (frameSpan len2))).getD 0
     decide ((s.brtClient n = some j) ∧ (rt.rxPos.getD 0 = pos) ∧ (sync = false) ∧ (berthBytes 8 pos rt.rx = some (h, e0, at1, l1)) ∧ (headerLen h =
         some len2) ∧ (berthBytes (frameSpan len2 + 8) at1 l1 = some (got, e2, at2, l2)) ∧ (headerLen (got.drop (frameSpan len2)) = some at3))),
    (let b0 : State := State.reset
     let d0 : Desc := desc 0x100 64 0 0 0
     let s : State := holding 17 d0 b0
     let e : QEntry := entry 17 d0
     let d := e.desc
     decide (s.startable 17 0x100 = some e ∧ (63 < d.unit))),
    (let b0 : State := State.reset
     let d0 : Desc := desc 0x100 63 0 0 0
     let s : State := holding 17 d0 b0
     let e : QEntry := entry 17 d0
     let u : State := begun 17 d0 b0
     let d := e.desc
     decide (s.startable 17 0x100 = some e ∧ (d.unit ≤ 63) ∧ ((u.brtClient d.unit).isNone = true))),
    (let b0 : State :=
         { having [(R.CLM_CLIENT_CFG 0, F.CLM_CLIENT_CFG_enable, 1), (R.CLM_CLIENT_CFG 0, F.CLM_CLIENT_CFG_kind, 1)] with frmA := { frmReset with txMap0 := [128] } }
     let d0 : Desc := desc 0x100 0 0 0 0
     let s : State := holding 17 d0 b0
     let e : QEntry := entry 17 d0
     let u : State := begun 17 d0 b0
     let d := e.desc
     decide (s.startable 17 0x100 = some e ∧ (d.unit ≤ 63) ∧ ((u.brtClient d.unit).isNone = false))),
    (let b0 : State := State.reset
     let d0 : Desc := desc 0x101 64 0 0 0
     let s : State := holding 17 d0 b0
     let e : QEntry := entry 17 d0
     let d := e.desc
     decide (s.startable 17 0x101 = some e ∧ (63 < d.unit))),
    (let b0 : State := State.reset
     let d0 : Desc := desc 0x101 63 0 0 0
     let s : State := holding 17 d0 b0
     let e : QEntry := entry 17 d0
     let u : State := begun 17 d0 b0
     let d := e.desc
     decide (s.startable 17 0x101 = some e ∧ (d.unit ≤ 63) ∧ ((u.brtClient d.unit).isNone = true))),
    (let b0 : State :=
         { having [(R.CLM_CLIENT_CFG 0, F.CLM_CLIENT_CFG_enable, 1), (R.CLM_CLIENT_CFG 0, F.CLM_CLIENT_CFG_kind, 1)] with frmA := { frmReset with txMap0 := [128] } }
     let d0 : Desc := desc 0x101 0 0 0 0
     let s : State := holding 17 d0 b0
     let e : QEntry := entry 17 d0
     let u : State := begun 17 d0 b0
     let d := e.desc
     decide (s.startable 17 0x101 = some e ∧ (d.unit ≤ 63) ∧ ((u.brtClient d.unit).isNone = false)))] : List Bool).all id = true := by decide +kernel

/-- States and operands that meet the hypotheses of LaneRows, clause by clause in the order of the statement. -/
theorem witness_LaneRows : ([
    (let quay : Bool := true
     let q : Fin 64 := if quay then 19 else 18
     let s : State := ((behind 19 (desc 0x100 0xFF 0 0 0) (desc 0x100 7 0 0 0) State.reset, nextEntry 19 (desc 0x100 7 0 0 0)) : State × QEntry).1
     let e : QEntry := ((behind 19 (desc 0x100 0xFF 0 0 0) (desc 0x100 7 0 0 0) State.reset, nextEntry 19 (desc 0x100 7 0 0 0)) : State × QEntry).2
     let d := e.desc
     decide (s.startable q 0x100 = some e ∧ (s.laneChanging quay d.unit = true))),
    (let quay : Bool := true
     let b0 : State := State.reset
     let q : Fin 64 := if quay then 19 else 18
     let d0 : Desc := desc 0x100 8 0 0 0
     let s : State := holding q d0 b0
     let e : QEntry := entry q d0
     let d := e.desc
     let code := d.arg0 % 4
     decide (s.startable q 0x100 = some e ∧ (s.laneChanging quay d.unit = false) ∧ ((unitOk quay d.unit = false ∨ code = 3)))),
    (let quay : Bool := true
     let b0 : State := having [(R.QLK_CTRL, F.QLK_CTRL_enable, 1)]
     let q : Fin 64 := if quay then 19 else 18
     let d0 : Desc := desc 0x100 7 1 0 0
     let s : State := holding q d0 b0
     let e : QEntry := entry q d0
     let u : State := begun q d0 b0
     let d := e.desc
     let code := d.arg0 % 4
     decide (s.startable q 0x100 = some e ∧ (s.laneChanging quay d.unit = false) ∧ (unitOk quay d.unit = true) ∧ (code ≠ 3) ∧ (code ≠ 0) ∧ (((if quay
         then u.flag R.QLK_CTRL F.QLK_CTRL_enable else (u.laneRate d.unit).isSome) = true)))),
    (let quay : Bool := true
     let b0 : State := State.reset
     let q : Fin 64 := if quay then 19 else 18
     let d0 : Desc := desc 0x100 7 1 0 0
     let s : State := holding q d0 b0
     let e : QEntry := entry q d0
     let u : State := begun q d0 b0
     let d := e.desc
     let code := d.arg0 % 4
     let moved := (unitLanes quay d.unit).foldl (fun s n => s.lanePower quay n code) u
     decide (s.startable q 0x100 = some e ∧ (s.laneChanging quay d.unit = false) ∧ (unitOk quay d.unit = true) ∧ (code ≠ 3) ∧ ((code ≠ 0 → ¬ ((if quay
         then u.flag R.QLK_CTRL F.QLK_CTRL_enable else (u.laneRate d.unit).isSome) = true))) ∧ ((code = 0 → moved.unitReady quay d.unit = true)))),
    (let quay : Bool := true
     let b0 : State := State.reset
     let q : Fin 64 := if quay then 19 else 18
     let d0 : Desc := desc 0x100 7 0 0 0
     let s : State := holding q d0 b0
     let e : QEntry := entry q d0
     let u : State := begun q d0 b0
     let d := e.desc
     let code := d.arg0 % 4
     let moved := (unitLanes quay d.unit).foldl (fun s n => s.lanePower quay n code) u
     decide (s.startable q 0x100 = some e ∧ (s.laneChanging quay d.unit = false) ∧ (unitOk quay d.unit = true) ∧ (code = 0) ∧ (moved.unitReady quay
         d.unit = false))),
    (let quay : Bool := true
     let b0 : State := State.reset
     let q : Fin 64 := if quay then 19 else 18
     let d0 : Desc := desc 0x101 8 0 0 0
     let s : State := holding q d0 b0
     let e : QEntry := entry q d0
     let d := e.desc
     decide (s.startable q 0x101 = some e ∧ ((if quay then 8 else 24) ≤ d.unit))),
    (let quay : Bool := true
     let b0 : State := State.reset
     let q : Fin 64 := if quay then 19 else 18
     let d0 : Desc := desc 0x101 7 0 0 0
     let s : State := holding q d0 b0
     let e : QEntry := entry q d0
     let u : State := begun q d0 b0
     let d := e.desc
     decide (s.startable q 0x101 = some e ∧ (d.unit < (if quay then 8 else 24)) ∧ (u.lanePstate quay d.unit ≠ 0))),
    (let quay : Bool := true
     let b0 : State := having [(R.QLK_LANE_STATUS 7, F.QLK_LANE_STATUS_pstate, 0), (R.QLK_LANE_STATUS 7, F.QLK_LANE_STATUS_rx_ready, 1)]
     let q : Fin 64 := if quay then 19 else 18
     let d0 : Desc := desc 0x101 7 0 0 0
     let s : State := holding q d0 b0
     let e : QEntry := entry q d0
     let u : State := begun q d0 b0
     let d := e.desc
     decide (s.startable q 0x101 = some e ∧ (d.unit < (if quay then 8 else 24)) ∧ (u.lanePstate quay d.unit = 0))),
    (let s : State := State.reset
     let quay : Bool := true
     let lane : Fin 24 := 8
     let n := lane.val
     decide ((((quay = true ∧ 8 ≤ n) ∨ s.lanePstate quay n ≠ 0 ∨ s.laneLos quay n = true ∨ (s.lane quay n).fault = true ∨ (quay = false ∧ (s.laneRate
         n).isNone = true))))),
    (let s : State := having [(R.QLK_LANE_STATUS 7, F.QLK_LANE_STATUS_pstate, 0), (R.QLK_LANE_STATUS 7, F.QLK_LANE_STATUS_rx_ready, 1)]
     let quay : Bool := true
     let lane : Fin 24 := 7
     let n := lane.val
     decide ((¬ ((quay = true ∧ 8 ≤ n) ∨ s.lanePstate quay n ≠ 0 ∨ s.laneLos quay n = true ∨ (s.lane quay n).fault = true ∨ (quay = false ∧
         (s.laneRate n).isNone = true))))),
    (let s : State := State.reset
     let quay : Bool := true
     let lane : Fin 24 := 8
     let n := lane.val
     decide ((((quay = true ∧ 8 ≤ n) ∨ s.lanePstate quay n ≠ 0 ∨ s.laneLos quay n = true)))),
    (let s : State := having [(R.QLK_LANE_STATUS 7, F.QLK_LANE_STATUS_pstate, 0), (R.QLK_LANE_STATUS 7, F.QLK_LANE_STATUS_rx_ready, 1)]
     let quay : Bool := true
     let lane : Fin 24 := 7
     let n := lane.val
     decide ((¬ ((quay = true ∧ 8 ≤ n) ∨ s.lanePstate quay n ≠ 0 ∨ s.laneLos quay n = true)) ∧ (quay = true))),
    (let s : State := having [(R.CLM_CLIENT_CFG 0, F.CLM_CLIENT_CFG_enable, 1), (R.CLM_CLIENT_CFG 0, F.CLM_CLIENT_CFG_src_type, 1), (R.CLM_CLIENT_CFG
         0, F.CLM_CLIENT_CFG_src_index, 23), (R.HLN_LANE_STATUS 23, F.HLN_LANE_STATUS_pstate, 0)]
     let quay : Bool := false
     let lane : Fin 24 := 23
     let n := lane.val
     decide ((¬ ((quay = true ∧ 8 ≤ n) ∨ s.lanePstate quay n ≠ 0 ∨ s.laneLos quay n = true)) ∧ (quay = false))),
    (let quay : Bool := true
     let lane : Fin 24 := 8
     let n := lane.val
     decide (((quay = true ∧ 8 ≤ n)))),
    (let quay : Bool := true
     let lane : Fin 24 := 7
     let n := lane.val
     decide ((¬ (quay = true ∧ 8 ≤ n)) ∧ (quay = true))),
    (let quay : Bool := false
     decide ((quay = false)))] : List Bool).all id = true := by decide +kernel

/-- States and operands that meet the hypotheses of QuayLinkRows, clause by clause in the order of the statement. -/
theorem witness_QuayLinkRows : ([
    (let b0 : State := State.reset
     let d0 : Desc := desc 0x102 0 0x01000000 0 0
     let s : State := holding 19 d0 b0
     let e : QEntry := entry 19 d0
     let u : State := begun 19 d0 b0
     let d := e.desc
     let map := (u.bytes d.arg0 320).map (fun b => if b.getLsbD 7 then b &&& 0xBF else 0)
     decide (s.startable 19 0x102 = some e ∧ (((d.unit ≠ 0xFF ∨ bufferOk d.arg0 320 = false) ∨ u.quayMapOk (decide ((d.arg1 % 2 : Nat) = 1)) map =
         false)))),
    (let b0 : State := State.reset
     let d0 : Desc := desc 0x102 255 0x01000000 0 0
     let s : State := holding 19 d0 b0
     let e : QEntry := entry 19 d0
     let u : State := begun 19 d0 b0
     let d := e.desc
     let map := (u.bytes d.arg0 320).map (fun b => if b.getLsbD 7 then b &&& 0xBF else 0)
     let up := u.flag R.QLK_STATE F.QLK_STATE_link_up
     decide (s.startable 19 0x102 = some e ∧ (¬ (d.unit ≠ 0xFF ∨ bufferOk d.arg0 320 = false)) ∧ (u.quayMapOk (decide ((d.arg1 % 2 : Nat) = 1)) map =
         true) ∧ (up = false))),
    (let b0 : State := having [(R.QLK_STATE, F.QLK_STATE_link_up, 1)]
     let d0 : Desc := desc 0x102 255 0x01000000 0 0
     let s : State := holding 19 d0 b0
     let e : QEntry := entry 19 d0
     let u : State := begun 19 d0 b0
     let d := e.desc
     let t := d.arg1 / 2 ^ 32 % 2 ^ 22
     let map := (u.bytes d.arg0 320).map (fun b => if b.getLsbD 7 then b &&& 0xBF else 0)
     let up := u.flag R.QLK_STATE F.QLK_STATE_link_up
     let ahead : Nat := (t + 2 ^ 22 - u.superrow (decide ((d.arg1 % 2 : Nat) = 1))) % 2 ^ 22
     decide (s.startable 19 0x102 = some e ∧ (¬ (d.unit ≠ 0xFF ∨ bufferOk d.arg0 320 = false)) ∧ (u.quayMapOk (decide ((d.arg1 % 2 : Nat) = 1)) map =
         true) ∧ (up = true) ∧ ((ahead = 0 ∨ 2 ^ 21 ≤ ahead)))),
    (let b0 : State := having [(R.QLK_STATE, F.QLK_STATE_link_up, 1)]
     let d0 : Desc := desc 0x102 255 0x01000000 0x100000000 0
     let s : State := holding 19 d0 b0
     let e : QEntry := entry 19 d0
     let u : State := begun 19 d0 b0
     let d := e.desc
     let t := d.arg1 / 2 ^ 32 % 2 ^ 22
     let map := (u.bytes d.arg0 320).map (fun b => if b.getLsbD 7 then b &&& 0xBF else 0)
     let up := u.flag R.QLK_STATE F.QLK_STATE_link_up
     let ahead : Nat := (t + 2 ^ 22 - u.superrow (decide ((d.arg1 % 2 : Nat) = 1))) % 2 ^ 22
     decide (s.startable 19 0x102 = some e ∧ (¬ (d.unit ≠ 0xFF ∨ bufferOk d.arg0 320 = false)) ∧ (u.quayMapOk (decide ((d.arg1 % 2 : Nat) = 1)) map =
         true) ∧ (up = true) ∧ (0 < ahead) ∧ (ahead < 2 ^ 21))),
    (let b0 : State := State.reset
     let d0 : Desc := desc 0x103 0 0x01000000 0 0
     let s : State := holding 19 d0 b0
     let e : QEntry := entry 19 d0
     let d := e.desc
     decide (s.startable 19 0x103 = some e ∧ ((d.unit ≠ 0xFF ∨ bufferOk d.arg0 320 = false)))),
    (let b0 : State := State.reset
     let d0 : Desc := desc 0x103 255 0x01000000 0 0
     let s : State := holding 19 d0 b0
     let e : QEntry := entry 19 d0
     let d := e.desc
     decide (s.startable 19 0x103 = some e ∧ (¬ (d.unit ≠ 0xFF ∨ bufferOk d.arg0 320 = false)))),
    (let s : State := { State.reset with lanes := { laneReset with rxAt := some 5 } }
     let rx : Bool := true
     let superrow : BitVec 22 := 5
     decide ((s.quayAt rx = some superrow.toNat))),
    (let s : State := State.reset
     let rx : Bool := true
     let superrow : BitVec 22 := 5
     decide ((s.quayAt rx ≠ some superrow.toNat))),
    (let s : State := State.reset
     let lane : Fin 8 := 7
     let n := lane.val
     decide (((s.flag R.QLK_CTRL F.QLK_CTRL_enable = false ∨ s.lanePstate true n ≠ 0 ∨ (s.lane true n).fault = true)))),
    (let s : State := having [(R.QLK_CTRL, F.QLK_CTRL_enable, 1), (R.QLK_LANE_STATUS 7, F.QLK_LANE_STATUS_pstate, 0)]
     let lane : Fin 8 := 7
     let syms : List (Fin 4) := []
     let n := lane.val
     let levels := invertLevels (s.flag (R.QLK_LANE_CFG n) F.QLK_LANE_CFG_rx_inv) (syms.map (·.val))
     let block := quayRead (s.flag (R.QLK_LANE_CFG n) F.QLK_LANE_CFG_rx_precode) (s.quayLane n).scr (levels.drop 64)
     let v := (s.setQuayLane n { s.quayLane n with scr := block.scr }).quayComma n (commaFound levels) (commaLane levels)
     decide ((¬ (s.flag R.QLK_CTRL F.QLK_CTRL_enable = false ∨ s.lanePstate true n ≠ 0 ∨ (s.lane true n).fault = true)) ∧ (v.quayLocked n = false))),
    (let s : State := having [(R.QLK_CTRL, F.QLK_CTRL_enable, 1), (R.QLK_LANE_STATUS 7, F.QLK_LANE_STATUS_pstate, 0), (R.QLK_LANE_STATUS 7,
         F.QLK_LANE_STATUS_block_lock, 1)]
     let lane : Fin 8 := 7
     let syms : List (Fin 4) := []
     let n := lane.val
     let levels := invertLevels (s.flag (R.QLK_LANE_CFG n) F.QLK_LANE_CFG_rx_inv) (syms.map (·.val))
     let block := quayRead (s.flag (R.QLK_LANE_CFG n) F.QLK_LANE_CFG_rx_precode) (s.quayLane n).scr (levels.drop 64)
     let v := (s.setQuayLane n { s.quayLane n with scr := block.scr }).quayComma n (commaFound levels) (commaLane levels)
     decide ((¬ (s.flag R.QLK_CTRL F.QLK_CTRL_enable = false ∨ s.lanePstate true n ≠ 0 ∨ (s.lane true n).fault = true)) ∧ (v.quayLocked n = true))),
    (let s : State := State.reset
     decide ((¬ (s.fld R.QLK_STATE F.QLK_STATE_locked = 255)))),
    (let s : State := having [(R.QLK_STATE, F.QLK_STATE_locked, 255), (R.QLK_STATE, F.QLK_STATE_deskewed, 1)]
     let deskewed := s.flag R.QLK_STATE F.QLK_STATE_deskewed
     decide (((s.fld R.QLK_STATE F.QLK_STATE_locked = 255)) ∧ (deskewed = true))),
    (let s : State :=
         { having [(R.QLK_STATE, F.QLK_STATE_locked, 255)] with lanes := { laneReset with framing := Vector.replicate 8 { laneReset.framing[0] with found := 4, held := [{ seq := 9, ok := true, payload := [] }] } } }
     let deskewed := s.flag R.QLK_STATE F.QLK_STATE_deskewed
     let seq : BitVec 32 := (s.quayCommon).getD 0
     decide (((s.fld R.QLK_STATE F.QLK_STATE_locked = 255)) ∧ (deskewed = false) ∧ (s.quayCommon = some seq))),
    (let s : State := having [(R.QLK_STATE, F.QLK_STATE_locked, 255)]
     let deskewed := s.flag R.QLK_STATE F.QLK_STATE_deskewed
     decide (((s.fld R.QLK_STATE F.QLK_STATE_locked = 255)) ∧ (deskewed = false) ∧ (s.quayCommon = none)))] : List Bool).all id = true := by decide +kernel

/-- States and operands that meet the hypotheses of CipherRows, clause by clause in the order of the statement. -/
theorem witness_CipherRows : ([
    (let s : State := State.reset
     let c : Carrier := .A
     decide ((s.lastFrame c = none))),
    (let s : State := { State.reset with txA := { txReset with line := { lineReset with frames := [someFrame] } } }
     let c : Carrier := .A
     let client : Fin 128 := 0
     let n := client.val
     let off := fun (words : Nat) => s.hasCipher = false ∨ s.cliOn n = false ∨ s.cliCar n ≠ c ∨ words = 0 ∨ s.protMode n 0 = 0
     let fr : TxFrame := (s.lastFrame c).getD someFrame
     let txWords := fr.words n
     decide ((s.lastFrame c = some fr) ∧ (off txWords))),
    (let s : State :=
         { having [(R.CLM_CLIENT_CFG 0, F.CLM_CLIENT_CFG_enable, 1), (R.CPH_CLIENT_STATUS 0, F.CPH_CLIENT_STATUS_tx_mode, 1), (R.CPH_CLIENT_STATUS 0, F.CPH_CLIENT_STATUS_rx_mode, 1)] with txA := { txReset with line := { lineReset with frames := [someFrame] } } }
     let c : Carrier := .A
     let client : Fin 128 := 0
     let peak : Fin 8193 := 0
     let n := client.val
     let off := fun (words : Nat) => s.hasCipher = false ∨ s.cliOn n = false ∨ s.cliCar n ≠ c ∨ words = 0 ∨ s.protMode n 0 = 0
     let shown := if peak.val = 8192 then s.setFlag R.CPH_STATUS F.CPH_STATUS_win_stall true else s
     let f := (shown.cphCar c).ftx
     let w := (shown.epochActivate n 0 f).epochJudge n 0 f
     let fr : TxFrame := (s.lastFrame c).getD someFrame
     let txWords := fr.words n
     decide ((s.lastFrame c = some fr) ∧ (¬ off txWords) ∧ (((w.flag (R.CPH_CLIENT_STATUS n) F.CPH_CLIENT_STATUS_tx_squelch || w.cph.shedTx.contains n
         || w.cph.fault) = true)))),
    (let s : State :=
         { having [(R.CLM_CLIENT_CFG 0, F.CLM_CLIENT_CFG_enable, 1), (R.CPH_CLIENT_STATUS 0, F.CPH_CLIENT_STATUS_tx_mode, 1), (R.CPH_CLIENT_STATUS 0, F.CPH_CLIENT_STATUS_rx_mode, 1)] with txA := { txReset with line := { lineReset with frames := [someFrame] } }, cph := { State.reset.cph with slots := [(0, epoch), (4, epoch)], abandoned := [0] } }
     let c : Carrier := .A
     let client : Fin 128 := 0
     let peak : Fin 8193 := 0
     let n := client.val
     let off := fun (words : Nat) => s.hasCipher = false ∨ s.cliOn n = false ∨ s.cliCar n ≠ c ∨ words = 0 ∨ s.protMode n 0 = 0
     let shown := if peak.val = 8192 then s.setFlag R.CPH_STATUS F.CPH_STATUS_win_stall true else s
     let f := (shown.cphCar c).ftx
     let w := (shown.epochActivate n 0 f).epochJudge n 0 f
     let fr : TxFrame := (s.lastFrame c).getD someFrame
     let txWords := fr.words n
     decide ((s.lastFrame c = some fr) ∧ (¬ off txWords) ∧ (¬ ((w.flag (R.CPH_CLIENT_STATUS n) F.CPH_CLIENT_STATUS_tx_squelch || w.cph.shedTx.contains
         n || w.cph.fault) = true)) ∧ ((w.cph.abandoned.contains n = true)))),
    (let s : State :=
         { having [(R.CLM_CLIENT_CFG 0, F.CLM_CLIENT_CFG_enable, 1), (R.CPH_CLIENT_STATUS 0, F.CPH_CLIENT_STATUS_tx_mode, 1), (R.CPH_CLIENT_STATUS 0, F.CPH_CLIENT_STATUS_rx_mode, 1)] with txA := { txReset with line := { lineReset with frames := [someFrame] } }, cph := { State.reset.cph with slots := [(0, epoch), (4, epoch)] } }
     let c : Carrier := .A
     let client : Fin 128 := 0
     let peak : Fin 8193 := 0
     let n := client.val
     let off := fun (words : Nat) => s.hasCipher = false ∨ s.cliOn n = false ∨ s.cliCar n ≠ c ∨ words = 0 ∨ s.protMode n 0 = 0
     let shown := if peak.val = 8192 then s.setFlag R.CPH_STATUS F.CPH_STATUS_win_stall true else s
     let f := (shown.cphCar c).ftx
     let w := (shown.epochActivate n 0 f).epochJudge n 0 f
     let fr : TxFrame := (s.lastFrame c).getD someFrame
     let txWords := fr.words n
     decide ((s.lastFrame c = some fr) ∧ (¬ off txWords) ∧ (¬ ((w.flag (R.CPH_CLIENT_STATUS n) F.CPH_CLIENT_STATUS_tx_squelch || w.cph.shedTx.contains
         n || w.cph.fault) = true)) ∧ (¬ (w.cph.abandoned.contains n = true)))),
    (let s : State := State.reset
     let c : Carrier := .A
     let client : Fin 128 := 0
     let n := client.val
     let trib := s.fld (R.CLM_CLIENT_CFG n) F.CLM_CLIENT_CFG_rx_trib
     let ws := tribWords (s.cphCar c).dueMf trib (s.cphCar c).due
     decide (((s.hasCipher = false ∨ s.cliOn n = false ∨ s.cliCar n ≠ c ∨ ws = [] ∨ s.protMode n 1 = 0)))),
    (let s : State :=
         { having [(R.CLM_CLIENT_CFG 0, F.CLM_CLIENT_CFG_enable, 1), (R.CPH_CLIENT_STATUS 0, F.CPH_CLIENT_STATUS_tx_mode, 1), (R.CPH_CLIENT_STATUS 0, F.CPH_CLIENT_STATUS_rx_mode, 1)] with cph := { State.reset.cph with carA := dueRecord 0 } }
     let c : Carrier := .A
     let client : Fin 128 := 0
     let n := client.val
     let trib := s.fld (R.CLM_CLIENT_CFG n) F.CLM_CLIENT_CFG_rx_trib
     let ws := tribWords (s.cphCar c).dueMf trib (s.cphCar c).due
     let tag := BitVec.ofNat 128 (beNat (((s.cphCar c).dueTags.drop (16 * trib)).take 16))
     decide ((¬ (s.hasCipher = false ∨ s.cliOn n = false ∨ s.cliCar n ≠ c ∨ ws = [] ∨ s.protMode n 1 = 0)) ∧ (tag = 0))),
    (let s : State :=
         { having [(R.CLM_CLIENT_CFG 0, F.CLM_CLIENT_CFG_enable, 1), (R.CPH_CLIENT_STATUS 0, F.CPH_CLIENT_STATUS_tx_mode, 1), (R.CPH_CLIENT_STATUS 0, F.CPH_CLIENT_STATUS_rx_mode, 1), (R.CPH_CLIENT_STATUS 0, F.CPH_CLIENT_STATUS_rx_squelch, 1)] with cph := { State.reset.cph with carA := dueRecord 1 } }
     let c : Carrier := .A
     let client : Fin 128 := 0
     let peak : Fin 8193 := 0
     let n := client.val
     let shown := if peak.val = 8192 then s.setFlag R.CPH_STATUS F.CPH_STATUS_win_stall true else s
     let trib := s.fld (R.CLM_CLIENT_CFG n) F.CLM_CLIENT_CFG_rx_trib
     let ws := tribWords (s.cphCar c).dueMf trib (s.cphCar c).due
     let tag := BitVec.ofNat 128 (beNat (((s.cphCar c).dueTags.drop (16 * trib)).take 16))
     let ready := shown.dueTaken c trib
     let rx := ready.cphCar c
     let b := (if rx.frxSet then ready.epochActivate n 1 rx.dueF else ready).epochJudge n 1 rx.dueF
     decide ((¬ (s.hasCipher = false ∨ s.cliOn n = false ∨ s.cliCar n ≠ c ∨ ws = [] ∨ s.protMode n 1 = 0)) ∧ (tag ≠ 0) ∧ ((b.flag (R.CPH_CLIENT_STATUS
         n) F.CPH_CLIENT_STATUS_rx_squelch = true ∨ b.cph.fault = true)))),
    (let s : State :=
         { having [(R.CLM_CLIENT_CFG 0, F.CLM_CLIENT_CFG_enable, 1), (R.CPH_CLIENT_STATUS 0, F.CPH_CLIENT_STATUS_tx_mode, 1), (R.CPH_CLIENT_STATUS 0, F.CPH_CLIENT_STATUS_rx_mode, 1)] with cph := { State.reset.cph with carA := dueRecord goodTag.toNat, slots := [(0, epoch), (4, epoch)] } }
     let c : Carrier := .A
     let client : Fin 128 := 0
     let peak : Fin 8193 := 0
     let n := client.val
     let shown := if peak.val = 8192 then s.setFlag R.CPH_STATUS F.CPH_STATUS_win_stall true else s
     let trib := s.fld (R.CLM_CLIENT_CFG n) F.CLM_CLIENT_CFG_rx_trib
     let ws := tribWords (s.cphCar c).dueMf trib (s.cphCar c).due
     let text := ws.flatMap (·.bytes)
     let tag := BitVec.ofNat 128 (beNat (((s.cphCar c).dueTags.drop (16 * trib)).take 16))
     let ready := shown.dueTaken c trib
     let rx := ready.cphCar c
     let b := (if rx.frxSet then ready.epochActivate n 1 rx.dueF else ready).epochJudge n 1 rx.dueF
     let g := b.countRecord n 1
     decide ((¬ (s.hasCipher = false ∨ s.cliOn n = false ∨ s.cliCar n ≠ c ∨ ws = [] ∨ s.protMode n 1 = 0)) ∧ (tag ≠ 0) ∧ (¬ (b.flag
         (R.CPH_CLIENT_STATUS n) F.CPH_CLIENT_STATUS_rx_squelch = true ∨ b.cph.fault = true)) ∧ ((g.tagMatches c n trib text tag = true)))),
    (let s : State :=
         { having [(R.CLM_CLIENT_CFG 0, F.CLM_CLIENT_CFG_enable, 1), (R.CPH_CLIENT_STATUS 0, F.CPH_CLIENT_STATUS_tx_mode, 1), (R.CPH_CLIENT_STATUS 0, F.CPH_CLIENT_STATUS_rx_mode, 1)] with cph := { State.reset.cph with carA := dueRecord 1, slots := [(0, epoch), (4, epoch)], failRun := [(0, 7)] } }
     let c : Carrier := .A
     let client : Fin 128 := 0
     let peak : Fin 8193 := 0
     let n := client.val
     let shown := if peak.val = 8192 then s.setFlag R.CPH_STATUS F.CPH_STATUS_win_stall true else s
     let trib := s.fld (R.CLM_CLIENT_CFG n) F.CLM_CLIENT_CFG_rx_trib
     let ws := tribWords (s.cphCar c).dueMf trib (s.cphCar c).due
     let text := ws.flatMap (·.bytes)
     let tag := BitVec.ofNat 128 (beNat (((s.cphCar c).dueTags.drop (16 * trib)).take 16))
     let ready := shown.dueTaken c trib
     let rx := ready.cphCar c
     let b := (if rx.frxSet then ready.epochActivate n 1 rx.dueF else ready).epochJudge n 1 rx.dueF
     let g := b.countRecord n 1
     let y := g.cphCar c
     let counted := ((g.addCnt (R.CPH_AUTH_FAIL_CNT n) 1).setFlag R.CPH_STATUS F.CPH_STATUS_auth_fail true).clmGive n (ws.map (fun w =>
         { w with bad := true }))
     let wrong := (counted.setFailRun n (counted.failRun n + 1)).setCphCar c { y with badNow := y.badNow + 1 }
     decide ((¬ (s.hasCipher = false ∨ s.cliOn n = false ∨ s.cliCar n ≠ c ∨ ws = [] ∨ s.protMode n 1 = 0)) ∧ (tag ≠ 0) ∧ (¬ (b.flag
         (R.CPH_CLIENT_STATUS n) F.CPH_CLIENT_STATUS_rx_squelch = true ∨ b.cph.fault = true)) ∧ (¬ (g.tagMatches c n trib text tag = true)) ∧ ((8
         ≤ wrong.failRun n ∧ wrong.flag (R.CPH_CLIENT_STATUS n) F.CPH_CLIENT_STATUS_rx_fail = false)))),
    (let s : State :=
         { having [(R.CLM_CLIENT_CFG 0, F.CLM_CLIENT_CFG_enable, 1), (R.CPH_CLIENT_STATUS 0, F.CPH_CLIENT_STATUS_tx_mode, 1), (R.CPH_CLIENT_STATUS 0, F.CPH_CLIENT_STATUS_rx_mode, 1)] with cph := { State.reset.cph with carA := dueRecord 1, slots := [(0, epoch), (4, epoch)] } }
     let c : Carrier := .A
     let client : Fin 128 := 0
     let peak : Fin 8193 := 0
     let n := client.val
     let shown := if peak.val = 8192 then s.setFlag R.CPH_STATUS F.CPH_STATUS_win_stall true else s
     let trib := s.fld (R.CLM_CLIENT_CFG n) F.CLM_CLIENT_CFG_rx_trib
     let ws := tribWords (s.cphCar c).dueMf trib (s.cphCar c).due
     let text := ws.flatMap (·.bytes)
     let tag := BitVec.ofNat 128 (beNat (((s.cphCar c).dueTags.drop (16 * trib)).take 16))
     let ready := shown.dueTaken c trib
     let rx := ready.cphCar c
     let b := (if rx.frxSet then ready.epochActivate n 1 rx.dueF else ready).epochJudge n 1 rx.dueF
     let g := b.countRecord n 1
     let y := g.cphCar c
     let counted := ((g.addCnt (R.CPH_AUTH_FAIL_CNT n) 1).setFlag R.CPH_STATUS F.CPH_STATUS_auth_fail true).clmGive n (ws.map (fun w =>
         { w with bad := true }))
     let wrong := (counted.setFailRun n (counted.failRun n + 1)).setCphCar c { y with badNow := y.badNow + 1 }
     decide ((¬ (s.hasCipher = false ∨ s.cliOn n = false ∨ s.cliCar n ≠ c ∨ ws = [] ∨ s.protMode n 1 = 0)) ∧ (tag ≠ 0) ∧ (¬ (b.flag
         (R.CPH_CLIENT_STATUS n) F.CPH_CLIENT_STATUS_rx_squelch = true ∨ b.cph.fault = true)) ∧ (¬ (g.tagMatches c n trib text tag = true)) ∧ (¬
         (8 ≤ wrong.failRun n ∧ wrong.flag (R.CPH_CLIENT_STATUS n) F.CPH_CLIENT_STATUS_rx_fail = false)))),
    (let s : State := State.reset.setUnit 25 2
     let unit : Fin 26 := 25
     let k := unit.val
     decide (((s.hasCipher = false ∨ 2 ≤ s.unitRole k)))),
    (let s : State := State.reset
     let unit : Fin 26 := 25
     let k := unit.val
     decide ((s.hasCipher = true) ∧ (s.unitRole k < 2))),
    (let b0 : State := State.reset
     let d0 : Desc := desc 0x100 26 0 0 0
     let s : State := holding 20 d0 b0
     let e : QEntry := entry 20 d0
     let d := e.desc
     decide (s.startable 20 0x100 = some e ∧ (25 < d.unit))),
    (let b0 : State := State.reset.setUnit 25 3
     let d0 : Desc := desc 0x100 25 0 0 0
     let s : State := holding 20 d0 b0
     let e : QEntry := entry 20 d0
     let u : State := begun 20 d0 b0
     let d := e.desc
     decide (s.startable 20 0x100 = some e ∧ (d.unit ≤ 25) ∧ ((u.unitRole d.unit = 0 ∨ u.unitRole d.unit = 3)))),
    (let b0 : State := { State.reset with cph := { State.reset.cph with fault := true } } |>.setUnit 25 2
     let d0 : Desc := desc 0x100 25 0 0 0
     let s : State := holding 20 d0 b0
     let e : QEntry := entry 20 d0
     let u : State := begun 20 d0 b0
     let d := e.desc
     decide (s.startable 20 0x100 = some e ∧ (d.unit ≤ 25) ∧ (u.unitRole d.unit ≠ 0) ∧ (u.unitRole d.unit ≠ 3) ∧ (u.cph.fault = true))),
    (let b0 : State := State.reset
     let d0 : Desc := desc 0x100 25 0 0 0
     let s : State := holding 20 d0 b0
     let e : QEntry := entry 20 d0
     let u : State := begun 20 d0 b0
     let d := e.desc
     decide (s.startable 20 0x100 = some e ∧ (d.unit ≤ 25) ∧ (u.unitRole d.unit ≠ 0) ∧ (u.unitRole d.unit ≠ 3) ∧ (u.cph.fault = false))),
    (let b0 : State := State.reset
     let d0 : Desc := desc 0x101 26 0 0 0
     let s : State := holding 20 d0 b0
     let e : QEntry := entry 20 d0
     let d := e.desc
     decide (s.startable 20 0x101 = some e ∧ ((d.unit ≠ 0xFF ∨ d.arg0 / 128 % 2 = 1 ∨ 512 ≤ d.arg0 ∨ bufferOk d.arg1 128 = false)))),
    (let b0 : State := State.reset
     let d0 : Desc := desc 0x101 255 127 0x01000000 0
     let s : State := holding 20 d0 b0
     let e : QEntry := entry 20 d0
     let d := e.desc
     decide (s.startable 20 0x101 = some e ∧ (¬ (d.unit ≠ 0xFF ∨ d.arg0 / 128 % 2 = 1 ∨ 512 ≤ d.arg0 ∨ bufferOk d.arg1 128 = false))))] : List Bool).all id = true := by decide +kernel

/-- States and operands that meet the hypotheses of EnclaveRequests, clause by clause in the order of the statement. -/
theorem witness_EnclaveRequests : ([
    decide (State.reset.svcDue 0 = false),
    (let s := asking 1 0x1 1 State.reset
     s.svcDue 1 && s.svcCode 1 == 0x1 && s.svcHeader 1 && s.svcArgs 1 != []),
    (let s := asking 0 0x14 0 State.reset
     s.svcDue 0 && s.svcCode 0 == 0x14 && s.svcHeader 0 && (s.svcArgs 0).length == 0),
    (let s := asking 0 0x15 0 State.reset
     s.svcDue 0 && s.svcCode 0 == 0x15 && s.svcHeader 0 && (s.svcArgs 0).length == 0),
    (let s := asking 0 0x20 0 State.reset
     s.svcDue 0 && s.svcCode 0 == 0x20 && s.svcHeader 0 && (s.svcArgs 0).length == 0),
    (let s := asking 0 0x21 0 State.reset
     s.svcDue 0 && s.svcCode 0 == 0x21 && s.svcHeader 0 && (s.svcArgs 0).length == 0),
    (let s := asking 0 0x22 0 State.reset
     s.svcDue 0 && s.svcCode 0 == 0x22 && s.svcHeader 0 && (s.svcArgs 0).length == 0),
    (let s := asking 0 0x23 0 State.reset
     s.svcDue 0 && s.svcCode 0 == 0x23 && s.svcHeader 0 && (s.svcArgs 0).length == 0),
    (let s := asking 0 0x12 1 { State.reset with part := .ctp4n }
     s.svcDue 0 && s.svcCode 0 == 0x12 && s.svcHeader 0 && (s.svcArgs 0).length == 1 && carArgOk (s.svcArgs 0) && !s.svcPart (s.svcArgs 0)),
    (let s := asking 0 0x13 2 { State.reset with part := .ctp4n }
     s.svcDue 0 && s.svcCode 0 == 0x13 && s.svcHeader 0 && (s.svcArgs 0).length == 2 && carArgOk (s.svcArgs 0) && !s.svcPart (s.svcArgs 0)),
    (let s := asking 0 0x14 1 { State.reset with part := .ctp4n }
     s.svcDue 0 && s.svcCode 0 == 0x14 && s.svcHeader 0 && (s.svcArgs 0).length == 1 && carArgOk (s.svcArgs 0) && !s.svcPart (s.svcArgs 0)),
    (let s := (asking 0 0x2 0 State.reset).setFld R.SEC_STATE F.SEC_STATE_state 3
     s.svcDue 0 && s.svcCode 0 == 0x2 && s.svcHeader 0 && s.svcArgs 0 == [] && !svcAccepted s.secStateCode 0x2),
    (let s := asking 1 0x2 1 State.reset
     s.svcDue 1 && s.svcCode 1 == 0x2 && s.svcHeader 1 && s.svcArgs 1 != []),
    (let s := (asking 0 0x3 0 State.reset).setFld R.SEC_STATE F.SEC_STATE_state 2
     s.svcDue 0 && s.svcCode 0 == 0x3 && s.svcHeader 0 && s.svcArgs 0 == [] && !svcAccepted s.secStateCode 0x3),
    (let s := (asking 0 0x4 0 State.reset).setFld R.SEC_STATE F.SEC_STATE_state 0
     s.svcDue 0 && s.svcCode 0 == 0x4 && s.svcHeader 0 && s.svcArgs 0 == [] && !svcAccepted s.secStateCode 0x4),
    (let s := (asking 0 0x5 0 State.reset).setFld R.SEC_STATE F.SEC_STATE_state 2
     s.svcDue 0 && s.svcCode 0 == 0x5 && s.svcHeader 0 && s.svcArgs 0 == [] && !svcAccepted s.secStateCode 0x5),
    (let s := asking 1 0x3 1 State.reset
     s.svcDue 1 && s.svcCode 1 == 0x3 && s.svcHeader 1 && s.svcArgs 1 != []),
    (let s := asking 1 0x4 1 State.reset
     s.svcDue 1 && s.svcCode 1 == 0x4 && s.svcHeader 1 && s.svcArgs 1 != []),
    (let s := asking 1 0x5 1 State.reset
     s.svcDue 1 && s.svcCode 1 == 0x5 && s.svcHeader 1 && s.svcArgs 1 != []),
    (let s := asking 0 0x10 0 State.reset
     s.svcDue 0 && s.svcCode 0 == 0x10 && s.svcHeader 0 && (s.svcArgs 0).length == 0),
    (let s := asking 0 0x11 0 State.reset
     s.svcDue 0 && s.svcCode 0 == 0x11 && s.svcHeader 0 && (s.svcArgs 0).length == 0),
    (let s := asking 0 0x12 0 State.reset
     s.svcDue 0 && s.svcCode 0 == 0x12 && s.svcHeader 0 && (s.svcArgs 0).length == 0),
    (let s := asking 0 0x13 0 State.reset
     s.svcDue 0 && s.svcCode 0 == 0x13 && s.svcHeader 0 && (s.svcArgs 0).length == 0)] : List Bool).all id = true := by decide +kernel

/-- States and operands that meet the hypotheses of EnclaveServicesOpen, clause by clause in the order of the statement; one clause in which a signature verifies turns on Config.verify, which has no body: no concrete state shows it. -/
theorem witness_EnclaveServicesOpen : ([
    (let s : State := asking 1 0x1 0 (State.reset)
     let ch : Fin 2 := 1
     let l : List Byte := (some (s.svcArgs ch)).getD []
     decide ((s.svcDue ch = true) ∧ (s.svcCode ch = 0x01) ∧ (some (s.svcArgs ch) = some l) ∧ (s.svcHeader ch = true) ∧ (l.isEmpty = true) ∧ (true =
         true) ∧ (svcAccepted s.secStateCode 0x01 = true))),
    (let s : State := asking 1 0x2 0 (State.reset)
     let ch : Fin 2 := 1
     let l : List Byte := (some (s.svcArgs ch)).getD []
     decide ((s.svcDue ch = true) ∧ (s.svcCode ch = 0x02) ∧ (some (s.svcArgs ch) = some l) ∧ (s.svcHeader ch = true) ∧ (l.isEmpty = true) ∧ (true =
         true) ∧ (svcAccepted s.secStateCode 0x02 = true))),
    (let s : State := asking 1 0x3 0 (State.reset)
     let ch : Fin 2 := 1
     let l : List Byte := (some (s.svcArgs ch)).getD []
     decide ((s.svcDue ch = true) ∧ (s.svcCode ch = 0x03) ∧ (some (s.svcArgs ch) = some l) ∧ (s.svcHeader ch = true) ∧ (l.isEmpty = true) ∧ (true =
         true) ∧ (svcAccepted s.secStateCode 0x03 = true))),
    (let s : State := asking 1 0x4 0 (State.reset)
     let ch : Fin 2 := 1
     let l : List Byte := (some (s.svcArgs ch)).getD []
     decide ((s.svcDue ch = true) ∧ (s.svcCode ch = 0x04) ∧ (some (s.svcArgs ch) = some l) ∧ (s.svcHeader ch = true) ∧ (l.isEmpty = true) ∧ (true =
         true) ∧ (svcAccepted s.secStateCode 0x04 = true))),
    (let s : State := asking 1 0x5 0 (State.reset)
     let ch : Fin 2 := 1
     let code : Byte := 0
     let n := code.toNat
     let l : List Byte := (some (s.svcArgs ch)).getD []
     decide ((s.svcDue ch = true) ∧ (s.svcCode ch = 0x05) ∧ (some (s.svcArgs ch) = some l) ∧ (s.svcHeader ch = true) ∧ (l.isEmpty = true) ∧ (true =
         true) ∧ (svcAccepted s.secStateCode 0x05 = true) ∧ (n = 0))),
    (let s : State := asking 1 0x5 0 (State.reset)
     let ch : Fin 2 := 1
     let code : Byte := 0x1F
     let n := code.toNat
     let l : List Byte := (some (s.svcArgs ch)).getD []
     decide ((s.svcDue ch = true) ∧ (s.svcCode ch = 0x05) ∧ (some (s.svcArgs ch) = some l) ∧ (s.svcHeader ch = true) ∧ (l.isEmpty = true) ∧ (true =
         true) ∧ (svcAccepted s.secStateCode 0x05 = true) ∧ (0 < n) ∧ (n < 0x20))),
    (let s : State := asking 1 0x5 0 (State.reset)
     let ch : Fin 2 := 1
     let code : Byte := 0x20
     let n := code.toNat
     let l : List Byte := (some (s.svcArgs ch)).getD []
     decide ((s.svcDue ch = true) ∧ (s.svcCode ch = 0x05) ∧ (some (s.svcArgs ch) = some l) ∧ (s.svcHeader ch = true) ∧ (l.isEmpty = true) ∧ (true =
         true) ∧ (svcAccepted s.secStateCode 0x05 = true) ∧ (0x20 ≤ n) ∧ (s.hasCipher = true) ∧ (s.unitRole (n - 0x20) = 1))),
    (let s : State := asking 1 0x5 0 (State.reset.setUnit 0 0)
     let ch : Fin 2 := 1
     let code : Byte := 0x20
     let n := code.toNat
     let l : List Byte := (some (s.svcArgs ch)).getD []
     decide ((s.svcDue ch = true) ∧ (s.svcCode ch = 0x05) ∧ (some (s.svcArgs ch) = some l) ∧ (s.svcHeader ch = true) ∧ (l.isEmpty = true) ∧ (true =
         true) ∧ (svcAccepted s.secStateCode 0x05 = true) ∧ (0x20 ≤ n) ∧ ((s.hasCipher = false ∨ s.unitRole (n - 0x20) ≠ 1)))),
    (let s : State := { asking 1 0x10 5536 (State.reset) with sec := { (asking 1 0x10 5536 (State.reset)).sec with endorse := [[], [], [], []] } }
     let ch : Fin 2 := 1
     let held := s.sec.endorse.length
     let l : List Byte := (some (s.svcArgs ch)).getD []
     decide ((s.svcDue ch = true) ∧ (s.svcCode ch = 0x10) ∧ (some (s.svcArgs ch) = some l) ∧ (s.svcHeader ch = true) ∧ ((l.length == 5536) = true) ∧
         (true = true) ∧ (svcAccepted s.secStateCode 0x10 = true) ∧ (4 ≤ held))),
    (let s : State := asking 1 0x10 5536 (State.reset)
     let ch : Fin 2 := 1
     let held := s.sec.endorse.length
     let l : List Byte := (some (s.svcArgs ch)).getD []
     decide ((s.svcDue ch = true) ∧ (s.svcCode ch = 0x10) ∧ (some (s.svcArgs ch) = some l) ∧ (s.svcHeader ch = true) ∧ ((l.length == 5536) = true) ∧
         (true = true) ∧ (svcAccepted s.secStateCode 0x10 = true) ∧ (held < 4) ∧ (s.endorseOk l idFp = false))),
    (let s : State := asking 1 0x11 129 (State.reset)
     let ch : Fin 2 := 1
     let l : List Byte := (some (s.svcArgs ch)).getD []
     decide ((s.svcDue ch = true) ∧ (s.svcCode ch = 0x11) ∧ (some (s.svcArgs ch) = some l) ∧ (s.svcHeader ch = true) ∧ ((l.length == 129 && carArgOk l
         && policyOk (l.drop 1)) = true) ∧ ((s.svcPart l) = true) ∧ (svcAccepted s.secStateCode 0x11 = true))),
    (let s : State := asking 1 0x12 1 (State.reset)
     let ch : Fin 2 := 1
     let l : List Byte := (some (s.svcArgs ch)).getD []
     decide ((s.svcDue ch = true) ∧ (s.svcCode ch = 0x12) ∧ (some (s.svcArgs ch) = some l) ∧ (s.svcHeader ch = true) ∧ ((l.length == 1 && carArgOk l)
         = true) ∧ ((s.svcPart l) = true) ∧ (svcAccepted s.secStateCode 0x12 = true))),
    (let s : State := (asking 1 0x13 2 (State.reset)).setBytes (secReq 1 + 17) [1]
     let ch : Fin 2 := 1
     let l : List Byte := (some (s.svcArgs ch)).getD []
     let two := l.length == 2 && carArgOk l && decide ((l.getD 1 0).toNat < 2)
     decide ((s.svcDue ch = true) ∧ (s.svcCode ch = 0x13) ∧ (some (s.svcArgs ch) = some l) ∧ (s.svcHeader ch = true) ∧ (two = true) ∧ ((s.svcPart l) =
         true) ∧ (svcAccepted s.secStateCode 0x13 = true) ∧ (((l.getD 1 0).toNat = 1)))),
    (let s : State := asking 1 0x13 2 (State.reset)
     let ch : Fin 2 := 1
     let l : List Byte := (some (s.svcArgs ch)).getD []
     let two := l.length == 2 && carArgOk l && decide ((l.getD 1 0).toNat < 2)
     decide ((s.svcDue ch = true) ∧ (s.svcCode ch = 0x13) ∧ (some (s.svcArgs ch) = some l) ∧ (s.svcHeader ch = true) ∧ (two = true) ∧ ((s.svcPart l) =
         true) ∧ (svcAccepted s.secStateCode 0x13 = true) ∧ (¬ ((l.getD 1 0).toNat = 1)))),
    (let s : State := asking 1 0x14 1 (State.reset)
     let ch : Fin 2 := 1
     let l : List Byte := (some (s.svcArgs ch)).getD []
     decide ((s.svcDue ch = true) ∧ (s.svcCode ch = 0x14) ∧ (some (s.svcArgs ch) = some l) ∧ (s.svcHeader ch = true) ∧ ((l.length == 1 && carArgOk l)
         = true) ∧ ((s.svcPart l) = true) ∧ (svcAccepted s.secStateCode 0x14 = true))),
    (let s : State := asking 1 0x15 4 (State.reset)
     let ch : Fin 2 := 1
     let l : List Byte := (some (s.svcArgs ch)).getD []
     decide ((s.svcDue ch = true) ∧ (s.svcCode ch = 0x15) ∧ (some (s.svcArgs ch) = some l) ∧ (s.svcHeader ch = true) ∧ ((l.length == 4) = true) ∧
         (true = true) ∧ (svcAccepted s.secStateCode 0x15 = true)))] : List Bool).all id = true := by decide +kernel

/-- States and operands that meet the hypotheses of EnclaveServicesOfficer, clause by clause in the order of the statement; four clauses in which a signature verifies turn on Config.verify, which has no body: no concrete state shows it. -/
theorem witness_EnclaveServicesOfficer : ([
    (let s : State := asking 0 0x20 5553 (State.reset)
     let ch : Fin 2 := 0
     let l : List Byte := (some (s.svcArgs ch)).getD []
     let slot := decide ((l.getD 32 0).toNat < 4)
     decide ((s.svcDue ch = true) ∧ (s.svcCode ch = 0x20) ∧ (some (s.svcArgs ch) = some l) ∧ (s.svcHeader ch = true) ∧ ((l.length == 5553 && slot) =
         true) ∧ (true = true) ∧ (svcAccepted s.secStateCode 0x20 = true) ∧ (¬ ((s.tokenSigned ch l && (s.liveSlots == 0 || s.anchorLive (tokenFp
         l))) = true)))),
    (let s : State := asking 0 0x21 5505 (State.reset)
     let ch : Fin 2 := 0
     let l : List Byte := (some (s.svcArgs ch)).getD []
     let slot := decide ((l.getD 32 0).toNat < 4)
     decide ((s.svcDue ch = true) ∧ (s.svcCode ch = 0x21) ∧ (some (s.svcArgs ch) = some l) ∧ (s.svcHeader ch = true) ∧ ((l.length == 5505 && slot) =
         true) ∧ (true = true) ∧ (svcAccepted s.secStateCode 0x21 = true) ∧ (¬ (s.tokenOk ch l = true)))),
    (let s : State := asking 0 0x22 5504 (State.reset)
     let ch : Fin 2 := 0
     let l : List Byte := (some (s.svcArgs ch)).getD []
     decide ((s.svcDue ch = true) ∧ (s.svcCode ch = 0x22) ∧ (some (s.svcArgs ch) = some l) ∧ (s.svcHeader ch = true) ∧ ((l.length == 5504) = true) ∧
         (true = true) ∧ (svcAccepted s.secStateCode 0x22 = true))),
    (let s : State := (asking 0 0x23 5520 (State.reset)).setBytes (secReq 0 + 48) (leBytes 4 60 ++ leBytes 4 604800 ++ leBytes 4 5 ++ leBytes 4 10000)
     let ch : Fin 2 := 0
     let l : List Byte := (some (s.svcArgs ch)).getD []
     decide ((s.svcDue ch = true) ∧ (s.svcCode ch = 0x23) ∧ (some (s.svcArgs ch) = some l) ∧ (s.svcHeader ch = true) ∧ ((l.length == 5520 && timersOk
         l) = true) ∧ (true = true) ∧ (svcAccepted s.secStateCode 0x23 = true)))] : List Bool).all id = true := by decide +kernel

/-- States and operands that meet the hypotheses of KeyExchangeRows, clause by clause in the order of the statement; two clauses in which a signature verifies turn on Config.verify, which has no body: no concrete state shows it. -/
theorem witness_KeyExchangeRows : ([
    (let s : State := State.reset
     let c : Carrier := .A
     decide ((s.secTake c 0x10 = none))),
    (let s : State := State.reset
     let c : Carrier := .A
     decide ((s.secTake c 0x11 = none))),
    (let s : State := State.reset
     let c : Carrier := .A
     decide ((s.secTake c 0x12 = none))),
    (let s : State := State.reset
     let c : Carrier := .A
     decide ((s.secTake c 0x13 = none))),
    (let s : State := State.reset
     let c : Carrier := .A
     decide ((s.secTake c 0x14 = none))),
    (let s : State := hailed 0x11 [] (secHas none none (having [(R.SEC_STATE, F.SEC_STATE_state, 1)]))
     let c : Carrier := .A
     let x := s.secCar c
     let m : List Byte := ((s.secTake c 0x11).getD ([], State.reset)).1
     let u : State := ((s.secTake c 0x11).getD ([], State.reset)).2
     decide ((s.secTake c 0x11 = some (m, u)) ∧ (x.ka = none))),
    (let s : State := hailed 0x12 [] (secHas none none (having [(R.SEC_STATE, F.SEC_STATE_state, 1)]))
     let c : Carrier := .A
     let x := s.secCar c
     let m : List Byte := ((s.secTake c 0x12).getD ([], State.reset)).1
     let u : State := ((s.secTake c 0x12).getD ([], State.reset)).2
     decide ((s.secTake c 0x12 = some (m, u)) ∧ (x.ka = none))),
    (let s : State := hailed 0x13 [] (secHas none none (having [(R.SEC_STATE, F.SEC_STATE_state, 1)]))
     let c : Carrier := .A
     let x := s.secCar c
     let m : List Byte := ((s.secTake c 0x13).getD ([], State.reset)).1
     let u : State := ((s.secTake c 0x13).getD ([], State.reset)).2
     decide ((s.secTake c 0x13 = some (m, u)) ∧ (x.ka = none))),
    (let s : State := hailed 0x14 [] (secHas none none (having [(R.SEC_STATE, F.SEC_STATE_state, 1)]))
     let c : Carrier := .A
     let x := s.secCar c
     let m : List Byte := ((s.secTake c 0x14).getD ([], State.reset)).1
     let u : State := ((s.secTake c 0x14).getD ([], State.reset)).2
     decide ((s.secTake c 0x14 = some (m, u)) ∧ (x.ka = none))),
    (let s : State := hailed 0x10 [] (secHas none none (having [(R.SEC_STATE, F.SEC_STATE_state, 3)]))
     let c : Carrier := .A
     let m : List Byte := ((s.secTake c 0x10).getD ([], State.reset)).1
     let u : State := ((s.secTake c 0x10).getD ([], State.reset)).2
     decide ((s.secTake c 0x10 = some (m, u)) ∧ (u.secStateCode = 3))),
    (let s : State := hailed 0x10 [] (secHas none none (having [(R.SEC_STATE, F.SEC_STATE_state, 1)]))
     let c : Carrier := .A
     let m : List Byte := ((s.secTake c 0x10).getD ([], State.reset)).1
     let u : State := ((s.secTake c 0x10).getD ([], State.reset)).2
     let y := u.secCar c
     decide ((s.secTake c 0x10 = some (m, u)) ∧ (u.secStateCode ≠ 3) ∧ (y.ka = none))),
    (let s : State := hailed 0x10 (List.replicate 1848 0) (secHas (some (agreeing 0x0)) none (having [(R.SEC_STATE, F.SEC_STATE_state, 1)]))
     let c : Carrier := .A
     let m : List Byte := ((s.secTake c 0x10).getD ([], State.reset)).1
     let u : State := ((s.secTake c 0x10).getD ([], State.reset)).2
     let y := u.secCar c
     let k : KaExchange := (y.ka).getD (agreeing 0)
     decide ((s.secTake c 0x10 = some (m, u)) ∧ (u.secStateCode ≠ 3) ∧ (y.ka = some k) ∧ (k.sent = 0))),
    (let s : State := hailed 0x10 (List.replicate 1848 0) (secHas (some (agreeing 0x11)) none (having [(R.SEC_STATE, F.SEC_STATE_state, 1)]))
     let c : Carrier := .A
     let m : List Byte := ((s.secTake c 0x10).getD ([], State.reset)).1
     let u : State := ((s.secTake c 0x10).getD ([], State.reset)).2
     let y := u.secCar c
     let k : KaExchange := (y.ka).getD (agreeing 0)
     decide ((s.secTake c 0x10 = some (m, u)) ∧ (u.secStateCode ≠ 3) ∧ (y.ka = some k) ∧ (k.sent ≠ 0) ∧ (k.sent ≠ 0x10))),
    (let s : State := hailed 0x10 (List.replicate 48 0) (secHas (some { agreeing 0x10 with hello := List.replicate 48 1 }) none (having [(R.SEC_STATE,
         F.SEC_STATE_state, 1)]))
     let c : Carrier := .A
     let m : List Byte := ((s.secTake c 0x10).getD ([], State.reset)).1
     let other := beNat (span m 16 32)
     let u : State := ((s.secTake c 0x10).getD ([], State.reset)).2
     let y := u.secCar c
     let k : KaExchange := (y.ka).getD (agreeing 0)
     let own := beNat (span k.hello 16 32)
     decide ((s.secTake c 0x10 = some (m, u)) ∧ (u.secStateCode ≠ 3) ∧ (y.ka = some k) ∧ (k.sent = 0x10) ∧ (other < own))),
    (let s : State := hailed 0x10 (List.replicate 48 1) (secHas (some { agreeing 0x10 with hello := List.replicate 48 0 }) none (having [(R.SEC_STATE,
         F.SEC_STATE_state, 1)]))
     let c : Carrier := .A
     let m : List Byte := ((s.secTake c 0x10).getD ([], State.reset)).1
     let other := beNat (span m 16 32)
     let u : State := ((s.secTake c 0x10).getD ([], State.reset)).2
     let y := u.secCar c
     let k : KaExchange := (y.ka).getD (agreeing 0)
     let own := beNat (span k.hello 16 32)
     decide ((s.secTake c 0x10 = some (m, u)) ∧ (u.secStateCode ≠ 3) ∧ (y.ka = some k) ∧ (k.sent = 0x10) ∧ (own < other))),
    (let s : State := hailed 0x10 (List.replicate 48 1) (secHas (some { agreeing 0x10 with hello := List.replicate 48 1 }) none (having [(R.SEC_STATE,
         F.SEC_STATE_state, 1)]))
     let c : Carrier := .A
     let m : List Byte := ((s.secTake c 0x10).getD ([], State.reset)).1
     let other := beNat (span m 16 32)
     let u : State := ((s.secTake c 0x10).getD ([], State.reset)).2
     let y := u.secCar c
     let k : KaExchange := (y.ka).getD (agreeing 0)
     let own := beNat (span k.hello 16 32)
     decide ((s.secTake c 0x10 = some (m, u)) ∧ (u.secStateCode ≠ 3) ∧ (y.ka = some k) ∧ (k.sent = 0x10) ∧ (own = other))),
    (let s : State := hailed 0x11 (List.replicate 16 0) (secHas (some (agreeing 0x0)) none (having [(R.SEC_STATE, F.SEC_STATE_state, 1)]))
     let c : Carrier := .A
     let x := s.secCar c
     let m : List Byte := ((s.secTake c 0x11).getD ([], State.reset)).1
     let u : State := ((s.secTake c 0x11).getD ([], State.reset)).2
     let k : KaExchange := (x.ka).getD (agreeing 0)
     decide ((s.secTake c 0x11 = some (m, u)) ∧ (x.ka = some k) ∧ (k.sent ≠ 0x10))),
    (let s : State := hailed 0x11 (List.replicate 16 0) (secHas (some (agreeing 0x10)) none (having [(R.SEC_STATE, F.SEC_STATE_state, 1)]))
     let c : Carrier := .A
     let x := s.secCar c
     let m : List Byte := ((s.secTake c 0x11).getD ([], State.reset)).1
     let u : State := ((s.secTake c 0x11).getD ([], State.reset)).2
     let k : KaExchange := (x.ka).getD (agreeing 0)
     decide ((s.secTake c 0x11 = some (m, u)) ∧ (x.ka = some k) ∧ (k.sent = 0x10) ∧ ((m.length ≠ 16336 ∨ m.take 16 ≠ k.sid ∨ policyOk (span m 1720
         128) = false)))),
    (let s : State := hailed 0x11 (List.replicate 16336 0) (secHas (some (agreeing 0x10)) none (having [(R.SEC_STATE, F.SEC_STATE_state, 1)]))
     let c : Carrier := .A
     let why : Nat := 3
     let x := s.secCar c
     let m : List Byte := ((s.secTake c 0x11).getD ([], State.reset)).1
     let idcR := span m 1848 5496
     let eR := span m 7344 5536
     let sigR := span m 12880 3408
     let macR := span m 16288 48
     let u : State := ((s.secTake c 0x11).getD ([], State.reset)).2
     let k : KaExchange := (x.ka).getD (agreeing 0)
     let kr : KaExchange :=
         { k with resp := m.take 1848, prk := prkOf k.hello (m.take 1848) (leBytes 32 (Config.kemDecap k.kemSeed (span m 152 1568)).toNat) (leBytes 48 (Config.ecdh k.ecdhPriv (span m 48 97)).toNat), peerPolicy := span m 1720 128 }
     let thR := sha384 (thA kr ++ idcR ++ eR)
     decide ((s.secTake c 0x11 = some (m, u)) ∧ (x.ka = some k) ∧ (m.take 16 = k.sid) ∧ (k.sent = 0x10) ∧ (m.length = 16336) ∧ (policyOk (span m 1720
         128) = true) ∧ (u.peerFault idcR eR thR sigR macR (kmOf kr true) = some why))),
    (let s : State := hailed 0x12 (List.replicate 16 0) (secHas (some (agreeing 0x0)) none (having [(R.SEC_STATE, F.SEC_STATE_state, 1)]))
     let c : Carrier := .A
     let x := s.secCar c
     let m : List Byte := ((s.secTake c 0x12).getD ([], State.reset)).1
     let u : State := ((s.secTake c 0x12).getD ([], State.reset)).2
     let k : KaExchange := (x.ka).getD (agreeing 0)
     decide ((s.secTake c 0x12 = some (m, u)) ∧ (x.ka = some k) ∧ (k.sent ≠ 0x11))),
    (let s : State := hailed 0x12 (List.replicate 15 0) (secHas (some (agreeing 0x11)) none (having [(R.SEC_STATE, F.SEC_STATE_state, 1)]))
     let c : Carrier := .A
     let x := s.secCar c
     let m : List Byte := ((s.secTake c 0x12).getD ([], State.reset)).1
     let u : State := ((s.secTake c 0x12).getD ([], State.reset)).2
     let k : KaExchange := (x.ka).getD (agreeing 0)
     decide ((s.secTake c 0x12 = some (m, u)) ∧ (x.ka = some k) ∧ (k.sent = 0x11) ∧ ((m.length ≠ 14504 ∨ m.take 16 ≠ k.sid)))),
    (let s : State := hailed 0x12 (List.replicate 14504 0) (secHas (some (agreeing 0x11)) none (having [(R.SEC_STATE, F.SEC_STATE_state, 1)]))
     let c : Carrier := .A
     let why : Nat := 3
     let x := s.secCar c
     let m : List Byte := ((s.secTake c 0x12).getD ([], State.reset)).1
     let idcF := span m 16 5496
     let eF := span m 5512 5536
     let u : State := ((s.secTake c 0x12).getD ([], State.reset)).2
     let k : KaExchange := (x.ka).getD (agreeing 0)
     let thF := sha384 (k.th ++ idcF ++ eF)
     decide ((s.secTake c 0x12 = some (m, u)) ∧ (x.ka = some k) ∧ (m.take 16 = k.sid) ∧ (k.sent = 0x11) ∧ (m.length = 14504) ∧ (u.peerFault idcF eF
         thF (span m 11048 3408) (span m 14456 48) (kmOf k false) = some why))),
    (let s : State := hailed 0x13 (List.replicate 16 0) (secHas (some (agreeing 0x11)) none (having [(R.SEC_STATE, F.SEC_STATE_state, 1)]))
     let c : Carrier := .A
     let x := s.secCar c
     let m : List Byte := ((s.secTake c 0x13).getD ([], State.reset)).1
     let u : State := ((s.secTake c 0x13).getD ([], State.reset)).2
     let k : KaExchange := (x.ka).getD (agreeing 0)
     decide ((s.secTake c 0x13 = some (m, u)) ∧ (x.ka = some k) ∧ (k.sent ≠ 0x12))),
    (let s : State := hailed 0x13 (List.replicate 16 0) (secHas (some (agreeing 0x12)) none (having [(R.SEC_STATE, F.SEC_STATE_state, 1)]))
     let c : Carrier := .A
     let x := s.secCar c
     let m : List Byte := ((s.secTake c 0x13).getD ([], State.reset)).1
     let u : State := ((s.secTake c 0x13).getD ([], State.reset)).2
     let k : KaExchange := (x.ka).getD (agreeing 0)
     decide ((s.secTake c 0x13 = some (m, u)) ∧ (x.ka = some k) ∧ (k.sent = 0x12) ∧ ((m.length ≠ 64 ∨ m.take 16 ≠ k.sid)))),
    (let s : State := hailed 0x13 (List.replicate 64 0) (secHas (some (agreeing 0x12)) none (having [(R.SEC_STATE, F.SEC_STATE_state, 1)]))
     let c : Carrier := .A
     let x := s.secCar c
     let m : List Byte := ((s.secTake c 0x13).getD ([], State.reset)).1
     let u : State := ((s.secTake c 0x13).getD ([], State.reset)).2
     let k : KaExchange := (x.ka).getD (agreeing 0)
     decide ((s.secTake c 0x13 = some (m, u)) ∧ (x.ka = some k) ∧ (m.take 16 = k.sid) ∧ (k.sent = 0x12) ∧ (m.length = 64) ∧ (span m 16 48 ≠ hmac384
         (kmOf k true) (k.th ++ ascii "confirm")))),
    (let s : State := hailed 0x13 (List.replicate 16 0 ++ hmac384 (kmOf (agreeing 0x12) true) (ascii "confirm")) (secHas (some (agreeing 0x12)) none
         (having [(R.SEC_STATE, F.SEC_STATE_state, 1)]))
     let c : Carrier := .A
     let x := s.secCar c
     let m : List Byte := ((s.secTake c 0x13).getD ([], State.reset)).1
     let u : State := ((s.secTake c 0x13).getD ([], State.reset)).2
     let k : KaExchange := (x.ka).getD (agreeing 0)
     decide ((s.secTake c 0x13 = some (m, u)) ∧ (x.ka = some k) ∧ (m.take 16 = k.sid) ∧ (k.sent = 0x12) ∧ (m.length = 64) ∧ (span m 16 48 = hmac384
         (kmOf k true) (k.th ++ ascii "confirm")))),
    (let s : State := hailed 0x14 (List.replicate 19 0) (secHas (some (agreeing 0x10)) none (having [(R.SEC_STATE, F.SEC_STATE_state, 1)]))
     let c : Carrier := .A
     let x := s.secCar c
     let m : List Byte := ((s.secTake c 0x14).getD ([], State.reset)).1
     let u : State := ((s.secTake c 0x14).getD ([], State.reset)).2
     let k : KaExchange := (x.ka).getD (agreeing 0)
     decide ((s.secTake c 0x14 = some (m, u)) ∧ (x.ka = some k) ∧ ((m.length ≠ 20 ∨ m.take 16 ≠ k.sid)))),
    (let s : State := hailed 0x14 (List.replicate 20 0) (secHas (some (agreeing 0x10)) none (having [(R.SEC_STATE, F.SEC_STATE_state, 1)]))
     let c : Carrier := .A
     let x := s.secCar c
     let m : List Byte := ((s.secTake c 0x14).getD ([], State.reset)).1
     let u : State := ((s.secTake c 0x14).getD ([], State.reset)).2
     let k : KaExchange := (x.ka).getD (agreeing 0)
     decide ((s.secTake c 0x14 = some (m, u)) ∧ (x.ka = some k) ∧ (m.length = 20) ∧ (m.take 16 = k.sid))),
    (let s : State := State.reset
     let c : Carrier := .A
     let x := s.secCar c
     decide ((x.ka = none))),
    (let s : State := State.reset
     let c : Carrier := .A
     let x := s.secCar c
     decide ((x.ka = none))),
    (let s : State := hailed 0x10 (List.replicate 1848 0) (secHas (some (agreeing 0x0)) none (having [(R.SEC_STATE, F.SEC_STATE_state, 1)]))
     let c : Carrier := .A
     let x := s.secCar c
     let k : KaExchange := (x.ka).getD (agreeing 0)
     decide ((x.ka = some k))),
    (let s : State := hailed 0x10 (List.replicate 1848 0) (secHas (some (agreeing 0x0)) none (having [(R.SEC_STATE, F.SEC_STATE_state, 1)]))
     let c : Carrier := .A
     let x := s.secCar c
     let k : KaExchange := (x.ka).getD (agreeing 0)
     decide ((x.ka = some k))),
    (let s : State := State.reset
     let c : Carrier := .A
     let x := s.secCar c
     decide ((x.cur = none))),
    (let s : State := secHas none (some session) State.reset
     let c : Carrier := .A
     let x := s.secCar c
     let g : SecSession := (x.cur).getD session
     decide ((x.cur = some g)))] : List Bool).all id = true := by decide +kernel

/-- States and operands that meet the hypotheses of EpochRows, clause by clause in the order of the statement. -/
theorem witness_EpochRows : ([
    (let s : State := State.reset
     let c : Carrier := .A
     decide ((s.secTake c 0x15 = none))),
    (let s : State := hailed 0x15 [] (secHas none none (having [(R.SEC_STATE, F.SEC_STATE_state, 3)]))
     let c : Carrier := .A
     let m : List Byte := ((s.secTake c 0x15).getD ([], State.reset)).1
     let u : State := ((s.secTake c 0x15).getD ([], State.reset)).2
     decide ((s.secTake c 0x15 = some (m, u)) ∧ (u.secStateCode = 3))),
    (let s : State := hailed 0x15 (List.replicate 52 0) (secHas none none (having [(R.SEC_STATE, F.SEC_STATE_state, 1)]))
     let c : Carrier := .A
     let m : List Byte := ((s.secTake c 0x15).getD ([], State.reset)).1
     let u : State := ((s.secTake c 0x15).getD ([], State.reset)).2
     let y := u.secCar c
     decide ((s.secTake c 0x15 = some (m, u)) ∧ (u.secStateCode ≠ 3) ∧ (y.bySid (m.take 16) = none))),
    (let s : State := hailed 0x15 (List.replicate 51 0) (secHas none (some session) (having [(R.SEC_STATE, F.SEC_STATE_state, 1)]))
     let c : Carrier := .A
     let m : List Byte := ((s.secTake c 0x15).getD ([], State.reset)).1
     let n := beNat (span m 16 4)
     let u : State := ((s.secTake c 0x15).getD ([], State.reset)).2
     let y := u.secCar c
     let g : SecSession := (y.bySid (m.take 16)).getD session
     decide ((s.secTake c 0x15 = some (m, u)) ∧ (u.secStateCode ≠ 3) ∧ (y.bySid (m.take 16) = some g) ∧ (¬ (m.length = 52 ∧ macA g.kaRx (m.take 36) =
         span m 36 16 ∧ nOk g.nRx n = true ∧ u.secStateCode = 1)))),
    (let s : State := hailed 0x15 (List.replicate 36 0 ++ macA [] (List.replicate 36 0)) (secHas none (some session) (having [(R.SEC_STATE,
         F.SEC_STATE_state, 1)]))
     let c : Carrier := .A
     let m : List Byte := ((s.secTake c 0x15).getD ([], State.reset)).1
     let n := beNat (span m 16 4)
     let u : State := ((s.secTake c 0x15).getD ([], State.reset)).2
     let y := u.secCar c
     let g : SecSession := (y.bySid (m.take 16)).getD session
     decide ((s.secTake c 0x15 = some (m, u)) ∧ (u.secStateCode ≠ 3) ∧ (y.bySid (m.take 16) = some g) ∧ ((m.length = 52 ∧ macA g.kaRx (m.take 36) =
         span m 36 16 ∧ nOk g.nRx n = true ∧ u.secStateCode = 1)))),
    (let s : State := State.reset
     let c : Carrier := .A
     decide ((s.secTake c 0x16 = none))),
    (let s : State := hailed 0x16 (List.replicate 52 0) (secHas none none (having [(R.SEC_STATE, F.SEC_STATE_state, 1)]))
     let c : Carrier := .A
     let m : List Byte := ((s.secTake c 0x16).getD ([], State.reset)).1
     let u : State := ((s.secTake c 0x16).getD ([], State.reset)).2
     let y := u.secCar c
     decide ((s.secTake c 0x16 = some (m, u)) ∧ (y.bySid (m.take 16) = none))),
    (let s : State := hailed 0x16 (List.replicate 52 0) (secHas none (some session) (having [(R.SEC_STATE, F.SEC_STATE_state, 1)]))
     let c : Carrier := .A
     let m : List Byte := ((s.secTake c 0x16).getD ([], State.reset)).1
     let u : State := ((s.secTake c 0x16).getD ([], State.reset)).2
     let y := u.secCar c
     let g : SecSession := (y.bySid (m.take 16)).getD session
     decide ((s.secTake c 0x16 = some (m, u)) ∧ (y.bySid (m.take 16) = some g))),
    (let s : State := State.reset
     let c : Carrier := .A
     let x := s.secCar c
     decide ((x.txNext = none))),
    (let s : State := hailed 0x15 (List.replicate 51 0) (secHas none (some session) (having [(R.SEC_STATE, F.SEC_STATE_state, 1)]))
     let c : Carrier := .A
     let x := s.secCar c
     let g : SecSession := (x.txNext).getD session
     decide ((x.txNext = some g)))] : List Bool).all id = true := by decide +kernel

/-- States and operands that meet the hypotheses of ReferenceRows, clause by clause in the order of the statement. -/
theorem witness_ReferenceRows : ([
    (let s : State := having [(R.REF_SRC_CFG 31, F.REF_SRC_CFG_enable, 1)]
     let src : Fin 32 := 31
     let reason : Nat := 3
     let n := src.val
     decide (((s.refOn n = true ∧ s.ref.fault = false ∧ (reason = 1 ∨ reason = 2 ∨ (reason = 3 ∧ s.refCond n = false)))))),
    (let s : State := State.reset
     let src : Fin 32 := 31
     let reason : Nat := 3
     let n := src.val
     decide ((¬ (s.refOn n = true ∧ s.ref.fault = false ∧ (reason = 1 ∨ reason = 2 ∨ (reason = 3 ∧ s.refCond n = false)))))),
    (let s : State := { State.reset with ref := { State.reset.ref with fault := true } }
     let rootOffset : W32 := 0
     let v := s.setReg R.REF_ROOT_OFFSET rootOffset
     decide ((v.ref.fault = true))),
    (let s : State := State.reset
     let rootOffset : W32 := 0
     let v := s.setReg R.REF_ROOT_OFFSET rootOffset
     decide ((v.ref.fault = false))),
    (let s : State := State.reset
     decide (((s.ref.fault = true ∨ s.refChoice = s.refSel)))),
    (let s : State := having [(R.REF_STATE, F.REF_STATE_sel_valid, 1), (R.REF_STATE, F.REF_STATE_sel_src, 0)]
     decide ((s.ref.fault = false) ∧ (s.refChoice ≠ s.refSel) ∧ (s.refChoice = none))),
    (let s : State := having [(R.REF_STATE, F.REF_STATE_sel_valid, 1), (R.REF_STATE, F.REF_STATE_sel_src, 0), (R.REF_SRC_CFG 3, F.REF_SRC_CFG_enable,
         1), (R.REF_SRC_STATUS 3, F.REF_SRC_STATUS_qualified, 1)]
     let dest : Nat := (s.refChoice).getD 0
     let from_ : Nat := (s.refSel).getD 0
     decide ((s.ref.fault = false) ∧ (s.refChoice ≠ s.refSel) ∧ (s.refChoice = some dest) ∧ (s.refSel = some from_))),
    (let s : State := having [(R.REF_SRC_CFG 3, F.REF_SRC_CFG_enable, 1), (R.REF_SRC_STATUS 3, F.REF_SRC_STATUS_qualified, 1)]
     let dest : Nat := (s.refChoice).getD 0
     decide ((s.ref.fault = false) ∧ (s.refChoice ≠ s.refSel) ∧ (s.refChoice = some dest) ∧ (s.refSel = none))),
    (let s : State := { having [(R.REF_STATE, F.REF_STATE_dpll_state, 1)] with ref := { State.reset.ref with lockRun := 40 } }
     decide ((s.dpll = 1) ∧ (s.ref.fault = false) ∧ (s.lockWindows ≤ s.ref.lockRun))),
    (let s : State := State.reset
     decide (((s.dpll ≠ 1 ∨ s.ref.fault = true ∨ s.ref.lockRun < s.lockWindows)))),
    (let s : State := State.reset
     decide ((s.alignOk = false))),
    (let s : State := (begun 24 (desc 0x100 0xFF 0 0 0) (having [(R.REF_PULSE_CFG, F.REF_PULSE_CFG_align_src, 1), (R.REF_SRC_CFG 0,
         F.REF_SRC_CFG_enable, 1), (R.REF_SRC_CFG 0, F.REF_SRC_CFG_freq, 0)]))
     let x : QEntry := (s.startedOp 24 0x100).getD (entry 0 noDesc)
     decide ((s.alignOk = true) ∧ (s.startedOp 24 0x100 = some x))),
    (let s : State := having [(R.REF_PULSE_CFG, F.REF_PULSE_CFG_align_src, 1)]
     decide ((s.alignOk = true) ∧ (s.startedOp 24 0x100 = none))),
    (let s : State := State.reset
     let k : Fin 4 := 2
     let mode := s.fld (R.REF_OUT_CFG k.val) F.REF_OUT_CFG_mode
     let c : Carrier := if k.val = 2 then .A else .B
     let due := if k.val < 2 then (s.ref.sent[k] < s.secondsDue k) else s.ref.sfSent[k] < s.outSfs k ∧ (mode = 1 ∨ (s.ref.sent[k] < s.secondsDue k))
     decide (((mode = 0 ∨ (2 ≤ k.val ∧ s.fld (R.TXP_STATE c) F.TXP_STATE_state ≠ 3) ∨ ¬ due)))),
    (let s : State := having [(R.REF_OUT_CFG 0, F.REF_OUT_CFG_mode, 1)]
     let k : Fin 4 := 0
     let mode := s.fld (R.REF_OUT_CFG k.val) F.REF_OUT_CFG_mode
     let c : Carrier := if k.val = 2 then .A else .B
     let due := if k.val < 2 then (s.ref.sent[k] < s.secondsDue k) else s.ref.sfSent[k] < s.outSfs k ∧ (mode = 1 ∨ (s.ref.sent[k] < s.secondsDue k))
     decide ((¬ (mode = 0 ∨ (2 ≤ k.val ∧ s.fld (R.TXP_STATE c) F.TXP_STATE_state ≠ 3) ∨ ¬ due)))),
    (let b0 : State := State.reset
     let d0 : Desc := desc 0x100 0 0 0 0
     let s : State := holding 24 d0 b0
     let e : QEntry := entry 24 d0
     let d := e.desc
     decide (s.startable 24 0x100 = some e ∧ (d.unit ≠ 0xFF))),
    (let b0 : State := State.reset
     let d0 : Desc := desc 0x100 255 0 0 0
     let s : State := holding 24 d0 b0
     let e : QEntry := entry 24 d0
     let u : State := begun 24 d0 b0
     let d := e.desc
     decide (s.startable 24 0x100 = some e ∧ (d.unit = 0xFF) ∧ (u.fld R.REF_PULSE_CFG F.REF_PULSE_CFG_align_src = 0))),
    (let b0 : State := having [(R.REF_PULSE_CFG, F.REF_PULSE_CFG_align_src, 4)]
     let d0 : Desc := desc 0x100 255 0 0 0
     let s : State := holding 24 d0 b0
     let e : QEntry := entry 24 d0
     let u : State := begun 24 d0 b0
     let d := e.desc
     decide (s.startable 24 0x100 = some e ∧ (d.unit = 0xFF) ∧ (u.fld R.REF_PULSE_CFG F.REF_PULSE_CFG_align_src ≠ 0))),
    (let b0 : State := State.reset
     let d0 : Desc := desc 0x101 0 0 0 0
     let s : State := holding 24 d0 b0
     let e : QEntry := entry 24 d0
     let d := e.desc
     let w := d.arg0 % 1024
     decide (s.startable 24 0x101 = some e ∧ ((refSource d.unit = false ∨ w = 0 ∨ 1000 < w)))),
    (let b0 : State := State.reset
     let d0 : Desc := desc 0x101 31 1000 0 0
     let s : State := holding 24 d0 b0
     let e : QEntry := entry 24 d0
     let u : State := begun 24 d0 b0
     let d := e.desc
     let w := d.arg0 % 1024
     decide (s.startable 24 0x101 = some e ∧ (¬ (refSource d.unit = false ∨ w = 0 ∨ 1000 < w)) ∧ (u.refOn d.unit = false))),
    (let b0 : State := having [(R.REF_SRC_CFG 31, F.REF_SRC_CFG_enable, 1)]
     let d0 : Desc := desc 0x101 31 1000 0 0
     let s : State := holding 24 d0 b0
     let e : QEntry := entry 24 d0
     let u : State := begun 24 d0 b0
     let d := e.desc
     let w := d.arg0 % 1024
     decide (s.startable 24 0x101 = some e ∧ (¬ (refSource d.unit = false ∨ w = 0 ∨ 1000 < w)) ∧ (u.refOn d.unit = true)))] : List Bool).all id = true := by decide +kernel

/-- States and operands that meet the hypotheses of PowerRows, clause by clause in the order of the statement. -/
theorem witness_PowerRows : ([
    (let s : State := State.reset
     let dom : Fin 7 := 6
     let n := dom.val + 3
     decide (((s.parkMode n = 0 ∨ s.domState n ≠ 0 ∨ (s.domEntry n).isSome = true ∨ s.levelWake n = true)))),
    (let s : State := having [(R.PWR_DOM_CFG 9, F.PWR_DOM_CFG_park_mode, 1)]
     let dom : Fin 7 := 6
     let recent : Option Byte := none
     let enclave : Bool := true
     let n := dom.val + 3
     let b : Nat := ((s.grantRefusal n recent enclave).getD (0, 0)).1
     let r : Nat := ((s.grantRefusal n recent enclave).getD (0, 0)).2
     decide ((¬ (s.parkMode n = 0 ∨ s.domState n ≠ 0 ∨ (s.domEntry n).isSome = true ∨ s.levelWake n = true)) ∧ (s.grantRefusal n recent enclave = some
         (b, r)))),
    (let s : State := having [(R.PWR_DOM_CFG 9, F.PWR_DOM_CFG_park_mode, 1)]
     let dom : Fin 7 := 6
     let recent : Option Byte := none
     let enclave : Bool := false
     let n := dom.val + 3
     decide ((¬ (s.parkMode n = 0 ∨ s.domState n ≠ 0 ∨ (s.domEntry n).isSome = true ∨ s.levelWake n = true)) ∧ (s.grantRefusal n recent enclave =
         none))),
    (let s : State := State.reset
     let dom : Fin 7 := 6
     let n := dom.val + 3
     decide ((s.domEntry n = none))),
    (let s : State := (State.reset).modDom 9 (fun x => { x with entry := some parking })
     let dom : Fin 7 := 6
     let n := dom.val + 3
     let en : PwrEntry := (s.domEntry n).getD parking
     let parked := (((s.modDom n (fun x => { x with entry := none, lateWake := false, entered := s.time.devtime })).setFld (R.PWR_DOM_STATE n)
         F.PWR_DOM_STATE_state en.target).setFld (R.PWR_DOM_STATE n) F.PWR_DOM_STATE_phase 0).addCnt (if en.target = 1 then R.PWR_MOOR_CNT n else
         R.PWR_LAYUP_CNT n) 1
     let lost := if en.target = 2 then parked.layLose n else parked
     decide ((s.domEntry n = some en) ∧ (en.ticket.bind lost.entryOf = none))),
    (let s : State := ((begun (25) (desc 0x101 255 0 0 0) (State.reset))).modDom 9 (fun x =>
         { x with entry := some { parking with ticket := some (mkTicket 1 1 25) } })
     let dom : Fin 7 := 6
     let n := dom.val + 3
     let en : PwrEntry := (s.domEntry n).getD parking
     let parked := (((s.modDom n (fun x => { x with entry := none, lateWake := false, entered := s.time.devtime })).setFld (R.PWR_DOM_STATE n)
         F.PWR_DOM_STATE_state en.target).setFld (R.PWR_DOM_STATE n) F.PWR_DOM_STATE_phase 0).addCnt (if en.target = 1 then R.PWR_MOOR_CNT n else
         R.PWR_LAYUP_CNT n) 1
     let lost := if en.target = 2 then parked.layLose n else parked
     let x : QEntry := (en.ticket.bind lost.entryOf).getD (entry 0 noDesc)
     decide ((s.domEntry n = some en) ∧ (en.ticket.bind lost.entryOf = some x))),
    (let b0 : State := { State.reset with part := .ctp2s }
     let d0 : Desc := desc 0x100 5 0 0 0
     let s : State := holding 25 d0 b0
     let e : QEntry := entry 25 d0
     let u : State := begun 25 d0 b0
     let d := e.desc.unit
     decide (s.startable 25 0x100 = some e ∧ (u.domState d = 3))),
    (let b0 : State := State.reset
     let d0 : Desc := desc 0x100 2 0 0 0
     let s : State := holding 25 d0 b0
     let e : QEntry := entry 25 d0
     let u : State := begun 25 d0 b0
     let d := e.desc.unit
     decide (s.startable 25 0x100 = some e ∧ (u.domState d ≠ 3) ∧ ((d < 3 ∨ 9 < d)))),
    (let b0 : State := State.reset
     let d0 : Desc := desc 0x100 5 0 0 0
     let s : State := holding 25 d0 b0
     let e : QEntry := entry 25 d0
     let u : State := begun 25 d0 b0
     let d := e.desc.unit
     let woken := u.wakeEvent d true 0x1D 7
     decide (s.startable 25 0x100 = some e ∧ (u.domState d ≠ 3) ∧ (3 ≤ d) ∧ (d ≤ 9) ∧ (woken.domState d = 0) ∧ ((woken.domEntry d).isNone = true))),
    (let b0 : State := (State.reset).modDom 9 (fun x => { x with entry := some parking })
     let d0 : Desc := desc 0x100 9 0 0 0
     let s : State := holding 25 d0 b0
     let e : QEntry := entry 25 d0
     let u : State := begun 25 d0 b0
     let d := e.desc.unit
     let woken := u.wakeEvent d true 0x1D 7
     decide (s.startable 25 0x100 = some e ∧ (u.domState d ≠ 3) ∧ (3 ≤ d) ∧ (d ≤ 9) ∧ ((woken.domState d ≠ 0 ∨ (woken.domEntry d).isNone = false)))),
    (let b0 : State := { State.reset with part := .ctp2s }
     let d0 : Desc := desc 0x101 5 0 0 0
     let s : State := holding 25 d0 b0
     let e : QEntry := entry 25 d0
     let u : State := begun 25 d0 b0
     let d := e.desc.unit
     decide (s.startable 25 0x101 = some e ∧ (u.domState d = 3))),
    (let b0 : State := State.reset
     let d0 : Desc := desc 0x101 5 0 0 0
     let s : State := holding 25 d0 b0
     let e : QEntry := entry 25 d0
     let u : State := begun 25 d0 b0
     let d := e.desc.unit
     let dest := e.desc.arg0 % 4
     decide (s.startable 25 0x101 = some e ∧ (u.domState d ≠ 3) ∧ ((d < 3 ∨ 9 < d ∨ dest = 0 ∨ dest = 3)))),
    (let b0 : State := (State.reset).modDom 9 (fun x => { x with entry := some parking })
     let d0 : Desc := desc 0x101 9 1 0 0
     let s : State := holding 25 d0 b0
     let e : QEntry := entry 25 d0
     let u : State := begun 25 d0 b0
     let d := e.desc.unit
     let dest := e.desc.arg0 % 4
     decide (s.startable 25 0x101 = some e ∧ (u.domState d ≠ 3) ∧ (¬ (d < 3 ∨ 9 < d ∨ dest = 0 ∨ dest = 3)) ∧ ((u.pwr.fault = true ∨ u.domState d ≠ 0 ∨
         (u.domEntry d).isSome = true)))),
    (let recent : Option Byte := none
     let enclave : Bool := true
     let b0 : State := State.reset
     let d0 : Desc := desc 0x101 5 1 0 0
     let s : State := holding 25 d0 b0
     let e : QEntry := entry 25 d0
     let u : State := begun 25 d0 b0
     let d := e.desc.unit
     let dest := e.desc.arg0 % 4
     let b : Nat := ((u.grantRefusal d recent enclave).getD (0, 0)).1
     let r : Nat := ((u.grantRefusal d recent enclave).getD (0, 0)).2
     decide (s.startable 25 0x101 = some e ∧ (u.domState d ≠ 3) ∧ (¬ (d < 3 ∨ 9 < d ∨ dest = 0 ∨ dest = 3)) ∧ (¬ (u.pwr.fault = true ∨ u.domState d ≠ 0 ∨
         (u.domEntry d).isSome = true)) ∧ (u.grantRefusal d recent enclave = some (b, r)))),
    (let recent : Option Byte := none
     let enclave : Bool := false
     let b0 : State := State.reset
     let d0 : Desc := desc 0x101 5 1 0 0
     let s : State := holding 25 d0 b0
     let e : QEntry := entry 25 d0
     let u : State := begun 25 d0 b0
     let d := e.desc.unit
     let dest := e.desc.arg0 % 4
     decide (s.startable 25 0x101 = some e ∧ (u.domState d ≠ 3) ∧ (¬ (d < 3 ∨ 9 < d ∨ dest = 0 ∨ dest = 3)) ∧ (¬ (u.pwr.fault = true ∨ u.domState d ≠ 0 ∨
         (u.domEntry d).isSome = true)) ∧ (u.grantRefusal d recent enclave = none))),
    (let s : State := { State.reset with pwr := { State.reset.pwr with avsBusy := true } }
     decide ((s.pwr.avsBusy = true))),
    (let s : State := State.reset
     decide ((s.pwr.avsBusy = false))),
    (let s : State := State.reset
     decide ((s.pwr.avsBusy = false))),
    (let s : State := { State.reset with pwr := { State.reset.pwr with avsBusy := true } }
     decide ((s.pwr.avsBusy = true))),
    (let s : State := { State.reset with pwr := { State.reset.pwr with avsBusy := true } }
     decide ((s.pwr.avsBusy = true) ∧ (s.pwr.avsRetry < 2))),
    (let s : State := { State.reset with pwr := { State.reset.pwr with avsBusy := true, avsRetry := 2 } }
     decide ((s.pwr.avsBusy = true) ∧ (2 ≤ s.pwr.avsRetry)))] : List Bool).all id = true := by decide +kernel

/-- States and operands that meet the hypotheses of MonitorRows, clause by clause in the order of the statement. -/
theorem witness_MonitorRows : ([
    (let s : State := State.reset
     let k : Fin 4 := 3
     let stopped := s.monStopped k
     decide ((((s.monTrig k ≠ 1 ∧ s.monTrig k ≠ 2) ∨ stopped = true)))),
    (let s : State := measuring { monReset with regDelay := true } (having [(R.MON_CFG 3, F.MON_CFG_reg_len, 1), (R.MON_CFG 3, F.MON_CFG_reg_trig,
         1)])
     let k : Fin 4 := 3
     let x := s.monMod k
     let stopped := s.monStopped k
     decide (((s.monTrig k = 1 ∨ s.monTrig k = 2)) ∧ (stopped = false) ∧ (((x.reg.isSome || x.inj.isSome || x.regDelay) = true)))),
    (let s : State := having [(R.MON_CFG 3, F.MON_CFG_reg_len, 1), (R.MON_CFG 3, F.MON_CFG_reg_trig, 1)]
     let k : Fin 4 := 3
     let x := s.monMod k
     let stopped := s.monStopped k
     decide (((s.monTrig k = 1 ∨ s.monTrig k = 2)) ∧ (stopped = false) ∧ (¬ ((x.reg.isSome || x.inj.isSome || x.regDelay) = true)))),
    (let s : State := State.reset
     let k : Fin 4 := 3
     let stopped := s.monStopped k
     decide (((s.monTrig k ≠ 3 ∨ stopped = true)))),
    (let s : State := having [(R.MON_CFG 3, F.MON_CFG_reg_len, 32), (R.MON_CFG 3, F.MON_CFG_reg_trig, 3)]
     let k : Fin 4 := 3
     let stopped := s.monStopped k
     decide ((s.monTrig k = 3) ∧ (stopped = false))),
    (let s : State := State.reset
     let k : Fin 4 := 3
     let timed := s.flag (R.MON_TRIG k.val) F.MON_TRIG_inj_tmr_en
     decide ((timed = false))),
    (let s : State := having [(R.MON_TRIG 3, F.MON_TRIG_inj_tmr_en, 1)]
     let k : Fin 4 := 3
     let stopped := s.monStopped k
     let timed := s.flag (R.MON_TRIG k.val) F.MON_TRIG_inj_tmr_en
     decide (((stopped = true ∨ s.fld (R.MON_CFG k.val) F.MON_CFG_inj_len = 0)) ∧ (timed = true))),
    (let s : State := State.reset
     let k : Fin 4 := 3
     let stopped := s.monStopped k
     decide (((stopped = true ∨ s.fld (R.MON_CFG k.val) F.MON_CFG_inj_len = 0)))),
    (let s : State := measuring { monReset with inj := some 0 } (having [(R.MON_TRIG 3, F.MON_TRIG_inj_tmr_en, 1), (R.MON_CFG 3, F.MON_CFG_reg_len,
         1), (R.MON_CFG 3, F.MON_CFG_inj_len, 1)])
     let k : Fin 4 := 3
     let x := s.monMod k
     let stopped := s.monStopped k
     let timed := s.flag (R.MON_TRIG k.val) F.MON_TRIG_inj_tmr_en
     decide ((¬ (stopped = true ∨ s.fld (R.MON_CFG k.val) F.MON_CFG_inj_len = 0)) ∧ ((x.inj.isSome || x.injDelay) = true) ∧ (timed = true))),
    (let s : State := measuring { monReset with inj := some 0 } (having [(R.MON_TRIG 3, F.MON_TRIG_inj_tmr_en, 1), (R.MON_CFG 3, F.MON_CFG_reg_len,
         1), (R.MON_CFG 3, F.MON_CFG_inj_len, 1)])
     let k : Fin 4 := 3
     let x := s.monMod k
     let stopped := s.monStopped k
     decide ((¬ (stopped = true ∨ s.fld (R.MON_CFG k.val) F.MON_CFG_inj_len = 0)) ∧ ((x.inj.isSome || x.injDelay) = true))),
    (let s : State := having [(R.MON_TRIG 3, F.MON_TRIG_inj_tmr_en, 1), (R.MON_CFG 3, F.MON_CFG_reg_len, 1), (R.MON_CFG 3, F.MON_CFG_inj_len, 1)]
     let k : Fin 4 := 3
     let x := s.monMod k
     let stopped := s.monStopped k
     let timed := s.flag (R.MON_TRIG k.val) F.MON_TRIG_inj_tmr_en
     decide ((¬ (stopped = true ∨ s.fld (R.MON_CFG k.val) F.MON_CFG_inj_len = 0)) ∧ ((x.inj.isSome || x.injDelay) = false) ∧ (timed = true))),
    (let s : State := having [(R.MON_TRIG 3, F.MON_TRIG_inj_tmr_en, 1), (R.MON_CFG 3, F.MON_CFG_reg_len, 1), (R.MON_CFG 3, F.MON_CFG_inj_len, 1)]
     let k : Fin 4 := 3
     let x := s.monMod k
     let stopped := s.monStopped k
     decide ((¬ (stopped = true ∨ s.fld (R.MON_CFG k.val) F.MON_CFG_inj_len = 0)) ∧ ((x.inj.isSome || x.injDelay) = false))),
    (let s : State := State.reset
     let k : Fin 4 := 3
     let results : List (BitVec 24) := []
     let stopped := s.monStopped k
     decide (((stopped = true ∨ results.length ≠ s.entryCount k)))),
    (let s : State := measuring { monReset with inj := some 0 } (having [(R.MON_TRIG 3, F.MON_TRIG_inj_tmr_en, 1), (R.MON_CFG 3, F.MON_CFG_reg_len,
         1), (R.MON_CFG 3, F.MON_CFG_inj_len, 1)])
     let k : Fin 4 := 3
     let results : List (BitVec 24) := [0]
     let x := s.monMod k
     let stopped := s.monStopped k
     let j : Nat := (x.inj).getD 0
     decide ((stopped = false) ∧ (results.length = s.entryCount k) ∧ (x.inj = some j))),
    (let s : State := measuring { monReset with reg := some 0 } (having [(R.MON_CFG 3, F.MON_CFG_reg_len, 1)])
     let k : Fin 4 := 3
     let results : List (BitVec 24) := [0]
     let x := s.monMod k
     let stopped := s.monStopped k
     let j : Nat := (x.reg).getD 0
     decide ((stopped = false) ∧ (results.length = s.entryCount k) ∧ (x.inj = none) ∧ (x.reg = some j))),
    (let s : State := State.reset
     let k : Fin 4 := 3
     let x := s.monMod k
     decide ((x.inj = none) ∧ (x.reg = none))),
    (let b0 : State := State.reset
     let d0 : Desc := desc 0x100 0 0 0 0
     let s : State := holding 26 d0 b0
     let e : QEntry := entry 26 d0
     let d := e.desc
     decide (s.startable 26 0x100 = some e ∧ (d.unit ≠ 0xFF))),
    (let b0 : State := State.reset
     let d0 : Desc := desc 0x100 255 0 0 0
     let s : State := holding 26 d0 b0
     let e : QEntry := entry 26 d0
     let d := e.desc
     decide (s.startable 26 0x100 = some e ∧ (d.unit = 0xFF))),
    (let b0 : State := State.reset
     let d0 : Desc := desc 0x101 0 0 0 0
     let s : State := holding 26 d0 b0
     let e : QEntry := entry 26 d0
     let u : State := begun 26 d0 b0
     let d := e.desc
     let nf := d.arg1 % 256
     let set := d.arg1 / 4096 % 8
     let coef := u.coefs d.arg0 nf
     decide (s.startable 26 0x101 = some e ∧ ((3 < d.unit ∨ 4 < set ∨ (set = 0 ∧ (nf = 0 ∨ bufferOk d.arg0 (4 * nf) = false ∨ ((d.arg1 / 256 % 2 = 0)
         ∧ coef.reverse ≠ coef))))))),
    (let b0 : State := State.reset
     let d0 : Desc := desc 0x101 3 0x01000000 1 0
     let s : State := holding 26 d0 b0
     let e : QEntry := entry 26 d0
     let u : State := begun 26 d0 b0
     let d := e.desc
     let nf := d.arg1 % 256
     let set := d.arg1 / 4096 % 8
     let coef := u.coefs d.arg0 nf
     let f := Fin.ofNat 4 d.unit
     decide (s.startable 26 0x101 = some e ∧ (¬ (3 < d.unit ∨ 4 < set ∨ (set = 0 ∧ (nf = 0 ∨ bufferOk d.arg0 (4 * nf) = false ∨ ((d.arg1 / 256 % 2 =
         0) ∧ coef.reverse ≠ coef))))) ∧ ((u.monHeld d = false ∨ u.firActs f = true)))),
    (let b0 : State := { State.reset with claims := [(0x23, { holder := .harbour, func := 0 })] }
     let d0 : Desc := desc 0x101 3 0x01000000 1 0
     let s : State := holding 26 d0 b0
     let e : QEntry := entry 26 d0
     let u : State := begun 26 d0 b0
     let d := e.desc
     let nf := d.arg1 % 256
     let set := d.arg1 / 4096 % 8
     let coef := u.coefs d.arg0 nf
     let f := Fin.ofNat 4 d.unit
     decide (s.startable 26 0x101 = some e ∧ (¬ (3 < d.unit ∨ 4 < set ∨ (set = 0 ∧ (nf = 0 ∨ bufferOk d.arg0 (4 * nf) = false ∨ ((d.arg1 / 256 % 2 =
         0) ∧ coef.reverse ≠ coef))))) ∧ (u.monHeld d = true) ∧ (u.firActs f = false) ∧ (set = 0))),
    (let b0 : State := { State.reset with claims := [(0x23, { holder := .harbour, func := 0 })] }
     let d0 : Desc := desc 0x101 3 0 0x4000 0
     let s : State := holding 26 d0 b0
     let e : QEntry := entry 26 d0
     let u : State := begun 26 d0 b0
     let d := e.desc
     let nf := d.arg1 % 256
     let set := d.arg1 / 4096 % 8
     let coef := u.coefs d.arg0 nf
     let f := Fin.ofNat 4 d.unit
     decide (s.startable 26 0x101 = some e ∧ (¬ (3 < d.unit ∨ 4 < set ∨ (set = 0 ∧ (nf = 0 ∨ bufferOk d.arg0 (4 * nf) = false ∨ ((d.arg1 / 256 % 2 =
         0) ∧ coef.reverse ≠ coef))))) ∧ (u.monHeld d = true) ∧ (u.firActs f = false) ∧ (set ≠ 0))),
    (let b0 : State := State.reset
     let d0 : Desc := desc 0x102 0 0 0 0
     let s : State := holding 26 d0 b0
     let e : QEntry := entry 26 d0
     let d := e.desc
     let nc := d.arg1 % 8192
     decide (s.startable 26 0x102 = some e ∧ ((3 < d.unit ∨ nc = 0 ∨ 4096 < nc ∨ bufferOk d.arg0 (4 * nc) = false)))),
    (let b0 : State := State.reset
     let d0 : Desc := desc 0x102 3 0x01000000 1 0
     let s : State := holding 26 d0 b0
     let e : QEntry := entry 26 d0
     let u : State := begun 26 d0 b0
     let d := e.desc
     let f := Fin.ofNat 4 d.unit
     let nc := d.arg1 % 8192
     decide (s.startable 26 0x102 = some e ∧ (¬ (3 < d.unit ∨ nc = 0 ∨ 4096 < nc ∨ bufferOk d.arg0 (4 * nc) = false)) ∧ ((u.monHeld d = false ∨
         u.monStopped f = true)))),
    (let b0 : State :=
         { having [(R.MON_CFG 3, F.MON_CFG_fir_en, 1), (R.MON_CFG 3, F.MON_CFG_reg_len, 1)] with claims := [(0x23, { holder := .harbour, func := 0 })] }
     let d0 : Desc := desc 0x102 3 0x01000000 1 0
     let s : State := holding 26 d0 b0
     let e : QEntry := entry 26 d0
     let u : State := begun 26 d0 b0
     let d := e.desc
     let f := Fin.ofNat 4 d.unit
     let nc := d.arg1 % 8192
     decide (s.startable 26 0x102 = some e ∧ (¬ (3 < d.unit ∨ nc = 0 ∨ 4096 < nc ∨ bufferOk d.arg0 (4 * nc) = false)) ∧ (u.monHeld d = true) ∧
         (u.monStopped f = false)))] : List Bool).all id = true := by decide +kernel

/-- States and operands that meet the hypotheses of AnnealerRows, clause by clause in the order of the statement. -/
theorem witness_AnnealerRows : ([
    (let s : State := State.reset
     let w : Fin 4 := 3
     decide ((s.anlNext w = none))),
    (let s : State := having [(R.ANL_STATE, F.ANL_STATE_pending, 2^15)]
     let w : Fin 4 := 3
     let n : Nat := (s.anlNext w).getD 0
     decide ((s.anlNext w = some n) ∧ ((s.anl.fault = true ∨ s.flag R.ANL_STATE F.ANL_STATE_held = true ∨ (s.anl.units[w]).isSome = true ∨ s.convState
         n = 0)))),
    (let s : State := having [(R.ANL_STATE, F.ANL_STATE_pending, 2^15), (R.TXP_STATE .B, F.TXP_STATE_state, 3)]
     let w : Fin 4 := 3
     let n : Nat := (s.anlNext w).getD 0
     decide ((s.anlNext w = some n) ∧ (¬ (s.anl.fault = true ∨ s.flag R.ANL_STATE F.ANL_STATE_held = true ∨ (s.anl.units[w]).isSome = true ∨
         s.convState n = 0)))),
    (let s : State := State.reset
     let w : Fin 4 := 3
     decide ((s.anl.units[w] = none))),
    (let s : State := State.reset
     let w : Fin 4 := 3
     decide ((s.anl.units[w] = none))),
    (let s : State := State.reset
     let w : Fin 4 := 3
     decide ((s.anl.units[w] = none))),
    (let s : State := calibrating 3 (calibration 15 1 false) (State.reset)
     let w : Fin 4 := 3
     let r : AnlRun := (s.anl.units[w]).getD (calibration 0 0 false)
     decide (((s.anl.units[w] = some r)) ∧ (r.phase ≠ 0))),
    (let s : State := calibrating 3 (calibration 15 0 true) (State.reset)
     let w : Fin 4 := 3
     let r : AnlRun := (s.anl.units[w]).getD (calibration 0 0 false)
     decide (((s.anl.units[w] = some r)) ∧ (r.phase = 0) ∧ (r.idle ≠ s.convIdle r.v))),
    (let s : State := calibrating 2 (calibration 7 0 false) (having [(R.RXF_STATE .B, F.RXF_STATE_los, 1), (R.RXF_STATE .B, F.RXF_STATE_state, 3)])
     let w : Fin 4 := 2
     let r : AnlRun := (s.anl.units[w]).getD (calibration 0 0 false)
     let tx := convTx r.v
     decide (((s.anl.units[w] = some r)) ∧ (r.phase = 0) ∧ (r.idle = s.convIdle r.v) ∧ (tx = false) ∧ (r.idle = false) ∧ ((s.flag (R.RXF_STATE
         (convCarrier r.v)) F.RXF_STATE_los = true ∨ s.fld (R.RXF_LANE_RMS (convCarrier r.v) (r.v % 4)) F.RXF_LANE_RMS_rms < 4096)))),
    (let s : State := calibrating 3 (calibration 15 0 false) (State.reset)
     let w : Fin 4 := 3
     let r : AnlRun := (s.anl.units[w]).getD (calibration 0 0 false)
     let tx := convTx r.v
     decide (((s.anl.units[w] = some r)) ∧ (r.phase = 0) ∧ (r.idle = s.convIdle r.v) ∧ ((tx = true ∨ r.idle = true ∨ ¬ (s.flag (R.RXF_STATE
         (convCarrier r.v)) F.RXF_STATE_los = true ∨ s.fld (R.RXF_LANE_RMS (convCarrier r.v) (r.v % 4)) F.RXF_LANE_RMS_rms < 4096))))),
    (let s : State := calibrating 3 (calibration 15 0 false) (State.reset)
     let w : Fin 4 := 3
     let r : AnlRun := (s.anl.units[w]).getD (calibration 0 0 false)
     decide (((s.anl.units[w] = some r)) ∧ ((r.phase ≠ 1 ∨ s.anl.fault = true)))),
    (let s : State := calibrating 3 (calibration 15 1 false) (State.reset)
     let w : Fin 4 := 3
     let r : AnlRun := (s.anl.units[w]).getD (calibration 0 0 false)
     decide (((s.anl.units[w] = some r)) ∧ (r.phase = 1) ∧ (s.anl.fault = false))),
    (let s : State := calibrating 3 (calibration 15 0 false) (State.reset)
     let w : Fin 4 := 3
     let r : AnlRun := (s.anl.units[w]).getD (calibration 0 0 false)
     decide (((s.anl.units[w] = some r)))),
    (let s : State :=
         { State.reset with anl := { State.reset.anl with table := [(72 * 15 + 71, { inUse := true, failed := false, comp1 := false, comp0Fail := false, comp1Fail := false, phase := 0, trim0 := 0, trim1 := 0, trim2 := 0, err := 0 })] } }
     let v : Fin 16 := 0
     let elem : Fin 72 := 71
     let x := s.anlElem v.val elem.val
     decide (((s.convPresent v.val = false ∨ s.anl.fault = true ∨ x.inUse = false ∨ x.failed = true)))),
    (let s : State := State.reset
     let v : Fin 16 := 15
     let elem : Fin 72 := 0
     let x := s.anlElem v.val elem.val
     decide ((¬ (s.convPresent v.val = false ∨ s.anl.fault = true ∨ x.inUse = false ∨ x.failed = true)))),
    (let b0 : State := State.reset
     let d0 : Desc := desc 0x100 16 0 0 0
     let s : State := holding 27 d0 b0
     let e : QEntry := entry 27 d0
     let d := e.desc
     decide (s.startable 27 0x100 = some e ∧ (16 ≤ d.unit) ∧ (d.unit ≠ 0xFF))),
    (let b0 : State := { State.reset with part := .ctp2s }
     let d0 : Desc := desc 0x100 7 0 0 0
     let s : State := holding 27 d0 b0
     let e : QEntry := entry 27 d0
     let u : State := begun 27 d0 b0
     let d := e.desc
     decide (s.startable 27 0x100 = some e ∧ (d.unit < 16) ∧ (u.convPresent d.unit = false))),
    (let b0 : State := having [(R.ANL_STATE, F.ANL_STATE_held, 1)]
     let d0 : Desc := desc 0x100 7 0 0 0
     let s : State := holding 27 d0 b0
     let e : QEntry := entry 27 d0
     let u : State := begun 27 d0 b0
     let d := e.desc
     decide (s.startable 27 0x100 = some e ∧ ((d.unit = 0xFF ∨ (d.unit < 16 ∧ u.convPresent d.unit = true))) ∧ (u.flag R.ANL_STATE F.ANL_STATE_held =
         true))),
    (let b0 : State := State.reset
     let d0 : Desc := desc 0x100 7 0 0 0
     let s : State := holding 27 d0 b0
     let e : QEntry := entry 27 d0
     let u : State := begun 27 d0 b0
     let d := e.desc
     decide (s.startable 27 0x100 = some e ∧ ((d.unit = 0xFF ∨ (d.unit < 16 ∧ u.convPresent d.unit = true))) ∧ (u.flag R.ANL_STATE F.ANL_STATE_held =
         false))),
    (let b0 : State := State.reset
     let d0 : Desc := desc 0x101 16 0 0 0
     let s : State := holding 27 d0 b0
     let e : QEntry := entry 27 d0
     let d := e.desc
     decide (s.startable 27 0x101 = some e ∧ (d.unit ≠ 0xFF))),
    (let b0 : State := State.reset
     let d0 : Desc := desc 0x101 255 0 0 0
     let s : State := holding 27 d0 b0
     let e : QEntry := entry 27 d0
     let d := e.desc
     decide (s.startable 27 0x101 = some e ∧ (d.unit = 0xFF))),
    (let b0 : State := State.reset
     let d0 : Desc := desc 0x102 16 0 0 0
     let s : State := holding 27 d0 b0
     let e : QEntry := entry 27 d0
     let d := e.desc
     let el := d.arg0 % 128
     decide (s.startable 27 0x102 = some e ∧ ((71 < el ∨ 15 < d.unit)))),
    (let b0 : State := calibrating 3 (calibration 15 0 false) (State.reset)
     let d0 : Desc := desc 0x102 15 0 0 0
     let s : State := holding 27 d0 b0
     let e : QEntry := entry 27 d0
     let u : State := begun 27 d0 b0
     let d := e.desc
     let el := d.arg0 % 128
     decide (s.startable 27 0x102 = some e ∧ (el ≤ 71) ∧ (d.unit ≤ 15) ∧ ((u.anl.units[convUnit d.unit]).map (·.v) = some d.unit))),
    (let b0 : State := State.reset
     let d0 : Desc := desc 0x102 7 0 0 0
     let s : State := holding 27 d0 b0
     let e : QEntry := entry 27 d0
     let u : State := begun 27 d0 b0
     let d := e.desc
     let el := d.arg0 % 128
     decide (s.startable 27 0x102 = some e ∧ (el ≤ 71) ∧ (d.unit ≤ 15) ∧ ((u.anl.units[convUnit d.unit]).map (·.v) ≠ some d.unit))),
    (let b0 : State := { State.reset with part := .ctp2s }
     let d0 : Desc := desc 0x103 7 0 0 0
     let s : State := holding 27 d0 b0
     let e : QEntry := entry 27 d0
     let u : State := begun 27 d0 b0
     let d := e.desc
     decide (s.startable 27 0x103 = some e ∧ (d.unit < 16) ∧ (u.convPresent d.unit = false))),
    (let b0 : State := State.reset
     let d0 : Desc := desc 0x103 16 0 0 0
     let s : State := holding 27 d0 b0
     let e : QEntry := entry 27 d0
     let u : State := begun 27 d0 b0
     let d := e.desc
     decide (s.startable 27 0x103 = some e ∧ ((d.unit < 16 → u.convPresent d.unit = true)) ∧ ((15 < d.unit ∨ bufferOk d.arg0 576 = false)))),
    (let b0 : State := State.reset
     let d0 : Desc := desc 0x103 15 0x01000000 0 0
     let s : State := holding 27 d0 b0
     let e : QEntry := entry 27 d0
     let u : State := begun 27 d0 b0
     let d := e.desc
     decide (s.startable 27 0x103 = some e ∧ (d.unit < 16) ∧ (u.convPresent d.unit = true) ∧ (bufferOk d.arg0 576 = true)))] : List Bool).all id = true := by decide +kernel

/-- States and operands that meet the hypotheses of IntegrityRows, clause by clause in the order of the statement. -/
theorem witness_IntegrityRows : ([
    (let s : State := (begun (28) (desc 0x100 255 0 0 0) (State.reset))
     decide (((s.startedOp 28 0x100).isSome = true))),
    (let b0 : State := State.reset
     let d0 : Desc := desc 0x100 9 0 8 0x01000000
     let s : State := holding 28 d0 b0
     let e : QEntry := entry 28 d0
     let d := e.desc
     let len := d.arg1 % 2 ^ 25
     decide (((s.startedOp 28 0x100).isSome = false) ∧ s.startable 28 0x100 = some e ∧ ((9 ≤ d.unit ∨ (d.arg0 % 8 ≠ 0 ∨ len % 8 ≠ 0 ∨ len < 8 ∨ 2 ^ 24
         < len) ∨ scrubSize d.unit < d.arg0 + len ∨ bufferOk d.arg2 32 = false)))),
    (let b0 : State := { State.reset with ecc := { State.reset.ecc with fault := true } }
     let d0 : Desc := desc 0x100 8 0 524288 0x01000000
     let s : State := holding 28 d0 b0
     let e : QEntry := entry 28 d0
     let u : State := begun 28 d0 b0
     let d := e.desc
     let len := d.arg1 % 2 ^ 25
     decide (((s.startedOp 28 0x100).isSome = false) ∧ s.startable 28 0x100 = some e ∧ (¬ (9 ≤ d.unit ∨ (d.arg0 % 8 ≠ 0 ∨ len % 8 ≠ 0 ∨ len < 8 ∨ 2 ^
         24 < len) ∨ scrubSize d.unit < d.arg0 + len ∨ bufferOk d.arg2 32 = false)) ∧ (u.ecc.fault = true))),
    (let b0 : State := State.reset
     let d0 : Desc := desc 0x100 8 0 524288 0x01000000
     let s : State := holding 28 d0 b0
     let e : QEntry := entry 28 d0
     let u : State := begun 28 d0 b0
     let d := e.desc
     let len := d.arg1 % 2 ^ 25
     decide (((s.startedOp 28 0x100).isSome = false) ∧ s.startable 28 0x100 = some e ∧ (¬ (9 ≤ d.unit ∨ (d.arg0 % 8 ≠ 0 ∨ len % 8 ≠ 0 ∨ len < 8 ∨ 2 ^
         24 < len) ∨ scrubSize d.unit < d.arg0 + len ∨ bufferOk d.arg2 32 = false)) ∧ (u.ecc.fault = false))),
    (let b0 : State := State.reset
     let d0 : Desc := desc 0x101 9 0 8 0x01000000
     let s : State := holding 28 d0 b0
     let e : QEntry := entry 28 d0
     let d := e.desc
     let n := d.arg1 % 1024
     decide (s.startable 28 0x101 = some e ∧ ((d.unit ≠ 0xFF ∨ n = 0 ∨ bufferOk d.arg0 (16 * n) = false)))),
    (let b0 : State := State.reset
     let d0 : Desc := desc 0x101 255 0x01000000 1023 0
     let s : State := holding 28 d0 b0
     let e : QEntry := entry 28 d0
     let d := e.desc
     let n := d.arg1 % 1024
     decide (s.startable 28 0x101 = some e ∧ (¬ (d.unit ≠ 0xFF ∨ n = 0 ∨ bufferOk d.arg0 (16 * n) = false)))),
    (let s : State := (begun (29) (desc 0x100 255 0 0 0) (State.reset))
     decide (((s.startedOp 29 0x100).isSome = true))),
    (let b0 : State := State.reset
     let d0 : Desc := desc 0x100 9 0 8 0x01000000
     let s : State := holding 29 d0 b0
     let e : QEntry := entry 29 d0
     let d := e.desc
     let len := d.arg1 % 2 ^ 25
     decide (((s.startedOp 29 0x100).isSome = false) ∧ s.startable 29 0x100 = some e ∧ ((d.unit ≠ 0xFF ∨ (d.arg0 % 8 ≠ 0 ∨ len % 8 ≠ 0 ∨ len < 8 ∨ 2 ^
         24 < len) ∨ scanSpan d.arg0 len = false)))),
    (let b0 : State := { State.reset with ecc := { State.reset.ecc with scuFault := true } }
     let d0 : Desc := desc 0x100 255 0x7FFFF8 8 0x01000000
     let s : State := holding 29 d0 b0
     let e : QEntry := entry 29 d0
     let u : State := begun 29 d0 b0
     let d := e.desc
     let len := d.arg1 % 2 ^ 25
     decide (((s.startedOp 29 0x100).isSome = false) ∧ s.startable 29 0x100 = some e ∧ (¬ (d.unit ≠ 0xFF ∨ (d.arg0 % 8 ≠ 0 ∨ len % 8 ≠ 0 ∨ len < 8 ∨ 2
         ^ 24 < len) ∨ scanSpan d.arg0 len = false)) ∧ (u.ecc.scuFault = true))),
    (let b0 : State := State.reset
     let d0 : Desc := desc 0x100 255 0x7FFFF8 8 0x01000000
     let s : State := holding 29 d0 b0
     let e : QEntry := entry 29 d0
     let u : State := begun 29 d0 b0
     let d := e.desc
     let len := d.arg1 % 2 ^ 25
     decide (((s.startedOp 29 0x100).isSome = false) ∧ s.startable 29 0x100 = some e ∧ (¬ (d.unit ≠ 0xFF ∨ (d.arg0 % 8 ≠ 0 ∨ len % 8 ≠ 0 ∨ len < 8 ∨ 2
         ^ 24 < len) ∨ scanSpan d.arg0 len = false)) ∧ (u.ecc.scuFault = false)))] : List Bool).all id = true := by decide +kernel

/-- States and operands that meet the hypotheses of ObservationRows, clause by clause in the order of the statement. -/
theorem witness_ObservationRows : ([
    (let s : State := State.reset
     decide ((s.obs.capture = none))),
    (let s : State := { State.reset with obs := { State.reset.obs with capture := some capturing } }
     let c : ObsCapture := (s.obs.capture).getD capturing
     decide ((s.obs.capture = some c))),
    (let s : State := having [(R.PLT_STATUS, F.PLT_STATUS_active, 2)]
     decide ((s.active = none))),
    (let s : State := State.reset
     let k : CoreId := (s.active).getD .A
     decide ((s.active = some k) ∧ (¬ ((s.flag R.OBS_SMP_CFG F.OBS_SMP_CFG_enable = true) ∧ s.tagDue = true)))),
    (let s : State :=
         { having [(R.OBS_SMP_CFG, F.OBS_SMP_CFG_enable, 1)] with coreA := { State.reset.coreA with retired := 1048576 }, obs := { State.reset.obs with samples := List.replicate 4096 [] } }
     let tagged : State := { s with obs := { s.obs with tagAt := s.retiredAll } }
     let k : CoreId := (s.active).getD .A
     decide ((s.active = some k) ∧ (((s.flag R.OBS_SMP_CFG F.OBS_SMP_CFG_enable = true) ∧ s.tagDue = true)) ∧ ((4096 ≤ s.obs.samples.length ∧
         tagged.flag R.OBS_SMP_CFG F.OBS_SMP_CFG_wrap = false)))),
    (let s : State :=
         { having [(R.OBS_SMP_CFG, F.OBS_SMP_CFG_enable, 1)] with coreA := { State.reset.coreA with retired := 1048576 }, obs := { State.reset.obs with samples := List.replicate 4095 [] } }
     let tagged : State := { s with obs := { s.obs with tagAt := s.retiredAll } }
     let k : CoreId := (s.active).getD .A
     decide ((s.active = some k) ∧ (((s.flag R.OBS_SMP_CFG F.OBS_SMP_CFG_enable = true) ∧ s.tagDue = true)) ∧ (¬ (4096 ≤ s.obs.samples.length ∧
         tagged.flag R.OBS_SMP_CFG F.OBS_SMP_CFG_wrap = false)))),
    (let b0 : State := State.reset
     let d0 : Desc := desc 0x100 255 0x01000000 0x10003 0
     let s : State := holding 30 d0 b0
     let e : QEntry := entry 30 d0
     let d := e.desc
     let first := d.arg1 % 8192
     let n := d.arg1 / 65536 % 16384
     decide (s.startable 30 0x100 = some e ∧ ((d.unit ≠ 0xFF ∨ first < 4 ∨ n = 0 ∨ 4096 < n ∨ 8190 < first + n - 1 ∨ bufferOk d.arg0 (4 * n) =
         false)))),
    (let b0 : State := State.reset
     let d0 : Desc := desc 0x100 255 0x01000000 (4+65536) 0
     let s : State := holding 30 d0 b0
     let e : QEntry := entry 30 d0
     let d := e.desc
     let first := d.arg1 % 8192
     let n := d.arg1 / 65536 % 16384
     decide (s.startable 30 0x100 = some e ∧ (¬ (d.unit ≠ 0xFF ∨ first < 4 ∨ n = 0 ∨ 4096 < n ∨ 8190 < first + n - 1 ∨ bufferOk d.arg0 (4 * n) =
         false)))),
    (let b0 : State := State.reset
     let d0 : Desc := desc 0x101 255 0x01000000 (8190+65536) 0
     let s : State := holding 30 d0 b0
     let e : QEntry := entry 30 d0
     let d := e.desc
     let first := d.arg1 % 8192
     decide (s.startable 30 0x101 = some e ∧ ((d.unit ≠ 0xFF ∨ first = 0 ∨ 4096 < first ∨ bufferOk d.arg0 (32 * first) = false)))),
    (let b0 : State := State.reset
     let d0 : Desc := desc 0x101 255 0x01000000 0x10003 0
     let s : State := holding 30 d0 b0
     let e : QEntry := entry 30 d0
     let d := e.desc
     let first := d.arg1 % 8192
     decide (s.startable 30 0x101 = some e ∧ (¬ (d.unit ≠ 0xFF ∨ first = 0 ∨ 4096 < first ∨ bufferOk d.arg0 (32 * first) = false))))] : List Bool).all id = true := by decide +kernel

/-- States and operands that meet the hypotheses of LogbookRows, clause by clause in the order of the statement. -/
theorem witness_LogbookRows : ([
    (let s : State := { State.reset with log := { logReset with fault := true } }
     decide ((s.log.fault = true))),
    (let s : State := { State.reset with log := { logReset with fault := true } }
     decide ((s.log.fault = true))),
    (let s : State := State.reset
     decide ((s.log.fault = false))),
    (let s : State := State.reset
     decide ((s.log.fault = false))),
    (let s : State := State.reset
     decide ((nextStaged s.log.staged = none))),
    (let s : State := { State.reset with log := { logReset with staged := [staged] } }
     let x : LogEntry := ((nextStaged s.log.staged).getD (staged, [])).1
     let rest : List LogEntry := ((nextStaged s.log.staged).getD (staged, [])).2
     decide ((nextStaged s.log.staged = some (x, rest)) ∧ (s.logRuns = false))),
    (let s : State :=
         { having [(R.LOG_STATE, F.LOG_STATE_state, 2), (R.LOG_CFG, F.LOG_CFG_enable, 1), (R.SEC_STATE, F.SEC_STATE_state, 1)] with log := { logReset with staged := [staged] } }
     let x : LogEntry := ((nextStaged s.log.staged).getD (staged, [])).1
     let rest : List LogEntry := ((nextStaged s.log.staged).getD (staged, [])).2
     decide ((nextStaged s.log.staged = some (x, rest)) ∧ (s.logRuns = true))),
    (let s : State :=
         { having [(R.LOG_STATE, F.LOG_STATE_state, 2), (R.LOG_CFG, F.LOG_CFG_enable, 1), (R.SEC_STATE, F.SEC_STATE_state, 1)] with log := { logReset with staged := [staged] } }
     let x : LogEntry := ((nextStaged s.log.staged).getD (staged, [])).1
     let rest : List LogEntry := ((nextStaged s.log.staged).getD (staged, [])).2
     decide ((nextStaged s.log.staged = some (x, rest)) ∧ (s.logRuns = true))),
    (let s : State := State.reset
     decide ((¬ (s.fld R.LOG_STATE F.LOG_STATE_state = 1 ∧ s.log.fault = false)))),
    (let s : State := having [(R.LOG_STATE, F.LOG_STATE_state, 1)]
     decide (((s.fld R.LOG_STATE F.LOG_STATE_state = 1 ∧ s.log.fault = false)))),
    (let b0 : State := State.reset
     let d0 : Desc := desc 0x100 0 0x01000000 0 0
     let s : State := holding 31 d0 b0
     let e : QEntry := entry 31 d0
     let d := e.desc
     decide (s.startable 31 0x100 = some e ∧ (d.unit ≠ 0xFF))),
    (let b0 : State := State.reset
     let d0 : Desc := desc 0x100 255 0x01000000 0 0
     let s : State := holding 31 d0 b0
     let e : QEntry := entry 31 d0
     let u : State := begun 31 d0 b0
     let d := e.desc
     decide (s.startable 31 0x100 = some e ∧ (d.unit = 0xFF) ∧ (u.fld R.LOG_STATE F.LOG_STATE_state ≠ 2))),
    (let b0 : State :=
         { having [(R.LOG_STATE, F.LOG_STATE_state, 2), (R.LOG_CFG, F.LOG_CFG_enable, 1), (R.SEC_STATE, F.SEC_STATE_state, 1)] with log := { logReset with staged := [staged] } }
     let d0 : Desc := desc 0x100 255 0x01000000 0 0
     let s : State := holding 31 d0 b0
     let e : QEntry := entry 31 d0
     let u : State := begun 31 d0 b0
     let d := e.desc
     decide (s.startable 31 0x100 = some e ∧ (d.unit = 0xFF) ∧ (u.fld R.LOG_STATE F.LOG_STATE_state = 2))),
    (let b0 : State := State.reset
     let d0 : Desc := desc 0x101 0 0x01000000 0 0
     let s : State := holding 31 d0 b0
     let e : QEntry := entry 31 d0
     decide (s.startable 31 0x101 = some e)),
    (let b0 : State := State.reset
     let d0 : Desc := desc 0x102 0 0x01000000 0 0
     let s : State := holding 31 d0 b0
     let e : QEntry := entry 31 d0
     let d := e.desc
     decide (s.startable 31 0x102 = some e ∧ ((d.unit ≠ 0xFF ∨ bufferOk d.arg0 216 = false)))),
    (let b0 : State := State.reset
     let d0 : Desc := desc 0x102 255 0x01000000 0 0
     let s : State := holding 31 d0 b0
     let e : QEntry := entry 31 d0
     let u : State := begun 31 d0 b0
     let d := e.desc
     decide (s.startable 31 0x102 = some e ∧ (d.unit = 0xFF) ∧ (bufferOk d.arg0 216 = true) ∧ (u.flag R.LOG_CFG F.LOG_CFG_enable = false))),
    (let b0 : State :=
         { having [(R.LOG_STATE, F.LOG_STATE_state, 2), (R.LOG_CFG, F.LOG_CFG_enable, 1), (R.SEC_STATE, F.SEC_STATE_state, 1)] with log := { logReset with staged := [staged] } }
     let d0 : Desc := desc 0x102 255 0x01000000 0 0
     let s : State := holding 31 d0 b0
     let e : QEntry := entry 31 d0
     let u : State := begun 31 d0 b0
     let d := e.desc
     decide (s.startable 31 0x102 = some e ∧ (d.unit = 0xFF) ∧ (bufferOk d.arg0 216 = true) ∧ (u.flag R.LOG_CFG F.LOG_CFG_enable = true)))] : List Bool).all id = true := by decide +kernel

/-- States and operands that meet the hypotheses of HarbourFirmwareRows, clause by clause in the order of the statement; one clause in which a signature verifies turns on Config.verify, which has no body: no concrete state shows it. -/
theorem witness_HarbourFirmwareRows : ([
    (let s : State := requested 0x1 [] (harbourUp)
     let slot : Fin 64 := 63
     let k : CoreId := .A
     let l : List Byte := (some (s.bytes (mbxReq (slot).val + 4) 56)).getD []
     let u : State := (some (s.mbxTake (slot).val)).getD State.reset
     decide ((s.servable (slot).val 0x01 = true) ∧ (s.active = some k) ∧ (some (s.bytes (mbxReq (slot).val + 4) 56) = some l) ∧ (some (s.mbxTake
         (slot).val) = some u))),
    (let s : State := requested 0x10 [0, 0, 0, 0] (harbourUp)
     let slot : Fin 64 := 63
     let k : CoreId := .A
     let ok : Bool := false
     let l : List Byte := (some (s.bytes (mbxReq (slot).val + 4) 56)).getD []
     let u : State := (some (s.mbxTake (slot).val)).getD State.reset
     decide ((s.servable (slot).val 0x10 = true) ∧ (s.active = some k) ∧ (some (s.bytes (mbxReq (slot).val + 4) 56) = some l) ∧ (some (s.mbxTake
         (slot).val) = some u) ∧ (ok = false))),
    (let s : State := requested 0x10 [0, 0, 16, 17, 1] ({ harbourUp with part := .ctp2s })
     let slot : Fin 64 := 63
     let k : CoreId := .A
     let ok : Bool := true
     let l : List Byte := (some (s.bytes (mbxReq (slot).val + 4) 56)).getD []
     let a := argNat l 0 4
     let u : State := (some (s.mbxTake (slot).val)).getD State.reset
     decide ((s.servable (slot).val 0x10 = true) ∧ (s.active = some k) ∧ (some (s.bytes (mbxReq (slot).val + 4) 56) = some l) ∧ (some (s.mbxTake
         (slot).val) = some u) ∧ (ok = true) ∧ (u.absentAt a = true))),
    (let s : State := requested 0x10 [0, 0, 0, 0] (harbourUp)
     let slot : Fin 64 := 63
     let k : CoreId := .A
     let ok : Bool := true
     let l : List Byte := (some (s.bytes (mbxReq (slot).val + 4) 56)).getD []
     let a := argNat l 0 4
     let u : State := (some (s.mbxTake (slot).val)).getD State.reset
     let fault := (u.writeFault true (BitVec.ofNat 64 a)).isSome
     decide ((s.servable (slot).val 0x10 = true) ∧ (s.active = some k) ∧ (some (s.bytes (mbxReq (slot).val + 4) 56) = some l) ∧ (some (s.mbxTake
         (slot).val) = some u) ∧ (ok = true) ∧ (u.absentAt a = false) ∧ (fault = true))),
    (let s : State := requested 0x10 [0, 1, 0, 16]
         ({ harbourUp.setFld (R.PWR_DOM_STATE 4) F.PWR_DOM_STATE_state 2 with claims := [(0, { holder := .harbour, func := 0 }), (1, { holder := .harbour, func := 0 }), (2, { holder := .harbour, func := 0 }), (0x24, { holder := .harbour, func := 0 })] })
     let slot : Fin 64 := 63
     let k : CoreId := .A
     let ok : Bool := true
     let l : List Byte := (some (s.bytes (mbxReq (slot).val + 4) 56)).getD []
     let a := argNat l 0 4
     let u : State := (some (s.mbxTake (slot).val)).getD State.reset
     let fault := (u.writeFault true (BitVec.ofNat 64 a)).isSome
     decide ((s.servable (slot).val 0x10 = true) ∧ (s.active = some k) ∧ (some (s.bytes (mbxReq (slot).val + 4) 56) = some l) ∧ (some (s.mbxTake
         (slot).val) = some u) ∧ (ok = true) ∧ (u.absentAt a = false) ∧ (fault = false) ∧ (u.laidUp (domainOfAddr a) = true))),
    (let s : State := requested 0x11 [64] (harbourUp)
     let slot : Fin 64 := 63
     let k : CoreId := .A
     let l : List Byte := (some (s.bytes (mbxReq (slot).val + 4) 56)).getD []
     let q := argNat l 0 1
     let u : State := (some (s.mbxTake (slot).val)).getD State.reset
     let z := u.queue (Fin.ofNat 64 q)
     decide ((s.servable (slot).val 0x11 = true) ∧ (s.active = some k) ∧ (some (s.bytes (mbxReq (slot).val + 4) 56) = some l) ∧ (some (s.mbxTake
         (slot).val) = some u) ∧ ((64 ≤ q ∨ argNat l 1 3 ≠ 0 ∨ z.depth = 0)))),
    (let s : State := requested 0x11 [0] (harbourUp.setQueue 0 { harbourUp.queue 0 with depth := 1, entries := [entry 0 noDesc] })
     let slot : Fin 64 := 63
     let k : CoreId := .A
     let l : List Byte := (some (s.bytes (mbxReq (slot).val + 4) 56)).getD []
     let q := argNat l 0 1
     let u : State := (some (s.mbxTake (slot).val)).getD State.reset
     let z := u.queue (Fin.ofNat 64 q)
     decide ((s.servable (slot).val 0x11 = true) ∧ (s.active = some k) ∧ (some (s.bytes (mbxReq (slot).val + 4) 56) = some l) ∧ (some (s.mbxTake
         (slot).val) = some u) ∧ (q < 64) ∧ (argNat l 1 3 = 0) ∧ (z.depth ≠ 0) ∧ (z.depth ≤ z.entries.length))),
    (let s : State := requested 0x11 [32] (harbourUp)
     let slot : Fin 64 := 63
     let k : CoreId := .A
     let l : List Byte := (some (s.bytes (mbxReq (slot).val + 4) 56)).getD []
     let q := argNat l 0 1
     let u : State := (some (s.mbxTake (slot).val)).getD State.reset
     let z := u.queue (Fin.ofNat 64 q)
     decide ((s.servable (slot).val 0x11 = true) ∧ (s.active = some k) ∧ (some (s.bytes (mbxReq (slot).val + 4) 56) = some l) ∧ (some (s.mbxTake
         (slot).val) = some u) ∧ (q < 64) ∧ (argNat l 1 3 = 0) ∧ (z.depth ≠ 0) ∧ (z.entries.length < z.depth))),
    (let s : State := requested 0x12 [] (harbourUp)
     let slot : Fin 64 := 63
     let k : CoreId := .A
     let l : List Byte := (some (s.bytes (mbxReq (slot).val + 4) 56)).getD []
     let u : State := (some (s.mbxTake (slot).val)).getD State.reset
     decide ((s.servable (slot).val 0x12 = true) ∧ (s.active = some k) ∧ (some (s.bytes (mbxReq (slot).val + 4) 56) = some l) ∧ (some (s.mbxTake
         (slot).val) = some u))),
    (let s : State := requested 0x20 [0, 0, 0, 0, 2] (harbourUp)
     let slot : Fin 64 := 63
     let k : CoreId := .A
     let l : List Byte := (some (s.bytes (mbxReq (slot).val + 4) 56)).getD []
     let swap := argNat l 4 1
     let u : State := (some (s.mbxTake (slot).val)).getD State.reset
     decide ((s.servable (slot).val 0x20 = true) ∧ (s.active = some k) ∧ (some (s.bytes (mbxReq (slot).val + 4) 56) = some l) ∧ (some (s.mbxTake
         (slot).val) = some u) ∧ (1 < swap))),
    (let s : State := requested 0x20 [0, 0, 0, 0, 1] (harbourUp)
     let slot : Fin 64 := 63
     let k : CoreId := .A
     let l : List Byte := (some (s.bytes (mbxReq (slot).val + 4) 56)).getD []
     let swap := argNat l 4 1
     let u : State := (some (s.mbxTake (slot).val)).getD State.reset
     decide ((s.servable (slot).val 0x20 = true) ∧ (s.active = some k) ∧ (some (s.bytes (mbxReq (slot).val + 4) 56) = some l) ∧ (some (s.mbxTake
         (slot).val) = some u) ∧ (swap ≤ 1) ∧ (u.secStateCode ≠ 1))),
    (let s : State := requested 0x20 [0, 0, 0, 0, 1] (harbourUp.setFld R.SEC_STATE F.SEC_STATE_state 1)
     let slot : Fin 64 := 63
     let k : CoreId := .A
     let l : List Byte := (some (s.bytes (mbxReq (slot).val + 4) 56)).getD []
     let a := argNat l 0 4
     let swap := argNat l 4 1
     let u : State := (some (s.mbxTake (slot).val)).getD State.reset
     let loaded := u.loadBerth a
     decide ((s.servable (slot).val 0x20 = true) ∧ (s.active = some k) ∧ (some (s.bytes (mbxReq (slot).val + 4) 56) = some l) ∧ (some (s.mbxTake
         (slot).val) = some u) ∧ (swap ≤ 1) ∧ (u.secStateCode = 1) ∧ (loaded.1 ≠ 0))),
    (let s : State := requested 0x21 [0, 0, 0, 0, 49] (harbourUp)
     let slot : Fin 64 := 63
     let k : CoreId := .A
     let l : List Byte := (some (s.bytes (mbxReq (slot).val + 4) 56)).getD []
     let a := argNat l 0 4
     let n := argNat l 4 1
     let u : State := (some (s.mbxTake (slot).val)).getD State.reset
     decide ((s.servable (slot).val 0x21 = true) ∧ (s.active = some k) ∧ (some (s.bytes (mbxReq (slot).val + 4) 56) = some l) ∧ (some (s.mbxTake
         (slot).val) = some u) ∧ ((n = 0 ∨ 48 < n ∨ argNat l 5 3 ≠ 0 ∨ flashSize < a + n)))),
    (let s : State := requested 0x21 [0, 0, 0, 0, 48] (harbourUp)
     let slot : Fin 64 := 63
     let k : CoreId := .A
     let l : List Byte := (some (s.bytes (mbxReq (slot).val + 4) 56)).getD []
     let a := argNat l 0 4
     let n := argNat l 4 1
     let u : State := (some (s.mbxTake (slot).val)).getD State.reset
     decide ((s.servable (slot).val 0x21 = true) ∧ (s.active = some k) ∧ (some (s.bytes (mbxReq (slot).val + 4) 56) = some l) ∧ (some (s.mbxTake
         (slot).val) = some u) ∧ (¬ (n = 0 ∨ 48 < n ∨ argNat l 5 3 ≠ 0 ∨ flashSize < a + n)) ∧ (u.flashProtected a n = true))),
    (let s : State := requested 0x21 [208, 255, 255, 3, 48] (withDirectory harbourUp)
     let slot : Fin 64 := 63
     let k : CoreId := .A
     let l : List Byte := (some (s.bytes (mbxReq (slot).val + 4) 56)).getD []
     let a := argNat l 0 4
     let n := argNat l 4 1
     let u : State := (some (s.mbxTake (slot).val)).getD State.reset
     decide ((s.servable (slot).val 0x21 = true) ∧ (s.active = some k) ∧ (some (s.bytes (mbxReq (slot).val + 4) 56) = some l) ∧ (some (s.mbxTake
         (slot).val) = some u) ∧ (¬ (n = 0 ∨ 48 < n ∨ argNat l 5 3 ≠ 0 ∨ flashSize < a + n)) ∧ (u.flashProtected a n = false))),
    (let s : State := requested 0x22 [1] (harbourUp)
     let slot : Fin 64 := 63
     let k : CoreId := .A
     let l : List Byte := (some (s.bytes (mbxReq (slot).val + 4) 56)).getD []
     let a := argNat l 0 4
     let u : State := (some (s.mbxTake (slot).val)).getD State.reset
     decide ((s.servable (slot).val 0x22 = true) ∧ (s.active = some k) ∧ (some (s.bytes (mbxReq (slot).val + 4) 56) = some l) ∧ (some (s.mbxTake
         (slot).val) = some u) ∧ ((a % 4096 ≠ 0 ∨ flashSize < a + 4096)))),
    (let s : State := requested 0x22 [0] (harbourUp)
     let slot : Fin 64 := 63
     let k : CoreId := .A
     let l : List Byte := (some (s.bytes (mbxReq (slot).val + 4) 56)).getD []
     let a := argNat l 0 4
     let u : State := (some (s.mbxTake (slot).val)).getD State.reset
     decide ((s.servable (slot).val 0x22 = true) ∧ (s.active = some k) ∧ (some (s.bytes (mbxReq (slot).val + 4) 56) = some l) ∧ (some (s.mbxTake
         (slot).val) = some u) ∧ (¬ (a % 4096 ≠ 0 ∨ flashSize < a + 4096)) ∧ (u.flashProtected a 4096 = true))),
    (let s : State := requested 0x22 [0, 240, 255, 3] (withDirectory harbourUp)
     let slot : Fin 64 := 63
     let k : CoreId := .A
     let l : List Byte := (some (s.bytes (mbxReq (slot).val + 4) 56)).getD []
     let a := argNat l 0 4
     let u : State := (some (s.mbxTake (slot).val)).getD State.reset
     decide ((s.servable (slot).val 0x22 = true) ∧ (s.active = some k) ∧ (some (s.bytes (mbxReq (slot).val + 4) 56) = some l) ∧ (some (s.mbxTake
         (slot).val) = some u) ∧ (¬ (a % 4096 ≠ 0 ∨ flashSize < a + 4096)) ∧ (u.flashProtected a 4096 = false))),
    (let s : State := requested 0x23 [2] (harbourUp)
     let slot : Fin 64 := 63
     let k : CoreId := .A
     let l : List Byte := (some (s.bytes (mbxReq (slot).val + 4) 56)).getD []
     let q := argNat l 0 1
     let u : State := (some (s.mbxTake (slot).val)).getD State.reset
     decide ((s.servable (slot).val 0x23 = true) ∧ (s.active = some k) ∧ (some (s.bytes (mbxReq (slot).val + 4) 56) = some l) ∧ (some (s.mbxTake
         (slot).val) = some u) ∧ (1 < q))),
    (let s : State := requested 0x23 [1] (harbourUp)
     let slot : Fin 64 := 63
     let k : CoreId := .A
     let l : List Byte := (some (s.bytes (mbxReq (slot).val + 4) 56)).getD []
     let q := argNat l 0 1
     let u : State := (some (s.mbxTake (slot).val)).getD State.reset
     decide ((s.servable (slot).val 0x23 = true) ∧ (s.active = some k) ∧ (some (s.bytes (mbxReq (slot).val + 4) 56) = some l) ∧ (some (s.mbxTake
         (slot).val) = some u) ∧ (q ≤ 1) ∧ (u.setBootSlot q = none))),
    (let s : State := requested 0x23 [1] (withDirectory harbourUp)
     let slot : Fin 64 := 63
     let k : CoreId := .A
     let l : List Byte := (some (s.bytes (mbxReq (slot).val + 4) 56)).getD []
     let q := argNat l 0 1
     let u : State := (some (s.mbxTake (slot).val)).getD State.reset
     let g : Nat := ((u.setBootSlot q).getD (0, State.reset)).1
     let v : State := ((u.setBootSlot q).getD (0, State.reset)).2
     decide ((s.servable (slot).val 0x23 = true) ∧ (s.active = some k) ∧ (some (s.bytes (mbxReq (slot).val + 4) 56) = some l) ∧ (some (s.mbxTake
         (slot).val) = some u) ∧ (q ≤ 1) ∧ (u.setBootSlot q = some (g, v)))),
    (let s : State := requested 0x30 [] (harbourUp)
     let slot : Fin 64 := 63
     let k : CoreId := .A
     let l : List Byte := (some (s.bytes (mbxReq (slot).val + 4) 56)).getD []
     let u : State := (some (s.mbxTake (slot).val)).getD State.reset
     decide ((s.servable (slot).val 0x30 = true) ∧ (s.active = some k) ∧ (some (s.bytes (mbxReq (slot).val + 4) 56) = some l) ∧ (some (s.mbxTake
         (slot).val) = some u))),
    (let s : State := requested 0x31 [] (harbourUp)
     let slot : Fin 64 := 63
     let k : CoreId := .A
     let l : List Byte := (some (s.bytes (mbxReq (slot).val + 4) 56)).getD []
     let u : State := (some (s.mbxTake (slot).val)).getD State.reset
     decide ((s.servable (slot).val 0x31 = true) ∧ (s.active = some k) ∧ (some (s.bytes (mbxReq (slot).val + 4) 56) = some l) ∧ (some (s.mbxTake
         (slot).val) = some u))),
    (let s : State := requested 0x32 [] (harbourUp)
     let slot : Fin 64 := 63
     let k : CoreId := .A
     let l : List Byte := (some (s.bytes (mbxReq (slot).val + 4) 56)).getD []
     let u : State := (some (s.mbxTake (slot).val)).getD State.reset
     decide ((s.servable (slot).val 0x32 = true) ∧ (s.active = some k) ∧ (some (s.bytes (mbxReq (slot).val + 4) 56) = some l) ∧ (some (s.mbxTake
         (slot).val) = some u))),
    (let s : State := requested 0x33 [0, 64] (harbourUp)
     let slot : Fin 64 := 63
     let k : CoreId := .A
     let buffer : W32 := 0x01000000
     let l : List Byte := (some (s.bytes (mbxReq (slot).val + 4) 56)).getD []
     let u : State := (some (s.mbxTake (slot).val)).getD State.reset
     let read := u.lgRead 0xFF buffer.toNat (argNat l 0 8) (argNat l 8 4)
     decide ((s.servable (slot).val 0x33 = true) ∧ (s.active = some k) ∧ (some (s.bytes (mbxReq (slot).val + 4) 56) = some l) ∧ (some (s.mbxTake
         (slot).val) = some u) ∧ (bufferOk buffer.toNat 16384 = true) ∧ (read.1.1 = 0x06))),
    (let s : State := requested 0x33 [0, 65] (harbourUp)
     let slot : Fin 64 := 63
     let k : CoreId := .A
     let buffer : W32 := 0x01000000
     let l : List Byte := (some (s.bytes (mbxReq (slot).val + 4) 56)).getD []
     let u : State := (some (s.mbxTake (slot).val)).getD State.reset
     let read := u.lgRead 0xFF buffer.toNat (argNat l 0 8) (argNat l 8 4)
     decide ((s.servable (slot).val 0x33 = true) ∧ (s.active = some k) ∧ (some (s.bytes (mbxReq (slot).val + 4) 56) = some l) ∧ (some (s.mbxTake
         (slot).val) = some u) ∧ (bufferOk buffer.toNat 16384 = true) ∧ (read.1.1 ≠ 0x06) ∧ (read.1.1 ≠ 0))),
    (let s : State := requested 0x33 [0, 64] ((harbourUp.setFld R.SEC_STATE F.SEC_STATE_state 1).setFld R.LOG_STATE F.LOG_STATE_state 2)
     let slot : Fin 64 := 63
     let k : CoreId := .A
     let buffer : W32 := 0x01000000
     let l : List Byte := (some (s.bytes (mbxReq (slot).val + 4) 56)).getD []
     let u : State := (some (s.mbxTake (slot).val)).getD State.reset
     let read := u.lgRead 0xFF buffer.toNat (argNat l 0 8) (argNat l 8 4)
     decide ((s.servable (slot).val 0x33 = true) ∧ (s.active = some k) ∧ (some (s.bytes (mbxReq (slot).val + 4) 56) = some l) ∧ (some (s.mbxTake
         (slot).val) = some u) ∧ (bufferOk buffer.toNat 16384 = true) ∧ (read.1.1 = 0))),
    (let buffer : W32 := 0
     decide ((bufferOk buffer.toNat 16384 = false))),
    (let s : State := requested 0x40 [] (harbourUp)
     let slot : Fin 64 := 63
     let k : CoreId := .A
     let l : List Byte := (some (s.bytes (mbxReq (slot).val + 4) 56)).getD []
     let u : State := (some (s.mbxTake (slot).val)).getD State.reset
     decide ((s.servable (slot).val 0x40 = true) ∧ (s.active = some k) ∧ (some (s.bytes (mbxReq (slot).val + 4) 56) = some l) ∧ (some (s.mbxTake
         (slot).val) = some u))),
    decide ((requested 0x2 [] harbourUp).servable 63 0x1 = false),
    decide ((requested 0x41 [] harbourUp).servable 63 0x40 = false),
    decide (State.reset.servable 0 0x01 = false),
    (let s := requested 0x10 [0, 128, 0, 31] harbourUp
     let u := s.mbxTake 63
     let a := argNat (s.bytes (mbxReq 63 + 4) 56) 0 4
     s.servable 63 0x10 && !u.absentAt a && (u.writeFault true (BitVec.ofNat 64 a)).isNone && !u.laidUp (domainOfAddr a) && isNext (u.programWrite .A (BitVec.ofNat 64 a) 1))] : List Bool).all id = true := by decide +kernel

/-- States and operands that meet the hypotheses of RegisterAccessByPrograms, clause by clause in the order of the statement. -/
theorem witness_RegisterAccessByPrograms : ([
    (let k : CoreId := .A
     let s : State := pointing 0x1B000201 0xFF03
     let ra : BitVec 5 := 2
     let imm : BitVec 16 := 0
     let c := s.core k
     let a := c.gpr ra + imm.signExtend 64
     decide (((s.core k).run = .running) ∧ ((s.core k).wait = .none) ∧ (s.fetchOk (s.core k).harbour (s.core k).pc.toNat = true) ∧ (s.ecc.marks = [])
         ∧ (legalWord (BitVec.ofNat 32 (s.load (coreAddr k (s.core k).pc.toNat) 4)) = true) ∧ (a.toNat % 4 ≠ 0))),
    (let k : CoreId := .A
     let s : State := pointing 0x1B000201 0xFF03
     let ra : BitVec 5 := 2
     let imm : BitVec 16 := 0
     let c := s.core k
     let a := c.gpr ra + imm.signExtend 64
     decide (((s.core k).run = .running) ∧ ((s.core k).wait = .none) ∧ (s.fetchOk (s.core k).harbour (s.core k).pc.toNat = true) ∧ (s.ecc.marks = [])
         ∧ (legalWord (BitVec.ofNat 32 (s.load (coreAddr k (s.core k).pc.toNat) 4)) = true) ∧ (a.toNat % 4 ≠ 0))),
    (let k : CoreId := .A
     let s : State := pointing 0x1F008000 0xFF03
     let ra : BitVec 5 := 2
     let imm : BitVec 16 := 0
     let c := s.core k
     let a := c.gpr ra + imm.signExtend 64
     let r := s.readWord (.core k) a.toNat
     decide (((s.core k).run = .running) ∧ ((s.core k).wait = .none) ∧ (s.fetchOk (s.core k).harbour (s.core k).pc.toNat = true) ∧ (s.ecc.marks = [])
         ∧ (legalWord (BitVec.ofNat 32 (s.load (coreAddr k (s.core k).pc.toNat) 4)) = true) ∧ (s.readFault a = none) ∧ ((r.2.1 = false ∨ c.pae =
         false)))),
    (let k : CoreId := .A
     let s : State := pointingParked 0x10000100 0xFF0B
     let ra : BitVec 5 := 2
     let imm : BitVec 16 := 0
     let c := s.core k
     let a := c.gpr ra + imm.signExtend 64
     let r := s.readWord (.core k) a.toNat
     decide (((s.core k).run = .running) ∧ ((s.core k).wait = .none) ∧ (s.fetchOk (s.core k).harbour (s.core k).pc.toNat = true) ∧ (s.ecc.marks = [])
         ∧ (legalWord (BitVec.ofNat 32 (s.load (coreAddr k (s.core k).pc.toNat) 4)) = true) ∧ (s.readFault a = none) ∧ (r.2.1 = true) ∧ (c.pae =
         true))),
    (let k : CoreId := .A
     let s : State := State.reset
     let c := s.core k
     decide (((c.run ≠ .running ∨ c.wait ≠ .none)))),
    (let s := pointing 0x0F000000 0xFF03
     let a := (s.core .A).gpr 2 + (0 : BitVec 16).signExtend 64
     takes s .A && isFault (s.writeFault true a)),
    (let s := pointing 0x1F008000 0xFF03
     let a := (s.core .A).gpr 2 + (0 : BitVec 16).signExtend 64
     takes s .A && (s.writeFault true a).isNone && isNext (s.programWrite .A a 0)),
    (let s := { pointingParked 0x10000200 0xFF0B with claims := (List.range 64).map (fun n => (n, { holder := .harbour, func := 0 })) }
     let a := (s.core .A).gpr 2 + (0 : BitVec 16).signExtend 64
     takes s .A && (s.writeFault true a).isNone && isParked (s.programWrite .A a 0)),
    (let s := pointing 0x0F000000 0xFF03
     let a := (s.core .A).gpr 2 + (0 : BitVec 16).signExtend 64
     takes s .A && isFault (s.readFault a)),
    (let s := running
     (s.core .A).run == .running && (s.core .A).wait == .none && isFault (s.writeFault true 0x0F000000)),
    (let s := running
     (s.core .A).run == .running && (s.core .A).wait == .none && (s.writeFault true 0x1F008000).isNone && isNext (s.programWrite .A 0x1F008000 0)),
    (let s := { pointingParked 0x10000200 0xFF0B with claims := (List.range 64).map (fun n => (n, { holder := .harbour, func := 0 })) }
     (s.core .A).run == .running && (s.core .A).wait == .none && (s.writeFault true 0x10000200).isNone && isParked (s.programWrite .A 0x10000200 0))] : List Bool).all id = true := by decide +kernel

/-- States and operands that meet the hypotheses of HostAccessRows, clause by clause in the order of the statement. -/
theorem witness_HostAccessRows : ([
    (let s : State := State.reset
     decide ((¬ (s.hifServes = true)))),
    (let s : State := harbourUp
     decide (((s.hifServes = true)))),
    (let s : State := harbourUp
     decide (((s.hifServes = true)))),
    (let s : State := harbourUp
     let addr : BitVec 29 := 0x01030001
     let a := addr.toNat
     decide (((s.hifServes = true)) ∧ (¬ (a % 4 = 0)))),
    (let s : State := harbourUp
     let addr : BitVec 29 := 0x01030001
     let a := addr.toNat
     decide (((s.hifServes = true)) ∧ (¬ (a % 4 = 0)))),
    (let s : State := harbourUp
     let addr : BitVec 29 := 0x11000000
     let a := addr.toNat
     decide (((s.hifServes = true)) ∧ ((a % 4 = 0)))),
    (let s : State := { harbourUp with part := .ctp2s }
     let addr : BitVec 29 := 0x11000000
     let a := addr.toNat
     decide (((s.hifServes = true)) ∧ ((a % 4 = 0)) ∧ (s.absentAt a = true))),
    (let s : State := harbourUp
     let addr : BitVec 29 := 0x0103003C
     let a := addr.toNat
     decide (((s.hifServes = true)) ∧ ((a % 4 = 0)) ∧ (s.absentAt a = false) ∧ ((0x01030000 ≤ a ∧ a < 0x01031000)))),
    (let s : State := harbourUp
     let addr : BitVec 29 := 0x01BFFFFC
     let a := addr.toNat
     decide (((s.hifServes = true)) ∧ ((a % 4 = 0)) ∧ (s.absentAt a = false) ∧ (¬ (0x01030000 ≤ a ∧ a < 0x01031000)) ∧ ((a < 0x800000 ∨ (0x01000000 ≤
         a ∧ a < 0x01C00000) ∨ (0x02000000 ≤ a ∧ a < 0x02200000))))),
    (let s : State := harbourUp
     let addr : BitVec 29 := 0x0F000000
     let a := addr.toNat
     let blk := blockOfAddr a
     decide (((s.hifServes = true)) ∧ ((a % 4 = 0)) ∧ ((s.absentAt a = false ∧ ¬ (0x01030000 ≤ a ∧ a < 0x01031000) ∧ ¬ (a < 0x800000 ∨ (0x01000000 ≤ a
         ∧ a < 0x01C00000) ∨ (0x02000000 ≤ a ∧ a < 0x02200000)))) ∧ (blk = none))),
    (let s : State := harbourUp
     let addr : BitVec 29 := 0x1F004000
     let a := addr.toNat
     let blk := blockOfAddr a
     decide (((s.hifServes = true)) ∧ ((a % 4 = 0)) ∧ ((s.absentAt a = false ∧ ¬ (0x01030000 ≤ a ∧ a < 0x01031000) ∧ ¬ (a < 0x800000 ∨ (0x01000000 ≤ a
         ∧ a < 0x01C00000) ∨ (0x02000000 ≤ a ∧ a < 0x02200000)))) ∧ (blk = some 0x15))),
    (let s : State := harbourUp
     let addr : BitVec 29 := 0x11000000
     let a := addr.toNat
     let blk := blockOfAddr a
     decide (((s.hifServes = true)) ∧ ((a % 4 = 0)) ∧ ((s.absentAt a = false ∧ ¬ (0x01030000 ≤ a ∧ a < 0x01031000) ∧ ¬ (a < 0x800000 ∨ (0x01000000 ≤ a
         ∧ a < 0x01C00000) ∨ (0x02000000 ≤ a ∧ a < 0x02200000)))) ∧ (blk ≠ none) ∧ (blk ≠ some 0x15) ∧ (isReg a = false))),
    (let s : State := harbourUp.setFld (R.PWR_DOM_STATE 4) F.PWR_DOM_STATE_state 2
     let addr : BitVec 29 := 0x10000100
     let a := addr.toNat
     let blk := blockOfAddr a
     let dom := domainOfAddr a
     decide (((s.hifServes = true)) ∧ ((a % 4 = 0)) ∧ ((s.absentAt a = false ∧ ¬ (0x01030000 ≤ a ∧ a < 0x01031000) ∧ ¬ (a < 0x800000 ∨ (0x01000000 ≤ a
         ∧ a < 0x01C00000) ∨ (0x02000000 ≤ a ∧ a < 0x02200000)))) ∧ (blk ≠ none) ∧ (blk ≠ some 0x15) ∧ (isReg a = true) ∧ (s.laidUp dom = true))),
    (let s : State := harbourUp
     let addr : BitVec 29 := 0x1C000400
     let a := addr.toNat
     let blk := blockOfAddr a
     let dom := domainOfAddr a
     decide (((s.hifServes = true)) ∧ ((a % 4 = 0)) ∧ ((s.absentAt a = false ∧ ¬ (0x01030000 ≤ a ∧ a < 0x01031000) ∧ ¬ (a < 0x800000 ∨ (0x01000000 ≤ a
         ∧ a < 0x01C00000) ∨ (0x02000000 ≤ a ∧ a < 0x02200000)))) ∧ (blk ≠ none) ∧ (blk ≠ some 0x15) ∧ (isReg a = true) ∧ (s.laidUp dom = false)
         ∧ ((R.HIF_FLASH_CMD ≤ a ∧ a < R.HIF_FLASH_DATA 64 ∧ s.recoveryOpen = false ∧ a ≠ R.HIF_FLASH_STATUS)))),
    (let s : State := harbourUp
     let addr : BitVec 29 := 0x10000100
     let a := addr.toNat
     let blk := blockOfAddr a
     let dom := domainOfAddr a
     decide (((s.hifServes = true)) ∧ ((a % 4 = 0)) ∧ (((s.absentAt a = false ∧ ¬ (0x01030000 ≤ a ∧ a < 0x01031000) ∧ ¬ (a < 0x800000 ∨ (0x01000000 ≤
         a ∧ a < 0x01C00000) ∨ (0x02000000 ≤ a ∧ a < 0x02200000))) ∧ blk ≠ none ∧ blk ≠ some 0x15 ∧ isReg a = true ∧ s.laidUp dom = false ∧ ¬
         (R.HIF_FLASH_CMD ≤ a ∧ a < R.HIF_FLASH_DATA 64 ∧ s.recoveryOpen = false ∧ a ≠ R.HIF_FLASH_STATUS))) ∧ ((fieldsAt a).any (·.hx) = true))),
    (let s : State := harbourUp
     let addr : BitVec 29 := 0x1C000408
     let a := addr.toNat
     let blk := blockOfAddr a
     let dom := domainOfAddr a
     decide (((s.hifServes = true)) ∧ ((a % 4 = 0)) ∧ (((s.absentAt a = false ∧ ¬ (0x01030000 ≤ a ∧ a < 0x01031000) ∧ ¬ (a < 0x800000 ∨ (0x01000000 ≤
         a ∧ a < 0x01C00000) ∨ (0x02000000 ≤ a ∧ a < 0x02200000))) ∧ blk ≠ none ∧ blk ≠ some 0x15 ∧ isReg a = true ∧ s.laidUp dom = false ∧ ¬
         (R.HIF_FLASH_CMD ≤ a ∧ a < R.HIF_FLASH_DATA 64 ∧ s.recoveryOpen = false ∧ a ≠ R.HIF_FLASH_STATUS))) ∧ ((fieldsAt a).any (·.hx) = false))),
    (let s : State := State.reset
     let target : BitVec 7 := 0
     let bytes : List Byte := [1, 2, 3]
     decide (((s.i2cAcks target = false ∨ bytes.length < 4)))),
    (let s : State := harbourUp
     let target : BitVec 7 := BitVec.ofNat 7 (harbourUp.fld R.HIF_CFG F.HIF_CFG_i2c_addr)
     let bytes : List Byte := [1, 2, 3, 4]
     decide ((s.i2cAcks target = true) ∧ (4 ≤ bytes.length))),
    (let s : State := State.reset
     let target : BitVec 7 := 0
     decide ((s.i2cAcks target = false))),
    (let s : State := harbourUp
     let target : BitVec 7 := BitVec.ofNat 7 (harbourUp.fld R.HIF_CFG F.HIF_CFG_i2c_addr)
     decide ((s.i2cAcks target = true)))] : List Bool).all id = true := by decide +kernel

/-- States and operands that meet the hypotheses of MailboxRows, clause by clause in the order of the statement. -/
theorem witness_MailboxRows : ([
    (let s : State := State.reset
     decide ((s.hifServes = false))),
    (let s : State := State.reset
     decide ((s.hifServes = false))),
    (let s : State := harbourUp
     let i2c : Bool := true
     let slot : Fin 64 := 55
     let n := slot.val
     decide ((s.hifServes = true) ∧ ((decide (56 ≤ n) ≠ i2c)))),
    (let s : State := requested 1 [] harbourUp
     let i2c : Bool := true
     let slot : Fin 64 := 63
     let n := slot.val
     decide ((s.hifServes = true) ∧ (¬ (decide (56 ≤ n) ≠ i2c)) ∧ (s.mbxBusy n = true))),
    (let s : State := harbourUp
     let i2c : Bool := true
     let slot : Fin 64 := 56
     let word : W32 := 0x80000000
     let n := slot.val
     decide ((s.hifServes = true) ∧ (¬ (decide (56 ≤ n) ≠ i2c)) ∧ (s.mbxBusy n = false) ∧ (word.getLsbD 31 = true) ∧ (word.toNat % 65536 = 0))),
    (let s : State := harbourUp
     let i2c : Bool := true
     let slot : Fin 64 := 56
     let word : W32 := 0x80000001
     let n := slot.val
     decide ((s.hifServes = true) ∧ (¬ (decide (56 ≤ n) ≠ i2c)) ∧ (s.mbxBusy n = false) ∧ (word.getLsbD 31 = true) ∧ (word.toNat % 65536 ≠ 0))),
    (let s : State := harbourUp
     let i2c : Bool := true
     let slot : Fin 64 := 56
     let word : W32 := 1
     let n := slot.val
     decide ((s.hifServes = true) ∧ (¬ (decide (56 ≤ n) ≠ i2c)) ∧ (s.mbxBusy n = false) ∧ (word.getLsbD 31 = false))),
    (let s : State := State.reset
     let slot : Fin 64 := 56
     let n := slot.val
     decide ((s.mbxBusy n = false))),
    (let s : State := (let s := requested 1 [] harbourUp; { s with hif := { s.hif with expired := [63] } })
     let slot : Fin 64 := 63
     let n := slot.val
     decide ((s.mbxBusy n = true) ∧ (s.mbxExpired n = true))),
    (let s : State := requested 1 [] harbourUp
     let slot : Fin 64 := 63
     let n := slot.val
     decide ((s.mbxBusy n = true) ∧ (s.mbxExpired n = false))),
    (let s : State := State.reset
     let slot : Fin 64 := 56
     let n := slot.val
     decide (((s.hifServes = false ∨ s.mbxBusy n = false ∨ s.mbxExpired n = true)))),
    (let s : State := requested 1 [] harbourUp
     let slot : Fin 64 := 63
     let n := slot.val
     decide ((¬ (s.hifServes = false ∨ s.mbxBusy n = false ∨ s.mbxExpired n = true)))),
    (let s : State := harbourUp
     decide ((s.hifServes = true) ∧ (s.ledgerTake = none))),
    (let s : State := { harbourUp with hif := { harbourUp.hif with waiting := [noted] } }
     let en : LedgerEvent := ((s.ledgerTake).getD (noted, State.reset)).1
     let t : State := ((s.ledgerTake).getD (noted, State.reset)).2
     decide ((s.hifServes = true) ∧ (s.ledgerTake = some (en, t)))),
    (let s : State := { State.reset with hif := { State.reset.hif with stopped := true } }
     decide ((s.hif.stopped = true))),
    (let s : State := { State.reset with time := { State.reset.time with rootLoss := some 5 } }
     decide ((s.hif.stopped = false) ∧ (s.time.rootLoss.isSome = true))),
    (let s : State := State.reset
     decide ((s.hif.stopped = false) ∧ (s.time.rootLoss.isSome = false)))] : List Bool).all id = true := by decide +kernel

/-- States and operands that meet the hypotheses of FlashRows, clause by clause in the order of the statement. -/
theorem witness_FlashRows : ([
    (let b0 : State := State.reset
     let d0 : Desc := desc 0x100 255 0 65537 0x01000000
     let s : State := holding 32 d0 b0
     let e : QEntry := entry 32 d0
     let d := e.desc
     let n := d.arg1 % 131072
     decide (s.startable 32 0x100 = some e ∧ ((d.unit ≠ 0xFF ∨ n = 0 ∨ 65536 < n ∨ bufferOk d.arg2 n = false ∨ flashSize < d.arg0 + n)))),
    (let b0 : State := State.reset
     let d0 : Desc := desc 0x100 255 0 65536 0x01000000
     let s : State := holding 32 d0 b0
     let e : QEntry := entry 32 d0
     let d := e.desc
     let n := d.arg1 % 131072
     decide (s.startable 32 0x100 = some e ∧ (¬ (d.unit ≠ 0xFF ∨ n = 0 ∨ 65536 < n ∨ bufferOk d.arg2 n = false ∨ flashSize < d.arg0 + n)))),
    (let b0 : State := State.reset
     let d0 : Desc := desc 0x101 255 0 65537 0x01000000
     let s : State := holding 32 d0 b0
     let e : QEntry := entry 32 d0
     let u : State := begun 32 d0 b0
     let d := e.desc
     decide (s.startable 32 0x101 = some e ∧ ((d.unit ≠ 0xFF ∨ d.arg0 % 256 ≠ 0 ∨ bufferOk d.arg2 256 = false ∨ flashSize < d.arg0 + 256 ∨
         u.flashProtected d.arg0 256 = true)))),
    (let b0 : State := State.reset
     let d0 : Desc := desc 0x101 255 0x1000000 0 0x01000000
     let s : State := holding 32 d0 b0
     let e : QEntry := entry 32 d0
     let u : State := begun 32 d0 b0
     let d := e.desc
     decide (s.startable 32 0x101 = some e ∧ (¬ (d.unit ≠ 0xFF ∨ d.arg0 % 256 ≠ 0 ∨ bufferOk d.arg2 256 = false ∨ flashSize < d.arg0 + 256 ∨
         u.flashProtected d.arg0 256 = true)))),
    (let b0 : State := State.reset
     let d0 : Desc := desc 0x102 255 0 65537 0x01000000
     let s : State := holding 32 d0 b0
     let e : QEntry := entry 32 d0
     let u : State := begun 32 d0 b0
     let d := e.desc
     decide (s.startable 32 0x102 = some e ∧ ((d.unit ≠ 0xFF ∨ d.arg0 % 4096 ≠ 0 ∨ flashSize < d.arg0 + 4096 ∨ u.flashProtected d.arg0 4096 = true)))),
    (let b0 : State := State.reset
     let d0 : Desc := desc 0x102 255 0x1000000 0 0x01000000
     let s : State := holding 32 d0 b0
     let e : QEntry := entry 32 d0
     let u : State := begun 32 d0 b0
     let d := e.desc
     decide (s.startable 32 0x102 = some e ∧ (¬ (d.unit ≠ 0xFF ∨ d.arg0 % 4096 ≠ 0 ∨ flashSize < d.arg0 + 4096 ∨ u.flashProtected d.arg0 4096 =
         true)))),
    (let s : State := { State.reset with hif := { State.reset.hif with waiting := List.replicate 64 noted } }
     decide ((64 ≤ s.hif.waiting.length))),
    (let b0 : State := State.reset
     let d0 : Desc := desc 0x103 255 0 65537 0x01000000
     let s : State := holding 32 d0 b0
     let e : QEntry := entry 32 d0
     let d := e.desc
     let code := d.arg0 % 65536
     decide ((s.hif.waiting.length < 64) ∧ s.startable 32 0x103 = some e ∧ ((d.unit ≠ 0xFF ∨ code < 0x8000)))),
    (let b0 : State := State.reset
     let d0 : Desc := desc 0x103 255 (0x4000000-1) 1 0x01000000
     let s : State := holding 32 d0 b0
     let e : QEntry := entry 32 d0
     let d := e.desc
     let code := d.arg0 % 65536
     decide ((s.hif.waiting.length < 64) ∧ s.startable 32 0x103 = some e ∧ (d.unit = 0xFF) ∧ (0x8000 ≤ code))),
    (let s : State := harbourUp.setFld R.HIF_BOOT F.HIF_BOOT_hw_stage 15
     let asked := fun (op : Nat) => s.setFld R.HIF_FLASH_CMD F.HIF_FLASH_CMD_op op
     let o := fun (op : Nat) => ((asked op).reg R.HIF_FLASH_ADDR).toNat
     decide (((s.hifServes = true ∧ s.recoveryOpen = true)) ∧ (o 1 < flashSize))),
    (let s : State := harbourUp.setFld R.HIF_BOOT F.HIF_BOOT_hw_stage 15
     let asked := fun (op : Nat) => s.setFld R.HIF_FLASH_CMD F.HIF_FLASH_CMD_op op
     let o := fun (op : Nat) => ((asked op).reg R.HIF_FLASH_ADDR).toNat
     decide (((s.hifServes = true ∧ s.recoveryOpen = true)) ∧ (o 2 < flashSize))),
    (let s : State := harbourUp.setFld R.HIF_BOOT F.HIF_BOOT_hw_stage 15
     let asked := fun (op : Nat) => s.setFld R.HIF_FLASH_CMD F.HIF_FLASH_CMD_op op
     let o := fun (op : Nat) => ((asked op).reg R.HIF_FLASH_ADDR).toNat
     decide (((s.hifServes = true ∧ s.recoveryOpen = true)) ∧ (o 3 < flashSize)))] : List Bool).all id = true := by decide +kernel

/-- States and operands that meet the hypotheses of ResetRows, clause by clause in the order of the statement. -/
theorem witness_ResetRows : ([
    (let s : State := State.reset
     decide (((s.pins.poresetN = true)))),
    (let s : State := { State.reset with pins := { State.reset.pins with poresetN := false } }
     decide ((¬ (s.pins.poresetN = true)))),
    (let s : State := { State.reset with pins := { State.reset.pins with poresetN := false } }
     decide ((¬ (s.pins.poresetN = true)))),
    (let s : State := { State.reset with pins := { State.reset.pins with poresetN := false } }
     decide ((¬ (s.pins.poresetN = true)))),
    (let s : State := { State.reset with pins := { State.reset.pins with poresetN := false } }
     decide ((¬ (s.pins.poresetN = true)))),
    (let s : State := { State.reset with pins := { State.reset.pins with poresetN := false } }
     decide ((¬ (s.pins.poresetN = true)))),
    (let s : State := { State.reset with pins := { State.reset.pins with poresetN := false } }
     decide ((¬ (s.pins.poresetN = true)))),
    (let s : State := State.reset
     decide (((s.pins.poresetN = true)))),
    (let s : State := { State.reset with pins := { State.reset.pins with resetN := false } }
     decide (((s.pins.poresetN = true)) ∧ (s.pins.resetN = false))),
    (let s : State := State.reset
     decide ((s.pins.resetN = true))),
    (let s : State := { State.reset with time := { State.reset.time with rootLocked := true } }
     decide (((s.pins.poresetN = true)) ∧ (s.pins.resetN = true) ∧ (s.time.rootLocked = true))),
    (let s : State := State.reset
     decide (((s.pins.resetN = false ∨ s.time.rootLocked = false)))),
    (let s : State := State.reset
     decide ((s.time.rootLocked = false))),
    (let s : State := { State.reset with time := { State.reset.time with rootLocked := true } }
     decide (((s.pins.poresetN = true)) ∧ (s.time.rootLocked = true))),
    (let s : State := { State.reset with time := { State.reset.time with rootLocked := true } }
     decide (((s.pins.poresetN = true)) ∧ (s.time.rootLocked = true))),
    (let s : State := { State.reset with pins := { State.reset.pins with testEn := true } }
     decide (((s.pins.poresetN = true)) ∧ (s.time.rootLocked = false) ∧ (s.time.rootLoss = none) ∧ (s.pins.testEn = true))),
    (let s : State := State.reset
     decide (((s.pins.poresetN = true)) ∧ (s.time.rootLocked = false) ∧ (s.time.rootLoss = none) ∧ (s.pins.testEn = false))),
    (let s : State := { State.reset with time := { State.reset.time with rootLoss := some 5 } }
     let lost : W64 := (s.time.rootLoss).getD 0
     decide ((s.time.rootLoss = some lost))),
    (let s : State := { State.reset with time := { State.reset.time with rootLoss := some 5 } }
     let lost : W64 := (s.time.rootLoss).getD 0
     decide ((s.time.rootLoss = some lost))),
    (let s : State := State.reset
     decide ((s.time.rootLoss = none))),
    (let s : State := { State.reset with time := { State.reset.time with rootLoss := some 5 } }
     let lost : W64 := (s.time.rootLoss).getD 0
     decide (((s.pins.poresetN = true)) ∧ (s.time.rootLoss = some lost))),
    (let s : State := State.reset
     decide ((s.hifServes = false))),
    (let s : State := { State.reset with time := { State.reset.time with rootLocked := true } }
     decide ((s.hifServes = true)))] : List Bool).all id = true := by decide +kernel

/-- States and operands that meet the hypotheses of StartupAndEnclaveRows, clause by clause in the order of the statement; one clause in which a signature verifies turns on Config.verify, which has no body: no concrete state shows it. -/
theorem witness_StartupAndEnclaveRows : ([
    (let s : State := State.reset
     let code : Byte := 0x1D
     let stage := s.fld R.HIF_BOOT F.HIF_BOOT_hw_stage
     let n := code.toNat
     let held := !s.pins.zeroizeN
     decide (((stage ≠ 2 ∨ (held = true ∧ n = 0x1D))))),
    (let s : State := (State.reset).setFld R.HIF_BOOT F.HIF_BOOT_hw_stage 2
     let code : Byte := 0x40
     let stage := s.fld R.HIF_BOOT F.HIF_BOOT_hw_stage
     let n := code.toNat
     decide ((stage = 2) ∧ (n = 0x40))),
    (let s : State := (State.reset).setFld R.HIF_BOOT F.HIF_BOOT_hw_stage 2
     let code : Byte := 0x1D
     let stage := s.fld R.HIF_BOOT F.HIF_BOOT_hw_stage
     let n := code.toNat
     let held := !s.pins.zeroizeN
     decide ((stage = 2) ∧ (0x10 ≤ n) ∧ (n ≤ 0x1E) ∧ (¬ (held = true ∧ n = 0x1D)))),
    (let s : State := (State.reset).setFld R.HIF_BOOT F.HIF_BOOT_hw_stage 2
     let code : Byte := 0x0F
     let stage := s.fld R.HIF_BOOT F.HIF_BOOT_hw_stage
     let n := code.toNat
     decide ((stage = 2) ∧ (n ≠ 0x40) ∧ ((n < 0x10 ∨ 0x1E < n)))),
    (let s : State := State.reset
     let stage := s.fld R.HIF_BOOT F.HIF_BOOT_hw_stage
     decide ((stage ≠ 3))),
    (let s : State := (State.reset).setFld R.HIF_BOOT F.HIF_BOOT_hw_stage 3
     let stage := s.fld R.HIF_BOOT F.HIF_BOOT_hw_stage
     decide ((stage = 3) ∧ (s.dirCopy = none))),
    (let s : State := (withDirectory State.reset).setFld R.HIF_BOOT F.HIF_BOOT_hw_stage 3
     let stage := s.fld R.HIF_BOOT F.HIF_BOOT_hw_stage
     let d : Nat := (s.dirCopy).getD 0
     let o := s.bootOffset d
     let fails := s.mfCheck o o harbourSlotSize true
     decide ((stage = 3) ∧ (s.dirCopy = some d) ∧ (fails ≠ 0))),
    (let s : State := State.reset
     let ch : Fin 2 := 0
     let a := R.SEC_CH_STATUS ch.val
     decide (((s.flag a F.SEC_CH_STATUS_busy = false ∨ (s.sec.ch[ch]).answer = none)))),
    (let s : State := (let s := (asking 0 1 0 (State.reset));
         { s with sec := { s.sec with ch := s.sec.ch.set 0 { challenge := none, answer := some (0, []) } } })
     let ch : Fin 2 := 0
     let a := R.SEC_CH_STATUS ch.val
     let result : Nat := (((s.sec.ch[ch]).answer).getD (0, [])).1
     let data : List Byte := (((s.sec.ch[ch]).answer).getD (0, [])).2
     decide ((s.flag a F.SEC_CH_STATUS_busy = true) ∧ ((s.sec.ch[ch]).answer = some (result, data)) ∧ (ch = 0))),
    (let s : State := (let s := (asking 1 1 0 (State.reset.setFld R.PLT_STATUS F.PLT_STATUS_active 2));
         { s with sec := { s.sec with ch := s.sec.ch.set 1 { challenge := none, answer := some (0, []) } } })
     let ch : Fin 2 := 1
     let a := R.SEC_CH_STATUS ch.val
     let result : Nat := (((s.sec.ch[ch]).answer).getD (0, [])).1
     let data : List Byte := (((s.sec.ch[ch]).answer).getD (0, [])).2
     let put := s.setBytes (secResp ch) ([BitVec.ofNat 8 result, 0, 0, 0] ++ leBytes 4 data.length ++ leBytes 8 s.time.devtime.toNat ++ data)
     let taken : State := { put with sec := { put.sec with ch := put.sec.ch.set ch { put.sec.ch[ch] with answer := none } } }
     let idle := (taken.setFlag a F.SEC_CH_STATUS_busy false).setFlag (R.SEC_CH_CTRL ch.val) F.SEC_CH_CTRL_go false
     let said := ((idle.setFlag a F.SEC_CH_STATUS_done true).setFld a F.SEC_CH_STATUS_result result).setFld a F.SEC_CH_STATUS_length (16 +
         data.length)
     decide ((s.flag a F.SEC_CH_STATUS_busy = true) ∧ ((s.sec.ch[ch]).answer = some (result, data)) ∧ (ch = 1) ∧ (said.active = none))),
    (let s : State := (let s := (asking 1 1 0 (State.reset));
         { s with sec := { s.sec with ch := s.sec.ch.set 1 { challenge := none, answer := some (0, []) } } })
     let ch : Fin 2 := 1
     let a := R.SEC_CH_STATUS ch.val
     let result : Nat := (((s.sec.ch[ch]).answer).getD (0, [])).1
     let data : List Byte := (((s.sec.ch[ch]).answer).getD (0, [])).2
     let put := s.setBytes (secResp ch) ([BitVec.ofNat 8 result, 0, 0, 0] ++ leBytes 4 data.length ++ leBytes 8 s.time.devtime.toNat ++ data)
     let taken : State := { put with sec := { put.sec with ch := put.sec.ch.set ch { put.sec.ch[ch] with answer := none } } }
     let idle := (taken.setFlag a F.SEC_CH_STATUS_busy false).setFlag (R.SEC_CH_CTRL ch.val) F.SEC_CH_CTRL_go false
     let said := ((idle.setFlag a F.SEC_CH_STATUS_done true).setFld a F.SEC_CH_STATUS_result result).setFld a F.SEC_CH_STATUS_length (16 +
         data.length)
     let k : CoreId := (said.active).getD .A
     decide ((s.flag a F.SEC_CH_STATUS_busy = true) ∧ ((s.sec.ch[ch]).answer = some (result, data)) ∧ (ch = 1) ∧ (said.active = some k))),
    (let s : State := State.reset
     decide ((s.secStateCode ≠ 2))),
    (let s : State := having [(R.SEC_STATE, F.SEC_STATE_state, 2)]
     decide ((s.secStateCode = 2))),
    (let s : State := having [(R.SEC_STATE, F.SEC_STATE_state, 2)]
     decide ((s.secStateCode = 2))),
    (let s : State := having [(R.SEC_STATE, F.SEC_STATE_state, 3)]
     decide ((s.secStateCode = 3))),
    (let s : State := State.reset
     decide ((s.secStateCode ≠ 3)))] : List Bool).all id = true := by decide +kernel

/-- States and operands that meet the hypotheses of PilotFailureRows, clause by clause in the order of the statement. -/
theorem witness_PilotFailureRows : ([
    (let s : State := having [(R.PLT_STATUS, F.PLT_STATUS_active, 2)]
     decide ((s.active = none))),
    (let s : State := State.reset
     let k : CoreId := .A
     decide (((s.active = some k)) ∧ ((s.pilot.missed < 2 ∨ s.pilot.ok = false)))),
    (let s : State := { State.reset with pilot := { State.reset.pilot with missed := 2, ok := true } }
     let k : CoreId := .A
     decide (((s.active = some k)) ∧ (2 ≤ s.pilot.missed) ∧ (s.pilot.ok = true))),
    (let s : State := { State.reset with coreA := { coreReset with run := .halted } }
     let k : CoreId := .A
     let c := s.core k
     decide ((c.run = .halted))),
    (let s : State := { State.reset with coreA := { coreReset with run := .halted } }
     let k : CoreId := .A
     let c := s.core k
     decide (((c.run = .halted ∨ s.localUncorr k = true)))),
    (let s : State := having [(R.PLT_STATUS, F.PLT_STATUS_active, 2)]
     let k : CoreId := .A
     let c := s.core k
     decide ((c.run ≠ .halted))),
    (let s : State := having [(R.PLT_STATUS, F.PLT_STATUS_active, 2)]
     let k : CoreId := .A
     let c := s.core k
     decide ((c.run ≠ .halted) ∧ (s.localUncorr k = false))),
    (let s : State := { running with coreA := { running.coreA with quiet := 0x40000 } }
     let k : CoreId := .A
     let c := s.core k
     decide ((c.run = .running) ∧ (c.wait = .none) ∧ (64 * s.fld R.PLT_CFG F.PLT_CFG_wdog ≤ c.quiet))),
    (let s : State := having [(R.PLT_STATUS, F.PLT_STATUS_active, 2)]
     let k : CoreId := .A
     let c := s.core k
     decide (((c.run ≠ .running ∨ c.wait ≠ .none ∨ c.quiet < 64 * s.fld R.PLT_CFG F.PLT_CFG_wdog))))] : List Bool).all id = true := by decide +kernel

/-- States and operands that meet the hypotheses of PilotTakeoverRows, clause by clause in the order of the statement. -/
theorem witness_PilotTakeoverRows : ([
    (let s : State := State.reset
     decide ((s.roleOf .A ≠ 1))),
    (let s : State := having [(R.PLT_STATUS, F.PLT_STATUS_role_a, 1)]
     decide ((s.roleOf .A = 1))),
    (let s : State := State.reset
     decide (((s.standbySnap .A = none ∨ ¬ (s.pilot.handover = true ∧ s.hws.copy = none ∧ s.active = some .B ∧ s.pilot.ok = true))))),
    (let s : State :=
         { { having [(R.PLT_STATUS, F.PLT_STATUS_role_a, 1), (R.PLT_STATUS, F.PLT_STATUS_active, 1)] with pilot := { State.reset.pilot with handover := true, ok := true } } with hws := { State.reset.hws with snap := some snapOf } }
     let x : CoreSnap := (s.standbySnap .A).getD snapOf
     decide ((s.standbySnap .A = some x) ∧ ((s.pilot.handover = true ∧ s.hws.copy = none ∧ s.active = some .B ∧ s.pilot.ok = true)))),
    (let s : State := State.reset
     decide ((s.pilot.pendCold = none))),
    (let s : State :=
         { having [(R.PLT_STATUS, F.PLT_STATUS_active, 2), (R.PLT_STATUS, F.PLT_STATUS_role_a, 2)] with pilot := { State.reset.pilot with pendCold := some (.A, 0) } }
     let k : CoreId := ((s.pilot.pendCold).getD (.A, 0)).1
     let t : W64 := ((s.pilot.pendCold).getD (.A, 0)).2
     decide ((s.pilot.pendCold = some (k, t)) ∧ ((s.active ≠ none ∨ s.time.tide = t ∨ s.roleOf k ≠ 2)))),
    (let s : State :=
         { having [(R.PLT_STATUS, F.PLT_STATUS_active, 2), (R.PLT_STATUS, F.PLT_STATUS_role_a, 2)] with pilot := { State.reset.pilot with pendCold := some (.A, 5) } }
     let k : CoreId := ((s.pilot.pendCold).getD (.A, 0)).1
     let t : W64 := ((s.pilot.pendCold).getD (.A, 0)).2
     decide ((s.pilot.pendCold = some (k, t)) ∧ (s.active = none) ∧ (s.time.tide ≠ t) ∧ (s.roleOf k = 2))),
    (let s : State := State.reset
     decide ((¬ (s.pilot.ok = true ∨ s.flag R.PLT_STATUS F.PLT_STATUS_pilot_ok = false)))),
    (let s : State :=
         { { having [(R.PLT_STATUS, F.PLT_STATUS_role_a, 1), (R.PLT_STATUS, F.PLT_STATUS_active, 1)] with pilot := { State.reset.pilot with handover := true, ok := true } } with hws := { State.reset.hws with snap := some snapOf } }
     let edgeA : Bool := true
     let edgeB : Bool := true
     decide (((s.pilot.ok = true ∨ s.flag R.PLT_STATUS F.PLT_STATUS_pilot_ok = false)) ∧ (edgeA = true) ∧ (edgeB = true))),
    (let s : State :=
         { { having [(R.PLT_STATUS, F.PLT_STATUS_role_a, 1), (R.PLT_STATUS, F.PLT_STATUS_active, 1)] with pilot := { State.reset.pilot with handover := true, ok := true } } with hws := { State.reset.hws with snap := some snapOf } }
     let edgeA : Bool := false
     let edgeB : Bool := false
     decide (((s.pilot.ok = true ∨ s.flag R.PLT_STATUS F.PLT_STATUS_pilot_ok = false)) ∧ (edgeA = false) ∧ (edgeB = false))),
    (let s : State := { State.reset with pilot := { State.reset.pilot with ok := true } }
     let edgeA : Bool := true
     let edgeB : Bool := false
     let lowA : Bool := true
     let lowB : Bool := false
     let levels : State := { s with pins := { s.pins with forceAN := !lowA, forceBN := !lowB } }
     let seen := (levels.setFlag R.PLT_STATUS F.PLT_STATUS_force_a lowA).setFlag R.PLT_STATUS F.PLT_STATUS_force_b lowB
     let named : CoreId := if edgeA then .A else .B
     decide (((s.pilot.ok = true ∨ s.flag R.PLT_STATUS F.PLT_STATUS_pilot_ok = false)) ∧ (edgeA ≠ edgeB) ∧ (seen.roleOf named = 0))),
    (let s : State := { having [(R.PLT_STATUS, F.PLT_STATUS_role_a, 3)] with pilot := { State.reset.pilot with ok := true } }
     let edgeA : Bool := true
     let edgeB : Bool := false
     let lowA : Bool := true
     let lowB : Bool := false
     let levels : State := { s with pins := { s.pins with forceAN := !lowA, forceBN := !lowB } }
     let seen := (levels.setFlag R.PLT_STATUS F.PLT_STATUS_force_a lowA).setFlag R.PLT_STATUS F.PLT_STATUS_force_b lowB
     let named : CoreId := if edgeA then .A else .B
     decide (((s.pilot.ok = true ∨ s.flag R.PLT_STATUS F.PLT_STATUS_pilot_ok = false)) ∧ (edgeA ≠ edgeB) ∧ (seen.roleOf named = 3))),
    (let s : State :=
         { { having [(R.PLT_STATUS, F.PLT_STATUS_role_a, 1), (R.PLT_STATUS, F.PLT_STATUS_active, 1)] with pilot := { State.reset.pilot with handover := true, ok := true } } with hws := { State.reset.hws with snap := some snapOf } }
     let edgeA : Bool := true
     let edgeB : Bool := false
     let lowA : Bool := true
     let lowB : Bool := false
     let levels : State := { s with pins := { s.pins with forceAN := !lowA, forceBN := !lowB } }
     let seen := (levels.setFlag R.PLT_STATUS F.PLT_STATUS_force_a lowA).setFlag R.PLT_STATUS F.PLT_STATUS_force_b lowB
     let named : CoreId := if edgeA then .A else .B
     decide (((s.pilot.ok = true ∨ s.flag R.PLT_STATUS F.PLT_STATUS_pilot_ok = false)) ∧ (edgeA ≠ edgeB) ∧ ((seen.roleOf named = 1 ∨ seen.roleOf named
         = 2)))),
    (let s : State := State.reset
     decide ((s.pilot.pendForce = none))),
    (let s : State := { State.reset with pilot := { State.reset.pilot with pendForce := some (.A, 0) } }
     let k : CoreId := ((s.pilot.pendForce).getD (.A, 0)).1
     let t : W64 := ((s.pilot.pendForce).getD (.A, 0)).2
     decide ((s.pilot.pendForce = some (k, t)) ∧ ((s.time.tide = t ∨ s.pilot.dual = true)))),
    (let s : State :=
         { { having [(R.PLT_STATUS, F.PLT_STATUS_active, 2), (R.PLT_STATUS, F.PLT_STATUS_role_a, 1)] with pilot := { State.reset.pilot with pendForce := some (.A, 5) } } with hws := { State.reset.hws with snap := some snapOf } }
     let k : CoreId := .A
     let t : W64 := 5
     let x : CoreSnap := (s.standbySnap k).getD snapOf
     decide (((s.pilot.pendForce = some (k, t) ∧ s.time.tide ≠ t ∧ s.pilot.dual = false)) ∧ (s.roleOf k = 1) ∧ (s.standbySnap k = some x) ∧ (s.active
         = none))),
    (let s : State :=
         { { having [(R.PLT_STATUS, F.PLT_STATUS_active, 1), (R.PLT_STATUS, F.PLT_STATUS_role_a, 1)] with pilot := { State.reset.pilot with pendForce := some (.A, 5) } } with hws := { State.reset.hws with snap := some snapOf } }
     let k : CoreId := .A
     let t : W64 := 5
     let x : CoreSnap := (s.standbySnap k).getD snapOf
     let j : CoreId := (s.active).getD .A
     decide (((s.pilot.pendForce = some (k, t) ∧ s.time.tide ≠ t ∧ s.pilot.dual = false)) ∧ (s.roleOf k = 1) ∧ (s.standbySnap k = some x) ∧ (s.active
         = some j))),
    (let s : State :=
         { having [(R.PLT_STATUS, F.PLT_STATUS_active, 2), (R.PLT_STATUS, F.PLT_STATUS_role_a, 2)] with pilot := { State.reset.pilot with pendForce := some (.A, 5) } }
     let k : CoreId := .A
     let t : W64 := 5
     decide (((s.pilot.pendForce = some (k, t) ∧ s.time.tide ≠ t ∧ s.pilot.dual = false)) ∧ (s.roleOf k = 2) ∧ (s.active = none))),
    (let s : State :=
         { having [(R.PLT_STATUS, F.PLT_STATUS_active, 1), (R.PLT_STATUS, F.PLT_STATUS_role_a, 2)] with pilot := { State.reset.pilot with pendForce := some (.A, 5) } }
     let k : CoreId := .A
     let t : W64 := 5
     let j : CoreId := (s.active).getD .A
     decide (((s.pilot.pendForce = some (k, t) ∧ s.time.tide ≠ t ∧ s.pilot.dual = false)) ∧ (s.roleOf k = 2) ∧ (s.active = some j))),
    (let s : State :=
         { having [(R.PLT_STATUS, F.PLT_STATUS_active, 1), (R.PLT_STATUS, F.PLT_STATUS_role_a, 3)] with pilot := { State.reset.pilot with pendForce := some (.A, 5) } }
     let k : CoreId := .A
     let t : W64 := 5
     decide (((s.pilot.pendForce = some (k, t) ∧ s.time.tide ≠ t ∧ s.pilot.dual = false)) ∧ ((s.roleOf k = 0 ∨ s.roleOf k = 3 ∨ (s.roleOf k = 1 ∧
         s.standbySnap k = none)))))] : List Bool).all id = true := by decide +kernel

/-- States and operands that meet the hypotheses of CoreReturnAndHawserRows, clause by clause in the order of the statement; two clauses in which a signature verifies turn on Config.verify, which has no body: no concrete state shows it. -/
theorem witness_CoreReturnAndHawserRows : ([
    (let s : State := State.reset
     decide ((s.hws.copy = none))),
    (let s : State := State.reset
     decide ((s.hws.copy = none))),
    (let s : State := { State.reset with hws := { State.reset.hws with copy := some copying } }
     let copy : HawserCopy := (s.hws.copy).getD copying
     decide ((s.hws.copy = some copy))),
    (let s : State := { State.reset with hws := { State.reset.hws with copy := some { copying with isVoid := true } } }
     let copy : HawserCopy := (s.hws.copy).getD copying
     decide ((s.hws.copy = some copy) ∧ (copy.isVoid = true))),
    (let s : State :=
         { having [(R.PLT_STATUS, F.PLT_STATUS_role_a, 0), (R.PLT_STATUS, F.PLT_STATUS_role_b, 0)] with hws := { State.reset.hws with copy := some copying } }
     let bad := (s.addCnt R.HWS_FRAME_ERR_CNT 1).setFlag R.HWS_STATUS F.HWS_STATUS_frame_err true
     let n := bad.hws.voids + 1
     let copy : HawserCopy := (s.hws.copy).getD copying
     let void : State :=
         { bad with hws := { bad.hws with copy := some { copy with isVoid := true }, voids := n }, pilot := { bad.pilot with handover := false } }
     decide ((s.hws.copy = some copy) ∧ (copy.isVoid = false) ∧ (void.standby = none))),
    (let s : State := { State.reset with hws := { State.reset.hws with copy := some copying } }
     let bad := (s.addCnt R.HWS_FRAME_ERR_CNT 1).setFlag R.HWS_STATUS F.HWS_STATUS_frame_err true
     let n := bad.hws.voids + 1
     let copy : HawserCopy := (s.hws.copy).getD copying
     let void : State :=
         { bad with hws := { bad.hws with copy := some { copy with isVoid := true }, voids := n }, pilot := { bad.pilot with handover := false } }
     let j : CoreId := (void.standby).getD .B
     decide ((s.hws.copy = some copy) ∧ (copy.isVoid = false) ∧ (void.standby = some j) ∧ ((void.roleOf j ≠ 1 ∨ n < 4)))),
    (let s : State := { having [(R.PLT_STATUS, F.PLT_STATUS_role_a, 1)] with hws := { State.reset.hws with copy := some copying, voids := 3 } }
     let bad := (s.addCnt R.HWS_FRAME_ERR_CNT 1).setFlag R.HWS_STATUS F.HWS_STATUS_frame_err true
     let n := bad.hws.voids + 1
     let copy : HawserCopy := (s.hws.copy).getD copying
     let void : State :=
         { bad with hws := { bad.hws with copy := some { copy with isVoid := true }, voids := n }, pilot := { bad.pilot with handover := false } }
     let j : CoreId := (void.standby).getD .B
     decide ((s.hws.copy = some copy) ∧ (copy.isVoid = false) ∧ (void.standby = some j) ∧ (void.roleOf j = 1) ∧ (4 ≤ n))),
    (let s : State :=
         { having [(R.PLT_STATUS, F.PLT_STATUS_role_a, 0), (R.PLT_STATUS, F.PLT_STATUS_role_b, 0)] with hws := { State.reset.hws with copy := some copying } }
     decide ((s.standby = none))),
    (let s : State :=
         { having [(R.PLT_STATUS, F.PLT_STATUS_role_a, 1)] with hws := { State.reset.hws with copy := some { copying with incomplete := true } } }
     let copy : HawserCopy := (s.hws.copy).getD copying
     let j : CoreId := (s.standby).getD .B
     decide ((s.hws.copy = some copy) ∧ (s.standby = some j) ∧ (copy.incomplete = true))),
    (let s : State := { State.reset with hws := { State.reset.hws with copy := some { copying with isVoid := true } } }
     let copy : HawserCopy := (s.hws.copy).getD copying
     let j : CoreId := (s.standby).getD .B
     decide ((s.hws.copy = some copy) ∧ (s.standby = some j) ∧ (copy.incomplete = false) ∧ (copy.isVoid = true))),
    (let s : State := { having [(R.PLT_STATUS, F.PLT_STATUS_role_a, 1)] with hws := { State.reset.hws with copy := some copying, voids := 2 } }
     let copy : HawserCopy := (s.hws.copy).getD copying
     let j : CoreId := (s.standby).getD .B
     let put := copy.lines.foldl (State.adoptLine j copy) s
     let kept : State := { put with hws := { put.hws with copy := none, snap := some copy.snap, voids := 0 } }
     decide ((s.hws.copy = some copy) ∧ (s.standby = some j) ∧ (copy.incomplete = false) ∧ (copy.isVoid = false) ∧ ((kept.roleOf j ≠ 2 ∨ copy.isWhole
         = false)))),
    (let s : State := { State.reset with hws := { State.reset.hws with copy := some copying } }
     let copy : HawserCopy := (s.hws.copy).getD copying
     let j : CoreId := (s.standby).getD .B
     let put := copy.lines.foldl (State.adoptLine j copy) s
     let kept : State := { put with hws := { put.hws with copy := none, snap := some copy.snap, voids := 0 } }
     decide ((s.hws.copy = some copy) ∧ (s.standby = some j) ∧ (copy.incomplete = false) ∧ (copy.isVoid = false) ∧ (kept.roleOf j = 2) ∧ (copy.isWhole
         = true))),
    (let s : State := { State.reset with pilot := { State.reset.pilot with restA := 1 } }
     let k : CoreId := .A
     decide ((s.restOf k = 1))),
    (let s : State := State.reset
     let k : CoreId := .A
     decide ((s.restOf k ≠ 1))),
    (let s : State := State.reset
     let k : CoreId := .A
     decide ((s.restOf k ≠ 2))),
    (let s : State := { State.reset with pilot := { State.reset.pilot with restA := 2 } }
     let k : CoreId := .A
     decide ((s.restOf k = 2))),
    (let s : State := { State.reset with pilot := { State.reset.pilot with restA := 2 } }
     let k : CoreId := .A
     decide ((s.restOf k = 2))),
    (let s : State := State.reset
     let k : CoreId := .A
     decide (((s.boot.harbour = none ∨ s.restOf k ≠ 3)))),
    (let s : State :=
         { { State.reset with pilot := { State.reset.pilot with restA := 3 } } with boot := { State.reset.boot with harbour := some 0x10000 } }
     let k : CoreId := .A
     let o : Nat := (s.boot.harbour).getD 0
     decide ((s.boot.harbour = some o) ∧ (s.restOf k = 3) ∧ (¬ (s.mfCheck o o harbourSlotSize true = 0))))] : List Bool).all id = true := by decide +kernel

/-- States and operands that meet the hypotheses of TideRows, clause by clause in the order of the statement. -/
theorem witness_TideRows : ([
    (let s : State := waiting .commit
     let k : CoreId := .A
     decide ((s.commits k = true) ∧ (s.commits k.other = false))),
    (let s : State := { State.reset with pilot := { State.reset.pilot with ok := true } }
     decide ((s.pilot.ok = true) ∧ (s.active ≠ none))),
    (let s : State := waiting .commit
     decide (((s.pilot.ok = false ∨ s.active = none)))),
    (let s : State := waiting .commit
     decide (((s.qc.atCommit = false ∨ s.time.phase ≠ 0)))),
    (let s : State :=
         { (holding 0 noDesc State.reset) with qc := { ((holding 0 noDesc State.reset)).qc with pendDepth := some (List.replicate 64 128), atCommit := true } }
     let l : List Nat := List.replicate 64 128
     decide ((s.qc.atCommit = true) ∧ (s.time.phase = 0) ∧ ((s.qc.pendDepth = none ∨ (s.qc.pendDepth = some l ∧ ¬ (∀ q : Fin 64, (s.queue q).depth =
         l.getD q.val 0 ∨ (s.queue q).entries = [])))))),
    (let s : State :=
         { State.reset with qc := { (State.reset).qc with pendDepth := some (((List.finRange 64).map (fun q => (State.reset.queue q).depth))), atCommit := true } }
     let l : List Nat := (s.qc.pendDepth).getD []
     decide ((s.qc.atCommit = true) ∧ (s.time.phase = 0) ∧ (s.qc.pendDepth = some l) ∧ ((∀ q : Fin 64, (s.queue q).depth = l.getD q.val 0 ∨ (s.queue
         q).entries = [])))),
    (let s : State := { (holding 0 noDesc State.reset) with qc := { ((holding 0 noDesc State.reset)).qc with pendDepth := some (List.replicate 64 128), atCommit := true } }
     s.qc.pendDepth == some (List.replicate 64 128) && (s.queue 0).depth != 128 && (s.queue 0).entries != [])] : List Bool).all id = true := by decide +kernel

/-- States and operands that meet the hypotheses of CompletionRows, clause by clause in the order of the statement. -/
theorem witness_CompletionRows : ([
    (let s : State := State.reset
     let ticket : W32 := mkTicket 1 1 0
     decide ((s.entryOf ticket = none))),
    (let s : State := holding 0 noDesc State.reset
     let ticket : W32 := mkTicket 1 1 0
     let e : QEntry := (s.entryOf ticket).getD (entry 0 noDesc)
     decide ((s.entryOf ticket = some e) ∧ (e.started = false))),
    (let s : State := ((begun (eqzQ .A) (desc 0x103 0 0 0 0) (State.reset)))
     let ticket : W32 := mkTicket 1 1 (eqzQ .A)
     let c : Carrier := .A
     let e : QEntry := (s.entryOf ticket).getD (entry 0 noDesc)
     let q := ticketQueue e.ticket
     let d := e.desc
     let is := fun (n : Fin 64) (op : Nat) => q = n ∧ d.opcode = op
     decide ((s.entryOf ticket = some e) ∧ (e.started = true) ∧ (is (eqzQ c) 0x103))),
    (let s : State := ((begun (fecQ .A) (desc 0x101 0 0 0 0) (State.reset)))
     let ticket : W32 := mkTicket 1 1 (fecQ .A)
     let c : Carrier := .A
     let e : QEntry := (s.entryOf ticket).getD (entry 0 noDesc)
     let q := ticketQueue e.ticket
     let d := e.desc
     let is := fun (n : Fin 64) (op : Nat) => q = n ∧ d.opcode = op
     decide ((s.entryOf ticket = some e) ∧ (e.started = true) ∧ (is (fecQ c) 0x101))),
    (let s : State := ((begun (20) (desc 0x100 0 0 0 0) (State.reset)))
     let ticket : W32 := mkTicket 1 1 (20)
     let e : QEntry := (s.entryOf ticket).getD (entry 0 noDesc)
     let q := ticketQueue e.ticket
     let d := e.desc
     let is := fun (n : Fin 64) (op : Nat) => q = n ∧ d.opcode = op
     decide ((s.entryOf ticket = some e) ∧ (e.started = true) ∧ (is 20 0x100))),
    (let s : State := ((begun (28) (desc 0x100 0 0 0 0) (State.reset)))
     let ticket : W32 := mkTicket 1 1 (28)
     let e : QEntry := (s.entryOf ticket).getD (entry 0 noDesc)
     let q := ticketQueue e.ticket
     let d := e.desc
     let is := fun (n : Fin 64) (op : Nat) => q = n ∧ d.opcode = op
     decide ((s.entryOf ticket = some e) ∧ (e.started = true) ∧ (is 28 0x100))),
    (let s : State := ((begun (29) (desc 0x100 0 0 0 0) (State.reset)))
     let ticket : W32 := mkTicket 1 1 (29)
     let e : QEntry := (s.entryOf ticket).getD (entry 0 noDesc)
     let q := ticketQueue e.ticket
     let d := e.desc
     let is := fun (n : Fin 64) (op : Nat) => q = n ∧ d.opcode = op
     decide ((s.entryOf ticket = some e) ∧ (e.started = true) ∧ (is 29 0x100))),
    (let s : State := ((begun (24) (desc 0x101 0 0 0 0) (State.reset)))
     let ticket : W32 := mkTicket 1 1 (24)
     let e : QEntry := (s.entryOf ticket).getD (entry 0 noDesc)
     let q := ticketQueue e.ticket
     let d := e.desc
     let is := fun (n : Fin 64) (op : Nat) => q = n ∧ d.opcode = op
     decide ((s.entryOf ticket = some e) ∧ (e.started = true) ∧ (¬ (is (eqzQ .A) 0x103 ∨ is (eqzQ .B) 0x103 ∨ is (fecQ .A) 0x101 ∨ is (fecQ .B) 0x101
         ∨ is 20 0x100 ∨ is 28 0x100 ∨ is 29 0x100)))),
    (let s : State := ((begun (24) (desc 0x101 0 0 0 0) (State.reset)))
     let ticket : W32 := mkTicket 1 1 (24)
     let e : QEntry := (s.entryOf ticket).getD (entry 0 noDesc)
     let q := ticketQueue e.ticket
     let d := e.desc
     let is := fun (n : Fin 64) (op : Nat) => q = n ∧ d.opcode = op
     decide ((s.entryOf ticket = some e) ∧ (e.started = true) ∧ (is 24 0x101))),
    (let s : State := ((begun (18) (desc 0x100 0 0 0 0) (State.reset)))
     let ticket : W32 := mkTicket 1 1 (18)
     let e : QEntry := (s.entryOf ticket).getD (entry 0 noDesc)
     let q := ticketQueue e.ticket
     let d := e.desc
     let is := fun (n : Fin 64) (op : Nat) => q = n ∧ d.opcode = op
     decide ((s.entryOf ticket = some e) ∧ (e.started = true) ∧ (is 18 0x100))),
    (let s : State := ((begun (19) (desc 0x100 0 0 0 0) (State.reset)))
     let ticket : W32 := mkTicket 1 1 (19)
     let e : QEntry := (s.entryOf ticket).getD (entry 0 noDesc)
     let q := ticketQueue e.ticket
     let d := e.desc
     let is := fun (n : Fin 64) (op : Nat) => q = n ∧ d.opcode = op
     decide ((s.entryOf ticket = some e) ∧ (e.started = true) ∧ (is 19 0x100))),
    (let s : State := ((begun (0) (desc 0x102 0 0 0 0) (State.reset)))
     let ticket : W32 := mkTicket 1 1 0
     let e : QEntry := (s.entryOf ticket).getD (entry 0 noDesc)
     let q := ticketQueue e.ticket
     let d := e.desc
     let is := fun (n : Fin 64) (op : Nat) => q = n ∧ d.opcode = op
     decide ((s.entryOf ticket = some e) ∧ (e.started = true) ∧ (¬ (is (eqzQ .A) 0x103 ∨ is (eqzQ .B) 0x103 ∨ is (fecQ .A) 0x101 ∨ is (fecQ .B) 0x101
         ∨ is 20 0x100 ∨ is 28 0x100 ∨ is 29 0x100)) ∧ (¬ (is 24 0x101 ∨ is 18 0x100 ∨ is 19 0x100)))),
    (let e : QEntry := entry 0 { noDesc with resultAddr := 0x200000 }
     decide ((e.desc.resultAddr ≠ 0) ∧ (e.recordOk = true) ∧ (0x200000 ≤ e.desc.resultAddr))),
    (let e : QEntry := entry 0 { noDesc with resultAddr := 0x200000 }
     let x : Nat := coreAddr .A 0x200000 - 1
     let a := coreAddr e.core e.desc.resultAddr
     decide ((e.desc.resultAddr ≠ 0) ∧ (e.recordOk = true) ∧ (0x200000 ≤ e.desc.resultAddr) ∧ ((x < a ∨ a + 32 ≤ x)))),
    (let e : QEntry := entry 0 noDesc
     decide (((e.desc.resultAddr = 0 ∨ e.recordOk = false)))),
    (let e : QEntry := entry 0 { noDesc with flags := 2 }
     decide ((e.desc.notify = true))),
    (let s : State := State.reset
     let q : Fin 64 := 0
     let e : QEntry := entry 0 noDesc
     decide ((ticketQueue e.ticket = q) ∧ ((s.queue q).issued - e.no < 4096)))] : List Bool).all id = true := by decide +kernel

/-- States and operands that meet the hypotheses of RegisterFieldTypes, clause by clause in the order of the statement. -/
theorem witness_RegisterFieldTypes : ([
    (let v : W32 := 9
     let f : Fld := { lsb := 31, width := 1, ty := .rw }
     let limited := (f.limit (getBits f v)).2
     decide ((f.lsb + f.width ≤ 32) ∧ (f.ty = .rw) ∧ (f.st = false) ∧ (limited = false))),
    (let v : W32 := 9
     let f : Fld := { lsb := 31, width := 1, ty := .rw }
     let limited := (f.limit (getBits f v)).2
     decide ((f.lsb + f.width ≤ 32) ∧ (f.ty = .rw) ∧ (f.st = false) ∧ (limited = false) ∧ (f.lim = .free))),
    (let a : Nat := 0x12001000
     let v : W32 := 9
     let f : Fld := { lsb := 0, width := 4, ty := .rw, st := false, lim := .clamp 2 8, limBit := 31 }
     let limited := (f.limit (getBits f v)).2
     decide ((f.lsb + f.width ≤ 32) ∧ (f.ty = .rw) ∧ (f.st = false) ∧ (limited = true) ∧ (a ≠ limStatus a))),
    (let a : Nat := 0x12001000
     let v : W32 := 9
     let f : Fld := { lsb := 0, width := 4, ty := .rw, st := false, lim := .clamp 2 8, limBit := 31 }
     let limited := (f.limit (getBits f v)).2
     decide ((f.lsb + f.width ≤ 32) ∧ (f.ty = .rw) ∧ (f.st = false) ∧ (limited = true) ∧ (a ≠ limStatus a) ∧ (f.limBit < 32))),
    (let v : W32 := 9
     let f : Fld := { lsb := 31, width := 1, ty := .rw, st := true }
     let limited := (f.limit (getBits f v)).2
     decide ((f.lsb + f.width ≤ 32) ∧ (f.ty = .rw) ∧ (f.st = true) ∧ (limited = false))),
    (let v : W32 := 9
     let f : Fld := { lsb := 31, width := 1, ty := .rw, st := true }
     let limited := (f.limit (getBits f v)).2
     decide ((f.lsb + f.width ≤ 32) ∧ (f.ty = .rw) ∧ (f.st = true) ∧ (limited = false))),
    (let a : Nat := 0x12001000
     let v : W32 := 9
     let f : Fld := { lsb := 31, width := 1, ty := .rw, st := true }
     let b : Nat := 0x12001004
     let limited := (f.limit (getBits f v)).2
     decide ((f.lsb + f.width ≤ 32) ∧ (f.ty = .rw) ∧ (f.st = true) ∧ (limited = false) ∧ (b ≠ a))),
    (let f : Fld := { lsb := 0, width := 32, ty := .w1c }
     decide ((f.lsb + f.width ≤ 32) ∧ (f.ty = .w1c))),
    (let f : Fld := { lsb := 0, width := 8, ty := .w1s }
     decide ((f.lsb + f.width ≤ 32) ∧ ((f.ty = .ro ∨ f.ty = .rc ∨ f.ty = .wo ∨ f.ty = .w1s)))),
    (let a : Nat := 0x12001000
     let v : W32 := 9
     let f : Fld := { lsb := 31, width := 1, ty := .rw }
     let b : Nat := 0x12001004
     let limited := (f.limit (getBits f v)).2
     decide ((f.lsb + f.width ≤ 32) ∧ (limited = false) ∧ (b ≠ a))),
    (let v : W32 := 9
     let f : Fld := { lsb := 31, width := 1, ty := .rw }
     let i : Nat := 30
     let limited := (f.limit (getBits f v)).2
     let outside := fun (i : Nat) => i < f.lsb ∨ f.lsb + f.width ≤ i
     decide ((f.lsb + f.width ≤ 32) ∧ (limited = false) ∧ (outside i))),
    (let v : W32 := 9
     let f : Fld := { lsb := 31, width := 1, ty := .rw }
     let g : Fld := { lsb := 0, width := 31 }
     let limited := (f.limit (getBits f v)).2
     decide ((f.lsb + f.width ≤ 32) ∧ (limited = false) ∧ ((f.lsb + f.width ≤ g.lsb ∨ g.lsb + g.width ≤ f.lsb))))] : List Bool).all id = true := by decide +kernel

end Sys2Proof.Tests
end

/-! PROOF. Register accesses by programs and by the host (R4, R5, R30, R31, R48, R49, R400, R469 to R472): what each row does, case by case. -/
namespace Sys2Proof.Proofs
open Sys2Proof Sys2Proof.Machine Sys2Proof.Safety Sys2Proof.Laws

/-! ### Faults of alignment -/

theorem writeFault_misaligned {s : State} {a : W64} (harbour : Bool) (h : a.toNat % 4 ≠ 0) :
    s.writeFault harbour a = some (.fault causeAlign 0 0 a) := if_pos h

theorem readFault_misaligned {s : State} {a : W64} (h : a.toNat % 4 ≠ 0) : s.readFault a = some (.fault causeAlign 0 0 a) := if_pos h

/-! ### STX and LDX of a core that takes an instruction -/

section
variable {k : CoreId} {s t : State} {rd rs ra : BitVec 5} {imm : BitVec 16} {cause block detail : Nat} {a : W64} (h : Fetches s k)
include h

theorem stx_faults (hf : s.writeFault (s.core k).harbour ((s.core k).ea ra imm) = some (.fault cause block detail a)) :
    Leaves (.stx k rs ra imm) s k (faulted (s.core k) cause block detail a) :=
  leaves_fault h rfl (by simp only [hf])

theorem stx_writes (hf : s.writeFault (s.core k).harbour ((s.core k).ea ra imm) = none)
    (hw : s.programWrite k ((s.core k).ea ra imm) (((s.core k).gpr rs).truncate 32) = .next t) :
    Does (.stx k rs ra imm) s ((t.pmcCount k 4 1).retire k) :=
  does_step h rfl (by simp only [hf, hw])

theorem stx_parks (hf : s.writeFault (s.core k).harbour ((s.core k).ea ra imm) = none)
    (hw : s.programWrite k ((s.core k).ea ra imm) (((s.core k).gpr rs).truncate 32) = .parked block a t) :
    Does (.stx k rs ra imm) s (t.coreFault k causeParked block 0 a) :=
  does_parked h rfl (by simp only [hf, hw])

theorem ldx_faults (hf : s.readFault ((s.core k).ea ra imm) = some (.fault cause block detail a)) :
    Leaves (.ldx k rd ra imm) s k (faulted (s.core k) cause block detail a) :=
  leaves_fault h rfl (by simp only [hf])

theorem ldx_reads (hf : s.readFault ((s.core k).ea ra imm) = none)
    (hr : (s.readWord (.core k) ((s.core k).ea ra imm).toNat).2.1 = false ∨ (s.core k).pae = false) :
    Does (.ldx k rd ra imm) s ((((s.readWord (.core k) ((s.core k).ea ra imm).toNat).2.2.modCore k
      (fun c => c.setGpr rd ((s.readWord (.core k) ((s.core k).ea ra imm).toNat).1.zeroExtend 64))).pmcCount k 4 1).retire k) := by
  refine does_step h rfl ?_
  have hn : ¬ ((s.readWord (.core k) ((s.core k).ea ra imm).toNat).2.1 = true ∧ (s.core k).pae = true) := by grind
  simp only [hf, if_neg hn]

theorem ldx_parks (hf : s.readFault ((s.core k).ea ra imm) = none)
    (hr : (s.readWord (.core k) ((s.core k).ea ra imm).toNat).2.1 = true) (hp : (s.core k).pae = true) :
    Does (.ldx k rd ra imm) s ((s.readWord (.core k) ((s.core k).ea ra imm).toNat).2.2.coreFault k causeParked
      ((blockOfAddr ((s.core k).ea ra imm).toNat).getD 0) 0 ((s.core k).ea ra imm)) :=
  does_parked h rfl (by simp only [hf, if_pos (And.intro hr hp)])

end

/-! ### REGISTER_WRITE of a core -/

section
variable {k : CoreId} {s t : State} {addr : BitVec 29} {value : W32} {whole : Bool} {cause block detail : Nat} {a : W64}

theorem registerWrite_busy (h : (s.core k).run ≠ .running ∨ (s.core k).wait ≠ .none) : Does (.registerWrite (.core k) addr value whole) s s :=
  if_pos h

variable (h : ¬ ((s.core k).run ≠ .running ∨ (s.core k).wait ≠ .none))
include h

theorem registerWrite_faults (hf : s.writeFault (s.core k).harbour (addr.zeroExtend 64) = some (.fault cause block detail a)) :
    Does (.registerWrite (.core k) addr value whole) s (s.coreFault k cause block detail a) :=
  (if_neg h).trans (by simp only [hf])

theorem registerWrite_writes (hf : s.writeFault (s.core k).harbour (addr.zeroExtend 64) = none)
    (hw : s.programWrite k (addr.zeroExtend 64) value = .next t) : Does (.registerWrite (.core k) addr value whole) s t :=
  (if_neg h).trans (by simp only [hf, hw])

theorem registerWrite_parks (hf : s.writeFault (s.core k).harbour (addr.zeroExtend 64) = none)
    (hw : s.programWrite k (addr.zeroExtend 64) value = .parked block a t) :
    Does (.registerWrite (.core k) addr value whole) s (t.coreFault k causeParked block 0 a) :=
  (if_neg h).trans (by simp only [hf, hw])

end

/-- Settles O49: STX, LDX and REGISTER_WRITE of a core, each case by the lemma on that outcome of its access. -/
theorem registerAccessByPrograms : Obligations.RegisterAccessByPrograms := by
  unfold Obligations.RegisterAccessByPrograms
  intro k s t rd rs ra imm cause block detail at_ addr value whole
  refine ⟨fun h => ⟨fun ha => ⟨stx_faults h (writeFault_misaligned _ ha), ldx_faults h (readFault_misaligned ha)⟩, stx_faults h, stx_writes h,
    stx_parks h, ldx_faults h, ldx_reads h, ldx_parks h⟩, registerWrite_busy,
    fun h => ⟨registerWrite_faults h, registerWrite_writes h, registerWrite_parks h⟩⟩

/-! ### Host accesses over PCIe -/

theorem hostWrite_absent {s : State} {a : Nat} {v : W32} (h : s.absentAt a = true) : s.hostWrite a v = s := if_pos h

theorem hostWrite_mailbox {s : State} {a : Nat} {v : W32} (h : s.absentAt a = false) (hm : mbxReq 0 ≤ a ∧ a < mbxReq 64) :
    s.hostWrite a v = s.mbxWrite false a v := (if_neg (by simp [h])).trans (if_pos hm)

theorem hostWrite_memory {s : State} {a : Nat} {v : W32} (h : s.absentAt a = false) (hm : ¬ (mbxReq 0 ≤ a ∧ a < mbxReq 64))
    (hr : a < 0x800000 ∨ (0x01000000 ≤ a ∧ a < 0x01C00000) ∨ (0x02000000 ≤ a ∧ a < 0x02200000)) : s.hostWrite a v = s.hifErr errRegion a false :=
  (if_neg (by simp [h])).trans ((if_neg hm).trans (if_pos hr))

/-- An address that is no memory, no mailbox slot and not of an absent carrier. -/
def PlainAt (s : State) (a : Nat) : Prop :=
  s.absentAt a = false ∧ ¬ (mbxReq 0 ≤ a ∧ a < mbxReq 64) ∧ ¬ (a < 0x800000 ∨ (0x01000000 ≤ a ∧ a < 0x01C00000) ∨ (0x02000000 ≤ a ∧ a < 0x02200000))

section
variable {s : State} {a : Nat} {v : W32} (h : PlainAt s a)
include h

theorem hostWrite_unmapped (hb : blockOfAddr a = none) : s.hostWrite a v = s.hifErr errUnmapped a false := by
  obtain ⟨hx, hm, hr⟩ := h
  simp only [State.hostWrite, hx, hm, hr, hb, Bool.false_eq_true, if_false]

theorem hostWrite_enclave (hb : blockOfAddr a = some 0x15) :
    s.hostWrite a v = if secWritable 0 a then s.writeReg a v else s.hifErr errRegion a false := by
  obtain ⟨hx, hm, hr⟩ := h
  simp only [State.hostWrite, hx, hm, hr, hb, Bool.false_eq_true, if_false, if_true]

variable (hb : blockOfAddr a ≠ none) (he : blockOfAddr a ≠ some 0x15)
include hb he

/-- In a block other than the enclave, the checks left are the register, its power state, the recovery window and the HX fields. -/
theorem hostWrite_block : s.hostWrite a v =
    let blk := (blockOfAddr a).getD 0
    let touched := s.accessTouch (domainOfAddr a) blk
    let cleared := touched.writeW1c a v
    if isReg a = false then s.hifErr errUnmapped a false
    else if s.laidUp (domainOfAddr a) then s.parkedAccess (domainOfAddr a) blk none true
    else if R.HIF_FLASH_CMD ≤ a ∧ a < R.HIF_FLASH_DATA 64 ∧ s.recoveryOpen = false ∧ a ≠ R.HIF_FLASH_STATUS then s.hifErr errRegion a false
    else if (fieldsAt a).any (·.hx) then (if v ≠ 0 ∧ v &&& ~~~w1cMask (fieldsAt a) = 0 then cleared else cleared.hifErr errHx a false)
    else touched.writeReg a v := by
  obtain ⟨hx, hm, hr⟩ := h
  obtain ⟨blk, hb⟩ := Option.ne_none_iff_exists'.mp hb
  have hn : blk ≠ 0x15 := fun e => he (by rw [hb, e])
  refine (if_neg (by simp [hx])).trans ((if_neg hm).trans ((if_neg hr).trans ?_))
  rw [hb]
  exact if_neg hn

theorem hostWrite_noRegister (hi : isReg a = false) : s.hostWrite a v = s.hifErr errUnmapped a false := (hostWrite_block h hb he).trans (if_pos hi)

variable (hi : isReg a = true)
include hi

theorem hostWrite_laidUp (hl : s.laidUp (domainOfAddr a) = true) :
    s.hostWrite a v = s.parkedAccess (domainOfAddr a) ((blockOfAddr a).getD 0) none true :=
  (hostWrite_block h hb he).trans ((if_neg (by simp [hi])).trans (if_pos hl))

variable (hl : s.laidUp (domainOfAddr a) = false)
include hl

/-- A register whose domain is not laid up: the recovery window, then the HX fields. -/
theorem hostWrite_running : s.hostWrite a v =
    let touched := s.accessTouch (domainOfAddr a) ((blockOfAddr a).getD 0)
    let cleared := touched.writeW1c a v
    if R.HIF_FLASH_CMD ≤ a ∧ a < R.HIF_FLASH_DATA 64 ∧ s.recoveryOpen = false ∧ a ≠ R.HIF_FLASH_STATUS then s.hifErr errRegion a false
    else if (fieldsAt a).any (·.hx) then (if v ≠ 0 ∧ v &&& ~~~w1cMask (fieldsAt a) = 0 then cleared else cleared.hifErr errHx a false)
    else touched.writeReg a v :=
  (hostWrite_block h hb he).trans ((if_neg (by simp [hi])).trans (if_neg (by simp [hl])))

theorem hostWrite_recoveryShut (hf : R.HIF_FLASH_CMD ≤ a ∧ a < R.HIF_FLASH_DATA 64 ∧ s.recoveryOpen = false ∧ a ≠ R.HIF_FLASH_STATUS) :
    s.hostWrite a v = s.hifErr errRegion a false :=
  (hostWrite_running h hb he hi hl).trans (if_pos hf)

variable (hf : ¬ (R.HIF_FLASH_CMD ≤ a ∧ a < R.HIF_FLASH_DATA 64 ∧ s.recoveryOpen = false ∧ a ≠ R.HIF_FLASH_STATUS))
include hf

theorem hostWrite_hx (hx : (fieldsAt a).any (·.hx) = true) : s.hostWrite a v =
    let cleared := (s.accessTouch (domainOfAddr a) ((blockOfAddr a).getD 0)).writeW1c a v
    if v ≠ 0 ∧ v &&& ~~~w1cMask (fieldsAt a) = 0 then cleared else cleared.hifErr errHx a false :=
  (hostWrite_running h hb he hi hl).trans ((if_neg hf).trans (if_pos hx))

theorem hostWrite_register (hx : (fieldsAt a).any (·.hx) = false) :
    s.hostWrite a v = (s.accessTouch (domainOfAddr a) ((blockOfAddr a).getD 0)).writeReg a v :=
  (hostWrite_running h hb he hi hl).trans ((if_neg hf).trans (if_neg (by simp [hx])))

end

section
variable {s : State} {addr : BitVec 29} {value : W32} {whole : Bool}

/-- hif.reply holds the words that a read returns. -/
def replied (l : List W32) (s : State) : State := { s with hif := { s.hif with reply := l } }

theorem hostRegisterWrite_stopped (h : ¬ s.hifServes = true) : Does (.registerWrite .host addr value whole) s s :=
  congrArg Host.Outcome.next (if_pos (Bool.eq_false_iff.mpr h))

theorem hostRegisterRead_stopped (h : ¬ s.hifServes = true) : Does (.hostRegisterRead addr whole) s (replied [] s) := if_pos (Bool.eq_false_iff.mpr h)

variable (h : s.hifServes = true)
include h

theorem hostRegisterWrite_partial (hw : addr.toNat % 4 ≠ 0 ∨ whole = false) :
    Does (.registerWrite .host addr value whole) s (s.hifErr errWidth addr.toNat false) :=
  congrArg Host.Outcome.next ((if_neg (by simp [h])).trans (if_pos hw))

theorem hostRegisterWrite_whole (ha : addr.toNat % 4 = 0) : Does (.registerWrite .host addr value true) s (s.hostWrite addr.toNat value) :=
  congrArg Host.Outcome.next ((if_neg (by simp [h])).trans (if_neg (by simp [ha])))

/-- A read that HIF serves returns one word. -/
theorem hostRegisterRead_serving (whole : Bool) : exec (.hostRegisterRead addr whole) s =
    let r := if addr.toNat % 4 ≠ 0 ∨ whole = false then (0xFFFFFFFF, s.hifErr errWidth addr.toNat false) else s.hostRead false addr.toNat
    .next (replied [r.1] r.2) := if_neg (by simp [h])

theorem hostRegisterRead_partial (hw : addr.toNat % 4 ≠ 0 ∨ whole = false) :
    Does (.hostRegisterRead addr whole) s (replied [0xFFFFFFFF] (s.hifErr errWidth addr.toNat false)) :=
  (hostRegisterRead_serving h whole).trans (by simp only [if_pos hw])

theorem hostRegisterRead_whole (ha : addr.toNat % 4 = 0) :
    Does (.hostRegisterRead addr true) s (replied [(s.hostRead false addr.toNat).1] (s.hostRead false addr.toNat).2) :=
  (hostRegisterRead_serving h true).trans (by simp [ha])

end

/-! ### I2C -/

section
variable {s : State} {target : BitVec 7} {bytes : List Byte} {addr : W32} {words : Nat}

theorem i2cWrite_ignored (h : s.i2cAcks target = false ∨ bytes.length < 4) : Does (.i2cWriteTransaction target bytes) s s := if_pos h

theorem i2cWrite_acts (h : s.i2cAcks target = true) (hl : 4 ≤ bytes.length) :
    Does (.i2cWriteTransaction target bytes) s (s.i2cWords (beNat (bytes.take 4)) (bytes.drop 4)) := if_neg (by simp [h, hl])

theorem i2cRead_ignored (h : s.i2cAcks target = false) : Does (.i2cReadTransaction target addr words) s (replied [] s) := if_pos h

theorem i2cRead_acts (h : s.i2cAcks target = true) :
    Does (.i2cReadTransaction target addr words) s (replied (s.i2cReadWords words addr.toNat).1 (s.i2cReadWords words addr.toNat).2) := if_neg (by simp [h])

end

/-- Settles O50: a host access by whether HIF serves and the word is whole, then the case of its address; I2C by whether the device answers. -/
theorem hostAccessRows : Obligations.HostAccessRows := by
  unfold Obligations.HostAccessRows
  intro s addr value waddr target bytes words
  refine ⟨fun hs => ⟨fun _ => hostRegisterWrite_stopped hs, fun _ => hostRegisterRead_stopped hs⟩,
    fun hs => ⟨hostRegisterWrite_partial hs (.inr rfl), hostRegisterRead_partial hs (.inr rfl)⟩,
    fun hs ha _ => ⟨hostRegisterWrite_partial hs (.inl ha), hostRegisterRead_partial hs (.inl ha)⟩,
    fun hs ha => ⟨hostRegisterRead_whole hs ha, ?_⟩, i2cWrite_ignored, i2cWrite_acts, i2cRead_ignored, i2cRead_acts⟩
  have write : ∀ {t : State}, s.hostWrite addr.toNat value = t → Does (.registerWrite .host addr value true) s t :=
    fun e => e ▸ hostRegisterWrite_whole hs ha
  exact ⟨fun hx => write (hostWrite_absent hx), fun hx hm => write (hostWrite_mailbox hx hm), fun hx hm hr => write (hostWrite_memory hx hm hr),
    fun h hb => write (hostWrite_unmapped h hb), fun h hb => write (hostWrite_enclave h hb),
    fun h hb he hi => write (hostWrite_noRegister h hb he hi), fun h hb he hi hl => write (hostWrite_laidUp h hb he hi hl),
    fun h hb he hi hl hf => write (hostWrite_recoveryShut h hb he hi hl hf),
    fun ⟨h, hb, he, hi, hl, hf⟩ hx => write (hostWrite_hx h hb he hi hl hf hx),
    fun ⟨h, hb, he, hi, hl, hf⟩ hx => write (hostWrite_register h hb he hi hl hf hx)⟩

end Sys2Proof.Proofs

/-! PROOF. The state after PORESET_N (R10), and what each reset leaves of the state (R22, R36, R79, R390, R405, R468, R484, R485, R489, Table HIF-9). -/
namespace Sys2Proof.Proofs
open Sys2Proof Sys2Proof.Machine Sys2Proof.Safety Sys2Proof.Laws

/-! ### Right after PORESET_N -/

theorem reset_queue (q : Fin 64) : State.reset.queue q = { depth := queueResetDepth q, seq := 1, entries := [], issued := 0, done := [] } := by
  simp [State.queue, State.reset]

theorem reset_core (k : CoreId) : State.reset.core k = coreReset := by cases k <;> rfl

/-- DEVTIME_INC of a crystal at its nominal 50 MHz (R386). -/
theorem regReset_devtimeInc : regReset R.REF_DEVTIME_INC = 0x0C800000 := by decide +kernel

/-- Settles O4: registers and bytes of empty sparse maps read their defaults; the rest are the fields of State.reset. -/
theorem resetState : Obligations.ResetState := by
  unfold Obligations.ResetState
  refine ⟨rfl, rfl, fun _ => rfl, rfl, rfl, rfl, rfl, fun _ => rfl, fun q => ?_, rfl, fun k => ?_, rfl, regReset_devtimeInc, rfl⟩
  · rw [reset_queue]
    exact ⟨rfl, rfl⟩
  · rw [reset_core]
    rfl

/-! ### What a reset of every domain but AON leaves -/

/-- A state whose registers alone may have changed is the one it was but for its registers. -/
theorem eq_of_within_regs {s t : State} (h : Within [.regs] s t) : t = { s with regs := t.regs } := by
  obtain ⟨-, -, h⟩ := h
  cases s
  cases t
  simp only [State.mk.injEq]
  exact ⟨h .part rfl, h .dieRev rfl, h .pending rfl, trivial, h .mem rfl, h .flash rfl, h .coreA rfl, h .coreB rfl, h .qc rfl, h .claims rfl, h .berth rfl,
    h .time rfl, h .hold rfl, h .pilot rfl, h .boot rfl, h .hws rfl, h .hif rfl, h .pins rfl, h .pwr rfl, h .free rfl, h .cph rfl, h .txA rfl, h .txB rfl,
    h .rxA rfl, h .rxB rfl, h .eqA rfl, h .eqB rfl, h .crA rfl, h .crB rfl, h .fecA rfl, h .fecB rfl, h .hailA rfl, h .hailB rfl, h .frmA rfl, h .frmB rfl,
    h .osp rfl, h .clm rfl, h .brt rfl, h .lanes rfl, h .mon rfl, h .anl rfl, h .log rfl, h .obs rfl, h .ecc rfl, h .ref rfl, h .sec rfl⟩

/-- A command whose last operations change registers alone answers what holds before them whatever the registers are. -/
theorem answers_of_within_regs {c : Instr} {s b t : State} {p : State → Prop} (he : exec c s = .next t) (hw : Within [.regs] b t)
    (hp : ∀ r, p { b with regs := r }) : Answers c s p := by
  refine ⟨t, he, ?_⟩
  rw [eq_of_within_regs hw]
  exact hp _

/-- The cores, queues, claims, the pilot, the hawser, HIF and the engines of t are as after PORESET_N; flash and fuses are those of s. -/
def Fresh (s t : State) : Prop :=
  let r := State.reset
  t.coreA = r.coreA ∧ t.coreB = r.coreB ∧ t.qc = r.qc ∧ t.claims = [] ∧ t.berth = r.berth ∧ t.hold = r.hold ∧ t.pilot = r.pilot
    ∧ t.boot = r.boot ∧ t.hws = r.hws ∧ t.hif = r.hif ∧ t.cph = r.cph ∧ t.txA = r.txA ∧ t.txB = r.txB ∧ t.rxA = r.rxA ∧ t.rxB = r.rxB ∧ t.osp = r.osp
    ∧ t.clm = r.clm ∧ t.brt = r.brt ∧ t.lanes = r.lanes ∧ t.mon = r.mon ∧ t.obs = r.obs ∧ t.flash = s.flash
    ∧ t.sec.anchors = s.sec.anchors ∧ t.sec.rollback = s.sec.rollback

theorem powerReset_fresh (b : Bool) (s : State) : Fresh s (s.powerReset b) :=
  ⟨rfl, rfl, rfl, rfl, rfl, rfl, rfl, rfl, rfl, rfl, rfl, rfl, rfl, rfl, rfl, rfl, rfl, rfl, rfl, rfl, rfl, rfl, rfl, rfl⟩

/-- What holdReset sets at once; the folds after it change registers alone. -/
theorem holdReset_base (cause : Nat) (s : State) : ∃ b : State, Within [.regs] b (s.holdReset cause) ∧ Fresh s b ∧ b.mem = s.mem ∧ b.time = s.time
    ∧ b.ref = s.ref ∧ b.pins = s.pins ∧ b.log.cause = cause := by
  refine ⟨_, within_foldl (fun t d h => State.startWake_within d rfl ?_) (within_foldl (fun t v h => ?_)
    (State.clearW1c_within _ rfl (State.clearW1c_within _ rfl (State.clearW1c_within _ rfl (State.setFlag_within _ _ _ rfl (Within.refl _ _)))))),
    ⟨rfl, rfl, rfl, rfl, rfl, rfl, rfl, rfl, rfl, rfl, rfl, rfl, rfl, rfl, rfl, rfl, rfl, rfl, rfl, rfl, rfl, rfl, rfl, rfl⟩, rfl, rfl, rfl, rfl, rfl⟩
  · exact within_ite h (fun _ => State.setFld_within _ _ _ rfl h)
  · exact within_ite h (fun _ => State.anlShow_within v rfl h)

/-- A hold of reset leaves every domain but AON at reset, and memory, grid, REF and balls as they were. -/
theorem holdReset_leaves (cause : Nat) (s : State) : Fresh s (s.holdReset cause) ∧ (s.holdReset cause).mem = s.mem ∧ (s.holdReset cause).time = s.time
    ∧ (s.holdReset cause).ref = s.ref ∧ (s.holdReset cause).pins = s.pins ∧ (s.holdReset cause).log.cause = cause := by
  obtain ⟨b, hw, hb⟩ := holdReset_base cause s
  rw [eq_of_within_regs hw]
  exact hb

/-! ### PORESET_N -/

theorem poresetNAssert_leaves (s : State) : Answers .poresetNAssert s (fun t => Fresh s t ∧ t.regs = State.reset.regs ∧ t.mem = []
    ∧ t.time = State.reset.time ∧ t.ref = State.reset.ref ∧ t.pins.poresetN = false) :=
  ⟨_, rfl, powerReset_fresh false s, rfl, rfl, rfl, rfl, rfl⟩

theorem poresetNRelease_high {s : State} (h : s.pins.poresetN = true) (testEn : Bool) : Does (.poresetNRelease testEn) s s := if_pos h

theorem poresetNRelease_leaves {s : State} (h : ¬ s.pins.poresetN = true) (testEn : Bool) : Answers (.poresetNRelease testEn) s (fun t => Fresh s t
    ∧ t.mem = [] ∧ t.time = State.reset.time ∧ t.ref = State.reset.ref ∧ t.pins = { s.pins with poresetN := true, aonAlarm := false, testEn }) :=
  answers_of_within_regs (if_neg h) (within_foldl (fun _ v h => within_ite h (fun _ => State.anlShow_within v rfl h)) (Within.refl _ _))
    (fun _ => ⟨powerReset_fresh true s, rfl, rfl, rfl, rfl⟩)

/-! ### RESET_N and HIF_SWRESET -/

theorem resetNAssert_leaves {s : State} (h : s.pins.poresetN = true) : Answers .resetNAssert s (fun t => Fresh s t ∧ t.mem = s.mem ∧ t.time = s.time
    ∧ t.ref = s.ref ∧ t.pins = { s.pins with resetN := false } ∧ t.log.cause = 1) := by
  obtain ⟨hf, hm, ht, hr, hp, hl⟩ := holdReset_leaves 1 s
  exact ⟨_, if_neg (by simp [h]), hf, hm, ht, hr, congrArg (fun p => { p with resetN := false }) hp, hl⟩

theorem resetNRelease_idle {s : State} (h : s.pins.poresetN = false ∨ s.pins.resetN = true) : Does .resetNRelease s s := if_pos h

theorem resetNRelease_starts {s : State} (h : s.pins.poresetN = true) (hr : s.pins.resetN = false) :
    Does .resetNRelease s (if s.time.rootLocked then State.startUp { s with pins := { s.pins with resetN := true } }
      else { s with pins := { s.pins with resetN := true } }) := if_neg (by simp [h, hr])

theorem swReset_idle {s : State} (h : s.pins.poresetN = false ∨ s.pins.resetN = false ∨ s.time.rootLocked = false) : s.swReset = s := if_neg (by grind)

theorem swReset_restarts {s : State} (h : s.pins.poresetN = true) (hr : s.pins.resetN = true) (hl : s.time.rootLocked = true) :
    s.swReset = (s.holdReset 1).startUp := if_pos (by simp [h, hr, hl])

theorem hifSwreset_does (s : State) : Does .hifSwreset s s.swReset := rfl

/-! ### The root -/

theorem rootPllLoss_idle {s : State} (h : s.pins.poresetN = false ∨ s.time.rootLocked = false) : Does .rootPllLoss s s := if_pos h

theorem rootPllLoss_leaves {s : State} (h : s.pins.poresetN = true) (hl : s.time.rootLocked = true) : Answers .rootPllLoss s (fun t => Fresh s t
    ∧ t.mem = s.mem ∧ t.ref = s.ref ∧ t.log.cause = 2 ∧ t.time = { s.time with rootLocked := false, rootLoss := some s.time.devtime }
    ∧ t.pins = { s.pins with aonAlarm := true } ∧ t.flag R.REF_ROOT_LOSS F.REF_ROOT_LOSS_lost = true) := by
  obtain ⟨hf, hm, ht, hr, hp, hc⟩ := holdReset_leaves 2 s
  exact ⟨_, if_neg (by simp [h, hl]), hf, hm, hr, hc, congrArg (fun x => { x with rootLocked := false, rootLoss := some x.devtime }) ht,
    congrArg (fun p => { p with aonAlarm := true }) hp, flag_setFlag (show Fits F.REF_ROOT_LOSS_lost from Nat.le_add_left 1 31) rfl _ true _⟩

theorem rootPllLocked_idle {s : State} (h : s.pins.poresetN = false ∨ s.time.rootLocked = true ∨ s.time.rootLoss.isSome = true) : Does .rootPllLocked s s :=
  if_pos h

section
variable {s : State} (h : s.pins.poresetN = true) (hl : s.time.rootLocked = false) (hn : s.time.rootLoss = none)
include h hl hn

theorem rootPllLocked_tested (he : s.pins.testEn = true) : exec .rootPllLocked s = .fault (.unspecified 489) :=
  (if_neg (by simp [h, hl, hn])).trans (if_pos he)

theorem rootPllLocked_starts (he : s.pins.testEn = false) :
    let locked : State := { s with time := { s.time with rootLocked := true } }
    Does .rootPllLocked s (if s.pins.resetN then locked.bootRepair.setFld R.HIF_BOOT F.HIF_BOOT_hw_stage 2 else locked) :=
  (if_neg (by simp [h, hl, hn])).trans (if_neg (by simp [he]))

end

theorem rootRelockRetry_none {s : State} (h : s.time.rootLoss = none) (ok : Bool) : Does (.rootRelockRetry ok) s s := by
  change execRootRelockRetry ok s = _
  simp only [execRootRelockRetry, h]

theorem rootRelockRetry_fails {s : State} {lost : W64} (h : s.time.rootLoss = some lost) : Does (.rootRelockRetry false) s s := by
  change execRootRelockRetry false s = _
  simp only [execRootRelockRetry, h, true_or, if_true]

theorem rootRelockRetry_locks {s : State} {lost : W64} (hp : s.pins.poresetN = true) (h : s.time.rootLoss = some lost) :
    let back : State := { s with time := { s.time with rootLocked := true, rootLoss := none }, pins := { s.pins with aonAlarm := false } }
    let told := (back.noteTotal 8 1).logEvent 0x1C sevFault 0x0001 (evData [(8, lost.toNat)])
    Does (.rootRelockRetry true) s (if told.pins.resetN then told.bootAgain else told) := by
  change execRootRelockRetry true s = _
  simp only [execRootRelockRetry, h, hp, Bool.true_eq_false, or_self, if_false]

/-! ### PERST_N -/

theorem perstN_idle {s : State} {up msix fnMask : Bool} {lanes : Fin 2} {speed : Fin 4} (h : s.hifServes = false) :
    Does (.perstN up lanes speed msix fnMask) s s := if_pos h

theorem perstN_trains {s : State} {up msix fnMask : Bool} {lanes : Fin 2} {speed : Fin 4} (h : s.hifServes = true) :
    let cleared := s.msixReset
    let set : State := { cleared with hif := { cleared.hif with msixOn := up && msix, msixMask := fnMask } }
    Does (.perstN up lanes speed msix fnMask) s (((set.setFlag R.HIF_STATUS F.HIF_STATUS_link_up up).setFld R.HIF_STATUS F.HIF_STATUS_link_width
      (if up then lanes.val + 1 else 0)).setFld R.HIF_STATUS F.HIF_STATUS_link_speed (if up then speed.val + 1 else 0)) := if_neg (by simp [h])

/-- Settles O53: each row by the lemmas on the cases in which it applies and in which it does not. -/
theorem resetRows : Obligations.ResetRows := by
  unfold Obligations.ResetRows
  intro s up msix fnMask lanes speed lost
  refine ⟨poresetNAssert_leaves s, poresetNRelease_high, poresetNRelease_leaves, fun hp => ?_, resetNAssert_leaves, resetNRelease_starts,
    fun hr => resetNRelease_idle (.inr hr), fun hp hr hl => ?_, fun h => ?_, fun hl => rootPllLoss_idle (.inr hl),
    fun hp hl => ⟨rootPllLocked_idle (.inr (.inl hl)), rootPllLoss_leaves hp hl⟩, rootPllLocked_tested, rootPllLocked_starts,
    fun h => ⟨rootPllLocked_idle (.inr (.inr (by rw [h]; rfl))), rootRelockRetry_fails h⟩, rootRelockRetry_none, rootRelockRetry_locks,
    perstN_idle, perstN_trains⟩
  · have hp : s.pins.poresetN = false := Bool.eq_false_iff.mpr hp
    have hs := hifSwreset_does s
    rw [swReset_idle (.inl hp)] at hs
    exact ⟨if_pos hp, resetNRelease_idle (.inl hp), hs, rootPllLoss_idle (.inl hp), rootPllLocked_idle (.inl hp)⟩
  · exact (hifSwreset_does s).trans (congrArg _ (swReset_restarts hp hr hl))
  · exact (hifSwreset_does s).trans (congrArg _ (swReset_idle (.inr h)))

end Sys2Proof.Proofs

/-! PROOF. The crystal's timebase (R26, R27, R386): what leaves it as it is, and DEVTIME in a crystal cycle. -/
namespace Sys2Proof.Proofs
open Sys2Proof Sys2Proof.Machine Sys2Proof.Safety Sys2Proof.Laws

/-! ### What leaves the timebase as it is -/

theorem time_of_within {sc : List Piece} {s t : State} (hn : sc.contains .time = false) (h : Within sc s t) : t.time = s.time := by
  obtain ⟨-, -, hp⟩ := h
  exact hp .time hn

/-- Control ticks pass: TICK and the tide phase alone move (R22). -/
theorem advancePhase_time (p : Nat) (s : State) : (s.advancePhase p).time =
    { s.time with tick := s.time.tick + BitVec.ofNat 64 (p - s.time.phase), phase := s.time.phase + (p - s.time.phase) } := by
  have quiet : ∀ (d : Nat) (u : State), Within [.regs, .coreA, .coreB] u (u.quietTicks d) := fun d u => State.quietTicks_within d rfl (Within.refl _ u)
  unfold State.advancePhase
  dsimp only
  split
  · exact time_of_within rfl (State.slotTicks_within _ _ rfl (State.pmcCount_within _ _ _ rfl (quiet _ _)))
  · exact time_of_within rfl (quiet _ _)

/-! ### DEVTIME in a crystal cycle -/

/-- DEVTIME with its hidden fraction, as one 84-bit number (R386). -/
def devtime84 (s : State) : Nat := s.time.devtime.toNat * 2 ^ 20 + s.time.frac

theorem devtime84_devtimeTick (s : State) :
    devtime84 s.devtimeTick = (devtime84 s + (s.reg R.REF_DEVTIME_INC).toNat) % 2 ^ 84 := by
  simp only [devtime84, State.devtimeTick, BitVec.toNat_add, BitVec.toNat_ofNat]
  omega

theorem devtimeTick_frac (s : State) : s.devtimeTick.time.frac < 2 ^ 20 := Nat.mod_lt _ (by decide)

/-- The elapsed counts of the domains follow DEVTIME and do not touch it. -/
theorem crystalTick_time (s : State) : s.crystalTick.time = s.devtimeTick.time :=
  time_of_within (sc := [.regs, .coreA, .coreB, .pwr]) rfl
    (within_foldl (fun _ d h => State.elapsedTick_within d _ rfl h) (Within.refl _ _))

/-- The root's clocks leave DEVTIME and its fraction to the crystal. -/
theorem rootTick_devtime (s : State) : s.rootTick.time.devtime = s.time.devtime ∧ s.rootTick.time.frac = s.time.frac := by
  unfold State.rootTick
  dsimp only
  rw [time_of_within (sc := [.regs, .pwr, .clm, .lanes]) rfl (State.quayTick_within _ rfl (within_foldl (fun _ d h => State.entryTick_within _ d rfl h)
    (forN_within (fun n _ h => State.tmrTick_within _ n rfl h) (Within.refl _ _)))), advancePhase_time]
  exact ⟨rfl, rfl⟩

theorem lineTick_time (s : State) : s.lineTick.time = s.time :=
  time_of_within (sc := [.regs, .coreA, .coreB, .free, .crA, .crB]) rfl (State.lineTick_within rfl (Within.refl _ s))

theorem releaseWaiters_time (s : State) : s.releaseWaiters.time = s.time :=
  time_of_within (sc := [.regs, .mem, .coreA, .coreB, .qc, .hws, .hif, .pwr, .free, .log, .ecc]) rfl (State.releaseWaiters_within rfl (Within.refl _ s))

/-- The state after the crystal's part of an idle step: with the crystal stopped, nothing of it happens (R27). -/
def crystalPart (s : State) : State := if s.time.xtalStopped then s else s.crystalTick

/-- In an idle step DEVTIME and its fraction move with the crystal alone, whether the root is in lock or not. -/
theorem idle_devtime {s : State} (h : s.pins.poresetN = true) :
    s.idle.time.devtime = (crystalPart s).time.devtime ∧ s.idle.time.frac = (crystalPart s).time.frac := by
  have hi : s.idle = (if (crystalPart s).time.rootLoss.isNone then (crystalPart s).rootTick.lineTick else crystalPart s).releaseWaiters :=
    if_neg (by simp [h])
  rw [hi, releaseWaiters_time]
  split
  · rw [lineTick_time]
    exact rootTick_devtime _
  · exact ⟨rfl, rfl⟩

theorem crystalPart_runs {s : State} (h : s.time.xtalStopped = false) : (crystalPart s).time = s.devtimeTick.time := by
  rw [crystalPart, if_neg (by simp [h]), crystalTick_time]

theorem crystalPart_stopped {s : State} (h : s.time.xtalStopped = true) : crystalPart s = s := if_pos h

theorem step_idle {s : State} (h : s.pending = []) : step s = .next s.idle := by simp only [step, h]

/-- Settles O5: with an empty queue the step is the idle one, whose effect on DEVTIME is that of the crystal's part alone. -/
theorem devtimeAdvances : Obligations.DevtimeAdvances := by
  unfold Obligations.DevtimeAdvances
  intro s hp hr _
  obtain ⟨hd, hf⟩ := idle_devtime hr
  refine ⟨fun hx => ⟨s.idle, step_idle hp, ?_⟩, fun hx => ⟨s.idle, step_idle hp, ?_⟩⟩
  · dsimp only
    rw [hd, hf, crystalPart_runs hx]
    exact ⟨devtimeTick_frac s, devtime84_devtimeTick s⟩
  · rw [crystalPart_stopped hx] at hd hf
    exact ⟨hd, hf⟩

end Sys2Proof.Proofs

/-! PROOF. The tide boundary (R22, R51 to R53, R62, R64, R75, R349, R354, R359, R447). -/
namespace Sys2Proof.Proofs
open Sys2Proof Sys2Proof.Machine Sys2Proof.Safety Sys2Proof.Laws

/-! ### The row TIDE_BOUNDARY -/

/-- A new tide begins: TIDE grows by 1, TICK stands at the old tide's end, and no commit point has come (R22). -/
theorem tideStep_time (s : State) : s.tideStep.time = { s.time with
    tide := s.time.tide + 1, tick := s.time.tick + BitVec.ofNat 64 (4608 + 9 * s.time.ext - s.time.phase), phase := 0, ext := 0, commitPoint := false } := by
  simp only [State.tideStep, State.setFld_time, advancePhase_time]

/-- What the row does between the beginning of the tide and the hawser's copy: COMMITs, heartbeat, the unfinished copy, the dual-active window, roles, ages. -/
def tideJudged (s : State) : State :=
  let begun := s.tideStep
  let acts := begun.commits .A || begun.commits .B
  let acted := if acts then begun.commitAll.tapCopies else begun
  let beaten := (State.tideBeat (begun.beater.any begun.commits) { acted with qc := { acted.qc with atCommit := acts } }).copyEnd
  (if begun.pilot.dual then beaten.endDual else beaten).tideRoles.tideAges

theorem tideBoundary_does (s : State) : Does .tideBoundary s
    ((((tideJudged s).hwsBoundary (s.tideStep.beater.any s.tideStep.commits)).capSnap (s.time.ext != 0)).logCapture).releaseWaiters := rfl

theorem tideJudged_time (s : State) : (tideJudged s).time = s.tideStep.time := by
  refine time_of_within (sc := (scopeOf .tideBoundary).erase .time) rfl ?_
  unfold tideJudged
  refine State.tideAges_within rfl (State.tideRoles_within rfl (within_ite ?_ (State.endDual_within rfl)))
  refine State.copyEnd_within rfl (State.tideBeat_within _ rfl (Within.set_qc rfl (within_ite (Within.refl _ _) fun h => ?_)))
  exact State.tapCopies_within rfl (State.commitAll_within rfl h)

/-- A hawser overrun extends the tide that begins and leaves the rest of the grid as it is (R354). -/
theorem hwsOverrun_time (bytes ext : Nat) (s : State) : (s.hwsOverrun bytes ext).time = { s.time with ext } := by
  refine (time_of_within (sc := [.regs, .coreA, .coreB, .hif, .log]) rfl (s := { s with time := { s.time with ext } }) ?_)
  exact State.logEvent_within _ _ _ _ rfl (State.noteTotal_within _ _ rfl (State.setFlag_within _ _ _ rfl (State.addCnt_within _ _ rfl
    (State.addCnt_within _ _ rfl (Within.refl _ _)))))

/-- The extension is all that a copy changes of the grid, whether it overruns or not. -/
theorem overrun_if_time {c : Prop} [Decidable c] (bytes ext : Nat) (s : State) :
    ∃ e, (if c then s else s.hwsOverrun bytes ext).time = { s.time with ext := e } := by
  split
  · exact ⟨s.time.ext, rfl⟩
  · exact ⟨ext, hwsOverrun_time bytes ext s⟩

theorem copyStart_time (k j : CoreId) (s : State) : ∃ ext, (s.copyStart k j).time = { s.time with ext } := overrun_if_time _ _ _

/-- The hawser's part of the boundary may extend the tide that begins; the rest of the grid it leaves as it is (R354). -/
theorem hwsBoundary_time (acted : Bool) (s : State) : ∃ ext, (s.hwsBoundary acted).time = { s.time with ext } := by
  unfold State.hwsBoundary
  dsimp only
  split
  · exact copyStart_time _ _ _
  · exact ⟨s.time.ext, rfl⟩
  · exact ⟨s.time.ext, (time_of_within (sc := [.regs, .coreA, .coreB, .pilot, .hws, .hif]) rfl (State.missedTide_within rfl (Within.refl _ _))).trans rfl⟩

/-- TICK, the phase, the commit point and DEVTIME at a boundary (R22, R447). -/
theorem tideBoundary_answers (s : State) : Answers .tideBoundary s (fun t => t.time.tide = s.time.tide + 1 ∧ t.time.phase = 0 ∧ t.time.commitPoint = false
    ∧ t.time.devtime = s.time.devtime ∧ t.time.tick = s.time.tick + BitVec.ofNat 64 (4608 + 9 * s.time.ext - s.time.phase)) := by
  refine ⟨_, tideBoundary_does s, ?_⟩
  obtain ⟨ext, he⟩ := hwsBoundary_time (s.tideStep.beater.any s.tideStep.commits) (tideJudged s)
  rw [releaseWaiters_time, time_of_within (sc := [.log, .regs, .obs]) rfl (State.logCapture_within rfl (State.capSnap_within _ rfl (Within.refl _ _))), he,
    tideJudged_time, tideStep_time]
  exact ⟨rfl, rfl, rfl, rfl, rfl⟩

/-! ### The COMMIT of one core, and the heartbeat -/

/-- The staged values act, the entries of the core's epoch are sealed, the banks swap, and the core goes on, in that order (R51, R62, R75). -/
theorem commitAll_one {s : State} {k : CoreId} (h : s.commits k = true) (hn : s.commits k.other = false) :
    s.commitAll = ((s.commitAct.sealEntries (s.commitAct.core k).epoch).bankSwap.retire k).pmcCount k 15 1 := by
  cases k with
  | A => simp [State.commitAll, h, show s.commits .B = false from hn, State.commitRetire, State.core]
  | B => simp [State.commitAll, h, show s.commits .A = false from hn, State.commitRetire, State.core]

theorem tideBeat_missed {s : State} (hp : s.pilot.ok = true) (ha : s.active ≠ none) : s.tideBeat false =
    let missed := State.addCnt R.PLT_MISSED_HB_CNT 1 { s with pilot := { s.pilot with missed := s.pilot.missed + 1 } }
    { missed with sec := { missed.sec with heartbeat := false } } := by
  simp [State.tideBeat, State.missHeartbeat, hp, Option.isSome_iff_ne_none.mpr ha]

theorem tideBeat_uncounted {s : State} (h : s.pilot.ok = false ∨ s.active = none) :
    s.tideBeat false = { s with sec := { s.sec with heartbeat := false } } := by
  have hm : s.missHeartbeat = s := if_neg (by rcases h with h | h <;> simp [h])
  simp only [State.tideBeat, hm, Bool.false_eq_true, if_false]

/-! ### QUEUE_DEPTH_APPLY -/

/-- The pending depths fit: every queue that changes holds no entry (R64). -/
def DepthsFit (s : State) (l : List Nat) : Prop := ∀ q : Fin 64, (s.queue q).depth = l.getD q.val 0 ∨ (s.queue q).entries = []

theorem depthsFit_iff {s : State} {l : List Nat} :
    (List.finRange 64).all (fun q => (s.queue q).depth == l.getD q.val 0 || (s.queue q).entries.isEmpty) = true ↔ DepthsFit s l := by
  simp [DepthsFit, List.all_eq_true, List.mem_finRange]

theorem depthApply_none {s : State} (h : s.qc.pendDepth = none) : s.depthApply = s := by simp only [State.depthApply, h]

theorem depthApply_waits {s : State} {l : List Nat} (h : s.qc.pendDepth = some l) (hf : ¬ DepthsFit s l) : s.depthApply = s := by
  simp only [State.depthApply, h, if_neg ((not_congr depthsFit_iff).mpr hf)]

theorem depthApply_acts {s : State} {l : List Nat} (h : s.qc.pendDepth = some l) (hf : DepthsFit s l) : s.depthApply =
    let resized := (List.finRange 64).foldl (fun (s : State) (q : Fin 64) =>
      (s.setQueue q { s.queue q with depth := l.getD q.val 0 }).setFld (R.QCT_DEPTH q.val) F.QCT_DEPTH_depth (l.getD q.val 0)) s
    State.setFlag R.QCT_STATUS F.QCT_STATUS_depth_pending false { resized with qc := { resized.qc with pendDepth := none } } := by
  simp only [State.depthApply, h, if_pos (depthsFit_iff.mpr hf)]

theorem queueDepthApply_idle {s : State} (h : s.qc.atCommit = false ∨ s.time.phase ≠ 0) : Does .queueDepthApply s s :=
  if_neg (by rcases h with h | h <;> simp [h])

theorem queueDepthApply_judges {s : State} (h : s.qc.atCommit = true) (hp : s.time.phase = 0) : Does .queueDepthApply s s.depthApply.releaseWaiters :=
  if_pos (by simp [h, hp])

/-- Settles O58: the row as it is composed and what it leaves of the grid; one core's COMMIT and the heartbeat, case by case; the pending depths by whether
there are any and whether they fit. -/
theorem tideRows : Obligations.TideRows := by
  unfold Obligations.TideRows
  intro s k l
  refine ⟨tideBoundary_answers s, tideBoundary_does s, commitAll_one, rfl, tideBeat_missed, tideBeat_uncounted, queueDepthApply_idle,
    fun h hp hw => ?_, fun h hp hl hf => ?_⟩
  · have hd : s.depthApply = s := hw.elim depthApply_none fun ⟨hl, hf⟩ => depthApply_waits hl hf
    exact (queueDepthApply_judges h hp).trans (by rw [hd])
  · exact (queueDepthApply_judges h hp).trans (by rw [depthApply_acts hl hf])

end Sys2Proof.Proofs

/-! PROOF. Timing references (R27, R369, R374 to R385, R388, R389, Table REF-4). -/
namespace Sys2Proof.Proofs
open Sys2Proof Sys2Proof.Machine Sys2Proof.Safety Sys2Proof.Laws

/-- A row that answers one state or another. -/
theorem does_ite {i : Instr} {s a b : State} {c : Prop} [Decidable c] (h : exec i s = if c then .next a else .next b) :
    Does i s (if c then a else b) := h.trans (apply_ite Host.Outcome.next c a b).symm

/-! ### Qualification and the monitor windows -/

section
variable {s : State} {src : Fin 32} {reason : Nat}

theorem refSourceDisqualify_acts
    (h : s.refOn src.val = true ∧ s.ref.fault = false ∧ (reason = 1 ∨ reason = 2 ∨ (reason = 3 ∧ s.refCond src.val = false))) :
    Does (.refSourceDisqualify src reason) s (s.refDisqualify src.val reason) := by
  obtain ⟨hon, hf, hr⟩ := h
  exact if_neg (by simp [hon, hf, hr])

theorem refSourceDisqualify_idle
    (h : ¬ (s.refOn src.val = true ∧ s.ref.fault = false ∧ (reason = 1 ∨ reason = 2 ∨ (reason = 3 ∧ s.refCond src.val = false)))) :
    Does (.refSourceDisqualify src reason) s s := by
  refine if_pos ?_
  cases hon : s.refOn src.val with
  | false => exact .inl rfl
  | true =>
    cases hf : s.ref.fault with
    | true => exact .inr (.inl rfl)
    | false => exact .inr (.inr fun hr => h ⟨hon, hf, hr⟩)

end

section
variable {s : State} {meas : List RefMeas} {rootOffset word closing : W32}

theorem refMonitorWindowEnd_faulted (h : s.ref.fault = true) :
    Does (.refMonitorWindowEnd meas rootOffset word closing) s (s.setReg R.REF_ROOT_OFFSET rootOffset) := if_pos h

/-- The window's measurements are shown first; a selected source's window with the DPLL's word follows, then the ties (R369, R371, R375). -/
theorem refMonitorWindowEnd_acts (h : s.ref.fault = false) :
    let measured := meas.foldl (fun s m => s.refMeasure m) (s.setReg R.REF_ROOT_OFFSET rootOffset)
    Does (.refMonitorWindowEnd meas rootOffset word closing) s (match measured.refSel with
      | some n => measured.refWindow n (measured.dpllWord word closing)
      | none => measured).refTie.refShow := if_neg (by simp [h])

end

/-! ### Source switches, lock, holdover -/

/-- The source dest is selected, and acquisition begins from free run or holdover (R374, R377). -/
def refSwitched (step : BitVec 48) (from_ dest : Nat) (s : State) : State :=
  let s := (s.setFlag R.REF_STATE F.REF_STATE_sel_valid true).setFld R.REF_STATE F.REF_STATE_sel_src dest
  let s := (s.setReg64 R.REF_STEP step.toNat).addCnt R.REF_SWITCH_CNT 1
  let s := (s.setFlag R.REF_STATUS F.REF_STATUS_switch true).logEvent 0x1C sevInfo 0x0003 (evData [(1, from_), (1, dest), (8, unsigned 64 step.toInt)])
  (if s.dpll = 0 ∨ s.dpll = 3 then
    ({ s with ref := { s.ref with acqHold := s.dpll == 3, lockRun := 0 } }).setFld R.REF_STATE F.REF_STATE_dpll_state 1 else s).refShow

section
variable {s : State} {step : BitVec 48}

theorem refSourceSwitch_idle (h : s.ref.fault = true ∨ s.refChoice = s.refSel) : Does (.refSourceSwitch step) s s := if_pos h

variable (hf : s.ref.fault = false) (hn : s.refChoice ≠ s.refSel)
include hf hn

theorem refSourceSwitch_loses (hd : s.refChoice = none) :
    Does (.refSourceSwitch step) s ((s.setFlag R.REF_STATE F.REF_STATE_sel_valid false).refLost).refShow := by
  refine (if_neg (by simp [hf, hn])).trans ?_
  rw [hd]

theorem refSourceSwitch_changes (from_ dest : Nat) (hd : s.refChoice = some dest) (hc : s.refSel = some from_) :
    Does (.refSourceSwitch step) s (refSwitched step from_ dest s) := by
  refine (if_neg (by simp [hf, hn])).trans ?_
  rw [hd, hc]
  rfl

theorem refSourceSwitch_selects (dest : Nat) (hd : s.refChoice = some dest) (hc : s.refSel = none) :
    Does (.refSourceSwitch step) s (refSwitched step (s.draw.1.toNat % 256) dest s.draw.2) := by
  refine (if_neg (by simp [hf, hn])).trans ?_
  rw [hd, hc]
  rfl

end

section
variable {s : State}

theorem lockDue_iff : s.lockDue = true ↔ s.dpll = 1 ∧ s.ref.fault = false ∧ s.lockWindows ≤ s.ref.lockRun := by
  simp [State.lockDue, and_assoc]

theorem refLockDeclared_locks (hd : s.dpll = 1) (hf : s.ref.fault = false) (hw : s.lockWindows ≤ s.ref.lockRun) :
    let locked := (s.setFld R.REF_STATE F.REF_STATE_dpll_state 2).setFlag R.REF_STATE F.REF_STATE_hold_oos false
    let locking := { locked with ref := { locked.ref with lockedAt := locked.time.devtime, acqHold := false, words := [] } }
    Does .refLockDeclared s (locking.refShow.logEvent 0x1C sevInfo 0x0008 (evData [(1, locking.fld R.REF_STATE F.REF_STATE_sel_src)])) :=
  if_pos (lockDue_iff.mpr ⟨hd, hf, hw⟩)

theorem refLockDeclared_idle (h : s.dpll ≠ 1 ∨ s.ref.fault = true ∨ s.ref.lockRun < s.lockWindows) : Does .refLockDeclared s s :=
  if_neg ((not_congr lockDue_iff).mpr (by grind))

theorem holdBeyond_iff : s.holdBeyond = true ↔ s.fld R.REF_HOLD_LIMIT F.REF_HOLD_LIMIT_hold_limit * 1000 * 10000000000 <
    (s.reg R.REF_HOLD_U0).toNat * 10000000000 + s.refDrift * (s.time.devtime - s.ref.holdAt).toNat := decide_eq_true_iff

/-- The row marks a holdover that is not marked yet and whose predicted error exceeds hold_limit (R380). -/
theorem refHoldoverOos_does :
    let aged := (s.setFlag R.REF_STATE F.REF_STATE_hold_oos true).setFlag R.REF_STATUS F.REF_STATUS_hold_oos true
    Does .refHoldoverOos s (if s.dpll = 3 ∧ s.flag R.REF_STATE F.REF_STATE_hold_oos = false ∧ s.ref.fault = false
        ∧ s.fld R.REF_HOLD_LIMIT F.REF_HOLD_LIMIT_hold_limit * 1000 * 10000000000 <
          (s.reg R.REF_HOLD_U0).toNat * 10000000000 + s.refDrift * (s.time.devtime - s.ref.holdAt).toNat
      then aged.refShow.logEvent 0x1C sevAlarm 0x0006 (evData [(8, (aged.time.devtime - aged.ref.holdAt).toNat)]) else s) := by
  refine does_ite ?_
  simp only [← holdBeyond_iff]
  rfl

end

/-! ### Pulses -/

section
variable {s : State}

/-- The generator's nearest second boundary is moved to the aligning pulse, which is shown, counted and logged (R383). -/
def realigned (s : State) : State :=
  let err := s.genError
  let zero := { s with ref := { s.ref with gen := 0, sec := if 2 * s.ref.gen < genSecond then s.ref.sec else s.ref.sec + 1 } }
  (((zero.setReg64 R.REF_ALIGN_STEP (unsigned 48 (-err))).addCnt R.REF_REALIGN_CNT 1).setFlag R.REF_STATUS F.REF_STATUS_realign true).logEvent
    0x1C sevInfo 0x000A (evData [(8, unsigned 64 (-err))])

theorem refAlignPulse_idle (h : s.alignOk = false) : Does .refAlignPulse s s := if_pos h

variable (h : s.alignOk = true)
include h

theorem refAlignPulse_completes {x : QEntry} (hx : s.startedOp 24 0x100 = some x) :
    Does .refAlignPulse s ((realigned s).complete x 0 (unsigned 64 (-s.genError)) 0) := by
  refine (if_neg (by simp [h])).trans ((if_pos (.inl (by rw [hx]; rfl))).trans ?_)
  rw [hx]
  rfl

theorem refAlignPulse_alone (hx : s.startedOp 24 0x100 = none) :
    Does .refAlignPulse s (if s.fld R.REF_PULSE_CFG F.REF_PULSE_CFG_align_thr ≤ s.genError.natAbs then realigned s else s) := by
  refine does_ite ((if_neg (by simp [h])).trans ?_)
  rw [hx]
  simp only [Option.isSome_none, Bool.false_eq_true, false_or]
  rfl

end

section
variable {s : State} {k : Fin 4}

/-- An output has nothing to send: it is off, its carrier is not in SERVICE, or no pulse is due (R384, R385). -/
def OutQuiet (s : State) (k : Fin 4) : Prop :=
  let mode := s.fld (R.REF_OUT_CFG k.val) F.REF_OUT_CFG_mode
  mode = 0 ∨ (2 ≤ k.val ∧ s.fld (R.TXP_STATE (outCarrier k)) F.TXP_STATE_state ≠ 3) ∨ s.pulseDue k mode = false

theorem pulseDue_iff {mode : Nat} : s.pulseDue k mode = true ↔
    if k.val < 2 then s.ref.sent[k] < s.secondsDue k else s.ref.sfSent[k] < s.outSfs k ∧ (mode = 1 ∨ s.ref.sent[k] < s.secondsDue k) := by
  unfold State.pulseDue
  split <;> simp

/-- The same with the seconds and superframes written out: a pulse for each that the output has not answered (R384, R385). -/
theorem outQuiet_iff :
    let mode := s.fld (R.REF_OUT_CFG k.val) F.REF_OUT_CFG_mode
    let second := s.ref.sent[k] < s.secondsDue k
    OutQuiet s k ↔ mode = 0 ∨ (2 ≤ k.val ∧ s.fld (R.TXP_STATE (outCarrier k)) F.TXP_STATE_state ≠ 3)
      ∨ ¬ if k.val < 2 then second else s.ref.sfSent[k] < s.outSfs k ∧ (mode = 1 ∨ second) := by
  simp only [OutQuiet, ← pulseDue_iff, Bool.not_eq_true]

theorem refPulseOutput_quiet (h : OutQuiet s k) : Does (.refPulseOutput k) s s := if_pos h

theorem refPulseOutput_sends (h : ¬ OutQuiet s k) :
    let mode := s.fld (R.REF_OUT_CFG k.val) F.REF_OUT_CFG_mode
    let sent := (s.pulseSent k mode).sendPulse k
    Does (.refPulseOutput k) s (if 2 ≤ k.val ∧ mode = 2 then
      sent.setReg64 (if k.val = 2 then R.REF_SF_MARK_A_LO else R.REF_SF_MARK_B_LO) sent.time.devtime.toNat else sent) := if_neg h

end

/-! ### Commands -/

section
variable {s u : State} {e : QEntry}

theorem rfRealign_unit (h : Started 24 0x100 s e u) (hu : e.desc.unit ≠ 0xFF) : Finishes .rfRealign s u e 0x02 0 0 :=
  congrArg Host.Outcome.next (runCommand_ends h (if_pos hu))

section
variable (h : Started 24 0x100 s e u) (hu : e.desc.unit = 0xFF)
include h hu

theorem rfRealign_noInput (ha : u.fld R.REF_PULSE_CFG F.REF_PULSE_CFG_align_src = 0) : Finishes .rfRealign s u e 0x06 0 0 :=
  congrArg Host.Outcome.next (runCommand_ends h ((if_neg (by simp [hu])).trans (if_pos ha)))

theorem rfRealign_waits (ha : u.fld R.REF_PULSE_CFG F.REF_PULSE_CFG_align_src ≠ 0) : GoesOn .rfRealign s u 24 :=
  congrArg Host.Outcome.next (runCommand_goes_on h ((if_neg (by simp [hu])).trans (if_neg ha)))

end

/-- The operands of RF_MEASURE name no source, or no number of windows from 1 to 1,000 (Table REF-4). -/
def MeasureRefused (d : Desc) : Prop := refSource d.unit = false ∨ d.arg0 % 1024 = 0 ∨ 1000 < d.arg0 % 1024

theorem rfMeasure_operands (h : Started 24 0x101 s e u) (hr : MeasureRefused e.desc) : Finishes .rfMeasure s u e 0x02 0 0 :=
  congrArg Host.Outcome.next (runCommand_ends h (if_pos hr))

variable (h : Started 24 0x101 s e u) (hr : ¬ MeasureRefused e.desc)
include h hr

theorem rfMeasure_off (hn : u.refOn e.desc.unit = false) : Finishes .rfMeasure s u e 0x06 0 0 :=
  congrArg Host.Outcome.next (runCommand_ends h ((if_neg hr).trans (if_pos hn)))

theorem rfMeasure_waits (hn : u.refOn e.desc.unit = true) : GoesOn .rfMeasure s u 24 :=
  congrArg Host.Outcome.next (runCommand_goes_on h ((if_neg hr).trans (if_neg (by simp [hn]))))

end

/-- Settles O41: each row by the lemmas on its cases; the fault and the crystal's return have one case each. -/
theorem referenceRows : Obligations.ReferenceRows := by
  unfold Obligations.ReferenceRows
  intro s u e src reason meas rootOffset dpllWord closing step i after k x
  refine ⟨refSourceDisqualify_acts, refSourceDisqualify_idle, does_ite rfl, refMonitorWindowEnd_faulted (s := s),
    refMonitorWindowEnd_acts (s := s), refSourceSwitch_idle,
    fun hf hn => ⟨refSourceSwitch_loses hf hn, refSourceSwitch_changes hf hn, refSourceSwitch_selects hf hn⟩, refLockDeclared_locks, refLockDeclared_idle,
    refHoldoverOos_does, does_ite rfl, refAlignPulse_idle, fun ha => refAlignPulse_completes ha, refAlignPulse_alone,
    fun h => refPulseOutput_quiet (outQuiet_iff.mpr h), fun h => refPulseOutput_sends ((not_congr outQuiet_iff).mpr h),
    fun h => ⟨rfRealign_unit h, rfRealign_noInput h, rfRealign_waits h⟩, fun h => ⟨rfMeasure_operands h, rfMeasure_off h, rfMeasure_waits h⟩,
    rfl, does_ite rfl, rfl⟩

end Sys2Proof.Proofs

/-! PROOF. Completion of entries (R66 to R70, Table ENG-4): the bytes of a record, what completing an entry leaves, and how each started command ends. -/
namespace Sys2Proof.Proofs
open Sys2Proof Sys2Proof.Machine Sys2Proof.Safety Sys2Proof.Laws

/-! ### The record's bytes -/

theorem leBytes_leNat (l : List Byte) : leBytes l.length (leNat l) = l := by
  induction l with
  | nil => rfl
  | cons b l ih =>
    have hb : b.toNat < 256 := b.isLt
    have low : BitVec.ofNat 8 (b.toNat + 256 * leNat l) = b := by
      apply BitVec.eq_of_toNat_eq
      rw [BitVec.toNat_ofNat]
      omega
    have rest : (b.toNat + 256 * leNat l) / 256 = leNat l := by omega
    rw [List.length_cons, leNat, leBytes, low, rest, ih]

/-- The bytes that a store of leNat l writes are those of l. -/
theorem ofNat_leNat_div (l : List Byte) {i : Nat} (hi : i < l.length) : BitVec.ofNat 8 (leNat l / 256 ^ i) = l.getD i 0 := by
  have h := leBytes_get l.length (leNat l) i (by rwa [leBytes_length])
  rw [← h, List.getD_eq_getElem?_getD, List.getElem?_eq_getElem hi, Option.getD_some]
  simp only [leBytes_leNat]

theorem recordBytes_length (t : W32) (status block cflags : Nat) (time : W64) (r0 r1 : Nat) :
    (recordBytes t status block cflags time r0 r1).length = 32 := by
  simp only [recordBytes, List.length_append, leBytes_length, List.length_cons, List.length_nil]

section
variable {s : State} {q : Fin 64} {e : QEntry} {status r0 r1 : Nat}

theorem writeRecord_none (h : e.desc.resultAddr = 0 ∨ e.recordOk = false) : s.writeRecord q e status r0 r1 = s :=
  if_pos (by simpa using h)

theorem writeRecord_byte (h : e.desc.resultAddr ≠ 0) (hr : e.recordOk = true) (ha : 0x200000 ≤ e.desc.resultAddr) (x : Nat) :
    let a := coreAddr e.core e.desc.resultAddr
    (s.writeRecord q e status r0 r1).byte x = if a ≤ x ∧ x < a + 32 then
      (recordBytes e.ticket status ((queueBlock q.val).getD 0) e.cflags s.time.devtime r0 r1).getD (x - a) 0 else s.byte x := by
  intro a
  have hw : ¬ (e.desc.resultAddr = 0 || !e.recordOk) = true := by simp [h, hr]
  rw [State.writeRecord, if_neg hw, coreStore_byte e.core ha]
  split
  · next hx => exact ofNat_leNat_div _ (by rw [recordBytes_length]; omega)
  · rfl

/-! ### What completing an entry leaves -/

theorem byte_of_within {sc : List Piece} {s t : State} (hn : sc.contains .mem = false) (h : Within sc s t) (x : Nat) : t.byte x = s.byte x := by
  obtain ⟨-, -, hp⟩ := h
  exact congrArg (sparseGet memDefault · x) (hp .mem hn)

theorem queue_of_within {sc : List Piece} {s t : State} (hn : sc.contains .qc = false) (h : Within sc s t) (q : Fin 64) : t.queue q = s.queue q := by
  obtain ⟨-, -, hp⟩ := h
  exact congrArg (fun c : QueueCtl => c.qs[q]) (hp .qc hn)

theorem eventAt_byte (k : CoreId) (harbour : Bool) (b x : Nat) (s : State) : (s.eventAt k harbour b).byte x = s.byte x :=
  byte_of_within (sc := [.coreA, .coreB]) rfl (State.eventAt_within k harbour b rfl (Within.refl _ s)) x

theorem eventAt_queue (k : CoreId) (harbour : Bool) (b : Nat) (q : Fin 64) (s : State) : (s.eventAt k harbour b).queue q = s.queue q :=
  queue_of_within (sc := [.coreA, .coreB]) rfl (State.eventAt_within k harbour b rfl (Within.refl _ s)) q

theorem writeRecord_queue (p : Fin 64) : (s.writeRecord q e status r0 r1).queue p = s.queue p :=
  queue_of_within (sc := [.regs, .mem, .hws, .ecc]) rfl (State.writeRecord_within q e status r0 r1 rfl (Within.refl _ s)) p

/-- The event and the queue are no memory. -/
theorem completeRaw_byte (x : Nat) : (s.completeRaw q e status r0 r1).byte x = (s.writeRecord q e status r0 r1).byte x := by
  change State.byte (if e.desc.notify then _ else _) x = _
  split
  · exact eventAt_byte _ _ _ _ _
  · rfl

/-- The record and the event leave the queues. -/
theorem completeRaw_queue : (s.completeRaw q e status r0 r1).queue q =
    { s.queue q with entries := (s.queue q).entries.filter (fun y => !(y.ticket == e.ticket)),
                     done := (e.ticket, e.no, status, r0) :: (s.queue q).done.filter (fun d => !(d.1 == e.ticket)) } := by
  have both : (if e.desc.notify then (s.writeRecord q e status r0 r1).eventAt e.core (e.desc.level == 1) 1 else s.writeRecord q e status r0 r1).queue q
      = s.queue q := by
    split <;> simp only [eventAt_queue, writeRecord_queue]
  rw [State.completeRaw, State.queue_setQueue, both]

theorem eventAt_sets (k : CoreId) (level : Nat) (s : State) :
    let c := (s.eventAt k (level == 1) 1).core k
    if level = 1 then c.eventH.getLsbD 1 = true else c.eventB.getLsbD 1 = true := by
  intro c
  by_cases h : level = 1 <;> simp [c, h, State.eventAt]

theorem completeRaw_notifies (h : e.desc.notify = true) :
    let c := (s.completeRaw q e status r0 r1).core e.core
    if e.desc.level = 1 then c.eventH.getLsbD 1 = true else c.eventB.getLsbD 1 = true := by
  have core : (s.completeRaw q e status r0 r1).core e.core = ((s.writeRecord q e status r0 r1).eventAt e.core (e.desc.level == 1) 1).core e.core := by
    simp only [State.completeRaw, h, if_true]
    cases e.core <;> rfl
  rw [core]
  exact eventAt_sets _ _ _

theorem completeRaw_ticketState (h : ticketQueue e.ticket = q) (hk : (s.queue q).issued - e.no < 4096) :
    (s.completeRaw q e status r0 r1).ticketState e.ticket = (if status = 0 then 3 else 4, status) := by
  subst h
  have gone : ((s.queue (ticketQueue e.ticket)).entries.filter (fun y => !(y.ticket == e.ticket))).find? (fun y => y.ticket == e.ticket) = none := by
    simp [List.find?_eq_none]
  simp only [State.ticketState, completeRaw_queue, gone, List.find?_cons, beq_self_eq_true, hk, decide_true, Bool.and_self]

end

/-! ### How a started command ends -/

@[simp] theorem eqzQ_val_A : (eqzQ .A).val = 2 := rfl
@[simp] theorem eqzQ_val_B : (eqzQ .B).val = 10 := rfl
@[simp] theorem fecQ_val_A : (fecQ .A).val = 4 := rfl
@[simp] theorem fecQ_val_B : (fecQ .B).val = 12 := rfl

/-- The entry e holds a command of queue n with an opcode. -/
def IsOp (e : QEntry) (n : Fin 64) (op : Nat) : Prop := ticketQueue e.ticket = n ∧ e.desc.opcode = op

theorem isOp_iff {e : QEntry} {n : Fin 64} {op : Nat} : IsOp e n op ↔ (ticketQueue e.ticket).val = n.val ∧ e.desc.opcode = op :=
  and_congr_left' Fin.ext_iff

/-- The commands that end in their own way whether they fail or not: the retests, a scrub, a scan. -/
def OwnEnd (e : QEntry) : Prop :=
  IsOp e (eqzQ .A) 0x103 ∨ IsOp e (eqzQ .B) 0x103 ∨ IsOp e (fecQ .A) 0x101 ∨ IsOp e (fecQ .B) 0x101 ∨ IsOp e 20 0x100 ∨ IsOp e 28 0x100 ∨ IsOp e 29 0x100

/-- RF_MEASURE, HL_SET_POWER and QL_SET_POWER, which end with a result of their own when they do not fail. -/
def ResultEnd (e : QEntry) : Prop := IsOp e 24 0x101 ∨ IsOp e 18 0x100 ∨ IsOp e 19 0x100

section
variable {s : State} {e : QEntry} {failed : Bool} {r0 r1 : Nat}

theorem commandEnd_eqRetest {c : Carrier} (h : IsOp e (eqzQ c) 0x103) :
    s.commandEnd e failed r0 r1 = some ((0, b2n failed, 0), s.eqRetestDone c e.desc.unit (!failed)) := by
  cases c
  · have hq : (ticketQueue e.ticket).val = 2 := congrArg Fin.val h.1
    simp [State.commandEnd, hq, h.2]
  · have hq : (ticketQueue e.ticket).val = 10 := congrArg Fin.val h.1
    simp [State.commandEnd, hq, h.2]

theorem commandEnd_fecRetest {c : Carrier} (h : IsOp e (fecQ c) 0x101) :
    s.commandEnd e failed r0 r1 = some ((0, b2n failed, 0), s.fecRetestDone c e.desc.unit (!failed)) := by
  cases c
  · have hq : (ticketQueue e.ticket).val = 4 := congrArg Fin.val h.1
    simp [State.commandEnd, hq, h.2]
  · have hq : (ticketQueue e.ticket).val = 12 := congrArg Fin.val h.1
    simp [State.commandEnd, hq, h.2]

theorem commandEnd_cphRetest (h : IsOp e 20 0x100) : s.commandEnd e failed r0 r1 = some ((0, b2n failed, 0), s.cpRetestDone e.desc failed) := by
  have hq : (ticketQueue e.ticket).val = 20 := congrArg Fin.val h.1
  simp [State.commandEnd, hq, h.2]

theorem commandEnd_scrub (h : IsOp e 28 0x100) : s.commandEnd e failed r0 r1 = some (s.scrubDone e.desc) := by
  have hq : (ticketQueue e.ticket).val = 28 := congrArg Fin.val h.1
  simp [State.commandEnd, hq, h.2]

theorem commandEnd_scan (h : IsOp e 29 0x100) : s.commandEnd e failed r0 r1 = some (s.scanDone e.desc) := by
  have hq : (ticketQueue e.ticket).val = 29 := congrArg Fin.val h.1
  simp [State.commandEnd, hq, h.2]

theorem commandEnd_measure (h : IsOp e 24 0x101) : s.commandEnd e false r0 r1 = some ((0, r0, 0), s) := by
  have hq : (ticketQueue e.ticket).val = 24 := congrArg Fin.val h.1
  simp [State.commandEnd, hq, h.2]

theorem commandEnd_lanePower (h : IsOp e 18 0x100) : s.commandEnd e false r0 r1 = some ((0, b2n (s.unitReady false e.desc.unit), 0), s) := by
  have hq : (ticketQueue e.ticket).val = 18 := congrArg Fin.val h.1
  simp [State.commandEnd, hq, h.2]

theorem commandEnd_quayPower (h : IsOp e 19 0x100) : s.commandEnd e false r0 r1 = some ((0, b2n (s.unitReady true e.desc.unit), 0), s) := by
  have hq : (ticketQueue e.ticket).val = 19 := congrArg Fin.val h.1
  simp [State.commandEnd, hq, h.2]

theorem commandEnd_failed (h : ¬ OwnEnd e) : s.commandEnd e true r0 r1 = some ((0x05, r0, r1), s) := by
  simp only [OwnEnd, isOp_iff, not_or] at h
  obtain ⟨eqA, eqB, fecA, fecB, cph, mem, scu⟩ := h
  simp only [State.commandEnd, if_neg eqA, if_neg eqB, if_neg fecA, if_neg fecB]
  exact (if_neg cph).trans ((if_neg mem).trans ((if_neg scu).trans (if_pos trivial)))

/-- Every other command has a row of its own that ends it. -/
theorem commandEnd_other (h : ¬ OwnEnd e) (hr : ¬ ResultEnd e) : s.commandEnd e false r0 r1 = none := by
  simp only [OwnEnd, ResultEnd, isOp_iff, not_or] at h hr
  obtain ⟨eqA, eqB, fecA, fecB, cph, mem, scu⟩ := h
  obtain ⟨measure, lane, quay⟩ := hr
  simp only [State.commandEnd, if_neg eqA, if_neg eqB, if_neg fecA, if_neg fecB]
  exact (if_neg cph).trans ((if_neg mem).trans ((if_neg scu).trans ((if_neg Bool.false_ne_true).trans
    ((if_neg measure).trans ((if_neg lane).trans (if_neg quay))))))

end

/-! ### The row COMMAND_COMPLETION -/

section
variable {s : State} {ticket : W32} {e : QEntry} {failed : Bool} {r0 r1 : W64}

theorem commandCompletion_unknown (h : s.entryOf ticket = none) : Does (.commandCompletion ticket failed r0 r1) s s :=
  congrArg Host.Outcome.next (by rw [h])

variable (h : s.entryOf ticket = some e)
include h

theorem commandCompletion_waiting (hs : e.started = false) : Does (.commandCompletion ticket failed r0 r1) s s :=
  congrArg Host.Outcome.next (by simp only [h, hs, if_true])

variable (hs : e.started = true)
include hs

theorem commandCompletion_left (hc : s.commandEnd e failed r0.toNat r1.toNat = none) : Does (.commandCompletion ticket failed r0 r1) s s :=
  congrArg Host.Outcome.next (by simp only [h, hs, hc, Bool.true_eq_false, if_false])

theorem commandCompletion_ends {v : State} {st a b : Nat} (hc : s.commandEnd e failed r0.toNat r1.toNat = some ((st, a, b), v)) :
    Does (.commandCompletion ticket failed r0 r1) s (v.complete e st a b) :=
  congrArg Host.Outcome.next (by simp only [h, hs, hc, Bool.true_eq_false, if_false])

end

/-- Settles O59: the row by how its entry's command ends; completing an entry by the lemmas on memory, the queue, the event and the ticket's state. -/
theorem completionRows : Obligations.CompletionRows := by
  unfold Obligations.CompletionRows
  constructor
  · intro s ticket e failed r0 r1 c q d row ends is own power
    refine ⟨commandCompletion_unknown, commandCompletion_waiting, fun h hs => ?_⟩
    exact ⟨fun ho => commandCompletion_ends h hs (commandEnd_eqRetest ho), fun ho => commandCompletion_ends h hs (commandEnd_fecRetest ho),
      fun ho => commandCompletion_ends h hs (commandEnd_cphRetest ho), fun ho => commandCompletion_ends h hs (commandEnd_scrub ho),
      fun ho => commandCompletion_ends h hs (commandEnd_scan ho), fun ho => commandCompletion_ends h hs (commandEnd_failed ho),
      fun ho => commandCompletion_ends h hs (commandEnd_measure ho), fun ho => commandCompletion_ends h hs (commandEnd_lanePower ho),
      fun ho => commandCompletion_ends h hs (commandEnd_quayPower ho), fun ho hp => commandCompletion_left h hs (commandEnd_other ho hp)⟩
  · intro s q e status r0 r1 a rec v ev
    refine ⟨fun h hr ha => ?_, fun h x => ?_, ?_, completeRaw_notifies, completeRaw_ticketState⟩
    · have record : ∀ x, v.byte x = if a ≤ x ∧ x < a + 32 then rec.getD (x - a) 0 else s.byte x :=
        fun x => (completeRaw_byte x).trans (writeRecord_byte h hr ha x)
      refine ⟨fun i hi => ?_, fun x hx => ?_⟩
      · rw [record, if_pos (by omega), Nat.add_sub_cancel_left]
      · rw [record, if_neg (by omega)]
    · exact (completeRaw_byte x).trans (congrArg (State.byte · x) (writeRecord_none h))
    · exact congrArg Queue.entries completeRaw_queue

end Sys2Proof.Proofs

/-! PROOF. Hitless changes of entropy and berth map: the commands of Table FRM-9, and the rows of the initiator and the responder (R95 to R101, R230, R234,
R249, R251). -/
namespace Sys2Proof.Proofs
open Sys2Proof Sys2Proof.Machine Sys2Proof.Safety Sys2Proof.Laws

/-! ### FR_ELW_START -/

/-- The unit or the address of the map is wrong (Table FRM-9). -/
def StartMalformed (d : Desc) : Prop := d.unit ≠ 0xFF ∨ bufferOk d.arg0 400 = false

/-- The map that a start names. -/
def startMap (u : State) (d : Desc) : List Byte := normMap (u.bytes d.arg0 400)

/-- The entropy is none of the carrier's base or leaves no capacity, or the map does not fit it (R96). -/
def StartUnfit (c : Carrier) (u : State) (d : Desc) : Prop :=
  let h64 := d.arg1 % 512
  entropyOk (u.carBase c) h64 = false ∨ u.capAt c h64 = 0 ∨ mapWithin (startMap u d) (u.capAt c h64) = false ∨ u.mapOk c (startMap u d) = false

/-- The multiframe of the next frame to be formed. -/
def nextMf (c : Carrier) (u : State) : Nat := u.nextFrame c / 256 % 65536

/-- The carrier is not in SERVICE, a change is under way, or the target is not 2 to 32,767 multiframes ahead (R96). -/
def StartBusy (c : Carrier) (u : State) (d : Desc) : Prop :=
  let ahead := mfAhead (d.arg1 / 2 ^ 32 % 65536) (nextMf c u)
  u.txState c ≠ 3 ∨ (u.frm c).change.isSome ∨ ahead < 2 ∨ 32767 < ahead

/-- The PROPOSE that a start sends: it announces the buffer that is not in use. -/
def startMsg (c : Carrier) (u : State) (d : Desc) : ElwMsg :=
  { typ := 1, id := d.arg1 / 2 ^ 16 % 256, h64 := d.arg1 % 512, target := d.arg1 / 2 ^ 32 % 65536, reason := 0,
    buf := if (u.frm c).txSel then 0 else 1, mapCrc := (crc32 (mapBytes (startMap u d))).toNat }

/-- The change that the entry y starts is kept, and the new map stands in the buffer that is not in use. -/
def startKept (c : Carrier) (u : State) (y : QEntry) (d : Desc) : State :=
  let x : ElwChange := { msg := startMsg c u d, first := nextMf c u, accepted := false, mapDone := false, ticket := y.ticket }
  u.setFrm c (if (u.frm c).txSel then { u.frm c with change := some x, txMap0 := startMap u d }
    else { u.frm c with change := some x, txMap1 := startMap u d })

section
variable {c : Carrier} {s u : State} {e y : QEntry} (h : Started (frmQ c) 0x100 s e u)
include h

theorem frElwStart_malformed (hm : StartMalformed e.desc) : Finishes (.frElwStart c) s u e 0x02 0 0 :=
  congrArg Host.Outcome.next (runCommand_ends h (if_pos hm))

variable (hm : ¬ StartMalformed e.desc)
include hm

theorem frElwStart_unfit (hf : StartUnfit c u e.desc) : Finishes (.frElwStart c) s u e 0x02 0 0 :=
  congrArg Host.Outcome.next (runCommand_ends h ((if_neg hm).trans (if_pos hf)))

variable (hf : ¬ StartUnfit c u e.desc)
include hf

theorem frElwStart_busy (hb : u.carFamily c ≠ 0 ∨ StartBusy c u e.desc) : Finishes (.frElwStart c) s u e 0x06 0 0 :=
  congrArg Host.Outcome.next (runCommand_ends h ((if_neg hm).trans ((if_neg hf).trans (if_pos hb))))

theorem frElwStart_proposes (hb : ¬ (u.carFamily c ≠ 0 ∨ StartBusy c u e.desc)) (hy : u.startedOp (frmQ c) 0x100 = some y) :
    let a := R.FRM_ELW_STATUS c
    let msg := startMsg c u e.desc
    GoesOn (.frElwStart c) s ((((startKept c u y e.desc).setFld a F.FRM_ELW_STATUS_tx_state 1).setFld a F.FRM_ELW_STATUS_last_id msg.id).hailFrm c 0x20
      (msg.bytes ++ mapBytes (startMap u e.desc))) (frmQ c) := by
  refine congrArg Host.Outcome.next (runCommand_goes_on h ((if_neg hm).trans ((if_neg hf).trans ((if_neg hb).trans ?_))))
  rw [hy]
  rfl

end

/-! ### FR_ELW_ANSWER -/

section
variable {c : Carrier} {s u : State} {e : QEntry} {m : ElwMsg} (h : Started (frmQ c) 0x101 s e u)
include h

theorem frElwAnswer_unit (hu : e.desc.unit ≠ 0xFF) : Finishes (.frElwAnswer c) s u e 0x02 0 0 :=
  congrArg Host.Outcome.next (runCommand_ends h (if_pos hu))

variable (hu : e.desc.unit = 0xFF)
include hu

theorem frElwAnswer_noPropose (hp : (u.frm c).prop = none) : Finishes (.frElwAnswer c) s u e 0x06 0 0 := by
  refine congrArg Host.Outcome.next (runCommand_ends h ((if_neg (not_not_intro hu)).trans ?_))
  rw [hp]

variable (hp : (u.frm c).prop = some m)
include hp

theorem frElwAnswer_notAsked (hn : u.fld (R.FRM_ELW_STATUS c) F.FRM_ELW_STATUS_rx_state ≠ 1 ∨ m.id ≠ e.desc.arg0 % 256) :
    Finishes (.frElwAnswer c) s u e 0x06 0 0 := by
  refine congrArg Host.Outcome.next (runCommand_ends h ((if_neg (not_not_intro hu)).trans ?_))
  rw [hp]
  exact if_pos hn

theorem frElwAnswer_responds (hr : u.fld (R.FRM_ELW_STATUS c) F.FRM_ELW_STATUS_rx_state = 1) (hi : m.id = e.desc.arg0 % 256) :
    GoesOn (.frElwAnswer c) s (u.elwRespond c m (if e.desc.arg0 / 256 % 2 = 1 then some 4 else none)) (frmQ c) := by
  refine congrArg Host.Outcome.next (runCommand_goes_on h ((if_neg (not_not_intro hu)).trans ?_))
  rw [hp]
  exact if_neg (not_or_intro (not_not_intro hr) (not_not_intro hi))

end

/-! ### FR_CAPTURE_OH -/

section
variable {c : Carrier} {s u : State} {e : QEntry} (h : Started (frmQ c) 0x102 s e u)
include h

theorem frCaptureOh_malformed (hm : e.desc.unit ≠ 0xFF ∨ bufferOk e.desc.arg0 4096 = false) : Finishes (.frCaptureOh c) s u e 0x02 0 0 :=
  congrArg Host.Outcome.next (runCommand_ends h (if_pos hm))

variable (hm : ¬ (e.desc.unit ≠ 0xFF ∨ bufferOk e.desc.arg0 4096 = false))
include hm

theorem frCaptureOh_outOfFrame (ho : u.flag (R.FRM_DEFECT c) F.FRM_DEFECT_oof = true) : Finishes (.frCaptureOh c) s u e 0x06 0 0 :=
  congrArg Host.Outcome.next (runCommand_ends h ((if_neg hm).trans (if_pos ho)))

theorem frCaptureOh_waits (ho : u.flag (R.FRM_DEFECT c) F.FRM_DEFECT_oof = false) : GoesOn (.frCaptureOh c) s u (frmQ c) :=
  congrArg Host.Outcome.next (runCommand_goes_on h ((if_neg hm).trans (if_neg (Bool.eq_false_iff.mp ho))))

end

/-- A unit of 0xFF and a good buffer are no malformed operands. -/
theorem not_malformed {unit n size : Nat} (hu : unit = 0xFF) (hb : bufferOk n size = true) : ¬ (unit ≠ 0xFF ∨ bufferOk n size = false) :=
  not_or_intro (not_not_intro hu) (by simp [hb])

/-- Settles O28: each command by the lemmas on its refusals, in their order, and on its effect. -/
theorem hitlessChangeCommands : Obligations.HitlessChangeCommands := by
  unfold Obligations.HitlessChangeCommands
  intro c s u e y m
  refine ⟨fun h hy => ⟨frElwStart_malformed h, fun hu hb => ?_⟩,
    fun h => ⟨frElwAnswer_unit h, frElwAnswer_noPropose h, frElwAnswer_notAsked h, frElwAnswer_responds h⟩,
    fun h => ⟨frCaptureOh_malformed h, fun hu hb => frCaptureOh_outOfFrame h (not_malformed hu hb),
      fun hu hb => frCaptureOh_waits h (not_malformed hu hb)⟩⟩
  have hm : ¬ StartMalformed e.desc := not_malformed hu hb
  exact ⟨frElwStart_unfit h hm, frElwStart_busy h hm,
    fun hf hc hn => frElwStart_proposes h hm hf (not_or_intro (not_not_intro hc) hn) hy⟩

/-! ### PROPOSE at the responder -/

/-- The map copy that came with a message, if one came, is kept (R230). -/
def mapHeld (c : Carrier) (m : ElwMsg) (copy : List Byte) (t : State) : State :=
  if copy.length = 400 then t.setFrm c (if m.buf = 1 then { t.frm c with rxMap1 := normMap copy } else { t.frm c with rxMap0 := normMap copy }) else t

/-- The state in which a new PROPOSE is judged: its map copy is kept, and a responder that is not armed has dropped what it had (R97). -/
def proposeTaken (c : Carrier) (m : ElwMsg) (copy : List Byte) (t : State) : State :=
  let held := mapHeld c m copy t
  if held.fld (R.FRM_ELW_STATUS c) F.FRM_ELW_STATUS_rx_state = 3 then held else held.elwRxEnd c

/-- The copy of the map that a PROPOSE announces is not the one announced (R230). -/
def MapDamaged (c : Carrier) (m : ElwMsg) (v : State) : Prop := (crc32 (mapBytes (v.rxBuf c m.buf))).toNat ≠ m.mapCrc

/-- The program is asked for the answer to a PROPOSE (R97). -/
def programAsked (c : Carrier) (m : ElwMsg) (v : State) : State :=
  let asked := (v.setFld (R.FRM_ELW_STATUS c) F.FRM_ELW_STATUS_rx_state 1).setFld (R.FRM_ELW_STATUS c) F.FRM_ELW_STATUS_last_id m.id
  (asked.setFrm c { asked.frm c with prop := some m }).logOpen (frmId c) sevInfo

section
variable {c : Carrier} {hail : Bool} {s t : State} {m : ElwMsg} {copy : List Byte} {k : Nat}

theorem elwProposeReceived_none (h : s.elwTake c hail [0x20] (s.frm c).initMsg = (none, t)) : Does (.elwProposeReceived c hail) s t := by
  change execElwProposeReceived c hail s = _
  unfold execElwProposeReceived
  rw [h]

variable (h : s.elwTake c hail [0x20] (s.frm c).initMsg = (some (m, copy), t))
include h

theorem elwProposeReceived_old (ho : m.typ ≠ 1 ∨ (mapHeld c m copy t).elwKnown c m.id = true) :
    Does (.elwProposeReceived c hail) s (mapHeld c m copy t) := by
  change execElwProposeReceived c hail s = _
  unfold execElwProposeReceived
  rw [h]
  exact if_pos ho

variable (hn : ¬ (m.typ ≠ 1 ∨ (mapHeld c m copy t).elwKnown c m.id = true))
include hn

theorem elwProposeReceived_damaged (hd : MapDamaged c m (proposeTaken c m copy t)) :
    Does (.elwProposeReceived c hail) s (proposeTaken c m copy t) := by
  change execElwProposeReceived c hail s = _
  unfold execElwProposeReceived
  rw [h]
  exact (if_neg hn).trans (if_pos hd)

variable (hd : ¬ MapDamaged c m (proposeTaken c m copy t))
include hd

/-- A new PROPOSE whose map is held is answered from Table LFR-7, or the program is asked. -/
theorem elwProposeReceived_judged : exec (.elwProposeReceived c hail) s =
    let v := proposeTaken c m copy t
    (v.elwCheck c m).elim
      (if v.flag (R.FRM_ELW_CFG c) F.FRM_ELW_CFG_auto_accept = true then .next (v.elwRespond c m none) else .next (programAsked c m v))
      (fun k => .next (v.elwRespond c m (some k))) := by
  change execElwProposeReceived c hail s = _
  unfold execElwProposeReceived
  rw [h]
  refine (if_neg hn).trans ((if_neg hd).trans ?_)
  change (match (proposeTaken c m copy t).elwCheck c m with | some k => _ | none => _) = Option.elim _ _ _
  cases (proposeTaken c m copy t).elwCheck c m <;> rfl

theorem elwProposeReceived_rejects (hk : (proposeTaken c m copy t).elwCheck c m = some k) :
    Does (.elwProposeReceived c hail) s ((proposeTaken c m copy t).elwRespond c m (some k)) :=
  (elwProposeReceived_judged h hn hd).trans (by dsimp only; rw [hk, Option.elim_some])

variable (hk : (proposeTaken c m copy t).elwCheck c m = none)
include hk

theorem elwProposeReceived_accepts
    (ha : (proposeTaken c m copy t).flag (R.FRM_ELW_CFG c) F.FRM_ELW_CFG_auto_accept = true) :
    Does (.elwProposeReceived c hail) s ((proposeTaken c m copy t).elwRespond c m none) :=
  (elwProposeReceived_judged h hn hd).trans (by dsimp only; rw [hk, Option.elim_none, if_pos ha])

theorem elwProposeReceived_asks
    (ha : (proposeTaken c m copy t).flag (R.FRM_ELW_CFG c) F.FRM_ELW_CFG_auto_accept = false) :
    Does (.elwProposeReceived c hail) s (programAsked c m (proposeTaken c m copy t)) :=
  (elwProposeReceived_judged h hn hd).trans (by dsimp only; rw [hk, Option.elim_none, if_neg (Bool.eq_false_iff.mp ha)])

end

/-! ### ACCEPT, REJECT and the deadline at the initiator -/

section
variable {c : Carrier} {hail : Bool} {s t : State} {m : ElwMsg} {copy : List Byte} {x : ElwChange}

theorem elwAnswerReceived_none (h : s.elwTake c hail [0x21, 0x22] (s.frm c).respMsg = (none, t)) : Does (.elwAnswerReceived c hail) s t := by
  change execElwAnswerReceived c hail s = _
  unfold execElwAnswerReceived
  rw [h]

variable (h : s.elwTake c hail [0x21, 0x22] (s.frm c).respMsg = (some (m, copy), t))
include h

theorem elwAnswerReceived_idle (hc : (t.frm c).change = none) : Does (.elwAnswerReceived c hail) s t := by
  change execElwAnswerReceived c hail s = _
  simp only [execElwAnswerReceived, h, hc]

variable (hc : (t.frm c).change = some x)
include hc

/-- What an answer does while a change is under way. -/
theorem elwAnswerReceived_change : exec (.elwAnswerReceived c hail) s =
    if t.fld (R.FRM_ELW_STATUS c) F.FRM_ELW_STATUS_tx_state ≠ 1 ∨ m.id ≠ x.msg.id then .next t
    else if m.typ = 2 then .next (t.setFrm c { t.frm c with change := some { x with accepted := true } })
    else if m.typ = 3 then .next (t.elwEnd c 2 m.reason)
    else .next t := by
  change execElwAnswerReceived c hail s = _
  simp only [execElwAnswerReceived, h, hc]

theorem elwAnswerReceived_other (ho : t.fld (R.FRM_ELW_STATUS c) F.FRM_ELW_STATUS_tx_state ≠ 1 ∨ m.id ≠ x.msg.id) :
    Does (.elwAnswerReceived c hail) s t := (elwAnswerReceived_change h hc).trans (if_pos ho)

variable (ht : t.fld (R.FRM_ELW_STATUS c) F.FRM_ELW_STATUS_tx_state = 1) (hi : m.id = x.msg.id)
include ht hi

/-- An answer to the current change, by its type. -/
theorem elwAnswerReceived_current : exec (.elwAnswerReceived c hail) s =
    if m.typ = 2 then .next (t.setFrm c { t.frm c with change := some { x with accepted := true } })
    else if m.typ = 3 then .next (t.elwEnd c 2 m.reason)
    else .next t := (elwAnswerReceived_change h hc).trans (if_neg (not_or_intro (not_not_intro ht) (not_not_intro hi)))

theorem elwAnswerReceived_accept (hm : m.typ = 2) :
    Does (.elwAnswerReceived c hail) s (t.setFrm c { t.frm c with change := some { x with accepted := true } }) :=
  (elwAnswerReceived_current h hc ht hi).trans (if_pos hm)

theorem elwAnswerReceived_reject (hm : m.typ = 3) : Does (.elwAnswerReceived c hail) s (t.elwEnd c 2 m.reason) :=
  (elwAnswerReceived_current h hc ht hi).trans ((if_neg (by simp [hm])).trans (if_pos hm))

theorem elwAnswerReceived_noAnswer (h2 : m.typ ≠ 2) (h3 : m.typ ≠ 3) : Does (.elwAnswerReceived c hail) s t :=
  (elwAnswerReceived_current h hc ht hi).trans ((if_neg h2).trans (if_neg h3))

end

section
variable {c : Carrier} {s : State} {x : ElwChange}

theorem elwCommitDeadline_none (h : (s.frm c).change = none) : Does (.elwCommitDeadline c) s s := by
  change execElwCommitDeadline c s = _
  simp only [execElwCommitDeadline, h]

/-- The multiframes from the one being sent to the target of a change. -/
def aheadOf (c : Carrier) (x : ElwChange) (s : State) : Nat := mfAhead x.msg.target (s.fld (R.FRM_MF_COUNT c) F.FRM_MF_COUNT_tx_mf)

variable (h : (s.frm c).change = some x)
include h

theorem elwCommitDeadline_change : exec (.elwCommitDeadline c) s =
    let second := s.setFld (R.FRM_ELW_STATUS c) F.FRM_ELW_STATUS_tx_state 2
    if s.fld (R.FRM_ELW_STATUS c) F.FRM_ELW_STATUS_tx_state ≠ 1 ∨ aheadOf c x s ≠ 1 then .next s
    else if x.accepted = true then .next (second.hailFrm c 0x23 (second.initOut c).bytes)
    else .next (s.elwEnd c 1 0) := by
  change execElwCommitDeadline c s = _
  unfold execElwCommitDeadline
  rw [h]
  rfl

theorem elwCommitDeadline_early (hd : s.fld (R.FRM_ELW_STATUS c) F.FRM_ELW_STATUS_tx_state ≠ 1 ∨ aheadOf c x s ≠ 1) :
    Does (.elwCommitDeadline c) s s := (elwCommitDeadline_change h).trans (if_pos hd)

variable (ht : s.fld (R.FRM_ELW_STATUS c) F.FRM_ELW_STATUS_tx_state = 1) (hd : aheadOf c x s = 1)
include ht hd

theorem elwCommitDeadline_commits (ha : x.accepted = true) :
    let second := s.setFld (R.FRM_ELW_STATUS c) F.FRM_ELW_STATUS_tx_state 2
    Does (.elwCommitDeadline c) s (second.hailFrm c 0x23 (second.initOut c).bytes) :=
  (elwCommitDeadline_change h).trans ((if_neg (not_or_intro (not_not_intro ht) (not_not_intro hd))).trans (if_pos ha))

theorem elwCommitDeadline_abandons (ha : x.accepted = false) : Does (.elwCommitDeadline c) s (s.elwEnd c 1 0) :=
  (elwCommitDeadline_change h).trans ((if_neg (not_or_intro (not_not_intro ht) (not_not_intro hd))).trans (if_neg (Bool.eq_false_iff.mp ha)))

end

/-! ### The initiator's switch of map and of entropy -/

/-- The framer is about to form frame 0 of the target multiframe of a change in its commit phase, and has not yet switched the map (R99). -/
def AtTarget (c : Carrier) (x : ElwChange) (s : State) : Prop :=
  s.fld (R.FRM_ELW_STATUS c) F.FRM_ELW_STATUS_tx_state = 2 ∧ x.mapDone = false ∧ s.nextFrame c % 256 = 0 ∧ nextMf c s = x.msg.target

/-- The line's blocks from the next frame's first bit on have the new entropy; the new map is in force and the calendar restarts (R99, R234). -/
def mapSwitched (c : Carrier) (x : ElwChange) (s : State) : State :=
  let line := (s.tx c).line
  let begun := s.setTx c { s.tx c with line := { line with entropy := (line.frames.length * frameBits, x.msg.h64) :: line.entropy } }
  begun.setFrm c { begun.frm c with
    txSel := !(begun.frm c).txSel, txAcc := 0, txSlot := 0, txH64 := x.msg.h64, change := some { x with mapDone := true } }

/-- The frame at which the map switched has been formed. -/
def SwitchFormed (c : Carrier) (x : ElwChange) (s : State) : Prop :=
  let line := (s.tx c).line
  x.mapDone = true ∧ line.entropy.head?.any (fun e => line.frames.length * frameBits ≤ e.1) = false

/-- The new entropy is in force and the change is done (R99). -/
def entropySwitched (c : Carrier) (x : ElwChange) (s : State) : State :=
  (((s.setEntropy c x.msg.h64).setFrm c { s.frm c with change := none }).setFld (R.FRM_ELW_STATUS c) F.FRM_ELW_STATUS_tx_state 0).setFlag
    (R.FRM_ELW_STATUS c) F.FRM_ELW_STATUS_done true

section
variable {c : Carrier} {s : State} {x : ElwChange}

theorem elwSwitch_none (h : (s.frm c).change = none) : Does (.elwSwitch c) s s := by
  change execElwSwitch c s = _
  simp only [execElwSwitch, h]

theorem elwEntropySwitchBlock_none (h : (s.frm c).change = none) : Does (.elwEntropySwitchBlock c) s s := by
  change execElwEntropySwitchBlock c s = _
  simp only [execElwEntropySwitchBlock, h]

theorem not_atTarget_iff : ¬ AtTarget c x s ↔ s.fld (R.FRM_ELW_STATUS c) F.FRM_ELW_STATUS_tx_state ≠ 2 ∨ x.mapDone = true ∨ s.nextFrame c % 256 ≠ 0
    ∨ s.nextFrame c / 256 % 65536 ≠ x.msg.target := by
  simp only [AtTarget, nextMf, Classical.not_and_iff_not_or_not, Bool.not_eq_false, ne_eq]

theorem not_switchFormed_iff : ¬ SwitchFormed c x s ↔
    x.mapDone = false ∨ (s.tx c).line.entropy.head?.any (fun e => (s.tx c).line.frames.length * frameBits ≤ e.1) = true := by
  simp only [SwitchFormed, Classical.not_and_iff_not_or_not, Bool.not_eq_true, Bool.not_eq_false]

variable (h : (s.frm c).change = some x)
include h

theorem elwSwitch_waits (ha : ¬ AtTarget c x s) : Does (.elwSwitch c) s s := by
  change execElwSwitch c s = _
  unfold execElwSwitch
  rw [h]
  exact if_pos (not_atTarget_iff.mp ha)

theorem elwSwitch_switches (ha : AtTarget c x s) : Does (.elwSwitch c) s
    ((mapSwitched c x s).setFld (R.CAR_MODE_STATUS c) F.CAR_MODE_STATUS_capacity ((mapSwitched c x s).capAt c x.msg.h64)).cliShowAll := by
  change execElwSwitch c s = _
  unfold execElwSwitch
  rw [h]
  exact if_neg (fun hn => not_atTarget_iff.mpr hn ha)

theorem elwEntropySwitchBlock_waits (hf : ¬ SwitchFormed c x s) : Does (.elwEntropySwitchBlock c) s s := by
  change execElwEntropySwitchBlock c s = _
  unfold execElwEntropySwitchBlock
  rw [h]
  exact if_pos (not_switchFormed_iff.mp hf)

theorem elwEntropySwitchBlock_completes (hf : SwitchFormed c x s) : Does (.elwEntropySwitchBlock c) s
    (((entropySwitched c x s).logEvent (frmId c) sevInfo 0x0006 (evData [(1, x.msg.id), (1, 0), (2, x.msg.h64), (4, x.msg.target)])).endTicket
      x.ticket 0 0 x.first) := by
  change execElwEntropySwitchBlock c s = _
  unfold execElwEntropySwitchBlock
  rw [h]
  exact if_neg (fun hn => not_switchFormed_iff.mpr hn hf)

end

/-! ### COMMIT and the responder's switch -/

section
variable {c : Carrier} {hail : Bool} {s t : State} {m p : ElwMsg} {copy : List Byte}

theorem elwCommitReceived_none (h : s.elwTake c hail [0x23] (s.frm c).initMsg = (none, t)) : Does (.elwCommitReceived c hail) s t := by
  change execElwCommitReceived c hail s = _
  unfold execElwCommitReceived
  rw [h]

theorem elwCommitReceived_noPropose {r : Option (ElwMsg × List Byte)} (h : s.elwTake c hail [0x23] (s.frm c).initMsg = (r, t)) (hp : (t.frm c).prop = none) :
    Does (.elwCommitReceived c hail) s t := by
  change execElwCommitReceived c hail s = _
  cases r <;> simp only [execElwCommitReceived, h, hp]

theorem elwCommitReceived_judged (h : s.elwTake c hail [0x23] (s.frm c).initMsg = (some (m, copy), t)) (hp : (t.frm c).prop = some p) :
    Does (.elwCommitReceived c hail) s (if m.typ = 4 ∧ m.id = p.id ∧ m.target = p.target
      ∧ mfAhead p.target (t.fld (R.FRM_MF_COUNT c) F.FRM_MF_COUNT_rx_mf) = 1 ∧ t.fld (R.FRM_ELW_STATUS c) F.FRM_ELW_STATUS_rx_state = 2
      then t.setFld (R.FRM_ELW_STATUS c) F.FRM_ELW_STATUS_rx_state 3 else t) := by
  change execElwCommitReceived c hail s = _
  simp only [execElwCommitReceived, h, hp]

end

/-- The responder is in multiframe, and not yet in the target multiframe of p. -/
def BeforeTarget (c : Carrier) (p : ElwMsg) (s : State) : Prop :=
  s.flag (R.FRM_STATE c) F.FRM_STATE_in_mf = true ∧ s.fld (R.FRM_MF_COUNT c) F.FRM_MF_COUNT_rx_mf ≠ p.target

/-- The decoder takes the new entropy with its next block, map and calendar are the new ones, and the change is over (R100, R192). -/
def responderSwitched (c : Carrier) (p : ElwMsg) (s : State) : State :=
  let next := s.setFec c { s.fec c with next := some p.h64 }
  let ended := ((next.setFrm c { s.frm c with rxH64 := p.h64, rxAcc := 0, rxSlot := 0, prop := none, resp := elwIdle }).setFld
    (R.FRM_ELW_STATUS c) F.FRM_ELW_STATUS_rx_state 0).setFlag (R.FRM_ELW_STATUS c) F.FRM_ELW_STATUS_done true
  (ended.setFld (R.FRM_STATE c) F.FRM_STATE_map_sel_rx p.buf).setFld (R.CAR_MODE_STATUS c) F.CAR_MODE_STATUS_capacity (ended.capAt c p.h64)

/-- The responder keeps its configuration, notes the missed COMMIT and tries the accepted entropy first (R100). -/
def responderMissed (c : Carrier) (p : ElwMsg) (s : State) : State :=
  let missed := (s.setFld (R.FRM_ELW_STATUS c) F.FRM_ELW_STATUS_rx_state 0).setFlag (R.FRM_ELW_STATUS c) F.FRM_ELW_STATUS_missed_commit true
  missed.setFrm c { missed.frm c with rxTry := some p.h64, prop := none, resp := elwIdle, missed := (missed.frm c).missed + 1 }

section
variable {c : Carrier} {s : State} {p : ElwMsg}

theorem elwResponderSwitch_noPropose (h : (s.frm c).prop = none) : Does (.elwResponderSwitch c) s s := by
  change execElwResponderSwitch c s = _
  simp only [execElwResponderSwitch, h]

section
variable (h : (s.frm c).prop = some p)
include h

theorem elwResponderSwitch_early (he : BeforeTarget c p s) : Does (.elwResponderSwitch c) s s := by
  change execElwResponderSwitch c s = _
  unfold execElwResponderSwitch
  rw [h]
  exact if_pos he

variable (he : ¬ BeforeTarget c p s)
include he

theorem elwResponderSwitch_armed (hr : s.fld (R.FRM_ELW_STATUS c) F.FRM_ELW_STATUS_rx_state = 3) : Does (.elwResponderSwitch c) s
    (((responderSwitched c p s).logEvent (frmId c) sevInfo 0x0006 (evData [(1, p.id), (1, 1), (2, p.h64), (4, p.target)])).cliShowAll) := by
  change execElwResponderSwitch c s = _
  unfold execElwResponderSwitch
  rw [h]
  exact (if_neg he).trans (if_pos hr)

theorem elwResponderSwitch_missed (hr : s.fld (R.FRM_ELW_STATUS c) F.FRM_ELW_STATUS_rx_state = 2) :
    Does (.elwResponderSwitch c) s (responderMissed c p s) := by
  change execElwResponderSwitch c s = _
  unfold execElwResponderSwitch
  rw [h]
  exact (if_neg he).trans ((if_neg (by simp [hr])).trans (if_pos hr))

end

/-- A responder that neither accepted nor is armed has nothing to switch. -/
theorem elwResponderSwitch_neither (h2 : s.fld (R.FRM_ELW_STATUS c) F.FRM_ELW_STATUS_rx_state ≠ 2)
    (h3 : s.fld (R.FRM_ELW_STATUS c) F.FRM_ELW_STATUS_rx_state ≠ 3) : Does (.elwResponderSwitch c) s s := by
  cases h : (s.frm c).prop with
  | none => exact elwResponderSwitch_noPropose h
  | some p =>
    change execElwResponderSwitch c s = _
    unfold execElwResponderSwitch
    rw [h]
    exact ite_eq_left_iff.mpr fun _ => (if_neg h3).trans (if_neg h2)

end

/-- Settles O29: each row by whether its message is there and by its lemmas on the state that it then finds. -/
theorem hitlessChangeRows : Obligations.HitlessChangeRows := by
  unfold Obligations.HitlessChangeRows
  intro c hail s m p copy x k
  have taken : ∀ {types : List Nat} {carried : ElwMsg} {r : Option (ElwMsg × List Byte)}, (s.elwTake c hail types carried).1 = r →
      s.elwTake c hail types carried = (r, (s.elwTake c hail types carried).2) := fun h => Prod.ext h rfl
  refine ⟨fun h => elwProposeReceived_none (taken h), fun h => elwProposeReceived_old (taken h), fun h => elwProposeReceived_damaged (taken h),
    fun h => elwProposeReceived_rejects (taken h), fun h => elwProposeReceived_accepts (taken h), fun h => elwProposeReceived_asks (taken h),
    fun h => elwAnswerReceived_none (taken h), fun h => elwAnswerReceived_idle (taken h), fun h hc ht hi => ?_,
    fun h => elwAnswerReceived_other (taken h), fun h => ⟨elwCommitDeadline_none h, elwSwitch_none h, elwEntropySwitchBlock_none h⟩,
    fun h => ⟨elwCommitDeadline_early h, elwCommitDeadline_commits h, elwCommitDeadline_abandons h, elwSwitch_waits h, elwSwitch_switches h,
      elwEntropySwitchBlock_waits h, elwEntropySwitchBlock_completes h⟩,
    fun h => ?_, fun h => elwCommitReceived_judged (taken h), fun h => ?_, elwResponderSwitch_armed, elwResponderSwitch_missed⟩
  · exact ⟨elwAnswerReceived_accept (taken h) hc ht hi, elwAnswerReceived_reject (taken h) hc ht hi, elwAnswerReceived_noAnswer (taken h) hc ht hi⟩
  · exact h.elim (fun h => elwCommitReceived_none (taken h)) (elwCommitReceived_noPropose (taken rfl))
  · obtain h | ⟨h2, h3⟩ | ⟨h, he⟩ := h
    · exact elwResponderSwitch_noPropose h
    · exact elwResponderSwitch_neither h2 h3
    · exact elwResponderSwitch_early h he

end Sys2Proof.Proofs

/-! PROOF. The commands of the transmit queue (R104, R105, R107, R108, R119, R120, R122, R129, Table TXP-8). Results that the table does not
give are 0 (notes/assumptions/25). -/
namespace Sys2Proof.Proofs
open Sys2Proof Sys2Proof.Machine Sys2Proof.Safety Sys2Proof.Laws

/-! ### TX_SET_STATE -/

/-- The change leaves OFF, so it waits for the DACs (R104). -/
def LeavesOff (c : Carrier) (u : State) (d : Desc) : Prop := u.txState c = 0 ∧ d.arg0 % 8 ≠ 0

/-- The change leaves SERVICE, so it waits for the end of the superframe (R104). -/
def LeavesService (c : Carrier) (u : State) (d : Desc) : Prop := u.txState c = 3 ∧ d.arg0 % 8 ≠ 3

/-- The change leaves HAIL within a burst, so it waits for the burst's end (R104). -/
def LeavesBurst (c : Carrier) (u : State) (d : Desc) : Prop := u.txState c = 2 ∧ d.arg0 % 8 ≠ 2 ∧ u.hailBursting c = true

section
variable {c : Carrier} {s u : State} {e : QEntry}

theorem txSetState_overtaken (hn : (s.startedOp (txpQ c) 0x100).isSome) : Does (.txSetState c) s s :=
  congrArg Host.Outcome.next (if_pos hn)

variable (hn : s.startedOp (txpQ c) 0x100 = none) (h : Started (txpQ c) 0x100 s e u)
include hn h

theorem txSetState_refused {code : Nat} (hc : u.txStateCheck c e.desc = some code) : Finishes (.txSetState c) s u e code 0 0 := by
  refine congrArg Host.Outcome.next ((if_neg (Option.not_isSome_iff_eq_none.mpr hn)).trans (runCommand_ends h ?_))
  rw [hc]

variable (hc : u.txStateCheck c e.desc = none)
include hc

theorem txSetState_settles (ho : LeavesOff c u e.desc) : GoesOn (.txSetState c) s
    (((u.setFld (R.TXP_STATE c) F.TXP_STATE_state 1).setTx c { u.tx c with settling := true }).anlLeaveOff true c) (txpQ c) := by
  refine congrArg Host.Outcome.next ((if_neg (Option.not_isSome_iff_eq_none.mpr hn)).trans (runCommand_goes_on h ?_))
  rw [hc]
  exact if_pos ho

variable (ho : ¬ LeavesOff c u e.desc)
include ho

theorem txSetState_awaitsSuperframe (hs : LeavesService c u e.desc) : GoesOn (.txSetState c) s u (txpQ c) := by
  refine congrArg Host.Outcome.next ((if_neg (Option.not_isSome_iff_eq_none.mpr hn)).trans (runCommand_goes_on h ?_))
  rw [hc]
  exact (if_neg ho).trans (if_pos hs)

variable (hs : ¬ LeavesService c u e.desc)
include hs

theorem txSetState_awaitsBurst (hb : LeavesBurst c u e.desc) : GoesOn (.txSetState c) s u (txpQ c) := by
  refine congrArg Host.Outcome.next ((if_neg (Option.not_isSome_iff_eq_none.mpr hn)).trans (runCommand_goes_on h ?_))
  rw [hc]
  exact (if_neg ho).trans ((if_neg hs).trans (if_pos hb))

theorem txSetState_enters (hb : ¬ LeavesBurst c u e.desc) :
    Finishes (.txSetState c) s (u.txEnter c (e.desc.arg0 % 8)) e 0 (e.desc.arg0 % 8) u.time.devtime.toNat := by
  refine congrArg Host.Outcome.next ((if_neg (Option.not_isSome_iff_eq_none.mpr hn)).trans (runCommand_ends h ?_))
  rw [hc]
  exact (if_neg ho).trans ((if_neg hs).trans (if_neg hb))

end

/-! ### TX_MUTE -/

/-- The unmute waits for the next superframe (R108). -/
def UnmuteWaits (c : Carrier) (u : State) : Prop := u.txState c = 3 ∧ u.flag (R.TXP_STATE c) F.TXP_STATE_muted = true

section
variable {c : Carrier} {s u : State} {e : QEntry} (h : Started (txpQ c) 0x101 s e u)
include h

theorem txMute_unit (hu : e.desc.unit ≠ 0xFF) : Finishes (.txMute c) s u e 0x02 0 0 :=
  congrArg Host.Outcome.next (runCommand_ends h (if_pos hu))

variable (hu : e.desc.unit = 0xFF)
include hu

theorem txMute_mutes (hm : e.desc.arg0 % 2 = 1) : Finishes (.txMute c) s
    ((u.setFlag (R.TXP_STATE c) F.TXP_STATE_muted true).setFlag (R.TXP_STATE c) F.TXP_STATE_unmute_pending false) e 0 0 0 :=
  congrArg Host.Outcome.next (runCommand_ends h ((if_neg (not_not_intro hu)).trans (if_pos hm)))

variable (hm : e.desc.arg0 % 2 ≠ 1)
include hm

theorem txMute_faulted (hf : (u.tx c).fault = true) : Finishes (.txMute c) s u e 0x05 0 0 :=
  congrArg Host.Outcome.next (runCommand_ends h ((if_neg (not_not_intro hu)).trans ((if_neg hm).trans (if_pos hf))))

variable (hf : (u.tx c).fault = false)
include hf

theorem txMute_awaitsSuperframe (hw : UnmuteWaits c u) :
    GoesOn (.txMute c) s (u.setFlag (R.TXP_STATE c) F.TXP_STATE_unmute_pending true) (txpQ c) :=
  congrArg Host.Outcome.next (runCommand_goes_on h ((if_neg (not_not_intro hu)).trans ((if_neg hm).trans
    ((if_neg (ne_true_of_eq_false hf)).trans (if_pos hw)))))

theorem txMute_unmutes (hw : ¬ UnmuteWaits c u) : Finishes (.txMute c) s (u.setFlag (R.TXP_STATE c) F.TXP_STATE_muted false) e 0 0 0 :=
  congrArg Host.Outcome.next (runCommand_ends h ((if_neg (not_not_intro hu)).trans ((if_neg hm).trans
    ((if_neg (ne_true_of_eq_false hf)).trans (if_neg hw)))))

end

/-! ### TX_LOAD_FIR -/

/-- The lanes whose filter a load replaces. -/
def firLanes (d : Desc) : List Nat := if d.unit = 0xFF then [0, 1, 2, 3] else [d.unit]

/-- The unit or the address of the coefficients is wrong (Table TXP-8). -/
def FirMalformed (d : Desc) : Prop := (4 ≤ d.unit ∧ d.unit ≠ 0xFF) ∨ bufferOk d.arg0 (128 * (firLanes d).length) = false

/-- The filters f with the coefficients of lane p.1 in the named bank, taken from place p.2 of the buffer (R122). -/
def firPut (u : State) (d : Desc) (f : Vector (List W16) 8) (p : Nat × Nat) : Vector (List W16) 8 :=
  f.set (Fin.ofNat 8 (2 * p.1 + d.arg1 % 2)) (u.words16 (d.arg0 + 128 * p.2) 64)

/-- The coefficients of every named lane stand in the named bank (R122). -/
def firLoaded (c : Carrier) (u : State) (d : Desc) : State :=
  u.setTx c { u.tx c with fir := ((firLanes d).zip (List.range 4)).foldl (firPut u d) (u.tx c).fir }

theorem not_firMalformed {d : Desc} (hu : d.unit < 4 ∨ d.unit = 0xFF) (hb : bufferOk d.arg0 (128 * (firLanes d).length) = true) :
    ¬ FirMalformed d :=
  not_or_intro (by omega) (ne_false_of_eq_true hb)

section
variable {c : Carrier} {s u : State} {e : QEntry} (h : Started (txpQ c) 0x102 s e u)
include h

theorem txLoadFir_malformed (hm : FirMalformed e.desc) : Finishes (.txLoadFir c) s u e 0x02 0 0 :=
  congrArg Host.Outcome.next (runCommand_ends h (if_pos hm))

variable (hm : ¬ FirMalformed e.desc)
include hm

theorem txLoadFir_activeBank (hb : u.fld (R.TXP_STATE c) F.TXP_STATE_fir_bank = e.desc.arg1 % 2) : Finishes (.txLoadFir c) s u e 0x06 0 0 :=
  congrArg Host.Outcome.next (runCommand_ends h ((if_neg hm).trans (if_pos hb)))

theorem txLoadFir_loads (hb : u.fld (R.TXP_STATE c) F.TXP_STATE_fir_bank ≠ e.desc.arg1 % 2) :
    Finishes (.txLoadFir c) s (firLoaded c u e.desc) e 0 0 0 :=
  congrArg Host.Outcome.next (runCommand_ends h ((if_neg hm).trans (if_neg hb)))

end

/-! ### TX_LOAD_NLC -/

/-- The pre-compensation entries that a load names. -/
def nlcLoad (u : State) (d : Desc) : List NlcEntry := u.nlcEntries d.arg0 (d.arg1 % 8192)

/-- The bank that a load names. -/
def nlcBankOf (d : Desc) : Nat := d.arg1 / 65536 % 2

/-- The unit, the number of entries, their address or one of their indices is wrong (R119, Table TXP-8). -/
def NlcMalformed (u : State) (d : Desc) : Prop :=
  let n := d.arg1 % 8192
  d.unit ≠ 0xFF ∨ n = 0 ∨ 4096 < n ∨ bufferOk d.arg0 (8 * n) = false ∨ (nlcLoad u d).all NlcEntry.ok = false

theorem not_nlcMalformed {u : State} {d : Desc} (hu : d.unit = 0xFF) (h0 : d.arg1 % 8192 ≠ 0) (hn : d.arg1 % 8192 ≤ 4096)
    (hb : bufferOk d.arg0 (8 * (d.arg1 % 8192)) = true) (hl : (nlcLoad u d).all NlcEntry.ok = true) : ¬ NlcMalformed u d :=
  not_or_intro (not_not_intro hu) (not_or_intro h0 (not_or_intro (Nat.not_lt.mpr hn)
    (not_or_intro (ne_false_of_eq_true hb) (ne_false_of_eq_true hl))))

section
variable {c : Carrier} {s u : State} {e : QEntry} (h : Started (txpQ c) 0x103 s e u)
include h

theorem txLoadNlc_malformed (hm : NlcMalformed u e.desc) : Finishes (.txLoadNlc c) s u e 0x02 0 0 :=
  congrArg Host.Outcome.next (runCommand_ends h (if_pos hm))

variable (hm : ¬ NlcMalformed u e.desc)
include hm

theorem txLoadNlc_activeBank (hb : u.fld (R.TXP_STATE c) F.TXP_STATE_nlc_bank = nlcBankOf e.desc) : Finishes (.txLoadNlc c) s u e 0x06 0 0 :=
  congrArg Host.Outcome.next (runCommand_ends h ((if_neg hm).trans (if_pos hb)))

variable (hb : u.fld (R.TXP_STATE c) F.TXP_STATE_nlc_bank ≠ nlcBankOf e.desc)
include hb

theorem txLoadNlc_loads0 (h0 : nlcBankOf e.desc = 0) : Finishes (.txLoadNlc c) s ((u.setTx c { u.tx c with nlc0 := nlcLoad u e.desc }).setFld
    (R.TXP_NLC_STATUS c) F.TXP_NLC_STATUS_count0 (e.desc.arg1 % 8192)) e 0 (e.desc.arg1 % 8192) 0 :=
  congrArg Host.Outcome.next (runCommand_ends h ((if_neg hm).trans ((if_neg hb).trans (if_pos h0))))

theorem txLoadNlc_loads1 (h1 : nlcBankOf e.desc = 1) : Finishes (.txLoadNlc c) s ((u.setTx c { u.tx c with nlc1 := nlcLoad u e.desc }).setFld
    (R.TXP_NLC_STATUS c) F.TXP_NLC_STATUS_count1 (e.desc.arg1 % 8192)) e 0 (e.desc.arg1 % 8192) 0 :=
  congrArg Host.Outcome.next (runCommand_ends h ((if_neg hm).trans ((if_neg hb).trans (if_neg (fun h0 => Nat.one_ne_zero (h1.symm.trans h0))))))

end

/-! ### TX_CAPTURE -/

/-- The lane, the number of samples or the buffer is wrong (Table TXP-8). -/
def TxCaptureMalformed (d : Desc) : Prop :=
  let n := d.arg1 % 16384
  4 ≤ d.unit ∨ n = 0 ∨ 8192 < n ∨ bufferOk d.arg0 n = false

theorem not_txCaptureMalformed {d : Desc} (hu : d.unit < 4) (h0 : d.arg1 % 16384 ≠ 0) (hn : d.arg1 % 16384 ≤ 8192)
    (hb : bufferOk d.arg0 (d.arg1 % 16384) = true) : ¬ TxCaptureMalformed d :=
  not_or_intro (Nat.not_le.mpr hu) (not_or_intro h0 (not_or_intro (Nat.not_lt.mpr hn) (ne_false_of_eq_true hb)))

section
variable {c : Carrier} {s u : State} {e : QEntry} (h : Started (txpQ c) 0x104 s e u)
include h

theorem txCapture_malformed (hm : TxCaptureMalformed e.desc) : Finishes (.txCapture c) s u e 0x02 0 0 :=
  congrArg Host.Outcome.next (runCommand_ends h (if_pos hm))

variable (hm : ¬ TxCaptureMalformed e.desc)
include hm

theorem txCapture_off (hs : u.txState c = 0) : Finishes (.txCapture c) s u e 0x06 0 0 :=
  congrArg Host.Outcome.next (runCommand_ends h ((if_neg hm).trans (if_pos hs)))

theorem txCapture_awaitsSuperframe (hs : u.txState c = 3) : GoesOn (.txCapture c) s u (txpQ c) :=
  congrArg Host.Outcome.next (runCommand_goes_on h ((if_neg hm).trans ((if_neg (fun h0 => Nat.succ_ne_zero 2 (hs.symm.trans h0))).trans (if_pos hs))))

theorem txCapture_captures (h0 : u.txState c ≠ 0) (h3 : u.txState c ≠ 3) :
    Finishes (.txCapture c) s (u.txCapture c e.desc.unit e.desc.arg0 (e.desc.arg1 % 16384)) e 0 (u.cnt (R.TXP_SF_CNT c)) 0 :=
  congrArg Host.Outcome.next (runCommand_ends h ((if_neg hm).trans ((if_neg h0).trans (if_neg h3))))

end

/-- Settles O19: each command by the lemmas on its refusals, in their order, on what it waits for and on its effect. -/
theorem transmitCommands : Obligations.TransmitCommands := by
  unfold Obligations.TransmitCommands
  intro c s u e d a bank lanes n nlc nlcBank m
  refine ⟨txSetState_overtaken, fun hn h => ?_, fun h => ?_, fun h => ?_, fun h => ?_, fun h => ?_⟩
  · refine ⟨fun code => txSetState_refused hn h, fun hc h0 ht => txSetState_settles hn h hc ⟨h0, ht⟩, fun hc h3 ht => ?_,
      fun hc h2 ht hb => ?_, fun hc h0 h3 h2 => ?_⟩
    · have notOff : ¬ LeavesOff c u d := fun ⟨h0, _⟩ => by omega
      exact txSetState_awaitsSuperframe hn h hc notOff ⟨h3, ht⟩
    · have notOff : ¬ LeavesOff c u d := fun ⟨h0, _⟩ => by omega
      have notService : ¬ LeavesService c u d := fun ⟨h3, _⟩ => by omega
      exact txSetState_awaitsBurst hn h hc notOff notService ⟨h2, ht, hb⟩
    · exact txSetState_enters hn h hc (fun ⟨is0, ht⟩ => ht (h0 is0)) (fun ⟨is3, ht⟩ => ht (h3 is3)) (fun ⟨is2, ht, hb⟩ => ht (h2 is2 hb))
  · have unmute : d.arg0 % 2 = 0 → d.arg0 % 2 ≠ 1 := by omega
    exact ⟨txMute_unit h, txMute_mutes h, fun hu hm => txMute_faulted h hu (unmute hm),
      fun hu hm hf h3 muted => txMute_awaitsSuperframe h hu (unmute hm) hf ⟨h3, muted⟩,
      fun hu hm hf hw => txMute_unmutes h hu (unmute hm) hf (fun ⟨h3, muted⟩ => ne_true_of_eq_false (hw h3) muted)⟩
  · exact ⟨txLoadFir_malformed h, fun hu hb => txLoadFir_activeBank h (not_firMalformed hu hb),
      fun hu hb => txLoadFir_loads h (not_firMalformed hu hb)⟩
  · refine ⟨txLoadNlc_malformed h, fun hu h0 hn hb hl => ?_⟩
    have hm : ¬ NlcMalformed u d := not_nlcMalformed hu h0 hn hb hl
    exact ⟨txLoadNlc_activeBank h hm, txLoadNlc_loads0 h hm, txLoadNlc_loads1 h hm⟩
  · refine ⟨txCapture_malformed h, fun hu h0 hn hb => ?_⟩
    have hm : ¬ TxCaptureMalformed d := not_txCaptureMalformed hu h0 hn hb
    exact ⟨txCapture_off h hm, txCapture_awaitsSuperframe h hm, txCapture_captures h hm⟩

end Sys2Proof.Proofs

/-! PROOF. Sending on the hail channel (R104, R211 to R213, R224, R225, Table HAIL-7), and HL_RECV. Results that the table does
not give are 0 (notes/assumptions/25). -/
namespace Sys2Proof.Proofs
open Sys2Proof Sys2Proof.Machine Sys2Proof.Safety Sys2Proof.Laws

/-! ### HL_SEND -/

/-- The unit, length, type, fragments or payload address of a send is wrong (Table HAIL-7). -/
def SendMalformed (d : Desc) : Prop :=
  let len := d.arg1 % 4096
  d.unit ≠ 0xFF ∨ 2048 < len ∨ hailProgType (d.arg1 / 2 ^ 16 % 256) = false ∨ d.arg1 / 2 ^ 28 % 16 < d.arg1 / 2 ^ 24 % 16
    ∨ (len ≠ 0 ∧ bufferOk d.arg0 len = false)

/-- The issuing level does not hold the hail channel, or the carrier is in no hail condition (R213). -/
def SendBarred (c : Carrier) (s : State) (d : Desc) : Prop := s.holds d.holder (0x24 + c.code) = false ∨ s.hailTxNow c = 0

/-- The burst that a send enters into the FIFO. -/
def sendBurst (s : State) (e : QEntry) : HailBurst :=
  let d := e.desc
  { typ := d.arg1 / 2 ^ 16 % 256, fragIdx := d.arg1 / 2 ^ 24 % 16, fragLast := d.arg1 / 2 ^ 28 % 16, msgId := d.arg2 % 256,
    payload := s.bytes d.arg0 (d.arg1 % 4096), ticket := some e.ticket }

section
variable {c : Carrier} {s u : State} {e : QEntry} (h : Started (hailQ c) 0x100 s e u)
include h

theorem hlSend_malformed (hm : SendMalformed e.desc) : Does (.hlSend c) s (s.complete e 0x02 0 0) := by
  refine congrArg Host.Outcome.next ?_
  rw [State.hlSend, h.1]
  exact if_pos hm

variable (hm : ¬ SendMalformed e.desc)
include hm

theorem hlSend_barred (hb : SendBarred c s e.desc) : Does (.hlSend c) s (s.complete e 0x06 0 0) := by
  refine congrArg Host.Outcome.next ?_
  rw [State.hlSend, h.1]
  exact (if_neg hm).trans (if_pos hb)

variable (hb : ¬ SendBarred c s e.desc)
include hb

theorem hlSend_faulted (hf : (s.hail c).fault = true) : Does (.hlSend c) s (s.complete e 0x05 0 0) := by
  refine congrArg Host.Outcome.next ?_
  rw [State.hlSend, h.1]
  exact (if_neg hm).trans ((if_neg hb).trans (if_pos hf))

variable (hf : (s.hail c).fault = false)
include hf

theorem hlSend_awaitsPlace (hl : 16 ≤ (s.hail c).fifo.length) : Does (.hlSend c) s s := by
  refine congrArg Host.Outcome.next ?_
  rw [State.hlSend, h.1]
  exact (if_neg hm).trans ((if_neg hb).trans ((if_neg (ne_true_of_eq_false hf)).trans (if_pos hl)))

theorem hlSend_enters (hl : (s.hail c).fifo.length < 16) : GoesOn (.hlSend c) s
    ((u.setHail c { s.hail c with fifo := (s.hail c).fifo ++ [sendBurst s e] }).hailShow c) (hailQ c) := by
  obtain ⟨hs, rfl⟩ := h
  refine congrArg Host.Outcome.next ?_
  rw [State.hlSend, hs]
  exact (if_neg hm).trans ((if_neg hb).trans ((if_neg (ne_true_of_eq_false hf)).trans (if_neg (Nat.not_le.mpr hl))))

end

/-! ### HL_RECV -/

section
variable {c : Carrier} {s u : State} {e : QEntry} {r : HailRxBurst} {m : List HailRxBurst} (h : Started (hailQ c) 0x101 s e u)
include h

theorem hlRecv_malformed (hm : e.desc.unit ≠ 0xFF ∨ bufferOk e.desc.arg0 2064 = false) : Finishes (.hlRecv c) s u e 0x02 0 0 :=
  congrArg Host.Outcome.next (runCommand_ends h (if_pos hm))

variable (hm : ¬ (e.desc.unit ≠ 0xFF ∨ bufferOk e.desc.arg0 2064 = false))
include hm

theorem hlRecv_empty (hr : (u.hail c).ring = []) : Finishes (.hlRecv c) s u e 0 0 0 := by
  refine congrArg Host.Outcome.next (runCommand_ends h ((if_neg hm).trans ?_))
  rw [hr]

theorem hlRecv_takes (hr : (u.hail c).ring = r :: m) : Finishes (.hlRecv c) s
    (((u.setHail c { u.hail c with ring := m }).hailShow c).setBytes e.desc.arg0 (leBytes 8 r.header.toNat ++ leBytes 8 r.time.toNat ++ r.payload))
    e 0 r.header.toNat 0 := by
  refine congrArg Host.Outcome.next (runCommand_ends h ((if_neg hm).trans ?_))
  rw [hr]

end

/-! ### The scheduler -/

/-- No burst is being sent, and the modem may send one (R211, R225). -/
def CanBegin (c : Carrier) (s : State) : Prop := (s.hail c).fault = false ∧ (s.hail c).cur = none ∧ s.hailTxNow c ≠ 0

theorem not_canBegin_iff {c : Carrier} {s : State} :
    ¬ CanBegin c s ↔ (s.hail c).fault = true ∨ (s.hail c).cur.isSome = true ∨ s.hailTxNow c = 0 := by
  simp only [CanBegin, Classical.not_and_iff_not_or_not, Bool.not_eq_false, ← Option.not_isSome_iff_eq_none, ne_eq,
    Classical.not_not]

section
variable {c : Carrier} {s : State} {b : HailBurst} {l : List HailBurst}

theorem hailBurstStart_idle (hn : ¬ CanBegin c s) : Does (.hailBurstStart c) s s := if_pos (not_canBegin_iff.mp hn)

variable (hr : CanBegin c s)
include hr

theorem hailBurstStart_enclave (he : (s.hail c).encl = b :: l) :
    Does (.hailBurstStart c) s ((s.setHail c { s.hail c with encl := l }).hailBegin c b) := by
  refine (if_neg (fun hn => not_canBegin_iff.mpr hn hr)).trans ?_
  simp only [he]

variable (he : (s.hail c).encl = [])
include he

theorem hailBurstStart_framer (hq : (s.hail c).frmq = b :: l) :
    Does (.hailBurstStart c) s ((s.setHail c { s.hail c with frmq := l }).hailBegin c b) := by
  refine (if_neg (fun hn => not_canBegin_iff.mpr hn hr)).trans ?_
  simp only [he, hq]

variable (hq : (s.hail c).frmq = [])
include hq

theorem hailBurstStart_program (hl : (s.hail c).fifo = b :: l) :
    Does (.hailBurstStart c) s ((((s.setHail c { s.hail c with fifo := l }).hailBegin c b).hailShow c).hlSend c) := by
  refine (if_neg (fun hn => not_canBegin_iff.mpr hn hr)).trans ?_
  simp only [he, hq, hl]

theorem hailBurstStart_noSource (hl : (s.hail c).fifo = []) : Does (.hailBurstStart c) s (if s.hailTxNow c = 1 then
    s.hailBegin c { typ := 0, fragIdx := 0, fragLast := 0, msgId := 0, payload := [], ticket := none } else s) := by
  refine (if_neg (fun hn => not_canBegin_iff.mpr hn hr)).trans ?_
  simp only [he, hq, hl]

end

/-! ### The end of a burst -/

/-- The burst x is over and counted (R212). -/
def burstCounted (c : Carrier) (x : HailCur) (s : State) : State :=
  (s.setHail c { s.hail c with cur := none, tail := if x.windowed then none else x.bits.getLast?.map (·.1) }).addCnt (R.HAIL_TX_CNT c) 1

section
variable {c : Carrier} {s : State} {x : HailCur} {e : QEntry}

theorem hailBurstSent_none (h : (s.hail c).cur = none) : Does (.hailBurstSent c) s s := by
  change execHailBurstSent c s = _
  rw [execHailBurstSent, h]

variable (h : (s.hail c).cur = some x)
include h

theorem hailBurstSent_completes (he : x.burst.ticket.bind (burstCounted c x s).entryOf = some e) :
    Does (.hailBurstSent c) s (((burstCounted c x s).complete e 0 x.seq x.start.toNat).hailRelease c) := by
  change execHailBurstSent c s = _
  simp only [burstCounted] at he
  simp only [execHailBurstSent, h, he, burstCounted]

theorem hailBurstSent_noCommand (he : x.burst.ticket.bind (burstCounted c x s).entryOf = none) :
    Does (.hailBurstSent c) s ((burstCounted c x s).hailRelease c) := by
  change execHailBurstSent c s = _
  simp only [burstCounted] at he
  simp only [execHailBurstSent, h, he, burstCounted]

end

/-- Settles O26: HL_SEND and HL_RECV by the lemmas on their refusals, in their order, and on their effect; the scheduler by the first source that has a burst;
the burst's end by whether a command holds it; the fault has one case. -/
theorem hailSendingRows : Obligations.HailSendingRows := by
  unfold Obligations.HailSendingRows
  intro c s u e b l r m x d len typ fi fl bad barred mine taken h ready sent after stopped
  refine ⟨fun hs => ⟨hlSend_malformed hs, hlSend_barred hs, hlSend_faulted hs, hlSend_awaitsPlace hs, hlSend_enters hs⟩,
    fun hs => ⟨hlRecv_malformed hs, fun hu hb => hlRecv_empty hs (not_malformed hu hb), fun hu hb => hlRecv_takes hs (not_malformed hu hb)⟩,
    hailBurstStart_idle, hailBurstStart_enclave, hailBurstStart_framer, hailBurstStart_program, hailBurstStart_noSource,
    hailBurstSent_none, hailBurstSent_completes, hailBurstSent_noCommand, rfl⟩

end Sys2Proof.Proofs

/-! PROOF. The commands of the receive front end (R129, R146, R151, R153, Table RXF-7). Results that the table does not give are 0
(notes/assumptions/25). -/
namespace Sys2Proof.Proofs
open Sys2Proof Sys2Proof.Machine Sys2Proof.Safety Sys2Proof.Laws

/-! ### RX_SET_STATE -/

/-- The receiver is in OFF. -/
def RxOff (c : Carrier) (u : State) : Prop := u.fld (R.RXF_STATE c) F.RXF_STATE_state = 0

/-- The change leaves OFF, so it waits for the ADCs (R146). -/
def RxLeavesOff (c : Carrier) (u : State) (d : Desc) : Prop := RxOff c u ∧ d.arg0 % 8 ≠ 0

section
variable {c : Carrier} {s u : State} {e : QEntry}

theorem rxSetState_overtaken (hn : (s.startedOp (rxfQ c) 0x100).isSome) : Does (.rxSetState c) s s :=
  congrArg Host.Outcome.next (if_pos hn)

variable (hn : s.startedOp (rxfQ c) 0x100 = none) (h : Started (rxfQ c) 0x100 s e u)
include hn h

theorem rxSetState_refused {code : Nat} (hc : u.rxStateCheck c e.desc = some code) : Finishes (.rxSetState c) s u e code 0 0 := by
  refine congrArg Host.Outcome.next ((if_neg (Option.not_isSome_iff_eq_none.mpr hn)).trans (runCommand_ends h ?_))
  rw [hc]

variable (hc : u.rxStateCheck c e.desc = none)
include hc

theorem rxSetState_settles (ho : RxLeavesOff c u e.desc) : GoesOn (.rxSetState c) s
    (((u.rxEnter c 1).setRx c { (u.rxEnter c 1).rx c with settling := true }).anlLeaveOff false c) (rxfQ c) := by
  refine congrArg Host.Outcome.next ((if_neg (Option.not_isSome_iff_eq_none.mpr hn)).trans (runCommand_goes_on h ?_))
  rw [hc]
  exact if_pos ho

theorem rxSetState_enters (ho : ¬ RxLeavesOff c u e.desc) :
    Finishes (.rxSetState c) s (u.rxEnter c (e.desc.arg0 % 8)) e 0 (e.desc.arg0 % 8) u.time.devtime.toNat := by
  refine congrArg Host.Outcome.next ((if_neg (Option.not_isSome_iff_eq_none.mpr hn)).trans (runCommand_ends h ?_))
  rw [hc]
  exact if_neg ho

end

/-! ### RX_REACQUIRE -/

section
variable {c : Carrier} {s u : State} {e : QEntry} (h : Started (rxfQ c) 0x101 s e u)
include h

theorem rxReacquire_unit (hu : e.desc.unit ≠ 0xFF) : Finishes (.rxReacquire c) s u e 0x02 0 0 :=
  congrArg Host.Outcome.next (runCommand_ends h (if_pos hu))

variable (hu : e.desc.unit = 0xFF)
include hu

theorem rxReacquire_notInService (hs : u.fld (R.RXF_STATE c) F.RXF_STATE_state ≠ 3) : Finishes (.rxReacquire c) s u e 0x06 0 0 :=
  congrArg Host.Outcome.next (runCommand_ends h ((if_neg (not_not_intro hu)).trans (if_pos hs)))

theorem rxReacquire_acquires (hs : u.fld (R.RXF_STATE c) F.RXF_STATE_state = 3) : Finishes (.rxReacquire c) s (u.acqStart c) e 0 0 0 :=
  congrArg Host.Outcome.next (runCommand_ends h ((if_neg (not_not_intro hu)).trans (if_neg (not_not_intro hs))))

end

/-! ### RX_CAPTURE -/

/-- The point of the receive path that a capture names: 2 is after dispersion compensation. -/
def capturePoint (d : Desc) : Nat := d.arg1 / 65536 % 4

/-- The lane, the number of samples, the point or the buffer is wrong (Table RXF-7). -/
def RxCaptureMalformed (d : Desc) : Prop :=
  let n := d.arg1 % 16384
  4 ≤ d.unit ∨ n = 0 ∨ 8192 < n ∨ capturePoint d = 3 ∨ (capturePoint d = 2 ∧ d.unit % 2 = 1) ∨ bufferOk d.arg0 (rxCaptureBytes d) = false

/-- The point delivers nothing in the receiver's state (Table RXF-7). -/
def PointDark (c : Carrier) (u : State) (d : Desc) : Prop :=
  let st := u.fld (R.RXF_STATE c) F.RXF_STATE_state
  st = 0 ∨ (capturePoint d = 2 ∧ st ≠ 2 ∧ st ≠ 3)

section
variable {c : Carrier} {s u : State} {e : QEntry} (h : Started (rxfQ c) 0x102 s e u)
include h

theorem rxCapture_malformed (hm : RxCaptureMalformed e.desc) : Finishes (.rxCapture c) s u e 0x02 0 0 :=
  congrArg Host.Outcome.next (runCommand_ends h (if_pos hm))

variable (hm : ¬ RxCaptureMalformed e.desc)
include hm

theorem rxCapture_dark (hd : PointDark c u e.desc) : Finishes (.rxCapture c) s u e 0x06 0 0 :=
  congrArg Host.Outcome.next (runCommand_ends h ((if_neg hm).trans (if_pos hd)))

variable (hd : ¬ PointDark c u e.desc)
include hd

theorem rxCapture_awaitsSuperframe (hl : u.flag (R.RXF_STATE c) F.RXF_STATE_sf_lock = true) : GoesOn (.rxCapture c) s u (rxfQ c) :=
  congrArg Host.Outcome.next (runCommand_goes_on h ((if_neg hm).trans ((if_neg hd).trans (if_pos hl))))

theorem rxCapture_captures (hl : u.flag (R.RXF_STATE c) F.RXF_STATE_sf_lock = false) :
    Finishes (.rxCapture c) s (u.capture e.desc.arg0 (rxCaptureBytes e.desc)) e 0 (u.cnt (R.RXF_SF_CNT c)) 0 :=
  congrArg Host.Outcome.next (runCommand_ends h ((if_neg hm).trans ((if_neg hd).trans (if_neg (ne_true_of_eq_false hl)))))

end

/-- Settles O21: each command by the lemmas on its refusals, in their order, on what it waits for and on its effect. -/
theorem receiveCommands : Obligations.ReceiveCommands := by
  unfold Obligations.ReceiveCommands
  intro c s u e d a n point bad dark
  refine ⟨rxSetState_overtaken, fun hn h => ⟨fun code => rxSetState_refused hn h, fun hc ho ht => rxSetState_settles hn h hc ⟨ho, ht⟩, fun hc ht => ?_⟩,
    fun h => ⟨rxReacquire_unit h, rxReacquire_notInService h, rxReacquire_acquires h⟩,
    fun h => ⟨rxCapture_malformed h, rxCapture_dark h, rxCapture_awaitsSuperframe h, rxCapture_captures h⟩⟩
  exact rxSetState_enters hn h hc (fun ⟨ho, hne⟩ => hne (ht ho))

end Sys2Proof.Proofs

/-! PROOF. The events of the receive path (R133, R138, R141, R142, R144 to R146, R149, R151, R152). What of them is the model's choice or
reading: notes/assumptions/3, 28, 88, 97 and 98. -/
namespace Sys2Proof.Proofs
open Sys2Proof Sys2Proof.Machine Sys2Proof.Safety Sys2Proof.Laws

/-! ### The ADCs -/

/-- The ADC bias has settled. -/
def adcSettled (c : Carrier) (s : State) : State := s.setRx c { s.rx c with settling := false }

section
variable {c : Carrier} {s : State} {e : QEntry}

theorem rxAdcSettled_idle (h : (s.rx c).settling = false) : Does (.rxAdcSettled c) s s :=
  congrArg Host.Outcome.next (if_neg (ne_true_of_eq_false h))

variable (h : (s.rx c).settling = true)
include h

theorem rxAdcSettled_enters (he : (adcSettled c s).startedOp (rxfQ c) 0x100 = some e) : Does (.rxAdcSettled c) s
    (((adcSettled c s).rxEnter c (e.desc.arg0 % 8)).complete e 0 (e.desc.arg0 % 8) (adcSettled c s).time.devtime.toNat) := by
  refine congrArg Host.Outcome.next ((if_pos h).trans ?_)
  simp only [adcSettled] at he
  simp only [he, adcSettled]

theorem rxAdcSettled_noCommand (he : (adcSettled c s).startedOp (rxfQ c) 0x100 = none) : Does (.rxAdcSettled c) s (adcSettled c s) := by
  refine congrArg Host.Outcome.next ((if_pos h).trans ?_)
  simp only [adcSettled] at he
  simp only [he, adcSettled]

end

/-! ### Loss of signal -/

/-- The lane meters after a window: its clipped samples are counted (R133), the blind estimator has run (R138), each lane shows its RMS (R149). -/
def lanesMetered (c : Carrier) (r0 r1 r2 r3 : BitVec 16) (clips : Nat) (iq : RxIq) (s : State) : State :=
  let meter := fun (n : Nat) (r : BitVec 16) (t : State) => t.setFld (R.RXF_LANE_RMS c n) F.RXF_LANE_RMS_rms r.toNat
  meter 3 r3 (meter 2 r2 (meter 1 r1 (meter 0 r0 ((s.rxClips c clips).iqWindow c iq))))

/-- The sum of the lanes' squares: four times the square of the combined RMS (notes/assumptions/28). -/
def laneSquares (r0 r1 r2 r3 : BitVec 16) : Nat := r0.toNat ^ 2 + r1.toNat ^ 2 + r2.toNat ^ 2 + r3.toNat ^ 2

/-- How many windows in a row lie below the threshold of LOS, this one among them. -/
def lowWindows (c : Carrier) (sum : Nat) (met : State) : Nat :=
  let thr := met.fld (R.RXF_LOS_CFG c) F.RXF_LOS_CFG_los_thr
  if sum < 4 * (256 * thr) ^ 2 then (met.rx c).below + 1 else 0

/-- How many windows in a row reach the threshold at which LOS ends, this one among them. -/
def highWindows (c : Carrier) (sum : Nat) (met : State) : Nat :=
  let clr := met.fld (R.RXF_LOS_CFG c) F.RXF_LOS_CFG_los_thr + met.fld (R.RXF_LOS_CFG c) F.RXF_LOS_CFG_hyst
  if 4 * (256 * clr) ^ 2 ≤ sum then (met.rx c).above + 1 else 0

section
variable {c : Carrier} {s : State} {r0 r1 r2 r3 : BitVec 16} {clips : Nat} {iq : RxIq}

theorem rxLosWindowEnd_off (h : s.fld (R.RXF_STATE c) F.RXF_STATE_state = 0) : Does (.rxLosWindowEnd c r0 r1 r2 r3 clips iq) s s := if_pos h

variable (h : s.fld (R.RXF_STATE c) F.RXF_STATE_state ≠ 0)
include h

/-- Out of OFF the metered window is judged: under LOS for its end, else for its beginning (R149). -/
theorem rxLosWindowEnd_judges :
    let met := lanesMetered c r0 r1 r2 r3 clips iq s
    let sum := laneSquares r0 r1 r2 r3
    let above := highWindows c sum met
    let below := lowWindows c sum met
    exec (.rxLosWindowEnd c r0 r1 r2 r3 clips iq) s = if met.rxLos c then
        if 100 ≤ above then .next ((met.setRx c { met.rx c with above := 0, below := 0 }).losClear c)
        else .next (met.setRx c { met.rx c with above := above })
      else
        if 10 ≤ below then .next ((met.setRx c { met.rx c with above := 0, below := 0 }).losDeclare c)
        else .next (met.setRx c { met.rx c with below := below }) := by
  refine (if_neg h).trans ?_
  simp only [decide_eq_true_eq]
  rfl

section
variable (hl : (lanesMetered c r0 r1 r2 r3 clips iq s).rxLos c = false)
include hl

theorem rxLosWindowEnd_declares (hb : 10 ≤ lowWindows c (laneSquares r0 r1 r2 r3) (lanesMetered c r0 r1 r2 r3 clips iq s)) :
    let met := lanesMetered c r0 r1 r2 r3 clips iq s
    Does (.rxLosWindowEnd c r0 r1 r2 r3 clips iq) s ((met.setRx c { met.rx c with above := 0, below := 0 }).losDeclare c) :=
  (rxLosWindowEnd_judges h).trans ((if_neg (ne_true_of_eq_false hl)).trans (if_pos hb))

theorem rxLosWindowEnd_countsLow (hb : lowWindows c (laneSquares r0 r1 r2 r3) (lanesMetered c r0 r1 r2 r3 clips iq s) < 10) :
    let met := lanesMetered c r0 r1 r2 r3 clips iq s
    Does (.rxLosWindowEnd c r0 r1 r2 r3 clips iq) s (met.setRx c { met.rx c with below := lowWindows c (laneSquares r0 r1 r2 r3) met }) :=
  (rxLosWindowEnd_judges h).trans ((if_neg (ne_true_of_eq_false hl)).trans (if_neg (Nat.not_le.mpr hb)))

end

section
variable (hl : (lanesMetered c r0 r1 r2 r3 clips iq s).rxLos c = true)
include hl

theorem rxLosWindowEnd_clears (ha : 100 ≤ highWindows c (laneSquares r0 r1 r2 r3) (lanesMetered c r0 r1 r2 r3 clips iq s)) :
    let met := lanesMetered c r0 r1 r2 r3 clips iq s
    Does (.rxLosWindowEnd c r0 r1 r2 r3 clips iq) s ((met.setRx c { met.rx c with above := 0, below := 0 }).losClear c) :=
  (rxLosWindowEnd_judges h).trans ((if_pos hl).trans (if_pos ha))

theorem rxLosWindowEnd_countsHigh (ha : highWindows c (laneSquares r0 r1 r2 r3) (lanesMetered c r0 r1 r2 r3 clips iq s) < 100) :
    let met := lanesMetered c r0 r1 r2 r3 clips iq s
    Does (.rxLosWindowEnd c r0 r1 r2 r3 clips iq) s (met.setRx c { met.rx c with above := highWindows c (laneSquares r0 r1 r2 r3) met }) :=
  (rxLosWindowEnd_judges h).trans ((if_pos hl).trans (if_neg (Nat.not_le.mpr ha)))

end

end

/-! ### The fine scan -/

/-- A fine scan is under way, and LOS has not stopped it (R142, R150). -/
def Scanning (c : Carrier) (s : State) : Prop :=
  s.fld (R.RXF_STATE c) F.RXF_STATE_state = 3 ∧ s.rxAcq c = 1 ∧ s.rxLos c = false

/-- The best step of pass 1, by its number. -/
def scanPass1 (c : Carrier) (k1 : Nat) (s : State) : Int := cdStep (s.rx c).scanLo (s.rx c).scanHi (s.cdUnit c 50) k1

/-- The best step of pass 2, by its number, in the window about that of pass 1 (notes/assumptions/97). -/
def scanPass2 (c : Carrier) (k1 k2 : Nat) (s : State) : Int :=
  let m : Int := s.cdMax c
  let u : Int := s.cdUnit c 50
  cdStep (clampI (-m) m (scanPass1 c k1 s - u)) (clampI (-m) m (scanPass1 c k1 s + u)) (s.cdUnit c 1) k2

section
variable {c : Carrier} {s : State} {k1 k2 : Nat}

theorem cdScanComplete_idle (h : ¬ Scanning c s) : Does (.cdScanComplete c k1 k2) s s := if_neg h

/-- The scan's result becomes cd_est, timing recovery begins, and a best step at the range's end is marked (R142). -/
theorem cdScanComplete_estimates (h : Scanning c s) :
    let m : Int := s.cdMax c
    let b1 := scanPass1 c k1 s
    let b2 := scanPass2 c k1 k2 s
    let scanned := (s.setFldS (R.RXF_CD_STATUS c) F.RXF_CD_STATUS_cd_est b2).setAcq c 2
    Does (.cdScanComplete c k1 k2) s
      (if b1 = m ∨ b1 = -m ∨ b2 = m ∨ b2 = -m then scanned.setFlag (R.RXF_STATUS c) F.RXF_STATUS_cd_edge true else scanned) := if_pos h

end

/-! ### Timing recovery -/

/-- Timing recovery may declare its lock: it runs, LOS does not freeze it, and the offset lies within ±500 ppm (R144, R150). -/
def Lockable (c : Carrier) (off : BitVec 20) (s : State) : Prop :=
  s.fld (R.RXF_STATE c) F.RXF_STATE_state = 3 ∧ 2 ≤ s.rxAcq c ∧ s.rxLos c = false ∧ -500000 ≤ off.toInt ∧ off.toInt ≤ 500000

section
variable {c : Carrier} {s : State} {off : BitVec 20}

theorem trLockDeclared_idle (h : ¬ Lockable c off s) : Does (.trLockDeclared c off) s s := if_neg h

theorem trLockDeclared_locks (h : Lockable c off s) :
    let timed := (s.setFld (R.RXF_TR_STATUS c) F.RXF_TR_STATUS_offset off.toNat).setFlag (R.RXF_STATE c) F.RXF_STATE_tr_lock true
    Does (.trLockDeclared c off) s (if timed.rxAcq c = 2 then timed.setAcq c 3 else timed) := if_pos h

end

/-! ### The superframe search -/

/-- A candidate of the superframe search is a peak (R145). -/
def IsPeak (c : Carrier) (metric : Nat) (s : State) : Prop :=
  s.fld (R.RXF_STATE c) F.RXF_STATE_state = 3 ∧ s.rxAcq c = 3 ∧ s.rxLos c = false ∧ s.fld (R.RXF_SF_CFG c) F.RXF_SF_CFG_sf_thresh ≤ metric

/-- A peak is held, and this one lies a superframe after it, to within 2 symbols (R145). -/
def SecondPeak (c : Carrier) (spacing : Nat) (s : State) : Prop := (s.rx c).peak = true ∧ 524286 ≤ spacing ∧ spacing ≤ 524290

/-- The superframe is locked, and the acquisition's last step reached (R145, R151). -/
def sfLocked (c : Carrier) (s : State) : State :=
  let t := (s.setAcq c 4).setFlag (R.RXF_STATE c) F.RXF_STATE_sf_lock true
  t.setRx c { t.rx c with phase := 0 }

/-- The lock's event, with cd_est and the timing offset. -/
def sfLockLogged (c : Carrier) (s : State) : State :=
  s.logEvent (rxfId c) sevInfo 0x0003
    (evData [(2, s.fld (R.RXF_CD_STATUS c) F.RXF_CD_STATUS_cd_est), (4, unsigned 32 (s.fldS (R.RXF_TR_STATUS c) F.RXF_TR_STATUS_offset))])

section
variable {c : Carrier} {s : State} {metric spacing : Nat}

theorem isPeak_iff : IsPeak c metric s ↔ s.fld (R.RXF_STATE c) F.RXF_STATE_state = 3 ∧ s.rxAcq c = 3 ∧ s.rxLos c = false
    ∧ decide (s.fld (R.RXF_SF_CFG c) F.RXF_SF_CFG_sf_thresh ≤ metric) = true := by
  simp only [IsPeak, decide_eq_true_eq]

theorem secondPeak_iff : SecondPeak c spacing s ↔ (s.rx c).peak = true ∧ decide (524286 ≤ spacing ∧ spacing ≤ 524290) = true := by
  simp only [SecondPeak, decide_eq_true_eq]

theorem sfPeakDetected_idle (h : ¬ IsPeak c metric s) : Does (.sfPeakDetected c metric spacing) s s :=
  if_neg ((not_congr isPeak_iff).mp h)

variable (h : IsPeak c metric s)
include h

theorem sfPeakDetected_holds (hn : ¬ SecondPeak c spacing s) :
    Does (.sfPeakDetected c metric spacing) s (s.setRx c { s.rx c with peak := true }) :=
  (if_pos (isPeak_iff.mp h)).trans (if_neg ((not_congr secondPeak_iff).mp hn))

theorem sfPeakDetected_locks (hs : SecondPeak c spacing s) :
    let logged := sfLockLogged c (sfLocked c s)
    Does (.sfPeakDetected c metric spacing) s (if (logged.rx c).fault then logged else logged.rxStreamValid c) :=
  (if_pos (isPeak_iff.mp h)).trans (if_pos (secondPeak_iff.mp hs))

end

/-- The loss of the superframe lock is shown, counted and logged (R145). -/
def sfLossShown (c : Carrier) (s : State) : State :=
  (((s.setFlag (R.RXF_STATE c) F.RXF_STATE_sf_lock false).setFlag (R.RXF_STATUS c) F.RXF_STATUS_sf_loss true).addCnt (R.RXF_SF_LOSS_CNT c) 1).logEvent
    (rxfId c) sevWarn 0x0004 (evData [(4, 4)])

/-- With the lock the stream ends, and the first phase of a reacquisition begins (R151, R155). -/
def sfDropped (c : Carrier) (s : State) : State :=
  ((s.rxStreamInvalid c).setRx c { s.rx c with peak := false, phase := 1 }).anlMoved false c (s.fld (R.RXF_STATE c) F.RXF_STATE_state) false

section
variable {c : Carrier} {s : State}

theorem sfLockLost_idle (h : s.flag (R.RXF_STATE c) F.RXF_STATE_sf_lock = false) : Does (.sfLockLost c) s s := if_neg (ne_true_of_eq_false h)

theorem sfLockLost_drops (h : s.flag (R.RXF_STATE c) F.RXF_STATE_sf_lock = true) :
    let dropped := sfDropped c (sfLossShown c s)
    Does (.sfLockLost c) s (if dropped.flag (R.RXF_CTRL c) F.RXF_CTRL_auto_reacq then
        (dropped.rxTryNext c).setAcq c (if dropped.flag (R.RXF_STATE c) F.RXF_STATE_tr_lock then 3 else 2)
      else dropped.setAcq c 0) := if_pos h

end

/-! ### Reacquisition -/

/-- An acquisition runs without the superframe lock, and LOS has not stopped it (R151). -/
def Unlocked (c : Carrier) (s : State) : Prop :=
  s.fld (R.RXF_STATE c) F.RXF_STATE_state = 3 ∧ s.flag (R.RXF_STATE c) F.RXF_STATE_sf_lock = false ∧ s.rxLos c = false ∧ s.rxAcq c ≠ 0

theorem not_unlocked_iff {c : Carrier} {s : State} : ¬ Unlocked c s ↔
    s.fld (R.RXF_STATE c) F.RXF_STATE_state ≠ 3 ∨ s.flag (R.RXF_STATE c) F.RXF_STATE_sf_lock = true ∨ s.rxLos c = true ∨ s.rxAcq c = 0 := by
  simp only [Unlocked, Classical.not_and_iff_not_or_not, Bool.not_eq_false, ne_eq, Classical.not_not]

/-- The acquisition has failed: that is shown and logged with the step it had reached (R151). -/
def acqFailed (c : Carrier) (s : State) : State :=
  (s.setFlag (R.RXF_STATUS c) F.RXF_STATUS_acq_fail true).logEvent (rxfId c) sevWarn 0x0005 (evData [(1, s.rxAcq c)])

section
variable {c : Carrier} {s : State}

theorem reacqTimeout_notLate (h : ¬ Unlocked c s) : Does (.reacqTimeout c) s s := if_pos (not_unlocked_iff.mp h)

theorem reacqTimeout_noPhase (hp : (s.rx c).phase = 0) : Does (.reacqTimeout c) s s := by
  by_cases h : Unlocked c s
  · refine (if_neg (fun hn => not_unlocked_iff.mpr hn h)).trans ?_
    rw [hp]
    rfl
  · exact reacqTimeout_notLate h

variable (h : Unlocked c s)
include h

theorem reacqTimeout_scans (hp : (s.rx c).phase = 1) : Does (.reacqTimeout c) s
    ((s.setRx c { s.rx c with phase := 2, peak := false }).cdScan c (some (s.fldS (R.RXF_CD_STATUS c) F.RXF_CD_STATUS_cd_est))) := by
  refine (if_neg (fun hn => not_unlocked_iff.mpr hn h)).trans ?_
  rw [hp]
  rfl

theorem reacqTimeout_fails (hp : 2 ≤ (s.rx c).phase) :
    let again := (acqFailed c s).acqStart c
    Does (.reacqTimeout c) s (again.setRx c { again.rx c with phase := 1 }) := by
  obtain ⟨n, hphase⟩ := Nat.exists_eq_add_of_le' hp
  refine (if_neg (fun hn => not_unlocked_iff.mpr hn h)).trans ?_
  rw [hphase]
  rfl

end

/-- Settles O22: each event by the lemmas on the conditions it acts under and on its effect; the others have one case or one condition. -/
theorem receiveEvents : Obligations.ReceiveEvents := by
  unfold Obligations.ReceiveEvents
  intro c s e r0 r1 r2 r3 clips k1 k2 iq off metric spacing
  refine ⟨rxAdcSettled_idle, rxAdcSettled_enters, rxAdcSettled_noCommand, rxLosWindowEnd_off, rxLosWindowEnd_declares, rxLosWindowEnd_countsLow,
    rxLosWindowEnd_clears, rxLosWindowEnd_countsHigh, does_ite rfl, cdScanComplete_idle, cdScanComplete_estimates,
    trLockDeclared_idle, trLockDeclared_locks, rfl, rfl, sfPeakDetected_idle, sfPeakDetected_holds, sfPeakDetected_locks,
    sfLockLost_idle, sfLockLost_drops, fun h => h.elim reacqTimeout_notLate reacqTimeout_noPhase, reacqTimeout_scans, reacqTimeout_fails, rfl⟩

end Sys2Proof.Proofs

/-! PROOF. Receiving on the hail channel (R141, R150, R215 to R222). What of it is the model's choice or reading: notes/assumptions/3 and 4. -/
namespace Sys2Proof.Proofs
open Sys2Proof Sys2Proof.Machine Sys2Proof.Safety Sys2Proof.Laws

/-! ### Peaks -/

/-- The capture of a reception by a larger peak is counted: the reception was a false start (R218). -/
def receptionCaptured (c : Carrier) (s : State) : State :=
  ((s.hailFalseStart c).addCnt (R.HAIL_CAPTURE_CNT c) 1).setFlag (R.HAIL_STATUS c) F.HAIL_STATUS_capture true

/-- The peak p is larger than the candidate kept so far. -/
def beatsCandidate (r : HailRecv) (p : HailPeak) : Bool := r.cand.all (fun o => decide (o.metric < p.metric))

section
variable {c : Carrier} {s : State} {p : HailPeak} {r : HailRecv}

theorem hailPeak_starts (hr : (s.hail c).recv = none) : s.hailPeak c p = s.hailRecvStart c p := by
  rw [State.hailPeak, hr]

variable (hr : (s.hail c).recv = some r)
include hr

theorem hailPeak_afterHeader (hh : r.header.isSome) : s.hailPeak c p = s := by
  rw [State.hailPeak, hr]
  exact if_pos hh

variable (hh : r.header = none)
include hh

theorem hailPeak_captures (hm : 398 * r.metric ≤ 100 * p.metric) : s.hailPeak c p = (receptionCaptured c s).hailRecvStart c p := by
  rw [State.hailPeak, hr]
  exact (if_neg (Option.not_isSome_iff_eq_none.mpr hh)).trans (if_pos hm)

theorem hailPeak_weaker (hm : 100 * p.metric < 398 * r.metric) : s.hailPeak c p =
    if beatsCandidate r p then s.setHail c { s.hail c with recv := some { r with cand := some p } } else s := by
  rw [State.hailPeak, hr]
  exact (if_neg (Option.not_isSome_iff_eq_none.mpr hh)).trans (if_neg (Nat.not_le.mpr hm))

end

/-- A row judges the peak p against the reception r: ignored after its header, at 6 dB above its metric a capture, below that a candidate (R218). -/
def JudgesPeak (w : Instr) (c : Carrier) (s : State) (p : HailPeak) (r : HailRecv) : Prop :=
  ((s.hail c).recv = some r → r.header.isSome → Does w s s)
  ∧ ((s.hail c).recv = some r → r.header = none → 398 * r.metric ≤ 100 * p.metric → Does w s ((receptionCaptured c s).hailRecvStart c p))
  ∧ ((s.hail c).recv = some r → r.header = none → 100 * p.metric < 398 * r.metric → Does w s
      (if beatsCandidate r p then s.setHail c { s.hail c with recv := some { r with cand := some p } } else s))

theorem judgesPeak {w : Instr} {c : Carrier} {s : State} {p : HailPeak} {r : HailRecv}
    (h : (s.hail c).recv = some r → Does w s (s.hailPeak c p)) : JudgesPeak w c s p r :=
  ⟨fun hr hh => (h hr).trans (congrArg Host.Outcome.next (hailPeak_afterHeader hr hh)),
    fun hr hh hm => (h hr).trans (congrArg Host.Outcome.next (hailPeak_captures hr hh hm)),
    fun hr hh hm => (h hr).trans (congrArg Host.Outcome.next (hailPeak_weaker hr hh hm))⟩

/-! ### Detection and windows -/

/-- The peak of a detection in the continuous condition (R215): its offset is limited to ±5,000 MHz. -/
def detectedPeak (s : State) (metric : Nat) (off : BitVec 14) (gain : Byte) : HailPeak :=
  { metric, time := s.time.devtime, offset := clampI (-5000) 5000 off.toInt, gain }

section
variable {c : Carrier} {s : State} {metric : Nat} {off : BitVec 14} {gain : Byte}

theorem hailDetection_idle (h : s.hailListens c 1 = false ∨ metric < s.fld (R.HAIL_CFG c) F.HAIL_CFG_corr_thr) :
    Does (.hailDetection c metric off gain) s s := congrArg Host.Outcome.next (if_pos h)

theorem hailDetection_peak (hl : s.hailListens c 1 = true) (hm : s.fld (R.HAIL_CFG c) F.HAIL_CFG_corr_thr ≤ metric) :
    Does (.hailDetection c metric off gain) s (s.hailPeak c (detectedPeak s metric off gain)) :=
  congrArg Host.Outcome.next (if_neg (not_or_intro (ne_false_of_eq_true hl) (Nat.not_lt.mpr hm)))

end

section
variable {c : Carrier} {s : State} {energy metric : Nat} {gain : Byte} {r : HailRecv}

theorem hailWindowDetect_deaf (h : s.hailListens c 2 = false) : Does (.hailWindowDetect c energy metric gain) s s := if_pos h

variable (h : s.hailListens c 2 = true)
include h

theorem hailWindowDetect_free (hr : (s.hail c).recv = none) : Does (.hailWindowDetect c energy metric gain) s
    (if s.fld (R.HAIL_CFG c) F.HAIL_CFG_win_thr ≤ energy then s.hailRecvStart c (s.hailWinPeak c metric gain) else s) := by
  refine (if_neg (ne_false_of_eq_true h)).trans ?_
  rw [hr]

theorem hailWindowDetect_receiving (hr : (s.hail c).recv = some r) : Does (.hailWindowDetect c energy metric gain) s
    (if s.fld (R.HAIL_CFG c) F.HAIL_CFG_corr_thr ≤ metric then s.hailPeak c (s.hailWinPeak c metric gain) else s) := by
  refine (if_neg (ne_false_of_eq_true h)).trans ?_
  rw [hr]

theorem hailWindowDetect_noPreamble (hr : (s.hail c).recv ≠ none) (hm : metric < s.fld (R.HAIL_CFG c) F.HAIL_CFG_corr_thr) :
    Does (.hailWindowDetect c energy metric gain) s s := by
  obtain ⟨r, hr⟩ := Option.ne_none_iff_exists'.mp hr
  have hw := hailWindowDetect_receiving (energy := energy) (metric := metric) (gain := gain) h hr
  rwa [if_neg (Nat.not_le.mpr hm)] at hw

theorem hailWindowDetect_peak (hm : s.fld (R.HAIL_CFG c) F.HAIL_CFG_corr_thr ≤ metric) (hr : (s.hail c).recv = some r) :
    Does (.hailWindowDetect c energy metric gain) s (s.hailPeak c (s.hailWinPeak c metric gain)) := by
  have hw := hailWindowDetect_receiving (energy := energy) (metric := metric) (gain := gain) h hr
  rwa [if_pos hm] at hw

end

/-! ### Headers -/

/-- The lock metric of a reception whose header has passed is shown, limited to 255. -/
def metricShown (c : Carrier) (r : HailRecv) (s : State) : State :=
  s.setFld (R.HAIL_RX_STATUS c) F.HAIL_RX_STATUS_lock_metric (min 255 r.metric)

/-- The first header pass after a loss of hail, or since the continuous condition was entered, is logged (R221). -/
def firstPassLogged (c : Carrier) (r : HailRecv) (s : State) : State :=
  if (s.hail c).firstDue then
    s.logEvent (hailId c) sevInfo 0x0001
      (evData [(2, unsigned 16 (s.fldS (R.HAIL_RX_STATUS c) F.HAIL_RX_STATUS_offset)), (1, min 255 r.metric)])
  else s

/-- The time of a header pass is kept, for the loss of hail (R221). -/
def passTimed (c : Carrier) (s : State) : State :=
  s.setHail c { s.hail c with lastPass := some s.time.devtime, firstDue := false }

/-- What a passed header does before its fields are judged: its metric is shown; in the continuous condition it also stops the dispersion search (R141) and
ends a loss of hail (R221). -/
def headerPassed (c : Carrier) (r : HailRecv) (s : State) : State :=
  let met := metricShown c r s
  if met.hailRxNow c = 1 then passTimed c (firstPassLogged c r (met.hailCdFound c)) else met

/-- The same in the order of the row: each part asks for the continuous condition by itself. -/
def headerTaken (c : Carrier) (r : HailRecv) (s : State) : State :=
  let met := metricShown c r s
  let cont := met.hailRxNow c == 1
  let found := if cont then met.hailCdFound c else met
  let logged := if cont && (found.hail c).firstDue then
      found.logEvent (hailId c) sevInfo 0x0001
        (evData [(2, unsigned 16 (found.fldS (R.HAIL_RX_STATUS c) F.HAIL_RX_STATUS_offset)), (1, min 255 r.metric)])
    else found
  if cont then passTimed c logged else logged

theorem headerTaken_eq {c : Carrier} {r : HailRecv} {s : State} : headerTaken c r s = headerPassed c r s := by
  unfold headerTaken headerPassed firstPassLogged
  by_cases cont : (metricShown c r s).hailRxNow c = 1
  · simp only [cont, beq_self_eq_true, Bool.true_and, if_true]
  · simp only [cont, beq_eq_false_iff_ne.mpr cont, Bool.false_and, Bool.false_eq_true, if_false]

/-- A header that the receiver cannot follow (R219). -/
def HeaderInvalid (hdr : W64) : Prop := hdrVersion hdr ≠ 1 ∨ 2048 < hdrLength hdr ∨ hdrFragLast hdr < hdrFragIdx hdr

/-- The judgement of a passed header's fields: invalid, an empty burst, or one whose payload follows (R219, R222). -/
def headerJudged (c : Carrier) (hdr : W64) (r : HailRecv) (s : State) : Out :=
  if hdrVersion hdr ≠ 1 ∨ 2048 < hdrLength hdr ∨ hdrFragLast hdr < hdrFragIdx hdr then
    .next ((s.hailAbandon c).setFlag (R.HAIL_STATUS c) F.HAIL_STATUS_hdr_invalid true)
  else if hdrLength hdr = 0 then .next ((s.hailAbandon c).hailDeliver c { header := hdr, time := r.time, payload := [] })
  else .next ((s.setHail c { s.hail c with recv := some { r with header := some hdr, cand := none } }).setFld (R.HAIL_STATE c)
    F.HAIL_STATE_rx_state 2)

section
variable {c : Carrier} {s : State} {hdr : W64} {r : HailRecv} {o : HailPeak}

theorem hailHeaderDecoded_noReception (hr : (s.hail c).recv = none) : Does (.hailHeaderDecoded c hdr) s s := by
  change execHailHeaderDecoded c hdr s = _
  rw [execHailHeaderDecoded, hr]

variable (hr : (s.hail c).recv = some r)
include hr

theorem hailHeaderDecoded_again (hh : r.header.isSome) : Does (.hailHeaderDecoded c hdr) s s := by
  change execHailHeaderDecoded c hdr s = _
  rw [execHailHeaderDecoded, hr]
  exact if_pos hh

variable (hh : r.header = none)
include hh

section
variable (hc : hdrCrcOk hdr = false)
include hc

theorem hailHeaderDecoded_searches (ho : r.cand = none) : Does (.hailHeaderDecoded c hdr) s ((s.hailFalseStart c).hailAbandon c) := by
  change execHailHeaderDecoded c hdr s = _
  rw [execHailHeaderDecoded, hr]
  refine (if_neg (Option.not_isSome_iff_eq_none.mpr hh)).trans ((if_pos hc).trans ?_)
  rw [ho]

theorem hailHeaderDecoded_restarts (ho : r.cand = some o) : Does (.hailHeaderDecoded c hdr) s ((s.hailFalseStart c).hailRecvStart c o) := by
  change execHailHeaderDecoded c hdr s = _
  rw [execHailHeaderDecoded, hr]
  refine (if_neg (Option.not_isSome_iff_eq_none.mpr hh)).trans ((if_pos hc).trans ?_)
  rw [ho]

end

variable (hc : hdrCrcOk hdr = true)
include hc

theorem hailHeaderDecoded_passes : exec (.hailHeaderDecoded c hdr) s = headerJudged c hdr r (headerPassed c r s) := by
  change execHailHeaderDecoded c hdr s = _
  rw [execHailHeaderDecoded, hr, ← headerTaken_eq]
  exact (if_neg (Option.not_isSome_iff_eq_none.mpr hh)).trans (if_neg (ne_false_of_eq_true hc))

theorem hailHeaderDecoded_invalid (hi : HeaderInvalid hdr) : Does (.hailHeaderDecoded c hdr) s
    (((headerPassed c r s).hailAbandon c).setFlag (R.HAIL_STATUS c) F.HAIL_STATUS_hdr_invalid true) :=
  (hailHeaderDecoded_passes hr hh hc).trans (if_pos hi)

variable (hi : ¬ HeaderInvalid hdr)
include hi

theorem hailHeaderDecoded_empty (hl : hdrLength hdr = 0) : Does (.hailHeaderDecoded c hdr) s
    (((headerPassed c r s).hailAbandon c).hailDeliver c { header := hdr, time := r.time, payload := [] }) :=
  (hailHeaderDecoded_passes hr hh hc).trans ((if_neg hi).trans (if_pos hl))

theorem hailHeaderDecoded_payloadFollows (hl : hdrLength hdr ≠ 0) :
    let passed := headerPassed c r s
    Does (.hailHeaderDecoded c hdr) s ((passed.setHail c { passed.hail c with recv := some { r with header := some hdr, cand := none } }).setFld
      (R.HAIL_STATE c) F.HAIL_STATE_rx_state 2) :=
  (hailHeaderDecoded_passes hr hh hc).trans ((if_neg hi).trans (if_neg hl))

end

/-! ### Payloads -/

section
variable {c : Carrier} {s : State} {payload : List Byte} {crc : W32} {r : HailRecv} {h : W64}

theorem hailBurstReceived_noReception (hr : (s.hail c).recv = none) : Does (.hailBurstReceived c payload crc) s s := by
  change execHailBurstReceived c payload crc s = _
  rw [execHailBurstReceived, hr]

variable (hr : (s.hail c).recv = some r)
include hr

theorem hailBurstReceived_noHeader (hh : r.header = none) : Does (.hailBurstReceived c payload crc) s s := by
  change execHailBurstReceived c payload crc s = _
  simp only [execHailBurstReceived, hr, hh]

variable (hh : r.header = some h)
include hh

/-- During a reception whose header has passed, the payload's length is judged first, then its CRC-32 (R219). -/
theorem hailBurstReceived_judges : exec (.hailBurstReceived c payload crc) s =
    if payload.length ≠ hdrLength h then .next s
    else if crc32 payload = crc then .next ((s.hailAbandon c).hailDeliver c { header := h, time := r.time, payload })
    else .next (((s.hailAbandon c).addCnt (R.HAIL_CRC32_FAIL_CNT c) 1).setFlag (R.HAIL_STATUS c) F.HAIL_STATUS_crc32_fail true) := by
  change execHailBurstReceived c payload crc s = _
  simp only [execHailBurstReceived, hr, hh]

theorem hailBurstReceived_wrongLength (hl : payload.length ≠ hdrLength h) : Does (.hailBurstReceived c payload crc) s s :=
  (hailBurstReceived_judges hr hh).trans (if_pos hl)

variable (hl : payload.length = hdrLength h)
include hl

theorem hailBurstReceived_delivers (hc : crc32 payload = crc) :
    Does (.hailBurstReceived c payload crc) s ((s.hailAbandon c).hailDeliver c { header := h, time := r.time, payload }) :=
  (hailBurstReceived_judges hr hh).trans ((if_neg (not_not_intro hl)).trans (if_pos hc))

theorem hailBurstReceived_fails (hc : crc32 payload ≠ crc) : Does (.hailBurstReceived c payload crc) s
    (((s.hailAbandon c).addCnt (R.HAIL_CRC32_FAIL_CNT c) 1).setFlag (R.HAIL_STATUS c) F.HAIL_STATUS_crc32_fail true) :=
  (hailBurstReceived_judges hr hh).trans ((if_neg (not_not_intro hl)).trans (if_neg hc))

end

/-! ### Loss of hail -/

/-- The loss of hail is shown, and the next header pass will be a first one (R221). -/
def hailLossNoted (c : Carrier) (s : State) : State :=
  let shown := s.setFlag (R.HAIL_STATUS c) F.HAIL_STATUS_hail_loss true
  shown.setHail c { shown.hail c with lastPass := none, firstDue := true }

theorem hailLossNoted_time (c : Carrier) (s : State) : (hailLossNoted c s).time = s.time := by
  simp only [hailLossNoted, State.setHail_time, State.setFlag_time]

/-- The loss is logged with the milliseconds since the last pass, which was at time t (R221). -/
def hailLossLogged (c : Carrier) (t : W64) (s : State) : State :=
  (hailLossNoted c s).logEvent (hailId c) sevWarn 0x0002 (evData [(4, (s.time.devtime - t).toNat / 10000000)])

section
variable {c : Carrier} {s : State} {t : W64}

theorem hailLoss_idle (h : (s.hail c).lastPass = none ∨ s.hailRxNow c ≠ 1) : Does (.hailLoss c) s s := by
  change execHailLoss c s = _
  unfold execHailLoss
  split
  next => rfl
  next t ht => exact if_pos (h.resolve_left (by simp [ht]))

theorem hailLoss_loses (ht : (s.hail c).lastPass = some t) (hc : s.hailRxNow c = 1) :
    let lost := hailLossLogged c t s
    Does (.hailLoss c) s (if lost.rxLos c then lost.setFlag (R.RXF_STATE c) F.RXF_STATE_hail_cd_found false else lost.hailNextHyp c) := by
  change execHailLoss c s = _
  rw [execHailLoss, ht, hailLossLogged, ← hailLossNoted_time c s]
  exact if_neg (not_not_intro hc)

end

/-- Settles O27: detections and windows by the lemmas on when the row judges a peak and on the judgement; headers and payloads by the lemmas on their cases;
a lost reception and a loss of hail by their conditions. -/
theorem hailReceivingRows : Obligations.HailReceivingRows := by
  unfold Obligations.HailReceivingRows
  intro c s metric energy off gain hdr h r payload crc t o
  refine ⟨hailDetection_idle, fun hl hm => ⟨fun hr => ?_, judgesPeak fun _ => hailDetection_peak hl hm⟩, hailWindowDetect_deaf,
    hailWindowDetect_free, hailWindowDetect_noPreamble, fun hl hm => judgesPeak fun hr => hailWindowDetect_peak hl hm hr,
    hailHeaderDecoded_noReception, hailHeaderDecoded_again, hailHeaderDecoded_searches, hailHeaderDecoded_restarts,
    fun hr hh hc => ⟨hailHeaderDecoded_invalid hr hh hc, hailHeaderDecoded_empty hr hh hc, hailHeaderDecoded_payloadFollows hr hh hc⟩,
    hailBurstReceived_noReception, hailBurstReceived_noHeader, hailBurstReceived_wrongLength, hailBurstReceived_delivers,
    hailBurstReceived_fails, does_ite rfl, hailLoss_idle, hailLoss_loses⟩
  exact (hailDetection_peak hl hm).trans (congrArg Host.Outcome.next (hailPeak_starts hr))

end Sys2Proof.Proofs

/-! PROOF. The commands and events of the equaliser (R155, R158, R160, R161, R165, R166, R169, R177, R178). Results that the table does not give are 0
(notes/assumptions/25); what else of it is the model's choice or reading: notes/assumptions/3, 27 and 93. -/
namespace Sys2Proof.Proofs
open Sys2Proof Sys2Proof.Machine Sys2Proof.Safety Sys2Proof.Laws

/-! ### Retests -/

/-- A retest of one of nine spared units (Tables EQC-4, FEC-7): it starts on a unit that is neither in use nor under test, and count shows the spares. -/
def retestStart (map : Nat) (count : State → State) (d : Desc) (s : State) : Option (Nat × Nat × Nat) × State :=
  if 9 ≤ d.unit then (some (0x02, 0, 0), s)
  else if s.roleAt map d.unit = 0 ∨ s.roleAt map d.unit = 3 then (some (0x06, 0, 0), s)
  else (none, count (s.setRole map d.unit 3))

section
variable {w : Instr} {q : Fin 64} {op map : Nat} {count : State → State} {s u : State} {e : QEntry}
  (hw : exec w s = .next (s.runCommand q op (retestStart map count))) (h : Started q op s e u)
include hw h

theorem retest_noSuchUnit (hu : 9 ≤ e.desc.unit) : Finishes w s u e 0x02 0 0 :=
  hw.trans (congrArg Host.Outcome.next (runCommand_ends h (if_pos hu)))

variable (hu : e.desc.unit < 9)
include hu

theorem retest_busy (hr : u.roleAt map e.desc.unit = 0 ∨ u.roleAt map e.desc.unit = 3) : Finishes w s u e 0x06 0 0 :=
  hw.trans (congrArg Host.Outcome.next (runCommand_ends h ((if_neg (Nat.not_le.mpr hu)).trans (if_pos hr))))

theorem retest_goesOn (h0 : u.roleAt map e.desc.unit ≠ 0) (h3 : u.roleAt map e.desc.unit ≠ 3) :
    GoesOn w s (count (u.setRole map e.desc.unit 3)) q :=
  hw.trans (congrArg Host.Outcome.next (runCommand_goes_on h ((if_neg (Nat.not_le.mpr hu)).trans (if_neg (not_or_intro h0 h3)))))

end

/-! ### EQ_TAP_UPDATE -/

/-- The tracker steps unless the input is invalid, and the taps with it unless they are held (R155, R158, R161). -/
theorem eqTapUpdate_steps {c : Carrier} {grad : List Int} {sop : List Angles} {s : State} :
    let st := s.fld (R.EQZ_STATE c) F.EQZ_STATE_eq_state
    let tracked := s.sopUpdate c sop
    let y := tracked.eq c
    Does (.eqTapUpdate c grad sop) s (if st = 0 then s else if st = 3 then tracked
      else tracked.setEq c { y with taps := tapStep (tracked.fld (R.EQZ_CTRL c) F.EQZ_CTRL_mu_eq) y.ntaps y.taps grad, updates := y.updates + 1 }) :=
  rfl

/-! ### EQ_HOLD -/

/-- The program's word on holding the taps is kept (R161). -/
def eqHeld (c : Carrier) (d : Desc) (u : State) : State := u.setEq c { u.eq c with held := d.arg0 % 2 == 1 }

section
variable {c : Carrier} {s u : State} {e : QEntry} (h : Started (eqzQ c) 0x100 s e u)
include h

theorem eqHold_unit (hu : e.desc.unit ≠ 0xFF) : Finishes (.eqHold c) s u e 0x02 0 0 :=
  congrArg Host.Outcome.next (runCommand_ends h (if_pos hu))

variable (hu : e.desc.unit = 0xFF)
include hu

theorem eqHold_noInput (hv : (eqHeld c e.desc u).rxValid c = false) : Finishes (.eqHold c) s (eqHeld c e.desc u) e 0 0 0 :=
  congrArg Host.Outcome.next (runCommand_ends h ((if_neg (not_not_intro hu)).trans
    (congrArg (Prod.mk (some (0, 0, 0))) (if_neg (ne_true_of_eq_false hv)))))

theorem eqHold_shows (hv : (eqHeld c e.desc u).rxValid c = true) :
    let held := eqHeld c e.desc u
    Finishes (.eqHold c) s (held.setFld (R.EQZ_STATE c) F.EQZ_STATE_eq_state (if e.desc.arg0 % 2 == 1 then 3
      else if held.flag (R.EQZ_CTRL c) F.EQZ_CTRL_dd_en ∧ held.crState c = 3 then 2 else 1)) e 0 0 0 :=
  congrArg Host.Outcome.next (runCommand_ends h ((if_neg (not_not_intro hu)).trans (congrArg (Prod.mk (some (0, 0, 0))) (if_pos hv))))

end

/-! ### EQ_RECONVERGE -/

section
variable {c : Carrier} {s u : State} {e : QEntry} (h : Started (eqzQ c) 0x101 s e u)
include h

theorem eqReconverge_unit (hu : e.desc.unit ≠ 0xFF) : Finishes (.eqReconverge c) s u e 0x02 0 0 :=
  congrArg Host.Outcome.next (runCommand_ends h (if_pos hu))

variable (hu : e.desc.unit = 0xFF)
include hu

theorem eqReconverge_noInput (hv : u.rxValid c = false) : Finishes (.eqReconverge c) s u e 0x06 0 0 :=
  congrArg Host.Outcome.next (runCommand_ends h ((if_neg (not_not_intro hu)).trans (if_neg (ne_true_of_eq_false hv))))

theorem eqReconverge_awaitsSuperframe (hv : u.rxValid c = true) : GoesOn (.eqReconverge c) s u (eqzQ c) :=
  congrArg Host.Outcome.next (runCommand_goes_on h ((if_neg (not_not_intro hu)).trans (if_pos hv)))

end

/-! ### EQ_READ_TAPS -/

section
variable {c : Carrier} {s u : State} {e : QEntry} (h : Started (eqzQ c) 0x102 s e u)
include h

theorem eqReadTaps_malformed (hm : e.desc.unit ≠ 0xFF ∨ bufferOk e.desc.arg0 768 = false) : Finishes (.eqReadTaps c) s u e 0x02 0 0 :=
  congrArg Host.Outcome.next (runCommand_ends h (if_pos hm))

theorem eqReadTaps_stores (hu : e.desc.unit = 0xFF) (hb : bufferOk e.desc.arg0 768 = true) : Finishes (.eqReadTaps c) s
    (u.setBytes e.desc.arg0 ((u.eq c).taps.flatMap (fun w => leBytes 2 w.toNat))) e 0 (u.cnt (R.RXF_SF_CNT c)) 0 :=
  congrArg Host.Outcome.next (runCommand_ends h (if_neg (not_or_intro (not_not_intro hu) (ne_false_of_eq_true hb))))

end

/-! ### Shadow copies -/

section
variable {c : Carrier} {s : State} {copy : List W16 × Nat}

theorem eqzShadowCopyComplete_idle (h : (s.eq c).copy = none) : Does (.eqzShadowCopyComplete c) s s := by
  change execEqzShadowCopyComplete c s = _
  rw [execEqzShadowCopyComplete, h]

theorem eqzShadowCopyComplete_renews (h : (s.eq c).copy = some copy) :
    let shadowed := s.setEq c { s.eq c with shadow := some copy, copy := none }
    Does (.eqzShadowCopyComplete c) s ((shadowed.setFld (R.EQZ_SHADOW_STATUS c) F.EQZ_SHADOW_STATUS_shadow_age 0).setFlag (R.EQZ_SHADOW_STATUS c)
      F.EQZ_SHADOW_STATUS_shadow_valid true) := by
  change execEqzShadowCopyComplete c s = _
  rw [execEqzShadowCopyComplete, h]

end

/-! ### Failures of slices -/

/-- The declaration of a failed slice holds (R155, R166, R168): the stream is valid, the slice has not failed before, and an excess error is that of a slice in
use in state 3 of CRR. -/
def SliceFails (c : Carrier) (slice : Fin 9) (cause : Fin 3) (errs : List Nat) (s : State) : Prop :=
  let map := R.EQZ_SLICE_MAP c
  s.rxValid c = true ∧ s.roleAt map slice.val ≠ 2 ∧ (cause.val ≠ 2 ∨ (s.crState c = 3 ∧ s.roleAt map slice.val = 0
    ∧ sliceExcess (s.fld (R.EQZ_CTRL c) F.EQZ_CTRL_slice_thr) (errs.getD slice.val 0) (s.sliceErrs c errs) = true))

/-- The failure is shown and logged (R166). -/
def sliceFailed (c : Carrier) (slice : Fin 9) (cause : Fin 3) (s : State) : State :=
  (((s.setRole (R.EQZ_SLICE_MAP c) slice.val 2).eqCount c).setFlag (R.EQZ_STATUS c) F.EQZ_STATUS_slice_fault true).logEvent (eqzId c) sevFault 0x0001
    (evData [(1, slice.val), (1, cause.val)])

section
variable {c : Carrier} {s : State} {slice : Fin 9} {cause : Fin 3} {errs : List Nat}

theorem sliceFails_iff : s.sliceFails c slice.val cause.val errs = true ↔ SliceFails c slice cause errs s := by
  simp only [State.sliceFails, SliceFails, Bool.and_eq_true, Bool.or_eq_true, bne_iff_ne, beq_iff_eq, and_assoc]

theorem sliceFailureDeclared_idle (h : ¬ SliceFails c slice cause errs s) : Does (.sliceFailureDeclared c slice cause errs) s s :=
  if_pos (Bool.eq_false_iff.mpr ((not_congr sliceFails_iff).mpr h))

variable (h : SliceFails c slice cause errs s)
include h

theorem sliceFailureDeclared_unused (hr : s.roleAt (R.EQZ_SLICE_MAP c) slice.val ≠ 0) :
    Does (.sliceFailureDeclared c slice cause errs) s (sliceFailed c slice cause s) :=
  (if_neg (ne_false_of_eq_true (sliceFails_iff.mpr h))).trans (congrArg Host.Outcome.next (if_neg hr))

/-- A slice in use waits for its replacement, and the carrier is erased until then (R166). -/
theorem sliceFailureDeclared_inUse (hr : s.roleAt (R.EQZ_SLICE_MAP c) slice.val = 0) :
    let failed := sliceFailed c slice cause s
    Does (.sliceFailureDeclared c slice cause errs) s
      ((failed.setEq c { failed.eq c with pendFail := (failed.eq c).pendFail ++ [slice.val] }).setFlag (R.CRR_STATE c) F.CRR_STATE_llr_valid false) :=
  (if_neg (ne_false_of_eq_true (sliceFails_iff.mpr h))).trans (congrArg Host.Outcome.next (if_pos hr))

end

/-! ### SLICE_SWAP -/

/-- The taps that the equaliser goes on with after a swap that left the slices in rest unreplaced: the shadow taps, if any slice was replaced (R166). -/
def tapsAfterSwap (c : Carrier) (due : Nat) (rest : List Nat) (s : State) : List W16 :=
  if rest.length < due then tapsWithin (s.eq c).ntaps (((s.eq c).shadow.map (·.1)).getD (s.eq c).taps) else (s.eq c).taps

/-- The failed slices have been replaced where a slice was idle (R166 to R168). -/
def slicesSwapped (c : Carrier) (s : State) : State :=
  let swap := s.swapSlices c (s.eq c).pendFail
  swap.2.setEq c { swap.2.eq c with pendFail := swap.1, taps := tapsAfterSwap c (s.eq c).pendFail.length swap.1 swap.2 }

section
variable {c : Carrier} {s : State}

theorem sliceSwap_idle (h : (s.eq c).pendFail = []) : Does (.sliceSwap c) s s := by
  change execSliceSwap c s = _
  rw [execSliceSwap, h]

theorem sliceSwap_swaps (h : (s.eq c).pendFail ≠ []) :
    let swapped := slicesSwapped c s
    Does (.sliceSwap c) s (if (s.swapSlices c (s.eq c).pendFail).1.isEmpty ∧ swapped.rxValid c ∧ swapped.crState c = 3 then swapped.crLeave c 2
      else swapped) := by
  obtain ⟨f, l, hl⟩ := List.exists_cons_of_ne_nil h
  change execSliceSwap c s = _
  rw [execSliceSwap, slicesSwapped, hl]
  rfl

end

/-! ### Faults of the common logic -/

theorem eqzCrrEngineFault_eqz {c : Carrier} {s : State} :
    let erased := s.setFlag (R.CRR_STATE c) F.CRR_STATE_llr_valid false
    Does (.eqzCrrEngineFault c false) s
      (((erased.setFlag (R.EQZ_STATUS c) F.EQZ_STATUS_engine_fault true).setEq c { erased.eq c with restartDue := true }).logFault (eqzId c) 0x0006 []) :=
  congrArg Host.Outcome.next (if_neg Bool.false_ne_true)

theorem eqzCrrEngineFault_crr {c : Carrier} {s : State} :
    let erased := s.setFlag (R.CRR_STATE c) F.CRR_STATE_llr_valid false
    Does (.eqzCrrEngineFault c true) s
      (((erased.setFlag (R.CRR_STATUS c) F.CRR_STATUS_engine_fault true).setCr c { erased.cr c with restartDue := true }).logFault (crrId c) 0x0005 []) :=
  congrArg Host.Outcome.next (if_pos rfl)

/-- Settles O23: each command by the lemmas on its refusals, in their order, and on its effect; each event by the conditions it acts under. -/
theorem equaliserRows : Obligations.EqualiserRows := by
  unfold Obligations.EqualiserRows
  intro c s u e grad sop errs slice cause copy d a st hold held map
  exact ⟨eqTapUpdate_steps, fun h => ⟨eqHold_unit h, eqHold_noInput h, eqHold_shows h⟩,
    fun h => ⟨eqReconverge_unit h, eqReconverge_noInput h, eqReconverge_awaitsSuperframe h⟩,
    fun h => ⟨eqReadTaps_malformed h, eqReadTaps_stores h⟩,
    fun h => ⟨retest_noSuchUnit rfl h, retest_busy rfl h, retest_goesOn (count := State.eqCount c) rfl h⟩,
    eqzShadowCopyComplete_idle, eqzShadowCopyComplete_renews,
    sliceFailureDeclared_idle, sliceFailureDeclared_unused, sliceFailureDeclared_inUse, sliceSwap_idle, sliceSwap_swaps,
    eqzCrrEngineFault_eqz, eqzCrrEngineFault_crr⟩

end Sys2Proof.Proofs

/-! PROOF. The commands and events of FEC (R155, R188, R189, R190, R191, R195, R197, R198, R203). Results that the table does not give are 0
(notes/assumptions/25); what else of it is the model's choice or reading: notes/assumptions/3, 13, 26, 96 and 99. -/
namespace Sys2Proof.Proofs
open Sys2Proof Sys2Proof.Machine Sys2Proof.Safety Sys2Proof.Laws

/-! ### The candidate of block lock -/

/-- Candidate k is the one to lock at: F ≥ 0.510, and 0.005 more than that of every other (R188). -/
def IsLockCand (l : List CheckFrac) (k : Nat) (f : CheckFrac) : Prop :=
  l[k]? = some f ∧ 0 < f.2 ∧ 510 * f.2 ≤ f.1 * 1000
    ∧ ∀ (j : Nat) (g : CheckFrac), l[j]? = some g → j ≠ k → 5 * f.2 * g.2 + 1000 * g.1 * f.2 ≤ 1000 * f.1 * g.2

/-- The test of lockCand on one candidate. -/
def lockTest (l : List (Nat × CheckFrac)) (p : Nat × CheckFrac) : Bool :=
  decide (0 < p.2.2) && !p.2.below 510 && l.all (fun q => q.1 == p.1 || p.2.leads 5 q.2)

section
variable {l : List CheckFrac} {k : Nat} {f : CheckFrac}

theorem lockCand_eq_find : lockCand l = ((List.range l.length).zip l).find? (lockTest ((List.range l.length).zip l)) := rfl

theorem mem_range_zip_iff : (k, f) ∈ (List.range l.length).zip l ↔ l[k]? = some f := by
  rw [List.mem_iff_getElem?]
  constructor
  · rintro ⟨i, hi⟩
    obtain ⟨hr, hf⟩ := List.getElem?_zip_eq_some.mp hi
    obtain ⟨_, rfl⟩ := List.getElem?_eq_some_iff.mp hr
    rwa [List.getElem_range]
  · intro hf
    have hk : k < l.length := (List.getElem?_eq_some_iff.mp hf).1
    exact ⟨k, List.getElem?_zip_eq_some.mpr ⟨List.getElem?_range hk, hf⟩⟩

theorem lockTest_iff (hf : l[k]? = some f) : lockTest ((List.range l.length).zip l) (k, f) = true ↔ IsLockCand l k f := by
  simp only [lockTest, IsLockCand, CheckFrac.below, CheckFrac.leads, hf, true_and, and_assoc, Bool.and_eq_true, Bool.or_eq_true, Bool.not_eq_true',
    decide_eq_true_eq, decide_eq_false_iff_not, beq_iff_eq, Nat.not_lt, List.all_eq_true, Prod.forall, mem_range_zip_iff, Decidable.or_iff_not_imp_left, ne_eq]

theorem lockCand_some (h : lockCand l = some (k, f)) : IsLockCand l k f := by
  rw [lockCand_eq_find] at h
  exact (lockTest_iff (mem_range_zip_iff.mp (List.mem_of_find?_eq_some h))).mp (List.find?_some h)

theorem lockCand_none (h : lockCand l = none) : ¬ IsLockCand l k f := by
  rw [lockCand_eq_find] at h
  exact fun hb => List.find?_eq_none.mp h (k, f) (mem_range_zip_iff.mpr hb.1) ((lockTest_iff hb.1).mpr hb)

end

/-! ### FEC_BLOCK_LOCK_SEARCH -/

/-- The LLRs are valid, and the carrier is of family 0: a group of blocks can be judged (R155, R188). -/
def LockJudged (c : Carrier) (s : State) : Prop := s.flag (R.CRR_STATE c) F.CRR_STATE_llr_valid = true ∧ s.carFamily c = 0

/-- The decoder has block lock. -/
def BlockLocked (c : Carrier) (s : State) : Prop := s.flag (R.FEC_STATE c) F.FEC_STATE_blk_lock = true

/-- The run of groups below 0.505 in lock, these ones among them (R188). -/
def lowGroupRun (c : Carrier) (hard : List FecHard) (s : State) : Nat :=
  lowGroups (s.fec c).lowRun ((groupFracs (fecMp (s.carRate c)) (hard.headD [])).filter (fun f => decide (0 < f.2)))

/-- The candidate that the search finds, if any. -/
def searchCand (c : Carrier) (hard : List FecHard) (s : State) : Option (Nat × CheckFrac) :=
  lockCand ((hard.take (fecCands (s.carBase c))).map (candFrac (fecMp (s.carRate c))))

/-- Block lock at candidate k (R188). -/
def blockLockAt (c : Carrier) (k : Nat) (s : State) : State :=
  ((s.fecRestart c).setFlag (R.FEC_STATE c) F.FEC_STATE_blk_lock true).setFld (R.FEC_STATE c) F.FEC_STATE_lock_phase k

section
variable {c : Carrier} {s : State} {hard : List FecHard} {k : Nat} {f : CheckFrac}

theorem not_lockJudged_iff : ¬ LockJudged c s ↔ s.flag (R.CRR_STATE c) F.CRR_STATE_llr_valid = false ∨ s.carFamily c ≠ 0 := by
  rw [LockJudged, Classical.not_and_iff_not_or_not, Bool.not_eq_true]

theorem fecBlockLockSearch_unjudged (h : ¬ LockJudged c s) : Does (.fecBlockLockSearch c hard) s s := if_pos (not_lockJudged_iff.mp h)

variable (h : LockJudged c s)
include h

/-- In lock the groups are counted; out of it the candidates are compared. -/
theorem fecBlockLockSearch_judged : exec (.fecBlockLockSearch c hard) s =
    if s.flag (R.FEC_STATE c) F.FEC_STATE_blk_lock then
      .next (if 8 ≤ lowGroupRun c hard s then s.fecUnlock c else s.setFec c { s.fec c with lowRun := lowGroupRun c hard s })
    else match searchCand c hard s with
      | none => .next s
      | some (k, f) => .next (((blockLockAt c k s).setFrm c { (blockLockAt c k s).frm c with rxTry := none }).logEvent (fecId c) sevInfo 0x0004
          (evData [(1, k), (4, f.1 * 65536 / f.2)])) :=
  if_neg (fun hn => not_lockJudged_iff.mpr hn h)

section
variable (hl : BlockLocked c s)
include hl

theorem fecBlockLockSearch_loses (hr : 8 ≤ lowGroupRun c hard s) : Does (.fecBlockLockSearch c hard) s (s.fecUnlock c) :=
  (fecBlockLockSearch_judged h).trans ((if_pos hl).trans (congrArg Host.Outcome.next (if_pos hr)))

theorem fecBlockLockSearch_counts (hr : lowGroupRun c hard s < 8) :
    Does (.fecBlockLockSearch c hard) s (s.setFec c { s.fec c with lowRun := lowGroupRun c hard s }) :=
  (fecBlockLockSearch_judged h).trans ((if_pos hl).trans (congrArg Host.Outcome.next (if_neg (Nat.not_le.mpr hr))))

end

section
variable (hl : ¬ BlockLocked c s)
include hl

theorem fecBlockLockSearch_findsNone (hc : searchCand c hard s = none) : Does (.fecBlockLockSearch c hard) s s := by
  refine (fecBlockLockSearch_judged h).trans ((if_neg hl).trans ?_)
  rw [hc]

theorem fecBlockLockSearch_locks (hc : searchCand c hard s = some (k, f)) :
    let found := blockLockAt c k s
    Does (.fecBlockLockSearch c hard) s ((found.setFrm c { found.frm c with rxTry := none }).logEvent (fecId c) sevInfo 0x0004
      (evData [(1, k), (4, f.1 * 65536 / f.2)])) := by
  refine (fecBlockLockSearch_judged h).trans ((if_neg hl).trans ?_)
  rw [hc]

end

end

/-! ### Blocks that arrive -/

/-- The block boundary has applied the pending set (R54), and an entropy that waited for the block (R99, R192). -/
def blockBegun (c : Carrier) (s : State) : State := (s.applyBoundary .fecBlk c).fecEntropy c

/-- The chain that the arriving block goes to: the next in turn (R180). -/
def blockChain (c : Carrier) (s : State) : Fin 8 := Fin.ofNat 8 ((blockBegun c s).fec c).arrived

/-- The arriving block has been counted. -/
def blockCame (c : Carrier) (s : State) : State :=
  (blockBegun c s).setFec c { (blockBegun c s).fec c with arrived := ((blockBegun c s).fec c).arrived + 1 }

/-- The window of a chain now holds y, received with the entropy in use. -/
def chainPut (c : Carrier) (chain : Fin 8) (y : ChainDec) (s : State) : State :=
  s.setFec c { s.fec c with chains := (s.fec c).chains.set chain { y with h64 := (s.fec c).h64 } }

/-- The block in a chain's window, decoded as the block with the LLRs rows arrives, and the window after it (R190). -/
def chainRelease (c : Carrier) (chain : Fin 8) (rows : List (List Int)) (s : State) : BlockOut × ChainDec :=
  let x := (s.fec c).chains[chain]
  releaseBlock (s.carBase c) (s.carRate c) x.h64 (s.flag (R.FEC_CTRL c) F.FEC_CTRL_et_en) (s.fld (R.FEC_CTRL c) F.FEC_CTRL_iter_max) rows x

section
variable {c : Carrier} {chain : Fin 8} {s : State} {rows : List (List Int)}

theorem fecAdmit_fills (hx : ((s.fec c).chains[chain]).llr = []) :
    s.fecAdmit c chain rows = chainPut c chain (((s.fec c).chains[chain]).fill (s.carRate c) rows) s :=
  if_pos (List.isEmpty_iff.mpr hx)

variable (hx : ((s.fec c).chains[chain]).llr ≠ [])
include hx

theorem fecAdmit_loses (hd : s.chainLost c chain.val = true) : s.fecAdmit c chain rows =
    ((chainPut c chain (ChainDec.cold.fill (s.carRate c) rows) s).fecLost c chain).fecCaptureDue c chain.val ((s.fec c).chains[chain]).llr none :=
  (if_neg ((not_congr List.isEmpty_iff).mpr hx)).trans (if_pos hd)

theorem fecAdmit_decodes (hd : ¬ s.chainLost c chain.val = true) :
    let out := chainRelease c chain rows s
    s.fecAdmit c chain rows = ((chainPut c chain out.2 s).fecDecoded c chain out.1).fecCaptureDue c chain.val ((s.fec c).chains[chain]).llr
      (some out.1.slots.toArray) :=
  (if_neg ((not_congr List.isEmpty_iff).mpr hx)).trans (if_neg hd)

end

/-! ### Blocks of an agreement -/

/-- What an agreement's decoder makes of a block: bit 0 is an uncorrectable codeword, bits 1 to 5 the iterations, the parts above them the counts (R198). -/
def iopWord (c : Carrier) (syms : List (Cplx × Cplx)) (s : State) : Nat :=
  (Config.iopBlock (s.carFamily c) (s.fld (R.FEC_IOP_CFG c) F.FEC_IOP_CFG_iop_mode) syms).toNat

/-- Part k of the decoder's word: 20 bits. -/
def iopPart (c : Carrier) (syms : List (Cplx × Cplx)) (k : Nat) (s : State) : Nat := iopWord c syms s / 2 ^ (6 + 20 * k) % 2 ^ 20

/-- The iterations of an agreement's block are counted; those of CFEC (family 2) are not (R198). -/
def iopIterated (c : Carrier) (syms : List (Cplx × Cplx)) (s : State) : State :=
  if s.carFamily c = 2 then s else s.addCnt (R.FEC_ITER c (min 17 (iopWord c syms s / 2 % 32))) 1

section
variable {c : Carrier} {chain : Fin 8} {s : State} {syms : List (Cplx × Cplx)}

theorem fecAgreement_loses (hd : s.chainLost c chain.val = true) : s.fecAgreement c chain syms = s.fecLost c chain := if_pos hd

variable (hd : ¬ s.chainLost c chain.val = true)
include hd

/-- The block is released by what its word says of it; the counts before the FEC are those of a block without an uncorrectable codeword (R198, R200). -/
theorem fecAgreement_releases :
    let released := (iopIterated c syms s).fecReleased c chain (iopWord c syms s % 2 == 1)
    s.fecAgreement c chain syms = if iopWord c syms s % 2 = 1 then released
      else released.fecPre c (iopPart c syms 0 s, iopPart c syms 1 s) (iopPart c syms 2 s, iopPart c syms 3 s) := if_neg hd

theorem fecAgreement_uncorrectable (hw : iopWord c syms s % 2 = 1) :
    s.fecAgreement c chain syms = (iopIterated c syms s).fecReleased c chain true := by
  rw [fecAgreement_releases hd, if_pos hw, beq_iff_eq.mpr hw]

theorem fecAgreement_corrected (hw : iopWord c syms s % 2 ≠ 1) : s.fecAgreement c chain syms =
    ((iopIterated c syms s).fecReleased c chain false).fecPre c (iopPart c syms 0 s, iopPart c syms 1 s) (iopPart c syms 2 s, iopPart c syms 3 s) := by
  rw [fecAgreement_releases hd, if_neg hw, beq_eq_false_iff_ne.mpr hw]

end

/-! ### FEC_BLOCK_RELEASE -/

/-- A whole block's symbols came under block lock (R180). -/
def WholeBlock (c : Carrier) (syms : List (Cplx × Cplx)) (s : State) : Prop := BlockLocked c s ∧ syms.length = fecNs (s.carBase c)

/-- The row of an arriving block ends: with the effect that leads to t, ATBOUND commands may start. -/
def BlockEnds (c : Carrier) (syms : List (Cplx × Cplx)) (s t : State) : Prop :=
  Does (.fecBlockRelease c syms) s (t.armBoundary (fecQ c)).releaseWaiters

theorem BlockEnds.congr {c : Carrier} {syms : List (Cplx × Cplx)} {s t t' : State} (h : BlockEnds c syms s t) (ht : t = t') :
    BlockEnds c syms s t' := ht ▸ h

section
variable {c : Carrier} {s : State} {syms : List (Cplx × Cplx)}

section
variable (hf : s.carFamily c = 0)
include hf

theorem fecBlockRelease_notWhole (hw : ¬ WholeBlock c syms s) : Does (.fecBlockRelease c syms) s s := by
  have hn : s.flag (R.FEC_STATE c) F.FEC_STATE_blk_lock = false ∨ syms.length ≠ fecNs (s.carBase c) := by
    rwa [WholeBlock, BlockLocked, Classical.not_and_iff_not_or_not, Bool.not_eq_true] at hw
  exact (if_neg (not_not_intro hf)).trans (if_pos hn)

theorem fecBlockRelease_admits (hw : WholeBlock c syms s) :
    BlockEnds c syms s ((blockCame c s).fecAdmit c (blockChain c s) ((blockCame c s).fecLlrs c syms)) :=
  (if_neg (not_not_intro hf)).trans (if_neg (not_or_intro (ne_false_of_eq_true hw.1) (not_not_intro hw.2)))

end

section
variable (hf : s.carFamily c ≠ 0)
include hf

theorem fecBlockRelease_noStream (hv : s.rxValid c = false) : Does (.fecBlockRelease c syms) s s :=
  (if_pos hf).trans (congrArg Host.Outcome.next (if_neg (ne_true_of_eq_false hv)))

theorem fecBlockRelease_agreement (hv : s.rxValid c = true) : BlockEnds c syms s ((blockCame c s).fecAgreement c (blockChain c s) syms) :=
  (if_pos hf).trans (congrArg Host.Outcome.next (if_pos hv))

end

end

/-! ### Seeding -/

/-- There is no failure to seed: the chain is not decoded under block lock, or is seeded, or has had fewer than 64 of its blocks (R189). -/
def SeedUntried (c : Carrier) (chain : Fin 8) (s : State) : Prop :=
  s.carFamily c ≠ 0 ∨ ¬ BlockLocked c s ∨ s.seeded c chain.val = true ∨ (s.fec c).tries[chain] < 64

section
variable {c : Carrier} {s : State} {chain : Fin 8}

theorem seedUntried_iff : SeedUntried c chain s ↔
    s.carFamily c ≠ 0 ∨ s.flag (R.FEC_STATE c) F.FEC_STATE_blk_lock = false ∨ s.seeded c chain.val = true ∨ (s.fec c).tries[chain] < 64 := by
  rw [SeedUntried, BlockLocked, Bool.not_eq_true]

theorem fecSeedFail_idle (h : SeedUntried c chain s) : Does (.fecSeedFail c chain) s s := if_pos (seedUntried_iff.mp h)

theorem fecSeedFail_shows (h : ¬ SeedUntried c chain s) : Does (.fecSeedFail c chain) s
    (((s.setFec c { s.fec c with tries := (s.fec c).tries.set chain 0 }).setFlag (R.FEC_STATUS c) F.FEC_STATUS_seed_fail true).logEvent (fecId c) sevWarn
      0x0006 (evData [(1, chain.val)])) := if_neg ((not_congr seedUntried_iff).mp h)

end

/-! ### Engines -/

/-- The failure of an engine is shown (R195). -/
def engineFailed (c : Carrier) (engine : Fin 9) (s : State) : State :=
  ((s.setRole (R.FEC_ENGINE_MAP c) engine.val 2).fecCount c).setFlag (R.FEC_STATUS c) F.FEC_STATUS_dec_fault true

section
variable {c : Carrier} {s : State} {engine : Fin 9} {cause : Fin 3}

theorem fecEngineFailed_idle (h : s.roleAt (R.FEC_ENGINE_MAP c) engine.val = 2 ∨ s.fecCause c engine.val cause.val = false) :
    Does (.fecEngineFailed c engine cause) s s := if_pos h

/-- An engine in use waits for its replacement (R195). -/
theorem fecEngineFailed_fails (hr : s.roleAt (R.FEC_ENGINE_MAP c) engine.val ≠ 2) (hc : s.fecCause c engine.val cause.val = true) :
    let failed := engineFailed c engine s
    Does (.fecEngineFailed c engine cause) s
      ((if s.roleAt (R.FEC_ENGINE_MAP c) engine.val = 0 then failed.setFec c { failed.fec c with pendFail := (failed.fec c).pendFail ++ [engine.val] }
        else failed).logEvent (fecId c) sevFault 0x0001 (evData [(1, engine.val), (1, (s.engineChain c engine.val).getD 0), (1, cause.val)])) :=
  if_neg (not_or_intro hr (ne_false_of_eq_true hc))

end

/-! ### The encoder -/

/-- A block is withheld from the transmitter (R127, R197). -/
def blockWithheld (c : Carrier) (block : BitVec 32) (s : State) : State :=
  s.setTx c { s.tx c with line := { (s.tx c).line with withheld := (s.tx c).line.withheld ++ [block.toNat] } }

section
variable {c : Carrier} {s : State} {block : BitVec 32}

theorem fecEncoderFault_idle (h : s.flag (R.FEC_STATE c) F.FEC_STATE_enc_run = false) : Does (.fecEncoderFault c block) s s := if_pos h

theorem fecEncoderFault_withholds (h : s.flag (R.FEC_STATE c) F.FEC_STATE_enc_run = true) : Does (.fecEncoderFault c block) s
    (((blockWithheld c block s).setFlag (R.FEC_STATUS c) F.FEC_STATUS_enc_fault true).logEvent (fecId c) sevFault 0x0007 (evData [(4, block.toNat)])) :=
  if_neg (ne_false_of_eq_true h)

end

/-! ### FEC_RELOCK -/

section
variable {c : Carrier} {s u : State} {e : QEntry} (h : Started (fecQ c) 0x100 s e u)
include h

theorem fecRelock_unit (hu : e.desc.unit ≠ 0xFF) : Finishes (.fecRelock c) s u e 0x02 0 0 :=
  congrArg Host.Outcome.next (runCommand_ends h (if_pos hu))

variable (hu : e.desc.unit = 0xFF)
include hu

theorem fecRelock_notAcquired (ha : u.fld (R.RXF_STATE c) F.RXF_STATE_acq ≠ 4) : Finishes (.fecRelock c) s u e 0x06 0 0 :=
  congrArg Host.Outcome.next (runCommand_ends h ((if_neg (not_not_intro hu)).trans (if_pos ha)))

theorem fecRelock_unlocks (ha : u.fld (R.RXF_STATE c) F.RXF_STATE_acq = 4) : Finishes (.fecRelock c) s (u.fecUnlock c) e 0 0 0 :=
  congrArg Host.Outcome.next (runCommand_ends h ((if_neg (not_not_intro hu)).trans (if_neg (not_not_intro ha))))

end

/-! ### FEC_CAPTURE -/

/-- The chain or the buffer of a capture is wrong (R203). -/
def FecCaptureMalformed (d : Desc) : Prop := 8 ≤ d.unit ∨ bufferOk d.arg0 (if d.arg1 % 2 = 0 then 92160 else 11520) = false

theorem not_fecCaptureMalformed {d : Desc} (hu : d.unit < 8) (hb : bufferOk d.arg0 (if d.arg1 % 2 = 0 then 92160 else 11520) = true) :
    ¬ FecCaptureMalformed d := not_or_intro (Nat.not_le.mpr hu) (ne_false_of_eq_true hb)

section
variable {c : Carrier} {s u : State} {e : QEntry} (h : Started (fecQ c) 0x102 s e u)
include h

theorem fecCapture_malformed (hm : FecCaptureMalformed e.desc) : Finishes (.fecCapture c) s u e 0x02 0 0 :=
  congrArg Host.Outcome.next (runCommand_ends h (if_pos hm))

variable (hm : ¬ FecCaptureMalformed e.desc)
include hm

theorem fecCapture_noLock (hl : u.flag (R.FEC_STATE c) F.FEC_STATE_blk_lock = false) : Finishes (.fecCapture c) s u e 0x06 0 0 :=
  congrArg Host.Outcome.next (runCommand_ends h ((if_neg hm).trans (if_pos hl)))

theorem fecCapture_awaitsBlock (hl : u.flag (R.FEC_STATE c) F.FEC_STATE_blk_lock = true) : GoesOn (.fecCapture c) s u (fecQ c) :=
  congrArg Host.Outcome.next (runCommand_goes_on h ((if_neg hm).trans (if_neg (ne_false_of_eq_true hl))))

end

/-- Settles O25: the candidate by what lockCand's search keeps; each event by the conditions it acts under, a released block by whether its window is empty and
its engine failed; each command by the lemmas on its refusals, in their order, and on its effect. -/
theorem fecRows : Obligations.FecRows := by
  unfold Obligations.FecRows
  refine ⟨fun l k f => ⟨lockCand_some, lockCand_none⟩, ?_⟩
  intro c s u e hard syms chain engine cause block k f d a base mp judged locked run cand found search begun n ch came rate x rows put out counted lost dead
    row ends whole w iter part untried map inUse failed swap held
  refine ⟨fecBlockLockSearch_unjudged, fecBlockLockSearch_loses, fecBlockLockSearch_counts, fecBlockLockSearch_findsNone, fecBlockLockSearch_locks,
    fecBlockRelease_notWhole, fun hf hw hx => ?_, fun hf hw hx hd => ?_, fun hf hw hx hd => ?_, fecBlockRelease_noStream,
    fun hf hv hd => ?_, fun hf hv hd hw => ?_, fun hf hv hd hw => ?_, fecSeedFail_idle, fecSeedFail_shows,
    fecEngineFailed_idle, fecEngineFailed_fails, rfl, fecEncoderFault_idle, fecEncoderFault_withholds,
    fun h => ⟨fecRelock_unit h, fecRelock_notAcquired h, fecRelock_unlocks h⟩,
    fun h => ⟨retest_noSuchUnit rfl h, retest_busy rfl h, retest_goesOn (count := State.fecCount c) rfl h⟩,
    fun h => ⟨fecCapture_malformed h, fun hu hb => ?_⟩⟩
  · exact (fecBlockRelease_admits hf hw).congr (fecAdmit_fills hx)
  · exact (fecBlockRelease_admits hf hw).congr (fecAdmit_loses hx hd)
  · exact (fecBlockRelease_admits hf hw).congr (fecAdmit_decodes hx hd)
  · exact (fecBlockRelease_agreement hf hv).congr (fecAgreement_loses hd)
  · exact (fecBlockRelease_agreement hf hv).congr (fecAgreement_uncorrectable hd hw)
  · exact (fecBlockRelease_agreement hf hv).congr (fecAgreement_corrected hd hw)
  · have hm : ¬ FecCaptureMalformed d := not_fecCaptureMalformed hu hb
    exact ⟨fecCapture_noLock h hm, fecCapture_awaitsBlock h hm⟩

end Sys2Proof.Proofs

/-! PROOF. Client mapping (R254, R255, R257, R260 to R262, R264, R273, Table CLM-6). Results that the table does not give are 0 (notes/assumptions/25); what
else of it is the model's choice or reading: notes/assumptions/3, 4, 58, 104 and 108. -/
namespace Sys2Proof.Proofs
open Sys2Proof Sys2Proof.Machine Sys2Proof.Safety Sys2Proof.Laws

/-! ### CL_SET_MAP -/

/-- The operands of a map command name a unit, or no buffer of 400 bytes. -/
def MapMalformed (d : Desc) : Prop := d.unit ≠ 0xFF ∨ bufferOk d.arg0 400 = false

/-- The carrier that a map command names. -/
def namedCarrier (d : Desc) : Carrier := carOf (d.arg1 % 2)

/-- The map that a command brings: its slot bytes, unassigned ones as 0 (R230). -/
def broughtMap (d : Desc) (u : State) : List Byte := normMap (u.bytes d.arg0 400)

/-- The map not in force of a carrier has been loaded (R257). -/
def mapLoaded (c : Carrier) (m : List Byte) (u : State) : State :=
  u.setFrm c (if (u.frm c).txSel then { u.frm c with txMap1 := m } else { u.frm c with txMap0 := m })

section
variable {s u : State} {e : QEntry} (h : Started 16 0x100 s e u)
include h

theorem clSetMap_malformed (hm : MapMalformed e.desc) : Finishes .clSetMap s u e 0x02 0 0 :=
  congrArg Host.Outcome.next (runCommand_ends h (if_pos hm))

variable (hm : ¬ MapMalformed e.desc)
include hm

theorem clSetMap_noCarrier (hc : u.hasCarrier (namedCarrier e.desc) = false) : Finishes .clSetMap s u e 0x03 0 0 :=
  congrArg Host.Outcome.next (runCommand_ends h ((if_neg hm).trans (if_pos hc)))

variable (hc : u.hasCarrier (namedCarrier e.desc) = true)
include hc

theorem clSetMap_badMap (hk : u.mapOk (namedCarrier e.desc) (broughtMap e.desc u) = false) : Finishes .clSetMap s u e 0x02 0 0 :=
  congrArg Host.Outcome.next (runCommand_ends h ((if_neg hm).trans ((if_neg (ne_false_of_eq_true hc)).trans (if_pos hk))))

variable (hk : u.mapOk (namedCarrier e.desc) (broughtMap e.desc u) = true)
include hk

theorem clSetMap_inService (ht : u.txState (namedCarrier e.desc) = 3) : Finishes .clSetMap s u e 0x06 0 0 :=
  congrArg Host.Outcome.next (runCommand_ends h ((if_neg hm).trans ((if_neg (ne_false_of_eq_true hc)).trans
    ((if_neg (ne_false_of_eq_true hk)).trans (if_pos ht)))))

theorem clSetMap_loads (ht : u.txState (namedCarrier e.desc) ≠ 3) :
    Finishes .clSetMap s (forN 64 State.brtShow (mapLoaded (namedCarrier e.desc) (broughtMap e.desc u) u).cliShowAll) e 0 0 0 :=
  congrArg Host.Outcome.next (runCommand_ends h ((if_neg hm).trans ((if_neg (ne_false_of_eq_true hc)).trans
    ((if_neg (ne_false_of_eq_true hk)).trans (if_neg ht)))))

end

/-! ### CL_READ_MAP -/

/-- The map that a command asks for: the transmit map in force, the one not in force, or the received one (Table CLM-6). -/
def askedMap (c : Carrier) (which : Nat) (u : State) : List Byte :=
  if which = 0 then u.txMap c else if which = 1 then (if (u.frm c).txSel then (u.frm c).txMap0 else (u.frm c).txMap1) else u.rxMap c

theorem mapMalformed_or_reserved_iff {d : Desc} {which : Nat} :
    MapMalformed d ∨ which = 3 ↔ d.unit ≠ 0xFF ∨ which = 3 ∨ bufferOk d.arg0 400 = false := or_right_comm.trans or_assoc

section
variable {s u : State} {e : QEntry} (h : Started 16 0x101 s e u)
include h

theorem clReadMap_malformed (hm : MapMalformed e.desc ∨ e.desc.arg1 / 256 % 4 = 3) : Finishes .clReadMap s u e 0x02 0 0 :=
  congrArg Host.Outcome.next (runCommand_ends h (if_pos (mapMalformed_or_reserved_iff.mp hm)))

variable (hm : ¬ MapMalformed e.desc) (hw : e.desc.arg1 / 256 % 4 ≠ 3)
include hm hw

theorem clReadMap_noCarrier (hc : u.hasCarrier (namedCarrier e.desc) = false) : Finishes .clReadMap s u e 0x03 0 0 :=
  congrArg Host.Outcome.next (runCommand_ends h ((if_neg (mt mapMalformed_or_reserved_iff.mpr (not_or_intro hm hw))).trans (if_pos hc)))

theorem clReadMap_stores (hc : u.hasCarrier (namedCarrier e.desc) = true) : Finishes .clReadMap s
    (u.setBytes e.desc.arg0 (mapBytes (askedMap (namedCarrier e.desc) (e.desc.arg1 / 256 % 4) u))) e 0 0 0 :=
  congrArg Host.Outcome.next (runCommand_ends h ((if_neg (mt mapMalformed_or_reserved_iff.mpr (not_or_intro hm hw))).trans
    (if_neg (ne_false_of_eq_true hc))))

end

/-! ### FlexE calendars -/

/-- The operands of CL_SET_FLEXE_CAL name no group, no length from 1 to 640, or no buffer of that length. -/
def CalMalformed (d : Desc) : Prop := 7 < d.unit ∨ d.arg1 % 1024 = 0 ∨ 640 < d.arg1 % 1024 ∨ bufferOk d.arg0 (d.arg1 % 1024) = false

/-- The calendar not in use of the named group has been loaded (R254). -/
def calendarLoaded (d : Desc) (u : State) : State :=
  let buf := 1 - u.fld (R.CLM_FLEXE_GRP d.unit) F.CLM_FLEXE_GRP_cal_act
  { u with clm := { u.clm with cals := u.clm.cals.set (Fin.ofNat 16 (2 * d.unit + buf)) (normMap (u.bytes d.arg0 (d.arg1 % 1024))) } }

section
variable {s u : State} {e : QEntry} (h : Started 16 0x102 s e u)
include h

theorem clSetFlexeCal_malformed (hm : CalMalformed e.desc) : Finishes .clSetFlexeCal s u e 0x02 0 0 :=
  congrArg Host.Outcome.next (runCommand_ends h (if_pos hm))

variable (hm : ¬ CalMalformed e.desc)
include hm

theorem clSetFlexeCal_wrongLength (hn : e.desc.arg1 % 1024 ≠ (u.grpCfg e.desc.unit).calLen) : Finishes .clSetFlexeCal s u e 0x02 0 0 :=
  congrArg Host.Outcome.next (runCommand_ends h ((if_neg hm).trans (if_pos hn)))

variable (hn : e.desc.arg1 % 1024 = (u.grpCfg e.desc.unit).calLen)
include hn

theorem clSetFlexeCal_groupOff (ho : (u.grpCfg e.desc.unit).on = false) : Finishes .clSetFlexeCal s u e 0x06 0 0 :=
  congrArg Host.Outcome.next (runCommand_ends h ((if_neg hm).trans ((if_neg (not_not_intro hn)).trans (if_pos ho))))

theorem clSetFlexeCal_loads (ho : (u.grpCfg e.desc.unit).on = true) : Finishes .clSetFlexeCal s (calendarLoaded e.desc u) e 0 0 0 :=
  congrArg Host.Outcome.next (runCommand_ends h ((if_neg hm).trans ((if_neg (not_not_intro hn)).trans (if_neg (ne_false_of_eq_true ho)))))

end

/-! ### Units at the ingress -/

/-- No unit enters the block berth of client n: it is off, a packet berth or without slots, CLM has a fault, or the host input has failed (R257, R264, R273). -/
def BerthShut (n : Nat) (s : State) : Prop :=
  s.cliOn n = false ∨ s.cliPacket n = true ∨ s.txSlots n = 0 ∨ s.clm.fault = true ∨ s.flag (R.CLM_CLIENT_STATUS n) F.CLM_CLIENT_STATUS_host_fail = true

/-- A unit has found the buffer full: the frame is cut, which is counted and shown (R261). -/
def unitOverran (n : Nat) (unit : Unit66) (s : State) : State :=
  ((s.setClient n { s.client n with cut := !unit.isTerm, errDue := true }).addCnt (R.CLM_OVR_CNT n) 1).setFlag R.CLM_STATUS F.CLM_STATUS_overrun true

theorem unitOverran_time (n : Nat) (unit : Unit66) (s : State) : (unitOverran n unit s).time = s.time :=
  time_of_within (sc := [.regs, .coreA, .coreB, .clm]) rfl
    (State.setFlag_within _ _ _ rfl (State.addCnt_within _ _ rfl (State.setClient_within _ _ rfl (Within.refl _ _))))

/-- An overrun is logged, and its second kept (R261). -/
def overrunLogged (n sec : Nat) (s : State) : State :=
  (s.setClient n { s.client n with overSec := some sec }).logEvent 0x10 sevWarn 0x0001 (evData [(1, n)])

/-- The second of DEVTIME, which counts in units of 0.1 ns. -/
def devSecond (s : State) : Nat := s.time.devtime.toNat / 10000000000

section
variable {n : Nat} {unit : Unit66} {s : State}

theorem clmIngress_shut (h : BerthShut n s) : s.clmIngress n unit = s := if_pos h

variable (h : ¬ BerthShut n s)
include h

theorem clmIngress_skips (hc : (s.client n).cut = true) : s.clmIngress n unit = s.setClient n { s.client n with cut := !unit.isTerm } :=
  (if_neg h).trans (if_pos hc)

variable (hc : (s.client n).cut = false)
include hc

theorem clmIngress_drops (hd : unit.dropped = true) : s.clmIngress n unit = s.addCnt (R.CLM_DEL_CNT n) 1 :=
  (if_neg h).trans ((if_neg (ne_true_of_eq_false hc)).trans (if_pos hd))

variable (hd : unit.dropped = false)
include hd

theorem clmIngress_enters (hr : (s.client n).ing.length < s.ingRoom n) :
    s.clmIngress n unit = (s.setClient n { s.client n with ing := (s.client n).ing ++ [unit] }).boundShow n :=
  (if_neg h).trans ((if_neg (ne_true_of_eq_false hc)).trans ((if_neg (ne_true_of_eq_false hd)).trans (if_pos hr)))

variable (hr : s.ingRoom n ≤ (s.client n).ing.length)
include hr

/-- On a full buffer the unit overruns it; only the first overrun of a second is logged (R261). -/
theorem clmIngress_full : s.clmIngress n unit = if (s.client n).overSec = some (devSecond s) then unitOverran n unit s
    else overrunLogged n (devSecond s) (unitOverran n unit s) := by
  rw [devSecond, ← unitOverran_time n unit s]
  exact (if_neg h).trans ((if_neg (ne_true_of_eq_false hc)).trans ((if_neg (ne_true_of_eq_false hd)).trans (if_neg (Nat.not_lt.mpr hr))))

theorem clmIngress_overrunsAgain (ho : (s.client n).overSec = some (devSecond s)) : s.clmIngress n unit = unitOverran n unit s :=
  (clmIngress_full h hc hd hr).trans (if_pos ho)

theorem clmIngress_overruns (ho : (s.client n).overSec ≠ some (devSecond s)) :
    s.clmIngress n unit = overrunLogged n (devSecond s) (unitOverran n unit s) :=
  (clmIngress_full h hc hd hr).trans (if_neg ho)

end

/-- The source gives client n no unit: it is tied, so that its partner's egress is its source, or its berth is shut (R255). -/
def SourceShut (n : Nat) (s : State) : Prop := (s.cliCfg n).typ = 3 ∨ BerthShut n s

section
variable {client : Fin 128} {ctl : Bool} {body : W64} {s t : State}

theorem clmIngressUnit_shut (h : SourceShut client.val s) : Does (.clmIngressUnit client ctl body) s s := by
  refine congrArg Host.Outcome.next (ite_eq_left_iff.mpr fun ht => ?_)
  exact clmIngress_shut (h.resolve_left ht)

theorem clmIngressUnit_acts (h : ¬ SourceShut client.val s) (ht : ¬ BerthShut client.val s → s.clmIngress client.val { ctl, body } = t) :
    Does (.clmIngressUnit client ctl body) s t :=
  congrArg Host.Outcome.next ((if_neg fun hn => h (.inl hn)).trans (ht fun hn => h (.inr hn)))

end

/-! ### The next block of a received berth -/

/-- The words of client n from a multiframe's beginning or a known position on, with that position (R259). -/
def egressWords (n : Nat) (s : State) : Option Nat × List RxWord := berthAlign (s.client n).rxPos (s.client n).rx

/-- The next block of client n's received berth, the position after it and the words from there on. -/
def egressFound (n : Nat) (s : State) : Option (BerthBlock × Nat × List RxWord) :=
  (egressWords n s).1.bind fun p => berthNext p (egressWords n s).2

/-- Client n before the block is looked at: it sends nothing yet. -/
def egressAt (n : Nat) (s : State) : ClientRt := { s.client n with rxPos := (egressWords n s).1, rx := (egressWords n s).2, egOut := [] }

/-- Client n past the block taken. -/
def egressPast (n pos : Nat) (rest : List RxWord) (s : State) : ClientRt := { egressAt n s with rxPos := some pos, rx := rest }

/-- Gaps between frames are regenerated, except toward a Quay tributary (R262, R290). -/
def regenerates (n : Nat) (s : State) : Bool := decide ((s.cliCfg n).typ ≠ 4)

/-- A frame under way has run out: it is cut by an error block, which is counted and shown (R262). -/
def egressCut (n : Nat) (s : State) : State :=
  ((s.setClient n { egressAt n s with egSend := false, egSkip := true, egMid := false, egOut := [errorBlock] }).addCnt (R.CLM_UNR_CNT n) 1).setFlag
    R.CLM_STATUS F.CLM_STATUS_underrun true

section
variable {n pos : Nat} {b : BerthBlock} {rest : List RxWord} {us : List Unit66} {s : State}

/-- With no whole block there, a frame under way is cut; between frames an idle block is sent where gaps are regenerated (R262). -/
theorem egress_none (hf : egressFound n s = none) : s.egress n = if (s.client n).egSend then egressCut n s
    else if regenerates n s ∧ (s.client n).egBuf = [] then s.setClient n ((egressAt n s).send (regenerates n s) idleBlock)
    else s.setClient n (egressAt n s) := by
  rw [egressFound, egressWords] at hf
  rw [State.egress, egressCut, egressAt, egressWords]
  generalize berthAlign (s.client n).rxPos (s.client n).rx = words at hf ⊢
  obtain ⟨p, l⟩ := words
  dsimp only at hf ⊢
  rw [hf]
  rfl

section
variable (hf : egressFound n s = some (b, pos, rest))
include hf

/-- A block that is there is that of an absent record, or one that cannot be used, or its units are sent. -/
theorem egress_some : s.egress n = if b.absent then s.setClient n (egressPast n pos rest s).lost
    else (if b.bad then none else xdecode b.bits).elim ((s.setClient n (egressPast n pos rest s).error).addCnt (R.CLM_ERRBLK_CNT n) 1)
      (fun us => s.setClient n (us.foldl (ClientRt.unit (regenerates n s)) (egressPast n pos rest s))) := by
  rw [egressFound, egressWords] at hf
  rw [State.egress, egressPast, egressAt, egressWords, regenerates]
  generalize berthAlign (s.client n).rxPos (s.client n).rx = words at hf ⊢
  obtain ⟨p, l⟩ := words
  dsimp only at hf ⊢
  rw [hf]
  dsimp only
  cases (if b.bad then none else xdecode b.bits) with
  | none => rw [Option.elim_none]
  | some us => rw [Option.elim_some]

theorem egress_absent (ha : b.absent = true) : s.egress n = s.setClient n (egressPast n pos rest s).lost := (egress_some hf).trans (if_pos ha)

variable (ha : b.absent = false)
include ha

theorem egress_useless (hu : b.bad = true ∨ xdecode b.bits = none) :
    s.egress n = (s.setClient n (egressPast n pos rest s).error).addCnt (R.CLM_ERRBLK_CNT n) 1 := by
  have hn : (if b.bad then none else xdecode b.bits) = none := ite_eq_left_iff.mpr hu.resolve_left
  rw [egress_some hf, if_neg (ne_true_of_eq_false ha), hn, Option.elim_none]

theorem egress_units (hb : b.bad = false) (hx : xdecode b.bits = some us) :
    s.egress n = s.setClient n (us.foldl (ClientRt.unit (regenerates n s)) (egressPast n pos rest s)) := by
  rw [egress_some hf, if_neg (ne_true_of_eq_false ha), if_neg (ne_true_of_eq_false hb), hx, Option.elim_some]

end

end

/-! ### CLM_EGRESS_UNIT -/

/-- The client has a block berth, which is not under replacement. -/
def EgressOpen (n : Nat) (s : State) : Prop :=
  s.cliOn n = true ∧ s.cliPacket n = false ∧ s.flag (R.CLM_CLIENT_STATUS n) F.CLM_CLIENT_STATUS_repl = false

section
variable {client : Fin 128} {s t : State}

theorem clmEgressUnit_noBlockBerth (h : s.cliOn client.val = false ∨ s.cliPacket client.val = true) : Does (.clmEgressUnit client) s s := if_pos h

theorem clmEgressUnit_replaced (ho : s.cliOn client.val = true) (hp : s.cliPacket client.val = false)
    (hr : s.flag (R.CLM_CLIENT_STATUS client.val) F.CLM_CLIENT_STATUS_repl = true) : Does (.clmEgressUnit client) s
      ((s.setClient client.val { (s.client client.val).lost with rx := [], rxPos := none }).tieOver client.val) :=
  (if_neg (not_or_intro (ne_false_of_eq_true ho) (ne_true_of_eq_false hp))).trans (if_pos hr)

variable (h : EgressOpen client.val s)
include h

theorem clmEgressUnit_takes (ht : s.egress client.val = t) : Does (.clmEgressUnit client) s (t.tieOver client.val) := by
  obtain ⟨ho, hp, hr⟩ := h
  rw [← ht]
  exact (if_neg (not_or_intro (ne_false_of_eq_true ho) (ne_true_of_eq_false hp))).trans (if_neg (ne_true_of_eq_false hr))

variable (hf : egressFound client.val s = none)
include hf

theorem clmEgressUnit_cuts (hs : (s.client client.val).egSend = true) : Does (.clmEgressUnit client) s ((egressCut client.val s).tieOver client.val) :=
  clmEgressUnit_takes h ((egress_none hf).trans (if_pos hs))

variable (hs : (s.client client.val).egSend = false)
include hs

theorem clmEgressUnit_idles (hg : regenerates client.val s = true) (hb : (s.client client.val).egBuf = []) : Does (.clmEgressUnit client) s
    ((s.setClient client.val ((egressAt client.val s).send (regenerates client.val s) idleBlock)).tieOver client.val) :=
  clmEgressUnit_takes h ((egress_none hf).trans ((if_neg (ne_true_of_eq_false hs)).trans (if_pos ⟨hg, hb⟩)))

theorem clmEgressUnit_waits (hg : regenerates client.val s = false ∨ (s.client client.val).egBuf ≠ []) :
    Does (.clmEgressUnit client) s ((s.setClient client.val (egressAt client.val s)).tieOver client.val) :=
  clmEgressUnit_takes h ((egress_none hf).trans ((if_neg (ne_true_of_eq_false hs)).trans
    (if_neg fun hn => hg.elim (ne_false_of_eq_true hn.1) (· hn.2))))

end

/-- Settles O31: each command by the lemmas on its refusals, in their order, and on its effect; a unit that enters by the cases of clmIngress, a block that leaves
by the cases of egress. -/
theorem clientMapperRows : Obligations.ClientMapperRows := by
  unfold Obligations.ClientMapperRows
  intro s u e g client ctl body b pos rest us d c map x bad loaded which asked n badCal buf k y unit shut past sec open_ regen words found at_ beyond useless
  refine ⟨fun h => ⟨clSetMap_malformed h, clSetMap_noCarrier h, clSetMap_badMap h, clSetMap_inService h, fun hm hc ht hk => clSetMap_loads h hm hc hk ht⟩,
    fun h => ⟨clReadMap_malformed h, clReadMap_noCarrier h, clReadMap_stores h⟩,
    fun h => ⟨clSetFlexeCal_malformed h, clSetFlexeCal_wrongLength h, clSetFlexeCal_groupOff h, fun hm ho hn => clSetFlexeCal_loads h hm hn ho⟩,
    does_ite rfl, clmIngressUnit_shut,
    fun h hc => clmIngressUnit_acts h fun h => clmIngress_skips h hc,
    fun h hc hd => clmIngressUnit_acts h fun h => clmIngress_drops h hc hd,
    fun h hc hd hr => clmIngressUnit_acts h fun h => clmIngress_enters h hc hd hr,
    fun h hc hd hr ho => clmIngressUnit_acts h fun h => clmIngress_overrunsAgain h hc hd hr ho,
    fun h hc hd hr ho => clmIngressUnit_acts h fun h => clmIngress_overruns h hc hd hr ho,
    clmEgressUnit_noBlockBerth, clmEgressUnit_replaced,
    fun h hf => ⟨fun ha => clmEgressUnit_takes h (egress_absent hf ha), fun ha hu => clmEgressUnit_takes h (egress_useless hf ha hu),
      fun ha hb hx => clmEgressUnit_takes h (egress_units hf ha hb hx)⟩,
    fun h hf => ⟨clmEgressUnit_cuts h hf, clmEgressUnit_idles h hf, clmEgressUnit_waits h hf⟩, rfl, rfl⟩

end Sys2Proof.Proofs

/-! PROOF. Packet berths (R265 to R271, Table CLM-6). Results that the table does not give are 0 (notes/assumptions/25); what else of it is the model's choice
or reading: notes/assumptions/3 and 108. -/
namespace Sys2Proof.Proofs
open Sys2Proof Sys2Proof.Machine Sys2Proof.Safety Sys2Proof.Laws

/-! ### Frames at the ingress -/

/-- No frame enters the packet berth of client n: it is off, no packet berth or without slots, or BRT has a fault (R265, R273). -/
def PacketShut (n : Nat) (s : State) : Prop := s.cliOn n = false ∨ s.cliPacket n = false ∨ s.txSlots n = 0 ∨ s.brt.fault = true

/-- A length is one that context q carries (R265). -/
def FrameSized (q len : Nat) (s : State) : Prop := 64 ≤ len ∧ len ≤ s.brtMaxFrame q

theorem not_frameSized_iff {q len : Nat} {s : State} : ¬ FrameSized q len s ↔ s.brtMaxFrame q < len ∨ len < 64 := by
  rw [FrameSized]
  omega

/-- The cells that context q holds (R269). -/
def cellsHeld (q : Nat) (s : State) : Nat := s.fld (R.BRT_PB_STATUS q) F.BRT_PB_STATUS_occupancy

/-- The most cells that context q may hold. -/
def cellsMax (q : Nat) (s : State) : Nat := s.fld (R.BRT_PB_1C q) F.BRT_PB_1C_buf_max

/-- The level of cells from which context q drops yellow frames. -/
def yellowFrom (q : Nat) (s : State) : Nat := min (cellsMax q s) (s.fld (R.BRT_PB_1C q) F.BRT_PB_1C_yel_thr)

/-- The cells of the pool that no context holds. -/
def cellsFree (s : State) : Nat := s.fld R.BRT_STATUS F.BRT_STATUS_free_cells

/-- A metered frame is dropped for its colour: red, or yellow with the context's buffer at the threshold (R267, R269). -/
def ColourDropped (q : Nat) (m : Nat × State) : Prop := m.1 = 2 ∨ (m.1 = 1 ∧ yellowFrom q m.2 ≤ cellsHeld q m.2)

/-- The drop of a frame for want of a cell in the pool is counted, shown and logged (R269). -/
def poolDropped (q : Nat) (s : State) : State :=
  ((s.addCnt (R.BRT_BUFDROP_CNT q) 1).setFlag R.BRT_STATUS F.BRT_STATUS_pool_full true).logEvent 0x11 sevWarn 0x0001 (evData [(2, cellsFree s), (1, q)])

/-- A frame is queued and takes its cells (R269). -/
def frameQueued (q : Nat) (frame : List Byte) (s : State) : State :=
  (s.setBrtCtx q { s.brtCtx q with frames := (s.brtCtx q).frames ++ [frame] }).brtCells q (cellsOf frame.length)

section
variable {client : Fin 128} {frame : List Byte} {s : State}

theorem brtIngressFrame_shut (h : PacketShut client.val s) : Does (.brtIngressFrame client frame) s s := if_pos h

variable (h : ¬ PacketShut client.val s)
include h

theorem brtIngressFrame_oversize (hs : ¬ FrameSized (s.cliPb client.val) frame.length s) :
    Does (.brtIngressFrame client frame) s (s.addCnt (R.BRT_OVERSIZE_CNT (s.cliPb client.val)) 1) :=
  (if_neg h).trans (if_pos (not_frameSized_iff.mp hs))

variable (hs : FrameSized (s.cliPb client.val) frame.length s)
include hs

/-- A frame of an admitted length is metered, then judged by its colour, the context's buffer and the pool (R267, R269). -/
theorem brtIngressFrame_judges :
    let q := s.cliPb client.val
    let col := (s.brtMeter q frame.length).1
    let met := (s.brtMeter q frame.length).2
    exec (.brtIngressFrame client frame) s =
      if col = 2 ∨ (col = 1 ∧ yellowFrom q met ≤ cellsHeld q met) then .next met
      else if cellsMax q met < cellsHeld q met + cellsOf frame.length then .next (met.addCnt (R.BRT_BUFDROP_CNT q) 1)
      else if cellsFree met < cellsOf frame.length then .next (poolDropped q met)
      else .next (frameQueued q frame met) :=
  (if_neg h).trans (if_neg fun hn => not_frameSized_iff.mpr hn hs)

theorem brtIngressFrame_colourDropped (hc : ColourDropped (s.cliPb client.val) (s.brtMeter (s.cliPb client.val) frame.length)) :
    Does (.brtIngressFrame client frame) s (s.brtMeter (s.cliPb client.val) frame.length).2 :=
  (brtIngressFrame_judges h hs).trans (if_pos hc)

variable (hc : ¬ ColourDropped (s.cliPb client.val) (s.brtMeter (s.cliPb client.val) frame.length))
include hc

theorem brtIngressFrame_bufferFull :
    let q := s.cliPb client.val
    let met := (s.brtMeter q frame.length).2
    cellsMax q met < cellsHeld q met + cellsOf frame.length → Does (.brtIngressFrame client frame) s (met.addCnt (R.BRT_BUFDROP_CNT q) 1) :=
  fun hb => (brtIngressFrame_judges h hs).trans ((if_neg hc).trans (if_pos hb))

theorem brtIngressFrame_poolFull :
    let q := s.cliPb client.val
    let met := (s.brtMeter q frame.length).2
    cellsHeld q met + cellsOf frame.length ≤ cellsMax q met → cellsFree met < cellsOf frame.length →
      Does (.brtIngressFrame client frame) s (poolDropped q met) :=
  fun hb hp => (brtIngressFrame_judges h hs).trans ((if_neg hc).trans ((if_neg (Nat.not_lt.mpr hb)).trans (if_pos hp)))

theorem brtIngressFrame_queues :
    let q := s.cliPb client.val
    let met := (s.brtMeter q frame.length).2
    cellsHeld q met + cellsOf frame.length ≤ cellsMax q met → cellsOf frame.length ≤ cellsFree met →
      Does (.brtIngressFrame client frame) s (frameQueued q frame met) :=
  fun hb hp => (brtIngressFrame_judges h hs).trans ((if_neg hc).trans ((if_neg (Nat.not_lt.mpr hb)).trans (if_neg (Nat.not_lt.mpr hp))))

end

/-! ### The shaper -/

/-- No frame of context n may start: BRT has a fault, the gate is not open, or the berth has no slots (R268, R271, R273). -/
def GateShut (n : Nat) (s : State) : Prop :=
  s.brt.fault = true ∨ s.fld (R.BRT_PB_STATUS n) F.BRT_PB_STATUS_gate ≠ 0 ∨ s.fld (R.BRT_PB_STATUS n) F.BRT_PB_STATUS_slots = 0

/-- Context n is shaped. -/
def shaped (n : Nat) (s : State) : Bool := s.flag (R.BRT_PB_00 n) F.BRT_PB_00_shp_en

/-- The tokens that a frame takes of the shaper's bucket (R268). -/
def tokensFor (n : Nat) (f : List Byte) (s : State) : Nat := 80000 * (f.length + s.brtOverhead n)

/-- The head frame has gone out behind its header, padded to whole units, and is counted (R265, R268); l is the rest of the queue. -/
def headReleased (n : Nat) (f : List Byte) (l : List (List Byte)) (s : State) : State :=
  let x := s.brtCtx n
  let failed := (s.brtClient n).any (fun i => s.flag (R.CLM_CLIENT_STATUS i) F.CLM_CLIENT_STATUS_host_fail)
  ((s.setBrtCtx n { x with
    frames := l
    ts := if shaped n s then x.ts - tokensFor n f s else x.ts
    sent := x.sent ++ brtHeader f.length failed ++ f ++ List.replicate ((8 - f.length % 8) % 8) (0 : Byte) }).brtCells n
      (-(cellsOf f.length : Int))).addCnt (R.BRT_TXFRM_CNT n) 1

section
variable {p : Fin 64} {s : State} {f : List Byte} {l : List (List Byte)}

theorem brtShaperRelease_shut (h : GateShut p.val (s.brtAccrue p.val)) : Does (.brtShaperRelease p) s (s.brtAccrue p.val) := if_pos h

theorem brtShaperRelease_empty (hf : ((s.brtAccrue p.val).brtCtx p.val).frames = []) : Does (.brtShaperRelease p) s (s.brtAccrue p.val) := by
  by_cases h : GateShut p.val (s.brtAccrue p.val)
  · exact brtShaperRelease_shut h
  · refine (if_neg h).trans ?_
    rw [hf]

variable (h : ¬ GateShut p.val (s.brtAccrue p.val)) (hf : ((s.brtAccrue p.val).brtCtx p.val).frames = f :: l)
include h hf

theorem brtShaperRelease_head : exec (.brtShaperRelease p) s =
    if shaped p.val (s.brtAccrue p.val) ∧ ((s.brtAccrue p.val).brtCtx p.val).ts < tokensFor p.val f (s.brtAccrue p.val) then .next (s.brtAccrue p.val)
    else .next (headReleased p.val f l (s.brtAccrue p.val)) := by
  refine (if_neg h).trans ?_
  rw [hf]
  rfl

theorem brtShaperRelease_waits (hp : shaped p.val (s.brtAccrue p.val) = true)
    (ht : ((s.brtAccrue p.val).brtCtx p.val).ts < tokensFor p.val f (s.brtAccrue p.val)) : Does (.brtShaperRelease p) s (s.brtAccrue p.val) :=
  (brtShaperRelease_head h hf).trans (if_pos ⟨hp, ht⟩)

theorem brtShaperRelease_sends
    (ht : shaped p.val (s.brtAccrue p.val) = true → tokensFor p.val f (s.brtAccrue p.val) ≤ ((s.brtAccrue p.val).brtCtx p.val).ts) :
    Does (.brtShaperRelease p) s (headReleased p.val f l (s.brtAccrue p.val)) :=
  (brtShaperRelease_head h hf).trans (if_neg fun hn => Nat.not_lt.mpr (ht hn.1) hn.2)

end

/-! ### Headers -/

/-- A header unit passes by its CRC-16 and a length of 0 or 64 to 16,000 (R266). -/
theorem headerLen_eq_some_iff {h : List Byte} {len : Nat} : headerLen h = some len ↔
    leNat (h.take 2) = len ∧ leBytes 2 (crc16 (h.take 6)).toNat = h.drop 6 ∧ (len = 0 ∨ (64 ≤ len ∧ len ≤ 16000)) := by
  simp only [headerLen, Option.ite_none_right_eq_some, Option.some.injEq, Bool.and_eq_true, Bool.or_eq_true, beq_iff_eq, decide_eq_true_eq]
  constructor
  · rintro ⟨⟨hc, hl⟩, rfl⟩
    exact ⟨rfl, hc, hl⟩
  · rintro ⟨rfl, hc, hl⟩
    exact ⟨⟨hc, hl⟩, rfl⟩

/-- The frame that context p (x before the row) has received whole goes to the host, counted if a byte of it is marked errored (R266). -/
def frameGiven (p : Nat) (x : BrtCtx) (frame : List Byte) (bad : Bool) (s : State) : State :=
  let given := if x.need = 0 then s else s.setBrtCtx p { x with out := frame.take x.need, outErr := bad }
  if bad then given.addCnt (R.BRT_RXERR_CNT p) 1 else given

/-- The header h announces the next frame's length and the far end's failure (R264, R266). -/
def headerAnnounced (p len : Nat) (h : List Byte) (x : BrtCtx) (s : State) : State :=
  (s.setBrtCtx p { x with need := len, farFail := (h.getD 2 0).getLsbD 0 }).brtCliShow p

/-- Sync is lost, which is counted, shown and logged (R266). -/
def syncLost (p : Nat) (s : State) : State :=
  let lost := (s.setFlag (R.BRT_PB_STATUS p) F.BRT_PB_STATUS_sync false).setBrtCtx p { s.brtCtx p with need := 0 }
  ((lost.addCnt (R.BRT_HUNT_CNT p) 1).setFlag R.BRT_STATUS F.BRT_STATUS_hunt true).logEvent 0x11 sevWarn 0x0002 (evData [(1, p)])

section
variable {p n pos : Nat} {l : List RxWord} {s : State}

section
variable {b f : List Byte} {bad bad' : Bool} {at_ at' len : Nat} {rest rest' : List RxWord}

/-- The frame announced, or the header after it, has not come whole. -/
theorem brtInSync_short (h : berthBytes (frameSpan (s.brtCtx p).need + 8) pos l = none ∨ berthBytes (frameSpan (s.brtCtx p).need) pos l = none) :
    s.brtInSync p n pos l = s := by
  rw [State.brtInSync]
  obtain h | h := h
  · rw [h]
  · rw [h]
    cases berthBytes (frameSpan (s.brtCtx p).need + 8) pos l <;> rfl

variable (hb : berthBytes (frameSpan (s.brtCtx p).need + 8) pos l = some (b, bad', at_, rest))
  (hf : berthBytes (frameSpan (s.brtCtx p).need) pos l = some (f, bad, at', rest'))
include hb hf

theorem brtInSync_keeps (hh : headerLen (b.drop (frameSpan (s.brtCtx p).need)) = some len) :
    let given := frameGiven p (s.brtCtx p) f bad (s.brtWords n at_ rest)
    s.brtInSync p n pos l = headerAnnounced p len (b.drop (frameSpan (s.brtCtx p).need)) (given.brtCtx p) given := by
  rw [State.brtInSync, hb, hf]
  dsimp only
  rw [hh]
  rfl

theorem brtInSync_loses (hh : headerLen (b.drop (frameSpan (s.brtCtx p).need)) = none) :
    s.brtInSync p n pos l = syncLost p (frameGiven p (s.brtCtx p) f bad (s.brtWords n at_ rest)) := by
  rw [State.brtInSync, hb, hf]
  dsimp only
  rw [hh]
  rfl

end

section
variable {h b : List Byte} {bad bad' : Bool} {at_ at' len : Nat} {rest rest' : List RxWord}

theorem brtHunt_noUnit (hu : berthBytes 8 pos l = none) : s.brtHunt p n pos l = s := by
  rw [State.brtHunt, hu]

variable (hu : berthBytes 8 pos l = some (h, bad, at_, rest))
include hu

theorem brtHunt_noHeader (hh : headerLen h = none) : s.brtHunt p n pos l = s.brtWords n at_ rest := by
  rw [State.brtHunt, hu]
  dsimp only
  rw [hh]

variable (hh : headerLen h = some len)
include hh

theorem brtHunt_awaitsNext (hb : berthBytes (frameSpan len + 8) at_ rest = none) : s.brtHunt p n pos l = s := by
  rw [State.brtHunt, hu]
  dsimp only
  rw [hh]
  dsimp only
  rw [hb]

variable (hb : berthBytes (frameSpan len + 8) at_ rest = some (b, bad', at', rest'))
include hb

/-- The unit at hand is discarded, or sync is declared, by the unit where the header predicts the next (R266). -/
theorem brtHunt_predicted : s.brtHunt p n pos l = if (headerLen (b.drop (frameSpan len))).isNone then s.brtWords n at_ rest
    else headerAnnounced p len h (s.brtCtx p) ((s.brtWords n at_ rest).setFlag (R.BRT_PB_STATUS p) F.BRT_PB_STATUS_sync true) := by
  rw [State.brtHunt, hu]
  dsimp only
  rw [hh]
  dsimp only
  rw [hb]
  rfl

theorem brtHunt_misled (hn : headerLen (b.drop (frameSpan len)) = none) : s.brtHunt p n pos l = s.brtWords n at_ rest :=
  (brtHunt_predicted hu hh hb).trans (if_pos (Option.isNone_iff_eq_none.mpr hn))

theorem brtHunt_syncs {len' : Nat} (hn : headerLen (b.drop (frameSpan len)) = some len') : s.brtHunt p n pos l =
    headerAnnounced p len h (s.brtCtx p) ((s.brtWords n at_ rest).setFlag (R.BRT_PB_STATUS p) F.BRT_PB_STATUS_sync true) :=
  (brtHunt_predicted hu hh hb).trans (if_neg (by simp [hn]))

end

end

section
variable {p : Fin 64} {n pos : Nat} {s t : State}

theorem brtEgressHeader_noClient (h : s.brtClient p.val = none) : Does (.brtEgressHeader p) s s := by
  change execBrtEgressHeader p s = _
  rw [execBrtEgressHeader, h]

variable (h : s.brtClient p.val = some n) (hp : (s.client n).rxPos.getD 0 = pos)
include h hp

/-- The berth of the context's client is read where its words stand, in sync or hunting. -/
theorem brtEgressHeader_reads : exec (.brtEgressHeader p) s =
    .next (if s.flag (R.BRT_PB_STATUS p.val) F.BRT_PB_STATUS_sync then s.brtInSync p.val n pos (s.client n).rx
      else s.brtHunt p.val n pos (s.client n).rx) := by
  change execBrtEgressHeader p s = _
  rw [execBrtEgressHeader, h, ← hp]

theorem brtEgressHeader_inSync (hs : s.flag (R.BRT_PB_STATUS p.val) F.BRT_PB_STATUS_sync = true)
    (ht : s.brtInSync p.val n pos (s.client n).rx = t) : Does (.brtEgressHeader p) s t :=
  (brtEgressHeader_reads h hp).trans (congrArg Host.Outcome.next ((if_pos hs).trans ht))

theorem brtEgressHeader_hunts (hs : s.flag (R.BRT_PB_STATUS p.val) F.BRT_PB_STATUS_sync = false)
    (ht : s.brtHunt p.val n pos (s.client n).rx = t) : Does (.brtEgressHeader p) s t :=
  (brtEgressHeader_reads h hp).trans (congrArg Host.Outcome.next ((if_neg (ne_true_of_eq_false hs)).trans ht))

end

/-! ### BR_RESET_TOKENS and BR_FLUSH -/

/-- A command on a context (Table CLM-6): it acts where the unit names one that a client uses. -/
def contextCommand (act : Desc → State → State) (d : Desc) (s : State) : Option (Nat × Nat × Nat) × State :=
  if 63 < d.unit then (some (0x02, 0, 0), s)
  else if (s.brtClient d.unit).isNone then (some (0x06, 0, 0), s)
  else (some (0, 0, 0), act d s)

/-- The buckets are reset as the operands say (R270). -/
def tokensReset (d : Desc) (s : State) : State := s.brtReset d.unit (d.arg0 % 2 == 1) (d.arg0 / 2 % 2 == 1)

/-- The queued frames are discarded, counted, and give their cells back. -/
def queueFlushed (d : Desc) (s : State) : State :=
  let x := s.brtCtx d.unit
  ((s.setBrtCtx d.unit { x with frames := [] }).brtCells d.unit (-((x.frames.foldl (fun i f => i + cellsOf f.length) 0 : Nat) : Int))).addCnt
    (R.BRT_BUFDROP_CNT d.unit) x.frames.length

section
variable {w : Instr} {op : Nat} {act : Desc → State → State} {s u : State} {e : QEntry}
  (hw : exec w s = .next (s.runCommand 17 op (contextCommand act))) (h : Started 17 op s e u)
include hw h

theorem contextCommand_noSuchUnit (hu : 63 < e.desc.unit) : Finishes w s u e 0x02 0 0 :=
  hw.trans (congrArg Host.Outcome.next (runCommand_ends h (if_pos hu)))

variable (hu : e.desc.unit ≤ 63)
include hu

theorem contextCommand_unused (hc : (u.brtClient e.desc.unit).isNone = true) : Finishes w s u e 0x06 0 0 :=
  hw.trans (congrArg Host.Outcome.next (runCommand_ends h ((if_neg (Nat.not_lt.mpr hu)).trans (if_pos hc))))

theorem contextCommand_acts (hc : (u.brtClient e.desc.unit).isNone = false) : Finishes w s (act e.desc u) e 0 0 0 :=
  hw.trans (congrArg Host.Outcome.next (runCommand_ends h ((if_neg (Nat.not_lt.mpr hu)).trans (if_neg (ne_true_of_eq_false hc)))))

end

/-- Settles O32: a frame that enters by its length, colour and room; the head frame by gate and tokens; a header by whether the context is in sync, then by the
cases of brtInSync and brtHunt; the commands by their refusals and their effect. -/
theorem packetBerthRows : Obligations.PacketBerthRows := by
  unfold Obligations.PacketBerthRows
  intro s u e client frame f l p j len2 pos at0 at1 at2 at3 h g got l0 l1 l2 e0 e1 e2 k q len shut mt met occ bufMax yel free sized coloured n v y closed need
    shaped failed gone a z sync rt span moved given erred lost synced d w
  refine ⟨brtIngressFrame_shut, brtIngressFrame_oversize, brtIngressFrame_colourDropped, brtIngressFrame_bufferFull, brtIngressFrame_poolFull,
    brtIngressFrame_queues, fun h => h.elim brtShaperRelease_shut brtShaperRelease_empty, brtShaperRelease_waits, brtShaperRelease_sends,
    headerLen_eq_some_iff, brtEgressHeader_noClient, fun hj hp hs => ⟨fun hb => ?_, fun hb hf => ⟨fun hh => ?_, fun hh => ?_⟩⟩,
    fun hj hp hs => ⟨fun hu => ?_, fun hu hh => ?_, fun hu hh => ⟨fun hb => ?_, fun hb hn => ?_, fun hb hn => ?_⟩⟩, rfl, rfl,
    fun h => ⟨contextCommand_noSuchUnit (act := tokensReset) rfl h, contextCommand_unused (act := tokensReset) rfl h,
      contextCommand_acts (act := tokensReset) rfl h⟩,
    fun h => ⟨contextCommand_noSuchUnit (act := queueFlushed) rfl h, contextCommand_unused (act := queueFlushed) rfl h,
      contextCommand_acts (act := queueFlushed) rfl h⟩⟩
  · exact brtEgressHeader_inSync hj hp hs (brtInSync_short hb)
  · exact brtEgressHeader_inSync hj hp hs (brtInSync_keeps hb hf hh)
  · exact brtEgressHeader_inSync hj hp hs (brtInSync_loses hb hf hh)
  · exact brtEgressHeader_hunts hj hp hs (brtHunt_noUnit hu)
  · exact brtEgressHeader_hunts hj hp hs (brtHunt_noHeader hu hh)
  · exact brtEgressHeader_hunts hj hp hs (brtHunt_awaitsNext hu hh hb)
  · exact brtEgressHeader_hunts hj hp hs (brtHunt_misled hu hh hb hn)
  · exact brtEgressHeader_hunts hj hp hs (brtHunt_syncs hu hh hb hn)

end Sys2Proof.Proofs

/-! PROOF. Host lanes and Quay lanes (R264, R275, R278, R279, R292, R293, Table LNK-6). Results that the table does not give are 0 (notes/assumptions/25);
what else of it is the model's choice or reading: notes/assumptions/3, 4 and 58. -/
namespace Sys2Proof.Proofs
open Sys2Proof Sys2Proof.Machine Sys2Proof.Safety Sys2Proof.Laws

/-! ### HL_SET_POWER and QL_SET_POWER -/

/-- The lanes that a power command names are in use, so that they may not leave L0 (R292). -/
def lanesInUse (quay : Bool) (unit : Nat) (s : State) : Bool := if quay then s.flag R.QLK_CTRL F.QLK_CTRL_enable else (s.laneRate unit).isSome

/-- The named lanes have entered the state asked for (Table LNK-5). -/
def lanesPowered (quay : Bool) (d : Desc) (s : State) : State := (unitLanes quay d.unit).foldl (fun s n => s.lanePower quay n (d.arg0 % 4)) s

/-- A power command that no earlier one holds up (Table LNK-6): it goes on where L0 is asked for and not reached at once. -/
def powerCommand (quay : Bool) (d : Desc) (s : State) : Option (Nat × Nat × Nat) × State :=
  if unitOk quay d.unit = false ∨ d.arg0 % 4 = 3 then (some (0x02, 0, 0), s)
  else if d.arg0 % 4 ≠ 0 ∧ lanesInUse quay d.unit s = true then (some (0x06, 0, 0), s)
  else if d.arg0 % 4 = 0 ∧ (lanesPowered quay d s).unitReady quay d.unit = false then (none, lanesPowered quay d s)
  else (some (0, b2n ((lanesPowered quay d s).unitReady quay d.unit), 0), lanesPowered quay d s)

section
variable {quay : Bool} {s u : State} {e : QEntry}

/-- The block's power command, once it may start, waits for an earlier one or runs. -/
theorem setPower_started (h : Started (if quay then 19 else 18) 0x100 s e u) :
    exec (if quay then .qlSetPower else .hlSetPower) s =
      .next (if s.laneChanging quay e.desc.unit then s else s.runCommand (if quay then 19 else 18) 0x100 (powerCommand quay)) := by
  have hx : exec (if quay then .qlSetPower else .hlSetPower) s = .next (s.setPower quay) := by cases quay <;> rfl
  rw [hx, State.setPower, h.1]
  rfl

theorem setPower_waits (h : Started (if quay then 19 else 18) 0x100 s e u) (hn : s.laneChanging quay e.desc.unit = true) :
    Does (if quay then .qlSetPower else .hlSetPower) s s := (setPower_started h).trans (congrArg Host.Outcome.next (if_pos hn))

variable (h : Started (if quay then 19 else 18) 0x100 s e u) (hn : s.laneChanging quay e.desc.unit = false)
include h hn

theorem setPower_ends {v : State} {st r0 r1 : Nat} (hf : powerCommand quay e.desc u = (some (st, r0, r1), v)) :
    Finishes (if quay then .qlSetPower else .hlSetPower) s v e st r0 r1 :=
  (setPower_started h).trans (congrArg Host.Outcome.next ((if_neg (ne_true_of_eq_false hn)).trans (runCommand_ends h hf)))

theorem setPower_malformed (hu : unitOk quay e.desc.unit = false ∨ e.desc.arg0 % 4 = 3) :
    Finishes (if quay then .qlSetPower else .hlSetPower) s u e 0x02 0 0 := setPower_ends h hn (if_pos hu)

variable (hu : unitOk quay e.desc.unit = true)
include hu

theorem setPower_inUse (h3 : e.desc.arg0 % 4 ≠ 3) (h0 : e.desc.arg0 % 4 ≠ 0) (hi : lanesInUse quay e.desc.unit u = true) :
    Finishes (if quay then .qlSetPower else .hlSetPower) s u e 0x06 0 0 :=
  setPower_ends h hn ((if_neg (not_or_intro (ne_false_of_eq_true hu) h3)).trans (if_pos ⟨h0, hi⟩))

theorem setPower_moves (h3 : e.desc.arg0 % 4 ≠ 3) (hi : e.desc.arg0 % 4 ≠ 0 → ¬ lanesInUse quay e.desc.unit u = true)
    (hr : e.desc.arg0 % 4 = 0 → (lanesPowered quay e.desc u).unitReady quay e.desc.unit = true) :
    Finishes (if quay then .qlSetPower else .hlSetPower) s (lanesPowered quay e.desc u) e 0
      (b2n ((lanesPowered quay e.desc u).unitReady quay e.desc.unit)) 0 :=
  setPower_ends h hn ((if_neg (not_or_intro (ne_false_of_eq_true hu) h3)).trans ((if_neg fun hb => hi hb.1 hb.2).trans
    (if_neg fun hb => ne_false_of_eq_true (hr hb.1) hb.2)))

theorem setPower_goesOn (h0 : e.desc.arg0 % 4 = 0) (hr : (lanesPowered quay e.desc u).unitReady quay e.desc.unit = false) :
    GoesOn (if quay then .qlSetPower else .hlSetPower) s (lanesPowered quay e.desc u) (if quay then 19 else 18) := by
  have h3 : e.desc.arg0 % 4 ≠ 3 := by omega
  refine (setPower_started h).trans (congrArg Host.Outcome.next ((if_neg (ne_true_of_eq_false hn)).trans (runCommand_goes_on h ?_)))
  exact (if_neg (not_or_intro (ne_false_of_eq_true hu) h3)).trans ((if_neg fun hb => hb.1 h0).trans (if_pos ⟨h0, hr⟩))

end

/-! ### HL_READAPT and QL_READAPT -/

theorem readapt_does (quay : Bool) (s : State) : Does (if quay then .qlReadapt else .hlReadapt) s (s.readapt quay) := by cases quay <;> rfl

section
variable {quay : Bool} {s u : State} {e : QEntry} (h : Started (if quay then 19 else 18) 0x101 s e u)
include h

theorem readapt_noSuchUnit (hu : (if quay then 8 else 24) ≤ e.desc.unit) : Finishes (if quay then .qlReadapt else .hlReadapt) s u e 0x02 0 0 :=
  (readapt_does quay s).trans (congrArg Host.Outcome.next (runCommand_ends h (if_pos hu)))

variable (hu : e.desc.unit < (if quay then 8 else 24))
include hu

theorem readapt_notL0 (hp : u.lanePstate quay e.desc.unit ≠ 0) : Finishes (if quay then .qlReadapt else .hlReadapt) s u e 0x06 0 0 :=
  (readapt_does quay s).trans (congrArg Host.Outcome.next (runCommand_ends h ((if_neg (Nat.not_le.mpr hu)).trans (if_pos hp))))

theorem readapt_adapts (hp : u.lanePstate quay e.desc.unit = 0) :
    Finishes (if quay then .qlReadapt else .hlReadapt) s (u.laneAdapt quay e.desc.unit) e 0 0 0 :=
  (readapt_does quay s).trans (congrArg Host.Outcome.next (runCommand_ends h ((if_neg (Nat.not_le.mpr hu)).trans (if_neg (not_not_intro hp)))))

end

/-! ### Adaptation and loss of signal -/

/-- The block has no such lane: there are eight Quay lanes. -/
def LaneAbsent (quay : Bool) (n : Nat) : Prop := quay = true ∧ 8 ≤ n

/-- A lane cannot become ready: it is out of L0, without signal or faulty, or a host lane out of use (R275, R278, R292, R293). -/
def LaneDeaf (quay : Bool) (n : Nat) (s : State) : Prop :=
  LaneAbsent quay n ∨ s.lanePstate quay n ≠ 0 ∨ s.laneLos quay n = true ∨ (s.lane quay n).fault = true ∨ (quay = false ∧ (s.laneRate n).isNone = true)

/-- A lane is locked and ready, with the SNR measured (R278). -/
def laneLocked (quay : Bool) (n snr : Nat) (s : State) : State :=
  let a := laneReg quay n
  ((s.setFlag a F.HLN_LANE_STATUS_cdr_lock true).setFlag a F.HLN_LANE_STATUS_rx_ready true).setFld a F.HLN_LANE_STATUS_snr snr

/-- Loss of signal is not declared: the lane is out of L0, or has lost its signal already (R278, R292). -/
def LosUndue (quay : Bool) (n : Nat) (s : State) : Prop := LaneAbsent quay n ∨ s.lanePstate quay n ≠ 0 ∨ s.laneLos quay n = true

/-- A lane has lost its signal, and is not ready (R278). -/
def laneSilent (quay : Bool) (n : Nat) (s : State) : State :=
  let a := laneReg quay n
  (s.setFlag a F.HLN_LANE_STATUS_los true).setFlag a F.HLN_LANE_STATUS_rx_ready false

section
variable {quay : Bool} {lane : Fin 24} {snr : BitVec 10} {s : State}

theorem laneRxReady_deaf (h : LaneDeaf quay lane.val s) : Does (.laneRxReady quay lane snr) s s := if_pos h

theorem laneRxReady_locks (h : ¬ LaneDeaf quay lane.val s) :
    let ready := laneLocked quay lane.val snr.toNat s
    Does (.laneRxReady quay lane snr) s ((ready.setLane quay lane.val { ready.lane quay lane.val with fromL1 := false }).powerDone quay) := if_neg h

theorem laneLosDeclared_idle (h : LosUndue quay lane.val s) : Does (.laneLosDeclared quay lane) s s := if_pos h

theorem laneLosDeclared_quay (h : ¬ LosUndue quay lane.val s) (hq : quay = true) :
    Does (.laneLosDeclared quay lane) s ((laneSilent quay lane.val s).setFlag R.QLK_STATUS F.QLK_STATUS_los_seen true) :=
  (if_neg h).trans (if_pos hq)

/-- A host lane's loss is counted, fails the host input of its clients, and is logged (R264, R278). -/
theorem laneLosDeclared_host (h : ¬ LosUndue quay lane.val s) (hq : quay = false) :
    let silent := laneSilent quay lane.val s
    Does (.laneLosDeclared quay lane) s
      ((((silent.setFlag R.HLN_STATUS F.HLN_STATUS_los_seen true).addCnt (R.HLN_LOS_CNT lane.val) 1).hostFail (silent.laneClients lane.val) true).logEvent
        0x12 sevWarn 0x0001 (evData [(1, lane.val)])) :=
  (if_neg h).trans (if_neg (ne_true_of_eq_false hq))

end

/-! ### Faults of lanes -/

/-- A lane has a fault, and is neither locked nor ready (R293). -/
def laneDown (quay : Bool) (n : Nat) (s : State) : State := (s.setLane quay n { fromL1 := false, fault := true }).laneAdapt quay n

section
variable {quay : Bool} {lane : Fin 24} {s : State}

theorem laneFault_absent (h : LaneAbsent quay lane.val) : Does (.laneFault quay lane) s s := if_pos h

theorem laneFault_quay (h : ¬ LaneAbsent quay lane.val) (hq : quay = true) : Does (.laneFault quay lane) s
    (((((laneDown quay lane.val s).setFlag R.QLK_STATUS F.QLK_STATUS_lane_fault true).logEvent 0x13 sevFault 0x0004 (evData [(1, lane.val)])).quayUnlock
      lane.val).quayIdle lane.val) :=
  (if_neg h).trans (if_pos hq)

theorem laneFault_host (hq : quay = false) :
    let down := laneDown quay lane.val s
    Does (.laneFault quay lane) s (((down.setFlag R.HLN_STATUS F.HLN_STATUS_lane_fault true).logEvent 0x12 sevFault 0x0002
      (evData [(1, lane.val)])).hostFail (down.laneClients lane.val) true) :=
  (if_neg fun h => ne_true_of_eq_false hq h.1).trans (if_neg (ne_true_of_eq_false hq))

end

/-- Settles O33: each command by the lemmas on its refusals, in their order, and on its effect; each event by the conditions it acts under, for host and Quay
lanes apart where they differ; LANE_L1_EXIT_TIMEOUT and HOST_PCS_LOCK have one equation each. -/
theorem laneRows : Obligations.LaneRows := by
  unfold Obligations.LaneRows
  intro s u e quay lane snr port locked corr uncorr d q power readapt code inUse moved n a absent deaf ready silent down cli lanes clients fixed
  exact ⟨fun h => ⟨setPower_waits h, fun hn => ⟨setPower_malformed h hn, setPower_inUse h hn, setPower_moves h hn, setPower_goesOn h hn⟩⟩,
    fun h => ⟨readapt_noSuchUnit h, readapt_notL0 h, readapt_adapts h⟩, laneRxReady_deaf, laneRxReady_locks, rfl,
    laneLosDeclared_idle, laneLosDeclared_quay, laneLosDeclared_host, does_ite rfl, laneFault_absent, laneFault_quay, laneFault_host, rfl⟩

end Sys2Proof.Proofs

/-! PROOF. The Quay link (R282, R283, R285 to R287, R289, R290, Table LNK-6). Results that the table does not give are 0 (notes/assumptions/25); what else of
it is the model's choice or reading: notes/assumptions/3, 56, 57 and 102. -/
namespace Sys2Proof.Proofs
open Sys2Proof Sys2Proof.Machine Sys2Proof.Safety Sys2Proof.Laws

/-! ### QL_SET_MAP -/

/-- The operands of a Quay map command name a unit, or no buffer of 320 bytes. -/
def QuayMapMalformed (d : Desc) : Prop := d.unit ≠ 0xFF ∨ bufferOk d.arg0 320 = false

/-- A Quay map command names the receive direction. -/
def namesReceive (d : Desc) : Bool := d.arg1 % 2 = 1

/-- The superrow that a command names for its map (R289). -/
def targetSuperrow (d : Desc) : Nat := d.arg1 / 2 ^ 32 % 2 ^ 22

/-- The map that a command brings: its slot bytes, unassigned ones as 0 (R230, R289). -/
def broughtQuayMap (d : Desc) (u : State) : List Byte := (u.bytes d.arg0 320).map (fun b => if b.getLsbD 7 then b &&& 0xBF else 0)

/-- How far the named superrow is ahead of the present one, as superrows wrap (R289). -/
def superrowsAhead (d : Desc) (u : State) : Nat := (targetSuperrow d + 2 ^ 22 - u.superrow (namesReceive d)) % 2 ^ 22

/-- What QL_SET_MAP asks of its operands: they are well formed, and the map starves no tributary (R290). -/
theorem quayMap_accepted {d : Desc} {u : State} (hm : ¬ QuayMapMalformed d) (hk : u.quayMapOk (namesReceive d) (broughtQuayMap d u) = true) :
    ¬ (d.unit ≠ 0xFF ∨ bufferOk d.arg0 320 = false ∨ u.quayMapOk (namesReceive d) (broughtQuayMap d u) = false) :=
  fun hb => (or_assoc.mpr hb).elim hm (ne_false_of_eq_true hk)

section
variable {s u : State} {e : QEntry} (h : Started 19 0x102 s e u)
include h

theorem qlSetMap_refused (hb : QuayMapMalformed e.desc ∨ u.quayMapOk (namesReceive e.desc) (broughtQuayMap e.desc u) = false) :
    Finishes .qlSetMap s u e 0x02 0 0 := congrArg Host.Outcome.next (runCommand_ends h (if_pos (or_assoc.mp hb)))

variable (hm : ¬ QuayMapMalformed e.desc) (hk : u.quayMapOk (namesReceive e.desc) (broughtQuayMap e.desc u) = true)
include hm hk

theorem qlSetMap_linkDown (hu : u.flag R.QLK_STATE F.QLK_STATE_link_up = false) :
    Finishes .qlSetMap s ((u.putQuayMap (namesReceive e.desc) (broughtQuayMap e.desc u)).quaySwitch (namesReceive e.desc)) e 0
      (u.superrow (namesReceive e.desc)) 0 :=
  congrArg Host.Outcome.next (runCommand_ends h ((if_neg (quayMap_accepted hm hk)).trans (if_pos hu)))

variable (hu : u.flag R.QLK_STATE F.QLK_STATE_link_up = true)
include hu

theorem qlSetMap_notAhead (ha : superrowsAhead e.desc u = 0 ∨ 2 ^ 21 ≤ superrowsAhead e.desc u) : Finishes .qlSetMap s u e 0x06 0 0 :=
  congrArg Host.Outcome.next (runCommand_ends h ((if_neg (quayMap_accepted hm hk)).trans ((if_neg (ne_false_of_eq_true hu)).trans (if_pos ha))))

theorem qlSetMap_pends (h0 : 0 < superrowsAhead e.desc u) (ha : superrowsAhead e.desc u < 2 ^ 21) :
    Finishes .qlSetMap s ((u.putQuayMap (namesReceive e.desc) (broughtQuayMap e.desc u)).setQuayAt (namesReceive e.desc)
      (some (targetSuperrow e.desc))) e 0 (targetSuperrow e.desc) 0 :=
  congrArg Host.Outcome.next (runCommand_ends h ((if_neg (quayMap_accepted hm hk)).trans ((if_neg (ne_false_of_eq_true hu)).trans
    (if_neg (not_or_intro (Nat.ne_of_gt h0) (Nat.not_le_of_lt ha))))))

end

/-! ### QL_READ_MAP -/

/-- The map that a command asks for: of its direction, the one in force or the other (Table LNK-6). -/
def askedQuayMap (d : Desc) (u : State) : List Byte := u.quayMap (namesReceive d) (d.arg1 / 256 % 2 = 0)

section
variable {s u : State} {e : QEntry} (h : Started 19 0x103 s e u)
include h

theorem qlReadMap_malformed (hm : QuayMapMalformed e.desc) : Finishes .qlReadMap s u e 0x02 0 0 :=
  congrArg Host.Outcome.next (runCommand_ends h (if_pos hm))

theorem qlReadMap_stores (hm : ¬ QuayMapMalformed e.desc) :
    let m := askedQuayMap e.desc u
    Finishes .qlReadMap s (u.setBytes e.desc.arg0 (m ++ List.replicate (320 - m.length) (0 : Byte))) e 0 0 0 :=
  congrArg Host.Outcome.next (runCommand_ends h (if_neg hm))

end

/-! ### QUAY_MAP_APPLY -/

section
variable {rx : Bool} {superrow : BitVec 22} {s : State}

theorem quayMapApply_switches (h : s.quayAt rx = some superrow.toNat) : Does (.quayMapApply rx superrow) s (s.quaySwitch rx) :=
  congrArg Host.Outcome.next (if_pos h)

theorem quayMapApply_idle (h : s.quayAt rx ≠ some superrow.toNat) : Does (.quayMapApply rx superrow) s s :=
  congrArg Host.Outcome.next (if_neg h)

end

/-! ### QUAY_BLOCK_RECEIVED -/

/-- A Quay lane takes no blocks: the link is off, or the lane out of L0 or faulty (R285, R292, R293). -/
def QuayLaneShut (n : Nat) (s : State) : Prop :=
  s.flag R.QLK_CTRL F.QLK_CTRL_enable = false ∨ s.lanePstate true n ≠ 0 ∨ (s.lane true n).fault = true

/-- A block's levels, turned over on an inverted lane (R283). -/
def quayLevels (n : Nat) (syms : List (Fin 4)) (s : State) : List Nat :=
  invertLevels (s.flag (R.QLK_LANE_CFG n) F.QLK_LANE_CFG_rx_inv) (syms.map (·.val))

/-- What a lane reads from a block behind its comma (R282, R283). -/
def quayBlockRead (n : Nat) (syms : List (Fin 4)) (s : State) : QuayRead :=
  quayRead (s.flag (R.QLK_LANE_CFG n) F.QLK_LANE_CFG_rx_precode) (s.quayLane n).scr ((quayLevels n syms s).drop 64)

/-- The descrambler has run on, and the comma has been judged (R282, R285). -/
def quayJudged (n : Nat) (found : Bool) (named : Option (Fin 8)) (r : QuayRead) (s : State) : State :=
  (s.setQuayLane n { s.quayLane n with scr := r.scr }).quayComma n found named

/-- A lane holds a block that it has read, the last nine at most (R286). -/
def quayKept (n : Nat) (r : QuayRead) (v : State) : State :=
  let held := (v.quayLane n).held ++ [{ seq := r.seq, ok := r.ok, payload := r.payload }]
  v.setQuayLane n { v.quayLane n with held := held.drop (held.length - 9) }

section
variable {n : Nat} {found : Bool} {named : Option (Fin 8)} {r : QuayRead} {s : State}

theorem quayTake_unlocked (h : (quayJudged n found named r s).quayLocked n = false) :
    s.quayTake n found named r = quayJudged n found named r s := if_neg (ne_true_of_eq_false h)

theorem quayTake_locked (h : (quayJudged n found named r s).quayLocked n = true) :
    let kept := quayKept n r (quayJudged n found named r s)
    s.quayTake n found named r = if r.ok then kept else kept.addCnt (R.QLK_CRC_CNT n) 1 := if_pos h

end

section
variable {lane : Fin 8} {syms : List (Fin 4)} {s : State}

theorem quayBlockReceived_shut (h : QuayLaneShut lane.val s) : Does (.quayBlockReceived lane syms) s s := if_pos h

variable (h : ¬ QuayLaneShut lane.val s)
include h

theorem quayBlockReceived_takes : Does (.quayBlockReceived lane syms) s
    (s.quayTake lane.val (commaFound (quayLevels lane.val syms s)) (commaLane (quayLevels lane.val syms s)) (quayBlockRead lane.val syms s)) := if_neg h

theorem quayBlockReceived_unlocked :
    let r := quayBlockRead lane.val syms s
    let v := quayJudged lane.val (commaFound (quayLevels lane.val syms s)) (commaLane (quayLevels lane.val syms s)) r s
    v.quayLocked lane.val = false → Does (.quayBlockReceived lane syms) s v :=
  fun hl => (quayBlockReceived_takes h).trans (congrArg Host.Outcome.next (quayTake_unlocked hl))

theorem quayBlockReceived_locked :
    let r := quayBlockRead lane.val syms s
    let v := quayJudged lane.val (commaFound (quayLevels lane.val syms s)) (commaLane (quayLevels lane.val syms s)) r s
    v.quayLocked lane.val = true → Does (.quayBlockReceived lane syms) s
      (if r.ok then quayKept lane.val r v else (quayKept lane.val r v).addCnt (R.QLK_CRC_CNT lane.val) 1) :=
  fun hl => (quayBlockReceived_takes h).trans (congrArg Host.Outcome.next (quayTake_locked hl))

end

/-! ### QUAY_ROW -/

section
variable {s : State} {seq : W32}

theorem quayRow_unlocked (h : ¬ s.fld R.QLK_STATE F.QLK_STATE_locked = 255) : Does .quayRow s s := if_pos h

variable (h : s.fld R.QLK_STATE F.QLK_STATE_locked = 255)
include h

theorem quayRow_deskewed (hd : s.flag R.QLK_STATE F.QLK_STATE_deskewed = true) : Does .quayRow s
    (if (List.range 8).all (fun n => !(s.quayLane n).held.isEmpty) then s.quayRow (s.reg R.QLK_SEQ_RX + 1) else s) :=
  does_ite ((if_neg (not_not_intro h)).trans (if_pos hd))

variable (hd : s.flag R.QLK_STATE F.QLK_STATE_deskewed = false)
include hd

/-- Every lane drops what it holds before the common seq, and the row of that seq is formed (R286). -/
theorem quayRow_deskews (hc : s.quayCommon = some seq) : Does .quayRow s
    ((forN 8 (fun n s => s.setQuayLane n { s.quayLane n with held := heldFrom seq (s.quayLane n).held }) s).quayRow seq) := by
  change execQuayRow s = _
  rw [execQuayRow, if_neg (not_not_intro h), if_neg (ne_true_of_eq_false hd), hc]

theorem quayRow_noCommon (hc : s.quayCommon = none) : Does .quayRow s
    (if (List.range 8).all (fun n => (s.quayLane n).held.length == 9) then s.setFlag R.QLK_STATUS F.QLK_STATUS_deskew_err true else s) := by
  refine does_ite ?_
  change execQuayRow s = _
  rw [execQuayRow, if_neg (not_not_intro h), if_neg (ne_true_of_eq_false hd), hc]

end

/-- Settles O34: the map commands by their refusals, in their order, and their effect; a block by whether the lane takes blocks, then by its lock once the
comma has been judged; a row by lock, deskew and the search for a common seq. -/
theorem quayLinkRows : Obligations.QuayLinkRows := by
  unfold Obligations.QuayLinkRows
  intro s u e rx superrow lane syms seq d dest t map bad up ahead asked n idle levels block v held kept locked deskewed
  exact ⟨fun h => ⟨qlSetMap_refused h, qlSetMap_linkDown h, qlSetMap_notAhead h, qlSetMap_pends h⟩,
    fun h => ⟨qlReadMap_malformed h, qlReadMap_stores h⟩,
    quayMapApply_switches, quayMapApply_idle,
    quayBlockReceived_shut, quayBlockReceived_unlocked, quayBlockReceived_locked,
    quayRow_unlocked, quayRow_deskewed, quayRow_deskews, quayRow_noCommon⟩

end Sys2Proof.Proofs

/-! PROOF. The cipher engine (R300, R302, R304, R308 to R311, R314 to R317, R319, R321, Table CPH-5). Results that the table does not give are 0
(notes/assumptions/25); what else of it is the model's choice or reading: notes/assumptions/3, 38, 100, 101 and 109. -/
namespace Sys2Proof.Proofs
open Sys2Proof Sys2Proof.Machine Sys2Proof.Safety Sys2Proof.Laws

/-! ### Transmit records -/

/-- Client n has no ciphered record of so many words in a frame of carrier c: the part has no cipher, or the client is off, on the other carrier, without slots
in the frame, or in clear (R301, R302). -/
def NoTxRecord (c : Carrier) (n words : Nat) (s : State) : Prop :=
  s.hasCipher = false ∨ s.cliOn n = false ∨ s.cliCar n ≠ c ∨ words = 0 ∨ s.protMode n 0 = 0

/-- The frame's record may activate an epoch, and is judged by the epoch then active (R304, R308). -/
def txJudged (c : Carrier) (n : Nat) (s : State) : State :=
  let f := (s.cphCar c).ftx
  (s.epochActivate n 0 f).epochJudge n 0 f

/-- The record of client n is filler: its context is squelched or shed, or CPH has an engine fault (R298, R308, R309, R319). -/
abbrev TxHeld (n : Nat) (w : State) : Prop :=
  (w.flag (R.CPH_CLIENT_STATUS n) F.CPH_CLIENT_STATUS_tx_squelch || w.cph.shedTx.contains n || w.cph.fault) = true

/-- A record counts under its epoch, and ends the abandonment of its frame (R315, Table CPH-6). -/
def txTaken (n : Nat) (w : State) : State :=
  ({ w with cph := { w.cph with abandoned := w.cph.abandoned.filter (· != n) } }).countRecord n 0

/-- A record that is cut short is counted as held (R309, R315). -/
def recordCut (c : Carrier) (n : Nat) (fr : TxFrame) (plain : List Byte) (t : State) : State :=
  (t.cutRecord c n (fr.words n) fr plain).addCnt (R.CPH_TX_HOLD_CNT n) 1

/-- A sealed record is counted, with its words of two blocks each (R300, R302). -/
def recordSealed (c : Carrier) (n : Nat) (fr : TxFrame) (plain : List Byte) (t : State) : State :=
  ((t.sealRecord c n (fr.words n) fr plain).addCnt (R.CPH_TX_REC_CNT n) 1).addCnt R.CPH_TX_BLOCK_CNT (2 * fr.words n)

section
variable {c : Carrier} {client : Fin 128} {peak : Fin 8193} {s : State} {fr : TxFrame}

theorem cphTxRecord_noFrame (hf : s.lastFrame c = none) : Does (.cphTxRecord c client peak) s s := by
  change execCphTxRecord c client peak s = _
  rw [execCphTxRecord, hf]

variable (hf : s.lastFrame c = some fr)
include hf

theorem cphTxRecord_noRecord (h : NoTxRecord c client.val (fr.words client.val) s) : Does (.cphTxRecord c client peak) s s := by
  change execCphTxRecord c client peak s = _
  rw [execCphTxRecord, hf]
  exact if_pos h

variable (h : ¬ NoTxRecord c client.val (fr.words client.val) s)
include h

/-- A record is judged and counted, then goes out as filler, cut short or sealed (R308, R309, R315). -/
theorem cphTxRecord_judges :
    let w := txJudged c client.val (s.cphWindow peak)
    let t := txTaken client.val w
    let plain := (s.client client.val).plain
    Does (.cphTxRecord c client peak) s
      (if TxHeld client.val w then t.addCnt (R.CPH_TX_HOLD_CNT client.val) 1
      else if w.cph.abandoned.contains client.val = true then recordCut c client.val fr plain t
      else recordSealed c client.val fr plain t) := by
  change execCphTxRecord c client peak s = _
  rw [execCphTxRecord, hf]
  exact if_neg h

theorem cphTxRecord_holds (hh : TxHeld client.val (txJudged c client.val (s.cphWindow peak))) :
    Does (.cphTxRecord c client peak) s
      ((txTaken client.val (txJudged c client.val (s.cphWindow peak))).addCnt (R.CPH_TX_HOLD_CNT client.val) 1) :=
  (cphTxRecord_judges hf h).trans (congrArg Host.Outcome.next (if_pos hh))

variable (hh : ¬ TxHeld client.val (txJudged c client.val (s.cphWindow peak)))
include hh

theorem cphTxRecord_cuts (ha : (txJudged c client.val (s.cphWindow peak)).cph.abandoned.contains client.val = true) :
    Does (.cphTxRecord c client peak) s
      (recordCut c client.val fr (s.client client.val).plain (txTaken client.val (txJudged c client.val (s.cphWindow peak)))) :=
  (cphTxRecord_judges hf h).trans (congrArg Host.Outcome.next ((if_neg hh).trans (if_pos ha)))

theorem cphTxRecord_seals (ha : ¬ (txJudged c client.val (s.cphWindow peak)).cph.abandoned.contains client.val = true) :
    Does (.cphTxRecord c client peak) s
      (recordSealed c client.val fr (s.client client.val).plain (txTaken client.val (txJudged c client.val (s.cphWindow peak)))) :=
  (cphTxRecord_judges hf h).trans (congrArg Host.Outcome.next ((if_neg hh).trans (if_neg ha)))

end

/-! ### Received records -/

/-- The tributary of client n's receive berth. -/
def rxTrib (n : Nat) (s : State) : Nat := s.fld (R.CLM_CLIENT_CFG n) F.CLM_CLIENT_CFG_rx_trib

/-- The words of client n's record that is due (R302). -/
def recordDue (c : Carrier) (n : Nat) (s : State) : List RxWord := tribWords (s.cphCar c).dueMf (rxTrib n s) (s.cphCar c).due

/-- The tag that the frame after the record brought (R302). -/
def tagDue (c : Carrier) (n : Nat) (s : State) : BitVec 128 := BitVec.ofNat 128 (beNat (((s.cphCar c).dueTags.drop (16 * rxTrib n s)).take 16))

/-- Client n has no ciphered record due on carrier c (R301, R310). -/
def NoRxRecord (c : Carrier) (n : Nat) (s : State) : Prop :=
  s.hasCipher = false ∨ s.cliOn n = false ∨ s.cliCar n ≠ c ∨ recordDue c n s = [] ∨ s.protMode n 1 = 0

/-- The record is taken; with its number known it may activate an epoch; it is judged by the epoch then active (R303, R304, R308). -/
def rxJudged (c : Carrier) (n trib : Nat) (s : State) : State :=
  let ready := s.dueTaken c trib
  let x := ready.cphCar c
  (if x.frxSet then ready.epochActivate n 1 x.dueF else ready).epochJudge n 1 x.dueF

/-- The receive side of client n judges no tag: its context is squelched, or CPH has an engine fault (R308, R319). -/
def RxHeld (n : Nat) (b : State) : Prop := b.flag (R.CPH_CLIENT_STATUS n) F.CPH_CLIENT_STATUS_rx_squelch = true ∨ b.cph.fault = true

/-- An absent record is counted; its words reach CLM as absent (R310). -/
def recordAbsent (n : Nat) (ws : List RxWord) (g : State) : State :=
  (g.addCnt (R.CPH_RX_ABSENT_CNT n) 1).clmGive n (ws.map (fun w => { w with absent := true }))

/-- A record that passes is counted, its plaintext reaches CLM, and the run of failures ends (R310, R311). -/
def recordPassed (c : Carrier) (n trib : Nat) (ws : List RxWord) (g : State) : State :=
  ((((g.addCnt (R.CPH_RX_OK_CNT n) 1).addCnt R.CPH_RX_BLOCK_CNT (2 * ws.length)).clmGive n (g.openRecord c n trib ws)).setFailRun n 0).setCphCar c
    { g.cphCar c with okNow := (g.cphCar c).okNow + 1, failFrames := 0 }

/-- A passed record ends the receive failure of its client and the failure of its carrier's tags (R311, R312). -/
def failuresEnded (c : Carrier) (n : Nat) (s : State) : State :=
  (if s.flag (R.CPH_CLIENT_STATUS n) F.CPH_CLIENT_STATUS_rx_fail then (s.setFlag (R.CPH_CLIENT_STATUS n) F.CPH_CLIENT_STATUS_rx_fail false).cliShow n
    else s).cphUnrec c 2 false

/-- A failed record is counted and shown, its words reach CLM marked errored, and the run of failures is one longer (R310, R311). -/
def recordFailed (c : Carrier) (n : Nat) (ws : List RxWord) (g : State) : State :=
  let counted := ((g.addCnt (R.CPH_AUTH_FAIL_CNT n) 1).setFlag R.CPH_STATUS F.CPH_STATUS_auth_fail true).clmGive n (ws.map (fun w => { w with bad := true }))
  (counted.setFailRun n (counted.failRun n + 1)).setCphCar c { g.cphCar c with badNow := (g.cphCar c).badNow + 1 }

/-- The run of failures has reached eight and client n does not show the receive failure yet (R311). -/
abbrev FailureBegins (n : Nat) (s : State) : Prop := 8 ≤ s.failRun n ∧ s.flag (R.CPH_CLIENT_STATUS n) F.CPH_CLIENT_STATUS_rx_fail = false

/-- The receive failure of client n is shown and logged (R311). -/
def failureShown (n : Nat) (s : State) : State :=
  (((s.setFlag (R.CPH_CLIENT_STATUS n) F.CPH_CLIENT_STATUS_rx_fail true).setFlag R.CPH_STATUS F.CPH_STATUS_rx_fail true).logEvent 0x14 sevWarn 0x0004
    (evData [(1, n)])).cliShow n

section
variable {c : Carrier} {client : Fin 128} {peak : Fin 8193} {s : State}

theorem cphRxRecord_noRecord (h : NoRxRecord c client.val s) : Does (.cphRxRecord c client peak) s s := if_pos h

variable (h : ¬ NoRxRecord c client.val s)
include h

theorem cphRxRecord_absent (ht : tagDue c client.val s = 0) :
    let b := rxJudged c client.val (rxTrib client.val s) (s.cphWindow peak)
    Does (.cphRxRecord c client peak) s (recordAbsent client.val (recordDue c client.val s) (b.countRecord client.val 1)) :=
  (if_neg h).trans (if_pos ht)

variable (ht : tagDue c client.val s ≠ 0)
include ht

theorem cphRxRecord_held (hd : RxHeld client.val (rxJudged c client.val (rxTrib client.val s) (s.cphWindow peak))) :
    Does (.cphRxRecord c client peak) s (rxJudged c client.val (rxTrib client.val s) (s.cphWindow peak)) :=
  (if_neg h).trans ((if_neg ht).trans (if_pos hd))

variable (hd : ¬ RxHeld client.val (rxJudged c client.val (rxTrib client.val s) (s.cphWindow peak)))
include hd

/-- A record with a tag, under an epoch in use, passes or fails by the tag that its text gives (R310). -/
theorem cphRxRecord_judges :
    let trib := rxTrib client.val s
    let ws := recordDue c client.val s
    let g := (rxJudged c client.val trib (s.cphWindow peak)).countRecord client.val 1
    let wrong := recordFailed c client.val ws g
    exec (.cphRxRecord c client peak) s =
      if g.tagMatches c client.val trib (ws.flatMap (·.bytes)) (tagDue c client.val s) = true then
        .next (failuresEnded c client.val (recordPassed c client.val trib ws g))
      else .next (if FailureBegins client.val wrong then failureShown client.val wrong else wrong) :=
  (if_neg h).trans ((if_neg ht).trans (if_neg hd))

theorem cphRxRecord_passes :
    let trib := rxTrib client.val s
    let ws := recordDue c client.val s
    let g := (rxJudged c client.val trib (s.cphWindow peak)).countRecord client.val 1
    g.tagMatches c client.val trib (ws.flatMap (·.bytes)) (tagDue c client.val s) = true →
      Does (.cphRxRecord c client peak) s (failuresEnded c client.val (recordPassed c client.val trib ws g)) :=
  fun hg => (cphRxRecord_judges h ht hd).trans (if_pos hg)

variable (hg : ¬ ((rxJudged c client.val (rxTrib client.val s) (s.cphWindow peak)).countRecord client.val 1).tagMatches c client.val (rxTrib client.val s)
  ((recordDue c client.val s).flatMap (·.bytes)) (tagDue c client.val s) = true)
include hg

theorem cphRxRecord_failureBegins :
    let g := (rxJudged c client.val (rxTrib client.val s) (s.cphWindow peak)).countRecord client.val 1
    let wrong := recordFailed c client.val (recordDue c client.val s) g
    FailureBegins client.val wrong → Does (.cphRxRecord c client peak) s (failureShown client.val wrong) :=
  fun hr => (cphRxRecord_judges h ht hd).trans ((if_neg hg).trans (congrArg Host.Outcome.next (if_pos hr)))

theorem cphRxRecord_fails :
    let g := (rxJudged c client.val (rxTrib client.val s) (s.cphWindow peak)).countRecord client.val 1
    let wrong := recordFailed c client.val (recordDue c client.val s) g
    ¬ FailureBegins client.val wrong → Does (.cphRxRecord c client peak) s wrong :=
  fun hr => (cphRxRecord_judges h ht hd).trans ((if_neg hg).trans (congrArg Host.Outcome.next (if_neg hr)))

end

/-! ### CPH_UNIT_MISMATCH -/

/-- Unit k is quarantined, which is counted and shown (R314). -/
def unitOut (k : Nat) (s : State) : State :=
  ((s.setUnit k 2).addCnt R.CPH_MISMATCH_CNT 1).setFlag R.CPH_STATUS F.CPH_STATUS_mismatch true

/-- The unit that takes over from unit k: the lowest idle one, where k was in use (R314). -/
def unitSpare (k : Nat) (s : State) : Option Nat :=
  if s.unitRole k = 0 then (List.range 26).find? (fun i => (unitOut k s).unitRole i == 1) else none

/-- The units have changed places, which is logged; without a unit brought in the event names an open one (R314). -/
def unitReplaced (k : Nat) (rxSide : Bool) (s : State) : State :=
  let drawn := (unitOut k s).draw
  (((drawn.2.unitIn (unitSpare k s)).unitCount).logEvent 0x14 sevFault 0x0001
    (evData [(1, k), (1, b2n rxSide), (1, (unitSpare k s).getD (drawn.1.toNat % 256))])).spareUsed 0x14

/-- The record of client n in flight on the unit is abandoned, unless the client is in clear or its record abandoned already (R315). -/
def recordAbandoned (s : State) (n : Fin 128) : State :=
  if s.protMode n.val 0 = 0 ∨ s.cph.abandoned.contains n.val then s
  else (({ s with cph := { s.cph with abandoned := n.val :: s.cph.abandoned } }).addCnt (R.CPH_ABANDON_CNT n.val) 1).setFlag
    R.CPH_STATUS F.CPH_STATUS_abandon true

section
variable {unit : Fin 26} {rxSide : Bool} {inFlight : List (Fin 128)} {s : State}

theorem cphUnitMismatch_idle (h : s.hasCipher = false ∨ 2 ≤ s.unitRole unit.val) : Does (.cphUnitMismatch unit rxSide inFlight) s s := if_pos h

theorem cphUnitMismatch_replaces (hc : s.hasCipher = true) (hu : s.unitRole unit.val < 2) :
    Does (.cphUnitMismatch unit rxSide inFlight) s (inFlight.foldl recordAbandoned (unitReplaced unit.val rxSide s)) := by
  refine (if_neg (not_or_intro (ne_false_of_eq_true hc) (Nat.not_le_of_lt hu))).trans ?_
  simp only [beq_iff_eq]
  rfl

end

/-! ### CP_UNIT_RETEST and CP_READ_CONTEXT -/

section
variable {s u : State} {e : QEntry} (h : Started 20 0x100 s e u)
include h

theorem cpUnitRetest_noSuchUnit (hu : 25 < e.desc.unit) : Finishes .cpUnitRetest s u e 0x02 0 0 :=
  congrArg Host.Outcome.next (runCommand_ends h (if_pos hu))

variable (hu : e.desc.unit ≤ 25)
include hu

theorem cpUnitRetest_busy (hb : u.unitRole e.desc.unit = 0 ∨ u.unitRole e.desc.unit = 3) : Finishes .cpUnitRetest s u e 0x06 0 0 :=
  congrArg Host.Outcome.next (runCommand_ends h ((if_neg (Nat.not_lt.mpr hu)).trans (if_pos hb)))

variable (h0 : u.unitRole e.desc.unit ≠ 0) (h3 : u.unitRole e.desc.unit ≠ 3)
include h0 h3

theorem cpUnitRetest_faulted (hf : u.cph.fault = true) : Finishes .cpUnitRetest s u e 0x05 0 0 :=
  congrArg Host.Outcome.next (runCommand_ends h ((if_neg (Nat.not_lt.mpr hu)).trans ((if_neg (not_or_intro h0 h3)).trans (if_pos hf))))

theorem cpUnitRetest_begins (hf : u.cph.fault = false) : GoesOn .cpUnitRetest s (u.setUnit e.desc.unit 3).unitCount 20 :=
  congrArg Host.Outcome.next (runCommand_goes_on h ((if_neg (Nat.not_lt.mpr hu)).trans ((if_neg (not_or_intro h0 h3)).trans
    (if_neg (ne_true_of_eq_false hf)))))

end

/-- The operands of CP_READ_CONTEXT name a unit, no client and direction, or no buffer of 128 bytes (Table CPH-5). -/
def ContextReadMalformed (d : Desc) : Prop := d.unit ≠ 0xFF ∨ d.arg0 / 128 % 2 = 1 ∨ 512 ≤ d.arg0 ∨ bufferOk d.arg1 128 = false

/-- The four epoch records of the client and direction that a command names (Table CPH-6). -/
def contextRecords (d : Desc) (u : State) : List Byte :=
  (List.range 4).flatMap (fun i => epochRecord (u.cph.slots.lookup (ctxNo (d.arg0 % 128) (d.arg0 / 256 % 2) i)))

section
variable {s u : State} {e : QEntry} (h : Started 20 0x101 s e u)
include h

theorem cpReadContext_malformed (hm : ContextReadMalformed e.desc) : Finishes .cpReadContext s u e 0x02 0 0 :=
  congrArg Host.Outcome.next (runCommand_ends h (if_pos hm))

theorem cpReadContext_stores (hm : ¬ ContextReadMalformed e.desc) :
    Finishes .cpReadContext s (u.setBytes e.desc.arg1 (contextRecords e.desc u)) e 0 0 0 :=
  congrArg Host.Outcome.next (runCommand_ends h (if_neg hm))

end

/-- Settles O35: a record sent by its frame, then by how it is judged; a record received by its tag, whether its side is held, and the tag that its text gives;
a mismatch by the unit's role; the commands by the lemmas on their refusals, in their order, and on their effect. -/
theorem cipherRows : Obligations.CipherRows := by
  unfold Obligations.CipherRows
  intro s u e c client peak fr unit rxSide inFlight n off shown txWords f w holds cut t plain trib ws text tag idle ready rx b dead g y good passed counted
    wrong failing k out spare drawn logged broken d m dir bad
  exact ⟨cphTxRecord_noFrame, cphTxRecord_noRecord, cphTxRecord_holds, cphTxRecord_cuts, cphTxRecord_seals,
    cphRxRecord_noRecord, cphRxRecord_absent, cphRxRecord_held, cphRxRecord_passes, cphRxRecord_failureBegins, cphRxRecord_fails,
    cphUnitMismatch_idle, cphUnitMismatch_replaces, rfl,
    fun h => ⟨cpUnitRetest_noSuchUnit h, cpUnitRetest_busy h, cpUnitRetest_faulted h, cpUnitRetest_begins h⟩,
    fun h => ⟨cpReadContext_malformed h, cpReadContext_stores h⟩⟩

end Sys2Proof.Proofs

/-! PROOF. Epochs of the traffic keys (R303, R336 to R338, Table SEC-3). What of it is the model's choice or reading: notes/assumptions/3 and 34. -/
namespace Sys2Proof.Proofs
open Sys2Proof Sys2Proof.Machine Sys2Proof.Safety Sys2Proof.Laws

/-! ### KEY_ACTIVATE -/

/-- The number of the epoch that the message m activates. -/
def activateNo (m : List Byte) : Nat := beNat (span m 16 4)

/-- The first record of the epoch that the message m activates. -/
def activateFe (m : List Byte) : Nat := beNat (span m 20 8)

/-- The message m is accepted for session g in u: its length, its MAC and its number are right, and the enclave is operational (R337). -/
def ActivateAccepted (m : List Byte) (g : SecSession) (u : State) : Prop :=
  m.length = 52 ∧ macA g.kaRx (m.take 36) = span m 36 16 ∧ nOk g.nRx (activateNo m) = true ∧ u.secStateCode = 1

/-- The Boolean that KEY_ACTIVATE decides by. -/
theorem activateAccepted_iff {m : List Byte} {g : SecSession} {u : State} :
    (m.length == 52 && macA g.kaRx (m.take 36) == span m 36 16 && nOk g.nRx (beNat (span m 16 4)) && u.secStateCode == 1) = true ↔
      ActivateAccepted m g u := by
  simp only [Bool.and_eq_true, beq_iff_eq, and_assoc]
  rfl

/-- The receive secret of session g ratcheted forward to epoch n (R337). -/
def activateSecret (n : Nat) (g : SecSession) : List Byte := ratchets (match g.nRx with | some k => n - k - 1 | none => 0) g.esRx

/-- The epoch of the message m is installed for every client of carrier c whose mode session g agrees (R306, R337). -/
def epochInstalled (c : Carrier) (m : List Byte) (g : SecSession) (fed : State) : State :=
  (fed.carClients c).foldl (fun s p =>
    if agreedMode g false (s.cliTrib p) = 0 then s
    else s.installSlot p 1 (agreedMode g false (s.cliTrib p)) (activateNo m) (activateFe m) (s.cliTrib p) (activateSecret (activateNo m) g)) fed

/-- Session g has accepted epoch n, its receive secret is one step on, and an activation is pending (R337, R339). -/
def sessionAdvanced (c : Carrier) (n : Nat) (g : SecSession) (s : State) : State :=
  ((s.setSecCar c ((s.secCar c).put { g with nRx := some n, esRx := ratchet (activateSecret n g) })).setFlag
    (R.SEC_SESS c) F.SEC_SESS_A_act_pending_rx true).sessPromote c

/-- The message m has taken effect for session g: F_rx is supplied, the epoch installed, the session advanced (R303, R337). -/
def activateTaken (c : Carrier) (m : List Byte) (g : SecSession) (u : State) : State :=
  sessionAdvanced c (activateNo m) g (epochInstalled c m g (u.supplyFrx c (beNat (span m 28 8))))

/-- The epoch's first record is not ahead of the records received (R337). -/
def activateLate (c : Carrier) (m : List Byte) (kept : State) : Bool := decide (activateFe m ≤ (kept.cphCar c).frx)

/-- A late activation is counted and logged (R337). -/
def lateShown (c : Carrier) (m : List Byte) (kept : State) : State :=
  if activateLate c m kept then
    (kept.addCnt R.SEC_LATE_ACT_CNT 1).logEvent 0x15 sevWarn 0x0004 (evData [(1, c.code), (1, 1), (4, activateNo m)])
  else kept

section
variable {c : Carrier} {s u : State} {m : List Byte} {g : SecSession}

theorem keyActivate_noMessage (h : s.secTake c 0x15 = none) : Does (.keyActivate c) s s := by
  change execKeyActivate c s = _
  rw [execKeyActivate, h]

variable (h : s.secTake c 0x15 = some (m, u))
include h

theorem keyActivate_inError (he : u.secStateCode = 3) : Does (.keyActivate c) s u := by
  change execKeyActivate c s = _
  rw [execKeyActivate, h]
  exact if_pos he

variable (he : u.secStateCode ≠ 3)
include he

theorem keyActivate_noSession (hg : (u.secCar c).bySid (m.take 16) = none) :
    Does (.keyActivate c) s ((u.addCnt R.SEC_ACT_DISCARD_CNT 1).sendAck c none m 2) := by
  change execKeyActivate c s = _
  rw [execKeyActivate, h]
  refine (if_neg he).trans ?_
  rw [hg]

variable (hg : (u.secCar c).bySid (m.take 16) = some g)
include hg

theorem keyActivate_discards (ha : ¬ ActivateAccepted m g u) :
    Does (.keyActivate c) s ((u.addCnt R.SEC_ACT_DISCARD_CNT 1).sendAck c (some g) m 2) := by
  change execKeyActivate c s = _
  rw [execKeyActivate, h]
  refine (if_neg he).trans ?_
  rw [hg]
  dsimp only
  rw [Bool.eq_false_iff.mpr (mt activateAccepted_iff.mp ha)]

theorem keyActivate_accepts (ha : ActivateAccepted m g u) :
    let kept := activateTaken c m g u
    Does (.keyActivate c) s ((lateShown c m kept).refreshModes.sendAck c (some g) m (b2n (activateLate c m kept))) := by
  change execKeyActivate c s = _
  rw [execKeyActivate, h]
  refine (if_neg he).trans ?_
  rw [hg]
  dsimp only
  rw [activateAccepted_iff.mpr ha]
  rfl

end

/-! ### KEY_ACK and its timeout -/

/-- The acknowledgement m names the last epoch that session g activated, and its length and MAC are right (R337). -/
abbrev AckMatches (m : List Byte) (g : SecSession) : Prop :=
  m.length = 40 ∧ macA g.kaRx (m.take 24) = span m 24 16 ∧ beNat (span m 16 4) + 1 = g.nTx

section
variable {c : Carrier} {s u : State} {m : List Byte} {g : SecSession}

theorem keyAck_noMessage (h : s.secTake c 0x16 = none) : Does (.keyAck c) s s := by
  change execKeyAck c s = _
  rw [execKeyAck, h]

section
variable (h : s.secTake c 0x16 = some (m, u))
include h

theorem keyAck_noSession (hg : (u.secCar c).bySid (m.take 16) = none) : Does (.keyAck c) s u := by
  change execKeyAck c s = _
  rw [execKeyAck, h]
  dsimp only
  rw [hg]

theorem keyAck_clears (hg : (u.secCar c).bySid (m.take 16) = some g) :
    Does (.keyAck c) s (if AckMatches m g then u.setFlag (R.SEC_SESS c) F.SEC_SESS_A_act_pending_tx false else u) := by
  refine does_ite ?_
  change execKeyAck c s = _
  rw [execKeyAck, h]
  dsimp only
  rw [hg]

end

theorem keyAckTimeout_noSession (h : (s.secCar c).txNext = none) : Does (.keyAckTimeout c) s s := by
  change execKeyAckTimeout c s = _
  rw [execKeyAckTimeout, h]

theorem keyAckTimeout_logsPending (h : (s.secCar c).txNext = some g) :
    Does (.keyAckTimeout c) s (if s.flag (R.SEC_SESS c) F.SEC_SESS_A_act_pending_tx then
      s.logEvent 0x15 sevWarn 0x0004 (evData [(1, c.code), (1, 0), (4, g.nTx - 1)]) else s) := by
  refine does_ite ?_
  change execKeyAckTimeout c s = _
  rw [execKeyAckTimeout, h]

end

/-- Settles O40: activation and rekeying as the rows compose them; KEY_ACTIVATE by its message, the enclave's state, the session and the judgement of the
message; KEY_ACK and its timeout by whether the session is there. -/
theorem epochRows : Obligations.EpochRows := by
  unfold Obligations.EpochRows
  intro s u c m g x y n fe good es fed installed kept late shown acked
  exact ⟨rfl, rfl, keyActivate_noMessage, keyActivate_inError,
    fun h he => ⟨keyActivate_noSession h he, keyActivate_discards h he, keyActivate_accepts h he⟩,
    keyAck_noMessage, keyAck_noSession, keyAck_clears, keyAckTimeout_noSession, keyAckTimeout_logsPending⟩

end Sys2Proof.Proofs

/-! PROOF. A step, its frame and the canonical form of the memories: a step is the front command of the queue or one crystal cycle, and neither
leaves its scope (Sys2Proof/Laws gives the scope of every meaning). -/
namespace Sys2Proof.Proofs
open Sys2Proof Sys2Proof.Machine Sys2Proof.Safety Sys2Proof.Laws

/-- Every command stays within its scope: one arm per command, each by the scope of its meaning. -/
theorem exec_within : ∀ (c : Instr) (s : State), OutWithin (scopeOf c) s (exec c s)
  | .add .., _ => execAdd_within _ _ _ _ rfl (Within.refl _ _)
  | .sub .., _ => execSub_within _ _ _ _ rfl (Within.refl _ _)
  | .and .., _ => execAnd_within _ _ _ _ rfl (Within.refl _ _)
  | .or .., _ => execOr_within _ _ _ _ rfl (Within.refl _ _)
  | .xor .., _ => execXor_within _ _ _ _ rfl (Within.refl _ _)
  | .shl .., _ => execShl_within _ _ _ _ rfl (Within.refl _ _)
  | .shr .., _ => execShr_within _ _ _ _ rfl (Within.refl _ _)
  | .sar .., _ => execSar_within _ _ _ _ rfl (Within.refl _ _)
  | .mul .., _ => execMul_within _ _ _ _ rfl (Within.refl _ _)
  | .mulh .., _ => execMulh_within _ _ _ _ rfl (Within.refl _ _)
  | .clz .., _ => execClz_within _ _ _ _ rfl (Within.refl _ _)
  | .maddq .., _ => execMaddq_within _ _ _ _ rfl (Within.refl _ _)
  | .addi .., _ => execAddi_within _ _ _ _ rfl (Within.refl _ _)
  | .lui .., _ => execLui_within _ _ _ _ rfl (Within.refl _ _)
  | .beq .., _ => execBeq_within _ _ _ _ rfl (Within.refl _ _)
  | .bne .., _ => execBne_within _ _ _ _ rfl (Within.refl _ _)
  | .blt .., _ => execBlt_within _ _ _ _ rfl (Within.refl _ _)
  | .bge .., _ => execBge_within _ _ _ _ rfl (Within.refl _ _)
  | .bltu .., _ => execBltu_within _ _ _ _ rfl (Within.refl _ _)
  | .jal .., _ => execJal_within _ _ _ rfl (Within.refl _ _)
  | .jr .., _ => execJr_within _ _ _ _ rfl (Within.refl _ _)
  | .ldB .., _ => execLdB_within _ _ _ _ rfl (Within.refl _ _)
  | .ldH .., _ => execLdH_within _ _ _ _ rfl (Within.refl _ _)
  | .ldW .., _ => execLdW_within _ _ _ _ rfl (Within.refl _ _)
  | .ldD .., _ => execLdD_within _ _ _ _ rfl (Within.refl _ _)
  | .stB .., _ => execStB_within _ _ _ _ rfl (Within.refl _ _)
  | .stH .., _ => execStH_within _ _ _ _ rfl (Within.refl _ _)
  | .stW .., _ => execStW_within _ _ _ _ rfl (Within.refl _ _)
  | .stD .., _ => execStD_within _ _ _ _ rfl (Within.refl _ _)
  | .ldx .., _ => execLdx_within _ _ _ _ rfl (Within.refl _ _)
  | .stx .., _ => execStx_within _ _ _ _ rfl (Within.refl _ _)
  | .send .., _ => execSend_within _ _ _ _ rfl (Within.refl _ _)
  | .waitt .., _ => execWaitt_within _ _ _ _ rfl (Within.refl _ _)
  | .pollt .., _ => execPollt_within _ _ _ _ rfl (Within.refl _ _)
  | .fenceR .., _ => execFenceR_within _ _ _ _ rfl (Within.refl _ _)
  | .fenceQ .., _ => execFenceQ_within _ _ _ _ rfl (Within.refl _ _)
  | .fenceA .., _ => execFenceA_within _ _ _ _ rfl (Within.refl _ _)
  | .commit .., _ => execCommit_within _ _ _ _ rfl (Within.refl _ _)
  | .claim .., _ => execClaim_within _ _ _ _ rfl (Within.refl _ _)
  | .release .., _ => execRelease_within _ _ _ _ rfl (Within.refl _ _)
  | .mfs .., _ => execMfs_within _ _ _ _ rfl (Within.refl _ _)
  | .mts .., _ => execMts_within _ _ _ _ rfl (Within.refl _ _)
  | .trap .., _ => execTrap_within _ _ _ _ rfl (Within.refl _ _)
  | .eret .., _ => execEret_within _ _ _ _ rfl (Within.refl _ _)
  | .wfe .., _ => execWfe_within _ _ _ _ rfl (Within.refl _ _)
  | .wfeWake .., _ => execWfeWake_within _ rfl (Within.refl _ _)
  | .waittTimeout .., _ => execWaittTimeout_within _ rfl (Within.refl _ _)
  | .waittTicketDone .., _ => execWaittTicketDone_within _ rfl (Within.refl _ _)
  | .observationInterrupt .., _ => execObservationInterrupt_within _ rfl (Within.refl _ _)
  | .tideBoundary, _ => execTideBoundary_within rfl (Within.refl _ _)
  | .commitPoint, _ => execCommitPoint_within rfl (Within.refl _ _)
  | .queueDepthApply, _ => execQueueDepthApply_within rfl (Within.refl _ _)
  | .snapshotWriteComplete, _ => execSnapshotWriteComplete_within rfl (Within.refl _ _)
  | .pilotMissedHbDeclare, _ => execPilotMissedHbDeclare_within rfl (Within.refl _ _)
  | .coreFaultSignal .., _ => execCoreFaultSignal_within _ _ rfl (Within.refl _ _)
  | .watchdogExpiry .., _ => execWatchdogExpiry_within _ rfl (Within.refl _ _)
  | .hawserFrameReceived .., _ => execHawserFrameReceived_within _ rfl (Within.refl _ _)
  | .hawserCopyComplete, _ => execHawserCopyComplete_within rfl (Within.refl _ _)
  | .coreRestartHoldEnd .., _ => execCoreRestartHoldEnd_within _ rfl (Within.refl _ _)
  | .coreSelftestDone .., _ => execCoreSelftestDone_within _ _ rfl (Within.refl _ _)
  | .coreReloadDone .., _ => execCoreReloadDone_within _ rfl (Within.refl _ _)
  | .waitToRestoreExpiry, _ => execWaitToRestoreExpiry_within rfl (Within.refl _ _)
  | .revertStart, _ => execRevertStart_within rfl (Within.refl _ _)
  | .coldResumeRelease, _ => execColdResumeRelease_within rfl (Within.refl _ _)
  | .pilotFault, _ => execPilotFault_within rfl (Within.refl _ _)
  | .forceBallQualified .., _ => execForceBallQualified_within _ _ _ _ rfl (Within.refl _ _)
  | .forcedTakeover, _ => execForcedTakeover_within rfl (Within.refl _ _)
  | .poresetNAssert, _ => execPoresetNAssert_within rfl (Within.refl _ _)
  | .poresetNRelease .., _ => execPoresetNRelease_within _ rfl (Within.refl _ _)
  | .resetNAssert, _ => execResetNAssert_within rfl (Within.refl _ _)
  | .resetNRelease, _ => execResetNRelease_within rfl (Within.refl _ _)
  | .hifSwreset, _ => execHifSwreset_within rfl (Within.refl _ _)
  | .perstN .., _ => execPerstN_within _ _ _ _ _ rfl (Within.refl _ _)
  | .rootPllLoss, _ => execRootPllLoss_within rfl (Within.refl _ _)
  | .rootRelockRetry .., _ => execRootRelockRetry_within _ rfl (Within.refl _ _)
  | .rootPllLocked, _ => execRootPllLocked_within rfl (Within.refl _ _)
  | .enclaveBoot .., _ => execEnclaveBoot_within _ _ rfl (Within.refl _ _)
  | .harbourManifestLoad, _ => execHarbourManifestLoad_within rfl (Within.refl _ _)
  | .crystalLoss, _ => execCrystalLoss_within rfl (Within.refl _ _)
  | .txSetState .., _ => execTxSetState_within _ rfl (Within.refl _ _)
  | .txDacSettled .., _ => execTxDacSettled_within _ rfl (Within.refl _ _)
  | .txMute .., _ => execTxMute_within _ rfl (Within.refl _ _)
  | .txLoadFir .., _ => execTxLoadFir_within _ rfl (Within.refl _ _)
  | .txLoadNlc .., _ => execTxLoadNlc_within _ rfl (Within.refl _ _)
  | .txCapture .., _ => execTxCapture_within _ rfl (Within.refl _ _)
  | .txSuperframeBoundary .., _ => execTxSuperframeBoundary_within _ _ _ rfl (Within.refl _ _)
  | .txUnderrun .., _ => execTxUnderrun_within _ rfl (Within.refl _ _)
  | .txpEngineFault .., _ => execTxpEngineFault_within _ rfl (Within.refl _ _)
  | .rxSetState .., _ => execRxSetState_within _ rfl (Within.refl _ _)
  | .rxAdcSettled .., _ => execRxAdcSettled_within _ rfl (Within.refl _ _)
  | .rxReacquire .., _ => execRxReacquire_within _ rfl (Within.refl _ _)
  | .rxCapture .., _ => execRxCapture_within _ rfl (Within.refl _ _)
  | .rxLosWindowEnd .., _ => execRxLosWindowEnd_within _ _ _ _ _ _ _ rfl (Within.refl _ _)
  | .hailCdDwellExpiry .., _ => execHailCdDwellExpiry_within _ rfl (Within.refl _ _)
  | .cdScanComplete .., _ => execCdScanComplete_within _ _ _ rfl (Within.refl _ _)
  | .trLockDeclared .., _ => execTrLockDeclared_within _ _ rfl (Within.refl _ _)
  | .trLockLost .., _ => execTrLockLost_within _ rfl (Within.refl _ _)
  | .trRangeTimeout .., _ => execTrRangeTimeout_within _ rfl (Within.refl _ _)
  | .sfPeakDetected .., _ => execSfPeakDetected_within _ _ _ rfl (Within.refl _ _)
  | .sfLockLost .., _ => execSfLockLost_within _ rfl (Within.refl _ _)
  | .reacqTimeout .., _ => execReacqTimeout_within _ rfl (Within.refl _ _)
  | .rxfEngineFault .., _ => execRxfEngineFault_within _ rfl (Within.refl _ _)
  | .rxSuperframeBoundary .., _ => execRxSuperframeBoundary_within _ _ rfl (Within.refl _ _)
  | .snrBelowThreshold .., _ => execSnrBelowThreshold_within _ rfl (Within.refl _ _)
  | .eqTapUpdate .., _ => execEqTapUpdate_within _ _ _ rfl (Within.refl _ _)
  | .eqHold .., _ => execEqHold_within _ rfl (Within.refl _ _)
  | .eqReconverge .., _ => execEqReconverge_within _ rfl (Within.refl _ _)
  | .eqReadTaps .., _ => execEqReadTaps_within _ rfl (Within.refl _ _)
  | .eqSliceRetest .., _ => execEqSliceRetest_within _ rfl (Within.refl _ _)
  | .eqzShadowCopyComplete .., _ => execEqzShadowCopyComplete_within _ rfl (Within.refl _ _)
  | .sliceFailureDeclared .., _ => execSliceFailureDeclared_within _ _ _ _ rfl (Within.refl _ _)
  | .sliceSwap .., _ => execSliceSwap_within _ rfl (Within.refl _ _)
  | .eqzCrrEngineFault .., _ => execEqzCrrEngineFault_within _ _ rfl (Within.refl _ _)
  | .crReacquire .., _ => execCrReacquire_within _ rfl (Within.refl _ _)
  | .crFreqSeed .., _ => execCrFreqSeed_within _ rfl (Within.refl _ _)
  | .crCapture .., _ => execCrCapture_within _ rfl (Within.refl _ _)
  | .fecBlockLockSearch .., _ => execFecBlockLockSearch_within _ _ rfl (Within.refl _ _)
  | .fecBlockRelease .., _ => execFecBlockRelease_within _ _ rfl (Within.refl _ _)
  | .fecSeedFail .., _ => execFecSeedFail_within _ _ rfl (Within.refl _ _)
  | .fecEngineFailed .., _ => execFecEngineFailed_within _ _ _ rfl (Within.refl _ _)
  | .fecEngineSwap .., _ => execFecEngineSwap_within _ rfl (Within.refl _ _)
  | .fecEncoderFault .., _ => execFecEncoderFault_within _ _ rfl (Within.refl _ _)
  | .fecRelock .., _ => execFecRelock_within _ rfl (Within.refl _ _)
  | .fecRetest .., _ => execFecRetest_within _ rfl (Within.refl _ _)
  | .fecCapture .., _ => execFecCapture_within _ rfl (Within.refl _ _)
  | .hlSend .., _ => execHlSend_within _ rfl (Within.refl _ _)
  | .hlRecv .., _ => execHlRecv_within _ rfl (Within.refl _ _)
  | .hailBurstStart .., _ => execHailBurstStart_within _ rfl (Within.refl _ _)
  | .hailBurstSent .., _ => execHailBurstSent_within _ rfl (Within.refl _ _)
  | .hailDetection .., _ => execHailDetection_within _ _ _ _ rfl (Within.refl _ _)
  | .hailWindowDetect .., _ => execHailWindowDetect_within _ _ _ _ rfl (Within.refl _ _)
  | .hailHeaderDecoded .., _ => execHailHeaderDecoded_within _ _ rfl (Within.refl _ _)
  | .hailBurstReceived .., _ => execHailBurstReceived_within _ _ _ rfl (Within.refl _ _)
  | .hailReceptionLost .., _ => execHailReceptionLost_within _ rfl (Within.refl _ _)
  | .hailLoss .., _ => execHailLoss_within _ rfl (Within.refl _ _)
  | .hailEngineFault .., _ => execHailEngineFault_within _ rfl (Within.refl _ _)
  | .frElwStart .., _ => execFrElwStart_within _ rfl (Within.refl _ _)
  | .frElwAnswer .., _ => execFrElwAnswer_within _ rfl (Within.refl _ _)
  | .frCaptureOh .., _ => execFrCaptureOh_within _ rfl (Within.refl _ _)
  | .elwProposeReceived .., _ => execElwProposeReceived_within _ _ rfl (Within.refl _ _)
  | .elwAnswerReceived .., _ => execElwAnswerReceived_within _ _ rfl (Within.refl _ _)
  | .elwCommitDeadline .., _ => execElwCommitDeadline_within _ rfl (Within.refl _ _)
  | .elwCommitReceived .., _ => execElwCommitReceived_within _ _ rfl (Within.refl _ _)
  | .elwSwitch .., _ => execElwSwitch_within _ rfl (Within.refl _ _)
  | .elwEntropySwitchBlock .., _ => execElwEntropySwitchBlock_within _ rfl (Within.refl _ _)
  | .elwResponderSwitch .., _ => execElwResponderSwitch_within _ rfl (Within.refl _ _)
  | .frmTxFrame .., _ => execFrmTxFrame_within _ rfl (Within.refl _ _)
  | .frmFasSearchMatch .., _ => execFrmFasSearchMatch_within _ _ _ rfl (Within.refl _ _)
  | .frmRxFrame .., _ => execFrmRxFrame_within _ _ _ _ rfl (Within.refl _ _)
  | .frmLofTimer .., _ => execFrmLofTimer_within _ _ rfl (Within.refl _ _)
  | .frmEngineFault .., _ => execFrmEngineFault_within _ rfl (Within.refl _ _)
  | .ospWindow .., _ => execOspWindow_within _ _ _ rfl (Within.refl _ _)
  | .clSetMap, _ => execClSetMap_within rfl (Within.refl _ _)
  | .clReadMap, _ => execClReadMap_within rfl (Within.refl _ _)
  | .clSetFlexeCal, _ => execClSetFlexeCal_within rfl (Within.refl _ _)
  | .flexeCalendarSwitch .., _ => execFlexeCalendarSwitch_within _ rfl (Within.refl _ _)
  | .clmIngressUnit .., _ => execClmIngressUnit_within _ _ _ rfl (Within.refl _ _)
  | .clmEgressUnit .., _ => execClmEgressUnit_within _ rfl (Within.refl _ _)
  | .brtIngressFrame .., _ => execBrtIngressFrame_within _ _ rfl (Within.refl _ _)
  | .brtShaperRelease .., _ => execBrtShaperRelease_within _ rfl (Within.refl _ _)
  | .brtEgressHeader .., _ => execBrtEgressHeader_within _ rfl (Within.refl _ _)
  | .brtGuardBandStart .., _ => execBrtGuardBandStart_within _ rfl (Within.refl _ _)
  | .brtGateClose .., _ => execBrtGateClose_within _ rfl (Within.refl _ _)
  | .brResetTokens, _ => execBrResetTokens_within rfl (Within.refl _ _)
  | .brFlush, _ => execBrFlush_within rfl (Within.refl _ _)
  | .clmBrtEngineFault .., _ => execClmBrtEngineFault_within _ rfl (Within.refl _ _)
  | .hlSetPower, _ => execHlSetPower_within rfl (Within.refl _ _)
  | .hlReadapt, _ => execHlReadapt_within rfl (Within.refl _ _)
  | .qlSetPower, _ => execQlSetPower_within rfl (Within.refl _ _)
  | .qlReadapt, _ => execQlReadapt_within rfl (Within.refl _ _)
  | .qlSetMap, _ => execQlSetMap_within rfl (Within.refl _ _)
  | .qlReadMap, _ => execQlReadMap_within rfl (Within.refl _ _)
  | .laneRxReady .., _ => execLaneRxReady_within _ _ _ rfl (Within.refl _ _)
  | .laneL1ExitTimeout .., _ => execLaneL1ExitTimeout_within _ _ rfl (Within.refl _ _)
  | .laneLosDeclared .., _ => execLaneLosDeclared_within _ _ rfl (Within.refl _ _)
  | .laneLosCleared .., _ => execLaneLosCleared_within _ _ rfl (Within.refl _ _)
  | .quayBlockReceived .., _ => execQuayBlockReceived_within _ _ rfl (Within.refl _ _)
  | .quayRow, _ => execQuayRow_within rfl (Within.refl _ _)
  | .quayMapApply .., _ => execQuayMapApply_within _ _ rfl (Within.refl _ _)
  | .laneFault .., _ => execLaneFault_within _ _ rfl (Within.refl _ _)
  | .cphTxRecord .., _ => execCphTxRecord_within _ _ _ rfl (Within.refl _ _)
  | .cphRxRecord .., _ => execCphRxRecord_within _ _ _ rfl (Within.refl _ _)
  | .cphUnitMismatch .., _ => execCphUnitMismatch_within _ _ _ rfl (Within.refl _ _)
  | .cphEngineFault, _ => execCphEngineFault_within rfl (Within.refl _ _)
  | .cpUnitRetest, _ => execCpUnitRetest_within rfl (Within.refl _ _)
  | .cpReadContext, _ => execCpReadContext_within rfl (Within.refl _ _)
  | .getStatus .., _ => execGetStatus_within _ rfl (Within.refl _ _)
  | .getIdentity .., _ => execGetIdentity_within _ rfl (Within.refl _ _)
  | .getChallenge .., _ => execGetChallenge_within _ rfl (Within.refl _ _)
  | .zeroize .., _ => execZeroize_within _ rfl (Within.refl _ _)
  | .selfTest .., _ => execSelfTest_within _ _ rfl (Within.refl _ _)
  | .loadEndorsement .., _ => execLoadEndorsement_within _ rfl (Within.refl _ _)
  | .setPolicy .., _ => execSetPolicy_within _ rfl (Within.refl _ _)
  | .startAgreement .., _ => execStartAgreement_within _ rfl (Within.refl _ _)
  | .rekeyNow .., _ => execRekeyNow_within _ rfl (Within.refl _ _)
  | .endSession .., _ => execEndSession_within _ rfl (Within.refl _ _)
  | .loadBerthManifest .., _ => execLoadBerthManifest_within _ rfl (Within.refl _ _)
  | .programAnchor .., _ => execProgramAnchor_within _ _ rfl (Within.refl _ _)
  | .revokeAnchor .., _ => execRevokeAnchor_within _ _ rfl (Within.refl _ _)
  | .debugUnlock .., _ => execDebugUnlock_within _ rfl (Within.refl _ _)
  | .setTimers .., _ => execSetTimers_within _ rfl (Within.refl _ _)
  | .challengeExpiry .., _ => execChallengeExpiry_within _ rfl (Within.refl _ _)
  | .zeroizeNQualified, _ => execZeroizeNQualified_within rfl (Within.refl _ _)
  | .zeroiseComplete .., _ => execZeroiseComplete_within _ rfl (Within.refl _ _)
  | .secErrorEntry .., _ => execSecErrorEntry_within _ rfl (Within.refl _ _)
  | .kaHello .., _ => execKaHello_within _ _ rfl (Within.refl _ _)
  | .kaResp .., _ => execKaResp_within _ rfl (Within.refl _ _)
  | .kaFinish .., _ => execKaFinish_within _ rfl (Within.refl _ _)
  | .kaConfirm .., _ => execKaConfirm_within _ rfl (Within.refl _ _)
  | .kaAbort .., _ => execKaAbort_within _ rfl (Within.refl _ _)
  | .kaTimeout .., _ => execKaTimeout_within _ rfl (Within.refl _ _)
  | .kaCollisionRetry .., _ => execKaCollisionRetry_within _ rfl (Within.refl _ _)
  | .kaRetryTimer .., _ => execKaRetryTimer_within _ rfl (Within.refl _ _)
  | .fullPeriodExpiry .., _ => execFullPeriodExpiry_within _ rfl (Within.refl _ _)
  | .epochActivation .., _ => execEpochActivation_within _ rfl (Within.refl _ _)
  | .rekeyAgeExpiry .., _ => execRekeyAgeExpiry_within _ rfl (Within.refl _ _)
  | .keyActivate .., _ => execKeyActivate_within _ rfl (Within.refl _ _)
  | .keyAck .., _ => execKeyAck_within _ rfl (Within.refl _ _)
  | .keyAckTimeout .., _ => execKeyAckTimeout_within _ rfl (Within.refl _ _)
  | .refSourceDisqualify .., _ => execRefSourceDisqualify_within _ _ rfl (Within.refl _ _)
  | .refSourceWtrExpiry .., _ => execRefSourceWtrExpiry_within _ rfl (Within.refl _ _)
  | .refMonitorWindowEnd .., _ => execRefMonitorWindowEnd_within _ _ _ _ rfl (Within.refl _ _)
  | .refSourceSwitch .., _ => execRefSourceSwitch_within _ rfl (Within.refl _ _)
  | .refLockDeclared, _ => execRefLockDeclared_within rfl (Within.refl _ _)
  | .refHoldoverOos, _ => execRefHoldoverOos_within rfl (Within.refl _ _)
  | .ppsInputEdge .., _ => execPpsInputEdge_within _ _ rfl (Within.refl _ _)
  | .refAlignPulse, _ => execRefAlignPulse_within rfl (Within.refl _ _)
  | .refPulseOutput .., _ => execRefPulseOutput_within _ rfl (Within.refl _ _)
  | .rfRealign, _ => execRfRealign_within rfl (Within.refl _ _)
  | .rfMeasure, _ => execRfMeasure_within rfl (Within.refl _ _)
  | .refLogicFault, _ => execRefLogicFault_within rfl (Within.refl _ _)
  | .pwrIdleTimerExpiry .., _ => execPwrIdleTimerExpiry_within _ _ _ rfl (Within.refl _ _)
  | .pwrEntryComplete .., _ => execPwrEntryComplete_within _ rfl (Within.refl _ _)
  | .pwrWakeEvent .., _ => execPwrWakeEvent_within _ rfl (Within.refl _ _)
  | .pwrWakeComplete .., _ => execPwrWakeComplete_within _ _ rfl (Within.refl _ _)
  | .pwWake, _ => execPwWake_within rfl (Within.refl _ _)
  | .pwPark .., _ => execPwPark_within _ _ rfl (Within.refl _ _)
  | .avsPoll .., _ => execAvsPoll_within _ _ _ _ rfl (Within.refl _ _)
  | .avsRetry .., _ => execAvsRetry_within _ _ _ _ rfl (Within.refl _ _)
  | .pwrLogicFault, _ => execPwrLogicFault_within rfl (Within.refl _ _)
  | .monTempReadout .., _ => execMonTempReadout_within _ rfl (Within.refl _ _)
  | .monRegularTrigger .., _ => execMonRegularTrigger_within _ rfl (Within.refl _ _)
  | .monTriggerDelayExpiry .., _ => execMonTriggerDelayExpiry_within _ _ rfl (Within.refl _ _)
  | .monInjectedTrigger .., _ => execMonInjectedTrigger_within _ _ rfl (Within.refl _ _)
  | .monEntryEnd .., _ => execMonEntryEnd_within _ _ _ _ rfl (Within.refl _ _)
  | .swReg .., _ => execSwReg_within _ rfl (Within.refl _ _)
  | .swInj .., _ => execSwInj_within _ rfl (Within.refl _ _)
  | .monSyncEdge, _ => execMonSyncEdge_within rfl (Within.refl _ _)
  | .mnSync, _ => execMnSync_within rfl (Within.refl _ _)
  | .mnLoadFir, _ => execMnLoadFir_within rfl (Within.refl _ _)
  | .mnCapture, _ => execMnCapture_within rfl (Within.refl _ _)
  | .tmrCompare .., _ => execTmrCompare_within _ rfl (Within.refl _ _)
  | .tmrPeriod .., _ => execTmrPeriod_within _ rfl (Within.refl _ _)
  | .monEngineFault, _ => execMonEngineFault_within rfl (Within.refl _ _)
  | .anlRunStart .., _ => execAnlRunStart_within _ rfl (Within.refl _ _)
  | .anlWindowEnd .., _ => execAnlWindowEnd_within _ rfl (Within.refl _ _)
  | .anlRunEnd .., _ => execAnlRunEnd_within _ _ rfl (Within.refl _ _)
  | .anlPauseTimeout .., _ => execAnlPauseTimeout_within _ rfl (Within.refl _ _)
  | .anlElementFailed .., _ => execAnlElementFailed_within _ _ _ rfl (Within.refl _ _)
  | .anRun, _ => execAnRun_within rfl (Within.refl _ _)
  | .anHold, _ => execAnHold_within rfl (Within.refl _ _)
  | .anClearFail, _ => execAnClearFail_within rfl (Within.refl _ _)
  | .anReadTable, _ => execAnReadTable_within rfl (Within.refl _ _)
  | .anlEngineFault, _ => execAnlEngineFault_within rfl (Within.refl _ _)
  | .mmScrub, _ => execMmScrub_within rfl (Within.refl _ _)
  | .mmReadRepair, _ => execMmReadRepair_within rfl (Within.refl _ _)
  | .scScan, _ => execScScan_within rfl (Within.refl _ _)
  | .memScuEngineFault .., _ => execMemScuEngineFault_within _ rfl (Within.refl _ _)
  | .obReadCat, _ => execObReadCat_within rfl (Within.refl _ _)
  | .obReadSamples, _ => execObReadSamples_within rfl (Within.refl _ _)
  | .obsSnapHold, _ => execObsSnapHold_within rfl (Within.refl _ _)
  | .obsSnapRelease, _ => execObsSnapRelease_within rfl (Within.refl _ _)
  | .samplerTag .., _ => execSamplerTag_within _ _ _ _ _ rfl (Within.refl _ _)
  | .logHourlySummary, _ => execLogHourlySummary_within rfl (Within.refl _ _)
  | .logEventEntryTimer, _ => execLogEventEntryTimer_within rfl (Within.refl _ _)
  | .logEntryWrite .., _ => execLogEntryWrite_within _ rfl (Within.refl _ _)
  | .logRecovery, _ => execLogRecovery_within rfl (Within.refl _ _)
  | .lgFlush, _ => execLgFlush_within rfl (Within.refl _ _)
  | .lgRead, _ => execLgRead_within rfl (Within.refl _ _)
  | .lgNote, _ => execLgNote_within rfl (Within.refl _ _)
  | .obsLogEngineFault .., _ => execObsLogEngineFault_within _ rfl (Within.refl _ _)
  | .mbxPost .., _ => execMbxPost_within _ _ _ rfl (Within.refl _ _)
  | .mbxTake .., _ => execMbxTake_within _ rfl (Within.refl _ _)
  | .mbxDone .., _ => execMbxDone_within _ _ rfl (Within.refl _ _)
  | .mbxDeadlineExpiry .., _ => execMbxDeadlineExpiry_within _ rfl (Within.refl _ _)
  | .ping .., _ => execPing_within _ rfl (Within.refl _ _)
  | .cfgWrite .., _ => execCfgWrite_within _ _ rfl (Within.refl _ _)
  | .engineCmd .., _ => execEngineCmd_within _ rfl (Within.refl _ _)
  | .cmdStatus .., _ => execCmdStatus_within _ rfl (Within.refl _ _)
  | .loadBerth .., _ => execLoadBerth_within _ rfl (Within.refl _ _)
  | .flashWrite .., _ => execFlashWrite_within _ rfl (Within.refl _ _)
  | .flashErase .., _ => execFlashErase_within _ rfl (Within.refl _ _)
  | .setBootSlot .., _ => execSetBootSlot_within _ rfl (Within.refl _ _)
  | .snapHold .., _ => execSnapHold_within _ rfl (Within.refl _ _)
  | .snapRelease .., _ => execSnapRelease_within _ rfl (Within.refl _ _)
  | .logFlush .., _ => execLogFlush_within _ rfl (Within.refl _ _)
  | .logRead .., _ => execLogRead_within _ _ rfl (Within.refl _ _)
  | .resetDevice .., _ => execResetDevice_within _ rfl (Within.refl _ _)
  | .ledgerEventWrite, _ => execLedgerEventWrite_within rfl (Within.refl _ _)
  | .swIrqRaise .., _ => execSwIrqRaise_within _ rfl (Within.refl _ _)
  | .hfFlashRead, _ => execHfFlashRead_within rfl (Within.refl _ _)
  | .hfFlashProgram, _ => execHfFlashProgram_within rfl (Within.refl _ _)
  | .hfFlashErase, _ => execHfFlashErase_within rfl (Within.refl _ _)
  | .hfLogEvent, _ => execHfLogEvent_within rfl (Within.refl _ _)
  | .flashRecoveryRead, _ => execFlashRecoveryRead_within rfl (Within.refl _ _)
  | .flashRecoveryProgram, _ => execFlashRecoveryProgram_within rfl (Within.refl _ _)
  | .flashRecoveryErase, _ => execFlashRecoveryErase_within rfl (Within.refl _ _)
  | .i2cWriteTransaction .., _ => execI2cWriteTransaction_within _ _ rfl (Within.refl _ _)
  | .i2cReadTransaction .., _ => execI2cReadTransaction_within _ _ _ rfl (Within.refl _ _)
  | .hifEngineFault, _ => execHifEngineFault_within rfl (Within.refl _ _)
  | .registerWrite .., _ => execRegisterWrite_within _ _ _ _ rfl (Within.refl _ _)
  | .hostRegisterRead .., _ => execHostRegisterRead_within _ _ rfl (Within.refl _ _)
  | .commandCompletion .., _ => execCommandCompletion_within _ _ _ _ rfl (Within.refl _ _)
  | .secMailboxResponseReady .., _ => execSecMailboxResponseReady_within _ rfl (Within.refl _ _)
  | .crystalReturn, _ => execCrystalReturn_within rfl (Within.refl _ _)
  | .hostPcsLock .., _ => execHostPcsLock_within _ _ _ _ rfl (Within.refl _ _)

/-- The pieces that a crystal cycle with no command may change. -/
def idleScope : List Piece := [.regs, .mem, .coreA, .coreB, .qc, .time, .hws, .hif, .pwr, .free, .crA, .crB, .clm, .lanes, .log, .ecc, .ref]

theorem idle_within (s : State) : Within idleScope s s.idle := State.idle_within rfl (Within.refl _ s)

theorem idle_pending (s : State) : s.idle.pending = s.pending := by
  obtain ⟨-, -, hsame⟩ := idle_within s
  exact hsame .pending rfl

theorem step_front {s : State} {c : Instr} {rest : List Instr} (h : s.pending = c :: rest) : step s = exec c { s with pending := rest } := by
  rw [step, h]

/-- Settles O3: the scope of each command's meaning. -/
theorem scopesKept : Obligations.ScopesKept := by
  unfold Obligations.ScopesKept
  exact exec_within

/-- Settles O2: a step is a crystal cycle or the front command, and both stay within a scope. -/
theorem memoriesKept : Obligations.MemoriesKept := by
  unfold Obligations.MemoriesKept
  intro s t h
  cases hp : s.pending with
  | nil =>
    rw [step_idle hp] at h
    cases h
    obtain ⟨hm, hf, -⟩ := idle_within s
    exact ⟨hm, hf⟩
  | cons c rest =>
    rw [step_front hp] at h
    obtain ⟨hm, hf, -⟩ := exec_within c _ t h
    exact ⟨hm, hf⟩

/-- Settles O1: the front command acts; a crystal cycle leaves the empty queue as it is. -/
theorem stepTakesFront : Obligations.StepTakesFront := by
  unfold Obligations.StepTakesFront
  exact ⟨fun c rest s => step_front rfl, fun s h => ⟨s.idle, step_idle h, (idle_pending s).trans h⟩⟩

end Sys2Proof.Proofs

/-! PROOF. The enclave's services (R323, R326, R327, R331 to R333, R338, R341 to R345, R503, Table SEC-8). What of them is the model's choice or
reading: notes/assumptions/12, 34 to 37 and 106. -/
namespace Sys2Proof.Proofs
open Sys2Proof Sys2Proof.Machine Sys2Proof.Safety Sys2Proof.Laws

/-! ### What every service judges first -/

/-- A row of Table SEC-8: the command, its code, the form of its arguments and the part that has it. -/
abbrev SvcRow : Type := Instr × Nat × (List Byte → Bool) × (List Byte → Bool)

/-- The command of a row is the service with the row's code, form and part. -/
def SvcRow.Runs (x : SvcRow) (s : State) (ch : Fin 2) : Prop :=
  ∃ body, exec x.1 s = .next (s.service ch x.2.1 x.2.2.1 x.2.2.2 body)

theorem SvcRow.judges {x : SvcRow} {s : State} {ch : Fin 2} (h : x.Runs s ch) :
    let due := s.svcDue ch = true ∧ s.svcCode ch = x.2.1
    let formed := s.svcHeader ch = true ∧ x.2.2.1 (s.svcArgs ch) = true
    let present := x.2.2.2 (s.svcArgs ch) = true
    (¬ due → Does x.1 s s)
    ∧ (due → ¬ formed → Does x.1 s (s.secAnswer ch 0x01 []))
    ∧ (due → formed → ¬ present → Does x.1 s (s.secAnswer ch 0x03 []))
    ∧ (due → formed → present → svcAccepted s.secStateCode x.2.1 = false → Does x.1 s (s.secAnswer ch 0x02 [])) := by
  obtain ⟨body, h⟩ := h
  exact ⟨fun hd => h.trans (congrArg _ (service_idle hd)), fun hd hf => h.trans (congrArg _ (service_malformed hd hf)),
    fun hd hf hp => h.trans (congrArg _ (service_absent hd hf (Bool.eq_false_iff.mpr hp))),
    fun hd hf hp ha => h.trans (congrArg _ (service_refused hd hf hp ha))⟩

/-- Settles O36: each command of the table is the service of its row, which judges the request first. -/
theorem enclaveRequests : Obligations.EnclaveRequests := by
  unfold Obligations.EnclaveRequests
  intro s ch code writeOk any token table x hx
  refine SvcRow.judges (?_ : SvcRow.Runs x s ch)
  revert x
  simp only [table, List.forall_mem_cons]
  exact ⟨⟨_, rfl⟩, ⟨_, rfl⟩, ⟨_, rfl⟩, ⟨_, rfl⟩, ⟨_, rfl⟩, ⟨_, rfl⟩, ⟨_, rfl⟩, ⟨_, rfl⟩, ⟨_, rfl⟩, ⟨_, rfl⟩, ⟨_, rfl⟩, ⟨_, rfl⟩, ⟨_, rfl⟩, ⟨_, rfl⟩,
    ⟨_, rfl⟩, nofun⟩


/-! ### The services without a token -/

section
variable {s : State} {ch : Fin 2} {c : Instr} {n : Nat} {l : List Byte} {form part : List Byte → Bool} {body : List Byte → State → State}

/-- A service that is asked does what its body says. -/
theorem service_does {v : State} (hc : exec c s = .next (s.service ch n form part body)) (h : Asked s ch n l (form l) (part l))
    (hv : body l s = v) : Does c s v :=
  hc.trans (congrArg _ ((service_asked h).trans hv))

end

section
variable {s : State} {ch : Fin 2} {code : Byte} {l : List Byte} (h : Asked s ch 0x05 l l.isEmpty true)
include h

theorem selfTest_passes (h0 : code.toNat = 0) : Does (.selfTest ch code) s (s.secAnswer ch 0 [0]) :=
  service_does rfl h (if_pos h0)

theorem selfTest_failsCommon (h0 : 0 < code.toNat) (hn : code.toNat < 0x20) :
    Does (.selfTest ch code) s ((s.secError code.toNat).secAnswer ch 0 [code]) :=
  service_does rfl h ((if_neg (Nat.ne_of_gt h0)).trans (if_neg (Nat.not_le.mpr hn)))

variable (hn : 0x20 ≤ code.toNat)
include hn

theorem selfTest_quarantines (hc : s.hasCipher = true) (hr : s.unitRole (code.toNat - 0x20) = 1) :
    Does (.selfTest ch code) s ((s.unitKatFail (code.toNat - 0x20)).secAnswer ch 0 [code]) :=
  service_does rfl h ((if_neg (Nat.ne_of_gt (Nat.lt_of_lt_of_le (by decide) hn))).trans ((if_pos hn).trans (if_pos ⟨hc, hr⟩)))

theorem selfTest_sparesBusy (hr : s.hasCipher = false ∨ s.unitRole (code.toNat - 0x20) ≠ 1) :
    Does (.selfTest ch code) s (s.secAnswer ch 0 [0]) := by
  have hi : ¬ (s.hasCipher = true ∧ s.unitRole (code.toNat - 0x20) = 1) := fun ⟨hc, h1⟩ => hr.elim (ne_false_of_eq_true hc) (· h1)
  exact service_does rfl h ((if_neg (Nat.ne_of_gt (Nat.lt_of_lt_of_le (by decide) hn))).trans ((if_pos hn).trans (if_neg hi)))

end

section
variable {s : State} {ch : Fin 2} {l : List Byte} (h : Asked s ch 0x10 l (l.length == 5536) true)
include h

theorem loadEndorsement_full (hf : 4 ≤ s.sec.endorse.length) : Does (.loadEndorsement ch) s (s.secAnswer ch 0x02 []) :=
  service_does rfl h (if_pos hf)

variable (hf : s.sec.endorse.length < 4)
include hf

theorem loadEndorsement_rejects (hv : s.endorseOk l idFp = false) : Does (.loadEndorsement ch) s (s.secAnswer ch 0x04 []) :=
  service_does rfl h ((if_neg (Nat.not_le.mpr hf)).trans (if_pos hv))

theorem loadEndorsement_keeps (hv : s.endorseOk l idFp = true) : Does (.loadEndorsement ch) s
    ((({ s with sec := { s.sec with endorse := s.sec.endorse ++ [l] } }).refreshModes).secAnswer ch 0 [BitVec.ofNat 8 s.sec.endorse.length]) :=
  service_does rfl h ((if_neg (Nat.not_le.mpr hf)).trans (if_neg (ne_false_of_eq_true hv)))

end

/-- REKEY_NOW's arguments name a carrier and a kind. -/
abbrev rekeyForm (l : List Byte) : Bool := l.length == 2 && carArgOk l && decide ((l.getD 1 0).toNat < 2)

section
variable {s : State} {ch : Fin 2} {l : List Byte} (h : Asked s ch 0x13 l (rekeyForm l) (s.svcPart l))
include h

theorem rekeyNow_full (hk : (l.getD 1 0).toNat = 1) : Does (.rekeyNow ch) s
    (if s.kaMay (carArg l) then (s.kaStart (carArg l) none).secAnswer ch 0 [] else s.secAnswer ch 0x02 []) :=
  service_does rfl h (if_pos hk)

theorem rekeyNow_ratchets (hk : (l.getD 1 0).toNat ≠ 1) : Does (.rekeyNow ch) s
    (((s.activate (carArg l)).map (fun t => t.secAnswer ch 0 [])).getD (s.secAnswer ch 0x02 [])) := by
  refine service_does rfl h ((if_neg hk).trans ?_)
  cases s.activate (carArg l) with
  | none => rfl
  | some t => rfl

end

/-- Settles O37: each service by its body. -/
theorem enclaveServicesOpen : Obligations.EnclaveServicesOpen := by
  unfold Obligations.EnclaveServicesOpen
  intro s ch code l c drawn n held two fullKey
  exact ⟨fun h => service_does rfl h rfl, fun h => service_does rfl h rfl, fun h => service_does rfl h rfl, rfl, fun h => service_does rfl h rfl,
    fun h => ⟨selfTest_passes h, selfTest_failsCommon h, selfTest_quarantines h, selfTest_sparesBusy h⟩,
    fun h => ⟨loadEndorsement_full h, loadEndorsement_rejects h, loadEndorsement_keeps h⟩,
    fun h => service_does rfl h rfl, fun h => service_does rfl h rfl, rekeyNow_full, rekeyNow_ratchets, fun h => service_does rfl h rfl, fun h => service_does rfl h rfl⟩

/-! ### The services with a token -/

section
variable {s : State} {ch : Fin 2} {writeOk : Bool} {l : List Byte}

/-- The anchor slot that a request names. -/
abbrev slotArg (l : List Byte) : Fin 4 := Fin.ofNat 4 (l.getD 32 0).toNat

/-- The argument of a slot is one of the four. -/
abbrev slotArgOk (l : List Byte) : Bool := decide ((l.getD 32 0).toNat < 4)

/-- The fuse write of a slot has read back wrong: the slot is damaged, logged, and the request answered 0x06 (R327). -/
abbrev spoilAnswer (ch : Fin 2) (i : Fin 4) (u : State) : State := ((u.anchorSpoil i).anchorNote i).secAnswer ch 0x06 []

section
variable (h : Asked s ch 0x20 l (l.length == 5553 && slotArgOk l) true)
include h

theorem programAnchor_unverified (ht : ¬ (s.tokenSigned ch l && (s.liveSlots == 0 || s.anchorLive (tokenFp l))) = true) :
    Does (.programAnchor ch writeOk) s ((s.setChallenge ch none).secAnswer ch 0x04 []) :=
  service_does rfl h (if_pos (Bool.eq_false_iff.mpr ht))

variable (ht : (s.tokenSigned ch l && (s.liveSlots == 0 || s.anchorLive (tokenFp l))) = true)
include ht

theorem programAnchor_forbidden (hm : ¬ (((s.setChallenge ch none).sec.anchors[slotArg l]).state = 0 ∧
    (s.setChallenge ch none).programRule (slotArg l) (span l 33 48) (tokenFp l) = true)) :
    Does (.programAnchor ch writeOk) s ((s.setChallenge ch none).secAnswer ch 0x05 []) :=
  service_does rfl h ((if_neg (ne_false_of_eq_true ht)).trans
    (if_pos ((Decidable.not_and_iff_or_not.mp hm).imp_right Bool.eq_false_iff.mpr)))

theorem programAnchor_programs (hm : ((s.setChallenge ch none).sec.anchors[slotArg l]).state = 0 ∧
    (s.setChallenge ch none).programRule (slotArg l) (span l 33 48) (tokenFp l) = true) :
    Does (.programAnchor ch writeOk) s (if writeOk then
      (((s.setChallenge ch none).setAnchor (slotArg l) { programmed := true, revoked := false, hash := hashBits (span l 33 48) }).anchorNote
        (slotArg l)).secAnswer ch 0 []
      else spoilAnswer ch (slotArg l) (s.setChallenge ch none)) := by
  obtain ⟨he, hr⟩ := hm
  exact service_does rfl h ((if_neg (ne_false_of_eq_true ht)).trans (if_neg (not_or_intro (not_not_intro he) (ne_false_of_eq_true hr))))

end

section
variable (h : Asked s ch 0x21 l (l.length == 5505 && slotArgOk l) true)
include h

theorem revokeAnchor_unverified (ht : ¬ s.tokenOk ch l = true) :
    Does (.revokeAnchor ch writeOk) s ((s.setChallenge ch none).secAnswer ch 0x04 []) :=
  service_does rfl h (if_pos (Bool.eq_false_iff.mpr ht))

/-- The slot may be revoked: it is live or damaged, and not the last live one (R327). -/
abbrev Revocable (u : State) (i : Fin 4) : Prop :=
  ((u.sec.anchors[i]).state = 1 ∨ (u.sec.anchors[i]).state = 3) ∧ u.liveSlots ≠ b2n ((u.sec.anchors[i]).state == 1)

variable (ht : s.tokenOk ch l = true)
include ht

theorem revokeAnchor_forbidden (hm : ¬ Revocable (s.setChallenge ch none) (slotArg l)) :
    Does (.revokeAnchor ch writeOk) s ((s.setChallenge ch none).secAnswer ch 0x05 []) :=
  service_does rfl h ((if_neg (ne_false_of_eq_true ht)).trans
    (if_pos ((Decidable.not_and_iff_or_not.mp hm).imp not_or.mp Decidable.not_not.mp)))

theorem revokeAnchor_revokes (hm : Revocable (s.setChallenge ch none) (slotArg l)) :
    Does (.revokeAnchor ch writeOk) s (if writeOk then
      (((s.setChallenge ch none).setAnchor (slotArg l) { (s.setChallenge ch none).sec.anchors[slotArg l] with revoked := true }).anchorNote
        (slotArg l)).secAnswer ch 0 []
      else spoilAnswer ch (slotArg l) (s.setChallenge ch none)) := by
  obtain ⟨hst, hl⟩ := hm
  exact service_does rfl h ((if_neg (ne_false_of_eq_true ht)).trans (if_neg (not_or_intro (fun ⟨h1, h3⟩ => hst.elim h1 h3) hl)))

end

end

/-- Settles O38: each service uses up the challenge, then judges the token, R327's rule and the fuse write, in this order. -/
theorem enclaveServicesOfficer : Obligations.EnclaveServicesOfficer := by
  unfold Obligations.EnclaveServicesOfficer
  intro s ch writeOk l i hash u signed may ok st must written revoked spoilt slot
  exact ⟨fun h => ⟨programAnchor_unverified h, programAnchor_forbidden h, programAnchor_programs h⟩,
    fun h => ⟨revokeAnchor_unverified h, revokeAnchor_forbidden h, revokeAnchor_revokes h⟩, fun h => service_does rfl h rfl, fun h => service_does rfl h rfl⟩

end Sys2Proof.Proofs

/-! PROOF. Peer key agreement (R330 to R332, R335, R339, Tables SEC-3 and SEC-4). What of it is the model's choice or reading: notes/assumptions/12,
31 to 34 and 106. -/
namespace Sys2Proof.Proofs
open Sys2Proof Sys2Proof.Machine Sys2Proof.Safety Sys2Proof.Laws

/-! ### Messages that belong to no exchange -/

section
variable {c : Carrier} {s u : State} {m : List Byte} {pctOk : Bool}

theorem kaHello_noMessage (h : s.secTake c 0x10 = none) : Does (.kaHello c pctOk) s s := by
  change execKaHello c pctOk s = _
  rw [execKaHello, h]

theorem kaResp_noMessage (h : s.secTake c 0x11 = none) : Does (.kaResp c) s s := by
  change execKaResp c s = _
  rw [execKaResp, h]

theorem kaFinish_noMessage (h : s.secTake c 0x12 = none) : Does (.kaFinish c) s s := by
  change execKaFinish c s = _
  rw [execKaFinish, h]

theorem kaConfirm_noMessage (h : s.secTake c 0x13 = none) : Does (.kaConfirm c) s s := by
  change execKaConfirm c s = _
  rw [execKaConfirm, h]

theorem kaAbort_noMessage (h : s.secTake c 0x14 = none) : Does (.kaAbort c) s s := by
  change execKaAbort c s = _
  rw [execKaAbort, h]

theorem kaResp_noExchange (h : s.secTake c 0x11 = some (m, u)) (hk : (s.secCar c).ka = none) : Does (.kaResp c) s u := by
  change execKaResp c s = _
  rw [execKaResp, h, hk]

theorem kaFinish_noExchange (h : s.secTake c 0x12 = some (m, u)) (hk : (s.secCar c).ka = none) : Does (.kaFinish c) s u := by
  change execKaFinish c s = _
  rw [execKaFinish, h, hk]

theorem kaConfirm_noExchange (h : s.secTake c 0x13 = some (m, u)) (hk : (s.secCar c).ka = none) : Does (.kaConfirm c) s u := by
  change execKaConfirm c s = _
  rw [execKaConfirm, h, hk]

theorem kaAbort_noExchange (h : s.secTake c 0x14 = some (m, u)) (hk : (s.secCar c).ka = none) : Does (.kaAbort c) s u := by
  change execKaAbort c s = _
  rw [execKaAbort, h, hk]

end

/-! ### KA_HELLO, and the collision of two -/

/-- The nonces of an own KA_HELLO and of one that comes (R335). -/
abbrev ownNonce (k : KaExchange) : Nat := beNat (span k.hello 16 32)
abbrev theirNonce (m : List Byte) : Nat := beNat (span m 16 32)

/-- The own exchange is given up for the peer's, with reason 0x07 (R335). -/
abbrev collisionLost (c : Carrier) (k : KaExchange) (u : State) : State := u.kaFail c { k with channel := none } 0x07 true

section
variable {c : Carrier} {s u : State} {m : List Byte} {pctOk : Bool} {k : KaExchange} (h : s.secTake c 0x10 = some (m, u))
include h

theorem kaHello_inError (he : u.secStateCode = 3) : Does (.kaHello c pctOk) s u := by
  change execKaHello c pctOk s = _
  rw [execKaHello, h]
  exact if_pos he

variable (he : u.secStateCode ≠ 3)
include he

theorem kaHello_answered (hk : (u.secCar c).ka = none) : Does (.kaHello c pctOk) s (u.kaHello c m pctOk none) := by
  change execKaHello c pctOk s = _
  rw [execKaHello, h]
  refine (if_neg he).trans ?_
  rw [hk]

variable (hk : (u.secCar c).ka = some k)
include hk

theorem kaHello_afterCollision (h0 : k.sent = 0) : Does (.kaHello c pctOk) s ((u.setKa c none).kaHello c m pctOk k.channel) := by
  change execKaHello c pctOk s = _
  rw [execKaHello, h]
  refine (if_neg he).trans ?_
  rw [hk]
  exact if_pos h0

variable (h0 : k.sent ≠ 0)
include h0

theorem kaHello_late (hs : k.sent ≠ 0x10) : Does (.kaHello c pctOk) s u := by
  change execKaHello c pctOk s = _
  rw [execKaHello, h]
  refine (if_neg he).trans ?_
  rw [hk]
  exact (if_neg h0).trans (if_pos hs)

variable (hs : k.sent = 0x10)
include hs

theorem kaHello_smallerNonce (hn : theirNonce m < ownNonce k) : Does (.kaHello c pctOk) s u := by
  change execKaHello c pctOk s = _
  rw [execKaHello, h]
  refine (if_neg he).trans ?_
  rw [hk]
  exact (if_neg h0).trans ((if_neg (not_not_intro hs)).trans (if_pos hn))

theorem kaHello_largerNonce (hn : ownNonce k < theirNonce m) :
    Does (.kaHello c pctOk) s ((collisionLost c k u).kaHello c m pctOk k.channel) := by
  change execKaHello c pctOk s = _
  rw [execKaHello, h]
  refine (if_neg he).trans ?_
  rw [hk]
  exact (if_neg h0).trans ((if_neg (not_not_intro hs)).trans ((if_neg (Nat.lt_asymm hn)).trans (if_pos hn)))

theorem kaHello_equalNonce (hn : ownNonce k = theirNonce m) : Does (.kaHello c pctOk) s
    ((collisionLost c k u).setSecCar c { (collisionLost c k u).secCar c with ka := some { k with sent := 0 }, collide := true }) := by
  change execKaHello c pctOk s = _
  rw [execKaHello, h]
  refine (if_neg he).trans ?_
  rw [hk]
  exact (if_neg h0).trans ((if_neg (not_not_intro hs)).trans ((if_neg (Nat.not_lt.mpr hn.le)).trans (if_neg (Nat.not_lt.mpr hn.ge))))

end

/-! ### KA_RESP -/

/-- The own exchange with what KA_RESP brings: the shared secrets and the peer's policy (Tables SEC-3, SEC-4). -/
abbrev withResp (k : KaExchange) (m : List Byte) : KaExchange :=
  let kem := leBytes 32 (Config.kemDecap k.kemSeed (span m 152 1568)).toNat
  let z := leBytes 48 (Config.ecdh k.ecdhPriv (span m 48 97)).toNat
  { k with resp := m.take 1848, prk := prkOf k.hello (m.take 1848) kem z, peerPolicy := span m 1720 128 }

/-- The transcript hash that the responder's signature in KA_RESP covers. -/
abbrev respHash (k : KaExchange) (m : List Byte) : List Byte := sha384 (thA (withResp k m) ++ span m 1848 5496 ++ span m 7344 5536)

/-- Checks 2 to 5 of R331 on KA_RESP. -/
abbrev respFault (u : State) (k : KaExchange) (m : List Byte) : Option Nat :=
  u.peerFault (span m 1848 5496) (span m 7344 5536) (respHash k m) (span m 12880 3408) (span m 16288 48) (kmOf (withResp k m) true)

/-- The transcript hash that the initiator's signature covers, that signature and its MAC (Table SEC-4). -/
abbrev finishHash (c : Carrier) (u : State) (k : KaExchange) (m : List Byte) : List Byte :=
  sha384 (respHash k m ++ span m 12880 3408 ++ span m 16288 48 ++ u.idc ++ u.ownEnd c)
abbrev finishSig (c : Carrier) (u : State) (k : KaExchange) (m : List Byte) : List Byte :=
  leBytes 3408 (Config.sign (finishHash c u k m)).toNat
abbrev finishMac (c : Carrier) (u : State) (k : KaExchange) (m : List Byte) : List Byte :=
  hmac384 (kmOf (withResp k m) false) (finishHash c u k m ++ finishSig c u k m)

/-- The exchange after KA_FINISH is sent. -/
abbrev finishSent (c : Carrier) (u : State) (k : KaExchange) (m : List Byte) : KaExchange :=
  { withResp k m with
    sent := 0x12, th := sha384 (finishHash c u k m ++ finishSig c u k m ++ finishMac c u k m),
    peerFp := fingerprint (idcKeys (span m 1848 5496)), peerFloor := leNat (span (span m 7344 5536) 6 1), floor := leNat (span (u.ownEnd c) 6 1) }

/-- KA_RESP has another form than Table SEC-3 gives it. -/
abbrev RespMalformed (k : KaExchange) (m : List Byte) : Prop := m.length ≠ 16336 ∨ m.take 16 ≠ k.sid ∨ policyOk (span m 1720 128) = false

section
variable {c : Carrier} {s u : State} {m : List Byte} {k : KaExchange} (h : s.secTake c 0x11 = some (m, u)) (hk : (s.secCar c).ka = some k)
include h hk

theorem kaResp_outOfTurn (hs : k.sent ≠ 0x10) : Does (.kaResp c) s u := by
  change execKaResp c s = _
  rw [execKaResp, h, hk]
  exact if_pos hs

variable (hs : k.sent = 0x10)
include hs

theorem kaResp_malformed (hm : RespMalformed k m) : Does (.kaResp c) s (u.kaFail c k 0x02 true) := by
  change execKaResp c s = _
  rw [execKaResp, h, hk]
  exact (if_neg (not_not_intro hs)).trans (if_pos hm)

variable (hm : ¬ RespMalformed k m)
include hm

theorem kaResp_rejected {why : Nat} (hf : respFault u k m = some why) : Does (.kaResp c) s (u.kaFail c (withResp k m) why true) := by
  change execKaResp c s = _
  rw [execKaResp, h, hk]
  refine (if_neg (not_not_intro hs)).trans ((if_neg hm).trans ?_)
  dsimp only
  change u.peerFault _ _ _ _ _ _ = _ at hf
  rw [hf]

theorem kaResp_finishes (hf : respFault u k m = none) : Does (.kaResp c) s ((u.setKa c (some (finishSent c u k m))).secSend c 0x12
    (k.sid ++ u.idc ++ u.ownEnd c ++ finishSig c u k m ++ finishMac c u k m)) := by
  change execKaResp c s = _
  rw [execKaResp, h, hk]
  refine (if_neg (not_not_intro hs)).trans ((if_neg hm).trans ?_)
  dsimp only
  change u.peerFault _ _ _ _ _ _ = _ at hf
  rw [hf]

end

/-! ### KA_FINISH -/

/-- The transcript hash that the initiator's signature in KA_FINISH covers, and the one that ends the exchange. -/
abbrev finishedHash (k : KaExchange) (m : List Byte) : List Byte := sha384 (k.th ++ span m 16 5496 ++ span m 5512 5536)
abbrev endHash (k : KaExchange) (m : List Byte) : List Byte := sha384 (finishedHash k m ++ span m 11048 3408 ++ span m 14456 48)

/-- Checks 2 to 5 of R331 on KA_FINISH. -/
abbrev finishFault (u : State) (k : KaExchange) (m : List Byte) : Option Nat :=
  u.peerFault (span m 16 5496) (span m 5512 5536) (finishedHash k m) (span m 11048 3408) (span m 14456 48) (kmOf k false)

/-- The exchange with the peer that KA_FINISH names. -/
abbrev withPeer (k : KaExchange) (m : List Byte) : KaExchange :=
  { k with peerFp := fingerprint (idcKeys (span m 16 5496)), peerFloor := leNat (span (span m 5512 5536) 6 1) }

/-- A message is not n bytes long, or names another exchange. -/
abbrev Stray (k : KaExchange) (m : List Byte) (n : Nat) : Prop := m.length ≠ n ∨ m.take 16 ≠ k.sid

section
variable {c : Carrier} {s u : State} {m : List Byte} {k : KaExchange} (h : s.secTake c 0x12 = some (m, u)) (hk : (s.secCar c).ka = some k)
include h hk

theorem kaFinish_outOfTurn (hs : k.sent ≠ 0x11) : Does (.kaFinish c) s u := by
  change execKaFinish c s = _
  rw [execKaFinish, h, hk]
  exact if_pos hs

variable (hs : k.sent = 0x11)
include hs

theorem kaFinish_malformed (hm : Stray k m 14504) : Does (.kaFinish c) s (u.kaFail c k 0x02 true) := by
  change execKaFinish c s = _
  rw [execKaFinish, h, hk]
  exact (if_neg (not_not_intro hs)).trans (if_pos hm)

variable (hm : ¬ Stray k m 14504)
include hm

theorem kaFinish_rejected {why : Nat} (hf : finishFault u k m = some why) : Does (.kaFinish c) s (u.kaFail c k why true) := by
  change execKaFinish c s = _
  rw [execKaFinish, h, hk]
  refine (if_neg (not_not_intro hs)).trans ((if_neg hm).trans ?_)
  dsimp only
  change u.peerFault _ _ _ _ _ _ = _ at hf
  rw [hf]

theorem kaFinish_confirms (hf : finishFault u k m = none) : Does (.kaFinish c) s
    ((u.secSend c 0x13 (k.sid ++ hmac384 (kmOf (withPeer k m) true) (endHash k m ++ ascii "confirm"))).establish c (withPeer k m) true (endHash k m)) := by
  change execKaFinish c s = _
  rw [execKaFinish, h, hk]
  refine (if_neg (not_not_intro hs)).trans ((if_neg hm).trans ?_)
  dsimp only
  change u.peerFault _ _ _ _ _ _ = _ at hf
  rw [hf]

end

/-! ### KA_CONFIRM -/

section
variable {c : Carrier} {s u : State} {m : List Byte} {k : KaExchange} (h : s.secTake c 0x13 = some (m, u)) (hk : (s.secCar c).ka = some k)
include h hk

theorem kaConfirm_outOfTurn (hs : k.sent ≠ 0x12) : Does (.kaConfirm c) s u := by
  change execKaConfirm c s = _
  rw [execKaConfirm, h, hk]
  exact if_pos hs

variable (hs : k.sent = 0x12)
include hs

theorem kaConfirm_malformed (hm : Stray k m 64) : Does (.kaConfirm c) s (u.kaFail c k 0x02 true) := by
  change execKaConfirm c s = _
  rw [execKaConfirm, h, hk]
  exact (if_neg (not_not_intro hs)).trans (if_pos hm)

variable (hm : ¬ Stray k m 64)
include hm

theorem kaConfirm_wrongMac (hx : span m 16 48 ≠ hmac384 (kmOf k true) (k.th ++ ascii "confirm")) : Does (.kaConfirm c) s (u.kaFail c k 0x05 true) := by
  change execKaConfirm c s = _
  rw [execKaConfirm, h, hk]
  exact (if_neg (not_not_intro hs)).trans ((if_neg hm).trans (if_pos hx))

theorem kaConfirm_establishes (hx : span m 16 48 = hmac384 (kmOf k true) (k.th ++ ascii "confirm")) :
    Does (.kaConfirm c) s (u.establish c k false k.th) := by
  change execKaConfirm c s = _
  rw [execKaConfirm, h, hk]
  exact (if_neg (not_not_intro hs)).trans ((if_neg hm).trans (if_neg (not_not_intro hx)))

end

/-! ### KA_ABORT -/

/-- The reason that KA_ABORT gives. -/
abbrev abortReason (m : List Byte) : Nat := leNat (span m 16 1)

/-- The peer rejected the endorsement, and another one is held (R332). -/
abbrev moreEndorsements (c : Carrier) (u : State) (m : List Byte) : Bool :=
  abortReason m == 0x04 && decide ((u.secCar c).endIdx + 1 < u.sec.endorse.length)

/-- An initiator tries the next endorsement at once (R332). -/
abbrev triesNext (c : Carrier) (u : State) (k : KaExchange) (m : List Byte) : Bool := moreEndorsements c u m && k.sent == 0x12

/-- The exchange has ended with the reason given, and the endorsement to send next is chosen. -/
abbrev aborted (c : Carrier) (u : State) (k : KaExchange) (m : List Byte) : State :=
  let ended := u.kaFail c (if triesNext c u k m then { k with channel := none } else k) (abortReason m) false
  let i := if abortReason m = 0x04 then (if moreEndorsements c u m then (u.secCar c).endIdx + 1 else 0) else (u.secCar c).endIdx
  ended.setSecCar c { ended.secCar c with endIdx := i }

section
variable {c : Carrier} {s u : State} {m : List Byte} {k : KaExchange} (h : s.secTake c 0x14 = some (m, u)) (hk : (s.secCar c).ka = some k)
include h hk

theorem kaAbort_stray (hm : Stray k m 20) : Does (.kaAbort c) s u := by
  change execKaAbort c s = _
  rw [execKaAbort, h, hk]
  exact if_pos hm

theorem kaAbort_ends (hm : ¬ Stray k m 20) : Does (.kaAbort c) s (if triesNext c u k m then
    (if (aborted c u k m).kaMay c then (aborted c u k m).kaStart c k.channel else (aborted c u k m).kaAnswer c k) else aborted c u k m) := by
  refine does_ite ?_
  rw [apply_ite Host.Outcome.next]
  change execKaAbort c s = _
  rw [execKaAbort, h, hk]
  exact if_neg hm

end

/-! ### Timers -/

section
variable {c : Carrier} {s : State} {k : KaExchange} {g : SecSession}

theorem kaTimeout_noExchange (hk : (s.secCar c).ka = none) : Does (.kaTimeout c) s s := by
  change execKaTimeout c s = _
  rw [execKaTimeout, hk]

theorem kaTimeout_ends (hk : (s.secCar c).ka = some k) :
    Does (.kaTimeout c) s (if k.sent = 0 ∨ (s.secTake c (kaAwaits k.sent)).isSome then s else s.kaFail c k 0x01 true) := by
  refine does_ite ?_
  change execKaTimeout c s = _
  rw [execKaTimeout, hk]

theorem kaCollisionRetry_noExchange (hk : (s.secCar c).ka = none) : Does (.kaCollisionRetry c) s s := by
  change execKaCollisionRetry c s = _
  rw [execKaCollisionRetry, hk]

/-- The undecided collision is forgotten. -/
abbrev collisionCleared (c : Carrier) (s : State) : State := s.setSecCar c { s.secCar c with ka := none, collide := false }

theorem kaCollisionRetry_starts (hk : (s.secCar c).ka = some k) : Does (.kaCollisionRetry c) s
    (if (s.secCar c).collide = true ∧ k.sent = 0 then
      (if (collisionCleared c s).kaMay c then (collisionCleared c s).kaStart c k.channel else (collisionCleared c s).kaAnswer c k) else s) := by
  refine does_ite ?_
  rw [apply_ite Host.Outcome.next]
  change execKaCollisionRetry c s = _
  rw [execKaCollisionRetry]
  dsimp only
  rw [hk]

theorem fullPeriodExpiry_noSession (hg : (s.secCar c).cur = none) : Does (.fullPeriodExpiry c) s s := by
  change execFullPeriodExpiry c s = _
  rw [execFullPeriodExpiry, hg]

theorem fullPeriodExpiry_starts (hg : (s.secCar c).cur = some g) :
    Does (.fullPeriodExpiry c) s (if g.responder = false ∧ s.kaMay c = true then s.kaStart c none else s) := by
  change execFullPeriodExpiry c s = _
  rw [execFullPeriodExpiry, hg]

end

/-- Settles O39: each message by its place in the exchange, its form and its checks; each timer by whether the exchange or session is there. -/
theorem keyExchangeRows : Obligations.KeyExchangeRows := by
  unfold Obligations.KeyExchangeRows
  intro s u c pctOk m k g x awaits own other drop kr idcR eR sigR macR thR thc sigI macI kf idcF eF thF thEnd ke reason y more retry ended next mine cleared
  refine ⟨kaHello_noMessage, kaResp_noMessage, kaFinish_noMessage, kaConfirm_noMessage, kaAbort_noMessage, kaResp_noExchange, kaFinish_noExchange,
    kaConfirm_noExchange, kaAbort_noExchange, kaHello_inError, fun h he => ?_, fun ⟨h, hk⟩ => ?_, fun ⟨h, hk⟩ => ?_, fun ⟨h, hk⟩ => ?_, fun ⟨h, hk⟩ => ?_,
    fun hk => ⟨kaTimeout_noExchange hk, kaCollisionRetry_noExchange hk⟩, kaTimeout_ends, kaCollisionRetry_starts, rfl, fullPeriodExpiry_noSession,
    fullPeriodExpiry_starts⟩
  · have sent : k.sent = 0x10 → k.sent ≠ 0 := by omega
    exact ⟨kaHello_answered h he, kaHello_afterCollision h he, fun hk => kaHello_late h he hk,
      fun hk hs => kaHello_smallerNonce h he hk (sent hs) hs, fun hk hs => kaHello_largerNonce h he hk (sent hs) hs,
      fun hk hs => kaHello_equalNonce h he hk (sent hs) hs⟩
  · refine ⟨kaResp_outOfTurn h hk, kaResp_malformed h hk, fun ⟨hsid, hs, hl⟩ hp => ?_, fun ⟨hsid, hs, hl⟩ hp => ?_⟩ <;>
      have hm : ¬ RespMalformed k m := not_or_intro (not_not_intro hl) (not_or_intro (not_not_intro hsid) (ne_false_of_eq_true hp))
    · exact fun why => kaResp_rejected h hk hs hm
    · exact kaResp_finishes h hk hs hm
  · refine ⟨kaFinish_outOfTurn h hk, kaFinish_malformed h hk, fun ⟨hsid, hs, hl⟩ => ?_, fun ⟨hsid, hs, hl⟩ => ?_⟩ <;>
      have hm : ¬ Stray k m 14504 := not_or_intro (not_not_intro hl) (not_not_intro hsid)
    · exact fun why => kaFinish_rejected h hk hs hm
    · exact kaFinish_confirms h hk hs hm
  · refine ⟨kaConfirm_outOfTurn h hk, kaConfirm_malformed h hk, fun ⟨hsid, hs, hl⟩ => ?_, fun ⟨hsid, hs, hl⟩ => ?_⟩ <;>
      have hm : ¬ Stray k m 64 := not_or_intro (not_not_intro hl) (not_not_intro hsid)
    · exact kaConfirm_wrongMac h hk hs hm
    · exact kaConfirm_establishes h hk hs hm
  · exact ⟨kaAbort_stray h hk, fun hl hsid => kaAbort_ends h hk (not_or_intro (not_not_intro hl) (not_not_intro hsid))⟩

end Sys2Proof.Proofs

/-! PROOF. Takeovers that are no failures (R348, R352, R358, R360 to R362, R490). What of them is the model's choice or reading: notes/assumptions/3
and 40 to 42. -/
namespace Sys2Proof.Proofs
open Sys2Proof Sys2Proof.Machine Sys2Proof.Safety Sys2Proof.Laws

/-! ### Revert -/

section
variable {s : State} {x : CoreSnap}

theorem waitToRestoreExpiry_idle (h : s.roleOf .A ≠ 1) : Does .waitToRestoreExpiry s s := if_neg h

theorem waitToRestoreExpiry_marks (h : s.roleOf .A = 1) : Does .waitToRestoreExpiry s
    (({ s with pilot := { s.pilot with wtrDone := true } }).setFlag R.PLT_STATUS F.PLT_STATUS_wtr_run false) := if_pos h

/-- A handover to core A may act: it is due, the copy is whole, core B is active and the pilot works (R358). -/
abbrev RevertDue (s : State) : Prop := s.pilot.handover = true ∧ s.hws.copy = none ∧ s.active = some .B ∧ s.pilot.ok = true

/-- What REVERT_START asks before it does nothing. -/
abbrev RevertBarred (s : State) : Prop := s.pilot.handover = false ∨ s.hws.copy.isSome = true ∨ s.active ≠ some .B ∨ s.pilot.ok = false

theorem revertBarred_iff : RevertBarred s ↔ ¬ RevertDue s := by
  simp only [RevertBarred, RevertDue, Decidable.not_and_iff_or_not, Bool.not_eq_true, Option.isSome_iff_ne_none]

theorem revertStart_outOfSync (h : s.standbySnap .A = none) : Does .revertStart s s := by
  change execRevertStart s = _
  rw [execRevertStart, h]

theorem revertStart_barred (hd : ¬ RevertDue s) : Does .revertStart s s := by
  change execRevertStart s = _
  rw [execRevertStart]
  cases s.standbySnap .A with
  | none => rfl
  | some x => exact if_pos (revertBarred_iff.mpr hd)

/-- The EPOCH that a takeover gives. -/
abbrev epochGiven (s : State) : W16 := nextEpoch s.pilot.lastEpoch

/-- Core A has started beside core B: the dual-active window, with both epochs live (R358). -/
abbrev bothActive (s : State) (x : CoreSnap) : State :=
  let calm : State := { s with pilot := { s.pilot with handover := false } }
  (((calm.startSnap .A x (epochGiven s)).setRoleOf .A 0).setDual true).setLive [epochGiven s, s.coreB.epoch]

theorem revertStart_reverts (h : s.standbySnap .A = some x) (hd : RevertDue s) : Does .revertStart s
    ((((((bothActive s x).addCnt R.PLT_REVERT_CNT 1).setFlag R.PLT_STATUS_EV F.PLT_STATUS_EV_revert true).noteTotal 16 1).pltLast 6 0x19
      s.coreB.epoch).logEvent 0x1A sevInfo 0x0002 (evData [(2, s.coreB.epoch.toNat), (2, (epochGiven s).toNat)])) := by
  change execRevertStart s = _
  rw [execRevertStart, h]
  exact if_neg (fun hb => revertBarred_iff.mp hb hd)

end

/-! ### Cold resume -/

section
variable {s : State} {k : CoreId} {t : W64}

theorem coldResumeRelease_noneWaits (h : s.pilot.pendCold = none) : Does .coldResumeRelease s s := by
  change execColdResumeRelease s = _
  rw [execColdResumeRelease, h]

/-- What releases a core that waits since tide t: no core is active, a later tide has come, and the core still resyncs (R360). -/
abbrev ColdDue (s : State) (k : CoreId) (t : W64) : Prop := s.active.isNone = true ∧ s.time.tide ≠ t ∧ s.roleOf k = 2

theorem coldResumeRelease_waits (h : s.pilot.pendCold = some (k, t)) (hd : ¬ ColdDue s k t) : Does .coldResumeRelease s s := by
  change execColdResumeRelease s = _
  rw [execColdResumeRelease, h]
  exact congrArg _ (if_neg hd)

theorem coldResumeRelease_releases (h : s.pilot.pendCold = some (k, t)) (hd : ColdDue s k t) : Does .coldResumeRelease s (s.coldResume k 0) := by
  change execColdResumeRelease s = _
  rw [execColdResumeRelease, h]
  exact congrArg _ (if_pos hd)

end

/-! ### The FORCE balls -/

/-- The FORCE balls are heard: the pilot works, or PILOT_OK has never been shown high (R362). -/
abbrev ForceHeard (s : State) : Prop := s.pilot.ok = true ∨ s.flag R.PLT_STATUS F.PLT_STATUS_pilot_ok = false

/-- The levels of the FORCE balls are shown. -/
abbrev forceSeen (s : State) (lowA lowB : Bool) : State :=
  let levels : State := { s with pins := { s.pins with forceAN := !lowA, forceBN := !lowB } }
  (levels.setFlag R.PLT_STATUS F.PLT_STATUS_force_a lowA).setFlag R.PLT_STATUS F.PLT_STATUS_force_b lowB

/-- The core that one edge names. -/
abbrev forceNamed (edgeA : Bool) : CoreId := if edgeA then .A else .B

theorem oneEdge {a b : Bool} (h : a ≠ b) : ¬ (a && b) = true ∧ ¬ (!a && !b) = true := by
  decide +revert

section
variable {s : State} {edgeA edgeB lowA lowB : Bool}

theorem forceHeard_iff : ¬ ForceHeard s ↔ s.pilot.ok = false ∧ s.flag R.PLT_STATUS F.PLT_STATUS_pilot_ok = true := by
  rw [not_or, Bool.not_eq_true, Bool.not_eq_false]

theorem forceBall_unheard (h : ¬ ForceHeard s) : Does (.forceBallQualified edgeA edgeB lowA lowB) s s := if_pos (forceHeard_iff.mp h)

variable (h : ForceHeard s)
include h

theorem forceBall_conflicts (hA : edgeA = true) (hB : edgeB = true) : Does (.forceBallQualified edgeA edgeB lowA lowB) s
    (((forceSeen s lowA lowB).setFlag R.PLT_STATUS_EV F.PLT_STATUS_EV_force_conflict true).logEvent 0x1A sevWarn 0x0007 []) := by
  subst hA hB
  exact if_neg (fun hn => forceHeard_iff.mpr hn h)

theorem forceBall_noEdge (hA : edgeA = false) (hB : edgeB = false) :
    Does (.forceBallQualified edgeA edgeB lowA lowB) s (forceSeen s lowA lowB) := by
  subst hA hB
  exact if_neg (fun hn => forceHeard_iff.mpr hn h)

variable (hE : edgeA ≠ edgeB)
include hE

theorem forceBall_active (hr : (forceSeen s lowA lowB).roleOf (forceNamed edgeA) = 0) :
    Does (.forceBallQualified edgeA edgeB lowA lowB) s (forceSeen s lowA lowB) := by
  obtain ⟨hAB, hNone⟩ := oneEdge hE
  change execForceBallQualified edgeA edgeB lowA lowB s = _
  rw [execForceBallQualified, if_neg (fun hn => forceHeard_iff.mpr hn h)]
  dsimp only
  rw [if_neg hAB, if_neg hNone, hr]
  rfl

theorem forceBall_failed (hr : (forceSeen s lowA lowB).roleOf (forceNamed edgeA) = 3) : Does (.forceBallQualified edgeA edgeB lowA lowB) s
    ((forceSeen s lowA lowB).setFlag R.PLT_STATUS_EV F.PLT_STATUS_EV_force_refused true) := by
  obtain ⟨hAB, hNone⟩ := oneEdge hE
  change execForceBallQualified edgeA edgeB lowA lowB s = _
  rw [execForceBallQualified, if_neg (fun hn => forceHeard_iff.mpr hn h)]
  dsimp only
  rw [if_neg hAB, if_neg hNone, hr]
  rfl

theorem forceBall_standby (hr : (forceSeen s lowA lowB).roleOf (forceNamed edgeA) = 1 ∨ (forceSeen s lowA lowB).roleOf (forceNamed edgeA) = 2) :
    Does (.forceBallQualified edgeA edgeB lowA lowB) s { forceSeen s lowA lowB with
      pilot := { (forceSeen s lowA lowB).pilot with pendForce := some (forceNamed edgeA, (forceSeen s lowA lowB).time.tide) } } := by
  obtain ⟨hAB, hNone⟩ := oneEdge hE
  change execForceBallQualified edgeA edgeB lowA lowB s = _
  rw [execForceBallQualified, if_neg (fun hn => forceHeard_iff.mpr hn h)]
  dsimp only
  rw [if_neg hAB, if_neg hNone]
  rcases hr with hr | hr <;> rw [hr] <;> rfl

end

/-! ### FORCED_TAKEOVER -/

/-- The pending request of a FORCE ball is taken. -/
abbrev forceTaken (s : State) : State := { s with pilot := { s.pilot with pendForce := none } }

theorem roleOf_forceTaken (s : State) (k : CoreId) : (forceTaken s).roleOf k = s.roleOf k := by cases k <;> rfl

theorem standbySnap_forceTaken (s : State) (k : CoreId) : (forceTaken s).standbySnap k = s.standbySnap k := by cases k <;> rfl

theorem standbySnap_roleOf {s : State} {k : CoreId} (h : s.roleOf k ≠ 1) : s.standbySnap k = none := if_neg h

/-- The block of the core that was active, 0 with none. -/
abbrev takenFrom (s : State) : Nat := (s.active.map CoreId.block).getD 0

/-- A takeover is counted and shown as a fail-over. -/
abbrev failoverCounted (u : State) : State := (u.addCnt R.PLT_FAILOVER_CNT 1).noteTotal 12 1

/-- The takeover is shown as forced. -/
abbrev forcedShown (u : State) : State := u.setFlag R.PLT_STATUS_EV F.PLT_STATUS_EV_forced true

/-- A core in sync takes over from its snapshot. -/
abbrev forcedSwap (s : State) (k : CoreId) (x : CoreSnap) : State :=
  (((forceTaken s).revertStaged).startSnap k x (epochGiven s)).soleActive k (epochGiven s)

/-- The end of a forced takeover by a core in sync. -/
abbrev forcedEnd (s : State) (k : CoreId) (u : State) : State :=
  ((forcedShown (failoverCounted u)).pltLast 5 (takenFrom s) s.pilot.lastEpoch).logEvent 0x1A sevWarn 0x0004 (evData [(1, k.block)])

/-- A resyncing core takes over as in a cold resume. -/
abbrev forcedEntry (s : State) (k : CoreId) : State := (forceTaken s).revertStaged.coldResume k (takenFrom s)

section
variable {s : State} {k j : CoreId} {x : CoreSnap} {t : W64}

theorem forcedTakeover_noneWaits (h : s.pilot.pendForce = none) : Does .forcedTakeover s s := by
  change execForcedTakeover s = _
  rw [execForcedTakeover, h]

variable (h : s.pilot.pendForce = some (k, t))
include h

theorem forcedTakeover_waits (hw : s.time.tide = t ∨ s.pilot.dual = true) : Does .forcedTakeover s s := by
  change execForcedTakeover s = _
  rw [execForcedTakeover, h]
  exact if_pos hw

variable (hw : ¬ (s.time.tide = t ∨ s.pilot.dual = true))
include hw

section
variable (hr : s.roleOf k = 1) (hx : s.standbySnap k = some x)
include hr hx

theorem forcedTakeover_swapsAlone (ho : s.active = none) : Does .forcedTakeover s (forcedEnd s k (forcedSwap s k x)) := by
  change execForcedTakeover s = _
  rw [execForcedTakeover, h]
  refine (if_neg hw).trans ?_
  dsimp only
  rw [roleOf_forceTaken, standbySnap_forceTaken, hr, hx, forcedEnd, takenFrom, ho]
  rfl

theorem forcedTakeover_swaps (ho : s.active = some j) :
    Does .forcedTakeover s (forcedEnd s k ((forcedSwap s k x).forceOut j (epochGiven s))) := by
  change execForcedTakeover s = _
  rw [execForcedTakeover, h]
  refine (if_neg hw).trans ?_
  dsimp only
  rw [roleOf_forceTaken, standbySnap_forceTaken, hr, hx, forcedEnd, takenFrom, ho]
  rfl

end

section
variable (hr : s.roleOf k = 2)
include hr

theorem forcedTakeover_entersAlone (ho : s.active = none) : Does .forcedTakeover s (forcedShown (forcedEntry s k)) := by
  change execForcedTakeover s = _
  rw [execForcedTakeover, h]
  refine (if_neg hw).trans ?_
  dsimp only
  rw [roleOf_forceTaken, standbySnap_forceTaken, standbySnap_roleOf (by omega), hr, forcedEntry, takenFrom, ho]
  rfl

theorem forcedTakeover_enters (ho : s.active = some j) :
    Does .forcedTakeover s (forcedShown (failoverCounted ((forcedEntry s k).forceOut j (epochGiven s)))) := by
  change execForcedTakeover s = _
  rw [execForcedTakeover, h]
  refine (if_neg hw).trans ?_
  dsimp only
  rw [roleOf_forceTaken, standbySnap_forceTaken, standbySnap_roleOf (by omega), hr, forcedEntry, takenFrom, ho]
  rfl

end

theorem forcedTakeover_notReady (hx : s.standbySnap k = none) (hr : s.roleOf k = 0 ∨ s.roleOf k = 3 ∨ s.roleOf k = 1) :
    Does .forcedTakeover s (forceTaken s) := by
  change execForcedTakeover s = _
  rw [execForcedTakeover, h]
  refine (if_neg hw).trans ?_
  dsimp only
  rw [roleOf_forceTaken, standbySnap_forceTaken, hx]
  rcases hr with hr | hr | hr <;> rw [hr] <;> rfl

end

theorem coldResume_eq (s : State) (k : CoreId) (f : Nat) :
    let cold := (s.startEntryCore k (epochGiven s) true).soleActive k (epochGiven s)
    let clean : State := { cold with hws := { cold.hws with copy := none, snap := none } }
    s.coldResume k f = ((clean.pltLast 7 f s.pilot.lastEpoch).setFlag R.PLT_STATUS_EV F.PLT_STATUS_EV_cold_resume true).logEvent 0x1A sevWarn 0x0004
      (evData [(1, k.block)]) := rfl

/-- Settles O56: each row by what it waits for; a forced takeover by the role that the named core has at the boundary. -/
theorem pilotTakeoverRows : Obligations.PilotTakeoverRows := by
  unfold Obligations.PilotTakeoverRows
  intro s k j x t edgeA edgeB lowA lowB waited due new calm both shown cold clean gone levels seen heard named force taken later from_ counted forced
    swapped ended entered
  refine ⟨waitToRestoreExpiry_idle, waitToRestoreExpiry_marks, fun h => ?_, revertStart_reverts, coldResumeRelease_noneWaits, fun h hw => ?_,
    fun h ha ht hr => coldResumeRelease_releases h ⟨Option.isNone_iff_eq_none.mpr ha, ht, hr⟩, coldResume_eq s k, rfl, forceBall_unheard,
    forceBall_conflicts, forceBall_noEdge, forceBall_active, forceBall_failed, forceBall_standby, forcedTakeover_noneWaits, forcedTakeover_waits,
    fun ⟨h, ht, hd⟩ hr hx => ?_, fun ⟨h, ht, hd⟩ => ?_, fun ⟨h, ht, hd⟩ => ?_, fun ⟨h, ht, hd⟩ hr => ?_⟩
  · exact h.elim revertStart_outOfSync revertStart_barred
  · exact coldResumeRelease_waits h (fun ⟨ha, ht, hr⟩ => hw.elim (· (Option.isNone_iff_eq_none.mp ha)) (·.elim ht (· hr)))
  all_goals have hw : ¬ (s.time.tide = t ∨ s.pilot.dual = true) := not_or_intro ht (ne_true_of_eq_false hd)
  · exact ⟨forcedTakeover_swapsAlone h hw hr hx, forcedTakeover_swaps h hw hr hx⟩
  · exact forcedTakeover_entersAlone h hw
  · exact forcedTakeover_enters h hw
  · have hx : s.standbySnap k = none := by
      rcases hr with hr | hr | ⟨-, hx⟩
      · exact standbySnap_roleOf (by omega)
      · exact standbySnap_roleOf (by omega)
      · exact hx
    exact forcedTakeover_notReady h hw hx (hr.imp_right (Or.imp_right And.left))

end Sys2Proof.Proofs

/-! PROOF. Power management (R394 to R398, R401 to R403, R406, R407, Tables PWR-2 to PWR-5). What of it is the model's choice or reading:
notes/assumptions/3, 51 to 55, 89 and 107; results that no table gives are 0 (notes/assumptions/25). -/
namespace Sys2Proof.Proofs
open Sys2Proof Sys2Proof.Machine Sys2Proof.Safety Sys2Proof.Laws

/-! ### Idle expiry -/

/-- The number of a power domain that may park. -/
abbrev domNo (dom : Fin 7) : Nat := dom.val + 3

/-- The domain does not enter a deeper state when its idle timer expires (R394, R395). -/
abbrev StaysAwake (s : State) (d : Nat) : Prop :=
  s.parkMode d = 0 ∨ s.domState d ≠ 0 ∨ (s.domEntry d).isSome = true ∨ s.levelWake d = true

section
variable {s : State} {dom : Fin 7} {recent : Option Byte} {enclave : Bool} {b r : Nat}

theorem pwrIdleTimerExpiry_stays (h : StaysAwake s (domNo dom)) : Does (.pwrIdleTimerExpiry dom recent enclave) s s := if_pos h

variable (h : ¬ StaysAwake s (domNo dom))
include h

theorem pwrIdleTimerExpiry_refused (hg : s.grantRefusal (domNo dom) recent enclave = some (b, r)) :
    Does (.pwrIdleTimerExpiry dom recent enclave) s (s.noteRefuse (domNo dom) b r) := by
  refine (if_neg h).trans ?_
  rw [hg]

theorem pwrIdleTimerExpiry_begins (hg : s.grantRefusal (domNo dom) recent enclave = none) :
    Does (.pwrIdleTimerExpiry dom recent enclave) s (s.beginEntry (domNo dom) (min 2 (s.parkMode (domNo dom))) none) := by
  refine (if_neg h).trans ?_
  rw [hg]

end

/-! ### The end of an entry -/

/-- The domain is in its target state, shown and counted (R396, R401). -/
abbrev domParked (s : State) (d : Nat) (en : PwrEntry) : State :=
  (((s.modDom d (fun x => { x with entry := none, lateWake := false, entered := s.time.devtime })).setFld (R.PWR_DOM_STATE d) F.PWR_DOM_STATE_state
    en.target).setFld (R.PWR_DOM_STATE d) F.PWR_DOM_STATE_phase 0).addCnt (if en.target = 1 then R.PWR_MOOR_CNT d else R.PWR_LAYUP_CNT d) 1

/-- The domain has lost what its target state loses (Table PWR-2). -/
abbrev domLost (s : State) (d : Nat) (en : PwrEntry) : State := if en.target = 2 then (domParked s d en).layLose d else domParked s d en

/-- The entries of every queue are looked at again, and a wake that came during the entry begins. -/
abbrev parkedThenLate (s : State) (d : Nat) (t : State) : State :=
  let t := (List.finRange 64).foldl (fun s q => s.settle q) t
  (if (s.dom d).lateWake then t.startWake d else t).releaseWaiters

section
variable {s : State} {dom : Fin 7} {en : PwrEntry} {x : QEntry}

theorem pwrEntryComplete_noEntry (h : s.domEntry (domNo dom) = none) : Does (.pwrEntryComplete dom) s s := by
  change execPwrEntryComplete dom s = _
  rw [execPwrEntryComplete, h]

variable (h : s.domEntry (domNo dom) = some en)
include h

theorem pwrEntryComplete_parks (ht : en.ticket.bind (domLost s (domNo dom) en).entryOf = none) :
    Does (.pwrEntryComplete dom) s (parkedThenLate s (domNo dom) (domLost s (domNo dom) en)) := by
  change execPwrEntryComplete dom s = _
  rw [execPwrEntryComplete, h]
  dsimp only
  rw [ht]

theorem pwrEntryComplete_completes (ht : en.ticket.bind (domLost s (domNo dom) en).entryOf = some x) :
    Does (.pwrEntryComplete dom) s (parkedThenLate s (domNo dom) ((domLost s (domNo dom) en).complete x 0 0 0)) := by
  change execPwrEntryComplete dom s = _
  rw [execPwrEntryComplete, h]
  dsimp only
  rw [ht]

end

/-! ### PW_WAKE -/

theorem startable_of_started {q : Fin 64} {op : Nat} {s u : State} {e : QEntry} (h : Started q op s e u) : s.startable q op = some e := by
  obtain ⟨hs, -⟩ := h
  exact hs

section
variable {s u : State} {e : QEntry} (h : Started 25 0x100 s e u)
include h

theorem pwWake_off (ho : u.domState e.desc.unit = 3) : Finishes .pwWake s u e 0x03 0 0 := by
  change execPwWake s = _
  rw [execPwWake, startable_of_started h]
  exact congrArg _ (runCommand_ends h (if_pos ho))

variable (ho : u.domState e.desc.unit ≠ 3)
include ho

theorem pwWake_unit (hd : e.desc.unit < 3 ∨ 9 < e.desc.unit) : Finishes .pwWake s u e 0x02 0 0 := by
  change execPwWake s = _
  rw [execPwWake, startable_of_started h]
  exact congrArg _ (runCommand_ends h ((if_neg ho).trans (if_pos hd)))

variable (hd : ¬ (e.desc.unit < 3 ∨ 9 < e.desc.unit))
include hd

/-- The wake of the domain that a command names has been asked for. -/
abbrev wakeAsked (u : State) (d : Nat) : State := u.wakeEvent d true 0x1D 7

/-- The domain runs, and no entry is in progress. -/
abbrev RunsAlready (u : State) (d : Nat) : Prop := u.domState d = 0 ∧ (u.domEntry d).isNone = true

theorem pwWake_runsAlready (hr : RunsAlready (wakeAsked u e.desc.unit) e.desc.unit) :
    Finishes .pwWake s (wakeAsked u e.desc.unit) e 0 0 0 := by
  change execPwWake s = _
  rw [execPwWake, startable_of_started h]
  exact congrArg _ (runCommand_ends h ((if_neg ho).trans ((if_neg hd).trans (if_pos hr))))

theorem pwWake_waits (hr : ¬ RunsAlready (wakeAsked u e.desc.unit) e.desc.unit) : GoesOn .pwWake s
    ((wakeAsked u e.desc.unit).modDom e.desc.unit (fun y => { y with wakeTickets := y.wakeTickets ++ [e.ticket] })) 25 := by
  change execPwWake s = _
  rw [execPwWake, startable_of_started h]
  exact congrArg _ (runCommand_goes_on h ((if_neg ho).trans ((if_neg hd).trans (if_neg hr))))

end

/-! ### PW_PARK -/

/-- The unit or the target state is wrong (Table PWR-5). -/
abbrev Unparkable (d : Desc) : Prop := d.unit < 3 ∨ 9 < d.unit ∨ d.arg0 % 4 = 0 ∨ d.arg0 % 4 = 3

/-- The domain cannot enter: a logic fault, not in Run, or an entry in progress (R397, R406). -/
abbrev ParkHeld (u : State) (d : Nat) : Prop := u.pwr.fault = true ∨ u.domState d ≠ 0 ∨ (u.domEntry d).isSome = true

/-- The entry has begun; an asserted level wake aborts it at once (R396). -/
abbrev parkBegun (u : State) (e : QEntry) : State :=
  let begun := u.beginEntry e.desc.unit (e.desc.arg0 % 4) (some e.ticket)
  if begun.levelWake e.desc.unit then begun.wakeEvent e.desc.unit true 0x1D 7 else begun

section
variable {s u : State} {e : QEntry} {recent : Option Byte} {enclave : Bool} {b r : Nat} (h : Started 25 0x101 s e u)
include h

theorem pwPark_off (ho : u.domState e.desc.unit = 3) : Finishes (.pwPark recent enclave) s u e 0x03 0 0 := by
  change execPwPark recent enclave s = _
  rw [execPwPark, startable_of_started h]
  exact congrArg _ (runCommand_ends h (if_pos ho))

variable (ho : u.domState e.desc.unit ≠ 3)
include ho

theorem pwPark_malformed (hd : Unparkable e.desc) : Finishes (.pwPark recent enclave) s u e 0x02 0 0 := by
  change execPwPark recent enclave s = _
  rw [execPwPark, startable_of_started h]
  exact congrArg _ (runCommand_ends h ((if_neg ho).trans (if_pos hd)))

variable (hd : ¬ Unparkable e.desc)
include hd

theorem pwPark_held (hp : ParkHeld u e.desc.unit) : Finishes (.pwPark recent enclave) s u e 0x06 0 0 := by
  change execPwPark recent enclave s = _
  rw [execPwPark, startable_of_started h]
  exact congrArg _ (runCommand_ends h ((if_neg ho).trans ((if_neg hd).trans (if_pos hp))))

variable (hp : ¬ ParkHeld u e.desc.unit)
include hp

theorem pwPark_refused (hg : u.grantRefusal e.desc.unit recent enclave = some (b, r)) :
    Finishes (.pwPark recent enclave) s (u.noteRefuse e.desc.unit b r) e 0x06 (b + 0x100 * r) 0 := by
  change execPwPark recent enclave s = _
  rw [execPwPark, startable_of_started h]
  refine congrArg _ (runCommand_ends h ((if_neg ho).trans ((if_neg hd).trans ((if_neg hp).trans ?_))))
  rw [hg]

theorem pwPark_begins (hg : u.grantRefusal e.desc.unit recent enclave = none) : GoesOn (.pwPark recent enclave) s (parkBegun u e) 25 := by
  change execPwPark recent enclave s = _
  rw [execPwPark, startable_of_started h]
  refine congrArg _ (runCommand_goes_on h ((if_neg ho).trans ((if_neg hd).trans ((if_neg hp).trans ?_))))
  rw [hg]

end

/-! ### AVSBus -/

section
variable {s : State} {ok : Bool} {volt : BitVec 10} {curr status : BitVec 16}

theorem avsPoll_busy (h : s.pwr.avsBusy = true) : Does (.avsPoll ok volt curr status) s s := if_pos h

theorem avsPoll_polls (h : s.pwr.avsBusy = false) : Does (.avsPoll ok volt curr status) s
    (if ok then s.avsRead volt.toNat curr.toNat status.toNat else { s with pwr := { s.pwr with avsBusy := true, avsRetry := 0, avsOff := 0 } }) :=
  does_ite (if_neg (ne_true_of_eq_false h))

theorem avsRetry_idle (h : s.pwr.avsBusy = false) : Does (.avsRetry ok volt curr status) s s := if_pos h

variable (h : s.pwr.avsBusy = true)
include h

theorem avsRetry_reads : Does (.avsRetry true volt curr status) s (s.avsRead volt.toNat curr.toNat status.toNat) :=
  if_neg (ne_false_of_eq_true h)

theorem avsRetry_triesAgain (hn : s.pwr.avsRetry < 2) : Does (.avsRetry false volt curr status) s
    { s with pwr := { s.pwr with avsRetry := s.pwr.avsRetry + 1 } } :=
  (if_neg (ne_false_of_eq_true h)).trans (if_pos hn)

theorem avsRetry_givesUp (hn : 2 ≤ s.pwr.avsRetry) : Does (.avsRetry false volt curr status) s
    (((s.draw.2.setFlag R.PWR_STATUS F.PWR_STATUS_avs_err true).logEvent 0x1D sevAlarm 0x0001
      (evData [(1, s.draw.1.toNat), (2, s.draw.2.pwr.avsSent)])).avsIdle) :=
  (if_neg (ne_false_of_eq_true h)).trans (if_neg (Nat.not_lt.mpr hn))

end

/-- Settles O42: each row by its conditions, each command by its refusals in their order. -/
theorem powerRows : Obligations.PowerRows := by
  unfold Obligations.PowerRows
  intro s u e x dom recent enclave ok level ball g hk volt curr status b r en n stays parked lost late edge bit pin m d dest woken unparkable held begun
    broken
  refine ⟨pwrIdleTimerExpiry_stays, pwrIdleTimerExpiry_refused, pwrIdleTimerExpiry_begins, pwrEntryComplete_noEntry, pwrEntryComplete_parks,
    pwrEntryComplete_completes, rfl, rfl, rfl, fun h => ?_, fun h => ?_, avsPoll_busy, avsPoll_polls, avsRetry_idle, avsRetry_reads,
    avsRetry_triesAgain, avsRetry_givesUp, rfl⟩
  · refine ⟨pwWake_off h, pwWake_unit h, fun ho h3 h9 hr hn => ?_, fun ho h3 h9 hr => ?_⟩ <;>
      have hd : ¬ (d < 3 ∨ 9 < d) := by omega
    · exact pwWake_runsAlready h ho hd ⟨hr, hn⟩
    · exact pwWake_waits h ho hd (fun ⟨hs, hn⟩ => hr.elim (· hs) (ne_false_of_eq_true hn))
  · exact ⟨pwPark_off h, pwPark_malformed h, pwPark_held h, pwPark_refused h, pwPark_begins h⟩

end Sys2Proof.Proofs

/-! PROOF. The monitor converter and its timers (R409, R411 to R416, R418 to R420). What of it is the model's choice or reading: notes/assumptions/3,
4, 59, 60 and 107; results that no table gives are 0 (notes/assumptions/25). -/
namespace Sys2Proof.Proofs
open Sys2Proof Sys2Proof.Machine Sys2Proof.Safety Sys2Proof.Laws

/-! ### Triggers of the regular pass (R412) -/

/-- A regular pass cannot begin: one or an injected one runs, or a delay is pending. -/
abbrev RegBusy (s : State) (k : Fin 4) : Prop := ((s.monMod k).reg.isSome || (s.monMod k).inj.isSome || (s.monMod k).regDelay) = true

/-- The pass begins, or the delay before it. -/
abbrev regBegun (s : State) (k : Fin 4) : State :=
  if s.fld (R.MON_TRIG k.val) F.MON_TRIG_delay = 0 then s.regStart k else s.setMonMod k { s.monMod k with regDelay := true }

section
variable {s : State} {k : Fin 4}

theorem regTrigger_stopped (h : s.monStopped k = true) : s.regTrigger k = s := if_pos h

theorem regTrigger_running (h : s.monStopped k = false) : s.regTrigger k = if RegBusy s k then s.monOverrun k 0 else regBegun s k :=
  if_neg (ne_true_of_eq_false h)

theorem monRegularTrigger_ignored (h : (s.monTrig k ≠ 1 ∧ s.monTrig k ≠ 2) ∨ s.monStopped k = true) : Does (.monRegularTrigger k) s s :=
  congrArg _ (ite_eq_right_iff.mpr fun ht => h.elim (fun ⟨h1, h2⟩ => (ht.elim h1 h2).elim) regTrigger_stopped)

theorem swReg_ignored (h : s.monTrig k ≠ 3 ∨ s.monStopped k = true) : Does (.swReg k) s s :=
  congrArg _ (ite_eq_right_iff.mpr fun ht => h.elim (fun h3 => (h3 ht).elim) regTrigger_stopped)

theorem swReg_triggers (ht : s.monTrig k = 3) (h : s.monStopped k = false) :
    Does (.swReg k) s (if RegBusy s k then s.monOverrun k 0 else regBegun s k) :=
  congrArg _ ((if_pos ht).trans (regTrigger_running h))

section
variable (ht : s.monTrig k = 1 ∨ s.monTrig k = 2) (h : s.monStopped k = false)
include ht h

theorem monRegularTrigger_overruns (hb : RegBusy s k) : Does (.monRegularTrigger k) s (s.monOverrun k 0) :=
  congrArg _ ((if_pos ht).trans ((regTrigger_running h).trans (if_pos hb)))

theorem monRegularTrigger_begins (hb : ¬ RegBusy s k) : Does (.monRegularTrigger k) s (regBegun s k) :=
  congrArg _ ((if_pos ht).trans ((regTrigger_running h).trans (if_neg hb)))

end

end

/-! ### Triggers of the injected pass (R413) -/

/-- The modulator has no injected pass: it is stopped, or its sequence is empty. -/
abbrev NoInjected (s : State) (k : Fin 4) : Prop := s.monStopped k = true ∨ s.fld (R.MON_CFG k.val) F.MON_CFG_inj_len = 0

/-- The injected pass begins, or the delay before it. -/
abbrev injBegun (s : State) (k : Fin 4) : State :=
  if s.fld (R.MON_TRIG k.val) F.MON_TRIG_delay = 0 then s.monInject k else s.setMonMod k { s.monMod k with injDelay := true }

section
variable {s : State} {k : Fin 4}

theorem injTrigger_none (h : NoInjected s k) : s.injTrigger k = s := if_pos h

theorem injTrigger_overruns (h : ¬ NoInjected s k) (hb : ((s.monMod k).inj.isSome || (s.monMod k).injDelay) = true) :
    s.injTrigger k = s.monOverrun k 1 := (if_neg h).trans (if_pos hb)

theorem injTrigger_begins (h : ¬ NoInjected s k) (hb : ((s.monMod k).inj.isSome || (s.monMod k).injDelay) = false) :
    s.injTrigger k = injBegun s k := (if_neg h).trans (if_neg (ne_true_of_eq_false hb))

theorem monInjectedTrigger_disabled (h : s.flag (R.MON_TRIG k.val) F.MON_TRIG_inj_tmr_en = false) : Does (.monInjectedTrigger k false) s s :=
  congrArg _ (if_neg (ne_true_of_eq_false h))

/-- A timer where enabled and software trigger the injected pass alike. -/
theorem injected_triggers {v : State} (h : s.injTrigger k = v) :
    (s.flag (R.MON_TRIG k.val) F.MON_TRIG_inj_tmr_en = true → Does (.monInjectedTrigger k false) s v) ∧ Does (.swInj k) s v :=
  ⟨fun ht => congrArg _ ((if_pos ht).trans h), congrArg _ h⟩

end

/-! ### The end of an entry (R411, R413, R414) -/

/-- A limited result is shown. -/
abbrev rangeShown (s : State) (limited : Bool) : State := if limited then s.setFlag R.MON_STATUS F.MON_STATUS_range true else s

/-- The mean of entry j of the injected sequence is stored and published. -/
abbrev injPublished (s : State) (k : Fin 4) (results : List (BitVec 24)) (limited : Bool) (j : Nat) : State :=
  ((rangeShown s limited).setFld (R.MON_INJ_RES (4 * k.val + j)) F.MON_INJ_RES_result (meanOf results).toNat).monPublish k
    (s.fld (R.MON_INJ (4 * k.val + j)) F.MON_INJ_channel) j true (meanOf results)

/-- The mean of entry j of the regular sequence is stored, and published, or the FIR's outputs are. -/
abbrev regPublished (s : State) (k : Fin 4) (results : List (BitVec 24)) (limited : Bool) (j : Nat) : State :=
  let ch := s.fld (R.MON_SEQ (32 * k.val + j)) F.MON_SEQ_channel
  let shown := (rangeShown s limited).setFld (R.MON_ENT_RES (32 * k.val + j)) F.MON_ENT_RES_result (meanOf results).toNat
  if shown.firActs k then results.foldl (State.firStep k ch) shown else shown.monPublish k ch j false (meanOf results)

/-- The regular sequence goes on, repeats or ends; except for one channel that repeats, the decimator restarts. -/
abbrev regWentOn (s : State) (k : Fin 4) (results : List (BitVec 24)) (limited : Bool) (j : Nat) : State :=
  let pub := regPublished s k results limited j
  let len := pub.fld (R.MON_CFG k.val) F.MON_CFG_reg_len
  let went := pub.setMonMod k { pub.monMod k with reg := if j + 1 < len then some (j + 1) else if pub.monTrig k = 0 then some 0 else none }
  if len = 1 ∧ went.monTrig k = 0 then went else went.decRestart k

section
variable {s : State} {k : Fin 4} {results : List (BitVec 24)} {limited inject : Bool} {j : Nat}

theorem monEntryEnd_notDue (h : s.monStopped k = true ∨ results.length ≠ s.entryCount k) : Does (.monEntryEnd k results limited inject) s s := if_pos h

theorem monEntryEnd_idle (hi : (s.monMod k).inj = none) (hr : (s.monMod k).reg = none) : Does (.monEntryEnd k results limited inject) s s := by
  change execMonEntryEnd k results limited inject s = _
  rw [execMonEntryEnd]
  dsimp only
  rw [hi, hr]
  exact ite_self _

variable (h : ¬ (s.monStopped k = true ∨ results.length ≠ s.entryCount k))
include h

theorem monEntryEnd_injected (hi : (s.monMod k).inj = some j) : Does (.monEntryEnd k results limited inject) s
    ((((injPublished s k results limited j).setMonMod k { (injPublished s k results limited j).monMod k with
      inj := if j + 1 < (injPublished s k results limited j).fld (R.MON_CFG k.val) F.MON_CFG_inj_len then some (j + 1) else none }).decRestart
        k).monBusy k) := by
  refine (if_neg h).trans ?_
  rw [hi]

theorem monEntryEnd_regular (hi : (s.monMod k).inj = none) (hr : (s.monMod k).reg = some j) : Does (.monEntryEnd k results limited inject) s
    ((if inject = true ∧ (regWentOn s k results limited j).fld (R.MON_CFG k.val) F.MON_CFG_inj_len ≠ 0 then
        ((regWentOn s k results limited j).setMonMod k
          { (regWentOn s k results limited j).monMod k with inj := some 0, injDelay := false }).decRestart k
      else regWentOn s k results limited j).monBusy k) := by
  refine (if_neg h).trans ?_
  rw [hi, hr]

end

/-! ### Commands -/

section
variable {s u : State} {e : QEntry} (h : Started 26 0x100 s e u)
include h

theorem mnSync_unit (hu : e.desc.unit ≠ 0xFF) : Finishes .mnSync s u e 0x02 0 0 := congrArg _ (runCommand_ends h (if_pos hu))

theorem mnSync_syncs (hu : e.desc.unit = 0xFF) : Finishes .mnSync s u.monSync e 0 0 0 :=
  congrArg _ (runCommand_ends h (if_neg (not_not_intro hu)))

end

/-- The modulator that a command names. -/
abbrev monUnit (d : Desc) : Fin 4 := Fin.ofNat 4 d.unit

/-- The supplied set that MN_LOAD_FIR names, 0 for coefficients in a buffer (Table MON-5). -/
abbrev firSetOf (d : Desc) : Nat := d.arg1 / 4096 % 8

/-- The coefficients in the buffer. -/
abbrev firCoefs (u : State) (d : Desc) : List (BitVec 24) := u.coefs d.arg0 (d.arg1 % 256)

/-- The set is loaded as linear-phase. -/
abbrev FirLinear (d : Desc) : Prop := d.arg1 / 256 % 2 = 0

/-- The unit, the set or the coefficients are wrong (R414, Table MON-5). -/
abbrev MonFirMalformed (u : State) (d : Desc) : Prop :=
  3 < d.unit ∨ 4 < firSetOf d ∨ (firSetOf d = 0 ∧
    (d.arg1 % 256 = 0 ∨ bufferOk d.arg0 (4 * (d.arg1 % 256)) = false ∨ (FirLinear d ∧ (firCoefs u d).reverse ≠ firCoefs u d)))

/-- The level does not hold the modulator, or its FIR acts (R414, R418). -/
abbrev MonFirHeld (u : State) (d : Desc) : Prop := u.monHeld d = false ∨ u.firActs (monUnit d) = true

/-- The set replaces the one held, and clears its history. -/
abbrev monFirLoaded (d : Desc) (l : List (BitVec 24)) (linear : Bool) (t : State) : State :=
  (t.setMonMod (monUnit d) { t.monMod (monUnit d) with fir := l, firSet := firSetOf d, linear, hist := [], filled := 0 }).firShow

/-- The coefficients of a supplied set: free values (notes/assumptions/60). -/
abbrev firSupplied (u : State) (d : Desc) : List (BitVec 24) × State := u.drawCoefs (suppliedTaps (firSetOf d)).1

section
variable {s u : State} {e : QEntry} (h : Started 26 0x101 s e u)
include h

theorem mnLoadFir_malformed (hm : MonFirMalformed u e.desc) : Finishes .mnLoadFir s u e 0x02 0 0 := congrArg _ (runCommand_ends h (if_pos hm))

variable (hm : ¬ MonFirMalformed u e.desc)
include hm

theorem mnLoadFir_held (hh : MonFirHeld u e.desc) : Finishes .mnLoadFir s u e 0x06 0 0 :=
  congrArg _ (runCommand_ends h ((if_neg hm).trans (if_pos hh)))

variable (hh : ¬ MonFirHeld u e.desc)
include hh

theorem mnLoadFir_loads (h0 : firSetOf e.desc = 0) :
    Finishes .mnLoadFir s (monFirLoaded e.desc (firCoefs u e.desc) (decide (FirLinear e.desc)) u) e 0 0 0 := by
  refine congrArg _ (runCommand_ends h ((if_neg hm).trans ((if_neg hh).trans ?_)))
  rw [if_pos h0]

theorem mnLoadFir_supplies (h0 : firSetOf e.desc ≠ 0) : Finishes .mnLoadFir s
    (monFirLoaded e.desc (firSupplied u e.desc).1 (suppliedTaps (firSetOf e.desc)).2 (firSupplied u e.desc).2) e 0 0 0 := by
  refine congrArg _ (runCommand_ends h ((if_neg hm).trans ((if_neg hh).trans ?_)))
  rw [if_neg h0]

end

/-- The unit, the number of results or the buffer is wrong (Table MON-5). -/
abbrev MonCaptureMalformed (d : Desc) : Prop :=
  3 < d.unit ∨ d.arg1 % 8192 = 0 ∨ 4096 < d.arg1 % 8192 ∨ bufferOk d.arg0 (4 * (d.arg1 % 8192)) = false

/-- The level does not hold the modulator, or it is stopped (R418, R420). -/
abbrev MonCaptureHeld (u : State) (d : Desc) : Prop := u.monHeld d = false ∨ u.monStopped (monUnit d) = true

section
variable {s u : State} {e : QEntry} (h : Started 26 0x102 s e u)
include h

theorem mnCapture_malformed (hm : MonCaptureMalformed e.desc) : Finishes .mnCapture s u e 0x02 0 0 := congrArg _ (runCommand_ends h (if_pos hm))

variable (hm : ¬ MonCaptureMalformed e.desc)
include hm

theorem mnCapture_held (hh : MonCaptureHeld u e.desc) : Finishes .mnCapture s u e 0x06 0 0 :=
  congrArg _ (runCommand_ends h ((if_neg hm).trans (if_pos hh)))

theorem mnCapture_captures (hh : ¬ MonCaptureHeld u e.desc) : GoesOn .mnCapture s u 26 :=
  congrArg _ (runCommand_goes_on h ((if_neg hm).trans (if_neg hh)))

end

/-- Settles O43: triggers by the modulator's state, the end of an entry by the pass it belongs to, commands by their refusals in order. -/
theorem monitorRows : Obligations.MonitorRows := by
  unfold Obligations.MonitorRows
  intro s u e k n temps injected limited inject results j x delay stopped busy timed noInj m v ij put injPub rj ch shown pub len went dec d nf lin set coef f
    badFir nc badCap loaded given broken
  have due : stopped = false → results.length = s.entryCount k → ¬ (s.monStopped k = true ∨ results.length ≠ s.entryCount k) :=
    fun hs hl => not_or_intro (ne_true_of_eq_false hs) (not_not_intro hl)
  have free : u.monHeld d = true → u.firActs f = false → ¬ MonFirHeld u d :=
    fun hh hf => not_or_intro (ne_false_of_eq_true hh) (ne_true_of_eq_false hf)
  refine ⟨rfl, monRegularTrigger_ignored, monRegularTrigger_overruns, monRegularTrigger_begins, swReg_ignored, swReg_triggers, rfl,
    monInjectedTrigger_disabled, fun hn => injected_triggers (injTrigger_none hn), fun hn hb => injected_triggers (injTrigger_overruns hn hb),
    fun hn hb => injected_triggers (injTrigger_begins hn hb), rfl, rfl, monEntryEnd_notDue, fun hs hl => monEntryEnd_injected (due hs hl),
    fun hs hl => monEntryEnd_regular (due hs hl), monEntryEnd_idle, rfl, fun h => ⟨mnSync_unit h, mnSync_syncs h⟩, fun h => ?_, fun h => ?_,
    does_ite rfl, does_ite rfl, rfl⟩
  · exact ⟨mnLoadFir_malformed h, mnLoadFir_held h, fun hm hh hf => mnLoadFir_loads h hm (free hh hf),
      fun hm hh hf => mnLoadFir_supplies h hm (free hh hf)⟩
  · exact ⟨mnCapture_malformed h, mnCapture_held h,
      fun hm hh hs => mnCapture_captures h hm (not_or_intro (ne_false_of_eq_true hh) (ne_true_of_eq_false hs))⟩

end Sys2Proof.Proofs

/-! PROOF. The annealer (R422 to R426, R429, R430). What of it is the model's choice or reading: notes/assumptions/3, 4, 61 and 107; results that no
table gives are 0 (notes/assumptions/25). -/
namespace Sys2Proof.Proofs
open Sys2Proof Sys2Proof.Machine Sys2Proof.Safety Sys2Proof.Laws

/-! ### Runs -/

section
variable {s : State} {w : Fin 4} {n : Nat}

/-- No run begins: after a fault, while held, on a unit that has a run, or in OFF (R426). -/
abbrev RunBarred (s : State) (w : Fin 4) (n : Nat) : Prop :=
  s.anl.fault = true ∨ s.flag R.ANL_STATE F.ANL_STATE_held = true ∨ (s.anl.units[w]).isSome = true ∨ s.convState n = 0

theorem anlRunStart_nonePending (h : s.anlNext w = none) : Does (.anlRunStart w) s s := by
  change execAnlRunStart w s = _
  rw [execAnlRunStart, h]

variable (h : s.anlNext w = some n)
include h

theorem anlRunStart_barred (hb : RunBarred s w n) : Does (.anlRunStart w) s s := by
  change execAnlRunStart w s = _
  rw [execAnlRunStart, h]
  exact if_pos hb

theorem anlRunStart_begins (hb : ¬ RunBarred s w n) : Does (.anlRunStart w) s
    ((s.setAnlUnit w { v := n, phase := 0, temp := 0, time := 0, idle := s.convIdle n, recs := [] }).setReg R.ANL_STATE
      (s.reg R.ANL_STATE ||| BitVec.ofNat 32 (2 ^ w.val))) := by
  change execAnlRunStart w s = _
  rw [execAnlRunStart, h]
  exact if_neg hb

end

section
variable {s : State} {w : Fin 4} {meas : List AnlMeas} (h : s.anl.units[w] = none)
include h

theorem anlWindowEnd_noRun : Does (.anlWindowEnd w) s s := by
  change execAnlWindowEnd w s = _
  rw [execAnlWindowEnd, h]

theorem anlRunEnd_noRun : Does (.anlRunEnd w meas) s s := by
  change execAnlRunEnd w meas s = _
  rw [execAnlRunEnd, h]

theorem anlPauseTimeout_noRun : Does (.anlPauseTimeout w) s s := by
  change execAnlPauseTimeout w s = _
  rw [execAnlPauseTimeout, h]

end

/-! ### The end of a window (R423) -/

/-- Loss of signal, or too little of it on the converter's lane. -/
abbrev SignalWeak (s : State) (v : Nat) : Prop :=
  s.flag (R.RXF_STATE (convCarrier v)) F.RXF_STATE_los = true ∨ s.fld (R.RXF_LANE_RMS (convCarrier v) (v % 4)) F.RXF_LANE_RMS_rms < 4096

theorem windowCounts_eq_false_iff {s : State} {v : Nat} : s.windowCounts v = false ↔ SignalWeak s v := by
  simp only [State.windowCounts, SignalWeak, Bool.and_eq_false_iff, Bool.not_eq_eq_eq_not, Bool.not_false, decide_eq_false_iff_not, Nat.not_le]

section
variable {s : State} {w : Fin 4} {r : AnlRun} (h : s.anl.units[w] = some r)
include h

theorem anlWindowEnd_measured (hp : r.phase ≠ 0) : Does (.anlWindowEnd w) s s := by
  change execAnlWindowEnd w s = _
  rw [execAnlWindowEnd, h]
  exact if_pos hp

variable (hp : r.phase = 0)
include hp

theorem anlWindowEnd_restarts (hi : r.idle ≠ s.convIdle r.v) : Does (.anlWindowEnd w) s (s.setAnlUnit w { r with idle := s.convIdle r.v }) := by
  change execAnlWindowEnd w s = _
  rw [execAnlWindowEnd, h]
  exact (if_neg (not_not_intro hp)).trans (if_pos hi)

variable (hi : r.idle = s.convIdle r.v)
include hi

theorem anlWindowEnd_pauses (ht : convTx r.v = false) (hb : r.idle = false) (hw : SignalWeak s r.v) : Does (.anlWindowEnd w) s s := by
  change execAnlWindowEnd w s = _
  rw [execAnlWindowEnd, h]
  exact (if_neg (not_not_intro hp)).trans ((if_neg (not_not_intro hi)).trans (if_pos ⟨ht, hb, windowCounts_eq_false_iff.mpr hw⟩))

theorem anlWindowEnd_ends (hw : convTx r.v = true ∨ r.idle = true ∨ ¬ SignalWeak s r.v) : Does (.anlWindowEnd w) s
    (s.setAnlUnit w { r with phase := 1, temp := s.fld (R.MON_TEMP (convCarrier r.v).code) F.MON_TEMP_temp, time := s.time.devtime }) := by
  have hc : ¬ (convTx r.v = false ∧ r.idle = false ∧ s.windowCounts r.v = false) := by
    rintro ⟨ht, hb, hx⟩
    rcases hw with hw | hw | hw
    · exact ne_false_of_eq_true hw ht
    · exact ne_false_of_eq_true hw hb
    · exact hw (windowCounts_eq_false_iff.mp hx)
  change execAnlWindowEnd w s = _
  rw [execAnlWindowEnd, h]
  exact (if_neg (not_not_intro hp)).trans ((if_neg (not_not_intro hi)).trans (if_neg hc))

end

/-! ### The end of a run (R422, R425) -/

/-- The elements that a run chooses. -/
abbrev runUsed (s : State) (r : AnlRun) (meas : List AnlMeas) : List Nat :=
  chooseSet (if convTx r.v then 63 else 64) (fun e => (s.anlElem r.v e).inUse) (fun e => (s.anlRec r.v meas e).failed)
    (fun e => (s.anlRec r.v meas e).err)

/-- The run with its choice made. -/
abbrev runDone (s : State) (r : AnlRun) (meas : List AnlMeas) : AnlRun :=
  let used := runUsed s r meas
  { r with
    phase := 2, recs := (List.range 72).map (fun e => (e, { s.anlRec r.v meas e with inUse := used.contains e, phase := phaseIn (convTx r.v) used e })) }

/-- The elements that the measurements have found failed. -/
abbrev newlyFailed (s : State) (r : AnlRun) (meas : List AnlMeas) : List Nat :=
  (List.range 72).filter (fun e => (s.anlRec r.v meas e).failed && !(s.anlElem r.v e).failed)

/-- The new failures are marked, and the choice waits in the unit. -/
abbrev runChosen (s : State) (w : Fin 4) (r : AnlRun) (meas : List AnlMeas) : State :=
  let newly := newlyFailed s r meas
  let marked := newly.foldl (fun s e => s.anlMarkDrawn r.v e) s
  let failed := newly.foldl (fun s e => s.setAnlElem r.v e { s.anlElem r.v e with failed := true }) marked
  ((if newly.isEmpty then failed else failed.anlShort r.v).anlShow r.v).setAnlUnit w (runDone s r meas)

section
variable {s : State} {w : Fin 4} {r : AnlRun} {meas : List AnlMeas} (h : s.anl.units[w] = some r)
include h

theorem anlRunEnd_notDue (hp : r.phase ≠ 1 ∨ s.anl.fault = true) : Does (.anlRunEnd w meas) s s := by
  change execAnlRunEnd w meas s = _
  rw [execAnlRunEnd, h]
  exact if_pos hp

theorem anlRunEnd_chooses (hp : ¬ (r.phase ≠ 1 ∨ s.anl.fault = true)) : Does (.anlRunEnd w meas) s
    (if s.convState r.v = 0 then (runChosen s w r meas).anlFinish w (runDone s r meas) 2
      else if s.convWaits r.v then runChosen s w r meas else (runChosen s w r meas).anlFinish w (runDone s r meas) 1) := by
  change execAnlRunEnd w meas s = _
  rw [execAnlRunEnd, h]
  exact if_neg hp

theorem anlPauseTimeout_abandons :
    Does (.anlPauseTimeout w) s (if r.phase = 0 ∧ convTx r.v = false ∧ r.idle = false then s.anlAbandon w else s) := by
  change execAnlPauseTimeout w s = _
  rw [execAnlPauseTimeout, h]

end

/-! ### Failed elements (R424) -/

/-- An element that does not fail: of an absent converter, after a fault, not in use, or failed already. -/
abbrev FailsNot (s : State) (v : Fin 16) (elem : Fin 72) : Prop :=
  s.convPresent v.val = false ∨ s.anl.fault = true ∨ (s.anlElem v.val elem.val).inUse = false ∨ (s.anlElem v.val elem.val).failed = true

/-- The best idle element is noted to take the place of a failed one. -/
abbrev replaceNoted (s : State) (v e : Nat) : State :=
  (s.anlBest v).elim s (fun best => { s with anl := { s.anl with subs := s.anl.subs ++ [(v, e, best)] } })

theorem anlReplace_eq (s : State) (v e : Nat) : s.anlReplace v e = replaceNoted s v e := by
  rw [State.anlReplace, replaceNoted]
  cases s.anlBest v with
  | none => rfl
  | some b => rfl

/-- The element is marked, its replacement noted, and the counts shown. -/
abbrev failureTold (s : State) (v : Fin 16) (elem : Fin 72) (cause : Byte) : State :=
  let lost := (s.setAnlElem v.val elem.val { s.anlElem v.val elem.val with failed := true }).anlMark v.val elem.val cause.toNat
  ((replaceNoted lost v.val elem.val).anlShort v.val).anlShow v.val

section
variable {s : State} {v : Fin 16} {elem : Fin 72} {cause : Byte}

theorem anlElementFailed_idle (h : FailsNot s v elem) : Does (.anlElementFailed v elem cause) s s := if_pos h

theorem anlElementFailed_replaces (h : ¬ FailsNot s v elem) : Does (.anlElementFailed v elem cause) s
    (if (failureTold s v elem cause).convWaits v.val then failureTold s v elem cause
      else (failureTold s v elem cause).anlSubsNow (convTx v.val) (convCarrier v.val)) := by
  refine (if_neg h).trans ?_
  rw [anlReplace_eq]

end

/-! ### Commands -/

/-- The converters that AN_RUN names. -/
abbrev anRunConvs (u : State) (d : Desc) : List Nat := if d.unit = 0xFF then (List.range 16).filter u.convPresent else [d.unit]

/-- AN_RUN names all converters, or one that the part has. -/
abbrev AnRunNames (u : State) (d : Desc) : Prop := d.unit = 0xFF ∨ (d.unit < 16 ∧ u.convPresent d.unit = true)

section
variable {s u : State} {e : QEntry} (h : Started 27 0x100 s e u)
include h

theorem anRun_unit (hu : 16 ≤ e.desc.unit) (ha : e.desc.unit ≠ 0xFF) : Finishes .anRun s u e 0x02 0 0 := by
  change execAnRun s = _
  rw [execAnRun, startable_of_started h]
  exact congrArg _ (runCommand_ends h (if_pos ⟨hu, ha⟩))

theorem anRun_absent (hu : e.desc.unit < 16) (hp : u.convPresent e.desc.unit = false) : Finishes .anRun s u e 0x03 0 0 := by
  change execAnRun s = _
  rw [execAnRun, startable_of_started h]
  exact congrArg _ (runCommand_ends h ((if_neg (fun ⟨h16, _⟩ => Nat.not_le.mpr hu h16)).trans (if_pos ⟨hu, hp⟩)))

variable (hn : AnRunNames u e.desc)
include hn

omit h in
theorem anRunNames_listed : ¬ (16 ≤ e.desc.unit ∧ e.desc.unit ≠ 0xFF) ∧ ¬ (e.desc.unit < 16 ∧ u.convPresent e.desc.unit = false) := by
  rcases hn with ha | ⟨hu, hp⟩
  · exact ⟨fun ⟨_, hx⟩ => hx ha, fun ⟨hu, _⟩ => by omega⟩
  · exact ⟨fun ⟨h16, _⟩ => Nat.not_le.mpr hu h16, fun ⟨_, hx⟩ => ne_false_of_eq_true hp hx⟩

theorem anRun_held (hh : u.flag R.ANL_STATE F.ANL_STATE_held = true) : Finishes .anRun s u e 0x06 0 0 := by
  obtain ⟨hu, hp⟩ := anRunNames_listed hn
  change execAnRun s = _
  rw [execAnRun, startable_of_started h]
  exact congrArg _ (runCommand_ends h ((if_neg hu).trans ((if_neg hp).trans (if_pos hh))))

/-- The runs that AN_RUN asks for are pending. -/
abbrev anRunAsked (u : State) (d : Desc) : State := (anRunConvs u d).foldl (fun s v => s.anlPend v) u

theorem anRun_waits (hh : u.flag R.ANL_STATE F.ANL_STATE_held = false) : GoesOn .anRun s { anRunAsked u e.desc with
    anl := { (anRunAsked u e.desc).anl with waits := (anRunAsked u e.desc).anl.waits ++ [(e.ticket, anRunConvs u e.desc)] } } 27 := by
  obtain ⟨hu, hp⟩ := anRunNames_listed hn
  change execAnRun s = _
  rw [execAnRun, startable_of_started h]
  exact congrArg _ (runCommand_goes_on h ((if_neg hu).trans ((if_neg hp).trans (if_neg (ne_true_of_eq_false hh)))))

end

section
variable {s u : State} {e : QEntry} (h : Started 27 0x101 s e u)
include h

theorem anHold_unit (hu : e.desc.unit ≠ 0xFF) : Finishes .anHold s u e 0x02 0 0 := congrArg _ (runCommand_ends h (if_pos hu))

/-- The hold is set or freed. -/
abbrev anHeld (u : State) (d : Desc) : State := u.setFlag R.ANL_STATE F.ANL_STATE_held (d.arg0 % 2 == 1)

theorem anHold_holds (hu : e.desc.unit = 0xFF) : Finishes .anHold s
    (if e.desc.arg0 % 2 == 1 then (List.finRange 4).foldl (fun s u => s.anlAbandon u) (anHeld u e.desc) else anHeld u e.desc) e 0 0 0 :=
  congrArg _ (runCommand_ends h (if_neg (not_not_intro hu)))

end

section
variable {s u : State} {e : QEntry} (h : Started 27 0x102 s e u)
include h

/-- The element that AN_CLEAR_FAIL names. -/
abbrev clearElem (d : Desc) : Nat := d.arg0 % 128

theorem anClearFail_malformed (hm : 71 < clearElem e.desc ∨ 15 < e.desc.unit) : Finishes .anClearFail s u e 0x02 0 0 :=
  congrArg _ (runCommand_ends h (if_pos hm))

variable (hm : ¬ (71 < clearElem e.desc ∨ 15 < e.desc.unit))
include hm

theorem anClearFail_running (hr : (u.anl.units[convUnit e.desc.unit]).map (·.v) = some e.desc.unit) : Finishes .anClearFail s u e 0x06 0 0 :=
  congrArg _ (runCommand_ends h ((if_neg hm).trans (if_pos hr)))

theorem anClearFail_clears (hr : (u.anl.units[convUnit e.desc.unit]).map (·.v) ≠ some e.desc.unit) : Finishes .anClearFail s
    (if u.convPresent e.desc.unit then (u.setAnlElem e.desc.unit (clearElem e.desc)
      { u.anlElem e.desc.unit (clearElem e.desc) with failed := false, comp0Fail := false, comp1Fail := false }).anlShow e.desc.unit else u) e 0 0 0 :=
  congrArg _ (runCommand_ends h ((if_neg hm).trans (if_neg hr)))

end

section
variable {s u : State} {e : QEntry} (h : Started 27 0x103 s e u)
include h

theorem anReadTable_absent (hu : e.desc.unit < 16) (hp : u.convPresent e.desc.unit = false) : Finishes .anReadTable s u e 0x03 0 0 :=
  congrArg _ (runCommand_ends h (if_pos ⟨hu, hp⟩))

variable (hp : ¬ (e.desc.unit < 16 ∧ u.convPresent e.desc.unit = false))
include hp

theorem anReadTable_malformed (hm : 15 < e.desc.unit ∨ bufferOk e.desc.arg0 576 = false) : Finishes .anReadTable s u e 0x02 0 0 :=
  congrArg _ (runCommand_ends h ((if_neg hp).trans (if_pos hm)))

theorem anReadTable_stores (hm : ¬ (15 < e.desc.unit ∨ bufferOk e.desc.arg0 576 = false)) : Finishes .anReadTable s
    (u.setBytes e.desc.arg0 ((List.range 72).flatMap (fun n => elemBytes (convTx e.desc.unit) (u.anlElem e.desc.unit n)))) e 0 0 0 :=
  congrArg _ (runCommand_ends h ((if_neg hp).trans (if_neg hm)))

end

/-- Settles O44: runs by their phase and converter, failed elements by their state, commands by their refusals in order. -/
theorem annealerRows : Obligations.AnnealerRows := by
  unfold Obligations.AnnealerRows
  intro s u e w v elem cause meas n r idle run tx weak rec_ used recs newly marked failed done chosen x sound lost noted told d l asked on held el z broken
  refine ⟨anlRunStart_nonePending, anlRunStart_barred, anlRunStart_begins, fun h => ⟨anlWindowEnd_noRun h, anlRunEnd_noRun h, anlPauseTimeout_noRun h⟩,
    anlWindowEnd_measured, anlWindowEnd_restarts, anlWindowEnd_pauses, anlWindowEnd_ends, anlRunEnd_notDue,
    fun h hp hf => anlRunEnd_chooses h (not_or_intro (not_not_intro hp) (ne_true_of_eq_false hf)), anlPauseTimeout_abandons, anlElementFailed_idle,
    anlElementFailed_replaces, fun h => ⟨anRun_unit h, anRun_absent h, anRun_held h, anRun_waits h⟩, fun h => ⟨anHold_unit h, anHold_holds h⟩,
    fun h => ?_, fun h => ?_, rfl⟩
  · have formed : el ≤ 71 → d.unit ≤ 15 → ¬ (71 < el ∨ 15 < d.unit) := by omega
    exact ⟨anClearFail_malformed h, fun he hu => anClearFail_running h (formed he hu), fun he hu => anClearFail_clears h (formed he hu)⟩
  · refine ⟨anReadTable_absent h, fun hp => anReadTable_malformed h (fun ⟨hu, hx⟩ => ne_false_of_eq_true (hp hu) hx), fun hu hp hb => ?_⟩
    exact anReadTable_stores h (fun ⟨_, hx⟩ => ne_false_of_eq_true hp hx) (not_or_intro (Nat.not_lt.mpr (Nat.le_of_lt_succ hu)) (ne_false_of_eq_true hb))

end Sys2Proof.Proofs

/-! PROOF. Memory integrity (R435, R441, R442, R444, Table MEM-4) and observation (R446 to R449, R453, R467, Tables OBS-1, OBS-4, OBS-5). What of
them is the model's choice or reading: notes/assumptions/3, 62, 79 and 107; results that no table gives are 0 (notes/assumptions/25). -/
namespace Sys2Proof.Proofs
open Sys2Proof Sys2Proof.Machine Sys2Proof.Safety Sys2Proof.Laws

/-! ### Scrubs and scans -/

/-- The length of a span in a scrub or a scan. -/
abbrev spanLen (d : Desc) : Nat := d.arg1 % 2 ^ 25

/-- The region, the span or the buffer of a scrub is wrong (R435): a span is made of 1 to 2^21 whole words. -/
abbrev ScrubMalformed (d : Desc) : Prop :=
  9 ≤ d.unit ∨ d.arg0 % 8 ≠ 0 ∨ spanLen d % 8 ≠ 0 ∨ spanLen d < 8 ∨ 2 ^ 24 < spanLen d ∨ scrubSize d.unit < d.arg0 + spanLen d ∨
    bufferOk d.arg2 32 = false

/-- The unit or the span of a scan is wrong (R441). -/
abbrev ScanMalformed (d : Desc) : Prop :=
  d.unit ≠ 0xFF ∨ d.arg0 % 8 ≠ 0 ∨ spanLen d % 8 ≠ 0 ∨ spanLen d < 8 ∨ 2 ^ 24 < spanLen d ∨ scanSpan d.arg0 (spanLen d) = false

theorem or_four_or {a b c d p : Prop} : (a ∨ b ∨ c ∨ d) ∨ p ↔ a ∨ b ∨ c ∨ d ∨ p := by
  simp only [or_assoc]

section
variable {s u : State} {e : QEntry}

theorem mmScrub_waits (hr : (s.startedOp 28 0x100).isSome = true) : Does .mmScrub s s := congrArg _ (if_pos hr)

theorem scScan_waits (hr : (s.startedOp 29 0x100).isSome = true) : Does .scScan s s := congrArg _ (if_pos hr)

section
variable (hr : (s.startedOp 28 0x100).isSome = false) (h : Started 28 0x100 s e u)
include hr h

theorem mmScrub_malformed (hm : ScrubMalformed e.desc) : Finishes .mmScrub s u e 0x02 0 0 :=
  congrArg _ ((if_neg (ne_true_of_eq_false hr)).trans (runCommand_ends h (if_pos hm)))

variable (hm : ¬ ScrubMalformed e.desc)
include hm

theorem mmScrub_faulted (hf : u.ecc.fault = true) : Finishes .mmScrub s u e 0x05 0 0 :=
  congrArg _ ((if_neg (ne_true_of_eq_false hr)).trans (runCommand_ends h ((if_neg hm).trans (if_pos hf))))

theorem mmScrub_scrubs (hf : u.ecc.fault = false) : GoesOn .mmScrub s (u.setFlag R.MEM_STATUS F.MEM_STATUS_scrub_busy true) 28 :=
  congrArg _ ((if_neg (ne_true_of_eq_false hr)).trans (runCommand_goes_on h
    ((if_neg hm).trans (if_neg (ne_true_of_eq_false hf)))))

end

section
variable (hr : (s.startedOp 29 0x100).isSome = false) (h : Started 29 0x100 s e u)
include hr h

theorem scScan_malformed (hm : ScanMalformed e.desc) : Finishes .scScan s u e 0x02 0 0 :=
  congrArg _ ((if_neg (ne_true_of_eq_false hr)).trans (runCommand_ends h (if_pos hm)))

variable (hm : ¬ ScanMalformed e.desc)
include hm

theorem scScan_faulted (hf : u.ecc.scuFault = true) : Finishes .scScan s u e 0x05 0 0 :=
  congrArg _ ((if_neg (ne_true_of_eq_false hr)).trans (runCommand_ends h ((if_neg hm).trans (if_pos hf))))

theorem scScan_scans (hf : u.ecc.scuFault = false) : GoesOn .scScan s
    (({ u with ecc := { u.ecc with expect := u.reg R.SCU_EXPECT } }).setFlag R.SCU_STATUS F.SCU_STATUS_busy true) 29 :=
  congrArg _ ((if_neg (ne_true_of_eq_false hr)).trans (runCommand_goes_on h
    ((if_neg hm).trans (if_neg (ne_true_of_eq_false hf)))))

end

end

/-! ### MM_READ_REPAIR -/

/-- The number of entries that MM_READ_REPAIR asks for. -/
abbrev repairCount (d : Desc) : Nat := d.arg1 % 1024

/-- The unit, the number or the buffer is wrong. -/
abbrev RepairMalformed (d : Desc) : Prop := d.unit ≠ 0xFF ∨ repairCount d = 0 ∨ bufferOk d.arg0 (16 * repairCount d) = false

/-- The entries stored: free values (notes/assumptions/79). -/
abbrev repairDrawn (u : State) (d : Desc) : List Byte × State := u.drawBytes (16 * min (repairCount d) u.ecc.repairs.length)

section
variable {s u : State} {e : QEntry} (h : Started 28 0x101 s e u)
include h

theorem mmReadRepair_malformed (hm : RepairMalformed e.desc) : Finishes .mmReadRepair s u e 0x02 0 0 := congrArg _ (runCommand_ends h (if_pos hm))

theorem mmReadRepair_stores (hm : ¬ RepairMalformed e.desc) : Finishes .mmReadRepair s
    ((repairDrawn u e.desc).2.setBytes e.desc.arg0 (repairDrawn u e.desc).1) e 0 (repairDrawn u e.desc).2.ecc.repairs.length 0 :=
  congrArg _ (runCommand_ends h (if_neg hm))

end

theorem memScuEngineFault_scu {s : State} : Does (.memScuEngineFault true) s
    ((({ s with ecc := { s.ecc with scuFault := true } }).setFlag R.SCU_STATUS F.SCU_STATUS_engine_fault true).logFault 0x21 0x0005 []) :=
  congrArg Host.Outcome.next (if_pos rfl)

theorem memScuEngineFault_mem {s : State} : Does (.memScuEngineFault false) s
    ((({ s with ecc := { s.ecc with fault := true } }).setFlag R.MEM_STATUS F.MEM_STATUS_engine_fault true).logFault 0x20 0x0005 []) :=
  congrArg Host.Outcome.next (if_neg Bool.false_ne_true)

/-- Settles O45: scrubs and scans one at a time, each command by its refusals in order. -/
theorem integrityRows : Obligations.IntegrityRows := by
  unfold Obligations.IntegrityRows
  intro s u e d len span badScrub badScan n badRead drawn
  have hscrub : badScrub ↔ ScrubMalformed d := or_congr_right or_four_or
  have hscan : badScan ↔ ScanMalformed d := or_congr_right or_four_or
  refine ⟨mmScrub_waits, fun hr h => ?_, fun h => ⟨mmReadRepair_malformed h, mmReadRepair_stores h⟩, scScan_waits, fun hr h => ?_,
    memScuEngineFault_scu, memScuEngineFault_mem⟩
  · rw [hscrub]
    exact ⟨mmScrub_malformed hr h, mmScrub_faulted hr h, mmScrub_scrubs hr h⟩
  · rw [hscan]
    exact ⟨scScan_malformed hr h, scScan_faulted hr h, scScan_scans hr h⟩

/-! ### Snapshots -/

/-- The buffer of a capture, cleared, with its slots 0 to 3, every counter's slot and slot 8191 written (Table OBS-1). -/
abbrev snapWritten (s : State) (c : ObsCapture) : State :=
  let b := snapBase c.buf
  let cleared := (({ s with obs := { s.obs with capture := none } }).zeroMem b (b + 0x10000)).eccTouch b 0x10000
  let headed := cleared.setBytes b (leBytes 8 c.seq ++ leBytes 8 c.tide.toNat ++ leBytes 8 c.devtime.toNat ++ leBytes 8 c.flags)
  ((listedCounters c.regs).foldl (fun s a => s.setBytes (b + 8 * cntSlot a) (leBytes 8 (cntIn c.regs a))) headed).setBytes (b + 8 * 8191) (leBytes 8 c.seq)

section
variable {s : State} {c : ObsCapture}

theorem snapshotWriteComplete_noCapture (h : s.obs.capture = none) : Does .snapshotWriteComplete s s := by
  change execSnapshotWriteComplete s = _
  rw [execSnapshotWriteComplete, h]

theorem snapshotWriteComplete_writes (h : s.obs.capture = some c) : Does .snapshotWriteComplete s
    ((((snapWritten s c).setFlag R.OBS_SNAP_STATUS F.OBS_SNAP_STATUS_writing false).setFld R.OBS_SNAP_STATUS F.OBS_SNAP_STATUS_latest c.buf).setFld
      R.OBS_SNAP_STATUS F.OBS_SNAP_STATUS_seq c.seq) := by
  change execSnapshotWriteComplete s = _
  rw [execSnapshotWriteComplete, h]

end

/-! ### The sampler -/

/-- The instructions between two tags, the fewest with jitter (notes/assumptions/107). -/
abbrev smpEvery (s : State) : Nat := 2 ^ s.fld R.OBS_SMP_CFG F.OBS_SMP_CFG_smp_log
abbrev smpShortest (s : State) : Nat :=
  if s.flag R.OBS_SMP_CFG F.OBS_SMP_CFG_jitter then smpEvery s - (smpEvery s / 8 - 1) else smpEvery s

/-- The sampler is on and its interval is over. -/
abbrev SampleDue (s : State) : Prop := s.flag R.OBS_SMP_CFG F.OBS_SMP_CFG_enable = true ∧ s.tagDue = true

/-- The interval begins again. -/
abbrev sampleTagged (s : State) : State := { s with obs := { s.obs with tagAt := s.retiredAll } }

/-- The buffer is full and does not wrap. -/
abbrev SampleLost (s : State) : Prop :=
  4096 ≤ s.obs.samples.length ∧ (sampleTagged s).flag R.OBS_SMP_CFG F.OBS_SMP_CFG_wrap = false

/-- The record of a sample (Table OBS-4). -/
abbrev sampleRecord (s : State) (k : CoreId) (addr tick : W64) (encoding : W32) (ticks : BitVec 16) (slot : Bool) : List Byte :=
  leBytes 8 addr.toNat ++ leBytes 4 encoding.toNat ++ leBytes 2 ticks.toNat
    ++ [BitVec.ofNat 8 (k.code + 2 * b2n ((sampleTagged s).core k).harbour + 4 * b2n slot), 0] ++ leBytes 8 tick.toNat
    ++ leBytes 2 ((sampleTagged s).core k).epoch.toNat ++ [0, 0, 0, 0, 0, 0]

/-- The samples held with a new one; the oldest goes where the buffer is full. -/
abbrev samplesKept (s : State) (r : List Byte) : List (List Byte) := s.obs.samples.drop (s.obs.samples.length + 1 - 4096) ++ [r]

/-- The sample is stored and the fill shown. -/
abbrev sampleStored (s : State) (r : List Byte) : State :=
  ({ sampleTagged s with obs := { (sampleTagged s).obs with samples := samplesKept s r } }).smpShow

/-- The fill interrupt comes where the count reaches irq_fill. -/
abbrev sampleRaised (s : State) (r : List Byte) : State :=
  let fill := (sampleStored s r).fld R.OBS_SMP_CFG F.OBS_SMP_CFG_irq_fill
  if fill ≠ 0 ∧ s.obs.samples.length < fill ∧ fill ≤ (samplesKept s r).length then (sampleStored s r).raiseObs else sampleStored s r

section
variable {s : State} {k : CoreId} {addr tick : W64} {encoding : W32} {ticks : BitVec 16} {slot : Bool}

theorem tagDue_iff : s.tagDue = true ↔ smpShortest s ≤ s.retiredAll - s.obs.tagAt := decide_eq_true_iff

theorem samplerTag_noCore (h : s.active = none) : Does (.samplerTag addr tick encoding ticks slot) s s := by
  change execSamplerTag addr tick encoding ticks slot s = _
  rw [execSamplerTag, h]

variable (h : s.active = some k)
include h

theorem samplerTag_notDue (hd : ¬ SampleDue s) : Does (.samplerTag addr tick encoding ticks slot) s s := by
  change execSamplerTag addr tick encoding ticks slot s = _
  rw [execSamplerTag, h]
  exact if_pos ((Decidable.not_and_iff_or_not.mp hd).imp Bool.eq_false_iff.mpr Bool.eq_false_iff.mpr)

variable (hd : SampleDue s)
include hd

omit h in
theorem sampleDue_not_barred : ¬ (s.flag R.OBS_SMP_CFG F.OBS_SMP_CFG_enable = false ∨ s.tagDue = false) := by
  obtain ⟨hon, ht⟩ := hd
  exact not_or_intro (ne_false_of_eq_true hon) (ne_false_of_eq_true ht)

theorem samplerTag_loses (hl : SampleLost s) : Does (.samplerTag addr tick encoding ticks slot) s
    (((sampleTagged s).setFlag R.OBS_STATUS F.OBS_STATUS_smp_full true).addCnt R.OBS_SMP_LOST_CNT 1) := by
  change execSamplerTag addr tick encoding ticks slot s = _
  rw [execSamplerTag, h]
  exact (if_neg (sampleDue_not_barred hd)).trans (if_pos hl)

theorem samplerTag_stores (hl : ¬ SampleLost s) : Does (.samplerTag addr tick encoding ticks slot) s
    (sampleRaised s (sampleRecord s k addr tick encoding ticks slot)) := by
  change execSamplerTag addr tick encoding ticks slot s = _
  rw [execSamplerTag, h]
  exact (if_neg (sampleDue_not_barred hd)).trans (if_neg hl)

end

/-! ### OB_READ_CAT and OB_READ_SAMPLES -/

/-- The first slot and the number of slots that OB_READ_CAT names. -/
abbrev catFirst (d : Desc) : Nat := d.arg1 % 8192
abbrev catCount (d : Desc) : Nat := d.arg1 / 65536 % 16384

/-- The unit, the slots or the buffer is wrong (Table OBS-5). -/
abbrev CatMalformed (d : Desc) : Prop :=
  d.unit ≠ 0xFF ∨ catFirst d < 4 ∨ catCount d = 0 ∨ 4096 < catCount d ∨ 8190 < catFirst d + catCount d - 1 ∨ bufferOk d.arg0 (4 * catCount d) = false

section
variable {s u : State} {e : QEntry} (h : Started 30 0x100 s e u)
include h

theorem obReadCat_malformed (hm : CatMalformed e.desc) : Finishes .obReadCat s u e 0x02 0 0 := congrArg _ (runCommand_ends h (if_pos hm))

theorem obReadCat_stores (hm : ¬ CatMalformed e.desc) : Finishes .obReadCat s
    (u.setBytes e.desc.arg0 ((List.range (catCount e.desc)).flatMap (fun i => leBytes 4 ((catAddr (catFirst e.desc + i)).getD 0)))) e 0 0 0 :=
  congrArg _ (runCommand_ends h (if_neg hm))

end

/-- The number of samples that OB_READ_SAMPLES asks for. -/
abbrev samplesAsked (d : Desc) : Nat := d.arg1 % 8192

/-- The unit, the number or the buffer is wrong (Table OBS-5). -/
abbrev SamplesMalformed (d : Desc) : Prop :=
  d.unit ≠ 0xFF ∨ samplesAsked d = 0 ∨ 4096 < samplesAsked d ∨ bufferOk d.arg0 (32 * samplesAsked d) = false

section
variable {s u : State} {e : QEntry} (h : Started 30 0x101 s e u)
include h

theorem obReadSamples_malformed (hm : SamplesMalformed e.desc) : Finishes .obReadSamples s u e 0x02 0 0 :=
  congrArg _ (runCommand_ends h (if_pos hm))

theorem obReadSamples_moves (hm : ¬ SamplesMalformed e.desc) : Finishes .obReadSamples s
    ((({ u with obs := { u.obs with samples := u.obs.samples.drop (samplesAsked e.desc) } }).setBytes e.desc.arg0
      (u.obs.samples.take (samplesAsked e.desc)).flatten).smpShow) e 0 (u.obs.samples.take (samplesAsked e.desc)).length 0 :=
  congrArg _ (runCommand_ends h (if_neg hm))

end

/-- Settles O46: the snapshot by its capture, the sampler by what makes a tag due and lost, the commands by their refusals. -/
theorem observationRows : Obligations.ObservationRows := by
  unfold Obligations.ObservationRows
  intro s u e k c addr tick encoding ticks slot b st cleared headed written every on shortest due tagged lost rec_ kept sampled fill d first n badCat badSmp
    taken
  exact ⟨snapshotWriteComplete_noCapture, snapshotWriteComplete_writes, rfl, rfl, tagDue_iff, samplerTag_noCore, samplerTag_notDue, samplerTag_loses,
    samplerTag_stores, fun h => ⟨obReadCat_malformed h, obReadCat_stores h⟩, fun h => ⟨obReadSamples_malformed h, obReadSamples_moves h⟩⟩

end Sys2Proof.Proofs

/-! PROOF. The logbook (R455 to R466, Tables LOG-2 and LOG-3). What of it is the model's choice or reading: notes/assumptions/3 and 63 to 65; results
that no table gives are 0 (notes/assumptions/25). -/
namespace Sys2Proof.Proofs
open Sys2Proof Sys2Proof.Machine Sys2Proof.Safety Sys2Proof.Laws

/-! ### The hourly summary and the event timer -/

/-- The payload of the summary; w is the word that gives what the spec leaves open of it (notes/assumptions/63). -/
abbrev summaryBytes (t : State) (w : W64) : List Byte :=
  leBytes 4 t.log.hour ++ t.statBytes 0 32768 w ++ t.statBytes 4 0 (w >>> 8) ++ t.carSummary .A (w >>> 16) ++ t.carSummary .B (w >>> 24)
    ++ t.devSummary ++ [BitVec.ofNat 8 (b2n t.obs.fault)]

/-- The summary is staged; the iteration histograms and the power-on hours have advanced (R459 to R461). -/
abbrev hourCounted (s : State) : State :=
  let staged := s.draw.2.logStage 1 (summaryBytes s.draw.2 s.draw.1)
  (if staged.obs.fault then staged else (staged.iterTotals .A).iterTotals .B).noteTotal 0 1

/-- A new hour begins. -/
abbrev hourBegun (t : State) : State :=
  { t with log := { t.log with hour := t.log.hour + 1, acc := [], base := t.log.last, totBase := t.log.tot } }

section
variable {s : State}

theorem logHourlySummary_faulted (h : s.log.fault = true) : Does .logHourlySummary s s := if_pos h

theorem logEventEntryTimer_faulted (h : s.log.fault = true) : Does .logEventEntryTimer s s := congrArg _ (if_pos h)

theorem logHourlySummary_sums (h : s.log.fault = false) : Does .logHourlySummary s (hourBegun (hourCounted s)).formTotals :=
  if_neg (ne_true_of_eq_false h)

theorem logEventEntryTimer_forms (h : s.log.fault = false) : Does .logEventEntryTimer s s.formEvents :=
  congrArg _ (if_neg (ne_true_of_eq_false h))

end

/-! ### Writing an entry (R455, R456) -/

/-- The sequence number that the next entry takes. -/
abbrev nextSeq (s : State) : Nat := (s.reg R.LOG_NEXT_SEQ_LO).toNat + 2 ^ 32 * (s.reg R.LOG_NEXT_SEQ_HI).toNat

/-- The page of an entry, tagged. -/
abbrev entryPage (s : State) (x : LogEntry) : List Byte := entryBody x (nextSeq s) ++ entryTag (entryBody x (nextSeq s))

/-- The entry has its place, and the sequence number has advanced. -/
abbrev entryPlaced (s : State) (x : LogEntry) : State := (s.logPlace x).2.setReg64 R.LOG_NEXT_SEQ_LO (nextSeq s + 1)

/-- The page is programmed, committed and counted, and its area moves on. -/
abbrev entryCommitted (s : State) (x : LogEntry) (rest : List LogEntry) : State :=
  let put := ((entryPlaced s x).flashProgram ((s.logPlace x).1 + 1) (entryPage s x)).flashProgram (s.logPlace x).1 [0x3F]
  ((({ put with log := { put.log with staged := rest, fails := 0 } }).logShow).addCnt R.LOG_ENTRY_CNT 1).logAdvance (kindArea x.kind)

/-- The page holds open bits, uncommitted; the failure is counted and shown (notes/assumptions/65). -/
abbrev entrySpoilt (s : State) (x : LogEntry) : State :=
  let drawn := (entryPlaced s x).drawBytes 255
  let spoilt := drawn.2.flashProgram ((s.logPlace x).1 + 1) (((entryPage s x).zip drawn.1).map (fun p => p.1 ||| p.2))
  ((spoilt.addCnt R.LOG_WRITE_ERR_CNT 1).setFlag R.LOG_STATUS F.LOG_STATUS_write_err true).logAdvance (kindArea x.kind)

/-- One more failure in a row. -/
abbrev entryFailed (s : State) (x : LogEntry) : State :=
  { entrySpoilt s x with log := { (entrySpoilt s x).log with fails := (entrySpoilt s x).log.fails + 1 } }

section
variable {s : State} {x : LogEntry} {rest : List LogEntry} {ok : Bool}

theorem logEntryWrite_nothingStaged (h : nextStaged s.log.staged = none) : Does (.logEntryWrite ok) s s := by
  change execLogEntryWrite ok s = _
  rw [execLogEntryWrite, h]

variable (h : nextStaged s.log.staged = some (x, rest))
include h

theorem logEntryWrite_stopped (hr : s.logRuns = false) : Does (.logEntryWrite ok) s s := by
  change execLogEntryWrite ok s = _
  rw [execLogEntryWrite, h]
  exact if_pos hr

variable (hr : s.logRuns = true)
include hr

theorem logEntryWrite_commits : Does (.logEntryWrite true) s ((entryCommitted s x rest).logSlot x).flushDone := by
  change execLogEntryWrite true s = _
  rw [execLogEntryWrite, h]
  exact (if_neg (ne_false_of_eq_true hr)).trans (if_pos rfl)

theorem logEntryWrite_fails : Does (.logEntryWrite false) s (if (entrySpoilt s x).log.fails + 1 < 8 then entryFailed s x
    else ((entryFailed s x).setFld R.LOG_STATE F.LOG_STATE_state 3).logEvent 0x23 sevAlarm 0x0002 (evData [(4, (s.logPlace x).1)])) := by
  change execLogEntryWrite false s = _
  rw [execLogEntryWrite, h]
  exact (if_neg (ne_false_of_eq_true hr)).trans (if_neg Bool.false_ne_true)

end

/-! ### Recovery (R464) -/

/-- LOG is in recovery, without a fault. -/
abbrev Recovering (s : State) : Prop := s.fld R.LOG_STATE F.LOG_STATE_state = 1 ∧ s.log.fault = false

/-- The sequence numbers that flash holds. -/
abbrev seqsHeld (s : State) : List Nat := ([0, 1, 2, 3].flatMap (fun a => s.areaEntries a [0x3F, 0x7F])).map (·.2)

/-- The ring heads, the next sequence number and the totals go on from what flash holds. -/
abbrev logResumed (s : State) : State :=
  let heads : State := { s with log := { s.log with sumPage := s.ringHead 2, evPage := s.ringHead 3, repPage := s.ringHead 1, fails := 0 } }
  let next := if (seqsHeld s).isEmpty then 0 else (seqsHeld s).foldl max 0 + 1
  ((heads.setReg64 R.LOG_NEXT_SEQ_LO next).setFld R.LOG_STATE F.LOG_STATE_state 2).resumeTotals s.bestTotals

section
variable {s : State}

theorem logRecovery_idle (h : ¬ Recovering s) : Does .logRecovery s s :=
  if_pos ((Decidable.not_and_iff_or_not.mp h).imp_right Bool.eq_true_of_not_eq_false)

theorem logRecovery_resumes (h : Recovering s) :
    Does .logRecovery s ({ logResumed s with log := { (logResumed s).log with totBase := (logResumed s).log.tot } }).bootEntry := by
  obtain ⟨h1, hf⟩ := h
  exact if_neg (not_or_intro (not_not_intro h1) (ne_true_of_eq_false hf))

end

/-! ### Commands -/

section
variable {s u : State} {e : QEntry} (h : Started 31 0x100 s e u)
include h

theorem lgFlush_unit (hu : e.desc.unit ≠ 0xFF) : Finishes .lgFlush s u e 0x02 0 0 := congrArg _ (runCommand_ends h (if_pos hu))

variable (hu : e.desc.unit = 0xFF)
include hu

theorem lgFlush_notRunning (hs : u.fld R.LOG_STATE F.LOG_STATE_state ≠ 2) : Finishes .lgFlush s u e 0x06 0 0 :=
  congrArg _ (runCommand_ends h ((if_neg (not_not_intro hu)).trans (if_pos hs)))

theorem lgFlush_flushes (hs : u.fld R.LOG_STATE F.LOG_STATE_state = 2) : GoesOn .lgFlush s u.formEvents.formTotals 31 :=
  congrArg _ (runCommand_goes_on h ((if_neg (not_not_intro hu)).trans (if_neg (not_not_intro hs))))

end

section
variable {s u : State} {e : QEntry} (h : Started 31 0x102 s e u)
include h

theorem lgNote_malformed (hm : e.desc.unit ≠ 0xFF ∨ bufferOk e.desc.arg0 216 = false) : Finishes .lgNote s u e 0x02 0 0 :=
  congrArg _ (runCommand_ends h (if_pos hm))

variable (hm : ¬ (e.desc.unit ≠ 0xFF ∨ bufferOk e.desc.arg0 216 = false))
include hm

theorem lgNote_disabled (he : u.flag R.LOG_CFG F.LOG_CFG_enable = false) : Finishes .lgNote s u e 0x06 0 0 :=
  congrArg _ (runCommand_ends h ((if_neg hm).trans (if_pos he)))

theorem lgNote_stages (he : u.flag R.LOG_CFG F.LOG_CFG_enable = true) :
    Finishes .lgNote s (u.logStage 6 (u.bytes e.desc.arg0 216)) e 0 0 0 :=
  congrArg _ (runCommand_ends h ((if_neg hm).trans (if_neg (ne_false_of_eq_true he))))

end

theorem lgRead_answers {s u : State} {e : QEntry} (h : Started 31 0x101 s e u) :
    let read := u.lgRead e.desc.unit e.desc.arg0 e.desc.arg1 e.desc.arg2
    Finishes .lgRead s read.2 e read.1.1 read.1.2.1 read.1.2.2 :=
  congrArg _ (runCommand_ends h rfl)

theorem obsLogEngineFault_log {s : State} : Does (.obsLogEngineFault true) s
    ((({ s with log := { s.log with fault := true } }).setFlag R.LOG_STATUS F.LOG_STATUS_engine_fault true).logFault 0x23 0x0004 []) := by
  change execObsLogEngineFault true s = _
  rw [execObsLogEngineFault, if_pos rfl]

theorem obsLogEngineFault_obs {s : State} : Does (.obsLogEngineFault false) s
    ((({ s with obs := { s.obs with fault := true } }).setFlag R.OBS_STATUS F.OBS_STATUS_engine_fault true).logFault 0x22 0x0001 []) := by
  change execObsLogEngineFault false s = _
  rw [execObsLogEngineFault, if_neg Bool.false_ne_true]

/-- Settles O47: summaries by the fault, writes by what is staged and whether LOG runs, recovery by its state, commands by their refusals in order. -/
theorem logbookRows : Obligations.LogbookRows := by
  unfold Obligations.LogbookRows
  intro s u e x rest w p staged hour seq off page next put good drawn spoilt bad fails failed recovering seqs heads ready resumed d read
  refine ⟨fun h => ⟨logHourlySummary_faulted h, logEventEntryTimer_faulted h⟩, logHourlySummary_sums, logEventEntryTimer_forms,
    fun h _ => logEntryWrite_nothingStaged h, fun h hr _ => logEntryWrite_stopped h hr, logEntryWrite_commits, logEntryWrite_fails, logRecovery_idle,
    logRecovery_resumes, fun h => ⟨lgFlush_unit h, lgFlush_notRunning h, lgFlush_flushes h⟩, lgRead_answers, fun h => ?_, obsLogEngineFault_log,
    obsLogEngineFault_obs⟩
  have formed : d.unit = 0xFF → bufferOk d.arg0 216 = true → ¬ (d.unit ≠ 0xFF ∨ bufferOk d.arg0 216 = false) :=
    fun hu hb => not_or_intro (not_not_intro hu) (ne_false_of_eq_true hb)
  exact ⟨lgNote_malformed h, fun hu hb => lgNote_disabled h (formed hu hb), fun hu hb => lgNote_stages h (formed hu hb)⟩

end Sys2Proof.Proofs

/-! PROOF. The harbour firmware's mailbox services (R474, R476, R478, R479, Table HIF-3). What of them is the model's choice or reading:
notes/assumptions/62 and 66 to 68. -/
namespace Sys2Proof.Proofs
open Sys2Proof Sys2Proof.Machine Sys2Proof.Safety Sys2Proof.Laws

/-! ### Requests -/

section
variable {c : Instr} {s u v : State} {slot : Fin 64} {n r : Nat} {data : List Byte} {k : CoreId} {l : List Byte}
  {f : CoreId → List Byte → State → Answer × State} (hc : exec c s = .next (s.serve slot n f))
include hc

theorem does_of_not_servable (h : s.servable slot.val n = false) : Does c s s := hc.trans (congrArg _ (serve_idle h))

/-- A request that is served gets the answer of its service. -/
theorem replies_of_served (h : Served s slot n k l u) (hf : f k l u = (⟨r, data⟩, v)) : Replies c s v slot n r data := by
  refine hc.trans (congrArg _ ((serve_served h).trans ?_))
  rw [hf]

end

section
variable {s u : State} {slot : Fin 64} {k : CoreId} {l : List Byte}

/-- The security version of the harbour manifest in use, 0 with none. -/
abbrev harbourVersion (t : State) : Nat := (t.boot.harbour.map (fun o => t.mf o 0x0C 4)).getD 0

theorem ping_replies (h : Served s slot 0x01 k l u) :
    Replies (.ping slot) s u.draw.2 slot 0x01 0 (leBytes 4 (harbourVersion u.draw.2) ++ leBytes 4 u.draw.1.toNat) := by
  refine replies_of_served rfl h ?_
  dsimp only
  rw [harbourVersion]
  cases u.draw.2.boot.harbour with
  | none => rfl
  | some o => rfl

/-! ### CFG_WRITE -/

/-- The word that CFG_WRITE writes: the bits of the mask take the value; bits that a 1 would clear are kept. -/
abbrev cfgValue (u : State) (l : List Byte) : W32 :=
  let mask := BitVec.ofNat 32 (argNat l 8 4)
  (u.view (argNat l 0 4) &&& ~~~mask &&& ~~~(w1cMask (fieldsAt (argNat l 0 4)))) ||| (BitVec.ofNat 32 (argNat l 4 4) &&& mask)

/-- The write is a fault at the harbour level. -/
abbrev CfgFaults (u : State) (l : List Byte) : Prop := (u.writeFault true (BitVec.ofNat 64 (argNat l 0 4))).isSome = true

section
variable {ok : Bool} (h : Served s slot 0x10 k l u)
include h

theorem cfgWrite_forbidden (ho : ok = false) : Replies (.cfgWrite slot ok) s u slot 0x10 0x04 [] := replies_of_served rfl h (if_pos ho)

variable (ho : ok = true)
include ho

theorem cfgWrite_absent (ha : u.absentAt (argNat l 0 4) = true) : Replies (.cfgWrite slot ok) s u slot 0x10 0x03 [] :=
  replies_of_served rfl h ((if_neg (ne_false_of_eq_true ho)).trans (if_pos ha))

variable (ha : u.absentAt (argNat l 0 4) = false)
include ha

theorem cfgWrite_faults (hf : CfgFaults u l) : Replies (.cfgWrite slot ok) s u slot 0x10 0x02 [] :=
  replies_of_served rfl h ((if_neg (ne_false_of_eq_true ho)).trans ((if_neg (ne_true_of_eq_false ha)).trans (if_pos hf)))

variable (hf : ¬ CfgFaults u l)
include hf

theorem cfgWrite_laidUp (hd : u.laidUp (domainOfAddr (argNat l 0 4)) = true) : Replies (.cfgWrite slot ok) s u slot 0x10 0x06 [0x05] :=
  replies_of_served rfl h ((if_neg (ne_false_of_eq_true ho)).trans ((if_neg (ne_true_of_eq_false ha)).trans ((if_neg hf).trans (if_pos hd))))

theorem cfgWrite_writes {v : State} (hd : u.laidUp (domainOfAddr (argNat l 0 4)) = false)
    (hv : u.programWrite k (BitVec.ofNat 64 (argNat l 0 4)) (cfgValue u l) = .next v) : Replies (.cfgWrite slot ok) s v slot 0x10 0 [] := by
  refine replies_of_served rfl h ((if_neg (ne_false_of_eq_true ho)).trans ((if_neg (ne_true_of_eq_false ha)).trans ((if_neg hf).trans
    ((if_neg (ne_true_of_eq_false hd)).trans ?_))))
  dsimp only
  rw [hv]

end

/-! ### Engine commands -/

/-- The queue that ENGINE_CMD names. -/
abbrev cmdQueue (l : List Byte) : Fin 64 := Fin.ofNat 64 (argNat l 0 1)

/-- The queue number or a field that must be 0 is wrong, or the queue has no place at all. -/
abbrev CmdMalformed (u : State) (l : List Byte) : Prop := 64 ≤ argNat l 0 1 ∨ argNat l 1 3 ≠ 0 ∨ (u.queue (cmdQueue l)).depth = 0

/-- The host's descriptor is posted. -/
abbrev cmdPosted (u : State) (k : CoreId) (l : List Byte) : W32 × State := u.accept k (cmdQueue l) (descOf ((l.drop 4).take 32))

section
variable (h : Served s slot 0x11 k l u)
include h

theorem engineCmd_malformed (hm : CmdMalformed u l) : Replies (.engineCmd slot) s u slot 0x11 0x02 [] := replies_of_served rfl h (if_pos hm)

variable (hm : ¬ CmdMalformed u l)
include hm

theorem engineCmd_full (hd : (u.queue (cmdQueue l)).depth ≤ (u.queue (cmdQueue l)).entries.length) :
    Replies (.engineCmd slot) s u slot 0x11 0x05 [] :=
  replies_of_served rfl h ((if_neg hm).trans (if_pos hd))

theorem engineCmd_posts (hd : (u.queue (cmdQueue l)).entries.length < (u.queue (cmdQueue l)).depth) :
    Replies (.engineCmd slot) s (cmdPosted u k l).2 slot 0x11 0 (leBytes 4 (cmdPosted u k l).1.toNat) :=
  replies_of_served rfl h ((if_neg hm).trans (if_neg (Nat.not_le.mpr hd)))

end

/-! ### LOAD_BERTH -/

section
variable (h : Served s slot 0x20 k l u)
include h

theorem loadBerth_malformed (hw : 1 < argNat l 4 1) : Replies (.loadBerth slot) s u slot 0x20 0x02 [] := replies_of_served rfl h (if_pos hw)

variable (hw : argNat l 4 1 ≤ 1)
include hw

theorem loadBerth_notOperational (ho : u.secStateCode ≠ 1) : Replies (.loadBerth slot) s u slot 0x20 0x06 [0x02] :=
  replies_of_served rfl h ((if_neg (Nat.not_lt.mpr hw)).trans (if_pos ho))

variable (ho : u.secStateCode = 1)
include ho

variable {code : Nat} {v : State} (hl : u.loadBerth (argNat l 0 4) = (code, v))
include hl

theorem loadBerth_rejected (hc : code ≠ 0) : Replies (.loadBerth slot) s v slot 0x20 0x06 [BitVec.ofNat 8 code] := by
  refine replies_of_served rfl h ((if_neg (Nat.not_lt.mpr hw)).trans ((if_neg (not_not_intro ho)).trans ?_))
  rw [hl]
  exact if_pos hc

theorem loadBerth_loads (hc : code = 0) : Replies (.loadBerth slot) s
    (if argNat l 4 1 = 1 then { v with berth := { v.berth with swapReq := true } } else v) slot 0x20 0 [0] := by
  refine replies_of_served rfl h ((if_neg (Nat.not_lt.mpr hw)).trans ((if_neg (not_not_intro ho)).trans ?_))
  rw [hl]
  exact if_neg (not_not_intro hc)

end

/-! ### The flash -/

/-- The number of bytes, a field that must be 0 or the span is wrong (R479). -/
abbrev FlashWriteMalformed (l : List Byte) : Prop :=
  argNat l 4 1 = 0 ∨ 48 < argNat l 4 1 ∨ argNat l 5 3 ≠ 0 ∨ flashSize < argNat l 0 4 + argNat l 4 1

section
variable (h : Served s slot 0x21 k l u)
include h

theorem flashWrite_malformed (hm : FlashWriteMalformed l) : Replies (.flashWrite slot) s u slot 0x21 0x02 [] := replies_of_served rfl h (if_pos hm)

variable (hm : ¬ FlashWriteMalformed l)
include hm

theorem flashWrite_protected (hp : u.flashProtected (argNat l 0 4) (argNat l 4 1) = true) : Replies (.flashWrite slot) s u slot 0x21 0x04 [] :=
  replies_of_served rfl h ((if_neg hm).trans (if_pos hp))

theorem flashWrite_programs (hp : u.flashProtected (argNat l 0 4) (argNat l 4 1) = false) :
    Replies (.flashWrite slot) s (u.flashProgram (argNat l 0 4) ((l.drop 8).take (argNat l 4 1))) slot 0x21 0 [] :=
  replies_of_served rfl h ((if_neg hm).trans (if_neg (ne_true_of_eq_false hp)))

end

/-- The address is not that of a sector of the flash (R479). -/
abbrev FlashEraseMalformed (l : List Byte) : Prop := argNat l 0 4 % 4096 ≠ 0 ∨ flashSize < argNat l 0 4 + 4096

section
variable (h : Served s slot 0x22 k l u)
include h

theorem flashErase_malformed (hm : FlashEraseMalformed l) : Replies (.flashErase slot) s u slot 0x22 0x02 [] := replies_of_served rfl h (if_pos hm)

variable (hm : ¬ FlashEraseMalformed l)
include hm

theorem flashErase_protected (hp : u.flashProtected (argNat l 0 4) 4096 = true) : Replies (.flashErase slot) s u slot 0x22 0x04 [] :=
  replies_of_served rfl h ((if_neg hm).trans (if_pos hp))

theorem flashErase_erases (hp : u.flashProtected (argNat l 0 4) 4096 = false) :
    Replies (.flashErase slot) s (u.flashErase (argNat l 0 4) (argNat l 0 4 + 4096)) slot 0x22 0 [] :=
  replies_of_served rfl h ((if_neg hm).trans (if_neg (ne_true_of_eq_false hp)))

end

section
variable (h : Served s slot 0x23 k l u)
include h

theorem setBootSlot_malformed (hq : 1 < argNat l 0 1) : Replies (.setBootSlot slot) s u slot 0x23 0x02 [] := replies_of_served rfl h (if_pos hq)

variable (hq : argNat l 0 1 ≤ 1)
include hq

theorem setBootSlot_noDirectory (hb : u.setBootSlot (argNat l 0 1) = none) : Replies (.setBootSlot slot) s u slot 0x23 0x06 [0x41] := by
  refine replies_of_served rfl h ((if_neg (Nat.not_lt.mpr hq)).trans ?_)
  rw [hb]

theorem setBootSlot_sets {g : Nat} {v : State} (hb : u.setBootSlot (argNat l 0 1) = some (g, v)) :
    Replies (.setBootSlot slot) s v slot 0x23 0 (leBytes 4 g) := by
  refine replies_of_served rfl h ((if_neg (Nat.not_lt.mpr hq)).trans ?_)
  rw [hb]

end

/-! ### The snapshot and the logbook -/

theorem snapHold_replies (h : Served s slot 0x30 k l u) {data : List Byte} {v : State} (hd : u.snapHold.drawBytes 56 = (data, v)) :
    Replies (.snapHold slot) s v slot 0x30 0 data := by
  refine replies_of_served rfl h ?_
  dsimp only
  rw [hd]

/-- LG_FLUSH as the firmware sends it. -/
abbrev flushDesc : Desc :=
  { opcode := 0x100, flags := 0, unit := 0xFF, epoch := 0, level := 0, rsvd := 0, arg0 := 0, arg1 := 0, resultAddr := 0, arg2 := 0 }

theorem logFlush_notServable (h : s.servable slot.val 0x32 = false) : Does (.logFlush slot) s s := by
  change execLogFlush slot s = _
  rw [execLogFlush, h]

theorem logFlush_posts (h : Served s slot 0x32 k l u) : Does (.logFlush slot) s
    (if (u.queue 31).depth ≤ (u.queue 31).entries.length then u.mbxDone slot.val 0x05 else (u.accept k 31 flushDesc).2) := by
  obtain ⟨hd, hk, -, rfl⟩ := h
  change execLogFlush slot s = _
  rw [execLogFlush, hd, hk]

section
variable {buffer : W32}

theorem logRead_noBuffer (hb : bufferOk buffer.toNat 16384 = false) : Does (.logRead slot buffer) s s := congrArg _ (if_pos hb)

theorem logRead_notServable (h : s.servable slot.val 0x33 = false) : Does (.logRead slot buffer) s s :=
  congrArg _ (ite_eq_left_iff.mpr fun _ => serve_idle h)

/-- What LG_READ gives for the request. -/
abbrev logbookRead (u : State) (buffer : W32) (l : List Byte) : (Nat × Nat × Nat) × State :=
  u.lgRead 0xFF buffer.toNat (argNat l 0 8) (argNat l 8 4)

variable (h : Served s slot 0x33 k l u) (hb : bufferOk buffer.toNat 16384 = true)
include h hb

theorem logRead_unavailable (hr : (logbookRead u buffer l).1.1 = 0x06) :
    Replies (.logRead slot buffer) s (logbookRead u buffer l).2 slot 0x33 0x06 [0x06] :=
  replies_of_served (congrArg _ (if_neg (ne_false_of_eq_true hb))) h (if_pos hr)

variable (hr : (logbookRead u buffer l).1.1 ≠ 0x06)
include hr

theorem logRead_refused (h0 : (logbookRead u buffer l).1.1 ≠ 0) :
    Replies (.logRead slot buffer) s (logbookRead u buffer l).2 slot 0x33 (logbookRead u buffer l).1.1 [] :=
  replies_of_served (congrArg _ (if_neg (ne_false_of_eq_true hb))) h ((if_neg hr).trans (if_pos h0))

theorem logRead_reads (h0 : (logbookRead u buffer l).1.1 = 0) : Replies (.logRead slot buffer) s (logbookRead u buffer l).2 slot 0x33 0
    (leBytes 4 buffer.toNat ++ leBytes 8 (logbookRead u buffer l).1.2.2) :=
  replies_of_served (congrArg _ (if_neg (ne_false_of_eq_true hb))) h ((if_neg hr).trans (if_neg (not_not_intro h0)))

end

end

/-- Settles O48: each service by its refusals in order; a request that is not served changes nothing. -/
theorem harbourFirmwareRows : Obligations.HarbourFirmwareRows := by
  unfold Obligations.HarbourFirmwareRows
  intro s u slot k l buffer ok table a q z post t swap loaded n badWrite badErase mask value fault held read flush version
  refine ⟨?_, ping_replies, fun h => ?_, fun h => ?_, fun h => replies_of_served rfl h rfl,
    fun h => ⟨loadBerth_malformed h, loadBerth_notOperational h, fun hw ho => loadBerth_rejected h hw ho Prod.mk.eta.symm, fun hw ho => loadBerth_loads h hw ho Prod.mk.eta.symm⟩,
    fun h => ⟨flashWrite_malformed h, flashWrite_protected h, flashWrite_programs h⟩,
    fun h => ⟨flashErase_malformed h, flashErase_protected h, flashErase_erases h⟩,
    fun h => ⟨setBootSlot_malformed h, setBootSlot_noDirectory h, fun hq _ _ => setBootSlot_sets h hq⟩, fun h => snapHold_replies h Prod.mk.eta.symm,
    fun h => replies_of_served rfl h rfl, logFlush_posts, fun h hb => ?_, logRead_noBuffer, fun h => replies_of_served rfl h rfl⟩
  · simp only [table, List.forall_mem_cons]
    exact ⟨does_of_not_servable rfl, does_of_not_servable rfl, does_of_not_servable rfl, does_of_not_servable rfl, does_of_not_servable rfl,
      does_of_not_servable rfl, does_of_not_servable rfl, does_of_not_servable rfl, does_of_not_servable rfl, does_of_not_servable rfl,
      logFlush_notServable, logRead_notServable, does_of_not_servable rfl, nofun⟩
  · have sound : fault = false → ¬ CfgFaults u l := ne_true_of_eq_false
    exact ⟨cfgWrite_forbidden h, cfgWrite_absent h, cfgWrite_faults h, fun ho ha hf => cfgWrite_laidUp h ho ha (sound hf),
      fun ho ha hf hd _ => cfgWrite_writes h ho ha (sound hf) hd⟩
  · have formed : q < 64 → argNat l 1 3 = 0 → z.depth ≠ 0 → ¬ CmdMalformed u l :=
      fun hq h0 hd => not_or_intro (Nat.not_le.mpr hq) (not_or_intro (not_not_intro h0) hd)
    exact ⟨engineCmd_malformed h, fun hq h0 hd => engineCmd_full h (formed hq h0 hd), fun hq h0 hd => engineCmd_posts h (formed hq h0 hd)⟩
  · exact ⟨logRead_unavailable h hb, logRead_refused h hb, fun h0 => logRead_reads h hb (fun h6 => nomatch h0.symm.trans h6) h0⟩

end Sys2Proof.Proofs

/-! PROOF. The mailbox, the event ledger, software interrupts and HIF's engine fault (R473 to R475, R481, R482, R486, Table HIF-2). What of them is
the model's choice or reading: notes/assumptions/5, 73, 75 and 76. -/
namespace Sys2Proof.Proofs
open Sys2Proof Sys2Proof.Machine Sys2Proof.Safety Sys2Proof.Laws

/-! ### Posting a request -/

section
variable {s : State} {i2c : Bool} {slot : Fin 64} {word : W32}

theorem mbxPost_unserved (h : s.hifServes = false) : Does (.mbxPost i2c slot word) s s := congrArg _ (if_neg (ne_true_of_eq_false h))

/-- The address of a slot's post word names that slot. -/
theorem mbxSlot_of_postWord (n : Nat) : (mbxReq n + 0x3C - mbxReq 0) / 64 = n := by
  unfold mbxReq
  omega

theorem postWord_mod (n : Nat) : (mbxReq n + 0x3C) % 64 = 0x3C := by
  unfold mbxReq
  omega

/-- The slot belongs to the other port. -/
abbrev Foreign (i2c : Bool) (slot : Fin 64) : Prop := decide (56 ≤ slot.val) ≠ i2c

section
variable (h : s.hifServes = true)
include h

/-- A write of a post word, with the slot's number and the post bit in place of what mbxWrite computes of the address. -/
theorem exec_mbxPost_served : exec (.mbxPost i2c slot word) s = .next (
    if Foreign i2c slot then s.hifErr errMbxPort (mbxReq slot.val + 0x3C) i2c
    else if s.mbxBusy slot.val = true then s.hifErr errMbxBusy (mbxReq slot.val + 0x3C) i2c
    else if word.getLsbD 31 = true ∧ word.toNat % 65536 = 0 then s.hifErr errMbxTag (mbxReq slot.val + 0x3C) i2c
    else if word.getLsbD 31 = true then (s.store (mbxReq slot.val + 0x3C) 4 word.toNat).mbxPost slot.val
    else s.store (mbxReq slot.val + 0x3C) 4 word.toNat) := by
  refine congrArg _ ((if_pos h).trans ?_)
  rw [State.mbxWrite, mbxSlot_of_postWord, postWord_mod]
  rfl

theorem mbxPost_foreign (hf : Foreign i2c slot) : Does (.mbxPost i2c slot word) s (s.hifErr errMbxPort (mbxReq slot.val + 0x3C) i2c) :=
  (exec_mbxPost_served h).trans (congrArg _ (if_pos hf))

variable (hf : ¬ Foreign i2c slot)
include hf

theorem mbxPost_busy (hb : s.mbxBusy slot.val = true) : Does (.mbxPost i2c slot word) s (s.hifErr errMbxBusy (mbxReq slot.val + 0x3C) i2c) :=
  (exec_mbxPost_served h).trans (congrArg _ ((if_neg hf).trans (if_pos hb)))

variable (hb : s.mbxBusy slot.val = false)
include hb

theorem mbxPost_tagless (hp : word.getLsbD 31 = true) (ht : word.toNat % 65536 = 0) :
    Does (.mbxPost i2c slot word) s (s.hifErr errMbxTag (mbxReq slot.val + 0x3C) i2c) :=
  (exec_mbxPost_served h).trans (congrArg _ ((if_neg hf).trans ((if_neg (ne_true_of_eq_false hb)).trans (if_pos ⟨hp, ht⟩))))

theorem mbxPost_posts (hp : word.getLsbD 31 = true) (ht : word.toNat % 65536 ≠ 0) :
    Does (.mbxPost i2c slot word) s ((s.store (mbxReq slot.val + 0x3C) 4 word.toNat).mbxPost slot.val) :=
  (exec_mbxPost_served h).trans (congrArg _ ((if_neg hf).trans ((if_neg (ne_true_of_eq_false hb)).trans
    ((if_neg fun hc => ht hc.2).trans (if_pos hp)))))

theorem mbxPost_stores (hp : word.getLsbD 31 = false) : Does (.mbxPost i2c slot word) s (s.store (mbxReq slot.val + 0x3C) 4 word.toNat) :=
  (exec_mbxPost_served h).trans (congrArg _ ((if_neg hf).trans ((if_neg (ne_true_of_eq_false hb)).trans
    ((if_neg fun hc => ne_true_of_eq_false hp hc.1).trans (if_neg (ne_true_of_eq_false hp))))))

end

end

/-! ### Answers and the deadline -/

section
variable {s : State} {slot : Fin 64} {result : Byte}

/-- Slot n is neither expired, busy nor posted. -/
abbrev slotFreed (n : Nat) (v : State) : State :=
  (({ v with hif := { v.hif with expired := v.hif.expired.filter (· != n) } }).setMbxBit R.HIF_MBX_BUSY n false).setMbxBit R.HIF_MBX_PEND n false

theorem mbxDone_stray (hb : s.mbxBusy slot.val = false) : Does (.mbxDone slot result) s (s.addCnt R.HIF_MBX_STRAY_CNT 1) := congrArg _ (if_pos hb)

section
variable (hb : s.mbxBusy slot.val = true)
include hb

theorem mbxDone_late (he : s.mbxExpired slot.val = true) : Does (.mbxDone slot result) s (slotFreed slot.val s) := by
  refine congrArg _ ((if_neg (ne_false_of_eq_true hb)).trans ?_)
  rw [if_pos he]

theorem mbxDone_answers (he : s.mbxExpired slot.val = false) :
    Does (.mbxDone slot result) s (slotFreed slot.val (s.mbxDoneWord slot.val result.toNat)) := by
  refine congrArg _ ((if_neg (ne_false_of_eq_true hb)).trans ?_)
  rw [if_neg (ne_true_of_eq_false he)]

end

/-- No slot that could run out of time: HIF does not serve, or the slot is free or has expired before. -/
abbrev NoDeadline (s : State) (slot : Fin 64) : Prop := s.hifServes = false ∨ s.mbxBusy slot.val = false ∨ s.mbxExpired slot.val = true

theorem mbxDeadlineExpiry_idle (hd : NoDeadline s slot) : Does (.mbxDeadlineExpiry slot) s s := if_pos hd

/-- The slot is expired with open response data, counted and shown. -/
abbrev slotExpired (n : Nat) (s : State) : State :=
  let late := (s.mbxDoneWord n 0xFE).drawBytes 56
  let put := late.2.setBytes (mbxResp n + 4) late.1
  (({ put with hif := { put.hif with expired := n :: put.hif.expired } }).addCnt R.HIF_MBX_TIMEOUT_CNT 1).setFlag R.HIF_STATUS F.HIF_STATUS_mbx_timeout true

theorem mbxDeadlineExpiry_expires (hd : ¬ NoDeadline s slot) : Does (.mbxDeadlineExpiry slot) s ((slotExpired slot.val s).logEvent 0x24 sevWarn 0x0002
    (evData [(1, slot.val), (2, (slotExpired slot.val s).load (mbxReq slot.val) 2), (2, (slotExpired slot.val s).load (mbxReq slot.val + 0x3C) 2)])) :=
  if_neg hd

end

/-! ### The ledger and the engine fault -/

section
variable {s t : State} {en : LedgerEvent}

theorem ledgerEventWrite_unserved (h : s.hifServes = false) : Does .ledgerEventWrite s s := if_pos h

theorem ledgerEventWrite_empty (h : s.hifServes = true) (hl : s.ledgerTake = none) : Does .ledgerEventWrite s s := by
  refine (if_neg (ne_false_of_eq_true h)).trans ?_
  rw [hl]

theorem ledgerEventWrite_puts (h : s.hifServes = true) (hl : s.ledgerTake = some (en, t)) : Does .ledgerEventWrite s (t.ledgerPut en) := by
  refine (if_neg (ne_false_of_eq_true h)).trans ?_
  rw [hl]

theorem hifEngineFault_stopped (h : s.hif.stopped = true) : Does .hifEngineFault s s := if_pos h

/-- The engine fault is shown in HIF_STATUS. -/
abbrev hifFaultShown (s : State) : State := s.setFlag R.HIF_STATUS F.HIF_STATUS_engine_fault true

section
variable (h : s.hif.stopped = false)
include h

theorem hifEngineFault_rootLost (hr : s.time.rootLoss.isSome = true) : Does .hifEngineFault s
    { hifFaultShown s with hif := { (hifFaultShown s).hif with waiting := [], drops := 0, stopped := true } } :=
  (if_neg (ne_true_of_eq_false h)).trans (if_pos hr)

/-- The fault's event is the last entry of the ledger. -/
abbrev hifFaultLogged (s : State) : State :=
  let drawn := (hifFaultShown s).draw
  let emptied := { drawn.2 with hif := { drawn.2.hif with waiting := [], drops := 0 } }
  emptied.ledgerPut { time := drawn.2.time.devtime, block := 0x24, sev := sevFault, code := 0x0003, data := evData [(4, drawn.1.toNat)] }

theorem hifEngineFault_logs (hr : s.time.rootLoss.isSome = false) : Does .hifEngineFault s
    { hifFaultLogged s with hif := { (hifFaultLogged s).hif with stopped := true } } :=
  (if_neg (ne_true_of_eq_false h)).trans (if_neg (ne_true_of_eq_false hr))

end

end

/-- Settles O51: each row by its refusals in order; while HIF does not serve, no post, no deadline and no ledger entry. -/
theorem mailboxRows : Obligations.MailboxRows := by
  unfold Obligations.MailboxRows
  intro s t i2c slot word bits result en n a post foreign stored freed worded late put marked lostRoot drawn emptied last
  exact ⟨fun h => ⟨mbxPost_unserved h, ledgerEventWrite_unserved h⟩,
    fun h => ⟨mbxPost_foreign h, mbxPost_busy h, mbxPost_tagless h, mbxPost_posts h, mbxPost_stores h⟩, rfl, mbxDone_stray, mbxDone_late,
    mbxDone_answers, mbxDeadlineExpiry_idle, mbxDeadlineExpiry_expires, ledgerEventWrite_empty, ledgerEventWrite_puts, rfl, hifEngineFault_stopped,
    hifEngineFault_rootLost, hifEngineFault_logs⟩

end Sys2Proof.Proofs

/-! PROOF. The boot flash: HIF's commands and the recovery path (R479, R480, R483, Table HIF-8). What of them is the model's choice or reading:
notes/assumptions/5 and 69 to 72; results that no table gives are 0 (notes/assumptions/25). -/
namespace Sys2Proof.Proofs
open Sys2Proof Sys2Proof.Machine Sys2Proof.Safety Sys2Proof.Laws

/-! ### Commands -/

/-- The number of bytes that HF_FLASH_READ reads. -/
abbrev readLen (d : Desc) : Nat := d.arg1 % 131072

/-- The unit, the length, the buffer or the span of a reading is wrong. -/
abbrev ReadMalformed (d : Desc) : Prop :=
  d.unit ≠ 0xFF ∨ readLen d = 0 ∨ 65536 < readLen d ∨ bufferOk d.arg2 (readLen d) = false ∨ flashSize < d.arg0 + readLen d

/-- The unit, the page or the buffer is wrong, or the page may not be programmed (R479). -/
abbrev ProgramMalformed (u : State) (d : Desc) : Prop :=
  d.unit ≠ 0xFF ∨ d.arg0 % 256 ≠ 0 ∨ bufferOk d.arg2 256 = false ∨ flashSize < d.arg0 + 256 ∨ u.flashProtected d.arg0 256 = true

/-- The unit or the sector is wrong, or the sector may not be erased (R479). -/
abbrev EraseMalformed (u : State) (d : Desc) : Prop :=
  d.unit ≠ 0xFF ∨ d.arg0 % 4096 ≠ 0 ∨ flashSize < d.arg0 + 4096 ∨ u.flashProtected d.arg0 4096 = true

section
variable {s u : State} {e : QEntry}

section
variable (h : Started 32 0x100 s e u)
include h

theorem hfFlashRead_malformed (hm : ReadMalformed e.desc) : Finishes .hfFlashRead s u e 0x02 0 0 :=
  congrArg _ (runCommand_ends h (if_pos hm))

theorem hfFlashRead_reads (hm : ¬ ReadMalformed e.desc) :
    Finishes .hfFlashRead s (u.setBytes e.desc.arg2 (u.flashBytes e.desc.arg0 (readLen e.desc))) e 0 0 0 :=
  congrArg _ (runCommand_ends h (if_neg hm))

end

section
variable (h : Started 32 0x101 s e u)
include h

theorem hfFlashProgram_malformed (hm : ProgramMalformed u e.desc) : Finishes .hfFlashProgram s u e 0x02 0 0 :=
  congrArg _ (runCommand_ends h (if_pos hm))

/-- The page of a command is programmed from its buffer. -/
abbrev pageProgrammed (u : State) (d : Desc) : State := u.flashProgram d.arg0 (u.bytes d.arg2 256)

theorem hfFlashProgram_programs (hm : ¬ ProgramMalformed u e.desc) : Finishes .hfFlashProgram s (pageProgrammed u e.desc) e 0
    (b2n ((pageProgrammed u e.desc).flashBytes e.desc.arg0 256 != u.bytes e.desc.arg2 256)) 0 :=
  congrArg _ (runCommand_ends h (if_neg hm))

end

section
variable (h : Started 32 0x102 s e u)
include h

theorem hfFlashErase_malformed (hm : EraseMalformed u e.desc) : Finishes .hfFlashErase s u e 0x02 0 0 :=
  congrArg _ (runCommand_ends h (if_pos hm))

theorem hfFlashErase_erases (hm : ¬ EraseMalformed u e.desc) :
    Finishes .hfFlashErase s (u.flashErase e.desc.arg0 (e.desc.arg0 + 4096)) e 0 0 0 :=
  congrArg _ (runCommand_ends h (if_neg hm))

end

theorem hfLogEvent_waits (hw : 64 ≤ s.hif.waiting.length) : Does .hfLogEvent s s := congrArg _ (if_pos hw)

/-- The code of a program's event. -/
abbrev eventCode (d : Desc) : Nat := d.arg0 % 65536

section
variable (hw : s.hif.waiting.length < 64) (h : Started 32 0x103 s e u)
include hw h

theorem hfLogEvent_malformed (hm : e.desc.unit ≠ 0xFF ∨ eventCode e.desc < 0x8000) : Finishes .hfLogEvent s u e 0x02 0 0 :=
  congrArg _ ((if_neg (Nat.not_le.mpr hw)).trans (runCommand_ends h (if_pos hm)))

theorem hfLogEvent_logs (hu : e.desc.unit = 0xFF) (hc : 0x8000 ≤ eventCode e.desc) : Finishes .hfLogEvent s
    (u.logEvent 0x24 (e.desc.arg0 / 65536 % 4) (eventCode e.desc) (evData [(8, e.desc.arg1), (4, e.desc.arg2)])) e 0 0 0 :=
  congrArg _ ((if_neg (Nat.not_le.mpr hw)).trans
    (runCommand_ends h (if_neg (not_or_intro (not_not_intro hu) (Nat.not_lt.mpr hc)))))

end

end

/-! ### The recovery path (R480) -/

/-- HIF_FLASH_CMD shows operation op. -/
abbrev recoveryAsked (s : State) (op : Nat) : State := s.setFld R.HIF_FLASH_CMD F.HIF_FLASH_CMD_op op

/-- The offset that the host asks for. -/
abbrev recoveryOffset (s : State) (op : Nat) : Nat := ((recoveryAsked s op).reg R.HIF_FLASH_ADDR).toNat

/-- A recovery operation has ended: go reads 0, done is set. -/
abbrev recoveryEnded (v : State) : State :=
  (v.setFlag R.HIF_FLASH_CMD F.HIF_FLASH_CMD_go false).setFlag R.HIF_FLASH_STATUS F.HIF_FLASH_STATUS_done true

/-- It has ended, shown as refused. -/
abbrev recoveryRefused (v : State) : State := (recoveryEnded v).setFlag R.HIF_FLASH_STATUS F.HIF_FLASH_STATUS_refused true

theorem recoveryDone_false (v : State) : v.recoveryDone false = recoveryEnded v := rfl

theorem recoveryDone_true (v : State) : v.recoveryDone true = recoveryRefused v := rfl

section
variable {c : Instr} {s : State} {op : Nat} (hc : exec c s = .next (s.recoveryRow op))
include hc

theorem does_of_recovery_unserved (h : s.hifServes = false) : Does c s s := hc.trans (congrArg _ (if_pos h))

theorem does_of_recovery_closed (h : s.hifServes = true) (ho : s.recoveryOpen = false) :
    Does c s (s.hifErr errRegion R.HIF_FLASH_CMD false) :=
  hc.trans (congrArg _ ((if_neg (ne_false_of_eq_true h)).trans (if_neg (ne_true_of_eq_false ho))))

theorem does_of_recovery_open (h : s.hifServes = true ∧ s.recoveryOpen = true) : Does c s (s.recoveryRun op) :=
  hc.trans (congrArg _ ((if_neg (ne_false_of_eq_true h.1)).trans (if_pos h.2)))

theorem does_of_recovery_beyond (h : s.hifServes = true ∧ s.recoveryOpen = true) (ho : flashSize ≤ recoveryOffset s op) :
    Does c s (recoveryRefused (recoveryAsked s op)) :=
  (does_of_recovery_open hc h).trans (congrArg _ ((if_pos ho).trans (recoveryDone_true _)))

end

section
variable {s : State} (h : s.hifServes = true ∧ s.recoveryOpen = true)
include h

/-- The page and the sector that hold the host's offset. -/
abbrev recoveryPage (s : State) (op : Nat) : Nat := recoveryOffset s op / 256 * 256
abbrev recoverySector (s : State) (op : Nat) : Nat := recoveryOffset s op / 4096 * 4096

theorem flashRecoveryRead_reads (ho : recoveryOffset s 1 < flashSize) : Does .flashRecoveryRead s
    (recoveryEnded (forN 64 (fun w t => t.setReg (R.HIF_FLASH_DATA w) (BitVec.ofNat 32 (t.flashNat (recoveryPage s 1 + 4 * w) 4)))
      (recoveryAsked s 1))) :=
  (does_of_recovery_open rfl h).trans (congrArg _ ((if_neg (Nat.not_le.mpr ho)).trans (recoveryDone_false _)))

theorem flashRecoveryProgram_programs (ho : recoveryOffset s 2 < flashSize) : Does .flashRecoveryProgram s
    (if (recoveryAsked s 2).recoveryProtected (recoveryPage s 2) 256 then recoveryRefused (recoveryAsked s 2)
     else recoveryEnded ((recoveryAsked s 2).flashProgram (recoveryPage s 2)
      ((List.range 64).flatMap (fun w => leBytes 4 ((recoveryAsked s 2).reg (R.HIF_FLASH_DATA w)).toNat)))) :=
  (does_of_recovery_open rfl h).trans (congrArg _ (if_neg (Nat.not_le.mpr ho)))

theorem flashRecoveryErase_erases (ho : recoveryOffset s 3 < flashSize) : Does .flashRecoveryErase s
    (if (recoveryAsked s 3).recoveryProtected (recoverySector s 3) 4096 then recoveryRefused (recoveryAsked s 3)
     else recoveryEnded ((recoveryAsked s 3).flashErase (recoverySector s 3) (recoverySector s 3 + 4096))) :=
  (does_of_recovery_open rfl h).trans (congrArg _ (if_neg (Nat.not_le.mpr ho)))

end

/-- Settles O52: each command by its refusals; the recovery rows by what recoveryRow does unserved, closed, beyond the flash and inside it. -/
theorem flashRows : Obligations.FlashRows := by
  unfold Obligations.FlashRows
  intro s u e d n badRead badProg put badErase code asked o page sector ended refused opened per
  exact ⟨fun h => ⟨hfFlashRead_malformed h, hfFlashRead_reads h⟩, fun h => ⟨hfFlashProgram_malformed h, hfFlashProgram_programs h⟩,
    fun h => ⟨hfFlashErase_malformed h, hfFlashErase_erases h⟩, hfLogEvent_waits, fun hw h => ⟨hfLogEvent_malformed hw h, hfLogEvent_logs hw h⟩,
    ⟨does_of_recovery_unserved rfl, does_of_recovery_closed rfl, does_of_recovery_beyond rfl⟩,
    ⟨does_of_recovery_unserved rfl, does_of_recovery_closed rfl, does_of_recovery_beyond rfl⟩,
    ⟨does_of_recovery_unserved rfl, does_of_recovery_closed rfl, does_of_recovery_beyond rfl⟩,
    flashRecoveryRead_reads, flashRecoveryProgram_programs, flashRecoveryErase_erases⟩

end Sys2Proof.Proofs

/-! PROOF. Arithmetic, loads and stores, and the entry into and return from a fault (R38, R40, R44 to R48, R55, Tables HXS-4, HXS-7, HXS-9). What of them is
the model's choice or reading: notes/assumptions/9 and 17 to 19. -/
namespace Sys2Proof.Proofs
open Sys2Proof Sys2Proof.Machine Sys2Proof.Safety Sys2Proof.Laws

/-! ### Arithmetic and logic -/

theorem alu_writes {i : Instr} {k : CoreId} {s : State} {rd : BitVec 5} {f : PlelisCore → W64} {v : W64} (h : Fetches s k)
    (he : exec i s = .next (s.coreAlu k true rd f)) (hv : f (s.core k) = v) : Leaves i s k (wrote (s.core k) rd v ((s.core k).pc + 4)) :=
  hv ▸ leaves_alu h he

/-- Settles O6: each instruction computes its result from the registers, writes rd and retires. -/
theorem arithmeticWritesRd : Obligations.ArithmeticWritesRd := by
  unfold Obligations.ArithmeticWritesRd
  intro k s rd ra rb imm h c a b next
  exact ⟨alu_writes h rfl rfl, alu_writes h rfl rfl, alu_writes h rfl rfl, alu_writes h rfl rfl, alu_writes h rfl rfl, alu_writes h rfl rfl,
    alu_writes h rfl rfl, alu_writes h rfl rfl, alu_writes h rfl rfl, alu_writes h rfl rfl, alu_writes h rfl rfl, alu_writes h rfl rfl,
    alu_writes h rfl rfl⟩

/-- A sum limited to the range of Q31, and whether it lay outside. -/
theorem satQ31_eq (x : Int) : satQ31 x = (max (-(2 ^ 31)) (min (2 ^ 31 - 1) x), decide (x < -(2 ^ 31) ∨ 2 ^ 31 - 1 < x)) := by
  unfold satQ31
  grind

theorem maddq_eq (d a b : W64) :
    let q31 := fun (v : W64) => (v.truncate 32 : W32).toInt
    let x : Int := q31 d + q31 a * q31 b / 2 ^ 31
    maddq d a b = (BitVec.ofInt 64 (max (-(2 ^ 31)) (min (2 ^ 31 - 1) x)), decide (x < -(2 ^ 31) ∨ 2 ^ 31 - 1 < x)) := by
  simp only [maddq, satQ31_eq]

/-- MADDQ sets sat where maddq limited the sum, and writes its result to rd. -/
theorem maddq_writes {k : CoreId} {s : State} {rd ra rb : BitVec 5} (h : Fetches s k) :
    let c := s.core k
    let r := maddq (c.gpr rd) (c.gpr ra) (c.gpr rb)
    Leaves (.maddq k rd ra rb) s k (wrote { c with pstate := if r.2 then pstateSat c.pstate else c.pstate } rd r.1 (c.pc + 4)) := by
  intro c r
  exact leaves_next h rfl (fun c => ({ c with pstate := if r.2 then pstateSat c.pstate else c.pstate } : PlelisCore).setGpr rd r.1) rfl
    (setGpr_pc _ _ _) ((setGpr_wait _ _ _).trans h.free)

/-- Settles O7: MADDQ's limited sum is what satQ31 gives; the core then retires. -/
theorem maddqLimits : Obligations.MaddqLimits := by
  unfold Obligations.MaddqLimits
  intro k s rd ra rb h c q31 x
  have key := maddq_writes (rd := rd) (ra := ra) (rb := rb) h
  simp only [maddq_eq, decide_eq_true_eq, pstateSat] at key
  exact key

/-! ### Faults -/

/-- A value below 8 has no bit from 3 on. -/
theorem below8_bit {m : W32} (h : m.toNat < 8) (i : Nat) : m.getLsbD (i + 3) = false :=
  Nat.testBit_lt_two_pow (h.trans_le (by rw [Nat.pow_add]; exact Nat.le_mul_of_pos_left 8 (Nat.two_pow_pos i)))

theorem clear_below8_bit {m : W32} (h : m.toNat < 8) (p : W32) (i : Nat) : (p &&& ~~~m).getLsbD (i + 3) = p.getLsbD (i + 3) := by
  by_cases hi : i + 3 < 32
  · simp only [BitVec.getLsbD_and, BitVec.getLsbD_not, below8_bit h, hi, decide_true, Bool.not_false, Bool.and_true]
  · simp only [BitVec.getLsbD_of_ge _ _ (Nat.le_of_not_lt hi)]

/-- The bits of PSTATE after a fault is taken: lvl and fh are 1, plvl is the old lvl, the others stay (Table HXS-4). -/
theorem pstateEnter_bit (p : W32) (i : Nat) :
    (pstateEnter p).getLsbD i = if i = 0 ∨ i = 2 then true else if i = 1 then p.getLsbD 0 else p.getLsbD i := by
  match i with
  | 0 | 1 | 2 => simp [pstateEnter]
  | i + 3 =>
    rw [pstateEnter, BitVec.getLsbD_or, BitVec.getLsbD_or, clear_below8_bit (by decide), below8_bit (m := 5) (by decide)]
    simp

/-- The bits of PSTATE after ERET: lvl is the old plvl, fh is 0, the others stay (Table HXS-7). -/
theorem pstateLeave_bit (p : W32) (i : Nat) :
    (pstateLeave p).getLsbD i = if i = 0 then p.getLsbD 1 else if i = 2 then false else p.getLsbD i := by
  match i with
  | 0 | 1 | 2 => simp [pstateLeave]
  | i + 3 =>
    rw [pstateLeave, BitVec.getLsbD_or, clear_below8_bit (by decide)]
    simp

/-- The fields of FAULT (Table HXS-9). -/
theorem faultWord_fields {cause block detail : Nat} (hc : cause < 256) (hb : block < 256) (hd : detail < 65536) :
    let w := BitVec.ofNat 32 (cause + 0x100 * block + 0x10000 * (detail % 65536))
    w.toNat % 256 = cause ∧ w.toNat / 256 % 256 = block ∧ w.toNat / 65536 = detail := by
  dsimp only
  rw [BitVec.toNat_ofNat]
  omega

/-- Settles O12: taking a fault and returning from it are updates of the core; PSTATE changes in lvl, plvl and fh alone. -/
theorem faultEntrySaves : Obligations.FaultEntrySaves := by
  unfold Obligations.FaultEntrySaves
  intro c cause block detail a hc hb hd
  refine ⟨fun hf => ?_, fun hf => if_pos hf, rfl, pstateLeave_bit _ 0, pstateLeave_bit _ 2, fun i h0 h2 => ?_, rfl, rfl, rfl⟩
  · have taken : faulted c cause block detail a = c.takeFault cause block detail a := if_neg (by simp [hf])
    obtain ⟨hcause, hblock, hdetail⟩ := faultWord_fields hc hb hd
    dsimp only
    rw [taken]
    exact ⟨rfl, hcause, hblock, hdetail, rfl, rfl, pstateEnter_bit _ 0, pstateEnter_bit _ 2, pstateEnter_bit _ 1,
      fun i hi => (pstateEnter_bit _ i).trans ((if_neg (by omega)).trans (if_neg (by omega))), rfl, rfl, rfl, rfl, rfl, rfl⟩
  · exact (pstateLeave_bit _ i).trans ((if_neg h0).trans (if_neg h2))

/-! ### Loads and stores -/

theorem load_reads {i : Instr} {k : CoreId} {s : State} {n : Nat} {rd ra : BitVec 5} {imm : BitVec 16} (h : Fetches s k)
    (he : exec i s = .next (s.coreLoad k n rd ra imm)) (ha : ((s.core k).ea ra imm).toNat % n = 0)
    (hl : s.loadOk (s.core k).harbour ((s.core k).ea ra imm).toNat = true) (hu : Unmarked s (coreAddr k ((s.core k).ea ra imm).toNat) n) :
    Leaves i s k (wrote (s.core k) rd (BitVec.ofNat 64 (s.load (coreAddr k ((s.core k).ea ra imm).toNat) n)) ((s.core k).pc + 4)) :=
  leaves_next h he (fun c => c.setGpr rd (BitVec.ofNat 64 (s.load (coreAddr k ((s.core k).ea ra imm).toNat) n)))
    (by simp only [ha, hl, coreRead_unmarked hu, ne_eq, not_true_eq_false, if_false, if_true, Bool.true_eq_false]) (setGpr_pc _ _ _)
    ((setGpr_wait _ _ _).trans h.free)

/-- Settles O9: an aligned load from where the core may load reads the bytes of its own view. -/
theorem loadsReadMemory : Obligations.LoadsReadMemory := by
  unfold Obligations.LoadsReadMemory
  intro k s rd ra imm h c a loads
  exact ⟨load_reads h rfl, load_reads h rfl, load_reads h rfl, load_reads h rfl⟩

theorem coreStore_core (k j : CoreId) (a n v : Nat) (s : State) : (s.coreStore k a n v).core j = s.core j := by
  have hw := coreStore_within (l := [.mem, .hws, .ecc, .regs]) k a n v rfl (Within.refl _ s)
  cases j
  · exact hw.2.2 .coreA rfl
  · exact hw.2.2 .coreB rfl

/-- A core that retires while it waits for nothing goes on at the next instruction. -/
theorem retire_core {s : State} {k : CoreId} (h : (s.core k).wait = .none) :
    CoreIs ((s.retire k).core k) { s.core k with pc := (s.core k).pc + 4 } := by
  have hr := retireAt_core k ((s.core k).pc + 4) s
  rwa [← h] at hr

theorem retire_byte (k : CoreId) (s : State) (x : Nat) : (s.retire k).byte x = s.byte x := by
  have h : (s.retire k).mem = s.mem := (Within.retireAt (l := [.coreA, .coreB]) k _ (by cases k <;> rfl) (Within.refl _ s)).2.2 .mem rfl
  unfold State.byte
  rw [h]

theorem save_writes {i : Instr} {k : CoreId} {s : State} {n : Nat} {rs ra : BitVec 5} {imm : BitVec 16} (h : Fetches s k)
    (he : exec i s = .next (s.coreSave k n rs ra imm)) (ha : ((s.core k).ea ra imm).toNat % n = 0)
    (ho : s.storeOk (s.core k).harbour ((s.core k).ea ra imm).toNat = true) :
    Does i s ((s.coreStore k ((s.core k).ea ra imm).toNat n ((s.core k).gpr rs).toNat).retire k) :=
  does_step h he (by simp only [ha, ho, ne_eq, not_true_eq_false, if_false, Bool.true_eq_false])

/-- A core's store, retired: its bytes are written, no other byte, and of the core the PC alone moves on. -/
theorem coreStore_retired {k : CoreId} {s : State} {a n v : Nat} (hw : (s.core k).wait = .none) (ha : 0x200000 ≤ a) :
    let t := (s.coreStore k a n v).retire k
    (∀ j < n, t.byte (coreAddr k a + j) = BitVec.ofNat 8 (v / 256 ^ j))
      ∧ (∀ x, (x < coreAddr k a ∨ coreAddr k a + n ≤ x) → t.byte x = s.byte x)
      ∧ CoreIs (t.core k) { s.core k with pc := (s.core k).pc + 4 } ∧ Within [corePiece k, .mem, .hws, .ecc, .regs] s t := by
  refine ⟨fun j hj => ?_, fun x hx => ?_, ?_, ?_⟩
  · rw [retire_byte, coreStore_byte k ha, if_pos (by omega), Nat.add_sub_cancel_left]
  · rw [retire_byte, coreStore_byte k ha, if_neg (by omega)]
  · have hc := coreStore_core k k a n v s
    rw [← hc] at hw ⊢
    exact retire_core hw
  · exact Within.retireAt k _ (by cases k <;> rfl) (coreStore_within k a n v (by cases k <;> rfl) (Within.refl _ s))

/-- Settles O10: an aligned store to where the core may store writes its bytes in the core's own view, then the core retires. -/
theorem storesWriteMemory : Obligations.StoresWriteMemory := by
  unfold Obligations.StoresWriteMemory
  intro k s rs ra imm h c a stores
  have low : s.storeOk c.harbour a = true → 0x200000 ≤ a := fun ho => by
    simp only [State.storeOk, Bool.and_eq_true, decide_eq_true_eq] at ho
    exact ho.1
  have saves : ∀ (n : Nat) (i : Instr), exec i s = .next (s.coreSave k n rs ra imm) → stores n i := fun n i he ha ho =>
    ⟨_, save_writes h he ha ho, coreStore_retired h.free (low ho)⟩
  exact ⟨saves 1 _ rfl, saves 2 _ rfl, saves 4 _ rfl, saves 8 _ rfl⟩

end Sys2Proof.Proofs

/-! PROOF. Special registers of a core (R41, R42, R47, R504, Tables HXS-3, HXS-4, OBS-2): what MFS and MTS accept, read and write. -/
namespace Sys2Proof.Proofs
open Sys2Proof Sys2Proof.Machine Sys2Proof.Safety Sys2Proof.Laws

/-! ### The numbers -/

/-- A number of Table HXS-3 or OBS-2. -/
abbrev Listed (n : Nat) : Prop := n ≤ 0x0B ∨ (0x10 ≤ n ∧ n ≤ 0x1F) ∨ (0x20 ≤ n ∧ n ≤ 0x25) ∨ (0x28 ≤ n ∧ n ≤ 0x2D) ∨ n = 0x2F

/-- The number of a special register of type RO. -/
abbrev ReadOnly (n : Nat) : Prop := n ≤ 3 ∨ n = 9 ∨ n = 10

/-- The number of a special register that berth level may not read (R41). -/
abbrev Guarded (n : Nat) : Prop := n = 4 ∨ n = 5 ∨ n = 6 ∨ n = 8 ∨ (0x10 ≤ n ∧ n ≤ 0x1F)

theorem specialListed_iff (n : Nat) : specialListed n = true ↔ Listed n := by
  simp only [specialListed, Bool.or_eq_true, Bool.and_eq_true, decide_eq_true_eq, beq_iff_eq]
  omega

theorem specialRo_iff (n : Nat) : specialRo n = true ↔ ReadOnly n := by
  simp only [specialRo, Bool.or_eq_true, decide_eq_true_eq, beq_iff_eq]
  omega

theorem specialPriv_iff (n : Nat) : specialPriv n = true ↔ Guarded n := by
  simp only [specialPriv, Bool.or_eq_true, Bool.and_eq_true, decide_eq_true_eq, beq_iff_eq]
  omega

/-- A number below 2 ^ e has no bit in common with a multiple of 2 ^ e. -/
theorem and_multiple {w e : Nat} {v m : BitVec w} (h : v.toNat < 2 ^ e) (hm : m.toNat % 2 ^ e = 0) : v &&& m = 0 := by
  refine BitVec.eq_of_toNat_eq (Nat.eq_of_testBit_eq fun i => ?_)
  rw [BitVec.toNat_and, Nat.testBit_and, BitVec.ofNat_eq_ofNat, BitVec.toNat_ofNat, Nat.zero_mod, Nat.zero_testBit, Bool.and_eq_false_iff]
  by_cases hi : i < e
  · have hb := Nat.testBit_mod_two_pow m.toNat e i
    rw [hm, Nat.zero_testBit, decide_eq_true hi, Bool.true_and] at hb
    exact .inr hb.symm
  · exact .inl (Nat.testBit_lt_two_pow (h.trans_le (Nat.pow_le_pow_right (by decide) (Nat.le_of_not_lt hi))))

/-! ### Encodings -/

/-- An encoding that meets the check on its unused fields. -/
theorem exec_legal {i : Instr} {s : State} {k : CoreId} {wf : Bool} {body : PlelisCore → State → CoreRes} (hw : wf = true)
    (he : exec i s = .next (s.coreStep k wf body)) : exec i s = .next (s.coreStep k true body) := hw ▸ he

/-- An encoding that breaks the check on its unused fields. -/
theorem exec_illegal {i : Instr} {s : State} {k : CoreId} {wf : Bool} {body : PlelisCore → State → CoreRes} (hw : wf = false)
    (he : exec i s = .next (s.coreStep k wf body)) : exec i s = .next (s.coreStep k false body) := hw ▸ he

/-- The check of MFS and MTS on their unused fields (R41). -/
theorem specialForm_iff {ra : BitVec 5} {imm : BitVec 16} : (ra == 0 && imm &&& 0xF000 == 0) = true ↔ ra = 0 ∧ imm &&& 0xF000 = 0 := by
  rw [Bool.and_eq_true, beq_iff_eq, beq_iff_eq]

section
variable {k : CoreId} {s : State} {rd rs ra : BitVec 5} {imm : BitVec 16} (h : Fetches s k)
include h

theorem mfs_malformed (hf : ¬ (ra = 0 ∧ imm &&& 0xF000 = 0)) : Leaves (.mfs k rd ra imm) s k (faulted (s.core k) causeIllegal 0 0 0) :=
  leaves_illegal h (exec_illegal (Bool.eq_false_iff.mpr (mt specialForm_iff.mp hf)) rfl)

theorem mts_malformed (hf : ¬ (ra = 0 ∧ imm &&& 0xF000 = 0)) : Leaves (.mts k rs ra imm) s k (faulted (s.core k) causeIllegal 0 0 0) :=
  leaves_illegal h (exec_illegal (Bool.eq_false_iff.mpr (mt specialForm_iff.mp hf)) rfl)

/-! ### What the checks let through -/

theorem mfs_unlisted (hn : ¬ Listed imm.toNat) : Leaves (.mfs k rd 0 imm) s k (faulted (s.core k) causeIllegal 0 0 0) := by
  by_cases hf : imm &&& 0xF000 = 0
  · exact leaves_fault h (exec_legal (specialForm_iff.mpr ⟨rfl, hf⟩) rfl) (if_pos (Bool.eq_false_iff.mpr (mt (specialListed_iff _).mp hn)))
  · exact mfs_malformed h (fun hf' => hf hf'.2)

theorem mts_refused (hn : ¬ Listed imm.toNat ∨ ReadOnly imm.toNat) : Leaves (.mts k rs 0 imm) s k (faulted (s.core k) causeIllegal 0 0 0) := by
  by_cases hf : imm &&& 0xF000 = 0
  · exact leaves_fault h (exec_legal (specialForm_iff.mpr ⟨rfl, hf⟩) rfl)
      (if_pos (hn.imp (fun hn => Bool.eq_false_iff.mpr (mt (specialListed_iff _).mp hn)) (specialRo_iff _).mpr))
  · exact mts_malformed h (fun hf' => hf hf'.2)

variable (hn : Listed imm.toNat)
include hn

omit h in
theorem listed_form : ((0 : BitVec 5) == 0 && imm &&& 0xF000 == 0) = true :=
  specialForm_iff.mpr ⟨rfl, and_multiple (e := 12) (by omega) (by decide)⟩

theorem mfs_guarded (hh : (s.core k).harbour = false) (hg : Guarded imm.toNat) :
    Leaves (.mfs k rd 0 imm) s k (faulted (s.core k) causePrivilege 0 0 0) :=
  leaves_fault h (exec_legal (listed_form hn) rfl)
    ((if_neg (by simp [(specialListed_iff _).mpr hn])).trans (if_pos ⟨hh, (specialPriv_iff _).mpr hg⟩))

theorem mfs_reads (hg : (s.core k).harbour = true ∨ ¬ Guarded imm.toNat) :
    Leaves (.mfs k rd 0 imm) s k (wrote (s.core k) rd (s.specialGet k imm.toNat) ((s.core k).pc + 4)) := by
  have hp : ¬ ((s.core k).harbour = false ∧ specialPriv imm.toNat = true) := fun ⟨hh, hp⟩ =>
    hg.elim (fun ht => by simp [ht] at hh) (· ((specialPriv_iff _).mp hp))
  exact leaves_next h (exec_legal (listed_form hn) rfl) (fun c => c.setGpr rd (s.specialGet k imm.toNat))
    ((if_neg (by simp [(specialListed_iff _).mpr hn])).trans (if_neg hp)) (setGpr_pc _ _ _) ((setGpr_wait _ _ _).trans h.free)

variable (hr : ¬ ReadOnly imm.toNat)
include hr

omit h in
theorem listed_writable : ¬ (specialListed imm.toNat = false ∨ specialRo imm.toNat = true) :=
  not_or_intro (by simp [(specialListed_iff _).mpr hn]) (mt (specialRo_iff _).mp hr)

theorem mts_guarded (hh : (s.core k).harbour = false) (he : imm.toNat ≠ 0x0B) :
    Leaves (.mts k rs 0 imm) s k (faulted (s.core k) causePrivilege 0 0 0) :=
  leaves_fault h (exec_legal (listed_form hn) rfl) ((if_neg (listed_writable hn hr)).trans (if_pos ⟨hh, he⟩))

/-- MTS of a listed register that is not RO, at a level that may write it. -/
theorem mts_writes (hl : (s.core k).harbour = true ∨ imm.toNat = 0x0B) :
    exec (.mts k rs 0 imm) s = .next ((s.modCore k (fun c => c.specialPut imm.toNat ((s.core k).gpr rs))).retire k) := by
  have hp : ¬ ((s.core k).harbour = false ∧ imm.toNat ≠ 0x0B) := fun ⟨hh, hp⟩ => hl.elim (fun ht => by simp [ht] at hh) hp
  exact does_step h (exec_legal (listed_form hn) rfl) ((if_neg (listed_writable hn hr)).trans (if_neg hp))

end

/-! ### The values -/

/-- The value of a listed special register, register by register (Tables HXS-3, OBS-2). -/
theorem specialGet_eq {s : State} {k : CoreId} {n : Nat} (h : Listed n) :
    let c := s.core k
    s.specialGet k n = if n = 0 then s.time.tide else if n = 1 then s.time.tick else if n = 2 then s.time.devtime else if n = 3 then c.epoch.zeroExtend 64
      else if n = 4 then c.fault.zeroExtend 64 else if n = 5 then c.faddr else if n = 6 then c.epc else if n = 7 then c.pstate.zeroExtend 64
      else if n = 8 then c.tvec else if n = 9 then (if k = .A then 0x18 else 0x19) else if n = 10 then BitVec.ofNat 64 (s.time.phase % 65536)
      else if n = 11 then (if c.harbour then c.eventH else c.eventB).zeroExtend 64 else if n ≤ 0x1F then c.scratch[Fin.ofNat 16 (n - 0x10)]
      else if n ≤ 0x25 then c.pmc[Fin.ofNat 6 (n - 0x20)] else if n ≤ 0x2D then c.pmcSel[Fin.ofNat 6 (n - 0x28)] else c.pmcOvf := by
  rcases h with h | ⟨h, h'⟩ | ⟨h, h'⟩ | ⟨h, h'⟩ | rfl
  · cases k <;> interval_cases n <;> rfl
  · interval_cases n <;> rfl
  · interval_cases n <;> rfl
  · interval_cases n <;> rfl
  · rfl

/-- A write of EVENT changes the two views of EVENT only (R504). -/
theorem writeEvent_eq {c : PlelisCore} {v : BitVec 8} :
    c.writeEvent v = { c with eventH := (c.writeEvent v).eventH, eventB := (c.writeEvent v).eventB } := by
  unfold PlelisCore.writeEvent
  split <;> rfl

/-- What MTS leaves in each register (Tables HXS-3, HXS-4, OBS-2). -/
theorem specialPut_eq {c : PlelisCore} {n : Nat} {v : W64} (h : Listed n) (hr : ¬ ReadOnly n) : c.specialPut n v = { c with
    fault := if n = 4 then v.truncate 32 else c.fault
    faddr := if n = 5 then v else c.faddr
    epc := if n = 6 then v &&& ~~~(3 : W64) else c.epc
    pstate := if n = 7 then pstateWrite c.pstate v else c.pstate
    tvec := if n = 8 then v &&& ~~~(63 : W64) else c.tvec
    eventH := if n = 11 then (c.writeEvent (v.truncate 8)).eventH else c.eventH
    eventB := if n = 11 then (c.writeEvent (v.truncate 8)).eventB else c.eventB
    scratch := if 0x10 ≤ n ∧ n < 0x10 + 16 then c.scratch.set (Fin.ofNat 16 (n - 0x10)) v else c.scratch
    pmc := if 0x20 ≤ n ∧ n < 0x20 + 6 then c.pmc.set (Fin.ofNat 6 (n - 0x20)) (v &&& 0xFFFFFFFFFFFF) else c.pmc
    pmcSel := if 0x28 ≤ n ∧ n < 0x28 + 6 then c.pmcSel.set (Fin.ofNat 6 (n - 0x28)) (v &&& 0xFF) else c.pmcSel
    pmcOvf := if n = 0x2F then c.pmcOvf &&& ~~~v else c.pmcOvf } := by
  rcases h with h | ⟨h, h'⟩ | ⟨h, h'⟩ | ⟨h, h'⟩ | rfl
  · have h4 : 4 ≤ n := by omega
    obtain rfl | hlt : n = 11 ∨ n ≤ 10 := by omega
    · exact writeEvent_eq
    · interval_cases n <;> rfl
  · interval_cases n <;> rfl
  · interval_cases n <;> rfl
  · interval_cases n <;> rfl
  · rfl

/-! ### What retiring an instruction leaves of the core -/

/-- A counter that counts another event is left alone. -/
theorem pmcCount_pmc {s : State} {k : CoreId} {code n : Nat} {i : Fin 6} (h : (s.core k).pmcSel[i].toNat % 256 ≠ code) :
    ((s.pmcCount k code n).core k).pmc[i] = (s.core k).pmc[i] := by
  unfold State.pmcCount
  split
  · simp_all
  · rfl

/-- Where every counter counts another event, no overflow is noted. -/
theorem pmcCount_pmcOvf {s : State} {k : CoreId} {code n : Nat} (h : ∀ i : Fin 6, (s.core k).pmcSel[i].toNat % 256 ≠ code) :
    ((s.pmcCount k code n).core k).pmcOvf = (s.core k).pmcOvf := by
  have hit : ∀ i : Fin 6, ((s.core k).pmcSel[i].toNat % 256 == code) = false := fun i => beq_false_of_ne (h i)
  unfold State.pmcCount
  split
  · simp only [core_setCore, hit, Bool.false_and, Bool.false_eq_true, if_false, List.foldl_fixed]
  · rfl

section
variable {i : Instr} {k : CoreId} {s : State} {f : PlelisCore → PlelisCore}

theorem retired_core (hp : (f (s.core k)).pc = (s.core k).pc) (hw : (f (s.core k)).wait = .none) :
    CoreIs (((s.modCore k f).retire k).core k) { f (s.core k) with pc := (s.core k).pc + 4 } := by
  have hr := retire_core (s := s.modCore k f) (k := k) (by rw [core_modCore, hw])
  rwa [core_modCore, hp] at hr

theorem retired_pmc {j : Fin 6} (h : (f (s.core k)).pmcSel[j].toNat % 256 ≠ 2) :
    (((s.modCore k f).retire k).core k).pmc[j] = (f (s.core k)).pmc[j] := by
  unfold State.retire State.retireAt
  rw [pmcCount_pmc (by simpa using h), core_modCore, core_modCore]

theorem retired_pmcOvf (h : ∀ j : Fin 6, (f (s.core k)).pmcSel[j].toNat % 256 ≠ 2) :
    (((s.modCore k f).retire k).core k).pmcOvf = (f (s.core k)).pmcOvf := by
  unfold State.retire State.retireAt
  rw [pmcCount_pmcOvf (by simpa using h), core_modCore, core_modCore]

/-- An instruction that changes the core alone and retires. -/
theorem leaves_retired (he : exec i s = .next ((s.modCore k f).retire k)) (hp : (f (s.core k)).pc = (s.core k).pc) (hw : (f (s.core k)).wait = .none) :
    Leaves i s k { f (s.core k) with pc := (s.core k).pc + 4 } :=
  ⟨_, he, retired_core hp hw, Within.retireAt k _ (by cases k <;> rfl) (Within.modCore k _ (by cases k <;> rfl) (Within.refl _ s))⟩

end

theorem writeEvent_eventH (c : PlelisCore) (v : Byte) :
    (c.writeEvent v).eventH = if c.harbour then c.eventH &&& ~~~v else c.eventH ||| (v &&& 0x80) := by
  unfold PlelisCore.writeEvent
  split <;> rfl

theorem writeEvent_eventB (c : PlelisCore) (v : Byte) :
    (c.writeEvent v).eventB = if c.harbour then c.eventB ||| (v &&& 0x80) else c.eventB &&& ~~~v := by
  unfold PlelisCore.writeEvent
  split <;> rfl

/-- One element of a vector after register n is written, where the vector's elements are the registers from base on. -/
theorem setNumbered_get {m base n : Nat} [NeZero m] (x : Vector W64 m) (v : W64) (i : Fin m) :
    (if base ≤ n ∧ n < base + m then x.set (Fin.ofNat m (n - base)) v else x)[i] = if n = base + i.val then v else x[i] := by
  split
  · have hm : (n - base) % m = n - base := Nat.mod_eq_of_lt (by omega)
    simp only [Fin.getElem_fin, Vector.getElem_set, Fin.val_ofNat, hm]
    exact if_congr (by omega) rfl rfl
  · exact (if_neg (by omega)).symm

/-- Settles O11: MFS and MTS by the checks on their form, number and level; what they read and write by specialGet and specialPut, register by register. -/
theorem specialRegistersChecked : Obligations.SpecialRegistersChecked := by
  unfold Obligations.SpecialRegistersChecked
  intro k s rd rs ra imm h c n listed readOnly guarded v low byte special
  have put : listed → ¬ readOnly → c.specialPut n v = _ := specialPut_eq
  refine ⟨mfs_reads h, fun hn => mfs_guarded h hn, fun hn hr hl => ?_, fun hn hr => mts_guarded h hn hr, mts_refused h, mfs_unlisted h,
    fun ha => ⟨mfs_malformed h (fun hf => ha hf.1), mts_malformed h (fun hf => ha hf.1)⟩, fun hn hg => ?_, fun hn hr hl => ?_⟩
  · refine leaves_retired (mts_writes h hn hr hl) ?_ ?_ <;> rw [put hn hr]
    exact h.free
  · obtain ⟨t, ht, hc, -⟩ := mfs_reads h (rd := rd) hn hg
    obtain ⟨hh, hpc, -⟩ := coreIs_fields hc
    rw [specialGet_eq hn] at hh
    exact ⟨t, ht, hpc, hh⟩
  · have hc : CoreIs (((s.modCore k (fun c => c.specialPut n v)).retire k).core k) { c.specialPut n v with pc := c.pc + 4 } :=
      retired_core (by rw [put hn hr]) (by rw [put hn hr]; exact h.free)
    rw [put hn hr] at hc
    obtain ⟨hh, hpc, hfault, hfaddr, hepc, hpstate, htvec, hscratch, hH, hB, hsel, -⟩ := coreIs_fields hc
    refine ⟨_, mts_writes h hn hr hl, hpc, hh, hfault, hfaddr, hepc, hpstate, htvec, ?_, ?_, fun i => ?_, fun i => ?_, fun i hi => ?_, fun hi => ?_⟩
    · rw [hH, writeEvent_eventH]
    · rw [hB, writeEvent_eventB]
    · rw [hscratch, setNumbered_get]
    · rw [hsel, setNumbered_get]
    · rw [hsel] at hi
      rw [retired_pmc (by rwa [put hn hr]), put hn hr, setNumbered_get]
    · have hsel' : ∀ j : Fin 6, (c.specialPut n v).pmcSel[j].toNat % 256 ≠ 2 := fun j => by
        have hj := hi j
        rw [hsel] at hj
        rwa [put hn hr]
      rw [retired_pmcOvf hsel', put hn hr]

end Sys2Proof.Proofs

/-! PROOF. Tickets, fences and waits, claims and SEND of a core (R50, R51, R53, R57 to R59, R68, R69, R73, R504). What of them is the model's choice or
reading: notes/assumptions/3, 20 and 30. -/
namespace Sys2Proof.Proofs
open Sys2Proof Sys2Proof.Machine Sys2Proof.Safety Sys2Proof.Laws

/-! ### WAITT and WFE -/

section
variable {k : CoreId} {s : State} {rd ra : BitVec 5} {imm : BitVec 16} (h : Fetches s k)
include h

theorem waitt_finished {r : Nat} (hr : s.waitResult (((s.core k).gpr ra).truncate 32) = some r) :
    Leaves (.waitt k rd ra imm) s k (wrote (s.core k) rd (BitVec.ofNat 64 r) ((s.core k).pc + 4)) :=
  leaves_next h rfl (fun c => c.setGpr rd (BitVec.ofNat 64 r)) (by simp only [hr]) (setGpr_pc _ _ _) ((setGpr_wait _ _ _).trans h.free)

theorem waitt_polls (hr : s.waitResult (((s.core k).gpr ra).truncate 32) = none) :
    Leaves (.waitt k rd ra 0) s k (wrote (s.core k) rd 1 ((s.core k).pc + 4)) :=
  leaves_next h rfl (fun c => c.setGpr rd 1) (by simp only [hr, if_pos]) (setGpr_pc _ _ _) ((setGpr_wait _ _ _).trans h.free)

theorem waitt_waits (hr : s.waitResult (((s.core k).gpr ra).truncate 32) = none) (hi : imm ≠ 0) :
    Leaves (.waitt k rd ra imm) s k { s.core k with wait := .ticket rd (((s.core k).gpr ra).truncate 32) imm.toNat } :=
  leaves_stall h rfl (by simp only [hr, if_neg hi])

theorem wfe_wakes (he : (s.core k).event &&& (s.core k).evmask ≠ 0) :
    Leaves (.wfe k rd 0 0) s k (wrote (s.core k) rd ((s.core k).event.zeroExtend 64) ((s.core k).pc + 4)) :=
  leaves_next h rfl (fun c => c.setGpr rd ((s.core k).event.zeroExtend 64)) (if_neg he) (setGpr_pc _ _ _) ((setGpr_wait _ _ _).trans h.free)

/-! ### Fences and COMMIT -/

/-- A body that does nothing: the core goes on at the next instruction. -/
theorem leaves_goesOn {i : Instr} {body : PlelisCore → State → CoreRes} (he : exec i s = .next (s.coreStep k true body))
    (hb : body (s.core k) s = .next s) : Leaves i s k { s.core k with pc := (s.core k).pc + 4 } :=
  ⟨_, does_step h he hb, retire_core h.free, Within.retireAt k _ (by cases k <;> rfl) (Within.refl _ s)⟩

end

/-- A ticket that has not finished, in the queue or running (Table ENG-5). -/
theorem waitResult_unfinished {s : State} {t : W32} (h : (s.ticketState t).1 = 1 ∨ (s.ticketState t).1 = 2) : s.waitResult t = none := by
  rcases h with h | h <;> simp only [State.waitResult, h]

theorem waitResult_failed {s : State} {t : W32} (h : (s.ticketState t).1 = 4 ∨ (s.ticketState t).1 = 0) : s.waitResult t = some 2 := by
  rcases h with h | h <;> simp only [State.waitResult, h]

theorem waitResult_done {s : State} {t : W32} (h : (s.ticketState t).1 = 3) : s.waitResult t = some 0 := by
  simp only [State.waitResult, h]

/-- Settles O14: POLLT computes rd; WAITT by what the ticket's state gives; WFE by the enabled events; the fences and COMMIT by what they wait for. -/
theorem waitsBegin : Obligations.WaitsBegin := by
  unfold Obligations.WaitsBegin
  intro k s rd ra imm h c ticket goesOn
  exact ⟨alu_writes h rfl rfl, fun ht => waitt_finished h (waitResult_done ht), fun ht => waitt_finished h (waitResult_failed ht),
    fun ht hi => hi ▸ waitt_polls h (waitResult_unfinished ht), fun ht => waitt_waits h (waitResult_unfinished ht), wfe_wakes h,
    fun he => leaves_stall h rfl (if_pos he), leaves_goesOn h rfl rfl, leaves_goesOn h rfl rfl,
    fun ho => leaves_goesOn h rfl (if_neg (by simp [ho])), fun ho => leaves_stall h rfl (if_pos ho), fun hh => leaves_stall h rfl (if_pos hh)⟩

/-! ### The claim table -/

@[simp] theorem gpioShow_claims (r : Nat) (s : State) : (s.gpioShow r).claims = s.claims := by
  unfold State.gpioShow
  split
  · rfl
  · dsimp only
    split <;> rfl

theorem lookup_cons_eq {β : Type} (x : Nat) (p : Nat × β) (l : List (Nat × β)) : (p :: l).lookup x = if x = p.1 then some p.2 else l.lookup x := by
  obtain ⟨r, b⟩ := p
  by_cases hx : x = r
  · simp [hx]
  · rw [List.lookup_cons, beq_false_of_ne hx, if_neg hx]

theorem lookup_filter_ne {β : Type} (l : List (Nat × β)) (r x : Nat) :
    (l.filter (fun p => p.1 != r)).lookup x = if x = r then none else l.lookup x := by
  induction l with
  | nil => simp
  | cons p l ih =>
    rw [List.filter_cons, lookup_cons_eq]
    by_cases hp : p.1 = r
    · rw [if_neg (by simp [hp]), ih, hp]
      exact ite_congr rfl (fun _ => rfl) (fun hx => (if_neg hx).symm)
    · rw [if_pos (by simp [hp]), lookup_cons_eq, ih]
      grind

theorem claimOf_grantClaim (r x : Nat) (g : Claim) (s : State) : (s.grantClaim r g).claimOf x = if x = r then some g else s.claimOf x := by
  simp only [State.claimOf, State.grantClaim, gpioShow_claims, lookup_cons_eq]

theorem claimOf_releaseClaim (r x : Nat) (s : State) : (s.releaseClaim r).claimOf x = if x = r then none else s.claimOf x := by
  simp only [State.claimOf, State.releaseClaim, State.eventAll_claims, gpioShow_claims, lookup_filter_ne]

theorem claimOf_retire (k : CoreId) (x : Nat) (s : State) : (s.retire k).claimOf x = s.claimOf x := by
  have h : (s.retire k).claims = s.claims :=
    (Within.retireAt (l := [.coreA, .coreB]) k _ (by cases k <;> rfl) (Within.refl _ s)).2.2 .claims rfl
  rw [State.claimOf, h, State.claimOf]

theorem claimOf_modCore (k : CoreId) (f : PlelisCore → PlelisCore) (x : Nat) (s : State) : (s.modCore k f).claimOf x = s.claimOf x := by
  rw [State.claimOf, State.modCore_claims, State.claimOf]

/-! ### CLAIM and RELEASE at harbour level -/

/-- A claim for a function below 16 is for the level itself: imm16[15] is 0. -/
theorem behalf_small {imm : BitVec 16} (h : imm.toNat < 16) : imm[15] = false := Nat.testBit_lt_two_pow (h.trans (show 16 < 2 ^ 15 by decide))

section
variable {s : State} {ra : W64} {imm : BitVec 16} (hi : imm.toNat < 16) (hr : ra.toNat < 256)
include hi hr

/-- A claim of harbour level for itself that names what is not valid (R57, R58). -/
theorem judgeClaim_invalid (hv : s.claimValid ra.toNat imm.toNat = false ∨ s.channelTaken ra.toNat imm.toNat = true) :
    s.judgeClaim true ra imm = .word (claimWord ra.toNat 2 none) none := by
  simp only [State.judgeClaim, Nat.mod_eq_of_lt hr, Nat.mod_eq_of_lt hi, hv, or_true, if_true, Bool.not_true, Bool.false_and, Bool.false_eq_true, if_false]

variable (hv : s.claimValid ra.toNat imm.toNat = true) (ht : s.channelTaken ra.toNat imm.toNat = false)
include hv ht

theorem judgeClaim_free (hc : s.claimOf ra.toNat = none) : s.judgeClaim true ra imm =
    .word (claimWord ra.toNat 0 (some ⟨.harbour, imm.toNat⟩)) (some ⟨.harbour, imm.toNat⟩) := by
  simp [State.judgeClaim, behalf_small hi, Nat.mod_eq_of_lt hr, Nat.mod_eq_of_lt hi, hv, ht, hc, Nat.not_le_of_lt hr]

theorem judgeClaim_held {c : Claim} (hc : s.claimOf ra.toNat = some c) : s.judgeClaim true ra imm =
    .word (claimWord ra.toNat (if c.holder = .harbour ∧ c.func = imm.toNat then 0 else 1) (some c)) none := by
  simp [State.judgeClaim, behalf_small hi, Nat.mod_eq_of_lt hr, Nat.mod_eq_of_lt hi, hv, ht, hc, Nat.not_le_of_lt hr]

end

section
variable {k : CoreId} {s : State} {rd ra : BitVec 5} {imm : BitVec 16} (h : Fetches s k) (hh : (s.core k).harbour = true)
include h hh

theorem claim_answers (hi : imm.toNat < 16) {w : Nat} (hj : s.judgeClaim true ((s.core k).gpr ra) imm = .word w none) :
    Leaves (.claim k rd ra imm) s k (wrote (s.core k) rd (BitVec.ofNat 64 w) ((s.core k).pc + 4)) :=
  leaves_next h (exec_legal (beq_iff_eq.mpr (and_multiple (e := 4) hi (by decide))) rfl) (fun c => c.setGpr rd (BitVec.ofNat 64 w))
    (by simp only [hh, hj]) (setGpr_pc _ _ _) ((setGpr_wait _ _ _).trans h.free)

theorem claim_grants (hi : imm.toNat < 16) {w : Nat} {g : Claim} (hj : s.judgeClaim true ((s.core k).gpr ra) imm = .word w (some g)) :
    Does (.claim k rd ra imm) s (((s.modCore k (fun c => c.setGpr rd (BitVec.ofNat 64 w))).grantClaim (((s.core k).gpr ra).toNat % 256) g).retire k) :=
  does_step h (exec_legal (beq_iff_eq.mpr (and_multiple (e := 4) hi (by decide))) rfl) (by simp only [hh, hj])

variable {r : Nat} (hr : ((s.core k).gpr ra).toNat = r) (hr' : r < 256)
include hr hr'

theorem release_frees (hc : s.holds .harbour r = true) : Does (.release k 0 ra 0) s ((s.releaseClaim r).retire k) :=
  does_step h rfl (by simp [State.judgeRelease, hh, hr, Nat.mod_eq_of_lt hr', hc, Nat.not_le_of_lt hr'])

theorem release_notHeld (hc : s.holds .harbour r = false) : Leaves (.release k 0 ra 0) s k (faulted (s.core k) causeClaim (claimBlock r) r 0) :=
  leaves_fault h rfl (by simp [State.judgeRelease, hh, hr, Nat.mod_eq_of_lt hr', hc])

end

/-- An event bit raised in both views of both cores; the rest of each core stays. -/
theorem core_eventAll (b : Nat) (j : CoreId) (s : State) : (s.eventAll b).core j =
    { s.core j with eventH := (s.core j).eventH ||| BitVec.ofNat 8 (2 ^ b), eventB := (s.core j).eventB ||| BitVec.ofNat 8 (2 ^ b) } := by
  cases j <;> rfl

theorem core_gpioShow (r : Nat) (j : CoreId) (s : State) : (s.gpioShow r).core j = s.core j := by
  have hw := State.gpioShow_within (sc := [.regs]) r rfl (Within.refl _ s)
  cases j
  · exact hw.2.2 .coreA rfl
  · exact hw.2.2 .coreB rfl

theorem core_grantClaim (r : Nat) (g : Claim) (j : CoreId) (s : State) : (s.grantClaim r g).core j = s.core j :=
  (core_gpioShow r j _).trans (by cases j <;> rfl)

theorem core_releaseClaim (r : Nat) (j : CoreId) (s : State) : (s.releaseClaim r).core j =
    { s.core j with eventH := (s.core j).eventH ||| 16, eventB := (s.core j).eventB ||| 16 } := by
  rw [State.releaseClaim, core_eventAll, core_gpioShow]
  cases j <;> rfl

theorem core_retire_ne {k j : CoreId} (hj : j ≠ k) (s : State) : (s.retire k).core j = s.core j := by
  have hw := Within.retireAt (l := [corePiece k]) k ((s.core k).pc + 4) (by cases k <;> rfl) (Within.refl _ s)
  cases k <;> cases j
  · exact absurd rfl hj
  · exact hw.2.2 .coreB rfl
  · exact hw.2.2 .coreA rfl
  · exact absurd rfl hj

/-- Retiring an instruction leaves the EVENT views of both cores. -/
theorem retire_event (k j : CoreId) (s : State) :
    ((s.retire k).core j).eventH = (s.core j).eventH ∧ ((s.retire k).core j).eventB = (s.core j).eventB := by
  by_cases hj : j = k
  · subst hj
    obtain ⟨-, -, -, -, -, -, -, -, hH, hB, -⟩ := coreIs_fields (retireAt_core j ((s.core j).pc + 4) s)
    exact ⟨hH, hB⟩
  · rw [core_retire_ne hj]
    exact ⟨rfl, rfl⟩

/-- A granted claim, retired: the claim stands, every other stays, and the core has its result word (R58). -/
theorem grantClaim_retired {k : CoreId} {s : State} {rd : BitVec 5} {v : W64} {r : Nat} {g : Claim} (hw : (s.core k).wait = .none) :
    let t := ((s.modCore k (fun c => c.setGpr rd v)).grantClaim r g).retire k
    t.claimOf r = some g ∧ (∀ x, x ≠ r → t.claimOf x = s.claimOf x) ∧ CoreIs (t.core k) (wrote (s.core k) rd v ((s.core k).pc + 4))
      ∧ Within [corePiece k, .claims, .regs] s t := by
  refine ⟨?_, fun x hx => ?_, ?_, ?_⟩
  · rw [claimOf_retire, claimOf_grantClaim, if_pos rfl]
  · rw [claimOf_retire, claimOf_grantClaim, if_neg hx, claimOf_modCore]
  · have hc : ((s.modCore k (fun c => c.setGpr rd v)).grantClaim r g).core k = (s.core k).setGpr rd v := by rw [core_grantClaim, core_modCore]
    have hr := retire_core (s := (s.modCore k (fun c => c.setGpr rd v)).grantClaim r g) (k := k) (by rw [hc, setGpr_wait, hw])
    rwa [hc, setGpr_pc] at hr
  · exact Within.retireAt k _ (by cases k <;> rfl) (State.grantClaim_within _ _ (by cases k <;> rfl)
      (Within.modCore k _ (by cases k <;> rfl) (Within.refl _ s)))

/-- A released claim, retired: the claim is gone, every other stays, and event bit 4 is set in both views of both cores (R59). -/
theorem releaseClaim_retired (k : CoreId) (s : State) (r : Nat) :
    let t := (s.releaseClaim r).retire k
    t.claimOf r = none ∧ (∀ x, x ≠ r → t.claimOf x = s.claimOf x)
      ∧ (∀ j, (t.core j).eventH.getLsbD 4 = true ∧ (t.core j).eventB.getLsbD 4 = true) ∧ (t.core k).pc = (s.core k).pc + 4
      ∧ (t.core k).h = (s.core k).h ∧ Within [.coreA, .coreB, .claims, .regs] s t := by
  obtain ⟨hh, hpc, -⟩ := coreIs_fields (retireAt_core k (((s.releaseClaim r).core k).pc + 4) (s.releaseClaim r))
  refine ⟨?_, fun x hx => ?_, fun j => ?_, ?_, ?_, ?_⟩
  · rw [claimOf_retire, claimOf_releaseClaim, if_pos rfl]
  · rw [claimOf_retire, claimOf_releaseClaim, if_neg hx]
  · obtain ⟨hH, hB⟩ := retire_event k j (s.releaseClaim r)
    rw [hH, hB, core_releaseClaim]
    simp
  · exact hpc.trans (by rw [core_releaseClaim])
  · exact hh.trans (by rw [core_releaseClaim])
  · exact Within.retireAt k _ (by cases k <;> rfl) (State.releaseClaim_within _ rfl (Within.refl _ s))

/-- Settles O17: CLAIM by what the judgement answers for harbour level; RELEASE by whether harbour level holds the resource. -/
theorem claimsJudged : Obligations.ClaimsJudged := by
  unfold Obligations.ClaimsJudged
  intro k s rd ra imm h hh hi hr c r f word
  refine ⟨fun hv ht hc => ?_, fun held hv ht hc => ?_, fun hv => ?_, fun hc => ⟨_, release_frees h hh rfl hr hc, releaseClaim_retired k s r⟩,
    release_notHeld h hh rfl hr⟩
  · have granted := claim_grants (rd := rd) h hh hi (judgeClaim_free hi hr hv ht hc)
    rw [Nat.mod_eq_of_lt hr, claimWord, Nat.mod_eq_of_lt hi] at granted
    exact ⟨_, granted, grantClaim_retired h.free⟩
  · exact claim_answers h hh hi (judgeClaim_held hi hr hv ht hc)
  · have refused := claim_answers (rd := rd) h hh hi (judgeClaim_invalid hi hr hv)
    simpa only [claimWord, word, Nat.mul_zero, Nat.add_zero] using refused

/-! ### SEND -/

section
variable {k : CoreId} {s : State} {rd ra rb : BitVec 5} (h : Fetches s k)
include h

theorem send_faults {cause block detail : Nat} {a : W64}
    (hf : s.sendFault (s.core k).harbour ((s.core k).gpr ra) ((s.core k).gpr rb) = some (.fault cause block detail a)) :
    Leaves (.send k rd ra rb) s k (faulted (s.core k) cause block detail a) :=
  leaves_fault h rfl (by simp only [hf])

variable (hf : s.sendFault (s.core k).harbour ((s.core k).gpr ra) ((s.core k).gpr rb) = none)
  (hu : Unmarked s (coreAddr k ((s.core k).gpr rb).toNat) 32)
include hf hu

theorem send_posts {q : Fin 64} {d : Desc} (hq : q = Fin.ofNat 64 ((s.core k).gpr ra).toNat)
    (hd : d = descOf (s.bytes (coreAddr k ((s.core k).gpr rb).toNat) 32)) (hl : (s.queue q).entries.length < (s.queue q).depth) :
    Does (.send k rd ra rb) s
      ((((s.accept k q d).2.modCore k (fun x => x.setGpr rd ((s.accept k q d).1.zeroExtend 64))).pmcCount k 3 1).retire k) := by
  subst hq hd
  exact does_step h rfl (by simp only [hf, coreRead_unmarked hu, if_pos hl, Bool.true_eq_false, if_false])

theorem send_waits {q : Fin 64} {d : Desc} (hq : q = Fin.ofNat 64 ((s.core k).gpr ra).toNat)
    (hd : d = descOf (s.bytes (coreAddr k ((s.core k).gpr rb).toNat) 32)) (hl : (s.queue q).depth ≤ (s.queue q).entries.length) :
    Leaves (.send k rd ra rb) s k { s.core k with wait := .send rd q.val d } := by
  subst hq hd
  exact leaves_stall h rfl (by simp only [hf, coreRead_unmarked hu, if_neg (Nat.not_lt_of_le hl), Bool.true_eq_false, if_false])

end

theorem sendFault_queue {s : State} {harbour : Bool} {q b : W64} (hq : 64 ≤ q.toNat) :
    s.sendFault harbour q b = some (.fault causeQueue 0 (q.toNat % 65536) 0) := if_pos hq

theorem sendFault_misaligned {s : State} {q b : W64} (hq : q.toNat < 64) (hb : b.toNat % 32 ≠ 0) :
    s.sendFault true q b = some (.fault causeAlign 0 0 b) :=
  (if_neg (Nat.not_le_of_lt hq)).trans ((if_neg (by simp)).trans (if_pos hb))

/-- Settles O18: SEND by R50's checks, then by whether the queue has a free entry. -/
theorem sendPosts : Obligations.SendPosts := by
  unfold Obligations.SendPosts
  intro k s rd ra rb h c q b d
  exact ⟨fun hf hu => ⟨fun hl => ⟨rfl, send_posts h hf hu rfl rfl hl⟩, send_waits h hf hu rfl rfl⟩, fun hq => send_faults h (sendFault_queue hq),
    fun hq hh hb => send_faults h (hh ▸ sendFault_misaligned hq hb)⟩

end Sys2Proof.Proofs

/-! PROOF. The events of the transmit path (R54, R89, R104, R108, R118, R121, R124, R125, R127, R128). What of them is the model's choice or reading:
notes/assumptions/3, 13, 91 and 94. -/
namespace Sys2Proof.Proofs
open Sys2Proof Sys2Proof.Machine Sys2Proof.Safety Sys2Proof.Laws

/-! ### State changes that have waited -/

theorem txStateDone_enters {c : Carrier} {s : State} {e : QEntry} (h : s.startedOp (txpQ c) 0x100 = some e) :
    s.txStateDone c = (s.txEnter c (e.desc.arg0 % 8)).complete e 0 (e.desc.arg0 % 8) s.time.devtime.toNat := by
  rw [State.txStateDone, h]

theorem txStateDone_none {c : Carrier} {s : State} (h : s.startedOp (txpQ c) 0x100 = none) : s.txStateDone c = s := by
  rw [State.txStateDone, h]

/-- The DACs have settled. -/
abbrev dacSettled (c : Carrier) (s : State) : State := s.setTx c { s.tx c with settling := false }

/-- What a superframe boundary in SERVICE does first: clipping and limiting are shown, then what waited for the boundary applies (R54, R118, R125). -/
abbrev txBoundaryApplied (c : Carrier) (clips : Nat) (sat : Bool) (s : State) : State :=
  ((((s.txLimited c clips sat).hailWindow c).anlBoundary true c).applyBoundary .txSf c).txMirror c

section
variable {c : Carrier} {s : State} {e : QEntry}

theorem txDacSettled_idle (h : (s.tx c).settling = false) : Does (.txDacSettled c) s s := congrArg Host.Outcome.next (if_neg (by simp [h]))

theorem txDacSettled_settles (h : (s.tx c).settling = true) : Does (.txDacSettled c) s ((dacSettled c s).txStateDone c) :=
  congrArg Host.Outcome.next (if_pos h)

section
variable {clips : Nat} {sat : Bool}

theorem txSuperframeBoundary_idle (h : s.txState c ≠ 3) : Does (.txSuperframeBoundary c clips sat) s s := if_pos h

variable (h : s.txState c = 3)
include h

theorem txSuperframeBoundary_leaves (he : ((txBoundaryApplied c clips sat s).startedOp (txpQ c) 0x100).isSome = true) :
    Does (.txSuperframeBoundary c clips sat) s ((txBoundaryApplied c clips sat s).txStateDone c) :=
  (if_neg (not_not_intro h)).trans (if_pos he)

theorem txSuperframeBoundary_goesOn (he : (txBoundaryApplied c clips sat s).startedOp (txpQ c) 0x100 = none) :
    Does (.txSuperframeBoundary c clips sat) s
      (((((txBoundaryApplied c clips sat s).txUnmute c).txSuperframe c).armBoundary (txpQ c)).releaseWaiters) :=
  (if_neg (not_not_intro h)).trans (if_neg (by simp [he]))

end

/-! ### Underrun and engine fault -/

theorem txUnderrun_idle (h : s.txState c ≠ 3) : Does (.txUnderrun c) s s := if_pos h

/-- The block that came late is no longer withheld: it is replaced (R127). -/
abbrev lateReplaced (c : Carrier) (s : State) : State :=
  let x := (s.tx c).line
  s.setTx c { s.tx c with line := { x with withheld := x.withheld.drop 1, replaced := s.lateBlock c :: x.replaced } }

theorem txUnderrun_notes (h : s.txState c = 3) : Does (.txUnderrun c) s
    ((((lateReplaced c s).addCnt (R.TXP_UNDERRUN_CNT c) 1).setFlag (R.TXP_STATUS c) F.TXP_STATUS_underrun true).logOpen (txpId c) sevWarn) :=
  if_neg (not_not_intro h)

end

/-- Settles O20: DACs and superframe boundary by whether a state change waits; an underrun by the state it falls in. -/
theorem transmitEvents : Obligations.TransmitEvents := by
  unfold Obligations.TransmitEvents
  intro c s e clips sat a settled clipped shown applied unmuted counted taken begun x noted
  refine ⟨txDacSettled_idle, fun h he => ?_, fun h he => ?_, txSuperframeBoundary_idle, fun h he => ?_, fun h he => txSuperframeBoundary_goesOn h he,
    txUnderrun_idle, txUnderrun_notes, rfl⟩
  · exact txStateDone_enters he ▸ txDacSettled_settles h
  · exact txStateDone_none he ▸ txDacSettled_settles h
  · exact txStateDone_enters he ▸ txSuperframeBoundary_leaves h (Option.isSome_of_eq_some he)

end Sys2Proof.Proofs

/-! PROOF. Carrier recovery (R170, R171, R174 to R176, R178) and the receive superframe boundary (R54, R145, R155). What of them is the model's choice or
reading: notes/assumptions/3, 26, 93 and 95. -/
namespace Sys2Proof.Proofs
open Sys2Proof Sys2Proof.Machine Sys2Proof.Safety Sys2Proof.Laws

/-! ### The commands of CRR -/

section
variable {c : Carrier} {s u : State} {e : QEntry} (h : Started (crrQ c) 0x100 s e u)
include h

theorem crReacquire_unit (hu : e.desc.unit ≠ 0xFF) : Finishes (.crReacquire c) s u e 0x02 0 0 :=
  congrArg Host.Outcome.next (runCommand_ends h (if_pos hu))

variable (hu : e.desc.unit = 0xFF)
include hu

theorem crReacquire_off (hs : u.crState c = 0) : Finishes (.crReacquire c) s u e 0x06 0 0 :=
  congrArg Host.Outcome.next (runCommand_ends h ((if_neg (not_not_intro hu)).trans (if_pos hs)))

theorem crReacquire_awaitsSuperframe (hs : u.crState c ≠ 0) : GoesOn (.crReacquire c) s u (crrQ c) :=
  congrArg Host.Outcome.next (runCommand_goes_on h ((if_neg (not_not_intro hu)).trans (if_neg hs)))

end

/-- The unit is wrong or the frequency lies beyond ±50,000 units (Table CRR-5). -/
def SeedMalformed (d : Desc) : Prop :=
  let seed := BitVec.ofNat 18 d.arg0
  d.unit ≠ 0xFF ∨ seed.toInt < -50000 ∨ 50000 < seed.toInt

theorem not_seedMalformed {d : Desc} (hu : d.unit = 0xFF) (hl : -50000 ≤ (BitVec.ofNat 18 d.arg0).toInt) (hh : (BitVec.ofNat 18 d.arg0).toInt ≤ 50000) :
    ¬ SeedMalformed d := not_or_intro (not_not_intro hu) (not_or_intro (Int.not_lt.mpr hl) (Int.not_lt.mpr hh))

section
variable {c : Carrier} {s u : State} {e : QEntry} (h : Started (crrQ c) 0x101 s e u)
include h

theorem crFreqSeed_malformed (hm : SeedMalformed e.desc) : Finishes (.crFreqSeed c) s u e 0x02 0 0 :=
  congrArg Host.Outcome.next (runCommand_ends h (if_pos hm))

theorem crFreqSeed_holds (hm : ¬ SeedMalformed e.desc) :
    Finishes (.crFreqSeed c) s (u.setCr c { u.cr c with seed := some (BitVec.ofNat 18 e.desc.arg0) }) e 0 0 0 :=
  congrArg Host.Outcome.next (runCommand_ends h (if_neg hm))

end

/-- The polarisation, the number of symbols or the buffer is wrong (Table CRR-5). -/
def CrCaptureMalformed (d : Desc) : Prop :=
  let n := d.arg1 % 16384
  2 ≤ d.unit ∨ n = 0 ∨ 8192 < n ∨ bufferOk d.arg0 (4 * n) = false

section
variable {c : Carrier} {s u : State} {e : QEntry} (h : Started (crrQ c) 0x102 s e u)
include h

theorem crCapture_malformed (hm : CrCaptureMalformed e.desc) : Finishes (.crCapture c) s u e 0x02 0 0 :=
  congrArg Host.Outcome.next (runCommand_ends h (if_pos hm))

variable (hm : ¬ CrCaptureMalformed e.desc)
include hm

theorem crCapture_unlocked (hs : u.crState c ≠ 3) : Finishes (.crCapture c) s u e 0x06 0 0 :=
  congrArg Host.Outcome.next (runCommand_ends h ((if_neg hm).trans (if_pos hs)))

theorem crCapture_awaitsSuperframe (hs : u.crState c = 3) : GoesOn (.crCapture c) s u (crrQ c) :=
  congrArg Host.Outcome.next (runCommand_goes_on h ((if_neg hm).trans (if_neg (not_not_intro hs))))

end

/-! ### The superframe boundary and the SNR threshold -/

section
variable {c : Carrier} {s : State} {m : RxMeas}

theorem rxSuperframeBoundary_unlocked (h : s.flag (R.RXF_STATE c) F.RXF_STATE_sf_lock = false) : Does (.rxSuperframeBoundary c m) s s := if_pos h

/-- A boundary in lock: RXF's part, then the superframe that passed where the input is valid, then the commands due and those that may start. -/
theorem rxSuperframeBoundary_locked (h : s.flag (R.RXF_STATE c) F.RXF_STATE_sf_lock = true) :
    let x := s.recoverPol c false m.groupsX
    let y := s.recoverPol c true m.groupsY
    let begun := s.rxfBoundary c m
    let passed := if begun.rxValid c then begun.rxSuperframe c m x y else begun.faultRestart c
    Does (.rxSuperframeBoundary c m) s
      ((((((passed.gmiShow c).eqCommandsDue c).crCaptures c x y).armBoundary (rxfQ c)).armBoundary (eqzQ c)).armBoundary (crrQ c)).releaseWaiters :=
  if_neg (by simp [h])

end

section
variable {c : Carrier} {s : State}

theorem snrBelowThreshold_early (h : (s.cr c).belowRun < 16) : Does (.snrBelowThreshold c) s s := if_pos h

/-- The SNR is shown as below its threshold (R175). -/
abbrev snrLow (c : Carrier) (s : State) : State := s.setFlag (R.CRR_STATUS c) F.CRR_STATUS_below_thr true

variable (h : 16 ≤ (s.cr c).belowRun)
include h

theorem snrBelowThreshold_logged (hl : ((snrLow c s).cr c).logged = true) : Does (.snrBelowThreshold c) s (snrLow c s) :=
  (if_neg (Nat.not_lt_of_le h)).trans (congrArg Host.Outcome.next (if_pos hl))

theorem snrBelowThreshold_logs (hl : ((snrLow c s).cr c).logged = false) : Does (.snrBelowThreshold c) s
    (((snrLow c s).setCr c { (snrLow c s).cr c with logged := true }).logEvent (crrId c) sevWarn 0x0004
      (evData [(2, (snrLow c s).fld (R.CRR_SNR_AVG c) F.CRR_SNR_AVG_snr_avg16)])) :=
  (if_neg (Nat.not_lt_of_le h)).trans (congrArg Host.Outcome.next (if_neg (ne_true_of_eq_false hl)))

end

/-- Settles O24: each command by the lemmas on its refusals, in their order, and on its effect; the boundary by the superframe lock. -/
theorem carrierRecoveryRows : Obligations.CarrierRecoveryRows := by
  unfold Obligations.CarrierRecoveryRows
  intro c s u e m d seed n bad x y begun told moved passed captured low
  exact ⟨fun h => ⟨crReacquire_unit h, crReacquire_off h, crReacquire_awaitsSuperframe h⟩,
    fun h => ⟨crFreqSeed_malformed h, fun hu hl hh => crFreqSeed_holds h (not_seedMalformed hu hl hh)⟩,
    fun h => ⟨crCapture_malformed h, crCapture_unlocked h, crCapture_awaitsSuperframe h⟩,
    rxSuperframeBoundary_unlocked, rxSuperframeBoundary_locked, snrBelowThreshold_early, snrBelowThreshold_logged, snrBelowThreshold_logs⟩

end Sys2Proof.Proofs

/-! PROOF. Failures of cores (R55, R76, R348 to R351, R359, R360, R432). What of them is the model's choice or reading: notes/assumptions/3, 40, 42
and 45. -/
namespace Sys2Proof.Proofs
open Sys2Proof Sys2Proof.Machine Sys2Proof.Safety Sys2Proof.Laws

theorem does_of_eq {i : Instr} {s t u : State} (h : Does i s t) (e : t = u) : Does i s u := e ▸ h

/-! ### What a failure does to the failed core -/

/-- A failed core is stopped, in the failed role, and due to be restarted (R349, R357). -/
abbrev coreStopped (s : State) (k : CoreId) : State := ((s.dropCore k).setRoleOf k 3).setRest k 1

/-- The active core is down: staged writes are reverted, the copy dropped, no handover is due (R351). -/
abbrev activeDown (s : State) (k : CoreId) : State :=
  let rev := (coreStopped s k).revertStaged
  { rev with hws := { rev.hws with copy := none }, pilot := { rev.pilot with missed := 0, handover := false } }

/-- A fail-over is counted, shown in PLT_LAST and logged (R351). -/
abbrev failoverTold (cause block : Nat) (old new : W16) (t : State) : State :=
  ((((t.addCnt R.PLT_FAILOVER_CNT 1).setFlag R.PLT_STATUS_EV F.PLT_STATUS_EV_failover true).noteTotal 12 1).pltLast cause block old).logEvent 0x1A sevAlarm
    0x0001 (evData [(1, cause), (2, old.toNat), (2, new.toNat)])

/-- The standby j has taken over from core k with its snapshot and the next EPOCH (R351). -/
abbrev takenOver (s : State) (k : CoreId) (x : CoreSnap) : State :=
  let down := activeDown s k
  let new := nextEpoch down.pilot.lastEpoch
  ((down.startSnap k.other x new).soleActive k.other new).endEpoch (s.core k).epoch new

/-- No core is active after core k failed: no epoch is live, and a resyncing core waits for its cold resume (R360). -/
abbrev noneActive (s : State) (k : CoreId) : State :=
  let left := (((activeDown s k).setActive none).setLive []).endEpoch (s.core k).epoch 0
  { left with pilot := { left.pilot with pendCold := if left.roleOf k.other = 2 then some (k.other, left.time.tide) else none } }

/-- The dual-active window is over with the failure of core k (R359). -/
abbrev windowOver (s : State) (k : CoreId) : State := (coreStopped s k).setDual false

/-- Core B continues alone after the window (R359). -/
abbrev onlyCoreB (s : State) (k : CoreId) : State :=
  let single := windowOver s k
  (({ single with pilot := { single.pilot with lastEpoch := s.coreB.epoch } } : State).setLive [s.coreB.epoch]).endEpoch s.coreA.epoch s.coreB.epoch

/-- Core A continues alone after the window, and the copy is dropped (R359). -/
abbrev onlyCoreA (s : State) (k : CoreId) : State :=
  let alone := ((windowOver s k).soleActive .A s.coreA.epoch).endEpoch s.coreB.epoch s.coreA.epoch
  { alone with hws := { alone.hws with copy := none } }

section
variable {s : State} {k : CoreId} {cause : Nat}

theorem declareFailed_takenOver {x : CoreSnap} (h : s.standbySnap k.other = some x) : s.declareFailed k cause =
    failoverTold cause k.block (s.core k).epoch (nextEpoch (activeDown s k).pilot.lastEpoch) (takenOver s k x) := by
  rw [State.declareFailed, h]

theorem declareFailed_noneActive (h : s.standbySnap k.other = none) : s.declareFailed k cause =
    failoverTold cause k.block (s.core k).epoch 0 (noneActive s k) := by
  rw [State.declareFailed, h]

/-! ### A failure reaches the pilot -/

theorem coreFailed_ignored (h : ¬ (s.pilot.ok = true ∧ s.roleOf k ≠ 3)) : s.coreFailed k cause = s := by
  refine if_pos ?_
  simpa only [Decidable.not_and_iff_or_not, Bool.not_eq_true, not_not] using h

variable (h : s.pilot.ok = true ∧ s.roleOf k ≠ 3)
include h

theorem coreFailed_heard : s.coreFailed k cause =
    if s.pilot.dual then s.dualFault k cause else if s.active = some k then s.declareFailed k cause else s.standbyFault k cause :=
  if_neg (not_or_intro (by simp [h.1]) h.2)

theorem coreFailed_dualA (hd : s.pilot.dual = true) (hk : k = .A) : s.coreFailed k cause = onlyCoreB s k := by
  subst hk
  exact (coreFailed_heard h).trans (if_pos hd)

theorem coreFailed_dualB (hd : s.pilot.dual = true) (hk : k = .B) :
    s.coreFailed k cause = failoverTold cause 0x19 s.coreB.epoch s.coreA.epoch (onlyCoreA s k) := by
  subst hk
  exact (coreFailed_heard h).trans (if_pos hd)

variable (hd : s.pilot.dual = false)
include hd

theorem coreFailed_active (ha : s.active = some k) : s.coreFailed k cause = s.declareFailed k cause :=
  (coreFailed_heard h).trans ((if_neg (ne_true_of_eq_false hd)).trans (if_pos ha))

theorem coreFailed_standby (ha : s.active ≠ some k) : s.coreFailed k cause = s.standbyFault k cause :=
  (coreFailed_heard h).trans ((if_neg (ne_true_of_eq_false hd)).trans (if_neg ha))

end

/-! ### The rows -/

section
variable {s : State} {k : CoreId}

theorem pilotMissedHb_noneActive (h : s.active = none) : Does .pilotMissedHbDeclare s s := by
  change execPilotMissedHbDeclare s = _
  rw [execPilotMissedHbDeclare, h]

theorem pilotMissedHb_tolerated (h : s.active = some k) (hm : s.pilot.missed < 2 ∨ s.pilot.ok = false) : Does .pilotMissedHbDeclare s s := by
  change execPilotMissedHbDeclare s = _
  rw [execPilotMissedHbDeclare, h]
  exact congrArg Host.Outcome.next (if_neg (fun ⟨h2, hok⟩ => hm.elim (Nat.not_lt_of_le h2) (ne_false_of_eq_true hok)))

theorem pilotMissedHb_declares (h : s.active = some k) (hm : 2 ≤ s.pilot.missed) (hok : s.pilot.ok = true) :
    Does .pilotMissedHbDeclare s (s.declareFailed k 1) := by
  change execPilotMissedHbDeclare s = _
  rw [execPilotMissedHbDeclare, h]
  exact congrArg Host.Outcome.next (if_pos ⟨hm, hok⟩)

theorem coreFaultSignal_doubleFault (h : (s.core k).run = .halted) : Does (.coreFaultSignal k true) s (s.coreFailed k 4) := if_pos (.inl h)

theorem coreFaultSignal_local (h : (s.core k).run = .halted ∨ s.localUncorr k = true) : Does (.coreFaultSignal k false) s (s.coreFailed k 2) :=
  if_pos (h.imp_right (⟨rfl, ·⟩))

theorem coreFaultSignal_notHalted (h : (s.core k).run ≠ .halted) : Does (.coreFaultSignal k true) s s := if_neg (not_or_intro h (fun hl => nomatch hl.1))

theorem coreFaultSignal_sound (h : (s.core k).run ≠ .halted) (hl : s.localUncorr k = false) : Does (.coreFaultSignal k false) s s :=
  if_neg (not_or_intro h (fun hu => ne_true_of_eq_false hl hu.2))

theorem wdogDue_iff : s.wdogDue k = true ↔
    (s.core k).run = .running ∧ (s.core k).wait = .none ∧ 64 * s.fld R.PLT_CFG F.PLT_CFG_wdog ≤ (s.core k).quiet := by
  simp only [State.wdogDue, Bool.and_eq_true, beq_iff_eq, decide_eq_true_eq, and_assoc]

theorem watchdogExpiry_fails (hr : (s.core k).run = .running) (hw : (s.core k).wait = .none)
    (hq : 64 * s.fld R.PLT_CFG F.PLT_CFG_wdog ≤ (s.core k).quiet) : Does (.watchdogExpiry k) s (s.coreFailed k 3) :=
  congrArg Host.Outcome.next (if_pos (wdogDue_iff.mpr ⟨hr, hw, hq⟩))

theorem watchdogExpiry_early (h : (s.core k).run ≠ .running ∨ (s.core k).wait ≠ .none ∨ (s.core k).quiet < 64 * s.fld R.PLT_CFG F.PLT_CFG_wdog) :
    Does (.watchdogExpiry k) s s :=
  congrArg Host.Outcome.next (if_neg (fun hd => by
    obtain ⟨hr, hw, hq⟩ := wdogDue_iff.mp hd
    exact h.elim (· hr) (·.elim (· hw) (Nat.not_lt_of_le hq))))

end

/-- Settles O55: each row by the condition under which it signals a failure; the failure by whether the pilot hears it, the window, and the core's role. -/
theorem pilotFailureRows : Obligations.PilotFailureRows := by
  unfold Obligations.PilotFailureRows
  intro s k x j c old active able stopped rev down new past left alone told fails single onlyB onlyA noCopy out signal
  have failed : ∀ (i : Instr) (cause : Nat), Does i s (s.declareFailed k cause) → fails i cause := fun i cause h =>
    ⟨fun hx => does_of_eq h (declareFailed_takenOver hx), fun hx => does_of_eq h (declareFailed_noneActive hx)⟩
  have signalled : ∀ (i : Instr) (cause : Nat), Does i s (s.coreFailed k cause) → signal i cause := fun i cause h =>
    ⟨fun ha => does_of_eq h (coreFailed_ignored ha), fun ha hd hk => failed i cause (does_of_eq h (coreFailed_active ha hd hk)),
      fun ha hd hk => does_of_eq h (coreFailed_dualA ha hd hk), fun ha hd hk => does_of_eq h (coreFailed_dualB ha hd hk),
      fun ha hd hk => does_of_eq h (coreFailed_standby ha hd hk)⟩
  exact ⟨pilotMissedHb_noneActive, pilotMissedHb_tolerated, fun ha hm hok => failed _ _ (pilotMissedHb_declares ha hm hok),
    fun h => signalled _ _ (coreFaultSignal_doubleFault h), fun h => signalled _ _ (coreFaultSignal_local h), coreFaultSignal_notHalted,
    coreFaultSignal_sound, fun hr hw hq => signalled _ _ (watchdogExpiry_fails hr hw hq), watchdogExpiry_early⟩

end Sys2Proof.Proofs

/-! PROOF. The hawser's frames and copies (R353 to R355, R358) and the return of a failed core (R61, R357). What of them is the model's choice or reading:
notes/assumptions/3 and 42 to 44. -/
namespace Sys2Proof.Proofs
open Sys2Proof Sys2Proof.Machine Sys2Proof.Safety Sys2Proof.Laws

/-! ### HAWSER_FRAME_RECEIVED -/

/-- A frame with a bad check is counted and shown (R355). -/
abbrev frameBad (s : State) : State := (s.addCnt R.HWS_FRAME_ERR_CNT 1).setFlag R.HWS_STATUS F.HWS_STATUS_frame_err true

/-- The copy of this tide becomes void (R355). -/
abbrev copyVoided (s : State) (copy : HawserCopy) : State :=
  { frameBad s with hws := { (frameBad s).hws with copy := some { copy with isVoid := true }, voids := (frameBad s).hws.voids + 1 }
                    pilot := { (frameBad s).pilot with handover := false } }

section
variable {s : State} {copy : HawserCopy} {ok : Bool}

theorem hawserFrame_noCopy (h : s.hws.copy = none) : Does (.hawserFrameReceived ok) s s := by
  change execHawserFrameReceived ok s = _
  rw [execHawserFrameReceived, h]

variable (h : s.hws.copy = some copy)
include h

theorem hawserFrame_good : Does (.hawserFrameReceived true) s s := by
  change execHawserFrameReceived true s = _
  rw [execHawserFrameReceived, h]
  exact if_pos rfl

theorem hawserFrame_alreadyVoid (hv : copy.isVoid = true) : Does (.hawserFrameReceived false) s (frameBad s) := by
  change execHawserFrameReceived false s = _
  rw [execHawserFrameReceived, h]
  exact (if_neg Bool.false_ne_true).trans (if_pos hv)

variable (hv : copy.isVoid = false)
include hv

theorem hawserFrame_noStandby (hj : (copyVoided s copy).standby = none) : Does (.hawserFrameReceived false) s (copyVoided s copy) := by
  change execHawserFrameReceived false s = _
  rw [execHawserFrameReceived, h]
  refine (if_neg Bool.false_ne_true).trans ((if_neg (ne_true_of_eq_false hv)).trans (congrArg Host.Outcome.next ?_))
  split
  · next hx => exact nomatch hj.symm.trans hx
  · rfl

variable {j : CoreId} (hj : (copyVoided s copy).standby = some j)
include hj

/-- The fourth void copy in a row makes a standby in sync resync (R355). -/
theorem hawserFrame_voids : Does (.hawserFrameReceived false) s
    (if (copyVoided s copy).roleOf j = 1 ∧ 4 ≤ (frameBad s).hws.voids + 1 then (copyVoided s copy).enterResync j 2 else copyVoided s copy) := by
  change execHawserFrameReceived false s = _
  rw [execHawserFrameReceived, h]
  refine (if_neg Bool.false_ne_true).trans ((if_neg (ne_true_of_eq_false hv)).trans (congrArg Host.Outcome.next ?_))
  split
  · next x hx =>
      obtain rfl : x = j := Option.some.inj (hx.symm.trans hj)
      rfl
  · next hx => exact nomatch hj.symm.trans hx

theorem hawserFrame_tolerated (ht : (copyVoided s copy).roleOf j ≠ 1 ∨ (frameBad s).hws.voids + 1 < 4) :
    Does (.hawserFrameReceived false) s (copyVoided s copy) :=
  does_of_eq (hawserFrame_voids h hv hj) (if_neg (fun ⟨hr, hn⟩ => ht.elim (· hr) (Nat.not_lt_of_le hn)))

theorem hawserFrame_resyncs (hr : (copyVoided s copy).roleOf j = 1) (hn : 4 ≤ (frameBad s).hws.voids + 1) :
    Does (.hawserFrameReceived false) s ((copyVoided s copy).enterResync j 2) :=
  does_of_eq (hawserFrame_voids h hv hj) (if_pos ⟨hr, hn⟩)

end

/-! ### HAWSER_COPY_COMPLETE -/

/-- The copy's lines are written into the DMEM of standby j, and its snapshot is kept (R353, R355). -/
abbrev copyAdopted (s : State) (copy : HawserCopy) (j : CoreId) : State :=
  let put := copy.lines.foldl (State.adoptLine j copy) s
  { put with hws := { put.hws with copy := none, snap := some copy.snap, voids := 0 } }

section
variable {s : State} {copy : HawserCopy} {j : CoreId}

theorem hawserCopy_noCopy (h : s.hws.copy = none) : Does .hawserCopyComplete s s := by
  change execHawserCopyComplete s = _
  rw [execHawserCopyComplete, h]

theorem hawserCopy_noStandby (hj : s.standby = none) : Does .hawserCopyComplete s s := by
  change execHawserCopyComplete s = _
  rw [execHawserCopyComplete, hj]
  cases s.hws.copy <;> rfl

variable (h : s.hws.copy = some copy) (hj : s.standby = some j)
include h hj

theorem hawserCopy_incomplete (hi : copy.incomplete = true) : Does .hawserCopyComplete s s := by
  change execHawserCopyComplete s = _
  rw [execHawserCopyComplete, h, hj]
  exact if_pos hi

variable (hi : copy.incomplete = false)
include hi

theorem hawserCopy_void (hv : copy.isVoid = true) : Does .hawserCopyComplete s s.copyVoid := by
  change execHawserCopyComplete s = _
  rw [execHawserCopyComplete, h, hj]
  exact (if_neg (ne_true_of_eq_false hi)).trans (if_pos hv)

variable (hv : copy.isVoid = false)
include hv

theorem hawserCopy_adopted : Does .hawserCopyComplete s
    (if (copyAdopted s copy j).roleOf j = 2 ∧ copy.isWhole then (copyAdopted s copy j).inSync j else copyAdopted s copy j) := by
  change execHawserCopyComplete s = _
  rw [execHawserCopyComplete, h, hj]
  exact (if_neg (ne_true_of_eq_false hi)).trans (if_neg (ne_true_of_eq_false hv))

theorem hawserCopy_kept (hr : (copyAdopted s copy j).roleOf j ≠ 2 ∨ copy.isWhole = false) : Does .hawserCopyComplete s (copyAdopted s copy j) :=
  does_of_eq (hawserCopy_adopted h hj hi hv) (if_neg (fun ⟨h2, hw⟩ => hr.elim (· h2) (ne_false_of_eq_true hw)))

theorem hawserCopy_syncs (hr : (copyAdopted s copy j).roleOf j = 2) (hw : copy.isWhole = true) :
    Does .hawserCopyComplete s ((copyAdopted s copy j).inSync j) :=
  does_of_eq (hawserCopy_adopted h hj hi hv) (if_pos ⟨hr, hw⟩)

end

/-! ### The return of a failed core -/

section
variable {s : State} {k : CoreId}

theorem coreRestartHoldEnd_tests (h : s.restOf k = 1) : Does (.coreRestartHoldEnd k) s (s.setRest k 2) := congrArg Host.Outcome.next (if_pos h)

theorem coreRestartHoldEnd_idle (h : s.restOf k ≠ 1) : Does (.coreRestartHoldEnd k) s s := congrArg Host.Outcome.next (if_neg h)

theorem coreSelftestDone_idle (h : s.restOf k ≠ 2) (r : Option Byte) : Does (.coreSelftestDone k r) s s := if_pos h

theorem coreSelftestDone_passed (h : s.restOf k = 2) :
    Does (.coreSelftestDone k none) s (((s.coreRepair k).zeroMem (coreAddr k 0) (coreAddr k 0 + 0x400000)).setRest k 3) := by
  change execCoreSelftestDone k none s = _
  rw [execCoreSelftestDone, if_neg (not_not_intro h)]

theorem coreSelftestDone_failed (h : s.restOf k = 2) (test : Byte) : Does (.coreSelftestDone k (some test)) s
    (((s.setRest k 4).setFlag R.PLT_STATUS_EV F.PLT_STATUS_EV_selftest_fail true).logEvent 0x1A sevWarn 0x0005 (evData [(1, k.block), (1, test.toNat)])) :=
  if_neg (not_not_intro h)

/-- The core is loaded again, and is standby, resyncing (R61, R357). -/
abbrev coreBack (s : State) (k : CoreId) (o : Nat) : State :=
  ((((s.loadHarbour k o).reloadBank k false).reloadBank k true).setRest k 0).enterResync k 0

theorem coreReloadDone_noFirmware (h : s.boot.harbour = none) : Does (.coreReloadDone k) s s := by
  change execCoreReloadDone k s = _
  rw [execCoreReloadDone, h]

theorem coreReloadDone_notDue (h : s.restOf k ≠ 3) : Does (.coreReloadDone k) s s := by
  change execCoreReloadDone k s = _
  rw [execCoreReloadDone]
  cases s.boot.harbour with
  | none => rfl
  | some o => exact if_pos h

variable {o : Nat} (ho : s.boot.harbour = some o) (h : s.restOf k = 3)
include ho h

theorem coreReloadDone_unfit (hf : s.mfCheck o o harbourSlotSize true ≠ 0) : Does (.coreReloadDone k) s (s.setRest k 4) := by
  change execCoreReloadDone k s = _
  rw [execCoreReloadDone, ho]
  exact (if_neg (not_not_intro h)).trans (if_pos hf)

variable (hf : s.mfCheck o o harbourSlotSize true = 0)
include hf

theorem coreReloadDone_fit : Does (.coreReloadDone k) s (if (coreBack s k o).active.isNone ∧ (coreBack s k o).pilot.pendCold.isNone then
    { coreBack s k o with pilot := { (coreBack s k o).pilot with pendCold := some (k, (coreBack s k o).time.tide) } } else coreBack s k o) := by
  change execCoreReloadDone k s = _
  rw [execCoreReloadDone, ho]
  exact (if_neg (not_not_intro h)).trans (if_neg (not_not_intro hf))

theorem coreReloadDone_returns (hb : (coreBack s k o).active ≠ none ∨ (coreBack s k o).pilot.pendCold ≠ none) :
    Does (.coreReloadDone k) s (coreBack s k o) :=
  does_of_eq (coreReloadDone_fit ho h hf)
    (if_neg (fun ⟨ha, hp⟩ => hb.elim (· (Option.isNone_iff_eq_none.mp ha)) (· (Option.isNone_iff_eq_none.mp hp))))

theorem coreReloadDone_remembered (ha : (coreBack s k o).active = none) (hp : (coreBack s k o).pilot.pendCold = none) : Does (.coreReloadDone k) s
    { coreBack s k o with pilot := { (coreBack s k o).pilot with pendCold := some (k, (coreBack s k o).time.tide) } } :=
  does_of_eq (coreReloadDone_fit ho h hf) (if_pos ⟨Option.isNone_iff_eq_none.mpr ha, Option.isNone_iff_eq_none.mpr hp⟩)

end

/-- Settles O57: frames and copies by the copy under way and the standby; the return of a core by how far its restart has come. -/
theorem coreReturnAndHawserRows : Obligations.CoreReturnAndHawserRows := by
  unfold Obligations.CoreReturnAndHawserRows
  intro s k j copy test o bad n void put kept stays loaded back fit
  exact ⟨fun h => ⟨fun _ => hawserFrame_noCopy h, hawserCopy_noCopy h⟩, hawserFrame_good, hawserFrame_alreadyVoid, hawserFrame_noStandby,
    fun h hv hj => hawserFrame_tolerated h hv hj, fun h hv hj => hawserFrame_resyncs h hv hj, hawserCopy_noStandby,
    fun h hj => ⟨hawserCopy_incomplete h hj, hawserCopy_void h hj, hawserCopy_kept h hj, hawserCopy_syncs h hj⟩,
    coreRestartHoldEnd_tests, coreRestartHoldEnd_idle, coreSelftestDone_idle, fun h => ⟨coreSelftestDone_passed h, coreSelftestDone_failed h test⟩,
    fun h => h.elim coreReloadDone_noFirmware coreReloadDone_notDue, coreReloadDone_unfit, coreReloadDone_returns, coreReloadDone_remembered⟩

end Sys2Proof.Proofs

/-! PROOF. Start-up with the enclave (R61, R62, R477, R478, R485) and the enclave's events (R328, R341, R344, R345). What of them is the model's choice or
reading: notes/assumptions/12, 38, 39, 103 and 106. -/
namespace Sys2Proof.Proofs
open Sys2Proof Sys2Proof.Machine Sys2Proof.Safety Sys2Proof.Laws

/-! ### ENCLAVE_BOOT -/

/-- The units that failed their self-test are taken out (R485). -/
abbrev bootTested (units : List (Fin 26)) (s : State) : State :=
  if s.hasCipher then units.foldl (fun s u => if s.unitRole u.val < 2 then s.unitKatFail u.val else s) s else s

/-- The enclave is OPERATIONAL, or ZEROISED while ZEROIZE_N is low, and start-up is at stage 3 (R344, R485). -/
abbrev enclaveUp (held : Bool) (t : State) : State :=
  let shown := (t.setFld R.SEC_STATE F.SEC_STATE_state (if held then 2 else 1)).setFlag R.SEC_STATE F.SEC_STATE_zeroize_held held
  ({ shown with sec := { shown.sec with unwrapped := !held } } : State).setFld R.HIF_BOOT F.HIF_BOOT_hw_stage 3

/-- The programs of the cipher units are loaded, with a version that is a free value. -/
abbrev cipherLoaded (u : State) : State :=
  let progs := u.draw.2
  if progs.hasCipher then (progs.setFlag R.CPH_STATE F.CPH_STATE_prog_ok true).setFld R.CPH_STATE F.CPH_STATE_prog_ver u.draw.1.toNat else progs

/-- The stage of start-up that the hardware shows. -/
abbrev hwStage (s : State) : Nat := s.fld R.HIF_BOOT F.HIF_BOOT_hw_stage

theorem bootError_iff (n : Nat) : bootError n = true ↔ 0x10 ≤ n ∧ n ≤ 0x1E := by
  simp only [bootError, Bool.and_eq_true, decide_eq_true_eq]

section
variable {s : State} {code : Byte} {units : List (Fin 26)}

theorem enclaveBoot_idle (h : hwStage s ≠ 2 ∨ ((!s.pins.zeroizeN) = true ∧ code.toNat = 0x1D)) : Does (.enclaveBoot code units) s s := if_pos h

variable (h : ¬ (hwStage s ≠ 2 ∨ ((!s.pins.zeroizeN) = true ∧ code.toNat = 0x1D)))
include h

theorem enclaveBoot_stopped (hn : code.toNat = 0x40) : Does (.enclaveBoot code units) s (s.bootHalt 0x40) := (if_neg h).trans (if_pos hn)

variable (hn : code.toNat ≠ 0x40)
include hn

theorem enclaveBoot_fails (he : 0x10 ≤ code.toNat ∧ code.toNat ≤ 0x1E) :
    Does (.enclaveBoot code units) s ((s.secError code.toNat).bootHalt code.toNat) :=
  (if_neg h).trans ((if_neg hn).trans (if_pos ((bootError_iff _).mpr he)))

theorem enclaveBoot_boots (he : ¬ (0x10 ≤ code.toNat ∧ code.toNat ≤ 0x1E)) :
    let booted := cipherLoaded (enclaveUp (!s.pins.zeroizeN) (bootTested units s))
    Does (.enclaveBoot code units) s (if booted.dirCopy.isNone then booted.bootHalt 0x41 else booted) :=
  (if_neg h).trans ((if_neg hn).trans (if_neg (mt (bootError_iff _).mp he)))

end

/-! ### HARBOUR_MANIFEST_LOAD -/

/-- Both cores are loaded from the manifest at o into cleared SRAM, and the rollback count is raised (R61, R62). -/
abbrev harbourLoaded (s : State) (o : Nat) : State :=
  let clean := s.zeroMem 0 0x800000
  ((clean.loadHarbour .A o).loadHarbour .B o).rollbackRaise 1 0 (clean.mf o 0x0C 4)

section
variable {s : State} {d : Nat}

theorem harbourManifestLoad_idle (h : hwStage s ≠ 3) : Does .harbourManifestLoad s s := if_pos h

variable (h : hwStage s = 3)
include h

theorem harbourManifestLoad_noDirectory (hd : s.dirCopy = none) : Does .harbourManifestLoad s (s.bootHalt 0x41) := by
  change execHarbourManifestLoad s = _
  rw [execHarbourManifestLoad, hd]
  exact if_neg (not_not_intro h)

variable (hd : s.dirCopy = some d)
include hd

theorem harbourManifestLoad_fails (hf : s.mfCheck (s.bootOffset d) (s.bootOffset d) harbourSlotSize true ≠ 0) :
    let fails := s.mfCheck (s.bootOffset d) (s.bootOffset d) harbourSlotSize true
    Does .harbourManifestLoad s ((s.bootHalt fails).logEvent 0x15 sevFault 0x0009 (evData [(1, fails)])) := by
  change execHarbourManifestLoad s = _
  rw [execHarbourManifestLoad, hd]
  exact (if_neg (not_not_intro h)).trans (if_pos hf)

theorem harbourManifestLoad_loads (hf : s.mfCheck (s.bootOffset d) (s.bootOffset d) harbourSlotSize true = 0) :
    let o := s.bootOffset d
    let loaded := harbourLoaded s o
    Does .harbourManifestLoad s (State.releaseCores { loaded with
      boot := { entry := BitVec.ofNat 64 (loaded.mf o 0x14 4), harbour := some o, bank0 := none, bank1 := none }
      berth := { active := false, loaded0 := none, loaded1 := none, swapReq := false } }) := by
  change execHarbourManifestLoad s = _
  rw [execHarbourManifestLoad, hd]
  exact (if_neg (not_not_intro h)).trans (if_neg (not_not_intro hf))

end

/-! ### The enclave's answer -/

/-- The answer stands in the channel's response, and the channel is done (R341). -/
abbrev answerShown (s : State) (ch : Fin 2) (result : Nat) (data : List Byte) : State :=
  let a := R.SEC_CH_STATUS ch.val
  let put := s.setBytes (secResp ch) ([BitVec.ofNat 8 result, 0, 0, 0] ++ leBytes 4 data.length ++ leBytes 8 s.time.devtime.toNat ++ data)
  let taken : State := { put with sec := { put.sec with ch := put.sec.ch.set ch { put.sec.ch[ch] with answer := none } } }
  let idle := (taken.setFlag a F.SEC_CH_STATUS_busy false).setFlag (R.SEC_CH_CTRL ch.val) F.SEC_CH_CTRL_go false
  ((idle.setFlag a F.SEC_CH_STATUS_done true).setFld a F.SEC_CH_STATUS_result result).setFld a F.SEC_CH_STATUS_length (16 + data.length)

section
variable {s : State} {ch : Fin 2} {result : Nat} {data : List Byte}

theorem secMailboxResponse_idle (h : s.flag (R.SEC_CH_STATUS ch.val) F.SEC_CH_STATUS_busy = false ∨ (s.sec.ch[ch]).answer = none) :
    Does (.secMailboxResponseReady ch) s s := by
  change execSecMailboxResponseReady ch s = _
  rw [execSecMailboxResponseReady]
  rcases h with h | h <;> rw [h]
  cases s.flag (R.SEC_CH_STATUS ch.val) F.SEC_CH_STATUS_busy <;> rfl

variable (hb : s.flag (R.SEC_CH_STATUS ch.val) F.SEC_CH_STATUS_busy = true) (ha : (s.sec.ch[ch]).answer = some (result, data))
include hb ha

theorem secMailboxResponse_host (hc : ch = 0) : Does (.secMailboxResponseReady ch) s ((answerShown s ch result data).raiseIrq 2) := by
  change execSecMailboxResponseReady ch s = _
  rw [execSecMailboxResponseReady, hb, ha]
  exact congrArg Host.Outcome.next (if_neg (by simp [hc]))

theorem secMailboxResponse_noneActive (hc : ch = 1) (hk : (answerShown s ch result data).active = none) :
    Does (.secMailboxResponseReady ch) s (answerShown s ch result data) := by
  change execSecMailboxResponseReady ch s = _
  rw [execSecMailboxResponseReady, hb, ha]
  refine congrArg Host.Outcome.next ((if_pos hc).trans ?_)
  split
  · next k hx => exact nomatch hk.symm.trans hx
  · rfl

theorem secMailboxResponse_core {k : CoreId} (hc : ch = 1) (hk : (answerShown s ch result data).active = some k) :
    Does (.secMailboxResponseReady ch) s ((answerShown s ch result data).eventBoth k 5) := by
  change execSecMailboxResponseReady ch s = _
  rw [execSecMailboxResponseReady, hb, ha]
  refine congrArg Host.Outcome.next ((if_pos hc).trans ?_)
  split
  · next j hx =>
      obtain rfl : j = k := Option.some.inj (hx.symm.trans hk)
      rfl
  · next hx => exact nomatch hk.symm.trans hx

end

/-! ### Zeroisation and ERROR -/

section
variable {s : State} {code : Byte}

theorem zeroiseComplete_idle (h : s.secStateCode ≠ 2) (ok : Bool) : Does (.zeroiseComplete ok) s s := if_pos h

/-- ZEROIZE_N is high again, and the enclave no longer held (R345). -/
abbrev zeroizeFreed (s : State) : State :=
  ({ s with pins := { s.pins with zeroizeN := true } } : State).setFlag R.SEC_STATE F.SEC_STATE_zeroize_held false

theorem zeroiseComplete_operates (h : s.secStateCode = 2) :
    let freed := zeroizeFreed s
    let open_ : State := { freed with sec := { freed.sec with unwrapped := true } }
    Does (.zeroiseComplete true) s (((open_.setFld R.SEC_STATE F.SEC_STATE_state 1).cphUnrec .A 0 false).cphUnrec .B 0 false) :=
  (if_neg (not_not_intro h)).trans (congrArg Host.Outcome.next (if_pos rfl))

theorem zeroiseComplete_fails (h : s.secStateCode = 2) : Does (.zeroiseComplete false) s ((zeroizeFreed s).secError 0x1D) :=
  (if_neg (not_not_intro h)).trans (congrArg Host.Outcome.next (if_neg Bool.false_ne_true))

theorem secErrorEntry_again (h : s.secStateCode = 3) : Does (.secErrorEntry code) s s := congrArg Host.Outcome.next (if_pos h)

/-- ERROR is entered once: shown with its code, keys erased, logged, sessions dropped (R328). -/
abbrev errorEntered (s : State) (n : Nat) : State :=
  let shown := (s.setFld R.SEC_STATE F.SEC_STATE_state 3).setFld R.SEC_STATE F.SEC_STATE_fail_code n
  let gone := (((shown.cphSecErase 1).logEvent 0x15 sevAlarm 0x0005 (evData [(1, n)])).sessDrop .A).sessDrop .B
  let shut : State := { gone with sec := { gone.sec with unwrapped := false } }
  let noA := shut.setHail .A { shut.hailA with encl := [], toSec := [] }
  (noA.setHail .B { noA.hailB with encl := [], toSec := [] }).refreshModes

theorem secErrorEntry_enters (h : s.secStateCode ≠ 3) : Does (.secErrorEntry code) s (errorEntered s code.toNat) :=
  congrArg Host.Outcome.next (if_neg h)

end

/-- Settles O54: start-up by its stage and the code of the boot or of the manifest's check; the enclave's events by its channel and state. -/
theorem startupAndEnclaveRows : Obligations.StartupAndEnclaveRows := by
  unfold Obligations.StartupAndEnclaveRows
  intro s code units ch d result data stage n held tried shown up progs booted o fails clean both loaded a put taken idle said low high open_ err gone shut
    noA
  refine ⟨enclaveBoot_idle, fun hs hn => ?_, fun hs hl hh hx => ?_, fun hs hn hr => ?_, harbourManifestLoad_idle, harbourManifestLoad_noDirectory,
    harbourManifestLoad_fails, harbourManifestLoad_loads, secMailboxResponse_idle,
    fun hb ha => ⟨secMailboxResponse_host hb ha, secMailboxResponse_noneActive hb ha, fun hc k hk => secMailboxResponse_core hb ha hc hk⟩, rfl,
    zeroiseComplete_idle, fun h => ⟨zeroiseComplete_operates h, zeroiseComplete_fails h⟩, secErrorEntry_again, secErrorEntry_enters⟩
  · exact enclaveBoot_stopped (not_or_intro (not_not_intro hs) (fun hx => by omega)) hn
  · exact enclaveBoot_fails (not_or_intro (not_not_intro hs) hx) (by omega) ⟨hl, hh⟩
  · exact enclaveBoot_boots (not_or_intro (not_not_intro hs) (fun hx => by omega)) hn (by omega)

end Sys2Proof.Proofs

/-! PROOF. Frames sent and received, alignment, LOF and LOM, the framer's fault and the overhead ports (R54, R92, R93, R226, R232 to R244, R247, R249).
What of them is the model's choice or reading: notes/assumptions/3, 4, 13, 92, 105 and 108. -/
namespace Sys2Proof.Proofs
open Sys2Proof Sys2Proof.Machine Sys2Proof.Safety Sys2Proof.Laws

/-! ### FRM_TX_FRAME: a frame is numbered, formed, and joins the line -/

section
variable (s : State) (c : Carrier)

/-- The frame has its number, the pending set applied (R54, R93). -/
abbrev frameNumbered : State :=
  let applied := s.applyBoundary .frmTx c
  ((applied.setFrm c { applied.frm c with txStarted := true }).setCphCar c { applied.cphCar c with ftx := applied.nextFrame c }).setFld
    (R.FRM_MF_COUNT c) F.FRM_MF_COUNT_tx_mf (applied.nextFrame c / 256 % 65536)

/-- The calendar has advanced over the frame, BDI is placed, the MDC bytes are taken (R234, R243, R248). -/
abbrev mdcTaken : List Byte × State :=
  let x := (s.applyBoundary .frmTx c).frm c
  let numbered := frameNumbered s c
  let cap := numbered.capAt c x.txH64
  let cal := calFrame (calD (numbered.carRate c) cap) (calN (numbered.carRs8 c) (numbered.carBase c) (numbered.carRate c) x.txH64) x.txAcc
  let moved := numbered.setFrm c { numbered.frm c with txAcc := cal.2, txSlot := if cap = 0 then 0 else (x.txSlot + cal.1) % cap, answer := none }
  (moved.setFlag (R.FRM_DEFECT c) F.FRM_DEFECT_bdi_tx (moved.bdiDue c)).ospTake c

/-- The overhead formed, or after a fault the last good one (R244). -/
abbrev headOf : List Byte :=
  let applied := s.applyBoundary .frmTx c
  let x := applied.frm c
  if x.fault then x.lastOh
  else (mdcTaken s c).2.formOverhead c (applied.nextFrame c) ((frameNumbered s c).capAt c x.txH64) x.txAcc x.txSlot (mdcTaken s c).1

/-- The frame with its overhead and tags, before the berths fill its slot words. -/
abbrev frameFormed : TxFrame :=
  let x := (s.applyBoundary .frmTx c).frm c
  let numbered := frameNumbered s c
  { oh := headOf s c, tags := ((mdcTaken s c).2.cphCar c).tags, d := calD (numbered.carRate c) (numbered.capAt c x.txH64)
    n := calN (numbered.carRs8 c) (numbered.carBase c) (numbered.carRate c) x.txH64, cap := numbered.capAt c x.txH64, acc := x.txAcc, slot := x.txSlot
    map := (mdcTaken s c).2.txMap c, client := [] }

/-- The frame has joined the line with its client content (R92, R232). -/
abbrev frameJoined : State :=
  let f := (s.applyBoundary .frmTx c).nextFrame c
  let filled := (mdcTaken s c).2.fillFrame (f % 256 == 0) (f % 256 == 255) (frameFormed s c)
  let untagged := filled.2.setCphCar c { filled.2.cphCar c with tags := [] }
  (untagged.setFrm c { untagged.frm c with lastOh := headOf s c }).setTx c
    { untagged.tx c with line := { (untagged.tx c).line with frames := filled.1 :: (untagged.tx c).line.frames } }

end

section
variable {s : State} {c : Carrier}

theorem frmTxFrame_idle (h : ¬ s.txState c = 3) : Does (.frmTxFrame c) s s := if_pos h

variable (h : s.txState c = 3)
include h

theorem frmTxFrame_interoperable (hf : s.carFamily c ≠ 0) : Does (.frmTxFrame c) s (s.iopTxFrame c) :=
  (if_neg (not_not_intro h)).trans (if_pos hf)

theorem frmTxFrame_sent (hf : s.carFamily c = 0) : Does (.frmTxFrame c) s
    (((((frameJoined s c).cphFrameBoundary c).completeOp (frmQ c) 0x101 0 0 0).armBoundary (frmQ c)).releaseWaiters) :=
  (if_neg (not_not_intro h)).trans (if_neg (not_not_intro hf))

end

/-! ### FRM_FAS_SEARCH_MATCH -/

/-- The deframer of family 0 is in service and out of frame, and so searches the FAS (R236). -/
abbrev FasSearch (s : State) (c : Carrier) : Prop :=
  s.frmLive c = true ∧ s.carFamily c = 0 ∧ s.flag (R.FRM_STATE c) F.FRM_STATE_in_frame = false

/-- The model's guard is the negation of FasSearch. -/
theorem not_fasSearch_iff {s : State} {c : Carrier} :
    ¬ FasSearch s c ↔ (s.frmLive c = false ∨ s.carFamily c ≠ 0 ∨ s.flag (R.FRM_STATE c) F.FRM_STATE_in_frame = true) := by
  rw [FasSearch, Classical.not_and_iff_not_or_not, Classical.not_and_iff_not_or_not, Bool.not_eq_true, Bool.not_eq_false]

section
variable {s : State} {c : Carrier} {pos n : Nat} {hit : Bool}

theorem frmFasSearchMatch_idle (h : ¬ FasSearch s c) : Does (.frmFasSearchMatch c pos hit) s s := if_pos (not_fasSearch_iff.mp h)

variable (h : FasSearch s c)
include h

/-- An open candidate is dropped, completed or advanced. -/
theorem frmFasSearchMatch_open (hn : (s.frm c).cands.lookup pos = some n) : execFrmFasSearchMatch c pos hit s =
    (if hit = false then .next (s.setCands c ((s.frm c).cands.filter (fun p => p.1 != pos)))
      else if 3 ≤ n + 1 then .next (s.frmIf c)
      else .next (s.setCands c ((s.frm c).cands.map (fun p => if p.1 == pos then (pos, n + 1) else p)))) := by
  rw [execFrmFasSearchMatch, if_neg (fun hg => not_fasSearch_iff.mpr hg h)]
  simp only [hn]

theorem frmFasSearchMatch_drops (hn : (s.frm c).cands.lookup pos = some n) (hh : hit = false) :
    Does (.frmFasSearchMatch c pos hit) s (s.setCands c ((s.frm c).cands.filter (fun p => p.1 != pos))) :=
  (frmFasSearchMatch_open h hn).trans (if_pos hh)

theorem frmFasSearchMatch_inFrame (hn : (s.frm c).cands.lookup pos = some n) (hh : hit = true) (h2 : 2 ≤ n) :
    Does (.frmFasSearchMatch c pos hit) s (s.frmIf c) :=
  (frmFasSearchMatch_open h hn).trans ((if_neg (ne_false_of_eq_true hh)).trans (if_pos (Nat.succ_le_succ h2)))

theorem frmFasSearchMatch_advances (hn : (s.frm c).cands.lookup pos = some n) (hh : hit = true) (h2 : n < 2) :
    Does (.frmFasSearchMatch c pos hit) s (s.setCands c ((s.frm c).cands.map (fun p => if p.1 == pos then (pos, n + 1) else p))) :=
  (frmFasSearchMatch_open h hn).trans
    ((if_neg (ne_false_of_eq_true hh)).trans (if_neg (fun h3 => Nat.not_le_of_lt h2 (Nat.le_of_succ_le_succ h3))))

/-- A match elsewhere opens a candidate, or is counted with four open. -/
theorem frmFasSearchMatch_new (hn : (s.frm c).cands.lookup pos = none) : execFrmFasSearchMatch c pos hit s =
    (if hit = false then .next s
      else if (s.frm c).cands.length < 4 then .next (s.setCands c ((s.frm c).cands ++ [(pos, 1)]))
      else .next (s.addCnt (R.FRM_CAND_FULL_CNT c) 1)) := by
  rw [execFrmFasSearchMatch, if_neg (fun hg => not_fasSearch_iff.mpr hg h)]
  simp only [hn]

theorem frmFasSearchMatch_mismatch (hn : (s.frm c).cands.lookup pos = none) (hh : hit = false) : Does (.frmFasSearchMatch c pos hit) s s :=
  (frmFasSearchMatch_new h hn).trans (if_pos hh)

theorem frmFasSearchMatch_opens (hn : (s.frm c).cands.lookup pos = none) (hh : hit = true) (hl : (s.frm c).cands.length < 4) :
    Does (.frmFasSearchMatch c pos hit) s (s.setCands c ((s.frm c).cands ++ [(pos, 1)])) :=
  (frmFasSearchMatch_new h hn).trans ((if_neg (ne_false_of_eq_true hh)).trans (if_pos hl))

theorem frmFasSearchMatch_full (hn : (s.frm c).cands.lookup pos = none) (hh : hit = true) (hl : 4 ≤ (s.frm c).cands.length) :
    Does (.frmFasSearchMatch c pos hit) s (s.addCnt (R.FRM_CAND_FULL_CNT c) 1) :=
  (frmFasSearchMatch_new h hn).trans ((if_neg (ne_false_of_eq_true hh)).trans (if_neg (Nat.not_lt_of_le hl)))

end

/-! ### FRM_RX_FRAME -/

/-- The blocks that FEC_x flagged are taken, and a frame replaced downstream is counted (R243). -/
abbrev rxPeriod (s : State) (c : Carrier) : State :=
  let base := s.setFec c { s.fec c with flagged := 0 }
  if base.flag (R.FRM_DEFECT c) F.FRM_DEFECT_repl then base.addCnt (R.FRM_REPL_FRAME_CNT c) 1 else base

/-- The fifth bad FAS in a row (R237). -/
theorem five_le_frmFasRun_iff {s : State} {c : Carrier} {oh : List Byte} :
    5 ≤ s.frmFasRun c oh ↔ oh.take 6 ≠ fasBytes ∧ 4 ≤ (s.frm c).badFas := by
  rw [State.frmFasRun]
  by_cases hf : oh.take 6 = fasBytes
  · simp [hf]
  · simp [hf]

section
variable {s : State} {c : Carrier} {oh payload : List Byte} {marked : List (Fin 16256)}

theorem frmRxFrame_idle (h : s.frmLive c = false) : Does (.frmRxFrame c oh payload marked) s s := if_pos h

variable (h : s.frmLive c = true)
include h

theorem frmRxFrame_interoperable (hf : (rxPeriod s c).carFamily c ≠ 0) :
    Does (.frmRxFrame c oh payload marked) s ((rxPeriod s c).iopRxFrame c (s.fec c).flagged) :=
  (if_neg (ne_false_of_eq_true h)).trans (if_pos hf)

variable (hf : (rxPeriod s c).carFamily c = 0)
include hf

theorem frmRxFrame_outOfFrame (hi : (rxPeriod s c).flag (R.FRM_STATE c) F.FRM_STATE_in_frame = false) : Does (.frmRxFrame c oh payload marked) s
    ((rxPeriod s c).setFrm c { (rxPeriod s c).frm c with oofFrames := ((rxPeriod s c).frm c).oofFrames + 1 }) :=
  (if_neg (ne_false_of_eq_true h)).trans ((if_neg (not_not_intro hf)).trans (if_pos hi))

variable (hi : (rxPeriod s c).flag (R.FRM_STATE c) F.FRM_STATE_in_frame = true)
include hi

theorem frmRxFrame_oof (ho : oh.take 6 ≠ fasBytes) (hb : 4 ≤ ((rxPeriod s c).frm c).badFas) :
    Does (.frmRxFrame c oh payload marked) s ((rxPeriod s c).frmOof c) :=
  (if_neg (ne_false_of_eq_true h)).trans ((if_neg (not_not_intro hf)).trans
    ((if_neg (ne_false_of_eq_true hi)).trans (if_pos (five_le_frmFasRun_iff.mpr ⟨ho, hb⟩))))

theorem frmRxFrame_used (hb : oh.take 6 = fasBytes ∨ ((rxPeriod s c).frm c).badFas < 4) : Does (.frmRxFrame c oh payload marked) s
    (((rxPeriod s c).setFrm c { (rxPeriod s c).frm c with rxPar := some (bip8 payload ^^^ scramParity)
                                                          bei := bipErrors oh ((rxPeriod s c).frm c).rxPar }).frmFrameIn
      c oh payload marked (bipErrors oh ((rxPeriod s c).frm c).rxPar) (s.fec c).flagged) := by
  have hrun : ¬ 5 ≤ (rxPeriod s c).frmFasRun c oh := fun h5 =>
    have ⟨hbad, hfour⟩ := five_le_frmFasRun_iff.mp h5
    hb.elim hbad (Nat.not_lt_of_le hfour)
  exact (if_neg (ne_false_of_eq_true h)).trans ((if_neg (not_not_intro hf)).trans ((if_neg (ne_false_of_eq_true hi)).trans (if_neg hrun)))

end

/-! ### FRM_LOF_TIMER -/

/-- LOF is declared: shown and seen (R239). -/
abbrev lofDeclared (s : State) (c : Carrier) : State :=
  (s.setFlag (R.FRM_DEFECT c) F.FRM_DEFECT_lof true).setFlag (R.FRM_STATUS c) F.FRM_STATUS_lof_seen true

/-- DEVTIME of the declaration is kept. -/
abbrev lofDated (s : State) (c : Carrier) : State := (lofDeclared s c).setFrm c { (lofDeclared s c).frm c with lofAt := s.time.devtime }

section
variable {s : State} {c : Carrier}

theorem frmLofTimer_idle (h : s.frmLive c = false) (lom : Bool) : Does (.frmLofTimer c lom) s s := if_pos h

/-- A live deframer judges LOM. -/
theorem frmLofTimer_lom (h : s.frmLive c = true) : execFrmLofTimer c true s =
    (if s.flag (R.FRM_DEFECT c) F.FRM_DEFECT_oom = s.flag (R.FRM_DEFECT c) F.FRM_DEFECT_lom then .next s
      else if s.flag (R.FRM_DEFECT c) F.FRM_DEFECT_oom then
        .next ((((s.setFlag (R.FRM_DEFECT c) F.FRM_DEFECT_lom true).setFlag (R.FRM_STATUS c) F.FRM_STATUS_lom_seen true).logEvent
          (frmId c) sevAlarm 0x0003 []).frmActs c false)
      else .next (s.setFlag (R.FRM_DEFECT c) F.FRM_DEFECT_lom false)) :=
  (if_neg (ne_false_of_eq_true h)).trans (if_pos rfl)

/-- A live deframer judges LOF. -/
theorem frmLofTimer_lof (h : s.frmLive c = true) : execFrmLofTimer c false s =
    (if s.flag (R.FRM_DEFECT c) F.FRM_DEFECT_oof = s.flag (R.FRM_DEFECT c) F.FRM_DEFECT_lof then .next s
      else if s.flag (R.FRM_DEFECT c) F.FRM_DEFECT_oof then
        .next (((((lofDated s c).logEvent (frmId c) sevAlarm 0x0001 (evData [(4, ((lofDated s c).frm c).oofFrames)])).elwBreak c).monUrgentBit
          (2 + c.code)).frmActs c false)
      else .next ((s.setFlag (R.FRM_DEFECT c) F.FRM_DEFECT_lof false).logEvent (frmId c) sevInfo 0x0002
        (evData [(8, (s.time.devtime - ((s.setFlag (R.FRM_DEFECT c) F.FRM_DEFECT_lof false).frm c).lofAt).toNat)]))) :=
  (if_neg (ne_false_of_eq_true h)).trans (if_neg Bool.false_ne_true)

/-- A set flag differs from a clear one. -/
theorem set_ne_clear {p q : Bool} (hp : p = true) (hq : q = false) : p ≠ q :=
  fun he => Bool.false_ne_true (hq.symm.trans (he.symm.trans hp))

variable (h : s.frmLive c = true)
include h

theorem frmLofTimer_lomStays (he : s.flag (R.FRM_DEFECT c) F.FRM_DEFECT_oom = s.flag (R.FRM_DEFECT c) F.FRM_DEFECT_lom) :
    Does (.frmLofTimer c true) s s := (frmLofTimer_lom h).trans (if_pos he)

theorem frmLofTimer_lomDeclared (ho : s.flag (R.FRM_DEFECT c) F.FRM_DEFECT_oom = true) (hl : s.flag (R.FRM_DEFECT c) F.FRM_DEFECT_lom = false) :
    Does (.frmLofTimer c true) s ((((s.setFlag (R.FRM_DEFECT c) F.FRM_DEFECT_lom true).setFlag (R.FRM_STATUS c) F.FRM_STATUS_lom_seen true).logEvent
      (frmId c) sevAlarm 0x0003 []).frmActs c false) :=
  (frmLofTimer_lom h).trans ((if_neg (set_ne_clear ho hl)).trans (if_pos ho))

theorem frmLofTimer_lomCleared (ho : s.flag (R.FRM_DEFECT c) F.FRM_DEFECT_oom = false) (hl : s.flag (R.FRM_DEFECT c) F.FRM_DEFECT_lom = true) :
    Does (.frmLofTimer c true) s (s.setFlag (R.FRM_DEFECT c) F.FRM_DEFECT_lom false) :=
  (frmLofTimer_lom h).trans ((if_neg (set_ne_clear hl ho).symm).trans (if_neg (ne_true_of_eq_false ho)))

theorem frmLofTimer_lofStays (he : s.flag (R.FRM_DEFECT c) F.FRM_DEFECT_oof = s.flag (R.FRM_DEFECT c) F.FRM_DEFECT_lof) :
    Does (.frmLofTimer c false) s s := (frmLofTimer_lof h).trans (if_pos he)

theorem frmLofTimer_lofDeclared (ho : s.flag (R.FRM_DEFECT c) F.FRM_DEFECT_oof = true) (hl : s.flag (R.FRM_DEFECT c) F.FRM_DEFECT_lof = false) :
    Does (.frmLofTimer c false) s (((((lofDated s c).logEvent (frmId c) sevAlarm 0x0001
      (evData [(4, ((lofDated s c).frm c).oofFrames)])).elwBreak c).monUrgentBit (2 + c.code)).frmActs c false) :=
  (frmLofTimer_lof h).trans ((if_neg (set_ne_clear ho hl)).trans (if_pos ho))

theorem frmLofTimer_lofCleared (ho : s.flag (R.FRM_DEFECT c) F.FRM_DEFECT_oof = false) (hl : s.flag (R.FRM_DEFECT c) F.FRM_DEFECT_lof = true) :
    Does (.frmLofTimer c false) s ((s.setFlag (R.FRM_DEFECT c) F.FRM_DEFECT_lof false).logEvent (frmId c) sevInfo 0x0002
      (evData [(8, (s.time.devtime - ((s.setFlag (R.FRM_DEFECT c) F.FRM_DEFECT_lof false).frm c).lofAt).toNat)])) :=
  (frmLofTimer_lof h).trans ((if_neg (set_ne_clear hl ho).symm).trans (if_neg (ne_true_of_eq_false ho)))

end

/-! ### OSP_WINDOW -/

/-- The block that goes out of a port where nothing was received: valid = 0. -/
abbrev ospSilent : Bool × List Byte := (false, List.replicate 8 0)

/-- The port after a window: what goes out, what stays received, the block on OSP_RXD inserted where there is room (R247). -/
abbrev ospPassed (s : State) (port : Fin 8) (valid : Bool) (data : List Byte) (out : Bool × List Byte) (rest : List (List Byte)) : State :=
  s.setOsp port.val { rxq := rest
                      insq := if valid && !decide (4 ≤ (s.ospPort port.val).insq.length) then (s.ospPort port.val).insq ++ [data]
                        else (s.ospPort port.val).insq
                      txd := some out }

/-- An inserted block beyond four is shown and logged (R247). -/
abbrev ospJudged (s : State) (port : Fin 8) (valid : Bool) (ch : Nat) (t : State) : State :=
  if valid && decide (4 ≤ (s.ospPort port.val).insq.length) then
    (t.setFlag (R.OSP_STATUS port.val) F.OSP_STATUS_ins_ovf true).logEvent (frmId (chanCar ch)) sevWarn 0x0008 (evData [(1, port.val), (1, 1)])
  else t

section
variable {s : State} {port : Fin 8} {valid : Bool} {data : List Byte} {ch : Nat}

theorem ospWindow_unclaimed (h : s.ospChan port.val = none) :
    Does (.ospWindow port valid data) s (s.setOsp port.val { s.ospPort port.val with txd := none }) := by
  change execOspWindow port valid data s = _
  rw [execOspWindow, h]

variable (h : s.ospChan port.val = some ch)
include h

theorem ospWindow_disabled (he : s.flag (R.OSP_CFG port.val) F.OSP_CFG_enable = false) :
    Does (.ospWindow port valid data) s (s.setOsp port.val { s.ospPort port.val with txd := none }) := by
  change execOspWindow port valid data s = _
  rw [execOspWindow, h]
  exact if_pos he

variable (he : s.flag (R.OSP_CFG port.val) F.OSP_CFG_enable = true)
include he

theorem ospWindow_interoperable (hf : s.carFamily (chanCar ch) ≠ 0) :
    Does (.ospWindow port valid data) s (s.setOsp port.val { s.ospPort port.val with txd := some ospSilent }) := by
  change execOspWindow port valid data s = _
  rw [execOspWindow, h]
  exact (if_neg (ne_false_of_eq_true he)).trans (if_pos hf)

variable (hf : s.carFamily (chanCar ch) = 0)
include hf

theorem ospWindow_nothingReceived (hq : (s.ospPort port.val).rxq = []) :
    Does (.ospWindow port valid data) s (ospJudged s port valid ch (ospPassed s port valid data ospSilent [])) := by
  change execOspWindow port valid data s = _
  rw [execOspWindow, h]
  refine (if_neg (ne_false_of_eq_true he)).trans ((if_neg (not_not_intro hf)).trans ?_)
  simp only [hq]

theorem ospWindow_received {b : List Byte} {l : List (List Byte)} (hq : (s.ospPort port.val).rxq = b :: l) :
    Does (.ospWindow port valid data) s (ospJudged s port valid ch (ospPassed s port valid data (true, b) l)) := by
  change execOspWindow port valid data s = _
  rw [execOspWindow, h]
  refine (if_neg (ne_false_of_eq_true he)).trans ((if_neg (not_not_intro hf)).trans ?_)
  simp only [hq]

end

/-- Settles O30: each row by its guard, in the order in which the model judges it. -/
theorem framingRows : Obligations.FramingRows := by
  unfold Obligations.FramingRows
  intro c s pos n hit lom valid oh payload marked port data b l ch
  exact ⟨frmTxFrame_idle, frmTxFrame_interoperable, frmTxFrame_sent,
    frmFasSearchMatch_idle, frmFasSearchMatch_drops, frmFasSearchMatch_inFrame, frmFasSearchMatch_advances,
    frmFasSearchMatch_mismatch, frmFasSearchMatch_opens, frmFasSearchMatch_full,
    frmRxFrame_idle, frmRxFrame_interoperable, frmRxFrame_outOfFrame, frmRxFrame_oof, frmRxFrame_used,
    fun h => frmLofTimer_idle h lom, frmLofTimer_lomStays, frmLofTimer_lomDeclared, frmLofTimer_lomCleared,
    frmLofTimer_lofStays, frmLofTimer_lofDeclared, frmLofTimer_lofCleared,
    rfl, ospWindow_unclaimed,
    fun h => ⟨ospWindow_disabled h, ospWindow_interoperable h, ospWindow_nothingReceived h,
      fun he hf hq => ospWindow_received h he hf hq⟩⟩

end Sys2Proof.Proofs
